-- ==== Sys2Proof/Word.lean ====
section
/-! DEFINITION. The word types of the model: bytes, 32-bit register words and 64-bit values, little-endian (R9, R10). -/

namespace Sys2Proof

/-- A byte of memory. -/
abbrev Byte := BitVec 8

/-- A 32-bit control-window word; also the bits of an F32 value. -/
abbrev Word := BitVec 32

/-- A 64-bit value: a register pair, an address, a seed, a home-table entry. -/
abbrev DWord := BitVec 64

end Sys2Proof
end

