-- ==== Sys2Proof/Syntax.lean ====
section
/-! DEFINITION. The commands of the block: one constructor for each of the 344 rows of spec/opcode_table.json, in the table's order, with the operands the row's rule gives it. -/

namespace Sys2Proof

/-- Physical core site number (R4, R50). -/
abbrev Site := Fin 1024
/-- Memory port or update engine number (R304, R349). -/
abbrev PortNo := Fin 24
/-- Herd number (R505). -/
abbrev HerdNo := Fin 64
/-- Function number (R17). -/
abbrev FnNo := Fin 64
/-- Beynex port number (R452). -/
abbrev BxNo := Fin 8
/-- Host port number (R502). -/
abbrev HpNo := Fin 4
/-- Control-window page number (R15). -/
abbrev PageNo := Fin 65536

/-- Who makes a control-window access (R20, BLK_ERRCAP0.requester). -/
inductive Requester where
  | fn (f : FnNo)
  | ringCtl
  deriving DecidableEq, Repr

/-- What a protected cell shows when it is read: the code finds no error, a correctable one, or an uncorrectable one
(R96, R134, R299). Cells fail by physics, so the command that reads one says what it found. -/
inductive Cell where
  | good
  | corrected
  | bad
  deriving DecidableEq, Repr

/-- Where a host command comes from: the function, its command ring and the command's tag (R508, R512). `reserved`: a reserved field of
the entry is nonzero, or, of a NOP command, its opcode is a reserved one (R512, R514, R515). -/
structure CmdId where
  fn : FnNo
  ring : Fin 16
  tag : BitVec 16
  reserved : Bool := false
  deriving DecidableEq, Repr

/-- The parameters of HERD_CREATE (R514). -/
structure HerdParams where
  ncores : Nat
  qmask : BitVec 4
  pod : Bool
  quota : Nat
  floor : Nat
  ngroups : Nat
  nprog : Nat
  nseq : Nat
  minper : Nat
  seed : DWord
  members : DWord
  deriving DecidableEq, Repr

/-- One HERD_REGW list entry (R517). -/
structure RegwEntry where
  member : BitVec 6
  hidx : Nat
  wide : Bool
  offset : BitVec 16
  value : DWord
  deriving DecidableEq, Repr

/-- The parameters of EVAL (R528). -/
structure EvalParams where
  image : DWord
  rowsM1 : Nat
  startRow : Nat
  trainImage : DWord
  trainRowsM1 : Nat
  afterStep : Word
  nb : Nat
  list : List RegwEntry
  deriving DecidableEq, Repr

/-- The parameters of SNAP_CFG (R570). -/
structure SnapParams where
  list : DWord
  entries : Nat
  kmax : Nat
  en : Bool
  pcie : Bool
  baxis : Fin 4
  raxis : Fin 4
  capFlag : BitVec 8
  base : DWord
  slotMiB : Nat
  mquota : Nat
  rmin : Nat
  deriving DecidableEq, Repr

/-- The header fields of a Beynex frame that its effect uses (R460). `port` is the port it arrives on, `crcOk` what the check
of its CRC-32 found. -/
structure FrameHdr where
  port : BxNo
  herd : HerdNo
  src : BitVec 6
  dst : BitVec 6
  dl : Bool
  poison : Bool
  lseq : BitVec 16
  cid : BitVec 16
  kind : BitVec 4
  pass : BitVec 4
  offset : Word
  addr : DWord
  count : Word
  crcOk : Bool
  deriving DecidableEq, Repr

/-- A multicast credit request as it arrives (R494): its frame, and the bytes it names (log entry 147). -/
structure McRequest where
  hdr : FrameHdr
  bytes : Word
  deriving DecidableEq, Repr

/-- A sideband symbol as it arrives (R468): its port, and what the check of its CRC-16 found. -/
structure SymPort where
  port : BxNo
  crcOk : Bool
  deriving DecidableEq, Repr

/-- The sideband symbol fields of a HALT (R468); `crcOk`: what the check of its CRC-16 found. -/
structure HaltSym where
  port : BxNo
  origin : BitVec 6
  herd : HerdNo
  target : BitVec 6
  all : Bool
  crcOk : Bool
  deriving DecidableEq, Repr

/-- The pod configuration a PARTITION POD command or a TAKEOVER carries (R619, R563): `nbr` holds the six BX_NBR words. -/
structure PodParams where
  podId : BitVec 16
  pos : BitVec 6
  leadPos : BitVec 6
  zszM1 : BitVec 2
  present : DWord
  nbr : List Word
  deriving DecidableEq, Repr

/-- A herd that a TAKEOVER orders a spare to create and refill (R563): the HERD_CREATE parameters recorded for the failed position, the
group and program ranges, the SNAP_CFG settings, and s*. -/
structure TakeHerd where
  herd : HerdNo
  create : HerdParams
  firstGroup : Nat
  firstProg : Nat
  snap : SnapParams
  star : DWord
  deriving DecidableEq, Repr

/-- The management tag of a management command's response (R617). -/
abbrev MTag := BitVec 8

/-- The commands of the GX960 (spec/opcode_table.json). A command that writes a register names its requester `r` and the
value `v` written; the host's list and image contents, and what a neighbour or a cable returns, are operands because they
lie outside the module. -/
inductive Instr where
  -- control window
  | registerWrite (r : Requester) (off : BitVec 28) (data : List (Option Byte))
  | rcRead (r : Requester) (off : BitVec 28) (len : Nat)
  | blkReset (r : Requester) (p : PageNo)
  | blkResetDone (p : PageNo)
  | cntClr (r : Requester) (p : PageNo) (v : Word)
  | blkFence (r : Requester) (p : PageNo) (v : Word)
  | blkFenced (p : PageNo)
  | blkIset (r : Requester) (p : PageNo) (v : Word)
  -- mesh and fabric
  | routerForward (i : Nat)
  | ageIncrement (i : Nat)
  | localPortArrive (i : Nat)
  | bulkWindowOpen (n : Fin 4)
  | bulkWindowClose (n : Fin 4)
  | fabDetourWrite (r : Requester) (s : Site) (n : Fin 32) (v : Word)
  | meshQuiesce (r : Requester) (v : Word)
  | meshQuiesced
  | routerFault (s : Site)
  | distTableRewrite (done : Bool)
  | coreFence (s : Site)
  | fenceTimeout (s : Site)
  -- sequencer and core
  | rodRowWrite (r : Requester) (s : Site) (w : Fin 8192) (v : Word)
  | seqArm (r : Requester) (s : Site)
  | seqResume (r : Requester) (s : Site)
  | seqStop (r : Requester) (s : Site)
  | rloadGo (r : Requester) (s : Site) (v : Word)
  | rloadDone (s : Site)
  | rcInval (r : Requester) (s : Site) (v : Word)
  | coreScrub (s : Site) (found : List Cell)
  | rowCacheFill (s : Site) (line : Nat)
  | nop (s : Site)
  | next (s : Site) (row : Cell)
  | loop (s : Site) (row : Cell)
  | endl (s : Site) (row : Cell)
  | bead (s : Site) (row : Cell)
  | alt (s : Site) (row : Cell)
  | halt (s : Site) (row : Cell)
  | coreHalted (s : Site)
  | twait (s : Site) (row : Cell)
  | twaitc (s : Site) (row : Cell)
  | cwait (s : Site) (row : Cell)
  | waitRegister (s : Site)
  | waitRelease (s : Site)
  | waitTimeout (s : Site)
  | waitCancel (s : Site)
  | coreFaulted (s : Site)
  -- cube array, masks, DWQ
  | cmmF (s : Site)
  | cmmI (s : Site)
  | cmmW (s : Site)
  | cmmStep (s : Site)
  | cubeAccumulate (s : Site)
  | cubeInj (r : Requester) (s : Site) (v : Word)
  | maskEvaluate (s : Site) (found : List Cell)
  | dwqEnqueue (s : Site)
  | dwqStart (s : Site)
  -- tiles and vector registers
  | tld (s : Site)
  | tst (s : Site)
  | tileRow (s : Site) (found : List Cell)
  | tileTcWrite (r : Requester) (s : Site) (n : Fin 8) (lo hi : Option Word)
  | tcPendingStore (s : Site) (n : Fin 8)
  | vld (s : Site)
  | vst (s : Site)
  -- vector unit
  | add (s : Site)
  | sub (s : Site)
  | mul (s : Site)
  | fma (s : Site)
  | max (s : Site)
  | min (s : Site)
  | div (s : Site)
  | fn (s : Site)
  | fnd (s : Site)
  | red (s : Site)
  | rget (s : Site)
  | dmsk (s : Site)
  | msk (s : Site)
  | cvt (s : Site)
  | cvh (s : Site)
  | dec (s : Site)
  | cur (s : Site)
  | bsc (s : Site)
  | tcw (s : Site)
  -- mover and tallies
  | movC (s : Site)
  | movP (s : Site)
  | moverWord (s : Site) (ch : Fin 2) (found : Cell)
  | moverCopyDone (s : Site) (ch : Fin 2)
  | movpFencedResponse (s : Site) (ch : Fin 2)
  | tset (s : Site)
  | tclr (s : Site)
  | cinc (s : Site)
  | tallyPacketArrive (s : Site)
  | tallyAck (s : Site)
  | mirrorUpdate (s : Site)
  | tlyFlagSet (r : Requester) (s : Site) (k : Fin 8) (v : Word)
  | tlyFlagClear (r : Requester) (s : Site) (k : Fin 8) (v : Word)
  -- scale table
  | scaleMergeSend (s : Site)
  | scaleMerge
  | scaleEvaluate (n : PortNo)
  -- update engines
  | ueRingPoll (n : PortNo) (h : HerdNo)
  | ueDescriptorTake (n : PortNo) (h : HerdNo)
  | update (n : PortNo) (h : HerdNo)
  | accumulate (n : PortNo) (h : HerdNo)
  | updateWithAccumulatedGradient (n : PortNo) (h : HerdNo)
  | groupLoad (n : PortNo) (h : HerdNo)
  | groupStore (n : PortNo) (h : HerdNo)
  | advance (n : PortNo) (h : HerdNo)
  | ueBatch (n : PortNo) (h : HerdNo)
  | ueDescriptorEnd (n : PortNo) (h : HerdNo)
  | uePloadGo (r : Requester) (n : PortNo) (v : Word)
  | uePloadDone (n : PortNo)
  | programReplace (n : PortNo)
  | ueRingEnable (r : Requester) (bx : Bool) (n : PortNo) (h : HerdNo) (v : Word)
  -- unified range and migration
  | alloc (c : CmdId) (page n : Nat) (dest : Fin 4) (port : Nat) (wr pinned : Bool)
  | free (c : CmdId) (page n : Nat)
  | move (c : CmdId) (page n : Nat) (dest : Fin 4) (port : Nat)
  | pin (c : CmdId) (page n : Nat)
  | unpin (c : CmdId) (page n : Nat)
  | prot (c : CmdId) (page n : Nat) (wr : Bool)
  | share (c : CmdId) (page n : Nat) (set : BitVec 8)
  | admitHerd (c : CmdId) (set : BitVec 8) (herd : HerdNo)
  | revoke (c : CmdId) (set : BitVec 8) (herd : HerdNo)
  | pageMove
  | pageMoveDone (page : Nat)
  | touchWrite (page : Nat)
  | evict
  | migHfloorWrite (r : Requester) (h : HerdNo) (v : Word)
  | migHpfWrite (r : Requester) (h : HerdNo) (w : Fin 3) (v : Word)
  | prefetchDone (h : HerdNo) (entry : Nat)
  -- memory ports
  | mpRead (n : PortNo) (lblock : Nat) (src : Fin 8) (herd : Option HerdNo) (noise : List (Nat × Byte))
  | mpWrite (n : PortNo) (lblock : Nat) (data : List Byte)
  | narrowWrite (n : PortNo) (lblock : Nat) (herd : HerdNo) (data : List (Option Byte))
  | mergeHoldExpire (n : PortNo)
  | fillDone (n : PortNo)
  | patrolScrub (n : PortNo) (noise : List (Nat × Byte))
  | mpRemapWrite (r : Requester) (n : PortNo) (e : Fin 64) (v : Word)
  | testWriteGenerated (r : Requester) (n : PortNo)
  | testWriteData (r : Requester) (n : PortNo)
  | testWriteCheck (r : Requester) (n : PortNo)
  | testWriteBoth (r : Requester) (n : PortNo)
  | testReadRaw (r : Requester) (n : PortNo)
  | testReadDecode (r : Requester) (n : PortNo)
  -- dump and bead
  | dumpGo (r : Requester) (v : Word)
  | dumpEnd
  | beadBoundary
  | beadRunStart (r : Requester) (v : Word)
  | mark (port : SymPort) (bead : BitVec 16) (lag : BitVec 16) (late : Bool) (measured : Option Nat)
  | markerLost
  | beadHoldStart
  | beadNextWrite (r : Requester) (v : Word)
  | report (port : SymPort) (bead : BitVec 16) (slip : Bool) (votes : DWord)
  | reportDeadline
  | result (port : SymPort) (bead : BitVec 16) (slip missing : Bool) (votes : DWord)
  | haltPause (h : HaltSym)
  | haltFail (h : HaltSym)
  | haltLinkStop (h : HaltSym)
  | haltLinkResume (h : HaltSym)
  -- links and frames
  | linkAck (p : SymPort) (lseq : BitVec 16)
  | linkReplay (p : SymPort) (lseq : BitVec 16)
  | linkCredit (p : SymPort) (credits : List Nat)
  | linkUp (p : BxNo) (partner : Word) (delayNs : BitVec 16)
  | linkDown (p : BxNo)
  | linkRetrain (r : Requester) (p : BxNo) (v : Word)
  | frameForward (f : FrameHdr) (type : BitVec 8) (data : List Byte)
  | wr (f : FrameHdr) (data : List Byte)
  | redFrame (f : FrameHdr) (data : List Byte)
  | gat (f : FrameHdr) (data : List Byte)
  | mcd (f : FrameHdr) (data : List Byte)
  | mreq (f : McRequest)
  | mgnt (f : FrameHdr)
  | multicastSend (h : HerdNo)
  | mrel (f : FrameHdr)
  | mdone (f : FrameHdr)
  | abort (f : FrameHdr)
  | flag (f : FrameHdr) (index : BitVec 8) (set : Bool)
  | hresume (f : FrameHdr) (startBead : DWord)
  | hcmd (f : FrameHdr) (htag : BitVec 16) (part : BitVec 8) (last : Bool) (opcode : BitVec 8) (params : List Byte)
      (entries : List RegwEntry)
  | hcpl (f : FrameHdr) (htag : BitVec 16) (status part : BitVec 8) (count : Word) (result : DWord) (record : List Byte)
  | hcmdTimeout (htag : BitVec 16)
  | period (f : FrameHdr) (value : Nat) (atBead : DWord)
  | join (f : FrameHdr) (bead : DWord)
  | mdown (f : FrameHdr) (pos : BitVec 6)
  | memberFailDeclare (pos : BitVec 6)
  -- collectives
  | collectiveTake (h : HerdNo)
  | reduceScatter (h : HerdNo)
  | allReduce (h : HerdNo)
  | allGather (h : HerdNo)
  | broadcast (h : HerdNo)
  | reduce (h : HerdNo)
  | send (h : HerdNo)
  | multicast (h : HerdNo)
  | collectiveEnd (h : HerdNo) (status : BitVec 8)
  | cableInsert (p : BxNo) (ident media length : Byte) (readOk : Bool) (vendor part serial : List Byte)
  | cableRemove (p : BxNo)
  -- host rings and functions
  | doorbell (f : FnNo) (off : BitVec 16) (data : List (Option Byte))
  | completionWrite (f : FnNo) (ring : Fin 16)
  | ringEnable (r : Requester) (f : FnNo) (ring : Option (Fin 16)) (v : Word)
  | ringDisable (r : Requester) (f : FnNo) (ring : Option (Fin 16)) (v : Word)
  | noticeWrite (f : FnNo)
  | bar2BaseWrite (r : Requester) (f : FnNo) (lo hi : Option Word)
  | bar2Resize (f : FnNo) (log2 : Nat)
  | bar2Read (f : FnNo) (off : Nat) (len : Nat)
  | bar2Write (f : FnNo) (off : Nat) (data : List (Option Byte))
  | nopCommand (c : CmdId)
  | herdCreate (c : CmdId) (p : HerdParams)
  | herdRings (c : CmdId) (area : DWord) (lsize : Nat)
  | herdRegw (c : CmdId) (list : List RegwEntry)
  | herdStart (c : CmdId) (ahead : Nat) (setidx : Bool) (stepidx : DWord)
  | herdStop (c : CmdId)
  | herdResume (c : CmdId) (ahead : Nat)
  | herdPark (c : CmdId)
  | herdUnpark (c : CmdId) (ncores : Nat) (qmask : BitVec 4)
  | herdDestroy (c : CmdId)
  | extReg (c : CmdId) (base : DWord) (pages : Nat)
  | extDereg (c : CmdId) (extent : BitVec 8)
  | progLoad (c : CmdId) (image : DWord) (first count : Nat)
  | dump (c : CmdId) (dest : DWord)
  | eval (c : CmdId) (p : EvalParams)
  | evalSwitch (h : HerdNo)
  | evalRestore (h : HerdNo)
  | herdFaultTimeout (h : HerdNo)
  | functionLevelReset (f : FnNo)
  | vfEnableClear (k : HpNo)
  | hostPortReset (k : HpNo)
  | perstRelease (k : HpNo)
  -- snapshots and spares
  | snapCfg (c : CmdId) (p : SnapParams)
  | snapMtbf (c : CmdId) (mf : Word) (w : Byte) (resetObs : Bool)
  | snapNow (c : CmdId)
  | snapStat (c : CmdId)
  | snapRestore (c : CmdId) (base : DWord) (slot : Fin 2)
  | snapFetch (c : CmdId) (store : DWord) (dest : DWord) (bytes : Nat)
  | snapOff (c : CmdId)
  | ungroupedCopyDone (h : HerdNo)
  | entryFinal (h : HerdNo) (e : Nat)
  | entryCaptured (h : HerdNo) (e : Nat)
  | storeTimeout (h : HerdNo)
  | swr (h : HerdNo)
  | sack (p : BxNo) (h : HerdNo) (addr : DWord)
  | srd (h : HerdNo) (addr : DWord) (len : Nat)
  | srdr (p : BxNo) (h : HerdNo) (addr : DWord) (data : List Byte)
  | serr (p : BxNo) (h : HerdNo) (addr : DWord)
  | mwr (f : FrameHdr) (data : List Byte)
  | mack (f : FrameHdr)
  | scommit (f : FrameHdr)
  | sverified (f : FrameHdr)
  | splan (f : FrameHdr)
  | rdone (f : FrameHdr) (status : Byte)
  | restoreStart (h : HerdNo)
  | restoreChunk (h : HerdNo) (record : List Byte)
  | spq (p : BxNo) (addr : DWord)
  | sparePoll
  | spst (p : BxNo) (spare : Fin 4) (state : Byte)
  | takeover (p : BxNo) (addr : DWord) (cfg : PodParams) (herds : List TakeHerd)
  | tkack (p : BxNo) (spare : Fin 4)
  | filldone (p : BxNo) (spare : Fin 4) (ok : Bool)
  | standdown (p : BxNo) (addr : DWord)
  -- power
  | pwrEnRise
  | pwrEnHoldoffEnd
  | railsGood (hpSplit : BitVec 2) (inlineDisN : Bool) (slotId : BitVec 3)
  | pwrEnFall
  | protectionTrip
  | thermalTrip (sensor : Fin 5) (temp : BitVec 16)
  | inputLow (vin : BitVec 16)
  | powerWindowEnd (avg peak : Nat) (vin iin : BitVec 16)
  -- reset and boot
  | powerOnReset
  | pllLock
  | pllLockLoss (cr : Fin 5)
  | bankChoose (readA readB : Bool)
  | firmwareStart
  | channelTrained (n : PortNo) (ch : Fin 8)
  | runEntry (fru : Option (List Byte))
  | deviceReset
  | pageFreeAll
  | mgtRstDev (r : Requester) (v : Word)
  | watchdogKick (r : Requester) (v : Word)
  | watchdogExpire
  -- management commands
  | reset (t : MTag)
  | fence (t : MTag) (s : Site)
  | herdFail (t : MTag) (h : HerdNo)
  | powerLimit (t : MTag) (watts : BitVec 12)
  | partitionPod (t : MTag) (p : PodParams)
  | partitionHostLimits (t : MTag) (k : HpNo) (cores frames groups herds seq : Nat)
  | partitionSpare (t : MTag) (podId : BitVec 16) (index : BitVec 2)
  | partitionAux (t : MTag) (a b : Bool)
  | remapLoad (t : MTag) (n : PortNo) (blocks : List Nat)
  | sysprogLoad (t : MTag) (first : Nat) (programs : List (List Word))
  | linkHalt (t : MTag) (action : Nat) (h : HerdNo)
  | openPermission (t : MTag)
  | svnCommit (t : MTag)
  | keyRevoke (t : MTag) (slot : Nat)
  | mgmtDumpStart (t : MTag)
  | mgmtDumpRead (t : MTag) (slot : Fin 4) (offset len : Nat)
  | fruRead (t : MTag) (fru : Option (List Byte))
  | regRead (t : MTag) (off : BitVec 28)
  -- MCTP, PLDM, SPDM
  | setEndpointId (eid : Byte)
  | getEndpointId
  | getEndpointUuid
  | getMctpVersionSupport (type : Byte)
  | getMessageTypeSupport
  | getVendorDefinedMessageSupport (selector : Byte)
  | getTid
  | setTid (tid : Byte)
  | getPldmVersion (type : Byte)
  | getPldmTypes
  | getPldmCommands (type : Byte)
  | getPdrRepositoryInfo
  | getPdr (record : Nat)
  | getSensorReading (sensor : Nat)
  | getStateSensorReadings (sensor : Nat)
  | setEventReceiver (enable : Byte) (receiver : Byte)
  | eventMessageSupported
  | eventMessageBufferSize (size : Nat)
  | pollForPlatformEventMessage
  | getFruRecordTableMetadata
  | getFruRecordTable (handle : Nat)
  | requestUpdate (size : Nat)
  | passComponentTable (component : Nat) (version : Word)
  | updateComponent (component : Nat) (version : Word)
  | requestFirmwareData (offset : Nat) (data : List Byte)
  | transferComplete
  | verifyComplete
  | applyComplete
  | activateFirmware (selfContained : Bool)
  | getStatus
  | cancelUpdate
  | getVersion
  | getCapabilities
  | negotiateAlgorithms
  | getDigests
  | getCertificate (slot : Nat) (offset len : Nat)
  | challenge (slot : Nat) (nonce : List Byte)
  | getMeasurements (index : Nat) (sign : Bool) (nonce : List Byte)
  | respondIfReady
  | getPqSig
  | getPqCert
  | pqSigReady
  -- events and the remaining rows
  | eventService (p : PageNo)
  | ownerSearchDone
  | vuResultWrite (s : Site)
  | vectorAccessComplete (s : Site) (i : Nat) (found : List Cell)
  | waitCancelAnswer (s : Site)
  | hostLinkUp (k : HpNo) (width : Nat) (speed : BitVec 3) (flit : Bool)
  | vfEnableSet (k : HpNo) (numVfs : Nat)
  | pllLockRegain (cr : Fin 5)
  | tempThresholdCross (sensor : Fin 5) (temp : BitVec 16)
  | storeDmaCompletion (h : HerdNo) (addr : DWord) (data : List Byte)
  | coreHardFault (s : Site)
  deriving DecidableEq, Repr

end Sys2Proof
end

