-- ==== Sys2Proof/Decode.lean ====
section
/-! DEFINITION. Words as commands. The table gives no row any bits: the device has no encoding of a command as a word. -/

namespace Sys2Proof

/-- The command that a word of nbits bits spells: none, for no row of the table gives bits. -/
def decodeTableWord (_nbits _w : Nat) : Option Instr := none

end Sys2Proof
end

