-- ==== Sys2Proof/Machine/Bits.lean ====
section
/-! DEFINITION. Bit fields of words, byte lists in little-endian order (R9, R10) and sign extension. -/

namespace Sys2Proof.Machine

/-- Bits [hi:lo] of a natural number's binary form. -/
def bits (w hi lo : Nat) : Nat := w / 2 ^ lo % 2 ^ (hi + 1 - lo)

/-- Bit i of a word, as a Bool. -/
def bit {n : Nat} (w : BitVec n) (i : Nat) : Bool := w.getLsbD i

/-- The field [hi:lo] of a word, as a number. -/
def fld {n : Nat} (w : BitVec n) (hi lo : Nat) : Nat := bits w.toNat hi lo

/-- The word with field [hi:lo] replaced by the low bits of v. -/
def setFld {n : Nat} (w : BitVec n) (hi lo v : Nat) : BitVec n :=
  BitVec.ofNat n (w.toNat - bits w.toNat hi lo * 2 ^ lo + v % 2 ^ (hi + 1 - lo) * 2 ^ lo)

/-- A Bool as a bit. -/
def b2n (b : Bool) : Nat := if b then 1 else 0

/-- A word with bit i set to b. -/
def setBit {n : Nat} (w : BitVec n) (i : Nat) (b : Bool) : BitVec n := setFld w i i (b2n b)

/-- The word whose bits [hi:lo] are ones and the others zeros. -/
def ones (hi lo : Nat) : Word := BitVec.ofNat 32 ((2 ^ (hi + 1 - lo) - 1) * 2 ^ lo)

/-- The n bytes of v, low byte first (R9). -/
def leBytes : Nat → Nat → List Byte
  | 0, _ => []
  | n + 1, v => BitVec.ofNat 8 v :: leBytes n (v / 256)

/-- The number that bytes give, low byte first (R9). -/
def leNat : List Byte → Nat
  | [] => 0
  | b :: bs => b.toNat + 256 * leNat bs

/-- The word that four bytes give. -/
def leWord (bs : List Byte) : Word := BitVec.ofNat 32 (leNat (bs.take 4))

/-- Words from bytes, four at a time; `n` words. -/
def leWords : Nat → List Byte → List Word
  | 0, _ => []
  | n + 1, bs => leWord bs :: leWords n (bs.drop 4)

/-- The low word and the high word of a 64-bit value. -/
def loWord (d : DWord) : Word := d.setWidth 32
/-- The high word of a 64-bit value. -/
def hiWord (d : DWord) : Word := (d >>> 32).setWidth 32
/-- A 64-bit value from its words. -/
def joinWords (lo hi : Word) : DWord := BitVec.ofNat 64 (lo.toNat + 4294967296 * hi.toNat)

/-- The integer that the field's two's-complement bits give, n bits wide. -/
def signed (n v : Nat) : Int := if v < 2 ^ (n - 1) then (v : Int) else (v : Int) - (2 ^ n : Nat)

/-- The list of the indexes below n at which the bits of v are ones. -/
def bitList (v n : Nat) : List Nat := (List.range n).filter (fun i => v.testBit i)

/-- The number of ones among the low n bits of v. -/
def popCount (v n : Nat) : Nat := (bitList v n).length

/-- The number with a one at every listed bit. -/
def ofBits : List Nat → Nat
  | [] => 0
  | i :: is => (ofBits is) ||| 2 ^ i

/-- The list with element i replaced. -/
def setAt {α : Type} (l : List α) (i : Nat) (x : α) : List α := l.set i x

/-- Least multiple of m that is at least n. -/
def roundUp (n m : Nat) : Nat := (n + m - 1) / m * m

/-- The quotient rounded up. -/
def ceilDiv (n m : Nat) : Nat := (n + m - 1) / m

/-- One bit of the CRC-32 of IEEE 802.3. -/
def crcBit (c : Word) : Word := if bit c 0 then (c >>> 1) ^^^ 0xEDB88320 else c >>> 1
/-- One byte of it. -/
def crcByte (c : Word) (b : Byte) : Word :=
  let x := c ^^^ b.setWidth 32
  crcBit (crcBit (crcBit (crcBit (crcBit (crcBit (crcBit (crcBit x)))))))
/-- The CRC-32 of IEEE 802.3 of bytes. -/
def crc32 (bs : List Byte) : Word := ~~~(bs.foldl crcByte 0xFFFFFFFF)

/-- One bit of a CRC-16 with the polynomial x¹⁶ + x¹² + x⁵ + 1. -/
def crc16Bit (c : BitVec 16) : BitVec 16 := if bit c 15 then (c <<< 1) ^^^ 0x1021 else c <<< 1
/-- One byte of it, its most significant bit first (PRESUMED, log entry 137). -/
def crc16Byte (c : BitVec 16) (b : Byte) : BitVec 16 :=
  let x := c ^^^ (b.setWidth 16 <<< 8)
  crc16Bit (crc16Bit (crc16Bit (crc16Bit (crc16Bit (crc16Bit (crc16Bit (crc16Bit x)))))))
/-- The CRC-16 of a sideband symbol (R468). -/
def crc16 (bs : List Byte) : BitVec 16 := bs.foldl crc16Byte 0xFFFF

end Sys2Proof.Machine
end

