-- ==== Sys2Proof/Machine/Hash.lean ====
section
/-! DEFINITION. SHA-384, as FIPS 180-4 gives it: the digest of chunks, images, measurements and transcripts (R533, R548, R610, R625). -/

namespace Sys2Proof.Machine

/-- No whole number from 2 to 20 other than p itself divides p; below 441 such a p from 2 on is prime. -/
def primeBelow441 (p : Nat) : Bool := 2 ≤ p && (List.range 21).all (fun d => d < 2 || d == p || p % d != 0)

/-- The primes up to 409, the first 80. -/
def primes80 : List Nat := (List.range 410).filter primeBelow441

/-- The greatest r < 2^n with r^k ≤ x, bit by bit from the most significant. -/
def rootBelow (k x : Nat) : Nat → Nat → Nat
  | 0, r => r
  | n + 1, r => rootBelow k x n (if (r + 2 ^ n) ^ k ≤ x then r + 2 ^ n else r)

/-- The first 64 bits of the fraction of the k-th root of p: the whole part, below 32, drops off above bit 63. -/
def rootFraction (k p : Nat) : BitVec 64 := BitVec.ofNat 64 (rootBelow k (p * 2 ^ (64 * k)) 69 0)

/-- The round constants: the cube roots' fractions of the first 80 primes (FIPS 180-4, 4.2.3). -/
def shaK : List (BitVec 64) := primes80.map (rootFraction 3)

/-- The initial hash value of SHA-384: the square roots' fractions of the ninth to the sixteenth prime (FIPS 180-4, 5.3.4). -/
def shaInit : List (BitVec 64) := ((primes80.drop 8).take 8).map (rootFraction 2)

/-- The message padded to whole 128-byte blocks. -/
def shaPad (m : List Byte) : List Byte :=
  m ++ 0x80 :: List.replicate (roundUp (m.length + 17) 128 - (m.length + 17)) 0 ++ (leBytes 16 (8 * m.length)).reverse

/-- A block's words, first byte most significant. -/
def shaWords : Nat → List Byte → List (BitVec 64)
  | 0, _ => []
  | n + 1, bs => BitVec.ofNat 64 (leNat (bs.take 8).reverse) :: shaWords n (bs.drop 8)

/-- The message schedule: n more words after those of the window w, 16 words with the latest last. -/
def shaSchedule : Nat → List (BitVec 64) → List (BitVec 64)
  | 0, _ => []
  | n + 1, w =>
    let a := w.getD 1 0
    let b := w.getD 14 0
    let s0 := a.rotateRight 1 ^^^ a.rotateRight 8 ^^^ a >>> 7
    let s1 := b.rotateRight 19 ^^^ b.rotateRight 61 ^^^ b >>> 6
    let x := w.getD 0 0 + s0 + w.getD 9 0 + s1
    x :: shaSchedule n (w.drop 1 ++ [x])

/-- One round on the eight working variables. -/
def shaRound (v : List (BitVec 64)) (k w : BitVec 64) : List (BitVec 64) :=
  match v with
  | [a, b, c, d, e, f, g, h] =>
    let t1 := h + (e.rotateRight 14 ^^^ e.rotateRight 18 ^^^ e.rotateRight 41) + ((e &&& f) ^^^ (~~~e &&& g)) + k + w
    let t2 := (a.rotateRight 28 ^^^ a.rotateRight 34 ^^^ a.rotateRight 39) + ((a &&& b) ^^^ (a &&& c) ^^^ (b &&& c))
    [t1 + t2, a, b, c, d + t1, e, f, g]
  | v => v

/-- One block on the hash value. -/
def shaBlock (h : List (BitVec 64)) (block : List Byte) : List (BitVec 64) :=
  let w := shaWords 16 block
  let v := (shaK.zip (w ++ shaSchedule 64 w)).foldl (fun v p => shaRound v p.1 p.2) h
  h.zipWith (· + ·) v

/-- n blocks. -/
def shaBlocks : Nat → List (BitVec 64) → List Byte → List (BitVec 64)
  | 0, h, _ => h
  | n + 1, h, bs => shaBlocks n (shaBlock h (bs.take 128)) (bs.drop 128)

/-- The 48 bytes of the SHA-384 digest, in the order in which the digest is written. -/
def sha384 (m : List Byte) : List Byte :=
  let p := shaPad m
  ((shaBlocks (p.length / 128) shaInit p).take 6).flatMap (fun x => (leBytes 8 x.toNat).reverse)

end Sys2Proof.Machine
end

