-- ==== Sys2Proof/Machine/State.lean ====
section
/-! DEFINITION. The state of the module, as plain data: the control window, the memories, the engines' work in progress, and the queue of commands that wait. -/

namespace Sys2Proof.Machine

/-- The power states of the module (R578). -/
inductive PowerState where
  | off
  | ramp
  | init
  | run
  | latched
  deriving DecidableEq, Repr

/-- The module's power pins (R578, R580). `holdoff`: less than 1 s has passed since the last fall of pwr_en. -/
structure Power where
  state : PowerState
  pwrEn : Bool
  /-- the input lies in its operating range, as last known (R577, R578) -/
  input : Bool
  holdoff : Bool
  pwrGood : Bool
  deriving DecidableEq, Repr

/-- The straps as sampled (R576). -/
structure Straps where
  hpSplit : BitVec 2
  inlineDisN : Bool
  slotId : BitVec 3
  deriving DecidableEq, Repr

/-- The fuse array (R54, R603). `coreOff` and `rtrOff` list the fused-off core sites and routers in ascending order. -/
structure Fuses where
  grade : BitVec 8
  coreOff : List Nat
  rtrOff : List Nat
  dieId : BitVec 128
  pen : Word
  keyHash : List (BitVec 384 × BitVec 384)
  prov : BitVec 4
  revoked : BitVec 4
  svn : Nat
  debugLock : Bool
  provLock : Bool
  checkOk : Bool
  deriving DecidableEq, Repr

/-- A value before rounding, as a step of the cubes forms it (R188, R189): whether a NaN, +∞, −∞ is among the terms, whether
every term so far is −0, and the exact sum `n × 2^e` of the finite ones. -/
structure Exact where
  nan : Bool
  pinf : Bool
  ninf : Bool
  allNegZero : Bool
  n : Int
  e : Int
  deriving DecidableEq, Repr

/-- An instruction that has issued and not retired (R104, R139, R162). `part`: 0 control word, 1 slot A, 2 slot B, 3 slot C.
`addr` is the resolved (local) word address, `far` the resolved far value of a copy, `tcA` and `tcB` the descriptors read at
issue; `started` once its unit runs it; `faulted` when it is the instruction kept unretired by R139. `origin` is the mask
origin (R295) and `trained` the trained map once evaluated (R297), bit 32 × y + x; of a TLD or TST, `orow` is the next tile row;
`id` counts the core's issued instructions. -/
structure Issued where
  id : Nat
  row : Nat
  part : Nat
  word : Word
  addr : Nat
  far : Nat
  tcA : DWord
  tcB : DWord
  started : Bool
  faulted : Bool
  cause : Nat
  orow : Nat
  ocol : Nat
  trained : Option (BitVec 512)
  deriving DecidableEq, Repr

/-- A product that steps or waits to step in the cube array, rod-table or DWQ (R193, R285). -/
structure CubeJob where
  insn : Issued
  step : Nat
  steps : Nat
  deriving DecidableEq, Repr

/-- A step that entered the cubes and is not yet accumulated (R196): the bank field, whether it starts from +0, and the exact
sum of its products for each output element 32 × y + x that the step reaches. -/
structure CubeStep where
  bank : Nat
  zacc : Bool
  sums : List (Nat × Exact)
  deriving DecidableEq, Repr

/-- A write that a VU operation still owes to port W1 (R278): a register, or a row accumulator, with the scale bytes
that go beside it. -/
structure W1Write where
  insn : Issued
  reg : Option (Nat × BitVec 512)
  ra : Option (Nat × List Word)
  scales : List (Nat × Byte)
  last : Bool
  deriving DecidableEq, Repr

/-- A tensor slot's running figures (R222). -/
structure Figures where
  elements : Nat
  clipped : Nat
  flushed : Nat
  nonfinite : Nat
  amax : Word
  deriving DecidableEq, Repr

/-- What the peer answers to a packet of a MOV.P (R147): the word read, the acknowledgment of a word written, a word in error that it
could not correct (R96), or a fenced response (R84). -/
inductive MovAnswer where
  | word (w : BitVec 256)
  | written
  | bad
  | fenced
  deriving DecidableEq, Repr

/-- A tally command on its way (R428): kind 0 TSET, 1 TCLR, 2 CINC; a registration or cancellation of a wait on a shared flag
(R421, R425), and what the home answers; a MOV.P's read of a word of the peer's store, or its write where it carries data, and the
response (R147). `found` is no part of the packet: what the read will find, as MOVER_WORD said (log entry 56). -/
inductive Payload where
  | tally (kind : Fin 3) (index : Nat) (delta : Byte) (step : Byte) (tagged : Bool) (row : Nat)
  | tallyAck (row : Nat) (fenced : Bool)
  | register (flag hidx : Nat) (clear : Bool)
  | cancel (flag hidx : Nat) (clear faulted : Bool)
  | cancelAnswer (flag : Nat) (clear released : Bool)
  | release
  | mirror (flag : Nat) (value : Bool)
  | movReq (ch : Fin 2) (word : Nat) (data : Option (BitVec 256)) (found : Cell)
  | movResp (ch : Fin 2) (answer : MovAnswer)
  deriving DecidableEq, Repr

/-- A packet in the mesh (R61): its header fields and its payload, and where its header is (router, input port). The type field is what
`Packet.type` gives. `inPort` and `exit`: 0 N, 1 E, 2 S, 3 W, 4 L; a header at input port 5 has been granted its local port, and one at
8 + p waits outside input port p, not yet in the mesh. -/
structure Packet where
  src : Nat
  dst : Nat
  exit : Nat
  vc : Nat
  age : Nat
  herd : Nat
  len : Fin 33
  at_ : Nat
  inPort : Nat
  payload : Payload
  deriving DecidableEq, Repr

/-- What the ring controller has computed for the mesh: the dead routers that the detour tables go round (R76), whether they broke the
placement limits since power-on (R81), and what the distance table was last written from (R90, R91): the withdrawn sites, and the
FAB_DETOUR words by 32 × site + entry. -/
structure Mesh where
  routed : List Nat
  barred : Bool
  distAway : List Nat
  distDetours : List (Nat × Word)
  deriving DecidableEq, Repr

/-- A wait registered at a shared flag in the TLY_ unit of the hidx 0 core (R421). -/
structure Waiter where
  flag : Nat
  hidx : Nat
  clear : Bool
  deriving DecidableEq, Repr

/-- What a core holds beyond its registers and arrays. -/
structure CoreX where
  /-- instructions issued and not retired, oldest first, and how many have issued -/
  issued : List Issued
  nextId : Nat
  /-- the row being waited on is registered (R421) -/
  registered : Bool
  /-- the wait's condition has held: the row may issue (R108, R123) -/
  released : Bool
  /-- a cancellation of the wait is on its way (R425); cancellations whose wait was satisfied by a release that crossed them, and whose
  answers are still to come -/
  cancelling : Bool
  crossed : Nat
  /-- bead boundaries since the start, and BEAD rows passed since the last step boundary (R126, R228) -/
  bounds : Nat
  rowsInStep : Nat
  /-- the core must stop at its next BEAD row (R136); must pause there (R142); a HALT row has issued (R135) with this code -/
  stopPend : Bool
  pausePend : Bool
  halting : Option Nat
  /-- a fault has been captured and the core drains toward FAULTED (R139); the slip of the first bead boundary after it is owed (R142) -/
  faulting : Bool
  slipOwed : Bool
  /-- an arm or resume taken: start afresh, continue from PAUSED, rerun the faulting instruction, or continue at SEQ_PC
  after an evaluation slot (R132, R143, R144, R530) -/
  armKind : Nat
  /-- EVAL: halt with code 0xFE when VU_STEPIDX [31:0] becomes this (R529) -/
  evalAt : Option Word
  /-- cube array: the product stepping, the one waiting (R193), the DWQ ring oldest first (R282), the pipeline (R196) -/
  cube : Option CubeJob
  cubeWait : Option CubeJob
  dwq : List CubeJob
  dwqHead : Nat
  dwqCur : Option CubeJob
  /-- a step boundary passed with entries queued (R286) -/
  dwqCarry : Bool
  pipe : List CubeStep
  /-- inverted bits of stored accumulator elements, by 64 × bank + element (R201, R646) -/
  accFlip : List (Nat × Nat)
  /-- port W1's queue (R278) -/
  w1 : List W1Write
  /-- running figures by tensor slot, generator uses by 64 × slot + lane since the bead boundary (R222, R228) -/
  figs : List (Nat × Figures)
  uses : List (Nat × Nat)
  /-- the cycle in which the core last started, and by lane the first cycle since then that its generator has not served (R227) -/
  startCycle : Nat
  laneNext : List (Nat × Nat)
  /-- the reads of R230 are done and the merges are owed; tensor slots that raised FORMAT in the step (R644) -/
  mergeOwed : Bool
  formatRaised : BitVec 16
  /-- the mirror of the 32 shared flags (R420); the waits registered at this core's shared flags -/
  mirror : BitVec 32
  waiters : List Waiter
  /-- tally packets that passed the local port and have not yet taken effect (R428, R429) -/
  inbox : List Payload
  inboxFrom : List Nat
  /-- pending values of TC0–TC7 (R166) -/
  tcPend : List (Nat × DWord)
  /-- row-cache lines held: line number and contents (R98) -/
  rowCache : List (Nat × BitVec 1024)
  /-- the scrubber's word position in each bank (R97) -/
  scrubPos : Nat
  /-- the fence sequence: pages fenced so far (R82); after a fence, the pages of R82's order still to be reset (R88) -/
  fenceStep : Nat
  owedResets : BitVec 7
  /-- mover channels whose MOV.P packet awaits its response, and the responses that have arrived (R147) -/
  movSent : List (Fin 2)
  movAnswers : List (Fin 2 × MovAnswer)
  deriving DecidableEq, Repr

/-- A prefetch entry of the herd's current step (R378–R384): its index and its words as read at the step boundary; whether it moves no
page (R382), has started, is done, has met its deadline slot, has missed; the pages it has moved into device memory (R375). -/
structure PfEntry where
  index : Nat
  words : List Word
  dead : Bool
  started : Bool
  done : Bool
  judged : Bool
  missed : Bool
  moved : List Nat
  deriving DecidableEq, Repr

/-- Who waits for a command's answer: the host command, or the lead that forwarded the command (R476). -/
inductive Asker where
  | host (c : CmdId)
  | lead (htag part herd : Nat)
  deriving DecidableEq, Repr

/-- A MOVE or PIN whose page moves run (R362, R366, R514): who waits, the moves still to end, and the pages changed so far. -/
structure MigRun where
  asker : Asker
  left : Nat
  changed : Nat
  deriving DecidableEq, Repr

/-- The training context that an evaluation slot saves (R530): the saved words of the cores' pages by address, and each core's
mirror and counters. -/
structure EvalCtx where
  cmd : Asker
  params : EvalParams
  phase : Nat
  startBead : Nat
  haltBead : Nat
  saved : List (Nat × Word)
  savedX : List (Nat × BitVec 32)
  deriving DecidableEq, Repr

/-- A resident herd (R505, R519): its owner (none on a pod member other than the lead), its cores in ascending logical order,
and what HERD_CREATE recorded. -/
structure Herd where
  owner : Option FnNo
  hport : HpNo
  sites : List Nat
  ncores : Nat
  qmask : BitVec 4
  quota : Nat
  floor : Nat
  firstGroup : Nat
  ngroups : Nat
  firstProg : Nat
  nprog : Nat
  nseq : Nat
  minper : Nat
  pod : Bool
  members : DWord
  parked : Bool
  failed : Bool
  parking : Option Asker
  mig : Option MigRun := none
  /-- step slots opened since the step boundary, and the beads of the last step boundaries, newest first (R377, R449, R556) -/
  stepSlot : Nat
  stepBeads : List Nat
  /-- a non-finite report was made in the step; the vote has closed (R239, R240); step that voted -/
  nonfinite : Bool
  voteClosed : Bool
  /-- bead at which a core fault was taken with no HERD_RESUME since (R524) -/
  faultBead : Option Nat
  prefetch : List PfEntry
  /-- a write of MIG_HPF_CTRLh that clears en, for the next step boundary (R385) -/
  hpfPend : Option Word
  eval : Option EvalCtx
  /-- at a member, the list entries of an EVAL whose last HCMD part has not come (R477) -/
  evalGot : List RegwEntry := []
  /-- at the lead, the first group and first program that each other member gave the herd (R514, R563) -/
  ranges : List (Nat × Nat × Nat) := []
  deriving DecidableEq, Repr

/-- An update descriptor taken by an engine (R310, R324). `phase`: 0 waiting for a vote or a program, 1 judged to run, 2 advanced
(R320), 3 batches running, 4 ended and owing its completion record. `entry` is the group entry as read, `shard` the shard record,
`batch` the next batch, `row5` that a waiting descriptor is judged again from row 5 (R340) and not from row 7. -/
structure UeDesc where
  eng : Nat
  herd : Nat
  words : List Word
  addr : Nat
  phase : Nat
  entry : List Word
  t : Word
  lr : Word
  b1 : Word
  b2 : Word
  tscale : Word
  noclip : Bool
  shard : List Word
  batch : Nat
  done : Nat
  changed : Nat
  status : Nat
  figs : Figures
  formatRaised : Bool
  row5 : Bool
  deriving DecidableEq, Repr

/-- A program replacement that waits (R340). -/
structure ProgPend where
  eng : Nat
  index : Nat
  words : List Word
  valid : Bool
  deriving DecidableEq, Repr

/-- A merge on its way to its scale-table entry (R230, R342). -/
structure Merge where
  herd : Nat
  addr : Nat
  figs : Figures
  site : Option Nat
  deriving DecidableEq, Repr

/-- A far extent (R360). -/
structure Extent where
  base : DWord
  pages : Nat
  port : HpNo
  fn : FnNo
  herd : Nat
  /-- its host port has been lost (R532): accesses to the pages homed in it fault -/
  lost : Bool
  deriving DecidableEq, Repr

/-- A page move asked for or in progress (R362): destination port, or none for the far tier; `home` and `far` are the destination
once started; `after` is a free (none) or a share into a set that waits for the move's end (R365); `entry` is the prefetch entry of the
current step that asked for it. -/
structure PageMove where
  page : Nat
  herd : Nat
  dest : Option Nat
  explicit_ : Bool
  setPinned : Bool
  home : Nat
  far : Bool
  started : Bool
  after : Option (Option Nat)
  entry : Option Nat
  deriving DecidableEq, Repr

/-- A merge-buffer entry of a memory port (R399). -/
structure MergeEntry where
  port : Nat
  lblock : Nat
  bytes : List (Option Byte)
  herd : Nat
  /-- bytes of which only some bits are written, and that are not enabled (R215): place, mask of those bits, value -/
  bits : List (Nat × Byte × Byte)
  deriving DecidableEq, Repr

/-- A frame kept in a replay buffer, or sent (R460, R466). -/
structure Frame where
  type : Byte
  lvc : Nat
  herd : Nat
  src : Nat
  dst : Nat
  dl : Bool
  poison : Bool
  lseq : Nat
  cid : Nat
  kind : Nat
  pass : Nat
  offset : Nat
  addr : Nat
  count : Nat
  data : List Byte
  deriving DecidableEq, Repr

/-- The command in an HCMD frame (R477): its tag, part, whether it is the last part, the opcode, the parameters, and the entries. -/
structure HeldCmd where
  htag : Nat
  part : Nat
  last : Bool
  op : Nat
  params : List Byte
  entries : List RegwEntry
  deriving DecidableEq, Repr

/-- A frame that lies in a receive buffer until it can be taken (R462): its header, type and payload, and of an HCMD the command. -/
structure HeldFrame where
  hdr : FrameHdr
  type : Nat
  data : List Byte
  cmd : Option HeldCmd
  deriving DecidableEq, Repr

/-- A Beynex port's link state beyond its registers (R462, R466). `credits` holds the bytes of credit of LVC0, then LVC1–LVC3
for dl = 0 and for dl = 1; `waiting` the frames formed and not yet sent, for want of credit or of the link; `turn` the channel of LVC1–LVC3
served last; `asked` that a replay request has gone since the last frame was taken in order; `resend` the lseq from which a replay that a
link stop broke off goes on (R474); `held` the frames for this member that its receive buffers keep until they can be taken, oldest first. -/
structure BxPort where
  txSeq : Nat
  rxSeq : Nat
  replay : List Frame
  waiting : List Frame
  credits : List Nat
  turn : Nat
  asked : Bool
  resend : Option Nat
  held : List HeldFrame
  deriving DecidableEq, Repr

/-- The bead exchange of a pod member (R472, R479, R480). `kids` holds the torus ports whose REPORT is expected at this boundary, `missed` at
how many consecutive boundaries the REPORT of each has been missing. -/
structure Sideband where
  slip : Bool
  votes : DWord
  reported : BitVec 8
  missing : Bool
  sent : Bool
  linkStop : Bool
  closing : List Nat
  joinBead : Option DWord
  kids : List Nat
  missed : List (Nat × Nat)
  deriving DecidableEq, Repr

/-- A host command for a pod herd at the lead (R476 to R478): the positions, the lead's own among them, that owe an answer; of a
HERD_REGW, the parts still to send, the number of the next and the entries applied; the first status above 0 answered, and the result. `params` are the
command's parameters as the host wrote them. -/
structure HcmdOut where
  htag : Nat
  cmd : Option CmdId
  opcode : Nat
  herd : Nat
  waiting : List Nat
  part : Nat
  parts : List (Nat × List RegwEntry)
  applied : Nat
  status : Nat
  result : DWord
  params : List Byte
  deriving DecidableEq, Repr

/-- A collective descriptor that is active (R483 to R497). `elems` lists the trained elements under a mask; `vals` the values held by
element index; `pass` is the pass in progress, `passOn` whether it has begun here, `got` the elements that have arrived in it. `sent`
and `recvd` count elements or bytes sent and written, `grants` lists the positions that granted, `donePos` those that sent MDONE. -/
structure Collective where
  herd : Nat
  words : List Word
  addr : Nat
  started : Bool
  elems : Option (List Nat)
  vals : List (Nat × Word)
  pass : Nat
  passOn : Bool
  got : Nat
  sent : Nat
  recvd : Nat
  grants : List Nat
  donePos : List Nat
  dataSent : Bool
  finished : Bool
  status : Nat
  deriving DecidableEq, Repr

/-- A multicast request at a target (R494, R496): granted or waiting, and the bytes received so far. -/
structure McGrant where
  src : Nat
  cid : Nat
  herd : Nat
  count : Nat
  granted : Bool
  data : List (Nat × Byte)
  deriving DecidableEq, Repr

/-- What the management memory of an attached cable or module gives (R499): `readOk` whether the device can read it. -/
structure Cable where
  ident : Byte
  media : Byte
  length : Byte
  readOk : Bool
  vendor : List Byte
  part : List Byte
  serial : List Byte
  deriving DecidableEq, Repr

/-- A completion that the ring controller owes to a command ring (R511, R512). -/
structure Completion where
  fn : FnNo
  ring : Fin 16
  tag : BitVec 16
  status : Byte
  result : DWord
  deriving DecidableEq, Repr

/-- A notice waiting to be written (R526). -/
structure Notice where
  fn : FnNo
  kind : Byte
  herd : Nat
  reason : Byte
  bead : DWord
  detail : List Byte
  deriving DecidableEq, Repr

/-- A protection-list entry of a herd (R535). `counts` holds, by step, the completion records received for its groups and the sums of
their changed and done (R538, R541); `final`, `captured` and `useM` its state in the capture in progress; `changedSince` whether its
groups have changed since the last verified step (R561); `based` whether the base slot of a verified snapshot holds it, `inBase` whether
the snapshot in progress writes it there (R537); `digests` the chunk digests of its last copy in the store, `stored` the method of that copy
(1 S, 2 M, 3 frozen); `kept` the digests of its copy in the last verified snapshot (R560). -/
structure SnapEntry where
  page : Nat
  npages : Nat
  frozen : Bool
  rep : Bool
  method : Nat
  gfirst : Nat
  gvalid : Bool
  gcount : Nat
  ndesc : Nat
  counts : List (Nat × Nat × Nat × Nat)
  final : Bool
  captured : Bool
  useM : Bool
  changedSince : Bool
  based : Bool
  inBase : Bool
  digests : List (List Byte)
  stored : Nat
  kept : List (List Byte)
  deriving DecidableEq, Repr

/-- A restore in progress (R558 to R561). `spare`: a spare's refill; `lost`: the failed position that a survivor restores for; `phase`
1: asked for, 2: chunks are taken; `full`: every entry is restored; `got` lists the chunks accepted by entry and chunk index, with their
digests; `retry` those that failed their digest once and are read once more, the manifests as (65536, position). -/
structure Restore where
  asker : Option Asker
  spare : Bool
  lost : Option Nat
  base : Nat
  slot : Nat
  phase : Nat
  full : Bool
  manifest : Option (List Byte)
  replica : Option (List Byte)
  got : List (Nat × Nat × List Byte)
  retry : List (Nat × Nat)
  deriving DecidableEq, Repr

/-- A SNAP_FETCH in progress (R570). -/
structure Fetch where
  asker : Asker
  store : Nat
  dest : Nat
  bytes : Nat
  got : Nat
  deriving DecidableEq, Repr

/-- The snapshot engine's state of a herd (R540–R557): `cur` the snapshot in progress; `cap` the step whose entries are being
captured, for the snapshot, for a mirror generation; `copied` the ungrouped entries' copy is done; `half` the half of the mirror
region that is current; `gen` the generation that it holds whole; `mirrorOut` the offsets sent and not acknowledged; `region` the
first frame of the region held here for the member that mirrors to this one; `sendQ` the writes to the store still to send, `await`
those not yet acknowledged; of the region held here, `lastHalf` the half that mirror data last came for, `heldHalf` the retained half. -/
structure Snap where
  params : Option SnapParams
  entries : List SnapEntry
  now : Bool
  cur : Option Nat
  cap : Option Nat
  capSnap : Bool
  capMirror : Bool
  copied : Bool
  half : Nat
  gen : Option Nat
  mirrorOut : List Nat
  retained : Option Nat
  region : Option Nat
  sendQ : List (Nat × List Byte)
  await_ : List Nat
  manifest : Bool
  groupDigests : List (List Byte)
  committed : List Nat
  verified : Nat
  heldHalf : Nat
  lastHalf : Nat
  restore : Option Restore
  fetch : Option Fetch
  deriving DecidableEq, Repr

/-- The spare protocol's state, at the lead and at a spare (R562–R567). At the lead: `last` the last SPST of each spare, `filling` the
spares that refill with the position each takes, `rdone` the restores done as 64 × herd + position, `failedPos` the failed positions not
yet refilled. At a spare: `ordered` the herds still to refill. -/
structure Spares where
  last : List (Nat × Byte)
  filling : List (Nat × Nat)
  ordered : List TakeHerd
  rdone : List Nat
  fullRestore : Bool
  failedPos : List Nat
  deriving DecidableEq, Repr

/-- An event record on its way (R627), with the capture's bead and cycle. -/
structure EvRecord where
  type : BitVec 16
  inst : BitVec 16
  code : BitVec 16
  requester : Byte
  cls : BitVec 3
  lost : Bool
  herd : Option Nat
  coalesced : Bool
  addr : DWord
  bead : DWord
  cyc : BitVec 24
  deriving DecidableEq, Repr

/-- A message in the event queue of R637. -/
structure EvMsg where
  evClass : Byte
  cls : Option (BitVec 3)
  data : List Byte
  deriving DecidableEq, Repr

/-- The firmware-update session of PLDM Type 5 (R613, R616). -/
structure Update where
  phase : Nat
  received : Nat
  size : Nat
  verified : Bool
  deriving DecidableEq, Repr

/-- The management port's state (R614–R624). -/
structure Mgmt where
  eid : Byte
  tid : Byte
  receiver : Byte
  evEnable : Byte
  bufSize : Nat
  update : Update
  spdmVersion : Bool
  spdmCaps : Bool
  spdmAlgs : Bool
  transcript : List Byte
  pending : Option (List Byte)
  pqReady : Bool
  board : List Byte
  deriving DecidableEq, Repr

/-- A post-mortem dump in progress (R434 to R438): reason, herd and herd_only, the bead and cycle at its start, and the host
command it serves with its destination. -/
structure DumpRun where
  reason : Nat
  herd : Nat
  herdOnly : Bool
  bead : DWord
  cyc : Nat
  cmd : Option Asker
  dest : Nat
  deriving DecidableEq, Repr

/-- What leaves the module: the acts it performs on its surroundings. -/
inductive Output where
  /-- the answer to a control-window or BAR2 read; none: Unsupported Request -/
  | readData (r : Option Requester) (data : Option (List Byte))
  /-- a DMA write into host memory with a function's requester identity (R508, R511, R526) -/
  | hostWrite (fn : FnNo) (addr : Nat) (data : List Byte)
  /-- an MSI-X signal -/
  | msix (fn : FnNo) (vector : BitVec 6)
  /-- a management response (R617): command, tag, status, result -/
  | mgmtResponse (command tag status : Byte) (result : List Byte)
  /-- an MCTP control, PLDM or SPDM response: message type, code, body -/
  | message (type code : Byte) (body : List Byte)
  /-- mgt_alert_n, pwr_good and the host ports' transmitters -/
  | pinAlert (low : Bool)
  | pinPwrGood (released : Bool)
  /-- the 7-bit target address at which the module answers on the management bus from now on (R576) -/
  | busTarget (addr : Nat)
  | stopTransmit
  | hostPort (k : HpNo) (active : Bool)
  /-- a frame leaves a Beynex port, with the crc of its header (R460) -/
  | frame (port : Nat) (f : Frame) (crc : Word)
  /-- a sideband symbol leaves a Beynex port: kind, bead, aux, data, crc (R468) -/
  | symbol (port : Nat) (kind : Byte) (bead aux : BitVec 16) (data : DWord) (crc : BitVec 16)
  /-- the pod identifier and position that this side of a link announces in training (R458), as BX_PARTNER of the other side -/
  | announce (port : Nat) (word : Word)
  /-- a write of the Page Select byte in the management memory of the cable at a Beynex port (R499) -/
  | pageSelect (port page : Nat)
  /-- a DMA read request to host memory with a function's requester identity (R358) -/
  | hostRead (fn : FnNo) (addr len : Nat)
  /-- the block that a memory port returns to a read, none where it is marked uncorrectable: port, port-local number (R392, R394, R413) -/
  | block (port lblock : Nat) (data : Option (List Byte))
  /-- a PCI Express write or read of the snapshot engine toward a host store -/
  | storeWrite (addr : Nat) (data : List Byte)
  | storeRead (addr : Nat) (len : Nat)
  deriving DecidableEq, Repr

/-- THE STATE of the module. Each list of pairs is a sparse array in canonical form (keys strictly rising, nothing listed that
an unlisted key reads as). -/
structure State where
  /-- commands waiting, first in first out -/
  pending : List Instr
  /-- MODEL FIELD: arithmetic cycles since power-on reset (R227, R629) -/
  cycle : Nat
  power : Power
  straps : Straps
  fuses : Fuses
  /-- routers' sites and cores withdrawn since power-on (R59), and whether the fuse map has loaded (R590) -/
  withdrawn : List Nat
  /-- control-window words by BAR0 byte offset; an unlisted word holds its reset value -/
  ctl : List (Nat × Word)
  /-- core store words: 49,152 × site + word (R94) -/
  store : List (Nat × BitVec 256)
  /-- rod rows: 2,048 × site + row (R93) -/
  rod : List (Nat × BitVec 128)
  /-- core-store words and rod rows, by the same keys, whose 32 check bits no longer correct what is stored (R93, R96, R134) -/
  storeBad : List (Nat × Bool)
  rodBad : List (Nat × Bool)
  /-- vector registers: 64 × site + n (R149) -/
  vreg : List (Nat × BitVec 512)
  /-- accumulator elements: 2,048 × site + 64 × bank + 8 × u + v (R176) -/
  acc : List (Nat × Word)
  /-- what each core holds beyond registers and arrays -/
  core : List (Nat × CoreX)
  /-- device memory bytes by device address (R349), and for block b of device memory the deviation of its stored check
  symbol j from the one R390 computes: key 4 × b + j -/
  mem : List (Nat × Byte)
  chk : List (Nat × Byte)
  /-- far-tier page bytes: 65,536 × (262,144 × extent + page) + byte (R360) -/
  farMem : List (Nat × Byte)
  /-- packets in the mesh, in order of arrival at their buffers; the input port each output port granted last, by
  5 × site + port (R67); bulk windows open: n, end cycle (R70); FAB_BULK_
  registers written since the last bead boundary, with the values that stay in force until the next one (R92) -/
  packets : List Packet
  lastGrant : List (Nat × Nat)
  bulkOpen : List (Nat × Nat)
  bulkPend : List (Nat × Word)
  mesh : Mesh
  merges : List Merge
  /-- update engines: program store by (256 × engine + program) × 32 + instruction (R339) -/
  prog : List (Nat × Word)
  progPend : List ProgPend
  desc : List UeDesc
  evalDue : List (Nat × Nat)
  ringFail : List (Nat × Nat)
  lastTaken : List (Nat × Nat)
  /-- herds by number; far extents, share-set creators, page moves in order of arrival, the herd whose move started last (R365, R378), pages
  whose touch is due (R355), merge buffers -/
  herd : List (Nat × Herd)
  extent : List (Nat × Extent)
  ssetOwner : List (Nat × Nat)
  moves : List PageMove
  moveTurn : Nat
  touched : List (Nat × Nat)
  mergeBuf : List MergeEntry
  /-- Beynex ports, sideband, pod engine -/
  bx : List (Nat × BxPort)
  side : Sideband
  hcmd : List HcmdOut
  htag : Nat
  coll : List Collective
  mc : List McGrant
  /-- ABORTs, as herd and cid, whose descriptor has not been taken, and the collectives that ended last (R493); the cable at each port (R499) -/
  aborts : List (Nat × Nat)
  ended : List (Nat × Nat)
  cable : List (Nat × Cable)
  /-- host side: NumVFs of each port (0: VF Enable clear), log2 of the BAR2 size by function, a ring's running command, the
  phase of the command rings and notice rings, owed completions and notices -/
  numVfs : List (Nat × Nat)
  bar2Log : List (Nat × Nat)
  busyRing : List (Nat × Nat)
  phase : List (Nat × Bool)
  completions : List Completion
  notices : List Notice
  /-- the function served last (R510); the host port whose turn it is and the FLITs it has taken in it (R503) -/
  fnTurn : Nat
  hpTurn : Nat
  hpUsed : Nat
  perst : List Nat
  snap : List (Nat × Snap)
  spares : Spares
  dumpRun : Option DumpRun
  /-- ring controller: boot flash bytes (unlisted 0xFF), the running image's header, the watchdog -/
  flash : List (Nat × Byte)
  fwHeader : List Byte
  wdtArmed : Bool
  /-- a device reset has been accepted and has not yet reached the die logic (R598) -/
  rstPend : Bool
  mgmt : Mgmt
  evQueue : List EvMsg
  /-- cycle of each page's last CORR record, pages with coalesced CORR events, records waiting for an owner search -/
  lastCorr : List (Nat × Nat)
  coalesced : List (Nat × Bool)
  searches : List (EvRecord × Nat)
  /-- power capping: consecutive windows below the margin (R587) -/
  capRun : Nat
  /-- MODEL FIELD: readings taken of free values (log entry 12) -/
  freeCtr : Nat
  /-- what has left the module, newest last -/
  out : List Output
  deriving DecidableEq, Repr

/-- Why a step can stop with a fault. No command of this block does: every condition the manual calls a fault is an event of the
block, and the step goes on. The type is closed and its one constructor is raised nowhere (safe). -/
inductive Fault where
  | unreachable
  deriving DecidableEq, Repr

/-- Why a step can refuse. -/
inductive Refusal where
  /-- the command has no meaning in the model yet (raised by `exec`'s refused arms only; safe) -/
  | notModelled (mnemonic : String)
  deriving DecidableEq, Repr

/-- A core after R100. -/
def CoreX.clear : CoreX :=
  { issued := [], nextId := 0, registered := false, released := false, cancelling := false, crossed := 0, bounds := 0, rowsInStep := 0,
    stopPend := false, pausePend := false, halting := none, faulting := false, slipOwed := false, armKind := 0,
    evalAt := none, cube := none, cubeWait := none, dwq := [], dwqHead := 0, dwqCur := none, dwqCarry := false,
    pipe := [], accFlip := [], w1 := [], figs := [], uses := [], startCycle := 0, laneNext := [], mergeOwed := false,
    formatRaised := 0, mirror := 0, waiters := [], inbox := [], inboxFrom := [], tcPend := [], rowCache := [],
    scrubPos := 0, fenceStep := 0, owedResets := 0, movSent := [], movAnswers := [] }

/-- The running figures of an unused tensor slot (R222). -/
def Figures.zero : Figures := { elements := 0, clipped := 0, flushed := 0, nonfinite := 0, amax := 0 }

/-- A Beynex port with nothing sent: full receive buffers granted (R462). -/
def BxPort.clear : BxPort :=
  { txSeq := 0, rxSeq := 0, replay := [], waiting := [], credits := [4096, 65536, 65536, 262144, 65536, 65536, 262144], turn := 3, asked := false,
    resend := none, held := [] }

/-- DESIGN CHOICE (log entry 3): the fuse map of the modelled part, a GX960 whose 64 fused-off cores are sites 15, 30, …, 540 and 563,
579, …, 995, so that logical core 517 is site 553 as in the manual's examples, every router enabled; no rule of the manual gives a part's
fuses. -/
def Fuses.part : Fuses :=
  { grade := 1, coreOff := (List.range 36).map (fun i => 15 * i + 15) ++ (List.range 28).map (fun i => 16 * i + 563), rtrOff := [], dieId := 0, pen := 0,
    keyHash := [(0, 0), (0, 0), (0, 0), (0, 0)], prov := 1, revoked := 0, svn := 0, debugLock := true,
    provLock := true, checkOk := true }

/-- The mesh with no router withdrawn: no detours, and a distance table of plain routes. -/
def Mesh.clear : Mesh := { routed := [], barred := false, distAway := [], distDetours := [] }

/-- A herd with no snapshots configured. -/
def Snap.clear : Snap :=
  { params := none, entries := [], now := false, cur := none, cap := none, capSnap := false, capMirror := false, copied := false,
    half := 0, gen := none, mirrorOut := [], retained := none, region := none, sendQ := [], await_ := [], manifest := false,
    groupDigests := [], committed := [], verified := 0, heldHalf := 0, lastHalf := 0, restore := none, fetch := none }

/-- The bead exchange with nothing reported. -/
def Sideband.clear : Sideband :=
  { slip := false, votes := 0, reported := 0, missing := false, sent := false, linkStop := false, closing := [], joinBead := none,
    kids := [], missed := [] }

/-- The management port before any assignment (R595, R614). -/
def Mgmt.clear : Mgmt :=
  { eid := 0, tid := 0, receiver := 0, evEnable := 0, bufSize := 64,
    update := { phase := 0, received := 0, size := 0, verified := false }, spdmVersion := false, spdmCaps := false,
    spdmAlgs := false, transcript := [], pending := none, pqReady := false, board := [] }

/-- The spare protocol at rest. -/
def Spares.clear : Spares :=
  { last := [], filling := [], ordered := [], rdone := [], fullRestore := false, failedPos := [] }

/-- THE STATE RIGHT AFTER A POWER-ON RESET (R590, R596): the module is in INIT, every register holds its reset value (nothing is
listed in `ctl`), memory lists nothing, no herd exists and no command waits. -/
def State.reset : State :=
  { pending := [], cycle := 0, power := { state := .init, pwrEn := true, input := true, holdoff := false, pwrGood := true },
    straps := { hpSplit := 0, inlineDisN := true, slotId := 0 }, fuses := Fuses.part, withdrawn := [], ctl := [],
    store := [], rod := [], storeBad := [], rodBad := [], vreg := [], acc := [], core := [], mem := [], chk := [], farMem := [], packets := [],
    lastGrant := [], bulkOpen := [], bulkPend := [], mesh := Mesh.clear, merges := [], prog := [], progPend := [], desc := [],
    evalDue := [], ringFail := [], lastTaken := [], herd := [], extent := [], ssetOwner := [], moves := [], moveTurn := 63,
    touched := [], mergeBuf := [], bx := [], side := Sideband.clear, hcmd := [], htag := 0,
    coll := [], mc := [], aborts := [], ended := [], cable := [], fnTurn := 63, hpTurn := 0, hpUsed := 0, numVfs := [], bar2Log := [], busyRing := [], phase := [], completions := [], notices := [],
    perst := [], snap := [], spares := Spares.clear, dumpRun := none, flash := [], fwHeader := [], wdtArmed := false,
    rstPend := false, mgmt := Mgmt.clear, evQueue := [], lastCorr := [], coalesced := [], searches := [], capRun := 0,
    freeCtr := 0, out := [] }

end Sys2Proof.Machine
end

