-- ==== Sys2Proof/Machine/Float.lean ====
section
/-! DEFINITION. The element formats (R204 to R210) and arithmetic in F32: values decoded exactly, computed exactly and rounded once (R188 to R190, R206, R207, R255 to R257). -/

namespace Sys2Proof.Machine

/-- What an element's bits stand for: a NaN, an infinity, or (−1)^neg × n × 2^e. -/
inductive Val where
  | nan
  | inf (neg : Bool)
  | fin (neg : Bool) (n : Nat) (e : Int)
  deriving DecidableEq, Repr

/-- A format of R204: its width in bits, mantissa bits, bias, and the code of its largest finite magnitude. -/
structure Fmt where
  width : Nat
  mant : Nat
  bias : Nat
  maxCode : Nat
  deriving DecidableEq, Repr

/-- F32. -/
def f32 : Fmt := ⟨32, 23, 127, 0x7F7FFFFF⟩
/-- BF16. -/
def bf16 : Fmt := ⟨16, 7, 127, 0x7F7F⟩
/-- F16. -/
def f16 : Fmt := ⟨16, 10, 15, 0x7BFF⟩

/-- The format of a fmt code (R204); T2's magnitudes 0 and 1 are a format of no mantissa bit. -/
def fmtOf (code : Nat) : Fmt :=
  match code with
  | 1 => ⟨8, 3, 7, 0x7E⟩
  | 2 => ⟨8, 2, 15, 0x7B⟩
  | 3 => ⟨6, 2, 3, 0x1F⟩
  | 4 => ⟨6, 3, 1, 0x1F⟩
  | 5 => ⟨4, 1, 1, 7⟩
  | 6 => ⟨2, 0, 1, 1⟩
  | 7 => bf16
  | 8 => f16
  | _ => f32

/-- Whether the format has infinities: F32, BF16, F16 and F8E5. -/
def hasInf (code : Nat) : Bool := code = 2 || code = 7 || code = 8 || code = 9

/-- The canonical NaN of a format that has one (R206). -/
def nanCode (code : Nat) : Nat :=
  match code with
  | 1 => 0x7F
  | 2 => 0x7E
  | 7 => 0x7FC0
  | 8 => 0x7E00
  | _ => 0x7FC00000

/-- The value of a magnitude code. -/
def magVal (f : Fmt) (neg : Bool) (c : Nat) : Val :=
  let ex := c / 2 ^ f.mant
  if ex = 0 then .fin neg c (1 - (f.bias : Int) - f.mant)
  else .fin neg (c % 2 ^ f.mant + 2 ^ f.mant) ((ex : Int) - f.bias - f.mant)

/-- The value of an element code (R204, R205). -/
def decodeElem (code x : Nat) : Val :=
  if code = 6 then
    match x % 4 with
    | 1 => .fin false 1 0
    | 3 => .fin true 1 0
    | _ => .fin false 0 0
  else
    let f := fmtOf code
    let neg := x.testBit (f.width - 1)
    let c := x % 2 ^ (f.width - 1)
    if c ≤ f.maxCode then magVal f neg c
    else if hasInf code && decide (c = f.maxCode + 1) then .inf neg
    else .nan

/-- The value of an F32 word. -/
def f32Val (w : Word) : Val := decodeElem 9 w.toNat

/-- The value of a block scale: GX16 in F8E4 (R208), MX in E8M0 (R209). -/
def scaleVal (scl b : Nat) : Val :=
  if scl = 1 then decodeElem 1 b
  else if b = 0xFF then .nan else .fin false 1 ((b : Int) - 127)

/-- The exact product of two values. -/
def mulVal (a b : Val) : Val :=
  match a, b with
  | .nan, _ => .nan
  | _, .nan => .nan
  | .inf s, .inf t => .inf (s != t)
  | .inf s, .fin t n _ => if n = 0 then .nan else .inf (s != t)
  | .fin s n _, .inf t => if n = 0 then .nan else .inf (s != t)
  | .fin s n e, .fin t m d => .fin (s != t) (n * m) (e + d)

/-- A value's negation. -/
def negVal : Val → Val
  | .nan => .nan
  | .inf s => .inf (!s)
  | .fin s n e => .fin (!s) n e

/-! ## Rounding -/

/-- How a magnitude that lies between two codes is rounded: to nearest with ties to even; stochastically with a random value (R224); up. -/
inductive Mode where
  | nearest
  | stochastic (r : Nat)
  | up
  deriving DecidableEq, Repr

/-- ⌊log2 (p / q)⌋ for p, q above 0. -/
def floorLog2 (p q : Nat) : Int :=
  let k : Int := (p.log2 : Int) - q.log2
  let below := if 0 ≤ k then decide (p < q * 2 ^ k.toNat) else decide (p * 2 ^ (-k).toNat < q)
  if below then k - 1 else k

/-- ⌈log2 (p / q)⌉ for p, q above 0. -/
def ceilLog2 (p q : Nat) : Int := -floorLog2 q p

/-- The rounded quotient p / q to an integer. -/
def roundQuot (m : Mode) (p q : Nat) : Nat :=
  let lo := p / q
  let rem := p % q
  let up : Bool := match m with
    | .nearest => decide (q < 2 * rem) || (decide (q = 2 * rem) && decide (lo % 2 = 1))
    | .stochastic r => decide (2 ^ 32 ≤ rem * 2 ^ 32 / q + r)
    | .up => decide (rem ≠ 0)
  if up then lo + 1 else lo

/-- The magnitude code of p / q in format f, exponents unbounded above: a code above f.maxCode overflows. Consecutive codes are consecutive
magnitudes, subnormal ones included (R207). -/
def roundCode (f : Fmt) (m : Mode) (p q : Nat) : Nat :=
  if p = 0 then 0
  else
    let base : Int := 1 - (f.bias : Int) - f.mant
    let u : Int := max (floorLog2 p q - f.mant) base
    let x := if 0 ≤ u then roundQuot m p (q * 2 ^ u.toNat) else roundQuot m (p * 2 ^ (-u).toNat) q
    (u - base).toNat * 2 ^ f.mant + x

/-- n × 2^e as a quotient. -/
def dyadic (n : Nat) (e : Int) : Nat × Nat := if 0 ≤ e then (n * 2 ^ e.toNat, 1) else (n, 2 ^ (-e).toNat)

/-- A sign and a magnitude code as an element of a format with a sign bit. -/
def withSign (f : Fmt) (neg : Bool) (c : Nat) : Nat := c + b2n neg * 2 ^ (f.width - 1)

/-- A format with infinities: a magnitude rounded, overflow going to ±∞. -/
def roundInf (f : Fmt) (m : Mode) (neg : Bool) (p q : Nat) : Nat :=
  withSign f neg (min (roundCode f m p q) (f.maxCode + 1))

/-- A value in F32, BF16 or F16 (codes 9, 7, 8), rounded. -/
def roundTo (code : Nat) (m : Mode) (v : Val) : Nat :=
  let f := fmtOf code
  match v with
  | .nan => nanCode code
  | .inf s => withSign f s (f.maxCode + 1)
  | .fin s n e => roundInf f m s (dyadic n e).1 (dyadic n e).2

/-- A value in F32, rounded to nearest with ties to even. -/
def toF32 (v : Val) : Word := BitVec.ofNat 32 (roundTo 9 .nearest v)

/-- ±p / q in F32. -/
def quotF32 (neg : Bool) (p q : Nat) : Word := BitVec.ofNat 32 (roundInf f32 .nearest neg p q)

/-- The canonical NaN of F32. -/
def nan32 : Word := 0x7FC00000
/-- +∞ of F32. -/
def inf32 : Word := 0x7F800000
/-- 1.0 of F32. -/
def one32 : Word := 0x3F800000

/-! ## Exact sums -/

/-- The sum of no term. -/
def Exact.none : Exact := ⟨false, false, false, true, 0, 0⟩

/-- A term joins an exact sum. -/
def Exact.add (x : Exact) (v : Val) : Exact :=
  match v with
  | .nan => { x with nan := true, allNegZero := false }
  | .inf false => { x with pinf := true, allNegZero := false }
  | .inf true => { x with ninf := true, allNegZero := false }
  | .fin s n e =>
    let t : Int := if s then -(n : Int) else n
    let lo := min x.e e
    ⟨x.nan, x.pinf, x.ninf, x.allNegZero && s && decide (n = 0), x.n * 2 ^ (x.e - lo).toNat + t * 2 ^ (e - lo).toNat, lo⟩

/-- An exact sum rounded once to F32 (R188, R189, R190). -/
def Exact.round (x : Exact) : Word :=
  if x.nan || (x.pinf && x.ninf) then nan32
  else if x.pinf then toF32 (.inf false)
  else if x.ninf then toF32 (.inf true)
  else toF32 (.fin (decide (x.n < 0) || (decide (x.n = 0) && x.allNegZero)) x.n.natAbs x.e)

/-- The exact sum of values, rounded once. -/
def sumF32 (vs : List Val) : Word := (vs.foldl Exact.add Exact.none).round

/-! ## F32 operations (R255 to R257) -/

/-- x + y. -/
def addF (x y : Word) : Word := sumF32 [f32Val x, f32Val y]
/-- The word with its sign inverted. -/
def negF (x : Word) : Word := x ^^^ 0x80000000
/-- The word's magnitude. -/
def absF (x : Word) : Word := x &&& 0x7FFFFFFF
/-- x − y. -/
def subF (x y : Word) : Word := sumF32 [f32Val x, negVal (f32Val y)]
/-- x × y. -/
def mulF (x y : Word) : Word := toF32 (mulVal (f32Val x) (f32Val y))
/-- x × y + c with one rounding. -/
def fmaF (x y c : Word) : Word := sumF32 [mulVal (f32Val x) (f32Val y), f32Val c]
/-- x / y. -/
def divF (x y : Word) : Word :=
  match f32Val x, f32Val y with
  | .nan, _ => nan32
  | _, .nan => nan32
  | .inf _, .inf _ => nan32
  | .inf s, .fin t _ _ => toF32 (.inf (s != t))
  | .fin s _ _, .inf t => toF32 (.fin (s != t) 0 0)
  | .fin s n e, .fin t m d =>
    if m = 0 then (if n = 0 then nan32 else toF32 (.inf (s != t)))
    else
      let a := dyadic n (e - d)
      quotF32 (s != t) a.1 (a.2 * m)

/-- Whether a word is a NaN. -/
def isNaN (x : Word) : Bool := decide (0x7F800000 < (absF x).toNat)
/-- Whether a word is a NaN or an infinity. -/
def nonFinite (x : Word) : Bool := decide (0x7F800000 ≤ (absF x).toNat)
/-- The order of F32 words that are no NaN, −0 below +0. -/
def orderKey (x : Word) : Int := if bit x 31 then -1 - ((absF x).toNat : Int) else x.toNat
/-- MAX. -/
def maxF (x y : Word) : Word := if isNaN x || isNaN y then nan32 else if orderKey x < orderKey y then y else x
/-- MIN. -/
def minF (x y : Word) : Word := if isNaN x || isNaN y then nan32 else if orderKey y < orderKey x then y else x
/-- x > 0. -/
def posF (x : Word) : Bool := !isNaN x && decide (0 < orderKey x)

/-- A BF16 or F16 code (format field 1 or 2), or an F32 word (0), as an F32 word: exact. -/
def widen (fmt x : Nat) : Word :=
  if fmt = 0 then BitVec.ofNat 32 x else toF32 (decodeElem (6 + fmt) x)

/-- An F32 word in the destination format of a fmt field: 0 F32, 1 BF16, 2 F16. -/
def narrow (fmt : Nat) (x : Word) : Nat := if fmt = 0 then x.toNat else roundTo (6 + fmt) .nearest (f32Val x)

end Sys2Proof.Machine
end

