-- ==== Sys2Proof/Machine/Func.lean ====
section
/-! DEFINITION. The functions of FN and FND (R258 to R260): each computed in fixed point of 2^-768 and rounded once to F32. The rounding is that of the exact value wherever the fixed-point error (below 2^-700) cannot move it across a rounding boundary; UNVERIFIED for every argument (log entry 27). -/

namespace Sys2Proof.Machine

/-- Fractional bits of the fixed-point values. -/
def fixBits : Nat := 768
/-- 1 in fixed point. -/
def fixOne : Nat := 2 ^ fixBits

/-- Σ of the terms of a series: from a term and its index, `next` gives the following term; k terms. -/
def series (next : Nat → Nat → Nat) : Nat → Nat → Nat → Nat
  | 0, _, _ => 0
  | k + 1, i, t => t + series next k (i + 1) (next i t)

/-- e^r for r from 0 to 1, in fixed point. -/
def expFrac (r : Nat) : Nat := series (fun i t => t * r / fixOne / (i + 1)) 180 0 fixOne

/-- The odd-power terms z^(2k+1), in order, each divided by its odd number: 2·atanh(z) for z below 1/2. -/
def atanh2 (z : Nat) : Nat :=
  let z2 := z * z / fixOne
  let rec go : Nat → Nat → Nat → Nat
    | 0, _, _ => 0
    | k + 1, i, t => t / (2 * i + 1) + go k (i + 1) (t * z2 / fixOne)
  2 * go 400 0 z

/-- ln 2 in fixed point. -/
def ln2 : Nat := atanh2 (fixOne / 3)

/-- The integer square root. -/
def isqrtStep : Nat → Nat → Nat → Nat
  | 0, _, x => x
  | k + 1, n, x =>
    let y := (x + n / x) / 2
    if y < x then isqrtStep k n y else x

/-- ⌊√n⌋. -/
def isqrt (n : Nat) : Nat := if n = 0 then 0 else isqrtStep (n.log2 + 8) n (2 ^ (n.log2 / 2 + 1))

/-- n × 2^e in fixed point, rounded down. -/
def fixOf (n : Nat) (e : Int) : Nat :=
  let k := e + fixBits
  if 0 ≤ k then n * 2 ^ k.toNat else n / 2 ^ (-k).toNat

/-- e^x for x = ±f in fixed point, |x| below 1,024: as mantissa in fixed point (1 to 2) and a power of two. -/
def expParts (neg : Bool) (f : Nat) : Nat × Int :=
  let k := f / ln2
  let r := f % ln2
  if neg then (if r = 0 then (expFrac 0, -(k : Int)) else (expFrac (ln2 - r), -(k : Int) - 1))
  else (expFrac r, (k : Int))

/-- e^x in fixed point. -/
def expFix (neg : Bool) (f : Nat) : Nat :=
  let p := expParts neg f
  if 0 ≤ p.2 then p.1 * 2 ^ p.2.toNat else p.1 / 2 ^ (-p.2).toNat

/-- ln of p / q for p / q above 0, in fixed point. -/
def lnFix (p q : Nat) : Int :=
  let k := floorLog2 p q
  let a := if 0 ≤ k then p * fixOne / (q * 2 ^ k.toNat) else p * 2 ^ (-k).toNat * fixOne / q
  -- a lies from 1 to 2; above 4/3 it is halved
  if a * 3 < 4 * fixOne then k * ln2 + atanh2 ((a - fixOne) * fixOne / (a + fixOne))
  else (k + 1) * ln2 - atanh2 ((2 * fixOne - a) * fixOne / (a + 2 * fixOne))

/-- √(2π) in fixed point, from π by Machin's formula. -/
def arctanInv (m : Nat) : Nat :=
  let rec go : Nat → Nat → Nat → Int
    | 0, _, _ => 0
    | k + 1, i, t => (if i % 2 = 0 then (1 : Int) else -1) * (t / (2 * i + 1) : Nat) + go k (i + 1) (t / (m * m))
  (go 400 0 (fixOne / m)).toNat

/-- π in fixed point. -/
def piFix : Nat := 16 * arctanInv 5 - 4 * arctanInv 239
/-- √(2π) in fixed point. -/
def sqrt2pi : Nat := isqrt (2 * piFix * fixOne)

/-- φ(x) for |x| = f in fixed point. -/
def phiFix (f : Nat) : Nat :=
  let h := f * f / fixOne / 2
  if 600 * fixOne < h then 0 else expFix true h * fixOne / sqrt2pi

/-- Φ(x) for x = ±f in fixed point, f below 14. -/
def cdfFix (neg : Bool) (f : Nat) : Nat :=
  let f2 := f * f / fixOne
  let sum := series (fun i t => t * f2 / fixOne / (2 * i + 3)) 900 0 f
  let d := phiFix f * sum / fixOne
  if neg then fixOne / 2 - d else fixOne / 2 + d

/-- The sign and the magnitude n × 2^e of x compared with the decimal a / b: |x| < a / b. -/
def magLt (n : Nat) (e : Int) (a b : Nat) : Bool :=
  let d := dyadic n e
  decide (d.1 * b < a * d.2)
/-- |x| ≤ a / b. -/
def magLe (n : Nat) (e : Int) (a b : Nat) : Bool :=
  let d := dyadic n e
  decide (d.1 * b ≤ a * d.2)

/-- ±1, the sign kept. -/
def oneSigned (neg : Bool) : Word := if neg then negF one32 else one32
/-- ±0. -/
def zeroSigned (neg : Bool) : Word := if neg then 0x80000000 else 0

/-- σ(x) in fixed point. -/
def sigmFix (neg : Bool) (f : Nat) : Nat := fixOne * fixOne / (fixOne + expFix (!neg) f)

/-- An n × 2^e whose square root is rounded: numerator and denominator of √(p / q) with the remainder kept as a low bit. -/
def sqrtQuot (p q : Nat) : Nat × Nat :=
  let k := 4 * fixOne
  let n := p * k * k / q
  let s := isqrt n
  (2 * s + (if s * s * q = p * k * k then 0 else 1), 2 * k)

/-- EXP. -/
def fnExp (x : Word) : Word :=
  match f32Val x with
  | .nan => nan32
  | .inf s => if s then 0 else inf32
  | .fin s n e =>
    if !s && !magLe n e 887228 10000 then inf32
    else if s && !magLe n e 10398 100 then 0
    else
      let p := expParts s (fixOf n e)
      let d := dyadic p.1 (p.2 - fixBits)
      quotF32 false d.1 d.2

/-- EXP2. -/
def fnExp2 (x : Word) : Word :=
  match f32Val x with
  | .nan => nan32
  | .inf s => if s then 0 else inf32
  | .fin s n e =>
    if !s && !magLt n e 128 1 then inf32
    else if s && !magLe n e 149 1 then 0
    else
      let f := fixOf n e
      let k := f / fixOne
      let r := f % fixOne
      let p : Nat × Int := if s then (if r = 0 then (fixOne, -(k : Int)) else (expFrac ((fixOne - r) * ln2 / fixOne), -(k : Int) - 1))
        else (expFrac (r * ln2 / fixOne), (k : Int))
      let d := dyadic p.1 (p.2 - fixBits)
      quotF32 false d.1 d.2

/-- LOG. -/
def fnLog (x : Word) : Word :=
  match f32Val x with
  | .nan => nan32
  | .inf s => if s then nan32 else inf32
  | .fin s n e =>
    if n = 0 then negF inf32
    else if s then nan32
    else
      let d := dyadic n e
      let l := lnFix d.1 d.2
      quotF32 (decide (l < 0)) l.natAbs fixOne

/-- RCP. -/
def fnRcp (x : Word) : Word := divF one32 x

/-- SQRT. -/
def fnSqrt (x : Word) : Word :=
  match f32Val x with
  | .nan => nan32
  | .inf s => if s then nan32 else inf32
  | .fin s n e =>
    if n = 0 then zeroSigned s
    else if s then nan32
    else
      let d := dyadic n e
      let r := sqrtQuot d.1 d.2
      quotF32 false r.1 r.2

/-- RSQ. -/
def fnRsq (x : Word) : Word :=
  match f32Val x with
  | .nan => nan32
  | .inf s => if s then nan32 else 0
  | .fin s n e =>
    if n = 0 then (if s then negF inf32 else inf32)
    else if s then nan32
    else
      let d := dyadic n e
      let r := sqrtQuot d.2 d.1
      quotF32 false r.1 r.2

/-- TANH; the exact value at ±0 keeps its sign. -/
def fnTanh (x : Word) : Word :=
  match f32Val x with
  | .nan => nan32
  | .inf s => oneSigned s
  | .fin s n e =>
    if n = 0 then x
    else if !magLt n e 9011 1000 then oneSigned s
    else
      let t := expFix false (2 * fixOf n e)
      quotF32 s (t - fixOne) (t + fixOne)

/-- SIGM. -/
def fnSigm (x : Word) : Word :=
  match f32Val x with
  | .nan => nan32
  | .inf s => if s then 0 else one32
  | .fin s n e =>
    if !s && !magLt n e 16636 1000 then one32
    else if s && !magLe n e 10398 100 then 0
    else quotF32 false fixOne (fixOne + expFix (!s) (fixOf n e))

/-- x × g for a factor g in fixed point, x = ±n × 2^e: the sign is that of x. -/
def timesFix (s : Bool) (n : Nat) (e : Int) (g : Nat) : Word :=
  let d := dyadic (n * g) (e - fixBits)
  quotF32 s d.1 d.2

/-- GELU. -/
def fnGelu (x : Word) : Word :=
  match f32Val x with
  | .nan => nan32
  | .inf s => if s then zeroSigned true else inf32
  | .fin s n e =>
    if !s && !magLt n e 55 10 then x
    else if s && !magLt n e 132 10 then zeroSigned true
    else timesFix s n e (cdfFix s (fixOf n e))

/-- SILU. -/
def fnSilu (x : Word) : Word :=
  match f32Val x with
  | .nan => nan32
  | .inf s => if s then zeroSigned true else inf32
  | .fin s n e =>
    if !s && !magLt n e 16636 1000 then x
    else if s && !magLe n e 10398 100 then zeroSigned true
    else timesFix s n e (sigmFix s (fixOf n e))

/-- RELU. -/
def fnRelu (x : Word) : Word := if isNaN x then nan32 else if posF x then x else 0

/-- SOFTPLUS; below −1,000 the exact value lies under half the least subnormal. -/
def fnSoftplus (x : Word) : Word :=
  match f32Val x with
  | .nan => nan32
  | .inf s => if s then 0 else inf32
  | .fin s n e =>
    if !s && !magLt n e 20 1 then x
    else if s && !magLt n e 1000 1 then 0
    else quotF32 false (lnFix (fixOne + expFix s (fixOf n e)) fixOne).toNat fixOne

/-- FN (R258). -/
def fnEval (code : Nat) (x : Word) : Word :=
  match code with
  | 0 => fnExp x
  | 1 => fnExp2 x
  | 2 => fnLog x
  | 3 => fnRcp x
  | 4 => fnRsq x
  | 5 => fnSqrt x
  | 6 => fnTanh x
  | 7 => fnSigm x
  | 8 => fnGelu x
  | 9 => fnSilu x
  | 10 => fnRelu x
  | _ => fnSoftplus x

/-- GELU′ (R260 kind 4): y ⊘ x + x·φ(x). A φ(x) that vanishes in fixed point still decides a tie. -/
def geluPrime (x y : Word) : Word :=
  match f32Val x, f32Val y with
  | .nan, _ => nan32
  | _, .nan => nan32
  | .inf s, _ => if s then 0 else one32
  | .fin s n e, vy =>
    if n = 0 then 0x3F000000
    else match vy with
      | .nan => nan32
      | .inf t => if s != t then negF inf32 else inf32
      | .fin t m d =>
        let q := dyadic m (d - e)
        let num : Int := if s != t then -(q.1 : Int) else q.1
        let den := q.2 * n
        let p0 := dyadic (n * phiFix (fixOf n e)) (e - fixBits)
        let p := if p0.1 = 0 then (1, fixOne) else p0
        let pn : Int := if s then -(p.1 : Int) else p.1
        let tot : Int := num * p.2 + pn * den
        quotF32 (decide (tot < 0)) tot.natAbs (den * p.2)

/-- FND (R260). -/
def fndEval (kind : Nat) (a b : Word) : Word :=
  match kind with
  | 0 => mulF b (mulF a (subF one32 a))
  | 1 => mulF b (subF one32 (mulF a a))
  | 2 => if posF a then toF32 (f32Val b) else 0
  | 3 => mulF b a
  | 4 => geluPrime a b
  | _ =>
    if isNaN a || isNaN b then nan32
    else if a = inf32 then one32
    else if a = negF inf32 then 0
    else
      let s := fnSigm a
      addF s (mulF b (subF one32 s))

end Sys2Proof.Machine
end

