-- ==== Sys2Proof/Machine/Convert.lean ====
section
/-! DEFINITION. Narrowing conversions (R216 to R225, R644), the figures they count (R222), and the generator outputs (R226). -/

namespace Sys2Proof.Machine

/-- mix(key, ctr) (R226): 32 random bits. -/
def mix (key ctr : Nat) : Nat :=
  let m := 18446744073709551616
  let z := (key % m) ^^^ (ctr * 0x9E3779B97F4A7C15 % m)
  let z := (z ^^^ (z >>> 30)) * 0xBF58476D1CE4E5B9 % m
  let z := (z ^^^ (z >>> 27)) * 0x94D049BB133111EB % m
  let z := z ^^^ (z >>> 31)
  z >>> 32

/-- emax of a narrow format as a quotient with a power of two: 448, 57,344, 28, 7.5, 6 and 1. -/
def emaxQ (code : Nat) : Nat × Nat :=
  match magVal (fmtOf code) false (fmtOf code).maxCode with
  | .fin _ n e => if code = 6 then (1, 1) else dyadic n e
  | _ => (1, 1)

/-- The exponent of emax (R218). -/
def emaxExp (code : Nat) : Int :=
  match code with
  | 1 => 8
  | 2 => 15
  | 3 => 4
  | 4 => 2
  | 5 => 2
  | _ => 0

/-- The size of a block: 16 for GX16, 32 for MX. -/
def blockSize (scl : Nat) : Nat := if scl = 2 then 32 else 16

/-- Figures joined (R222, R231 without saturation): counts add, the maximum is the larger. -/
def Figures.add (a b : Figures) : Figures :=
  ⟨a.elements + b.elements, a.clipped + b.clipped, a.flushed + b.flushed, a.nonfinite + b.nonfinite,
    if a.amax.toNat < b.amax.toNat then b.amax else a.amax⟩

/-- The figures of one element: its input, and whether it was clipped or flushed. -/
def oneFigure (x : Word) (clipped flushed : Bool) : Figures :=
  if nonFinite x then ⟨1, 0, 0, 1, 0⟩ else ⟨1, b2n clipped, b2n flushed, 0, absF x⟩

/-- How a conversion is made: target fmt, scl, MX mode, tensor scale. -/
structure Conv where
  code : Nat
  scl : Nat
  noclip : Bool
  t : Word
  deriving DecidableEq, Repr

/-- What a block's conversion gives: the scale byte, the element codes, the figures, and whether the tensor scale was invalid (R644). -/
structure BlockConv where
  scale : Nat
  codes : List Nat
  figs : Figures
  invalid : Bool
  deriving DecidableEq, Repr

/-- A tensor scale under which a conversion proceeds: positive and finite (R644). -/
def goodScale (t : Word) : Bool := posF t && !nonFinite t

/-- The magnitude of a finite F32 word as a quotient. -/
def magQ (x : Word) : Nat × Nat :=
  match f32Val x with
  | .fin _ n e => dyadic n e
  | _ => (0, 1)

/-- m, the largest magnitude among the finite inputs (R217, R220). -/
def blockMax (xs : List Word) : Word :=
  xs.foldl (fun m x => if nonFinite x then m else if m.toNat < (absF x).toNat then absF x else m) 0

/-- The block scale for a largest magnitude m (R217, R218). -/
def blockScale (c : Conv) (m : Word) : Nat :=
  if m = 0 then 0
  else
    let a := magQ m
    let t := magQ c.t
    let x := emaxQ c.code
    if c.scl = 1 then min (roundCode (fmtOf 1) .up (a.1 * t.2 * x.2) (a.2 * t.1 * x.1)) 0x7E
    else
      let e := if c.noclip then ceilLog2 (a.1 * t.2 * x.2) (a.2 * t.1 * x.1)
        else floorLog2 (a.1 * t.2) (a.2 * t.1) - emaxExp c.code
      (min 254 (max 0 (e + 127))).toNat

/-- A finite element against the block scale b: its code, whether it is clipped and whether it is flushed (R217 step 4, R219, R221). -/
def convElem (c : Conv) (b : Nat) (mode : Mode) (x : Word) : Nat × Bool × Bool :=
  let f := fmtOf c.code
  let s := match scaleVal c.scl b with
    | .fin _ n e => dyadic n e
    | _ => (0, 1)
  let t := magQ c.t
  let a := magQ x
  let neg := bit x 31
  let p := a.1 * s.2 * t.2
  let q := a.2 * s.1 * t.1
  let mag := if a.1 = 0 then 0 else min (roundCode f mode p q) f.maxCode
  let past := decide (a.1 ≠ 0) && decide ((emaxQ c.code).1 * q < p * (emaxQ c.code).2)
  let code := if c.code = 6 then (if mag = 0 then 0 else if neg then 3 else 1) else withSign f neg mag
  (code, past, decide (a.1 ≠ 0) && decide (mag = 0))

/-- A block conversion to a format with block scales; each element has its rounding mode. -/
def convBlock (c : Conv) (xs : List (Word × Mode)) : BlockConv :=
  let nanScale := if c.scl = 1 then 0x7F else 0xFF
  let f8 := c.code ≤ 2
  let ws := xs.map (·.1)
  if !goodScale c.t then
    ⟨nanScale, ws.map (fun _ => if f8 then nanCode c.code else 0), ⟨xs.length, 0, 0, xs.length, 0⟩, true⟩
  else if !f8 && ws.any nonFinite then
    ⟨nanScale, ws.map (fun _ => 0), ws.foldl (fun g x => g.add (oneFigure x false false)) Figures.zero, false⟩
  else
    let b := blockScale c (blockMax ws)
    let rs := xs.map (fun p =>
      if nonFinite p.1 then
        (if isNaN p.1 || decide (c.code = 1) then nanCode c.code else withSign (fmtOf c.code) (bit p.1 31) 0x7C, false, false)
      else convElem c b p.2 p.1)
    ⟨b, rs.map (·.1), (ws.zip rs).foldl (fun g p => g.add (oneFigure p.1 p.2.2.1 p.2.2.2)) Figures.zero, false⟩

/-- A conversion to BF16 or F16 (R216, R219, R222): the code and the element's figures. -/
def convHalf (code : Nat) (mode : Mode) (x : Word) : Nat × Figures :=
  let c := roundTo code mode (f32Val x)
  let f := fmtOf code
  let mag := c % 2 ^ (f.width - 1)
  (c, oneFigure x (decide (mag = f.maxCode + 1)) (decide (absF x ≠ 0) && decide (mag = 0)))

end Sys2Proof.Machine
end

