-- ==== Sys2Proof/Machine/Ecc.lean ====
section
/-! DEFINITION. The code of device memory (R390, R391): GF(2⁸) arithmetic, the check symbols of a block, and the decoder. -/

namespace Sys2Proof.Machine

/-- Multiplication by α = 0x02 in GF(2⁸) with field polynomial x⁸ + x⁴ + x³ + x² + 1 (R390). -/
def gfDouble (a : Byte) : Byte := if bit a 7 then (a <<< 1) ^^^ 0x1D else a <<< 1

/-- Multiplication in GF(2⁸), by the bits of b from bit `n - 1` down. -/
def gfMulN : Nat → Byte → Byte → Byte
  | 0, _, _ => 0
  | n + 1, a, b => gfDouble (gfMulN n a (b >>> 1)) ^^^ (if bit b 0 then a else 0)

/-- Multiplication in GF(2⁸). -/
def gfMul (a b : Byte) : Byte := gfMulN 8 a b

/-- αⁿ. -/
def gfAlpha : Nat → Byte
  | 0 => 1
  | n + 1 => gfDouble (gfAlpha n)

/-- aⁿ in GF(2⁸). -/
def gfPow (a : Byte) : Nat → Byte
  | 0 => 1
  | n + 1 => gfMul a (gfPow a n)

/-- The inverse of a nonzero element: a^254. -/
def gfInv (a : Byte) : Byte := gfPow a 254

/-- One step of the division by g(x) = (x − α⁰)(x − α¹)(x − α²)(x − α³) = x⁴ + 15x³ + 54x² + 120x + 64 (R390). -/
def rsStep (c : List Byte) (d : Byte) : List Byte :=
  match c with
  | [c0, c1, c2, c3] =>
    let f := c0 ^^^ d
    [c1 ^^^ gfMul f 0x0F, c2 ^^^ gfMul f 0x36, c3 ^^^ gfMul f 0x78, gfMul f 0x40]
  | c => c

/-- The check symbols c0–c3 of a block (R390). -/
def rsCheck (data : List Byte) : List Byte := data.foldl rsStep [0, 0, 0, 0]

/-- Two byte lists added symbol by symbol. -/
def xorBytes (a b : List Byte) : List Byte := List.zipWith (· ^^^ ·) a b

/-- Syndrome i of a deviation of the four check symbols: symbol j stands for x^(3 − j) (R390). -/
def syndrome (d : List Byte) (i : Nat) : Byte :=
  ((List.range 4).map (fun j => gfMul (d.getD j 0) (gfAlpha (i * (3 - j))))).foldl (· ^^^ ·) 0

/-- What the decoder finds: no error, the errors it corrects as (symbol, value), or none it can. -/
inductive Verdict where
  | clean
  | fixed (errs : List (Nat × Byte))
  | bad
  deriving DecidableEq, Repr

/-- The locator of symbol p: α^(67 − p). -/
def locator (p : Nat) : Byte := gfAlpha (67 - p)

/-- Whether errors of value v at symbol p alone give syndromes 1 to 3. -/
def oneFits (s : List Byte) (p : Nat) : Bool :=
  let v := s.getD 0 0
  let x := locator p
  decide (gfMul v x = s.getD 1 0) && decide (gfMul v (gfMul x x) = s.getD 2 0) &&
    decide (gfMul v (gfMul x (gfMul x x)) = s.getD 3 0)

/-- The two error values at symbols p < q that give the syndromes, where they exist. -/
def twoFit (s : List Byte) (p q : Nat) : Option (Byte × Byte) :=
  let x := locator p
  let y := locator q
  let v := gfMul (s.getD 1 0 ^^^ gfMul (s.getD 0 0) y) (gfInv (x ^^^ y))
  let w := s.getD 0 0 ^^^ v
  let ok := decide (gfMul v (gfMul x x) ^^^ gfMul w (gfMul y y) = s.getD 2 0) &&
    decide (gfMul v (gfMul x (gfMul x x)) ^^^ gfMul w (gfMul y (gfMul y y)) = s.getD 3 0) &&
    decide (v ≠ 0) && decide (w ≠ 0)
  if ok then some (v, w) else none

/-- The pairs of symbols p < q below n. -/
def pairsBelow (n : Nat) : List (Nat × Nat) :=
  (List.range n).flatMap (fun p => ((List.range n).filter (fun q => decide (p < q))).map (fun q => (p, q)))

/-- R391: the decoder under tcorr, from the deviation of the stored check symbols; symbols 0–63 are data, 64–67 checks. A tcorr of 3
behaves as 2. -/
def rsDecode (tcorr : Nat) (delta : List Byte) : Verdict :=
  if delta.all (fun b => decide (b = 0)) then .clean
  else
    let s := (List.range 4).map (syndrome delta)
    if tcorr = 0 then .bad
    else match (List.range 68).find? (fun p => decide (s.getD 0 0 ≠ 0) && oneFits s p) with
      | some p => .fixed [(p, s.getD 0 0)]
      | none =>
        if tcorr = 1 then .bad
        else match (pairsBelow 68).findSome? (fun pq => (twoFit s pq.1 pq.2).map (fun v => (pq, v))) with
          | some (pq, v) => .fixed [(pq.1, v.1), (pq.2, v.2)]
          | none => .bad

/-- The data with the corrected symbols put right. -/
def fixData (data : List Byte) (errs : List (Nat × Byte)) : List Byte :=
  data.zipIdx.map (fun p => p.1 ^^^ ((errs.find? (fun e => decide (e.1 = p.2))).map (·.2)).getD 0)

end Sys2Proof.Machine
end

