-- ==== Sys2Proof/Config.lean ====
section
/-! DEFINITION. What an implementation fixes and the manual leaves to other standards: the free values of the model. None has a body, so no proof can see a value. -/

namespace Sys2Proof.Config

/-- FREE VALUE (log entry 9): whether an RSASSA-PSS signature with SHA-384 verifies over `msg` (R610 check 6; the
standard is not restated by the manual). -/
opaque rsaVerifies : (modulus msg sig : List Byte) → Bool

/-- FREE VALUE (log entry 9): whether an SLH-DSA-SHA2-128s signature verifies over `msg` (R610 check 7). -/
opaque slhVerifies : (pk msg sig : List Byte) → Bool

/-- FREE VALUE (log entry 9): the SEC_ signer's RSA signature over a message (R622). -/
opaque rsaSign : List Byte → List Byte

/-- FREE VALUE (log entry 9): the SEC_ signer's SLH-DSA signature over a message (R622). -/
opaque slhSign : List Byte → List Byte

/-- FREE VALUE (log entry 10): the SHA-384 digest of the boot ROM (R625 index 1); the manual gives no ROM contents. -/
opaque romDigest : BitVec 384

/-- FREE VALUE (log entry 10): the device's MCTP endpoint UUID (R614). -/
opaque endpointUuid : List Byte

/-- FREE VALUE (log entry 11): the body of a response whose layout DSP0236, DSP0240, DSP0248, DSP0257, DSP0267 or DSP0274
gives and the manual does not restate: by response kind and arguments. -/
opaque standardBody : (kind arg1 arg2 : Nat) → List Byte

/-- FREE VALUE (log entry 12): the time in ns, seconds and so on that an interval computation reads from the device's
clocks, n-th reading (R556: C_measured, T_step). -/
opaque measured : (what : Nat) → (n : Nat) → Nat

/-- FREE VALUE (log entry 13): which detour entries the ring controller writes for a set of dead routers: the word of
entry n of site s (R76). -/
opaque detourWord : (dead : List Nat) → (site n : Nat) → Word

/-- FREE VALUE (log entry 14): a value the manual does not state, n-th reading (`State.freeCtr` counts the readings): an event's
code, address or detail where the block's chapter gives none, and the other unstated values that name this entry. -/
opaque freeWord : (n : Nat) → Word

end Sys2Proof.Config
end

