-- ==== Sys2Proof/Machine/Map.lean ====
section
/-! DEFINITION. Sparse arrays as lists of pairs with strictly rising keys: reading, writing, dropping keys. -/

namespace Sys2Proof.Machine

/-- What is listed at key k. -/
def mGet {α : Type} : List (Nat × α) → Nat → Option α
  | [], _ => none
  | p :: m, k => if k = p.1 then some p.2 else mGet m k

/-- The value at key k of an array whose unlisted keys read as d. -/
def mGetD {α : Type} (m : List (Nat × α)) (k : Nat) (d : α) : α := (mGet m k).getD d

/-- The array with key k holding x, or listed no more. -/
def mPut {α : Type} : List (Nat × α) → Nat → Option α → List (Nat × α)
  | [], k, x => match x with
    | some v => [(k, v)]
    | none => []
  | p :: m, k, x =>
    if k = p.1 then match x with
      | some v => (k, v) :: m
      | none => mPut m k none
    else if k < p.1 then match x with
      | some v => (k, v) :: p :: m
      | none => p :: mPut m k none
    else p :: mPut m k x

/-- The array with key k holding v, where an unlisted key reads as d. -/
def mSet {α : Type} [DecidableEq α] (m : List (Nat × α)) (k : Nat) (v d : α) : List (Nat × α) :=
  mPut m k (if v = d then none else some v)

/-- The array with the keys that p rejects unlisted. -/
def mKeep {α : Type} (m : List (Nat × α)) (p : Nat → Bool) : List (Nat × α) := m.filter (fun x => p x.1)

/-- The array with each listed value replaced by what f gives; none unlists it. -/
def mMap {α : Type} (m : List (Nat × α)) (f : Nat → α → Option α) : List (Nat × α) :=
  m.filterMap (fun x => (f x.1 x.2).map (fun v => (x.1, v)))

/-- Keys strictly rise. -/
def mRising {α : Type} : List (Nat × α) → Bool
  | [] => true
  | p :: m => m.all (fun q => decide (p.1 < q.1)) && mRising m

/-- Canonical form: keys strictly rise and nothing is listed that an unlisted key reads as. -/
def mCanon {α : Type} [DecidableEq α] (m : List (Nat × α)) (d : Nat → α) : Bool :=
  mRising m && m.all (fun p => decide (p.2 ≠ d p.1))

end Sys2Proof.Machine
end

