-- ==== Sys2Proof/Machine/Regs.lean ====
section
/-! DEFINITION. The control window: which page is which block (R15 to R19), every register's field types and reset value (R22 to R26, R41 and the blocks' register tables), and what a register reads as. -/

namespace Sys2Proof.Machine

/-- The block or data window that owns a page. -/
inductive Block where
  | mgt (i : Nat)
  | sec (i : Nat)
  | pwr (i : Nat)
  | fabG
  | dist
  | mp (n : Nat)
  | ue (n : Nat)
  | mig (i : Nat)
  | bx (n : Nat)
  | hp (k : Nat)
  | fnPage (f : Nat)
  | snap
  | core (s : Nat)
  | seq (s : Nat)
  | tile (s : Nat)
  | cube (s : Nat)
  | vu (s : Nat)
  | tly (s : Nat)
  | mv (s : Nat)
  | fab (s : Nat)
  | rod (s : Nat)
  | absent
  deriving DecidableEq, Repr

/-- BAR0 offset of page k of site s (R16): 0 CORE_, 1 SEQ_, 2 TILE_, 3 CUBE_, 4 VU_, 5 TLY_, 6 MV_, 7 FAB_. -/
def sitePage (s k : Nat) : Nat := 0x1000000 + s * 0x10000 + k * 0x1000
/-- Page offsets of a core's blocks (R16). -/
def corePage (s : Nat) : Nat := sitePage s 0
/-- The SEQ_ page of site s. -/
def seqPage (s : Nat) : Nat := sitePage s 1
/-- The TILE_ page of site s. -/
def tilePage (s : Nat) : Nat := sitePage s 2
/-- The CUBE_ page of site s. -/
def cubePage (s : Nat) : Nat := sitePage s 3
/-- The VU_ page of site s. -/
def vuPage (s : Nat) : Nat := sitePage s 4
/-- The TLY_ page of site s. -/
def tlyPage (s : Nat) : Nat := sitePage s 5
/-- The MV_ page of site s. -/
def mvPage (s : Nat) : Nat := sitePage s 6
/-- The router page of site s. -/
def fabPage (s : Nat) : Nat := sitePage s 7
/-- Page offsets of the global blocks (R17). -/
def mgtPage (i : Nat) : Nat := i * 0x1000
/-- The SEC_ pages. -/
def secPage (i : Nat) : Nat := 0x8000 + i * 0x1000
/-- The PWR_ pages. -/
def pwrPage (i : Nat) : Nat := 0xC000 + i * 0x1000
/-- The global FAB_ page. -/
def fabGPage : Nat := 0x10000
/-- The distance table window. -/
def distBase : Nat := 0x20000
/-- The MP_ page of port n. -/
def mpPage (n : Nat) : Nat := 0x100000 + n * 0x1000
/-- The UE_ page of engine n. -/
def uePage (n : Nat) : Nat := 0x120000 + n * 0x1000
/-- The MIG_ pages. -/
def migPage (i : Nat) : Nat := 0x140000 + i * 0x1000
/-- The BX_ page of port n. -/
def bxPage (n : Nat) : Nat := 0x160000 + n * 0x1000
/-- The HP_ page of host port k. -/
def hpPage (k : Nat) : Nat := 0x170000 + k * 0x1000
/-- The page of function f. -/
def fnPageOf (f : Nat) : Nat := 0x180000 + f * 0x1000
/-- The SNAP_ page. -/
def snapPage : Nat := 0x1C0000

/-- Whether the core of a site is enabled in the fuse map (R54, MGT_CORE_EN). -/
def coreEn (s : State) (site : Nat) : Bool := decide (site < 1024) && !s.fuses.coreOff.contains site

/-- Whether the router of a site is enabled in the fuse map (R56, MGT_RTR_EN). -/
def rtrEn (s : State) (site : Nat) : Bool := decide (site < 1024) && !s.fuses.rtrOff.contains site

/-- MGT_CORE_AVAIL: enabled and not withdrawn since power-on (R59). -/
def coreAvail (s : State) (site : Nat) : Bool := coreEn s site && !s.withdrawn.contains site

/-- The enabled core sites in ascending order: logical core k is element k (R57). -/
def coreList (s : State) : List Nat := (List.range 1024).filter (fun c => coreEn s c)

/-- The number of enabled cores (R54). -/
def nCores (s : State) : Nat := 1024 - s.fuses.coreOff.length

/-- Which block owns page p (R15 to R17), before fusing (R36). -/
def pageBlock (p : Nat) : Block :=
  if p < 5 then .mgt p
  else if p = 8 ∨ p = 9 then .sec (p - 8)
  else if p = 12 ∨ p = 13 then .pwr (p - 12)
  else if p = 16 then .fabG
  else if 32 ≤ p ∧ p < 49 then .dist
  else if 0x100 ≤ p ∧ p < 0x118 then .mp (p - 0x100)
  else if 0x120 ≤ p ∧ p < 0x138 then .ue (p - 0x120)
  else if p = 0x140 ∨ p = 0x141 then .mig (p - 0x140)
  else if 0x160 ≤ p ∧ p < 0x168 then .bx (p - 0x160)
  else if 0x170 ≤ p ∧ p < 0x174 then .hp (p - 0x170)
  else if 0x180 ≤ p ∧ p < 0x1C0 then .fnPage (p - 0x180)
  else if p = 0x1C0 then .snap
  else if 0x1000 ≤ p ∧ p < 0x5000 then
    let s := (p - 0x1000) / 16
    match (p - 0x1000) % 16 with
    | 0 => .core s
    | 1 => .seq s
    | 2 => .tile s
    | 3 => .cube s
    | 4 => .vu s
    | 5 => .tly s
    | 6 => .mv s
    | 7 => .fab s
    | _ => .rod s
  else .absent

/-- The site of a core's page or rod window; none for other blocks. -/
def Block.coreSite : Block → Option Nat
  | .core s | .seq s | .tile s | .cube s | .vu s | .tly s | .mv s | .rod s => some s
  | _ => none

/-- How many host ports the strap hp_split gives (R502). -/
def hpPorts (s : State) : Nat :=
  match s.straps.hpSplit.toNat with
  | 1 => 2
  | 2 => 4
  | _ => 1

/-- Whether function f exists: a physical function of a port of the split, or one of the port's enabled virtual functions
(R502, R504). -/
def fnExists (s : State) (f : Nat) : Bool :=
  decide (f / 16 < hpPorts s) && (decide (f % 16 = 0) || decide (f % 16 ≤ mGetD s.numVfs (f / 16) 0))

/-- Which block owns page p of this part: a fused-off core's pages are absent, and so are a fused-off router's page (R36), the
pages of host ports beyond the split (R502) and those of functions that do not exist (R504). -/
def blockOf (s : State) (p : Nat) : Block :=
  match pageBlock p with
  | .fab c => if rtrEn s c then .fab c else .absent
  | .hp k => if k < hpPorts s then .hp k else .absent
  | .fnPage f => if fnExists s f then .fnPage f else .absent
  | b => match b.coreSite with
    | some c => if coreEn s c then b else .absent
    | none => b

/-- Whether a page is a data window, without a header (R18). -/
def Block.isWindow : Block → Bool
  | .dist | .rod _ => true
  | _ => false

/-- BLK_ID: type code (R19) and instance (R16, R17). -/
def Block.ident : Block → Nat
  | .mgt i => 0x10000 + i
  | .fab s => 0x20000 + s
  | .fabG => 0x21000
  | .core s => 0x30000 + s
  | .seq s => 0x40000 + s
  | .tile s => 0x50000 + s
  | .cube s => 0x60000 + s
  | .vu s => 0x70000 + s
  | .tly s => 0x80000 + s
  | .mv s => 0x90000 + s
  | .mp n => 0xA0000 + n
  | .ue n => 0xB0000 + n
  | .mig i => 0xC0000 + i
  | .bx n => 0xD0000 + n
  | .hp k => 0xE0000 + k
  | .fnPage f => 0xE0100 + f
  | .snap => 0xF0000
  | .sec i => 0x100000 + i
  | .pwr i => 0x110000 + i
  | _ => 0

/-- BLK_CAP0, as each block's chapter gives it; the lanes of a host port, which follow hp_split, are read from the straps in
`viewWord`. -/
def Block.cap0 : Block → Nat
  | .fab _ => 0x420
  | .core _ => 0x400C
  | .seq _ => 0x108800
  | .mv _ => 0x802
  | .tile _ => 0x1C08
  | .cube _ => 0x648
  | .vu _ => 0x8840
  | .tly _ => 0x4100
  | .mp _ => 0x10408
  | .ue _ => 0x240208
  | .mig 0 => 0x2010
  | .mig _ => 0x40
  | .bx 0 => 0x148
  | .bx _ => 0x48
  | .fnPage _ => 0x810
  | .snap => 0x140
  | .pwr 0 => 0x960
  | .pwr _ => 5
  | .mgt 2 => 5
  | .sec 0 => 0x204
  | .sec _ => 5
  | _ => 0

/-- BLK_CAP1: [15:8] which slots count errors, [7:0] which slots exist. DESIGN CHOICE (log entry 4): MGT_ instance 1, whose word
the manual does not give, has no slots. -/
def Block.cap1 : Block → Nat
  | .fab _ => 0x303F
  | .fabG => 0x101F
  | .core _ => 0x181F
  | .seq _ => 0x303F
  | .mv _ => 0x303F
  | .tile _ => 0x101F
  | .cube _ => 0x607F
  | .vu _ => 0x101F
  | .tly _ => 0x303F
  | .ue _ => 0x203F
  | .mig 0 => 0x607F
  | .mp _ => 0xF0FF
  | .mgt 3 => 0x1C1F
  | .mgt 0 => 0x303
  | .mgt 2 => 0x303
  | .bx _ => 0xE0FF
  | .hp _ => 0x707F
  | .fnPage _ => 0x80F
  | .snap => 0xE0FF
  | .pwr 0 => 0x80F
  | .pwr _ => 0x203
  | .sec 0 => 0x303
  | _ => 0

/-- A register, or an array of like registers: first offset in the page, how many, how far apart; the masks of its RW, W1C, W1S and
RO bits (R22); its reset value; its sticky bits (R26). A WO or RSV bit is in no mask and reads 0. -/
structure RegDef where
  off : Nat
  n : Nat
  stride : Nat
  rw : Nat
  w1c : Nat
  w1s : Nat
  ro : Nat
  reset : Nat
  sticky : Nat
  deriving DecidableEq, Repr

/-- The common header (R41), but for the words of BLK_ID, BLK_VER, BLK_CAP0, BLK_CAP1 and the counter slots. -/
def headerRegs : List RegDef :=
  [
   ⟨0x10, 1, 4, 0x15, 0, 0, 0, 0, 0⟩, -- BLK_CTRL
   ⟨0x14, 1, 4, 0, 0, 0, 0x30006, 0, 0x10000⟩, -- BLK_STAT, with the router's faulty and sink
   ⟨0x20, 1, 4, 0, 0xFFFF, 0, 0, 0, 0⟩, -- BLK_IST
   ⟨0x24, 1, 4, 0xFFFF, 0, 0, 0, 0x7F, 0⟩, -- BLK_IEN
   ⟨0x2C, 1, 4, 0, 0, 0, 0xFFFF, 0, 0⟩, -- BLK_IRAW
   ⟨0x40, 1, 4, 0, 0xC0000000, 0, 0x07FFFFFF, 0, 0xFFFFFFFF⟩, -- BLK_ERRCAP0
   ⟨0x44, 7, 4, 0, 0, 0, 0xFFFFFFFF, 0, 0xFFFFFFFF⟩ -- BLK_ERRCAP1–7
  ]

/-- The registers of MGT_ instance 0, beyond the header. -/
def mgt0Regs : List RegDef :=
  [
   ⟨0x100, 1, 4, 0x0, 0x0, 0x0, 0x10F, 0x0, 0x0⟩, -- MGT_DEV_STAT
   ⟨0x200, 1, 4, 0x0, 0x0, 0x0, 0xFFFF00FF, 0x0, 0x0⟩ -- MGT_EV_QSTAT
  ]

/-- The registers of MGT_ instance 2, beyond the header. -/
def mgt2Regs : List RegDef :=
  [
   ⟨0x100, 1, 4, 0x0, 0x0, 0x0, 0x1F, 0x0, 0x0⟩, -- MGT_CLK_STAT
   ⟨0x110, 4, 4, 0x0, 0x0, 0x0, 0x1FFFFF, 0x0, 0x0⟩, -- MGT_CLK_FREQn
   ⟨0x120, 1, 4, 0x0, 0x0, 0x0, 0xFF07, 0x0, 0xFF07⟩, -- MGT_RST_CAUSE
   ⟨0x124, 1, 4, 0x0, 0x0, 0x0, 0x0, 0x0, 0x0⟩, -- MGT_RST_CTRL
   ⟨0x128, 1, 4, 0x8000FFFF, 0x0, 0x0, 0x0, 0x800007D0, 0x0⟩, -- MGT_WDT
   ⟨0x12C, 1, 4, 0x0, 0x0, 0x0, 0x0, 0x0, 0x0⟩ -- MGT_WDT_KICK
  ]

/-- The registers of MGT_ instance 3 (R641), beyond the header. -/
def mgt3Regs : List RegDef :=
  [
   ⟨0x100, 2, 4, 0x0, 0x0, 0x0, 0xFFFFFFFF, 0x0, 0x0⟩, -- MGT_BEAD_LO, _HI
   ⟨0x108, 1, 4, 0x0, 0x0, 0x0, 0x80FFFFFF, 0x0, 0x0⟩, -- MGT_BEAD_CYC
   ⟨0x10C, 1, 4, 0x0, 0x0, 0x0, 0xFFFFF, 0x2710, 0x0⟩, -- MGT_BEAD_PERIOD
   ⟨0x110, 1, 4, 0x800FFFFF, 0x0, 0x0, 0x0, 0x2710, 0x0⟩, -- MGT_BEAD_NEXT
   ⟨0x118, 2, 4, 0xFFFFFFFF, 0x0, 0x0, 0x0, 0x0, 0x0⟩, -- MGT_BEAD_AT_LO, _HI
   ⟨0x120, 1, 4, 0x7F03, 0x0, 0x0, 0x0, 0x2, 0x0⟩, -- MGT_BEAD_CTRL
   ⟨0x124, 1, 4, 0xFFFFF, 0x0, 0x0, 0x0, 0x3E8, 0x0⟩, -- MGT_BEAD_FLOOR
   ⟨0x128, 1, 4, 0x0, 0x0, 0x0, 0xF07, 0x0, 0x0⟩, -- MGT_BEAD_STAT
   ⟨0x130, 2, 4, 0x0, 0x0, 0x0, 0xFFFFFFFF, 0x0, 0x0⟩ -- MGT_BEAD_LASTHOLD_LO, _HI
  ]

/-- The registers of MGT_ instance 4, beyond the header. -/
def mgt4Regs : List RegDef :=
  [
   ⟨0x100, 1, 4, 0x13F, 0x0, 0x0, 0x40000000, 0x0, 0x0⟩, -- MGT_DUMP_CTRL
   ⟨0x104, 1, 4, 0x0, 0x0, 0x0, 0xFFFFFFFF, 0x0, 0xFFFFFFFF⟩, -- MGT_DUMP_STAT
   ⟨0x108, 1, 4, 0x1, 0x0, 0x0, 0x0, 0x1, 0x0⟩ -- MGT_DUMP_AUTO
  ]

/-- The registers of SEC_ instance 0, beyond the header. -/
def sec0Regs : List RegDef :=
  [
   ⟨0x100, 1, 4, 0x0, 0x0, 0x0, 0x1FF37, 0x0, 0x0⟩, -- SEC_BOOT_STAT
   ⟨0x104, 1, 4, 0x0, 0x0, 0x0, 0xFFFFFFFF, 0x0, 0x0⟩, -- SEC_FW_VER
   ⟨0x108, 1, 4, 0x0, 0x0, 0x0, 0x7F007F, 0x0, 0x0⟩ -- SEC_SVN
  ]

/-- The registers of SEC_ instance 1, beyond the header. -/
def sec1Regs : List RegDef :=
  [
   ⟨0x100, 12, 4, 0x0, 0x0, 0x0, 0xFFFFFFFF, 0x0, 0x0⟩, -- SEC_MEAS1
   ⟨0x140, 12, 4, 0x0, 0x0, 0x0, 0xFFFFFFFF, 0x0, 0x0⟩, -- SEC_MEAS2
   ⟨0x180, 12, 4, 0x0, 0x0, 0x0, 0xFFFFFFFF, 0x0, 0x0⟩, -- SEC_MEAS3
   ⟨0x1C0, 12, 4, 0x0, 0x0, 0x0, 0xFFFFFFFF, 0x0, 0x0⟩, -- SEC_MEAS4
   ⟨0x200, 12, 4, 0x0, 0x0, 0x0, 0xFFFFFFFF, 0x0, 0x0⟩ -- SEC_MEAS5
  ]

/-- The registers of PWR_ instance 0, beyond the header. -/
def pwr0Regs : List RegDef :=
  [
   ⟨0x100, 2, 4, 0x0, 0x0, 0x0, 0xFFFF, 0x0, 0x0⟩, -- PWR_VIN, PWR_IIN
   ⟨0x108, 1, 4, 0x0, 0x0, 0x0, 0xFFFFFFFF, 0x0, 0x0⟩, -- PWR_PAVG
   ⟨0x10C, 1, 4, 0xFFF, 0x0, 0x0, 0xFFF0000, 0x960, 0x0⟩, -- PWR_LIMIT
   ⟨0x110, 1, 4, 0xFFFF0F01, 0x0, 0x0, 0x0, 0xA640401, 0x0⟩, -- PWR_CAP_CTRL
   ⟨0x114, 1, 4, 0xFFFFF, 0x0, 0x0, 0x0, 0x2710, 0x0⟩, -- PWR_CAP_BASE
   ⟨0x118, 1, 4, 0x0, 0x0, 0x0, 0x800FFFFF, 0x0, 0x0⟩, -- PWR_CAP_REQ
   ⟨0x11C, 1, 4, 0x0, 0x0, 0x0, 0x1FFFF, 0x0, 0x0⟩, -- PWR_SLOT
   ⟨0x120, 1, 4, 0x0, 0x0, 0x0, 0x7, 0x2, 0x0⟩ -- PWR_STATE
  ]

/-- The registers of PWR_ instance 1, beyond the header. -/
def pwr1Regs : List RegDef :=
  [
   ⟨0x100, 5, 4, 0x0, 0x0, 0x0, 0xFFFF, 0x0, 0x0⟩, -- PWR_TDIEn
   ⟨0x120, 2, 4, 0x0, 0x0, 0x0, 0xFFFF, 0x0, 0x0⟩, -- PWR_TMAX, PWR_TVR
   ⟨0x128, 1, 4, 0x0, 0x0, 0x0, 0x3F07, 0x0, 0x0⟩, -- PWR_TDRAM
   ⟨0x12C, 1, 4, 0x0, 0x0, 0x0, 0xFFFF, 0x0, 0x0⟩, -- PWR_TCOOL
   ⟨0x130, 1, 4, 0xFFFF, 0x0, 0x0, 0xFF0000, 0x73645F, 0x0⟩ -- PWR_TLIM
  ]

/-- The registers of FAB_ instance 0x1000, beyond the header. -/
def fabGRegs : List RegDef :=
  [
   ⟨0x100, 1, 4, 0x1, 0x0, 0x0, 0x0, 0x0, 0x0⟩, -- FAB_MESH_CTRL
   ⟨0x104, 1, 4, 0x0, 0x0, 0x0, 0x3, 0x0, 0x0⟩, -- FAB_MESH_STAT
   ⟨0x108, 1, 4, 0xF, 0x0, 0x0, 0x0, 0x0, 0x0⟩, -- FAB_BULK_CTRL
   ⟨0x110, 8, 4, 0xFFFFFF, 0x0, 0x0, 0x0, 0x0, 0x0⟩, -- FAB_BULK_STARTn, FAB_BULK_LENn
   ⟨0x140, 1, 4, 0x0, 0x0, 0x0, 0xFFFFFFFF, 0x0, 0x0⟩ -- FAB_DIST_GEN
  ]

/-- The registers of a FAB_ router page, beyond the header. -/
def fabRegs : List RegDef :=
  [
   ⟨0x200, 32, 4, 0xFFFFFFF8, 0x0, 0x0, 0x0, 0x0, 0x0⟩ -- FAB_DETOURn
  ]

/-- The registers of a CORE_ page, beyond the header. -/
def coreRegs : List RegDef :=
  [
   ⟨0x100, 1, 4, 0x0, 0x0, 0x0, 0x83FFFFFF, 0x0, 0x0⟩, -- CORE_HERD
   ⟨0x104, 1, 4, 0x0, 0x0, 0x0, 0xC700FFFF, 0x0, 0x0⟩, -- CORE_TROW
   ⟨0x108, 1, 4, 0xFFFF01, 0x0, 0x0, 0x0, 0x10001, 0x0⟩, -- CORE_SCRUB
   ⟨0x10C, 1, 4, 0x2, 0x0, 0x0, 0x0, 0x0, 0x0⟩ -- CORE_RC_CTRL
  ]

/-- The registers of a SEQ_ page, beyond the header. -/
def seqRegs : List RegDef :=
  [
   ⟨0x100, 1, 4, 0x0, 0x0, 0x1, 0x0, 0x0, 0x0⟩, -- SEQ_CTRL
   ⟨0x104, 1, 4, 0x0, 0x0, 0x0, 0xFF000F, 0x0, 0x0⟩, -- SEQ_STAT
   ⟨0x108, 1, 4, 0x7FF, 0x0, 0x0, 0x0, 0x0, 0x0⟩, -- SEQ_START
   ⟨0x110, 2, 4, 0xFFFFFFFF, 0x0, 0x0, 0x0, 0x0, 0x0⟩, -- SEQ_START_BEAD_LO, _HI
   ⟨0x118, 1, 4, 0x0, 0x0, 0x0, 0x7FF, 0x0, 0x0⟩, -- SEQ_PC
   ⟨0x11C, 1, 4, 0x0, 0x0, 0x0, 0xFFFFFFFF, 0x0, 0x0⟩, -- SEQ_SLOTS
   ⟨0x120, 8, 4, 0x0, 0x0, 0x0, 0xFFFFFFFF, 0x0, 0x0⟩, -- SEQ_LCn
   ⟨0x140, 1, 4, 0x0, 0x0, 0x0, 0xFFFFFFFF, 0x0, 0x0⟩, -- SEQ_PATH
   ⟨0x160, 8, 4, 0xFFFFFFFF, 0x0, 0x0, 0x0, 0x0, 0x0⟩, -- SEQ_PATHSRCk
   ⟨0x180, 1, 4, 0x0, 0x0, 0x0, 0xF0FF07FF, 0x0, 0x0⟩, -- SEQ_FLT0
   ⟨0x184, 2, 4, 0x0, 0x0, 0x0, 0xFFFFFFFF, 0x0, 0x0⟩, -- SEQ_FLT_INSN, SEQ_FLT_ADDR_LO
   ⟨0x18C, 1, 4, 0x0, 0x0, 0x0, 0x8000003F, 0x0, 0x0⟩, -- SEQ_FLT_ADDR_HI
   ⟨0x1A0, 1, 4, 0xFFFFFFF0, 0x0, 0x0, 0x0, 0x0, 0x0⟩, -- SEQ_RLOAD_LO
   ⟨0x1A4, 1, 4, 0x3FF, 0x0, 0x0, 0x0, 0x0, 0x0⟩, -- SEQ_RLOAD_HI
   ⟨0x1A8, 1, 4, 0x7FF07FF, 0x0, 0x0, 0x60000000, 0x0, 0x0⟩, -- SEQ_RLOAD_CTRL
   ⟨0x200, 16, 16, 0xFFFFFFFF, 0x0, 0x0, 0x0, 0x0, 0x0⟩, -- SEQ_AGn +0x0
   ⟨0x204, 16, 16, 0x3F, 0x0, 0x0, 0x0, 0x0, 0x0⟩, -- SEQ_AGn +0x4
   ⟨0x208, 16, 16, 0x87FFFFFF, 0x0, 0x0, 0x0, 0x0, 0x0⟩, -- SEQ_AGn +0x8
   ⟨0x20C, 16, 16, 0x87FFFFFF, 0x0, 0x0, 0x0, 0x0, 0x0⟩ -- SEQ_AGn +0xC
  ]

/-- The registers of an MV_ page, beyond the header. -/
def mvRegs : List RegDef :=
  [
   ⟨0x100, 2, 16, 0x0, 0x0, 0x0, 0xFFFFFFFF, 0x0, 0x0⟩, -- MV_CHn_STAT
   ⟨0x104, 2, 16, 0x0, 0x0, 0x0, 0xFFFF, 0x0, 0x0⟩, -- MV_CHn_LOCAL
   ⟨0x108, 2, 16, 0x0, 0x0, 0x0, 0xFFFFFFFF, 0x0, 0x0⟩, -- MV_CHn_FAR_LO
   ⟨0x10C, 2, 16, 0x0, 0x0, 0x0, 0x3FF, 0x0, 0x0⟩ -- MV_CHn_FAR_HI
  ]

/-- The registers of a TILE_ page, beyond the header. -/
def tileRegs : List RegDef :=
  [
   ⟨0x100, 16, 4, 0xFFFFFFFF, 0x0, 0x0, 0x0, 0x0, 0x0⟩, -- TILE_TCn
   ⟨0x140, 2, 4, 0x0, 0x0, 0x0, 0xFF, 0x0, 0x0⟩, -- TILE_TC_PEND, TILE_TC_BUSY
   ⟨0x148, 1, 4, 0x0, 0x0, 0x0, 0xFFFFFFFF, 0x0, 0x0⟩, -- TILE_FADDR_LO
   ⟨0x14C, 1, 4, 0x0, 0x0, 0x0, 0x3FF, 0x0, 0x0⟩ -- TILE_FADDR_HI
  ]

/-- The registers of a CUBE_ page, beyond the header. -/
def cubeRegs : List RegDef :=
  [
   ⟨0x100, 1, 4, 0x0, 0x0, 0x0, 0xFFFF00FF, 0x0, 0x0⟩, -- CUBE_STAT
   ⟨0x104, 1, 4, 0x0, 0xFFFFFFFF, 0x0, 0x0, 0x0, 0x0⟩, -- CUBE_POISON
   ⟨0x108, 1, 4, 0x7F0007FF, 0x0, 0x80000000, 0x0, 0x0, 0x0⟩, -- CUBE_INJ
   ⟨0x110, 1, 4, 0x0, 0x0, 0x0, 0x7F3F03, 0x0, 0x0⟩, -- CUBE_DWQ_STAT
   ⟨0x114, 1, 4, 0x0, 0x1F, 0x0, 0x0, 0x0, 0x0⟩, -- CUBE_DWQ_LOG
   ⟨0x420, 63, 32, 0xE000FFFF, 0x0, 0x0, 0x0, 0x0, 0x0⟩, -- CUBE_MTn +0x00
   ⟨0x424, 63, 32, 0xFFFF, 0x0, 0x0, 0x0, 0x0, 0x0⟩, -- CUBE_MTn +0x04
   ⟨0x428, 63, 32, 0xFFFFFFFF, 0x0, 0x0, 0x0, 0x0, 0x0⟩, -- CUBE_MTn +0x08
   ⟨0x42C, 63, 32, 0xFFFFFFFF, 0x0, 0x0, 0x0, 0x0, 0x0⟩, -- CUBE_MTn +0x0C
   ⟨0x430, 63, 32, 0x8700FFFF, 0x0, 0x0, 0x0, 0x0, 0x0⟩, -- CUBE_MTn +0x10
   ⟨0x434, 63, 32, 0x8700FFFF, 0x0, 0x0, 0x0, 0x0, 0x0⟩, -- CUBE_MTn +0x14
   ⟨0xC00, 64, 8, 0x0, 0x0, 0x0, 0xFFFFFFFF, 0x0, 0x0⟩, -- CUBE_DWQEn low
   ⟨0xC04, 64, 8, 0x0, 0x0, 0x0, 0x80FFFFFF, 0x0, 0x0⟩ -- CUBE_DWQEn high
  ]

/-- The registers of a VU_ page, beyond the header. -/
def vuRegs : List RegDef :=
  [
   ⟨0x100, 1, 4, 0x0, 0x0, 0x0, 0x3, 0x0, 0x0⟩, -- VU_STAT
   ⟨0x140, 16, 4, 0xFFFFFFFF, 0x0, 0x0, 0x0, 0x0, 0x0⟩, -- VU_Kn
   ⟨0x180, 2, 4, 0x0, 0x0, 0x0, 0x80FF80FF, 0x0, 0x0⟩, -- VU_BSC0, VU_BSC1
   ⟨0x1C0, 8, 4, 0x0, 0x0, 0x0, 0x3FFF, 0x0, 0x0⟩, -- VU_WCURn
   ⟨0x1E0, 8, 4, 0x0, 0x0, 0x0, 0x3FFF, 0x0, 0x0⟩, -- VU_RCURn
   ⟨0x200, 1, 4, 0xFFFF, 0x0, 0x0, 0x0, 0x0, 0x0⟩, -- VU_DROP
   ⟨0x204, 1, 4, 0xFFFFFFFF, 0x0, 0x0, 0x0, 0x3F800000, 0x0⟩, -- VU_DROPSC
   ⟨0x300, 64, 4, 0x0, 0x0, 0x0, 0xFFFFFFFF, 0x0, 0x0⟩, -- VU_RAk
   ⟨0x800, 1, 4, 0xFFFFFF00, 0x0, 0x0, 0x0, 0x0, 0x0⟩, -- VU_STBASE_LO
   ⟨0x804, 1, 4, 0x3FF, 0x0, 0x0, 0x0, 0x0, 0x0⟩, -- VU_STBASE_HI
   ⟨0x808, 1, 4, 0x1, 0x0, 0x0, 0x0, 0x0, 0x0⟩, -- VU_RNG_CTRL
   ⟨0x810, 6, 4, 0xFFFFFFFF, 0x0, 0x0, 0x0, 0x0, 0x0⟩, -- VU_FSEED, VU_SKEY, VU_STEPIDX
   ⟨0x828, 1, 4, 0xFF01, 0x0, 0x0, 0x0, 0x0, 0x0⟩, -- VU_NF_CTRL
   ⟨0x82C, 1, 4, 0x0, 0x8, 0x0, 0x7, 0x0, 0x0⟩, -- VU_NF_STAT
   ⟨0x840, 16, 4, 0xC000FFFF, 0x0, 0x0, 0x0, 0x0, 0x0⟩, -- VU_TSLOTn
   ⟨0x880, 16, 4, 0x0, 0x0, 0x0, 0xFFFFFFFF, 0x0, 0x0⟩ -- VU_TSCALEn
  ]

/-- The registers of a TLY_ page, beyond the header. -/
def tlyRegs : List RegDef :=
  [
   ⟨0x100, 8, 4, 0x0, 0x0, 0xFFFFFFFF, 0x0, 0x0, 0x0⟩, -- TLY_FLAGk
   ⟨0x120, 8, 4, 0x0, 0x0, 0x0, 0x0, 0x0, 0x0⟩, -- TLY_FCLRk
   ⟨0x140, 32, 4, 0x0, 0x0, 0x0, 0xFFFFFFFF, 0x0, 0x0⟩, -- TLY_CNTn
   ⟨0x1C0, 32, 4, 0x8000FFFF, 0x0, 0x0, 0x0, 0x0, 0x0⟩, -- TLY_CINITn
   ⟨0x240, 1, 4, 0x0, 0x0, 0x0, 0xFF, 0x0, 0x0⟩, -- TLY_STEP
   ⟨0x244, 1, 4, 0x0, 0x0, 0x0, 0xE0FFFFFF, 0x0, 0x0⟩, -- TLY_WAIT
   ⟨0x248, 1, 4, 0x0, 0x0, 0x0, 0xFFFFFFFF, 0x0, 0x0⟩, -- TLY_WAITCYC
   ⟨0x280, 32, 4, 0x0, 0x0, 0x0, 0x7FF, 0x0, 0x0⟩ -- TLY_SHWj
  ]

/-- The registers of a UE_ page, beyond the header. -/
def ueRegs : List RegDef :=
  [
   ⟨0x100, 1, 4, 0xFFFF0000, 0x0, 0x0, 0x0, 0x0, 0x0⟩, -- UE_GTBASE_LO
   ⟨0x104, 1, 4, 0x3FF, 0x0, 0x0, 0x0, 0x0, 0x0⟩, -- UE_GTBASE_HI
   ⟨0x108, 1, 4, 0xFFFFFF, 0x0, 0x0, 0x0, 0x400400, 0x0⟩, -- UE_CFG
   ⟨0x10C, 1, 4, 0x0, 0x0, 0x0, 0x70F03, 0x0, 0x0⟩, -- UE_STAT
   ⟨0x110, 1, 4, 0xFFFFFF80, 0x0, 0x0, 0x0, 0x0, 0x0⟩, -- UE_PLOAD_LO
   ⟨0x114, 1, 4, 0x3FF, 0x0, 0x0, 0x0, 0x0, 0x0⟩, -- UE_PLOAD_HI
   ⟨0x118, 1, 4, 0xFFFF, 0x0, 0x0, 0x60000000, 0x0, 0x0⟩, -- UE_PLOAD_CTRL
   ⟨0x120, 8, 4, 0x0, 0x0, 0x0, 0xFFFFFFFF, 0x0, 0x0⟩, -- UE_PVALIDk
   ⟨0x200, 64, 16, 0xFFFFFFC0, 0x0, 0x0, 0x0, 0x0, 0x0⟩, -- UE_RINGh +0x0
   ⟨0x204, 64, 16, 0x800F03FF, 0x40000000, 0x0, 0x0, 0x40000, 0x0⟩, -- UE_RINGh +0x4
   ⟨0x208, 64, 16, 0x0, 0x0, 0x0, 0xFFFFFFFF, 0x0, 0x0⟩, -- UE_RINGh +0x8
   ⟨0x20C, 64, 16, 0x0, 0x0, 0x0, 0xFF, 0x0, 0x0⟩, -- UE_RINGh +0xC
   ⟨0x600, 64, 8, 0x8000FFFF, 0x0, 0x0, 0x0, 0x0, 0x0⟩, -- UE_HGRPh +0x0
   ⟨0x604, 64, 8, 0x1FFFF, 0x0, 0x0, 0x0, 0x0, 0x0⟩, -- UE_HGRPh +0x4
   ⟨0x800, 128, 4, 0xFFFFFFFF, 0x0, 0x0, 0x0, 0x0, 0x0⟩, -- UE_HSEEDh
   ⟨0xA00, 64, 8, 0x0, 0x0, 0x0, 0xE0000000, 0x0, 0x0⟩, -- UE_HVOTEh +0x0
   ⟨0xA04, 64, 8, 0x0, 0x0, 0x0, 0xFFFFFFFF, 0x0, 0x0⟩ -- UE_HVOTEh +0x4
  ]

/-- The registers of MIG_ instance 0, beyond the header. -/
def mig0Regs : List RegDef :=
  [
   ⟨0x108, 1, 4, 0x0, 0x0, 0x0, 0x3FFFFFF, 0x0, 0x0⟩, -- MIG_FREE
   ⟨0x10C, 1, 4, 0xFFFFFFFF, 0x0, 0x0, 0x0, 0x8000400, 0x0⟩, -- MIG_WMARK
   ⟨0x110, 1, 4, 0x0, 0x0, 0x0, 0x1F07, 0x0, 0x0⟩, -- MIG_STAT
   ⟨0x800, 512, 4, 0xFFFFFFFF, 0x0, 0x0, 0x0, 0x0, 0x0⟩ -- MIG_SSETs
  ]

/-- The registers of MIG_ instance 1, beyond the header. -/
def mig1Regs : List RegDef :=
  [
   ⟨0x200, 64, 32, 0x3FFFFFF, 0x0, 0x0, 0x0, 0x0, 0x0⟩, -- MIG_HQUOTAh
   ⟨0x204, 64, 32, 0x3FFFFFF, 0x0, 0x0, 0x0, 0x0, 0x0⟩, -- MIG_HFLOORh
   ⟨0x208, 64, 32, 0x0, 0x0, 0x0, 0x3FFFFFF, 0x0, 0x0⟩, -- MIG_HUSEDh
   ⟨0x20C, 64, 32, 0x0, 0x0, 0x0, 0x3FFFFFF, 0x0, 0x0⟩, -- MIG_HPINh
   ⟨0x210, 64, 32, 0xFFFFFFE0, 0x0, 0x0, 0x0, 0x0, 0x0⟩, -- MIG_HPFh low
   ⟨0x214, 64, 32, 0x3FF, 0x0, 0x0, 0x0, 0x0, 0x0⟩, -- MIG_HPFh high
   ⟨0x218, 64, 32, 0x8000FFFF, 0x0, 0x0, 0x0, 0x0, 0x0⟩, -- MIG_HPF_CTRLh
   ⟨0x21C, 64, 32, 0x0, 0x0, 0x0, 0xFFFFFFFF, 0x0, 0x0⟩ -- MIG_HPF_MISSh
  ]

/-- The registers of an MP_ page, beyond the header. -/
def mpRegs : List RegDef :=
  [
   ⟨0x100, 1, 4, 0x1E, 0x0, 0x0, 0x1, 0x1C, 0x0⟩, -- MP_ECC_CTRL
   ⟨0x104, 1, 4, 0xFFFFFF01, 0x0, 0x0, 0x0, 0x1D2001, 0x0⟩, -- MP_SCRUB
   ⟨0x108, 1, 4, 0x0, 0x80000000, 0x0, 0x7FFFFF, 0x0, 0x0⟩, -- MP_SCRUB_STAT
   ⟨0x10C, 1, 4, 0x0, 0x0, 0x0, 0xFF03, 0x0, 0x0⟩, -- MP_STAT
   ⟨0x110, 1, 4, 0xFFFF, 0x0, 0x0, 0x3F0000, 0x100, 0x0⟩, -- MP_MERGE
   ⟨0x114, 1, 4, 0xFFFFFF, 0x0, 0x0, 0x0, 0x180200, 0x0⟩, -- MP_ARB
   ⟨0x118, 1, 4, 0x1, 0x0, 0x0, 0x7F00, 0x1, 0x7F00⟩, -- MP_REMAP_CTRL
   ⟨0x120, 1, 4, 0x1F, 0x0, 0x0, 0x0, 0x8, 0x0⟩, -- MP_TEST_CTRL
   ⟨0x124, 1, 4, 0x3FFFFFFF, 0x0, 0x0, 0x0, 0x0, 0x0⟩, -- MP_TEST_ADDR
   ⟨0x128, 1, 4, 0x0, 0x0, 0x0, 0x80000000, 0x0, 0x0⟩, -- MP_TEST_CMD
   ⟨0x12C, 1, 4, 0x0, 0x0, 0x0, 0xFFFF37, 0x0, 0x0⟩, -- MP_TEST_STAT
   ⟨0x130, 1, 4, 0x0, 0x0, 0x0, 0xFFFF, 0x0, 0x0⟩, -- MP_TEST_EVAL
   ⟨0x140, 16, 4, 0xFFFFFFFF, 0x0, 0x0, 0x0, 0x0, 0x0⟩, -- MP_TEST_DATAk
   ⟨0x180, 1, 4, 0xFFFFFFFF, 0x0, 0x0, 0x0, 0x0, 0x0⟩, -- MP_TEST_CHK
   ⟨0x200, 64, 4, 0xFFFFFFFF, 0x0, 0x0, 0x0, 0x0, 0xFFFFFFFF⟩ -- MP_REMAPn
  ]

/-- The registers of a BX_ page, beyond the header. -/
def bxRegs : List RegDef :=
  [
   ⟨0x100, 1, 4, 0x1, 0x0, 0x0, 0x0, 0x0, 0x0⟩, -- BX_LINK_CTRL
   ⟨0x104, 1, 4, 0x0, 0x0, 0x0, 0xFF0F, 0x0, 0x0⟩, -- BX_LINK_STAT
   ⟨0x108, 1, 4, 0x803FFFFF, 0x0, 0x0, 0x0, 0x0, 0x0⟩, -- BX_NBR
   ⟨0x10C, 1, 4, 0x0, 0x0, 0x0, 0x803FFFFF, 0x0, 0x0⟩, -- BX_PARTNER
   ⟨0x110, 1, 4, 0x0, 0x0, 0x0, 0xFFFF, 0x0, 0x0⟩, -- BX_DELAY
   ⟨0x140, 1, 4, 0x0, 0x0, 0x0, 0xC0FFFFFF, 0x0, 0x0⟩, -- BX_CMIS_STAT
   ⟨0x144, 12, 4, 0x0, 0x0, 0x0, 0xFFFFFFFF, 0x0, 0x0⟩ -- BX_CMIS_VENDORn, _PARTn, _SERIALn
  ]

/-- The registers of the pod block of BX_ instance 0, beyond the header. -/
def podRegs : List RegDef :=
  [
   ⟨0x800, 1, 4, 0xFFFF, 0x0, 0x0, 0x0, 0x0, 0x0⟩, -- BX_POD_ID
   ⟨0x804, 1, 4, 0x80033F3F, 0x0, 0x0, 0x40000000, 0x0, 0x0⟩, -- BX_POD_CFG
   ⟨0x808, 2, 4, 0xFFFFFFFF, 0x0, 0x0, 0x0, 0x0, 0x0⟩, -- BX_POD_PRESENT_LO, _HI
   ⟨0x810, 1, 4, 0x0, 0x0, 0x0, 0x800F3FFF, 0x0, 0x0⟩, -- BX_POD_TREE
   ⟨0x814, 1, 4, 0x0, 0x0, 0x0, 0xFF7FF, 0x400, 0x0⟩, -- BX_MC_STAT
   ⟨0xA00, 64, 16, 0xFFFFFFC0, 0x0, 0x0, 0x0, 0x0, 0x0⟩, -- BX_CRINGh +0x0
   ⟨0xA04, 64, 16, 0x800F03FF, 0x40000000, 0x0, 0x0, 0x40000, 0x0⟩, -- BX_CRINGh +0x4
   ⟨0xA08, 64, 16, 0x0, 0x0, 0x0, 0xFFFFFFFF, 0x0, 0x0⟩, -- BX_CRINGh +0x8
   ⟨0xA0C, 64, 16, 0x0, 0x0, 0x0, 0xFF, 0x0, 0x0⟩ -- BX_CRINGh +0xC
  ]

/-- The registers of an HP_ port page, beyond the header. -/
def hpRegs : List RegDef :=
  [
   ⟨0x100, 1, 4, 0x0, 0x0, 0x0, 0x3F71, 0x0, 0x0⟩, -- HP_PORT_STAT
   ⟨0x110, 1, 4, 0x7FF, 0x0, 0x0, 0x0, 0x400, 0x0⟩, -- HP_LIM_CORES
   ⟨0x114, 1, 4, 0x3FFFFFF, 0x0, 0x0, 0x0, 0x3FFFFFF, 0x0⟩, -- HP_LIM_FRAMES
   ⟨0x118, 1, 4, 0x1FFFF, 0x0, 0x0, 0x0, 0x10000, 0x0⟩, -- HP_LIM_GROUPS
   ⟨0x11C, 1, 4, 0x7F, 0x0, 0x0, 0x0, 0x40, 0x0⟩, -- HP_LIM_HERDS
   ⟨0x120, 1, 4, 0x7FF, 0x0, 0x0, 0x0, 0x400, 0x0⟩ -- HP_LIM_SEQ
  ]

/-- The registers of HP0 alone, beyond the header. -/
def hp0Regs : List RegDef :=
  [
   ⟨0x104, 1, 4, 0xFF, 0x0, 0x0, 0x0, 0x40, 0x0⟩ -- HP_ENG
  ]

/-- The registers of a function page, beyond the header. -/
def fnRegs : List RegDef :=
  [
   ⟨0x100, 1, 4, 0x0, 0x0, 0x0, 0x803F0007, 0x0, 0x0⟩, -- HP_FN_STAT
   ⟨0x108, 1, 4, 0xC0000000, 0x0, 0x0, 0x0, 0x0, 0x0⟩, -- HP_FN_BAR2BASE_LO
   ⟨0x10C, 1, 4, 0x3FF, 0x0, 0x0, 0x0, 0x0, 0x0⟩, -- HP_FN_BAR2BASE_HI
   ⟨0x110, 1, 4, 0xFFFFF000, 0x0, 0x0, 0x0, 0x0, 0x0⟩, -- HP_NR_BASE_LO
   ⟨0x114, 1, 4, 0xFFFFFFFF, 0x0, 0x0, 0x0, 0x0, 0x0⟩, -- HP_NR_BASE_HI
   ⟨0x118, 1, 4, 0x800F003F, 0x0, 0x0, 0x0, 0x40000, 0x0⟩, -- HP_NR_CTRL
   ⟨0x11C, 1, 4, 0xFFFF, 0x0, 0x0, 0x0, 0x0, 0x0⟩, -- HP_NR_HEAD
   ⟨0x120, 1, 4, 0x0, 0x0, 0x0, 0xFFFF, 0x0, 0x0⟩, -- HP_NR_TAIL
   ⟨0x200, 16, 32, 0xFFFFF000, 0x0, 0x0, 0x0, 0x0, 0x0⟩, -- HP_CRk_SQ_LO
   ⟨0x204, 16, 32, 0xFFFFFFFF, 0x0, 0x0, 0x0, 0x0, 0x0⟩, -- HP_CRk_SQ_HI
   ⟨0x208, 16, 32, 0xC00F003F, 0x0, 0x0, 0x0, 0x40000, 0x0⟩, -- HP_CRk_CTRL
   ⟨0x20C, 16, 32, 0xFFFFF000, 0x0, 0x0, 0x0, 0x0, 0x0⟩, -- HP_CRk_CQ_LO
   ⟨0x210, 16, 32, 0xFFFFFFFF, 0x0, 0x0, 0x0, 0x0, 0x0⟩, -- HP_CRk_CQ_HI
   ⟨0x214, 16, 32, 0x0, 0x0, 0x0, 0xFFFFFFFF, 0x0, 0x0⟩, -- HP_CRk_PTR
   ⟨0x218, 16, 32, 0xFFFF, 0x0, 0x0, 0x0, 0x0, 0x0⟩, -- HP_CRk_CQHEAD
   ⟨0x21C, 16, 32, 0x0, 0x0, 0x0, 0xFFFF, 0x0, 0x0⟩, -- HP_CRk_CQTAIL
   ⟨0x800, 64, 16, 0xFFFFFFFF, 0x0, 0x0, 0x0, 0x0, 0x0⟩, -- MSI-X table: address, data
   ⟨0x804, 64, 16, 0xFFFFFFFF, 0x0, 0x0, 0x0, 0x0, 0x0⟩, -- MSI-X upper address
   ⟨0x808, 64, 16, 0xFFFFFFFF, 0x0, 0x0, 0x0, 0x0, 0x0⟩, -- MSI-X data
   ⟨0x80C, 64, 16, 0x1, 0x0, 0x0, 0x0, 0x1, 0x0⟩, -- MSI-X vector control
   ⟨0xC00, 2, 4, 0x0, 0x0, 0x0, 0xFFFFFFFF, 0x0, 0x0⟩ -- Pending Bit Array
  ]

/-- The registers of SNAP_ instance 0, beyond the header. -/
def snapRegs : List RegDef :=
  [
   ⟨0x104, 1, 4, 0x0, 0x0, 0x0, 0xF, 0x0, 0x0⟩, -- SNAP_STAT
   ⟨0x120, 1, 4, 0xB000FFFF, 0x0, 0x0, 0x403F0000, 0x0, 0x0⟩, -- SNAP_SPARE
   ⟨0x400, 64, 48, 0x0, 0x0, 0x0, 0xFC00FFFF, 0x0, 0x0⟩, -- SNAP_HCTRL
   ⟨0x404, 64, 48, 0x0, 0x0, 0x0, 0xF000FFFF, 0x0, 0x0⟩, -- SNAP_HSTAT
   ⟨0x408, 64, 48, 0x0, 0x0, 0x0, 0xFFFFFFFF, 0x0, 0x0⟩, -- SNAP_HLAST low
   ⟨0x40C, 64, 48, 0x0, 0x0, 0x0, 0xFFFFFFFF, 0x0, 0x0⟩, -- SNAP_HLAST high
   ⟨0x410, 64, 48, 0x0, 0x0, 0x0, 0xFFFFFFFF, 0x0, 0x0⟩, -- SNAP_HNEXT low
   ⟨0x414, 64, 48, 0x0, 0x0, 0x0, 0xFFFFFFFF, 0x0, 0x0⟩, -- SNAP_HNEXT high
   ⟨0x418, 64, 48, 0x0, 0x0, 0x0, 0xFFFFFFFF, 0x0, 0x0⟩, -- SNAP_cost
   ⟨0x41C, 64, 48, 0x0, 0x0, 0x0, 0xFFFFFFFF, 0x0, 0x0⟩, -- SNAP_tstep
   ⟨0x420, 64, 48, 0x0, 0x0, 0x0, 0xFFFFFFFF, 0x0, 0x0⟩, -- SNAP_mf
   ⟨0x424, 64, 48, 0x0, 0x0, 0x0, 0xFFFFFFFF, 0x0, 0x0⟩, -- SNAP_tobs
   ⟨0x428, 64, 48, 0x0, 0x0, 0x0, 0xFFFFFF, 0x0, 0x0⟩, -- SNAP_w, n
   ⟨0x42C, 64, 48, 0x0, 0x0, 0x0, 0xFFFFFFFF, 0x0, 0x0⟩ -- SNAP_m
  ]

/-- MGT_FUSE_STAT.fuse_ok, the one stored bit of MGT_ instance 1; every other register there is a view of the fuse map. -/
def mgt1Regs : List RegDef := [⟨0x104, 1, 4, 0, 0, 0, 1, 0, 0⟩]

/-- The registers of a block, beyond the header. -/
def Block.regs : Block → List RegDef
  | .mgt 0 => mgt0Regs
  | .mgt 1 => mgt1Regs
  | .mgt 2 => mgt2Regs
  | .mgt 3 => mgt3Regs
  | .mgt _ => mgt4Regs
  | .sec 0 => sec0Regs
  | .sec _ => sec1Regs
  | .pwr 0 => pwr0Regs
  | .pwr _ => pwr1Regs
  | .fabG => fabGRegs
  | .mp _ => mpRegs
  | .ue _ => ueRegs
  | .mig 0 => mig0Regs
  | .mig _ => mig1Regs
  | .bx 0 => bxRegs ++ podRegs
  | .bx _ => bxRegs
  | .hp 0 => hp0Regs ++ hpRegs
  | .hp _ => hpRegs
  | .fnPage _ => fnRegs
  | .snap => snapRegs
  | .core _ => coreRegs
  | .seq _ => seqRegs
  | .tile _ => tileRegs
  | .cube _ => cubeRegs
  | .vu _ => vuRegs
  | .tly _ => tlyRegs
  | .mv _ => mvRegs
  | .fab _ => fabRegs
  | .dist | .rod _ | .absent => []

/-- Whether offset off of the page is one of the registers of d. -/
def RegDef.has (d : RegDef) (off : Nat) : Bool :=
  decide (d.off ≤ off) && decide (off < d.off + d.n * d.stride) && decide ((off - d.off) % d.stride = 0)

/-- The counter slots (R48): sticky when the slot counts errors. -/
def slotDef (b : Block) (off : Nat) : RegDef :=
  ⟨off, 1, 4, 0, 0, 0, 0x8000FFFF + 0x7FFF0000 * b2n (decide (off % 8 = 0)), 0,
    if b.cap1.testBit (8 + (off - 0x80) / 8) then 0xFFFFFFFF else 0⟩

/-- The definition of the register at offset off of a page of block b; none at a reserved offset (R23). -/
def regDef (b : Block) (off : Nat) : Option RegDef :=
  if b.isWindow || decide (b = .absent) then none
  else if off < 0x80 then headerRegs.find? (fun d => d.has off)
  else if off < 0xC0 then some (slotDef b off)
  else b.regs.find? (fun d => d.has off)

/-- The reset value of the control-window word at BAR0 offset a. -/
def resetWord (a : Nat) : Word :=
  match regDef (pageBlock (a / 4096)) (a % 4096) with
  | some d => BitVec.ofNat 32 d.reset
  | none => 0

/-- The sticky bits of the control-window word at BAR0 offset a. -/
def stickyMask (a : Nat) : Word :=
  match regDef (pageBlock (a / 4096)) (a % 4096) with
  | some d => BitVec.ofNat 32 d.sticky
  | none => 0

/-- The stored word of a register. -/
def rd (s : State) (a : Nat) : Word := mGetD s.ctl a (resetWord a)

/-- A 64-bit register from its two words (R30). -/
def rd64 (s : State) (a : Nat) : DWord := joinWords (rd s a) (rd s (a + 4))

/-- A BAR of a function (R12): 64-bit, so the BAR after it holds its upper half; `least` and `most` bound log2 of its size, which is
`atReset` after reset. -/
structure Bar where
  index : Nat
  prefetchable : Bool
  atReset : Nat
  least : Nat
  most : Nat
  deriving DecidableEq, Repr

/-- The BARs of every function, virtual ones too (R12): the control window, the window into the unified range, and the doorbells. -/
def bars : List Bar := [⟨0, false, 28, 28, 28⟩, ⟨2, true, 36, 30, 41⟩, ⟨4, false, 16, 16, 16⟩]

/-- The definition of BAR n; BAR1, BAR3 and BAR5 are not implemented. -/
def barOf (n : Nat) : Option Bar := bars.find? (fun b => decide (b.index = n))

/-- BLK_STAT.rst_busy of the page at p. -/
def rstBusy (s : State) (p : Nat) : Bool := bit (rd s (p + 0x14)) 1

/-- BLK_CTRL.fence of the page at p. -/
def fenced (s : State) (p : Nat) : Bool := bit (rd s (p + 0x10)) 2

/-- Bits of row r of a map over the sites: bit c for site 32 × r + c. -/
def rowBits (r : Nat) (p : Nat → Bool) : Nat :=
  ofBits ((List.range 32).filter (fun c => p (32 * r + c)))

/-- What a read of a stored word shows: its reset value, sticky bits aside, while its page resets (R40). -/
def shown (s : State) (a : Nat) : Word :=
  if rstBusy s (a / 4096 * 4096) then (rd s a &&& stickyMask a) ||| (resetWord a &&& ~~~stickyMask a) else rd s a

/-- Attach points on the north and south edges (R62): the columns of MP0–MP11 and of MP12–MP23. -/
def mpCols : List Nat := [1, 4, 7, 10, 13, 15, 16, 18, 21, 24, 27, 30]
/-- Attach points on the west and east edges (R62). -/
def sideRows : List Nat := [3, 7, 11, 15, 16, 20, 24, 28]

/-- The router and outward port (0 N, 1 E, 2 S, 3 W) of memory port n (R62). -/
def mpAttach (n : Nat) : Nat × Nat :=
  if n < 12 then (mpCols.getD n 0, 0) else (31 * 32 + mpCols.getD (n - 12) 0, 2)

/-- The blocks of the I/O ring (R62). -/
inductive RingBlock where
  | mp (n : Nat)
  | ue (n : Nat)
  | bx (n : Nat)
  | hp (k : Nat)
  | snap
  | mig
  | ringCtl
  | sec
  deriving DecidableEq, Repr

/-- The attach router and outward port (0 N, 1 E, 2 S, 3 W) of a ring block (R62); an update engine uses its memory port's. -/
def attachOf (b : RingBlock) : Nat × Nat :=
  let west (i : Nat) : Nat × Nat := (32 * sideRows.getD i 0, 3)
  let east (i : Nat) : Nat × Nat := (32 * sideRows.getD i 0 + 31, 1)
  match b with
  | .mp n | .ue n => mpAttach n
  | .bx n => if n < 4 then west ([0, 2, 5, 7].getD n 0) else east ([0, 2, 5, 7].getD (n - 4) 0)
  | .hp k => west ([1, 3, 4, 6].getD k 0)
  | .snap => east 1
  | .mig => east 3
  | .ringCtl => east 4
  | .sec => east 6

/-- The attach router and port of each destination of the distance table (R17, R62): 0–23 MP, 24–31 BX, 32–35 HP. -/
def destAttach (d : Nat) : Nat × Nat :=
  attachOf (if d < 24 then .mp d else if d < 32 then .bx (d - 24) else .hp (d - 32))

/-- Whether port p of a site's router leads to an I/O ring block (R62, FAB_RTR_PORTS.ring). -/
def ringPort (site p : Nat) : Bool :=
  match p with
  | 0 => decide (site / 32 = 0) && mpCols.contains (site % 32)
  | 2 => decide (site / 32 = 31) && mpCols.contains (site % 32)
  | 3 => decide (site % 32 = 0) && sideRows.contains (site / 32)
  | 1 => decide (site % 32 = 31) && sideRows.contains (site / 32)
  | _ => false

/-- The site one step through port p (0 N, 1 E, 2 S, 3 W), where the mesh has one. -/
def neighbour (site p : Nat) : Option Nat :=
  match p with
  | 0 => if site / 32 = 0 then none else some (site - 32)
  | 1 => if site % 32 = 31 then none else some (site + 1)
  | 2 => if site / 32 = 31 then none else some (site + 32)
  | 3 => if site % 32 = 0 then none else some (site - 1)
  | _ => none

/-- Whether a router grants credits: fused in, and not withdrawn. DESIGN CHOICE (log entry 25): a fenced or faulty router forwards
until the detour tables go round it. -/
def rtrLive (s : State) (site : Nat) : Bool := rtrEn s site && !s.mesh.routed.contains site

/-- FAB_RTR_PORTS.up bit p: the port has a live partner that grants credits (log entry 5). -/
def portUp (s : State) (site p : Nat) : Bool :=
  bit (rd s 0x1104) 0 &&
  if p = 4 then coreEn s site
  else ringPort site p || match neighbour site p with
    | some t => rtrLive s t
    | none => false

/-- Quadrant of a site (R51). -/
def quadrant (site : Nat) : Nat := 2 * b2n (decide (16 ≤ site / 32)) + b2n (decide (16 ≤ site % 32))

/-- A detour entry (R75, R78) matches a header for `dst` that arrives on port p. -/
def detourHit (w : Word) (dst p : Nat) : Bool :=
  let col := dst % 32
  let row := dst / 32
  bit w 31 && decide (fld w 30 28 ≤ 4) && decide (fld w 22 18 ≤ col) && decide (col ≤ fld w 27 23) &&
    decide (fld w 12 8 ≤ row) && decide (row ≤ fld w 17 13) && (fld w 7 3).testBit p

/-- The port R74 selects at a router for destination router dst and exit port e (0 N … 4 L). -/
def planPort (site dst e : Nat) : Nat :=
  if dst % 32 < site % 32 then 3
  else if site % 32 < dst % 32 then 1
  else if dst / 32 < site / 32 then 0
  else if site / 32 < dst / 32 then 2
  else e

/-- The port a router sends a header to (R74, R75) where `entry` gives the FAB_DETOUR words of each site: that of the lowest-numbered
matching entry, or else R74's. -/
def portBy (entry : Nat → Nat → Word) (site dst e inPort : Nat) : Nat :=
  match ((List.range 32).map (entry site)).find? (fun w => detourHit w dst inPort) with
  | some w => fld w 30 28
  | none => planPort site dst e

/-- FAB_DETOURn of a site's router. -/
def detourAt (s : State) (site n : Nat) : Word := rd s (fabPage site + 0x200 + 4 * n)

/-- The port a router sends a header to by its detour table (R74, R75). -/
def routePort (s : State) (site dst e inPort : Nat) : Nat := portBy (detourAt s) site dst e inPort

/-- The port by which a header that leaves through port p enters the next router. -/
def opposite (p : Nat) : Nat :=
  match p with
  | 0 => 2
  | 1 => 3
  | 2 => 0
  | 3 => 1
  | q => q

/-- Whether a step through port p of a site crosses a seam (R51). -/
def crossesSeam (site p : Nat) : Bool :=
  match p with
  | 0 => decide (site / 32 = 16)
  | 2 => decide (site / 32 = 15)
  | 1 => decide (site % 32 = 15)
  | 3 => decide (site % 32 = 16)
  | _ => false

/-- The routers of the path from a site to the attach router dst and its port e under detour words `entry`, in order, and its seam
crossings; none where `fuel` steps do not bring it there. -/
def pathBy (entry : Nat → Nat → Word) (dst e : Nat) : Nat → Nat → Nat → Option (List Nat × Nat)
  | 0, _, _ => none
  | fuel + 1, site, inPort =>
    let p := portBy entry site dst e inPort
    if site = dst ∧ p = e then some ([site], 0)
    else match neighbour site p with
      | none => none
      | some t => (pathBy entry dst e fuel t (opposite p)).map (fun r => (site :: r.1, r.2 + b2n (crossesSeam site p)))

/-- Routers that are fused off or withdrawn (R76): fenced, or faulty, which outlives a device reset (R59). -/
def deadRouters (s : State) : List Nat :=
  s.fuses.rtrOff ++ (List.range 1024).filter (fun c => rtrEn s c && (fenced s (fabPage c) || bit (rd s (fabPage c + 0x14)) 16))

/-- Byte d of a site's distance record (R90), as the table was last written (R91): hops and seams of the path by the detour tables of
that time. DESIGN CHOICE (log entry 127): where software's entries lead a packet to no end, within 200 steps, the byte is 63 with no seam,
and more than three seams count as three. -/
def distByte (s : State) (site d : Nat) : Nat :=
  if coreEn s site && !s.mesh.distAway.contains site && decide (d < 36) then
    let a := destAttach d
    match pathBy (fun c n => mGetD s.mesh.distDetours (32 * c + n) 0) a.1 a.2 200 site 4 with
    | some r => min r.2 3 * 64 + min r.1.length 63
    | none => 63
  else 0

/-- The word at offset o of the distance window (R17). -/
def distWord (s : State) (o : Nat) : Word :=
  if o < 0x10000 then
    leWord ((List.range 4).map (fun i => BitVec.ofNat 8 (distByte s (o / 64) (o % 64 + i))))
  else if o = 0x10000 then rd s (fabGPage + 0x140) else 0

/-- A word of the rod table window (R16). -/
def rodWord (s : State) (site w : Nat) : Word :=
  BitVec.ofNat 32 ((mGetD s.rod (2048 * site + w / 4) 0).toNat / 2 ^ (32 * (w % 4)))

/-- The logical core map MGT_L2P (R57). -/
def l2pHalf (s : State) (k : Nat) : Nat := (coreList s).getD k 0xFFFF

/-- Lanes of each host port (R502). -/
def hpLanes (s : State) : Nat := 16 / hpPorts s

/-- Number of device frames (R350) and the first reserved one, by inline mode. -/
def inlineOn (s : State) : Bool := s.straps.inlineDisN
/-- MIG_NFRAMES (R350). -/
def nFrames (s : State) : Nat := if inlineOn s then 22058808 else 23437488
/-- MIG_RSVBASE (R350). -/
def rsvBase (s : State) : Nat := if inlineOn s then 21972648 else 23351328

/-- The registers whose value the fuses, the straps or other registers give: what offset off of block b reads as; none where the
stored word is read. -/
def viewWord (s : State) (b : Block) (p off : Nat) : Option Word :=
  if off = 0 then some (BitVec.ofNat 32 b.ident)
  else if off = 4 then some 0x0100B000
  else if off = 8 then some (match b with
    | .hp _ => BitVec.ofNat 32 (hpLanes s)
    | b => BitVec.ofNat 32 b.cap0)
  else if off = 12 then some (BitVec.ofNat 32 b.cap1)
  else if off = 0x14 then
    some (setBit (rd s (p + 0x14)) 0 (bit (rd s (p + 0x10)) 0 && !bit (rd s (p + 0x10)) 2))
  else if off = 0x28 then some (shown s (p + 0x20))
  else match b with
    | .mgt 1 =>
      if off = 0x100 then some (BitVec.ofNat 32 (s.fuses.grade.toNat * 65536 + nCores s))
      else if off = 0x104 then
        some (BitVec.ofNat 32 (s.fuses.rtrOff.length * 256 + 2 * b2n (s.withdrawn.any (fun c => coreEn s c)) +
          b2n (bit (shown s 0x1104) 0)))
      else if 0x180 ≤ off ∧ off < 0x200 then some (BitVec.ofNat 32 (rowBits ((off - 0x180) / 4) (coreEn s)))
      else if 0x200 ≤ off ∧ off < 0x280 then some (BitVec.ofNat 32 (rowBits ((off - 0x200) / 4) (rtrEn s)))
      else if 0x280 ≤ off ∧ off < 0x300 then some (BitVec.ofNat 32 (rowBits ((off - 0x280) / 4) (coreAvail s)))
      else if 0x800 ≤ off then
        let k := (off - 0x800) / 4
        some (BitVec.ofNat 32 (l2pHalf s (2 * k + 1) * 65536 + l2pHalf s (2 * k)))
      else none
    | .fab c =>
      if off = 0x100 then some (BitVec.ofNat 32 (quadrant c * 65536 + c / 32 * 256 + c % 32))
      else if off = 0x104 then
        some (BitVec.ofNat 32 (ofBits ((List.range 5).filter (fun q => portUp s c q && !rstBusy s p)) +
          32 * ofBits ((List.range 5).filter (ringPort c))))
      else none
    | .sec 0 =>
      if off = 0x108 then some (BitVec.ofNat 32 (s.fuses.svn * 65536 + fld (shown s (p + off)) 6 0))
      else if off = 0x10C then some (BitVec.ofNat 32 (s.fuses.revoked.toNat * 256 + s.fuses.prov.toNat))
      else if off = 0x110 then some (BitVec.ofNat 32 (2 * b2n s.fuses.provLock + b2n s.fuses.debugLock))
      else if 0x120 ≤ off ∧ off < 0x130 then
        some (BitVec.ofNat 32 (s.fuses.dieId.toNat / 2 ^ (8 * (off - 0x120))))
      else if off = 0x130 then some s.fuses.pen
      else none
    | .mig 0 =>
      if off = 0x100 then some (BitVec.ofNat 32 (nFrames s))
      else if off = 0x104 then some (BitVec.ofNat 32 (rsvBase s))
      else none
    | .mp _ => if off = 0x100 then some (setBit (shown s (p + off)) 0 (inlineOn s)) else none
    | .fnPage f => if off = 0x100 then some (setFld (shown s (p + off)) 15 8 f) else none
    | _ => none

/-- What a read of the aligned word at BAR0 offset a returns, access rights aside (R22, R23, R34, R40). -/
def regRead (s : State) (a : Nat) : Word :=
  let p := a / 4096 * 4096
  let b := blockOf s (a / 4096)
  match b with
  | .absent => 0
  | .dist => distWord s (a - distBase)
  | .rod c => rodWord s c ((a - (sitePage c 8)) / 4)
  | b => match viewWord s b p (a % 4096) with
    | some w => w
    | none => match regDef b (a % 4096) with
      | none => 0
      | some _ => shown s a

end Sys2Proof.Machine
end

