-- ==== Sys2Proof/Machine/Update.lean ====
section
/-! DEFINITION. What one effect of a command can be: the primitive updates of the state, and acts, which answer the updates a
command makes from the state they meet. Every meaning of the model is such an act, so the model's invariants need one case
analysis over the primitive updates and none over the commands. -/

namespace Sys2Proof.Machine

/-- A primitive update of the state; none touches the queue of waiting commands. -/
inductive Upd where
  | ctl (k : Nat) (v : Word)
  | store (k : Nat) (v : (BitVec 256))
  | rod (k : Nat) (v : (BitVec 128))
  | storeBad (k : Nat) (v : Bool)
  | rodBad (k : Nat) (v : Bool)
  | vreg (k : Nat) (v : (BitVec 512))
  | acc (k : Nat) (v : Word)
  | core (k : Nat) (v : CoreX)
  | mem (k : Nat) (v : Byte)
  | chk (k : Nat) (v : Byte)
  | farMem (k : Nat) (v : Byte)
  | prog (k : Nat) (v : Word)
  | flash (k : Nat) (v : Byte)
  | bx (k : Nat) (v : BxPort)
  | snap (k : Nat) (v : Snap)
  | bulkPend (k : Nat) (v : Option Word)
  | ringFail (k : Nat) (v : Option Nat)
  | lastTaken (k : Nat) (v : Option Nat)
  | lastGrant (k : Nat) (v : Option Nat)
  | cable (k : Nat) (v : Option Cable)
  | herd (k : Nat) (v : Option Herd)
  | extent (k : Nat) (v : Option Extent)
  | ssetOwner (k : Nat) (v : Option Nat)
  | touched (k : Nat) (v : Option Nat)
  | lastCorr (k : Nat) (v : Option Nat)
  | coalesced (k : Nat) (v : Option Bool)
  | phase (k : Nat) (v : Option Bool)
  | numVfs (k : Nat) (v : Option Nat)
  | bar2Log (k : Nat) (v : Option Nat)
  | busyRing (k : Nat) (v : Option Nat)
  | cycle (v : Nat)
  | power (v : Power)
  | straps (v : Straps)
  | fuses (v : Fuses)
  | withdrawn (v : (List Nat))
  | packets (v : (List Packet))
  | bulkOpen (v : (List (Nat × Nat)))
  | merges (v : (List Merge))
  | progPend (v : (List ProgPend))
  | desc (v : (List UeDesc))
  | evalDue (v : (List (Nat × Nat)))
  | moves (v : (List PageMove))
  | mergeBuf (v : (List MergeEntry))
  | side (v : Sideband)
  | hcmd (v : (List HcmdOut))
  | htag (v : Nat)
  | coll (v : (List Collective))
  | mc (v : (List McGrant))
  | aborts (v : (List (Nat × Nat)))
  | ended (v : (List (Nat × Nat)))
  | fnTurn (v : Nat)
  | hpTurn (v : Nat)
  | hpUsed (v : Nat)
  | completions (v : (List Completion))
  | notices (v : (List Notice))
  | perst (v : (List Nat))
  | spares (v : Spares)
  | dumpRun (v : (Option DumpRun))
  | fwHeader (v : (List Byte))
  | wdtArmed (v : Bool)
  | rstPend (v : Bool)
  | mgmt (v : Mgmt)
  | evQueue (v : (List EvMsg))
  | searches (v : (List (EvRecord × Nat)))
  | capRun (v : Nat)
  | moveTurn (v : Nat)
  | mesh (v : Mesh)
  | freeCtr (v : Nat)
  /-- the control-window words from lo up to hi return to their reset values, but for sticky bits (R26) -/
  | ctlReset (lo hi : Nat)
  /-- every control-window word returns to its reset value, sticky bits too: power-on reset (R25) -/
  | ctlClear
  /-- the keys that p rejects are listed no more -/
  | storeKeep (p : Nat → Bool)
  | rodKeep (p : Nat → Bool)
  | storeBadKeep (p : Nat → Bool)
  | rodBadKeep (p : Nat → Bool)
  | vregKeep (p : Nat → Bool)
  | accKeep (p : Nat → Bool)
  | coreKeep (p : Nat → Bool)
  | memKeep (p : Nat → Bool)
  | chkKeep (p : Nat → Bool)
  | farMemKeep (p : Nat → Bool)
  | progKeep (p : Nat → Bool)
  | bxKeep (p : Nat → Bool)
  | bulkPendKeep (p : Nat → Bool)
  | ringFailKeep (p : Nat → Bool)
  | lastTakenKeep (p : Nat → Bool)
  | herdKeep (p : Nat → Bool)
  | extentKeep (p : Nat → Bool)
  | ssetOwnerKeep (p : Nat → Bool)
  | touchedKeep (p : Nat → Bool)
  | snapKeep (p : Nat → Bool)
  | lastCorrKeep (p : Nat → Bool)
  | coalescedKeep (p : Nat → Bool)
  | phaseKeep (p : Nat → Bool)
  | bar2LogKeep (p : Nat → Bool)
  | busyRingKeep (p : Nat → Bool)
  | numVfsKeep (p : Nat → Bool)
  | lastGrantKeep (p : Nat → Bool)
  /-- something leaves the module -/
  | out (o : Output)

/-- What an update leaves of a control-window word when its page is reset. -/
def resetOne (a : Nat) (w : Word) : Option Word :=
  let v := (w &&& stickyMask a) ||| (resetWord a &&& ~~~stickyMask a)
  if v = resetWord a then none else some v

/-- The effect of a primitive update. -/
def Upd.apply (u : Upd) (s : State) : State :=
  match u with
  | .ctl k v => { s with ctl := mSet s.ctl k v (resetWord k) }
  | .store k v => { s with store := mSet s.store k v 0 }
  | .rod k v => { s with rod := mSet s.rod k v 0 }
  | .storeBad k v => { s with storeBad := mSet s.storeBad k v false }
  | .rodBad k v => { s with rodBad := mSet s.rodBad k v false }
  | .vreg k v => { s with vreg := mSet s.vreg k v 0 }
  | .acc k v => { s with acc := mSet s.acc k v 0 }
  | .core k v => { s with core := mSet s.core k v CoreX.clear }
  | .mem k v => { s with mem := mSet s.mem k v 0 }
  | .chk k v => { s with chk := mSet s.chk k v 0 }
  | .farMem k v => { s with farMem := mSet s.farMem k v 0 }
  | .prog k v => { s with prog := mSet s.prog k v 0 }
  | .flash k v => { s with flash := mSet s.flash k v 0xFF }
  | .bx k v => { s with bx := mSet s.bx k v BxPort.clear }
  | .snap k v => { s with snap := mSet s.snap k v Snap.clear }
  | .bulkPend k v => { s with bulkPend := mPut s.bulkPend k v }
  | .ringFail k v => { s with ringFail := mPut s.ringFail k v }
  | .lastTaken k v => { s with lastTaken := mPut s.lastTaken k v }
  | .lastGrant k v => { s with lastGrant := mPut s.lastGrant k v }
  | .cable k v => { s with cable := mPut s.cable k v }
  | .herd k v => { s with herd := mPut s.herd k v }
  | .extent k v => { s with extent := mPut s.extent k v }
  | .ssetOwner k v => { s with ssetOwner := mPut s.ssetOwner k v }
  | .touched k v => { s with touched := mPut s.touched k v }
  | .lastCorr k v => { s with lastCorr := mPut s.lastCorr k v }
  | .coalesced k v => { s with coalesced := mPut s.coalesced k v }
  | .phase k v => { s with phase := mPut s.phase k v }
  | .numVfs k v => { s with numVfs := mPut s.numVfs k v }
  | .bar2Log k v => { s with bar2Log := mPut s.bar2Log k v }
  | .busyRing k v => { s with busyRing := mPut s.busyRing k v }
  | .cycle v => { s with cycle := v }
  | .power v => { s with power := v }
  | .straps v => { s with straps := v }
  | .fuses v => { s with fuses := v }
  | .withdrawn v => { s with withdrawn := v }
  | .packets v => { s with packets := v }
  | .bulkOpen v => { s with bulkOpen := v }
  | .merges v => { s with merges := v }
  | .progPend v => { s with progPend := v }
  | .desc v => { s with desc := v }
  | .evalDue v => { s with evalDue := v }
  | .moves v => { s with moves := v }
  | .mergeBuf v => { s with mergeBuf := v }
  | .side v => { s with side := v }
  | .hcmd v => { s with hcmd := v }
  | .htag v => { s with htag := v }
  | .coll v => { s with coll := v }
  | .mc v => { s with mc := v }
  | .aborts v => { s with aborts := v }
  | .ended v => { s with ended := v }
  | .fnTurn v => { s with fnTurn := v }
  | .hpTurn v => { s with hpTurn := v }
  | .hpUsed v => { s with hpUsed := v }
  | .completions v => { s with completions := v }
  | .notices v => { s with notices := v }
  | .perst v => { s with perst := v }
  | .spares v => { s with spares := v }
  | .dumpRun v => { s with dumpRun := v }
  | .fwHeader v => { s with fwHeader := v }
  | .wdtArmed v => { s with wdtArmed := v }
  | .rstPend v => { s with rstPend := v }
  | .mgmt v => { s with mgmt := v }
  | .evQueue v => { s with evQueue := v }
  | .searches v => { s with searches := v }
  | .capRun v => { s with capRun := v }
  | .moveTurn v => { s with moveTurn := v }
  | .mesh v => { s with mesh := v }
  | .freeCtr v => { s with freeCtr := v }
  | .ctlReset lo hi =>
    { s with ctl := mMap s.ctl (fun a w => if decide (lo ≤ a) && decide (a < hi) then resetOne a w else some w) }
  | .ctlClear => { s with ctl := [] }
  | .storeKeep p => { s with store := mKeep s.store p }
  | .rodKeep p => { s with rod := mKeep s.rod p }
  | .storeBadKeep p => { s with storeBad := mKeep s.storeBad p }
  | .rodBadKeep p => { s with rodBad := mKeep s.rodBad p }
  | .vregKeep p => { s with vreg := mKeep s.vreg p }
  | .accKeep p => { s with acc := mKeep s.acc p }
  | .coreKeep p => { s with core := mKeep s.core p }
  | .memKeep p => { s with mem := mKeep s.mem p }
  | .chkKeep p => { s with chk := mKeep s.chk p }
  | .farMemKeep p => { s with farMem := mKeep s.farMem p }
  | .progKeep p => { s with prog := mKeep s.prog p }
  | .bxKeep p => { s with bx := mKeep s.bx p }
  | .bulkPendKeep p => { s with bulkPend := mKeep s.bulkPend p }
  | .ringFailKeep p => { s with ringFail := mKeep s.ringFail p }
  | .lastTakenKeep p => { s with lastTaken := mKeep s.lastTaken p }
  | .herdKeep p => { s with herd := mKeep s.herd p }
  | .extentKeep p => { s with extent := mKeep s.extent p }
  | .ssetOwnerKeep p => { s with ssetOwner := mKeep s.ssetOwner p }
  | .touchedKeep p => { s with touched := mKeep s.touched p }
  | .snapKeep p => { s with snap := mKeep s.snap p }
  | .lastCorrKeep p => { s with lastCorr := mKeep s.lastCorr p }
  | .coalescedKeep p => { s with coalesced := mKeep s.coalesced p }
  | .phaseKeep p => { s with phase := mKeep s.phase p }
  | .bar2LogKeep p => { s with bar2Log := mKeep s.bar2Log p }
  | .busyRingKeep p => { s with busyRing := mKeep s.busyRing p }
  | .numVfsKeep p => { s with numVfs := mKeep s.numVfs p }
  | .lastGrantKeep p => { s with lastGrant := mKeep s.lastGrant p }
  | .out o => { s with out := s.out ++ [o] }

/-- The updates of a list, in order. -/
def applyAll : List Upd → State → State
  | [], s => s
  | u :: us, s => applyAll us (u.apply s)

/-- An act: the updates it makes in the state it meets. -/
abbrev Act := State → List Upd

/-- The act that changes nothing. -/
def nop : Act := fun _ => []

/-- The act of one update. -/
def one (u : Upd) : Act := fun _ => [u]

/-- One act, then another, which meets the state the first leaves. -/
def thn (a b : Act) : Act := fun s =>
  let us := a s
  us ++ b (applyAll us s)

/-- Acts in order, each meeting the state the earlier ones leave. -/
def seq : List Act → Act
  | [] => nop
  | a :: as => thn a (seq as)

/-- An act for each element of a list, in order. -/
def each {α : Type} (xs : List α) (f : α → Act) : Act := seq (xs.map f)

/-- An act that happens only where c holds of the state it meets. -/
def act (c : Bool) (a : Act) : Act := if c then a else nop

/-- An act chosen from the state it meets. -/
def look (f : State → Act) : Act := fun s => f s s

/-- The state that an act leaves. -/
def after (a : Act) (s : State) : State := applyAll (a s) s

/-- Whether the module's rails are up: in OFF, RAMP and LATCHED nothing answers on any interface (R578, R579). -/
def powered (s : State) : Bool := decide (s.power.state = .init) || decide (s.power.state = .run)

/-- A command's meaning: the next state its act leaves; an unpowered module does nothing. -/
def run (a : Act) (s : State) : Host.Outcome State Fault Refusal := .next (if powered s then after a s else s)

/-- The meaning of an event on the module's power pins, which acts in every power state. -/
def runPins (a : Act) (s : State) : Host.Outcome State Fault Refusal := .next (after a s)

end Sys2Proof.Machine
end

