-- ==== Sys2Proof/Machine/Flags.lean ====
section
/-! DEFINITION. The header flags of a page: event latches, levels, captures and counter slots (R42 to R49), and the bead and cycle that a capture records. -/

namespace Sys2Proof.Machine

/-- The act that stores a control-window word. -/
def wr (a : Nat) (v : Word) : Act := one (.ctl a v)

/-- The act that stores field [hi:lo] of a control-window word. -/
def wrFld (a hi lo v : Nat) : Act := look fun s => wr a (setFld (rd s a) hi lo v)

/-- The act that stores bit i of a control-window word. -/
def wrBit (a i : Nat) (b : Bool) : Act := look fun s => wr a (setBit (rd s a) i b)

/-- The act that stores both words of a 64-bit register. -/
def wr64 (a : Nat) (v : DWord) : Act := seq [wr a (loWord v), wr (a + 4) (hiWord v)]

/-- The bead counter (R439). -/
def beadNo (s : State) : DWord := rd64 s 0x3100

/-- The cycle within the bead (MGT_BEAD_CYC.cyc). -/
def beadCyc (s : State) : Nat := fld (rd s 0x3108) 23 0

/-- Sets bit i of BLK_IST of the page at p (R43). -/
def setIst (p i : Nat) : Act := wrBit (p + 0x20) i true

/-- Sets or clears the level of bit i of BLK_IRAW; its rising edge latches in BLK_IST (R43). -/
def setLevel (p i : Nat) (b : Bool) : Act := look fun s =>
  seq [act (b && !bit (rd s (p + 0x2C)) i) (setIst p i), wrBit (p + 0x2C) i b]

/-- Event classes by their BLK_IST bit and their BLK_ERRCAP0.class, which agree. -/
inductive Cls where
  | corr
  | uncorrContained
  | uncorrFatal
  | protocol
  | schedule
  | format
  | security
  deriving DecidableEq, Repr

/-- The class code of BLK_ERRCAP0.class, also the BLK_IST bit. -/
def Cls.code : Cls → Nat
  | .corr => 0
  | .uncorrContained => 1
  | .uncorrFatal => 2
  | .protocol => 3
  | .schedule => 4
  | .format => 5
  | .security => 6

/-- What an event's capture holds (R46). `req` is 0–63 a function, 0xFE the ring controller, 0xFF an internal source. A code, an
address or a detail that no chapter states is `none`: a free value (log entry 14). -/
structure Capture where
  cls : Cls
  code : Option Nat := none
  req : Nat := 0xFF
  addr : Option Nat := none
  herd : Option Nat := none
  detail : Option Nat := none
  deriving DecidableEq, Repr

/-- A capture whose code, address, herd and detail a chapter gives; raised by an internal source. -/
def capOf (cls : Cls) (code addr : Nat) (herd : Option Nat) (detail : Nat) : Capture :=
  { cls := cls, code := some code, req := 0xFF, addr := some addr, herd := herd, detail := some detail }

/-- BLK_ERRCAP6. -/
def herdWord (h : Option Nat) : Word :=
  match h with
  | some n => BitVec.ofNat 32 (n % 64 + 64)
  | none => 0

/-- The n-th free value after those already read. -/
def freeAt (s : State) (n : Nat) : Nat := (Config.freeWord (s.freeCtr + n)).toNat

/-- The act that counts n readings of free values. -/
def takeFree (n : Nat) : Act := look fun s => one (.freeCtr (s.freeCtr + n))

/-- R438: an UNCORR_FATAL event starts a full dump with reason 2 when MGT_DUMP_AUTO.on_fatal is 1 and no dump is busy. -/
def autoDump (c : Cls) : Act := look fun s =>
  if decide (c = .uncorrFatal) && bit (rd s 0x4108) 0 && !bit (rd s 0x4100) 30 then
    seq [one (.dumpRun (some ⟨2, 0, false, beadNo s, beadCyc s, none, 0⟩)), wrBit 0x4100 30 true]
  else nop

/-- An event occurs in the page at p: its latch is set, and it is captured while no capture is held, else marked lost (R43, R46). -/
def raise (p : Nat) (c : Capture) : Act := look fun s =>
  let w := rd s (p + 0x40)
  let addr := c.addr.getD (freeAt s 1 + 4294967296 * freeAt s 2)
  seq [setIst p c.cls.code,
    if bit w 31 then wrBit (p + 0x40) 30 true
    else seq [
      wr (p + 0x40) (BitVec.ofNat 32 (0x80000000 + 0x40000000 * b2n (bit w 30) + c.cls.code * 0x1000000 +
        c.req % 256 * 65536 + c.code.getD (freeAt s 0) % 65536)),
      wr (p + 0x44) (BitVec.ofNat 32 addr),
      wr (p + 0x48) (BitVec.ofNat 32 (addr / 4294967296)),
      wr (p + 0x4C) (loWord (beadNo s)),
      wr (p + 0x50) (hiWord (beadNo s)),
      wr (p + 0x54) (BitVec.ofNat 32 (beadCyc s)),
      wr (p + 0x58) (herdWord c.herd),
      wr (p + 0x5C) (BitVec.ofNat 32 (c.detail.getD (freeAt s 3))),
      act (c.code.isNone || c.addr.isNone || c.detail.isNone) (takeFree 4)],
    autoDump c.cls]

/-- Whether counter slot k of the page at p counts errors (BLK_CAP1.ctr_err). -/
def isErrSlot (p k : Nat) : Bool := (pageBlock (p / 4096)).cap1.testBit (8 + k)

/-- Adds n to counter slot k of the page at p: a slot holds while cnt_freeze is 1, and stops at its largest value with ovf, a
performance slot then latching ctr_sat (R48). -/
def count (p k n : Nat) : Act := look fun s =>
  let lo := rd s (p + 0x80 + 8 * k)
  let hi := rd s (p + 0x84 + 8 * k)
  let old := lo.toNat + 4294967296 * (hi.toNat % 65536)
  let top := if isErrSlot p k then 0xFFFF else 0xFFFFFFFFFFFF
  if bit (rd s (p + 0x10)) 4 || bit hi 31 || decide (n = 0) then nop
  else
    let v := min (old + n) top
    seq [wr (p + 0x80 + 8 * k) (BitVec.ofNat 32 v),
      wr (p + 0x84 + 8 * k) (BitVec.ofNat 32 (v / 4294967296 + 0x80000000 * b2n (decide (v = top)))),
      act (decide (v = top) && !isErrSlot p k) (setIst p 7)]

/-- BLK_CTRL.cnt_clr: performance slots return to 0, and error slots too when the ring controller asks (R42). -/
def clearCounters (p : Nat) (errToo : Bool) : Act :=
  each (List.range 8) fun k => act (errToo || !isErrSlot p k)
    (seq [wr (p + 0x80 + 8 * k) 0, wr (p + 0x84 + 8 * k) 0])

/-- A requester's number in a capture. -/
def reqNo : Requester → Nat
  | .fn f => f.val
  | .ringCtl => 0xFE

end Sys2Proof.Machine
end

