-- ==== Sys2Proof/Machine/Ops.lean ====
section
/-! DEFINITION. Named operations over the state: herds and their cores, memories, access rights (R20, R21), and the checks that every write of a control-window register meets first (R21, R28, R35, R37, R40). -/

namespace Sys2Proof.Machine

/-! ## Cores and herds -/

/-- What core `site` holds beyond its registers and arrays. -/
def coreX (s : State) (site : Nat) : CoreX := mGetD s.core site CoreX.clear

/-- The act that changes what core `site` holds. -/
def setCore (site : Nat) (f : CoreX → CoreX) : Act := look fun s => one (.core site (f (coreX s site)))

/-- The herd that holds a core site (CORE_HERD; R519). -/
def herdAt (s : State) (site : Nat) : Option Nat :=
  let w := rd s (corePage site + 0x100)
  if bit w 31 then some (fld w 5 0) else none

/-- A core's position in its herd and the last position (CORE_HERD.hidx, last). -/
def hidxOf (s : State) (site : Nat) : Nat := fld (rd s (corePage site + 0x100)) 25 16
/-- CORE_HERD.last. -/
def lastOf (s : State) (site : Nat) : Nat := fld (rd s (corePage site + 0x100)) 15 6

/-- The resident herd h. -/
def herdOf (s : State) (h : Nat) : Option Herd := mGet s.herd h

/-- The cores of herd h, in order of hidx. -/
def herdSites (s : State) (h : Nat) : List Nat := ((herdOf s h).map (·.sites)).getD []

/-- The act that changes herd h where it is resident. -/
def setHerd (h : Nat) (f : Herd → Herd) : Act := look fun s =>
  match herdOf s h with
  | some x => one (.herd h (some (f x)))
  | none => nop

/-- The function that owns herd h. -/
def ownerOf (s : State) (h : Nat) : Option FnNo := (herdOf s h).bind (·.owner)

/-- The herd that function f owns (R505). -/
def herdOfFn (s : State) (f : FnNo) : Option Nat :=
  (s.herd.find? (fun p => decide (p.2.owner = some f))).map (·.1)

/-- Core position i of herd h. -/
def siteAt (s : State) (h i : Nat) : Option Nat := (herdSites s h)[i]?

/-! ## Arrays -/

/-- Word n of the core store of a site (R94). -/
def stGet (s : State) (site n : Nat) : BitVec 256 := mGetD s.store (49152 * site + n) 0
/-- The act that stores word n of a core store, with check bits computed for it. -/
def stPut (site n : Nat) (v : BitVec 256) : Act := seq [one (.store (49152 * site + n) v), one (.storeBad (49152 * site + n) false)]
/-- Vector register n of a site (R149). -/
def vGet (s : State) (site n : Nat) : BitVec 512 := mGetD s.vreg (64 * site + n) 0
/-- The act that writes vector register n of a site. -/
def vPut (site n : Nat) (v : BitVec 512) : Act := one (.vreg (64 * site + n) v)
/-- Accumulator element e of bank b of a site (R176). -/
def accGet (s : State) (site b e : Nat) : Word := mGetD s.acc (2048 * site + 64 * b + e) 0
/-- The act that stores an accumulator element. -/
def accPut (site b e : Nat) (v : Word) : Act := one (.acc (2048 * site + 64 * b + e) v)
/-- Rod row r of a site (R93). -/
def rodGet (s : State) (site r : Nat) : BitVec 128 := mGetD s.rod (2048 * site + r) 0
/-- The act that stores rod row r of a site, with check bits computed for it. -/
def rodPut (site r : Nat) (v : BitVec 128) : Act := seq [one (.rod (2048 * site + r) v), one (.rodBad (2048 * site + r) false)]
/-- The core store of a site is cleared to zero with valid check bits (R100). -/
def stClear (site : Nat) : Act :=
  seq [one (.storeKeep (fun k => !decide (k / 49152 = site))), one (.storeBadKeep (fun k => !decide (k / 49152 = site)))]
/-- The rod table of a site is cleared (R100). -/
def rodClear (site : Nat) : Act :=
  seq [one (.rodKeep (fun k => !decide (k / 2048 = site))), one (.rodBadKeep (fun k => !decide (k / 2048 = site)))]
/-- What the code finds as a word of a core store is read: what happens to it now, unless its error already cannot be corrected. -/
def stVerdict (s : State) (site n : Nat) (found : Cell) : Cell := if mGetD s.storeBad (49152 * site + n) false then .bad else found
/-- What the code finds as a rod row is read. -/
def rodVerdict (s : State) (site r : Nat) (found : Cell) : Cell := if mGetD s.rodBad (2048 * site + r) false then .bad else found

/-- Element i of a vector of w-bit elements. -/
def elem (w : Nat) {n : Nat} (v : BitVec n) (i : Nat) : Nat := v.toNat / 2 ^ (w * i) % 2 ^ w

/-- A vector from its w-bit elements. -/
def packElems (w n : Nat) (xs : List Nat) : BitVec n :=
  BitVec.ofNat n (xs.foldr (fun x acc => x % 2 ^ w + 2 ^ w * acc) 0)

/-- A vector with element i replaced. -/
def putElem (w : Nat) {n : Nat} (v : BitVec n) (i x : Nat) : BitVec n :=
  BitVec.ofNat n (v.toNat - elem w v i * 2 ^ (w * i) + x % 2 ^ w * 2 ^ (w * i))

/-- Keys of an array of k elements per site that belong to `site`. -/
def ofSite (k site key : Nat) : Bool := decide (key / k = site)

/-! ## Device memory bytes -/

/-- A byte of device memory. -/
def memByte (s : State) (a : Nat) : Byte := mGetD s.mem a 0
/-- n bytes of device memory from address a. -/
def memBytes (s : State) (a n : Nat) : List Byte := (List.range n).map (fun i => memByte s (a + i))
/-- n bytes of device memory as a number, low byte first (R9). -/
def memNat (s : State) (a n : Nat) : Nat := leNat (memBytes s a n)
/-- The act that writes bytes to device memory from address a. -/
def memPut (a : Nat) (bs : List Byte) : Act :=
  each bs.zipIdx fun p => one (.mem (a + p.2) p.1)
/-- The act that moves or copies n bytes of device memory from a to b: what is listed at a appears at b. -/
def memCopy (a b n : Nat) : Act := look fun s =>
  seq [one (.memKeep (fun k => decide (k < b) || decide (b + n ≤ k))),
    each (s.mem.filter (fun p => decide (a ≤ p.1) && decide (p.1 < a + n))) fun p => one (.mem (p.1 - a + b) p.2)]
/-- The act that clears n bytes of device memory from a. -/
def memZero (a n : Nat) : Act := one (.memKeep (fun k => decide (k < a) || decide (a + n ≤ k)))

/-! ## Access rights -/

/-- What a requester may do with a page (R20). -/
inductive Right where
  | all
  | readOnly
  | herdPage
  | none
  deriving DecidableEq, Repr

/-- R20: the right of a requester to the page of block b. An absent page is open to any requester (R34, R35). -/
def rightTo (s : State) (r : Requester) (b : Block) : Right :=
  match r with
  | .ringCtl => .all
  | .fn f => match b with
    | .absent => .all
    | .mgt 1 | .mgt 3 | .dist => .readOnly
    | .fnPage g => if f.val = g then .all else .none
    | b => match b.coreSite with
      | some c => match herdAt s c with
        | some h => if ownerOf s h = some f then .herdPage else .none
        | Option.none => .none
      | Option.none => .none

/-- Whether the requester may read the page (R20). -/
def mayRead (s : State) (r : Requester) (b : Block) : Bool := decide (rightTo s r b ≠ .none)

/-- Whether the requester may write offset off of the page (R20): a function writes neither BLK_CTRL nor BLK_ISET of its H pages. -/
def mayWrite (s : State) (r : Requester) (b : Block) (off : Nat) : Bool :=
  match rightTo s r b with
  | .all => true
  | .herdPage => b.isWindow || !(decide (off = 0x10) || decide (off = 0x28))
  | .readOnly | .none => false

/-- R21: an access refused for want of a right. -/
def refuseAccess (r : Requester) : Act :=
  seq [count (secPage 0) 0 1, raise (secPage 0) { cls := .security, req := reqNo r }]

/-- R35: a write to an absent page. -/
def absentWrite (r : Requester) : Act :=
  seq [count (mgtPage 0) 0 1, raise (mgtPage 0) { cls := .protocol, req := reqNo r }]

/-- Whether a requester makes accesses: the ring controller, or a function that exists on a device in RUN (R502, R504, R592). -/
def reqOk (s : State) (r : Requester) : Bool :=
  match r with
  | .ringCtl => true
  | .fn f => fnExists s f.val && decide (fld (rd s 0x100) 2 0 = 2)

/-- A whole-word write to BAR0 offset a by r meets its checks, and then `eff` happens: R35 for an absent page, R21 for a missing
right, R40 while the page resets, R37 while it is fenced. -/
def guarded (r : Requester) (a : Nat) (eff : Act) : Act := look fun s =>
  let b := blockOf s (a / 4096)
  let p := a / 4096 * 4096
  let off := a % 4096
  if !reqOk s r then nop
  else if b = .absent then absentWrite r
  else if !mayWrite s r b off then refuseAccess r
  else if b.isWindow then eff
  else if rstBusy s p then nop
  else if fenced s p && !(decide (off = 0x10) || decide (off = 0x20)) then nop
  else eff

/-- A PROTOCOL event of a block page for a write it discards or refuses. -/
def protocolAt (p : Nat) (r : Requester) : Act := raise p { cls := .protocol, req := reqNo r }

/-- The write that a register's type codes give (R22, R23): RW fields store, W1C bits clear, W1S bits set; the rest is kept. -/
def maskWrite (b : Block) (a : Nat) (v : Word) : Act := look fun s =>
  match regDef b (a % 4096) with
  | none => nop
  | some d =>
    let old := rd s a
    let rw := BitVec.ofNat 32 d.rw
    let w := (v &&& rw) ||| (old &&& ~~~rw)
    let w := w &&& ~~~(v &&& BitVec.ofNat 32 d.w1c)
    wr a (w ||| (v &&& BitVec.ofNat 32 d.w1s))

/-- The plain write of a register of type codes alone, through its checks. -/
def plainWrite (r : Requester) (a : Nat) (v : Word) : Act := look fun s =>
  guarded r a (maskWrite (blockOf s (a / 4096)) a v)

end Sys2Proof.Machine
end

