-- ==== Sys2Proof/Machine/DeviceMem.lean ====
section
/-! DEFINITION. Device memory at its ports: blocks, remapping (R405 to R408), reads and their correction (R391 to R396), writes and the merge buffer (R397 to R401), the fill (R402), the scrub (R403, R404) and the test commands (R413 to R415). -/

namespace Sys2Proof.Machine

/-! ## Blocks

Block b of device memory is the 64 data bytes at device address 64 × b. Frame f lies on port f mod 24 (R349), so block k of local
frame F of port n is block 1,024 × (24 × F + n) + k. -/

/-- The memory port of device block b. -/
def blkPort (b : Nat) : Nat := b / 1024 % 24
/-- The port-local number of device block b. -/
def blkLocal (b : Nat) : Nat := b / 1024 / 24 * 1024 + b % 1024
/-- The device block of port-local block l of port n. -/
def blkOf (n l : Nat) : Nat := (l / 1024 * 24 + n) * 1024 + l % 1024
/-- Data frames of each port (R350). -/
def portFrames (s : State) : Nat := if inlineOn s then 919117 else 976562
/-- The replacement frame of port p (R405 and the text before it). -/
def replFrame (s : State) (p : Nat) : Nat := rsvBase s + 8240 + (p + 16) % 24
/-- Spare block e of port n: block e of its replacement frame. -/
def spareBlk (s : State) (n e : Nat) : Nat := 1024 * replFrame s n + e
/-- MP_REMAPe of port n. -/
def remapReg (n e : Nat) : Nat := mpPage n + 0x200 + 4 * e
/-- The valid remap entry of port n that names local block l. -/
def remapOf (s : State) (n l : Nat) : Option Nat :=
  if fld (rd s (mpPage n + 0x118)) 14 8 = 0 then none
  else (List.range 64).find? (fun e => bit (rd s (remapReg n e)) 31 && decide (fld (rd s (remapReg n e)) 29 0 = l))
/-- The block that holds device block b: its spare when it is remapped (R405). -/
def heldAt (s : State) (b : Nat) : Nat :=
  match remapOf s (blkPort b) (blkLocal b) with
  | some e => spareBlk s (blkPort b) e
  | none => b
/-- Whether device block b is remapped with poison (R407). -/
def poisoned (s : State) (b : Nat) : Bool :=
  match remapOf s (blkPort b) (blkLocal b) with
  | some e => bit (rd s (remapReg (blkPort b) e)) 30
  | none => false

/-- The stored data of the block held at q. -/
def rawData (s : State) (q : Nat) : List Byte := memBytes s (64 * q) 64
/-- How the stored check symbols of the block held at q differ from those of its stored data. -/
def rawDelta (s : State) (q : Nat) : List Byte := (List.range 4).map (fun j => mGetD s.chk (4 * q + j) 0)
/-- The stored check symbols of the block held at q. -/
def rawCheck (s : State) (q : Nat) : List Byte := xorBytes (rsCheck (rawData s q)) (rawDelta s q)
/-- The act that stores data with check symbols that deviate from its own by delta. -/
def putRaw (q : Nat) (data delta : List Byte) : Act :=
  seq [memPut (64 * q) (data.take 64), each ((delta.take 4).zipIdx) fun p => one (.chk (4 * q + p.2) p.1)]

/-- What a decode of the block held at q finds; with inline check symbols disabled nothing is detected (R416). -/
def verdictAt (s : State) (tcorr q : Nat) : Verdict :=
  if inlineOn s then rsDecode tcorr (rawDelta s q) else .clean
/-- MP_ECC_CTRL.tcorr of port n. -/
def tcorrOf (s : State) (n : Nat) : Nat := fld (rd s (mpPage n + 0x100)) 2 1
/-- What a read of device block b finds in memory, merge buffer aside (R391, R407). -/
def decodeBlk (s : State) (b : Nat) : Option (List Byte) :=
  if poisoned s b then none
  else match verdictAt s (tcorrOf s (blkPort b)) (heldAt s b) with
    | .clean => some (rawData s (heldAt s b))
    | .fixed es => some (fixData (rawData s (heldAt s b)) es)
    | .bad => none
/-- The merge-buffer entry of device block b (R399). -/
def mergeOf (s : State) (b : Nat) : Option MergeEntry :=
  s.mergeBuf.find? (fun m => decide (m.port = blkPort b) && decide (m.lblock = blkLocal b))
/-- Enabled bytes over old ones. -/
def mergeBytes (new : List (Option Byte)) (old : List Byte) : List Byte :=
  List.zipWith (fun n o => n.getD o) new old
/-- The bits of a mask from v, the others from o. -/
def blend (mask v o : Byte) : Byte := (v &&& mask) ||| (o &&& ~~~mask)
/-- A byte of a block with the bits over it that a merge entry holds at its place. -/
def withBits (bits : List (Nat × Byte × Byte)) (i : Nat) (o : Byte) : Byte :=
  match bits.find? (fun p => decide (p.1 = i)) with
  | some p => blend p.2.1 p.2.2 o
  | none => o
/-- What a merge entry holds of a block, over the block's old bytes (R401, R215). -/
def mergeInto (m : MergeEntry) (old : List Byte) : List Byte :=
  (mergeBytes m.bytes old).zipIdx.map (fun p => withBits m.bits p.2 p.1)
/-- What a read of device block b returns: its data with the writes still held in the merge buffer (R395), or none when the block
is uncorrectable (R394, R401). -/
def readBlk (s : State) (b : Nat) : Option (List Byte) :=
  match mergeOf s b with
  | none => decodeBlk s b
  | some m => (decodeBlk s b).map (mergeInto m)

/-! ## Events of a port -/

/-- Sources of an access, BLK_ERRCAP7.source (R417). -/
inductive Src where
  | mesh
  | engine
  | migration
  | ring
  | scrub
  | merge
  | remap
  | test
  deriving DecidableEq, Repr

/-- The source code of BLK_ERRCAP7. -/
def Src.code : Src → Nat
  | .mesh => 0
  | .engine => 1
  | .migration => 2
  | .ring => 3
  | .scrub => 4
  | .merge => 5
  | .remap => 6
  | .test => 7

/-- The source a command's number names. -/
def srcOf (n : Nat) : Src :=
  match n with
  | 0 => .mesh
  | 1 => .engine
  | 2 => .migration
  | 3 => .ring
  | 4 => .scrub
  | 5 => .merge
  | 6 => .remap
  | _ => .test

/-- BLK_ERRCAP7 of an MP_ page: channel, symbols corrected, uncorrectable, source (R417). The channel of a block is its chunk mod 8
(R388). -/
def mpDetail (b nsym : Nat) (uncorr : Bool) (src : Src) : Nat :=
  b % 1024 / 16 % 8 + 8 * nsym + 32 * b2n uncorr + 64 * src.code

/-- The class of an uncorrectable error in the block at device block b (R394): fatal in the home-table and group-table frames. -/
def uncorrClass (s : State) (b : Nat) : Cls :=
  if decide (rsvBase s ≤ b / 1024) && decide (b / 1024 < rsvBase s + 8224) then .uncorrFatal else .uncorrContained

/-- A corrected read of block b (R392). -/
def corrEvent (b nsym : Nat) (src : Src) (herd : Option Nat) : Act :=
  seq [count (mpPage (blkPort b)) 4 1,
    raise (mpPage (blkPort b)) (capOf .corr 1 (64 * b) herd (mpDetail b nsym false src))]

/-- An uncorrectable read of block b (R394), or the merge that met one (R401). -/
def uncorrEvent (b code : Nat) (src : Src) (herd : Option Nat) : Act := look fun s =>
  seq [count (mpPage (blkPort b)) 5 1,
    raise (mpPage (blkPort b)) (capOf (uncorrClass s b) code (64 * b) herd (mpDetail b 0 true src))]

/-! ## Remapping -/

/-- The entry of a port's merge buffer leaves it. -/
def dropMerge (m : MergeEntry) : Act := look fun s =>
  seq [one (.mergeBuf (s.mergeBuf.filter (fun x => decide (x ≠ m)))),
    wrFld (mpPage m.port + 0x110) 21 16 ((s.mergeBuf.filter (fun x => decide (x.port = m.port) && decide (x ≠ m))).length)]

/-- A whole block is written: the data burst with fresh check symbols (R398); poison clears (R407). -/
def storeBlk (b : Nat) (data : List Byte) : Act := look fun s =>
  seq [putRaw (heldAt s b) data [0, 0, 0, 0],
    (match remapOf s (blkPort b) (blkLocal b) with
      | some e => wrBit (remapReg (blkPort b) e) 30 false
      | none => nop),
    count (mpPage (blkPort b)) 1 1]

/-- The retirement of a merge entry by read-modify-write (R400, R401). -/
def retireMerge (m : MergeEntry) : Act := look fun s =>
  let b := blkOf m.port m.lblock
  let p := mpPage m.port
  seq [dropMerge m, count p 2 1, count p 0 1,
    match decodeBlk s b with
    | some old => seq [
        (match verdictAt s (tcorrOf s m.port) (heldAt s b) with
          | .fixed es => corrEvent b es.length .merge (some m.herd)
          | _ => nop),
        storeBlk b (mergeInto m old)]
    | none => seq [uncorrEvent b 4 .merge (some m.herd), count p 7 1]]

/-- A read of block b arrives: an entry of the merge buffer for the block retires first (R400). -/
def retireFor (b : Nat) : Act := look fun s =>
  match mergeOf s b with
  | some m => retireMerge m
  | none => nop

/-- A whole-block write of block b arrives: an entry for the block is dropped (R400). -/
def dropFor (b : Nat) : Act := look fun s =>
  match mergeOf s b with
  | some m => dropMerge m
  | none => nop

/-- A remap of local block l of port n into entry e (R405): the block as it reads goes into the spare with fresh check symbols,
poisoned when it is uncorrectable; slot 6 counts. With inline check symbols disabled the data moves as it lies (R416). -/
def remapInto (n e l : Nat) (poison : Bool) : Act := seq [retireFor (blkOf n l), look fun s =>
  let b := blkOf n l
  let bad := verdictAt s (tcorrOf s n) b = .bad
  let data := match verdictAt s (tcorrOf s n) b with
    | .fixed es => fixData (rawData s b) es
    | _ => rawData s b
  seq [
    (match verdictAt s (tcorrOf s n) b with
      | .fixed es => corrEvent b es.length .remap none
      | .bad => uncorrEvent b 2 .remap none
      | .clean => nop),
    putRaw (spareBlk s n e) data [0, 0, 0, 0],
    wr (remapReg n e) (BitVec.ofNat 32 (0x80000000 + 0x40000000 * b2n (poison || bad) + l)),
    wrFld (mpPage n + 0x118) 14 8 (fld (rd s (mpPage n + 0x118)) 14 8 + 1),
    count (mpPage n) 0 1, count (mpPage n) 1 1, count (mpPage n) 6 1]]

/-- The lowest remap entry of port n that is not valid. -/
def freeRemap (s : State) (n : Nat) : Option Nat :=
  (List.range 64).find? (fun e => !bit (rd s (remapReg n e)) 31)

/-- A hard fault in device block b (R393, R408). DEDUCED (log entry 15): the captures that R417 names with codes 3 and 5 have class
CORR, since the data the port returned was corrected; a block that R406 lets no entry name, being remapped already or in the replacement
frame, is not remapped. -/
def hardFault (b : Nat) (src : Src) (herd : Option Nat) : Act := look fun s =>
  let p := mpPage (blkPort b)
  let cap (code : Nat) : Act := raise p (capOf .corr code (64 * b) herd (mpDetail b 0 false src))
  let free := (remapOf s (blkPort b) (blkLocal b)).isNone && decide (b / 1024 ≠ replFrame s (blkPort b))
  seq [setIst p 8, cap 3,
    if bit (rd s (p + 0x118)) 0 && free then
      match freeRemap s (blkPort b) with
      | some e => remapInto (blkPort b) e (blkLocal b) false
      | none => seq [setIst p 9, cap 5]
    else nop]

/-! ## Reads -/

/-- A physical error pattern shows in the block held at q: symbol p below 64 changes a data byte, 64 to 67 a check symbol. -/
def showErrors (q : Nat) (errs : List (Nat × Byte)) : Act :=
  each errs fun e => look fun s =>
    if e.1 < 64 then
      let old := rawCheck s q
      let data := (rawData s q).set e.1 ((rawData s q).getD e.1 0 ^^^ e.2)
      putRaw q data (xorBytes old (rsCheck data))
    else if e.1 < 68 then one (.chk (4 * q + (e.1 - 64)) ((rawDelta s q).getD (e.1 - 64) 0 ^^^ e.2))
    else nop

/-- The errors of a noise list that show at the first read (symbol number below 128 or not), and those of cells that do not hold
what is written to them (symbol number plus 128), which show again at a verifying read (log entry 16). -/
def firstErrors (noise : List (Nat × Byte)) : List (Nat × Byte) := noise.map (fun e => (e.1 % 128, e.2))
/-- The errors that show again. -/
def stuckErrors (noise : List (Nat × Byte)) : List (Nat × Byte) :=
  (noise.filter (fun e => decide (128 ≤ e.1))).map (fun e => (e.1 - 128, e.2))

/-- The decode, correction and reports of one read of device block b (R391 to R394), `wb` and `verify` as MP_ECC_CTRL or the scrub
gives them. -/
def readDecode (b : Nat) (src : Src) (herd : Option Nat) (wb verify : Bool) (noise : List (Nat × Byte)) : Act := look fun s =>
  let q := heldAt s b
  if poisoned s b then uncorrEvent b 2 src herd
  else match verdictAt s (tcorrOf s (blkPort b)) q with
    | .clean => nop
    | .bad => uncorrEvent b 2 src herd
    | .fixed es => seq [corrEvent b es.length src herd,
        act wb (seq [putRaw q (fixData (rawData s q) es) [0, 0, 0, 0], count (mpPage (blkPort b)) 1 1, showErrors q (stuckErrors noise)]),
        act (wb && verify) (seq [count (mpPage (blkPort b)) 0 1, look fun s =>
          if verdictAt s (tcorrOf s (blkPort b)) q = .clean then nop else hardFault b src herd])]

/-- A read of device block b (R391 to R395): a merge entry of the block retires by its own read, or the block is read and decoded. -/
def readBy (b : Nat) (src : Src) (herd : Option Nat) (wb verify : Bool) (noise : List (Nat × Byte)) : Act := look fun s =>
  match mergeOf s b with
  | some m => retireMerge m
  | none => seq [count (mpPage (blkPort b)) 0 1, readDecode b src herd wb verify noise]

/-- The errors of a noise list show as device block b is read. -/
def showNoise (b : Nat) (noise : List (Nat × Byte)) : Act := look fun s => showErrors (heldAt s b) (firstErrors noise)

/-- A read of device block b at its port, with the port's own write-back and verification (R392). -/
def portRead (b : Nat) (src : Src) (herd : Option Nat) (noise : List (Nat × Byte)) : Act := look fun s =>
  let e := rd s (mpPage (blkPort b) + 0x100)
  readBy b src herd (bit e 3) (bit e 4) noise

/-- A whole-block write at its port: it supersedes a merge entry (R398, R400). -/
def portWrite (b : Nat) (data : List Byte) : Act := seq [dropFor b, storeBlk b data]

/-- A byte written in part joins a merge entry (R215): one already enabled stays so, and any other is not enabled by it. -/
def joinBits (m : MergeEntry) (p : Nat × Byte × Byte) : MergeEntry :=
  match m.bytes.getD p.1 none with
  | some o => { m with bytes := m.bytes.set p.1 (some (blend p.2.1 p.2.2 o)) }
  | none => match m.bits.find? (fun q => decide (q.1 = p.1)) with
    | some q => { m with bits := (p.1, p.2.1 ||| q.2.1, blend p.2.1 p.2.2 q.2.2) :: m.bits.filter (fun r => decide (r.1 ≠ p.1)) }
    | none => { m with bits := p :: m.bits }

/-- A narrow write at its port (R399, R400), of whole bytes and, of a tile row, of one byte in part: it merges into the block's entry, or
takes a free one, the oldest entry of a full buffer retiring first; an entry with all its bytes is written whole. -/
def portMerge (b herd : Nat) (data : List (Option Byte)) (part : Option (Nat × Byte × Byte)) : Act := look fun s =>
  let join (m : MergeEntry) : MergeEntry := part.elim m (joinBits m)
  match mergeOf s b with
  | some m =>
    let m2 : MergeEntry := join { m with bytes := List.zipWith (fun n o => n.orElse (fun _ => o)) data m.bytes, herd := herd,
                                         bits := m.bits.filter (fun p => (data.getD p.1 none).isNone) }
    if m2.bytes.all Option.isSome then seq [dropMerge m, storeBlk b (m2.bytes.map (·.getD 0))]
    else one (.mergeBuf (s.mergeBuf.map (fun x => if x = m then m2 else x)))
  | none =>
    let mine := s.mergeBuf.filter (fun x => decide (x.port = blkPort b))
    if data.all Option.isSome then storeBlk b (data.map (·.getD 0))
    else seq [(if 32 ≤ mine.length then (mine.head?.map retireMerge).getD nop else nop),
      look fun s => one (.mergeBuf (s.mergeBuf ++
        [join { port := blkPort b, lblock := blkLocal b, bytes := data, herd := herd, bits := [] }])),
      wrFld (mpPage (blkPort b) + 0x110) 21 16 (min (mine.length + 1) 32)]

/-- A narrow write of whole bytes at its port. -/
def portNarrow (b herd : Nat) (data : List (Option Byte)) : Act := portMerge b herd data none

/-- The parts of a run of n bytes at device address a, block by block: block, first byte in it, number of bytes, offset in the run. -/
def blockParts (a n : Nat) : List (Nat × Nat × Nat × Nat) :=
  if n = 0 then [] else
  (List.range ((a + n - 1) / 64 + 1 - a / 64)).map fun i =>
    let b := a / 64 + i
    let lo := max a (64 * b)
    let hi := min (a + n) (64 * b + 64)
    (b, lo - 64 * b, hi - lo, lo - a)

/-- Bytes written at device address a by herd `herd`: whole blocks whole, the rest narrow (R398, R399). -/
def devWrite (a : Nat) (bs : List Byte) (herd : Nat) : Act :=
  each (blockParts a bs.length) fun p =>
    let part := (bs.drop p.2.2.2).take p.2.2.1
    if p.2.2.1 = 64 then portWrite p.1 part
    else portNarrow p.1 herd ((List.replicate p.2.1 none) ++ part.map some ++ List.replicate (64 - p.2.1 - p.2.2.1) none)

/-- Bytes read at device address a: none when a block of the run is uncorrectable. -/
def devRead (s : State) (a n : Nat) : Option (List Byte) :=
  (blockParts a n).foldl (fun acc p => acc.bind fun bs =>
    (readBlk s p.1).map (fun d => bs ++ (d.drop p.2.1).take p.2.2.1)) (some [])

/-- The effects of that read at the ports. -/
def devReadActs (a n : Nat) (src : Src) (herd : Option Nat) : Act :=
  each (blockParts a n) fun p => portRead p.1 src herd []

/-- Byte i of device block b as a read returns it: corrected, with the writes held in the merge buffer; none when the block is
uncorrectable. -/
def readByte (s : State) (b i : Nat) : Option Byte :=
  if poisoned s b then none
  else
    let old := memByte s (64 * heldAt s b + i)
    let held (o : Byte) : Byte := (mergeOf s b).elim o (fun m => (m.bytes.getD i none).getD (withBits m.bits i o))
    match verdictAt s (tcorrOf s (blkPort b)) (heldAt s b) with
    | .bad => none
    | .clean => some (held old)
    | .fixed es => some (held (old ^^^ ((es.find? (fun e => decide (e.1 = i))).map (·.2)).getD 0))

/-- A byte of a hardware table in device memory. DESIGN CHOICE (log entry 17): a byte of a block that no read can correct counts as 0, so
that a home-table entry in it names no page. -/
def tableByte (s : State) (a : Nat) : Byte := (readByte s (a / 64) (a % 64)).getD 0
/-- n table bytes as a number, low byte first. -/
def tableNat (s : State) (a n : Nat) : Nat := leNat ((List.range n).map (fun i => tableByte s (a + i)))

/-- The act that writes n table bytes that lie in one block: the read-modify-write of a narrow write, which retires at once (log entry 17),
with its counts (R401, R417); a block that cannot be corrected is left as it was. -/
def tablePut (a n v : Nat) : Act := seq [retireFor (a / 64), look fun s =>
  let b := a / 64
  let q := heldAt s b
  let bytes : Act := each ((leBytes n v).zipIdx) fun p => one (.mem (64 * q + a % 64 + p.2) p.1)
  let p := mpPage (blkPort b)
  let lost : Act := seq [uncorrEvent b 4 .merge none, count p 7 1]
  seq [count p 2 1, count p 0 1,
    if poisoned s b then lost
    else match verdictAt s (tcorrOf s (blkPort b)) q with
      | .clean => seq [bytes, count p 1 1]
      | .fixed es => seq [corrEvent b es.length .merge none, putRaw q (fixData (rawData s q) es) [0, 0, 0, 0], bytes, count p 1 1]
      | .bad => lost]]

/-- A hardware table is read at device address a by an access of a herd (R392 to R394). DESIGN CHOICE (log entry 17): only the read of a
block in error shows, since a translation may be held in the home lookaside. -/
def tableRead (a : Nat) (herd : Option Nat) : Act := look fun s =>
  let e := rd s (mpPage (blkPort (a / 64)) + 0x100)
  readDecode (a / 64) .mesh herd (bit e 3) (bit e 4) []

/-- The remap entries of a frame's port that serve a block of the frame. -/
def frameRemaps (s : State) (f : Nat) : List Nat :=
  (List.range 64).filter fun e =>
    bit (rd s (remapReg (f % 24) e)) 31 && decide (fld (rd s (remapReg (f % 24) e)) 29 0 / 1024 = f / 24)

/-- A whole frame is zeroed with valid check symbols (R362 step 6), the spares that serve blocks of it included (R405, R407): 1,024 block
writes at its port (R417). -/
def zeroFrame (f : Nat) : Act :=
  seq [count (mpPage (f % 24)) 1 1024, memZero (65536 * f) 65536, one (.chkKeep (fun k => decide (k / 4096 ≠ f))),
    look fun s =>
      let kept := s.mergeBuf.filter (fun m => decide (blkOf m.port m.lblock / 1024 ≠ f))
      seq [one (.mergeBuf kept), wrFld (mpPage (f % 24) + 0x110) 21 16 (kept.filter (fun m => decide (m.port = f % 24))).length],
    look fun s => each (frameRemaps s f) fun e =>
      seq [memZero (64 * spareBlk s (f % 24) e) 64, one (.chkKeep (fun k => decide (k / 4 ≠ spareBlk s (f % 24) e))),
        wrBit (remapReg (f % 24) e) 30 false]]

/-! ## Fill, scrub, remap writes, test commands -/

/-- MIG_FREE. -/
def freeFrames (s : State) : Nat := (rd s (migPage 0 + 0x108)).toNat

/-- The level of BLK_IST.blk bit 8 of MIG_ 0 follows MIG_FREE and the low watermark (R43). -/
def freeLevel : Act := look fun s =>
  setLevel (migPage 0) 8 (decide (freeFrames s < 16 * fld (rd s (migPage 0 + 0x10C)) 15 0))

/-- Every usable frame is free: MIG_FREE, and the level that depends on it. -/
def allFree : Act := look fun s => seq [wr (migPage 0 + 0x108) (BitVec.ofNat 32 (rsvBase s)), freeLevel]

/-- MP_STAT.fill_done of port n (R402). -/
def portZeroed (s : State) (n : Nat) : Bool := bit (rd s (mpPage n + 0x10C)) 0
/-- Every port has zeroed its memory (R402). -/
def allFilled (s : State) : Bool := (List.range 24).all (portZeroed s)
/-- Whether a port takes requests: its fill is done (R402), and its page is not fenced (R41). -/
def portFilled (s : State) (n : Nat) : Bool := portZeroed s n && !fenced s (mpPage n)

/-- FILL_DONE (R402): a port whose channels have all trained has zeroed its memory; the last port sets MIG_FREE to the usable frames. -/
def actFillDone (n : Nat) : Act := look fun s =>
  let st := mpPage n + 0x10C
  if fld (rd s st) 15 8 = 0xFF ∧ fld (rd s st) 1 0 = 2 then
    seq [one (.memKeep (fun k => decide (k / 65536 % 24 ≠ n))), one (.chkKeep (fun k => decide (k / 4096 % 24 ≠ n))),
      wrFld st 1 0 1, setIst (mpPage n) 10,
      look fun s => act (allFilled s) allFree]
  else nop

/-- Check groups of a channel that R350 uses. -/
def scrubGroups (s : State) : Nat := if inlineOn s then 7352936 else 7812496

/-- PATROL_SCRUB (R403, R404): each channel of the port reads its group at the scrub position, a remapped block from its replacement (R405);
noise key (16 × channel + block) × 256 + symbol. -/
def actPatrolScrub (n : Nat) (noise : List (Nat × Byte)) : Act := look fun s =>
  let sc := rd s (mpPage n + 0x104)
  if bit sc 0 && inlineOn s then
    let pos := fld (rd s (mpPage n + 0x108)) 22 0
    let frame := (pos / 8) * 24 + n
    seq [
      each (List.range 128) fun i =>
        let b := 1024 * frame + (pos % 8 * 8 + i / 16) * 16 + i % 16
        let mine := (noise.filter (fun e => decide (e.1 / 256 = i))).map (fun e => (e.1 % 256, e.2))
        seq [showNoise b mine, readBy b .scrub none true true mine],
      count (mpPage n) 3 8,
      if pos + 1 < scrubGroups s then wrFld (mpPage n + 0x108) 22 0 (pos + 1)
      else seq [wrFld (mpPage n + 0x108) 22 0 0, wrBit (mpPage n + 0x108) 31 true]]
  else nop

/-- MERGE_HOLD_EXPIRE (R400): the oldest entry of the port retires by read-modify-write. -/
def actMergeHoldExpire (n : Nat) : Act := look fun s =>
  ((s.mergeBuf.find? (fun m => decide (m.port = n))).map retireMerge).getD nop

/-- Whether a write of v to MP_REMAPe is discarded (R406). -/
def remapRefused (s : State) (n e : Nat) (v : Word) : Bool :=
  let l := fld v 29 0
  bit (rd s (remapReg n e)) 31 || decide (1024 * portFrames s ≤ l) ||
    decide (blkOf n l / 1024 = replFrame s n) || (remapOf s n l).isSome

/-- A write of MP_REMAPe (R405, R406). -/
def remapWrite (r : Requester) (n e : Nat) (v : Word) : Act := look fun s =>
  if remapRefused s n e v then protocolAt (mpPage n) r
  else if bit v 31 then remapInto n e (fld v 29 0) (bit v 30)
  else wr (remapReg n e) v

/-- MP_TEST_STAT from a verdict. -/
def testStat (v : Verdict) : Nat :=
  match v with
  | .clean => 0
  | .bad => 2
  | .fixed es => 1 + 16 * es.length + 256 * ((es.map (·.1)).getD 0 0) + 65536 * ((es.map (·.1)).getD 1 0)

/-- MP_TEST_EVAL from a verdict. -/
def testEval (v : Verdict) : Nat :=
  match v with
  | .fixed es => ((es.map (fun e => e.2.toNat)).getD 0 0) + 256 * ((es.map (fun e => e.2.toNat)).getD 1 0)
  | _ => 0

/-- The data bytes that MP_TEST_DATA0–15 hold. -/
def testData (s : State) (n : Nat) : List Byte :=
  (List.range 64).map (fun k => BitVec.ofNat 8 (fld (rd s (mpPage n + 0x140 + k / 4 * 4)) (8 * (k % 4) + 7) (8 * (k % 4))))
/-- The check symbols that MP_TEST_CHK holds. -/
def testChk (s : State) (n : Nat) : List Byte :=
  (List.range 4).map (fun j => BitVec.ofNat 8 (fld (rd s (mpPage n + 0x180)) (8 * j + 7) (8 * j)))
/-- The act that puts bytes into MP_TEST_DATA0–15. -/
def putTestData (n : Nat) (bs : List Byte) : Act :=
  each ((leWords 16 bs).zipIdx) fun p => wr (mpPage n + 0x140 + 4 * p.2) p.1

/-- Whether a test command is rejected (R414). DEDUCED (log entry 18): a block beyond the port's frames, which does not exist, is
rejected too. -/
def testRejected (s : State) (n cmd : Nat) : Bool :=
  let c := rd s (mpPage n + 0x120)
  let l := fld (rd s (mpPage n + 0x124)) 29 0
  let b := blkOf n l
  let inArea := decide (b / 1024 = replFrame s n) && decide (64 ≤ b % 1024)
  (!bit c 4 && !inArea) || (bit c 4 && !s.herd.isEmpty) || decide (cmd = 0) || decide (cmd = 7) ||
    decide (portFrames s ≤ l / 1024) || (!inlineOn s && (decide (cmd = 3) || decide (cmd = 4) || decide (cmd = 6)))

/-- What the decode of a test read finds in device block b under the test's own mode (R407, R413). -/
def testVerdict (s : State) (n b : Nat) : Verdict :=
  if poisoned s b then .bad
  else if inlineOn s then rsDecode (fld (rd s (mpPage n + 0x120)) 3 2) (rawDelta s (heldAt s b)) else .clean

/-- The data that a test read returns decoded. -/
def testRead (s : State) (n b : Nat) : Option (List Byte) :=
  match testVerdict s n b with
  | .clean => some (rawData s (heldAt s b))
  | .fixed es => some (fixData (rawData s (heldAt s b)) es)
  | .bad => none

/-- What a test command does to its block (R413): a read of it and a write of a part meet its merge entry first, which a whole-block write
supersedes (R395, R400); whole-block writes clear poison (R407). -/
def testAct (n cmd b : Nat) : Act := look fun s =>
  let p := mpPage n
  let q := heldAt s b
  match cmd with
  | 1 => seq [dropFor b, storeBlk b (testData s n)]
  | 2 => seq [retireFor b, look fun s => putRaw q (testData s n) (xorBytes (rsCheck (testData s n)) (rawCheck s q)), count p 1 1]
  | 3 => seq [retireFor b, look fun s => putRaw q (rawData s q) (xorBytes (rsCheck (rawData s q)) (testChk s n))]
  | 4 => seq [dropFor b, storeBlk b (testData s n), putRaw q (testData s n) (xorBytes (rsCheck (testData s n)) (testChk s n))]
  | 5 => seq [retireFor b, count p 0 1, look fun s => seq [putTestData n (rawData s q), wr (p + 0x180) (leWord (rawCheck s q))]]
  | _ => seq [retireFor b, count p 0 1, look fun s =>
      let v := testVerdict s n b
      seq [one (.out (.block n (blkLocal b) (testRead s n b))),
        wr (p + 0x12C) (BitVec.ofNat 32 (testStat v)), wr (p + 0x130) (BitVec.ofNat 32 (testEval v)),
        act (bit (rd s (p + 0x120)) 1) (match v with
          | .fixed es => corrEvent b es.length .test none
          | .bad => uncorrEvent b 2 .test none
          | .clean => nop)]]

/-- A write of MP_TEST_CMD.cmd (R413 to R415). DEDUCED (log entry 18): MP_TEST_STAT and MP_TEST_EVAL speak of the last command accepted,
and a cmd 6 returns the decoded data to who asked and leaves MP_TEST_DATA as it was, as the manual's worked example on port 5 goes on from
the data it wrote. A command that comes before the fill waits (R402): it is not taken until it is written again. -/
def testCommand (r : Requester) (n cmd : Nat) : Act := look fun s =>
  let p := mpPage n
  let c := rd s (p + 0x120)
  if !bit c 0 || !portZeroed s n then nop
  else if testRejected s n cmd then
    seq [wr (p + 0x12C) 3, protocolAt p r]
  else seq [wr (p + 0x12C) 0, wr (p + 0x130) 0, testAct n cmd (blkOf n (fld (rd s (p + 0x124)) 29 0)), setIst p 11]

/-- MP_READ: a read of port-local block l by a source, which gets the block corrected, or marked uncorrectable (R392, R394). A request that
arrives before the fill, or while the page is fenced, waits (R41, R402). -/
def actMpRead (n l : Nat) (src : Nat) (herd : Option Nat) (noise : List (Nat × Byte)) : Act := look fun s =>
  let b := blkOf n l
  act (portFilled s n) (seq [showNoise b noise, look fun s =>
    seq [one (.out (.block n l (readBlk s b))), portRead b (srcOf src) herd noise]])

/-- MP_WRITE: a whole-block write; data beyond 64 bytes is no part of the block. -/
def actMpWrite (n l : Nat) (data : List Byte) : Act := look fun s =>
  act (decide (data.length = 64) && portFilled s n) (portWrite (blkOf n l) data)

/-- NARROW_WRITE. -/
def actNarrowWrite (n l herd : Nat) (data : List (Option Byte)) : Act := look fun s =>
  act (decide (data.length = 64) && portFilled s n) (portNarrow (blkOf n l) herd data)

end Sys2Proof.Machine
end

