-- ==== Sys2Proof/Machine/Rings.lean ====
section
/-! DEFINITION. Command rings, completions, notices and signals toward the host (R503, R508 to R513, R526), the states of a herd (R524), and what stops a core (R136). -/

namespace Sys2Proof.Machine

/-! ## Rings of a function page -/

/-- The base of command ring k's registers in function f's page. -/
def crBase (f k : Nat) : Nat := fnPageOf f + 0x200 + 0x20 * k
/-- 2^lsize of a CTRL word, lsize clamped to 4–12. -/
def ringSize (w : Word) : Nat := 2 ^ max 4 (min 12 (fld w 19 16))
/-- The entries of command ring k of function f. -/
def crSize (s : State) (f k : Nat) : Nat := ringSize (rd s (crBase f k + 8))
/-- Submission head and tail. -/
def crHead (s : State) (f k : Nat) : Nat := fld (rd s (crBase f k + 0x14)) 15 0
/-- Submission tail. -/
def crTail (s : State) (f k : Nat) : Nat := fld (rd s (crBase f k + 0x14)) 31 16
/-- (a − b) mod 65,536. -/
def diff16 (a b : Nat) : Nat := (a + 65536 - b % 65536) % 65536

/-- MGT_DEV_STAT.state (R594). -/
def devState (s : State) : Nat := fld (rd s 0x100) 2 0
/-- Whether the device is in RUN. -/
def inRun (s : State) : Bool := decide (devState s = 2)

/-- Whether command ring k of function f holds a command that can be fetched (R509, R510); a fenced function's page takes no new work (R41). -/
def ringWork (s : State) (f k : Nat) : Bool :=
  fnExists s f && inRun s && !fenced s (fnPageOf f) && bit (rd s (crBase f k + 8)) 31 && decide (crHead s f k ≠ crTail s f k) &&
    (mGet s.busyRing (16 * f + k)).isNone

/-- A command that changes herd h runs (R516). -/
def herdBusy (s : State) (h : Nat) : Bool :=
  let x := mGetD s.snap h Snap.clear
  (herdOf s h).any (fun y => y.parking.isSome || y.eval.isSome || y.mig.isSome) || x.restore.isSome || x.fetch.isSome ||
    s.hcmd.any (fun o => decide (o.herd = h))

/-- Whether function f has a command that the ring controller can serve: one that waits for its herd (R516) does not keep its turn. -/
def fnWork (s : State) (f : Nat) : Bool :=
  fnExists s f && !(herdOfFn s ⟨f % 64, Nat.mod_lt _ (by decide)⟩).any (herdBusy s) && (List.range 16).any (ringWork s f)

/-- How far x comes after `last` in a rotation of n. -/
def turnsAfter (n last x : Nat) : Nat := (x + 2 * n - last % n - 1) % n

/-- Whether it is function f's turn (R510): none that comes before it in the rotation has a command to serve. -/
def fnTurnNow (s : State) (f : Nat) : Bool :=
  (List.range (turnsAfter 64 s.fnTurn f)).all fun d => !fnWork s ((s.fnTurn + 1 + d) % 64)

/-- Whether the ring controller can fetch the next command of ring `ring` of function `fn` (R509, R510). -/
def ringReady (s : State) (c : CmdId) : Bool := ringWork s c.fn.val c.ring.val && fnTurnNow s c.fn.val

/-- A command ends: its completion is owed (R511). -/
def complete (c : CmdId) (status : Nat) (result : DWord) : Act := look fun s =>
  one (.completions (s.completions ++
    [{ fn := c.fn, ring := c.ring, tag := c.tag, status := BitVec.ofNat 8 status, result := result }]))

/-- The host address of the submission entry that a ring fetches next (R508). -/
def sqAddr (s : State) (f k : Nat) : Nat := (rd64 s (crBase f k)).toNat + 64 * (crHead s f k % crSize s f k)

/-- A command is fetched from its ring, read with the function's identity (R508), and runs: the head advances, and the ring is busy until the
completion is written (R510). An entry with a reserved opcode or a nonzero reserved field ends with status 2 (R515). -/
def hostCmd (c : CmdId) (body : Act) : Act := look fun s =>
  let f := c.fn.val
  let k := c.ring.val
  if ringReady s c then
    seq [one (.out (.hostRead c.fn (sqAddr s f k) 64)), wrFld (crBase f k + 0x14) 15 0 (crHead s f k + 1), one (.fnTurn f),
      one (.busyRing (16 * f + k) (some 1)), if c.reserved then complete c 2 0 else body]
  else nop

/-! ## Turns of the host ports (R503) -/

/-- Whether the completion ring of command ring k of function f has no space (R511). -/
def crFull (s : State) (f k : Nat) : Bool :=
  decide (diff16 (fld (rd s (crBase f k + 0x1C)) 15 0) (fld (rd s (crBase f k + 0x18)) 15 0) = crSize s f k)

/-- Whether the notice ring of function f is full. -/
def noticeFull (s : State) (f : Nat) : Bool :=
  let p := fnPageOf f
  decide (ringSize (rd s (p + 0x118)) ≤ diff16 (fld (rd s (p + 0x120)) 15 0) (fld (rd s (p + 0x11C)) 15 0))

/-- Whether a notice of function f can be written: its ring is enabled and has space. -/
def noticeMay (s : State) (f : Nat) : Bool := bit (rd s (fnPageOf f + 0x118)) 31 && !noticeFull s f && fnExists s f

/-- Whether host port k has traffic pending: a completion or a notice that can be written. -/
def hpWork (s : State) (k : Nat) : Bool :=
  s.completions.any (fun c => decide (c.fn.val / 16 = k) && !crFull s c.fn.val c.ring.val) ||
    s.notices.any (fun n => decide (n.fn.val / 16 = k) && noticeMay s n.fn.val)

/-- HP_ENG.slice: 0 behaves as 1. -/
def hpSlice (s : State) : Nat := max 1 (fld (rd s (hpPage 0 + 0x104)) 7 0)

/-- Whether host port k may send now (R503): its turn lasts up to HP_ENG.slice FLITs while another port has traffic pending, and the next
turn is that of the next port in the rotation that has some. -/
def hpMay (s : State) (k : Nat) : Bool :=
  if s.hpTurn = k ∧ s.hpUsed < hpSlice s then true
  else !(decide (s.hpUsed < hpSlice s) && hpWork s s.hpTurn) &&
    (List.range (turnsAfter 4 s.hpTurn k)).all fun d => !hpWork s ((s.hpTurn + 1 + d) % 4)

/-- Port k sends one FLIT in its turn. DESIGN CHOICE (log entry 150): a completion or a notice is one FLIT, and nothing else takes a turn. -/
def hpServe (k : Nat) : Act := look fun s =>
  if s.hpTurn = k ∧ s.hpUsed < hpSlice s then one (.hpUsed (s.hpUsed + 1)) else seq [one (.hpTurn k), one (.hpUsed 1)]

/-- A signal on MSI-X vector v of function f: pended while the vector is masked (R507; PRESUMED, log entry 20, as the PCI Express
specification gives the table and the Pending Bit Array). -/
def signal (f : FnNo) (v : Nat) : Act := look fun s =>
  let p := fnPageOf f.val
  if bit (rd s (p + 0x800 + 16 * v + 12)) 0 then wrBit (p + 0xC00 + v / 32 * 4) (v % 32) true
  else one (.out (.msix f (BitVec.ofNat 6 v)))

/-- The phase of a ring's next entry: rings 0–15 and the notice ring as 16. -/
def phaseOf (s : State) (f ring : Nat) : Bool := mGetD s.phase (17 * f + ring) true

/-- COMPLETION_WRITE (R511, R512): the oldest completion owed to the ring is written and signalled, when the completion ring has
space. -/
def actCompletionWrite (f : FnNo) (k : Fin 16) : Act := look fun s =>
  match s.completions.find? (fun c => decide (c.fn = f) && decide (c.ring = k)) with
  | none => nop
  | some c =>
    let b := crBase f.val k.val
    let tail := fld (rd s (b + 0x1C)) 15 0
    let size := crSize s f.val k.val
    let ctl := rd s (b + 8)
    if crFull s f.val k.val || !hpMay s (f.val / 16) then nop
    else
      let w0 := c.tag.toNat + c.status.toNat * 65536 + 0x80000000 * b2n (phaseOf s f.val k.val)
      let base := (rd64 s (b + 0xC)).toNat
      seq [hpServe (f.val / 16), one (.out (.hostWrite f (base + 16 * (tail % size))
          (leBytes 4 w0 ++ leBytes 4 (crHead s f.val k.val) ++ leBytes 8 c.result.toNat))),
        wrFld (b + 0x1C) 15 0 (tail + 1),
        act (decide ((tail + 1) % size = 0)) (one (.phase (17 * f.val + k.val) (some (!phaseOf s f.val k.val)))),
        act (!bit ctl 30) (signal f (fld ctl 5 0)),
        count (fnPageOf f.val) 0 1,
        act (decide (c.status ≠ 0)) (count (fnPageOf f.val) 1 1),
        one (.busyRing (16 * f.val + k.val) none),
        one (.completions (s.completions.erase c))]

/-- A ring's enable bit is written: setting it returns the pointers to 0 and the phase to 1 (R513). -/
def ringStart (f : Nat) (k : Option (Fin 16)) : Act :=
  match k with
  | some k => seq [wr (crBase f k.val + 0x14) 0, wr (crBase f k.val + 0x18) 0, wr (crBase f k.val + 0x1C) 0,
      one (.phase (17 * f + k.val) none)]
  | none => seq [wr (fnPageOf f + 0x11C) 0, wr (fnPageOf f + 0x120) 0, one (.phase (17 * f + 16) none)]

/-- The control register of a command ring, or of the notice ring. -/
def ringCtlReg (f : Nat) (k : Option (Fin 16)) : Nat :=
  match k with
  | some k => crBase f k.val + 8
  | none => fnPageOf f + 0x118

/-! ## Notices -/

/-- Whether the notice ring of function f has no space for another notice beside those that wait. -/
def noticesFill (s : State) (f : Nat) : Bool :=
  let p := fnPageOf f
  decide (ringSize (rd s (p + 0x118)) ≤ diff16 (fld (rd s (p + 0x120)) 15 0) (fld (rd s (p + 0x11C)) 15 0) +
    (s.notices.filter (fun n => decide (n.fn.val = f))).length)

/-- A notice for function f waits to be written; one of kind 2 is dropped while the ring is full (R526). -/
def notify (f : FnNo) (kind herd reason : Nat) (bead : DWord) (detail : List Byte) : Act := look fun s =>
  if decide (kind = 2) && noticesFill s f.val then count (fnPageOf f.val) 3 1
  else
    let n : Notice := ⟨f, BitVec.ofNat 8 kind, herd, BitVec.ofNat 8 reason, bead, detail⟩
    one (.notices (s.notices ++ [n]))

/-- NOTICE_WRITE (R526): the oldest notice of function f is written and signalled when its ring is enabled and has space. -/
def actNoticeWrite (f : FnNo) : Act := look fun s =>
  match s.notices.find? (fun n => decide (n.fn = f)) with
  | none => nop
  | some n =>
    let p := fnPageOf f.val
    let ctl := rd s (p + 0x118)
    let tail := fld (rd s (p + 0x120)) 15 0
    if !noticeMay s f.val || !hpMay s (f.val / 16) then nop
    else
      let w0 := n.kind.toNat + n.herd % 64 * 256 + n.reason.toNat * 65536 + 0x80000000 * b2n (phaseOf s f.val 16)
      let base := (rd64 s (p + 0x110)).toNat
      seq [hpServe (f.val / 16), one (.out (.hostWrite f (base + 32 * (tail % ringSize ctl))
          (leBytes 4 w0 ++ leBytes 4 0 ++ leBytes 8 n.bead.toNat ++ (n.detail ++ List.replicate 16 0).take 16))),
        wrFld (p + 0x120) 15 0 (tail + 1),
        act (decide ((tail + 1) % ringSize ctl = 0)) (one (.phase (17 * f.val + 16) (some (!phaseOf s f.val 16)))),
        signal f (fld ctl 5 0), count p 2 1, setIst p 8,
        one (.notices (s.notices.erase n))]

/-! ## Cores stop, herds fail -/

/-- SEQ_STAT.state of a core (R130). -/
def coreState (s : State) (site : Nat) : Nat := fld (rd s (seqPage site + 0x104)) 3 0
/-- The act that changes SEQ_STAT.state. -/
def setCoreState (site st : Nat) : Act := wrFld (seqPage site + 0x104) 3 0 st

/-- SEQ_CTRL.stop (R136): a core at its BEAD row halts there at once with code 0xFF, issuing no slot; a core that runs halts at the next
BEAD row it reaches. DEDUCED (log entry 21): a paused core, which stands at its BEAD row, halts at once too; an armed or a
faulted core keeps the request until it reaches a BEAD row; a core in any other state, which runs no program, ignores it. -/
def stopCore (site : Nat) : Act := look fun s =>
  match coreState s site with
  | 5 | 6 => setCore site (fun x => { x with halting := some 0xFF, stopPend := false, pausePend := false })
  | 2 | 3 | 4 | 8 => setCore site (fun x => { x with stopPend := true })
  | _ => nop

/-- HP_FN_STAT of the owner of herd h. -/
def setFnState (h st : Nat) : Act := look fun s =>
  match ownerOf s h with
  | some f => wr (fnPageOf f.val + 0x100) (BitVec.ofNat 32 (0x80000000 + h * 65536 + st))
  | none => nop

/-- Clears the enable bits of herd h's rings (R524, R525). -/
def disableRings (h : Nat) : Act :=
  seq [each (List.range 24) fun n => wrBit (uePage n + 0x204 + 16 * h) 31 false,
    wrBit (bxPage 0 + 0xA04 + 16 * h) 31 false]

/-! ## Writes of function-page registers -/

/-- RING_ENABLE: a write that sets en (R513); RING_DISABLE: one that clears it. -/
def ringCtlWrite (f : Nat) (k : Option (Fin 16)) (v : Word) : Act := look fun s =>
  let a := ringCtlReg f k
  seq [act (bit v 31 && !bit (rd s a) 31) (ringStart f k), maskWrite (.fnPage f) a v]

/-- log2 of the current size of function f's BAR2: 36 after reset (R12). -/
def bar2LogOf (s : State) (f : Nat) : Nat := mGetD s.bar2Log f 36
/-- HP_FN_BAR2BASE (R506). -/
def bar2Base (s : State) (f : Nat) : Nat := (rd64 s (fnPageOf f + 0x108)).toNat

/-- A write of one or both words of HP_FN_BAR2BASE (R506): discarded, with PROTOCOL, when the resulting base is no multiple of the BAR2
size. -/
def bar2BaseWrite (r : Requester) (f : Nat) (lo hi : Option Word) : Act := look fun s =>
  let p := fnPageOf f
  let l := ((lo.map (· &&& 0xC0000000)).getD (rd s (p + 0x108)))
  let h := ((hi.map (· &&& 0x3FF)).getD (rd s (p + 0x10C)))
  if (joinWords l h).toNat % 2 ^ bar2LogOf s f = 0 then seq [wr (p + 0x108) l, wr (p + 0x10C) h]
  else protocolAt p r

/-- BAR2_RESIZE (R506, R12): a size from 1 GiB to 2 TiB; base bits below it clear. -/
def actBar2Resize (f : FnNo) (lg : Nat) : Act := look fun s =>
  if fnExists s f.val && decide (30 ≤ lg) && decide (lg ≤ 41) then
    seq [one (.bar2Log f.val (if lg = 36 then none else some lg)),
      wr64 (fnPageOf f.val + 0x108) (BitVec.ofNat 64 (bar2Base s f.val / 2 ^ lg * 2 ^ lg))]
  else nop

/-- The doorbell that a write of n bytes at BAR4 offset off rings (R14): doorbell k lies at offset 64 × k, and only a 32-bit write at that
offset rings it. -/
def doorbellOf (off n : Nat) : Option Nat := if n = 4 ∧ off % 64 = 0 ∧ off / 64 < 1024 then some (off / 64) else none

/-- A write of t to doorbell k sets ring k's tail, unless no such ring is implemented and enabled or it would overrun (R14, R509). -/
def ring (f : FnNo) (k : Nat) (t : Word) : Act := look fun s =>
  if !fnExists s f.val || decide (16 ≤ k) || !bit (rd s (crBase f.val k + 8)) 31 then nop
  else if crSize s f.val k < diff16 (fld t 15 0) (crHead s f.val k) then protocolAt (fnPageOf f.val) (.fn f)
  else wrFld (crBase f.val k + 0x14) 31 16 (fld t 15 0)

/-- DOORBELL (R12, R14): a write to function f's BAR4 window. -/
def actDoorbell (f : FnNo) (off : Nat) (data : List (Option Byte)) : Act :=
  match doorbellOf off data.length with
  | some k => act (data.all Option.isSome) (ring f k (leWord (data.map (·.getD 0))))
  | none => nop

end Sys2Proof.Machine
end

