-- ==== Sys2Proof/Machine/Pod.lean ====
section
/-! DEFINITION. The pod's shape (R455, R456), its routes (R463, R464) and tree (R470), and how frames and sideband symbols leave the ports (R460 to R469). -/

namespace Sys2Proof.Machine

/-- BX_POD_CFG. -/
def podCfg (s : State) : Word := rd s (bxPage 0 + 0x804)
/-- Whether the device is a pod member. -/
def podEn (s : State) : Bool := bit (podCfg s) 31
/-- Own position. -/
def ownPos (s : State) : Nat := fld (podCfg s) 5 0
/-- The lead's position. -/
def leadPos (s : State) : Nat := fld (podCfg s) 13 8
/-- Whether this member is the lead. -/
def isLead (s : State) : Bool := podEn s && decide (ownPos s = leadPos s)
/-- Positions present (BX_POD_PRESENT). -/
def isPresent (s : State) (p : Nat) : Bool := bit (rd64 s (bxPage 0 + 0x808)) p

/-- The size of axis a: X and Y 4, Z as configured. -/
def axisSize (s : State) (a : Nat) : Nat := if a < 2 then 4 else fld (podCfg s) 17 16 + 1
/-- The coordinate of position p on axis a. -/
def coord (p a : Nat) : Nat := p / 4 ^ a % 4
/-- Position p with coordinate a replaced. -/
def withCoord (p a c : Nat) : Nat := p - coord p a * 4 ^ a + c * 4 ^ a
/-- The position one step from p on torus port k (0 +X, 1 −X, 2 +Y, 3 −Y, 4 +Z, 5 −Z). -/
def torusNext (s : State) (p k : Nat) : Nat :=
  let n := axisSize s (k / 2)
  withCoord p (k / 2) ((coord p (k / 2) + (if k % 2 = 0 then 1 else n - 1)) % n)

/-- The torus port toward another position on axis a: the shorter way; `plus` breaks an equal distance. -/
def axisPort (s : State) (src dst a : Nat) (plus : Bool) : Option Nat :=
  let n := axisSize s a
  let d := (coord dst a + n - coord src a) % n
  if d = 0 then none
  else if 2 * d < n then some (2 * a)
  else if n < 2 * d then some (2 * a + 1)
  else some (if plus then 2 * a else 2 * a + 1)

/-- The port on which a frame for dst leaves position p (R463): X, then Y, then Z. -/
def podPort (s : State) (p dst : Nat) : Option Nat := [0, 1, 2].findSome? (fun a => axisPort s p dst a true)

/-- Whether a frame that leaves position p on torus port k crosses from coordinate 3 to 0 or back (R464). -/
def crossesDateline (s : State) (p k : Nat) : Bool :=
  let c := coord p (k / 2)
  let d := coord (torusNext s p k) (k / 2)
  (decide (c = 3) && decide (d = 0)) || (decide (c = 0) && decide (d = 3))

/-- The root of the pod's tree: the lead, or once the lead is gone the deputy, which acts as lead for the bead exchange (R470, R569). -/
def rootPos (s : State) : Nat :=
  if isPresent s (leadPos s) then leadPos s else ((List.range 64).find? (isPresent s)).getD (leadPos s)
/-- Whether this device is the root of the pod's tree. -/
def isRoot (s : State) : Bool := podEn s && decide (ownPos s = rootPos s)

/-- The torus port of position p toward its tree parent (R470). -/
def parentPort (s : State) (p : Nat) : Option Nat :=
  [2, 1, 0].findSome? fun a => (axisPort s p (rootPos s) a false).bind fun k =>
    if isPresent s (torusNext s p k) then some k else none

/-- The torus ports of position p whose partner is its child. -/
def childPorts (s : State) (p : Nat) : List Nat :=
  (List.range 6).filter fun k =>
    let q := torusNext s p k
    decide (q ≠ p) && isPresent s q && decide (q ≠ rootPos s) && decide (parentPort s q = some (k + 1 - 2 * (k % 2)))

/-- Steps from position p to the lead, along its shorter ways. -/
def podDepth (s : State) (p : Nat) : Nat :=
  ((List.range 3).map (fun a =>
    let n := axisSize s a
    let d := (coord (rootPos s) a + n - coord p a) % n
    min d (n - d))).foldl (· + ·) 0

/-- BX_POD_TREE (R470) as the configuration and BX_POD_PRESENT give it. -/
def podTree (s : State) : Word :=
  if !podEn s then 0
  else
    let p := ownPos s
    let kids := ofBits (childPorts s p)
    match (if isRoot s then none else parentPort s p) with
    | some k => BitVec.ofNat 32 (0x80000000 + podDepth s p * 65536 + torusNext s p k * 256 + kids)
    | none => BitVec.ofNat 32 (podDepth s p * 65536 + kids)

/-- What port n of the pod engine holds. -/
def bxOf (s : State) (n : Nat) : BxPort := mGetD s.bx n BxPort.clear
/-- The act that changes it. -/
def setBx (n : Nat) (f : BxPort → BxPort) : Act := look fun s => one (.bx n (f (bxOf s n)))
/-- BX_LINK_STAT.state of port n. -/
def linkState (s : State) (n : Nat) : Nat := fld (rd s (bxPage n + 0x104)) 3 0
/-- Whether port n is up. -/
def linkUp (s : State) (n : Nat) : Bool := decide (linkState s n = 3)

/-- The credit pool of a frame: LVC0, or LVC1–LVC3 by dateline class. -/
def poolOf (f : Frame) : Nat := if f.lvc = 0 then 0 else f.lvc + 3 * b2n f.dl
/-- The bytes a frame takes: its header and payload. -/
def frameBytes (f : Frame) : Nat := 32 + f.data.length
/-- The largest frame of a channel (R462). -/
def frameLimit (lvc : Nat) : Nat := if lvc = 0 then 256 else 4128

/-- Bytes 0 to 27 of a frame's header (R460). -/
def headerBytes (f : Frame) : List Byte :=
  leBytes 4 (f.type.toNat + 256 * f.lvc + 1024 * (f.herd % 64) + 65536 * f.data.length + 536870912 * b2n f.poison) ++
    leBytes 4 (f.src % 64 + 256 * (f.dst % 64) + 16384 * b2n f.dl + 65536 * f.lseq) ++
    leBytes 4 (f.cid + 65536 * f.kind + 1048576 * f.pass) ++ leBytes 4 f.offset ++ leBytes 8 f.addr ++ leBytes 4 f.count
/-- A frame's crc (R460): the CRC-32 over header bytes 0 to 27 and the payload. -/
def frameCrc (f : Frame) : Word := crc32 (headerBytes f ++ f.data)

/-- The bytes in the replay buffer of port n (R466). -/
def replayBytes (s : State) (n : Nat) : Nat := (bxOf s n).replay.foldl (fun a f => a + frameBytes f) 0

/-- Whether port n may send the frame now: link up, credit and replay buffer for it, and no link stop of its channel (R462, R466, R474). -/
def maySend (s : State) (n : Nat) (f : Frame) : Bool :=
  linkUp s n && decide (frameBytes f ≤ frameLimit f.lvc) && decide (frameBytes f ≤ (bxOf s n).credits.getD (poolOf f) 0) &&
    decide (replayBytes s n + frameBytes f ≤ 131072) && (decide (f.lvc = 0) || !s.side.linkStop)

/-- A frame is on port n's lanes: the output, and the counts of frames and bytes. -/
def putFrame (n : Nat) (f : Frame) : Act := seq [one (.out (.frame n f (frameCrc f))), count (bxPage n) 0 1, count (bxPage n) 2 (frameBytes f)]

/-- A frame leaves port n: it takes the next lseq and its credit, and stays in the replay buffer (R466). -/
def emitFrame (n : Nat) (f : Frame) : Act := look fun s =>
  let g := { f with lseq := (bxOf s n).txSeq }
  seq [setBx n (fun x => { x with txSeq := (x.txSeq + 1) % 65536, replay := x.replay ++ [g],
                                  turn := if f.lvc = 0 then x.turn else f.lvc,
                                  credits := x.credits.set (poolOf f) (x.credits.getD (poolOf f) 0 - frameBytes f) }),
    putFrame n g]

/-- The frame that port n sends next of those that wait (R462): the oldest of LVC0, then of LVC1 to LVC3 in round-robin. -/
def nextFrame (s : State) (n : Nat) : Option Frame :=
  let x := bxOf s n
  (0 :: (List.range 3).map (fun j => (x.turn + j) % 3 + 1)).findSome? fun l =>
    (x.waiting.find? (fun f => decide (f.lvc = l))).filter (maySend s n)

/-- Up to k of the frames that wait at port n leave while they may. -/
def sendWaiting (n : Nat) : Nat → Act
  | 0 => nop
  | k + 1 => look fun s => match nextFrame s n with
    | none => nop
    | some f => seq [setBx n (fun x => { x with waiting := x.waiting.erase f }), emitFrame n f, sendWaiting n k]

/-- The frames that wait at port n leave while they may. -/
def flushFrames (n : Nat) : Act := look fun s => sendWaiting n (bxOf s n).waiting.length

/-- A frame is given to port n: it leaves at once, or waits behind those that wait on its channel. -/
def giveFrame (n : Nat) (f : Frame) : Act := seq [setBx n (fun x => { x with waiting := x.waiting ++ [f] }), flushFrames n]

/-- A frame of this member goes to its destination's port (R463). -/
def sendFrame (f : Frame) : Act := look fun s =>
  match podPort s (ownPos s) f.dst with
  | some k => giveFrame k { f with dl := crossesDateline s (ownPos s) k }
  | none => nop

/-- A control frame from this member to position dst. -/
def ctlFrame (s : State) (type herd dst : Nat) (addr count : Nat) (data : List Byte) : Frame :=
  ⟨BitVec.ofNat 8 type, 0, herd, ownPos s, dst, false, false, 0, 0, 0, 0, 0, addr, count, data⟩

/-- The CRC-16 of a symbol over its bits [111:0] (R468). -/
def symbolCrc (kind bead aux : Nat) (data : DWord) : BitVec 16 :=
  crc16 (leBytes 1 kind ++ leBytes 2 bead ++ [0] ++ leBytes 2 aux ++ leBytes 8 data.toNat)

/-- A sideband symbol leaves port n. -/
def sendSym (n kind : Nat) (bead aux : Nat) (data : DWord) : Act := look fun s =>
  act (linkUp s n) (one (.out (.symbol n (BitVec.ofNat 8 kind) (BitVec.ofNat 16 bead) (BitVec.ofNat 16 aux) data (symbolCrc kind bead aux data))))

/-- The data field of a HALT symbol (R468). -/
def haltData (h : HaltSym) (action : Nat) : DWord :=
  BitVec.ofNat 64 (h.target.toNat + 64 * b2n h.all + 256 * h.origin.toNat + 65536 * action + 16777216 * h.herd.val)

/-- A HALT goes on its way from this member (R474): with all = 1 toward the lead and from the lead down the tree, else toward its
target. `up`: it has not yet reached the lead. -/
def sendHalt (h : HaltSym) (action : Nat) : Act := look fun s =>
  let p := ownPos s
  if h.all then
    if isRoot s then each (childPorts s p) fun k => sendSym k 4 0 0 (haltData h action)
    else match podPort s p (rootPos s) with
      | some k => sendSym k 4 0 0 (haltData h action)
      | none => nop
  else match podPort s p h.target.toNat with
    | some k => sendSym k 4 0 0 (haltData h action)
    | none => nop

/-- The pod members other than this one that hold cores of herd h. -/
def podOthers (s : State) (h : Nat) : List Nat :=
  match herdOf s h with
  | some x => (List.range 64).filter fun p =>
      decide (p ≠ ownPos s) && isPresent s p && (bit x.members p || x.owner.isNone)
  | none => []

/-! ## Pausing a herd -/

/-- R142: every core of the herd but `site` enters PAUSED at the next BEAD row it reaches; one that waits at a BEAD row at once. -/
def pauseHerd (h site : Nat) : Act := look fun s =>
  each ((herdSites s h).filter (fun c => decide (c ≠ site))) fun c => look fun s =>
    match coreState s c with
    | 5 => seq [setCoreState c 6, setIst (seqPage c) 10]
    | 2 | 3 | 4 => setCore c (fun x => { x with pausePend := true })
    | _ => nop

/-- R481: the member of a pod herd whose core has faulted sends a HALT with action 1 and all = 1. -/
def podPause (h : Nat) : Act := look fun s =>
  match herdOf s h with
  | some x => act (x.pod && podEn s)
      (sendHalt ⟨0, BitVec.ofNat 6 (ownPos s), ⟨h % 64, Nat.mod_lt _ (by decide)⟩, BitVec.ofNat 6 (leadPos s), true, true⟩ 1)
  | none => nop

end Sys2Proof.Machine
end

