-- ==== Sys2Proof/Machine/Forward.lean ====
section
/-! DEFINITION. Commands of a herd's function: the state they need (R515, R516, R524), their forwarding to the members of a pod herd (R476, R477), and their answers. -/

namespace Sys2Proof.Machine

/-- The 64 bytes of a command (R512). -/
def cmdBytes (op tag : Nat) (params : List Byte) : List Byte :=
  leBytes 2 op ++ leBytes 2 tag ++ leBytes 4 0 ++ (params ++ List.replicate 56 0).take 56

/-- A HERD_REGW list entry (R517). -/
def entryBytes (e : RegwEntry) : List Byte :=
  leBytes 4 (e.member.toNat + 65536 * (e.hidx % 1024) + 268435456 * b2n e.wide) ++ leBytes 4 e.offset.toNat ++
    leBytes 8 e.value.toNat

/-- An HCMD's payload (R477). -/
def hcmdBytes (htag h part : Nat) (last : Bool) (op tag : Nat) (params : List Byte) (es : List RegwEntry) : List Byte :=
  leBytes 4 (htag + 65536 * (h % 64) + 16777216 * (part % 256)) ++ leBytes 4 (es.length + 16 * b2n last) ++ leBytes 8 0 ++
    cmdBytes op tag params ++ es.flatMap entryBytes

/-- An HCPL's payload. -/
def hcplBytes (htag status part count : Nat) (result : DWord) : List Byte :=
  leBytes 2 htag ++ leBytes 1 status ++ leBytes 1 part ++ leBytes 4 count ++ leBytes 8 result.toNat

/-- An HCMD goes to member p. -/
def sendHcmd (p htag h part : Nat) (last : Bool) (op tag : Nat) (params : List Byte) (es : List RegwEntry) : Act := look fun s =>
  sendFrame (ctlFrame s 0x17 h p 0 0 (hcmdBytes htag h part last op tag params es))

/-- The lead's htag counter steps, skipping 0xFFFF (R477). -/
def stepHtag : Act := look fun s => one (.htag ((s.htag + 1) % 65535))

/-- The status of a command after another answer: the first above 0, and of a HERD_RESUME a refusal before all (R518). -/
def laterStatus (o : HcmdOut) (status : Nat) : Nat :=
  if o.status = 0 ∨ (o.opcode = 6 ∧ status = 3 ∧ o.status ≠ 5) then status else o.status

/-- A forwarded command completes to its host. A herd is parked once every member has given up its cores (R523). -/
def closeHcmd (o : HcmdOut) (status : Nat) : Act := look fun s =>
  seq [one (.hcmd (s.hcmd.filter (fun x => decide (x.htag ≠ o.htag)))),
    act (decide (o.opcode = 7) && decide (status = 0) && o.cmd.isSome) (setFnState o.herd 2), match o.cmd with
    | some c => complete c status (if o.opcode = 3 then BitVec.ofNat 64 o.applied else o.result)
    | none => nop]

/-- A position's answer reaches the lead (R476): the command completes once every member has answered. A command that still has parts to
send goes on (R478). -/
def partAnswered (pos htag status count : Nat) (result : DWord) : Act := look fun s =>
  match s.hcmd.find? (fun o => decide (o.htag = htag)) with
  | none => nop
  | some o =>
    if !o.waiting.contains pos then nop
    else
      let e : HcmdOut := { o with
        waiting := o.waiting.erase pos
        applied := o.applied + count
        status := laterStatus o status
        result := if pos = ownPos s then result else o.result }
      if e.waiting.isEmpty && (e.parts.isEmpty || decide (e.status ≠ 0)) then
        closeHcmd e e.status
      else one (.hcmd (s.hcmd.map (fun x => if x = o then e else x)))

/-- A command's answer, with the count of HERD_REGW entries applied. -/
def answerN (a : Asker) (status count : Nat) (result : DWord) : Act :=
  match a with
  | .host c => complete c status result
  | .lead htag part herd => look fun s =>
    if isLead s then partAnswered (ownPos s) htag status count result
    else sendFrame (ctlFrame s 0x18 herd (leadPos s) 0 0 (hcplBytes htag status part count result))

/-- A command's answer. -/
def answer (a : Asker) (status : Nat) (result : DWord) : Act := answerN a status 0 result

/-- A command runs here, and for a pod herd on every other member that holds cores of it (R476). -/
def spread (c : CmdId) (op h : Nat) (params : List Byte) (others : List Nat) (body : Asker → Act) : Act := look fun s =>
  if others.isEmpty then body (.host c)
  else
    let t := s.htag
    seq [stepHtag, one (.hcmd (s.hcmd ++ [⟨t, some c, op, h, ownPos s :: others, 0, [], 0, 0, 0, params⟩])),
      each others fun p => sendHcmd p t h 0 true op c.tag.toNat params [], body (.lead t 0 h)]

/-- The other members that hold cores of a pod herd that this device leads. -/
def herdMembers (s : State) (h : Nat) : List Nat :=
  if (herdOf s h).any (·.pod) && isLead s then podOthers s h else []

/-- Whether HP_FN_STAT.state of a function reads releasing (R525). -/
def fnReleasing (s : State) (f : FnNo) : Bool := decide (fld (rd s (fnPageOf f.val + 0x100)) 2 0 = 4)

/-- What a command of a herd's function meets first: status 6 when the function owns no herd, 4 when the herd has failed and the
command is not one a failed herd accepts, 3 while it is being released (R515, R524). -/
def ownHerd (c : CmdId) (failedToo : Bool) (body : Nat → Herd → Act) : Act := look fun s =>
  if fnReleasing s c.fn then complete c 3 0
  else match herdOfFn s c.fn with
  | none => complete c 6 0
  | some h => match herdOf s h with
    | none => complete c 6 0
    | some x => if x.failed && !failedToo then complete c 4 0 else body h x

/-- A host command that changes its function's herd: it waits while another does (R516). -/
def herdCmd (c : CmdId) (op : Nat) (params : List Byte) (failedToo : Bool) (body : Asker → Nat → Act) : Act := look fun s =>
  if !c.reserved && (herdOfFn s c.fn).any (herdBusy s) then nop
  else hostCmd c (ownHerd c failedToo fun h _ => look fun s =>
    spread c op h params (herdMembers s h) fun a => body a h)

/-! ## Herds fail (R524) -/

/-- Herd h fails on this device (R524): its cores are stopped, its rings disabled, its state is failed, and its owner has a notice of
kind 1. A herd that has failed does not fail again. -/
def failHere (h reason : Nat) : Act := look fun s =>
  match herdOf s h with
  | none => nop
  | some x =>
    if x.failed then nop
    else seq [each x.sites fun c => act (decide (coreState s c ≠ 9)) (stopCore c),
      disableRings h, setHerd h (fun x => { x with failed := true }), setFnState h 3,
      (match x.owner with
        | some f => notify f 1 h reason (beadNo s) []
        | none => nop)]

/-- The failure of a pod herd reaches the rest of the pod (R505, R524). DEDUCED (log entry 151): a member tells the lead, whose owning function
then has the notice, in an HCPL that answers no HCMD and carries the reason as its status; the lead has every other member stop the herd's
cores, in an HCMD of HERD_STOP. -/
def tellFailure (h reason : Nat) : Act := look fun s =>
  match herdOf s h with
  | none => nop
  | some x =>
    if !x.pod || !podEn s then nop
    else if isLead s then
      let others := podOthers s h
      act (!others.isEmpty) (seq [stepHtag, one (.hcmd (s.hcmd ++ [⟨s.htag, none, 5, h, others, 0, [], 0, 0, 0, []⟩])),
        each others fun p => sendHcmd p s.htag h 0 true 5 0 [] []])
    else act x.owner.isNone (sendFrame (ctlFrame s 0x18 h (leadPos s) 0 0 (hcplBytes 0xFFFF reason 0 0 0)))

/-- Herd h fails for a reason found here. -/
def failHerd (h reason : Nat) : Act := look fun s =>
  act ((herdOf s h).any (fun x => !x.failed)) (seq [failHere h reason, tellFailure h reason])

/-- Every resident herd fails for one reason. -/
def failAll (reason : Nat) : Act := look fun s => each s.herd fun p => failHerd p.1 reason

end Sys2Proof.Machine
end

