-- ==== Sys2Proof/Machine/Tally.lean ====
section
/-! DEFINITION. Tally flags and counters, waits on them, and the packets that carry them (R418 to R433, R451). -/

namespace Sys2Proof.Machine

/-! ## Flags as a core sees them -/

/-- The TLY_FLAG word of flag f in a site's page, and its bit. -/
def flagAddr (site f : Nat) : Nat := tlyPage site + 0x100 + f / 32 * 4
/-- Flag f as the TLY_ unit of `site` holds it. -/
def flagHeld (s : State) (site f : Nat) : Bool := bit (rd s (flagAddr site f)) (f % 32)
/-- The herd's core with hidx 0: the home of the shared flags (R418). -/
def homeOf (s : State) (site : Nat) : Nat := ((herdAt s site).bind (fun h => siteAt s h 0)).getD site
/-- Flag f as core `site` sees it (R420): a shared flag through the mirror, but in the core with hidx 0. -/
def flagSeen (s : State) (site f : Nat) : Bool :=
  if f < 224 ∨ hidxOf s site = 0 then flagHeld s site f else bit (coreX s site).mirror (f - 224)

/-- The page of the herd of a core, for packets. -/
def herdNo (s : State) (site : Nat) : Nat := (herdAt s site).getD 0

/-- A one-flit VC0 packet leaves core `src` for core `dst` (R428); it waits at the local port until the mesh takes it. -/
def send0 (src dst : Nat) (pl : Payload) : Act := look fun s =>
  one (.packets (s.packets ++ [⟨src, dst, 4, 0, 0, herdNo s src, 0, src, 12, pl⟩]))

/-- Core `src` sends a packet of a MOV.P on VC1, or the response to one on VC2 (R147), with the herd of the request. A word of data is one
payload flit. -/
def sendMov (src dst vc herd : Nat) (pl : Payload) : Act := look fun s =>
  let len : Fin 33 := match pl with
    | .movReq _ _ (some _) _ | .movResp _ (.word _) => 1
    | _ => 0
  one (.packets (s.packets ++ [⟨src, dst, 4, vc, 0, herd, len, src, 12, pl⟩]))

/-- The packet by which a block of the I/O ring sets (kind 0) or clears (1) flag `idx` of core `site` of herd h, or adds `d` to its counter
(2): one flit on VC0, without a step tag (R424, R430), at the block's attach router (R62). -/
def ringTally (b : RingBlock) (h site : Nat) (kind : Fin 3) (idx : Nat) (d : Byte) : Packet :=
  ⟨(attachOf b).1, site, 4, 0, 0, h, 0, (attachOf b).1, 8 + (attachOf b).2, .tally kind idx d 0 false 0⟩

/-- The packets by which a ring block sets or clears flag f in every core of herd h, a shared flag once (R424). -/
def flagPackets (s : State) (b : RingBlock) (h f : Nat) (kind : Fin 3) : List Packet :=
  ((herdSites s h).take (if f < 224 then 1024 else 1)).map (fun c => ringTally b h c kind f 0)

/-- A source of R424 in the I/O ring sets (kind 0) or clears (1) flag f in every core of herd h: it takes effect as the packets arrive. -/
def flagAll (b : RingBlock) (h f : Nat) (kind : Fin 3) : Act := look fun s =>
  one (.packets (s.packets ++ flagPackets s b h f kind))

/-- The waits registered at flag f of a unit, in ascending hidx (R422). -/
def waitersOn (s : State) (site f : Nat) : List Waiter :=
  ((coreX s site).waiters.filter (fun w => decide (w.flag = f))).mergeSort (fun a b => decide (a.hidx ≤ b.hidx))

/-- TLY_SHWj follows the waits registered at the home. -/
def setShw (site f : Nat) : Act := look fun s =>
  act (decide (224 ≤ f)) (wr (tlyPage site + 0x280 + 4 * (f - 224)) (BitVec.ofNat 32 (waitersOn s site f).length))

/-- Registered waits leave their unit. -/
def unregister (site f : Nat) (p : Waiter → Bool) : Act :=
  seq [setCore site (fun x => { x with waiters := x.waiters.filter (fun w => !(decide (w.flag = f) && p w)) }), setShw site f]

/-- The home or a local unit releases the wait of hidx i (R423): its own core at once, another by a release packet. -/
def releaseTo (site i : Nat) : Act := look fun s =>
  if i = hidxOf s site then setCore site (fun x => { x with released := true, registered := false })
  else match (herdAt s site).bind (fun h => siteAt s h i) with
    | some t => send0 site t .release
    | none => nop

/-- A shared flag has changed at its home: every other core of the herd is sent its value (R420). -/
def sendMirrors (site f : Nat) (v : Bool) : Act := look fun s =>
  match herdAt s site with
  | some h => act (decide (224 ≤ f)) (each ((herdSites s h).filter (fun t => decide (t ≠ site))) fun t =>
      send0 site t (.mirror (f - 224) v))
  | none => nop

/-- A flag takes a value in the unit that holds it. -/
def putFlag (site f : Nat) (v : Bool) : Act := look fun s =>
  if flagHeld s site f = v then nop
  else seq [wrBit (flagAddr site f) (f % 32) v, sendMirrors site f v]

/-- R422 step 3 in a unit: every registered TWAIT is released, and of the TWAITCs the one of lowest hidx. -/
def releaseWaits (site f : Nat) : Act := look fun s =>
  let ws := waitersOn s site f
  seq [each (ws.filter (fun w => !w.clear)) (fun w => releaseTo site w.hidx), unregister site f (fun w => !w.clear),
    match ws.find? (fun w => w.clear) with
    | some w => seq [releaseTo site w.hidx, unregister site f (fun v => decide (v = w))]
    | none => nop]

/-- Whether a TWAITC is registered at a flag. -/
def clearWaits (s : State) (site f : Nat) : Bool := (waitersOn s site f).any (·.clear)

/-- A flag that stands set meets a new registration (R422): the waits are released, and a released TWAITC clears it. -/
def resolveFlag (site f : Nat) : Act := look fun s =>
  act (flagHeld s site f) (seq [releaseWaits site f, act (clearWaits s site f) (putFlag site f false)])

/-- A TSET takes effect at the unit that holds the flag (R422). A TWAITC registered at a clear flag takes the set in the same cycle: the
flag is clear after it as before, and no mirror is sent (R420). -/
def setFlag (site f : Nat) : Act := look fun s =>
  if !flagHeld s site f && clearWaits s site f then releaseWaits site f
  else seq [putFlag site f true, resolveFlag site f]
/-- A TCLR takes effect (R422). -/
def clearFlag (site f : Nat) : Act := putFlag site f false

/-- A copy of core `site` sets its done flag (R107, R424): its own flag at once, a shared flag that another core holds by a packet. -/
def setDone (site f : Nat) : Act := look fun s =>
  if f < 224 ∨ hidxOf s site = 0 then setFlag site f else send0 site (homeOf s site) (.tally 0 f 0 0 false 0)

/-! ## Counters -/

/-- TLY_CNTn of a site. -/
def cntAddr (site n : Nat) : Nat := tlyPage site + 0x140 + 4 * n
/-- TLY_CINITn of a site. -/
def cinitAddr (site n : Nat) : Nat := tlyPage site + 0x1C0 + 4 * n
/-- A counter's value. -/
def cntValue (s : State) (site n : Nat) : Nat := fld (rd s (cntAddr site n)) 15 0
/-- TLY_STEP. -/
def stepTag (s : State) (site : Nat) : Nat := fld (rd s (tlyPage site + 0x240)) 7 0

/-- The 16-bit two's-complement extension of an 8-bit delta. -/
def delta16 (d : Byte) : Nat := (d.signExtend 16).toNat

/-- How far a tagged CINC's sender is ahead of the target, mod 256 (R431): 0 where the counter is not tagged. -/
def stepGap (s : State) (site n tag : Nat) (tagged : Bool) : Nat :=
  if tagged && bit (rd s (cinitAddr site n)) 31 then (tag + 256 - stepTag s site) % 256 else 0

/-- A CINC arrives at counter n (R426, R431). -/
def cincAt (site n : Nat) (d : Byte) (tag : Nat) (tagged : Bool) : Act := look fun s =>
  let w := rd s (cntAddr site n)
  let gap := stepGap s site n tag tagged
  if gap = 0 then wrFld (cntAddr site n) 15 0 (fld w 15 0 + delta16 d)
  else if gap < 128 then seq [wrFld (cntAddr site n) 31 16 (fld w 31 16 + delta16 d), count (tlyPage site) 3 1]
  else count (tlyPage site) 5 1

/-- R432: every counter whose step_en is 1 takes (init + early) mod 65,536 and its early sum 0. -/
def realign (site : Nat) : Act := each (List.range 32) fun n => look fun s =>
  let c := rd s (cinitAddr site n)
  act (bit c 31) (wr (cntAddr site n) (BitVec.ofNat 32 ((fld c 15 0 + fld (rd s (cntAddr site n)) 31 16) % 65536)))

/-- A tally command takes effect in a unit: kind 0 TSET, 1 TCLR, 2 CINC (R422, R426). A stale CINC has no effect and counts in slot 5
alone (R431). -/
def tallyEffect (site : Nat) (kind : Fin 3) (idx : Nat) (d : Byte) (tag : Nat) (tagged : Bool) : Act := look fun s =>
  seq [(match kind with
    | 0 => setFlag site idx
    | 1 => clearFlag site idx
    | 2 => cincAt site idx d tag tagged),
    act (decide (kind ≠ 2) || decide (stepGap s site idx tag tagged < 128)) (count (tlyPage site) 0 1)]

/-! ## Issued instructions -/

/-- An instruction retires (R104, R139). -/
def retire (site : Nat) (i : Issued) : Act := setCore site (fun x => { x with issued := x.issued.filter (fun k => decide (k.id ≠ i.id)) })

/-- An issued instruction is replaced. -/
def setIssued (site : Nat) (i j : Issued) : Act :=
  setCore site (fun x => { x with issued := x.issued.map (fun k => if k.id = i.id then j else k) })

/-- The opcode of a slot word: slot A and C hold it in [31:27], slot B in [31:26]. -/
def opOf (part : Nat) (w : Word) : Nat := if part = 2 then fld w 31 26 else fld w 31 27

/-- The page of the unit that runs a slot's opcode. -/
def unitPage (site part op : Nat) : Nat :=
  if part = 1 then (if op < 8 then cubePage site else tilePage site)
  else if part = 2 then vuPage site
  else if op < 8 then mvPage site else tlyPage site

/-- The oldest issued instruction of a slot with an opcode that its unit has not started; a fenced unit starts none (R37). -/
def nextToStart (s : State) (site part op : Nat) : Option Issued :=
  if fenced s (unitPage site part op) then none
  else (coreX s site).issued.find? (fun i => decide (i.part = part) && decide (opOf part i.word = op) && !i.started && !i.faulted)

/-- The instructions issued before i that have not retired. -/
def earlier (s : State) (site : Nat) (i : Issued) : List Issued := (coreX s site).issued.takeWhile (fun k => decide (k.id ≠ i.id))

/-- Whether an issued instruction stores to memory: a TST or a VST (R106). -/
def isStore (i : Issued) : Bool :=
  (decide (i.part = 1) && decide (opOf 1 i.word = 9)) || (decide (i.part = 2) && decide (opOf 2 i.word = 2))

/-- Whether an issued instruction is a TSET, TCLR or CINC. -/
def isTally (i : Issued) : Bool := decide (i.part = 3) && decide (8 ≤ opOf 3 i.word)

/-- Whether two instructions issued in one row's issue, the earlier in a slot before the later's (log entry 122). -/
def sameIssue (k i : Issued) : Bool := decide (k.row = i.row) && decide (k.part < i.part) && decide (i.id ≤ k.id + 2)

/-- Whether a tally command acts on a shared flag (R419). -/
def tallyShared (i : Issued) : Bool := decide (opOf 3 i.word ≠ 0x0A) && decide (224 ≤ fld i.word 15 8) && !bit i.word 26

/-- The core whose unit a tally command acts on (R419). -/
def tallyTarget (s : State) (site : Nat) (i : Issued) : Nat :=
  if tallyShared i then homeOf s site
  else if bit i.word 26 then ((herdAt s site).bind (fun h => siteAt s h (fld i.word 25 16))).getD site else site

/-- Whether a tally command acts in its own core's unit without a packet (R428). -/
def tallyLocal (s : State) (site : Nat) (i : Issued) : Bool :=
  !bit i.word 26 && (!tallyShared i || decide (hidxOf s site = 0))

/-- What keeps a tally command from starting: a TST or VST that issued earlier and still runs (R106; a store of the same row did not issue
earlier, and one that has faulted is never written, log entry 122), an earlier tally command that has not started, and, for one that acts
in its own unit, an earlier one on its way to the same unit (R428). -/
def tallyHeld (s : State) (site : Nat) (i : Issued) : Bool :=
  (earlier s site i).any fun k => (isStore k && !k.faulted && !sameIssue k i) ||
    (isTally k && (!k.started || (tallyLocal s site i && decide (tallyTarget s site k = site))))

/-- TSET, TCLR and CINC (R106, R419, R428): the core's oldest issued command of the kind starts when nothing holds it; it takes effect at
once in its own unit and retires, or leaves as a packet. -/
def actTally (site op : Nat) (kind : Fin 3) : Act := look fun s =>
  match nextToStart s site 3 op with
  | none => nop
  | some i =>
    if tallyHeld s site i then nop
    else
      let idx := if kind = 2 then fld i.word 12 8 else fld i.word 15 8
      let d : Byte := BitVec.ofNat 8 (fld i.word 7 0)
      let target := tallyTarget s site i
      if tallyLocal s site i then
        seq [tallyEffect site kind idx d (stepTag s site) true, retire site i]
      else seq [send0 site target (.tally kind idx d (BitVec.ofNat 8 (stepTag s site)) true i.row),
        setIssued site i { i with started := true }]

/-- The TSET command. -/
def actTset (site : Nat) : Act := actTally site 0x08 0
/-- The TCLR command. -/
def actTclr (site : Nat) : Act := actTally site 0x09 1
/-- The CINC command. -/
def actCinc (site : Nat) : Act := actTally site 0x0A 2

/-! ## Packets at a core -/

/-- The oldest packet of a core's inbox leaves it. -/
def popInbox (site : Nat) : Act :=
  setCore site (fun x => { x with inbox := x.inbox.drop 1, inboxFrom := x.inboxFrom.drop 1 })

/-- TALLY_PACKET_ARRIVE (R428, R429, R431, and R82's fenced response): the command takes effect and is acknowledged. -/
def actTallyPacketArrive (site : Nat) : Act := look fun s =>
  match (coreX s site).inbox, (coreX s site).inboxFrom with
  | .tally kind idx d step tagged row :: _, src :: _ =>
    let ok := !fenced s (tlyPage site)
    seq [popInbox site, act ok (tallyEffect site kind idx d step.toNat tagged),
      act tagged (send0 site src (.tallyAck row (!ok)))]
  | _, _ => nop

/-- TALLY_ACK (R429, R430): the remote command retires; a fenced response counts slot 4. -/
def actTallyAck (site : Nat) : Act := look fun s =>
  match (coreX s site).inbox with
  | .tallyAck row isFenced :: _ =>
    seq [popInbox site,
      (match (coreX s site).issued.find? (fun i => decide (i.part = 3) && i.started && decide (i.row = row) &&
          decide (8 ≤ opOf 3 i.word)) with
        | some i => retire site i
        | none => nop),
      act isFenced (count (tlyPage site) 4 1)]
  | _ => nop

/-- MIRROR_UPDATE (R420): the mirror takes the value that has arrived. -/
def actMirrorUpdate (site : Nat) : Act := look fun s =>
  match (coreX s site).inbox with
  | .mirror j v :: _ => seq [popInbox site, setCore site (fun x => { x with mirror := setBit x.mirror j v })]
  | _ => nop

/-! ## Waits -/

/-- TLY_WAIT of a site. -/
def waitReg (site : Nat) : Nat := tlyPage site + 0x244
/-- Whether the core waits (TLY_WAIT.pending). -/
def waitPending (s : State) (site : Nat) : Bool := bit (rd s (waitReg site)) 31
/-- TLY_WAIT.kind: 0 TWAIT, 1 TWAITC, 2 CWAIT. -/
def waitKind (s : State) (site : Nat) : Nat := fld (rd s (waitReg site)) 30 29
/-- TLY_WAIT.obj. -/
def waitObj (s : State) (site : Nat) : Nat := fld (rd s (waitReg site)) 7 0
/-- Whether the wait is on a shared flag held in another core. -/
def waitsAway (s : State) (site : Nat) : Bool :=
  decide (waitKind s site < 2) && decide (224 ≤ waitObj s site) && decide (hidxOf s site ≠ 0)

/-- A registration enters the unit that holds the flag, which resolves it (R421, R422). -/
def register (site f hidx : Nat) (clear : Bool) : Act :=
  seq [setCore site (fun x => { x with waiters := x.waiters ++ [⟨f, hidx, clear⟩] }), setShw site f, resolveFlag site f]

/-- WAIT_REGISTER (R421): a registration packet has arrived at the home, or the core's own wait on a flag its unit holds. -/
def actWaitRegister (site : Nat) : Act := look fun s =>
  match (coreX s site).inbox with
  | .register f hidx clear :: _ => seq [popInbox site, register site f hidx clear]
  | _ =>
    let x := coreX s site
    if waitPending s site && decide (waitKind s site < 2) && !waitsAway s site && !x.registered && !x.released then
      seq [setCore site (fun x => { x with registered := true }),
        register site (waitObj s site) (hidxOf s site) (decide (waitKind s site = 1))]
    else nop

/-- The wait's condition has held: the core leaves WAIT and its row may issue (R108, R123). -/
def waitReleased (site : Nat) : Act :=
  seq [setCore site (fun x => { x with released := true, registered := false, cancelling := false,
                                        crossed := x.crossed + b2n x.cancelling }),
    wrBit (waitReg site) 31 false, setCoreState site 3, count (tlyPage site) 1 1]

/-- WAIT_RELEASE (R423, R427): the release has reached the core, or its counter equals the value waited for. -/
def actWaitRelease (site : Nat) : Act := look fun s =>
  let x := coreX s site
  match x.inbox with
  | .release :: _ => seq [popInbox site, act (waitPending s site) (waitReleased site)]
  | _ =>
    if waitPending s site && (x.released ||
        (decide (waitKind s site = 2) &&
          decide (cntValue s site (waitObj s site % 32) = fld (rd s (waitReg site)) 23 8))) then waitReleased site
    else nop

/-- A registered wait of a core leaves the unit that holds its flag, without a release (R425, R139, R433). -/
def withdraw (unit f hidx : Nat) : Act := unregister unit f (fun w => decide (w.hidx = hidx))

/-- A wait has timed out (R124): the core continues at the timeout row without issuing the row's slots. -/
def waitTimedOut (site row : Nat) : Act :=
  seq [setCore site (fun x => { x with registered := false, cancelling := false }), wrBit (waitReg site) 31 false,
    wr (seqPage site + 0x118) (BitVec.ofNat 32 row), setCoreState site 3, count (tlyPage site) 2 1]

/-- The control word of the row at SEQ_PC. -/
def ctlWordAt (s : State) (site : Nat) : Word :=
  BitVec.ofNat 32 ((rodGet s site (fld (rd s (seqPage site + 0x118)) 10 0)).toNat / 2 ^ 96)

/-- WAIT_TIMEOUT (R124, R425): the limit has elapsed unreleased; a wait on a shared flag held elsewhere is cancelled at its home
first. -/
def actWaitTimeout (site : Nat) : Act := look fun s =>
  let x := coreX s site
  let w := ctlWordAt s site
  let limit := fld w 19 11
  if waitPending s site && decide (waitKind s site < 2) && !x.released && !x.cancelling && decide (limit ≠ 0) &&
      decide (1024 * limit ≤ (rd s (tlyPage site + 0x248)).toNat) then
    if waitsAway s site then
      seq [setCore site (fun x => { x with cancelling := true }),
        send0 site (homeOf s site) (.cancel (waitObj s site) (hidxOf s site) (decide (waitKind s site = 1)) false)]
    else seq [withdraw site (waitObj s site) (hidxOf s site), waitTimedOut site (fld w 10 0)]
  else nop

/-- WAIT_CANCEL (R425, R139): a cancellation reaches the home, which answers whether it had released the wait; a TWAITC release that a
faulted core can no longer use sets the flag again. -/
def actWaitCancel (site : Nat) : Act := look fun s =>
  match (coreX s site).inbox, (coreX s site).inboxFrom with
  | .cancel f hidx clear faulted :: _, src :: _ =>
    let still := (coreX s site).waiters.any (fun w => decide (w.flag = f) && decide (w.hidx = hidx))
    seq [popInbox site, withdraw site f hidx,
      if faulted then act (!still && clear) (setFlag site f)
      else send0 site src (.cancelAnswer f clear (!still))]
  | _, _ => nop

/-- WAIT_CANCEL_ANSWER (R425): the home's answer decides whether the wait was satisfied or has timed out; the answer
to a cancellation that a release crossed says nothing new. A core that has faulted since it cancelled returns a TWAITC's release to the
home (R139). -/
def actWaitCancelAnswer (site : Nat) : Act := look fun s =>
  match (coreX s site).inbox with
  | .cancelAnswer f clear released :: _ =>
    seq [popInbox site,
      if 0 < (coreX s site).crossed then setCore site (fun x => { x with crossed := x.crossed - 1 })
      else if (coreX s site).cancelling && waitPending s site then
        (if released then seq [setCore site (fun x => { x with cancelling := false }), waitReleased site] else waitTimedOut site (fld (ctlWordAt s site) 10 0))
      else act (released && clear) (send0 site (homeOf s site) (.tally 0 f 0 0 false 0))]
  | _ => nop

/-! ## Control-window writes -/

/-- A write of TLY_FLAGk or TLY_FCLRk (R424): each 1 sets or clears its flag; shared flags only at their home. -/
def flagWrite (site k : Nat) (v : Word) (set : Bool) : Act := look fun s =>
  if k = 7 ∧ hidxOf s site ≠ 0 then nop
  else each (bitList v.toNat 32) fun j => if set then setFlag site (32 * k + j) else clearFlag site (32 * k + j)

/-- The clearing of a core's tallies (R433). -/
def clearTallies (site : Nat) : Act := look fun s =>
  seq [(if hidxOf s site = 0 then nop
      else match herdAt s site with
        | some h => match siteAt s h 0 with
          | some t => each (List.range 32) fun j => withdraw t (224 + j) (hidxOf s site)
          | none => nop
        | none => nop),
    one (.ctlReset (tlyPage site + 0x100) (tlyPage site + 0x300)),
    setCore site (fun x => { x with registered := false, released := false, cancelling := false, crossed := 0, mirror := 0,
                                    waiters := [], inbox := [], inboxFrom := [] })]

end Sys2Proof.Machine
end

