-- ==== Sys2Proof/Machine/Unified.lean ====
section
/-! DEFINITION. The unified range: home-table entries (R352), the judgement of an access (R356 to R358), reads and writes through it, page moves (R362 to R365), the migration requests (R366 to R373), eviction (R374 to R376), share sets (R368 to R370), far extents (R360, R361) and the prefetch schedule (R377 to R385). -/

namespace Sys2Proof.Machine

/-! ## Home-table entries -/

/-- Device address of the home table (R351, R352). -/
def homeBase (s : State) : Nat := 65536 * rsvBase s
/-- The home-table entry of page p. -/
def homeEntry (s : State) (p : Nat) : DWord := BitVec.ofNat 64 (tableNat s (homeBase s + 8 * p) 8)
/-- The act that writes page p's entry, one indivisible write (R353). -/
def setEntry (p : Nat) (e : DWord) : Act := look fun s => tablePut (homeBase s + 8 * p) 8 e.toNat

/-- The fields of an entry (R352). -/
def eValid (e : DWord) : Bool := bit e 63
/-- 1: homed in the far tier. -/
def eFar (e : DWord) : Bool := bit e 62
/-- 1: a move of the page is in progress. -/
def eMoving (e : DWord) : Bool := bit e 61
/-- 1: never evicted. -/
def ePinned (e : DWord) : Bool := bit e 60
/-- 1: the owning herd may write the page. -/
def eWr (e : DWord) : Bool := bit e 59
/-- 1: the page belongs to a share set. -/
def eShared (e : DWord) : Bool := bit e 58
/-- Owning or creating herd. -/
def eHerd (e : DWord) : Nat := fld e 55 50
/-- Share set. -/
def eSset (e : DWord) : Nat := fld e 49 42
/-- The home field. -/
def eHome (e : DWord) : Nat := fld e 41 16
/-- A far home's extent and page. -/
def eExt (e : DWord) : Nat := fld e 41 34
/-- A far home's page within the extent. -/
def eFarPage (e : DWord) : Nat := fld e 33 16

/-- The bead counter bits [23:8], an entry's touch (R355). -/
def touchNow (s : State) : Nat := fld (beadNo s) 23 8

/-- An entry from its fields. -/
def mkEntry (far pinned wr : Bool) (herd home touch : Nat) : DWord :=
  BitVec.ofNat 64 (2 ^ 63 + 2 ^ 62 * b2n far + 2 ^ 60 * b2n pinned + 2 ^ 59 * b2n wr + 2 ^ 50 * (herd % 64) +
    2 ^ 16 * (home % 2 ^ 26) + touch % 65536)

/-- MIG_SSETs. -/
def ssetReg (t : Nat) : Nat := migPage 0 + 0x800 + 8 * t
/-- Whether herd h is admitted to share set t (R368). -/
def admitted (s : State) (t h : Nat) : Bool := bit (rd64 s (ssetReg t)) h

/-- Whether herd h may read a page (R356 row 3). -/
def readable (s : State) (h : Nat) (e : DWord) : Bool :=
  if eShared e then admitted s (eSset e) h else decide (eHerd e = h)

/-- The first row of R356 that applies to an access by herd h. -/
inductive Judged where
  | waits
  | absent
  | hidden
  | readOnly
  | far (ext page : Nat)
  | frame (f : Nat)
  deriving DecidableEq, Repr

/-- R356: an access by herd h to page p whose entry is e. A page beyond the range is absent. -/
def judgeAs (s : State) (h p : Nat) (e : DWord) (write : Bool) : Judged :=
  if 2 ^ 26 ≤ p then .absent
  else if eValid e && eMoving e then .waits
  else if !eValid e then .absent
  else if !readable s h e then .hidden
  else if write && (!eWr e || eShared e) then .readOnly
  else if eFar e then .far (eExt e) (eFarPage e)
  else .frame (eHome e)

/-- R356: an access by herd h to page p. -/
def judge (s : State) (h p : Nat) (write : Bool) : Judged := judgeAs s h p (homeEntry s p) write

/-- The judgement that stands once a move of the page in progress has ended (R363 keeps the contents). -/
def judgeStill (s : State) (h p : Nat) (write : Bool) : Judged := judgeAs s h p (setBit (homeEntry s p) 61 false) write

/-- Bytes a to a + n − 1 of the range by page: page, first byte in it, number, offset in the run. -/
def pageParts (a n : Nat) : List (Nat × Nat × Nat × Nat) :=
  if n = 0 then [] else
  (List.range ((a + n - 1) / 65536 + 1 - a / 65536)).map fun i =>
    let p := a / 65536 + i
    let lo := max a (65536 * p)
    let hi := min (a + n) (65536 * p + 65536)
    (p, lo - 65536 * p, hi - lo, lo - a)

/-- How the pages of n bytes from address a are judged for a write by herd h. -/
def areaJudged (s : State) (h a n : Nat) : List Judged := (pageParts a n).map (fun p => judge s h p.1 true)

/-- Whether a page is one of the herd's that is writable, in either tier. -/
def writablePage : Judged → Bool
  | .far _ _ => true
  | .frame _ => true
  | _ => false

/-- How an access of a core instruction ends: its bytes, a wait, or a fault with its cause and byte address (R138, R356, R358). -/
inductive Access where
  | ok (bs : List Byte)
  | wait
  | fault (cause addr : Nat)
  deriving DecidableEq, Repr

/-- Whether host port k's link is up (HP_PORT_STAT.up). -/
def hostUp (s : State) (k : Nat) : Bool := bit (rd s (hpPage k + 0x100)) 0

/-- A byte of a far page (log entry 22). -/
def farByte (s : State) (ext page i : Nat) : Byte := mGetD s.farMem (65536 * (262144 * ext + page) + i) 0

/-- Whether a far page can be reached: its extent is registered and not lost, and its host port is up (R358, R532). -/
def farUp (s : State) (ext : Nat) : Bool :=
  match mGet s.extent ext with
  | some x => !x.lost && hostUp s x.port.val
  | none => false

/-- Whether a core's access to a far page completes (R358). FREE VALUE (log entry 14): whether the host serves a DMA request over a port that
is up. -/
def farServes (s : State) (ext : Nat) : Bool := farUp s ext && decide (freeAt s 0 % 2 = 0)

/-- The DMA request of a core's access to a far page leaves with the identity of the page's extent, at the page's host address (R358): a read of
n bytes, or a write. A port that is down takes none. -/
def farRequest (ext page off n : Nat) (data : Option (List Byte)) : Act := look fun s =>
  match mGet s.extent ext with
  | some x =>
    let a := x.base.toNat + 65536 * page + off
    act (farUp s ext) (seq [takeFree 1, one (.out (match data with
      | some bs => .hostWrite x.fn a bs
      | none => .hostRead x.fn a n))])
  | none => nop

/-- One page's part of a core read. -/
def readPart (s : State) (h : Nat) (p : Nat × Nat × Nat × Nat) : Access :=
  let a := 65536 * p.1 + p.2.1
  match judge s h p.1 false with
  | .waits => .wait
  | .absent | .hidden => .fault 0x10 a
  | .readOnly => .fault 0x12 a
  | .far ext page => if farServes s ext then .ok ((List.range p.2.2.1).map (fun i => farByte s ext page (p.2.1 + i)))
      else .fault 0x11 a
  | .frame f => match devRead s (65536 * f + p.2.1) p.2.2.1 with
      | some bs => .ok bs
      | none => .fault 0x11 a

/-- A core read of n bytes of the range by herd h, page by page in ascending order (R356). -/
def urRead (s : State) (h a n : Nat) : Access :=
  (pageParts a n).foldl (fun acc p => match acc with
    | .ok bs => match readPart s h p with
      | .ok cs => .ok (bs ++ cs)
      | r => r
    | r => r) (.ok [])

/-- How a core write of n bytes is judged. -/
def urWriteJudge (s : State) (h a n : Nat) : Access :=
  (pageParts a n).foldl (fun acc p => match acc with
    | .ok bs =>
      let x := 65536 * p.1 + p.2.1
      match judge s h p.1 true with
      | .waits => .wait
      | .absent | .hidden => .fault 0x10 x
      | .readOnly => .fault 0x12 x
      | .far ext _ => if farServes s ext then .ok bs else .fault 0x11 x
      | .frame _ => .ok bs
    | r => r) (.ok [])

/-- The page is touched: its touch is due when the bead bits differ (R355). -/
def touch (p : Nat) : Act := look fun s =>
  act (decide (fld (homeEntry s p) 15 0 ≠ touchNow s)) (one (.touched p (some 1)))

/-- A SECURITY event of R356 for herd h at byte address a; row 3 or 4, requester 0xFF or a function. -/
def rangeSecurity (a h row req : Nat) : Act :=
  raise (migPage 0) { cls := .security, req := req, addr := some a, herd := some h, detail := some row }

/-- The translation of page p for an access of herd h reads its entry at the port that holds it (R392, R394). -/
def entryRead (p h : Nat) : Act := look fun s => act (decide (p < 2 ^ 26)) (tableRead (homeBase s + 8 * p) (some h))

/-- A refusal of row 3 of R356: it counts and raises SECURITY. -/
def hiddenActs (h a : Nat) : Act := seq [count (migPage 0) 6 1, rangeSecurity a h 3 0xFF]

/-- What a judged access to one page leaves behind: the entry's read, and the refusal count and event of rows 3 and 4, or a touch. -/
def judgeActs (h p a : Nat) (write : Bool) : Act := look fun s =>
  seq [entryRead p h, match judge s h p write with
    | .hidden => hiddenActs h a
    | .readOnly => count (migPage 0) 6 1
    | .far _ _ | .frame _ => touch p
    | _ => nop]

/-- The parts of a run up to and including the first that stops it. -/
def reachedUntil (stops : Nat × Nat × Nat × Nat → Bool) (ps : List (Nat × Nat × Nat × Nat)) : List (Nat × Nat × Nat × Nat) :=
  ps.takeWhile (fun p => !stops p) ++ (ps.dropWhile (fun p => !stops p)).take 1
/-- The pages of a run up to and including the first that stops it. -/
def reachedParts (s : State) (h a n : Nat) (write : Bool) : List (Nat × Nat × Nat × Nat) :=
  let stops (p : Nat × Nat × Nat × Nat) : Bool := match (if write then urWriteJudge s h (65536 * p.1 + p.2.1) p.2.2.1
      else readPart s h p) with
    | .ok _ => false
    | _ => true
  reachedUntil stops (pageParts a n)

/-- The effects of a core read besides its bytes: port reads, touches, refusals. -/
def urReadActs (h a n : Nat) (src : Src) : Act := look fun s =>
  each (reachedParts s h a n false) fun p => seq [judgeActs h p.1 (65536 * p.1 + p.2.1) false, look fun s =>
    match judge s h p.1 false with
    | .frame f => devReadActs (65536 * f + p.2.1) p.2.2.1 src (some h)
    | .far ext page => farRequest ext page p.2.1 p.2.2.1 none
    | _ => nop]

/-- The effects of a refused core write: its pages are judged up to the one that stops it, and a request that the host does not serve has
reached the host; nothing else of it has an effect (R150, R157). -/
def urRefusedActs (h a n : Nat) (bs : List Byte) : Act := look fun s =>
  each (reachedParts s h a n true) fun p => seq [judgeActs h p.1 (65536 * p.1 + p.2.1) true, look fun s =>
    match judge s h p.1 true with
    | .far ext page => act (!farServes s ext) (farRequest ext page p.2.1 p.2.2.1 (some ((bs.drop p.2.2.2).take p.2.2.1)))
    | _ => nop]

/-- Bytes written to the range by herd h, already judged writable. -/
def urWrite (h a : Nat) (bs : List Byte) : Act :=
  each (pageParts a bs.length) fun p => look fun s =>
    let part := (bs.drop p.2.2.2).take p.2.2.1
    seq [entryRead p.1 h, touch p.1, match judge s h p.1 true with
      | .frame f => devWrite (65536 * f + p.2.1) part h
      | .far ext page => seq [farRequest ext page p.2.1 p.2.2.1 (some part),
          each part.zipIdx fun q => one (.farMem (65536 * (262144 * ext + page) + p.2.1 + q.2) q.1)]
      | _ => nop]

/-- Row-cache lines that hold bytes of page p are dropped in every core (R359): a line is 128 bytes. -/
def dropLines (p : Nat) : Act := look fun s =>
  each s.core fun c => setCore c.1 (fun x => { x with rowCache := x.rowCache.filter (fun l => decide (l.1 / 512 ≠ p)) })

/-! ## Accounting -/

/-- The herd's block in MIG_ instance 1. -/
def migHerd (h : Nat) : Nat := migPage 1 + 0x200 + 0x20 * h
/-- MIG_HQUOTAh. -/
def quotaOf (s : State) (h : Nat) : Nat := (rd s (migHerd h)).toNat
/-- MIG_HFLOORh. -/
def floorOf (s : State) (h : Nat) : Nat := (rd s (migHerd h + 4)).toNat
/-- MIG_HUSEDh. -/
def usedOf (s : State) (h : Nat) : Nat := (rd s (migHerd h + 8)).toNat
/-- MIG_HPINh. -/
def pinnedOf (s : State) (h : Nat) : Nat := (rd s (migHerd h + 12)).toNat
/-- A counting register moves by an integer. -/
def bump (a : Nat) (d : Int) : Act := look fun s => wr a (BitVec.ofInt 32 ((rd s a).toNat + d))
/-- MIG_FREE moves, and with it the level of BLK_IST.blk bit 8. -/
def bumpFree (d : Int) : Act := seq [bump (migPage 0 + 0x108) d, freeLevel]

/-- Where a listed byte of device memory belongs: the block that its spare serves, or its own. -/
def servedAddr (s : State) (a : Nat) : Option Nat :=
  let b := a / 64
  let n := blkPort b
  if b / 1024 = replFrame s n ∧ b % 1024 < 64 then
    let w := rd s (remapReg n (b % 1024))
    if bit w 31 then some (64 * blkOf n (fld w 29 0) + a % 64) else none
  else if heldAt s b = b then some a else none

/-- Every page with a nonzero entry, in ascending order. -/
def listedPages (s : State) : List Nat :=
  ((s.mem.filterMap (fun c => (servedAddr s c.1).bind (fun a =>
    if homeBase s ≤ a ∧ a < homeBase s + 2 ^ 29 then some ((a - homeBase s) / 8) else none))).eraseDups).mergeSort
    (fun a b => decide (a ≤ b))
/-- Every valid page. -/
def validPages (s : State) : List Nat := (listedPages s).filter (fun p => eValid (homeEntry s p))

/-- The device frames that home a page or are the destination of a move. -/
def usedFrames (s : State) : List Nat :=
  ((validPages s).filter (fun p => !eFar (homeEntry s p))).map (fun p => eHome (homeEntry s p)) ++
    (s.moves.filter (fun m => m.started && !m.far)).map (·.home)

/-- The lowest free usable frame of a port (DESIGN CHOICE, log entry 23: the manual lets any free frame be taken). -/
def freeFrame (s : State) (port : Nat) : Option Nat :=
  let used := usedFrames s
  ((List.range (used.length + 1)).map (fun i => 24 * i + port)).find?
    (fun f => decide (f < rsvBase s) && !used.contains f)

/-- The far pages that home a page or are the destination of a move, as home fields. -/
def usedFar (s : State) : List Nat :=
  ((validPages s).filter (fun p => eFar (homeEntry s p))).map (fun p => eHome (homeEntry s p)) ++
    (s.moves.filter (fun m => m.started && m.far)).map (·.home)

/-- A free far page of herd h, as a home field: the lowest of its lowest extent with space (R361; log entry 23). -/
def freeFar (s : State) (h : Nat) : Option Nat :=
  let used := usedFar s
  (s.extent.filter (fun x => decide (x.2.herd = h) && !x.2.lost)).findSome? fun x =>
    ((List.range (min x.2.pages (used.length + 1))).map (fun i => x.1 * 2 ^ 18 + i)).find? (fun f => !used.contains f)

/-- A page's age in periods of 256 beads (R355). -/
def ageOf (s : State) (p : Nat) : Nat := (touchNow s + 65536 - fld (homeEntry s p) 15 0) % 65536

/-- Whether a prefetch entry of a herd's current step has moved page p into device memory (R375). -/
def pfPage (s : State) (h p : Nat) : Bool := (herdOf s h).any (fun x => x.prefetch.any (fun e => e.moved.contains p))

/-- Whether a move of a page is queued or in progress. -/
def hasMove (s : State) (p : Nat) : Bool := s.moves.any (fun m => decide (m.page = p))

/-- The moves in progress that bring an unshared page of herd h into device memory, or take one out of it. -/
def comingIn (s : State) (h : Nat) : Nat := (s.moves.filter (fun m => m.started && !m.far && decide (m.herd = h) &&
  eFar (homeEntry s m.page) && !eShared (homeEntry s m.page))).length
/-- The moves in progress that take an unshared page of herd h out of device memory. -/
def goingOut (s : State) (h : Nat) : Nat := (s.moves.filter (fun m => m.started && m.far && decide (m.herd = h) &&
  !eFar (homeEntry s m.page) && !eShared (homeEntry s m.page))).length
/-- The pages that are no pinned frames of herd h yet and that its moves will make so (R372). -/
def pinsDue (s : State) (h : Nat) : List Nat := ((s.moves.filter (fun m =>
  let e := homeEntry s m.page
  m.dest.isSome && decide (m.herd = h) && (m.setPinned || ePinned e) && !(ePinned e && !eFar e) && !eShared e)).map (·.page)).eraseDups
/-- Whether the pinned frames of herd h would pass its floor (R372) when pages `ps` become pinned frames too: those on their way are counted
once, and a request that makes none passes nothing. -/
def passesFloor (s : State) (h : Nat) (ps : List Nat) : Bool :=
  let due := pinsDue s h
  let new := ps.filter (fun p => !due.contains p)
  !new.isEmpty && decide (floorOf s h < pinnedOf s h + due.length + new.length)
/-- Whether herd h's quota has room for one page more (R373), the moves in progress counted. -/
def quotaRoom (s : State) (h : Nat) : Bool := decide (usedOf s h + comingIn s h < quotaOf s h)

/-- Of pages, the one of greatest age, ties to the lowest number. -/
def oldest (s : State) (ps : List Nat) : Option Nat :=
  ps.foldl (fun acc p => match acc with
    | none => some p
    | some q => if ageOf s q < ageOf s p then some p else some q) none

/-- Whether a page is on its way out of device memory, or to be pinned, when the moves asked for are done. -/
def spoken (s : State) (p : Nat) : Bool := s.moves.any (fun m => decide (m.page = p) && (m.dest.isNone || m.setPinned))

/-- The pages of herd h that eviction may take: unpinned, unshared, in device memory (R367, R373 to R375); a move asked for between two
ports keeps no page from it. -/
def evictable (s : State) (h : Nat) : List Nat :=
  (validPages s).filter fun p =>
    let e := homeEntry s p
    decide (eHerd e = h) && !eShared e && !ePinned e && !eFar e && !eMoving e && !spoken s p && !pfPage s h p

/-! ## Placing and releasing pages -/

/-- A page's home becomes a frame or a far page; the accounts follow. -/
def chargeDevice (h : Nat) (pinned : Bool) (d : Int) : Act :=
  seq [bump (migHerd h + 8) d, act pinned (bump (migHerd h + 12) d)]

/-- Whether some valid page is homed in extent i. -/
def extentUsed (s : State) (i : Nat) : Bool := (validPages s).any (fun p => eFar (homeEntry s p) && decide (eExt (homeEntry s p) = i))

/-- A lost extent whose herd is gone (64) goes with the last page homed in it. -/
def sweepExtent (i : Nat) : Act := look fun s =>
  act ((mGet s.extent i).any (fun x => x.lost && decide (x.herd = 64)) && !extentUsed s i) (one (.extent i none))

/-- The home of an entry is zeroed or released and returned to the pool (R362 step 6). -/
def releaseHome (e : DWord) : Act :=
  if eFar e then seq [one (.farMemKeep (fun k => decide (k / 65536 ≠ 262144 * eExt e + eFarPage e))), sweepExtent (eExt e)]
  else seq [zeroFrame (eHome e), bumpFree 1]

/-- A valid page becomes invalid and its home is returned (FREE). -/
def freePage (p : Nat) : Act := look fun s =>
  let e := homeEntry s p
  seq [setEntry p 0, dropLines p, releaseHome e,
    act (!eFar e && !eShared e) (chargeDevice (eHerd e) (ePinned e) (-1)), one (.touched p none)]

/-- Copies what a far page or a frame holds to another home, whole blocks at the ports (R395, R398); uncorrectable blocks have been ruled
out. -/
def copyHome (s : State) (e : DWord) (far : Bool) (home : Nat) : Act :=
  if eFar e then
    let k := 65536 * eHome e
    if far then each (s.farMem.filter (fun c => decide (c.1 / 65536 = eHome e))) fun c =>
      one (.farMem (c.1 - k + 65536 * home) c.2)
    else each (List.range 1024) fun j =>
      portWrite (1024 * home + j) ((List.range 64).map (fun i => farByte s (eExt e) (eFarPage e) (64 * j + i)))
  else each (List.range 1024) fun j =>
    let data := (readBlk s (1024 * eHome e + j)).getD []
    if far then each data.zipIdx fun q => one (.farMem (65536 * home + 64 * j + q.2) q.1)
    else portWrite (1024 * home + j) data

/-- Whether the copy of a page reads no uncorrectable error (R364). -/
def copyable (s : State) (e : DWord) : Bool :=
  if eFar e then farUp s (eExt e) else (List.range 1024).all (fun j => (readBlk s (1024 * eHome e + j)).isSome)

/-- The reads that the copy makes at the ports. -/
def copyReads (e : DWord) (herd : Nat) : Act :=
  act (!eFar e) (each (List.range 1024) fun j => portRead (1024 * eHome e + j) .migration (some herd) [])

/-- The copy of page p for herd h read an uncorrectable error (R364). -/
def moveFault (p h : Nat) : Act := seq [count (migPage 0) 5 1, raise (migPage 0) (capOf .uncorrContained 0 (65536 * p) (some h) 0xFF)]

/-- A page placed anew in device memory or the far tier for ALLOC, with zero contents; none when the placement fails (R372, R373). -/
def placeNew (p h : Nat) (port : Option Nat) (wr pinned : Bool) (s : State) : Option (List Upd) :=
  match port with
  | none => (freeFar s h).map (fun f => setEntry p (mkEntry true pinned wr h f (touchNow s)) s)
  | some n =>
    let evict : Option (List Upd) :=
      if quotaRoom s h then some []
      else (oldest s (evictable s h)).bind fun q => (freeFar s h).bind fun f =>
        let e := homeEntry s q
        if copyable s e then
          some (seq [copyReads e h, look fun s => copyHome s e true f,
            setEntry q (mkEntry true false (eWr e) h f (fld e 15 0)), releaseHome e, chargeDevice h false (-1),
            count (migPage 0) 1 1] s)
        else none
    evict.bind fun us =>
      let t := applyAll us s
      (freeFrame t n).map fun f =>
        us ++ seq [setEntry p (mkEntry false pinned wr h f (touchNow s)), zeroFrame f, bumpFree (-1),
          chargeDevice h pinned 1] t

/-- Pages placed one after another; none when one placement fails. -/
def placeAll (h : Nat) (wr pinned : Bool) : List (Nat × Option Nat) → State → Option (List Upd)
  | [], _ => some []
  | q :: qs, s => (placeNew q.1 h q.2 wr pinned s).bind fun us =>
      (placeAll h wr pinned qs (applyAll us s)).map (fun vs => us ++ vs)

/-- What a placement that fails has done: the copy of the page it would evict met an uncorrectable error (R364). -/
def placeFault (h : Nat) (wr pinned : Bool) : List (Nat × Option Nat) → State → List Upd
  | [], _ => []
  | q :: qs, s => match placeNew q.1 h q.2 wr pinned s with
    | some us => placeFault h wr pinned qs (applyAll us s)
    | none => match oldest s (evictable s h) with
      | some p =>
        let e := homeEntry s p
        act (q.2.isSome && !quotaRoom s h && (freeFar s h).isSome && !copyable s e) (seq [copyReads e h, moveFault p h]) s
      | none => []

/-- The destination of page i of a run (R366, R377): 0 far; 1 device, on port; 2 device, striped. -/
def destOf (dest port i : Nat) : Option Nat :=
  if dest = 0 then none else if dest = 1 then some port else some ((port + i) % 24)

/-- Whether a page is homed at a destination. -/
def homedAt (e : DWord) (dest : Option Nat) : Bool :=
  match dest with
  | none => eFar e
  | some n => !eFar e && decide (eHome e % 24 = n)

/-! ## Moves that end -/

/-- Page moves in progress. -/
def movesNow (s : State) : Nat := (s.moves.filter (·.started)).length

/-- MIG_STAT.moves and busy follow the moves. -/
def setMigStat : Act := look fun s =>
  seq [wrFld (migPage 0 + 0x110) 12 8 (movesNow s),
    wrBit (migPage 0 + 0x110) 0 (!s.moves.isEmpty || s.herd.any (fun h => h.2.prefetch.any (fun e => e.started && !e.done)))]

/-- A page move that a herd asked for ends; with the last of its request the command is answered. -/
def moveEnded (m : PageMove) (changed : Bool) : Act := look fun s =>
  act m.explicit_ (match (herdOf s m.herd).bind (·.mig) with
    | none => nop
    | some r =>
      let n := r.changed + b2n changed
      if r.left ≤ 1 then seq [setHerd m.herd (fun y => { y with mig := none }), answer r.asker 0 (BitVec.ofNat 64 n)]
      else setHerd m.herd (fun y => { y with mig := some ⟨r.asker, r.left - 1, n⟩ }))

/-- A queued move is given up, or has nothing to do. -/
def dropMove (m : PageMove) (changed : Bool) : Act := look fun s =>
  seq [one (.moves (s.moves.erase m)), setMigStat, moveEnded m changed]

/-- Whether a free of page p waits for its move (R365). -/
def pendingFree (s : State) (p : Nat) : Bool := s.moves.any (fun m => m.started && decide (m.page = p) && decide (m.after = some none))
/-- The share set into which page p goes once its move has ended (R365). -/
def pendingShare (s : State) (p : Nat) : Option Nat := s.moves.findSome? (fun m => if m.started && decide (m.page = p) then m.after.join else none)
/-- Whether a request finds page p valid: requests act in the order they arrive (R366), so that one freed before, which only waits for its
move, is not. -/
def pageValid (s : State) (p : Nat) : Bool := eValid (homeEntry s p) && !pendingFree s p
/-- Whether a request finds page p shared, by a share that only waits for its move too. -/
def pageShared (s : State) (p : Nat) : Bool := eShared (homeEntry s p) || (pendingShare s p).isSome

/-- Pages become invalid: one that moves once its move has ended (R365); moves of them not yet started are given up. -/
def freePages (ps : List Nat) : Act := seq [
  look fun s => each (s.moves.filter (fun m => !m.started && ps.contains m.page)) (fun m => dropMove m false),
  look fun s => one (.moves (s.moves.map (fun m => if ps.contains m.page then { m with after := some none } else m))),
  look fun s => each (ps.filter (fun p => !eMoving (homeEntry s p))) freePage]

/-- A page becomes shared in set t (R366, R368, R369): it leaves its herd's accounts. -/
def sharePage (t p : Nat) : Act := look fun s =>
  let e := homeEntry s p
  seq [setEntry p (setFld (setBit e 58 true) 49 42 t), dropLines p,
    act (!eFar e) (chargeDevice (eHerd e) (ePinned e) (-1))]

/-- The free or share that waited for a page's move takes effect (R365). -/
def moveAfter (m : PageMove) : Act := look fun s =>
  act (eValid (homeEntry s m.page)) (match m.after with
    | some none => freePage m.page
    | some (some t) => sharePage t m.page
    | none => nop)

/-- A move is given up: its page keeps the home it had, and a frame taken for it returns to the pool. -/
def cancelMove (m : PageMove) : Act := look fun s =>
  seq [act (m.started && !m.far) (bumpFree 1), act m.started (setEntry m.page (setBit (homeEntry s m.page) 61 false)), moveAfter m,
    dropMove m false]

/-! ## Requests -/

/-- Whether a run of pages and its destination are in range. -/
def runOk (page n dest port : Nat) : Bool :=
  decide (1 ≤ n) && decide (page + n ≤ 2 ^ 26) && decide (dest < 3) && decide (port < 24)

/-- A page of the run that another herd owns, or that the request cannot name: refused whole (R366). -/
def foreign (s : State) (h p : Nat) : Bool := eValid (homeEntry s p) && decide (eHerd (homeEntry s p) ≠ h)

/-- The pages of a run. -/
def runPages (page n : Nat) : List Nat := (List.range n).map (page + ·)

/-- The first word of a MIG command's parameters (R514). -/
def migWord (code : Nat) (second wr pinned : Bool) (dest port set herd : Nat) : Nat :=
  code + 256 * b2n second + 512 * b2n wr + 1024 * b2n pinned + 2048 * (dest % 4) + 8192 * (port % 32) + 262144 * (set % 256) +
    67108864 * (herd % 64)

/-- A MIG command's parameters. -/
def migParams (w0 page n : Nat) : List Byte := leBytes 4 w0 ++ leBytes 4 page ++ leBytes 4 n

/-- What a migration request does: refused whole, or its act and how many pages change. -/
abbrev MigReq := Nat → State → Option (Act × Nat)

/-- The page moves that herd h asked for and that have not ended. -/
def askedMoves (s : State) (h : Nat) : Nat := (s.moves.filter (fun m => m.explicit_ && decide (m.herd = h))).length

/-- A migration request of herd h is served (R366): the command is answered when its page moves have ended, with the pages changed
(R514; DEDUCED, log entry 19). `reads`: the pages whose entries the engine reads; `refused`: what a refused request has done besides. -/
def migServe (a : Asker) (h : Nat) (inRange : Bool) (reads : List Nat) (refused : Nat → Act) (body : MigReq) : Act :=
  if !inRange then answer a 2 0
  else seq [each reads (fun p => entryRead p h), look fun s => match body h s with
    | none => seq [refused h, answer a 8 0]
    | some (x, n) => seq [x, look fun s =>
        if askedMoves s h = 0 then answer a 0 (BitVec.ofNat 64 n)
        else setHerd h (fun y => { y with mig := some ⟨a, askedMoves s h, n - askedMoves s h⟩ })]]

/-- A migration request of a function. -/
def migRequest (c : CmdId) (failedToo : Bool) (w0 page n : Nat) (inRange : Bool) (reads : List Nat) (refused : Nat → Act) (body : MigReq) :
    Act :=
  herdCmd c 0x10 (migParams w0 page n) failedToo fun a h => migServe a h inRange reads refused body

/-- A refused request has done nothing. -/
def noneRefused (_ : Nat) : Act := nop

/-- Where ALLOC and MOVE send the pages of a run. -/
def runDests (page n dest port : Nat) : List (Nat × Option Nat) := (List.range n).map (fun i => (page + i, destOf dest port i))

/-- ALLOC. DEDUCED (log entry 24): a pinned page asked for in the far tier is a pinned far page, which is no pinned frame (R372). -/
def migAlloc (page n dest port : Nat) (wr pinned : Bool) : MigReq := fun h s =>
    if (runPages page n).any (fun p => eValid (homeEntry s p)) || (pinned && decide (dest ≠ 0) && passesFloor s h (runPages page n)) then none
    else (placeAll h wr pinned (runDests page n dest port) s).map (fun us => ((fun _ => us), n))

/-- What a refused ALLOC has done: a placement may have failed at a page that could not be evicted (R364, R373). -/
def allocRefused (page n dest port : Nat) (wr pinned : Bool) (h : Nat) : Act := fun s =>
  if (runPages page n).any (fun p => eValid (homeEntry s p)) || (pinned && decide (dest ≠ 0) && passesFloor s h (runPages page n)) then []
  else placeFault h wr pinned (runDests page n dest port) s

/-- ALLOC as a host command. -/
def actAlloc (c : CmdId) (page n dest port : Nat) (wr pinned : Bool) : Act :=
  migRequest c false (migWord 1 false wr pinned dest port 0 0) page n (runOk page n dest port) (runPages page n)
    (allocRefused page n dest port wr pinned) (migAlloc page n dest port wr pinned)

/-- FREE (R365, R366). -/
def migFree (page n : Nat) : MigReq := fun h s =>
    let ps := (runPages page n).filter (pageValid s)
    if ps.any (fun p => foreign s h p || pageShared s p) then none
    else some (freePages ps, ps.length)

/-- FREE as a host command. -/
def actFree (c : CmdId) (page n : Nat) : Act :=
  migRequest c true (migWord 2 false false false 0 0 0 0) page n (runOk page n 1 0) (runPages page n)
    noneRefused (migFree page n)

/-- A move is asked for: by a request, or by an entry of the herd's prefetch schedule. -/
def askMove (p h : Nat) (dest : Option Nat) (explicit pin : Bool) (entry : Option Nat) : Act := look fun s =>
  one (.moves (s.moves ++ [⟨p, h, dest, explicit, pin, 0, false, false, none, entry⟩]))

/-- Whether a page has nothing to do for a destination: it is homed there and no move of it is asked for (R365). -/
def atDest (s : State) (q : Nat × Option Nat) : Bool := homedAt (homeEntry s q.1) q.2 && !hasMove s q.1

/-- MOVE: the run's pages that are not at their destination are queued for the migration engine (log entry 19); refused when the pinned
pages it brings into device memory would pass the floor (R372). The creator of a share set may move its pages (R366, R369). -/
def migMove (page n dest port : Nat) : MigReq := fun h s =>
    let qs := runDests page n dest port
    let todo := qs.filter (fun q => !atDest s q)
    let back := todo.filter (fun q => q.2.isSome && ePinned (homeEntry s q.1) && eFar (homeEntry s q.1) && !eShared (homeEntry s q.1))
    if qs.any (fun q => !pageValid s q.1 || foreign s h q.1) || passesFloor s h (back.map (·.1)) then none
    else some (each todo (fun q => askMove q.1 h q.2 true false none), todo.length)

/-- MOVE as a host command. -/
def actMove (c : CmdId) (page n dest port : Nat) : Act :=
  migRequest c false (migWord 3 false false false dest port 0 0) page n (runOk page n dest port)
    (runPages page n) noneRefused (migMove page n dest port)

/-- PIN (R366, R367, R372): a far page moves into device memory first, on a port the manual leaves open (a free value, log
entry 14); a page that moves waits for the move's end (R365). -/
def migPin (page n : Nat) : MigReq := fun h s =>
    let ps := runPages page n
    let todo := ps.filter (fun p => !ePinned (homeEntry s p) || eFar (homeEntry s p))
    if ps.any (fun p => !pageValid s p || foreign s h p || pageShared s p) || passesFloor s h todo then none
    else some (seq [
      each todo fun p => look fun s =>
        let e := homeEntry s p
        if eFar e || eMoving e then seq [askMove p h (some (freeAt s 0 % 24)) true true none, takeFree 1]
        else seq [setEntry p (setBit e 60 true), bump (migHerd h + 12) 1]], todo.length)

/-- PIN as a host command. -/
def actPin (c : CmdId) (page n : Nat) : Act :=
  migRequest c false (migWord 4 false false false 0 0 0 0) page n (runOk page n 1 0) (runPages page n)
    noneRefused (migPin page n)

/-- UNPIN. -/
def migUnpin (page n : Nat) : MigReq := fun h s =>
    let ps := runPages page n
    let todo := ps.filter (fun p => ePinned (homeEntry s p))
    if ps.any (fun p => !pageValid s p || foreign s h p || pageShared s p) then none
    else some (seq [
      one (.moves (s.moves.map (fun m => if ps.contains m.page then { m with setPinned := false } else m))),
      each todo fun p => look fun s =>
        seq [setEntry p (setBit (homeEntry s p) 60 false), act (!eFar (homeEntry s p)) (bump (migHerd h + 12) (-1))]], todo.length)

/-- UNPIN as a host command. -/
def actUnpin (c : CmdId) (page n : Nat) : Act :=
  migRequest c false (migWord 4 true false false 0 0 0 0) page n (runOk page n 1 0) (runPages page n)
    noneRefused (migUnpin page n)

/-- PROT. -/
def migProt (page n : Nat) (wrb : Bool) : MigReq := fun h s =>
    let ps := runPages page n
    let todo := ps.filter (fun p => decide (eWr (homeEntry s p) ≠ wrb))
    if ps.any (fun p => !pageValid s p || foreign s h p || pageShared s p) then none
    else some (each todo fun p => look fun s => setEntry p (setBit (homeEntry s p) 59 wrb), todo.length)

/-- PROT as a host command. -/
def actProt (c : CmdId) (page n : Nat) (wrb : Bool) : Act :=
  migRequest c false (migWord 5 false wrb false 0 0 0 0) page n (runOk page n 1 0) (runPages page n)
    noneRefused (migProt page n wrb)

/-- SHARE. -/
def migShare (page n : Nat) (t : BitVec 8) : MigReq := fun h s =>
    let ps := runPages page n
    let owner := mGet s.ssetOwner t.toNat
    if ps.any (fun p => !pageValid s p || foreign s h p || pageShared s p) ||
        (owner.isSome && decide (owner ≠ some h)) then none
    else some (seq [
      one (.ssetOwner t.toNat (some h)),
      look fun s => wr64 (ssetReg t.toNat) (setBit (rd64 s (ssetReg t.toNat)) h true),
      one (.moves (s.moves.map (fun m =>
        if m.started && ps.contains m.page then { m with after := some (some t.toNat) } else m))),
      each (ps.filter (fun p => !eMoving (homeEntry s p))) (sharePage t.toNat)], n)

/-- SHARE as a host command. -/
def actShare (c : CmdId) (page n : Nat) (t : BitVec 8) : Act :=
  migRequest c false (migWord 6 false false false 0 0 t.toNat 0) page n (runOk page n 1 0) (runPages page n)
    noneRefused (migShare page n t)

/-- R370: a set whose mask is 0 frees its pages, those that only wait for their move's end among them, and its number may be used again. -/
def freeEmptySet (t : Nat) : Act := look fun s =>
  if rd64 s (ssetReg t) = 0 && (mGet s.ssetOwner t).isSome then
    seq [freePages ((validPages s).filter (fun p => (eShared (homeEntry s p) && decide (eSset (homeEntry s p) = t)) ||
        decide (pendingShare s p = some t))),
      one (.ssetOwner t none)]
  else nop

/-- A herd's bit in a share set is set or cleared (R366, R359): a revocation drops the set's row-cache lines. -/
def setMember (t h : Nat) (inSet : Bool) : Act := look fun s =>
  seq [wr64 (ssetReg t) (setBit (rd64 s (ssetReg t)) h inSet),
    act (!inSet) (each ((validPages s).filter (fun p => eShared (homeEntry s p) && decide (eSset (homeEntry s p) = t)))
      dropLines),
    freeEmptySet t]

/-- ADMIT: accepted only from the herd that created the set. -/
def migAdmit (t : BitVec 8) (g : HerdNo) : MigReq := fun h s =>
    if mGet s.ssetOwner t.toNat = some h then some (setMember t.toNat g.val true, 0) else none

/-- ADMIT as a host command. -/
def actAdmitHerd (c : CmdId) (t : BitVec 8) (g : HerdNo) : Act :=
  migRequest c false (migWord 7 false false false 0 0 t.toNat g.val) 0 0 (true) [] noneRefused (migAdmit t g)

/-- REVOKE. -/
def migRevoke (t : BitVec 8) (g : HerdNo) : MigReq := fun h s =>
    if mGet s.ssetOwner t.toNat = some h then some (setMember t.toNat g.val false, 0) else none

/-- REVOKE as a host command. -/
def actRevoke (c : CmdId) (t : BitVec 8) (g : HerdNo) : Act :=
  migRequest c false (migWord 7 true false false 0 0 t.toNat g.val) 0 0 (true) [] noneRefused (migRevoke t g)

/-! ## Page moves -/

/-- Whether a queued move waits for a frame of its herd's quota that a page on its way out will leave (R373). -/
def waitsRoom (s : State) (m : PageMove) : Bool :=
  let e := homeEntry s m.page
  m.dest.isSome && eFar e && !eShared e && !quotaRoom s m.herd && decide (usedOf s m.herd + comingIn s m.herd < quotaOf s m.herd + goingOut s m.herd)

/-- Whether a queued move can start: its page is not moving (R365). -/
def moveReady (s : State) (m : PageMove) : Bool :=
  !m.started && !(s.moves.any (fun k => k.started && decide (k.page = m.page))) && !waitsRoom s m

/-- How far behind the herd whose move started last a herd stands in the rotation (R365, R378). -/
def turnOf (s : State) (m : PageMove) : Nat := (m.herd + 127 - s.moveTurn) % 64

/-- The queued move that the engine starts next: the herds take turns, and one herd's moves go in the order they were asked for. -/
def nextMove (s : State) : Option PageMove :=
  (s.moves.filter (moveReady s)).foldl (fun acc m => match acc with
    | none => some m
    | some k => if turnOf s m < turnOf s k then some m else some k) none

/-- The first of equal queued moves is replaced. -/
def setMove (m n : PageMove) : List PageMove → List PageMove
  | [] => []
  | k :: ks => if k = m then n :: ks else k :: setMove m n ks

/-- A queued move starts at a destination (R362 steps 1 to 3). -/
def startMove (m : PageMove) (far : Bool) (home : Nat) : Act := look fun s =>
  seq [entryRead m.page m.herd, one (.moves (setMove m { m with started := true, far := far, home := home } s.moves)), one (.moveTurn m.herd),
    setEntry m.page (setBit (homeEntry s m.page) 61 true), act (!far) (bumpFree (-1)), setMigStat]

/-- PAGE_MOVE (R362, R363, R367, R368, R373): with fewer than 16 moves in progress, the engine takes the next queued move, that of a shared
page too, which counts as pinned; a fenced engine starts none (R37). -/
def actPageMove : Act := look fun s =>
  match nextMove s with
  | none => nop
  | some m =>
    let e := homeEntry s m.page
    if decide (16 ≤ movesNow s) || fenced s (migPage 0) then nop
    else if !eValid e || decide (eHerd e ≠ m.herd) then seq [entryRead m.page m.herd, dropMove m false]
    else if homedAt e m.dest || (m.setPinned && !eFar e) then
      seq [entryRead m.page m.herd, act m.setPinned (setEntry m.page (setBit e 60 true)),
        act (m.setPinned && !ePinned e && !eShared e) (bump (migHerd m.herd + 12) 1),
        dropMove m (m.setPinned && !ePinned e)]
    else match m.dest with
      | none => if (ePinned e || eShared e) && !m.explicit_ then dropMove m false
        else match freeFar s m.herd with
          | some f => startMove m true f
          | none => dropMove m false
      | some n =>
        if eFar e && !eShared e && !quotaRoom s m.herd then
          match oldest s (evictable s m.herd), freeFar s m.herd with
          | some q, some f =>
            let k : PageMove := ⟨q, m.herd, none, false, false, 0, false, false, none, none⟩
            seq [one (.moves (s.moves ++ [k])), startMove k true f]
          | _, _ => dropMove m false
        else match freeFrame s n with
          | some f => startMove m false f
          | none => dropMove m false

/-- The slot a move counts in (MIG_ instance 0 slots 0–2). -/
def moveSlot (e : DWord) (far : Bool) : Nat := if eFar e then 0 else if far then 1 else 2

/-- The act that changes entry i of the herd's current step. -/
def setPf (h i : Nat) (f : PfEntry → PfEntry) : Act :=
  setHerd h (fun x => { x with prefetch := x.prefetch.map (fun e => if e.index = i then f e else e) })

/-- A moved page's accounts follow its home: it was and is a device page, pinned or not (MIG_HUSED, MIG_HPIN). -/
def moveCharge (h : Nat) (was is_ wasPin isPin : Bool) : Act :=
  seq [act (was != is_) (bump (migHerd h + 8) (if is_ then 1 else -1)),
    act ((was && wasPin) != (is_ && isPin)) (bump (migHerd h + 12) (if is_ && isPin then 1 else -1))]

/-- PAGE_MOVE_DONE (R362 steps 4 to 6, R364, R365): the page switches to its new home, or stays where an uncorrectable error was
read. -/
def actPageMoveDone (p : Nat) : Act := look fun s =>
  match s.moves.find? (fun m => m.started && decide (m.page = p)) with
  | none => nop
  | some m =>
    let e := homeEntry s p
    let done := setBit e 61 false
    let pin := ePinned e || m.setPinned
    seq [
      (if copyable s e then
        seq [copyReads e m.herd, look fun s => copyHome s e m.far m.home,
          setEntry p (setBit (setFld (setFld (setBit done 62 m.far) 41 16 m.home) 15 0
            (if m.far then fld e 15 0 else touchNow s)) 60 pin),
          releaseHome e,
          act (!eShared e) (moveCharge m.herd (!eFar e) (!m.far) (ePinned e) pin),
          act (decide (eFar e ≠ m.far) || !m.far) (count (migPage 0) (moveSlot e m.far) 1),
          act (!m.far) (match m.entry with
            | some i => setPf m.herd i (fun x => { x with moved := x.moved ++ [p] })
            | none => nop)]
      else
        seq [copyReads e m.herd, setEntry p done, act (!m.far) (bumpFree 1), moveFault p m.herd]),
      moveAfter m, dropMove m (copyable s e)]

/-- TOUCH_WRITE (R355): a touched page's touch takes the current bead bits. -/
def actTouchWrite (p : Nat) : Act := look fun s =>
  let e := homeEntry s p
  if (mGet s.touched p).isSome then
    seq [act (eValid e) (setEntry p (setFld e 15 0 (touchNow s))), one (.touched p none)]
  else nop

/-- The moves asked for that take an unshared page of herd h out of device memory. -/
def leaving (s : State) (h : Nat) : Nat := (s.moves.filter (fun m => m.dest.isNone && decide (m.herd = h) &&
  !eFar (homeEntry s m.page) && !eShared (homeEntry s m.page))).length

/-- The frames that the evictions and other moves to the far tier asked for will free. -/
def framesDue (s : State) : Nat := (s.moves.filter (fun m => m.dest.isNone && !eFar (homeEntry s m.page))).length

/-- The page that eviction under R374 takes next. -/
def evictNext (s : State) : Option Nat :=
  oldest s (((s.herd.filter (fun h => decide (floorOf s h.1 + leaving s h.1 < usedOf s h.1) && (freeFar s h.1).isSome)).flatMap
    (fun h => evictable s h.1)).mergeSort (fun a b => decide (a ≤ b)))

/-- EVICT (R374, R376): from the low watermark until the high one, pages move to the far tier; with none to take below the low
watermark and none on its way, eviction is stalled. A fenced engine takes none (R37). -/
def actEvict : Act := look fun s =>
  let w := rd s (migPage 0 + 0x10C)
  let running := bit (rd s (migPage 0 + 0x110)) 1
  let low := decide (freeFrames s < 16 * fld w 15 0)
  let want := low || (running && decide (freeFrames s < 16 * fld w 31 16))
  if fenced s (migPage 0) then nop
  else if !want then seq [wrFld (migPage 0 + 0x110) 2 1 0]
  else if 16 * fld w 31 16 ≤ freeFrames s + framesDue s then wrFld (migPage 0 + 0x110) 2 1 1
  else match evictNext s with
    | some p => seq [wrFld (migPage 0 + 0x110) 2 1 1,
        askMove p (eHerd (homeEntry s p)) none false false none, setMigStat]
    | none => if low && decide (framesDue s = 0) then seq [wrFld (migPage 0 + 0x110) 2 1 3, setIst (migPage 0) 9]
      else wrFld (migPage 0 + 0x110) 2 1 (b2n low)

/-- A write of MIG_HFLOORh (R371). -/
def hfloorWrite (r : Requester) (h : Nat) (v : Word) : Act := look fun s =>
  let new := fld v 25 0
  let others := ((List.range 64).filter (fun g => decide (g ≠ h))).foldl (fun a g => a + floorOf s g) 0
  let shared := ((validPages s).filter (fun p => eShared (homeEntry s p) && !eFar (homeEntry s p))).length
  if rsvBase s < others + new + shared ∨ new < pinnedOf s h then protocolAt (migPage 1) r
  else wr (migHerd h + 4) (BitVec.ofNat 32 new)

/-- A write of MIG_WMARK: discarded, with PROTOCOL, when low is above high. -/
def wmarkWrite (r : Requester) (v : Word) : Act :=
  if fld v 31 16 < fld v 15 0 then protocolAt (migPage 0) r
  else seq [wr (migPage 0 + 0x10C) v, bumpFree 0]

/-- A write of MIG_HPFh (words 0 and 1) or MIG_HPF_CTRLh (word 2) (R385). -/
def hpfWrite (r : Requester) (h w : Nat) (v : Word) : Act := look fun s =>
  let on := bit (rd s (migHerd h + 0x18)) 31
  if on && decide (w = 2) && !bit v 31 then setHerd h (fun x => { x with hpfPend := some v })
  else if on then protocolAt (migPage 1) r
  else maskWrite (.mig 1) (migHerd h + 0x10 + 4 * w) v

/-! ## Prefetch -/

/-- The byte address of schedule entry i of herd h (R377). -/
def pfAddr (s : State) (h i : Nat) : Nat := (rd64 s (migHerd h + 0x10)).toNat + 32 * i

/-- The eight words of schedule entry i as the migration engine reads them at a step boundary; a page that moves keeps its contents (R363).
None where they cannot be read. -/
def pfRead (s : State) (h i : Nat) : Option (List Word) :=
  let a := pfAddr s h i
  match judgeStill s h (a / 65536) false with
  | .frame f => (devRead s (65536 * f + a % 65536) 32).map (leWords 8)
  | .far ext page => if farUp s ext then some (leWords 8 ((List.range 32).map (fun j => farByte s ext page (a % 65536 + j)))) else none
  | _ => none

/-- What that read does besides: its port read, or the refusal of R356 row 3. -/
def pfReadActs (h i : Nat) : Act := look fun s =>
  let a := pfAddr s h i
  seq [entryRead (a / 65536) h, match judgeStill s h (a / 65536) false with
    | .frame f => devReadActs (65536 * f + a % 65536) 32 .migration (some h)
    | .hidden => seq [count (migPage 0) 6 1, rangeSecurity a h 3 0xFF]
    | _ => nop]

/-- Field [hi:lo] of word k of an entry. -/
def wf (ws : List Word) (k hi lo : Nat) : Nat := fld (ws.getD k 0) hi lo

/-- Whether an entry's reserved fields, ranges and pages are wrong (R382). -/
def pfError (s : State) (h : Nat) (ws : List Word) : Bool :=
  let page := wf ws 0 25 0
  let n := wf ws 1 15 0
  decide (wf ws 0 31 26 ≠ 0) || decide (wf ws 1 31 23 ≠ 0) || decide (wf ws 3 31 28 ≠ 0) || decide (wf ws 4 31 17 ≠ 0) ||
    decide (ws.getD 5 0 ≠ 0) || decide (ws.getD 6 0 ≠ 0) || decide (ws.getD 7 0 ≠ 0) ||
    decide (n = 0) || decide (2 ^ 26 < page + n) || decide (wf ws 1 17 16 = 3) || decide (23 < wf ws 1 22 18) ||
    decide (wf ws 2 31 16 ≤ wf ws 2 15 0) || (decide (wf ws 3 1 0 = 0) && decide (wf ws 3 9 2 = 0)) ||
    (runPages page n).any (fun p => !eValid (homeEntry s p) || decide (eHerd (homeEntry s p) ≠ h))

/-- Whether every page of an entry is homed at its destination (R379). -/
def pfHomed (s : State) (ws : List Word) : Bool :=
  (List.range (wf ws 1 15 0)).all fun i =>
    let e := homeEntry s (wf ws 0 25 0 + i)
    eValid e && homedAt e (destOf (wf ws 1 17 16) (wf ws 1 22 18) i) && !eMoving e

/-- Whether an entry is done: marked so, or every page of it is homed at its destination (R379). -/
def pfDone (s : State) (e : PfEntry) : Bool := e.done || (!e.dead && pfHomed s e.words)

/-- An entry misses (R380 to R382). -/
def pfMiss (h : Nat) (e : PfEntry) : Act :=
  let ws := e.words
  seq [setPf h e.index (fun x => { x with missed := true }), count (migPage 0) 4 1, setIst (migPage 0) 11,
    wr (migHerd h + 0x1C) (BitVec.ofNat 32 ((if wf ws 4 16 16 = 1 then wf ws 4 15 0 else 0) * 65536 + e.index)),
    act (decide (wf ws 3 27 27 = 1)) (flagAll .mig h (wf ws 3 25 18) 0),
    look fun s => act (decide (wf ws 3 1 0 = 1)) (one (.moves (s.moves.filter (fun m => m.started ||
      decide (m.herd ≠ h) || decide (m.entry ≠ some e.index)))))]

/-- What the opening of step slot k does for entry i (R378, R380): it starts, it counts as done by its deadline (as the manual's example
counts it, at the deadline slot), or it misses. -/
def pfSlot (h k i : Nat) : Act := look fun s =>
  match (herdOf s h).bind (fun x => x.prefetch.find? (fun e => decide (e.index = i))) with
  | none => nop
  | some e =>
    let ws := e.words
    let due := wf ws 2 31 16 + (if wf ws 3 1 0 = 0 then wf ws 3 9 2 else 0)
    act (!e.dead) (seq [
      act (!e.started && decide (wf ws 2 15 0 ≤ k)) (seq [setPf h i (fun x => { x with started := true }),
        each (List.range (wf ws 1 15 0)) fun j => look fun s =>
          let q := (wf ws 0 25 0 + j, destOf (wf ws 1 17 16) (wf ws 1 22 18) j)
          act (!atDest s q) (askMove q.1 h q.2 false false (some i))]),
      act (!e.judged && decide (wf ws 2 31 16 ≤ k)) (seq [setPf h i (fun x => { x with judged := true }),
        act (pfDone s e) (count (migPage 0) 3 1)]),
      act (!e.missed && decide (due ≤ k) && !pfDone s e) (pfMiss h e)])

/-- Step slot k of herd h opens (R377): every entry is looked at in array order. -/
def openSlot (h k : Nat) : Act := look fun s =>
  match herdOf s h with
  | none => nop
  | some x => if x.parked || x.eval.any (fun e => decide (e.phase ≠ 0)) then nop
    else seq [setHerd h (fun x => { x with stepSlot := k }), each (x.prefetch.map (·.index)) (pfSlot h k), setMigStat]

/-- A schedule entry is read (R378) and judged (R382): an entry error raises PROTOCOL and misses at once. DESIGN CHOICE (log entry 129): an
entry that cannot be read moves no page and raises nothing here. -/
def pfBegin (h i : Nat) : Act := look fun s =>
  let ws := pfRead s h i
  let bad := ws.any (fun w => pfError s h w)
  let e : PfEntry := ⟨i, ws.getD [], ws.isNone || bad, false, false, false, false, []⟩
  seq [setHerd h (fun x => { x with prefetch := x.prefetch ++ [e] }), pfReadActs h i,
    act bad (seq [raise (migPage 0) { cls := .protocol, herd := some h, detail := some 0xFF }, setIst (migPage 0) 10, pfMiss h e])]

/-- The step of herd h that ends, for the migration engine (R383): entries not done count as missed; their moves in progress go on, and the
pages not yet started are not moved. An entry done before its deadline slot opened counts as done by it. -/
def pfStepEnd (h : Nat) : Act := look fun s =>
  match herdOf s h with
  | none => nop
  | some x => seq [count (migPage 0) 4 (x.prefetch.filter (fun e => !e.missed && !pfDone s e)).length,
      count (migPage 0) 3 (x.prefetch.filter (fun e => !e.missed && !e.judged && pfDone s e)).length,
      one (.moves ((s.moves.filter (fun m => m.started || m.entry.isNone || decide (m.herd ≠ h))).map
        (fun m => if m.herd = h then { m with entry := none } else m)))]

/-- A step boundary of herd h for the migration engine (R378, R383, R385): a write that clears MIG_HPF_CTRLh.en takes effect, the schedule is
read afresh, and slot 0 opens. -/
def pfStepBoundary (h : Nat) : Act := look fun s =>
  match herdOf s h with
  | none => nop
  | some x => seq [pfStepEnd h,
      (match x.hpfPend with
        | some v => maskWrite (.mig 1) (migHerd h + 0x18) v
        | none => nop),
      setHerd h (fun x => { x with hpfPend := none, prefetch := [] }),
      look fun s => let c := rd s (migHerd h + 0x18)
        act (bit c 31) (each (List.range (fld c 15 0)) (pfBegin h)),
      openSlot h 0]

/-- PREFETCH_DONE (R379): an entry whose pages are all at their destination is done, before its transfer may start too, and its flag is set. -/
def actPrefetchDone (h i : Nat) : Act := look fun s =>
  match (herdOf s h).bind (fun x => x.prefetch.find? (fun e => decide (e.index = i))) with
  | some e =>
    let ws := e.words
    act (!e.done && pfDone s e) (seq [setPf h i (fun e => { e with done := true }),
      act (decide (wf ws 3 26 26 = 1)) (flagAll .mig h (wf ws 3 17 10) 0), setMigStat])
  | none => nop

/-! ## Far extents and BAR2 -/

/-- EXT_REG (R360): the lowest free extent is registered for the herd, through the function's host port; its pages read as host memory,
which the model starts at zero (log entry 22). -/
def actExtReg (c : CmdId) (base : DWord) (pages : Nat) : Act :=
  herdCmd c 0x11 (leBytes 8 base.toNat ++ leBytes 4 (pages - 1)) false fun a h => look fun s =>
    if base.toNat % 65536 ≠ 0 ∨ pages = 0 ∨ 262144 < pages then answer a 2 0
    else match (List.range 256).find? (fun i => (mGet s.extent i).isNone) with
      | none => answer a 1 0
      | some i => seq [one (.extent i (some ⟨base, pages, ⟨c.fn.val / 16, by omega⟩, c.fn, h, false⟩)),
          answer a 0 (BitVec.ofNat 64 i)]

/-- An extent is withdrawn (R361): pages homed in it become invalid, losing their home. -/
def dropExtent (i : Nat) : Act := look fun s =>
  let homed (p : Nat) : Bool := eFar (homeEntry s p) && decide (eExt (homeEntry s p) = i)
  seq [each ((validPages s).filter homed) (fun p => seq [setEntry p 0, dropLines p, one (.touched p none)]),
    each (s.moves.filter (fun m => m.started && ((m.far && decide (m.home / 2 ^ 18 = i)) || homed m.page))) cancelMove,
    one (.farMemKeep (fun k => decide (k / 65536 / 262144 ≠ i))), one (.extent i none)]

/-- An extent is lost with its host port (R532): the pages homed in it keep their entries, and accesses to them fault with cause 0x11. -/
def loseExtent (i : Nat) : Act := look fun s =>
  let homed (p : Nat) : Bool := eFar (homeEntry s p) && decide (eExt (homeEntry s p) = i)
  seq [each ((validPages s).filter homed) dropLines,
    each (s.moves.filter (fun m => m.started && ((m.far && decide (m.home / 2 ^ 18 = i)) || homed m.page))) cancelMove,
    one (.farMemKeep (fun k => decide (k / 65536 / 262144 ≠ i))),
    match mGet s.extent i with
    | some x => one (.extent i (some { x with lost := true }))
    | none => nop]

/-- An extent's herd is destroyed: a lost extent in which a shared page is still homed stays, of no herd; any other is withdrawn. -/
def leaveExtent (i : Nat) : Act := look fun s =>
  match mGet s.extent i with
  | some x => if x.lost && extentUsed s i then one (.extent i (some { x with herd := 64 })) else dropExtent i
  | none => nop

/-- EXT_DEREG (R361): the extent is withdrawn; when a page was homed in it the herd fails with reason 3. -/
def actExtDereg (c : CmdId) (i : BitVec 8) : Act :=
  herdCmd c 0x12 (leBytes 4 i.toNat) false fun a h => look fun s =>
    match mGet s.extent i.toNat with
    | some x =>
      if x.herd ≠ h then answer a 2 0
      else
        let lost := (validPages s).any (fun p => eFar (homeEntry s p) && decide (eExt (homeEntry s p) = i.toNat))
        seq [dropExtent i.toNat, act lost (failHerd h 3), answer a 0 0]
    | none => answer a 2 0

/-- The bytes a BAR2 read returns, or none for Unsupported Request (R356, R357). -/
def bar2Data (s : State) (f : FnNo) (off len : Nat) : Option (List Byte) :=
  match herdOfFn s f with
  | none => none
  | some h =>
    let a := bar2Base s f.val + off
    if 2 ^ 42 < a + len then none
    else (pageParts a len).foldl (fun acc p => acc.bind fun bs =>
      match judge s h p.1 false with
      | .frame fr => (devRead s (65536 * fr + p.2.1) p.2.2.1).map (bs ++ ·)
      | _ => none) (some [])

/-- Whether every byte of a BAR2 access waits on no moving page. -/
def bar2Waits (s : State) (f : FnNo) (off len : Nat) (write : Bool) : Bool :=
  match herdOfFn s f with
  | none => false
  | some h => (pageParts (bar2Base s f.val + off) len).any (fun p => decide (judge s h p.1 write = .waits))

/-- The effects of a BAR2 access on pages it may not reach: SECURITY for rows 3 and, on writes, 4 (R356). -/
def bar2Refusals (f : FnNo) (h a len : Nat) (write : Bool) : Act :=
  each (pageParts a len) fun p => look fun s =>
    seq [entryRead p.1 h, match judge s h p.1 write with
      | .hidden => seq [count (migPage 0) 6 1, rangeSecurity (65536 * p.1 + p.2.1) h 3 f.val]
      | .readOnly => seq [count (migPage 0) 6 1, rangeSecurity (65536 * p.1 + p.2.1) h 4 f.val]
      | .frame fr => if write then touch p.1
          else seq [touch p.1, devReadActs (65536 * fr + p.2.1) p.2.2.1 .ring (some h)]
      | _ => nop]

/-- BAR2_READ. A read that meets a moving page waits: it has not happened yet (R356 row 1). -/
def actBar2Read (f : FnNo) (off len : Nat) : Act := look fun s =>
  if !fnExists s f.val || decide (2 ^ bar2LogOf s f.val < off + len) || bar2Waits s f off len false then nop
  else seq [one (.out (.readData (some (.fn f)) (bar2Data s f off len))),
    match herdOfFn s f with
    | some h => bar2Refusals f h (bar2Base s f.val + off) len false
    | none => nop]

/-- BAR2_WRITE: each page's bytes are written where the herd may write them, and discarded elsewhere (R356, R357). -/
def actBar2Write (f : FnNo) (off : Nat) (data : List (Option Byte)) : Act := look fun s =>
  if !fnExists s f.val || decide (2 ^ bar2LogOf s f.val < off + data.length) || bar2Waits s f off data.length true then nop
  else match herdOfFn s f with
    | none => nop
    | some h =>
      let a := bar2Base s f.val + off
      seq [bar2Refusals f h a data.length true,
        each (pageParts a data.length) fun p => look fun s =>
          match judge s h p.1 true with
          | .frame fr => each (blockParts (65536 * fr + p.2.1) p.2.2.1) fun q =>
              let part := (data.drop (p.2.2.2 + q.2.2.2)).take q.2.2.1
              if part.length = 64 ∧ part.all Option.isSome then portWrite q.1 (part.map (·.getD 0))
              else portNarrow q.1 h ((List.replicate q.2.1 none) ++ part ++ List.replicate (64 - q.2.1 - q.2.2.1) none)
          | _ => nop]

end Sys2Proof.Machine
end

