-- ==== Sys2Proof/Machine/CoreFault.lean ====
section
/-! DEFINITION. How a core faults (R138 to R142), and its core store as bytes (R94, R96). -/

namespace Sys2Proof.Machine

/-- The event class of a fault cause (R138). -/
def causeClass (cause : Nat) : Cls :=
  match cause with
  | 0x10 => .protocol
  | 0x11 => .uncorrContained
  | 0x12 => .security
  | 0x13 => .security
  | 0x14 => .protocol
  | 0x20 => .uncorrContained
  | 0x21 => .uncorrContained
  | _ => .format

/-- Whether a cause is resumable (R138). -/
def causeResumable (cause : Nat) : Bool := cause = 0x10 || cause = 0x11 || cause = 0x12

/-- An event of class c in a page of a core, whose code, address and detail no rule states (log entry 14). -/
def coreEvent (site p : Nat) (c : Cls) : Act := look fun s => raise p { cls := c, herd := herdAt s site }

/-- R139 step 4: the registration of a wait whose row is the next row is withdrawn; a wait whose limit has elapsed has its cancellation on
the way already. DESIGN CHOICE (log entry 123): a local TWAITC that had been released keeps its flag clear, the release being lost. -/
def withdrawWait (site : Nat) : Act := look fun s =>
  let x := coreX s site
  act (waitPending s site || x.released) (seq [
    (if waitsAway s site then act (!x.cancelling) <|
      send0 site (homeOf s site) (.cancel (waitObj s site) (hidxOf s site) (decide (waitKind s site = 1)) true)
    else withdraw site (waitObj s site) (hidxOf s site)),
    wrBit (waitReg site) 31 false,
    setCore site (fun x => { x with registered := false, released := false, cancelling := false })])

/-- The capture of a core's first fault (R139) with its event, and what the fault does to the herd (R142, R481). -/
def captureFault (site row part : Nat) (word : Word) (space : Bool) (addr cause : Nat) : Act := look fun s =>
  seq [wr (seqPage site + 0x180) (BitVec.ofNat 32 (0x80000000 + 0x40000000 * b2n (causeResumable cause) +
      0x10000000 * part + 65536 * cause + row)),
    wr (seqPage site + 0x184) word,
    wr (seqPage site + 0x188) (BitVec.ofNat 32 addr),
    wr (seqPage site + 0x18C) (BitVec.ofNat 32 (addr / 4294967296 % 64 + 0x80000000 * b2n space)),
    coreEvent site (seqPage site) (causeClass cause),
    withdrawWait site,
    setCore site (fun x => { x with faulting := true, slipOwed := true }),
    match herdAt s site with
    | some h => seq [setHerd h (fun x => { x with faultBead := x.faultBead <|> some (beadNo s).toNat }),
        pauseHerd h site, podPause h]
    | none => nop]

/-- R140: a second fault before the core has entered FAULTED: its event is raised (R138), and the capture keeps the first. -/
def secondFault (site cause : Nat) : Act :=
  seq [coreEvent site (seqPage site) (causeClass cause), wrBit (seqPage site + 0x180) 30 false, wrBit (seqPage site + 0x40) 30 true]

/-- A row faults before issue. -/
def rowFault (site row part : Nat) (word : Word) (space : Bool) (addr cause : Nat) : Act := look fun s =>
  if (coreX s site).faulting then nop else captureFault site row part word space addr cause

/-- An issued instruction faults: it stays unretired as the faulting one, or is abandoned when another fault stands (R139, R140). -/
def insnFault (site : Nat) (i : Issued) (space : Bool) (addr cause : Nat) : Act := look fun s =>
  if (coreX s site).faulting then seq [secondFault site cause, retire site i]
  else seq [setIssued site i { i with faulted := true, cause := cause },
    captureFault site i.row i.part i.word space addr cause]

/-! ## Core store bytes -/

/-- Byte a of a core store. -/
def stByte (s : State) (site a : Nat) : Byte := BitVec.ofNat 8 ((stGet s site (a / 32)).toNat / 2 ^ (8 * (a % 32)))
/-- n bytes of a core store from byte a. -/
def stBytes (s : State) (site a n : Nat) : List Byte := (List.range n).map (fun i => stByte s site (a + i))
/-- A word with bytes from offset o replaced. -/
def patchWord (w : BitVec 256) (o : Nat) (bs : List Byte) : BitVec 256 :=
  bs.zipIdx.foldl (fun w p => putElem 8 w (o + p.2) p.1.toNat) w
/-- The act that writes bytes to a core store from byte a; a partly written word keeps its other bytes. -/
def stWrite (site a : Nat) (bs : List Byte) : Act :=
  each (List.range ((a + bs.length + 31) / 32 - a / 32)) fun k => look fun s =>
    let w := a / 32 + k
    let lo := max a (32 * w)
    let hi := min (a + bs.length) (32 * w + 32)
    act (decide (lo < hi)) (stPut site w (patchWord (stGet s site w) (lo - 32 * w) ((bs.drop (lo - a)).take (hi - lo))))

/-- What the read of word n of a core store finds (R96): a correctable error is corrected, counts slot 3 and raises CORR; an uncorrectable
one counts slot 4 and stays until the word is written. -/
def stFound (site n : Nat) (found : Cell) : Act := look fun s =>
  match stVerdict s site n found with
  | .good => nop
  | .corrected => seq [count (corePage site) 3 1, coreEvent site (corePage site) .corr]
  | .bad => seq [one (.storeBad (49152 * site + n) true), count (corePage site) 4 1]

/-- The core-store words that bytes a to a + n − 1 touch. -/
def wordsOf (a n : Nat) : List Nat := (List.range ((a + n + 31) / 32 - a / 32)).map (fun i => a / 32 + i)

/-- What the reads of several words find, one by one. -/
def stFoundAll (site : Nat) (ws : List Nat) (found : List Cell) : Act :=
  each ws.zipIdx fun p => stFound site p.1 (found.getD p.2 .good)

/-- Whether one of several words is uncorrectable. -/
def stBad (s : State) (site : Nat) (ws : List Nat) (found : List Cell) : Bool :=
  ws.zipIdx.any fun p => decide (stVerdict s site p.1 (found.getD p.2 .good) = .bad)

/-- n words of a core store are accessed (CORE_ slot 0). -/
def stCount (site n : Nat) : Act := count (corePage site) 0 n

/-! ## Row cache -/

/-- Whether the row cache serves a core's direct reads (CORE_RC_CTRL.dis). -/
def rcOn (s : State) (site : Nat) : Bool := !bit (rd s (corePage site + 0x10C)) 1
/-- A line the row cache holds. -/
def rcLine (s : State) (site l : Nat) : Option (BitVec 1024) :=
  if rcOn s site then ((coreX s site).rowCache.find? (fun p => decide (p.1 = l))).map (·.2) else none
/-- The lines that bytes a to a + n − 1 touch. -/
def linesOf (a n : Nat) : List Nat := (List.range ((a + n + 127) / 128 - a / 128)).map (fun i => a / 128 + i)

/-- A direct read through the row cache (R98): the lines it holds, and the unified range for the rest. -/
def rcRead (s : State) (site a n : Nat) : Access :=
  (linesOf a n).foldl (fun acc l => match acc with
    | .ok bs =>
      let lo := max a (128 * l)
      let hi := min (a + n) (128 * l + 128)
      match rcLine s site l with
      | some d => .ok (bs ++ leBytes (hi - lo) (d.toNat / 2 ^ (8 * (lo - 128 * l))))
      | none => match urRead s (herdNo s site) lo (hi - lo) with
        | .ok cs => .ok (bs ++ cs)
        | r => r
    | r => r) (.ok [])

/-- A line is filled from the unified range (R98): allocated when every byte of it can be read. With 512 lines held, which one it
replaces is not stated (log entry 14). -/
def rcFill (site l : Nat) : Act := look fun s =>
  if (rcLine s site l).isSome then nop
  else seq [urReadActs (herdNo s site) (128 * l) 128 .mesh,
    match urRead s (herdNo s site) (128 * l) 128 with
    | .ok bs =>
      let full := decide (512 ≤ (coreX s site).rowCache.length)
      seq [setCore site (fun x => { x with
          rowCache := (if full then x.rowCache.eraseIdx (freeAt s 0 % 512) else x.rowCache) ++ [(l, BitVec.ofNat 1024 (leNat bs))] }),
        act full (takeFree 1)]
    | _ => nop]

/-- What a direct read does besides its bytes: hits, misses with their fills, or a read past the cache while it is disabled. -/
def rcReadActs (site a n : Nat) : Act := look fun s =>
  if !rcOn s site then urReadActs (herdNo s site) a n .mesh
  else each (linesOf a n) fun l => look fun s =>
    if (rcLine s site l).isSome then count (corePage site) 1 1 else seq [count (corePage site) 2 1, rcFill site l]

/-- A parity error in a line that an access reads drops that line, which is fetched again, and raises CORR (R99); `found` tells line by line. -/
def rcParity (site a n : Nat) (found : List Cell) : Act :=
  each (linesOf a n).zipIdx fun q => look fun s =>
    act (decide (found.getD q.2 .good ≠ .good) && (rcLine s site q.1).isSome)
      (seq [setCore site (fun x => { x with rowCache := x.rowCache.filter (fun p => decide (p.1 ≠ q.1)) }),
        coreEvent site (corePage site) .corr])

/-- A direct write updates a line that holds its address (R98). -/
def rcUpdate (site a : Nat) (bs : List Byte) : Act :=
  setCore site (fun x => { x with rowCache := x.rowCache.map (fun p =>
    (p.1, bs.zipIdx.foldl (fun d q => if decide ((a + q.2) / 128 = p.1) then putElem 8 d ((a + q.2) % 128) q.1.toNat else d) p.2)) })

end Sys2Proof.Machine
end

