-- ==== Sys2Proof/Machine/Tile.lean ====
section
/-! DEFINITION. Tile descriptors and layout (R151 to R154, R212 to R215, R161), tile loads and stores row by row (R155 to R160), vector loads and stores (R149, R150), and the configuration registers' writes (R164 to R168). -/

namespace Sys2Proof.Machine

/-! ## Descriptors (R151) -/

/-- TCn of a site. -/
def tcGet (s : State) (site n : Nat) : DWord := rd64 s (tilePage site + 0x100 + 8 * n)
/-- valid. -/
def tValid (d : DWord) : Bool := bit d 63
/-- pitch. -/
def tPitch (d : DWord) : Nat := fld d 59 46
/-- C. -/
def tCols (d : DWord) : Nat := fld d 42 32 + 1
/-- R. -/
def tRows (d : DWord) : Nat := fld d 28 20 + 1
/-- orient. -/
def tOrient (d : DWord) : Bool := bit d 18
/-- scl. -/
def tScl (d : DWord) : Nat := fld d 17 16
/-- fmt. -/
def tFmt (d : DWord) : Nat := fld d 15 12
/-- sbase. -/
def tSbase (d : DWord) : Nat := fld d 11 6
/-- base. -/
def tBase (d : DWord) : Nat := fld d 5 0

/-- Bits per element of a fmt code (R152). -/
def fmtBits (f : Nat) : Nat :=
  match f with
  | 1 | 2 => 8
  | 3 | 4 => 6
  | 5 => 4
  | 6 => 2
  | 7 | 8 => 16
  | _ => 32
/-- Elements of a cell row (R152). -/
def fmtE (f : Nat) : Nat :=
  match f with
  | 1 | 2 => 8
  | 3 | 4 | 5 => 16
  | 6 => 32
  | 7 | 8 => 4
  | _ => 2
/-- Whether the format is F6. -/
def isF6 (f : Nat) : Bool := f = 3 || f = 4
/-- Bits of one cell row: 64, or 96 for F6. -/
def cellRow (f : Nat) : Nat := if isF6 f then 96 else 64

/-- Column groups. -/
def tCg (d : DWord) : Nat := ceilDiv (tCols d) (fmtE (tFmt d))
/-- Row groups. -/
def tRg (d : DWord) : Nat := ceilDiv (tRows d) 8
/-- Registers of one row group (R153). -/
def tGroupRegs (d : DWord) : Nat := if isF6 (tFmt d) then ceilDiv (3 * tCg d) 2 else tCg d
/-- Data registers (R153). -/
def tDataRegs (d : DWord) : Nat := tRg d * tGroupRegs d
/-- Block size. -/
def tBs (d : DWord) : Nat := blockSize (tScl d)
/-- Blocks of the tile (R154). -/
def tBlocks (d : DWord) : Nat :=
  if tScl d = 0 then 0
  else if tOrient d then ceilDiv (tRows d) (tBs d) * tCols d else tRows d * ceilDiv (tCols d) (tBs d)
/-- Scale registers (R154). -/
def tScaleRegs (d : DWord) : Nat := ceilDiv (tBlocks d) 64
/-- The block of element (i, j). -/
def tBlockOf (d : DWord) (i j : Nat) : Nat :=
  if tOrient d then i / tBs d * tCols d + j else i * ceilDiv (tCols d) (tBs d) + j / tBs d

/-- The first four checks of R161. -/
def tShapeOk (d : DWord) : Bool :=
  let f := tFmt d
  let c := tScl d
  tValid d && decide (fld d 62 60 = 0) && decide (fld d 45 43 = 0) && decide (fld d 31 29 = 0) && !bit d 19 &&
    decide (c ≠ 3) && decide (1 ≤ f) && decide (f ≤ 9) &&
    (if f ≤ 5 then decide (c ≠ 0) else if f = 6 then decide (c = 1) else decide (c = 0)) &&
    decide (tBase d + tDataRegs d ≤ 64) && decide (tBlocks d = 0 ∨ tSbase d + tScaleRegs d ≤ 64) &&
    decide (tBlocks d = 0 ∨ tBase d + tDataRegs d ≤ tSbase d ∨ tSbase d + tScaleRegs d ≤ tBase d)

/-- Element bytes of a tile row: ⌈C × b / 8⌉ (R155). -/
def tElemBytes (d : DWord) : Nat := ceilDiv (tCols d * fmtBits (tFmt d)) 8
/-- Check 5 of R161. -/
def tPitchOk (d : DWord) : Bool := decide (tPitch d ≠ 0) && decide (roundUp (tElemBytes d) 4 ≤ 4 * tPitch d)
/-- Scale bytes that lie with tile row i in memory (R213). -/
def tRowScales (d : DWord) (i : Nat) : Nat :=
  if tScl d = 0 then 0
  else if tOrient d then (if i % tBs d = 0 then tCols d else 0) else ceilDiv (tCols d) (tBs d)
/-- Bytes from the start of tile row i to the end of its last scale byte (R213). -/
def tRowBytes (d : DWord) (i : Nat) : Nat :=
  if tRowScales d i = 0 then tElemBytes d else roundUp (tElemBytes d) 4 + tRowScales d i
/-- The first block of the scale bytes that lie with tile row i. -/
def tRowBlock (d : DWord) (i : Nat) : Nat := if tOrient d then i / tBs d * tCols d else i * ceilDiv (tCols d) (tBs d)
/-- The byte at which tile row i of a tile at resolved word address a begins (R155). -/
def tRowAddr (d : DWord) (a i : Nat) : Nat := 32 * a + 4 * tPitch d * i

/-- The data and scale registers a descriptor covers (R162). -/
def tRegs (d : DWord) : List Nat :=
  (List.range (tDataRegs d)).map (fun i => tBase d + i) ++ (List.range (tScaleRegs d)).map (fun i => tSbase d + i)

/-! ## Tiles in the registers -/

/-- The registers of row group g as one number, bit 0 first. -/
def groupBits (s : State) (site : Nat) (d : DWord) (g : Nat) : Nat :=
  (List.range (tGroupRegs d)).foldr (fun k acc => (vGet s site (tBase d + g * tGroupRegs d + k)).toNat + 2 ^ 512 * acc) 0
/-- The act that stores row group g. -/
def putGroup (site : Nat) (d : DWord) (g v : Nat) : Act :=
  each (List.range (tGroupRegs d)) fun k =>
    vPut site (tBase d + g * tGroupRegs d + k) (BitVec.ofNat 512 (v / 2 ^ (512 * k)))
/-- Tile row i as its packed element bits (R212, R152). -/
def rowBitsOf (d : DWord) (group i : Nat) : Nat :=
  let w := cellRow (tFmt d)
  ((List.range (tCg d)).foldr (fun k acc => group / 2 ^ (8 * w * k + w * (i % 8)) % 2 ^ w + 2 ^ w * acc) 0) %
    2 ^ (tCols d * fmtBits (tFmt d))
/-- A row group with row i replaced by packed element bits; pad positions are zero. -/
def withRow (d : DWord) (group i row : Nat) : Nat :=
  let w := cellRow (tFmt d)
  let r := row % 2 ^ (tCols d * fmtBits (tFmt d))
  (List.range (tCg d)).foldl (fun g k =>
    let at_ := 8 * w * k + w * (i % 8)
    g - g / 2 ^ at_ % 2 ^ w * 2 ^ at_ + r / 2 ^ (w * k) % 2 ^ w * 2 ^ at_) group

/-- Element (i, j) of a tile, as its code. -/
def tElem (s : State) (site : Nat) (d : DWord) (i j : Nat) : Nat :=
  let w := cellRow (tFmt d)
  let at_ := 8 * w * (j / fmtE (tFmt d)) + w * (i % 8) + fmtBits (tFmt d) * (j % fmtE (tFmt d))
  let r := tBase d + i / 8 * tGroupRegs d + at_ / 512
  let two := (vGet s site r).toNat + 2 ^ 512 * (vGet s site (r + 1)).toNat
  two / 2 ^ (at_ % 512) % 2 ^ fmtBits (tFmt d)

/-- Byte k of the scale area (R154). -/
def scaleByte (s : State) (site : Nat) (d : DWord) (k : Nat) : Nat := elem 8 (vGet s site (tSbase d + k / 64)) (k % 64)
/-- The act that stores byte k of the scale area. -/
def putScale (site : Nat) (d : DWord) (k v : Nat) : Act := look fun s =>
  let r := tSbase d + k / 64
  vPut site r (putElem 8 (vGet s site r) (k % 64) v)

/-- Element (i, j) with its block scale, exact (R210). -/
def tValue (s : State) (site : Nat) (d : DWord) (i j : Nat) : Val :=
  let x := decodeElem (tFmt d) (tElem s site d i j)
  if tScl d = 0 then x else mulVal x (scaleVal (tScl d) (scaleByte s site d (tBlockOf d i j)))

/-! ## Tile loads and stores -/

/-- Whether a slot A word is a TLD (8) or a TST (9). -/
def isTileOp (i : Issued) : Bool := decide (i.part = 1) && (decide (opOf 1 i.word = 8) || decide (opOf 1 i.word = 9))

/-- The act that sets registers to zero. -/
def zeroRegs (site : Nat) (rs : List Nat) : Act := each rs fun r => vPut site r 0

/-- TLD (R156): the core's oldest TLD begins; its registers take zeros. -/
def actTld (site : Nat) : Act := look fun s =>
  match nextToStart s site 1 8 with
  | some i => seq [zeroRegs site (tRegs i.tcA), setIssued site i { i with started := true }]
  | none => nop

/-- TST (R158): the core's oldest TST begins. -/
def actTst (site : Nat) : Act := look fun s =>
  match nextToStart s site 1 9 with
  | some i => setIssued site i { i with started := true }
  | none => nop

/-- A tile instruction stops at its row (R141, R157). -/
def tileFault (site : Nat) (i : Issued) (cause : Nat) : Act := look fun s =>
  let first := !(coreX s site).faulting
  let byte := tRowAddr i.tcA i.addr i.orow
  seq [act first (seq [
      wr (corePage site + 0x104) (BitVec.ofNat 32 (0x80000000 + 0x40000000 * b2n (decide (opOf 1 i.word = 9)) +
        16777216 * fld i.word 26 24 + i.orow)),
      wr (tilePage site + 0x148) (BitVec.ofNat 32 byte),
      wr (tilePage site + 0x14C) (BitVec.ofNat 32 (byte / 4294967296 % 1024))]),
    insnFault site i (bit i.word 3) i.addr cause]

/-- A tile row has completed: the instruction goes on with the next, or retires (R141, R157). -/
def tileNext (site : Nat) (i : Issued) : Act :=
  if i.orow + 1 < tRows i.tcA then setIssued site i { i with orow := i.orow + 1 }
  else seq [retire site i, act (decide (i.cause ≠ 0)) (wrBit (corePage site + 0x104) 31 false)]

/-- The bytes of a tile row enter the registers: its elements and its block scales (R156, R213). -/
def rowIn (site : Nat) (d : DWord) (i : Nat) (bs : List Byte) : Act := look fun s =>
  seq [putGroup site d (i / 8) (withRow d (groupBits s site d (i / 8)) i (leNat (bs.take (tElemBytes d)))),
    each (List.range (tRowScales d i)) fun k =>
      putScale site d (tRowBlock d i + k) (bs.getD (roundUp (tElemBytes d) 4 + k) 0).toNat]

/-- A TLD's row. `found` tells what the read of each word, or of each row-cache line, of the row found. -/
def loadRow (site : Nat) (i : Issued) (found : List Cell) : Act := look fun s =>
  let d := i.tcA
  let a := tRowAddr d i.addr i.orow
  let n := tRowBytes d i.orow
  let finish (bs : List Byte) : Act := seq [rowIn site d i.orow bs, count (tilePage site) 0 1, tileNext site i]
  if bit i.word 3 then
    seq [rcParity site a n found, look fun s =>
      match rcRead s site a n with
      | .wait => nop
      | .ok bs => seq [rcReadActs site a n, finish bs]
      | .fault c _ => seq [rcReadActs site a n, tileFault site i c]]
  else
    seq [stCount site (wordsOf a n).length, stFoundAll site (wordsOf a n) found,
      if stBad s site (wordsOf a n) found then tileFault site i 0x21 else finish (stBytes s site a n)]

/-- The bytes that a TST writes for row i: element bytes from the registers, the unused bits of the last one from `old` (R215). -/
def rowOut (s : State) (site : Nat) (d : DWord) (i : Nat) (old : Byte) : List Byte :=
  let nb := tCols d * fmtBits (tFmt d)
  let keep := old.toNat / 2 ^ (nb % 8) * 2 ^ (nb % 8)
  let row := rowBitsOf d (groupBits s site d (i / 8)) i
  leBytes (tElemBytes d) (row + (if nb % 8 = 0 then 0 else keep * 2 ^ (nb / 8 * 8)))
/-- The scale bytes that a TST writes with row i. -/
def scalesOut (s : State) (site : Nat) (d : DWord) (i : Nat) : List Byte :=
  (List.range (tRowScales d i)).map (fun k => BitVec.ofNat 8 (scaleByte s site d (tRowBlock d i + k)))

/-- The bits of the last element byte of a tile row that the row covers, where it covers that byte in part (R215). -/
def lastMask (d : DWord) : Option Byte :=
  let n := tCols d * fmtBits (tFmt d) % 8
  if n = 0 then none else some (BitVec.ofNat 8 (2 ^ n - 1))

/-- The core-store words that row i of a tile at byte a writes only in part (R158): its bytes are the elements, and the scales from the next
4-byte boundary. -/
def partWords (d : DWord) (a i : Nat) : List Nat :=
  let e := tElemBytes d
  let cover (w lo hi : Nat) : Nat := min hi (32 * w + 32) - max lo (32 * w)
  let b := a + roundUp e 4
  (wordsOf a (tRowBytes d i)).filter fun w =>
    decide (cover w a (a + e) + cover w b (b + tRowScales d i) < 32) || ((lastMask d).isSome && decide ((a + e - 1) / 32 = w))

/-- The element bytes of a tile row go to device memory at address a; `mask` gives the bits of the last byte that the row covers, where it
covers it in part (R215), and the port merges those. -/
def elemWrite (a : Nat) (bs : List Byte) (herd : Nat) (mask : Option Byte) : Act :=
  each (blockParts a bs.length) fun p =>
    let part := (bs.drop p.2.2.2).take p.2.2.1
    match mask with
    | some m =>
      if p.2.2.2 + p.2.2.1 = bs.length then
        portMerge p.1 herd (List.replicate p.2.1 none ++ part.dropLast.map some ++ List.replicate (65 - p.2.1 - p.2.2.1) none)
          (some (p.2.1 + p.2.2.1 - 1, m, part.getLastD 0))
      else devWrite (64 * p.1 + p.2.1) part herd
    | none => devWrite (64 * p.1 + p.2.1) part herd

/-- Bytes that a TST writes to the unified range, its checks passed (R158). DEDUCED (log entry 135): where the
hosts do not take all the bytes that the row has for far pages (`served`), all of those are lost without a fault, since R158 gives a TST no
cause 0x11. -/
def tstWrite (h a : Nat) (bs : List Byte) (mask : Option Byte) (served : Bool) : Act := look fun s =>
  each (pageParts a bs.length) fun p =>
    let part := (bs.drop p.2.2.2).take p.2.2.1
    let x := 65536 * p.1 + p.2.1
    match judge s h p.1 true with
    | .frame f => seq [entryRead p.1 h, touch p.1,
        elemWrite (65536 * f + p.2.1) part h (if p.2.2.2 + p.2.2.1 = bs.length then mask else none)]
    | .far ext page => if served then urWrite h x part
        else seq [entryRead p.1 h, touch p.1, farRequest ext page p.2.1 p.2.2.1 (some part)]
    | _ => nop

/-- How a TST's row is judged: by the pages alone (R158). -/
def tstJudge (s : State) (h a n : Nat) : Access :=
  match urWriteJudge s h a n with
  | .fault 0x11 _ => (pageParts a n).foldl (fun acc p => match acc with
      | .ok bs =>
        let x := 65536 * p.1 + p.2.1
        match judge s h p.1 true with
        | .waits => .wait
        | .absent | .hidden => .fault 0x10 x
        | .readOnly => .fault 0x12 x
        | .far _ _ | .frame _ => .ok bs
      | r => r) (.ok [])
  | r => r

/-- The effects of a TST's row that faults: the pages up to the one that stops it have been judged, and nothing is written (R158). -/
def tstRefusedActs (h a n : Nat) : Act := look fun s =>
  each (reachedUntil (fun p => match tstJudge s h (65536 * p.1 + p.2.1) p.2.2.1 with
      | .ok _ => false
      | _ => true) (pageParts a n)) fun p => judgeActs h p.1 (65536 * p.1 + p.2.1) true

/-- Whether the hosts serve every far page of a run (R358). -/
def farAllServe (s : State) (h a n : Nat) : Bool := (pageParts a n).all fun p => match judge s h p.1 true with
  | .far ext _ => farServes s ext
  | _ => true

/-- A TST's row. `found` tells what the read of each word that the row writes in part found, by its place among the row's words. -/
def storeRow (site : Nat) (i : Issued) (found : List Cell) : Act := look fun s =>
  let d := i.tcA
  let a := tRowAddr d i.addr i.orow
  let n := tRowBytes d i.orow
  let e := tElemBytes d
  let sc := scalesOut s site d i.orow
  let b := a + roundUp e 4
  let h := herdNo s site
  if bit i.word 3 then
    match tstJudge s h a n with
    | .wait => nop
    | .fault c _ => seq [tstRefusedActs h a n, tileFault site i c]
    | .ok _ =>
      let old := match urRead s h (a + e - 1) 1 with
        | .ok (x :: _) => x
        | _ => 0
      let el := rowOut s site d i.orow old
      let served := farAllServe s h a n
      seq [tstWrite h a el (lastMask d) served, rcUpdate site a el,
        act (!sc.isEmpty) (seq [tstWrite h b sc none served, rcUpdate site b sc]),
        count (tilePage site) 1 1, tileNext site i]
  else
    let part := partWords d a i.orow
    let merged := (wordsOf a n).zipIdx.filter (fun p => part.contains p.1)
    let cells := merged.map (fun p => found.getD p.2 .good)
    seq [stCount site (wordsOf a n).length, stFoundAll site (merged.map (·.1)) cells,
      if stBad s site (merged.map (·.1)) cells then tileFault site i 0x21
      else seq [stWrite site a (rowOut s site d i.orow (stByte s site (a + e - 1))), stWrite site b sc,
        count (tilePage site) 1 1, tileNext site i]]

/-- TILE_ROW (R157): the next tile row of the oldest tile instruction that has begun. -/
def actTileRow (site : Nat) (found : List Cell) : Act := look fun s =>
  match (coreX s site).issued.find? (fun i => isTileOp i && i.started && !i.faulted) with
  | none => nop
  | some i => if opOf 1 i.word = 8 then loadRow site i found else storeRow site i found

/-! ## Vector loads and stores (R149, R150) -/

/-- VLD: the core's oldest VLD begins. -/
def actVld (site : Nat) : Act := look fun s =>
  match nextToStart s site 2 1 with
  | some i => setIssued site i { i with started := true }
  | none => nop

/-- VST: the core's oldest VST begins. -/
def actVst (site : Nat) : Act := look fun s =>
  match nextToStart s site 2 2 with
  | some i => setIssued site i { i with started := true }
  | none => nop

/-- VECTOR_ACCESS_COMPLETE: the k-th of the vector loads and stores that have begun completes or faults. -/
def actVectorAccessComplete (site k : Nat) (found : List Cell) : Act := look fun s =>
  match ((coreX s site).issued.filter (fun i => decide (i.part = 2) &&
      (decide (opOf 2 i.word = 1) || decide (opOf 2 i.word = 2)) && i.started && !i.faulted))[k]? with
  | none => nop
  | some i =>
    let a := 32 * i.addr
    let v := fld i.word 25 20
    let h := herdNo s site
    let load (bs : List Byte) : Act := seq [vPut site v (BitVec.ofNat 512 (leNat bs)), retire site i]
    if opOf 2 i.word = 1 then
      if bit i.word 0 then
        seq [rcParity site a 64 found, look fun s =>
          match rcRead s site a 64 with
          | .wait => nop
          | .ok bs => seq [rcReadActs site a 64, load bs]
          | .fault c _ => seq [rcReadActs site a 64, insnFault site i true i.addr c]]
      else seq [stCount site 2, stFoundAll site (wordsOf a 64) found,
        if stBad s site (wordsOf a 64) found then insnFault site i false i.addr 0x21 else load (stBytes s site a 64)]
    else
      let bs := leBytes 64 (vGet s site v).toNat
      if bit i.word 0 then
        match urWriteJudge s h a 64 with
        | .wait => nop
        | .fault c _ => seq [urRefusedActs h a 64 bs, insnFault site i true i.addr c]
        | .ok _ => seq [urWrite h a bs, rcUpdate site a bs, retire site i]
      else seq [stCount site 2, stWrite site a bs, retire site i]

/-- ROW_CACHE_FILL (R98): a line that an access begun still needs is filled. -/
def actRowCacheFill (site l : Nat) : Act := look fun s =>
  let needs (i : Issued) : Bool := i.started && !i.faulted &&
    (if isTileOp i then bit i.word 3 && decide (opOf 1 i.word = 8) &&
        (linesOf (tRowAddr i.tcA i.addr i.orow) (tRowBytes i.tcA i.orow)).contains l
      else decide (i.part = 2) && decide (opOf 2 i.word = 1) && bit i.word 0 && (linesOf (32 * i.addr) 64).contains l)
  act (rcOn s site && (coreX s site).issued.any needs) (rcFill site l)

/-! ## Configuration registers -/

/-- The tile configuration registers that an instruction names. -/
def namedTc (i : Issued) : List Nat :=
  if i.part = 1 then
    let op := opOf 1 i.word
    if op = 8 ∨ op = 9 then [fld i.word 26 24]
    else if 1 ≤ op ∧ op ≤ 3 then [fld i.word 26 24, fld i.word 23 21] else []
  else if i.part = 2 then
    let op := opOf 2 i.word
    if op = 0x20 ∨ op = 0x22 then [fld i.word 8 6]
    else if op = 0x23 ∨ op = 0x30 then [fld i.word 2 0] else []
  else []
/-- Whether an unretired instruction, a DWQ entry included, names TCn. -/
def tcBusy (s : State) (site n : Nat) : Bool := (coreX s site).issued.any (fun i => (namedTc i).contains n)
/-- The pending value of TCn (R166). -/
def tcPending (s : State) (site n : Nat) : Option DWord :=
  ((coreX s site).tcPend.find? (fun p => decide (p.1 = n))).map (·.2)

/-- TILE_TC_WRITE (R165, R166): a write of one or both halves of TILE_TCn. -/
def tcWrite (r : Requester) (site n : Nat) (lo hi : Option Word) : Act := look fun s =>
  if !([0, 1, 6, 7, 8].contains (coreState s site)) then protocolAt (tilePage site) r
  else
    let old := (tcPending s site n).getD (tcGet s site n)
    let new := joinWords (lo.getD (loWord old)) (hi.getD (hiWord old))
    if (tcPending s site n).isSome || tcBusy s site n then
      seq [setCore site (fun x => { x with tcPend := x.tcPend.filter (fun p => decide (p.1 ≠ n)) ++ [(n, new)] }),
        wrBit (tilePage site + 0x140) n true]
    else wr64 (tilePage site + 0x100 + 8 * n) new

/-- TC_PENDING_STORE (R166): the last instruction that names TCn has gone, and the pending value is stored. -/
def actTcPendingStore (site n : Nat) : Act := look fun s =>
  match tcPending s site n with
  | some v => act (!tcBusy s site n) (seq [wr64 (tilePage site + 0x100 + 8 * n) v,
      setCore site (fun x => { x with tcPend := x.tcPend.filter (fun p => decide (p.1 ≠ n)) }),
      wrBit (tilePage site + 0x140) n false, count (tilePage site) 3 1])
  | none => nop

end Sys2Proof.Machine
end

