-- ==== Sys2Proof/Machine/Cube.lean ====
section
/-! DEFINITION. The cube array (R175 to R203, R646): format pairs, steps, accumulation, and the layer masks of weight-gradient products (R292 to R301). -/

namespace Sys2Proof.Machine

/-! ## Shapes of a product -/

/-- Whether a fmt code is F8. -/
def isF8 (f : Nat) : Bool := f = 1 || f = 2
/-- Whether a fmt code is F6 or F4. -/
def isF64 (f : Nat) : Bool := f = 3 || f = 4 || f = 5

/-- The step depth d of a format pair, for variant 1 CMM.f, 2 CMM.i, 3 CMM.w (R182). -/
def pairDepth (variant fa fb : Nat) : Option Nat :=
  if isF8 fa && isF8 fb then some 8
  else if isF64 fa && isF64 fb then some 16
  else if (isF8 fa && isF64 fb) || (isF64 fa && isF8 fb) then some 8
  else if fa = 5 ∧ fb = 6 ∧ variant = 1 then some 32
  else if isF8 fa && decide (fb = 6) && decide (variant ≠ 3) then some 8
  else if fa = 7 ∧ fb = 7 then some 2
  else if fa = 8 ∧ fb = 8 then some 2
  else none

/-- Whether a tile's depth axis is its columns (R180): the named axis, or the free one. -/
def depthCols (variant : Nat) (isB : Bool) (d : DWord) : Bool :=
  if variant = 1 || (decide (variant = 2) && !isB) then !tOrient d else tOrient d
/-- D of a tile. -/
def tDepth (variant : Nat) (isB : Bool) (d : DWord) : Nat := if depthCols variant isB d then tCols d else tRows d
/-- U of a tile. -/
def tWide (variant : Nat) (isB : Bool) (d : DWord) : Nat := if depthCols variant isB d then tRows d else tCols d

/-- R181, and check 6 of R161 (the pairs of R182 keep every line within its port budget). -/
def cmmFits (variant : Nat) (a b : DWord) : Bool :=
  (pairDepth variant (tFmt a) (tFmt b)).isSome && decide (tDepth variant false a = tDepth variant true b) &&
    decide (tWide variant false a ≤ 16) && decide (tWide variant true b ≤ 32)

/-- The variant of a CMM's slot word. -/
def cmmVariant (w : Word) : Nat := opOf 1 w
/-- The bank field of a CMM. -/
def cmmBank (w : Word) : Nat := fld w 20 19
/-- zacc. -/
def cmmZacc (w : Word) : Bool := bit w 18
/-- defer. -/
def cmmDefer (w : Word) : Bool := bit w 17
/-- mask. -/
def cmmMask (w : Word) : Nat := fld w 16 11
/-- Whether an issued instruction is a CMM. -/
def isCmm (i : Issued) : Bool := decide (i.part = 1) && decide (1 ≤ opOf 1 i.word) && decide (opOf 1 i.word ≤ 3)
/-- Whether it is a deferred CMM.w. -/
def isDeferred (i : Issued) : Bool := isCmm i && cmmDefer i.word

/-- d of an issued CMM. -/
def cmmDepth (i : Issued) : Nat := (pairDepth (cmmVariant i.word) (tFmt i.tcA) (tFmt i.tcB)).getD 1
/-- S = ⌈D / d⌉ (R194). -/
def cmmSteps (i : Issued) : Nat := ceilDiv (tDepth (cmmVariant i.word) false i.tcA) (cmmDepth i)

/-- Whether output element (y, x) is trained under the CMM's map; without a mask every element is (R301). -/
def isTrained (i : Issued) (y x : Nat) : Bool :=
  match i.trained with
  | some m => bit m (32 * y + x)
  | none => true

/-! ## A step -/

/-- Element with non-depth index u and depth index k of a tile. -/
def lineVal (s : State) (site variant : Nat) (isB : Bool) (d : DWord) (u k : Nat) : Val :=
  if depthCols variant isB d then tValue s site d u k else tValue s site d k u

/-- The output elements of a CMM that receive products: inside both extents and trained (R191, R301), as (y, x). -/
def reached (i : Issued) : List (Nat × Nat) :=
  let v := cmmVariant i.word
  (List.range (min 16 (tWide v false i.tcA))).flatMap fun y =>
    ((List.range (min 32 (tWide v true i.tcB))).filter (fun x => isTrained i y x)).map (fun x => (y, x))

/-- The cube of output element (y, x) (R177). -/
def cubeOf (p : Nat × Nat) : Nat := 4 * (p.1 / 8) + p.2 / 8

/-- The exact sums of a step's products (R184, R185, R188). -/
def stepSums (s : State) (site : Nat) (i : Issued) (step : Nat) : List (Nat × Exact) :=
  let v := cmmVariant i.word
  let d := cmmDepth i
  let ks := (List.range d).map (fun k => d * step + k) |>.filter (fun k => decide (k < tDepth v false i.tcA))
  let rows := (List.range 16).map (fun y => ks.map (fun k => lineVal s site v false i.tcA y k))
  let cols := (List.range 32).map (fun x => ks.map (fun k => lineVal s site v true i.tcB x k))
  (reached i).map fun p =>
    (32 * p.1 + p.2, (List.zipWith mulVal (rows.getD p.1 []) (cols.getD p.2 [])).foldl Exact.add Exact.none)

/-- A step of a job enters the cubes (R184 to R188), with its counts. -/
def enterStep (site : Nat) (j : CubeJob) (dwq : Bool) : Act := look fun s =>
  let i := j.insn
  let ps := reached i
  let cubes := ((ps.map cubeOf).eraseDups).length
  seq [setCore site (fun x => { x with pipe := x.pipe ++
      [⟨cmmBank i.word, cmmZacc i.word && decide (j.step = 0), stepSums s site i j.step⟩] }),
    act (decide (cubes ≠ 0)) (count (cubePage site) 0 1),
    count (cubePage site) 1 cubes, act dwq (count (cubePage site) 3 cubes), count (cubePage site) 4 ps.length]

/-! ## Accumulation and accumulator errors -/

/-- The inverted bits stored with element e of bank AB b (R646). -/
def flipOf (s : State) (site b e : Nat) : Nat := mGetD (coreX s site).accFlip (64 * b + e) 0
/-- The act that records the inverted bits stored with an element; 0: none. -/
def setFlip (site b e v : Nat) : Act := setCore site (fun x => { x with accFlip := mSet x.accFlip (64 * b + e) v 0 })
/-- Whether the inverted bits of an element are more than the code corrects. -/
def flipBad (v : Nat) : Bool := decide (2 ≤ popCount v 39)

/-- What a read of an element finds: its value, or the canonical NaN (R201, R202). -/
def abValue (s : State) (site b e : Nat) : Word := if flipBad (flipOf s site b e) then nan32 else accGet s site b e

/-- What a read that finds an element in error does (R201, R202). DESIGN CHOICE (log entry 142): the errors of accumulator cells are those of
CUBE_INJ alone; no cell fails by itself. -/
def abFound (site b e : Nat) : Act := look fun s =>
  let v := flipOf s site b e
  if v = 0 then nop
  else if flipBad v then
    seq [setFlip site b e 0, accPut site b e nan32, wrBit (cubePage site + 0x104) b true, setIst (cubePage site) 8,
      count (cubePage site) 6 1,
      raise (cubePage site) { cls := .uncorrContained, addr := some (64 * b + e), herd := herdAt s site }]
  else seq [setFlip site b e 0, count (cubePage site) 5 1, coreEvent site (cubePage site) .corr]

/-- The bits that CUBE_INJ inverts, when it is armed for the element (R646). DESIGN CHOICE (log entry 142): a bit beyond the 39 stored ones,
to which a write without arm may have moved pos while arm stands, is none, and the injection inverts nothing. -/
def armedFlip (s : State) (site b e : Nat) : Option Nat :=
  let w := rd s (cubePage site + 0x108)
  if bit w 31 && decide (fld w 4 0 = b) && decide (fld w 10 5 = e) then
    some (2 ^ fld w 29 24 * (if bit w 30 then 3 else 1) % 2 ^ 39)
  else none

/-- One element takes a step's sum. -/
def accumulateOne (site : Nat) (st : CubeStep) (p : Nat × Exact) : Act := look fun s =>
  let y := p.1 / 32
  let x := p.1 % 32
  let b := 4 * cubeOf (y, x) + st.bank
  let e := 8 * (y % 8) + x % 8
  seq [act (!st.zacc) (abFound site b e), look fun s' =>
    let addend := if st.zacc then Val.fin false 0 0 else f32Val (abValue s site b e)
    seq [accPut site b e (p.2.add addend).round,
      match armedFlip s' site b e with
      | some v => seq [setFlip site b e v, wrBit (cubePage site + 0x108) 31 false]
      | none => act (decide (flipOf s' site b e ≠ 0)) (setFlip site b e 0)]]

/-- CUBE_ACCUMULATE (R188 to R191, R196): the oldest step that entered is accumulated; in step 0 with zacc the other elements of the
bank become +0. DESIGN CHOICE (log entry 142): that +0 is no accumulation of R646; an armed injection stays armed and inverts no bit of it. -/
def actCubeAccumulate (site : Nat) : Act := look fun s =>
  match (coreX s site).pipe with
  | [] => nop
  | st :: _ =>
    seq [setCore site (fun x => { x with pipe := x.pipe.drop 1 }),
      act st.zacc (each (List.range 512) fun k => look fun s =>
        let b := 4 * cubeOf (k / 32, k % 32) + st.bank
        let e := 8 * (k / 32 % 8) + k % 32 % 8
        seq [accPut site b e 0, act (decide (flipOf s site b e ≠ 0)) (setFlip site b e 0)]),
      each st.sums fun p => accumulateOne site st p]

/-- CUBE_INJ (R203): a write of the injection register. -/
def cubeInjWrite (r : Requester) (site : Nat) (v : Word) : Act := look fun s =>
  if bit v 31 && (decide (39 ≤ fld v 29 24) || (bit v 30 && decide (38 ≤ fld v 29 24))) then protocolAt (cubePage site) r
  else maskWrite (blockOf s (cubePage site / 4096)) (cubePage site + 0x108) v

/-! ## Products begin -/

/-- A rod-table product enters the array: it steps, or waits behind the one that steps (R193, R194). -/
def enterArray (site : Nat) (i : Issued) : Act := look fun s =>
  let j : CubeJob := ⟨{ i with started := true }, 0, cmmSteps i⟩
  if (coreX s site).cube.isSome && (coreX s site).cubeWait.isSome then nop
  else seq [setIssued site i { i with started := true },
    if (coreX s site).cube.isSome then setCore site (fun x => { x with cubeWait := some j })
    else setCore site (fun x => { x with cube := some j })]

/-- CMM.f and CMM.i: the core's oldest product of the variant enters the array. -/
def actCmm (site op : Nat) : Act := look fun s =>
  match nextToStart s site 1 op with
  | some i => enterArray site i
  | none => nop

/-- Whether a masked product's map has no trained element (R300). -/
def untrained (i : Issued) : Bool := decide (i.trained = some 0)

/-- The oldest deferred product that has not begun, whatever rod-table product waits before it (R282). -/
def nextDeferred (s : State) (site : Nat) : Option Issued :=
  if fenced s (cubePage site) then none
  else (coreX s site).issued.find? (fun i => isDeferred i && !i.started && !i.faulted)

/-- CMM.w: a deferred product begins, and enters the DWQ by DWQ_ENQUEUE; one run in place enters the array once its mask is evaluated, or is
dropped in the cycle in which it could begin stepping, once the rod-table product before it has taken its last step (R194, R298, R300). -/
def actCmmW (site : Nat) : Act := look fun s =>
  match nextDeferred s site with
  | some i => setIssued site i { i with started := true }
  | none => match nextToStart s site 1 3 with
    | none => nop
    | some i =>
      if decide (cmmMask i.word ≠ 0) && i.trained.isNone then nop
      else if untrained i then act (coreX s site).cube.isNone (retire site i)
      else enterArray site i

/-- CUBE_MTn of a site: the register address. -/
def mtAddr (site n : Nat) : Nat := cubePage site + 0x400 + 32 * n

/-- The words of the core store that a mask evaluation reads (R297). -/
def maskWords (s : State) (site : Nat) (i : Issued) : List Nat :=
  let m := mtAddr site (cmmMask i.word)
  let rows := fld (rd s (m + 8)) 15 0
  let cols := fld (rd s (m + 8)) 31 16
  let rs := ((List.range 16).map (fun y => i.orow + y)).filter (fun r => decide (r < rows))
  let cs := ((List.range 32).map (fun x => i.ocol + x)).filter (fun c => decide (c < cols))
  let rw := if bit (rd s m) 30 then rs.map (fun r => fld (rd s m) 15 0 + r / 256) else []
  let bw := if bit (rd s m) 29 then
      rs.flatMap (fun r => cs.map (fun c => fld (rd s (m + 4)) 15 0 + (r / 64 * ceilDiv cols 64 + c / 64) / 256)) else []
  (rw ++ bw).eraseDups

/-- Whether weight element (r, c) is trained under mask entry n (R292, R294). -/
def maskBit (s : State) (site n r c : Nat) : Bool :=
  let m := mtAddr site n
  let rows := fld (rd s (m + 8)) 15 0
  let cols := fld (rd s (m + 8)) 31 16
  let at_ (base k : Nat) : Bool := bit (stGet s site (base + k / 256)) (k % 256)
  decide (r < rows) && decide (c < cols) && (!bit (rd s m) 30 || at_ (fld (rd s m) 15 0) r) &&
    (!bit (rd s m) 29 || at_ (fld (rd s (m + 4)) 15 0) (r / 64 * ceilDiv cols 64 + c / 64))

/-- The trained map of a CMM.w (R297). -/
def trainedMap (s : State) (site : Nat) (i : Issued) : BitVec 512 :=
  BitVec.ofNat 512 (ofBits ((List.range 512).filter
    (fun k => maskBit s site (cmmMask i.word) (i.orow + k / 32) (i.ocol + k % 32))))

/-- MASK_EVALUATE (R297, R299); `found` tells word by word what the reads found. -/
def actMaskEvaluate (site : Nat) (found : List Cell) : Act := look fun s =>
  match (coreX s site).issued.find? (fun i => isCmm i && decide (cmmMask i.word ≠ 0) && i.trained.isNone && !i.faulted) with
  | none => nop
  | some i =>
    let ws := maskWords s site i
    seq [stCount site ws.length, stFoundAll site ws found,
      if stBad s site ws found then insnFault site i false 0 0x21
      else setIssued site i { i with trained := some (trainedMap s site i) }]

/-- DWQ_ENQUEUE (R282, R290, R300): the oldest deferred product that has begun enters the queue, or is dropped; in a fenced page every one
is abandoned. -/
def actDwqEnqueue (site : Nat) : Act := look fun s =>
  let x := coreX s site
  let queued (i : Issued) : Bool := x.dwq.any (fun j => decide (j.insn.id = i.id)) || x.dwqCur.any (fun j => decide (j.insn.id = i.id))
  match x.issued.find? (fun i => isDeferred i && (i.started || fenced s (cubePage site)) && !i.faulted && !queued i) with
  | none => nop
  | some i =>
    if fenced s (cubePage site) then retire site i
    else if decide (cmmMask i.word ≠ 0) && i.trained.isNone then nop
    else if untrained i then retire site i
    else setCore site (fun x => { x with dwq := x.dwq ++ [⟨i, 0, cmmSteps i⟩] })

/-- R290: a fence of the CUBE_ page abandons the deferred products that have not begun stepping. -/
def abandonDwq (site : Nat) : Act := look fun s =>
  let steps (j : CubeJob) : Bool := decide (j.step ≠ 0)
  let gone := (coreX s site).issued.filter
    (fun i => isDeferred i && !i.faulted && !(coreX s site).dwqCur.any (fun j => decide (j.insn.id = i.id) && steps j))
  seq [setCore site (fun x => { x with dwq := [], dwqCur := x.dwqCur.filter steps }), each gone (retire site)]

end Sys2Proof.Machine
end

