-- ==== Sys2Proof/Machine/Vu.lean ====
section
/-! DEFINITION. The vector unit (R248 to R280): operands, element arithmetic, reductions, conversions, dropout, and its write port W1. -/

namespace Sys2Proof.Machine

/-! ## Fields of a VU operation (R112, R253) -/

/-- vd. -/
def vuVd (w : Word) : Nat := fld w 25 20
/-- va. -/
def vuVa (w : Word) : Nat := fld w 19 13
/-- vb. -/
def vuVb (w : Word) : Nat := fld w 12 6
/-- mod. -/
def vuMod (w : Word) : Nat := fld w 5 0
/-- The format field mod[5:4]. -/
def vuFmt (w : Word) : Nat := fld w 5 4
/-- The tile configuration register that a CVT or DEC names (vb[2:0]). -/
def vuTc (w : Word) : Nat := fld w 8 6
/-- The tensor slot mod[3:0]. -/
def vuSlot (w : Word) : Nat := fld w 3 0

/-! ## Non-finite reports (R239, R243) -/

/-- A core makes a non-finite report: it enters its herd's vote, or is late once the vote has closed. -/
def nfReport (site : Nat) : Act := look fun s =>
  match herdAt s site with
  | none => nop
  | some h =>
    seq [wrBit (vuPage site + 0x82C) 0 true,
      match herdOf s h with
      | some x =>
        if x.voteClosed then seq [wrBit (vuPage site + 0x82C) 3 true, setIst (vuPage site) 8]
        else setHerd h (fun x => { x with nonfinite := true })
      | none => nop]

/-! ## Sources (R248, R250) -/

/-- VU_TSLOTn of a site. -/
def tslot (s : State) (site n : Nat) : Word := rd s (vuPage site + 0x840 + 4 * n)
/-- Whether tensor slot n is bound. -/
def slotEn (s : State) (site n : Nat) : Bool := bit (tslot s site n) 31
/-- VU_TSCALEn. -/
def tscale (s : State) (site n : Nat) : Word := rd s (vuPage site + 0x880 + 4 * n)
/-- The field of bank number n in VU_BSC0 or VU_BSC1. -/
def bscField (s : State) (site n : Nat) : Nat := fld (rd s (vuPage site + 0x180 + n / 2 * 4)) (16 * (n % 2) + 15) (16 * (n % 2))
/-- s of R250 for bank ABb. -/
def bankScale (s : State) (site b : Nat) : Word :=
  let f := bscField s site (b % 4)
  if f.testBit 15 then mulF (tscale s site (f % 16)) (tscale s site (f / 16 % 16)) else one32

/-- Lane l of a source field v in format fmt, as an F32 word. -/
def srcLane (s : State) (site fmt v l : Nat) : Word :=
  let y := l / 8
  let x := l % 8
  if 64 ≤ v then mulF (abValue s site (v - 64) l) (bankScale s site (v - 64))
  else if fmt = 0 then BitVec.ofNat 32 (elem 32 (vGet s site (v + x / 2)) (2 * y + x % 2))
  else widen fmt (elem 16 (vGet s site (v + x / 4)) (4 * y + x % 4))

/-- The 64 lanes of a source. -/
def srcLanes (s : State) (site fmt v : Nat) : List Word := (List.range 64).map (srcLane s site fmt v)

/-- Whether a source field names a bank with steps still to accumulate (R197). -/
def bankBusy (s : State) (site v : Nat) : Bool :=
  decide (64 ≤ v) && (coreX s site).pipe.any (fun st => decide (st.bank = (v - 64) % 4))

/-- What reading a source does besides its value: errors found in a bank (R201, R202) and the report of R239. -/
def readSource (site v : Nat) : Act := look fun s =>
  act (decide (64 ≤ v)) (seq [
    each (List.range 64) fun e => abFound site (v - 64) e,
    act ((srcLanes s site 0 v).any nonFinite) (nfReport site)])

/-! ## Destinations -/

/-- The registers of a 64-lane result in format fmt from register vd (R248, R255). -/
def destRegs (fmt vd : Nat) (lanes : List Word) : List (Nat × BitVec 512) :=
  let at_ (l : Nat) : Word := lanes.getD l 0
  if fmt = 0 then (List.range 4).map fun r =>
    (vd + r, packElems 32 512 ((List.range 16).map (fun p => (at_ (8 * (p / 2) + 2 * r + p % 2)).toNat)))
  else (List.range 2).map fun r =>
    (vd + r, packElems 16 512 ((List.range 32).map (fun p => narrow fmt (at_ (8 * (p / 4) + 4 * r + p % 4)))))

/-- A result waits for port W1, register by register (R278), with the scale bytes written beside each. -/
def oweScaled (site : Nat) (i : Issued) (rs : List (Nat × BitVec 512)) (scales : Nat → List (Nat × Byte)) : Act :=
  let ws : List W1Write := rs.zipIdx.map fun p => ⟨i, some p.1, none, scales p.2, decide (p.2 + 1 = rs.length)⟩
  seq [setIssued site i { i with started := true }, setCore site (fun x => { x with w1 := x.w1 ++ ws })]

/-- A result without scale bytes. -/
def oweRegs (site : Nat) (i : Issued) (rs : List (Nat × BitVec 512)) : Act := oweScaled site i rs (fun _ => [])

/-- A 64-lane result in the operation's format. -/
def oweLanes (site : Nat) (i : Issued) (lanes : List Word) : Act :=
  oweRegs site i (destRegs (vuFmt i.word) (vuVd i.word) lanes)

/-- VU_RESULT_WRITE (R278): the oldest write that port W1 owes is made; the last one of an operation retires it. -/
def actVuResultWrite (site : Nat) : Act := look fun s =>
  match (coreX s site).w1 with
  | [] => nop
  | w :: _ =>
    seq [setCore site (fun x => { x with w1 := x.w1.drop 1 }),
      (match w.reg with
        | some p => vPut site p.1 p.2
        | none => nop),
      (match w.ra with
        | some p => each p.2.zipIdx fun q => wr (vuPage site + 0x300 + 32 * p.1 + 4 * q.2) q.1
        | none => nop),
      each w.scales fun p => look fun s =>
        vPut site (p.1 / 64) (putElem 8 (vGet s site (p.1 / 64)) (p.1 % 64) p.2.toNat),
      act w.last (retire site w.insn)]

/-- The oldest VU operation that has not begun, when it has opcode op (R276: the VU takes operations in issue order). -/
def vuNext (s : State) (site op : Nat) : Option Issued :=
  match (coreX s site).issued.find? (fun i => decide (i.part = 2) && decide (0x10 ≤ opOf 2 i.word) && !i.started && !i.faulted && !fenced s (vuPage site)) with
  | some i => if opOf 2 i.word = op then some i else none
  | none => none

/-- An operation begins once the banks it reads are accumulated. -/
def vuOp (site op : Nat) (reads : Word → List Nat) (body : Issued → Act) : Act := look fun s =>
  match vuNext s site op with
  | none => nop
  | some i =>
    if (reads i.word).any (bankBusy s site) then nop
    else seq [each (reads i.word) fun v => readSource site v, body i]

/-- The source fields of a one-source operation, and of a two-source one. -/
def readsA (w : Word) : List Nat := [vuVa w]
/-- va and vb. -/
def readsAB (w : Word) : List Nat := [vuVa w, vuVb w]
/-- va, and vb where it names no constant. -/
def readsArith (w : Word) : List Nat := if bit w 0 then [vuVa w] else [vuVa w, vuVb w]

/-! ## Element arithmetic (R254 to R257) -/

/-- va with abs and neg, and vb or the constant it names. -/
def arithA (s : State) (site : Nat) (w : Word) (l : Nat) : Word :=
  let x := srcLane s site (vuFmt w) (vuVa w) l
  let x := if bit w 2 then absF x else x
  if bit w 1 then negF x else x
/-- vb, or the constant it names. -/
def arithB (s : State) (site : Nat) (w : Word) (l : Nat) : Word :=
  if bit w 0 then rd s (vuPage site + 0x140 + 4 * (vuVb w % 16)) else srcLane s site (vuFmt w) (vuVb w) l

/-- An element-wise operation of two sources; `f` takes va, vb and the destination's old value. -/
def actArith (site op : Nat) (f : Word → Word → Word → Word) : Act :=
  vuOp site op readsArith fun i => look fun s =>
    oweLanes site i ((List.range 64).map fun l =>
      f (arithA s site i.word l) (arithB s site i.word l) (srcLane s site (vuFmt i.word) (vuVd i.word) l))

/-- FN (R258). -/
def actFn (site : Nat) : Act := vuOp site 0x18 readsA fun i => look fun s =>
  oweLanes site i ((srcLanes s site (vuFmt i.word) (vuVa i.word)).map (fnEval (fld i.word 3 0)))

/-- FND (R260). -/
def actFnd (site : Nat) : Act := vuOp site 0x19 readsAB fun i => look fun s =>
  oweLanes site i (List.zipWith (fndEval (fld i.word 3 0)) (srcLanes s site (vuFmt i.word) (vuVa i.word))
    (srcLanes s site (vuFmt i.word) (vuVb i.word)))

/-! ## Row reductions (R261, R262) -/

/-- RAk[y]. -/
def raGet (s : State) (site k y : Nat) : Word := rd s (vuPage site + 0x300 + 32 * k + 4 * y)

/-- One row of RED. -/
def redRow (kind : Nat) (reset : Bool) (old : Word) (a b : List Word) : Word :=
  let p (x : Nat) : Word :=
    let u := a.getD x 0
    if kind = 2 then mulF u u else if kind = 3 then mulF u (b.getD x 0) else u
  if kind = 1 then
    let m := ((List.range 7).map (fun x => p (x + 1))).foldl maxF (maxF (p 0) (p 0))
    if reset then m else maxF old m
  else
    let t := addF (addF (addF (p 0) (p 1)) (addF (p 2) (p 3))) (addF (addF (p 4) (p 5)) (addF (p 6) (p 7)))
    if reset then t else addF old t

/-- The source fields of RED: vb for DOT only. -/
def readsRed (w : Word) : List Nat := if fld w 1 0 = 3 then [vuVa w, vuVb w] else [vuVa w]

/-- RED. -/
def actRed (site : Nat) : Act := vuOp site 0x1A readsRed fun i => look fun s =>
  let w := i.word
  let k := vuVd w % 8
  let row (v y : Nat) : List Word := (List.range 8).map (fun x => srcLane s site (vuFmt w) v (8 * y + x))
  let vs := (List.range 8).map fun y =>
    redRow (fld w 1 0) (bit w 2) (raGet s site k y) (row (vuVa w) y) (if fld w 1 0 = 3 then row (vuVb w) y else [])
  seq [setIssued site i { i with started := true },
    setCore site (fun x => { x with w1 := x.w1 ++ [⟨i, none, some (k, vs), [], true⟩] })]

/-- RGET. -/
def actRget (site : Nat) : Act := vuOp site 0x1B (fun _ => []) fun i => look fun s =>
  oweLanes site i ((List.range 64).map (fun l => raGet s site (fld i.word 2 0) (l / 8)))

/-! ## Generators (R226 to R228) -/

/-- VU_RNG_CTRL.repro. -/
def reproMode (s : State) (site : Nat) : Bool := bit (rd s (vuPage site + 0x808)) 0
/-- Earlier uses of lane l on behalf of slot n since the bead boundary. -/
def usesOf (s : State) (site n l : Nat) : Nat := mGetD (coreX s site).uses (64 * n + l) 0

/-- The first cycle since the core's start that lane l can serve (R227): the present one, or the one after the lane's last use. -/
def laneCycle (s : State) (site l : Nat) : Nat :=
  max (s.cycle - (coreX s site).startCycle) (mGetD (coreX s site).laneNext l 0)

/-- The k-th next draw of lane l on behalf of slot n. In free mode a lane serves one use per cycle, from the present cycle on (DESIGN CHOICE,
log entry 28: which cycle of an operation a use falls in). -/
def drawAt (s : State) (site n l k : Nat) : Nat :=
  let who := hidxOf s site * 64
  if reproMode s site then
    let key := (rd64 s (vuPage site + 0x818) + rd64 s (vuPage site + 0x820)).toNat ^^^
      (fld (tslot s site n) 15 0 * 2 ^ 48) ^^^ ((coreX s site).rowsInStep % 65536 * 2 ^ 32) ^^^ who ^^^ l
    mix key (usesOf s site n l + k)
  else mix ((rd64 s (vuPage site + 0x810)).toNat ^^^ who ^^^ l) (laneCycle s site l + k)

/-- Lanes have drawn on behalf of slot n: each listed lane as often as it is listed. -/
def countDraws (site n : Nat) (lanes : List Nat) : Act := look fun s =>
  if reproMode s site then
    setCore site (fun x => { x with uses := lanes.foldl (fun u l => mSet u (64 * n + l) (mGetD u (64 * n + l) 0 + 1) 0) x.uses })
  else
    let after (u : List (Nat × Nat)) (l : Nat) : List (Nat × Nat) :=
      mSet u l (laneCycle s site l + (lanes.filter (fun m => decide (m = l))).length) 0
    setCore site (fun x => { x with laneNext := lanes.eraseDups.foldl after x.laneNext })

/-- DMSK (R274). -/
def actDmsk (site : Nat) : Act := vuOp site 0x1C (fun _ => []) fun i => look fun s =>
  let n := vuSlot i.word
  let keep := (List.range 64).filter (fun l => decide (fld (rd s (vuPage site + 0x200)) 15 0 * 65536 ≤ drawAt s site n l 0))
  seq [oweRegs site i [(vuVd i.word, BitVec.ofNat 512 (ofBits keep))], countDraws site n (List.range 64)]

/-- MSK (R275). -/
def actMsk (site : Nat) : Act := vuOp site 0x1D readsA fun i => look fun s =>
  let m := vGet s site (vuVb i.word % 64)
  oweLanes site i ((List.range 64).map fun l =>
    if bit m l then mulF (srcLane s site (vuFmt i.word) (vuVa i.word) l) (rd s (vuPage site + 0x204)) else 0)

/-! ## Conversions (R264 to R271) -/

/-- Figures join those of a tensor slot (R222), and an input that is a NaN or ±∞, as `nf` tells, on a watched slot is reported (R239); the
elements that an invalid tensor scale makes count as non-finite (R644) are not. -/
def addFigures (site n : Nat) (f : Figures) (nf : Bool) : Act := look fun s =>
  seq [setCore site (fun x => { x with figs := mSet x.figs n ((mGetD x.figs n Figures.zero).add f) Figures.zero }),
    act (bit (tslot s site n) 30 && nf) (nfReport site)]

/-- FORMAT for an invalid tensor scale, at most once per slot and step (R644). -/
def raiseFormat (site n : Nat) : Act := look fun s =>
  act (!bit (coreX s site).formatRaised n)
    (seq [setCore site (fun x => { x with formatRaised := setBit x.formatRaised n true }),
      coreEvent site (vuPage site) .format])

/-- A cursor: write (R265) or read (R272). -/
def cursorAddr (site n : Nat) (readC : Bool) : Nat := vuPage site + (if readC then 0x1E0 else 0x1C0) + 4 * n
/-- Its row group. -/
def cursorG (s : State) (site n : Nat) (readC : Bool) : Nat := fld (rd s (cursorAddr site n readC)) 13 8
/-- Its column strip. -/
def cursorK (s : State) (site n : Nat) (readC : Bool) : Nat := fld (rd s (cursorAddr site n readC)) 7 0
/-- The act that sets a cursor. DESIGN CHOICE (log entry 144): the fields hold what their bits do, so that g wraps after 63, and a write
cursor's k is taken modulo 64. -/
def setCursor (site n : Nat) (readC : Bool) (g k : Nat) : Act :=
  wr (cursorAddr site n readC) (BitVec.ofNat 32 (g % 64 * 256 + k % (if readC then 256 else 64)))
/-- After a strip of `width` columns: (g, k + 1), or (g + 1, 0) at the tile's right edge (R269, R272). -/
def advanceCursor (site n : Nat) (readC : Bool) (width g k cols : Nat) : Act :=
  if cols ≤ width * (k + 1) then setCursor site n readC (g + 1) 0 else setCursor site n readC g (k + 1)

/-- The source fields of a CVT: four banks, or the strip's own registers (R264). -/
def readsCvt (w : Word) : List Nat :=
  if 64 ≤ vuVa w then (List.range 4).map (fun q => vuVa w + 4 * q) else [vuVa w]

/-- Strip element (y, x) of a CVT (R264). -/
def stripElem (s : State) (site : Nat) (w : Word) (y x : Nat) : Word :=
  srcLane s site 0 (vuVa w + 4 * (x / 8)) (8 * y + x % 8)

/-- One block of a CVT: its row, its first strip column, its real columns. -/
def cvtBlocks (d : DWord) (g k : Nat) : List (Nat × Nat × Nat) :=
  (List.range 8).flatMap fun y =>
    if tRows d ≤ 8 * g + y then [] else
    (List.range (32 / tBs d)).filterMap fun q =>
      let x0 := tBs d * q
      let n := min (tBs d) (tCols d - (32 * k + x0))
      if n = 0 then none else some (y, x0, n)

/-- The conversion a CVT makes of one of its blocks. -/
def cvtOne (s : State) (site : Nat) (i : Issued) (b : Nat × Nat × Nat) : BlockConv :=
  let w := i.word
  let d := i.tcA
  let mode (x : Nat) : Mode :=
    if bit w 9 then .stochastic (drawAt s site (vuSlot w) (8 * b.1 + x % 8) (x / 8)) else .nearest
  convBlock ⟨tFmt d, tScl d, bit w 10, tscale s site (vuSlot w)⟩
    ((List.range b.2.2).map (fun m => (stripElem s site w b.1 (b.2.1 + m), mode (b.2.1 + m))))

/-- The data registers that a CVT writes (R266): the cells of its strip, zero in pad positions. -/
def cvtRegs (d : DWord) (g k : Nat) (codes : List (Nat × Nat × List Nat)) : List (Nat × BitVec 512) :=
  let w := cellRow (tFmt d)
  let b := fmtBits (tFmt d)
  let nc := 32 / fmtE (tFmt d)
  let c0 := nc * k
  let have_ := min nc (tCg d - c0)
  let value := codes.foldl (fun v p =>
    p.2.2.zipIdx.foldl (fun v c =>
      let x := p.2.1 + c.2
      v + c.1 * 2 ^ (8 * w * (x / fmtE (tFmt d)) + w * p.1 + b * (x % fmtE (tFmt d)))) v) 0
  let r0 := tBase d + g * tGroupRegs d + c0 * w / 64
  (List.range (ceilDiv (have_ * w) 64)).map (fun r => (r0 + r, BitVec.ofNat 512 (value / 2 ^ (512 * r))))

/-- The register of a CVT's strip beside which the scale byte of a block is written: the one that holds the block's first element (DESIGN
CHOICE, log entry 136). -/
def cvtScaleReg (d : DWord) (b : Nat × Nat × Nat) : Nat :=
  (8 * cellRow (tFmt d) * (b.2.1 / fmtE (tFmt d)) + cellRow (tFmt d) * b.1) / 512

/-- CVT. One that writes no register, count-only or beyond the tile's columns, retires as its cursor moves (R278). -/
def actCvt (site : Nat) : Act := vuOp site 0x20 readsCvt fun i => look fun s =>
  let w := i.word
  let d := i.tcA
  let n := vuSlot w
  let g := cursorG s site (vuTc w) false
  let k := cursorK s site (vuTc w) false
  let bs := cvtBlocks d g k
  let cs := bs.map (fun b => (b, cvtOne s site i b))
  let figs := cs.foldl (fun f c => f.add c.2.figs) Figures.zero
  let regs := cvtRegs d g k (cs.map (fun c => (c.1.1, c.1.2.1, c.2.codes)))
  let scales (r : Nat) : List (Nat × Byte) := (cs.filter (fun c => decide (cvtScaleReg d c.1 = r))).map fun c =>
    (64 * tSbase d + tBlockOf d (8 * g + c.1.1) (32 * k + c.1.2.1), BitVec.ofNat 8 c.2.scale)
  let draws := bs.flatMap (fun b => (List.range b.2.2).map (fun m => 8 * b.1 + (b.2.1 + m) % 8))
  let nf := bs.any (fun b => (List.range b.2.2).any (fun m => nonFinite (stripElem s site w b.1 (b.2.1 + m))))
  seq [addFigures site n figs nf, act (cs.any (fun c => c.2.invalid)) (raiseFormat site n),
    act (bit w 9) (countDraws site n draws),
    advanceCursor site (vuTc w) false 32 g k (tCols d),
    if bit w 4 || regs.isEmpty then retire site i
    else seq [oweScaled site i regs scales, count (vuPage site) 2 figs.elements]]

/-- CVH. -/
def actCvh (site : Nat) : Act := vuOp site 0x21 readsA fun i => look fun s =>
  let w := i.word
  let n := vuSlot w
  let code := if bit w 6 then 8 else 7
  let rs := (List.range 64).map fun l =>
    convHalf code (if bit w 5 then .stochastic (drawAt s site n l 0) else .nearest) (srcLane s site 0 (vuVa w) l)
  let half (l : Nat) : Nat := (rs.getD l (0, Figures.zero)).1
  let regs := (List.range 2).map fun r =>
    (vuVd w + r, packElems 16 512 ((List.range 32).map (fun p => half (8 * (p / 4) + 4 * r + p % 4))))
  let nf := rs.any (fun r => decide (r.2.nonfinite ≠ 0))
  seq [act (bit w 4) (addFigures site n (rs.foldl (fun f r => f.add r.2) Figures.zero) nf),
    act (bit w 5 && !bit w 4 && bit (tslot s site n) 30 && nf) (nfReport site),
    act (bit w 5) (countDraws site n (List.range 64)),
    oweRegs site i regs, count (vuPage site) 2 64]

/-! ## Decoding, cursors and scales (R272, R273, R251, R164) -/

/-- DEC. -/
def actDec (site : Nat) : Act := vuOp site 0x22 (fun _ => []) fun i => look fun s =>
  let w := i.word
  let d := i.tcA
  let g := cursorG s site (vuTc w) true
  let k := cursorK s site (vuTc w) true
  let lane (l : Nat) : Word :=
    let r := 8 * g + l / 8
    let c := 8 * k + l % 8
    if tRows d ≤ r ∨ tCols d ≤ c then 0
    else
      let v := tValue s site d r c
      if bit w 4 then toF32 (mulVal v (f32Val (tscale s site (vuSlot w)))) else toF32 v
  seq [advanceCursor site (vuTc w) true 8 g k (tCols d),
    oweRegs site i (destRegs (if bit w 5 then 1 else 0) (vuVd w) ((List.range 64).map lane))]

/-- CUR. -/
def actCur (site : Nat) : Act := vuOp site 0x23 (fun _ => []) fun i =>
  let w := i.word
  seq [setCursor site (fld w 2 0) (bit w 3) (vuVd w) (vuVa w + 128 * (vuVb w % 2)), retire site i]

/-- BSC. -/
def actBsc (site : Nat) : Act := vuOp site 0x24 (fun _ => []) fun i =>
  let w := i.word
  let n := fld w 1 0
  seq [wrFld (vuPage site + 0x180 + n / 2 * 4) (16 * (n % 2) + 15) (16 * (n % 2))
      (32768 * b2n (bit w 2) + 16 * (vuVb w % 16) + vuVd w % 16), retire site i]

/-- TCW (R164). -/
def actTcw (site : Nat) : Act := vuOp site 0x30 (fun _ => []) fun i => look fun s =>
  let w := i.word
  seq [wr64 (tilePage site + 0x100 + 8 * fld w 2 0) ((vGet s site (vuVa w % 64)).setWidth 64), retire site i]

end Sys2Proof.Machine
end

