-- ==== Sys2Proof/Machine/Scale.lean ====
section
/-! DEFINITION. The tensor scale and its history (R229 to R234, R645), the wider path (R235 to R238) and the non-finite vote (R239 to R244, R326). -/

namespace Sys2Proof.Machine

/-! ## Scale-table entries (R229) -/

/-- Bytes off to off + n − 1 of an entry as a number. -/
def entNat (bs : List Byte) (off n : Nat) : Nat := leNat ((bs.drop off).take n)
/-- An entry with bytes off to off + n − 1 holding v. -/
def entPut (bs : List Byte) (off n v : Nat) : List Byte := bs.take off ++ leBytes n v ++ bs.drop (off + n)
/-- Bits [hi:lo] of the word at off. -/
def entFld (bs : List Byte) (off hi lo : Nat) : Nat := bits (entNat bs off 4) hi lo
/-- An entry with bits [hi:lo] of the word at off holding v. -/
def entSet (bs : List Byte) (off hi lo v : Nat) : List Byte :=
  entPut bs off 4 (setFld (BitVec.ofNat 32 (entNat bs off 4)) hi lo v).toNat

/-- A count field with n added, saturating at 2^48 − 1 with ovf (R231). -/
def entCount (bs : List Byte) (off n : Nat) : List Byte :=
  let v := entNat bs off 6 + n
  let top := 2 ^ 48 - 1
  if v ≤ top then entPut bs off 6 v else entPut (entPut bs off 6 top) (off + 6) 2 0x8000

/-- A merge folded into an entry (R231). -/
def entMerge (bs : List Byte) (f : Figures) : List Byte :=
  let bs := entCount bs 0x20 f.clipped
  let bs := entCount bs 0x28 f.flushed
  let bs := entCount bs 0x30 f.nonfinite
  let bs := entCount bs 0x38 f.elements
  let bs := entPut bs 0x18 4 (max (entNat bs 0x18 4) f.amax.toNat)
  entSet bs 0x10 10 0 (min (entFld bs 0x10 10 0 + 1) 0x7FF)

/-- Whether an entry is never evaluated (R233): ncontrib 0, or a scale or fmt code that R161 would reject. -/
def entDead (bs : List Byte) : Bool :=
  let f := entFld bs 4 3 0
  let c := entFld bs 4 5 4
  decide (entFld bs 0x0C 10 0 = 0) || decide (c = 3) || decide (f = 0) || decide (9 < f) ||
    (if f ≤ 5 then decide (c = 0) else if f = 6 then decide (c ≠ 1) else decide (c ≠ 0))

/-- 2^k as an F32 word, k from −126 to 127. -/
def pow2Word (k : Int) : Word := BitVec.ofNat 32 ((k + 127).toNat * 2 ^ 23)

/-- The tensor scale for a history maximum h (R232). -/
def scaleFor (fmt : Nat) (margin : Int) (h : Word) : Word :=
  let q := magQ h
  let m := dyadic 1 margin
  let e := emaxQ fmt
  pow2Word (max (-126) (min 127 (ceilLog2 (q.1 * m.1 * e.2) (q.2 * m.2 * e.1 * 448))))

/-- The history entries that a window of w steps sees, as F32 words. -/
def entHist (bs : List Byte) (w : Nat) : List Word :=
  let head := entFld bs 0x10 26 22
  (List.range (min (entFld bs 0x10 21 16) w)).map fun k =>
    BitVec.ofNat 32 (entNat bs (0x80 + 4 * ((head + 31 - k) % 32)) 4)

/-- What an evaluation does to the flag of an entry: nothing, set (trip, R235), or clear (return, R236). -/
inductive FlagMove where
  | keep
  | set
  | clear
  deriving DecidableEq, Repr

/-- The trip and return tests on the step's counts. -/
def entTrip (bs : List Byte) : List Byte × FlagMove :=
  let clip := entNat bs 0x20 6
  let n := entNat bs 0x38 6
  if !(entFld bs 4 28 28 = 1 && decide (0 < n)) then (bs, .keep)
  else if entFld bs 0x10 27 27 = 0 then
    if entFld bs 8 15 0 * n ≤ clip * 65536 then (entSet (entSet bs 0x10 27 27 1) 0x14 7 0 0, .set) else (bs, .keep)
  else
    let hold := entFld bs 0x0C 23 16
    if hold = 0 ∨ entFld bs 4 29 29 = 1 then (bs, .keep)
    else
      let below := if clip * 65536 < entFld bs 8 31 16 * n then entFld bs 0x14 7 0 + 1 else 0
      if hold ≤ below then (entSet (entSet bs 0x10 27 27 0) 0x14 7 0 0, .clear) else (entSet bs 0x14 7 0 below, .keep)

/-- An evaluation of an entry (R232). -/
def entEvaluate (bs : List Byte) : List Byte × FlagMove :=
  let bs := entPut bs 0x40 32 (entNat bs 0x20 32)
  let bs := entPut bs 0x60 4 (entNat bs 0x18 4)
  let head := entFld bs 0x10 26 22
  let bs := if 0 < entNat bs 0x38 6 then
      let b := entPut bs (0x80 + 4 * head) 4 (entNat bs 0x18 4)
      entSet (entSet b 0x10 26 22 ((head + 1) % 32)) 0x10 21 16 (min (entFld b 0x10 21 16 + 1) 32)
    else bs
  let bs := if entFld bs 4 6 6 = 1 && entFld bs 4 5 4 = 1 then
      let h := (entHist bs (entFld bs 4 12 8 + 1)).foldl (fun m x => if m.toNat < x.toNat then x else m) (0 : Word)
      if h = 0 then bs else entPut bs 0 4 (scaleFor (entFld bs 4 3 0) (signed 4 (entFld bs 4 19 16)) h).toNat
    else bs
  let r := entTrip bs
  let bs := entPut r.1 0x20 32 0
  let bs := entPut bs 0x18 4 0
  let bs := entSet bs 0x10 10 0 0
  (entPut bs 0x64 4 (entNat bs 0x64 4 + 1), r.2)

/-! ## Reads at a step boundary, merges (R230, R231, R645) -/

/-- VU_STBASE of a site. -/
def stBase (s : State) (site : Nat) : Nat := (rd64 s (vuPage site + 0x800)).toNat
/-- The unified-range address of the entry that tensor slot n of a site is bound to. -/
def entryAddr (s : State) (site n : Nat) : Nat := stBase s site + 256 * fld (tslot s site n) 15 0

/-- The class of a refused access (R645), and the capture of the entry's address in the VU_ page. -/
def vuRefused (site addr : Nat) (c : Cls) : Act := look fun s =>
  raise (vuPage site) { cls := c, addr := some addr, herd := herdAt s site }

/-- The read of step 1 of R230 for one slot; a page that moves is read once its move has ended. -/
def readScale (site n : Nat) : Act := look fun s =>
  let a := entryAddr s site n
  let h := herdNo s site
  let put (w : Word) : Act := wr (vuPage site + 0x880 + 4 * n) w
  let fail (c : Cls) : Act := seq [put nan32, vuRefused site a c]
  seq [entryRead (a / 65536) h, match judgeStill s h (a / 65536) false with
    | .waits | .absent => fail .protocol
    | .hidden => seq [hiddenActs h a, fail .protocol]
    | .readOnly => fail .security
    | .far ext page => seq [touch (a / 65536), farRequest ext page (a % 65536) 4 none,
        if farServes s ext then put (leWord ((List.range 4).map (fun i => farByte s ext page (a % 65536 + i)))) else fail .uncorrContained]
    | .frame f => seq [touch (a / 65536), devReadActs (65536 * f + a % 65536) 4 .mesh (some h),
        match devRead s (65536 * f + a % 65536) 4 with
        | some bs => put (leWord bs)
        | none => fail .uncorrContained]]

/-- R230 step 1 at a step boundary, or at the start bead (`start`), whose figures are not merged. -/
def boundaryReads (site : Nat) (start : Bool) : Act := look fun s =>
  seq [each ((List.range 16).filter (slotEn s site)) fun n => readScale site n,
    setCore site (fun x => { x with mergeOwed := !start, formatRaised := 0, figs := if start then [] else x.figs })]

/-- SCALE_MERGE_SEND (R230 steps 2 and 3): one merge per enabled slot; the running figures return to zero. DESIGN CHOICE (log entry 143): a
conversion that runs between the boundary's reads and this counts into the step that has ended. -/
def actScaleMergeSend (site : Nat) : Act := look fun s =>
  let x := coreX s site
  act x.mergeOwed (seq [
    one (.merges (s.merges ++ ((List.range 16).filter (slotEn s site)).map fun n =>
      ⟨herdNo s site, entryAddr s site n, mGetD x.figs n Figures.zero, some site⟩)),
    setCore site (fun x => { x with mergeOwed := false, figs := [] })])

/-- A merge that cannot be applied is dropped (R645); one of an engine raises its class in the MIG_ page alone. -/
def mergeRefused (m : Merge) (c : Cls) : Act :=
  match m.site with
  | some site => vuRefused site m.addr c
  | none => nop

/-- A merge reaches its entry at device address a (R231, R233). -/
def mergeAt (m : Merge) (a : Nat) : Act := look fun s =>
  match devRead s a 256 with
  | none => seq [devReadActs a 256 .mesh (some m.herd), mergeRefused m .uncorrContained]
  | some bs =>
    let new := entMerge bs m.figs
    let port := a / 65536 % 24
    seq [devReadActs a 256 .mesh (some m.herd), devWrite a new m.herd,
      if entDead bs then act (decide (entFld bs 0x10 10 0 = 0))
        (raise (uePage port) { cls := .format, herd := some m.herd })
      else act (decide (entFld new 0x10 10 0 = entFld bs 0x0C 10 0))
        (look fun s => one (.evalDue (s.evalDue ++ [(a, m.herd)])))]

/-- Whether a merge's page is not moving. -/
def mergeReady (s : State) (m : Merge) : Bool := decide (judge s m.herd (m.addr / 65536) true ≠ .waits)

/-- SCALE_MERGE: the oldest merge whose page is not moving arrives. -/
def actScaleMerge : Act := look fun s =>
  match s.merges.find? (mergeReady s) with
  | none => nop
  | some m =>
    let p := m.addr / 65536
    seq [one (.merges (s.merges.erase m)), judgeActs m.herd p m.addr true,
      match judge s m.herd p true with
      | .frame f => mergeAt m (65536 * f + m.addr % 65536)
      | .readOnly => mergeRefused m .security
      | _ => mergeRefused m .protocol]

/-! ## Evaluation -/

/-- R237, R482: a flag set on a pod herd is forwarded. DEDUCED (log entry 31): the lead sends a FLAG to every member concerned, and
another member sends it to the lead, which forwards it. -/
def forwardFlag (h f : Nat) (set : Bool) : Act := look fun s =>
  if !podEn s then nop
  else each (if isLead s then podOthers s h else [leadPos s]) fun p =>
    sendFrame (ctlFrame s 0x15 h p (f + 256 * b2n set) 0 [])

/-- The evaluations that are due on port n, oldest first (R231). -/
def evalsDue (s : State) (n : Nat) : List (Nat × Nat) := s.evalDue.filter (fun e => decide (e.1 / 65536 % 24 = n))

/-- SCALE_EVALUATE (R232, R343): engine n evaluates the oldest entry that is due on its port. -/
def actScaleEvaluate (n : Nat) : Act := look fun s =>
  match (evalsDue s n).head? with
  | none => nop
  | some e =>
    seq [one (.evalDue (s.evalDue.erase e)),
      match devRead s e.1 256 with
      | none => devReadActs e.1 256 .engine (some e.2)
      | some bs =>
        let r := entEvaluate bs
        let f := entFld bs 4 27 20
        let pod := entFld bs 4 29 29 = 1
        seq [devReadActs e.1 256 .engine (some e.2), devWrite e.1 r.1 e.2,
          match r.2 with
          | .keep => nop
          | .set => seq [flagAll (.ue n) e.2 f 0, act pod (forwardFlag e.2 f true)]
          | .clear => flagAll (.ue n) e.2 f 1]]

/-! ## The non-finite vote -/

/-- The core whose registers give a herd's vote: its hidx 0 core. -/
def voteSite (s : State) (h : Nat) : Nat := (siteAt s h 0).getD 0
/-- Whether a herd takes part in the vote: en and a nonzero close_slot (R240, R326). -/
def voteOn (s : State) (h : Nat) : Bool :=
  let w := rd s (vuPage (voteSite s h) + 0x828)
  bit w 0 && decide (fld w 15 8 ≠ 0)
/-- UE_HVOTEh of engine n. -/
def hvote (n h : Nat) : Nat := uePage n + 0xA00 + 8 * h

/-- The vote of herd h has its OR (R241, R326): every engine and every core of the herd takes it. -/
def voteResult (h : Nat) (v : Bool) : Act := look fun s =>
  let step := rd s (vuPage (voteSite s h) + 0x820)
  seq [each (List.range 24) fun n => seq [wrBit (hvote n h) 30 true, wrBit (hvote n h) 29 v, wr (hvote n h + 4) step],
    each (herdSites s h) fun c => seq [wrBit (vuPage c + 0x82C) 2 v, wrBit (vuPage c + 0x82C) 1 true]]

/-- The vote of herd h closes at this boundary (R240, R241): its bit is known at once on a device that is no pod member. -/
def closeVote (h : Nat) : Act := look fun s =>
  match herdOf s h with
  | none => nop
  | some x =>
    if voteOn s h && !x.voteClosed then
      seq [setHerd h (fun x => { x with voteClosed := true }),
        if podEn s then one (.side { s.side with votes := setBit s.side.votes h x.nonfinite, closing := h :: s.side.closing })
        else voteResult h x.nonfinite]
    else nop

/-- The herd's step boundary (R239, R326): reports start afresh, and the engines take whether the vote is enabled. -/
def voteStep (h : Nat) : Act := look fun s =>
  seq [setHerd h (fun x => { x with nonfinite := false, voteClosed := false }),
    each (List.range 24) fun n => wrBit (hvote n h) 31 (voteOn s h)]

end Sys2Proof.Machine
end

