-- ==== Sys2Proof/Machine/SnapCut.lean ====
section
/-! DEFINITION. The cut of a snapshot (R537 to R544): protection-list entries, the choice of method, what begins at a step boundary, which update descriptors wait, and what an abandoned snapshot leaves. -/

namespace Sys2Proof.Machine

/-- The snapshot engine's state of herd h. -/
def snapOf (s : State) (h : Nat) : Snap := mGetD s.snap h Snap.clear
/-- The act that changes it. -/
def setSnap (h : Nat) (f : Snap → Snap) : Act := look fun s => one (.snap h (f (snapOf s h)))
/-- The block of herd h in the SNAP_ page. -/
def snapReg (h : Nat) : Nat := snapPage + 0x400 + 0x30 * h
/-- SNAP_HLASTh, s*. -/
def snapLast (s : State) (h : Nat) : Nat := (rd64 s (snapReg h + 8)).toNat
/-- SNAP_HNEXTh. -/
def snapNext (s : State) (h : Nat) : Nat := (rd64 s (snapReg h + 0x10)).toNat
/-- SNAP_HSTATh.interval. -/
def snapInterval (s : State) (h : Nat) : Nat := fld (rd s (snapReg h + 4)) 15 0
/-- SNAP_HCTRLh.en. -/
def snapEn (s : State) (h : Nat) : Bool := bit (rd s (snapReg h)) 31
/-- SNAP_CFG.baxis of a herd's settings; 3, no axis, before any. -/
def baxisOf (x : Snap) : Nat := (x.params.map (·.baxis.val)).getD 3
/-- SNAP_HNEXTh is written. -/
def setSnapNext (h n : Nat) : Act := wr64 (snapReg h + 0x10) (BitVec.ofNat 64 n)

/-- SNAP_HSTATh.state of herd h. -/
def snapState (s : State) (h : Nat) : Nat :=
  let x := snapOf s h
  match x.restore with
  | some r => if r.spare then 5 else 4
  | none => if !snapEn s h then 0 else if x.cap.isSome then 2 else if x.cur.isSome then 3 else 1

/-- SNAP_HSTATh.state and SNAP_STAT follow the engine. -/
def snapStatus (h : Nat) : Act := look fun s =>
  seq [wrFld (snapReg h + 4) 31 29 (snapState s h),
    wrBit (snapPage + 0x104) 0 (s.snap.any (fun p => p.2.cur.isSome || p.2.cap.isSome || p.2.restore.isSome)),
    wrBit (snapPage + 0x104) 1 (s.snap.any (fun p => p.2.restore.isSome)),
    wrBit (snapPage + 0x104) 3 (s.snap.any (fun p => p.2.restore.any (·.spare)))]

/-- The device address of group g's entry (R317, R351). -/
def groupEntryAddr (s : State) (g : Nat) : Nat := 65536 * (rsvBase s + 8192) + 32 * g

/-- Whether an entry is frozen (R537): by its bit, or because every group of its range is. -/
def entryFrozen (s : State) (e : SnapEntry) : Bool :=
  e.frozen || (e.gvalid && decide (0 < e.gcount) && (List.range e.gcount).all fun i =>
    (tableNat s (groupEntryAddr s (e.gfirst + i)) 4).testBit 30)

/-- The reads of the group entries that tell whether an entry is frozen (R394). -/
def frozenReads (h : Nat) (e : SnapEntry) : Act := look fun s =>
  act (!e.frozen && e.gvalid) (each (List.range e.gcount) fun i => tableRead (groupEntryAddr s (e.gfirst + i)) (some h))

/-- Whether group g lies in an entry's range. -/
def entryGroup (e : SnapEntry) (g : Nat) : Bool := e.gvalid && decide (e.gfirst ≤ g) && decide (g < e.gfirst + e.gcount)

/-- An entry's completion records of a step: their number, Σchanged, Σdone. -/
def entryCounts (e : SnapEntry) (step : Nat) : Nat × Nat × Nat :=
  ((e.counts.find? (fun c => decide (c.1 = step))).map (·.2)).getD (0, 0, 0)

/-- Whether an entry is to be read in the capture in progress: in a snapshot every entry but a frozen one already in the base slot, in a
mirror generation those of Method M. -/
def entryWanted (s : State) (x : Snap) (e : SnapEntry) : Bool :=
  (x.capSnap && !(entryFrozen s e && e.based)) || (x.capMirror && e.useM && !entryFrozen s e)

/-- Whether every wanted entry is captured. -/
def allCaptured (s : State) (x : Snap) : Bool := x.entries.all (fun e => !entryWanted s x e || e.captured)

/-- R542: a descriptor of herd h for group g and step `st` waits for an entry that is not yet captured. -/
def snapHolds (s : State) (h g st : Nat) : Bool :=
  let x := snapOf s h
  match x.cap with
  | some c => decide (c % 4294967296 < st) && x.entries.any (fun e => entryWanted s x e && !e.captured && entryGroup e g)
  | none => false

/-- A completion record of herd h for group g and step `st` counts in its entries: in their rate and change whatever its status (R538, R561),
toward ndesc with a status below 0x80 (R541). -/
def snapRecord (h g st status changed done : Nat) : Act := look fun s =>
  act (!(snapOf s h).entries.isEmpty) (setSnap h (fun x => { x with entries := x.entries.map (fun e =>
    if entryGroup e g then
      let c := entryCounts e st
      { e with
        counts := (st, c.1 + b2n (decide (status < 0x80)), c.2.1 + changed, c.2.2 + done) :: e.counts.filter (fun k => decide (k.1 ≠ st))
        changedSince := e.changedSince || decide (0 < changed) }
    else e) }))

/-- The rate of an entry in a step, in units of 2⁻¹⁶ (R538). -/
def entryRate (e : SnapEntry) (st : Nat) : Nat :=
  if !e.gvalid then 65536
  else
    let c := entryCounts e st
    if c.2.2 = 0 then 0 else c.2.1 * 65536 / c.2.2

/-- Automatic entries are taken in order while the pages fit in the budget. -/
def takeFitting : Nat → List (Nat × Nat) → List Nat
  | _, [] => []
  | room, p :: ps => if p.2 ≤ room then p.1 :: takeFitting (room - p.2) ps else []

/-- The Method M entries of a snapshot of step `st` (R539), by index. -/
def chooseM (s : State) (x : Snap) (st : Nat) : List Nat :=
  match x.params with
  | none => []
  | some p =>
    if p.baxis.val = 3 then []
    else
      let es := x.entries.zipIdx.filter (fun q => !entryFrozen s q.1)
      let fixed := es.filter (fun q => decide (q.1.method = 2))
      let auto := (es.filter (fun q => decide (q.1.method = 0) && decide (p.rmin ≤ entryRate q.1 st))).mergeSort
        (fun a b => decide (entryRate b.1 st ≤ entryRate a.1 st))
      let used := fixed.foldl (fun n q => n + q.1.npages) 0
      fixed.map (·.2) ++ takeFitting (p.mquota / 2 - used) (auto.map (fun q => (q.2, q.1.npages)))

/-- The ungrouped entries' pages, in list order: page and place in the herd's staging share (R543). -/
def stagedPages (x : Snap) : List (Nat × Nat) :=
  ((x.entries.filter (fun e => !e.gvalid)).flatMap (fun e => (List.range e.npages).map (e.page + ·))).zipIdx
/-- The first of the herd's 192 staging frames (R351, R543). -/
def stagingFrame (s : State) (h : Nat) : Nat := rsvBase s + 9288 + 192 * h

/-- The copy of the ungrouped entries into the staging frames (R543). -/
def stageUngrouped (h : Nat) : Act := look fun s =>
  each (stagedPages (snapOf s h)) fun p => look fun s =>
    let e := homeEntry s p.1
    act (eValid e) (seq [copyReads e h, look fun s => copyHome s e false (stagingFrame s h + p.2)])

/-- SCHEDULE for a capture that was abandoned (R544). -/
def abandonEvent (h : Nat) : Act :=
  seq [count snapPage 6 1, raise snapPage { cls := .schedule, herd := some h }, setIst snapPage 9]

/-- The members that hold no core of herd h and mirror one that does, with the herd's settings (R553). -/
def outerBuddies (s : State) (h : Nat) (baxis : Nat) : List Nat :=
  if baxis = 3 then []
  else
    let holds := ownPos s :: herdMembers s h
    ((holds.map (fun p => torusNext s p (2 * baxis))).eraseDups).filter (fun q => isPresent s q && !holds.contains q)

/-- The members that a command which sets up or ends the herd's state goes to: those that hold cores of it, and the buddies that hold none. -/
def herdReach (s : State) (h : Nat) : List Nat :=
  let others := herdMembers s h
  if others.isEmpty then [] else others ++ outerBuddies s h (baxisOf (snapOf s h))

/-- A frame of the snapshot classes from this member to another (R551). -/
def snapFrame (s : State) (type lvc h dst addr : Nat) (data : List Byte) : Frame :=
  ⟨BitVec.ofNat 8 type, lvc, h, ownPos s, dst, false, false, 0, 0, 0, 0, 0, addr, 0, data⟩

/-- The lead tells every other member of herd h the next snapshot's step. -/
def sendPlan (h n : Nat) : Act := look fun s =>
  each (herdMembers s h) fun p => sendFrame (snapFrame s 0x2A 1 h p n [])

/-- A capture for a mirror generation alone ends once every wanted entry is captured. -/
def endMirror (h : Nat) : Act := look fun s =>
  let x := snapOf s h
  act (!x.capSnap && allCaptured s x)
    (setSnap h (fun x => { x with cap := none, capMirror := false, gen := if x.capMirror then x.cap else x.gen }))

/-- The snapshot in progress is dropped; a capture for it ends, one for a mirror generation goes on, or ends where it wants nothing more. -/
def dropSnapshot (h : Nat) : Act := seq [
  setSnap h (fun x => { x with
    cur := none, sendQ := [], await_ := [], manifest := false, committed := [], capSnap := false,
    cap := if x.capMirror then x.cap else none, entries := x.entries.map (fun e => { e with inBase := false }) }),
  endMirror h]

/-- R544: snapshot st is abandoned. A member other than the lead reports it; the lead plans the next for every member. -/
def abandonSnapshot (h st : Nat) (report : Bool) : Act := look fun s =>
  seq [dropSnapshot h, abandonEvent h, setSnapNext h (st + 2),
    act (report && (herdOf s h).any (·.pod) && podEn s)
      (if isLead s then sendPlan h (st + 2)
        else sendFrame (snapFrame s 0x28 1 h (leadPos s) (2 ^ 63 + st) [])),
    snapStatus h]

/-- The mirror generation being captured is dropped. -/
def dropMirror (h : Nat) : Act :=
  setSnap h (fun x => { x with capMirror := false, gen := none, mirrorOut := [], cap := if x.capSnap then x.cap else none })

/-- R544: the mirror generation being captured, which belongs to no snapshot, is abandoned. -/
def abandonMirror (h : Nat) : Act := seq [dropMirror h, abandonEvent h, snapStatus h]

/-- What an earlier capture that is late leaves (R544). -/
def snapLate (h idx : Nat) : Act := look fun s =>
  let x := snapOf s h
  match x.cap with
  | some c => act (decide (c + 2 ≤ idx) && !allCaptured s x)
      (if x.capSnap then seq [dropMirror h, abandonSnapshot h c true] else abandonMirror h)
  | none => nop

/-- The capture of step st begins: for a snapshot, for a mirror generation. A mirror generation copies the ungrouped entries where it sends
one. -/
def beginCapture (h st : Nat) (forSnap : Bool) : Act := look fun s =>
  let x := snapOf s h
  let ms := if forSnap then chooseM s x (st % 4294967296)
    else (x.entries.zipIdx.filter (fun q => q.1.useM && !entryFrozen s q.1)).map (·.2)
  let mirror := !ms.isEmpty && decide (baxisOf x ≠ 3)
  let copies := forSnap || x.entries.zipIdx.any (fun q => !q.1.gvalid && ms.contains q.2)
  act (forSnap || mirror) (seq [
    setSnap h (fun x => { x with
      cap := some st, capSnap := forSnap, capMirror := mirror, copied := !copies,
      cur := if forSnap then some st else x.cur
      now := if forSnap then false else x.now
      gen := if mirror then none else x.gen
      mirrorOut := if mirror then [] else x.mirrorOut
      entries := x.entries.zipIdx.map (fun q => { q.1 with
        final := false, captured := false, useM := ms.contains q.2,
        counts := q.1.counts.filter (fun c => decide (st % 4294967296 ≤ c.1) || decide (snapLast s h % 4294967296 < c.1)) }) }),
    each x.entries (frozenReads h), act copies (stageUngrouped h), snapStatus h])

/-- A step boundary of herd h at which VU_STEPIDX becomes idx (R540, R544, R557). A snapshot due while one is still being written is
skipped; one asked for by SNAP_NOW then waits for the next boundary. -/
def snapBoundary (h idx : Nat) : Act := look fun s =>
  act (snapEn s h && decide (0 < idx) && (snapOf s h).restore.isNone) (seq [snapLate h idx, look fun s =>
    let x := snapOf s h
    let due := decide (snapNext s h = idx - 1)
    if x.cur.isSome then seq [
        act due (seq [count snapPage 6 1, setSnapNext h (snapNext s h + snapInterval s h)]),
        act x.cap.isNone (beginCapture h (idx - 1) false)]
    else act x.cap.isNone (beginCapture h (idx - 1) (due || x.now))])

end Sys2Proof.Machine
end

