-- ==== Sys2Proof/Machine/Engine.lean ====
section
/-! DEFINITION. The update engines (R304 to R346): rings and descriptors, the group table, curves, programs, batches, working copies, program loads. -/

namespace Sys2Proof.Machine

/-! ## Memory in the update-engine column (R356) -/

/-- How an engine's access ends: bytes, a wait, or a status (R344). -/
inductive Eng where
  | ok (bs : List Byte)
  | wait
  | bad (status : Nat)
  deriving DecidableEq, Repr

/-- One page's part of an engine read; `port` limits it to frames of one port (R313). -/
def engPart (s : State) (h : Nat) (port : Option Nat) (p : Nat × Nat × Nat × Nat) : Eng :=
  match judge s h p.1 false with
  | .waits => .wait
  | .frame f =>
    if port.any (fun n => decide (f % 24 ≠ n)) then .bad 0x84
    else match devRead s (65536 * f + p.2.1) p.2.2.1 with
      | some bs => .ok bs
      | none => .bad 0x83
  | _ => .bad 0x84

/-- An engine read of n bytes at unified-range address a by herd h. -/
def engRead (s : State) (h a n : Nat) (port : Option Nat) : Eng :=
  (pageParts a n).foldl (fun acc p => match acc with
    | .ok bs => match engPart s h port p with
      | .ok cs => .ok (bs ++ cs)
      | r => r
    | r => r) (.ok [])

/-- The judgement of an engine write. -/
def engWriteJudge (s : State) (h a n : Nat) (port : Option Nat) : Eng :=
  (pageParts a n).foldl (fun acc p => match acc with
    | .ok bs => match judge s h p.1 true with
      | .waits => .wait
      | .frame f => if port.any (fun n => decide (f % 24 ≠ n)) then .bad 0x84 else .ok bs
      | .hidden | .readOnly => .bad 0x85
      | _ => .bad 0x84
    | r => r) (.ok [])

/-- The effects of an engine's access besides its bytes: port reads, touches, refusals. -/
def engActs (h a n : Nat) (port : Option Nat) (write : Bool) : Act := look fun s =>
  each (pageParts a n) fun p => seq [judgeActs h p.1 (65536 * p.1 + p.2.1) write,
    act (!write) (match judge s h p.1 false with
      | .frame f => if port.any (fun n => decide (f % 24 ≠ n)) then nop
          else devReadActs (65536 * f + p.2.1) p.2.2.1 .engine (some h)
      | _ => nop)]

/-! ## Rings (R307, R308) -/

/-- UE_RINGh of engine n; BX_CRINGh as engine 24 (R483). -/
def ringAddr (n h : Nat) : Nat := if n < 24 then uePage n + 0x200 + 16 * h else bxPage 0 + 0xA00 + 16 * h
/-- Whether a ring is enabled and not halted. -/
def ringRuns (s : State) (n h : Nat) : Bool := bit (rd s (ringAddr n h + 4)) 31 && !bit (rd s (ringAddr n h + 4)) 30
/-- head. -/
def ringHead (s : State) (n h : Nat) : Nat := (rd s (ringAddr n h + 8)).toNat
/-- The address of the entry at head. -/
def ringEntry (s : State) (n h : Nat) : Nat :=
  let c := rd s (ringAddr n h + 4)
  fld c 9 0 * 4294967296 + (rd s (ringAddr n h)).toNat / 64 * 64 + 64 * (ringHead s n h % ringSize c)
/-- The descriptor at head, when it can be read. -/
def ringRead (s : State) (n h : Nat) : Eng := engRead s h (ringEntry s n h) 64 none
/-- The words of the descriptor at head, when its seq matches. -/
def ringMatch (s : State) (n h : Nat) : Option (List Word) :=
  match ringRead s n h with
  | .ok bs =>
    let ws := leWords 16 bs
    if fld (ws.getD 0 0) 31 16 = ringHead s n h % 65536 then some ws else none
  | _ => none

/-- The class that a refused ring read carries (R308). -/
def refusalClass (s : State) (h a : Nat) (status : Nat) : Cls :=
  if status = 0x83 then .uncorrContained
  else match judge s h (a / 65536) false with
    | .hidden => .security
    | _ => .protocol

/-- The page that reports for a ring. -/
def ringPage (n : Nat) : Nat := if n < 24 then uePage n else bxPage 0

/-- The poll of a ring: a read that cannot be served raises its class once (R308). -/
def pollRing (n h : Nat) : Act := look fun s =>
  let a := ringEntry s n h
  let k := 64 * n + h
  if !ringRuns s n h then nop
  else match ringRead s n h with
    | .wait => nop
    | .ok _ => seq [engActs h a 64 none false, act (mGet s.ringFail k).isSome (one (.ringFail k none))]
    | .bad st => seq [engActs h a 64 none false, act (mGet s.ringFail k).isNone
        (seq [one (.ringFail k (some st)),
          raise (ringPage n) { cls := refusalClass s h a st, addr := some a, herd := some h }])]

/-- Whether a tally command of engine n for herd h is on its way: in the mesh, or at a core where it has not taken effect (R314, R428). -/
def notePending (s : State) (n h : Nat) : Bool :=
  let src := (attachOf (.ue n)).1
  let tally : Payload → Bool
    | .tally _ _ _ _ _ _ => true
    | _ => false
  s.packets.any (fun q => decide (q.src = src) && decide (q.herd = h) && tally q.payload) ||
    (herdSites s h).any (fun c => ((coreX s c).inbox.zip (coreX s c).inboxFrom).any (fun p => decide (p.2 = src) && tally p.1))

/-- UE_RING_POLL: the ring is read once its last descriptor's writes and notification have taken effect (R311). -/
def actUeRingPoll (n h : Nat) : Act := look fun s =>
  act (!s.desc.any (fun d => decide (d.eng = n) && decide (d.herd = h)) && !notePending s n h) (pollRing n h)

/-- A ring's control word is written (R307): a write that sets en also sets head to 0. -/
def ringEnableWrite (n h : Nat) (v : Word) : Act := look fun s =>
  seq [maskWrite (blockOf s (ringAddr n h / 4096)) (ringAddr n h + 4) v, act (bit v 31) (wr (ringAddr n h + 8) 0)]

/-! ## Fields -/

/-- Word k of a descriptor. -/
def dW (d : UeDesc) (k : Nat) : Word := d.words.getD k 0
/-- mode. -/
def dMode (d : UeDesc) : Nat := fld (dW d 1) 2 0
/-- group. -/
def dGroup (d : UeDesc) : Nat := fld (dW d 0) 15 0
/-- step. -/
def dStep (d : UeDesc) : Word := dW d 2
/-- rec. -/
def dRec (d : UeDesc) : Nat := (joinWords (dW d 4) (dW d 5)).toNat
/-- cpl. -/
def dCpl (d : UeDesc) : Nat := (joinWords (dW d 6) (dW d 7)).toNat
/-- Word k of the group entry. -/
def gW (d : UeDesc) (k : Nat) : Word := d.entry.getD k 0
/-- Word k of the shard record. -/
def shW (d : UeDesc) (k : Nat) : Word := d.shard.getD k 0
/-- rows and cols. -/
def shRows (d : UeDesc) : Nat := fld (shW d 0) 15 0
/-- cols. -/
def shCols (d : UeDesc) : Nat := fld (shW d 0) 31 16
/-- row0. -/
def shRow0 (d : UeDesc) : Nat := fld (shW d 1) 15 0
/-- col0. -/
def shCol0 (d : UeDesc) : Nat := fld (shW d 1) 31 16
/-- The format of tensor slot k: master, gradient, states, accumulator. -/
def shFmt (d : UeDesc) (k : Nat) : Nat :=
  match k with
  | 0 => fld (shW d 2) 3 0
  | 1 => fld (shW d 2) 7 4
  | 2 => fld (shW d 2) 11 8
  | 3 => fld (shW d 2) 15 12
  | 4 => fld (shW d 2) 19 16
  | _ => 9
/-- wfmt. -/
def shWfmt (d : UeDesc) : Nat := fld (shW d 3) 3 0
/-- wscl. -/
def shWscl (d : UeDesc) : Nat := fld (shW d 3) 5 4
/-- worient. -/
def shWorient (d : UeDesc) : Bool := bit (shW d 3) 6
/-- mask_en. -/
def shMask (d : UeDesc) : Bool := bit (shW d 3) 8
/-- The address of tensor slot k. -/
def shAddr (d : UeDesc) (k : Nat) : Nat := (shW d (4 + 2 * k)).toNat + 4294967296 * fld (shW d (5 + 2 * k)) 9 0
/-- The byte distance between the rows of tensor slot k. -/
def shPitch (d : UeDesc) (k : Nat) : Nat := 4 * fld (shW d (5 + 2 * k)) 31 14

/-- The home engine's entry of group g (R315): its device address. -/
def groupAddr (s : State) (n g : Nat) : Nat := (rd64 s (uePage n + 0x100)).toNat + 32 * g
/-- Whether group g lies in the range of herd h (R317). -/
def groupInRange (s : State) (n h g : Nat) : Bool :=
  let a := uePage n + 0x600 + 8 * h
  bit (rd s a) 31 && decide (fld (rd s a) 15 0 ≤ g) && decide (g < fld (rd s a) 15 0 + fld (rd s (a + 4)) 16 0)

/-! ## Masks (R292, R293) -/

/-- The header of a mask image at unified-range address a, as words. -/
def maskHeader (s : State) (h a : Nat) : Eng := engRead s h a 32 none
/-- Whether a mask header keeps R293. -/
def maskHeaderOk (ws : List Word) : Bool :=
  decide (fld (ws.getD 0 0) 15 0 ≠ 0) && decide (fld (ws.getD 0 0) 31 16 ≠ 0) && decide (fld (ws.getD 1 0) 31 2 = 0) &&
    decide ((ws.getD 2 0).toNat % 32 = 0) && decide ((ws.getD 3 0).toNat % 32 = 0) &&
    (List.range 4).all (fun k => decide (ws.getD (4 + k) 0 = 0))
/-- The bitmap bits that decide on weight element (r, c) under the image whose header is ws at a, inside the layer: byte address and bit. -/
def imageBits (a : Nat) (ws : List Word) (r c : Nat) : List (Nat × Nat) :=
  let cols := fld (ws.getD 0 0) 31 16
  let at_ (off k : Nat) : Nat × Nat := (a + off + k / 8, k % 8)
  if fld (ws.getD 0 0) 15 0 ≤ r ∨ cols ≤ c then []
  else (if bit (ws.getD 1 0) 0 then [at_ (ws.getD 2 0).toNat r] else []) ++
    (if bit (ws.getD 1 0) 1 then [at_ (ws.getD 3 0).toNat (r / 64 * ceilDiv cols 64 + c / 64)] else [])
/-- Whether weight element (r, c) is trained under the image (R292), where its bitmap bytes can be read. -/
def imageTrained (s : State) (h a : Nat) (ws : List Word) (r c : Nat) : Bool :=
  decide (r < fld (ws.getD 0 0) 15 0) && decide (c < fld (ws.getD 0 0) 31 16) &&
    (imageBits a ws r c).all fun p => match engRead s h p.1 1 none with
      | .ok (b :: _) => bit b p.2
      | _ => false

/-! ## Checks (R325) -/

/-- Whether a working-copy format and scaling are a pair that R161 accepts. -/
def wPairOk (f c : Nat) : Bool :=
  decide (c ≠ 3) && decide (f ≤ 9) && (if f ≤ 5 then decide (c ≠ 0) else if f = 6 then decide (c = 1) else decide (c = 0))

/-- The descriptor of the working copy as a tile's, with shard extents. -/
def wElemBytes (d : UeDesc) : Nat := ceilDiv (shCols d * fmtBits (shWfmt d)) 8

/-- Whether a shard record keeps R325, the mask header aside. -/
def shardOk (d : UeDesc) : Bool :=
  let w2 := shW d 2
  let w3 := shW d 3
  let fm (f : Nat) : Bool := f = 9 || f = 7
  let st (f : Nat) : Bool := f = 0 || f = 9 || f = 7
  let wide (k : Nat) : Bool := decide (shCols d * (fmtBits (shFmt d k) / 8) ≤ shPitch d k)
  decide (fld w2 31 20 = 0) && decide (fld w3 15 10 = 0) &&
    (List.range 8).all (fun k => decide (fld (shW d (5 + 2 * k)) 13 10 = 0)) &&
    (List.range 12).all (fun k => decide (shW d (20 + k) = 0)) &&
    fm (shFmt d 0) && fm (shFmt d 1) && st (shFmt d 2) && st (shFmt d 3) && st (shFmt d 4) &&
    (decide (shWfmt d = 0) || wPairOk (shWfmt d) (shWscl d)) &&
    wide 0 && wide 1 && [2, 3, 4].all (fun k => decide (shFmt d k = 0) || wide k) &&
    (decide (shWfmt d = 0) || decide (roundUp (wElemBytes d) 4 ≤ shPitch d 5)) &&
    ((decide (dMode d = 0) && decide (shW d 16 = 0) && decide (shW d 17 = 0)) || wide 6) &&
    !(decide (shWfmt d = 6) && decide (shWscl d = 1) && !shWorient d && bit w3 7 && decide (shCols d % 16 ≠ 0)) &&
    !(decide (dMode d = 2) && decide (shW d 16 = 0) && decide (shW d 17 = 0))

/-- UE_PVALID bit p of engine n. -/
def progValid (s : State) (n p : Nat) : Bool := bit (rd s (uePage n + 0x120 + 4 * (p / 32))) (p % 32)
/-- Whether a replacement of program p waits on engine n (R340). -/
def progWaits (s : State) (n p : Nat) : Bool := s.progPend.any (fun q => decide (q.eng = n) && decide (q.index = p))

/-- The points of a schedule curve as (step, value), or none where it breaks R321 or cannot be read (`Eng` says which). -/
def curvePoints (bs : List Byte) : Option (List (Nat × Word)) :=
  let ws := leWords (bs.length / 4) bs
  let n := (ws.getD 0 0).toNat
  let ps := (List.range n).map (fun k => ((ws.getD (2 + 2 * k) 0).toNat, ws.getD (3 + 2 * k) 0))
  if n = 0 ∨ 1023 < n ∨ ws.getD 1 0 ≠ 0 then none
  else if (List.range (n - 1)).all (fun k => decide ((ps.getD k (0, 0)).1 < (ps.getD (k + 1) (0, 0)).1)) then some ps
  else none

/-- The bytes of the curve of a group entry: its header, and as many points as the header gives. -/
def curveRead (s : State) (h : Nat) (curve : Word) : Eng :=
  match engRead s h (1024 * curve.toNat) 8 none with
  | .ok hd =>
    let n := min (fld (leWord hd) 9 0) 1023
    engRead s h (1024 * curve.toNat) (8 + 8 * n) none
  | r => r

/-- An unsigned integer as F32, rounded to nearest with ties to even. -/
def natF32 (n : Nat) : Word := quotF32 false n 1

/-- LR (R322). -/
def curveLr (ps : List (Nat × Word)) (st : Nat) : Word :=
  let before := ps.filter (fun p => decide (p.1 ≤ st))
  match before.getLast? with
  | none => (ps.getD 0 (0, 0)).2
  | some a => match ps[before.length]? with
    | none => a.2
    | some b => fmaF (subF b.2 a.2) (divF (natF32 (st - a.1)) (natF32 (b.1 - a.1))) a.2

/-- p(k, t) (R323). -/
def powF (k : Word) (t : Word) : Word :=
  ((List.range 32).map (fun i => 31 - i)).foldl (fun r b =>
    let q := mulF r r
    if bit t b then mulF q k else q) one32

/-! ## Judging a descriptor (R324) -/

/-- A descriptor that ends with a status. -/
def ended (d : UeDesc) (status : Nat) : UeDesc := { d with phase := 4, status := status }

/-- What judging a descriptor gives: the unified-range reads it made, as address and length, and the descriptor as judged, none while a page
that it reads moves. -/
abbrev Judgement := List (Nat × Nat) × Option UeDesc

/-- The scale-table entry of a descriptor's working copy (R341), at the VU_STBASE of the herd's hidx 0 core (DEDUCED, log entry 32). -/
def workEntry (s : State) (d : UeDesc) : Nat := stBase s (voteSite s d.herd) + 256 * fld (shW d 3) 31 16

/-- A descriptor that becomes active takes the tensor scale and mxceil of its working copy's entry (R341): BF16, F16 and F32 have none. -/
def becomeActive (s : State) (d : UeDesc) : Judgement :=
  if dMode d = 1 ∨ shWfmt d = 0 ∨ shWscl d = 0 then ([], some d)
  else ([(workEntry s d, 8)], match engRead s d.herd (workEntry s d) 8 none with
    | .wait => none
    | .bad st => some (ended d st)
    | .ok bs => some { d with tscale := leWord bs, noclip := bit (leWord (bs.drop 4)) 7 })

/-- A group load or store: it runs, or is held until its entry is captured (R542). -/
def judgeGroup (s : State) (d : UeDesc) : UeDesc :=
  if snapHolds s d.herd (dGroup d) (dStep d).toNat then { d with phase := 0 } else { d with phase := 1, status := dMode d + 1 }

/-- Rows 6 to 11 of R324. A descriptor whose program a replacement waits for is not activated, and is judged again from row 5 (R340). -/
def judgeVote (s : State) (d : UeDesc) : Judgement :=
  let v := hvote d.eng d.herd
  let g := gW d 0
  let voting := bit g 29 && bit (rd s v) 31
  if bit g 30 then ([], some (ended d 0x02))
  else if voting && decide ((dStep d).toNat < (rd s (v + 4)).toNat) && bit (rd s v) 30 then ([], some (ended d 0x81))
  else if voting && !(bit (rd s v) 30 && decide (rd s (v + 4) = dStep d)) then ([], some { d with phase := 0 })
  else if snapHolds s d.herd (dGroup d) (dStep d).toNat then ([], some { d with phase := 0 })
  else if voting && bit (rd s v) 29 then ([], some (ended d 0x01))
  else if progWaits s d.eng (fld g 7 0) then ([], some { d with phase := 0, row5 := true })
  else becomeActive s { d with phase := 1, row5 := false, status := if dMode d = 1 then 0x03 else 0 }

/-- The reads of row 5 after the shard record: the mask header, and the curve's header and points. -/
def shardReads (s : State) (d : UeDesc) : List (Nat × Nat) :=
  let curve := 1024 * (gW d 1).toNat
  (if shMask d then [(shAddr d 7, 32)] else []) ++ (if bit (gW d 0) 28 then (curve, 8) ::
      (match engRead s d.herd curve 8 none with
        | .ok hd => [(curve + 8, 8 * min (fld (leWord hd) 9 0) 1023)]
        | _ => []) else [])

/-- Row 5: the shard record, the program and the curve, from which LR follows (R322). -/
def judgeShard (s : State) (d : UeDesc) : Judgement :=
  if progWaits s d.eng (fld (gW d 0) 7 0) then ([], some { d with phase := 0, row5 := true })
  else match engRead s d.herd (dRec d) 128 none with
    | .wait => ([], none)
    | .bad st => ([(dRec d, 128)], some (ended d st))
    | .ok bs =>
      let d := { d with shard := leWords 32 bs }
      let reads := (dRec d, 128) :: shardReads s d
      let mask : Eng := if shMask d then maskHeader s d.herd (shAddr d 7) else .ok []
      let curve : Eng := if bit (gW d 0) 28 then curveRead s d.herd (gW d 1) else .ok []
      match mask, curve with
      | .wait, _ => ([], none)
      | _, .wait => ([], none)
      | .bad st, _ => (reads, some (ended d st))
      | _, .bad st => (reads, some (ended d st))
      | .ok m, .ok c =>
        if !shardOk d || (shMask d && !maskHeaderOk (leWords 8 m)) || !progValid s d.eng (fld (gW d 0) 7 0) ||
            (bit (gW d 0) 28 && (curvePoints c).isNone) then (reads, some (ended d 0x82))
        else
          let lr := if bit (gW d 0) 28 then curveLr ((curvePoints c).getD []) (dStep d).toNat else one32
          let v := judgeVote s { d with lr := lr }
          (reads ++ v.1, v.2)

/-- Whether a descriptor keeps row 1 of R324. -/
def fieldsOk (d : UeDesc) : Bool :=
  let align := if dMode d < 3 then 64 else 32
  !(decide (4 < dMode d) || decide (fld (dW d 1) 4 3 = 3) || decide (fld (dW d 1) 31 23 ≠ 0) ||
    decide (dW d 3 ≠ 0) || (List.range 8).any (fun k => decide (dW d (8 + k) ≠ 0))) &&
    decide (dRec d % align = 0) && decide (dCpl d % 16 = 0)

/-- The rows of R324 for a descriptor just taken. -/
def judgeDesc (s : State) (d : UeDesc) : Judgement :=
  if !fieldsOk d then ([], some (ended d 0x82))
  else if !groupInRange s d.eng d.herd (dGroup d) then ([], some (ended d 0x80))
  else if 3 ≤ dMode d then ([], some (judgeGroup s d))
  else match devRead s (groupAddr s d.eng (dGroup d)) 32 with
    | none => ([], some (ended d 0x83))
    | some bs =>
      let d := { d with entry := leWords 8 bs }
      if !bit (gW d 0) 31 || decide (fld (gW d 0) 27 22 ≠ d.herd) then ([], some (ended d 0x80))
      else judgeShard s d

/-- A waiting descriptor is judged again, from row 5 or from row 7. -/
def judgeAgain (s : State) (d : UeDesc) : Judgement :=
  if 3 ≤ dMode d then ([], some (judgeGroup s d)) else if d.row5 then judgeShard s d else judgeVote s d

/-- What the reads of a judgement leave at the ports and in the MIG_ page. -/
def readsActs (h : Nat) (rs : List (Nat × Nat)) : Act := each rs fun r => engActs h r.1 r.2 none false

/-- The reads that judging a new descriptor makes: its group entry at its port, and those of its verdict. -/
def judgeReads (d : UeDesc) : Act := look fun s =>
  seq [act (fieldsOk d && decide (dMode d < 3) && groupInRange s d.eng d.herd (dGroup d))
      (devReadActs (groupAddr s d.eng (dGroup d)) 32 .engine (some d.herd)),
    readsActs d.herd (judgeDesc s d).1]

/-- The descriptor that engine n has taken from ring h. -/
def descOf (s : State) (n h : Nat) : Option UeDesc := s.desc.find? (fun d => decide (d.eng = n) && decide (d.herd = h))
/-- The act that replaces a descriptor. -/
def setDesc (d e : UeDesc) : Act := look fun s => one (.desc (s.desc.map (fun x => if x = d then e else x)))
/-- Active descriptors of engine n (R311): those waiting for a vote are not active. -/
def activeCount (s : State) (n : Nat) : Nat := (s.desc.filter (fun d => decide (d.eng = n) && decide (d.phase ≠ 0))).length

/-- A descriptor as the engine takes it from the ring's head. -/
def newDesc (s : State) (n h : Nat) (ws : List Word) : UeDesc :=
  ⟨n, h, ws, ringEntry s n h, 0, [], 0, one32, 0, 0, 0, false, [], 0, 0, 0, 0, Figures.zero, false, false⟩

/-- What judging the descriptor at the head of ring h gives, when its seq matches. -/
def headVerdict (s : State) (n h : Nat) : Option UeDesc := (ringMatch s n h).bind fun ws => (judgeDesc s (newDesc s n h ws)).2

/-- Whether engine n could take a descriptor from ring h now: the one before it has ended and its notification has taken effect (R311). One
whose judgement a moving page keeps waiting does not keep other rings waiting (DESIGN CHOICE, log entry 132). -/
def takeable (s : State) (n h : Nat) : Bool :=
  ringRuns s n h && (descOf s n h).isNone && !notePending s n h && (headVerdict s n h).isSome

/-- Whether it is the turn of herd h, among those for which p holds, in the round-robin that key k of `lastTaken` records. -/
def turnOfHerd (s : State) (k h : Nat) (p : Nat → Bool) : Bool :=
  !(((List.range 64).map (fun j => ((mGet s.lastTaken k).getD 63 + 1 + j) % 64)).takeWhile (fun j => decide (j ≠ h))).any p

/-- UE_DESCRIPTOR_TAKE (R307, R311): the descriptor at head is taken, when the round-robin order over herds gives the turn to ring h, and
judged. The ring's read has been served (R308). -/
def actUeDescriptorTake (n h : Nat) : Act := look fun s =>
  match ringMatch s n h, headVerdict s n h with
  | some ws, some e =>
    act (takeable s n h && !fenced s (uePage n) && decide (activeCount s n < 4) && turnOfHerd s n h (takeable s n))
      (seq [engActs h (ringEntry s n h) 64 none false, judgeReads (newDesc s n h ws),
        act (mGet s.ringFail (64 * n + h)).isSome (one (.ringFail (64 * n + h) none)),
        wr (ringAddr n h + 8) (BitVec.ofNat 32 (ringHead s n h + 1)), one (.lastTaken n (some h)),
        one (.desc (s.desc ++ [e]))])
  | _, _ => nop

/-! ## Modes -/

/-- The advance at the home engine (R320): the entry's new words and t. -/
def advanced (g : List Word) (st : Word) : List Word × Word :=
  if g.getD 2 0 = 0 ∨ g.getD 3 0 ≠ st then
    let t := g.getD 2 0 + 1
    ((g.set 2 t).set 3 st, t)
  else (g, g.getD 2 0)

/-- Words as bytes. -/
def wordBytes (ws : List Word) : List Byte := ws.flatMap (fun w => leBytes 4 w.toNat)

/-- The advance of a descriptor (R320): the entry is read and written at its home, and t is returned; an uncorrectable entry ends the
descriptor with status 0x83. -/
def doAdvance (d : UeDesc) : Act := look fun s =>
  let a := groupAddr s d.eng (dGroup d)
  seq [devReadActs a 32 .engine (some d.herd),
    match devRead s a 32 with
    | none => setDesc d (ended d 0x83)
    | some bs =>
      let r := advanced (leWords 8 bs) (dStep d)
      seq [devWrite a (wordBytes r.1) d.herd, setDesc d { d with phase := 2, t := r.2 }]]

/-- ADVANCE: the home engine advances the group of the descriptor that engine n runs for herd h. -/
def actAdvance (n h : Nat) : Act := look fun s =>
  match descOf s n h with
  | some d => act (decide (d.phase = 1) && (decide (dMode d = 0) || decide (dMode d = 2))) (doAdvance d)
  | none => nop

/-- B1 and B2 of an advanced descriptor (R323); its batches begin. -/
def beginBatches (d : UeDesc) : Act :=
  setDesc d { d with phase := 3, b1 := subF one32 (powF (gW d 4) d.t), b2 := subF one32 (powF (gW d 5) d.t) }

/-- Runs a body on the descriptor of a mode that engine n holds for herd h; one that waits is judged again first, and becomes active when the
page is not fenced and fewer than four are (R311, R346). -/
def inMode (n h : Nat) (mode : Nat) (body : UeDesc → Act) : Act := look fun s =>
  match descOf s n h with
  | none => nop
  | some d =>
    if dMode d ≠ mode then nop
    else if d.phase = 0 then
      let v := judgeAgain s d
      match v.2 with
      | none => nop
      | some e =>
        if e.phase = 0 then seq [readsActs h v.1, setDesc d e]
        else act (decide (activeCount s n < 4) && !fenced s (uePage n))
          (seq [readsActs h v.1, setDesc d e, act (decide (e.phase = 1)) (body e)])
    else body d

/-- Modes 0 and 2: the advance where it has not been made, then B1 and B2. -/
def startUpdate (d : UeDesc) : Act :=
  if d.phase = 1 then seq [doAdvance d, look fun s => match descOf s d.eng d.herd with
    | some e => act (decide (e.phase = 2)) (beginBatches e)
    | none => nop]
  else act (decide (d.phase = 2)) (beginBatches d)

/-- UPDATE. -/
def actUpdate (n h : Nat) : Act := inMode n h 0 startUpdate
/-- UPDATE_WITH_ACCUMULATED_GRADIENT. -/
def actUpdateAccumulated (n h : Nat) : Act := inMode n h 2 startUpdate
/-- ACCUMULATE: no advance is sent. -/
def actAccumulate (n h : Nat) : Act := inMode n h 1 fun d => act (decide (d.phase = 1)) (setDesc d { d with phase := 3 })

/-- GROUP_LOAD (R318). -/
def actGroupLoad (n h : Nat) : Act := inMode n h 3 fun d => look fun s =>
  if d.phase ≠ 1 then nop
  else match engRead s h (dRec d) 32 none with
    | .wait => nop
    | .bad st => seq [engActs h (dRec d) 32 none false, setDesc d (ended d st)]
    | .ok bs =>
      let ws := leWords 8 bs
      let ws := ws.set 0 (setFld (ws.getD 0 0) 27 22 h)
      seq [engActs h (dRec d) 32 none false, devWrite (groupAddr s n (dGroup d)) (wordBytes ws) h, setDesc d (ended d 0x04)]

/-- GROUP_STORE (R318). -/
def actGroupStore (n h : Nat) : Act := inMode n h 4 fun d => look fun s =>
  let a := groupAddr s n (dGroup d)
  if d.phase ≠ 1 then nop
  else match devRead s a 32, engWriteJudge s h (dRec d) 32 none with
    | none, _ => seq [devReadActs a 32 .engine (some h), setDesc d (ended d 0x83)]
    | some _, .wait => nop
    | some _, .bad st => seq [engActs h (dRec d) 32 none true, setDesc d (ended d st)]
    | some bs, .ok _ => seq [devReadActs a 32 .engine (some h), urWrite h (dRec d) bs, setDesc d (ended d 0x05)]

/-! ## Programs (R332 to R338) -/

/-- The engine generator (R338). -/
def engineDraw (s : State) (d : UeDesc) (r c use : Nat) : Nat :=
  mix ((rd64 s (uePage d.eng + 0x800 + 8 * d.herd)).toNat ^^^ (dGroup d * 2 ^ 32) ^^^ (dStep d).toNat)
    ((shRow0 d + r) * 2 ^ 24 ||| (shCol0 d + c) * 2 ^ 8 ||| use)

/-- A source of R333. -/
def ueSource (d : UeDesc) (regs : List Word) (code : Nat) : Word :=
  if code < 16 then regs.getD code 0
  else match code with
    | 16 => gW d 4
    | 17 => gW d 5
    | 18 => gW d 6
    | 19 => gW d 7
    | 20 => d.lr
    | 21 => d.b1
    | 22 => d.b2
    | 23 => natF32 d.t.toNat
    | 24 => one32
    | _ => 0

/-- A source with its sign inverted where n. -/
def negIf (n : Bool) (x : Word) : Word := if n then negF x else x
/-- A result with NaNs canonical (R206). -/
def canonF (x : Word) : Word := if isNaN x then nan32 else x

/-- SGN (R335). -/
def sgnF (x : Word) : Word :=
  if isNaN x then nan32 else if absF x = 0 then x else if bit x 31 then negF one32 else one32

/-- One instruction (R335); `rnd` is the random value of its use. -/
def ueInsn (d : UeDesc) (regs : List Word) (w : Word) (rnd : Nat) : List Word :=
  let a := negIf (bit w 7) (ueSource d regs (fld w 22 18))
  let b := negIf (bit w 6) (ueSource d regs (fld w 17 13))
  let c := ueSource d regs (fld w 12 8)
  let v : Word := match fld w 31 27 with
    | 1 => addF a b
    | 2 => mulF a b
    | 3 => fmaF a b (negIf (bit w 5) c)
    | 4 => fnRsq a
    | 5 => fnSqrt a
    | 6 => divF a b
    | 7 => maxF a b
    | 8 => minF a b
    | 9 => sgnF a
    | 10 => canonF (if posF c then a else b)
    | _ =>
      let code := fld w 3 0
      toF32 (decodeElem code (roundTo code (if bit w 4 then .stochastic rnd else .nearest) (f32Val a)))
  regs.set (fld w 26 23) v

/-- A program runs to its END on one element. -/
def ueRun (d : UeDesc) (rnd : Nat → Nat) : List Word → Nat → List Word → List Word
  | [], _, regs => regs
  | w :: ws, i, regs => if fld w 31 27 = 0 then regs else ueRun d rnd ws (i + 1) (ueInsn d regs w (rnd i))

/-- Instruction i of program p of engine n. -/
def progWord (s : State) (n p i : Nat) : Word := mGetD s.prog ((256 * n + p) * 32 + i) 0
/-- The 32 instructions of a program. -/
def progWords (s : State) (n p : Nat) : List Word := (List.range 32).map (progWord s n p)

/-- Whether an instruction keeps R335. -/
def insnOk (w : Word) : Bool :=
  let op := fld w 31 27
  let src (c : Nat) : Bool := decide (c < 26)
  let a := fld w 22 18
  let b := fld w 17 13
  let c := fld w 12 8
  let m := fld w 7 0
  match op with
  | 0 => decide (w = 0)
  | 3 => src a && src b && src c && decide (m % 32 = 0)
  | 4 | 5 | 9 => src a && decide (b = 0) && decide (c = 0) && decide (m % 128 = 0)
  | 10 => src a && src b && src c && decide (m % 64 = 0)
  | 11 => src a && decide (b = 0) && decide (c = 0) && decide (m < 32) && (decide (m % 16 = 7) || decide (m % 16 = 8))
  | 1 | 2 | 6 | 7 | 8 => src a && src b && decide (c = 0) && decide (m % 64 = 0)
  | _ => false

/-- Whether a program passes its load (R339). -/
def progOk : List Word → Bool
  | [] => false
  | w :: ws => insnOk w && (decide (fld w 31 27 = 0) || progOk ws)

/-! ## Batches (R330, R331, R341) -/

/-- The element positions of a batch, in order; positions beyond the shard are absent. -/
def batchElems (d : UeDesc) (k : Nat) : List (Nat × Nat) :=
  let tall := shWorient d && decide (shWfmt d ≠ 0) && decide (shWscl d ≠ 0)
  let bh := if tall then blockSize (shWscl d) else 1
  let bw := 64 / bh
  let across := ceilDiv (shCols d) bw
  let r0 := k / across * bh
  let c0 := k % across * bw
  ((List.range bh).flatMap (fun i => (List.range bw).map (fun j => (r0 + i, c0 + j)))).filter
    (fun p => decide (p.1 < shRows d) && decide (p.2 < shCols d))

/-- The batches of a shard. -/
def batchCount (d : UeDesc) : Nat :=
  let tall := shWorient d && decide (shWfmt d ≠ 0) && decide (shWscl d ≠ 0)
  let bh := if tall then blockSize (shWscl d) else 1
  ceilDiv (shRows d) bh * ceilDiv (shCols d) (64 / bh)

/-- Bytes of an element of tensor slot k. -/
def elemBytes (d : UeDesc) (k : Nat) : Nat := fmtBits (shFmt d k) / 8
/-- Address of element p of tensor slot k. -/
def elemAddr (d : UeDesc) (k : Nat) (p : Nat × Nat) : Nat := shAddr d k + shPitch d k * p.1 + elemBytes d k * p.2

/-- Element p of tensor slot k, as an F32 word. -/
def readElem (s : State) (d : UeDesc) (k : Nat) (p : Nat × Nat) : Eng × Word :=
  match engRead s d.herd (elemAddr d k p) (elemBytes d k) (some d.eng) with
  | .ok bs => (.ok bs, if shFmt d k = 7 then widen 1 (leNat bs) else leWord bs)
  | r => (r, 0)

/-- The tensor slots whose elements a descriptor reads, and those it writes. -/
def readSlots (d : UeDesc) : List Nat :=
  if dMode d = 1 then [1, 6]
  else [0, 1] ++ [2, 3, 4].filter (fun k => decide (shFmt d k ≠ 0)) ++ (if dMode d = 2 then [6] else [])
/-- The tensor slots written. -/
def writeSlots (d : UeDesc) : List Nat :=
  if dMode d = 1 then [6]
  else [0] ++ [2, 3, 4].filter (fun k => decide (shFmt d k ≠ 0)) ++ (if dMode d = 2 then [6] else [])

/-- The first status among results, or a wait. -/
def firstBad (rs : List Eng) : Eng := rs.foldl (fun a r => match a with
  | .ok _ => r
  | a => a) (.ok [])

/-- What a batch gives one trained element: the registers after the program. -/
def elemRun (s : State) (d : UeDesc) (prog : List Word) (p : Nat × Nat) : List Word :=
  let x (k : Nat) : Word := (readElem s d k p).2
  let st (k : Nat) : Word := if shFmt d k = 0 then 0 else x k
  let e1 := if dMode d = 2 then addF (x 1) (x 6) else x 1
  ueRun d (engineDraw s d p.1 p.2) prog 0 ([x 0, e1, st 2, st 3, st 4] ++ List.replicate 11 0)

/-- A value as the bytes of tensor slot k. -/
def storeBytes (d : UeDesc) (k : Nat) (v : Word) : List Byte :=
  if shFmt d k = 7 then leBytes 2 (narrow 1 v) else leBytes 4 v.toNat

/-- The new master of an element: E0 as it is stored (R334). -/
def newMaster (d : UeDesc) (v : Word) : Word := if shFmt d 0 = 7 then widen 1 (narrow 1 v) else v

/-- The byte and first bit of element p of the working copy. -/
def workBit (d : UeDesc) (p : Nat × Nat) : Nat := 8 * (shAddr d 5 + shPitch d 5 * p.1) + fmtBits (shWfmt d) * p.2
/-- The address of the scale byte of element p's block in the working copy (R213). -/
def workScaleAddr (d : UeDesc) (p : Nat × Nat) : Nat :=
  let bs := blockSize (shWscl d)
  if shWorient d then shAddr d 5 + shPitch d 5 * (p.1 / bs * bs) + roundUp (wElemBytes d) 4 + p.2
  else shAddr d 5 + shPitch d 5 * p.1 + roundUp (wElemBytes d) 4 + p.2 / bs

/-- What a working-copy block's conversion gives: its scale byte's address and whether it is read, the byte where it changes, the trained
elements' codes, the figures, and whether the tensor scale was invalid. -/
structure WorkBlock where
  scaleAt : Nat
  reads : Bool
  scale : Option Nat
  codes : List ((Nat × Nat) × Nat)
  figs : Figures
  invalid : Bool
  deriving DecidableEq, Repr

/-- The figures of one element of a block whose NaN scale is kept: elements and maximum only (R341). -/
def keptFigure (x : Word) : Figures := ⟨1, 0, 0, 0, if nonFinite x then 0 else absF x⟩

/-- One block of the working copy (R341): `elems` its present elements, with the new master of those that are trained. -/
def workBlock (s : State) (d : UeDesc) (elems : List ((Nat × Nat) × Option Word)) : WorkBlock :=
  let mode (p : Nat × Nat) : Mode := if bit (shW d 3) 7 then .stochastic (engineDraw s d p.1 p.2 32) else .nearest
  let tr := elems.filterMap (fun e => e.2.map (fun v => (e.1, v)))
  let ps := tr.map (·.1)
  if shWscl d = 0 then
    let rs := tr.map fun e => if shWfmt d = 9 then (e.2.toNat, oneFigure e.2 false false) else convHalf (shWfmt d) (mode e.1) e.2
    ⟨0, false, none, ps.zip (rs.map (·.1)), rs.foldl (fun f r => f.add r.2) Figures.zero, false⟩
  else
    let c : Conv := ⟨shWfmt d, shWscl d, d.noclip, d.tscale⟩
    let at_ := workScaleAddr d ((elems.map (·.1)).headD (0, 0))
    let old : Nat := match engRead s d.herd at_ 1 (some d.eng) with
      | .ok (b :: _) => b.toNat
      | _ => 0
    let isNew := decide (tr.length = elems.length) || (decide (shWscl d = 1) && decide (old = 0))
    let full := convBlock c (tr.map (fun e => (e.2, mode e.1)))
    let f8 := decide (shWfmt d ≤ 2)
    let part := decide (tr.length ≠ elems.length)
    if !isNew && decide (scaleVal (shWscl d) old = .nan) then
      ⟨at_, part, none, ps.map (fun p => (p, 0)), tr.foldl (fun f e => f.add (keptFigure e.2)) Figures.zero, false⟩
    else if isNew || full.invalid || (!f8 && tr.any (fun e => nonFinite e.2)) then
      ⟨at_, part, some full.scale, ps.zip full.codes, full.figs, full.invalid⟩
    else
      let rs := tr.map fun e => if nonFinite e.2 then
          (if isNaN e.2 || decide (shWfmt d = 1) then nanCode (shWfmt d) else withSign (fmtOf (shWfmt d)) (bit e.2 31) 0x7C, false, false)
        else convElem c old (mode e.1) e.2
      ⟨at_, part, none, ps.zip (rs.map (·.1)),
        (tr.zip rs).foldl (fun f e => f.add (oneFigure e.1.2 e.2.2.1 e.2.2.2)) Figures.zero, false⟩

/-- The blocks of a batch: 16 or 32 elements along the depth; without block scales each element alone. -/
def batchBlocks (d : UeDesc) (ps : List (Nat × Nat)) : List (List (Nat × Nat)) :=
  let bs := blockSize (shWscl d)
  let key (p : Nat × Nat) : Nat × Nat := if shWscl d = 0 then p else if shWorient d then (0, p.2) else (p.1, p.2 / bs)
  ((ps.map key).eraseDups).map (fun q => ps.filter (fun p => decide (key p = q)))

/-- The bytes that a list of codes at bit positions touches, each with its enabled bits: (address, value, mask). -/
def codeBytes (w : Nat) (codes : List (Nat × Nat)) : List (Nat × Nat × Nat) :=
  let touched := (codes.flatMap (fun c => (List.range (ceilDiv (c.1 % 8 + w) 8)).map (fun i => c.1 / 8 + i))).eraseDups
  touched.map fun a =>
    let mine := codes.filter (fun c => decide (c.1 < 8 * a + 8) && decide (8 * a < c.1 + w))
    mine.foldl (fun acc c =>
      let v := if 8 * a ≤ c.1 then c.2 % 2 ^ w * 2 ^ (c.1 - 8 * a) % 256 else c.2 % 2 ^ w / 2 ^ (8 * a - c.1) % 256
      let m := if 8 * a ≤ c.1 then (2 ^ w - 1) * 2 ^ (c.1 - 8 * a) % 256 else (2 ^ w - 1) / 2 ^ (8 * a - c.1) % 256
      (a, acc.2.1 ||| v, acc.2.2 ||| m)) (a, 0, 0)

/-- A run of single writes of a herd to device memory through the unified range. -/
def putRuns (h : Nat) (rs : List (Nat × List Byte)) : Act := each rs fun r => urWrite h r.1 r.2

/-- An access of a batch: how it ends, its address and length, and whether it is limited to the engine's own port (R313). -/
structure Touch where
  ends : Eng
  addr : Nat
  len : Nat
  own : Bool
  deriving DecidableEq, Repr

/-- Whether an access is served. -/
def Touch.ok (q : Touch) : Bool := match q.ends with
  | .ok _ => true
  | _ => false

/-- What one access leaves at the ports and in the MIG_ page. -/
def touchActs (n h : Nat) (write : Bool) (q : Touch) : Act := engActs h q.addr q.len (if q.own then some n else none) write

/-- The accesses of a batch up to the one that ends it, and what they leave: the reads come first. -/
def triedActs (n h : Nat) (reads writes : List Touch) : Act :=
  seq [each (reads.takeWhile Touch.ok ++ (reads.dropWhile Touch.ok).take 1) (touchActs n h false),
    act (reads.all Touch.ok) (each ((writes.dropWhile Touch.ok).take 1) (touchActs n h true))]

/-- A read of n bytes that a batch makes. -/
def readTouch (s : State) (d : UeDesc) (a n : Nat) (own : Bool) : Touch :=
  ⟨engRead s d.herd a n (if own then some d.eng else none), a, n, own⟩
/-- A write of n bytes that a batch makes. -/
def writeTouch (s : State) (d : UeDesc) (a n : Nat) : Touch := ⟨engWriteJudge s d.herd a n (some d.eng), a, n, true⟩

/-- The header of a descriptor's mask image, as words. -/
def headerWords (s : State) (d : UeDesc) : List Word :=
  match maskHeader s d.herd (shAddr d 7) with
  | .ok bs => leWords 8 bs
  | _ => []

/-- The trained elements of a batch (R329). -/
def trainedElems (s : State) (d : UeDesc) : List (Nat × Nat) :=
  (batchElems d d.batch).filter fun p => !shMask d ||
    imageTrained s d.herd (shAddr d 7) (headerWords s d) (shRow0 d + p.1) (shCol0 d + p.2)

/-- The reads of a batch from its mask image: the header, and each bitmap byte once. -/
def maskTouches (s : State) (d : UeDesc) : List Touch :=
  if !shMask d then []
  else readTouch s d (shAddr d 7) 32 false ::
    (((batchElems d d.batch).flatMap fun p =>
      (imageBits (shAddr d 7) (headerWords s d) (shRow0 d + p.1) (shCol0 d + p.2)).map (·.1)).eraseDups.map
        fun a => readTouch s d a 1 false)

/-- The registers that the program leaves for each trained element of a batch. -/
def batchRuns (s : State) (d : UeDesc) : List ((Nat × Nat) × List Word) :=
  (trainedElems s d).map (fun p => (p, elemRun s d (progWords s d.eng (fld (gW d 0) 7 0)) p))

/-- The blocks of the working copy that a batch converts, from the new master (R334, R341). -/
def batchWork (s : State) (d : UeDesc) : List WorkBlock :=
  let runs := batchRuns s d
  if dMode d = 1 ∨ shWfmt d = 0 then [] else
    (batchBlocks d (batchElems d d.batch)).filterMap fun b =>
      let es := b.map (fun p => (p, (runs.find? (fun r => decide (r.1 = p))).map (fun r => newMaster d (r.2.getD 0 0))))
      if es.any (fun e => e.2.isSome) then some (workBlock s d es) else none

/-- The bytes of codes that a batch writes: address, value, mask. -/
def batchPieces (s : State) (d : UeDesc) : List (Nat × Nat × Nat) :=
  codeBytes (fmtBits (shWfmt d)) ((batchWork s d).flatMap (fun b => b.codes.map (fun c => (workBit d c.1, c.2))))

/-- The reads of a batch: mask, elements, kept scales, and bytes of codes written in part. -/
def batchReads (s : State) (d : UeDesc) : List Touch :=
  maskTouches s d ++ (trainedElems s d).flatMap (fun p => (readSlots d).map (fun k => readTouch s d (elemAddr d k p) (elemBytes d k) true)) ++
    ((batchWork s d).filter (·.reads)).map (fun b => readTouch s d b.scaleAt 1 true) ++
    ((batchPieces s d).filter (fun q => decide (q.2.2 ≠ 255))).map (fun q => readTouch s d q.1 1 true)

/-- The writes of a batch: elements, codes and new scales. -/
def batchWrites (s : State) (d : UeDesc) : List Touch :=
  (trainedElems s d).flatMap (fun p => (writeSlots d).map (fun k => writeTouch s d (elemAddr d k p) (elemBytes d k))) ++
    (batchPieces s d).map (fun q => writeTouch s d q.1 1) ++
    ((batchWork s d).filter (·.scale.isSome)).map (fun b => writeTouch s d b.scaleAt 1)

/-- How a descriptor's next batch would end: it waits on a moving page, ends the descriptor, or takes effect (R331). -/
def batchEnds (s : State) (d : UeDesc) : Eng := firstBad ((batchReads s d ++ batchWrites s d).map (·.ends))

/-- Whether the descriptor that engine n runs for herd h can issue a batch now. -/
def batchReady (s : State) (n h : Nat) : Bool :=
  (descOf s n h).any fun d => decide (d.phase = 3) && decide (batchEnds s d ≠ .wait)

/-- The descriptor after a batch: the next batch, or its end. -/
def afterBatch (d : UeDesc) : UeDesc :=
  if batchCount d ≤ d.batch + 1 then { d with phase := 4 } else { d with batch := d.batch + 1 }

/-- The element writes of one trained element. -/
def elemWrites (s : State) (d : UeDesc) (r : (Nat × Nat) × List Word) : List (Nat × List Byte) :=
  if dMode d = 1 then [(elemAddr d 6 r.1, leBytes 4 (addF (readElem s d 1 r.1).2 (readElem s d 6 r.1).2).toNat)]
  else (writeSlots d).map fun k => (elemAddr d k r.1, if k = 6 then [0, 0, 0, 0] else storeBytes d k (r.2.getD k 0))

/-- A batch takes effect: its accesses, its writes, its counts, and the descriptor's figures. -/
def runBatch (n h : Nat) (d : UeDesc) : Act := look fun s =>
  let runs := batchRuns s d
  let work := batchWork s d
  let prog := progWords s n (fld (gW d 0) 7 0)
  let old (a : Nat) : Nat := match engRead s h a 1 (some n) with
    | .ok (b :: _) => b.toNat
    | _ => 0
  let isChanged (r : (Nat × Nat) × List Word) : Bool := decide (dMode d ≠ 1) &&
    decide ((readElem s d 0 r.1).1 ≠ .ok (storeBytes d 0 (r.2.getD 0 0)))
  let invalid := work.any (·.invalid)
  seq [each (batchReads s d) (touchActs n h false),
    putRuns h (runs.flatMap (elemWrites s d)),
    putRuns h ((batchPieces s d).map (fun q => (q.1, [BitVec.ofNat 8 ((old q.1 &&& (255 - q.2.2)) ||| q.2.1)]))),
    putRuns h (work.filterMap (fun b => b.scale.map (fun v => (b.scaleAt, [BitVec.ofNat 8 v])))),
    count (uePage n) 0 1, count (uePage n) 1 runs.length,
    act (decide (dMode d ≠ 1)) (count (uePage n) 4 (prog.takeWhile (fun w => decide (fld w 31 27 ≠ 0))).length),
    act (invalid && !d.formatRaised) (raise (uePage n) { cls := .format, herd := some h }),
    setDesc d (afterBatch ({ d with
      done := d.done + runs.length
      changed := d.changed + (runs.filter isChanged).length
      figs := d.figs.add (work.foldl (fun f b => f.add b.figs) Figures.zero)
      formatRaised := d.formatRaised || invalid } : UeDesc))]

/-- UE_BATCH (R330, R331): the next batch of the descriptor that engine n runs for herd h takes effect in full, or ends the descriptor
with a fault; after the last batch the descriptor ends. Batches issue round-robin over the active descriptors (R311). A batch with no
trained element is passed over, without a memory access (R329); an evaluation that is due on the engine's port comes first (R343). -/
def actUeBatch (n h : Nat) : Act := look fun s =>
  match descOf s n h with
  | none => nop
  | some d =>
    act (decide (d.phase = 3) && (evalsDue s n).isEmpty && turnOfHerd s (32 + n) h (batchReady s n)) (match batchEnds s d with
      | .wait => nop
      | .bad st => seq [triedActs n h (batchReads s d) (batchWrites s d), setDesc d (ended d st), one (.lastTaken (32 + n) (some h))]
      | .ok _ => seq [one (.lastTaken (32 + n) (some h)),
          if (trainedElems s d).isEmpty then setDesc d (afterBatch d) else runBatch n h d])

/-! ## Ends (R314, R344) -/

/-- The class of a fault status. -/
def statusClass (st : Nat) : Cls :=
  match st with
  | 0x80 => .security
  | 0x81 => .protocol
  | 0x82 => .format
  | 0x83 => .uncorrContained
  | 0x85 => .security
  | _ => .protocol

/-- A notification (R314, R79, R492): 1 TSET of a flag, 2 CINC by +1, to core hidx of herd h, by a packet of the ring block; a shared flag
is set at its home. -/
def notifyCore (b : RingBlock) (h kind hidx idx : Nat) : Act := look fun s =>
  match siteAt s h (if kind = 1 ∧ 224 ≤ idx then 0 else hidx) with
  | none => nop
  | some c =>
    if kind = 1 then one (.packets (s.packets ++ [ringTally b h c 0 idx 0]))
    else act (decide (kind = 2)) (one (.packets (s.packets ++ [ringTally b h c 2 (idx % 32) 1])))

/-- A 16-byte completion record is written; one that R356 refuses is dropped (DEDUCED, log entry 33). -/
def putRecord (h a : Nat) (bs : List Byte) : Act := look fun s =>
  match engWriteJudge s h a 16 none with
  | .ok _ => urWrite h a bs
  | _ => engActs h a 16 none true

/-- A ring halts on a fault (R344, R492). -/
def haltRing (n h st : Nat) : Act :=
  seq [wrBit (ringAddr n h + 4) 30 true, wr (ringAddr n h + 12) (BitVec.ofNat 32 st)]

/-- Whether a descriptor ends by a row of R324 whose outcome is a fault: it writes its completion record and nothing else. -/
def rowFaulted (d : UeDesc) : Bool := decide (0x80 ≤ d.status) && decide (d.status ≤ 0x82)

/-- UE_DESCRIPTOR_END (R314, R342, R344): the completion record, then the merge and the notification. -/
def actUeDescriptorEnd (n h : Nat) : Act := look fun s =>
  match descOf s n h with
  | none => nop
  | some d =>
    let a := dCpl d / 16 * 16
    if d.phase ≠ 4 then nop
    else if engWriteJudge s h a 16 none = .wait then nop
    else seq [
      putRecord h a (leBytes 2 (fld (dW d 0) 31 16) ++ leBytes 2 d.status ++ leBytes 4 d.done ++ leBytes 4 d.changed ++
        leBytes 4 (if d.done = 0 then 0 else d.t.toNat)),
      act (!rowFaulted d) (seq [
        act (bit (shW d 3) 9 && !d.shard.isEmpty) (look fun s => one (.merges (s.merges ++ [⟨h, workEntry s d, d.figs, none⟩]))),
        notifyCore (.ue n) h (fld (dW d 1) 4 3) (fld (dW d 1) 14 5) (fld (dW d 1) 22 15)]),
      snapRecord h (dGroup d) (dStep d).toNat d.status d.changed d.done,
      (if d.status < 0x80 then seq [
          count (uePage n) 2 1, act (decide (d.status = 1) || decide (d.status = 2)) (count (uePage n) 3 1)]
        else seq [
          raise (uePage n) { cls := statusClass d.status, addr := some d.addr, herd := some h,
                             detail := some (dGroup d + 65536 * d.status) },
          setIst (uePage n) 8, haltRing n h d.status, count (uePage n) 5 1]),
      look fun s => one (.desc (s.desc.filter (fun x => decide (x ≠ d))))]

/-! ## Program loads (R339, R340) -/

/-- A program takes its place in the store, with its valid bit. -/
def putProgram (n p : Nat) (ws : List Word) (ok : Bool) : Act :=
  seq [each (ws.take 32).zipIdx fun q => one (.prog ((256 * n + p) * 32 + q.2) q.1),
    wrBit (uePage n + 0x120 + 4 * (p / 32)) (p % 32) ok]

/-- A load of programs into engine n ends (R339): err shows whether any failed or could not be read. -/
def endLoad (n : Nat) (err : Bool) : Act := seq [wrBit (uePage n + 0x118) 29 err, setIst (uePage n) 9]

/-- Whether an active descriptor of engine n uses program p. -/
def progUsed (s : State) (n p : Nat) : Bool :=
  s.desc.any (fun d => decide (d.eng = n) && decide (d.phase ≠ 0) && decide (dMode d < 3) && decide (fld (gW d 0) 7 0 = p))

/-- A program is loaded, with its valid bit, or waits while it is in use; it takes the place of one that waits. -/
def loadProgram (n p : Nat) (ws : List Word) (ok : Bool) : Act := look fun s =>
  let others := s.progPend.filter (fun q => !(decide (q.eng = n) && decide (q.index = p)))
  if progUsed s n p then one (.progPend (others ++ [⟨n, p, ws, ok⟩]))
  else seq [one (.progPend others), putProgram n p ws ok]

/-- PROGRAM_REPLACE: a waiting replacement takes effect once no active descriptor uses the program. -/
def actProgramReplace (n : Nat) : Act := look fun s =>
  match s.progPend.find? (fun q => decide (q.eng = n) && !progUsed s n q.index) with
  | none => nop
  | some q => seq [putProgram n q.index q.words q.valid, one (.progPend (s.progPend.erase q))]

/-- UE_PLOAD_GO: a write of UE_PLOAD_CTRL. -/
def uePloadWrite (r : Requester) (n : Nat) (v : Word) : Act := look fun s =>
  let a := uePage n + 0x118
  if bit v 31 && decide (255 < fld v 7 0 + fld v 15 8) then protocolAt (uePage n) r
  else seq [maskWrite (blockOf s (a / 4096)) a v, act (bit v 31 && !bit (rd s a) 30) (wrBit a 30 true)]

/-- Bytes of the range read for the ring controller: any valid page (DEDUCED, log entry 34). -/
def ringRange (s : State) (a n : Nat) : Option (List Byte) :=
  (pageParts a n).foldl (fun acc p => acc.bind fun bs =>
    let e := homeEntry s p.1
    if 2 ^ 26 ≤ p.1 || !eValid e then none
    else (if eFar e then (if farServes s (eExt e) then
        some ((List.range p.2.2.1).map (fun i => farByte s (eExt e) (eFarPage e) (p.2.1 + i))) else none)
      else devRead s (65536 * eHome e + p.2.1) p.2.2.1).map (fun cs => bs ++ cs)) (some [])

/-- The reads that ringRange makes at the ports (R392 to R395). -/
def ringReadActs (a n : Nat) : Act := look fun s => each (pageParts a n) fun p =>
  let e := homeEntry s p.1
  seq [act (decide (p.1 < 2 ^ 26)) (tableRead (homeBase s + 8 * p.1) none),
    act (decide (p.1 < 2 ^ 26) && eValid e && !eFar e) (devReadActs (65536 * eHome e + p.2.1) p.2.2.1 .ring none)]

/-- UE_PLOAD_DONE: the load that runs ends. A program whose image cannot be read does not pass: it keeps its words and loses its valid bit. -/
def actUePloadDone (n : Nat) : Act := look fun s =>
  let a := uePage n + 0x118
  if !bit (rd s a) 30 then nop
  else
    let base := (rd64 s (uePage n + 0x110)).toNat
    let first := fld (rd s a) 7 0
    let imgs := (List.range (fld (rd s a) 15 8 + 1)).map fun k => (first + k, ringRange s (base + 128 * k) 128)
    seq [ringReadActs base (128 * (fld (rd s a) 15 8 + 1)), each imgs fun q => (match q.2 with
        | some bs => loadProgram n q.1 (leWords 32 bs) (progOk (leWords 32 bs))
        | none => loadProgram n q.1 (progWords s n q.1) false),
      wrBit a 30 false,
      endLoad n (imgs.any (fun q => match q.2 with
        | some bs => !progOk (leWords 32 bs)
        | none => true))]

/-- UE_STAT (R346's text and the register table). -/
def ueStat (s : State) (n : Nat) : Word :=
  BitVec.ofNat 32 (activeCount s n * 65536 + 2 * b2n (s.progPend.any (fun q => decide (q.eng = n))) +
    b2n (s.desc.any (fun d => decide (d.eng = n))))

end Sys2Proof.Machine
end

