-- ==== Sys2Proof/Machine/Coll.lean ====
section
/-! DEFINITION. Collective descriptors' fields (R484), the multicast receive buffer and its grants (R494), and their release at a bead boundary (R497). -/

namespace Sys2Proof.Machine

/-- Word k of a collective descriptor. -/
def cW (c : Collective) (k : Nat) : Word := c.words.getD k 0
/-- cid. -/
def cCid (c : Collective) : Nat := fld (cW c 0) 15 0
/-- kind. -/
def cKind (c : Collective) : Nat := fld (cW c 1) 3 0
/-- The named axes, ascending. -/
def cAxes (c : Collective) : List Nat := [0, 1, 2].filter (fun a => bit (cW c 1) (4 + a))
/-- root. -/
def cRoot (c : Collective) : Nat := fld (cW c 12) 5 0
/-- The target set of a multicast. -/
def cTargets (c : Collective) : List Nat := bitList (joinWords (cW c 8) (cW c 9)).toNat 64

/-- Replaces a collective. -/
def setColl (c d : Collective) : Act := look fun s => one (.coll (s.coll.map (fun x => if x = c then d else x)))

/-- The collective of herd h with cid that runs. -/
def collOf (s : State) (h cid : Nat) : Option Collective :=
  s.coll.find? (fun c => decide (c.herd = h) && decide (cCid c = cid) && c.started && !c.finished)

/-- Free bytes of the multicast receive buffer. -/
def mcFree (s : State) : Nat := 1048576 - (s.mc.filter (·.granted)).foldl (fun a g => a + g.count) 0

/-- A control frame of a multicast. -/
def mcFrame (s : State) (type h dst cid : Nat) (data : List Byte) : Frame :=
  { ctlFrame s type h dst 0 0 data with cid := cid, kind := 6 }

/-- MGNT: a grant reaches the multicast's source. -/
def takeGrant (h cid pos : Nat) : Act := look fun s =>
  match collOf s h cid with
  | some c => act (decide (cKind c = 6) && !c.grants.contains pos) (setColl c { c with grants := c.grants ++ [pos] })
  | none => nop

/-- Requests are granted in the order of their arrival while the buffer holds their bytes (R494). -/
def grantWaiting : Nat → Act
  | 0 => nop
  | fuel + 1 => look fun s =>
    match s.mc.find? (fun g => !g.granted) with
    | none => nop
    | some g => act (decide (g.count ≤ mcFree s)) (seq [
        one (.mc (s.mc.map (fun x => if x = g then { g with granted := true } else x))),
        if g.src = ownPos s then takeGrant g.herd g.cid g.src else sendFrame (mcFrame s 0x11 g.herd g.src g.cid []),
        grantWaiting fuel])

/-- Whether a request is herd h's multicast with this cid from position src. -/
def isRequest (h src cid : Nat) (g : McGrant) : Bool := decide (g.herd = h) && decide (g.src = src) && decide (g.cid = cid)

/-- A grant or request is withdrawn. -/
def dropRequest (h src cid : Nat) : Act := look fun s =>
  seq [one (.mc (s.mc.filter (fun g => !isRequest h src cid g))), grantWaiting s.mc.length]

/-- Whether a multicast lacks a grant (R497). -/
def lacksGrant (c : Collective) : Bool :=
  decide (cKind c = 6) && c.started && !c.finished && !c.dataSent && !((cTargets c).all (fun t => c.grants.contains t))

/-- R497: every multicast that still lacks a grant at a bead boundary is released, and sends its requests again in the next bulk
window. -/
def releaseMulticasts : Act := look fun s =>
  seq [one (.coll (s.coll.map (fun c => if lacksGrant c then { c with started := false, grants := [] } else c))),
    each (s.coll.filter lacksGrant) fun c => seq [
      each (cTargets c) fun p => if p = ownPos s then dropRequest c.herd p (cCid c)
        else sendFrame (mcFrame s 0x12 c.herd p (cCid c) []),
      count (bxPage 0) 4 1, raise (bxPage 0) { cls := .schedule, herd := some c.herd }, setIst (bxPage 0) 12]]

end Sys2Proof.Machine
end

