-- ==== Sys2Proof/Machine/Fabric.lean ====
section
/-! DEFINITION. The mesh: forwarding and arbitration (R61 to R71, R74, R75), the local port (R79, R84), detours and quiescing (R76, R77), router faults (R80, R81), the distance table (R91), the fence sequence of a core (R82, R83) and bulk windows (R70, R71, R92). -/

namespace Sys2Proof.Machine

/-! ## Arbitration and forwarding -/

/-- Packet i of the mesh. -/
def packetAt (s : State) (i : Nat) : Option Packet := s.packets[i]?

/-- The act that replaces packet i, which then stands last in its new buffer; none removes it. -/
def movePacket (i : Nat) (q : Option Packet) : Act := look fun s =>
  one (.packets (s.packets.eraseIdx i ++ q.toList))

/-- The act that changes packet i in place. -/
def setPacket (i : Nat) (q : Packet) : Act := look fun s => one (.packets (s.packets.set i q))

/-- What a packet's type field tells apart (R61). -/
inductive PacketType where
  | request
  | response
  | control
  deriving DecidableEq, Repr

/-- The type of a packet, which its payload gives: a request expects a response (R79, R84). -/
def packetType (q : Packet) : PacketType :=
  match q.payload with
  | .tally _ _ _ _ true _ | .cancel _ _ _ _ | .movReq _ _ _ _ => .request
  | .tallyAck _ _ | .cancelAnswer _ _ _ | .movResp _ _ => .response
  | .tally _ _ _ _ false _ | .register _ _ _ | .release | .mirror _ _ => .control

/-- Whether a packet has not yet entered the mesh: it waits outside its local port, or outside the ring port of an edge router (R62). -/
def outside (q : Packet) : Bool := decide (8 ≤ q.inPort)

/-- Whether a header waits in a router's input buffer: neither outside the mesh nor delivered to the local port (input port 5). -/
def competes (q : Packet) : Bool := decide (q.inPort < 5)

/-- Whether packet i heads its buffer: no earlier packet stands at the same router, input port and virtual channel (R63). -/
def headsBuffer (s : State) (i : Nat) (q : Packet) : Bool :=
  !((s.packets.take i).any (fun k => decide (k.at_ = q.at_) && decide (k.inPort = q.inPort) && decide (k.vc = q.vc)))

/-- Flits of a packet: its header and its payload flits, 0 to 32 (R61). -/
def flits (q : Packet) : Nat := q.len.val + 1

/-- The flits that an input port's buffer of a virtual channel holds (R63). -/
def bufferFlits (vc : Nat) : Nat := [2, 8, 8, 34].getD vc 0

/-- The flits that a packet takes in a buffer: its own, at most the whole buffer. -/
def bufferShare (q : Packet) : Nat := min (flits q) (bufferFlits q.vc)

/-- Whether the buffer of packet q's channel at input port `port` of a router has granted the credits for it: as many flits are free (R63).
DESIGN CHOICE (log entry 124): a packet moves whole, its flits counting where its header stands, one longer than the buffer as the whole
buffer; and the delivery buffer toward the core (input port 5), whose size the manual does not give, holds what an input port's does. -/
def hasCredit (s : State) (router port : Nat) (q : Packet) : Bool :=
  decide (((s.packets.filter (fun k => decide (k.at_ = router) && decide (k.inPort = port) && decide (k.vc = q.vc))).map bufferShare).sum
    + bufferShare q ≤ bufferFlits q.vc)

/-- The output port a packet's header asks for. -/
def wantsPort (s : State) (q : Packet) : Nat := routePort s q.at_ q.dst q.exit q.inPort

/-- Whether VC3 headers compete: a bulk window is open (R68). -/
def bulkIsOpen (s : State) : Bool := !s.bulkOpen.isEmpty

/-- The rotation key of an input port after the one granted last (R67). -/
def rrKey (last p : Nat) : Nat := (p + 5 - last - 1) % 5

/-- The rotation key of VC v, 1 to 3, after the one granted last. -/
def vcKey (last v : Nat) : Nat := (v + 2 - last) % 3

/-- Whether header a goes before header b at the same output port: VC0 first (R65), then greater age, then round-robin over the input ports
(R66, R67). DESIGN CHOICE (log entry 125): headers of equal age on different channels of one input port take turns, the channel after the
one of that input port granted last going first; `lastVc` gives that of each input port. -/
def goesBefore (last : Nat) (lastVc : Nat → Nat) (a b : Packet) : Bool :=
  if a.vc = 0 ∧ b.vc ≠ 0 then true
  else if a.vc ≠ 0 ∧ b.vc = 0 then false
  else if a.age ≠ b.age then decide (b.age < a.age)
  else if a.inPort ≠ b.inPort then decide (rrKey last a.inPort < rrKey last b.inPort)
  else decide (vcKey (lastVc a.inPort) a.vc < vcKey (lastVc b.inPort) b.vc)

/-- Whether what lies beyond output port p of a packet's router takes the packet now (R63): the core's delivery buffer (port 4), the next
router, where it is live, or a ring block. DESIGN CHOICE (log entry 124): a ring block, whose buffers the manual does not give, takes every
packet at once. -/
def nextTakes (s : State) (q : Packet) (p : Nat) : Bool :=
  if p = 4 then hasCredit s q.at_ 5 q
  else match neighbour q.at_ p with
    | some t => rtrLive s t && hasCredit s t (opposite p) q
    | none => true

/-- The headers that compete for output port p of a router. DESIGN CHOICE (log entry 125): a header competes only while the next buffer has
credits for it, so that one without holds no other back. -/
def rivals (s : State) (router p : Nat) : List (Packet × Nat) :=
  s.packets.zipIdx.filter fun k => decide (k.1.at_ = router) && competes k.1 && headsBuffer s k.2 k.1 &&
    (decide (k.1.vc ≠ 3) || bulkIsOpen s) && decide (wantsPort s k.1 = p) && nextTakes s k.1 p

/-- The entry of the record of grants that holds the channel granted last from an input port at output port p of a router. -/
def vcTurn (router p inPort : Nat) : Nat := 5120 + 5 * (5 * router + p) + inPort

/-- Whether packet i is granted output port p: no rival goes before it. DESIGN CHOICE (log entry 125): before a port has granted any
header, its rotation stands after the local port, so that the north port comes first. -/
def granted (s : State) (i : Nat) (q : Packet) (p : Nat) : Bool :=
  let last := mGetD s.lastGrant (5 * q.at_ + p) 4
  (rivals s q.at_ p).any (fun k => decide (k.2 = i)) &&
    (rivals s q.at_ p).all (fun k => decide (k.2 = i) ||
      !goesBefore last (fun j => mGetD s.lastGrant (vcTurn q.at_ p j) 3) k.1 q)

/-- The seam counter slot of a step through port p, and whether it crosses a seam. -/
def seamSlot (site p : Nat) : Option Nat :=
  if crossesSeam site p then some (match p with
    | 2 => 0
    | 0 => 1
    | 1 => 2
    | _ => 3) else none

/-- What every grant counts and records (R67): the input port granted last is that of any header, VC0's too, and of VC1 to VC3 the channel. -/
def grantActs (q : Packet) (p : Nat) : Act :=
  seq [count (fabPage q.at_) 0 (flits q), act (decide (q.vc = 3)) (count (fabPage q.at_) 1 (flits q)),
    act (decide (q.age = 0xFFF)) (count (fabPage q.at_) 2 1), one (.lastGrant (5 * q.at_ + p) (some q.inPort)),
    act (decide (q.vc ≠ 0)) (one (.lastGrant (vcTurn q.at_ p q.inPort) (some q.vc))),
    (match seamSlot q.at_ p with
      | some k => count fabGPage k (flits q)
      | none => nop)]

/-- Where a header stands once it has left its router through port p: at the local port, at the next router, or out of the mesh. -/
def afterPort (q : Packet) (p : Nat) : Option Packet :=
  if p = 4 then some { q with inPort := 5 } else (neighbour q.at_ p).map (fun t => { q with at_ := t, inPort := opposite p })

/-- Whether packet i, which waits outside, may enter the mesh: FAB_MESH_CTRL.quiesce is 0, the router is live, no packet of its channel waits
there before it, and the input port's buffer has the credits for it (R63). -/
def mayEnter (s : State) (i : Nat) (q : Packet) : Bool :=
  !bit (rd s (fabGPage + 0x100)) 0 && rtrLive s q.at_ && headsBuffer s i q && hasCredit s q.at_ (q.inPort - 8) q

/-- ROUTER_FORWARD (R63 to R68, R74, R75): packet i moves one step. From outside it enters the buffer of its input port, in the mesh with
age 0 (R66). In the mesh its header is granted its output port when it goes before every rival, and moves to the next router, to its local
port, or out of the mesh. -/
def actRouterForward (i : Nat) : Act := look fun s =>
  match packetAt s i with
  | none => nop
  | some q =>
    let p := wantsPort s q
    if outside q then act (mayEnter s i q) (movePacket i (some { q with inPort := q.inPort - 8 }))
    else act (competes q && rtrLive s q.at_ && granted s i q p) (seq [grantActs q p, movePacket i (afterPort q p)])

/-- AGE_INCREMENT (R66): a header that is in the mesh grows older. -/
def actAgeIncrement (i : Nat) : Act := look fun s =>
  match packetAt s i with
  | some q => act (competes q) (setPacket i { q with age := min (q.age + 1) 0xFFF })
  | none => nop

/-! ## The local port -/

/-- The fenced response to a request that expects an answer (R84). A registration expects none; a cancellation of a fenced home is
answered as not released. -/
def fencedAnswer : Payload → Option Payload
  | .tally _ _ _ _ true row => some (.tallyAck row true)
  | .cancel f _ clear false => some (.cancelAnswer f clear false)
  | .movReq ch _ _ _ => some (.movResp ch .fenced)
  | _ => none

/-- Whether a router's local port is in sink mode (BLK_STAT.sink). -/
def sinkMode (s : State) (site : Nat) : Bool := bit (rd s (fabPage site + 0x14)) 17

/-- The fenced response to packet q, which goes back to its source on VC2 (R84); none where q expects none. -/
def fencedPacket (q : Packet) : Option Packet :=
  (fencedAnswer q.payload).map (fun pl => ⟨q.dst, q.src, 4, 2, 0, q.herd, 0, q.at_, 12, pl⟩)

/-- The fenced response to packet q, where it expects one, enters the mesh. -/
def answerFenced (q : Packet) : Act := look fun s =>
  one (.packets (s.packets ++ (fencedPacket q).toList))

/-- A MOV.P's packet reaches the peer's store (R147): a word is written and acknowledged, or read and returned. `found`: what the read of
the word found (R96). -/
def serveMov (q : Packet) (ch : Fin 2) (w : Nat) (data : Option (BitVec 256)) (found : Cell) : Act := look fun s =>
  match data with
  | some d => seq [stCount q.at_ 1, stPut q.at_ w d, sendMov q.at_ q.src 2 q.herd (.movResp ch .written)]
  | none =>
    let f := stVerdict s q.at_ w found
    seq [stCount q.at_ 1, stFound q.at_ w found,
      sendMov q.at_ q.src 2 q.herd (.movResp ch (if f = .bad then .bad else .word (stGet s q.at_ w)))]

/-- A packet that passed its local port is taken by the core: a MOV.P by the store, its response by the mover, and the rest by the TLY_
unit in turn. -/
def deliver (q : Packet) : Act :=
  match q.payload with
  | .movReq ch w data found => serveMov q ch w data found
  | .movResp ch a => setCore q.at_ (fun x => if x.movSent.contains ch then { x with movAnswers := x.movAnswers ++ [(ch, a)] } else x)
  | _ => setCore q.at_ (fun x => { x with inbox := x.inbox ++ [q.payload], inboxFrom := x.inboxFrom ++ [q.src] })

/-- LOCAL_PORT_ARRIVE (R79, R84): the first packet of its channel at its local port is delivered to the core; in sink mode it is answered as
fenced or discarded, and slot 3 counts those discarded (DEDUCED, log entry 126); on a herd mismatch it is discarded, and a request is
answered as fenced. A packet whose source is the ring controller's attach router passes the herd check. -/
def actLocalPortArrive (i : Nat) : Act := look fun s =>
  match packetAt s i with
  | none => nop
  | some q =>
    if q.inPort ≠ 5 ∨ headsBuffer s i q = false then nop
    else
      let pg := fabPage q.at_
      if sinkMode s q.at_ then seq [movePacket i none, act (fencedAnswer q.payload).isNone (count pg 3 1), answerFenced q]
      else if decide (q.src ≠ (attachOf .ringCtl).1) && decide (herdAt s q.at_ ≠ some q.herd) then
        seq [movePacket i none, count pg 4 1, raise pg { cls := .security, herd := some q.herd }, answerFenced q]
      else seq [movePacket i none, deliver q]

/-! ## Bulk windows -/

/-- The value in force of a FAB_BULK_ register: what it held at the last bead boundary (R92). -/
def bulkForce (s : State) (a : Nat) : Word := (mGet s.bulkPend a).getD (rd s a)
/-- FAB_BULK_STARTn in force. -/
def bulkStart (s : State) (n : Nat) : Nat := fld (bulkForce s (fabGPage + 0x110 + 8 * n)) 23 0
/-- FAB_BULK_LENn in force. -/
def bulkLen (s : State) (n : Nat) : Nat := fld (bulkForce s (fabGPage + 0x114 + 8 * n)) 23 0

/-- BULK_WINDOW_OPEN (R70): window n opens while its enable is 1 and the cycle lies in it. -/
def actBulkOpen (n : Nat) : Act := look fun s =>
  let c := beadCyc s
  if bit (bulkForce s (fabGPage + 0x108)) n && decide (bulkStart s n ≤ c) && decide (c < bulkStart s n + bulkLen s n) &&
      !(s.bulkOpen.any (fun w => decide (w.1 = n))) then
    one (.bulkOpen (s.bulkOpen ++ [(n, bulkStart s n + bulkLen s n)]))
  else nop

/-- BULK_WINDOW_CLOSE (R70, R71, R92): an open window closes at the end it had when it opened. -/
def actBulkClose (n : Nat) : Act := look fun s =>
  one (.bulkOpen (s.bulkOpen.filter (fun w => decide (w.1 ≠ n) || decide (beadCyc s < w.2))))

/-- A write of FAB_BULK_CTRL, STARTn or LENn stores the value at once (ch. 1, RW) and takes effect at the next bead boundary (R92): until
then the value that was in force stays so. -/
def bulkWrite (a : Nat) (v : Word) : Act := look fun s =>
  seq [act (mGet s.bulkPend a).isNone (one (.bulkPend a (some (rd s a)))),
    wr a (if a = fabGPage + 0x108 then v &&& 0xF else v &&& 0xFFFFFF)]

/-- At a bead boundary open windows close, and the values written come into force (R70, R92). -/
def bulkBoundary : Act := seq [one (.bulkOpen []), one (.bulkPendKeep (fun _ => false))]

/-! ## Detours, quiescing, router faults -/

/-- Whether a set of dead routers keeps the placement limits of R56 (R81). -/
def placementOk (dead : List Nat) : Bool :=
  let edge (n : Nat) : Bool := decide (n = 0) || decide (n = 15) || decide (n = 16) || decide (n = 31)
  let far (a b : Nat) : Bool := decide (a + 3 ≤ b) || decide (b + 3 ≤ a)
  decide (dead.length ≤ 8) && dead.all (fun c => !edge (c / 32) && !edge (c % 32)) &&
    dead.all (fun a => dead.all (fun b => decide (a = b) || far (a / 32) (b / 32) || far (a % 32) (b % 32)))

/-- A FAB_DETOUR word: out port, ranges of dst_col and dst_row, and in_mask. -/
def detourOf (out xlo xhi ylo yhi mask : Nat) : Word :=
  BitVec.ofNat 32 (2 ^ 31 + out * 2 ^ 28 + xhi * 2 ^ 23 + xlo * 2 ^ 18 + yhi * 2 ^ 13 + ylo * 2 ^ 8 + mask * 8)

/-- The entries at router c that take packets one row or one column to the side of dead router d, where c is one of its neighbours: packets
on the way east or west pass it on the side of their row, and those on the way north or south in its column pass it on its west side. No
packet goes back through the port by which it came. -/
def detourBy (d c : Nat) : List Word :=
  let x := d % 32
  let y := d / 32
  if c + 1 = d then [detourOf 0 x 31 0 (y - 1) 0x1C, detourOf 2 x 31 y 31 0x19]
  else if c = d + 1 then [detourOf 0 0 x 0 (y - 1) 0x16, detourOf 2 0 x y 31 0x13]
  else if c = d + 32 then [detourOf 3 x x 0 (y - 1) 0x16]
  else if c + 32 = d then [detourOf 3 x x (y + 1) 31 0x13]
  else if c = d + 31 then [detourOf 0 x x 0 (y - 1) 0x1E]
  else if c + 33 = d then [detourOf 2 x x (y + 1) 31 0x1B]
  else []

/-- The tables that pass every dead router to the side. -/
def sideDetours (dead : List Nat) (c n : Nat) : Word := (dead.flatMap (fun d => detourBy d c)).getD n 0

/-- Where packets come into the mesh: the local ports of live routers, and the ports of edge routers that lead to a ring block (R62). -/
def sources (dead : List Nat) : List (Nat × Nat) :=
  ((List.range 1024).filter (fun c => !dead.contains c)).flatMap fun c => ((List.range 5).filter (fun p => p = 4 || ringPort c p)).map (c, ·)

/-- The routers of the path from every source to every live router under detour words `entry`, and its seam crossings; none where a path
does not end. -/
def livePaths (dead : List Nat) (entry : Nat → Nat → Word) : List (Option (List Nat × Nat) × (Nat × Nat) × Nat) :=
  (sources dead).flatMap fun a => ((List.range 1024).filter (fun c => !dead.contains c)).map fun b => (pathBy entry b 4 200 a.1 a.2, a, b)

/-- Whether no cycle runs along dependences: those that end where none begins are dropped, until all are gone or n rounds are over. -/
def noCycle : Nat → List (Nat × Nat) → Bool
  | 0, ds => ds.isEmpty
  | n + 1, ds => ds.isEmpty || noCycle n (ds.filter (fun d => ds.any (fun e => decide (e.1 = d.2))))

/-- The channels of a path, each with the next, as numbers 1,024 × router + next router. -/
def pathDeps : List Nat → List (Nat × Nat)
  | a :: b :: c :: r => (1024 * a + b, 1024 * b + c) :: pathDeps (b :: c :: r)
  | _ => []

/-- Whether detour words do what R76 asks of the ring controller's tables: every packet goes round every dead router, crosses no seam
that R74's route would not cross, passes at most two routers more for each dead router, and no deadlock can arise. -/
def detoursServe (dead : List Nat) (entry : Nat → Nat → Word) : Bool :=
  let ps := livePaths dead entry
  ps.all (fun p => match p.1, pathBy (fun _ _ => 0) p.2.2 4 200 p.2.1.1 p.2.1.2 with
    | some r, some plain => r.1.all (fun c => !dead.contains c) && decide (r.2 ≤ plain.2) &&
        decide (r.1.length ≤ plain.1.length + 2 * dead.length)
    | _, _ => false) &&
    noCycle 4096 (ps.flatMap (fun p => ((p.1.map (fun r => pathDeps r.1)).getD []))).eraseDups

/-- The detour tables for a set of dead routers (R76). FREE VALUE (log entry 13): which entries the ring controller chooses among those that
serve; where the free choice does not serve, the tables are those that pass each dead router to the side. -/
def detourTables (dead : List Nat) (c n : Nat) : Word :=
  let free : Nat → Nat → Word := fun c n => Config.detourWord dead c n &&& 0xFFFFFFF8
  if dead.isEmpty then 0 else if detoursServe dead free then free c n else sideDetours dead c n

/-- The ring controller writes the detour tables for a set of dead routers (R76). -/
def writeDetours (dead : List Nat) : Act :=
  each (List.range 1024) fun c => each (List.range 32) fun n => wr (fabPage c + 0x200 + 4 * n) (detourTables dead c n)

/-- A write of FAB_DETOURn (R77). -/
def detourWrite (r : Requester) (c n : Nat) (v : Word) : Act := look fun s =>
  if bit (rd s (fabGPage + 0x104)) 0 then wr (fabPage c + 0x200 + 4 * n) (v &&& 0xFFFFFFF8)
  else protocolAt fabGPage r

/-- A write of FAB_MESH_CTRL: clearing quiesce resumes injection, and the mesh is quiesced no more. -/
def quiesceWrite (v : Word) : Act :=
  seq [wr (fabGPage + 0x100) (v &&& 1), act (!bit v 0) (wrBit (fabGPage + 0x104) 0 false)]

/-- The routers that have faulted and that the ring controller has not yet fenced (R80). -/
def faultyRouters (s : State) : List Nat :=
  (List.range 1024).filter (fun c => bit (rd s (fabPage c + 0x14)) 16 && !fenced s (fabPage c))

/-- A site's core is withdrawn from MGT_CORE_AVAIL (R59). -/
def withdrawSite (c : Nat) : Act := look fun s =>
  act (!s.withdrawn.contains c) (one (.withdrawn (s.withdrawn ++ [c])))

/-- A router is withdrawn: its core with it (R59), and slot 4 counts. -/
def withdrawRouter (c : Nat) : Act := seq [withdrawSite c, count fabGPage 4 1]

/-- The ring controller routes around the dead routers while the mesh is quiet, or finds the placement limits broken, which bars herds
until the next power-on reset (R76, R81). The dead routers grant no credit from then on. -/
def routeAround : Act := look fun s =>
  let ok := placementOk (deadRouters s)
  seq [one (.mesh { s.mesh with routed := deadRouters s, barred := s.mesh.barred || !ok }),
    if ok then writeDetours (deadRouters s) else wrBit (fabGPage + 0x104) 1 true]

/-- The ring controller withdraws faulty routers once the mesh is quiet (R80 step 5, R81), and routes around every dead router that its
tables do not yet go round. -/
def withdrawRouters : Act := look fun s =>
  seq [each (faultyRouters s) fun c => seq [wrBit (fabPage c + 0x10) 2 true, withdrawRouter c], routeAround]

/-- Whether the detour tables were written for other dead routers than those there are. -/
def detoursOld (s : State) : Bool := decide (s.mesh.routed ≠ deadRouters s)

/-- MESH_QUIESCED (R77): quiesce is 1 and every router buffer is empty. The ring controller then withdraws routers that have faulted
(R80) and writes its detour tables afresh where they are old; DEDUCED (log entry 25): it lets injection resume once they are written. -/
def actMeshQuiesced : Act := look fun s =>
  if bit (rd s (fabGPage + 0x100)) 0 && s.packets.all outside then
    seq [wrBit (fabGPage + 0x104) 0 true, act (detoursOld s) (seq [withdrawRouters, quiesceWrite 0])]
  else nop

/-- ROUTER_FAULT (R80). -/
def actRouterFault (c : Nat) : Act := look fun s =>
  if !rtrEn s c then nop
  else seq [wrBit (fabPage c + 0x14) 16 true, raise (fabPage c) { cls := .uncorrFatal },
    look fun s => one (.packets (s.packets.filter (fun q => decide (q.at_ ≠ c)))),
    failAll 2, wr (fabGPage + 0x100) 1]

/-- The FAB_DETOUR words that are not 0, by 32 × site + entry. -/
def detourList (s : State) : List (Nat × Word) :=
  s.ctl.filterMap fun p => match pageBlock (p.1 / 4096) with
    | .fab c => if 0x200 ≤ p.1 % 4096 ∧ p.1 % 4096 < 0x280 then some (32 * c + (p.1 % 4096 - 0x200) / 4, p.2) else none
    | _ => none

/-- The distance table is written from the sites withdrawn and the detour tables as they stand (R90). -/
def writeDistances : Act := look fun s =>
  one (.mesh { s.mesh with distAway := s.withdrawn, distDetours := detourList s })

/-- The ring controller rewrites the whole table while nothing reads it: the generation counts up at the start and at the end (R91). -/
def rewriteDistances : Act := look fun s =>
  let a := fabGPage + 0x140
  seq [wr a (rd s a + if bit (rd s a) 0 then 1 else 2), writeDistances]

/-- DIST_TABLE_REWRITE (R91): the generation counts up at the start, to an odd value, and at the end, to an even one. The records are
those of the last rewrite until this one ends (DESIGN CHOICE, log entry 127). -/
def actDistRewrite (done : Bool) : Act := look fun s =>
  let a := fabGPage + 0x140
  act (decide (bit (rd s a) 0 = done)) (seq [wr a (rd s a + 1), act done writeDistances])

/-! ## Fencing a core -/

/-- The pages of a core in the order of R82. -/
def fenceOrder (c : Nat) : List Nat := [seqPage c, mvPage c, cubePage c, vuPage c, tilePage c, tlyPage c, corePage c]

/-- BLK_STAT.fenced of the page at p. -/
def isFenced (s : State) (p : Nat) : Bool := bit (rd s (p + 0x14)) 2

/-- CORE_FENCE (R82, R87): the next page in the order is fenced, once the preceding one reports fenced; the first step fails the core's
herd. -/
def actCoreFence (c : Nat) : Act := look fun s =>
  let k := (coreX s c).fenceStep
  if !coreEn s c || decide (7 ≤ k) then nop
  else if k = 0 ∨ isFenced s ((fenceOrder c).getD (k - 1) 0) = true then
    seq [wrBit ((fenceOrder c).getD k 0 + 0x10) 2 true, setCore c (fun x => { x with fenceStep := k + 1, owedResets := 0x7F }),
      act (decide (k = 0)) (match herdAt s c with
        | some h => failHerd h 1
        | none => nop)]
  else nop

/-- FENCE_TIMEOUT (R83): the local port goes to sink mode, the page that stalled is captured as UNCORR_FATAL in the CORE_ page, and the
site is withdrawn. DEDUCED (log entry 26): the capture's address is the stalled page's BAR0 offset. -/
def actFenceTimeout (c : Nat) : Act := look fun s =>
  let k := (coreX s c).fenceStep
  let p := (fenceOrder c).getD (k - 1) 0
  if k = 0 ∨ isFenced s p = true then nop
  else seq [wrBit (fabPage c + 0x14) 17 true,
    raise (corePage c) { cls := .uncorrFatal, addr := some p, herd := herdAt s c }, withdrawSite c]

/-- CORE_HARD_FAULT (R59, R82): a core that suffers a hard fault is fenced and withdrawn. -/
def actCoreHardFault (c : Nat) : Act := look fun s =>
  act (coreEn s c) (seq [withdrawSite c, act (decide ((coreX s c).fenceStep = 0)) (actCoreFence c)])

end Sys2Proof.Machine
end

