-- ==== Sys2Proof/Machine/Issue.lean ====
section
/-! DEFINITION. Rod rows (R109 to R113): what keeps a row from issuing (R104, R193, R282 to R284), the faults found before issue (R114, R117, R120, R161, R253, R642), and the issue of its slots. -/

namespace Sys2Proof.Machine

/-! ## Rows -/

/-- SEQ_PC. -/
def pcOf (s : State) (site : Nat) : Nat := fld (rd s (seqPage site + 0x118)) 10 0
/-- A part of a row (R109): 0 the control word, 1 slot A, 2 slot B, 3 slot C. -/
def partWord (row : BitVec 128) (part : Nat) : Word := (row >>> (32 * (3 - part))).setWidth 32
/-- A part of the row at SEQ_PC. -/
def pcPart (s : State) (site part : Nat) : Word := partWord (rodGet s site (pcOf s site)) part
/-- sop of the row at SEQ_PC. -/
def sopAt (s : State) (site : Nat) : Nat := fld (pcPart s site 0) 31 28
/-- SEQ_LCn. -/
def lcReg (site n : Nat) : Nat := seqPage site + 0x120 + 4 * n
/-- remain of loop counter n. -/
def lcRemain (s : State) (site n : Nat) : Nat := fld (rd s (lcReg site n)) 15 0
/-- index of loop counter n. -/
def lcIndex (s : State) (site n : Nat) : Nat := fld (rd s (lcReg site n)) 31 16
/-- The act that sets a loop counter. -/
def setLc (site n remain index : Nat) : Act :=
  wr (lcReg site n) (BitVec.ofNat 32 (remain % 65536 + 65536 * (index % 65536)))

/-- Whether a slot part holds an instruction (opcode not NOP). -/
def isInsn (part : Nat) (w : Word) : Bool := decide (opOf part w ≠ 0)

/-! ## Address generators (R115) -/

/-- A stride term of SEQ_AGn. -/
def strideTerm (s : State) (site : Nat) (w : Word) : Int :=
  if bit w 31 then signed 24 (fld w 23 0) * (lcIndex s site (fld w 26 24) : Int) else 0

/-- resolve(n, offset), exact. -/
def resolve (s : State) (site n offset : Nat) : Int :=
  let a := seqPage site + 0x200 + 16 * n
  ((rd s a).toNat + 4294967296 * fld (rd s (a + 4)) 5 0 + offset : Nat) + strideTerm s site (rd s (a + 8)) +
    strideTerm s site (rd s (a + 12))

/-- The resolved word address of a slot that names an address generator: for a mover copy, its local side. -/
def slotAddr (s : State) (site part : Nat) (w : Word) : Int :=
  if part = 1 then resolve s site (fld w 23 20) (fld w 19 4)
  else if part = 2 then resolve s site (fld w 19 16) (fld w 15 1)
  else resolve s site (fld w 24 21) 0

/-- The resolved far value of a mover copy. -/
def slotFar (s : State) (site : Nat) (w : Word) : Int := resolve s site (fld w 20 17) 0
/-- Words of a mover copy. -/
def movLen (w : Word) : Nat := fld w 16 8 + 1

/-- Whether an instruction of a slot resolves an address. -/
def usesAg (part op : Nat) : Bool :=
  if part = 1 then decide (op = 8 ∨ op = 9) else decide (op = 1 ∨ op = 2)

/-! ## What an instruction reads and writes (R104, R162, R178, R263) -/

/-- The numbers of registers for R104: 0–63 V, 64–95 AB, then TC, RA, the write cursors and the read cursors. -/
def tcRes (n : Nat) : Nat := 100 + n
/-- Row accumulator k. -/
def raRes (k : Nat) : Nat := 110 + k
/-- The write cursor of TCn. -/
def wcurRes (n : Nat) : Nat := 120 + n
/-- The read cursor of TCn. -/
def rcurRes (n : Nat) : Nat := 130 + n

/-- The registers of a VU operand. -/
def operandRes (fmt v : Nat) : List Nat :=
  if 64 ≤ v then [v] else (List.range (if fmt = 0 then 4 else 2)).map (v + ·)

/-- The tile configuration register whose descriptor a slot reads first. -/
def firstTc (part : Nat) (w : Word) : Nat := if part = 1 then fld w 26 24 else vuTc w

/-- The registers that hold the elements and scales of the 8 × 8 positions of a DEC. -/
def decRes (d : DWord) (g k : Nat) : List Nat :=
  ((List.range 64).flatMap fun l =>
    let i := 8 * g + l / 8
    let j := 8 * k + l % 8
    if tRows d ≤ i ∨ tCols d ≤ j then []
    else
      let lo := 8 * cellRow (tFmt d) * (j / fmtE (tFmt d)) + cellRow (tFmt d) * (i % 8) + fmtBits (tFmt d) * (j % fmtE (tFmt d))
      let r := tBase d + i / 8 * tGroupRegs d
      [r + lo / 512, r + (lo + fmtBits (tFmt d) - 1) / 512] ++
        (if tScl d = 0 then [] else [tSbase d + tBlockOf d i j / 64])).eraseDups

/-- The registers that a CVT writes. -/
def cvtRes (d : DWord) (g k : Nat) : List Nat :=
  (cvtRegs d g k []).map (·.1) ++
    ((cvtBlocks d g k).map (fun b => tSbase d + tBlockOf d (8 * g + b.1) (32 * k + b.2.1) / 64)).eraseDups

/-- What a slot's instruction reads, and what it writes: `a` and `b` its descriptors, (g, k) the cursor of a CVT or DEC. -/
def resOf (part : Nat) (w : Word) (a b : DWord) (g k : Nat) : List Nat × List Nat :=
  let op := opOf part w
  let vd := vuVd w
  let dst := operandRes (vuFmt w) vd
  let va := operandRes (vuFmt w) (vuVa w)
  let vb := operandRes (vuFmt w) (vuVb w)
  if part = 1 then
    if 1 ≤ op ∧ op ≤ 3 then
      ([tcRes (fld w 26 24), tcRes (fld w 23 21)] ++ tRegs a ++ tRegs b, (List.range 8).map (fun c => 64 + 4 * c + cmmBank w))
    else if op = 8 then ([tcRes (fld w 26 24)], tRegs a)
    else if op = 9 then (tcRes (fld w 26 24) :: tRegs a, [])
    else ([], [])
  else if part = 2 then
    match op with
    | 0x01 => ([], [vd])
    | 0x02 => ([vd], [])
    | 0x13 => (va ++ (if bit w 0 then [] else vb) ++ dst, dst)
    | 0x10 | 0x11 | 0x12 | 0x14 | 0x15 | 0x16 => (va ++ (if bit w 0 then [] else vb), dst)
    | 0x18 => (va, dst)
    | 0x19 => (va ++ vb, dst)
    | 0x1A => (va ++ (if fld w 1 0 = 3 then vb else []) ++ (if bit w 2 then [] else [raRes (vd % 8)]), [raRes (vd % 8)])
    | 0x1B => ([raRes (fld w 2 0)], dst)
    | 0x1C => ([], [vd])
    | 0x1D => (vuVb w :: va, dst)
    | 0x20 => (tcRes (vuTc w) :: wcurRes (vuTc w) ::
        (if 64 ≤ vuVa w then (List.range 4).map (fun q => vuVa w + 4 * q) else (List.range 16).map (vuVa w + ·)),
        wcurRes (vuTc w) :: (if bit w 4 then [] else cvtRes a g k))
    | 0x21 => (operandRes 0 (vuVa w), operandRes 1 vd)
    | 0x22 => (tcRes (vuTc w) :: rcurRes (vuTc w) :: decRes a g k, rcurRes (vuTc w) :: operandRes (b2n (bit w 5)) vd)
    | 0x23 => ([], [if bit w 3 then rcurRes (fld w 2 0) else wcurRes (fld w 2 0)])
    | 0x30 => ([vuVa w], [tcRes (fld w 2 0)])
    | _ => ([], [])
  else ([], [])

/-- The descriptors that a slot would read at issue. -/
def slotTcA (s : State) (site part : Nat) (w : Word) : DWord := tcGet s site (firstTc part w)
/-- The second descriptor of a CMM. -/
def slotTcB (s : State) (site : Nat) (w : Word) : DWord := tcGet s site (fld w 23 21)

/-- A stride of a mask entry's origin (R295). -/
def originTerm (s : State) (site : Nat) (w : Word) : Nat :=
  if bit w 31 then fld w 15 0 * lcIndex s site (fld w 26 24) else 0

/-- The pair kept with an instruction at issue: the mask origin of a CMM.w (R295), or the cursor of a CVT or DEC. -/
def slotPair (s : State) (site part : Nat) (w : Word) : Nat × Nat :=
  let op := opOf part w
  if part = 1 && decide (op = 3) && decide (cmmMask w ≠ 0) then
    let m := mtAddr site (cmmMask w)
    (fld (rd s (m + 12)) 15 0 + originTerm s site (rd s (m + 16)), fld (rd s (m + 12)) 31 16 + originTerm s site (rd s (m + 20)))
  else if part = 2 && decide (op = 0x20) then (cursorG s site (vuTc w) false, cursorK s site (vuTc w) false)
  else if part = 2 && decide (op = 0x22) then (cursorG s site (vuTc w) true, cursorK s site (vuTc w) true)
  else (0, 0)

/-- The instruction that a slot of the row at SEQ_PC would issue. -/
def slotInsn (s : State) (site part id : Nat) : Issued :=
  let w := pcPart s site part
  let p := slotPair s site part w
  let ag := usesAg part (opOf part w)
  ⟨id, pcOf s site, part, w, if ag then (slotAddr s site part w).toNat else 0,
    if ag && decide (part = 3) then (slotFar s site w).toNat else 0,
    slotTcA s site part w, slotTcB s site w, false, false, 0, p.1, p.2, none⟩

/-- The instructions that the row at SEQ_PC would issue. -/
def rowInsns (s : State) (site : Nat) : List Issued :=
  ([1, 2, 3].filter (fun part => isInsn part (pcPart s site part))).zipIdx.map
    (fun p => slotInsn s site p.1 ((coreX s site).nextId + p.2))

/-! ## Holds -/

/-- What an issued instruction reads and writes. -/
def insnRes (i : Issued) : List Nat × List Nat := resOf i.part i.word i.tcA i.tcB i.orow i.ocol

/-- Whether a number lies in a list of AB numbers. -/
def isAb (n : Nat) : Bool := decide (64 ≤ n) && decide (n < 96)

/-- Whether an earlier instruction `i` holds a new one `n` under R104; a deferred CMM.w is not held by the bank of an earlier
one (R284). -/
def conflicts (n i : Issued) : Bool :=
  let a := insnRes n
  let b := insnRes i
  let hit (x : Nat) : Bool := !(isDeferred n && isDeferred i && isAb x)
  (b.2.filter hit).any (fun x => a.1.contains x || a.2.contains x) || b.1.any (fun x => a.2.contains x)

/-- Whether the unit that instruction n names can accept it: the cube array (R193, R282, R283), the mover (R146), the VU, which takes
one operation at a time (R276), and TCn's writer while a pending value waits (R167). -/
def accepts (s : State) (site : Nat) (n : Issued) : Bool :=
  let x := coreX s site
  let op := opOf n.part n.word
  if isCmm n then
    if cmmDefer n.word then decide ((x.issued.filter isDeferred).length < 64)
    else x.issued.all (fun i => !isCmm i || isDeferred i || x.cube.any (fun j => decide (j.insn.id = i.id)))
  else if n.part = 2 then
    (decide (op < 0x10) || !x.issued.any (fun i => decide (i.part = 2) && decide (0x10 ≤ opOf 2 i.word) && !i.started)) &&
      !(decide (op = 0x30) && bit (rd s (tilePage site + 0x140)) (fld n.word 2 0))
  else if n.part = 3 && decide (op ≤ 2) then
    !x.issued.any (fun i => decide (i.part = 3) && decide (opOf 3 i.word ≤ 2) && decide (bit i.word 26 = bit n.word 26))
  else true

/-- Whether the row at SEQ_PC is held under R104 (R105 leaves memory and tallies out of it). -/
def rowHeld (s : State) (site : Nat) : Bool :=
  (rowInsns s site).any (fun n => !accepts s site n || (coreX s site).issued.any (conflicts n))

/-- The deferred queue's entries, the stepping one first. -/
def dwqEntries (s : State) (site : Nat) : List CubeJob := (coreX s site).dwqCur.toList ++ (coreX s site).dwq

/-- Whether a deferred product that has not retired, in the queue, stepping, or on its way into the queue while its mask is evaluated, holds
the row at SEQ_PC (R286). -/
def heldByQueue (s : State) (site : Nat) : Bool :=
  (rowInsns s site).any (fun n => ((coreX s site).issued.filter (fun i => isDeferred i && !i.faulted)).any (conflicts n))

/-- Whether the row at SEQ_PC holds a deferred CMM.w that finds the queue full (R283). -/
def queueFull (s : State) (site : Nat) : Bool :=
  (rowInsns s site).any (fun n => isDeferred n && !accepts s site n)

/-! ## Faults found before issue -/

/-- Whether a source field is reserved or misaligned for a format (R112, R249). -/
def badSrc (fmt v : Nat) : Bool :=
  decide (96 ≤ v) || (decide (v < 64) && decide (v % (if fmt = 0 then 4 else 2) ≠ 0))

/-- Whether a VU operation's encoding is one that R114, R247, R249, R251, R253 or R264 rejects. -/
def badVu (s : State) (site : Nat) (w : Word) : Bool :=
  let fmt := vuFmt w
  let vd := vuVd w
  let va := vuVa w
  let vb := vuVb w
  let f3 := decide (fmt = 3)
  let dst := badSrc fmt vd
  let off := !slotEn s site (vuSlot w)
  match opOf 2 w with
  | 0x10 | 0x11 | 0x12 | 0x13 | 0x14 | 0x15 | 0x16 =>
    bit w 3 || f3 || badSrc fmt va || dst || (if bit w 0 then decide (16 ≤ vb) else badSrc fmt vb)
  | 0x18 => decide (vb ≠ 0) || f3 || decide (12 ≤ fld w 3 0) || badSrc fmt va || dst
  | 0x19 => f3 || decide (6 ≤ fld w 3 0) || badSrc fmt va || badSrc fmt vb || dst
  | 0x1A => decide (8 ≤ vd) || bit w 3 || f3 || badSrc fmt va || (if fld w 1 0 = 3 then badSrc fmt vb else decide (vb ≠ 0))
  | 0x1B => decide (va ≠ 0) || decide (vb ≠ 0) || bit w 3 || f3 || dst
  | 0x1C => decide (va ≠ 0) || decide (vb ≠ 0) || decide (fmt ≠ 0) || off
  | 0x1D => decide (fld w 3 0 ≠ 0) || f3 || badSrc fmt va || decide (64 ≤ vb) || dst
  | 0x20 => decide (vd ≠ 0) || decide (32 ≤ vb) || bit w 5 || off ||
      (if 64 ≤ va then decide (96 ≤ va) || decide (3 < (va - 64) % 16) else decide (va % 16 ≠ 0))
  | 0x21 => decide (2 ≤ vb) || badSrc 0 va || decide (vd % 2 ≠ 0) || ((bit w 5 || bit w 4) && off)
  | 0x22 => decide (va ≠ 0) || decide (8 ≤ vb) || badSrc (b2n (bit w 5)) vd || (bit w 4 && off)
  | 0x23 => decide (2 ≤ vb) || decide (fmt ≠ 0) || (!bit w 3 && decide (vb % 2 = 1))
  | 0x24 => decide (16 ≤ vd) || decide (va ≠ 0) || decide (16 ≤ vb) || decide (fld w 5 3 ≠ 0) ||
      (bit w 2 && (!slotEn s site vd || !slotEn s site vb))
  | 0x30 => decide (64 ≤ va) || decide (vd ≠ 0) || decide (vb ≠ 0) || decide (fld w 5 3 ≠ 0)
  | _ => true

/-- Cause 0x01: reserved encodings (R114, R419). -/
def bad01 (s : State) (site part : Nat) (w : Word) : Bool :=
  let op := opOf part w
  if part = 0 then
    match fld w 31 28 with
    | 0 => decide (fld w 27 0 ≠ 0)
    | 1 => decide (fld w 8 0 ≠ 0)
    | 2 => decide (fld w 13 0 ≠ 0)
    | 3 => decide (fld w 25 0 ≠ 0)
    | 4 => decide (fld w 6 0 ≠ 0) || bit w 27 || (bit w 26 && decide (32 ≤ fld w 25 18))
    | 5 => decide (fld w 19 0 ≠ 0)
    | 6 | 7 => false
    | 8 => decide (fld w 6 0 ≠ 0)
    | _ => true
  else if part = 1 then
    match op with
    | 0 => decide (fld w 26 0 ≠ 0)
    | 1 | 2 => decide (fld w 10 0 ≠ 0) || cmmDefer w || decide (cmmMask w ≠ 0)
    | 3 => decide (fld w 10 0 ≠ 0)
    | 8 | 9 => decide (fld w 2 0 ≠ 0)
    | _ => true
  else if part = 2 then
    match op with
    | 0 => decide (fld w 25 0 ≠ 0)
    | 1 | 2 => false
    | _ => badVu s site w
  else
    let remote := bit w 26
    let strayCore := !remote && decide (fld w 25 16 ≠ 0)
    match op with
    | 0 => decide (fld w 26 0 ≠ 0)
    | 1 | 2 => false
    | 8 | 9 => decide (fld w 7 0 ≠ 0) || strayCore || (remote && decide (224 ≤ fld w 15 8))
    | 0x0A => decide (fld w 15 13 ≠ 0) || strayCore
    | _ => true

/-- Cause 0x02: loop misuse (R120). -/
def bad02 (s : State) (site part : Nat) (w : Word) : Bool :=
  decide (part = 0) && (match fld w 31 28 with
    | 1 => decide (fld w 24 9 = 0) || decide (lcRemain s site (fld w 27 25) ≠ 0)
    | 2 => decide (lcRemain s site (fld w 27 25) = 0)
    | _ => false)

/-- R296: a mask entry that cannot be used. -/
def badMask (s : State) (site n : Nat) : Bool :=
  let m := mtAddr site n
  let rows := fld (rd s (m + 8)) 15 0
  let cols := fld (rd s (m + 8)) 31 16
  !bit (rd s m) 31 || decide (rows = 0) || decide (cols = 0) ||
    (bit (rd s m) 30 && decide (49152 ≤ fld (rd s m) 15 0 + ceilDiv rows 256 - 1)) ||
    (bit (rd s m) 29 && decide (49152 ≤ fld (rd s (m + 4)) 15 0 + ceilDiv (ceilDiv rows 64 * ceilDiv cols 64) 256 - 1))

/-- Cause 0x05: a tile shape that does not fit (R161, R270, R273, R296). -/
def bad05 (s : State) (site part : Nat) (w : Word) : Bool :=
  let op := opOf part w
  let a := slotTcA s site part w
  let b := slotTcB s site w
  if part = 1 then
    if 1 ≤ op ∧ op ≤ 3 then
      !tShapeOk a || !tShapeOk b || !cmmFits op a b || (decide (op = 3) && decide (cmmMask w ≠ 0) && badMask s site (cmmMask w))
    else if op = 8 ∨ op = 9 then !tShapeOk a || !tPitchOk a
    else false
  else if part = 2 then
    if op = 0x20 then !tShapeOk a || decide (6 < tFmt a) || tOrient a || decide (tRows a ≤ 8 * cursorG s site (vuTc w) false)
    else if op = 0x22 then !tShapeOk a || decide (6 < tFmt a) || decide (tRows a ≤ 8 * cursorG s site (vuTc w) true)
    else false
  else false

/-- Whether n bytes from word address a lie in their space (R117). -/
def inSpace (unified : Bool) (a : Int) (n : Nat) : Bool :=
  decide (0 ≤ a) && decide (32 * a.toNat + n ≤ (if unified then 2 ^ 42 else 1572864))

/-- Whether a mover's far side lies in its space. -/
def farOk (w : Word) (f : Int) : Bool :=
  if opOf 3 w = 1 then inSpace true f (32 * movLen w)
  else decide (0 ≤ f) && decide (f < 67108864) && decide (f.toNat % 65536 + movLen w ≤ 49152)

/-- Cause 0x04: an address outside its space (R117), as the space bit and the resolved value that the capture shows. -/
def bad04 (s : State) (site part : Nat) (w : Word) : Option (Bool × Int) :=
  let op := opOf part w
  if !usesAg part op then none
  else
    let a := slotAddr s site part w
    if part = 1 then
      let d := slotTcA s site 1 w
      let n := (List.range (tRows d)).foldl (fun m i => max m (4 * tPitch d * i + tRowBytes d i)) 0
      if inSpace (bit w 3) a n then none else some (bit w 3, a)
    else if part = 2 then if inSpace (bit w 0) a 64 then none else some (bit w 0, a)
    else if !inSpace false a (32 * movLen w) then some (false, a)
    else if farOk w (slotFar s site w) then none else some (true, slotFar s site w)

/-- Cause 0x13: a peer hidx above CORE_HERD.last (R114). -/
def bad13 (s : State) (site part : Nat) (w : Word) : Bool :=
  let op := opOf part w
  decide (part = 3) &&
    (if 8 ≤ op then bit w 26 && decide (lastOf s site < fld w 25 16)
      else decide (op = 2) && decide (lastOf s site < (slotFar s site w).toNat / 65536 % 1024))

/-- Whether the row's control operation would continue at the next row (R642); `taken` says whether an ALT's condition holds. -/
def goesOn (s : State) (site : Nat) (w : Word) (taken : Bool) : Bool :=
  match fld w 31 28 with
  | 2 => decide (lcRemain s site (fld w 27 25) = 1)
  | 4 => !taken
  | 5 => false
  | _ => true

/-- A fault found before issue: its cause, part, space bit and resolved value. -/
abbrev RowFault := Nat × Nat × Bool × Int

/-- The fault of the row at SEQ_PC, if any. DESIGN CHOICE (log entry 29): of several, the first by cause in the order 1, 2, 5, 4, 0x13, 3, and
for one cause the first part of the row; and the capture of a fault that resolves no address (causes 0x01, 0x02, 0x03, 0x05, 0x13, and 0x20
in badRow), of whose SEQ_FLT_ADDR the manual says nothing, holds address 0 with space 0. -/
def rowFaultOf (s : State) (site : Nat) (taken : Bool) : Option RowFault :=
  let w (p : Nat) : Word := pcPart s site p
  let first (c : Nat) (bad : Nat → Bool) : Option RowFault :=
    ([0, 1, 2, 3].find? bad).map (fun p => (c, p, false, 0))
  [first 1 (fun p => bad01 s site p (w p)), first 2 (fun p => bad02 s site p (w p)), first 5 (fun p => bad05 s site p (w p)),
    [1, 2, 3].findSome? (fun p => (bad04 s site p (w p)).map (fun r => (4, p, r))),
    first 0x13 (fun p => bad13 s site p (w p)),
    if pcOf s site = 2047 ∧ goesOn s site (w 0) taken then some (3, 0, false, 0) else none].findSome? id

/-- A row faults before issue; its shape and VU faults count in their pages. -/
def faultRow (site : Nat) (f : RowFault) : Act := look fun s =>
  seq [rowFault site (pcOf s site) f.2.1 (pcPart s site f.2.1) f.2.2.1 (f.2.2.2 % 274877906944).toNat f.1,
    act (decide (f.1 = 5) && decide (f.2.1 = 1)) (count (tilePage site) 4 1),
    act ((decide (f.1 = 5) || decide (f.1 = 1)) && decide (f.2.1 = 2) && decide (0x10 ≤ opOf 2 (pcPart s site 2)))
      (count (vuPage site) 4 1)]

/-! ## Issue -/

/-- The row after `row`. -/
def rowAfter (row : Nat) : Nat := if row = 2047 then 2047 else row + 1

/-- The row at SEQ_PC issues with all its slots, and SEQ_PC moves to `next` (R103). `found`: what reading the row found. -/
def issueRow (site next : Nat) (found : Cell) : Act := look fun s =>
  let is := rowInsns s site
  let vu := is.filter (fun i => decide (i.part = 2) && decide (0x10 ≤ opOf 2 i.word))
  seq [act (decide (rodVerdict s site (pcOf s site) found = .corrected)) (seq [count (seqPage site) 5 1, coreEvent site (seqPage site) .corr]),
    setCore site (fun x => { x with issued := x.issued ++ is, nextId := x.nextId + is.length, released := false }),
    wr (seqPage site + 0x118) (BitVec.ofNat 32 next), count (seqPage site) 0 1, count (vuPage site) 0 vu.length,
    count (vuPage site) 3 (vu.filter (fun i => decide (opOf 2 i.word = 0x18 ∨ opOf 2 i.word = 0x19))).length]

end Sys2Proof.Machine
end

