-- ==== Sys2Proof/Machine/Sequencer.lean ====
section
/-! DEFINITION. The sequencer: control operations (R118 to R129), core states (R130 to R145), the bead boundary as a core meets it, what a step boundary does (R128), and the deferred queue's start (R286). -/

namespace Sys2Proof.Machine

/-! ## What lets the deferred queue run -/

/-- The conditions of R286 that hold, as CUBE_DWQ_LOG bits: held, full, stop, carry, pause. A row that waits at
its boundary or for its condition is not held under R104. DEDUCED (log entry 49): the third goes on holding in HALTED and FAULTED. -/
def dwqConds (s : State) (site : Nat) : List Nat :=
  let x := coreX s site
  let st := coreState s site
  let running := decide (st = 3) && !x.faulting && x.halting.isNone
  [(0, running && heldByQueue s site), (1, running && queueFull s site),
    (2, x.halting.isSome || x.stopPend || x.faulting || decide (st = 7 ∨ st = 8)), (3, x.dwqCarry), (4, decide (st = 6))].filterMap
    (fun p => if p.2 then some p.1 else none)

/-- CUBE_DWQ_STAT.fill. -/
def inFill (s : State) (site : Nat) : Bool := bit (rd s (cubePage site + 0x110)) 0

/-- Whether the queue may begin an entry (R286, R290). -/
def dwqMay (s : State) (site : Nat) : Bool :=
  (!(dwqConds s site).isEmpty || inFill s site) && !fenced s (cubePage site)

/-- Conditions of R286 are recorded in CUBE_DWQ_LOG. -/
def dwqLog (site : Nat) (cs : List Nat) : Act := look fun s =>
  wr (cubePage site + 0x114) (rd s (cubePage site + 0x114) ||| BitVec.ofNat 32 (ofBits cs))

/-! ## Control operations -/

/-- Whether the sequencer of a core issues rows: in RUN, with no fault, halt or fence standing (R135, R139, R82). -/
def canIssue (s : State) (site : Nat) : Bool :=
  let x := coreX s site
  decide (coreState s site = 3) && !x.faulting && x.halting.isNone && !fenced s (seqPage site)

/-- A rod row that cannot be corrected faults as it is read (R138, cause 0x20), and stays so until it is written. -/
def badRow (site : Nat) : Act := look fun s =>
  seq [one (.rodBad (2048 * site + pcOf s site) true), rowFault site (pcOf s site) 0 (pcPart s site 0) false 0 0x20]

/-- What the read of the row at SEQ_PC finds. -/
def rowVerdict (s : State) (site : Nat) (found : Cell) : Cell := rodVerdict s site (pcOf s site) found

/-- The row at SEQ_PC is judged and issues: `taken` whether an ALT's condition holds, `go` what it does besides its slots. DESIGN CHOICE (log
entry 133): a row is judged as it would issue, a wait row once its condition has held and a BEAD row as it is passed. A row that the
deferred queue holds, or that finds it full, is recorded (R286). -/
def issueIf (site : Nat) (found : Cell) (taken : Bool) (go : Act) : Act := look fun s =>
  if rowVerdict s site found = .bad then badRow site
  else if rowHeld s site then dwqLog site ((dwqConds s site).filter (· < 2))
  else match rowFaultOf s site taken with
    | some f => faultRow site f
    | none => go

/-- The plain control operations: their row issues when it is next. -/
def ctlOp (site sop : Nat) (found : Cell) (taken : Bool) (go : Word → Act) : Act := look fun s =>
  act (canIssue s site && decide (sopAt s site = sop)) (issueIf site found taken (go (pcPart s site 0)))

/-- The act that issues the row and goes on with the next. -/
def passOn (site : Nat) (found : Cell) : Act := look fun s => issueRow site (rowAfter (pcOf s site)) found

/-- NEXT (R110). A row with a reserved code faults here. -/
def actNext (site : Nat) (found : Cell) : Act := look fun s =>
  act (canIssue s site && (decide (sopAt s site = 0) || decide (9 ≤ sopAt s site)))
    (issueIf site found false (passOn site found))

/-- LOOP (R118). -/
def actLoop (site : Nat) (found : Cell) : Act := ctlOp site 1 found false fun w =>
  seq [passOn site found, setLc site (fld w 27 25) (fld w 24 9) 0]

/-- ENDL (R119): the slots issue with the loop indices as they stand (R115). -/
def actEndl (site : Nat) (found : Cell) : Act := ctlOp site 2 found false fun w => look fun s =>
  let n := fld w 27 25
  if 1 < lcRemain s site n then
    seq [issueRow site (fld w 24 14) found, setLc site n (lcRemain s site n - 1) (lcIndex s site n + 1)]
  else seq [passOn site found, setLc site n 0 0]

/-- The path bits (SEQ_PATH). -/
def pathBit (s : State) (site p : Nat) : Bool := bit (rd s (seqPage site + 0x140)) p

/-- Whether an ALT's condition holds (R121). -/
def altTaken (s : State) (site : Nat) (w : Word) : Bool :=
  if fld w 27 26 = 0 then flagSeen s site (fld w 25 18) else pathBit s site (fld w 25 18)

/-- ALT (R121). -/
def actAlt (site : Nat) (found : Cell) : Act := look fun s =>
  let taken := altTaken s site (pcPart s site 0)
  ctlOp site 4 found taken fun w => if taken then issueRow site (fld w 17 7) found else passOn site found

/-- HALT (R135). -/
def actHalt (site : Nat) (found : Cell) : Act := ctlOp site 5 found false fun w =>
  seq [passOn site found, setCore site (fun x => { x with halting := some (fld w 27 20) })]

/-- A wait row becomes the next row to issue: the core waits, and a wait on a shared flag held elsewhere sends its registration (R123,
R421). -/
def beginWait (site kind obj value : Nat) : Act :=
  seq [setCoreState site 4,
    wr (waitReg site) (BitVec.ofNat 32 (0x80000000 + 0x20000000 * kind + 256 * value + obj)),
    wr (tlyPage site + 0x248) 0,
    look fun s => act (waitsAway s site) (seq [setCore site (fun x => { x with registered := true }),
      send0 site (homeOf s site) (.register obj (hidxOf s site) (decide (kind = 1)))])]

/-- TWAIT, TWAITC and CWAIT: the wait begins, and once its condition has held its row issues (R108, R123). -/
def waitOp (site sop kind : Nat) (found : Cell) (obj value : Word → Nat) : Act := look fun s =>
  let w := pcPart s site 0
  if !(canIssue s site && decide (sopAt s site = sop)) then nop
  else if (coreX s site).released then issueIf site found false (passOn site found)
  else if rowVerdict s site found = .bad then badRow site
  else beginWait site kind (obj w) (value w)

/-- TWAIT. -/
def actTwait (site : Nat) (found : Cell) : Act := waitOp site 6 0 found (fun w => fld w 27 20) (fun _ => 0)
/-- TWAITC. -/
def actTwaitc (site : Nat) (found : Cell) : Act := waitOp site 7 1 found (fun w => fld w 27 20) (fun _ => 0)
/-- CWAIT. -/
def actCwait (site : Nat) (found : Cell) : Act := waitOp site 8 2 found (fun w => fld w 27 23) (fun w => fld w 22 7)

/-! ## Step boundaries -/

/-- SEQ_SLOTS. -/
def slotsOf (s : State) (site : Nat) : Nat := (rd s (seqPage site + 0x11C)).toNat
/-- The flag that SEQ_PATHSRC names for path bit p. -/
def pathSrc (s : State) (site p : Nat) : Nat :=
  fld (rd s (seqPage site + 0x160 + 4 * (p / 4))) (8 * (p % 4) + 7) (8 * (p % 4))
/-- The path bits are latched (R122). -/
def latchPath (site : Nat) : Act := look fun s =>
  wr (seqPage site + 0x140) (BitVec.ofNat 32 (ofBits ((List.range 32).filter (fun p => flagSeen s site (pathSrc s site p)))))

/-- VU_STEPIDX. -/
def stepIdx (s : State) (site : Nat) : DWord := rd64 s (vuPage site + 0x820)

/-- Whether an evaluation slot runs in the core's herd (R531). -/
def inEval (s : State) (site : Nat) : Bool :=
  match (herdAt s site).bind (herdOf s) with
  | some x => x.eval.any (fun e => decide (e.phase ≠ 0))
  | none => false

/-- R288: a step boundary passed with deferred products queued. -/
def dwqCarryCheck (site : Nat) : Act := look fun s =>
  let x := coreX s site
  act (!x.dwq.isEmpty || x.dwqCur.isSome) (seq [coreEvent site (cubePage site) .schedule, setIst (cubePage site) 9,
    wrBit (cubePage site + 0x114) 3 true, setCore site (fun x => { x with dwqCarry := true })])

/-- What the herd's engines take from its hidx 0 core's step boundary (R239, R326, R378), a start among them. -/
def herdStep (site : Nat) (begin_ : Nat → Act) : Act := look fun s =>
  match herdAt s site with
  | none => nop
  | some h => act (decide (hidxOf s site = 0)) (seq [
      setHerd h (fun x => { x with stepBeads := ((beadNo s).toNat :: x.stepBeads).take 17 }),
      voteStep h, pfStepBoundary h, begin_ h])

/-- A step boundary of a core (R128): path bits, counters, tensor scales, the row cache, TLY_STEP and VU_STEPIDX (R122, R432, R230, R99,
R228); EVAL's halt (R529). -/
def stepBoundary (site : Nat) : Act := look fun s =>
  seq [latchPath site, realign site, boundaryReads site false,
    setCore site (fun x => { x with rowCache := [], rowsInStep := 0 }),
    wrFld (tlyPage site + 0x240) 7 0 (stepTag s site + 1),
    wr64 (vuPage site + 0x820) (stepIdx s site + 1),
    wrFld (vuPage site + 0x82C) 1 0 0, dwqCarryCheck site,
    herdStep site (fun h => look fun s => snapBoundary h (stepIdx s site).toNat),
    look fun s => act (decide ((coreX s site).evalAt = some (loWord (stepIdx s site))))
      (setCore site (fun x => { x with halting := some 0xFE, evalAt := none }))]

/-- A BEAD row is passed (R126): the slot counts, and the herd's next step slot opens when the core is its hidx 0 and passes at the boundary
(`onTime`; R377, R240: DEDUCED, log entry 62, that a late one opens none). In an evaluation slot a step row acts as any other (R531). -/
def passBead (site : Nat) (found : Cell) (onTime : Bool) : Act := look fun s =>
  let w := pcPart s site 0
  let eval := inEval s site
  seq [issueRow site (rowAfter (pcOf s site)) found,
    wr (seqPage site + 0x11C) (BitVec.ofNat 32 (slotsOf s site + 1)),
    setCoreState site 3,
    setCore site (fun x => { x with rowsInStep := x.rowsInStep + 1 }),
    wrBit (cubePage site + 0x110) 0 (bit w 26),
    if bit w 27 && !eval then stepBoundary site
    else match (herdAt s site) with
      | some h =>
        let k := ((herdOf s h).map (·.stepSlot)).getD 0 + 1
        act (decide (hidxOf s site = 0) && !eval && onTime) (seq [openSlot h k,
          act (decide (fld (rd s (vuPage site + 0x828)) 15 8 = k)) (closeVote h)])
      | none => nop]

/-- The BEAD row at SEQ_PC passes, or faults. -/
def tryPass (site : Nat) (found : Cell) (onTime : Bool) : Act := issueIf site found false (passBead site found onTime)

/-- Whether every instruction that R125 counts has retired: mover copies and deferred products are exempt. -/
def drained (s : State) (site : Nat) : Bool :=
  (coreX s site).issued.all (fun i => isDeferred i || (decide (i.part = 3) && decide (opOf 3 i.word ≤ 2)))

/-- BEAD (R125, R126, R136, R142): the core reaches its BEAD row; it halts, pauses, passes a row whose boundary has come, or waits for the
boundary. A row whose boundary has come may be held by R104, in RUN (R130). -/
def actBead (site : Nat) (found : Cell) : Act := look fun s =>
  let x := coreX s site
  if !(canIssue s site && decide (sopAt s site = 3) && drained s site) then nop
  else if rowVerdict s site found = .bad then badRow site
  else if x.stopPend then setCore site (fun x => { x with halting := some 0xFF, stopPend := false })
  else if x.pausePend then seq [setCoreState site 6, setIst (seqPage site) 10,
    setCore site (fun x => { x with pausePend := false })]
  else if slotsOf s site < x.bounds then tryPass site found false
  else setCoreState site 5

/-! ## Starts -/

/-- What every start clears (R132): SEQ_CTRL.arm and SEQ_FLT0, and the model's record of the last run; the cycles of R227 count from it. A
request to stop or to pause that came since the core was armed stands (R136, R142). -/
def clearRun (site : Nat) : Act := look fun s =>
  seq [wrBit (seqPage site + 0x100) 0 false, wr (seqPage site + 0x180) 0,
    setCore site (fun x => { x with faulting := false, slipOwed := false, armKind := 0, startCycle := s.cycle, laneNext := [] })]

/-- A fresh start (R132, R432, R230): a step boundary of the core, at which VU_STEPIDX stays. -/
def startFresh (site : Nat) : Act := look fun s =>
  seq [clearRun site, each (List.range 8) fun n => setLc site n 0 0,
    wr (seqPage site + 0x11C) 0, wr (seqPage site + 0x118) (BitVec.ofNat 32 (fld (rd s (seqPage site + 0x108)) 10 0)),
    wrBit (cubePage site + 0x110) 0 false,
    setCore site (fun x => { x with bounds := 0, rowsInStep := 0, released := false, rowCache := [], halting := none }),
    setCoreState site 3, latchPath site, realign site, wrFld (tlyPage site + 0x240) 7 0 0, boundaryReads site true,
    wrFld (vuPage site + 0x82C) 1 0 0, act (!inEval s site) (herdStep site (fun _ => nop))]

/-- A core runs the training program again after an evaluation slot (R530), from the step boundary at which the slot began: no BEAD row has
been passed since it (R228). -/
def startAfterEval (site : Nat) : Act :=
  seq [clearRun site, wr (seqPage site + 0x11C) 0, wrBit (cubePage site + 0x110) 0 false,
    setCore site (fun x => { x with bounds := 0, rowsInStep := 0, released := false, rowCache := [], halting := none }),
    setCoreState site 3, boundaryReads site true]

/-- A paused core continues at its BEAD row, whose slot the resume bead reopens (R145); one told to stop or to pause since it was armed
does so there (R136, R142). -/
def startPaused (site : Nat) : Act := look fun s =>
  let x := coreX s site
  seq [clearRun site, setCore site (fun y => { y with bounds := slotsOf s site, stopPend := false, pausePend := false }),
    if x.stopPend then seq [setCoreState site 5, setCore site (fun y => { y with halting := some 0xFF })]
    else if x.pausePend then seq [setCoreState site 6, setIst (seqPage site) 10]
    else setCoreState site 5]

/-- A faulted core runs its faulting instruction again and continues (R143): a tile instruction from the row where it stopped, a mover
copy from its first word. -/
def startResumed (site : Nat) : Act := look fun s =>
  seq [clearRun site, setCoreState site 3,
    setCore site (fun x => { x with
      bounds := slotsOf s site,
      issued := x.issued.map (fun i => if i.faulted then { i with faulted := false, started := decide (i.part ≠ 3) } else i) })]

/-- The start of an armed core at its start bead. -/
def startCore (site : Nat) : Act := look fun s =>
  match (coreX s site).armKind with
  | 0 => startFresh site
  | 1 => startPaused site
  | 2 => startResumed site
  | _ => startAfterEval site

/-- SEQ_START_BEAD. -/
def startBead (s : State) (site : Nat) : DWord := rd64 s (seqPage site + 0x110)

/-- A slip (R127, R142, R443). -/
def slip (site : Nat) : Act := look fun s =>
  seq [count (seqPage site) 4 1, coreEvent site (seqPage site) .schedule, one (.side { s.side with slip := true })]

/-- A bead boundary as a core meets it (R126, R127, R132, R137, R142). The bead counter already holds the new bead. A core counts the one
slip of a fault at the first boundary after it, whatever it does by then: it drains or pauses, is in FAULTED, had issued a HALT row (DEDUCED,
log entry 134), or is armed again. A core that waits at its BEAD row leaves BEADWAIT, passing the row or held in RUN by R104. -/
def coreBoundary (site : Nat) : Act := look fun s =>
  let x := coreX s site
  let st := coreState s site
  let runs := decide (st = 3 ∨ st = 4 ∨ st = 5)
  seq [act (!x.uses.isEmpty) (setCore site (fun x => { x with uses := [] })),
    act (x.slipOwed && decide (st ≠ 9)) (seq [slip site, setCore site (fun x => { x with slipOwed := false })]),
    if st = 2 then act (decide (startBead s site = beadNo s)) (startCore site)
    else seq [act runs (setCore site (fun x => { x with bounds := x.bounds + 1 })),
      act (runs && !x.faulting && x.halting.isNone)
        (if st = 5 then seq [setCoreState site 3, tryPass site .good true] else act (decide (slotsOf s site ≤ x.bounds)) (slip site))]]

/-! ## Ends -/

/-- CORE_HALTED (R135, R199): every instruction has retired and every step is accumulated. -/
def actCoreHalted (site : Nat) : Act := look fun s =>
  let x := coreX s site
  match x.halting with
  | none => nop
  | some code => act (x.issued.isEmpty && x.pipe.isEmpty && !x.faulting && decide (coreState s site ≠ 9))
      (seq [wrFld (seqPage site + 0x104) 23 16 code, setCoreState site 7, setIst (seqPage site) 8,
        setCore site (fun x => { x with halting := none, stopPend := false, pausePend := false })])

/-- CORE_FAULTED (R139): only the faulting instruction is left. A HALT row that has issued, or a request to stop, stands for the resume
(R135, R136). -/
def actCoreFaulted (site : Nat) : Act := look fun s =>
  let x := coreX s site
  act (x.faulting && x.issued.all (·.faulted) && x.pipe.isEmpty && decide (coreState s site ≠ 8) && decide (coreState s site ≠ 9))
    (seq [setCoreState site 8, setIst (seqPage site) 9, setCore site (fun x => { x with pausePend := false })])

/-! ## Arming, resuming, stopping, loading -/

/-- The states of R131. -/
def r131 (s : State) (site : Nat) : Bool := [1, 7, 8].contains (coreState s site)

/-- R133: the start bead has come or passed. -/
def beadPassed (s : State) (site : Nat) : Bool := decide ((startBead s site).toNat ≤ (beadNo s).toNat)

/-- The faulting instruction is abandoned (R144), and the run it belonged to, which may have been on the way to its halt; a request to stop
stands (R136; DEDUCED, log entry 21). -/
def abandonFault (site : Nat) : Act :=
  seq [setCore site (fun x => { x with issued := x.issued.filter (fun i => !i.faulted), faulting := false, halting := none }),
    wrBit (corePage site + 0x104) 31 false]

/-- A write of 1 to SEQ_CTRL.arm (R133, R144). -/
def armCore (r : Requester) (site : Nat) : Act := look fun s =>
  let st := coreState s site
  if !([1, 6, 7, 8].contains st) then protocolAt (seqPage site) r
  else if beadPassed s site then coreEvent site (seqPage site) .schedule
  else seq [act (decide (st = 8)) (abandonFault site), wrBit (corePage site + 0x104) 31 false, wrBit (seqPage site + 0x100) 0 true,
    setCoreState site 2, setCore site (fun x => { x with armKind := if st = 6 then 1 else 0 })]

/-- A write of 1 to SEQ_CTRL.resume (R133, R143). -/
def resumeCore (r : Requester) (site : Nat) : Act := look fun s =>
  if !(decide (coreState s site = 8) && bit (rd s (seqPage site + 0x180)) 30) then protocolAt (seqPage site) r
  else if beadPassed s site then coreEvent site (seqPage site) .schedule
  else seq [setCoreState site 2, setCore site (fun x => { x with armKind := 2, faulting := false })]

/-- SEQ_CTRL, BAR0 offset. -/
def seqCtrl (site : Nat) : Nat := seqPage site + 0x100
/-- SEQ_ARM. -/
def actSeqArm (r : Requester) (site : Nat) : Act := guarded r (seqCtrl site) (armCore r site)
/-- SEQ_RESUME. -/
def actSeqResume (r : Requester) (site : Nat) : Act := guarded r (seqCtrl site) (resumeCore r site)
/-- SEQ_STOP. -/
def actSeqStop (r : Requester) (site : Nat) : Act := guarded r (seqCtrl site) (stopCore site)

/-- Word w of the rod table window is written (R131): word w % 4 of row w / 4. -/
def rodWordWrite (r : Requester) (site w : Nat) (v : Word) : Act := look fun s =>
  if r131 s site then rodPut site (w / 4) (putElem 32 (rodGet s site (w / 4)) (w % 4) v.toNat)
  else protocolAt (seqPage site) r

/-- ROD_ROW_WRITE. -/
def actRodRowWrite (r : Requester) (site w : Nat) (v : Word) : Act :=
  guarded r (sitePage site 8 + 4 * w) (rodWordWrite r site w v)

/-- A write of SEQ_RLOAD_CTRL (R131, R134). DESIGN CHOICE (log entry 130): SEQ_RLOAD may be written while a load runs, which then ends with
the values written. -/
def rloadWrite (r : Requester) (site : Nat) (v : Word) : Act := look fun s =>
  let a := seqPage site + 0x1A8
  if !r131 s site || (bit v 31 && decide (2047 < fld v 10 0 + fld v 26 16)) then protocolAt (seqPage site) r
  else seq [maskWrite (.seq site) a v, act (bit v 31) (wrBit a 30 true)]

/-- RLOAD_GO. -/
def actRloadGo (r : Requester) (site : Nat) (v : Word) : Act := guarded r (seqPage site + 0x1A8) (rloadWrite r site v)

/-- Rows of a rod load, until one cannot be read. -/
def rloadRows (s : State) (site a : Nat) : Nat → Nat → List (Nat × List Byte)
  | 0, _ => []
  | n + 1, row => match urRead s (herdNo s site) a 16 with
    | .ok bs => (row, bs) :: rloadRows s site (a + 16) n (row + 1)
    | _ => []

/-- A rod load runs to its end (R134): the rows before the first that cannot be read are written. -/
def runRload (site : Nat) : Act := look fun s =>
  let a := seqPage site + 0x1A8
  let n := fld (rd s a) 26 16 + 1
  let rows := rloadRows s site (rd64 s (seqPage site + 0x1A0)).toNat n (fld (rd s a) 10 0)
  seq [urReadActs (herdNo s site) (rd64 s (seqPage site + 0x1A0)).toNat (16 * n) .mesh,
    each rows fun p => rodPut site p.1 (BitVec.ofNat 128 (leNat p.2)),
    wrBit a 30 false, wrBit a 29 (decide (rows.length < n)), setIst (seqPage site) 11]

/-- RLOAD_DONE: a load that meets a moving page has not ended yet. -/
def actRloadDone (site : Nat) : Act := look fun s =>
  let a := seqPage site + 0x1A8
  let n := fld (rd s a) 26 16 + 1
  let waits := (pageParts (rd64 s (seqPage site + 0x1A0)).toNat (16 * n)).any
    (fun p => decide (judge s (herdNo s site) p.1 false = .waits))
  act (bit (rd s a) 30 && !waits) (runRload site)

/-- A write of CORE_RC_CTRL (R99). -/
def rcCtrlWrite (site : Nat) (v : Word) : Act :=
  seq [maskWrite (.core site) (corePage site + 0x10C) v, act (bit v 0) (setCore site (fun x => { x with rowCache := [] }))]

/-- RC_INVAL. -/
def actRcInval (r : Requester) (site : Nat) (v : Word) : Act := guarded r (corePage site + 0x10C) (rcCtrlWrite site v)

/-- CORE_SCRUB (R96, R97): one word of each bank is read, the scrubber's next; a fenced page's scrubber rests (R41). -/
def actCoreScrub (site : Nat) (found : List Cell) : Act := look fun s =>
  act (coreAvail s site && !fenced s (corePage site) && bit (rd s (corePage site + 0x108)) 0)
    (seq [each (List.range 12) fun b => stFound site (4096 * b + (coreX s site).scrubPos) (found.getD b .good),
      setCore site (fun x => { x with scrubPos := (x.scrubPos + 1) % 4096 })])

/-! ## The deferred queue -/

/-- DWQ_START (R285, R286): the oldest entry is taken, while no rod-table product steps (R198). -/
def actDwqStart (site : Nat) : Act := look fun s =>
  let x := coreX s site
  match x.dwqCur, x.cube, x.dwq with
  | none, none, j :: js =>
    act (dwqMay s site) (seq [dwqLog site (dwqConds s site), setCore site (fun x => { x with dwq := js, dwqCur := some j })])
  | _, _, _ => nop

/-- A step of the queue's entry: its first only while the queue may begin one (R286), else it goes back to the queue's front. -/
def dwqStep (site : Nat) (j : CubeJob) : Act := look fun s =>
  if decide (j.step = 0) && !dwqMay s site then setCore site (fun x => { x with dwqCur := none, dwq := j :: x.dwq })
  else seq [dwqLog site (dwqConds s site), enterStep site j true,
    if j.step + 1 < j.steps then setCore site (fun x => { x with dwqCur := some { j with step := j.step + 1 } })
    else seq [setCore site (fun x => { x with dwqCur := none, dwqHead := (x.dwqHead + 1) % 64,
                                              dwqCarry := x.dwqCarry && !x.dwq.isEmpty }), retire site j.insn]]

/-- CMM_STEP (R194, R195, R198): the rod-table product steps, or the DWQ's when none does; a last step retires its instruction. -/
def actCmmStep (site : Nat) : Act := look fun s =>
  match (coreX s site).cube with
  | some j =>
    seq [enterStep site j false,
      if j.step + 1 < j.steps then setCore site (fun x => { x with cube := some { j with step := j.step + 1 } })
      else seq [setCore site (fun x => { x with cube := x.cubeWait, cubeWait := none }), retire site j.insn]]
  | none => match (coreX s site).dwqCur with
    | some j => dwqStep site j
    | none => nop

end Sys2Proof.Machine
end

