-- ==== Sys2Proof/Machine/Bead.lean ====
section
/-! DEFINITION. The bead (R439 to R449): boundaries, markers, slips and held beads, period changes, the bead exchange (R470 to R473), and the HALT symbols (R474). -/

namespace Sys2Proof.Machine

/-- The MGT_ page of the bead registers. -/
def beadPage : Nat := mgtPage 3
/-- MGT_BEAD_PERIOD.period. -/
def beadPeriod (s : State) : Nat := fld (rd s (beadPage + 0x10C)) 19 0
/-- Whether this device ends its own beads: outside a pod always, in a pod where MGT_BEAD_CTRL.source says so (R439). -/
def isSource (s : State) : Bool := !podEn s || bit (rd s (beadPage + 0x120)) 1
/-- MGT_BEAD_CTRL.run. -/
def beadRuns (s : State) : Bool := bit (rd s (beadPage + 0x120)) 0
/-- Whether the current bead is held (R444). -/
def beadHeld (s : State) : Bool :=
  bit (rd s (beadPage + 0x128)) 1 && decide (rd64 s (beadPage + 0x130) = beadNo s)
/-- MGT_BEAD_CYC.hold. -/
def inHold (s : State) : Bool := bit (rd s (beadPage + 0x108)) 31

/-! ## The exchange of a boundary -/

/-- The slip OR of a boundary is known (R444): a set one holds the bead that the boundary began. -/
def applySlip (v : Bool) : Act := look fun s =>
  seq [wrBit (beadPage + 0x128) 1 v,
    act v (seq [count beadPage 0 1, wr64 (beadPage + 0x130) (beadNo s), setIst beadPage 8])]

/-- The vote OR of a boundary is known (R242, R473): it counts for the herds whose vote closed at that boundary. -/
def applyVotes (v : DWord) : Act := look fun s => each s.side.closing fun h => voteResult h (bit v h)

/-- A RESULT goes to this member's children. -/
def forwardResult (slip missing : Bool) (votes : DWord) : Act := look fun s =>
  each (childPorts s (ownPos s)) fun k =>
    sendSym k 3 ((beadNo s).toNat % 65536) (b2n slip + 2 * b2n missing) votes

/-- The lead sends a JOIN to every other member (R479). -/
def sendJoins : Act := look fun s =>
  each ((List.range 64).filter (fun q => isPresent s q && decide (q ≠ ownPos s))) fun q =>
    sendFrame (ctlFrame s 0x1A 0 q (beadNo s).toNat 0 [])

/-- This member's REPORT is formed (R472): it goes to the parent; the lead forms the RESULT from it (R473). Where the combined REPORT shows
that one was missing, slip and every vote bit 1, the lead sends its JOINs again (log entry 88). -/
def sendReport : Act := look fun s =>
  seq [one (.side { s.side with sent := true }),
    if isRoot s then seq [applySlip s.side.slip, applyVotes s.side.votes, forwardResult s.side.slip s.side.missing s.side.votes,
      act (s.side.slip && decide (s.side.votes = BitVec.allOnes 64)) sendJoins]
    else match parentPort s (ownPos s) with
      | some k => sendSym k 2 ((beadNo s).toNat % 65536) (b2n s.side.slip) s.side.votes
      | none => nop]

/-- The REPORT is sent as soon as every child whose REPORT is expected at this boundary has reported. -/
def tryReport : Act := look fun s =>
  act (!s.side.sent && s.side.kids.all (fun k => bit s.side.reported k)) sendReport

/-! ## The boundary -/

/-- R446: the pending period takes effect at the boundary that begins bead MGT_BEAD_AT. -/
def periodChange : Act := look fun s =>
  let next := rd s (beadPage + 0x110)
  act (bit next 31 && decide (rd64 s (beadPage + 0x118) = beadNo s))
    (seq [wrFld (beadPage + 0x10C) 19 0 (fld next 19 0), wrBit (beadPage + 0x110) 31 false, count beadPage 1 1,
      setIst beadPage 10])

/-- The bead counter takes the next bead (R441), or the lead's where a JOIN waits (R479). The tree of this moment says which children's
REPORTs are expected at the boundary (R480). -/
def nextBead : Act := look fun s =>
  seq [wr (beadPage + 0x108) 0,
    match s.side.joinBead with
    | some b => seq [wr64 beadPage' (b + 1), wrBit (beadPage + 0x128) 0 true]
    | none => wr64 beadPage' (beadNo s + 1),
    one (.side { s.side with slip := false, votes := 0, reported := 0, missing := false, sent := false, closing := [], joinBead := none,
                             kids := childPorts s (ownPos s)
                             missed := s.side.missed.filter (fun m => (childPorts s (ownPos s)).contains m.1) })]
where
  /-- MGT_BEAD_LO. -/
  beadPage' : Nat := beadPage + 0x100

/-- A bead boundary of this device (R439, R440): what begins with the new bead happens in this order. A source outside a pod knows its
slip OR at once. -/
def boundary : Act :=
  seq [nextBead, periodChange, bulkBoundary,
    look (fun s => each (s.herd.flatMap (fun p => p.2.sites)) coreBoundary),
    releaseMulticasts,
    look (fun s => act (bit (rd s (migPage 0 + 0x110)) 2) actEvict),
    look (fun s => seq [act s.side.slip (count beadPage 2 1),
      if podEn s then tryReport else applySlip s.side.slip])]

/-- The source places a boundary and sends the marker (R439, R471). -/
def sourceBoundary : Act :=
  seq [boundary, look fun s => act (podEn s)
    (each (childPorts s (ownPos s)) fun k => sendSym k 1 ((beadNo s).toNat % 65536) 0 0)]

/-- BEAD_BOUNDARY (R439): a source that runs ends its bead; a held bead ends only after its hold period began. -/
def actBeadBoundary : Act := look fun s =>
  act (isSource s && beadRuns s && !(beadHeld s && !inHold s)) sourceBoundary

/-- A write of MGT_BEAD_CTRL: on the source a change of run from 0 to 1 is a boundary (R439). -/
def beadCtrlWrite (v : Word) : Act := look fun s =>
  let was := beadRuns s
  seq [maskWrite (.mgt 3) (beadPage + 0x120) v, look fun s => act (!was && beadRuns s && isSource s) sourceBoundary]
/-- BEAD_RUN_START. -/
def actBeadRunStart (r : Requester) (v : Word) : Act := guarded r (beadPage + 0x120) (beadCtrlWrite v)

/-- BEAD_HOLD_START (R444, R445): the hold period of a held bead begins; bulk windows close and open anew. On a source that does not run,
MGT_BEAD_CYC holds its value (R439). -/
def actBeadHoldStart : Act := look fun s =>
  act (beadHeld s && !inHold s && (!isSource s || beadRuns s)) (seq [wr (beadPage + 0x108) 0x80000000, one (.bulkOpen [])])

/-- A write of MGT_BEAD_NEXT (R447). -/
def beadNextWrite (r : Requester) (v : Word) : Act := look fun s =>
  let p := fld v 19 0
  let bad := decide (p < 1000) || decide (1000000 < p) || decide (p < fld (rd s (beadPage + 0x124)) 19 0) ||
    decide ((rd64 s (beadPage + 0x118)).toNat < (beadNo s).toNat + 2)
  if bit v 31 && bad then protocolAt beadPage r else maskWrite (.mgt 3) (beadPage + 0x110) v
/-- BEAD_NEXT_WRITE. -/
def actBeadNextWrite (r : Requester) (v : Word) : Act := guarded r (beadPage + 0x110) (beadNextWrite r v)

/-! ## Markers -/

/-- A sideband symbol arrives: its port is up and its CRC-16 holds (R468); an auxiliary port takes link symbols alone (R459). -/
def symbolFrom (from_ : SymPort) (body : Act) : Act := look fun s =>
  let port := from_.port.val
  if !linkUp s port || !from_.crcOk then nop
  else if 6 ≤ port then seq [count (bxPage port) 7 1, raise (bxPage port) { cls := .security }]
  else act (podEn s) body

/-- MARK (R440, R442, R449, R471): a member places its boundary by the marker and forwards it. `late`: the marker came more than 20 ns and
no more than 100 ns early or late; `measured`: the period between markers, where it differs from the one the member was told. The wait
for the sideband cell, below 82 ns, is a free value. -/
def actMark (from_ : SymPort) (bead lag : Nat) (late : Bool) (measured : Option Nat) : Act :=
  symbolFrom from_ (look fun s =>
    let port := from_.port.val
    let wait := freeAt s 0 % 82
    let delay := fld (rd s (bxPage port + 0x110)) 15 0
    act (!isSource s && decide (parentPort s (ownPos s) = some port)) (seq [
      takeFree 1,
      each (childPorts s (ownPos s)) fun k => sendSym k 1 bead ((lag + delay + wait) % 65536) 0,
      act late (count beadPage 4 1),
      wrBit (beadPage + 0x128) 2 false, wrFld (beadPage + 0x128) 11 8 0, boundary,
      match measured with
      | some p => look fun s => act (decide (p ≠ beadPeriod s))
          (seq [wrFld (beadPage + 0x10C) 19 0 p, raise beadPage { cls := .protocol }])
      | none => nop]))

/-- The deputy of a pod (R569). -/
def isDeputy (s : State) : Bool :=
  podEn s && decide (((List.range 64).filter (fun p => isPresent s p && decide (p ≠ leadPos s))).head? = some (ownPos s))

/-- Every pod herd fails for one reason. -/
def failPodHerds (reason : Nat) : Act := look fun s => each (s.herd.filter (fun p => p.2.pod)) fun p => failHere p.1 reason

/-! ## The measurements of the SEC_ page (R625) -/

/-- SEC_MEASn holds the current value of a digest; a change after RUN sets BLK_IST.blk bit 8. -/
def putMeasure (n : Nat) (d : List Byte) : Act := look fun s =>
  let a := secPage 1 + 0x100 + 0x40 * (n - 1)
  let new := leWords 12 d
  seq [act (inRun s && decide (new ≠ (List.range 12).map (fun j => rd s (a + 4 * j)))) (setIst (secPage 1) 8),
    each new.zipIdx (fun p => wr (a + 4 * p.2) p.1)]

/-- The digest of measurement 5: straps, pod registers, SNAP_SPARE and the limits of the four host ports. The order and form of the values
are the model's (log entry 43). -/
def podMeasure (s : State) : List Byte :=
  let pod := bxPage 0 + 0x800
  let words := [rd s pod, setBit (podCfg s) 30 (isLead s), rd s (pod + 8), rd s (pod + 12), rd s (snapPage + 0x120)] ++
    (List.range 4).flatMap (fun k => (List.range 5).map (fun j => rd s (hpPage k + 0x110 + 4 * j)))
  sha384 (leBytes 4 (s.straps.hpSplit.toNat + 4 * b2n s.straps.inlineDisN + 8 * s.straps.slotId.toNat) ++
    words.flatMap (fun w => leBytes 4 w.toNat))

/-- Measurement 5 is taken again. -/
def takePodMeasure : Act := look fun s => putMeasure 5 (podMeasure s)

/-- A member is told that position q has failed (R480); n of R556 counts it for the pod herds. -/
def memberGone (q : Nat) : Act := look fun s =>
  seq [act (isPresent s q) (each (s.herd.filter (fun p => p.2.pod)) fun p => look fun s =>
      wrFld (snapReg p.1 + 0x28) 15 0 (min 0xFFFF (fld (rd s (snapReg p.1 + 0x28)) 15 0 + 1))),
    wr64 (bxPage 0 + 0x808) (rd64 s (bxPage 0 + 0x808) &&& ~~~(BitVec.ofNat 64 (2 ^ q))), takePodMeasure]

/-- MGT_EV_QSTAT (R637). -/
def evQstat : Nat := mgtPage 0 + 0x200

/-- Whether a queued message is of a class that a full queue gives up: CORR, PROTOCOL, SCHEDULE, FORMAT or 7. -/
def lowMessage (m : EvMsg) : Bool := m.cls.any (fun c => [0, 3, 4, 5, 7].contains c.toNat)

/-- A PLDM event message waits for the management port (R615, R637): a full queue drops it, or the oldest message of a lower class whose
place it takes. -/
def queueMessage (m : EvMsg) : Act := look fun s =>
  let q := s.evQueue
  let dropOne : Act := wrFld evQstat 31 16 (min 0xFFFF (fld (rd s evQstat) 31 16 + 1))
  if q.length < 64 then seq [one (.evQueue (q ++ [m])), wrFld evQstat 6 0 (q.length + 1), act q.isEmpty (one (.out (.pinAlert true)))]
  else if lowMessage m || !q.any lowMessage then dropOne
  else seq [one (.evQueue (q.takeWhile (fun x => !lowMessage x) ++ m :: (q.dropWhile (fun x => !lowMessage x)).drop 1)), dropOne]

/-- A pod event of R636: its kind and data. -/
def tellFleet (kind : Nat) (data : List Byte) : Act := queueMessage ⟨0xF1, none, BitVec.ofNat 8 kind :: data⟩

/-- R569: the deputy takes the bead source, tells every member that the lead is gone, fails the pod herds and reports. -/
def deputyTakes : Act := look fun s =>
  let lead := leadPos s
  seq [wrBit (beadPage + 0x120) 1 true, wrBit (beadPage + 0x120) 0 true,
    each ((List.range 64).filter (fun p => isPresent s p && decide (p ≠ lead) && decide (p ≠ ownPos s))) fun p =>
      sendFrame (ctlFrame s 0x1B 0 p lead 0 []),
    memberGone lead, failPodHerds 4, tellFleet 5 [BitVec.ofNat 8 lead]]

/-- Whether this member's tree path to the lead is down (R569): its own link to the parent is, or one farther on, which no frame tells it and
is a free value (log entry 153). -/
def pathDown (s : State) : Bool :=
  !((parentPort s (ownPos s)).any (linkUp s)) || (decide (1 < podDepth s (ownPos s)) && decide (freeAt s 0 % 2 = 1))

/-- MARKER_LOST (R442, R569): a member with no marker places the boundary itself. -/
def actMarkerLost : Act := look fun s =>
  act (podEn s && !isSource s) (seq [boundary, wrBit (beadPage + 0x128) 2 true,
    wrFld (beadPage + 0x128) 11 8 (min 15 (fld (rd s (beadPage + 0x128)) 11 8 + 1)), count beadPage 3 1,
    setIst beadPage 9, raise beadPage { cls := .schedule },
    look fun s =>
      let run := fld (rd s (beadPage + 0x128)) 11 8
      seq [act (decide (run = 4)) (raise beadPage { cls := .uncorrFatal }),
        act (decide (2 ≤ run) && isDeputy s) (seq [takeFree 1, act (pathDown s) deputyTakes])]])

/-! ## Reports and results -/

/-- REPORT (R472): a child's report is combined with this member's. -/
def actReport (from_ : SymPort) (bead : Nat) (slip : Bool) (votes : DWord) : Act :=
  symbolFrom from_ (look fun s =>
    let port := from_.port.val
    act (s.side.kids.contains port && !s.side.sent && !bit s.side.reported port &&
        decide (bead = (beadNo s).toNat % 65536))
      (seq [one (.side { s.side with
              slip := s.side.slip || slip, votes := s.side.votes ||| votes,
              reported := setBit s.side.reported port true, missed := mPut s.side.missed port none }), tryReport]))

/-- REPORT_DEADLINE (R472): children that have not reported count as slip = 1 and every vote bit 1. -/
def actReportDeadline : Act := look fun s =>
  let late := s.side.kids.filter (fun k => !bit s.side.reported k)
  act (podEn s && !s.side.sent && !late.isEmpty)
    (seq [one (.side { s.side with
            slip := true, votes := BitVec.allOnes 64, missing := true
            missed := late.foldl (fun m k => mPut m k (some ((mGet m k).getD 0 + 1))) s.side.missed }), sendReport])

/-- RESULT (R473): the member applies the slip OR and the vote OR and forwards both. -/
def actResult (from_ : SymPort) (bead : Nat) (slip missing : Bool) (votes : DWord) : Act :=
  symbolFrom from_ (look fun s =>
    act (!isRoot s && decide (parentPort s (ownPos s) = some from_.port.val) && decide (bead = (beadNo s).toNat % 65536))
      (seq [applySlip slip, applyVotes votes, forwardResult slip missing votes]))

/-! ## HALT (R474) -/

/-- A HALT symbol arrives: one for another member goes on its way; `eff` happens at its target, and for actions that the lead alone may
order only when its origin is the lead. A symbol with all = 1 takes effect once it comes from the lead down the tree. -/
def haltSymbol (h : HaltSym) (action : Nat) (leadOnly : Bool) (eff : Act) : Act :=
  symbolFrom ⟨h.port, h.crcOk⟩ (look fun s =>
    let down := decide (parentPort s (ownPos s) = some h.port.val)
    let allowed := !leadOnly || decide (h.origin.toNat = leadPos s)
    if h.all then
      if isRoot s then seq [act allowed eff, sendHalt h action]
      else if down then seq [act allowed eff, each (childPorts s (ownPos s)) fun k => sendSym k 4 0 0 (haltData h action)]
      else sendHalt h action
    else if h.target.toNat = ownPos s then act allowed eff
    else sendHalt h action)

/-- Every core of pod herd h pauses (R142, R481). -/
def pausePodHerd (h : Nat) : Act := look fun s => act ((herdOf s h).any (·.pod)) (pauseHerd h 1024)
/-- HALT_PAUSE. -/
def actHaltPause (h : HaltSym) : Act := haltSymbol h 1 false (pausePodHerd h.herd.val)
/-- Pod herd h fails at the fleet's order (R524, reason 6). -/
def failPodHerd (h : Nat) : Act := look fun s => act ((herdOf s h).any (·.pod)) (failHere h 6)
/-- HALT_FAIL. -/
def actHaltFail (h : HaltSym) : Act := haltSymbol h 2 true (failPodHerd h.herd.val)
/-- The frames of port n from lseq on are sent again (R466), LVC1–LVC3 frames not during a link stop (R474): the rest follows when it ends. -/
def resendFrom (n lseq : Nat) : Act := look fun s =>
  let fs := (bxOf s n).replay.dropWhile (fun f => decide (f.lseq ≠ lseq))
  let now := fs.takeWhile (fun f => decide (f.lvc = 0) || !s.side.linkStop)
  seq [each now (putFrame n), setBx n (fun x => { x with resend := (fs.drop now.length).head?.map (·.lseq) })]

/-- The link stop begins or ends (R474 actions 3 and 4); replays that it broke off go on, and frames that waited leave. -/
def setLinkStop (b : Bool) : Act := look fun s =>
  seq [one (.side { s.side with linkStop := b }),
    act (!b) (each (List.range 8) fun n => seq [look (fun s => match (bxOf s n).resend with
      | some l => resendFrom n l
      | none => nop), flushFrames n])]
/-- HALT_LINK_STOP. -/
def actHaltLinkStop (h : HaltSym) : Act := haltSymbol h 3 true (setLinkStop true)
/-- HALT_LINK_RESUME. -/
def actHaltLinkResume (h : HaltSym) : Act := haltSymbol h 4 true (setLinkStop false)

end Sys2Proof.Machine
end

