-- ==== Sys2Proof/Machine/Link.lean ====
section
/-! DEFINITION. Beynex links and frames (R452 to R467, R626): training, acknowledgment, replay, credits, the arrival and forwarding of frames, control frames of the bead, and cable identity. -/

namespace Sys2Proof.Machine

/-! ## Collectives a link carries (R467) -/

/-- Whether a collective's frames use torus port p: its rings' axis, or the way to its root or targets. -/
def usesPort (s : State) (c : Collective) (p : Nat) : Bool :=
  if cKind c < 5 then (cAxes c).contains (p / 2) && decide (1 < axisSize s (p / 2))
  else if cKind c = 5 then decide (podPort s (ownPos s) (cRoot c) = some p)
  else (cTargets c).any (fun t => decide (podPort s (ownPos s) t = some p))

/-- Whether a collective that has formed all its frames still has some at port p, waiting or unacknowledged (R466). -/
def sendsOn (s : State) (c : Collective) (p : Nat) : Bool :=
  decide (c.status = 0) && ((bxOf s p).waiting ++ (bxOf s p).replay).any (fun f =>
    decide (f.type.toNat < 0x06) && decide (f.herd = c.herd) && decide (f.cid = cCid c) && decide (f.src = ownPos s))

/-- Whether frames from position src reach this member over torus port p: the last hop of their route (R463), at most `fuel` hops. -/
def comesOver (s : State) (p : Nat) : Nat → Nat → Bool
  | 0, _ => false
  | fuel + 1, q => match podPort s q (ownPos s) with
    | none => false
    | some k =>
      let r := torusNext s q k
      if r = ownPos s then decide (p = k + 1 - 2 * (k % 2)) else comesOver s p fuel r

/-- Every collective and multicast that has frames on port p ends with status 0x87; what a target holds of one whose frames come over it is
dropped. -/
def endOnPort (p : Nat) : Act := look fun s =>
  seq [one (.coll (s.coll.map (fun c =>
      if c.started && (!c.finished || sendsOn s c p) && usesPort s c p then { c with finished := true, status := 0x87 } else c))),
    each (s.mc.filter (fun g => decide (p < 6) && comesOver s p 8 g.src)) fun g => dropRequest g.herd g.src g.cid]

/-! ## States of a port -/

/-- BX_LINK_CTRL.train. -/
def trains (s : State) (p : Nat) : Bool := bit (rd s (bxPage p + 0x100)) 0
/-- BX_LINK_STAT takes a state, and the lanes that hold lock. -/
def setLink (p st lanes : Nat) : Act := wr (bxPage p + 0x104) (BitVec.ofNat 32 (256 * lanes + st))

/-- Whether a port is one of a torus axis of size 1, which stays down (R456). -/
def unconnected (s : State) (p : Nat) : Bool := podEn s && decide (p < 6) && decide (axisSize s (p / 2) = 1)

/-- Sixteen characters, the first in [7:0] of word 0. -/
def putChars (a : Nat) (cs : List Byte) : Act :=
  each (List.range 4) fun k => wr (a + 4 * k) (leWord (((cs ++ List.replicate 16 0).drop (4 * k)).take 4))

/-- Port p reads the management memory of its cable (R499, R500): the write of the Page Select byte that selects page 00h, then the items of
the table. A read that fails leaves read_ok at 0. DESIGN CHOICE (log entry 146): the memory reads as the cable gave it when it was inserted. -/
def readCable (p : Nat) : Act := look fun s =>
  match mGet s.cable p with
  | none => nop
  | some c => seq [one (.out (.pageSelect p 0)),
      if c.readOk then seq [
        wr (bxPage p + 0x140) (BitVec.ofNat 32 (0xC0000000 + 65536 * c.length.toNat + 256 * c.media.toNat + c.ident.toNat)),
        putChars (bxPage p + 0x144) c.vendor, putChars (bxPage p + 0x154) c.part, putChars (bxPage p + 0x164) c.serial]
      else wr (bxPage p + 0x140) 0x80000000]

/-- Port p starts to train: it reads the cable's memory (R500). -/
def startTraining (p : Nat) : Act := seq [setLink p 1 0, readCable p]

/-- Whether every torus port whose partner is a present member is up. -/
def portsUp (s : State) : Bool :=
  (List.range 6).all fun k => unconnected s k || !isPresent s (torusNext s (ownPos s) k) || linkUp s k

/-- What this side announces in training (R458): a valid bit, its position, and its pod identifier. -/
def announcement (s : State) : Word :=
  BitVec.ofNat 32 (0x80000000 * b2n (podEn s) + 65536 * ownPos s + fld (rd s (bxPage 0 + 0x800)) 15 0)

/-- LINK_UP (R458): training ends with the exchange of identities. A torus port comes up only when the partner announces what BX_NBR
expects. DESIGN CHOICE (log entry 88): the lead, which cannot see the other members' ports, sends its JOINs (R479) as the last of its own
connected torus ports comes up, and again with the RESULT of a boundary at which a REPORT was missing. -/
def actLinkUp (p : Nat) (partner : Word) (delay : BitVec 16) : Act := look fun s =>
  let w := partner &&& 0x803FFFFF
  let nbr := rd s (bxPage p + 0x108)
  if !trains s p || linkUp s p || unconnected s p then nop
  else seq [setLink p 2 0xFF, one (.out (.announce p (announcement s))), wr (bxPage p + 0x10C) w, wrFld (bxPage p + 0x110) 15 0 delay.toNat,
    if p < 6 && !(bit nbr 31 && decide (nbr = w)) then seq [setLink p 4 0xFF, setIst (bxPage p) 10, count (bxPage p) 7 1,
      raise (bxPage p) { cls := .security }]
    else seq [setLink p 3 0xFF, one (.bx p BxPort.clear), setIst (bxPage p) 8,
      look fun s => act (decide (p < 6) && isLead s && portsUp s) sendJoins]]

/-- A port goes down (R467): what it holds is discarded and the collectives on it end; it trains again while train is 1. -/
def portDown (p : Nat) : Act := look fun s =>
  seq [endOnPort p, if trains s p then startTraining p else setLink p 0 0, one (.bx p BxPort.clear), count (bxPage p) 6 1, setIst (bxPage p) 9,
    raise (bxPage p) { cls := .uncorrContained }]

/-- LINK_DOWN. -/
def actLinkDown (p : Nat) : Act := look fun s => act (linkUp s p) (portDown p)

/-- A write of BX_LINK_CTRL: train starts training; retrain takes the link down first. -/
def linkCtrlWrite (p : Nat) (v : Word) : Act := look fun s =>
  seq [maskWrite (.bx p) (bxPage p + 0x100) v,
    act (bit v 1 && linkUp s p) (portDown p),
    look fun s => act ((bit v 1 || trains s p) && !linkUp s p && !unconnected s p) (startTraining p)]

/-- The ports of the torus axes of size 1 stay down once the device is a pod member (R456). -/
def dropUnconnected : Act := look fun s =>
  each ((List.range 6).filter (unconnected s)) fun p => look fun s =>
    if linkUp s p then seq [portDown p, setLink p 0 0] else act (decide (linkState s p ≠ 0)) (setLink p 0 0)
/-- LINK_RETRAIN. -/
def actLinkRetrain (r : Requester) (p : Nat) (v : Word) : Act := guarded r (bxPage p + 0x100) (linkCtrlWrite p v)

/-! ## Link symbols (R462, R466) -/

/-- A link symbol arrives: its port is up and its CRC-16 holds (R468). -/
def linkSym (from_ : SymPort) (body : Act) : Act := look fun s => act (linkUp s from_.port.val && from_.crcOk) body

/-- LINK_ACK: the frames up to lseq leave the replay buffer, and frames that waited for its room leave. -/
def actLinkAck (from_ : SymPort) (lseq : BitVec 16) : Act := linkSym from_ <| look fun s =>
  let p := from_.port.val
  let r := (bxOf s p).replay
  act (r.any (fun f => decide (f.lseq = lseq.toNat)))
    (seq [setBx p (fun x => { x with replay := (r.dropWhile (fun f => decide (f.lseq ≠ lseq.toNat))).drop 1 }), flushFrames p])

/-- LINK_REPLAY: the frames from lseq on are sent again. -/
def actLinkReplay (from_ : SymPort) (lseq : BitVec 16) : Act := linkSym from_ (resendFrom from_.port.val lseq.toNat)

/-- LINK_CREDIT: credits return, and frames that waited leave. No pool exceeds its buffer. -/
def actLinkCredit (from_ : SymPort) (credits : List Nat) : Act :=
  let p := from_.port.val
  linkSym from_ (seq [
    setBx p (fun x => { x with credits := x.credits.zipIdx.map (fun q => min (q.1 + credits.getD q.2 0) (BxPort.clear.credits.getD q.2 0)) }),
    flushFrames p])

/-! ## Frames arrive -/

/-- The channel of a frame type (R461, R551). -/
def lvcOf (type : Nat) : Nat :=
  if type = 0x01 then 1
  else if type < 0x10 then 3
  else if type < 0x20 then 0
  else if type = 0x21 ∨ type = 0x23 ∨ type = 0x25 ∨ type = 0x26 ∨ type = 0x31 ∨ type = 0x33 then 2
  else 1

/-- Whether a frame type is defined (R461, R551). -/
def typeKnown (type : Nat) : Bool :=
  [0x01, 0x04, 0x05, 0x06].contains type || (decide (0x10 ≤ type) && decide (type ≤ 0x1B)) ||
    [0x20, 0x21, 0x22, 0x23, 0x24, 0x25, 0x26, 0x28, 0x29, 0x2A, 0x2B].contains type ||
    (decide (0x30 ≤ type) && decide (type ≤ 0x35))

/-- A frame as its arrival gave it. -/
def frameOf (f : FrameHdr) (type : Nat) (data : List Byte) : Frame :=
  ⟨BitVec.ofNat 8 type, lvcOf type, f.herd.val, f.src.toNat, f.dst.toNat, f.dl, f.poison, f.lseq.toNat, f.cid.toNat, f.kind.toNat,
    f.pass.toNat, f.offset.toNat, f.addr.toNat, f.count.toNat, data⟩

/-- A frame or symbol that its port does not accept (R458, R459, R626). -/
def refuseFrame (p : Nat) : Act := seq [count (bxPage p) 7 1, raise (bxPage p) { cls := .security }]

/-- The data field of a credit symbol that returns n bytes to channel lvc: 16 bits for each channel (log entry 35). -/
def creditData (lvc n : Nat) : DWord := BitVec.ofNat 64 (n * 2 ^ (16 * lvc))

/-- A frame is discarded and asked for again (R466): one replay request stands for it and every later frame, until one arrives in order. -/
def askAgain (p : Nat) : Act := look fun s =>
  act (!(bxOf s p).asked) (seq [setBx p (fun x => { x with asked := true }), sendSym p 5 0 1 (BitVec.ofNat 64 (bxOf s p).rxSeq)])

/-- A frame arrives on port p with lseq (R466): one whose crc fails or that is out of order is asked for again; one in order is
acknowledged and lies in its channel's receive buffer, from which `body` takes it or not. -/
def arrived (p lseq : Nat) (crcOk : Bool) (body : Act) : Act := look fun s =>
  if !linkUp s p then nop
  else if !crcOk || decide (lseq ≠ (bxOf s p).rxSeq) then askAgain p
  else seq [setBx p (fun x => { x with rxSeq := (x.rxSeq + 1) % 65536, asked := false }), count (bxPage p) 1 1,
    sendSym p 5 0 0 (BitVec.ofNat 64 lseq), body]

/-- A frame with `len` payload bytes leaves its receive buffer: the credit for its bytes returns (R462). -/
def returnCredit (p type len : Nat) : Act := sendSym p 5 0 2 (creditData (lvcOf type) (32 + len))

/-- A frame with `len` payload bytes arrives and is taken at once. -/
def received (p lseq : Nat) (crcOk : Bool) (type len : Nat) (body : Act) : Act :=
  arrived p lseq crcOk (seq [returnCredit p type len, body])

/-- A frame that reaches an auxiliary port where it is not accepted (R459). -/
def refuseAux (f : FrameHdr) (type len : Nat) : Act := received f.port.val f.lseq.toNat f.crcOk type len (refuseFrame f.port.val)

/-- A frame of a torus port for this member: `ok` is R626's condition on it beyond its class. -/
def rxTorus (f : FrameHdr) (type len : Nat) (ok : State → Bool) (body : Act) : Act := look fun s =>
  let p := f.port.val
  if 6 ≤ p then refuseAux f type len
  else if !podEn s || decide (f.dst.toNat ≠ ownPos s) then nop
  else received p f.lseq.toNat f.crcOk type len (if ok s then body else refuseFrame p)

/-! ## Receive buffers (R462) -/

/-- The payload bytes of a frame in a receive buffer. -/
def heldLen (x : HeldFrame) : Nat := match x.cmd with
  | some c => 80 + 16 * c.entries.length
  | none => x.data.length

/-- Whether two frames keep their order: the same channel, herd and collective. -/
def sameFlow (x y : HeldFrame) : Bool :=
  decide (lvcOf x.type = lvcOf y.type) && decide (x.hdr.herd = y.hdr.herd) && decide (x.hdr.cid = y.hdr.cid)

/-- A frame of a torus port that may have to lie in its receive buffer: while `waits` says so, or behind an earlier frame of its flow that
lies there. DESIGN CHOICE (log entry 145): which frames pass a waiting one. -/
def rxWaiting (x : HeldFrame) (ok : State → Bool) (waits : State → HeldFrame → Bool) (take : HeldFrame → Act) : Act := look fun s =>
  let f := x.hdr
  let p := f.port.val
  if 6 ≤ p then refuseAux f x.type (heldLen x)
  else if !podEn s || (decide (x.type ≠ 0x06) && decide (f.dst.toNat ≠ ownPos s)) then nop
  else if !ok s then received p f.lseq.toNat f.crcOk x.type (heldLen x) (refuseFrame p)
  else if waits s x || (bxOf s p).held.any (sameFlow x) then
    arrived p f.lseq.toNat f.crcOk (setBx p (fun b => { b with held := b.held ++ [x] }))
  else received p f.lseq.toNat f.crcOk x.type (heldLen x) (take x)

/-- The first frame of a receive buffer that can be taken: none of its flow lies before it. -/
def nextHeld (waits : HeldFrame → Bool) : List HeldFrame → List HeldFrame → Option HeldFrame
  | _, [] => none
  | before, x :: xs => if waits x || before.any (sameFlow x) then nextHeld waits (before ++ [x]) xs else some x

/-- The frames in the receive buffers of port p that can be taken are taken; at most `fuel`. -/
def serveHeld (p : Nat) (waits : State → HeldFrame → Bool) (take : HeldFrame → Act) : Nat → Act
  | 0 => nop
  | fuel + 1 => look fun s => match nextHeld (waits s) [] (bxOf s p).held with
    | none => nop
    | some x => seq [setBx p (fun b => { b with held := b.held.erase x }), returnCredit p x.type (heldLen x), take x,
        serveHeld p waits take fuel]

/-- The frames in the receive buffers of the torus ports that can be taken are taken. -/
def serveAll (waits : State → HeldFrame → Bool) (take : HeldFrame → Act) : Act :=
  each (List.range 6) fun p => look fun s => serveHeld p waits take (bxOf s p).held.length

/-- A frame comes from the lead. -/
def fromLead (f : FrameHdr) (s : State) : Bool := decide (f.src.toNat = leadPos s)
/-- A class B frame comes from the lead or the deputy (R626). -/
def fromSource (f : FrameHdr) (s : State) : Bool :=
  fromLead f s || decide (((List.range 64).find? (fun p => isPresent s p && decide (p ≠ leadPos s))) = some f.src.toNat)

/-- FRAME_FORWARD (R463, R464): a frame for another member leaves on its way, setting dl where it crosses the dateline. A frame of a
reserved type is discarded and asked for again (R461); an auxiliary port refuses one of no class S or P (R459). -/
def actFrameForward (f : FrameHdr) (type : BitVec 8) (data : List Byte) : Act := look fun s =>
  let p := f.port.val
  if !typeKnown type.toNat then act (linkUp s p) (askAgain p)
  else if 6 ≤ p then act (decide (type.toNat < 0x20)) (refuseAux f type.toNat data.length)
  else if !podEn s || decide (f.dst.toNat = ownPos s) ||
      (decide (type = 0x06) && s.mc.any (isRequest f.herd.val f.src.toNat f.cid.toNat)) then nop
  else received p f.lseq.toNat f.crcOk type.toNat data.length (look fun s =>
    match podPort s (ownPos s) f.dst.toNat with
    | some k => let g := frameOf f type.toNat data
                giveFrame k { g with dl := g.dl || crossesDateline s (ownPos s) k }
    | none => nop)

/-! ## Control frames -/

/-- FLAG (R482): a tally flag is set or cleared in every core of the pod herd. DEDUCED (log entry 31): a member's trip reaches the lead
as a FLAG too, and the lead sends it on. -/
def actFlag (f : FrameHdr) (index : BitVec 8) (set : Bool) : Act :=
  rxTorus f 0x15 0 (fun s => fromLead f s || isLead s) (look fun s =>
    let h := f.herd.val
    act ((herdOf s h).any (·.pod)) (seq [flagAll (.bx f.port.val) h index.toNat (if set then 0 else 1),
      act (isLead s) (each ((podOthers s h).filter (fun p => decide (p ≠ f.src.toNat))) fun p =>
        sendFrame (ctlFrame s 0x15 h p (index.toNat + 256 * b2n set) 0 []))]))

/-- PERIOD (R449): the member's ring controller writes MGT_BEAD_AT, then MGT_BEAD_NEXT, under R447. -/
def takePeriod (value : Nat) (atBead : DWord) : Act :=
  seq [wr64 (beadPage + 0x118) atBead, beadNextWrite .ringCtl (BitVec.ofNat 32 (0x80000000 + value % 1048576))]
/-- PERIOD. -/
def actPeriod (f : FrameHdr) (value : Nat) (atBead : DWord) : Act := rxTorus f 0x19 12 (fromSource f) (takePeriod value atBead)

/-- JOIN (R479): a member whose connected torus ports are all up takes the lead's bead counter at the next boundary. -/
def actJoin (f : FrameHdr) (bead : DWord) : Act :=
  rxTorus f 0x1A 0 (fromSource f) (look fun s => act (portsUp s) (one (.side { s.side with joinBead := some bead })))

/-- MDOWN (R480): the failed member is no longer present. -/
def actMdown (f : FrameHdr) (pos : BitVec 6) : Act :=
  rxTorus f 0x1B 0 (fromSource f) (memberGone pos.toNat)

/-! ## Cable identity (R499, R500) -/

/-- CABLE_INSERT: the device reads the memory of the cable. -/
def actCableInsert (p : Nat) (ident media length : Byte) (readOk : Bool) (vendor part serial : List Byte) : Act :=
  seq [setIst (bxPage p) 11, one (.cable p (some ⟨ident, media, length, readOk, vendor, part, serial⟩)), readCable p]

/-- CABLE_REMOVE. -/
def actCableRemove (p : Nat) : Act := seq [setIst (bxPage p) 11, one (.cable p none), wr (bxPage p + 0x140) 0]

end Sys2Proof.Machine
end

