-- ==== Sys2Proof/Machine/Collective.lean ====
section
/-! DEFINITION. Collectives, sends and multicasts (R483 to R497): rings, passes, reduction and gathering, frames, completion. -/

namespace Sys2Proof.Machine

/-! ## Memory in the collective's column (R491, R492) -/

/-- One page's judgement for a collective's access: a status where it is refused. -/
def collJudge (s : State) (h p : Nat) (write : Bool) : Eng :=
  match judge s h p write with
  | .waits => .wait
  | .frame _ => .ok []
  | .hidden | .readOnly => .bad 0x80
  | _ => .bad 0x84

/-- A collective's read of n bytes at unified-range address a. -/
def collRead (s : State) (h a n : Nat) : Eng :=
  (pageParts a n).foldl (fun acc p => match acc with
    | .ok bs => match collJudge s h p.1 false, engPart s h none p with
      | .ok _, .ok cs => .ok (bs ++ cs)
      | .ok _, r => r
      | r, _ => r
    | r => r) (.ok [])

/-- A collective's write of n bytes, judged. -/
def collWriteJudge (s : State) (h a n : Nat) : Eng :=
  (pageParts a n).foldl (fun acc p => match acc with
    | .ok _ => collJudge s h p.1 true
    | r => r) (.ok [])

/-! ## Shape (R485, R486) -/

/-- src and dst. -/
def cSrc (c : Collective) : Nat := (joinWords (cW c 4) (cW c 5)).toNat
/-- dst. -/
def cDst (c : Collective) : Nat := (joinWords (cW c 6) (cW c 7)).toNat
/-- count: elements or bytes. -/
def cCount (c : Collective) : Nat := (cW c 3).toNat
/-- wire: BF16 on the wire. -/
def cWire (c : Collective) : Bool := bit (cW c 1) 7
/-- The E of the first pass: the elements, or the trained ones (R490). -/
def cLen (c : Collective) : Nat := match c.elems with
  | some l => l.length
  | none => cCount c
/-- The place in the tensor of element j. -/
def cPlace (c : Collective) (j : Nat) : Nat := match c.elems with
  | some l => l.getD j 0
  | none => j

/-- The passes: whether each gathers, and the index of its axis among the named ones (R485). -/
def cPasses (c : Collective) : List (Bool × Nat) :=
  let idx := List.range (cAxes c).length
  match cKind c with
  | 0 | 4 => idx.map (fun i => (false, i))
  | 1 => idx.map (fun i => (false, i)) ++ idx.reverse.map (fun i => (true, i))
  | 2 | 3 => idx.reverse.map (fun i => (true, i))
  | _ => []

/-- Axis i of a collective, and its ring's size. -/
def cAxis (c : Collective) (i : Nat) : Nat := (cAxes c).getD i 0
/-- n of the ring along axis i. -/
def cRing (s : State) (c : Collective) (i : Nat) : Nat := axisSize s (cAxis c i)
/-- This member's coordinate in the ring along axis i. -/
def cOwn (s : State) (c : Collective) (i : Nat) : Nat := coord (ownPos s) (cAxis c i)

/-- Shard q of the elements [r.1, r.2) in a ring of n. DEDUCED (log entry 36): in a broadcast or a reduction to the root, the root's
coordinate owns every element. -/
def shardIn (c : Collective) (i n : Nat) (r : Nat × Nat) (q : Nat) : Nat × Nat :=
  if cKind c < 3 then (r.1 + q * (r.2 - r.1) / n, r.1 + (q + 1) * (r.2 - r.1) / n)
  else if q = coord (cRoot c) (cAxis c i) then r else (r.1, r.1)

/-- The elements that take part in the pass along axis i at this member, as a range of indexes. -/
def regionAt (s : State) (c : Collective) : Nat → Nat × Nat
  | 0 => (0, cLen c)
  | i + 1 => shardIn c i (cRing s c i) (regionAt s c i) (cOwn s c i)

/-- Shard q of the pass along axis i. -/
def shardOf (s : State) (c : Collective) (i q : Nat) : Nat × Nat := shardIn c i (cRing s c i) (regionAt s c i) q

/-- The lower half of a shard, which travels in the + direction, or the upper half. -/
def halfOf (r : Nat × Nat) (plus : Bool) : Nat × Nat :=
  let m := r.1 + (r.2 - r.1) / 2
  if plus then (r.1, m) else (m, r.2)

/-- The number of indexes in a range. -/
def rangeLen (r : Nat × Nat) : Nat := r.2 - r.1

/-- The neighbour's coordinate in a ring of n, one step on. -/
def stepIn (n q : Nat) (plus : Bool) : Nat := if plus then (q + 1) % n else (q + n - 1) % n

/-- How many elements arrive at this member in a pass. -/
def expected (s : State) (c : Collective) (p : Bool × Nat) : Nat :=
  let n := cRing s c p.2
  let q0 := cOwn s c p.2
  if n ≤ 1 then 0
  else (List.range n).foldl (fun a q =>
    [true, false].foldl (fun a plus =>
      let start := if p.1 then q else stepIn n q plus
      if start = q0 then a else a + rangeLen (halfOf (shardOf s c p.2 q) plus)) a) 0

/-- The shard and half that hold index j in a pass. -/
def pieceOf (s : State) (c : Collective) (i j : Nat) : Nat × Bool :=
  ((List.range (cRing s c i)).findSome? (fun q =>
    let r := shardOf s c i q
    if r.1 ≤ j ∧ j < r.2 then some (q, decide (j < (halfOf r true).2)) else none)).getD (0, true)

/-! ## Values on the wire (R487, R488) -/

/-- The value of element j as it is sent, after `a` additions in the pass. -/
def onWire (s : State) (c : Collective) (j pass a : Nat) (x : Word) : Word :=
  if cWire c then
    let key := (rd64 s (uePage 0 + 0x800 + 8 * c.herd)).toNat ^^^ (cCid c * 2 ^ 32) ^^^ (cW c 2).toNat
    widen 1 (convHalf 7 (.stochastic (mix key (j * 256 + 32 * pass + a))) x).1
  else x

/-- An element's bytes on the wire. -/
def wireBytes (c : Collective) (x : Word) : List Byte :=
  if cWire c then leBytes 2 (x.toNat / 65536) else leBytes 4 x.toNat

/-- The elements that a payload carries. -/
def wireWords (c : Collective) (bs : List Byte) : List Word :=
  if cWire c then (List.range (bs.length / 2)).map (fun k => widen 1 (leNat ((bs.drop (2 * k)).take 2)))
  else leWords (bs.length / 4) bs

/-- The value that this member holds of element j. -/
def cVal (c : Collective) (j : Nat) : Word := mGetD c.vals j 0

/-- The values set at indexes from j on. -/
def putVals (c : Collective) (j : Nat) (xs : List Word) : Collective :=
  { c with vals := xs.zipIdx.foldl (fun m q => mPut m (j + q.2) (some q.1)) c.vals }

/-! ## Passes -/

/-- A frame of a collective to the next position of its ring. -/
def ringFrame (s : State) (c : Collective) (i : Nat) (plus gather : Bool) (j count : Nat) (xs : List Word) : Nat × Frame :=
  let k := 2 * cAxis c i + b2n (!plus)
  (k, ⟨if gather then 0x05 else 0x04, 3, c.herd, ownPos s, torusNext s (ownPos s) k, crossesDateline s (ownPos s) k, false, 0,
    cCid c, cKind c, c.pass, j - (regionAt s c i).1, (cW c 2).toNat, count, xs.flatMap (wireBytes c)⟩)

/-- The elements of one frame: at most 4,096 bytes. -/
def perFrame (c : Collective) : Nat := if cWire c then 2048 else 1024

/-- A range in frames. -/
def chunks (r : Nat × Nat) (m : Nat) : List (Nat × Nat) :=
  (List.range (ceilDiv (r.2 - r.1) m)).map fun k => (r.1 + k * m, min r.2 (r.1 + (k + 1) * m))

/-- The frames with which this member begins a pass: of a reduction, the halves that start here; of a gather, its own shard. -/
def firstFrames (s : State) (c : Collective) (p : Bool × Nat) : List (Nat × Frame) :=
  let n := cRing s c p.2
  if n ≤ 1 then [] else
  [true, false].flatMap fun plus =>
    let q := if p.1 then cOwn s c p.2 else stepIn n (cOwn s c p.2) (!plus)
    (chunks (halfOf (shardOf s c p.2 q) plus) (perFrame c)).zipIdx.map fun r =>
      let js := (List.range (rangeLen r.1)).map (r.1.1 + ·)
      ringFrame s c p.2 plus p.1 r.1.1 (if r.2 = 0 then rangeLen (regionAt s c p.2) else 0)
        (js.map (fun j => onWire s c j c.pass (if p.1 then 31 else 0) (cVal c j)))

/-- The values that a gather's own shard takes once sent (R487). -/
def gatherRound (s : State) (c : Collective) (p : Bool × Nat) : Collective :=
  let r := shardOf s c p.2 (cOwn s c p.2)
  if p.1 && decide (1 < cRing s c p.2) && cWire c then
    putVals c r.1 ((List.range (rangeLen r)).map (fun k => onWire s c (r.1 + k) c.pass 31 (cVal c (r.1 + k))))
  else c

/-- The passes go on as far as they can: a pass begins when the one before has ended here, and the collective is done after the last. -/
def runPasses (h cid : Nat) : Nat → Act
  | 0 => nop
  | fuel + 1 => look fun s =>
    match collOf s h cid with
    | none => nop
    | some c => match (cPasses c)[c.pass]? with
      | none => setColl c { c with finished := true, status := 0 }
      | some p =>
        if !c.passOn then
          let fs := firstFrames s c p
          let d := gatherRound s c p
          let n := fs.foldl (fun a f => a + (wireWords c f.2.data).length) 0
          seq [each fs fun f => giveFrame f.1 f.2, setColl c { d with passOn := true, got := 0, sent := c.sent + n },
            runPasses h cid fuel]
        else if expected s c p ≤ c.got then
          seq [setColl c { c with pass := c.pass + 1, passOn := false, got := 0 }, runPasses h cid fuel]
        else nop

/-! ## Taking and starting (R483, R484) -/

/-- COLLECTIVE_TAKE: the descriptor at a ring's head is taken once every earlier one of the ring has started, while fewer than 8 are
active. One that a peer has aborted ends at once (R493). -/
def actCollectiveTake (h : Nat) : Act := look fun s =>
  match ringMatch s 24 h with
  | none => pollRing 24 h
  | some ws =>
    let c : Collective := ⟨h, ws, ringEntry s 24 h, false, none, [], 0, false, 0, 0, 0, [], [], false, false, 0⟩
    let aborted := s.aborts.contains (h, cCid c)
    act (podEn s && ringRuns s 24 h && !fenced s (bxPage 0) && decide (s.coll.length < 8) &&
        !(s.coll.any (fun c => decide (c.herd = h) && !c.started)))
      (seq [engActs h (ringEntry s 24 h) 64 none false, wr (ringAddr 24 h + 8) (BitVec.ofNat 32 (ringHead s 24 h + 1)),
        act (mGet s.ringFail (64 * 24 + h)).isSome (one (.ringFail (64 * 24 + h) none)),
        one (.aborts (s.aborts.filter (fun p => decide (p ≠ (h, cCid c))))),
        one (.coll (s.coll ++ [if aborted then { c with started := true, finished := true, status := 0x86 } else c]))])

/-- A bad descriptor (R484, status 0x82): a reserved kind or nonzero reserved bits, a misplaced address, a count out of range, a
reserved notify, or a root or target that is no present member. -/
def cBad (s : State) (c : Collective) : Bool :=
  decide (6 < cKind c) || decide (fld (cW c 1) 31 30 ≠ 0) || decide (fld (cW c 1) 11 10 = 3) || decide (fld (cW c 12) 31 6 ≠ 0) ||
    [13, 14, 15].any (fun k => decide (cW c k ≠ 0)) ||
    decide (cSrc c % 64 ≠ 0) || decide (cDst c % 64 ≠ 0) || decide ((joinWords (cW c 10) (cW c 11)).toNat % 16 ≠ 0) ||
    (decide (5 ≤ cKind c) && (decide (cCount c = 0) || decide (262144 < cCount c))) ||
    ([3, 4, 5].contains (cKind c) && !isPresent s (cRoot c)) ||
    (decide (cKind c = 6) && (cTargets c).any (fun p => !isPresent s p))

/-- The first result that is no bytes, or the bytes joined. -/
def joinReads (rs : List Eng) : Eng := rs.foldl (fun a r => match a, r with
  | .ok x, .ok y => .ok (x ++ y)
  | .ok _, r => r
  | a, _ => a) (.ok [])

/-- The bitmap bytes of a mask image that the elements of a collective's tensor need, each once. -/
def cMaskBytes (c : Collective) (a : Nat) (ws : List Word) : List Nat :=
  let cols := fld (ws.getD 0 0) 31 16
  if cCount c ≠ fld (ws.getD 0 0) 15 0 * cols then []
  else ((List.range (cCount c)).flatMap (fun j => (imageBits a ws (j / cols) (j % cols)).map (·.1))).eraseDups

/-- The trained elements under the mask at mimg (R490): a status when the image cannot be read or does not fit. -/
def cMask (s : State) (c : Collective) : Except Eng (Option (List Nat)) :=
  if bit (cW c 1) 9 && decide (cKind c < 5) then
    let a := (joinWords (cW c 8) (cW c 9)).toNat
    match collRead s c.herd a 32 with
    | .ok bs =>
      let ws := leWords 8 bs
      let rows := fld (ws.getD 0 0) 15 0
      let cols := fld (ws.getD 0 0) 31 16
      if !maskHeaderOk ws || decide (cCount c ≠ rows * cols) then .error (.bad 0x82)
      else match joinReads ((cMaskBytes c a ws).map (fun b => collRead s c.herd b 1)) with
        | .ok _ => .ok (some ((List.range (rows * cols)).filter (fun j => imageTrained s c.herd a ws (j / cols) (j % cols))))
        | r => .error r
    | r => .error r
  else .ok none

/-- The reads of a collective from its mask image: the header, and the bitmap bytes. -/
def cMaskActs (c : Collective) : Act := look fun s =>
  act (bit (cW c 1) 9 && decide (cKind c < 5)) (
    let a := (joinWords (cW c 8) (cW c 9)).toNat
    seq [engActs c.herd a 32 none false, match collRead s c.herd a 32 with
      | .ok bs => each (cMaskBytes c a (leWords 8 bs)) fun b => engActs c.herd b 1 none false
      | _ => nop])

/-- The values that a member reads at the start: its part of a reduction, its shard of a gather, the root's of a broadcast. -/
def cReads (s : State) (c : Collective) : List Nat :=
  let r := match cKind c with
    | 0 | 1 => (0, cLen c)
    | _ => regionAt s c (cAxes c).length
  let whole := decide (cKind c = 4)
  if whole then List.range (cLen c) else (List.range (rangeLen r)).map (r.1 + ·)

/-- A link port's non-finite report (R239, R491): after the close it enters no vote and sets VU_NF_STAT.late (R243), in every core of the herd
(DEDUCED, log entry 138). -/
def linkReport (h : Nat) : Act := look fun s =>
  if (herdOf s h).any (·.voteClosed) then
    each (herdSites s h) fun c => seq [wrBit (vuPage c + 0x82C) 3 true, setIst (vuPage c) 8]
  else setHerd h (fun x => { x with nonfinite := true })

/-- The oldest descriptor of herd h that has not started, where its kind is `kind`. -/
def toStart (s : State) (h kind : Nat) : Option Collective :=
  (s.coll.find? (fun c => decide (c.herd = h) && !c.started)).bind (fun c => if cKind c = kind then some c else none)

/-- A collective ends at its start with a status. -/
def failStart (c : Collective) (st : Nat) : Act := setColl c { c with started := true, finished := true, status := st }

/-- Kinds 0 to 4 start: the member reads its part and begins the passes. -/
def startPasses (h kind : Nat) : Act := look fun s =>
  match toStart s h kind with
  | none => nop
  | some c0 =>
    if cBad s c0 then failStart c0 0x82
    else match cMask s c0 with
      | .error .wait => nop
      | .error (.bad st) => seq [cMaskActs c0, failStart c0 st]
      | .error (.ok _) => nop
      | .ok es =>
        let c := { c0 with elems := es }
        let js := cReads s c
        match joinReads (js.map (fun j => collRead s h (cSrc c + 4 * cPlace c j) 4)) with
        | .wait => nop
        | .bad st => seq [cMaskActs c0, each js (fun j => engActs h (cSrc c + 4 * cPlace c j) 4 none false), failStart c0 st]
        | .ok bs =>
          let ws := leWords js.length bs
          let d := { c with started := true, vals := (js.zip ws).foldl (fun m q => mPut m q.1 (some q.2)) [] }
          seq [cMaskActs c0, each js (fun j => engActs h (cSrc c + 4 * cPlace c j) 4 none false), setColl c0 d,
            act (bit (cW c 1) 8 && ws.any nonFinite) (linkReport h), runPasses h (cCid c) 16]

/-- Bytes in frames of at most 4,096, with their offsets. -/
def dataFrames (bs : List Byte) : List (Nat × List Byte) :=
  (chunks (0, bs.length) 4096).map fun r => (r.1, (bs.drop r.1).take (r.2 - r.1))

/-- SEND (R484 kind 5): the bytes go to the root in WR frames; to this member itself they are written at once. -/
def actSend (h : Nat) : Act := look fun s =>
  match toStart s h 5 with
  | none => nop
  | some c =>
    if cBad s c then failStart c 0x82
    else match collRead s h (cSrc c) (cCount c) with
      | .wait => nop
      | .bad st => seq [engActs h (cSrc c) (cCount c) none false, failStart c st]
      | .ok bs =>
        let own := decide (cRoot c = ownPos s)
        let dstOk := if own then collWriteJudge s h (cDst c) (cCount c) else .ok []
        match dstOk with
        | .wait => nop
        | .bad st => seq [engActs h (cDst c) (cCount c) none true, failStart c st]
        | .ok _ => seq [engActs h (cSrc c) (cCount c) none false,
            if own then urWrite h (cDst c) bs
            else each (dataFrames bs) fun q => sendFrame
              ⟨0x01, 1, h, ownPos s, cRoot c, false, false, 0, cCid c, 5, 0, 0, cDst c + q.1, 0, q.2⟩,
            setColl c { c with started := true, finished := true, status := 0
                               sent := bs.length
                               recvd := if own then bs.length else 0 }]

/-! ## Frames of collectives -/

/-- The unified-range address and herd that a WR frame names, and whether its page moves: the frame then waits. -/
def wrWaits (s : State) (x : HeldFrame) : Bool :=
  !x.hdr.poison && decide (collWriteJudge s x.hdr.herd.val x.hdr.addr.toNat x.data.length = .wait)

/-- A WR frame's data is written into the herd's pages; a page that refuses it keeps its contents, as does one whose frame arrives
poisoned. -/
def takeWr (x : HeldFrame) : Act := look fun s =>
  let h := x.hdr.herd.val
  let a := x.hdr.addr.toNat
  if x.hdr.poison then raise (bxPage x.hdr.port.val) { cls := .uncorrContained, addr := some a, herd := some h }
  else match collWriteJudge s h a x.data.length with
    | .ok _ => urWrite h a x.data
    | _ => engActs h a x.data.length none true

/-- WR (R461). -/
def actWr (f : FrameHdr) (data : List Byte) : Act := rxWaiting ⟨f, 0x01, data, none⟩ (fun _ => true) wrWaits takeWr

/-- RED (R486, R487): partial sums arrive, this member adds its own, and forwards them or keeps them as their owner. -/
def takeSums (c : Collective) (i : Nat) (f : FrameHdr) (data : List Byte) : Act := look fun s =>
  let j := (regionAt s c i).1 + f.offset.toNat
  let n := cRing s c i
  let q0 := cOwn s c i
  let piece := pieceOf s c i j
  let sums := (wireWords c data).zipIdx.map (fun x => addF x.1 (cVal c (j + x.2)))
  let adds := if piece.2 then (q0 + n - stepIn n piece.1 true) % n else (stepIn n piece.1 false + n - q0) % n
  let d := { c with got := c.got + sums.length }
  seq [act (bit (cW c 1) 8 && sums.any nonFinite) (linkReport c.herd),
    if piece.1 = q0 then setColl c (putVals d j sums)
    else
      let fr := ringFrame s c i piece.2 false j f.count.toNat (sums.zipIdx.map (fun x => onWire s c (j + x.2) c.pass adds x.1))
      seq [setColl c { d with sent := c.sent + sums.length }, giveFrame fr.1 fr.2]]

/-- GAT (R485, R486): gathered results arrive; they are kept and go on around the ring. -/
def takeResults (c : Collective) (i : Nat) (f : FrameHdr) (data : List Byte) : Act := look fun s =>
  let j := (regionAt s c i).1 + f.offset.toNat
  let n := cRing s c i
  let q0 := cOwn s c i
  let piece := pieceOf s c i j
  let xs := wireWords c data
  let d := putVals { c with got := c.got + xs.length } j xs
  if stepIn n q0 piece.2 = piece.1 then setColl c d
  else
    let fr := ringFrame s c i piece.2 true j f.count.toNat xs
    seq [setColl c { d with sent := c.sent + xs.length }, giveFrame fr.1 fr.2]

/-- Whether a RED or GAT frame waits for its pass: its descriptor does not run yet, or runs an earlier pass. DESIGN CHOICE (log entry 145):
one of a herd that is not here, or whose collective ring is halted, waits no longer and is discarded. -/
def passWaits (s : State) (x : HeldFrame) : Bool :=
  let h := x.hdr.herd.val
  match collOf s h x.hdr.cid.toNat with
  | none => (herdOf s h).isSome && !bit (rd s (ringAddr 24 h + 4)) 30
  | some c => (decide (c.pass < x.hdr.pass.toNat) && decide (x.hdr.pass.toNat < (cPasses c).length)) ||
      (decide (c.pass = x.hdr.pass.toNat) && !c.passOn)

/-- A RED or GAT frame is taken in the pass that runs here: one whose parameters differ ends the collective with 0x82, a poisoned one with
0x83. -/
def takePass (x : HeldFrame) : Act := look fun s =>
  let f := x.hdr
  match collOf s f.herd.val f.cid.toNat with
  | none => nop
  | some c =>
    match (cPasses c)[c.pass]? with
    | none => setColl c { c with finished := true, status := 0x82 }
    | some p =>
      if decide (f.pass.toNat ≠ c.pass) || decide (p.1 ≠ decide (x.type = 0x05)) || decide (f.kind.toNat ≠ cKind c) ||
          (decide (f.count ≠ 0) && decide (f.count.toNat ≠ rangeLen (regionAt s c p.2))) then
        setColl c { c with finished := true, status := 0x82 }
      else if f.poison then setColl c { c with finished := true, status := 0x83 }
      else seq [if p.1 then takeResults c p.2 f x.data else takeSums c p.2 f x.data, runPasses f.herd.val f.cid.toNat 16]

/-- The frames of passes that wait in the receive buffers are taken where their passes have begun. -/
def servePasses : Act :=
  serveAll (fun s x => !(decide (x.type = 0x04) || decide (x.type = 0x05)) || passWaits s x) takePass

/-- RED. -/
def actRedFrame (f : FrameHdr) (data : List Byte) : Act :=
  seq [rxWaiting ⟨f, 0x04, data, none⟩ (fun _ => true) passWaits takePass, servePasses]
/-- GAT. -/
def actGat (f : FrameHdr) (data : List Byte) : Act :=
  seq [rxWaiting ⟨f, 0x05, data, none⟩ (fun _ => true) passWaits takePass, servePasses]

/-- REDUCE_SCATTER. -/
def actReduceScatter (h : Nat) : Act := seq [startPasses h 0, servePasses]
/-- ALL_REDUCE. -/
def actAllReduce (h : Nat) : Act := seq [startPasses h 1, servePasses]
/-- ALL_GATHER. -/
def actAllGather (h : Nat) : Act := seq [startPasses h 2, servePasses]
/-- BROADCAST. -/
def actBroadcast (h : Nat) : Act := seq [startPasses h 3, servePasses]
/-- REDUCE. -/
def actReduce (h : Nat) : Act := seq [startPasses h 4, servePasses]

/-! ## Multicast (R494 to R497) -/

/-- A request arrives at a target. -/
def takeRequest (src cid h count : Nat) : Act := look fun s =>
  seq [one (.mc (s.mc ++ [⟨src, cid, h, count, false, []⟩])), grantWaiting (s.mc.length + 1)]

/-- MULTICAST (R494): in a bulk window the source asks every target. -/
def actMulticast (h : Nat) : Act := look fun s =>
  match s.coll.find? (fun c => decide (c.herd = h) && !c.started && !c.finished) with
  | none => nop
  | some c =>
    if cKind c ≠ 6 then nop
    else if cBad s c then failStart c 0x82
    else act (bulkIsOpen s) (seq [setColl c { c with started := true, grants := [] },
      each (cTargets c) fun p => if p = ownPos s then takeRequest p (cCid c) h (cCount c)
        else sendFrame (mcFrame s 0x10 h p (cCid c) (leBytes 4 (cCount c)))])

/-- MREQ: its payload names the bytes (DEDUCED, log entry 147). -/
def actMreq (f : McRequest) : Act :=
  rxTorus f.hdr 0x10 4 (fun _ => true) (takeRequest f.hdr.src.toNat f.hdr.cid.toNat f.hdr.herd.val f.bytes.toNat)
/-- MGNT. -/
def actMgnt (f : FrameHdr) : Act := rxTorus f 0x11 0 (fun _ => true) (takeGrant f.herd.val f.cid.toNat f.src.toNat)
/-- MREL (R497). -/
def actMrel (f : FrameHdr) : Act := rxTorus f 0x12 0 (fun _ => true) (dropRequest f.herd.val f.src.toNat f.cid.toNat)

/-- A target has the whole multicast: the source counts it, and the multicast ends after the last; `own`: the target is the source. -/
def takeDone (h cid pos : Nat) (own : Bool) : Act := look fun s =>
  match collOf s h cid with
  | some c =>
    let ds := if c.donePos.contains pos then c.donePos else c.donePos ++ [pos]
    act (decide (cKind c = 6) && c.dataSent)
      (setColl c { c with donePos := ds, finished := (cTargets c).all (fun t => ds.contains t), status := 0
                          recvd := if own then cCount c else c.recvd })
  | none => nop
/-- MDONE. -/
def actMdone (f : FrameHdr) : Act := rxTorus f 0x13 0 (fun _ => true) (takeDone f.herd.val f.cid.toNat f.src.toNat false)

/-- The positions on the way from position p to q, without p (R463). -/
def wayTo (s : State) (p q : Nat) : Nat → List Nat
  | 0 => []
  | n + 1 => match podPort s p q with
    | some k => torusNext s p k :: wayTo s (torusNext s p k) q n
    | none => []

/-- The targets that no other target's way passes: the frames are addressed to these (R495). -/
def leafTargets (s : State) (c : Collective) : List Nat :=
  let ts := (cTargets c).filter (fun t => decide (t ≠ ownPos s))
  ts.filter (fun t => !ts.any (fun u => decide (u ≠ t) && (wayTo s (ownPos s) u 8).contains t))

/-- Whether dst of a multicast that this member has granted lies in a page that is moving: its data then waits. -/
def mcWaits (s : State) (h src cid dst : Nat) : Bool :=
  s.mc.any (fun g => g.granted && isRequest h src cid g && decide (collWriteJudge s h dst g.count = .wait))

/-- What a target that holds a whole multicast with address dst does (R496): it writes dst, frees its buffer and sends MDONE. One whose
dst cannot be written sends ABORT (DEDUCED, log entry 37); at the source itself the multicast ends with the refusal's status. -/
def writeMulticast (g : McGrant) (dst : Nat) (bs : List Byte) : Act := look fun s =>
  let own := decide (g.src = ownPos s)
  match collWriteJudge s g.herd dst g.count with
  | .ok _ => seq [urWrite g.herd dst bs, dropRequest g.herd g.src g.cid,
      if own then takeDone g.herd g.cid g.src true else sendFrame (mcFrame s 0x13 g.herd g.src g.cid [])]
  | r => seq [engActs g.herd dst g.count none true, dropRequest g.herd g.src g.cid,
      if own then (match collOf s g.herd g.cid, r with
        | some c, .bad st => setColl c { c with finished := true, status := st }
        | _, _ => nop)
      else sendFrame (mcFrame s 0x14 g.herd g.src g.cid [])]

/-- A target has received bytes of a multicast with address dst, at their offset; with the last of them it has the whole. -/
def takeData (h src cid dst off : Nat) (bs : List Byte) : Act := look fun s =>
  match s.mc.find? (fun g => g.granted && isRequest h src cid g) with
  | none => nop
  | some g =>
    let d := bs.zipIdx.foldl (fun m q => mPut m (off + q.2) (some q.1)) g.data
    if d.length < g.count then one (.mc (s.mc.map (fun x => if x = g then { g with data := d } else x)))
    else writeMulticast g dst (d.map (·.2))

/-- MULTICAST_SEND (R495): every target has granted. -/
def actMulticastSend (h : Nat) : Act := look fun s =>
  match s.coll.find? (fun c => decide (c.herd = h) && decide (cKind c = 6) && c.started && !c.finished && !c.dataSent &&
      (cTargets c).all (fun t => c.grants.contains t)) with
  | none => nop
  | some c => match (if mcWaits s h (ownPos s) (cCid c) (cDst c) then .wait else collRead s h (cSrc c) (cCount c)) with
    | .wait => nop
    | .bad st => seq [engActs h (cSrc c) (cCount c) none false, setColl c { c with finished := true, status := st }]
    | .ok bs => seq [engActs h (cSrc c) (cCount c) none false,
        setColl c { c with dataSent := true, sent := bs.length, finished := (cTargets c).isEmpty, status := 0 },
        each (leafTargets s c) fun t => each (dataFrames bs) fun q => sendFrame
          ⟨0x06, 3, h, ownPos s, t, false, false, 0, cCid c, 6, 0, q.1, cDst c + q.1, 0, q.2⟩,
        act ((cTargets c).contains (ownPos s)) (takeData h (ownPos s) (cCid c) (cDst c) 0 bs)]

/-- The address of dst that an MCD frame gives: its addr less its offset. -/
def mcdDst (f : FrameHdr) : Nat := f.addr.toNat - f.offset.toNat

/-- Whether an MCD frame waits: dst lies in a page that moves. -/
def mcdWaits (s : State) (x : HeldFrame) : Bool :=
  !x.hdr.poison && mcWaits s x.hdr.herd.val x.hdr.src.toNat x.hdr.cid.toNat (mcdDst x.hdr)

/-- An MCD frame is taken: a target on the way keeps a copy; the frame goes on toward its destination. A poisoned one leaves the multicast
incomplete: the target aborts it. -/
def takeMcd (x : HeldFrame) : Act := look fun s =>
  let f := x.hdr
  seq [if f.poison then
      act (s.mc.any (isRequest f.herd.val f.src.toNat f.cid.toNat)) (seq [dropRequest f.herd.val f.src.toNat f.cid.toNat,
        sendFrame (mcFrame s 0x14 f.herd.val f.src.toNat f.cid.toNat [])])
    else takeData f.herd.val f.src.toNat f.cid.toNat (mcdDst f) f.offset.toNat x.data,
    match podPort s (ownPos s) f.dst.toNat with
    | some k => giveFrame k { frameOf f 0x06 x.data with dl := f.dl || crossesDateline s (ownPos s) k }
    | none => nop]

/-- MCD (R495, R496). -/
def actMcd (f : FrameHdr) (data : List Byte) : Act := rxWaiting ⟨f, 0x06, data, none⟩ (fun _ => true) mcdWaits takeMcd

/-- ABORT (R493, R496): the collective, begun or not, ends with status 0x86; a multicast's target drops what it holds. One whose
descriptor has not been taken ends when it is; DESIGN CHOICE (log entry 148): an ABORT for one of the eight collectives that ended last here
comes too late for it. -/
def actAbort (f : FrameHdr) : Act :=
  rxTorus f 0x14 0 (fun _ => true) (look fun s =>
    let key := (f.herd.val, f.cid.toNat)
    let mine (c : Collective) : Bool := decide ((c.herd, cCid c) = key)
    seq [
      act (decide (f.kind ≠ 6) && !s.coll.any mine && !s.aborts.contains key && !s.ended.contains key) (one (.aborts (s.aborts ++ [key]))),
      one (.coll (s.coll.map (fun c => if mine c && !c.finished then
        { c with started := true, finished := true, status := 0x86 } else c))),
      act (s.mc.any (isRequest f.herd.val f.src.toNat f.cid.toNat)) (dropRequest f.herd.val f.src.toNat f.cid.toNat)])

/-! ## Ends (R492, R493) -/

/-- The elements of dst that a finished collective writes. -/
def cResults (s : State) (c : Collective) : List Nat :=
  let r := match cKind c with
    | 0 | 4 => regionAt s c (cAxes c).length
    | _ => (0, cLen c)
  if cKind c < 5 then (List.range (rangeLen r)).map (r.1 + ·) else []

/-- The status with which a finished collective ends: 0 becomes a refusal's status where dst cannot be written. -/
def endStatus (s : State) (c : Collective) : Eng :=
  if c.status ≠ 0 then .bad c.status
  else joinReads ((cResults s c).map (fun j => collWriteJudge s c.herd (cDst c + 4 * cPlace c j) 4))

/-- The other positions of a collective's passes, or a multicast's targets. -/
def cPeers (s : State) (c : Collective) : List Nat :=
  let p := ownPos s
  let ps := if cKind c = 6 then cTargets c
    else if cKind c = 5 then []
    else (cAxes c).flatMap (fun a => (List.range (axisSize s a)).map (fun q => withCoord p a q))
  ps.filter (fun q => decide (q ≠ p) && isPresent s q)

/-- The class of a collective's fault status (R492). -/
def collClass (st : Nat) : Cls :=
  match st with
  | 0x80 => .security
  | 0x82 => .format
  | 0x83 | 0x87 => .uncorrContained
  | _ => .protocol

/-- A collective ends with status st (R492): record, notification; a fault halts the ring and aborts at the peers. -/
def endCollective (c : Collective) (st : Nat) : Act := look fun s =>
  let rs := if st = 0 then cResults s c else []
  let written := if cKind c < 5 then rs.length else c.recvd
  let h := c.herd
  seq [each rs fun j => urWrite h (cDst c + 4 * cPlace c j) (leBytes 4 (cVal c j).toNat),
    putRecord h ((joinWords (cW c 10) (cW c 11)).toNat / 16 * 16)
      (leBytes 2 (fld (cW c 0) 31 16) ++ leBytes 2 st ++ leBytes 4 c.sent ++ leBytes 4 written ++ leBytes 4 0),
    notifyCore (.bx 0) h (fld (cW c 1) 11 10) (fld (cW c 1) 21 12) (fld (cW c 1) 29 22),
    act (decide (0x80 ≤ st)) (seq [
      raise (bxPage 0) { cls := collClass st, addr := some c.addr, herd := some h },
      setIst (bxPage 0) 13, haltRing 24 h st,
      each (cPeers s c) fun q => sendFrame { ctlFrame s 0x14 h q 0 0 [] with cid := cCid c, kind := cKind c }]),
    look fun s => one (.coll (s.coll.filter (fun x => decide (x ≠ c)))),
    one (.ended (((h, cCid c) :: s.ended).take 8))]

/-- COLLECTIVE_END: the oldest collective of herd h that has finished with this status ends. With status 0 it ends once no frame of its own
waits or is unacknowledged at a port, since a link that goes down ends it with 0x87 until then (R467; DEDUCED, log entry 149). -/
def actCollectiveEnd (h : Nat) (st : BitVec 8) : Act := look fun s =>
  match s.coll.find? (fun c => decide (c.herd = h) && c.finished &&
      (decide (endStatus s c = .bad st.toNat) || (decide (st = 0) && (match endStatus s c with
        | .ok _ => true
        | _ => false)))) with
  | none => nop
  | some c => act (!(decide (st = 0) && (List.range 6).any (sendsOn s c)) && decide (engWriteJudge s h ((joinWords (cW c 10) (cW c 11)).toNat / 16 * 16) 16 none ≠ .wait))
      (endCollective c st.toNat)

end Sys2Proof.Machine
end

