-- ==== Sys2Proof/Machine/View.lean ====
section
/-! DEFINITION. The registers that show what the machine's units do: CUBE_STAT, the DWQ's registers, VU_STAT, TILE_TC_BUSY, UE_STAT and the pod block. -/

namespace Sys2Proof.Machine

/-- CUBE_STAT. -/
def cubeStat (s : State) (site : Nat) : Word :=
  let x := coreX s site
  let now := match x.cube with
    | some j => some j
    | none => x.dwqCur
  let deferred := x.cube.isNone && x.dwqCur.isSome
  let tail := 128 * b2n (!x.pipe.isEmpty) + 2 * b2n x.cubeWait.isSome
  BitVec.ofNat 32 (match now with
    | some j => (j.steps - j.step) * 65536 + tail + 64 * b2n deferred + 16 * cmmBank j.insn.word +
        4 * cmmVariant j.insn.word + 1
    | none => tail)

/-- CUBE_DWQ_STAT. -/
def dwqStat (s : State) (site : Nat) : Word :=
  BitVec.ofNat 32 ((dwqEntries s site).length * 65536 + (coreX s site).dwqHead * 256 + 2 * b2n (!(dwqConds s site).isEmpty) +
    b2n (inFill s site))

/-- CUBE_DWQEn. -/
def dwqEntry (s : State) (site n : Nat) : DWord :=
  match (dwqEntries s site)[(n + 64 - (coreX s site).dwqHead) % 64]? with
  | none => 0
  | some j =>
    let i := j.insn
    let trained := (List.range 512).filter (fun k => isTrained i (k / 32) (k % 32))
    let cubes := ofBits ((trained.map (fun k => cubeOf (k / 32, k % 32))).eraseDups)
    BitVec.ofNat 64 (2 ^ 63 + cubes * 2 ^ 48 + (j.steps - j.step) * 2 ^ 32 + i.row * 1024 + 512 * b2n (cmmZacc i.word) +
      256 * b2n (decide (cmmMask i.word ≠ 0)) + 64 * cmmBank i.word + 8 * fld i.word 23 21 + fld i.word 26 24)

/-- VU_STAT: rd_wait is 1 while an operation of the VU has issued and its unit has not begun it; a VLD or VST is none (R112). -/
def vuStat (s : State) (site : Nat) : Word :=
  let vs := (coreX s site).issued.filter (fun i => decide (i.part = 2) && decide (0x10 ≤ opOf 2 i.word))
  BitVec.ofNat 32 (2 * b2n (vs.any (fun i => !i.started)) + b2n (!vs.isEmpty))

/-- BX_MC_STAT. -/
def mcStat (s : State) : Word :=
  BitVec.ofNat 32 ((s.mc.filter (fun g => !g.granted)).length % 256 * 4096 + mcFree s / 1024)

/-- The registers that show a unit's work. -/
def unitWord (s : State) (b : Block) (off : Nat) : Option Word :=
  match b with
  | .cube c =>
    if off = 0x100 then some (cubeStat s c)
    else if off = 0x110 then some (dwqStat s c)
    else if 0xC00 ≤ off ∧ off < 0xE00 then
      let d := dwqEntry s c ((off - 0xC00) / 8)
      some (if off % 8 = 0 then loWord d else hiWord d)
    else none
  | .vu c => if off = 0x100 then some (vuStat s c) else none
  | .tile c => if off = 0x144 then some (BitVec.ofNat 32 (ofBits ((List.range 8).filter (tcBusy s c)))) else none
  | .ue n => if off = 0x10C then some (ueStat s n) else none
  | .bx 0 =>
    if off = 0x804 then some (setBit (podCfg s) 30 (isLead s))
    else if off = 0x810 then some (podTree s)
    else if off = 0x814 then some (mcStat s)
    else none
  | _ => none

/-- What a read of the aligned word at BAR0 offset a returns, access rights aside. -/
def fullRead (s : State) (a : Nat) : Word :=
  match (if rstBusy s (a / 4096 * 4096) then none else unitWord s (blockOf s (a / 4096)) (a % 4096)) with
  | some w => w
  | none => regRead s a

/-- Both words of a register pair. -/
def fullRead64 (s : State) (a : Nat) : DWord := joinWords (fullRead s a) (fullRead s (a + 4))

end Sys2Proof.Machine
end

