-- ==== Sys2Proof/Machine/Dump.lean ====
section
/-! DEFINITION. The post-mortem dump (R434 to R438) and the DUMP command's copy of a herd's records. -/

namespace Sys2Proof.Machine

/-- Bytes cut or filled with zeros to n. -/
def padTo (n : Nat) (bs : List Byte) : List Byte := (bs ++ List.replicate n 0).take n

/-- Fields placed at offsets of a record: (offset, bytes), offsets rising and not overlapping. -/
def layBytes (n : Nat) (fs : List (Nat × List Byte)) : List Byte :=
  padTo n (fs.foldl (fun acc f => padTo f.1 acc ++ f.2) [])

/-- n words of the control window from a, as bytes. -/
def regBytes (s : State) (a n : Nat) : List Byte := (List.range n).flatMap fun k => leBytes 4 (fullRead s (a + 4 * k)).toNat

/-- The site record of a core (R435). -/
def siteRecord (s : State) (site : Nat) : List Byte :=
  let herd := (herdAt s site).getD 0
  let inHerd := (herdAt s site).isSome
  let q := seqPage site
  let t := tlyPage site
  let cnt (hi lo : Nat) : List Byte := (List.range 32).flatMap fun n => leBytes 2 (fld (rd s (cntAddr site n)) hi lo)
  let waiters := if inHerd && decide (hidxOf s site = 0) then
      (List.range 32).map fun j => (0x1000 + 0x80 * j, leBytes 128 (ofBits ((waitersOn s site (224 + j)).map (·.hidx))))
    else []
  layBytes 8192 ([
    (0, leBytes 4 (site + 1024 * herd + 65536 * b2n inHerd + 131072 * (if inHerd then hidxOf s site else 0))),
    (4, regBytes s (q + 0x104) 1 ++ regBytes s (q + 0x118) 2 ++ regBytes s (q + 0x180) 1),
    (0x14, regBytes s (t + 0x244) 2 ++ regBytes s (t + 0x240) 1),
    (0x20, leBytes 8 (beadNo s).toNat ++ leBytes 4 (beadCyc s)),
    (0x40, regBytes s (t + 0x100) 8), (0x60, cnt 15 0), (0xA0, regBytes s (t + 0x1C0) 32), (0x120, cnt 31 16),
    (0x160, regBytes s (lcReg site 0) 8), (0x180, regBytes s (cubePage site + 0x110) 2),
    (0x200, regBytes s (cubePage site + 0xC00) 128)] ++ waiters)

/-- The record of an update engine; `only` limits it to one herd's entries (R437). -/
def ueRecord (s : State) (n : Nat) (only : Option Nat) : List Byte :=
  let hs := (List.range 64).filter (fun h => only.all (fun x => decide (x = h)))
  layBytes 4096 ((if only.isNone then [(0, regBytes s (uePage n + 0x10C) 1)] else []) ++
    hs.map (fun h => (0x100 + 16 * h, regBytes s (ringAddr n h) 4)) ++
    hs.map (fun h => (0x500 + 8 * h, regBytes s (hvote n h) 2)))

/-- The MIG_ record. -/
def migRecord (s : State) (only : Option Nat) : List Byte :=
  let hs := (List.range 64).filter (fun h => only.all (fun x => decide (x = h)))
  layBytes 4096 ((if only.isNone then [(0, regBytes s (migPage 0 + 0x110) 1 ++ regBytes s (migPage 0 + 0x108) 1)] else []) ++
    hs.map (fun h => (0x100 + 32 * h, regBytes s (migHerd h) 8)))

/-- The record of a Beynex port. -/
def bxRecord (s : State) (n : Nat) (only : Option Nat) : List Byte :=
  let hs := (List.range 64).filter (fun h => only.all (fun x => decide (x = h)))
  layBytes 4096 ((if only.isNone then [(0x100, regBytes s (bxPage n + 0x100) 32)] else []) ++
    (if n = 0 then (if only.isNone then [(0x804, regBytes s (bxPage 0 + 0x804) 1), (0x810, regBytes s (bxPage 0 + 0x810) 2)] else []) ++
      hs.map (fun h => (0xA00 + 16 * h, regBytes s (ringAddr 24 h) 4)) else []))

/-- The dump header (R435). -/
def dumpHeader (s : State) (d : DumpRun) : List Byte :=
  layBytes 4096 [
    (0, leBytes 4 (rd s (mgtPage 4 + 0x104)).toNat ++ leBytes 4 (d.reason + 256 * d.herd + 16384 * b2n d.herdOnly)),
    (8, leBytes 8 d.bead.toNat ++ leBytes 8 d.cyc ++ leBytes 8 (beadNo s).toNat ++ leBytes 8 (beadCyc s)),
    (0x28, regBytes s (mgtPage 3 + 0x128) 1 ++ regBytes s (mgtPage 3 + 0x10C) 1)]

/-- The sites that a dump records. -/
def dumpSites (s : State) (d : DumpRun) : List Nat := if d.herdOnly then herdSites s d.herd else coreList s

/-- The 16 MiB of a dump slot (R434). -/
def dumpBytes (s : State) (d : DumpRun) : List Byte :=
  let only := if d.herdOnly then some d.herd else none
  let sites := dumpSites s d
  padTo 0x1000000 (dumpHeader s d ++
    (List.range 1024).flatMap (fun c => if sites.contains c then siteRecord s c else List.replicate 8192 0) ++
    (List.range 24).flatMap (fun n => ueRecord s n only) ++ migRecord s only ++
    (List.range 8).flatMap (fun n => bxRecord s n only))

/-- Where a dump slot begins. -/
def dumpSlot (s : State) (n : Nat) : Nat := 65536 * (rsvBase s + 8264) + 0x1000000 * n

/-- MGT_DUMP_CTRL. -/
def dumpCtl : Nat := mgtPage 4 + 0x100

/-- A dump begins (R436). -/
def beginDump (reason herd : Nat) (only : Bool) (cmd : Option Asker) (dest : Nat) : Act := look fun s =>
  seq [one (.dumpRun (some ⟨reason, herd, only, beadNo s, beadCyc s, cmd, dest⟩)), wrBit dumpCtl 30 true]

/-- A write of MGT_DUMP_CTRL (R436). -/
def dumpCtlWrite (r : Requester) (v : Word) : Act := look fun s =>
  if bit v 31 && bit (rd s dumpCtl) 30 then protocolAt (mgtPage 4) r
  else seq [maskWrite (.mgt 4) dumpCtl v,
    act (bit v 31) (look fun s => beginDump 1 (fld (rd s dumpCtl) 5 0) (bit (rd s dumpCtl) 8) none 0)]
/-- DUMP_GO. -/
def actDumpGo (r : Requester) (v : Word) : Act := guarded r dumpCtl (dumpCtlWrite r v)

/-- A herd's records as the DUMP command copies them: the header, the site records in order of hidx, and the UE, MIG and BX records
(the order is the model's, log entry 38). -/
def herdRecords (s : State) (d : DumpRun) : List Byte :=
  dumpHeader s d ++ (herdSites s d.herd).flatMap (siteRecord s) ++ (List.range 24).flatMap (fun n => ueRecord s n (some d.herd)) ++
    migRecord s (some d.herd) ++ (List.range 8).flatMap (fun n => bxRecord s n (some d.herd))

/-- The bytes that the DUMP command copies for a herd. -/
def herdDumpSize (s : State) (h : Nat) : Nat := 4096 + 8192 * (herdSites s h).length + 4096 * 33

/-- DUMP_END (R436): once the memory ports have zeroed their memory (R402), the records are written, count rises, and a DUMP command has its copy and its answer. -/
def actDumpEnd : Act := look fun s =>
  match s.dumpRun with
  | none => nop
  | some d =>
    if !allFilled s || d.cmd.isSome && (areaJudged s d.herd d.dest (herdDumpSize s d.herd)).contains .waits then nop
    else seq [devWrite (dumpSlot s ((rd s (mgtPage 4 + 0x104)).toNat % 4)) (dumpBytes s d) d.herd,
      wr (mgtPage 4 + 0x104) (rd s (mgtPage 4 + 0x104) + 1), wrBit dumpCtl 30 false, setIst (mgtPage 4) 8,
      one (.dumpRun none),
      match d.cmd with
      | none => nop
      | some a =>
        let bs := herdRecords s d
        if (areaJudged s d.herd d.dest bs.length).all writablePage then
          seq [urWrite d.herd d.dest bs, answer a 0 (BitVec.ofNat 64 bs.length)]
        else seq [engActs d.herd d.dest bs.length none true, answer a 2 0]]

/-- The body of DUMP: a herd_only dump with reason 3; a destination outside the herd's writable pages is a parameter out of range. -/
def dumpBody (dest : Nat) (a : Asker) (h : Nat) : Act := look fun s =>
  if (areaJudged s h dest (herdDumpSize s h)).all writablePage then beginDump 3 h true (some a) dest else answer a 2 0

/-- Whether DUMP cannot be taken yet: another dump runs, or a page of its destination moves. -/
def dumpWaits (s : State) (h dest : Nat) : Bool := s.dumpRun.isSome || (areaJudged s h dest (herdDumpSize s h)).contains .waits

/-- DUMP: it waits while another dump runs. -/
def actDump (c : CmdId) (dest : DWord) : Act := look fun s =>
  if !c.reserved && (herdOfFn s c.fn).any (fun h => dumpWaits s h dest.toNat) then nop else herdCmd c 0x19 (leBytes 8 dest.toNat) true (dumpBody dest.toNat)

end Sys2Proof.Machine
end

