-- ==== Sys2Proof/Machine/Herds.lean ====
section
/-! DEFINITION. Herds (R505, R514 to R527): creation, rings, starts, parking, programs, destruction, and the limits among hosts. -/

namespace Sys2Proof.Machine

/-! ## Cores enter and leave (R100, R101) -/

/-- The clearing of R100, with what R148, R246, R280, R291 and CUBE_POISON add to it; VU_NF_CTRL.en is then set (R244). -/
def clearCore (site : Nat) : Act :=
  let q := seqPage site
  seq [clearTallies site,
    stClear site, rodClear site,
    one (.vregKeep (fun k => !ofSite 64 site k)), one (.accKeep (fun k => !ofSite 2048 site k)),
    one (.ctlReset (tilePage site + 0x100) (tilePage site + 0x144)),
    one (.ctlReset (q + 0x120) (q + 0x144)), one (.ctlReset (q + 0x200) (q + 0x300)),
    wr (cubePage site + 0x104) 0, wr (cubePage site + 0x108) 0, one (.ctlReset (cubePage site + 0x110) (cubePage site + 0x118)),
    one (.ctlReset (cubePage site + 0x400) (cubePage site + 0xC00)), one (.ctlReset (vuPage site + 0x100) (vuPage site + 0x900)),
    one (.ctlReset (mvPage site) (mvPage site + 0x1000)),
    setCore site (fun x => { CoreX.clear with fenceStep := x.fenceStep, owedResets := x.owedResets }),
    look fun s => wrBit (vuPage site + 0x828) 0 (podEn s)]

/-- Core `site` becomes hidx i of herd h, whose last hidx is `last`: IDLE. -/
def assignCore (h site i last : Nat) : Act :=
  seq [wr (corePage site + 0x100) (BitVec.ofNat 32 (0x80000000 + i * 65536 + last * 64 + h)), setCoreState site 1]

/-- A core leaves its herd; a fenced one stays FENCED. -/
def releaseCore (site : Nat) : Act := look fun s =>
  seq [clearCore site, wr (corePage site + 0x100) 0, act (decide (coreState s site ≠ 9)) (setCoreState site 0)]

/-- The free cores inside the quadrants of qmask, in ascending order (R519): a core that was fenced is free once its block pages have been
reset (R88). -/
def freeSites (s : State) (qmask : Nat) : List Nat :=
  (List.range 1024).filter fun c =>
    (decide (qmask = 0) || qmask.testBit (quadrant c)) && coreAvail s c && (herdAt s c).isNone && decide (coreState s c = 0) &&
      decide ((coreX s c).owedResets = 0) && (fenceOrder c).all (fun p => !fenced s p)

/-- Cores enter herd h, cleared. -/
def enterCores (h : Nat) (sites : List Nat) : Act :=
  seq [each sites clearCore, each sites.zipIdx fun p => assignCore h p.1 p.2 (sites.length - 1)]

/-! ## Limits (R522, R527) -/

/-- The sum of a figure over the resident herds of port k's functions. -/
def portSum (s : State) (k : Nat) (f : Herd → Nat) : Nat :=
  (s.herd.filter (fun p => p.2.owner.isSome && decide (p.2.hport.val = k))).foldl (fun a p => a + f p.2) 0

/-- The cores a herd holds. -/
def coresOf (x : Herd) : Nat := x.sites.length

/-- Whether port k's limits leave room (R527). -/
def portRoom (s : State) (k cores frames groups herds nseq : Nat) : Bool :=
  let lim (o hi : Nat) : Nat := fld (rd s (hpPage k + o)) hi 0
  decide (portSum s k coresOf + cores ≤ lim 0x110 10) && decide (portSum s k (·.quota) + frames ≤ lim 0x114 25) &&
    decide (portSum s k (·.ngroups) + groups ≤ lim 0x118 16) && decide (portSum s k (fun _ => 1) + herds ≤ lim 0x11C 6) &&
    decide (portSum s k (·.nseq) + nseq ≤ lim 0x120 10)

/-- The lowest start from `lo` of n free places below hi, where `used` lists (first, count). -/
def lowestFree (used : List (Nat × Nat)) (lo hi n : Nat) : Option Nat :=
  let fits (a : Nat) : Bool := decide (a + n ≤ hi) && used.all (fun u => decide (a + n ≤ u.1) || decide (u.1 + u.2 ≤ a))
  ((lo :: used.map (fun u => u.1 + u.2)).filter (fun a => decide (lo ≤ a) && fits a)).min?

/-- The groups and the programs that resident herds hold. -/
def usedGroups (s : State) : List (Nat × Nat) := s.herd.map (fun p => (p.2.firstGroup, p.2.ngroups))
/-- The programs held. -/
def usedProgs (s : State) : List (Nat × Nat) := s.herd.map (fun p => (p.2.firstProg, p.2.nprog))

/-- The frames that no herd may hold as its floor: those of shared pages (R371). -/
def sharedFrames (s : State) : Nat :=
  ((validPages s).filter (fun p => eShared (homeEntry s p) && !eFar (homeEntry s p))).length

/-- The usable frames (R350): those below the reserved region. -/
def usableFrames (s : State) : Nat := rsvBase s

/-- Whether this device alone has room for a herd: floors, period, sequences, cores (R519 step 1, R371, R522). -/
def deviceRoom (s : State) (p : HerdParams) : Bool :=
  decide (p.minper ≤ beadPeriod s) && decide (s.herd.foldl (fun a x => a + x.2.nseq) 0 + p.nseq ≤ 1024) &&
    decide (p.floor + sharedFrames s + (List.range 64).foldl (fun a g => a + floorOf s g) 0 ≤ usableFrames s) &&
    decide (p.ncores ≤ (freeSites s p.qmask.toNat).length)

/-! ## HERD_CREATE (R519) -/

/-- MGT_BEAD_FLOOR (R448): the largest minimum period declared, 1,000 with no herd. -/
def rewriteFloor : Act := look fun s =>
  wr (beadPage + 0x124) (BitVec.ofNat 32 (if s.herd.isEmpty then 1000 else s.herd.foldl (fun a p => max a p.2.minper) 0))

/-- The entries of a group range become zero (R317). -/
def zeroGroups (first n : Nat) : Act := look fun s =>
  each (List.range n) fun k => tablePut (groupEntryAddr s (first + k)) 32 0

/-- UE_HGRPh of every engine. -/
def setHgrp (h : Nat) (lo hi : Word) : Act :=
  each (List.range 24) fun n => seq [wr (uePage n + 0x600 + 8 * h) lo, wr (uePage n + 0x604 + 8 * h) hi]

/-- The SNAP_ block of herd h returns to its reset values. -/
def clearSnap (h : Nat) : Act := seq [one (.ctlReset (snapReg h) (snapReg h + 0x30)), one (.snap h Snap.clear)]

/-- Herd h is set up on this device, its checks passed (R519 steps 3 to 8). -/
def setUpHerd (h : Nat) (owner : Option FnNo) (port : HpNo) (p : HerdParams) (g0 p0 : Nat) : Act := look fun s =>
  let sites := (freeSites s p.qmask.toNat).take p.ncores
  let x : Herd := ⟨owner, port, sites, p.ncores, p.qmask, p.quota, p.floor, g0, p.ngroups, p0, p.nprog, p.nseq, p.minper, p.pod, p.members,
    false, false, none, none, 0, [], false, false, none, [], none, none, [], []⟩
  seq [one (.herd h (some x)), disableRings h, enterCores h sites, zeroGroups g0 p.ngroups,
    setHgrp h (BitVec.ofNat 32 (0x80000000 * b2n (decide (p.ngroups ≠ 0)) + g0)) (BitVec.ofNat 32 p.ngroups),
    each (List.range 24) (fun n => wr64 (uePage n + 0x800 + 8 * h) p.seed),
    one (.ctlReset (migHerd h) (migHerd h + 32)),
    wr (migHerd h) (BitVec.ofNat 32 p.quota), wr (migHerd h + 4) (BitVec.ofNat 32 p.floor), rewriteFloor, clearSnap h,
    setFnState h 1]

/-- HERD_CREATE's parameters keep their ranges. -/
def paramsOk (p : HerdParams) : Bool :=
  decide (0 < p.ncores) && decide (p.ncores < 2048) && decide (p.quota < 2 ^ 26) && decide (p.floor < 2 ^ 26) &&
    decide (p.ngroups < 2 ^ 17) && decide (p.nprog < 256) && decide (p.nseq < 2048) && decide (p.minper < 2 ^ 20)

/-- HERD_CREATE's parameters as R514 lays them out. -/
def createBytes (p : HerdParams) : List Byte :=
  leBytes 4 (p.ncores + p.qmask.toNat * 4096 + 65536 * b2n p.pod) ++ leBytes 4 p.quota ++ leBytes 4 p.floor ++
    leBytes 4 (p.ngroups + p.nprog * 16777216) ++ leBytes 4 p.nseq ++ leBytes 4 p.minper ++ leBytes 8 p.seed.toNat ++
    leBytes 8 p.members.toNat

/-- The parameters that those bytes give. -/
def createParams (bs : List Byte) : HerdParams :=
  let w (k : Nat) : Nat := leNat ((bs.drop (4 * k)).take 4)
  ⟨bits (w 0) 10 0, BitVec.ofNat 4 (bits (w 0) 15 12), bits (w 0) 16 16 = 1, bits (w 1) 25 0, bits (w 2) 25 0, bits (w 3) 16 0,
    bits (w 3) 31 24, bits (w 4) 10 0, bits (w 5) 19 0, BitVec.ofNat 64 (leNat ((bs.drop 24).take 8)),
    BitVec.ofNat 64 (leNat ((bs.drop 32).take 8))⟩

/-- The herd is created here, or the command is refused with no change; a device whose mesh cannot be routed accepts none (R81). -/
def createHere (a : Asker) (h : Nat) (owner : Option FnNo) (port : HpNo) (p : HerdParams) : Act := look fun s =>
  let room := owner.isNone || portRoom s port.val p.ncores p.quota p.ngroups 1 p.nseq
  match lowestFree (usedGroups s) 0 65536 p.ngroups, lowestFree (usedProgs s) 32 256 p.nprog with
  | some g0, some p0 =>
    if room && deviceRoom s p && (herdOf s h).isNone && !s.mesh.barred then
      seq [setUpHerd h owner port p g0 p0, answer a 0 (BitVec.ofNat 64 (h + 65536 * g0 + 2 ^ 32 * p0))]
    else answer a 1 0
  | _, _ => answer a 1 0

/-- Whether another member of a pod holds herd number h: the manual gives the lead no frame to learn it by, so it is a free value (DESIGN
CHOICE, log entry 74). -/
def heldElsewhere (s : State) (h : Nat) : Bool := (freeAt s (h / 32)).testBit (h % 32)

/-- HERD_CREATE (R505, R519, R562, R620): a pod herd is taken by the lead alone, and goes to the members of its mask. -/
def actHerdCreate (c : CmdId) (p : HerdParams) : Act :=
  hostCmd c (look fun s =>
    let port : HpNo := ⟨c.fn.val / 16, by omega⟩
    let others := if p.pod then (List.range 64).filter (fun q => decide (q ≠ ownPos s) && isPresent s q && bit p.members q) else []
    if (herdOfFn s c.fn).isSome || fnReleasing s c.fn || !bit (rd s (mgtPage 0 + 0x100)) 8 then complete c 3 0
    else if !paramsOk p then complete c 2 0
    else if s.mesh.barred || bit (rd s (snapPage + 0x120)) 31 || (p.pod && !isLead s) then complete c 1 0
    else seq [act (!others.isEmpty) (takeFree 2),
      match (List.range 64).find? (fun h => (herdOf s h).isNone && (others.isEmpty || !heldElsewhere s h)) with
      | none => complete c 1 0
      | some h => spread c 1 h (createBytes p) others fun a => createHere a h (some c.fn) port p])

/-! ## Rings, starts, stops (R518, R520) -/

/-- Whether a page of the area of 25 rings is moving: the command waits. -/
def areaWaits (s : State) (h area lsize : Nat) : Bool :=
  decide (4 ≤ lsize) && decide (lsize ≤ 12) && (areaJudged s h area (25 * 64 * 2 ^ lsize)).contains .waits

/-- HERD_RINGS: the 25 rings are pointed and enabled. -/
def ringsBody (area : DWord) (lsize : Nat) (a : Asker) (h : Nat) : Act := look fun s =>
  let n := 64 * 2 ^ lsize
  if lsize < 4 ∨ 12 < lsize then answer a 2 0
  else if (areaJudged s h area.toNat (25 * n)).all writablePage then
    seq [each (List.range 25) fun i =>
        let b := area.toNat + i * n
        let r := ringAddr i h
        seq [wr r (BitVec.ofNat 32 (b / 64 * 64)),
          wr (r + 4) (BitVec.ofNat 32 (0x80000000 + lsize * 65536 + b / 4294967296 % 1024)), wr (r + 8) 0],
      answer a 0 0]
  else answer a 2 0
/-- HERD_RINGS. -/
def actHerdRings (c : CmdId) (area : DWord) (lsize : Nat) : Act := look fun s =>
  if !c.reserved && (herdOfFn s c.fn).any (fun h => areaWaits s h area.toNat lsize) then nop
  else herdCmd c 2 (leBytes 8 area.toNat ++ leBytes 4 lsize) false (ringsBody area lsize)

/-- Cores armed at start bead b (R518): none where the bead has passed, which raises SCHEDULE in each and answers 9. -/
def startBody (setidx : Bool) (idx b : DWord) (a : Asker) (h : Nat) : Act := look fun s =>
  if (herdOf s h).any (·.parked) then answer a 3 0
  else if b.toNat ≤ (beadNo s).toNat then
    seq [each (herdSites s h) fun c => coreEvent c (seqPage c) .schedule, answer a 9 b]
  else seq [each (herdSites s h) fun c => seq [
      act setidx (wr64 (vuPage c + 0x820) idx),
      look (fun s => if r131 s c || decide (coreState s c = 6) then wr64 (seqPage c + 0x110) b else protocolAt (seqPage c) .ringCtl),
      armCore .ringCtl c],
    setHerd h (fun x => { x with stepSlot := 0 }), answer a 0 b]

/-- HERD_START: the lead fixes the start bead, which goes to the members behind the step index. -/
def actHerdStart (c : CmdId) (ahead : Nat) (setidx : Bool) (idx : DWord) : Act := look fun s =>
  let b := BitVec.ofNat 64 ((beadNo s).toNat + ahead)
  if ahead < 2 ∨ 255 < ahead then hostCmd c (ownHerd c false fun _ _ => complete c 2 0)
  else herdCmd c 4 (leBytes 4 ahead ++ leBytes 4 (b2n setidx) ++ leBytes 8 idx.toNat ++ leBytes 8 b.toNat) false
    (startBody setidx idx b)

/-- HERD_STOP. -/
def stopBody (a : Asker) (h : Nat) : Act := look fun s => seq [each (herdSites s h) stopCore, answer a 0 0]
/-- HERD_STOP as a host command. -/
def actHerdStop (c : CmdId) : Act := herdCmd c 5 [] false stopBody

/-- The cores of a paused herd continue at bead b (R143 to R145, R518). -/
def resumeCores (h : Nat) (b : DWord) : Act := look fun s =>
  seq [each (herdSites s h) fun c => look fun s =>
      let st := coreState s c
      if st = 6 then seq [wr64 (seqPage c + 0x110) b, armCore .ringCtl c]
      else if st = 8 then seq [wr64 (seqPage c + 0x110) b, resumeCore .ringCtl c]
      else nop,
    setHerd h (fun x => { x with faultBead := none })]

/-- What stands in the way of a HERD_RESUME here (R518): the herd is parked, or a core's fault cannot be resumed, status 3; the start bead
has passed, status 9. -/
def resumeStatus (s : State) (h : Nat) (b : DWord) : Nat :=
  if (herdOf s h).any (·.parked) || (herdSites s h).any (fun t => decide (coreState s t = 8) && !bit (rd s (seqPage t + 0x180)) 30) then 3
  else if b.toNat ≤ (beadNo s).toNat then 9
  else 0

/-- HERD_RESUME here: outside a pod the cores continue at once. DEDUCED (log entry 94): on a pod each member first answers whether it can,
and the HRESUME follows once every member has. -/
def resumeBody (b : DWord) (a : Asker) (h : Nat) : Act := look fun s =>
  let st := resumeStatus s h b
  match a with
  | .host c => seq [act (decide (st = 0)) (resumeCores h b), complete c st b]
  | .lead _ _ _ => answer a st b

/-- HERD_RESUME (R481, R518): the lead fixes the start bead. -/
def actHerdResume (c : CmdId) (ahead : Nat) : Act := look fun s =>
  let b := BitVec.ofNat 64 ((beadNo s).toNat + ahead)
  if ahead < 2 ∨ 255 < ahead then hostCmd c (ownHerd c false fun _ _ => complete c 2 0)
  else herdCmd c 6 (leBytes 8 ahead ++ leBytes 8 b.toNat) false (resumeBody b)

/-- Every member has answered a HERD_RESUME (R518): unless one refused it, the cores here continue, and the members' at the HRESUME. -/
def resumeAll (o : HcmdOut) (status : Nat) : Act := look fun s =>
  act (decide (laterStatus o status = 0) || decide (laterStatus o status = 9)) (seq [resumeCores o.herd o.result,
    each (herdMembers s o.herd) fun p => sendFrame (ctlFrame s 0x16 o.herd p o.result.toNat 0 [])])

/-- HRESUME (R481). -/
def actHresume (f : FrameHdr) (b : DWord) : Act :=
  rxTorus f 0x16 0 (fromLead f) (look fun s => act ((herdOf s f.herd.val).any (·.pod)) (resumeCores f.herd.val b))

/-! ## Parking (R523) -/

/-- A core at rest: HALTED (log entry 40). -/
def atRest (s : State) (site : Nat) : Bool := decide (coreState s site = 7)

/-- A herd whose cores have all come to rest gives them up. HP_FN_STAT of a pod herd changes once every member has (closeHcmd). -/
def finishPark (h : Nat) : Act := look fun s =>
  match herdOf s h with
  | some x => match x.parking with
    | some a => act (x.sites.all (atRest s)) (seq [each x.sites releaseCore,
        setHerd h (fun x => { x with parking := none, parked := true, sites := [] }),
          (match a with
            | .host _ => setFnState h 2
            | _ => nop), answer a 0 0])
    | none => nop
  | none => nop

/-- HERD_PARK. -/
def parkBody (a : Asker) (h : Nat) : Act := look fun s =>
  if (herdOf s h).any (·.parked) then answer a 3 0
  else seq [each (herdSites s h) stopCore, setHerd h (fun x => { x with parking := some a }), finishPark h]
/-- HERD_PARK as a host command. -/
def actHerdPark (c : CmdId) : Act := herdCmd c 7 [] false parkBody

/-- HERD_UNPARK (R523, R527). -/
def unparkBody (n : Nat) (qmask : BitVec 4) (a : Asker) (h : Nat) : Act := look fun s =>
  match herdOf s h with
  | none => answer a 6 0
  | some x =>
    let sites := (freeSites s qmask.toNat).take n
    if !x.parked then answer a 3 0
    else if n = 0 ∨ 2048 ≤ n then answer a 2 0
    else if sites.length < n || s.mesh.barred || (x.owner.isSome && !portRoom s x.hport.val n 0 0 0 0) then answer a 1 0
    else seq [setHerd h (fun x => { x with sites := sites, parked := false, stepSlot := 0 }), enterCores h sites, setFnState h 1,
      answer a 0 0]
/-- HERD_UNPARK as a host command. -/
def actHerdUnpark (c : CmdId) (n : Nat) (qmask : BitVec 4) : Act :=
  herdCmd c 8 (leBytes 4 (n + 4096 * qmask.toNat)) false (unparkBody n qmask)

/-! ## Programs (R521) -/

/-- Whether the image of PROG_LOAD lies in a page that is moving: the command waits. -/
def imageWaits (s : State) (h image count : Nat) : Bool := decide (urRead s h image (128 * count) = .wait)

/-- PROG_LOAD. -/
def progBody (image first count : Nat) (a : Asker) (h : Nat) : Act := look fun s =>
  match herdOf s h with
  | none => answer a 6 0
  | some x =>
    if first < x.firstProg ∨ x.firstProg + x.nprog < first + count then answer a 2 0
    else match urRead s h image (128 * count) with
      | .ok bs =>
        let progs := (List.range count).map (fun k => leWords 32 ((bs.drop (128 * k)).take 128))
        seq [urReadActs h image (128 * count) .mesh,
          each (List.range 24) fun n => seq [each progs.zipIdx (fun p => loadProgram n (first + p.2) p.1 (progOk p.1)),
            endLoad n (progs.any (fun ws => !progOk ws))],
          answer a 0 0]
      | _ => answer a 2 0
/-- PROG_LOAD as a host command: `count` programs. -/
def actProgLoad (c : CmdId) (image : DWord) (first count : Nat) : Act := look fun s =>
  if !c.reserved && (herdOfFn s c.fn).any (fun h => imageWaits s h image.toNat count) then nop
  else herdCmd c 0x18 (leBytes 8 image.toNat ++ leBytes 4 (first + 256 * (count - 1))) false (progBody image.toNat first count)

/-! ## Destruction (R516, R525) -/

/-- Every command of herd h that runs ends with status st; its parts at other members are forgotten (R516). -/
def endCommands (h st : Nat) : Act := look fun s =>
  let x := snapOf s h
  let asks := ((herdOf s h).bind (·.parking)).toList ++ (((herdOf s h).bind (·.mig)).map (·.asker)).toList ++ (((herdOf s h).bind (·.eval)).map (·.cmd)).toList ++
    (x.restore.bind (·.asker)).toList ++ (x.fetch.map (·.asker)).toList ++
    ((s.dumpRun.bind (fun d => if d.herd = h then d.cmd else none))).toList
  seq [each asks fun a => match a with
      | .host c => complete c st 0
      | .lead t p g => act (!isLead s) (answer (.lead t p g) st 0),
    each (s.hcmd.filter (fun o => decide (o.herd = h))) fun o => match o.cmd with
      | some c => complete c st 0
      | none => nop,
    look fun s => one (.hcmd (s.hcmd.filter (fun o => decide (o.herd ≠ h)))),
    setHerd h (fun x => { x with parking := none, eval := none, mig := none }), setSnap h (fun x => { x with restore := none, fetch := none }),
    look fun s => act (s.dumpRun.any (fun d => decide (d.herd = h) && d.cmd.isSome))
      (one (.dumpRun (s.dumpRun.map (fun d => { d with cmd := none }))))]

/-- Herd h is destroyed on this device. -/
def destroyHerd (h : Nat) : Act := look fun s =>
  match herdOf s h with
  | none => nop
  | some x =>
    seq [each x.sites releaseCore, disableRings h,
      one (.desc (s.desc.filter (fun d => decide (d.herd ≠ h)))), one (.merges (s.merges.filter (fun m => decide (m.herd ≠ h)))),
      one (.evalDue (s.evalDue.filter (fun e => decide (e.2 ≠ h)))), one (.coll (s.coll.filter (fun c => decide (c.herd ≠ h)))),
      one (.mc (s.mc.filter (fun g => decide (g.herd ≠ h)))),
      each (s.moves.filter (fun m => decide (m.herd = h))) cancelMove,
      look (fun s => freePages ((validPages s).filter (fun p => decide (eHerd (homeEntry s p) = h) && !eShared (homeEntry s p)))),
      each (s.extent.filter (fun e => decide (e.2.herd = h))) (fun e => leaveExtent e.1),
      each ((List.range 256).filter (fun t => bit (rd64 s (ssetReg t)) h)) (fun t => setMember t h false),
      each (s.ssetOwner.filter (fun e => decide (e.2 = h))) (fun e => look fun s =>
        act ((mGet s.ssetOwner e.1).isSome) (one (.ssetOwner e.1 (some 64)))),
      zeroGroups x.firstGroup x.ngroups, setHgrp h 0 0, one (.ctlReset (migHerd h) (migHerd h + 32)), clearSnap h,
      (match x.owner with
        | some f => wr (fnPageOf f.val + 0x100) 0
        | none => nop),
      one (.herd h none), rewriteFloor]

/-- HERD_DESTROY on one device. -/
def destroyBody (a : Asker) (h : Nat) : Act := seq [destroyHerd h, answer a 0 0]

/-- HERD_DESTROY: it waits for nothing; it ends the herd's other commands with status 7 and then runs. Of a pod herd the function stays
releasing until every member has answered. -/
def actHerdDestroy (c : CmdId) : Act :=
  hostCmd c (ownHerd c true fun h _ => look fun s =>
    let others := herdReach s h
    seq [endCommands h 7, setFnState h 4, spread c 9 h [] others fun a => destroyBody a h,
      act (!others.isEmpty) (wr (fnPageOf c.fn.val + 0x100) (BitVec.ofNat 32 (0x80000000 + h * 65536 + 4)))])

/-- NOP. -/
def actNopCommand (c : CmdId) : Act := hostCmd c (complete c 0 0)

/-- HERD_FAULT_TIMEOUT (R524 reason 7): no HERD_RESUME has followed a core's fault within 16,384 beads. -/
def actHerdFaultTimeout (h : Nat) : Act := look fun s =>
  match (herdOf s h).bind (·.faultBead) with
  | some b => act (decide (b + 16384 ≤ (beadNo s).toNat)) (failHerd h 7)
  | none => nop

end Sys2Proof.Machine
end

