-- ==== Sys2Proof/Machine/CoreRegs.lean ====
section
/-! DEFINITION. Writes of the registers of a core's pages and rod table (class H), with the states that take them (R131, R165, R247, R279, R303, R451), HERD_REGW (R478, R517) and evaluation slots (R528 to R531). -/

namespace Sys2Proof.Machine

/-- A write that a state rule governs: it is taken where ok holds, and else discarded with PROTOCOL in its page. -/
def ruled (ok : Bool) (p : Nat) (r : Requester) (eff : Act) : Bool × Act := (ok, if ok then eff else protocolAt p r)

/-- A write of SEQ_CTRL (R133, R136, R143, R144). DESIGN CHOICE (log entry 131): of several bits set, stop acts first, then resume, then
arm. -/
def seqCtrlWrite (r : Requester) (site : Nat) (v : Word) : Act :=
  seq [act (bit v 2) (stopCore site), act (bit v 1) (resumeCore r site), act (bit v 0) (armCore r site)]

/-- Whether that write is taken whole. -/
def seqCtrlOk (s : State) (site : Nat) (v : Word) : Bool :=
  (!bit v 1 || (decide (coreState s site = 8) && bit (rd s (seqPage site + 0x180)) 30 && !beadPassed s site)) &&
    (!bit v 0 || ([1, 6, 7, 8].contains (coreState s site) && !beadPassed s site))

/-- The write of word v at BAR0 offset a of a core's page or rod table window, header registers aside: whether it is taken, and its
effect. -/
def coreWrite (s : State) (r : Requester) (b : Block) (a : Nat) (v : Word) : Bool × Act :=
  let off := a % 4096
  let plain := maskWrite b a v
  match b with
  | .rod c => (r131 s c, rodWordWrite r c ((a - sitePage c 8) / 4) v)
  | .core c => (true, if off = 0x10C then rcCtrlWrite c v else plain)
  | .seq c =>
    if off = 0x100 then (seqCtrlOk s c v, seqCtrlWrite r c v)
    else if off = 0x110 ∨ off = 0x114 then ruled (r131 s c || decide (coreState s c = 6)) (seqPage c) r plain
    else if off = 0x1A8 then (r131 s c && !(bit v 31 && decide (2047 < fld v 10 0 + fld v 26 16)), rloadWrite r c v)
    else if off = 0x108 ∨ (0x160 ≤ off ∧ off < 0x180) ∨ off = 0x1A0 ∨ off = 0x1A4 ∨ (0x200 ≤ off ∧ off < 0x300) then
      ruled (r131 s c) (seqPage c) r plain
    else (true, plain)
  | .tile c =>
    if 0x100 ≤ off ∧ off < 0x140 then
      let n := (off - 0x100) / 8
      ([0, 1, 6, 7, 8].contains (coreState s c),
        if off % 8 = 0 then tcWrite r c n (some v) none else tcWrite r c n none (some v))
    else (true, plain)
  | .cube c =>
    if off = 0x108 then
      (!(bit v 31 && decide (39 ≤ fld v 29 24) || (bit v 31 && bit v 30 && decide (38 ≤ fld v 29 24))), cubeInjWrite r c v)
    else if 0x420 ≤ off ∧ off < 0xC00 then ruled (r131 s c) (cubePage c) r plain
    else (true, plain)
  | .vu c =>
    if (0x840 ≤ off ∧ off < 0x880) ∨ off = 0x800 ∨ off = 0x804 ∨ (0x140 ≤ off ∧ off < 0x180) ∨ off = 0x200 ∨ off = 0x204 then
      ruled (r131 s c) (vuPage c) r plain
    else (true, plain)
  | .tly c =>
    if 0x100 ≤ off ∧ off < 0x120 then (true, flagWrite c ((off - 0x100) / 4) v true)
    else if 0x120 ≤ off ∧ off < 0x140 then (true, flagWrite c ((off - 0x120) / 4) v false)
    else if 0x1C0 ≤ off ∧ off < 0x240 then ruled (r131 s c) (tlyPage c) r plain
    else (true, plain)
  | _ => (true, plain)

/-- The write of both words of a pair (R30): of a register of 64 bits that refuses it, one refusal. -/
def corePair (s : State) (r : Requester) (b : Block) (a : Nat) (lo hi : Word) : Bool × Act :=
  let off := a % 4096
  let x := coreWrite s r b a lo
  let halves := (x.1 && (coreWrite s r b (a + 4) hi).1, if x.1 then seq [x.2, look fun s => (coreWrite s r b (a + 4) hi).2] else x.2)
  match b with
  | .tile c => if 0x100 ≤ off ∧ off < 0x140 then (x.1, tcWrite r c ((off - 0x100) / 8) (some lo) (some hi)) else halves
  | _ => halves

/-! ## HERD_REGW (R517) -/

/-- Whether a list entry is taken, and its effect on core c: a write to class H under the function's right, of one word or of a pair. -/
def regwAt (s : State) (r : Requester) (c off : Nat) (v : Word) (hi : Option Word) : Bool × Act :=
  let a := sitePage c 0 + off
  let b := blockOf s (a / 4096)
  let o := off % 4096
  if b.coreSite ≠ some c ∨ off % 4 ≠ 0 then (false, refuseAccess r)
  else if !b.isWindow && (decide (o = 0x10) || decide (o = 0x28)) then (false, refuseAccess r)
  else if !b.isWindow && (rstBusy s (a / 4096 * 4096) || (fenced s (a / 4096 * 4096) && !decide (o = 0x20))) then (false, nop)
  else match hi with
    | none => coreWrite s r b a v
    | some w => corePair s r b a v w

/-- One entry on this device: whether it is taken, and its effect. -/
def regwEntry (s : State) (h : Nat) (e : RegwEntry) : Bool × Act :=
  let r : Requester := match ownerOf s h with
    | some f => .fn f
    | none => .ringCtl
  match siteAt s h e.hidx with
  | none => (false, refuseAccess r)
  | some c =>
    if !e.wide then regwAt s r c e.offset.toNat (loWord e.value) none
    else if e.offset.toNat % 8 ≠ 0 then (false, refuseAccess r)
    else regwAt s r c e.offset.toNat (loWord e.value) (some (hiWord e.value))

/-- Entries in order until one is refused; then `done` gets how many were applied and whether all were. -/
def regwList (h : Nat) (applied : Nat) (done : Nat → Bool → Act) : List RegwEntry → Act
  | [] => done applied true
  | e :: es => look fun s =>
    let x := regwEntry s h e
    if x.1 then seq [x.2, regwList h (applied + 1) done es] else seq [x.2, done applied false]

/-- A refused entry ends its part with status 0x02 (log entry 41). -/
def regwPart (h : Nat) (es : List RegwEntry) (a : Asker) : Act :=
  regwList h 0 (fun n ok => answerN a (if ok then 0 else 2) n (BitVec.ofNat 64 n)) es

/-- A list cut into parts of n. -/
def cutList (n : Nat) (es : List RegwEntry) : List (List RegwEntry) :=
  (List.range (ceilDiv es.length n)).map fun k => (es.drop (n * k)).take n

/-- The runs of consecutive entries for one member. -/
def regwRuns : List RegwEntry → List (Nat × List RegwEntry)
  | [] => []
  | e :: es =>
    let p := e.member.toNat
    match regwRuns es with
    | (q, xs) :: rest => if q = p then (p, e :: xs) :: rest else (p, [e]) :: (q, xs) :: rest
    | [] => [(p, [e])]

/-- The parts of a list (R478): consecutive entries for one member, at most 9 to another member's part. -/
def regwParts (own : Nat) (es : List RegwEntry) : List (Nat × List RegwEntry) :=
  (regwRuns es).flatMap fun r => if r.1 = own then [r] else (cutList 9 r.2).map (fun p => (r.1, p))

/-- The next part of a HERD_REGW goes out (R478): the lead's own entries are applied directly and take no part number. Bounded by the number
of parts. -/
def nextPart (htag : Nat) : Nat → Act
  | 0 => nop
  | fuel + 1 => look fun s =>
    match s.hcmd.find? (fun o => decide (o.htag = htag)) with
    | none => nop
    | some o => match o.parts with
      | [] => nop
      | (p, es) :: rest =>
        let own := decide (p = ownPos s)
        act (o.waiting.isEmpty) (seq [
          one (.hcmd (s.hcmd.map (fun x => if x = o then { o with parts := rest, waiting := [p], part := o.part + b2n (!own) } else x))),
          if own then seq [regwPart o.herd es (.lead htag o.part o.herd), nextPart htag fuel]
          else sendHcmd p htag o.herd o.part (rest.all (fun r => decide (r.1 = ownPos s))) 3 ((o.cmd.map (·.tag.toNat)).getD 0) o.params es])

/-- HERD_REGW: on a pod herd the lead walks the list by parts, whose HCMDs carry its entry count (log entry 39). -/
def actHerdRegw (c : CmdId) (es : List RegwEntry) : Act := look fun s =>
  if !c.reserved && (herdOfFn s c.fn).any (herdBusy s) then nop
  else hostCmd c (ownHerd c false fun h x => look fun s =>
    if es.isEmpty || decide (512 < es.length) then complete c 2 0
    else if x.parked then complete c 3 0
    else if (herdMembers s h).isEmpty then
      regwList h 0 (fun n ok => complete c (if ok then 0 else 2) (BitVec.ofNat 64 n)) es
    else
      let t := s.htag
      seq [stepHtag, one (.hcmd (s.hcmd ++ [⟨t, some c, 3, h, [], 0, regwParts (ownPos s) es, 0, 0, 0,
        leBytes 8 0 ++ leBytes 8 es.length⟩])), nextPart t (es.length + 1)])

/-! ## Evaluation slots (R528 to R531) -/

/-- EVAL is taken: every core of the herd halts at the chosen step boundary (R529). -/
def evalBody (p : EvalParams) (a : Asker) (h : Nat) : Act := look fun s =>
  match herdOf s h with
  | none => answer a 6 0
  | some x =>
    if x.parked then answer a 3 0
    else if 2047 < p.startRow ∨ 2047 < p.rowsM1 ∨ 2047 < p.trainRowsM1 ∨ 65535 < p.nb ∨ 1023 < p.list.length then answer a 2 0
    else seq [each x.sites fun c => setCore c (fun x => { x with evalAt := some (p.afterStep + 1) }),
      setHerd h (fun x => { x with eval := some ⟨a, p, 0, 0, 0, [], []⟩ })]

/-- The parameters of EVAL as R528 lays them out. -/
def evalBytes (p : EvalParams) : List Byte :=
  leBytes 8 p.image.toNat ++ leBytes 4 (p.rowsM1 + 65536 * p.startRow) ++ leBytes 4 0 ++ leBytes 8 p.trainImage.toNat ++
    leBytes 4 p.trainRowsM1 ++ leBytes 4 p.afterStep.toNat ++ leBytes 8 p.nb ++ leBytes 8 0 ++ leBytes 8 p.list.length

/-- A member's part of an EVAL (log entry 39): its entries travel in HCMDs of at most 9, and it takes the command with the last of them. -/
def evalPart (p : EvalParams) (last : Bool) (a : Asker) (h : Nat) : Act := look fun s =>
  let got := ((herdOf s h).map (·.evalGot)).getD [] ++ p.list
  if last then seq [setHerd h (fun x => { x with evalGot := [] }), evalBody { p with list := got } a h]
  else setHerd h (fun x => { x with evalGot := got })

/-- EVAL. -/
def actEval (c : CmdId) (p : EvalParams) : Act := look fun s =>
  if !c.reserved && (herdOfFn s c.fn).any (herdBusy s) then nop
  else hostCmd c (ownHerd c false fun h _ => look fun s =>
    let others := herdMembers s h
    if others.isEmpty then evalBody p (.host c) h
    else
      let t := s.htag
      let mine (q : Nat) : List RegwEntry := p.list.filter (fun e => decide (e.member.toNat = q))
      let parts (q : Nat) : List (List RegwEntry) := if (mine q).isEmpty then [[]] else cutList 9 (mine q)
      seq [stepHtag, one (.hcmd (s.hcmd ++ [⟨t, some c, 0x1A, h, ownPos s :: others, 0, [], 0, 0, 0, evalBytes p⟩])),
        each others fun q => each (parts q).zipIdx fun es =>
          sendHcmd q t h es.2 (decide (es.2 + 1 = (parts q).length)) 0x1A c.tag.toNat (evalBytes p) es.1,
        evalBody { p with list := mine (ownPos s) } (.lead t 0 h) h])

/-- The words of the training context (R530): SEQ_PC, loop counters, path bits, tile cursors, VU_BSC0–1, the tally flags, counters with
their early sums and TLY_STEP, and every RW field of the core's SEQ_, TILE_, CUBE_, VU_ and TLY_ pages, BLK_CTRL's and BLK_IEN's among them. -/
def contextWords (site : Nat) : List Nat :=
  let q := seqPage site
  let pages : List (Nat × Block) := [(q, .seq site), (tilePage site, .tile site), (cubePage site, .cube site), (vuPage site, .vu site),
    (tlyPage site, .tly site)]
  let rw := pages.flatMap fun p => p.2.regs.flatMap fun d =>
    if d.rw = 0 then [] else (List.range d.n).map (fun k => p.1 + d.off + d.stride * k)
  pages.map (fun p => p.1 + 0x10) ++ pages.map (fun p => p.1 + 0x24) ++ [q + 0x118, q + 0x140] ++ (List.range 8).map (fun k => q + 0x120 + 4 * k) ++
    (List.range 8).map (fun k => vuPage site + 0x1C0 + 4 * k) ++ (List.range 8).map (fun k => vuPage site + 0x1E0 + 4 * k) ++
    [vuPage site + 0x180, vuPage site + 0x184] ++ (List.range 8).map (fun k => tlyPage site + 0x100 + 4 * k) ++
    (List.range 32).map (fun k => tlyPage site + 0x140 + 4 * k) ++ [tlyPage site + 0x240] ++ rw

/-- A rod image of n rows at unified-range address a is loaded into a core (R134). -/
def loadImage (site a n : Nat) : Act :=
  seq [wr64 (seqPage site + 0x1A0) (BitVec.ofNat 64 (a / 16 * 16)), wr (seqPage site + 0x1A8) (BitVec.ofNat 32 ((n - 1) * 65536)),
    runRload site]

/-- Whether the page of an image is moving. -/
def imageMoves (s : State) (h a n : Nat) : Bool := (pageParts a (16 * n)).any (fun p => decide (judge s h p.1 false = .waits))

/-- EVAL_SWITCH (R530): every core has halted at the boundary; contexts are saved, the list applied, the evaluation image loaded, and
every core armed at its start row. -/
def actEvalSwitch (h : Nat) : Act := look fun s =>
  match (herdOf s h).bind (fun x => x.eval.map (fun e => (x, e))) with
  | none => nop
  | some (x, e) =>
    let b := beadNo s + 2
    if e.phase ≠ 0 || !(x.sites.all (fun c => decide (coreState s c = 7) && decide (fld (rd s (seqPage c + 0x104)) 23 16 = 0xFE)))
      || imageMoves s h e.params.image.toNat (e.params.rowsM1 + 1) then nop
    else
      let saved := x.sites.flatMap (fun c => (contextWords c).map (fun w => (w, rd s w)))
      seq [setHerd h (fun x => { x with eval := some { e with phase := 1, startBead := b.toNat, haltBead := (x.stepBeads.head?).getD 0, saved := saved,
                                                              savedX := x.sites.map (fun c => (c, (coreX s c).mirror)) } }),
        regwList h 0 (fun _ _ => nop) e.params.list,
        each x.sites fun c => seq [loadImage c e.params.image.toNat (e.params.rowsM1 + 1),
          wrFld (seqPage c + 0x108) 10 0 e.params.startRow, wr64 (seqPage c + 0x110) b, armCore .ringCtl c]]

/-- Whether an evaluation slot that runs may be asked to end: nb beads have passed. -/
def evalOver (s : State) (e : EvalCtx) : Bool := decide (e.startBead + e.params.nb ≤ (beadNo s).toNat)

/-- EVAL_RESTORE (R530): every core has halted again, or nb beads have passed and every core is stopped first; contexts and the training
image return, and the training program is armed. -/
def actEvalRestore (h : Nat) : Act := look fun s =>
  match (herdOf s h).bind (fun x => x.eval.map (fun e => (x, e))) with
  | none => nop
  | some (x, e) =>
    let halted := x.sites.all (fun c => decide (coreState s c = 7))
    let b := beadNo s + 2
    if e.phase = 0 ∨ e.phase = 3 then nop
    else if !halted then act (evalOver s e && decide (e.phase = 1)) (seq [each x.sites stopCore,
      setHerd h (fun x => { x with eval := some { e with phase := 2 } })])
    else if imageMoves s h e.params.trainImage.toNat (e.params.trainRowsM1 + 1) then nop
    else seq [each x.sites (fun c => loadImage c e.params.trainImage.toNat (e.params.trainRowsM1 + 1)),
      each e.saved (fun p => wr p.1 p.2),
      each e.savedX (fun p => setCore p.1 (fun x => { x with mirror := p.2, figs := [] })),
      each x.sites (fun c => seq [wr64 (seqPage c + 0x110) b, armCore .ringCtl c,
        setCore c (fun x => { x with armKind := 3 })]),
      setHerd h (fun x => { x with eval := none }),
      answer e.cmd 0 (BitVec.ofNat 64 ((b.toNat - e.haltBead) % 65536 + 65536 * b2n (decide (e.phase = 2))))]

end Sys2Proof.Machine
end

