-- ==== Sys2Proof/Machine/HostReset.lean ====
section
/-! DEFINITION. Function Level Reset, virtual functions, host port resets and links (R502 to R504, R532). -/

namespace Sys2Proof.Machine

/-- A pod herd that this device leads is destroyed at the other members by HCMD; no host command waits for the answers. -/
def destroyAtMembers (h : Nat) : Act := look fun s =>
  let others := herdReach s h
  let t := s.htag
  act (!others.isEmpty) (seq [stepHtag, one (.hcmd (s.hcmd ++ [⟨t, none, 9, h, others, 0, [], 0, 0, 0, []⟩])),
    each others fun p => sendHcmd p t h 0 true 9 0 [] []])

/-- HP_FN_STAT of a function that is reset: releasing while the members of its pod herd destroy it (R525, R532). -/
def resetFnStat (s : State) (f : FnNo) : Word :=
  match herdOfFn s f with
  | some h => if (herdMembers s h).isEmpty then 0 else BitVec.ofNat 32 (0x80000000 + h * 65536 + 4)
  | none => if fnReleasing s f then rd s (fnPageOf f.val + 0x100) else 0

/-- A function is reset (R532): its herd is destroyed under R525, its rings, notice ring, MSI-X table and HP_FN_BAR2BASE return to their
reset values, and its commands in progress end without completions. -/
def resetFunction (f : FnNo) : Act := look fun s =>
  seq [(match herdOfFn s f with
      | some h => seq [endCommands h 7, destroyAtMembers h, destroyHerd h]
      | none => nop),
    one (.ctlReset (fnPageOf f.val + 0x108) (fnPageOf f.val + 0x1000)),
    wr (fnPageOf f.val + 0x100) (resetFnStat s f), one (.busyRingKeep (fun k => decide (k / 16 ≠ f.val))), one (.phaseKeep (fun k => decide (k / 17 ≠ f.val))),
    look fun s => one (.completions (s.completions.filter (fun c => decide (c.fn ≠ f)))),
    look fun s => one (.notices (s.notices.filter (fun n => decide (n.fn ≠ f)))),
    look fun s => one (.hcmd (s.hcmd.map (fun o => if o.cmd.any (fun c => decide (c.fn = f)) then { o with cmd := none } else o)))]

/-- Every member has destroyed herd h: the functions whose HP_FN_STAT still names it as releasing own none (R525). -/
def endReleasing (h : Nat) : Act := look fun s =>
  each ((List.range 64).filter (fun f => decide (fld (rd s (fnPageOf f + 0x100)) 2 0 = 4) &&
      decide (fld (rd s (fnPageOf f + 0x100)) 21 16 = h))) fun f => wr (fnPageOf f + 0x100) 0

/-- FUNCTION_LEVEL_RESET. -/
def actFunctionLevelReset (f : FnNo) : Act := look fun s => act (fnExists s f.val) (resetFunction f)

/-- Function 16 × k + v. -/
def fnOf (k : HpNo) (v : Nat) : FnNo := ⟨(16 * k.val + v) % 64, Nat.mod_lt _ (by decide)⟩

/-- VF_ENABLE_CLEAR: every virtual function of the port is reset and is no more. -/
def actVfEnableClear (k : HpNo) : Act := look fun s =>
  seq [each ((List.range 16).filter (fun v => decide (0 < v) && fnExists s (16 * k.val + v))) (fun v => resetFunction (fnOf k v)),
    one (.numVfs k.val none)]

/-- VF_ENABLE_SET (R504): up to 15 virtual functions come into existence. -/
def actVfEnableSet (k : HpNo) (n : Nat) : Act := look fun s =>
  act (decide (k.val < hpPorts s) && decide (n ≤ 15) && (mGet s.numVfs k.val).isNone)
    (one (.numVfs k.val (if n = 0 then none else some n)))

/-- A host port loses its link (R532): its functions are reset, its far extents are lost, and a notice of kind 4 waits for the physical
function's notice ring. -/
def resetPort (k : HpNo) : Act := look fun s =>
  seq [act (hostUp s k.val) (count (hpPage k.val) 5 1), wr (hpPage k.val + 0x100) 0,
    each (s.extent.filter (fun e => decide (e.2.port = k))) (fun e => loseExtent e.1),
    each ((List.range 16).filter (fun v => fnExists s (16 * k.val + v))) (fun v => resetFunction (fnOf k v)),
    one (.numVfs k.val none), one (.bar2LogKeep (fun f => decide (f / 16 ≠ k.val))),
    look fun s => each (s.extent.filter (fun e => decide (e.2.port = k))) (fun e => act (decide (e.2.herd < 64)) (failHerd e.2.herd 3)),
    notify (fnOf k 0) 4 0 0 (beadNo s) []]

/-- HOST_PORT_RESET: link down, hot reset or link disable. -/
def actHostPortReset (k : HpNo) : Act := look fun s => act (decide (k.val < hpPorts s)) (resetPort k)

/-- HOST_LINK_UP: the port, released by perst_n, is up with the negotiated width, speed and mode; 64 GT/s needs FLIT mode (R501). -/
def actHostLinkUp (k : HpNo) (width : Nat) (speed : BitVec 3) (flit : Bool) : Act := look fun s =>
  act (decide (k.val < hpPorts s) && s.perst.contains k.val && !hostUp s k.val && [1, 2, 4, 8, 16].contains width &&
      decide (width ≤ hpLanes s) && decide (speed ≠ 0) && decide (speed ≠ 7) && (flit || decide (speed ≠ 6)))
    (wr (hpPage k.val + 0x100) (BitVec.ofNat 32 (8192 * b2n flit + 256 * width + 16 * speed.toNat + 1)))

end Sys2Proof.Machine
end

