-- ==== Sys2Proof/Machine/Snap.lean ====
section
/-! DEFINITION. Snapshots and mirrors (R533 to R557, R570): the settings, the capture of entries, the store's records, commits and verification, mirrors, and the interval. -/

namespace Sys2Proof.Machine

/-! ## The protection list (R535, R536) -/

/-- The bytes of an entry by word. -/
def plWord (bs : List Byte) (k : Nat) : Nat := leNat ((bs.drop (4 * k)).take 4)

/-- A protection-list entry from its 32 bytes (R535). -/
def parseEntry (bs : List Byte) : SnapEntry :=
  let w := plWord bs
  { page := bits (w 0) 25 0, npages := bits (w 1) 15 0, frozen := (w 1).testBit 16, rep := (w 1).testBit 17,
    method := bits (w 1) 19 18, gfirst := bits (w 2) 15 0, gvalid := (w 2).testBit 16, gcount := bits (w 3) 15 0,
    ndesc := bits (w 3) 31 16, counts := [], final := false, captured := false, useM := false, changedSince := false,
    based := false, inBase := false, digests := [], stored := 1, kept := [] }

/-- The 32 bytes of an entry (R535). -/
def plBytes (e : SnapEntry) : List Byte :=
  leBytes 4 e.page ++ leBytes 4 (e.npages + 65536 * b2n e.frozen + 131072 * b2n e.rep + 262144 * e.method) ++
    leBytes 4 (e.gfirst + 65536 * b2n e.gvalid) ++ leBytes 4 (e.gcount + 65536 * e.ndesc) ++ List.replicate 16 0

/-- Whether an entry has a reserved field set, no page, or is grouped with ndesc 0 (R535, R536). -/
def plBad (bs : List Byte) : Bool :=
  let w := plWord bs
  decide (bits (w 0) 31 26 ≠ 0) || decide (bits (w 1) 31 20 ≠ 0) || decide (bits (w 1) 19 18 = 3) ||
    decide (bits (w 2) 31 17 ≠ 0) || (bs.drop 16).any (fun x => decide (x ≠ 0)) || decide (bits (w 1) 15 0 = 0) ||
    ((w 2).testBit 16 && decide (bits (w 3) 31 16 = 0))

/-- Whether an entry names a page that herd h does not own, or a shared page it may not protect (R536). -/
def plForeign (s : State) (h : Nat) (e : SnapEntry) : Bool :=
  (List.range e.npages).any fun i =>
    let x := homeEntry s (e.page + i)
    decide (2 ^ 26 ≤ e.page + i) || !eValid x || decide (eHerd x ≠ h) || (eShared x && !entryFrozen s e)

/-- Whether two entries of a list overlap. -/
def plOverlap : List SnapEntry → Bool
  | [] => false
  | e :: es => es.any (fun f => decide (e.page < f.page + f.npages) && decide (f.page < e.page + e.npages)) || plOverlap es

/-- The protection list of n entries at unified-range address a, where it can be read. -/
def readList (s : State) (h a n : Nat) : Access := urRead s h a (32 * n)

/-- The 32-byte pieces of a list. -/
def plPieces (bs : List Byte) (n : Nat) : List (List Byte) := (List.range n).map (fun i => (bs.drop (32 * i)).take 32)

/-- SNAP_CFG's status 2 (R536, R553, R554, and fields out of their ranges). -/
def cfgBad (s : State) (h : Nat) (p : SnapParams) (bs : List Byte) : Bool :=
  let ps := plPieces bs p.entries
  let es := ps.map parseEntry
  let pod := (herdOf s h).any (·.pod) && podEn s
  decide (p.kmax = 0) || decide (65535 < p.kmax) || ps.any plBad || es.any (plForeign s h) || plOverlap es ||
    decide (192 < (es.filter (fun e => !e.gvalid)).foldl (fun n e => n + e.npages) 0) ||
    (decide (p.baxis.val = 3) && es.any (fun e => decide (e.method = 2))) || (decide (p.baxis.val ≠ 3) && !pod) ||
    (decide (p.baxis.val ≠ 3) && decide (axisSize s p.baxis.val = 1)) || (p.pcie && pod)

/-- The first frame of a mirror region of n pages for herd h, where the mirror area has room (R351, R553). -/
def mirrorRegion (s : State) (h n : Nat) : Option Nat :=
  lowestFree ((s.snap.filter (fun x => decide (x.1 ≠ h))).filterMap (fun x =>
    x.2.region.bind (fun r => x.2.params.map (fun p => (r, p.mquota))))) 0 60488 n

/-- SNAP_CFG is checked and installed (R536, R539, R553, R554). -/
def cfgBody (p : SnapParams) (a : Asker) (h : Nat) : Act := look fun s =>
  let x := snapOf s h
  if x.cur.isSome then answer a 3 0
  else if 4096 < p.entries then answer a 2 0
  else match readList s h p.list.toNat p.entries with
    | .ok bs =>
      let es := (plPieces bs p.entries).map parseEntry
      let fixed := (es.filter (fun e => decide (e.method = 2) && !entryFrozen s e)).foldl (fun n e => n + e.npages) 0
      let region := mirrorRegion s h p.mquota
      if cfgBad s h p bs then answer a 2 0
      else if (decide (p.baxis.val ≠ 3) && (region.isNone || decide (p.mquota / 2 < fixed))) then answer a 1 0
      else seq [urReadActs h p.list.toNat (32 * p.entries) .ring, each es (frozenReads h),
        setSnap h (fun x => { x with
          params := some p, entries := es, now := false, cap := none, capMirror := false, half := 0, gen := none, retained := none,
          mirrorOut := [],
          region := if p.baxis.val = 3 then none else region }),
        wr (snapReg h) (BitVec.ofNat 32 (0x80000000 * b2n p.en + 0x40000000 * b2n p.pcie + 0x10000000 * p.baxis.val +
          0x4000000 * p.raxis.val + p.kmax)),
        snapStatus h, answer a 0 (BitVec.ofNat 64 p.entries)]
    | _ => answer a 2 0

/-- SNAP_CFG's parameters as R570 lays them out. -/
def cfgBytes (p : SnapParams) : List Byte :=
  leBytes 8 p.list.toNat ++ leBytes 4 p.entries ++ leBytes 4 (p.kmax + 65536 * b2n p.en) ++
    leBytes 4 (b2n p.pcie + 4 * p.baxis.val + 16 * p.raxis.val + 64 * p.capFlag.toNat) ++ leBytes 4 0 ++
    leBytes 8 p.base.toNat ++ leBytes 4 p.slotMiB ++ leBytes 4 (p.mquota + 65536 * p.rmin)
/-- The parameters that those bytes give. -/
def cfgParams (bs : List Byte) : SnapParams :=
  let w := plWord bs
  { list := BitVec.ofNat 64 (leNat (bs.take 8)), entries := bits (w 2) 12 0, kmax := bits (w 3) 15 0, en := (w 3).testBit 16,
    pcie := decide (bits (w 4) 1 0 = 1), baxis := ⟨bits (w 4) 3 2 % 4, Nat.mod_lt _ (by decide)⟩,
    raxis := ⟨bits (w 4) 5 4 % 4, Nat.mod_lt _ (by decide)⟩, capFlag := BitVec.ofNat 8 (bits (w 4) 13 6),
    base := BitVec.ofNat 64 (leNat ((bs.drop 24).take 8)), slotMiB := w 8, mquota := bits (w 9) 15 0, rmin := bits (w 9) 31 16 }

/-- A member that holds no core of the herd and is the buddy of one that does keeps the mirror region (R553): status 1 when it lacks the frames. -/
def regionBody (p : SnapParams) (a : Asker) (h : Nat) : Act := look fun s =>
  let region := mirrorRegion s h p.mquota
  if p.baxis.val = 3 then answer a 0 0
  else if region.isNone then answer a 1 0
  else seq [setSnap h (fun x => { x with params := some p, region := region }), answer a 0 0]

/-- SNAP_CFG: it waits while a page of the list moves. On a pod the buddies that hold no core of the herd have it too. -/
def actSnapCfg (c : CmdId) (p : SnapParams) : Act := look fun s =>
  if !c.reserved && (herdOfFn s c.fn).any (fun h => herdBusy s h || decide (readList s h p.list.toNat p.entries = .wait)) then nop
  else hostCmd c (ownHerd c true fun h _ => look fun s =>
    let others := herdMembers s h
    spread c 0x20 h (cfgBytes p) (if others.isEmpty then [] else others ++ outerBuddies s h p.baxis.val) fun a => cfgBody p a h)

/-- SNAP_MTBF (R556). -/
def mtbfBody (mf : Word) (w : Byte) (reset : Bool) (a : Asker) (h : Nat) : Act :=
  seq [wr (snapReg h + 0x20) mf, wrFld (snapReg h + 0x28) 23 16 w.toNat,
    act reset (seq [wr (snapReg h + 0x24) 0, wrFld (snapReg h + 0x28) 15 0 0]), answer a 0 0]
/-- SNAP_MTBF as a host command. -/
def actSnapMtbf (c : CmdId) (mf : Word) (w : Byte) (reset : Bool) : Act :=
  herdCmd c 0x21 (leBytes 4 mf.toNat ++ leBytes 4 (w.toNat + 256 * b2n reset)) true (mtbfBody mf w reset)

/-- The step that the herd's cores run, VU_STEPIDX of its first core. -/
def runStep (s : State) (h : Nat) : Nat := ((siteAt s h 0).map (fun c => (rd64 s (vuPage c + 0x820)).toNat)).getD 0

/-- SNAP_NOW (R540): the snapshot of the running step is asked for; refused while snapshots are disabled. -/
def nowBody (a : Asker) (h : Nat) : Act := look fun s =>
  if snapEn s h then seq [setSnap h (fun x => { x with now := true }), answer a 0 (BitVec.ofNat 64 (runStep s h))]
  else answer a 3 0
/-- SNAP_NOW as a host command. -/
def actSnapNow (c : CmdId) : Act := herdCmd c 0x22 [] true nowBody

/-- SNAP_STAT. -/
def statBody (a : Asker) (h : Nat) : Act := look fun s => answer a 0 (BitVec.ofNat 64 (snapLast s h))
/-- SNAP_STAT as a host command. -/
def actSnapStat (c : CmdId) : Act := herdCmd c 0x23 [] true statBody

/-- What is in progress for herd h is abandoned (R544). -/
def abandonAll (h : Nat) : Act := look fun s =>
  let x := snapOf s h
  match x.cur with
  | some st => seq [act x.capMirror (dropMirror h), abandonSnapshot h st true]
  | none => act x.capMirror (abandonMirror h)

/-- SNAP_OFF. -/
def offBody (a : Asker) (h : Nat) : Act :=
  seq [abandonAll h, setSnap h (fun x => { x with now := false }), wrBit (snapReg h) 31 false, snapStatus h, answer a 0 0]
/-- SNAP_OFF as a host command. -/
def actSnapOff (c : CmdId) : Act := herdCmd c 0x26 [] true offBody

/-! ## Records of the store (R545 to R548) -/

/-- The bytes of a record: 4 KiB of header area and 1 MiB of data. -/
def recordBytes : Nat := 1052672
/-- Pages of a chunk. -/
def chunkPages : Nat := 16
/-- The chunks of an entry. -/
def chunksOf (e : SnapEntry) : Nat := ceilDiv e.npages chunkPages
/-- Whether herd h is a pod herd here. -/
def isPodHerd (s : State) (h : Nat) : Bool := podEn s && (herdOf s h).any (·.pod)
/-- This member's position for the store of herd h: 0 for a herd outside a pod (R545). -/
def storePos (s : State) (h : Nat) : Nat := if isPodHerd s h then ownPos s else 0
/-- The start of a slot of a member's store region: 0 the base slot, 1 and 2 slots 0 and 1. -/
def storeSlot (s : State) (h : Nat) (x : Snap) (slot : Nat) : Nat :=
  match x.params with
  | some p => p.base.toNat + (3 * storePos s h + slot) * p.slotMiB * 1048576
  | none => 0
/-- The slot that the snapshot in progress is written into (R545). -/
def curSlot (x : Snap) : Nat := 1 + x.verified % 2
/-- The record of chunk k of entry i; records are numbered over all entries, frozen ones among them. -/
def recordNo (x : Snap) (i k : Nat) : Nat := 1 + (x.entries.take i).foldl (fun n e => n + chunksOf e) 0 + k

/-- The byte of an unreadable block as the engine sees it: a free value. -/
def freeBlock (s : State) : List Byte := (List.range 64).map (fun i => BitVec.ofNat 8 (freeAt s i))

/-- The 65,536 bytes of page p as the snapshot engine reads them at its home. -/
def pageBytes (s : State) (p : Nat) : List Byte :=
  let e := homeEntry s p
  if !eValid e then List.replicate 65536 0
  else if eFar e then (List.range 65536).map (farByte s (eExt e) (eFarPage e))
  else (List.range 1024).flatMap (fun j => (readBlk s (1024 * eHome e + j)).getD (freeBlock s))

/-- The bytes of a staging frame. -/
def stagedBytes (s : State) (f : Nat) : List Byte := (List.range 1024).flatMap (fun j => (readBlk s (1024 * f + j)).getD (freeBlock s))

/-- Page j of entry e as captured: an ungrouped entry's from its staging frame (R543). -/
def capturedPage (s : State) (h : Nat) (x : Snap) (e : SnapEntry) (j : Nat) : List Byte :=
  if e.gvalid then pageBytes s (e.page + j)
  else match (stagedPages x).find? (fun q => decide (q.1 = e.page + j)) with
    | some q => stagedBytes s (stagingFrame s h + q.2)
    | none => pageBytes s (e.page + j)

/-- The attr byte of a page (R546). -/
def attrByte (s : State) (p : Nat) : Byte :=
  let e := homeEntry s p
  BitVec.ofNat 8 ((if eFar e then 0 else eHome e % 24) + 32 * b2n (eWr e) + 64 * b2n (ePinned e) + 128 * b2n (eFar e))

/-- Header bytes 0x00 to 0x2F (R546, R547). -/
def chunkHead (s : State) (h kind method entry step chunk len addr last : Nat) : List Byte :=
  leBytes 4 0x534E5847 ++ leBytes 4 (kind + 256 + 65536 * method) ++
    leBytes 4 ((if isPodHerd s h then fld (rd s (bxPage 0 + 0x800)) 15 0 else 0) + 65536 * storePos s h + 4194304 * h) ++
    leBytes 4 entry ++ leBytes 8 step ++ leBytes 4 chunk ++ leBytes 4 len ++ leBytes 8 addr ++ leBytes 8 last

/-- A chunk record and its digest. -/
def chunkRecord (head attr data : List Byte) : List Byte × List Byte :=
  let d := sha384 (head ++ data)
  (padTo 4096 (head ++ d ++ padTo 16 attr) ++ data, d)

/-- The method field of an entry's record. -/
def methodOf (s : State) (e : SnapEntry) : Nat := if entryFrozen s e then 3 else if e.useM then 2 else 1

/-- Chunk k of entry i of a snapshot of step st. -/
def entryChunk (s : State) (h : Nat) (x : Snap) (st : Nat) (e : SnapEntry) (i k : Nat) : List Byte × List Byte :=
  let n := min chunkPages (e.npages - chunkPages * k)
  let data := (List.range n).flatMap (fun j => capturedPage s h x e (chunkPages * k + j))
  chunkRecord (chunkHead s h 1 (methodOf s e) i st k (65536 * n) (65536 * (e.page + chunkPages * k)) 0)
    ((List.range n).map (fun j => attrByte s (e.page + chunkPages * k + j))) data

/-- The group entries of a herd's range. -/
def groupBytes (s : State) (h : Nat) : List Byte :=
  match herdOf s h with
  | some x => (List.range (32 * x.ngroups)).map (fun i => tableByte s (groupEntryAddr s x.firstGroup + i))
  | none => []

/-- The reads of a herd's group entries (R392, R394). -/
def groupReads (h : Nat) : Act := look fun s =>
  match herdOf s h with
  | some x => each (List.range (ceilDiv x.ngroups 2)) fun i => tableRead (groupEntryAddr s (x.firstGroup + 2 * i)) (some h)
  | none => nop

/-- Chunk k of the group entries. -/
def groupChunk (s : State) (h st k : Nat) : List Byte × List Byte :=
  let data := ((groupBytes s h).drop (1048576 * k)).take 1048576
  let first := ((herdOf s h).map (·.firstGroup)).getD 0
  chunkRecord (chunkHead s h 1 1 0xFFFF st k data.length (32 * first + 1048576 * k) 0) [] data

/-- The chunks of the group entries. -/
def groupChunks (s : State) (h : Nat) : Nat := ceilDiv (groupBytes s h).length 1048576

/-- A write cut into frames of at most 4,096 bytes, each with its address. -/
def pieces (a : Nat) (bs : List Byte) : List (Nat × List Byte) :=
  (List.range (ceilDiv bs.length 4096)).map (fun i => (a + 4096 * i, (bs.drop (4096 * i)).take 4096))

/-- One level of the digest tree from the level below: nodes of up to 16. -/
def treeLevel (ns : List (List Byte)) : List (List Byte) :=
  (List.range (ceilDiv ns.length 16)).map (fun i => sha384 (((ns.drop (16 * i)).take 16).flatten))

/-- The root of a digest tree (R548), n levels at most; of no leaf, the bytes `none`. -/
def treeRoot (empty : List Byte) : Nat → List (List Byte) → List Byte
  | _, [] => empty
  | _, [d] => d
  | 0, d :: _ => d
  | n + 1, ns => treeRoot empty n (treeLevel ns)

/-- The root over leaves; the root of no leaf, which the manual does not give, is a free value. -/
def rootOf (s : State) (leaves : List (List Byte)) : List Byte :=
  treeRoot ((List.range 48).map (fun i => BitVec.ofNat 8 (freeAt s i))) 8 leaves

/-- An entry record of the manifest: the protection entry, its first chunk record, base slot and the method used. -/
def entryRecord (x : Snap) (e : SnapEntry) (i : Nat) : List Byte :=
  padTo 64 (plBytes e ++ leBytes 4 (recordNo x i 0) ++ [BitVec.ofNat 8 (b2n (decide (e.stored = 3)) + 2 * e.stored)])

/-- The manifest (R547). -/
def manifestOf (s : State) (h : Nat) (x : Snap) (st : Nat) : List Byte :=
  let es := x.entries.zipIdx
  let g := ((herdOf s h).map (fun y => y.firstGroup + 4294967296 * y.ngroups)).getD 0
  let leaves := x.entries.flatMap (·.digests) ++ x.groupDigests
  let recs := es.flatMap (fun q => entryRecord x q.1 q.2)
  let head := chunkHead s h 2 0 0 st x.entries.length leaves.length (rd64 s (uePage 0 + 0x800 + 8 * h)).toNat g ++ rootOf s leaves ++
    rootOf s ((x.entries.filter (·.rep)).flatMap (·.digests))
  padTo 256 (head ++ sha384 (head ++ recs)) ++ recs

/-! ## Capture (R541 to R543) -/

/-- Writes wait for the store. -/
def queueStore (ws : List (Nat × List Byte)) (h : Nat) : Act := setSnap h (fun x => { x with sendQ := x.sendQ ++ ws })

/-- The act that changes entry i of a herd's list. -/
def setPl (h i : Nat) (f : SnapEntry → SnapEntry) : Act :=
  setSnap h (fun x => { x with entries := x.entries.zipIdx.map (fun q => if q.2 = i then f q.1 else q.1) })

/-- ENTRY_FINAL (R541): ndesc records of the step have come for the entry's groups; an ungrouped entry is final once copied. -/
def actEntryFinal (h i : Nat) : Act := look fun s =>
  let x := snapOf s h
  match x.cap, x.entries[i]? with
  | some c, some e =>
    act (entryWanted s x e && !e.final && (if e.gvalid then decide (e.ndesc ≤ (entryCounts e (c % 4294967296)).1) else x.copied))
      (setPl h i (fun e => { e with final := true }))
  | _, _ => nop

/-- The member that mirrors herd h for position p: one step on along baxis (R553). -/
def buddyOf (s : State) (x : Snap) (p : Nat) : Nat := torusNext s p (2 * baxisOf x)
/-- The offset in a half of the mirror region of entry i's first page (R555). -/
def mirrorAt (x : Snap) (i : Nat) : Nat := 65536 * ((x.entries.take i).filter (·.useM)).foldl (fun n e => n + e.npages) 0
/-- The bytes of a half of the region. -/
def halfBytes (x : Snap) : Nat := 65536 * (((x.params.map (·.mquota)).getD 0) / 2)

/-- MWR frames carry bytes to offset a of a member's mirror region. -/
def sendMirror (h dst a : Nat) (bs : List Byte) : Act :=
  each (pieces a bs) fun w => seq [look (fun s => sendFrame (snapFrame s 0x24 1 h dst w.1 w.2)),
    setSnap h (fun x => { x with mirrorOut := w.1 :: x.mirrorOut }), count snapPage 1 w.2.length]

/-- An entry goes to the store: its chunk records, into the base slot when it is frozen. -/
def storeEntry (h i st : Nat) (e : SnapEntry) : Act := look fun s =>
  let x := snapOf s h
  let base := storeSlot s h x (if entryFrozen s e then 0 else curSlot x)
  let cs := (List.range (chunksOf e)).map (fun k => (k, entryChunk s h x st e i k))
  seq [each cs fun c => queueStore (pieces (base + recordBytes * recordNo x i c.1) c.2.1) h,
    setPl h i (fun e => { e with digests := cs.map (fun c => c.2.2), stored := methodOf s e })]

/-- The group entries follow the last entry (R545). -/
def storeGroups (h st : Nat) : Act := look fun s =>
  let x := snapOf s h
  let n := recordNo x x.entries.length 0
  let cs := (List.range (groupChunks s h)).map (fun k => (k, groupChunk s h st k))
  seq [groupReads h, each cs fun c => queueStore (pieces (storeSlot s h x (curSlot x) + recordBytes * (n + c.1)) c.2.1) h,
    setSnap h (fun x => { x with groupDigests := cs.map (fun c => c.2.2) })]

/-! ## The store (R549, R552) -/

/-- The auxiliary port of a store record: by its parity, or the other when that port is down. -/
def storePort (s : State) (n : Nat) : Nat :=
  let p := 6 + n % 2
  if linkUp s p then p else 13 - p
/-- The record number of a store address. -/
def recordAt (x : Snap) (a : Nat) : Nat :=
  match x.params with
  | some p => (a - p.base.toNat) % (p.slotMiB * 1048576) / recordBytes
  | none => 0

/-- A frame between the snapshot engine and the store, on an auxiliary port. -/
def storeFrame (type lvc h addr cnt : Nat) (data : List Byte) : Frame :=
  ⟨BitVec.ofNat 8 type, lvc, h, 0, 0, false, false, 0, 0, 0, 0, 0, addr, cnt, data⟩

/-- SWR (R549, R550): the next write to the store leaves. On the PCI Express path the last write of a record is followed by a read of its
last 4 bytes. -/
def actSwr (h : Nat) : Act := look fun s =>
  let x := snapOf s h
  match x.sendQ with
  | [] => nop
  | w :: ws =>
    let last := ws.head?.all (fun v => decide (recordAt x v.1 ≠ recordAt x w.1))
    let tail := w.1 + w.2.length - 4
    if x.params.any (·.pcie) then seq [
      setSnap h (fun x => { x with sendQ := ws, await_ := if last then x.await_ ++ [tail] else x.await_ }),
      count snapPage 0 w.2.length, one (.out (.storeWrite w.1 w.2)), act last (one (.out (.storeRead tail 4)))]
    else seq [setSnap h (fun x => { x with sendQ := ws, await_ := x.await_ ++ [w.1] }), count snapPage 0 w.2.length,
      giveFrame (storePort s (recordAt x w.1)) (storeFrame 0x20 1 h w.1 0 w.2)]

/-- A frame arrives on an auxiliary port, in order (R459): on a torus port it is refused. -/
def rxAux (p type len : Nat) (body : Act) : Act := look fun s =>
  received p (bxOf s p).rxSeq true type len (if 6 ≤ p then body else refuseFrame p)

/-- The mean of a new measurement with weight a quarter (R556). -/
def average4 (old new : Nat) : Nat := (3 * old + new) / 4

/-- A positive rational as a binary64 holds it: rounded to 53 significant bits, to nearest with ties to even. -/
def round53 (q : Nat × Nat) : Nat × Nat :=
  if q.1 = 0 ∨ q.2 = 0 then (0, 1)
  else
    let up := 57 + Nat.log2 q.2 - Nat.log2 q.1
    let down := Nat.log2 q.1 - (57 + Nat.log2 q.2)
    let n := q.1 * 2 ^ up
    let d := q.2 * 2 ^ down
    let k := Nat.log2 (n / d) - 52
    let m := n / d / 2 ^ k
    let rest := n - m * 2 ^ k * d
    let half := 2 ^ (k - 1) * d
    let r := m + b2n (decide (half < rest) || (decide (half = rest) && decide (m % 2 = 1)))
    (r * 2 ^ k * 2 ^ down, 2 ^ up)

/-- The square root of a rational as a binary64 holds it: from the first 64 bits or more of the root, odd where bits are lost. -/
def root53 (q : Nat × Nat) : Nat × Nat :=
  if q.1 = 0 ∨ q.2 = 0 then (0, 1)
  else
    let k := 64 + Nat.log2 q.2
    let v := q.1 * q.2 * 4 ^ k
    let r := isqrt v
    round53 (2 * r + b2n (decide (r * r ≠ v)), 2 * q.2 * 2 ^ k)

/-- The product and the quotient of two such numbers. -/
def mul53 (p q : Nat × Nat) : Nat × Nat := round53 (p.1 * q.1, p.2 * q.2)
/-- The quotient. -/
def div53 (p q : Nat × Nat) : Nat × Nat := round53 (p.1 * q.2, p.2 * q.1)

/-- ⌊√(2 × C × M) ÷ T_step⌋ of R556, with C and T_step in µs and M = mn ÷ md in seconds: each operation in binary64, from the left. -/
def stepsFor (c mn md t : Nat) : Nat :=
  let q := div53 (root53 (mul53 (mul53 (2, 1) (round53 (c, 1000000))) (round53 (mn, md)))) (round53 (t, 1000000))
  q.1 / q.2

/-- R556: C, T_step, T, M and I are computed and written, and the next snapshot is planned. With w + n = 0, or T_step = 0, the quotient
has no value; M and I are then free values. -/
def planInterval (h : Nat) : Act := look fun s =>
  let r := snapReg h
  let x := snapOf s h
  let c := Config.measured 0 s.freeCtr
  let c := if rd s (r + 0x18) = 0 then c else average4 (rd s (r + 0x18)).toNat c
  let ts := Config.measured 1 (s.freeCtr + 1)
  let t := Config.measured 2 (s.freeCtr + 2)
  let mf := (rd s (r + 0x20)).toNat
  let w := fld (rd s (r + 0x28)) 23 16
  let n := fld (rd s (r + 0x28)) 15 0
  let k := (x.params.map (·.kmax)).getD 1
  let open_ := w + n = 0 ∨ ts = 0
  let m := if w + n = 0 then freeAt s 3 else (w * mf + t) / (w + n)
  let i := if open_ then 1 + freeAt s 4 % k else min k (max 1 (stepsFor c (w * mf + t) (w + n) ts))
  seq [takeFree 5, wr (r + 0x18) (BitVec.ofNat 32 c), wr (r + 0x1C) (BitVec.ofNat 32 ts), wr (r + 0x24) (BitVec.ofNat 32 t),
    wr (r + 0x2C) (BitVec.ofNat 32 m), wrFld (r + 4) 15 0 i, look fun s => setSnapNext h (snapLast s h + i),
    look fun s => sendPlan h (snapNext s h)]

/-- A snapshot of step st is verified here (R550, R555, R561). -/
def takeVerified (h st : Nat) : Act :=
  seq [wr64 (snapReg h + 8) (BitVec.ofNat 64 st), count snapPage 3 1, setIst snapPage 8,
    setSnap h (fun x => { x with
      cur := none, manifest := false, committed := [], verified := x.verified + 1
      retained := if x.gen = some st && x.mirrorOut.isEmpty then some st else x.retained
      half := if x.gen = some st && x.mirrorOut.isEmpty then 1 - x.half else x.half
      gen := none
      heldHalf := x.lastHalf
      entries := x.entries.map (fun e => { e with
        based := e.based || e.inBase
        inBase := false
        kept := e.digests
        changedSince := e.counts.any (fun c => decide (st % 4294967296 < c.1) && decide (0 < c.2.2.1)) }) }),
    snapStatus h]

/-- Whether every member that holds herd h has committed. -/
def allCommitted (s : State) (h : Nat) : Bool :=
  (ownPos s :: herdMembers s h).all (fun p => (snapOf s h).committed.contains p)

/-- The lead, or a device for a herd outside a pod, verifies the snapshot once every member has committed (R550, R556). -/
def tryVerify (h st : Nat) : Act := look fun s =>
  act (allCommitted s h) (seq [each (herdMembers s h) (fun p => look fun s => sendFrame (snapFrame s 0x29 1 h p st [])),
    takeVerified h st, planInterval h])

/-- A member has committed (R550). -/
def commit (h st : Nat) : Act := look fun s =>
  if (herdOf s h).any (·.pod) && podEn s && !isLead s then sendFrame (snapFrame s 0x28 1 h (leadPos s) st [])
  else seq [setSnap h (fun x => { x with committed := ownPos s :: x.committed }), tryVerify h st]

/-- Once every chunk is stored the manifest is written, and once it is stored the member commits (R550). -/
def storeAdvance (h : Nat) : Act := look fun s =>
  let x := snapOf s h
  match x.cur with
  | none => nop
  | some st =>
    if !x.sendQ.isEmpty || !x.await_.isEmpty || x.capSnap then nop
    else if x.manifest then commit h st
    else seq [queueStore (pieces (storeSlot s h x (curSlot x)) (manifestOf s h x st)) h, setSnap h (fun x => { x with manifest := true })]

/-- A capture ends once every wanted entry is captured. -/
def endCapture (h : Nat) : Act := look fun s =>
  let x := snapOf s h
  match x.cap with
  | some c => act (allCaptured s x) (seq [act x.capSnap (storeGroups h c),
      setSnap h (fun x => { x with cap := none, capSnap := false, capMirror := false, gen := if x.capMirror then some c else x.gen }),
      act x.capSnap (storeAdvance h), snapStatus h])
  | none => nop

/-- ENTRY_CAPTURED (R541, R542): the last byte of a final entry is read, once for the store and for the buddy. -/
def actEntryCaptured (h i : Nat) : Act := look fun s =>
  let x := snapOf s h
  match x.cap, x.entries[i]? with
  | some c, some e =>
    act (entryWanted s x e && e.final && !e.captured) (seq [
      each (List.range e.npages) (fun j => look fun s => copyReads (homeEntry s (e.page + j)) h),
      act x.capSnap (storeEntry h i c e),
      act (x.capMirror && e.useM && !entryFrozen s e) (each (List.range e.npages) fun j =>
        sendMirror h (buddyOf s x (ownPos s)) (x.half * halfBytes x + mirrorAt x i + 65536 * j) (capturedPage s h x e j)),
      setPl h i (fun e => { e with captured := true, inBase := e.inBase || (x.capSnap && entryFrozen s e) }), endCapture h])
  | _, _ => nop

/-- UNGROUPED_COPY_DONE (R543): the copy made at the boundary is done, and cap_flag is set in every core. A capture that wants nothing else ends. -/
def actUngroupedCopyDone (h : Nat) : Act := look fun s =>
  let x := snapOf s h
  act (x.cap.isSome && !x.copied) (seq [setSnap h (fun x => { x with copied := true }),
    (match x.params with
      | some p => flagAll .snap h p.capFlag.toNat 0
      | none => nop), endCapture h])

/-- A write to the store is acknowledged. -/
def stored (h a : Nat) : Act := look fun s =>
  act ((snapOf s h).await_.contains a) (seq [setSnap h (fun x => { x with await_ := x.await_.erase a }), storeAdvance h])

/-- SACK. -/
def actSack (p h : Nat) (addr : DWord) : Act := rxAux p 0x21 0 (stored h addr.toNat)

/-- STORE_TIMEOUT (R552): a write has waited 100 ms. -/
def actStoreTimeout (h : Nat) : Act := look fun s =>
  let x := snapOf s h
  match x.cur with
  | some st => act (!x.await_.isEmpty) (seq [count snapPage 7 1, abandonSnapshot h st true])
  | none => nop

/-! ## Mirrors and member frames (R551, R553, R555) -/

/-- Whether two positions lie one step apart along the herd's baxis. -/
def oneStep (s : State) (h p q : Nat) : Bool :=
  let x := snapOf s h
  decide (baxisOf x < 3) && decide (p ≠ q) && (decide (buddyOf s x p = q) || decide (buddyOf s x q = p))

/-- MWR: mirror data is written into the region held here, and acknowledged. DESIGN CHOICE (log entry 152): a half for which mirror data comes
is the current one; what a filling spare's own buddy sends it tells it which half that buddy retains, and is no mirror data. -/
def actMwr (f : FrameHdr) (data : List Byte) : Act :=
  let h := f.herd.val
  rxTorus f 0x24 data.length (fun s => oneStep s h f.src.toNat (ownPos s)) (look fun s =>
    let x := snapOf s h
    let b := if f.addr.toNat < halfBytes x then 0 else 1
    if x.restore.any (·.spare) && decide (buddyOf s x (ownPos s) = f.src.toNat) then
      seq [setSnap h (fun x => { x with half := 1 - b }), sendFrame (snapFrame s 0x25 2 h f.src.toNat f.addr.toNat [])]
    else seq [setSnap h (fun x => { x with lastHalf := b, heldHalf := 1 - b }), match x.region with
    | some r => act (decide (f.addr.toNat + data.length ≤ 2 * halfBytes (snapOf s h)))
        (seq [devWrite (65536 * (rsvBase s + 25672 + r) + f.addr.toNat) data h,
          sendFrame (snapFrame s 0x25 2 h f.src.toNat f.addr.toNat [])])
    | none => nop])

/-- MACK: the buddy has the data at the offset; a generation counts as held once nothing of it is outstanding (R555). -/
def actMack (f : FrameHdr) : Act :=
  let h := f.herd.val
  rxTorus f 0x25 0 (fun s => oneStep s h f.src.toNat (ownPos s))
    (setSnap h (fun x => { x with mirrorOut := x.mirrorOut.erase f.addr.toNat }))

/-- SCOMMIT (R544, R550): at the lead, a member has committed a step, or abandoned it (bit 63). -/
def actScommit (f : FrameHdr) : Act :=
  let h := f.herd.val
  rxTorus f 0x28 0 isLead (look fun s =>
    let st := f.addr.toNat % 2 ^ 63
    if bit f.addr 63 then
      seq [act ((snapOf s h).cur = some st) (dropSnapshot h), setSnapNext h (st + 2), sendPlan h (st + 2), snapStatus h]
    else act ((snapOf s h).cur = some st)
      (seq [setSnap h (fun x => { x with committed := f.src.toNat :: x.committed }), tryVerify h st]))

/-- SVERIFIED (R550). -/
def actSverified (f : FrameHdr) : Act := rxTorus f 0x29 0 (fromLead f) (takeVerified f.herd.val f.addr.toNat)

/-- SPLAN (R544, R556): the next snapshot's step. A snapshot that is not verified by then has been abandoned. -/
def actSplan (f : FrameHdr) : Act :=
  let h := f.herd.val
  rxTorus f 0x2A 0 (fromLead f) (look fun s =>
    seq [act (snapOf s h).cur.isSome (dropSnapshot h), setSnapNext h f.addr.toNat, snapStatus h])

end Sys2Proof.Machine
end

