-- ==== Sys2Proof/Machine/Restore.lean ====
section
/-! DEFINITION. Restores (R558 to R561), SNAP_FETCH (R570), and the recovery of a pod from a failed member (R562 to R567): spares, takeovers, full restores. -/

namespace Sys2Proof.Machine

/-! ## The lead's view of a recovery -/

/-- The act that changes the spare protocol's state. -/
def setSpares (f : Spares → Spares) : Act := look fun s => one (.spares (f s.spares))

/-- The pod herds that held cores on a failed position not yet recovered, and have not failed. -/
def affected (s : State) : List (Nat × Herd) :=
  s.herd.filter (fun p => p.2.pod && !p.2.failed && s.spares.failedPos.any (fun q => bit p.2.members q))

/-- The port by which the lead reaches spares. -/
def sparePort (s : State) : Nat := if linkUp s 6 then 6 else 7
/-- BX_POD_ID. -/
def podId (s : State) : Nat := fld (rd s (bxPage 0 + 0x800)) 15 0
/-- A P-class frame whose addr names a target: a position, or 0x40 to 0x43 for a spare (R551). -/
def spareFrame (s : State) (type lvc target : Nat) (data : List Byte) : Frame :=
  storeFrame type lvc 0 (podId s + 65536 * target) 0 data

/-- STANDDOWN goes to every filling spare. -/
def standDownAll : Act := look fun s =>
  seq [each s.spares.filling (fun k => giveFrame (sparePort s) (spareFrame s 0x35 1 (0x40 + k.1) [])),
    setSpares (fun x => { x with filling := [] })]

/-- A notice of kind 3 to a herd's owner; p in byte 0 of the detail, s* in its upper half. -/
def podNotice (h reason : Nat) (p : Nat) : Act := look fun s =>
  match ownerOf s h with
  | some f => notify f 3 h reason (beadNo s) ([BitVec.ofNat 8 p] ++ List.replicate 7 0 ++ leBytes 8 (snapLast s h))
  | none => nop

/-- A HALT for every member of herd h, from this member. -/
def haltAll (h action : Nat) : Act := look fun s =>
  sendHalt ⟨0, BitVec.ofNat 6 (ownPos s), ⟨h % 64, Nat.mod_lt _ (by decide)⟩, BitVec.ofNat 6 (leadPos s), true, true⟩ action

/-- Herd h cannot be recovered: it fails with reason 4, on every member. -/
def failAffected (h : Nat) : Act :=
  seq [failHere h 4, haltAll h 2, setSnap h (fun x => { x with restore := none }), snapStatus h]

/-- R567: recovery is not possible; every affected herd fails. -/
def failRecovery : Act := look fun s =>
  seq [standDownAll, each (affected s) (fun p => failAffected p.1),
    setSpares (fun x => { x with rdone := [], failedPos := [], fullRestore := false })]

/-- R565: every member has restored and every spare has refilled; each owner has a notice of kind 3, reason 3. -/
def recoveryDone : Act := look fun s =>
  let x := s.spares
  let all := (affected s).all fun p => (List.range 64).all fun q =>
    !(bit p.2.members q || decide (q = ownPos s)) || x.rdone.contains (64 * p.1 + q)
  act (!x.failedPos.isEmpty && x.filling.isEmpty && all) (seq [
    each (affected s) (fun p => each (x.failedPos.filter (fun q => bit p.2.members q)) (podNotice p.1 3)),
    each (affected s) (fun p => each (x.failedPos.filter (fun q => bit p.2.members q)) (fun q =>
      tellFleet 3 (BitVec.ofNat 8 q :: leBytes 8 (snapLast s p.1)))),
    setSpares (fun x => { x with rdone := [], failedPos := [], fullRestore := false })])

/-- A position's restore of herd h is done, or has failed. -/
def noteRdone (h q : Nat) (ok : Bool) : Act :=
  if ok then seq [setSpares (fun x => { x with rdone := (64 * h + q) :: x.rdone }), recoveryDone] else failRecovery

/-! ## A spare's own state -/

/-- SNAP_SPARE. -/
def spareReg : Nat := snapPage + 0x120
/-- SNAP_SPARE.armed, taking, index. -/
def armed (s : State) : Bool := bit (rd s spareReg) 31
/-- A TAKEOVER has been accepted. -/
def taking (s : State) : Bool := bit (rd s spareReg) 30
/-- The spare's number. -/
def spareIdx (s : State) : Nat := fld (rd s spareReg) 29 28
/-- Whether a P-class address names this armed spare (R626). -/
def forSpare (s : State) (addr : DWord) : Bool :=
  armed s && decide (fld addr 15 0 = fld (rd s spareReg) 15 0) && decide (fld addr 23 16 = 0x40 + spareIdx s)

/-- FILLDONE goes to the lead. -/
def sendFilldone (ok : Bool) : Act := look fun s =>
  seq [wrBit (snapPage + 0x104) 3 false,
    giveFrame (sparePort s) (spareFrame s 0x34 1 (leadPos s) [BitVec.ofNat 8 (spareIdx s), BitVec.ofNat 8 (b2n ok)])]

/-- A herd of a takeover is refilled, or not. -/
def spareFilled (h : Nat) (ok : Bool) : Act := look fun s =>
  let rest := s.spares.ordered.filter (fun t => decide (t.herd.val ≠ h))
  if ok then seq [setSpares (fun x => { x with ordered := rest }), act rest.isEmpty (sendFilldone true)]
  else seq [setSpares (fun x => { x with ordered := [] }), sendFilldone false]

/-! ## The end of a restore -/

/-- A restore's result goes to whoever asked for it. -/
def reportRestore (h : Nat) (r : Restore) (ok : Bool) (st : Nat) : Act := look fun s =>
  match r.asker with
  | some a => answer a (if ok then 0 else 4) (BitVec.ofNat 64 (if ok then st else 0))
  | none =>
    if r.spare then spareFilled h ok
    else if isLead s then noteRdone h (ownPos s) ok
    else sendFrame (snapFrame s 0x2B 1 h (leadPos s) 0 [BitVec.ofNat 8 (if ok then 0 else 4)])

/-- R560: a check of a restore fails. -/
def failRestore (h : Nat) : Act := look fun s =>
  match (snapOf s h).restore with
  | none => nop
  | some r => seq [count snapPage 5 1, raise snapPage { cls := .uncorrContained, herd := some h }, setIst snapPage 11,
      setSnap h (fun x => { x with restore := none }), snapStatus h, reportRestore h r false 0]

/-- The number of entries of a manifest, and its entries. -/
def manifestEntries (m : List Byte) : List SnapEntry :=
  (List.range (plWord m 6)).map fun i =>
    let rec_ := (m.drop (256 + 64 * i)).take 64
    let w := leNat ((rec_.drop 36).take 1)
    { parseEntry (rec_.take 32) with based := w.testBit 0, stored := bits w 2 1 }

/-- The groups of a manifest. -/
def manifestGroups (m : List Byte) : Nat := plWord m 11
/-- The step of a record. -/
def recordStep (m : List Byte) : Nat := leNat ((m.drop 16).take 8)

/-- While a spare refills, the member whose buddy it is sends its own entries of s* as the spare's retained generation (R564), and the
spare's own buddy sends it the half that it retains (log entry 152). -/
def feedSpare (h : Nat) (r : Restore) : Act := look fun s =>
  let x := snapOf s h
  act (decide (baxisOf x ≠ 3)) (seq [
    act (decide (r.lost = some (buddyOf s x (ownPos s))))
      (each (x.entries.zipIdx.filter (fun q => q.1.useM)) fun q => each (List.range q.1.npages) fun j => look fun s =>
        sendMirror h (buddyOf s x (ownPos s)) ((1 - x.half) * halfBytes x + mirrorAt x q.2 + 65536 * j) (pageBytes s (q.1.page + j))),
    match r.lost, x.region with
    | some q, some f => act (decide (buddyOf s x q = ownPos s)) (each (List.range (halfBytes x / 65536)) fun j => look fun s =>
        each (pieces (x.heldHalf * halfBytes x + 65536 * j) (stagedBytes s (rsvBase s + 25672 + f + x.heldHalf * (halfBytes x / 65536) + j))) fun w =>
          sendFrame (snapFrame s 0x24 1 h q w.1 w.2))
    | _, _ => nop])

/-! ## Chunks (R559 to R561) -/

/-- Whether entry i is restored (R561): all in a full restore; on a survivor neither a frozen one nor one unchanged since s*. -/
def entryRestored (s : State) (x : Snap) (r : Restore) (i : Nat) : Bool :=
  r.full || match x.entries[i]? with
    | some e => !entryFrozen s e && !(e.gvalid && !e.changedSince)
    | none => true

/-- The digest accepted for chunk k of entry i. -/
def gotDigest (r : Restore) (i k : Nat) : Option (List Byte) :=
  (r.got.find? (fun g => decide (g.1 = i) && decide (g.2.1 = k))).map (·.2.2)

/-- The chunk counts of a manifest: entry number, entry, and its chunks; the group entries as entry 0xFFFF. -/
def manifestChunks (m : List Byte) : List (Nat × Nat) :=
  (manifestEntries m).zipIdx.flatMap (fun q => (List.range (chunksOf q.1)).map (fun k => (q.2, k))) ++
    (List.range (ceilDiv (32 * manifestGroups m) 1048576)).map (fun k => (0xFFFF, k))

/-- The digest of a chunk in a rebuilt tree: as restored, or, of an entry not restored, as the last verified snapshot has it. -/
def treeDigest (x : Snap) (r : Restore) (q : Nat × Nat) : List Byte :=
  (gotDigest r q.1 q.2).getD (((x.entries[q.1]?).bind (fun e => e.kept[q.2]?)).getD [])

/-- A restore is accepted (R559): the seed returns, every core of the herd is cleared and IDLE. A herd that took its list from the
manifest keeps it, and the next snapshot spares the slot restored. A core that was fenced joins no herd before its block pages have been
reset (R88). -/
def finishRestore (h : Nat) (r : Restore) (m : List Byte) : Act := look fun s =>
  let st := recordStep m
  let x := snapOf s h
  let norep := decide (((x.params.map (·.raxis.val)).getD 3) = 3)
  seq [each (List.range 24) (fun n => wr64 (uePage n + 0x800 + 8 * h) (BitVec.ofNat 64 (leNat ((m.drop 32).take 8)))),
    each (herdSites s h) (fun c => act (decide (coreState s c ≠ 9) && decide ((coreX s c).owedResets = 0) && (fenceOrder c).all (fun p => !fenced s p))
      (seq [clearCore c, setCoreState c 1])),
    wr64 (snapReg h + 8) (BitVec.ofNat 64 st), wrBit (snapReg h + 4) 28 norep,
    setSnap h (fun x => { x with
      restore := none, verified := if r.asker.isSome || r.spare then r.slot + 1 else x.verified
      entries := (if x.entries.isEmpty then manifestEntries m else x.entries).zipIdx.map (fun q =>
        let ds := (List.range (chunksOf q.1)).map (fun k => treeDigest x r (q.2, k))
        { q.1 with digests := ds, kept := ds }) }),
    setIst snapPage 10, snapStatus h, feedSpare h r, reportRestore h r true st]

/-- The replica whose manifest a restore compares: one step on along raxis (R560). -/
def replicaAxis (x : Snap) : Nat := (x.params.map (·.raxis.val)).getD 3

/-- A restore ends once every chunk it wants has come: the root and the replica root must match (R560). -/
def tryFinish (h : Nat) : Act := look fun s =>
  let x := snapOf s h
  match x.restore.bind (fun r => r.manifest.map (fun m => (r, m))) with
  | none => nop
  | some (r, m) =>
    let cs := manifestChunks m
    let have_ := cs.all (fun q => (decide (q.1 ≠ 0xFFFF) && !entryRestored s x r q.1) || (gotDigest r q.1 q.2).isSome)
    let reps := (manifestEntries m).zipIdx.filter (fun q => q.1.rep)
    if !have_ || (decide (replicaAxis x ≠ 3) && r.replica.isNone) then nop
    else
      let root := rootOf s (cs.map (treeDigest x r))
      let rrep := rootOf s (reps.flatMap (fun q => (List.range (chunksOf q.1)).map (fun k => treeDigest x r (q.2, k))))
      let repOk := match r.replica with
        | some v => decide ((v.drop 0x60).take 48 = rrep) && decide (recordStep v = recordStep m)
        | none => true
      if decide ((m.drop 0x30).take 48 = root) && repOk then finishRestore h r m else failRestore h

/-- The act that changes a restore. -/
def setRestore (h : Nat) (f : Restore → Restore) : Act := setSnap h (fun x => { x with restore := x.restore.map f })

/-- A record fails its digest: it is read once more, and then the restore fails (R560). -/
def badChunk (h : Nat) (r : Restore) (k : Nat × Nat) : Act :=
  if r.retry.contains k then failRestore h else setRestore h (fun r => { r with retry := k :: r.retry })

/-- Where a page that the herd lacks is placed (R559): in the far tier when it was there and a far page is free, else on its port. -/
def restoreDest (s : State) (h : Nat) (attr : Byte) : Option Nat :=
  if bit attr 7 && (freeFar s h).isSome then none else some (fld attr 4 0 % 24)

/-- One page of a chunk is restored (R559). -/
def restorePage (h p : Nat) (attr : Byte) (bs : List Byte) : Act := look fun s =>
  let place : Option (List Upd) :=
    if eValid (homeEntry s p) then (if eHerd (homeEntry s p) = h then some [] else none)
    else placeNew p h (restoreDest s h attr) (bit attr 5) false s
  match place with
  | none => failRestore h
  | some us => seq [(fun _ => us), look fun s =>
      let e := homeEntry s p
      seq [if eFar e then each bs.zipIdx (fun q => one (.farMem (65536 * (262144 * eExt e + eFarPage e) + q.2) q.1))
          else devWrite (65536 * eHome e) bs h,
        act (!eFar e && !eShared e && decide (bit attr 6 ≠ ePinned e)) (bump (migHerd h + 12) (if bit attr 6 then 1 else -1)),
        setEntry p (setBit (setBit e 59 (bit attr 5)) 60 (bit attr 6)), dropLines p, count snapPage 2 65536]]

/-- Group entries of a chunk return as group loads (R318): those of the herd's range, with its herd number. -/
def restoreGroups (h addr : Nat) (data : List Byte) : Act := look fun s =>
  match herdOf s h with
  | none => nop
  | some y => each (List.range (data.length / 32)) fun i =>
      let g := addr / 32 + i
      let ws := leWords 8 ((data.drop (32 * i)).take 32)
      act (decide (y.firstGroup ≤ g) && decide (g < y.firstGroup + y.ngroups))
        (seq [look fun s => devWrite (groupEntryAddr s g) (wordBytes (ws.set 0 (setFld (ws.getD 0 0) 27 22 h))) h, count snapPage 2 32])

/-- A manifest arrives: this member's own, or its replica's. A spare, which the TAKEOVER tells s* and not its slot, reads slot 1 when slot 0
holds another step (R564). -/
def takeManifest (h : Nat) (r : Restore) (rec_ : List Byte) : Act := look fun s =>
  let n := plWord rec_ 6
  let pos := bits (plWord rec_ 2) 21 16
  let ok := decide ((rec_.drop 0x90).take 48 = sha384 (rec_.take 0x90 ++ (rec_.drop 256).take (64 * n)))
  let stOk := r.asker.isSome || decide (recordStep rec_ = snapLast s h)
  let own := decide (pos = storePos s h)
  if ok && !stOk && r.spare && own && decide (r.slot = 0) then setRestore h (fun r => { r with slot := 1 })
  else if !ok || !stOk then badChunk h r (0x10000, pos)
  else if own then seq [setRestore h (fun r => { r with manifest := some rec_ }), tryFinish h]
  else if replicaAxis (snapOf s h) < 3 && decide (pos = torusNext s (ownPos s) (2 * replicaAxis (snapOf s h))) then
    seq [setRestore h (fun r => { r with replica := some rec_ }), tryFinish h]
  else nop

/-- A chunk arrives. -/
def takeChunk (h : Nat) (r : Restore) (m rec_ : List Byte) : Act := look fun s =>
  let w := plWord rec_
  let entry := bits (w 3) 15 0
  let data := (rec_.drop 4096).take (w 7)
  let addr := leNat ((rec_.drop 32).take 8)
  let dig := (rec_.drop 0x30).take 48
  let ok := decide (w 0 = 0x534E5847) && decide (dig = sha384 (rec_.take 0x30 ++ data)) &&
    (decide (bits (w 1) 17 16 = 3) || decide (recordStep rec_ = recordStep m))
  if !ok then badChunk h r (entry, w 6)
  else if !(manifestChunks m).contains (entry, w 6) || (decide (entry ≠ 0xFFFF) && !entryRestored s (snapOf s h) r entry) then nop
  else seq [
    if entry = 0xFFFF then restoreGroups h addr data
    else each (List.range (data.length / 65536)) (fun j =>
      restorePage h (addr / 65536 + j) ((rec_.drop (0x60 + j)).headD 0) ((data.drop (65536 * j)).take 65536)),
    setRestore h (fun r => { r with got := (entry, w 6, dig) :: r.got }), tryFinish h]

/-- RESTORE_CHUNK: a record read from the store, or from the buddy's retained generation, is checked and written. The manifest comes
first. -/
def actRestoreChunk (h : Nat) (rec_ : List Byte) : Act := look fun s =>
  match (snapOf s h).restore with
  | none => nop
  | some r =>
    if r.phase ≠ 2 then nop
    else if bits (plWord rec_ 1) 7 0 = 2 then takeManifest h r rec_
    else match r.manifest with
      | some m => takeChunk h r m rec_
      | none => nop

/-! ## The start of a restore (R558) -/

/-- A restore is asked for. -/
def askRestore (h : Nat) (r : Restore) : Act :=
  seq [dropSnapshot h, setSnap h (fun x => { x with restore := some r, cap := none, capMirror := false, gen := none, mirrorOut := [] }),
    snapStatus h]

/-- SNAP_RESTORE (R570). -/
def restoreBody (base : DWord) (slot : Nat) (a : Asker) (h : Nat) : Act := look fun s =>
  if (herdOf s h).any (·.failed) || (herdSites s h).all (fun c => decide (coreState s c = 1)) then
    askRestore h ⟨some a, false, none, base.toNat, slot, 1, true, none, none, [], []⟩
  else answer a 3 0
/-- SNAP_RESTORE as a host command. -/
def actSnapRestore (c : CmdId) (base : DWord) (slot : Fin 2) : Act :=
  herdCmd c 0x24 (leBytes 8 base.toNat ++ leBytes 4 slot.val ++ leBytes 4 0) true (restoreBody base slot.val)

/-- The slot that holds the last verified snapshot. -/
def lastSlot (x : Snap) : Nat := (x.verified + 1) % 2

/-- A survivor's restore for failed position q begins (R561, R563, R566). -/
def survive (h q : Nat) (full : Bool) : Act := look fun s =>
  let x := snapOf s h
  askRestore h ⟨none, false, some q, ((x.params.map (fun p => p.base.toNat)).getD 0), lastSlot x, 1, full, none, none, [], []⟩

/-- Whether no descriptor of herd h is active in an engine or port. -/
def quiet (s : State) (h : Nat) : Bool :=
  !s.desc.any (fun d => decide (d.herd = h) && decide (d.phase ≠ 0)) && !s.coll.any (fun c => decide (c.herd = h) && c.started)

/-- Whether no core of herd h runs (R558): every one is paused, halted, faulted or fenced, or has not started. -/
def coresRest (s : State) (h : Nat) : Bool := (herdSites s h).all (fun c => !([2, 3, 4, 5].contains (coreState s c)))

/-- A spare's refill of a herd is asked for. -/
def spareRestore (t : TakeHerd) : Act := askRestore t.herd.val ⟨none, true, none, t.snap.base.toNat, 0, 1, true, none, none, [], []⟩

/-- A spare's herd of a takeover is created with the recorded parameters and ranges (R564), and its refill is asked for; one that it has
created already is refilled again (R566). -/
def spareCreate (t : TakeHerd) : Act := look fun s =>
  let h := t.herd.val
  if (herdOf s h).isSome then spareRestore t
  else if deviceRoom s t.create && !s.mesh.barred then
    seq [setUpHerd h none 0 t.create t.firstGroup t.firstProg,
      look (fun s => setSnap h (fun x => { x with
        params := some t.snap, region := if t.snap.baxis.val = 3 then none else mirrorRegion s h t.snap.mquota })),
      wr (snapReg h) (BitVec.ofNat 32 (0x80000000 * b2n t.snap.en + 0x10000000 * t.snap.baxis.val + 0x4000000 * t.snap.raxis.val +
        t.snap.kmax)),
      wr64 (snapReg h + 8) t.star, spareRestore t]
  else spareFilled h false

/-- Whether a spare that takes a position has joined the pod (R479, R563). -/
def spareJoined (s : State) : Bool := taking s && podEn s && bit (rd s (beadPage + 0x128)) 0

/-- RESTORE_START (R558): the herd's cores pause, its rings are disabled, and, once no core runs and no descriptor of it is active, the votes
are invalid and chunks are taken. A spare that has joined creates its herd first; one that was ordered none is done (R564). -/
def actRestoreStart (h : Nat) : Act := look fun s =>
  seq [act (spareJoined s) (match s.spares.ordered.find? (fun t => decide (t.herd.val = h)) with
      | some t => act ((snapOf s h).restore.isNone) (spareCreate t)
      | none => act (s.spares.ordered.isEmpty && bit (rd s (snapPage + 0x104)) 3 && s.snap.all (fun p => p.2.restore.isNone)) (sendFilldone true)),
    look fun s => act ((snapOf s h).restore.any (fun r => decide (r.phase = 1))) (seq [pauseHerd h 1024, disableRings h,
      look fun s => act (quiet s h && coresRest s h)
        (seq [each (List.range 24) (fun n => wrBit (hvote n h) 30 false), setRestore h (fun r => { r with phase := 2 })])])]

/-! ## Reads of the store -/

/-- SNAP_FETCH (R570): bytes of the store into writable pages of the herd. -/
def fetchBody (store dest : DWord) (n : Nat) (a : Asker) (h : Nat) : Act := look fun s =>
  if n = 0 ∨ 4294967296 ≤ n ∨ !((areaJudged s h dest.toNat n).all writablePage) then answer a 2 0
  else setSnap h (fun x => { x with fetch := some ⟨a, store.toNat, dest.toNat, n, 0⟩ })
/-- SNAP_FETCH as a host command: it waits while a page of the destination moves. -/
def actSnapFetch (c : CmdId) (store dest : DWord) (n : Nat) : Act := look fun s =>
  if !c.reserved && (herdOfFn s c.fn).any (fun h => (areaJudged s h dest.toNat n).contains .waits) then nop
  else herdCmd c 0x25 (leBytes 8 store.toNat ++ leBytes 8 dest.toNat ++ leBytes 4 n) true (fetchBody store dest n)

/-- Whether a read lies in a slot of the store region of position pos: 0 the base slot, 1 and 2 slots 0 and 1 (R545). -/
def inSlot (base slotMiB pos slot a len : Nat) : Bool :=
  let b := base + (3 * pos + slot) * slotMiB * 1048576
  decide (b ≤ a) && decide (a + len ≤ b + slotMiB * 1048576)

/-- Whether a restore reads these bytes of the store (R545, R560, R570): of this member's base slot and of the slot restored, and of that
slot of the replica whose manifest it compares. Before any SNAP_CFG the size of a slot is not known, and every address from base on is one. -/
def restoreReads (s : State) (h : Nat) (x : Snap) (r : Restore) (a len : Nat) : Bool :=
  match x.params with
  | none => decide (r.base ≤ a)
  | some p => inSlot r.base p.slotMiB (storePos s h) 0 a len || inSlot r.base p.slotMiB (storePos s h) (1 + r.slot) a len ||
      (decide (p.raxis.val < 3) && inSlot r.base p.slotMiB (torusNext s (ownPos s) (2 * p.raxis.val)) (1 + r.slot) a len)

/-- SRD: a read of at most 4,096 bytes leaves for the store, for a fetch within its range or for a restore. -/
def actSrd (h : Nat) (addr : DWord) (len : Nat) : Act := look fun s =>
  let x := snapOf s h
  let a := addr.toNat
  let wanted := match x.fetch with
    | some f => decide (f.store ≤ a) && decide (a + len ≤ f.store + f.bytes)
    | none => x.restore.any (fun r => decide (r.phase = 2) && restoreReads s h x r a len)
  act (wanted && decide (0 < len) && decide (len ≤ 4096))
    (if x.fetch.isNone && x.params.any (·.pcie) then one (.out (.storeRead a len))
      else giveFrame (storePort s (recordAt x a)) (storeFrame 0x22 1 h a len []))

/-- Whether a fetch's bytes wait for a page that moves. -/
def fetchWaits (s : State) (h : Nat) (addr : DWord) (n : Nat) : Bool :=
  match (snapOf s h).fetch with
  | some f => (areaJudged s h (f.dest + (addr.toNat - f.store)) n).contains .waits
  | none => false

/-- SRDR: data of a fetch is written; a restore's data is taken as records (RESTORE_CHUNK). -/
def actSrdr (p h : Nat) (addr : DWord) (data : List Byte) : Act := look fun s =>
  if fetchWaits s h addr data.length then nop
  else rxAux p 0x23 data.length (look fun s =>
    match (snapOf s h).fetch with
    | none => nop
    | some f =>
      if addr.toNat < f.store ∨ f.store + f.bytes < addr.toNat + data.length then nop
      else seq [urWrite h (f.dest + (addr.toNat - f.store)) data,
        if f.bytes ≤ f.got + data.length then
          seq [setSnap h (fun x => { x with fetch := none }), answer f.asker 0 (BitVec.ofNat 64 f.bytes)]
        else setSnap h (fun x => { x with fetch := some { f with got := f.got + data.length } })])

/-- SERR (R552): the store refuses. A restore fails, a snapshot is abandoned; a fetch ends with status 5, the manual giving none. -/
def actSerr (p h : Nat) (addr : DWord) : Act := rxAux p 0x26 0 (look fun s =>
  let x := snapOf s h
  seq [count snapPage 7 1,
    if x.await_.contains addr.toNat then match x.cur with
      | some st => abandonSnapshot h st true
      | none => nop
    else if x.restore.isSome then failRestore h
    else match x.fetch with
      | some f => seq [setSnap h (fun x => { x with fetch := none }), answer f.asker 5 (BitVec.ofNat 64 f.got)]
      | none => nop])

/-- STORE_DMA_COMPLETION (R549): the read of a record's last 4 bytes over PCI Express completes. -/
def actStoreDmaCompletion (h : Nat) (addr : DWord) (_data : List Byte) : Act := look fun s =>
  act ((snapOf s h).params.any (·.pcie)) (stored h addr.toNat)

/-! ## Spares (R562 to R567) -/

/-- RDONE: a member's restore is done, at the lead alone. -/
def actRdone (f : FrameHdr) (status : Byte) : Act :=
  rxTorus f 0x2B 1 isLead (noteRdone f.herd.val f.src.toNat (decide (status = 0)))

/-- The pod configuration is written as one change (R619): identifier, present mask and neighbours, then BX_POD_CFG with en = 1,
MGT_BEAD_CTRL.source on the lead alone (R475), and training on every torus port of an axis larger than 1; the others stay down (R456). -/
def writePod (p : PodParams) : Act :=
  seq [wr (bxPage 0 + 0x800) (BitVec.ofNat 32 p.podId.toNat), wr64 (bxPage 0 + 0x808) p.present,
    each (List.range 6) (fun n => wr (bxPage n + 0x108) (p.nbr.getD n 0 &&& 0x803FFFFF)),
    wr (bxPage 0 + 0x804) (BitVec.ofNat 32 (0x80000000 + 65536 * p.zszM1.toNat + 256 * p.leadPos.toNat + p.pos.toNat)),
    wrBit (beadPage + 0x120) 1 (decide (p.pos = p.leadPos)),
    look fun s => each ((List.range 6).filter (fun n => decide (1 < axisSize s (n / 2)))) fun n =>
      linkCtrlWrite n (setBit (rd s (bxPage n + 0x100)) 0 true),
    dropUnconnected]

/-- The state that a spare reports: 0 ready, 1 taking, 2 busy. -/
def spareState (s : State) : Nat := if taking s then 1 else if inRun s then 0 else 2

/-- SPQ: an armed spare that it names answers the lead with its state. DEDUCED (log entry 83): the answer names BX_POD_CFG.lead_pos, which a spare
that no TAKEOVER has reached reads as 0. -/
def actSpq (p : Nat) (addr : DWord) : Act := rxAux p 0x30 0 (look fun s =>
  if forSpare s addr then giveFrame p (spareFrame s 0x31 2 (leadPos s) [BitVec.ofNat 8 (spareIdx s), BitVec.ofNat 8 (spareState s)])
  else refuseFrame p)

/-- SPARE_POLL: the lead asks each spare. -/
def actSparePoll : Act := look fun s =>
  act (isLead s) (each (List.range 4) fun k => giveFrame (sparePort s) (spareFrame s 0x30 1 (0x40 + k) []))

/-- The last state of a spare is kept. -/
def noteSpare (k state : Nat) : Act :=
  setSpares (fun x => { x with last := (k, BitVec.ofNat 8 state) :: x.last.filter (fun p => decide (p.1 ≠ k)) })
/-- SPST. -/
def actSpst (p : Nat) (k : Fin 4) (state : Byte) : Act := rxAux p 0x31 2 (look fun s => act (isLead s) (noteSpare k.val state.toNat))

/-- TAKEOVER (R563): an armed spare that takes no other position answers TKACK, writes the configuration, trains its torus ports, and
remembers the herds to refill. On one that is a pod member already the write is discarded with PROTOCOL (R457), and only an order for the
position it holds is taken (R566). -/
def actTakeover (p : Nat) (addr : DWord) (cfg : PodParams) (herds : List TakeHerd) : Act := rxAux p 0x32 0 (look fun s =>
  if !forSpare s addr then refuseFrame p
  else act (!taking s && (!podEn s || decide (cfg.pos.toNat = ownPos s))) (seq [
    if podEn s then protocolAt (bxPage 0) .ringCtl else writePod cfg,
    wrBit spareReg 30 true, wrFld spareReg 21 16 cfg.pos.toNat, wrBit (snapPage + 0x104) 3 true,
    setSpares (fun x => { x with ordered := herds }),
    look fun s => giveFrame p (spareFrame s 0x33 2 (leadPos s) [BitVec.ofNat 8 (spareIdx s)]), takePodMeasure]))

/-- TKACK: the spare takes the position. -/
def actTkack (p : Nat) (k : Fin 4) : Act := rxAux p 0x33 1 (look fun s => act (isLead s) (noteSpare k.val 1))

/-- FILLDONE (R565, R567): at the lead, the spare's position counts as restored for every affected herd it holds. -/
def actFilldone (p : Nat) (k : Fin 4) (ok : Bool) : Act := rxAux p 0x34 2 (look fun s =>
  match s.spares.filling.find? (fun x => decide (x.1 = k.val)) with
  | none => nop
  | some (_, q) => act (isLead s) (if ok then
      seq [setSpares (fun x => { x with
          filling := x.filling.filter (fun y => decide (y.1 ≠ k.val))
          rdone := (affected s).map (fun h => 64 * h.1 + q) ++ x.rdone }), recoveryDone]
    else failRecovery))

/-- STANDDOWN (R566): the order is withdrawn and the refill stops; the spare stays a member of the pod it has joined. -/
def actStanddown (p : Nat) (addr : DWord) : Act := rxAux p 0x35 0 (look fun s =>
  if !forSpare s addr then refuseFrame p
  else seq [each s.spares.ordered (fun t => seq [setSnap t.herd.val (fun x => { x with restore := none }), snapStatus t.herd.val]),
    setSpares (fun x => { x with ordered := [] }), wrBit spareReg 30 false, wrBit (snapPage + 0x104) 3 false, takePodMeasure])

/-- A TAKEOVER's payload: the configuration for position q, and for each herd its number, HERD_CREATE parameters, the ranges that q gave it,
settings and s* (the manual names the contents, not their layout). -/
def takeoverBytes (s : State) (q : Nat) (hs : List (Nat × Herd)) : List Byte :=
  leBytes 4 (q + 256 * leadPos s + 65536 * fld (podCfg s) 17 16) ++ leBytes 8 (rd64 s (bxPage 0 + 0x808)).toNat ++
    (List.range 6).flatMap (fun k => leBytes 4 (0x80000000 + 65536 * torusNext s q k + podId s)) ++
    hs.flatMap (fun p =>
      let y := p.2
      let c : HerdParams := ⟨y.ncores, y.qmask, y.pod, y.quota, y.floor, y.ngroups, y.nprog, y.nseq, y.minper,
        rd64 s (uePage 0 + 0x800 + 8 * p.1), y.members⟩
      let g := ((y.ranges.find? (fun r => decide (r.1 = q))).map (·.2)).getD (y.firstGroup, y.firstProg)
      leBytes 4 p.1 ++ createBytes c ++ leBytes 4 (g.1 + 65536 * g.2) ++
        (((snapOf s p.1).params.map cfgBytes).getD []) ++ leBytes 8 (snapLast s p.1))

/-- The herds that can be recovered: snapshots have been configured and one has been verified. -/
def recoverable (s : State) (h : Nat) : Bool := (snapOf s h).params.isSome && decide (0 < (snapOf s h).verified)

/-- Whether position q's loss calls for a full restore (R566): one runs, q is a source of a filling spare, or a source of q's own refill
is failed or filling. -/
def needsFull (s : State) (q : Nat) (hs : List (Nat × Herd)) : Bool :=
  let src (p : Nat) : List Nat := hs.flatMap fun h =>
    let x := snapOf s h.1
    (if baxisOf x < 3 then [buddyOf s x p] else []) ++ (if replicaAxis x < 3 then [torusNext s p (2 * replicaAxis x)] else [])
  s.spares.fullRestore || s.spares.filling.any (fun k => (src k.2).contains q) || (src q).any (fun p => s.spares.failedPos.contains p)

/-- The lead starts the restore of every survivor of a herd: its own, and the other members' by an HCMD that no host command waits for. -/
def surviveAll (h q : Nat) (full : Bool) : Act := look fun s =>
  let t := s.htag
  let others := (herdMembers s h).filter (fun p => decide (p ≠ q))
  seq [survive h q full, act (!others.isEmpty) (seq [stepHtag, one (.hcmd (s.hcmd ++ [⟨t, none, 0x24, h, others, 0, [], 0, 0, 0, []⟩])),
    each others fun p => sendHcmd p t h 0 true 0x24 0 (leBytes 8 0 ++ leBytes 4 0 ++ leBytes 4 (1 + 2 * b2n full + 256 * q)) []])]

/-- The lowest-numbered spare whose last SPST read ready and that fills nothing. -/
def readySpare (s : State) : Option Nat :=
  (List.range 4).find? fun k => s.spares.last.any (fun p => decide (p.1 = k) && decide (p.2 = 0)) &&
    !s.spares.filling.any (fun f => decide (f.1 = k))

/-- What the lead does once a command's answers are in: the next part of a HERD_REGW goes out (R478); a herd that one member refused to
create is destroyed on the others (log entry 71); a function whose herd every member has destroyed owns none; a survivor that refuses its restore ends the recovery (R567). -/
def afterAnswer (o : HcmdOut) (status : Nat) : Act := look fun s =>
  let done := !(s.hcmd.any (fun x => decide (x.htag = o.htag)))
  let failed := o.status ≠ 0 ∨ status ≠ 0
  if o.opcode = 3 then act (!done) (nextPart o.htag 513)
  else if o.opcode = 1 then act (done && decide failed) (seq [destroyAtMembers o.herd, destroyHerd o.herd])
  else if o.opcode = 6 then act done (resumeAll o status)
  else if o.opcode = 9 then act done (endReleasing o.herd)
  else if o.opcode = 0x24 then act (o.cmd.isNone && decide (status ≠ 0)) failRecovery
  else nop

/-- An answer of position q to the command with a tag; the ranges that a member gives a new herd are kept for a TAKEOVER (R563). -/
def takeAnswer (q htag status count : Nat) (result : DWord) : Act := look fun s =>
  match s.hcmd.find? (fun o => decide (o.htag = htag)) with
  | none => nop
  | some o => seq [partAnswered q htag status count result,
      act (decide (o.opcode = 1) && decide (status = 0)) (setHerd o.herd (fun x => { x with
        ranges := (q, fld result 31 16, fld result 39 32) :: x.ranges.filter (fun r => decide (r.1 ≠ q)) })),
      afterAnswer o status]

/-- Spare k is ordered to take position q (R563). A spare's die identity in the event is a free value: no frame brings it to the lead. -/
def orderSpare (k q : Nat) : Act := look fun s =>
  seq [giveFrame (sparePort s) (spareFrame s 0x32 1 (0x40 + k) (takeoverBytes s q ((affected s).filter (fun p => bit p.2.members q)))),
    setSpares (fun x => { x with filling := (k, q) :: x.filling }), setIst snapPage 12,
    tellFleet 2 ([BitVec.ofNat 8 q, BitVec.ofNat 8 k] ++ (List.range 16).map (fun i => BitVec.ofNat 8 (freeAt s i))), takeFree 16]

/-- The lead declares position q failed (R480, R532, R563, R566, R567, R636): a herd that cannot be recovered fails, the others are. In a
full restore the spares that were filling are ordered again, each for its position. -/
def declareFailed (q : Nat) : Act := look fun s =>
  let hs := s.herd.filter (fun p => p.2.pod && bit p.2.members q)
  let full := needsFull s q hs
  let earlier := s.spares.filling
  seq [
    each ((List.range 64).filter (fun p => isPresent s p && decide (p ≠ q) && decide (p ≠ ownPos s))) (fun p =>
      sendFrame (ctlFrame s 0x1B 0 p q 0 [])),
    memberGone q,
    each hs (fun p => seq [pausePodHerd p.1, haltAll p.1 1]), each hs (fun p => podNotice p.1 1 q),
    tellFleet 1 [BitVec.ofNat 8 q],
    setSpares (fun x => { x with failedPos := q :: x.failedPos }),
    each (s.hcmd.filter (fun o => o.waiting.contains q)) (fun o =>
      if o.opcode = 0x24 then partAnswered q o.htag 5 0 0 else takeAnswer q o.htag 5 0 0),
    look (fun s => each ((affected s).filter (fun p => !recoverable s p.1)) fun p => failAffected p.1),
    act full (seq [standDownAll, setSpares (fun x => { x with rdone := [], fullRestore := true })]),
    look fun s =>
      let hs := affected s
      match readySpare s with
      | none => failRecovery
      | some k => seq [act full (each earlier fun e => orderSpare e.1 e.2), orderSpare k q,
          act full (each hs (fun p => seq [podNotice p.1 4 q, tellFleet 4 (BitVec.ofNat 8 q :: leBytes 8 (snapLast s p.1))])),
          each (if full then hs else hs.filter (fun p => bit p.2.members q)) (fun p => surviveAll p.1 q full)]]

/-- Members left with no present parent are treated as failed too (R470), at most k of them. -/
def declareOrphans : Nat → Act
  | 0 => nop
  | k + 1 => look fun s =>
    match (List.range 64).find? (fun p => isPresent s p && decide (p ≠ rootPos s) && (parentPort s p).isNone) with
    | some p => seq [declareFailed p, declareOrphans k]
    | none => nop

/-- MEMBER_FAIL_DECLARE: the lead declares position q failed, and with it every member that has lost its parent. -/
def actMemberFailDeclare (q : Nat) : Act := look fun s =>
  act (isLead s && isPresent s q && decide (q ≠ ownPos s)) (seq [declareFailed q, declareOrphans 64])

/-- REPORT_DEADLINE at a member; the lead declares its own child failed whose REPORT has been missing at 4 consecutive boundaries (R480). -/
def actReportDeadlineAll : Act := seq [actReportDeadline, look fun s =>
  act (isLead s) (each (s.side.missed.filter (fun m => decide (4 ≤ m.2))) fun m => actMemberFailDeclare (torusNext s (ownPos s) m.1))]

end Sys2Proof.Machine
end

