-- ==== Sys2Proof/Machine/Power.lean ====
section
/-! DEFINITION. The module's power (R578 to R589): the power states and pins, the input and temperature readings, the power limit, the carrier's FRU memory, and bead-period capping. -/

namespace Sys2Proof.Machine

/-! ## Power states -/

/-- Power is lost: nothing in the module is saved but the burned fuses and the boot flash (R579, R582). -/
def powerLoss : Act :=
  let none_ : Nat → Bool := fun _ => false
  seq [one .ctlClear, one (.storeKeep none_), one (.storeBadKeep none_), one (.rodKeep none_),
    one (.rodBadKeep none_), one (.vregKeep none_), one (.accKeep none_), one (.coreKeep none_),
    one (.memKeep none_), one (.chkKeep none_), one (.farMemKeep none_), one (.progKeep none_), one (.bxKeep none_),
    one (.bulkPendKeep none_), one (.ringFailKeep none_), one (.lastTakenKeep none_), one (.lastGrantKeep none_), one (.herdKeep none_),
    one (.extentKeep none_), one (.ssetOwnerKeep none_), one (.touchedKeep none_), one (.snapKeep none_), one (.lastCorrKeep none_),
    one (.coalescedKeep none_), one (.phaseKeep none_), one (.bar2LogKeep none_), one (.busyRingKeep none_), one (.numVfsKeep none_),
    one (.cycle 0), one (.withdrawn []), one (.packets []), one (.bulkOpen []), one (.merges []), one (.progPend []), one (.desc []),
    one (.evalDue []), one (.moves []), one (.mergeBuf []), one (.side Sideband.clear), one (.hcmd []), one (.htag 0),
    one (.coll []), one (.mc []), one (.aborts []), one (.ended []), one (.fnTurn 63), one (.hpTurn 0), one (.hpUsed 0), one (.completions []), one (.notices []), one (.perst []), one (.spares Spares.clear),
    one (.dumpRun none), one (.fwHeader []), one (.wdtArmed false), one (.rstPend false), one (.mgmt Mgmt.clear), one (.evQueue []),
    one (.searches []), one (.capRun 0), one (.moveTurn 63), one (.mesh Mesh.clear)]

/-- The act that changes the power pins' state. -/
def setPower (f : Power → Power) : Act := look fun s => one (.power (f s.power))

/-- The module's switch opens: it enters OFF or LATCHED with pwr_good low. -/
def switchOpen (st : PowerState) : Act :=
  seq [powerLoss, setPower (fun p => { p with state := st, pwrGood := false }), one (.out (.pinPwrGood false))]

/-- A rise of pwr_en is acted on: from OFF or LATCHED the module enters RAMP, with the input in its operating range. -/
def enterRamp : Act := look fun s =>
  act (s.power.input && (decide (s.power.state = .off) || decide (s.power.state = .latched))) (setPower (fun p => { p with state := .ramp }))

/-- PWR_EN_RISE (R578, R580): a rise with a valid input; with less than 1 s since the last fall, it waits. -/
def actPwrEnRise : Act := look fun s =>
  act (!s.power.pwrEn) (seq [setPower (fun p => { p with pwrEn := true, input := true }), act (!s.power.holdoff) enterRamp])

/-- PWR_EN_HOLDOFF_END (R580). -/
def actPwrEnHoldoffEnd : Act := look fun s =>
  act s.power.holdoff (seq [setPower (fun p => { p with holdoff := false }), act s.power.pwrEn enterRamp])

/-- The management-bus target address, in 7-bit form (R576). -/
def busAddress (slot : BitVec 3) : Nat := 0x58 + slot.toNat

/-- RAILS_GOOD (R576, R578): the straps are sampled, pwr_good is released, and the module enters INIT. -/
def actRailsGood (hp : BitVec 2) (inl : Bool) (slot : BitVec 3) : Act := look fun s =>
  act (decide (s.power.state = .ramp)) (seq [powerLoss, one (.straps ⟨hp, inl, slot⟩),
    setPower (fun p => { p with state := .init, pwrGood := true }), one (.out (.pinPwrGood true)),
    one (.out (.busTarget (busAddress slot)))])

/-- PWR_EN_FALL (R580, R582): transmission stops, the switch opens, and the module enters OFF; a latched module stays so until the rise. -/
def actPwrEnFall : Act := look fun s =>
  act s.power.pwrEn (seq [setPower (fun p => { p with pwrEn := false, holdoff := true }),
    act (powered s) (one (.out .stopTransmit)),
    act (decide (s.power.state ≠ .off) && decide (s.power.state ≠ .latched)) (switchOpen .off)])

/-- PROTECTION_TRIP (R581). -/
def actProtectionTrip : Act := look fun s =>
  act (decide (s.power.state = .ramp) || powered s) (switchOpen .latched)

/-- THERMAL_TRIP (R589): a die sensor reaches PWR_TLIM.trip. -/
def actThermalTrip (_n : Nat) (temp : BitVec 16) : Act := look fun s =>
  act (powered s && decide (16 * (fld (rd s (pwrPage 1 + 0x130)) 23 16 : Int) ≤ temp.toInt)) (switchOpen .latched)

/-! ## The power limit and the carrier's FRU (R583, R584) -/

/-- PWR_LIMIT.eff: the smallest of the limit, the slot limit and 2,400 W. -/
def setEff : Act := look fun s =>
  wrFld (pwrPage 0 + 0x10C) 27 16
    (min (min (fld (rd s (pwrPage 0 + 0x10C)) 11 0) (fld (rd s (pwrPage 0 + 0x11C)) 15 0)) 2400)

/-- A write of PWR_LIMIT: a value below 600 W or above 2,400 W is discarded with PROTOCOL. -/
def limitWrite (r : Requester) (v : Word) : Act :=
  let w := fld v 11 0
  if w < 600 ∨ 2400 < w then protocolAt (pwrPage 0) r else seq [maskWrite (.pwr 0) (pwrPage 0 + 0x10C) v, setEff]

/-- Whether bytes sum to 0 modulo 256. -/
def zeroSum (bs : List Byte) : Bool := decide (bs.foldl (fun a b => a + b) (0 : Byte) = 0)

/-- The MultiRecords of a FRU area: type and data of each whose checksums hold; none where one fails. -/
def fruRecords : Nat → List Byte → Option (List (Nat × List Byte))
  | 0, _ => some []
  | n + 1, bs =>
    let hd := bs.take 5
    let len := ((bs.drop 2).headD 0).toNat
    let data := (bs.drop 5).take len
    let ok := decide (hd.length = 5) && zeroSum hd && decide (data.length = len) && zeroSum (((bs.drop 3).headD 0) :: data)
    if !ok then none
    else
      let r := (((bs.headD 0).toNat), data)
      if bit ((bs.drop 1).headD 0) 7 then some [r] else (fruRecords n (bs.drop (5 + len))).map (r :: ·)

/-- The slot limit in W that a FRU memory's DC Load record for output 0 gives (R584); none when the memory has no such record or a
checksum fails. PRESUMED (log entry 42): the offsets and units are those of the IPMI FRU Information Storage Definition, which the
manual names and does not restate. -/
def slotLimit (bs : List Byte) : Option Nat :=
  let off (i : Nat) : Nat := 8 * ((bs.drop i).headD 0).toNat
  let board := (bs.drop (off 3)).take (8 * ((bs.drop (off 3 + 1)).headD 0).toNat)
  if bs.length < 8 || !zeroSum (bs.take 8) || decide (off 5 = 0) || decide (off 3 = 0) || decide (board = []) || !zeroSum board then none
  else (fruRecords 64 (bs.drop (off 5))).bind fun rs =>
    (rs.find? (fun r => decide (r.1 = 2) && decide (13 ≤ r.2.length) && decide (fld (r.2.headD 0) 3 0 = 0))).map fun r =>
      leNat ((r.2.drop 1).take 2) * leNat ((r.2.drop 11).take 2) / 100000

/-- The Board Info Area of a FRU memory; none where its own or the header's checksum fails. -/
def boardInfo (bs : List Byte) : List Byte :=
  let off := 8 * ((bs.drop 3).headD 0).toNat
  let board := (bs.drop off).take (8 * ((bs.drop (off + 1)).headD 0).toNat)
  if bs.length < 8 || !zeroSum (bs.take 8) || decide (off = 0) || !zeroSum board then [] else board

/-- The ring controller reads the carrier's FRU memory and keeps the board's identity for PLDM (R584, R616). -/
def readFru (fru : Option (List Byte)) : Act := look fun s =>
  seq [one (.mgmt { s.mgmt with board := (fru.map boardInfo).getD [] }), (match fru.bind slotLimit with
      | some w => wr (pwrPage 0 + 0x11C) (BitVec.ofNat 32 (65536 + w % 65536))
      | none => seq [wr (pwrPage 0 + 0x11C) 1200, setIst (pwrPage 0) 11]), setEff]

/-! ## Windows and capping (R585 to R587, R449, R450) -/

/-- INPUT_LOW (R577): the input has been below 46 V for 1 ms while in RUN. -/
def actInputLow (vin : BitVec 16) : Act := look fun s =>
  act (decide (s.power.state = .run) && decide (vin.toNat < 4600)) (seq [setPower (fun p => { p with input := false }), wr (pwrPage 0 + 0x100) (BitVec.ofNat 32 vin.toNat),
    setIst (pwrPage 0) 10, count (pwrPage 0) 3 1])

/-- The first bead, at least 4 beads ahead, at which the reference herd is expected to pass a step boundary, or 4 beads ahead (R449). -/
def periodBead (s : State) : Nat :=
  let now := (beadNo s).toNat + 4
  let w := rd s (beadPage + 0x120)
  match (if bit w 14 then (herdOf s (fld w 13 8)).map (·.stepBeads) else none) with
  | some (b0 :: b1 :: _) => if b1 < b0 then (if now ≤ b0 then b0 else b0 + ceilDiv (now - b0) (b0 - b1) * (b0 - b1)) else now
  | _ => now

/-- The largest period that other members of a lead's pod request, or their floors ask for. The manual gives no frame that carries them: a
free value among the periods (DESIGN CHOICE, log entry 114). -/
def podPeriod (s : State) : Nat := if isLead s then min (freeAt s 0 % 1048576) 1000000 else 0

/-- A period change is chosen and, by a lead, announced to every member (R449 steps 1 to 3). -/
def choosePeriod (q : Nat) : Act := look fun s =>
  let v := max (max q (fld (rd s (beadPage + 0x124)) 19 0)) (podPeriod s)
  let b := BitVec.ofNat 64 (periodBead s)
  seq [act (isLead s) (each ((List.range 64).filter (fun p => isPresent s p && decide (p ≠ ownPos s))) fun p =>
      sendFrame (ctlFrame s 0x19 0 p 0 0 (leBytes 4 v ++ leBytes 8 b.toNat))),
    takePeriod v b, act (isLead s) (takeFree 1)]

/-- A period is requested (R586): a device outside a pod, and the lead of a pod, choose it (R449). -/
def requestPeriod (q : Nat) : Act := look fun s =>
  seq [wr (pwrPage 0 + 0x118) (BitVec.ofNat 32 (0x80000000 + q % 1048576)), setIst (pwrPage 0) 9, count (pwrPage 0) 2 1,
    act (!podEn s || isLead s) (choosePeriod q)]

/-- At a lead that asks for no period itself, other members may (R449; DESIGN CHOICE, log entry 114): whether they do is part of the free
value, of which 0 says that none does. -/
def memberPeriods : Act := look fun s =>
  act (isLead s) (if podPeriod s = 0 then takeFree 1 else choosePeriod 0)

/-- PWR_TMAX in units of 1/16 °C, signed. -/
def tMax (s : State) : Int := (BitVec.ofNat 16 (fld (rd s (pwrPage 1 + 0x120)) 15 0)).toInt
/-- A threshold of PWR_TLIM in the same units. -/
def tLim (s : State) (hi lo : Nat) : Int := 16 * (fld (rd s (pwrPage 1 + 0x130)) hi lo : Int)

/-- The period that a window asks for (R586, R587), where one applies. -/
def capPeriod (s : State) (avg run : Nat) : Option Nat :=
  let c := rd s (pwrPage 0 + 0x110)
  let eff := fld (rd s (pwrPage 0 + 0x10C)) 27 16
  let per := beadPeriod s
  let hot := if tLim s 15 8 < tMax s then some (ceilDiv (per * 9) 8) else none
  let high := if eff < avg then some (ceilDiv (per * avg) eff) else none
  let m := 64 - fld c 11 8
  match high, hot with
  | some a, some b => some (max a b)
  | some a, none => some a
  | none, some b => some b
  | none, none =>
    if max 1 (fld c 31 24) ≤ run then
      let q := max (max (fld (rd s (beadPage + 0x124)) 19 0) (fld (rd s (pwrPage 0 + 0x114)) 19 0)) (ceilDiv (per * avg * 64) (eff * m))
      if q < per then some q else none
    else none

/-- POWER_WINDOW_END (R449, R585 to R587): the window's average and peak; comparisons begin once the effective limit has been formed. -/
def actPowerWindowEnd (avg peak : Nat) (vin iin : BitVec 16) : Act := look fun s =>
  let c := rd s (pwrPage 0 + 0x110)
  let eff := fld (rd s (pwrPage 0 + 0x10C)) 27 16
  let run := if avg * 64 < eff * (64 - fld c 11 8) then s.capRun + 1 else 0
  seq [wr (pwrPage 0 + 0x100) (BitVec.ofNat 32 vin.toNat), wr (pwrPage 0 + 0x104) (BitVec.ofNat 32 iin.toNat),
    wr (pwrPage 0 + 0x108) (BitVec.ofNat 32 (avg % 65536 + 65536 * (peak % 65536))), count (pwrPage 0) 0 (avg * max 1 (fld c 23 16)),
    count (pwrPage 1) 0 (b2n (decide (tLim s 15 8 < tMax s))), count (pwrPage 1) 1 (b2n (decide (tLim s 7 0 < tMax s))),
    act (decide (eff ≠ 0)) (seq [act (decide (eff < avg)) (count (pwrPage 0) 1 1), setLevel (pwrPage 0) 8 (decide (eff < avg)), one (.capRun run)]),
    act (!bit (rd s (beadPage + 0x110)) 31) (match (if decide (eff ≠ 0) && bit c 0 then capPeriod s avg run else none) with
      | some q => requestPeriod q
      | none => memberPeriods)]

/-- The levels of PWR_ instance 1 follow PWR_TMAX and PWR_TLIM (R43). -/
def tempLevels : Act := look fun s =>
  seq [setLevel (pwrPage 1) 8 (decide (tLim s 7 0 < tMax s)), setLevel (pwrPage 1) 9 (decide (tLim s 15 8 < tMax s))]

/-- TEMP_THRESHOLD_CROSS: a die sensor's reading; PWR_TMAX and the levels of instance 1 follow. -/
def actTempThresholdCross (n : Nat) (temp : BitVec 16) : Act :=
  seq [wr (pwrPage 1 + 0x100 + 4 * n) (BitVec.ofNat 32 temp.toNat), look fun s =>
    let rs := (List.range 5).map (fun k => BitVec.ofNat 16 (fld (rd s (pwrPage 1 + 0x100 + 4 * k)) 15 0))
    wr (pwrPage 1 + 0x120) (BitVec.ofNat 32 (rs.foldl (fun a b => if a.toInt < b.toInt then b else a) (rs.headD 0)).toNat),
    tempLevels]

end Sys2Proof.Machine
end

