-- ==== Sys2Proof/Machine/Boot.lean ====
section
/-! DEFINITION. Power-up, resets, fuses, boot flash, firmware images and measurements (R590 to R613, R625). -/

namespace Sys2Proof.Machine

/-! ## The boot flash (R605, R606) -/

/-- n bytes of the boot flash from offset a. -/
def flashBytes (s : State) (a n : Nat) : List Byte := (List.range n).map (fun i => mGetD s.flash (a + i) 0xFF)
/-- The act that writes bytes to the boot flash. -/
def flashPut (a : Nat) (bs : List Byte) : Act := each bs.zipIdx fun p => one (.flash (a + p.2) p.1)

/-- A boot record (R606). -/
structure BootRecord where
  seq_ : Nat
  pref : Nat
  tries : Nat
  confirmed : Bool
  deriving DecidableEq, Repr

/-- Where copy k of the boot record lies. -/
def recordAddr (k : Nat) : Nat := 0x1F00000 + 0x10000 * k

/-- Copy k of the boot record, where it is valid. -/
def bootCopy (s : State) (k : Nat) : Option BootRecord :=
  let bs := flashBytes s (recordAddr k) 64
  let w := plWord bs
  if w 0 = 0x47524243 ∧ crc32 (bs.take 60) = BitVec.ofNat 32 (w 15) then
    some ⟨w 1, bits (w 2) 0 0, bits (w 2) 7 4, (w 2).testBit 8⟩
  else none

/-- The boot record in force: the valid copy with the higher seq, or the ROM's (R607). -/
def bootRecord (s : State) : BootRecord :=
  match bootCopy s 0, bootCopy s 1 with
  | some a, some b => if a.seq_ < b.seq_ then b else a
  | some a, none => a
  | none, some b => b
  | none, none => ⟨0, 0, 0, true⟩

/-- The copy that a writer writes: an invalid one, or the one with the lower seq (R606). -/
def writeCopy (s : State) : Nat :=
  match bootCopy s 0, bootCopy s 1 with
  | some a, some b => if a.seq_ < b.seq_ then 0 else 1
  | some _, none => 1
  | none, _ => 0

/-- A boot record is written with the next seq. -/
def writeRecord (pref tries : Nat) (confirmed : Bool) : Act := look fun s =>
  let body := leBytes 4 0x47524243 ++ leBytes 4 ((bootRecord s).seq_ + 1) ++ leBytes 4 (pref + 16 * tries + 256 * b2n confirmed) ++
    List.replicate 48 0
  flashPut (recordAddr (writeCopy s)) (body ++ leBytes 4 (crc32 body).toNat)

/-! ## Firmware images (R609, R610) -/

/-- Where a bank lies. -/
def bankAddr (b : Nat) : Nat := 0x800000 * b
/-- Bytes of an image from offset a. -/
def part (im : List Byte) (a n : Nat) : List Byte := (im.drop a).take n
/-- Whether bytes are all 0. -/
def allZero (bs : List Byte) : Bool := bs.all (fun b => decide (b = 0))

/-- Check 2 of R610. -/
def imageForm (im : List Byte) : Bool :=
  let w := plWord im
  let blen := w 3
  decide (w 0 = 0x47584657) && decide (w 1 = 0x0101) && decide (bits (w 2) 7 7 = 0) && decide (bits (w 2) 31 10 = 0) &&
    decide (blen % 4096 = 0) && decide (4096 ≤ blen) && decide (blen ≤ 6291456) && decide (leNat (part im 0x200 4) = 65537) &&
    allZero (part im 0x18 0x28) && allZero (part im 0x70 0x10) && allZero (part im 0x204 0x1C) && allZero (part im 0x240 0x1C0) &&
    allZero (part im 0x2430 0xBD0)

/-- The key slot that an image names. -/
def imageSlot (im : List Byte) : Nat := bits (plWord im 2) 9 8
/-- The security version of an image. -/
def imageSvn (im : List Byte) : Nat := bits (plWord im 2) 6 0
/-- A digest as a fuse field holds it, byte 0 first. -/
def digestBits (d : List Byte) : BitVec 384 := BitVec.ofNat 384 (leNat d)

/-- R610 from check 2 on: the code of the first check that fails; none for an acceptable image. -/
def imageReject (s : State) (im : List Byte) : Option Nat :=
  let slot := imageSlot im
  let h := s.fuses.keyHash.getD slot (0, 0)
  let signed := im.take 0x400
  if !imageForm im then some 1
  else if !s.fuses.prov.getLsbD slot || s.fuses.revoked.getLsbD slot || decide (digestBits (sha384 (part im 0x80 0x184)) ≠ h.1) ||
      decide (digestBits (sha384 (part im 0x220 0x20)) ≠ h.2) then some 2
  else if imageSvn im < s.fuses.svn ∨ 64 < imageSvn im then some 3
  else if sha384 (part im 0x3000 (plWord im 3)) ≠ part im 0x40 48 then some 4
  else if !Config.rsaVerifies (part im 0x80 384) signed (part im 0x400 384) then some 5
  else if !Config.slhVerifies (part im 0x220 32) signed (part im 0x580 7856) then some 6
  else none

/-- verify() of a bank whose flash read completed or not. -/
def verifyBank (s : State) (b : Nat) (readOk : Bool) : Option Nat :=
  if !readOk then some 7 else imageReject s (flashBytes s (bankAddr b) 0x800000)

/-! ## The choice of bank (R607) -/

/-- SEC_BOOT_STAT. -/
def bootStat : Nat := secPage 0 + 0x100
/-- SEC_BOOT_STAT.bank. -/
def runBank (s : State) : Nat := fld (rd s bootStat) 0 0
/-- A sensorEvent of R636 for state sensor n: 0 MGT_DEV_STAT.state, 1 PWR_STATE, 2 SEC_BOOT_STAT; its data is as DSP0248 gives. -/
def sensorEvent (n value : Nat) : Act := queueMessage ⟨0x00, none, Config.standardBody 1 n value⟩
/-- An act that changes SEC_BOOT_STAT, and the event of the change. -/
def bootChange (a : Act) : Act := look fun s =>
  let old := rd s bootStat
  seq [a, look fun s => act (decide (rd s bootStat ≠ old)) (sensorEvent 2 (rd s bootStat).toNat)]
/-- MGT_DEV_STAT.state changes. -/
def setDevState (n : Nat) : Act := seq [wrFld (mgtPage 0 + 0x100) 2 0 n, sensorEvent 0 n]
/-- MGT_FUSE_STAT.fuse_ok. -/
def fuseOk (s : State) : Bool := bit (rd s (mgtPage 1 + 0x104)) 0

/-- A bank's image is rejected with a code. -/
def rejectImage (code : Nat) : Act := seq [wrFld bootStat 15 8 code, count (secPage 0) 1 1, setIst (secPage 0) 9]

/-- A bank's image is chosen: the record is updated, and the header of the copy is kept. Where no starts are left, the field that one
less of them gives is not stated: a free value (log entry 141). -/
def takeBank (r : BootRecord) (b : Nat) : Act := look fun s =>
  seq [act (decide (b = r.pref) && !r.confirmed) (if r.tries = 0 then seq [writeRecord r.pref (freeAt s 0 % 16) false, takeFree 1]
      else writeRecord r.pref (r.tries - 1) false),
    act (decide (b ≠ r.pref)) (seq [writeRecord b r.tries true, wrBit bootStat 1 true, setIst (secPage 0) 8]),
    wrFld bootStat 0 0 b, one (.fwHeader (flashBytes s (bankAddr b) 0x3000))]

/-- BANK_CHOOSE (R607): the ROM verifies the first bank, then the other, and takes the first acceptable image or enters RECOVERY. -/
def actBankChoose (readA readB : Bool) : Act := look fun s =>
  let r := bootRecord s
  let first := if r.confirmed || decide (0 < r.tries) then r.pref else 1 - r.pref
  let ok (b : Nat) : Option Nat := verifyBank s b (if b = 0 then readA else readB)
  act (decide (devState s = 0) && fuseOk s && s.fwHeader.isEmpty) (bootChange <| match ok first with
    | none => takeBank r first
    | some c => seq [rejectImage c, match ok (1 - first) with
        | none => takeBank r (1 - first)
        | some d => seq [rejectImage d, setDevState 3, wrBit bootStat 2 true]])

/-! ## Measurements (R625) -/

/-- Register words from offset a, as bytes. -/
def wordsAt (s : State) (a n : Nat) : List Byte := regBytes s a n

/-- Program p of the firmware configuration: the image that SYSPROG_LOAD gave, waiting or in place (R340). -/
def sysProgram (s : State) (p : Nat) : List Word :=
  match s.progPend.find? (fun q => decide (q.eng = 0) && decide (q.index = p)) with
  | some q => q.words
  | none => progWords s 0 p

/-- The digest of measurement n. The order and form of the values that index 3 covers are the model's (log entry 43). -/
def measure (s : State) (n : Nat) : List Byte :=
  match n with
  | 1 => leBytes 48 Config.romDigest.toNat
  | 2 => sha384 (s.fwHeader.take 0x400)
  | 3 => sha384 (wordsAt s (mgtPage 1 + 0x100) 1 ++ wordsAt s (mgtPage 1 + 0x180) 64 ++ wordsAt s (secPage 0 + 0x108) 3 ++
      wordsAt s (secPage 0 + 0x120) 4)
  | 4 => sha384 ((List.range 32).flatMap (fun p => wordBytes (sysProgram s p)))
  | _ => podMeasure s

/-- SEC_MEASn holds the current value. -/
def takeMeasure (n : Nat) : Act := look fun s => putMeasure n (measure s n)

/-! ## Power-up (R590) -/

/-- Whether the module is in INIT with its PLLs not yet locked since power-on. -/
def heldInReset (s : State) : Bool := decide (s.power.state = .init) && decide (fld (rd s (mgtPage 2 + 0x100)) 4 0 = 0) && !fuseOk s

/-- POWER_ON_RESET (R590): the clock block leaves reset; the rest of the die is held, every register at its reset value. -/
def actPowerOnReset : Act := look fun s => act (heldInReset s) powerLoss

/-- Set the measured frequency of clock region `n`. The table of the clocks page gives offset 0x120 both to MGT_CLK_FREQ4 and to
MGT_RST_CAUSE; the model keeps MGT_RST_CAUSE there and holds no measured frequency of region 4 (DESIGN CHOICE, log entry 47). -/
def setFreq (n : Nat) (khz : Word) : Act := act (decide (n < 4)) (wr (mgtPage 2 + 0x110 + 4 * n) khz)

/-- The five clock regions lock. -/
def lockAll : Act :=
  seq [wr (mgtPage 2 + 0x100) 0x1F, each (List.range 4) (fun n => setFreq n 1300000), setLevel (mgtPage 2) 8 false]

/-- PLL_LOCK (R590, R594): every PLL locks, every register takes its reset value, and the fuse array is loaded. -/
def actPllLock : Act := look fun s =>
  act (heldInReset s) (seq [lockAll, wrBit (mgtPage 1 + 0x104) 0 s.fuses.checkOk, act (!s.fuses.checkOk) (setDevState 4)])

/-- PLL_LOCK_LOSS (R601): the device runs on. The frequency then measured is a free value. -/
def actPllLockLoss (n : Nat) : Act := look fun s =>
  act (bit (rd s (mgtPage 2 + 0x100)) n) (seq [wrBit (mgtPage 2 + 0x100) n false,
    setFreq n (BitVec.ofNat 32 (freeAt s 0 % 2097152)), takeFree 1, count (mgtPage 2) 1 1,
    raise (mgtPage 2) { cls := .uncorrFatal }, setLevel (mgtPage 2) 8 true])

/-- PLL_LOCK_REGAIN. -/
def actPllLockRegain (n : Nat) : Act := look fun s =>
  act (!bit (rd s (mgtPage 2 + 0x100)) n && fuseOk s) (seq [wrBit (mgtPage 2 + 0x100) n true, setFreq n 1300000,
    look fun s => setLevel (mgtPage 2) 8 (decide (fld (rd s (mgtPage 2 + 0x100)) 4 0 ≠ 0x1F))])

/-- Whether the record in force names the running bank as confirmed (R608). -/
def recordConfirms (s : State) : Bool := (bootRecord s).confirmed && decide ((bootRecord s).pref = runBank s)

/-- FIRMWARE_START (R590, R600, R608, R625): the verified firmware starts; after a device reset it has pages to free (R599). -/
def actFirmwareStart : Act := look fun s =>
  let w := plWord s.fwHeader
  act (decide (devState s = 0) && !s.fwHeader.isEmpty) (seq [wr (secPage 0 + 0x104) (BitVec.ofNat 32 (w 4)),
    wrFld (secPage 0 + 0x108) 6 0 (imageSvn s.fwHeader), bootChange (seq [wrFld bootStat 5 4 (imageSlot s.fwHeader),
      act (recordConfirms s) (wrBit bootStat 16 true)]),
    wr (mgtPage 2 + 0x128) (BitVec.ofNat 32 (0x80000000 + 2000)), one (.wdtArmed true), setDevState 1,
    each [1, 2, 3, 4, 5] takeMeasure,
    wrBit (mgtPage 0 + 0x100) 3 (decide (fld (rd s (mgtPage 2 + 0x120)) 2 0 ≠ 0))])

/-- CHANNEL_TRAINED (R590, R402): a port with all eight channels trained starts its fill. -/
def actChannelTrained (n ch : Nat) : Act := look fun s =>
  let a := mpPage n + 0x10C
  act (decide (devState s = 1) && !bit (rd s a) (8 + ch)) (seq [wrBit a (8 + ch) true,
    look fun s => act (decide (fld (rd s a) 15 8 = 0xFF) && !bit (rd s a) 0) (wrBit a 1 true)])

/-- The ring controller gives all 24 engines the address of the group table, at frame MIG_RSVBASE + 8,192 (R315, ch. 10). -/
def setGroupTable : Act := look fun s =>
  let a := 65536 * (rsvBase s + 8192)
  each (List.range 24) (fun n => seq [wr (uePage n + 0x100) (BitVec.ofNat 32 a), wr (uePage n + 0x104) (BitVec.ofNat 32 (a / 2 ^ 32))])

/-- RUN_ENTRY (R590, R592, R608): the FRU is read, the tables computed while nothing is on the mesh (R77), the sites of faulty
routers withdrawn (R59), and the device enters RUN. -/
def actRunEntry (fru : Option (List Byte)) : Act := look fun s =>
  act (decide (devState s = 1) && allFilled s && !bit (rd s (mgtPage 0 + 0x100)) 3) (seq [readFru fru, setGroupTable,
    wrBit (fabGPage + 0x104) 0 true, each (faultyRouters s) (fun c => seq [wrBit (fabPage c + 0x10) 2 true, withdrawSite c]), routeAround,
    wrBit (fabGPage + 0x104) 0 false, rewriteDistances, setDevState 2, wrFld (pwrPage 0 + 0x120) 2 0 3, sensorEvent 1 3, setPower (fun p => { p with state := .run }),
    act (!bit (rd s bootStat) 16) (seq [act (!(bootRecord s).confirmed) (writeRecord (runBank s) (bootRecord s).tries true),
      bootChange (wrBit bootStat 16 true)])])

/-- PERST_RELEASE (R592): host port k's LTSSM may enter Detect. -/
def actPerstRelease (k : HpNo) : Act := look fun s =>
  act (decide (k.val < hpPorts s) && !s.perst.contains k.val) (one (.perst (k.val :: s.perst)))

/-! ## Device reset (R596 to R602) -/

/-- A device reset is accepted: none while one is in progress (R602). -/
def acceptReset (cause : Nat) : Act := look fun s =>
  let a := mgtPage 2 + 0x120
  act (!s.rstPend) (seq [wrFld a 2 0 cause, wrFld a 15 8 (min 255 (fld (rd s a) 15 8 + 1)), one (.rstPend true)])

/-- The die logic returns to its reset values; sticky fields, device memory, straps and the training of channels and PLLs are kept
(R596, R598). -/
def dieReset : Act := look fun s =>
  let none_ : Nat → Bool := fun _ => false
  let keep := [mgtPage 2 + 0x100, mgtPage 1 + 0x104] ++ (List.range 4).map (fun n => mgtPage 2 + 0x110 + 4 * n) ++
    (List.range 24).map (fun n => mpPage n + 0x10C)
  let kept := keep.map (fun a => (a, rd s a))
  seq [one (.ctlReset 0 (2 ^ 28)), each kept (fun p => wr p.1 p.2),
    one (.storeKeep none_), one (.storeBadKeep none_), one (.rodKeep none_), one (.rodBadKeep none_), one (.vregKeep none_),
    one (.accKeep none_), one (.coreKeep none_), one (.farMemKeep none_), one (.progKeep none_), one (.bxKeep none_),
    one (.bulkPendKeep none_), one (.ringFailKeep none_), one (.lastTakenKeep none_), one (.lastGrantKeep none_), one (.herdKeep none_),
    one (.extentKeep none_), one (.ssetOwnerKeep none_), one (.touchedKeep none_), one (.snapKeep none_), one (.lastCorrKeep none_),
    one (.coalescedKeep none_), one (.phaseKeep none_), one (.bar2LogKeep none_), one (.busyRingKeep none_), one (.numVfsKeep none_),
    one (.packets []), one (.bulkOpen []), one (.merges []), one (.progPend []), one (.desc []),
    one (.evalDue []), one (.moves []), one (.mergeBuf []), one (.side Sideband.clear), one (.hcmd []), one (.htag 0),
    one (.coll []), one (.mc []), one (.aborts []), one (.ended []), one (.fnTurn 63), one (.hpTurn 0), one (.hpUsed 0), one (.completions []), one (.notices []), one (.spares Spares.clear),
    one (.dumpRun none), one (.fwHeader []), one (.wdtArmed false), one (.rstPend false),
    one (.mgmt { Mgmt.clear with eid := s.mgmt.eid }), one (.evQueue []), one (.searches []), one (.capRun 0),
    one (.moveTurn 63), one (.mesh { s.mesh with routed := [], distDetours := [], distAway := s.withdrawn }),
    setLevel (mgtPage 2) 8 (decide (fld (rd s (mgtPage 2 + 0x100)) 4 0 ≠ 0x1F))]

/-- DEVICE_RESET (R598): what an accepted reset does to the device, up to the boot ROM. The merge buffers reach memory first. -/
def actDeviceReset : Act := look fun s =>
  act s.rstPend (seq [one (.out .stopTransmit), each s.mergeBuf retireMerge, each (List.range hpPortsMax) (fun k => one (.out (.hostPort ⟨k % 4, Nat.mod_lt _ (by decide)⟩ false))),
    dieReset, one (.out (.pinAlert false)), setPower (fun p => { p with state := .init })])
where
  /-- The host ports of the module. -/
  hpPortsMax : Nat := 4

/-- PAGE_FREE_ALL (R599): every valid page is freed, shared ones too; far pages are dropped. -/
def actPageFreeAll : Act := look fun s =>
  act (decide (devState s = 1) && bit (rd s (mgtPage 0 + 0x100)) 3) (seq [
    each (validPages s) (fun p => look fun s =>
      let e := homeEntry s p
      seq [setEntry p 0, act (!eFar e) (zeroFrame (eHome e))]),
    allFree, wrBit (mgtPage 0 + 0x100) 3 false])

/-- MGT_RST_DEV: a write of MGT_RST_CTRL with dev set. -/
def rstCtrlWrite (v : Word) : Act := act (bit v 0) (acceptReset 1)
/-- MGT_RST_DEV, as a command. -/
def actMgtRstDev (r : Requester) (v : Word) : Act := guarded r (mgtPage 2 + 0x124) (rstCtrlWrite v)

/-- WATCHDOG_KICK (R600): the count restarts; the model holds no count, the expiry being an event of its own. -/
def actWatchdogKick (r : Requester) (_v : Word) : Act := guarded r (mgtPage 2 + 0x12C) (one (.wdtArmed true))

/-- WATCHDOG_EXPIRE (R600, R601). -/
def actWatchdogExpire : Act := look fun s =>
  act (bit (rd s (mgtPage 2 + 0x128)) 31 && s.wdtArmed && !s.rstPend) (seq [count (mgtPage 2) 0 1, acceptReset 2])

end Sys2Proof.Machine
end

