-- ==== Sys2Proof/Machine/Events.lean ====
section
/-! DEFINITION. Event records: the servicing of a page (R627 to R629), routing (R630 to R632), owner searches (R633), and the events of pod members (R634, R636). -/

namespace Sys2Proof.Machine

/-- The 16 bytes of an event record (R627). -/
def recordOf (r : EvRecord) : List Byte :=
  leBytes 4 (r.type.toNat * 65536 + r.inst.toNat) ++
    leBytes 4 (r.code.toNat + 65536 * r.requester.toNat + 16777216 * r.cls.toNat + 134217728 * b2n r.lost +
      268435456 * b2n r.herd.isSome + 536870912 * b2n r.coalesced) ++ leBytes 8 r.addr.toNat

/-- The logical block at a device byte address: what a spare serves in place of the spare (R405, R633). -/
def logicalAddr (s : State) (a : Nat) : Nat := (servedAddr s a).getD a

/-- R632: a device byte address as the herd's function may see it: the unified-range address of the same byte, or 0. -/
def functionAddr (s : State) (h a : Nat) : Nat :=
  let b := logicalAddr s a
  match (validPages s).find? (fun p =>
      let e := homeEntry s p
      !eFar e && decide (eHome e = b / 65536) && (decide (eHerd e = h) || (eShared e && admitted s (eSset e) h))) with
  | some p => 65536 * p + b % 65536
  | none => 0

/-- Whether a record's address is the device byte address of a block (R349, R417): a memory port's capture of an error in data
(DEDUCED, log entry 140). -/
def namesBlock (r : EvRecord) : Bool := decide (r.type.toNat = 0xA) && decide (r.cls.toNat ≤ 2) && decide (r.code ≠ 0)

/-- The record as it goes to a function of herd h (R632). -/
def forFunction (s : State) (h : Nat) (r : EvRecord) : EvRecord :=
  if namesBlock r then { r with addr := BitVec.ofNat 64 (functionAddr s h r.addr.toNat) } else r

/-- A record goes to the owner of herd h: a notice of kind 2, or from a pod member to the lead in an HCPL of its own (R526, R630, R634). -/
def toOwner (r : EvRecord) (h : Nat) : Act := look fun s =>
  let f := forFunction s h r
  match ownerOf s h with
  | some o => notify o 2 h r.cls.toNat r.bead (recordOf f)
  | none => act (podEn s && !isLead s && (herdOf s h).any (·.pod))
      (sendFrame (ctlFrame s 0x18 h (leadPos s) 0 0 (hcplBytes 0xFFFF 0 0 0 0 ++ recordOf f ++ leBytes 8 r.bead.toNat)))

/-- The PLDM event of a record (R636). -/
def toPort (r : EvRecord) : Act :=
  queueMessage ⟨0xF0, some r.cls, recordOf r ++ leBytes 8 r.bead.toNat ++ leBytes 3 r.cyc.toNat ++ [0]⟩

/-- R630: a record is routed. -/
def route (r : EvRecord) : Act :=
  let c := r.cls.toNat
  seq [act (r.herd.isNone || !(decide (c = 5) || decide (c = 7))) (toPort r),
    match r.herd with
    | some h => act (decide (c ≠ 6)) (toOwner r h)
    | none => nop]

/-- The counter slots of a page that have saturated. -/
def saturated (s : State) (p : Nat) : Nat := ofBits ((List.range 8).filter (fun k => !isErrSlot p k && bit (rd s (p + 0x84 + 8 * k)) 31))

/-- The herd of a page's record (R631). -/
def recordHerd (s : State) (p : Nat) (captured : Bool) : Option Nat :=
  match (blockOf s (p / 4096)).coreSite with
  | some c => herdAt s c
  | none => if captured && bit (rd s (p + 0x58)) 6 then some (fld (rd s (p + 0x58)) 5 0) else none

/-- The record of class c (7: counter saturation) that a page's header gives (R628), with the bead and cycle of BLK_ERRCAP3 to 5
(R632, R636). -/
def pageRecord (s : State) (p c : Nat) : EvRecord :=
  let w := rd s (p + 0x40)
  let captured := bit w 31 && decide (fld w 26 24 = c)
  let id := (blockOf s (p / 4096)).ident
  { type := BitVec.ofNat 16 (id / 65536), inst := BitVec.ofNat 16 id,
    code := if c = 7 then BitVec.ofNat 16 (saturated s p) else if captured then BitVec.ofNat 16 (fld w 15 0) else 0,
    requester := if captured then BitVec.ofNat 8 (fld w 23 16) else 0, cls := BitVec.ofNat 3 c,
    lost := !captured || bit w 30, herd := recordHerd s p captured, coalesced := decide (c = 0) && mGetD s.coalesced p false,
    addr := if captured then rd64 s (p + 0x44) else 0, bead := rd64 s (p + 0x4C),
    cyc := BitVec.ofNat 24 (fld (rd s (p + 0x54)) 23 0) }

/-- The herd whose share of the staging frames, or whose mirror region, holds reserved frame f; true for a mirror region. -/
def snapFrameHerd (s : State) (f : Nat) : Option (Nat × Bool) :=
  let o := f - rsvBase s
  if 9288 ≤ o ∧ o < 9288 + 12288 then some ((o - 9288) / 192, false)
  else (s.snap.find? (fun p => match p.2.region, p.2.params with
    | some r, some q => decide (25672 + r ≤ o) && decide (o < 25672 + r + q.mquota)
    | _, _ => false)).map (fun p => (p.1, true))

/-- An owner search's record is routed (R633). -/
def ownerFound (r : EvRecord) (a : Nat) : Act := look fun s =>
  let b := logicalAddr s a
  let f := b / 65536
  if rsvBase s ≤ f then
    seq [toPort r, match snapFrameHerd s f with
      | some (h, mirror) => seq [act (herdOf s h).isSome (act (decide (r.cls.toNat ≠ 6)) (toOwner { r with herd := some h } h)),
          if mirror then abandonMirror h else match (snapOf s h).cur with
            | some st => abandonSnapshot h st true
            | none => nop]
      | none => nop]
  else match (validPages s).find? (fun p => !eFar (homeEntry s p) && decide (eHome (homeEntry s p) = f)) with
    | some p =>
      let e := homeEntry s p
      let hs := if eShared e then (List.range 64).filter (admitted s (eSset e)) else [eHerd e]
      each hs fun h => route { r with herd := some h }
    | none => seq [portWrite (b / 64) (List.replicate 64 0), toPort r]

/-- 100 ms in arithmetic cycles of 1.3 GHz (R629). -/
def corrGap : Nat := 130000000

/-- A record of a page is formed and routed. A memory port's capture whose herd is not known waits for the search of its block's owner,
unless the block lies in the reserved region (R633). -/
def serveClass (p c : Nat) : Act := look fun s =>
  let r := pageRecord s p c
  let soon := (mGet s.lastCorr p).any (fun t => decide (s.cycle < t + corrGap))
  let a := r.addr.toNat
  let known := !namesBlock r || r.herd.isSome
  if c = 0 && soon then one (.coalesced p (some true))
  else seq [act (decide (c = 0)) (seq [one (.lastCorr p (some s.cycle)), one (.coalesced p none)]),
    if known then route r
    else if rsvBase s ≤ logicalAddr s a / 65536 then ownerFound r a
    else seq [one (.searches (s.searches ++ [(r, a)])), wrBit evQstat 7 true]]

/-- The BLK_IST bits that are serviced (R628). -/
def serviced (s : State) (p : Nat) : Word := rd s (p + 0x20) &&& (rd s (p + 0x24) ||| 0x44)

/-- EVENT_SERVICE (R628): records of the class bits set, then of saturation; what was read is cleared, and a capture is released. -/
def actEventService (page : Nat) : Act := look fun s =>
  let p := 4096 * page
  let ist := rd s (p + 0x20)
  act (decide (blockOf s page ≠ .absent) && !(blockOf s page).isWindow && decide (serviced s p ≠ 0))
    (seq [each ((List.range 8).filter (fun c => bit ist c)) (serveClass p), look (fun s => wr (p + 0x20) (rd s (p + 0x20) &&& ~~~ist)),
      wrFld (p + 0x40) 31 30 0])

/-- OWNER_SEARCH_DONE. -/
def actOwnerSearchDone : Act := look fun s =>
  match s.searches with
  | [] => nop
  | x :: xs => seq [one (.searches xs), wrBit evQstat 7 (!xs.isEmpty), ownerFound x.1 x.2]

/-- At the lead, the record that a member's HCPL of htag 0xFFFF carries goes to the herd's owning function (R634). -/
def memberRecord (h : Nat) (rec_ : List Byte) (bead : DWord) : Act := look fun s =>
  match ownerOf s h with
  | some o => notify o 2 h (bits (leNat ((rec_.drop 4).take 4)) 26 24) bead rec_
  | none => nop

end Sys2Proof.Machine
end

