-- ==== Sys2Proof/Machine/Mgmt.lean ====
section
/-! DEFINITION. The management commands (R593, R617 to R620, R611, R612). -/

namespace Sys2Proof.Machine

/-- A management response (R617). -/
def respond (cmd : Nat) (t : MTag) (status : Nat) (result : List Byte) : Act :=
  one (.out (.mgmtResponse (BitVec.ofNat 8 cmd) t (BitVec.ofNat 8 status) result))

/-- A management command runs while the firmware does, in INIT and RUN; else it receives status 3 (R593). -/
def mgmtCmd (cmd : Nat) (t : MTag) (body : Act) : Act := look fun s =>
  if devState s = 1 ∨ devState s = 2 then body else respond cmd t 3 []

/-- RESET: the response is sent first (R598). -/
def actReset (t : MTag) : Act := mgmtCmd 1 t (seq [respond 1 t 0 [], acceptReset 1])

/-- FENCE (R82): a site without a core is a bad parameter. -/
def actFence (t : MTag) (c : Nat) : Act := mgmtCmd 2 t (look fun s =>
  if coreEn s c then seq [act (decide ((coreX s c).fenceStep = 0)) (actCoreFence c), respond 2 t 0 []] else respond 2 t 2 [])

/-- HERD_FAIL: a herd that is not resident is a bad parameter. -/
def actHerdFail (t : MTag) (h : Nat) : Act := mgmtCmd 3 t (look fun s =>
  if (herdOf s h).isSome then seq [failHerd h 6, respond 3 t 0 []] else respond 3 t 2 [])

/-- POWER_LIMIT (R583): a value out of range is discarded with PROTOCOL, and is a bad parameter. -/
def actPowerLimit (t : MTag) (w : BitVec 12) : Act := mgmtCmd 4 t (seq [limitWrite .ringCtl (w.setWidth 32),
  respond 4 t (if w.toNat < 600 ∨ 2400 < w.toNat then 2 else 0) []])

/-- PARTITION POD (R619). -/
def actPartitionPod (t : MTag) (p : PodParams) : Act := mgmtCmd 5 t (look fun s =>
  if podEn s || armed s then respond 5 t 3 [] else seq [writePod p, takeMeasure 5, respond 5 t 0 []])

/-- Whether five limits hold what port k's herds use (R527). -/
def limitsHold (s : State) (k cores frames groups herds nseq : Nat) : Bool :=
  decide (portSum s k coresOf ≤ cores) && decide (portSum s k (·.quota) ≤ frames) && decide (portSum s k (·.ngroups) ≤ groups) &&
    decide (portSum s k (fun _ => 1) ≤ herds) && decide (portSum s k (·.nseq) ≤ nseq)

/-- PARTITION HOST_LIMITS (R527, R619): refused with no change below what is in use; a port beyond the split, or a value wider than its
field, is a bad parameter. -/
def actPartitionHostLimits (t : MTag) (k cores frames groups herds nseq : Nat) : Act := mgmtCmd 5 t (look fun s =>
  let p := hpPage k
  if hpPorts s ≤ k ∨ 2 ^ 11 ≤ cores ∨ 2 ^ 26 ≤ frames ∨ 2 ^ 17 ≤ groups ∨ 2 ^ 7 ≤ herds ∨ 2 ^ 11 ≤ nseq then respond 5 t 2 []
  else if !limitsHold s k cores frames groups herds nseq then respond 5 t 1 []
  else seq [wr (p + 0x110) (BitVec.ofNat 32 cores), wr (p + 0x114) (BitVec.ofNat 32 frames), wr (p + 0x118) (BitVec.ofNat 32 groups),
    wr (p + 0x11C) (BitVec.ofNat 32 herds), wr (p + 0x120) (BitVec.ofNat 32 nseq), takeMeasure 5, respond 5 t 0 []])

/-- PARTITION SPARE (R562, R619). -/
def actPartitionSpare (t : MTag) (pod : BitVec 16) (k : BitVec 2) : Act := mgmtCmd 5 t (look fun s =>
  if podEn s || !s.herd.isEmpty then respond 5 t 3 []
  else seq [wr (bxPage 0 + 0x800) (BitVec.ofNat 32 pod.toNat),
    wr spareReg (BitVec.ofNat 32 (0x80000000 + 0x10000000 * k.toNat + pod.toNat)), wrBit (snapPage + 0x104) 2 true,
    each (List.range 6) (fun n => look fun s => linkCtrlWrite n (setBit (rd s (bxPage n + 0x100)) 0 true)),
    takeMeasure 5, respond 5 t 0 []])

/-- PARTITION AUX (R619): the train bits of BX6 and BX7. -/
def actPartitionAux (t : MTag) (a b : Bool) : Act := mgmtCmd 5 t (seq [
  look (fun s => linkCtrlWrite 6 (setBit (rd s (bxPage 6 + 0x100)) 0 a)), look (fun s => linkCtrlWrite 7 (setBit (rd s (bxPage 7 + 0x100)) 0 b)),
  takeMeasure 5, respond 5 t 0 []])

/-- Remap entries made one after another, each in the lowest free entry; `done` takes how many were made (R405, R406, R618). -/
def remapList (n : Nat) (done : Nat → Act) : Nat → List Nat → Act
  | k, [] => done k
  | k, l :: ls => look fun s => match freeRemap s n with
    | some e =>
      let v := BitVec.ofNat 32 (0x80000000 + l)
      if remapRefused s n e v then seq [remapWrite .ringCtl n e v, remapList n done k ls]
      else seq [remapWrite .ringCtl n e v, remapList n done (k + 1) ls]
    | none => done k

/-- REMAP_LOAD. -/
def actRemapLoad (t : MTag) (n : Nat) (blocks : List Nat) : Act := mgmtCmd 6 t
  (if blocks.isEmpty || decide (64 < blocks.length) || blocks.any (fun l => decide (2 ^ 30 ≤ l)) then respond 6 t 2 []
    else remapList n (fun k => respond 6 t 0 (leBytes 4 k)) 0 blocks)

/-- SYSPROG_LOAD: programs 0 to 31 of all 24 engines (R339, R340). -/
def actSysprogLoad (t : MTag) (first : Nat) (ps : List (List Word)) : Act := mgmtCmd 7 t
  (if ps.isEmpty || decide (32 < first + ps.length) then respond 7 t 2 []
    else
      let progs := ps.map (fun ws => (ws ++ List.replicate 32 0).take 32)
      seq [each (List.range 24) (fun n => seq [each progs.zipIdx (fun p => loadProgram n (first + p.2) p.1 (progOk p.1)),
          endLoad n (progs.any (fun ws => !progOk ws))]),
        takeMeasure 4, respond 7 t 0 []])

/-- LINK_HALT (R474, R618): from the lead, to every member, itself among them. -/
def actLinkHalt (t : MTag) (action h : Nat) : Act := mgmtCmd 8 t (look fun s =>
  if action < 2 ∨ 4 < action then respond 8 t 2 []
  else if !isLead s then respond 8 t 3 []
  else seq [if action = 2 then failPodHerd h else setLinkStop (decide (action = 3)), haltAll h action, respond 8 t 0 []])

/-- OPEN (R620). -/
def actOpenPermission (t : MTag) : Act := mgmtCmd 9 t (seq [wrBit (mgtPage 0 + 0x100) 8 true, respond 9 t 0 []])

/-- SEC_BOOT_STAT.confirmed. -/
def confirmed (s : State) : Bool := bit (rd s bootStat) 16
/-- The svn of the running image. -/
def runSvn (s : State) : Nat := fld (rd s (secPage 0 + 0x108)) 6 0

/-- SVN_COMMIT (R611). -/
def actSvnCommit (t : MTag) : Act := mgmtCmd 10 t (look fun s =>
  if !confirmed s then respond 10 t 1 []
  else seq [act (decide (s.fuses.svn < runSvn s)) (seq [one (.fuses { s.fuses with svn := runSvn s }), takeMeasure 3]), respond 10 t 0 []])

/-- Whether KEY_REVOKE of a slot is refused (R612). -/
def revokeRefused (s : State) (k : Nat) : Bool :=
  !confirmed s || decide (fld (rd s bootStat) 5 4 = k) || !s.fuses.prov.getLsbD k ||
    (!s.fuses.revoked.getLsbD k && (List.range 4).all (fun j => decide (j = k) || !s.fuses.prov.getLsbD j || s.fuses.revoked.getLsbD j))

/-- KEY_REVOKE (R612). -/
def actKeyRevoke (t : MTag) (k : Nat) : Act := mgmtCmd 11 t (look fun s =>
  if 4 ≤ k then respond 11 t 2 []
  else if revokeRefused s k then respond 11 t 1 []
  else seq [one (.fuses { s.fuses with revoked := s.fuses.revoked ||| BitVec.ofNat 4 (2 ^ k) }), takeMeasure 3, respond 11 t 0 []])

/-- DUMP, byte 0 = 0: a full dump starts (R436); busy while one runs. -/
def actMgmtDumpStart (t : MTag) : Act := mgmtCmd 12 t (look fun s =>
  if s.dumpRun.isSome then respond 12 t 4 [] else seq [beginDump 1 0 false none 0, respond 12 t 0 []])

/-- DUMP, byte 0 = 1: bytes of a dump slot; refused where they cannot be read. A read that comes before the fill waits (R402). -/
def actMgmtDumpRead (t : MTag) (slot off len : Nat) : Act := mgmtCmd 12 t (look fun s =>
  if len = 0 ∨ 4096 < len ∨ 0x1000000 < off + len then respond 12 t 2 []
  else if !allFilled s then nop
  else match devRead s (dumpSlot s slot + off) len with
    | some bs => seq [devReadActs (dumpSlot s slot + off) len .ring none, respond 12 t 0 bs]
    | none => seq [devReadActs (dumpSlot s slot + off) len .ring none, respond 12 t 1 []])

/-- FRU_READ (R584). -/
def actFruRead (t : MTag) (fru : Option (List Byte)) : Act := mgmtCmd 13 t (seq [readFru fru, respond 13 t 0 []])

/-- REG_READ: a word of the control window. -/
def actRegRead (t : MTag) (off : Nat) : Act := mgmtCmd 14 t (look fun s =>
  if off % 4 ≠ 0 then respond 14 t 2 [] else respond 14 t 0 (leBytes 4 (fullRead s off).toNat))

end Sys2Proof.Machine
end

