-- ==== Sys2Proof/Machine/Protocols.lean ====
section
/-! DEFINITION. MCTP control, PLDM and SPDM on the management port (R593, R594, R613 to R616, R621 to R625, R637). The manual gives what each request does and returns; the bytes that carry it are those of the DMTF specifications it names, a free value of the model where it does not restate them (log entries 11 and 44). -/

namespace Sys2Proof.Machine

/-- A message to the management controller: message type, code, body. -/
def say (type code : Nat) (body : List Byte) : Act := one (.out (.message (BitVec.ofNat 8 type) (BitVec.ofNat 8 code) body))
/-- The part of a response that a DMTF specification lays out. -/
def std (kind a b : Nat) : List Byte := Config.standardBody kind a b
/-- The act that changes the management port's state. -/
def setMgmt (f : Mgmt → Mgmt) : Act := look fun s => one (.mgmt (f s.mgmt))

/-! ## MCTP control (R614): served in every state of a device that is out of reset -/

/-- An MCTP control request: code and response. -/
def mctp (code : Nat) (eff : Act) (body : State → List Byte) : Act := look fun s =>
  act (!heldInReset s) (seq [eff, look fun s => say 0x00 code (0 :: body s)])

/-- Set Endpoint ID. -/
def actSetEndpointId (eid : Byte) : Act := mctp 1 (setMgmt (fun m => { m with eid := eid })) (fun s => 0 :: s.mgmt.eid :: [0])
/-- Get Endpoint ID. -/
def actGetEndpointId : Act := mctp 2 nop (fun s => s.mgmt.eid :: std 2 0 0)
/-- Get Endpoint UUID. -/
def actGetEndpointUuid : Act := mctp 3 nop (fun _ => Config.endpointUuid)
/-- Get MCTP Version Support: version 1.3 of the base specification and the versions of the message types supported. -/
def actGetMctpVersionSupport (type : Byte) : Act := mctp 4 nop (fun _ => std 3 type.toNat 0)
/-- Get Message Type Support: control, PLDM, SPDM and vendor-defined with IANA identity. -/
def actGetMessageTypeSupport : Act := mctp 5 nop (fun _ => [4, 0x00, 0x01, 0x05, 0x7F])
/-- Get Vendor Defined Message Support: the IANA identity is SEC_PEN. -/
def actGetVendorDefinedMessageSupport (selector : Byte) : Act :=
  mctp 6 nop (fun s => (leBytes 4 s.fuses.pen.toNat).reverse ++ std 4 selector.toNat 0)

/-! ## PLDM (R593, R594, R616) -/

/-- A PLDM request: answered in states INIT and RUN, and in the states listed of RECOVERY (3) and FUSE_ERROR (4); else with
ERROR_NOT_READY (0x04). -/
def pldm (extra : List Nat) (code : Nat) (eff : Act) : Act := look fun s =>
  act (!heldInReset s) (if ([1, 2] ++ extra).contains (devState s) then eff else say 0x01 code [0x04])
/-- A PLDM request that only answers. -/
def pldmRead (extra : List Nat) (code : Nat) (body : State → List Byte) : Act :=
  pldm extra code (look fun s => say 0x01 code (0 :: body s))

/-- GetTID. -/
def actGetTid : Act := pldmRead [3, 4] 0x02 (fun s => [s.mgmt.tid])
/-- SetTID. -/
def actSetTid (tid : Byte) : Act := pldm [3, 4] 0x01 (seq [setMgmt (fun m => { m with tid := tid }), say 0x01 0x01 [0]])
/-- GetPLDMVersion. -/
def actGetPldmVersion (type : Byte) : Act := pldmRead [3, 4] 0x03 (fun _ => std 5 type.toNat 0)
/-- GetPLDMTypes: types 0, 2, 4 and 5. -/
def actGetPldmTypes : Act := pldmRead [3, 4] 0x04 (fun _ => leBytes 8 0x35)
/-- GetPLDMCommands. -/
def actGetPldmCommands (type : Byte) : Act := pldmRead [3, 4] 0x05 (fun s => std 6 type.toNat (devState s))
/-- GetPDRRepositoryInfo. -/
def actGetPdrRepositoryInfo : Act := pldmRead [3, 4] 0x50 (fun _ => std 7 0 0)
/-- GetPDR. -/
def actGetPdr (record : Nat) : Act := pldmRead [3, 4] 0x51 (fun _ => std 8 record 0)

/-- The numeric sensors in the order of R616 (log entry 44): PWR_VIN, PWR_IIN, PWR_PAVG, PWR_LIMIT.eff, PWR_TDIE0–4, PWR_TVR, PWR_TCOOL;
after them the sequences that the resident herds keep in flight (R522; log entry 44). -/
def numericSensor (s : State) (n : Nat) : Option Nat :=
  let w (a hi lo : Nat) : Option Nat := some (fld (rd s a) hi lo)
  match n with
  | 0 => w (pwrPage 0 + 0x100) 15 0
  | 1 => w (pwrPage 0 + 0x104) 15 0
  | 2 => w (pwrPage 0 + 0x108) 15 0
  | 3 => w (pwrPage 0 + 0x10C) 27 16
  | 9 => w (pwrPage 1 + 0x124) 15 0
  | 10 => w (pwrPage 1 + 0x12C) 15 0
  | 11 => some (s.herd.foldl (fun a x => a + x.2.nseq) 0)
  | n => if n < 9 then w (pwrPage 1 + 0x100 + 4 * (n - 4)) 15 0 else none

/-- The state sensors in the order of R616: MGT_DEV_STAT.state, PWR_STATE, SEC_BOOT_STAT. -/
def stateSensor (s : State) (n : Nat) : Option Nat :=
  match n with
  | 0 => some (devState s)
  | 1 => some (rd s (pwrPage 0 + 0x120)).toNat
  | 2 => some (rd s bootStat).toNat
  | _ => none

/-- GetSensorReading: an unknown sensor is answered with completion code 0x80. -/
def actGetSensorReading (n : Nat) : Act := pldm [] 0x11 (look fun s => match numericSensor s n with
  | some v => say 0x01 0x11 (0 :: leBytes 2 v ++ std 9 n v)
  | none => say 0x01 0x11 [0x80])
/-- GetStateSensorReadings: in RECOVERY and FUSE_ERROR for the MGT_DEV_STAT.state sensor only. -/
def actGetStateSensorReadings (n : Nat) : Act := pldm (if n = 0 then [3, 4] else []) 0x21 (look fun s => match stateSensor s n with
  | some v => say 0x01 0x21 (0 :: leBytes 4 v ++ std 10 n v)
  | none => say 0x01 0x21 [0x80])
/-- SetEventReceiver. -/
def actSetEventReceiver (enable receiver : Byte) : Act :=
  pldm [] 0x04 (seq [setMgmt (fun m => { m with evEnable := enable, receiver := receiver }), say 0x01 0x04 [0]])
/-- EventMessageSupported. -/
def actEventMessageSupported : Act := pldmRead [] 0x0C (fun _ => std 11 0 0)
/-- EventMessageBufferSize: the smaller of the receiver's and the device's largest message, 8,192 bytes (R614). -/
def actEventMessageBufferSize (n : Nat) : Act :=
  pldm [] 0x0D (seq [setMgmt (fun m => { m with bufSize := min n 8192 }), say 0x01 0x0D (0 :: leBytes 2 (min n 8192))])
/-- PollForPlatformEventMessage (R615, R636, R637): the oldest message leaves the queue; mgt_alert_n is released with the last. -/
def actPollForPlatformEventMessage : Act := pldm [] 0x0B (look fun s => match s.evQueue with
  | [] => say 0x01 0x0B (0 :: std 12 0 0)
  | m :: ms => seq [one (.evQueue ms), wrFld evQstat 6 0 ms.length, say 0x01 0x0B (0 :: 0x01 :: m.evClass :: m.data),
      act ms.isEmpty (one (.out (.pinAlert false)))])
/-- GetFRURecordTableMetadata. -/
def actGetFruRecordTableMetadata : Act := pldmRead [] 0x01 (fun _ => std 13 0 0)
/-- GetFRURecordTable: the module, the carrier's Board Info Area, and each Beynex port's CMIS identity (R500, R616). -/
def actGetFruRecordTable (handle : Nat) : Act := pldmRead [] 0x02 (fun s => leBytes 16 s.fuses.dieId.toNat ++ [s.fuses.grade] ++
  regBytes s (secPage 0 + 0x104) 1 ++ (List.range 8).flatMap (fun n => regBytes s (bxPage n + 0x140) 13) ++ s.mgmt.board ++ std 14 handle 0)

/-! ### Firmware update (R608, R613). Phases are those of DSP0267: 0 idle, 1 learn components, 2 ready, 3 download, 4 verify, 5 apply, 6
activate -/

/-- The bank that an update writes: the one the running image did not come from; bank A in RECOVERY. -/
def updateBank (s : State) : Nat := if devState s = 3 then 0 else 1 - runBank s
/-- The act that changes the update. -/
def setUpdate (f : Update → Update) : Act := setMgmt (fun m => { m with update := f m.update })
/-- An update command that its phase accepts, or that is answered with completion code `bad`. -/
def updateCmd (code phase bad : Nat) (eff : Act) : Act := pldm [3] code (look fun s =>
  if s.mgmt.update.phase = phase then eff else say 0x01 code [BitVec.ofNat 8 bad])

/-- RequestUpdate: refused (0x81) while an update is open; an image larger than a bank is invalid. -/
def actRequestUpdate (size : Nat) : Act := updateCmd 0x10 0 0x81
  (if size = 0 ∨ 0x800000 < size then say 0x01 0x10 [0x02]
    else seq [setUpdate (fun _ => ⟨1, 0, size, false⟩), say 0x01 0x10 (0 :: std 15 size 0)])
/-- PassComponentTable: the one component is 0x0001. -/
def actPassComponentTable (comp : Nat) (v : Word) : Act := updateCmd 0x13 1 0x84
  (if comp = 1 then seq [setUpdate (fun u => { u with phase := 2 }), say 0x01 0x13 (0 :: std 16 comp v.toNat)]
    else say 0x01 0x13 (0 :: [1]))
/-- UpdateComponent: the download begins. -/
def actUpdateComponent (comp : Nat) (v : Word) : Act := updateCmd 0x14 2 0x84
  (if comp = 1 then seq [setUpdate (fun u => { u with phase := 3, received := 0 }), say 0x01 0x14 (0 :: std 17 comp v.toNat)]
    else say 0x01 0x14 (0 :: [1]))
/-- REQUEST_FIRMWARE_DATA: up to 4,096 bytes asked for arrive and are written into the other bank. -/
def actRequestFirmwareData (off : Nat) (data : List Byte) : Act := updateCmd 0x15 3 0x84 (look fun s =>
  act (decide (data.length ≤ 4096) && decide (off + data.length ≤ s.mgmt.update.size)) (seq [
    flashPut (bankAddr (updateBank s) + off) data, setUpdate (fun u => { u with received := u.received + data.length })]))
/-- TransferComplete: every byte has arrived. -/
def actTransferComplete : Act := updateCmd 0x16 3 0x84 (look fun s =>
  act (decide (s.mgmt.update.size ≤ s.mgmt.update.received)) (seq [setUpdate (fun u => { u with phase := 4 }), say 0x01 0x16 [0]]))
/-- VerifyComplete: checks 2 to 7 of R610 on the received image; a failed image ends the update. -/
def actVerifyComplete : Act := updateCmd 0x17 4 0x84 (look fun s =>
  match imageReject s (flashBytes s (bankAddr (updateBank s)) 0x800000) with
  | none => seq [setUpdate (fun u => { u with phase := 5, verified := true }), say 0x01 0x17 [0]]
  | some c => seq [setUpdate (fun _ => ⟨0, 0, 0, false⟩), say 0x01 0x17 [BitVec.ofNat 8 c]])
/-- ApplyComplete (R608, R613): the record prefers the new bank, unconfirmed with one start. In RECOVERY a device reset follows, whose
cause code the manual does not give (a free value). -/
def actApplyComplete : Act := updateCmd 0x18 5 0x84 (look fun s => seq [writeRecord (updateBank s) 1 false,
  setUpdate (fun u => { u with phase := 6 }), say 0x01 0x18 [0],
  act (decide (devState s = 3)) (seq [acceptReset (1 + freeAt s 0 % 7), takeFree 1])])
/-- ActivateFirmware: device reset only; a self-contained activation is refused (0x85). -/
def actActivateFirmware (selfContained : Bool) : Act := updateCmd 0x1A 6 0x84
  (if selfContained then say 0x01 0x1A [0x85] else seq [setUpdate (fun _ => ⟨0, 0, 0, false⟩), say 0x01 0x1A (0 :: leBytes 2 0)])
/-- GetStatus. -/
def actGetStatus : Act := pldmRead [3] 0x1B (fun s => BitVec.ofNat 8 s.mgmt.update.phase :: std 18 s.mgmt.update.phase s.mgmt.update.received)
/-- CancelUpdate: the update is abandoned. -/
def actCancelUpdate : Act := pldm [3] 0x1D (look fun s =>
  if s.mgmt.update.phase = 0 then say 0x01 0x1D [0x80] else seq [setUpdate (fun _ => ⟨0, 0, 0, false⟩), say 0x01 0x1D (0 :: std 19 0 0)])

/-! ## SPDM (R593, R621 to R625). Response and error codes are those of DSP0274 -/

/-- An SPDM ERROR. -/
def spdmError (code : Nat) (data : List Byte) : Act := say 0x05 0x7F (BitVec.ofNat 8 code :: data)

/-- An SPDM request is served while the firmware runs, and answered with Busy (0x03) before (R593). One that comes out of order is
unexpected (0x04). A request other than the one that fetches it discards the pending composite signature (R623). -/
def spdm (keep : Bool) (ok : Mgmt → Bool) (body : Act) : Act := look fun s =>
  act (!heldInReset s) (if devState s = 1 ∨ devState s = 2 then
      seq [act (!keep) (setMgmt (fun m => { m with pending := none, pqReady := false })), if ok s.mgmt then body else spdmError 0x04 []]
    else spdmError 0x03 [])

/-- A request and its response join the transcript. -/
def note (bs : List Byte) : Act := setMgmt (fun m => { m with transcript := m.transcript ++ bs })
/-- The message that a response's signatures cover: the transcript and the request's own nonce. -/
def signedMsg (m : Mgmt) (what : Nat) (nonce : List Byte) : List Byte := std 20 what 0 ++ sha384 (m.transcript ++ nonce)

/-- GET_VERSION: version 1.2 alone; the exchange starts anew. -/
def actGetVersion : Act := spdm false (fun _ => true) (seq [
  setMgmt (fun m => { m with spdmVersion := true, spdmCaps := false, spdmAlgs := false, transcript := [0x84] }), say 0x05 0x04 [0x12]])
/-- GET_CAPABILITIES: CERT_CAP, CHAL_CAP, MEAS_CAP with signatures; CTExponent 14. -/
def actGetCapabilities : Act := spdm false (·.spdmVersion) (seq [setMgmt (fun m => { m with spdmCaps := true }), note [0xE1],
  say 0x05 0x61 (14 :: std 21 0 0)])
/-- NEGOTIATE_ALGORITHMS. -/
def actNegotiateAlgorithms : Act := spdm false (·.spdmCaps) (seq [setMgmt (fun m => { m with spdmAlgs := true }), note [0xE3],
  say 0x05 0x63 (std 22 0 0)])
/-- GET_DIGESTS: slot 0. -/
def actGetDigests : Act := spdm false (·.spdmAlgs) (seq [note [0x81], say 0x05 0x01 (0x01 :: std 23 0 0)])
/-- GET_CERTIFICATE: a part of the slot-0 chain in the certificate store; another slot is invalid (0x01). -/
def actGetCertificate (slot off len : Nat) : Act := spdm false (·.spdmAlgs) (look fun s =>
  if slot ≠ 0 then spdmError 0x01 []
  else seq [note [0x82], say 0x05 0x02 (leBytes 2 len ++ flashBytes s (0x1000000 + off) (len % 65536))])

/-- A signed response leaves the composite signature pending (R623). -/
def signAndHold (code what : Nat) (body nonce : List Byte) : Act := look fun s =>
  let msg := signedMsg s.mgmt what nonce
  seq [say 0x05 code (body ++ Config.rsaSign msg), setMgmt (fun m => { m with pending := some msg, pqReady := false })]

/-- CHALLENGE. -/
def actChallenge (slot : Nat) (nonce : List Byte) : Act := spdm false (·.spdmAlgs)
  (if slot ≠ 0 then spdmError 0x01 [] else seq [note [0x83], signAndHold 0x03 1 (std 24 0 0) nonce])

/-- Measurement n as a response carries it. -/
def measureBytes (s : State) (n : Nat) : List Byte := BitVec.ofNat 8 n :: regBytes s (secPage 1 + 0x100 + 0x40 * (n - 1)) 12
/-- GET_MEASUREMENTS: index 0 asks for the number, 1 to 5 for one measurement, 0xFF for all; another index is invalid. -/
def actGetMeasurements (i : Nat) (sign : Bool) (nonce : List Byte) : Act := spdm false (·.spdmAlgs) (look fun s =>
  if i ≠ 0 ∧ i ≠ 0xFF ∧ 5 < i then spdmError 0x01 []
  else
    let body := if i = 0 then [5] else if i = 0xFF then [1, 2, 3, 4, 5].flatMap (measureBytes s) else measureBytes s i
    seq [note [0xE0], if sign then signAndHold 0x60 2 body nonce else say 0x05 0x60 body])

/-- The pending composite signature, once ready; until then ResponseNotReady (0x42) with RDTExponent 18; with none, `bad`. -/
def pqResponse (bad : Nat) : Act := look fun s => match s.mgmt.pending with
  | none => spdmError bad []
  | some msg => if s.mgmt.pqReady then say 0x05 0x7E ([0x01, 0x00] ++ leBytes 2 7856 ++ Config.slhSign msg) else spdmError 0x42 [18]
/-- RESPOND_IF_READY: the deferred response. -/
def actRespondIfReady : Act := spdm true (·.spdmAlgs) (pqResponse 0x04)
/-- GET_PQ_SIG: vendor code 0x01 (R623, R624). -/
def actGetPqSig : Act := spdm true (·.spdmVersion) (pqResponse 0x01)
/-- GET_PQ_CERT: vendor code 0x02; the certificate store's layout is not given. -/
def actGetPqCert : Act := spdm false (·.spdmVersion) (say 0x05 0x7E ([0x02, 0x00] ++ std 25 0 0))
/-- PQ_SIG_READY (R622): the SEC_ signer completes the composite signature. -/
def actPqSigReady : Act := look fun s => act s.mgmt.pending.isSome (setMgmt (fun m => { m with pqReady := true }))

end Sys2Proof.Machine
end

