-- ==== Sys2Proof/Machine/Hcmd.lean ====
section
/-! DEFINITION. Commands of a pod herd among the members (R476 to R478, R634): the HCMD frame at a member, the HCPL frame and its timeout at the lead. -/

namespace Sys2Proof.Machine

/-- n bytes of a command's parameters from offset o, as a number. -/
def parAt (ps : List Byte) (o n : Nat) : Nat := leNat ((ps.drop o).take n)
/-- A 64-bit parameter. -/
def par64 (ps : List Byte) (o : Nat) : DWord := BitVec.ofNat 64 (parAt ps o 8)

/-- The MIG command whose parameters R514 lays out, at a member. -/
def migBody (ps : List Byte) (a : Asker) (h : Nat) : Act :=
  let w := parAt ps 0 4
  let page := bits (parAt ps 4 4) 25 0
  let n := bits (parAt ps 8 4) 25 0
  let reads := runPages page n
  let dest := bits w 12 11
  let port := bits w 17 13
  let t := BitVec.ofNat 8 (bits w 25 18)
  let g : HerdNo := ⟨bits w 31 26 % 64, Nat.mod_lt _ (by decide)⟩
  match bits w 7 0 with
  | 1 => migServe a h (runOk page n dest port) reads (allocRefused page n dest port (w.testBit 9) (w.testBit 10))
      (migAlloc page n dest port (w.testBit 9) (w.testBit 10))
  | 2 => migServe a h (runOk page n 1 0) reads noneRefused (migFree page n)
  | 3 => migServe a h (runOk page n dest port) reads noneRefused (migMove page n dest port)
  | 4 => migServe a h (runOk page n 1 0) reads noneRefused (if w.testBit 8 then migUnpin page n else migPin page n)
  | 5 => migServe a h (runOk page n 1 0) reads noneRefused (migProt page n (w.testBit 9))
  | 6 => migServe a h (runOk page n 1 0) reads noneRefused (migShare page n t)
  | 7 => migServe a h true [] noneRefused (if w.testBit 8 then migRevoke t g else migAdmit t g)
  | _ => answer a 2 0

/-- The parameters of EVAL, with the entries that travelled with them (log entry 39). -/
def evalParams (ps : List Byte) (es : List RegwEntry) : EvalParams :=
  let w := parAt ps 8 4
  ⟨par64 ps 0, bits w 10 0, bits w 26 16, par64 ps 16, bits (parAt ps 24 4) 10 0, BitVec.ofNat 32 (parAt ps 28 4),
    bits (parAt ps 32 8) 15 0, es⟩

/-- SNAP_RESTORE at a member: the word beside the slot orders a survivor's restore, which answers at once. -/
def restoreMember (ps : List Byte) (a : Asker) (h : Nat) : Act :=
  let w := parAt ps 12 4
  if w.testBit 0 then seq [survive h (bits w 13 8) (w.testBit 1), answer a 0 0]
  else restoreBody (par64 ps 0) (parAt ps 8 4 % 2) a h

/-- What a forwarded command does at a member; a reserved opcode answers status 2 (R514, R515). DEDUCED (log entry 73): EXT_REG and EXT_DEREG
register nothing at a member, which has no host port of the function. -/
def memberBody (op : Nat) (last : Bool) (ps : List Byte) (es : List RegwEntry) (a : Asker) (h : Nat) : Act :=
  match op with
  | 0x01 => createHere a h none 0 (createParams ps)
  | 0x02 => ringsBody (par64 ps 0) (bits (parAt ps 8 4) 3 0) a h
  | 0x03 => regwPart h es a
  | 0x04 => startBody ((parAt ps 4 4).testBit 0) (par64 ps 8) (par64 ps 16) a h
  | 0x05 => stopBody a h
  | 0x06 => resumeBody (par64 ps 8) a h
  | 0x07 => parkBody a h
  | 0x08 => unparkBody (bits (parAt ps 0 4) 10 0) (BitVec.ofNat 4 (bits (parAt ps 0 4) 15 12)) a h
  | 0x09 => seq [endCommands h 7, destroyBody a h]
  | 0x10 => migBody ps a h
  | 0x11 | 0x12 => answer a 0 0
  | 0x18 => progBody (parAt ps 0 8) (bits (parAt ps 8 4) 7 0) (bits (parAt ps 8 4) 15 8 + 1) a h
  | 0x19 => dumpBody (parAt ps 0 8) a h
  | 0x1A => evalPart (evalParams ps es) last a h
  | 0x20 => cfgBody (cfgParams ps) a h
  | 0x21 => mtbfBody (BitVec.ofNat 32 (parAt ps 0 4)) (BitVec.ofNat 8 (parAt ps 4 4)) ((parAt ps 4 4).testBit 8) a h
  | 0x22 => nowBody a h
  | 0x23 => statBody a h
  | 0x24 => restoreMember ps a h
  | 0x25 => fetchBody (par64 ps 0) (par64 ps 8) (parAt ps 16 4) a h
  | 0x26 => offBody a h
  | _ => answer a 2 0

/-- Whether a failed herd accepts the command (R524): FREE of MIG, DUMP, HERD_DESTROY and the snapshot commands. -/
def failedAccepts (op : Nat) (ps : List Byte) : Bool :=
  op = 0x09 || op = 0x19 || decide (0x20 ≤ op) || (op = 0x10 && decide (bits (parAt ps 0 4) 7 0 = 2))

/-- Whether a command cannot be taken yet: a page that it reads moves, or another dump runs. -/
def memberWaits (s : State) (op : Nat) (ps : List Byte) (h : Nat) : Bool :=
  match op with
  | 0x02 => areaWaits s h (parAt ps 0 8) (bits (parAt ps 8 4) 3 0)
  | 0x18 => imageWaits s h (parAt ps 0 8) (bits (parAt ps 8 4) 15 8 + 1)
  | 0x19 => dumpWaits s h (parAt ps 0 8)
  | 0x25 => (areaJudged s h (parAt ps 8 8) (parAt ps 16 4)).contains .waits
  | 0x20 => decide (readList s h (cfgParams ps).list.toNat (cfgParams ps).entries = .wait)
  | _ => false

/-- Whether an HCMD frame waits in its receive buffer. -/
def hcmdWaits (s : State) (x : HeldFrame) : Bool := x.cmd.any (fun c => memberWaits s c.op c.params x.hdr.herd.val)

/-- An HCMD is taken (R476 to R478): the member runs its part of a command for herd h and answers in an HCPL. -/
def takeHcmd (x : HeldFrame) : Act := look fun s =>
  match x.cmd with
  | none => nop
  | some c =>
    let h := x.hdr.herd.val
    let a : Asker := .lead c.htag c.part h
    match herdOf s h with
    | none =>
      if c.op = 1 then memberBody c.op c.last c.params c.entries a h
      else if c.op = 0x20 then regionBody (cfgParams c.params) a h
      else if c.op = 9 then seq [clearSnap h, answer a 0 0]
      else answer a 6 0
    | some y => if y.failed && !failedAccepts c.op c.params then answer a 4 0 else memberBody c.op c.last c.params c.entries a h

/-- HCMD. -/
def actHcmd (f : FrameHdr) (c : HeldCmd) : Act := rxWaiting ⟨f, 0x17, [], some c⟩ (fromLead f) hcmdWaits takeHcmd

/-- Whether a frame in a receive buffer waits. -/
def frameWaits (s : State) (x : HeldFrame) : Bool :=
  if x.type = 0x01 then wrWaits s x
  else if x.type = 0x06 then mcdWaits s x
  else if x.type = 0x17 then hcmdWaits s x
  else passWaits s x

/-- What taking a frame from its receive buffer does. -/
def takeHeld (x : HeldFrame) : Act :=
  if x.type = 0x01 then takeWr x
  else if x.type = 0x06 then takeMcd x
  else if x.type = 0x17 then takeHcmd x
  else takePass x

/-- The frames in the receive buffers that can be taken are taken (R462). -/
def serveFrames : Act := serveAll frameWaits takeHeld

/-- HCPL: a member's answer, or with htag 0xFFFF an event record of a pod herd (R476, R634) or the reason for which it has failed there. -/
def actHcpl (f : FrameHdr) (htag status : Nat) (count : Nat) (result : DWord) (record : List Byte) : Act :=
  rxTorus f 0x18 (if htag = 0xFFFF ∧ status = 0 then 40 else 16) isLead
    (if htag = 0xFFFF ∧ status ≠ 0 then failHerd f.herd.val status
    else if htag = 0xFFFF then memberRecord f.herd.val (record.take 16) (BitVec.ofNat 64 (leNat ((record.drop 16).take 8)))
      else takeAnswer f.src.toNat htag status count result)

/-- HCMD_TIMEOUT (R476, R515): 10 ms have passed and a member has not answered; the command completes with status 5. -/
def actHcmdTimeout (htag : Nat) : Act := look fun s =>
  match s.hcmd.find? (fun o => decide (o.htag = htag)) with
  | none => nop
  | some o => act (o.waiting.any (fun q => decide (q ≠ ownPos s)))
      (seq [one (.hcmd (s.hcmd.map (fun x => if x = o then { o with status := 5 } else x))), each o.waiting fun q => takeAnswer q htag 5 0 0])

end Sys2Proof.Machine
end

