-- ==== Sys2Proof/Machine/Mover.lean ====
section
/-! DEFINITION. The mover (R107, R146, R147): copies word by word between the core store and the unified range or a peer's store. -/

namespace Sys2Proof.Machine

/-- The MV_CHn registers of a site. -/
def mvReg (site ch : Nat) : Nat := mvPage site + 0x100 + 16 * ch
/-- Words still to write. -/
def mvLeft (s : State) (site ch : Nat) : Nat := fld (rd s (mvReg site ch)) 28 19
/-- The core-store word of the next word to copy. -/
def mvLocal (s : State) (site ch : Nat) : Nat := fld (rd s (mvReg site ch + 4)) 15 0
/-- The next word's far address: a unified-range byte address, or a peer's hidx and word. -/
def mvFar (s : State) (site ch : Nat) : Nat := (rd64 s (mvReg site ch + 8)).toNat

/-- Whether an issued instruction is a mover copy. -/
def isCopy (i : Issued) : Bool := decide (i.part = 3) && (decide (opOf 3 i.word = 1) || decide (opOf 3 i.word = 2))
/-- Its channel. -/
def copyCh (i : Issued) : Nat := b2n (bit i.word 26)
/-- Whether it is a MOV.P. -/
def isMovP (i : Issued) : Bool := decide (opOf 3 i.word = 2)

/-- The copy in progress on a channel. -/
def copyOn (s : State) (site ch : Nat) : Option Issued :=
  (coreX s site).issued.find? (fun i => isCopy i && i.started && !i.faulted && decide (copyCh i = ch))

/-- A copy begins: its channel's registers take it. A fenced mover begins no copy (R148). -/
def beginCopy (site op : Nat) : Act := look fun s =>
  match nextToStart s site 3 op with
  | none => nop
  | some i =>
    let a := mvReg site (copyCh i)
    let far := if isMovP i then i.far else 32 * i.far
    act (!fenced s (mvPage site)) (seq [
      setIssued site i { i with started := true },
      wr a (BitVec.ofNat 32 (0x80000000 + 0x40000000 * b2n (isMovP i) + 0x20000000 * b2n (bit i.word 25) +
        movLen i.word * 524288 + fld i.word 7 0 * 2048 + i.row)),
      wr (a + 4) (BitVec.ofNat 32 i.addr), wr64 (a + 8) (BitVec.ofNat 64 far)])

/-- MOV.C. -/
def actMovC (site : Nat) : Act := beginCopy site 1
/-- MOV.P. -/
def actMovP (site : Nat) : Act := beginCopy site 2

/-- A copy faults at its next word (R146): the MV_ page reports it as well as the SEQ_ page. DESIGN CHOICE (log entry 68): the space bit of
the capture is 1 for a fault on the far side, of a MOV.P too, whose far value names a peer's store. -/
def copyFault (site ch : Nat) (i : Issued) (cause : Nat) : Act := look fun s =>
  let onFar := decide (cause ≠ 0x21)
  seq [wrBit (mvReg site ch) 31 false, count (mvPage site) 4 1, setIst (mvPage site) 8,
    raise (mvPage site) { cls := causeClass cause, code := some cause, addr := some (mvFar s site ch), herd := herdAt s site },
    insnFault site i onFar (if onFar then i.far else i.addr) cause]

/-- A word has been copied. -/
def copyStep (site ch slot : Nat) (movP : Bool) : Act := look fun s =>
  let a := mvReg site ch
  seq [wrFld a 28 19 (mvLeft s site ch - 1), wr (a + 4) (BitVec.ofNat 32 ((mvLocal s site ch + 1) % 65536)),
    wr64 (a + 8) (BitVec.ofNat 64 (mvFar s site ch + (if movP then 1 else 32))), count (mvPage site) slot 1]

/-- The word at the local side is read (R96): it goes on to `use`, or the copy faults. -/
def readLocal (site ch : Nat) (i : Issued) (found : Cell) (use : Act) : Act := look fun s =>
  let l := mvLocal s site ch
  seq [stCount site 1, stFound site l found, if stVerdict s site l found = .bad then copyFault site ch i 0x21 else use]

/-- A word of a MOV.C. A write to the unified range updates a line of the core's row cache that holds it (DESIGN CHOICE, log entry 128). -/
def copyWord (site ch : Nat) (i : Issued) (found : Cell) : Act := look fun s =>
  let h := herdNo s site
  let a := mvFar s site ch
  let l := mvLocal s site ch
  if bit i.word 25 then
    let bs := stBytes s site (32 * l) 32
    let judged := urWriteJudge s h a 32
    if judged = .wait then nop
    else readLocal site ch i found (match judged with
      | .fault c _ => seq [urRefusedActs h a 32 bs, copyFault site ch i c]
      | _ => seq [urWrite h a bs, rcUpdate site a bs, copyStep site ch 1 false])
  else match urRead s h a 32 with
    | .wait => nop
    | .fault c _ => seq [urReadActs h a 32 .mesh, copyFault site ch i c]
    | .ok bs => seq [urReadActs h a 32 .mesh, stCount site 1, stWrite site (32 * l) bs, copyStep site ch 0 false]

/-- The site of a MOV.P's peer. -/
def peerOf (s : State) (site ch : Nat) : Option Nat :=
  (herdAt s site).bind (fun h => siteAt s h (mvFar s site ch / 65536 % 1024))

/-- The oldest response that has arrived for a channel (R147). -/
def movAnswer (s : State) (site : Nat) (ch : Fin 2) : Option MovAnswer :=
  ((coreX s site).movAnswers.find? (fun p => decide (p.1 = ch))).map (·.2)

/-- A channel's response is taken, and the packet that it answers awaits none. -/
def takeMovAnswer (site : Nat) (ch : Fin 2) : Act := setCore site (fun x =>
  { x with movSent := x.movSent.filter (· ≠ ch), movAnswers := x.movAnswers.filter (fun p => decide (p.1 ≠ ch)) })

/-- The packet of a MOV.P's next word leaves for the peer (R147): the word of a write, or the request of a read, which carries what the read will find. -/
def sendWord (site : Nat) (ch : Fin 2) (i : Issued) (found : Cell) : Act := look fun s =>
  match peerOf s site ch with
  | none => nop
  | some p =>
    let w := mvFar s site ch % 65536
    let go (data : Option (BitVec 256)) (far : Cell) : Act := seq [setCore site (fun x => { x with movSent := x.movSent ++ [ch] }),
      sendMov site p 1 (herdNo s site) (.movReq ch w data far)]
    if bit i.word 25 then readLocal site ch i found (go (some (stGet s site (mvLocal s site ch))) .good) else go none found

/-- The response to a MOV.P's packet has come (R147): a word read is written in this core's store; a word that the peer could not correct
faults (R96), and the capture holds the local word with space 0 (DESIGN CHOICE, log entry 68). A fenced response is MOVP_FENCED_RESPONSE's. -/
def takeWord (site : Nat) (ch : Fin 2) (i : Issued) (a : MovAnswer) : Act := look fun s =>
  match a with
  | .word w => seq [takeMovAnswer site ch, stCount site 1, stPut site (mvLocal s site ch) w, copyStep site ch 2 true]
  | .written => seq [takeMovAnswer site ch, copyStep site ch 2 true]
  | .bad => seq [takeMovAnswer site ch, copyFault site ch i 0x21]
  | .fenced => nop

/-- MOVER_WORD: the copy on a channel copies its next word, or faults there; of a MOV.P, the word's packet leaves, or its response is
taken. `found`: what the read of the word finds: at the local side, or in the peer's store for a MOV.P that reads it (log entry 56). -/
def actMoverWord (site : Nat) (ch : Fin 2) (found : Cell) : Act := look fun s =>
  match copyOn s site ch with
  | none => nop
  | some i =>
    if mvLeft s site ch = 0 then nop
    else if isMovP i then
      match movAnswer s site ch with
      | some a => takeWord site ch i a
      | none => act (!(coreX s site).movSent.contains ch) (sendWord site ch i found)
    else copyWord site ch i found

/-- MOVER_COPY_DONE (R107): every word is written; the done flag is set and the copy retires. -/
def actMoverCopyDone (site ch : Nat) : Act := look fun s =>
  match copyOn s site ch with
  | none => nop
  | some i => act (decide (mvLeft s site ch = 0)) (seq [
      wrBit (mvReg site ch) 31 false, count (mvPage site) 3 1, retire site i, setDone site (fld i.word 7 0)])

/-- MOVP_FENCED_RESPONSE (R147): a packet of a MOV.P has been answered as fenced, and the copy faults with cause 0x14. -/
def actMovpFenced (site : Nat) (ch : Fin 2) : Act := look fun s =>
  match copyOn s site ch with
  | some i => act (isMovP i && decide (movAnswer s site ch = some .fenced))
      (seq [takeMovAnswer site ch, count (mvPage site) 5 1, copyFault site ch i 0x14])
  | none => nop

end Sys2Proof.Machine
end

