-- ==== Sys2Proof/Machine/Access.lean ====
section
/-! DEFINITION. Accesses to the control window (R20 to R42, R45, R640): which register behaviour a write meets, block resets (R38, R39, R346, R641, R643) and fences (R37, R82, R290), and reads. -/

namespace Sys2Proof.Machine

/-! ## Block resets -/

/-- What a reset of a core's page clears beyond the page's registers (R643). The CORE_ page takes the core out of its herd and its router's
local port out of sink mode; after the SEQ_ page the core is UNASSIGNED. -/
def coreReset (b : Block) : Act :=
  match b with
  | .core c => look fun s => seq [stClear c,
      each (s.herd.filter (fun p => p.2.sites.contains c)) (fun p => setHerd p.1 (fun x => { x with sites := x.sites.erase c })),
      setCore c (fun x => { x with rowCache := [], scrubPos := 0 }), wrBit (fabPage c + 0x14) 17 false]
  | .seq c => seq [rodClear c,
      setCore c (fun x => { x with issued := [], stopPend := false, pausePend := false, halting := none, faulting := false,
                                   slipOwed := false, armKind := 0, evalAt := none, bounds := 0,
                                   rowsInStep := 0, fenceStep := 0 })]
  | .tile c => seq [one (.vregKeep (fun k => !ofSite 64 c k)), setCore c (fun x => { x with tcPend := [] })]
  | .cube c => seq [one (.accKeep (fun k => !ofSite 2048 c k)),
      setCore c (fun x => { x with cube := none, cubeWait := none, dwq := [], dwqHead := 0, dwqCur := none, dwqCarry := false,
                                   pipe := [], accFlip := [] })]
  | .vu c => setCore c (fun x => { x with w1 := [], figs := [], uses := [], mergeOwed := false, formatRaised := 0 })
  | .tly c => clearTallies c
  | .mv c => setCore c (fun x => { x with issued := x.issued.filter (fun i => !isCopy i), movSent := [], movAnswers := [] })
  | _ => nop

/-- The RW fields of a UE_ page, and the program-valid bits, by address. -/
def ueKept (s : State) (n : Nat) : List (Nat × Word) :=
  ueRegs.flatMap fun d =>
    if d.rw = 0 ∧ d.off ≠ 0x120 then []
    else (List.range d.n).map fun k =>
      let a := uePage n + d.off + d.stride * k
      (a, if d.off = 0x120 then rd s a else (rd s a &&& BitVec.ofNat 32 d.rw) ||| (resetWord a &&& ~~~BitVec.ofNat 32 d.rw))

/-- A reset of a UE_ page (R346): active descriptors are abandoned and their herds fail with reason 5. DEDUCED (log entry 45): what the
ring controller then writes are the RW fields as they stood, and it reloads the programs, one that waited to replace another with them. -/
def ueReset (n : Nat) : Act := look fun s =>
  let lost := s.desc.filter (fun d => decide (d.eng = n) && decide (d.phase ≠ 0))
  let kept := ueKept s n
  seq [one (.desc (s.desc.filter (fun d => decide (d.eng ≠ n)))), one (.ctlReset (uePage n) (uePage n + 0x1000)),
    each kept (fun p => wr p.1 p.2), each (s.progPend.filter (fun q => decide (q.eng = n))) (fun q => putProgram n q.index q.words q.valid),
    one (.progPend (s.progPend.filter (fun q => decide (q.eng ≠ n)))), each (lost.map (·.herd)).eraseDups (fun h => failHerd h 5)]

/-- A block reset is taken (R38): the page returns to its reset values, sticky fields excepted. -/
def pageReset (b : Block) (p : Nat) : Act := look fun s =>
  match b with
  | .mgt 3 => one (.ctlReset (p + 0x10) (p + 0x100))
  | .ue n => ueReset n
  | .mp n => seq [each (s.mergeBuf.filter (fun m => decide (m.port = n))) retireMerge, one (.ctlReset p (p + 0x1000))]
  | .bx n => seq [act (linkUp s n) (portDown n), one (.bx n BxPort.clear), one (.ctlReset p (p + 0x1000))]
  | .fabG => seq [one (.bulkPendKeep (fun _ => false)), one (.bulkOpen []), one (.ctlReset p (p + 0x1000))]
  | .fnPage _ => one (.ctlReset p (p + 0x1000))
  | _ => one (.ctlReset p (p + 0x1000))

/-- The words of a page that show what lies outside the page, which its reset does not reach (R43, R596; DESIGN CHOICE, log entry 139): a
function's herd, the state of the device, its fuses, clocks, memory channels, power, firmware and frames, and the levels of conditions. -/
def shownWords (b : Block) : List Nat :=
  match b with
  | .fnPage _ | .mgt 0 => [0x100]
  | .mgt 1 => [0x104]
  | .mgt 2 => [0x2C, 0x100, 0x110, 0x114, 0x118, 0x11C]
  | .mp _ => [0x10C]
  | .pwr 0 => [0x2C, 0x100, 0x104, 0x108, 0x11C, 0x120]
  | .pwr 1 => [0x2C, 0x100, 0x104, 0x108, 0x10C, 0x110, 0x120, 0x124, 0x12C]
  | .sec 0 => [0x100, 0x104, 0x108]
  | .mig 0 => [0x2C, 0x108, 0x110]
  | .mig 1 => (List.range 64).flatMap (fun h => [0x208 + 32 * h, 0x20C + 32 * h])
  | _ => []

/-- Those words keep what they showed in s, and the levels that depend on reset fields follow them. -/
def keepShown (b : Block) (p : Nat) (s : State) : Act :=
  seq [each (shownWords b) (fun o => wr (p + o) (rd s (p + o))), (match b with
    | .mig 0 => bumpFree 0
    | .pwr 0 => act (decide (fld (rd s (p + 0x10C)) 27 16 ≠ 0)) setEff
    | .pwr 1 => tempLevels
    | _ => nop)]

/-- A core's page has been reset: of a fenced core, it is no longer owed (R88). -/
def resetDone (c p : Nat) : Act :=
  setCore c (fun x => { x with owedResets := setBit x.owedResets ((fenceOrder c).findIdx (· = p)) false })

/-- BLK_CTRL.blk_reset of the page at p (R38, R643): refused with PROTOCOL in a core's page unless the core is UNASSIGNED or FENCED. -/
def blkReset (r : Requester) (b : Block) (p : Nat) : Act := look fun s =>
  if b.coreSite.any (fun c => !(decide (coreState s c = 0) || decide (coreState s c = 9))) then protocolAt p r
  else seq [pageReset b p, keepShown b p s, coreReset b, (match b.coreSite with
      | some c => resetDone c p
      | none => nop), wrBit (p + 0x14) 1 true]

/-! ## Fences -/

/-- What sets in as the fence bit is set: the DWQ abandons what has not begun (R290); a router is withdrawn, and the ring controller
routes around it once the mesh is quiet (R59, R76, R77). -/
def fenceSets (b : Block) : Act :=
  match b with
  | .cube c => abandonDwq c
  | .fab c => seq [withdrawRouter c, wr (fabGPage + 0x100) 1]
  | _ => nop

/-- Whether all work in flight in a fenced block has drained (R37, R82, R346). -/
def blockDrained (s : State) (b : Block) : Bool :=
  match b with
  | .seq c => (coreX s c).issued.all (fun i => i.faulted || isDeferred i)
  | .mv c => (copyOn s c 0).isNone && (copyOn s c 1).isNone && (coreX s c).movSent.isEmpty
  | .cube c => (coreX s c).cube.isNone && (coreX s c).cubeWait.isNone && (coreX s c).dwqCur.isNone && (coreX s c).pipe.isEmpty
  | .vu c => !(coreX s c).issued.any (fun i => decide (i.part = 2) && i.started && !i.faulted) && (coreX s c).w1.isEmpty
  | .tile c => !(coreX s c).issued.any (fun i => isTileOp i && i.started && !i.faulted)
  | .core c => (coreX s c).issued.all (·.faulted) && (coreX s c).pipe.isEmpty
  | .ue n => decide (activeCount s n = 0)
  | .mig _ => s.moves.all (fun m => !m.started)
  | .bx 0 => s.coll.all (fun c => !c.started)
  | .fab c => s.packets.all (fun q => decide (q.at_ ≠ c))
  | .fnPage f => (List.range 16).all (fun k => (mGet s.busyRing (16 * f + k)).isNone)
  | _ => true

/-- What a block does as it reports fenced: a TLY_ unit abandons its pending wait and a CORE_ page puts the local port in sink mode, the
core being FENCED (R82; log entry 46); a memory port writes its merge entries out (R401). -/
def fenceEnds (b : Block) : Act := look fun s =>
  match b with
  | .tly c => withdrawWait c
  | .core c => seq [wrBit (fabPage c + 0x14) 17 true, setCoreState c 9, setCore c (fun x => { x with owedResets := 0x7F })]
  | .mp n => each (s.mergeBuf.filter (fun m => decide (m.port = n))) retireMerge
  | _ => nop

/-- BLK_FENCED: the block has drained. -/
def actBlkFenced (page : Nat) : Act := look fun s =>
  let b := blockOf s page
  let p := 4096 * page
  act (decide (b ≠ .absent) && !b.isWindow && fenced s p && !isFenced s p && blockDrained s b)
    (seq [fenceEnds b, wrBit (p + 0x14) 2 true])

/-! ## Header registers -/

/-- A write of BLK_CTRL (R37, R38, R42): blk_reset ignores every other bit. -/
def blkCtrlWrite (r : Requester) (b : Block) (p : Nat) (v : Word) : Act := look fun s =>
  if bit v 1 then blkReset r b p
  else seq [act (bit v 3) (clearCounters p (decide (r = .ringCtl))), maskWrite b (p + 0x10) v,
    act (bit v 2 && !fenced s p) (fenceSets b), act (!bit v 2) (wrBit (p + 0x14) 2 false)]

/-- A write of BLK_ISET (R45). -/
def isetWrite (p : Nat) (v : Word) : Act := look fun s => wr (p + 0x20) (rd s (p + 0x20) ||| (v &&& 0xFFFF))

/-! ## Registers with a behaviour of their own -/

/-- Whether a write of v to the register at BAR0 offset a clears bits alone. -/
def clearsOnly (s : State) (a : Nat) (v : Word) : Bool := decide (v &&& ~~~(rd s a) = 0)

/-- A write of a pod-configuration register (R457): discarded with PROTOCOL while the device is a pod member, but for the clearing of
bits of BX_POD_PRESENT. -/
def podWrite (r : Requester) (n off a : Nat) (v : Word) : Act := look fun s =>
  let clears := (decide (off = 0x808) || decide (off = 0x80C)) && clearsOnly s a v
  if podEn s && !clears then protocolAt (bxPage 0) r else seq [maskWrite (.bx n) a v, takePodMeasure]

/-- A write of HP_LIM_*: one below the amount in use is discarded (R527). -/
def limitRegWrite (k off a : Nat) (v : Word) : Act := look fun s =>
  let cur (o hi : Nat) : Nat := if off = o then fld v hi 0 else fld (rd s (hpPage k + o)) hi 0
  let used (o hi : Nat) (n : Nat) : Bool := decide (off ≠ o) || decide (n ≤ cur o hi)
  if used 0x110 10 (portSum s k coresOf) && used 0x114 25 (portSum s k (·.quota)) && used 0x118 16 (portSum s k (·.ngroups)) &&
      used 0x11C 6 (portSum s k (fun _ => 1)) && used 0x120 10 (portSum s k (·.nseq)) then seq [maskWrite (.hp k) a v, takePodMeasure]
  else nop

/-- A write of an MSI-X vector control: a pending vector that is unmasked is signalled (PRESUMED, log entry 20). -/
def vectorWrite (f v : Nat) (a : Nat) (w : Word) : Act := look fun s =>
  let pba := fnPageOf f + 0xC00 + v / 32 * 4
  seq [maskWrite (.fnPage f) a w,
    act (!bit w 0 && bit (rd s pba) (v % 32)) (seq [wrBit pba (v % 32) false,
      one (.out (.msix ⟨f % 64, Nat.mod_lt _ (by decide)⟩ (BitVec.ofNat 6 v)))])]

/-- The effect of a write of v to the register at BAR0 offset a of a G or F page, its checks passed. -/
def blockWrite (r : Requester) (b : Block) (a : Nat) (v : Word) : Act :=
  let off := a % 4096
  let plain := maskWrite b a v
  match b with
  | .fab c => if 0x200 ≤ off ∧ off < 0x280 then detourWrite r c ((off - 0x200) / 4) v else plain
  | .fabG => if off = 0x100 then quiesceWrite v
      else if off = 0x108 ∨ (0x110 ≤ off ∧ off < 0x130) then bulkWrite a v else plain
  | .mgt 2 => if off = 0x124 then rstCtrlWrite v else if off = 0x12C then one (.wdtArmed true) else plain
  | .mgt 3 => if off = 0x110 then beadNextWrite r v else if off = 0x120 then beadCtrlWrite v else plain
  | .mgt 4 => if off = 0x100 then dumpCtlWrite r v else plain
  | .pwr 0 => if off = 0x10C then limitWrite r v else plain
  | .pwr 1 => if off = 0x130 then seq [plain, tempLevels] else plain
  | .ue n => if off = 0x118 then uePloadWrite r n v
      else if 0x200 ≤ off ∧ off < 0x600 ∧ off % 16 = 4 then ringEnableWrite n ((off - 0x200) / 16) v else plain
  | .mig 0 => if off = 0x10C then wmarkWrite r v
      else if 0x800 ≤ off ∧ off < 0x1000 then seq [plain, freeEmptySet ((off - 0x800) / 8)] else plain
  | .mig 1 =>
    let h := (off - 0x200) / 32
    let w := (off - 0x200) % 32
    if off < 0x200 ∨ 0xA00 ≤ off then plain
    else if w = 4 then hfloorWrite r h v
    else if 0x10 ≤ w ∧ w < 0x1C then hpfWrite r h ((w - 0x10) / 4) v else plain
  | .mp n => if off = 0x128 then testCommand r n (fld v 2 0)
      else if 0x200 ≤ off ∧ off < 0x300 then remapWrite r n ((off - 0x200) / 4) v else plain
  | .bx n => if off = 0x100 then linkCtrlWrite n v
      else if (off = 0x108 ∧ n < 6) ∨ (n = 0 ∧ 0x800 ≤ off ∧ off < 0x810) then podWrite r n off a v
      else if n = 0 ∧ 0xA00 ≤ off ∧ off < 0xE00 ∧ off % 16 = 4 then ringEnableWrite 24 ((off - 0xA00) / 16) v else plain
  | .hp k => if 0x110 ≤ off ∧ off < 0x124 then limitRegWrite k off a v else plain
  | .fnPage f => if off = 0x108 then bar2BaseWrite r f (some v) none
      else if off = 0x10C then bar2BaseWrite r f none (some v)
      else if off = 0x118 then ringCtlWrite f none v
      else if 0x200 ≤ off ∧ off < 0x400 ∧ off % 32 = 8 then ringCtlWrite f (some ⟨(off - 0x200) / 32 % 16, Nat.mod_lt _ (by decide)⟩) v
      else if 0x800 ≤ off ∧ off < 0xC00 ∧ off % 16 = 12 then vectorWrite f ((off - 0x800) / 16) a v
      else plain
  | _ => plain

/-- The effect of a write that has passed its checks. -/
def ctlEffect (r : Requester) (a : Nat) (v : Word) : Act := look fun s =>
  let b := blockOf s (a / 4096)
  let p := a / 4096 * 4096
  let off := a % 4096
  if !b.isWindow && decide (off = 0x10) then blkCtrlWrite r b p v
  else if !b.isWindow && decide (off = 0x28) then isetWrite p v
  else if !b.isWindow && decide (off < 0x100) then maskWrite b a v
  else if b.coreSite.isSome then (coreWrite s r b a v).2
  else blockWrite r b a v

/-- A 32-bit write to the control window. -/
def ctlWrite (r : Requester) (a : Nat) (v : Word) : Act := guarded r a (ctlEffect r a v)

/-- The effect of the two halves of a 64-bit write (R30): a register of 64 bits meets its rule once, with both halves. -/
def pairEffect (r : Requester) (a : Nat) (lo hi : Word) : Act := look fun s =>
  let b := blockOf s (a / 4096)
  let off := a % 4096
  let halves := seq [ctlEffect r a lo, ctlWrite r (a + 4) hi]
  let both := seq [maskWrite b a lo, maskWrite b (a + 4) hi]
  if !b.isWindow && decide (off < 0x100) then halves
  else if b.coreSite.isSome then (corePair s r b a lo hi).2
  else match b with
  | .fnPage f => if off = 0x108 then bar2BaseWrite r f (some lo) (some hi) else halves
  | .mig 0 => if 0x800 ≤ off then seq [both, freeEmptySet ((off - 0x800) / 8)] else halves
  | .mig 1 =>
    if 0x200 ≤ off ∧ off < 0xA00 ∧ off % 32 = 0x10 then
      (if bit (rd s (migHerd ((off - 0x200) / 32) + 0x18)) 31 then protocolAt (migPage 1) r else both)
    else halves
  | .bx n => if n = 0 ∧ off = 0x808 then
      (if podEn s && !(clearsOnly s a lo && clearsOnly s (a + 4) hi) then protocolAt (bxPage 0) r else seq [both, takePodMeasure])
    else halves
  | _ => halves

/-- A 64-bit write aligned to 8 bytes (R30): both halves in one cycle. -/
def ctlWrite64 (r : Requester) (a : Nat) (lo hi : Word) : Act := guarded r a (pairEffect r a lo hi)

/-! ## Requests of any length (R27 to R31, R640) -/

/-- R28: a write that does not enable all bytes of a word. -/
def partialWrite (r : Requester) : Act :=
  seq [count (mgtPage 0) 1 1, raise (mgtPage 0) { cls := .protocol, req := reqNo r }]

/-- The words of the control window that n bytes from BAR0 offset a touch. -/
def touchedWords (a n : Nat) : List Nat :=
  if n = 0 then [] else (((List.range ((a + n - 1) / 4 - a / 4 + 1)).map (fun k => 4 * (a / 4 + k))).filter (fun w => decide (w < 2 ^ 28)))

/-- The word at offset w that a request's bytes give, when it enables all four. -/
def enabledWord (a : Nat) (data : List (Option Byte)) (w : Nat) : Option Word :=
  let b (i : Nat) : Option Byte := if w + i < a then none else (data[w + i - a]?).join
  match b 0, b 1, b 2, b 3 with
  | some b0, some b1, some b2, some b3 => some (leWord [b0, b1, b2, b3])
  | _, _, _, _ => none

/-- REGISTER_WRITE. -/
def actRegisterWrite (r : Requester) (a : Nat) (data : List (Option Byte)) : Act := look fun s =>
  if !reqOk s r then nop
  else if data.length = 8 ∧ a % 8 = 0 then
    match enabledWord a data a, enabledWord a data (a + 4) with
    | some lo, some hi => ctlWrite64 r a lo hi
    | _, _ => partialWrite r
  else each (touchedWords a data.length) fun w =>
    match enabledWord a data w with
    | some v => ctlWrite r w v
    | none => partialWrite r

/-- What a read by r of the word at offset w returns: 0 without a right to the page (R21). -/
def readWord (s : State) (r : Requester) (w : Nat) : Word :=
  if mayRead s r (blockOf s (w / 4096)) then fullRead s w else 0

/-- A read that meets a page to which its requester has no right (R21). -/
def readCheck (r : Requester) (w : Nat) : Act := look fun s =>
  act (!mayRead s r (blockOf s (w / 4096))) (refuseAccess r)

/-- The bytes that a read of n bytes from a returns. -/
def readBytes (s : State) (r : Requester) (a n : Nat) : List Byte :=
  (List.range n).map fun i =>
    if a + i < 2 ^ 28 then BitVec.ofNat 8 ((readWord s r ((a + i) / 4 * 4)).toNat / 2 ^ (8 * ((a + i) % 4))) else 0

/-- RC_READ (R24, R29, R640): a read of the control window. No register of this device has an RC field, so nothing is cleared. -/
def actRcRead (r : Requester) (a n : Nat) : Act := look fun s =>
  act (reqOk s r) (seq [one (.out (.readData (some r) (some (readBytes s r a n)))),
    if n = 8 ∧ a % 8 = 0 then readCheck r a else each (touchedWords a n) (readCheck r)])

/-! ## The header's commands -/

/-- BLK_RESET. -/
def actBlkReset (r : Requester) (page : Nat) : Act := look fun s => guarded r (4096 * page + 0x10)
  (act (!(blockOf s page).isWindow) (blkReset r (blockOf s page) (4096 * page)))

/-- BLK_RESET_DONE (R39). -/
def actBlkResetDone (page : Nat) : Act := look fun s =>
  act (rstBusy s (4096 * page)) (wrBit (4096 * page + 0x14) 1 false)

/-- CNT_CLR (R42): a write of BLK_CTRL with cnt_clr set. -/
def actCntClr (r : Requester) (page : Nat) (v : Word) : Act := ctlWrite r (4096 * page + 0x10) (v ||| 8)

/-- BLK_FENCE (R37): a write of BLK_CTRL with fence set. -/
def actBlkFence (r : Requester) (page : Nat) (v : Word) : Act := ctlWrite r (4096 * page + 0x10) (v ||| 4)

/-- BLK_ISET (R45). -/
def actBlkIset (r : Requester) (page : Nat) (v : Word) : Act := ctlWrite r (4096 * page + 0x28) v

/-- CORE_FENCE (R82, R290): the next page of the core in the order is fenced. -/
def coreFenceStep (c : Nat) : Act :=
  seq [actCoreFence c, look fun s => act (fenced s (cubePage c)) (abandonDwq c)]

end Sys2Proof.Machine
end

