-- ==== Sys2Proof/Machine/ExecCore.lean ====
section
/-! DEFINITION. The meanings of the commands of the control window, the mesh, the sequencer and the core: one definition for each, over the acts of the family files. -/

namespace Sys2Proof.Machine

/-- A herd that parks gives up its cores once the last of them has come to rest (R523). -/
def finishParkOf (site : Nat) : Act := look fun s =>
  match herdAt s site with
  | some h => finishPark h
  | none => nop

/-- The same for the core of a page. -/
def finishParkAt (page : Nat) : Act := look fun s =>
  match (blockOf s page).coreSite with
  | some c => finishParkOf c
  | none => nop

/-- REGISTER_WRITE (R22). -/
def execRegisterWrite (r : Requester) (off : BitVec 28) (data : List (Option Byte)) (s : State) : Host.Outcome State Fault Refusal :=
  run (actRegisterWrite r off.toNat data) s

/-- RC_READ (R24). -/
def execRcRead (r : Requester) (off : BitVec 28) (len : Nat) (s : State) : Host.Outcome State Fault Refusal :=
  run (actRcRead r off.toNat len) s

/-- BLK_RESET (R38). -/
def execBlkReset (r : Requester) (p : PageNo) (s : State) : Host.Outcome State Fault Refusal := run (actBlkReset r p.val) s

/-- BLK_RESET_DONE (R39). -/
def execBlkResetDone (p : PageNo) (s : State) : Host.Outcome State Fault Refusal := run (actBlkResetDone p.val) s

/-- CNT_CLR (R42). -/
def execCntClr (r : Requester) (p : PageNo) (v : Word) (s : State) : Host.Outcome State Fault Refusal := run (actCntClr r p.val v) s

/-- BLK_FENCE (R37). -/
def execBlkFence (r : Requester) (p : PageNo) (v : Word) (s : State) : Host.Outcome State Fault Refusal := run (actBlkFence r p.val v) s

/-- BLK_FENCED (R41). -/
def execBlkFenced (p : PageNo) (s : State) : Host.Outcome State Fault Refusal := run (seq [actBlkFenced p.val, finishParkAt p.val]) s

/-- BLK_ISET (R45). -/
def execBlkIset (r : Requester) (p : PageNo) (v : Word) (s : State) : Host.Outcome State Fault Refusal := run (actBlkIset r p.val v) s

/-- ROUTER_FORWARD (R74). -/
def execRouterForward (i : Nat) (s : State) : Host.Outcome State Fault Refusal := run (actRouterForward i) s

/-- AGE_INCREMENT (R66). -/
def execAgeIncrement (i : Nat) (s : State) : Host.Outcome State Fault Refusal := run (actAgeIncrement i) s

/-- LOCAL_PORT_ARRIVE (R79). -/
def execLocalPortArrive (i : Nat) (s : State) : Host.Outcome State Fault Refusal := run (actLocalPortArrive i) s

/-- BULK_WINDOW_OPEN (R70). -/
def execBulkWindowOpen (n : Fin 4) (s : State) : Host.Outcome State Fault Refusal := run (actBulkOpen n.val) s

/-- BULK_WINDOW_CLOSE (R71). -/
def execBulkWindowClose (n : Fin 4) (s : State) : Host.Outcome State Fault Refusal := run (actBulkClose n.val) s

/-- FAB_DETOUR_WRITE (R77). -/
def execFabDetourWrite (r : Requester) (site : Site) (n : Fin 32) (v : Word) (s : State) : Host.Outcome State Fault Refusal :=
  run (guarded r (fabPage site.val + 0x200 + 4 * n.val) (detourWrite r site.val n.val v)) s

/-- MESH_QUIESCE (R77). -/
def execMeshQuiesce (r : Requester) (v : Word) (s : State) : Host.Outcome State Fault Refusal :=
  run (guarded r (fabGPage + 0x100) (quiesceWrite v)) s

/-- MESH_QUIESCED (R77). -/
def execMeshQuiesced (s : State) : Host.Outcome State Fault Refusal := run (actMeshQuiesced) s

/-- ROUTER_FAULT (R80). -/
def execRouterFault (site : Site) (s : State) : Host.Outcome State Fault Refusal := run (actRouterFault site.val) s

/-- DIST_TABLE_REWRITE (R91). -/
def execDistTableRewrite (done : Bool) (s : State) : Host.Outcome State Fault Refusal := run (actDistRewrite done) s

/-- CORE_FENCE (R82). -/
def execCoreFence (site : Site) (s : State) : Host.Outcome State Fault Refusal := run (coreFenceStep site.val) s

/-- FENCE_TIMEOUT (R83). -/
def execFenceTimeout (site : Site) (s : State) : Host.Outcome State Fault Refusal := run (actFenceTimeout site.val) s

/-- ROD_ROW_WRITE (R131). -/
def execRodRowWrite (r : Requester) (site : Site) (w : Fin 8192) (v : Word) (s : State) : Host.Outcome State Fault Refusal :=
  run (actRodRowWrite r site.val w.val v) s

/-- SEQ_ARM (R144). -/
def execSeqArm (r : Requester) (site : Site) (s : State) : Host.Outcome State Fault Refusal := run (actSeqArm r site.val) s

/-- SEQ_RESUME (R143). -/
def execSeqResume (r : Requester) (site : Site) (s : State) : Host.Outcome State Fault Refusal := run (actSeqResume r site.val) s

/-- SEQ_STOP (R136). -/
def execSeqStop (r : Requester) (site : Site) (s : State) : Host.Outcome State Fault Refusal := run (actSeqStop r site.val) s

/-- RLOAD_GO (R134). -/
def execRloadGo (r : Requester) (site : Site) (v : Word) (s : State) : Host.Outcome State Fault Refusal := run (actRloadGo r site.val v) s

/-- RLOAD_DONE (R134). -/
def execRloadDone (site : Site) (s : State) : Host.Outcome State Fault Refusal := run (actRloadDone site.val) s

/-- RC_INVAL (R99). -/
def execRcInval (r : Requester) (site : Site) (v : Word) (s : State) : Host.Outcome State Fault Refusal := run (actRcInval r site.val v) s

/-- CORE_SCRUB (R97). -/
def execCoreScrub (site : Site) (found : List Cell) (s : State) : Host.Outcome State Fault Refusal := run (actCoreScrub site.val found) s

/-- ROW_CACHE_FILL (R98). -/
def execRowCacheFill (site : Site) (line : Nat) (s : State) : Host.Outcome State Fault Refusal := run (actRowCacheFill site.val line) s

/-- NOP (R111). -/
def execNop (_site : Site) (s : State) : Host.Outcome State Fault Refusal := run (nop) s

/-- NEXT (R110). -/
def execNext (site : Site) (row : Cell) (s : State) : Host.Outcome State Fault Refusal := run (actNext site.val row) s

/-- LOOP (R118). -/
def execLoop (site : Site) (row : Cell) (s : State) : Host.Outcome State Fault Refusal := run (actLoop site.val row) s

/-- ENDL (R119). -/
def execEndl (site : Site) (row : Cell) (s : State) : Host.Outcome State Fault Refusal := run (actEndl site.val row) s

/-- BEAD (R125). -/
def execBead (site : Site) (row : Cell) (s : State) : Host.Outcome State Fault Refusal := run (actBead site.val row) s

/-- ALT (R121). -/
def execAlt (site : Site) (row : Cell) (s : State) : Host.Outcome State Fault Refusal := run (actAlt site.val row) s

/-- HALT (R135). -/
def execHalt (site : Site) (row : Cell) (s : State) : Host.Outcome State Fault Refusal := run (actHalt site.val row) s

/-- CORE_HALTED (R135). -/
def execCoreHalted (site : Site) (s : State) : Host.Outcome State Fault Refusal :=
  run (seq [actCoreHalted site.val, finishParkOf site.val]) s

/-- TWAIT (R123). -/
def execTwait (site : Site) (row : Cell) (s : State) : Host.Outcome State Fault Refusal := run (actTwait site.val row) s

/-- TWAITC (R422). -/
def execTwaitc (site : Site) (row : Cell) (s : State) : Host.Outcome State Fault Refusal := run (actTwaitc site.val row) s

/-- CWAIT (R427). -/
def execCwait (site : Site) (row : Cell) (s : State) : Host.Outcome State Fault Refusal := run (actCwait site.val row) s

/-- WAIT_REGISTER (R421). -/
def execWaitRegister (site : Site) (s : State) : Host.Outcome State Fault Refusal := run (actWaitRegister site.val) s

/-- WAIT_RELEASE (R423). -/
def execWaitRelease (site : Site) (s : State) : Host.Outcome State Fault Refusal := run (actWaitRelease site.val) s

/-- WAIT_TIMEOUT (R124). -/
def execWaitTimeout (site : Site) (s : State) : Host.Outcome State Fault Refusal := run (actWaitTimeout site.val) s

/-- WAIT_CANCEL (R425). -/
def execWaitCancel (site : Site) (s : State) : Host.Outcome State Fault Refusal := run (actWaitCancel site.val) s

/-- CORE_FAULTED (R139). -/
def execCoreFaulted (site : Site) (s : State) : Host.Outcome State Fault Refusal :=
  run (seq [actCoreFaulted site.val, finishParkOf site.val]) s

end Sys2Proof.Machine
end

