-- ==== Sys2Proof/Machine/ExecHost.lean ====
section
/-! DEFINITION. The meanings of the commands of the host rings, herds, snapshots and spares: one definition for each, over the acts of the family files. -/

namespace Sys2Proof.Machine

/-- DOORBELL (R509). -/
def execDoorbell (f : FnNo) (off : BitVec 16) (data : List (Option Byte)) (s : State) : Host.Outcome State Fault Refusal :=
  run (actDoorbell f off.toNat data) s

/-- COMPLETION_WRITE (R511). -/
def execCompletionWrite (f : FnNo) (ring : Fin 16) (s : State) : Host.Outcome State Fault Refusal := run (actCompletionWrite f ring) s

/-- RING_ENABLE (R513). -/
def execRingEnable (r : Requester) (f : FnNo) (ring : Option (Fin 16)) (v : Word) (s : State) : Host.Outcome State Fault Refusal :=
  run (guarded r (ringCtlReg f.val ring) (ringCtlWrite f.val ring (setBit v 31 true))) s

/-- RING_DISABLE (R513). -/
def execRingDisable (r : Requester) (f : FnNo) (ring : Option (Fin 16)) (v : Word) (s : State) : Host.Outcome State Fault Refusal :=
  run (guarded r (ringCtlReg f.val ring) (ringCtlWrite f.val ring (setBit v 31 false))) s

/-- NOTICE_WRITE (R526). -/
def execNoticeWrite (f : FnNo) (s : State) : Host.Outcome State Fault Refusal := run (actNoticeWrite f) s

/-- BAR2_BASE_WRITE (R506). -/
def execBar2BaseWrite (r : Requester) (f : FnNo) (lo : Option Word) (hi : Option Word) (s : State) : Host.Outcome State Fault Refusal :=
  run (guarded r (fnPageOf f.val + 0x108) (bar2BaseWrite r f.val lo hi)) s

/-- BAR2_RESIZE (R506). -/
def execBar2Resize (f : FnNo) (log2 : Nat) (s : State) : Host.Outcome State Fault Refusal := run (actBar2Resize f log2) s

/-- BAR2_READ (R357). -/
def execBar2Read (f : FnNo) (off : Nat) (len : Nat) (s : State) : Host.Outcome State Fault Refusal := run (actBar2Read f off len) s

/-- BAR2_WRITE (R357). -/
def execBar2Write (f : FnNo) (off : Nat) (data : List (Option Byte)) (s : State) : Host.Outcome State Fault Refusal :=
  run (actBar2Write f off data) s

/-- NOP_COMMAND (R514). -/
def execNopCommand (c : CmdId) (s : State) : Host.Outcome State Fault Refusal := run (actNopCommand c) s

/-- HERD_CREATE (R519). -/
def execHerdCreate (c : CmdId) (p : HerdParams) (s : State) : Host.Outcome State Fault Refusal := run (actHerdCreate c p) s

/-- HERD_RINGS (R520). -/
def execHerdRings (c : CmdId) (area : DWord) (lsize : Nat) (s : State) : Host.Outcome State Fault Refusal :=
  run (actHerdRings c area lsize) s

/-- HERD_REGW (R517). -/
def execHerdRegw (c : CmdId) (list : List RegwEntry) (s : State) : Host.Outcome State Fault Refusal := run (actHerdRegw c list) s

/-- HERD_START (R518). -/
def execHerdStart (c : CmdId) (ahead : Nat) (setidx : Bool) (stepidx : DWord) (s : State) : Host.Outcome State Fault Refusal :=
  run (actHerdStart c ahead setidx stepidx) s

/-- HERD_STOP (R518). -/
def execHerdStop (c : CmdId) (s : State) : Host.Outcome State Fault Refusal := run (actHerdStop c) s

/-- HERD_RESUME (R518). -/
def execHerdResume (c : CmdId) (ahead : Nat) (s : State) : Host.Outcome State Fault Refusal := run (actHerdResume c ahead) s

/-- HERD_PARK (R523). -/
def execHerdPark (c : CmdId) (s : State) : Host.Outcome State Fault Refusal := run (actHerdPark c) s

/-- HERD_UNPARK (R523). -/
def execHerdUnpark (c : CmdId) (ncores : Nat) (qmask : BitVec 4) (s : State) : Host.Outcome State Fault Refusal :=
  run (actHerdUnpark c ncores qmask) s

/-- HERD_DESTROY (R525). -/
def execHerdDestroy (c : CmdId) (s : State) : Host.Outcome State Fault Refusal := run (actHerdDestroy c) s

/-- EXT_REG (R360). -/
def execExtReg (c : CmdId) (base : DWord) (pages : Nat) (s : State) : Host.Outcome State Fault Refusal := run (actExtReg c base pages) s

/-- EXT_DEREG (R361). -/
def execExtDereg (c : CmdId) (extent : BitVec 8) (s : State) : Host.Outcome State Fault Refusal := run (actExtDereg c extent) s

/-- PROG_LOAD (R521). -/
def execProgLoad (c : CmdId) (image : DWord) (first : Nat) (count : Nat) (s : State) : Host.Outcome State Fault Refusal :=
  run (actProgLoad c image first count) s

/-- DUMP (R438). -/
def execDump (c : CmdId) (dest : DWord) (s : State) : Host.Outcome State Fault Refusal := run (actDump c dest) s

/-- EVAL (R528). -/
def execEval (c : CmdId) (p : EvalParams) (s : State) : Host.Outcome State Fault Refusal := run (actEval c p) s

/-- EVAL_SWITCH (R530). -/
def execEvalSwitch (h : HerdNo) (s : State) : Host.Outcome State Fault Refusal := run (actEvalSwitch h.val) s

/-- EVAL_RESTORE (R530). -/
def execEvalRestore (h : HerdNo) (s : State) : Host.Outcome State Fault Refusal := run (actEvalRestore h.val) s

/-- HERD_FAULT_TIMEOUT (R524). -/
def execHerdFaultTimeout (h : HerdNo) (s : State) : Host.Outcome State Fault Refusal := run (actHerdFaultTimeout h.val) s

/-- FUNCTION_LEVEL_RESET (R532). -/
def execFunctionLevelReset (f : FnNo) (s : State) : Host.Outcome State Fault Refusal := run (actFunctionLevelReset f) s

/-- VF_ENABLE_CLEAR (R532). -/
def execVfEnableClear (k : HpNo) (s : State) : Host.Outcome State Fault Refusal := run (actVfEnableClear k) s

/-- HOST_PORT_RESET (R532). -/
def execHostPortReset (k : HpNo) (s : State) : Host.Outcome State Fault Refusal := run (actHostPortReset k) s

/-- PERST_RELEASE (R592). -/
def execPerstRelease (k : HpNo) (s : State) : Host.Outcome State Fault Refusal := run (actPerstRelease k) s

/-- SNAP_CFG (R536). -/
def execSnapCfg (c : CmdId) (p : SnapParams) (s : State) : Host.Outcome State Fault Refusal := run (actSnapCfg c p) s

/-- SNAP_MTBF (R556). -/
def execSnapMtbf (c : CmdId) (mf : Word) (w : Byte) (resetObs : Bool) (s : State) : Host.Outcome State Fault Refusal :=
  run (actSnapMtbf c mf w resetObs) s

/-- SNAP_NOW (R540). -/
def execSnapNow (c : CmdId) (s : State) : Host.Outcome State Fault Refusal := run (actSnapNow c) s

/-- SNAP_STAT (R570). -/
def execSnapStat (c : CmdId) (s : State) : Host.Outcome State Fault Refusal := run (actSnapStat c) s

/-- SNAP_RESTORE (R558). -/
def execSnapRestore (c : CmdId) (base : DWord) (slot : Fin 2) (s : State) : Host.Outcome State Fault Refusal :=
  run (actSnapRestore c base slot) s

/-- SNAP_FETCH (R570). -/
def execSnapFetch (c : CmdId) (store : DWord) (dest : DWord) (bytes : Nat) (s : State) : Host.Outcome State Fault Refusal :=
  run (actSnapFetch c store dest bytes) s

/-- SNAP_OFF (R570). -/
def execSnapOff (c : CmdId) (s : State) : Host.Outcome State Fault Refusal := run (actSnapOff c) s

/-- UNGROUPED_COPY_DONE (R543). -/
def execUngroupedCopyDone (h : HerdNo) (s : State) : Host.Outcome State Fault Refusal := run (actUngroupedCopyDone h.val) s

/-- ENTRY_FINAL (R541). -/
def execEntryFinal (h : HerdNo) (e : Nat) (s : State) : Host.Outcome State Fault Refusal := run (actEntryFinal h.val e) s

/-- ENTRY_CAPTURED (R542). -/
def execEntryCaptured (h : HerdNo) (e : Nat) (s : State) : Host.Outcome State Fault Refusal := run (actEntryCaptured h.val e) s

/-- STORE_TIMEOUT (R552). -/
def execStoreTimeout (h : HerdNo) (s : State) : Host.Outcome State Fault Refusal := run (actStoreTimeout h.val) s

/-- SWR (R549). -/
def execSwr (h : HerdNo) (s : State) : Host.Outcome State Fault Refusal := run (actSwr h.val) s

/-- SACK (R549). -/
def execSack (p : BxNo) (h : HerdNo) (addr : DWord) (s : State) : Host.Outcome State Fault Refusal := run (actSack p.val h.val addr) s

/-- SRD (R551). -/
def execSrd (h : HerdNo) (addr : DWord) (len : Nat) (s : State) : Host.Outcome State Fault Refusal := run (actSrd h.val addr len) s

/-- SRDR (R551). -/
def execSrdr (p : BxNo) (h : HerdNo) (addr : DWord) (data : List Byte) (s : State) : Host.Outcome State Fault Refusal :=
  run (actSrdr p.val h.val addr data) s

/-- SERR (R552). -/
def execSerr (p : BxNo) (h : HerdNo) (addr : DWord) (s : State) : Host.Outcome State Fault Refusal := run (actSerr p.val h.val addr) s

/-- MWR (R555). -/
def execMwr (f : FrameHdr) (data : List Byte) (s : State) : Host.Outcome State Fault Refusal := run (actMwr f data) s

/-- MACK (R555). -/
def execMack (f : FrameHdr) (s : State) : Host.Outcome State Fault Refusal := run (actMack f) s

/-- SCOMMIT (R550). -/
def execScommit (f : FrameHdr) (s : State) : Host.Outcome State Fault Refusal := run (actScommit f) s

/-- SVERIFIED (R550). -/
def execSverified (f : FrameHdr) (s : State) : Host.Outcome State Fault Refusal := run (actSverified f) s

/-- SPLAN (R551). -/
def execSplan (f : FrameHdr) (s : State) : Host.Outcome State Fault Refusal := run (actSplan f) s

/-- RDONE (R565). -/
def execRdone (f : FrameHdr) (status : Byte) (s : State) : Host.Outcome State Fault Refusal := run (actRdone f status) s

/-- RESTORE_START (R558). -/
def execRestoreStart (h : HerdNo) (s : State) : Host.Outcome State Fault Refusal := run (actRestoreStart h.val) s

/-- RESTORE_CHUNK (R559). -/
def execRestoreChunk (h : HerdNo) (record : List Byte) (s : State) : Host.Outcome State Fault Refusal :=
  run (actRestoreChunk h.val record) s

/-- SPQ (R562). -/
def execSpq (p : BxNo) (addr : DWord) (s : State) : Host.Outcome State Fault Refusal := run (actSpq p.val addr) s

/-- SPARE_POLL (R562). -/
def execSparePoll (s : State) : Host.Outcome State Fault Refusal := run (actSparePoll) s

/-- SPST (R563). -/
def execSpst (p : BxNo) (spare : Fin 4) (state : Byte) (s : State) : Host.Outcome State Fault Refusal := run (actSpst p.val spare state) s

/-- TAKEOVER (R563). -/
def execTakeover (p : BxNo) (addr : DWord) (cfg : PodParams) (herds : List TakeHerd) (s : State) : Host.Outcome State Fault Refusal :=
  run (actTakeover p.val addr cfg herds) s

/-- TKACK (R563). -/
def execTkack (p : BxNo) (spare : Fin 4) (s : State) : Host.Outcome State Fault Refusal := run (actTkack p.val spare) s

/-- FILLDONE (R565). -/
def execFilldone (p : BxNo) (spare : Fin 4) (ok : Bool) (s : State) : Host.Outcome State Fault Refusal :=
  run (actFilldone p.val spare ok) s

/-- STANDDOWN (R566). -/
def execStanddown (p : BxNo) (addr : DWord) (s : State) : Host.Outcome State Fault Refusal := run (actStanddown p.val addr) s

end Sys2Proof.Machine
end

