-- ==== Sys2Proof/Machine/ExecMemory.lean ====
section
/-! DEFINITION. The meanings of the commands of the update engines, the unified range and the memory ports: one definition for each, over the acts of the family files. -/

namespace Sys2Proof.Machine

/-- UE_RING_POLL (R308). -/
def execUeRingPoll (n : PortNo) (h : HerdNo) (s : State) : Host.Outcome State Fault Refusal := run (actUeRingPoll n.val h.val) s

/-- UE_DESCRIPTOR_TAKE (R307). -/
def execUeDescriptorTake (n : PortNo) (h : HerdNo) (s : State) : Host.Outcome State Fault Refusal :=
  run (actUeDescriptorTake n.val h.val) s

/-- UPDATE (R324). -/
def execUpdate (n : PortNo) (h : HerdNo) (s : State) : Host.Outcome State Fault Refusal := run (actUpdate n.val h.val) s

/-- ACCUMULATE (R328). -/
def execAccumulate (n : PortNo) (h : HerdNo) (s : State) : Host.Outcome State Fault Refusal := run (actAccumulate n.val h.val) s

/-- UPDATE_WITH_ACCUMULATED_GRADIENT (R328). -/
def execUpdateWithAccumulatedGradient (n : PortNo) (h : HerdNo) (s : State) : Host.Outcome State Fault Refusal :=
  run (actUpdateAccumulated n.val h.val) s

/-- GROUP_LOAD (R318). -/
def execGroupLoad (n : PortNo) (h : HerdNo) (s : State) : Host.Outcome State Fault Refusal := run (actGroupLoad n.val h.val) s

/-- GROUP_STORE (R318). -/
def execGroupStore (n : PortNo) (h : HerdNo) (s : State) : Host.Outcome State Fault Refusal := run (actGroupStore n.val h.val) s

/-- ADVANCE (R320). -/
def execAdvance (n : PortNo) (h : HerdNo) (s : State) : Host.Outcome State Fault Refusal := run (actAdvance n.val h.val) s

/-- UE_BATCH (R330). -/
def execUeBatch (n : PortNo) (h : HerdNo) (s : State) : Host.Outcome State Fault Refusal := run (actUeBatch n.val h.val) s

/-- UE_DESCRIPTOR_END (R314). -/
def execUeDescriptorEnd (n : PortNo) (h : HerdNo) (s : State) : Host.Outcome State Fault Refusal := run (actUeDescriptorEnd n.val h.val) s

/-- UE_PLOAD_GO (R339). -/
def execUePloadGo (r : Requester) (n : PortNo) (v : Word) (s : State) : Host.Outcome State Fault Refusal :=
  run (guarded r (uePage n.val + 0x118) (uePloadWrite r n.val v)) s

/-- UE_PLOAD_DONE (R339). -/
def execUePloadDone (n : PortNo) (s : State) : Host.Outcome State Fault Refusal := run (actUePloadDone n.val) s

/-- PROGRAM_REPLACE (R340). -/
def execProgramReplace (n : PortNo) (s : State) : Host.Outcome State Fault Refusal := run (actProgramReplace n.val) s

/-- UE_RING_ENABLE (R307). -/
def execUeRingEnable (r : Requester) (bx : Bool) (n : PortNo) (h : HerdNo) (v : Word) (s : State) : Host.Outcome State Fault Refusal :=
  run (guarded r (ringAddr (if bx then 24 else n.val) h.val + 4) (ringEnableWrite (if bx then 24 else n.val) h.val (setBit v 31 true))) s

/-- ALLOC (R366). -/
def execAlloc (c : CmdId) (page : Nat) (n : Nat) (dest : Fin 4) (port : Nat) (wr : Bool) (pinned : Bool) (s : State) : Host.Outcome State Fault Refusal :=
  run (actAlloc c page n dest.val port wr pinned) s

/-- FREE (R366). -/
def execFree (c : CmdId) (page : Nat) (n : Nat) (s : State) : Host.Outcome State Fault Refusal := run (actFree c page n) s

/-- MOVE (R366). -/
def execMove (c : CmdId) (page : Nat) (n : Nat) (dest : Fin 4) (port : Nat) (s : State) : Host.Outcome State Fault Refusal :=
  run (actMove c page n dest.val port) s

/-- PIN (R366). -/
def execPin (c : CmdId) (page : Nat) (n : Nat) (s : State) : Host.Outcome State Fault Refusal := run (actPin c page n) s

/-- UNPIN (R366). -/
def execUnpin (c : CmdId) (page : Nat) (n : Nat) (s : State) : Host.Outcome State Fault Refusal := run (actUnpin c page n) s

/-- PROT (R366). -/
def execProt (c : CmdId) (page : Nat) (n : Nat) (wr : Bool) (s : State) : Host.Outcome State Fault Refusal := run (actProt c page n wr) s

/-- SHARE (R366). -/
def execShare (c : CmdId) (page : Nat) (n : Nat) (set : BitVec 8) (s : State) : Host.Outcome State Fault Refusal :=
  run (actShare c page n set) s

/-- ADMIT (R366). -/
def execAdmitHerd (c : CmdId) (set : BitVec 8) (herd : HerdNo) (s : State) : Host.Outcome State Fault Refusal :=
  run (actAdmitHerd c set herd) s

/-- REVOKE (R366). -/
def execRevoke (c : CmdId) (set : BitVec 8) (herd : HerdNo) (s : State) : Host.Outcome State Fault Refusal := run (actRevoke c set herd) s

/-- PAGE_MOVE (R362). -/
def execPageMove (s : State) : Host.Outcome State Fault Refusal := run (actPageMove) s

/-- PAGE_MOVE_DONE (R362). -/
def execPageMoveDone (page : Nat) (s : State) : Host.Outcome State Fault Refusal := run (actPageMoveDone page) s

/-- TOUCH_WRITE (R355). -/
def execTouchWrite (page : Nat) (s : State) : Host.Outcome State Fault Refusal := run (actTouchWrite page) s

/-- EVICT (R374). -/
def execEvict (s : State) : Host.Outcome State Fault Refusal := run (actEvict) s

/-- MIG_HFLOOR_WRITE (R371). -/
def execMigHfloorWrite (r : Requester) (h : HerdNo) (v : Word) (s : State) : Host.Outcome State Fault Refusal :=
  run (guarded r (migHerd h.val + 4) (hfloorWrite r h.val v)) s

/-- MIG_HPF_WRITE (R385). -/
def execMigHpfWrite (r : Requester) (h : HerdNo) (w : Fin 3) (v : Word) (s : State) : Host.Outcome State Fault Refusal :=
  run (guarded r (migHerd h.val + 0x10 + 4 * w.val) (hpfWrite r h.val w.val v)) s

/-- PREFETCH_DONE (R379). -/
def execPrefetchDone (h : HerdNo) (entry : Nat) (s : State) : Host.Outcome State Fault Refusal := run (actPrefetchDone h.val entry) s

/-- MP_READ (R392). -/
def execMpRead (n : PortNo) (lblock : Nat) (src : Fin 8) (herd : Option HerdNo) (noise : List (Nat × Byte)) (s : State) : Host.Outcome State Fault Refusal :=
  run (actMpRead n.val lblock src.val (herd.map (·.val)) noise) s

/-- MP_WRITE (R398). -/
def execMpWrite (n : PortNo) (lblock : Nat) (data : List Byte) (s : State) : Host.Outcome State Fault Refusal :=
  run (actMpWrite n.val lblock data) s

/-- NARROW_WRITE (R399). -/
def execNarrowWrite (n : PortNo) (lblock : Nat) (herd : HerdNo) (data : List (Option Byte)) (s : State) : Host.Outcome State Fault Refusal :=
  run (actNarrowWrite n.val lblock herd.val data) s

/-- MERGE_HOLD_EXPIRE (R400). -/
def execMergeHoldExpire (n : PortNo) (s : State) : Host.Outcome State Fault Refusal := run (actMergeHoldExpire n.val) s

/-- FILL_DONE (R402). -/
def execFillDone (n : PortNo) (s : State) : Host.Outcome State Fault Refusal := run (actFillDone n.val) s

/-- PATROL_SCRUB (R403). -/
def execPatrolScrub (n : PortNo) (noise : List (Nat × Byte)) (s : State) : Host.Outcome State Fault Refusal :=
  run (actPatrolScrub n.val noise) s

/-- MP_REMAP_WRITE (R405). -/
def execMpRemapWrite (r : Requester) (n : PortNo) (e : Fin 64) (v : Word) (s : State) : Host.Outcome State Fault Refusal :=
  run (guarded r (mpPage n.val + 0x200 + 4 * e.val) (remapWrite r n.val e.val v)) s

/-- TEST_WRITE_GENERATED (R413). -/
def execTestWriteGenerated (r : Requester) (n : PortNo) (s : State) : Host.Outcome State Fault Refusal :=
  run (guarded r (mpPage n.val + 0x128) (testCommand r n.val 1)) s

/-- TEST_WRITE_DATA (R413). -/
def execTestWriteData (r : Requester) (n : PortNo) (s : State) : Host.Outcome State Fault Refusal :=
  run (guarded r (mpPage n.val + 0x128) (testCommand r n.val 2)) s

/-- TEST_WRITE_CHECK (R413). -/
def execTestWriteCheck (r : Requester) (n : PortNo) (s : State) : Host.Outcome State Fault Refusal :=
  run (guarded r (mpPage n.val + 0x128) (testCommand r n.val 3)) s

/-- TEST_WRITE_BOTH (R413). -/
def execTestWriteBoth (r : Requester) (n : PortNo) (s : State) : Host.Outcome State Fault Refusal :=
  run (guarded r (mpPage n.val + 0x128) (testCommand r n.val 4)) s

/-- TEST_READ_RAW (R413). -/
def execTestReadRaw (r : Requester) (n : PortNo) (s : State) : Host.Outcome State Fault Refusal :=
  run (guarded r (mpPage n.val + 0x128) (testCommand r n.val 5)) s

/-- TEST_READ_DECODE (R413). -/
def execTestReadDecode (r : Requester) (n : PortNo) (s : State) : Host.Outcome State Fault Refusal :=
  run (guarded r (mpPage n.val + 0x128) (testCommand r n.val 6)) s

end Sys2Proof.Machine
end

