-- ==== Sys2Proof/Machine/ExecModule.lean ====
section
/-! DEFINITION. The meanings of the commands of power, reset, boot, management, protocols and events: one definition for each, over the acts of the family files. -/

namespace Sys2Proof.Machine

/-- PWR_EN_RISE (R580). -/
def execPwrEnRise (s : State) : Host.Outcome State Fault Refusal := runPins (actPwrEnRise) s

/-- PWR_EN_HOLDOFF_END (R580). -/
def execPwrEnHoldoffEnd (s : State) : Host.Outcome State Fault Refusal := runPins (actPwrEnHoldoffEnd) s

/-- RAILS_GOOD (R578). -/
def execRailsGood (hpSplit : BitVec 2) (inlineDisN : Bool) (slotId : BitVec 3) (s : State) : Host.Outcome State Fault Refusal :=
  runPins (actRailsGood hpSplit inlineDisN slotId) s

/-- PWR_EN_FALL (R582). -/
def execPwrEnFall (s : State) : Host.Outcome State Fault Refusal := runPins (actPwrEnFall) s

/-- PROTECTION_TRIP (R581). -/
def execProtectionTrip (s : State) : Host.Outcome State Fault Refusal := runPins (actProtectionTrip) s

/-- THERMAL_TRIP (R589). -/
def execThermalTrip (sensor : Fin 5) (temp : BitVec 16) (s : State) : Host.Outcome State Fault Refusal :=
  runPins (actThermalTrip sensor.val temp) s

/-- INPUT_LOW (R577). -/
def execInputLow (vin : BitVec 16) (s : State) : Host.Outcome State Fault Refusal := run (actInputLow vin) s

/-- POWER_WINDOW_END (R585). -/
def execPowerWindowEnd (avg : Nat) (peak : Nat) (vin : BitVec 16) (iin : BitVec 16) (s : State) : Host.Outcome State Fault Refusal :=
  run (actPowerWindowEnd avg peak vin iin) s

/-- POWER_ON_RESET (R590). -/
def execPowerOnReset (s : State) : Host.Outcome State Fault Refusal := run (actPowerOnReset) s

/-- PLL_LOCK (R590). -/
def execPllLock (s : State) : Host.Outcome State Fault Refusal := run (actPllLock) s

/-- PLL_LOCK_LOSS (R601). -/
def execPllLockLoss (cr : Fin 5) (s : State) : Host.Outcome State Fault Refusal := run (actPllLockLoss cr.val) s

/-- BANK_CHOOSE (R607). -/
def execBankChoose (readA : Bool) (readB : Bool) (s : State) : Host.Outcome State Fault Refusal := run (actBankChoose readA readB) s

/-- FIRMWARE_START (R590). -/
def execFirmwareStart (s : State) : Host.Outcome State Fault Refusal := run (actFirmwareStart) s

/-- CHANNEL_TRAINED (R590). -/
def execChannelTrained (n : PortNo) (ch : Fin 8) (s : State) : Host.Outcome State Fault Refusal := run (actChannelTrained n.val ch.val) s

/-- RUN_ENTRY (R590). -/
def execRunEntry (fru : Option (List Byte)) (s : State) : Host.Outcome State Fault Refusal := run (actRunEntry fru) s

/-- DEVICE_RESET (R598). -/
def execDeviceReset (s : State) : Host.Outcome State Fault Refusal := run (actDeviceReset) s

/-- PAGE_FREE_ALL (R599). -/
def execPageFreeAll (s : State) : Host.Outcome State Fault Refusal := run (actPageFreeAll) s

/-- MGT_RST_DEV (R598). -/
def execMgtRstDev (r : Requester) (v : Word) (s : State) : Host.Outcome State Fault Refusal := run (actMgtRstDev r v) s

/-- WATCHDOG_KICK (R600). -/
def execWatchdogKick (r : Requester) (v : Word) (s : State) : Host.Outcome State Fault Refusal := run (actWatchdogKick r v) s

/-- WATCHDOG_EXPIRE (R600). -/
def execWatchdogExpire (s : State) : Host.Outcome State Fault Refusal := run (actWatchdogExpire) s

/-- RESET (R618). -/
def execReset (t : MTag) (s : State) : Host.Outcome State Fault Refusal := run (actReset t) s

/-- FENCE (R618). -/
def execFence (t : MTag) (site : Site) (s : State) : Host.Outcome State Fault Refusal := run (actFence t site.val) s

/-- HERD_FAIL (R618). -/
def execHerdFail (t : MTag) (h : HerdNo) (s : State) : Host.Outcome State Fault Refusal := run (actHerdFail t h.val) s

/-- POWER_LIMIT (R583). -/
def execPowerLimit (t : MTag) (watts : BitVec 12) (s : State) : Host.Outcome State Fault Refusal := run (actPowerLimit t watts) s

/-- PARTITION_POD (R619). -/
def execPartitionPod (t : MTag) (p : PodParams) (s : State) : Host.Outcome State Fault Refusal := run (actPartitionPod t p) s

/-- PARTITION_HOST_LIMITS (R619). -/
def execPartitionHostLimits (t : MTag) (k : HpNo) (cores : Nat) (frames : Nat) (groups : Nat) (herds : Nat) (seq : Nat) (s : State) : Host.Outcome State Fault Refusal :=
  run (actPartitionHostLimits t k.val cores frames groups herds seq) s

/-- PARTITION_SPARE (R562). -/
def execPartitionSpare (t : MTag) (podId : BitVec 16) (index : BitVec 2) (s : State) : Host.Outcome State Fault Refusal :=
  run (actPartitionSpare t podId index) s

/-- PARTITION_AUX (R619). -/
def execPartitionAux (t : MTag) (a : Bool) (b : Bool) (s : State) : Host.Outcome State Fault Refusal := run (actPartitionAux t a b) s

/-- REMAP_LOAD (R618). -/
def execRemapLoad (t : MTag) (n : PortNo) (blocks : List Nat) (s : State) : Host.Outcome State Fault Refusal :=
  run (actRemapLoad t n.val blocks) s

/-- SYSPROG_LOAD (R618). -/
def execSysprogLoad (t : MTag) (first : Nat) (programs : List (List Word)) (s : State) : Host.Outcome State Fault Refusal :=
  run (actSysprogLoad t first programs) s

/-- LINK_HALT (R618). -/
def execLinkHalt (t : MTag) (action : Nat) (h : HerdNo) (s : State) : Host.Outcome State Fault Refusal :=
  run (actLinkHalt t action h.val) s

/-- OPEN (R620). -/
def execOpenPermission (t : MTag) (s : State) : Host.Outcome State Fault Refusal := run (actOpenPermission t) s

/-- SVN_COMMIT (R611). -/
def execSvnCommit (t : MTag) (s : State) : Host.Outcome State Fault Refusal := run (actSvnCommit t) s

/-- KEY_REVOKE (R612). -/
def execKeyRevoke (t : MTag) (slot : Nat) (s : State) : Host.Outcome State Fault Refusal := run (actKeyRevoke t slot) s

/-- MGMT_DUMP_START (R618). -/
def execMgmtDumpStart (t : MTag) (s : State) : Host.Outcome State Fault Refusal := run (actMgmtDumpStart t) s

/-- MGMT_DUMP_READ (R618). -/
def execMgmtDumpRead (t : MTag) (slot : Fin 4) (offset : Nat) (len : Nat) (s : State) : Host.Outcome State Fault Refusal :=
  run (actMgmtDumpRead t slot.val offset len) s

/-- FRU_READ (R584). -/
def execFruRead (t : MTag) (fru : Option (List Byte)) (s : State) : Host.Outcome State Fault Refusal := run (actFruRead t fru) s

/-- REG_READ (R618). -/
def execRegRead (t : MTag) (off : BitVec 28) (s : State) : Host.Outcome State Fault Refusal := run (actRegRead t off.toNat) s

/-- SET_ENDPOINT_ID (R614). -/
def execSetEndpointId (eid : Byte) (s : State) : Host.Outcome State Fault Refusal := run (actSetEndpointId eid) s

/-- GET_ENDPOINT_ID (R614). -/
def execGetEndpointId (s : State) : Host.Outcome State Fault Refusal := run (actGetEndpointId) s

/-- GET_ENDPOINT_UUID (R614). -/
def execGetEndpointUuid (s : State) : Host.Outcome State Fault Refusal := run (actGetEndpointUuid) s

/-- GET_MCTP_VERSION_SUPPORT (R614). -/
def execGetMctpVersionSupport (type : Byte) (s : State) : Host.Outcome State Fault Refusal := run (actGetMctpVersionSupport type) s

/-- GET_MESSAGE_TYPE_SUPPORT (R614). -/
def execGetMessageTypeSupport (s : State) : Host.Outcome State Fault Refusal := run (actGetMessageTypeSupport) s

/-- GET_VENDOR_DEFINED_MESSAGE_SUPPORT (R614). -/
def execGetVendorDefinedMessageSupport (selector : Byte) (s : State) : Host.Outcome State Fault Refusal :=
  run (actGetVendorDefinedMessageSupport selector) s

/-- GET_TID (R616). -/
def execGetTid (s : State) : Host.Outcome State Fault Refusal := run (actGetTid) s

/-- SET_TID (R616). -/
def execSetTid (tid : Byte) (s : State) : Host.Outcome State Fault Refusal := run (actSetTid tid) s

/-- GET_PLDM_VERSION (R616). -/
def execGetPldmVersion (type : Byte) (s : State) : Host.Outcome State Fault Refusal := run (actGetPldmVersion type) s

/-- GET_PLDM_TYPES (R616). -/
def execGetPldmTypes (s : State) : Host.Outcome State Fault Refusal := run (actGetPldmTypes) s

/-- GET_PLDM_COMMANDS (R616). -/
def execGetPldmCommands (type : Byte) (s : State) : Host.Outcome State Fault Refusal := run (actGetPldmCommands type) s

/-- GET_PDR_REPOSITORY_INFO (R616). -/
def execGetPdrRepositoryInfo (s : State) : Host.Outcome State Fault Refusal := run (actGetPdrRepositoryInfo) s

/-- GET_PDR (R616). -/
def execGetPdr (record : Nat) (s : State) : Host.Outcome State Fault Refusal := run (actGetPdr record) s

/-- GET_SENSOR_READING (R616). -/
def execGetSensorReading (sensor : Nat) (s : State) : Host.Outcome State Fault Refusal := run (actGetSensorReading sensor) s

/-- GET_STATE_SENSOR_READINGS (R616). -/
def execGetStateSensorReadings (sensor : Nat) (s : State) : Host.Outcome State Fault Refusal := run (actGetStateSensorReadings sensor) s

/-- SET_EVENT_RECEIVER (R616). -/
def execSetEventReceiver (enable : Byte) (receiver : Byte) (s : State) : Host.Outcome State Fault Refusal :=
  run (actSetEventReceiver enable receiver) s

/-- EVENT_MESSAGE_SUPPORTED (R616). -/
def execEventMessageSupported (s : State) : Host.Outcome State Fault Refusal := run (actEventMessageSupported) s

/-- EVENT_MESSAGE_BUFFER_SIZE (R616). -/
def execEventMessageBufferSize (size : Nat) (s : State) : Host.Outcome State Fault Refusal := run (actEventMessageBufferSize size) s

/-- POLL_FOR_PLATFORM_EVENT_MESSAGE (R637). -/
def execPollForPlatformEventMessage (s : State) : Host.Outcome State Fault Refusal := run (actPollForPlatformEventMessage) s

/-- GET_FRU_RECORD_TABLE_METADATA (R616). -/
def execGetFruRecordTableMetadata (s : State) : Host.Outcome State Fault Refusal := run (actGetFruRecordTableMetadata) s

/-- GET_FRU_RECORD_TABLE (R616). -/
def execGetFruRecordTable (handle : Nat) (s : State) : Host.Outcome State Fault Refusal := run (actGetFruRecordTable handle) s

/-- REQUEST_UPDATE (R613). -/
def execRequestUpdate (size : Nat) (s : State) : Host.Outcome State Fault Refusal := run (actRequestUpdate size) s

/-- PASS_COMPONENT_TABLE (R616). -/
def execPassComponentTable (component : Nat) (version : Word) (s : State) : Host.Outcome State Fault Refusal :=
  run (actPassComponentTable component version) s

/-- UPDATE_COMPONENT (R616). -/
def execUpdateComponent (component : Nat) (version : Word) (s : State) : Host.Outcome State Fault Refusal :=
  run (actUpdateComponent component version) s

/-- REQUEST_FIRMWARE_DATA (R613). -/
def execRequestFirmwareData (offset : Nat) (data : List Byte) (s : State) : Host.Outcome State Fault Refusal :=
  run (actRequestFirmwareData offset data) s

/-- TRANSFER_COMPLETE (R616). -/
def execTransferComplete (s : State) : Host.Outcome State Fault Refusal := run (actTransferComplete) s

/-- VERIFY_COMPLETE (R613). -/
def execVerifyComplete (s : State) : Host.Outcome State Fault Refusal := run (actVerifyComplete) s

/-- APPLY_COMPLETE (R613). -/
def execApplyComplete (s : State) : Host.Outcome State Fault Refusal := run (actApplyComplete) s

/-- ACTIVATE_FIRMWARE (R616). -/
def execActivateFirmware (selfContained : Bool) (s : State) : Host.Outcome State Fault Refusal :=
  run (actActivateFirmware selfContained) s

/-- GET_STATUS (R616). -/
def execGetStatus (s : State) : Host.Outcome State Fault Refusal := run (actGetStatus) s

/-- CANCEL_UPDATE (R616). -/
def execCancelUpdate (s : State) : Host.Outcome State Fault Refusal := run (actCancelUpdate) s

/-- GET_VERSION (R621). -/
def execGetVersion (s : State) : Host.Outcome State Fault Refusal := run (actGetVersion) s

/-- GET_CAPABILITIES (R621). -/
def execGetCapabilities (s : State) : Host.Outcome State Fault Refusal := run (actGetCapabilities) s

/-- NEGOTIATE_ALGORITHMS (R621). -/
def execNegotiateAlgorithms (s : State) : Host.Outcome State Fault Refusal := run (actNegotiateAlgorithms) s

/-- GET_DIGESTS (R621). -/
def execGetDigests (s : State) : Host.Outcome State Fault Refusal := run (actGetDigests) s

/-- GET_CERTIFICATE (R621). -/
def execGetCertificate (slot : Nat) (offset : Nat) (len : Nat) (s : State) : Host.Outcome State Fault Refusal :=
  run (actGetCertificate slot offset len) s

/-- CHALLENGE (R623). -/
def execChallenge (slot : Nat) (nonce : List Byte) (s : State) : Host.Outcome State Fault Refusal := run (actChallenge slot nonce) s

/-- GET_MEASUREMENTS (R625). -/
def execGetMeasurements (index : Nat) (sign : Bool) (nonce : List Byte) (s : State) : Host.Outcome State Fault Refusal :=
  run (actGetMeasurements index sign nonce) s

/-- RESPOND_IF_READY (R621). -/
def execRespondIfReady (s : State) : Host.Outcome State Fault Refusal := run (actRespondIfReady) s

/-- GET_PQ_SIG (R623). -/
def execGetPqSig (s : State) : Host.Outcome State Fault Refusal := run (actGetPqSig) s

/-- GET_PQ_CERT (R624). -/
def execGetPqCert (s : State) : Host.Outcome State Fault Refusal := run (actGetPqCert) s

/-- PQ_SIG_READY (R622). -/
def execPqSigReady (s : State) : Host.Outcome State Fault Refusal := run (actPqSigReady) s

/-- EVENT_SERVICE (R628). -/
def execEventService (p : PageNo) (s : State) : Host.Outcome State Fault Refusal := run (actEventService p.val) s

/-- OWNER_SEARCH_DONE (R633). -/
def execOwnerSearchDone (s : State) : Host.Outcome State Fault Refusal := run (actOwnerSearchDone) s

/-- VU_RESULT_WRITE (R278). -/
def execVuResultWrite (site : Site) (s : State) : Host.Outcome State Fault Refusal := run (actVuResultWrite site.val) s

/-- VECTOR_ACCESS_COMPLETE (R150). -/
def execVectorAccessComplete (site : Site) (i : Nat) (found : List Cell) (s : State) : Host.Outcome State Fault Refusal :=
  run (actVectorAccessComplete site.val i found) s

/-- WAIT_CANCEL_ANSWER (R425). -/
def execWaitCancelAnswer (site : Site) (s : State) : Host.Outcome State Fault Refusal := run (actWaitCancelAnswer site.val) s

/-- HOST_LINK_UP (R532). -/
def execHostLinkUp (k : HpNo) (width : Nat) (speed : BitVec 3) (flit : Bool) (s : State) : Host.Outcome State Fault Refusal :=
  run (actHostLinkUp k width speed flit) s

/-- VF_ENABLE_SET (R504). -/
def execVfEnableSet (k : HpNo) (numVfs : Nat) (s : State) : Host.Outcome State Fault Refusal := run (actVfEnableSet k numVfs) s

/-- PLL_LOCK_REGAIN (R43). -/
def execPllLockRegain (cr : Fin 5) (s : State) : Host.Outcome State Fault Refusal := run (actPllLockRegain cr.val) s

/-- TEMP_THRESHOLD_CROSS (R43). -/
def execTempThresholdCross (sensor : Fin 5) (temp : BitVec 16) (s : State) : Host.Outcome State Fault Refusal :=
  run (actTempThresholdCross sensor.val temp) s

/-- STORE_DMA_COMPLETION (R549). -/
def execStoreDmaCompletion (h : HerdNo) (addr : DWord) (data : List Byte) (s : State) : Host.Outcome State Fault Refusal :=
  run (actStoreDmaCompletion h.val addr data) s

/-- CORE_HARD_FAULT (R82). -/
def execCoreHardFault (site : Site) (s : State) : Host.Outcome State Fault Refusal := run (actCoreHardFault site.val) s

end Sys2Proof.Machine
end

