-- ==== Sys2Proof/Machine/ExecPod.lean ====
section
/-! DEFINITION. The meanings of the commands of dumps, the bead, the links and the collectives: one definition for each, over the acts of the family files. -/

namespace Sys2Proof.Machine

/-- DUMP_GO (R436). -/
def execDumpGo (r : Requester) (v : Word) (s : State) : Host.Outcome State Fault Refusal := run (actDumpGo r v) s

/-- DUMP_END (R436). -/
def execDumpEnd (s : State) : Host.Outcome State Fault Refusal := run (actDumpEnd) s

/-- BEAD_BOUNDARY (R439). -/
def execBeadBoundary (s : State) : Host.Outcome State Fault Refusal := run (actBeadBoundary) s

/-- BEAD_RUN_START (R439). -/
def execBeadRunStart (r : Requester) (v : Word) (s : State) : Host.Outcome State Fault Refusal := run (actBeadRunStart r v) s

/-- MARK (R471). -/
def execMark (port : SymPort) (bead : BitVec 16) (lag : BitVec 16) (late : Bool) (measured : Option Nat) (s : State) : Host.Outcome State Fault Refusal :=
  run (actMark port bead.toNat lag.toNat late measured) s

/-- MARKER_LOST (R442). -/
def execMarkerLost (s : State) : Host.Outcome State Fault Refusal := run (actMarkerLost) s

/-- BEAD_HOLD_START (R444). -/
def execBeadHoldStart (s : State) : Host.Outcome State Fault Refusal := run (actBeadHoldStart) s

/-- BEAD_NEXT_WRITE (R447). -/
def execBeadNextWrite (r : Requester) (v : Word) (s : State) : Host.Outcome State Fault Refusal := run (actBeadNextWrite r v) s

/-- REPORT (R472). -/
def execReport (port : SymPort) (bead : BitVec 16) (slip : Bool) (votes : DWord) (s : State) : Host.Outcome State Fault Refusal :=
  run (actReport port bead.toNat slip votes) s

/-- REPORT_DEADLINE (R472). -/
def execReportDeadline (s : State) : Host.Outcome State Fault Refusal := run (actReportDeadlineAll) s

/-- RESULT (R473). -/
def execResult (port : SymPort) (bead : BitVec 16) (slip : Bool) (missing : Bool) (votes : DWord) (s : State) : Host.Outcome State Fault Refusal :=
  run (actResult port bead.toNat slip missing votes) s

/-- HALT_PAUSE (R474). -/
def execHaltPause (h : HaltSym) (s : State) : Host.Outcome State Fault Refusal := run (actHaltPause h) s

/-- HALT_FAIL (R474). -/
def execHaltFail (h : HaltSym) (s : State) : Host.Outcome State Fault Refusal := run (actHaltFail h) s

/-- HALT_LINK_STOP (R474). -/
def execHaltLinkStop (h : HaltSym) (s : State) : Host.Outcome State Fault Refusal := run (actHaltLinkStop h) s

/-- HALT_LINK_RESUME (R474). -/
def execHaltLinkResume (h : HaltSym) (s : State) : Host.Outcome State Fault Refusal := run (actHaltLinkResume h) s

/-- LINK_ACK (R466). -/
def execLinkAck (p : SymPort) (lseq : BitVec 16) (s : State) : Host.Outcome State Fault Refusal := run (actLinkAck p lseq) s

/-- LINK_REPLAY (R466). -/
def execLinkReplay (p : SymPort) (lseq : BitVec 16) (s : State) : Host.Outcome State Fault Refusal := run (actLinkReplay p lseq) s

/-- LINK_CREDIT (R462). -/
def execLinkCredit (p : SymPort) (credits : List Nat) (s : State) : Host.Outcome State Fault Refusal := run (actLinkCredit p credits) s

/-- LINK_UP (R458). -/
def execLinkUp (p : BxNo) (partner : Word) (delayNs : BitVec 16) (s : State) : Host.Outcome State Fault Refusal :=
  run (actLinkUp p.val partner delayNs) s

/-- LINK_DOWN (R467). -/
def execLinkDown (p : BxNo) (s : State) : Host.Outcome State Fault Refusal := run (actLinkDown p.val) s

/-- LINK_RETRAIN (R467). -/
def execLinkRetrain (r : Requester) (p : BxNo) (v : Word) (s : State) : Host.Outcome State Fault Refusal :=
  run (actLinkRetrain r p.val v) s

/-- FRAME_FORWARD (R463). -/
def execFrameForward (f : FrameHdr) (type : BitVec 8) (data : List Byte) (s : State) : Host.Outcome State Fault Refusal :=
  run (actFrameForward f type data) s

/-- WR (R461). -/
def execWr (f : FrameHdr) (data : List Byte) (s : State) : Host.Outcome State Fault Refusal := run (actWr f data) s

/-- RED_FRAME (R486). -/
def execRedFrame (f : FrameHdr) (data : List Byte) (s : State) : Host.Outcome State Fault Refusal := run (actRedFrame f data) s

/-- GAT (R485). -/
def execGat (f : FrameHdr) (data : List Byte) (s : State) : Host.Outcome State Fault Refusal := run (actGat f data) s

/-- MCD (R496). -/
def execMcd (f : FrameHdr) (data : List Byte) (s : State) : Host.Outcome State Fault Refusal := run (actMcd f data) s

/-- MREQ (R494). -/
def execMreq (f : McRequest) (s : State) : Host.Outcome State Fault Refusal := run (actMreq f) s

/-- MGNT (R495). -/
def execMgnt (f : FrameHdr) (s : State) : Host.Outcome State Fault Refusal := run (actMgnt f) s

/-- MULTICAST_SEND (R495). -/
def execMulticastSend (h : HerdNo) (s : State) : Host.Outcome State Fault Refusal := run (actMulticastSend h.val) s

/-- MREL (R497). -/
def execMrel (f : FrameHdr) (s : State) : Host.Outcome State Fault Refusal := run (actMrel f) s

/-- MDONE (R496). -/
def execMdone (f : FrameHdr) (s : State) : Host.Outcome State Fault Refusal := run (actMdone f) s

/-- ABORT (R493). -/
def execAbort (f : FrameHdr) (s : State) : Host.Outcome State Fault Refusal := run (actAbort f) s

/-- FLAG (R482). -/
def execFlag (f : FrameHdr) (index : BitVec 8) (set : Bool) (s : State) : Host.Outcome State Fault Refusal := run (actFlag f index set) s

/-- HRESUME (R481). -/
def execHresume (f : FrameHdr) (startBead : DWord) (s : State) : Host.Outcome State Fault Refusal := run (actHresume f startBead) s

/-- HCMD (R478). -/
def execHcmd (f : FrameHdr) (htag : BitVec 16) (part : BitVec 8) (last : Bool) (opcode : BitVec 8) (params : List Byte) (entries : List RegwEntry) (s : State) : Host.Outcome State Fault Refusal :=
  run (actHcmd f ⟨htag.toNat, part.toNat, last, opcode.toNat, params, entries⟩) s

/-- HCPL (R477). -/
def execHcpl (f : FrameHdr) (htag : BitVec 16) (status : BitVec 8) (_part : BitVec 8) (count : Word) (result : DWord) (record : List Byte) (s : State) : Host.Outcome State Fault Refusal :=
  run (actHcpl f htag.toNat status.toNat count.toNat result record) s

/-- HCMD_TIMEOUT (R476). -/
def execHcmdTimeout (htag : BitVec 16) (s : State) : Host.Outcome State Fault Refusal := run (actHcmdTimeout htag.toNat) s

/-- PERIOD (R449). -/
def execPeriod (f : FrameHdr) (value : Nat) (atBead : DWord) (s : State) : Host.Outcome State Fault Refusal :=
  run (actPeriod f value atBead) s

/-- JOIN (R479). -/
def execJoin (f : FrameHdr) (bead : DWord) (s : State) : Host.Outcome State Fault Refusal := run (actJoin f bead) s

/-- MDOWN (R480). -/
def execMdown (f : FrameHdr) (pos : BitVec 6) (s : State) : Host.Outcome State Fault Refusal := run (actMdown f pos) s

/-- MEMBER_FAIL_DECLARE (R480). -/
def execMemberFailDeclare (pos : BitVec 6) (s : State) : Host.Outcome State Fault Refusal := run (actMemberFailDeclare pos.toNat) s

/-- COLLECTIVE_TAKE (R483). -/
def execCollectiveTake (h : HerdNo) (s : State) : Host.Outcome State Fault Refusal := run (actCollectiveTake h.val) s

/-- REDUCE_SCATTER (R486). -/
def execReduceScatter (h : HerdNo) (s : State) : Host.Outcome State Fault Refusal := run (actReduceScatter h.val) s

/-- ALL_REDUCE (R485). -/
def execAllReduce (h : HerdNo) (s : State) : Host.Outcome State Fault Refusal := run (actAllReduce h.val) s

/-- ALL_GATHER (R485). -/
def execAllGather (h : HerdNo) (s : State) : Host.Outcome State Fault Refusal := run (actAllGather h.val) s

/-- BROADCAST (R485). -/
def execBroadcast (h : HerdNo) (s : State) : Host.Outcome State Fault Refusal := run (actBroadcast h.val) s

/-- REDUCE (R485). -/
def execReduce (h : HerdNo) (s : State) : Host.Outcome State Fault Refusal := run (actReduce h.val) s

/-- SEND (R484). -/
def execSend (h : HerdNo) (s : State) : Host.Outcome State Fault Refusal := run (actSend h.val) s

/-- MULTICAST (R494). -/
def execMulticast (h : HerdNo) (s : State) : Host.Outcome State Fault Refusal := run (actMulticast h.val) s

/-- COLLECTIVE_END (R492). -/
def execCollectiveEnd (h : HerdNo) (status : BitVec 8) (s : State) : Host.Outcome State Fault Refusal :=
  run (actCollectiveEnd h.val status) s

/-- CABLE_INSERT (R500). -/
def execCableInsert (p : BxNo) (ident : Byte) (media : Byte) (length : Byte) (readOk : Bool) (vendor : List Byte) (part : List Byte) (serial : List Byte) (s : State) : Host.Outcome State Fault Refusal :=
  run (actCableInsert p.val ident media length readOk vendor part serial) s

/-- CABLE_REMOVE (R500). -/
def execCableRemove (p : BxNo) (s : State) : Host.Outcome State Fault Refusal := run (actCableRemove p.val) s

end Sys2Proof.Machine
end

