-- ==== Sys2Proof/Machine/ExecUnits.lean ====
section
/-! DEFINITION. The meanings of the commands of the cube array, the tile and vector units, the mover, the tallies and the scale table: one definition for each, over the acts of the family files. -/

namespace Sys2Proof.Machine

/-- CMM_F (R179). -/
def execCmmF (site : Site) (s : State) : Host.Outcome State Fault Refusal := run (actCmm site.val 1) s

/-- CMM_I (R179). -/
def execCmmI (site : Site) (s : State) : Host.Outcome State Fault Refusal := run (actCmm site.val 2) s

/-- CMM_W (R179). -/
def execCmmW (site : Site) (s : State) : Host.Outcome State Fault Refusal := run (actCmmW site.val) s

/-- CMM_STEP (R194). -/
def execCmmStep (site : Site) (s : State) : Host.Outcome State Fault Refusal := run (actCmmStep site.val) s

/-- CUBE_ACCUMULATE (R196). -/
def execCubeAccumulate (site : Site) (s : State) : Host.Outcome State Fault Refusal := run (actCubeAccumulate site.val) s

/-- CUBE_INJ (R646). -/
def execCubeInj (r : Requester) (site : Site) (v : Word) (s : State) : Host.Outcome State Fault Refusal :=
  run (guarded r (cubePage site.val + 0x108) (cubeInjWrite r site.val v)) s

/-- MASK_EVALUATE (R297). -/
def execMaskEvaluate (site : Site) (found : List Cell) (s : State) : Host.Outcome State Fault Refusal :=
  run (actMaskEvaluate site.val found) s

/-- DWQ_ENQUEUE (R282). -/
def execDwqEnqueue (site : Site) (s : State) : Host.Outcome State Fault Refusal := run (actDwqEnqueue site.val) s

/-- DWQ_START (R286). -/
def execDwqStart (site : Site) (s : State) : Host.Outcome State Fault Refusal := run (actDwqStart site.val) s

/-- TLD (R156). -/
def execTld (site : Site) (s : State) : Host.Outcome State Fault Refusal := run (actTld site.val) s

/-- TST (R158). -/
def execTst (site : Site) (s : State) : Host.Outcome State Fault Refusal := run (actTst site.val) s

/-- TILE_ROW (R157). -/
def execTileRow (site : Site) (found : List Cell) (s : State) : Host.Outcome State Fault Refusal := run (actTileRow site.val found) s

/-- TILE_TC_WRITE (R166). -/
def execTileTcWrite (r : Requester) (site : Site) (n : Fin 8) (lo : Option Word) (hi : Option Word) (s : State) : Host.Outcome State Fault Refusal :=
  run (guarded r (tilePage site.val + 0x100 + 8 * n.val) (tcWrite r site.val n.val lo hi)) s

/-- TC_PENDING_STORE (R166). -/
def execTcPendingStore (site : Site) (n : Fin 8) (s : State) : Host.Outcome State Fault Refusal :=
  run (actTcPendingStore site.val n.val) s

/-- VLD (R149). -/
def execVld (site : Site) (s : State) : Host.Outcome State Fault Refusal := run (actVld site.val) s

/-- VST (R149). -/
def execVst (site : Site) (s : State) : Host.Outcome State Fault Refusal := run (actVst site.val) s

/-- ADD (R255). -/
def execAdd (site : Site) (s : State) : Host.Outcome State Fault Refusal := run (actArith site.val 0x10 (fun a b _ => addF a b)) s

/-- SUB (R255). -/
def execSub (site : Site) (s : State) : Host.Outcome State Fault Refusal := run (actArith site.val 0x11 (fun a b _ => subF a b)) s

/-- MUL (R255). -/
def execMul (site : Site) (s : State) : Host.Outcome State Fault Refusal := run (actArith site.val 0x12 (fun a b _ => mulF a b)) s

/-- FMA (R256). -/
def execFma (site : Site) (s : State) : Host.Outcome State Fault Refusal := run (actArith site.val 0x13 fmaF) s

/-- MAX (R257). -/
def execMax (site : Site) (s : State) : Host.Outcome State Fault Refusal := run (actArith site.val 0x14 (fun a b _ => maxF a b)) s

/-- MIN (R257). -/
def execMin (site : Site) (s : State) : Host.Outcome State Fault Refusal := run (actArith site.val 0x15 (fun a b _ => minF a b)) s

/-- DIV (R257). -/
def execDiv (site : Site) (s : State) : Host.Outcome State Fault Refusal := run (actArith site.val 0x16 (fun a b _ => divF a b)) s

/-- FN (R258). -/
def execFn (site : Site) (s : State) : Host.Outcome State Fault Refusal := run (actFn site.val) s

/-- FND (R260). -/
def execFnd (site : Site) (s : State) : Host.Outcome State Fault Refusal := run (actFnd site.val) s

/-- RED (R261). -/
def execRed (site : Site) (s : State) : Host.Outcome State Fault Refusal := run (actRed site.val) s

/-- RGET (R262). -/
def execRget (site : Site) (s : State) : Host.Outcome State Fault Refusal := run (actRget site.val) s

/-- DMSK (R274). -/
def execDmsk (site : Site) (s : State) : Host.Outcome State Fault Refusal := run (actDmsk site.val) s

/-- MSK (R275). -/
def execMsk (site : Site) (s : State) : Host.Outcome State Fault Refusal := run (actMsk site.val) s

/-- CVT (R264). -/
def execCvt (site : Site) (s : State) : Host.Outcome State Fault Refusal := run (actCvt site.val) s

/-- CVH (R271). -/
def execCvh (site : Site) (s : State) : Host.Outcome State Fault Refusal := run (actCvh site.val) s

/-- DEC (R272). -/
def execDec (site : Site) (s : State) : Host.Outcome State Fault Refusal := run (actDec site.val) s

/-- CUR (R273). -/
def execCur (site : Site) (s : State) : Host.Outcome State Fault Refusal := run (actCur site.val) s

/-- BSC (R251). -/
def execBsc (site : Site) (s : State) : Host.Outcome State Fault Refusal := run (actBsc site.val) s

/-- TCW (R164). -/
def execTcw (site : Site) (s : State) : Host.Outcome State Fault Refusal := run (actTcw site.val) s

/-- MOV_C (R146). -/
def execMovC (site : Site) (s : State) : Host.Outcome State Fault Refusal := run (actMovC site.val) s

/-- MOV_P (R147). -/
def execMovP (site : Site) (s : State) : Host.Outcome State Fault Refusal := run (actMovP site.val) s

/-- MOVER_WORD (R146). -/
def execMoverWord (site : Site) (ch : Fin 2) (found : Cell) (s : State) : Host.Outcome State Fault Refusal :=
  run (actMoverWord site.val ch found) s

/-- MOVER_COPY_DONE (R107). -/
def execMoverCopyDone (site : Site) (ch : Fin 2) (s : State) : Host.Outcome State Fault Refusal :=
  run (actMoverCopyDone site.val ch.val) s

/-- MOVP_FENCED_RESPONSE (R147). -/
def execMovpFencedResponse (site : Site) (ch : Fin 2) (s : State) : Host.Outcome State Fault Refusal :=
  run (actMovpFenced site.val ch) s

/-- TSET (R422). -/
def execTset (site : Site) (s : State) : Host.Outcome State Fault Refusal := run (actTset site.val) s

/-- TCLR (R422). -/
def execTclr (site : Site) (s : State) : Host.Outcome State Fault Refusal := run (actTclr site.val) s

/-- CINC (R426). -/
def execCinc (site : Site) (s : State) : Host.Outcome State Fault Refusal := run (actCinc site.val) s

/-- TALLY_PACKET_ARRIVE (R428). -/
def execTallyPacketArrive (site : Site) (s : State) : Host.Outcome State Fault Refusal := run (actTallyPacketArrive site.val) s

/-- TALLY_ACK (R429). -/
def execTallyAck (site : Site) (s : State) : Host.Outcome State Fault Refusal := run (actTallyAck site.val) s

/-- MIRROR_UPDATE (R420). -/
def execMirrorUpdate (site : Site) (s : State) : Host.Outcome State Fault Refusal := run (actMirrorUpdate site.val) s

/-- TLY_FLAG_SET (R424). -/
def execTlyFlagSet (r : Requester) (site : Site) (k : Fin 8) (v : Word) (s : State) : Host.Outcome State Fault Refusal :=
  run (guarded r (tlyPage site.val + 0x100 + 4 * k.val) (flagWrite site.val k.val v true)) s

/-- TLY_FLAG_CLEAR (R424). -/
def execTlyFlagClear (r : Requester) (site : Site) (k : Fin 8) (v : Word) (s : State) : Host.Outcome State Fault Refusal :=
  run (guarded r (tlyPage site.val + 0x120 + 4 * k.val) (flagWrite site.val k.val v false)) s

/-- SCALE_MERGE_SEND (R230). -/
def execScaleMergeSend (site : Site) (s : State) : Host.Outcome State Fault Refusal := run (actScaleMergeSend site.val) s

/-- SCALE_MERGE (R231). -/
def execScaleMerge (s : State) : Host.Outcome State Fault Refusal := run (actScaleMerge) s

/-- SCALE_EVALUATE (R232). -/
def execScaleEvaluate (n : PortNo) (s : State) : Host.Outcome State Fault Refusal := run (actScaleEvaluate n.val) s

end Sys2Proof.Machine
end

