-- ==== Sys2Proof/Machine/Dispatch.lean ====
section
/-! DEFINITION. Which meaning each command has: one arm for each constructor, one direct call. -/

namespace Sys2Proof.Machine

/-- The effect of a command on everything but the queue of waiting commands. -/
def exec (i : Instr) (s : State) : Host.Outcome State Fault Refusal :=
  match i with
  | .registerWrite r off data => Sys2Proof.Machine.execRegisterWrite r off data s
  | .rcRead r off len => Sys2Proof.Machine.execRcRead r off len s
  | .blkReset r p => Sys2Proof.Machine.execBlkReset r p s
  | .blkResetDone p => Sys2Proof.Machine.execBlkResetDone p s
  | .cntClr r p v => Sys2Proof.Machine.execCntClr r p v s
  | .blkFence r p v => Sys2Proof.Machine.execBlkFence r p v s
  | .blkFenced p => Sys2Proof.Machine.execBlkFenced p s
  | .blkIset r p v => Sys2Proof.Machine.execBlkIset r p v s
  | .routerForward k => Sys2Proof.Machine.execRouterForward k s
  | .ageIncrement k => Sys2Proof.Machine.execAgeIncrement k s
  | .localPortArrive k => Sys2Proof.Machine.execLocalPortArrive k s
  | .bulkWindowOpen n => Sys2Proof.Machine.execBulkWindowOpen n s
  | .bulkWindowClose n => Sys2Proof.Machine.execBulkWindowClose n s
  | .fabDetourWrite r site n v => Sys2Proof.Machine.execFabDetourWrite r site n v s
  | .meshQuiesce r v => Sys2Proof.Machine.execMeshQuiesce r v s
  | .meshQuiesced => Sys2Proof.Machine.execMeshQuiesced s
  | .routerFault site => Sys2Proof.Machine.execRouterFault site s
  | .distTableRewrite done => Sys2Proof.Machine.execDistTableRewrite done s
  | .coreFence site => Sys2Proof.Machine.execCoreFence site s
  | .fenceTimeout site => Sys2Proof.Machine.execFenceTimeout site s
  | .rodRowWrite r site w v => Sys2Proof.Machine.execRodRowWrite r site w v s
  | .seqArm r site => Sys2Proof.Machine.execSeqArm r site s
  | .seqResume r site => Sys2Proof.Machine.execSeqResume r site s
  | .seqStop r site => Sys2Proof.Machine.execSeqStop r site s
  | .rloadGo r site v => Sys2Proof.Machine.execRloadGo r site v s
  | .rloadDone site => Sys2Proof.Machine.execRloadDone site s
  | .rcInval r site v => Sys2Proof.Machine.execRcInval r site v s
  | .coreScrub site found => Sys2Proof.Machine.execCoreScrub site found s
  | .rowCacheFill site line => Sys2Proof.Machine.execRowCacheFill site line s
  | .nop site => Sys2Proof.Machine.execNop site s
  | .next site row => Sys2Proof.Machine.execNext site row s
  | .loop site row => Sys2Proof.Machine.execLoop site row s
  | .endl site row => Sys2Proof.Machine.execEndl site row s
  | .bead site row => Sys2Proof.Machine.execBead site row s
  | .alt site row => Sys2Proof.Machine.execAlt site row s
  | .halt site row => Sys2Proof.Machine.execHalt site row s
  | .coreHalted site => Sys2Proof.Machine.execCoreHalted site s
  | .twait site row => Sys2Proof.Machine.execTwait site row s
  | .twaitc site row => Sys2Proof.Machine.execTwaitc site row s
  | .cwait site row => Sys2Proof.Machine.execCwait site row s
  | .waitRegister site => Sys2Proof.Machine.execWaitRegister site s
  | .waitRelease site => Sys2Proof.Machine.execWaitRelease site s
  | .waitTimeout site => Sys2Proof.Machine.execWaitTimeout site s
  | .waitCancel site => Sys2Proof.Machine.execWaitCancel site s
  | .coreFaulted site => Sys2Proof.Machine.execCoreFaulted site s
  | .cmmF site => Sys2Proof.Machine.execCmmF site s
  | .cmmI site => Sys2Proof.Machine.execCmmI site s
  | .cmmW site => Sys2Proof.Machine.execCmmW site s
  | .cmmStep site => Sys2Proof.Machine.execCmmStep site s
  | .cubeAccumulate site => Sys2Proof.Machine.execCubeAccumulate site s
  | .cubeInj r site v => Sys2Proof.Machine.execCubeInj r site v s
  | .maskEvaluate site found => Sys2Proof.Machine.execMaskEvaluate site found s
  | .dwqEnqueue site => Sys2Proof.Machine.execDwqEnqueue site s
  | .dwqStart site => Sys2Proof.Machine.execDwqStart site s
  | .tld site => Sys2Proof.Machine.execTld site s
  | .tst site => Sys2Proof.Machine.execTst site s
  | .tileRow site found => Sys2Proof.Machine.execTileRow site found s
  | .tileTcWrite r site n lo hi => Sys2Proof.Machine.execTileTcWrite r site n lo hi s
  | .tcPendingStore site n => Sys2Proof.Machine.execTcPendingStore site n s
  | .vld site => Sys2Proof.Machine.execVld site s
  | .vst site => Sys2Proof.Machine.execVst site s
  | .add site => Sys2Proof.Machine.execAdd site s
  | .sub site => Sys2Proof.Machine.execSub site s
  | .mul site => Sys2Proof.Machine.execMul site s
  | .fma site => Sys2Proof.Machine.execFma site s
  | .max site => Sys2Proof.Machine.execMax site s
  | .min site => Sys2Proof.Machine.execMin site s
  | .div site => Sys2Proof.Machine.execDiv site s
  | .fn site => Sys2Proof.Machine.execFn site s
  | .fnd site => Sys2Proof.Machine.execFnd site s
  | .red site => Sys2Proof.Machine.execRed site s
  | .rget site => Sys2Proof.Machine.execRget site s
  | .dmsk site => Sys2Proof.Machine.execDmsk site s
  | .msk site => Sys2Proof.Machine.execMsk site s
  | .cvt site => Sys2Proof.Machine.execCvt site s
  | .cvh site => Sys2Proof.Machine.execCvh site s
  | .dec site => Sys2Proof.Machine.execDec site s
  | .cur site => Sys2Proof.Machine.execCur site s
  | .bsc site => Sys2Proof.Machine.execBsc site s
  | .tcw site => Sys2Proof.Machine.execTcw site s
  | .movC site => Sys2Proof.Machine.execMovC site s
  | .movP site => Sys2Proof.Machine.execMovP site s
  | .moverWord site ch found => Sys2Proof.Machine.execMoverWord site ch found s
  | .moverCopyDone site ch => Sys2Proof.Machine.execMoverCopyDone site ch s
  | .movpFencedResponse site ch => Sys2Proof.Machine.execMovpFencedResponse site ch s
  | .tset site => Sys2Proof.Machine.execTset site s
  | .tclr site => Sys2Proof.Machine.execTclr site s
  | .cinc site => Sys2Proof.Machine.execCinc site s
  | .tallyPacketArrive site => Sys2Proof.Machine.execTallyPacketArrive site s
  | .tallyAck site => Sys2Proof.Machine.execTallyAck site s
  | .mirrorUpdate site => Sys2Proof.Machine.execMirrorUpdate site s
  | .tlyFlagSet r site k v => Sys2Proof.Machine.execTlyFlagSet r site k v s
  | .tlyFlagClear r site k v => Sys2Proof.Machine.execTlyFlagClear r site k v s
  | .scaleMergeSend site => Sys2Proof.Machine.execScaleMergeSend site s
  | .scaleMerge => Sys2Proof.Machine.execScaleMerge s
  | .scaleEvaluate n => Sys2Proof.Machine.execScaleEvaluate n s
  | .ueRingPoll n h => Sys2Proof.Machine.execUeRingPoll n h s
  | .ueDescriptorTake n h => Sys2Proof.Machine.execUeDescriptorTake n h s
  | .update n h => Sys2Proof.Machine.execUpdate n h s
  | .accumulate n h => Sys2Proof.Machine.execAccumulate n h s
  | .updateWithAccumulatedGradient n h => Sys2Proof.Machine.execUpdateWithAccumulatedGradient n h s
  | .groupLoad n h => Sys2Proof.Machine.execGroupLoad n h s
  | .groupStore n h => Sys2Proof.Machine.execGroupStore n h s
  | .advance n h => Sys2Proof.Machine.execAdvance n h s
  | .ueBatch n h => Sys2Proof.Machine.execUeBatch n h s
  | .ueDescriptorEnd n h => Sys2Proof.Machine.execUeDescriptorEnd n h s
  | .uePloadGo r n v => Sys2Proof.Machine.execUePloadGo r n v s
  | .uePloadDone n => Sys2Proof.Machine.execUePloadDone n s
  | .programReplace n => Sys2Proof.Machine.execProgramReplace n s
  | .ueRingEnable r bx n h v => Sys2Proof.Machine.execUeRingEnable r bx n h v s
  | .alloc c page n dest port wr pinned => Sys2Proof.Machine.execAlloc c page n dest port wr pinned s
  | .free c page n => Sys2Proof.Machine.execFree c page n s
  | .move c page n dest port => Sys2Proof.Machine.execMove c page n dest port s
  | .pin c page n => Sys2Proof.Machine.execPin c page n s
  | .unpin c page n => Sys2Proof.Machine.execUnpin c page n s
  | .prot c page n wr => Sys2Proof.Machine.execProt c page n wr s
  | .share c page n set => Sys2Proof.Machine.execShare c page n set s
  | .admitHerd c set herd => Sys2Proof.Machine.execAdmitHerd c set herd s
  | .revoke c set herd => Sys2Proof.Machine.execRevoke c set herd s
  | .pageMove => Sys2Proof.Machine.execPageMove s
  | .pageMoveDone page => Sys2Proof.Machine.execPageMoveDone page s
  | .touchWrite page => Sys2Proof.Machine.execTouchWrite page s
  | .evict => Sys2Proof.Machine.execEvict s
  | .migHfloorWrite r h v => Sys2Proof.Machine.execMigHfloorWrite r h v s
  | .migHpfWrite r h w v => Sys2Proof.Machine.execMigHpfWrite r h w v s
  | .prefetchDone h entry => Sys2Proof.Machine.execPrefetchDone h entry s
  | .mpRead n lblock src herd noise => Sys2Proof.Machine.execMpRead n lblock src herd noise s
  | .mpWrite n lblock data => Sys2Proof.Machine.execMpWrite n lblock data s
  | .narrowWrite n lblock herd data => Sys2Proof.Machine.execNarrowWrite n lblock herd data s
  | .mergeHoldExpire n => Sys2Proof.Machine.execMergeHoldExpire n s
  | .fillDone n => Sys2Proof.Machine.execFillDone n s
  | .patrolScrub n noise => Sys2Proof.Machine.execPatrolScrub n noise s
  | .mpRemapWrite r n e v => Sys2Proof.Machine.execMpRemapWrite r n e v s
  | .testWriteGenerated r n => Sys2Proof.Machine.execTestWriteGenerated r n s
  | .testWriteData r n => Sys2Proof.Machine.execTestWriteData r n s
  | .testWriteCheck r n => Sys2Proof.Machine.execTestWriteCheck r n s
  | .testWriteBoth r n => Sys2Proof.Machine.execTestWriteBoth r n s
  | .testReadRaw r n => Sys2Proof.Machine.execTestReadRaw r n s
  | .testReadDecode r n => Sys2Proof.Machine.execTestReadDecode r n s
  | .dumpGo r v => Sys2Proof.Machine.execDumpGo r v s
  | .dumpEnd => Sys2Proof.Machine.execDumpEnd s
  | .beadBoundary => Sys2Proof.Machine.execBeadBoundary s
  | .beadRunStart r v => Sys2Proof.Machine.execBeadRunStart r v s
  | .mark port bead lag late measured => Sys2Proof.Machine.execMark port bead lag late measured s
  | .markerLost => Sys2Proof.Machine.execMarkerLost s
  | .beadHoldStart => Sys2Proof.Machine.execBeadHoldStart s
  | .beadNextWrite r v => Sys2Proof.Machine.execBeadNextWrite r v s
  | .report port bead slip votes => Sys2Proof.Machine.execReport port bead slip votes s
  | .reportDeadline => Sys2Proof.Machine.execReportDeadline s
  | .result port bead slip missing votes => Sys2Proof.Machine.execResult port bead slip missing votes s
  | .haltPause h => Sys2Proof.Machine.execHaltPause h s
  | .haltFail h => Sys2Proof.Machine.execHaltFail h s
  | .haltLinkStop h => Sys2Proof.Machine.execHaltLinkStop h s
  | .haltLinkResume h => Sys2Proof.Machine.execHaltLinkResume h s
  | .linkAck p lseq => Sys2Proof.Machine.execLinkAck p lseq s
  | .linkReplay p lseq => Sys2Proof.Machine.execLinkReplay p lseq s
  | .linkCredit p credits => Sys2Proof.Machine.execLinkCredit p credits s
  | .linkUp p partner delayNs => Sys2Proof.Machine.execLinkUp p partner delayNs s
  | .linkDown p => Sys2Proof.Machine.execLinkDown p s
  | .linkRetrain r p v => Sys2Proof.Machine.execLinkRetrain r p v s
  | .frameForward f type data => Sys2Proof.Machine.execFrameForward f type data s
  | .wr f data => Sys2Proof.Machine.execWr f data s
  | .redFrame f data => Sys2Proof.Machine.execRedFrame f data s
  | .gat f data => Sys2Proof.Machine.execGat f data s
  | .mcd f data => Sys2Proof.Machine.execMcd f data s
  | .mreq f => Sys2Proof.Machine.execMreq f s
  | .mgnt f => Sys2Proof.Machine.execMgnt f s
  | .multicastSend h => Sys2Proof.Machine.execMulticastSend h s
  | .mrel f => Sys2Proof.Machine.execMrel f s
  | .mdone f => Sys2Proof.Machine.execMdone f s
  | .abort f => Sys2Proof.Machine.execAbort f s
  | .flag f index set => Sys2Proof.Machine.execFlag f index set s
  | .hresume f startBead => Sys2Proof.Machine.execHresume f startBead s
  | .hcmd f htag part last opcode params entries => Sys2Proof.Machine.execHcmd f htag part last opcode params entries s
  | .hcpl f htag status part count result record => Sys2Proof.Machine.execHcpl f htag status part count result record s
  | .hcmdTimeout htag => Sys2Proof.Machine.execHcmdTimeout htag s
  | .period f value atBead => Sys2Proof.Machine.execPeriod f value atBead s
  | .join f bead => Sys2Proof.Machine.execJoin f bead s
  | .mdown f pos => Sys2Proof.Machine.execMdown f pos s
  | .memberFailDeclare pos => Sys2Proof.Machine.execMemberFailDeclare pos s
  | .collectiveTake h => Sys2Proof.Machine.execCollectiveTake h s
  | .reduceScatter h => Sys2Proof.Machine.execReduceScatter h s
  | .allReduce h => Sys2Proof.Machine.execAllReduce h s
  | .allGather h => Sys2Proof.Machine.execAllGather h s
  | .broadcast h => Sys2Proof.Machine.execBroadcast h s
  | .reduce h => Sys2Proof.Machine.execReduce h s
  | .send h => Sys2Proof.Machine.execSend h s
  | .multicast h => Sys2Proof.Machine.execMulticast h s
  | .collectiveEnd h status => Sys2Proof.Machine.execCollectiveEnd h status s
  | .cableInsert p ident media length readOk vendor part serial => Sys2Proof.Machine.execCableInsert p ident media length readOk vendor part serial s
  | .cableRemove p => Sys2Proof.Machine.execCableRemove p s
  | .doorbell f off data => Sys2Proof.Machine.execDoorbell f off data s
  | .completionWrite f ring => Sys2Proof.Machine.execCompletionWrite f ring s
  | .ringEnable r f ring v => Sys2Proof.Machine.execRingEnable r f ring v s
  | .ringDisable r f ring v => Sys2Proof.Machine.execRingDisable r f ring v s
  | .noticeWrite f => Sys2Proof.Machine.execNoticeWrite f s
  | .bar2BaseWrite r f lo hi => Sys2Proof.Machine.execBar2BaseWrite r f lo hi s
  | .bar2Resize f log2 => Sys2Proof.Machine.execBar2Resize f log2 s
  | .bar2Read f off len => Sys2Proof.Machine.execBar2Read f off len s
  | .bar2Write f off data => Sys2Proof.Machine.execBar2Write f off data s
  | .nopCommand c => Sys2Proof.Machine.execNopCommand c s
  | .herdCreate c p => Sys2Proof.Machine.execHerdCreate c p s
  | .herdRings c area lsize => Sys2Proof.Machine.execHerdRings c area lsize s
  | .herdRegw c list => Sys2Proof.Machine.execHerdRegw c list s
  | .herdStart c ahead setidx stepidx => Sys2Proof.Machine.execHerdStart c ahead setidx stepidx s
  | .herdStop c => Sys2Proof.Machine.execHerdStop c s
  | .herdResume c ahead => Sys2Proof.Machine.execHerdResume c ahead s
  | .herdPark c => Sys2Proof.Machine.execHerdPark c s
  | .herdUnpark c ncores qmask => Sys2Proof.Machine.execHerdUnpark c ncores qmask s
  | .herdDestroy c => Sys2Proof.Machine.execHerdDestroy c s
  | .extReg c base pages => Sys2Proof.Machine.execExtReg c base pages s
  | .extDereg c extent => Sys2Proof.Machine.execExtDereg c extent s
  | .progLoad c image first count => Sys2Proof.Machine.execProgLoad c image first count s
  | .dump c dest => Sys2Proof.Machine.execDump c dest s
  | .eval c p => Sys2Proof.Machine.execEval c p s
  | .evalSwitch h => Sys2Proof.Machine.execEvalSwitch h s
  | .evalRestore h => Sys2Proof.Machine.execEvalRestore h s
  | .herdFaultTimeout h => Sys2Proof.Machine.execHerdFaultTimeout h s
  | .functionLevelReset f => Sys2Proof.Machine.execFunctionLevelReset f s
  | .vfEnableClear k => Sys2Proof.Machine.execVfEnableClear k s
  | .hostPortReset k => Sys2Proof.Machine.execHostPortReset k s
  | .perstRelease k => Sys2Proof.Machine.execPerstRelease k s
  | .snapCfg c p => Sys2Proof.Machine.execSnapCfg c p s
  | .snapMtbf c mf w resetObs => Sys2Proof.Machine.execSnapMtbf c mf w resetObs s
  | .snapNow c => Sys2Proof.Machine.execSnapNow c s
  | .snapStat c => Sys2Proof.Machine.execSnapStat c s
  | .snapRestore c base slot => Sys2Proof.Machine.execSnapRestore c base slot s
  | .snapFetch c store dest bytes => Sys2Proof.Machine.execSnapFetch c store dest bytes s
  | .snapOff c => Sys2Proof.Machine.execSnapOff c s
  | .ungroupedCopyDone h => Sys2Proof.Machine.execUngroupedCopyDone h s
  | .entryFinal h e => Sys2Proof.Machine.execEntryFinal h e s
  | .entryCaptured h e => Sys2Proof.Machine.execEntryCaptured h e s
  | .storeTimeout h => Sys2Proof.Machine.execStoreTimeout h s
  | .swr h => Sys2Proof.Machine.execSwr h s
  | .sack p h addr => Sys2Proof.Machine.execSack p h addr s
  | .srd h addr len => Sys2Proof.Machine.execSrd h addr len s
  | .srdr p h addr data => Sys2Proof.Machine.execSrdr p h addr data s
  | .serr p h addr => Sys2Proof.Machine.execSerr p h addr s
  | .mwr f data => Sys2Proof.Machine.execMwr f data s
  | .mack f => Sys2Proof.Machine.execMack f s
  | .scommit f => Sys2Proof.Machine.execScommit f s
  | .sverified f => Sys2Proof.Machine.execSverified f s
  | .splan f => Sys2Proof.Machine.execSplan f s
  | .rdone f status => Sys2Proof.Machine.execRdone f status s
  | .restoreStart h => Sys2Proof.Machine.execRestoreStart h s
  | .restoreChunk h record => Sys2Proof.Machine.execRestoreChunk h record s
  | .spq p addr => Sys2Proof.Machine.execSpq p addr s
  | .sparePoll => Sys2Proof.Machine.execSparePoll s
  | .spst p spare state => Sys2Proof.Machine.execSpst p spare state s
  | .takeover p addr cfg herds => Sys2Proof.Machine.execTakeover p addr cfg herds s
  | .tkack p spare => Sys2Proof.Machine.execTkack p spare s
  | .filldone p spare ok => Sys2Proof.Machine.execFilldone p spare ok s
  | .standdown p addr => Sys2Proof.Machine.execStanddown p addr s
  | .pwrEnRise => Sys2Proof.Machine.execPwrEnRise s
  | .pwrEnHoldoffEnd => Sys2Proof.Machine.execPwrEnHoldoffEnd s
  | .railsGood hpSplit inlineDisN slotId => Sys2Proof.Machine.execRailsGood hpSplit inlineDisN slotId s
  | .pwrEnFall => Sys2Proof.Machine.execPwrEnFall s
  | .protectionTrip => Sys2Proof.Machine.execProtectionTrip s
  | .thermalTrip sensor temp => Sys2Proof.Machine.execThermalTrip sensor temp s
  | .inputLow vin => Sys2Proof.Machine.execInputLow vin s
  | .powerWindowEnd avg peak vin iin => Sys2Proof.Machine.execPowerWindowEnd avg peak vin iin s
  | .powerOnReset => Sys2Proof.Machine.execPowerOnReset s
  | .pllLock => Sys2Proof.Machine.execPllLock s
  | .pllLockLoss cr => Sys2Proof.Machine.execPllLockLoss cr s
  | .bankChoose readA readB => Sys2Proof.Machine.execBankChoose readA readB s
  | .firmwareStart => Sys2Proof.Machine.execFirmwareStart s
  | .channelTrained n ch => Sys2Proof.Machine.execChannelTrained n ch s
  | .runEntry fru => Sys2Proof.Machine.execRunEntry fru s
  | .deviceReset => Sys2Proof.Machine.execDeviceReset s
  | .pageFreeAll => Sys2Proof.Machine.execPageFreeAll s
  | .mgtRstDev r v => Sys2Proof.Machine.execMgtRstDev r v s
  | .watchdogKick r v => Sys2Proof.Machine.execWatchdogKick r v s
  | .watchdogExpire => Sys2Proof.Machine.execWatchdogExpire s
  | .reset t => Sys2Proof.Machine.execReset t s
  | .fence t site => Sys2Proof.Machine.execFence t site s
  | .herdFail t h => Sys2Proof.Machine.execHerdFail t h s
  | .powerLimit t watts => Sys2Proof.Machine.execPowerLimit t watts s
  | .partitionPod t p => Sys2Proof.Machine.execPartitionPod t p s
  | .partitionHostLimits t k cores frames groups herds seq => Sys2Proof.Machine.execPartitionHostLimits t k cores frames groups herds seq s
  | .partitionSpare t podId index => Sys2Proof.Machine.execPartitionSpare t podId index s
  | .partitionAux t a b => Sys2Proof.Machine.execPartitionAux t a b s
  | .remapLoad t n blocks => Sys2Proof.Machine.execRemapLoad t n blocks s
  | .sysprogLoad t first programs => Sys2Proof.Machine.execSysprogLoad t first programs s
  | .linkHalt t action h => Sys2Proof.Machine.execLinkHalt t action h s
  | .openPermission t => Sys2Proof.Machine.execOpenPermission t s
  | .svnCommit t => Sys2Proof.Machine.execSvnCommit t s
  | .keyRevoke t slot => Sys2Proof.Machine.execKeyRevoke t slot s
  | .mgmtDumpStart t => Sys2Proof.Machine.execMgmtDumpStart t s
  | .mgmtDumpRead t slot offset len => Sys2Proof.Machine.execMgmtDumpRead t slot offset len s
  | .fruRead t fru => Sys2Proof.Machine.execFruRead t fru s
  | .regRead t off => Sys2Proof.Machine.execRegRead t off s
  | .setEndpointId eid => Sys2Proof.Machine.execSetEndpointId eid s
  | .getEndpointId => Sys2Proof.Machine.execGetEndpointId s
  | .getEndpointUuid => Sys2Proof.Machine.execGetEndpointUuid s
  | .getMctpVersionSupport type => Sys2Proof.Machine.execGetMctpVersionSupport type s
  | .getMessageTypeSupport => Sys2Proof.Machine.execGetMessageTypeSupport s
  | .getVendorDefinedMessageSupport selector => Sys2Proof.Machine.execGetVendorDefinedMessageSupport selector s
  | .getTid => Sys2Proof.Machine.execGetTid s
  | .setTid tid => Sys2Proof.Machine.execSetTid tid s
  | .getPldmVersion type => Sys2Proof.Machine.execGetPldmVersion type s
  | .getPldmTypes => Sys2Proof.Machine.execGetPldmTypes s
  | .getPldmCommands type => Sys2Proof.Machine.execGetPldmCommands type s
  | .getPdrRepositoryInfo => Sys2Proof.Machine.execGetPdrRepositoryInfo s
  | .getPdr record => Sys2Proof.Machine.execGetPdr record s
  | .getSensorReading sensor => Sys2Proof.Machine.execGetSensorReading sensor s
  | .getStateSensorReadings sensor => Sys2Proof.Machine.execGetStateSensorReadings sensor s
  | .setEventReceiver enable receiver => Sys2Proof.Machine.execSetEventReceiver enable receiver s
  | .eventMessageSupported => Sys2Proof.Machine.execEventMessageSupported s
  | .eventMessageBufferSize size => Sys2Proof.Machine.execEventMessageBufferSize size s
  | .pollForPlatformEventMessage => Sys2Proof.Machine.execPollForPlatformEventMessage s
  | .getFruRecordTableMetadata => Sys2Proof.Machine.execGetFruRecordTableMetadata s
  | .getFruRecordTable handle => Sys2Proof.Machine.execGetFruRecordTable handle s
  | .requestUpdate size => Sys2Proof.Machine.execRequestUpdate size s
  | .passComponentTable component version => Sys2Proof.Machine.execPassComponentTable component version s
  | .updateComponent component version => Sys2Proof.Machine.execUpdateComponent component version s
  | .requestFirmwareData offset data => Sys2Proof.Machine.execRequestFirmwareData offset data s
  | .transferComplete => Sys2Proof.Machine.execTransferComplete s
  | .verifyComplete => Sys2Proof.Machine.execVerifyComplete s
  | .applyComplete => Sys2Proof.Machine.execApplyComplete s
  | .activateFirmware selfContained => Sys2Proof.Machine.execActivateFirmware selfContained s
  | .getStatus => Sys2Proof.Machine.execGetStatus s
  | .cancelUpdate => Sys2Proof.Machine.execCancelUpdate s
  | .getVersion => Sys2Proof.Machine.execGetVersion s
  | .getCapabilities => Sys2Proof.Machine.execGetCapabilities s
  | .negotiateAlgorithms => Sys2Proof.Machine.execNegotiateAlgorithms s
  | .getDigests => Sys2Proof.Machine.execGetDigests s
  | .getCertificate slot offset len => Sys2Proof.Machine.execGetCertificate slot offset len s
  | .challenge slot nonce => Sys2Proof.Machine.execChallenge slot nonce s
  | .getMeasurements index sign nonce => Sys2Proof.Machine.execGetMeasurements index sign nonce s
  | .respondIfReady => Sys2Proof.Machine.execRespondIfReady s
  | .getPqSig => Sys2Proof.Machine.execGetPqSig s
  | .getPqCert => Sys2Proof.Machine.execGetPqCert s
  | .pqSigReady => Sys2Proof.Machine.execPqSigReady s
  | .eventService p => Sys2Proof.Machine.execEventService p s
  | .ownerSearchDone => Sys2Proof.Machine.execOwnerSearchDone s
  | .vuResultWrite site => Sys2Proof.Machine.execVuResultWrite site s
  | .vectorAccessComplete site k found => Sys2Proof.Machine.execVectorAccessComplete site k found s
  | .waitCancelAnswer site => Sys2Proof.Machine.execWaitCancelAnswer site s
  | .hostLinkUp k width speed flit => Sys2Proof.Machine.execHostLinkUp k width speed flit s
  | .vfEnableSet k numVfs => Sys2Proof.Machine.execVfEnableSet k numVfs s
  | .pllLockRegain cr => Sys2Proof.Machine.execPllLockRegain cr s
  | .tempThresholdCross sensor temp => Sys2Proof.Machine.execTempThresholdCross sensor temp s
  | .storeDmaCompletion h addr data => Sys2Proof.Machine.execStoreDmaCompletion h addr data s
  | .coreHardFault site => Sys2Proof.Machine.execCoreHardFault site s

end Sys2Proof.Machine
end

