-- ==== Sys2Proof/Machine/Tick.lean ====
section
/-! DEFINITION. The passing of one arithmetic cycle in which no command comes (log entry 48): the counts of cycles that the registers show. -/

namespace Sys2Proof.Machine

/-- Whether MGT_BEAD_CYC counts: a source counts while it runs, another member always (R439, R441). -/
def cycRuns (s : State) : Bool := !isSource s || beadRuns s

/-- A cycle of core `site`: the wait it counts (TLY_WAITCYC), and SEQ_ slots 1 to 3, CUBE_ slot 2 and VU_ slot 1. -/
def tickCore (site : Nat) : Act := look fun s =>
  let st := coreState s site
  let x := coreX s site
  let w := (rd s (tlyPage site + 0x248)).toNat
  seq [act (waitPending s site) (wr (tlyPage site + 0x248) (BitVec.ofNat 32 (min (w + 1) 0xFFFFFFFF))),
    act (canIssue s site && rowHeld s site) (count (seqPage site) 1 1),
    act (decide (st = 4)) (count (seqPage site) 2 1), act (decide (st = 5)) (count (seqPage site) 3 1),
    act ([3, 4, 5].contains st && x.cube.isNone && x.dwqCur.isNone) (count (cubePage site) 2 1),
    act (bit (vuStat s site) 1) (count (vuPage site) 1 1)]

/-- Whether an update descriptor is held until an entry is captured (R542). -/
def descHeld (s : State) : Bool := s.desc.any (fun d => decide (d.phase = 0) && snapHolds s d.herd (dGroup d) (dStep d).toNat)

/-- One cycle passes. -/
def actTick : Act := look fun s =>
  let c := rd s (beadPage + 0x108)
  seq [one (.cycle (s.cycle + 1)), act (cycRuns s) (wr (beadPage + 0x108) (setFld c 23 0 (fld c 23 0 + 1))),
    each (s.herd.flatMap (fun p => p.2.sites)) tickCore, serveFrames,
    act (descHeld s) (count snapPage 4 1)]

/-- The module after one cycle; without power nothing changes. -/
def tick (s : State) : State := if powered s then applyAll (actTick s) s else s

end Sys2Proof.Machine
end

