-- ==== Sys2Proof/Machine/Fields.lean ====
section
/-! DEFINITION. The fields of the state by name, the one field that each primitive update can change, and what it is for two states to agree but for some fields: the terms in which frames are stated. -/

namespace Sys2Proof.Machine

/-- The fields of the state, by name. -/
inductive Part where
  | pending
  | cycle
  | power
  | straps
  | fuses
  | withdrawn
  | ctl
  | store
  | rod
  | storeBad
  | rodBad
  | vreg
  | acc
  | core
  | mem
  | chk
  | farMem
  | packets
  | lastGrant
  | bulkOpen
  | bulkPend
  | mesh
  | merges
  | prog
  | progPend
  | desc
  | evalDue
  | ringFail
  | lastTaken
  | herd
  | extent
  | ssetOwner
  | moves
  | moveTurn
  | touched
  | mergeBuf
  | bx
  | side
  | hcmd
  | htag
  | coll
  | mc
  | aborts
  | ended
  | cable
  | numVfs
  | bar2Log
  | busyRing
  | phase
  | completions
  | notices
  | fnTurn
  | hpTurn
  | hpUsed
  | perst
  | snap
  | spares
  | dumpRun
  | flash
  | fwHeader
  | wdtArmed
  | rstPend
  | mgmt
  | evQueue
  | lastCorr
  | coalesced
  | searches
  | capRun
  | freeCtr
  | out
  deriving DecidableEq, Repr

/-- The one field that a primitive update can change. -/
def Upd.part : Upd → Part
  | .ctl _ _ => .ctl
  | .store _ _ => .store
  | .rod _ _ => .rod
  | .storeBad _ _ => .storeBad
  | .rodBad _ _ => .rodBad
  | .vreg _ _ => .vreg
  | .acc _ _ => .acc
  | .core _ _ => .core
  | .mem _ _ => .mem
  | .chk _ _ => .chk
  | .farMem _ _ => .farMem
  | .prog _ _ => .prog
  | .flash _ _ => .flash
  | .bx _ _ => .bx
  | .snap _ _ => .snap
  | .bulkPend _ _ => .bulkPend
  | .ringFail _ _ => .ringFail
  | .lastTaken _ _ => .lastTaken
  | .lastGrant _ _ => .lastGrant
  | .cable _ _ => .cable
  | .herd _ _ => .herd
  | .extent _ _ => .extent
  | .ssetOwner _ _ => .ssetOwner
  | .touched _ _ => .touched
  | .lastCorr _ _ => .lastCorr
  | .coalesced _ _ => .coalesced
  | .phase _ _ => .phase
  | .numVfs _ _ => .numVfs
  | .bar2Log _ _ => .bar2Log
  | .busyRing _ _ => .busyRing
  | .cycle _ => .cycle
  | .power _ => .power
  | .straps _ => .straps
  | .fuses _ => .fuses
  | .withdrawn _ => .withdrawn
  | .packets _ => .packets
  | .bulkOpen _ => .bulkOpen
  | .merges _ => .merges
  | .progPend _ => .progPend
  | .desc _ => .desc
  | .evalDue _ => .evalDue
  | .moves _ => .moves
  | .mergeBuf _ => .mergeBuf
  | .side _ => .side
  | .hcmd _ => .hcmd
  | .htag _ => .htag
  | .coll _ => .coll
  | .mc _ => .mc
  | .aborts _ => .aborts
  | .ended _ => .ended
  | .fnTurn _ => .fnTurn
  | .hpTurn _ => .hpTurn
  | .hpUsed _ => .hpUsed
  | .completions _ => .completions
  | .notices _ => .notices
  | .perst _ => .perst
  | .spares _ => .spares
  | .dumpRun _ => .dumpRun
  | .fwHeader _ => .fwHeader
  | .wdtArmed _ => .wdtArmed
  | .rstPend _ => .rstPend
  | .mgmt _ => .mgmt
  | .evQueue _ => .evQueue
  | .searches _ => .searches
  | .capRun _ => .capRun
  | .moveTurn _ => .moveTurn
  | .mesh _ => .mesh
  | .freeCtr _ => .freeCtr
  | .ctlReset _ _ => .ctl
  | .ctlClear => .ctl
  | .storeKeep _ => .store
  | .rodKeep _ => .rod
  | .storeBadKeep _ => .storeBad
  | .rodBadKeep _ => .rodBad
  | .vregKeep _ => .vreg
  | .accKeep _ => .acc
  | .coreKeep _ => .core
  | .memKeep _ => .mem
  | .chkKeep _ => .chk
  | .farMemKeep _ => .farMem
  | .progKeep _ => .prog
  | .bxKeep _ => .bx
  | .bulkPendKeep _ => .bulkPend
  | .ringFailKeep _ => .ringFail
  | .lastTakenKeep _ => .lastTaken
  | .herdKeep _ => .herd
  | .extentKeep _ => .extent
  | .ssetOwnerKeep _ => .ssetOwner
  | .touchedKeep _ => .touched
  | .snapKeep _ => .snap
  | .lastCorrKeep _ => .lastCorr
  | .coalescedKeep _ => .coalesced
  | .phaseKeep _ => .phase
  | .bar2LogKeep _ => .bar2Log
  | .busyRingKeep _ => .busyRing
  | .numVfsKeep _ => .numVfs
  | .lastGrantKeep _ => .lastGrant
  | .out _ => .out

/-- Two states agree in the field that p names. -/
def Same (s t : State) : Part → Prop
  | .pending => t.pending = s.pending
  | .cycle => t.cycle = s.cycle
  | .power => t.power = s.power
  | .straps => t.straps = s.straps
  | .fuses => t.fuses = s.fuses
  | .withdrawn => t.withdrawn = s.withdrawn
  | .ctl => t.ctl = s.ctl
  | .store => t.store = s.store
  | .rod => t.rod = s.rod
  | .storeBad => t.storeBad = s.storeBad
  | .rodBad => t.rodBad = s.rodBad
  | .vreg => t.vreg = s.vreg
  | .acc => t.acc = s.acc
  | .core => t.core = s.core
  | .mem => t.mem = s.mem
  | .chk => t.chk = s.chk
  | .farMem => t.farMem = s.farMem
  | .packets => t.packets = s.packets
  | .lastGrant => t.lastGrant = s.lastGrant
  | .bulkOpen => t.bulkOpen = s.bulkOpen
  | .bulkPend => t.bulkPend = s.bulkPend
  | .mesh => t.mesh = s.mesh
  | .merges => t.merges = s.merges
  | .prog => t.prog = s.prog
  | .progPend => t.progPend = s.progPend
  | .desc => t.desc = s.desc
  | .evalDue => t.evalDue = s.evalDue
  | .ringFail => t.ringFail = s.ringFail
  | .lastTaken => t.lastTaken = s.lastTaken
  | .herd => t.herd = s.herd
  | .extent => t.extent = s.extent
  | .ssetOwner => t.ssetOwner = s.ssetOwner
  | .moves => t.moves = s.moves
  | .moveTurn => t.moveTurn = s.moveTurn
  | .touched => t.touched = s.touched
  | .mergeBuf => t.mergeBuf = s.mergeBuf
  | .bx => t.bx = s.bx
  | .side => t.side = s.side
  | .hcmd => t.hcmd = s.hcmd
  | .htag => t.htag = s.htag
  | .coll => t.coll = s.coll
  | .mc => t.mc = s.mc
  | .aborts => t.aborts = s.aborts
  | .ended => t.ended = s.ended
  | .cable => t.cable = s.cable
  | .numVfs => t.numVfs = s.numVfs
  | .bar2Log => t.bar2Log = s.bar2Log
  | .busyRing => t.busyRing = s.busyRing
  | .phase => t.phase = s.phase
  | .completions => t.completions = s.completions
  | .notices => t.notices = s.notices
  | .fnTurn => t.fnTurn = s.fnTurn
  | .hpTurn => t.hpTurn = s.hpTurn
  | .hpUsed => t.hpUsed = s.hpUsed
  | .perst => t.perst = s.perst
  | .snap => t.snap = s.snap
  | .spares => t.spares = s.spares
  | .dumpRun => t.dumpRun = s.dumpRun
  | .flash => t.flash = s.flash
  | .fwHeader => t.fwHeader = s.fwHeader
  | .wdtArmed => t.wdtArmed = s.wdtArmed
  | .rstPend => t.rstPend = s.rstPend
  | .mgmt => t.mgmt = s.mgmt
  | .evQueue => t.evQueue = s.evQueue
  | .lastCorr => t.lastCorr = s.lastCorr
  | .coalesced => t.coalesced = s.coalesced
  | .searches => t.searches = s.searches
  | .capRun => t.capRun = s.capRun
  | .freeCtr => t.freeCtr = s.freeCtr
  | .out => t.out = s.out

/-- t agrees with s in every field but those that ps names. -/
def OnlyIn (ps : List Part) (s t : State) : Prop := ∀ p, ps.contains p = false → Same s t p

end Sys2Proof.Machine
end

