-- ==== Sys2Proof/Safety.lean ====
section
/-! DEFINITION. What a safe run is: every sparse array of the state in its one canonical form, and no step that stops. -/

namespace Sys2Proof.Machine

/-- The canonical form of the state's data: keys of every sparse array rise, and none lists what an unlisted key reads as. -/
def State.wf (s : State) : Bool :=
  mCanon s.ctl resetWord && mCanon s.store (fun _ => 0) && mCanon s.rod (fun _ => 0) && mCanon s.storeBad (fun _ => false) &&
    mCanon s.rodBad (fun _ => false) && mCanon s.vreg (fun _ => 0) &&
    mCanon s.acc (fun _ => 0) && mCanon s.core (fun _ => CoreX.clear) && mCanon s.mem (fun _ => 0) && mCanon s.chk (fun _ => 0) &&
    mCanon s.farMem (fun _ => 0) && mCanon s.prog (fun _ => 0) && mCanon s.flash (fun _ => 0xFF) &&
    mCanon s.bx (fun _ => BxPort.clear) && mCanon s.snap (fun _ => Snap.clear) && mRising s.bulkPend && mRising s.ringFail &&
    mRising s.lastTaken && mRising s.lastGrant && mRising s.herd && mRising s.extent && mRising s.ssetOwner && mRising s.touched &&
    mRising s.lastCorr && mRising s.cable && mRising s.coalesced && mRising s.phase && mRising s.numVfs && mRising s.bar2Log && mRising s.busyRing

/-- The memory of the device in canonical form: device memory, its stored check symbols, and far memory. -/
def Memory.wf (s : State) : Bool := mCanon s.mem (fun _ => 0) && mCanon s.chk (fun _ => 0) && mCanon s.farMem (fun _ => 0)

/-- A powered module whose state is in canonical form: what every step that starts from reset keeps while the rails are up. -/
abbrev Ready (s : State) : Prop := powered s = true ∧ s.wf = true

/-- Command c has its own effect at s: exec answers a next state that agrees with s in every field but those that ps names, and of which
P holds. -/
def Does (c : Instr) (s : State) (ps : List Part) (P : State → Prop) : Prop :=
  ∃ t, exec c s = .next t ∧ OnlyIn ps s t ∧ P t

/-- The page of the control window that a command names takes a write (R35, R37, R40): a block page that is present, is not resetting and
is not fenced. -/
abbrev Takes (s : State) (page : Nat) : Prop :=
  blockOf s page ≠ .absent ∧ (blockOf s page).isWindow = false ∧ rstBusy s (4096 * page) = false ∧ fenced s (4096 * page) = false

/-- The four enabled bytes of a word in a request. -/
def wordBytesOf (v : Word) : List (Option Byte) := (leBytes 4 v.toNat).map some

/-- The row at SEQ_PC of a core issues now (R103, R104, R114): the sequencer issues rows, the row's control operation has code `sop`, nothing
holds the row and it has no fault; `taken` says whether an ALT's condition holds. -/
abbrev RowReady (s : State) (site sop : Nat) (taken : Bool) : Prop :=
  canIssue s site = true ∧ sopAt s site = sop ∧ rowHeld s site = false ∧ rowFaultOf s site taken = none

/-- The row at SEQ_PC of core `site` has issued with all its slots, and SEQ_PC holds `next` (R103). -/
abbrev RowIssued (s t : State) (site next : Nat) : Prop :=
  pcOf t site = next ∧ (coreX t site).issued = (coreX s site).issued ++ rowInsns s site

/-- Core `site` holds x, and every other core what it held. -/
def CoreIs (s t : State) (site : Nat) (x : CoreX) : Prop := coreX t site = x ∧ ∀ d, d ≠ site → coreX t d = coreX s d

/-- The reads of words ws of a core store, which find `found`, meet no uncorrectable word. -/
def NoneBad (s : State) (site : Nat) (ws : List Nat) (found : List Cell) : Prop :=
  (∀ x ∈ found, x ≠ .bad) ∧ ∀ n ∈ ws, mGetD s.storeBad (49152 * site + n) false = false

/-- The home table's entry of page p lies in a block without an error. -/
def entryClean (s : State) (p : Nat) : Bool :=
  let b := (homeBase s + 8 * p) / 64
  !poisoned s b && decide (verdictAt s (tcorrOf s (blkPort b)) (heldAt s b) = .clean)

/-- Every register outside the pages at the listed BAR0 offsets reads as before. -/
def RegsOnly (pages : List Nat) (s t : State) : Prop := ∀ a, a / 4096 * 4096 ∉ pages → rd t a = rd s a

/-- Every register but those at the listed addresses reads as before. -/
def RegsAt (as : List Nat) (s t : State) : Prop := ∀ a, a ∉ as → rd t a = rd s a

/-- An instruction whose unit has started it. -/
def begun (i : Issued) : Issued := { i with started := true }

/-- The unretired instructions of a core with j in the place of i. -/
def swapInsn (x : CoreX) (i j : Issued) : List Issued := x.issued.map (fun k => if k.id = i.id then j else k)

/-- The unretired instructions of a core once i has retired. -/
def dropInsn (x : CoreX) (i : Issued) : List Issued := x.issued.filter (fun k => decide (k.id ≠ i.id))

/-- The unretired instructions of a core once the next row of tile instruction i has completed (R157). -/
def nextRow (x : CoreX) (i : Issued) : List Issued :=
  if i.orow + 1 < tRows i.tcA then swapInsn x i { i with orow := i.orow + 1 } else dropInsn x i

/-- The writes to port W1 that a result of registers rs, with the scale bytes written beside each, makes (R278). -/
def regWrites (i : Issued) (rs : List (Nat × BitVec 512)) (scales : Nat → List (Nat × Byte)) : List W1Write :=
  rs.zipIdx.map fun p => ⟨i, some p.1, none, scales p.2, decide (p.2 + 1 = rs.length)⟩

/-- The operation i of the vector unit has begun, and owes port W1 its 64 lanes in its own format (R255, R278). -/
def OwesLanes (s t : State) (site : Nat) (i : Issued) (lanes : List Word) : Prop :=
  CoreIs s t site { coreX s site with
    accFlip := (coreX t site).accFlip
    issued := swapInsn (coreX s site) i (begun i)
    w1 := (coreX s site).w1 ++ regWrites i (destRegs (vuFmt i.word) (vuVd i.word) lanes) (fun _ => []) }

/-- Output element 32 × y + x of the banks with field b of a core (R176, R177). -/
def outGet (s : State) (site b k : Nat) : Word := accGet s site (4 * cubeOf (k / 32, k % 32) + b) (8 * (k / 32 % 8) + k % 32 % 8)

/-- Core `site` has captured a fault (R138, R139): SEQ_FLT0 holds the cause, the part and the row, and the core drains toward FAULTED. -/
abbrev FaultCaptured (t : State) (site cause part row : Nat) : Prop :=
  bit (rd t (seqPage site + 0x180)) 31 = true ∧ bit (rd t (seqPage site + 0x180)) 30 = causeResumable cause ∧
    fld (rd t (seqPage site + 0x180)) 29 28 = part ∧ fld (rd t (seqPage site + 0x180)) 23 16 = cause ∧
    fld (rd t (seqPage site + 0x180)) 10 0 = row ∧ (coreX t site).faulting = true ∧
    bit (rd t (seqPage site + 0x20)) (causeClass cause).code = true

/-- Device memory holds block b without an error: no correction is owed, no poison stands (R391, R407). -/
abbrev CleanBlk (s : State) (b : Nat) : Prop :=
  verdictAt s (tcorrOf s (blkPort b)) (heldAt s b) = .clean ∧ poisoned s b = false

/-- No stored error and no poison stands anywhere in device memory. -/
def ErrorFree (s : State) : Prop := s.chk = [] ∧ ∀ b, poisoned s b = false

/-- Descriptor d has become e, and every other descriptor is what it was. -/
def DescIs (s t : State) (d e : UeDesc) : Prop := t.desc = s.desc.map (fun x => if x = d then e else x)

/-- Command c can be fetched from its ring and its function's herd h, which is x, takes it on this device alone (R508 to R516): the ring is
enabled and not empty, no command of the herd runs, the herd has not failed, and no other member of a pod holds cores of it. -/
abbrev CommandRuns (s : State) (c : CmdId) (h : Nat) (x : Herd) : Prop :=
  h < 64 ∧ c.reserved = false ∧ ringReady s c = true ∧ herdOfFn s c.fn = some h ∧ herdOf s h = some x ∧ x.failed = false ∧
    fnReleasing s c.fn = false ∧ herdBusy s h = false ∧ herdMembers s h = []

/-- Command c has been fetched: its entry has been read with the function's identity (R508), its ring's head has moved on, the ring is busy
until the completion is written, and the function has had its turn (R510). -/
abbrev Fetched (s t : State) (c : CmdId) : Prop :=
  crHead t c.fn.val c.ring.val = (crHead s c.fn.val c.ring.val + 1) % 65536 ∧ mGet t.busyRing (16 * c.fn.val + c.ring.val) = some 1 ∧
    t.fnTurn = c.fn.val ∧ s.out ++ [.hostRead c.fn (sqAddr s c.fn.val c.ring.val) 64] <+: t.out

/-- Command c has been fetched and its completion is owed, with a status and a result (R510, R511). -/
abbrev Answered (s t : State) (c : CmdId) (status : Nat) (result : DWord) : Prop :=
  Fetched s t c ∧ t.completions = s.completions ++ [⟨c.fn, c.ring, c.tag, BitVec.ofNat 8 status, result⟩]

/-- A bead boundary finds no herd to work for, no JOIN and no eviction due. -/
abbrev QuietBoundary (s : State) : Prop := s.herd = [] ∧ s.side.joinBead = none ∧ bit (rd s (migPage 0 + 0x110)) 2 = false

/-- The bead counter has gone on by one, and its cycle count starts afresh (R439, R441). -/
abbrev NextBead (s t : State) : Prop := beadNo t = beadNo s + 1 ∧ rd t (beadPage + 0x108) = 0 ∧ t.bulkOpen = [] ∧ t.bulkPend = []

/-- A HALT symbol for this member alone arrives on a torus port that is up (R474). -/
abbrev HaltHere (s : State) (h : HaltSym) : Prop :=
  linkUp s h.port.val = true ∧ h.crcOk = true ∧ h.port.val < 6 ∧ podEn s = true ∧ h.all = false ∧ h.target.toNat = ownPos s

/-- A frame for this member arrives whole and in order on a torus port that is up (R460, R466). -/
abbrev FrameHere (s : State) (f : FrameHdr) : Prop :=
  linkUp s f.port.val = true ∧ f.crcOk = true ∧ f.port.val < 6 ∧ podEn s = true ∧ f.dst.toNat = ownPos s ∧ f.lseq.toNat = (bxOf s f.port.val).rxSeq

/-- The port has taken one frame: it expects the next one (R466). -/
abbrev Arrived (s t : State) (p : Nat) : Prop := (bxOf t p).rxSeq = ((bxOf s p).rxSeq + 1) % 65536

/-- No frame lies in the receive buffer of a torus port (R462). -/
abbrev NoneHeld (s : State) : Prop := ∀ p < 6, (bxOf s p).held = []

/-- Collective c has become d, and every other collective is what it was. -/
def CollIs (s t : State) (c d : Collective) : Prop := t.coll = s.coll.map (fun x => if x = c then d else x)

/-- An auxiliary port is up (R459). -/
abbrev AuxUp (s : State) (p : BxNo) : Prop := linkUp s p.val = true ∧ 6 ≤ p.val

/-- The snapshot engine holds x for herd h, and for every other herd what it held. -/
def SnapIs (s t : State) (h : Nat) (x : Snap) : Prop := snapOf t h = x ∧ ∀ g, g ≠ h → snapOf t g = snapOf s g

/-- The packet by which core `site` sends command i, of kind k for object n, to the core that holds it (R420, R428). -/
def tallyOut (s : State) (site : Nat) (i : Issued) (k : Fin 3) (n : Nat) : Packet :=
  ⟨site, tallyTarget s site i, 4, 0, 0, herdNo s site, 0, site, 12,
    .tally k n (BitVec.ofNat 8 (fld i.word 7 0)) (BitVec.ofNat 8 (stepTag s site)) true i.row⟩

/-- A state whose only change is one message to the management controller. -/
abbrev said (s : State) (type code : Byte) (body : List Byte) : State := { s with out := s.out ++ [.message type code body] }

/-- The last thing that has left the module is the response to a management command (R617). -/
abbrev Responded (t : State) (cmd : Byte) (tag : MTag) (status : Byte) (result : List Byte) : Prop :=
  t.out.getLast? = some (.mgmtResponse cmd tag status result)

/-- The module once power has been lost (R579, R582): the burned fuses, the boot flash, the straps, the pins and the cables aside,
everything is as at reset; the commands that wait, what has left the module and the model's count of free values are not the module's. -/
def dark (s : State) : State :=
  { State.reset with
    pending := s.pending
    power := s.power
    straps := s.straps
    fuses := s.fuses
    flash := s.flash
    cable := s.cable
    freeCtr := s.freeCtr
    out := s.out }

/-- The fields that a device reset may change (R596, R598) in a device whose merge buffers are empty: the memory, the boot flash, the
fuses, the straps and the ports released by perst_n are not among them. -/
def dieParts : List Part :=
  [.power, .ctl, .store, .rod, .storeBad, .rodBad, .vreg, .acc, .core, .farMem, .packets, .lastGrant, .bulkOpen, .bulkPend, .mesh, .merges, .prog, .progPend, .desc,
    .evalDue, .ringFail, .lastTaken, .herd, .extent, .ssetOwner, .moves, .moveTurn, .touched, .side, .bx, .hcmd, .htag, .coll, .mc, .aborts, .ended, .fnTurn, .hpTurn, .hpUsed, .numVfs, .bar2Log,
    .busyRing, .phase, .completions, .notices, .snap, .spares, .dumpRun, .fwHeader, .wdtArmed, .rstPend, .mgmt, .evQueue, .lastCorr,
    .coalesced, .searches, .capRun, .out]

/-- Every home-table entry but that of page p is what it was. -/
def OtherPages (s t : State) (p : Nat) : Prop := ∀ q, q < 2 ^ 26 → q ≠ p → homeEntry t q = homeEntry s q

/-- No HERD_PARK waits for the herd of core `site`. -/
def NotParking (s : State) (site : Nat) : Prop := ∀ h, herdAt s site = some h → (herdOf s h).bind (·.parking) = none

/-- A step that does not stop. -/
def stepGoesOn (s : State) : Bool :=
  match step s with
  | .next _ => true
  | .fault _ | .refused _ => false

end Sys2Proof.Machine
end

