-- ==== Sys2Proof/WellFormed.lean ====
section
/-! DEFINITION. Well-formed commands: operands that the command's own layout can carry. The machine gives every command a meaning, well-formed or not; a sender can form only these. -/

namespace Sys2Proof

/-- A list has n elements. -/
def hasLength {α : Type} (l : List α) (n : Nat) : Bool := decide (l.length = n)

/-- HERD_CREATE's parameters fit their fields (R514). -/
def HerdParams.wellFormed (p : HerdParams) : Bool :=
  decide (p.ncores < 2 ^ 11) && decide (p.quota < 2 ^ 26) && decide (p.floor < 2 ^ 26) && decide (p.ngroups < 2 ^ 17) &&
    decide (p.nprog < 2 ^ 8) && decide (p.nseq < 2 ^ 11) && decide (p.minper < 2 ^ 20)

/-- A HERD_REGW list entry fits its fields (R517). -/
def RegwEntry.wellFormed (e : RegwEntry) : Bool := decide (e.hidx < 2 ^ 10)

/-- EVAL's parameters fit their fields (R528). -/
def EvalParams.wellFormed (p : EvalParams) : Bool :=
  decide (p.rowsM1 < 2 ^ 11) && decide (p.startRow < 2 ^ 11) && decide (p.trainRowsM1 < 2 ^ 11) && decide (p.nb < 2 ^ 16) &&
    p.list.all RegwEntry.wellFormed

/-- SNAP_CFG's parameters fit their fields (R570). -/
def SnapParams.wellFormed (p : SnapParams) : Bool :=
  decide (p.entries < 2 ^ 13) && decide (p.kmax < 2 ^ 16) && decide (p.slotMiB < 2 ^ 32) && decide (p.mquota < 2 ^ 16) &&
    decide (p.rmin < 2 ^ 16)

/-- A pod configuration holds the BX_NBR words of the six torus ports (R457). -/
def PodParams.wellFormed (p : PodParams) : Bool := hasLength p.nbr 6

/-- A takeover's record fits its fields (R563). -/
def TakeHerd.wellFormed (t : TakeHerd) : Bool :=
  t.create.wellFormed && t.snap.wellFormed && decide (t.firstGroup < 2 ^ 16) && decide (t.firstProg < 2 ^ 8)

/-- A MIG run's page and count fit their fields (R514). -/
def migRun (page n : Nat) : Bool := decide (page < 2 ^ 26) && decide (n < 2 ^ 26)

/-- A frame's payload has at most 4,096 bytes (R460). -/
def payload (data : List Byte) : Bool := decide (data.length ≤ 4096)

/-- Port-local block numbers have 30 bits (R405). -/
def lblockOk (l : Nat) : Bool := decide (l < 2 ^ 30)

/-- Whether a command's operands are ones that its layout can carry. -/
def Instr.wellFormed (i : Instr) : Bool :=
  match i with
  | .registerWrite _ _ data => decide (0 < data.length) && decide (data.length ≤ 4096)
  | .rcRead _ _ len => decide (0 < len) && decide (len ≤ 4096)
  | .coreScrub _ found => hasLength found 12
  | .alloc _ page n _ port _ _ => migRun page n && decide (port < 32)
  | .move _ page n _ port => migRun page n && decide (port < 32)
  | .free _ page n => migRun page n
  | .pin _ page n => migRun page n
  | .unpin _ page n => migRun page n
  | .prot _ page n _ => migRun page n
  | .share _ page n _ => migRun page n
  | .mpRead _ l _ _ _ => lblockOk l
  | .mpWrite _ l data => lblockOk l && hasLength data 64
  | .narrowWrite _ l _ data => lblockOk l && hasLength data 64
  | .linkCredit _ credits => hasLength credits 7
  | .frameForward _ _ data => payload data
  | .wr _ data => payload data
  | .redFrame _ data => payload data
  | .gat _ data => payload data
  | .mcd _ data => payload data
  | .hcmd _ _ _ _ _ params entries => hasLength params 56 && decide (entries.length ≤ 9) && entries.all RegwEntry.wellFormed
  | .hcpl _ htag _ _ _ _ record => hasLength record (if htag = 0xFFFF then 24 else 0)
  | .period _ value _ => decide (value < 2 ^ 20)
  | .cableInsert _ _ _ _ _ vendor part serial => hasLength vendor 16 && hasLength part 16 && hasLength serial 16
  | .bar2Read _ _ len => decide (0 < len) && decide (len ≤ 4096)
  | .doorbell _ _ data => decide (0 < data.length) && decide (data.length ≤ 4096)
  | .bar2Write _ _ data => decide (0 < data.length) && decide (data.length ≤ 4096)
  | .herdCreate _ p => p.wellFormed
  | .herdRings _ _ lsize => decide (lsize < 16)
  | .herdRegw _ list => decide (list.length < 1024) && list.all RegwEntry.wellFormed
  | .herdStart _ ahead _ _ => decide (ahead < 256)
  | .herdResume _ ahead => decide (ahead < 256)
  | .herdUnpark _ ncores _ => decide (ncores < 2 ^ 11)
  | .extReg _ _ pages => decide (0 < pages) && decide (pages ≤ 2 ^ 18)
  | .progLoad _ _ first count => decide (first < 256) && decide (0 < count) && decide (count ≤ 256)
  | .eval _ p => p.wellFormed
  | .snapCfg _ p => p.wellFormed
  | .snapFetch _ _ _ bytes => decide (bytes < 2 ^ 32)
  | .srd _ _ len => decide (0 < len) && decide (len ≤ 4096)
  | .srdr _ _ _ data => payload data
  | .storeDmaCompletion _ _ data => payload data
  | .mwr _ data => payload data
  | .takeover _ _ cfg herds => cfg.wellFormed && herds.all TakeHerd.wellFormed
  | .partitionPod _ p => p.wellFormed
  | .partitionHostLimits _ _ cores frames groups herds seq =>
    decide (cores < 2 ^ 32) && decide (frames < 2 ^ 32) && decide (groups < 2 ^ 32) && decide (herds < 2 ^ 32) && decide (seq < 2 ^ 32)
  | .remapLoad _ _ blocks => blocks.all lblockOk
  | .sysprogLoad _ _ programs => programs.all (fun p => hasLength p 32)
  | .blkReset _ _ | .blkResetDone _ | .cntClr _ _ _ | .blkFence _ _ _ | .blkFenced _ | .blkIset _ _ _ => true
  | .routerForward _ | .ageIncrement _ | .localPortArrive _ | .bulkWindowOpen _ | .bulkWindowClose _ => true
  | .fabDetourWrite _ _ _ _ | .meshQuiesce _ _ | .meshQuiesced | .routerFault _ | .distTableRewrite _ => true
  | .coreFence _ | .fenceTimeout _ | .rodRowWrite _ _ _ _ | .seqArm _ _ | .seqResume _ _ | .seqStop _ _ => true
  | .rloadGo _ _ _ | .rloadDone _ | .rcInval _ _ _ | .rowCacheFill _ _ | .nop _ | .next _ _ | .loop _ _ | .endl _ _ => true
  | .bead _ _ | .alt _ _ | .halt _ _ | .coreHalted _ | .twait _ _ | .twaitc _ _ | .cwait _ _ | .waitRegister _ => true
  | .waitRelease _ | .waitTimeout _ | .waitCancel _ | .coreFaulted _ | .cmmF _ | .cmmI _ | .cmmW _ | .cmmStep _ => true
  | .cubeAccumulate _ | .cubeInj _ _ _ | .maskEvaluate _ _ | .dwqEnqueue _ | .dwqStart _ | .tld _ | .tst _ => true
  | .tileRow _ _ | .tileTcWrite _ _ _ _ _ | .tcPendingStore _ _ | .vld _ | .vst _ | .add _ | .sub _ | .mul _ => true
  | .fma _ | .max _ | .min _ | .div _ | .fn _ | .fnd _ | .red _ | .rget _ | .dmsk _ | .msk _ | .cvt _ | .cvh _ => true
  | .dec _ | .cur _ | .bsc _ | .tcw _ | .movC _ | .movP _ | .moverWord _ _ _ | .moverCopyDone _ _ => true
  | .movpFencedResponse _ _ | .tset _ | .tclr _ | .cinc _ | .tallyPacketArrive _ | .tallyAck _ | .mirrorUpdate _ => true
  | .tlyFlagSet _ _ _ _ | .tlyFlagClear _ _ _ _ | .scaleMergeSend _ | .scaleMerge | .scaleEvaluate _ => true
  | .ueRingPoll _ _ | .ueDescriptorTake _ _ | .update _ _ | .accumulate _ _ | .updateWithAccumulatedGradient _ _ => true
  | .groupLoad _ _ | .groupStore _ _ | .advance _ _ | .ueBatch _ _ | .ueDescriptorEnd _ _ | .uePloadGo _ _ _ => true
  | .uePloadDone _ | .programReplace _ | .ueRingEnable _ _ _ _ _ | .admitHerd _ _ _ | .revoke _ _ _ => true
  | .pageMove | .pageMoveDone _ | .touchWrite _ | .evict | .migHfloorWrite _ _ _ | .migHpfWrite _ _ _ _ => true
  | .prefetchDone _ _ | .mergeHoldExpire _ | .fillDone _ | .patrolScrub _ _ | .mpRemapWrite _ _ _ _ => true
  | .testWriteGenerated _ _ | .testWriteData _ _ | .testWriteCheck _ _ | .testWriteBoth _ _ | .testReadRaw _ _ => true
  | .testReadDecode _ _ | .dumpGo _ _ | .dumpEnd | .beadBoundary | .beadRunStart _ _ | .mark _ _ _ _ _ => true
  | .markerLost | .beadHoldStart | .beadNextWrite _ _ | .report _ _ _ _ | .reportDeadline | .result _ _ _ _ _ => true
  | .haltPause _ | .haltFail _ | .haltLinkStop _ | .haltLinkResume _ | .linkAck _ _ | .linkReplay _ _ => true
  | .linkUp _ _ _ | .linkDown _ | .linkRetrain _ _ _ | .mreq _ | .mgnt _ | .multicastSend _ | .mrel _ => true
  | .mdone _ | .abort _ | .flag _ _ _ | .hresume _ _ | .hcmdTimeout _ | .join _ _ | .mdown _ _ => true
  | .memberFailDeclare _ | .collectiveTake _ | .reduceScatter _ | .allReduce _ | .allGather _ | .broadcast _ => true
  | .reduce _ | .send _ | .multicast _ | .collectiveEnd _ _ | .cableRemove _ => true
  | .completionWrite _ _ | .ringEnable _ _ _ _ | .ringDisable _ _ _ _ | .noticeWrite _ | .bar2BaseWrite _ _ _ _ => true
  | .bar2Resize _ _ | .nopCommand _ | .herdStop _ | .herdPark _ | .herdDestroy _ | .extDereg _ _ | .dump _ _ => true
  | .evalSwitch _ | .evalRestore _ | .herdFaultTimeout _ | .functionLevelReset _ | .vfEnableClear _ => true
  | .hostPortReset _ | .perstRelease _ | .snapMtbf _ _ _ _ | .snapNow _ | .snapStat _ | .snapRestore _ _ _ => true
  | .snapOff _ | .ungroupedCopyDone _ | .entryFinal _ _ | .entryCaptured _ _ | .storeTimeout _ | .swr _ => true
  | .sack _ _ _ | .serr _ _ _ | .mack _ | .scommit _ | .sverified _ | .splan _ | .rdone _ _ | .restoreStart _ => true
  | .restoreChunk _ _ | .spq _ _ | .sparePoll | .spst _ _ _ | .tkack _ _ | .filldone _ _ _ | .standdown _ _ => true
  | .pwrEnRise | .pwrEnHoldoffEnd | .railsGood _ _ _ | .pwrEnFall | .protectionTrip | .thermalTrip _ _ => true
  | .inputLow _ | .powerWindowEnd _ _ _ _ | .powerOnReset | .pllLock | .pllLockLoss _ | .bankChoose _ _ => true
  | .firmwareStart | .channelTrained _ _ | .runEntry _ | .deviceReset | .pageFreeAll | .mgtRstDev _ _ => true
  | .watchdogKick _ _ | .watchdogExpire | .reset _ | .fence _ _ | .herdFail _ _ | .powerLimit _ _ => true
  | .partitionSpare _ _ _ | .partitionAux _ _ _ | .linkHalt _ _ _ | .openPermission _ | .svnCommit _ => true
  | .keyRevoke _ _ | .mgmtDumpStart _ | .mgmtDumpRead _ _ _ _ | .fruRead _ _ | .regRead _ _ => true
  | .setEndpointId _ | .getEndpointId | .getEndpointUuid | .getMctpVersionSupport _ | .getMessageTypeSupport => true
  | .getVendorDefinedMessageSupport _ | .getTid | .setTid _ | .getPldmVersion _ | .getPldmTypes => true
  | .getPldmCommands _ | .getPdrRepositoryInfo | .getPdr _ | .getSensorReading _ | .getStateSensorReadings _ => true
  | .setEventReceiver _ _ | .eventMessageSupported | .eventMessageBufferSize _ | .pollForPlatformEventMessage => true
  | .getFruRecordTableMetadata | .getFruRecordTable _ | .requestUpdate _ | .passComponentTable _ _ => true
  | .updateComponent _ _ | .requestFirmwareData _ _ | .transferComplete | .verifyComplete | .applyComplete => true
  | .activateFirmware _ | .getStatus | .cancelUpdate | .getVersion | .getCapabilities | .negotiateAlgorithms => true
  | .getDigests | .getCertificate _ _ _ | .challenge _ _ | .getMeasurements _ _ _ | .respondIfReady => true
  | .getPqSig | .getPqCert | .pqSigReady | .eventService _ | .ownerSearchDone | .vuResultWrite _ => true
  | .vectorAccessComplete _ _ _ | .waitCancelAnswer _ | .hostLinkUp _ _ _ _ | .vfEnableSet _ _ | .pllLockRegain _ => true
  | .tempThresholdCross _ _ | .coreHardFault _ => true

end Sys2Proof
end

