-- ==== Sys2Proof/Certificates/Slice0/Obligations.lean ====
section
/-! DEFINITION. The statements for the provers. Does c s ps P (Safety.lean) says: exec answers a next state that agrees with s in every
field but those of ps, and of which P holds. -/

namespace Sys2Proof.Machine

end Sys2Proof.Machine

open Sys2Proof Sys2Proof.Machine

/-! ## The machine -/

/-- A step takes the command at the front of the queue and runs it on the state with the rest of the queue. -/
def Obligations.StepTakesFront : Prop :=
  ∀ (s : State) (c : Instr) (rest : List Instr), s.pending = c :: rest → step s = exec c { s with pending := rest }

/-- MODEL'S CHOICE (log entry 48): with no command waiting a step passes one arithmetic cycle of a powered module, and the queue stays empty. No
command touches the queue. -/
def Obligations.QueueKept : Prop :=
  (∀ s : State, s.pending = [] → ∃ t, step s = .next t ∧ t.pending = [] ∧ (powered s = true → t.cycle = s.cycle + 1)) ∧
  (∀ (c : Instr) (s t : State), exec c s = .next t → t.pending = s.pending)

/-- Right after a power-on reset the state is in canonical form, the module is powered and in INIT, nothing waits, and every register reads its
reset value. -/
def Obligations.ResetReady : Prop :=
  Ready State.reset ∧ State.reset.power.state = .init ∧ State.reset.pending = [] ∧ State.reset.herd = [] ∧
    ∀ a, rd State.reset a = resetWord a

/-- Every step from a state in canonical form leaves one in canonical form, whatever commands wait. -/
def Obligations.StepKeepsForm : Prop :=
  ∀ s t : State, s.wf = true → step s = .next t → t.wf = true

/-- The fuses change only by SVN_COMMIT and KEY_REVOKE (R611, R612): no other command writes any. -/
def Obligations.FusesKept : Prop :=
  ∀ (c : Instr) (s t : State), (∀ g, c ≠ .svnCommit g) → (∀ g k, c ≠ .keyRevoke g k) → exec c s = .next t → t.fuses = s.fuses

/-! ## The control window (chapter 1) -/

/-- R22, R23: the ring controller's write of a word of a page's header stores the RW bits, clears the W1C bits and sets the W1S bits that it
names, and changes nothing else. BLK_CTRL and BLK_ISET have commands of their own. R38, R39: a block reset sets rst_busy, and of a page
without state beyond its registers every word but BLK_STAT returns to its reset value, sticky bits aside (R26), but for the words that show
what lies outside the block (log entry 139). The end of the reset clears rst_busy and changes nothing else. That the block is cleared at the
write is the model's choice (log entry 110). R42: CNT_CLR from the ring controller returns the eight counter slots of the page to 0. R37:
BLK_FENCE sets the fence bit of the page; BLK_FENCED sets fenced once the block has drained. When a block has drained is the model's reading
(log entry 111). R45: BLK_ISET sets the bits of BLK_IST that it names, and nothing else changes. -/
def Obligations.BlockControls : Prop :=
  (∀ s, Ready s → ∀ (p : PageNo) (o : Nat) (v : Word) (d : RegDef) (off : BitVec 28), Takes s p.val → o < 0x100 → o % 4 = 0 → o ≠ 0x10 →
    o ≠ 0x28 → off.toNat = 4096 * p.val + o → regDef (blockOf s p.val) o = some d →
    exec (.registerWrite .ringCtl off (wordBytesOf v)) s = .next ((Upd.ctl (4096 * p.val + o)
      ((((v &&& BitVec.ofNat 32 d.rw) ||| (rd s (4096 * p.val + o) &&& ~~~BitVec.ofNat 32 d.rw)) &&& ~~~(v &&& BitVec.ofNat 32 d.w1c)) |||
        (v &&& BitVec.ofNat 32 d.w1s))).apply s)) ∧
  ((∀ s, Ready s → ∀ p : PageNo, Takes s p.val → (∀ c, (blockOf s p.val).coreSite = some c → coreState s c = 0 ∨ coreState s c = 9) →
    ∃ t, exec (.blkReset .ringCtl p) s = .next t ∧ rstBusy t (4096 * p.val) = true) ∧
  (∀ s, Ready s → ∀ p : PageNo, Takes s p.val → p.val = 4 ∨ p.val = 8 ∨ p.val = 12 ∨ p.val = 13 ∨ p.val = 0x140 ∨ p.val = 0x1C0 →
    Does (.blkReset .ringCtl p) s [.ctl] fun t =>
      (∀ a o, a = 4096 * p.val + o → o < 4096 → o ≠ 0x14 → o ∉ shownWords (blockOf s p.val) →
        p.val = 4 ∨ p.val = 8 ∨ p.val = 0x1C0 ∨ (o ≠ 0x20 ∧ o ≠ 0x10C) →
        rd t a = (rd s a &&& stickyMask a) ||| (resetWord a &&& ~~~stickyMask a)) ∧
      ∀ a, a / 4096 ≠ p.val → rd t a = rd s a) ∧
  (∀ s, Ready s → ∀ p : PageNo, rstBusy s (4096 * p.val) = true →
    Does (.blkResetDone p) s [.ctl] fun t => rstBusy t (4096 * p.val) = false ∧ ∀ a, a ≠ 4096 * p.val + 0x14 → rd t a = rd s a)) ∧
  (∀ s, Ready s → ∀ (p : PageNo) (v : Word), Takes s p.val → bit v 1 = false → bit v 2 = false →
    Does (.cntClr .ringCtl p v) s [.ctl] fun t =>
      (∀ k < 8, rd t (4096 * p.val + 0x80 + 8 * k) = 0 ∧ rd t (4096 * p.val + 0x84 + 8 * k) = 0) ∧
      ∀ a, a / 4096 ≠ p.val → rd t a = rd s a) ∧
  ((∀ s, Ready s → ∀ (p : PageNo) (v : Word), Takes s p.val → bit v 1 = false → bit v 3 = false →
    ∃ t, exec (.blkFence .ringCtl p v) s = .next t ∧ fenced t (4096 * p.val) = true) ∧
  (∀ s, Ready s → ∀ (p : PageNo) (v : Word), Takes s p.val → bit v 1 = false → bit v 3 = false →
    (∀ c, blockOf s p.val ≠ .fab c) → (∀ c, blockOf s p.val ≠ .cube c) →
    Does (.blkFence .ringCtl p v) s [.ctl] fun t => fenced t (4096 * p.val) = true ∧ ∀ a, a ≠ 4096 * p.val + 0x10 → rd t a = rd s a) ∧
  (∀ s, Ready s → ∀ p : PageNo, blockOf s p.val ≠ .absent → (blockOf s p.val).isWindow = false → (blockOf s p.val).coreSite = none →
    fenced s (4096 * p.val) = true → isFenced s (4096 * p.val) = false → blockDrained s (blockOf s p.val) = true →
    Does (.blkFenced p) s [.ctl, .mem, .chk, .mergeBuf, .dumpRun, .freeCtr] fun t => isFenced t (4096 * p.val) = true)) ∧
  (∀ s, Ready s → ∀ (p : PageNo) (v : Word), Takes s p.val →
    Does (.blkIset .ringCtl p v) s [.ctl] fun t =>
      rd t (4096 * p.val + 0x20) = rd s (4096 * p.val + 0x20) ||| (v &&& 0xFFFF) ∧ ∀ a, a ≠ 4096 * p.val + 0x20 → rd t a = rd s a)

/-- R24: a read of an aligned word by a requester with a right to the page answers the word, and changes nothing else. -/
def Obligations.WordRead : Prop :=
  ∀ s, Ready s → ∀ (r : Requester) (off : BitVec 28), off.toNat % 4 = 0 → reqOk s r = true →
    mayRead s r (blockOf s (off.toNat / 4096)) = true →
    exec (.rcRead r off 4) s = .next { s with out := s.out ++ [.readData (some r) (some (leBytes 4 (fullRead s off.toNat).toNat))] }

/-- R20, R21: a write by a function without the right to the page does not reach the page: the register holds what it held, and the SECURITY
event of SEC_ instance 0 is latched. -/
def Obligations.RightsHold : Prop :=
  ∀ s, Ready s → ∀ (f : FnNo) (p : PageNo) (v : Word) (off : BitVec 28), reqOk s (.fn f) = true → off.toNat % 4 = 0 →
    off.toNat / 4096 = p.val → blockOf s p.val ≠ .absent → mayWrite s (.fn f) (blockOf s p.val) (off.toNat % 4096) = false →
    Does (.registerWrite (.fn f) off (wordBytesOf v)) s [.ctl, .dumpRun, .freeCtr] fun t =>
      bit (rd t (secPage 0 + 0x20)) 6 = true ∧ ∀ a, a / 4096 ≠ 8 → a / 4096 ≠ 4 → rd t a = rd s a

/-! ## The mesh (chapters 2 and 3) -/

/-- R63, R67, R74, R75: a packet that waits outside the mesh enters the buffer of its input port where that has credits. The header that is
granted its output port moves one step: to its local port or to the next router, where its channel has credits, or out of the mesh; every
other packet stands as it stood, and the port remembers which input port it granted last. While no bulk window is open, no VC3 header is
granted (R68). How much of a packet a buffer holds, and what enters from a ring block, are the model's choice (log entry 124). R66: the age
of a header that waits in the mesh counts up and stops at its largest value; that of one still outside stays. R79, R84, R147: the first
packet of its channel at its local port reaches the core of its herd: a MOV.P's word is written or read in the core's store and answered,
and every other packet but a MOV.P's answer waits for the TLY_ unit. In sink mode, or for another herd, a packet that does not come from the
ring controller is discarded, and the answer that it expects goes back marked fenced; of another herd's packet the router page raises
SECURITY. -/
def Obligations.RoutersForward : Prop :=
  ((∀ s, Ready s → ∀ (i p : Nat) (q : Packet), s.packets[i]? = some q → competes q = true → rtrLive s q.at_ = true →
    wantsPort s q = p → granted s i q p = true →
    (p = 4 → Does (.routerForward i) s [.ctl, .lastGrant, .packets] fun t => hasCredit s q.at_ 5 q = true ∧
      t.packets = s.packets.eraseIdx i ++ [{ q with inPort := 5 }] ∧ mGet t.lastGrant (5 * q.at_ + p) = some q.inPort) ∧
    (p ≠ 4 → ∀ r, neighbour q.at_ p = some r →
      Does (.routerForward i) s [.ctl, .lastGrant, .packets] fun t => rtrLive s r = true ∧ hasCredit s r (opposite p) q = true ∧
        t.packets = s.packets.eraseIdx i ++ [{ q with at_ := r, inPort := opposite p }] ∧
        mGet t.lastGrant (5 * q.at_ + p) = some q.inPort) ∧
    (p ≠ 4 → neighbour q.at_ p = none →
      Does (.routerForward i) s [.ctl, .lastGrant, .packets] fun t => t.packets = s.packets.eraseIdx i)) ∧
  (∀ s, Ready s → ∀ (i : Nat) (q : Packet), s.packets[i]? = some q → outside q = true → mayEnter s i q = true →
    exec (.routerForward i) s = .next { s with packets := s.packets.eraseIdx i ++ [{ q with inPort := q.inPort - 8 }] }) ∧
  (∀ s, Ready s → ∀ (i : Nat) (q : Packet), s.packets[i]? = some q → competes q = true → q.vc = 3 → s.bulkOpen = [] →
    exec (.routerForward i) s = .next s)) ∧
  ((∀ s, Ready s → ∀ (i : Nat) (q : Packet), s.packets[i]? = some q → competes q = true →
    exec (.ageIncrement i) s = .next { s with packets := s.packets.set i { q with age := min (q.age + 1) 0xFFF } }) ∧
  (∀ s, Ready s → ∀ (i : Nat) (q : Packet), s.packets[i]? = some q → outside q = true → exec (.ageIncrement i) s = .next s)) ∧
  (∀ s, Ready s → ∀ (i : Nat) (q : Packet), s.packets[i]? = some q → q.inPort = 5 → headsBuffer s i q = true →
    (sinkMode s q.at_ = false → q.src = (attachOf .ringCtl).1 ∨ herdAt s q.at_ = some q.herd →
      ((∀ ch w d f, q.payload ≠ .movReq ch w d f) → (∀ ch a, q.payload ≠ .movResp ch a) →
        Does (.localPortArrive i) s [.packets, .core] fun t => t.packets = s.packets.eraseIdx i ∧
          (coreX t q.at_).inbox = (coreX s q.at_).inbox ++ [q.payload] ∧
          (coreX t q.at_).inboxFrom = (coreX s q.at_).inboxFrom ++ [q.src] ∧ ∀ c, c ≠ q.at_ → coreX t c = coreX s c) ∧
      (∀ ch a, q.payload = .movResp ch a → ch ∈ (coreX s q.at_).movSent →
        Does (.localPortArrive i) s [.packets, .core] fun t => t.packets = s.packets.eraseIdx i ∧
          CoreIs s t q.at_ { coreX s q.at_ with movAnswers := (coreX s q.at_).movAnswers ++ [(ch, a)] }) ∧
      (∀ ch w d f, q.payload = .movReq ch w (some d) f →
        Does (.localPortArrive i) s [.ctl, .store, .storeBad, .packets] fun t =>
          t.packets = s.packets.eraseIdx i ++ [⟨q.at_, q.src, 4, 2, 0, q.herd, 0, q.at_, 12, .movResp ch .written⟩] ∧
          ∀ c n, stGet t c n = if 49152 * c + n = 49152 * q.at_ + w then d else stGet s c n) ∧
      (∀ ch w found, q.payload = .movReq ch w none found →
        Does (.localPortArrive i) s [.ctl, .storeBad, .packets, .dumpRun, .freeCtr] fun t => t.packets = s.packets.eraseIdx i ++
          [if stVerdict s q.at_ w found = .bad then ⟨q.at_, q.src, 4, 2, 0, q.herd, 0, q.at_, 12, .movResp ch .bad⟩
            else ⟨q.at_, q.src, 4, 2, 0, q.herd, 1, q.at_, 12, .movResp ch (.word (stGet s q.at_ w))⟩])) ∧
    (sinkMode s q.at_ = true → Does (.localPortArrive i) s [.ctl, .packets] fun t =>
      t.packets = s.packets.eraseIdx i ++ (fencedPacket q).toList) ∧
    (sinkMode s q.at_ = false → q.src ≠ (attachOf .ringCtl).1 → herdAt s q.at_ ≠ some q.herd →
      Does (.localPortArrive i) s [.ctl, .packets, .dumpRun, .freeCtr] fun t =>
        t.packets = s.packets.eraseIdx i ++ (fencedPacket q).toList ∧ bit (rd t (fabPage q.at_ + 0x20)) 6 = true))

/-- R70, R92: bulk window n opens while its enable is 1 and the cycle lies in its interval, by the values in force, and holds the end of that
interval; it closes when the bead's cycle has come to the end that it had when it opened, and the other windows stay as they are. That a
write of a FAB_BULK_ register is seen before it is in force is the model's reading (log entry 118). A write of FAB_MESH_CTRL stores quiesce,
and clearing it ends quiesced. Once quiesce is 1 and every router buffer is empty, the mesh reports quiesced and nothing else happens while
the detour tables serve the dead routers there are (R77). Where they do not, every router that has faulted is fenced and withdrawn, the
tables are written for the dead routers or, where the placement limits are broken, unroutable is set (R76, R80, R81), and injection resumes
(that it resumes then is the model's choice, log entry 25). R80, steps 1 to 5: a router fault sets faulty, raises UNCORR_FATAL in the router
page, drops the packets that the router holds and no other, fails every resident herd, and quiesces the mesh. R91: the distance table's
generation counts up at the start of a rewrite, when it is even, and at its end, when it is odd; at the end the table stands for the sites
withdrawn and the detour tables of that moment (the records in between: log entry 127). -/
def Obligations.MeshUpkeep : Prop :=
  ((∀ s, Ready s → ∀ n : Fin 4, bit (bulkForce s (fabGPage + 0x108)) n.val = true → bulkStart s n.val ≤ beadCyc s →
    beadCyc s < bulkStart s n.val + bulkLen s n.val → (∀ w ∈ s.bulkOpen, w.1 ≠ n.val) →
    exec (.bulkWindowOpen n) s = .next { s with bulkOpen := s.bulkOpen ++ [(n.val, bulkStart s n.val + bulkLen s n.val)] }) ∧
  (∀ s, Ready s → ∀ (n : Fin 4) (e : Nat), (n.val, e) ∈ s.bulkOpen → e ≤ beadCyc s →
    Does (.bulkWindowClose n) s [.bulkOpen] fun t => (n.val, e) ∉ t.bulkOpen ∧ ∀ w ∈ s.bulkOpen, w.1 ≠ n.val → w ∈ t.bulkOpen)) ∧
  ((∀ s, Ready s → ∀ v : Word, Takes s 16 → Does (.meshQuiesce .ringCtl v) s [.ctl] fun t =>
    rd t (fabGPage + 0x100) = v &&& 1 ∧
      rd t (fabGPage + 0x104) = (if bit v 0 then rd s (fabGPage + 0x104) else setBit (rd s (fabGPage + 0x104)) 0 false) ∧
      ∀ a, a ≠ fabGPage + 0x100 → a ≠ fabGPage + 0x104 → rd t a = rd s a) ∧
  (∀ s, Ready s → bit (rd s (fabGPage + 0x100)) 0 = true → (∀ q ∈ s.packets, outside q = true) → detoursOld s = false →
    Does .meshQuiesced s [.ctl] fun t => bit (rd t (fabGPage + 0x104)) 0 = true ∧ ∀ a, a ≠ fabGPage + 0x104 → rd t a = rd s a) ∧
  (∀ s, Ready s → bit (rd s (fabGPage + 0x100)) 0 = true → (∀ q ∈ s.packets, outside q = true) → detoursOld s = true →
    Does .meshQuiesced s [.ctl, .withdrawn, .mesh] fun t =>
      (∀ c ∈ faultyRouters s, c ∈ t.withdrawn ∧ fenced t (fabPage c) = true) ∧ t.mesh.routed = deadRouters t ∧
      (placementOk (deadRouters t) = true → ∀ c < 1024, ∀ n < 32, rd t (fabPage c + 0x200 + 4 * n) = detourTables (deadRouters t) c n) ∧
      (placementOk (deadRouters t) = false → bit (rd t (fabGPage + 0x104)) 1 = true) ∧
      rd t (fabGPage + 0x100) = 0 ∧ bit (rd t (fabGPage + 0x104)) 0 = false)) ∧
  (∀ s, Ready s → ∀ c : Site, rtrEn s c.val = true →
    Does (.routerFault c) s [.ctl, .core, .packets, .herd, .bx, .hcmd, .htag, .notices, .dumpRun, .freeCtr, .out] fun t =>
      bit (rd t (fabPage c.val + 0x14)) 16 = true ∧ bit (rd t (fabPage c.val + 0x20)) 2 = true ∧
      t.packets = s.packets.filter (fun q => decide (q.at_ ≠ c.val)) ∧
      (∀ h x, herdOf s h = some x → ∃ y, herdOf t h = some y ∧ y.failed = true) ∧ rd t (fabGPage + 0x100) = 1) ∧
  ((∀ s, Ready s → bit (rd s (fabGPage + 0x140)) 0 = false →
    exec (.distTableRewrite false) s = .next ((Upd.ctl (fabGPage + 0x140) (rd s (fabGPage + 0x140) + 1)).apply s)) ∧
  (∀ s, Ready s → bit (rd s (fabGPage + 0x140)) 0 = true →
    Does (.distTableRewrite true) s [.ctl, .mesh] fun t => rd t (fabGPage + 0x140) = rd s (fabGPage + 0x140) + 1 ∧
      (∀ a, a ≠ fabGPage + 0x140 → rd t a = rd s a) ∧ t.mesh.distAway = s.withdrawn ∧ t.mesh.distDetours = detourList t))

/-- R77: a write of a FAB_DETOUR register is stored while the mesh is quiesced; otherwise it is discarded, no register of the page changes, and
PROTOCOL is raised in the global FAB_ page. -/
def Obligations.DetoursQuiesced : Prop :=
  (∀ s, Ready s → ∀ (c : Site) (n : Fin 32) (v : Word), Takes s (fabPage c.val / 4096) → bit (rd s (fabGPage + 0x104)) 0 = true →
    Does (.fabDetourWrite .ringCtl c n v) s [.ctl] fun t => rd t (fabPage c.val + 0x200 + 4 * n.val) = v &&& 0xFFFFFFF8 ∧
      ∀ a, a ≠ fabPage c.val + 0x200 + 4 * n.val → rd t a = rd s a) ∧
  (∀ s, Ready s → ∀ (c : Site) (n : Fin 32) (v : Word), Takes s (fabPage c.val / 4096) → bit (rd s (fabGPage + 0x104)) 0 = false →
    Does (.fabDetourWrite .ringCtl c n v) s [.ctl, .dumpRun, .freeCtr] fun t =>
      (∀ a, a / 4096 = fabPage c.val / 4096 → rd t a = rd s a) ∧ bit (rd t (fabGPage + 0x20)) 3 = true)

/-- R59, R82, R83, R87: fencing a core goes on page by page in the order of R82, each once the one before reports fenced, and its first step
fails the core's herd; a page that does not report puts the local port in sink mode, raises UNCORR_FATAL in the CORE_ page and withdraws the
core; a hard fault withdraws the core and starts the sequence. The capture of the timeout and the place of FENCED and sink mode are the
model's (log entries 26, 46). -/
def Obligations.CoreFencing : Prop :=
  (∀ s, Ready s → ∀ (c : Site) (k : Nat), coreEn s c.val = true → (coreX s c.val).fenceStep = k → k < 7 →
    k = 0 ∨ isFenced s ((fenceOrder c.val).getD (k - 1) 0) = true →
    Does (.coreFence c) s [.ctl, .core, .herd, .bx, .hcmd, .htag, .notices, .out] fun t => (coreX t c.val).fenceStep = k + 1 ∧
      fenced t ((fenceOrder c.val).getD k 0) = true ∧
      (k = 0 → ∀ h x, herdAt s c.val = some h → herdOf s h = some x → ∃ y, herdOf t h = some y ∧ y.failed = true)) ∧
  (∀ s, Ready s → ∀ (c : Site) (k : Nat), (coreX s c.val).fenceStep = k + 1 → isFenced s ((fenceOrder c.val).getD k 0) = false →
    Does (.fenceTimeout c) s [.ctl, .dumpRun, .freeCtr, .withdrawn] fun t => sinkMode t c.val = true ∧ c.val ∈ t.withdrawn ∧
      bit (rd t (corePage c.val + 0x20)) 2 = true) ∧
  (∀ s, Ready s → ∀ c : Site, coreEn s c.val = true →
    Does (.coreHardFault c) s [.ctl, .core, .herd, .withdrawn, .bx, .hcmd, .htag, .notices, .out] fun t => c.val ∈ t.withdrawn ∧
      ((coreX s c.val).fenceStep = 0 → (coreX t c.val).fenceStep = 1))

/-! ## The sequencer (chapters 4 and 5) -/

/-- R103, R110, R111, R118, R119, R121, R135: a row that issues adds its instructions to those in flight and SEQ_PC goes on: NEXT and HALT to
the next row, LOOP to the next row with its counter loaded, ENDL back to its loop's start while passes remain, ALT to its target where its
condition holds. NOP changes nothing. R125, R126, R136, R142: a core whose instructions have retired reaches its BEAD row; it halts there if
a stop was asked for, pauses if a pause was, waits for the boundary (state BEADWAIT) where that has not come, and otherwise the row issues
and its slot counts. What a late hidx 0 core opens is the model's reading (log entry 62), and the row read here begins no step. -/
def Obligations.RowsIssue : Prop :=
  ((∀ s, Ready s → ∀ c : Site, exec (.nop c) s = .next s) ∧
  (∀ s, Ready s → ∀ (c : Site) (f : Cell), rowVerdict s c.val f ≠ .bad → RowReady s c.val 0 false →
    Does (.next c f) s [.ctl, .core, .dumpRun, .freeCtr] fun t => RowIssued s t c.val (rowAfter (pcOf s c.val))) ∧
  (∀ s, Ready s → ∀ (c : Site) (f : Cell), rowVerdict s c.val f ≠ .bad → RowReady s c.val 1 false →
    Does (.loop c f) s [.ctl, .core, .dumpRun, .freeCtr] fun t => RowIssued s t c.val (rowAfter (pcOf s c.val)) ∧
      lcRemain t c.val (fld (pcPart s c.val 0) 27 25) = fld (pcPart s c.val 0) 24 9 ∧ lcIndex t c.val (fld (pcPart s c.val 0) 27 25) = 0) ∧
  (∀ s, Ready s → ∀ (c : Site) (f : Cell), rowVerdict s c.val f ≠ .bad → RowReady s c.val 2 false → 1 < lcRemain s c.val (fld (pcPart s c.val 0) 27 25) →
    Does (.endl c f) s [.ctl, .core, .dumpRun, .freeCtr] fun t => RowIssued s t c.val (fld (pcPart s c.val 0) 24 14) ∧
      lcRemain t c.val (fld (pcPart s c.val 0) 27 25) = lcRemain s c.val (fld (pcPart s c.val 0) 27 25) - 1 ∧
      lcIndex t c.val (fld (pcPart s c.val 0) 27 25) = (lcIndex s c.val (fld (pcPart s c.val 0) 27 25) + 1) % 65536) ∧
  (∀ s, Ready s → ∀ (c : Site) (f : Cell), rowVerdict s c.val f ≠ .bad → RowReady s c.val 2 false → lcRemain s c.val (fld (pcPart s c.val 0) 27 25) ≤ 1 →
    Does (.endl c f) s [.ctl, .core, .dumpRun, .freeCtr] fun t => RowIssued s t c.val (rowAfter (pcOf s c.val)) ∧
      lcRemain t c.val (fld (pcPart s c.val 0) 27 25) = 0 ∧ lcIndex t c.val (fld (pcPart s c.val 0) 27 25) = 0) ∧
  (∀ s, Ready s → ∀ (c : Site) (f : Cell), rowVerdict s c.val f ≠ .bad → RowReady s c.val 4 (altTaken s c.val (pcPart s c.val 0)) →
    Does (.alt c f) s [.ctl, .core, .dumpRun, .freeCtr] fun t => RowIssued s t c.val
      (if altTaken s c.val (pcPart s c.val 0) then fld (pcPart s c.val 0) 17 7 else rowAfter (pcOf s c.val))) ∧
  (∀ s, Ready s → ∀ (c : Site) (f : Cell), rowVerdict s c.val f ≠ .bad → RowReady s c.val 5 false →
    Does (.halt c f) s [.ctl, .core, .dumpRun, .freeCtr] fun t => RowIssued s t c.val (rowAfter (pcOf s c.val)) ∧
      (coreX t c.val).halting = some (fld (pcPart s c.val 0) 27 20))) ∧
  (∀ s, Ready s → ∀ (c : Site) (f : Cell), rowVerdict s c.val f ≠ .bad → canIssue s c.val = true → sopAt s c.val = 3 →
    drained s c.val = true →
    ((coreX s c.val).stopPend = true → Does (.bead c f) s [.core] fun t => (coreX t c.val).halting = some 0xFF) ∧
    ((coreX s c.val).stopPend = false → (coreX s c.val).pausePend = true → Does (.bead c f) s [.ctl, .core] fun t =>
      coreState t c.val = 6 ∧ bit (rd t (seqPage c.val + 0x20)) 10 = true) ∧
    ((coreX s c.val).stopPend = false → (coreX s c.val).pausePend = false → (coreX s c.val).bounds ≤ slotsOf s c.val →
      Does (.bead c f) s [.ctl] fun t => coreState t c.val = 5 ∧ ∀ a, a ≠ seqPage c.val + 0x104 → rd t a = rd s a) ∧
    ((coreX s c.val).stopPend = false → (coreX s c.val).pausePend = false → slotsOf s c.val < (coreX s c.val).bounds →
      RowReady s c.val 3 false → bit (pcPart s c.val 0) 27 = false → Does (.bead c f) s [.ctl, .core, .dumpRun, .freeCtr] fun t =>
        RowIssued s t c.val (rowAfter (pcOf s c.val)) ∧ coreState t c.val = 3 ∧
        slotsOf t c.val = (slotsOf s c.val + 1) % 2 ^ 32))

/-- R135, R139: once everything in flight has retired a halting core enters HALTED with its code, and a faulted one FAULTED; the event latches.
A stop of a core that stands paused at its BEAD row is the model's reading (log entry 21). R133, R136, R143, R144: arming sets SEQ_CTRL.arm
and enters ARMED; a resume of a resumable fault enters ARMED to run the faulting instruction again; a stop halts a core that stands at its
BEAD row and is kept by one that runs. -/
def Obligations.SequencerControl : Prop :=
  ((∀ s, Ready s → ∀ (c : Site) (k : Nat), (coreX s c.val).halting = some k → (coreX s c.val).issued = [] → (coreX s c.val).pipe = [] →
    (coreX s c.val).faulting = false → coreState s c.val ≠ 9 → NotParking s c.val →
    Does (.coreHalted c) s [.ctl, .core] fun t => coreState t c.val = 7 ∧ fld (rd t (seqPage c.val + 0x104)) 23 16 = k % 256 ∧
      bit (rd t (seqPage c.val + 0x20)) 8 = true ∧ (coreX t c.val).halting = none) ∧
  (∀ s, Ready s → ∀ c : Site, (coreX s c.val).faulting = true → (∀ i ∈ (coreX s c.val).issued, i.faulted = true) →
    (coreX s c.val).pipe = [] → coreState s c.val ≠ 8 → coreState s c.val ≠ 9 → NotParking s c.val →
    Does (.coreFaulted c) s [.ctl, .core] fun t => coreState t c.val = 8 ∧ bit (rd t (seqPage c.val + 0x20)) 9 = true ∧
      (coreX t c.val).issued = (coreX s c.val).issued)) ∧
  ((∀ s, Ready s → ∀ c : Site, Takes s (seqPage c.val / 4096) → [1, 6, 7, 8].contains (coreState s c.val) = true →
    beadPassed s c.val = false →
    Does (.seqArm .ringCtl c) s [.ctl, .core] fun t => coreState t c.val = 2 ∧ bit (rd t (seqPage c.val + 0x100)) 0 = true ∧
      (coreX t c.val).armKind = (if coreState s c.val = 6 then 1 else 0)) ∧
  (∀ s, Ready s → ∀ c : Site, Takes s (seqPage c.val / 4096) → coreState s c.val = 8 → bit (rd s (seqPage c.val + 0x180)) 30 = true →
    beadPassed s c.val = false →
    Does (.seqResume .ringCtl c) s [.ctl, .core] fun t => coreState t c.val = 2 ∧ (coreX t c.val).armKind = 2 ∧
      (coreX t c.val).issued = (coreX s c.val).issued) ∧
  (∀ s, Ready s → ∀ c : Site, Takes s (seqPage c.val / 4096) → coreState s c.val = 5 ∨ coreState s c.val = 6 →
    Does (.seqStop .ringCtl c) s [.core] fun t => (coreX t c.val).halting = some 0xFF) ∧
  (∀ s, Ready s → ∀ c : Site, Takes s (seqPage c.val / 4096) → [2, 3, 4].contains (coreState s c.val) = true →
    Does (.seqStop .ringCtl c) s [.core] fun t => (coreX t c.val).stopPend = true))

/-- R131, R134: in the states that take them, a write of a rod table word replaces that word of its row, a rod load starts and shows busy, and
at its end every row read is in the table, busy is clear and the event latches. R96, R97, R99: RC_INVAL empties the row cache; a scrub step
moves on to the next word of each bank. -/
def Obligations.RodTableAndStores : Prop :=
  ((∀ s, Ready s → ∀ (c : Site) (w : Fin 8192) (v : Word), coreEn s c.val = true → r131 s c.val = true →
    Does (.rodRowWrite .ringCtl c w v) s [.rod, .rodBad] fun t =>
      rodGet t c.val (w.val / 4) = putElem 32 (rodGet s c.val (w.val / 4)) (w.val % 4) v.toNat ∧
      ∀ k, k ≠ 2048 * c.val + w.val / 4 → mGetD t.rod k 0 = mGetD s.rod k 0) ∧
  (∀ s, Ready s → ∀ (c : Site) (v : Word), Takes s (seqPage c.val / 4096) → r131 s c.val = true → bit v 31 = true →
    fld v 10 0 + fld v 26 16 ≤ 2047 →
    Does (.rloadGo .ringCtl c v) s [.ctl] fun t => bit (rd t (seqPage c.val + 0x1A8)) 30 = true ∧
      fld (rd t (seqPage c.val + 0x1A8)) 10 0 = fld v 10 0 ∧ fld (rd t (seqPage c.val + 0x1A8)) 26 16 = fld v 26 16 ∧
      ∀ a, a ≠ seqPage c.val + 0x1A8 → rd t a = rd s a) ∧
  (∀ s, Ready s → ∀ (c : Site) (a n : Nat), bit (rd s (seqPage c.val + 0x1A8)) 30 = true →
    a = (rd64 s (seqPage c.val + 0x1A0)).toNat → n = fld (rd s (seqPage c.val + 0x1A8)) 26 16 + 1 →
    (pageParts a (16 * n)).all (fun p => decide (judge s (herdNo s c.val) p.1 false ≠ .waits)) = true →
    Does (.rloadDone c) s [.ctl, .rod, .rodBad, .mem, .chk, .mergeBuf, .touched, .dumpRun, .freeCtr, .out] fun t =>
      bit (rd t (seqPage c.val + 0x1A8)) 30 = false ∧ bit (rd t (seqPage c.val + 0x20)) 11 = true ∧
      ∀ p ∈ rloadRows s c.val a n (fld (rd s (seqPage c.val + 0x1A8)) 10 0), rodGet t c.val p.1 = BitVec.ofNat 128 (leNat p.2))) ∧
  ((∀ s, Ready s → ∀ (c : Site) (v : Word), Takes s (corePage c.val / 4096) → bit v 0 = true →
    Does (.rcInval .ringCtl c v) s [.ctl, .core] fun t => (coreX t c.val).rowCache = [] ∧
      bit (rd t (corePage c.val + 0x10C)) 1 = bit v 1 ∧ ∀ a, a ≠ corePage c.val + 0x10C → rd t a = rd s a) ∧
  (∀ s, Ready s → ∀ (c : Site) (found : List Cell), coreAvail s c.val = true → bit (rd s (corePage c.val + 0x108)) 0 = true →
    Does (.coreScrub c found) s [.ctl, .storeBad, .core, .dumpRun, .freeCtr] fun t =>
      (coreX t c.val).scrubPos = ((coreX s c.val).scrubPos + 1) % 4096 ∧ (coreX t c.val).issued = (coreX s c.val).issued))

/-! ## Waits and tallies (chapter 14) -/

/-- R123, R421, R427: a wait row that becomes next puts the core in WAIT with what it waits for in TLY_WAIT and the count of waited cycles at 0;
once its condition has held the row issues. R421, R423, R427: a registration joins the waits of its flag; a release, or a counter that
reaches the value waited for, ends the wait and the core runs. R124, R425: a wait whose limit has elapsed continues at its timeout row, a
wait on another core's flag by asking its home first; the home takes the wait off its list and answers whether it had released it; the
answer decides, but for one to a cancellation that the release itself had crossed, which changes nothing. -/
def Obligations.WaitsRegisterAndEnd : Prop :=
  (∀ s, Ready s → ∀ (c : Site) (f : Cell), rowVerdict s c.val f ≠ .bad → canIssue s c.val = true →
    ((coreX s c.val).released = false → sopAt s c.val = 6 → Does (.twait c f) s [.ctl, .core, .packets] fun t =>
      coreState t c.val = 4 ∧ waitPending t c.val = true ∧ waitKind t c.val = 0 ∧
        waitObj t c.val = fld (pcPart s c.val 0) 27 20 ∧ rd t (tlyPage c.val + 0x248) = 0) ∧
    ((coreX s c.val).released = false → sopAt s c.val = 7 → Does (.twaitc c f) s [.ctl, .core, .packets] fun t =>
      coreState t c.val = 4 ∧ waitPending t c.val = true ∧ waitKind t c.val = 1 ∧
        waitObj t c.val = fld (pcPart s c.val 0) 27 20 ∧ rd t (tlyPage c.val + 0x248) = 0) ∧
    ((coreX s c.val).released = false → sopAt s c.val = 8 → Does (.cwait c f) s [.ctl, .core, .packets] fun t =>
      coreState t c.val = 4 ∧ waitPending t c.val = true ∧ waitKind t c.val = 2 ∧
        waitObj t c.val = fld (pcPart s c.val 0) 27 23 ∧ fld (rd t (waitReg c.val)) 23 8 = fld (pcPart s c.val 0) 22 7 ∧
        rd t (tlyPage c.val + 0x248) = 0) ∧
    ((coreX s c.val).released = true →
      (RowReady s c.val 6 false → Does (.twait c f) s [.ctl, .core, .dumpRun, .freeCtr] fun t =>
        RowIssued s t c.val (rowAfter (pcOf s c.val)) ∧ (coreX t c.val).released = false) ∧
      (RowReady s c.val 7 false → Does (.twaitc c f) s [.ctl, .core, .dumpRun, .freeCtr] fun t =>
        RowIssued s t c.val (rowAfter (pcOf s c.val)) ∧ (coreX t c.val).released = false) ∧
      (RowReady s c.val 8 false → Does (.cwait c f) s [.ctl, .core, .dumpRun, .freeCtr] fun t =>
        RowIssued s t c.val (rowAfter (pcOf s c.val)) ∧ (coreX t c.val).released = false))) ∧
  ((∀ s, Ready s → ∀ (c : Site) (f i : Nat) (clear : Bool) (rest : List Payload), (coreX s c.val).inbox = .register f i clear :: rest →
    f < 256 → flagHeld s c.val f = false →
    Does (.waitRegister c) s [.ctl, .core] fun t => (coreX t c.val).waiters = (coreX s c.val).waiters ++ [⟨f, i, clear⟩] ∧
      (coreX t c.val).inbox = rest) ∧
  (∀ s, Ready s → ∀ (c : Site) (rest : List Payload), (coreX s c.val).inbox = .release :: rest → waitPending s c.val = true →
    Does (.waitRelease c) s [.ctl, .core] fun t => coreState t c.val = 3 ∧ waitPending t c.val = false ∧
      (coreX t c.val).released = true ∧ (coreX t c.val).inbox = rest) ∧
  (∀ s, Ready s → ∀ c : Site, (coreX s c.val).inbox = [] → waitPending s c.val = true → waitKind s c.val = 2 →
    cntValue s c.val (waitObj s c.val % 32) = fld (rd s (waitReg c.val)) 23 8 →
    Does (.waitRelease c) s [.ctl, .core] fun t => coreState t c.val = 3 ∧ waitPending t c.val = false ∧
      (coreX t c.val).released = true)) ∧
  ((∀ s, Ready s → ∀ c : Site, waitPending s c.val = true → waitKind s c.val < 2 → (coreX s c.val).released = false →
    (coreX s c.val).cancelling = false → fld (ctlWordAt s c.val) 19 11 ≠ 0 →
    1024 * fld (ctlWordAt s c.val) 19 11 ≤ (rd s (tlyPage c.val + 0x248)).toNat →
    (waitsAway s c.val = false → Does (.waitTimeout c) s [.ctl, .core] fun t => coreState t c.val = 3 ∧ waitPending t c.val = false ∧
      pcOf t c.val = fld (ctlWordAt s c.val) 10 0 ∧ (coreX t c.val).issued = (coreX s c.val).issued) ∧
    (waitsAway s c.val = true → Does (.waitTimeout c) s [.core, .packets] fun t => (coreX t c.val).cancelling = true ∧
      t.packets = s.packets ++ [⟨c.val, homeOf s c.val, 4, 0, 0, herdNo s c.val, 0, c.val, 12,
        .cancel (waitObj s c.val) (hidxOf s c.val) (decide (waitKind s c.val = 1)) false⟩])) ∧
  (∀ s, Ready s → ∀ (c : Site) (f i src : Nat) (clear : Bool) (rest : List Payload) (from_ : List Nat),
    (coreX s c.val).inbox = .cancel f i clear false :: rest → (coreX s c.val).inboxFrom = src :: from_ →
    Does (.waitCancel c) s [.ctl, .core, .packets] fun t =>
      (coreX t c.val).waiters = (coreX s c.val).waiters.filter (fun w => !(decide (w.flag = f) && decide (w.hidx = i))) ∧
      t.packets = s.packets ++ [⟨c.val, src, 4, 0, 0, herdNo s c.val, 0, c.val, 12,
        .cancelAnswer f clear (!(coreX s c.val).waiters.any (fun w => decide (w.flag = f) && decide (w.hidx = i)))⟩]) ∧
  (∀ s, Ready s → ∀ (c : Site) (f : Nat) (clear released : Bool) (rest : List Payload),
    (coreX s c.val).inbox = .cancelAnswer f clear released :: rest →
    (coreX s c.val).crossed = 0 → (coreX s c.val).cancelling = true → waitPending s c.val = true →
    Does (.waitCancelAnswer c) s [.ctl, .core] fun t => coreState t c.val = 3 ∧ waitPending t c.val = false ∧
      (coreX t c.val).inbox = rest ∧ (coreX t c.val).cancelling = false ∧ (released = true → (coreX t c.val).released = true) ∧
      (released = false → pcOf t c.val = fld (ctlWordAt s c.val) 10 0)) ∧
  (∀ s, Ready s → ∀ (c : Site) (f : Nat) (clear released : Bool) (rest : List Payload),
    (coreX s c.val).inbox = .cancelAnswer f clear released :: rest → 0 < (coreX s c.val).crossed →
    Does (.waitCancelAnswer c) s [.core] fun t => (coreX t c.val).inbox = rest ∧
      (coreX t c.val).crossed = (coreX s c.val).crossed - 1 ∧ (coreX t c.val).cancelling = (coreX s c.val).cancelling))

/-- R106, R422, R426, R428: a tally command that nothing holds takes effect in the core's own unit and retires: TSET sets its unshared flag
where no wait is registered at it, TCLR clears it, CINC adds its delta to the counter; one that acts in another core's unit leaves as a
packet for that core. R420, R424, R428, R429: a TSET's packet takes effect where it arrives and is acknowledged; a fenced unit gives it no
effect and answers so; the acknowledgement retires its command; a mirror update changes the mirror; the flag registers set and clear the
flags that their ones name. -/
def Obligations.Tallies : Prop :=
  ((∀ s, Ready s → ∀ (c : Site) (i : Issued), nextToStart s c.val 3 0x08 = some i → tallyHeld s c.val i = false →
    bit i.word 26 = false → fld i.word 15 8 < 224 → waitersOn s c.val (fld i.word 15 8) = [] →
    Does (.tset c) s [.ctl, .core] fun t => flagHeld t c.val (fld i.word 15 8) = true ∧
      (coreX t c.val).issued = (coreX s c.val).issued.filter (fun k => decide (k.id ≠ i.id))) ∧
  (∀ s, Ready s → ∀ (c : Site) (i : Issued), nextToStart s c.val 3 0x09 = some i → tallyHeld s c.val i = false →
    bit i.word 26 = false → fld i.word 15 8 < 224 →
    Does (.tclr c) s [.ctl, .core] fun t => flagHeld t c.val (fld i.word 15 8) = false ∧
      (coreX t c.val).issued = (coreX s c.val).issued.filter (fun k => decide (k.id ≠ i.id))) ∧
  (∀ s, Ready s → ∀ (c : Site) (i : Issued), nextToStart s c.val 3 0x0A = some i → tallyHeld s c.val i = false →
    bit i.word 26 = false →
    Does (.cinc c) s [.ctl, .core] fun t =>
      cntValue t c.val (fld i.word 12 8) = (cntValue s c.val (fld i.word 12 8) + delta16 (BitVec.ofNat 8 (fld i.word 7 0))) % 65536 ∧
      (coreX t c.val).issued = (coreX s c.val).issued.filter (fun k => decide (k.id ≠ i.id))) ∧
  (∀ s, Ready s → ∀ (c : Site) (i : Issued), tallyHeld s c.val i = false → tallyLocal s c.val i = false →
    (nextToStart s c.val 3 0x08 = some i → Does (.tset c) s [.core, .packets] fun t => t.packets = s.packets ++ [tallyOut s c.val i 0 (fld i.word 15 8)] ∧
      (coreX t c.val).issued = swapInsn (coreX s c.val) i (begun i)) ∧
    (nextToStart s c.val 3 0x09 = some i → Does (.tclr c) s [.core, .packets] fun t => t.packets = s.packets ++ [tallyOut s c.val i 1 (fld i.word 15 8)] ∧
      (coreX t c.val).issued = swapInsn (coreX s c.val) i (begun i)) ∧
    (nextToStart s c.val 3 0x0A = some i → Does (.cinc c) s [.core, .packets] fun t => t.packets = s.packets ++ [tallyOut s c.val i 2 (fld i.word 12 8)] ∧
      (coreX t c.val).issued = swapInsn (coreX s c.val) i (begun i)))) ∧
  ((∀ s, Ready s → ∀ (c : Site) (f row src : Nat) (d step : Byte) (rest : List Payload) (from_ : List Nat),
    (coreX s c.val).inbox = .tally 0 f d step true row :: rest → (coreX s c.val).inboxFrom = src :: from_ →
    fenced s (tlyPage c.val) = false → f < 224 → waitersOn s c.val f = [] →
    Does (.tallyPacketArrive c) s [.ctl, .core, .packets] fun t => flagHeld t c.val f = true ∧ (coreX t c.val).inbox = rest ∧
      t.packets = s.packets ++ [⟨c.val, src, 4, 0, 0, herdNo s c.val, 0, c.val, 12, .tallyAck row false⟩]) ∧
  (∀ s, Ready s → ∀ (c : Site) (k : Fin 3) (f row src : Nat) (d step : Byte) (rest : List Payload) (from_ : List Nat),
    (coreX s c.val).inbox = .tally k f d step true row :: rest → (coreX s c.val).inboxFrom = src :: from_ →
    fenced s (tlyPage c.val) = true →
    Does (.tallyPacketArrive c) s [.core, .packets] fun t => (coreX t c.val).inbox = rest ∧
      t.packets = s.packets ++ [⟨c.val, src, 4, 0, 0, herdNo s c.val, 0, c.val, 12, .tallyAck row true⟩]) ∧
  (∀ s, Ready s → ∀ (c : Site) (i : Issued) (row : Nat) (fenced_ : Bool) (rest : List Payload),
    (coreX s c.val).inbox = .tallyAck row fenced_ :: rest →
    (coreX s c.val).issued.find? (fun i => decide (i.part = 3) && i.started && decide (i.row = row) && decide (8 ≤ opOf 3 i.word)) = some i →
    Does (.tallyAck c) s [.ctl, .core] fun t => (coreX t c.val).inbox = rest ∧
      (coreX t c.val).issued = (coreX s c.val).issued.filter (fun k => decide (k.id ≠ i.id))) ∧
  (∀ s, Ready s → ∀ (c : Site) (j : Nat) (v : Bool) (rest : List Payload), (coreX s c.val).inbox = .mirror j v :: rest →
    Does (.mirrorUpdate c) s [.core] fun t => (coreX t c.val).mirror = setBit (coreX s c.val).mirror j v ∧
      (coreX t c.val).inbox = rest) ∧
  (∀ s, Ready s → ∀ (c : Site) (k : Fin 8) (v : Word), Takes s (tlyPage c.val / 4096) → k.val < 7 → (coreX s c.val).waiters = [] →
    Does (.tlyFlagSet .ringCtl c k v) s [.ctl, .core] fun t =>
      ∀ j < 32, flagHeld t c.val (32 * k.val + j) = (flagHeld s c.val (32 * k.val + j) || bit v j)) ∧
  (∀ s, Ready s → ∀ (c : Site) (k : Fin 8) (v : Word), Takes s (tlyPage c.val / 4096) → k.val < 7 →
    Does (.tlyFlagClear .ringCtl c k v) s [.ctl, .core] fun t =>
      ∀ j < 32, flagHeld t c.val (32 * k.val + j) = (flagHeld s c.val (32 * k.val + j) && !bit v j)))

/-! ## The cube array and the tile unit (chapters 6 to 9) -/

/-- R193, R194, R298, R300: the oldest product that may start enters the array, where it steps, or waits behind the one that steps; a deferred
CMM.w begins without a place in the array, whatever product waits before it (R282), and a product without a trained element retires once no
product steps. R184, R188, R194, R195, R198: a step of the product in the array enters the pipeline with its exact sums; the last one
retires the product, and the one that waits takes its place. The queue's product steps only when no rod-table product does; its first step
waits for a condition of R286, and its last one retires its product. -/
def Obligations.Products : Prop :=
  ((∀ s, Ready s → ∀ (c : Site) (i : Issued), nextToStart s c.val 1 1 = some i → (coreX s c.val).cube = none →
    Does (.cmmF c) s [.core] fun t => CoreIs s t c.val { coreX s c.val with
      issued := swapInsn (coreX s c.val) i (begun i), cube := some ⟨begun i, 0, cmmSteps i⟩ }) ∧
  (∀ s, Ready s → ∀ (c : Site) (i : Issued), nextToStart s c.val 1 1 = some i → (coreX s c.val).cube ≠ none →
    (coreX s c.val).cubeWait = none → Does (.cmmF c) s [.core] fun t => CoreIs s t c.val { coreX s c.val with
      issued := swapInsn (coreX s c.val) i (begun i), cubeWait := some ⟨begun i, 0, cmmSteps i⟩ }) ∧
  (∀ s, Ready s → ∀ (c : Site) (i : Issued), nextToStart s c.val 1 2 = some i → (coreX s c.val).cube = none →
    Does (.cmmI c) s [.core] fun t => CoreIs s t c.val { coreX s c.val with
      issued := swapInsn (coreX s c.val) i (begun i), cube := some ⟨begun i, 0, cmmSteps i⟩ }) ∧
  (∀ s, Ready s → ∀ (c : Site) (i : Issued), nextToStart s c.val 1 2 = some i → (coreX s c.val).cube ≠ none →
    (coreX s c.val).cubeWait = none → Does (.cmmI c) s [.core] fun t => CoreIs s t c.val { coreX s c.val with
      issued := swapInsn (coreX s c.val) i (begun i), cubeWait := some ⟨begun i, 0, cmmSteps i⟩ }) ∧
  (∀ s, Ready s → ∀ (c : Site) (i : Issued), nextDeferred s c.val = some i → Does (.cmmW c) s [.core] fun t =>
    CoreIs s t c.val { coreX s c.val with issued := swapInsn (coreX s c.val) i (begun i) }) ∧
  (∀ s, Ready s → ∀ (c : Site) (i : Issued), nextDeferred s c.val = none → nextToStart s c.val 1 3 = some i →
    (untrained i = true → (cmmMask i.word = 0 ∨ i.trained ≠ none) →
      ((coreX s c.val).cube = none → Does (.cmmW c) s [.core] fun t =>
        CoreIs s t c.val { coreX s c.val with issued := dropInsn (coreX s c.val) i }) ∧
      ((coreX s c.val).cube ≠ none → exec (.cmmW c) s = .next s)) ∧
    (untrained i = false → (cmmMask i.word = 0 ∨ i.trained ≠ none) → (coreX s c.val).cube = none →
      Does (.cmmW c) s [.core] fun t => CoreIs s t c.val { coreX s c.val with
        issued := swapInsn (coreX s c.val) i (begun i), cube := some ⟨begun i, 0, cmmSteps i⟩ }) ∧
    (untrained i = false → (cmmMask i.word = 0 ∨ i.trained ≠ none) → (coreX s c.val).cube ≠ none →
      (coreX s c.val).cubeWait = none → Does (.cmmW c) s [.core] fun t => CoreIs s t c.val { coreX s c.val with
        issued := swapInsn (coreX s c.val) i (begun i), cubeWait := some ⟨begun i, 0, cmmSteps i⟩ }))) ∧
  ((∀ s, Ready s → ∀ (c : Site) (j : CubeJob), (coreX s c.val).cube = some j → j.step + 1 < j.steps →
    Does (.cmmStep c) s [.ctl, .core] fun t => RegsOnly [cubePage c.val] s t ∧ CoreIs s t c.val { coreX s c.val with
      pipe := (coreX s c.val).pipe ++ [⟨cmmBank j.insn.word, cmmZacc j.insn.word && decide (j.step = 0), stepSums s c.val j.insn j.step⟩],
      cube := some { j with step := j.step + 1 } }) ∧
  (∀ s, Ready s → ∀ (c : Site) (j : CubeJob), (coreX s c.val).cube = some j → j.steps ≤ j.step + 1 →
    Does (.cmmStep c) s [.ctl, .core] fun t => RegsOnly [cubePage c.val] s t ∧ CoreIs s t c.val { coreX s c.val with
      pipe := (coreX s c.val).pipe ++ [⟨cmmBank j.insn.word, cmmZacc j.insn.word && decide (j.step = 0), stepSums s c.val j.insn j.step⟩],
      cube := (coreX s c.val).cubeWait, cubeWait := none, issued := dropInsn (coreX s c.val) j.insn }) ∧
  (∀ s, Ready s → ∀ (c : Site) (j : CubeJob), (coreX s c.val).cube = none → (coreX s c.val).dwqCur = some j →
    0 < j.step ∨ dwqMay s c.val = true → j.step + 1 < j.steps → Does (.cmmStep c) s [.ctl, .core] fun t => RegsOnly [cubePage c.val] s t ∧ CoreIs s t c.val { coreX s c.val with
      pipe := (coreX s c.val).pipe ++ [⟨cmmBank j.insn.word, cmmZacc j.insn.word && decide (j.step = 0), stepSums s c.val j.insn j.step⟩],
      dwqCur := some { j with step := j.step + 1 } }) ∧
  (∀ s, Ready s → ∀ (c : Site) (j : CubeJob), (coreX s c.val).cube = none → (coreX s c.val).dwqCur = some j →
    0 < j.step ∨ dwqMay s c.val = true → j.steps ≤ j.step + 1 → Does (.cmmStep c) s [.ctl, .core] fun t =>
      RegsOnly [cubePage c.val] s t ∧ CoreIs s t c.val { coreX s c.val with
        pipe := (coreX s c.val).pipe ++ [⟨cmmBank j.insn.word, cmmZacc j.insn.word && decide (j.step = 0), stepSums s c.val j.insn j.step⟩],
        dwqCur := none, dwqHead := ((coreX s c.val).dwqHead + 1) % 64, dwqCarry := (coreX s c.val).dwqCarry && !(coreX s c.val).dwq.isEmpty,
        issued := dropInsn (coreX s c.val) j.insn }) ∧
  (∀ s, Ready s → ∀ (c : Site) (j : CubeJob), (coreX s c.val).cube = none → (coreX s c.val).dwqCur = some j → j.step = 0 →
    dwqMay s c.val = false → Does (.cmmStep c) s [.core] fun t => CoreIs s t c.val { coreX s c.val with
      dwqCur := none, dwq := j :: (coreX s c.val).dwq }))

/-- R188 to R191, R196: an accumulation takes the oldest step of the pipeline: each output element that the step reaches becomes its sum with
the addend, rounded once, where the addend is the element's value, or +0 in step 0 with zacc; with zacc every other element of the bank
becomes +0, without it keeps its value; the other banks keep theirs. R203, R282, R286, R290, R297: an armed injection that names no bit of
an element is refused with PROTOCOL, and any other write of its register is stored; an evaluated mask whose words can all be read gives its
product the trained map; a deferred product enters the queue, and in a fenced page retires instead; the queue's oldest entry starts when a
condition lets it and no rod-table product steps. The stop condition in HALTED and FAULTED is the model's reading (log entry 49). -/
def Obligations.AccumulatorsAndQueue : Prop :=
  (∀ s, Ready s → ∀ (c : Site) (st : CubeStep) (rest : List CubeStep), (coreX s c.val).pipe = st :: rest → st.bank < 4 →
    (st.sums.map (·.1)).Nodup → (∀ p ∈ st.sums, p.1 < 512) → (coreX s c.val).accFlip = [] → bit (rd s (cubePage c.val + 0x108)) 31 = false →
    Does (.cubeAccumulate c) s [.acc, .core] fun t => CoreIs s t c.val { coreX s c.val with pipe := rest } ∧
      (∀ k < 512, outGet t c.val st.bank k = match st.sums.find? (fun p => decide (p.1 = k)) with
        | some p => (p.2.add (if st.zacc then Val.fin false 0 0 else f32Val (outGet s c.val st.bank k))).round
        | none => if st.zacc then 0 else outGet s c.val st.bank k) ∧
      ∀ k < 512, ∀ b < 4, b ≠ st.bank → outGet t c.val b k = outGet s c.val b k) ∧
  ((∀ s, Ready s → ∀ (c : Site) (v : Word), Takes s (cubePage c.val / 4096) → bit v 31 = true →
    39 ≤ fld v 29 24 ∨ (bit v 30 = true ∧ 38 ≤ fld v 29 24) →
    Does (.cubeInj .ringCtl c v) s [.ctl, .dumpRun, .freeCtr] fun t => bit (rd t (cubePage c.val + 0x20)) 3 = true ∧
      rd t (cubePage c.val + 0x108) = rd s (cubePage c.val + 0x108)) ∧
  (∀ s, Ready s → ∀ (c : Site) (v : Word), Takes s (cubePage c.val / 4096) →
    bit v 31 = false ∨ (fld v 29 24 < 39 ∧ (bit v 30 = false ∨ fld v 29 24 < 38)) →
    Does (.cubeInj .ringCtl c v) s [.ctl] fun t => bit (rd t (cubePage c.val + 0x108)) 31 = bit v 31 ∧
      fld (rd t (cubePage c.val + 0x108)) 29 24 = fld v 29 24 ∧ fld (rd t (cubePage c.val + 0x108)) 10 0 = fld v 10 0 ∧
      bit (rd t (cubePage c.val + 0x108)) 30 = bit v 30 ∧ RegsAt [cubePage c.val + 0x108] s t) ∧
  (∀ s, Ready s → ∀ (c : Site) (i : Issued),
    (coreX s c.val).issued.find? (fun i => isCmm i && decide (cmmMask i.word ≠ 0) && i.trained.isNone && !i.faulted) = some i →
    ∀ found, NoneBad s c.val (maskWords s c.val i) found →
    Does (.maskEvaluate c found) s [.ctl, .core, .dumpRun, .freeCtr] fun t => RegsOnly [corePage c.val] s t ∧
      CoreIs s t c.val { coreX s c.val with
        issued := swapInsn (coreX s c.val) i { i with trained := some (trainedMap s c.val i) } }) ∧
  (∀ s, Ready s → ∀ (c : Site) (i : Issued), (coreX s c.val).issued.find? (fun i => isDeferred i && i.started && !i.faulted &&
      !((coreX s c.val).dwq.any (fun j => decide (j.insn.id = i.id)) || (coreX s c.val).dwqCur.any (fun j => decide (j.insn.id = i.id)))) =
        some i → fenced s (cubePage c.val) = false → (cmmMask i.word = 0 ∨ i.trained ≠ none) → i.trained ≠ some 0 →
    Does (.dwqEnqueue c) s [.core] fun t =>
      CoreIs s t c.val { coreX s c.val with dwq := (coreX s c.val).dwq ++ [⟨i, 0, cmmSteps i⟩] }) ∧
  (∀ s, Ready s → ∀ (c : Site) (i : Issued), (coreX s c.val).issued.find? (fun i => isDeferred i && (i.started ||
      fenced s (cubePage c.val)) && !i.faulted && !((coreX s c.val).dwq.any (fun j => decide (j.insn.id = i.id)) ||
      (coreX s c.val).dwqCur.any (fun j => decide (j.insn.id = i.id)))) = some i → fenced s (cubePage c.val) = true →
    Does (.dwqEnqueue c) s [.core] fun t => CoreIs s t c.val { coreX s c.val with issued := dropInsn (coreX s c.val) i }) ∧
  (∀ s, Ready s → ∀ (c : Site) (j : CubeJob) (js : List CubeJob), (coreX s c.val).dwqCur = none →
    (coreX s c.val).cube = none → (coreX s c.val).dwq = j :: js → dwqConds s c.val ≠ [] ∨ inFill s c.val = true → fenced s (cubePage c.val) = false →
    Does (.dwqStart c) s [.ctl, .core] fun t => CoreIs s t c.val { coreX s c.val with dwq := js, dwqCur := some j } ∧
      rd t (cubePage c.val + 0x114) = rd s (cubePage c.val + 0x114) ||| BitVec.ofNat 32 (ofBits (dwqConds s c.val)) ∧
      RegsAt [cubePage c.val + 0x114] s t))

/-- R156, R157, R149: a tile load that begins sets its registers to zero, and no other register; a tile store, a vector load and a vector store
begin. R164, R166: a write of a configuration register that an unretired instruction names becomes its pending value; without one it is
stored; the pending value is stored once no unretired instruction names the register. -/
def Obligations.LoadsAndConfiguration : Prop :=
  ((∀ s, Ready s → ∀ (c : Site) (i : Issued), nextToStart s c.val 1 8 = some i → tShapeOk i.tcA = true →
    Does (.tld c) s [.core, .vreg] fun t =>
      CoreIs s t c.val { coreX s c.val with issued := swapInsn (coreX s c.val) i (begun i) } ∧
      ∀ d r, r < 64 → vGet t d r = if d = c.val ∧ r ∈ tRegs i.tcA then 0 else vGet s d r) ∧
  (∀ s, Ready s → ∀ (c : Site) (i : Issued), nextToStart s c.val 1 9 = some i →
    Does (.tst c) s [.core] fun t => CoreIs s t c.val { coreX s c.val with issued := swapInsn (coreX s c.val) i (begun i) }) ∧
  (∀ s, Ready s → ∀ (c : Site) (i : Issued), nextToStart s c.val 2 1 = some i →
    Does (.vld c) s [.core] fun t => CoreIs s t c.val { coreX s c.val with issued := swapInsn (coreX s c.val) i (begun i) }) ∧
  (∀ s, Ready s → ∀ (c : Site) (i : Issued), nextToStart s c.val 2 2 = some i →
    Does (.vst c) s [.core] fun t => CoreIs s t c.val { coreX s c.val with issued := swapInsn (coreX s c.val) i (begun i) })) ∧
  ((∀ s, Ready s → ∀ (c : Site) (n : Fin 8) (lo hi : Word), Takes s (tilePage c.val / 4096) →
    [0, 1, 6, 7, 8].contains (coreState s c.val) = true → tcPending s c.val n.val = none → tcBusy s c.val n.val = false →
    Does (.tileTcWrite .ringCtl c n (some lo) (some hi)) s [.ctl] fun t => tcGet t c.val n.val = joinWords lo hi ∧
      RegsAt [tilePage c.val + 0x100 + 8 * n.val, tilePage c.val + 0x104 + 8 * n.val] s t) ∧
  (∀ s, Ready s → ∀ (c : Site) (n : Fin 8) (lo hi : Option Word), Takes s (tilePage c.val / 4096) →
    [0, 1, 6, 7, 8].contains (coreState s c.val) = true → tcBusy s c.val n.val = true →
    Does (.tileTcWrite .ringCtl c n lo hi) s [.ctl, .core] fun t => tcPending t c.val n.val =
        some (joinWords (lo.getD (loWord ((tcPending s c.val n.val).getD (tcGet s c.val n.val))))
          (hi.getD (hiWord ((tcPending s c.val n.val).getD (tcGet s c.val n.val))))) ∧
      bit (rd t (tilePage c.val + 0x140)) n.val = true ∧ RegsAt [tilePage c.val + 0x140] s t) ∧
  (∀ s, Ready s → ∀ (c : Site) (n : Fin 8) (v : DWord), tcPending s c.val n.val = some v → tcBusy s c.val n.val = false →
    Does (.tcPendingStore c n) s [.ctl, .core] fun t => tcGet t c.val n.val = v ∧ tcPending t c.val n.val = none ∧
      bit (rd t (tilePage c.val + 0x140)) n.val = false ∧ RegsOnly [tilePage c.val] s t))

/-- R155 to R158, R213, R215: where no word that is read is uncorrectable, a row of a tile load from the core store brings that row's element
bytes and scale bytes into the registers; a row of a tile store into the core store writes the row's element bytes and scale bytes where
R155 and R213 place them, and every other byte of every core store keeps its value. The instruction goes on with its next row, or retires
after its last. -/
def Obligations.TileRows : Prop :=
  ∀ s, Ready s → ∀ (c : Site) (i : Issued), (coreX s c.val).issued.find? (fun i => isTileOp i && i.started && !i.faulted) = some i →
    bit i.word 3 = false → i.cause = 0 →
    (opOf 1 i.word = 8 → ∀ found, NoneBad s c.val (wordsOf (tRowAddr i.tcA i.addr i.orow) (tRowBytes i.tcA i.orow)) found →
      Does (.tileRow c found) s [.ctl, .core, .vreg, .dumpRun, .freeCtr] fun t => RegsOnly [corePage c.val, tilePage c.val] s t ∧
      t.vreg = (after (rowIn c.val i.tcA i.orow
        (stBytes s c.val (tRowAddr i.tcA i.addr i.orow) (tRowBytes i.tcA i.orow))) s).vreg ∧
      CoreIs s t c.val { coreX s c.val with issued := nextRow (coreX s c.val) i }) ∧
    (opOf 1 i.word = 9 → tRowAddr i.tcA i.addr i.orow + tRowBytes i.tcA i.orow ≤ 1572864 →
      ∀ found, NoneBad s c.val (partWords i.tcA (tRowAddr i.tcA i.addr i.orow) i.orow) found →
      Does (.tileRow c found) s [.ctl, .core, .store, .storeBad, .dumpRun, .freeCtr] fun t => RegsOnly [corePage c.val, tilePage c.val] s t ∧
        (∀ d k, k < 1572864 → stByte t d k =
          if d = c.val ∧ tRowAddr i.tcA i.addr i.orow ≤ k ∧ k < tRowAddr i.tcA i.addr i.orow + tElemBytes i.tcA then
            (rowOut s c.val i.tcA i.orow (stByte s c.val (tRowAddr i.tcA i.addr i.orow + tElemBytes i.tcA - 1))).getD
              (k - tRowAddr i.tcA i.addr i.orow) 0
          else if d = c.val ∧ tRowAddr i.tcA i.addr i.orow + roundUp (tElemBytes i.tcA) 4 ≤ k ∧
              k < tRowAddr i.tcA i.addr i.orow + roundUp (tElemBytes i.tcA) 4 + tRowScales i.tcA i.orow then
            (scalesOut s c.val i.tcA i.orow).getD (k - (tRowAddr i.tcA i.addr i.orow + roundUp (tElemBytes i.tcA) 4)) 0
          else stByte s d k) ∧
        CoreIs s t c.val { coreX s c.val with issued := nextRow (coreX s c.val) i })

/-- R98, R149, R356: a vector load whose bytes can be read brings 64 bytes of its space into its register and retires, and no other register
changes; a vector store to the core store, or to a page of device memory whose entry is sound, writes the 64 bytes of its register there and
retires, and every other byte keeps its value; the row cache takes a line that an access begun still needs when every byte of it can be
read. -/
def Obligations.VectorAccesses : Prop :=
  ∀ s, Ready s → ∀ (c : Site) (k : Nat) (i : Issued), ((coreX s c.val).issued.filter (fun i => decide (i.part = 2) &&
      (decide (opOf 2 i.word = 1) || decide (opOf 2 i.word = 2)) && i.started && !i.faulted))[k]? = some i →
    (opOf 2 i.word = 1 → bit i.word 0 = false → ∀ found, NoneBad s c.val (wordsOf (32 * i.addr) 64) found →
      Does (.vectorAccessComplete c k found) s [.ctl, .core, .vreg, .dumpRun, .freeCtr] fun t =>
      RegsOnly [corePage c.val] s t ∧ CoreIs s t c.val { coreX s c.val with issued := dropInsn (coreX s c.val) i } ∧
      ∀ d r, r < 64 → vGet t d r = if d = c.val ∧ r = fld i.word 25 20 then BitVec.ofNat 512 (leNat (stBytes s c.val (32 * i.addr) 64))
        else vGet s d r) ∧
    (opOf 2 i.word = 1 → bit i.word 0 = true → ∀ found bs, rcRead (after (rcParity c.val (32 * i.addr) 64 found) s) c.val (32 * i.addr) 64 = .ok bs →
      Does (.vectorAccessComplete c k found) s [.ctl, .core, .vreg, .mem, .chk, .mergeBuf, .touched, .dumpRun, .freeCtr, .out] fun t =>
        (coreX t c.val).issued = dropInsn (coreX s c.val) i ∧
        ∀ d r, r < 64 → vGet t d r = if d = c.val ∧ r = fld i.word 25 20 then BitVec.ofNat 512 (leNat bs) else vGet s d r) ∧
    (opOf 2 i.word = 2 → bit i.word 0 = false → 32 * i.addr + 64 ≤ 1572864 →
      ∀ found, Does (.vectorAccessComplete c k found) s [.ctl, .core, .store, .storeBad] fun t =>
        RegsOnly [corePage c.val] s t ∧ CoreIs s t c.val { coreX s c.val with issued := dropInsn (coreX s c.val) i } ∧
        ∀ d b, b < 1572864 → stByte t d b = if d = c.val ∧ 32 * i.addr ≤ b ∧ b < 32 * i.addr + 64 then
          BitVec.ofNat 8 ((vGet s c.val (fld i.word 25 20)).toNat / 2 ^ (8 * (b - 32 * i.addr))) else stByte s d b) ∧
    (opOf 2 i.word = 2 → bit i.word 0 = true → ∀ f b, i.addr % 2 = 0 → judge s (herdNo s c.val) (i.addr / 2048) true = .frame f →
      b = 1024 * f + i.addr / 2 % 1024 → mergeOf s b = none → entryClean s (i.addr / 2048) = true →
      ∀ found, Does (.vectorAccessComplete c k found) s [.ctl, .core, .mem, .chk, .mergeBuf, .touched] fun t =>
        (coreX t c.val).issued = dropInsn (coreX s c.val) i ∧
        readBlk t b = some (leBytes 64 (vGet s c.val (fld i.word 25 20)).toNat) ∧
        ∀ a, a / 64 ≠ heldAt s b → memByte t a = memByte s a) ∧
    (opOf 2 i.word = 1 → bit i.word 0 = true → ∀ l bs, (linesOf (32 * i.addr) 64).contains l = true → rcOn s c.val = true →
      rcLine s c.val l = none → urRead s (herdNo s c.val) (128 * l) 128 = .ok bs → (coreX s c.val).rowCache.length < 512 →
      Does (.rowCacheFill c l) s [.ctl, .core, .mem, .chk, .mergeBuf, .touched, .dumpRun, .freeCtr, .out] fun t =>
        (coreX t c.val).rowCache = (coreX s c.val).rowCache ++ [(l, BitVec.ofNat 1024 (leNat bs))] ∧
        (coreX t c.val).issued = (coreX s c.val).issued)

/-! ## The vector unit (chapter 11) -/

/-- R254 to R257, R276, R278: the next operation of the vector unit begins once the banks it reads are accumulated, and owes port W1 its 64
lanes, each computed in F32 from va with its modifiers and vb or the constant it names; FMA adds the destination's old value. R206, R255,
R257: what the F32 operations give at the special values: a NaN operand gives the canonical NaN, MAX(−0, +0) is +0 and MIN(−0, +0) is −0, a
division by zero gives an infinity and 0 / 0 the canonical NaN, and +∞ − ∞ the canonical NaN. -/
def Obligations.ElementArithmetic : Prop :=
  (∀ s, Ready s → ∀ (c : Site) (i : Issued), (readsArith i.word).any (bankBusy s c.val) = false →
    let a := arithA s c.val i.word
    let b := arithB s c.val i.word
    let d := srcLane s c.val (vuFmt i.word) (vuVd i.word)
    (vuNext s c.val 0x10 = some i → Does (.add c) s [.ctl, .acc, .core, .herd, .dumpRun, .freeCtr] fun t =>
      OwesLanes s t c.val i ((List.range 64).map fun l => addF (a l) (b l))) ∧
    (vuNext s c.val 0x11 = some i → Does (.sub c) s [.ctl, .acc, .core, .herd, .dumpRun, .freeCtr] fun t =>
      OwesLanes s t c.val i ((List.range 64).map fun l => subF (a l) (b l))) ∧
    (vuNext s c.val 0x12 = some i → Does (.mul c) s [.ctl, .acc, .core, .herd, .dumpRun, .freeCtr] fun t =>
      OwesLanes s t c.val i ((List.range 64).map fun l => mulF (a l) (b l))) ∧
    (vuNext s c.val 0x13 = some i → Does (.fma c) s [.ctl, .acc, .core, .herd, .dumpRun, .freeCtr] fun t =>
      OwesLanes s t c.val i ((List.range 64).map fun l => fmaF (a l) (b l) (d l))) ∧
    (vuNext s c.val 0x14 = some i → Does (.max c) s [.ctl, .acc, .core, .herd, .dumpRun, .freeCtr] fun t =>
      OwesLanes s t c.val i ((List.range 64).map fun l => maxF (a l) (b l))) ∧
    (vuNext s c.val 0x15 = some i → Does (.min c) s [.ctl, .acc, .core, .herd, .dumpRun, .freeCtr] fun t =>
      OwesLanes s t c.val i ((List.range 64).map fun l => minF (a l) (b l))) ∧
    (vuNext s c.val 0x16 = some i → Does (.div c) s [.ctl, .acc, .core, .herd, .dumpRun, .freeCtr] fun t =>
      OwesLanes s t c.val i ((List.range 64).map fun l => divF (a l) (b l)))) ∧
  ((∀ a b c : Word, isNaN a = true → addF a b = nan32 ∧ mulF a b = nan32 ∧ maxF a b = nan32 ∧ minF a b = nan32 ∧ divF a b = nan32 ∧
    maxF b a = nan32 ∧ minF b a = nan32 ∧ fmaF a b c = nan32) ∧
  maxF 0x80000000 0 = 0 ∧ minF 0x80000000 0 = 0x80000000 ∧ divF 0x3F800000 0 = 0x7F800000 ∧ divF 0x3F800000 0x80000000 = 0xFF800000 ∧
  divF 0 0 = nan32 ∧ subF 0x7F800000 0x7F800000 = nan32)

/-- R258, R260 to R262, R274, R275: functions, fused forms, row reductions, their reads, and the dropout pair. -/
def Obligations.FunctionsAndReductions : Prop :=
  ∀ s, Ready s → ∀ (c : Site) (i : Issued),
    (vuNext s c.val 0x18 = some i → bankBusy s c.val (vuVa i.word) = false →
      Does (.fn c) s [.ctl, .acc, .core, .herd, .dumpRun, .freeCtr] fun t =>
        OwesLanes s t c.val i ((srcLanes s c.val (vuFmt i.word) (vuVa i.word)).map (fnEval (fld i.word 3 0)))) ∧
    (vuNext s c.val 0x19 = some i → bankBusy s c.val (vuVa i.word) = false → bankBusy s c.val (vuVb i.word) = false →
      Does (.fnd c) s [.ctl, .acc, .core, .herd, .dumpRun, .freeCtr] fun t =>
        OwesLanes s t c.val i (List.zipWith (fndEval (fld i.word 3 0)) (srcLanes s c.val (vuFmt i.word) (vuVa i.word))
          (srcLanes s c.val (vuFmt i.word) (vuVb i.word)))) ∧
    (vuNext s c.val 0x1A = some i → (readsRed i.word).any (bankBusy s c.val) = false →
      Does (.red c) s [.ctl, .acc, .core, .herd, .dumpRun, .freeCtr] fun t =>
        ∃ vs : List Word, (coreX t c.val).w1 = (coreX s c.val).w1 ++ [⟨i, none, some (vuVd i.word % 8, vs), [], true⟩] ∧
          vs.length = 8 ∧ ∀ y < 8, vs.getD y 0 = redRow (fld i.word 1 0) (bit i.word 2) (raGet s c.val (vuVd i.word % 8) y)
            ((List.range 8).map (fun x => srcLane s c.val (vuFmt i.word) (vuVa i.word) (8 * y + x)))
            (if fld i.word 1 0 = 3 then (List.range 8).map (fun x => srcLane s c.val (vuFmt i.word) (vuVb i.word) (8 * y + x)) else [])) ∧
    (vuNext s c.val 0x1B = some i → Does (.rget c) s [.core] fun t =>
      OwesLanes s t c.val i ((List.range 64).map (fun l => raGet s c.val (fld i.word 2 0) (l / 8)))) ∧
    (vuNext s c.val 0x1C = some i → Does (.dmsk c) s [.core] fun t =>
      (coreX t c.val).issued = swapInsn (coreX s c.val) i (begun i) ∧
      ∃ v : BitVec 512, (coreX t c.val).w1 = (coreX s c.val).w1 ++ regWrites i [(vuVd i.word, v)] (fun _ => []) ∧
        ∀ l < 512, v.getLsbD l = (decide (l < 64) &&
          decide (fld (rd s (vuPage c.val + 0x200)) 15 0 * 65536 ≤ drawAt s c.val (vuSlot i.word) l 0))) ∧
    (vuNext s c.val 0x1D = some i → bankBusy s c.val (vuVa i.word) = false →
      Does (.msk c) s [.ctl, .acc, .core, .herd, .dumpRun, .freeCtr] fun t =>
        OwesLanes s t c.val i ((List.range 64).map fun l => if bit (vGet s c.val (vuVb i.word % 64)) l then
          mulF (srcLane s c.val (vuFmt i.word) (vuVa i.word) l) (rd s (vuPage c.val + 0x204)) else 0))

/-- R264 to R269, R271, R278: a conversion joins its figures to its slot's, moves its cursor on, and owes the registers of its strip with their
block scales, or, counting only or past the tile's columns, retires; CVH owes its pair of registers, and joins its figures where it counts.
Beside which register of the strip a block's scale is written is the model's choice (log entry 136). -/
def Obligations.Conversions : Prop :=
  ∀ s, Ready s → ∀ (c : Site) (i : Issued), (coreX s c.val).accFlip = [] →
    (vuNext s c.val 0x20 = some i → (readsCvt i.word).any (bankBusy s c.val) = false →
      Does (.cvt c) s [.ctl, .core, .herd, .dumpRun, .freeCtr] fun t =>
        let d := i.tcA
        let g := cursorG s c.val (vuTc i.word) false
        let k := cursorK s c.val (vuTc i.word) false
        let cs := (cvtBlocks d g k).map (fun b => (b, cvtOne s c.val i b))
        let regs := cvtRegs d g k (cs.map (fun c => (c.1.1, c.1.2.1, c.2.codes)))
        (if tCols d ≤ 32 * (k + 1) then cursorG t c.val (vuTc i.word) false = (g + 1) % 64 ∧ cursorK t c.val (vuTc i.word) false = 0
          else cursorG t c.val (vuTc i.word) false = g ∧ cursorK t c.val (vuTc i.word) false = (k + 1) % 64) ∧
        mGetD (coreX t c.val).figs (vuSlot i.word) Figures.zero =
          (mGetD (coreX s c.val).figs (vuSlot i.word) Figures.zero).add (cs.foldl (fun f c => f.add c.2.figs) Figures.zero) ∧
        (bit i.word 4 = true ∨ regs = [] → (coreX t c.val).issued = dropInsn (coreX s c.val) i ∧
          (coreX t c.val).w1 = (coreX s c.val).w1) ∧
        (bit i.word 4 = false → regs ≠ [] → (coreX t c.val).issued = swapInsn (coreX s c.val) i (begun i) ∧
          (coreX t c.val).w1 = (coreX s c.val).w1 ++ regWrites i regs fun r =>
            (cs.filter (fun c => decide (cvtScaleReg d c.1 = r))).map fun c =>
              (64 * tSbase d + tBlockOf d (8 * g + c.1.1) (32 * k + c.1.2.1), BitVec.ofNat 8 c.2.scale))) ∧
    (vuNext s c.val 0x21 = some i → bankBusy s c.val (vuVa i.word) = false →
      Does (.cvh c) s [.ctl, .core, .herd, .dumpRun, .freeCtr] fun t =>
        let rs := (List.range 64).map fun l => convHalf (if bit i.word 6 then 8 else 7)
          (if bit i.word 5 then .stochastic (drawAt s c.val (vuSlot i.word) l 0) else .nearest) (srcLane s c.val 0 (vuVa i.word) l)
        (coreX t c.val).issued = swapInsn (coreX s c.val) i (begun i) ∧
        (bit i.word 4 = true → mGetD (coreX t c.val).figs (vuSlot i.word) Figures.zero =
          (mGetD (coreX s c.val).figs (vuSlot i.word) Figures.zero).add (rs.foldl (fun f r => f.add r.2) Figures.zero)) ∧
        (bit i.word 4 = false → (coreX t c.val).figs = (coreX s c.val).figs) ∧
        (coreX t c.val).w1 = (coreX s c.val).w1 ++ regWrites i ((List.range 2).map fun r => (vuVd i.word + r,
          packElems 16 512 ((List.range 32).map (fun p => (rs.getD (8 * (p / 4) + 4 * r + p % 4) (0, Figures.zero)).1)))) (fun _ => []))

/-- R251, R164, R265, R272, R273: DEC owes the decoded 8 × 8 positions at its read cursor, a position beyond the tile as +0, and moves the
cursor on; CUR sets a cursor, BSC the scale field of a bank number, and TCW a configuration register, and each of the three retires. R278:
port W1 makes the oldest write it owes: one vector register takes its value, then the scale bytes beside it theirs, or one row accumulator
its eight; an operation's last write retires it; nothing else changes. -/
def Obligations.DecodeSetupsAndResults : Prop :=
  (∀ s, Ready s → ∀ (c : Site) (i : Issued),
    (vuNext s c.val 0x22 = some i → Does (.dec c) s [.ctl, .core] fun t =>
      let d := i.tcA
      let g := cursorG s c.val (vuTc i.word) true
      let k := cursorK s c.val (vuTc i.word) true
      (if tCols d ≤ 8 * (k + 1) then cursorG t c.val (vuTc i.word) true = (g + 1) % 64 ∧ cursorK t c.val (vuTc i.word) true = 0
        else cursorG t c.val (vuTc i.word) true = g ∧ cursorK t c.val (vuTc i.word) true = (k + 1) % 256) ∧
      CoreIs s t c.val { coreX s c.val with
        issued := swapInsn (coreX s c.val) i (begun i)
        w1 := (coreX s c.val).w1 ++ regWrites i (destRegs (if bit i.word 5 then 1 else 0) (vuVd i.word) ((List.range 64).map fun l =>
          if tRows d ≤ 8 * g + l / 8 ∨ tCols d ≤ 8 * k + l % 8 then 0
          else if bit i.word 4 then
            toF32 (mulVal (tValue s c.val d (8 * g + l / 8) (8 * k + l % 8)) (f32Val (tscale s c.val (vuSlot i.word))))
          else toF32 (tValue s c.val d (8 * g + l / 8) (8 * k + l % 8)))) (fun _ => []) }) ∧
    (vuNext s c.val 0x23 = some i → Does (.cur c) s [.ctl, .core] fun t =>
      cursorG t c.val (fld i.word 2 0) (bit i.word 3) = vuVd i.word ∧
      cursorK t c.val (fld i.word 2 0) (bit i.word 3) = (if bit i.word 3 then vuVa i.word + 128 * (vuVb i.word % 2) else vuVa i.word % 64) ∧
      CoreIs s t c.val { coreX s c.val with issued := dropInsn (coreX s c.val) i } ∧
      RegsAt [cursorAddr c.val (fld i.word 2 0) (bit i.word 3)] s t) ∧
    (vuNext s c.val 0x24 = some i → Does (.bsc c) s [.ctl, .core] fun t =>
      bscField t c.val (fld i.word 1 0) = 32768 * b2n (bit i.word 2) + 16 * (vuVb i.word % 16) + vuVd i.word % 16 ∧
      (∀ n < 4, n ≠ fld i.word 1 0 → bscField t c.val n = bscField s c.val n) ∧
      CoreIs s t c.val { coreX s c.val with issued := dropInsn (coreX s c.val) i } ∧
      RegsAt [vuPage c.val + 0x180 + fld i.word 1 0 / 2 * 4] s t) ∧
    (vuNext s c.val 0x30 = some i → Does (.tcw c) s [.ctl, .core] fun t =>
      tcGet t c.val (fld i.word 2 0) = (vGet s c.val (vuVa i.word % 64)).setWidth 64 ∧
      CoreIs s t c.val { coreX s c.val with issued := dropInsn (coreX s c.val) i } ∧
      RegsAt [tilePage c.val + 0x100 + 8 * fld i.word 2 0, tilePage c.val + 0x104 + 8 * fld i.word 2 0] s t)) ∧
  (∀ s, Ready s → ∀ (c : Site) (w : W1Write) (rest : List W1Write), (coreX s c.val).w1 = w :: rest →
    (∀ r v, w.reg = some (r, v) → w.ra = none → r < 64 → (∀ p ∈ w.scales, p.1 < 4096) →
      Does (.vuResultWrite c) s [.core, .vreg] fun t =>
        (∀ d q, q < 64 → ∀ b < 64, (d ≠ c.val ∨ ∀ p ∈ w.scales, p.1 ≠ 64 * q + b) →
          fld (vGet t d q) (8 * b + 7) (8 * b) = fld (if d = c.val ∧ q = r then v else vGet s d q) (8 * b + 7) (8 * b)) ∧
        ((w.scales.map (·.1)).Nodup → ∀ p ∈ w.scales,
          fld (vGet t c.val (p.1 / 64)) (8 * (p.1 % 64) + 7) (8 * (p.1 % 64)) = p.2.toNat) ∧
        CoreIs s t c.val { coreX s c.val with
          w1 := rest
          issued := (if w.last then dropInsn (coreX s c.val) w.insn else (coreX s c.val).issued) }) ∧
    (∀ k vs, w.reg = none → w.ra = some (k, vs) → w.scales = [] → vs.length = 8 → Does (.vuResultWrite c) s [.ctl, .core] fun t =>
      (∀ y < 8, raGet t c.val k y = vs.getD y 0) ∧
      RegsAt ((List.range 8).map (fun y => vuPage c.val + 0x300 + 32 * k + 4 * y)) s t ∧
      CoreIs s t c.val { coreX s c.val with
        w1 := rest
        issued := (if w.last then dropInsn (coreX s c.val) w.insn else (coreX s c.val).issued) }))

/-! ## Faults of a core (chapter 5) -/

/-- R114, R134, R138 to R141: a row with a fault does not issue: the sequencer captures the cause, the part and the row, and the instructions in
flight stay as they are; a rod row that cannot be corrected faults with cause 0x20 and stays so; a tile load that meets an uncorrectable
word of the core store faults with cause 0x21 and stays unretired at its row. Which of several faults a row reports is the model's choice
(log entry 29). -/
def Obligations.FaultsCapture : Prop :=
  (∀ s, Ready s → ∀ (c : Site) (f : Cell) (r : RowFault), rowVerdict s c.val f ≠ .bad → canIssue s c.val = true → sopAt s c.val = 0 →
    rowHeld s c.val = false → rowFaultOf s c.val false = some r →
    Does (.next c f) s [.ctl, .core, .herd, .packets, .out, .dumpRun, .freeCtr] fun t =>
      FaultCaptured t c.val r.1 r.2.1 (pcOf s c.val) ∧ pcOf t c.val = pcOf s c.val ∧
      rd t (seqPage c.val + 0x184) = pcPart s c.val r.2.1 ∧ (coreX t c.val).issued = (coreX s c.val).issued) ∧
  (∀ s, Ready s → ∀ (c : Site) (f : Cell), rowVerdict s c.val f = .bad → canIssue s c.val = true → sopAt s c.val = 0 →
    Does (.next c f) s [.ctl, .rodBad, .core, .herd, .packets, .out, .dumpRun, .freeCtr] fun t =>
      FaultCaptured t c.val 0x20 0 (pcOf s c.val) ∧ mGetD t.rodBad (2048 * c.val + pcOf s c.val) false = true ∧
      (coreX t c.val).issued = (coreX s c.val).issued) ∧
  (∀ s, Ready s → ∀ (c : Site) (i : Issued), (coreX s c.val).issued.find? (fun i => isTileOp i && i.started && !i.faulted) = some i →
    opOf 1 i.word = 8 → bit i.word 3 = false → i.row < 2048 → (coreX s c.val).faulting = false →
    ∀ found, stBad s c.val (wordsOf (tRowAddr i.tcA i.addr i.orow) (tRowBytes i.tcA i.orow)) found = true →
    Does (.tileRow c found) s [.ctl, .storeBad, .core, .herd, .packets, .out, .dumpRun, .freeCtr] fun t =>
      FaultCaptured t c.val 0x21 1 i.row ∧ rd t (seqPage c.val + 0x184) = i.word ∧
      rd t (tilePage c.val + 0x148) = BitVec.ofNat 32 (tRowAddr i.tcA i.addr i.orow) ∧
      (coreX t c.val).issued = swapInsn (coreX s c.val) i { i with faulted := true, cause := 0x21 })

/-! ## The mover (chapter 7) -/

/-- R107, R146, R148: in a page that is not fenced, a copy that begins is in its channel's registers: its words still to write, its local word
and its far address; the copy whose words are all written sets its done flag and retires. R96, R146, R147: a word of a MOV.C moves between
the core store and the unified range, and the channel goes on to the next word; each word of a MOV.P is one packet to its peer, a write with
its data or a read request, and the channel goes on once its response has come; a word read is written in the core's own store, and every
other word of every core store keeps its value; a fenced response faults the copy with cause 0x14. When within the copy a response is taken
is the model's choice (log entry 56). -/
def Obligations.Copies : Prop :=
  ((∀ s, Ready s → ∀ (c : Site) (i : Issued), nextToStart s c.val 3 1 = some i → i.row < 2048 →
    fenced s (mvPage c.val) = false →
    Does (.movC c) s [.ctl, .core] fun t => mvLeft t c.val (copyCh i) = movLen i.word ∧ mvLocal t c.val (copyCh i) = i.addr % 65536 ∧
      mvFar t c.val (copyCh i) = 32 * i.far % 2 ^ 64 ∧ bit (rd t (mvReg c.val (copyCh i))) 31 = true ∧
      CoreIs s t c.val { coreX s c.val with issued := swapInsn (coreX s c.val) i (begun i) } ∧
      RegsAt ((List.range 4).map (fun k => mvReg c.val (copyCh i) + 4 * k)) s t) ∧
  (∀ s, Ready s → ∀ (c : Site) (i : Issued), nextToStart s c.val 3 2 = some i → i.row < 2048 →
    fenced s (mvPage c.val) = false →
    Does (.movP c) s [.ctl, .core] fun t => mvLeft t c.val (copyCh i) = movLen i.word ∧ mvLocal t c.val (copyCh i) = i.addr % 65536 ∧
      mvFar t c.val (copyCh i) = i.far % 2 ^ 64 ∧ bit (rd t (mvReg c.val (copyCh i))) 31 = true ∧
      CoreIs s t c.val { coreX s c.val with issued := swapInsn (coreX s c.val) i (begun i) } ∧
      RegsAt ((List.range 4).map (fun k => mvReg c.val (copyCh i) + 4 * k)) s t) ∧
  (∀ s, Ready s → ∀ (c : Site) (ch : Fin 2) (i : Issued), copyOn s c.val ch.val = some i → mvLeft s c.val ch.val = 0 →
    fld i.word 7 0 < 224 → waitersOn s c.val (fld i.word 7 0) = [] →
    Does (.moverCopyDone c ch) s [.ctl, .core] fun t => bit (rd t (mvReg c.val ch.val)) 31 = false ∧
      flagHeld t c.val (fld i.word 7 0) = true ∧ (coreX t c.val).issued = dropInsn (coreX s c.val) i)) ∧
  (∀ s, Ready s → ∀ (c : Site) (ch : Fin 2) (i : Issued) (l w : Nat) (found : Cell), copyOn s c.val ch = some i →
    mvLeft s c.val ch.val ≠ 0 → l = mvLocal s c.val ch.val → l < 49152 → w = mvFar s c.val ch.val % 65536 →
    (isMovP i = false → bit i.word 25 = false → ∀ bs, bs.length = 32 →
      urRead s (herdNo s c.val) (mvFar s c.val ch.val) 32 = .ok bs →
      Does (.moverWord c ch found) s [.ctl, .store, .storeBad, .mem, .chk, .mergeBuf, .touched, .dumpRun, .freeCtr, .out] fun t =>
        mvLeft t c.val ch.val = mvLeft s c.val ch.val - 1 ∧ mvLocal t c.val ch.val = (l + 1) % 65536 ∧
        mvFar t c.val ch.val = (mvFar s c.val ch.val + 32) % 2 ^ 64 ∧
        ∀ d k, k < 1572864 → stByte t d k = if d = c.val ∧ 32 * l ≤ k ∧ k < 32 * l + 32 then bs.getD (k - 32 * l) 0 else stByte s d k) ∧
    (isMovP i = false → bit i.word 25 = true → stVerdict s c.val l found ≠ .bad → ∀ f b, mvFar s c.val ch.val % 32 = 0 →
      judge s (herdNo s c.val) (mvFar s c.val ch.val / 65536) true = .frame f → entryClean s (mvFar s c.val ch.val / 65536) = true →
      b = 1024 * f + mvFar s c.val ch.val / 64 % 1024 → mergeOf s b = none →
      (s.mergeBuf.filter (fun x => decide (x.port = blkPort b))).length < 32 →
      Does (.moverWord c ch found) s [.ctl, .core, .mergeBuf, .touched, .dumpRun, .freeCtr] fun t =>
        mvLeft t c.val ch.val = mvLeft s c.val ch.val - 1 ∧ (coreX t c.val).issued = (coreX s c.val).issued ∧
        t.mergeBuf = s.mergeBuf ++ [⟨blkPort b, blkLocal b, List.replicate (mvFar s c.val ch.val % 64) none ++
          (stBytes s c.val (32 * l) 32).map some ++ List.replicate (32 - mvFar s c.val ch.val % 64) none, herdNo s c.val, []⟩]) ∧
    (isMovP i = true → movAnswer s c.val ch = none → ch ∉ (coreX s c.val).movSent → ∀ p, peerOf s c.val ch.val = some p →
      (bit i.word 25 = true → stVerdict s c.val l found ≠ .bad →
        Does (.moverWord c ch found) s [.ctl, .core, .packets, .dumpRun, .freeCtr] fun t =>
          t.packets = s.packets ++ [⟨c.val, p, 4, 1, 0, herdNo s c.val, 1, c.val, 12, .movReq ch w (some (stGet s c.val l)) .good⟩] ∧
          CoreIs s t c.val { coreX s c.val with movSent := (coreX s c.val).movSent ++ [ch] }) ∧
      (bit i.word 25 = false → Does (.moverWord c ch found) s [.core, .packets] fun t =>
        t.packets = s.packets ++ [⟨c.val, p, 4, 1, 0, herdNo s c.val, 0, c.val, 12, .movReq ch w none found⟩] ∧
        CoreIs s t c.val { coreX s c.val with movSent := (coreX s c.val).movSent ++ [ch] })) ∧
    (isMovP i = true → ∀ v, movAnswer s c.val ch = some (.word v) →
      Does (.moverWord c ch found) s [.ctl, .core, .store, .storeBad] fun t =>
        mvLeft t c.val ch.val = mvLeft s c.val ch.val - 1 ∧ mvLocal t c.val ch.val = (l + 1) % 65536 ∧
        mvFar t c.val ch.val = (mvFar s c.val ch.val + 1) % 2 ^ 64 ∧ ch ∉ (coreX t c.val).movSent ∧ movAnswer t c.val ch = none ∧
        ∀ d n, n < 49152 → stGet t d n = if d = c.val ∧ n = l then v else stGet s d n) ∧
    (isMovP i = true → movAnswer s c.val ch = some .written → Does (.moverWord c ch found) s [.ctl, .core] fun t =>
      mvLeft t c.val ch.val = mvLeft s c.val ch.val - 1 ∧ mvLocal t c.val ch.val = (l + 1) % 65536 ∧
      mvFar t c.val ch.val = (mvFar s c.val ch.val + 1) % 2 ^ 64 ∧ ch ∉ (coreX t c.val).movSent ∧ movAnswer t c.val ch = none) ∧
    (isMovP i = true → movAnswer s c.val ch = some .fenced → i.row < 2048 → (coreX s c.val).faulting = false →
      Does (.movpFencedResponse c ch) s [.ctl, .core, .herd, .packets, .out, .dumpRun, .freeCtr] fun t =>
        FaultCaptured t c.val 0x14 3 i.row ∧ bit (rd t (mvReg c.val ch.val)) 31 = false ∧
        bit (rd t (mvPage c.val + 0x20)) 8 = true ∧
        (coreX t c.val).issued = swapInsn (coreX s c.val) i { i with faulted := true, cause := 0x14 }))

/-! ## The tensor scale (chapter 10) -/

/-- R231, R232: a merge makes amax_step the larger value and counts its arrival; an evaluation keeps the step's figures as the last step's,
starts the step's figures afresh and counts itself; neither changes an entry's length. R230 to R233, R343: each enabled tensor slot of a
core sends one merge and its running figures return to zero; a merge is applied to its entry, and makes the entry due when it is the last
one; the engine of the port evaluates an entry that is due, and on a device outside a pod sends the packets that set or clear its flag in
the herd's cores where the evaluation says so. That a merge that cannot be applied is dropped is the model's reading (log entry 66). -/
def Obligations.ScaleTable : Prop :=
  (∀ bs : List Byte, bs.length = 256 →
    (∀ f : Figures, (entMerge bs f).length = 256 ∧ entNat (entMerge bs f) 0x18 4 = max (entNat bs 0x18 4) f.amax.toNat ∧
      entFld (entMerge bs f) 0x10 10 0 = min (entFld bs 0x10 10 0 + 1) 0x7FF ∧ entNat (entMerge bs f) 0 4 = entNat bs 0 4) ∧
    (entEvaluate bs).1.length = 256 ∧ entNat (entEvaluate bs).1 0x20 32 = 0 ∧ entNat (entEvaluate bs).1 0x18 4 = 0 ∧
      entFld (entEvaluate bs).1 0x10 10 0 = 0 ∧ entNat (entEvaluate bs).1 0x40 32 = entNat bs 0x20 32 ∧
      entNat (entEvaluate bs).1 0x60 4 = entNat bs 0x18 4 ∧ entNat (entEvaluate bs).1 0x64 4 = (entNat bs 0x64 4 + 1) % 2 ^ 32) ∧
  ((∀ s, Ready s → ∀ c : Site, (coreX s c.val).mergeOwed = true →
    Does (.scaleMergeSend c) s [.core, .merges] fun t =>
      CoreIs s t c.val { coreX s c.val with mergeOwed := false, figs := [] } ∧
      t.merges = s.merges ++ ((List.range 16).filter (slotEn s c.val)).map fun n =>
        ⟨herdNo s c.val, entryAddr s c.val n, mGetD (coreX s c.val).figs n Figures.zero, some c.val⟩) ∧
  (∀ s, Ready s → ∀ (m : Merge) (f a : Nat) (bs : List Byte), s.merges.find? (mergeReady s) = some m →
    judge s m.herd (m.addr / 65536) true = .frame f → entryClean s (m.addr / 65536) = true → f < rsvBase s → m.addr % 256 = 0 → a = 65536 * f + m.addr % 65536 →
    (∀ j < 4, CleanBlk s (a / 64 + j)) → s.mergeBuf = [] → devRead s a 256 = some bs → entDead bs = false →
    Does .scaleMerge s [.ctl, .mem, .chk, .touched, .merges, .evalDue] fun t =>
      t.merges = s.merges.erase m ∧ devRead t a 256 = some (entMerge bs m.figs) ∧
      (∀ k, (∀ j < 4, k / 64 ≠ heldAt s (a / 64 + j)) → memByte t k = memByte s k) ∧
      t.evalDue = if entFld (entMerge bs m.figs) 0x10 10 0 = entFld bs 0x0C 10 0 then s.evalDue ++ [(a, m.herd)] else s.evalDue) ∧
  (∀ s, Ready s → ∀ (n : PortNo) (e : Nat × Nat) (bs : List Byte), s.evalDue.find? (fun e => decide (e.1 / 65536 % 24 = n.val)) = some e →
    e.1 / 65536 < rsvBase s → e.1 % 256 = 0 → (∀ j < 4, CleanBlk s (e.1 / 64 + j)) → s.mergeBuf = [] → devRead s e.1 256 = some bs →
    podEn s = false →
    Does (.scaleEvaluate n) s [.ctl, .mem, .chk, .evalDue, .packets] fun t =>
      t.evalDue = s.evalDue.erase e ∧ devRead t e.1 256 = some (entEvaluate bs).1 ∧
      t.packets = s.packets ++ (match (entEvaluate bs).2 with
        | .keep => []
        | .set => flagPackets s (.ue n.val) e.2 (entFld bs 4 27 20) 0
        | .clear => flagPackets s (.ue n.val) e.2 (entFld bs 4 27 20) 1) ∧
      ∀ k, (∀ j < 4, k / 64 ≠ heldAt s (e.1 / 64 + j)) → memByte t k = memByte s k))

/-! ## The update engines (chapter 12) -/

/-- R307, R308, R311, R324: a poll that is served clears the ring's failure, and one that is refused records its status and raises its class
once, each only after the last descriptor's notification has taken effect; of fewer than four active, a descriptor in its turn is taken as
judged, the ring's head goes on and its failure is cleared; a write that sets en of a ring starts it at head 0. R317, R324, R344: how a
descriptor is judged: a reserved field or a misaligned address gives status 0x82, a group outside the herd's range 0x80, an uncorrectable
entry 0x83, an entry that is not valid or of another herd 0x80; of those whose shard record and program can be judged now, a frozen group
gives 0x02. -/
def Obligations.RingsServeAndJudge : Prop :=
  ((∀ s, Ready s → ∀ (n : PortNo) (h : HerdNo) (bs : List Byte), s.desc.any (fun d => decide (d.eng = n.val) && decide (d.herd = h.val)) = false →
    notePending s n.val h.val = false → ringRuns s n.val h.val = true → ringRead s n.val h.val = .ok bs →
    Does (.ueRingPoll n h) s [.ctl, .mem, .chk, .mergeBuf, .touched, .ringFail, .dumpRun, .freeCtr] fun t =>
      mGet t.ringFail (64 * n.val + h.val) = none ∧ t.desc = s.desc) ∧
  (∀ s, Ready s → ∀ (n : PortNo) (h : HerdNo) (st : Nat), s.desc.any (fun d => decide (d.eng = n.val) && decide (d.herd = h.val)) = false →
    notePending s n.val h.val = false → ringRuns s n.val h.val = true → ringRead s n.val h.val = .bad st → mGet s.ringFail (64 * n.val + h.val) = none →
    Does (.ueRingPoll n h) s [.ctl, .mem, .chk, .mergeBuf, .touched, .ringFail, .dumpRun, .freeCtr] fun t =>
      mGet t.ringFail (64 * n.val + h.val) = some st ∧
      bit (rd t (uePage n.val + 0x20)) (refusalClass s h.val (ringEntry s n.val h.val) st).code = true) ∧
  (∀ s, Ready s → ∀ (n : PortNo) (h : HerdNo) (ws : List Word) (e : UeDesc), ringMatch s n.val h.val = some ws →
    (judgeDesc s (newDesc s n.val h.val ws)).2 = some e → takeable s n.val h.val = true → fenced s (uePage n.val) = false →
    activeCount s n.val < 4 → turnOfHerd s n.val h.val (takeable s n.val) = true →
    Does (.ueDescriptorTake n h) s [.ctl, .mem, .chk, .mergeBuf, .touched, .ringFail, .lastTaken, .desc, .dumpRun, .freeCtr] fun t =>
      ringHead t n.val h.val = (ringHead s n.val h.val + 1) % 2 ^ 32 ∧ mGet t.lastTaken n.val = some h.val ∧
      mGet t.ringFail (64 * n.val + h.val) = none ∧ t.desc = s.desc ++ [e]) ∧
  (∀ s, Ready s → ∀ (bx : Bool) (n : PortNo) (h : HerdNo) (v : Word), Takes s (ringAddr (if bx then 24 else n.val) h.val / 4096) →
    Does (.ueRingEnable .ringCtl bx n h v) s [.ctl] fun t =>
      bit (rd t (ringAddr (if bx then 24 else n.val) h.val + 4)) 31 = true ∧ ringHead t (if bx then 24 else n.val) h.val = 0 ∧
      RegsAt [ringAddr (if bx then 24 else n.val) h.val + 4, ringAddr (if bx then 24 else n.val) h.val + 8] s t)) ∧
  (∀ (s : State) (d : UeDesc),
    (4 < dMode d ∨ fld (dW d 1) 4 3 = 3 ∨ fld (dW d 1) 31 23 ≠ 0 ∨ dW d 3 ≠ 0 ∨ (∃ k < 8, dW d (8 + k) ≠ 0) ∨
      dRec d % (if dMode d < 3 then 64 else 32) ≠ 0 ∨ dCpl d % 16 ≠ 0 → (judgeDesc s d).2 = some (ended d 0x82)) ∧
    (dMode d < 3 → fld (dW d 1) 4 3 ≠ 3 → fld (dW d 1) 31 23 = 0 → dW d 3 = 0 → (∀ k < 8, dW d (8 + k) = 0) → dRec d % 64 = 0 →
      dCpl d % 16 = 0 →
      (groupInRange s d.eng d.herd (dGroup d) = false → (judgeDesc s d).2 = some (ended d 0x80)) ∧
      (groupInRange s d.eng d.herd (dGroup d) = true →
        (devRead s (groupAddr s d.eng (dGroup d)) 32 = none → (judgeDesc s d).2 = some (ended d 0x83)) ∧
        ∀ bs, devRead s (groupAddr s d.eng (dGroup d)) 32 = some bs →
          (bit ((leWords 8 bs).getD 0 0) 31 = false ∨ fld ((leWords 8 bs).getD 0 0) 27 22 ≠ d.herd →
            (judgeDesc s d).2 = some (ended { d with entry := leWords 8 bs } 0x80)) ∧
          ∀ e, (judgeDesc s d).2 = some e → bit ((leWords 8 bs).getD 0 0) 31 = true → fld ((leWords 8 bs).getD 0 0) 27 22 = d.herd →
            progWaits s d.eng (fld ((leWords 8 bs).getD 0 0) 7 0) = false →
            bit ((leWords 8 bs).getD 0 0) 30 = true → e.status < 0x80 → e.phase = 4 ∧ e.status = 0x02)))

/-- R320, R322, R323, R328: a descriptor that is judged active takes LR from its curve, or +1.0 without one; one that updates advances its
group's entry at home, where t counts a new step once, takes B1 and B2 and runs its batches; one that accumulates runs them without an
advance; ADVANCE makes the advance alone. R320: an advance counts a group's step once: made again for the step just advanced it gives the
same entry and t. R318: a group load writes the entry with the herd as its owner, and a group store writes the entry out; each ends its
descriptor. -/
def Obligations.UpdatesStart : Prop :=
  ((∀ (s : State) (d e : UeDesc), (judgeShard s d).2 = some e → e.phase = 1 →
    (bit (gW d 0) 28 = false → e.lr = one32) ∧
    ∀ bs ps, bit (gW d 0) 28 = true → curveRead s d.herd (gW d 1) = .ok bs → curvePoints bs = some ps →
      e.lr = curveLr ps (dStep d).toNat) ∧
  ∀ s, Ready s → ∀ (n : PortNo) (h : HerdNo) (d : UeDesc), descOf s n.val h.val = some d →
    (dMode d = 1 → d.phase = 1 → Does (.accumulate n h) s [.desc] fun t => DescIs s t d { d with phase := 3 }) ∧
    (∀ bs r, d.phase = 1 → devRead s (groupAddr s n.val (dGroup d)) 32 = some bs → groupAddr s n.val (dGroup d) % 32 = 0 →
      ErrorFree s → s.mergeBuf = [] → r = advanced (leWords 8 bs) (dStep d) →
      (dMode d = 0 ∨ dMode d = 2 → Does (.advance n h) s [.ctl, .mergeBuf, .desc] fun t =>
        devRead t (groupAddr s n.val (dGroup d)) 32 = some (wordBytes r.1) ∧ DescIs s t d { d with phase := 2, t := r.2 }) ∧
      (dMode d = 0 → Does (.update n h) s [.ctl, .mergeBuf, .desc] fun t =>
        devRead t (groupAddr s n.val (dGroup d)) 32 = some (wordBytes r.1) ∧
        descOf t n.val h.val = some { d with phase := 3, t := r.2, b1 := subF one32 (powF (gW d 4) r.2),
                                             b2 := subF one32 (powF (gW d 5) r.2) }) ∧
      (dMode d = 2 → Does (.updateWithAccumulatedGradient n h) s [.ctl, .mergeBuf, .desc] fun t =>
        devRead t (groupAddr s n.val (dGroup d)) 32 = some (wordBytes r.1) ∧
        descOf t n.val h.val = some { d with phase := 3, t := r.2, b1 := subF one32 (powF (gW d 4) r.2),
                                             b2 := subF one32 (powF (gW d 5) r.2) })) ∧
    (d.phase = 2 → dMode d = 0 → Does (.update n h) s [.desc] fun t => DescIs s t d { d with
      phase := 3, b1 := subF one32 (powF (gW d 4) d.t), b2 := subF one32 (powF (gW d 5) d.t) }) ∧
    (d.phase = 2 → dMode d = 2 → Does (.updateWithAccumulatedGradient n h) s [.desc] fun t => DescIs s t d { d with
      phase := 3, b1 := subF one32 (powF (gW d 4) d.t), b2 := subF one32 (powF (gW d 5) d.t) })) ∧
  (∀ (g : List Word) (st : Word), 4 ≤ g.length → (g.getD 2 0 = 0 ∨ g.getD 3 0 ≠ st → g.getD 2 0 + 1 ≠ 0) →
    advanced (advanced g st).1 st = advanced g st ∧ (advanced g st).1.length = g.length ∧
      ∀ k, k ≠ 2 → k ≠ 3 → (advanced g st).1.getD k 0 = g.getD k 0) ∧
  (∀ s, Ready s → ∀ (n : PortNo) (h : HerdNo) (d : UeDesc) (bs : List Byte) (f : Nat), descOf s n.val h.val = some d → d.phase = 1 →
    ErrorFree s → s.mergeBuf = [] → groupAddr s n.val (dGroup d) % 32 = 0 → dRec d % 32 = 0 → dRec d < 2 ^ 42 →
    (dMode d = 3 → judge s h.val (dRec d / 65536) false = .frame f → devRead s (65536 * f + dRec d % 65536) 32 = some bs →
      Does (.groupLoad n h) s [.ctl, .mergeBuf, .touched, .desc] fun t =>
        devRead t (groupAddr s n.val (dGroup d)) 32 =
          some (wordBytes ((leWords 8 bs).set 0 (setFld ((leWords 8 bs).getD 0 0) 27 22 h.val))) ∧
        DescIs s t d { d with phase := 4, status := 0x04 }) ∧
    (dMode d = 4 → judge s h.val (dRec d / 65536) true = .frame f → devRead s (groupAddr s n.val (dGroup d)) 32 = some bs →
      Does (.groupStore n h) s [.ctl, .mergeBuf, .touched, .desc] fun t =>
        devRead t (65536 * f + dRec d % 65536) 32 = some bs ∧ DescIs s t d { d with phase := 4, status := 0x05 }))

/-- R311, R314, R329, R330, R331, R342, R344: in its turn, with no evaluation due on the port, a batch whose accesses all succeed counts its
trained elements and goes on to the next batch, or ends the descriptor after the last; one without a trained element is passed over without
a memory access, and one with a failing access ends the descriptor with its status. A descriptor that ends leaves the engine with its
completion record written; one that ends well sends its figures to its scale-table entry where it has one and notifies the core it names,
and one that ends with a fault halts its ring with the status. A completion record that cannot be written is dropped (log entry 33). R339,
R340: a program load starts, and at its end the program and its valid bit are in the store, unless a descriptor uses the program: then the
replacement waits until none does. That the image may lie in any valid page is the model's reading (log entry 34). -/
def Obligations.DescriptorsEndProgramsLoad : Prop :=
  ((∀ s, Ready s → ∀ (n : PortNo) (h : HerdNo) (d : UeDesc), descOf s n.val h.val = some d → d.phase = 3 →
    evalsDue s n.val = [] → turnOfHerd s (32 + n.val) h.val (batchReady s n.val) = true →
    (∀ bs, batchEnds s d = .ok bs → trainedElems s d ≠ [] →
      Does (.ueBatch n h) s [.ctl, .mem, .chk, .mergeBuf, .farMem, .touched, .lastTaken, .desc, .dumpRun, .freeCtr, .out] fun t =>
        mGet t.lastTaken (32 + n.val) = some h.val ∧
        ∃ e, descOf t n.val h.val = some e ∧ e.done = d.done + (trainedElems s d).length ∧ (dMode d = 1 → e.changed = d.changed) ∧
          e.t = d.t ∧ e.status = d.status ∧ if batchCount d ≤ d.batch + 1 then e.phase = 4 else e.phase = 3 ∧ e.batch = d.batch + 1) ∧
    (∀ bs, batchEnds s d = .ok bs → trainedElems s d = [] →
      Does (.ueBatch n h) s [.lastTaken, .desc] fun t =>
        mGet t.lastTaken (32 + n.val) = some h.val ∧
        DescIs s t d (if batchCount d ≤ d.batch + 1 then { d with phase := 4 } else { d with batch := d.batch + 1 })) ∧
    (∀ st, batchEnds s d = .bad st →
      Does (.ueBatch n h) s [.ctl, .mem, .chk, .mergeBuf, .touched, .lastTaken, .desc, .dumpRun, .freeCtr] fun t =>
        mGet t.lastTaken (32 + n.val) = some h.val ∧ DescIs s t d { d with phase := 4, status := st })) ∧
  (∀ s, Ready s → ∀ (n : PortNo) (h : HerdNo) (d : UeDesc) (f : Nat), descOf s n.val h.val = some d → d.phase = 4 →
    judge s h.val (dCpl d / 16 * 16 / 65536) true = .frame f → dCpl d < 2 ^ 42 → ErrorFree s → s.mergeBuf = [] →
    (d.status < 0x80 →
      Does (.ueDescriptorEnd n h) s [.ctl, .mergeBuf, .touched, .packets, .merges, .snap, .desc] fun t =>
        t.desc = s.desc.filter (fun x => decide (x ≠ d)) ∧
        devRead t (65536 * f + dCpl d / 16 * 16 % 65536) 16 = some (leBytes 2 (fld (dW d 0) 31 16) ++ leBytes 2 d.status ++
          leBytes 4 d.done ++ leBytes 4 d.changed ++ leBytes 4 (if d.done = 0 then 0 else d.t.toNat)) ∧
        t.merges = s.merges ++ (if bit (shW d 3) 9 = true ∧ d.shard ≠ [] then [⟨h.val, workEntry s d, d.figs, none⟩] else []) ∧
        (fld (dW d 1) 4 3 = 0 → t.packets = s.packets) ∧
        (fld (dW d 1) 4 3 = 1 → ∀ c, siteAt s h.val (if 224 ≤ fld (dW d 1) 22 15 then 0 else fld (dW d 1) 14 5) = some c →
          t.packets = s.packets ++ [ringTally (.ue n.val) h.val c 0 (fld (dW d 1) 22 15) 0]) ∧
        (fld (dW d 1) 4 3 = 2 → ∀ c, siteAt s h.val (fld (dW d 1) 14 5) = some c →
          t.packets = s.packets ++ [ringTally (.ue n.val) h.val c 2 (fld (dW d 1) 22 15 % 32) 1])) ∧
    (0x80 ≤ d.status →
      Does (.ueDescriptorEnd n h) s [.ctl, .mergeBuf, .touched, .merges, .packets, .snap, .desc, .dumpRun, .freeCtr] fun t =>
        t.desc = s.desc.filter (fun x => decide (x ≠ d)) ∧ bit (rd t (ringAddr n.val h.val + 4)) 30 = true ∧
        rd t (ringAddr n.val h.val + 12) = BitVec.ofNat 32 d.status ∧ bit (rd t (uePage n.val + 0x20)) 8 = true ∧
        bit (rd t (uePage n.val + 0x20)) (statusClass d.status).code = true ∧
        (d.status ≤ 0x82 → t.packets = s.packets ∧ t.merges = s.merges)))) ∧
  ((∀ s, Ready s → ∀ (n : PortNo) (v : Word), Takes s (uePage n.val / 4096) → bit v 31 = true → fld v 7 0 + fld v 15 8 ≤ 255 →
    Does (.uePloadGo .ringCtl n v) s [.ctl] fun t => bit (rd t (uePage n.val + 0x118)) 30 = true ∧
      fld (rd t (uePage n.val + 0x118)) 15 0 = fld v 15 0 ∧ RegsAt [uePage n.val + 0x118] s t) ∧
  (∀ s, Ready s → ∀ (n : PortNo) (p : Nat) (bs : List Byte), bit (rd s (uePage n.val + 0x118)) 30 = true →
    fld (rd s (uePage n.val + 0x118)) 15 8 = 0 → p = fld (rd s (uePage n.val + 0x118)) 7 0 →
    ringRange s (rd64 s (uePage n.val + 0x110)).toNat 128 = some bs →
    (progUsed s n.val p = false → Does (.uePloadDone n) s [.ctl, .mem, .chk, .mergeBuf, .prog, .progPend, .dumpRun, .freeCtr] fun t => progWords t n.val p = leWords 32 bs ∧
      progWaits t n.val p = false ∧ progValid t n.val p = progOk (leWords 32 bs) ∧ bit (rd t (uePage n.val + 0x118)) 30 = false ∧
      bit (rd t (uePage n.val + 0x118)) 29 = (!progOk (leWords 32 bs)) ∧
      ∀ m q i, i < 32 → q < 256 → (m, q) ≠ (n.val, p) → progWord t m q i = progWord s m q i) ∧
    (progUsed s n.val p = true → Does (.uePloadDone n) s [.ctl, .mem, .chk, .mergeBuf, .progPend, .dumpRun, .freeCtr] fun t =>
      progWaits t n.val p = true ∧ bit (rd t (uePage n.val + 0x118)) 30 = false)) ∧
  (∀ s, Ready s → ∀ (n : PortNo) (q : ProgPend), s.progPend.find? (fun q => decide (q.eng = n.val) && !progUsed s n.val q.index) = some q →
    q.words.length = 32 → q.index < 256 →
    Does (.programReplace n) s [.ctl, .prog, .progPend] fun t => progWords t n.val q.index = q.words ∧
      progValid t n.val q.index = q.valid ∧ t.progPend = s.progPend.erase q))

/-! ## The unified range (chapter 13) -/

/-- R352, R356: how an access is judged: a page beyond the range or not valid is absent, one that moves waits, one of another herd is hidden, a
write without the write bit or to a shared page is refused, and the rest reaches the page's home. -/
def Obligations.AccessesJudged : Prop :=
  ∀ (s : State) (h p : Nat) (e : DWord) (write : Bool),
    (2 ^ 26 ≤ p → judgeAs s h p e write = .absent) ∧
    (p < 2 ^ 26 → eValid e = true → eMoving e = true → judgeAs s h p e write = .waits) ∧
    (p < 2 ^ 26 → eValid e = false → judgeAs s h p e write = .absent) ∧
    (p < 2 ^ 26 → eValid e = true → eMoving e = false → eShared e = false → eHerd e ≠ h → judgeAs s h p e write = .hidden) ∧
    (p < 2 ^ 26 → eValid e = true → eMoving e = false → eShared e = true → admitted s (eSset e) h = false →
      judgeAs s h p e write = .hidden) ∧
    (p < 2 ^ 26 → eValid e = true → eMoving e = false → readable s h e = true → eWr e = false ∨ eShared e = true →
      judgeAs s h p e true = .readOnly) ∧
    (p < 2 ^ 26 → eValid e = true → eMoving e = false → eShared e = false → eHerd e = h → eWr e = true →
      judgeAs s h p e write = if eFar e = true then .far (eExt e) (eFarPage e) else .frame (eHome e))

/-- R366, R372, R373, R514: ALLOC of a page of device memory with room under the quota homes it on the lowest free frame of the port (the choice
of frame is the model's, log entry 23), zeroed, owned by the herd, and charges the herd; a run with a valid page is refused whole, and one
out of range has status 2. R366, R367, R372, R514: FREE makes the run's pages invalid and returns how many were valid; PROT changes the
write bit of the run's pages alone, PIN and UNPIN the pinned bit of a page in device memory, with the herd's count of pinned frames; a
request that names a page of another herd is refused whole. -/
def Obligations.PagesAllocateAndChange : Prop :=
  (∀ s, Ready s → ∀ (c : CmdId) (h : Nat) (x : Herd), CommandRuns s c h x →
    (∀ page port f wr, page < 2 ^ 26 → port < 24 → eValid (homeEntry s page) = false → quotaRoom s h = true →
      freeFrame s port = some f → askedMoves s h = 0 → ErrorFree s → s.mergeBuf = [] →
      Does (.alloc c page 1 1 port wr false) s [.ctl, .mem, .chk, .mergeBuf, .busyRing, .completions, .fnTurn, .out] fun t =>
        Answered s t c 0 1 ∧ homeEntry t page = mkEntry false false wr h f (touchNow s) ∧ OtherPages s t page ∧
        (∀ a, a / 65536 = f → memByte t a = 0) ∧ usedOf t h = (usedOf s h + 1) % 2 ^ 32 ∧
        (0 < freeFrames s → freeFrames t = freeFrames s - 1)) ∧
    (∀ page n dest port wr pinned, ErrorFree s → s.mergeBuf = [] → runOk page n dest.val port = true → (∃ p ∈ runPages page n, eValid (homeEntry s p) = true) →
      Does (.alloc c page n dest port wr pinned) s [.ctl, .busyRing, .completions, .fnTurn, .out] fun t => Answered s t c 8 0) ∧
    (∀ page n dest port wr pinned, runOk page n dest.val port = false →
      Does (.alloc c page n dest port wr pinned) s [.ctl, .busyRing, .completions, .fnTurn, .out] fun t => Answered s t c 2 0)) ∧
  (∀ s, Ready s → ∀ (c : CmdId) (h : Nat) (x : Herd) (page n : Nat), CommandRuns s c h x → s.moves = [] → 1 ≤ n → page + n ≤ 2 ^ 26 →
    ErrorFree s → s.mergeBuf = [] →
    ((∀ p ∈ runPages page n, eValid (homeEntry s p) = true → eHerd (homeEntry s p) = h ∧ eShared (homeEntry s p) = false ∧
        eMoving (homeEntry s p) = false ∧ (eFar (homeEntry s p) = false → eHome (homeEntry s p) < rsvBase s)) →
      Does (.free c page n) s [.ctl, .core, .mem, .chk, .mergeBuf, .farMem, .extent, .moves, .touched, .busyRing, .completions, .fnTurn, .out] fun t =>
        Answered s t c 0 (BitVec.ofNat 64 ((runPages page n).filter (fun p => eValid (homeEntry s p))).length) ∧
        (∀ p ∈ runPages page n, eValid (homeEntry t p) = false) ∧
        ∀ q, q < 2 ^ 26 → q ∉ runPages page n → homeEntry t q = homeEntry s q) ∧
    (∀ wr, (∀ p ∈ runPages page n, eValid (homeEntry s p) = true ∧ eHerd (homeEntry s p) = h ∧ eShared (homeEntry s p) = false) →
      Does (.prot c page n wr) s [.ctl, .mem, .busyRing, .completions, .fnTurn, .out] fun t =>
        Answered s t c 0 (BitVec.ofNat 64 ((runPages page n).filter (fun p => decide (eWr (homeEntry s p) ≠ wr))).length) ∧
        (∀ p ∈ runPages page n, homeEntry t p = setBit (homeEntry s p) 59 wr) ∧
        ∀ q, q < 2 ^ 26 → q ∉ runPages page n → homeEntry t q = homeEntry s q) ∧
    (n = 1 → eValid (homeEntry s page) = true → eHerd (homeEntry s page) = h → eShared (homeEntry s page) = false →
      eFar (homeEntry s page) = false → eMoving (homeEntry s page) = false → ePinned (homeEntry s page) = false →
      pinnedOf s h < floorOf s h →
      Does (.pin c page n) s [.ctl, .mem, .busyRing, .completions, .fnTurn, .out] fun t => Answered s t c 0 1 ∧
        homeEntry t page = setBit (homeEntry s page) 60 true ∧ OtherPages s t page ∧ pinnedOf t h = pinnedOf s h + 1) ∧
    (n = 1 → eValid (homeEntry s page) = true → eHerd (homeEntry s page) = h → eShared (homeEntry s page) = false →
      eFar (homeEntry s page) = false → ePinned (homeEntry s page) = true → 0 < pinnedOf s h →
      Does (.unpin c page n) s [.ctl, .mem, .moves, .busyRing, .completions, .fnTurn, .out] fun t => Answered s t c 0 1 ∧
        homeEntry t page = setBit (homeEntry s page) 60 false ∧ OtherPages s t page ∧ pinnedOf t h = pinnedOf s h - 1) ∧
    ((∃ p ∈ runPages page n, eValid (homeEntry s p) = true ∧ eHerd (homeEntry s p) ≠ h) → ∀ wr dest port, dest.val < 3 → port < 24 →
      Does (.free c page n) s [.ctl, .busyRing, .completions, .fnTurn, .out] (fun t => Answered s t c 8 0) ∧
      Does (.pin c page n) s [.ctl, .busyRing, .completions, .fnTurn, .out] (fun t => Answered s t c 8 0) ∧
      Does (.unpin c page n) s [.ctl, .busyRing, .completions, .fnTurn, .out] (fun t => Answered s t c 8 0) ∧
      Does (.prot c page n wr) s [.ctl, .busyRing, .completions, .fnTurn, .out] (fun t => Answered s t c 8 0) ∧
      Does (.move c page n dest port) s [.ctl, .busyRing, .completions, .fnTurn, .out] (fun t => Answered s t c 8 0)))

/-- R366, R368 to R370, R514: SHARE puts the run's pages into a set of which the herd is the creator and a member; ADMIT and REVOKE of the
creator change one herd's bit, and of another herd are refused; a set without members is free again. R355, R374 to R376, R379, R385: a
touched page's entry takes the current touch; below the low watermark eviction asks to send the oldest evictable page to the far tier, or
stalls where it finds none and none is on its way; MIG_HPF_CTRL is stored while its schedule is off, and with the schedule on a write that
clears en waits for the step boundary and every other write of the schedule's registers is refused with PROTOCOL; an entry whose pages are
home is done, and its flag is sent to the herd's cores. -/
def Obligations.SharingAndUpkeep : Prop :=
  (∀ s, Ready s → ∀ (c : CmdId) (h : Nat) (x : Herd) (set : BitVec 8), CommandRuns s c h x → h < 64 →
    (∀ page n, 1 ≤ n → page + n ≤ 2 ^ 26 → s.moves = [] → ErrorFree s → s.mergeBuf = [] → mGet s.ssetOwner set.toNat = none ∨ mGet s.ssetOwner set.toNat = some h →
      (∀ p ∈ runPages page n, eValid (homeEntry s p) = true ∧ eHerd (homeEntry s p) = h ∧ eShared (homeEntry s p) = false ∧
        eMoving (homeEntry s p) = false) →
      Does (.share c page n set) s [.ctl, .core, .mem, .moves, .ssetOwner, .busyRing, .completions, .fnTurn, .out] fun t =>
        Answered s t c 0 (BitVec.ofNat 64 n) ∧ mGet t.ssetOwner set.toNat = some h ∧ admitted t set.toNat h = true ∧
        (∀ p ∈ runPages page n, eShared (homeEntry t p) = true ∧ eSset (homeEntry t p) = set.toNat ∧
          eHome (homeEntry t p) = eHome (homeEntry s p)) ∧
        ∀ q, q < 2 ^ 26 → q ∉ runPages page n → homeEntry t q = homeEntry s q) ∧
    (∀ g : HerdNo, mGet s.ssetOwner set.toNat = some h → askedMoves s h = 0 →
      Does (.admitHerd c set g) s [.ctl, .busyRing, .completions, .fnTurn, .out] fun t => Answered s t c 0 0 ∧ admitted t set.toNat g.val = true ∧
        ∀ k < 64, k ≠ g.val → admitted t set.toNat k = admitted s set.toNat k) ∧
    (∀ g k : HerdNo, mGet s.ssetOwner set.toNat = some h → askedMoves s h = 0 → k ≠ g → admitted s set.toNat k.val = true →
      Does (.revoke c set g) s [.ctl, .core, .busyRing, .completions, .fnTurn, .out] fun t => Answered s t c 0 0 ∧
        admitted t set.toNat g.val = false ∧ mGet t.ssetOwner set.toNat = some h) ∧
    (∀ g : HerdNo, mGet s.ssetOwner set.toNat = some h → askedMoves s h = 0 → s.moves = [] → ErrorFree s → s.mergeBuf = [] →
      (∀ k : HerdNo, k ≠ g → admitted s set.toNat k.val = false) →
      Does (.revoke c set g) s [.ctl, .core, .mem, .chk, .mergeBuf, .farMem, .extent, .moves, .touched, .ssetOwner, .busyRing, .completions, .fnTurn, .out] fun t =>
        Answered s t c 0 0 ∧ mGet t.ssetOwner set.toNat = none) ∧
    (∀ g : HerdNo, mGet s.ssetOwner set.toNat ≠ some h →
      Does (.admitHerd c set g) s [.ctl, .busyRing, .completions, .fnTurn, .out] (fun t => Answered s t c 8 0) ∧
      Does (.revoke c set g) s [.ctl, .busyRing, .completions, .fnTurn, .out] (fun t => Answered s t c 8 0))) ∧
  ((∀ s, Ready s → ∀ p : Nat, p < 2 ^ 26 → mGet s.touched p ≠ none → eValid (homeEntry s p) = true →
    ErrorFree s → s.mergeBuf = [] → Does (.touchWrite p) s [.ctl, .mem, .touched] fun t => homeEntry t p = setFld (homeEntry s p) 15 0 (touchNow s) ∧ OtherPages s t p ∧
      mGet t.touched p = none) ∧
  (∀ s, Ready s → fenced s (migPage 0) = false → freeFrames s < 16 * fld (rd s (migPage 0 + 0x10C)) 15 0 →
    (∀ p, freeFrames s + framesDue s < 16 * fld (rd s (migPage 0 + 0x10C)) 31 16 → evictNext s = some p →
      Does .evict s [.ctl, .moves] fun t =>
        t.moves = s.moves ++ [⟨p, eHerd (homeEntry s p), none, false, false, 0, false, false, none, none⟩]) ∧
    (framesDue s = 0 → freeFrames s < 16 * fld (rd s (migPage 0 + 0x10C)) 31 16 → evictNext s = none →
      Does .evict s [.ctl] fun t => fld (rd t (migPage 0 + 0x110)) 2 1 = 3 ∧ bit (rd t (migPage 0 + 0x20)) 9 = true)) ∧
  (∀ s, Ready s → ∀ (h : HerdNo) (w : Fin 3) (v : Word) (x : Herd), Takes s (migPage 1 / 4096) → herdOf s h.val = some x →
    (bit (rd s (migHerd h.val + 0x18)) 31 = false → w.val = 2 → Does (.migHpfWrite .ringCtl h w v) s [.ctl] fun t =>
      bit (rd t (migHerd h.val + 0x18)) 31 = bit v 31 ∧ fld (rd t (migHerd h.val + 0x18)) 15 0 = fld v 15 0 ∧
        RegsAt [migHerd h.val + 0x18] s t) ∧
    (bit (rd s (migHerd h.val + 0x18)) 31 = true → w.val = 2 → bit v 31 = false → Does (.migHpfWrite .ringCtl h w v) s [.herd] fun t =>
      herdOf t h.val = some { x with hpfPend := some v }) ∧
    (bit (rd s (migHerd h.val + 0x18)) 31 = true → w.val ≠ 2 ∨ bit v 31 = true →
      Does (.migHpfWrite .ringCtl h w v) s [.ctl, .dumpRun, .freeCtr] fun t => bit (rd t (migPage 1 + 0x20)) 3 = true ∧
        ∀ k < 3, rd t (migHerd h.val + 0x10 + 4 * k) = rd s (migHerd h.val + 0x10 + 4 * k))) ∧
  (∀ s, Ready s → ∀ (h : HerdNo) (i : Nat) (x : Herd) (e : PfEntry), herdOf s h.val = some x →
    x.prefetch.find? (fun e => decide (e.index = i)) = some e → e.done = false → e.dead = false →
    pfHomed s e.words = true →
    Does (.prefetchDone h i) s [.ctl, .herd, .packets] fun t => herdOf t h.val =
        some { x with prefetch := x.prefetch.map (fun k => if k.index = i then { k with done := true } else k) } ∧
      t.packets = s.packets ++ if wf e.words 3 26 26 = 1 then flagPackets s .mig h.val (wf e.words 3 17 10) 0 else []))

/-- R362, R363, R366, R514: MOVE queues the pages that are not at their destination, and answers at once when there is none; the engine starts a
queued move by taking a free frame and marking the page as moving. The frame taken and the time of the answer are the model's (log entries
19, 23). R362 to R364: a move between frames that no request waits for, when it ends, leaves the page at its new home with every block it
held, its old frame zeroed and free again, and its entry no longer moving. -/
def Obligations.PagesMove : Prop :=
  ((∀ s, Ready s → ∀ (c : CmdId) (h : Nat) (x : Herd) (page port : Nat) (dest : Fin 4), CommandRuns s c h x → s.moves = [] →
    ErrorFree s → s.mergeBuf = [] → page < 2 ^ 26 → dest.val < 3 → port < 24 → eValid (homeEntry s page) = true → eHerd (homeEntry s page) = h →
    (homedAt (homeEntry s page) (destOf dest.val port 0) = true →
      Does (.move c page 1 dest port) s [.ctl, .busyRing, .completions, .fnTurn, .out] fun t => Answered s t c 0 0) ∧
    (homedAt (homeEntry s page) (destOf dest.val port 0) = false → ePinned (homeEntry s page) = false →
      Does (.move c page 1 dest port) s [.ctl, .herd, .moves, .busyRing, .fnTurn, .out] fun t => Fetched s t c ∧
        t.moves = [⟨page, h, destOf dest.val port 0, true, false, 0, false, false, none, none⟩] ∧
        herdOf t h = some { x with mig := some ⟨.host c, 1, 0⟩ })) ∧
  (∀ s, Ready s → ∀ m : PageMove, nextMove s = some m → movesNow s < 16 → fenced s (migPage 0) = false → m.page < 2 ^ 26 →
    eValid (homeEntry s m.page) = true → eShared (homeEntry s m.page) = false ∨ m.explicit_ = true → eHerd (homeEntry s m.page) = m.herd →
    homedAt (homeEntry s m.page) m.dest = false → m.setPinned = false ∨ eFar (homeEntry s m.page) = true → ErrorFree s → s.mergeBuf = [] →
    (∀ n f, m.dest = some n → eFar (homeEntry s m.page) = false ∨ eShared (homeEntry s m.page) = true ∨ quotaRoom s m.herd = true →
      freeFrame s n = some f →
      Does .pageMove s [.ctl, .mem, .moves, .moveTurn] fun t =>
        t.moves = setMove m { m with started := true, far := false, home := f } s.moves ∧ t.moveTurn = m.herd ∧
        homeEntry t m.page = setBit (homeEntry s m.page) 61 true ∧ OtherPages s t m.page ∧
        (0 < freeFrames s → freeFrames t = freeFrames s - 1)) ∧
    (∀ f, m.dest = none → ePinned (homeEntry s m.page) = false ∨ m.explicit_ = true → freeFar s m.herd = some f →
      Does .pageMove s [.ctl, .mem, .moves, .moveTurn] fun t =>
        t.moves = setMove m { m with started := true, far := true, home := f } s.moves ∧ t.moveTurn = m.herd ∧
        homeEntry t m.page = setBit (homeEntry s m.page) 61 true ∧ OtherPages s t m.page))) ∧
  (∀ s, Ready s → ∀ (p : Nat) (m : PageMove), s.moves.find? (fun m => m.started && decide (m.page = p)) = some m → p < 2 ^ 26 →
    m.far = false → m.setPinned = false → m.explicit_ = false → m.after = none → eFar (homeEntry s p) = false →
    eShared (homeEntry s p) = false → eHome (homeEntry s p) < rsvBase s → m.home < rsvBase s → m.home ≠ eHome (homeEntry s p) →
    ErrorFree s → s.mergeBuf = [] →
    Does (.pageMoveDone p) s [.ctl, .mem, .chk, .mergeBuf, .moves, .herd] fun t =>
      eMoving (homeEntry t p) = false ∧ eValid (homeEntry t p) = eValid (homeEntry s p) ∧ eFar (homeEntry t p) = false ∧
      eHome (homeEntry t p) = m.home ∧ OtherPages s t p ∧
      (∀ j < 1024, readBlk t (1024 * m.home + j) = readBlk s (1024 * eHome (homeEntry s p) + j)) ∧
      (∀ a, a / 65536 = eHome (homeEntry s p) → memByte t a = 0) ∧ t.moves = s.moves.erase m)

/-- R371: a write of a herd's floor is stored where the floors and the frames of shared pages fit in the usable frames and the floor covers the
herd's pinned frames; otherwise it is discarded, every floor stays, and PROTOCOL is raised in MIG_ instance 1. -/
def Obligations.HerdFloors : Prop :=
  ∀ s, Ready s → ∀ (h : HerdNo) (v : Word) (others shared : Nat), Takes s (migPage 1 / 4096) →
    others = ((List.range 64).filter (fun g => decide (g ≠ h.val))).foldl (fun a g => a + floorOf s g) 0 →
    shared = ((validPages s).filter (fun p => eShared (homeEntry s p) && !eFar (homeEntry s p))).length →
    (others + fld v 25 0 + shared ≤ rsvBase s → pinnedOf s h.val ≤ fld v 25 0 →
      Does (.migHfloorWrite .ringCtl h v) s [.ctl] fun t => floorOf t h.val = fld v 25 0 ∧ RegsAt [migHerd h.val + 4] s t) ∧
    (rsvBase s < others + fld v 25 0 + shared ∨ fld v 25 0 < pinnedOf s h.val →
      Does (.migHfloorWrite .ringCtl h v) s [.ctl, .dumpRun, .freeCtr] fun t => (∀ g < 64, floorOf t g = floorOf s g) ∧
        bit (rd t (migPage 1 + 0x20)) 3 = true)

/-! ## The memory ports (chapter 13) -/

/-- R391 to R395, R402: once a port's memory is filled, a read returns the block as it reads; of a block without an error it changes no memory;
one that corrects writes the block back where write-back is on, so that it decodes clean and reads as before, and reports CORR; an
uncorrectable one reports its class and changes no memory. Before the fill a read waits. What a read meets in the cells is an operand (log
entry 16). R398 to R402, R407: once a port's memory is filled, a whole-block write is what a later read of the block returns, and no other
block changes; a narrow write waits in the merge buffer, over the block's other bytes, or with all its bytes is written whole; the hold's
end writes the merged block. Before the fill a write waits. -/
def Obligations.PortAccesses : Prop :=
  (∀ s, Ready s → ∀ (n : PortNo) (l b : Nat) (src : Fin 8) (herd : Option HerdNo), b = blkOf n.val l → mergeOf s b = none →
    (portFilled s n.val = false → exec (.mpRead n l src herd []) s = .next s) ∧
    (portFilled s n.val = true →
      (CleanBlk s b → Does (.mpRead n l src herd []) s [.ctl, .out] fun t => RegsOnly [mpPage n.val] s t ∧
        t.out = s.out ++ [.block n.val l (readBlk s b)]) ∧
      (∀ es, poisoned s b = false → verdictAt s (tcorrOf s n.val) (heldAt s b) = .fixed es →
        bit (rd s (mpPage n.val + 0x100)) 3 = true → bit (rd s (mpPage n.val + 0x100)) 4 = false →
        Does (.mpRead n l src herd []) s [.ctl, .mem, .chk, .dumpRun, .freeCtr, .out] fun t =>
          bit (rd t (mpPage n.val + 0x20)) 0 = true ∧ t.out = s.out ++ [.block n.val l (readBlk s b)] ∧ readBlk t b = readBlk s b ∧
          verdictAt t (tcorrOf t n.val) (heldAt t b) = .clean ∧ ∀ a, a / 64 ≠ heldAt s b → memByte t a = memByte s a) ∧
      (decodeBlk s b = none → Does (.mpRead n l src herd []) s [.ctl, .dumpRun, .freeCtr, .out] fun t =>
        bit (rd t (mpPage n.val + 0x20)) (uncorrClass s b).code = true ∧ t.out = s.out ++ [.block n.val l none]))) ∧
  (∀ s, Ready s → ∀ (n : PortNo) (l b : Nat), b = blkOf n.val l →
    (s.mergeBuf.filter (fun m => decide (m.port = blkPort b) && decide (m.lblock = blkLocal b))).length ≤ 1 →
    (portFilled s n.val = false → (∀ data, exec (.mpWrite n l data) s = .next s) ∧ ∀ h data, exec (.narrowWrite n l h data) s = .next s) ∧
    (∀ data, portFilled s n.val = true → data.length = 64 → Does (.mpWrite n l data) s [.ctl, .mem, .chk, .mergeBuf] fun t =>
      readBlk t b = some data ∧ mergeOf t b = none ∧ ∀ a, a / 64 ≠ heldAt s b → memByte t a = memByte s a) ∧
    (∀ h data, portFilled s n.val = true → data.length = 64 → mergeOf s b = none →
      (s.mergeBuf.filter (fun x => decide (x.port = blkPort b))).length < 32 →
      (data.all Option.isSome = false → Does (.narrowWrite n l h data) s [.ctl, .mergeBuf] fun t =>
        t.mergeBuf = s.mergeBuf ++ [⟨blkPort b, blkLocal b, data, h.val, []⟩] ∧ readBlk t b = (decodeBlk s b).map (mergeBytes data)) ∧
      (data.all Option.isSome = true → Does (.narrowWrite n l h data) s [.ctl, .mem, .chk] fun t =>
        readBlk t b = some (data.map (·.getD 0)))) ∧
    (∀ h data m new, portFilled s n.val = true → data.length = 64 → mergeOf s b = some m → m.bytes.length = 64 →
      new = List.zipWith (fun n o => n.orElse (fun _ => o)) data m.bytes →
      (new.all Option.isSome = false → Does (.narrowWrite n l h data) s [.mergeBuf] fun t =>
        readBlk t b = (decodeBlk s b).map (mergeInto { m with bytes := new, herd := h.val,
                                                              bits := m.bits.filter (fun p => (data.getD p.1 none).isNone) })) ∧
      (new.all Option.isSome = true → Does (.narrowWrite n l h data) s [.ctl, .mem, .chk, .mergeBuf] fun t =>
        readBlk t b = some (new.map (·.getD 0)) ∧ mergeOf t b = none)) ∧
    (∀ m old, s.mergeBuf.find? (fun m => decide (m.port = n.val)) = some m → mergeOf s b = some m → decodeBlk s b = some old →
      m.bytes.length = 64 →
      Does (.mergeHoldExpire n) s [.ctl, .mem, .chk, .mergeBuf, .dumpRun, .freeCtr] fun t =>
        mergeOf t b = none ∧ readBlk t b = some (mergeInto m old)))

/-- R402 to R406: a trained port's memory is zero once its fill is done, and the ports' memory elsewhere keeps its bytes; a scrub that finds no
error moves on to the next group; a remap moves a block's contents to its spare, and a remap that the rules refuse changes nothing. R395,
R413 to R415: in test mode, once the port's memory is filled, a command that is not rejected writes the stored data and check symbols it
names, or reads them, or returns the block decoded in the test's own mode with its verdict, and latches; one that is rejected shows code 3
and raises PROTOCOL. What MP_TEST_STAT keeps and which blocks are rejected is the model's reading (log entry 18). -/
def Obligations.PortUpkeepAndTests : Prop :=
  ((∀ s, Ready s → ∀ n : PortNo, fld (rd s (mpPage n.val + 0x10C)) 15 8 = 0xFF → fld (rd s (mpPage n.val + 0x10C)) 1 0 = 2 →
    Does (.fillDone n) s [.ctl, .mem, .chk] fun t => fld (rd t (mpPage n.val + 0x10C)) 1 0 = 1 ∧ bit (rd t (mpPage n.val + 0x20)) 10 = true ∧
      ∀ a, memByte t a = if a / 65536 % 24 = n.val then 0 else memByte s a) ∧
  (∀ s, Ready s → ∀ (n : PortNo) (pos : Nat), bit (rd s (mpPage n.val + 0x104)) 0 = true → inlineOn s = true →
    pos = fld (rd s (mpPage n.val + 0x108)) 22 0 →
    s.mergeBuf = [] → (∀ i < 128, CleanBlk s (1024 * (pos / 8 * 24 + n.val) + (pos % 8 * 8 + i / 16) * 16 + i % 16)) →
    Does (.patrolScrub n []) s [.ctl] fun t => RegsOnly [mpPage n.val] s t ∧
      fld (rd t (mpPage n.val + 0x108)) 22 0 = (if pos + 1 < scrubGroups s then pos + 1 else 0) ∧
      (scrubGroups s ≤ pos + 1 → bit (rd t (mpPage n.val + 0x108)) 31 = true)) ∧
  (∀ s, Ready s → ∀ (n : PortNo) (e : Fin 64) (v : Word), Takes s (mpPage n.val / 4096) →
    (remapRefused s n.val e.val v = false → bit v 31 = true → bit v 30 = false → mergeOf s (blkOf n.val (fld v 29 0)) = none →
      fld (rd s (mpPage n.val + 0x118)) 14 8 < 64 →
      (∀ k : Fin 64, bit (rd s (remapReg n.val k.val)) 31 = true → fld (rd s (remapReg n.val k.val)) 29 0 ≠ fld v 29 0) →
      Does (.mpRemapWrite .ringCtl n e v) s [.ctl, .mem, .chk, .dumpRun, .freeCtr] fun t =>
        remapOf t n.val (fld v 29 0) = some e.val ∧ heldAt t (blkOf n.val (fld v 29 0)) = spareBlk s n.val e.val ∧
        readBlk t (blkOf n.val (fld v 29 0)) = readBlk s (blkOf n.val (fld v 29 0))) ∧
    (remapRefused s n.val e.val v = true → Does (.mpRemapWrite .ringCtl n e v) s [.ctl, .dumpRun, .freeCtr] fun t =>
      rd t (remapReg n.val e.val) = rd s (remapReg n.val e.val) ∧ bit (rd t (mpPage n.val + 0x20)) 3 = true))) ∧
  (∀ s, Ready s → ∀ (n : PortNo) (b q : Nat), Takes s (mpPage n.val / 4096) → bit (rd s (mpPage n.val + 0x120)) 0 = true →
    portZeroed s n.val = true →
    b = blkOf n.val (fld (rd s (mpPage n.val + 0x124)) 29 0) → q = heldAt s b →
    (testRejected s n.val 1 = false → Does (.testWriteGenerated .ringCtl n) s [.ctl, .mem, .chk, .mergeBuf] fun t =>
      rawData t q = testData s n.val ∧ rawCheck t q = rsCheck (testData s n.val) ∧ bit (rd t (mpPage n.val + 0x20)) 11 = true ∧
      ∀ a, a / 64 ≠ q → memByte t a = memByte s a) ∧
    (testRejected s n.val 2 = false → mergeOf s b = none → Does (.testWriteData .ringCtl n) s [.ctl, .mem, .chk] fun t =>
      rawData t q = testData s n.val ∧ rawCheck t q = rawCheck s q ∧ bit (rd t (mpPage n.val + 0x20)) 11 = true) ∧
    (testRejected s n.val 3 = false → mergeOf s b = none → Does (.testWriteCheck .ringCtl n) s [.ctl, .mem, .chk] fun t =>
      rawData t q = rawData s q ∧ rawCheck t q = testChk s n.val ∧ bit (rd t (mpPage n.val + 0x20)) 11 = true) ∧
    (testRejected s n.val 4 = false → Does (.testWriteBoth .ringCtl n) s [.ctl, .mem, .chk, .mergeBuf] fun t =>
      rawData t q = testData s n.val ∧ rawCheck t q = testChk s n.val ∧ bit (rd t (mpPage n.val + 0x20)) 11 = true) ∧
    (testRejected s n.val 5 = false → mergeOf s b = none → Does (.testReadRaw .ringCtl n) s [.ctl] fun t =>
      RegsOnly [mpPage n.val] s t ∧ testData t n.val = rawData s q ∧ testChk t n.val = rawCheck s q ∧
      bit (rd t (mpPage n.val + 0x20)) 11 = true) ∧
    (testRejected s n.val 6 = false → mergeOf s b = none →
      Does (.testReadDecode .ringCtl n) s [.ctl, .dumpRun, .freeCtr, .out] fun t => RegsOnly [mpPage n.val, mgtPage 4] s t ∧
        t.out = s.out ++ [.block n.val (blkLocal b) (testRead s n.val b)] ∧
        rd t (mpPage n.val + 0x12C) = BitVec.ofNat 32 (testStat (testVerdict s n.val b)) ∧
        bit (rd t (mpPage n.val + 0x20)) 11 = true) ∧
    (∀ p ∈ [(1, Instr.testWriteGenerated .ringCtl n), (2, Instr.testWriteData .ringCtl n), (3, Instr.testWriteCheck .ringCtl n),
        (4, Instr.testWriteBoth .ringCtl n), (5, Instr.testReadRaw .ringCtl n), (6, Instr.testReadDecode .ringCtl n)],
      testRejected s n.val p.1 = true → Does p.2 s [.ctl, .dumpRun, .freeCtr] fun t =>
        rd t (mpPage n.val + 0x12C) = 3 ∧ bit (rd t (mpPage n.val + 0x20)) 3 = true))

/-! ## Beads and dumps (chapters 14 and 15) -/

/-- R439, R440, R442, R444 to R447, R569: a source that runs places its boundary; a member places its own by the marker of its tree parent; with
no marker a member places it itself and reports, and a deputy whose lead is lost so becomes the source. Outside a pod a pending period comes
into force at its bead, and setting run is a boundary too. A held bead's hold period begins a fresh cycle count. A pending period that the
rules allow is stored, and any other is refused with PROTOCOL. The measured lag of a marker is an operand (log entry 90). -/
def Obligations.BeadsEnd : Prop :=
  (∀ s, Ready s → isSource s = true → podEn s = false → beadRuns s = true → (beadHeld s = false ∨ inHold s = true) → QuietBoundary s →
    Does .beadBoundary s [.ctl, .side, .bulkOpen, .bulkPend, .bx, .coll, .mc, .dumpRun, .freeCtr, .out] fun t => NextBead s t ∧
      (bit (rd s (beadPage + 0x110)) 31 = true → rd64 s (beadPage + 0x118) = beadNo s + 1 →
        beadPeriod t = fld (rd s (beadPage + 0x110)) 19 0 ∧ bit (rd t (beadPage + 0x110)) 31 = false)) ∧
  (∀ s, Ready s → ∀ v : Word, Takes s 3 → podEn s = false → beadRuns s = false → bit v 0 = true → QuietBoundary s →
    Does (.beadRunStart .ringCtl v) s [.ctl, .side, .bulkOpen, .bulkPend, .bx, .coll, .mc, .dumpRun, .freeCtr, .out] fun t =>
      NextBead s t ∧ rd t (beadPage + 0x120) &&& 0x7F03 = v &&& 0x7F03) ∧
  (∀ s, Ready s → ∀ (k : BxNo) (bead lag : BitVec 16), linkUp s k.val = true → k.val < 6 → podEn s = true → isSource s = false →
    parentPort s (ownPos s) = some k.val → QuietBoundary s →
    Does (.mark ⟨k, true⟩ bead lag false none) s [.ctl, .side, .bulkOpen, .bulkPend, .bx, .coll, .mc, .dumpRun, .freeCtr, .out] fun t =>
      NextBead s t ∧ bit (rd t (beadPage + 0x128)) 2 = false ∧ fld (rd t (beadPage + 0x128)) 11 8 = 0) ∧
  (∀ s, Ready s → podEn s = true → isSource s = false → 4 ≤ fld (rd s (beadPage + 0x128)) 11 8 → QuietBoundary s →
    Does .markerLost s [.ctl, .side, .bulkOpen, .bulkPend, .bx, .coll, .mc, .dumpRun, .freeCtr, .out] fun t =>
      NextBead s t ∧ bit (rd t (beadPage + 0x128)) 2 = true ∧ bit (rd t (beadPage + 0x20)) 4 = true ∧
      bit (rd t (beadPage + 0x20)) 9 = true ∧
      fld (rd t (beadPage + 0x128)) 11 8 = min 15 (fld (rd s (beadPage + 0x128)) 11 8 + 1)) ∧
  (∀ s, Ready s → podEn s = true → isSource s = false → fld (rd s (beadPage + 0x128)) 11 8 = 1 → isDeputy s = true →
    (parentPort s (ownPos s)).any (linkUp s) = false → leadPos s < 64 → QuietBoundary s →
    Does .markerLost s [.ctl, .side, .bulkOpen, .bulkPend, .bx, .coll, .mc, .evQueue, .dumpRun, .freeCtr, .out] fun t =>
      NextBead s t ∧ beadRuns t = true ∧ isSource t = true ∧ isPresent t (leadPos s) = false) ∧
  (∀ s, Ready s → beadHeld s = true → inHold s = false → isSource s = false ∨ beadRuns s = true → Does .beadHoldStart s [.ctl, .bulkOpen] fun t =>
    inHold t = true ∧ beadCyc t = 0 ∧ t.bulkOpen = [] ∧ RegsAt [beadPage + 0x108] s t) ∧
  (∀ s, Ready s → ∀ (v : Word) (p : Nat), Takes s 3 → p = fld v 19 0 → bit v 31 = true →
    (1000 ≤ p → p ≤ 1000000 → fld (rd s (beadPage + 0x124)) 19 0 ≤ p → (beadNo s).toNat + 2 ≤ (rd64 s (beadPage + 0x118)).toNat →
      Does (.beadNextWrite .ringCtl v) s [.ctl] fun t => rd t (beadPage + 0x110) &&& 0x800FFFFF = v &&& 0x800FFFFF ∧ RegsAt [beadPage + 0x110] s t) ∧
    (p < 1000 ∨ 1000000 < p ∨ p < fld (rd s (beadPage + 0x124)) 19 0 ∨ (rd64 s (beadPage + 0x118)).toNat < (beadNo s).toNat + 2 →
      Does (.beadNextWrite .ringCtl v) s [.ctl, .dumpRun, .freeCtr] fun t => rd t (beadPage + 0x110) = rd s (beadPage + 0x110) ∧
        bit (rd t (beadPage + 0x20)) 3 = true))

/-- R472 to R474: a child's report joins what this member has heard; at the deadline the member reports for the children it has not heard and
counts their missing REPORTs; a RESULT with slip 1 holds the bead that began; a HALT symbol for this member pauses or fails the pod herd it
names, or stops and resumes its links. A symbol whose CRC-16 fails changes nothing (R468). R434 to R437: DUMP_GO starts a dump with reason 1
of the herd and kind that it names, and is refused while one runs; the dump's end, which waits until every port has zeroed its memory,
counts it, clears busy and latches. The order of a dump's copy is the model's (log entry 38). -/
def Obligations.BeadExchangeAndDumps : Prop :=
  ((∀ s, Ready s → ∀ (k : BxNo) (bead : BitVec 16) (slip : Bool) (votes : DWord), linkUp s k.val = true → k.val < 6 → podEn s = true →
    s.side.kids.contains k.val = true → s.side.sent = false → bit s.side.reported k.val = false →
    bead.toNat = (beadNo s).toNat % 65536 → (∃ j ∈ s.side.kids, j ≠ k.val ∧ bit s.side.reported j = false) →
    Does (.report ⟨k, true⟩ bead slip votes) s [.side] fun t => t.side = { s.side with
      slip := s.side.slip || slip
      votes := s.side.votes ||| votes
      reported := setBit s.side.reported k.val true
      missed := mPut s.side.missed k.val none }) ∧
  (∀ s, Ready s → ∀ k : Nat, podEn s = true → s.side.sent = false → isRoot s = false → isLead s = false →
    parentPort s (ownPos s) = some k → linkUp s k = true → s.side.kids.all (fun k => bit s.side.reported k) = false →
    Does .reportDeadline s [.side, .out] fun t => t.side = { s.side with
        slip := true
        votes := BitVec.allOnes 64
        missing := true
        sent := true
        missed := (s.side.kids.filter (fun k => !bit s.side.reported k)).foldl (fun m k => mPut m k (some ((mGet m k).getD 0 + 1)))
          s.side.missed } ∧
      t.out = s.out ++ [.symbol k 2 (BitVec.ofNat 16 ((beadNo s).toNat % 65536)) 1 (BitVec.allOnes 64)
        (symbolCrc 2 ((beadNo s).toNat % 65536) 1 (BitVec.allOnes 64))]) ∧
  (∀ s, Ready s → ∀ (k : BxNo) (bead : BitVec 16) (missing : Bool) (votes : DWord), linkUp s k.val = true → k.val < 6 → podEn s = true →
    isRoot s = false → parentPort s (ownPos s) = some k.val → bead.toNat = (beadNo s).toNat % 65536 → s.herd = [] → s.side.closing = [] →
    childPorts s (ownPos s) = [] →
    Does (.result ⟨k, true⟩ bead true missing votes) s [.ctl] (fun t => beadHeld t = true ∧ bit (rd t (beadPage + 0x20)) 8 = true) ∧
    Does (.result ⟨k, true⟩ bead false missing votes) s [.ctl] fun t => beadHeld t = false ∧ RegsAt [beadPage + 0x128] s t) ∧
  (∀ s, Ready s → ∀ (h : HaltSym) (x : Herd), HaltHere s h → herdOf s h.herd.val = some x → x.pod = true →
    Does (.haltPause h) s [.ctl, .core] (fun t => ∀ c ∈ x.sites, c < 1024 →
      (coreState s c = 5 → coreState t c = 6 ∧ bit (rd t (seqPage c + 0x20)) 10 = true) ∧
      (coreState s c = 3 → (coreX t c).pausePend = true)) ∧
    (h.origin.toNat = leadPos s → x.failed = false → Does (.haltFail h) s [.ctl, .core, .herd, .notices] fun t =>
      ∃ y, herdOf t h.herd.val = some y ∧ y.failed = true) ∧
    (h.origin.toNat ≠ leadPos s → exec (.haltFail h) s = .next s)) ∧
  (∀ s, Ready s → ∀ (k : BxNo) (bead lag : BitVec 16) (slip late missing : Bool) (votes : DWord) (p : Option Nat) (h : HaltSym),
    h.crcOk = false → exec (.mark ⟨k, false⟩ bead lag late p) s = .next s ∧ exec (.report ⟨k, false⟩ bead slip votes) s = .next s ∧
      exec (.result ⟨k, false⟩ bead slip missing votes) s = .next s ∧ exec (.haltPause h) s = .next s ∧ exec (.haltFail h) s = .next s ∧
      exec (.haltLinkStop h) s = .next s ∧ exec (.haltLinkResume h) s = .next s) ∧
  (∀ s, Ready s → ∀ h : HaltSym, HaltHere s h → h.origin.toNat = leadPos s →
    Does (.haltLinkStop h) s [.side] (fun t => t.side = { s.side with linkStop := true }) ∧
    Does (.haltLinkResume h) s [.ctl, .bx, .side, .out] fun t => t.side = { s.side with linkStop := false })) ∧
  ((∀ s, Ready s → ∀ v : Word, Takes s 4 → bit v 31 = true → bit (rd s dumpCtl) 30 = false →
    Does (.dumpGo .ringCtl v) s [.ctl, .dumpRun] fun t =>
      t.dumpRun = some ⟨1, fld v 5 0, bit v 8, beadNo s, beadCyc s, none, 0⟩ ∧ bit (rd t dumpCtl) 30 = true ∧ RegsAt [dumpCtl] s t) ∧
  (∀ s, Ready s → ∀ v : Word, Takes s 4 → bit v 31 = true → bit (rd s dumpCtl) 30 = true →
    Does (.dumpGo .ringCtl v) s [.ctl, .freeCtr] fun t => rd t dumpCtl = rd s dumpCtl ∧ bit (rd t (mgtPage 4 + 0x20)) 3 = true) ∧
  (∀ s, Ready s → ∀ d : DumpRun, s.dumpRun = some d → allFilled s = false → exec .dumpEnd s = .next s) ∧
  (∀ s, Ready s → ∀ d : DumpRun, s.dumpRun = some d → d.cmd = none → allFilled s = true →
    Does .dumpEnd s [.ctl, .mem, .chk, .mergeBuf, .dumpRun, .freeCtr] fun t => t.dumpRun = none ∧ bit (rd t dumpCtl) 30 = false ∧
      rd t (mgtPage 4 + 0x104) = rd s (mgtPage 4 + 0x104) + 1 ∧ bit (rd t (mgtPage 4 + 0x20)) 8 = true))

/-! ## Links, frames and collectives (chapter 16) -/

/-- R458, R461, R462, R466 to R468, R499, R500: a torus port that trains announces this side, and comes up only for the partner that BX_NBR
expects, with what it held cleared; it discards that when it goes down, and the collectives on it end with status 0x87; an acknowledgment
empties the replay buffer up to its frame, a replay sends the rest again, of LVC1 to LVC3 not during a link stop; credits return up to the
buffer's size; a symbol whose CRC-16 fails changes nothing; a frame for another member goes on its way, and one of a reserved type is asked
for again; a cable's identity is read from its page 00h when it is plugged and when training starts, and shown while it is plugged. The
layout of the credits, and that the cable's memory reads the same each time, are the model's (log entries 35, 146). -/
def Obligations.LinksRun : Prop :=
  (∀ s, Ready s → ∀ (p : BxNo) (l : BitVec 16) (done rest now : List Frame) (g : Frame), linkUp s p.val = true →
    (bxOf s p.val).replay = done ++ g :: rest → (∀ f ∈ done, f.lseq ≠ l.toNat) → g.lseq = l.toNat →
    ((bxOf s p.val).waiting = [] → Does (.linkAck ⟨p, true⟩ l) s [.bx] fun t =>
      bxOf t p.val = { bxOf s p.val with replay := rest } ∧ ∀ q, q ≠ p.val → bxOf t q = bxOf s q) ∧
    (now = (g :: rest).takeWhile (fun f => decide (f.lvc = 0) || !s.side.linkStop) →
      Does (.linkReplay ⟨p, true⟩ l) s [.ctl, .bx, .out] fun t => t.out = s.out ++ now.map (fun f => .frame p.val f (frameCrc f)) ∧
        RegsOnly [bxPage p.val] s t ∧
        bxOf t p.val = { bxOf s p.val with resend := ((g :: rest).drop now.length).head?.map (·.lseq) })) ∧
  (∀ s, Ready s → ∀ (p : BxNo) (cs : List Nat), linkUp s p.val = true → (bxOf s p.val).waiting = [] →
    Does (.linkCredit ⟨p, true⟩ cs) s [.bx] fun t => (bxOf t p.val).replay = (bxOf s p.val).replay ∧
      (bxOf t p.val).credits.length = (bxOf s p.val).credits.length ∧
      ∀ k < (bxOf s p.val).credits.length, (bxOf t p.val).credits.getD k 0 =
        min ((bxOf s p.val).credits.getD k 0 + cs.getD k 0) (BxPort.clear.credits.getD k 0)) ∧
  (∀ s, Ready s → ∀ (p : BxNo) (l : BitVec 16) (cs : List Nat), exec (.linkAck ⟨p, false⟩ l) s = .next s ∧
    exec (.linkReplay ⟨p, false⟩ l) s = .next s ∧ exec (.linkCredit ⟨p, false⟩ cs) s = .next s) ∧
  (∀ s, Ready s → ∀ (p : BxNo) (w : Word) (delay : BitVec 16), trains s p.val = true → linkUp s p.val = false →
    unconnected s p.val = false → isLead s = false →
    (p.val < 6 → bit (rd s (bxPage p.val + 0x108)) 31 = true ∧ rd s (bxPage p.val + 0x108) = w &&& 0x803FFFFF) →
    Does (.linkUp p w delay) s [.ctl, .bx, .out] fun t => linkUp t p.val = true ∧ bxOf t p.val = BxPort.clear ∧
      rd t (bxPage p.val + 0x10C) = w &&& 0x803FFFFF ∧ fld (rd t (bxPage p.val + 0x110)) 15 0 = delay.toNat ∧
      bit (rd t (bxPage p.val + 0x20)) 8 = true ∧ t.out = s.out ++ [.announce p.val (announcement s)]) ∧
  (∀ s, Ready s → ∀ (p : BxNo) (w : Word) (delay : BitVec 16), trains s p.val = true → linkUp s p.val = false →
    unconnected s p.val = false → p.val < 6 →
    bit (rd s (bxPage p.val + 0x108)) 31 = false ∨ rd s (bxPage p.val + 0x108) ≠ w &&& 0x803FFFFF →
    Does (.linkUp p w delay) s [.ctl, .freeCtr, .out] fun t => linkState t p.val = 4 ∧ bit (rd t (bxPage p.val + 0x20)) 10 = true ∧
      bit (rd t (bxPage p.val + 0x20)) 6 = true ∧ t.out = s.out ++ [.announce p.val (announcement s)]) ∧
  (∀ s, Ready s → ∀ p : BxNo, linkUp s p.val = true →
    Does (.linkDown p) s [.ctl, .bx, .coll, .mc, .freeCtr, .out] fun t => linkState t p.val = b2n (trains s p.val) ∧
      bxOf t p.val = BxPort.clear ∧ bit (rd t (bxPage p.val + 0x20)) 9 = true ∧ (s.mc = [] → t.coll = s.coll.map (fun c =>
        if c.started && (!c.finished || sendsOn s c p.val) && usesPort s c p.val then { c with finished := true, status := 0x87 } else c))) ∧
  (∀ s, Ready s → ∀ (p : BxNo) (v : Word), linkUp s p.val = true → Takes s (bxPage p.val / 4096) → bit v 0 = true → bit v 1 = true →
    unconnected s p.val = false → Does (.linkRetrain .ringCtl p v) s [.ctl, .bx, .coll, .mc, .freeCtr, .out] fun t =>
      linkState t p.val = 1 ∧ bxOf t p.val = BxPort.clear ∧ ∀ c, mGet s.cable p.val = some c → c.readOk = true →
        rd t (bxPage p.val + 0x140) = BitVec.ofNat 32 (0xC0000000 + 65536 * c.length.toNat + 256 * c.media.toNat + c.ident.toNat)) ∧
  (∀ s, Ready s → ∀ (p : BxNo) (ident media length : Byte) (vendor part serial : List Byte),
    Does (.cableInsert p ident media length true vendor part serial) s [.ctl, .cable, .out] (fun t => RegsOnly [bxPage p.val] s t ∧
      t.out = s.out ++ [.pageSelect p.val 0] ∧ mGet t.cable p.val = some ⟨ident, media, length, true, vendor, part, serial⟩ ∧
      rd t (bxPage p.val + 0x140) = BitVec.ofNat 32 (0xC0000000 + 65536 * length.toNat + 256 * media.toNat + ident.toNat) ∧
      bit (rd t (bxPage p.val + 0x20)) 11 = true) ∧
    Does (.cableRemove p) s [.ctl, .cable] fun t => mGet t.cable p.val = none ∧ rd t (bxPage p.val + 0x140) = 0 ∧ bit (rd t (bxPage p.val + 0x20)) 11 = true ∧
      RegsAt [bxPage p.val + 0x140, bxPage p.val + 0x20] s t) ∧
  (∀ s, Ready s → ∀ (f : FrameHdr) (type : BitVec 8) (data : List Byte) (k : Nat) (g : Frame), linkUp s f.port.val = true →
    f.port.val < 6 → podEn s = true → f.crcOk = true → f.lseq.toNat = (bxOf s f.port.val).rxSeq → f.dst.toNat ≠ ownPos s → typeKnown type.toNat = true →
    type ≠ 6 → podPort s (ownPos s) f.dst.toNat = some k → k ≠ f.port.val →
    g = { frameOf f type.toNat data with dl := f.dl || crossesDateline s (ownPos s) k } → maySend s k g = true →
    (bxOf s k).waiting = [] →
    Does (.frameForward f type data) s [.ctl, .bx, .out] fun t => Arrived s t f.port.val ∧
      t.out = s.out ++ [.symbol f.port.val 5 0 0 (BitVec.ofNat 64 f.lseq.toNat) (symbolCrc 5 0 0 (BitVec.ofNat 64 f.lseq.toNat)),
        .symbol f.port.val 5 0 2 (creditData (lvcOf type.toNat) (32 + data.length))
          (symbolCrc 5 0 2 (creditData (lvcOf type.toNat) (32 + data.length))),
        .frame k { g with lseq := (bxOf s k).txSeq } (frameCrc { g with lseq := (bxOf s k).txSeq })]) ∧
  (∀ s, Ready s → ∀ (f : FrameHdr) (type : BitVec 8) (data : List Byte), linkUp s f.port.val = true → typeKnown type.toNat = false →
    (bxOf s f.port.val).asked = false →
    Does (.frameForward f type data) s [.bx, .out] fun t => bxOf t f.port.val = { bxOf s f.port.val with asked := true } ∧
      t.out = s.out ++ [.symbol f.port.val 5 0 1 (BitVec.ofNat 64 (bxOf s f.port.val).rxSeq)
        (symbolCrc 5 0 1 (BitVec.ofNat 64 (bxOf s f.port.val).rxSeq))])

/-- R449, R461, R476 to R482, R532, R563, R626: a frame for this member in order is taken, and has its effect: PERIOD, JOIN, MDOWN, a FLAG's
packets to the herd's cores, HRESUME, WR, and HCMD and HCPL with the lead's timeout; a JOIN from any but the lead or its deputy is refused;
the lead that declares a member failed tells the pod, and orders a ready spare into its place. The joining of members, the detection of a
failed one and the status after a timeout are the model's (log entries 88, 91, 109). -/
def Obligations.FramesTaken : Prop :=
  (∀ s, Ready s → ∀ f : FrameHdr, FrameHere s f →
    (∀ (value : Nat) (b : DWord), fromSource f s = true → 1000 ≤ value → value ≤ 1000000 →
      fld (rd s (beadPage + 0x124)) 19 0 ≤ value → (beadNo s).toNat + 2 ≤ b.toNat →
      Does (.period f value b) s [.ctl, .bx, .out] fun t => Arrived s t f.port.val ∧ rd64 t (beadPage + 0x118) = b ∧
        fld (rd t (beadPage + 0x110)) 19 0 = value ∧ bit (rd t (beadPage + 0x110)) 31 = true) ∧
    (∀ b : DWord, (fromSource f s = true → Does (.join f b) s [.ctl, .bx, .side, .out] fun t => Arrived s t f.port.val ∧
        t.side = { s.side with joinBead := some b }) ∧
      (fromSource f s = false → Does (.join f b) s [.ctl, .bx, .freeCtr, .out] fun t => Arrived s t f.port.val ∧
        bit (rd t (bxPage f.port.val + 0x20)) 6 = true)) ∧
    (∀ q : BitVec 6, fromSource f s = true → Does (.mdown f q) s [.ctl, .bx, .out] fun t => Arrived s t f.port.val ∧
      isPresent t q.toNat = false ∧ ∀ p < 64, p ≠ q.toNat → isPresent t p = isPresent s p) ∧
    (∀ (i : BitVec 8) (x : Herd), fromLead f s = true → isLead s = false → herdOf s f.herd.val = some x → x.pod = true →
      Does (.flag f i true) s [.ctl, .packets, .bx, .out] (fun t => Arrived s t f.port.val ∧
        t.packets = s.packets ++ flagPackets s (.bx f.port.val) f.herd.val i.toNat 0) ∧
      Does (.flag f i false) s [.ctl, .packets, .bx, .out] fun t => Arrived s t f.port.val ∧
        t.packets = s.packets ++ flagPackets s (.bx f.port.val) f.herd.val i.toNat 1) ∧
    (∀ (b : DWord) (x : Herd), fromLead f s = true → herdOf s f.herd.val = some x → x.pod = true → (beadNo s).toNat < b.toNat →
      Does (.hresume f b) s [.ctl, .core, .herd, .bx, .freeCtr, .out] fun t => Arrived s t f.port.val ∧
        herdOf t f.herd.val = some { x with faultBead := none } ∧
        ∀ c ∈ x.sites, c < 1024 → coreState s c = 6 → coreState t c = 2 ∧ startBead t c = b) ∧
    (∀ (data : List Byte) (g b : Nat), (bxOf s f.port.val).held = [] → f.poison = false → data.length = 64 → f.addr.toNat % 64 = 0 →
      judge s f.herd.val (f.addr.toNat / 65536) true = .frame g → b = 1024 * g + f.addr.toNat / 64 % 1024 → mergeOf s b = none →
      entryClean s (f.addr.toNat / 65536) = true → Does (.wr f data) s [.ctl, .mem, .chk, .mergeBuf, .touched, .bx, .out] fun t => Arrived s t f.port.val ∧
        readBlk t b = some data ∧ ∀ a, a / 64 ≠ heldAt s b → memByte t a = memByte s a) ∧
    (∀ (htag : BitVec 16) (part : BitVec 8) (last : Bool) (ps : List Byte) (x : Herd), (bxOf s f.port.val).held = [] → fromLead f s = true → isLead s = false →
      herdOf s f.herd.val = some x → x.failed = false →
      Does (.hcmd f htag part last 5 ps []) s [.ctl, .core, .bx, .out] fun t => Arrived s t f.port.val ∧
        ∀ c ∈ x.sites, (coreState s c = 3 → (coreX t c).stopPend = true) ∧ (coreState s c = 5 → (coreX t c).halting = some 0xFF)) ∧
    (∀ (htag : BitVec 16) (st part : BitVec 8) (count : Word) (result : DWord) (record : List Byte) (o : HcmdOut), isLead s = true →
      htag ≠ 0xFFFF → s.hcmd = [o] → o.htag = htag.toNat → f.src.toNat ≠ ownPos s → o.opcode ≠ 1 → o.opcode ≠ 3 → o.opcode ≠ 0x24 →
      (∀ q : Nat, q ≠ f.src.toNat → o.waiting = [f.src.toNat, q] →
        Does (.hcpl f htag st part count result record) s [.ctl, .bx, .hcmd, .out] fun t => Arrived s t f.port.val ∧
          t.hcmd = [{ o with
            waiting := [q]
            applied := o.applied + count.toNat
            status := laterStatus o st.toNat }]) ∧
      (∀ c : CmdId, o.opcode ≠ 6 → o.opcode ≠ 9 → o.waiting = [f.src.toNat] → o.parts = [] → o.cmd = some c → o.status = 0 →
        Does (.hcpl f htag st part count result record) s [.ctl, .bx, .hcmd, .completions, .out] fun t => Arrived s t f.port.val ∧
          t.hcmd = [] ∧ t.completions = s.completions ++ [⟨c.fn, c.ring, c.tag, st, o.result⟩]))) ∧
  (∀ s, Ready s → ∀ (htag : BitVec 16) (o : HcmdOut) (q : Nat) (c : CmdId), s.hcmd = [o] → o.htag = htag.toNat → o.waiting = [q] →
    q ≠ ownPos s → o.parts = [] → o.cmd = some c → o.opcode ≠ 1 → o.opcode ≠ 3 → o.opcode ≠ 6 → o.opcode ≠ 9 → o.opcode ≠ 0x24 →
    Does (.hcmdTimeout htag) s [.hcmd, .completions] fun t => t.hcmd = [] ∧
      t.completions = s.completions ++ [⟨c.fn, c.ring, c.tag, 5, o.result⟩]) ∧
  (∀ s, Ready s → ∀ q : BitVec 6, isLead s = true → isPresent s q.toNat = true → q.toNat ≠ ownPos s → s.herd = [] → s.hcmd = [] →
    s.spares.filling = [] → s.spares.fullRestore = false → s.evQueue = [] →
    (∀ p < 64, isPresent (after (memberGone q.toNat) s) p = true → p ≠ rootPos (after (memberGone q.toNat) s) →
      parentPort (after (memberGone q.toNat) s) p ≠ none) →
    (s.spares.last = [] → Does (.memberFailDeclare q) s [.ctl, .bx, .spares, .evQueue, .out] fun t => isPresent t q.toNat = false ∧
      t.evQueue = [⟨0xF1, none, [1, q.setWidth 8]⟩]) ∧
    (∀ k < 4, s.spares.last = [(k, 0)] → Does (.memberFailDeclare q) s [.ctl, .bx, .spares, .evQueue, .freeCtr, .out] fun t =>
      isPresent t q.toNat = false ∧ bit (rd t (snapPage + 0x20)) 12 = true ∧
      t.spares = { s.spares with
        failedPos := q.toNat :: s.spares.failedPos
        filling := [(k, q.toNat)] }))

/-- R483 to R497: a collective descriptor is taken in its turn, and ends at once where a peer has aborted it; each kind starts once: the passes
with their first one, a send whole, a multicast with its requests; partial sums and gathered values join what this member holds; a
multicast's requests are granted while the buffer holds their bytes, and its data, its release and its ends are counted; a collective that
has ended leaves the engine, one without a fault once its frames are acknowledged, and one with a fault halts its ring. The split of a
ring's elements, the aborts of a multicast, the bytes that an MREQ names, an ABORT for a collective that has ended and the wait for the
acknowledgments are the model's reading (log entries 36, 37, 147, 148, 149). -/
def Obligations.CollectivesRun : Prop :=
  (∀ s, Ready s → ∀ (h : HerdNo) (ws : List Word), ringMatch s 24 h.val = some ws → podEn s = true → ringRuns s 24 h.val = true →
    fenced s (bxPage 0) = false → s.coll.length < 8 → (∀ c ∈ s.coll, c.herd = h.val → c.started = true) →
    ∀ c : Collective, c = ⟨h.val, ws, ringEntry s 24 h.val, false, none, [], 0, false, 0, 0, 0, [], [], false, false, 0⟩ →
    Does (.collectiveTake h) s [.ctl, .mem, .chk, .touched, .mergeBuf, .coll, .ringFail, .aborts, .dumpRun, .freeCtr] fun t =>
      ringHead t 24 h.val = (ringHead s 24 h.val + 1) % 2 ^ 32 ∧ mGet t.ringFail (64 * 24 + h.val) = none ∧
      t.coll = s.coll ++ [if (h.val, cCid c) ∈ s.aborts then { c with started := true, finished := true, status := 0x86 } else c]) ∧
  (∀ s, Ready s → ∀ (h : HerdNo) (c d : Collective) (p : Bool × Nat) (bs : List Byte) (k n : Nat), NoneHeld s → toStart s h.val k = some c → cBad s c = false →
    bit (cW c 1) 7 = false → bit (cW c 1) 8 = false → bit (cW c 1) 9 = false → collOf s h.val (cCid c) = none → c.finished = false →
    c.pass = 0 → c.passOn = false → (cPasses c)[0]? = some p →
    joinReads ((cReads s { c with elems := none }).map (fun j => collRead s h.val (cSrc c + 4 * j) 4)) = .ok bs →
    d = { c with
      elems := none
      started := true
      vals := ((cReads s { c with elems := none }).zip (leWords (cReads s { c with elems := none }).length bs)).foldl
        (fun m q => mPut m q.1 (some q.2)) [] } →
    0 < expected s d p →
    n = c.sent + (firstFrames s d p).foldl (fun a f => a + (wireWords d f.2.data).length) 0 →
    (k = 0 → Does (.reduceScatter h) s [.ctl, .mem, .chk, .touched, .mergeBuf, .bx, .coll, .dumpRun, .freeCtr, .out] fun t =>
      CollIs s t c { d with passOn := true, got := 0, sent := n }) ∧
    (k = 1 → Does (.allReduce h) s [.ctl, .mem, .chk, .touched, .mergeBuf, .bx, .coll, .dumpRun, .freeCtr, .out] fun t =>
      CollIs s t c { d with passOn := true, got := 0, sent := n }) ∧
    (k = 2 → Does (.allGather h) s [.ctl, .mem, .chk, .touched, .mergeBuf, .bx, .coll, .dumpRun, .freeCtr, .out] fun t =>
      CollIs s t c { d with passOn := true, got := 0, sent := n }) ∧
    (k = 3 → Does (.broadcast h) s [.ctl, .mem, .chk, .touched, .mergeBuf, .bx, .coll, .dumpRun, .freeCtr, .out] fun t =>
      CollIs s t c { d with passOn := true, got := 0, sent := n }) ∧
    (k = 4 → Does (.reduce h) s [.ctl, .mem, .chk, .touched, .mergeBuf, .bx, .coll, .dumpRun, .freeCtr, .out] fun t =>
      CollIs s t c { d with passOn := true, got := 0, sent := n })) ∧
  (∀ s, Ready s → ∀ (h : HerdNo) (c : Collective) (bs : List Byte), toStart s h.val 5 = some c → cBad s c = false →
    collRead s h.val (cSrc c) (cCount c) = .ok bs → cRoot c ≠ ownPos s →
    Does (.send h) s [.ctl, .mem, .chk, .touched, .mergeBuf, .bx, .coll, .dumpRun, .freeCtr, .out] fun t => CollIs s t c { c with
      started := true
      finished := true
      status := 0
      sent := bs.length
      recvd := 0 }) ∧
  (∀ s, Ready s → ∀ (h : HerdNo) (c : Collective),
    s.coll.find? (fun c => decide (c.herd = h.val) && !c.started && !c.finished) = some c → cKind c = 6 → cBad s c = false →
    bulkIsOpen s = true → (cTargets c).contains (ownPos s) = false →
    Does (.multicast h) s [.ctl, .bx, .coll, .out] fun t => CollIs s t c { c with started := true, grants := [] }) ∧
  (∀ s, Ready s → ∀ (h : HerdNo) (c : Collective) (bs : List Byte),
    s.coll.find? (fun c => decide (c.herd = h.val) && decide (cKind c = 6) && c.started && !c.finished && !c.dataSent &&
      (cTargets c).all (fun t => c.grants.contains t)) = some c →
    mcWaits s h.val (ownPos s) (cCid c) (cDst c) = false →
    collRead s h.val (cSrc c) (cCount c) = .ok bs → (cTargets c).contains (ownPos s) = false → cTargets c ≠ [] →
    Does (.multicastSend h) s [.ctl, .mem, .chk, .touched, .mergeBuf, .bx, .coll, .dumpRun, .freeCtr, .out] fun t =>
      CollIs s t c { c with dataSent := true, sent := bs.length, finished := false, status := 0 }) ∧
  (∀ s, Ready s → ∀ f : FrameHdr, FrameHere s f →
    (∀ n : Word, s.mc = [] → n.toNat ≤ 1048576 → f.src.toNat ≠ ownPos s → Does (.mreq ⟨f, n⟩) s [.ctl, .bx, .mc, .out] fun t =>
      Arrived s t f.port.val ∧ t.mc = [⟨f.src.toNat, f.cid.toNat, f.herd.val, n.toNat, true, []⟩]) ∧
    (∀ g : McGrant, s.mc = [g] → isRequest f.herd.val f.src.toNat f.cid.toNat g = true →
      Does (.mrel f) s [.ctl, .bx, .mc, .out] fun t => Arrived s t f.port.val ∧ t.mc = []) ∧
    (∀ (g : McGrant) (data : List Byte), (bxOf s f.port.val).held = [] → s.mc = [g] →
      isRequest f.herd.val f.src.toNat f.cid.toNat g = true → g.granted = true → f.poison = false →
      mcWaits s f.herd.val f.src.toNat f.cid.toNat (mcdDst f) = false → podPort s (ownPos s) f.dst.toNat = none →
      (data.zipIdx.foldl (fun m q => mPut m (f.offset.toNat + q.2) (some q.1)) g.data).length < g.count →
      Does (.mcd f data) s [.ctl, .bx, .mc, .out] fun t => Arrived s t f.port.val ∧
        t.mc = [{ g with data := data.zipIdx.foldl (fun m q => mPut m (f.offset.toNat + q.2) (some q.1)) g.data }]) ∧
    (s.mc = [] → Does (.abort f) s [.ctl, .bx, .coll, .aborts, .out] fun t => Arrived s t f.port.val ∧
      (f.kind ≠ 6 → (∀ c ∈ s.coll, (c.herd, cCid c) ≠ (f.herd.val, f.cid.toNat)) → (f.herd.val, f.cid.toNat) ∉ s.ended →
        (f.herd.val, f.cid.toNat) ∈ t.aborts) ∧ t.coll = s.coll.map (fun c =>
      if c.herd = f.herd.val ∧ cCid c = f.cid.toNat ∧ c.finished = false then
        { c with started := true, finished := true, status := 0x86 } else c)) ∧
    (∀ c : Collective, collOf s f.herd.val f.cid.toNat = some c →
      (cKind c = 6 → c.grants.contains f.src.toNat = false → Does (.mgnt f) s [.ctl, .bx, .coll, .out] fun t =>
        Arrived s t f.port.val ∧ CollIs s t c { c with grants := c.grants ++ [f.src.toNat] }) ∧
      (cKind c = 6 → c.dataSent = true → c.donePos.contains f.src.toNat = false → Does (.mdone f) s [.ctl, .bx, .coll, .out] fun t =>
        Arrived s t f.port.val ∧ CollIs s t c { c with
          donePos := c.donePos ++ [f.src.toNat]
          finished := (cTargets c).all (fun q => (c.donePos ++ [f.src.toNat]).contains q)
          status := 0 }) ∧
      (∀ (data : List Byte) (i j : Nat) (vs : List Word), NoneHeld s → f.pass.toNat = c.pass → c.passOn = true → f.kind.toNat = cKind c → f.count = 0 →
        f.poison = false → bit (cW c 1) 8 = false → j = (regionAt s c i).1 + f.offset.toNat → vs = wireWords c data →
        ((cPasses c)[c.pass]? = some (false, i) → (pieceOf s c i j).1 = cOwn s c i → c.got + vs.length < expected s c (false, i) →
          Does (.redFrame f data) s [.ctl, .bx, .coll, .out] fun t => Arrived s t f.port.val ∧
            CollIs s t c (putVals { c with got := c.got + vs.length } j (vs.zipIdx.map fun x => addF x.1 (cVal c (j + x.2))))) ∧
        ((cPasses c)[c.pass]? = some (true, i) → stepIn (cRing s c i) (cOwn s c i) (pieceOf s c i j).2 = (pieceOf s c i j).1 →
          c.got + vs.length < expected s c (true, i) →
          Does (.gat f data) s [.ctl, .bx, .coll, .out] fun t => Arrived s t f.port.val ∧
            CollIs s t c (putVals { c with got := c.got + vs.length } j vs))))) ∧
  (∀ s, Ready s → ∀ (h : HerdNo) (c : Collective) (st : BitVec 8),
    s.coll.find? (fun c => decide (c.herd = h.val) && c.finished) = some c →
    engWriteJudge s h.val ((joinWords (cW c 10) (cW c 11)).toNat / 16 * 16) 16 none ≠ .wait →
    ((∃ bs, endStatus s c = .ok bs) → (∀ p < 6, sendsOn s c p = false) → Does (.collectiveEnd h 0)
      s [.ctl, .mem, .chk, .farMem, .packets, .touched, .mergeBuf, .coll, .ended, .dumpRun, .freeCtr, .out] fun t =>
        t.coll = s.coll.filter (fun x => decide (x ≠ c)) ∧ t.ended = ((h.val, cCid c) :: s.ended).take 8) ∧
    ((∃ bs, endStatus s c = .ok bs) → (∃ p < 6, sendsOn s c p = true) → exec (.collectiveEnd h 0) s = .next s) ∧
    (endStatus s c = .bad st.toNat → 0x80 ≤ st.toNat → Does (.collectiveEnd h st)
      s [.ctl, .mem, .chk, .farMem, .packets, .touched, .mergeBuf, .bx, .coll, .ended, .dumpRun, .freeCtr, .out] fun t =>
        t.coll = s.coll.filter (fun x => decide (x ≠ c)) ∧ bit (rd t (ringAddr 24 h.val + 4)) 30 = true ∧
        rd t (ringAddr 24 h.val + 12) = BitVec.ofNat 32 st.toNat ∧ bit (rd t (bxPage 0 + 0x20)) 13 = true))

/-! ## Host ports, functions and rings (chapter 17) -/

/-- R14, R503, R508 to R513, R515, R526: a 32-bit write at a doorbell's offset in BAR4 moves an enabled ring's tail unless it would overrun the
ring, and no other write there has an effect; setting en starts a ring at 0 and clearing it touches nothing else; NOP, read from its ring in
its function's turn, completes with status 0, and an entry with a reserved field with status 2; an owed completion or notice is written at
its ring's tail while the ring has space, in its host port's turn. That a notice waits for its ring, and what counts as a FLIT of a turn,
are the model's choice (log entries 58, 150). -/
def Obligations.RingsOfFunctions : Prop :=
  (∀ s, Ready s → ∀ (f : FnNo) (k : Nat) (off : BitVec 16) (t : Word) (data : List (Option Byte)), fnExists s f.val = true →
    off.toNat = 64 * k → data = (leBytes 4 t.toNat).map some →
    (k < 16 → bit (rd s (crBase f.val k + 8)) 31 = true →
      (diff16 (fld t 15 0) (crHead s f.val k) ≤ crSize s f.val k → Does (.doorbell f off data) s [.ctl] fun u =>
        crTail u f.val k = fld t 15 0 ∧ crHead u f.val k = crHead s f.val k ∧ RegsAt [crBase f.val k + 0x14] s u) ∧
      (crSize s f.val k < diff16 (fld t 15 0) (crHead s f.val k) → Does (.doorbell f off data) s [.ctl, .freeCtr] fun u =>
        crTail u f.val k = crTail s f.val k ∧ bit (rd u (fnPageOf f.val + 0x20)) 3 = true)) ∧
    (16 ≤ k ∨ bit (rd s (crBase f.val k + 8)) 31 = false → exec (.doorbell f off data) s = .next s)) ∧
  (∀ s, Ready s → ∀ (f : FnNo) (off : BitVec 16) (data : List (Option Byte)), off.toNat % 64 ≠ 0 ∨ data.length ≠ 4 →
    exec (.doorbell f off data) s = .next s) ∧
  (∀ s, Ready s → ∀ (f : FnNo) (k : Fin 16) (v : Word), Takes s (fnPageOf f.val / 4096) →
    (bit (rd s (crBase f.val k.val + 8)) 31 = false → Does (.ringEnable .ringCtl f (some k) v) s [.ctl, .phase] fun t =>
      bit (rd t (crBase f.val k.val + 8)) 31 = true ∧ fld (rd t (crBase f.val k.val + 8)) 19 16 = fld v 19 16 ∧
      crHead t f.val k.val = 0 ∧ crTail t f.val k.val = 0 ∧ phaseOf t f.val k.val = true ∧
      RegsAt [crBase f.val k.val + 8, crBase f.val k.val + 0x14, crBase f.val k.val + 0x18, crBase f.val k.val + 0x1C] s t) ∧
    Does (.ringDisable .ringCtl f (some k) v) s [.ctl] (fun t => bit (rd t (crBase f.val k.val + 8)) 31 = false ∧
      RegsAt [crBase f.val k.val + 8] s t) ∧
    Does (.ringDisable .ringCtl f none v) s [.ctl] fun t => bit (rd t (fnPageOf f.val + 0x118)) 31 = false ∧
      RegsAt [fnPageOf f.val + 0x118] s t) ∧
  (∀ s, Ready s → ∀ c : CmdId, ringReady s c = true → Does (.nopCommand c) s [.ctl, .busyRing, .completions, .fnTurn, .out] fun t =>
    Answered s t c (if c.reserved then 2 else 0) 0 ∧ RegsAt [crBase c.fn.val c.ring.val + 0x14] s t) ∧
  (∀ s, Ready s → ∀ c : CmdId, ringReady s c = false → exec (.nopCommand c) s = .next s) ∧
  (∀ s, Ready s → ∀ (f : FnNo) (k : Fin 16) (c : Completion) (tail : Nat),
    s.completions.find? (fun c => decide (c.fn = f) && decide (c.ring = k)) = some c →
    tail = fld (rd s (crBase f.val k.val + 0x1C)) 15 0 →
    (diff16 tail (fld (rd s (crBase f.val k.val + 0x18)) 15 0) ≠ crSize s f.val k.val → hpMay s (f.val / 16) = true →
      Does (.completionWrite f k) s [.ctl, .busyRing, .phase, .completions, .hpTurn, .hpUsed, .out] fun t => t.completions = s.completions.erase c ∧
        mGet t.busyRing (16 * f.val + k.val) = none ∧ fld (rd t (crBase f.val k.val + 0x1C)) 15 0 = (tail + 1) % 65536 ∧
        ∃ outs, t.out = s.out ++ .hostWrite f ((rd64 s (crBase f.val k.val + 0xC)).toNat + 16 * (tail % crSize s f.val k.val))
          (leBytes 4 (c.tag.toNat + c.status.toNat * 65536 + 0x80000000 * b2n (phaseOf s f.val k.val)) ++
            leBytes 4 (crHead s f.val k.val) ++ leBytes 8 c.result.toNat) :: outs) ∧
    (diff16 tail (fld (rd s (crBase f.val k.val + 0x18)) 15 0) = crSize s f.val k.val ∨ hpMay s (f.val / 16) = false → exec (.completionWrite f k) s = .next s)) ∧
  (∀ s, Ready s → ∀ (f : FnNo) (n : Notice) (tail : Nat), s.notices.find? (fun n => decide (n.fn = f)) = some n →
    fnExists s f.val = true → bit (rd s (fnPageOf f.val + 0x118)) 31 = true → noticeFull s f.val = false →
    hpMay s (f.val / 16) = true → tail = fld (rd s (fnPageOf f.val + 0x120)) 15 0 →
    Does (.noticeWrite f) s [.ctl, .phase, .notices, .hpTurn, .hpUsed, .out] fun t => t.notices = s.notices.erase n ∧
      fld (rd t (fnPageOf f.val + 0x120)) 15 0 = (tail + 1) % 65536 ∧ bit (rd t (fnPageOf f.val + 0x20)) 8 = true ∧
      ∃ outs, t.out = s.out ++ .hostWrite f ((rd64 s (fnPageOf f.val + 0x110)).toNat +
          32 * (tail % ringSize (rd s (fnPageOf f.val + 0x118))))
        (leBytes 4 (n.kind.toNat + n.herd % 64 * 256 + n.reason.toNat * 65536 + 0x80000000 * b2n (phaseOf s f.val 16)) ++
          leBytes 4 0 ++ leBytes 8 n.bead.toNat ++ (n.detail ++ List.replicate 16 0).take 16) :: outs)

/-- R12, R356, R357, R502 to R506, R532, R592: a BAR2 base is taken where the size divides it; BAR2 reads answer the herd's memory and BAR2
writes reach the pages it may write; a Function Level Reset returns the function's rings and registers to reset and destroys its herd;
virtual functions come and go with VF Enable; a host port that goes down loses its functions and reports; it comes up once released. What a
link-down does to VF Enable is presumed (log entry 97). -/
def Obligations.FunctionsAndPorts : Prop :=
  (∀ s, Ready s → ∀ (f : FnNo) (lo hi : Word) (b : DWord), Takes s (fnPageOf f.val / 4096) →
    b = joinWords (lo &&& 0xC0000000) (hi &&& 0x3FF) →
    (b.toNat % 2 ^ bar2LogOf s f.val = 0 → Does (.bar2BaseWrite .ringCtl f (some lo) (some hi)) s [.ctl] fun t =>
      bar2Base t f.val = b.toNat ∧ RegsAt [fnPageOf f.val + 0x108, fnPageOf f.val + 0x10C] s t) ∧
    (b.toNat % 2 ^ bar2LogOf s f.val ≠ 0 → Does (.bar2BaseWrite .ringCtl f (some lo) (some hi)) s [.ctl, .freeCtr] fun t =>
      bar2Base t f.val = bar2Base s f.val ∧ bit (rd t (fnPageOf f.val + 0x20)) 3 = true)) ∧
  (∀ s, Ready s → ∀ (f : FnNo) (lg : Nat), fnExists s f.val = true → 30 ≤ lg → lg ≤ 41 →
    Does (.bar2Resize f lg) s [.ctl, .bar2Log] fun t => bar2LogOf t f.val = lg ∧
      bar2Base t f.val = bar2Base s f.val / 2 ^ lg * 2 ^ lg ∧ RegsAt [fnPageOf f.val + 0x108, fnPageOf f.val + 0x10C] s t) ∧
  (∀ s, Ready s → ∀ (f : FnNo) (off len : Nat), fnExists s f.val = true → off + len ≤ 2 ^ bar2LogOf s f.val →
    bar2Waits s f off len false = false →
    Does (.bar2Read f off len) s [.ctl, .mem, .chk, .touched, .mergeBuf, .dumpRun, .freeCtr, .out] fun t =>
      t.out = s.out ++ [.readData (some (.fn f)) (bar2Data s f off len)]) ∧
  (∀ s, Ready s → ∀ (f : FnNo) (off h g b : Nat) (data : List Byte), fnExists s f.val = true → off + 64 ≤ 2 ^ bar2LogOf s f.val →
    herdOfFn s f = some h → data.length = 64 → (bar2Base s f.val + off) % 64 = 0 →
    judge s h ((bar2Base s f.val + off) / 65536) true = .frame g → entryClean s ((bar2Base s f.val + off) / 65536) = true → b = 1024 * g + (bar2Base s f.val + off) / 64 % 1024 →
    mergeOf s b = none →
    Does (.bar2Write f off (data.map some)) s [.ctl, .mem, .chk, .mergeBuf, .touched] fun t =>
      readBlk t b = some data ∧ ∀ a, a / 64 ≠ heldAt s b → memByte t a = memByte s a) ∧
  (∀ s, Ready s → ∀ f : FnNo, fnExists s f.val = true →
    (herdOfFn s f = none → Does (.functionLevelReset f) s [.ctl, .busyRing, .phase, .completions, .notices, .hcmd] fun t =>
      (∀ a, fnPageOf f.val + 0x108 ≤ a → a < fnPageOf f.val + 0x1000 →
        rd t a = (rd s a &&& stickyMask a) ||| (resetWord a &&& ~~~stickyMask a)) ∧
      rd t (fnPageOf f.val + 0x100) = (if fnReleasing s f then rd s (fnPageOf f.val + 0x100) else 0) ∧
      (∀ a, a ≠ fnPageOf f.val + 0x100 → a < fnPageOf f.val + 0x108 ∨ fnPageOf f.val + 0x1000 ≤ a → rd t a = rd s a) ∧
      t.completions = s.completions.filter (fun c => decide (c.fn ≠ f)) ∧ t.notices = s.notices.filter (fun n => decide (n.fn ≠ f)) ∧
      ∀ k < 16, mGet t.busyRing (16 * f.val + k) = none) ∧
    (∀ h, herdOfFn s f = some h → Does (.functionLevelReset f) s [.ctl, .store, .rod, .storeBad, .rodBad, .vreg, .acc, .core, .mem, .chk, .farMem, .merges,
      .desc, .evalDue, .herd, .extent, .ssetOwner, .moves, .touched, .mergeBuf, .bx, .hcmd, .htag, .coll, .mc, .busyRing, .phase,
      .completions, .notices, .snap, .dumpRun, .freeCtr, .out] fun t => herdOf t h = none ∧ ∀ c ∈ t.completions, c.fn ≠ f)) ∧
  (∀ s, Ready s → ∀ (k : HpNo) (n : Nat), k.val < hpPorts s → 0 < n → n ≤ 15 → mGet s.numVfs k.val = none →
    Does (.vfEnableSet k n) s [.numVfs] fun t => ∀ v, 1 ≤ v → v ≤ 15 → (fnExists t (16 * k.val + v) = true ↔ v ≤ n)) ∧
  (∀ s, Ready s → ∀ k : HpNo, (∀ v, 1 ≤ v → v < 16 → herdOfFn s (fnOf k v) = none) →
    Does (.vfEnableClear k) s [.ctl, .numVfs, .busyRing, .phase, .completions, .notices, .hcmd] fun t =>
      mGet t.numVfs k.val = none ∧ ∀ v, 1 ≤ v → v ≤ 15 → fnExists t (16 * k.val + v) = false) ∧
  (∀ s, Ready s → ∀ k : HpNo, k.val < hpPorts s → (∀ v, v < 16 → herdOfFn s (fnOf k v) = none) → s.extent = [] →
    Does (.hostPortReset k) s [.ctl, .numVfs, .bar2Log, .busyRing, .phase, .completions, .notices, .hcmd] fun t =>
      hostUp t k.val = false ∧ mGet t.numVfs k.val = none ∧ (∀ v < 16, bar2LogOf t (16 * k.val + v) = 36) ∧
      t.notices.getLast? = some ⟨fnOf k 0, 4, 0, 0, beadNo s, []⟩) ∧
  (∀ s, Ready s → ∀ k : HpNo, k.val < hpPorts s → s.perst.contains k.val = false →
    exec (.perstRelease k) s = .next { s with perst := k.val :: s.perst }) ∧
  (∀ s, Ready s → ∀ (k : HpNo) (width : Nat) (speed : BitVec 3) (flit : Bool), k.val < hpPorts s → s.perst.contains k.val = true →
    hostUp s k.val = false → width ∈ [1, 2, 4, 8, 16] → width ≤ hpLanes s → speed ≠ 0 → speed ≠ 7 →
    flit = true ∨ speed ≠ 6 →
    Does (.hostLinkUp k width speed flit) s [.ctl] fun t => hostUp t k.val = true ∧ fld (rd t (hpPage k.val + 0x100)) 13 8 = width +
      32 * b2n flit ∧ fld (rd t (hpPage k.val + 0x100)) 6 4 = speed.toNat ∧ RegsAt [hpPage k.val + 0x100] s t)

/-! ## Herds (chapters 17 and 18) -/

/-- R505, R515, R519, R523, R525: HERD_CREATE takes the lowest free herd number, the first free cores and the lowest free group and program
ranges, and is refused while the function owns a herd; a herd whose cores are at rest parks, and takes cores again; a herd destroyed is no
more, and its cores are free. The herd number, the order of refusals and when a core is at rest are the model's (log entries 40, 74, 92). -/
def Obligations.HerdsComeAndGo : Prop :=
  (∀ s, Ready s → ∀ (c : CmdId) (p : HerdParams), ringReady s c = true → c.reserved = false →
    (∀ h, herdOfFn s c.fn = some h → Does (.herdCreate c p) s [.ctl, .busyRing, .completions, .fnTurn, .out] fun t => Answered s t c 3 0) ∧
    (∀ (h g0 p0 : Nat) (hp : HpNo), herdOfFn s c.fn = none → bit (rd s (mgtPage 0 + 0x100)) 8 = true → paramsOk p = true →
      fnReleasing s c.fn = false → s.mesh.barred = false → bit (rd s (snapPage + 0x120)) 31 = false → p.pod = false →
      (List.range 64).find? (fun h => (herdOf s h).isNone) = some h → hp.val = c.fn.val / 16 →
      portRoom s hp.val p.ncores p.quota p.ngroups 1 p.nseq = true → deviceRoom s p = true →
      lowestFree (usedGroups s) 0 65536 p.ngroups = some g0 → lowestFree (usedProgs s) 32 256 p.nprog = some p0 →
      Does (.herdCreate c p) s [.ctl, .store, .rod, .storeBad, .rodBad, .vreg, .acc, .core, .mem, .chk, .mergeBuf, .herd, .busyRing, .completions, .snap, .fnTurn, .out] fun t =>
        Answered s t c 0 (BitVec.ofNat 64 (h + 65536 * g0 + 2 ^ 32 * p0)) ∧
        herdOf t h = some ⟨some c.fn, hp, (freeSites s p.qmask.toNat).take p.ncores, p.ncores, p.qmask, p.quota, p.floor, g0, p.ngroups,
          p0, p.nprog, p.nseq, p.minper, false, p.members, false, false, none, none, 0, [], false, false, none, [], none, none, [], []⟩ ∧
        (∀ g, g ≠ h → herdOf t g = herdOf s g) ∧
        ∀ k site, ((freeSites s p.qmask.toNat).take p.ncores)[k]? = some site →
          herdAt t site = some h ∧ hidxOf t site = k ∧ coreState t site = 1 ∧
          coreX t site = { CoreX.clear with fenceStep := (coreX s site).fenceStep })) ∧
  (∀ s, Ready s → ∀ (c : CmdId) (h : Nat) (x : Herd), CommandRuns s c h x → x.sites.Nodup → (∀ d ∈ x.sites, d < 1024) →
    (x.parked = false → (∀ d ∈ x.sites, atRest s d = true) →
      Does (.herdPark c) s [.ctl, .store, .rod, .storeBad, .rodBad, .vreg, .acc, .core, .herd, .busyRing, .completions, .fnTurn, .out] fun t => Answered s t c 0 0 ∧
        herdOf t h = some { x with parking := none, parked := true, sites := [] } ∧ ∀ d ∈ x.sites, herdAt t d = none) ∧
    (x.parked = false → (∃ d ∈ x.sites, coreState s d = 3) →
      Does (.herdPark c) s [.ctl, .core, .herd, .busyRing, .fnTurn, .out] fun t => Fetched s t c ∧
        herdOf t h = some { x with parking := some (.host c) } ∧ ∀ d ∈ x.sites, coreState s d = 3 → (coreX t d).stopPend = true) ∧
    (∀ (n : Nat) (q : BitVec 4) (sites : List Nat), x.parked = true → sites = (freeSites s q.toNat).take n → 0 < n → n < 2048 →
      sites.length = n → s.mesh.barred = false → x.owner.isNone = true ∨ portRoom s x.hport.val n 0 0 0 0 = true →
      Does (.herdUnpark c n q) s [.ctl, .store, .rod, .storeBad, .rodBad, .vreg, .acc, .core, .herd, .busyRing, .completions, .fnTurn, .out] fun t => Answered s t c 0 0 ∧
        herdOf t h = some { x with sites := sites, parked := false, stepSlot := 0 } ∧
        ∀ k site, sites[k]? = some site → herdAt t site = some h ∧ hidxOf t site = k ∧ coreState t site = 1) ∧
    (s.dumpRun = none → s.moves = [] → s.extent = [] → ErrorFree s → s.mergeBuf = [] →
      Does (.herdDestroy c) s [.ctl, .store, .rod, .storeBad, .rodBad, .vreg, .acc, .core, .mem, .chk, .farMem, .merges, .desc, .evalDue, .herd, .ssetOwner, .moves, .touched, .mergeBuf, .hcmd, .coll, .mc, .busyRing, .completions, .snap, .fnTurn, .out] fun t => Answered s t c 0 0 ∧
        herdOf t h = none ∧ (∀ g, g ≠ h → herdOf t g = herdOf s g) ∧ ∀ d ∈ x.sites, herdAt t d = none))

/-- R481, R517, R518, R520, R521, R524, R527, R528: a herd's rings are pointed and enabled; a listed register write is applied and counted; its
cores are armed for the bead that the start names, stopped, and resumed; a program image loads into every engine; a far extent is registered
and withdrawn; a dump and an evaluation are taken; a herd whose fault nobody resumes fails. The status of a refused list and the answer of
HERD_RESUME are the model's (log entries 41, 94). R529 to R531: an evaluation slot starts once every core has halted for it, each armed at
the evaluation's start row two beads on; it ends once every core has halted again: the saved words return, and each core is armed to run its
training program. The bead of the evaluation's start is the model's reading (log entry 69). -/
def Obligations.HerdsWork : Prop :=
  ((∀ s, Ready s → ∀ (c : CmdId) (h : Nat) (x : Herd), CommandRuns s c h x → (∀ d ∈ x.sites, d < 1024) →
    (∀ (area : DWord) (l : Nat), 4 ≤ l → l ≤ 12 →
      (areaJudged s h area.toNat (25 * (64 * 2 ^ l))).all writablePage = true →
      Does (.herdRings c area l) s [.ctl, .busyRing, .completions, .fnTurn, .out] fun t => Answered s t c 0 0 ∧ ∀ i < 25,
        bit (rd t (ringAddr i h + 4)) 31 = true ∧ fld (rd t (ringAddr i h + 4)) 19 16 = l ∧ ringHead t i h = 0 ∧
        rd t (ringAddr i h) = BitVec.ofNat 32 ((area.toNat + i * (64 * 2 ^ l)) / 64 * 64)) ∧
    (∀ (e : RegwEntry) (d : Nat), x.parked = false → x.sites[e.hidx]? = some d → e.wide = false → e.offset = 0x1108 → coreEn s d = true →
      r131 s d = true → rstBusy s (seqPage d) = false → fenced s (seqPage d) = false →
      Does (.herdRegw c [e]) s [.ctl, .busyRing, .completions, .fnTurn, .out] fun t => Answered s t c 0 1 ∧
        fld (rd t (seqPage d + 0x108)) 10 0 = fld (loWord e.value) 10 0) ∧
    (∀ e : RegwEntry, x.parked = false → x.sites.length ≤ e.hidx → Does (.herdRegw c [e])
      s [.ctl, .busyRing, .completions, .freeCtr, .fnTurn, .out] fun t => Answered s t c 2 0 ∧ bit (rd t (secPage 0 + 0x20)) 6 = true) ∧
    (∀ (ahead : Nat) (setidx : Bool) (idx b : DWord), x.parked = false → 2 ≤ ahead → ahead ≤ 255 →
      b.toNat = (beadNo s).toNat + ahead → x.sites.Nodup → (∀ d ∈ x.sites, r131 s d = true) →
      Does (.herdStart c ahead setidx idx) s [.ctl, .core, .herd, .busyRing, .completions, .fnTurn, .out] fun t => Answered s t c 0 b ∧
        herdOf t h = some { x with stepSlot := 0 } ∧
        ∀ d ∈ x.sites, coreState t d = 2 ∧ startBead t d = b ∧ stepIdx t d = if setidx then idx else stepIdx s d) ∧
    (Does (.herdStop c) s [.ctl, .core, .busyRing, .completions, .fnTurn, .out] fun t => Answered s t c 0 0 ∧ ∀ d ∈ x.sites,
      (coreState s d = 3 → (coreX t d).stopPend = true) ∧ (coreState s d = 5 → (coreX t d).halting = some 0xFF)) ∧
    (∀ (ahead : Nat) (b : DWord), x.parked = false → 2 ≤ ahead → ahead ≤ 255 → b.toNat = (beadNo s).toNat + ahead →
      (∀ d ∈ x.sites, coreState s d ≠ 8) →
      Does (.herdResume c ahead) s [.ctl, .core, .herd, .busyRing, .completions, .fnTurn, .out] fun t => Answered s t c 0 b ∧
        herdOf t h = some { x with faultBead := none } ∧
        ∀ d ∈ x.sites, coreState s d = 6 → coreState t d = 2 ∧ startBead t d = b) ∧
    (∀ (image : DWord) (first count : Nat) (bs : List Byte), x.firstProg ≤ first → first + count ≤ x.firstProg + x.nprog →
      first + count ≤ 256 → urRead s h image.toNat (128 * count) = .ok bs → bs.length = 128 * count → s.desc = [] →
      Does (.progLoad c image first count) s [.ctl, .mem, .chk, .prog, .progPend, .touched, .mergeBuf, .busyRing, .completions, .dumpRun, .freeCtr, .out, .fnTurn] fun t => Answered s t c 0 0 ∧ ∀ n < 24, ∀ k < count,
          progWords t n (first + k) = leWords 32 ((bs.drop (128 * k)).take 128)) ∧
    (∀ (base : DWord) (pages i : Nat) (k : HpNo), base.toNat % 65536 = 0 → 0 < pages → pages ≤ 262144 → k.val = c.fn.val / 16 →
      (List.range 256).find? (fun i => (mGet s.extent i).isNone) = some i →
      Does (.extReg c base pages) s [.ctl, .extent, .busyRing, .completions, .fnTurn, .out] fun t => Answered s t c 0 (BitVec.ofNat 64 i) ∧
        mGet t.extent i = some ⟨base, pages, k, c.fn, h, false⟩) ∧
    (∀ (i : BitVec 8) (e : Extent), mGet s.extent i.toNat = some e → e.herd = h → s.moves = [] →
      ((validPages s).any (fun p => eFar (homeEntry s p) && decide (eExt (homeEntry s p) = i.toNat))) = false →
      Does (.extDereg c i) s [.ctl, .farMem, .extent, .busyRing, .completions, .fnTurn, .out] fun t => Answered s t c 0 0 ∧
        mGet t.extent i.toNat = none) ∧
    (∀ dest : DWord, s.dumpRun = none → (areaJudged s h dest.toNat (herdDumpSize s h)).all writablePage = true →
      Does (.dump c dest) s [.ctl, .busyRing, .dumpRun, .fnTurn, .out] fun t => Fetched s t c ∧
        t.dumpRun = some ⟨3, h, true, beadNo s, beadCyc s, some (.host c), dest.toNat⟩ ∧ bit (rd t dumpCtl) 30 = true) ∧
    (∀ p : EvalParams, x.parked = false → p.startRow ≤ 2047 → p.rowsM1 ≤ 2047 → p.trainRowsM1 ≤ 2047 → p.nb ≤ 65535 →
      p.list.length ≤ 1023 →
      Does (.eval c p) s [.ctl, .core, .herd, .busyRing, .fnTurn, .out] fun t => Fetched s t c ∧
        herdOf t h = some { x with eval := some ⟨.host c, p, 0, 0, 0, [], []⟩ } ∧
        ∀ d ∈ x.sites, (coreX t d).evalAt = some (p.afterStep + 1))) ∧
  (∀ s, Ready s → ∀ (h : HerdNo) (x : Herd) (b : Nat), herdOf s h.val = some x → x.faultBead = some b → b + 16384 ≤ (beadNo s).toNat →
    x.failed = false → Does (.herdFaultTimeout h) s [.ctl, .core, .herd, .bx, .hcmd, .htag, .notices, .out] fun t =>
      herdOf t h.val = some { x with failed := true } ∧
      ∀ f : FnNo, x.owner = some f → t.notices = s.notices ++ [⟨f, 1, h.val, 7, beadNo s, []⟩])) ∧
  (∀ s, Ready s → ∀ (h : HerdNo) (x : Herd) (e : EvalCtx), herdOf s h.val = some x → x.eval = some e → x.sites.Nodup →
    (∀ c ∈ x.sites, c < 1024 ∧ coreState s c = 7) → (beadNo s).toNat + 2 < 2 ^ 64 →
    (e.phase = 0 → e.params.list = [] → e.params.startRow ≤ 2047 → e.params.rowsM1 ≤ 2047 →
      imageMoves s h.val e.params.image.toNat (e.params.rowsM1 + 1) = false →
      (∀ c ∈ x.sites, fld (rd s (seqPage c + 0x104)) 23 16 = 0xFE) →
      Does (.evalSwitch h) s [.ctl, .rod, .rodBad, .core, .mem, .chk, .mergeBuf, .touched, .herd, .dumpRun, .freeCtr, .out] fun t =>
        (∃ y d, herdOf t h.val = some y ∧ y.eval = some d ∧ d.phase = 1 ∧
          d.saved = x.sites.flatMap (fun c => (contextWords c).map (fun w => (w, rd s w)))) ∧
        ∀ c ∈ x.sites, coreState t c = 2 ∧ startBead t c = beadNo s + 2 ∧ fld (rd t (seqPage c + 0x108)) 10 0 = e.params.startRow) ∧
    (∀ c : CmdId, e.phase = 1 ∨ e.phase = 2 → e.cmd = .host c →
      imageMoves s h.val e.params.trainImage.toNat (e.params.trainRowsM1 + 1) = false →
      (∀ p ∈ e.saved, 0x1000000 ≤ p.1 ∧ ∀ c, p.1 ≠ seqPage c + 0x104) → (e.saved.map (·.1)).Nodup →
      Does (.evalRestore h) s [.ctl, .rod, .rodBad, .core, .mem, .chk, .mergeBuf, .touched, .herd, .completions, .dumpRun, .freeCtr,
        .out] fun t =>
        herdOf t h.val = some { x with eval := none } ∧
        (∀ p ∈ e.saved, (∀ c, p.1 ≠ seqPage c + 0x100 ∧ p.1 ≠ seqPage c + 0x110 ∧ p.1 ≠ seqPage c + 0x114 ∧ p.1 ≠ corePage c + 0x104) →
          rd t p.1 = p.2) ∧
        (∀ c ∈ x.sites, coreState t c = 2 ∧ startBead t c = beadNo s + 2 ∧ (coreX t c).armKind = 3) ∧
        t.completions = s.completions ++ [⟨c.fn, c.ring, c.tag, 0,
          BitVec.ofNat 64 (((beadNo s).toNat + 2 - e.haltBead) % 65536 + 65536 * b2n (decide (e.phase = 2)))⟩]))

/-! ## Snapshots and recovery (chapters 19 and 20) -/

/-- R535, R536, R540, R544, R554, R556, R570: the snapshot commands of a herd: SNAP_CFG installs a sound list and settings and refuses others;
SNAP_MTBF writes the interval's figures; SNAP_NOW asks for the running step's snapshot while snapshots are enabled; SNAP_STAT answers the
last verified step; SNAP_OFF disables; SNAP_RESTORE and SNAP_FETCH begin. The statuses of SNAP_NOW and SNAP_RESTORE and the free interval
are the model's (log entries 76, 79, 81). -/
def Obligations.SnapshotCommands : Prop :=
  ∀ s, Ready s → ∀ (c : CmdId) (h : Nat) (x : Herd), CommandRuns s c h x →
    (∀ (p : SnapParams) (bs : List Byte), (snapOf s h).cur = none → p.entries ≤ 4096 →
      readList s h p.list.toNat p.entries = .ok bs →
      (cfgBad s h p bs = true → Does (.snapCfg c p) s [.ctl, .busyRing, .completions, .fnTurn, .out] fun t => Answered s t c 2 0) ∧
      (cfgBad s h p bs = false → p.baxis.val = 3 →
        Does (.snapCfg c p) s [.ctl, .mem, .chk, .touched, .mergeBuf, .busyRing, .completions, .snap, .dumpRun, .freeCtr, .fnTurn, .out] fun t =>
          Answered s t c 0 (BitVec.ofNat 64 p.entries) ∧ snapEn t h = p.en ∧ SnapIs s t h { snapOf s h with
            params := some p
            entries := (plPieces bs p.entries).map parseEntry
            now := false
            cap := none
            capMirror := false
            half := 0
            gen := none
            retained := none
            mirrorOut := []
            region := none })) ∧
    (∀ (mf : Word) (w : Byte) (reset : Bool), Does (.snapMtbf c mf w reset) s [.ctl, .busyRing, .completions, .fnTurn, .out] fun t =>
      Answered s t c 0 0 ∧ rd t (snapReg h + 0x20) = mf ∧ fld (rd t (snapReg h + 0x28)) 23 16 = w.toNat ∧
      rd t (snapReg h + 0x24) = (if reset then 0 else rd s (snapReg h + 0x24)) ∧
      fld (rd t (snapReg h + 0x28)) 15 0 = (if reset then 0 else fld (rd s (snapReg h + 0x28)) 15 0)) ∧
    (snapEn s h = true → Does (.snapNow c) s [.ctl, .busyRing, .completions, .snap, .fnTurn, .out] fun t =>
      Answered s t c 0 (BitVec.ofNat 64 (runStep s h)) ∧ SnapIs s t h { snapOf s h with now := true }) ∧
    (snapEn s h = false → Does (.snapNow c) s [.ctl, .busyRing, .completions, .fnTurn, .out] fun t => Answered s t c 3 0) ∧
    (Does (.snapStat c) s [.ctl, .busyRing, .completions, .fnTurn, .out] fun t => Answered s t c 0 (BitVec.ofNat 64 (snapLast s h))) ∧
    ((snapOf s h).cur = none → (snapOf s h).capMirror = false → Does (.snapOff c) s [.ctl, .busyRing, .completions, .snap, .fnTurn, .out] fun t =>
      Answered s t c 0 0 ∧ snapEn t h = false ∧ SnapIs s t h { snapOf s h with now := false }) ∧
    (∀ (base : DWord) (slot : Fin 2),
      ((∀ d ∈ x.sites, coreState s d = 1) → Does (.snapRestore c base slot) s [.ctl, .busyRing, .snap, .fnTurn, .out] fun t => Fetched s t c ∧
        (snapOf t h).restore = some ⟨some (.host c), false, none, base.toNat, slot.val, 1, true, none, none, [], []⟩) ∧
      ((∃ d ∈ x.sites, coreState s d ≠ 1) → Does (.snapRestore c base slot) s [.ctl, .busyRing, .completions, .fnTurn, .out] fun t =>
        Answered s t c 3 0)) ∧
    (∀ (store dest : DWord) (n : Nat), (areaJudged s h dest.toNat n).all writablePage = true → 0 < n → n < 4294967296 →
      Does (.snapFetch c store dest n) s [.ctl, .busyRing, .snap, .fnTurn, .out] fun t => Fetched s t c ∧
        SnapIs s t h { snapOf s h with fetch := some ⟨.host c, store.toNat, dest.toNat, n, 0⟩ })

/-- R537, R541 to R545, R549, R550, R552, R553, R555: the ungrouped copy's end sends the packets that set cap_flag in every core, and ends a
capture that wants nothing else; an entry becomes final and is captured; writes leave for the store, and their acknowledgments lead to the
manifest and the verified step; a store that does not answer, or refuses, abandons the snapshot; members commit, and follow the lead's step
and plan; a verified snapshot leaves its frozen entries in the base slot; mirror data is written and acknowledged. The order of the writes,
the measured times and which half is retained are the model's (log entries 76 to 79, 152). -/
def Obligations.SnapshotsRun : Prop :=
  (∀ s, Ready s → ∀ (h : HerdNo) (x : Snap), snapOf s h.val = x →
    (∀ (k : Nat) (p : SnapParams), x.cap = some k → x.copied = false → x.params = some p →
      (allCaptured s x = false → Does (.ungroupedCopyDone h) s [.packets, .snap] fun t => SnapIs s t h.val { x with copied := true } ∧
        t.packets = s.packets ++ flagPackets s .snap h.val p.capFlag.toNat 0) ∧
      (allCaptured s x = true → x.capSnap = false → Does (.ungroupedCopyDone h) s [.ctl, .packets, .snap] fun t =>
        SnapIs s t h.val { x with copied := true, cap := none, capMirror := false, gen := if x.capMirror then some k else x.gen } ∧
        t.packets = s.packets ++ flagPackets s .snap h.val p.capFlag.toNat 0)) ∧
    (∀ (k i : Nat) (e : SnapEntry), x.cap = some k → x.entries[i]? = some e → entryWanted s x e = true →
      (e.final = false → (e.gvalid = true → e.ndesc ≤ (entryCounts e (k % 4294967296)).1) → (e.gvalid = false → x.copied = true) →
        Does (.entryFinal h i) s [.snap] fun t => SnapIs s t h.val { x with entries := x.entries.set i { e with final := true } }) ∧
      (e.final = true → e.captured = false → x.capSnap = true → x.capMirror = false →
        (∃ j, ∃ g, x.entries[j]? = some g ∧ j ≠ i ∧ g.based = false ∧ g.captured = false) →
        Does (.entryCaptured h i) s [.ctl, .mem, .chk, .mergeBuf, .snap, .dumpRun, .freeCtr] fun t =>
          (∃ g, (snapOf t h.val).entries[i]? = some g ∧ g.captured = true ∧ g.digests.length = chunksOf e ∧
            g.based = e.based ∧ g.inBase = (e.inBase || entryFrozen s e)) ∧
          (∃ ws, (snapOf t h.val).sendQ = x.sendQ ++ ws) ∧ (snapOf t h.val).cap = some k)) ∧
    (∀ (w : Nat × List Byte) (ws : List (Nat × List Byte)), x.sendQ = w :: ws →
      (x.params.any (·.pcie) = false → Does (.swr h) s [.ctl, .bx, .snap, .out] fun t =>
        SnapIs s t h.val { x with sendQ := ws, await_ := x.await_ ++ [w.1] }) ∧
      (x.params.any (·.pcie) = true → (∃ v, ws.head? = some v ∧ recordAt x v.1 = recordAt x w.1) →
        Does (.swr h) s [.ctl, .snap, .out] fun t => SnapIs s t h.val { x with sendQ := ws } ∧
          t.out = s.out ++ [.storeWrite w.1 w.2])) ∧
    (∀ (p : BxNo) (addr : DWord), AuxUp s p → x.await_.contains addr.toNat = true →
      (x.sendQ ≠ [] → Does (.sack p h addr) s [.ctl, .bx, .snap, .out] fun t => Arrived s t p.val ∧
        SnapIs s t h.val { x with await_ := x.await_.erase addr.toNat }) ∧
      (x.sendQ = [] → x.await_ = [addr.toNat] → x.capSnap = false → ∀ st, x.cur = some st →
        (x.manifest = false → Does (.sack p h addr) s [.ctl, .bx, .snap, .out] fun t => Arrived s t p.val ∧
          (snapOf t h.val).manifest = true ∧ (snapOf t h.val).await_ = []) ∧
        (x.manifest = true → (herdOf s h.val).any (·.pod) = false → st < 2 ^ 64 →
          Does (.sack p h addr) s [.ctl, .bx, .snap, .freeCtr, .out] fun t => Arrived s t p.val ∧ snapLast t h.val = st ∧
            (snapOf t h.val).cur = none ∧ (snapOf t h.val).verified = x.verified + 1 ∧ bit (rd t (snapPage + 0x20)) 8 = true)) ∧
      (∀ st, x.cur = some st → (herdOf s h.val).any (·.pod) = false →
        (∀ (q : BxNo), AuxUp s q → Does (.serr q h addr) s [.ctl, .bx, .snap, .freeCtr, .out] fun t => Arrived s t q.val ∧
          (snapOf t h.val).cur = none ∧ (snapOf t h.val).await_ = [] ∧ bit (rd t (snapPage + 0x20)) 9 = true) ∧
        Does (.storeTimeout h) s [.ctl, .snap, .freeCtr] fun t => (snapOf t h.val).cur = none ∧ (snapOf t h.val).await_ = [] ∧
          rd64 t (snapReg h.val + 0x10) = BitVec.ofNat 64 (st + 2) ∧ bit (rd t (snapPage + 0x20)) 4 = true)) ∧
    (∀ (addr : DWord) (data : List Byte), x.params.any (·.pcie) = true → x.await_.contains addr.toNat = true → x.sendQ ≠ [] →
      Does (.storeDmaCompletion h addr data) s [.snap] fun t => SnapIs s t h.val { x with await_ := x.await_.erase addr.toNat })) ∧
  (∀ s, Ready s → ∀ (f : FrameHdr) (x : Snap), FrameHere s f → snapOf s f.herd.val = x →
    (∀ (data : List Byte) (r a b : Nat), oneStep s f.herd.val f.src.toNat (ownPos s) = true → x.restore.any (·.spare) = false →
      b = (if f.addr.toNat < halfBytes x then 0 else 1) → x.region = some r → data.length = 64 →
      f.addr.toNat % 64 = 0 → f.addr.toNat + 64 ≤ 2 * halfBytes x → a = 65536 * (rsvBase s + 25672 + r) + f.addr.toNat →
      mergeOf s (a / 64) = none →
      Does (.mwr f data) s [.ctl, .mem, .chk, .mergeBuf, .bx, .snap, .out] fun t => Arrived s t f.port.val ∧
        SnapIs s t f.herd.val { x with lastHalf := b, heldHalf := 1 - b } ∧ readBlk t (a / 64) = some data ∧
        ∀ k, k / 64 ≠ heldAt s (a / 64) → memByte t k = memByte s k) ∧
    (oneStep s f.herd.val f.src.toNat (ownPos s) = true → Does (.mack f) s [.ctl, .bx, .snap, .out] fun t => Arrived s t f.port.val ∧
      SnapIs s t f.herd.val { x with mirrorOut := x.mirrorOut.erase f.addr.toNat }) ∧
    (isLead s = true → bit f.addr 63 = false → x.cur = some f.addr.toNat →
      (∃ q ∈ ownPos s :: herdMembers s f.herd.val, q ≠ f.src.toNat ∧ x.committed.contains q = false) →
      Does (.scommit f) s [.ctl, .bx, .snap, .out] fun t => Arrived s t f.port.val ∧
        SnapIs s t f.herd.val { x with committed := f.src.toNat :: x.committed }) ∧
    (fromLead f s = true → Does (.sverified f) s [.ctl, .bx, .snap, .out] (fun t => Arrived s t f.port.val ∧
        snapLast t f.herd.val = f.addr.toNat ∧ (snapOf t f.herd.val).cur = none ∧
        (snapOf t f.herd.val).entries.map (·.based) = x.entries.map (fun e => e.based || e.inBase) ∧
        (snapOf t f.herd.val).verified = x.verified + 1 ∧ bit (rd t (snapPage + 0x20)) 8 = true) ∧
      Does (.splan f) s [.ctl, .bx, .snap, .out] fun t => Arrived s t f.port.val ∧ snapNext t f.herd.val = f.addr.toNat ∧
        (snapOf t f.herd.val).cur = none))

/-- R551, R558, R560, R562 to R567, R570: reads leave for the store, a fetch's data is written and its last data ends it; a restore disables the
herd's rings and pauses its cores, and is open to records once none runs and no descriptor is active; a sound manifest is kept, a bad record
is read once more and then fails the restore; an armed spare answers, takes a position and stands down; the lead polls the spares and
follows their answers until the recovery is done or has failed. The status of a refused fetch, the recovery order and the spare's codes are
the model's (log entries 80 to 84). -/
def Obligations.RestoresAndSpares : Prop :=
  (∀ s, Ready s → ∀ (h : HerdNo) (x : Snap), snapOf s h.val = x →
    (∀ (addr : DWord) (len k : Nat) (g : Frame), 0 < len → len ≤ 4096 →
      ((∃ f, x.fetch = some f ∧ f.store ≤ addr.toNat ∧ addr.toNat + len ≤ f.store + f.bytes) ∨
        (x.fetch = none ∧ x.params.any (·.pcie) = false ∧ ∃ r, x.restore = some r ∧ r.phase = 2 ∧
          restoreReads s h.val x r addr.toNat len = true)) →
      k = storePort s (recordAt x addr.toNat) → g = storeFrame 0x22 1 h.val addr.toNat len [] → maySend s k g = true →
      (bxOf s k).waiting = [] → Does (.srd h addr len) s [.ctl, .bx, .out] fun t => t.out = s.out ++
        [.frame k { g with lseq := (bxOf s k).txSeq } (frameCrc { g with lseq := (bxOf s k).txSeq })]) ∧
    (∀ (r : Restore) (addr : DWord) (len : Nat), x.fetch = none → x.restore = some r → r.phase = 2 → x.params.any (·.pcie) = true →
      restoreReads s h.val x r addr.toNat len = true → 0 < len → len ≤ 4096 →
      exec (.srd h addr len) s = .next { s with out := s.out ++ [.storeRead addr.toNat len] }) ∧
    (∀ (f : Fetch) (c : CmdId) (p : BxNo) (addr : DWord) (data : List Byte) (a : Nat), x.fetch = some f → f.asker = .host c → AuxUp s p →
      fetchWaits s h.val addr data.length = false → f.store ≤ addr.toNat → addr.toNat + data.length ≤ f.store + f.bytes →
      a = f.dest + (addr.toNat - f.store) →
      (f.bytes ≤ f.got + data.length →
        Does (.srdr p h addr data) s [.ctl, .mem, .chk, .farMem, .touched, .mergeBuf, .bx, .completions, .snap, .dumpRun, .freeCtr, .out]
          fun t => Arrived s t p.val ∧ SnapIs s t h.val { x with fetch := none } ∧
            t.completions = s.completions ++ [⟨c.fn, c.ring, c.tag, 0, BitVec.ofNat 64 f.bytes⟩]) ∧
      (f.got + data.length < f.bytes → ∀ g : Nat, ErrorFree s → s.mergeBuf = [] → data.length = 64 → a % 64 = 0 →
        judge s h.val (a / 65536) true = .frame g →
        Does (.srdr p h addr data) s [.ctl, .mem, .chk, .touched, .mergeBuf, .bx, .snap, .dumpRun, .freeCtr, .out]
          fun t => Arrived s t p.val ∧ SnapIs s t h.val { x with fetch := some { f with got := f.got + data.length } } ∧
            readBlk t ((65536 * g + a % 65536) / 64) = some data ∧
            ∀ k, k / 64 ≠ heldAt s ((65536 * g + a % 65536) / 64) → memByte t k = memByte s k)) ∧
    (∀ r : Restore, x.restore = some r → r.phase = 1 → spareJoined s = false → (∀ d ∈ herdSites s h.val, d < 1024) →
      (quiet s h.val = true → (∀ d ∈ herdSites s h.val, coreState s d ∉ [2, 3, 4]) →
        Does (.restoreStart h) s [.ctl, .core, .snap] fun t => SnapIs s t h.val { x with restore := some { r with phase := 2 } } ∧
          (∀ d ∈ herdSites s h.val, coreState s d = 5 → coreState t d = 6) ∧
          ∀ n < 24, bit (rd t (ringAddr n h.val + 4)) 31 = false ∧ bit (rd t (hvote n h.val)) 30 = false) ∧
      ((quiet s h.val = false ∨ ∃ d ∈ herdSites s h.val, coreState s d ∈ [2, 3, 4]) →
        Does (.restoreStart h) s [.ctl, .core] fun t => (∀ d ∈ herdSites s h.val, coreState s d = 5 → coreState t d = 6) ∧
          (∀ d ∈ herdSites s h.val, coreState s d ∈ [2, 3, 4] → (coreX t d).pausePend = true) ∧
          ∀ n < 24, bit (rd t (ringAddr n h.val + 4)) 31 = false)) ∧
    (∀ (k : Nat) (g : Frame), spareJoined s = true → s.spares.ordered = [] → bit (rd s (snapPage + 0x104)) 3 = true →
      (∀ q ∈ s.snap, q.2.restore = none) → x.restore = none → k = sparePort s →
      g = spareFrame s 0x34 1 (leadPos s) [BitVec.ofNat 8 (spareIdx s), 1] → maySend s k g = true → (bxOf s k).waiting = [] →
      Does (.restoreStart h) s [.ctl, .bx, .out] fun t => bit (rd t (snapPage + 0x104)) 3 = false ∧ t.out = s.out ++
        [.frame k { g with lseq := (bxOf s k).txSeq } (frameCrc { g with lseq := (bxOf s k).txSeq })]) ∧
    (∀ (r : Restore) (rec_ : List Byte) (q : Nat), x.restore = some r → r.phase = 2 → bits (plWord rec_ 1) 7 0 = 2 →
      bits (plWord rec_ 2) 21 16 = q →
      ((rec_.drop 0x90).take 48 = sha384 (rec_.take 0x90 ++ (rec_.drop 256).take (64 * plWord rec_ 6)) → r.asker.isSome = true →
        q = storePos s h.val → r.full = true → r.got = [] → manifestChunks rec_ ≠ [] →
        Does (.restoreChunk h rec_) s [.snap] fun t => SnapIs s t h.val
          { x with restore := some { r with manifest := some rec_ } }) ∧
      ((rec_.drop 0x90).take 48 ≠ sha384 (rec_.take 0x90 ++ (rec_.drop 256).take (64 * plWord rec_ 6)) →
        (r.retry.contains (65536, q) = false → Does (.restoreChunk h rec_) s [.snap] fun t =>
          SnapIs s t h.val { x with restore := some { r with retry := (65536, q) :: r.retry } }) ∧
        (r.retry.contains (65536, q) = true → ∀ c : CmdId, r.asker = some (.host c) →
          Does (.restoreChunk h rec_) s [.ctl, .snap, .completions, .freeCtr] fun t => SnapIs s t h.val { x with restore := none } ∧
            bit (rd t (snapPage + 0x20)) 11 = true ∧ t.completions = s.completions ++ [⟨c.fn, c.ring, c.tag, 4, 0⟩])))) ∧
  (∀ s, Ready s → ∀ p : BxNo, AuxUp s p →
    (∀ (addr : DWord) (g : Frame), forSpare s addr = true →
      g = spareFrame s 0x31 2 (leadPos s) [BitVec.ofNat 8 (spareIdx s), BitVec.ofNat 8 (spareState s)] → maySend s p.val g = true →
      (bxOf s p.val).waiting = [] → Does (.spq p addr) s [.ctl, .bx, .out] fun t => Arrived s t p.val ∧
        t.out.getLast? = some (.frame p.val { g with lseq := (bxOf s p.val).txSeq } (frameCrc { g with lseq := (bxOf s p.val).txSeq }))) ∧
    (∀ addr : DWord, forSpare s addr = false → Does (.spq p addr) s [.ctl, .bx, .freeCtr, .out] (fun t => Arrived s t p.val ∧
        bit (rd t (bxPage p.val + 0x20)) 6 = true) ∧
      Does (.standdown p addr) s [.ctl, .bx, .freeCtr, .out] fun t => Arrived s t p.val ∧ bit (rd t (bxPage p.val + 0x20)) 6 = true) ∧
    (∀ (addr : DWord) (cfg : PodParams) (hs : List TakeHerd), forSpare s addr = false →
      Does (.takeover p addr cfg hs) s [.ctl, .bx, .freeCtr, .out] fun t => Arrived s t p.val ∧ bit (rd t (bxPage p.val + 0x20)) 6 = true) ∧
    (∀ (addr : DWord) (cfg : PodParams) (hs : List TakeHerd), forSpare s addr = true → taking s = false →
      (∀ g : Frame, podEn s = false →
        g = storeFrame 0x33 2 0 (cfg.podId.toNat + 65536 * cfg.leadPos.toNat) 0 [BitVec.ofNat 8 (spareIdx s)] → maySend s p.val g = true →
        (bxOf s p.val).waiting = [] →
        Does (.takeover p addr cfg hs) s [.ctl, .bx, .coll, .mc, .spares, .dumpRun, .freeCtr, .out] fun t => Arrived s t p.val ∧
          taking t = true ∧ podEn t = true ∧ ownPos t = cfg.pos.toNat ∧ leadPos t = cfg.leadPos.toNat ∧
          bit (rd t (beadPage + 0x120)) 1 = decide (cfg.pos = cfg.leadPos) ∧ t.spares = { s.spares with ordered := hs } ∧
          Output.frame p.val { g with lseq := (bxOf s p.val).txSeq } (frameCrc { g with lseq := (bxOf s p.val).txSeq }) ∈ t.out) ∧
      (podEn s = true → cfg.pos.toNat = ownPos s → Does (.takeover p addr cfg hs) s [.ctl, .bx, .spares, .freeCtr, .out] fun t =>
        Arrived s t p.val ∧ taking t = true ∧ podCfg t = podCfg s ∧ bit (rd t (bxPage 0 + 0x20)) 3 = true ∧
        t.spares = { s.spares with ordered := hs }) ∧
      (podEn s = true → cfg.pos.toNat ≠ ownPos s → Does (.takeover p addr cfg hs) s [.ctl, .bx, .out] fun t => Arrived s t p.val ∧
        taking t = false ∧ podCfg t = podCfg s)) ∧
    (∀ addr : DWord, forSpare s addr = true → Does (.standdown p addr) s [.ctl, .bx, .snap, .spares, .out] fun t =>
      Arrived s t p.val ∧ taking t = false ∧ t.spares = { s.spares with ordered := [] } ∧ podCfg t = podCfg s ∧
      ∀ k ∈ s.spares.ordered, (snapOf t k.herd.val).restore = none) ∧
    (∀ (k : Fin 4) (state : Byte), isLead s = true →
      Does (.spst p k state) s [.ctl, .bx, .spares, .out] (fun t => Arrived s t p.val ∧
        t.spares = { s.spares with last := (k.val, state) :: s.spares.last.filter (fun q => decide (q.1 ≠ k.val)) }) ∧
      Does (.tkack p k) s [.ctl, .bx, .spares, .out] fun t => Arrived s t p.val ∧
        t.spares = { s.spares with last := (k.val, 1) :: s.spares.last.filter (fun q => decide (q.1 ≠ k.val)) }) ∧
    (∀ (k : Fin 4) (q : Nat), isLead s = true → s.spares.filling.find? (fun y => decide (y.1 = k.val)) = some (k.val, q) →
      ((∃ y ∈ s.spares.filling, y.1 ≠ k.val) → Does (.filldone p k true) s [.ctl, .bx, .spares, .out] fun t => Arrived s t p.val ∧
        t.spares = { s.spares with
          filling := s.spares.filling.filter (fun y => decide (y.1 ≠ k.val))
          rdone := (affected s).map (fun h => 64 * h.1 + q) ++ s.spares.rdone }) ∧
      (s.spares.filling = [(k.val, q)] → s.spares.failedPos ≠ [] → affected s = [] →
        Does (.filldone p k true) s [.ctl, .bx, .spares, .out] fun t => Arrived s t p.val ∧
          t.spares = { s.spares with filling := [], rdone := [], failedPos := [], fullRestore := false }) ∧
      Does (.filldone p k false) s [.ctl, .core, .herd, .bx, .notices, .snap, .spares, .out] fun t => Arrived s t p.val ∧
        t.spares = { s.spares with filling := [], rdone := [], failedPos := [], fullRestore := false })) ∧
  (∀ s, Ready s → ∀ k : Nat, isLead s = true → k = sparePort s → linkUp s k = true → s.side.linkStop = false →
    (bxOf s k).waiting = [] → 128 ≤ (bxOf s k).credits.getD 1 0 → replayBytes s k ≤ 130944 →
    Does .sparePoll s [.ctl, .bx, .out] fun t => ∃ fs : List Frame, t.out = s.out ++ fs.map (fun f => Output.frame k f (frameCrc f)) ∧
      fs.map (fun f => (f.type, f.addr)) = (List.range 4).map (fun i => (0x30, podId s + 65536 * (0x40 + i)))) ∧
  (∀ s, Ready s → ∀ f : FrameHdr, FrameHere s f → isLead s = true →
    (s.spares.failedPos = [] → Does (.rdone f 0) s [.ctl, .bx, .spares, .out] fun t => Arrived s t f.port.val ∧
      t.spares = { s.spares with rdone := (64 * f.herd.val + f.src.toNat) :: s.spares.rdone }) ∧
    ∀ status : Byte, status ≠ 0 → Does (.rdone f status) s [.ctl, .core, .herd, .bx, .notices, .snap, .spares, .out] fun t =>
      Arrived s t f.port.val ∧ t.spares = { s.spares with filling := [], rdone := [], failedPos := [], fullRestore := false })

/-! ## Power, start-up and resets (chapters 21 and 22) -/

/-- R577 to R582, R585 to R587, R589, R590: the power pins: what a rise and a fall of pwr_en, good rails, a protection trip and a thermal trip
do; whatever loses power leaves everything as at reset but the fuses and the boot flash. The readings of a power window and of a die sensor
are written, the largest die temperature follows, and a window above the limit asks for a longer period. -/
def Obligations.PowerPins : Prop :=
  (∀ s : State,
    (s.power.pwrEn = false → Does .pwrEnRise s [.power] fun t => t.power = { s.power with
      pwrEn := true
      input := true
      state := if s.power.holdoff = false ∧ (s.power.state = .off ∨ s.power.state = .latched) then .ramp else s.power.state }) ∧
    (s.power.holdoff = true → Does .pwrEnHoldoffEnd s [.power] fun t => t.power = { s.power with
      holdoff := false
      state := if s.power.pwrEn = true ∧ s.power.input = true ∧ (s.power.state = .off ∨ s.power.state = .latched) then .ramp else s.power.state }) ∧
    (∀ (hp : BitVec 2) (inl : Bool) (slot : BitVec 3), s.power.state = .ramp →
      exec (.railsGood hp inl slot) s = .next { dark s with
        straps := ⟨hp, inl, slot⟩
        power := { s.power with state := .init, pwrGood := true }
        out := s.out ++ [.pinPwrGood true, .busTarget (busAddress slot)] }) ∧
    (s.power.pwrEn = true → (s.power.state = .off ∨ s.power.state = .latched → Does .pwrEnFall s [.power] fun t =>
        t.power = { s.power with pwrEn := false, holdoff := true }) ∧
      (s.power.state = .ramp ∨ powered s = true → exec .pwrEnFall s = .next { dark s with
        power := ⟨.off, false, s.power.input, true, false⟩
        out := s.out ++ (if powered s then [.stopTransmit] else []) ++ [.pinPwrGood false] })) ∧
    (s.power.state = .ramp ∨ powered s = true → exec .protectionTrip s = .next { dark s with
      power := { s.power with state := .latched, pwrGood := false }
      out := s.out ++ [.pinPwrGood false] }) ∧
    (∀ (n : Fin 5) (temp : BitVec 16), powered s = true → (16 * fld (rd s (pwrPage 1 + 0x130)) 23 16 : Int) ≤ temp.toInt →
      exec (.thermalTrip n temp) s = .next { dark s with
        power := { s.power with state := .latched, pwrGood := false }
        out := s.out ++ [.pinPwrGood false] }) ∧
    (heldInReset s = true → exec .powerOnReset s = .next (dark s))) ∧
  (∀ s, Ready s →
    (∀ vin : BitVec 16, s.power.state = .run → vin.toNat < 4600 → Does (.inputLow vin) s [.power, .ctl] fun t => t.power = { s.power with input := false } ∧
      rd t (pwrPage 0 + 0x100) = BitVec.ofNat 32 vin.toNat ∧ bit (rd t (pwrPage 0 + 0x20)) 10 = true ∧ RegsOnly [pwrPage 0] s t) ∧
    (∀ (n : Fin 5) (temp : BitVec 16), Does (.tempThresholdCross n temp) s [.ctl] fun t =>
      rd t (pwrPage 1 + 0x100 + 4 * n.val) = BitVec.ofNat 32 temp.toNat ∧
      (∀ k < 5, (BitVec.ofNat 16 (fld (rd t (pwrPage 1 + 0x100 + 4 * k)) 15 0)).toInt ≤ tMax t) ∧
      (∃ k < 5, (BitVec.ofNat 16 (fld (rd t (pwrPage 1 + 0x100 + 4 * k)) 15 0)).toInt = tMax t) ∧
      bit (rd t (pwrPage 1 + 0x2C)) 8 = decide (tLim s 7 0 < tMax t) ∧ bit (rd t (pwrPage 1 + 0x2C)) 9 = decide (tLim s 15 8 < tMax t) ∧ RegsOnly [pwrPage 1] s t) ∧
    (∀ (avg peak eff : Nat) (vin iin : BitVec 16), eff = fld (rd s (pwrPage 0 + 0x10C)) 27 16 →
      Does (.powerWindowEnd avg peak vin iin) s [.ctl, .bx, .dumpRun, .capRun, .freeCtr, .out] (fun t =>
        rd t (pwrPage 0 + 0x100) = BitVec.ofNat 32 vin.toNat ∧ rd t (pwrPage 0 + 0x104) = BitVec.ofNat 32 iin.toNat ∧
        rd t (pwrPage 0 + 0x108) = BitVec.ofNat 32 (avg % 65536 + 65536 * (peak % 65536)) ∧
        (0 < eff → t.capRun = if avg * 64 < eff * (64 - fld (rd s (pwrPage 0 + 0x110)) 11 8) then s.capRun + 1 else 0)) ∧
      (0 < eff → eff < avg → bit (rd s (pwrPage 0 + 0x110)) 0 = true → bit (rd s (beadPage + 0x110)) 31 = false →
        tMax s ≤ tLim s 15 8 → podEn s = false →
        Does (.powerWindowEnd avg peak vin iin) s [.ctl, .dumpRun, .capRun, .freeCtr] fun t =>
          rd t (pwrPage 0 + 0x118) = BitVec.ofNat 32 (0x80000000 + ceilDiv (beadPeriod s * avg) eff % 1048576) ∧
          bit (rd t (pwrPage 0 + 0x20)) 9 = true ∧ rd64 t (beadPage + 0x118) = BitVec.ofNat 64 (periodBead s))))

/-- R590, R592, R601, R605 to R608, R625: the phases of the start: the PLLs lock and the fuses load; the ROM takes the first bank whose image is
acceptable, or enters RECOVERY; the firmware starts; a port trains; the device enters RUN. A PLL that loses lock is reported, and one that
regains it counts as locked. The lost frequency and the treatment of a missing boot record are the model's (log entries 103, 104). -/
def Obligations.DeviceStarts : Prop :=
  ∀ s, Ready s →
    (heldInReset s = true → (s.fuses.checkOk = true → Does .pllLock s [.ctl] fun t => fld (rd t (mgtPage 2 + 0x100)) 4 0 = 31 ∧
        fuseOk t = true ∧ devState t = devState s ∧ ∀ n < 4, rd t (mgtPage 2 + 0x110 + 4 * n) = 1300000) ∧
      (s.fuses.checkOk = false → Does .pllLock s [.ctl, .evQueue, .out] fun t => fuseOk t = false ∧ devState t = 4)) ∧
    (∀ n : Fin 5, bit (rd s (mgtPage 2 + 0x100)) n.val = true → Does (.pllLockLoss n) s [.ctl, .dumpRun, .freeCtr] fun t =>
      bit (rd t (mgtPage 2 + 0x100)) n.val = false ∧ bit (rd t (mgtPage 2 + 0x20)) 2 = true ∧ bit (rd t (mgtPage 2 + 0x2C)) 8 = true) ∧
    (∀ n : Fin 5, bit (rd s (mgtPage 2 + 0x100)) n.val = false → fuseOk s = true → Does (.pllLockRegain n) s [.ctl] fun t =>
      bit (rd t (mgtPage 2 + 0x100)) n.val = true ∧
      bit (rd t (mgtPage 2 + 0x2C)) 8 = decide (fld (rd t (mgtPage 2 + 0x100)) 4 0 ≠ 31)) ∧
    (∀ (readA readB : Bool) (r : BootRecord) (first : Nat), devState s = 0 → fuseOk s = true → s.fwHeader = [] → r = bootRecord s →
      first = (if r.confirmed = true ∨ 0 < r.tries then r.pref else 1 - r.pref) →
      Does (.bankChoose readA readB) s [.ctl, .flash, .fwHeader, .evQueue, .freeCtr, .out] fun t =>
        match verifyBank s first (if first = 0 then readA else readB), verifyBank s (1 - first) (if 1 - first = 0 then readA else readB) with
        | none, _ => runBank t = first ∧ t.fwHeader = flashBytes s (bankAddr first) 0x3000 ∧ devState t = 0
        | some c, none => runBank t = 1 - first ∧ t.fwHeader = flashBytes s (bankAddr (1 - first)) 0x3000 ∧ devState t = 0 ∧
          fld (rd t bootStat) 15 8 = c ∧ (first = r.pref → bit (rd t bootStat) 1 = true)
        | some _, some d => devState t = 3 ∧ bit (rd t bootStat) 2 = true ∧ fld (rd t bootStat) 15 8 = d ∧ t.fwHeader = []) ∧
    (devState s = 0 → s.fwHeader ≠ [] → Does .firmwareStart s [.ctl, .wdtArmed, .evQueue, .out] fun t => devState t = 1 ∧
      t.wdtArmed = true ∧ runSvn t = imageSvn s.fwHeader ∧ rd t (secPage 0 + 0x104) = BitVec.ofNat 32 (plWord s.fwHeader 4) ∧
      ∀ j < 12, rd t (secPage 1 + 0x140 + 4 * j) = (leWords 12 (sha384 (s.fwHeader.take 0x400))).getD j 0) ∧
    (∀ (n : PortNo) (ch : Fin 8), devState s = 1 → bit (rd s (mpPage n.val + 0x10C)) (8 + ch.val) = false →
      Does (.channelTrained n ch) s [.ctl] fun t => bit (rd t (mpPage n.val + 0x10C)) (8 + ch.val) = true ∧
        (fld (rd t (mpPage n.val + 0x10C)) 15 8 = 255 → bit (rd s (mpPage n.val + 0x10C)) 0 = false →
          bit (rd t (mpPage n.val + 0x10C)) 1 = true) ∧ RegsAt [mpPage n.val + 0x10C] s t) ∧
    (∀ fru : Option (List Byte), devState s = 1 → allFilled s = true → bit (rd s (mgtPage 0 + 0x100)) 3 = false →
      Does (.runEntry fru) s [.power, .withdrawn, .ctl, .mesh, .flash, .mgmt, .evQueue, .out] fun t => devState t = 2 ∧
        t.mgmt = { s.mgmt with board := (fru.map boardInfo).getD [] } ∧ t.power = { s.power with state := .run } ∧
        fld (rd t (pwrPage 0 + 0x120)) 2 0 = 3 ∧ bit (rd t bootStat) 16 = true ∧
        (∀ n < 24, rd t (uePage n + 0x100) = BitVec.ofNat 32 (65536 * (rsvBase s + 8192)) ∧
          rd t (uePage n + 0x104) = BitVec.ofNat 32 (65536 * (rsvBase s + 8192) / 2 ^ 32)) ∧
        (fru.bind slotLimit = none → rd t (pwrPage 0 + 0x11C) = 1200 ∧ bit (rd t (pwrPage 0 + 0x20)) 11 = true))

/-- R596 to R602: a device reset is accepted from a register write, from the watchdog and from the management port, none while one is in
progress; it returns the die logic to its reset state and keeps device memory, straps, fuses, boot flash and the training of the channels;
the pages found valid afterwards are freed. -/
def Obligations.DeviceResets : Prop :=
  ∀ s, Ready s →
    (s.rstPend = false → (∀ v : Word, bit v 0 = true → Takes s 2 → Does (.mgtRstDev .ringCtl v) s [.ctl, .rstPend] fun t =>
        t.rstPend = true ∧ fld (rd t (mgtPage 2 + 0x120)) 2 0 = 1 ∧
        fld (rd t (mgtPage 2 + 0x120)) 15 8 = min 255 (fld (rd s (mgtPage 2 + 0x120)) 15 8 + 1)) ∧
      (bit (rd s (mgtPage 2 + 0x128)) 31 = true → s.wdtArmed = true → Does .watchdogExpire s [.ctl, .rstPend] fun t => t.rstPend = true ∧
        fld (rd t (mgtPage 2 + 0x120)) 2 0 = 2) ∧
      (∀ tag : MTag, devState s = 1 ∨ devState s = 2 → Does (.reset tag) s [.ctl, .rstPend, .out] fun t => t.rstPend = true ∧
        Responded t 1 tag 0 [] ∧ fld (rd t (mgtPage 2 + 0x120)) 2 0 = 1)) ∧
    (s.rstPend = true → (∀ v : Word, Takes s 2 → exec (.mgtRstDev .ringCtl v) s = .next s) ∧
      exec .watchdogExpire s = .next s) ∧
    (∀ v : Word, Takes s 2 → Does (.watchdogKick .ringCtl v) s [.wdtArmed] fun t => t.wdtArmed = true) ∧
    (s.rstPend = true → s.mergeBuf = [] → Does .deviceReset s dieParts fun t => t.rstPend = false ∧ devState t = 0 ∧
      t.power = { s.power with state := .init } ∧ t.core = [] ∧ t.herd = [] ∧ t.desc = [] ∧ t.evQueue = [] ∧ t.mgmt.eid = s.mgmt.eid ∧
      (∀ n < 24, rd t (mpPage n + 0x10C) = rd s (mpPage n + 0x10C)) ∧
      t.out = s.out ++ [.stopTransmit, .hostPort 0 false, .hostPort 1 false, .hostPort 2 false, .hostPort 3 false, .pinAlert false]) ∧
    (devState s = 1 → bit (rd s (mgtPage 0 + 0x100)) 3 = true → ErrorFree s → s.mergeBuf = [] → Does .pageFreeAll s [.ctl, .mem, .chk, .mergeBuf] fun t =>
      (∀ p < 2 ^ 26, eValid (homeEntry t p) = false) ∧ bit (rd t (mgtPage 0 + 0x100)) 3 = false ∧
      rd t (migPage 0 + 0x108) = BitVec.ofNat 32 (rsvBase s))

/-! ## Management (chapter 22) and the protocols of the management port -/

/-- R82, R339, R405, R436, R474, R524, R527, R562, R583, R584, R593, R617 to R620: each management command: what it changes while the firmware
runs and the status it answers; before and after, every one answers status 3 and changes nothing. Where the manual gives no status it is the
model's choice (log entry 105). -/
def Obligations.ManagementCommands : Prop :=
  (∀ s, Ready s → ∀ tag : MTag, devState s = 1 ∨ devState s = 2 →
    (∀ c : Site, (coreEn s c.val = true → (coreX s c.val).fenceStep = 0 →
        Does (.fence tag c) s [.ctl, .core, .herd, .bx, .hcmd, .htag, .notices, .out] fun t => Responded t 2 tag 0 [] ∧ fenced t (seqPage c.val) = true ∧
          (coreX t c.val).fenceStep = 1 ∧ ∀ h, herdAt s c.val = some h → ∀ x, herdOf t h = some x → x.failed = true) ∧
      (coreEn s c.val = false → Does (.fence tag c) s [.out] fun t => Responded t 2 tag 2 [])) ∧
    (∀ h : HerdNo, (∀ x, herdOf s h.val = some x → x.failed = false →
        Does (.herdFail tag h) s [.ctl, .core, .herd, .bx, .hcmd, .htag, .notices, .out] fun t => Responded t 3 tag 0 [] ∧
          herdOf t h.val = some { x with failed := true } ∧
          ∀ f, x.owner = some f → t.notices = s.notices ++ [⟨f, 1, h.val, 6, beadNo s, []⟩]) ∧
      (herdOf s h.val = none → Does (.herdFail tag h) s [.out] fun t => Responded t 3 tag 2 [])) ∧
    (∀ w : BitVec 12, (600 ≤ w.toNat → w.toNat ≤ 2400 → Does (.powerLimit tag w) s [.ctl, .out] fun t => Responded t 4 tag 0 [] ∧
        fld (rd t (pwrPage 0 + 0x10C)) 11 0 = w.toNat ∧ fld (rd t (pwrPage 0 + 0x10C)) 27 16 =
          min (min w.toNat (fld (rd s (pwrPage 0 + 0x11C)) 15 0)) 2400 ∧ RegsAt [pwrPage 0 + 0x10C] s t) ∧
      (w.toNat < 600 ∨ 2400 < w.toNat → Does (.powerLimit tag w) s [.ctl, .dumpRun, .freeCtr, .out] fun t => Responded t 4 tag 2 [] ∧
        rd t (pwrPage 0 + 0x10C) = rd s (pwrPage 0 + 0x10C) ∧ bit (rd t (pwrPage 0 + 0x20)) 3 = true)) ∧
    (∀ p : PodParams, (podEn s = false → armed s = false →
        Does (.partitionPod tag p) s [.ctl, .bx, .coll, .mc, .dumpRun, .freeCtr, .out] fun t => Responded t 5 tag 0 [] ∧ podEn t = true ∧
          ownPos t = p.pos.toNat ∧ leadPos t = p.leadPos.toNat ∧ bit (rd t (beadPage + 0x120)) 1 = decide (p.pos = p.leadPos) ∧
          podId t = p.podId.toNat ∧ rd64 t (bxPage 0 + 0x808) = p.present ∧
          ∀ n < 6, rd t (bxPage n + 0x108) = p.nbr.getD n 0 &&& 0x803FFFFF) ∧
      (podEn s = true ∨ armed s = true → Does (.partitionPod tag p) s [.out] fun t => Responded t 5 tag 3 [])) ∧
    (∀ (k : HpNo) (cores frames groups herds nseq : Nat), k.val < hpPorts s → cores < 2 ^ 11 → frames < 2 ^ 26 → groups < 2 ^ 17 →
      herds < 2 ^ 7 → nseq < 2 ^ 11 →
      (limitsHold s k.val cores frames groups herds nseq = true →
        Does (.partitionHostLimits tag k cores frames groups herds nseq) s [.ctl, .out] fun t => Responded t 5 tag 0 [] ∧
          rd t (hpPage k.val + 0x110) = BitVec.ofNat 32 cores ∧ rd t (hpPage k.val + 0x114) = BitVec.ofNat 32 frames ∧
          rd t (hpPage k.val + 0x118) = BitVec.ofNat 32 groups ∧ rd t (hpPage k.val + 0x11C) = BitVec.ofNat 32 herds ∧
          rd t (hpPage k.val + 0x120) = BitVec.ofNat 32 nseq ∧ RegsOnly [hpPage k.val, secPage 1] s t) ∧
      (limitsHold s k.val cores frames groups herds nseq = false →
        Does (.partitionHostLimits tag k cores frames groups herds nseq) s [.out] fun t => Responded t 5 tag 1 [])) ∧
    (∀ (pod : BitVec 16) (k : BitVec 2), (podEn s = false → s.herd = [] →
        Does (.partitionSpare tag pod k) s [.ctl, .bx, .coll, .mc, .dumpRun, .freeCtr, .out] fun t => Responded t 5 tag 0 [] ∧ armed t = true ∧
          taking t = false ∧ spareIdx t = k.toNat ∧ fld (rd t spareReg) 15 0 = pod.toNat ∧ podId t = pod.toNat ∧ podEn t = false) ∧
      (podEn s = true ∨ s.herd ≠ [] → Does (.partitionSpare tag pod k) s [.out] fun t => Responded t 5 tag 3 [])) ∧
    (∀ a b : Bool, Does (.partitionAux tag a b) s [.ctl, .bx, .coll, .mc, .dumpRun, .freeCtr, .out] fun t => Responded t 5 tag 0 [] ∧
      bit (rd t (bxPage 6 + 0x100)) 0 = a ∧ bit (rd t (bxPage 7 + 0x100)) 0 = b) ∧
    (∀ (n : PortNo) (l : Nat), l < 2 ^ 30 → (∀ e, freeRemap s n.val = some e →
        remapRefused s n.val e (BitVec.ofNat 32 (0x80000000 + l)) = false →
        Does (.remapLoad tag n [l]) s [.ctl, .mem, .chk, .mergeBuf, .dumpRun, .freeCtr, .out] fun t => Responded t 6 tag 0 (leBytes 4 1) ∧
          bit (rd t (remapReg n.val e)) 31 = true ∧ fld (rd t (remapReg n.val e)) 29 0 = l) ∧
      (freeRemap s n.val = none → Does (.remapLoad tag n [l]) s [.out] fun t => Responded t 6 tag 0 (leBytes 4 0))) ∧
    (∀ (first : Nat) (ps : List (List Word)), s.desc = [] → ps ≠ [] → first + ps.length ≤ 32 →
      Does (.sysprogLoad tag first ps) s [.ctl, .prog, .progPend, .out] fun t => Responded t 7 tag 0 [] ∧ ∀ n < 24, ∀ (k : Nat) (ws : List Word),
        ps[k]? = some ws → progWords t n (first + k) = (ws ++ List.replicate 32 0).take 32) ∧
    (∀ h : HerdNo, (isLead s = true → ∀ a : Nat, a = 3 ∨ a = 4 →
        Does (.linkHalt tag a h) s [.ctl, .bx, .side, .out] fun t => Responded t 8 tag 0 [] ∧ t.side.linkStop = decide (a = 3)) ∧
      (isLead s = true → ∀ x, herdOf s h.val = some x → x.pod = true → x.failed = false →
        Does (.linkHalt tag 2 h) s [.ctl, .core, .herd, .bx, .notices, .out] fun t => Responded t 8 tag 0 [] ∧
          herdOf t h.val = some { x with failed := true }) ∧
      (isLead s = false → ∀ a : Nat, 2 ≤ a → a ≤ 4 → Does (.linkHalt tag a h) s [.out] fun t => Responded t 8 tag 3 [])) ∧
    (Does (.openPermission tag) s [.ctl, .out] fun t => Responded t 9 tag 0 [] ∧ bit (rd t (mgtPage 0 + 0x100)) 8 = true ∧
      devState t = devState s ∧ RegsAt [mgtPage 0 + 0x100] s t) ∧
    (s.dumpRun = none → Does (.mgmtDumpStart tag) s [.ctl, .dumpRun, .out] fun t => Responded t 12 tag 0 [] ∧
      t.dumpRun = some ⟨1, 0, false, beadNo s, beadCyc s, none, 0⟩) ∧
    (s.dumpRun ≠ none → Does (.mgmtDumpStart tag) s [.out] fun t => Responded t 12 tag 4 []) ∧
    (∀ (slot : Fin 4) (off len : Nat) (bs : List Byte), 0 < len → len ≤ 4096 → off + len ≤ 0x1000000 →
      devRead s (dumpSlot s slot.val + off) len = some bs →
      (allFilled s = false → exec (.mgmtDumpRead tag slot off len) s = .next s) ∧
      (allFilled s = true → Does (.mgmtDumpRead tag slot off len) s [.ctl, .mem, .chk, .mergeBuf, .dumpRun, .freeCtr, .out] fun t => Responded t 12 tag 0 bs)) ∧
    (∀ (fru : Option (List Byte)) (w : Nat), fru.bind slotLimit = some w → Does (.fruRead tag fru) s [.ctl, .mgmt, .out] fun t =>
      Responded t 13 tag 0 [] ∧ t.mgmt = { s.mgmt with board := (fru.map boardInfo).getD [] } ∧ bit (rd t (pwrPage 0 + 0x11C)) 16 = true ∧ fld (rd t (pwrPage 0 + 0x11C)) 15 0 = w % 65536 ∧
      fld (rd t (pwrPage 0 + 0x10C)) 27 16 = min (min (fld (rd s (pwrPage 0 + 0x10C)) 11 0) (w % 65536)) 2400) ∧
    (∀ off : BitVec 28, off.toNat % 4 = 0 → Does (.regRead tag off) s [.out] fun t =>
      Responded t 14 tag 0 (leBytes 4 (fullRead s off.toNat).toNat))) ∧
  (∀ s, Ready s → ∀ (tag : MTag) (c : Site) (h : HerdNo) (w : BitVec 12) (slot : Fin 4) (off : BitVec 28) (n a b : Nat), devState s ≠ 1 →
    devState s ≠ 2 → ∀ p ∈ [(Instr.reset tag, 1), (.fence tag c, 2), (.herdFail tag h, 3), (.powerLimit tag w, 4),
      (.partitionAux tag true true, 5), (.remapLoad tag 0 [n], 6), (.sysprogLoad tag n [], 7), (.linkHalt tag n h, 8),
      (.openPermission tag, 9), (.svnCommit tag, 10), (.keyRevoke tag n, 11), (.mgmtDumpStart tag, 12), (.mgmtDumpRead tag slot a b, 12),
      (.fruRead tag none, 13), (.regRead tag off, 14)],
    Does p.1 s [.out] fun t => Responded t (BitVec.ofNat 8 p.2) tag 3 [])

/-- R611, R612: while the firmware runs, SVN_COMMIT of a confirmed image burns the counter up to the image's svn and burns nothing when it is
there; of an image not confirmed it has status 1. KEY_REVOKE burns the slot's revocation bit, and has status 1 where the image is not
confirmed or was signed with the slot, and where the slot is not provisioned or is the last provisioned one that is not revoked. -/
def Obligations.FusesBurn : Prop :=
  ∀ s, Ready s → ∀ tag : MTag, devState s = 1 ∨ devState s = 2 →
    (confirmed s = true → Does (.svnCommit tag) s [.fuses, .ctl, .out] fun t => Responded t 10 tag 0 [] ∧
      t.fuses = { s.fuses with svn := max s.fuses.svn (runSvn s) }) ∧
    (confirmed s = true → s.fuses.svn = runSvn s → Does (.svnCommit tag) s [.out] fun t => Responded t 10 tag 0 []) ∧
    (confirmed s = false → Does (.svnCommit tag) s [.out] fun t => Responded t 10 tag 1 []) ∧
    (∀ k < 4, (confirmed s = true → fld (rd s bootStat) 5 4 ≠ k → s.fuses.prov.getLsbD k = true →
        s.fuses.revoked.getLsbD k = true ∨ (∃ j < 4, j ≠ k ∧ s.fuses.prov.getLsbD j = true ∧ s.fuses.revoked.getLsbD j = false) →
        Does (.keyRevoke tag k) s [.fuses, .ctl, .out] fun t => Responded t 11 tag 0 [] ∧
          t.fuses = { s.fuses with revoked := s.fuses.revoked ||| BitVec.ofNat 4 (2 ^ k) }) ∧
      (confirmed s = false ∨ fld (rd s bootStat) 5 4 = k ∨ s.fuses.prov.getLsbD k = false →
        Does (.keyRevoke tag k) s [.out] fun t => Responded t 11 tag 1 []) ∧
      (s.fuses.revoked.getLsbD k = false → (∀ j < 4, j ≠ k → s.fuses.prov.getLsbD j = true → s.fuses.revoked.getLsbD j = true) →
        Does (.keyRevoke tag k) s [.out] fun t => Responded t 11 tag 1 []))

/-- R593, R594, R614 to R616, R636, R637: the MCTP control and PLDM requests: what each answers, and what it sets. A device held in reset
answers none; PLDM before the firmware runs answers ERROR_NOT_READY. Codes and bodies are those of the DMTF standards, presumed or free (log
entries 11, 44). -/
def Obligations.MessagesServed : Prop :=
  (∀ s, Ready s → heldInReset s = false → ∀ (eid tid type selector enable receiver : Byte) (n : Nat),
    exec (.setEndpointId eid) s = .next { s with
      mgmt := { s.mgmt with eid := eid }
      out := s.out ++ [.message 0 1 [0, 0, eid, 0]] } ∧
    exec .getEndpointId s = .next (said s 0 2 (0 :: s.mgmt.eid :: std 2 0 0)) ∧ exec .getEndpointUuid s = .next (said s 0 3 (0 :: Config.endpointUuid)) ∧
    exec (.getMctpVersionSupport type) s = .next (said s 0 4 (0 :: std 3 type.toNat 0)) ∧ exec .getMessageTypeSupport s = .next (said s 0 5 [0, 4, 0x00, 0x01, 0x05, 0x7F]) ∧
    exec (.getVendorDefinedMessageSupport selector) s = .next (said s 0 6 (0 :: ((leBytes 4 s.fuses.pen.toNat).reverse ++ std 4 selector.toNat 0))) ∧
    (1 ≤ devState s → devState s ≤ 4 → exec .getTid s = .next (said s 1 2 [0, s.mgmt.tid]) ∧
      exec (.setTid tid) s = .next { s with
        mgmt := { s.mgmt with tid := tid }
        out := s.out ++ [.message 1 1 [0]] } ∧
      exec (.getPldmVersion type) s = .next (said s 1 3 (0 :: std 5 type.toNat 0)) ∧ exec .getPldmTypes s = .next (said s 1 4 (0 :: leBytes 8 0x35)) ∧
      exec (.getPldmCommands type) s = .next (said s 1 5 (0 :: std 6 type.toNat (devState s))) ∧ exec .getPdrRepositoryInfo s = .next (said s 1 0x50 (0 :: std 7 0 0)) ∧
      exec (.getPdr n) s = .next (said s 1 0x51 (0 :: std 8 n 0)) ∧
      exec (.getStateSensorReadings 0) s = .next (said s 1 0x21 (0 :: leBytes 4 (devState s) ++ std 10 0 (devState s)))) ∧
    (devState s = 1 ∨ devState s = 2 →
      (∀ v, numericSensor s n = some v → exec (.getSensorReading n) s = .next (said s 1 0x11 (0 :: leBytes 2 v ++ std 9 n v))) ∧
      (numericSensor s n = none → exec (.getSensorReading n) s = .next (said s 1 0x11 [0x80])) ∧
      (∀ v, stateSensor s n = some v → exec (.getStateSensorReadings n) s = .next (said s 1 0x21 (0 :: leBytes 4 v ++ std 10 n v))) ∧
      exec (.setEventReceiver enable receiver) s = .next { s with
        mgmt := { s.mgmt with evEnable := enable, receiver := receiver }
        out := s.out ++ [.message 1 4 [0]] } ∧
      exec .eventMessageSupported s = .next (said s 1 0x0C (0 :: std 11 0 0)) ∧
      exec (.eventMessageBufferSize n) s = .next { s with
        mgmt := { s.mgmt with bufSize := min n 8192 }
        out := s.out ++ [.message 1 0x0D (0 :: leBytes 2 (min n 8192))] } ∧
      exec .getFruRecordTableMetadata s = .next (said s 1 1 (0 :: std 13 0 0)) ∧
      (∃ mid tail : List Byte, exec (.getFruRecordTable n) s = .next (said s 1 2 (0 :: (leBytes 16 s.fuses.dieId.toNat ++ [s.fuses.grade] ++ mid ++ s.mgmt.board ++ tail)))) ∧
      (s.evQueue = [] → exec .pollForPlatformEventMessage s = .next (said s 1 0x0B (0 :: std 12 0 0))) ∧
      (∀ (m : EvMsg) (ms : List EvMsg), s.evQueue = m :: ms → ms.length < 64 →
        Does .pollForPlatformEventMessage s [.ctl, .evQueue, .out] fun t => t.evQueue = ms ∧ fld (rd t evQstat) 6 0 = ms.length ∧
          t.out = s.out ++ [.message 1 0x0B (0 :: 0x01 :: m.evClass :: m.data)] ++ (if ms = [] then [.pinAlert false] else []) ∧
          RegsAt [evQstat] s t))) ∧
  (∀ s, Ready s → (∀ c ∈ [Instr.getTid, .getPldmTypes, .getPdrRepositoryInfo, .getEndpointId, .getVersion], heldInReset s = true →
      exec c s = .next s) ∧
    (heldInReset s = false → devState s = 0 → exec .getTid s = .next (said s 1 2 [4]) ∧ exec .pollForPlatformEventMessage s = .next (said s 1 0x0B [4])))

/-- R605, R606, R608, R610, R613, R616: a firmware update goes through its phases in order: it is asked for, its one component named, its bytes
written into the bank that does not run, all of them arrived, the image verified, the boot record made to prefer it with one start, and the
update closed; in RECOVERY a device reset follows. A command out of its phase changes nothing. Completion codes are presumed from DSP0267
(log entry 44). -/
def Obligations.UpdatesRun : Prop :=
  ∀ s, Ready s → heldInReset s = false → (devState s = 1 ∨ devState s = 2 ∨ devState s = 3) → ∀ (n : Nat) (v : Word) (data : List Byte),
    (s.mgmt.update.phase = 0 → 0 < n → n ≤ 0x800000 → exec (.requestUpdate n) s = .next { s with
      mgmt := { s.mgmt with update := ⟨1, 0, n, false⟩ }
      out := s.out ++ [.message 1 0x10 (0 :: std 15 n 0)] }) ∧
    (s.mgmt.update.phase ≠ 0 → exec (.requestUpdate n) s = .next (said s 1 0x10 [0x81])) ∧
    (s.mgmt.update.phase = 1 → exec (.passComponentTable 1 v) s = .next { s with
      mgmt := { s.mgmt with update := { s.mgmt.update with phase := 2 } }
      out := s.out ++ [.message 1 0x13 (0 :: std 16 1 v.toNat)] }) ∧
    (s.mgmt.update.phase = 2 → exec (.updateComponent 1 v) s = .next { s with
      mgmt := { s.mgmt with update := { s.mgmt.update with phase := 3, received := 0 } }
      out := s.out ++ [.message 1 0x14 (0 :: std 17 1 v.toNat)] }) ∧
    (s.mgmt.update.phase = 3 →
      (data.length ≤ 4096 → n + data.length ≤ s.mgmt.update.size → Does (.requestFirmwareData n data) s [.flash, .mgmt] fun t =>
        flashBytes t (bankAddr (updateBank s) + n) data.length = data ∧
        (∀ a, a < bankAddr (updateBank s) + n ∨ bankAddr (updateBank s) + n + data.length ≤ a →
          mGetD t.flash a 0xFF = mGetD s.flash a 0xFF) ∧
        t.mgmt = { s.mgmt with update := { s.mgmt.update with received := s.mgmt.update.received + data.length } }) ∧
      (s.mgmt.update.size ≤ s.mgmt.update.received → exec .transferComplete s = .next { s with
        mgmt := { s.mgmt with update := { s.mgmt.update with phase := 4 } }
        out := s.out ++ [.message 1 0x16 [0]] })) ∧
    (s.mgmt.update.phase = 4 → exec .verifyComplete s = .next (match imageReject s (flashBytes s (bankAddr (updateBank s)) 0x800000) with
      | none => { s with
          mgmt := { s.mgmt with update := { s.mgmt.update with phase := 5, verified := true } }
          out := s.out ++ [.message 1 0x17 [0]] }
      | some c => { s with
          mgmt := { s.mgmt with update := ⟨0, 0, 0, false⟩ }
          out := s.out ++ [.message 1 0x17 [BitVec.ofNat 8 c]] })) ∧
    (s.mgmt.update.phase = 5 → (bootRecord s).seq_ + 1 < 2 ^ 32 →
      (devState s ≠ 3 → Does .applyComplete s [.flash, .mgmt, .out] fun t => t.mgmt.update.phase = 6 ∧
        bootRecord t = ⟨(bootRecord s).seq_ + 1, updateBank s, 1, false⟩ ∧ t.out = s.out ++ [.message 1 0x18 [0]]) ∧
      (devState s = 3 → s.rstPend = false → Does .applyComplete s [.ctl, .flash, .rstPend, .mgmt, .freeCtr, .out] fun t =>
        t.rstPend = true ∧ bootRecord t = ⟨(bootRecord s).seq_ + 1, 0, 1, false⟩)) ∧
    (s.mgmt.update.phase = 6 → exec (.activateFirmware true) s = .next (said s 1 0x1A [0x85]) ∧ exec (.activateFirmware false) s = .next { s with
      mgmt := { s.mgmt with update := ⟨0, 0, 0, false⟩ }
      out := s.out ++ [.message 1 0x1A [0, 0, 0]] }) ∧
    exec .getStatus s = .next (said s 1 0x1B (0 :: BitVec.ofNat 8 s.mgmt.update.phase :: std 18 s.mgmt.update.phase s.mgmt.update.received)) ∧
    (s.mgmt.update.phase = 0 → exec .cancelUpdate s = .next (said s 1 0x1D [0x80])) ∧
    (s.mgmt.update.phase ≠ 0 → exec .cancelUpdate s = .next { s with
      mgmt := { s.mgmt with update := ⟨0, 0, 0, false⟩ }
      out := s.out ++ [.message 1 0x1D (0 :: std 19 0 0)] }) ∧
    (∀ c ∈ [Instr.passComponentTable 1 v, .updateComponent 1 v, .requestFirmwareData n data, .transferComplete, .verifyComplete,
        .applyComplete, .activateFirmware false], s.mgmt.update.phase = 0 → ∃ code, exec c s = .next (said s 1 code [0x84]))

/-- R593, R613, R621 to R625: the SPDM exchange goes in order: version, capabilities, algorithms, and then digests, certificates, challenge and
measurements; a signed answer leaves the composite signature pending, which the signer completes and which a vendor request or a
RESPOND_IF_READY then fetches; any other request discards it. Before the firmware runs each is answered Busy. Error codes are presumed from
DSP0274 and signatures are free (log entries 9, 44). -/
def Obligations.AttestationAnswers : Prop :=
  (∀ s, Ready s → heldInReset s = false → devState s = 1 ∨ devState s = 2 → ∀ (off len : Nat) (nonce : List Byte) (m : Mgmt),
    m = { s.mgmt with pending := none, pqReady := false } →
    exec .getVersion s = .next { s with
      mgmt := { m with spdmVersion := true, spdmCaps := false, spdmAlgs := false, transcript := [0x84] }
      out := s.out ++ [.message 5 4 [0x12]] } ∧
    (s.mgmt.spdmVersion = true → exec .getCapabilities s = .next { s with
        mgmt := { m with spdmCaps := true, transcript := m.transcript ++ [0xE1] }
        out := s.out ++ [.message 5 0x61 (14 :: std 21 0 0)] } ∧
      exec .getPqCert s = .next { s with
        mgmt := m
        out := s.out ++ [.message 5 0x7E ([2, 0] ++ std 25 0 0)] }) ∧
    (s.mgmt.spdmCaps = true → exec .negotiateAlgorithms s = .next { s with
      mgmt := { m with spdmAlgs := true, transcript := m.transcript ++ [0xE3] }
      out := s.out ++ [.message 5 0x63 (std 22 0 0)] }) ∧
    (s.mgmt.spdmAlgs = true →
      exec .getDigests s = .next { s with
        mgmt := { m with transcript := m.transcript ++ [0x81] }
        out := s.out ++ [.message 5 1 (1 :: std 23 0 0)] } ∧
      exec (.getCertificate 0 off len) s = .next { s with
        mgmt := { m with transcript := m.transcript ++ [0x82] }
        out := s.out ++ [.message 5 2 (leBytes 2 len ++ flashBytes s (0x1000000 + off) (len % 65536))] } ∧
      exec (.challenge 0 nonce) s = .next { s with
        mgmt := { m with
          transcript := m.transcript ++ [0x83]
          pending := some (std 20 1 0 ++ sha384 (m.transcript ++ [0x83] ++ nonce)) }
        out := s.out ++ [.message 5 3 (std 24 0 0 ++ Config.rsaSign (std 20 1 0 ++ sha384 (m.transcript ++ [0x83] ++ nonce)))] } ∧
      (∀ i : Nat, 1 ≤ i → i ≤ 5 → exec (.getMeasurements i false nonce) s = .next { s with
          mgmt := { m with transcript := m.transcript ++ [0xE0] }
          out := s.out ++ [.message 5 0x60 (measureBytes s i)] } ∧
        ∃ t, exec (.getMeasurements i true nonce) s = .next t ∧ t.mgmt.pqReady = false ∧
          t.mgmt.pending = some (std 20 2 0 ++ sha384 (m.transcript ++ [0xE0] ++ nonce)) ∧
          t.out = s.out ++ [.message 5 0x60 (measureBytes s i ++ Config.rsaSign (std 20 2 0 ++ sha384 (m.transcript ++ [0xE0] ++ nonce)))])) ∧
    (s.mgmt.spdmAlgs = false → Does .getDigests s [.mgmt, .out] fun t => t.mgmt = m ∧ t.out = s.out ++ [.message 5 0x7F [4]]) ∧
    (∀ msg : List Byte, s.mgmt.pending = some msg →
      exec .pqSigReady s = .next { s with mgmt := { s.mgmt with pqReady := true } } ∧
      (s.mgmt.spdmAlgs = true → s.mgmt.pqReady = true →
        exec .respondIfReady s = .next (said s 5 0x7E ([1, 0] ++ leBytes 2 7856 ++ Config.slhSign msg))) ∧
      (s.mgmt.spdmVersion = true → (s.mgmt.pqReady = true → exec .getPqSig s = .next (said s 5 0x7E ([1, 0] ++ leBytes 2 7856 ++ Config.slhSign msg))) ∧
        (s.mgmt.pqReady = false → exec .getPqSig s = .next (said s 5 0x7F [0x42, 18])))) ∧
    (s.mgmt.pending = none → s.mgmt.spdmVersion = true → exec .getPqSig s = .next (said s 5 0x7F [1]))) ∧
  (∀ s, Ready s → heldInReset s = false → devState s ≠ 1 → devState s ≠ 2 → ∀ c ∈ [Instr.getVersion, .getCapabilities,
    .negotiateAlgorithms, .getDigests, .respondIfReady, .getPqSig, .getPqCert], exec c s = .next (said s 5 0x7F [3]))

/-- R627 to R633: servicing a page clears what was read of its BLK_IST and releases its capture; a record without a herd goes to the management
port, one of a herd to its owning function too; a memory port's capture without a herd is searched for, unless its block lies in the
reserved region; a search that finds its page's owner gives it the record, and one that finds none reports it and zeroes the block. Unstated
words of a record and the queueing without a receiver are the model's (log entries 98, 99). -/
def Obligations.EventRecords : Prop :=
  ∀ s, Ready s →
    (∀ (p : PageNo) (a : Nat), a = 4096 * p.val → blockOf s p.val ≠ .absent → (blockOf s p.val).isWindow = false → serviced s a ≠ 0 →
      Does (.eventService p) s [.ctl, .mem, .chk, .mergeBuf, .bx, .notices, .snap, .dumpRun, .evQueue, .lastCorr, .coalesced, .searches, .freeCtr, .out] (fun t =>
        rd t (a + 0x20) &&& rd s (a + 0x20) = 0 ∧ fld (rd t (a + 0x40)) 31 30 = 0) ∧
      (∀ (c : Nat) (r : EvRecord), 0 < c → c < 5 → (∀ d < 8, bit (rd s (a + 0x20)) d = decide (d = c)) → r = pageRecord s a c →
        (namesBlock r = true → r.herd = none → logicalAddr s r.addr.toNat / 65536 < rsvBase s → Does (.eventService p) s [.ctl, .searches] fun t =>
          t.searches = s.searches ++ [(r, r.addr.toNat)] ∧ bit (rd t evQstat) 7 = true) ∧
        (s.evQueue.length < 64 → namesBlock r = false → (r.herd = none → Does (.eventService p) s [.ctl, .evQueue, .out] fun t => t.evQueue = s.evQueue ++
          [⟨0xF0, some r.cls, recordOf r ++ leBytes 8 r.bead.toNat ++ leBytes 3 r.cyc.toNat ++ [0]⟩]) ∧
        (∀ (h : Nat) (f : FnNo), r.herd = some h → ownerOf s h = some f → noticesFill s f.val = false →
          Does (.eventService p) s [.ctl, .notices, .evQueue, .out] fun t => t.evQueue.length = s.evQueue.length + 1 ∧
            t.notices = s.notices ++ [⟨f, 2, h, BitVec.ofNat 8 c, r.bead, recordOf r⟩])))) ∧
    (∀ (r : EvRecord) (a b : Nat) (xs : List (EvRecord × Nat)), s.searches = (r, a) :: xs → b = logicalAddr s a →
      Does .ownerSearchDone s [.ctl, .mem, .chk, .mergeBuf, .bx, .notices, .snap, .dumpRun, .evQueue, .searches, .freeCtr, .out] (fun t =>
        t.searches = xs ∧ bit (rd t evQstat) 7 = !xs.isEmpty) ∧
      (b / 65536 < rsvBase s → s.evQueue.length < 64 → r.cls.toNat < 5 →
        (∀ (p : Nat) (f : FnNo), (validPages s).find? (fun p => !eFar (homeEntry s p) && decide (eHome (homeEntry s p) = b / 65536)) = some p →
          eShared (homeEntry s p) = false → ownerOf s (eHerd (homeEntry s p)) = some f → noticesFill s f.val = false →
          Does .ownerSearchDone s [.ctl, .notices, .evQueue, .searches, .out] fun t => t.evQueue.length = s.evQueue.length + 1 ∧
            t.notices = s.notices ++ [⟨f, 2, eHerd (homeEntry s p), BitVec.ofNat 8 r.cls.toNat, r.bead,
              recordOf (forFunction s (eHerd (homeEntry s p)) { r with herd := some (eHerd (homeEntry s p)) })⟩]) ∧
        ((∀ p ∈ validPages s, eFar (homeEntry s p) = true ∨ eHome (homeEntry s p) ≠ b / 65536) → mergeOf s (b / 64) = none →
          Does .ownerSearchDone s [.ctl, .mem, .chk, .evQueue, .searches, .out] fun t => t.evQueue.length = s.evQueue.length + 1 ∧
            readBlk t (b / 64) = some (List.replicate 64 0))))
end

