-- ==== Sys2Proof/Laws/State.lean ====
section
/-! SUPPORT. What each primitive update does to each field of the state, so that no proof unfolds a record update, and what an act leaves. -/

namespace Sys2Proof.Machine

@[simp] theorem Upd.part_ctl {k} {v} : (Upd.ctl k v).part = .ctl := rfl
@[simp] theorem Upd.part_store {k} {v} : (Upd.store k v).part = .store := rfl
@[simp] theorem Upd.part_rod {k} {v} : (Upd.rod k v).part = .rod := rfl
@[simp] theorem Upd.part_storeBad {k} {v} : (Upd.storeBad k v).part = .storeBad := rfl
@[simp] theorem Upd.part_rodBad {k} {v} : (Upd.rodBad k v).part = .rodBad := rfl
@[simp] theorem Upd.part_vreg {k} {v} : (Upd.vreg k v).part = .vreg := rfl
@[simp] theorem Upd.part_acc {k} {v} : (Upd.acc k v).part = .acc := rfl
@[simp] theorem Upd.part_core {k} {v} : (Upd.core k v).part = .core := rfl
@[simp] theorem Upd.part_mem {k} {v} : (Upd.mem k v).part = .mem := rfl
@[simp] theorem Upd.part_chk {k} {v} : (Upd.chk k v).part = .chk := rfl
@[simp] theorem Upd.part_farMem {k} {v} : (Upd.farMem k v).part = .farMem := rfl
@[simp] theorem Upd.part_prog {k} {v} : (Upd.prog k v).part = .prog := rfl
@[simp] theorem Upd.part_flash {k} {v} : (Upd.flash k v).part = .flash := rfl
@[simp] theorem Upd.part_bx {k} {v} : (Upd.bx k v).part = .bx := rfl
@[simp] theorem Upd.part_snap {k} {v} : (Upd.snap k v).part = .snap := rfl
@[simp] theorem Upd.part_bulkPend {k} {v} : (Upd.bulkPend k v).part = .bulkPend := rfl
@[simp] theorem Upd.part_ringFail {k} {v} : (Upd.ringFail k v).part = .ringFail := rfl
@[simp] theorem Upd.part_lastTaken {k} {v} : (Upd.lastTaken k v).part = .lastTaken := rfl
@[simp] theorem Upd.part_lastGrant {k} {v} : (Upd.lastGrant k v).part = .lastGrant := rfl
@[simp] theorem Upd.part_cable {k} {v} : (Upd.cable k v).part = .cable := rfl
@[simp] theorem Upd.part_herd {k} {v} : (Upd.herd k v).part = .herd := rfl
@[simp] theorem Upd.part_extent {k} {v} : (Upd.extent k v).part = .extent := rfl
@[simp] theorem Upd.part_ssetOwner {k} {v} : (Upd.ssetOwner k v).part = .ssetOwner := rfl
@[simp] theorem Upd.part_touched {k} {v} : (Upd.touched k v).part = .touched := rfl
@[simp] theorem Upd.part_lastCorr {k} {v} : (Upd.lastCorr k v).part = .lastCorr := rfl
@[simp] theorem Upd.part_coalesced {k} {v} : (Upd.coalesced k v).part = .coalesced := rfl
@[simp] theorem Upd.part_phase {k} {v} : (Upd.phase k v).part = .phase := rfl
@[simp] theorem Upd.part_numVfs {k} {v} : (Upd.numVfs k v).part = .numVfs := rfl
@[simp] theorem Upd.part_bar2Log {k} {v} : (Upd.bar2Log k v).part = .bar2Log := rfl
@[simp] theorem Upd.part_busyRing {k} {v} : (Upd.busyRing k v).part = .busyRing := rfl
@[simp] theorem Upd.part_cycle {v} : (Upd.cycle v).part = .cycle := rfl
@[simp] theorem Upd.part_power {v} : (Upd.power v).part = .power := rfl
@[simp] theorem Upd.part_straps {v} : (Upd.straps v).part = .straps := rfl
@[simp] theorem Upd.part_fuses {v} : (Upd.fuses v).part = .fuses := rfl
@[simp] theorem Upd.part_withdrawn {v} : (Upd.withdrawn v).part = .withdrawn := rfl
@[simp] theorem Upd.part_packets {v} : (Upd.packets v).part = .packets := rfl
@[simp] theorem Upd.part_bulkOpen {v} : (Upd.bulkOpen v).part = .bulkOpen := rfl
@[simp] theorem Upd.part_merges {v} : (Upd.merges v).part = .merges := rfl
@[simp] theorem Upd.part_progPend {v} : (Upd.progPend v).part = .progPend := rfl
@[simp] theorem Upd.part_desc {v} : (Upd.desc v).part = .desc := rfl
@[simp] theorem Upd.part_evalDue {v} : (Upd.evalDue v).part = .evalDue := rfl
@[simp] theorem Upd.part_moves {v} : (Upd.moves v).part = .moves := rfl
@[simp] theorem Upd.part_mergeBuf {v} : (Upd.mergeBuf v).part = .mergeBuf := rfl
@[simp] theorem Upd.part_side {v} : (Upd.side v).part = .side := rfl
@[simp] theorem Upd.part_hcmd {v} : (Upd.hcmd v).part = .hcmd := rfl
@[simp] theorem Upd.part_htag {v} : (Upd.htag v).part = .htag := rfl
@[simp] theorem Upd.part_coll {v} : (Upd.coll v).part = .coll := rfl
@[simp] theorem Upd.part_mc {v} : (Upd.mc v).part = .mc := rfl
@[simp] theorem Upd.part_aborts {v} : (Upd.aborts v).part = .aborts := rfl
@[simp] theorem Upd.part_ended {v} : (Upd.ended v).part = .ended := rfl
@[simp] theorem Upd.part_fnTurn {v} : (Upd.fnTurn v).part = .fnTurn := rfl
@[simp] theorem Upd.part_hpTurn {v} : (Upd.hpTurn v).part = .hpTurn := rfl
@[simp] theorem Upd.part_hpUsed {v} : (Upd.hpUsed v).part = .hpUsed := rfl
@[simp] theorem Upd.part_completions {v} : (Upd.completions v).part = .completions := rfl
@[simp] theorem Upd.part_notices {v} : (Upd.notices v).part = .notices := rfl
@[simp] theorem Upd.part_perst {v} : (Upd.perst v).part = .perst := rfl
@[simp] theorem Upd.part_spares {v} : (Upd.spares v).part = .spares := rfl
@[simp] theorem Upd.part_dumpRun {v} : (Upd.dumpRun v).part = .dumpRun := rfl
@[simp] theorem Upd.part_fwHeader {v} : (Upd.fwHeader v).part = .fwHeader := rfl
@[simp] theorem Upd.part_wdtArmed {v} : (Upd.wdtArmed v).part = .wdtArmed := rfl
@[simp] theorem Upd.part_rstPend {v} : (Upd.rstPend v).part = .rstPend := rfl
@[simp] theorem Upd.part_mgmt {v} : (Upd.mgmt v).part = .mgmt := rfl
@[simp] theorem Upd.part_evQueue {v} : (Upd.evQueue v).part = .evQueue := rfl
@[simp] theorem Upd.part_searches {v} : (Upd.searches v).part = .searches := rfl
@[simp] theorem Upd.part_capRun {v} : (Upd.capRun v).part = .capRun := rfl
@[simp] theorem Upd.part_moveTurn {v} : (Upd.moveTurn v).part = .moveTurn := rfl
@[simp] theorem Upd.part_mesh {v} : (Upd.mesh v).part = .mesh := rfl
@[simp] theorem Upd.part_freeCtr {v} : (Upd.freeCtr v).part = .freeCtr := rfl
@[simp] theorem Upd.part_ctlReset {lo} {hi} : (Upd.ctlReset lo hi).part = .ctl := rfl
@[simp] theorem Upd.part_ctlClear : (Upd.ctlClear).part = .ctl := rfl
@[simp] theorem Upd.part_storeKeep {p} : (Upd.storeKeep p).part = .store := rfl
@[simp] theorem Upd.part_rodKeep {p} : (Upd.rodKeep p).part = .rod := rfl
@[simp] theorem Upd.part_storeBadKeep {p} : (Upd.storeBadKeep p).part = .storeBad := rfl
@[simp] theorem Upd.part_rodBadKeep {p} : (Upd.rodBadKeep p).part = .rodBad := rfl
@[simp] theorem Upd.part_vregKeep {p} : (Upd.vregKeep p).part = .vreg := rfl
@[simp] theorem Upd.part_accKeep {p} : (Upd.accKeep p).part = .acc := rfl
@[simp] theorem Upd.part_coreKeep {p} : (Upd.coreKeep p).part = .core := rfl
@[simp] theorem Upd.part_memKeep {p} : (Upd.memKeep p).part = .mem := rfl
@[simp] theorem Upd.part_chkKeep {p} : (Upd.chkKeep p).part = .chk := rfl
@[simp] theorem Upd.part_farMemKeep {p} : (Upd.farMemKeep p).part = .farMem := rfl
@[simp] theorem Upd.part_progKeep {p} : (Upd.progKeep p).part = .prog := rfl
@[simp] theorem Upd.part_bxKeep {p} : (Upd.bxKeep p).part = .bx := rfl
@[simp] theorem Upd.part_bulkPendKeep {p} : (Upd.bulkPendKeep p).part = .bulkPend := rfl
@[simp] theorem Upd.part_ringFailKeep {p} : (Upd.ringFailKeep p).part = .ringFail := rfl
@[simp] theorem Upd.part_lastTakenKeep {p} : (Upd.lastTakenKeep p).part = .lastTaken := rfl
@[simp] theorem Upd.part_herdKeep {p} : (Upd.herdKeep p).part = .herd := rfl
@[simp] theorem Upd.part_extentKeep {p} : (Upd.extentKeep p).part = .extent := rfl
@[simp] theorem Upd.part_ssetOwnerKeep {p} : (Upd.ssetOwnerKeep p).part = .ssetOwner := rfl
@[simp] theorem Upd.part_touchedKeep {p} : (Upd.touchedKeep p).part = .touched := rfl
@[simp] theorem Upd.part_snapKeep {p} : (Upd.snapKeep p).part = .snap := rfl
@[simp] theorem Upd.part_lastCorrKeep {p} : (Upd.lastCorrKeep p).part = .lastCorr := rfl
@[simp] theorem Upd.part_coalescedKeep {p} : (Upd.coalescedKeep p).part = .coalesced := rfl
@[simp] theorem Upd.part_phaseKeep {p} : (Upd.phaseKeep p).part = .phase := rfl
@[simp] theorem Upd.part_bar2LogKeep {p} : (Upd.bar2LogKeep p).part = .bar2Log := rfl
@[simp] theorem Upd.part_busyRingKeep {p} : (Upd.busyRingKeep p).part = .busyRing := rfl
@[simp] theorem Upd.part_numVfsKeep {p} : (Upd.numVfsKeep p).part = .numVfs := rfl
@[simp] theorem Upd.part_lastGrantKeep {p} : (Upd.lastGrantKeep p).part = .lastGrant := rfl
@[simp] theorem Upd.part_out {o} : (Upd.out o).part = .out := rfl

/-! ## The field an update changes -/

@[simp] theorem apply_ctl (s : State) {k} {v} : ((Upd.ctl k v).apply s).ctl = mSet s.ctl k v (resetWord k) := rfl
@[simp] theorem apply_store (s : State) {k} {v} : ((Upd.store k v).apply s).store = mSet s.store k v 0 := rfl
@[simp] theorem apply_rod (s : State) {k} {v} : ((Upd.rod k v).apply s).rod = mSet s.rod k v 0 := rfl
@[simp] theorem apply_storeBad (s : State) {k} {v} : ((Upd.storeBad k v).apply s).storeBad = mSet s.storeBad k v false := rfl
@[simp] theorem apply_rodBad (s : State) {k} {v} : ((Upd.rodBad k v).apply s).rodBad = mSet s.rodBad k v false := rfl
@[simp] theorem apply_vreg (s : State) {k} {v} : ((Upd.vreg k v).apply s).vreg = mSet s.vreg k v 0 := rfl
@[simp] theorem apply_acc (s : State) {k} {v} : ((Upd.acc k v).apply s).acc = mSet s.acc k v 0 := rfl
@[simp] theorem apply_core (s : State) {k} {v} : ((Upd.core k v).apply s).core = mSet s.core k v CoreX.clear := rfl
@[simp] theorem apply_mem (s : State) {k} {v} : ((Upd.mem k v).apply s).mem = mSet s.mem k v 0 := rfl
@[simp] theorem apply_chk (s : State) {k} {v} : ((Upd.chk k v).apply s).chk = mSet s.chk k v 0 := rfl
@[simp] theorem apply_farMem (s : State) {k} {v} : ((Upd.farMem k v).apply s).farMem = mSet s.farMem k v 0 := rfl
@[simp] theorem apply_prog (s : State) {k} {v} : ((Upd.prog k v).apply s).prog = mSet s.prog k v 0 := rfl
@[simp] theorem apply_flash (s : State) {k} {v} : ((Upd.flash k v).apply s).flash = mSet s.flash k v 0xFF := rfl
@[simp] theorem apply_bx (s : State) {k} {v} : ((Upd.bx k v).apply s).bx = mSet s.bx k v BxPort.clear := rfl
@[simp] theorem apply_snap (s : State) {k} {v} : ((Upd.snap k v).apply s).snap = mSet s.snap k v Snap.clear := rfl
@[simp] theorem apply_bulkPend (s : State) {k} {v} : ((Upd.bulkPend k v).apply s).bulkPend = mPut s.bulkPend k v := rfl
@[simp] theorem apply_ringFail (s : State) {k} {v} : ((Upd.ringFail k v).apply s).ringFail = mPut s.ringFail k v := rfl
@[simp] theorem apply_lastTaken (s : State) {k} {v} : ((Upd.lastTaken k v).apply s).lastTaken = mPut s.lastTaken k v := rfl
@[simp] theorem apply_lastGrant (s : State) {k} {v} : ((Upd.lastGrant k v).apply s).lastGrant = mPut s.lastGrant k v := rfl
@[simp] theorem apply_cable (s : State) {k} {v} : ((Upd.cable k v).apply s).cable = mPut s.cable k v := rfl
@[simp] theorem apply_herd (s : State) {k} {v} : ((Upd.herd k v).apply s).herd = mPut s.herd k v := rfl
@[simp] theorem apply_extent (s : State) {k} {v} : ((Upd.extent k v).apply s).extent = mPut s.extent k v := rfl
@[simp] theorem apply_ssetOwner (s : State) {k} {v} : ((Upd.ssetOwner k v).apply s).ssetOwner = mPut s.ssetOwner k v := rfl
@[simp] theorem apply_touched (s : State) {k} {v} : ((Upd.touched k v).apply s).touched = mPut s.touched k v := rfl
@[simp] theorem apply_lastCorr (s : State) {k} {v} : ((Upd.lastCorr k v).apply s).lastCorr = mPut s.lastCorr k v := rfl
@[simp] theorem apply_coalesced (s : State) {k} {v} : ((Upd.coalesced k v).apply s).coalesced = mPut s.coalesced k v := rfl
@[simp] theorem apply_phase (s : State) {k} {v} : ((Upd.phase k v).apply s).phase = mPut s.phase k v := rfl
@[simp] theorem apply_numVfs (s : State) {k} {v} : ((Upd.numVfs k v).apply s).numVfs = mPut s.numVfs k v := rfl
@[simp] theorem apply_bar2Log (s : State) {k} {v} : ((Upd.bar2Log k v).apply s).bar2Log = mPut s.bar2Log k v := rfl
@[simp] theorem apply_busyRing (s : State) {k} {v} : ((Upd.busyRing k v).apply s).busyRing = mPut s.busyRing k v := rfl
@[simp] theorem apply_cycle (s : State) {v} : ((Upd.cycle v).apply s).cycle = v := rfl
@[simp] theorem apply_power (s : State) {v} : ((Upd.power v).apply s).power = v := rfl
@[simp] theorem apply_straps (s : State) {v} : ((Upd.straps v).apply s).straps = v := rfl
@[simp] theorem apply_fuses (s : State) {v} : ((Upd.fuses v).apply s).fuses = v := rfl
@[simp] theorem apply_withdrawn (s : State) {v} : ((Upd.withdrawn v).apply s).withdrawn = v := rfl
@[simp] theorem apply_packets (s : State) {v} : ((Upd.packets v).apply s).packets = v := rfl
@[simp] theorem apply_bulkOpen (s : State) {v} : ((Upd.bulkOpen v).apply s).bulkOpen = v := rfl
@[simp] theorem apply_merges (s : State) {v} : ((Upd.merges v).apply s).merges = v := rfl
@[simp] theorem apply_progPend (s : State) {v} : ((Upd.progPend v).apply s).progPend = v := rfl
@[simp] theorem apply_desc (s : State) {v} : ((Upd.desc v).apply s).desc = v := rfl
@[simp] theorem apply_evalDue (s : State) {v} : ((Upd.evalDue v).apply s).evalDue = v := rfl
@[simp] theorem apply_moves (s : State) {v} : ((Upd.moves v).apply s).moves = v := rfl
@[simp] theorem apply_mergeBuf (s : State) {v} : ((Upd.mergeBuf v).apply s).mergeBuf = v := rfl
@[simp] theorem apply_side (s : State) {v} : ((Upd.side v).apply s).side = v := rfl
@[simp] theorem apply_hcmd (s : State) {v} : ((Upd.hcmd v).apply s).hcmd = v := rfl
@[simp] theorem apply_htag (s : State) {v} : ((Upd.htag v).apply s).htag = v := rfl
@[simp] theorem apply_coll (s : State) {v} : ((Upd.coll v).apply s).coll = v := rfl
@[simp] theorem apply_mc (s : State) {v} : ((Upd.mc v).apply s).mc = v := rfl
@[simp] theorem apply_aborts (s : State) {v} : ((Upd.aborts v).apply s).aborts = v := rfl
@[simp] theorem apply_ended (s : State) {v} : ((Upd.ended v).apply s).ended = v := rfl
@[simp] theorem apply_fnTurn (s : State) {v} : ((Upd.fnTurn v).apply s).fnTurn = v := rfl
@[simp] theorem apply_hpTurn (s : State) {v} : ((Upd.hpTurn v).apply s).hpTurn = v := rfl
@[simp] theorem apply_hpUsed (s : State) {v} : ((Upd.hpUsed v).apply s).hpUsed = v := rfl
@[simp] theorem apply_completions (s : State) {v} : ((Upd.completions v).apply s).completions = v := rfl
@[simp] theorem apply_notices (s : State) {v} : ((Upd.notices v).apply s).notices = v := rfl
@[simp] theorem apply_perst (s : State) {v} : ((Upd.perst v).apply s).perst = v := rfl
@[simp] theorem apply_spares (s : State) {v} : ((Upd.spares v).apply s).spares = v := rfl
@[simp] theorem apply_dumpRun (s : State) {v} : ((Upd.dumpRun v).apply s).dumpRun = v := rfl
@[simp] theorem apply_fwHeader (s : State) {v} : ((Upd.fwHeader v).apply s).fwHeader = v := rfl
@[simp] theorem apply_wdtArmed (s : State) {v} : ((Upd.wdtArmed v).apply s).wdtArmed = v := rfl
@[simp] theorem apply_rstPend (s : State) {v} : ((Upd.rstPend v).apply s).rstPend = v := rfl
@[simp] theorem apply_mgmt (s : State) {v} : ((Upd.mgmt v).apply s).mgmt = v := rfl
@[simp] theorem apply_evQueue (s : State) {v} : ((Upd.evQueue v).apply s).evQueue = v := rfl
@[simp] theorem apply_searches (s : State) {v} : ((Upd.searches v).apply s).searches = v := rfl
@[simp] theorem apply_capRun (s : State) {v} : ((Upd.capRun v).apply s).capRun = v := rfl
@[simp] theorem apply_moveTurn (s : State) {v} : ((Upd.moveTurn v).apply s).moveTurn = v := rfl
@[simp] theorem apply_mesh (s : State) {v} : ((Upd.mesh v).apply s).mesh = v := rfl
@[simp] theorem apply_freeCtr (s : State) {v} : ((Upd.freeCtr v).apply s).freeCtr = v := rfl
@[simp] theorem apply_ctlReset (s : State) {lo} {hi} : ((Upd.ctlReset lo hi).apply s).ctl = mMap s.ctl (fun a w => if decide (lo ≤ a) && decide (a < hi) then resetOne a w else some w) := rfl
@[simp] theorem apply_ctlClear (s : State) : ((Upd.ctlClear).apply s).ctl = [] := rfl
@[simp] theorem apply_storeKeep (s : State) {p} : ((Upd.storeKeep p).apply s).store = mKeep s.store p := rfl
@[simp] theorem apply_rodKeep (s : State) {p} : ((Upd.rodKeep p).apply s).rod = mKeep s.rod p := rfl
@[simp] theorem apply_storeBadKeep (s : State) {p} : ((Upd.storeBadKeep p).apply s).storeBad = mKeep s.storeBad p := rfl
@[simp] theorem apply_rodBadKeep (s : State) {p} : ((Upd.rodBadKeep p).apply s).rodBad = mKeep s.rodBad p := rfl
@[simp] theorem apply_vregKeep (s : State) {p} : ((Upd.vregKeep p).apply s).vreg = mKeep s.vreg p := rfl
@[simp] theorem apply_accKeep (s : State) {p} : ((Upd.accKeep p).apply s).acc = mKeep s.acc p := rfl
@[simp] theorem apply_coreKeep (s : State) {p} : ((Upd.coreKeep p).apply s).core = mKeep s.core p := rfl
@[simp] theorem apply_memKeep (s : State) {p} : ((Upd.memKeep p).apply s).mem = mKeep s.mem p := rfl
@[simp] theorem apply_chkKeep (s : State) {p} : ((Upd.chkKeep p).apply s).chk = mKeep s.chk p := rfl
@[simp] theorem apply_farMemKeep (s : State) {p} : ((Upd.farMemKeep p).apply s).farMem = mKeep s.farMem p := rfl
@[simp] theorem apply_progKeep (s : State) {p} : ((Upd.progKeep p).apply s).prog = mKeep s.prog p := rfl
@[simp] theorem apply_bxKeep (s : State) {p} : ((Upd.bxKeep p).apply s).bx = mKeep s.bx p := rfl
@[simp] theorem apply_bulkPendKeep (s : State) {p} : ((Upd.bulkPendKeep p).apply s).bulkPend = mKeep s.bulkPend p := rfl
@[simp] theorem apply_ringFailKeep (s : State) {p} : ((Upd.ringFailKeep p).apply s).ringFail = mKeep s.ringFail p := rfl
@[simp] theorem apply_lastTakenKeep (s : State) {p} : ((Upd.lastTakenKeep p).apply s).lastTaken = mKeep s.lastTaken p := rfl
@[simp] theorem apply_herdKeep (s : State) {p} : ((Upd.herdKeep p).apply s).herd = mKeep s.herd p := rfl
@[simp] theorem apply_extentKeep (s : State) {p} : ((Upd.extentKeep p).apply s).extent = mKeep s.extent p := rfl
@[simp] theorem apply_ssetOwnerKeep (s : State) {p} : ((Upd.ssetOwnerKeep p).apply s).ssetOwner = mKeep s.ssetOwner p := rfl
@[simp] theorem apply_touchedKeep (s : State) {p} : ((Upd.touchedKeep p).apply s).touched = mKeep s.touched p := rfl
@[simp] theorem apply_snapKeep (s : State) {p} : ((Upd.snapKeep p).apply s).snap = mKeep s.snap p := rfl
@[simp] theorem apply_lastCorrKeep (s : State) {p} : ((Upd.lastCorrKeep p).apply s).lastCorr = mKeep s.lastCorr p := rfl
@[simp] theorem apply_coalescedKeep (s : State) {p} : ((Upd.coalescedKeep p).apply s).coalesced = mKeep s.coalesced p := rfl
@[simp] theorem apply_phaseKeep (s : State) {p} : ((Upd.phaseKeep p).apply s).phase = mKeep s.phase p := rfl
@[simp] theorem apply_bar2LogKeep (s : State) {p} : ((Upd.bar2LogKeep p).apply s).bar2Log = mKeep s.bar2Log p := rfl
@[simp] theorem apply_busyRingKeep (s : State) {p} : ((Upd.busyRingKeep p).apply s).busyRing = mKeep s.busyRing p := rfl
@[simp] theorem apply_numVfsKeep (s : State) {p} : ((Upd.numVfsKeep p).apply s).numVfs = mKeep s.numVfs p := rfl
@[simp] theorem apply_lastGrantKeep (s : State) {p} : ((Upd.lastGrantKeep p).apply s).lastGrant = mKeep s.lastGrant p := rfl
@[simp] theorem apply_out (s : State) {o} : ((Upd.out o).apply s).out = s.out ++ [o] := rfl

/-! ## The fields it leaves -/

@[simp] theorem apply_pending (u : Upd) (s : State) : (u.apply s).pending = s.pending := by cases u <;> rfl
@[simp] theorem keeps_cycle {u : Upd} (h : u.part ≠ .cycle) (s : State) : (u.apply s).cycle = s.cycle := by
  cases u <;> first | rfl | exact absurd rfl h
@[simp] theorem keeps_power {u : Upd} (h : u.part ≠ .power) (s : State) : (u.apply s).power = s.power := by
  cases u <;> first | rfl | exact absurd rfl h
@[simp] theorem keeps_straps {u : Upd} (h : u.part ≠ .straps) (s : State) : (u.apply s).straps = s.straps := by
  cases u <;> first | rfl | exact absurd rfl h
@[simp] theorem keeps_fuses {u : Upd} (h : u.part ≠ .fuses) (s : State) : (u.apply s).fuses = s.fuses := by
  cases u <;> first | rfl | exact absurd rfl h
@[simp] theorem keeps_withdrawn {u : Upd} (h : u.part ≠ .withdrawn) (s : State) : (u.apply s).withdrawn = s.withdrawn := by
  cases u <;> first | rfl | exact absurd rfl h
@[simp] theorem keeps_ctl {u : Upd} (h : u.part ≠ .ctl) (s : State) : (u.apply s).ctl = s.ctl := by
  cases u <;> first | rfl | exact absurd rfl h
@[simp] theorem keeps_store {u : Upd} (h : u.part ≠ .store) (s : State) : (u.apply s).store = s.store := by
  cases u <;> first | rfl | exact absurd rfl h
@[simp] theorem keeps_rod {u : Upd} (h : u.part ≠ .rod) (s : State) : (u.apply s).rod = s.rod := by
  cases u <;> first | rfl | exact absurd rfl h
@[simp] theorem keeps_storeBad {u : Upd} (h : u.part ≠ .storeBad) (s : State) : (u.apply s).storeBad = s.storeBad := by
  cases u <;> first | rfl | exact absurd rfl h
@[simp] theorem keeps_rodBad {u : Upd} (h : u.part ≠ .rodBad) (s : State) : (u.apply s).rodBad = s.rodBad := by
  cases u <;> first | rfl | exact absurd rfl h
@[simp] theorem keeps_vreg {u : Upd} (h : u.part ≠ .vreg) (s : State) : (u.apply s).vreg = s.vreg := by
  cases u <;> first | rfl | exact absurd rfl h
@[simp] theorem keeps_acc {u : Upd} (h : u.part ≠ .acc) (s : State) : (u.apply s).acc = s.acc := by
  cases u <;> first | rfl | exact absurd rfl h
@[simp] theorem keeps_core {u : Upd} (h : u.part ≠ .core) (s : State) : (u.apply s).core = s.core := by
  cases u <;> first | rfl | exact absurd rfl h
@[simp] theorem keeps_mem {u : Upd} (h : u.part ≠ .mem) (s : State) : (u.apply s).mem = s.mem := by
  cases u <;> first | rfl | exact absurd rfl h
@[simp] theorem keeps_chk {u : Upd} (h : u.part ≠ .chk) (s : State) : (u.apply s).chk = s.chk := by
  cases u <;> first | rfl | exact absurd rfl h
@[simp] theorem keeps_farMem {u : Upd} (h : u.part ≠ .farMem) (s : State) : (u.apply s).farMem = s.farMem := by
  cases u <;> first | rfl | exact absurd rfl h
@[simp] theorem keeps_packets {u : Upd} (h : u.part ≠ .packets) (s : State) : (u.apply s).packets = s.packets := by
  cases u <;> first | rfl | exact absurd rfl h
@[simp] theorem keeps_lastGrant {u : Upd} (h : u.part ≠ .lastGrant) (s : State) : (u.apply s).lastGrant = s.lastGrant := by
  cases u <;> first | rfl | exact absurd rfl h
@[simp] theorem keeps_bulkOpen {u : Upd} (h : u.part ≠ .bulkOpen) (s : State) : (u.apply s).bulkOpen = s.bulkOpen := by
  cases u <;> first | rfl | exact absurd rfl h
@[simp] theorem keeps_bulkPend {u : Upd} (h : u.part ≠ .bulkPend) (s : State) : (u.apply s).bulkPend = s.bulkPend := by
  cases u <;> first | rfl | exact absurd rfl h
@[simp] theorem keeps_mesh {u : Upd} (h : u.part ≠ .mesh) (s : State) : (u.apply s).mesh = s.mesh := by
  cases u <;> first | rfl | exact absurd rfl h
@[simp] theorem keeps_merges {u : Upd} (h : u.part ≠ .merges) (s : State) : (u.apply s).merges = s.merges := by
  cases u <;> first | rfl | exact absurd rfl h
@[simp] theorem keeps_prog {u : Upd} (h : u.part ≠ .prog) (s : State) : (u.apply s).prog = s.prog := by
  cases u <;> first | rfl | exact absurd rfl h
@[simp] theorem keeps_progPend {u : Upd} (h : u.part ≠ .progPend) (s : State) : (u.apply s).progPend = s.progPend := by
  cases u <;> first | rfl | exact absurd rfl h
@[simp] theorem keeps_desc {u : Upd} (h : u.part ≠ .desc) (s : State) : (u.apply s).desc = s.desc := by
  cases u <;> first | rfl | exact absurd rfl h
@[simp] theorem keeps_evalDue {u : Upd} (h : u.part ≠ .evalDue) (s : State) : (u.apply s).evalDue = s.evalDue := by
  cases u <;> first | rfl | exact absurd rfl h
@[simp] theorem keeps_ringFail {u : Upd} (h : u.part ≠ .ringFail) (s : State) : (u.apply s).ringFail = s.ringFail := by
  cases u <;> first | rfl | exact absurd rfl h
@[simp] theorem keeps_lastTaken {u : Upd} (h : u.part ≠ .lastTaken) (s : State) : (u.apply s).lastTaken = s.lastTaken := by
  cases u <;> first | rfl | exact absurd rfl h
@[simp] theorem keeps_herd {u : Upd} (h : u.part ≠ .herd) (s : State) : (u.apply s).herd = s.herd := by
  cases u <;> first | rfl | exact absurd rfl h
@[simp] theorem keeps_extent {u : Upd} (h : u.part ≠ .extent) (s : State) : (u.apply s).extent = s.extent := by
  cases u <;> first | rfl | exact absurd rfl h
@[simp] theorem keeps_ssetOwner {u : Upd} (h : u.part ≠ .ssetOwner) (s : State) : (u.apply s).ssetOwner = s.ssetOwner := by
  cases u <;> first | rfl | exact absurd rfl h
@[simp] theorem keeps_moves {u : Upd} (h : u.part ≠ .moves) (s : State) : (u.apply s).moves = s.moves := by
  cases u <;> first | rfl | exact absurd rfl h
@[simp] theorem keeps_moveTurn {u : Upd} (h : u.part ≠ .moveTurn) (s : State) : (u.apply s).moveTurn = s.moveTurn := by
  cases u <;> first | rfl | exact absurd rfl h
@[simp] theorem keeps_touched {u : Upd} (h : u.part ≠ .touched) (s : State) : (u.apply s).touched = s.touched := by
  cases u <;> first | rfl | exact absurd rfl h
@[simp] theorem keeps_mergeBuf {u : Upd} (h : u.part ≠ .mergeBuf) (s : State) : (u.apply s).mergeBuf = s.mergeBuf := by
  cases u <;> first | rfl | exact absurd rfl h
@[simp] theorem keeps_bx {u : Upd} (h : u.part ≠ .bx) (s : State) : (u.apply s).bx = s.bx := by
  cases u <;> first | rfl | exact absurd rfl h
@[simp] theorem keeps_side {u : Upd} (h : u.part ≠ .side) (s : State) : (u.apply s).side = s.side := by
  cases u <;> first | rfl | exact absurd rfl h
@[simp] theorem keeps_hcmd {u : Upd} (h : u.part ≠ .hcmd) (s : State) : (u.apply s).hcmd = s.hcmd := by
  cases u <;> first | rfl | exact absurd rfl h
@[simp] theorem keeps_htag {u : Upd} (h : u.part ≠ .htag) (s : State) : (u.apply s).htag = s.htag := by
  cases u <;> first | rfl | exact absurd rfl h
@[simp] theorem keeps_coll {u : Upd} (h : u.part ≠ .coll) (s : State) : (u.apply s).coll = s.coll := by
  cases u <;> first | rfl | exact absurd rfl h
@[simp] theorem keeps_mc {u : Upd} (h : u.part ≠ .mc) (s : State) : (u.apply s).mc = s.mc := by
  cases u <;> first | rfl | exact absurd rfl h
@[simp] theorem keeps_aborts {u : Upd} (h : u.part ≠ .aborts) (s : State) : (u.apply s).aborts = s.aborts := by
  cases u <;> first | rfl | exact absurd rfl h
@[simp] theorem keeps_ended {u : Upd} (h : u.part ≠ .ended) (s : State) : (u.apply s).ended = s.ended := by
  cases u <;> first | rfl | exact absurd rfl h
@[simp] theorem keeps_cable {u : Upd} (h : u.part ≠ .cable) (s : State) : (u.apply s).cable = s.cable := by
  cases u <;> first | rfl | exact absurd rfl h
@[simp] theorem keeps_numVfs {u : Upd} (h : u.part ≠ .numVfs) (s : State) : (u.apply s).numVfs = s.numVfs := by
  cases u <;> first | rfl | exact absurd rfl h
@[simp] theorem keeps_bar2Log {u : Upd} (h : u.part ≠ .bar2Log) (s : State) : (u.apply s).bar2Log = s.bar2Log := by
  cases u <;> first | rfl | exact absurd rfl h
@[simp] theorem keeps_busyRing {u : Upd} (h : u.part ≠ .busyRing) (s : State) : (u.apply s).busyRing = s.busyRing := by
  cases u <;> first | rfl | exact absurd rfl h
@[simp] theorem keeps_phase {u : Upd} (h : u.part ≠ .phase) (s : State) : (u.apply s).phase = s.phase := by
  cases u <;> first | rfl | exact absurd rfl h
@[simp] theorem keeps_completions {u : Upd} (h : u.part ≠ .completions) (s : State) : (u.apply s).completions = s.completions := by
  cases u <;> first | rfl | exact absurd rfl h
@[simp] theorem keeps_notices {u : Upd} (h : u.part ≠ .notices) (s : State) : (u.apply s).notices = s.notices := by
  cases u <;> first | rfl | exact absurd rfl h
@[simp] theorem keeps_fnTurn {u : Upd} (h : u.part ≠ .fnTurn) (s : State) : (u.apply s).fnTurn = s.fnTurn := by
  cases u <;> first | rfl | exact absurd rfl h
@[simp] theorem keeps_hpTurn {u : Upd} (h : u.part ≠ .hpTurn) (s : State) : (u.apply s).hpTurn = s.hpTurn := by
  cases u <;> first | rfl | exact absurd rfl h
@[simp] theorem keeps_hpUsed {u : Upd} (h : u.part ≠ .hpUsed) (s : State) : (u.apply s).hpUsed = s.hpUsed := by
  cases u <;> first | rfl | exact absurd rfl h
@[simp] theorem keeps_perst {u : Upd} (h : u.part ≠ .perst) (s : State) : (u.apply s).perst = s.perst := by
  cases u <;> first | rfl | exact absurd rfl h
@[simp] theorem keeps_snap {u : Upd} (h : u.part ≠ .snap) (s : State) : (u.apply s).snap = s.snap := by
  cases u <;> first | rfl | exact absurd rfl h
@[simp] theorem keeps_spares {u : Upd} (h : u.part ≠ .spares) (s : State) : (u.apply s).spares = s.spares := by
  cases u <;> first | rfl | exact absurd rfl h
@[simp] theorem keeps_dumpRun {u : Upd} (h : u.part ≠ .dumpRun) (s : State) : (u.apply s).dumpRun = s.dumpRun := by
  cases u <;> first | rfl | exact absurd rfl h
@[simp] theorem keeps_flash {u : Upd} (h : u.part ≠ .flash) (s : State) : (u.apply s).flash = s.flash := by
  cases u <;> first | rfl | exact absurd rfl h
@[simp] theorem keeps_fwHeader {u : Upd} (h : u.part ≠ .fwHeader) (s : State) : (u.apply s).fwHeader = s.fwHeader := by
  cases u <;> first | rfl | exact absurd rfl h
@[simp] theorem keeps_wdtArmed {u : Upd} (h : u.part ≠ .wdtArmed) (s : State) : (u.apply s).wdtArmed = s.wdtArmed := by
  cases u <;> first | rfl | exact absurd rfl h
@[simp] theorem keeps_rstPend {u : Upd} (h : u.part ≠ .rstPend) (s : State) : (u.apply s).rstPend = s.rstPend := by
  cases u <;> first | rfl | exact absurd rfl h
@[simp] theorem keeps_mgmt {u : Upd} (h : u.part ≠ .mgmt) (s : State) : (u.apply s).mgmt = s.mgmt := by
  cases u <;> first | rfl | exact absurd rfl h
@[simp] theorem keeps_evQueue {u : Upd} (h : u.part ≠ .evQueue) (s : State) : (u.apply s).evQueue = s.evQueue := by
  cases u <;> first | rfl | exact absurd rfl h
@[simp] theorem keeps_lastCorr {u : Upd} (h : u.part ≠ .lastCorr) (s : State) : (u.apply s).lastCorr = s.lastCorr := by
  cases u <;> first | rfl | exact absurd rfl h
@[simp] theorem keeps_coalesced {u : Upd} (h : u.part ≠ .coalesced) (s : State) : (u.apply s).coalesced = s.coalesced := by
  cases u <;> first | rfl | exact absurd rfl h
@[simp] theorem keeps_searches {u : Upd} (h : u.part ≠ .searches) (s : State) : (u.apply s).searches = s.searches := by
  cases u <;> first | rfl | exact absurd rfl h
@[simp] theorem keeps_capRun {u : Upd} (h : u.part ≠ .capRun) (s : State) : (u.apply s).capRun = s.capRun := by
  cases u <;> first | rfl | exact absurd rfl h
@[simp] theorem keeps_freeCtr {u : Upd} (h : u.part ≠ .freeCtr) (s : State) : (u.apply s).freeCtr = s.freeCtr := by
  cases u <;> first | rfl | exact absurd rfl h
@[simp] theorem keeps_out {u : Upd} (h : u.part ≠ .out) (s : State) : (u.apply s).out = s.out := by
  cases u <;> first | rfl | exact absurd rfl h

/-! ## Acts -/

@[simp] theorem applyAll_nil (s : State) : applyAll [] s = s := rfl
@[simp] theorem applyAll_cons (u : Upd) (us : List Upd) (s : State) : applyAll (u :: us) s = applyAll us (u.apply s) := rfl
theorem applyAll_append (us vs : List Upd) (s : State) : applyAll (us ++ vs) s = applyAll vs (applyAll us s) := by
  induction us generalizing s with
  | nil => rfl
  | cons u us ih => exact ih _

@[simp] theorem after_nop (s : State) : after nop s = s := rfl
@[simp] theorem after_one (u : Upd) (s : State) : after (one u) s = u.apply s := rfl
@[simp] theorem after_look (f : State → Act) (s : State) : after (look f) s = after (f s) s := rfl
@[simp] theorem after_act (c : Bool) (a : Act) (s : State) : after (act c a) s = if c then after a s else s := by
  cases c <;> rfl
@[simp] theorem after_ite (c : Prop) [Decidable c] (a b : Act) (s : State) :
    after (if c then a else b) s = if c then after a s else after b s := by
  split <;> rfl
@[simp] theorem after_thn (a b : Act) (s : State) : after (thn a b) s = after b (after a s) := applyAll_append _ _ _
@[simp] theorem after_seq_nil (s : State) : after (seq []) s = s := rfl
@[simp] theorem after_seq_cons (a : Act) (as : List Act) (s : State) : after (seq (a :: as)) s = after (seq as) (after a s) :=
  after_thn a (seq as) s
@[simp] theorem after_each_nil {α : Type} (f : α → Act) (s : State) : after (each [] f) s = s := rfl
@[simp] theorem after_each_cons {α : Type} (x : α) (xs : List α) (f : α → Act) (s : State) :
    after (each (x :: xs) f) s = after (each xs f) (after (f x) s) := after_seq_cons _ _ _

/-- No act touches the queue of waiting commands. -/
@[simp] theorem applyAll_pending (us : List Upd) (s : State) : (applyAll us s).pending = s.pending := by
  induction us generalizing s with
  | nil => rfl
  | cons u us ih => simp [ih]
@[simp] theorem after_pending (a : Act) (s : State) : (after a s).pending = s.pending := applyAll_pending _ _

/-- What every update of an act keeps, the act keeps. -/
theorem applyAll_keeps {P : State → Prop} (h : ∀ u s, P s → P (Upd.apply u s)) (us : List Upd) (s : State) (hs : P s) :
    P (applyAll us s) := by
  induction us generalizing s with
  | nil => exact hs
  | cons u us ih => exact ih _ (h u s hs)
theorem after_keeps {P : State → Prop} (h : ∀ u s, P s → P (Upd.apply u s)) (a : Act) (s : State) (hs : P s) : P (after a s) :=
  applyAll_keeps h _ _ hs

/-- What every one of a list of acts keeps, their sequence keeps. -/
theorem after_seq_keeps {P : State → Prop} (as : List Act) (h : ∀ a ∈ as, ∀ s, P s → P (after a s)) (s : State) (hs : P s) :
    P (after (seq as) s) := by
  induction as generalizing s with
  | nil => exact hs
  | cons a as ih =>
    rw [after_seq_cons]
    exact ih (fun b hb => h b (List.mem_cons_of_mem _ hb)) _ (h a (by simp) s hs)
theorem after_each_keeps {α : Type} {P : State → Prop} (xs : List α) (f : α → Act)
    (h : ∀ x ∈ xs, ∀ s, P s → P (after (f x) s)) (s : State) (hs : P s) : P (after (each xs f) s) := by
  refine after_seq_keeps _ (fun a ha => ?_) s hs
  obtain ⟨x, hx, rfl⟩ := List.mem_map.1 ha
  exact h x hx

/-- A command answers the state its act leaves, in a powered module. -/
theorem run_powered {a : Act} {s : State} (h : powered s = true) : run a s = .next (after a s) := by
  simp [run, h]
theorem run_unpowered {a : Act} {s : State} (h : powered s = false) : run a s = .next s := by
  simp [run, h]

end Sys2Proof.Machine
end

