-- ==== Sys2Proof/Laws/Acts.lean ====
section
/-! SUPPORT. Which fields of the state an act can change: for each shared operation, once, everything it can touch. -/

namespace Sys2Proof.Machine

/-- Act a changes only the fields that ps names. -/
structure Within (ps : List Part) (a : Act) : Prop where
  mem : ∀ s, ∀ u ∈ a s, ps.contains u.part = true

theorem within_nop {ps : List Part} : Within ps nop := ⟨fun _ _ h => by simp [nop] at h⟩
theorem within_one {ps : List Part} {u : Upd} (h : ps.contains u.part = true) : Within ps (one u) :=
  ⟨fun _ v hv => by simp only [one, List.mem_singleton] at hv; rw [hv]; exact h⟩
theorem within_look {ps : List Part} {f : State → Act} (h : ∀ s, Within ps (f s)) : Within ps (look f) :=
  ⟨fun s u hu => (h s).mem s u hu⟩
theorem within_act {ps : List Part} {c : Bool} {a : Act} (h : Within ps a) : Within ps (act c a) := by
  cases c
  · exact within_nop
  · exact h
theorem within_ite {ps : List Part} {c : Prop} [Decidable c] {a b : Act} (ha : Within ps a) (hb : Within ps b) :
    Within ps (if c then a else b) := by
  split <;> assumption
theorem within_thn {ps : List Part} {a b : Act} (ha : Within ps a) (hb : Within ps b) : Within ps (thn a b) :=
  ⟨fun s u hu => by
    rcases List.mem_append.1 hu with h | h
    · exact ha.mem s u h
    · exact hb.mem _ u h⟩
theorem within_seq_nil {ps : List Part} : Within ps (seq []) := within_nop
theorem within_seq_cons {ps : List Part} {a : Act} {as : List Act} (ha : Within ps a) (hs : Within ps (seq as)) :
    Within ps (seq (a :: as)) := within_thn ha hs
theorem within_seq {ps : List Part} {as : List Act} (h : ∀ a ∈ as, Within ps a) : Within ps (seq as) := by
  induction as with
  | nil => exact within_nop
  | cons a as ih => exact within_thn (h a (by simp)) (ih fun b hb => h b (by simp [hb]))
theorem within_each {α : Type} {ps : List Part} {xs : List α} {f : α → Act} (h : ∀ x, Within ps (f x)) : Within ps (each xs f) := by
  refine within_seq fun a ha => ?_
  obtain ⟨x, _, rfl⟩ := List.mem_map.1 ha
  exact h x
theorem Within.mono {ps qs : List Part} {a : Act} (h : Within ps a) (hq : ∀ p ∈ ps, qs.contains p = true) : Within qs a :=
  ⟨fun s u hu => hq _ (List.contains_iff_mem.1 (h.mem s u hu))⟩

theorem within_mapGetD {α : Type} {ps : List Part} {o : Option α} {f : α → Act} (h : ∀ x, Within ps (f x)) :
    Within ps ((o.map f).getD nop) := by
  cases o
  · exact within_nop
  · exact h _

/-- Every field that qs names is one that ps names. -/
def covers (ps qs : List Part) : Bool := qs.all ps.contains

theorem Within.wider {ps qs : List Part} {a : Act} (h : Within qs a) (hq : covers ps qs = true) : Within ps a :=
  h.mono fun p hp => List.all_eq_true.1 hq p hp

theorem covers_trans {ps qs rs : List Part} (h : covers ps qs = true) (hr : covers qs rs = true) : covers ps rs = true :=
  List.all_eq_true.2 fun p hp => List.all_eq_true.1 h p (List.contains_iff_mem.1 (List.all_eq_true.1 hr p hp))

theorem covers_mem {ps qs : List Part} (h : covers ps qs = true) {p : Part} (hp : qs.contains p = true) : ps.contains p = true :=
  List.all_eq_true.1 h p (List.contains_iff_mem.1 hp)

/-- A migration request whose act, where it is not refused, changes only the fields that ps names. -/
def WithinReq (ps : List Part) (body : MigReq) : Prop := ∀ h s x n, body h s = some (x, n) → Within ps x

theorem WithinReq.wider {ps qs : List Part} {b : MigReq} (h : WithinReq qs b) (hq : covers ps qs = true) : WithinReq ps b :=
  fun _ _ _ _ he => (h _ _ _ _ he).wider hq

/-- What an act does not touch it leaves. -/
theorem Within.keeps {ps : List Part} {a : Act} (h : Within ps a) {β : Type} (f : State → β) {p : Part}
    (hf : ∀ {u : Upd}, u.part ≠ p → ∀ s, f (u.apply s) = f s) (hp : ps.contains p = false) (s : State) : f (after a s) = f s := by
  have : ∀ (us : List Upd), (∀ u ∈ us, ps.contains u.part = true) → ∀ s, f (applyAll us s) = f s := by
    intro us
    induction us with
    | nil => intro _ s; rfl
    | cons u us ih =>
      intro hu s
      have h1 : u.part ≠ p := fun e => by
        have := hu u (by simp)
        rw [e, hp] at this; exact Bool.noConfusion this
      rw [applyAll_cons, ih (fun v hv => hu v (by simp [hv])) _, hf h1]
  exact this _ (h.mem s) s

/-- The frame that an act's fields give. -/
theorem Within.onlyIn {ps : List Part} {a : Act} (h : Within ps a) (s : State) : OnlyIn ps s (after a s) := by
  intro p hp
  cases p
  case pending => exact after_pending a s
  case cycle => exact h.keeps (·.cycle) keeps_cycle hp s
  case power => exact h.keeps (·.power) keeps_power hp s
  case straps => exact h.keeps (·.straps) keeps_straps hp s
  case fuses => exact h.keeps (·.fuses) keeps_fuses hp s
  case withdrawn => exact h.keeps (·.withdrawn) keeps_withdrawn hp s
  case ctl => exact h.keeps (·.ctl) keeps_ctl hp s
  case store => exact h.keeps (·.store) keeps_store hp s
  case rod => exact h.keeps (·.rod) keeps_rod hp s
  case storeBad => exact h.keeps (·.storeBad) keeps_storeBad hp s
  case rodBad => exact h.keeps (·.rodBad) keeps_rodBad hp s
  case vreg => exact h.keeps (·.vreg) keeps_vreg hp s
  case acc => exact h.keeps (·.acc) keeps_acc hp s
  case core => exact h.keeps (·.core) keeps_core hp s
  case mem => exact h.keeps (·.mem) keeps_mem hp s
  case chk => exact h.keeps (·.chk) keeps_chk hp s
  case farMem => exact h.keeps (·.farMem) keeps_farMem hp s
  case packets => exact h.keeps (·.packets) keeps_packets hp s
  case lastGrant => exact h.keeps (·.lastGrant) keeps_lastGrant hp s
  case bulkOpen => exact h.keeps (·.bulkOpen) keeps_bulkOpen hp s
  case bulkPend => exact h.keeps (·.bulkPend) keeps_bulkPend hp s
  case mesh => exact h.keeps (·.mesh) keeps_mesh hp s
  case merges => exact h.keeps (·.merges) keeps_merges hp s
  case prog => exact h.keeps (·.prog) keeps_prog hp s
  case progPend => exact h.keeps (·.progPend) keeps_progPend hp s
  case desc => exact h.keeps (·.desc) keeps_desc hp s
  case evalDue => exact h.keeps (·.evalDue) keeps_evalDue hp s
  case ringFail => exact h.keeps (·.ringFail) keeps_ringFail hp s
  case lastTaken => exact h.keeps (·.lastTaken) keeps_lastTaken hp s
  case herd => exact h.keeps (·.herd) keeps_herd hp s
  case extent => exact h.keeps (·.extent) keeps_extent hp s
  case ssetOwner => exact h.keeps (·.ssetOwner) keeps_ssetOwner hp s
  case moves => exact h.keeps (·.moves) keeps_moves hp s
  case moveTurn => exact h.keeps (·.moveTurn) keeps_moveTurn hp s
  case touched => exact h.keeps (·.touched) keeps_touched hp s
  case mergeBuf => exact h.keeps (·.mergeBuf) keeps_mergeBuf hp s
  case bx => exact h.keeps (·.bx) keeps_bx hp s
  case side => exact h.keeps (·.side) keeps_side hp s
  case hcmd => exact h.keeps (·.hcmd) keeps_hcmd hp s
  case htag => exact h.keeps (·.htag) keeps_htag hp s
  case coll => exact h.keeps (·.coll) keeps_coll hp s
  case mc => exact h.keeps (·.mc) keeps_mc hp s
  case numVfs => exact h.keeps (·.numVfs) keeps_numVfs hp s
  case bar2Log => exact h.keeps (·.bar2Log) keeps_bar2Log hp s
  case busyRing => exact h.keeps (·.busyRing) keeps_busyRing hp s
  case phase => exact h.keeps (·.phase) keeps_phase hp s
  case completions => exact h.keeps (·.completions) keeps_completions hp s
  case notices => exact h.keeps (·.notices) keeps_notices hp s
  case perst => exact h.keeps (·.perst) keeps_perst hp s
  case snap => exact h.keeps (·.snap) keeps_snap hp s
  case spares => exact h.keeps (·.spares) keeps_spares hp s
  case dumpRun => exact h.keeps (·.dumpRun) keeps_dumpRun hp s
  case flash => exact h.keeps (·.flash) keeps_flash hp s
  case fwHeader => exact h.keeps (·.fwHeader) keeps_fwHeader hp s
  case wdtArmed => exact h.keeps (·.wdtArmed) keeps_wdtArmed hp s
  case rstPend => exact h.keeps (·.rstPend) keeps_rstPend hp s
  case mgmt => exact h.keeps (·.mgmt) keeps_mgmt hp s
  case evQueue => exact h.keeps (·.evQueue) keeps_evQueue hp s
  case lastCorr => exact h.keeps (·.lastCorr) keeps_lastCorr hp s
  case coalesced => exact h.keeps (·.coalesced) keeps_coalesced hp s
  case searches => exact h.keeps (·.searches) keeps_searches hp s
  case capRun => exact h.keeps (·.capRun) keeps_capRun hp s
  case freeCtr => exact h.keeps (·.freeCtr) keeps_freeCtr hp s
  case out => exact h.keeps (·.out) keeps_out hp s
  case aborts => exact h.keeps (·.aborts) keeps_aborts hp s
  case ended => exact h.keeps (·.ended) keeps_ended hp s
  case cable => exact h.keeps (·.cable) keeps_cable hp s
  case fnTurn => exact h.keeps (·.fnTurn) keeps_fnTurn hp s
  case hpTurn => exact h.keeps (·.hpTurn) keeps_hpTurn hp s
  case hpUsed => exact h.keeps (·.hpUsed) keeps_hpUsed hp s

end Sys2Proof.Machine
end

