-- ==== Sys2Proof/Laws/FrameOps.lean ====
section
/-! SUPPORT. The fields that each act can change: the flags, the access checks, device memory, the rings, the pod frames and the tallies. One lemma for an act; no proof about frames needs to unfold it again. -/

namespace Sys2Proof.Machine

/-! ## Flags -/

theorem within_wr (a : Nat) (v : Word) : Within [.ctl] (wr a v) := by
  unfold wr
  repeat' first
    | with_reducible refine within_one ?_
    | rfl

theorem within_wrFld (a hi lo v : Nat) : Within [.ctl] (wrFld a hi lo v) := by
  unfold wrFld
  repeat' first
    | with_reducible refine (within_wr ..).wider ?_
    | with_reducible refine within_look fun _ => ?_
    | rfl

theorem within_wrBit (a i : Nat) (b : Bool) : Within [.ctl] (wrBit a i b) := by
  unfold wrBit
  repeat' first
    | with_reducible refine (within_wr ..).wider ?_
    | with_reducible refine within_look fun _ => ?_
    | rfl

theorem within_wr64 (a : Nat) (v : DWord) : Within [.ctl] (wr64 a v) := by
  unfold wr64
  repeat' first
    | with_reducible refine (within_wr ..).wider ?_
    | with_reducible apply within_seq_cons
    | with_reducible exact within_seq_nil
    | rfl

theorem within_setIst (p i : Nat) : Within [.ctl] (setIst p i) := by
  unfold setIst
  repeat' first
    | with_reducible refine (within_wrBit ..).wider ?_
    | rfl

theorem within_setLevel (p i : Nat) (b : Bool) : Within [.ctl] (setLevel p i b) := by
  unfold setLevel
  repeat' first
    | with_reducible refine (within_setIst ..).wider ?_
    | with_reducible refine (within_wrBit ..).wider ?_
    | with_reducible apply within_seq_cons
    | with_reducible exact within_seq_nil
    | with_reducible refine within_look fun _ => ?_
    | with_reducible refine within_act ?_
    | rfl

theorem within_takeFree (n : Nat) : Within [.freeCtr] (takeFree n) := by
  unfold takeFree
  repeat' first
    | with_reducible refine within_one ?_
    | with_reducible refine within_look fun _ => ?_
    | rfl

theorem within_autoDump (c : Cls) : Within [.ctl, .dumpRun] (autoDump c) := by
  unfold autoDump
  repeat' first
    | with_reducible exact within_nop
    | with_reducible refine (within_wrBit ..).wider ?_
    | with_reducible refine within_one ?_
    | with_reducible apply within_seq_cons
    | with_reducible exact within_seq_nil
    | with_reducible refine within_look fun _ => ?_
    | with_reducible refine within_ite ?_ ?_
    | rfl

theorem within_raise (p : Nat) (c : Capture) : Within [.ctl, .dumpRun, .freeCtr] (raise p c) := by
  unfold raise
  repeat' first
    | with_reducible refine (within_autoDump ..).wider ?_
    | with_reducible refine (within_setIst ..).wider ?_
    | with_reducible refine (within_takeFree ..).wider ?_
    | with_reducible refine (within_wr ..).wider ?_
    | with_reducible refine (within_wrBit ..).wider ?_
    | with_reducible refine within_mapGetD fun _ => ?_
    | with_reducible refine within_one ?_
    | with_reducible apply within_seq_cons
    | with_reducible exact within_seq_nil
    | with_reducible refine within_look fun _ => ?_
    | with_reducible refine within_act ?_
    | with_reducible refine within_ite ?_ ?_
    | rfl

theorem within_count (p k n : Nat) : Within [.ctl] (count p k n) := by
  unfold count
  repeat' first
    | with_reducible exact within_nop
    | with_reducible refine (within_setIst ..).wider ?_
    | with_reducible refine (within_wr ..).wider ?_
    | with_reducible apply within_seq_cons
    | with_reducible exact within_seq_nil
    | with_reducible refine within_look fun _ => ?_
    | with_reducible refine within_act ?_
    | with_reducible refine within_ite ?_ ?_
    | rfl

theorem within_clearCounters (p : Nat) (errToo : Bool) : Within [.ctl] (clearCounters p errToo) := by
  unfold clearCounters
  repeat' first
    | with_reducible refine (within_wr ..).wider ?_
    | with_reducible apply within_seq_cons
    | with_reducible exact within_seq_nil
    | with_reducible refine within_each fun _ => ?_
    | with_reducible refine within_act ?_
    | rfl

/-! ## Ops -/

theorem within_setCore (site : Nat) (f : CoreX → CoreX) : Within [.core] (setCore site f) := by
  unfold setCore
  repeat' first
    | with_reducible refine within_one ?_
    | with_reducible refine within_look fun _ => ?_
    | rfl

theorem within_setHerd (h : Nat) (f : Herd → Herd) : Within [.herd] (setHerd h f) := by
  unfold setHerd
  repeat' first
    | with_reducible exact within_nop
    | with_reducible refine within_one ?_
    | with_reducible refine within_look fun _ => ?_
    | rfl
    | split

theorem within_stPut (site n : Nat) (v : BitVec 256) : Within [.store, .storeBad] (stPut site n v) := by
  unfold stPut
  repeat' first
    | with_reducible refine within_one ?_
    | with_reducible apply within_seq_cons
    | with_reducible exact within_seq_nil
    | rfl

theorem within_vPut (site n : Nat) (v : BitVec 512) : Within [.vreg] (vPut site n v) := by
  unfold vPut
  repeat' first
    | with_reducible refine within_one ?_
    | rfl

theorem within_accPut (site b e : Nat) (v : Word) : Within [.acc] (accPut site b e v) := by
  unfold accPut
  repeat' first
    | with_reducible refine within_one ?_
    | rfl

theorem within_rodPut (site r : Nat) (v : BitVec 128) : Within [.rod, .rodBad] (rodPut site r v) := by
  unfold rodPut
  repeat' first
    | with_reducible refine within_one ?_
    | with_reducible apply within_seq_cons
    | with_reducible exact within_seq_nil
    | rfl

theorem within_stClear (site : Nat) : Within [.store, .storeBad] (stClear site) := by
  unfold stClear
  repeat' first
    | with_reducible refine within_one ?_
    | with_reducible apply within_seq_cons
    | with_reducible exact within_seq_nil
    | rfl

theorem within_rodClear (site : Nat) : Within [.rod, .rodBad] (rodClear site) := by
  unfold rodClear
  repeat' first
    | with_reducible refine within_one ?_
    | with_reducible apply within_seq_cons
    | with_reducible exact within_seq_nil
    | rfl

theorem within_memPut (a : Nat) (bs : List Byte) : Within [.mem] (memPut a bs) := by
  unfold memPut
  repeat' first
    | with_reducible refine within_one ?_
    | with_reducible refine within_each fun _ => ?_
    | rfl

theorem within_memCopy (a b n : Nat) : Within [.mem] (memCopy a b n) := by
  unfold memCopy
  repeat' first
    | with_reducible refine within_one ?_
    | with_reducible apply within_seq_cons
    | with_reducible exact within_seq_nil
    | with_reducible refine within_look fun _ => ?_
    | with_reducible refine within_each fun _ => ?_
    | rfl

theorem within_memZero (a n : Nat) : Within [.mem] (memZero a n) := by
  unfold memZero
  repeat' first
    | with_reducible refine within_one ?_
    | rfl

theorem within_refuseAccess (r : Requester) : Within [.ctl, .dumpRun, .freeCtr] (refuseAccess r) := by
  unfold refuseAccess
  repeat' first
    | with_reducible refine (within_count ..).wider ?_
    | with_reducible refine (within_raise ..).wider ?_
    | with_reducible apply within_seq_cons
    | with_reducible exact within_seq_nil
    | rfl

theorem within_absentWrite (r : Requester) : Within [.ctl, .dumpRun, .freeCtr] (absentWrite r) := by
  unfold absentWrite
  repeat' first
    | with_reducible refine (within_count ..).wider ?_
    | with_reducible refine (within_raise ..).wider ?_
    | with_reducible apply within_seq_cons
    | with_reducible exact within_seq_nil
    | rfl

theorem within_guarded {ps : List Part} (hps : covers ps [.ctl, .dumpRun, .freeCtr] = true) {r : Requester} {a : Nat} {eff : Act} (heff : Within ps eff) : Within ps (guarded r a eff) := by
  unfold guarded
  repeat' first
    | with_reducible exact within_nop
    | with_reducible exact heff
    | with_reducible exact (((within_absentWrite ..).wider (ps := [.ctl, .dumpRun, .freeCtr]) rfl)).wider hps
    | with_reducible exact (((within_refuseAccess ..).wider (ps := [.ctl, .dumpRun, .freeCtr]) rfl)).wider hps
    | with_reducible refine within_look fun _ => ?_
    | with_reducible refine within_ite ?_ ?_

theorem within_protocolAt (p : Nat) (r : Requester) : Within [.ctl, .dumpRun, .freeCtr] (protocolAt p r) := by
  unfold protocolAt
  repeat' first
    | with_reducible refine (within_raise ..).wider ?_
    | rfl

theorem within_maskWrite (b : Block) (a : Nat) (v : Word) : Within [.ctl] (maskWrite b a v) := by
  unfold maskWrite
  repeat' first
    | with_reducible exact within_nop
    | with_reducible refine (within_wr ..).wider ?_
    | with_reducible refine within_one ?_
    | with_reducible refine within_look fun _ => ?_
    | rfl
    | split

theorem within_plainWrite (r : Requester) (a : Nat) (v : Word) : Within [.ctl, .dumpRun, .freeCtr] (plainWrite r a v) := by
  unfold plainWrite
  repeat' first
    | with_reducible refine within_guarded rfl ?_
    | with_reducible refine (within_maskWrite ..).wider ?_
    | with_reducible refine within_look fun _ => ?_
    | rfl

/-! ## DeviceMem -/

theorem within_putRaw (q : Nat) (data delta : List Byte) : Within [.mem, .chk] (putRaw q data delta) := by
  unfold putRaw
  repeat' first
    | with_reducible refine (within_memPut ..).wider ?_
    | with_reducible refine within_one ?_
    | with_reducible apply within_seq_cons
    | with_reducible exact within_seq_nil
    | with_reducible refine within_each fun _ => ?_
    | rfl

theorem within_corrEvent (b nsym : Nat) (src : Src) (herd : Option Nat) : Within [.ctl, .dumpRun, .freeCtr] (corrEvent b nsym src herd) := by
  unfold corrEvent
  repeat' first
    | with_reducible refine (within_count ..).wider ?_
    | with_reducible refine (within_raise ..).wider ?_
    | with_reducible apply within_seq_cons
    | with_reducible exact within_seq_nil
    | rfl

theorem within_uncorrEvent (b code : Nat) (src : Src) (herd : Option Nat) : Within [.ctl, .dumpRun, .freeCtr] (uncorrEvent b code src herd) := by
  unfold uncorrEvent
  repeat' first
    | with_reducible refine (within_count ..).wider ?_
    | with_reducible refine (within_raise ..).wider ?_
    | with_reducible apply within_seq_cons
    | with_reducible exact within_seq_nil
    | with_reducible refine within_look fun _ => ?_
    | rfl

theorem within_dropMerge (m : MergeEntry) : Within [.ctl, .mergeBuf] (dropMerge m) := by
  unfold dropMerge
  repeat' first
    | with_reducible refine (within_wrFld ..).wider ?_
    | with_reducible refine within_one ?_
    | with_reducible apply within_seq_cons
    | with_reducible exact within_seq_nil
    | with_reducible refine within_look fun _ => ?_
    | rfl

theorem within_storeBlk (b : Nat) (data : List Byte) : Within [.ctl, .mem, .chk] (storeBlk b data) := by
  unfold storeBlk
  repeat' first
    | with_reducible exact within_nop
    | with_reducible refine (within_count ..).wider ?_
    | with_reducible refine (within_putRaw ..).wider ?_
    | with_reducible refine (within_wrBit ..).wider ?_
    | with_reducible refine within_one ?_
    | with_reducible apply within_seq_cons
    | with_reducible exact within_seq_nil
    | with_reducible refine within_look fun _ => ?_
    | rfl
    | split

theorem within_retireMerge (m : MergeEntry) : Within [.ctl, .mem, .chk, .mergeBuf, .dumpRun, .freeCtr] (retireMerge m) := by
  unfold retireMerge
  repeat' first
    | with_reducible exact within_nop
    | with_reducible refine (within_corrEvent ..).wider ?_
    | with_reducible refine (within_count ..).wider ?_
    | with_reducible refine (within_dropMerge ..).wider ?_
    | with_reducible refine (within_storeBlk ..).wider ?_
    | with_reducible refine (within_uncorrEvent ..).wider ?_
    | with_reducible refine within_one ?_
    | with_reducible apply within_seq_cons
    | with_reducible exact within_seq_nil
    | with_reducible refine within_look fun _ => ?_
    | rfl
    | split

theorem within_retireFor (b : Nat) : Within [.ctl, .mem, .chk, .mergeBuf, .dumpRun, .freeCtr] (retireFor b) := by
  unfold retireFor
  repeat' first
    | with_reducible exact within_nop
    | with_reducible refine (within_retireMerge ..).wider ?_
    | with_reducible refine within_one ?_
    | with_reducible refine within_look fun _ => ?_
    | rfl
    | split

theorem within_dropFor (b : Nat) : Within [.ctl, .mergeBuf] (dropFor b) := by
  unfold dropFor
  repeat' first
    | with_reducible exact within_nop
    | with_reducible refine (within_dropMerge ..).wider ?_
    | with_reducible refine within_one ?_
    | with_reducible refine within_look fun _ => ?_
    | rfl
    | split

theorem within_remapInto (n e l : Nat) (poison : Bool) : Within [.ctl, .mem, .chk, .mergeBuf, .dumpRun, .freeCtr] (remapInto n e l poison) := by
  unfold remapInto
  repeat' first
    | with_reducible exact within_nop
    | with_reducible refine (within_corrEvent ..).wider ?_
    | with_reducible refine (within_count ..).wider ?_
    | with_reducible refine (within_putRaw ..).wider ?_
    | with_reducible refine (within_retireFor ..).wider ?_
    | with_reducible refine (within_uncorrEvent ..).wider ?_
    | with_reducible refine (within_wr ..).wider ?_
    | with_reducible refine (within_wrFld ..).wider ?_
    | with_reducible refine within_one ?_
    | with_reducible apply within_seq_cons
    | with_reducible exact within_seq_nil
    | with_reducible refine within_look fun _ => ?_
    | rfl
    | split

theorem within_hardFault (b : Nat) (src : Src) (herd : Option Nat) : Within [.ctl, .mem, .chk, .mergeBuf, .dumpRun, .freeCtr] (hardFault b src herd) := by
  unfold hardFault
  repeat' first
    | with_reducible exact within_nop
    | with_reducible refine (within_raise ..).wider ?_
    | with_reducible refine (within_remapInto ..).wider ?_
    | with_reducible refine (within_setIst ..).wider ?_
    | with_reducible refine within_one ?_
    | with_reducible apply within_seq_cons
    | with_reducible exact within_seq_nil
    | with_reducible refine within_look fun _ => ?_
    | with_reducible refine within_ite ?_ ?_
    | rfl
    | split

theorem within_showErrors (q : Nat) (errs : List (Nat × Byte)) : Within [.mem, .chk] (showErrors q errs) := by
  unfold showErrors
  repeat' first
    | with_reducible exact within_nop
    | with_reducible refine (within_putRaw ..).wider ?_
    | with_reducible refine within_mapGetD fun _ => ?_
    | with_reducible refine within_one ?_
    | with_reducible refine within_look fun _ => ?_
    | with_reducible refine within_each fun _ => ?_
    | with_reducible refine within_ite ?_ ?_
    | rfl

theorem within_readDecode (b : Nat) (src : Src) (herd : Option Nat) (wb verify : Bool) (noise : List (Nat × Byte)) : Within [.ctl, .mem, .chk, .mergeBuf, .dumpRun, .freeCtr] (readDecode b src herd wb verify noise) := by
  unfold readDecode
  repeat' first
    | with_reducible exact within_nop
    | with_reducible refine (within_corrEvent ..).wider ?_
    | with_reducible refine (within_count ..).wider ?_
    | with_reducible refine (within_hardFault ..).wider ?_
    | with_reducible refine (within_putRaw ..).wider ?_
    | with_reducible refine (within_showErrors ..).wider ?_
    | with_reducible refine (within_uncorrEvent ..).wider ?_
    | with_reducible refine within_one ?_
    | with_reducible apply within_seq_cons
    | with_reducible exact within_seq_nil
    | with_reducible refine within_look fun _ => ?_
    | with_reducible refine within_act ?_
    | with_reducible refine within_ite ?_ ?_
    | rfl
    | split

theorem within_readBy (b : Nat) (src : Src) (herd : Option Nat) (wb verify : Bool) (noise : List (Nat × Byte)) : Within [.ctl, .mem, .chk, .mergeBuf, .dumpRun, .freeCtr] (readBy b src herd wb verify noise) := by
  unfold readBy
  repeat' first
    | with_reducible exact within_nop
    | with_reducible refine (within_count ..).wider ?_
    | with_reducible refine (within_readDecode ..).wider ?_
    | with_reducible refine (within_retireMerge ..).wider ?_
    | with_reducible refine within_one ?_
    | with_reducible apply within_seq_cons
    | with_reducible exact within_seq_nil
    | with_reducible refine within_look fun _ => ?_
    | with_reducible refine within_ite ?_ ?_
    | rfl
    | split

theorem within_showNoise (b : Nat) (noise : List (Nat × Byte)) : Within [.mem, .chk] (showNoise b noise) := by
  unfold showNoise
  repeat' first
    | with_reducible refine (within_showErrors ..).wider ?_
    | with_reducible refine within_look fun _ => ?_
    | rfl

theorem within_portRead (b : Nat) (src : Src) (herd : Option Nat) (noise : List (Nat × Byte)) : Within [.ctl, .mem, .chk, .mergeBuf, .dumpRun, .freeCtr] (portRead b src herd noise) := by
  unfold portRead
  repeat' first
    | with_reducible refine (within_readBy ..).wider ?_
    | with_reducible refine within_look fun _ => ?_
    | rfl

theorem within_portWrite (b : Nat) (data : List Byte) : Within [.ctl, .mem, .chk, .mergeBuf] (portWrite b data) := by
  unfold portWrite
  repeat' first
    | with_reducible refine (within_dropFor ..).wider ?_
    | with_reducible refine (within_storeBlk ..).wider ?_
    | with_reducible apply within_seq_cons
    | with_reducible exact within_seq_nil
    | rfl

theorem within_portMerge (b herd : Nat) (data : List (Option Byte)) (part : Option (Nat × Byte × Byte)) : Within [.ctl, .mem, .chk, .mergeBuf, .dumpRun, .freeCtr] (portMerge b herd data part) := by
  unfold portMerge
  repeat' first
    | with_reducible exact within_nop
    | with_reducible refine (within_dropMerge ..).wider ?_
    | with_reducible refine (within_retireMerge ..).wider ?_
    | with_reducible refine (within_storeBlk ..).wider ?_
    | with_reducible refine (within_wrFld ..).wider ?_
    | with_reducible refine within_mapGetD fun _ => ?_
    | with_reducible refine within_one ?_
    | with_reducible apply within_seq_cons
    | with_reducible exact within_seq_nil
    | with_reducible refine within_look fun _ => ?_
    | with_reducible refine within_ite ?_ ?_
    | rfl
    | split

theorem within_portNarrow (b herd : Nat) (data : List (Option Byte)) : Within [.ctl, .mem, .chk, .mergeBuf, .dumpRun, .freeCtr] (portNarrow b herd data) := by
  unfold portNarrow
  repeat' first
    | with_reducible refine (within_portMerge ..).wider ?_
    | with_reducible refine within_one ?_
    | rfl

theorem within_devWrite (a : Nat) (bs : List Byte) (herd : Nat) : Within [.ctl, .mem, .chk, .mergeBuf, .dumpRun, .freeCtr] (devWrite a bs herd) := by
  unfold devWrite
  repeat' first
    | with_reducible refine (within_portNarrow ..).wider ?_
    | with_reducible refine (within_portWrite ..).wider ?_
    | with_reducible refine within_one ?_
    | with_reducible refine within_each fun _ => ?_
    | with_reducible refine within_ite ?_ ?_
    | rfl

theorem within_devReadActs (a n : Nat) (src : Src) (herd : Option Nat) : Within [.ctl, .mem, .chk, .mergeBuf, .dumpRun, .freeCtr] (devReadActs a n src herd) := by
  unfold devReadActs
  repeat' first
    | with_reducible refine (within_portRead ..).wider ?_
    | with_reducible refine within_each fun _ => ?_
    | rfl

theorem within_tablePut (a n v : Nat) : Within [.ctl, .mem, .chk, .mergeBuf, .dumpRun, .freeCtr] (tablePut a n v) := by
  unfold tablePut
  repeat' first
    | with_reducible refine (within_corrEvent ..).wider ?_
    | with_reducible refine (within_count ..).wider ?_
    | with_reducible refine (within_putRaw ..).wider ?_
    | with_reducible refine (within_retireFor ..).wider ?_
    | with_reducible refine (within_uncorrEvent ..).wider ?_
    | with_reducible refine within_one ?_
    | with_reducible apply within_seq_cons
    | with_reducible exact within_seq_nil
    | with_reducible refine within_look fun _ => ?_
    | with_reducible refine within_each fun _ => ?_
    | with_reducible refine within_ite ?_ ?_
    | rfl
    | split

theorem within_tableRead (a : Nat) (herd : Option Nat) : Within [.ctl, .mem, .chk, .mergeBuf, .dumpRun, .freeCtr] (tableRead a herd) := by
  unfold tableRead
  repeat' first
    | with_reducible refine (within_readDecode ..).wider ?_
    | with_reducible refine within_look fun _ => ?_
    | rfl

theorem within_zeroFrame (f : Nat) : Within [.ctl, .mem, .chk, .mergeBuf] (zeroFrame f) := by
  unfold zeroFrame
  repeat' first
    | with_reducible refine (within_count ..).wider ?_
    | with_reducible refine (within_memZero ..).wider ?_
    | with_reducible refine (within_wrBit ..).wider ?_
    | with_reducible refine (within_wrFld ..).wider ?_
    | with_reducible refine within_one ?_
    | with_reducible apply within_seq_cons
    | with_reducible exact within_seq_nil
    | with_reducible refine within_look fun _ => ?_
    | with_reducible refine within_each fun _ => ?_
    | rfl

theorem within_freeLevel  : Within [.ctl] (freeLevel) := by
  unfold freeLevel
  repeat' first
    | with_reducible refine (within_setLevel ..).wider ?_
    | with_reducible refine within_look fun _ => ?_
    | rfl

theorem within_allFree  : Within [.ctl] (allFree) := by
  unfold allFree
  repeat' first
    | with_reducible refine (within_freeLevel ..).wider ?_
    | with_reducible refine (within_wr ..).wider ?_
    | with_reducible apply within_seq_cons
    | with_reducible exact within_seq_nil
    | with_reducible refine within_look fun _ => ?_
    | rfl

theorem within_actFillDone (n : Nat) : Within [.ctl, .mem, .chk] (actFillDone n) := by
  unfold actFillDone
  repeat' first
    | with_reducible exact within_nop
    | with_reducible refine (within_allFree ..).wider ?_
    | with_reducible refine (within_setIst ..).wider ?_
    | with_reducible refine (within_wrFld ..).wider ?_
    | with_reducible refine within_one ?_
    | with_reducible apply within_seq_cons
    | with_reducible exact within_seq_nil
    | with_reducible refine within_look fun _ => ?_
    | with_reducible refine within_act ?_
    | with_reducible refine within_ite ?_ ?_
    | rfl

theorem within_actPatrolScrub (n : Nat) (noise : List (Nat × Byte)) : Within [.ctl, .mem, .chk, .mergeBuf, .dumpRun, .freeCtr] (actPatrolScrub n noise) := by
  unfold actPatrolScrub
  repeat' first
    | with_reducible exact within_nop
    | with_reducible refine (within_count ..).wider ?_
    | with_reducible refine (within_readBy ..).wider ?_
    | with_reducible refine (within_showNoise ..).wider ?_
    | with_reducible refine (within_wrBit ..).wider ?_
    | with_reducible refine (within_wrFld ..).wider ?_
    | with_reducible refine within_one ?_
    | with_reducible apply within_seq_cons
    | with_reducible exact within_seq_nil
    | with_reducible refine within_look fun _ => ?_
    | with_reducible refine within_each fun _ => ?_
    | with_reducible refine within_ite ?_ ?_
    | rfl

theorem within_actMergeHoldExpire (n : Nat) : Within [.ctl, .mem, .chk, .mergeBuf, .dumpRun, .freeCtr] (actMergeHoldExpire n) := by
  unfold actMergeHoldExpire
  repeat' first
    | with_reducible exact within_nop
    | with_reducible refine (within_retireMerge ..).wider ?_
    | with_reducible refine within_mapGetD fun _ => ?_
    | with_reducible refine within_look fun _ => ?_
    | rfl

theorem within_remapWrite (r : Requester) (n e : Nat) (v : Word) : Within [.ctl, .mem, .chk, .mergeBuf, .dumpRun, .freeCtr] (remapWrite r n e v) := by
  unfold remapWrite
  repeat' first
    | with_reducible refine (within_protocolAt ..).wider ?_
    | with_reducible refine (within_remapInto ..).wider ?_
    | with_reducible refine (within_wr ..).wider ?_
    | with_reducible refine within_look fun _ => ?_
    | with_reducible refine within_ite ?_ ?_
    | rfl

theorem within_putTestData (n : Nat) (bs : List Byte) : Within [.ctl] (putTestData n bs) := by
  unfold putTestData
  repeat' first
    | with_reducible refine (within_wr ..).wider ?_
    | with_reducible refine within_each fun _ => ?_
    | rfl

theorem within_testAct (n cmd b : Nat) : Within [.ctl, .mem, .chk, .mergeBuf, .dumpRun, .freeCtr, .out] (testAct n cmd b) := by
  unfold testAct
  repeat' first
    | with_reducible exact within_nop
    | with_reducible refine (within_corrEvent ..).wider ?_
    | with_reducible refine (within_count ..).wider ?_
    | with_reducible refine (within_dropFor ..).wider ?_
    | with_reducible refine (within_putRaw ..).wider ?_
    | with_reducible refine (within_putTestData ..).wider ?_
    | with_reducible refine (within_retireFor ..).wider ?_
    | with_reducible refine (within_storeBlk ..).wider ?_
    | with_reducible refine (within_uncorrEvent ..).wider ?_
    | with_reducible refine (within_wr ..).wider ?_
    | with_reducible refine within_one ?_
    | with_reducible apply within_seq_cons
    | with_reducible exact within_seq_nil
    | with_reducible refine within_look fun _ => ?_
    | with_reducible refine within_act ?_
    | rfl
    | split

theorem within_testCommand (r : Requester) (n cmd : Nat) : Within [.ctl, .mem, .chk, .mergeBuf, .dumpRun, .freeCtr, .out] (testCommand r n cmd) := by
  unfold testCommand
  repeat' first
    | with_reducible exact within_nop
    | with_reducible refine (within_protocolAt ..).wider ?_
    | with_reducible refine (within_setIst ..).wider ?_
    | with_reducible refine (within_testAct ..).wider ?_
    | with_reducible refine (within_wr ..).wider ?_
    | with_reducible apply within_seq_cons
    | with_reducible exact within_seq_nil
    | with_reducible refine within_look fun _ => ?_
    | with_reducible refine within_ite ?_ ?_
    | rfl

theorem within_actMpRead (n l : Nat) (src : Nat) (herd : Option Nat) (noise : List (Nat × Byte)) : Within [.ctl, .mem, .chk, .mergeBuf, .dumpRun, .freeCtr, .out] (actMpRead n l src herd noise) := by
  unfold actMpRead
  repeat' first
    | with_reducible refine (within_portRead ..).wider ?_
    | with_reducible refine (within_showNoise ..).wider ?_
    | with_reducible refine within_one ?_
    | with_reducible apply within_seq_cons
    | with_reducible exact within_seq_nil
    | with_reducible refine within_look fun _ => ?_
    | with_reducible refine within_act ?_
    | rfl

theorem within_actMpWrite (n l : Nat) (data : List Byte) : Within [.ctl, .mem, .chk, .mergeBuf] (actMpWrite n l data) := by
  unfold actMpWrite
  repeat' first
    | with_reducible refine (within_portWrite ..).wider ?_
    | with_reducible refine within_look fun _ => ?_
    | with_reducible refine within_act ?_
    | rfl

theorem within_actNarrowWrite (n l herd : Nat) (data : List (Option Byte)) : Within [.ctl, .mem, .chk, .mergeBuf, .dumpRun, .freeCtr] (actNarrowWrite n l herd data) := by
  unfold actNarrowWrite
  repeat' first
    | with_reducible refine (within_portNarrow ..).wider ?_
    | with_reducible refine within_look fun _ => ?_
    | with_reducible refine within_act ?_
    | rfl

/-! ## Rings -/

theorem within_complete (c : CmdId) (status : Nat) (result : DWord) : Within [.ctl, .completions, .dumpRun, .freeCtr] (complete c status result) := by
  unfold complete
  repeat' first
    | with_reducible refine (within_ring ..).wider ?_
    | with_reducible refine within_one ?_
    | with_reducible refine within_look fun _ => ?_
    | rfl

theorem within_hostCmd {ps : List Part} (hps : covers ps [.ctl, .busyRing, .completions, .fnTurn, .dumpRun, .freeCtr, .out] = true) {c : CmdId} {body : Act} (hbody : Within ps body) : Within ps (hostCmd c body) := by
  unfold hostCmd
  repeat' first
    | with_reducible exact within_nop
    | with_reducible exact hbody
    | with_reducible exact (((within_complete ..).wider (ps := [.ctl, .busyRing, .completions, .fnTurn, .dumpRun, .freeCtr, .out]) rfl)).wider hps
    | with_reducible exact (((within_wrFld ..).wider (ps := [.ctl, .busyRing, .completions, .fnTurn, .dumpRun, .freeCtr, .out]) rfl)).wider hps
    | with_reducible refine within_one (covers_mem hps ?_)
    | with_reducible apply within_seq_cons
    | with_reducible exact within_seq_nil
    | with_reducible refine within_look fun _ => ?_
    | with_reducible refine within_ite ?_ ?_
    | rfl

theorem within_hpServe (k : Nat) : Within [.hpTurn, .hpUsed] (hpServe k) := by
  unfold hpServe
  repeat' first
    | with_reducible refine within_one ?_
    | with_reducible apply within_seq_cons
    | with_reducible exact within_seq_nil
    | with_reducible refine within_look fun _ => ?_
    | with_reducible refine within_ite ?_ ?_
    | rfl

theorem within_signal (f : FnNo) (v : Nat) : Within [.ctl, .out] (signal f v) := by
  unfold signal
  repeat' first
    | with_reducible refine (within_wrBit ..).wider ?_
    | with_reducible refine within_one ?_
    | with_reducible refine within_look fun _ => ?_
    | with_reducible refine within_ite ?_ ?_
    | rfl

theorem within_actCompletionWrite (f : FnNo) (k : Fin 16) : Within [.ctl, .busyRing, .phase, .completions, .hpTurn, .hpUsed, .dumpRun, .freeCtr, .out] (actCompletionWrite f k) := by
  unfold actCompletionWrite
  repeat' first
    | with_reducible exact within_nop
    | with_reducible refine (within_count ..).wider ?_
    | with_reducible refine (within_hpServe ..).wider ?_
    | with_reducible refine (within_signal ..).wider ?_
    | with_reducible refine (within_wrFld ..).wider ?_
    | with_reducible refine within_one ?_
    | with_reducible apply within_seq_cons
    | with_reducible exact within_seq_nil
    | with_reducible refine within_look fun _ => ?_
    | with_reducible refine within_act ?_
    | with_reducible refine within_ite ?_ ?_
    | rfl
    | split

theorem within_ringStart (f : Nat) (k : Option (Fin 16)) : Within [.ctl, .phase] (ringStart f k) := by
  unfold ringStart
  repeat' first
    | with_reducible exact within_nop
    | with_reducible refine (within_wr ..).wider ?_
    | with_reducible refine within_one ?_
    | with_reducible apply within_seq_cons
    | with_reducible exact within_seq_nil
    | rfl
    | split

theorem within_notify (f : FnNo) (kind herd reason : Nat) (bead : DWord) (detail : List Byte) : Within [.ctl, .notices] (notify f kind herd reason bead detail) := by
  unfold notify
  repeat' first
    | with_reducible refine (within_count ..).wider ?_
    | with_reducible refine within_one ?_
    | with_reducible refine within_look fun _ => ?_
    | with_reducible refine within_ite ?_ ?_
    | rfl

theorem within_actNoticeWrite (f : FnNo) : Within [.ctl, .phase, .notices, .hpTurn, .hpUsed, .dumpRun, .freeCtr, .out] (actNoticeWrite f) := by
  unfold actNoticeWrite
  repeat' first
    | with_reducible exact within_nop
    | with_reducible refine (within_count ..).wider ?_
    | with_reducible refine (within_hpServe ..).wider ?_
    | with_reducible refine (within_setIst ..).wider ?_
    | with_reducible refine (within_signal ..).wider ?_
    | with_reducible refine (within_wrFld ..).wider ?_
    | with_reducible refine within_one ?_
    | with_reducible apply within_seq_cons
    | with_reducible exact within_seq_nil
    | with_reducible refine within_look fun _ => ?_
    | with_reducible refine within_act ?_
    | with_reducible refine within_ite ?_ ?_
    | rfl
    | split

theorem within_setCoreState (site st : Nat) : Within [.ctl] (setCoreState site st) := by
  unfold setCoreState
  repeat' first
    | with_reducible refine (within_wrFld ..).wider ?_
    | with_reducible apply within_seq_cons
    | with_reducible exact within_seq_nil
    | rfl

theorem within_stopCore (site : Nat) : Within [.core] (stopCore site) := by
  unfold stopCore
  repeat' first
    | with_reducible exact within_nop
    | with_reducible refine (within_setCore ..).wider ?_
    | with_reducible refine within_look fun _ => ?_
    | rfl
    | split

theorem within_setFnState (h st : Nat) : Within [.ctl] (setFnState h st) := by
  unfold setFnState
  repeat' first
    | with_reducible exact within_nop
    | with_reducible refine (within_wr ..).wider ?_
    | with_reducible refine within_one ?_
    | with_reducible refine within_look fun _ => ?_
    | rfl
    | split

theorem within_disableRings (h : Nat) : Within [.ctl] (disableRings h) := by
  unfold disableRings
  repeat' first
    | with_reducible refine (within_wrBit ..).wider ?_
    | with_reducible apply within_seq_cons
    | with_reducible exact within_seq_nil
    | with_reducible refine within_each fun _ => ?_
    | rfl

theorem within_ringCtlWrite (f : Nat) (k : Option (Fin 16)) (v : Word) : Within [.ctl, .phase] (ringCtlWrite f k v) := by
  unfold ringCtlWrite
  repeat' first
    | with_reducible refine (within_maskWrite ..).wider ?_
    | with_reducible refine (within_ringStart ..).wider ?_
    | with_reducible apply within_seq_cons
    | with_reducible exact within_seq_nil
    | with_reducible refine within_look fun _ => ?_
    | with_reducible refine within_act ?_
    | rfl

theorem within_bar2BaseWrite (r : Requester) (f : Nat) (lo hi : Option Word) : Within [.ctl, .dumpRun, .freeCtr] (bar2BaseWrite r f lo hi) := by
  unfold bar2BaseWrite
  repeat' first
    | with_reducible refine (within_protocolAt ..).wider ?_
    | with_reducible refine (within_wr ..).wider ?_
    | with_reducible refine within_mapGetD fun _ => ?_
    | with_reducible apply within_seq_cons
    | with_reducible exact within_seq_nil
    | with_reducible refine within_look fun _ => ?_
    | with_reducible refine within_ite ?_ ?_
    | rfl

theorem within_actBar2Resize (f : FnNo) (lg : Nat) : Within [.ctl, .bar2Log] (actBar2Resize f lg) := by
  unfold actBar2Resize
  repeat' first
    | with_reducible exact within_nop
    | with_reducible refine (within_wr64 ..).wider ?_
    | with_reducible refine within_one ?_
    | with_reducible apply within_seq_cons
    | with_reducible exact within_seq_nil
    | with_reducible refine within_look fun _ => ?_
    | with_reducible refine within_ite ?_ ?_
    | rfl

theorem within_ring (f : FnNo) (k : Nat) (t : Word) : Within [.ctl, .dumpRun, .freeCtr] (ring f k t) := by
  unfold ring
  repeat' first
    | with_reducible exact within_nop
    | with_reducible refine (within_protocolAt ..).wider ?_
    | with_reducible refine (within_wrFld ..).wider ?_
    | with_reducible refine within_look fun _ => ?_
    | with_reducible refine within_ite ?_ ?_
    | rfl

theorem within_actDoorbell (f : FnNo) (off : Nat) (data : List (Option Byte)) : Within [.ctl, .dumpRun, .freeCtr] (actDoorbell f off data) := by
  unfold actDoorbell
  repeat' first
    | with_reducible exact within_nop
    | with_reducible refine (within_ring ..).wider ?_
    | with_reducible refine within_mapGetD fun _ => ?_
    | with_reducible refine within_one ?_
    | with_reducible refine within_act ?_
    | rfl
    | split

/-! ## Pod -/

theorem within_setBx (n : Nat) (f : BxPort → BxPort) : Within [.bx] (setBx n f) := by
  unfold setBx
  repeat' first
    | with_reducible refine within_one ?_
    | with_reducible refine within_look fun _ => ?_
    | rfl

theorem within_putFrame (n : Nat) (f : Frame) : Within [.ctl, .out] (putFrame n f) := by
  unfold putFrame
  repeat' first
    | with_reducible refine (within_count ..).wider ?_
    | with_reducible refine within_one ?_
    | with_reducible apply within_seq_cons
    | with_reducible exact within_seq_nil
    | rfl

theorem within_emitFrame (n : Nat) (f : Frame) : Within [.ctl, .bx, .out] (emitFrame n f) := by
  unfold emitFrame
  repeat' first
    | with_reducible refine (within_putFrame ..).wider ?_
    | with_reducible refine (within_setBx ..).wider ?_
    | with_reducible refine within_mapGetD fun _ => ?_
    | with_reducible apply within_seq_cons
    | with_reducible exact within_seq_nil
    | with_reducible refine within_look fun _ => ?_
    | with_reducible refine within_ite ?_ ?_
    | rfl

theorem within_sendWaiting (n k : Nat) : Within [.ctl, .bx, .out] (sendWaiting n k) := by
  induction k with
  | zero => exact within_nop
  | succ k ih =>
    unfold sendWaiting
    refine within_look fun s => ?_
    split
    · exact within_nop
    · exact within_seq_cons ((within_setBx ..).wider rfl) (within_seq_cons ((within_emitFrame ..).wider rfl) (within_seq_cons ih within_seq_nil))

theorem within_flushFrames (n : Nat) : Within [.ctl, .bx, .out] (flushFrames n) := by
  unfold flushFrames
  repeat' first
    | with_reducible refine (within_sendWaiting ..).wider ?_
    | with_reducible refine within_look fun _ => ?_
    | rfl

theorem within_giveFrame (n : Nat) (f : Frame) : Within [.ctl, .bx, .out] (giveFrame n f) := by
  unfold giveFrame
  repeat' first
    | with_reducible refine (within_flushFrames ..).wider ?_
    | with_reducible refine (within_setBx ..).wider ?_
    | with_reducible apply within_seq_cons
    | with_reducible exact within_seq_nil
    | rfl

theorem within_sendFrame (f : Frame) : Within [.ctl, .bx, .out] (sendFrame f) := by
  unfold sendFrame
  repeat' first
    | with_reducible exact within_nop
    | with_reducible refine (within_giveFrame ..).wider ?_
    | with_reducible refine within_one ?_
    | with_reducible refine within_look fun _ => ?_
    | rfl
    | split

theorem within_sendSym (n kind : Nat) (bead aux : Nat) (data : DWord) : Within [.out] (sendSym n kind bead aux data) := by
  unfold sendSym
  repeat' first
    | with_reducible refine within_one ?_
    | with_reducible refine within_look fun _ => ?_
    | with_reducible refine within_act ?_
    | rfl

theorem within_sendHalt (h : HaltSym) (action : Nat) : Within [.out] (sendHalt h action) := by
  unfold sendHalt
  repeat' first
    | with_reducible exact within_nop
    | with_reducible refine (within_sendSym ..).wider ?_
    | with_reducible refine within_one ?_
    | with_reducible refine within_look fun _ => ?_
    | with_reducible refine within_each fun _ => ?_
    | with_reducible refine within_act ?_
    | with_reducible refine within_ite ?_ ?_
    | rfl
    | split

theorem within_pauseHerd (h site : Nat) : Within [.ctl, .core] (pauseHerd h site) := by
  unfold pauseHerd
  repeat' first
    | with_reducible exact within_nop
    | with_reducible refine (within_setCore ..).wider ?_
    | with_reducible refine (within_setCoreState ..).wider ?_
    | with_reducible refine (within_setIst ..).wider ?_
    | with_reducible apply within_seq_cons
    | with_reducible exact within_seq_nil
    | with_reducible refine within_look fun _ => ?_
    | with_reducible refine within_each fun _ => ?_
    | rfl
    | split

theorem within_podPause (h : Nat) : Within [.out] (podPause h) := by
  unfold podPause
  repeat' first
    | with_reducible exact within_nop
    | with_reducible refine (within_sendHalt ..).wider ?_
    | with_reducible refine within_one ?_
    | with_reducible refine within_look fun _ => ?_
    | with_reducible refine within_act ?_
    | rfl
    | split

/-! ## Forward -/

theorem within_sendHcmd (p htag h part : Nat) (last : Bool) (op tag : Nat) (params : List Byte) (es : List RegwEntry) : Within [.ctl, .bx, .out] (sendHcmd p htag h part last op tag params es) := by
  unfold sendHcmd
  repeat' first
    | with_reducible refine (within_sendFrame ..).wider ?_
    | with_reducible refine within_look fun _ => ?_
    | rfl

theorem within_stepHtag  : Within [.htag] (stepHtag) := by
  unfold stepHtag
  repeat' first
    | with_reducible refine within_one ?_
    | with_reducible refine within_look fun _ => ?_
    | rfl

theorem within_closeHcmd (o : HcmdOut) (status : Nat) : Within [.ctl, .hcmd, .completions, .dumpRun, .freeCtr] (closeHcmd o status) := by
  unfold closeHcmd
  repeat' first
    | with_reducible exact within_nop
    | with_reducible refine (within_complete ..).wider ?_
    | with_reducible refine (within_setFnState ..).wider ?_
    | with_reducible refine within_one ?_
    | with_reducible apply within_seq_cons
    | with_reducible exact within_seq_nil
    | with_reducible refine within_look fun _ => ?_
    | with_reducible refine within_act ?_
    | with_reducible refine within_ite ?_ ?_
    | rfl
    | split

theorem within_partAnswered (pos htag status count : Nat) (result : DWord) : Within [.ctl, .hcmd, .completions, .dumpRun, .freeCtr] (partAnswered pos htag status count result) := by
  unfold partAnswered
  repeat' first
    | with_reducible exact within_nop
    | with_reducible refine (within_closeHcmd ..).wider ?_
    | with_reducible refine (within_count ..).wider ?_
    | with_reducible refine within_one ?_
    | with_reducible refine within_look fun _ => ?_
    | with_reducible refine within_ite ?_ ?_
    | rfl
    | split

theorem within_answerN (a : Asker) (status count : Nat) (result : DWord) : Within [.ctl, .bx, .hcmd, .completions, .dumpRun, .freeCtr, .out] (answerN a status count result) := by
  unfold answerN
  repeat' first
    | with_reducible refine (within_complete ..).wider ?_
    | with_reducible refine (within_count ..).wider ?_
    | with_reducible refine (within_partAnswered ..).wider ?_
    | with_reducible refine (within_sendFrame ..).wider ?_
    | with_reducible refine within_look fun _ => ?_
    | with_reducible refine within_ite ?_ ?_
    | rfl
    | split

theorem within_answer (a : Asker) (status : Nat) (result : DWord) : Within [.ctl, .bx, .hcmd, .completions, .dumpRun, .freeCtr, .out] (answer a status result) := by
  unfold answer
  repeat' first
    | with_reducible refine (within_answerN ..).wider ?_
    | rfl

theorem within_spread {ps : List Part} (hps : covers ps [.ctl, .bx, .hcmd, .htag, .out] = true) {c : CmdId} {op : Nat} {h : Nat} {params : List Byte} {others : List Nat} {body : Asker → Act} (hbody : ∀ x0, Within ps (body x0)) : Within ps (spread c op h params others body) := by
  unfold spread
  repeat' first
    | with_reducible exact hbody _
    | with_reducible exact (((within_sendHcmd ..).wider (ps := [.ctl, .bx, .hcmd, .htag, .out]) rfl)).wider hps
    | with_reducible exact (((within_stepHtag ..).wider (ps := [.ctl, .bx, .hcmd, .htag, .out]) rfl)).wider hps
    | with_reducible refine within_one (covers_mem hps ?_)
    | with_reducible apply within_seq_cons
    | with_reducible exact within_seq_nil
    | with_reducible refine within_look fun _ => ?_
    | with_reducible refine within_each fun _ => ?_
    | with_reducible refine within_ite ?_ ?_
    | rfl

theorem within_ownHerd {ps : List Part} (hps : covers ps [.ctl, .completions, .dumpRun, .freeCtr] = true) {c : CmdId} {failedToo : Bool} {body : Nat → Herd → Act} (hbody : ∀ x0 x1, Within ps (body x0 x1)) : Within ps (ownHerd c failedToo body) := by
  unfold ownHerd
  repeat' first
    | with_reducible exact within_nop
    | with_reducible exact hbody _ _
    | with_reducible exact (((within_complete ..).wider (ps := [.ctl, .completions, .dumpRun, .freeCtr]) rfl)).wider hps
    | with_reducible refine within_one (covers_mem hps ?_)
    | with_reducible refine within_look fun _ => ?_
    | with_reducible refine within_ite ?_ ?_
    | rfl
    | split

theorem within_herdCmd {ps : List Part} (hps : covers ps [.ctl, .bx, .hcmd, .htag, .busyRing, .completions, .fnTurn, .dumpRun, .freeCtr, .out] = true) {c : CmdId} {op : Nat} {params : List Byte} {failedToo : Bool} {body : Asker → Nat → Act} (hbody : ∀ x0 x1, Within ps (body x0 x1)) : Within ps (herdCmd c op params failedToo body) := by
  unfold herdCmd
  repeat' first
    | with_reducible exact within_nop
    | with_reducible exact hbody _ _
    | with_reducible refine within_hostCmd (covers_trans hps rfl) ?_
    | with_reducible refine within_ownHerd (covers_trans hps rfl) (fun _ _ => ?_)
    | with_reducible refine within_spread (covers_trans hps rfl) (fun _ => ?_)
    | with_reducible refine within_look fun _ => ?_
    | with_reducible refine within_ite ?_ ?_

theorem within_failHere (h reason : Nat) : Within [.ctl, .core, .herd, .notices] (failHere h reason) := by
  unfold failHere
  repeat' first
    | with_reducible exact within_nop
    | with_reducible refine (within_disableRings ..).wider ?_
    | with_reducible refine (within_notify ..).wider ?_
    | with_reducible refine (within_setFnState ..).wider ?_
    | with_reducible refine (within_setHerd ..).wider ?_
    | with_reducible refine (within_stopCore ..).wider ?_
    | with_reducible refine within_one ?_
    | with_reducible apply within_seq_cons
    | with_reducible exact within_seq_nil
    | with_reducible refine within_look fun _ => ?_
    | with_reducible refine within_each fun _ => ?_
    | with_reducible refine within_act ?_
    | with_reducible refine within_ite ?_ ?_
    | rfl
    | split

theorem within_tellFailure (h reason : Nat) : Within [.ctl, .bx, .hcmd, .htag, .out] (tellFailure h reason) := by
  unfold tellFailure
  repeat' first
    | with_reducible exact within_nop
    | with_reducible refine (within_sendFrame ..).wider ?_
    | with_reducible refine (within_sendHcmd ..).wider ?_
    | with_reducible refine (within_stepHtag ..).wider ?_
    | with_reducible refine within_one ?_
    | with_reducible apply within_seq_cons
    | with_reducible exact within_seq_nil
    | with_reducible refine within_look fun _ => ?_
    | with_reducible refine within_each fun _ => ?_
    | with_reducible refine within_act ?_
    | with_reducible refine within_ite ?_ ?_
    | rfl
    | split

theorem within_failHerd (h reason : Nat) : Within [.ctl, .core, .herd, .bx, .hcmd, .htag, .notices, .out] (failHerd h reason) := by
  unfold failHerd
  repeat' first
    | with_reducible refine (within_failHere ..).wider ?_
    | with_reducible refine (within_tellFailure ..).wider ?_
    | with_reducible apply within_seq_cons
    | with_reducible exact within_seq_nil
    | with_reducible refine within_look fun _ => ?_
    | with_reducible refine within_act ?_
    | rfl

theorem within_failAll (reason : Nat) : Within [.ctl, .core, .herd, .bx, .hcmd, .htag, .notices, .out] (failAll reason) := by
  unfold failAll
  repeat' first
    | with_reducible refine (within_failHerd ..).wider ?_
    | with_reducible refine within_look fun _ => ?_
    | with_reducible refine within_each fun _ => ?_
    | rfl

/-! ## Tally -/

theorem within_send0 (src dst : Nat) (pl : Payload) : Within [.packets] (send0 src dst pl) := by
  unfold send0
  repeat' first
    | with_reducible refine within_one ?_
    | with_reducible refine within_look fun _ => ?_
    | rfl

theorem within_sendMov (src dst vc herd : Nat) (pl : Payload) : Within [.packets] (sendMov src dst vc herd pl) := by
  unfold sendMov
  repeat' first
    | with_reducible refine within_one ?_
    | with_reducible refine within_look fun _ => ?_
    | rfl

theorem within_flagAll (b : RingBlock) (h f : Nat) (kind : Fin 3) : Within [.packets] (flagAll b h f kind) := by
  unfold flagAll
  repeat' first
    | with_reducible refine within_one ?_
    | with_reducible refine within_look fun _ => ?_
    | rfl

theorem within_setShw (site f : Nat) : Within [.ctl] (setShw site f) := by
  unfold setShw
  repeat' first
    | with_reducible refine (within_wr ..).wider ?_
    | with_reducible refine within_look fun _ => ?_
    | with_reducible refine within_act ?_
    | rfl

theorem within_unregister (site f : Nat) (p : Waiter → Bool) : Within [.ctl, .core] (unregister site f p) := by
  unfold unregister
  repeat' first
    | with_reducible refine (within_setCore ..).wider ?_
    | with_reducible refine (within_setShw ..).wider ?_
    | with_reducible apply within_seq_cons
    | with_reducible exact within_seq_nil
    | rfl

theorem within_releaseTo (site i : Nat) : Within [.core, .packets] (releaseTo site i) := by
  unfold releaseTo
  repeat' first
    | with_reducible exact within_nop
    | with_reducible refine (within_send0 ..).wider ?_
    | with_reducible refine (within_setCore ..).wider ?_
    | with_reducible refine within_one ?_
    | with_reducible refine within_look fun _ => ?_
    | with_reducible refine within_ite ?_ ?_
    | rfl
    | split

theorem within_sendMirrors (site f : Nat) (v : Bool) : Within [.packets] (sendMirrors site f v) := by
  unfold sendMirrors
  repeat' first
    | with_reducible exact within_nop
    | with_reducible refine (within_send0 ..).wider ?_
    | with_reducible refine within_one ?_
    | with_reducible refine within_look fun _ => ?_
    | with_reducible refine within_each fun _ => ?_
    | with_reducible refine within_act ?_
    | rfl
    | split

theorem within_putFlag (site f : Nat) (v : Bool) : Within [.ctl, .packets] (putFlag site f v) := by
  unfold putFlag
  repeat' first
    | with_reducible exact within_nop
    | with_reducible refine (within_sendMirrors ..).wider ?_
    | with_reducible refine (within_wrBit ..).wider ?_
    | with_reducible apply within_seq_cons
    | with_reducible exact within_seq_nil
    | with_reducible refine within_look fun _ => ?_
    | with_reducible refine within_ite ?_ ?_
    | rfl

theorem within_releaseWaits (site f : Nat) : Within [.ctl, .core, .packets] (releaseWaits site f) := by
  unfold releaseWaits
  repeat' first
    | with_reducible exact within_nop
    | with_reducible refine (within_releaseTo ..).wider ?_
    | with_reducible refine (within_unregister ..).wider ?_
    | with_reducible refine within_one ?_
    | with_reducible apply within_seq_cons
    | with_reducible exact within_seq_nil
    | with_reducible refine within_look fun _ => ?_
    | with_reducible refine within_each fun _ => ?_
    | rfl
    | split

theorem within_resolveFlag (site f : Nat) : Within [.ctl, .core, .packets] (resolveFlag site f) := by
  unfold resolveFlag
  repeat' first
    | with_reducible refine (within_putFlag ..).wider ?_
    | with_reducible refine (within_releaseWaits ..).wider ?_
    | with_reducible apply within_seq_cons
    | with_reducible exact within_seq_nil
    | with_reducible refine within_look fun _ => ?_
    | with_reducible refine within_act ?_
    | rfl

theorem within_setFlag (site f : Nat) : Within [.ctl, .core, .packets] (setFlag site f) := by
  unfold setFlag
  repeat' first
    | with_reducible refine (within_putFlag ..).wider ?_
    | with_reducible refine (within_releaseWaits ..).wider ?_
    | with_reducible refine (within_resolveFlag ..).wider ?_
    | with_reducible apply within_seq_cons
    | with_reducible exact within_seq_nil
    | with_reducible refine within_look fun _ => ?_
    | with_reducible refine within_ite ?_ ?_
    | rfl

theorem within_clearFlag (site f : Nat) : Within [.ctl, .packets] (clearFlag site f) := by
  unfold clearFlag
  repeat' first
    | with_reducible refine (within_putFlag ..).wider ?_
    | rfl

theorem within_setDone (site f : Nat) : Within [.ctl, .core, .packets] (setDone site f) := by
  unfold setDone
  repeat' first
    | with_reducible refine (within_send0 ..).wider ?_
    | with_reducible refine (within_setFlag ..).wider ?_
    | with_reducible refine within_look fun _ => ?_
    | with_reducible refine within_ite ?_ ?_
    | rfl

theorem within_cincAt (site n : Nat) (d : Byte) (tag : Nat) (tagged : Bool) : Within [.ctl] (cincAt site n d tag tagged) := by
  unfold cincAt
  repeat' first
    | with_reducible refine (within_count ..).wider ?_
    | with_reducible refine (within_wrFld ..).wider ?_
    | with_reducible apply within_seq_cons
    | with_reducible exact within_seq_nil
    | with_reducible refine within_look fun _ => ?_
    | with_reducible refine within_ite ?_ ?_
    | rfl

theorem within_realign (site : Nat) : Within [.ctl] (realign site) := by
  unfold realign
  repeat' first
    | with_reducible refine (within_wr ..).wider ?_
    | with_reducible refine within_look fun _ => ?_
    | with_reducible refine within_each fun _ => ?_
    | with_reducible refine within_act ?_
    | rfl

theorem within_tallyEffect (site : Nat) (kind : Fin 3) (idx : Nat) (d : Byte) (tag : Nat) (tagged : Bool) : Within [.ctl, .core, .packets] (tallyEffect site kind idx d tag tagged) := by
  unfold tallyEffect
  repeat' first
    | with_reducible refine (within_cincAt ..).wider ?_
    | with_reducible refine (within_clearFlag ..).wider ?_
    | with_reducible refine (within_count ..).wider ?_
    | with_reducible refine (within_setFlag ..).wider ?_
    | with_reducible apply within_seq_cons
    | with_reducible exact within_seq_nil
    | with_reducible refine within_look fun _ => ?_
    | with_reducible refine within_act ?_
    | rfl
    | split

theorem within_retire (site : Nat) (i : Issued) : Within [.core] (retire site i) := by
  unfold retire
  repeat' first
    | with_reducible refine (within_setCore ..).wider ?_
    | rfl

theorem within_setIssued (site : Nat) (i j : Issued) : Within [.core] (setIssued site i j) := by
  unfold setIssued
  repeat' first
    | with_reducible refine (within_setCore ..).wider ?_
    | with_reducible refine within_ite ?_ ?_
    | rfl

theorem within_actTally (site op : Nat) (kind : Fin 3) : Within [.ctl, .core, .packets] (actTally site op kind) := by
  unfold actTally
  repeat' first
    | with_reducible exact within_nop
    | with_reducible refine (within_retire ..).wider ?_
    | with_reducible refine (within_send0 ..).wider ?_
    | with_reducible refine (within_setIssued ..).wider ?_
    | with_reducible refine (within_tallyEffect ..).wider ?_
    | with_reducible refine within_one ?_
    | with_reducible apply within_seq_cons
    | with_reducible exact within_seq_nil
    | with_reducible refine within_look fun _ => ?_
    | with_reducible refine within_ite ?_ ?_
    | rfl
    | split

theorem within_actTset (site : Nat) : Within [.ctl, .core, .packets] (actTset site) := by
  unfold actTset
  repeat' first
    | with_reducible refine (within_actTally ..).wider ?_
    | with_reducible refine within_act ?_
    | rfl

theorem within_actTclr (site : Nat) : Within [.ctl, .core, .packets] (actTclr site) := by
  unfold actTclr
  repeat' first
    | with_reducible refine (within_actTally ..).wider ?_
    | with_reducible refine within_act ?_
    | rfl

theorem within_actCinc (site : Nat) : Within [.ctl, .core, .packets] (actCinc site) := by
  unfold actCinc
  repeat' first
    | with_reducible refine (within_actTally ..).wider ?_
    | with_reducible refine within_act ?_
    | rfl

theorem within_popInbox (site : Nat) : Within [.core] (popInbox site) := by
  unfold popInbox
  repeat' first
    | with_reducible refine (within_setCore ..).wider ?_
    | rfl

theorem within_actTallyPacketArrive (site : Nat) : Within [.ctl, .core, .packets] (actTallyPacketArrive site) := by
  unfold actTallyPacketArrive
  repeat' first
    | with_reducible exact within_nop
    | with_reducible refine (within_popInbox ..).wider ?_
    | with_reducible refine (within_send0 ..).wider ?_
    | with_reducible refine (within_tallyEffect ..).wider ?_
    | with_reducible apply within_seq_cons
    | with_reducible exact within_seq_nil
    | with_reducible refine within_look fun _ => ?_
    | with_reducible refine within_act ?_
    | rfl
    | split

theorem within_actTallyAck (site : Nat) : Within [.ctl, .core] (actTallyAck site) := by
  unfold actTallyAck
  repeat' first
    | with_reducible exact within_nop
    | with_reducible refine (within_count ..).wider ?_
    | with_reducible refine (within_popInbox ..).wider ?_
    | with_reducible refine (within_retire ..).wider ?_
    | with_reducible refine within_one ?_
    | with_reducible apply within_seq_cons
    | with_reducible exact within_seq_nil
    | with_reducible refine within_look fun _ => ?_
    | with_reducible refine within_act ?_
    | rfl
    | split

theorem within_actMirrorUpdate (site : Nat) : Within [.core] (actMirrorUpdate site) := by
  unfold actMirrorUpdate
  repeat' first
    | with_reducible exact within_nop
    | with_reducible refine (within_popInbox ..).wider ?_
    | with_reducible refine (within_setCore ..).wider ?_
    | with_reducible apply within_seq_cons
    | with_reducible exact within_seq_nil
    | with_reducible refine within_look fun _ => ?_
    | rfl
    | split

theorem within_register (site f hidx : Nat) (clear : Bool) : Within [.ctl, .core, .packets] (register site f hidx clear) := by
  unfold register
  repeat' first
    | with_reducible refine (within_resolveFlag ..).wider ?_
    | with_reducible refine (within_setCore ..).wider ?_
    | with_reducible refine (within_setShw ..).wider ?_
    | with_reducible apply within_seq_cons
    | with_reducible exact within_seq_nil
    | rfl

theorem within_actWaitRegister (site : Nat) : Within [.ctl, .core, .packets] (actWaitRegister site) := by
  unfold actWaitRegister
  repeat' first
    | with_reducible exact within_nop
    | with_reducible refine (within_popInbox ..).wider ?_
    | with_reducible refine (within_register ..).wider ?_
    | with_reducible refine (within_setCore ..).wider ?_
    | with_reducible apply within_seq_cons
    | with_reducible exact within_seq_nil
    | with_reducible refine within_look fun _ => ?_
    | with_reducible refine within_ite ?_ ?_
    | rfl
    | split

theorem within_waitReleased (site : Nat) : Within [.ctl, .core] (waitReleased site) := by
  unfold waitReleased
  repeat' first
    | with_reducible refine (within_count ..).wider ?_
    | with_reducible refine (within_setCore ..).wider ?_
    | with_reducible refine (within_setCoreState ..).wider ?_
    | with_reducible refine (within_wrBit ..).wider ?_
    | with_reducible apply within_seq_cons
    | with_reducible exact within_seq_nil
    | rfl

theorem within_actWaitRelease (site : Nat) : Within [.ctl, .core] (actWaitRelease site) := by
  unfold actWaitRelease
  repeat' first
    | with_reducible exact within_nop
    | with_reducible refine (within_popInbox ..).wider ?_
    | with_reducible refine (within_waitReleased ..).wider ?_
    | with_reducible apply within_seq_cons
    | with_reducible exact within_seq_nil
    | with_reducible refine within_look fun _ => ?_
    | with_reducible refine within_act ?_
    | with_reducible refine within_ite ?_ ?_
    | rfl
    | split
    | dsimp only

theorem within_withdraw (unit f hidx : Nat) : Within [.ctl, .core] (withdraw unit f hidx) := by
  unfold withdraw
  repeat' first
    | with_reducible refine (within_unregister ..).wider ?_
    | rfl

theorem within_waitTimedOut (site row : Nat) : Within [.ctl, .core] (waitTimedOut site row) := by
  unfold waitTimedOut
  repeat' first
    | with_reducible refine (within_count ..).wider ?_
    | with_reducible refine (within_setCore ..).wider ?_
    | with_reducible refine (within_setCoreState ..).wider ?_
    | with_reducible refine (within_wr ..).wider ?_
    | with_reducible refine (within_wrBit ..).wider ?_
    | with_reducible apply within_seq_cons
    | with_reducible exact within_seq_nil
    | rfl

theorem within_actWaitTimeout (site : Nat) : Within [.ctl, .core, .packets] (actWaitTimeout site) := by
  unfold actWaitTimeout
  repeat' first
    | with_reducible exact within_nop
    | with_reducible refine (within_send0 ..).wider ?_
    | with_reducible refine (within_setCore ..).wider ?_
    | with_reducible refine (within_waitTimedOut ..).wider ?_
    | with_reducible refine (within_withdraw ..).wider ?_
    | with_reducible apply within_seq_cons
    | with_reducible exact within_seq_nil
    | with_reducible refine within_look fun _ => ?_
    | with_reducible refine within_ite ?_ ?_
    | rfl

theorem within_actWaitCancel (site : Nat) : Within [.ctl, .core, .packets] (actWaitCancel site) := by
  unfold actWaitCancel
  repeat' first
    | with_reducible exact within_nop
    | with_reducible refine (within_popInbox ..).wider ?_
    | with_reducible refine (within_send0 ..).wider ?_
    | with_reducible refine (within_setFlag ..).wider ?_
    | with_reducible refine (within_withdraw ..).wider ?_
    | with_reducible apply within_seq_cons
    | with_reducible exact within_seq_nil
    | with_reducible refine within_look fun _ => ?_
    | with_reducible refine within_act ?_
    | with_reducible refine within_ite ?_ ?_
    | rfl
    | split

theorem within_actWaitCancelAnswer (site : Nat) : Within [.ctl, .core, .packets] (actWaitCancelAnswer site) := by
  unfold actWaitCancelAnswer
  repeat' first
    | with_reducible exact within_nop
    | with_reducible refine (within_popInbox ..).wider ?_
    | with_reducible refine (within_send0 ..).wider ?_
    | with_reducible refine (within_setCore ..).wider ?_
    | with_reducible refine (within_waitReleased ..).wider ?_
    | with_reducible refine (within_waitTimedOut ..).wider ?_
    | with_reducible apply within_seq_cons
    | with_reducible exact within_seq_nil
    | with_reducible refine within_look fun _ => ?_
    | with_reducible refine within_act ?_
    | with_reducible refine within_ite ?_ ?_
    | rfl
    | split

theorem within_flagWrite (site k : Nat) (v : Word) (set : Bool) : Within [.ctl, .core, .packets] (flagWrite site k v set) := by
  unfold flagWrite
  repeat' first
    | with_reducible exact within_nop
    | with_reducible refine (within_clearFlag ..).wider ?_
    | with_reducible refine (within_setFlag ..).wider ?_
    | with_reducible refine within_look fun _ => ?_
    | with_reducible refine within_each fun _ => ?_
    | with_reducible refine within_ite ?_ ?_
    | rfl

theorem within_clearTallies (site : Nat) : Within [.ctl, .core] (clearTallies site) := by
  unfold clearTallies
  repeat' first
    | with_reducible exact within_nop
    | with_reducible refine (within_setCore ..).wider ?_
    | with_reducible refine (within_withdraw ..).wider ?_
    | with_reducible refine within_one ?_
    | with_reducible apply within_seq_cons
    | with_reducible exact within_seq_nil
    | with_reducible refine within_look fun _ => ?_
    | with_reducible refine within_each fun _ => ?_
    | with_reducible refine within_ite ?_ ?_
    | rfl
    | split

end Sys2Proof.Machine
end

