-- ==== Sys2Proof/Laws/FrameUnified.lean ====
section
/-! SUPPORT. The fields that each act can change: the unified range, core faults and the mesh. One lemma for an act; no proof about frames needs to unfold it again. -/

namespace Sys2Proof.Machine

/-! ## Unified -/

theorem within_setEntry (p : Nat) (e : DWord) : Within [.ctl, .mem, .chk, .mergeBuf, .dumpRun, .freeCtr] (setEntry p e) := by
  unfold setEntry
  repeat' first
    | with_reducible refine (within_tablePut ..).wider ?_
    | with_reducible refine within_look fun _ => ?_
    | rfl

theorem within_farRequest (ext page off n : Nat) (data : Option (List Byte)) : Within [.freeCtr, .out] (farRequest ext page off n data) := by
  unfold farRequest
  repeat' first
    | with_reducible exact within_nop
    | with_reducible refine (within_takeFree ..).wider ?_
    | with_reducible refine within_one ?_
    | with_reducible apply within_seq_cons
    | with_reducible exact within_seq_nil
    | with_reducible refine within_look fun _ => ?_
    | with_reducible refine within_act ?_
    | rfl
    | split

theorem within_touch (p : Nat) : Within [.touched] (touch p) := by
  unfold touch
  repeat' first
    | with_reducible refine within_one ?_
    | with_reducible refine within_look fun _ => ?_
    | with_reducible refine within_act ?_
    | rfl

theorem within_rangeSecurity (a h row req : Nat) : Within [.ctl, .dumpRun, .freeCtr] (rangeSecurity a h row req) := by
  unfold rangeSecurity
  repeat' first
    | with_reducible refine (within_raise ..).wider ?_
    | rfl

theorem within_entryRead (p h : Nat) : Within [.ctl, .mem, .chk, .mergeBuf, .dumpRun, .freeCtr] (entryRead p h) := by
  unfold entryRead
  repeat' first
    | with_reducible refine (within_tableRead ..).wider ?_
    | with_reducible refine within_look fun _ => ?_
    | with_reducible refine within_act ?_
    | rfl

theorem within_hiddenActs (h a : Nat) : Within [.ctl, .dumpRun, .freeCtr] (hiddenActs h a) := by
  unfold hiddenActs
  repeat' first
    | with_reducible refine (within_count ..).wider ?_
    | with_reducible refine (within_rangeSecurity ..).wider ?_
    | with_reducible apply within_seq_cons
    | with_reducible exact within_seq_nil
    | rfl

theorem within_judgeActs (h p a : Nat) (write : Bool) : Within [.ctl, .mem, .chk, .touched, .mergeBuf, .dumpRun, .freeCtr] (judgeActs h p a write) := by
  unfold judgeActs
  repeat' first
    | with_reducible exact within_nop
    | with_reducible refine (within_count ..).wider ?_
    | with_reducible refine (within_entryRead ..).wider ?_
    | with_reducible refine (within_hiddenActs ..).wider ?_
    | with_reducible refine (within_touch ..).wider ?_
    | with_reducible apply within_seq_cons
    | with_reducible exact within_seq_nil
    | with_reducible refine within_look fun _ => ?_
    | rfl
    | split

theorem within_urReadActs (h a n : Nat) (src : Src) : Within [.ctl, .mem, .chk, .touched, .mergeBuf, .dumpRun, .freeCtr, .out] (urReadActs h a n src) := by
  unfold urReadActs
  repeat' first
    | with_reducible exact within_nop
    | with_reducible refine (within_devReadActs ..).wider ?_
    | with_reducible refine (within_farRequest ..).wider ?_
    | with_reducible refine (within_judgeActs ..).wider ?_
    | with_reducible refine within_one ?_
    | with_reducible apply within_seq_cons
    | with_reducible exact within_seq_nil
    | with_reducible refine within_look fun _ => ?_
    | with_reducible refine within_each fun _ => ?_
    | rfl
    | split

theorem within_urRefusedActs (h a n : Nat) (bs : List Byte) : Within [.ctl, .mem, .chk, .touched, .mergeBuf, .dumpRun, .freeCtr, .out] (urRefusedActs h a n bs) := by
  unfold urRefusedActs
  repeat' first
    | with_reducible exact within_nop
    | with_reducible refine (within_farRequest ..).wider ?_
    | with_reducible refine (within_judgeActs ..).wider ?_
    | with_reducible apply within_seq_cons
    | with_reducible exact within_seq_nil
    | with_reducible refine within_look fun _ => ?_
    | with_reducible refine within_each fun _ => ?_
    | with_reducible refine within_act ?_
    | rfl
    | split

theorem within_urWrite (h a : Nat) (bs : List Byte) : Within [.ctl, .mem, .chk, .farMem, .touched, .mergeBuf, .dumpRun, .freeCtr, .out] (urWrite h a bs) := by
  unfold urWrite
  repeat' first
    | with_reducible exact within_nop
    | with_reducible refine (within_devWrite ..).wider ?_
    | with_reducible refine (within_entryRead ..).wider ?_
    | with_reducible refine (within_farRequest ..).wider ?_
    | with_reducible refine (within_touch ..).wider ?_
    | with_reducible refine within_one ?_
    | with_reducible apply within_seq_cons
    | with_reducible exact within_seq_nil
    | with_reducible refine within_look fun _ => ?_
    | with_reducible refine within_each fun _ => ?_
    | rfl
    | split

theorem within_dropLines (p : Nat) : Within [.core] (dropLines p) := by
  unfold dropLines
  repeat' first
    | with_reducible refine (within_setCore ..).wider ?_
    | with_reducible refine within_look fun _ => ?_
    | with_reducible refine within_each fun _ => ?_
    | rfl

theorem within_bump (a : Nat) (d : Int) : Within [.ctl] (bump a d) := by
  unfold bump
  repeat' first
    | with_reducible refine (within_wr ..).wider ?_
    | with_reducible refine within_look fun _ => ?_
    | rfl

theorem within_bumpFree (d : Int) : Within [.ctl] (bumpFree d) := by
  unfold bumpFree
  repeat' first
    | with_reducible refine (within_bump ..).wider ?_
    | with_reducible refine (within_freeLevel ..).wider ?_
    | with_reducible apply within_seq_cons
    | with_reducible exact within_seq_nil
    | rfl

theorem within_chargeDevice (h : Nat) (pinned : Bool) (d : Int) : Within [.ctl] (chargeDevice h pinned d) := by
  unfold chargeDevice
  repeat' first
    | with_reducible refine (within_bump ..).wider ?_
    | with_reducible apply within_seq_cons
    | with_reducible exact within_seq_nil
    | with_reducible refine within_act ?_
    | rfl

theorem within_sweepExtent (i : Nat) : Within [.extent] (sweepExtent i) := by
  unfold sweepExtent
  repeat' first
    | with_reducible refine within_one ?_
    | with_reducible refine within_look fun _ => ?_
    | with_reducible refine within_act ?_
    | rfl

theorem within_releaseHome (e : DWord) : Within [.ctl, .mem, .chk, .farMem, .extent, .mergeBuf] (releaseHome e) := by
  unfold releaseHome
  repeat' first
    | with_reducible refine (within_bumpFree ..).wider ?_
    | with_reducible refine (within_sweepExtent ..).wider ?_
    | with_reducible refine (within_zeroFrame ..).wider ?_
    | with_reducible refine within_one ?_
    | with_reducible apply within_seq_cons
    | with_reducible exact within_seq_nil
    | with_reducible refine within_ite ?_ ?_
    | rfl

theorem within_freePage (p : Nat) : Within [.ctl, .core, .mem, .chk, .farMem, .extent, .touched, .mergeBuf, .dumpRun, .freeCtr] (freePage p) := by
  unfold freePage
  repeat' first
    | with_reducible refine (within_chargeDevice ..).wider ?_
    | with_reducible refine (within_dropLines ..).wider ?_
    | with_reducible refine (within_releaseHome ..).wider ?_
    | with_reducible refine (within_setEntry ..).wider ?_
    | with_reducible refine within_one ?_
    | with_reducible apply within_seq_cons
    | with_reducible exact within_seq_nil
    | with_reducible refine within_look fun _ => ?_
    | with_reducible refine within_act ?_
    | rfl

theorem within_copyHome (s : State) (e : DWord) (far : Bool) (home : Nat) : Within [.ctl, .mem, .chk, .farMem, .mergeBuf] (copyHome s e far home) := by
  unfold copyHome
  repeat' first
    | with_reducible refine (within_portWrite ..).wider ?_
    | with_reducible refine within_mapGetD fun _ => ?_
    | with_reducible refine within_one ?_
    | with_reducible refine within_each fun _ => ?_
    | with_reducible refine within_ite ?_ ?_
    | rfl

theorem within_copyReads (e : DWord) (herd : Nat) : Within [.ctl, .mem, .chk, .mergeBuf, .dumpRun, .freeCtr] (copyReads e herd) := by
  unfold copyReads
  repeat' first
    | with_reducible refine (within_portRead ..).wider ?_
    | with_reducible refine within_each fun _ => ?_
    | with_reducible refine within_act ?_
    | rfl

theorem within_moveFault (p h : Nat) : Within [.ctl, .dumpRun, .freeCtr] (moveFault p h) := by
  unfold moveFault
  repeat' first
    | with_reducible refine (within_count ..).wider ?_
    | with_reducible refine (within_raise ..).wider ?_
    | with_reducible apply within_seq_cons
    | with_reducible exact within_seq_nil
    | rfl

theorem within_placeNew {p h : Nat} {port : Option Nat} {wr pinned : Bool} {s : State} {us : List Upd}
    (e : placeNew p h port wr pinned s = some us) : Within [.ctl, .mem, .chk, .farMem, .extent, .touched, .mergeBuf, .dumpRun, .freeCtr] (fun _ => us) := by
  refine ⟨fun _ => ?_⟩
  unfold placeNew at e
  split at e
  · simp only [Option.map_eq_some_iff] at e
    obtain ⟨f, -, rfl⟩ := e
    exact ((within_setEntry ..).wider rfl : Within [.ctl, .mem, .chk, .farMem, .extent, .touched, .mergeBuf, .dumpRun, .freeCtr] _).mem s
  · dsimp only at e
    simp only [Option.bind_eq_some_iff, Option.map_eq_some_iff] at e
    obtain ⟨es, he, f, -, rfl⟩ := e
    intro u hu
    rcases List.mem_append.1 hu with hu | hu
    · split at he
      · cases he; cases hu
      · simp only [Option.bind_eq_some_iff] at he
        obtain ⟨q, -, g, -, he⟩ := he
        split at he
        · cases he
          refine (?_ : Within [.ctl, .mem, .chk, .farMem, .extent, .touched, .mergeBuf, .dumpRun, .freeCtr] _).mem s u hu
          repeat' first
            | with_reducible refine (within_copyReads ..).wider ?_
            | with_reducible refine (within_copyHome ..).wider ?_
            | with_reducible refine (within_setEntry ..).wider ?_
            | with_reducible refine (within_releaseHome ..).wider ?_
            | with_reducible refine (within_chargeDevice ..).wider ?_
            | with_reducible refine (within_count ..).wider ?_
            | with_reducible apply within_seq_cons
            | with_reducible exact within_seq_nil
            | with_reducible refine within_look fun _ => ?_
            | rfl
        · cases he
    · refine (?_ : Within [.ctl, .mem, .chk, .farMem, .extent, .touched, .mergeBuf, .dumpRun, .freeCtr] _).mem _ u hu
      repeat' first
        | with_reducible refine (within_zeroFrame ..).wider ?_
        | with_reducible refine (within_setEntry ..).wider ?_
        | with_reducible refine (within_bumpFree ..).wider ?_
        | with_reducible refine (within_chargeDevice ..).wider ?_
        | with_reducible apply within_seq_cons
        | with_reducible exact within_seq_nil
        | rfl

theorem within_placeAll {h : Nat} {wr pinned : Bool} {qs : List (Nat × Option Nat)} {s : State} {us : List Upd}
    (e : placeAll h wr pinned qs s = some us) : Within [.ctl, .mem, .chk, .farMem, .extent, .touched, .mergeBuf, .dumpRun, .freeCtr] (fun _ => us) := by
  induction qs generalizing s us with
  | nil => cases e; exact ⟨fun _ _ hu => nomatch hu⟩
  | cons q qs ih =>
    simp only [placeAll, Option.bind_eq_some_iff, Option.map_eq_some_iff] at e
    obtain ⟨vs, hv, ws, hw, rfl⟩ := e
    refine ⟨fun t u hu => ?_⟩
    rcases List.mem_append.1 hu with hu | hu
    · exact (within_placeNew hv).mem t u hu
    · exact (ih hw).mem t u hu

theorem within_placeFault {h : Nat} {wr pinned : Bool} {qs : List (Nat × Option Nat)} :
    Within [.ctl, .mem, .chk, .farMem, .extent, .touched, .mergeBuf, .dumpRun, .freeCtr] (placeFault h wr pinned qs) := by
  have hStep : ∀ c (q : State × Nat), Within [.ctl, .mem, .chk, .farMem, .extent, .touched, .mergeBuf, .dumpRun, .freeCtr] (act c (seq [copyReads (homeEntry q.1 q.2) h, moveFault q.2 h])) := fun c q =>
    within_act (within_seq_cons ((within_copyReads ..).wider rfl) (within_seq_cons ((within_moveFault ..).wider rfl) within_seq_nil))
  refine ⟨?_⟩
  induction qs with
  | nil => intro s u hu; cases hu
  | cons q qs ih =>
    intro s u hu
    unfold placeFault at hu
    split at hu
    · exact ih _ _ hu
    · split at hu
      · exact (hStep _ (s, _)).mem s u hu
      · cases hu

theorem within_setMigStat  : Within [.ctl] (setMigStat) := by
  unfold setMigStat
  repeat' first
    | with_reducible refine (within_wrBit ..).wider ?_
    | with_reducible refine (within_wrFld ..).wider ?_
    | with_reducible refine within_one ?_
    | with_reducible apply within_seq_cons
    | with_reducible exact within_seq_nil
    | with_reducible refine within_look fun _ => ?_
    | rfl

theorem within_moveEnded (m : PageMove) (changed : Bool) : Within [.ctl, .herd, .bx, .hcmd, .completions, .dumpRun, .freeCtr, .out] (moveEnded m changed) := by
  unfold moveEnded
  repeat' first
    | with_reducible exact within_nop
    | with_reducible refine (within_answer ..).wider ?_
    | with_reducible refine (within_setHerd ..).wider ?_
    | with_reducible refine within_one ?_
    | with_reducible apply within_seq_cons
    | with_reducible exact within_seq_nil
    | with_reducible refine within_look fun _ => ?_
    | with_reducible refine within_act ?_
    | with_reducible refine within_ite ?_ ?_
    | rfl
    | split

theorem within_dropMove (m : PageMove) (changed : Bool) : Within [.ctl, .herd, .moves, .bx, .hcmd, .completions, .dumpRun, .freeCtr, .out] (dropMove m changed) := by
  unfold dropMove
  repeat' first
    | with_reducible refine (within_moveEnded ..).wider ?_
    | with_reducible refine (within_setMigStat ..).wider ?_
    | with_reducible refine within_one ?_
    | with_reducible apply within_seq_cons
    | with_reducible exact within_seq_nil
    | with_reducible refine within_look fun _ => ?_
    | rfl

theorem within_freePages (ps : List Nat) : Within [.ctl, .core, .mem, .chk, .farMem, .herd, .extent, .moves, .touched, .mergeBuf, .bx, .hcmd, .completions, .dumpRun, .freeCtr, .out] (freePages ps) := by
  unfold freePages
  repeat' first
    | with_reducible refine (within_dropMove ..).wider ?_
    | with_reducible refine (within_freePage ..).wider ?_
    | with_reducible refine within_one ?_
    | with_reducible apply within_seq_cons
    | with_reducible exact within_seq_nil
    | with_reducible refine within_look fun _ => ?_
    | with_reducible refine within_each fun _ => ?_
    | with_reducible refine within_ite ?_ ?_
    | rfl

theorem within_sharePage (t p : Nat) : Within [.ctl, .core, .mem, .chk, .mergeBuf, .dumpRun, .freeCtr] (sharePage t p) := by
  unfold sharePage
  repeat' first
    | with_reducible refine (within_chargeDevice ..).wider ?_
    | with_reducible refine (within_dropLines ..).wider ?_
    | with_reducible refine (within_setEntry ..).wider ?_
    | with_reducible apply within_seq_cons
    | with_reducible exact within_seq_nil
    | with_reducible refine within_look fun _ => ?_
    | with_reducible refine within_act ?_
    | rfl

theorem within_moveAfter (m : PageMove) : Within [.ctl, .core, .mem, .chk, .farMem, .extent, .touched, .mergeBuf, .dumpRun, .freeCtr] (moveAfter m) := by
  unfold moveAfter
  repeat' first
    | with_reducible exact within_nop
    | with_reducible refine (within_freePage ..).wider ?_
    | with_reducible refine (within_sharePage ..).wider ?_
    | with_reducible refine within_one ?_
    | with_reducible refine within_look fun _ => ?_
    | with_reducible refine within_act ?_
    | rfl
    | split

theorem within_cancelMove (m : PageMove) : Within [.ctl, .core, .mem, .chk, .farMem, .herd, .extent, .moves, .touched, .mergeBuf, .bx, .hcmd, .completions, .dumpRun, .freeCtr, .out] (cancelMove m) := by
  unfold cancelMove
  repeat' first
    | with_reducible refine (within_bumpFree ..).wider ?_
    | with_reducible refine (within_dropMove ..).wider ?_
    | with_reducible refine (within_moveAfter ..).wider ?_
    | with_reducible refine (within_setEntry ..).wider ?_
    | with_reducible apply within_seq_cons
    | with_reducible exact within_seq_nil
    | with_reducible refine within_look fun _ => ?_
    | with_reducible refine within_act ?_
    | rfl

theorem within_migServe {ps : List Part} (hps : covers ps [.ctl, .mem, .chk, .herd, .mergeBuf, .bx, .hcmd, .completions, .dumpRun, .freeCtr, .out] = true) {a : Asker} {h : Nat} {inRange : Bool}
    {reads : List Nat} {refused : Nat → Act} {body : MigReq} (hr : ∀ x, Within ps (refused x)) (hb : WithinReq ps body) :
    Within ps (migServe a h inRange reads refused body) := by
  have hAns : ∀ st w, Within ps (answer a st w) := fun st w => ((within_answer a st w).wider (ps := [.ctl, .mem, .chk, .herd, .mergeBuf, .bx, .hcmd, .completions, .dumpRun, .freeCtr, .out]) rfl).wider hps
  have hEnt : ∀ p, Within ps (entryRead p h) := fun p => ((within_entryRead p h).wider (ps := [.ctl, .mem, .chk, .herd, .mergeBuf, .bx, .hcmd, .completions, .dumpRun, .freeCtr, .out]) rfl).wider hps
  have hSet : ∀ f, Within ps (setHerd h f) := fun f => ((within_setHerd h f).wider (ps := [.ctl, .mem, .chk, .herd, .mergeBuf, .bx, .hcmd, .completions, .dumpRun, .freeCtr, .out]) rfl).wider hps
  unfold migServe
  refine within_ite (hAns _ _) ?_
  refine within_seq_cons (within_each hEnt) (within_seq_cons (within_look fun s => ?_) within_seq_nil)
  split
  · exact within_seq_cons (hr _) (within_seq_cons (hAns _ _) within_seq_nil)
  · next x n he =>
    exact within_seq_cons (hb _ _ _ _ he) (within_seq_cons (within_look fun _ => within_ite (hAns _ _) (hSet _)) within_seq_nil)

theorem within_migRequest {ps : List Part} (hps : covers ps [.ctl, .mem, .chk, .herd, .mergeBuf, .bx, .hcmd, .htag, .busyRing, .completions, .fnTurn, .dumpRun, .freeCtr, .out] = true) {c : CmdId} {failedToo : Bool} {w0 : Nat} {page : Nat} {n : Nat} {inRange : Bool} {reads : List Nat} {refused : Nat → Act} {body : MigReq} (hrefused : ∀ x0, Within ps (refused x0)) (hbody : WithinReq ps body) : Within ps (migRequest c failedToo w0 page n inRange reads refused body) := by
  unfold migRequest
  repeat' first
    | with_reducible exact hrefused _
    | with_reducible exact hbody
    | with_reducible refine within_herdCmd (covers_trans hps rfl) (fun _ _ => ?_)
    | with_reducible refine within_migServe (covers_trans hps rfl) (fun _ => ?_) ?_

theorem within_noneRefused (n : Nat) : Within [] (noneRefused n) := within_nop

theorem withinReq_migAlloc (page k dest port : Nat) (wr pinned : Bool) : WithinReq [.ctl, .mem, .chk, .farMem, .extent, .touched, .mergeBuf, .dumpRun, .freeCtr] (migAlloc page k dest port wr pinned) := by
  intro h s x n he
  unfold migAlloc at he
  split at he
  · cases he
  · simp only [Option.map_eq_some_iff] at he
    obtain ⟨us, hu, he⟩ := he
    cases he
    exact within_placeAll hu

theorem within_allocRefused (page n dest port : Nat) (wr pinned : Bool) (h : Nat) :
    Within [.ctl, .mem, .chk, .farMem, .extent, .touched, .mergeBuf, .dumpRun, .freeCtr] (allocRefused page n dest port wr pinned h) :=
  ⟨fun s u hu => by
    unfold allocRefused at hu
    split at hu
    · cases hu
    · exact (within_placeFault.wider (ps := [.ctl, .mem, .chk, .farMem, .extent, .touched, .mergeBuf, .dumpRun, .freeCtr]) rfl).mem s u hu⟩

theorem within_actAlloc (c : CmdId) (page n dest port : Nat) (wr pinned : Bool) : Within [.ctl, .mem, .chk, .farMem, .herd, .extent, .touched, .mergeBuf, .bx, .hcmd, .htag, .busyRing, .completions, .fnTurn, .dumpRun, .freeCtr, .out] (actAlloc c page n dest port wr pinned) := by
  unfold actAlloc
  repeat' first
    | with_reducible refine (within_allocRefused ..).wider ?_
    | with_reducible refine within_migRequest rfl (fun _ => ?_) ?_
    | with_reducible refine (within_wr ..).wider ?_
    | with_reducible refine (withinReq_migAlloc ..).wider ?_
    | rfl

theorem withinReq_migFree (page k : Nat) : WithinReq [.ctl, .core, .mem, .chk, .farMem, .herd, .extent, .moves, .touched, .mergeBuf, .bx, .hcmd, .completions, .dumpRun, .freeCtr, .out] (migFree page k) := by
  intro h s x n he
  unfold migFree at he
  dsimp only at he
  split at he
  all_goals cases he
  repeat' first
    | with_reducible refine (within_freePages ..).wider ?_
    | with_reducible refine within_one ?_
    | with_reducible apply within_seq_cons
    | with_reducible exact within_seq_nil
    | with_reducible refine within_look fun _ => ?_
    | with_reducible refine within_each fun _ => ?_
    | with_reducible refine within_act ?_
    | with_reducible refine within_ite ?_ ?_
    | rfl

theorem within_actFree (c : CmdId) (page n : Nat) : Within [.ctl, .core, .mem, .chk, .farMem, .herd, .extent, .moves, .touched, .mergeBuf, .bx, .hcmd, .htag, .busyRing, .completions, .fnTurn, .dumpRun, .freeCtr, .out] (actFree c page n) := by
  unfold actFree
  repeat' first
    | with_reducible refine within_migRequest rfl (fun _ => ?_) ?_
    | with_reducible refine (within_noneRefused ..).wider ?_
    | with_reducible refine (withinReq_migFree ..).wider ?_
    | with_reducible refine within_one ?_
    | rfl

theorem within_askMove (p h : Nat) (dest : Option Nat) (explicit pin : Bool) (entry : Option Nat) : Within [.moves] (askMove p h dest explicit pin entry) := by
  unfold askMove
  repeat' first
    | with_reducible refine within_one ?_
    | with_reducible refine within_look fun _ => ?_
    | rfl

theorem withinReq_migMove (page k dest port : Nat) : WithinReq [.moves] (migMove page k dest port) := by
  intro h s x n he
  unfold migMove at he
  dsimp only at he
  split at he
  all_goals cases he
  repeat' first
    | with_reducible refine (within_askMove ..).wider ?_
    | with_reducible refine within_one ?_
    | with_reducible apply within_seq_cons
    | with_reducible exact within_seq_nil
    | with_reducible refine within_look fun _ => ?_
    | with_reducible refine within_each fun _ => ?_
    | with_reducible refine within_act ?_
    | with_reducible refine within_ite ?_ ?_
    | rfl

theorem within_actMove (c : CmdId) (page n dest port : Nat) : Within [.ctl, .mem, .chk, .herd, .moves, .mergeBuf, .bx, .hcmd, .htag, .busyRing, .completions, .fnTurn, .dumpRun, .freeCtr, .out] (actMove c page n dest port) := by
  unfold actMove
  repeat' first
    | with_reducible refine within_migRequest rfl (fun _ => ?_) ?_
    | with_reducible refine (within_noneRefused ..).wider ?_
    | with_reducible refine (withinReq_migMove ..).wider ?_
    | with_reducible refine within_one ?_
    | rfl

theorem withinReq_migPin (page k : Nat) : WithinReq [.ctl, .mem, .chk, .moves, .mergeBuf, .dumpRun, .freeCtr] (migPin page k) := by
  intro h s x n he
  unfold migPin at he
  dsimp only at he
  split at he
  all_goals cases he
  repeat' first
    | with_reducible refine (within_askMove ..).wider ?_
    | with_reducible refine (within_bump ..).wider ?_
    | with_reducible refine (within_setEntry ..).wider ?_
    | with_reducible refine (within_takeFree ..).wider ?_
    | with_reducible refine within_one ?_
    | with_reducible apply within_seq_cons
    | with_reducible exact within_seq_nil
    | with_reducible refine within_look fun _ => ?_
    | with_reducible refine within_each fun _ => ?_
    | with_reducible refine within_act ?_
    | with_reducible refine within_ite ?_ ?_
    | rfl

theorem within_actPin (c : CmdId) (page n : Nat) : Within [.ctl, .mem, .chk, .herd, .moves, .mergeBuf, .bx, .hcmd, .htag, .busyRing, .completions, .fnTurn, .dumpRun, .freeCtr, .out] (actPin c page n) := by
  unfold actPin
  repeat' first
    | with_reducible refine within_migRequest rfl (fun _ => ?_) ?_
    | with_reducible refine (within_noneRefused ..).wider ?_
    | with_reducible refine (withinReq_migPin ..).wider ?_
    | with_reducible refine within_one ?_
    | rfl

theorem withinReq_migUnpin (page k : Nat) : WithinReq [.ctl, .mem, .chk, .moves, .mergeBuf, .dumpRun, .freeCtr] (migUnpin page k) := by
  intro h s x n he
  unfold migUnpin at he
  dsimp only at he
  split at he
  all_goals cases he
  repeat' first
    | with_reducible refine (within_bump ..).wider ?_
    | with_reducible refine (within_setEntry ..).wider ?_
    | with_reducible refine within_one ?_
    | with_reducible apply within_seq_cons
    | with_reducible exact within_seq_nil
    | with_reducible refine within_look fun _ => ?_
    | with_reducible refine within_each fun _ => ?_
    | with_reducible refine within_act ?_
    | with_reducible refine within_ite ?_ ?_
    | rfl

theorem within_actUnpin (c : CmdId) (page n : Nat) : Within [.ctl, .mem, .chk, .herd, .moves, .mergeBuf, .bx, .hcmd, .htag, .busyRing, .completions, .fnTurn, .dumpRun, .freeCtr, .out] (actUnpin c page n) := by
  unfold actUnpin
  repeat' first
    | with_reducible refine within_migRequest rfl (fun _ => ?_) ?_
    | with_reducible refine (within_noneRefused ..).wider ?_
    | with_reducible refine (withinReq_migUnpin ..).wider ?_
    | with_reducible refine within_one ?_
    | rfl

theorem withinReq_migProt (page k : Nat) (wrb : Bool) : WithinReq [.ctl, .mem, .chk, .mergeBuf, .dumpRun, .freeCtr] (migProt page k wrb) := by
  intro h s x n he
  unfold migProt at he
  dsimp only at he
  split at he
  all_goals cases he
  repeat' first
    | with_reducible refine (within_setEntry ..).wider ?_
    | with_reducible refine within_one ?_
    | with_reducible apply within_seq_cons
    | with_reducible exact within_seq_nil
    | with_reducible refine within_look fun _ => ?_
    | with_reducible refine within_each fun _ => ?_
    | with_reducible refine within_act ?_
    | with_reducible refine within_ite ?_ ?_
    | rfl

theorem within_actProt (c : CmdId) (page n : Nat) (wrb : Bool) : Within [.ctl, .mem, .chk, .herd, .mergeBuf, .bx, .hcmd, .htag, .busyRing, .completions, .fnTurn, .dumpRun, .freeCtr, .out] (actProt c page n wrb) := by
  unfold actProt
  repeat' first
    | with_reducible refine within_migRequest rfl (fun _ => ?_) ?_
    | with_reducible refine (within_noneRefused ..).wider ?_
    | with_reducible refine (withinReq_migProt ..).wider ?_
    | with_reducible refine within_one ?_
    | rfl

theorem withinReq_migShare (page k : Nat) (t : BitVec 8) : WithinReq [.ctl, .core, .mem, .chk, .ssetOwner, .moves, .mergeBuf, .dumpRun, .freeCtr] (migShare page k t) := by
  intro h s x n he
  unfold migShare at he
  dsimp only at he
  split at he
  all_goals cases he
  repeat' first
    | with_reducible refine (within_sharePage ..).wider ?_
    | with_reducible refine (within_wr64 ..).wider ?_
    | with_reducible refine within_one ?_
    | with_reducible apply within_seq_cons
    | with_reducible exact within_seq_nil
    | with_reducible refine within_look fun _ => ?_
    | with_reducible refine within_each fun _ => ?_
    | with_reducible refine within_act ?_
    | with_reducible refine within_ite ?_ ?_
    | rfl

theorem within_actShare (c : CmdId) (page n : Nat) (t : BitVec 8) : Within [.ctl, .core, .mem, .chk, .herd, .ssetOwner, .moves, .mergeBuf, .bx, .hcmd, .htag, .busyRing, .completions, .fnTurn, .dumpRun, .freeCtr, .out] (actShare c page n t) := by
  unfold actShare
  repeat' first
    | with_reducible refine within_migRequest rfl (fun _ => ?_) ?_
    | with_reducible refine (within_noneRefused ..).wider ?_
    | with_reducible refine (withinReq_migShare ..).wider ?_
    | with_reducible refine within_one ?_
    | rfl

theorem within_freeEmptySet (t : Nat) : Within [.ctl, .core, .mem, .chk, .farMem, .herd, .extent, .ssetOwner, .moves, .touched, .mergeBuf, .bx, .hcmd, .completions, .dumpRun, .freeCtr, .out] (freeEmptySet t) := by
  unfold freeEmptySet
  repeat' first
    | with_reducible exact within_nop
    | with_reducible refine (within_freePages ..).wider ?_
    | with_reducible refine within_one ?_
    | with_reducible apply within_seq_cons
    | with_reducible exact within_seq_nil
    | with_reducible refine within_look fun _ => ?_
    | with_reducible refine within_ite ?_ ?_
    | rfl

theorem within_setMember (t h : Nat) (inSet : Bool) : Within [.ctl, .core, .mem, .chk, .farMem, .herd, .extent, .ssetOwner, .moves, .touched, .mergeBuf, .bx, .hcmd, .completions, .dumpRun, .freeCtr, .out] (setMember t h inSet) := by
  unfold setMember
  repeat' first
    | with_reducible refine (within_dropLines ..).wider ?_
    | with_reducible refine (within_freeEmptySet ..).wider ?_
    | with_reducible refine (within_wr64 ..).wider ?_
    | with_reducible apply within_seq_cons
    | with_reducible exact within_seq_nil
    | with_reducible refine within_look fun _ => ?_
    | with_reducible refine within_each fun _ => ?_
    | with_reducible refine within_act ?_
    | rfl

theorem withinReq_migAdmit (t : BitVec 8) (g : HerdNo) : WithinReq [.ctl, .core, .mem, .chk, .farMem, .herd, .extent, .ssetOwner, .moves, .touched, .mergeBuf, .bx, .hcmd, .completions, .dumpRun, .freeCtr, .out] (migAdmit t g) := by
  intro h s x n he
  unfold migAdmit at he
  split at he
  all_goals cases he
  repeat' first
    | with_reducible refine (within_setMember ..).wider ?_
    | with_reducible refine within_one ?_
    | with_reducible apply within_seq_cons
    | with_reducible exact within_seq_nil
    | with_reducible refine within_look fun _ => ?_
    | with_reducible refine within_each fun _ => ?_
    | with_reducible refine within_act ?_
    | with_reducible refine within_ite ?_ ?_
    | rfl

theorem within_actAdmitHerd (c : CmdId) (t : BitVec 8) (g : HerdNo) : Within [.ctl, .core, .mem, .chk, .farMem, .herd, .extent, .ssetOwner, .moves, .touched, .mergeBuf, .bx, .hcmd, .htag, .busyRing, .completions, .fnTurn, .dumpRun, .freeCtr, .out] (actAdmitHerd c t g) := by
  unfold actAdmitHerd
  repeat' first
    | with_reducible refine within_migRequest rfl (fun _ => ?_) ?_
    | with_reducible refine (within_noneRefused ..).wider ?_
    | with_reducible refine (withinReq_migAdmit ..).wider ?_
    | with_reducible refine within_one ?_
    | rfl

theorem withinReq_migRevoke (t : BitVec 8) (g : HerdNo) : WithinReq [.ctl, .core, .mem, .chk, .farMem, .herd, .extent, .ssetOwner, .moves, .touched, .mergeBuf, .bx, .hcmd, .completions, .dumpRun, .freeCtr, .out] (migRevoke t g) := by
  intro h s x n he
  unfold migRevoke at he
  split at he
  all_goals cases he
  repeat' first
    | with_reducible refine (within_setMember ..).wider ?_
    | with_reducible refine within_one ?_
    | with_reducible apply within_seq_cons
    | with_reducible exact within_seq_nil
    | with_reducible refine within_look fun _ => ?_
    | with_reducible refine within_each fun _ => ?_
    | with_reducible refine within_act ?_
    | with_reducible refine within_ite ?_ ?_
    | rfl

theorem within_actRevoke (c : CmdId) (t : BitVec 8) (g : HerdNo) : Within [.ctl, .core, .mem, .chk, .farMem, .herd, .extent, .ssetOwner, .moves, .touched, .mergeBuf, .bx, .hcmd, .htag, .busyRing, .completions, .fnTurn, .dumpRun, .freeCtr, .out] (actRevoke c t g) := by
  unfold actRevoke
  repeat' first
    | with_reducible refine within_migRequest rfl (fun _ => ?_) ?_
    | with_reducible refine (within_noneRefused ..).wider ?_
    | with_reducible refine (withinReq_migRevoke ..).wider ?_
    | with_reducible refine within_one ?_
    | rfl

theorem within_startMove (m : PageMove) (far : Bool) (home : Nat) : Within [.ctl, .mem, .chk, .moves, .moveTurn, .mergeBuf, .dumpRun, .freeCtr] (startMove m far home) := by
  unfold startMove
  repeat' first
    | with_reducible refine (within_bumpFree ..).wider ?_
    | with_reducible refine (within_entryRead ..).wider ?_
    | with_reducible refine (within_setEntry ..).wider ?_
    | with_reducible refine (within_setMigStat ..).wider ?_
    | with_reducible refine within_one ?_
    | with_reducible apply within_seq_cons
    | with_reducible exact within_seq_nil
    | with_reducible refine within_look fun _ => ?_
    | with_reducible refine within_act ?_
    | rfl

theorem within_actPageMove  : Within [.ctl, .mem, .chk, .herd, .moves, .moveTurn, .mergeBuf, .bx, .hcmd, .completions, .dumpRun, .freeCtr, .out] (actPageMove) := by
  unfold actPageMove
  repeat' first
    | with_reducible exact within_nop
    | with_reducible refine (within_bump ..).wider ?_
    | with_reducible refine (within_dropMove ..).wider ?_
    | with_reducible refine (within_entryRead ..).wider ?_
    | with_reducible refine (within_setEntry ..).wider ?_
    | with_reducible refine (within_startMove ..).wider ?_
    | with_reducible refine within_one ?_
    | with_reducible apply within_seq_cons
    | with_reducible exact within_seq_nil
    | with_reducible refine within_look fun _ => ?_
    | with_reducible refine within_act ?_
    | with_reducible refine within_ite ?_ ?_
    | rfl
    | split

theorem within_setPf (h i : Nat) (f : PfEntry → PfEntry) : Within [.herd] (setPf h i f) := by
  unfold setPf
  repeat' first
    | with_reducible refine (within_setHerd ..).wider ?_
    | with_reducible refine within_ite ?_ ?_
    | rfl

theorem within_moveCharge (h : Nat) (was is_ wasPin isPin : Bool) : Within [.ctl] (moveCharge h was is_ wasPin isPin) := by
  unfold moveCharge
  repeat' first
    | with_reducible refine (within_bump ..).wider ?_
    | with_reducible apply within_seq_cons
    | with_reducible exact within_seq_nil
    | with_reducible refine within_act ?_
    | with_reducible refine within_ite ?_ ?_
    | rfl

theorem within_actPageMoveDone (p : Nat) : Within [.ctl, .core, .mem, .chk, .farMem, .herd, .extent, .moves, .touched, .mergeBuf, .bx, .hcmd, .completions, .dumpRun, .freeCtr, .out] (actPageMoveDone p) := by
  unfold actPageMoveDone
  repeat' first
    | with_reducible exact within_nop
    | with_reducible refine (within_bumpFree ..).wider ?_
    | with_reducible refine (within_copyHome ..).wider ?_
    | with_reducible refine (within_copyReads ..).wider ?_
    | with_reducible refine (within_count ..).wider ?_
    | with_reducible refine (within_dropMove ..).wider ?_
    | with_reducible refine (within_moveAfter ..).wider ?_
    | with_reducible refine (within_moveCharge ..).wider ?_
    | with_reducible refine (within_moveFault ..).wider ?_
    | with_reducible refine (within_releaseHome ..).wider ?_
    | with_reducible refine (within_setEntry ..).wider ?_
    | with_reducible refine (within_setPf ..).wider ?_
    | with_reducible refine within_one ?_
    | with_reducible apply within_seq_cons
    | with_reducible exact within_seq_nil
    | with_reducible refine within_look fun _ => ?_
    | with_reducible refine within_act ?_
    | with_reducible refine within_ite ?_ ?_
    | rfl
    | split

theorem within_actTouchWrite (p : Nat) : Within [.ctl, .mem, .chk, .touched, .mergeBuf, .dumpRun, .freeCtr] (actTouchWrite p) := by
  unfold actTouchWrite
  repeat' first
    | with_reducible exact within_nop
    | with_reducible refine (within_setEntry ..).wider ?_
    | with_reducible refine within_one ?_
    | with_reducible apply within_seq_cons
    | with_reducible exact within_seq_nil
    | with_reducible refine within_look fun _ => ?_
    | with_reducible refine within_act ?_
    | with_reducible refine within_ite ?_ ?_
    | rfl

theorem within_actEvict  : Within [.ctl, .moves] (actEvict) := by
  unfold actEvict
  repeat' first
    | with_reducible exact within_nop
    | with_reducible refine (within_askMove ..).wider ?_
    | with_reducible refine (within_setIst ..).wider ?_
    | with_reducible refine (within_setMigStat ..).wider ?_
    | with_reducible refine (within_wrFld ..).wider ?_
    | with_reducible refine within_one ?_
    | with_reducible apply within_seq_cons
    | with_reducible exact within_seq_nil
    | with_reducible refine within_look fun _ => ?_
    | with_reducible refine within_ite ?_ ?_
    | rfl
    | split

theorem within_hfloorWrite (r : Requester) (h : Nat) (v : Word) : Within [.ctl, .dumpRun, .freeCtr] (hfloorWrite r h v) := by
  unfold hfloorWrite
  repeat' first
    | with_reducible refine (within_protocolAt ..).wider ?_
    | with_reducible refine (within_wr ..).wider ?_
    | with_reducible refine within_look fun _ => ?_
    | with_reducible refine within_ite ?_ ?_
    | rfl

theorem within_wmarkWrite (r : Requester) (v : Word) : Within [.ctl, .dumpRun, .freeCtr] (wmarkWrite r v) := by
  unfold wmarkWrite
  repeat' first
    | with_reducible refine (within_bumpFree ..).wider ?_
    | with_reducible refine (within_protocolAt ..).wider ?_
    | with_reducible refine (within_wr ..).wider ?_
    | with_reducible apply within_seq_cons
    | with_reducible exact within_seq_nil
    | with_reducible refine within_ite ?_ ?_
    | rfl

theorem within_hpfWrite (r : Requester) (h w : Nat) (v : Word) : Within [.ctl, .herd, .dumpRun, .freeCtr] (hpfWrite r h w v) := by
  unfold hpfWrite
  repeat' first
    | with_reducible refine (within_maskWrite ..).wider ?_
    | with_reducible refine (within_protocolAt ..).wider ?_
    | with_reducible refine (within_setHerd ..).wider ?_
    | with_reducible refine within_look fun _ => ?_
    | with_reducible refine within_ite ?_ ?_
    | rfl

theorem within_pfReadActs (h i : Nat) : Within [.ctl, .mem, .chk, .mergeBuf, .dumpRun, .freeCtr] (pfReadActs h i) := by
  unfold pfReadActs
  repeat' first
    | with_reducible exact within_nop
    | with_reducible refine (within_count ..).wider ?_
    | with_reducible refine (within_devReadActs ..).wider ?_
    | with_reducible refine (within_entryRead ..).wider ?_
    | with_reducible refine (within_rangeSecurity ..).wider ?_
    | with_reducible apply within_seq_cons
    | with_reducible exact within_seq_nil
    | with_reducible refine within_look fun _ => ?_
    | rfl
    | split

theorem within_pfMiss (h : Nat) (e : PfEntry) : Within [.ctl, .packets, .herd, .moves] (pfMiss h e) := by
  unfold pfMiss
  repeat' first
    | with_reducible refine (within_count ..).wider ?_
    | with_reducible refine (within_flagAll ..).wider ?_
    | with_reducible refine (within_setIst ..).wider ?_
    | with_reducible refine (within_setPf ..).wider ?_
    | with_reducible refine (within_wr ..).wider ?_
    | with_reducible refine within_one ?_
    | with_reducible apply within_seq_cons
    | with_reducible exact within_seq_nil
    | with_reducible refine within_look fun _ => ?_
    | with_reducible refine within_act ?_
    | with_reducible refine within_ite ?_ ?_
    | rfl

theorem within_pfSlot (h k i : Nat) : Within [.ctl, .packets, .herd, .moves] (pfSlot h k i) := by
  unfold pfSlot
  repeat' first
    | with_reducible exact within_nop
    | with_reducible refine (within_askMove ..).wider ?_
    | with_reducible refine (within_count ..).wider ?_
    | with_reducible refine (within_pfMiss ..).wider ?_
    | with_reducible refine (within_setPf ..).wider ?_
    | with_reducible refine within_one ?_
    | with_reducible apply within_seq_cons
    | with_reducible exact within_seq_nil
    | with_reducible refine within_look fun _ => ?_
    | with_reducible refine within_each fun _ => ?_
    | with_reducible refine within_act ?_
    | with_reducible refine within_ite ?_ ?_
    | rfl
    | split

theorem within_openSlot (h k : Nat) : Within [.ctl, .packets, .herd, .moves] (openSlot h k) := by
  unfold openSlot
  repeat' first
    | with_reducible exact within_nop
    | with_reducible refine (within_pfSlot ..).wider ?_
    | with_reducible refine (within_setHerd ..).wider ?_
    | with_reducible refine (within_setMigStat ..).wider ?_
    | with_reducible refine within_one ?_
    | with_reducible apply within_seq_cons
    | with_reducible exact within_seq_nil
    | with_reducible refine within_look fun _ => ?_
    | with_reducible refine within_each fun _ => ?_
    | with_reducible refine within_ite ?_ ?_
    | rfl
    | split

theorem within_pfBegin (h i : Nat) : Within [.ctl, .mem, .chk, .packets, .herd, .moves, .mergeBuf, .dumpRun, .freeCtr] (pfBegin h i) := by
  unfold pfBegin
  repeat' first
    | with_reducible refine (within_pfMiss ..).wider ?_
    | with_reducible refine (within_pfReadActs ..).wider ?_
    | with_reducible refine (within_raise ..).wider ?_
    | with_reducible refine (within_setHerd ..).wider ?_
    | with_reducible refine (within_setIst ..).wider ?_
    | with_reducible refine within_mapGetD fun _ => ?_
    | with_reducible refine within_one ?_
    | with_reducible apply within_seq_cons
    | with_reducible exact within_seq_nil
    | with_reducible refine within_look fun _ => ?_
    | with_reducible refine within_act ?_
    | rfl

theorem within_pfStepEnd (h : Nat) : Within [.ctl, .moves] (pfStepEnd h) := by
  unfold pfStepEnd
  repeat' first
    | with_reducible exact within_nop
    | with_reducible refine (within_count ..).wider ?_
    | with_reducible refine within_one ?_
    | with_reducible apply within_seq_cons
    | with_reducible exact within_seq_nil
    | with_reducible refine within_look fun _ => ?_
    | with_reducible refine within_ite ?_ ?_
    | rfl
    | split

theorem within_pfStepBoundary (h : Nat) : Within [.ctl, .mem, .chk, .packets, .herd, .moves, .mergeBuf, .dumpRun, .freeCtr] (pfStepBoundary h) := by
  unfold pfStepBoundary
  repeat' first
    | with_reducible exact within_nop
    | with_reducible refine (within_maskWrite ..).wider ?_
    | with_reducible refine (within_openSlot ..).wider ?_
    | with_reducible refine (within_pfBegin ..).wider ?_
    | with_reducible refine (within_pfStepEnd ..).wider ?_
    | with_reducible refine (within_setHerd ..).wider ?_
    | with_reducible refine within_one ?_
    | with_reducible apply within_seq_cons
    | with_reducible exact within_seq_nil
    | with_reducible refine within_look fun _ => ?_
    | with_reducible refine within_each fun _ => ?_
    | with_reducible refine within_act ?_
    | rfl
    | split

theorem within_actPrefetchDone (h i : Nat) : Within [.ctl, .packets, .herd] (actPrefetchDone h i) := by
  unfold actPrefetchDone
  repeat' first
    | with_reducible exact within_nop
    | with_reducible refine (within_flagAll ..).wider ?_
    | with_reducible refine (within_setMigStat ..).wider ?_
    | with_reducible refine (within_setPf ..).wider ?_
    | with_reducible refine within_one ?_
    | with_reducible apply within_seq_cons
    | with_reducible exact within_seq_nil
    | with_reducible refine within_look fun _ => ?_
    | with_reducible refine within_act ?_
    | rfl
    | split

theorem within_actExtReg (c : CmdId) (base : DWord) (pages : Nat) : Within [.ctl, .extent, .bx, .hcmd, .htag, .busyRing, .completions, .fnTurn, .dumpRun, .freeCtr, .out] (actExtReg c base pages) := by
  unfold actExtReg
  repeat' first
    | with_reducible exact within_nop
    | with_reducible refine (within_answer ..).wider ?_
    | with_reducible refine within_herdCmd rfl (fun _ _ => ?_)
    | with_reducible refine within_one ?_
    | with_reducible apply within_seq_cons
    | with_reducible exact within_seq_nil
    | with_reducible refine within_look fun _ => ?_
    | with_reducible refine within_ite ?_ ?_
    | rfl
    | split

theorem within_dropExtent (i : Nat) : Within [.ctl, .core, .mem, .chk, .farMem, .herd, .extent, .moves, .touched, .mergeBuf, .bx, .hcmd, .completions, .dumpRun, .freeCtr, .out] (dropExtent i) := by
  unfold dropExtent
  repeat' first
    | with_reducible refine (within_cancelMove ..).wider ?_
    | with_reducible refine (within_dropLines ..).wider ?_
    | with_reducible refine (within_setEntry ..).wider ?_
    | with_reducible refine within_one ?_
    | with_reducible apply within_seq_cons
    | with_reducible exact within_seq_nil
    | with_reducible refine within_look fun _ => ?_
    | with_reducible refine within_each fun _ => ?_
    | rfl

theorem within_loseExtent (i : Nat) : Within [.ctl, .core, .mem, .chk, .farMem, .herd, .extent, .moves, .touched, .mergeBuf, .bx, .hcmd, .completions, .dumpRun, .freeCtr, .out] (loseExtent i) := by
  unfold loseExtent
  repeat' first
    | with_reducible exact within_nop
    | with_reducible refine (within_cancelMove ..).wider ?_
    | with_reducible refine (within_dropLines ..).wider ?_
    | with_reducible refine within_one ?_
    | with_reducible apply within_seq_cons
    | with_reducible exact within_seq_nil
    | with_reducible refine within_look fun _ => ?_
    | with_reducible refine within_each fun _ => ?_
    | rfl
    | split

theorem within_leaveExtent (i : Nat) : Within [.ctl, .core, .mem, .chk, .farMem, .herd, .extent, .moves, .touched, .mergeBuf, .bx, .hcmd, .completions, .dumpRun, .freeCtr, .out] (leaveExtent i) := by
  unfold leaveExtent
  repeat' first
    | with_reducible exact within_nop
    | with_reducible refine (within_dropExtent ..).wider ?_
    | with_reducible refine within_one ?_
    | with_reducible refine within_look fun _ => ?_
    | with_reducible refine within_ite ?_ ?_
    | rfl
    | split

theorem within_actExtDereg (c : CmdId) (i : BitVec 8) : Within [.ctl, .core, .mem, .chk, .farMem, .herd, .extent, .moves, .touched, .mergeBuf, .bx, .hcmd, .htag, .busyRing, .completions, .notices, .fnTurn, .dumpRun, .freeCtr, .out] (actExtDereg c i) := by
  unfold actExtDereg
  repeat' first
    | with_reducible exact within_nop
    | with_reducible refine (within_answer ..).wider ?_
    | with_reducible refine (within_dropExtent ..).wider ?_
    | with_reducible refine (within_failHerd ..).wider ?_
    | with_reducible refine within_herdCmd rfl (fun _ _ => ?_)
    | with_reducible refine within_one ?_
    | with_reducible apply within_seq_cons
    | with_reducible exact within_seq_nil
    | with_reducible refine within_look fun _ => ?_
    | with_reducible refine within_act ?_
    | with_reducible refine within_ite ?_ ?_
    | rfl
    | split

theorem within_bar2Refusals (f : FnNo) (h a len : Nat) (write : Bool) : Within [.ctl, .mem, .chk, .touched, .mergeBuf, .dumpRun, .freeCtr] (bar2Refusals f h a len write) := by
  unfold bar2Refusals
  repeat' first
    | with_reducible exact within_nop
    | with_reducible refine (within_count ..).wider ?_
    | with_reducible refine (within_devReadActs ..).wider ?_
    | with_reducible refine (within_entryRead ..).wider ?_
    | with_reducible refine (within_rangeSecurity ..).wider ?_
    | with_reducible refine (within_ring ..).wider ?_
    | with_reducible refine (within_touch ..).wider ?_
    | with_reducible apply within_seq_cons
    | with_reducible exact within_seq_nil
    | with_reducible refine within_look fun _ => ?_
    | with_reducible refine within_each fun _ => ?_
    | with_reducible refine within_ite ?_ ?_
    | rfl
    | split

theorem within_actBar2Read (f : FnNo) (off len : Nat) : Within [.ctl, .mem, .chk, .touched, .mergeBuf, .dumpRun, .freeCtr, .out] (actBar2Read f off len) := by
  unfold actBar2Read
  repeat' first
    | with_reducible exact within_nop
    | with_reducible refine (within_bar2Refusals ..).wider ?_
    | with_reducible refine within_one ?_
    | with_reducible apply within_seq_cons
    | with_reducible exact within_seq_nil
    | with_reducible refine within_look fun _ => ?_
    | with_reducible refine within_ite ?_ ?_
    | rfl
    | split

theorem within_actBar2Write (f : FnNo) (off : Nat) (data : List (Option Byte)) : Within [.ctl, .mem, .chk, .touched, .mergeBuf, .dumpRun, .freeCtr] (actBar2Write f off data) := by
  unfold actBar2Write
  repeat' first
    | with_reducible exact within_nop
    | with_reducible refine (within_bar2Refusals ..).wider ?_
    | with_reducible refine (within_portNarrow ..).wider ?_
    | with_reducible refine (within_portWrite ..).wider ?_
    | with_reducible refine within_mapGetD fun _ => ?_
    | with_reducible refine within_one ?_
    | with_reducible apply within_seq_cons
    | with_reducible exact within_seq_nil
    | with_reducible refine within_look fun _ => ?_
    | with_reducible refine within_each fun _ => ?_
    | with_reducible refine within_ite ?_ ?_
    | rfl
    | split

/-! ## CoreFault -/

theorem within_coreEvent (site p : Nat) (c : Cls) : Within [.ctl, .dumpRun, .freeCtr] (coreEvent site p c) := by
  unfold coreEvent
  repeat' first
    | with_reducible refine (within_raise ..).wider ?_
    | with_reducible refine within_look fun _ => ?_
    | rfl

theorem within_withdrawWait (site : Nat) : Within [.ctl, .core, .packets] (withdrawWait site) := by
  unfold withdrawWait
  repeat' first
    | with_reducible refine (within_send0 ..).wider ?_
    | with_reducible refine (within_setCore ..).wider ?_
    | with_reducible refine (within_withdraw ..).wider ?_
    | with_reducible refine (within_wrBit ..).wider ?_
    | with_reducible apply within_seq_cons
    | with_reducible exact within_seq_nil
    | with_reducible refine within_look fun _ => ?_
    | with_reducible refine within_act ?_
    | with_reducible refine within_ite ?_ ?_
    | rfl

theorem within_captureFault (site row part : Nat) (word : Word) (space : Bool) (addr cause : Nat) : Within [.ctl, .core, .packets, .herd, .dumpRun, .freeCtr, .out] (captureFault site row part word space addr cause) := by
  unfold captureFault
  repeat' first
    | with_reducible exact within_nop
    | with_reducible refine (within_coreEvent ..).wider ?_
    | with_reducible refine (within_pauseHerd ..).wider ?_
    | with_reducible refine (within_podPause ..).wider ?_
    | with_reducible refine (within_setCore ..).wider ?_
    | with_reducible refine (within_setHerd ..).wider ?_
    | with_reducible refine (within_withdrawWait ..).wider ?_
    | with_reducible refine (within_wr ..).wider ?_
    | with_reducible refine within_one ?_
    | with_reducible apply within_seq_cons
    | with_reducible exact within_seq_nil
    | with_reducible refine within_look fun _ => ?_
    | rfl
    | split

theorem within_secondFault (site cause : Nat) : Within [.ctl, .dumpRun, .freeCtr] (secondFault site cause) := by
  unfold secondFault
  repeat' first
    | with_reducible refine (within_coreEvent ..).wider ?_
    | with_reducible refine (within_wrBit ..).wider ?_
    | with_reducible apply within_seq_cons
    | with_reducible exact within_seq_nil
    | rfl

theorem within_rowFault (site row part : Nat) (word : Word) (space : Bool) (addr cause : Nat) : Within [.ctl, .core, .packets, .herd, .dumpRun, .freeCtr, .out] (rowFault site row part word space addr cause) := by
  unfold rowFault
  repeat' first
    | with_reducible exact within_nop
    | with_reducible refine (within_captureFault ..).wider ?_
    | with_reducible refine within_look fun _ => ?_
    | with_reducible refine within_ite ?_ ?_
    | rfl

theorem within_insnFault (site : Nat) (i : Issued) (space : Bool) (addr cause : Nat) : Within [.ctl, .core, .packets, .herd, .dumpRun, .freeCtr, .out] (insnFault site i space addr cause) := by
  unfold insnFault
  repeat' first
    | with_reducible refine (within_captureFault ..).wider ?_
    | with_reducible refine (within_retire ..).wider ?_
    | with_reducible refine (within_secondFault ..).wider ?_
    | with_reducible refine (within_setIssued ..).wider ?_
    | with_reducible apply within_seq_cons
    | with_reducible exact within_seq_nil
    | with_reducible refine within_look fun _ => ?_
    | with_reducible refine within_ite ?_ ?_
    | rfl

theorem within_stWrite (site a : Nat) (bs : List Byte) : Within [.store, .storeBad] (stWrite site a bs) := by
  unfold stWrite
  repeat' first
    | with_reducible refine (within_stPut ..).wider ?_
    | with_reducible refine within_look fun _ => ?_
    | with_reducible refine within_each fun _ => ?_
    | with_reducible refine within_act ?_
    | rfl

theorem within_stFound (site n : Nat) (found : Cell) : Within [.ctl, .storeBad, .dumpRun, .freeCtr] (stFound site n found) := by
  unfold stFound
  repeat' first
    | with_reducible exact within_nop
    | with_reducible refine (within_coreEvent ..).wider ?_
    | with_reducible refine (within_count ..).wider ?_
    | with_reducible refine within_one ?_
    | with_reducible apply within_seq_cons
    | with_reducible exact within_seq_nil
    | with_reducible refine within_look fun _ => ?_
    | rfl
    | split

theorem within_stFoundAll (site : Nat) (ws : List Nat) (found : List Cell) : Within [.ctl, .storeBad, .dumpRun, .freeCtr] (stFoundAll site ws found) := by
  unfold stFoundAll
  repeat' first
    | with_reducible refine (within_stFound ..).wider ?_
    | with_reducible refine within_mapGetD fun _ => ?_
    | with_reducible refine within_each fun _ => ?_
    | rfl

theorem within_stCount (site n : Nat) : Within [.ctl] (stCount site n) := by
  unfold stCount
  repeat' first
    | with_reducible refine (within_count ..).wider ?_
    | rfl

theorem within_rcFill (site l : Nat) : Within [.ctl, .core, .mem, .chk, .touched, .mergeBuf, .dumpRun, .freeCtr, .out] (rcFill site l) := by
  unfold rcFill
  repeat' first
    | with_reducible exact within_nop
    | with_reducible refine (within_setCore ..).wider ?_
    | with_reducible refine (within_takeFree ..).wider ?_
    | with_reducible refine (within_urReadActs ..).wider ?_
    | with_reducible apply within_seq_cons
    | with_reducible exact within_seq_nil
    | with_reducible refine within_look fun _ => ?_
    | with_reducible refine within_act ?_
    | with_reducible refine within_ite ?_ ?_
    | rfl
    | split

theorem within_rcReadActs (site a n : Nat) : Within [.ctl, .core, .mem, .chk, .touched, .mergeBuf, .dumpRun, .freeCtr, .out] (rcReadActs site a n) := by
  unfold rcReadActs
  repeat' first
    | with_reducible refine (within_count ..).wider ?_
    | with_reducible refine (within_rcFill ..).wider ?_
    | with_reducible refine (within_urReadActs ..).wider ?_
    | with_reducible apply within_seq_cons
    | with_reducible exact within_seq_nil
    | with_reducible refine within_look fun _ => ?_
    | with_reducible refine within_each fun _ => ?_
    | with_reducible refine within_ite ?_ ?_
    | rfl

theorem within_rcParity (site a n : Nat) (found : List Cell) : Within [.ctl, .core, .dumpRun, .freeCtr] (rcParity site a n found) := by
  unfold rcParity
  repeat' first
    | with_reducible refine (within_coreEvent ..).wider ?_
    | with_reducible refine (within_setCore ..).wider ?_
    | with_reducible refine within_mapGetD fun _ => ?_
    | with_reducible apply within_seq_cons
    | with_reducible exact within_seq_nil
    | with_reducible refine within_look fun _ => ?_
    | with_reducible refine within_each fun _ => ?_
    | with_reducible refine within_act ?_
    | rfl

theorem within_rcUpdate (site a : Nat) (bs : List Byte) : Within [.core] (rcUpdate site a bs) := by
  unfold rcUpdate
  repeat' first
    | with_reducible refine (within_setCore ..).wider ?_
    | with_reducible refine within_ite ?_ ?_
    | rfl

/-! ## Fabric -/

theorem within_movePacket (i : Nat) (q : Option Packet) : Within [.packets] (movePacket i q) := by
  unfold movePacket
  repeat' first
    | with_reducible refine within_one ?_
    | with_reducible refine within_look fun _ => ?_
    | rfl

theorem within_setPacket (i : Nat) (q : Packet) : Within [.packets] (setPacket i q) := by
  unfold setPacket
  repeat' first
    | with_reducible refine within_one ?_
    | with_reducible refine within_look fun _ => ?_
    | rfl

theorem within_grantActs (q : Packet) (p : Nat) : Within [.ctl, .lastGrant] (grantActs q p) := by
  unfold grantActs
  repeat' first
    | with_reducible exact within_nop
    | with_reducible refine (within_count ..).wider ?_
    | with_reducible refine within_one ?_
    | with_reducible apply within_seq_cons
    | with_reducible exact within_seq_nil
    | with_reducible refine within_act ?_
    | rfl
    | split

theorem within_actRouterForward (i : Nat) : Within [.ctl, .packets, .lastGrant] (actRouterForward i) := by
  unfold actRouterForward
  repeat' first
    | with_reducible exact within_nop
    | with_reducible refine (within_grantActs ..).wider ?_
    | with_reducible refine (within_movePacket ..).wider ?_
    | with_reducible refine within_one ?_
    | with_reducible apply within_seq_cons
    | with_reducible exact within_seq_nil
    | with_reducible refine within_look fun _ => ?_
    | with_reducible refine within_act ?_
    | with_reducible refine within_ite ?_ ?_
    | rfl
    | split

theorem within_actAgeIncrement (i : Nat) : Within [.packets] (actAgeIncrement i) := by
  unfold actAgeIncrement
  repeat' first
    | with_reducible exact within_nop
    | with_reducible refine (within_setPacket ..).wider ?_
    | with_reducible refine within_one ?_
    | with_reducible refine within_look fun _ => ?_
    | with_reducible refine within_act ?_
    | rfl
    | split

theorem within_answerFenced (q : Packet) : Within [.packets] (answerFenced q) := by
  unfold answerFenced
  repeat' first
    | with_reducible refine within_one ?_
    | with_reducible refine within_look fun _ => ?_
    | rfl

theorem within_serveMov (q : Packet) (ch : Fin 2) (w : Nat) (data : Option (BitVec 256)) (found : Cell) : Within [.ctl, .store, .storeBad, .packets, .dumpRun, .freeCtr] (serveMov q ch w data found) := by
  unfold serveMov
  repeat' first
    | with_reducible exact within_nop
    | with_reducible refine (within_sendMov ..).wider ?_
    | with_reducible refine (within_stCount ..).wider ?_
    | with_reducible refine (within_stFound ..).wider ?_
    | with_reducible refine (within_stPut ..).wider ?_
    | with_reducible refine within_one ?_
    | with_reducible apply within_seq_cons
    | with_reducible exact within_seq_nil
    | with_reducible refine within_look fun _ => ?_
    | with_reducible refine within_ite ?_ ?_
    | rfl
    | split

theorem within_deliver (q : Packet) : Within [.ctl, .store, .storeBad, .core, .packets, .dumpRun, .freeCtr] (deliver q) := by
  unfold deliver
  repeat' first
    | with_reducible refine (within_serveMov ..).wider ?_
    | with_reducible refine (within_setCore ..).wider ?_
    | with_reducible refine within_ite ?_ ?_
    | rfl
    | split

theorem within_actLocalPortArrive (i : Nat) : Within [.ctl, .store, .storeBad, .core, .packets, .dumpRun, .freeCtr] (actLocalPortArrive i) := by
  unfold actLocalPortArrive
  repeat' first
    | with_reducible exact within_nop
    | with_reducible refine (within_answerFenced ..).wider ?_
    | with_reducible refine (within_count ..).wider ?_
    | with_reducible refine (within_deliver ..).wider ?_
    | with_reducible refine (within_movePacket ..).wider ?_
    | with_reducible refine (within_raise ..).wider ?_
    | with_reducible refine within_one ?_
    | with_reducible apply within_seq_cons
    | with_reducible exact within_seq_nil
    | with_reducible refine within_look fun _ => ?_
    | with_reducible refine within_act ?_
    | with_reducible refine within_ite ?_ ?_
    | rfl
    | split

theorem within_actBulkOpen (n : Nat) : Within [.bulkOpen] (actBulkOpen n) := by
  unfold actBulkOpen
  repeat' first
    | with_reducible exact within_nop
    | with_reducible refine within_one ?_
    | with_reducible refine within_look fun _ => ?_
    | with_reducible refine within_ite ?_ ?_
    | rfl

theorem within_actBulkClose (n : Nat) : Within [.bulkOpen] (actBulkClose n) := by
  unfold actBulkClose
  repeat' first
    | with_reducible refine within_one ?_
    | with_reducible refine within_look fun _ => ?_
    | rfl

theorem within_bulkWrite (a : Nat) (v : Word) : Within [.ctl, .bulkPend] (bulkWrite a v) := by
  unfold bulkWrite
  repeat' first
    | with_reducible refine (within_wr ..).wider ?_
    | with_reducible refine within_one ?_
    | with_reducible apply within_seq_cons
    | with_reducible exact within_seq_nil
    | with_reducible refine within_look fun _ => ?_
    | with_reducible refine within_act ?_
    | with_reducible refine within_ite ?_ ?_
    | rfl

theorem within_bulkBoundary  : Within [.bulkOpen, .bulkPend] (bulkBoundary) := by
  unfold bulkBoundary
  repeat' first
    | with_reducible refine within_one ?_
    | with_reducible apply within_seq_cons
    | with_reducible exact within_seq_nil
    | rfl

theorem within_writeDetours (dead : List Nat) : Within [.ctl] (writeDetours dead) := by
  unfold writeDetours
  repeat' first
    | with_reducible refine (within_wr ..).wider ?_
    | with_reducible refine within_each fun _ => ?_
    | rfl

theorem within_detourWrite (r : Requester) (c n : Nat) (v : Word) : Within [.ctl, .dumpRun, .freeCtr] (detourWrite r c n v) := by
  unfold detourWrite
  repeat' first
    | with_reducible refine (within_protocolAt ..).wider ?_
    | with_reducible refine (within_wr ..).wider ?_
    | with_reducible refine within_look fun _ => ?_
    | with_reducible refine within_ite ?_ ?_
    | rfl

theorem within_quiesceWrite (v : Word) : Within [.ctl] (quiesceWrite v) := by
  unfold quiesceWrite
  repeat' first
    | with_reducible refine (within_wr ..).wider ?_
    | with_reducible refine (within_wrBit ..).wider ?_
    | with_reducible apply within_seq_cons
    | with_reducible exact within_seq_nil
    | with_reducible refine within_act ?_
    | rfl

theorem within_withdrawSite (c : Nat) : Within [.withdrawn] (withdrawSite c) := by
  unfold withdrawSite
  repeat' first
    | with_reducible refine within_one ?_
    | with_reducible refine within_look fun _ => ?_
    | with_reducible refine within_act ?_
    | rfl

theorem within_withdrawRouter (c : Nat) : Within [.withdrawn, .ctl] (withdrawRouter c) := by
  unfold withdrawRouter
  repeat' first
    | with_reducible refine (within_count ..).wider ?_
    | with_reducible refine (within_withdrawSite ..).wider ?_
    | with_reducible apply within_seq_cons
    | with_reducible exact within_seq_nil
    | rfl

theorem within_routeAround  : Within [.ctl, .mesh] (routeAround) := by
  unfold routeAround
  repeat' first
    | with_reducible refine (within_wrBit ..).wider ?_
    | with_reducible refine (within_writeDetours ..).wider ?_
    | with_reducible refine within_one ?_
    | with_reducible apply within_seq_cons
    | with_reducible exact within_seq_nil
    | with_reducible refine within_look fun _ => ?_
    | with_reducible refine within_ite ?_ ?_
    | rfl

theorem within_withdrawRouters  : Within [.withdrawn, .ctl, .mesh] (withdrawRouters) := by
  unfold withdrawRouters
  repeat' first
    | with_reducible refine (within_routeAround ..).wider ?_
    | with_reducible refine (within_withdrawRouter ..).wider ?_
    | with_reducible refine (within_wrBit ..).wider ?_
    | with_reducible apply within_seq_cons
    | with_reducible exact within_seq_nil
    | with_reducible refine within_look fun _ => ?_
    | with_reducible refine within_each fun _ => ?_
    | rfl

theorem within_actMeshQuiesced  : Within [.withdrawn, .ctl, .mesh] (actMeshQuiesced) := by
  unfold actMeshQuiesced
  repeat' first
    | with_reducible exact within_nop
    | with_reducible refine (within_quiesceWrite ..).wider ?_
    | with_reducible refine (within_withdrawRouters ..).wider ?_
    | with_reducible refine (within_wrBit ..).wider ?_
    | with_reducible apply within_seq_cons
    | with_reducible exact within_seq_nil
    | with_reducible refine within_look fun _ => ?_
    | with_reducible refine within_act ?_
    | with_reducible refine within_ite ?_ ?_
    | rfl

theorem within_actRouterFault (c : Nat) : Within [.ctl, .core, .packets, .herd, .bx, .hcmd, .htag, .notices, .dumpRun, .freeCtr, .out] (actRouterFault c) := by
  unfold actRouterFault
  repeat' first
    | with_reducible exact within_nop
    | with_reducible refine (within_failAll ..).wider ?_
    | with_reducible refine (within_raise ..).wider ?_
    | with_reducible refine (within_wr ..).wider ?_
    | with_reducible refine (within_wrBit ..).wider ?_
    | with_reducible refine within_one ?_
    | with_reducible apply within_seq_cons
    | with_reducible exact within_seq_nil
    | with_reducible refine within_look fun _ => ?_
    | with_reducible refine within_ite ?_ ?_
    | rfl

theorem within_writeDistances  : Within [.mesh] (writeDistances) := by
  unfold writeDistances
  repeat' first
    | with_reducible refine within_one ?_
    | with_reducible refine within_look fun _ => ?_
    | rfl

theorem within_rewriteDistances  : Within [.ctl, .mesh] (rewriteDistances) := by
  unfold rewriteDistances
  repeat' first
    | with_reducible refine (within_wr ..).wider ?_
    | with_reducible refine (within_writeDistances ..).wider ?_
    | with_reducible apply within_seq_cons
    | with_reducible exact within_seq_nil
    | with_reducible refine within_look fun _ => ?_
    | with_reducible refine within_ite ?_ ?_
    | rfl

theorem within_actDistRewrite (done : Bool) : Within [.ctl, .mesh] (actDistRewrite done) := by
  unfold actDistRewrite
  repeat' first
    | with_reducible refine (within_wr ..).wider ?_
    | with_reducible refine (within_writeDistances ..).wider ?_
    | with_reducible refine within_one ?_
    | with_reducible apply within_seq_cons
    | with_reducible exact within_seq_nil
    | with_reducible refine within_look fun _ => ?_
    | with_reducible refine within_act ?_
    | rfl

theorem within_actCoreFence (c : Nat) : Within [.ctl, .core, .herd, .bx, .hcmd, .htag, .notices, .out] (actCoreFence c) := by
  unfold actCoreFence
  repeat' first
    | with_reducible exact within_nop
    | with_reducible refine (within_failHerd ..).wider ?_
    | with_reducible refine (within_setCore ..).wider ?_
    | with_reducible refine (within_wrBit ..).wider ?_
    | with_reducible refine within_mapGetD fun _ => ?_
    | with_reducible refine within_one ?_
    | with_reducible apply within_seq_cons
    | with_reducible exact within_seq_nil
    | with_reducible refine within_look fun _ => ?_
    | with_reducible refine within_act ?_
    | with_reducible refine within_ite ?_ ?_
    | rfl
    | split

theorem within_actFenceTimeout (c : Nat) : Within [.withdrawn, .ctl, .dumpRun, .freeCtr] (actFenceTimeout c) := by
  unfold actFenceTimeout
  repeat' first
    | with_reducible exact within_nop
    | with_reducible refine (within_raise ..).wider ?_
    | with_reducible refine (within_withdrawSite ..).wider ?_
    | with_reducible refine (within_wrBit ..).wider ?_
    | with_reducible refine within_mapGetD fun _ => ?_
    | with_reducible apply within_seq_cons
    | with_reducible exact within_seq_nil
    | with_reducible refine within_look fun _ => ?_
    | with_reducible refine within_ite ?_ ?_
    | rfl

theorem within_actCoreHardFault (c : Nat) : Within [.withdrawn, .ctl, .core, .herd, .bx, .hcmd, .htag, .notices, .out] (actCoreHardFault c) := by
  unfold actCoreHardFault
  repeat' first
    | with_reducible refine (within_actCoreFence ..).wider ?_
    | with_reducible refine (within_withdrawSite ..).wider ?_
    | with_reducible apply within_seq_cons
    | with_reducible exact within_seq_nil
    | with_reducible refine within_look fun _ => ?_
    | with_reducible refine within_act ?_
    | rfl

end Sys2Proof.Machine
end

