-- ==== Sys2Proof/Laws/FrameCore.lean ====
section
/-! SUPPORT. The fields that each act can change: the tile, cube and vector units, the scale table and the capture cut. One lemma for an act; no proof about frames needs to unfold it again. -/

namespace Sys2Proof.Machine

/-! ## Tile -/

theorem within_putGroup (site : Nat) (d : DWord) (g v : Nat) : Within [.vreg] (putGroup site d g v) := by
  unfold putGroup
  repeat' first
    | with_reducible refine (within_vPut ..).wider ?_
    | with_reducible refine within_each fun _ => ?_
    | rfl

theorem within_putScale (site : Nat) (d : DWord) (k v : Nat) : Within [.vreg] (putScale site d k v) := by
  unfold putScale
  repeat' first
    | with_reducible refine (within_vPut ..).wider ?_
    | with_reducible refine within_look fun _ => ?_
    | rfl

theorem within_zeroRegs (site : Nat) (rs : List Nat) : Within [.vreg] (zeroRegs site rs) := by
  unfold zeroRegs
  repeat' first
    | with_reducible refine (within_vPut ..).wider ?_
    | with_reducible refine within_each fun _ => ?_
    | rfl

theorem within_actTld (site : Nat) : Within [.vreg, .core] (actTld site) := by
  unfold actTld
  repeat' first
    | with_reducible exact within_nop
    | with_reducible refine (within_setIssued ..).wider ?_
    | with_reducible refine (within_zeroRegs ..).wider ?_
    | with_reducible refine within_one ?_
    | with_reducible apply within_seq_cons
    | with_reducible exact within_seq_nil
    | with_reducible refine within_look fun _ => ?_
    | rfl
    | split

theorem within_actTst (site : Nat) : Within [.core] (actTst site) := by
  unfold actTst
  repeat' first
    | with_reducible exact within_nop
    | with_reducible refine (within_setIssued ..).wider ?_
    | with_reducible refine within_one ?_
    | with_reducible refine within_look fun _ => ?_
    | rfl
    | split

theorem within_tileFault (site : Nat) (i : Issued) (cause : Nat) : Within [.ctl, .core, .packets, .herd, .dumpRun, .freeCtr, .out] (tileFault site i cause) := by
  unfold tileFault
  repeat' first
    | with_reducible refine (within_insnFault ..).wider ?_
    | with_reducible refine (within_wr ..).wider ?_
    | with_reducible apply within_seq_cons
    | with_reducible exact within_seq_nil
    | with_reducible refine within_look fun _ => ?_
    | with_reducible refine within_act ?_
    | rfl

theorem within_tileNext (site : Nat) (i : Issued) : Within [.ctl, .core] (tileNext site i) := by
  unfold tileNext
  repeat' first
    | with_reducible refine (within_retire ..).wider ?_
    | with_reducible refine (within_setIssued ..).wider ?_
    | with_reducible refine (within_wrBit ..).wider ?_
    | with_reducible apply within_seq_cons
    | with_reducible exact within_seq_nil
    | with_reducible refine within_act ?_
    | with_reducible refine within_ite ?_ ?_
    | rfl

theorem within_rowIn (site : Nat) (d : DWord) (i : Nat) (bs : List Byte) : Within [.vreg] (rowIn site d i bs) := by
  unfold rowIn
  repeat' first
    | with_reducible refine (within_putGroup ..).wider ?_
    | with_reducible refine (within_putScale ..).wider ?_
    | with_reducible refine within_mapGetD fun _ => ?_
    | with_reducible apply within_seq_cons
    | with_reducible exact within_seq_nil
    | with_reducible refine within_look fun _ => ?_
    | with_reducible refine within_each fun _ => ?_
    | rfl

theorem within_loadRow (site : Nat) (i : Issued) (found : List Cell) : Within [.ctl, .storeBad, .vreg, .core, .mem, .chk, .packets, .herd, .touched, .mergeBuf, .dumpRun, .freeCtr, .out] (loadRow site i found) := by
  unfold loadRow
  repeat' first
    | with_reducible exact within_nop
    | with_reducible refine (within_count ..).wider ?_
    | with_reducible refine (within_rcParity ..).wider ?_
    | with_reducible refine (within_rcReadActs ..).wider ?_
    | with_reducible refine (within_rowIn ..).wider ?_
    | with_reducible refine (within_stCount ..).wider ?_
    | with_reducible refine (within_stFoundAll ..).wider ?_
    | with_reducible refine (within_tileFault ..).wider ?_
    | with_reducible refine (within_tileNext ..).wider ?_
    | with_reducible apply within_seq_cons
    | with_reducible exact within_seq_nil
    | with_reducible refine within_look fun _ => ?_
    | with_reducible refine within_ite ?_ ?_
    | rfl
    | split

theorem within_elemWrite (a : Nat) (bs : List Byte) (herd : Nat) (mask : Option Byte) : Within [.ctl, .mem, .chk, .mergeBuf, .dumpRun, .freeCtr] (elemWrite a bs herd mask) := by
  unfold elemWrite
  repeat' first
    | with_reducible exact within_nop
    | with_reducible refine (within_devWrite ..).wider ?_
    | with_reducible refine (within_portMerge ..).wider ?_
    | with_reducible refine within_one ?_
    | with_reducible refine within_each fun _ => ?_
    | with_reducible refine within_ite ?_ ?_
    | rfl
    | split

theorem within_tstWrite (h a : Nat) (bs : List Byte) (mask : Option Byte) (served : Bool) : Within [.ctl, .mem, .chk, .farMem, .touched, .mergeBuf, .dumpRun, .freeCtr, .out] (tstWrite h a bs mask served) := by
  unfold tstWrite
  repeat' first
    | with_reducible exact within_nop
    | with_reducible refine (within_elemWrite ..).wider ?_
    | with_reducible refine (within_entryRead ..).wider ?_
    | with_reducible refine (within_farRequest ..).wider ?_
    | with_reducible refine (within_touch ..).wider ?_
    | with_reducible refine (within_urWrite ..).wider ?_
    | with_reducible refine within_one ?_
    | with_reducible apply within_seq_cons
    | with_reducible exact within_seq_nil
    | with_reducible refine within_look fun _ => ?_
    | with_reducible refine within_each fun _ => ?_
    | with_reducible refine within_ite ?_ ?_
    | rfl
    | split

theorem within_tstRefusedActs (h a n : Nat) : Within [.ctl, .mem, .chk, .touched, .mergeBuf, .dumpRun, .freeCtr] (tstRefusedActs h a n) := by
  unfold tstRefusedActs
  repeat' first
    | with_reducible refine (within_judgeActs ..).wider ?_
    | with_reducible refine within_look fun _ => ?_
    | with_reducible refine within_each fun _ => ?_
    | rfl

theorem within_storeRow (site : Nat) (i : Issued) (found : List Cell) : Within [.ctl, .store, .storeBad, .core, .mem, .chk, .farMem, .packets, .herd, .touched, .mergeBuf, .dumpRun, .freeCtr, .out] (storeRow site i found) := by
  unfold storeRow
  repeat' first
    | with_reducible exact within_nop
    | with_reducible refine (within_count ..).wider ?_
    | with_reducible refine (within_rcUpdate ..).wider ?_
    | with_reducible refine (within_stCount ..).wider ?_
    | with_reducible refine (within_stFoundAll ..).wider ?_
    | with_reducible refine (within_stWrite ..).wider ?_
    | with_reducible refine (within_tileFault ..).wider ?_
    | with_reducible refine (within_tileNext ..).wider ?_
    | with_reducible refine (within_tstRefusedActs ..).wider ?_
    | with_reducible refine (within_tstWrite ..).wider ?_
    | with_reducible refine within_mapGetD fun _ => ?_
    | with_reducible refine within_one ?_
    | with_reducible apply within_seq_cons
    | with_reducible exact within_seq_nil
    | with_reducible refine within_look fun _ => ?_
    | with_reducible refine within_act ?_
    | with_reducible refine within_ite ?_ ?_
    | rfl
    | split

theorem within_actTileRow (site : Nat) (found : List Cell) : Within [.ctl, .store, .storeBad, .vreg, .core, .mem, .chk, .farMem, .packets, .herd, .touched, .mergeBuf, .dumpRun, .freeCtr, .out] (actTileRow site found) := by
  unfold actTileRow
  repeat' first
    | with_reducible exact within_nop
    | with_reducible refine (within_loadRow ..).wider ?_
    | with_reducible refine (within_storeRow ..).wider ?_
    | with_reducible refine within_one ?_
    | with_reducible refine within_look fun _ => ?_
    | with_reducible refine within_ite ?_ ?_
    | rfl
    | split

theorem within_actVld (site : Nat) : Within [.core] (actVld site) := by
  unfold actVld
  repeat' first
    | with_reducible exact within_nop
    | with_reducible refine (within_setIssued ..).wider ?_
    | with_reducible refine within_one ?_
    | with_reducible refine within_look fun _ => ?_
    | rfl
    | split

theorem within_actVst (site : Nat) : Within [.core] (actVst site) := by
  unfold actVst
  repeat' first
    | with_reducible exact within_nop
    | with_reducible refine (within_setIssued ..).wider ?_
    | with_reducible refine within_one ?_
    | with_reducible refine within_look fun _ => ?_
    | rfl
    | split

theorem within_actVectorAccessComplete (site k : Nat) (found : List Cell) : Within [.ctl, .store, .storeBad, .vreg, .core, .mem, .chk, .farMem, .packets, .herd, .touched, .mergeBuf, .dumpRun, .freeCtr, .out] (actVectorAccessComplete site k found) := by
  unfold actVectorAccessComplete
  repeat' first
    | with_reducible exact within_nop
    | with_reducible refine (within_insnFault ..).wider ?_
    | with_reducible refine (within_rcParity ..).wider ?_
    | with_reducible refine (within_rcReadActs ..).wider ?_
    | with_reducible refine (within_rcUpdate ..).wider ?_
    | with_reducible refine (within_retire ..).wider ?_
    | with_reducible refine (within_stCount ..).wider ?_
    | with_reducible refine (within_stFoundAll ..).wider ?_
    | with_reducible refine (within_stWrite ..).wider ?_
    | with_reducible refine (within_urRefusedActs ..).wider ?_
    | with_reducible refine (within_urWrite ..).wider ?_
    | with_reducible refine (within_vPut ..).wider ?_
    | with_reducible refine within_one ?_
    | with_reducible apply within_seq_cons
    | with_reducible exact within_seq_nil
    | with_reducible refine within_look fun _ => ?_
    | with_reducible refine within_ite ?_ ?_
    | rfl
    | split

theorem within_actRowCacheFill (site l : Nat) : Within [.ctl, .core, .mem, .chk, .touched, .mergeBuf, .dumpRun, .freeCtr, .out] (actRowCacheFill site l) := by
  unfold actRowCacheFill
  repeat' first
    | with_reducible refine (within_rcFill ..).wider ?_
    | with_reducible refine within_look fun _ => ?_
    | with_reducible refine within_act ?_
    | with_reducible refine within_ite ?_ ?_
    | rfl

theorem within_tcWrite (r : Requester) (site n : Nat) (lo hi : Option Word) : Within [.ctl, .core, .dumpRun, .freeCtr] (tcWrite r site n lo hi) := by
  unfold tcWrite
  repeat' first
    | with_reducible refine (within_protocolAt ..).wider ?_
    | with_reducible refine (within_setCore ..).wider ?_
    | with_reducible refine (within_wr64 ..).wider ?_
    | with_reducible refine (within_wrBit ..).wider ?_
    | with_reducible refine within_mapGetD fun _ => ?_
    | with_reducible apply within_seq_cons
    | with_reducible exact within_seq_nil
    | with_reducible refine within_look fun _ => ?_
    | with_reducible refine within_ite ?_ ?_
    | rfl

theorem within_actTcPendingStore (site n : Nat) : Within [.ctl, .core] (actTcPendingStore site n) := by
  unfold actTcPendingStore
  repeat' first
    | with_reducible exact within_nop
    | with_reducible refine (within_count ..).wider ?_
    | with_reducible refine (within_setCore ..).wider ?_
    | with_reducible refine (within_wr64 ..).wider ?_
    | with_reducible refine (within_wrBit ..).wider ?_
    | with_reducible refine within_one ?_
    | with_reducible apply within_seq_cons
    | with_reducible exact within_seq_nil
    | with_reducible refine within_look fun _ => ?_
    | with_reducible refine within_act ?_
    | rfl
    | split

/-! ## Cube -/

theorem within_enterStep (site : Nat) (j : CubeJob) (dwq : Bool) : Within [.ctl, .core] (enterStep site j dwq) := by
  unfold enterStep
  repeat' first
    | with_reducible refine (within_count ..).wider ?_
    | with_reducible refine (within_setCore ..).wider ?_
    | with_reducible apply within_seq_cons
    | with_reducible exact within_seq_nil
    | with_reducible refine within_look fun _ => ?_
    | with_reducible refine within_each fun _ => ?_
    | with_reducible refine within_act ?_
    | rfl

theorem within_setFlip (site b e v : Nat) : Within [.core] (setFlip site b e v) := by
  unfold setFlip
  repeat' first
    | with_reducible refine (within_setCore ..).wider ?_
    | rfl

theorem within_abFound (site b e : Nat) : Within [.ctl, .acc, .core, .dumpRun, .freeCtr] (abFound site b e) := by
  unfold abFound
  repeat' first
    | with_reducible exact within_nop
    | with_reducible refine (within_accPut ..).wider ?_
    | with_reducible refine (within_coreEvent ..).wider ?_
    | with_reducible refine (within_count ..).wider ?_
    | with_reducible refine (within_raise ..).wider ?_
    | with_reducible refine (within_setFlip ..).wider ?_
    | with_reducible refine (within_setIst ..).wider ?_
    | with_reducible refine (within_wrBit ..).wider ?_
    | with_reducible apply within_seq_cons
    | with_reducible exact within_seq_nil
    | with_reducible refine within_look fun _ => ?_
    | with_reducible refine within_ite ?_ ?_
    | rfl

theorem within_accumulateOne (site : Nat) (st : CubeStep) (p : Nat × Exact) : Within [.ctl, .acc, .core, .dumpRun, .freeCtr] (accumulateOne site st p) := by
  unfold accumulateOne
  repeat' first
    | with_reducible exact within_nop
    | with_reducible refine (within_abFound ..).wider ?_
    | with_reducible refine (within_accPut ..).wider ?_
    | with_reducible refine (within_setFlip ..).wider ?_
    | with_reducible refine (within_wrBit ..).wider ?_
    | with_reducible refine within_one ?_
    | with_reducible apply within_seq_cons
    | with_reducible exact within_seq_nil
    | with_reducible refine within_look fun _ => ?_
    | with_reducible refine within_act ?_
    | with_reducible refine within_ite ?_ ?_
    | rfl
    | split

theorem within_actCubeAccumulate (site : Nat) : Within [.ctl, .acc, .core, .dumpRun, .freeCtr] (actCubeAccumulate site) := by
  unfold actCubeAccumulate
  repeat' first
    | with_reducible exact within_nop
    | with_reducible refine (within_accPut ..).wider ?_
    | with_reducible refine (within_accumulateOne ..).wider ?_
    | with_reducible refine (within_setCore ..).wider ?_
    | with_reducible refine (within_setFlip ..).wider ?_
    | with_reducible apply within_seq_cons
    | with_reducible exact within_seq_nil
    | with_reducible refine within_look fun _ => ?_
    | with_reducible refine within_each fun _ => ?_
    | with_reducible refine within_act ?_
    | rfl
    | split

theorem within_cubeInjWrite (r : Requester) (site : Nat) (v : Word) : Within [.ctl, .dumpRun, .freeCtr] (cubeInjWrite r site v) := by
  unfold cubeInjWrite
  repeat' first
    | with_reducible refine (within_maskWrite ..).wider ?_
    | with_reducible refine (within_protocolAt ..).wider ?_
    | with_reducible refine within_look fun _ => ?_
    | with_reducible refine within_ite ?_ ?_
    | rfl

theorem within_enterArray (site : Nat) (i : Issued) : Within [.core] (enterArray site i) := by
  unfold enterArray
  repeat' first
    | with_reducible exact within_nop
    | with_reducible refine (within_setCore ..).wider ?_
    | with_reducible refine (within_setIssued ..).wider ?_
    | with_reducible apply within_seq_cons
    | with_reducible exact within_seq_nil
    | with_reducible refine within_look fun _ => ?_
    | with_reducible refine within_ite ?_ ?_
    | rfl

theorem within_actCmm (site op : Nat) : Within [.core] (actCmm site op) := by
  unfold actCmm
  repeat' first
    | with_reducible exact within_nop
    | with_reducible refine (within_enterArray ..).wider ?_
    | with_reducible refine within_one ?_
    | with_reducible refine within_look fun _ => ?_
    | rfl
    | split

theorem within_actCmmW (site : Nat) : Within [.core] (actCmmW site) := by
  unfold actCmmW
  repeat' first
    | with_reducible exact within_nop
    | with_reducible refine (within_enterArray ..).wider ?_
    | with_reducible refine (within_retire ..).wider ?_
    | with_reducible refine (within_setIssued ..).wider ?_
    | with_reducible refine within_one ?_
    | with_reducible refine within_look fun _ => ?_
    | with_reducible refine within_act ?_
    | with_reducible refine within_ite ?_ ?_
    | rfl
    | split

theorem within_actMaskEvaluate (site : Nat) (found : List Cell) : Within [.ctl, .storeBad, .core, .packets, .herd, .dumpRun, .freeCtr, .out] (actMaskEvaluate site found) := by
  unfold actMaskEvaluate
  repeat' first
    | with_reducible exact within_nop
    | with_reducible refine (within_insnFault ..).wider ?_
    | with_reducible refine (within_setIssued ..).wider ?_
    | with_reducible refine (within_stCount ..).wider ?_
    | with_reducible refine (within_stFoundAll ..).wider ?_
    | with_reducible refine within_one ?_
    | with_reducible apply within_seq_cons
    | with_reducible exact within_seq_nil
    | with_reducible refine within_look fun _ => ?_
    | with_reducible refine within_ite ?_ ?_
    | rfl
    | split

theorem within_actDwqEnqueue (site : Nat) : Within [.core] (actDwqEnqueue site) := by
  unfold actDwqEnqueue
  repeat' first
    | with_reducible exact within_nop
    | with_reducible refine (within_retire ..).wider ?_
    | with_reducible refine (within_setCore ..).wider ?_
    | with_reducible refine within_one ?_
    | with_reducible refine within_look fun _ => ?_
    | with_reducible refine within_ite ?_ ?_
    | rfl
    | split
    | dsimp only

theorem within_abandonDwq (site : Nat) : Within [.core] (abandonDwq site) := by
  unfold abandonDwq
  repeat' first
    | with_reducible refine (within_retire ..).wider ?_
    | with_reducible refine (within_setCore ..).wider ?_
    | with_reducible refine within_one ?_
    | with_reducible apply within_seq_cons
    | with_reducible exact within_seq_nil
    | with_reducible refine within_look fun _ => ?_
    | with_reducible refine within_each fun _ => ?_
    | rfl

/-! ## Vu -/

theorem within_nfReport (site : Nat) : Within [.ctl, .herd] (nfReport site) := by
  unfold nfReport
  repeat' first
    | with_reducible exact within_nop
    | with_reducible refine (within_setHerd ..).wider ?_
    | with_reducible refine (within_setIst ..).wider ?_
    | with_reducible refine (within_wrBit ..).wider ?_
    | with_reducible refine within_one ?_
    | with_reducible apply within_seq_cons
    | with_reducible exact within_seq_nil
    | with_reducible refine within_look fun _ => ?_
    | with_reducible refine within_ite ?_ ?_
    | rfl
    | split

theorem within_readSource (site v : Nat) : Within [.ctl, .acc, .core, .herd, .dumpRun, .freeCtr] (readSource site v) := by
  unfold readSource
  repeat' first
    | with_reducible refine (within_abFound ..).wider ?_
    | with_reducible refine (within_nfReport ..).wider ?_
    | with_reducible apply within_seq_cons
    | with_reducible exact within_seq_nil
    | with_reducible refine within_look fun _ => ?_
    | with_reducible refine within_each fun _ => ?_
    | with_reducible refine within_act ?_
    | rfl

theorem within_oweScaled (site : Nat) (i : Issued) (rs : List (Nat × BitVec 512)) (scales : Nat → List (Nat × Byte)) : Within [.core] (oweScaled site i rs scales) := by
  unfold oweScaled
  repeat' first
    | with_reducible refine (within_setCore ..).wider ?_
    | with_reducible refine (within_setIssued ..).wider ?_
    | with_reducible refine within_one ?_
    | with_reducible apply within_seq_cons
    | with_reducible exact within_seq_nil
    | rfl

theorem within_oweRegs (site : Nat) (i : Issued) (rs : List (Nat × BitVec 512)) : Within [.core] (oweRegs site i rs) := by
  unfold oweRegs
  repeat' first
    | with_reducible refine (within_oweScaled ..).wider ?_
    | rfl

theorem within_oweLanes (site : Nat) (i : Issued) (lanes : List Word) : Within [.core] (oweLanes site i lanes) := by
  unfold oweLanes
  repeat' first
    | with_reducible refine (within_oweRegs ..).wider ?_
    | rfl

theorem within_actVuResultWrite (site : Nat) : Within [.ctl, .vreg, .core] (actVuResultWrite site) := by
  unfold actVuResultWrite
  repeat' first
    | with_reducible exact within_nop
    | with_reducible refine (within_retire ..).wider ?_
    | with_reducible refine (within_setCore ..).wider ?_
    | with_reducible refine (within_vPut ..).wider ?_
    | with_reducible refine (within_wr ..).wider ?_
    | with_reducible refine within_one ?_
    | with_reducible apply within_seq_cons
    | with_reducible exact within_seq_nil
    | with_reducible refine within_look fun _ => ?_
    | with_reducible refine within_each fun _ => ?_
    | with_reducible refine within_act ?_
    | rfl
    | split

theorem within_vuOp {ps : List Part} (hps : covers ps [.ctl, .acc, .core, .herd, .dumpRun, .freeCtr] = true) {site : Nat} {op : Nat} {reads : Word → List Nat} {body : Issued → Act} (hbody : ∀ x0, Within ps (body x0)) : Within ps (vuOp site op reads body) := by
  unfold vuOp
  repeat' first
    | with_reducible exact within_nop
    | with_reducible exact hbody _
    | with_reducible exact (((within_readSource ..).wider (ps := [.ctl, .acc, .core, .herd, .dumpRun, .freeCtr]) rfl)).wider hps
    | with_reducible refine within_one (covers_mem hps ?_)
    | with_reducible apply within_seq_cons
    | with_reducible exact within_seq_nil
    | with_reducible refine within_look fun _ => ?_
    | with_reducible refine within_each fun _ => ?_
    | with_reducible refine within_ite ?_ ?_
    | rfl
    | split

theorem within_actArith (site op : Nat) (f : Word → Word → Word → Word) : Within [.ctl, .acc, .core, .herd, .dumpRun, .freeCtr] (actArith site op f) := by
  unfold actArith
  repeat' first
    | with_reducible refine (within_oweLanes ..).wider ?_
    | with_reducible refine within_vuOp rfl (fun _ => ?_)
    | with_reducible refine within_look fun _ => ?_
    | rfl

theorem within_actFn (site : Nat) : Within [.ctl, .acc, .core, .herd, .dumpRun, .freeCtr] (actFn site) := by
  unfold actFn
  repeat' first
    | with_reducible refine (within_oweLanes ..).wider ?_
    | with_reducible refine within_vuOp rfl (fun _ => ?_)
    | with_reducible refine within_look fun _ => ?_
    | rfl

theorem within_actFnd (site : Nat) : Within [.ctl, .acc, .core, .herd, .dumpRun, .freeCtr] (actFnd site) := by
  unfold actFnd
  repeat' first
    | with_reducible refine (within_oweLanes ..).wider ?_
    | with_reducible refine within_vuOp rfl (fun _ => ?_)
    | with_reducible refine within_look fun _ => ?_
    | rfl

theorem within_actRed (site : Nat) : Within [.ctl, .acc, .core, .herd, .dumpRun, .freeCtr] (actRed site) := by
  unfold actRed
  repeat' first
    | with_reducible refine (within_setCore ..).wider ?_
    | with_reducible refine (within_setIssued ..).wider ?_
    | with_reducible refine within_vuOp rfl (fun _ => ?_)
    | with_reducible refine within_one ?_
    | with_reducible apply within_seq_cons
    | with_reducible exact within_seq_nil
    | with_reducible refine within_look fun _ => ?_
    | with_reducible refine within_ite ?_ ?_
    | rfl

theorem within_actRget (site : Nat) : Within [.ctl, .acc, .core, .herd, .dumpRun, .freeCtr] (actRget site) := by
  unfold actRget
  repeat' first
    | with_reducible refine (within_oweLanes ..).wider ?_
    | with_reducible refine within_vuOp rfl (fun _ => ?_)
    | with_reducible refine within_look fun _ => ?_
    | rfl

theorem within_countDraws (site n : Nat) (lanes : List Nat) : Within [.core] (countDraws site n lanes) := by
  unfold countDraws
  repeat' first
    | with_reducible refine (within_setCore ..).wider ?_
    | with_reducible refine within_look fun _ => ?_
    | with_reducible refine within_ite ?_ ?_
    | rfl

theorem within_actDmsk (site : Nat) : Within [.ctl, .acc, .core, .herd, .dumpRun, .freeCtr] (actDmsk site) := by
  unfold actDmsk
  repeat' first
    | with_reducible refine (within_countDraws ..).wider ?_
    | with_reducible refine (within_oweRegs ..).wider ?_
    | with_reducible refine within_vuOp rfl (fun _ => ?_)
    | with_reducible apply within_seq_cons
    | with_reducible exact within_seq_nil
    | with_reducible refine within_look fun _ => ?_
    | rfl

theorem within_actMsk (site : Nat) : Within [.ctl, .acc, .core, .herd, .dumpRun, .freeCtr] (actMsk site) := by
  unfold actMsk
  repeat' first
    | with_reducible refine (within_oweLanes ..).wider ?_
    | with_reducible refine within_vuOp rfl (fun _ => ?_)
    | with_reducible refine within_look fun _ => ?_
    | with_reducible refine within_ite ?_ ?_
    | rfl

theorem within_addFigures (site n : Nat) (f : Figures) (nf : Bool) : Within [.ctl, .core, .herd] (addFigures site n f nf) := by
  unfold addFigures
  repeat' first
    | with_reducible refine (within_nfReport ..).wider ?_
    | with_reducible refine (within_setCore ..).wider ?_
    | with_reducible apply within_seq_cons
    | with_reducible exact within_seq_nil
    | with_reducible refine within_look fun _ => ?_
    | with_reducible refine within_act ?_
    | rfl

theorem within_raiseFormat (site n : Nat) : Within [.ctl, .core, .dumpRun, .freeCtr] (raiseFormat site n) := by
  unfold raiseFormat
  repeat' first
    | with_reducible refine (within_coreEvent ..).wider ?_
    | with_reducible refine (within_setCore ..).wider ?_
    | with_reducible apply within_seq_cons
    | with_reducible exact within_seq_nil
    | with_reducible refine within_look fun _ => ?_
    | with_reducible refine within_act ?_
    | rfl

theorem within_setCursor (site n : Nat) (readC : Bool) (g k : Nat) : Within [.ctl] (setCursor site n readC g k) := by
  unfold setCursor
  repeat' first
    | with_reducible refine (within_wr ..).wider ?_
    | with_reducible refine within_ite ?_ ?_
    | rfl

theorem within_advanceCursor (site n : Nat) (readC : Bool) (width g k cols : Nat) : Within [.ctl] (advanceCursor site n readC width g k cols) := by
  unfold advanceCursor
  repeat' first
    | with_reducible refine (within_setCursor ..).wider ?_
    | with_reducible refine within_ite ?_ ?_
    | rfl

theorem within_actCvt (site : Nat) : Within [.ctl, .acc, .core, .herd, .dumpRun, .freeCtr] (actCvt site) := by
  unfold actCvt
  repeat' first
    | with_reducible refine (within_addFigures ..).wider ?_
    | with_reducible refine (within_advanceCursor ..).wider ?_
    | with_reducible refine (within_count ..).wider ?_
    | with_reducible refine (within_countDraws ..).wider ?_
    | with_reducible refine (within_oweScaled ..).wider ?_
    | with_reducible refine (within_raiseFormat ..).wider ?_
    | with_reducible refine (within_retire ..).wider ?_
    | with_reducible refine within_vuOp rfl (fun _ => ?_)
    | with_reducible apply within_seq_cons
    | with_reducible exact within_seq_nil
    | with_reducible refine within_look fun _ => ?_
    | with_reducible refine within_act ?_
    | with_reducible refine within_ite ?_ ?_
    | rfl

theorem within_actCvh (site : Nat) : Within [.ctl, .acc, .core, .herd, .dumpRun, .freeCtr] (actCvh site) := by
  unfold actCvh
  repeat' first
    | with_reducible refine (within_addFigures ..).wider ?_
    | with_reducible refine (within_count ..).wider ?_
    | with_reducible refine (within_countDraws ..).wider ?_
    | with_reducible refine (within_nfReport ..).wider ?_
    | with_reducible refine (within_oweRegs ..).wider ?_
    | with_reducible refine within_vuOp rfl (fun _ => ?_)
    | with_reducible refine within_mapGetD fun _ => ?_
    | with_reducible apply within_seq_cons
    | with_reducible exact within_seq_nil
    | with_reducible refine within_look fun _ => ?_
    | with_reducible refine within_act ?_
    | with_reducible refine within_ite ?_ ?_
    | rfl

theorem within_actDec (site : Nat) : Within [.ctl, .acc, .core, .herd, .dumpRun, .freeCtr] (actDec site) := by
  unfold actDec
  repeat' first
    | with_reducible refine (within_advanceCursor ..).wider ?_
    | with_reducible refine (within_oweRegs ..).wider ?_
    | with_reducible refine within_vuOp rfl (fun _ => ?_)
    | with_reducible apply within_seq_cons
    | with_reducible exact within_seq_nil
    | with_reducible refine within_look fun _ => ?_
    | with_reducible refine within_ite ?_ ?_
    | rfl

theorem within_actCur (site : Nat) : Within [.ctl, .acc, .core, .herd, .dumpRun, .freeCtr] (actCur site) := by
  unfold actCur
  repeat' first
    | with_reducible refine (within_retire ..).wider ?_
    | with_reducible refine (within_setCursor ..).wider ?_
    | with_reducible refine within_vuOp rfl (fun _ => ?_)
    | with_reducible apply within_seq_cons
    | with_reducible exact within_seq_nil
    | rfl

theorem within_actBsc (site : Nat) : Within [.ctl, .acc, .core, .herd, .dumpRun, .freeCtr] (actBsc site) := by
  unfold actBsc
  repeat' first
    | with_reducible refine (within_retire ..).wider ?_
    | with_reducible refine within_vuOp rfl (fun _ => ?_)
    | with_reducible refine (within_wrFld ..).wider ?_
    | with_reducible apply within_seq_cons
    | with_reducible exact within_seq_nil
    | rfl

theorem within_actTcw (site : Nat) : Within [.ctl, .acc, .core, .herd, .dumpRun, .freeCtr] (actTcw site) := by
  unfold actTcw
  repeat' first
    | with_reducible refine (within_retire ..).wider ?_
    | with_reducible refine within_vuOp rfl (fun _ => ?_)
    | with_reducible refine (within_wr64 ..).wider ?_
    | with_reducible apply within_seq_cons
    | with_reducible exact within_seq_nil
    | with_reducible refine within_look fun _ => ?_
    | rfl

/-! ## Scale -/

theorem within_vuRefused (site addr : Nat) (c : Cls) : Within [.ctl, .dumpRun, .freeCtr] (vuRefused site addr c) := by
  unfold vuRefused
  repeat' first
    | with_reducible refine (within_raise ..).wider ?_
    | with_reducible refine within_look fun _ => ?_
    | rfl

theorem within_readScale (site n : Nat) : Within [.ctl, .mem, .chk, .touched, .mergeBuf, .dumpRun, .freeCtr, .out] (readScale site n) := by
  unfold readScale
  repeat' first
    | with_reducible exact within_nop
    | with_reducible refine (within_devReadActs ..).wider ?_
    | with_reducible refine (within_entryRead ..).wider ?_
    | with_reducible refine (within_farRequest ..).wider ?_
    | with_reducible refine (within_hiddenActs ..).wider ?_
    | with_reducible refine (within_touch ..).wider ?_
    | with_reducible refine (within_vuRefused ..).wider ?_
    | with_reducible refine (within_wr ..).wider ?_
    | with_reducible refine within_one ?_
    | with_reducible apply within_seq_cons
    | with_reducible exact within_seq_nil
    | with_reducible refine within_look fun _ => ?_
    | with_reducible refine within_ite ?_ ?_
    | rfl
    | split

theorem within_boundaryReads (site : Nat) (start : Bool) : Within [.ctl, .core, .mem, .chk, .touched, .mergeBuf, .dumpRun, .freeCtr, .out] (boundaryReads site start) := by
  unfold boundaryReads
  repeat' first
    | with_reducible refine (within_readScale ..).wider ?_
    | with_reducible refine (within_setCore ..).wider ?_
    | with_reducible apply within_seq_cons
    | with_reducible exact within_seq_nil
    | with_reducible refine within_look fun _ => ?_
    | with_reducible refine within_each fun _ => ?_
    | with_reducible refine within_ite ?_ ?_
    | rfl

theorem within_actScaleMergeSend (site : Nat) : Within [.core, .merges] (actScaleMergeSend site) := by
  unfold actScaleMergeSend
  repeat' first
    | with_reducible refine (within_setCore ..).wider ?_
    | with_reducible refine within_one ?_
    | with_reducible apply within_seq_cons
    | with_reducible exact within_seq_nil
    | with_reducible refine within_look fun _ => ?_
    | with_reducible refine within_act ?_
    | rfl

theorem within_mergeRefused (m : Merge) (c : Cls) : Within [.ctl, .dumpRun, .freeCtr] (mergeRefused m c) := by
  unfold mergeRefused
  repeat' first
    | with_reducible exact within_nop
    | with_reducible refine (within_vuRefused ..).wider ?_
    | with_reducible refine within_one ?_
    | rfl
    | split

theorem within_mergeAt (m : Merge) (a : Nat) : Within [.ctl, .mem, .chk, .evalDue, .mergeBuf, .dumpRun, .freeCtr] (mergeAt m a) := by
  unfold mergeAt
  repeat' first
    | with_reducible exact within_nop
    | with_reducible refine (within_devReadActs ..).wider ?_
    | with_reducible refine (within_devWrite ..).wider ?_
    | with_reducible refine (within_mergeRefused ..).wider ?_
    | with_reducible refine (within_raise ..).wider ?_
    | with_reducible refine within_one ?_
    | with_reducible apply within_seq_cons
    | with_reducible exact within_seq_nil
    | with_reducible refine within_look fun _ => ?_
    | with_reducible refine within_act ?_
    | with_reducible refine within_ite ?_ ?_
    | rfl
    | split

theorem within_actScaleMerge  : Within [.ctl, .mem, .chk, .merges, .evalDue, .touched, .mergeBuf, .dumpRun, .freeCtr] (actScaleMerge) := by
  unfold actScaleMerge
  repeat' first
    | with_reducible exact within_nop
    | with_reducible refine (within_judgeActs ..).wider ?_
    | with_reducible refine (within_mergeAt ..).wider ?_
    | with_reducible refine (within_mergeRefused ..).wider ?_
    | with_reducible refine within_one ?_
    | with_reducible apply within_seq_cons
    | with_reducible exact within_seq_nil
    | with_reducible refine within_look fun _ => ?_
    | rfl
    | split

theorem within_forwardFlag (h f : Nat) (set : Bool) : Within [.ctl, .bx, .out] (forwardFlag h f set) := by
  unfold forwardFlag
  repeat' first
    | with_reducible exact within_nop
    | with_reducible refine (within_sendFrame ..).wider ?_
    | with_reducible refine within_look fun _ => ?_
    | with_reducible refine within_each fun _ => ?_
    | with_reducible refine within_ite ?_ ?_
    | rfl

theorem within_actScaleEvaluate (n : Nat) : Within [.ctl, .mem, .chk, .packets, .evalDue, .mergeBuf, .bx, .dumpRun, .freeCtr, .out] (actScaleEvaluate n) := by
  unfold actScaleEvaluate
  repeat' first
    | with_reducible exact within_nop
    | with_reducible refine (within_devReadActs ..).wider ?_
    | with_reducible refine (within_devWrite ..).wider ?_
    | with_reducible refine (within_flagAll ..).wider ?_
    | with_reducible refine (within_forwardFlag ..).wider ?_
    | with_reducible refine within_one ?_
    | with_reducible apply within_seq_cons
    | with_reducible exact within_seq_nil
    | with_reducible refine within_look fun _ => ?_
    | with_reducible refine within_act ?_
    | rfl
    | split

theorem within_voteResult (h : Nat) (v : Bool) : Within [.ctl] (voteResult h v) := by
  unfold voteResult
  repeat' first
    | with_reducible refine (within_wr ..).wider ?_
    | with_reducible refine (within_wrBit ..).wider ?_
    | with_reducible apply within_seq_cons
    | with_reducible exact within_seq_nil
    | with_reducible refine within_look fun _ => ?_
    | with_reducible refine within_each fun _ => ?_
    | rfl

theorem within_closeVote (h : Nat) : Within [.ctl, .herd, .side] (closeVote h) := by
  unfold closeVote
  repeat' first
    | with_reducible exact within_nop
    | with_reducible refine (within_setHerd ..).wider ?_
    | with_reducible refine (within_voteResult ..).wider ?_
    | with_reducible refine within_one ?_
    | with_reducible apply within_seq_cons
    | with_reducible exact within_seq_nil
    | with_reducible refine within_look fun _ => ?_
    | with_reducible refine within_ite ?_ ?_
    | rfl
    | split

theorem within_voteStep (h : Nat) : Within [.ctl, .herd] (voteStep h) := by
  unfold voteStep
  repeat' first
    | with_reducible refine (within_setHerd ..).wider ?_
    | with_reducible refine (within_wrBit ..).wider ?_
    | with_reducible apply within_seq_cons
    | with_reducible exact within_seq_nil
    | with_reducible refine within_look fun _ => ?_
    | with_reducible refine within_each fun _ => ?_
    | rfl

/-! ## SnapCut -/

theorem within_setSnap (h : Nat) (f : Snap → Snap) : Within [.snap] (setSnap h f) := by
  unfold setSnap
  repeat' first
    | with_reducible refine within_one ?_
    | with_reducible refine within_look fun _ => ?_
    | rfl

theorem within_setSnapNext (h n : Nat) : Within [.ctl] (setSnapNext h n) := by
  unfold setSnapNext
  repeat' first
    | with_reducible refine (within_wr64 ..).wider ?_
    | rfl

theorem within_snapStatus (h : Nat) : Within [.ctl] (snapStatus h) := by
  unfold snapStatus
  repeat' first
    | with_reducible refine (within_wrBit ..).wider ?_
    | with_reducible refine (within_wrFld ..).wider ?_
    | with_reducible apply within_seq_cons
    | with_reducible exact within_seq_nil
    | with_reducible refine within_look fun _ => ?_
    | rfl

theorem within_frozenReads (h : Nat) (e : SnapEntry) : Within [.ctl, .mem, .chk, .mergeBuf, .dumpRun, .freeCtr] (frozenReads h e) := by
  unfold frozenReads
  repeat' first
    | with_reducible refine (within_tableRead ..).wider ?_
    | with_reducible refine within_look fun _ => ?_
    | with_reducible refine within_each fun _ => ?_
    | with_reducible refine within_act ?_
    | rfl

theorem within_snapRecord (h g st status changed done : Nat) : Within [.snap] (snapRecord h g st status changed done) := by
  unfold snapRecord
  repeat' first
    | with_reducible refine (within_setSnap ..).wider ?_
    | with_reducible refine within_one ?_
    | with_reducible refine within_look fun _ => ?_
    | with_reducible refine within_act ?_
    | with_reducible refine within_ite ?_ ?_
    | rfl

theorem within_stageUngrouped (h : Nat) : Within [.ctl, .mem, .chk, .farMem, .mergeBuf, .dumpRun, .freeCtr] (stageUngrouped h) := by
  unfold stageUngrouped
  repeat' first
    | with_reducible refine (within_copyHome ..).wider ?_
    | with_reducible refine (within_copyReads ..).wider ?_
    | with_reducible apply within_seq_cons
    | with_reducible exact within_seq_nil
    | with_reducible refine within_look fun _ => ?_
    | with_reducible refine within_each fun _ => ?_
    | with_reducible refine within_act ?_
    | rfl

theorem within_abandonEvent (h : Nat) : Within [.ctl, .dumpRun, .freeCtr] (abandonEvent h) := by
  unfold abandonEvent
  repeat' first
    | with_reducible refine (within_count ..).wider ?_
    | with_reducible refine (within_raise ..).wider ?_
    | with_reducible refine (within_setIst ..).wider ?_
    | with_reducible apply within_seq_cons
    | with_reducible exact within_seq_nil
    | rfl

theorem within_sendPlan (h n : Nat) : Within [.ctl, .bx, .out] (sendPlan h n) := by
  unfold sendPlan
  repeat' first
    | with_reducible refine (within_sendFrame ..).wider ?_
    | with_reducible refine within_look fun _ => ?_
    | with_reducible refine within_each fun _ => ?_
    | rfl

theorem within_endMirror (h : Nat) : Within [.snap] (endMirror h) := by
  unfold endMirror
  repeat' first
    | with_reducible refine (within_setSnap ..).wider ?_
    | with_reducible refine within_one ?_
    | with_reducible refine within_look fun _ => ?_
    | with_reducible refine within_act ?_
    | with_reducible refine within_ite ?_ ?_
    | rfl

theorem within_dropSnapshot (h : Nat) : Within [.snap] (dropSnapshot h) := by
  unfold dropSnapshot
  repeat' first
    | with_reducible refine (within_endMirror ..).wider ?_
    | with_reducible refine (within_setSnap ..).wider ?_
    | with_reducible refine within_one ?_
    | with_reducible apply within_seq_cons
    | with_reducible exact within_seq_nil
    | with_reducible refine within_ite ?_ ?_
    | rfl

theorem within_abandonSnapshot (h st : Nat) (report : Bool) : Within [.ctl, .bx, .snap, .dumpRun, .freeCtr, .out] (abandonSnapshot h st report) := by
  unfold abandonSnapshot
  repeat' first
    | with_reducible refine (within_abandonEvent ..).wider ?_
    | with_reducible refine (within_dropSnapshot ..).wider ?_
    | with_reducible refine (within_sendFrame ..).wider ?_
    | with_reducible refine (within_sendPlan ..).wider ?_
    | with_reducible refine (within_setSnapNext ..).wider ?_
    | with_reducible refine (within_snapStatus ..).wider ?_
    | with_reducible apply within_seq_cons
    | with_reducible exact within_seq_nil
    | with_reducible refine within_look fun _ => ?_
    | with_reducible refine within_act ?_
    | with_reducible refine within_ite ?_ ?_
    | rfl

theorem within_dropMirror (h : Nat) : Within [.snap] (dropMirror h) := by
  unfold dropMirror
  repeat' first
    | with_reducible refine (within_setSnap ..).wider ?_
    | with_reducible refine within_one ?_
    | with_reducible refine within_ite ?_ ?_
    | rfl

theorem within_abandonMirror (h : Nat) : Within [.ctl, .snap, .dumpRun, .freeCtr] (abandonMirror h) := by
  unfold abandonMirror
  repeat' first
    | with_reducible refine (within_abandonEvent ..).wider ?_
    | with_reducible refine (within_dropMirror ..).wider ?_
    | with_reducible refine (within_snapStatus ..).wider ?_
    | with_reducible apply within_seq_cons
    | with_reducible exact within_seq_nil
    | rfl

theorem within_snapLate (h idx : Nat) : Within [.ctl, .bx, .snap, .dumpRun, .freeCtr, .out] (snapLate h idx) := by
  unfold snapLate
  repeat' first
    | with_reducible exact within_nop
    | with_reducible refine (within_abandonMirror ..).wider ?_
    | with_reducible refine (within_abandonSnapshot ..).wider ?_
    | with_reducible refine (within_dropMirror ..).wider ?_
    | with_reducible refine within_one ?_
    | with_reducible apply within_seq_cons
    | with_reducible exact within_seq_nil
    | with_reducible refine within_look fun _ => ?_
    | with_reducible refine within_act ?_
    | with_reducible refine within_ite ?_ ?_
    | rfl
    | split
    | dsimp only

theorem within_beginCapture (h st : Nat) (forSnap : Bool) : Within [.ctl, .mem, .chk, .farMem, .mergeBuf, .snap, .dumpRun, .freeCtr] (beginCapture h st forSnap) := by
  unfold beginCapture
  repeat' first
    | with_reducible refine (within_frozenReads ..).wider ?_
    | with_reducible refine (within_setSnap ..).wider ?_
    | with_reducible refine (within_snapStatus ..).wider ?_
    | with_reducible refine (within_stageUngrouped ..).wider ?_
    | with_reducible refine within_one ?_
    | with_reducible apply within_seq_cons
    | with_reducible exact within_seq_nil
    | with_reducible refine within_look fun _ => ?_
    | with_reducible refine within_each fun _ => ?_
    | with_reducible refine within_act ?_
    | with_reducible refine within_ite ?_ ?_
    | rfl

theorem within_snapBoundary (h idx : Nat) : Within [.ctl, .mem, .chk, .farMem, .mergeBuf, .bx, .snap, .dumpRun, .freeCtr, .out] (snapBoundary h idx) := by
  unfold snapBoundary
  repeat' first
    | with_reducible refine (within_beginCapture ..).wider ?_
    | with_reducible refine (within_count ..).wider ?_
    | with_reducible refine (within_setSnapNext ..).wider ?_
    | with_reducible refine (within_snapLate ..).wider ?_
    | with_reducible refine within_one ?_
    | with_reducible apply within_seq_cons
    | with_reducible exact within_seq_nil
    | with_reducible refine within_look fun _ => ?_
    | with_reducible refine within_act ?_
    | with_reducible refine within_ite ?_ ?_
    | rfl

end Sys2Proof.Machine
end

