-- ==== Sys2Proof/Laws/FrameEngine.lean ====
section
/-! SUPPORT. The fields that each act can change: the update engines, the sequencer and the mover. One lemma for an act; no proof about frames needs to unfold it again. -/

namespace Sys2Proof.Machine

/-! ## Engine -/

theorem within_engActs (h a n : Nat) (port : Option Nat) (write : Bool) : Within [.ctl, .mem, .chk, .touched, .mergeBuf, .dumpRun, .freeCtr] (engActs h a n port write) := by
  unfold engActs
  repeat' first
    | with_reducible exact within_nop
    | with_reducible refine (within_devReadActs ..).wider ?_
    | with_reducible refine (within_judgeActs ..).wider ?_
    | with_reducible apply within_seq_cons
    | with_reducible exact within_seq_nil
    | with_reducible refine within_look fun _ => ?_
    | with_reducible refine within_each fun _ => ?_
    | with_reducible refine within_act ?_
    | with_reducible refine within_ite ?_ ?_
    | rfl
    | split

theorem within_pollRing (n h : Nat) : Within [.ctl, .mem, .chk, .ringFail, .touched, .mergeBuf, .dumpRun, .freeCtr] (pollRing n h) := by
  unfold pollRing
  repeat' first
    | with_reducible exact within_nop
    | with_reducible refine (within_engActs ..).wider ?_
    | with_reducible refine (within_raise ..).wider ?_
    | with_reducible refine within_one ?_
    | with_reducible apply within_seq_cons
    | with_reducible exact within_seq_nil
    | with_reducible refine within_look fun _ => ?_
    | with_reducible refine within_act ?_
    | with_reducible refine within_ite ?_ ?_
    | rfl
    | split

theorem within_actUeRingPoll (n h : Nat) : Within [.ctl, .mem, .chk, .ringFail, .touched, .mergeBuf, .dumpRun, .freeCtr] (actUeRingPoll n h) := by
  unfold actUeRingPoll
  repeat' first
    | with_reducible refine (within_pollRing ..).wider ?_
    | with_reducible refine within_look fun _ => ?_
    | with_reducible refine within_act ?_
    | rfl

theorem within_ringEnableWrite (n h : Nat) (v : Word) : Within [.ctl] (ringEnableWrite n h v) := by
  unfold ringEnableWrite
  repeat' first
    | with_reducible refine (within_maskWrite ..).wider ?_
    | with_reducible refine (within_wr ..).wider ?_
    | with_reducible apply within_seq_cons
    | with_reducible exact within_seq_nil
    | with_reducible refine within_look fun _ => ?_
    | with_reducible refine within_act ?_
    | rfl

theorem within_readsActs (h : Nat) (rs : List (Nat × Nat)) : Within [.ctl, .mem, .chk, .touched, .mergeBuf, .dumpRun, .freeCtr] (readsActs h rs) := by
  unfold readsActs
  repeat' first
    | with_reducible refine (within_engActs ..).wider ?_
    | with_reducible refine within_one ?_
    | with_reducible refine within_each fun _ => ?_
    | rfl

theorem within_judgeReads (d : UeDesc) : Within [.ctl, .mem, .chk, .touched, .mergeBuf, .dumpRun, .freeCtr] (judgeReads d) := by
  unfold judgeReads
  repeat' first
    | with_reducible refine (within_devReadActs ..).wider ?_
    | with_reducible refine (within_readsActs ..).wider ?_
    | with_reducible apply within_seq_cons
    | with_reducible exact within_seq_nil
    | with_reducible refine within_look fun _ => ?_
    | with_reducible refine within_act ?_
    | rfl

theorem within_setDesc (d e : UeDesc) : Within [.desc] (setDesc d e) := by
  unfold setDesc
  repeat' first
    | with_reducible refine within_one ?_
    | with_reducible refine within_look fun _ => ?_
    | with_reducible refine within_ite ?_ ?_
    | rfl

theorem within_actUeDescriptorTake (n h : Nat) : Within [.ctl, .mem, .chk, .desc, .ringFail, .lastTaken, .touched, .mergeBuf, .dumpRun, .freeCtr] (actUeDescriptorTake n h) := by
  unfold actUeDescriptorTake
  repeat' first
    | with_reducible exact within_nop
    | with_reducible refine (within_engActs ..).wider ?_
    | with_reducible refine (within_judgeReads ..).wider ?_
    | with_reducible refine (within_wr ..).wider ?_
    | with_reducible refine within_one ?_
    | with_reducible apply within_seq_cons
    | with_reducible exact within_seq_nil
    | with_reducible refine within_look fun _ => ?_
    | with_reducible refine within_act ?_
    | rfl
    | split

theorem within_doAdvance (d : UeDesc) : Within [.ctl, .mem, .chk, .desc, .mergeBuf, .dumpRun, .freeCtr] (doAdvance d) := by
  unfold doAdvance
  repeat' first
    | with_reducible exact within_nop
    | with_reducible refine (within_devReadActs ..).wider ?_
    | with_reducible refine (within_devWrite ..).wider ?_
    | with_reducible refine (within_setDesc ..).wider ?_
    | with_reducible refine within_one ?_
    | with_reducible apply within_seq_cons
    | with_reducible exact within_seq_nil
    | with_reducible refine within_look fun _ => ?_
    | rfl
    | split

theorem within_actAdvance (n h : Nat) : Within [.ctl, .mem, .chk, .desc, .mergeBuf, .dumpRun, .freeCtr] (actAdvance n h) := by
  unfold actAdvance
  repeat' first
    | with_reducible exact within_nop
    | with_reducible refine (within_doAdvance ..).wider ?_
    | with_reducible refine within_one ?_
    | with_reducible refine within_look fun _ => ?_
    | with_reducible refine within_act ?_
    | rfl
    | split

theorem within_beginBatches (d : UeDesc) : Within [.desc] (beginBatches d) := by
  unfold beginBatches
  repeat' first
    | with_reducible refine (within_setDesc ..).wider ?_
    | with_reducible refine within_one ?_
    | rfl

theorem within_inMode {ps : List Part} (hps : covers ps [.ctl, .mem, .chk, .desc, .touched, .mergeBuf, .dumpRun, .freeCtr] = true) {n : Nat} {h : Nat} {mode : Nat} {body : UeDesc → Act} (hbody : ∀ x0, Within ps (body x0)) : Within ps (inMode n h mode body) := by
  unfold inMode
  repeat' first
    | with_reducible exact within_nop
    | with_reducible exact hbody _
    | with_reducible exact (((within_readsActs ..).wider (ps := [.ctl, .mem, .chk, .desc, .touched, .mergeBuf, .dumpRun, .freeCtr]) rfl)).wider hps
    | with_reducible exact (((within_setDesc ..).wider (ps := [.ctl, .mem, .chk, .desc, .touched, .mergeBuf, .dumpRun, .freeCtr]) rfl)).wider hps
    | with_reducible refine within_one (covers_mem hps ?_)
    | with_reducible apply within_seq_cons
    | with_reducible exact within_seq_nil
    | with_reducible refine within_look fun _ => ?_
    | with_reducible refine within_act ?_
    | with_reducible refine within_ite ?_ ?_
    | rfl
    | split
    | dsimp only

theorem within_startUpdate (d : UeDesc) : Within [.ctl, .mem, .chk, .desc, .mergeBuf, .dumpRun, .freeCtr] (startUpdate d) := by
  unfold startUpdate
  repeat' first
    | with_reducible exact within_nop
    | with_reducible refine (within_beginBatches ..).wider ?_
    | with_reducible refine (within_doAdvance ..).wider ?_
    | with_reducible refine within_one ?_
    | with_reducible apply within_seq_cons
    | with_reducible exact within_seq_nil
    | with_reducible refine within_look fun _ => ?_
    | with_reducible refine within_act ?_
    | with_reducible refine within_ite ?_ ?_
    | rfl
    | split

theorem within_actUpdate (n h : Nat) : Within [.ctl, .mem, .chk, .desc, .touched, .mergeBuf, .dumpRun, .freeCtr] (actUpdate n h) := by
  unfold actUpdate
  repeat' first
    | with_reducible refine within_inMode rfl (fun _ => ?_)
    | with_reducible refine (within_startUpdate ..).wider ?_
    | rfl

theorem within_actUpdateAccumulated (n h : Nat) : Within [.ctl, .mem, .chk, .desc, .touched, .mergeBuf, .dumpRun, .freeCtr] (actUpdateAccumulated n h) := by
  unfold actUpdateAccumulated
  repeat' first
    | with_reducible refine within_inMode rfl (fun _ => ?_)
    | with_reducible refine (within_startUpdate ..).wider ?_
    | rfl

theorem within_actAccumulate (n h : Nat) : Within [.ctl, .mem, .chk, .desc, .touched, .mergeBuf, .dumpRun, .freeCtr] (actAccumulate n h) := by
  unfold actAccumulate
  repeat' first
    | with_reducible refine within_inMode rfl (fun _ => ?_)
    | with_reducible refine (within_setDesc ..).wider ?_
    | with_reducible refine within_act ?_
    | rfl

theorem within_actGroupLoad (n h : Nat) : Within [.ctl, .mem, .chk, .desc, .touched, .mergeBuf, .dumpRun, .freeCtr] (actGroupLoad n h) := by
  unfold actGroupLoad
  repeat' first
    | with_reducible exact within_nop
    | with_reducible refine (within_devWrite ..).wider ?_
    | with_reducible refine (within_engActs ..).wider ?_
    | with_reducible refine within_inMode rfl (fun _ => ?_)
    | with_reducible refine (within_setDesc ..).wider ?_
    | with_reducible refine within_mapGetD fun _ => ?_
    | with_reducible refine within_one ?_
    | with_reducible apply within_seq_cons
    | with_reducible exact within_seq_nil
    | with_reducible refine within_look fun _ => ?_
    | with_reducible refine within_ite ?_ ?_
    | rfl
    | split

theorem within_actGroupStore (n h : Nat) : Within [.ctl, .mem, .chk, .farMem, .desc, .touched, .mergeBuf, .dumpRun, .freeCtr, .out] (actGroupStore n h) := by
  unfold actGroupStore
  repeat' first
    | with_reducible exact within_nop
    | with_reducible refine (within_devReadActs ..).wider ?_
    | with_reducible refine (within_engActs ..).wider ?_
    | with_reducible refine within_inMode rfl (fun _ => ?_)
    | with_reducible refine (within_setDesc ..).wider ?_
    | with_reducible refine (within_urWrite ..).wider ?_
    | with_reducible refine within_one ?_
    | with_reducible apply within_seq_cons
    | with_reducible exact within_seq_nil
    | with_reducible refine within_look fun _ => ?_
    | with_reducible refine within_ite ?_ ?_
    | rfl
    | split

theorem within_putRuns (h : Nat) (rs : List (Nat × List Byte)) : Within [.ctl, .mem, .chk, .farMem, .touched, .mergeBuf, .dumpRun, .freeCtr, .out] (putRuns h rs) := by
  unfold putRuns
  repeat' first
    | with_reducible refine (within_urWrite ..).wider ?_
    | with_reducible refine within_each fun _ => ?_
    | rfl

theorem within_touchActs (n h : Nat) (write : Bool) (q : Touch) : Within [.ctl, .mem, .chk, .touched, .mergeBuf, .dumpRun, .freeCtr] (touchActs n h write q) := by
  unfold touchActs
  repeat' first
    | with_reducible refine (within_engActs ..).wider ?_
    | with_reducible refine within_one ?_
    | with_reducible refine within_ite ?_ ?_
    | rfl

theorem within_triedActs (n h : Nat) (reads writes : List Touch) : Within [.ctl, .mem, .chk, .touched, .mergeBuf, .dumpRun, .freeCtr] (triedActs n h reads writes) := by
  unfold triedActs
  repeat' first
    | with_reducible refine (within_touchActs ..).wider ?_
    | with_reducible apply within_seq_cons
    | with_reducible exact within_seq_nil
    | with_reducible refine within_each fun _ => ?_
    | with_reducible refine within_act ?_
    | rfl

theorem within_runBatch (n h : Nat) (d : UeDesc) : Within [.ctl, .mem, .chk, .farMem, .desc, .touched, .mergeBuf, .dumpRun, .freeCtr, .out] (runBatch n h d) := by
  unfold runBatch
  repeat' first
    | with_reducible refine (within_count ..).wider ?_
    | with_reducible refine (within_putRuns ..).wider ?_
    | with_reducible refine (within_raise ..).wider ?_
    | with_reducible refine (within_setDesc ..).wider ?_
    | with_reducible refine (within_touchActs ..).wider ?_
    | with_reducible refine within_mapGetD fun _ => ?_
    | with_reducible refine within_one ?_
    | with_reducible apply within_seq_cons
    | with_reducible exact within_seq_nil
    | with_reducible refine within_look fun _ => ?_
    | with_reducible refine within_each fun _ => ?_
    | with_reducible refine within_act ?_
    | rfl

theorem within_actUeBatch (n h : Nat) : Within [.ctl, .mem, .chk, .farMem, .desc, .lastTaken, .touched, .mergeBuf, .dumpRun, .freeCtr, .out] (actUeBatch n h) := by
  unfold actUeBatch
  repeat' first
    | with_reducible exact within_nop
    | with_reducible refine (within_runBatch ..).wider ?_
    | with_reducible refine (within_setDesc ..).wider ?_
    | with_reducible refine (within_triedActs ..).wider ?_
    | with_reducible refine within_one ?_
    | with_reducible apply within_seq_cons
    | with_reducible exact within_seq_nil
    | with_reducible refine within_look fun _ => ?_
    | with_reducible refine within_act ?_
    | with_reducible refine within_ite ?_ ?_
    | rfl
    | split

theorem within_notifyCore (b : RingBlock) (h kind hidx idx : Nat) : Within [.packets] (notifyCore b h kind hidx idx) := by
  unfold notifyCore
  repeat' first
    | with_reducible exact within_nop
    | with_reducible refine within_one ?_
    | with_reducible refine within_look fun _ => ?_
    | with_reducible refine within_act ?_
    | with_reducible refine within_ite ?_ ?_
    | rfl
    | split

theorem within_putRecord (h a : Nat) (bs : List Byte) : Within [.ctl, .mem, .chk, .farMem, .touched, .mergeBuf, .dumpRun, .freeCtr, .out] (putRecord h a bs) := by
  unfold putRecord
  repeat' first
    | with_reducible refine (within_engActs ..).wider ?_
    | with_reducible refine (within_urWrite ..).wider ?_
    | with_reducible refine within_one ?_
    | with_reducible refine within_look fun _ => ?_
    | rfl
    | split

theorem within_haltRing (n h st : Nat) : Within [.ctl] (haltRing n h st) := by
  unfold haltRing
  repeat' first
    | with_reducible refine (within_wr ..).wider ?_
    | with_reducible refine (within_wrBit ..).wider ?_
    | with_reducible apply within_seq_cons
    | with_reducible exact within_seq_nil
    | rfl

theorem within_actUeDescriptorEnd (n h : Nat) : Within [.ctl, .mem, .chk, .farMem, .packets, .merges, .desc, .touched, .mergeBuf, .snap, .dumpRun, .freeCtr, .out] (actUeDescriptorEnd n h) := by
  unfold actUeDescriptorEnd
  repeat' first
    | with_reducible exact within_nop
    | with_reducible refine (within_count ..).wider ?_
    | with_reducible refine (within_haltRing ..).wider ?_
    | with_reducible refine (within_notifyCore ..).wider ?_
    | with_reducible refine (within_putRecord ..).wider ?_
    | with_reducible refine (within_raise ..).wider ?_
    | with_reducible refine (within_setIst ..).wider ?_
    | with_reducible refine (within_snapRecord ..).wider ?_
    | with_reducible refine within_one ?_
    | with_reducible apply within_seq_cons
    | with_reducible exact within_seq_nil
    | with_reducible refine within_look fun _ => ?_
    | with_reducible refine within_act ?_
    | with_reducible refine within_ite ?_ ?_
    | rfl
    | split

theorem within_putProgram (n p : Nat) (ws : List Word) (ok : Bool) : Within [.ctl, .prog] (putProgram n p ws ok) := by
  unfold putProgram
  repeat' first
    | with_reducible refine (within_wrBit ..).wider ?_
    | with_reducible refine within_one ?_
    | with_reducible apply within_seq_cons
    | with_reducible exact within_seq_nil
    | with_reducible refine within_each fun _ => ?_
    | rfl

theorem within_endLoad (n : Nat) (err : Bool) : Within [.ctl] (endLoad n err) := by
  unfold endLoad
  repeat' first
    | with_reducible refine (within_setIst ..).wider ?_
    | with_reducible refine (within_wrBit ..).wider ?_
    | with_reducible apply within_seq_cons
    | with_reducible exact within_seq_nil
    | rfl

theorem within_loadProgram (n p : Nat) (ws : List Word) (ok : Bool) : Within [.ctl, .prog, .progPend] (loadProgram n p ws ok) := by
  unfold loadProgram
  repeat' first
    | with_reducible refine (within_putProgram ..).wider ?_
    | with_reducible refine within_one ?_
    | with_reducible apply within_seq_cons
    | with_reducible exact within_seq_nil
    | with_reducible refine within_look fun _ => ?_
    | with_reducible refine within_ite ?_ ?_
    | rfl

theorem within_actProgramReplace (n : Nat) : Within [.ctl, .prog, .progPend] (actProgramReplace n) := by
  unfold actProgramReplace
  repeat' first
    | with_reducible exact within_nop
    | with_reducible refine (within_putProgram ..).wider ?_
    | with_reducible refine within_one ?_
    | with_reducible apply within_seq_cons
    | with_reducible exact within_seq_nil
    | with_reducible refine within_look fun _ => ?_
    | rfl
    | split

theorem within_uePloadWrite (r : Requester) (n : Nat) (v : Word) : Within [.ctl, .dumpRun, .freeCtr] (uePloadWrite r n v) := by
  unfold uePloadWrite
  repeat' first
    | with_reducible refine (within_maskWrite ..).wider ?_
    | with_reducible refine (within_protocolAt ..).wider ?_
    | with_reducible refine (within_wrBit ..).wider ?_
    | with_reducible apply within_seq_cons
    | with_reducible exact within_seq_nil
    | with_reducible refine within_look fun _ => ?_
    | with_reducible refine within_act ?_
    | with_reducible refine within_ite ?_ ?_
    | rfl

theorem within_ringReadActs (a n : Nat) : Within [.ctl, .mem, .chk, .mergeBuf, .dumpRun, .freeCtr] (ringReadActs a n) := by
  unfold ringReadActs
  repeat' first
    | with_reducible refine (within_devReadActs ..).wider ?_
    | with_reducible refine (within_ring ..).wider ?_
    | with_reducible refine (within_tableRead ..).wider ?_
    | with_reducible refine within_one ?_
    | with_reducible apply within_seq_cons
    | with_reducible exact within_seq_nil
    | with_reducible refine within_look fun _ => ?_
    | with_reducible refine within_each fun _ => ?_
    | with_reducible refine within_act ?_
    | rfl

theorem within_actUePloadDone (n : Nat) : Within [.ctl, .mem, .chk, .prog, .progPend, .mergeBuf, .dumpRun, .freeCtr] (actUePloadDone n) := by
  unfold actUePloadDone
  repeat' first
    | with_reducible exact within_nop
    | with_reducible refine (within_endLoad ..).wider ?_
    | with_reducible refine (within_loadProgram ..).wider ?_
    | with_reducible refine (within_ringReadActs ..).wider ?_
    | with_reducible refine (within_wrBit ..).wider ?_
    | with_reducible refine within_one ?_
    | with_reducible apply within_seq_cons
    | with_reducible exact within_seq_nil
    | with_reducible refine within_look fun _ => ?_
    | with_reducible refine within_each fun _ => ?_
    | with_reducible refine within_ite ?_ ?_
    | rfl
    | split

/-! ## Issue -/

theorem within_setLc (site n remain index : Nat) : Within [.ctl] (setLc site n remain index) := by
  unfold setLc
  repeat' first
    | with_reducible refine (within_wr ..).wider ?_
    | rfl

theorem within_faultRow (site : Nat) (f : RowFault) : Within [.ctl, .core, .packets, .herd, .dumpRun, .freeCtr, .out] (faultRow site f) := by
  unfold faultRow
  repeat' first
    | with_reducible refine (within_count ..).wider ?_
    | with_reducible refine (within_rowFault ..).wider ?_
    | with_reducible apply within_seq_cons
    | with_reducible exact within_seq_nil
    | with_reducible refine within_look fun _ => ?_
    | with_reducible refine within_act ?_
    | rfl

theorem within_issueRow (site next : Nat) (found : Cell) : Within [.ctl, .core, .dumpRun, .freeCtr] (issueRow site next found) := by
  unfold issueRow
  repeat' first
    | with_reducible refine (within_coreEvent ..).wider ?_
    | with_reducible refine (within_count ..).wider ?_
    | with_reducible refine (within_setCore ..).wider ?_
    | with_reducible refine (within_wr ..).wider ?_
    | with_reducible apply within_seq_cons
    | with_reducible exact within_seq_nil
    | with_reducible refine within_look fun _ => ?_
    | with_reducible refine within_act ?_
    | rfl

/-! ## Sequencer -/

theorem within_dwqLog (site : Nat) (cs : List Nat) : Within [.ctl] (dwqLog site cs) := by
  unfold dwqLog
  repeat' first
    | with_reducible refine (within_wr ..).wider ?_
    | with_reducible refine within_look fun _ => ?_
    | rfl

theorem within_badRow (site : Nat) : Within [.ctl, .rodBad, .core, .packets, .herd, .dumpRun, .freeCtr, .out] (badRow site) := by
  unfold badRow
  repeat' first
    | with_reducible refine (within_rowFault ..).wider ?_
    | with_reducible refine within_one ?_
    | with_reducible apply within_seq_cons
    | with_reducible exact within_seq_nil
    | with_reducible refine within_look fun _ => ?_
    | rfl

theorem within_issueIf {ps : List Part} (hps : covers ps [.ctl, .rodBad, .core, .packets, .herd, .dumpRun, .freeCtr, .out] = true) {site : Nat} {found : Cell} {taken : Bool} {go : Act} (hgo : Within ps go) : Within ps (issueIf site found taken go) := by
  unfold issueIf
  repeat' first
    | with_reducible exact within_nop
    | with_reducible exact hgo
    | with_reducible exact (((within_badRow ..).wider (ps := [.ctl, .rodBad, .core, .packets, .herd, .dumpRun, .freeCtr, .out]) rfl)).wider hps
    | with_reducible exact (((within_dwqLog ..).wider (ps := [.ctl, .rodBad, .core, .packets, .herd, .dumpRun, .freeCtr, .out]) rfl)).wider hps
    | with_reducible exact (((within_faultRow ..).wider (ps := [.ctl, .rodBad, .core, .packets, .herd, .dumpRun, .freeCtr, .out]) rfl)).wider hps
    | with_reducible refine within_one (covers_mem hps ?_)
    | with_reducible refine within_look fun _ => ?_
    | with_reducible refine within_ite ?_ ?_
    | rfl
    | split

theorem within_ctlOp {ps : List Part} (hps : covers ps [.ctl, .rodBad, .core, .packets, .herd, .dumpRun, .freeCtr, .out] = true) {site : Nat} {sop : Nat} {found : Cell} {taken : Bool} {go : Word → Act} (hgo : ∀ x0, Within ps (go x0)) : Within ps (ctlOp site sop found taken go) := by
  unfold ctlOp
  repeat' first
    | with_reducible exact hgo _
    | with_reducible refine within_issueIf (covers_trans hps rfl) ?_
    | with_reducible refine within_look fun _ => ?_
    | with_reducible refine within_act ?_

theorem within_passOn (site : Nat) (found : Cell) : Within [.ctl, .core, .dumpRun, .freeCtr] (passOn site found) := by
  unfold passOn
  repeat' first
    | with_reducible refine (within_issueRow ..).wider ?_
    | with_reducible refine within_look fun _ => ?_
    | rfl

theorem within_actNext (site : Nat) (found : Cell) : Within [.ctl, .rodBad, .core, .packets, .herd, .dumpRun, .freeCtr, .out] (actNext site found) := by
  unfold actNext
  repeat' first
    | with_reducible refine within_issueIf rfl ?_
    | with_reducible refine (within_passOn ..).wider ?_
    | with_reducible refine within_look fun _ => ?_
    | with_reducible refine within_act ?_
    | rfl

theorem within_actLoop (site : Nat) (found : Cell) : Within [.ctl, .rodBad, .core, .packets, .herd, .dumpRun, .freeCtr, .out] (actLoop site found) := by
  unfold actLoop
  repeat' first
    | with_reducible refine within_ctlOp rfl (fun _ => ?_)
    | with_reducible refine (within_passOn ..).wider ?_
    | with_reducible refine (within_setLc ..).wider ?_
    | with_reducible apply within_seq_cons
    | with_reducible exact within_seq_nil
    | rfl

theorem within_actEndl (site : Nat) (found : Cell) : Within [.ctl, .rodBad, .core, .packets, .herd, .dumpRun, .freeCtr, .out] (actEndl site found) := by
  unfold actEndl
  repeat' first
    | with_reducible refine within_ctlOp rfl (fun _ => ?_)
    | with_reducible refine (within_issueRow ..).wider ?_
    | with_reducible refine (within_passOn ..).wider ?_
    | with_reducible refine (within_setLc ..).wider ?_
    | with_reducible apply within_seq_cons
    | with_reducible exact within_seq_nil
    | with_reducible refine within_look fun _ => ?_
    | with_reducible refine within_ite ?_ ?_
    | rfl

theorem within_actAlt (site : Nat) (found : Cell) : Within [.ctl, .rodBad, .core, .packets, .herd, .dumpRun, .freeCtr, .out] (actAlt site found) := by
  unfold actAlt
  repeat' first
    | with_reducible refine within_ctlOp rfl (fun _ => ?_)
    | with_reducible refine (within_issueRow ..).wider ?_
    | with_reducible refine (within_passOn ..).wider ?_
    | with_reducible refine within_look fun _ => ?_
    | with_reducible refine within_ite ?_ ?_
    | rfl

theorem within_actHalt (site : Nat) (found : Cell) : Within [.ctl, .rodBad, .core, .packets, .herd, .dumpRun, .freeCtr, .out] (actHalt site found) := by
  unfold actHalt
  repeat' first
    | with_reducible refine within_ctlOp rfl (fun _ => ?_)
    | with_reducible refine (within_passOn ..).wider ?_
    | with_reducible refine (within_setCore ..).wider ?_
    | with_reducible apply within_seq_cons
    | with_reducible exact within_seq_nil
    | rfl

theorem within_beginWait (site kind obj value : Nat) : Within [.ctl, .core, .packets] (beginWait site kind obj value) := by
  unfold beginWait
  repeat' first
    | with_reducible refine (within_register ..).wider ?_
    | with_reducible refine (within_send0 ..).wider ?_
    | with_reducible refine (within_setCore ..).wider ?_
    | with_reducible refine (within_setCoreState ..).wider ?_
    | with_reducible refine (within_wr ..).wider ?_
    | with_reducible apply within_seq_cons
    | with_reducible exact within_seq_nil
    | with_reducible refine within_look fun _ => ?_
    | with_reducible refine within_act ?_
    | rfl

theorem within_waitOp (site sop kind : Nat) (found : Cell) (obj value : Word → Nat) : Within [.ctl, .rodBad, .core, .packets, .herd, .dumpRun, .freeCtr, .out] (waitOp site sop kind found obj value) := by
  unfold waitOp
  repeat' first
    | with_reducible exact within_nop
    | with_reducible refine (within_badRow ..).wider ?_
    | with_reducible refine (within_beginWait ..).wider ?_
    | with_reducible refine within_issueIf rfl ?_
    | with_reducible refine (within_passOn ..).wider ?_
    | with_reducible refine within_look fun _ => ?_
    | with_reducible refine within_ite ?_ ?_
    | rfl

theorem within_actTwait (site : Nat) (found : Cell) : Within [.ctl, .rodBad, .core, .packets, .herd, .dumpRun, .freeCtr, .out] (actTwait site found) := by
  unfold actTwait
  repeat' first
    | with_reducible refine (within_waitOp ..).wider ?_
    | rfl

theorem within_actTwaitc (site : Nat) (found : Cell) : Within [.ctl, .rodBad, .core, .packets, .herd, .dumpRun, .freeCtr, .out] (actTwaitc site found) := by
  unfold actTwaitc
  repeat' first
    | with_reducible refine (within_waitOp ..).wider ?_
    | rfl

theorem within_actCwait (site : Nat) (found : Cell) : Within [.ctl, .rodBad, .core, .packets, .herd, .dumpRun, .freeCtr, .out] (actCwait site found) := by
  unfold actCwait
  repeat' first
    | with_reducible refine (within_waitOp ..).wider ?_
    | rfl

theorem within_latchPath (site : Nat) : Within [.ctl] (latchPath site) := by
  unfold latchPath
  repeat' first
    | with_reducible refine (within_wr ..).wider ?_
    | with_reducible apply within_seq_cons
    | with_reducible exact within_seq_nil
    | with_reducible refine within_look fun _ => ?_
    | rfl

theorem within_dwqCarryCheck (site : Nat) : Within [.ctl, .core, .dumpRun, .freeCtr] (dwqCarryCheck site) := by
  unfold dwqCarryCheck
  repeat' first
    | with_reducible refine (within_coreEvent ..).wider ?_
    | with_reducible refine (within_setCore ..).wider ?_
    | with_reducible refine (within_setIst ..).wider ?_
    | with_reducible refine (within_wrBit ..).wider ?_
    | with_reducible apply within_seq_cons
    | with_reducible exact within_seq_nil
    | with_reducible refine within_look fun _ => ?_
    | with_reducible refine within_act ?_
    | rfl

theorem within_herdStep {ps : List Part} (hps : covers ps [.ctl, .mem, .chk, .packets, .herd, .moves, .mergeBuf, .dumpRun, .freeCtr] = true) {site : Nat} {begin_ : Nat → Act} (hbegin_ : ∀ x0, Within ps (begin_ x0)) : Within ps (herdStep site begin_) := by
  unfold herdStep
  repeat' first
    | with_reducible exact within_nop
    | with_reducible exact hbegin_ _
    | with_reducible exact (((within_pfStepBoundary ..).wider (ps := [.ctl, .mem, .chk, .packets, .herd, .moves, .mergeBuf, .dumpRun, .freeCtr]) rfl)).wider hps
    | with_reducible exact (((within_setHerd ..).wider (ps := [.ctl, .mem, .chk, .packets, .herd, .moves, .mergeBuf, .dumpRun, .freeCtr]) rfl)).wider hps
    | with_reducible exact (((within_voteStep ..).wider (ps := [.ctl, .mem, .chk, .packets, .herd, .moves, .mergeBuf, .dumpRun, .freeCtr]) rfl)).wider hps
    | with_reducible refine within_one (covers_mem hps ?_)
    | with_reducible apply within_seq_cons
    | with_reducible exact within_seq_nil
    | with_reducible refine within_look fun _ => ?_
    | with_reducible refine within_act ?_
    | rfl
    | split

theorem within_stepBoundary (site : Nat) : Within [.ctl, .core, .mem, .chk, .farMem, .packets, .herd, .moves, .touched, .mergeBuf, .bx, .snap, .dumpRun, .freeCtr, .out] (stepBoundary site) := by
  unfold stepBoundary
  repeat' first
    | with_reducible refine (within_boundaryReads ..).wider ?_
    | with_reducible refine (within_dwqCarryCheck ..).wider ?_
    | with_reducible refine within_herdStep rfl (fun _ => ?_)
    | with_reducible refine (within_latchPath ..).wider ?_
    | with_reducible refine (within_realign ..).wider ?_
    | with_reducible refine (within_setCore ..).wider ?_
    | with_reducible refine (within_snapBoundary ..).wider ?_
    | with_reducible refine (within_wr64 ..).wider ?_
    | with_reducible refine (within_wrFld ..).wider ?_
    | with_reducible refine within_one ?_
    | with_reducible apply within_seq_cons
    | with_reducible exact within_seq_nil
    | with_reducible refine within_look fun _ => ?_
    | with_reducible refine within_act ?_
    | rfl

theorem within_passBead (site : Nat) (found : Cell) (onTime : Bool) : Within [.ctl, .core, .mem, .chk, .farMem, .packets, .herd, .moves, .touched, .mergeBuf, .bx, .side, .snap, .dumpRun, .freeCtr, .out] (passBead site found onTime) := by
  unfold passBead
  repeat' first
    | with_reducible exact within_nop
    | with_reducible refine (within_closeVote ..).wider ?_
    | with_reducible refine (within_issueRow ..).wider ?_
    | with_reducible refine (within_openSlot ..).wider ?_
    | with_reducible refine (within_setCore ..).wider ?_
    | with_reducible refine (within_setCoreState ..).wider ?_
    | with_reducible refine (within_stepBoundary ..).wider ?_
    | with_reducible refine (within_wr ..).wider ?_
    | with_reducible refine (within_wrBit ..).wider ?_
    | with_reducible refine within_mapGetD fun _ => ?_
    | with_reducible refine within_one ?_
    | with_reducible apply within_seq_cons
    | with_reducible exact within_seq_nil
    | with_reducible refine within_look fun _ => ?_
    | with_reducible refine within_act ?_
    | with_reducible refine within_ite ?_ ?_
    | rfl
    | split

theorem within_tryPass (site : Nat) (found : Cell) (onTime : Bool) : Within [.ctl, .rodBad, .core, .mem, .chk, .farMem, .packets, .herd, .moves, .touched, .mergeBuf, .bx, .side, .snap, .dumpRun, .freeCtr, .out] (tryPass site found onTime) := by
  unfold tryPass
  repeat' first
    | with_reducible refine within_issueIf rfl ?_
    | with_reducible refine (within_passBead ..).wider ?_
    | rfl

theorem within_actBead (site : Nat) (found : Cell) : Within [.ctl, .rodBad, .core, .mem, .chk, .farMem, .packets, .herd, .moves, .touched, .mergeBuf, .bx, .side, .snap, .dumpRun, .freeCtr, .out] (actBead site found) := by
  unfold actBead
  repeat' first
    | with_reducible exact within_nop
    | with_reducible refine (within_badRow ..).wider ?_
    | with_reducible refine (within_setCore ..).wider ?_
    | with_reducible refine (within_setCoreState ..).wider ?_
    | with_reducible refine (within_setIst ..).wider ?_
    | with_reducible refine (within_tryPass ..).wider ?_
    | with_reducible apply within_seq_cons
    | with_reducible exact within_seq_nil
    | with_reducible refine within_look fun _ => ?_
    | with_reducible refine within_ite ?_ ?_
    | rfl

theorem within_clearRun (site : Nat) : Within [.ctl, .core] (clearRun site) := by
  unfold clearRun
  repeat' first
    | with_reducible refine (within_setCore ..).wider ?_
    | with_reducible refine (within_wr ..).wider ?_
    | with_reducible refine (within_wrBit ..).wider ?_
    | with_reducible apply within_seq_cons
    | with_reducible exact within_seq_nil
    | with_reducible refine within_look fun _ => ?_
    | rfl

theorem within_startFresh (site : Nat) : Within [.ctl, .core, .mem, .chk, .packets, .herd, .moves, .touched, .mergeBuf, .dumpRun, .freeCtr, .out] (startFresh site) := by
  unfold startFresh
  repeat' first
    | with_reducible exact within_nop
    | with_reducible refine (within_boundaryReads ..).wider ?_
    | with_reducible refine (within_clearRun ..).wider ?_
    | with_reducible refine within_herdStep rfl (fun _ => ?_)
    | with_reducible refine (within_latchPath ..).wider ?_
    | with_reducible refine (within_realign ..).wider ?_
    | with_reducible refine (within_setCore ..).wider ?_
    | with_reducible refine (within_setCoreState ..).wider ?_
    | with_reducible refine (within_setLc ..).wider ?_
    | with_reducible refine (within_wr ..).wider ?_
    | with_reducible refine (within_wrBit ..).wider ?_
    | with_reducible refine (within_wrFld ..).wider ?_
    | with_reducible refine within_one ?_
    | with_reducible apply within_seq_cons
    | with_reducible exact within_seq_nil
    | with_reducible refine within_look fun _ => ?_
    | with_reducible refine within_each fun _ => ?_
    | with_reducible refine within_act ?_
    | rfl

theorem within_startAfterEval (site : Nat) : Within [.ctl, .core, .mem, .chk, .touched, .mergeBuf, .dumpRun, .freeCtr, .out] (startAfterEval site) := by
  unfold startAfterEval
  repeat' first
    | with_reducible refine (within_boundaryReads ..).wider ?_
    | with_reducible refine (within_clearRun ..).wider ?_
    | with_reducible refine (within_setCore ..).wider ?_
    | with_reducible refine (within_setCoreState ..).wider ?_
    | with_reducible refine (within_wr ..).wider ?_
    | with_reducible refine (within_wrBit ..).wider ?_
    | with_reducible refine within_one ?_
    | with_reducible apply within_seq_cons
    | with_reducible exact within_seq_nil
    | rfl

theorem within_startPaused (site : Nat) : Within [.ctl, .core] (startPaused site) := by
  unfold startPaused
  repeat' first
    | with_reducible refine (within_clearRun ..).wider ?_
    | with_reducible refine (within_setCore ..).wider ?_
    | with_reducible refine (within_setCoreState ..).wider ?_
    | with_reducible refine (within_setIst ..).wider ?_
    | with_reducible apply within_seq_cons
    | with_reducible exact within_seq_nil
    | with_reducible refine within_look fun _ => ?_
    | with_reducible refine within_ite ?_ ?_
    | rfl

theorem within_startResumed (site : Nat) : Within [.ctl, .core] (startResumed site) := by
  unfold startResumed
  repeat' first
    | with_reducible refine (within_clearRun ..).wider ?_
    | with_reducible refine (within_setCore ..).wider ?_
    | with_reducible refine (within_setCoreState ..).wider ?_
    | with_reducible apply within_seq_cons
    | with_reducible exact within_seq_nil
    | with_reducible refine within_look fun _ => ?_
    | with_reducible refine within_ite ?_ ?_
    | rfl

theorem within_startCore (site : Nat) : Within [.ctl, .core, .mem, .chk, .packets, .herd, .moves, .touched, .mergeBuf, .dumpRun, .freeCtr, .out] (startCore site) := by
  unfold startCore
  repeat' first
    | with_reducible refine (within_startAfterEval ..).wider ?_
    | with_reducible refine (within_startFresh ..).wider ?_
    | with_reducible refine (within_startPaused ..).wider ?_
    | with_reducible refine (within_startResumed ..).wider ?_
    | with_reducible refine within_look fun _ => ?_
    | rfl
    | split

theorem within_slip (site : Nat) : Within [.ctl, .side, .dumpRun, .freeCtr] (slip site) := by
  unfold slip
  repeat' first
    | with_reducible refine (within_coreEvent ..).wider ?_
    | with_reducible refine (within_count ..).wider ?_
    | with_reducible refine within_one ?_
    | with_reducible apply within_seq_cons
    | with_reducible exact within_seq_nil
    | with_reducible refine within_look fun _ => ?_
    | rfl

theorem within_coreBoundary (site : Nat) : Within [.ctl, .rodBad, .core, .mem, .chk, .farMem, .packets, .herd, .moves, .touched, .mergeBuf, .bx, .side, .snap, .dumpRun, .freeCtr, .out] (coreBoundary site) := by
  unfold coreBoundary
  repeat' first
    | with_reducible refine (within_setCore ..).wider ?_
    | with_reducible refine (within_setCoreState ..).wider ?_
    | with_reducible refine (within_slip ..).wider ?_
    | with_reducible refine (within_startCore ..).wider ?_
    | with_reducible refine (within_tryPass ..).wider ?_
    | with_reducible refine within_one ?_
    | with_reducible apply within_seq_cons
    | with_reducible exact within_seq_nil
    | with_reducible refine within_look fun _ => ?_
    | with_reducible refine within_act ?_
    | with_reducible refine within_ite ?_ ?_
    | rfl

theorem within_actCoreHalted (site : Nat) : Within [.ctl, .core] (actCoreHalted site) := by
  unfold actCoreHalted
  repeat' first
    | with_reducible exact within_nop
    | with_reducible refine (within_setCore ..).wider ?_
    | with_reducible refine (within_setCoreState ..).wider ?_
    | with_reducible refine (within_setIst ..).wider ?_
    | with_reducible refine (within_wrFld ..).wider ?_
    | with_reducible refine within_one ?_
    | with_reducible apply within_seq_cons
    | with_reducible exact within_seq_nil
    | with_reducible refine within_look fun _ => ?_
    | with_reducible refine within_act ?_
    | rfl
    | split
    | dsimp only

theorem within_actCoreFaulted (site : Nat) : Within [.ctl, .core] (actCoreFaulted site) := by
  unfold actCoreFaulted
  repeat' first
    | with_reducible refine (within_setCore ..).wider ?_
    | with_reducible refine (within_setCoreState ..).wider ?_
    | with_reducible refine (within_setIst ..).wider ?_
    | with_reducible apply within_seq_cons
    | with_reducible exact within_seq_nil
    | with_reducible refine within_look fun _ => ?_
    | with_reducible refine within_act ?_
    | rfl

theorem within_abandonFault (site : Nat) : Within [.ctl, .core] (abandonFault site) := by
  unfold abandonFault
  repeat' first
    | with_reducible refine (within_setCore ..).wider ?_
    | with_reducible refine (within_wrBit ..).wider ?_
    | with_reducible refine within_one ?_
    | with_reducible apply within_seq_cons
    | with_reducible exact within_seq_nil
    | rfl

theorem within_armCore (r : Requester) (site : Nat) : Within [.ctl, .core, .dumpRun, .freeCtr] (armCore r site) := by
  unfold armCore
  repeat' first
    | with_reducible refine (within_abandonFault ..).wider ?_
    | with_reducible refine (within_coreEvent ..).wider ?_
    | with_reducible refine (within_protocolAt ..).wider ?_
    | with_reducible refine (within_setCore ..).wider ?_
    | with_reducible refine (within_setCoreState ..).wider ?_
    | with_reducible refine (within_wrBit ..).wider ?_
    | with_reducible apply within_seq_cons
    | with_reducible exact within_seq_nil
    | with_reducible refine within_look fun _ => ?_
    | with_reducible refine within_act ?_
    | with_reducible refine within_ite ?_ ?_
    | rfl

theorem within_resumeCore (r : Requester) (site : Nat) : Within [.ctl, .core, .dumpRun, .freeCtr] (resumeCore r site) := by
  unfold resumeCore
  repeat' first
    | with_reducible refine (within_coreEvent ..).wider ?_
    | with_reducible refine (within_protocolAt ..).wider ?_
    | with_reducible refine (within_setCore ..).wider ?_
    | with_reducible refine (within_setCoreState ..).wider ?_
    | with_reducible apply within_seq_cons
    | with_reducible exact within_seq_nil
    | with_reducible refine within_look fun _ => ?_
    | with_reducible refine within_ite ?_ ?_
    | rfl

theorem within_actSeqArm (r : Requester) (site : Nat) : Within [.ctl, .core, .dumpRun, .freeCtr] (actSeqArm r site) := by
  unfold actSeqArm
  repeat' first
    | with_reducible refine (within_armCore ..).wider ?_
    | with_reducible refine within_guarded rfl ?_
    | with_reducible apply within_seq_cons
    | with_reducible exact within_seq_nil
    | rfl

theorem within_actSeqResume (r : Requester) (site : Nat) : Within [.ctl, .core, .dumpRun, .freeCtr] (actSeqResume r site) := by
  unfold actSeqResume
  repeat' first
    | with_reducible refine within_guarded rfl ?_
    | with_reducible refine (within_resumeCore ..).wider ?_
    | with_reducible apply within_seq_cons
    | with_reducible exact within_seq_nil
    | rfl

theorem within_actSeqStop (r : Requester) (site : Nat) : Within [.ctl, .core, .dumpRun, .freeCtr] (actSeqStop r site) := by
  unfold actSeqStop
  repeat' first
    | with_reducible refine within_guarded rfl ?_
    | with_reducible refine (within_stopCore ..).wider ?_
    | with_reducible apply within_seq_cons
    | with_reducible exact within_seq_nil
    | rfl

theorem within_rodWordWrite (r : Requester) (site w : Nat) (v : Word) : Within [.ctl, .rod, .rodBad, .dumpRun, .freeCtr] (rodWordWrite r site w v) := by
  unfold rodWordWrite
  repeat' first
    | with_reducible refine (within_protocolAt ..).wider ?_
    | with_reducible refine (within_rodPut ..).wider ?_
    | with_reducible apply within_seq_cons
    | with_reducible exact within_seq_nil
    | with_reducible refine within_look fun _ => ?_
    | with_reducible refine within_ite ?_ ?_
    | rfl

theorem within_actRodRowWrite (r : Requester) (site w : Nat) (v : Word) : Within [.ctl, .rod, .rodBad, .dumpRun, .freeCtr] (actRodRowWrite r site w v) := by
  unfold actRodRowWrite
  repeat' first
    | with_reducible refine within_guarded rfl ?_
    | with_reducible refine (within_rodWordWrite ..).wider ?_
    | rfl

theorem within_rloadWrite (r : Requester) (site : Nat) (v : Word) : Within [.ctl, .dumpRun, .freeCtr] (rloadWrite r site v) := by
  unfold rloadWrite
  repeat' first
    | with_reducible refine (within_maskWrite ..).wider ?_
    | with_reducible refine (within_protocolAt ..).wider ?_
    | with_reducible refine (within_wrBit ..).wider ?_
    | with_reducible apply within_seq_cons
    | with_reducible exact within_seq_nil
    | with_reducible refine within_look fun _ => ?_
    | with_reducible refine within_act ?_
    | with_reducible refine within_ite ?_ ?_
    | rfl

theorem within_actRloadGo (r : Requester) (site : Nat) (v : Word) : Within [.ctl, .dumpRun, .freeCtr] (actRloadGo r site v) := by
  unfold actRloadGo
  repeat' first
    | with_reducible refine within_guarded rfl ?_
    | with_reducible refine (within_rloadWrite ..).wider ?_
    | with_reducible apply within_seq_cons
    | with_reducible exact within_seq_nil
    | rfl

theorem within_runRload (site : Nat) : Within [.ctl, .rod, .rodBad, .mem, .chk, .touched, .mergeBuf, .dumpRun, .freeCtr, .out] (runRload site) := by
  unfold runRload
  repeat' first
    | with_reducible refine (within_rodPut ..).wider ?_
    | with_reducible refine (within_setIst ..).wider ?_
    | with_reducible refine (within_urReadActs ..).wider ?_
    | with_reducible refine (within_wrBit ..).wider ?_
    | with_reducible apply within_seq_cons
    | with_reducible exact within_seq_nil
    | with_reducible refine within_look fun _ => ?_
    | with_reducible refine within_each fun _ => ?_
    | rfl

theorem within_actRloadDone (site : Nat) : Within [.ctl, .rod, .rodBad, .mem, .chk, .touched, .mergeBuf, .dumpRun, .freeCtr, .out] (actRloadDone site) := by
  unfold actRloadDone
  repeat' first
    | with_reducible refine (within_runRload ..).wider ?_
    | with_reducible apply within_seq_cons
    | with_reducible exact within_seq_nil
    | with_reducible refine within_look fun _ => ?_
    | with_reducible refine within_act ?_
    | rfl

theorem within_rcCtrlWrite (site : Nat) (v : Word) : Within [.ctl, .core] (rcCtrlWrite site v) := by
  unfold rcCtrlWrite
  repeat' first
    | with_reducible refine (within_maskWrite ..).wider ?_
    | with_reducible refine (within_setCore ..).wider ?_
    | with_reducible apply within_seq_cons
    | with_reducible exact within_seq_nil
    | with_reducible refine within_act ?_
    | rfl

theorem within_actRcInval (r : Requester) (site : Nat) (v : Word) : Within [.ctl, .core, .dumpRun, .freeCtr] (actRcInval r site v) := by
  unfold actRcInval
  repeat' first
    | with_reducible refine within_guarded rfl ?_
    | with_reducible refine (within_rcCtrlWrite ..).wider ?_
    | rfl

theorem within_actCoreScrub (site : Nat) (found : List Cell) : Within [.ctl, .storeBad, .core, .dumpRun, .freeCtr] (actCoreScrub site found) := by
  unfold actCoreScrub
  repeat' first
    | with_reducible refine (within_setCore ..).wider ?_
    | with_reducible refine (within_stFound ..).wider ?_
    | with_reducible refine within_mapGetD fun _ => ?_
    | with_reducible apply within_seq_cons
    | with_reducible exact within_seq_nil
    | with_reducible refine within_look fun _ => ?_
    | with_reducible refine within_each fun _ => ?_
    | with_reducible refine within_act ?_
    | rfl

theorem within_actDwqStart (site : Nat) : Within [.ctl, .core] (actDwqStart site) := by
  unfold actDwqStart
  repeat' first
    | with_reducible exact within_nop
    | with_reducible refine (within_dwqLog ..).wider ?_
    | with_reducible refine (within_setCore ..).wider ?_
    | with_reducible refine within_one ?_
    | with_reducible apply within_seq_cons
    | with_reducible exact within_seq_nil
    | with_reducible refine within_look fun _ => ?_
    | with_reducible refine within_act ?_
    | rfl
    | split
    | dsimp only

theorem within_dwqStep (site : Nat) (j : CubeJob) : Within [.ctl, .core] (dwqStep site j) := by
  unfold dwqStep
  repeat' first
    | with_reducible refine (within_dwqLog ..).wider ?_
    | with_reducible refine (within_enterStep ..).wider ?_
    | with_reducible refine (within_retire ..).wider ?_
    | with_reducible refine (within_setCore ..).wider ?_
    | with_reducible refine within_one ?_
    | with_reducible apply within_seq_cons
    | with_reducible exact within_seq_nil
    | with_reducible refine within_look fun _ => ?_
    | with_reducible refine within_ite ?_ ?_
    | rfl

theorem within_actCmmStep (site : Nat) : Within [.ctl, .core] (actCmmStep site) := by
  unfold actCmmStep
  repeat' first
    | with_reducible exact within_nop
    | with_reducible refine (within_dwqStep ..).wider ?_
    | with_reducible refine (within_enterStep ..).wider ?_
    | with_reducible refine (within_retire ..).wider ?_
    | with_reducible refine (within_setCore ..).wider ?_
    | with_reducible refine within_one ?_
    | with_reducible apply within_seq_cons
    | with_reducible exact within_seq_nil
    | with_reducible refine within_look fun _ => ?_
    | with_reducible refine within_ite ?_ ?_
    | rfl
    | split

/-! ## Mover -/

theorem within_beginCopy (site op : Nat) : Within [.ctl, .core] (beginCopy site op) := by
  unfold beginCopy
  repeat' first
    | with_reducible exact within_nop
    | with_reducible refine (within_setIssued ..).wider ?_
    | with_reducible refine (within_wr ..).wider ?_
    | with_reducible refine (within_wr64 ..).wider ?_
    | with_reducible refine within_one ?_
    | with_reducible apply within_seq_cons
    | with_reducible exact within_seq_nil
    | with_reducible refine within_look fun _ => ?_
    | with_reducible refine within_act ?_
    | with_reducible refine within_ite ?_ ?_
    | rfl
    | split

theorem within_actMovC (site : Nat) : Within [.ctl, .core] (actMovC site) := by
  unfold actMovC
  repeat' first
    | with_reducible refine (within_beginCopy ..).wider ?_
    | rfl

theorem within_actMovP (site : Nat) : Within [.ctl, .core] (actMovP site) := by
  unfold actMovP
  repeat' first
    | with_reducible refine (within_beginCopy ..).wider ?_
    | rfl

theorem within_copyFault (site ch : Nat) (i : Issued) (cause : Nat) : Within [.ctl, .core, .packets, .herd, .dumpRun, .freeCtr, .out] (copyFault site ch i cause) := by
  unfold copyFault
  repeat' first
    | with_reducible refine (within_count ..).wider ?_
    | with_reducible refine (within_insnFault ..).wider ?_
    | with_reducible refine (within_raise ..).wider ?_
    | with_reducible refine (within_setIst ..).wider ?_
    | with_reducible refine (within_wrBit ..).wider ?_
    | with_reducible apply within_seq_cons
    | with_reducible exact within_seq_nil
    | with_reducible refine within_look fun _ => ?_
    | with_reducible refine within_ite ?_ ?_
    | rfl

theorem within_copyStep (site ch slot : Nat) (movP : Bool) : Within [.ctl] (copyStep site ch slot movP) := by
  unfold copyStep
  repeat' first
    | with_reducible refine (within_count ..).wider ?_
    | with_reducible refine (within_wr ..).wider ?_
    | with_reducible refine (within_wr64 ..).wider ?_
    | with_reducible refine (within_wrFld ..).wider ?_
    | with_reducible apply within_seq_cons
    | with_reducible exact within_seq_nil
    | with_reducible refine within_look fun _ => ?_
    | with_reducible refine within_ite ?_ ?_
    | rfl

theorem within_readLocal {ps : List Part} (hps : covers ps [.ctl, .storeBad, .core, .packets, .herd, .dumpRun, .freeCtr, .out] = true) {site : Nat} {ch : Nat} {i : Issued} {found : Cell} {use : Act} (huse : Within ps use) : Within ps (readLocal site ch i found use) := by
  unfold readLocal
  repeat' first
    | with_reducible exact huse
    | with_reducible exact (((within_copyFault ..).wider (ps := [.ctl, .storeBad, .core, .packets, .herd, .dumpRun, .freeCtr, .out]) rfl)).wider hps
    | with_reducible exact (((within_stCount ..).wider (ps := [.ctl, .storeBad, .core, .packets, .herd, .dumpRun, .freeCtr, .out]) rfl)).wider hps
    | with_reducible exact (((within_stFound ..).wider (ps := [.ctl, .storeBad, .core, .packets, .herd, .dumpRun, .freeCtr, .out]) rfl)).wider hps
    | with_reducible apply within_seq_cons
    | with_reducible exact within_seq_nil
    | with_reducible refine within_look fun _ => ?_
    | with_reducible refine within_ite ?_ ?_

theorem within_copyWord (site ch : Nat) (i : Issued) (found : Cell) : Within [.ctl, .store, .storeBad, .core, .mem, .chk, .farMem, .packets, .herd, .touched, .mergeBuf, .dumpRun, .freeCtr, .out] (copyWord site ch i found) := by
  unfold copyWord
  repeat' first
    | with_reducible exact within_nop
    | with_reducible refine (within_copyFault ..).wider ?_
    | with_reducible refine (within_copyStep ..).wider ?_
    | with_reducible refine (within_rcUpdate ..).wider ?_
    | with_reducible refine within_readLocal rfl ?_
    | with_reducible refine (within_stCount ..).wider ?_
    | with_reducible refine (within_stWrite ..).wider ?_
    | with_reducible refine (within_urReadActs ..).wider ?_
    | with_reducible refine (within_urRefusedActs ..).wider ?_
    | with_reducible refine (within_urWrite ..).wider ?_
    | with_reducible apply within_seq_cons
    | with_reducible exact within_seq_nil
    | with_reducible refine within_look fun _ => ?_
    | with_reducible refine within_ite ?_ ?_
    | rfl
    | split

theorem within_takeMovAnswer (site : Nat) (ch : Fin 2) : Within [.core] (takeMovAnswer site ch) := by
  unfold takeMovAnswer
  repeat' first
    | with_reducible refine (within_setCore ..).wider ?_
    | rfl

theorem within_sendWord (site : Nat) (ch : Fin 2) (i : Issued) (found : Cell) : Within [.ctl, .storeBad, .core, .packets, .herd, .dumpRun, .freeCtr, .out] (sendWord site ch i found) := by
  unfold sendWord
  repeat' first
    | with_reducible exact within_nop
    | with_reducible refine within_readLocal rfl ?_
    | with_reducible refine (within_sendMov ..).wider ?_
    | with_reducible refine (within_setCore ..).wider ?_
    | with_reducible refine within_one ?_
    | with_reducible apply within_seq_cons
    | with_reducible exact within_seq_nil
    | with_reducible refine within_look fun _ => ?_
    | with_reducible refine within_ite ?_ ?_
    | rfl
    | split

theorem within_takeWord (site : Nat) (ch : Fin 2) (i : Issued) (a : MovAnswer) : Within [.ctl, .store, .storeBad, .core, .packets, .herd, .dumpRun, .freeCtr, .out] (takeWord site ch i a) := by
  unfold takeWord
  repeat' first
    | with_reducible exact within_nop
    | with_reducible refine (within_copyFault ..).wider ?_
    | with_reducible refine (within_copyStep ..).wider ?_
    | with_reducible refine (within_stCount ..).wider ?_
    | with_reducible refine (within_stPut ..).wider ?_
    | with_reducible refine (within_takeMovAnswer ..).wider ?_
    | with_reducible apply within_seq_cons
    | with_reducible exact within_seq_nil
    | with_reducible refine within_look fun _ => ?_
    | rfl
    | split

theorem within_actMoverWord (site : Nat) (ch : Fin 2) (found : Cell) : Within [.ctl, .store, .storeBad, .core, .mem, .chk, .farMem, .packets, .herd, .touched, .mergeBuf, .dumpRun, .freeCtr, .out] (actMoverWord site ch found) := by
  unfold actMoverWord
  repeat' first
    | with_reducible exact within_nop
    | with_reducible refine (within_copyWord ..).wider ?_
    | with_reducible refine (within_sendWord ..).wider ?_
    | with_reducible refine (within_takeWord ..).wider ?_
    | with_reducible refine within_one ?_
    | with_reducible refine within_look fun _ => ?_
    | with_reducible refine within_act ?_
    | with_reducible refine within_ite ?_ ?_
    | rfl
    | split

theorem within_actMoverCopyDone (site ch : Nat) : Within [.ctl, .core, .packets] (actMoverCopyDone site ch) := by
  unfold actMoverCopyDone
  repeat' first
    | with_reducible exact within_nop
    | with_reducible refine (within_count ..).wider ?_
    | with_reducible refine (within_retire ..).wider ?_
    | with_reducible refine (within_setDone ..).wider ?_
    | with_reducible refine (within_wrBit ..).wider ?_
    | with_reducible refine within_one ?_
    | with_reducible apply within_seq_cons
    | with_reducible exact within_seq_nil
    | with_reducible refine within_look fun _ => ?_
    | with_reducible refine within_act ?_
    | rfl
    | split

theorem within_actMovpFenced (site : Nat) (ch : Fin 2) : Within [.ctl, .core, .packets, .herd, .dumpRun, .freeCtr, .out] (actMovpFenced site ch) := by
  unfold actMovpFenced
  repeat' first
    | with_reducible exact within_nop
    | with_reducible refine (within_copyFault ..).wider ?_
    | with_reducible refine (within_count ..).wider ?_
    | with_reducible refine (within_takeMovAnswer ..).wider ?_
    | with_reducible refine within_one ?_
    | with_reducible apply within_seq_cons
    | with_reducible exact within_seq_nil
    | with_reducible refine within_look fun _ => ?_
    | with_reducible refine within_act ?_
    | rfl
    | split

end Sys2Proof.Machine
end

