-- ==== Sys2Proof/Laws/FramePod.lean ====
section
/-! SUPPORT. The fields that each act can change: the bead, the links, the collectives and dumps. One lemma for an act; no proof about frames needs to unfold it again. -/

namespace Sys2Proof.Machine

/-! ## Coll -/

theorem within_setColl (c d : Collective) : Within [.coll] (setColl c d) := by
  unfold setColl
  repeat' first
    | with_reducible refine within_one ?_
    | with_reducible refine within_look fun _ => ?_
    | with_reducible refine within_ite ?_ ?_
    | rfl

theorem within_takeGrant (h cid pos : Nat) : Within [.coll] (takeGrant h cid pos) := by
  unfold takeGrant
  repeat' first
    | with_reducible exact within_nop
    | with_reducible refine (within_setColl ..).wider ?_
    | with_reducible refine within_one ?_
    | with_reducible refine within_look fun _ => ?_
    | with_reducible refine within_act ?_
    | rfl
    | split

theorem within_grantWaiting (n : Nat) : Within [.ctl, .bx, .coll, .mc, .out] (grantWaiting n) := by
  induction n with
  | zero => exact within_nop
  | succ n ih =>
    unfold grantWaiting
    refine within_look fun s => ?_
    split
    · exact within_nop
    · refine within_act (within_seq_cons (within_one rfl) (within_seq_cons (within_ite ?_ ?_) (within_seq_cons ih within_seq_nil)))
      · exact (within_takeGrant ..).wider rfl
      · exact (within_sendFrame ..).wider rfl

theorem within_dropRequest (h src cid : Nat) : Within [.ctl, .bx, .coll, .mc, .out] (dropRequest h src cid) := by
  unfold dropRequest
  repeat' first
    | with_reducible refine (within_grantWaiting ..).wider ?_
    | with_reducible refine within_one ?_
    | with_reducible apply within_seq_cons
    | with_reducible exact within_seq_nil
    | with_reducible refine within_look fun _ => ?_
    | rfl

theorem within_releaseMulticasts  : Within [.ctl, .bx, .coll, .mc, .dumpRun, .freeCtr, .out] (releaseMulticasts) := by
  unfold releaseMulticasts
  repeat' first
    | with_reducible refine (within_count ..).wider ?_
    | with_reducible refine (within_dropRequest ..).wider ?_
    | with_reducible refine (within_raise ..).wider ?_
    | with_reducible refine (within_sendFrame ..).wider ?_
    | with_reducible refine (within_setIst ..).wider ?_
    | with_reducible refine within_one ?_
    | with_reducible apply within_seq_cons
    | with_reducible exact within_seq_nil
    | with_reducible refine within_look fun _ => ?_
    | with_reducible refine within_each fun _ => ?_
    | with_reducible refine within_ite ?_ ?_
    | rfl

/-! ## Bead -/

theorem within_applySlip (v : Bool) : Within [.ctl] (applySlip v) := by
  unfold applySlip
  repeat' first
    | with_reducible refine (within_count ..).wider ?_
    | with_reducible refine (within_setIst ..).wider ?_
    | with_reducible refine (within_wr64 ..).wider ?_
    | with_reducible refine (within_wrBit ..).wider ?_
    | with_reducible apply within_seq_cons
    | with_reducible exact within_seq_nil
    | with_reducible refine within_look fun _ => ?_
    | with_reducible refine within_act ?_
    | rfl

theorem within_applyVotes (v : DWord) : Within [.ctl] (applyVotes v) := by
  unfold applyVotes
  repeat' first
    | with_reducible refine (within_voteResult ..).wider ?_
    | with_reducible refine within_look fun _ => ?_
    | with_reducible refine within_each fun _ => ?_
    | rfl

theorem within_forwardResult (slip missing : Bool) (votes : DWord) : Within [.ctl, .side, .dumpRun, .freeCtr, .out] (forwardResult slip missing votes) := by
  unfold forwardResult
  repeat' first
    | with_reducible refine (within_sendSym ..).wider ?_
    | with_reducible refine (within_slip ..).wider ?_
    | with_reducible refine within_look fun _ => ?_
    | with_reducible refine within_each fun _ => ?_
    | rfl

theorem within_sendJoins  : Within [.ctl, .bx, .out] (sendJoins) := by
  unfold sendJoins
  repeat' first
    | with_reducible refine (within_sendFrame ..).wider ?_
    | with_reducible refine within_look fun _ => ?_
    | with_reducible refine within_each fun _ => ?_
    | rfl

theorem within_sendReport  : Within [.ctl, .bx, .side, .dumpRun, .freeCtr, .out] (sendReport) := by
  unfold sendReport
  repeat' first
    | with_reducible exact within_nop
    | with_reducible refine (within_applySlip ..).wider ?_
    | with_reducible refine (within_applyVotes ..).wider ?_
    | with_reducible refine (within_forwardResult ..).wider ?_
    | with_reducible refine (within_sendJoins ..).wider ?_
    | with_reducible refine (within_sendSym ..).wider ?_
    | with_reducible refine within_one ?_
    | with_reducible apply within_seq_cons
    | with_reducible exact within_seq_nil
    | with_reducible refine within_look fun _ => ?_
    | with_reducible refine within_act ?_
    | with_reducible refine within_ite ?_ ?_
    | rfl
    | split

theorem within_tryReport  : Within [.ctl, .bx, .side, .dumpRun, .freeCtr, .out] (tryReport) := by
  unfold tryReport
  repeat' first
    | with_reducible refine (within_sendReport ..).wider ?_
    | with_reducible refine within_look fun _ => ?_
    | with_reducible refine within_act ?_
    | rfl

theorem within_periodChange  : Within [.ctl] (periodChange) := by
  unfold periodChange
  repeat' first
    | with_reducible refine (within_count ..).wider ?_
    | with_reducible refine (within_setIst ..).wider ?_
    | with_reducible refine (within_wrBit ..).wider ?_
    | with_reducible refine (within_wrFld ..).wider ?_
    | with_reducible apply within_seq_cons
    | with_reducible exact within_seq_nil
    | with_reducible refine within_look fun _ => ?_
    | with_reducible refine within_act ?_
    | rfl

theorem within_nextBead  : Within [.ctl, .side, .dumpRun, .freeCtr] (nextBead) := by
  unfold nextBead
  repeat' first
    | with_reducible exact within_nop
    | with_reducible refine (within_slip ..).wider ?_
    | with_reducible refine (within_wr ..).wider ?_
    | with_reducible refine (within_wr64 ..).wider ?_
    | with_reducible refine (within_wrBit ..).wider ?_
    | with_reducible refine within_one ?_
    | with_reducible apply within_seq_cons
    | with_reducible exact within_seq_nil
    | with_reducible refine within_look fun _ => ?_
    | rfl
    | split

theorem within_boundary  : Within [.ctl, .rodBad, .core, .mem, .chk, .farMem, .packets, .bulkOpen, .bulkPend, .herd, .moves, .touched, .mergeBuf, .bx, .side, .coll, .mc, .snap, .dumpRun, .freeCtr, .out] (boundary) := by
  unfold boundary
  repeat' first
    | with_reducible refine (within_actEvict ..).wider ?_
    | with_reducible refine (within_applySlip ..).wider ?_
    | with_reducible refine (within_bulkBoundary ..).wider ?_
    | with_reducible refine (within_coreBoundary ..).wider ?_
    | with_reducible refine (within_count ..).wider ?_
    | with_reducible refine (within_nextBead ..).wider ?_
    | with_reducible refine (within_periodChange ..).wider ?_
    | with_reducible refine (within_releaseMulticasts ..).wider ?_
    | with_reducible refine (within_tryReport ..).wider ?_
    | with_reducible apply within_seq_cons
    | with_reducible exact within_seq_nil
    | with_reducible refine within_look fun _ => ?_
    | with_reducible refine within_each fun _ => ?_
    | with_reducible refine within_act ?_
    | with_reducible refine within_ite ?_ ?_
    | rfl

theorem within_sourceBoundary  : Within [.ctl, .rodBad, .core, .mem, .chk, .farMem, .packets, .bulkOpen, .bulkPend, .herd, .moves, .touched, .mergeBuf, .bx, .side, .coll, .mc, .snap, .dumpRun, .freeCtr, .out] (sourceBoundary) := by
  unfold sourceBoundary
  repeat' first
    | with_reducible refine (within_boundary ..).wider ?_
    | with_reducible refine (within_sendSym ..).wider ?_
    | with_reducible apply within_seq_cons
    | with_reducible exact within_seq_nil
    | with_reducible refine within_look fun _ => ?_
    | with_reducible refine within_each fun _ => ?_
    | with_reducible refine within_act ?_
    | rfl

theorem within_actBeadBoundary  : Within [.ctl, .rodBad, .core, .mem, .chk, .farMem, .packets, .bulkOpen, .bulkPend, .herd, .moves, .touched, .mergeBuf, .bx, .side, .coll, .mc, .snap, .dumpRun, .freeCtr, .out] (actBeadBoundary) := by
  unfold actBeadBoundary
  repeat' first
    | with_reducible refine (within_sourceBoundary ..).wider ?_
    | with_reducible refine within_look fun _ => ?_
    | with_reducible refine within_act ?_
    | rfl

theorem within_beadCtrlWrite (v : Word) : Within [.ctl, .rodBad, .core, .mem, .chk, .farMem, .packets, .bulkOpen, .bulkPend, .herd, .moves, .touched, .mergeBuf, .bx, .side, .coll, .mc, .snap, .dumpRun, .freeCtr, .out] (beadCtrlWrite v) := by
  unfold beadCtrlWrite
  repeat' first
    | with_reducible refine (within_maskWrite ..).wider ?_
    | with_reducible refine (within_sourceBoundary ..).wider ?_
    | with_reducible apply within_seq_cons
    | with_reducible exact within_seq_nil
    | with_reducible refine within_look fun _ => ?_
    | with_reducible refine within_act ?_
    | rfl

theorem within_actBeadRunStart (r : Requester) (v : Word) : Within [.ctl, .rodBad, .core, .mem, .chk, .farMem, .packets, .bulkOpen, .bulkPend, .herd, .moves, .touched, .mergeBuf, .bx, .side, .coll, .mc, .snap, .dumpRun, .freeCtr, .out] (actBeadRunStart r v) := by
  unfold actBeadRunStart
  repeat' first
    | with_reducible refine (within_beadCtrlWrite ..).wider ?_
    | with_reducible refine within_guarded rfl ?_
    | rfl

theorem within_actBeadHoldStart  : Within [.ctl, .bulkOpen] (actBeadHoldStart) := by
  unfold actBeadHoldStart
  repeat' first
    | with_reducible refine (within_wr ..).wider ?_
    | with_reducible refine within_one ?_
    | with_reducible apply within_seq_cons
    | with_reducible exact within_seq_nil
    | with_reducible refine within_look fun _ => ?_
    | with_reducible refine within_act ?_
    | rfl

theorem within_beadNextWrite (r : Requester) (v : Word) : Within [.ctl, .dumpRun, .freeCtr] (beadNextWrite r v) := by
  unfold beadNextWrite
  repeat' first
    | with_reducible refine (within_maskWrite ..).wider ?_
    | with_reducible refine (within_protocolAt ..).wider ?_
    | with_reducible refine within_look fun _ => ?_
    | with_reducible refine within_ite ?_ ?_
    | rfl

theorem within_actBeadNextWrite (r : Requester) (v : Word) : Within [.ctl, .dumpRun, .freeCtr] (actBeadNextWrite r v) := by
  unfold actBeadNextWrite
  repeat' first
    | with_reducible refine (within_beadNextWrite ..).wider ?_
    | with_reducible refine within_guarded rfl ?_
    | rfl

theorem within_symbolFrom {ps : List Part} (hps : covers ps [.ctl, .dumpRun, .freeCtr] = true) {from_ : SymPort} {body : Act} (hbody : Within ps body) : Within ps (symbolFrom from_ body) := by
  unfold symbolFrom
  repeat' first
    | with_reducible exact within_nop
    | with_reducible exact hbody
    | with_reducible exact (((within_count ..).wider (ps := [.ctl, .dumpRun, .freeCtr]) rfl)).wider hps
    | with_reducible exact (((within_raise ..).wider (ps := [.ctl, .dumpRun, .freeCtr]) rfl)).wider hps
    | with_reducible apply within_seq_cons
    | with_reducible exact within_seq_nil
    | with_reducible refine within_look fun _ => ?_
    | with_reducible refine within_act ?_
    | with_reducible refine within_ite ?_ ?_

theorem within_actMark (from_ : SymPort) (bead lag : Nat) (late : Bool) (measured : Option Nat) : Within [.ctl, .rodBad, .core, .mem, .chk, .farMem, .packets, .bulkOpen, .bulkPend, .herd, .moves, .touched, .mergeBuf, .bx, .side, .coll, .mc, .snap, .dumpRun, .freeCtr, .out] (actMark from_ bead lag late measured) := by
  unfold actMark
  repeat' first
    | with_reducible exact within_nop
    | with_reducible refine (within_boundary ..).wider ?_
    | with_reducible refine (within_count ..).wider ?_
    | with_reducible refine (within_raise ..).wider ?_
    | with_reducible refine (within_sendSym ..).wider ?_
    | with_reducible refine within_symbolFrom rfl ?_
    | with_reducible refine (within_takeFree ..).wider ?_
    | with_reducible refine (within_wrBit ..).wider ?_
    | with_reducible refine (within_wrFld ..).wider ?_
    | with_reducible refine within_one ?_
    | with_reducible apply within_seq_cons
    | with_reducible exact within_seq_nil
    | with_reducible refine within_look fun _ => ?_
    | with_reducible refine within_each fun _ => ?_
    | with_reducible refine within_act ?_
    | rfl
    | split

theorem within_failPodHerds (reason : Nat) : Within [.ctl, .core, .herd, .notices] (failPodHerds reason) := by
  unfold failPodHerds
  repeat' first
    | with_reducible refine (within_failHere ..).wider ?_
    | with_reducible refine within_look fun _ => ?_
    | with_reducible refine within_each fun _ => ?_
    | rfl

theorem within_putMeasure (n : Nat) (d : List Byte) : Within [.ctl] (putMeasure n d) := by
  unfold putMeasure
  repeat' first
    | with_reducible refine (within_setIst ..).wider ?_
    | with_reducible refine (within_wr ..).wider ?_
    | with_reducible apply within_seq_cons
    | with_reducible exact within_seq_nil
    | with_reducible refine within_look fun _ => ?_
    | with_reducible refine within_each fun _ => ?_
    | with_reducible refine within_act ?_
    | rfl

theorem within_takePodMeasure  : Within [.ctl] (takePodMeasure) := by
  unfold takePodMeasure
  repeat' first
    | with_reducible refine (within_putMeasure ..).wider ?_
    | with_reducible refine within_look fun _ => ?_
    | rfl

theorem within_memberGone (q : Nat) : Within [.ctl] (memberGone q) := by
  unfold memberGone
  repeat' first
    | with_reducible refine (within_takePodMeasure ..).wider ?_
    | with_reducible refine (within_wr64 ..).wider ?_
    | with_reducible refine (within_wrFld ..).wider ?_
    | with_reducible apply within_seq_cons
    | with_reducible exact within_seq_nil
    | with_reducible refine within_look fun _ => ?_
    | with_reducible refine within_each fun _ => ?_
    | with_reducible refine within_act ?_
    | rfl

theorem within_queueMessage (m : EvMsg) : Within [.ctl, .evQueue, .out] (queueMessage m) := by
  unfold queueMessage
  repeat' first
    | with_reducible refine (within_wrFld ..).wider ?_
    | with_reducible refine within_one ?_
    | with_reducible apply within_seq_cons
    | with_reducible exact within_seq_nil
    | with_reducible refine within_look fun _ => ?_
    | with_reducible refine within_act ?_
    | with_reducible refine within_ite ?_ ?_
    | rfl

theorem within_tellFleet (kind : Nat) (data : List Byte) : Within [.ctl, .evQueue, .out] (tellFleet kind data) := by
  unfold tellFleet
  repeat' first
    | with_reducible refine (within_queueMessage ..).wider ?_
    | with_reducible refine within_one ?_
    | rfl

theorem within_deputyTakes  : Within [.ctl, .core, .herd, .bx, .notices, .evQueue, .out] (deputyTakes) := by
  unfold deputyTakes
  repeat' first
    | with_reducible refine (within_failPodHerds ..).wider ?_
    | with_reducible refine (within_memberGone ..).wider ?_
    | with_reducible refine (within_sendFrame ..).wider ?_
    | with_reducible refine (within_tellFleet ..).wider ?_
    | with_reducible refine (within_wrBit ..).wider ?_
    | with_reducible refine within_one ?_
    | with_reducible apply within_seq_cons
    | with_reducible exact within_seq_nil
    | with_reducible refine within_look fun _ => ?_
    | with_reducible refine within_each fun _ => ?_
    | rfl

theorem within_actMarkerLost  : Within [.ctl, .rodBad, .core, .mem, .chk, .farMem, .packets, .bulkOpen, .bulkPend, .herd, .moves, .touched, .mergeBuf, .bx, .side, .coll, .mc, .notices, .snap, .dumpRun, .evQueue, .freeCtr, .out] (actMarkerLost) := by
  unfold actMarkerLost
  repeat' first
    | with_reducible refine (within_boundary ..).wider ?_
    | with_reducible refine (within_count ..).wider ?_
    | with_reducible refine (within_deputyTakes ..).wider ?_
    | with_reducible refine (within_raise ..).wider ?_
    | with_reducible refine (within_setIst ..).wider ?_
    | with_reducible refine (within_takeFree ..).wider ?_
    | with_reducible refine (within_wrBit ..).wider ?_
    | with_reducible refine (within_wrFld ..).wider ?_
    | with_reducible apply within_seq_cons
    | with_reducible exact within_seq_nil
    | with_reducible refine within_look fun _ => ?_
    | with_reducible refine within_act ?_
    | rfl

theorem within_actReport (from_ : SymPort) (bead : Nat) (slip : Bool) (votes : DWord) : Within [.ctl, .bx, .side, .dumpRun, .freeCtr, .out] (actReport from_ bead slip votes) := by
  unfold actReport
  repeat' first
    | with_reducible refine (within_slip ..).wider ?_
    | with_reducible refine within_symbolFrom rfl ?_
    | with_reducible refine (within_tryReport ..).wider ?_
    | with_reducible refine within_one ?_
    | with_reducible apply within_seq_cons
    | with_reducible exact within_seq_nil
    | with_reducible refine within_look fun _ => ?_
    | with_reducible refine within_act ?_
    | rfl

theorem within_actReportDeadline  : Within [.ctl, .bx, .side, .dumpRun, .freeCtr, .out] (actReportDeadline) := by
  unfold actReportDeadline
  repeat' first
    | with_reducible refine (within_sendReport ..).wider ?_
    | with_reducible refine (within_slip ..).wider ?_
    | with_reducible refine within_mapGetD fun _ => ?_
    | with_reducible refine within_one ?_
    | with_reducible apply within_seq_cons
    | with_reducible exact within_seq_nil
    | with_reducible refine within_look fun _ => ?_
    | with_reducible refine within_act ?_
    | rfl

theorem within_actResult (from_ : SymPort) (bead : Nat) (slip missing : Bool) (votes : DWord) : Within [.ctl, .side, .dumpRun, .freeCtr, .out] (actResult from_ bead slip missing votes) := by
  unfold actResult
  repeat' first
    | with_reducible refine (within_applySlip ..).wider ?_
    | with_reducible refine (within_applyVotes ..).wider ?_
    | with_reducible refine (within_forwardResult ..).wider ?_
    | with_reducible refine (within_slip ..).wider ?_
    | with_reducible refine within_symbolFrom rfl ?_
    | with_reducible apply within_seq_cons
    | with_reducible exact within_seq_nil
    | with_reducible refine within_look fun _ => ?_
    | with_reducible refine within_act ?_
    | rfl

theorem within_haltSymbol {ps : List Part} (hps : covers ps [.ctl, .dumpRun, .freeCtr, .out] = true) {h : HaltSym} {action : Nat} {leadOnly : Bool} {eff : Act} (heff : Within ps eff) : Within ps (haltSymbol h action leadOnly eff) := by
  unfold haltSymbol
  repeat' first
    | with_reducible exact heff
    | with_reducible exact (((within_sendHalt ..).wider (ps := [.ctl, .dumpRun, .freeCtr, .out]) rfl)).wider hps
    | with_reducible exact (((within_sendSym ..).wider (ps := [.ctl, .dumpRun, .freeCtr, .out]) rfl)).wider hps
    | with_reducible refine within_symbolFrom (covers_trans hps rfl) ?_
    | with_reducible apply within_seq_cons
    | with_reducible exact within_seq_nil
    | with_reducible refine within_look fun _ => ?_
    | with_reducible refine within_each fun _ => ?_
    | with_reducible refine within_act ?_
    | with_reducible refine within_ite ?_ ?_

theorem within_pausePodHerd (h : Nat) : Within [.ctl, .core] (pausePodHerd h) := by
  unfold pausePodHerd
  repeat' first
    | with_reducible refine (within_pauseHerd ..).wider ?_
    | with_reducible refine within_look fun _ => ?_
    | with_reducible refine within_act ?_
    | rfl

theorem within_actHaltPause (h : HaltSym) : Within [.ctl, .core, .dumpRun, .freeCtr, .out] (actHaltPause h) := by
  unfold actHaltPause
  repeat' first
    | with_reducible refine within_haltSymbol rfl ?_
    | with_reducible refine (within_pausePodHerd ..).wider ?_
    | rfl

theorem within_failPodHerd (h : Nat) : Within [.ctl, .core, .herd, .notices] (failPodHerd h) := by
  unfold failPodHerd
  repeat' first
    | with_reducible refine (within_failHere ..).wider ?_
    | with_reducible refine within_look fun _ => ?_
    | with_reducible refine within_act ?_
    | rfl

theorem within_actHaltFail (h : HaltSym) : Within [.ctl, .core, .herd, .notices, .dumpRun, .freeCtr, .out] (actHaltFail h) := by
  unfold actHaltFail
  repeat' first
    | with_reducible refine (within_failPodHerd ..).wider ?_
    | with_reducible refine within_haltSymbol rfl ?_
    | rfl

theorem within_resendFrom (n lseq : Nat) : Within [.ctl, .bx, .out] (resendFrom n lseq) := by
  unfold resendFrom
  repeat' first
    | with_reducible refine (within_putFrame ..).wider ?_
    | with_reducible refine (within_setBx ..).wider ?_
    | with_reducible apply within_seq_cons
    | with_reducible exact within_seq_nil
    | with_reducible refine within_look fun _ => ?_
    | with_reducible refine within_each fun _ => ?_
    | rfl

theorem within_setLinkStop (b : Bool) : Within [.ctl, .bx, .side, .out] (setLinkStop b) := by
  unfold setLinkStop
  repeat' first
    | with_reducible exact within_nop
    | with_reducible refine (within_flushFrames ..).wider ?_
    | with_reducible refine (within_resendFrom ..).wider ?_
    | with_reducible refine within_one ?_
    | with_reducible apply within_seq_cons
    | with_reducible exact within_seq_nil
    | with_reducible refine within_look fun _ => ?_
    | with_reducible refine within_each fun _ => ?_
    | with_reducible refine within_act ?_
    | rfl
    | split

theorem within_actHaltLinkStop (h : HaltSym) : Within [.ctl, .bx, .side, .dumpRun, .freeCtr, .out] (actHaltLinkStop h) := by
  unfold actHaltLinkStop
  repeat' first
    | with_reducible refine within_haltSymbol rfl ?_
    | with_reducible refine (within_setLinkStop ..).wider ?_
    | rfl

theorem within_actHaltLinkResume (h : HaltSym) : Within [.ctl, .bx, .side, .dumpRun, .freeCtr, .out] (actHaltLinkResume h) := by
  unfold actHaltLinkResume
  repeat' first
    | with_reducible refine within_haltSymbol rfl ?_
    | with_reducible refine (within_setLinkStop ..).wider ?_
    | rfl

/-! ## Link -/

theorem within_endOnPort (p : Nat) : Within [.ctl, .bx, .coll, .mc, .out] (endOnPort p) := by
  unfold endOnPort
  repeat' first
    | with_reducible refine (within_dropRequest ..).wider ?_
    | with_reducible refine within_one ?_
    | with_reducible apply within_seq_cons
    | with_reducible exact within_seq_nil
    | with_reducible refine within_look fun _ => ?_
    | with_reducible refine within_each fun _ => ?_
    | with_reducible refine within_ite ?_ ?_
    | rfl

theorem within_setLink (p st lanes : Nat) : Within [.ctl] (setLink p st lanes) := by
  unfold setLink
  repeat' first
    | with_reducible refine (within_wr ..).wider ?_
    | rfl

theorem within_putChars (a : Nat) (cs : List Byte) : Within [.ctl] (putChars a cs) := by
  unfold putChars
  repeat' first
    | with_reducible refine (within_wr ..).wider ?_
    | with_reducible refine within_each fun _ => ?_
    | rfl

theorem within_readCable (p : Nat) : Within [.ctl, .out] (readCable p) := by
  unfold readCable
  repeat' first
    | with_reducible exact within_nop
    | with_reducible refine (within_putChars ..).wider ?_
    | with_reducible refine (within_wr ..).wider ?_
    | with_reducible refine within_one ?_
    | with_reducible apply within_seq_cons
    | with_reducible exact within_seq_nil
    | with_reducible refine within_look fun _ => ?_
    | with_reducible refine within_ite ?_ ?_
    | rfl
    | split

theorem within_startTraining (p : Nat) : Within [.ctl, .out] (startTraining p) := by
  unfold startTraining
  repeat' first
    | with_reducible refine (within_readCable ..).wider ?_
    | with_reducible refine (within_setLink ..).wider ?_
    | with_reducible apply within_seq_cons
    | with_reducible exact within_seq_nil
    | rfl

theorem within_actLinkUp (p : Nat) (partner : Word) (delay : BitVec 16) : Within [.ctl, .bx, .dumpRun, .freeCtr, .out] (actLinkUp p partner delay) := by
  unfold actLinkUp
  repeat' first
    | with_reducible exact within_nop
    | with_reducible refine (within_count ..).wider ?_
    | with_reducible refine (within_raise ..).wider ?_
    | with_reducible refine (within_sendJoins ..).wider ?_
    | with_reducible refine (within_setIst ..).wider ?_
    | with_reducible refine (within_setLink ..).wider ?_
    | with_reducible refine (within_wr ..).wider ?_
    | with_reducible refine (within_wrFld ..).wider ?_
    | with_reducible refine within_one ?_
    | with_reducible apply within_seq_cons
    | with_reducible exact within_seq_nil
    | with_reducible refine within_look fun _ => ?_
    | with_reducible refine within_act ?_
    | with_reducible refine within_ite ?_ ?_
    | rfl

theorem within_portDown (p : Nat) : Within [.ctl, .bx, .coll, .mc, .dumpRun, .freeCtr, .out] (portDown p) := by
  unfold portDown
  repeat' first
    | with_reducible refine (within_count ..).wider ?_
    | with_reducible refine (within_endOnPort ..).wider ?_
    | with_reducible refine (within_raise ..).wider ?_
    | with_reducible refine (within_setIst ..).wider ?_
    | with_reducible refine (within_setLink ..).wider ?_
    | with_reducible refine (within_startTraining ..).wider ?_
    | with_reducible refine within_one ?_
    | with_reducible apply within_seq_cons
    | with_reducible exact within_seq_nil
    | with_reducible refine within_look fun _ => ?_
    | with_reducible refine within_ite ?_ ?_
    | rfl

theorem within_actLinkDown (p : Nat) : Within [.ctl, .bx, .coll, .mc, .dumpRun, .freeCtr, .out] (actLinkDown p) := by
  unfold actLinkDown
  repeat' first
    | with_reducible refine (within_portDown ..).wider ?_
    | with_reducible refine within_look fun _ => ?_
    | with_reducible refine within_act ?_
    | rfl

theorem within_linkCtrlWrite (p : Nat) (v : Word) : Within [.ctl, .bx, .coll, .mc, .dumpRun, .freeCtr, .out] (linkCtrlWrite p v) := by
  unfold linkCtrlWrite
  repeat' first
    | with_reducible refine (within_maskWrite ..).wider ?_
    | with_reducible refine (within_portDown ..).wider ?_
    | with_reducible refine (within_startTraining ..).wider ?_
    | with_reducible apply within_seq_cons
    | with_reducible exact within_seq_nil
    | with_reducible refine within_look fun _ => ?_
    | with_reducible refine within_act ?_
    | rfl

theorem within_dropUnconnected  : Within [.ctl, .bx, .coll, .mc, .dumpRun, .freeCtr, .out] (dropUnconnected) := by
  unfold dropUnconnected
  repeat' first
    | with_reducible refine (within_portDown ..).wider ?_
    | with_reducible refine (within_setLink ..).wider ?_
    | with_reducible apply within_seq_cons
    | with_reducible exact within_seq_nil
    | with_reducible refine within_look fun _ => ?_
    | with_reducible refine within_each fun _ => ?_
    | with_reducible refine within_act ?_
    | with_reducible refine within_ite ?_ ?_
    | rfl

theorem within_actLinkRetrain (r : Requester) (p : Nat) (v : Word) : Within [.ctl, .bx, .coll, .mc, .dumpRun, .freeCtr, .out] (actLinkRetrain r p v) := by
  unfold actLinkRetrain
  repeat' first
    | with_reducible refine within_guarded rfl ?_
    | with_reducible refine (within_linkCtrlWrite ..).wider ?_
    | rfl

theorem within_linkSym {ps : List Part} (_hps : covers ps [] = true) {from_ : SymPort} {body : Act} (hbody : Within ps body) : Within ps (linkSym from_ body) := by
  unfold linkSym
  repeat' first
    | with_reducible exact hbody
    | with_reducible refine within_look fun _ => ?_
    | with_reducible refine within_act ?_

theorem within_actLinkAck (from_ : SymPort) (lseq : BitVec 16) : Within [.ctl, .bx, .out] (actLinkAck from_ lseq) := by
  unfold actLinkAck
  repeat' first
    | with_reducible refine (within_flushFrames ..).wider ?_
    | with_reducible refine within_linkSym rfl ?_
    | with_reducible refine (within_setBx ..).wider ?_
    | with_reducible apply within_seq_cons
    | with_reducible exact within_seq_nil
    | with_reducible refine within_look fun _ => ?_
    | with_reducible refine within_act ?_
    | rfl

theorem within_actLinkReplay (from_ : SymPort) (lseq : BitVec 16) : Within [.ctl, .bx, .out] (actLinkReplay from_ lseq) := by
  unfold actLinkReplay
  repeat' first
    | with_reducible refine within_linkSym rfl ?_
    | with_reducible refine (within_resendFrom ..).wider ?_
    | with_reducible apply within_seq_cons
    | with_reducible exact within_seq_nil
    | rfl

theorem within_actLinkCredit (from_ : SymPort) (credits : List Nat) : Within [.ctl, .bx, .out] (actLinkCredit from_ credits) := by
  unfold actLinkCredit
  repeat' first
    | with_reducible refine (within_flushFrames ..).wider ?_
    | with_reducible refine within_linkSym rfl ?_
    | with_reducible refine (within_setBx ..).wider ?_
    | with_reducible refine within_mapGetD fun _ => ?_
    | with_reducible apply within_seq_cons
    | with_reducible exact within_seq_nil
    | rfl

theorem within_refuseFrame (p : Nat) : Within [.ctl, .dumpRun, .freeCtr] (refuseFrame p) := by
  unfold refuseFrame
  repeat' first
    | with_reducible refine (within_count ..).wider ?_
    | with_reducible refine (within_raise ..).wider ?_
    | with_reducible apply within_seq_cons
    | with_reducible exact within_seq_nil
    | rfl

theorem within_askAgain (p : Nat) : Within [.bx, .out] (askAgain p) := by
  unfold askAgain
  repeat' first
    | with_reducible refine (within_sendSym ..).wider ?_
    | with_reducible refine (within_setBx ..).wider ?_
    | with_reducible apply within_seq_cons
    | with_reducible exact within_seq_nil
    | with_reducible refine within_look fun _ => ?_
    | with_reducible refine within_act ?_
    | rfl

theorem within_arrived {ps : List Part} (hps : covers ps [.ctl, .bx, .out] = true) {p : Nat} {lseq : Nat} {crcOk : Bool} {body : Act} (hbody : Within ps body) : Within ps (arrived p lseq crcOk body) := by
  unfold arrived
  repeat' first
    | with_reducible exact within_nop
    | with_reducible exact hbody
    | with_reducible exact (((within_askAgain ..).wider (ps := [.ctl, .bx, .out]) rfl)).wider hps
    | with_reducible exact (((within_count ..).wider (ps := [.ctl, .bx, .out]) rfl)).wider hps
    | with_reducible exact (((within_sendSym ..).wider (ps := [.ctl, .bx, .out]) rfl)).wider hps
    | with_reducible exact (((within_setBx ..).wider (ps := [.ctl, .bx, .out]) rfl)).wider hps
    | with_reducible apply within_seq_cons
    | with_reducible exact within_seq_nil
    | with_reducible refine within_look fun _ => ?_
    | with_reducible refine within_ite ?_ ?_

theorem within_returnCredit (p type len : Nat) : Within [.out] (returnCredit p type len) := by
  unfold returnCredit
  repeat' first
    | with_reducible refine (within_sendSym ..).wider ?_
    | rfl

theorem within_received {ps : List Part} (hps : covers ps [.ctl, .bx, .out] = true) {p : Nat} {lseq : Nat} {crcOk : Bool} {type : Nat} {len : Nat} {body : Act} (hbody : Within ps body) : Within ps (received p lseq crcOk type len body) := by
  unfold received
  repeat' first
    | with_reducible exact hbody
    | with_reducible refine within_arrived (covers_trans hps rfl) ?_
    | with_reducible exact (((within_returnCredit ..).wider (ps := [.ctl, .bx, .out]) rfl)).wider hps
    | with_reducible apply within_seq_cons
    | with_reducible exact within_seq_nil

theorem within_refuseAux (f : FrameHdr) (type len : Nat) : Within [.ctl, .bx, .dumpRun, .freeCtr, .out] (refuseAux f type len) := by
  unfold refuseAux
  repeat' first
    | with_reducible refine within_received rfl ?_
    | with_reducible refine (within_refuseFrame ..).wider ?_
    | with_reducible apply within_seq_cons
    | with_reducible exact within_seq_nil
    | rfl

theorem within_rxTorus {ps : List Part} (hps : covers ps [.ctl, .bx, .dumpRun, .freeCtr, .out] = true) {f : FrameHdr} {type : Nat} {len : Nat} {ok : State → Bool} {body : Act} (hbody : Within ps body) : Within ps (rxTorus f type len ok body) := by
  unfold rxTorus
  repeat' first
    | with_reducible exact within_nop
    | with_reducible exact hbody
    | with_reducible refine within_received (covers_trans hps rfl) ?_
    | with_reducible exact (((within_refuseAux ..).wider (ps := [.ctl, .bx, .dumpRun, .freeCtr, .out]) rfl)).wider hps
    | with_reducible exact (((within_refuseFrame ..).wider (ps := [.ctl, .bx, .dumpRun, .freeCtr, .out]) rfl)).wider hps
    | with_reducible apply within_seq_cons
    | with_reducible exact within_seq_nil
    | with_reducible refine within_look fun _ => ?_
    | with_reducible refine within_ite ?_ ?_

theorem within_rxWaiting {ps : List Part} (hps : covers ps [.ctl, .bx, .dumpRun, .freeCtr, .out] = true) {x : HeldFrame} {ok : State → Bool} {waits : State → HeldFrame → Bool} {take : HeldFrame → Act} (htake : ∀ x0, Within ps (take x0)) : Within ps (rxWaiting x ok waits take) := by
  unfold rxWaiting
  repeat' first
    | with_reducible exact within_nop
    | with_reducible exact htake _
    | with_reducible refine within_arrived (covers_trans hps rfl) ?_
    | with_reducible refine within_received (covers_trans hps rfl) ?_
    | with_reducible exact (((within_refuseAux ..).wider (ps := [.ctl, .bx, .dumpRun, .freeCtr, .out]) rfl)).wider hps
    | with_reducible exact (((within_refuseFrame ..).wider (ps := [.ctl, .bx, .dumpRun, .freeCtr, .out]) rfl)).wider hps
    | with_reducible exact (((within_setBx ..).wider (ps := [.ctl, .bx, .dumpRun, .freeCtr, .out]) rfl)).wider hps
    | with_reducible apply within_seq_cons
    | with_reducible exact within_seq_nil
    | with_reducible refine within_look fun _ => ?_
    | with_reducible refine within_ite ?_ ?_

theorem within_serveHeld {ps : List Part} (hps : covers ps [.bx, .out] = true) {p : Nat} {waits : State → HeldFrame → Bool}
    {take : HeldFrame → Act} {n : Nat} (ht : ∀ x, Within ps (take x)) : Within ps (serveHeld p waits take n) := by
  have hBx : ∀ f, Within ps (setBx p f) := fun f => ((within_setBx p f).wider (ps := [.bx, .out]) rfl).wider hps
  have hRet : ∀ c k, Within ps (returnCredit p c k) := fun c k => ((within_returnCredit p c k).wider (ps := [.bx, .out]) rfl).wider hps
  induction n with
  | zero => exact within_nop
  | succ n ih =>
    unfold serveHeld
    refine within_look fun s => ?_
    split
    · exact within_nop
    · exact within_seq_cons (hBx _) (within_seq_cons (hRet _ _) (within_seq_cons (ht _) (within_seq_cons ih within_seq_nil)))

theorem within_serveAll {ps : List Part} (hps : covers ps [.bx, .out] = true) {waits : State → HeldFrame → Bool} {take : HeldFrame → Act} (htake : ∀ x0, Within ps (take x0)) : Within ps (serveAll waits take) := by
  unfold serveAll
  repeat' first
    | with_reducible exact htake _
    | with_reducible refine within_serveHeld (covers_trans hps rfl) (fun _ => ?_)
    | with_reducible refine within_look fun _ => ?_
    | with_reducible refine within_each fun _ => ?_

theorem within_actFrameForward (f : FrameHdr) (type : BitVec 8) (data : List Byte) : Within [.ctl, .bx, .dumpRun, .freeCtr, .out] (actFrameForward f type data) := by
  unfold actFrameForward
  repeat' first
    | with_reducible exact within_nop
    | with_reducible refine (within_askAgain ..).wider ?_
    | with_reducible refine (within_giveFrame ..).wider ?_
    | with_reducible refine within_received rfl ?_
    | with_reducible refine (within_refuseAux ..).wider ?_
    | with_reducible refine within_one ?_
    | with_reducible apply within_seq_cons
    | with_reducible exact within_seq_nil
    | with_reducible refine within_look fun _ => ?_
    | with_reducible refine within_act ?_
    | with_reducible refine within_ite ?_ ?_
    | rfl
    | split

theorem within_actFlag (f : FrameHdr) (index : BitVec 8) (set : Bool) : Within [.ctl, .packets, .bx, .dumpRun, .freeCtr, .out] (actFlag f index set) := by
  unfold actFlag
  repeat' first
    | with_reducible refine (within_flagAll ..).wider ?_
    | with_reducible refine within_rxTorus rfl ?_
    | with_reducible refine (within_sendFrame ..).wider ?_
    | with_reducible apply within_seq_cons
    | with_reducible exact within_seq_nil
    | with_reducible refine within_look fun _ => ?_
    | with_reducible refine within_each fun _ => ?_
    | with_reducible refine within_act ?_
    | with_reducible refine within_ite ?_ ?_
    | rfl

theorem within_takePeriod (value : Nat) (atBead : DWord) : Within [.ctl, .dumpRun, .freeCtr] (takePeriod value atBead) := by
  unfold takePeriod
  repeat' first
    | with_reducible refine (within_beadNextWrite ..).wider ?_
    | with_reducible refine (within_wr64 ..).wider ?_
    | with_reducible apply within_seq_cons
    | with_reducible exact within_seq_nil
    | rfl

theorem within_actPeriod (f : FrameHdr) (value : Nat) (atBead : DWord) : Within [.ctl, .bx, .dumpRun, .freeCtr, .out] (actPeriod f value atBead) := by
  unfold actPeriod
  repeat' first
    | with_reducible refine within_rxTorus rfl ?_
    | with_reducible refine (within_takePeriod ..).wider ?_
    | rfl

theorem within_actJoin (f : FrameHdr) (bead : DWord) : Within [.ctl, .bx, .side, .dumpRun, .freeCtr, .out] (actJoin f bead) := by
  unfold actJoin
  repeat' first
    | with_reducible refine within_rxTorus rfl ?_
    | with_reducible refine within_one ?_
    | with_reducible refine within_look fun _ => ?_
    | with_reducible refine within_act ?_
    | rfl

theorem within_actMdown (f : FrameHdr) (pos : BitVec 6) : Within [.ctl, .bx, .dumpRun, .freeCtr, .out] (actMdown f pos) := by
  unfold actMdown
  repeat' first
    | with_reducible refine (within_memberGone ..).wider ?_
    | with_reducible refine within_rxTorus rfl ?_
    | with_reducible refine within_one ?_
    | rfl

theorem within_actCableInsert (p : Nat) (ident media length : Byte) (readOk : Bool) (vendor part serial : List Byte) : Within [.ctl, .cable, .out] (actCableInsert p ident media length readOk vendor part serial) := by
  unfold actCableInsert
  repeat' first
    | with_reducible refine (within_readCable ..).wider ?_
    | with_reducible refine (within_setIst ..).wider ?_
    | with_reducible refine within_one ?_
    | with_reducible apply within_seq_cons
    | with_reducible exact within_seq_nil
    | rfl

theorem within_actCableRemove (p : Nat) : Within [.ctl, .cable] (actCableRemove p) := by
  unfold actCableRemove
  repeat' first
    | with_reducible refine (within_setIst ..).wider ?_
    | with_reducible refine (within_wr ..).wider ?_
    | with_reducible refine within_one ?_
    | with_reducible apply within_seq_cons
    | with_reducible exact within_seq_nil
    | rfl

/-! ## Collective -/

theorem within_runPasses (h cid n : Nat) : Within [.ctl, .core, .bx, .coll, .dumpRun, .freeCtr, .out] (runPasses h cid n) := by
  induction n with
  | zero => exact within_nop
  | succ n ih =>
    unfold runPasses
    refine within_look fun s => ?_
    split
    · exact within_nop
    · split
      · exact (within_setColl ..).wider rfl
      · dsimp only
        refine within_ite ?_ (within_ite ?_ within_nop)
        · exact within_seq_cons (within_each fun _ => (within_giveFrame ..).wider rfl)
            (within_seq_cons ((within_setColl ..).wider rfl) (within_seq_cons ih within_seq_nil))
        · exact within_seq_cons ((within_setColl ..).wider rfl) (within_seq_cons ih within_seq_nil)

theorem within_actCollectiveTake (h : Nat) : Within [.ctl, .mem, .chk, .ringFail, .touched, .mergeBuf, .coll, .aborts, .dumpRun, .freeCtr] (actCollectiveTake h) := by
  unfold actCollectiveTake
  repeat' first
    | with_reducible exact within_nop
    | with_reducible refine (within_engActs ..).wider ?_
    | with_reducible refine (within_pollRing ..).wider ?_
    | with_reducible refine (within_wr ..).wider ?_
    | with_reducible refine within_one ?_
    | with_reducible apply within_seq_cons
    | with_reducible exact within_seq_nil
    | with_reducible refine within_look fun _ => ?_
    | with_reducible refine within_act ?_
    | with_reducible refine within_ite ?_ ?_
    | rfl
    | split

theorem within_cMaskActs (c : Collective) : Within [.ctl, .mem, .chk, .touched, .mergeBuf, .dumpRun, .freeCtr] (cMaskActs c) := by
  unfold cMaskActs
  repeat' first
    | with_reducible exact within_nop
    | with_reducible refine (within_engActs ..).wider ?_
    | with_reducible refine within_one ?_
    | with_reducible apply within_seq_cons
    | with_reducible exact within_seq_nil
    | with_reducible refine within_look fun _ => ?_
    | with_reducible refine within_each fun _ => ?_
    | with_reducible refine within_act ?_
    | rfl
    | split

theorem within_linkReport (h : Nat) : Within [.ctl, .herd] (linkReport h) := by
  unfold linkReport
  repeat' first
    | with_reducible refine (within_setHerd ..).wider ?_
    | with_reducible refine (within_setIst ..).wider ?_
    | with_reducible refine (within_wrBit ..).wider ?_
    | with_reducible apply within_seq_cons
    | with_reducible exact within_seq_nil
    | with_reducible refine within_look fun _ => ?_
    | with_reducible refine within_each fun _ => ?_
    | with_reducible refine within_ite ?_ ?_
    | rfl

theorem within_failStart (c : Collective) (st : Nat) : Within [.coll] (failStart c st) := by
  unfold failStart
  repeat' first
    | with_reducible refine (within_setColl ..).wider ?_
    | rfl

theorem within_startPasses (h kind : Nat) : Within [.ctl, .core, .mem, .chk, .herd, .touched, .mergeBuf, .bx, .coll, .dumpRun, .freeCtr, .out] (startPasses h kind) := by
  unfold startPasses
  repeat' first
    | with_reducible exact within_nop
    | with_reducible refine (within_cMaskActs ..).wider ?_
    | with_reducible refine (within_engActs ..).wider ?_
    | with_reducible refine (within_failStart ..).wider ?_
    | with_reducible refine (within_linkReport ..).wider ?_
    | with_reducible refine (within_runPasses ..).wider ?_
    | with_reducible refine (within_setColl ..).wider ?_
    | with_reducible refine within_one ?_
    | with_reducible apply within_seq_cons
    | with_reducible exact within_seq_nil
    | with_reducible refine within_look fun _ => ?_
    | with_reducible refine within_each fun _ => ?_
    | with_reducible refine within_act ?_
    | with_reducible refine within_ite ?_ ?_
    | rfl
    | split
    | dsimp only

theorem within_actSend (h : Nat) : Within [.ctl, .mem, .chk, .farMem, .touched, .mergeBuf, .bx, .coll, .dumpRun, .freeCtr, .out] (actSend h) := by
  unfold actSend
  repeat' first
    | with_reducible exact within_nop
    | with_reducible refine (within_engActs ..).wider ?_
    | with_reducible refine (within_failStart ..).wider ?_
    | with_reducible refine (within_sendFrame ..).wider ?_
    | with_reducible refine (within_setColl ..).wider ?_
    | with_reducible refine (within_urWrite ..).wider ?_
    | with_reducible refine within_one ?_
    | with_reducible apply within_seq_cons
    | with_reducible exact within_seq_nil
    | with_reducible refine within_look fun _ => ?_
    | with_reducible refine within_each fun _ => ?_
    | with_reducible refine within_ite ?_ ?_
    | rfl
    | split
    | dsimp only

theorem within_takeWr (x : HeldFrame) : Within [.ctl, .mem, .chk, .farMem, .touched, .mergeBuf, .dumpRun, .freeCtr, .out] (takeWr x) := by
  unfold takeWr
  repeat' first
    | with_reducible refine (within_engActs ..).wider ?_
    | with_reducible refine (within_raise ..).wider ?_
    | with_reducible refine (within_urWrite ..).wider ?_
    | with_reducible refine within_one ?_
    | with_reducible refine within_look fun _ => ?_
    | with_reducible refine within_ite ?_ ?_
    | rfl
    | split

theorem within_actWr (f : FrameHdr) (data : List Byte) : Within [.ctl, .mem, .chk, .farMem, .touched, .mergeBuf, .bx, .dumpRun, .freeCtr, .out] (actWr f data) := by
  unfold actWr
  repeat' first
    | with_reducible refine within_rxWaiting rfl (fun _ => ?_)
    | with_reducible refine (within_takeWr ..).wider ?_
    | with_reducible refine within_one ?_
    | rfl

theorem within_takeSums (c : Collective) (i : Nat) (f : FrameHdr) (data : List Byte) : Within [.ctl, .herd, .bx, .coll, .out] (takeSums c i f data) := by
  unfold takeSums
  repeat' first
    | with_reducible refine (within_giveFrame ..).wider ?_
    | with_reducible refine (within_linkReport ..).wider ?_
    | with_reducible refine (within_setColl ..).wider ?_
    | with_reducible apply within_seq_cons
    | with_reducible exact within_seq_nil
    | with_reducible refine within_look fun _ => ?_
    | with_reducible refine within_act ?_
    | with_reducible refine within_ite ?_ ?_
    | rfl

theorem within_takeResults (c : Collective) (i : Nat) (f : FrameHdr) (data : List Byte) : Within [.ctl, .bx, .coll, .out] (takeResults c i f data) := by
  unfold takeResults
  repeat' first
    | with_reducible refine (within_giveFrame ..).wider ?_
    | with_reducible refine (within_setColl ..).wider ?_
    | with_reducible apply within_seq_cons
    | with_reducible exact within_seq_nil
    | with_reducible refine within_look fun _ => ?_
    | with_reducible refine within_ite ?_ ?_
    | rfl

theorem within_takePass (x : HeldFrame) : Within [.ctl, .core, .herd, .bx, .coll, .dumpRun, .freeCtr, .out] (takePass x) := by
  unfold takePass
  repeat' first
    | with_reducible exact within_nop
    | with_reducible refine (within_runPasses ..).wider ?_
    | with_reducible refine (within_setColl ..).wider ?_
    | with_reducible refine (within_takeResults ..).wider ?_
    | with_reducible refine (within_takeSums ..).wider ?_
    | with_reducible refine within_one ?_
    | with_reducible apply within_seq_cons
    | with_reducible exact within_seq_nil
    | with_reducible refine within_look fun _ => ?_
    | with_reducible refine within_ite ?_ ?_
    | rfl
    | split
    | dsimp only

theorem within_servePasses  : Within [.ctl, .core, .herd, .bx, .coll, .dumpRun, .freeCtr, .out] (servePasses) := by
  unfold servePasses
  repeat' first
    | with_reducible refine within_serveAll rfl (fun _ => ?_)
    | with_reducible refine (within_takePass ..).wider ?_
    | rfl

theorem within_actRedFrame (f : FrameHdr) (data : List Byte) : Within [.ctl, .core, .herd, .bx, .coll, .dumpRun, .freeCtr, .out] (actRedFrame f data) := by
  unfold actRedFrame
  repeat' first
    | with_reducible refine within_rxWaiting rfl (fun _ => ?_)
    | with_reducible refine (within_servePasses ..).wider ?_
    | with_reducible refine (within_takePass ..).wider ?_
    | with_reducible refine within_one ?_
    | with_reducible apply within_seq_cons
    | with_reducible exact within_seq_nil
    | rfl

theorem within_actGat (f : FrameHdr) (data : List Byte) : Within [.ctl, .core, .herd, .bx, .coll, .dumpRun, .freeCtr, .out] (actGat f data) := by
  unfold actGat
  repeat' first
    | with_reducible refine within_rxWaiting rfl (fun _ => ?_)
    | with_reducible refine (within_servePasses ..).wider ?_
    | with_reducible refine (within_takePass ..).wider ?_
    | with_reducible refine within_one ?_
    | with_reducible apply within_seq_cons
    | with_reducible exact within_seq_nil
    | rfl

theorem within_actReduceScatter (h : Nat) : Within [.ctl, .core, .mem, .chk, .herd, .touched, .mergeBuf, .bx, .coll, .dumpRun, .freeCtr, .out] (actReduceScatter h) := by
  unfold actReduceScatter
  repeat' first
    | with_reducible refine (within_servePasses ..).wider ?_
    | with_reducible refine (within_startPasses ..).wider ?_
    | with_reducible apply within_seq_cons
    | with_reducible exact within_seq_nil
    | rfl

theorem within_actAllReduce (h : Nat) : Within [.ctl, .core, .mem, .chk, .herd, .touched, .mergeBuf, .bx, .coll, .dumpRun, .freeCtr, .out] (actAllReduce h) := by
  unfold actAllReduce
  repeat' first
    | with_reducible refine (within_servePasses ..).wider ?_
    | with_reducible refine (within_startPasses ..).wider ?_
    | with_reducible apply within_seq_cons
    | with_reducible exact within_seq_nil
    | rfl

theorem within_actAllGather (h : Nat) : Within [.ctl, .core, .mem, .chk, .herd, .touched, .mergeBuf, .bx, .coll, .dumpRun, .freeCtr, .out] (actAllGather h) := by
  unfold actAllGather
  repeat' first
    | with_reducible refine (within_servePasses ..).wider ?_
    | with_reducible refine (within_startPasses ..).wider ?_
    | with_reducible apply within_seq_cons
    | with_reducible exact within_seq_nil
    | rfl

theorem within_actBroadcast (h : Nat) : Within [.ctl, .core, .mem, .chk, .herd, .touched, .mergeBuf, .bx, .coll, .dumpRun, .freeCtr, .out] (actBroadcast h) := by
  unfold actBroadcast
  repeat' first
    | with_reducible refine (within_servePasses ..).wider ?_
    | with_reducible refine (within_startPasses ..).wider ?_
    | with_reducible apply within_seq_cons
    | with_reducible exact within_seq_nil
    | rfl

theorem within_actReduce (h : Nat) : Within [.ctl, .core, .mem, .chk, .herd, .touched, .mergeBuf, .bx, .coll, .dumpRun, .freeCtr, .out] (actReduce h) := by
  unfold actReduce
  repeat' first
    | with_reducible refine (within_servePasses ..).wider ?_
    | with_reducible refine (within_startPasses ..).wider ?_
    | with_reducible apply within_seq_cons
    | with_reducible exact within_seq_nil
    | rfl

theorem within_takeRequest (src cid h count : Nat) : Within [.ctl, .bx, .coll, .mc, .out] (takeRequest src cid h count) := by
  unfold takeRequest
  repeat' first
    | with_reducible refine (within_count ..).wider ?_
    | with_reducible refine (within_grantWaiting ..).wider ?_
    | with_reducible refine within_one ?_
    | with_reducible apply within_seq_cons
    | with_reducible exact within_seq_nil
    | with_reducible refine within_look fun _ => ?_
    | rfl

theorem within_actMulticast (h : Nat) : Within [.ctl, .bx, .coll, .mc, .out] (actMulticast h) := by
  unfold actMulticast
  repeat' first
    | with_reducible exact within_nop
    | with_reducible refine (within_failStart ..).wider ?_
    | with_reducible refine (within_sendFrame ..).wider ?_
    | with_reducible refine (within_setColl ..).wider ?_
    | with_reducible refine (within_takeRequest ..).wider ?_
    | with_reducible refine within_one ?_
    | with_reducible apply within_seq_cons
    | with_reducible exact within_seq_nil
    | with_reducible refine within_look fun _ => ?_
    | with_reducible refine within_each fun _ => ?_
    | with_reducible refine within_act ?_
    | with_reducible refine within_ite ?_ ?_
    | rfl
    | split

theorem within_actMreq (f : McRequest) : Within [.ctl, .bx, .coll, .mc, .dumpRun, .freeCtr, .out] (actMreq f) := by
  unfold actMreq
  repeat' first
    | with_reducible refine within_rxTorus rfl ?_
    | with_reducible refine (within_takeRequest ..).wider ?_
    | rfl

theorem within_actMgnt (f : FrameHdr) : Within [.ctl, .bx, .coll, .dumpRun, .freeCtr, .out] (actMgnt f) := by
  unfold actMgnt
  repeat' first
    | with_reducible refine within_rxTorus rfl ?_
    | with_reducible refine (within_takeGrant ..).wider ?_
    | rfl

theorem within_actMrel (f : FrameHdr) : Within [.ctl, .bx, .coll, .mc, .dumpRun, .freeCtr, .out] (actMrel f) := by
  unfold actMrel
  repeat' first
    | with_reducible refine (within_dropRequest ..).wider ?_
    | with_reducible refine within_rxTorus rfl ?_
    | rfl

theorem within_takeDone (h cid pos : Nat) (own : Bool) : Within [.coll] (takeDone h cid pos own) := by
  unfold takeDone
  repeat' first
    | with_reducible exact within_nop
    | with_reducible refine (within_setColl ..).wider ?_
    | with_reducible refine within_one ?_
    | with_reducible refine within_look fun _ => ?_
    | with_reducible refine within_act ?_
    | with_reducible refine within_ite ?_ ?_
    | rfl
    | split

theorem within_actMdone (f : FrameHdr) : Within [.ctl, .bx, .coll, .dumpRun, .freeCtr, .out] (actMdone f) := by
  unfold actMdone
  repeat' first
    | with_reducible refine within_rxTorus rfl ?_
    | with_reducible refine (within_takeDone ..).wider ?_
    | with_reducible refine within_one ?_
    | rfl

theorem within_writeMulticast (g : McGrant) (dst : Nat) (bs : List Byte) : Within [.ctl, .mem, .chk, .farMem, .touched, .mergeBuf, .bx, .coll, .mc, .dumpRun, .freeCtr, .out] (writeMulticast g dst bs) := by
  unfold writeMulticast
  repeat' first
    | with_reducible exact within_nop
    | with_reducible refine (within_dropRequest ..).wider ?_
    | with_reducible refine (within_engActs ..).wider ?_
    | with_reducible refine (within_sendFrame ..).wider ?_
    | with_reducible refine (within_setColl ..).wider ?_
    | with_reducible refine (within_takeDone ..).wider ?_
    | with_reducible refine (within_urWrite ..).wider ?_
    | with_reducible refine within_one ?_
    | with_reducible apply within_seq_cons
    | with_reducible exact within_seq_nil
    | with_reducible refine within_look fun _ => ?_
    | with_reducible refine within_ite ?_ ?_
    | rfl
    | split

theorem within_takeData (h src cid dst off : Nat) (bs : List Byte) : Within [.ctl, .mem, .chk, .farMem, .touched, .mergeBuf, .bx, .coll, .mc, .dumpRun, .freeCtr, .out] (takeData h src cid dst off bs) := by
  unfold takeData
  repeat' first
    | with_reducible exact within_nop
    | with_reducible refine (within_writeMulticast ..).wider ?_
    | with_reducible refine within_one ?_
    | with_reducible refine within_look fun _ => ?_
    | with_reducible refine within_ite ?_ ?_
    | rfl
    | split

theorem within_actMulticastSend (h : Nat) : Within [.ctl, .mem, .chk, .farMem, .touched, .mergeBuf, .bx, .coll, .mc, .dumpRun, .freeCtr, .out] (actMulticastSend h) := by
  unfold actMulticastSend
  repeat' first
    | with_reducible exact within_nop
    | with_reducible refine (within_engActs ..).wider ?_
    | with_reducible refine (within_sendFrame ..).wider ?_
    | with_reducible refine (within_setColl ..).wider ?_
    | with_reducible refine (within_takeData ..).wider ?_
    | with_reducible refine within_one ?_
    | with_reducible apply within_seq_cons
    | with_reducible exact within_seq_nil
    | with_reducible refine within_look fun _ => ?_
    | with_reducible refine within_each fun _ => ?_
    | with_reducible refine within_act ?_
    | with_reducible refine within_ite ?_ ?_
    | rfl
    | split

theorem within_takeMcd (x : HeldFrame) : Within [.ctl, .mem, .chk, .farMem, .touched, .mergeBuf, .bx, .coll, .mc, .dumpRun, .freeCtr, .out] (takeMcd x) := by
  unfold takeMcd
  repeat' first
    | with_reducible exact within_nop
    | with_reducible refine (within_dropRequest ..).wider ?_
    | with_reducible refine (within_giveFrame ..).wider ?_
    | with_reducible refine (within_sendFrame ..).wider ?_
    | with_reducible refine (within_takeData ..).wider ?_
    | with_reducible refine within_one ?_
    | with_reducible apply within_seq_cons
    | with_reducible exact within_seq_nil
    | with_reducible refine within_look fun _ => ?_
    | with_reducible refine within_act ?_
    | with_reducible refine within_ite ?_ ?_
    | rfl
    | split

theorem within_actMcd (f : FrameHdr) (data : List Byte) : Within [.ctl, .mem, .chk, .farMem, .touched, .mergeBuf, .bx, .coll, .mc, .dumpRun, .freeCtr, .out] (actMcd f data) := by
  unfold actMcd
  repeat' first
    | with_reducible refine within_rxWaiting rfl (fun _ => ?_)
    | with_reducible refine (within_takeMcd ..).wider ?_
    | with_reducible refine within_one ?_
    | rfl

theorem within_actAbort (f : FrameHdr) : Within [.ctl, .bx, .coll, .mc, .aborts, .dumpRun, .freeCtr, .out] (actAbort f) := by
  unfold actAbort
  repeat' first
    | with_reducible refine (within_dropRequest ..).wider ?_
    | with_reducible refine within_rxTorus rfl ?_
    | with_reducible refine within_one ?_
    | with_reducible apply within_seq_cons
    | with_reducible exact within_seq_nil
    | with_reducible refine within_look fun _ => ?_
    | with_reducible refine within_act ?_
    | with_reducible refine within_ite ?_ ?_
    | rfl

theorem within_endCollective (c : Collective) (st : Nat) : Within [.ctl, .mem, .chk, .farMem, .packets, .touched, .mergeBuf, .bx, .coll, .ended, .dumpRun, .freeCtr, .out] (endCollective c st) := by
  unfold endCollective
  repeat' first
    | with_reducible refine (within_haltRing ..).wider ?_
    | with_reducible refine (within_notifyCore ..).wider ?_
    | with_reducible refine (within_putRecord ..).wider ?_
    | with_reducible refine (within_raise ..).wider ?_
    | with_reducible refine (within_sendFrame ..).wider ?_
    | with_reducible refine (within_setIst ..).wider ?_
    | with_reducible refine (within_urWrite ..).wider ?_
    | with_reducible refine within_one ?_
    | with_reducible apply within_seq_cons
    | with_reducible exact within_seq_nil
    | with_reducible refine within_look fun _ => ?_
    | with_reducible refine within_each fun _ => ?_
    | with_reducible refine within_act ?_
    | with_reducible refine within_ite ?_ ?_
    | rfl

theorem within_actCollectiveEnd (h : Nat) (st : BitVec 8) : Within [.ctl, .mem, .chk, .farMem, .packets, .touched, .mergeBuf, .bx, .coll, .ended, .dumpRun, .freeCtr, .out] (actCollectiveEnd h st) := by
  unfold actCollectiveEnd
  repeat' first
    | with_reducible exact within_nop
    | with_reducible refine (within_endCollective ..).wider ?_
    | with_reducible refine within_one ?_
    | with_reducible refine within_look fun _ => ?_
    | with_reducible refine within_act ?_
    | rfl
    | split

/-! ## Dump -/

theorem within_beginDump (reason herd : Nat) (only : Bool) (cmd : Option Asker) (dest : Nat) : Within [.ctl, .dumpRun] (beginDump reason herd only cmd dest) := by
  unfold beginDump
  repeat' first
    | with_reducible refine (within_wrBit ..).wider ?_
    | with_reducible refine within_one ?_
    | with_reducible apply within_seq_cons
    | with_reducible exact within_seq_nil
    | with_reducible refine within_look fun _ => ?_
    | rfl

theorem within_dumpCtlWrite (r : Requester) (v : Word) : Within [.ctl, .dumpRun, .freeCtr] (dumpCtlWrite r v) := by
  unfold dumpCtlWrite
  repeat' first
    | with_reducible refine (within_beginDump ..).wider ?_
    | with_reducible refine (within_maskWrite ..).wider ?_
    | with_reducible refine (within_protocolAt ..).wider ?_
    | with_reducible refine within_one ?_
    | with_reducible apply within_seq_cons
    | with_reducible exact within_seq_nil
    | with_reducible refine within_look fun _ => ?_
    | with_reducible refine within_act ?_
    | with_reducible refine within_ite ?_ ?_
    | rfl

theorem within_actDumpGo (r : Requester) (v : Word) : Within [.ctl, .dumpRun, .freeCtr] (actDumpGo r v) := by
  unfold actDumpGo
  repeat' first
    | with_reducible refine (within_dumpCtlWrite ..).wider ?_
    | with_reducible refine within_guarded rfl ?_
    | rfl

theorem within_actDumpEnd  : Within [.ctl, .mem, .chk, .farMem, .touched, .mergeBuf, .bx, .hcmd, .completions, .dumpRun, .freeCtr, .out] (actDumpEnd) := by
  unfold actDumpEnd
  repeat' first
    | with_reducible exact within_nop
    | with_reducible refine (within_answer ..).wider ?_
    | with_reducible refine (within_devWrite ..).wider ?_
    | with_reducible refine (within_engActs ..).wider ?_
    | with_reducible refine (within_setIst ..).wider ?_
    | with_reducible refine (within_urWrite ..).wider ?_
    | with_reducible refine (within_wr ..).wider ?_
    | with_reducible refine (within_wrBit ..).wider ?_
    | with_reducible refine within_one ?_
    | with_reducible apply within_seq_cons
    | with_reducible exact within_seq_nil
    | with_reducible refine within_look fun _ => ?_
    | with_reducible refine within_ite ?_ ?_
    | rfl
    | split

theorem within_dumpBody (dest : Nat) (a : Asker) (h : Nat) : Within [.ctl, .bx, .hcmd, .completions, .dumpRun, .freeCtr, .out] (dumpBody dest a h) := by
  unfold dumpBody
  repeat' first
    | with_reducible refine (within_answer ..).wider ?_
    | with_reducible refine (within_beginDump ..).wider ?_
    | with_reducible refine within_look fun _ => ?_
    | with_reducible refine within_ite ?_ ?_
    | rfl

theorem within_actDump (c : CmdId) (dest : DWord) : Within [.ctl, .bx, .hcmd, .htag, .busyRing, .completions, .fnTurn, .dumpRun, .freeCtr, .out] (actDump c dest) := by
  unfold actDump
  repeat' first
    | with_reducible exact within_nop
    | with_reducible refine (within_dumpBody ..).wider ?_
    | with_reducible refine within_herdCmd rfl (fun _ _ => ?_)
    | with_reducible refine within_look fun _ => ?_
    | with_reducible refine within_ite ?_ ?_
    | rfl

end Sys2Proof.Machine
end

