-- ==== Sys2Proof/Laws/FrameHost.lean ====
section
/-! SUPPORT. The fields that each act can change: herds, host resets, snapshots and restores. One lemma for an act; no proof about frames needs to unfold it again. -/

namespace Sys2Proof.Machine

/-! ## Herds -/

theorem within_clearCore (site : Nat) : Within [.ctl, .store, .rod, .storeBad, .rodBad, .vreg, .acc, .core] (clearCore site) := by
  unfold clearCore
  repeat' first
    | with_reducible refine (within_clearTallies ..).wider ?_
    | with_reducible refine (within_rodClear ..).wider ?_
    | with_reducible refine (within_setCore ..).wider ?_
    | with_reducible refine (within_stClear ..).wider ?_
    | with_reducible refine (within_wr ..).wider ?_
    | with_reducible refine (within_wrBit ..).wider ?_
    | with_reducible refine within_one ?_
    | with_reducible apply within_seq_cons
    | with_reducible exact within_seq_nil
    | with_reducible refine within_look fun _ => ?_
    | rfl

theorem within_assignCore (h site i last : Nat) : Within [.ctl] (assignCore h site i last) := by
  unfold assignCore
  repeat' first
    | with_reducible refine (within_setCoreState ..).wider ?_
    | with_reducible refine (within_wr ..).wider ?_
    | with_reducible apply within_seq_cons
    | with_reducible exact within_seq_nil
    | rfl

theorem within_releaseCore (site : Nat) : Within [.ctl, .store, .rod, .storeBad, .rodBad, .vreg, .acc, .core] (releaseCore site) := by
  unfold releaseCore
  repeat' first
    | with_reducible refine (within_clearCore ..).wider ?_
    | with_reducible refine (within_setCoreState ..).wider ?_
    | with_reducible refine (within_wr ..).wider ?_
    | with_reducible apply within_seq_cons
    | with_reducible exact within_seq_nil
    | with_reducible refine within_look fun _ => ?_
    | with_reducible refine within_act ?_
    | rfl

theorem within_enterCores (h : Nat) (sites : List Nat) : Within [.ctl, .store, .rod, .storeBad, .rodBad, .vreg, .acc, .core] (enterCores h sites) := by
  unfold enterCores
  repeat' first
    | with_reducible refine (within_assignCore ..).wider ?_
    | with_reducible refine (within_clearCore ..).wider ?_
    | with_reducible apply within_seq_cons
    | with_reducible exact within_seq_nil
    | with_reducible refine within_each fun _ => ?_
    | rfl

theorem within_rewriteFloor  : Within [.ctl] (rewriteFloor) := by
  unfold rewriteFloor
  repeat' first
    | with_reducible refine (within_wr ..).wider ?_
    | with_reducible refine within_look fun _ => ?_
    | with_reducible refine within_ite ?_ ?_
    | rfl

theorem within_zeroGroups (first n : Nat) : Within [.ctl, .mem, .chk, .mergeBuf, .dumpRun, .freeCtr] (zeroGroups first n) := by
  unfold zeroGroups
  repeat' first
    | with_reducible refine (within_tablePut ..).wider ?_
    | with_reducible refine within_look fun _ => ?_
    | with_reducible refine within_each fun _ => ?_
    | rfl

theorem within_setHgrp (h : Nat) (lo hi : Word) : Within [.ctl] (setHgrp h lo hi) := by
  unfold setHgrp
  repeat' first
    | with_reducible refine (within_wr ..).wider ?_
    | with_reducible apply within_seq_cons
    | with_reducible exact within_seq_nil
    | with_reducible refine within_each fun _ => ?_
    | rfl

theorem within_clearSnap (h : Nat) : Within [.ctl, .snap] (clearSnap h) := by
  unfold clearSnap
  repeat' first
    | with_reducible refine within_one ?_
    | with_reducible apply within_seq_cons
    | with_reducible exact within_seq_nil
    | rfl

theorem within_setUpHerd (h : Nat) (owner : Option FnNo) (port : HpNo) (p : HerdParams) (g0 p0 : Nat) : Within [.ctl, .store, .rod, .storeBad, .rodBad, .vreg, .acc, .core, .mem, .chk, .herd, .mergeBuf, .snap, .dumpRun, .freeCtr] (setUpHerd h owner port p g0 p0) := by
  unfold setUpHerd
  repeat' first
    | with_reducible refine (within_clearSnap ..).wider ?_
    | with_reducible refine (within_disableRings ..).wider ?_
    | with_reducible refine (within_enterCores ..).wider ?_
    | with_reducible refine (within_rewriteFloor ..).wider ?_
    | with_reducible refine (within_setFnState ..).wider ?_
    | with_reducible refine (within_setHgrp ..).wider ?_
    | with_reducible refine (within_wr ..).wider ?_
    | with_reducible refine (within_wr64 ..).wider ?_
    | with_reducible refine (within_zeroGroups ..).wider ?_
    | with_reducible refine within_one ?_
    | with_reducible apply within_seq_cons
    | with_reducible exact within_seq_nil
    | with_reducible refine within_look fun _ => ?_
    | with_reducible refine within_each fun _ => ?_
    | rfl

theorem within_createHere (a : Asker) (h : Nat) (owner : Option FnNo) (port : HpNo) (p : HerdParams) : Within [.ctl, .store, .rod, .storeBad, .rodBad, .vreg, .acc, .core, .mem, .chk, .herd, .mergeBuf, .bx, .hcmd, .completions, .snap, .dumpRun, .freeCtr, .out] (createHere a h owner port p) := by
  unfold createHere
  repeat' first
    | with_reducible refine (within_answer ..).wider ?_
    | with_reducible refine (within_setUpHerd ..).wider ?_
    | with_reducible refine within_one ?_
    | with_reducible apply within_seq_cons
    | with_reducible exact within_seq_nil
    | with_reducible refine within_look fun _ => ?_
    | with_reducible refine within_ite ?_ ?_
    | rfl
    | split

theorem within_actHerdCreate (c : CmdId) (p : HerdParams) : Within [.ctl, .store, .rod, .storeBad, .rodBad, .vreg, .acc, .core, .mem, .chk, .herd, .mergeBuf, .bx, .hcmd, .htag, .busyRing, .completions, .fnTurn, .snap, .dumpRun, .freeCtr, .out] (actHerdCreate c p) := by
  unfold actHerdCreate
  repeat' first
    | with_reducible exact within_nop
    | with_reducible refine (within_complete ..).wider ?_
    | with_reducible refine (within_createHere ..).wider ?_
    | with_reducible refine within_hostCmd rfl ?_
    | with_reducible refine within_spread rfl (fun _ => ?_)
    | with_reducible refine (within_takeFree ..).wider ?_
    | with_reducible refine within_one ?_
    | with_reducible apply within_seq_cons
    | with_reducible exact within_seq_nil
    | with_reducible refine within_look fun _ => ?_
    | with_reducible refine within_act ?_
    | with_reducible refine within_ite ?_ ?_
    | rfl
    | split

theorem within_ringsBody (area : DWord) (lsize : Nat) (a : Asker) (h : Nat) : Within [.ctl, .bx, .hcmd, .completions, .dumpRun, .freeCtr, .out] (ringsBody area lsize a h) := by
  unfold ringsBody
  repeat' first
    | with_reducible refine (within_answer ..).wider ?_
    | with_reducible refine (within_wr ..).wider ?_
    | with_reducible apply within_seq_cons
    | with_reducible exact within_seq_nil
    | with_reducible refine within_look fun _ => ?_
    | with_reducible refine within_each fun _ => ?_
    | with_reducible refine within_ite ?_ ?_
    | rfl

theorem within_actHerdRings (c : CmdId) (area : DWord) (lsize : Nat) : Within [.ctl, .bx, .hcmd, .htag, .busyRing, .completions, .fnTurn, .dumpRun, .freeCtr, .out] (actHerdRings c area lsize) := by
  unfold actHerdRings
  repeat' first
    | with_reducible exact within_nop
    | with_reducible refine within_herdCmd rfl (fun _ _ => ?_)
    | with_reducible refine (within_ringsBody ..).wider ?_
    | with_reducible refine within_look fun _ => ?_
    | with_reducible refine within_ite ?_ ?_
    | rfl

theorem within_startBody (setidx : Bool) (idx b : DWord) (a : Asker) (h : Nat) : Within [.ctl, .core, .herd, .bx, .hcmd, .completions, .dumpRun, .freeCtr, .out] (startBody setidx idx b a h) := by
  unfold startBody
  repeat' first
    | with_reducible refine (within_answer ..).wider ?_
    | with_reducible refine (within_armCore ..).wider ?_
    | with_reducible refine (within_coreEvent ..).wider ?_
    | with_reducible refine (within_protocolAt ..).wider ?_
    | with_reducible refine (within_setHerd ..).wider ?_
    | with_reducible refine (within_wr64 ..).wider ?_
    | with_reducible apply within_seq_cons
    | with_reducible exact within_seq_nil
    | with_reducible refine within_look fun _ => ?_
    | with_reducible refine within_each fun _ => ?_
    | with_reducible refine within_act ?_
    | with_reducible refine within_ite ?_ ?_
    | rfl

theorem within_actHerdStart (c : CmdId) (ahead : Nat) (setidx : Bool) (idx : DWord) : Within [.ctl, .core, .herd, .bx, .hcmd, .htag, .busyRing, .completions, .fnTurn, .dumpRun, .freeCtr, .out] (actHerdStart c ahead setidx idx) := by
  unfold actHerdStart
  repeat' first
    | with_reducible refine (within_complete ..).wider ?_
    | with_reducible refine within_herdCmd rfl (fun _ _ => ?_)
    | with_reducible refine within_hostCmd rfl ?_
    | with_reducible refine within_ownHerd rfl (fun _ _ => ?_)
    | with_reducible refine (within_startBody ..).wider ?_
    | with_reducible refine within_look fun _ => ?_
    | with_reducible refine within_ite ?_ ?_
    | rfl

theorem within_stopBody (a : Asker) (h : Nat) : Within [.ctl, .core, .bx, .hcmd, .completions, .dumpRun, .freeCtr, .out] (stopBody a h) := by
  unfold stopBody
  repeat' first
    | with_reducible refine (within_answer ..).wider ?_
    | with_reducible refine (within_stopCore ..).wider ?_
    | with_reducible apply within_seq_cons
    | with_reducible exact within_seq_nil
    | with_reducible refine within_look fun _ => ?_
    | with_reducible refine within_each fun _ => ?_
    | rfl

theorem within_actHerdStop (c : CmdId) : Within [.ctl, .core, .bx, .hcmd, .htag, .busyRing, .completions, .fnTurn, .dumpRun, .freeCtr, .out] (actHerdStop c) := by
  unfold actHerdStop
  repeat' first
    | with_reducible refine within_herdCmd rfl (fun _ _ => ?_)
    | with_reducible refine (within_stopBody ..).wider ?_
    | rfl

theorem within_resumeCores (h : Nat) (b : DWord) : Within [.ctl, .core, .herd, .dumpRun, .freeCtr] (resumeCores h b) := by
  unfold resumeCores
  repeat' first
    | with_reducible exact within_nop
    | with_reducible refine (within_armCore ..).wider ?_
    | with_reducible refine (within_resumeCore ..).wider ?_
    | with_reducible refine (within_setHerd ..).wider ?_
    | with_reducible refine (within_wr64 ..).wider ?_
    | with_reducible refine within_one ?_
    | with_reducible apply within_seq_cons
    | with_reducible exact within_seq_nil
    | with_reducible refine within_look fun _ => ?_
    | with_reducible refine within_each fun _ => ?_
    | with_reducible refine within_ite ?_ ?_
    | rfl

theorem within_resumeBody (b : DWord) (a : Asker) (h : Nat) : Within [.ctl, .core, .herd, .bx, .hcmd, .completions, .dumpRun, .freeCtr, .out] (resumeBody b a h) := by
  unfold resumeBody
  repeat' first
    | with_reducible refine (within_answer ..).wider ?_
    | with_reducible refine (within_complete ..).wider ?_
    | with_reducible refine (within_resumeCores ..).wider ?_
    | with_reducible apply within_seq_cons
    | with_reducible exact within_seq_nil
    | with_reducible refine within_look fun _ => ?_
    | with_reducible refine within_act ?_
    | rfl
    | split

theorem within_actHerdResume (c : CmdId) (ahead : Nat) : Within [.ctl, .core, .herd, .bx, .hcmd, .htag, .busyRing, .completions, .fnTurn, .dumpRun, .freeCtr, .out] (actHerdResume c ahead) := by
  unfold actHerdResume
  repeat' first
    | with_reducible refine (within_complete ..).wider ?_
    | with_reducible refine within_herdCmd rfl (fun _ _ => ?_)
    | with_reducible refine within_hostCmd rfl ?_
    | with_reducible refine within_ownHerd rfl (fun _ _ => ?_)
    | with_reducible refine (within_resumeBody ..).wider ?_
    | with_reducible refine within_look fun _ => ?_
    | with_reducible refine within_ite ?_ ?_
    | rfl

theorem within_resumeAll (o : HcmdOut) (status : Nat) : Within [.ctl, .core, .herd, .bx, .dumpRun, .freeCtr, .out] (resumeAll o status) := by
  unfold resumeAll
  repeat' first
    | with_reducible refine (within_resumeCores ..).wider ?_
    | with_reducible refine (within_sendFrame ..).wider ?_
    | with_reducible apply within_seq_cons
    | with_reducible exact within_seq_nil
    | with_reducible refine within_look fun _ => ?_
    | with_reducible refine within_each fun _ => ?_
    | with_reducible refine within_act ?_
    | rfl

theorem within_actHresume (f : FrameHdr) (b : DWord) : Within [.ctl, .core, .herd, .bx, .dumpRun, .freeCtr, .out] (actHresume f b) := by
  unfold actHresume
  repeat' first
    | with_reducible refine (within_resumeCores ..).wider ?_
    | with_reducible refine within_rxTorus rfl ?_
    | with_reducible refine within_look fun _ => ?_
    | with_reducible refine within_act ?_
    | rfl

theorem within_finishPark (h : Nat) : Within [.ctl, .store, .rod, .storeBad, .rodBad, .vreg, .acc, .core, .herd, .bx, .hcmd, .completions, .dumpRun, .freeCtr, .out] (finishPark h) := by
  unfold finishPark
  repeat' first
    | with_reducible exact within_nop
    | with_reducible refine (within_answer ..).wider ?_
    | with_reducible refine (within_releaseCore ..).wider ?_
    | with_reducible refine (within_setFnState ..).wider ?_
    | with_reducible refine (within_setHerd ..).wider ?_
    | with_reducible refine within_one ?_
    | with_reducible apply within_seq_cons
    | with_reducible exact within_seq_nil
    | with_reducible refine within_look fun _ => ?_
    | with_reducible refine within_each fun _ => ?_
    | with_reducible refine within_act ?_
    | rfl
    | split

theorem within_parkBody (a : Asker) (h : Nat) : Within [.ctl, .store, .rod, .storeBad, .rodBad, .vreg, .acc, .core, .herd, .bx, .hcmd, .completions, .dumpRun, .freeCtr, .out] (parkBody a h) := by
  unfold parkBody
  repeat' first
    | with_reducible refine (within_answer ..).wider ?_
    | with_reducible refine (within_finishPark ..).wider ?_
    | with_reducible refine (within_setHerd ..).wider ?_
    | with_reducible refine (within_stopCore ..).wider ?_
    | with_reducible apply within_seq_cons
    | with_reducible exact within_seq_nil
    | with_reducible refine within_look fun _ => ?_
    | with_reducible refine within_each fun _ => ?_
    | with_reducible refine within_ite ?_ ?_
    | rfl

theorem within_actHerdPark (c : CmdId) : Within [.ctl, .store, .rod, .storeBad, .rodBad, .vreg, .acc, .core, .herd, .bx, .hcmd, .htag, .busyRing, .completions, .fnTurn, .dumpRun, .freeCtr, .out] (actHerdPark c) := by
  unfold actHerdPark
  repeat' first
    | with_reducible refine within_herdCmd rfl (fun _ _ => ?_)
    | with_reducible refine (within_parkBody ..).wider ?_
    | rfl

theorem within_unparkBody (n : Nat) (qmask : BitVec 4) (a : Asker) (h : Nat) : Within [.ctl, .store, .rod, .storeBad, .rodBad, .vreg, .acc, .core, .herd, .bx, .hcmd, .completions, .dumpRun, .freeCtr, .out] (unparkBody n qmask a h) := by
  unfold unparkBody
  repeat' first
    | with_reducible exact within_nop
    | with_reducible refine (within_answer ..).wider ?_
    | with_reducible refine (within_enterCores ..).wider ?_
    | with_reducible refine (within_setFnState ..).wider ?_
    | with_reducible refine (within_setHerd ..).wider ?_
    | with_reducible refine within_one ?_
    | with_reducible apply within_seq_cons
    | with_reducible exact within_seq_nil
    | with_reducible refine within_look fun _ => ?_
    | with_reducible refine within_ite ?_ ?_
    | rfl
    | split

theorem within_actHerdUnpark (c : CmdId) (n : Nat) (qmask : BitVec 4) : Within [.ctl, .store, .rod, .storeBad, .rodBad, .vreg, .acc, .core, .herd, .bx, .hcmd, .htag, .busyRing, .completions, .fnTurn, .dumpRun, .freeCtr, .out] (actHerdUnpark c n qmask) := by
  unfold actHerdUnpark
  repeat' first
    | with_reducible refine within_herdCmd rfl (fun _ _ => ?_)
    | with_reducible refine (within_unparkBody ..).wider ?_
    | rfl

theorem within_progBody (image first count : Nat) (a : Asker) (h : Nat) : Within [.ctl, .mem, .chk, .prog, .progPend, .touched, .mergeBuf, .bx, .hcmd, .completions, .dumpRun, .freeCtr, .out] (progBody image first count a h) := by
  unfold progBody
  repeat' first
    | with_reducible exact within_nop
    | with_reducible refine (within_answer ..).wider ?_
    | with_reducible refine (within_count ..).wider ?_
    | with_reducible refine (within_endLoad ..).wider ?_
    | with_reducible refine (within_loadProgram ..).wider ?_
    | with_reducible refine (within_urReadActs ..).wider ?_
    | with_reducible refine within_one ?_
    | with_reducible apply within_seq_cons
    | with_reducible exact within_seq_nil
    | with_reducible refine within_look fun _ => ?_
    | with_reducible refine within_each fun _ => ?_
    | with_reducible refine within_ite ?_ ?_
    | rfl
    | split

theorem within_actProgLoad (c : CmdId) (image : DWord) (first count : Nat) : Within [.ctl, .mem, .chk, .prog, .progPend, .touched, .mergeBuf, .bx, .hcmd, .htag, .busyRing, .completions, .fnTurn, .dumpRun, .freeCtr, .out] (actProgLoad c image first count) := by
  unfold actProgLoad
  repeat' first
    | with_reducible exact within_nop
    | with_reducible refine (within_count ..).wider ?_
    | with_reducible refine within_herdCmd rfl (fun _ _ => ?_)
    | with_reducible refine (within_progBody ..).wider ?_
    | with_reducible refine within_look fun _ => ?_
    | with_reducible refine within_ite ?_ ?_
    | rfl

theorem within_endCommands (h st : Nat) : Within [.ctl, .herd, .bx, .hcmd, .completions, .snap, .dumpRun, .freeCtr, .out] (endCommands h st) := by
  unfold endCommands
  repeat' first
    | with_reducible exact within_nop
    | with_reducible refine (within_answer ..).wider ?_
    | with_reducible refine (within_complete ..).wider ?_
    | with_reducible refine (within_setHerd ..).wider ?_
    | with_reducible refine (within_setSnap ..).wider ?_
    | with_reducible refine within_one ?_
    | with_reducible apply within_seq_cons
    | with_reducible exact within_seq_nil
    | with_reducible refine within_look fun _ => ?_
    | with_reducible refine within_each fun _ => ?_
    | with_reducible refine within_act ?_
    | with_reducible refine within_ite ?_ ?_
    | rfl
    | split

theorem within_destroyHerd (h : Nat) : Within [.ctl, .store, .rod, .storeBad, .rodBad, .vreg, .acc, .core, .mem, .chk, .farMem, .merges, .desc, .evalDue, .herd, .extent, .ssetOwner, .moves, .touched, .mergeBuf, .bx, .hcmd, .coll, .mc, .completions, .snap, .dumpRun, .freeCtr, .out] (destroyHerd h) := by
  unfold destroyHerd
  repeat' first
    | with_reducible exact within_nop
    | with_reducible refine (within_cancelMove ..).wider ?_
    | with_reducible refine (within_clearSnap ..).wider ?_
    | with_reducible refine (within_disableRings ..).wider ?_
    | with_reducible refine (within_freePages ..).wider ?_
    | with_reducible refine (within_leaveExtent ..).wider ?_
    | with_reducible refine (within_releaseCore ..).wider ?_
    | with_reducible refine (within_rewriteFloor ..).wider ?_
    | with_reducible refine (within_setHgrp ..).wider ?_
    | with_reducible refine (within_setMember ..).wider ?_
    | with_reducible refine (within_wr ..).wider ?_
    | with_reducible refine (within_zeroGroups ..).wider ?_
    | with_reducible refine within_one ?_
    | with_reducible apply within_seq_cons
    | with_reducible exact within_seq_nil
    | with_reducible refine within_look fun _ => ?_
    | with_reducible refine within_each fun _ => ?_
    | with_reducible refine within_act ?_
    | rfl
    | split

theorem within_destroyBody (a : Asker) (h : Nat) : Within [.ctl, .store, .rod, .storeBad, .rodBad, .vreg, .acc, .core, .mem, .chk, .farMem, .merges, .desc, .evalDue, .herd, .extent, .ssetOwner, .moves, .touched, .mergeBuf, .bx, .hcmd, .coll, .mc, .completions, .snap, .dumpRun, .freeCtr, .out] (destroyBody a h) := by
  unfold destroyBody
  repeat' first
    | with_reducible refine (within_answer ..).wider ?_
    | with_reducible refine (within_destroyHerd ..).wider ?_
    | with_reducible apply within_seq_cons
    | with_reducible exact within_seq_nil
    | rfl

theorem within_actHerdDestroy (c : CmdId) : Within [.ctl, .store, .rod, .storeBad, .rodBad, .vreg, .acc, .core, .mem, .chk, .farMem, .merges, .desc, .evalDue, .herd, .extent, .ssetOwner, .moves, .touched, .mergeBuf, .bx, .hcmd, .htag, .coll, .mc, .busyRing, .completions, .fnTurn, .snap, .dumpRun, .freeCtr, .out] (actHerdDestroy c) := by
  unfold actHerdDestroy
  repeat' first
    | with_reducible refine (within_destroyBody ..).wider ?_
    | with_reducible refine (within_endCommands ..).wider ?_
    | with_reducible refine within_hostCmd rfl ?_
    | with_reducible refine within_ownHerd rfl (fun _ _ => ?_)
    | with_reducible refine (within_setFnState ..).wider ?_
    | with_reducible refine within_spread rfl (fun _ => ?_)
    | with_reducible refine (within_wr ..).wider ?_
    | with_reducible apply within_seq_cons
    | with_reducible exact within_seq_nil
    | with_reducible refine within_look fun _ => ?_
    | with_reducible refine within_each fun _ => ?_
    | with_reducible refine within_act ?_
    | rfl

theorem within_actNopCommand (c : CmdId) : Within [.ctl, .busyRing, .completions, .fnTurn, .dumpRun, .freeCtr, .out] (actNopCommand c) := by
  unfold actNopCommand
  repeat' first
    | with_reducible refine (within_complete ..).wider ?_
    | with_reducible refine within_hostCmd rfl ?_
    | rfl

theorem within_actHerdFaultTimeout (h : Nat) : Within [.ctl, .core, .herd, .bx, .hcmd, .htag, .notices, .out] (actHerdFaultTimeout h) := by
  unfold actHerdFaultTimeout
  repeat' first
    | with_reducible exact within_nop
    | with_reducible refine (within_failHerd ..).wider ?_
    | with_reducible refine within_one ?_
    | with_reducible refine within_look fun _ => ?_
    | with_reducible refine within_act ?_
    | rfl
    | split

/-! ## CoreRegs -/

theorem within_ruled {ps : List Part} (hps : covers ps [.ctl, .dumpRun, .freeCtr] = true) {ok : Bool} {p : Nat} {r : Requester} {eff : Act} (heff : Within ps eff) : Within ps (ruled ok p r eff).2 := by
  unfold ruled
  repeat' first
    | with_reducible exact heff
    | with_reducible exact (((within_protocolAt ..).wider (ps := [.ctl, .dumpRun, .freeCtr]) rfl)).wider hps
    | with_reducible refine within_ite ?_ ?_

theorem within_seqCtrlWrite (r : Requester) (site : Nat) (v : Word) : Within [.ctl, .core, .dumpRun, .freeCtr] (seqCtrlWrite r site v) := by
  unfold seqCtrlWrite
  repeat' first
    | with_reducible refine (within_armCore ..).wider ?_
    | with_reducible refine (within_resumeCore ..).wider ?_
    | with_reducible refine (within_stopCore ..).wider ?_
    | with_reducible apply within_seq_cons
    | with_reducible exact within_seq_nil
    | with_reducible refine within_act ?_
    | rfl

theorem within_coreWrite (s : State) (r : Requester) (b : Block) (a : Nat) (v : Word) : Within [.ctl, .rod, .rodBad, .core, .packets, .dumpRun, .freeCtr] (coreWrite s r b a v).2 := by
  unfold coreWrite
  repeat' first
    | with_reducible refine (within_cubeInjWrite ..).wider ?_
    | with_reducible refine (within_flagWrite ..).wider ?_
    | with_reducible refine (within_maskWrite ..).wider ?_
    | with_reducible refine (within_rcCtrlWrite ..).wider ?_
    | with_reducible refine (within_rloadWrite ..).wider ?_
    | with_reducible refine (within_rodWordWrite ..).wider ?_
    | with_reducible refine within_ruled rfl ?_
    | with_reducible refine (within_seqCtrlWrite ..).wider ?_
    | with_reducible refine (within_tcWrite ..).wider ?_
    | with_reducible refine within_one ?_
    | with_reducible apply within_seq_cons
    | with_reducible exact within_seq_nil
    | with_reducible refine within_ite ?_ ?_
    | rfl
    | split
    | dsimp only

theorem within_corePair (s : State) (r : Requester) (b : Block) (a : Nat) (lo hi : Word) : Within [.ctl, .rod, .rodBad, .core, .packets, .dumpRun, .freeCtr] (corePair s r b a lo hi).2 := by
  unfold corePair
  repeat' first
    | with_reducible refine (within_coreWrite ..).wider ?_
    | with_reducible refine (within_tcWrite ..).wider ?_
    | with_reducible apply within_seq_cons
    | with_reducible exact within_seq_nil
    | with_reducible refine within_look fun _ => ?_
    | with_reducible refine within_ite ?_ ?_
    | rfl
    | split
    | dsimp only

theorem within_regwAt (s : State) (r : Requester) (c off : Nat) (v : Word) (hi : Option Word) : Within [.ctl, .rod, .rodBad, .core, .packets, .dumpRun, .freeCtr] (regwAt s r c off v hi).2 := by
  unfold regwAt
  repeat' first
    | with_reducible exact within_nop
    | with_reducible refine (within_corePair ..).wider ?_
    | with_reducible refine (within_coreWrite ..).wider ?_
    | with_reducible refine (within_refuseAccess ..).wider ?_
    | with_reducible refine within_one ?_
    | with_reducible refine within_ite ?_ ?_
    | rfl
    | split
    | dsimp only

theorem within_regwEntry (s : State) (h : Nat) (e : RegwEntry) : Within [.ctl, .rod, .rodBad, .core, .packets, .dumpRun, .freeCtr] (regwEntry s h e).2 := by
  unfold regwEntry
  repeat' first
    | with_reducible exact within_nop
    | with_reducible refine (within_refuseAccess ..).wider ?_
    | with_reducible refine (within_regwAt ..).wider ?_
    | with_reducible refine within_one ?_
    | with_reducible refine within_ite ?_ ?_
    | rfl
    | split

theorem within_regwList {ps : List Part} (hps : covers ps [.ctl, .rod, .rodBad, .core, .packets, .dumpRun, .freeCtr] = true) {h applied : Nat} {done : Nat → Bool → Act} {es : List RegwEntry}
    (hd : ∀ n b, Within ps (done n b)) : Within ps (regwList h applied done es) := by
  induction es generalizing applied with
  | nil => exact hd _ _
  | cons e es ih =>
    unfold regwList
    refine within_look fun s => within_ite ?_ ?_
    · exact within_seq_cons ((within_regwEntry ..).wider hps) (within_seq_cons ih within_seq_nil)
    · exact within_seq_cons ((within_regwEntry ..).wider hps) (within_seq_cons (hd _ _) within_seq_nil)

theorem within_regwPart (h : Nat) (es : List RegwEntry) (a : Asker) : Within [.ctl, .rod, .rodBad, .core, .packets, .bx, .hcmd, .completions, .dumpRun, .freeCtr, .out] (regwPart h es a) := by
  unfold regwPart
  repeat' first
    | with_reducible refine (within_answerN ..).wider ?_
    | with_reducible refine within_regwList rfl (fun _ _ => ?_)
    | with_reducible refine within_ite ?_ ?_
    | rfl

theorem within_nextPart (t n : Nat) : Within [.ctl, .rod, .rodBad, .core, .packets, .bx, .hcmd, .completions, .dumpRun, .freeCtr, .out] (nextPart t n) := by
  induction n with
  | zero => exact within_nop
  | succ n ih =>
    unfold nextPart
    refine within_look fun s => ?_
    split
    · exact within_nop
    · split
      · exact within_nop
      · refine within_act (within_seq_cons (within_one rfl) (within_seq_cons (within_ite ?_ ?_) within_seq_nil))
        · exact within_seq_cons ((within_regwPart ..).wider rfl) (within_seq_cons ih within_seq_nil)
        · exact (within_sendHcmd ..).wider rfl

theorem within_actHerdRegw (c : CmdId) (es : List RegwEntry) : Within [.ctl, .rod, .rodBad, .core, .packets, .bx, .hcmd, .htag, .busyRing, .completions, .fnTurn, .dumpRun, .freeCtr, .out] (actHerdRegw c es) := by
  unfold actHerdRegw
  repeat' first
    | with_reducible exact within_nop
    | with_reducible refine (within_complete ..).wider ?_
    | with_reducible refine within_hostCmd rfl ?_
    | with_reducible refine (within_nextPart ..).wider ?_
    | with_reducible refine within_ownHerd rfl (fun _ _ => ?_)
    | with_reducible refine within_regwList rfl (fun _ _ => ?_)
    | with_reducible refine (within_stepHtag ..).wider ?_
    | with_reducible refine within_one ?_
    | with_reducible apply within_seq_cons
    | with_reducible exact within_seq_nil
    | with_reducible refine within_look fun _ => ?_
    | with_reducible refine within_ite ?_ ?_
    | rfl

theorem within_evalBody (p : EvalParams) (a : Asker) (h : Nat) : Within [.ctl, .core, .herd, .bx, .hcmd, .completions, .dumpRun, .freeCtr, .out] (evalBody p a h) := by
  unfold evalBody
  repeat' first
    | with_reducible exact within_nop
    | with_reducible refine (within_answer ..).wider ?_
    | with_reducible refine (within_setCore ..).wider ?_
    | with_reducible refine (within_setHerd ..).wider ?_
    | with_reducible refine within_one ?_
    | with_reducible apply within_seq_cons
    | with_reducible exact within_seq_nil
    | with_reducible refine within_look fun _ => ?_
    | with_reducible refine within_each fun _ => ?_
    | with_reducible refine within_ite ?_ ?_
    | rfl
    | split

theorem within_evalPart (p : EvalParams) (last : Bool) (a : Asker) (h : Nat) : Within [.ctl, .core, .herd, .bx, .hcmd, .completions, .dumpRun, .freeCtr, .out] (evalPart p last a h) := by
  unfold evalPart
  repeat' first
    | with_reducible refine (within_evalBody ..).wider ?_
    | with_reducible refine (within_setHerd ..).wider ?_
    | with_reducible refine within_mapGetD fun _ => ?_
    | with_reducible apply within_seq_cons
    | with_reducible exact within_seq_nil
    | with_reducible refine within_look fun _ => ?_
    | with_reducible refine within_ite ?_ ?_
    | rfl

theorem within_actEval (c : CmdId) (p : EvalParams) : Within [.ctl, .core, .herd, .bx, .hcmd, .htag, .busyRing, .completions, .fnTurn, .dumpRun, .freeCtr, .out] (actEval c p) := by
  unfold actEval
  repeat' first
    | with_reducible exact within_nop
    | with_reducible refine (within_evalBody ..).wider ?_
    | with_reducible refine within_hostCmd rfl ?_
    | with_reducible refine within_ownHerd rfl (fun _ _ => ?_)
    | with_reducible refine (within_sendHcmd ..).wider ?_
    | with_reducible refine (within_stepHtag ..).wider ?_
    | with_reducible refine within_one ?_
    | with_reducible apply within_seq_cons
    | with_reducible exact within_seq_nil
    | with_reducible refine within_look fun _ => ?_
    | with_reducible refine within_each fun _ => ?_
    | with_reducible refine within_ite ?_ ?_
    | rfl

theorem within_loadImage (site a n : Nat) : Within [.ctl, .rod, .rodBad, .mem, .chk, .touched, .mergeBuf, .dumpRun, .freeCtr, .out] (loadImage site a n) := by
  unfold loadImage
  repeat' first
    | with_reducible refine (within_runRload ..).wider ?_
    | with_reducible refine (within_wr ..).wider ?_
    | with_reducible refine (within_wr64 ..).wider ?_
    | with_reducible apply within_seq_cons
    | with_reducible exact within_seq_nil
    | rfl

theorem within_actEvalSwitch (h : Nat) : Within [.ctl, .rod, .rodBad, .core, .mem, .chk, .packets, .herd, .touched, .mergeBuf, .dumpRun, .freeCtr, .out] (actEvalSwitch h) := by
  unfold actEvalSwitch
  repeat' first
    | with_reducible exact within_nop
    | with_reducible refine (within_armCore ..).wider ?_
    | with_reducible refine (within_loadImage ..).wider ?_
    | with_reducible refine within_regwList rfl (fun _ _ => ?_)
    | with_reducible refine (within_setHerd ..).wider ?_
    | with_reducible refine (within_wr64 ..).wider ?_
    | with_reducible refine (within_wrFld ..).wider ?_
    | with_reducible refine within_mapGetD fun _ => ?_
    | with_reducible refine within_one ?_
    | with_reducible apply within_seq_cons
    | with_reducible exact within_seq_nil
    | with_reducible refine within_look fun _ => ?_
    | with_reducible refine within_each fun _ => ?_
    | with_reducible refine within_ite ?_ ?_
    | rfl
    | split

theorem within_actEvalRestore (h : Nat) : Within [.ctl, .rod, .rodBad, .core, .mem, .chk, .herd, .touched, .mergeBuf, .bx, .hcmd, .completions, .dumpRun, .freeCtr, .out] (actEvalRestore h) := by
  unfold actEvalRestore
  repeat' first
    | with_reducible exact within_nop
    | with_reducible refine (within_answer ..).wider ?_
    | with_reducible refine (within_armCore ..).wider ?_
    | with_reducible refine (within_loadImage ..).wider ?_
    | with_reducible refine (within_setCore ..).wider ?_
    | with_reducible refine (within_setHerd ..).wider ?_
    | with_reducible refine (within_stopCore ..).wider ?_
    | with_reducible refine (within_wr ..).wider ?_
    | with_reducible refine (within_wr64 ..).wider ?_
    | with_reducible refine within_one ?_
    | with_reducible apply within_seq_cons
    | with_reducible exact within_seq_nil
    | with_reducible refine within_look fun _ => ?_
    | with_reducible refine within_each fun _ => ?_
    | with_reducible refine within_act ?_
    | with_reducible refine within_ite ?_ ?_
    | rfl
    | split

/-! ## HostReset -/

theorem within_destroyAtMembers (h : Nat) : Within [.ctl, .bx, .hcmd, .htag, .out] (destroyAtMembers h) := by
  unfold destroyAtMembers
  repeat' first
    | with_reducible refine (within_sendHcmd ..).wider ?_
    | with_reducible refine (within_stepHtag ..).wider ?_
    | with_reducible refine within_one ?_
    | with_reducible apply within_seq_cons
    | with_reducible exact within_seq_nil
    | with_reducible refine within_look fun _ => ?_
    | with_reducible refine within_each fun _ => ?_
    | with_reducible refine within_act ?_
    | rfl

theorem within_resetFunction (f : FnNo) : Within [.ctl, .store, .rod, .storeBad, .rodBad, .vreg, .acc, .core, .mem, .chk, .farMem, .merges, .desc, .evalDue, .herd, .extent, .ssetOwner, .moves, .touched, .mergeBuf, .bx, .hcmd, .htag, .coll, .mc, .busyRing, .phase, .completions, .notices, .snap, .dumpRun, .freeCtr, .out] (resetFunction f) := by
  unfold resetFunction
  repeat' first
    | with_reducible exact within_nop
    | with_reducible refine (within_destroyAtMembers ..).wider ?_
    | with_reducible refine (within_destroyHerd ..).wider ?_
    | with_reducible refine (within_endCommands ..).wider ?_
    | with_reducible refine (within_wr ..).wider ?_
    | with_reducible refine within_one ?_
    | with_reducible apply within_seq_cons
    | with_reducible exact within_seq_nil
    | with_reducible refine within_look fun _ => ?_
    | with_reducible refine within_ite ?_ ?_
    | rfl
    | split

theorem within_endReleasing (h : Nat) : Within [.ctl] (endReleasing h) := by
  unfold endReleasing
  repeat' first
    | with_reducible refine (within_wr ..).wider ?_
    | with_reducible refine within_look fun _ => ?_
    | with_reducible refine within_each fun _ => ?_
    | rfl

theorem within_actFunctionLevelReset (f : FnNo) : Within [.ctl, .store, .rod, .storeBad, .rodBad, .vreg, .acc, .core, .mem, .chk, .farMem, .merges, .desc, .evalDue, .herd, .extent, .ssetOwner, .moves, .touched, .mergeBuf, .bx, .hcmd, .htag, .coll, .mc, .busyRing, .phase, .completions, .notices, .snap, .dumpRun, .freeCtr, .out] (actFunctionLevelReset f) := by
  unfold actFunctionLevelReset
  repeat' first
    | with_reducible refine (within_resetFunction ..).wider ?_
    | with_reducible refine within_look fun _ => ?_
    | with_reducible refine within_act ?_
    | rfl

theorem within_actVfEnableClear (k : HpNo) : Within [.ctl, .store, .rod, .storeBad, .rodBad, .vreg, .acc, .core, .mem, .chk, .farMem, .merges, .desc, .evalDue, .herd, .extent, .ssetOwner, .moves, .touched, .mergeBuf, .bx, .hcmd, .htag, .coll, .mc, .numVfs, .busyRing, .phase, .completions, .notices, .snap, .dumpRun, .freeCtr, .out] (actVfEnableClear k) := by
  unfold actVfEnableClear
  repeat' first
    | with_reducible refine (within_resetFunction ..).wider ?_
    | with_reducible refine within_one ?_
    | with_reducible apply within_seq_cons
    | with_reducible exact within_seq_nil
    | with_reducible refine within_look fun _ => ?_
    | with_reducible refine within_each fun _ => ?_
    | rfl

theorem within_actVfEnableSet (k : HpNo) (n : Nat) : Within [.numVfs] (actVfEnableSet k n) := by
  unfold actVfEnableSet
  repeat' first
    | with_reducible refine within_one ?_
    | with_reducible refine within_look fun _ => ?_
    | with_reducible refine within_act ?_
    | with_reducible refine within_ite ?_ ?_
    | rfl

theorem within_resetPort (k : HpNo) : Within [.ctl, .store, .rod, .storeBad, .rodBad, .vreg, .acc, .core, .mem, .chk, .farMem, .merges, .desc, .evalDue, .herd, .extent, .ssetOwner, .moves, .touched, .mergeBuf, .bx, .hcmd, .htag, .coll, .mc, .numVfs, .bar2Log, .busyRing, .phase, .completions, .notices, .snap, .dumpRun, .freeCtr, .out] (resetPort k) := by
  unfold resetPort
  repeat' first
    | with_reducible refine (within_count ..).wider ?_
    | with_reducible refine (within_failHerd ..).wider ?_
    | with_reducible refine (within_loseExtent ..).wider ?_
    | with_reducible refine (within_notify ..).wider ?_
    | with_reducible refine (within_resetFunction ..).wider ?_
    | with_reducible refine (within_wr ..).wider ?_
    | with_reducible refine within_one ?_
    | with_reducible apply within_seq_cons
    | with_reducible exact within_seq_nil
    | with_reducible refine within_look fun _ => ?_
    | with_reducible refine within_each fun _ => ?_
    | with_reducible refine within_act ?_
    | with_reducible refine within_ite ?_ ?_
    | rfl

theorem within_actHostPortReset (k : HpNo) : Within [.ctl, .store, .rod, .storeBad, .rodBad, .vreg, .acc, .core, .mem, .chk, .farMem, .merges, .desc, .evalDue, .herd, .extent, .ssetOwner, .moves, .touched, .mergeBuf, .bx, .hcmd, .htag, .coll, .mc, .numVfs, .bar2Log, .busyRing, .phase, .completions, .notices, .snap, .dumpRun, .freeCtr, .out] (actHostPortReset k) := by
  unfold actHostPortReset
  repeat' first
    | with_reducible refine (within_resetPort ..).wider ?_
    | with_reducible refine within_look fun _ => ?_
    | with_reducible refine within_act ?_
    | rfl

theorem within_actHostLinkUp (k : HpNo) (width : Nat) (speed : BitVec 3) (flit : Bool) : Within [.ctl] (actHostLinkUp k width speed flit) := by
  unfold actHostLinkUp
  repeat' first
    | with_reducible refine (within_wr ..).wider ?_
    | with_reducible refine within_look fun _ => ?_
    | with_reducible refine within_act ?_
    | rfl

/-! ## Snap -/

theorem within_cfgBody (p : SnapParams) (a : Asker) (h : Nat) : Within [.ctl, .mem, .chk, .touched, .mergeBuf, .bx, .hcmd, .completions, .snap, .dumpRun, .freeCtr, .out] (cfgBody p a h) := by
  unfold cfgBody
  repeat' first
    | with_reducible refine (within_answer ..).wider ?_
    | with_reducible refine (within_frozenReads ..).wider ?_
    | with_reducible refine (within_ring ..).wider ?_
    | with_reducible refine (within_setSnap ..).wider ?_
    | with_reducible refine (within_snapStatus ..).wider ?_
    | with_reducible refine (within_urReadActs ..).wider ?_
    | with_reducible refine (within_wr ..).wider ?_
    | with_reducible refine within_one ?_
    | with_reducible apply within_seq_cons
    | with_reducible exact within_seq_nil
    | with_reducible refine within_look fun _ => ?_
    | with_reducible refine within_each fun _ => ?_
    | with_reducible refine within_ite ?_ ?_
    | rfl
    | split

theorem within_regionBody (p : SnapParams) (a : Asker) (h : Nat) : Within [.ctl, .bx, .hcmd, .completions, .snap, .dumpRun, .freeCtr, .out] (regionBody p a h) := by
  unfold regionBody
  repeat' first
    | with_reducible refine (within_answer ..).wider ?_
    | with_reducible refine (within_setSnap ..).wider ?_
    | with_reducible refine within_one ?_
    | with_reducible apply within_seq_cons
    | with_reducible exact within_seq_nil
    | with_reducible refine within_look fun _ => ?_
    | with_reducible refine within_ite ?_ ?_
    | rfl

theorem within_actSnapCfg (c : CmdId) (p : SnapParams) : Within [.ctl, .mem, .chk, .touched, .mergeBuf, .bx, .hcmd, .htag, .busyRing, .completions, .fnTurn, .snap, .dumpRun, .freeCtr, .out] (actSnapCfg c p) := by
  unfold actSnapCfg
  repeat' first
    | with_reducible exact within_nop
    | with_reducible refine (within_cfgBody ..).wider ?_
    | with_reducible refine within_hostCmd rfl ?_
    | with_reducible refine within_ownHerd rfl (fun _ _ => ?_)
    | with_reducible refine within_spread rfl (fun _ => ?_)
    | with_reducible refine within_look fun _ => ?_
    | with_reducible refine within_ite ?_ ?_
    | rfl

theorem within_mtbfBody (mf : Word) (w : Byte) (reset : Bool) (a : Asker) (h : Nat) : Within [.ctl, .bx, .hcmd, .completions, .dumpRun, .freeCtr, .out] (mtbfBody mf w reset a h) := by
  unfold mtbfBody
  repeat' first
    | with_reducible refine (within_answer ..).wider ?_
    | with_reducible refine (within_wr ..).wider ?_
    | with_reducible refine (within_wrFld ..).wider ?_
    | with_reducible apply within_seq_cons
    | with_reducible exact within_seq_nil
    | with_reducible refine within_act ?_
    | rfl

theorem within_actSnapMtbf (c : CmdId) (mf : Word) (w : Byte) (reset : Bool) : Within [.ctl, .bx, .hcmd, .htag, .busyRing, .completions, .fnTurn, .dumpRun, .freeCtr, .out] (actSnapMtbf c mf w reset) := by
  unfold actSnapMtbf
  repeat' first
    | with_reducible refine within_herdCmd rfl (fun _ _ => ?_)
    | with_reducible refine (within_mtbfBody ..).wider ?_
    | rfl

theorem within_nowBody (a : Asker) (h : Nat) : Within [.ctl, .bx, .hcmd, .completions, .snap, .dumpRun, .freeCtr, .out] (nowBody a h) := by
  unfold nowBody
  repeat' first
    | with_reducible refine (within_answer ..).wider ?_
    | with_reducible refine (within_setSnap ..).wider ?_
    | with_reducible apply within_seq_cons
    | with_reducible exact within_seq_nil
    | with_reducible refine within_look fun _ => ?_
    | with_reducible refine within_ite ?_ ?_
    | rfl

theorem within_actSnapNow (c : CmdId) : Within [.ctl, .bx, .hcmd, .htag, .busyRing, .completions, .fnTurn, .snap, .dumpRun, .freeCtr, .out] (actSnapNow c) := by
  unfold actSnapNow
  repeat' first
    | with_reducible refine within_herdCmd rfl (fun _ _ => ?_)
    | with_reducible refine (within_nowBody ..).wider ?_
    | rfl

theorem within_statBody (a : Asker) (h : Nat) : Within [.ctl, .bx, .hcmd, .completions, .dumpRun, .freeCtr, .out] (statBody a h) := by
  unfold statBody
  repeat' first
    | with_reducible refine (within_answer ..).wider ?_
    | with_reducible refine within_look fun _ => ?_
    | rfl

theorem within_actSnapStat (c : CmdId) : Within [.ctl, .bx, .hcmd, .htag, .busyRing, .completions, .fnTurn, .dumpRun, .freeCtr, .out] (actSnapStat c) := by
  unfold actSnapStat
  repeat' first
    | with_reducible refine within_herdCmd rfl (fun _ _ => ?_)
    | with_reducible refine (within_statBody ..).wider ?_
    | rfl

theorem within_abandonAll (h : Nat) : Within [.ctl, .bx, .snap, .dumpRun, .freeCtr, .out] (abandonAll h) := by
  unfold abandonAll
  repeat' first
    | with_reducible exact within_nop
    | with_reducible refine (within_abandonMirror ..).wider ?_
    | with_reducible refine (within_abandonSnapshot ..).wider ?_
    | with_reducible refine (within_dropMirror ..).wider ?_
    | with_reducible refine within_one ?_
    | with_reducible apply within_seq_cons
    | with_reducible exact within_seq_nil
    | with_reducible refine within_look fun _ => ?_
    | with_reducible refine within_act ?_
    | rfl
    | split
    | dsimp only

theorem within_offBody (a : Asker) (h : Nat) : Within [.ctl, .bx, .hcmd, .completions, .snap, .dumpRun, .freeCtr, .out] (offBody a h) := by
  unfold offBody
  repeat' first
    | with_reducible refine (within_abandonAll ..).wider ?_
    | with_reducible refine (within_answer ..).wider ?_
    | with_reducible refine (within_setSnap ..).wider ?_
    | with_reducible refine (within_snapStatus ..).wider ?_
    | with_reducible refine (within_wrBit ..).wider ?_
    | with_reducible apply within_seq_cons
    | with_reducible exact within_seq_nil
    | rfl

theorem within_actSnapOff (c : CmdId) : Within [.ctl, .bx, .hcmd, .htag, .busyRing, .completions, .fnTurn, .snap, .dumpRun, .freeCtr, .out] (actSnapOff c) := by
  unfold actSnapOff
  repeat' first
    | with_reducible refine within_herdCmd rfl (fun _ _ => ?_)
    | with_reducible refine (within_offBody ..).wider ?_
    | rfl

theorem within_groupReads (h : Nat) : Within [.ctl, .mem, .chk, .mergeBuf, .dumpRun, .freeCtr] (groupReads h) := by
  unfold groupReads
  repeat' first
    | with_reducible exact within_nop
    | with_reducible refine (within_tableRead ..).wider ?_
    | with_reducible refine within_one ?_
    | with_reducible refine within_look fun _ => ?_
    | with_reducible refine within_each fun _ => ?_
    | rfl
    | split

theorem within_queueStore (ws : List (Nat × List Byte)) (h : Nat) : Within [.snap] (queueStore ws h) := by
  unfold queueStore
  repeat' first
    | with_reducible refine (within_setSnap ..).wider ?_
    | rfl

theorem within_setPl (h i : Nat) (f : SnapEntry → SnapEntry) : Within [.snap] (setPl h i f) := by
  unfold setPl
  repeat' first
    | with_reducible refine (within_setSnap ..).wider ?_
    | with_reducible refine within_ite ?_ ?_
    | rfl

theorem within_actEntryFinal (h i : Nat) : Within [.snap] (actEntryFinal h i) := by
  unfold actEntryFinal
  repeat' first
    | with_reducible exact within_nop
    | with_reducible refine (within_setPl ..).wider ?_
    | with_reducible refine within_look fun _ => ?_
    | with_reducible refine within_act ?_
    | with_reducible refine within_ite ?_ ?_
    | rfl
    | split
    | dsimp only

theorem within_sendMirror (h dst a : Nat) (bs : List Byte) : Within [.ctl, .bx, .snap, .out] (sendMirror h dst a bs) := by
  unfold sendMirror
  repeat' first
    | with_reducible refine (within_count ..).wider ?_
    | with_reducible refine (within_sendFrame ..).wider ?_
    | with_reducible refine (within_setSnap ..).wider ?_
    | with_reducible apply within_seq_cons
    | with_reducible exact within_seq_nil
    | with_reducible refine within_look fun _ => ?_
    | with_reducible refine within_each fun _ => ?_
    | rfl

theorem within_storeEntry (h i st : Nat) (e : SnapEntry) : Within [.ctl, .bx, .snap, .freeCtr, .out] (storeEntry h i st e) := by
  unfold storeEntry
  repeat' first
    | with_reducible refine (within_queueStore ..).wider ?_
    | with_reducible refine (within_setPl ..).wider ?_
    | with_reducible refine (within_stored ..).wider ?_
    | with_reducible apply within_seq_cons
    | with_reducible exact within_seq_nil
    | with_reducible refine within_look fun _ => ?_
    | with_reducible refine within_each fun _ => ?_
    | with_reducible refine within_ite ?_ ?_
    | rfl

theorem within_storeGroups (h st : Nat) : Within [.ctl, .mem, .chk, .mergeBuf, .snap, .dumpRun, .freeCtr] (storeGroups h st) := by
  unfold storeGroups
  repeat' first
    | with_reducible refine (within_groupReads ..).wider ?_
    | with_reducible refine (within_queueStore ..).wider ?_
    | with_reducible refine (within_setSnap ..).wider ?_
    | with_reducible apply within_seq_cons
    | with_reducible exact within_seq_nil
    | with_reducible refine within_look fun _ => ?_
    | with_reducible refine within_each fun _ => ?_
    | rfl

theorem within_actSwr (h : Nat) : Within [.ctl, .bx, .snap, .out] (actSwr h) := by
  unfold actSwr
  repeat' first
    | with_reducible exact within_nop
    | with_reducible refine (within_count ..).wider ?_
    | with_reducible refine (within_giveFrame ..).wider ?_
    | with_reducible refine (within_setSnap ..).wider ?_
    | with_reducible refine within_one ?_
    | with_reducible apply within_seq_cons
    | with_reducible exact within_seq_nil
    | with_reducible refine within_look fun _ => ?_
    | with_reducible refine within_act ?_
    | with_reducible refine within_ite ?_ ?_
    | rfl
    | split
    | dsimp only

theorem within_rxAux {ps : List Part} (hps : covers ps [.ctl, .bx, .dumpRun, .freeCtr, .out] = true) {p : Nat} {type : Nat} {len : Nat} {body : Act} (hbody : Within ps body) : Within ps (rxAux p type len body) := by
  unfold rxAux
  repeat' first
    | with_reducible exact hbody
    | with_reducible refine within_received (covers_trans hps rfl) ?_
    | with_reducible exact (((within_refuseFrame ..).wider (ps := [.ctl, .bx, .dumpRun, .freeCtr, .out]) rfl)).wider hps
    | with_reducible refine within_look fun _ => ?_
    | with_reducible refine within_ite ?_ ?_

theorem within_planInterval (h : Nat) : Within [.ctl, .bx, .freeCtr, .out] (planInterval h) := by
  unfold planInterval
  repeat' first
    | with_reducible refine (within_sendPlan ..).wider ?_
    | with_reducible refine (within_setSnapNext ..).wider ?_
    | with_reducible refine (within_takeFree ..).wider ?_
    | with_reducible refine (within_wr ..).wider ?_
    | with_reducible refine (within_wrFld ..).wider ?_
    | with_reducible refine within_mapGetD fun _ => ?_
    | with_reducible apply within_seq_cons
    | with_reducible exact within_seq_nil
    | with_reducible refine within_look fun _ => ?_
    | with_reducible refine within_ite ?_ ?_
    | rfl

theorem within_takeVerified (h st : Nat) : Within [.ctl, .snap] (takeVerified h st) := by
  unfold takeVerified
  repeat' first
    | with_reducible refine (within_count ..).wider ?_
    | with_reducible refine (within_setIst ..).wider ?_
    | with_reducible refine (within_setSnap ..).wider ?_
    | with_reducible refine (within_snapStatus ..).wider ?_
    | with_reducible refine (within_wr64 ..).wider ?_
    | with_reducible refine within_one ?_
    | with_reducible apply within_seq_cons
    | with_reducible exact within_seq_nil
    | with_reducible refine within_ite ?_ ?_
    | rfl

theorem within_tryVerify (h st : Nat) : Within [.ctl, .bx, .snap, .freeCtr, .out] (tryVerify h st) := by
  unfold tryVerify
  repeat' first
    | with_reducible refine (within_planInterval ..).wider ?_
    | with_reducible refine (within_sendFrame ..).wider ?_
    | with_reducible refine (within_takeVerified ..).wider ?_
    | with_reducible apply within_seq_cons
    | with_reducible exact within_seq_nil
    | with_reducible refine within_look fun _ => ?_
    | with_reducible refine within_each fun _ => ?_
    | with_reducible refine within_act ?_
    | with_reducible refine within_ite ?_ ?_
    | rfl

theorem within_commit (h st : Nat) : Within [.ctl, .bx, .snap, .freeCtr, .out] (commit h st) := by
  unfold commit
  repeat' first
    | with_reducible refine (within_sendFrame ..).wider ?_
    | with_reducible refine (within_setSnap ..).wider ?_
    | with_reducible refine (within_tryVerify ..).wider ?_
    | with_reducible apply within_seq_cons
    | with_reducible exact within_seq_nil
    | with_reducible refine within_look fun _ => ?_
    | with_reducible refine within_ite ?_ ?_
    | rfl

theorem within_storeAdvance (h : Nat) : Within [.ctl, .bx, .snap, .freeCtr, .out] (storeAdvance h) := by
  unfold storeAdvance
  repeat' first
    | with_reducible exact within_nop
    | with_reducible refine (within_commit ..).wider ?_
    | with_reducible refine (within_queueStore ..).wider ?_
    | with_reducible refine (within_setSnap ..).wider ?_
    | with_reducible refine within_one ?_
    | with_reducible apply within_seq_cons
    | with_reducible exact within_seq_nil
    | with_reducible refine within_look fun _ => ?_
    | with_reducible refine within_ite ?_ ?_
    | rfl
    | split
    | dsimp only

theorem within_endCapture (h : Nat) : Within [.ctl, .mem, .chk, .mergeBuf, .bx, .snap, .dumpRun, .freeCtr, .out] (endCapture h) := by
  unfold endCapture
  repeat' first
    | with_reducible exact within_nop
    | with_reducible refine (within_setSnap ..).wider ?_
    | with_reducible refine (within_snapStatus ..).wider ?_
    | with_reducible refine (within_storeAdvance ..).wider ?_
    | with_reducible refine (within_storeGroups ..).wider ?_
    | with_reducible refine within_one ?_
    | with_reducible apply within_seq_cons
    | with_reducible exact within_seq_nil
    | with_reducible refine within_look fun _ => ?_
    | with_reducible refine within_act ?_
    | with_reducible refine within_ite ?_ ?_
    | rfl
    | split
    | dsimp only

theorem within_actEntryCaptured (h i : Nat) : Within [.ctl, .mem, .chk, .mergeBuf, .bx, .snap, .dumpRun, .freeCtr, .out] (actEntryCaptured h i) := by
  unfold actEntryCaptured
  repeat' first
    | with_reducible exact within_nop
    | with_reducible refine (within_copyReads ..).wider ?_
    | with_reducible refine (within_endCapture ..).wider ?_
    | with_reducible refine (within_sendMirror ..).wider ?_
    | with_reducible refine (within_setPl ..).wider ?_
    | with_reducible refine (within_storeEntry ..).wider ?_
    | with_reducible apply within_seq_cons
    | with_reducible exact within_seq_nil
    | with_reducible refine within_look fun _ => ?_
    | with_reducible refine within_each fun _ => ?_
    | with_reducible refine within_act ?_
    | rfl
    | split
    | dsimp only

theorem within_actUngroupedCopyDone (h : Nat) : Within [.ctl, .mem, .chk, .packets, .mergeBuf, .bx, .snap, .dumpRun, .freeCtr, .out] (actUngroupedCopyDone h) := by
  unfold actUngroupedCopyDone
  repeat' first
    | with_reducible exact within_nop
    | with_reducible refine (within_endCapture ..).wider ?_
    | with_reducible refine (within_flagAll ..).wider ?_
    | with_reducible refine (within_setSnap ..).wider ?_
    | with_reducible refine within_one ?_
    | with_reducible apply within_seq_cons
    | with_reducible exact within_seq_nil
    | with_reducible refine within_look fun _ => ?_
    | with_reducible refine within_act ?_
    | rfl
    | split

theorem within_stored (h a : Nat) : Within [.ctl, .bx, .snap, .freeCtr, .out] (stored h a) := by
  unfold stored
  repeat' first
    | with_reducible refine (within_setSnap ..).wider ?_
    | with_reducible refine (within_storeAdvance ..).wider ?_
    | with_reducible apply within_seq_cons
    | with_reducible exact within_seq_nil
    | with_reducible refine within_look fun _ => ?_
    | with_reducible refine within_act ?_
    | rfl

theorem within_actSack (p h : Nat) (addr : DWord) : Within [.ctl, .bx, .snap, .dumpRun, .freeCtr, .out] (actSack p h addr) := by
  unfold actSack
  repeat' first
    | with_reducible refine within_rxAux rfl ?_
    | with_reducible refine (within_stored ..).wider ?_
    | rfl

theorem within_actStoreTimeout (h : Nat) : Within [.ctl, .bx, .snap, .dumpRun, .freeCtr, .out] (actStoreTimeout h) := by
  unfold actStoreTimeout
  repeat' first
    | with_reducible exact within_nop
    | with_reducible refine (within_abandonSnapshot ..).wider ?_
    | with_reducible refine (within_count ..).wider ?_
    | with_reducible refine within_one ?_
    | with_reducible apply within_seq_cons
    | with_reducible exact within_seq_nil
    | with_reducible refine within_look fun _ => ?_
    | with_reducible refine within_act ?_
    | rfl
    | split
    | dsimp only

theorem within_actMwr (f : FrameHdr) (data : List Byte) : Within [.ctl, .mem, .chk, .mergeBuf, .bx, .snap, .dumpRun, .freeCtr, .out] (actMwr f data) := by
  unfold actMwr
  repeat' first
    | with_reducible exact within_nop
    | with_reducible refine (within_devWrite ..).wider ?_
    | with_reducible refine within_rxTorus rfl ?_
    | with_reducible refine (within_sendFrame ..).wider ?_
    | with_reducible refine (within_setSnap ..).wider ?_
    | with_reducible refine within_one ?_
    | with_reducible apply within_seq_cons
    | with_reducible exact within_seq_nil
    | with_reducible refine within_look fun _ => ?_
    | with_reducible refine within_act ?_
    | with_reducible refine within_ite ?_ ?_
    | rfl
    | split

theorem within_actMack (f : FrameHdr) : Within [.ctl, .bx, .snap, .dumpRun, .freeCtr, .out] (actMack f) := by
  unfold actMack
  repeat' first
    | with_reducible refine within_rxTorus rfl ?_
    | with_reducible refine (within_setSnap ..).wider ?_
    | with_reducible refine within_one ?_
    | rfl

theorem within_actScommit (f : FrameHdr) : Within [.ctl, .bx, .snap, .dumpRun, .freeCtr, .out] (actScommit f) := by
  unfold actScommit
  repeat' first
    | with_reducible refine (within_dropSnapshot ..).wider ?_
    | with_reducible refine within_rxTorus rfl ?_
    | with_reducible refine (within_sendPlan ..).wider ?_
    | with_reducible refine (within_setSnap ..).wider ?_
    | with_reducible refine (within_setSnapNext ..).wider ?_
    | with_reducible refine (within_snapStatus ..).wider ?_
    | with_reducible refine (within_tryVerify ..).wider ?_
    | with_reducible apply within_seq_cons
    | with_reducible exact within_seq_nil
    | with_reducible refine within_look fun _ => ?_
    | with_reducible refine within_act ?_
    | with_reducible refine within_ite ?_ ?_
    | rfl

theorem within_actSverified (f : FrameHdr) : Within [.ctl, .bx, .snap, .dumpRun, .freeCtr, .out] (actSverified f) := by
  unfold actSverified
  repeat' first
    | with_reducible refine within_rxTorus rfl ?_
    | with_reducible refine (within_takeVerified ..).wider ?_
    | with_reducible refine within_ite ?_ ?_
    | rfl

theorem within_actSplan (f : FrameHdr) : Within [.ctl, .bx, .snap, .dumpRun, .freeCtr, .out] (actSplan f) := by
  unfold actSplan
  repeat' first
    | with_reducible refine (within_dropSnapshot ..).wider ?_
    | with_reducible refine within_rxTorus rfl ?_
    | with_reducible refine (within_setSnapNext ..).wider ?_
    | with_reducible refine (within_snapStatus ..).wider ?_
    | with_reducible apply within_seq_cons
    | with_reducible exact within_seq_nil
    | with_reducible refine within_look fun _ => ?_
    | with_reducible refine within_act ?_
    | rfl

/-! ## Restore -/

theorem within_setSpares (f : Spares → Spares) : Within [.spares] (setSpares f) := by
  unfold setSpares
  repeat' first
    | with_reducible refine within_one ?_
    | with_reducible refine within_look fun _ => ?_
    | rfl

theorem within_standDownAll  : Within [.ctl, .bx, .spares, .out] (standDownAll) := by
  unfold standDownAll
  repeat' first
    | with_reducible refine (within_giveFrame ..).wider ?_
    | with_reducible refine (within_setSpares ..).wider ?_
    | with_reducible apply within_seq_cons
    | with_reducible exact within_seq_nil
    | with_reducible refine within_look fun _ => ?_
    | with_reducible refine within_each fun _ => ?_
    | rfl

theorem within_podNotice (h reason : Nat) (p : Nat) : Within [.ctl, .notices] (podNotice h reason p) := by
  unfold podNotice
  repeat' first
    | with_reducible exact within_nop
    | with_reducible refine (within_notify ..).wider ?_
    | with_reducible refine within_one ?_
    | with_reducible refine within_look fun _ => ?_
    | with_reducible refine within_ite ?_ ?_
    | rfl
    | split

theorem within_haltAll (h action : Nat) : Within [.out] (haltAll h action) := by
  unfold haltAll
  repeat' first
    | with_reducible refine (within_sendHalt ..).wider ?_
    | with_reducible refine within_look fun _ => ?_
    | with_reducible refine within_act ?_
    | rfl

theorem within_failAffected (h : Nat) : Within [.ctl, .core, .herd, .notices, .snap, .out] (failAffected h) := by
  unfold failAffected
  repeat' first
    | with_reducible refine (within_failHere ..).wider ?_
    | with_reducible refine (within_haltAll ..).wider ?_
    | with_reducible refine (within_setSnap ..).wider ?_
    | with_reducible refine (within_snapStatus ..).wider ?_
    | with_reducible refine within_one ?_
    | with_reducible apply within_seq_cons
    | with_reducible exact within_seq_nil
    | rfl

theorem within_failRecovery  : Within [.ctl, .core, .herd, .bx, .notices, .snap, .spares, .out] (failRecovery) := by
  unfold failRecovery
  repeat' first
    | with_reducible refine (within_failAffected ..).wider ?_
    | with_reducible refine (within_setSpares ..).wider ?_
    | with_reducible refine (within_standDownAll ..).wider ?_
    | with_reducible refine within_one ?_
    | with_reducible apply within_seq_cons
    | with_reducible exact within_seq_nil
    | with_reducible refine within_look fun _ => ?_
    | with_reducible refine within_each fun _ => ?_
    | rfl

theorem within_recoveryDone  : Within [.ctl, .notices, .spares, .evQueue, .out] (recoveryDone) := by
  unfold recoveryDone
  repeat' first
    | with_reducible refine (within_podNotice ..).wider ?_
    | with_reducible refine (within_setSpares ..).wider ?_
    | with_reducible refine (within_tellFleet ..).wider ?_
    | with_reducible refine within_one ?_
    | with_reducible apply within_seq_cons
    | with_reducible exact within_seq_nil
    | with_reducible refine within_look fun _ => ?_
    | with_reducible refine within_each fun _ => ?_
    | with_reducible refine within_act ?_
    | rfl

theorem within_noteRdone (h q : Nat) (ok : Bool) : Within [.ctl, .core, .herd, .bx, .notices, .snap, .spares, .evQueue, .out] (noteRdone h q ok) := by
  unfold noteRdone
  repeat' first
    | with_reducible refine (within_failRecovery ..).wider ?_
    | with_reducible refine (within_recoveryDone ..).wider ?_
    | with_reducible refine (within_setSpares ..).wider ?_
    | with_reducible refine within_one ?_
    | with_reducible apply within_seq_cons
    | with_reducible exact within_seq_nil
    | with_reducible refine within_ite ?_ ?_
    | rfl

theorem within_sendFilldone (ok : Bool) : Within [.ctl, .bx, .out] (sendFilldone ok) := by
  unfold sendFilldone
  repeat' first
    | with_reducible refine (within_giveFrame ..).wider ?_
    | with_reducible refine (within_wrBit ..).wider ?_
    | with_reducible apply within_seq_cons
    | with_reducible exact within_seq_nil
    | with_reducible refine within_look fun _ => ?_
    | rfl

theorem within_spareFilled (h : Nat) (ok : Bool) : Within [.ctl, .bx, .spares, .out] (spareFilled h ok) := by
  unfold spareFilled
  repeat' first
    | with_reducible refine (within_sendFilldone ..).wider ?_
    | with_reducible refine (within_setSpares ..).wider ?_
    | with_reducible refine within_one ?_
    | with_reducible apply within_seq_cons
    | with_reducible exact within_seq_nil
    | with_reducible refine within_look fun _ => ?_
    | with_reducible refine within_act ?_
    | with_reducible refine within_ite ?_ ?_
    | rfl

theorem within_reportRestore (h : Nat) (r : Restore) (ok : Bool) (st : Nat) : Within [.ctl, .core, .herd, .bx, .hcmd, .completions, .notices, .snap, .spares, .dumpRun, .evQueue, .freeCtr, .out] (reportRestore h r ok st) := by
  unfold reportRestore
  repeat' first
    | with_reducible exact within_nop
    | with_reducible refine (within_answer ..).wider ?_
    | with_reducible refine (within_noteRdone ..).wider ?_
    | with_reducible refine (within_sendFrame ..).wider ?_
    | with_reducible refine (within_spareFilled ..).wider ?_
    | with_reducible refine within_one ?_
    | with_reducible refine within_look fun _ => ?_
    | with_reducible refine within_ite ?_ ?_
    | rfl
    | split

theorem within_failRestore (h : Nat) : Within [.ctl, .core, .herd, .bx, .hcmd, .completions, .notices, .snap, .spares, .dumpRun, .evQueue, .freeCtr, .out] (failRestore h) := by
  unfold failRestore
  repeat' first
    | with_reducible exact within_nop
    | with_reducible refine (within_count ..).wider ?_
    | with_reducible refine (within_raise ..).wider ?_
    | with_reducible refine (within_reportRestore ..).wider ?_
    | with_reducible refine (within_setIst ..).wider ?_
    | with_reducible refine (within_setSnap ..).wider ?_
    | with_reducible refine (within_snapStatus ..).wider ?_
    | with_reducible refine within_one ?_
    | with_reducible apply within_seq_cons
    | with_reducible exact within_seq_nil
    | with_reducible refine within_look fun _ => ?_
    | rfl
    | split

theorem within_feedSpare (h : Nat) (r : Restore) : Within [.ctl, .bx, .snap, .out] (feedSpare h r) := by
  unfold feedSpare
  repeat' first
    | with_reducible exact within_nop
    | with_reducible refine (within_sendFrame ..).wider ?_
    | with_reducible refine (within_sendMirror ..).wider ?_
    | with_reducible apply within_seq_cons
    | with_reducible exact within_seq_nil
    | with_reducible refine within_look fun _ => ?_
    | with_reducible refine within_each fun _ => ?_
    | with_reducible refine within_act ?_
    | rfl
    | split

theorem within_finishRestore (h : Nat) (r : Restore) (m : List Byte) : Within [.ctl, .store, .rod, .storeBad, .rodBad, .vreg, .acc, .core, .herd, .bx, .hcmd, .completions, .notices, .snap, .spares, .dumpRun, .evQueue, .freeCtr, .out] (finishRestore h r m) := by
  unfold finishRestore
  repeat' first
    | with_reducible refine (within_clearCore ..).wider ?_
    | with_reducible refine (within_feedSpare ..).wider ?_
    | with_reducible refine (within_reportRestore ..).wider ?_
    | with_reducible refine (within_setCoreState ..).wider ?_
    | with_reducible refine (within_setIst ..).wider ?_
    | with_reducible refine (within_setSnap ..).wider ?_
    | with_reducible refine (within_snapStatus ..).wider ?_
    | with_reducible refine (within_wr64 ..).wider ?_
    | with_reducible refine (within_wrBit ..).wider ?_
    | with_reducible refine within_mapGetD fun _ => ?_
    | with_reducible refine within_one ?_
    | with_reducible apply within_seq_cons
    | with_reducible exact within_seq_nil
    | with_reducible refine within_look fun _ => ?_
    | with_reducible refine within_each fun _ => ?_
    | with_reducible refine within_act ?_
    | with_reducible refine within_ite ?_ ?_
    | rfl

theorem within_tryFinish (h : Nat) : Within [.ctl, .store, .rod, .storeBad, .rodBad, .vreg, .acc, .core, .herd, .bx, .hcmd, .completions, .notices, .snap, .spares, .dumpRun, .evQueue, .freeCtr, .out] (tryFinish h) := by
  unfold tryFinish
  repeat' first
    | with_reducible exact within_nop
    | with_reducible refine (within_failRestore ..).wider ?_
    | with_reducible refine (within_finishRestore ..).wider ?_
    | with_reducible refine within_one ?_
    | with_reducible refine within_look fun _ => ?_
    | with_reducible refine within_ite ?_ ?_
    | rfl
    | split
    | dsimp only

theorem within_setRestore (h : Nat) (f : Restore → Restore) : Within [.snap] (setRestore h f) := by
  unfold setRestore
  repeat' first
    | with_reducible refine (within_setSnap ..).wider ?_
    | rfl

theorem within_badChunk (h : Nat) (r : Restore) (k : Nat × Nat) : Within [.ctl, .core, .herd, .bx, .hcmd, .completions, .notices, .snap, .spares, .dumpRun, .evQueue, .freeCtr, .out] (badChunk h r k) := by
  unfold badChunk
  repeat' first
    | with_reducible refine (within_failRestore ..).wider ?_
    | with_reducible refine (within_setRestore ..).wider ?_
    | with_reducible refine within_ite ?_ ?_
    | rfl

theorem within_restorePage (h p : Nat) (attr : Byte) (bs : List Byte) : Within [.ctl, .core, .mem, .chk, .farMem, .herd, .extent, .touched, .mergeBuf, .bx, .hcmd, .completions, .notices, .snap, .spares, .dumpRun, .evQueue, .freeCtr, .out] (restorePage h p attr bs) := by
  unfold restorePage
  refine within_look fun s => ?_
  dsimp only
  split
  · exact (within_failRestore ..).wider rfl
  · next us he =>
    refine within_seq_cons ?_ (within_seq_cons (within_look fun s => ?_) within_seq_nil)
    · split at he
      · split at he
        · cases he; exact ⟨fun _ _ hu => nomatch hu⟩
        · cases he
      · exact (within_placeNew he).wider rfl
    · repeat' first
        | with_reducible refine (within_devWrite ..).wider ?_
        | with_reducible refine (within_bump ..).wider ?_
        | with_reducible refine (within_setEntry ..).wider ?_
        | with_reducible refine (within_dropLines ..).wider ?_
        | with_reducible refine (within_count ..).wider ?_
        | with_reducible apply within_seq_cons
        | with_reducible exact within_seq_nil
        | with_reducible refine within_act ?_
        | with_reducible refine within_ite ?_ ?_
        | with_reducible refine within_each fun _ => ?_
        | with_reducible refine within_one ?_
        | rfl

theorem within_restoreGroups (h addr : Nat) (data : List Byte) : Within [.ctl, .mem, .chk, .mergeBuf, .dumpRun, .freeCtr] (restoreGroups h addr data) := by
  unfold restoreGroups
  repeat' first
    | with_reducible exact within_nop
    | with_reducible refine (within_count ..).wider ?_
    | with_reducible refine (within_devWrite ..).wider ?_
    | with_reducible refine within_mapGetD fun _ => ?_
    | with_reducible refine within_one ?_
    | with_reducible apply within_seq_cons
    | with_reducible exact within_seq_nil
    | with_reducible refine within_look fun _ => ?_
    | with_reducible refine within_each fun _ => ?_
    | with_reducible refine within_act ?_
    | rfl
    | split

theorem within_takeManifest (h : Nat) (r : Restore) (rec_ : List Byte) : Within [.ctl, .store, .rod, .storeBad, .rodBad, .vreg, .acc, .core, .herd, .bx, .hcmd, .completions, .notices, .snap, .spares, .dumpRun, .evQueue, .freeCtr, .out] (takeManifest h r rec_) := by
  unfold takeManifest
  repeat' first
    | with_reducible exact within_nop
    | with_reducible refine (within_badChunk ..).wider ?_
    | with_reducible refine (within_setRestore ..).wider ?_
    | with_reducible refine (within_tryFinish ..).wider ?_
    | with_reducible apply within_seq_cons
    | with_reducible exact within_seq_nil
    | with_reducible refine within_look fun _ => ?_
    | with_reducible refine within_ite ?_ ?_
    | rfl

theorem within_takeChunk (h : Nat) (r : Restore) (m rec_ : List Byte) : Within [.ctl, .store, .rod, .storeBad, .rodBad, .vreg, .acc, .core, .mem, .chk, .farMem, .herd, .extent, .touched, .mergeBuf, .bx, .hcmd, .completions, .notices, .snap, .spares, .dumpRun, .evQueue, .freeCtr, .out] (takeChunk h r m rec_) := by
  unfold takeChunk
  repeat' first
    | with_reducible exact within_nop
    | with_reducible refine (within_badChunk ..).wider ?_
    | with_reducible refine (within_restoreGroups ..).wider ?_
    | with_reducible refine (within_restorePage ..).wider ?_
    | with_reducible refine (within_setRestore ..).wider ?_
    | with_reducible refine (within_tryFinish ..).wider ?_
    | with_reducible apply within_seq_cons
    | with_reducible exact within_seq_nil
    | with_reducible refine within_look fun _ => ?_
    | with_reducible refine within_each fun _ => ?_
    | with_reducible refine within_ite ?_ ?_
    | rfl

theorem within_actRestoreChunk (h : Nat) (rec_ : List Byte) : Within [.ctl, .store, .rod, .storeBad, .rodBad, .vreg, .acc, .core, .mem, .chk, .farMem, .herd, .extent, .touched, .mergeBuf, .bx, .hcmd, .completions, .notices, .snap, .spares, .dumpRun, .evQueue, .freeCtr, .out] (actRestoreChunk h rec_) := by
  unfold actRestoreChunk
  repeat' first
    | with_reducible exact within_nop
    | with_reducible refine (within_takeChunk ..).wider ?_
    | with_reducible refine (within_takeManifest ..).wider ?_
    | with_reducible refine within_one ?_
    | with_reducible refine within_look fun _ => ?_
    | with_reducible refine within_ite ?_ ?_
    | rfl
    | split

theorem within_askRestore (h : Nat) (r : Restore) : Within [.ctl, .snap] (askRestore h r) := by
  unfold askRestore
  repeat' first
    | with_reducible refine (within_dropSnapshot ..).wider ?_
    | with_reducible refine (within_setSnap ..).wider ?_
    | with_reducible refine (within_snapStatus ..).wider ?_
    | with_reducible refine within_one ?_
    | with_reducible apply within_seq_cons
    | with_reducible exact within_seq_nil
    | rfl

theorem within_restoreBody (base : DWord) (slot : Nat) (a : Asker) (h : Nat) : Within [.ctl, .bx, .hcmd, .completions, .snap, .dumpRun, .freeCtr, .out] (restoreBody base slot a h) := by
  unfold restoreBody
  repeat' first
    | with_reducible refine (within_answer ..).wider ?_
    | with_reducible refine (within_askRestore ..).wider ?_
    | with_reducible refine within_one ?_
    | with_reducible refine within_look fun _ => ?_
    | with_reducible refine within_ite ?_ ?_
    | rfl

theorem within_actSnapRestore (c : CmdId) (base : DWord) (slot : Fin 2) : Within [.ctl, .bx, .hcmd, .htag, .busyRing, .completions, .fnTurn, .snap, .dumpRun, .freeCtr, .out] (actSnapRestore c base slot) := by
  unfold actSnapRestore
  repeat' first
    | with_reducible refine within_herdCmd rfl (fun _ _ => ?_)
    | with_reducible refine (within_restoreBody ..).wider ?_
    | rfl

theorem within_survive (h q : Nat) (full : Bool) : Within [.ctl, .snap] (survive h q full) := by
  unfold survive
  repeat' first
    | with_reducible refine (within_askRestore ..).wider ?_
    | with_reducible refine within_mapGetD fun _ => ?_
    | with_reducible refine within_one ?_
    | with_reducible refine within_look fun _ => ?_
    | rfl

theorem within_spareRestore (t : TakeHerd) : Within [.ctl, .snap] (spareRestore t) := by
  unfold spareRestore
  repeat' first
    | with_reducible refine (within_askRestore ..).wider ?_
    | with_reducible refine within_one ?_
    | rfl

theorem within_spareCreate (t : TakeHerd) : Within [.ctl, .store, .rod, .storeBad, .rodBad, .vreg, .acc, .core, .mem, .chk, .herd, .mergeBuf, .bx, .snap, .spares, .dumpRun, .freeCtr, .out] (spareCreate t) := by
  unfold spareCreate
  repeat' first
    | with_reducible refine (within_setSnap ..).wider ?_
    | with_reducible refine (within_setUpHerd ..).wider ?_
    | with_reducible refine (within_spareFilled ..).wider ?_
    | with_reducible refine (within_spareRestore ..).wider ?_
    | with_reducible refine (within_wr ..).wider ?_
    | with_reducible refine (within_wr64 ..).wider ?_
    | with_reducible refine within_one ?_
    | with_reducible apply within_seq_cons
    | with_reducible exact within_seq_nil
    | with_reducible refine within_look fun _ => ?_
    | with_reducible refine within_ite ?_ ?_
    | rfl

theorem within_actRestoreStart (h : Nat) : Within [.ctl, .store, .rod, .storeBad, .rodBad, .vreg, .acc, .core, .mem, .chk, .herd, .mergeBuf, .bx, .snap, .spares, .dumpRun, .freeCtr, .out] (actRestoreStart h) := by
  unfold actRestoreStart
  repeat' first
    | with_reducible exact within_nop
    | with_reducible refine (within_disableRings ..).wider ?_
    | with_reducible refine (within_pauseHerd ..).wider ?_
    | with_reducible refine (within_sendFilldone ..).wider ?_
    | with_reducible refine (within_setRestore ..).wider ?_
    | with_reducible refine (within_spareCreate ..).wider ?_
    | with_reducible refine (within_wrBit ..).wider ?_
    | with_reducible refine within_one ?_
    | with_reducible apply within_seq_cons
    | with_reducible exact within_seq_nil
    | with_reducible refine within_look fun _ => ?_
    | with_reducible refine within_each fun _ => ?_
    | with_reducible refine within_act ?_
    | rfl
    | split

theorem within_fetchBody (store dest : DWord) (n : Nat) (a : Asker) (h : Nat) : Within [.ctl, .bx, .hcmd, .completions, .snap, .dumpRun, .freeCtr, .out] (fetchBody store dest n a h) := by
  unfold fetchBody
  repeat' first
    | with_reducible refine (within_answer ..).wider ?_
    | with_reducible refine (within_setSnap ..).wider ?_
    | with_reducible refine within_look fun _ => ?_
    | with_reducible refine within_ite ?_ ?_
    | rfl

theorem within_actSnapFetch (c : CmdId) (store dest : DWord) (n : Nat) : Within [.ctl, .bx, .hcmd, .htag, .busyRing, .completions, .fnTurn, .snap, .dumpRun, .freeCtr, .out] (actSnapFetch c store dest n) := by
  unfold actSnapFetch
  repeat' first
    | with_reducible exact within_nop
    | with_reducible refine (within_fetchBody ..).wider ?_
    | with_reducible refine within_herdCmd rfl (fun _ _ => ?_)
    | with_reducible refine within_look fun _ => ?_
    | with_reducible refine within_ite ?_ ?_
    | rfl

theorem within_actSrd (h : Nat) (addr : DWord) (len : Nat) : Within [.ctl, .bx, .out] (actSrd h addr len) := by
  unfold actSrd
  repeat' first
    | with_reducible exact within_nop
    | with_reducible refine (within_giveFrame ..).wider ?_
    | with_reducible refine within_one ?_
    | with_reducible refine within_look fun _ => ?_
    | with_reducible refine within_act ?_
    | with_reducible refine within_ite ?_ ?_
    | rfl

theorem within_actSrdr (p h : Nat) (addr : DWord) (data : List Byte) : Within [.ctl, .mem, .chk, .farMem, .touched, .mergeBuf, .bx, .hcmd, .completions, .snap, .dumpRun, .freeCtr, .out] (actSrdr p h addr data) := by
  unfold actSrdr
  repeat' first
    | with_reducible exact within_nop
    | with_reducible refine (within_answer ..).wider ?_
    | with_reducible refine within_rxAux rfl ?_
    | with_reducible refine (within_setSnap ..).wider ?_
    | with_reducible refine (within_urWrite ..).wider ?_
    | with_reducible refine within_one ?_
    | with_reducible apply within_seq_cons
    | with_reducible exact within_seq_nil
    | with_reducible refine within_look fun _ => ?_
    | with_reducible refine within_ite ?_ ?_
    | rfl
    | split

theorem within_actSerr (p h : Nat) (addr : DWord) : Within [.ctl, .core, .herd, .bx, .hcmd, .completions, .notices, .snap, .spares, .dumpRun, .evQueue, .freeCtr, .out] (actSerr p h addr) := by
  unfold actSerr
  repeat' first
    | with_reducible exact within_nop
    | with_reducible refine (within_abandonSnapshot ..).wider ?_
    | with_reducible refine (within_answer ..).wider ?_
    | with_reducible refine (within_count ..).wider ?_
    | with_reducible refine (within_failRestore ..).wider ?_
    | with_reducible refine within_rxAux rfl ?_
    | with_reducible refine (within_setSnap ..).wider ?_
    | with_reducible refine within_one ?_
    | with_reducible apply within_seq_cons
    | with_reducible exact within_seq_nil
    | with_reducible refine within_look fun _ => ?_
    | with_reducible refine within_ite ?_ ?_
    | rfl
    | split

theorem within_actStoreDmaCompletion (h : Nat) (addr : DWord) (_data : List Byte) : Within [.ctl, .bx, .snap, .freeCtr, .out] (actStoreDmaCompletion h addr _data) := by
  unfold actStoreDmaCompletion
  repeat' first
    | with_reducible refine (within_stored ..).wider ?_
    | with_reducible refine within_look fun _ => ?_
    | with_reducible refine within_act ?_
    | rfl

theorem within_actRdone (f : FrameHdr) (status : Byte) : Within [.ctl, .core, .herd, .bx, .notices, .snap, .spares, .dumpRun, .evQueue, .freeCtr, .out] (actRdone f status) := by
  unfold actRdone
  repeat' first
    | with_reducible refine (within_noteRdone ..).wider ?_
    | with_reducible refine within_rxTorus rfl ?_
    | with_reducible refine within_one ?_
    | rfl

theorem within_writePod (p : PodParams) : Within [.ctl, .bx, .coll, .mc, .dumpRun, .freeCtr, .out] (writePod p) := by
  unfold writePod
  repeat' first
    | with_reducible refine (within_dropUnconnected ..).wider ?_
    | with_reducible refine (within_linkCtrlWrite ..).wider ?_
    | with_reducible refine (within_wr ..).wider ?_
    | with_reducible refine (within_wr64 ..).wider ?_
    | with_reducible refine (within_wrBit ..).wider ?_
    | with_reducible refine within_mapGetD fun _ => ?_
    | with_reducible apply within_seq_cons
    | with_reducible exact within_seq_nil
    | with_reducible refine within_look fun _ => ?_
    | with_reducible refine within_each fun _ => ?_
    | rfl

theorem within_actSpq (p : Nat) (addr : DWord) : Within [.ctl, .bx, .dumpRun, .freeCtr, .out] (actSpq p addr) := by
  unfold actSpq
  repeat' first
    | with_reducible refine (within_giveFrame ..).wider ?_
    | with_reducible refine (within_refuseFrame ..).wider ?_
    | with_reducible refine within_rxAux rfl ?_
    | with_reducible refine within_look fun _ => ?_
    | with_reducible refine within_ite ?_ ?_
    | rfl

theorem within_actSparePoll  : Within [.ctl, .bx, .out] (actSparePoll) := by
  unfold actSparePoll
  repeat' first
    | with_reducible refine (within_giveFrame ..).wider ?_
    | with_reducible refine within_look fun _ => ?_
    | with_reducible refine within_each fun _ => ?_
    | with_reducible refine within_act ?_
    | rfl

theorem within_noteSpare (k state : Nat) : Within [.spares] (noteSpare k state) := by
  unfold noteSpare
  repeat' first
    | with_reducible refine (within_setSpares ..).wider ?_
    | rfl

theorem within_actSpst (p : Nat) (k : Fin 4) (state : Byte) : Within [.ctl, .bx, .spares, .dumpRun, .freeCtr, .out] (actSpst p k state) := by
  unfold actSpst
  repeat' first
    | with_reducible refine (within_noteSpare ..).wider ?_
    | with_reducible refine within_rxAux rfl ?_
    | with_reducible refine within_look fun _ => ?_
    | with_reducible refine within_act ?_
    | rfl

theorem within_actTakeover (p : Nat) (addr : DWord) (cfg : PodParams) (herds : List TakeHerd) : Within [.ctl, .bx, .coll, .mc, .spares, .dumpRun, .freeCtr, .out] (actTakeover p addr cfg herds) := by
  unfold actTakeover
  repeat' first
    | with_reducible refine (within_giveFrame ..).wider ?_
    | with_reducible refine (within_protocolAt ..).wider ?_
    | with_reducible refine (within_refuseFrame ..).wider ?_
    | with_reducible refine within_rxAux rfl ?_
    | with_reducible refine (within_setSpares ..).wider ?_
    | with_reducible refine (within_takePodMeasure ..).wider ?_
    | with_reducible refine (within_wrBit ..).wider ?_
    | with_reducible refine (within_wrFld ..).wider ?_
    | with_reducible refine (within_writePod ..).wider ?_
    | with_reducible apply within_seq_cons
    | with_reducible exact within_seq_nil
    | with_reducible refine within_look fun _ => ?_
    | with_reducible refine within_act ?_
    | with_reducible refine within_ite ?_ ?_
    | rfl

theorem within_actTkack (p : Nat) (k : Fin 4) : Within [.ctl, .bx, .spares, .dumpRun, .freeCtr, .out] (actTkack p k) := by
  unfold actTkack
  repeat' first
    | with_reducible refine (within_noteSpare ..).wider ?_
    | with_reducible refine within_rxAux rfl ?_
    | with_reducible refine within_look fun _ => ?_
    | with_reducible refine within_act ?_
    | rfl

theorem within_actFilldone (p : Nat) (k : Fin 4) (ok : Bool) : Within [.ctl, .core, .herd, .bx, .notices, .snap, .spares, .dumpRun, .evQueue, .freeCtr, .out] (actFilldone p k ok) := by
  unfold actFilldone
  repeat' first
    | with_reducible exact within_nop
    | with_reducible refine (within_failRecovery ..).wider ?_
    | with_reducible refine (within_recoveryDone ..).wider ?_
    | with_reducible refine within_rxAux rfl ?_
    | with_reducible refine (within_setSpares ..).wider ?_
    | with_reducible refine within_one ?_
    | with_reducible apply within_seq_cons
    | with_reducible exact within_seq_nil
    | with_reducible refine within_look fun _ => ?_
    | with_reducible refine within_act ?_
    | with_reducible refine within_ite ?_ ?_
    | rfl
    | split

theorem within_actStanddown (p : Nat) (addr : DWord) : Within [.ctl, .bx, .snap, .spares, .dumpRun, .freeCtr, .out] (actStanddown p addr) := by
  unfold actStanddown
  repeat' first
    | with_reducible refine (within_refuseFrame ..).wider ?_
    | with_reducible refine within_rxAux rfl ?_
    | with_reducible refine (within_setSnap ..).wider ?_
    | with_reducible refine (within_setSpares ..).wider ?_
    | with_reducible refine (within_snapStatus ..).wider ?_
    | with_reducible refine (within_takePodMeasure ..).wider ?_
    | with_reducible refine (within_wrBit ..).wider ?_
    | with_reducible refine within_one ?_
    | with_reducible apply within_seq_cons
    | with_reducible exact within_seq_nil
    | with_reducible refine within_look fun _ => ?_
    | with_reducible refine within_each fun _ => ?_
    | with_reducible refine within_ite ?_ ?_
    | rfl

theorem within_surviveAll (h q : Nat) (full : Bool) : Within [.ctl, .bx, .hcmd, .htag, .snap, .out] (surviveAll h q full) := by
  unfold surviveAll
  repeat' first
    | with_reducible refine (within_sendHcmd ..).wider ?_
    | with_reducible refine (within_stepHtag ..).wider ?_
    | with_reducible refine (within_survive ..).wider ?_
    | with_reducible refine within_one ?_
    | with_reducible apply within_seq_cons
    | with_reducible exact within_seq_nil
    | with_reducible refine within_look fun _ => ?_
    | with_reducible refine within_each fun _ => ?_
    | with_reducible refine within_act ?_
    | rfl

theorem within_afterAnswer (o : HcmdOut) (status : Nat) : Within [.ctl, .store, .rod, .storeBad, .rodBad, .vreg, .acc, .core, .mem, .chk, .farMem, .packets, .merges, .desc, .evalDue, .herd, .extent, .ssetOwner, .moves, .touched, .mergeBuf, .bx, .hcmd, .htag, .coll, .mc, .completions, .notices, .snap, .spares, .dumpRun, .freeCtr, .out] (afterAnswer o status) := by
  unfold afterAnswer
  repeat' first
    | with_reducible exact within_nop
    | with_reducible refine (within_destroyAtMembers ..).wider ?_
    | with_reducible refine (within_destroyHerd ..).wider ?_
    | with_reducible refine (within_endReleasing ..).wider ?_
    | with_reducible refine (within_failRecovery ..).wider ?_
    | with_reducible refine (within_nextPart ..).wider ?_
    | with_reducible refine (within_resumeAll ..).wider ?_
    | with_reducible refine within_one ?_
    | with_reducible apply within_seq_cons
    | with_reducible exact within_seq_nil
    | with_reducible refine within_look fun _ => ?_
    | with_reducible refine within_act ?_
    | with_reducible refine within_ite ?_ ?_
    | rfl

theorem within_takeAnswer (q htag status count : Nat) (result : DWord) : Within [.ctl, .store, .rod, .storeBad, .rodBad, .vreg, .acc, .core, .mem, .chk, .farMem, .packets, .merges, .desc, .evalDue, .herd, .extent, .ssetOwner, .moves, .touched, .mergeBuf, .bx, .hcmd, .htag, .coll, .mc, .completions, .notices, .snap, .spares, .dumpRun, .freeCtr, .out] (takeAnswer q htag status count result) := by
  unfold takeAnswer
  repeat' first
    | with_reducible exact within_nop
    | with_reducible refine (within_afterAnswer ..).wider ?_
    | with_reducible refine (within_count ..).wider ?_
    | with_reducible refine (within_partAnswered ..).wider ?_
    | with_reducible refine (within_setHerd ..).wider ?_
    | with_reducible refine within_one ?_
    | with_reducible apply within_seq_cons
    | with_reducible exact within_seq_nil
    | with_reducible refine within_look fun _ => ?_
    | with_reducible refine within_act ?_
    | rfl
    | split

theorem within_orderSpare (k q : Nat) : Within [.ctl, .bx, .spares, .evQueue, .freeCtr, .out] (orderSpare k q) := by
  unfold orderSpare
  repeat' first
    | with_reducible refine (within_giveFrame ..).wider ?_
    | with_reducible refine (within_setIst ..).wider ?_
    | with_reducible refine (within_setSpares ..).wider ?_
    | with_reducible refine (within_takeFree ..).wider ?_
    | with_reducible refine (within_tellFleet ..).wider ?_
    | with_reducible apply within_seq_cons
    | with_reducible exact within_seq_nil
    | with_reducible refine within_look fun _ => ?_
    | rfl

theorem within_declareFailed (q : Nat) : Within [.ctl, .store, .rod, .storeBad, .rodBad, .vreg, .acc, .core, .mem, .chk, .farMem, .packets, .merges, .desc, .evalDue, .herd, .extent, .ssetOwner, .moves, .touched, .mergeBuf, .bx, .hcmd, .htag, .coll, .mc, .completions, .notices, .snap, .spares, .dumpRun, .evQueue, .freeCtr, .out] (declareFailed q) := by
  unfold declareFailed
  repeat' first
    | with_reducible exact within_nop
    | with_reducible refine (within_failAffected ..).wider ?_
    | with_reducible refine (within_failRecovery ..).wider ?_
    | with_reducible refine (within_haltAll ..).wider ?_
    | with_reducible refine (within_memberGone ..).wider ?_
    | with_reducible refine (within_orderSpare ..).wider ?_
    | with_reducible refine (within_partAnswered ..).wider ?_
    | with_reducible refine (within_pausePodHerd ..).wider ?_
    | with_reducible refine (within_podNotice ..).wider ?_
    | with_reducible refine (within_sendFrame ..).wider ?_
    | with_reducible refine (within_setSpares ..).wider ?_
    | with_reducible refine (within_standDownAll ..).wider ?_
    | with_reducible refine (within_surviveAll ..).wider ?_
    | with_reducible refine (within_takeAnswer ..).wider ?_
    | with_reducible refine (within_tellFleet ..).wider ?_
    | with_reducible refine within_one ?_
    | with_reducible apply within_seq_cons
    | with_reducible exact within_seq_nil
    | with_reducible refine within_look fun _ => ?_
    | with_reducible refine within_each fun _ => ?_
    | with_reducible refine within_act ?_
    | with_reducible refine within_ite ?_ ?_
    | rfl
    | split

theorem within_declareOrphans (k : Nat) : Within [.ctl, .store, .rod, .storeBad, .rodBad, .vreg, .acc, .core, .mem, .chk, .farMem, .packets, .merges, .desc, .evalDue, .herd, .extent, .ssetOwner, .moves, .touched, .mergeBuf, .bx, .hcmd, .htag, .coll, .mc, .completions, .notices, .snap, .spares, .dumpRun, .evQueue, .freeCtr, .out] (declareOrphans k) := by
  induction k with
  | zero => exact within_nop
  | succ k ih =>
    unfold declareOrphans
    refine within_look fun s => ?_
    split
    · exact within_seq_cons ((within_declareFailed ..).wider rfl) (within_seq_cons ih within_seq_nil)
    · exact within_nop

theorem within_actMemberFailDeclare (q : Nat) : Within [.ctl, .store, .rod, .storeBad, .rodBad, .vreg, .acc, .core, .mem, .chk, .farMem, .packets, .merges, .desc, .evalDue, .herd, .extent, .ssetOwner, .moves, .touched, .mergeBuf, .bx, .hcmd, .htag, .coll, .mc, .completions, .notices, .snap, .spares, .dumpRun, .evQueue, .freeCtr, .out] (actMemberFailDeclare q) := by
  unfold actMemberFailDeclare
  repeat' first
    | with_reducible refine (within_declareFailed ..).wider ?_
    | with_reducible refine (within_declareOrphans ..).wider ?_
    | with_reducible apply within_seq_cons
    | with_reducible exact within_seq_nil
    | with_reducible refine within_look fun _ => ?_
    | with_reducible refine within_act ?_
    | rfl

theorem within_actReportDeadlineAll  : Within [.ctl, .store, .rod, .storeBad, .rodBad, .vreg, .acc, .core, .mem, .chk, .farMem, .packets, .merges, .desc, .evalDue, .herd, .extent, .ssetOwner, .moves, .touched, .mergeBuf, .bx, .side, .hcmd, .htag, .coll, .mc, .completions, .notices, .snap, .spares, .dumpRun, .evQueue, .freeCtr, .out] (actReportDeadlineAll) := by
  unfold actReportDeadlineAll
  repeat' first
    | with_reducible refine (within_actMemberFailDeclare ..).wider ?_
    | with_reducible refine (within_actReportDeadline ..).wider ?_
    | with_reducible apply within_seq_cons
    | with_reducible exact within_seq_nil
    | with_reducible refine within_look fun _ => ?_
    | with_reducible refine within_each fun _ => ?_
    | with_reducible refine within_act ?_
    | rfl

end Sys2Proof.Machine
end

