-- ==== Sys2Proof/Laws/FrameModule.lean ====
section
/-! SUPPORT. The fields that each act can change: power, boot, events and the management port. One lemma for an act; no proof about frames needs to unfold it again. -/

namespace Sys2Proof.Machine

/-! ## Power -/

theorem within_powerLoss  : Within [.cycle, .withdrawn, .ctl, .store, .rod, .storeBad, .rodBad, .vreg, .acc, .core, .mem, .chk, .farMem, .packets, .lastGrant, .bulkOpen, .bulkPend, .mesh, .merges, .prog, .progPend, .desc, .evalDue, .ringFail, .lastTaken, .herd, .extent, .ssetOwner, .moves, .moveTurn, .touched, .mergeBuf, .bx, .side, .hcmd, .htag, .coll, .mc, .aborts, .ended, .numVfs, .bar2Log, .busyRing, .phase, .completions, .notices, .fnTurn, .hpTurn, .hpUsed, .perst, .snap, .spares, .dumpRun, .fwHeader, .wdtArmed, .rstPend, .mgmt, .evQueue, .lastCorr, .coalesced, .searches, .capRun, .freeCtr, .out] (powerLoss) := by
  unfold powerLoss
  repeat' first
    | with_reducible refine within_one ?_
    | with_reducible apply within_seq_cons
    | with_reducible exact within_seq_nil
    | rfl

theorem within_setPower (f : Power → Power) : Within [.power] (setPower f) := by
  unfold setPower
  repeat' first
    | with_reducible refine within_one ?_
    | with_reducible refine within_look fun _ => ?_
    | rfl

theorem within_switchOpen (st : PowerState) : Within [.cycle, .power, .withdrawn, .ctl, .store, .rod, .storeBad, .rodBad, .vreg, .acc, .core, .mem, .chk, .farMem, .packets, .lastGrant, .bulkOpen, .bulkPend, .mesh, .merges, .prog, .progPend, .desc, .evalDue, .ringFail, .lastTaken, .herd, .extent, .ssetOwner, .moves, .moveTurn, .touched, .mergeBuf, .bx, .side, .hcmd, .htag, .coll, .mc, .aborts, .ended, .numVfs, .bar2Log, .busyRing, .phase, .completions, .notices, .fnTurn, .hpTurn, .hpUsed, .perst, .snap, .spares, .dumpRun, .fwHeader, .wdtArmed, .rstPend, .mgmt, .evQueue, .lastCorr, .coalesced, .searches, .capRun, .freeCtr, .out] (switchOpen st) := by
  unfold switchOpen
  repeat' first
    | with_reducible refine (within_powerLoss ..).wider ?_
    | with_reducible refine (within_setPower ..).wider ?_
    | with_reducible refine within_one ?_
    | with_reducible apply within_seq_cons
    | with_reducible exact within_seq_nil
    | rfl

theorem within_enterRamp  : Within [.power] (enterRamp) := by
  unfold enterRamp
  repeat' first
    | with_reducible refine (within_setPower ..).wider ?_
    | with_reducible refine within_look fun _ => ?_
    | with_reducible refine within_act ?_
    | rfl

theorem within_actPwrEnRise  : Within [.power] (actPwrEnRise) := by
  unfold actPwrEnRise
  repeat' first
    | with_reducible refine (within_enterRamp ..).wider ?_
    | with_reducible refine (within_setPower ..).wider ?_
    | with_reducible apply within_seq_cons
    | with_reducible exact within_seq_nil
    | with_reducible refine within_look fun _ => ?_
    | with_reducible refine within_act ?_
    | rfl

theorem within_actPwrEnHoldoffEnd  : Within [.power] (actPwrEnHoldoffEnd) := by
  unfold actPwrEnHoldoffEnd
  repeat' first
    | with_reducible refine (within_enterRamp ..).wider ?_
    | with_reducible refine (within_setPower ..).wider ?_
    | with_reducible apply within_seq_cons
    | with_reducible exact within_seq_nil
    | with_reducible refine within_look fun _ => ?_
    | with_reducible refine within_act ?_
    | rfl

theorem within_actRailsGood (hp : BitVec 2) (inl : Bool) (slot : BitVec 3) : Within [.cycle, .power, .straps, .withdrawn, .ctl, .store, .rod, .storeBad, .rodBad, .vreg, .acc, .core, .mem, .chk, .farMem, .packets, .lastGrant, .bulkOpen, .bulkPend, .mesh, .merges, .prog, .progPend, .desc, .evalDue, .ringFail, .lastTaken, .herd, .extent, .ssetOwner, .moves, .moveTurn, .touched, .mergeBuf, .bx, .side, .hcmd, .htag, .coll, .mc, .aborts, .ended, .numVfs, .bar2Log, .busyRing, .phase, .completions, .notices, .fnTurn, .hpTurn, .hpUsed, .perst, .snap, .spares, .dumpRun, .fwHeader, .wdtArmed, .rstPend, .mgmt, .evQueue, .lastCorr, .coalesced, .searches, .capRun, .freeCtr, .out] (actRailsGood hp inl slot) := by
  unfold actRailsGood
  repeat' first
    | with_reducible refine (within_powerLoss ..).wider ?_
    | with_reducible refine (within_setPower ..).wider ?_
    | with_reducible refine within_one ?_
    | with_reducible apply within_seq_cons
    | with_reducible exact within_seq_nil
    | with_reducible refine within_look fun _ => ?_
    | with_reducible refine within_act ?_
    | rfl

theorem within_actPwrEnFall  : Within [.cycle, .power, .withdrawn, .ctl, .store, .rod, .storeBad, .rodBad, .vreg, .acc, .core, .mem, .chk, .farMem, .packets, .lastGrant, .bulkOpen, .bulkPend, .mesh, .merges, .prog, .progPend, .desc, .evalDue, .ringFail, .lastTaken, .herd, .extent, .ssetOwner, .moves, .moveTurn, .touched, .mergeBuf, .bx, .side, .hcmd, .htag, .coll, .mc, .aborts, .ended, .numVfs, .bar2Log, .busyRing, .phase, .completions, .notices, .fnTurn, .hpTurn, .hpUsed, .perst, .snap, .spares, .dumpRun, .fwHeader, .wdtArmed, .rstPend, .mgmt, .evQueue, .lastCorr, .coalesced, .searches, .capRun, .freeCtr, .out] (actPwrEnFall) := by
  unfold actPwrEnFall
  repeat' first
    | with_reducible refine (within_setPower ..).wider ?_
    | with_reducible refine (within_switchOpen ..).wider ?_
    | with_reducible refine within_one ?_
    | with_reducible apply within_seq_cons
    | with_reducible exact within_seq_nil
    | with_reducible refine within_look fun _ => ?_
    | with_reducible refine within_act ?_
    | rfl

theorem within_actProtectionTrip  : Within [.cycle, .power, .withdrawn, .ctl, .store, .rod, .storeBad, .rodBad, .vreg, .acc, .core, .mem, .chk, .farMem, .packets, .lastGrant, .bulkOpen, .bulkPend, .mesh, .merges, .prog, .progPend, .desc, .evalDue, .ringFail, .lastTaken, .herd, .extent, .ssetOwner, .moves, .moveTurn, .touched, .mergeBuf, .bx, .side, .hcmd, .htag, .coll, .mc, .aborts, .ended, .numVfs, .bar2Log, .busyRing, .phase, .completions, .notices, .fnTurn, .hpTurn, .hpUsed, .perst, .snap, .spares, .dumpRun, .fwHeader, .wdtArmed, .rstPend, .mgmt, .evQueue, .lastCorr, .coalesced, .searches, .capRun, .freeCtr, .out] (actProtectionTrip) := by
  unfold actProtectionTrip
  repeat' first
    | with_reducible refine (within_switchOpen ..).wider ?_
    | with_reducible refine within_look fun _ => ?_
    | with_reducible refine within_act ?_
    | rfl

theorem within_actThermalTrip (_n : Nat) (temp : BitVec 16) : Within [.cycle, .power, .withdrawn, .ctl, .store, .rod, .storeBad, .rodBad, .vreg, .acc, .core, .mem, .chk, .farMem, .packets, .lastGrant, .bulkOpen, .bulkPend, .mesh, .merges, .prog, .progPend, .desc, .evalDue, .ringFail, .lastTaken, .herd, .extent, .ssetOwner, .moves, .moveTurn, .touched, .mergeBuf, .bx, .side, .hcmd, .htag, .coll, .mc, .aborts, .ended, .numVfs, .bar2Log, .busyRing, .phase, .completions, .notices, .fnTurn, .hpTurn, .hpUsed, .perst, .snap, .spares, .dumpRun, .fwHeader, .wdtArmed, .rstPend, .mgmt, .evQueue, .lastCorr, .coalesced, .searches, .capRun, .freeCtr, .out] (actThermalTrip _n temp) := by
  unfold actThermalTrip
  repeat' first
    | with_reducible refine (within_switchOpen ..).wider ?_
    | with_reducible refine within_look fun _ => ?_
    | with_reducible refine within_act ?_
    | rfl

theorem within_setEff  : Within [.ctl] (setEff) := by
  unfold setEff
  repeat' first
    | with_reducible refine (within_wrFld ..).wider ?_
    | with_reducible refine within_look fun _ => ?_
    | rfl

theorem within_limitWrite (r : Requester) (v : Word) : Within [.ctl, .dumpRun, .freeCtr] (limitWrite r v) := by
  unfold limitWrite
  repeat' first
    | with_reducible refine (within_maskWrite ..).wider ?_
    | with_reducible refine (within_protocolAt ..).wider ?_
    | with_reducible refine (within_setEff ..).wider ?_
    | with_reducible apply within_seq_cons
    | with_reducible exact within_seq_nil
    | with_reducible refine within_ite ?_ ?_
    | rfl

theorem within_readFru (fru : Option (List Byte)) : Within [.ctl, .mgmt] (readFru fru) := by
  unfold readFru
  repeat' first
    | with_reducible exact within_nop
    | with_reducible refine (within_setEff ..).wider ?_
    | with_reducible refine (within_setIst ..).wider ?_
    | with_reducible refine (within_wr ..).wider ?_
    | with_reducible refine within_mapGetD fun _ => ?_
    | with_reducible refine within_one ?_
    | with_reducible apply within_seq_cons
    | with_reducible exact within_seq_nil
    | with_reducible refine within_look fun _ => ?_
    | rfl
    | split

theorem within_actInputLow (vin : BitVec 16) : Within [.power, .ctl] (actInputLow vin) := by
  unfold actInputLow
  repeat' first
    | with_reducible refine (within_count ..).wider ?_
    | with_reducible refine (within_setIst ..).wider ?_
    | with_reducible refine (within_setPower ..).wider ?_
    | with_reducible refine (within_wr ..).wider ?_
    | with_reducible apply within_seq_cons
    | with_reducible exact within_seq_nil
    | with_reducible refine within_look fun _ => ?_
    | with_reducible refine within_act ?_
    | rfl

theorem within_choosePeriod (q : Nat) : Within [.ctl, .bx, .dumpRun, .freeCtr, .out] (choosePeriod q) := by
  unfold choosePeriod
  repeat' first
    | with_reducible refine (within_sendFrame ..).wider ?_
    | with_reducible refine (within_takeFree ..).wider ?_
    | with_reducible refine (within_takePeriod ..).wider ?_
    | with_reducible apply within_seq_cons
    | with_reducible exact within_seq_nil
    | with_reducible refine within_look fun _ => ?_
    | with_reducible refine within_each fun _ => ?_
    | with_reducible refine within_act ?_
    | rfl

theorem within_requestPeriod (q : Nat) : Within [.ctl, .bx, .dumpRun, .freeCtr, .out] (requestPeriod q) := by
  unfold requestPeriod
  repeat' first
    | with_reducible refine (within_choosePeriod ..).wider ?_
    | with_reducible refine (within_count ..).wider ?_
    | with_reducible refine (within_setIst ..).wider ?_
    | with_reducible refine (within_wr ..).wider ?_
    | with_reducible apply within_seq_cons
    | with_reducible exact within_seq_nil
    | with_reducible refine within_look fun _ => ?_
    | with_reducible refine within_act ?_
    | rfl

theorem within_memberPeriods  : Within [.ctl, .bx, .dumpRun, .freeCtr, .out] (memberPeriods) := by
  unfold memberPeriods
  repeat' first
    | with_reducible refine (within_choosePeriod ..).wider ?_
    | with_reducible refine (within_takeFree ..).wider ?_
    | with_reducible refine within_look fun _ => ?_
    | with_reducible refine within_act ?_
    | with_reducible refine within_ite ?_ ?_
    | rfl

theorem within_actPowerWindowEnd (avg peak : Nat) (vin iin : BitVec 16) : Within [.ctl, .bx, .dumpRun, .capRun, .freeCtr, .out] (actPowerWindowEnd avg peak vin iin) := by
  unfold actPowerWindowEnd
  repeat' first
    | with_reducible exact within_nop
    | with_reducible refine (within_count ..).wider ?_
    | with_reducible refine (within_memberPeriods ..).wider ?_
    | with_reducible refine (within_requestPeriod ..).wider ?_
    | with_reducible refine (within_setLevel ..).wider ?_
    | with_reducible refine (within_wr ..).wider ?_
    | with_reducible refine within_one ?_
    | with_reducible apply within_seq_cons
    | with_reducible exact within_seq_nil
    | with_reducible refine within_look fun _ => ?_
    | with_reducible refine within_act ?_
    | with_reducible refine within_ite ?_ ?_
    | rfl
    | split

theorem within_tempLevels  : Within [.ctl] (tempLevels) := by
  unfold tempLevels
  repeat' first
    | with_reducible refine (within_setLevel ..).wider ?_
    | with_reducible apply within_seq_cons
    | with_reducible exact within_seq_nil
    | with_reducible refine within_look fun _ => ?_
    | rfl

theorem within_actTempThresholdCross (n : Nat) (temp : BitVec 16) : Within [.ctl] (actTempThresholdCross n temp) := by
  unfold actTempThresholdCross
  repeat' first
    | with_reducible refine (within_tempLevels ..).wider ?_
    | with_reducible refine (within_wr ..).wider ?_
    | with_reducible apply within_seq_cons
    | with_reducible exact within_seq_nil
    | with_reducible refine within_look fun _ => ?_
    | with_reducible refine within_ite ?_ ?_
    | rfl

/-! ## Boot -/

theorem within_flashPut (a : Nat) (bs : List Byte) : Within [.flash] (flashPut a bs) := by
  unfold flashPut
  repeat' first
    | with_reducible refine within_one ?_
    | with_reducible refine within_each fun _ => ?_
    | rfl

theorem within_writeRecord (pref tries : Nat) (confirmed : Bool) : Within [.flash] (writeRecord pref tries confirmed) := by
  unfold writeRecord
  repeat' first
    | with_reducible refine (within_flashPut ..).wider ?_
    | with_reducible apply within_seq_cons
    | with_reducible exact within_seq_nil
    | with_reducible refine within_look fun _ => ?_
    | rfl

theorem within_sensorEvent (n value : Nat) : Within [.ctl, .evQueue, .out] (sensorEvent n value) := by
  unfold sensorEvent
  repeat' first
    | with_reducible refine (within_queueMessage ..).wider ?_
    | with_reducible refine within_one ?_
    | rfl

theorem within_bootChange {ps : List Part} (hps : covers ps [.ctl, .evQueue, .out] = true) {a : Act} (ha : Within ps a) : Within ps (bootChange a) := by
  unfold bootChange
  repeat' first
    | with_reducible exact ha
    | with_reducible exact (((within_sensorEvent ..).wider (ps := [.ctl, .evQueue, .out]) rfl)).wider hps
    | with_reducible apply within_seq_cons
    | with_reducible exact within_seq_nil
    | with_reducible refine within_look fun _ => ?_
    | with_reducible refine within_act ?_

theorem within_setDevState (n : Nat) : Within [.ctl, .evQueue, .out] (setDevState n) := by
  unfold setDevState
  repeat' first
    | with_reducible refine (within_sensorEvent ..).wider ?_
    | with_reducible refine (within_wrFld ..).wider ?_
    | with_reducible apply within_seq_cons
    | with_reducible exact within_seq_nil
    | rfl

theorem within_rejectImage (code : Nat) : Within [.ctl] (rejectImage code) := by
  unfold rejectImage
  repeat' first
    | with_reducible refine (within_count ..).wider ?_
    | with_reducible refine (within_setIst ..).wider ?_
    | with_reducible refine (within_wrFld ..).wider ?_
    | with_reducible apply within_seq_cons
    | with_reducible exact within_seq_nil
    | rfl

theorem within_takeBank (r : BootRecord) (b : Nat) : Within [.ctl, .flash, .fwHeader, .freeCtr] (takeBank r b) := by
  unfold takeBank
  repeat' first
    | with_reducible refine (within_setIst ..).wider ?_
    | with_reducible refine (within_takeFree ..).wider ?_
    | with_reducible refine (within_wrBit ..).wider ?_
    | with_reducible refine (within_wrFld ..).wider ?_
    | with_reducible refine (within_writeRecord ..).wider ?_
    | with_reducible refine within_one ?_
    | with_reducible apply within_seq_cons
    | with_reducible exact within_seq_nil
    | with_reducible refine within_look fun _ => ?_
    | with_reducible refine within_act ?_
    | with_reducible refine within_ite ?_ ?_
    | rfl

theorem within_actBankChoose (readA readB : Bool) : Within [.ctl, .flash, .fwHeader, .evQueue, .freeCtr, .out] (actBankChoose readA readB) := by
  unfold actBankChoose
  repeat' first
    | with_reducible exact within_nop
    | with_reducible refine within_bootChange rfl ?_
    | with_reducible refine (within_rejectImage ..).wider ?_
    | with_reducible refine (within_setDevState ..).wider ?_
    | with_reducible refine (within_takeBank ..).wider ?_
    | with_reducible refine (within_wrBit ..).wider ?_
    | with_reducible refine within_one ?_
    | with_reducible apply within_seq_cons
    | with_reducible exact within_seq_nil
    | with_reducible refine within_look fun _ => ?_
    | with_reducible refine within_act ?_
    | with_reducible refine within_ite ?_ ?_
    | rfl
    | split

theorem within_takeMeasure (n : Nat) : Within [.ctl] (takeMeasure n) := by
  unfold takeMeasure
  repeat' first
    | with_reducible refine (within_putMeasure ..).wider ?_
    | with_reducible refine within_look fun _ => ?_
    | rfl

theorem within_actPowerOnReset  : Within [.cycle, .withdrawn, .ctl, .store, .rod, .storeBad, .rodBad, .vreg, .acc, .core, .mem, .chk, .farMem, .packets, .lastGrant, .bulkOpen, .bulkPend, .mesh, .merges, .prog, .progPend, .desc, .evalDue, .ringFail, .lastTaken, .herd, .extent, .ssetOwner, .moves, .moveTurn, .touched, .mergeBuf, .bx, .side, .hcmd, .htag, .coll, .mc, .aborts, .ended, .numVfs, .bar2Log, .busyRing, .phase, .completions, .notices, .fnTurn, .hpTurn, .hpUsed, .perst, .snap, .spares, .dumpRun, .fwHeader, .wdtArmed, .rstPend, .mgmt, .evQueue, .lastCorr, .coalesced, .searches, .capRun, .freeCtr, .out] (actPowerOnReset) := by
  unfold actPowerOnReset
  repeat' first
    | with_reducible refine (within_powerLoss ..).wider ?_
    | with_reducible refine within_look fun _ => ?_
    | with_reducible refine within_act ?_
    | rfl

theorem within_setFreq (n : Nat) (khz : Word) : Within [.ctl] (setFreq n khz) := by
  unfold setFreq
  repeat' first
    | with_reducible refine (within_wr ..).wider ?_
    | with_reducible refine within_act ?_
    | rfl

theorem within_lockAll  : Within [.ctl] (lockAll) := by
  unfold lockAll
  repeat' first
    | with_reducible refine (within_setFreq ..).wider ?_
    | with_reducible refine (within_setLevel ..).wider ?_
    | with_reducible refine (within_wr ..).wider ?_
    | with_reducible apply within_seq_cons
    | with_reducible exact within_seq_nil
    | with_reducible refine within_each fun _ => ?_
    | rfl

theorem within_actPllLock  : Within [.ctl, .evQueue, .out] (actPllLock) := by
  unfold actPllLock
  repeat' first
    | with_reducible refine (within_lockAll ..).wider ?_
    | with_reducible refine (within_setDevState ..).wider ?_
    | with_reducible refine (within_wrBit ..).wider ?_
    | with_reducible apply within_seq_cons
    | with_reducible exact within_seq_nil
    | with_reducible refine within_look fun _ => ?_
    | with_reducible refine within_act ?_
    | rfl

theorem within_actPllLockLoss (n : Nat) : Within [.ctl, .dumpRun, .freeCtr] (actPllLockLoss n) := by
  unfold actPllLockLoss
  repeat' first
    | with_reducible refine (within_count ..).wider ?_
    | with_reducible refine (within_raise ..).wider ?_
    | with_reducible refine (within_setFreq ..).wider ?_
    | with_reducible refine (within_setLevel ..).wider ?_
    | with_reducible refine (within_takeFree ..).wider ?_
    | with_reducible refine (within_wrBit ..).wider ?_
    | with_reducible apply within_seq_cons
    | with_reducible exact within_seq_nil
    | with_reducible refine within_look fun _ => ?_
    | with_reducible refine within_act ?_
    | rfl

theorem within_actPllLockRegain (n : Nat) : Within [.ctl] (actPllLockRegain n) := by
  unfold actPllLockRegain
  repeat' first
    | with_reducible refine (within_setFreq ..).wider ?_
    | with_reducible refine (within_setLevel ..).wider ?_
    | with_reducible refine (within_wrBit ..).wider ?_
    | with_reducible apply within_seq_cons
    | with_reducible exact within_seq_nil
    | with_reducible refine within_look fun _ => ?_
    | with_reducible refine within_act ?_
    | rfl

theorem within_actFirmwareStart  : Within [.ctl, .wdtArmed, .evQueue, .out] (actFirmwareStart) := by
  unfold actFirmwareStart
  repeat' first
    | with_reducible refine within_bootChange rfl ?_
    | with_reducible refine (within_setDevState ..).wider ?_
    | with_reducible refine (within_takeMeasure ..).wider ?_
    | with_reducible refine (within_wr ..).wider ?_
    | with_reducible refine (within_wrBit ..).wider ?_
    | with_reducible refine (within_wrFld ..).wider ?_
    | with_reducible refine within_one ?_
    | with_reducible apply within_seq_cons
    | with_reducible exact within_seq_nil
    | with_reducible refine within_look fun _ => ?_
    | with_reducible refine within_each fun _ => ?_
    | with_reducible refine within_act ?_
    | rfl

theorem within_actChannelTrained (n ch : Nat) : Within [.ctl] (actChannelTrained n ch) := by
  unfold actChannelTrained
  repeat' first
    | with_reducible refine (within_wrBit ..).wider ?_
    | with_reducible apply within_seq_cons
    | with_reducible exact within_seq_nil
    | with_reducible refine within_look fun _ => ?_
    | with_reducible refine within_act ?_
    | rfl

theorem within_setGroupTable  : Within [.ctl] (setGroupTable) := by
  unfold setGroupTable
  repeat' first
    | with_reducible refine (within_wr ..).wider ?_
    | with_reducible apply within_seq_cons
    | with_reducible exact within_seq_nil
    | with_reducible refine within_look fun _ => ?_
    | with_reducible refine within_each fun _ => ?_
    | rfl

theorem within_actRunEntry (fru : Option (List Byte)) : Within [.power, .withdrawn, .ctl, .mesh, .flash, .mgmt, .evQueue, .out] (actRunEntry fru) := by
  unfold actRunEntry
  repeat' first
    | with_reducible refine within_bootChange rfl ?_
    | with_reducible refine (within_readFru ..).wider ?_
    | with_reducible refine (within_rewriteDistances ..).wider ?_
    | with_reducible refine (within_routeAround ..).wider ?_
    | with_reducible refine (within_sensorEvent ..).wider ?_
    | with_reducible refine (within_setDevState ..).wider ?_
    | with_reducible refine (within_setGroupTable ..).wider ?_
    | with_reducible refine (within_setPower ..).wider ?_
    | with_reducible refine (within_withdrawSite ..).wider ?_
    | with_reducible refine (within_wrBit ..).wider ?_
    | with_reducible refine (within_wrFld ..).wider ?_
    | with_reducible refine (within_writeRecord ..).wider ?_
    | with_reducible apply within_seq_cons
    | with_reducible exact within_seq_nil
    | with_reducible refine within_look fun _ => ?_
    | with_reducible refine within_each fun _ => ?_
    | with_reducible refine within_act ?_
    | rfl

theorem within_actPerstRelease (k : HpNo) : Within [.perst] (actPerstRelease k) := by
  unfold actPerstRelease
  repeat' first
    | with_reducible refine within_one ?_
    | with_reducible refine within_look fun _ => ?_
    | with_reducible refine within_act ?_
    | rfl

theorem within_acceptReset (cause : Nat) : Within [.ctl, .rstPend] (acceptReset cause) := by
  unfold acceptReset
  repeat' first
    | with_reducible refine (within_wrFld ..).wider ?_
    | with_reducible refine within_one ?_
    | with_reducible apply within_seq_cons
    | with_reducible exact within_seq_nil
    | with_reducible refine within_look fun _ => ?_
    | with_reducible refine within_act ?_
    | rfl

theorem within_dieReset  : Within [.ctl, .store, .rod, .storeBad, .rodBad, .vreg, .acc, .core, .farMem, .packets, .lastGrant, .bulkOpen, .bulkPend, .mesh, .merges, .prog, .progPend, .desc, .evalDue, .ringFail, .lastTaken, .herd, .extent, .ssetOwner, .moves, .moveTurn, .touched, .mergeBuf, .bx, .side, .hcmd, .htag, .coll, .mc, .aborts, .ended, .numVfs, .bar2Log, .busyRing, .phase, .completions, .notices, .fnTurn, .hpTurn, .hpUsed, .snap, .spares, .dumpRun, .fwHeader, .wdtArmed, .rstPend, .mgmt, .evQueue, .lastCorr, .coalesced, .searches, .capRun, .freeCtr, .out] (dieReset) := by
  unfold dieReset
  repeat' first
    | with_reducible refine (within_setLevel ..).wider ?_
    | with_reducible refine (within_wr ..).wider ?_
    | with_reducible refine within_one ?_
    | with_reducible apply within_seq_cons
    | with_reducible exact within_seq_nil
    | with_reducible refine within_look fun _ => ?_
    | with_reducible refine within_each fun _ => ?_
    | rfl

theorem within_actDeviceReset  : Within [.power, .ctl, .store, .rod, .storeBad, .rodBad, .vreg, .acc, .core, .mem, .chk, .farMem, .packets, .lastGrant, .bulkOpen, .bulkPend, .mesh, .merges, .prog, .progPend, .desc, .evalDue, .ringFail, .lastTaken, .herd, .extent, .ssetOwner, .moves, .moveTurn, .touched, .mergeBuf, .bx, .side, .hcmd, .htag, .coll, .mc, .aborts, .ended, .numVfs, .bar2Log, .busyRing, .phase, .completions, .notices, .fnTurn, .hpTurn, .hpUsed, .snap, .spares, .dumpRun, .fwHeader, .wdtArmed, .rstPend, .mgmt, .evQueue, .lastCorr, .coalesced, .searches, .capRun, .freeCtr, .out] (actDeviceReset) := by
  unfold actDeviceReset
  repeat' first
    | with_reducible refine (within_dieReset ..).wider ?_
    | with_reducible refine (within_retireMerge ..).wider ?_
    | with_reducible refine (within_setPower ..).wider ?_
    | with_reducible refine within_one ?_
    | with_reducible apply within_seq_cons
    | with_reducible exact within_seq_nil
    | with_reducible refine within_look fun _ => ?_
    | with_reducible refine within_each fun _ => ?_
    | with_reducible refine within_act ?_
    | rfl

theorem within_actPageFreeAll  : Within [.ctl, .mem, .chk, .mergeBuf, .dumpRun, .freeCtr] (actPageFreeAll) := by
  unfold actPageFreeAll
  repeat' first
    | with_reducible refine (within_allFree ..).wider ?_
    | with_reducible refine (within_setEntry ..).wider ?_
    | with_reducible refine (within_wrBit ..).wider ?_
    | with_reducible refine (within_zeroFrame ..).wider ?_
    | with_reducible apply within_seq_cons
    | with_reducible exact within_seq_nil
    | with_reducible refine within_look fun _ => ?_
    | with_reducible refine within_each fun _ => ?_
    | with_reducible refine within_act ?_
    | rfl

theorem within_rstCtrlWrite (v : Word) : Within [.ctl, .rstPend] (rstCtrlWrite v) := by
  unfold rstCtrlWrite
  repeat' first
    | with_reducible refine (within_acceptReset ..).wider ?_
    | with_reducible refine within_act ?_
    | rfl

theorem within_actMgtRstDev (r : Requester) (v : Word) : Within [.ctl, .dumpRun, .rstPend, .freeCtr] (actMgtRstDev r v) := by
  unfold actMgtRstDev
  repeat' first
    | with_reducible refine within_guarded rfl ?_
    | with_reducible refine (within_rstCtrlWrite ..).wider ?_
    | rfl

theorem within_actWatchdogKick (r : Requester) (_v : Word) : Within [.ctl, .dumpRun, .wdtArmed, .freeCtr] (actWatchdogKick r _v) := by
  unfold actWatchdogKick
  repeat' first
    | with_reducible refine within_guarded rfl ?_
    | with_reducible refine within_one ?_
    | rfl

theorem within_actWatchdogExpire  : Within [.ctl, .rstPend] (actWatchdogExpire) := by
  unfold actWatchdogExpire
  repeat' first
    | with_reducible refine (within_acceptReset ..).wider ?_
    | with_reducible refine (within_count ..).wider ?_
    | with_reducible apply within_seq_cons
    | with_reducible exact within_seq_nil
    | with_reducible refine within_look fun _ => ?_
    | with_reducible refine within_act ?_
    | rfl

/-! ## Events -/

theorem within_toOwner (r : EvRecord) (h : Nat) : Within [.ctl, .bx, .notices, .out] (toOwner r h) := by
  unfold toOwner
  repeat' first
    | with_reducible exact within_nop
    | with_reducible refine (within_notify ..).wider ?_
    | with_reducible refine (within_sendFrame ..).wider ?_
    | with_reducible refine within_one ?_
    | with_reducible refine within_look fun _ => ?_
    | with_reducible refine within_act ?_
    | with_reducible refine within_ite ?_ ?_
    | rfl
    | split

theorem within_toPort (r : EvRecord) : Within [.ctl, .evQueue, .out] (toPort r) := by
  unfold toPort
  repeat' first
    | with_reducible refine (within_queueMessage ..).wider ?_
    | rfl

theorem within_route (r : EvRecord) : Within [.ctl, .bx, .notices, .evQueue, .out] (route r) := by
  unfold route
  repeat' first
    | with_reducible exact within_nop
    | with_reducible refine (within_toOwner ..).wider ?_
    | with_reducible refine (within_toPort ..).wider ?_
    | with_reducible refine within_one ?_
    | with_reducible apply within_seq_cons
    | with_reducible exact within_seq_nil
    | with_reducible refine within_act ?_
    | rfl
    | split

theorem within_ownerFound (r : EvRecord) (a : Nat) : Within [.ctl, .mem, .chk, .mergeBuf, .bx, .notices, .snap, .dumpRun, .evQueue, .freeCtr, .out] (ownerFound r a) := by
  unfold ownerFound
  repeat' first
    | with_reducible exact within_nop
    | with_reducible refine (within_abandonMirror ..).wider ?_
    | with_reducible refine (within_abandonSnapshot ..).wider ?_
    | with_reducible refine (within_portWrite ..).wider ?_
    | with_reducible refine (within_route ..).wider ?_
    | with_reducible refine (within_toOwner ..).wider ?_
    | with_reducible refine (within_toPort ..).wider ?_
    | with_reducible refine within_one ?_
    | with_reducible apply within_seq_cons
    | with_reducible exact within_seq_nil
    | with_reducible refine within_look fun _ => ?_
    | with_reducible refine within_each fun _ => ?_
    | with_reducible refine within_act ?_
    | with_reducible refine within_ite ?_ ?_
    | rfl
    | split

theorem within_serveClass (p c : Nat) : Within [.ctl, .mem, .chk, .mergeBuf, .bx, .notices, .snap, .dumpRun, .evQueue, .lastCorr, .coalesced, .searches, .freeCtr, .out] (serveClass p c) := by
  unfold serveClass
  repeat' first
    | with_reducible refine (within_ownerFound ..).wider ?_
    | with_reducible refine (within_route ..).wider ?_
    | with_reducible refine (within_wrBit ..).wider ?_
    | with_reducible refine within_one ?_
    | with_reducible apply within_seq_cons
    | with_reducible exact within_seq_nil
    | with_reducible refine within_look fun _ => ?_
    | with_reducible refine within_act ?_
    | with_reducible refine within_ite ?_ ?_
    | rfl

theorem within_actEventService (page : Nat) : Within [.ctl, .mem, .chk, .mergeBuf, .bx, .notices, .snap, .dumpRun, .evQueue, .lastCorr, .coalesced, .searches, .freeCtr, .out] (actEventService page) := by
  unfold actEventService
  repeat' first
    | with_reducible refine (within_serveClass ..).wider ?_
    | with_reducible refine (within_wr ..).wider ?_
    | with_reducible refine (within_wrFld ..).wider ?_
    | with_reducible apply within_seq_cons
    | with_reducible exact within_seq_nil
    | with_reducible refine within_look fun _ => ?_
    | with_reducible refine within_each fun _ => ?_
    | with_reducible refine within_act ?_
    | rfl

theorem within_actOwnerSearchDone  : Within [.ctl, .mem, .chk, .mergeBuf, .bx, .notices, .snap, .dumpRun, .evQueue, .searches, .freeCtr, .out] (actOwnerSearchDone) := by
  unfold actOwnerSearchDone
  repeat' first
    | with_reducible exact within_nop
    | with_reducible refine (within_ownerFound ..).wider ?_
    | with_reducible refine (within_wrBit ..).wider ?_
    | with_reducible refine within_one ?_
    | with_reducible apply within_seq_cons
    | with_reducible exact within_seq_nil
    | with_reducible refine within_look fun _ => ?_
    | rfl
    | split

theorem within_memberRecord (h : Nat) (rec_ : List Byte) (bead : DWord) : Within [.ctl, .notices] (memberRecord h rec_ bead) := by
  unfold memberRecord
  repeat' first
    | with_reducible exact within_nop
    | with_reducible refine (within_notify ..).wider ?_
    | with_reducible refine within_one ?_
    | with_reducible refine within_look fun _ => ?_
    | with_reducible refine within_ite ?_ ?_
    | rfl
    | split

/-! ## Mgmt -/

theorem within_respond (cmd : Nat) (t : MTag) (status : Nat) (result : List Byte) : Within [.out] (respond cmd t status result) := by
  unfold respond
  repeat' first
    | with_reducible refine within_one ?_
    | rfl

theorem within_mgmtCmd {ps : List Part} (hps : covers ps [.out] = true) {cmd : Nat} {t : MTag} {body : Act} (hbody : Within ps body) : Within ps (mgmtCmd cmd t body) := by
  unfold mgmtCmd
  repeat' first
    | with_reducible exact hbody
    | with_reducible exact (((within_respond ..).wider (ps := [.out]) rfl)).wider hps
    | with_reducible refine within_look fun _ => ?_
    | with_reducible refine within_ite ?_ ?_

theorem within_actReset (t : MTag) : Within [.ctl, .rstPend, .out] (actReset t) := by
  unfold actReset
  repeat' first
    | with_reducible refine (within_acceptReset ..).wider ?_
    | with_reducible refine within_mgmtCmd rfl ?_
    | with_reducible refine (within_respond ..).wider ?_
    | with_reducible apply within_seq_cons
    | with_reducible exact within_seq_nil
    | rfl

theorem within_actFence (t : MTag) (c : Nat) : Within [.ctl, .core, .herd, .bx, .hcmd, .htag, .notices, .out] (actFence t c) := by
  unfold actFence
  repeat' first
    | with_reducible refine (within_actCoreFence ..).wider ?_
    | with_reducible refine within_mgmtCmd rfl ?_
    | with_reducible refine (within_respond ..).wider ?_
    | with_reducible apply within_seq_cons
    | with_reducible exact within_seq_nil
    | with_reducible refine within_look fun _ => ?_
    | with_reducible refine within_act ?_
    | with_reducible refine within_ite ?_ ?_
    | rfl

theorem within_actHerdFail (t : MTag) (h : Nat) : Within [.ctl, .core, .herd, .bx, .hcmd, .htag, .notices, .out] (actHerdFail t h) := by
  unfold actHerdFail
  repeat' first
    | with_reducible refine (within_failHerd ..).wider ?_
    | with_reducible refine within_mgmtCmd rfl ?_
    | with_reducible refine (within_respond ..).wider ?_
    | with_reducible apply within_seq_cons
    | with_reducible exact within_seq_nil
    | with_reducible refine within_look fun _ => ?_
    | with_reducible refine within_ite ?_ ?_
    | rfl

theorem within_actPowerLimit (t : MTag) (w : BitVec 12) : Within [.ctl, .dumpRun, .freeCtr, .out] (actPowerLimit t w) := by
  unfold actPowerLimit
  repeat' first
    | with_reducible refine (within_limitWrite ..).wider ?_
    | with_reducible refine within_mgmtCmd rfl ?_
    | with_reducible refine (within_respond ..).wider ?_
    | with_reducible apply within_seq_cons
    | with_reducible exact within_seq_nil
    | with_reducible refine within_ite ?_ ?_
    | rfl

theorem within_actPartitionPod (t : MTag) (p : PodParams) : Within [.ctl, .bx, .coll, .mc, .dumpRun, .freeCtr, .out] (actPartitionPod t p) := by
  unfold actPartitionPod
  repeat' first
    | with_reducible refine within_mgmtCmd rfl ?_
    | with_reducible refine (within_respond ..).wider ?_
    | with_reducible refine (within_takeMeasure ..).wider ?_
    | with_reducible refine (within_writePod ..).wider ?_
    | with_reducible apply within_seq_cons
    | with_reducible exact within_seq_nil
    | with_reducible refine within_look fun _ => ?_
    | with_reducible refine within_ite ?_ ?_
    | rfl

theorem within_actPartitionHostLimits (t : MTag) (k cores frames groups herds nseq : Nat) : Within [.ctl, .out] (actPartitionHostLimits t k cores frames groups herds nseq) := by
  unfold actPartitionHostLimits
  repeat' first
    | with_reducible refine within_mgmtCmd rfl ?_
    | with_reducible refine (within_respond ..).wider ?_
    | with_reducible refine (within_takeMeasure ..).wider ?_
    | with_reducible refine (within_wr ..).wider ?_
    | with_reducible apply within_seq_cons
    | with_reducible exact within_seq_nil
    | with_reducible refine within_look fun _ => ?_
    | with_reducible refine within_ite ?_ ?_
    | rfl

theorem within_actPartitionSpare (t : MTag) (pod : BitVec 16) (k : BitVec 2) : Within [.ctl, .bx, .coll, .mc, .dumpRun, .freeCtr, .out] (actPartitionSpare t pod k) := by
  unfold actPartitionSpare
  repeat' first
    | with_reducible refine (within_linkCtrlWrite ..).wider ?_
    | with_reducible refine within_mgmtCmd rfl ?_
    | with_reducible refine (within_respond ..).wider ?_
    | with_reducible refine (within_takeMeasure ..).wider ?_
    | with_reducible refine (within_wr ..).wider ?_
    | with_reducible refine (within_wrBit ..).wider ?_
    | with_reducible apply within_seq_cons
    | with_reducible exact within_seq_nil
    | with_reducible refine within_look fun _ => ?_
    | with_reducible refine within_each fun _ => ?_
    | with_reducible refine within_ite ?_ ?_
    | rfl

theorem within_actPartitionAux (t : MTag) (a b : Bool) : Within [.ctl, .bx, .coll, .mc, .dumpRun, .freeCtr, .out] (actPartitionAux t a b) := by
  unfold actPartitionAux
  repeat' first
    | with_reducible refine (within_linkCtrlWrite ..).wider ?_
    | with_reducible refine within_mgmtCmd rfl ?_
    | with_reducible refine (within_respond ..).wider ?_
    | with_reducible refine (within_takeMeasure ..).wider ?_
    | with_reducible apply within_seq_cons
    | with_reducible exact within_seq_nil
    | with_reducible refine within_look fun _ => ?_
    | rfl

theorem within_remapList {ps : List Part} (hps : covers ps [.ctl, .mem, .chk, .mergeBuf, .dumpRun, .freeCtr] = true) {n k : Nat} {done : Nat → Act} {ls : List Nat}
    (hd : ∀ n, Within ps (done n)) : Within ps (remapList n done k ls) := by
  induction ls generalizing k with
  | nil => exact hd _
  | cons l ls ih =>
    unfold remapList
    refine within_look fun s => ?_
    split
    · exact within_ite (within_seq_cons ((within_remapWrite ..).wider hps) (within_seq_cons ih within_seq_nil))
        (within_seq_cons ((within_remapWrite ..).wider hps) (within_seq_cons ih within_seq_nil))
    · exact hd _

theorem within_actRemapLoad (t : MTag) (n : Nat) (blocks : List Nat) : Within [.ctl, .mem, .chk, .mergeBuf, .dumpRun, .freeCtr, .out] (actRemapLoad t n blocks) := by
  unfold actRemapLoad
  repeat' first
    | with_reducible refine within_mgmtCmd rfl ?_
    | with_reducible refine within_remapList rfl (fun _ => ?_)
    | with_reducible refine (within_respond ..).wider ?_
    | with_reducible refine within_ite ?_ ?_
    | rfl

theorem within_actSysprogLoad (t : MTag) (first : Nat) (ps : List (List Word)) : Within [.ctl, .prog, .progPend, .out] (actSysprogLoad t first ps) := by
  unfold actSysprogLoad
  repeat' first
    | with_reducible refine (within_endLoad ..).wider ?_
    | with_reducible refine (within_loadProgram ..).wider ?_
    | with_reducible refine within_mgmtCmd rfl ?_
    | with_reducible refine (within_respond ..).wider ?_
    | with_reducible refine (within_takeMeasure ..).wider ?_
    | with_reducible apply within_seq_cons
    | with_reducible exact within_seq_nil
    | with_reducible refine within_each fun _ => ?_
    | with_reducible refine within_ite ?_ ?_
    | rfl

theorem within_actLinkHalt (t : MTag) (action h : Nat) : Within [.ctl, .core, .herd, .bx, .side, .notices, .out] (actLinkHalt t action h) := by
  unfold actLinkHalt
  repeat' first
    | with_reducible refine (within_failPodHerd ..).wider ?_
    | with_reducible refine (within_haltAll ..).wider ?_
    | with_reducible refine within_mgmtCmd rfl ?_
    | with_reducible refine (within_respond ..).wider ?_
    | with_reducible refine (within_setLinkStop ..).wider ?_
    | with_reducible apply within_seq_cons
    | with_reducible exact within_seq_nil
    | with_reducible refine within_look fun _ => ?_
    | with_reducible refine within_act ?_
    | with_reducible refine within_ite ?_ ?_
    | rfl

theorem within_actOpenPermission (t : MTag) : Within [.ctl, .out] (actOpenPermission t) := by
  unfold actOpenPermission
  repeat' first
    | with_reducible refine within_mgmtCmd rfl ?_
    | with_reducible refine (within_respond ..).wider ?_
    | with_reducible refine (within_wrBit ..).wider ?_
    | with_reducible apply within_seq_cons
    | with_reducible exact within_seq_nil
    | rfl

theorem within_actSvnCommit (t : MTag) : Within [.fuses, .ctl, .out] (actSvnCommit t) := by
  unfold actSvnCommit
  repeat' first
    | with_reducible refine within_mgmtCmd rfl ?_
    | with_reducible refine (within_respond ..).wider ?_
    | with_reducible refine (within_takeMeasure ..).wider ?_
    | with_reducible refine within_one ?_
    | with_reducible apply within_seq_cons
    | with_reducible exact within_seq_nil
    | with_reducible refine within_look fun _ => ?_
    | with_reducible refine within_act ?_
    | with_reducible refine within_ite ?_ ?_
    | rfl

theorem within_actKeyRevoke (t : MTag) (k : Nat) : Within [.fuses, .ctl, .out] (actKeyRevoke t k) := by
  unfold actKeyRevoke
  repeat' first
    | with_reducible refine within_mgmtCmd rfl ?_
    | with_reducible refine (within_respond ..).wider ?_
    | with_reducible refine (within_takeMeasure ..).wider ?_
    | with_reducible refine within_one ?_
    | with_reducible apply within_seq_cons
    | with_reducible exact within_seq_nil
    | with_reducible refine within_look fun _ => ?_
    | with_reducible refine within_ite ?_ ?_
    | rfl

theorem within_actMgmtDumpStart (t : MTag) : Within [.ctl, .dumpRun, .out] (actMgmtDumpStart t) := by
  unfold actMgmtDumpStart
  repeat' first
    | with_reducible refine (within_beginDump ..).wider ?_
    | with_reducible refine within_mgmtCmd rfl ?_
    | with_reducible refine (within_respond ..).wider ?_
    | with_reducible refine within_one ?_
    | with_reducible apply within_seq_cons
    | with_reducible exact within_seq_nil
    | with_reducible refine within_look fun _ => ?_
    | with_reducible refine within_ite ?_ ?_
    | rfl

theorem within_actMgmtDumpRead (t : MTag) (slot off len : Nat) : Within [.ctl, .mem, .chk, .mergeBuf, .dumpRun, .freeCtr, .out] (actMgmtDumpRead t slot off len) := by
  unfold actMgmtDumpRead
  repeat' first
    | with_reducible exact within_nop
    | with_reducible refine (within_devReadActs ..).wider ?_
    | with_reducible refine within_mgmtCmd rfl ?_
    | with_reducible refine (within_respond ..).wider ?_
    | with_reducible refine (within_ring ..).wider ?_
    | with_reducible refine within_one ?_
    | with_reducible apply within_seq_cons
    | with_reducible exact within_seq_nil
    | with_reducible refine within_look fun _ => ?_
    | with_reducible refine within_ite ?_ ?_
    | rfl
    | split

theorem within_actFruRead (t : MTag) (fru : Option (List Byte)) : Within [.ctl, .mgmt, .out] (actFruRead t fru) := by
  unfold actFruRead
  repeat' first
    | with_reducible refine within_mgmtCmd rfl ?_
    | with_reducible refine (within_readFru ..).wider ?_
    | with_reducible refine (within_respond ..).wider ?_
    | with_reducible apply within_seq_cons
    | with_reducible exact within_seq_nil
    | rfl

theorem within_actRegRead (t : MTag) (off : Nat) : Within [.out] (actRegRead t off) := by
  unfold actRegRead
  repeat' first
    | with_reducible refine within_mgmtCmd rfl ?_
    | with_reducible refine (within_respond ..).wider ?_
    | with_reducible refine within_look fun _ => ?_
    | with_reducible refine within_ite ?_ ?_
    | rfl

/-! ## Protocols -/

theorem within_say (type code : Nat) (body : List Byte) : Within [.out] (say type code body) := by
  unfold say
  repeat' first
    | with_reducible refine within_one ?_
    | rfl

theorem within_setMgmt (f : Mgmt → Mgmt) : Within [.mgmt] (setMgmt f) := by
  unfold setMgmt
  repeat' first
    | with_reducible refine within_one ?_
    | with_reducible refine within_look fun _ => ?_
    | rfl

theorem within_mctp {ps : List Part} (hps : covers ps [.out] = true) {code : Nat} {eff : Act} {body : State → List Byte} (heff : Within ps eff) : Within ps (mctp code eff body) := by
  unfold mctp
  repeat' first
    | with_reducible exact heff
    | with_reducible exact (((within_say ..).wider (ps := [.out]) rfl)).wider hps
    | with_reducible apply within_seq_cons
    | with_reducible exact within_seq_nil
    | with_reducible refine within_look fun _ => ?_
    | with_reducible refine within_act ?_

theorem within_actSetEndpointId (eid : Byte) : Within [.mgmt, .out] (actSetEndpointId eid) := by
  unfold actSetEndpointId
  repeat' first
    | with_reducible refine within_mctp rfl ?_
    | with_reducible refine (within_setMgmt ..).wider ?_
    | rfl

theorem within_actGetEndpointId  : Within [.out] (actGetEndpointId) := by
  unfold actGetEndpointId
  repeat' first
    | with_reducible exact within_nop
    | with_reducible refine within_mctp rfl ?_

theorem within_actGetEndpointUuid  : Within [.out] (actGetEndpointUuid) := by
  unfold actGetEndpointUuid
  repeat' first
    | with_reducible exact within_nop
    | with_reducible refine within_mctp rfl ?_

theorem within_actGetMctpVersionSupport (type : Byte) : Within [.out] (actGetMctpVersionSupport type) := by
  unfold actGetMctpVersionSupport
  repeat' first
    | with_reducible exact within_nop
    | with_reducible refine within_mctp rfl ?_

theorem within_actGetMessageTypeSupport  : Within [.out] (actGetMessageTypeSupport) := by
  unfold actGetMessageTypeSupport
  repeat' first
    | with_reducible exact within_nop
    | with_reducible refine within_mctp rfl ?_

theorem within_actGetVendorDefinedMessageSupport (selector : Byte) : Within [.out] (actGetVendorDefinedMessageSupport selector) := by
  unfold actGetVendorDefinedMessageSupport
  repeat' first
    | with_reducible exact within_nop
    | with_reducible refine within_mctp rfl ?_

theorem within_pldm {ps : List Part} (hps : covers ps [.out] = true) {extra : List Nat} {code : Nat} {eff : Act} (heff : Within ps eff) : Within ps (pldm extra code eff) := by
  unfold pldm
  repeat' first
    | with_reducible exact heff
    | with_reducible exact (((within_say ..).wider (ps := [.out]) rfl)).wider hps
    | with_reducible refine within_look fun _ => ?_
    | with_reducible refine within_act ?_
    | with_reducible refine within_ite ?_ ?_

theorem within_pldmRead (extra : List Nat) (code : Nat) (body : State → List Byte) : Within [.out] (pldmRead extra code body) := by
  unfold pldmRead
  repeat' first
    | with_reducible refine within_pldm rfl ?_
    | with_reducible refine (within_say ..).wider ?_
    | with_reducible refine within_look fun _ => ?_
    | rfl

theorem within_actGetTid  : Within [.out] (actGetTid) := by
  unfold actGetTid
  repeat' first
    | with_reducible refine (within_pldmRead ..).wider ?_
    | rfl

theorem within_actSetTid (tid : Byte) : Within [.mgmt, .out] (actSetTid tid) := by
  unfold actSetTid
  repeat' first
    | with_reducible refine within_pldm rfl ?_
    | with_reducible refine (within_say ..).wider ?_
    | with_reducible refine (within_setMgmt ..).wider ?_
    | with_reducible apply within_seq_cons
    | with_reducible exact within_seq_nil
    | rfl

theorem within_actGetPldmVersion (type : Byte) : Within [.out] (actGetPldmVersion type) := by
  unfold actGetPldmVersion
  repeat' first
    | with_reducible refine (within_pldmRead ..).wider ?_
    | rfl

theorem within_actGetPldmTypes  : Within [.out] (actGetPldmTypes) := by
  unfold actGetPldmTypes
  repeat' first
    | with_reducible refine (within_pldmRead ..).wider ?_
    | rfl

theorem within_actGetPldmCommands (type : Byte) : Within [.out] (actGetPldmCommands type) := by
  unfold actGetPldmCommands
  repeat' first
    | with_reducible refine (within_pldmRead ..).wider ?_
    | rfl

theorem within_actGetPdrRepositoryInfo  : Within [.out] (actGetPdrRepositoryInfo) := by
  unfold actGetPdrRepositoryInfo
  repeat' first
    | with_reducible refine (within_pldmRead ..).wider ?_
    | rfl

theorem within_actGetPdr (record : Nat) : Within [.out] (actGetPdr record) := by
  unfold actGetPdr
  repeat' first
    | with_reducible refine (within_pldmRead ..).wider ?_
    | rfl

theorem within_actGetSensorReading (n : Nat) : Within [.out] (actGetSensorReading n) := by
  unfold actGetSensorReading
  repeat' first
    | with_reducible exact within_nop
    | with_reducible refine within_pldm rfl ?_
    | with_reducible refine (within_say ..).wider ?_
    | with_reducible refine within_one ?_
    | with_reducible refine within_look fun _ => ?_
    | rfl
    | split

theorem within_actGetStateSensorReadings (n : Nat) : Within [.out] (actGetStateSensorReadings n) := by
  unfold actGetStateSensorReadings
  repeat' first
    | with_reducible exact within_nop
    | with_reducible refine within_pldm rfl ?_
    | with_reducible refine (within_say ..).wider ?_
    | with_reducible refine within_one ?_
    | with_reducible refine within_look fun _ => ?_
    | with_reducible refine within_ite ?_ ?_
    | rfl
    | split

theorem within_actSetEventReceiver (enable receiver : Byte) : Within [.mgmt, .out] (actSetEventReceiver enable receiver) := by
  unfold actSetEventReceiver
  repeat' first
    | with_reducible refine within_pldm rfl ?_
    | with_reducible refine (within_say ..).wider ?_
    | with_reducible refine (within_setMgmt ..).wider ?_
    | with_reducible apply within_seq_cons
    | with_reducible exact within_seq_nil
    | rfl

theorem within_actEventMessageSupported  : Within [.out] (actEventMessageSupported) := by
  unfold actEventMessageSupported
  repeat' first
    | with_reducible refine (within_pldmRead ..).wider ?_
    | rfl

theorem within_actEventMessageBufferSize (n : Nat) : Within [.mgmt, .out] (actEventMessageBufferSize n) := by
  unfold actEventMessageBufferSize
  repeat' first
    | with_reducible refine within_pldm rfl ?_
    | with_reducible refine (within_say ..).wider ?_
    | with_reducible refine (within_setMgmt ..).wider ?_
    | with_reducible apply within_seq_cons
    | with_reducible exact within_seq_nil
    | rfl

theorem within_actPollForPlatformEventMessage  : Within [.ctl, .evQueue, .out] (actPollForPlatformEventMessage) := by
  unfold actPollForPlatformEventMessage
  repeat' first
    | with_reducible refine within_pldm rfl ?_
    | with_reducible refine (within_say ..).wider ?_
    | with_reducible refine (within_wrFld ..).wider ?_
    | with_reducible refine within_one ?_
    | with_reducible apply within_seq_cons
    | with_reducible exact within_seq_nil
    | with_reducible refine within_look fun _ => ?_
    | with_reducible refine within_act ?_
    | rfl
    | split

theorem within_actGetFruRecordTableMetadata  : Within [.out] (actGetFruRecordTableMetadata) := by
  unfold actGetFruRecordTableMetadata
  repeat' first
    | with_reducible refine (within_pldmRead ..).wider ?_
    | rfl

theorem within_actGetFruRecordTable (handle : Nat) : Within [.out] (actGetFruRecordTable handle) := by
  unfold actGetFruRecordTable
  repeat' first
    | with_reducible refine (within_pldmRead ..).wider ?_
    | rfl

theorem within_setUpdate (f : Update → Update) : Within [.mgmt] (setUpdate f) := by
  unfold setUpdate
  repeat' first
    | with_reducible refine (within_setMgmt ..).wider ?_
    | rfl

theorem within_updateCmd {ps : List Part} (hps : covers ps [.out] = true) {code : Nat} {phase : Nat} {bad : Nat} {eff : Act} (heff : Within ps eff) : Within ps (updateCmd code phase bad eff) := by
  unfold updateCmd
  repeat' first
    | with_reducible exact heff
    | with_reducible refine within_pldm (covers_trans hps rfl) ?_
    | with_reducible exact (((within_say ..).wider (ps := [.out]) rfl)).wider hps
    | with_reducible refine within_look fun _ => ?_
    | with_reducible refine within_ite ?_ ?_

theorem within_actRequestUpdate (size : Nat) : Within [.mgmt, .out] (actRequestUpdate size) := by
  unfold actRequestUpdate
  repeat' first
    | with_reducible refine (within_say ..).wider ?_
    | with_reducible refine (within_setUpdate ..).wider ?_
    | with_reducible refine within_updateCmd rfl ?_
    | with_reducible apply within_seq_cons
    | with_reducible exact within_seq_nil
    | with_reducible refine within_ite ?_ ?_
    | rfl

theorem within_actPassComponentTable (comp : Nat) (v : Word) : Within [.mgmt, .out] (actPassComponentTable comp v) := by
  unfold actPassComponentTable
  repeat' first
    | with_reducible refine (within_say ..).wider ?_
    | with_reducible refine (within_setUpdate ..).wider ?_
    | with_reducible refine within_updateCmd rfl ?_
    | with_reducible apply within_seq_cons
    | with_reducible exact within_seq_nil
    | with_reducible refine within_ite ?_ ?_
    | rfl

theorem within_actUpdateComponent (comp : Nat) (v : Word) : Within [.ctl, .bx, .mgmt, .out] (actUpdateComponent comp v) := by
  unfold actUpdateComponent
  repeat' first
    | with_reducible refine within_received rfl ?_
    | with_reducible refine (within_say ..).wider ?_
    | with_reducible refine (within_setUpdate ..).wider ?_
    | with_reducible refine within_updateCmd rfl ?_
    | with_reducible apply within_seq_cons
    | with_reducible exact within_seq_nil
    | with_reducible refine within_ite ?_ ?_
    | rfl

theorem within_actRequestFirmwareData (off : Nat) (data : List Byte) : Within [.ctl, .bx, .flash, .mgmt, .out] (actRequestFirmwareData off data) := by
  unfold actRequestFirmwareData
  repeat' first
    | with_reducible refine (within_flashPut ..).wider ?_
    | with_reducible refine within_received rfl ?_
    | with_reducible refine (within_setUpdate ..).wider ?_
    | with_reducible refine within_updateCmd rfl ?_
    | with_reducible apply within_seq_cons
    | with_reducible exact within_seq_nil
    | with_reducible refine within_look fun _ => ?_
    | with_reducible refine within_act ?_
    | rfl

theorem within_actTransferComplete  : Within [.mgmt, .out] (actTransferComplete) := by
  unfold actTransferComplete
  repeat' first
    | with_reducible refine (within_say ..).wider ?_
    | with_reducible refine (within_setUpdate ..).wider ?_
    | with_reducible refine within_updateCmd rfl ?_
    | with_reducible apply within_seq_cons
    | with_reducible exact within_seq_nil
    | with_reducible refine within_look fun _ => ?_
    | with_reducible refine within_act ?_
    | rfl

theorem within_actVerifyComplete : Within [.mgmt, .out] actVerifyComplete := by
  unfold actVerifyComplete
  refine within_updateCmd rfl (within_look fun s => ?_)
  generalize imageReject s _ = o
  cases o
  · exact within_seq_cons ((within_setUpdate ..).wider rfl) (within_seq_cons ((within_say ..).wider rfl) within_seq_nil)
  · exact within_seq_cons ((within_setUpdate ..).wider rfl) (within_seq_cons ((within_say ..).wider rfl) within_seq_nil)

theorem within_actApplyComplete  : Within [.ctl, .flash, .rstPend, .mgmt, .freeCtr, .out] (actApplyComplete) := by
  unfold actApplyComplete
  repeat' first
    | with_reducible refine (within_acceptReset ..).wider ?_
    | with_reducible refine (within_say ..).wider ?_
    | with_reducible refine (within_setUpdate ..).wider ?_
    | with_reducible refine (within_takeFree ..).wider ?_
    | with_reducible refine within_updateCmd rfl ?_
    | with_reducible refine (within_writeRecord ..).wider ?_
    | with_reducible apply within_seq_cons
    | with_reducible exact within_seq_nil
    | with_reducible refine within_look fun _ => ?_
    | with_reducible refine within_act ?_
    | rfl

theorem within_actActivateFirmware (selfContained : Bool) : Within [.mgmt, .out] (actActivateFirmware selfContained) := by
  unfold actActivateFirmware
  repeat' first
    | with_reducible refine (within_say ..).wider ?_
    | with_reducible refine (within_setUpdate ..).wider ?_
    | with_reducible refine within_updateCmd rfl ?_
    | with_reducible apply within_seq_cons
    | with_reducible exact within_seq_nil
    | with_reducible refine within_ite ?_ ?_
    | rfl

theorem within_actGetStatus  : Within [.out] (actGetStatus) := by
  unfold actGetStatus
  repeat' first
    | with_reducible refine (within_pldmRead ..).wider ?_
    | rfl

theorem within_actCancelUpdate  : Within [.mgmt, .out] (actCancelUpdate) := by
  unfold actCancelUpdate
  repeat' first
    | with_reducible refine within_pldm rfl ?_
    | with_reducible refine (within_say ..).wider ?_
    | with_reducible refine (within_setUpdate ..).wider ?_
    | with_reducible apply within_seq_cons
    | with_reducible exact within_seq_nil
    | with_reducible refine within_look fun _ => ?_
    | with_reducible refine within_ite ?_ ?_
    | rfl

theorem within_spdmError (code : Nat) (data : List Byte) : Within [.out] (spdmError code data) := by
  unfold spdmError
  repeat' first
    | with_reducible refine (within_say ..).wider ?_
    | rfl

theorem within_spdm {ps : List Part} (hps : covers ps [.mgmt, .out] = true) {keep : Bool} {ok : Mgmt → Bool} {body : Act} (hbody : Within ps body) : Within ps (spdm keep ok body) := by
  unfold spdm
  repeat' first
    | with_reducible exact hbody
    | with_reducible exact (((within_setMgmt ..).wider (ps := [.mgmt, .out]) rfl)).wider hps
    | with_reducible exact (((within_spdmError ..).wider (ps := [.mgmt, .out]) rfl)).wider hps
    | with_reducible refine within_one (covers_mem hps ?_)
    | with_reducible apply within_seq_cons
    | with_reducible exact within_seq_nil
    | with_reducible refine within_look fun _ => ?_
    | with_reducible refine within_act ?_
    | with_reducible refine within_ite ?_ ?_

theorem within_note (bs : List Byte) : Within [.mgmt] (note bs) := by
  unfold note
  repeat' first
    | with_reducible refine (within_setMgmt ..).wider ?_
    | rfl

theorem within_actGetVersion  : Within [.mgmt, .out] (actGetVersion) := by
  unfold actGetVersion
  repeat' first
    | with_reducible refine (within_say ..).wider ?_
    | with_reducible refine (within_setMgmt ..).wider ?_
    | with_reducible refine within_spdm rfl ?_
    | with_reducible apply within_seq_cons
    | with_reducible exact within_seq_nil
    | rfl

theorem within_actGetCapabilities  : Within [.mgmt, .out] (actGetCapabilities) := by
  unfold actGetCapabilities
  repeat' first
    | with_reducible refine (within_note ..).wider ?_
    | with_reducible refine (within_say ..).wider ?_
    | with_reducible refine (within_setMgmt ..).wider ?_
    | with_reducible refine within_spdm rfl ?_
    | with_reducible apply within_seq_cons
    | with_reducible exact within_seq_nil
    | rfl

theorem within_actNegotiateAlgorithms  : Within [.mgmt, .out] (actNegotiateAlgorithms) := by
  unfold actNegotiateAlgorithms
  repeat' first
    | with_reducible refine (within_note ..).wider ?_
    | with_reducible refine (within_say ..).wider ?_
    | with_reducible refine (within_setMgmt ..).wider ?_
    | with_reducible refine within_spdm rfl ?_
    | with_reducible apply within_seq_cons
    | with_reducible exact within_seq_nil
    | rfl

theorem within_actGetDigests  : Within [.mgmt, .out] (actGetDigests) := by
  unfold actGetDigests
  repeat' first
    | with_reducible refine (within_note ..).wider ?_
    | with_reducible refine (within_say ..).wider ?_
    | with_reducible refine within_spdm rfl ?_
    | with_reducible apply within_seq_cons
    | with_reducible exact within_seq_nil
    | rfl

theorem within_actGetCertificate (slot off len : Nat) : Within [.mgmt, .out] (actGetCertificate slot off len) := by
  unfold actGetCertificate
  repeat' first
    | with_reducible refine (within_note ..).wider ?_
    | with_reducible refine (within_say ..).wider ?_
    | with_reducible refine within_spdm rfl ?_
    | with_reducible refine (within_spdmError ..).wider ?_
    | with_reducible apply within_seq_cons
    | with_reducible exact within_seq_nil
    | with_reducible refine within_look fun _ => ?_
    | with_reducible refine within_ite ?_ ?_
    | rfl

theorem within_signAndHold (code what : Nat) (body nonce : List Byte) : Within [.mgmt, .out] (signAndHold code what body nonce) := by
  unfold signAndHold
  repeat' first
    | with_reducible refine (within_say ..).wider ?_
    | with_reducible refine (within_setMgmt ..).wider ?_
    | with_reducible apply within_seq_cons
    | with_reducible exact within_seq_nil
    | with_reducible refine within_look fun _ => ?_
    | rfl

theorem within_actChallenge (slot : Nat) (nonce : List Byte) : Within [.mgmt, .out] (actChallenge slot nonce) := by
  unfold actChallenge
  repeat' first
    | with_reducible refine (within_note ..).wider ?_
    | with_reducible refine (within_signAndHold ..).wider ?_
    | with_reducible refine within_spdm rfl ?_
    | with_reducible refine (within_spdmError ..).wider ?_
    | with_reducible apply within_seq_cons
    | with_reducible exact within_seq_nil
    | with_reducible refine within_ite ?_ ?_
    | rfl

theorem within_actGetMeasurements (i : Nat) (sign : Bool) (nonce : List Byte) : Within [.mgmt, .out] (actGetMeasurements i sign nonce) := by
  unfold actGetMeasurements
  repeat' first
    | with_reducible refine (within_note ..).wider ?_
    | with_reducible refine (within_say ..).wider ?_
    | with_reducible refine (within_signAndHold ..).wider ?_
    | with_reducible refine within_spdm rfl ?_
    | with_reducible refine (within_spdmError ..).wider ?_
    | with_reducible apply within_seq_cons
    | with_reducible exact within_seq_nil
    | with_reducible refine within_look fun _ => ?_
    | with_reducible refine within_ite ?_ ?_
    | rfl

theorem within_pqResponse (bad : Nat) : Within [.out] (pqResponse bad) := by
  unfold pqResponse
  repeat' first
    | with_reducible exact within_nop
    | with_reducible refine (within_say ..).wider ?_
    | with_reducible refine (within_spdmError ..).wider ?_
    | with_reducible refine within_one ?_
    | with_reducible refine within_look fun _ => ?_
    | with_reducible refine within_ite ?_ ?_
    | rfl
    | split

theorem within_actRespondIfReady  : Within [.mgmt, .out] (actRespondIfReady) := by
  unfold actRespondIfReady
  repeat' first
    | with_reducible refine (within_pqResponse ..).wider ?_
    | with_reducible refine within_spdm rfl ?_
    | rfl

theorem within_actGetPqSig  : Within [.mgmt, .out] (actGetPqSig) := by
  unfold actGetPqSig
  repeat' first
    | with_reducible refine (within_pqResponse ..).wider ?_
    | with_reducible refine within_spdm rfl ?_
    | rfl

theorem within_actGetPqCert  : Within [.mgmt, .out] (actGetPqCert) := by
  unfold actGetPqCert
  repeat' first
    | with_reducible refine (within_say ..).wider ?_
    | with_reducible refine within_spdm rfl ?_
    | rfl

theorem within_actPqSigReady  : Within [.mgmt] (actPqSigReady) := by
  unfold actPqSigReady
  repeat' first
    | with_reducible refine (within_setMgmt ..).wider ?_
    | with_reducible refine within_look fun _ => ?_
    | with_reducible refine within_act ?_
    | rfl

/-! ## Hcmd -/

theorem within_migBody (ps : List Byte) (a : Asker) (h : Nat) : Within [.ctl, .core, .mem, .chk, .farMem, .herd, .extent, .ssetOwner, .moves, .touched, .mergeBuf, .bx, .hcmd, .completions, .dumpRun, .freeCtr, .out] (migBody ps a h) := by
  unfold migBody
  repeat' first
    | with_reducible refine (within_allocRefused ..).wider ?_
    | with_reducible refine (within_answer ..).wider ?_
    | with_reducible refine within_migServe rfl (fun _ => ?_) ?_
    | with_reducible refine (within_noneRefused ..).wider ?_
    | with_reducible refine (withinReq_migAdmit ..).wider ?_
    | with_reducible refine (withinReq_migAlloc ..).wider ?_
    | with_reducible refine (withinReq_migFree ..).wider ?_
    | with_reducible refine (withinReq_migMove ..).wider ?_
    | with_reducible refine (withinReq_migPin ..).wider ?_
    | with_reducible refine (withinReq_migProt ..).wider ?_
    | with_reducible refine (withinReq_migRevoke ..).wider ?_
    | with_reducible refine (withinReq_migShare ..).wider ?_
    | with_reducible refine (withinReq_migUnpin ..).wider ?_
    | with_reducible refine within_one ?_
    | with_reducible refine within_ite ?_ ?_
    | rfl
    | split
    | dsimp only

theorem within_restoreMember (ps : List Byte) (a : Asker) (h : Nat) : Within [.ctl, .bx, .hcmd, .completions, .snap, .dumpRun, .freeCtr, .out] (restoreMember ps a h) := by
  unfold restoreMember
  repeat' first
    | with_reducible refine (within_answer ..).wider ?_
    | with_reducible refine (within_restoreBody ..).wider ?_
    | with_reducible refine (within_survive ..).wider ?_
    | with_reducible apply within_seq_cons
    | with_reducible exact within_seq_nil
    | with_reducible refine within_ite ?_ ?_
    | rfl

theorem within_memberBody (op : Nat) (last : Bool) (ps : List Byte) (es : List RegwEntry) (a : Asker) (h : Nat) : Within [.ctl, .store, .rod, .storeBad, .rodBad, .vreg, .acc, .core, .mem, .chk, .farMem, .packets, .merges, .prog, .progPend, .desc, .evalDue, .herd, .extent, .ssetOwner, .moves, .touched, .mergeBuf, .bx, .hcmd, .coll, .mc, .completions, .snap, .dumpRun, .freeCtr, .out] (memberBody op last ps es a h) := by
  unfold memberBody
  repeat' first
    | with_reducible refine (within_answer ..).wider ?_
    | with_reducible refine (within_cfgBody ..).wider ?_
    | with_reducible refine (within_createHere ..).wider ?_
    | with_reducible refine (within_destroyBody ..).wider ?_
    | with_reducible refine (within_dumpBody ..).wider ?_
    | with_reducible refine (within_endCommands ..).wider ?_
    | with_reducible refine (within_evalPart ..).wider ?_
    | with_reducible refine (within_fetchBody ..).wider ?_
    | with_reducible refine (within_migBody ..).wider ?_
    | with_reducible refine (within_mtbfBody ..).wider ?_
    | with_reducible refine (within_nowBody ..).wider ?_
    | with_reducible refine (within_offBody ..).wider ?_
    | with_reducible refine (within_parkBody ..).wider ?_
    | with_reducible refine (within_progBody ..).wider ?_
    | with_reducible refine (within_regwPart ..).wider ?_
    | with_reducible refine (within_restoreMember ..).wider ?_
    | with_reducible refine (within_resumeBody ..).wider ?_
    | with_reducible refine (within_ringsBody ..).wider ?_
    | with_reducible refine (within_startBody ..).wider ?_
    | with_reducible refine (within_statBody ..).wider ?_
    | with_reducible refine (within_stopBody ..).wider ?_
    | with_reducible refine (within_unparkBody ..).wider ?_
    | with_reducible refine within_one ?_
    | with_reducible apply within_seq_cons
    | with_reducible exact within_seq_nil
    | rfl
    | split

theorem within_takeHcmd (x : HeldFrame) : Within [.ctl, .store, .rod, .storeBad, .rodBad, .vreg, .acc, .core, .mem, .chk, .farMem, .packets, .merges, .prog, .progPend, .desc, .evalDue, .herd, .extent, .ssetOwner, .moves, .touched, .mergeBuf, .bx, .hcmd, .coll, .mc, .completions, .snap, .dumpRun, .freeCtr, .out] (takeHcmd x) := by
  unfold takeHcmd
  repeat' first
    | with_reducible exact within_nop
    | with_reducible refine (within_answer ..).wider ?_
    | with_reducible refine (within_clearSnap ..).wider ?_
    | with_reducible refine (within_memberBody ..).wider ?_
    | with_reducible refine (within_regionBody ..).wider ?_
    | with_reducible refine within_one ?_
    | with_reducible apply within_seq_cons
    | with_reducible exact within_seq_nil
    | with_reducible refine within_look fun _ => ?_
    | with_reducible refine within_ite ?_ ?_
    | rfl
    | split
    | dsimp only

theorem within_actHcmd (f : FrameHdr) (c : HeldCmd) : Within [.ctl, .store, .rod, .storeBad, .rodBad, .vreg, .acc, .core, .mem, .chk, .farMem, .packets, .merges, .prog, .progPend, .desc, .evalDue, .herd, .extent, .ssetOwner, .moves, .touched, .mergeBuf, .bx, .hcmd, .coll, .mc, .completions, .snap, .dumpRun, .freeCtr, .out] (actHcmd f c) := by
  unfold actHcmd
  repeat' first
    | with_reducible refine within_rxWaiting rfl (fun _ => ?_)
    | with_reducible refine (within_takeHcmd ..).wider ?_
    | rfl

theorem within_takeHeld (x : HeldFrame) : Within [.ctl, .store, .rod, .storeBad, .rodBad, .vreg, .acc, .core, .mem, .chk, .farMem, .packets, .merges, .prog, .progPend, .desc, .evalDue, .herd, .extent, .ssetOwner, .moves, .touched, .mergeBuf, .bx, .hcmd, .coll, .mc, .completions, .snap, .dumpRun, .freeCtr, .out] (takeHeld x) := by
  unfold takeHeld
  repeat' first
    | with_reducible refine (within_takeHcmd ..).wider ?_
    | with_reducible refine (within_takeMcd ..).wider ?_
    | with_reducible refine (within_takePass ..).wider ?_
    | with_reducible refine (within_takeWr ..).wider ?_
    | with_reducible refine within_ite ?_ ?_
    | rfl

theorem within_serveFrames  : Within [.ctl, .store, .rod, .storeBad, .rodBad, .vreg, .acc, .core, .mem, .chk, .farMem, .packets, .merges, .prog, .progPend, .desc, .evalDue, .herd, .extent, .ssetOwner, .moves, .touched, .mergeBuf, .bx, .hcmd, .coll, .mc, .completions, .snap, .dumpRun, .freeCtr, .out] (serveFrames) := by
  unfold serveFrames
  repeat' first
    | with_reducible refine within_serveAll rfl (fun _ => ?_)
    | with_reducible refine (within_takeHeld ..).wider ?_
    | rfl

theorem within_actHcpl (f : FrameHdr) (htag status : Nat) (count : Nat) (result : DWord) (record : List Byte) : Within [.ctl, .store, .rod, .storeBad, .rodBad, .vreg, .acc, .core, .mem, .chk, .farMem, .packets, .merges, .desc, .evalDue, .herd, .extent, .ssetOwner, .moves, .touched, .mergeBuf, .bx, .hcmd, .htag, .coll, .mc, .completions, .notices, .snap, .spares, .dumpRun, .freeCtr, .out] (actHcpl f htag status count result record) := by
  unfold actHcpl
  repeat' first
    | with_reducible refine (within_count ..).wider ?_
    | with_reducible refine (within_failHerd ..).wider ?_
    | with_reducible refine (within_memberRecord ..).wider ?_
    | with_reducible refine within_rxTorus rfl ?_
    | with_reducible refine (within_takeAnswer ..).wider ?_
    | with_reducible refine within_ite ?_ ?_
    | rfl

theorem within_actHcmdTimeout (htag : Nat) : Within [.ctl, .store, .rod, .storeBad, .rodBad, .vreg, .acc, .core, .mem, .chk, .farMem, .packets, .merges, .desc, .evalDue, .herd, .extent, .ssetOwner, .moves, .touched, .mergeBuf, .bx, .hcmd, .htag, .coll, .mc, .completions, .notices, .snap, .spares, .dumpRun, .freeCtr, .out] (actHcmdTimeout htag) := by
  unfold actHcmdTimeout
  repeat' first
    | with_reducible exact within_nop
    | with_reducible refine (within_takeAnswer ..).wider ?_
    | with_reducible refine within_one ?_
    | with_reducible apply within_seq_cons
    | with_reducible exact within_seq_nil
    | with_reducible refine within_look fun _ => ?_
    | with_reducible refine within_each fun _ => ?_
    | with_reducible refine within_act ?_
    | with_reducible refine within_ite ?_ ?_
    | rfl
    | split

end Sys2Proof.Machine
end

