-- ==== Sys2Proof/Laws/FrameAccess.lean ====
section
/-! SUPPORT. The fields that each act can change: the control window. One lemma for an act; no proof about frames needs to unfold it again. -/

namespace Sys2Proof.Machine

/-! ## Access -/

theorem within_coreReset (b : Block) : Within [.ctl, .store, .rod, .storeBad, .rodBad, .vreg, .acc, .core, .herd] (coreReset b) := by
  unfold coreReset
  repeat' first
    | with_reducible exact within_nop
    | with_reducible refine (within_clearTallies ..).wider ?_
    | with_reducible refine (within_rodClear ..).wider ?_
    | with_reducible refine (within_setCore ..).wider ?_
    | with_reducible refine (within_setHerd ..).wider ?_
    | with_reducible refine (within_stClear ..).wider ?_
    | with_reducible refine (within_wrBit ..).wider ?_
    | with_reducible refine within_one ?_
    | with_reducible apply within_seq_cons
    | with_reducible exact within_seq_nil
    | with_reducible refine within_look fun _ => ?_
    | with_reducible refine within_each fun _ => ?_
    | rfl
    | split

theorem within_ueReset (n : Nat) : Within [.ctl, .core, .prog, .progPend, .desc, .herd, .bx, .hcmd, .htag, .notices, .out] (ueReset n) := by
  unfold ueReset
  repeat' first
    | with_reducible refine (within_failHerd ..).wider ?_
    | with_reducible refine (within_putProgram ..).wider ?_
    | with_reducible refine (within_wr ..).wider ?_
    | with_reducible refine within_one ?_
    | with_reducible apply within_seq_cons
    | with_reducible exact within_seq_nil
    | with_reducible refine within_look fun _ => ?_
    | with_reducible refine within_each fun _ => ?_
    | rfl

theorem within_pageReset (b : Block) (p : Nat) : Within [.ctl, .core, .mem, .chk, .bulkOpen, .bulkPend, .prog, .progPend, .desc, .herd, .mergeBuf, .bx, .hcmd, .htag, .coll, .mc, .notices, .dumpRun, .freeCtr, .out] (pageReset b p) := by
  unfold pageReset
  repeat' first
    | with_reducible refine (within_portDown ..).wider ?_
    | with_reducible refine (within_retireMerge ..).wider ?_
    | with_reducible refine (within_ueReset ..).wider ?_
    | with_reducible refine within_one ?_
    | with_reducible apply within_seq_cons
    | with_reducible exact within_seq_nil
    | with_reducible refine within_look fun _ => ?_
    | with_reducible refine within_each fun _ => ?_
    | with_reducible refine within_act ?_
    | rfl
    | split

theorem within_keepShown (b : Block) (p : Nat) (s : State) : Within [.ctl] (keepShown b p s) := by
  unfold keepShown
  repeat' first
    | with_reducible exact within_nop
    | with_reducible refine (within_bumpFree ..).wider ?_
    | with_reducible refine (within_setEff ..).wider ?_
    | with_reducible refine (within_tempLevels ..).wider ?_
    | with_reducible refine (within_wr ..).wider ?_
    | with_reducible apply within_seq_cons
    | with_reducible exact within_seq_nil
    | with_reducible refine within_each fun _ => ?_
    | with_reducible refine within_act ?_
    | rfl
    | split

theorem within_resetDone (c p : Nat) : Within [.core] (resetDone c p) := by
  unfold resetDone
  repeat' first
    | with_reducible refine (within_setCore ..).wider ?_
    | rfl

theorem within_blkReset (r : Requester) (b : Block) (p : Nat) : Within [.ctl, .store, .rod, .storeBad, .rodBad, .vreg, .acc, .core, .mem, .chk, .bulkOpen, .bulkPend, .prog, .progPend, .desc, .herd, .mergeBuf, .bx, .hcmd, .htag, .coll, .mc, .notices, .dumpRun, .freeCtr, .out] (blkReset r b p) := by
  unfold blkReset
  repeat' first
    | with_reducible exact within_nop
    | with_reducible refine (within_coreReset ..).wider ?_
    | with_reducible refine (within_keepShown ..).wider ?_
    | with_reducible refine (within_pageReset ..).wider ?_
    | with_reducible refine (within_protocolAt ..).wider ?_
    | with_reducible refine (within_resetDone ..).wider ?_
    | with_reducible refine (within_wrBit ..).wider ?_
    | with_reducible refine within_one ?_
    | with_reducible apply within_seq_cons
    | with_reducible exact within_seq_nil
    | with_reducible refine within_look fun _ => ?_
    | with_reducible refine within_ite ?_ ?_
    | rfl
    | split

theorem within_fenceSets (b : Block) : Within [.withdrawn, .ctl, .core] (fenceSets b) := by
  unfold fenceSets
  repeat' first
    | with_reducible exact within_nop
    | with_reducible refine (within_abandonDwq ..).wider ?_
    | with_reducible refine (within_withdrawRouter ..).wider ?_
    | with_reducible refine (within_wr ..).wider ?_
    | with_reducible apply within_seq_cons
    | with_reducible exact within_seq_nil
    | rfl
    | split

theorem within_fenceEnds (b : Block) : Within [.ctl, .core, .mem, .chk, .packets, .mergeBuf, .dumpRun, .freeCtr] (fenceEnds b) := by
  unfold fenceEnds
  repeat' first
    | with_reducible exact within_nop
    | with_reducible refine (within_retireMerge ..).wider ?_
    | with_reducible refine (within_setCore ..).wider ?_
    | with_reducible refine (within_setCoreState ..).wider ?_
    | with_reducible refine (within_withdrawWait ..).wider ?_
    | with_reducible refine (within_wrBit ..).wider ?_
    | with_reducible apply within_seq_cons
    | with_reducible exact within_seq_nil
    | with_reducible refine within_look fun _ => ?_
    | with_reducible refine within_each fun _ => ?_
    | rfl
    | split

theorem within_actBlkFenced (page : Nat) : Within [.ctl, .core, .mem, .chk, .packets, .mergeBuf, .dumpRun, .freeCtr] (actBlkFenced page) := by
  unfold actBlkFenced
  repeat' first
    | with_reducible refine (within_fenceEnds ..).wider ?_
    | with_reducible refine (within_wrBit ..).wider ?_
    | with_reducible apply within_seq_cons
    | with_reducible exact within_seq_nil
    | with_reducible refine within_look fun _ => ?_
    | with_reducible refine within_act ?_
    | rfl

theorem within_blkCtrlWrite (r : Requester) (b : Block) (p : Nat) (v : Word) : Within [.withdrawn, .ctl, .store, .rod, .storeBad, .rodBad, .vreg, .acc, .core, .mem, .chk, .bulkOpen, .bulkPend, .prog, .progPend, .desc, .herd, .mergeBuf, .bx, .hcmd, .htag, .coll, .mc, .notices, .dumpRun, .freeCtr, .out] (blkCtrlWrite r b p v) := by
  unfold blkCtrlWrite
  repeat' first
    | with_reducible refine (within_blkReset ..).wider ?_
    | with_reducible refine (within_clearCounters ..).wider ?_
    | with_reducible refine (within_fenceSets ..).wider ?_
    | with_reducible refine (within_maskWrite ..).wider ?_
    | with_reducible refine (within_wrBit ..).wider ?_
    | with_reducible apply within_seq_cons
    | with_reducible exact within_seq_nil
    | with_reducible refine within_look fun _ => ?_
    | with_reducible refine within_act ?_
    | with_reducible refine within_ite ?_ ?_
    | rfl

theorem within_isetWrite (p : Nat) (v : Word) : Within [.ctl] (isetWrite p v) := by
  unfold isetWrite
  repeat' first
    | with_reducible refine (within_wr ..).wider ?_
    | with_reducible refine within_look fun _ => ?_
    | rfl

theorem within_podWrite (r : Requester) (n off a : Nat) (v : Word) : Within [.ctl, .dumpRun, .freeCtr] (podWrite r n off a v) := by
  unfold podWrite
  repeat' first
    | with_reducible refine (within_maskWrite ..).wider ?_
    | with_reducible refine (within_protocolAt ..).wider ?_
    | with_reducible refine (within_takePodMeasure ..).wider ?_
    | with_reducible apply within_seq_cons
    | with_reducible exact within_seq_nil
    | with_reducible refine within_look fun _ => ?_
    | with_reducible refine within_ite ?_ ?_
    | rfl

theorem within_limitRegWrite (k off a : Nat) (v : Word) : Within [.ctl] (limitRegWrite k off a v) := by
  unfold limitRegWrite
  repeat' first
    | with_reducible exact within_nop
    | with_reducible refine (within_maskWrite ..).wider ?_
    | with_reducible refine (within_takePodMeasure ..).wider ?_
    | with_reducible apply within_seq_cons
    | with_reducible exact within_seq_nil
    | with_reducible refine within_look fun _ => ?_
    | with_reducible refine within_ite ?_ ?_
    | rfl

theorem within_vectorWrite (f v : Nat) (a : Nat) (w : Word) : Within [.ctl, .out] (vectorWrite f v a w) := by
  unfold vectorWrite
  repeat' first
    | with_reducible refine (within_maskWrite ..).wider ?_
    | with_reducible refine (within_wrBit ..).wider ?_
    | with_reducible refine within_one ?_
    | with_reducible apply within_seq_cons
    | with_reducible exact within_seq_nil
    | with_reducible refine within_look fun _ => ?_
    | with_reducible refine within_act ?_
    | rfl

theorem within_blockWrite (r : Requester) (b : Block) (a : Nat) (v : Word) : Within [.ctl, .rodBad, .core, .mem, .chk, .farMem, .packets, .bulkOpen, .bulkPend, .herd, .extent, .ssetOwner, .moves, .touched, .mergeBuf, .bx, .side, .hcmd, .coll, .mc, .phase, .completions, .snap, .dumpRun, .wdtArmed, .rstPend, .freeCtr, .out] (blockWrite r b a v) := by
  unfold blockWrite
  dsimp only
  split
  all_goals repeat' first
    | with_reducible refine within_ite ?_ ?_
    | with_reducible exact (within_bar2BaseWrite ..).wider rfl
    | with_reducible exact (within_beadCtrlWrite ..).wider rfl
    | with_reducible exact (within_beadNextWrite ..).wider rfl
    | with_reducible exact (within_bulkWrite ..).wider rfl
    | with_reducible exact (within_detourWrite ..).wider rfl
    | with_reducible exact (within_dumpCtlWrite ..).wider rfl
    | with_reducible exact (within_freeEmptySet ..).wider rfl
    | with_reducible exact (within_hfloorWrite ..).wider rfl
    | with_reducible exact (within_hpfWrite ..).wider rfl
    | with_reducible exact (within_limitRegWrite ..).wider rfl
    | with_reducible exact (within_limitWrite ..).wider rfl
    | with_reducible exact (within_linkCtrlWrite ..).wider rfl
    | with_reducible exact (within_maskWrite ..).wider rfl
    | with_reducible exact (within_podWrite ..).wider rfl
    | with_reducible exact (within_quiesceWrite ..).wider rfl
    | with_reducible exact (within_remapWrite ..).wider rfl
    | with_reducible exact (within_ringCtlWrite ..).wider rfl
    | with_reducible exact (within_ringEnableWrite ..).wider rfl
    | with_reducible exact (within_rstCtrlWrite ..).wider rfl
    | with_reducible exact (within_tempLevels ..).wider rfl
    | with_reducible exact (within_testCommand ..).wider rfl
    | with_reducible exact (within_uePloadWrite ..).wider rfl
    | with_reducible exact (within_vectorWrite ..).wider rfl
    | with_reducible exact (within_wmarkWrite ..).wider rfl
    | with_reducible apply within_seq_cons
    | with_reducible exact within_seq_nil
    | with_reducible exact within_one rfl

theorem within_ctlEffect (r : Requester) (a : Nat) (v : Word) : Within [.withdrawn, .ctl, .store, .rod, .storeBad, .rodBad, .vreg, .acc, .core, .mem, .chk, .farMem, .packets, .bulkOpen, .bulkPend, .prog, .progPend, .desc, .herd, .extent, .ssetOwner, .moves, .touched, .mergeBuf, .bx, .side, .hcmd, .htag, .coll, .mc, .phase, .completions, .notices, .snap, .dumpRun, .wdtArmed, .rstPend, .freeCtr, .out] (ctlEffect r a v) := by
  unfold ctlEffect
  repeat' first
    | with_reducible refine (within_blkCtrlWrite ..).wider ?_
    | with_reducible refine (within_blockWrite ..).wider ?_
    | with_reducible refine (within_coreWrite ..).wider ?_
    | with_reducible refine (within_isetWrite ..).wider ?_
    | with_reducible refine (within_maskWrite ..).wider ?_
    | with_reducible refine within_look fun _ => ?_
    | with_reducible refine within_ite ?_ ?_
    | rfl

theorem within_ctlWrite (r : Requester) (a : Nat) (v : Word) : Within [.withdrawn, .ctl, .store, .rod, .storeBad, .rodBad, .vreg, .acc, .core, .mem, .chk, .farMem, .packets, .bulkOpen, .bulkPend, .prog, .progPend, .desc, .herd, .extent, .ssetOwner, .moves, .touched, .mergeBuf, .bx, .side, .hcmd, .htag, .coll, .mc, .phase, .completions, .notices, .snap, .dumpRun, .wdtArmed, .rstPend, .freeCtr, .out] (ctlWrite r a v) := by
  unfold ctlWrite
  repeat' first
    | with_reducible refine (within_ctlEffect ..).wider ?_
    | with_reducible refine within_guarded rfl ?_
    | rfl

theorem within_pairEffect (r : Requester) (a : Nat) (lo hi : Word) : Within [.withdrawn, .ctl, .store, .rod, .storeBad, .rodBad, .vreg, .acc, .core, .mem, .chk, .farMem, .packets, .bulkOpen, .bulkPend, .prog, .progPend, .desc, .herd, .extent, .ssetOwner, .moves, .touched, .mergeBuf, .bx, .side, .hcmd, .htag, .coll, .mc, .phase, .completions, .notices, .snap, .dumpRun, .wdtArmed, .rstPend, .freeCtr, .out] (pairEffect r a lo hi) := by
  unfold pairEffect
  repeat' first
    | with_reducible refine (within_bar2BaseWrite ..).wider ?_
    | with_reducible refine (within_corePair ..).wider ?_
    | with_reducible refine (within_ctlEffect ..).wider ?_
    | with_reducible refine (within_ctlWrite ..).wider ?_
    | with_reducible refine (within_freeEmptySet ..).wider ?_
    | with_reducible refine (within_maskWrite ..).wider ?_
    | with_reducible refine (within_protocolAt ..).wider ?_
    | with_reducible refine (within_takePodMeasure ..).wider ?_
    | with_reducible apply within_seq_cons
    | with_reducible exact within_seq_nil
    | with_reducible refine within_look fun _ => ?_
    | with_reducible refine within_ite ?_ ?_
    | rfl
    | split

theorem within_ctlWrite64 (r : Requester) (a : Nat) (lo hi : Word) : Within [.withdrawn, .ctl, .store, .rod, .storeBad, .rodBad, .vreg, .acc, .core, .mem, .chk, .farMem, .packets, .bulkOpen, .bulkPend, .prog, .progPend, .desc, .herd, .extent, .ssetOwner, .moves, .touched, .mergeBuf, .bx, .side, .hcmd, .htag, .coll, .mc, .phase, .completions, .notices, .snap, .dumpRun, .wdtArmed, .rstPend, .freeCtr, .out] (ctlWrite64 r a lo hi) := by
  unfold ctlWrite64
  repeat' first
    | with_reducible refine within_guarded rfl ?_
    | with_reducible refine (within_pairEffect ..).wider ?_
    | rfl

theorem within_partialWrite (r : Requester) : Within [.ctl, .dumpRun, .freeCtr] (partialWrite r) := by
  unfold partialWrite
  repeat' first
    | with_reducible refine (within_count ..).wider ?_
    | with_reducible refine (within_raise ..).wider ?_
    | with_reducible apply within_seq_cons
    | with_reducible exact within_seq_nil
    | rfl

theorem within_actRegisterWrite (r : Requester) (a : Nat) (data : List (Option Byte)) : Within [.withdrawn, .ctl, .store, .rod, .storeBad, .rodBad, .vreg, .acc, .core, .mem, .chk, .farMem, .packets, .bulkOpen, .bulkPend, .prog, .progPend, .desc, .herd, .extent, .ssetOwner, .moves, .touched, .mergeBuf, .bx, .side, .hcmd, .htag, .coll, .mc, .phase, .completions, .notices, .snap, .dumpRun, .wdtArmed, .rstPend, .freeCtr, .out] (actRegisterWrite r a data) := by
  unfold actRegisterWrite
  repeat' first
    | with_reducible exact within_nop
    | with_reducible refine (within_ctlWrite ..).wider ?_
    | with_reducible refine (within_ctlWrite64 ..).wider ?_
    | with_reducible refine (within_partialWrite ..).wider ?_
    | with_reducible refine within_one ?_
    | with_reducible refine within_look fun _ => ?_
    | with_reducible refine within_each fun _ => ?_
    | with_reducible refine within_ite ?_ ?_
    | rfl
    | split

theorem within_readCheck (r : Requester) (w : Nat) : Within [.ctl, .dumpRun, .freeCtr] (readCheck r w) := by
  unfold readCheck
  repeat' first
    | with_reducible refine (within_refuseAccess ..).wider ?_
    | with_reducible refine within_look fun _ => ?_
    | with_reducible refine within_act ?_
    | rfl

theorem within_actRcRead (r : Requester) (a n : Nat) : Within [.ctl, .dumpRun, .freeCtr, .out] (actRcRead r a n) := by
  unfold actRcRead
  repeat' first
    | with_reducible refine (within_readCheck ..).wider ?_
    | with_reducible refine within_one ?_
    | with_reducible apply within_seq_cons
    | with_reducible exact within_seq_nil
    | with_reducible refine within_look fun _ => ?_
    | with_reducible refine within_each fun _ => ?_
    | with_reducible refine within_act ?_
    | with_reducible refine within_ite ?_ ?_
    | rfl

theorem within_actBlkReset (r : Requester) (page : Nat) : Within [.ctl, .store, .rod, .storeBad, .rodBad, .vreg, .acc, .core, .mem, .chk, .bulkOpen, .bulkPend, .prog, .progPend, .desc, .herd, .mergeBuf, .bx, .hcmd, .htag, .coll, .mc, .notices, .dumpRun, .freeCtr, .out] (actBlkReset r page) := by
  unfold actBlkReset
  repeat' first
    | with_reducible refine (within_blkReset ..).wider ?_
    | with_reducible refine within_guarded rfl ?_
    | with_reducible refine within_look fun _ => ?_
    | with_reducible refine within_act ?_
    | rfl

theorem within_actBlkResetDone (page : Nat) : Within [.ctl] (actBlkResetDone page) := by
  unfold actBlkResetDone
  repeat' first
    | with_reducible refine (within_wrBit ..).wider ?_
    | with_reducible refine within_look fun _ => ?_
    | with_reducible refine within_act ?_
    | rfl

theorem within_actCntClr (r : Requester) (page : Nat) (v : Word) : Within [.withdrawn, .ctl, .store, .rod, .storeBad, .rodBad, .vreg, .acc, .core, .mem, .chk, .farMem, .packets, .bulkOpen, .bulkPend, .prog, .progPend, .desc, .herd, .extent, .ssetOwner, .moves, .touched, .mergeBuf, .bx, .side, .hcmd, .htag, .coll, .mc, .phase, .completions, .notices, .snap, .dumpRun, .wdtArmed, .rstPend, .freeCtr, .out] (actCntClr r page v) := by
  unfold actCntClr
  repeat' first
    | with_reducible refine (within_ctlWrite ..).wider ?_
    | rfl

theorem within_actBlkFence (r : Requester) (page : Nat) (v : Word) : Within [.withdrawn, .ctl, .store, .rod, .storeBad, .rodBad, .vreg, .acc, .core, .mem, .chk, .farMem, .packets, .bulkOpen, .bulkPend, .prog, .progPend, .desc, .herd, .extent, .ssetOwner, .moves, .touched, .mergeBuf, .bx, .side, .hcmd, .htag, .coll, .mc, .phase, .completions, .notices, .snap, .dumpRun, .wdtArmed, .rstPend, .freeCtr, .out] (actBlkFence r page v) := by
  unfold actBlkFence
  repeat' first
    | with_reducible refine (within_ctlWrite ..).wider ?_
    | rfl

theorem within_actBlkIset (r : Requester) (page : Nat) (v : Word) : Within [.withdrawn, .ctl, .store, .rod, .storeBad, .rodBad, .vreg, .acc, .core, .mem, .chk, .farMem, .packets, .bulkOpen, .bulkPend, .prog, .progPend, .desc, .herd, .extent, .ssetOwner, .moves, .touched, .mergeBuf, .bx, .side, .hcmd, .htag, .coll, .mc, .phase, .completions, .notices, .snap, .dumpRun, .wdtArmed, .rstPend, .freeCtr, .out] (actBlkIset r page v) := by
  unfold actBlkIset
  repeat' first
    | with_reducible refine (within_ctlWrite ..).wider ?_
    | rfl

theorem within_coreFenceStep (c : Nat) : Within [.ctl, .core, .herd, .bx, .hcmd, .htag, .notices, .out] (coreFenceStep c) := by
  unfold coreFenceStep
  repeat' first
    | with_reducible refine (within_abandonDwq ..).wider ?_
    | with_reducible refine (within_actCoreFence ..).wider ?_
    | with_reducible apply within_seq_cons
    | with_reducible exact within_seq_nil
    | with_reducible refine within_look fun _ => ?_
    | with_reducible refine within_act ?_
    | rfl

/-! ## ExecCore -/

theorem within_finishParkOf (site : Nat) : Within [.ctl, .store, .rod, .storeBad, .rodBad, .vreg, .acc, .core, .herd, .bx, .hcmd, .completions, .dumpRun, .freeCtr, .out] (finishParkOf site) := by
  unfold finishParkOf
  repeat' first
    | with_reducible exact within_nop
    | with_reducible refine (within_finishPark ..).wider ?_
    | with_reducible refine within_one ?_
    | with_reducible refine within_look fun _ => ?_
    | rfl
    | split

theorem within_finishParkAt (page : Nat) : Within [.ctl, .store, .rod, .storeBad, .rodBad, .vreg, .acc, .core, .herd, .bx, .hcmd, .completions, .dumpRun, .freeCtr, .out] (finishParkAt page) := by
  unfold finishParkAt
  repeat' first
    | with_reducible exact within_nop
    | with_reducible refine (within_finishParkOf ..).wider ?_
    | with_reducible refine within_one ?_
    | with_reducible refine within_look fun _ => ?_
    | rfl
    | split

end Sys2Proof.Machine
end

