-- ==== Sys2Proof/Laws/Map.lean ====
section
/-! SUPPORT. Laws of the sparse arrays: what a read finds after a write, and that every operation keeps the canonical form. -/

namespace Sys2Proof.Machine

variable {α : Type}

@[simp] theorem mGet_nil (k : Nat) : mGet ([] : List (Nat × α)) k = none := rfl
@[simp] theorem mGetD_nil (k : Nat) (d : α) : mGetD ([] : List (Nat × α)) k d = d := rfl
@[simp] theorem mRising_nil : mRising ([] : List (Nat × α)) = true := rfl
@[simp] theorem mPut_nil_some (k : Nat) (v : α) : mPut ([] : List (Nat × α)) k (some v) = [(k, v)] := rfl
@[simp] theorem mPut_nil_none (k : Nat) : mPut ([] : List (Nat × α)) k none = [] := rfl

theorem mRising_cons (p : Nat × α) (m : List (Nat × α)) :
    mRising (p :: m) = true ↔ (∀ q ∈ m, p.1 < q.1) ∧ mRising m = true := by
  simp [mRising]

/-- Below every listed key nothing is listed. -/
theorem mGet_below (m : List (Nat × α)) (k : Nat) (h : ∀ q ∈ m, k < q.1) : mGet m k = none := by
  induction m with
  | nil => rfl
  | cons p m ih =>
    have : k < p.1 := h p (by simp)
    simp only [mGet, if_neg (Nat.ne_of_lt this)]
    exact ih fun q hq => h q (by simp [hq])

/-- What is found is listed. -/
theorem mGet_mem {m : List (Nat × α)} {k : Nat} {v : α} (h : mGet m k = some v) : (k, v) ∈ m := by
  induction m with
  | nil => simp at h
  | cons p m ih =>
    simp only [mGet] at h
    split at h
    · rename_i e
      simp only [Option.some.injEq] at h
      simp [e, ← h]
    · exact List.mem_cons_of_mem _ (ih h)

/-- What is listed is found. -/
theorem mGet_of_mem {m : List (Nat × α)} {k : Nat} {v : α} (hm : mRising m = true) (h : (k, v) ∈ m) : mGet m k = some v := by
  induction m with
  | nil => simp at h
  | cons p m ih =>
    rw [mRising_cons] at hm
    rcases List.mem_cons.1 h with e | h
    · simp [mGet, ← e]
    · have := hm.1 _ h
      simp only at this
      simp [mGet, Nat.ne_of_gt this, ih hm.2 h]

/-- A key written holds what was put there. -/
theorem mGet_mPut_same (m : List (Nat × α)) (k : Nat) (x : Option α) : mGet (mPut m k x) k = x := by
  induction m generalizing x with
  | nil => cases x <;> simp [mGet]
  | cons p m ih =>
    simp only [mPut]
    split
    · cases x with
      | none => exact ih none
      | some v => simp [mGet]
    · rename_i h1
      split
      · cases x with
        | none => simp [mGet, h1, ih]
        | some v => simp [mGet]
      · simp [mGet, h1, ih]

/-- Every other key keeps what it held. -/
theorem mGet_mPut_other (m : List (Nat × α)) {k j : Nat} (x : Option α) (h : j ≠ k) : mGet (mPut m k x) j = mGet m j := by
  induction m generalizing x with
  | nil => cases x <;> simp [mGet, h]
  | cons p m ih =>
    simp only [mPut]
    split
    · rename_i h1
      cases x with
      | none => simp [mGet, ← h1, h, ih]
      | some v => simp [mGet, ← h1, h]
    · split
      · cases x with
        | none => simp [mGet, ih]
        | some v => simp [mGet, h]
      · simp [mGet, ih]

theorem mem_mPut {m : List (Nat × α)} {k : Nat} {x : Option α} {q : Nat × α} (h : q ∈ mPut m k x) :
    q ∈ m ∨ (q.1 = k ∧ x = some q.2) := by
  induction m generalizing x with
  | nil =>
    cases x with
    | none => simp at h
    | some v => simp at h; simp [h]
  | cons p m ih =>
    simp only [mPut] at h
    split at h
    · cases x with
      | none => exact (ih h).imp (List.mem_cons_of_mem _) id
      | some v =>
        rcases List.mem_cons.1 h with e | h
        · exact .inr (by simp [e])
        · exact .inl (List.mem_cons_of_mem _ h)
    · split at h
      · cases x with
        | none =>
          rcases List.mem_cons.1 h with e | h
          · exact .inl (by simp [e])
          · exact (ih h).imp (List.mem_cons_of_mem _) id
        | some v =>
          rcases List.mem_cons.1 h with e | h
          · exact .inr (by simp [e])
          · exact .inl h
      · rcases List.mem_cons.1 h with e | h
        · exact .inl (by simp [e])
        · exact (ih h).imp (List.mem_cons_of_mem _) id

/-- A write keeps the keys rising. -/
theorem mRising_mPut {m : List (Nat × α)} (hm : mRising m = true) (k : Nat) (x : Option α) : mRising (mPut m k x) = true := by
  induction m generalizing x with
  | nil => cases x <;> simp [mRising]
  | cons p m ih =>
    have hp := hm
    rw [mRising_cons] at hm
    simp only [mPut]
    split
    · rename_i h
      cases x with
      | none => exact ih hm.2 none
      | some v => rw [mRising_cons]; exact ⟨by rw [h]; exact hm.1, hm.2⟩
    · split
      · rename_i h
        cases x with
        | none =>
          rw [mRising_cons]
          refine ⟨fun q hq => ?_, ih hm.2 none⟩
          rcases mem_mPut hq with h | h
          · exact hm.1 q h
          · simp at h
        | some v =>
          rw [mRising_cons]
          refine ⟨fun q hq => ?_, hp⟩
          rcases List.mem_cons.1 hq with e | hq
          · rw [e]; exact h
          · exact Nat.lt_trans h (hm.1 q hq)
      · rename_i h1 h2
        rw [mRising_cons]
        refine ⟨fun q hq => ?_, ih hm.2 x⟩
        rcases mem_mPut hq with h | h
        · exact hm.1 q h
        · omega

/-- Dropping keys keeps the rest rising. -/
theorem mRising_mKeep {m : List (Nat × α)} (hm : mRising m = true) (p : Nat → Bool) : mRising (mKeep m p) = true := by
  induction m with
  | nil => rfl
  | cons q m ih =>
    rw [mRising_cons] at hm
    simp only [mKeep, List.filter_cons]
    split
    · rw [mRising_cons]
      exact ⟨fun r hr => hm.1 r (List.mem_filter.1 hr).1, ih hm.2⟩
    · exact ih hm.2

/-- A key that is kept keeps what it held; one that is dropped is listed no more. -/
theorem mGet_mKeep (m : List (Nat × α)) (p : Nat → Bool) (k : Nat) : mGet (mKeep m p) k = if p k then mGet m k else none := by
  induction m with
  | nil => simp [mKeep]
  | cons q m ih =>
    simp only [mKeep, List.filter_cons] at ih ⊢
    by_cases hq : p q.1 = true
    · rw [if_pos hq]
      simp only [mGet]
      by_cases e : k = q.1
      · simp [e, hq]
      · simp only [if_neg e]; exact ih
    · rw [if_neg hq, ih]
      by_cases e : k = q.1
      · simp [e, hq]
      · simp [mGet, e]

/-- Mapping the listed values keeps the keys rising. -/
theorem mRising_mMap {m : List (Nat × α)} (hm : mRising m = true) (f : Nat → α → Option α) : mRising (mMap m f) = true := by
  induction m with
  | nil => rfl
  | cons q m ih =>
    rw [mRising_cons] at hm
    simp only [mMap, List.filterMap_cons]
    cases h : f q.1 q.2 with
    | none => simpa [mMap] using ih hm.2
    | some v =>
      simp only [Option.map_some]
      rw [mRising_cons]
      refine ⟨fun r hr => ?_, ih hm.2⟩
      obtain ⟨x, hx, e⟩ := List.mem_filterMap.1 hr
      have := hm.1 x hx
      cases hf : f x.1 x.2 with
      | none => simp [hf] at e
      | some w => simp [hf] at e; rw [← e]; exact this

variable [DecidableEq α]

theorem mCanon_iff (m : List (Nat × α)) (d : Nat → α) :
    mCanon m d = true ↔ mRising m = true ∧ ∀ p ∈ m, p.2 ≠ d p.1 := by
  simp [mCanon]

theorem mCanon_nil (d : Nat → α) : mCanon ([] : List (Nat × α)) d = true := rfl

theorem mCanon_rising {m : List (Nat × α)} {d : Nat → α} (h : mCanon m d = true) : mRising m = true := ((mCanon_iff m d).1 h).1

/-- A write keeps the canonical form. -/
theorem mCanon_mSet {m : List (Nat × α)} {d : Nat → α} (h : mCanon m d = true) (k : Nat) (v : α) :
    mCanon (mSet m k v (d k)) d = true := by
  rw [mCanon_iff] at h ⊢
  refine ⟨mRising_mPut h.1 _ _, fun q hq => ?_⟩
  rcases mem_mPut hq with hq | ⟨e, hx⟩
  · exact h.2 q hq
  · split at hx
    · simp at hx
    · rename_i hne
      simp only [Option.some.injEq] at hx
      rw [e, ← hx]; exact hne

theorem mCanon_mKeep {m : List (Nat × α)} {d : Nat → α} (h : mCanon m d = true) (p : Nat → Bool) : mCanon (mKeep m p) d = true := by
  rw [mCanon_iff] at h ⊢
  exact ⟨mRising_mKeep h.1 _, fun q hq => h.2 q (List.mem_filter.1 hq).1⟩

/-- Mapping keeps the canonical form when it lists no default. -/
theorem mCanon_mMap {m : List (Nat × α)} {d : Nat → α} (h : mCanon m d = true) (f : Nat → α → Option α)
    (hf : ∀ q ∈ m, ∀ v, f q.1 q.2 = some v → v ≠ d q.1) : mCanon (mMap m f) d = true := by
  rw [mCanon_iff] at h ⊢
  refine ⟨mRising_mMap h.1 _, fun q hq => ?_⟩
  obtain ⟨x, hx, e⟩ := List.mem_filterMap.1 hq
  cases hf' : f x.1 x.2 with
  | none => simp [hf'] at e
  | some v => simp [hf'] at e; rw [← e]; exact hf x hx v hf'

theorem mSet_rising {m : List (Nat × α)} (hm : mRising m = true) (k : Nat) (v d : α) : mRising (mSet m k v d) = true :=
  mRising_mPut hm _ _

/-- Reading back a word written. -/
theorem mGetD_mSet_same (m : List (Nat × α)) (k : Nat) (v d : α) : mGetD (mSet m k v d) k d = v := by
  simp only [mGetD, mSet, mGet_mPut_same]
  split
  · rename_i h; simp [h]
  · rfl

/-- Writing one word leaves every other as it was. -/
theorem mGetD_mSet_other (m : List (Nat × α)) {k j : Nat} (h : j ≠ k) (v d e : α) :
    mGetD (mSet m k v d) j e = mGetD m j e := by
  simp only [mGetD, mSet, mGet_mPut_other _ _ h]

end Sys2Proof.Machine
end

