-- ==== Sys2Proof/Laws/Regs.lean ====
section
/-! SUPPORT. What a register reads after an update, the fields of words, and that every update keeps the state's canonical form. -/

namespace Sys2Proof.Machine

/-! ## Fields of words -/

theorem fld_setFld {n : Nat} (w : BitVec n) {hi lo : Nat} (h : lo ≤ hi) (hn : hi < n) (v : Nat) :
    fld (setFld w hi lo v) hi lo = v % 2 ^ (hi + 1 - lo) := by
  have hw := w.isLt
  unfold fld setFld bits
  generalize w.toNat = x at hw
  have e : 2 ^ (hi + 1) = 2 ^ lo * 2 ^ (hi + 1 - lo) := by rw [← pow_add]; congr 1; omega
  set A := 2 ^ lo with hA
  set B := 2 ^ (hi + 1 - lo) with hB
  have hApos : 0 < A := by positivity
  have hBpos : 0 < B := by positivity
  have hx : x = A * B * (x / (A * B)) + A * (x / A % B) + x % A := by
    have h1 := Nat.div_add_mod x A
    have h2 := Nat.div_add_mod (x / A) B
    rw [Nat.div_div_eq_div_mul] at h2
    nlinarith [h1, h2]
  have hdvd : A * B ∣ 2 ^ n := by rw [← e]; exact Nat.pow_dvd_pow 2 (by omega)
  have key : x - x / A % B * A + v % B * A = A * B * (x / (A * B)) + A * (v % B) + x % A := by
    have : x / A % B * A ≤ x := by nlinarith [Nat.zero_le (A * B * (x / (A * B))), Nat.zero_le (x % A)]
    have c : x / A % B * A = A * (x / A % B) := Nat.mul_comm _ _
    have c2 : v % B * A = A * (v % B) := Nat.mul_comm _ _
    omega
  rw [BitVec.toNat_ofNat, key]
  have r : (A * B * (x / (A * B)) + A * (v % B) + x % A) % (A * B) = A * (v % B) + x % A := by
    have hlt : A * (v % B) + x % A < A * B := by
      have h1 := Nat.mod_lt x hApos
      have h2 := Nat.mod_lt v hBpos
      have : A * (v % B) + A ≤ A * B := by
        have : A * (v % B + 1) ≤ A * B := Nat.mul_le_mul_left _ h2
        nlinarith
      omega
    rw [Nat.add_assoc, Nat.mul_add_mod, Nat.mod_eq_of_lt hlt]
  generalize A * B * (x / (A * B)) + A * (v % B) + x % A = y at r ⊢
  have m1 : y % 2 ^ n % (A * B) = y % (A * B) := Nat.mod_mod_of_dvd _ hdvd
  have m2 : y % 2 ^ n / A % B = (y % 2 ^ n) % (A * B) / A := by rw [Nat.mod_mul_right_div_self]
  rw [m2, m1, r, Nat.mul_add_div hApos]
  simp [Nat.div_eq_of_lt (Nat.mod_lt x hApos)]

/-! ## Registers -/

@[simp] theorem rd_ctl_same (s : State) (a : Nat) (v : Word) : rd ((Upd.ctl a v).apply s) a = v := by
  simp [rd, mGetD_mSet_same]

theorem rd_ctl_other (s : State) {a b : Nat} (hb : b ≠ a) (v : Word) : rd ((Upd.ctl a v).apply s) b = rd s b := by
  simp [rd, mGetD_mSet_other _ hb]

theorem rd_keeps {u : Upd} (h : u.part ≠ .ctl) (s : State) (a : Nat) : rd (u.apply s) a = rd s a := by
  simp [rd, keeps_ctl h]

theorem ctl_rising_apply (u : Upd) {s : State} (h : mRising s.ctl = true) : mRising (u.apply s).ctl = true := by
  by_cases hp : u.part = .ctl
  · cases u <;> first
      | (cases hp; done)
      | (rw [apply_ctl]; exact mSet_rising h _ _ _)
      | (rw [apply_ctlReset]; exact mRising_mMap h _)
      | (rw [apply_ctlClear]; exact mRising_nil)
  · rw [keeps_ctl hp]; exact h

theorem ctl_rising_after (a : Act) {s : State} (h : mRising s.ctl = true) : mRising (after a s).ctl = true :=
  after_keeps (P := fun s => mRising s.ctl = true) (fun u _ hs => ctl_rising_apply u hs) a s h

/-- A register that an act writes reads as written. -/
theorem rd_after_wr (s : State) (a : Nat) (v : Word) : rd (after (wr a v) s) a = v := rd_ctl_same s a v

theorem rd_after_wr_other (s : State) {a b : Nat} (hb : b ≠ a) (v : Word) : rd (after (wr a v) s) b = rd s b := rd_ctl_other s hb v

/-! ## Arrays: what a read finds after one write -/

@[simp] theorem coreX_core_same (s : State) (c : Nat) (x : CoreX) : coreX ((Upd.core c x).apply s) c = x := mGetD_mSet_same _ _ _ _
theorem coreX_core_other (s : State) {c d : Nat} (h : d ≠ c) (x : CoreX) : coreX ((Upd.core c x).apply s) d = coreX s d :=
  mGetD_mSet_other _ h _ _ _
@[simp] theorem memByte_mem_same (s : State) (a : Nat) (v : Byte) : memByte ((Upd.mem a v).apply s) a = v := mGetD_mSet_same _ _ _ _
theorem memByte_mem_other (s : State) {a b : Nat} (h : b ≠ a) (v : Byte) : memByte ((Upd.mem a v).apply s) b = memByte s b :=
  mGetD_mSet_other _ h _ _ _
theorem vGet_vreg (s : State) (k : Nat) (v : BitVec 512) (c n : Nat) :
    vGet ((Upd.vreg k v).apply s) c n = if 64 * c + n = k then v else vGet s c n := by
  unfold vGet
  split
  · rename_i h; rw [h]; exact mGetD_mSet_same _ _ _ _
  · rename_i h; exact mGetD_mSet_other _ h _ _ _
theorem stGet_store (s : State) (k : Nat) (v : BitVec 256) (c n : Nat) :
    stGet ((Upd.store k v).apply s) c n = if 49152 * c + n = k then v else stGet s c n := by
  unfold stGet
  split
  · rename_i h; rw [h]; exact mGetD_mSet_same _ _ _ _
  · rename_i h; exact mGetD_mSet_other _ h _ _ _
theorem accGet_acc (s : State) (k : Nat) (v : Word) (c b e : Nat) :
    accGet ((Upd.acc k v).apply s) c b e = if 2048 * c + 64 * b + e = k then v else accGet s c b e := by
  unfold accGet
  split
  · rename_i h; rw [h]; exact mGetD_mSet_same _ _ _ _
  · rename_i h; exact mGetD_mSet_other _ h _ _ _
theorem rodGet_rod (s : State) (k : Nat) (v : BitVec 128) (c n : Nat) :
    rodGet ((Upd.rod k v).apply s) c n = if 2048 * c + n = k then v else rodGet s c n := by
  unfold rodGet
  split
  · rename_i h; rw [h]; exact mGetD_mSet_same _ _ _ _
  · rename_i h; exact mGetD_mSet_other _ h _ _ _
theorem herdOf_herd (s : State) (k : Nat) (v : Option Herd) (h : Nat) :
    herdOf ((Upd.herd k v).apply s) h = if h = k then v else herdOf s h := by
  unfold herdOf
  split
  · rename_i e; rw [e]; exact mGet_mPut_same _ _ _
  · rename_i e; exact mGet_mPut_other _ _ e

/-- What setCore leaves at its core, and that it leaves the others. -/
theorem coreX_setCore (s : State) (c : Nat) (f : CoreX → CoreX) (d : Nat) :
    coreX (after (setCore c f) s) d = if d = c then f (coreX s c) else coreX s d := by
  split
  · rename_i e; subst e; exact coreX_core_same _ _ _
  · rename_i e; exact coreX_core_other _ e _

@[simp] theorem after_wr (a : Nat) (v : Word) (s : State) : after (wr a v) s = (Upd.ctl a v).apply s := rfl
@[simp] theorem after_wrFld (a hi lo v : Nat) (s : State) :
    after (wrFld a hi lo v) s = (Upd.ctl a (setFld (rd s a) hi lo v)).apply s := rfl
@[simp] theorem after_wrBit (a i : Nat) (b : Bool) (s : State) :
    after (wrBit a i b) s = (Upd.ctl a (setBit (rd s a) i b)).apply s := rfl

/-- Whether a module is powered depends on its power state alone. -/
theorem powered_keeps {u : Upd} (h : u.part ≠ .power) (s : State) : powered (u.apply s) = powered s := by
  simp [powered, keeps_power h]

/-! ## The canonical form -/

theorem wf_ctl {s : State} (h : s.wf = true) : mRising s.ctl = true := by
  simp only [State.wf, Bool.and_eq_true] at h
  exact mCanon_rising (by tauto)

theorem resetOne_canon {m : List (Nat × Word)} (h : mCanon m resetWord = true) (p : Nat → Bool) :
    mCanon (mMap m (fun a w => if p a then resetOne a w else some w)) resetWord = true := by
  refine mCanon_mMap h _ (fun q hq v hv => ?_)
  split at hv
  · simp only [resetOne] at hv
    split at hv
    · simp at hv
    · rename_i hne
      simp only [Option.some.injEq] at hv
      rw [← hv]; exact hne
  · simp only [Option.some.injEq] at hv
    rw [← hv]; exact ((mCanon_iff _ _).1 h).2 q hq

theorem canon_ctl (u : Upd) {s : State} (h : mCanon s.ctl resetWord = true) : mCanon (u.apply s).ctl resetWord = true := by
  by_cases hp : u.part = .ctl
  · cases u <;> first
      | (cases hp; done)
      | (rw [apply_ctl]; exact mCanon_mSet (d := resetWord) h _ _)
      | (rw [apply_ctlReset]; exact resetOne_canon h _)
      | (rw [apply_ctlClear]; exact mCanon_nil _)
  · rw [keeps_ctl hp]; exact h

theorem canon_store (u : Upd) {s : State} (h : mCanon s.store (fun _ => 0) = true) : mCanon (u.apply s).store (fun _ => 0) = true := by
  by_cases hp : u.part = .store
  · cases u <;> first
      | (cases hp; done)
      | (rw [apply_store]; exact mCanon_mSet (d := (fun _ => 0)) h _ _)
      | (rw [apply_storeKeep]; exact mCanon_mKeep h _)
  · rw [keeps_store hp]; exact h

theorem canon_rod (u : Upd) {s : State} (h : mCanon s.rod (fun _ => 0) = true) : mCanon (u.apply s).rod (fun _ => 0) = true := by
  by_cases hp : u.part = .rod
  · cases u <;> first
      | (cases hp; done)
      | (rw [apply_rod]; exact mCanon_mSet (d := (fun _ => 0)) h _ _)
      | (rw [apply_rodKeep]; exact mCanon_mKeep h _)
  · rw [keeps_rod hp]; exact h

theorem canon_storeBad (u : Upd) {s : State} (h : mCanon s.storeBad (fun _ => false) = true) : mCanon (u.apply s).storeBad (fun _ => false) = true := by
  by_cases hp : u.part = .storeBad
  · cases u <;> first
      | (cases hp; done)
      | (rw [apply_storeBad]; exact mCanon_mSet (d := (fun _ => false)) h _ _)
      | (rw [apply_storeBadKeep]; exact mCanon_mKeep h _)
  · rw [keeps_storeBad hp]; exact h

theorem canon_rodBad (u : Upd) {s : State} (h : mCanon s.rodBad (fun _ => false) = true) : mCanon (u.apply s).rodBad (fun _ => false) = true := by
  by_cases hp : u.part = .rodBad
  · cases u <;> first
      | (cases hp; done)
      | (rw [apply_rodBad]; exact mCanon_mSet (d := (fun _ => false)) h _ _)
      | (rw [apply_rodBadKeep]; exact mCanon_mKeep h _)
  · rw [keeps_rodBad hp]; exact h

theorem canon_vreg (u : Upd) {s : State} (h : mCanon s.vreg (fun _ => 0) = true) : mCanon (u.apply s).vreg (fun _ => 0) = true := by
  by_cases hp : u.part = .vreg
  · cases u <;> first
      | (cases hp; done)
      | (rw [apply_vreg]; exact mCanon_mSet (d := (fun _ => 0)) h _ _)
      | (rw [apply_vregKeep]; exact mCanon_mKeep h _)
  · rw [keeps_vreg hp]; exact h

theorem canon_acc (u : Upd) {s : State} (h : mCanon s.acc (fun _ => 0) = true) : mCanon (u.apply s).acc (fun _ => 0) = true := by
  by_cases hp : u.part = .acc
  · cases u <;> first
      | (cases hp; done)
      | (rw [apply_acc]; exact mCanon_mSet (d := (fun _ => 0)) h _ _)
      | (rw [apply_accKeep]; exact mCanon_mKeep h _)
  · rw [keeps_acc hp]; exact h

theorem canon_core (u : Upd) {s : State} (h : mCanon s.core (fun _ => CoreX.clear) = true) : mCanon (u.apply s).core (fun _ => CoreX.clear) = true := by
  by_cases hp : u.part = .core
  · cases u <;> first
      | (cases hp; done)
      | (rw [apply_core]; exact mCanon_mSet (d := (fun _ => CoreX.clear)) h _ _)
      | (rw [apply_coreKeep]; exact mCanon_mKeep h _)
  · rw [keeps_core hp]; exact h

theorem canon_mem (u : Upd) {s : State} (h : mCanon s.mem (fun _ => 0) = true) : mCanon (u.apply s).mem (fun _ => 0) = true := by
  by_cases hp : u.part = .mem
  · cases u <;> first
      | (cases hp; done)
      | (rw [apply_mem]; exact mCanon_mSet (d := (fun _ => 0)) h _ _)
      | (rw [apply_memKeep]; exact mCanon_mKeep h _)
  · rw [keeps_mem hp]; exact h

theorem canon_chk (u : Upd) {s : State} (h : mCanon s.chk (fun _ => 0) = true) : mCanon (u.apply s).chk (fun _ => 0) = true := by
  by_cases hp : u.part = .chk
  · cases u <;> first
      | (cases hp; done)
      | (rw [apply_chk]; exact mCanon_mSet (d := (fun _ => 0)) h _ _)
      | (rw [apply_chkKeep]; exact mCanon_mKeep h _)
  · rw [keeps_chk hp]; exact h

theorem canon_farMem (u : Upd) {s : State} (h : mCanon s.farMem (fun _ => 0) = true) : mCanon (u.apply s).farMem (fun _ => 0) = true := by
  by_cases hp : u.part = .farMem
  · cases u <;> first
      | (cases hp; done)
      | (rw [apply_farMem]; exact mCanon_mSet (d := (fun _ => 0)) h _ _)
      | (rw [apply_farMemKeep]; exact mCanon_mKeep h _)
  · rw [keeps_farMem hp]; exact h

theorem canon_prog (u : Upd) {s : State} (h : mCanon s.prog (fun _ => 0) = true) : mCanon (u.apply s).prog (fun _ => 0) = true := by
  by_cases hp : u.part = .prog
  · cases u <;> first
      | (cases hp; done)
      | (rw [apply_prog]; exact mCanon_mSet (d := (fun _ => 0)) h _ _)
      | (rw [apply_progKeep]; exact mCanon_mKeep h _)
  · rw [keeps_prog hp]; exact h

theorem canon_flash (u : Upd) {s : State} (h : mCanon s.flash (fun _ => 0xFF) = true) : mCanon (u.apply s).flash (fun _ => 0xFF) = true := by
  by_cases hp : u.part = .flash
  · cases u <;> first
      | (cases hp; done)
      | (rw [apply_flash]; exact mCanon_mSet (d := (fun _ => 0xFF)) h _ _)
  · rw [keeps_flash hp]; exact h

theorem canon_bx (u : Upd) {s : State} (h : mCanon s.bx (fun _ => BxPort.clear) = true) : mCanon (u.apply s).bx (fun _ => BxPort.clear) = true := by
  by_cases hp : u.part = .bx
  · cases u <;> first
      | (cases hp; done)
      | (rw [apply_bx]; exact mCanon_mSet (d := (fun _ => BxPort.clear)) h _ _)
      | (rw [apply_bxKeep]; exact mCanon_mKeep h _)
  · rw [keeps_bx hp]; exact h

theorem canon_snap (u : Upd) {s : State} (h : mCanon s.snap (fun _ => Snap.clear) = true) : mCanon (u.apply s).snap (fun _ => Snap.clear) = true := by
  by_cases hp : u.part = .snap
  · cases u <;> first
      | (cases hp; done)
      | (rw [apply_snap]; exact mCanon_mSet (d := (fun _ => Snap.clear)) h _ _)
      | (rw [apply_snapKeep]; exact mCanon_mKeep h _)
  · rw [keeps_snap hp]; exact h

theorem rising_bulkPend (u : Upd) {s : State} (h : mRising s.bulkPend = true) : mRising (u.apply s).bulkPend = true := by
  by_cases hp : u.part = .bulkPend
  · cases u <;> first
      | (cases hp; done)
      | (rw [apply_bulkPend]; exact mRising_mPut h _ _)
      | (rw [apply_bulkPendKeep]; exact mRising_mKeep h _)
  · rw [keeps_bulkPend hp]; exact h

theorem rising_ringFail (u : Upd) {s : State} (h : mRising s.ringFail = true) : mRising (u.apply s).ringFail = true := by
  by_cases hp : u.part = .ringFail
  · cases u <;> first
      | (cases hp; done)
      | (rw [apply_ringFail]; exact mRising_mPut h _ _)
      | (rw [apply_ringFailKeep]; exact mRising_mKeep h _)
  · rw [keeps_ringFail hp]; exact h

theorem rising_lastTaken (u : Upd) {s : State} (h : mRising s.lastTaken = true) : mRising (u.apply s).lastTaken = true := by
  by_cases hp : u.part = .lastTaken
  · cases u <;> first
      | (cases hp; done)
      | (rw [apply_lastTaken]; exact mRising_mPut h _ _)
      | (rw [apply_lastTakenKeep]; exact mRising_mKeep h _)
  · rw [keeps_lastTaken hp]; exact h

theorem rising_lastGrant (u : Upd) {s : State} (h : mRising s.lastGrant = true) : mRising (u.apply s).lastGrant = true := by
  by_cases hp : u.part = .lastGrant
  · cases u <;> first
      | (cases hp; done)
      | (rw [apply_lastGrant]; exact mRising_mPut h _ _)
      | (rw [apply_lastGrantKeep]; exact mRising_mKeep h _)
  · rw [keeps_lastGrant hp]; exact h

theorem rising_herd (u : Upd) {s : State} (h : mRising s.herd = true) : mRising (u.apply s).herd = true := by
  by_cases hp : u.part = .herd
  · cases u <;> first
      | (cases hp; done)
      | (rw [apply_herd]; exact mRising_mPut h _ _)
      | (rw [apply_herdKeep]; exact mRising_mKeep h _)
  · rw [keeps_herd hp]; exact h

theorem rising_extent (u : Upd) {s : State} (h : mRising s.extent = true) : mRising (u.apply s).extent = true := by
  by_cases hp : u.part = .extent
  · cases u <;> first
      | (cases hp; done)
      | (rw [apply_extent]; exact mRising_mPut h _ _)
      | (rw [apply_extentKeep]; exact mRising_mKeep h _)
  · rw [keeps_extent hp]; exact h

theorem rising_ssetOwner (u : Upd) {s : State} (h : mRising s.ssetOwner = true) : mRising (u.apply s).ssetOwner = true := by
  by_cases hp : u.part = .ssetOwner
  · cases u <;> first
      | (cases hp; done)
      | (rw [apply_ssetOwner]; exact mRising_mPut h _ _)
      | (rw [apply_ssetOwnerKeep]; exact mRising_mKeep h _)
  · rw [keeps_ssetOwner hp]; exact h

theorem rising_touched (u : Upd) {s : State} (h : mRising s.touched = true) : mRising (u.apply s).touched = true := by
  by_cases hp : u.part = .touched
  · cases u <;> first
      | (cases hp; done)
      | (rw [apply_touched]; exact mRising_mPut h _ _)
      | (rw [apply_touchedKeep]; exact mRising_mKeep h _)
  · rw [keeps_touched hp]; exact h

theorem rising_lastCorr (u : Upd) {s : State} (h : mRising s.lastCorr = true) : mRising (u.apply s).lastCorr = true := by
  by_cases hp : u.part = .lastCorr
  · cases u <;> first
      | (cases hp; done)
      | (rw [apply_lastCorr]; exact mRising_mPut h _ _)
      | (rw [apply_lastCorrKeep]; exact mRising_mKeep h _)
  · rw [keeps_lastCorr hp]; exact h

theorem rising_cable (u : Upd) {s : State} (h : mRising s.cable = true) : mRising (u.apply s).cable = true := by
  by_cases hp : u.part = .cable
  · cases u <;> first
      | (cases hp; done)
      | (rw [apply_cable]; exact mRising_mPut h _ _)
  · rw [keeps_cable hp]; exact h

theorem rising_coalesced (u : Upd) {s : State} (h : mRising s.coalesced = true) : mRising (u.apply s).coalesced = true := by
  by_cases hp : u.part = .coalesced
  · cases u <;> first
      | (cases hp; done)
      | (rw [apply_coalesced]; exact mRising_mPut h _ _)
      | (rw [apply_coalescedKeep]; exact mRising_mKeep h _)
  · rw [keeps_coalesced hp]; exact h

theorem rising_phase (u : Upd) {s : State} (h : mRising s.phase = true) : mRising (u.apply s).phase = true := by
  by_cases hp : u.part = .phase
  · cases u <;> first
      | (cases hp; done)
      | (rw [apply_phase]; exact mRising_mPut h _ _)
      | (rw [apply_phaseKeep]; exact mRising_mKeep h _)
  · rw [keeps_phase hp]; exact h

theorem rising_numVfs (u : Upd) {s : State} (h : mRising s.numVfs = true) : mRising (u.apply s).numVfs = true := by
  by_cases hp : u.part = .numVfs
  · cases u <;> first
      | (cases hp; done)
      | (rw [apply_numVfs]; exact mRising_mPut h _ _)
      | (rw [apply_numVfsKeep]; exact mRising_mKeep h _)
  · rw [keeps_numVfs hp]; exact h

theorem rising_bar2Log (u : Upd) {s : State} (h : mRising s.bar2Log = true) : mRising (u.apply s).bar2Log = true := by
  by_cases hp : u.part = .bar2Log
  · cases u <;> first
      | (cases hp; done)
      | (rw [apply_bar2Log]; exact mRising_mPut h _ _)
      | (rw [apply_bar2LogKeep]; exact mRising_mKeep h _)
  · rw [keeps_bar2Log hp]; exact h

theorem rising_busyRing (u : Upd) {s : State} (h : mRising s.busyRing = true) : mRising (u.apply s).busyRing = true := by
  by_cases hp : u.part = .busyRing
  · cases u <;> first
      | (cases hp; done)
      | (rw [apply_busyRing]; exact mRising_mPut h _ _)
      | (rw [apply_busyRingKeep]; exact mRising_mKeep h _)
  · rw [keeps_busyRing hp]; exact h

/-- Every primitive update keeps every sparse array in its canonical form. -/
theorem wf_apply (u : Upd) {s : State} (h : s.wf = true) : (u.apply s).wf = true := by
  simp only [State.wf, Bool.and_eq_true, and_assoc] at h ⊢
  obtain ⟨h1, h2, h3, h4, h5, h6, h7, h8, h9, h10, h11, h12, h13, h14, h15, h16, h17, h18, h19, h20, h21, h22, h23, h24, h25, h26, h27, h28, h29, h30⟩ := h
  exact ⟨canon_ctl u h1, canon_store u h2, canon_rod u h3, canon_storeBad u h4, canon_rodBad u h5, canon_vreg u h6, canon_acc u h7, canon_core u h8, canon_mem u h9, canon_chk u h10, canon_farMem u h11, canon_prog u h12, canon_flash u h13, canon_bx u h14, canon_snap u h15, rising_bulkPend u h16, rising_ringFail u h17, rising_lastTaken u h18, rising_lastGrant u h19, rising_herd u h20, rising_extent u h21, rising_ssetOwner u h22, rising_touched u h23, rising_lastCorr u h24, rising_cable u h25, rising_coalesced u h26, rising_phase u h27, rising_numVfs u h28, rising_bar2Log u h29, rising_busyRing u h30⟩

/-- Every act keeps the canonical form. -/
theorem wf_after (a : Act) {s : State} (h : s.wf = true) : (after a s).wf = true :=
  after_keeps (P := fun s => s.wf = true) (fun u _ hs => wf_apply u hs) a s h

end Sys2Proof.Machine
end

