-- ==== Sys2Proof/Laws/Access.lean ====
section
/-! SUPPORT. What the access checks answer (R20, R21, R35, R37, R40), and how a command's own effect follows from its act. -/

namespace Sys2Proof.Machine

/-- A powered module runs the act. -/
theorem does_of_run {c : Instr} {s : State} {ps : List Part} {P : State → Prop} {a : Act} (hp : powered s = true) (hc : exec c s = run a s)
    (hw : OnlyIn ps s (after a s)) (hP : P (after a s)) : Does c s ps P := ⟨after a s, by rw [hc, run_powered hp], hw, hP⟩

/-- The act's fields give the frame. -/
theorem does_of_within {c : Instr} {s : State} {ps : List Part} {P : State → Prop} {a : Act} (hp : powered s = true) (hc : exec c s = run a s)
    (hw : Within ps a) (hP : P (after a s)) : Does c s ps P := does_of_run hp hc (hw.onlyIn s) hP

/-- A state agrees with itself. -/
theorem onlyIn_refl (ps : List Part) (s : State) : OnlyIn ps s s := fun p _ => by cases p <;> rfl

theorem Same.trans {s t u : State} {p : Part} (h : Same s t p) (g : Same t u p) : Same s u p := by
  cases p <;> exact Eq.trans g h

theorem OnlyIn.trans {ps : List Part} {s t u : State} (h : OnlyIn ps s t) (g : OnlyIn ps t u) : OnlyIn ps s u :=
  fun p hp => (h p hp).trans (g p hp)

/-- An update changes its own field alone. -/
theorem onlyIn_apply (u : Upd) (s : State) : OnlyIn [u.part] s (u.apply s) := (within_one (by simp)).onlyIn s

theorem OnlyIn.wider {ps qs : List Part} {s t : State} (h : OnlyIn qs s t) (hq : covers ps qs = true) : OnlyIn ps s t := fun p hp => by
  refine h p ?_
  by_contra hc
  rw [Bool.not_eq_false] at hc
  have := covers_mem hq hc
  rw [hp] at this; exact Bool.noConfusion this

/-- The ring controller's write to a page that takes it has its effect (R20, R35, R37, R40). -/
theorem after_guarded_ring {s : State} {p a : Nat} (h : Takes s p) (ha : a / 4096 = p) (eff : Act) :
    after (guarded .ringCtl a eff) s = after eff s := by
  obtain ⟨h1, h2, h3, h4⟩ := h
  have e : a / 4096 * 4096 = 4096 * p := by omega
  simp [guarded, reqOk, mayWrite, rightTo, ha, h1, h2, h3, h4, Nat.mul_comm p 4096]

/-- A write of a word by its register's type codes (R22, R23). -/
theorem after_maskWrite {s : State} {b : Block} {a : Nat} {d : RegDef} (h : regDef b (a % 4096) = some d) (v : Word) :
    after (maskWrite b a v) s = (Upd.ctl a ((((v &&& BitVec.ofNat 32 d.rw) ||| (rd s a &&& ~~~BitVec.ofNat 32 d.rw)) &&&
      ~~~(v &&& BitVec.ofNat 32 d.w1c)) ||| (v &&& BitVec.ofNat 32 d.w1s))).apply s := by
  simp [maskWrite, h]

end Sys2Proof.Machine
end

