-- ==== Sys2Proof/Laws/PerInstr.lean ====
section
/-! SUPPORT. A family of statements about every command as syntax: a well-formed command moves at most 4,096 bytes. One lemma for each
constructor of Instr. -/

namespace Sys2Proof

/-- The bytes that a command reads, writes or carries in its data operands: those of a control-window or Beynex transfer (R27, R460). -/
def Instr.payloadBytes (i : Instr) : Nat :=
  match i with
  | .registerWrite _ _ data => data.length
  | .rcRead _ _ len => len
  | .mpWrite _ _ data => data.length
  | .narrowWrite _ _ _ data => data.length
  | .frameForward _ _ data => data.length
  | .wr _ data => data.length
  | .redFrame _ data => data.length
  | .gat _ data => data.length
  | .mcd _ data => data.length
  | .hcmd _ _ _ _ _ params entries => params.length + 16 * entries.length
  | .hcpl _ _ _ _ _ _ record => record.length
  | .doorbell _ _ data => data.length
  | .bar2Read _ _ len => len
  | .bar2Write _ _ data => data.length
  | .srd _ _ len => len
  | .srdr _ _ _ data => data.length
  | .mwr _ data => data.length
  | .storeDmaCompletion _ _ data => data.length
  | .blkReset _ _ | .blkResetDone _ | .cntClr _ _ _ | .blkFence _ _ _ | .blkFenced _ | .blkIset _ _ _ | .routerForward _ | .ageIncrement _ => 0
  | .localPortArrive _ | .bulkWindowOpen _ | .bulkWindowClose _ | .fabDetourWrite _ _ _ _ | .meshQuiesce _ _ | .meshQuiesced => 0
  | .routerFault _ | .distTableRewrite _ | .coreFence _ | .fenceTimeout _ | .rodRowWrite _ _ _ _ | .seqArm _ _ | .seqResume _ _ => 0
  | .seqStop _ _ | .rloadGo _ _ _ | .rloadDone _ | .rcInval _ _ _ | .coreScrub _ _ | .rowCacheFill _ _ | .nop _ | .next _ _ | .loop _ _ => 0
  | .endl _ _ | .bead _ _ | .alt _ _ | .halt _ _ | .coreHalted _ | .twait _ _ | .twaitc _ _ | .cwait _ _ | .waitRegister _ | .waitRelease _ => 0
  | .waitTimeout _ | .waitCancel _ | .coreFaulted _ | .cmmF _ | .cmmI _ | .cmmW _ | .cmmStep _ | .cubeAccumulate _ | .cubeInj _ _ _ => 0
  | .maskEvaluate _ _ | .dwqEnqueue _ | .dwqStart _ | .tld _ | .tst _ | .tileRow _ _ | .tileTcWrite _ _ _ _ _ | .tcPendingStore _ _ => 0
  | .vld _ | .vst _ | .add _ | .sub _ | .mul _ | .fma _ | .max _ | .min _ | .div _ | .fn _ | .fnd _ | .red _ | .rget _ | .dmsk _ | .msk _ => 0
  | .cvt _ | .cvh _ | .dec _ | .cur _ | .bsc _ | .tcw _ | .movC _ | .movP _ | .moverWord _ _ _ | .moverCopyDone _ _ => 0
  | .movpFencedResponse _ _ | .tset _ | .tclr _ | .cinc _ | .tallyPacketArrive _ | .tallyAck _ | .mirrorUpdate _ | .tlyFlagSet _ _ _ _ => 0
  | .tlyFlagClear _ _ _ _ | .scaleMergeSend _ | .scaleMerge | .scaleEvaluate _ | .ueRingPoll _ _ | .ueDescriptorTake _ _ | .update _ _ => 0
  | .accumulate _ _ | .updateWithAccumulatedGradient _ _ | .groupLoad _ _ | .groupStore _ _ | .advance _ _ | .ueBatch _ _ => 0
  | .ueDescriptorEnd _ _ | .uePloadGo _ _ _ | .uePloadDone _ | .programReplace _ | .ueRingEnable _ _ _ _ _ | .alloc _ _ _ _ _ _ _ => 0
  | .free _ _ _ | .move _ _ _ _ _ | .pin _ _ _ | .unpin _ _ _ | .prot _ _ _ _ | .share _ _ _ _ | .admitHerd _ _ _ | .revoke _ _ _ => 0
  | .pageMove | .pageMoveDone _ | .touchWrite _ | .evict | .migHfloorWrite _ _ _ | .migHpfWrite _ _ _ _ | .prefetchDone _ _ => 0
  | .mpRead _ _ _ _ _ | .mergeHoldExpire _ | .fillDone _ | .patrolScrub _ _ | .mpRemapWrite _ _ _ _ | .testWriteGenerated _ _ => 0
  | .testWriteData _ _ | .testWriteCheck _ _ | .testWriteBoth _ _ | .testReadRaw _ _ | .testReadDecode _ _ | .dumpGo _ _ | .dumpEnd => 0
  | .beadBoundary | .beadRunStart _ _ | .mark _ _ _ _ _ | .markerLost | .beadHoldStart | .beadNextWrite _ _ | .report _ _ _ _ => 0
  | .reportDeadline | .result _ _ _ _ _ | .haltPause _ | .haltFail _ | .haltLinkStop _ | .haltLinkResume _ | .linkAck _ _ | .linkReplay _ _ => 0
  | .linkCredit _ _ | .linkUp _ _ _ | .linkDown _ | .linkRetrain _ _ _ | .mreq _ | .mgnt _ | .multicastSend _ | .mrel _ | .mdone _ => 0
  | .abort _ | .flag _ _ _ | .hresume _ _ | .hcmdTimeout _ | .period _ _ _ | .join _ _ | .mdown _ _ | .memberFailDeclare _ => 0
  | .collectiveTake _ | .reduceScatter _ | .allReduce _ | .allGather _ | .broadcast _ | .reduce _ | .send _ | .multicast _ => 0
  | .collectiveEnd _ _ | .cableInsert _ _ _ _ _ _ _ _ | .cableRemove _ | .completionWrite _ _ | .ringEnable _ _ _ _ | .ringDisable _ _ _ _ => 0
  | .noticeWrite _ | .bar2BaseWrite _ _ _ _ | .bar2Resize _ _ | .nopCommand _ | .herdCreate _ _ | .herdRings _ _ _ | .herdRegw _ _ => 0
  | .herdStart _ _ _ _ | .herdStop _ | .herdResume _ _ | .herdPark _ | .herdUnpark _ _ _ | .herdDestroy _ | .extReg _ _ _ | .extDereg _ _ => 0
  | .progLoad _ _ _ _ | .dump _ _ | .eval _ _ | .evalSwitch _ | .evalRestore _ | .herdFaultTimeout _ | .functionLevelReset _ => 0
  | .vfEnableClear _ | .hostPortReset _ | .perstRelease _ | .snapCfg _ _ | .snapMtbf _ _ _ _ | .snapNow _ | .snapStat _ => 0
  | .snapRestore _ _ _ | .snapFetch _ _ _ _ | .snapOff _ | .ungroupedCopyDone _ | .entryFinal _ _ | .entryCaptured _ _ | .storeTimeout _ => 0
  | .swr _ | .sack _ _ _ | .serr _ _ _ | .mack _ | .scommit _ | .sverified _ | .splan _ | .rdone _ _ | .restoreStart _ | .restoreChunk _ _ => 0
  | .spq _ _ | .sparePoll | .spst _ _ _ | .takeover _ _ _ _ | .tkack _ _ | .filldone _ _ _ | .standdown _ _ | .pwrEnRise | .pwrEnHoldoffEnd => 0
  | .railsGood _ _ _ | .pwrEnFall | .protectionTrip | .thermalTrip _ _ | .inputLow _ | .powerWindowEnd _ _ _ _ | .powerOnReset | .pllLock => 0
  | .pllLockLoss _ | .bankChoose _ _ | .firmwareStart | .channelTrained _ _ | .runEntry _ | .deviceReset | .pageFreeAll | .mgtRstDev _ _ => 0
  | .watchdogKick _ _ | .watchdogExpire | .reset _ | .fence _ _ | .herdFail _ _ | .powerLimit _ _ | .partitionPod _ _ => 0
  | .partitionHostLimits _ _ _ _ _ _ _ | .partitionSpare _ _ _ | .partitionAux _ _ _ | .remapLoad _ _ _ | .sysprogLoad _ _ _ => 0
  | .linkHalt _ _ _ | .openPermission _ | .svnCommit _ | .keyRevoke _ _ | .mgmtDumpStart _ | .mgmtDumpRead _ _ _ _ | .fruRead _ _ => 0
  | .regRead _ _ | .setEndpointId _ | .getEndpointId | .getEndpointUuid | .getMctpVersionSupport _ | .getMessageTypeSupport => 0
  | .getVendorDefinedMessageSupport _ | .getTid | .setTid _ | .getPldmVersion _ | .getPldmTypes | .getPldmCommands _ => 0
  | .getPdrRepositoryInfo | .getPdr _ | .getSensorReading _ | .getStateSensorReadings _ | .setEventReceiver _ _ | .eventMessageSupported => 0
  | .eventMessageBufferSize _ | .pollForPlatformEventMessage | .getFruRecordTableMetadata | .getFruRecordTable _ | .requestUpdate _ => 0
  | .passComponentTable _ _ | .updateComponent _ _ | .requestFirmwareData _ _ | .transferComplete | .verifyComplete | .applyComplete => 0
  | .activateFirmware _ | .getStatus | .cancelUpdate | .getVersion | .getCapabilities | .negotiateAlgorithms | .getDigests => 0
  | .getCertificate _ _ _ | .challenge _ _ | .getMeasurements _ _ _ | .respondIfReady | .getPqSig | .getPqCert | .pqSigReady => 0
  | .eventService _ | .ownerSearchDone | .vuResultWrite _ | .vectorAccessComplete _ _ _ | .waitCancelAnswer _ | .hostLinkUp _ _ _ _ => 0
  | .vfEnableSet _ _ | .pllLockRegain _ | .tempThresholdCross _ _ | .coreHardFault _ => 0

end Sys2Proof

namespace Sys2Proof.Laws.Operands

/-- A well-formed command moves at most 4,096 bytes. -/
def Statement (i : Instr) : Prop := i.wellFormed = true → i.payloadBytes ≤ 4096

/-- A command without data operands moves no byte of them. -/
theorem of_none {i : Instr} (h : i.payloadBytes = 0) : Statement i := fun _ => by rw [h]; exact Nat.zero_le _

/-- Both of two checks hold. -/
theorem both {a b : Bool} (h : (a && b) = true) : a = true ∧ b = true := Bool.and_eq_true_iff.mp h

/-- A list of a fixed length is no longer than that. -/
theorem of_length {α : Type} {l : List α} {n : Nat} (h : hasLength l n = true) (hn : n ≤ 4096) : l.length ≤ 4096 :=
  Nat.le_trans (Nat.le_of_eq (of_decide_eq_true h)) hn

theorem registerWrite (r : Requester) (off : BitVec 28) (data : List (Option Byte)) : Statement (.registerWrite r off data) := fun h => of_decide_eq_true (both h).2
theorem rcRead (r : Requester) (off : BitVec 28) (len : Nat) : Statement (.rcRead r off len) := fun h => of_decide_eq_true (both h).2
theorem blkReset (r : Requester) (p : PageNo) : Statement (.blkReset r p) := of_none rfl
theorem blkResetDone (p : PageNo) : Statement (.blkResetDone p) := of_none rfl
theorem cntClr (r : Requester) (p : PageNo) (v : Word) : Statement (.cntClr r p v) := of_none rfl
theorem blkFence (r : Requester) (p : PageNo) (v : Word) : Statement (.blkFence r p v) := of_none rfl
theorem blkFenced (p : PageNo) : Statement (.blkFenced p) := of_none rfl
theorem blkIset (r : Requester) (p : PageNo) (v : Word) : Statement (.blkIset r p v) := of_none rfl
theorem routerForward (i : Nat) : Statement (.routerForward i) := of_none rfl
theorem ageIncrement (i : Nat) : Statement (.ageIncrement i) := of_none rfl
theorem localPortArrive (i : Nat) : Statement (.localPortArrive i) := of_none rfl
theorem bulkWindowOpen (n : Fin 4) : Statement (.bulkWindowOpen n) := of_none rfl
theorem bulkWindowClose (n : Fin 4) : Statement (.bulkWindowClose n) := of_none rfl
theorem fabDetourWrite (r : Requester) (s : Site) (n : Fin 32) (v : Word) : Statement (.fabDetourWrite r s n v) := of_none rfl
theorem meshQuiesce (r : Requester) (v : Word) : Statement (.meshQuiesce r v) := of_none rfl
theorem meshQuiesced : Statement (.meshQuiesced) := of_none rfl
theorem routerFault (s : Site) : Statement (.routerFault s) := of_none rfl
theorem distTableRewrite (done : Bool) : Statement (.distTableRewrite done) := of_none rfl
theorem coreFence (s : Site) : Statement (.coreFence s) := of_none rfl
theorem fenceTimeout (s : Site) : Statement (.fenceTimeout s) := of_none rfl
theorem rodRowWrite (r : Requester) (s : Site) (w : Fin 8192) (v : Word) : Statement (.rodRowWrite r s w v) := of_none rfl
theorem seqArm (r : Requester) (s : Site) : Statement (.seqArm r s) := of_none rfl
theorem seqResume (r : Requester) (s : Site) : Statement (.seqResume r s) := of_none rfl
theorem seqStop (r : Requester) (s : Site) : Statement (.seqStop r s) := of_none rfl
theorem rloadGo (r : Requester) (s : Site) (v : Word) : Statement (.rloadGo r s v) := of_none rfl
theorem rloadDone (s : Site) : Statement (.rloadDone s) := of_none rfl
theorem rcInval (r : Requester) (s : Site) (v : Word) : Statement (.rcInval r s v) := of_none rfl
theorem coreScrub (s : Site) (found : List Cell) : Statement (.coreScrub s found) := of_none rfl
theorem rowCacheFill (s : Site) (line : Nat) : Statement (.rowCacheFill s line) := of_none rfl
theorem nop (s : Site) : Statement (.nop s) := of_none rfl
theorem next (s : Site) (row : Cell) : Statement (.next s row) := of_none rfl
theorem loop (s : Site) (row : Cell) : Statement (.loop s row) := of_none rfl
theorem endl (s : Site) (row : Cell) : Statement (.endl s row) := of_none rfl
theorem bead (s : Site) (row : Cell) : Statement (.bead s row) := of_none rfl
theorem alt (s : Site) (row : Cell) : Statement (.alt s row) := of_none rfl
theorem halt (s : Site) (row : Cell) : Statement (.halt s row) := of_none rfl
theorem coreHalted (s : Site) : Statement (.coreHalted s) := of_none rfl
theorem twait (s : Site) (row : Cell) : Statement (.twait s row) := of_none rfl
theorem twaitc (s : Site) (row : Cell) : Statement (.twaitc s row) := of_none rfl
theorem cwait (s : Site) (row : Cell) : Statement (.cwait s row) := of_none rfl
theorem waitRegister (s : Site) : Statement (.waitRegister s) := of_none rfl
theorem waitRelease (s : Site) : Statement (.waitRelease s) := of_none rfl
theorem waitTimeout (s : Site) : Statement (.waitTimeout s) := of_none rfl
theorem waitCancel (s : Site) : Statement (.waitCancel s) := of_none rfl
theorem coreFaulted (s : Site) : Statement (.coreFaulted s) := of_none rfl
theorem cmmF (s : Site) : Statement (.cmmF s) := of_none rfl
theorem cmmI (s : Site) : Statement (.cmmI s) := of_none rfl
theorem cmmW (s : Site) : Statement (.cmmW s) := of_none rfl
theorem cmmStep (s : Site) : Statement (.cmmStep s) := of_none rfl
theorem cubeAccumulate (s : Site) : Statement (.cubeAccumulate s) := of_none rfl
theorem cubeInj (r : Requester) (s : Site) (v : Word) : Statement (.cubeInj r s v) := of_none rfl
theorem maskEvaluate (s : Site) (found : List Cell) : Statement (.maskEvaluate s found) := of_none rfl
theorem dwqEnqueue (s : Site) : Statement (.dwqEnqueue s) := of_none rfl
theorem dwqStart (s : Site) : Statement (.dwqStart s) := of_none rfl
theorem tld (s : Site) : Statement (.tld s) := of_none rfl
theorem tst (s : Site) : Statement (.tst s) := of_none rfl
theorem tileRow (s : Site) (found : List Cell) : Statement (.tileRow s found) := of_none rfl
theorem tileTcWrite (r : Requester) (s : Site) (n : Fin 8) (lo hi : Option Word) : Statement (.tileTcWrite r s n lo hi) := of_none rfl
theorem tcPendingStore (s : Site) (n : Fin 8) : Statement (.tcPendingStore s n) := of_none rfl
theorem vld (s : Site) : Statement (.vld s) := of_none rfl
theorem vst (s : Site) : Statement (.vst s) := of_none rfl
theorem add (s : Site) : Statement (.add s) := of_none rfl
theorem sub (s : Site) : Statement (.sub s) := of_none rfl
theorem mul (s : Site) : Statement (.mul s) := of_none rfl
theorem fma (s : Site) : Statement (.fma s) := of_none rfl
theorem max (s : Site) : Statement (.max s) := of_none rfl
theorem min (s : Site) : Statement (.min s) := of_none rfl
theorem div (s : Site) : Statement (.div s) := of_none rfl
theorem fn (s : Site) : Statement (.fn s) := of_none rfl
theorem fnd (s : Site) : Statement (.fnd s) := of_none rfl
theorem red (s : Site) : Statement (.red s) := of_none rfl
theorem rget (s : Site) : Statement (.rget s) := of_none rfl
theorem dmsk (s : Site) : Statement (.dmsk s) := of_none rfl
theorem msk (s : Site) : Statement (.msk s) := of_none rfl
theorem cvt (s : Site) : Statement (.cvt s) := of_none rfl
theorem cvh (s : Site) : Statement (.cvh s) := of_none rfl
theorem dec (s : Site) : Statement (.dec s) := of_none rfl
theorem cur (s : Site) : Statement (.cur s) := of_none rfl
theorem bsc (s : Site) : Statement (.bsc s) := of_none rfl
theorem tcw (s : Site) : Statement (.tcw s) := of_none rfl
theorem movC (s : Site) : Statement (.movC s) := of_none rfl
theorem movP (s : Site) : Statement (.movP s) := of_none rfl
theorem moverWord (s : Site) (ch : Fin 2) (found : Cell) : Statement (.moverWord s ch found) := of_none rfl
theorem moverCopyDone (s : Site) (ch : Fin 2) : Statement (.moverCopyDone s ch) := of_none rfl
theorem movpFencedResponse (s : Site) (ch : Fin 2) : Statement (.movpFencedResponse s ch) := of_none rfl
theorem tset (s : Site) : Statement (.tset s) := of_none rfl
theorem tclr (s : Site) : Statement (.tclr s) := of_none rfl
theorem cinc (s : Site) : Statement (.cinc s) := of_none rfl
theorem tallyPacketArrive (s : Site) : Statement (.tallyPacketArrive s) := of_none rfl
theorem tallyAck (s : Site) : Statement (.tallyAck s) := of_none rfl
theorem mirrorUpdate (s : Site) : Statement (.mirrorUpdate s) := of_none rfl
theorem tlyFlagSet (r : Requester) (s : Site) (k : Fin 8) (v : Word) : Statement (.tlyFlagSet r s k v) := of_none rfl
theorem tlyFlagClear (r : Requester) (s : Site) (k : Fin 8) (v : Word) : Statement (.tlyFlagClear r s k v) := of_none rfl
theorem scaleMergeSend (s : Site) : Statement (.scaleMergeSend s) := of_none rfl
theorem scaleMerge : Statement (.scaleMerge) := of_none rfl
theorem scaleEvaluate (n : PortNo) : Statement (.scaleEvaluate n) := of_none rfl
theorem ueRingPoll (n : PortNo) (h : HerdNo) : Statement (.ueRingPoll n h) := of_none rfl
theorem ueDescriptorTake (n : PortNo) (h : HerdNo) : Statement (.ueDescriptorTake n h) := of_none rfl
theorem update (n : PortNo) (h : HerdNo) : Statement (.update n h) := of_none rfl
theorem accumulate (n : PortNo) (h : HerdNo) : Statement (.accumulate n h) := of_none rfl
theorem updateWithAccumulatedGradient (n : PortNo) (h : HerdNo) : Statement (.updateWithAccumulatedGradient n h) := of_none rfl
theorem groupLoad (n : PortNo) (h : HerdNo) : Statement (.groupLoad n h) := of_none rfl
theorem groupStore (n : PortNo) (h : HerdNo) : Statement (.groupStore n h) := of_none rfl
theorem advance (n : PortNo) (h : HerdNo) : Statement (.advance n h) := of_none rfl
theorem ueBatch (n : PortNo) (h : HerdNo) : Statement (.ueBatch n h) := of_none rfl
theorem ueDescriptorEnd (n : PortNo) (h : HerdNo) : Statement (.ueDescriptorEnd n h) := of_none rfl
theorem uePloadGo (r : Requester) (n : PortNo) (v : Word) : Statement (.uePloadGo r n v) := of_none rfl
theorem uePloadDone (n : PortNo) : Statement (.uePloadDone n) := of_none rfl
theorem programReplace (n : PortNo) : Statement (.programReplace n) := of_none rfl
theorem ueRingEnable (r : Requester) (bx : Bool) (n : PortNo) (h : HerdNo) (v : Word) : Statement (.ueRingEnable r bx n h v) := of_none rfl
theorem alloc (c : CmdId) (page n : Nat) (dest : Fin 4) (port : Nat) (wr pinned : Bool) : Statement (.alloc c page n dest port wr pinned) := of_none rfl
theorem free (c : CmdId) (page n : Nat) : Statement (.free c page n) := of_none rfl
theorem move (c : CmdId) (page n : Nat) (dest : Fin 4) (port : Nat) : Statement (.move c page n dest port) := of_none rfl
theorem pin (c : CmdId) (page n : Nat) : Statement (.pin c page n) := of_none rfl
theorem unpin (c : CmdId) (page n : Nat) : Statement (.unpin c page n) := of_none rfl
theorem prot (c : CmdId) (page n : Nat) (wr : Bool) : Statement (.prot c page n wr) := of_none rfl
theorem share (c : CmdId) (page n : Nat) (set : BitVec 8) : Statement (.share c page n set) := of_none rfl
theorem admitHerd (c : CmdId) (set : BitVec 8) (herd : HerdNo) : Statement (.admitHerd c set herd) := of_none rfl
theorem revoke (c : CmdId) (set : BitVec 8) (herd : HerdNo) : Statement (.revoke c set herd) := of_none rfl
theorem pageMove : Statement (.pageMove) := of_none rfl
theorem pageMoveDone (page : Nat) : Statement (.pageMoveDone page) := of_none rfl
theorem touchWrite (page : Nat) : Statement (.touchWrite page) := of_none rfl
theorem evict : Statement (.evict) := of_none rfl
theorem migHfloorWrite (r : Requester) (h : HerdNo) (v : Word) : Statement (.migHfloorWrite r h v) := of_none rfl
theorem migHpfWrite (r : Requester) (h : HerdNo) (w : Fin 3) (v : Word) : Statement (.migHpfWrite r h w v) := of_none rfl
theorem prefetchDone (h : HerdNo) (entry : Nat) : Statement (.prefetchDone h entry) := of_none rfl
theorem mpRead (n : PortNo) (lblock : Nat) (src : Fin 8) (herd : Option HerdNo) (noise : List (Nat × Byte)) : Statement (.mpRead n lblock src herd noise) := of_none rfl
theorem mpWrite (n : PortNo) (lblock : Nat) (data : List Byte) : Statement (.mpWrite n lblock data) := fun h => of_length (both h).2 (by decide)
theorem narrowWrite (n : PortNo) (lblock : Nat) (herd : HerdNo) (data : List (Option Byte)) : Statement (.narrowWrite n lblock herd data) := fun h => of_length (both h).2 (by decide)
theorem mergeHoldExpire (n : PortNo) : Statement (.mergeHoldExpire n) := of_none rfl
theorem fillDone (n : PortNo) : Statement (.fillDone n) := of_none rfl
theorem patrolScrub (n : PortNo) (noise : List (Nat × Byte)) : Statement (.patrolScrub n noise) := of_none rfl
theorem mpRemapWrite (r : Requester) (n : PortNo) (e : Fin 64) (v : Word) : Statement (.mpRemapWrite r n e v) := of_none rfl
theorem testWriteGenerated (r : Requester) (n : PortNo) : Statement (.testWriteGenerated r n) := of_none rfl
theorem testWriteData (r : Requester) (n : PortNo) : Statement (.testWriteData r n) := of_none rfl
theorem testWriteCheck (r : Requester) (n : PortNo) : Statement (.testWriteCheck r n) := of_none rfl
theorem testWriteBoth (r : Requester) (n : PortNo) : Statement (.testWriteBoth r n) := of_none rfl
theorem testReadRaw (r : Requester) (n : PortNo) : Statement (.testReadRaw r n) := of_none rfl
theorem testReadDecode (r : Requester) (n : PortNo) : Statement (.testReadDecode r n) := of_none rfl
theorem dumpGo (r : Requester) (v : Word) : Statement (.dumpGo r v) := of_none rfl
theorem dumpEnd : Statement (.dumpEnd) := of_none rfl
theorem beadBoundary : Statement (.beadBoundary) := of_none rfl
theorem beadRunStart (r : Requester) (v : Word) : Statement (.beadRunStart r v) := of_none rfl
theorem mark (port : SymPort) (bead : BitVec 16) (lag : BitVec 16) (late : Bool) (measured : Option Nat) : Statement (.mark port bead lag late measured) := of_none rfl
theorem markerLost : Statement (.markerLost) := of_none rfl
theorem beadHoldStart : Statement (.beadHoldStart) := of_none rfl
theorem beadNextWrite (r : Requester) (v : Word) : Statement (.beadNextWrite r v) := of_none rfl
theorem report (port : SymPort) (bead : BitVec 16) (slip : Bool) (votes : DWord) : Statement (.report port bead slip votes) := of_none rfl
theorem reportDeadline : Statement (.reportDeadline) := of_none rfl
theorem result (port : SymPort) (bead : BitVec 16) (slip missing : Bool) (votes : DWord) : Statement (.result port bead slip missing votes) := of_none rfl
theorem haltPause (h : HaltSym) : Statement (.haltPause h) := of_none rfl
theorem haltFail (h : HaltSym) : Statement (.haltFail h) := of_none rfl
theorem haltLinkStop (h : HaltSym) : Statement (.haltLinkStop h) := of_none rfl
theorem haltLinkResume (h : HaltSym) : Statement (.haltLinkResume h) := of_none rfl
theorem linkAck (p : SymPort) (lseq : BitVec 16) : Statement (.linkAck p lseq) := of_none rfl
theorem linkReplay (p : SymPort) (lseq : BitVec 16) : Statement (.linkReplay p lseq) := of_none rfl
theorem linkCredit (p : SymPort) (credits : List Nat) : Statement (.linkCredit p credits) := of_none rfl
theorem linkUp (p : BxNo) (partner : Word) (delayNs : BitVec 16) : Statement (.linkUp p partner delayNs) := of_none rfl
theorem linkDown (p : BxNo) : Statement (.linkDown p) := of_none rfl
theorem linkRetrain (r : Requester) (p : BxNo) (v : Word) : Statement (.linkRetrain r p v) := of_none rfl
theorem frameForward (f : FrameHdr) (type : BitVec 8) (data : List Byte) : Statement (.frameForward f type data) := fun h => of_decide_eq_true h
theorem wr (f : FrameHdr) (data : List Byte) : Statement (.wr f data) := fun h => of_decide_eq_true h
theorem redFrame (f : FrameHdr) (data : List Byte) : Statement (.redFrame f data) := fun h => of_decide_eq_true h
theorem gat (f : FrameHdr) (data : List Byte) : Statement (.gat f data) := fun h => of_decide_eq_true h
theorem mcd (f : FrameHdr) (data : List Byte) : Statement (.mcd f data) := fun h => of_decide_eq_true h
theorem mreq (f : McRequest) : Statement (.mreq f) := of_none rfl
theorem mgnt (f : FrameHdr) : Statement (.mgnt f) := of_none rfl
theorem multicastSend (h : HerdNo) : Statement (.multicastSend h) := of_none rfl
theorem mrel (f : FrameHdr) : Statement (.mrel f) := of_none rfl
theorem mdone (f : FrameHdr) : Statement (.mdone f) := of_none rfl
theorem abort (f : FrameHdr) : Statement (.abort f) := of_none rfl
theorem flag (f : FrameHdr) (index : BitVec 8) (set : Bool) : Statement (.flag f index set) := of_none rfl
theorem hresume (f : FrameHdr) (startBead : DWord) : Statement (.hresume f startBead) := of_none rfl
theorem hcmd (f : FrameHdr) (htag : BitVec 16) (part : BitVec 8) (last : Bool) (opcode : BitVec 8) (params : List Byte) (entries : List RegwEntry) : Statement (.hcmd f htag part last opcode params entries) := fun h => by
  have a : params.length = 56 := of_decide_eq_true (both (both h).1).1
  have b : entries.length ≤ 9 := of_decide_eq_true (both (both h).1).2
  show params.length + 16 * entries.length ≤ 4096
  omega
theorem hcpl (f : FrameHdr) (htag : BitVec 16) (status part : BitVec 8) (count : Word) (result : DWord) (record : List Byte) : Statement (.hcpl f htag status part count result record) := fun h => of_length h (by split <;> decide)
theorem hcmdTimeout (htag : BitVec 16) : Statement (.hcmdTimeout htag) := of_none rfl
theorem period (f : FrameHdr) (value : Nat) (atBead : DWord) : Statement (.period f value atBead) := of_none rfl
theorem join (f : FrameHdr) (bead : DWord) : Statement (.join f bead) := of_none rfl
theorem mdown (f : FrameHdr) (pos : BitVec 6) : Statement (.mdown f pos) := of_none rfl
theorem memberFailDeclare (pos : BitVec 6) : Statement (.memberFailDeclare pos) := of_none rfl
theorem collectiveTake (h : HerdNo) : Statement (.collectiveTake h) := of_none rfl
theorem reduceScatter (h : HerdNo) : Statement (.reduceScatter h) := of_none rfl
theorem allReduce (h : HerdNo) : Statement (.allReduce h) := of_none rfl
theorem allGather (h : HerdNo) : Statement (.allGather h) := of_none rfl
theorem broadcast (h : HerdNo) : Statement (.broadcast h) := of_none rfl
theorem reduce (h : HerdNo) : Statement (.reduce h) := of_none rfl
theorem send (h : HerdNo) : Statement (.send h) := of_none rfl
theorem multicast (h : HerdNo) : Statement (.multicast h) := of_none rfl
theorem collectiveEnd (h : HerdNo) (status : BitVec 8) : Statement (.collectiveEnd h status) := of_none rfl
theorem cableInsert (p : BxNo) (ident media length : Byte) (readOk : Bool) (vendor part serial : List Byte) : Statement (.cableInsert p ident media length readOk vendor part serial) := of_none rfl
theorem cableRemove (p : BxNo) : Statement (.cableRemove p) := of_none rfl
theorem doorbell (f : FnNo) (off : BitVec 16) (data : List (Option Byte)) : Statement (.doorbell f off data) := fun h => of_decide_eq_true (both h).2
theorem completionWrite (f : FnNo) (ring : Fin 16) : Statement (.completionWrite f ring) := of_none rfl
theorem ringEnable (r : Requester) (f : FnNo) (ring : Option (Fin 16)) (v : Word) : Statement (.ringEnable r f ring v) := of_none rfl
theorem ringDisable (r : Requester) (f : FnNo) (ring : Option (Fin 16)) (v : Word) : Statement (.ringDisable r f ring v) := of_none rfl
theorem noticeWrite (f : FnNo) : Statement (.noticeWrite f) := of_none rfl
theorem bar2BaseWrite (r : Requester) (f : FnNo) (lo hi : Option Word) : Statement (.bar2BaseWrite r f lo hi) := of_none rfl
theorem bar2Resize (f : FnNo) (log2 : Nat) : Statement (.bar2Resize f log2) := of_none rfl
theorem bar2Read (f : FnNo) (off : Nat) (len : Nat) : Statement (.bar2Read f off len) := fun h => of_decide_eq_true (both h).2
theorem bar2Write (f : FnNo) (off : Nat) (data : List (Option Byte)) : Statement (.bar2Write f off data) := fun h => of_decide_eq_true (both h).2
theorem nopCommand (c : CmdId) : Statement (.nopCommand c) := of_none rfl
theorem herdCreate (c : CmdId) (p : HerdParams) : Statement (.herdCreate c p) := of_none rfl
theorem herdRings (c : CmdId) (area : DWord) (lsize : Nat) : Statement (.herdRings c area lsize) := of_none rfl
theorem herdRegw (c : CmdId) (list : List RegwEntry) : Statement (.herdRegw c list) := of_none rfl
theorem herdStart (c : CmdId) (ahead : Nat) (setidx : Bool) (stepidx : DWord) : Statement (.herdStart c ahead setidx stepidx) := of_none rfl
theorem herdStop (c : CmdId) : Statement (.herdStop c) := of_none rfl
theorem herdResume (c : CmdId) (ahead : Nat) : Statement (.herdResume c ahead) := of_none rfl
theorem herdPark (c : CmdId) : Statement (.herdPark c) := of_none rfl
theorem herdUnpark (c : CmdId) (ncores : Nat) (qmask : BitVec 4) : Statement (.herdUnpark c ncores qmask) := of_none rfl
theorem herdDestroy (c : CmdId) : Statement (.herdDestroy c) := of_none rfl
theorem extReg (c : CmdId) (base : DWord) (pages : Nat) : Statement (.extReg c base pages) := of_none rfl
theorem extDereg (c : CmdId) (extent : BitVec 8) : Statement (.extDereg c extent) := of_none rfl
theorem progLoad (c : CmdId) (image : DWord) (first count : Nat) : Statement (.progLoad c image first count) := of_none rfl
theorem dump (c : CmdId) (dest : DWord) : Statement (.dump c dest) := of_none rfl
theorem eval (c : CmdId) (p : EvalParams) : Statement (.eval c p) := of_none rfl
theorem evalSwitch (h : HerdNo) : Statement (.evalSwitch h) := of_none rfl
theorem evalRestore (h : HerdNo) : Statement (.evalRestore h) := of_none rfl
theorem herdFaultTimeout (h : HerdNo) : Statement (.herdFaultTimeout h) := of_none rfl
theorem functionLevelReset (f : FnNo) : Statement (.functionLevelReset f) := of_none rfl
theorem vfEnableClear (k : HpNo) : Statement (.vfEnableClear k) := of_none rfl
theorem hostPortReset (k : HpNo) : Statement (.hostPortReset k) := of_none rfl
theorem perstRelease (k : HpNo) : Statement (.perstRelease k) := of_none rfl
theorem snapCfg (c : CmdId) (p : SnapParams) : Statement (.snapCfg c p) := of_none rfl
theorem snapMtbf (c : CmdId) (mf : Word) (w : Byte) (resetObs : Bool) : Statement (.snapMtbf c mf w resetObs) := of_none rfl
theorem snapNow (c : CmdId) : Statement (.snapNow c) := of_none rfl
theorem snapStat (c : CmdId) : Statement (.snapStat c) := of_none rfl
theorem snapRestore (c : CmdId) (base : DWord) (slot : Fin 2) : Statement (.snapRestore c base slot) := of_none rfl
theorem snapFetch (c : CmdId) (store : DWord) (dest : DWord) (bytes : Nat) : Statement (.snapFetch c store dest bytes) := of_none rfl
theorem snapOff (c : CmdId) : Statement (.snapOff c) := of_none rfl
theorem ungroupedCopyDone (h : HerdNo) : Statement (.ungroupedCopyDone h) := of_none rfl
theorem entryFinal (h : HerdNo) (e : Nat) : Statement (.entryFinal h e) := of_none rfl
theorem entryCaptured (h : HerdNo) (e : Nat) : Statement (.entryCaptured h e) := of_none rfl
theorem storeTimeout (h : HerdNo) : Statement (.storeTimeout h) := of_none rfl
theorem swr (h : HerdNo) : Statement (.swr h) := of_none rfl
theorem sack (p : BxNo) (h : HerdNo) (addr : DWord) : Statement (.sack p h addr) := of_none rfl
theorem srd (h : HerdNo) (addr : DWord) (len : Nat) : Statement (.srd h addr len) := fun h => of_decide_eq_true (both h).2
theorem srdr (p : BxNo) (h : HerdNo) (addr : DWord) (data : List Byte) : Statement (.srdr p h addr data) := fun h => of_decide_eq_true h
theorem serr (p : BxNo) (h : HerdNo) (addr : DWord) : Statement (.serr p h addr) := of_none rfl
theorem mwr (f : FrameHdr) (data : List Byte) : Statement (.mwr f data) := fun h => of_decide_eq_true h
theorem mack (f : FrameHdr) : Statement (.mack f) := of_none rfl
theorem scommit (f : FrameHdr) : Statement (.scommit f) := of_none rfl
theorem sverified (f : FrameHdr) : Statement (.sverified f) := of_none rfl
theorem splan (f : FrameHdr) : Statement (.splan f) := of_none rfl
theorem rdone (f : FrameHdr) (status : Byte) : Statement (.rdone f status) := of_none rfl
theorem restoreStart (h : HerdNo) : Statement (.restoreStart h) := of_none rfl
theorem restoreChunk (h : HerdNo) (record : List Byte) : Statement (.restoreChunk h record) := of_none rfl
theorem spq (p : BxNo) (addr : DWord) : Statement (.spq p addr) := of_none rfl
theorem sparePoll : Statement (.sparePoll) := of_none rfl
theorem spst (p : BxNo) (spare : Fin 4) (state : Byte) : Statement (.spst p spare state) := of_none rfl
theorem takeover (p : BxNo) (addr : DWord) (cfg : PodParams) (herds : List TakeHerd) : Statement (.takeover p addr cfg herds) := of_none rfl
theorem tkack (p : BxNo) (spare : Fin 4) : Statement (.tkack p spare) := of_none rfl
theorem filldone (p : BxNo) (spare : Fin 4) (ok : Bool) : Statement (.filldone p spare ok) := of_none rfl
theorem standdown (p : BxNo) (addr : DWord) : Statement (.standdown p addr) := of_none rfl
theorem pwrEnRise : Statement (.pwrEnRise) := of_none rfl
theorem pwrEnHoldoffEnd : Statement (.pwrEnHoldoffEnd) := of_none rfl
theorem railsGood (hpSplit : BitVec 2) (inlineDisN : Bool) (slotId : BitVec 3) : Statement (.railsGood hpSplit inlineDisN slotId) := of_none rfl
theorem pwrEnFall : Statement (.pwrEnFall) := of_none rfl
theorem protectionTrip : Statement (.protectionTrip) := of_none rfl
theorem thermalTrip (sensor : Fin 5) (temp : BitVec 16) : Statement (.thermalTrip sensor temp) := of_none rfl
theorem inputLow (vin : BitVec 16) : Statement (.inputLow vin) := of_none rfl
theorem powerWindowEnd (avg peak : Nat) (vin iin : BitVec 16) : Statement (.powerWindowEnd avg peak vin iin) := of_none rfl
theorem powerOnReset : Statement (.powerOnReset) := of_none rfl
theorem pllLock : Statement (.pllLock) := of_none rfl
theorem pllLockLoss (cr : Fin 5) : Statement (.pllLockLoss cr) := of_none rfl
theorem bankChoose (readA readB : Bool) : Statement (.bankChoose readA readB) := of_none rfl
theorem firmwareStart : Statement (.firmwareStart) := of_none rfl
theorem channelTrained (n : PortNo) (ch : Fin 8) : Statement (.channelTrained n ch) := of_none rfl
theorem runEntry (fru : Option (List Byte)) : Statement (.runEntry fru) := of_none rfl
theorem deviceReset : Statement (.deviceReset) := of_none rfl
theorem pageFreeAll : Statement (.pageFreeAll) := of_none rfl
theorem mgtRstDev (r : Requester) (v : Word) : Statement (.mgtRstDev r v) := of_none rfl
theorem watchdogKick (r : Requester) (v : Word) : Statement (.watchdogKick r v) := of_none rfl
theorem watchdogExpire : Statement (.watchdogExpire) := of_none rfl
theorem reset (t : MTag) : Statement (.reset t) := of_none rfl
theorem fence (t : MTag) (s : Site) : Statement (.fence t s) := of_none rfl
theorem herdFail (t : MTag) (h : HerdNo) : Statement (.herdFail t h) := of_none rfl
theorem powerLimit (t : MTag) (watts : BitVec 12) : Statement (.powerLimit t watts) := of_none rfl
theorem partitionPod (t : MTag) (p : PodParams) : Statement (.partitionPod t p) := of_none rfl
theorem partitionHostLimits (t : MTag) (k : HpNo) (cores frames groups herds seq : Nat) : Statement (.partitionHostLimits t k cores frames groups herds seq) := of_none rfl
theorem partitionSpare (t : MTag) (podId : BitVec 16) (index : BitVec 2) : Statement (.partitionSpare t podId index) := of_none rfl
theorem partitionAux (t : MTag) (a b : Bool) : Statement (.partitionAux t a b) := of_none rfl
theorem remapLoad (t : MTag) (n : PortNo) (blocks : List Nat) : Statement (.remapLoad t n blocks) := of_none rfl
theorem sysprogLoad (t : MTag) (first : Nat) (programs : List (List Word)) : Statement (.sysprogLoad t first programs) := of_none rfl
theorem linkHalt (t : MTag) (action : Nat) (h : HerdNo) : Statement (.linkHalt t action h) := of_none rfl
theorem openPermission (t : MTag) : Statement (.openPermission t) := of_none rfl
theorem svnCommit (t : MTag) : Statement (.svnCommit t) := of_none rfl
theorem keyRevoke (t : MTag) (slot : Nat) : Statement (.keyRevoke t slot) := of_none rfl
theorem mgmtDumpStart (t : MTag) : Statement (.mgmtDumpStart t) := of_none rfl
theorem mgmtDumpRead (t : MTag) (slot : Fin 4) (offset len : Nat) : Statement (.mgmtDumpRead t slot offset len) := of_none rfl
theorem fruRead (t : MTag) (fru : Option (List Byte)) : Statement (.fruRead t fru) := of_none rfl
theorem regRead (t : MTag) (off : BitVec 28) : Statement (.regRead t off) := of_none rfl
theorem setEndpointId (eid : Byte) : Statement (.setEndpointId eid) := of_none rfl
theorem getEndpointId : Statement (.getEndpointId) := of_none rfl
theorem getEndpointUuid : Statement (.getEndpointUuid) := of_none rfl
theorem getMctpVersionSupport (type : Byte) : Statement (.getMctpVersionSupport type) := of_none rfl
theorem getMessageTypeSupport : Statement (.getMessageTypeSupport) := of_none rfl
theorem getVendorDefinedMessageSupport (selector : Byte) : Statement (.getVendorDefinedMessageSupport selector) := of_none rfl
theorem getTid : Statement (.getTid) := of_none rfl
theorem setTid (tid : Byte) : Statement (.setTid tid) := of_none rfl
theorem getPldmVersion (type : Byte) : Statement (.getPldmVersion type) := of_none rfl
theorem getPldmTypes : Statement (.getPldmTypes) := of_none rfl
theorem getPldmCommands (type : Byte) : Statement (.getPldmCommands type) := of_none rfl
theorem getPdrRepositoryInfo : Statement (.getPdrRepositoryInfo) := of_none rfl
theorem getPdr (record : Nat) : Statement (.getPdr record) := of_none rfl
theorem getSensorReading (sensor : Nat) : Statement (.getSensorReading sensor) := of_none rfl
theorem getStateSensorReadings (sensor : Nat) : Statement (.getStateSensorReadings sensor) := of_none rfl
theorem setEventReceiver (enable : Byte) (receiver : Byte) : Statement (.setEventReceiver enable receiver) := of_none rfl
theorem eventMessageSupported : Statement (.eventMessageSupported) := of_none rfl
theorem eventMessageBufferSize (size : Nat) : Statement (.eventMessageBufferSize size) := of_none rfl
theorem pollForPlatformEventMessage : Statement (.pollForPlatformEventMessage) := of_none rfl
theorem getFruRecordTableMetadata : Statement (.getFruRecordTableMetadata) := of_none rfl
theorem getFruRecordTable (handle : Nat) : Statement (.getFruRecordTable handle) := of_none rfl
theorem requestUpdate (size : Nat) : Statement (.requestUpdate size) := of_none rfl
theorem passComponentTable (component : Nat) (version : Word) : Statement (.passComponentTable component version) := of_none rfl
theorem updateComponent (component : Nat) (version : Word) : Statement (.updateComponent component version) := of_none rfl
theorem requestFirmwareData (offset : Nat) (data : List Byte) : Statement (.requestFirmwareData offset data) := of_none rfl
theorem transferComplete : Statement (.transferComplete) := of_none rfl
theorem verifyComplete : Statement (.verifyComplete) := of_none rfl
theorem applyComplete : Statement (.applyComplete) := of_none rfl
theorem activateFirmware (selfContained : Bool) : Statement (.activateFirmware selfContained) := of_none rfl
theorem getStatus : Statement (.getStatus) := of_none rfl
theorem cancelUpdate : Statement (.cancelUpdate) := of_none rfl
theorem getVersion : Statement (.getVersion) := of_none rfl
theorem getCapabilities : Statement (.getCapabilities) := of_none rfl
theorem negotiateAlgorithms : Statement (.negotiateAlgorithms) := of_none rfl
theorem getDigests : Statement (.getDigests) := of_none rfl
theorem getCertificate (slot : Nat) (offset len : Nat) : Statement (.getCertificate slot offset len) := of_none rfl
theorem challenge (slot : Nat) (nonce : List Byte) : Statement (.challenge slot nonce) := of_none rfl
theorem getMeasurements (index : Nat) (sign : Bool) (nonce : List Byte) : Statement (.getMeasurements index sign nonce) := of_none rfl
theorem respondIfReady : Statement (.respondIfReady) := of_none rfl
theorem getPqSig : Statement (.getPqSig) := of_none rfl
theorem getPqCert : Statement (.getPqCert) := of_none rfl
theorem pqSigReady : Statement (.pqSigReady) := of_none rfl
theorem eventService (p : PageNo) : Statement (.eventService p) := of_none rfl
theorem ownerSearchDone : Statement (.ownerSearchDone) := of_none rfl
theorem vuResultWrite (s : Site) : Statement (.vuResultWrite s) := of_none rfl
theorem vectorAccessComplete (s : Site) (i : Nat) (found : List Cell) : Statement (.vectorAccessComplete s i found) := of_none rfl
theorem waitCancelAnswer (s : Site) : Statement (.waitCancelAnswer s) := of_none rfl
theorem hostLinkUp (k : HpNo) (width : Nat) (speed : BitVec 3) (flit : Bool) : Statement (.hostLinkUp k width speed flit) := of_none rfl
theorem vfEnableSet (k : HpNo) (numVfs : Nat) : Statement (.vfEnableSet k numVfs) := of_none rfl
theorem pllLockRegain (cr : Fin 5) : Statement (.pllLockRegain cr) := of_none rfl
theorem tempThresholdCross (sensor : Fin 5) (temp : BitVec 16) : Statement (.tempThresholdCross sensor temp) := of_none rfl
theorem storeDmaCompletion (h : HerdNo) (addr : DWord) (data : List Byte) : Statement (.storeDmaCompletion h addr data) := fun h => of_decide_eq_true h
theorem coreHardFault (s : Site) : Statement (.coreHardFault s) := of_none rfl

end Sys2Proof.Laws.Operands
end

