-- ==== Sys2Proof/Machine/Submission.lean ====
section
/-! DEFINITION. The 64-byte entries of a submission ring (R512): the command that an entry spells, by its opcode and parameters (R514, R570). What an entry names in host memory, a HERD_REGW list, comes with it. -/

namespace Sys2Proof.Machine

/-- The bit ranges, from the entry's bit 0, that the parameters of an opcode name (R514, R528, R570); none for a reserved opcode. -/
def namedBits (op : Nat) : Option (List (Nat × Nat)) :=
  let f (byte hi lo : Nat) : Nat × Nat := (8 * byte + lo, hi + 1 - lo)
  match op with
  | 0x00 | 0x05 | 0x07 | 0x09 | 0x22 | 0x23 | 0x26 => some []
  | 0x01 => some [f 0x08 10 0, f 0x08 15 12, f 0x08 16 16, f 0x0C 25 0, f 0x10 25 0, f 0x14 16 0, f 0x14 31 24, f 0x18 10 0, f 0x1C 19 0,
      f 0x20 63 0, f 0x28 63 0]
  | 0x02 => some [f 0x08 63 0, f 0x10 3 0]
  | 0x03 => some [f 0x08 63 0, f 0x10 9 0]
  | 0x04 => some [f 0x08 7 0, f 0x0C 0 0, f 0x10 63 0]
  | 0x06 => some [f 0x08 7 0]
  | 0x08 => some [f 0x08 10 0, f 0x08 15 12]
  | 0x10 => some [f 0x08 31 0, f 0x0C 25 0, f 0x10 25 0]
  | 0x11 => some [f 0x08 63 0, f 0x10 17 0]
  | 0x12 => some [f 0x08 7 0]
  | 0x18 => some [f 0x08 63 0, f 0x10 15 0]
  | 0x19 => some [f 0x08 63 0]
  | 0x1A => some [f 0x08 63 0, f 0x10 10 0, f 0x10 26 16, f 0x18 63 0, f 0x20 10 0, f 0x24 31 0, f 0x28 15 0, f 0x30 63 0, f 0x38 9 0]
  | 0x20 => some [f 0x08 63 0, f 0x10 12 0, f 0x14 15 0, f 0x14 16 16, f 0x18 13 0, f 0x20 63 0, f 0x28 31 0, f 0x2C 31 0]
  | 0x21 => some [f 0x08 31 0, f 0x0C 8 0]
  | 0x24 => some [f 0x08 63 0, f 0x10 0 0]
  | 0x25 => some [f 0x08 63 0, f 0x10 63 0, f 0x18 31 0]
  | _ => none

/-- Whether an entry has a reserved opcode, or a reserved bit or byte that is not 0 (R512, R515). -/
def entryReserved (e : List Byte) : Bool :=
  match namedBits (parAt e 0 1) with
  | none => true
  | some fs => decide ((leNat (e.take 64)) &&& (fs.foldl (fun m p => m ||| ((2 ^ p.2 - 1) <<< p.1)) 0xFFFF00FF) ≠ leNat (e.take 64))

/-- The MIG command of an entry (R514): its code, second form and fields. -/
def migEntry (c : CmdId) (ps : List Byte) : Instr :=
  let w := parAt ps 0 4
  let page := bits (parAt ps 4 4) 25 0
  let n := bits (parAt ps 8 4) 25 0
  let dest : Fin 4 := ⟨bits w 12 11 % 4, Nat.mod_lt _ (by decide)⟩
  let port := bits w 17 13
  let set : BitVec 8 := BitVec.ofNat 8 (bits w 25 18)
  let herd : HerdNo := ⟨bits w 31 26 % 64, Nat.mod_lt _ (by decide)⟩
  match bits w 7 0 with
  | 1 => .alloc c page n dest port (w.testBit 9) (w.testBit 10)
  | 2 => .free c page n
  | 3 => .move c page n dest port
  | 4 => if w.testBit 8 then .unpin c page n else .pin c page n
  | 5 => .prot c page n (w.testBit 9)
  | 6 => .share c page n set
  | 7 => if w.testBit 8 then .revoke c set herd else .admitHerd c set herd
  | _ => .nopCommand { c with reserved := true }

/-- The command that an entry of ring `ring` of function f spells (R512, R514, R570), with the list that it names. An entry with a reserved
opcode or field is taken as one that ends with status 2 and does nothing else. -/
def submission (f : FnNo) (ring : Fin 16) (e : List Byte) (list : List RegwEntry) : Instr :=
  let c : CmdId := ⟨f, ring, BitVec.ofNat 16 (parAt e 2 2), entryReserved e⟩
  let ps := e.drop 8
  match parAt e 0 1 with
  | 0x00 => .nopCommand c
  | 0x01 => .herdCreate c (createParams ps)
  | 0x02 => .herdRings c (par64 ps 0) (bits (parAt ps 8 4) 3 0)
  | 0x03 => .herdRegw c list
  | 0x04 => .herdStart c (bits (parAt ps 0 4) 7 0) ((parAt ps 4 4).testBit 0) (par64 ps 8)
  | 0x05 => .herdStop c
  | 0x06 => .herdResume c (bits (parAt ps 0 4) 7 0)
  | 0x07 => .herdPark c
  | 0x08 => .herdUnpark c (bits (parAt ps 0 4) 10 0) (BitVec.ofNat 4 (bits (parAt ps 0 4) 15 12))
  | 0x09 => .herdDestroy c
  | 0x10 => migEntry c ps
  | 0x11 => .extReg c (par64 ps 0) (bits (parAt ps 8 4) 17 0 + 1)
  | 0x12 => .extDereg c (BitVec.ofNat 8 (bits (parAt ps 0 4) 7 0))
  | 0x18 => .progLoad c (par64 ps 0) (bits (parAt ps 8 4) 7 0) (bits (parAt ps 8 4) 15 8 + 1)
  | 0x19 => .dump c (par64 ps 0)
  | 0x1A => .eval c (evalParams ps list)
  | 0x20 => .snapCfg c (cfgParams ps)
  | 0x21 => .snapMtbf c (BitVec.ofNat 32 (parAt ps 0 4)) (BitVec.ofNat 8 (parAt ps 4 4)) ((parAt ps 4 4).testBit 8)
  | 0x22 => .snapNow c
  | 0x23 => .snapStat c
  | 0x24 => .snapRestore c (par64 ps 0) ⟨parAt ps 8 4 % 2, Nat.mod_lt _ (by decide)⟩
  | 0x25 => .snapFetch c (par64 ps 0) (par64 ps 8) (parAt ps 16 4)
  | 0x26 => .snapOff c
  | _ => .nopCommand c

end Sys2Proof.Machine
end

