-- ==== Sys2Proof/Tests/Slice0.lean ====
section
/-! SUPPORT. The model's own tests. Small states built by the helpers below; for each statement of
Certificates/Slice0/Obligations.lean that has hypotheses, one theorem meets_<Name> with concrete states and operands that meet
the hypotheses of each of its clauses; ill-formed operands that the checks of WellFormed.lean refuse; and single steps. -/

namespace Sys2Proof.Tests
open Sys2Proof.Machine
set_option autoImplicit false
set_option Elab.async false

/-! ## States -/

/-- A state with words written into its registers. -/
def put (s : State) (ws : List (Nat × Word)) : State := ws.foldl (fun s p => (Upd.ctl p.1 p.2).apply s) s
/-- A state with bytes written into its device memory. -/
def poke (s : State) (a : Nat) (bs : List Byte) : State := bs.zipIdx.foldl (fun s p => (Upd.mem (a + p.2) p.1).apply s) s
/-- A powered module in RUN. -/
def up : State := put { State.reset with power := ⟨.run, true, true, false, true⟩ } [(0x100, 2)]
/-- The CORE_HERD word of core position i of n in herd h. -/
def herdWord (h i n : Nat) : Word := BitVec.ofNat 32 (0x80000000 + 65536 * i + 64 * (n - 1) + h)
/-- A herd of function 0 with the cores of the listed sites. -/
def herdOn (sites : List Nat) : Herd :=
  { owner := some 0, hport := 0, sites := sites, ncores := sites.length, qmask := 15, quota := 64, floor := 0, firstGroup := 0,
    ngroups := 16, firstProg := 32, nprog := 4, nseq := 8, minper := 0, pod := false, members := 0, parked := false, failed := false,
    parking := none, mig := none, stepSlot := 0, stepBeads := [], nonfinite := false, voteClosed := false,
    faultBead := none, prefetch := [], hpfPend := none, eval := none }
/-- A state in which x is herd h, its cores in SEQ state st. -/
def withHerd (s : State) (h : Nat) (x : Herd) (st : Nat) : State :=
  put ((Upd.herd h (some x)).apply s) (x.sites.zipIdx.flatMap fun p =>
    [(corePage p.1 + 0x100, herdWord h p.2 x.sites.length), (seqPage p.1 + 0x104, BitVec.ofNat 32 st)])
/-- A state in which core `site` holds x. -/
def withCore (s : State) (site : Nat) (x : CoreX) : State := (Upd.core site x).apply s
/-- Herd 1 on sites 0 and 1, idle. -/
def idle : State := withHerd up 1 (herdOn [0, 1]) 1
/-- Herd 1 on sites 0 and 1, running. -/
def running : State := withHerd up 1 (herdOn [0, 1]) 3
/-- A packet of herd 1. -/
def pkt (src dst at_ inPort : Nat) (pl : Payload) : Packet := ⟨src, dst, 4, 0, 0, 1, 0, at_, inPort, pl⟩
/-- A state with a row in a rod table: its control word and slots A, B and C. -/
def withRow (s : State) (site r w0 w1 w2 w3 : Nat) : State :=
  (Upd.rod (2048 * site + r) (BitVec.ofNat 128 (w0 * 2 ^ 96 + w1 * 2 ^ 64 + w2 * 2 ^ 32 + w3))).apply s
/-- An issued instruction of a slot. -/
def ins (id part word : Nat) : Issued :=
  ⟨id, 0, part, BitVec.ofNat 32 word, 0, 0, 0, 0, false, false, 0, 0, 0, none⟩
/-- A state in which page p has an entry: homed in frame f, writable, owned by herd h. -/
def withPage (s : State) (p h f : Nat) : State := poke s (homeBase s + 8 * p) (leBytes 8 (mkEntry false false true h f 0).toNat)
/-- A tile descriptor (R151). -/
def tcw (fmt scl orient rows cols base sbase pitch : Nat) : DWord :=
  BitVec.ofNat 64 (2 ^ 63 + pitch * 2 ^ 46 + (cols - 1) * 2 ^ 32 + (rows - 1) * 2 ^ 20 + orient * 2 ^ 18 + scl * 2 ^ 16 + fmt * 2 ^ 12 + sbase * 64 + base)
/-- A tile instruction. -/
def tile (word : Nat) (a b : DWord) : Issued := { ins 7 1 word with tcA := a, tcB := b }
/-- Site 0 of the running herd, with these instructions. -/
def busy (l : List Issued) : State := withCore running 0 { CoreX.clear with issued := l }
/-- A command of function 0's ring 0. -/
def cmd0 : CmdId := { fn := 0, ring := 0, tag := 7 }
/-- A state in which function 0's ring 0 holds one command. -/
def asked (s : State) : State := put s [(crBase 0 0 + 8, 0x80000000), (crBase 0 0 + 0x14, 0x10000), (migHerd 1, 64), (migHerd 1 + 4, 8)]
/-- A descriptor of herd 1 at engine 0. -/
def dsc (phase mode : Nat) (entry shard : List Word) : UeDesc :=
  { eng := 0, herd := 1, words := [BitVec.ofNat 32 (5 * 65536), BitVec.ofNat 32 mode, 9, 0, 65536, 0, 131072, 0], addr := 0, phase := phase,
    entry := entry, t := 3, lr := one32, b1 := 0, b2 := 0, tscale := one32, noclip := false, shard := shard, batch := 0, done := 0,
    changed := 0, status := 0, figs := Figures.zero, formatRaised := false, row5 := false }
/-- A state in which engine 0 holds descriptors, with its group table at 16 MB. -/
def engaged (l : List UeDesc) : State :=
  { put idle [(uePage 0 + 0x100, 0x1000000), (uePage 0 + 0x600 + 8, 0x80000000), (uePage 0 + 0x604 + 8, 16)] with desc := l }
/-- A pod of positions 0 to 3, the lead at 0; this member is at `own`, and its torus ports are up. -/
def podAt (own : Nat) : State :=
  put up ([(bxPage 0 + 0x804, BitVec.ofNat 32 (0x80030000 + own)), (bxPage 0 + 0x808, 15)] ++ (List.range 6).map (fun p => (bxPage p + 0x104, 3)))
/-- A frame header from member `src` to member `dst` on herd 1. -/
def hdr (port : BxNo) (src dst : BitVec 6) (addr : DWord) : FrameHdr := ⟨port, 1, src, dst, false, false, 0, 0, 0, 0, 0, addr, 0, true⟩
/-- A herd of function 0 that lies on two pod members. -/
def podHerd : Herd := { herdOn [0, 1] with pod := true, members := 3 }
/-- A collective descriptor's words. -/
def collWords (kind axes src dst count root : Nat) : List Word :=
  [5, BitVec.ofNat 32 (kind + 16 * axes), 0, BitVec.ofNat 32 count, BitVec.ofNat 32 src, 0, BitVec.ofNat 32 dst, 0, 0, 0, 0, 0, BitVec.ofNat 32 root, 0, 0, 0]
/-- A collective of herd 1. -/
def collective (ws : List Word) (started : Bool) : Collective := ⟨1, ws, 0, started, none, [], 0, false, 0, 0, 0, [], [], false, false, 0⟩
/-- A snapshot entry of one page. -/
def entry0 : SnapEntry := ⟨5, 1, false, false, 0, 0, false, 0, 0, [], false, false, false, false, false, false, [], 0, []⟩
/-- Snapshot settings. -/
def snapParams (pcie : Bool) (baxis : Fin 4) : SnapParams := ⟨0x70000, 1, 4, true, pcie, baxis, 3, 223, 0x100000000, 64, 4, 0⟩
/-- The snapshot state of a herd with settings and entries. -/
def snapOn (pcie : Bool) (baxis : Fin 4) (es : List SnapEntry) : Snap := { Snap.clear with params := some (snapParams pcie baxis), entries := es }
/-- A state in which herd 1's snapshot state is x. -/
def withSnap (s : State) (x : Snap) : State := (Upd.snap 1 x).apply (put s [(snapReg 1, 0x80000000)])
/-- A state whose auxiliary ports are up. -/
def auxUp (s : State) : State := put s [(bxPage 6 + 0x104, 3), (bxPage 7 + 0x104, 3)]
/-- A FRU memory whose DC Load record gives 48 V at 25 A. -/
def fruImage : List Byte :=
  [1, 0, 0, 1, 0, 2, 0, 252, 1, 1, 0, 0, 0, 0, 0, 254, 2, 0x80, 13, 0x25, 0x4C, 0, 0xC0, 0x12, 0, 0, 0, 0, 0, 0, 0, 0, 0xA8, 0x61]
/-- A module whose memory port n has its channels trained and its blocks filled. -/
def filled (n : Nat) : State := put up [(mpPage n + 0x10C, 0xFF01)]
/-- A module in BOOT, its boot ROM not yet done. -/
def bootRom : State := { put up [(0x100, 0), (mgtPage 1 + 0x104, 1)] with power := ⟨.init, true, true, false, true⟩ }
/-- A module whose rails are good and whose die is still held in reset. -/
def heldModule : State := { State.reset with power := ⟨.init, true, true, false, true⟩ }
/-- A record of a memory port whose owner is being searched. -/
def found0 : EvRecord :=
  { type := 0xA, inst := 0, code := 1, requester := 0, cls := 1, lost := false, herd := none, coalesced := false, addr := 0, bead := 0, cyc := 0 }

/-- A state whose memory ports have zeroed their memory. -/
def allZeroed (s : State) : State := put s ((List.range 24).map fun n => (mpPage n + 0x10C, 0xFF01))

/-- Without a herd whose HERD_PARK waits, none waits. -/
theorem notParking_of {s : State} {site : Nat} (h : ((herdAt s site).bind (herdOf s)).bind (·.parking) = none) : NotParking s site := by
  intro g hg
  rw [hg] at h
  exact h
/-- Memory without a remap has no block whose copy failed. -/
theorem notPoisoned_of {s : State} (g : ∀ n < 24, fld (rd s (mpPage n + 0x118)) 14 8 = 0) (b : Nat) : poisoned s b = false := by
  unfold poisoned remapOf
  rw [if_pos (g (blkPort b) (Nat.mod_lt _ (by decide)))]
/-- Whether an engine's access gives bytes. -/
def engOk : Eng → Bool
  | .ok _ => true
  | _ => false
/-- An access that gives bytes gives some bytes. -/
theorem engOk_of {x : Eng} (h : engOk x = true) : ∃ bs, x = .ok bs := by
  cases x with
  | ok bs => exact ⟨bs, rfl⟩
  | wait => cases h
  | bad st => cases h

/-! ## The hypotheses of the statements are met -/

/-- States and operands that meet the hypotheses of StepTakesFront. -/
theorem meets_StepTakesFront :
    ∃ (s : State) (c : Instr) (rest : List Instr), s.pending = c :: rest :=
  ⟨({ up with pending := [.meshQuiesced, .dumpEnd] } : State), (.meshQuiesced : Instr), ([.dumpEnd] : List Instr), by decide +kernel⟩

/-- States and operands that meet the hypotheses of QueueKept. -/
theorem meets_QueueKept :
    (∃ (s : State), s.pending = []) ∧
    (∃ (s : State) (c : Instr) (t : State), exec c s = .next t) :=
  ⟨⟨(up : State), by decide +kernel⟩,
   ⟨({ up with pending := [.nopCommand cmd0] } : State), (.nopCommand cmd0 : Instr), (_ : State), rfl⟩⟩

/-- States and operands that meet the hypotheses of StepKeepsForm. -/
theorem meets_StepKeepsForm :
    ∃ (s : State) (t : State), s.wf = true ∧ step s = .next t :=
  ⟨({ up with pending := [.nopCommand cmd0] } : State), (_ : State), by decide +kernel, rfl⟩

/-- States and operands that meet the hypotheses of FusesKept. -/
theorem meets_FusesKept :
    ∃ (s : State) (c : Instr) (t : State), (∀ g, c ≠ .svnCommit g) ∧ (∀ g k, c ≠ .keyRevoke g k) ∧ exec c s = .next t :=
  ⟨(up : State), (.nopCommand cmd0 : Instr), (_ : State), (fun _ h => nomatch h), (fun _ _ h => nomatch h), rfl⟩

/-- States and operands that meet the hypotheses of BlockControls. -/
theorem meets_BlockControls :
    (∃ (s : State) (p : PageNo) (o : Nat) (d : RegDef) (off : BitVec 28), Ready s ∧ Takes s p.val ∧ o < 0x100 ∧ o % 4 = 0 ∧ o ≠ 0x10 ∧ o ≠ 0x28 ∧
      off.toNat = 4096 * p.val + o ∧ regDef (blockOf s p.val) o = some d) ∧
    (∃ (s : State) (p : PageNo) (o : Nat) (d : RegDef) (off : BitVec 28), Ready s ∧ Takes s p.val ∧ o < 0x100 ∧ o % 4 = 0 ∧ o ≠ 0x10 ∧ o ≠ 0x28 ∧
      off.toNat = 4096 * p.val + o ∧ regDef (blockOf s p.val) o = some d) ∧
    (∃ (s : State) (p : PageNo), Ready s ∧ Takes s p.val ∧ ((∀ c, (blockOf s p.val).coreSite = some c → coreState s c = 0 ∨ coreState s c = 9))) ∧
    (∃ (s : State) (p : PageNo), Ready s ∧ Takes s p.val ∧ ((∀ c, (blockOf s p.val).coreSite = some c → coreState s c = 0 ∨ coreState s c = 9))) ∧
    (∃ (s : State) (p : PageNo), Ready s ∧ Takes s p.val ∧ (p.val = 4 ∨ p.val = 8 ∨ p.val = 12 ∨ p.val = 13 ∨ p.val = 0x140 ∨ p.val = 0x1C0)) ∧
    (∃ (s : State) (p : PageNo), Ready s ∧ rstBusy s (4096 * p.val) = true) ∧
    (∃ (s : State) (p : PageNo) (v : Word), Ready s ∧ Takes s p.val ∧ bit v 1 = false ∧ bit v 2 = false) ∧
    (∃ (s : State) (p : PageNo) (v : Word), Ready s ∧ Takes s p.val ∧ bit v 1 = false ∧ bit v 3 = false) ∧
    (∃ (s : State) (p : PageNo) (v : Word), Ready s ∧ Takes s p.val ∧ bit v 1 = false ∧ bit v 3 = false ∧ ((∀ c, blockOf s p.val ≠ .fab c)) ∧
      ((∀ c, blockOf s p.val ≠ .cube c))) ∧
    (∃ (s : State) (p : PageNo), Ready s ∧ blockOf s p.val ≠ .absent ∧ (blockOf s p.val).isWindow = false ∧ (blockOf s p.val).coreSite = none ∧
      fenced s (4096 * p.val) = true ∧ isFenced s (4096 * p.val) = false ∧ blockDrained s (blockOf s p.val) = true) ∧
    (∃ (s : State) (p : PageNo), Ready s ∧ Takes s p.val) :=
  ⟨⟨(up : State), (320 : PageNo), (0x24 : Nat), ((regDef (blockOf (up : State) (320 : PageNo).val) (0x24 : Nat)).getD ⟨0,0,0,0,0,0,0,0,0⟩ : RegDef),
      (0x140024 : BitVec 28), by and_intros <;> decide +kernel⟩,
   ⟨(put up [(0x140020, 0xFF)] : State), (320 : PageNo), (0x20 : Nat),
      ((regDef (blockOf (put up [(0x140020, 0xFF)] : State) (320 : PageNo).val) (0x20 : Nat)).getD ⟨0,0,0,0,0,0,0,0,0⟩ : RegDef),
      (0x140020 : BitVec 28), by and_intros <;> decide +kernel⟩,
   ⟨(up : State), (320 : PageNo), by and_intros <;> decide +kernel⟩,
   ⟨(up : State), (⟨seqPage 3 / 4096, by decide⟩ : PageNo), by and_intros <;> decide +kernel⟩,
   ⟨(put up [(0xC10C, 0x5550555), (0xC024, 3)] : State), (⟨12, by decide⟩ : PageNo), by and_intros <;> decide +kernel⟩,
   ⟨(put up [(0x140014, 2)] : State), (320 : PageNo), by and_intros <;> decide +kernel⟩,
   ⟨(put up [(0x140080, 7), (0x140084, 0x80000000)] : State), (320 : PageNo), (8 : Word), by and_intros <;> decide +kernel⟩,
   ⟨(up : State), (⟨fabPage 5 / 4096, by decide⟩ : PageNo), (4 : Word), by and_intros <;> decide +kernel⟩,
   ⟨(up : State), (320 : PageNo), (4 : Word),
      by and_intros <;> first | decide +kernel | exact ((fun c h => by have g : blockOf up (320 : PageNo).val = .mig 0 := (by decide +kernel); rw [g] at h; cases h))⟩,
   ⟨(put { up with mergeBuf := [⟨3, 17, List.replicate 64 (some 7), 1, []⟩] } [(mpPage 3 + 0x10, 4)] : State), (⟨0x103, by decide⟩ : PageNo),
      by and_intros <;> decide +kernel⟩,
   ⟨(put up [(0x140020, 1)] : State), (320 : PageNo), by and_intros <;> decide +kernel⟩⟩

/-- States and operands that meet the hypotheses of WordRead. -/
theorem meets_WordRead :
    (∃ (s : State) (r : Requester) (off : BitVec 28), Ready s ∧ off.toNat % 4 = 0 ∧ reqOk s r = true ∧
      mayRead s r (blockOf s (off.toNat / 4096)) = true) ∧
    (∃ (s : State) (r : Requester) (off : BitVec 28), Ready s ∧ off.toNat % 4 = 0 ∧ reqOk s r = true ∧
      mayRead s r (blockOf s (off.toNat / 4096)) = true) :=
  ⟨⟨(up : State), (.ringCtl : Requester), (0x100 : BitVec 28), by and_intros <;> decide +kernel⟩,
   ⟨(up : State), (.fn 0 : Requester), (0x180100 : BitVec 28), by and_intros <;> decide +kernel⟩⟩

/-- States and operands that meet the hypotheses of RightsHold. -/
theorem meets_RightsHold :
    ∃ (s : State) (f : FnNo) (p : PageNo) (off : BitVec 28), Ready s ∧ reqOk s (.fn f) = true ∧ off.toNat % 4 = 0 ∧ off.toNat / 4096 = p.val ∧
      blockOf s p.val ≠ .absent ∧ mayWrite s (.fn f) (blockOf s p.val) (off.toNat % 4096) = false :=
  ⟨(up : State), (0 : FnNo), (320 : PageNo), (0x140110 : BitVec 28), by and_intros <;> decide +kernel⟩

/-- States and operands that meet the hypotheses of RoutersForward. -/
theorem meets_RoutersForward :
    (∃ (s : State) (i : Nat) (p : Nat) (q : Packet), Ready s ∧ s.packets[i]? = some q ∧ competes q = true ∧ rtrLive s q.at_ = true ∧
      wantsPort s q = p ∧ granted s i q p = true ∧ p = 4) ∧
    (∃ (s : State) (i : Nat) (p : Nat) (q : Packet) (r : Nat), Ready s ∧ s.packets[i]? = some q ∧ competes q = true ∧ rtrLive s q.at_ = true ∧
      wantsPort s q = p ∧ granted s i q p = true ∧ p ≠ 4 ∧ neighbour q.at_ p = some r) ∧
    (∃ (s : State) (i : Nat) (p : Nat) (q : Packet), Ready s ∧ s.packets[i]? = some q ∧ competes q = true ∧ rtrLive s q.at_ = true ∧
      wantsPort s q = p ∧ granted s i q p = true ∧ p ≠ 4 ∧ neighbour q.at_ p = none) ∧
    (∃ (s : State) (i : Nat) (q : Packet), Ready s ∧ s.packets[i]? = some q ∧ outside q = true ∧ mayEnter s i q = true) ∧
    (∃ (s : State) (i : Nat) (q : Packet), Ready s ∧ s.packets[i]? = some q ∧ competes q = true ∧ q.vc = 3 ∧ s.bulkOpen = []) ∧
    (∃ (s : State) (i : Nat) (q : Packet), Ready s ∧ s.packets[i]? = some q ∧ competes q = true) ∧
    (∃ (s : State) (i : Nat) (q : Packet), Ready s ∧ s.packets[i]? = some q ∧ outside q = true) ∧
    (∃ (s : State) (i : Nat) (q : Packet), Ready s ∧ s.packets[i]? = some q ∧ q.inPort = 5 ∧ headsBuffer s i q = true ∧ sinkMode s q.at_ = false ∧
      (q.src = (attachOf .ringCtl).1 ∨ herdAt s q.at_ = some q.herd) ∧ ((∀ ch w d f, q.payload ≠ .movReq ch w d f)) ∧
      ((∀ ch a, q.payload ≠ .movResp ch a))) ∧
    (∃ (s : State) (i : Nat) (q : Packet) (ch : Fin 2) (a : MovAnswer), Ready s ∧ s.packets[i]? = some q ∧ q.inPort = 5 ∧ headsBuffer s i q = true ∧
      sinkMode s q.at_ = false ∧ (q.src = (attachOf .ringCtl).1 ∨ herdAt s q.at_ = some q.herd) ∧ q.payload = .movResp ch a ∧
      ch ∈ (coreX s q.at_).movSent) ∧
    (∃ (s : State) (i : Nat) (q : Packet) (ch : Fin 2) (w : Nat) (d : BitVec 256) (f : Cell), Ready s ∧ s.packets[i]? = some q ∧ q.inPort = 5 ∧
      headsBuffer s i q = true ∧ sinkMode s q.at_ = false ∧ (q.src = (attachOf .ringCtl).1 ∨ herdAt s q.at_ = some q.herd) ∧
      q.payload = .movReq ch w (some d) f) ∧
    (∃ (s : State) (i : Nat) (q : Packet) (ch : Fin 2) (w : Nat) (found : Cell), Ready s ∧ s.packets[i]? = some q ∧ q.inPort = 5 ∧
      headsBuffer s i q = true ∧ sinkMode s q.at_ = false ∧ (q.src = (attachOf .ringCtl).1 ∨ herdAt s q.at_ = some q.herd) ∧
      q.payload = .movReq ch w none found) ∧
    (∃ (s : State) (i : Nat) (q : Packet) (ch : Fin 2) (w : Nat) (found : Cell), Ready s ∧ s.packets[i]? = some q ∧ q.inPort = 5 ∧
      headsBuffer s i q = true ∧ sinkMode s q.at_ = false ∧ (q.src = (attachOf .ringCtl).1 ∨ herdAt s q.at_ = some q.herd) ∧
      q.payload = .movReq ch w none found) ∧
    (∃ (s : State) (i : Nat) (q : Packet), Ready s ∧ s.packets[i]? = some q ∧ q.inPort = 5 ∧ headsBuffer s i q = true ∧ sinkMode s q.at_ = true) ∧
    (∃ (s : State) (i : Nat) (q : Packet), Ready s ∧ s.packets[i]? = some q ∧ q.inPort = 5 ∧ headsBuffer s i q = true ∧ sinkMode s q.at_ = false ∧
      q.src ≠ (attachOf .ringCtl).1 ∧ herdAt s q.at_ ≠ some q.herd) :=
  ⟨⟨({ running with packets := [pkt 3 0 0 1 .release] } : State), (0 : Nat),
      (wantsPort ({ running with packets := [pkt 3 0 0 1 .release] } : State) (pkt 3 0 0 1 .release : Packet) : Nat), (pkt 3 0 0 1 .release : Packet),
      by and_intros <;> decide +kernel⟩,
   ⟨({ running with packets := [pkt 3 0 7 0 .release, pkt 0 5 0 4 .release] } : State), (1 : Nat),
      (wantsPort ({ running with packets := [pkt 3 0 7 0 .release, pkt 0 5 0 4 .release] } : State) (pkt 0 5 0 4 .release : Packet) : Nat),
      (pkt 0 5 0 4 .release : Packet),
      ((neighbour 0 (wantsPort ({ running with packets := [pkt 3 0 7 0 .release, pkt 0 5 0 4 .release] } : State) (pkt 0 5 0 4 .release : Packet))).getD 0 : Nat),
      by and_intros <;> decide +kernel⟩,
   ⟨({ running with packets := [{ pkt 0 1 1 3 .release with exit := 0 }] } : State), (0 : Nat),
      (wantsPort ({ running with packets := [{ pkt 0 1 1 3 .release with exit := 0 }] } : State) ({ pkt 0 1 1 3 .release with exit := 0 } : Packet) : Nat),
      ({ pkt 0 1 1 3 .release with exit := 0 } : Packet), by and_intros <;> decide +kernel⟩,
   ⟨({ running with packets := [pkt 0 1 0 12 .release, pkt 0 2 0 4 .release] } : State), (0 : Nat), (pkt 0 1 0 12 .release : Packet),
      by and_intros <;> decide +kernel⟩,
   ⟨({ running with packets := [{ pkt 0 1 0 4 .release with vc := 3 }] } : State), (0 : Nat), ({ pkt 0 1 0 4 .release with vc := 3 } : Packet),
      by and_intros <;> decide +kernel⟩,
   ⟨({ running with packets := [{ pkt 0 1 1 3 .release with age := 0xFFF }] } : State), (0 : Nat),
      ({ pkt 0 1 1 3 .release with age := 0xFFF } : Packet), by and_intros <;> decide +kernel⟩,
   ⟨({ running with packets := [pkt 0 1 0 12 .release] } : State), (0 : Nat), (pkt 0 1 0 12 .release : Packet), by and_intros <;> decide +kernel⟩,
   ⟨({ running with packets := [pkt 1 0 0 5 (.mirror 3 true)] } : State), (0 : Nat), (pkt 1 0 0 5 (.mirror 3 true) : Packet),
      by and_intros <;> first | decide +kernel | exact (by intro _ _ _ _ g; cases g) | exact (by intro _ _ g; cases g)⟩,
   ⟨(withCore { running with packets := [pkt 1 0 0 5 (.movResp 1 (.word 7))] } 0 { CoreX.clear with movSent := [1] } : State), (0 : Nat),
      (pkt 1 0 0 5 (.movResp 1 (.word 7)) : Packet), (1 : Fin 2), (.word 7 : MovAnswer), by and_intros <;> decide +kernel⟩,
   ⟨({ running with packets := [pkt 1 0 0 5 (.movReq 0 49151 (some 9) .good)] } : State), (0 : Nat),
      (pkt 1 0 0 5 (.movReq 0 49151 (some 9) .good) : Packet), (0 : Fin 2), (49151 : Nat), (9 : BitVec 256), (.good : Cell),
      by and_intros <;> decide +kernel⟩,
   ⟨({ running with packets := [pkt 1 0 0 5 (.movReq 0 3 none .corrected)] } : State), (0 : Nat),
      (pkt 1 0 0 5 (.movReq 0 3 none .corrected) : Packet), (0 : Fin 2), (3 : Nat), (.corrected : Cell), by and_intros <;> decide +kernel⟩,
   ⟨({ running with packets := [pkt 1 0 0 5 (.movReq 0 3 none .bad)] } : State), (0 : Nat), (pkt 1 0 0 5 (.movReq 0 3 none .bad) : Packet),
      (0 : Fin 2), (3 : Nat), (.bad : Cell), by and_intros <;> decide +kernel⟩,
   ⟨(put { running with packets := [pkt 1 0 0 5 (.tally 0 3 0 0 true 9)] } [(fabPage 0 + 0x14, 0x20000)] : State), (0 : Nat),
      (pkt 1 0 0 5 (.tally 0 3 0 0 true 9) : Packet), by and_intros <;> decide +kernel⟩,
   ⟨({ running with packets := [{ pkt 1 0 0 5 (.tally 0 3 0 0 false 9) with herd := 2 }] } : State), (0 : Nat),
      ({ pkt 1 0 0 5 (.tally 0 3 0 0 false 9) with herd := 2 } : Packet), by and_intros <;> decide +kernel⟩⟩

/-- States and operands that meet the hypotheses of MeshUpkeep. -/
theorem meets_MeshUpkeep :
    (∃ (s : State) (n : Fin 4), Ready s ∧ bit (bulkForce s (fabGPage + 0x108)) n.val = true ∧ bulkStart s n.val ≤ beadCyc s ∧
      beadCyc s < bulkStart s n.val + bulkLen s n.val ∧ ((∀ w ∈ s.bulkOpen, w.1 ≠ n.val))) ∧
    (∃ (s : State) (n : Fin 4) (e : Nat), Ready s ∧ (n.val, e) ∈ s.bulkOpen ∧ e ≤ beadCyc s) ∧
    (∃ (s : State), Ready s ∧ Takes s 16) ∧
    (∃ (s : State), Ready s ∧ bit (rd s (fabGPage + 0x100)) 0 = true ∧ ((∀ q ∈ s.packets, outside q = true)) ∧ detoursOld s = false) ∧
    (∃ (s : State), Ready s ∧ bit (rd s (fabGPage + 0x100)) 0 = true ∧ ((∀ q ∈ s.packets, outside q = true)) ∧ detoursOld s = true) ∧
    (∃ (s : State) (c : Site), Ready s ∧ rtrEn s c.val = true) ∧
    (∃ (s : State), Ready s ∧ bit (rd s (fabGPage + 0x140)) 0 = false) ∧
    (∃ (s : State), Ready s ∧ bit (rd s (fabGPage + 0x140)) 0 = true) :=
  ⟨⟨(put up [(fabGPage + 0x108, 4), (fabGPage + 0x120, 10), (fabGPage + 0x124, 5), (0x3108, 14)] : State), (2 : Fin 4),
      by and_intros <;> decide +kernel⟩,
   ⟨(put { up with bulkOpen := [(1, 30), (2, 15)] } [(0x3108, 15)] : State), (2 : Fin 4), (15 : Nat), by and_intros <;> decide +kernel⟩,
   ⟨(put up [(fabGPage + 0x104, 1), (fabGPage + 0x100, 1)] : State), by and_intros <;> decide +kernel⟩,
   ⟨(put { up with packets := [pkt 0 1 0 12 .release] } [(fabGPage + 0x100, 1)] : State), by and_intros <;> decide +kernel⟩,
   ⟨(put up [(fabGPage + 0x100, 1), (fabPage 77 + 0x14, 0x10000)] : State), by and_intros <;> decide +kernel⟩,
   ⟨({ running with packets := [pkt 0 1 7 4 .release, pkt 0 1 6 4 .release] } : State), (7 : Site), by and_intros <;> decide +kernel⟩,
   ⟨(put up [(fabGPage + 0x140, 6)] : State), by and_intros <;> decide +kernel⟩,
   ⟨(put { up with withdrawn := [5] } [(fabGPage + 0x140, 7)] : State), by and_intros <;> decide +kernel⟩⟩

/-- States and operands that meet the hypotheses of DetoursQuiesced. -/
theorem meets_DetoursQuiesced :
    (∃ (s : State) (c : Site), Ready s ∧ Takes s (fabPage c.val / 4096) ∧ bit (rd s (fabGPage + 0x104)) 0 = true) ∧
    (∃ (s : State) (c : Site), Ready s ∧ Takes s (fabPage c.val / 4096) ∧ bit (rd s (fabGPage + 0x104)) 0 = false) :=
  ⟨⟨(put up [(fabGPage + 0x104, 1)] : State), (5 : Site), by and_intros <;> decide +kernel⟩,
   ⟨(up : State), (5 : Site), by and_intros <;> decide +kernel⟩⟩

/-- States and operands that meet the hypotheses of CoreFencing. -/
theorem meets_CoreFencing :
    (∃ (s : State) (c : Site) (k : Nat), Ready s ∧ coreEn s c.val = true ∧ (coreX s c.val).fenceStep = k ∧ k < 7 ∧
      (k = 0 ∨ isFenced s ((fenceOrder c.val).getD (k - 1) 0) = true)) ∧
    (∃ (s : State) (c : Site) (k : Nat), Ready s ∧ coreEn s c.val = true ∧ (coreX s c.val).fenceStep = k ∧ k < 7 ∧
      (k = 0 ∨ isFenced s ((fenceOrder c.val).getD (k - 1) 0) = true)) ∧
    (∃ (s : State) (c : Site) (k : Nat), Ready s ∧ (coreX s c.val).fenceStep = k + 1 ∧ isFenced s ((fenceOrder c.val).getD k 0) = false) ∧
    (∃ (s : State) (c : Site), Ready s ∧ coreEn s c.val = true) :=
  ⟨⟨(running : State), (0 : Site), (0 : Nat), by and_intros <;> decide +kernel⟩,
   ⟨(put (withCore running 0 { CoreX.clear with fenceStep := 6 }) [(tlyPage 0 + 0x14, 4)] : State), (0 : Site), (6 : Nat),
      by and_intros <;> decide +kernel⟩,
   ⟨(withCore running 0 { CoreX.clear with fenceStep := 7 } : State), (0 : Site), (6 : Nat), by and_intros <;> decide +kernel⟩,
   ⟨(running : State), (1 : Site), by and_intros <;> decide +kernel⟩⟩

/-- States and operands that meet the hypotheses of RowsIssue. -/
theorem meets_RowsIssue :
    (∃ (s : State), Ready s) ∧
    (∃ (s : State) (c : Site) (f : Cell), Ready s ∧ rowVerdict s c.val f ≠ .bad ∧ RowReady s c.val 0 false) ∧
    (∃ (s : State) (c : Site) (f : Cell), Ready s ∧ rowVerdict s c.val f ≠ .bad ∧ RowReady s c.val 0 false) ∧
    (∃ (s : State) (c : Site) (f : Cell), Ready s ∧ rowVerdict s c.val f ≠ .bad ∧ RowReady s c.val 1 false) ∧
    (∃ (s : State) (c : Site) (f : Cell), Ready s ∧ rowVerdict s c.val f ≠ .bad ∧ RowReady s c.val 2 false ∧
      1 < lcRemain s c.val (fld (pcPart s c.val 0) 27 25)) ∧
    (∃ (s : State) (c : Site) (f : Cell), Ready s ∧ rowVerdict s c.val f ≠ .bad ∧ RowReady s c.val 2 false ∧
      lcRemain s c.val (fld (pcPart s c.val 0) 27 25) ≤ 1) ∧
    (∃ (s : State) (c : Site) (f : Cell), Ready s ∧ rowVerdict s c.val f ≠ .bad ∧ RowReady s c.val 4 (altTaken s c.val (pcPart s c.val 0))) ∧
    (∃ (s : State) (c : Site) (f : Cell), Ready s ∧ rowVerdict s c.val f ≠ .bad ∧ RowReady s c.val 4 (altTaken s c.val (pcPart s c.val 0))) ∧
    (∃ (s : State) (c : Site) (f : Cell), Ready s ∧ rowVerdict s c.val f ≠ .bad ∧ RowReady s c.val 5 false) ∧
    (∃ (s : State) (c : Site) (f : Cell), Ready s ∧ rowVerdict s c.val f ≠ .bad ∧ canIssue s c.val = true ∧ sopAt s c.val = 3 ∧
      drained s c.val = true ∧ (coreX s c.val).stopPend = true) ∧
    (∃ (s : State) (c : Site) (f : Cell), Ready s ∧ rowVerdict s c.val f ≠ .bad ∧ canIssue s c.val = true ∧ sopAt s c.val = 3 ∧
      drained s c.val = true ∧ (coreX s c.val).stopPend = false ∧ (coreX s c.val).pausePend = true) ∧
    (∃ (s : State) (c : Site) (f : Cell), Ready s ∧ rowVerdict s c.val f ≠ .bad ∧ canIssue s c.val = true ∧ sopAt s c.val = 3 ∧
      drained s c.val = true ∧ (coreX s c.val).stopPend = false ∧ (coreX s c.val).pausePend = false ∧ (coreX s c.val).bounds ≤ slotsOf s c.val) ∧
    (∃ (s : State) (c : Site) (f : Cell), Ready s ∧ rowVerdict s c.val f ≠ .bad ∧ canIssue s c.val = true ∧ sopAt s c.val = 3 ∧
      drained s c.val = true ∧ (coreX s c.val).stopPend = false ∧ (coreX s c.val).pausePend = false ∧ slotsOf s c.val < (coreX s c.val).bounds ∧
      RowReady s c.val 3 false ∧ bit (pcPart s c.val 0) 27 = false) :=
  ⟨⟨(running : State), by decide +kernel⟩,
   ⟨(put (withRow running 0 2046 0 0 0 (8 * 2 ^ 27 + 3 * 256)) [(seqPage 0 + 0x118, 2046)] : State), (0 : Site), (.good : Cell),
      by and_intros <;> decide +kernel⟩,
   ⟨(withRow running 0 0 0 0 0 (8 * 2 ^ 27 + 3 * 256) : State), (0 : Site), (.corrected : Cell), by and_intros <;> decide +kernel⟩,
   ⟨(withRow running 0 0 (1 * 2 ^ 28 + 7 * 2 ^ 25 + 65535 * 512) 0 0 0 : State), (0 : Site), (.good : Cell), by and_intros <;> decide +kernel⟩,
   ⟨(put (withRow running 0 0 (2 * 2 ^ 28 + 7 * 2 ^ 25 + 2047 * 2 ^ 14) 0 0 0) [(lcReg 0 7, 0xFFFF0002)] : State), (0 : Site), (.good : Cell),
      by and_intros <;> decide +kernel⟩,
   ⟨(put (withRow running 0 0 (2 * 2 ^ 28 + 7 * 2 ^ 25 + 5 * 2 ^ 14) 0 0 0) [(lcReg 0 7, 0x00030001)] : State), (0 : Site), (.good : Cell),
      by and_intros <;> decide +kernel⟩,
   ⟨(put (withRow running 0 0 (4 * 2 ^ 28 + 9 * 2 ^ 18 + 77 * 128) 0 0 0) [(tlyPage 0 + 0x100, 0x200)] : State), (0 : Site), (.good : Cell),
      by and_intros <;> decide +kernel⟩,
   ⟨(put (withRow running 0 0 (4 * 2 ^ 28 + 2 ^ 26 + 31 * 2 ^ 18 + 77 * 128) 0 0 0) [(seqPage 0 + 0x140, 0x7FFFFFFF)] : State), (0 : Site),
      (.good : Cell), by and_intros <;> decide +kernel⟩,
   ⟨(withRow running 0 0 (5 * 2 ^ 28 + 0xAB * 2 ^ 20) 0 0 0 : State), (0 : Site), (.good : Cell), by and_intros <;> decide +kernel⟩,
   ⟨(withCore (withRow running 0 0 (3 * 2 ^ 28) 0 0 0) 0 { CoreX.clear with stopPend := true, pausePend := true } : State), (0 : Site),
      (.good : Cell), by and_intros <;> decide +kernel⟩,
   ⟨(withCore (withRow running 0 0 (3 * 2 ^ 28) 0 0 0) 0 { CoreX.clear with pausePend := true } : State), (0 : Site), (.good : Cell),
      by and_intros <;> decide +kernel⟩,
   ⟨(put (withCore (withRow running 0 0 (3 * 2 ^ 28) 0 0 0) 0 { CoreX.clear with bounds := 4 }) [(seqPage 0 + 0x11C, 4)] : State), (0 : Site),
      (.good : Cell), by and_intros <;> decide +kernel⟩,
   ⟨(withCore (withRow running 0 0 (3 * 2 ^ 28) 0 0 0) 0 { CoreX.clear with bounds := 1 } : State), (0 : Site), (.good : Cell),
      by and_intros <;> decide +kernel⟩⟩

/-- States and operands that meet the hypotheses of SequencerControl. -/
theorem meets_SequencerControl :
    (∃ (s : State) (c : Site) (k : Nat), Ready s ∧ (coreX s c.val).halting = some k ∧ (coreX s c.val).issued = [] ∧ (coreX s c.val).pipe = [] ∧
      (coreX s c.val).faulting = false ∧ coreState s c.val ≠ 9 ∧ NotParking s c.val) ∧
    (∃ (s : State) (c : Site), Ready s ∧ (coreX s c.val).faulting = true ∧ ((∀ i ∈ (coreX s c.val).issued, i.faulted = true)) ∧
      (coreX s c.val).pipe = [] ∧ coreState s c.val ≠ 8 ∧ coreState s c.val ≠ 9 ∧ NotParking s c.val) ∧
    (∃ (s : State) (c : Site), Ready s ∧ Takes s (seqPage c.val / 4096) ∧ [1, 6, 7, 8].contains (coreState s c.val) = true ∧ beadPassed s c.val = false) ∧
    (∃ (s : State) (c : Site), Ready s ∧ Takes s (seqPage c.val / 4096) ∧ [1, 6, 7, 8].contains (coreState s c.val) = true ∧ beadPassed s c.val = false) ∧
    (∃ (s : State) (c : Site), Ready s ∧ Takes s (seqPage c.val / 4096) ∧ coreState s c.val = 8 ∧ bit (rd s (seqPage c.val + 0x180)) 30 = true ∧
      beadPassed s c.val = false) ∧
    (∃ (s : State) (c : Site), Ready s ∧ Takes s (seqPage c.val / 4096) ∧ (coreState s c.val = 5 ∨ coreState s c.val = 6)) ∧
    (∃ (s : State) (c : Site), Ready s ∧ Takes s (seqPage c.val / 4096) ∧ (coreState s c.val = 5 ∨ coreState s c.val = 6)) ∧
    (∃ (s : State) (c : Site), Ready s ∧ Takes s (seqPage c.val / 4096) ∧ [2, 3, 4].contains (coreState s c.val) = true) :=
  ⟨⟨(withCore running 0 { CoreX.clear with halting := some 0x1FF } : State), (0 : Site), (0x1FF : Nat),
      by and_intros <;> first | decide +kernel | exact (notParking_of (by decide +kernel))⟩,
   ⟨(withCore running 0 { CoreX.clear with faulting := true, issued := [{ ins 3 1 0 with faulted := true }] } : State), (0 : Site),
      by and_intros <;> first | decide +kernel | exact (notParking_of (by decide +kernel))⟩,
   ⟨(put idle [(seqPage 0 + 0x110, 1)] : State), (0 : Site), by and_intros <;> decide +kernel⟩,
   ⟨(put (withHerd up 1 (herdOn [0, 1]) 6) [(seqPage 0 + 0x114, 1)] : State), (0 : Site), by and_intros <;> decide +kernel⟩,
   ⟨(put (withCore (withHerd up 1 (herdOn [0, 1]) 8) 0 { CoreX.clear with faulting := true, issued := [{ ins 3 1 0 with faulted := true }] }) [(seqPage 0 + 0x180, 0xC0000000), (seqPage 0 + 0x110, 1)] : State),
      (0 : Site), by and_intros <;> decide +kernel⟩,
   ⟨(withHerd up 1 (herdOn [0, 1]) 5 : State), (1 : Site), by and_intros <;> decide +kernel⟩,
   ⟨(withHerd up 1 (herdOn [0, 1]) 6 : State), (1 : Site), by and_intros <;> decide +kernel⟩,
   ⟨(withHerd up 1 (herdOn [0, 1]) 4 : State), (1 : Site), by and_intros <;> decide +kernel⟩⟩

/-- States and operands that meet the hypotheses of RodTableAndStores. -/
theorem meets_RodTableAndStores :
    (∃ (s : State) (c : Site), Ready s ∧ coreEn s c.val = true ∧ r131 s c.val = true) ∧
    (∃ (s : State) (c : Site), Ready s ∧ coreEn s c.val = true ∧ r131 s c.val = true) ∧
    (∃ (s : State) (c : Site) (v : Word), Ready s ∧ Takes s (seqPage c.val / 4096) ∧ r131 s c.val = true ∧ bit v 31 = true ∧
      fld v 10 0 + fld v 26 16 ≤ 2047) ∧
    (∃ (s : State) (c : Site) (a : Nat) (n : Nat), Ready s ∧ bit (rd s (seqPage c.val + 0x1A8)) 30 = true ∧
      a = (rd64 s (seqPage c.val + 0x1A0)).toNat ∧ n = fld (rd s (seqPage c.val + 0x1A8)) 26 16 + 1 ∧
      (pageParts a (16 * n)).all (fun p => decide (judge s (herdNo s c.val) p.1 false ≠ .waits)) = true) ∧
    (∃ (s : State) (c : Site) (v : Word), Ready s ∧ Takes s (corePage c.val / 4096) ∧ bit v 0 = true) ∧
    (∃ (s : State) (c : Site), Ready s ∧ coreAvail s c.val = true ∧ bit (rd s (corePage c.val + 0x108)) 0 = true) :=
  ⟨⟨(idle : State), (0 : Site), by and_intros <;> decide +kernel⟩,
   ⟨(withRow idle 1 0 1 2 3 4 : State), (1 : Site), by and_intros <;> decide +kernel⟩,
   ⟨(idle : State), (0 : Site), (BitVec.ofNat 32 (0x80000000 + 2047 * 65536) : Word), by and_intros <;> decide +kernel⟩,
   ⟨(put (poke (withPage idle 5 1 2) (65536 * 2) [1, 2, 3, 4, 5, 6, 7, 8, 9, 10, 11, 12, 13, 14, 15, 16]) [(seqPage 0 + 0x1A0, 65536 * 5), (seqPage 0 + 0x1A8, BitVec.ofNat 32 (0x40000000 + 65536 + 2046))] : State),
      (0 : Site), (65536 * 5 : Nat), (2 : Nat), by and_intros <;> decide +kernel⟩,
   ⟨(withCore idle 0 { CoreX.clear with rowCache := [(3, 5)] } : State), (0 : Site), (3 : Word), by and_intros <;> decide +kernel⟩,
   ⟨(withCore (put idle [(corePage 0 + 0x108, 1)]) 0 { CoreX.clear with scrubPos := 4095 } : State), (0 : Site), by and_intros <;> decide +kernel⟩⟩

/-- States and operands that meet the hypotheses of WaitsRegisterAndEnd. -/
theorem meets_WaitsRegisterAndEnd :
    (∃ (s : State) (c : Site) (f : Cell), Ready s ∧ rowVerdict s c.val f ≠ .bad ∧ canIssue s c.val = true ∧ (coreX s c.val).released = false ∧
      sopAt s c.val = 6) ∧
    (∃ (s : State) (c : Site) (f : Cell), Ready s ∧ rowVerdict s c.val f ≠ .bad ∧ canIssue s c.val = true ∧ (coreX s c.val).released = false ∧
      sopAt s c.val = 6) ∧
    (∃ (s : State) (c : Site) (f : Cell), Ready s ∧ rowVerdict s c.val f ≠ .bad ∧ canIssue s c.val = true ∧ (coreX s c.val).released = false ∧
      sopAt s c.val = 7) ∧
    (∃ (s : State) (c : Site) (f : Cell), Ready s ∧ rowVerdict s c.val f ≠ .bad ∧ canIssue s c.val = true ∧ (coreX s c.val).released = false ∧
      sopAt s c.val = 8) ∧
    (∃ (s : State) (c : Site) (f : Cell), Ready s ∧ rowVerdict s c.val f ≠ .bad ∧ canIssue s c.val = true ∧ (coreX s c.val).released = true ∧
      RowReady s c.val 6 false) ∧
    (∃ (s : State) (c : Site) (f : Cell), Ready s ∧ rowVerdict s c.val f ≠ .bad ∧ canIssue s c.val = true ∧ (coreX s c.val).released = true ∧
      RowReady s c.val 7 false) ∧
    (∃ (s : State) (c : Site) (f : Cell), Ready s ∧ rowVerdict s c.val f ≠ .bad ∧ canIssue s c.val = true ∧ (coreX s c.val).released = true ∧
      RowReady s c.val 8 false) ∧
    (∃ (s : State) (c : Site) (f : Nat) (i : Nat) (clear : Bool) (rest : List Payload), Ready s ∧ (coreX s c.val).inbox = .register f i clear :: rest ∧
      f < 256 ∧ flagHeld s c.val f = false) ∧
    (∃ (s : State) (c : Site) (rest : List Payload), Ready s ∧ (coreX s c.val).inbox = .release :: rest ∧ waitPending s c.val = true) ∧
    (∃ (s : State) (c : Site), Ready s ∧ (coreX s c.val).inbox = [] ∧ waitPending s c.val = true ∧ waitKind s c.val = 2 ∧
      cntValue s c.val (waitObj s c.val % 32) = fld (rd s (waitReg c.val)) 23 8) ∧
    (∃ (s : State) (c : Site), Ready s ∧ waitPending s c.val = true ∧ waitKind s c.val < 2 ∧ (coreX s c.val).released = false ∧
      (coreX s c.val).cancelling = false ∧ fld (ctlWordAt s c.val) 19 11 ≠ 0 ∧
      1024 * fld (ctlWordAt s c.val) 19 11 ≤ (rd s (tlyPage c.val + 0x248)).toNat ∧ waitsAway s c.val = false) ∧
    (∃ (s : State) (c : Site), Ready s ∧ waitPending s c.val = true ∧ waitKind s c.val < 2 ∧ (coreX s c.val).released = false ∧
      (coreX s c.val).cancelling = false ∧ fld (ctlWordAt s c.val) 19 11 ≠ 0 ∧
      1024 * fld (ctlWordAt s c.val) 19 11 ≤ (rd s (tlyPage c.val + 0x248)).toNat ∧ waitsAway s c.val = true) ∧
    (∃ (s : State) (c : Site) (f : Nat) (i : Nat) (src : Nat) (clear : Bool) (rest : List Payload) (from_ : List Nat), Ready s ∧
      (coreX s c.val).inbox = .cancel f i clear false :: rest ∧ (coreX s c.val).inboxFrom = src :: from_) ∧
    (∃ (s : State) (c : Site) (f : Nat) (i : Nat) (src : Nat) (clear : Bool) (rest : List Payload) (from_ : List Nat), Ready s ∧
      (coreX s c.val).inbox = .cancel f i clear false :: rest ∧ (coreX s c.val).inboxFrom = src :: from_) ∧
    (∃ (s : State) (c : Site) (f : Nat) (clear : Bool) (released : Bool) (rest : List Payload), Ready s ∧
      (coreX s c.val).inbox = .cancelAnswer f clear released :: rest ∧ (coreX s c.val).crossed = 0 ∧ (coreX s c.val).cancelling = true ∧
      waitPending s c.val = true) ∧
    (∃ (s : State) (c : Site) (f : Nat) (clear : Bool) (released : Bool) (rest : List Payload), Ready s ∧
      (coreX s c.val).inbox = .cancelAnswer f clear released :: rest ∧ (coreX s c.val).crossed = 0 ∧ (coreX s c.val).cancelling = true ∧
      waitPending s c.val = true) ∧
    (∃ (s : State) (c : Site) (f : Nat) (clear : Bool) (released : Bool) (rest : List Payload), Ready s ∧
      (coreX s c.val).inbox = .cancelAnswer f clear released :: rest ∧ 0 < (coreX s c.val).crossed) :=
  ⟨⟨(withRow running 0 0 (6 * 2 ^ 28 + 5 * 2 ^ 20) 0 0 0 : State), (0 : Site), (.good : Cell), by and_intros <;> decide +kernel⟩,
   ⟨(withRow running 1 0 (6 * 2 ^ 28 + 255 * 2 ^ 20) 0 0 0 : State), (1 : Site), (.good : Cell), by and_intros <;> decide +kernel⟩,
   ⟨(put (withRow running 0 0 (7 * 2 ^ 28 + 5 * 2 ^ 20) 0 0 0) [(tlyPage 0 + 0x248, 9)] : State), (0 : Site), (.good : Cell),
      by and_intros <;> decide +kernel⟩,
   ⟨(withRow running 0 0 (8 * 2 ^ 28 + 31 * 2 ^ 23 + 65535 * 128) 0 0 0 : State), (0 : Site), (.good : Cell), by and_intros <;> decide +kernel⟩,
   ⟨(withCore (withRow running 0 0 (6 * 2 ^ 28 + 5 * 2 ^ 20) 0 0 (8 * 2 ^ 27 + 3 * 256)) 0 { CoreX.clear with released := true } : State),
      (0 : Site), (.good : Cell), by and_intros <;> decide +kernel⟩,
   ⟨(withCore (withRow running 0 0 (7 * 2 ^ 28 + 5 * 2 ^ 20) 0 0 (8 * 2 ^ 27 + 3 * 256)) 0 { CoreX.clear with released := true } : State),
      (0 : Site), (.good : Cell), by and_intros <;> decide +kernel⟩,
   ⟨(withCore (withRow running 0 0 (8 * 2 ^ 28 + 5 * 2 ^ 20) 0 0 (8 * 2 ^ 27 + 3 * 256)) 0 { CoreX.clear with released := true } : State),
      (0 : Site), (.good : Cell), by and_intros <;> decide +kernel⟩,
   ⟨(withCore running 0 { CoreX.clear with inbox := [.register 255 1 true, .release], inboxFrom := [1, 1] } : State), (0 : Site), (255 : Nat),
      (1 : Nat), (true : Bool), ([.release] : List Payload), by and_intros <;> decide +kernel⟩,
   ⟨(put (withCore (withHerd up 1 (herdOn [0, 1]) 4) 1 { CoreX.clear with inbox := [.release], inboxFrom := [0] }) [(waitReg 1, 0x800000FF)] : State),
      (1 : Site), ([] : List Payload), by and_intros <;> decide +kernel⟩,
   ⟨(put (withHerd up 1 (herdOn [0, 1]) 4) [(waitReg 1, BitVec.ofNat 32 (0x80000000 + 2 * 2 ^ 29 + 7 * 256 + 31)), (cntAddr 1 31, 7)] : State),
      (1 : Site), by and_intros <;> decide +kernel⟩,
   ⟨(put (withRow (withHerd up 1 (herdOn [0, 1]) 4) 0 3 (6 * 2 ^ 28 + 5 * 2 ^ 20 + 511 * 2048 + 2047) 0 0 0) [(seqPage 0 + 0x118, 3), (waitReg 0, 0x80000005), (tlyPage 0 + 0x248, 523264)] : State),
      (0 : Site), by and_intros <;> decide +kernel⟩,
   ⟨(put (withRow (withHerd up 1 (herdOn [0, 1]) 4) 1 3 (7 * 2 ^ 28 + 224 * 2 ^ 20 + 1 * 2048 + 9) 0 0 0) [(seqPage 1 + 0x118, 3), (waitReg 1, 0xA00000E0), (tlyPage 1 + 0x248, 1024)] : State),
      (1 : Site), by and_intros <;> decide +kernel⟩,
   ⟨(withCore running 0 { CoreX.clear with waiters := [⟨224, 1, true⟩], inbox := [.cancel 224 1 true false], inboxFrom := [1] } : State), (0 : Site),
      (224 : Nat), (1 : Nat), (1 : Nat), (true : Bool), ([] : List Payload), ([] : List Nat), by and_intros <;> decide +kernel⟩,
   ⟨(withCore running 0 { CoreX.clear with waiters := [⟨225, 1, true⟩], inbox := [.cancel 224 1 true false], inboxFrom := [1] } : State), (0 : Site),
      (224 : Nat), (1 : Nat), (1 : Nat), (true : Bool), ([] : List Payload), ([] : List Nat), by and_intros <;> decide +kernel⟩,
   ⟨(put (withCore (withRow (withHerd up 1 (herdOn [0, 1]) 4) 1 3 (7 * 2 ^ 28 + 224 * 2 ^ 20 + 1 * 2048 + 9) 0 0 0) 1 { CoreX.clear with cancelling := true, inbox := [.cancelAnswer 224 true false], inboxFrom := [0] }) [(seqPage 1 + 0x118, 3), (waitReg 1, 0xA00000E0)] : State),
      (1 : Site), (224 : Nat), (true : Bool), (false : Bool), ([] : List Payload), by and_intros <;> decide +kernel⟩,
   ⟨(put (withCore (withRow (withHerd up 1 (herdOn [0, 1]) 4) 1 3 (7 * 2 ^ 28 + 224 * 2 ^ 20 + 1 * 2048 + 9) 0 0 0) 1 { CoreX.clear with cancelling := true, inbox := [.cancelAnswer 224 true true], inboxFrom := [0] }) [(seqPage 1 + 0x118, 3), (waitReg 1, 0xA00000E0)] : State),
      (1 : Site), (224 : Nat), (true : Bool), (true : Bool), ([] : List Payload), by and_intros <;> decide +kernel⟩,
   ⟨(put (withCore (withRow (withHerd up 1 (herdOn [0, 1]) 4) 1 3 (7 * 2 ^ 28 + 224 * 2 ^ 20 + 1 * 2048 + 9) 0 0 0) 1 { CoreX.clear with crossed := 2, cancelling := true, inbox := [.cancelAnswer 224 true false], inboxFrom := [0] }) [(seqPage 1 + 0x118, 3), (waitReg 1, 0xA00000E0)] : State),
      (1 : Site), (224 : Nat), (true : Bool), (false : Bool), ([] : List Payload), by and_intros <;> decide +kernel⟩⟩

/-- States and operands that meet the hypotheses of Tallies. -/
theorem meets_Tallies :
    (∃ (s : State) (c : Site) (i : Issued), Ready s ∧ nextToStart s c.val 3 0x08 = some i ∧ tallyHeld s c.val i = false ∧ bit i.word 26 = false ∧
      fld i.word 15 8 < 224 ∧ waitersOn s c.val (fld i.word 15 8) = []) ∧
    (∃ (s : State) (c : Site) (i : Issued), Ready s ∧ nextToStart s c.val 3 0x09 = some i ∧ tallyHeld s c.val i = false ∧ bit i.word 26 = false ∧
      fld i.word 15 8 < 224) ∧
    (∃ (s : State) (c : Site) (i : Issued), Ready s ∧ nextToStart s c.val 3 0x0A = some i ∧ tallyHeld s c.val i = false ∧ bit i.word 26 = false) ∧
    (∃ (s : State) (c : Site) (i : Issued), Ready s ∧ tallyHeld s c.val i = false ∧ tallyLocal s c.val i = false ∧ nextToStart s c.val 3 0x08 = some i) ∧
    (∃ (s : State) (c : Site) (i : Issued), Ready s ∧ tallyHeld s c.val i = false ∧ tallyLocal s c.val i = false ∧ nextToStart s c.val 3 0x09 = some i) ∧
    (∃ (s : State) (c : Site) (i : Issued), Ready s ∧ tallyHeld s c.val i = false ∧ tallyLocal s c.val i = false ∧ nextToStart s c.val 3 0x0A = some i) ∧
    (∃ (s : State) (c : Site) (f : Nat) (row : Nat) (src : Nat) (d : Byte) (step : Byte) (rest : List Payload) (from_ : List Nat), Ready s ∧
      (coreX s c.val).inbox = .tally 0 f d step true row :: rest ∧ (coreX s c.val).inboxFrom = src :: from_ ∧ fenced s (tlyPage c.val) = false ∧
      f < 224 ∧ waitersOn s c.val f = []) ∧
    (∃ (s : State) (c : Site) (k : Fin 3) (f : Nat) (row : Nat) (src : Nat) (d : Byte) (step : Byte) (rest : List Payload) (from_ : List Nat), Ready s ∧
      (coreX s c.val).inbox = .tally k f d step true row :: rest ∧ (coreX s c.val).inboxFrom = src :: from_ ∧ fenced s (tlyPage c.val) = true) ∧
    (∃ (s : State) (c : Site) (i : Issued) (row : Nat) (fenced_ : Bool) (rest : List Payload), Ready s ∧
      (coreX s c.val).inbox = .tallyAck row fenced_ :: rest ∧
      (coreX s c.val).issued.find? (fun i => decide (i.part = 3) && i.started && decide (i.row = row) && decide (8 ≤ opOf 3 i.word)) = some i) ∧
    (∃ (s : State) (c : Site) (j : Nat) (v : Bool) (rest : List Payload), Ready s ∧ (coreX s c.val).inbox = .mirror j v :: rest) ∧
    (∃ (s : State) (c : Site) (k : Fin 8), Ready s ∧ Takes s (tlyPage c.val / 4096) ∧ k.val < 7 ∧ (coreX s c.val).waiters = []) ∧
    (∃ (s : State) (c : Site) (k : Fin 8), Ready s ∧ Takes s (tlyPage c.val / 4096) ∧ k.val < 7) :=
  ⟨⟨(withCore running 0 { CoreX.clear with issued := [ins 0 3 (8 * 2 ^ 27 + 223 * 256)] } : State), (0 : Site),
      (ins 0 3 (8 * 2 ^ 27 + 223 * 256) : Issued), by and_intros <;> decide +kernel⟩,
   ⟨(put (withCore running 0 { CoreX.clear with issued := [ins 0 3 (9 * 2 ^ 27)] }) [(flagAddr 0 0, 1)] : State), (0 : Site),
      (ins 0 3 (9 * 2 ^ 27) : Issued), by and_intros <;> decide +kernel⟩,
   ⟨(put (withCore running 0 { CoreX.clear with issued := [ins 0 3 (10 * 2 ^ 27 + 31 * 256 + 0xFF)] }) [(cntAddr 0 31, 0)] : State), (0 : Site),
      (ins 0 3 (10 * 2 ^ 27 + 31 * 256 + 0xFF) : Issued), by and_intros <;> decide +kernel⟩,
   ⟨(withCore running 0 { CoreX.clear with issued := [ins 0 3 (8 * 2 ^ 27 + 2 ^ 26 + 65536 + 5 * 256)] } : State), (0 : Site),
      (ins 0 3 (8 * 2 ^ 27 + 2 ^ 26 + 65536 + 5 * 256) : Issued), by and_intros <;> decide +kernel⟩,
   ⟨(withCore running 0 { CoreX.clear with issued := [ins 0 3 (9 * 2 ^ 27 + 2 ^ 26 + 65536 + 5 * 256)] } : State), (0 : Site),
      (ins 0 3 (9 * 2 ^ 27 + 2 ^ 26 + 65536 + 5 * 256) : Issued), by and_intros <;> decide +kernel⟩,
   ⟨(withCore running 0 { CoreX.clear with issued := [ins 0 3 (10 * 2 ^ 27 + 2 ^ 26 + 65536 + 5 * 256)] } : State), (0 : Site),
      (ins 0 3 (10 * 2 ^ 27 + 2 ^ 26 + 65536 + 5 * 256) : Issued), by and_intros <;> decide +kernel⟩,
   ⟨(withCore running 0 { CoreX.clear with inbox := [.tally 0 223 0 0 true 6], inboxFrom := [1] } : State), (0 : Site), (223 : Nat), (6 : Nat),
      (1 : Nat), (0 : Byte), (0 : Byte), ([] : List Payload), ([] : List Nat), by and_intros <;> decide +kernel⟩,
   ⟨(put (withCore running 0 { CoreX.clear with inbox := [.tally 2 3 9 0 true 6], inboxFrom := [1] }) [(tlyPage 0 + 0x10, 4)] : State), (0 : Site),
      (2 : Fin 3), (3 : Nat), (6 : Nat), (1 : Nat), (9 : Byte), (0 : Byte), ([] : List Payload), ([] : List Nat), by and_intros <;> decide +kernel⟩,
   ⟨(withCore running 0 { CoreX.clear with issued := [{ ins 0 3 (8 * 2 ^ 27 + 2 ^ 26) with started := true, row := 6 }], inbox := [.tallyAck 6 true], inboxFrom := [1] } : State),
      (0 : Site), ({ ins 0 3 (8 * 2 ^ 27 + 2 ^ 26) with started := true, row := 6 } : Issued), (6 : Nat), (true : Bool), ([] : List Payload),
      by and_intros <;> decide +kernel⟩,
   ⟨(withCore running 1 { CoreX.clear with inbox := [.mirror 31 true], inboxFrom := [0] } : State), (1 : Site), (31 : Nat), (true : Bool),
      ([] : List Payload), by and_intros <;> decide +kernel⟩,
   ⟨(put running [(flagAddr 0 0, 0x80000000)] : State), (0 : Site), (6 : Fin 8), by and_intros <;> decide +kernel⟩,
   ⟨(put running [(flagAddr 0 0, 0x80000001)] : State), (0 : Site), (0 : Fin 8), by and_intros <;> decide +kernel⟩⟩

/-- States and operands that meet the hypotheses of Products. -/
theorem meets_Products :
    (∃ (s : State) (c : Site) (i : Issued), Ready s ∧ nextToStart s c.val 1 1 = some i ∧ (coreX s c.val).cube = none) ∧
    (∃ (s : State) (c : Site) (i : Issued), Ready s ∧ nextToStart s c.val 1 1 = some i ∧ (coreX s c.val).cube ≠ none ∧ (coreX s c.val).cubeWait = none) ∧
    (∃ (s : State) (c : Site) (i : Issued), Ready s ∧ nextToStart s c.val 1 2 = some i ∧ (coreX s c.val).cube = none) ∧
    (∃ (s : State) (c : Site) (i : Issued), Ready s ∧ nextToStart s c.val 1 2 = some i ∧ (coreX s c.val).cube ≠ none ∧ (coreX s c.val).cubeWait = none) ∧
    (∃ (s : State) (c : Site) (i : Issued), Ready s ∧ nextDeferred s c.val = some i) ∧
    (∃ (s : State) (c : Site) (i : Issued), Ready s ∧ nextDeferred s c.val = none ∧ nextToStart s c.val 1 3 = some i ∧ untrained i = true ∧
      ((cmmMask i.word = 0 ∨ i.trained ≠ none)) ∧ (coreX s c.val).cube = none) ∧
    (∃ (s : State) (c : Site) (i : Issued), Ready s ∧ nextDeferred s c.val = none ∧ nextToStart s c.val 1 3 = some i ∧ untrained i = true ∧
      ((cmmMask i.word = 0 ∨ i.trained ≠ none)) ∧ (coreX s c.val).cube ≠ none) ∧
    (∃ (s : State) (c : Site) (i : Issued), Ready s ∧ nextDeferred s c.val = none ∧ nextToStart s c.val 1 3 = some i ∧ untrained i = false ∧
      ((cmmMask i.word = 0 ∨ i.trained ≠ none)) ∧ (coreX s c.val).cube = none) ∧
    (∃ (s : State) (c : Site) (i : Issued), Ready s ∧ nextDeferred s c.val = none ∧ nextToStart s c.val 1 3 = some i ∧ untrained i = false ∧
      ((cmmMask i.word = 0 ∨ i.trained ≠ none)) ∧ (coreX s c.val).cube ≠ none ∧ (coreX s c.val).cubeWait = none) ∧
    (∃ (s : State) (c : Site) (j : CubeJob), Ready s ∧ (coreX s c.val).cube = some j ∧ j.step + 1 < j.steps) ∧
    (∃ (s : State) (c : Site) (j : CubeJob), Ready s ∧ (coreX s c.val).cube = some j ∧ j.steps ≤ j.step + 1) ∧
    (∃ (s : State) (c : Site) (j : CubeJob), Ready s ∧ (coreX s c.val).cube = none ∧ (coreX s c.val).dwqCur = some j ∧
      (0 < j.step ∨ dwqMay s c.val = true) ∧ j.step + 1 < j.steps) ∧
    (∃ (s : State) (c : Site) (j : CubeJob), Ready s ∧ (coreX s c.val).cube = none ∧ (coreX s c.val).dwqCur = some j ∧
      (0 < j.step ∨ dwqMay s c.val = true) ∧ j.steps ≤ j.step + 1) ∧
    (∃ (s : State) (c : Site) (j : CubeJob), Ready s ∧ (coreX s c.val).cube = none ∧ (coreX s c.val).dwqCur = some j ∧ j.step = 0 ∧
      dwqMay s c.val = false) :=
  ⟨⟨(busy [(tile (1 * 2 ^ 27) (tcw 1 1 0 16 32 0 40 8) (tcw 1 1 0 32 32 8 41 8) : Issued)] : State), (0 : Site),
      (tile (1 * 2 ^ 27) (tcw 1 1 0 16 32 0 40 8) (tcw 1 1 0 32 32 8 41 8) : Issued), by and_intros <;> decide +kernel⟩,
   ⟨(withCore running 199 { CoreX.clear with issued := [(tile (1 * 2 ^ 27) (tcw 1 1 0 16 32 0 40 8) (tcw 1 1 0 32 32 8 41 8) : Issued)], cube := some ⟨ins 6 1 (2 ^ 27), 0, 2⟩ } : State),
      (199 : Site), (tile (1 * 2 ^ 27) (tcw 1 1 0 16 32 0 40 8) (tcw 1 1 0 32 32 8 41 8) : Issued), by and_intros <;> decide +kernel⟩,
   ⟨(busy [(tile (2 * 2 ^ 27) (tcw 1 1 0 16 32 0 40 8) (tcw 1 1 1 32 32 8 41 8) : Issued)] : State), (0 : Site),
      (tile (2 * 2 ^ 27) (tcw 1 1 0 16 32 0 40 8) (tcw 1 1 1 32 32 8 41 8) : Issued), by and_intros <;> decide +kernel⟩,
   ⟨(withCore running 0 { CoreX.clear with issued := [(tile (2 * 2 ^ 27) (tcw 1 1 0 16 32 0 40 8) (tcw 1 1 1 32 32 8 41 8) : Issued)], cube := some ⟨ins 6 1 (2 ^ 27), 0, 2⟩ } : State),
      (0 : Site), (tile (2 * 2 ^ 27) (tcw 1 1 0 16 32 0 40 8) (tcw 1 1 1 32 32 8 41 8) : Issued), by and_intros <;> decide +kernel⟩,
   ⟨(busy [(tile (3 * 2 ^ 27 + 2 ^ 17) (tcw 1 1 0 16 32 0 40 8) (tcw 1 1 1 32 32 8 41 8) : Issued)] : State), (0 : Site),
      (tile (3 * 2 ^ 27 + 2 ^ 17) (tcw 1 1 0 16 32 0 40 8) (tcw 1 1 1 32 32 8 41 8) : Issued), by and_intros <;> decide +kernel⟩,
   ⟨(busy [({ tile (3 * 2 ^ 27 + 2 ^ 11) (tcw 1 1 0 16 32 0 40 8) (tcw 1 1 1 32 32 8 41 8) with trained := some 0 } : Issued)] : State), (0 : Site),
      ({ tile (3 * 2 ^ 27 + 2 ^ 11) (tcw 1 1 0 16 32 0 40 8) (tcw 1 1 1 32 32 8 41 8) with trained := some 0 } : Issued),
      by and_intros <;> decide +kernel⟩,
   ⟨(withCore running 0 { CoreX.clear with issued := [({ tile (3 * 2 ^ 27 + 2 ^ 11) (tcw 1 1 0 16 32 0 40 8) (tcw 1 1 1 32 32 8 41 8) with trained := some 0 } : Issued)], cube := some ⟨ins 3 1 0, 0, 4⟩ } : State),
      (0 : Site), ({ tile (3 * 2 ^ 27 + 2 ^ 11) (tcw 1 1 0 16 32 0 40 8) (tcw 1 1 1 32 32 8 41 8) with trained := some 0 } : Issued),
      by and_intros <;> decide +kernel⟩,
   ⟨(busy [({ tile (3 * 2 ^ 27 + 2 ^ 11) (tcw 1 1 0 16 32 0 40 8) (tcw 1 1 1 32 32 8 41 8) with trained := some 5 } : Issued)] : State), (0 : Site),
      ({ tile (3 * 2 ^ 27 + 2 ^ 11) (tcw 1 1 0 16 32 0 40 8) (tcw 1 1 1 32 32 8 41 8) with trained := some 5 } : Issued),
      by and_intros <;> decide +kernel⟩,
   ⟨(withCore running 0 { CoreX.clear with issued := [({ tile (3 * 2 ^ 27 + 2 ^ 11) (tcw 1 1 0 16 32 0 40 8) (tcw 1 1 1 32 32 8 41 8) with trained := some 5 } : Issued)], cube := some ⟨ins 6 1 (2 ^ 27), 0, 2⟩ } : State),
      (0 : Site), ({ tile (3 * 2 ^ 27 + 2 ^ 11) (tcw 1 1 0 16 32 0 40 8) (tcw 1 1 1 32 32 8 41 8) with trained := some 5 } : Issued),
      by and_intros <;> decide +kernel⟩,
   ⟨(withCore running 0 { CoreX.clear with issued := [(⟨tile (1 * 2 ^ 27 + 2 ^ 18) (tcw 9 0 0 8 4 0 0 8) (tcw 9 0 0 8 4 8 0 8), 0, 2⟩ : CubeJob).insn], cube := some (⟨tile (1 * 2 ^ 27 + 2 ^ 18) (tcw 9 0 0 8 4 0 0 8) (tcw 9 0 0 8 4 8 0 8), 0, 2⟩ : CubeJob) } : State),
      (0 : Site), (⟨tile (1 * 2 ^ 27 + 2 ^ 18) (tcw 9 0 0 8 4 0 0 8) (tcw 9 0 0 8 4 8 0 8), 0, 2⟩ : CubeJob), by and_intros <;> decide +kernel⟩,
   ⟨((Upd.vreg 0 (BitVec.ofNat 512 0x38)).apply (withCore running 0 { CoreX.clear with issued := [(⟨tile (1 * 2 ^ 27 + 2 ^ 18) (tcw 1 1 0 2 9 0 40 8) (tcw 1 1 0 2 9 8 41 8), 1, 2⟩ : CubeJob).insn], cube := some (⟨tile (1 * 2 ^ 27 + 2 ^ 18) (tcw 1 1 0 2 9 0 40 8) (tcw 1 1 0 2 9 8 41 8), 1, 2⟩ : CubeJob) }) : State),
      (0 : Site), (⟨tile (1 * 2 ^ 27 + 2 ^ 18) (tcw 1 1 0 2 9 0 40 8) (tcw 1 1 0 2 9 8 41 8), 1, 2⟩ : CubeJob), by and_intros <;> decide +kernel⟩,
   ⟨(withCore running 0 { CoreX.clear with issued := [(⟨tile (3 * 2 ^ 27 + 2 ^ 17) (tcw 1 1 0 2 9 0 40 8) (tcw 1 1 0 2 9 8 41 8), 0, 2⟩ : CubeJob).insn], dwqCur := some (⟨tile (3 * 2 ^ 27 + 2 ^ 17) (tcw 1 1 0 2 9 0 40 8) (tcw 1 1 0 2 9 8 41 8), 0, 2⟩ : CubeJob), dwqCarry := true } : State),
      (0 : Site), (⟨tile (3 * 2 ^ 27 + 2 ^ 17) (tcw 1 1 0 2 9 0 40 8) (tcw 1 1 0 2 9 8 41 8), 0, 2⟩ : CubeJob), by and_intros <;> decide +kernel⟩,
   ⟨(withCore running 0 { CoreX.clear with issued := [(⟨tile (3 * 2 ^ 27 + 2 ^ 17) (tcw 1 1 0 2 9 0 40 8) (tcw 1 1 0 2 9 8 41 8), 1, 2⟩ : CubeJob).insn], dwqCur := some (⟨tile (3 * 2 ^ 27 + 2 ^ 17) (tcw 1 1 0 2 9 0 40 8) (tcw 1 1 0 2 9 8 41 8), 1, 2⟩ : CubeJob) } : State),
      (0 : Site), (⟨tile (3 * 2 ^ 27 + 2 ^ 17) (tcw 1 1 0 2 9 0 40 8) (tcw 1 1 0 2 9 8 41 8), 1, 2⟩ : CubeJob), by and_intros <;> decide +kernel⟩,
   ⟨(withCore running 0 { CoreX.clear with issued := [(⟨tile (3 * 2 ^ 27 + 2 ^ 17) (tcw 1 1 0 2 9 0 40 8) (tcw 1 1 0 2 9 8 41 8), 0, 2⟩ : CubeJob).insn], dwqCur := some (⟨tile (3 * 2 ^ 27 + 2 ^ 17) (tcw 1 1 0 2 9 0 40 8) (tcw 1 1 0 2 9 8 41 8), 0, 2⟩ : CubeJob) } : State),
      (0 : Site), (⟨tile (3 * 2 ^ 27 + 2 ^ 17) (tcw 1 1 0 2 9 0 40 8) (tcw 1 1 0 2 9 8 41 8), 0, 2⟩ : CubeJob), by and_intros <;> decide +kernel⟩⟩

/-- States and operands that meet the hypotheses of AccumulatorsAndQueue. -/
theorem meets_AccumulatorsAndQueue :
    (∃ (s : State) (c : Site) (st : CubeStep) (rest : List CubeStep), Ready s ∧ (coreX s c.val).pipe = st :: rest ∧ st.bank < 4 ∧
      (st.sums.map (·.1)).Nodup ∧ ((∀ p ∈ st.sums, p.1 < 512)) ∧ (coreX s c.val).accFlip = [] ∧ bit (rd s (cubePage c.val + 0x108)) 31 = false) ∧
    (∃ (s : State) (c : Site) (v : Word), Ready s ∧ Takes s (cubePage c.val / 4096) ∧ bit v 31 = true ∧ (39 ≤ fld v 29 24 ∨ (bit v 30 = true ∧
      38 ≤ fld v 29 24))) ∧
    (∃ (s : State) (c : Site) (v : Word), Ready s ∧ Takes s (cubePage c.val / 4096) ∧ (bit v 31 = false ∨ (fld v 29 24 < 39 ∧
      (bit v 30 = false ∨ fld v 29 24 < 38)))) ∧
    (∃ (s : State) (c : Site) (i : Issued) (found : List Cell), Ready s ∧
      (coreX s c.val).issued.find? (fun i => isCmm i && decide (cmmMask i.word ≠ 0) && i.trained.isNone && !i.faulted) = some i ∧
      NoneBad s c.val (maskWords s c.val i) found) ∧
    (∃ (s : State) (c : Site) (i : Issued), Ready s ∧
      (coreX s c.val).issued.find? (fun i => isDeferred i && i.started && !i.faulted && !((coreX s c.val).dwq.any (fun j => decide (j.insn.id = i.id)) || (coreX s c.val).dwqCur.any (fun j => decide (j.insn.id = i.id)))) = some i ∧
      fenced s (cubePage c.val) = false ∧ ((cmmMask i.word = 0 ∨ i.trained ≠ none)) ∧ i.trained ≠ some 0) ∧
    (∃ (s : State) (c : Site) (i : Issued), Ready s ∧
      (coreX s c.val).issued.find? (fun i => isDeferred i && (i.started || fenced s (cubePage c.val)) && !i.faulted && !((coreX s c.val).dwq.any (fun j => decide (j.insn.id = i.id)) || (coreX s c.val).dwqCur.any (fun j => decide (j.insn.id = i.id)))) = some i ∧
      fenced s (cubePage c.val) = true) ∧
    (∃ (s : State) (c : Site) (j : CubeJob) (js : List CubeJob), Ready s ∧ (coreX s c.val).dwqCur = none ∧ (coreX s c.val).cube = none ∧
      (coreX s c.val).dwq = j :: js ∧ (dwqConds s c.val ≠ [] ∨ inFill s c.val = true) ∧ fenced s (cubePage c.val) = false) :=
  ⟨⟨(withCore running 0 { CoreX.clear with pipe := [(⟨3, true, [(511, ⟨false, false, false, false, 3, -1⟩)]⟩ : CubeStep)] } : State), (0 : Site),
      (⟨3, true, [(511, ⟨false, false, false, false, 3, -1⟩)]⟩ : CubeStep), ([] : List CubeStep), by and_intros <;> decide +kernel⟩,
   ⟨(up : State), (0 : Site), (0xA7000000 : Word), by and_intros <;> decide +kernel⟩,
   ⟨(up : State), (0 : Site), (0xE5000123 : Word), by and_intros <;> decide +kernel⟩,
   ⟨(busy [(tile (3 * 2 ^ 27 + 2 ^ 11) (tcw 1 1 0 16 32 0 40 8) (tcw 1 1 1 32 32 8 41 8) : Issued)] : State), (0 : Site),
      (tile (3 * 2 ^ 27 + 2 ^ 11) (tcw 1 1 0 16 32 0 40 8) (tcw 1 1 1 32 32 8 41 8) : Issued), ([.corrected] : List Cell),
      by and_intros <;> decide +kernel⟩,
   ⟨(busy [({ tile (3 * 2 ^ 27 + 2 ^ 17 + 2 ^ 11) (tcw 1 1 0 16 32 0 40 8) (tcw 1 1 1 32 32 8 41 8) with trained := some 1, started := true } : Issued)] : State),
      (0 : Site),
      ({ tile (3 * 2 ^ 27 + 2 ^ 17 + 2 ^ 11) (tcw 1 1 0 16 32 0 40 8) (tcw 1 1 1 32 32 8 41 8) with trained := some 1, started := true } : Issued),
      by and_intros <;> decide +kernel⟩,
   ⟨(put (busy [({ tile (3 * 2 ^ 27 + 2 ^ 17 + 2 ^ 11) (tcw 1 1 0 16 32 0 40 8) (tcw 1 1 1 32 32 8 41 8) with trained := some 1 } : Issued)]) [(cubePage 0 + 0x10, 4)] : State),
      (0 : Site), ({ tile (3 * 2 ^ 27 + 2 ^ 17 + 2 ^ 11) (tcw 1 1 0 16 32 0 40 8) (tcw 1 1 1 32 32 8 41 8) with trained := some 1 } : Issued),
      by and_intros <;> decide +kernel⟩,
   ⟨(put (withCore running 0 { CoreX.clear with dwq := [(⟨{ tile (3 * 2 ^ 27 + 2 ^ 17) (tcw 1 1 0 16 32 0 40 8) (tcw 1 1 1 32 32 8 41 8) with started := true }, 0, 4⟩ : CubeJob)] , dwqCarry := true }) [(seqPage 0 + 0x104, 5)] : State),
      (0 : Site), (⟨{ tile (3 * 2 ^ 27 + 2 ^ 17) (tcw 1 1 0 16 32 0 40 8) (tcw 1 1 1 32 32 8 41 8) with started := true }, 0, 4⟩ : CubeJob),
      ([] : List CubeJob), by and_intros <;> decide +kernel⟩⟩

/-- States and operands that meet the hypotheses of LoadsAndConfiguration. -/
theorem meets_LoadsAndConfiguration :
    (∃ (s : State) (c : Site) (i : Issued), Ready s ∧ nextToStart s c.val 1 8 = some i ∧ tShapeOk i.tcA = true) ∧
    (∃ (s : State) (c : Site) (i : Issued), Ready s ∧ nextToStart s c.val 1 9 = some i) ∧
    (∃ (s : State) (c : Site) (i : Issued), Ready s ∧ nextToStart s c.val 2 1 = some i) ∧
    (∃ (s : State) (c : Site) (i : Issued), Ready s ∧ nextToStart s c.val 2 2 = some i) ∧
    (∃ (s : State) (c : Site) (n : Fin 8), Ready s ∧ Takes s (tilePage c.val / 4096) ∧ [0, 1, 6, 7, 8].contains (coreState s c.val) = true ∧
      tcPending s c.val n.val = none ∧ tcBusy s c.val n.val = false) ∧
    (∃ (s : State) (c : Site) (n : Fin 8), Ready s ∧ Takes s (tilePage c.val / 4096) ∧ [0, 1, 6, 7, 8].contains (coreState s c.val) = true ∧
      tcBusy s c.val n.val = true) ∧
    (∃ (s : State) (c : Site) (n : Fin 8) (v : DWord), Ready s ∧ tcPending s c.val n.val = some v ∧ tcBusy s c.val n.val = false) :=
  ⟨⟨((Upd.vreg 40 5).apply (busy [(tile (8 * 2 ^ 27) (tcw 1 1 0 16 32 0 40 8) 0 : Issued)]) : State), (0 : Site),
      (tile (8 * 2 ^ 27) (tcw 1 1 0 16 32 0 40 8) 0 : Issued), by and_intros <;> decide +kernel⟩,
   ⟨(busy [(tile (9 * 2 ^ 27) (tcw 1 1 0 16 32 0 40 8) 0 : Issued)] : State), (0 : Site), (tile (9 * 2 ^ 27) (tcw 1 1 0 16 32 0 40 8) 0 : Issued),
      by and_intros <;> decide +kernel⟩,
   ⟨(busy [(ins 3 2 (1 * 2 ^ 26) : Issued)] : State), (0 : Site), (ins 3 2 (1 * 2 ^ 26) : Issued), by and_intros <;> decide +kernel⟩,
   ⟨(busy [(ins 3 2 (2 * 2 ^ 26) : Issued)] : State), (0 : Site), (ins 3 2 (2 * 2 ^ 26) : Issued), by and_intros <;> decide +kernel⟩,
   ⟨(idle : State), (0 : Site), (7 : Fin 8), by and_intros <;> decide +kernel⟩,
   ⟨(put (busy [tile (8 * 2 ^ 27) 0 0]) [(seqPage 0 + 0x104, 7)] : State), (0 : Site), (0 : Fin 8), by and_intros <;> decide +kernel⟩,
   ⟨(withCore running 0 { CoreX.clear with tcPend := [(7, 0x123456789)] } : State), (0 : Site), (7 : Fin 8), (0x123456789 : DWord),
      by and_intros <;> decide +kernel⟩⟩

/-- States and operands that meet the hypotheses of TileRows. -/
theorem meets_TileRows :
    (∃ (s : State) (c : Site) (i : Issued) (found : List Cell), Ready s ∧
      (coreX s c.val).issued.find? (fun i => isTileOp i && i.started && !i.faulted) = some i ∧ bit i.word 3 = false ∧ i.cause = 0 ∧ opOf 1 i.word = 8 ∧
      NoneBad s c.val (wordsOf (tRowAddr i.tcA i.addr i.orow) (tRowBytes i.tcA i.orow)) found) ∧
    (∃ (s : State) (c : Site) (i : Issued) (found : List Cell), Ready s ∧
      (coreX s c.val).issued.find? (fun i => isTileOp i && i.started && !i.faulted) = some i ∧ bit i.word 3 = false ∧ i.cause = 0 ∧ opOf 1 i.word = 9 ∧
      tRowAddr i.tcA i.addr i.orow + tRowBytes i.tcA i.orow ≤ 1572864 ∧ NoneBad s c.val (partWords i.tcA (tRowAddr i.tcA i.addr i.orow) i.orow) found) :=
  ⟨⟨(busy [({ tile (8 * 2 ^ 27) (tcw 1 1 0 16 32 0 40 10) 0 with started := true, orow := 15, addr := 4 } : Issued)] : State), (0 : Site),
      ({ tile (8 * 2 ^ 27) (tcw 1 1 0 16 32 0 40 10) 0 with started := true, orow := 15, addr := 4 } : Issued), ([.corrected] : List Cell),
      by and_intros <;> decide +kernel⟩,
   ⟨(busy [({ tile (9 * 2 ^ 27) (tcw 1 1 0 16 31 0 40 10) 0 with started := true, orow := 3, addr := 4 } : Issued)] : State), (0 : Site),
      ({ tile (9 * 2 ^ 27) (tcw 1 1 0 16 31 0 40 10) 0 with started := true, orow := 3, addr := 4 } : Issued), ([.good] : List Cell),
      by and_intros <;> decide +kernel⟩⟩

/-- States and operands that meet the hypotheses of VectorAccesses. -/
theorem meets_VectorAccesses :
    (∃ (s : State) (c : Site) (k : Nat) (i : Issued) (found : List Cell), Ready s ∧
      ((coreX s c.val).issued.filter (fun i => decide (i.part = 2) && (decide (opOf 2 i.word = 1) || decide (opOf 2 i.word = 2)) && i.started && !i.faulted))[k]? = some i ∧
      opOf 2 i.word = 1 ∧ bit i.word 0 = false ∧ NoneBad s c.val (wordsOf (32 * i.addr) 64) found) ∧
    (∃ (s : State) (c : Site) (k : Nat) (i : Issued) (found : List Cell) (bs : List Byte), Ready s ∧
      ((coreX s c.val).issued.filter (fun i => decide (i.part = 2) && (decide (opOf 2 i.word = 1) || decide (opOf 2 i.word = 2)) && i.started && !i.faulted))[k]? = some i ∧
      opOf 2 i.word = 1 ∧ bit i.word 0 = true ∧ rcRead (after (rcParity c.val (32 * i.addr) 64 found) s) c.val (32 * i.addr) 64 = .ok bs) ∧
    (∃ (s : State) (c : Site) (k : Nat) (i : Issued), Ready s ∧
      ((coreX s c.val).issued.filter (fun i => decide (i.part = 2) && (decide (opOf 2 i.word = 1) || decide (opOf 2 i.word = 2)) && i.started && !i.faulted))[k]? = some i ∧
      opOf 2 i.word = 2 ∧ bit i.word 0 = false ∧ 32 * i.addr + 64 ≤ 1572864) ∧
    (∃ (s : State) (c : Site) (k : Nat) (i : Issued) (f : Nat) (b : Nat), Ready s ∧
      ((coreX s c.val).issued.filter (fun i => decide (i.part = 2) && (decide (opOf 2 i.word = 1) || decide (opOf 2 i.word = 2)) && i.started && !i.faulted))[k]? = some i ∧
      opOf 2 i.word = 2 ∧ bit i.word 0 = true ∧ i.addr % 2 = 0 ∧ judge s (herdNo s c.val) (i.addr / 2048) true = .frame f ∧
      b = 1024 * f + i.addr / 2 % 1024 ∧ mergeOf s b = none ∧ entryClean s (i.addr / 2048) = true) ∧
    (∃ (s : State) (c : Site) (k : Nat) (i : Issued) (l : Nat) (bs : List Byte), Ready s ∧
      ((coreX s c.val).issued.filter (fun i => decide (i.part = 2) && (decide (opOf 2 i.word = 1) || decide (opOf 2 i.word = 2)) && i.started && !i.faulted))[k]? = some i ∧
      opOf 2 i.word = 1 ∧ bit i.word 0 = true ∧ (linesOf (32 * i.addr) 64).contains l = true ∧ rcOn s c.val = true ∧ rcLine s c.val l = none ∧
      urRead s (herdNo s c.val) (128 * l) 128 = .ok bs ∧ (coreX s c.val).rowCache.length < 512) :=
  ⟨⟨((Upd.store 49151 5).apply (busy [({ ins 3 2 (1 * 2 ^ 26 + 63 * 2 ^ 20) with started := true, addr := 49150 } : Issued)]) : State), (0 : Site),
      (0 : Nat), ({ ins 3 2 (1 * 2 ^ 26 + 63 * 2 ^ 20) with started := true, addr := 49150 } : Issued), ([.good, .corrected] : List Cell),
      by and_intros <;> decide +kernel⟩,
   ⟨(poke (withPage (busy [({ ins 3 2 (1 * 2 ^ 26 + 63 * 2 ^ 20 + 1) with started := true, addr := 2 } : Issued)]) 0 1 512) (512 * 65536 + 64) [1, 2, 3] : State),
      (0 : Site), (0 : Nat), ({ ins 3 2 (1 * 2 ^ 26 + 63 * 2 ^ 20 + 1) with started := true, addr := 2 } : Issued), ([.good, .corrected] : List Cell),
      ([1, 2, 3] ++ List.replicate 61 0 : List Byte), by and_intros <;> decide +kernel⟩,
   ⟨((Upd.vreg 63 (BitVec.ofNat 512 (2 ^ 511 + 77))).apply (busy [({ ins 3 2 (2 * 2 ^ 26 + 63 * 2 ^ 20) with started := true, addr := 49150 } : Issued)]) : State),
      (0 : Site), (0 : Nat), ({ ins 3 2 (2 * 2 ^ 26 + 63 * 2 ^ 20) with started := true, addr := 49150 } : Issued), by and_intros <;> decide +kernel⟩,
   ⟨((Upd.vreg 63 (BitVec.ofNat 512 (2 ^ 511 + 77))).apply (withPage (busy [({ ins 3 2 (2 * 2 ^ 26 + 63 * 2 ^ 20 + 1) with started := true, addr := 2 } : Issued)]) 0 1 512) : State),
      (0 : Site), (0 : Nat), ({ ins 3 2 (2 * 2 ^ 26 + 63 * 2 ^ 20 + 1) with started := true, addr := 2 } : Issued), (512 : Nat), (1024 * 512 + 1 : Nat),
      by and_intros <;> decide +kernel⟩,
   ⟨(put (poke (withPage (busy [({ ins 3 2 (1 * 2 ^ 26 + 63 * 2 ^ 20 + 1) with started := true, addr := 2 } : Issued)]) 0 1 512) (512 * 65536 + 64) [1, 2, 3]) [] : State),
      (0 : Site), (0 : Nat), ({ ins 3 2 (1 * 2 ^ 26 + 63 * 2 ^ 20 + 1) with started := true, addr := 2 } : Issued), (0 : Nat),
      (List.replicate 64 0 ++ [1, 2, 3] ++ List.replicate 61 0 : List Byte), by and_intros <;> decide +kernel⟩⟩

/-- States and operands that meet the hypotheses of ElementArithmetic. -/
theorem meets_ElementArithmetic :
    (∃ (s : State) (c : Site) (i : Issued), Ready s ∧ (readsArith i.word).any (bankBusy s c.val) = false ∧ vuNext s c.val 0x11 = some i) ∧
    (∃ (s : State) (c : Site) (i : Issued), Ready s ∧ (readsArith i.word).any (bankBusy s c.val) = false ∧ vuNext s c.val 0x12 = some i) ∧
    (∃ (s : State) (c : Site) (i : Issued), Ready s ∧ (readsArith i.word).any (bankBusy s c.val) = false ∧ vuNext s c.val 0x13 = some i) ∧
    (∃ (s : State) (c : Site) (i : Issued), Ready s ∧ (readsArith i.word).any (bankBusy s c.val) = false ∧ vuNext s c.val 0x14 = some i) ∧
    (∃ (s : State) (c : Site) (i : Issued), Ready s ∧ (readsArith i.word).any (bankBusy s c.val) = false ∧ vuNext s c.val 0x15 = some i) ∧
    (∃ (s : State) (c : Site) (i : Issued), Ready s ∧ (readsArith i.word).any (bankBusy s c.val) = false ∧ vuNext s c.val 0x16 = some i) ∧
    (∃ (s : State) (c : Site) (i : Issued), Ready s ∧ (readsArith i.word).any (bankBusy s c.val) = false ∧ vuNext s c.val 0x10 = some i) :=
  ⟨⟨((Upd.vreg 2 (BitVec.ofNat 512 0x3F8000003F800000)).apply (busy [(ins 3 2 (0x11 * 2 ^ 26 + 5 * 2 ^ 20 + 2 * 2 ^ 13 + 3 * 64) : Issued)]) : State),
      (0 : Site), (ins 3 2 (0x11 * 2 ^ 26 + 5 * 2 ^ 20 + 2 * 2 ^ 13 + 3 * 64) : Issued), by and_intros <;> decide +kernel⟩,
   ⟨((Upd.acc 0 0x3F800000).apply (busy [(ins 3 2 (0x12 * 2 ^ 26 + 63 * 2 ^ 20 + 64 * 2 ^ 13 + 3 * 64) : Issued)]) : State), (0 : Site),
      (ins 3 2 (0x12 * 2 ^ 26 + 63 * 2 ^ 20 + 64 * 2 ^ 13 + 3 * 64) : Issued), by and_intros <;> decide +kernel⟩,
   ⟨((Upd.vreg 4 (BitVec.ofNat 512 0x3F8000003F800000)).apply (busy [(ins 3 2 (0x13 * 2 ^ 26 + 4 * 2 ^ 20 + 2 * 2 ^ 13 + 3 * 64) : Issued)]) : State),
      (0 : Site), (ins 3 2 (0x13 * 2 ^ 26 + 4 * 2 ^ 20 + 2 * 2 ^ 13 + 3 * 64) : Issued), by and_intros <;> decide +kernel⟩,
   ⟨((Upd.vreg 2 (BitVec.ofNat 512 0x3F8000003F800000)).apply (busy [(ins 3 2 (0x14 * 2 ^ 26 + 5 * 2 ^ 20 + 2 * 2 ^ 13 + 3 * 64 + 16) : Issued)]) : State),
      (0 : Site), (ins 3 2 (0x14 * 2 ^ 26 + 5 * 2 ^ 20 + 2 * 2 ^ 13 + 3 * 64 + 16) : Issued), by and_intros <;> decide +kernel⟩,
   ⟨((Upd.vreg 2 (BitVec.ofNat 512 0x3F8000003F800000)).apply (busy [(ins 3 2 (0x15 * 2 ^ 26 + 5 * 2 ^ 20 + 2 * 2 ^ 13 + 3 * 64 + 32) : Issued)]) : State),
      (0 : Site), (ins 3 2 (0x15 * 2 ^ 26 + 5 * 2 ^ 20 + 2 * 2 ^ 13 + 3 * 64 + 32) : Issued), by and_intros <;> decide +kernel⟩,
   ⟨((Upd.vreg 2 (BitVec.ofNat 512 0x3F8000003F800000)).apply (busy [(ins 3 2 (0x16 * 2 ^ 26 + 5 * 2 ^ 20 + 2 * 2 ^ 13 + 3 * 64 + 4) : Issued)]) : State),
      (0 : Site), (ins 3 2 (0x16 * 2 ^ 26 + 5 * 2 ^ 20 + 2 * 2 ^ 13 + 3 * 64 + 4) : Issued), by and_intros <;> decide +kernel⟩,
   ⟨(busy [ins 3 2 (0x10 * 2 ^ 26 + 5 * 2 ^ 20 + 2 * 2 ^ 13 + 3 * 64)] : State), (0 : Site),
      (ins 3 2 (0x10 * 2 ^ 26 + 5 * 2 ^ 20 + 2 * 2 ^ 13 + 3 * 64) : Issued), by and_intros <;> decide +kernel⟩⟩

/-- States and operands that meet the hypotheses of FunctionsAndReductions. -/
theorem meets_FunctionsAndReductions :
    (∃ (s : State) (c : Site) (i : Issued), Ready s ∧ vuNext s c.val 0x18 = some i ∧ bankBusy s c.val (vuVa i.word) = false) ∧
    (∃ (s : State) (c : Site) (i : Issued), Ready s ∧ vuNext s c.val 0x19 = some i ∧ bankBusy s c.val (vuVa i.word) = false ∧
      bankBusy s c.val (vuVb i.word) = false) ∧
    (∃ (s : State) (c : Site) (i : Issued), Ready s ∧ vuNext s c.val 0x1A = some i ∧ (readsRed i.word).any (bankBusy s c.val) = false) ∧
    (∃ (s : State) (c : Site) (i : Issued), Ready s ∧ vuNext s c.val 0x1A = some i ∧ (readsRed i.word).any (bankBusy s c.val) = false) ∧
    (∃ (s : State) (c : Site) (i : Issued), Ready s ∧ vuNext s c.val 0x1B = some i) ∧
    (∃ (s : State) (c : Site) (i : Issued), Ready s ∧ vuNext s c.val 0x1C = some i) ∧
    (∃ (s : State) (c : Site) (i : Issued), Ready s ∧ vuNext s c.val 0x1D = some i ∧ bankBusy s c.val (vuVa i.word) = false) :=
  ⟨⟨((Upd.vreg 2 (BitVec.ofNat 512 0x3F8000003F800000)).apply (busy [(ins 3 2 (0x18 * 2 ^ 26 + 5 * 2 ^ 20 + 2 * 2 ^ 13 + 1) : Issued)]) : State),
      (0 : Site), (ins 3 2 (0x18 * 2 ^ 26 + 5 * 2 ^ 20 + 2 * 2 ^ 13 + 1) : Issued), by and_intros <;> decide +kernel⟩,
   ⟨((Upd.vreg 2 (BitVec.ofNat 512 0x3F8000003F800000)).apply (busy [(ins 3 2 (0x19 * 2 ^ 26 + 5 * 2 ^ 20 + 2 * 2 ^ 13 + 3 * 64 + 1) : Issued)]) : State),
      (0 : Site), (ins 3 2 (0x19 * 2 ^ 26 + 5 * 2 ^ 20 + 2 * 2 ^ 13 + 3 * 64 + 1) : Issued), by and_intros <;> decide +kernel⟩,
   ⟨((Upd.vreg 2 (BitVec.ofNat 512 0x3F8000003F800000)).apply (busy [(ins 3 2 (0x1A * 2 ^ 26 + 5 * 2 ^ 20 + 2 * 2 ^ 13 + 3 * 64 + 4 + 3) : Issued)]) : State),
      (0 : Site), (ins 3 2 (0x1A * 2 ^ 26 + 5 * 2 ^ 20 + 2 * 2 ^ 13 + 3 * 64 + 4 + 3) : Issued), by and_intros <;> decide +kernel⟩,
   ⟨((Upd.vreg 2 (BitVec.ofNat 512 0x3F8000003F800000)).apply (busy [(ins 3 2 (0x1A * 2 ^ 26 + 5 * 2 ^ 20 + 2 * 2 ^ 13 + 3 * 64 + 1) : Issued)]) : State),
      (0 : Site), (ins 3 2 (0x1A * 2 ^ 26 + 5 * 2 ^ 20 + 2 * 2 ^ 13 + 3 * 64 + 1) : Issued), by and_intros <;> decide +kernel⟩,
   ⟨((Upd.vreg 2 (BitVec.ofNat 512 0x3F8000003F800000)).apply (busy [(ins 3 2 (0x1B * 2 ^ 26 + 5 * 2 ^ 20 + 2) : Issued)]) : State), (0 : Site),
      (ins 3 2 (0x1B * 2 ^ 26 + 5 * 2 ^ 20 + 2) : Issued), by and_intros <;> decide +kernel⟩,
   ⟨(put (busy [(ins 3 2 (0x1C * 2 ^ 26 + 5 * 2 ^ 20 + 2) : Issued)]) [(vuPage 0 + 0x200, 0x8000)] : State), (0 : Site),
      (ins 3 2 (0x1C * 2 ^ 26 + 5 * 2 ^ 20 + 2) : Issued), by and_intros <;> decide +kernel⟩,
   ⟨((Upd.vreg 2 (BitVec.ofNat 512 0x3F8000003F800000)).apply ((Upd.vreg 3 1).apply (put (busy [(ins 3 2 (0x1D * 2 ^ 26 + 5 * 2 ^ 20 + 2 * 2 ^ 13 + 3 * 64) : Issued)]) [(vuPage 0 + 0x204, 0x40000000)])) : State),
      (0 : Site), (ins 3 2 (0x1D * 2 ^ 26 + 5 * 2 ^ 20 + 2 * 2 ^ 13 + 3 * 64) : Issued), by and_intros <;> decide +kernel⟩⟩

/-- States and operands that meet the hypotheses of Conversions. -/
theorem meets_Conversions :
    (∃ (s : State) (c : Site) (i : Issued), Ready s ∧ (coreX s c.val).accFlip = [] ∧ vuNext s c.val 0x20 = some i ∧
      (readsCvt i.word).any (bankBusy s c.val) = false) ∧
    (∃ (s : State) (c : Site) (i : Issued), Ready s ∧ (coreX s c.val).accFlip = [] ∧ vuNext s c.val 0x20 = some i ∧
      (readsCvt i.word).any (bankBusy s c.val) = false) ∧
    (∃ (s : State) (c : Site) (i : Issued), Ready s ∧ (coreX s c.val).accFlip = [] ∧ vuNext s c.val 0x21 = some i ∧
      bankBusy s c.val (vuVa i.word) = false) :=
  ⟨⟨((Upd.acc 3 0x3F800000).apply (busy [({ ins 3 2 (0x20 * 2 ^ 26 + 5 * 2 ^ 20 + 64 * 2 ^ 13 + 64 + 3) with tcA := tcw 1 1 0 16 32 0 40 8 } : Issued)]) : State),
      (0 : Site), ({ ins 3 2 (0x20 * 2 ^ 26 + 5 * 2 ^ 20 + 64 * 2 ^ 13 + 64 + 3) with tcA := tcw 1 1 0 16 32 0 40 8 } : Issued),
      by and_intros <;> decide +kernel⟩,
   ⟨((Upd.acc 3 0x3F800000).apply (busy [({ ins 3 2 (0x20 * 2 ^ 26 + 5 * 2 ^ 20 + 64 * 2 ^ 13 + 64 + 3) with tcA := tcw 5 2 1 16 64 0 40 8 } : Issued)]) : State),
      (0 : Site), ({ ins 3 2 (0x20 * 2 ^ 26 + 5 * 2 ^ 20 + 64 * 2 ^ 13 + 64 + 3) with tcA := tcw 5 2 1 16 64 0 40 8 } : Issued),
      by and_intros <;> decide +kernel⟩,
   ⟨((Upd.vreg 2 (BitVec.ofNat 512 0x3F8000003F800000)).apply (busy [(ins 3 2 (0x21 * 2 ^ 26 + 5 * 2 ^ 20 + 2 * 2 ^ 13 + 64) : Issued)]) : State),
      (0 : Site), (ins 3 2 (0x21 * 2 ^ 26 + 5 * 2 ^ 20 + 2 * 2 ^ 13 + 64) : Issued), by and_intros <;> decide +kernel⟩⟩

/-- States and operands that meet the hypotheses of DecodeSetupsAndResults. -/
theorem meets_DecodeSetupsAndResults :
    (∃ (s : State) (c : Site) (i : Issued), Ready s ∧ vuNext s c.val 0x22 = some i) ∧
    (∃ (s : State) (c : Site) (i : Issued), Ready s ∧ vuNext s c.val 0x23 = some i) ∧
    (∃ (s : State) (c : Site) (i : Issued), Ready s ∧ vuNext s c.val 0x24 = some i) ∧
    (∃ (s : State) (c : Site) (i : Issued), Ready s ∧ vuNext s c.val 0x30 = some i) ∧
    (∃ (s : State) (c : Site) (w : W1Write) (rest : List W1Write) (r : Nat) (v : BitVec 512), Ready s ∧ (coreX s c.val).w1 = w :: rest ∧
      w.reg = some (r, v) ∧ w.ra = none ∧ r < 64 ∧ ((∀ p ∈ w.scales, p.1 < 4096))) ∧
    (∃ (s : State) (c : Site) (w : W1Write) (rest : List W1Write) (k : Nat) (vs : List Word), Ready s ∧ (coreX s c.val).w1 = w :: rest ∧ w.reg = none ∧
      w.ra = some (k, vs) ∧ w.scales = [] ∧ vs.length = 8) :=
  ⟨⟨((Upd.vreg 0 (BitVec.ofNat 512 0x3838)).apply ((Upd.vreg 40 (BitVec.ofNat 512 0x7F)).apply (busy [({ ins 3 2 (0x22 * 2 ^ 26 + 5 * 2 ^ 20 + 2 * 64) with tcA := tcw 1 1 0 16 32 0 40 8 } : Issued)])) : State),
      (0 : Site), ({ ins 3 2 (0x22 * 2 ^ 26 + 5 * 2 ^ 20 + 2 * 64) with tcA := tcw 1 1 0 16 32 0 40 8 } : Issued), by and_intros <;> decide +kernel⟩,
   ⟨(busy [(ins 3 2 (0x23 * 2 ^ 26 + 63 * 2 ^ 20 + 127 * 2 ^ 13 + 64 + 15) : Issued)] : State), (0 : Site),
      (ins 3 2 (0x23 * 2 ^ 26 + 63 * 2 ^ 20 + 127 * 2 ^ 13 + 64 + 15) : Issued), by and_intros <;> decide +kernel⟩,
   ⟨(busy [(ins 3 2 (0x24 * 2 ^ 26 + 63 * 2 ^ 20 + 127 * 64 + 7) : Issued)] : State), (0 : Site),
      (ins 3 2 (0x24 * 2 ^ 26 + 63 * 2 ^ 20 + 127 * 64 + 7) : Issued), by and_intros <;> decide +kernel⟩,
   ⟨((Upd.vreg 2 (BitVec.ofNat 512 0x3F8000003F800000)).apply (busy [(ins 3 2 (0x30 * 2 ^ 26 + 2 * 2 ^ 13 + 7) : Issued)]) : State), (0 : Site),
      (ins 3 2 (0x30 * 2 ^ 26 + 2 * 2 ^ 13 + 7) : Issued), by and_intros <;> decide +kernel⟩,
   ⟨(withCore running 0 { CoreX.clear with issued := [ins 3 2 (0x10 * 2 ^ 26)], w1 := [(⟨ins 3 2 (0x10 * 2 ^ 26), some (63, 5), none, [], true⟩ : W1Write)] } : State),
      (0 : Site), (⟨ins 3 2 (0x10 * 2 ^ 26), some (63, 5), none, [], true⟩ : W1Write), ([] : List W1Write), (63 : Nat), (5 : BitVec 512),
      by and_intros <;> decide +kernel⟩,
   ⟨(withCore running 0 { CoreX.clear with issued := [ins 3 2 (0x1A * 2 ^ 26)], w1 := [(⟨ins 3 2 (0x1A * 2 ^ 26), none, some (7, [1,2,3,4,5,6,7,8]), [], true⟩ : W1Write)] } : State),
      (0 : Site), (⟨ins 3 2 (0x1A * 2 ^ 26), none, some (7, [1,2,3,4,5,6,7,8]), [], true⟩ : W1Write), ([] : List W1Write), (7 : Nat),
      ([1,2,3,4,5,6,7,8] : List Word), by and_intros <;> decide +kernel⟩⟩

/-- States and operands that meet the hypotheses of FaultsCapture. -/
theorem meets_FaultsCapture :
    (∃ (s : State) (c : Site) (f : Cell) (r : RowFault), Ready s ∧ rowVerdict s c.val f ≠ .bad ∧ canIssue s c.val = true ∧ sopAt s c.val = 0 ∧
      rowHeld s c.val = false ∧ rowFaultOf s c.val false = some r) ∧
    (∃ (s : State) (c : Site) (f : Cell), Ready s ∧ rowVerdict s c.val f = .bad ∧ canIssue s c.val = true ∧ sopAt s c.val = 0) ∧
    (∃ (s : State) (c : Site) (i : Issued) (found : List Cell), Ready s ∧
      (coreX s c.val).issued.find? (fun i => isTileOp i && i.started && !i.faulted) = some i ∧ opOf 1 i.word = 8 ∧ bit i.word 3 = false ∧ i.row < 2048 ∧
      (coreX s c.val).faulting = false ∧ stBad s c.val (wordsOf (tRowAddr i.tcA i.addr i.orow) (tRowBytes i.tcA i.orow)) found = true) :=
  ⟨⟨(withRow running 0 0 0 0 0 (31 * 2 ^ 27) : State), (0 : Site), (.good : Cell),
      ((rowFaultOf (withRow running 0 0 0 0 0 (31 * 2 ^ 27) : State) 0 false).getD (0, 0, 0) : RowFault), by and_intros <;> decide +kernel⟩,
   ⟨(running : State), (0 : Site), (.bad : Cell), by and_intros <;> decide +kernel⟩,
   ⟨(busy [({ tile (8 * 2 ^ 27) (tcw 1 1 0 16 32 0 40 10) 0 with started := true, orow := 15, addr := 4, row := 2047 } : Issued)] : State),
      (0 : Site), ({ tile (8 * 2 ^ 27) (tcw 1 1 0 16 32 0 40 10) 0 with started := true, orow := 15, addr := 4, row := 2047 } : Issued),
      ([.good, .bad] : List Cell), by and_intros <;> decide +kernel⟩⟩

/-- States and operands that meet the hypotheses of Copies. -/
theorem meets_Copies :
    (∃ (s : State) (c : Site) (i : Issued), Ready s ∧ nextToStart s c.val 3 1 = some i ∧ i.row < 2048 ∧ fenced s (mvPage c.val) = false) ∧
    (∃ (s : State) (c : Site) (i : Issued), Ready s ∧ nextToStart s c.val 3 2 = some i ∧ i.row < 2048 ∧ fenced s (mvPage c.val) = false) ∧
    (∃ (s : State) (c : Site) (ch : Fin 2) (i : Issued), Ready s ∧ copyOn s c.val ch.val = some i ∧ mvLeft s c.val ch.val = 0 ∧ fld i.word 7 0 < 224 ∧
      waitersOn s c.val (fld i.word 7 0) = []) ∧
    (∃ (s : State) (c : Site) (ch : Fin 2) (i : Issued) (l : Nat) (w : Nat) (bs : List Byte), Ready s ∧ copyOn s c.val ch = some i ∧
      mvLeft s c.val ch.val ≠ 0 ∧ l = mvLocal s c.val ch.val ∧ l < 49152 ∧ w = mvFar s c.val ch.val % 65536 ∧ isMovP i = false ∧ bit i.word 25 = false ∧
      bs.length = 32 ∧ urRead s (herdNo s c.val) (mvFar s c.val ch.val) 32 = .ok bs) ∧
    (∃ (s : State) (c : Site) (ch : Fin 2) (i : Issued) (l : Nat) (w : Nat) (found : Cell) (f : Nat) (b : Nat), Ready s ∧ copyOn s c.val ch = some i ∧
      mvLeft s c.val ch.val ≠ 0 ∧ l = mvLocal s c.val ch.val ∧ l < 49152 ∧ w = mvFar s c.val ch.val % 65536 ∧ isMovP i = false ∧ bit i.word 25 = true ∧
      stVerdict s c.val l found ≠ .bad ∧ mvFar s c.val ch.val % 32 = 0 ∧ judge s (herdNo s c.val) (mvFar s c.val ch.val / 65536) true = .frame f ∧
      entryClean s (mvFar s c.val ch.val / 65536) = true ∧ b = 1024 * f + mvFar s c.val ch.val / 64 % 1024 ∧ mergeOf s b = none ∧
      (s.mergeBuf.filter (fun x => decide (x.port = blkPort b))).length < 32) ∧
    (∃ (s : State) (c : Site) (ch : Fin 2) (i : Issued) (l : Nat) (w : Nat) (found : Cell) (p : Nat), Ready s ∧ copyOn s c.val ch = some i ∧
      mvLeft s c.val ch.val ≠ 0 ∧ l = mvLocal s c.val ch.val ∧ l < 49152 ∧ w = mvFar s c.val ch.val % 65536 ∧ isMovP i = true ∧
      movAnswer s c.val ch = none ∧ ch ∉ (coreX s c.val).movSent ∧ peerOf s c.val ch.val = some p ∧ bit i.word 25 = true ∧
      stVerdict s c.val l found ≠ .bad) ∧
    (∃ (s : State) (c : Site) (ch : Fin 2) (i : Issued) (l : Nat) (w : Nat) (p : Nat), Ready s ∧ copyOn s c.val ch = some i ∧
      mvLeft s c.val ch.val ≠ 0 ∧ l = mvLocal s c.val ch.val ∧ l < 49152 ∧ w = mvFar s c.val ch.val % 65536 ∧ isMovP i = true ∧
      movAnswer s c.val ch = none ∧ ch ∉ (coreX s c.val).movSent ∧ peerOf s c.val ch.val = some p ∧ bit i.word 25 = false) ∧
    (∃ (s : State) (c : Site) (ch : Fin 2) (i : Issued) (l : Nat) (w : Nat) (v : BitVec 256), Ready s ∧ copyOn s c.val ch = some i ∧
      mvLeft s c.val ch.val ≠ 0 ∧ l = mvLocal s c.val ch.val ∧ l < 49152 ∧ w = mvFar s c.val ch.val % 65536 ∧ isMovP i = true ∧
      movAnswer s c.val ch = some (.word v)) ∧
    (∃ (s : State) (c : Site) (ch : Fin 2) (i : Issued) (l : Nat) (w : Nat), Ready s ∧ copyOn s c.val ch = some i ∧ mvLeft s c.val ch.val ≠ 0 ∧
      l = mvLocal s c.val ch.val ∧ l < 49152 ∧ w = mvFar s c.val ch.val % 65536 ∧ isMovP i = true ∧ movAnswer s c.val ch = some .written) ∧
    (∃ (s : State) (c : Site) (ch : Fin 2) (i : Issued) (l : Nat) (w : Nat), Ready s ∧ copyOn s c.val ch = some i ∧ mvLeft s c.val ch.val ≠ 0 ∧
      l = mvLocal s c.val ch.val ∧ l < 49152 ∧ w = mvFar s c.val ch.val % 65536 ∧ isMovP i = true ∧ movAnswer s c.val ch = some .fenced ∧ i.row < 2048 ∧
      (coreX s c.val).faulting = false) :=
  ⟨⟨(busy [({ ins 3 3 (1 * 2 ^ 27 + 2 ^ 26 + 255 * 256 + 4) with far := 2 ^ 40, addr := 77 } : Issued)] : State), (0 : Site),
      ({ ins 3 3 (1 * 2 ^ 27 + 2 ^ 26 + 255 * 256 + 4) with far := 2 ^ 40, addr := 77 } : Issued), by and_intros <;> decide +kernel⟩,
   ⟨(busy [({ ins 3 3 (2 * 2 ^ 27 + 255 * 256 + 4) with far := 65536 + 7, addr := 77 } : Issued)] : State), (0 : Site),
      ({ ins 3 3 (2 * 2 ^ 27 + 255 * 256 + 4) with far := 65536 + 7, addr := 77 } : Issued), by and_intros <;> decide +kernel⟩,
   ⟨(put (busy [({ ins 3 3 (2 * 2 ^ 27 + 2 ^ 26 + 255 * 256 + 223) with started := true } : Issued)]) [(mvReg 0 1, 0x80000000)] : State), (0 : Site),
      (1 : Fin 2), ({ ins 3 3 (2 * 2 ^ 27 + 2 ^ 26 + 255 * 256 + 223) with started := true } : Issued), by and_intros <;> decide +kernel⟩,
   ⟨(put (poke (withPage (busy [({ ins 3 3 (1 * 2 ^ 27 + 255 * 256 + 223) with started := true } : Issued)]) 0 1 512) (512 * 65536 + 32) [1, 2, 3]) [(mvReg 0 0, 0x80000000 + 5 * 2 ^ 19), (mvReg 0 0 + 4, 49151), (mvReg 0 0 + 8, 32)] : State),
      (0 : Site), (0 : Fin 2), ({ ins 3 3 (1 * 2 ^ 27 + 255 * 256 + 223) with started := true } : Issued), (49151 : Nat), (32 : Nat),
      ([1, 2, 3] ++ List.replicate 29 0 : List Byte), by and_intros <;> decide +kernel⟩,
   ⟨(put ((Upd.store 49151 0x1234).apply (withPage (busy [({ ins 3 3 (1 * 2 ^ 27 + 2 ^ 25 + 255 * 256 + 223) with started := true } : Issued)]) 0 1 512)) [(mvReg 0 0, 0x80000000 + 5 * 2 ^ 19), (mvReg 0 0 + 4, 49151), (mvReg 0 0 + 8, 96)] : State),
      (0 : Site), (0 : Fin 2), ({ ins 3 3 (1 * 2 ^ 27 + 2 ^ 25 + 255 * 256 + 223) with started := true } : Issued), (49151 : Nat), (96 : Nat),
      (.corrected : Cell), (512 : Nat), (1024 * 512 + 1 : Nat), by and_intros <;> decide +kernel⟩,
   ⟨(put ((Upd.store 49151 0x1234).apply (busy [({ ins 3 3 (2 * 2 ^ 27 + 2 ^ 25 + 255 * 256 + 223) with started := true } : Issued)])) [(mvReg 0 0, 0x80000000 + 5 * 2 ^ 19), (mvReg 0 0 + 4, 49151), (mvReg 0 0 + 8, 65536 + 7)] : State),
      (0 : Site), (0 : Fin 2), ({ ins 3 3 (2 * 2 ^ 27 + 2 ^ 25 + 255 * 256 + 223) with started := true } : Issued), (49151 : Nat), (7 : Nat),
      (.corrected : Cell), (1 : Nat), by and_intros <;> decide +kernel⟩,
   ⟨(put ((Upd.store 49151 0x1234).apply (busy [({ ins 3 3 (2 * 2 ^ 27 + 255 * 256 + 223) with started := true } : Issued)])) [(mvReg 0 0, 0x80000000 + 5 * 2 ^ 19), (mvReg 0 0 + 4, 49151), (mvReg 0 0 + 8, 65536 + 7)] : State),
      (0 : Site), (0 : Fin 2), ({ ins 3 3 (2 * 2 ^ 27 + 255 * 256 + 223) with started := true } : Issued), (49151 : Nat), (7 : Nat), (1 : Nat),
      by and_intros <;> decide +kernel⟩,
   ⟨(put ((Upd.store 49151 0x1234).apply (withCore running 0 { CoreX.clear with issued := [({ ins 3 3 (2 * 2 ^ 27 + 255 * 256 + 223) with started := true } : Issued)], movSent := [0], movAnswers := [(0, .word 0x1234)] })) [(mvReg 0 0, 0x80000000 + 5 * 2 ^ 19), (mvReg 0 0 + 4, 49151), (mvReg 0 0 + 8, 65536 + 7)] : State),
      (0 : Site), (0 : Fin 2), ({ ins 3 3 (2 * 2 ^ 27 + 255 * 256 + 223) with started := true } : Issued), (49151 : Nat), (7 : Nat),
      (0x1234 : BitVec 256), by and_intros <;> decide +kernel⟩,
   ⟨(put ((Upd.store 49151 0x1234).apply (withCore running 0 { CoreX.clear with issued := [({ ins 3 3 (2 * 2 ^ 27 + 2 ^ 25 + 255 * 256 + 223) with started := true } : Issued)], movSent := [0], movAnswers := [(0, .written)] })) [(mvReg 0 0, 0x80000000 + 5 * 2 ^ 19), (mvReg 0 0 + 4, 49151), (mvReg 0 0 + 8, 65536 + 7)] : State),
      (0 : Site), (0 : Fin 2), ({ ins 3 3 (2 * 2 ^ 27 + 2 ^ 25 + 255 * 256 + 223) with started := true } : Issued), (49151 : Nat), (7 : Nat),
      by and_intros <;> decide +kernel⟩,
   ⟨(put ((Upd.store (65536 + 7) 0x1234).apply (withCore running 0 { CoreX.clear with issued := [({ ins 3 3 (2 * 2 ^ 27 + 255 * 256 + 223) with started := true } : Issued)], movSent := [0], movAnswers := [(0, .fenced)] })) [(mvReg 0 0, 0x80000000 + 5 * 2 ^ 19), (mvReg 0 0 + 4, 49151), (mvReg 0 0 + 8, 65536 + 7), (fabPage 1 + 0x14, 0x20000)] : State),
      (0 : Site), (0 : Fin 2), ({ ins 3 3 (2 * 2 ^ 27 + 255 * 256 + 223) with started := true } : Issued), (49151 : Nat), (7 : Nat),
      by and_intros <;> decide +kernel⟩⟩

/-- States and operands that meet the hypotheses of ScaleTable. -/
theorem meets_ScaleTable :
    (∃ (bs : List Byte), bs.length = 256) ∧
    (∃ (s : State) (c : Site), Ready s ∧ (coreX s c.val).mergeOwed = true) ∧
    (∃ (s : State) (m : Merge) (f : Nat) (a : Nat) (bs : List Byte), Ready s ∧ s.merges.find? (mergeReady s) = some m ∧
      judge s m.herd (m.addr / 65536) true = .frame f ∧ entryClean s (m.addr / 65536) = true ∧ f < rsvBase s ∧ m.addr % 256 = 0 ∧
      a = 65536 * f + m.addr % 65536 ∧ ((∀ j < 4, CleanBlk s (a / 64 + j))) ∧ s.mergeBuf = [] ∧ devRead s a 256 = some bs ∧ entDead bs = false) ∧
    (∃ (s : State) (n : PortNo) (e : Nat × Nat) (bs : List Byte), Ready s ∧ s.evalDue.find? (fun e => decide (e.1 / 65536 % 24 = n.val)) = some e ∧
      e.1 / 65536 < rsvBase s ∧ e.1 % 256 = 0 ∧ ((∀ j < 4, CleanBlk s (e.1 / 64 + j))) ∧ s.mergeBuf = [] ∧ devRead s e.1 256 = some bs ∧ podEn s = false) :=
  ⟨⟨(List.replicate 16 5 ++ List.replicate 240 9 : List Byte), by decide +kernel⟩,
   ⟨(put (withCore running 0 { CoreX.clear with mergeOwed := true, figs := [(3, { Figures.zero with elements := 5 })] }) [(vuPage 0 + 0x108, 0xFFFF), (vuPage 0 + 0x104, 0xFFFF)] : State),
      (0 : Site), by and_intros <;> decide +kernel⟩,
   ⟨({ poke (withPage idle 0 1 512) (512 * 65536 + 256) [0, 0, 0, 0, 0x11, 0, 0, 0, 0, 0, 0, 0, 1, 0, 0, 0] with merges := [(⟨1, 256, { Figures.zero with elements := 5, amax := 0x3F800000 }, none⟩ : Merge)] } : State),
      (⟨1, 256, { Figures.zero with elements := 5, amax := 0x3F800000 }, none⟩ : Merge), (512 : Nat), (512 * 65536 + 256 : Nat),
      ([0, 0, 0, 0, 0x11, 0, 0, 0, 0, 0, 0, 0, 1, 0, 0, 0] ++ List.replicate 240 0 : List Byte), by and_intros <;> decide +kernel⟩,
   ⟨({ poke (withPage idle 0 1 512) (512 * 65536 + 256) [0, 0, 0, 0, 0x11, 0, 0, 0, 0, 0, 0, 0, 1, 0, 0, 0] with evalDue := [((512 * 65536 + 256, 1) : Nat × Nat)] } : State),
      (8 : PortNo), ((512 * 65536 + 256, 1) : Nat × Nat), ([0, 0, 0, 0, 0x11, 0, 0, 0, 0, 0, 0, 0, 1, 0, 0, 0] ++ List.replicate 240 0 : List Byte),
      by and_intros <;> decide +kernel⟩⟩

/-- States and operands that meet the hypotheses of RingsServeAndJudge. -/
theorem meets_RingsServeAndJudge :
    (∃ (s : State) (n : PortNo) (h : HerdNo) (bs : List Byte), Ready s ∧
      s.desc.any (fun d => decide (d.eng = n.val) && decide (d.herd = h.val)) = false ∧ notePending s n.val h.val = false ∧
      ringRuns s n.val h.val = true ∧ ringRead s n.val h.val = .ok bs) ∧
    (∃ (s : State) (n : PortNo) (h : HerdNo) (st : Nat), Ready s ∧ s.desc.any (fun d => decide (d.eng = n.val) && decide (d.herd = h.val)) = false ∧
      notePending s n.val h.val = false ∧ ringRuns s n.val h.val = true ∧ ringRead s n.val h.val = .bad st ∧ mGet s.ringFail (64 * n.val + h.val) = none) ∧
    (∃ (s : State) (n : PortNo) (h : HerdNo) (ws : List Word) (e : UeDesc), Ready s ∧ ringMatch s n.val h.val = some ws ∧
      (judgeDesc s (newDesc s n.val h.val ws)).2 = some e ∧ takeable s n.val h.val = true ∧ fenced s (uePage n.val) = false ∧ activeCount s n.val < 4 ∧
      turnOfHerd s n.val h.val (takeable s n.val) = true) ∧
    (∃ (s : State) (bx : Bool) (n : PortNo) (h : HerdNo), Ready s ∧ Takes s (ringAddr (if bx then 24 else n.val) h.val / 4096)) ∧
    (∃ (d : UeDesc), 4 < dMode d) ∧
    (∃ (d : UeDesc), dW d 3 ≠ 0) ∧
    (∃ (d : UeDesc), dCpl d % 16 ≠ 0) ∧
    (∃ (s : State) (d : UeDesc), dMode d < 3 ∧ fld (dW d 1) 4 3 ≠ 3 ∧ fld (dW d 1) 31 23 = 0 ∧ dW d 3 = 0 ∧ (∀ k < 8, dW d (8 + k) = 0) ∧
      dRec d % 64 = 0 ∧ dCpl d % 16 = 0 ∧ groupInRange s d.eng d.herd (dGroup d) = false) ∧
    (∃ (s : State) (d : UeDesc), dMode d < 3 ∧ fld (dW d 1) 4 3 ≠ 3 ∧ fld (dW d 1) 31 23 = 0 ∧ dW d 3 = 0 ∧ (∀ k < 8, dW d (8 + k) = 0) ∧
      dRec d % 64 = 0 ∧ dCpl d % 16 = 0 ∧ groupInRange s d.eng d.herd (dGroup d) = true ∧ devRead s (groupAddr s d.eng (dGroup d)) 32 = none) ∧
    (∃ (s : State) (d : UeDesc) (bs : List Byte), dMode d < 3 ∧ fld (dW d 1) 4 3 ≠ 3 ∧ fld (dW d 1) 31 23 = 0 ∧ dW d 3 = 0 ∧
      (∀ k < 8, dW d (8 + k) = 0) ∧ dRec d % 64 = 0 ∧ dCpl d % 16 = 0 ∧ groupInRange s d.eng d.herd (dGroup d) = true ∧
      devRead s (groupAddr s d.eng (dGroup d)) 32 = some bs ∧ bit ((leWords 8 bs).getD 0 0) 31 = false) ∧
    (∃ (s : State) (d : UeDesc) (bs : List Byte) (e : UeDesc), dMode d < 3 ∧ fld (dW d 1) 4 3 ≠ 3 ∧ fld (dW d 1) 31 23 = 0 ∧ dW d 3 = 0 ∧
      (∀ k < 8, dW d (8 + k) = 0) ∧ dRec d % 64 = 0 ∧ dCpl d % 16 = 0 ∧ groupInRange s d.eng d.herd (dGroup d) = true ∧
      devRead s (groupAddr s d.eng (dGroup d)) 32 = some bs ∧ (judgeDesc s d).2 = some e ∧ bit ((leWords 8 bs).getD 0 0) 31 = true ∧
      fld ((leWords 8 bs).getD 0 0) 27 22 = d.herd ∧ progWaits s d.eng (fld ((leWords 8 bs).getD 0 0) 7 0) = false ∧
      bit ((leWords 8 bs).getD 0 0) 30 = true) :=
  ⟨⟨(put (withPage idle 0 1 512) [(ringAddr 0 1 + 4, 0x80000000)] : State), (0 : PortNo), (1 : HerdNo), (List.replicate 64 0 : List Byte),
      by and_intros <;> decide +kernel⟩,
   ⟨(put (withPage idle 0 2 512) [(ringAddr 23 1 + 4, 0x80000000)] : State), (23 : PortNo), (1 : HerdNo), (0x84 : Nat),
      by and_intros <;> decide +kernel⟩,
   ⟨(put (withPage (engaged []) 0 1 512) [(ringAddr 0 1 + 4, 0x80000000)] : State), (0 : PortNo), (1 : HerdNo), (List.replicate 16 0 : List Word),
      ((judgeDesc (put (withPage (engaged []) 0 1 512) [(ringAddr 0 1 + 4, 0x80000000)] : State) (newDesc (put (withPage (engaged []) 0 1 512) [(ringAddr 0 1 + 4, 0x80000000)] : State) 0 1 (List.replicate 16 0))).2.getD (dsc 0 0 [] []) : UeDesc),
      by and_intros <;> decide +kernel⟩,
   ⟨(put up [(ringAddr 24 63 + 8, 77)] : State), (true : Bool), (0 : PortNo), (63 : HerdNo), by and_intros <;> decide +kernel⟩,
   ⟨(dsc 0 7 [] [] : UeDesc), by decide +kernel⟩,
   ⟨({ dsc 0 0 [] [] with words := [0, 0, 0, 1] } : UeDesc), by decide +kernel⟩,
   ⟨({ dsc 0 0 [] [] with words := [0, 0, 0, 0, 0, 0, 8, 0] } : UeDesc), by decide +kernel⟩,
   ⟨(engaged [] : State), ({ dsc 0 0 [] [] with words := [16, 0, 9, 0, 65536, 0, 131072, 0] } : UeDesc), by and_intros <;> decide +kernel⟩,
   ⟨(put (engaged []) [(remapReg 16 0, 0xC0000000 + 10 * 1024 + 7), (mpPage 16 + 0x118, 0x100)] : State),
      ({ dsc 0 0 [] [] with words := [15, 0, 9, 0, 65536, 0, 131072, 0] } : UeDesc), by and_intros <;> decide +kernel⟩,
   ⟨(engaged [] : State), (dsc 0 0 [] [] : UeDesc), (List.replicate 32 0 : List Byte), by and_intros <;> decide +kernel⟩,
   ⟨(poke (engaged []) 0x1000000 (wordBytes [0xC0400000]) : State), (dsc 0 0 [] [] : UeDesc),
      (wordBytes [0xC0400000] ++ List.replicate 28 0 : List Byte),
      ((judgeDesc (poke (engaged []) 0x1000000 (wordBytes [0xC0400000])) (dsc 0 0 [] [])).2.getD (dsc 0 0 [] []) : UeDesc),
      by and_intros <;> decide +kernel⟩⟩

/-- States and operands that meet the hypotheses of UpdatesStart. -/
theorem meets_UpdatesStart :
    (∃ (s : State) (d : UeDesc) (e : UeDesc), (judgeShard s d).2 = some e ∧ e.phase = 1) ∧
    (∃ (s : State) (n : PortNo) (h : HerdNo) (d : UeDesc), Ready s ∧ descOf s n.val h.val = some d ∧ dMode d = 1 ∧ d.phase = 1) ∧
    (∃ (s : State) (n : PortNo) (h : HerdNo) (d : UeDesc) (bs : List Byte) (r : List Word × Word), Ready s ∧ descOf s n.val h.val = some d ∧
      d.phase = 1 ∧ devRead s (groupAddr s n.val (dGroup d)) 32 = some bs ∧ groupAddr s n.val (dGroup d) % 32 = 0 ∧ ErrorFree s ∧ s.mergeBuf = [] ∧
      r = advanced (leWords 8 bs) (dStep d) ∧ (dMode d = 0 ∨ dMode d = 2)) ∧
    (∃ (s : State) (n : PortNo) (h : HerdNo) (d : UeDesc) (bs : List Byte) (r : List Word × Word), Ready s ∧ descOf s n.val h.val = some d ∧
      d.phase = 1 ∧ devRead s (groupAddr s n.val (dGroup d)) 32 = some bs ∧ groupAddr s n.val (dGroup d) % 32 = 0 ∧ ErrorFree s ∧ s.mergeBuf = [] ∧
      r = advanced (leWords 8 bs) (dStep d) ∧ dMode d = 0) ∧
    (∃ (s : State) (n : PortNo) (h : HerdNo) (d : UeDesc) (bs : List Byte) (r : List Word × Word), Ready s ∧ descOf s n.val h.val = some d ∧
      d.phase = 1 ∧ devRead s (groupAddr s n.val (dGroup d)) 32 = some bs ∧ groupAddr s n.val (dGroup d) % 32 = 0 ∧ ErrorFree s ∧ s.mergeBuf = [] ∧
      r = advanced (leWords 8 bs) (dStep d) ∧ dMode d = 2) ∧
    (∃ (s : State) (n : PortNo) (h : HerdNo) (d : UeDesc), Ready s ∧ descOf s n.val h.val = some d ∧ d.phase = 2 ∧ dMode d = 0) ∧
    (∃ (s : State) (n : PortNo) (h : HerdNo) (d : UeDesc), Ready s ∧ descOf s n.val h.val = some d ∧ d.phase = 2 ∧ dMode d = 2) ∧
    (∃ (g : List Word) (st : Word), 4 ≤ g.length ∧ ((g.getD 2 0 = 0 ∨ g.getD 3 0 ≠ st → g.getD 2 0 + 1 ≠ 0))) ∧
    (∃ (s : State) (n : PortNo) (h : HerdNo) (d : UeDesc) (bs : List Byte) (f : Nat), Ready s ∧ descOf s n.val h.val = some d ∧ d.phase = 1 ∧
      ErrorFree s ∧ s.mergeBuf = [] ∧ groupAddr s n.val (dGroup d) % 32 = 0 ∧ dRec d % 32 = 0 ∧ dRec d < 2 ^ 42 ∧ dMode d = 3 ∧
      judge s h.val (dRec d / 65536) false = .frame f ∧ devRead s (65536 * f + dRec d % 65536) 32 = some bs) ∧
    (∃ (s : State) (n : PortNo) (h : HerdNo) (d : UeDesc) (bs : List Byte) (f : Nat), Ready s ∧ descOf s n.val h.val = some d ∧ d.phase = 1 ∧
      ErrorFree s ∧ s.mergeBuf = [] ∧ groupAddr s n.val (dGroup d) % 32 = 0 ∧ dRec d % 32 = 0 ∧ dRec d < 2 ^ 42 ∧ dMode d = 4 ∧
      judge s h.val (dRec d / 65536) true = .frame f ∧ devRead s (groupAddr s n.val (dGroup d)) 32 = some bs) :=
  ⟨⟨(poke (put (withPage (engaged []) 1 1 512) [(uePage 0 + 0x120, 1)]) (512 * 65536) (wordBytes [0x00020001, 0, 0x99999, 0, 0x10000, 0x8000, 0x20000, 0x8000, 0, 0x8000, 0, 0x8000, 0, 0x8000, 0, 0x8000, 0x30000, 0x8000]) : State),
      (dsc 0 1 [0, 0] [] : UeDesc),
      ((judgeShard (poke (put (withPage (engaged []) 1 1 512) [(uePage 0 + 0x120, 1)]) (512 * 65536) (wordBytes [0x00020001, 0, 0x99999, 0, 0x10000, 0x8000, 0x20000, 0x8000, 0, 0x8000, 0, 0x8000, 0, 0x8000, 0, 0x8000, 0x30000, 0x8000]) : State) (dsc 0 1 [0, 0] [] : UeDesc)).2.getD (dsc 0 1 [0, 0] [] : UeDesc) : UeDesc),
      by and_intros <;> decide +kernel⟩,
   ⟨(engaged [(dsc 1 1 [] [] : UeDesc)] : State), (0 : PortNo), (1 : HerdNo), (dsc 1 1 [] [] : UeDesc), by and_intros <;> decide +kernel⟩,
   ⟨(poke (engaged [(dsc 1 2 [1, 2, 3, 4] [] : UeDesc)]) 0x1000000 (wordBytes [0x80000000, 5, 6, 7, 8, 9, 10, 11]) : State), (0 : PortNo),
      (1 : HerdNo), (dsc 1 2 [1, 2, 3, 4] [] : UeDesc), (wordBytes [0x80000000, 5, 6, 7, 8, 9, 10, 11] : List Byte),
      (advanced [0x80000000, 5, 6, 7, 8, 9, 10, 11] 9 : List Word × Word),
      by and_intros <;> first | decide +kernel | exact (notPoisoned_of (by decide +kernel))⟩,
   ⟨(poke (engaged [(dsc 1 0 [1, 2, 3, 4, 0x3F000000, 0x3F000000] [] : UeDesc)]) 0x1000000 (wordBytes [0x80000000, 5, 6, 9, 8, 9, 10, 11]) : State),
      (0 : PortNo), (1 : HerdNo), (dsc 1 0 [1, 2, 3, 4, 0x3F000000, 0x3F000000] [] : UeDesc),
      (wordBytes [0x80000000, 5, 6, 9, 8, 9, 10, 11] : List Byte), (advanced [0x80000000, 5, 6, 9, 8, 9, 10, 11] 9 : List Word × Word),
      by and_intros <;> first | decide +kernel | exact (notPoisoned_of (by decide +kernel))⟩,
   ⟨(poke (engaged [(dsc 1 2 [1, 2, 3, 4, 0x3F000000, 0x3F000000] [] : UeDesc)]) 0x1000000 (wordBytes [0x80000000, 5, 6, 7, 8, 9, 10, 11]) : State),
      (0 : PortNo), (1 : HerdNo), (dsc 1 2 [1, 2, 3, 4, 0x3F000000, 0x3F000000] [] : UeDesc),
      (wordBytes [0x80000000, 5, 6, 7, 8, 9, 10, 11] : List Byte), (advanced [0x80000000, 5, 6, 7, 8, 9, 10, 11] 9 : List Word × Word),
      by and_intros <;> first | decide +kernel | exact (notPoisoned_of (by decide +kernel))⟩,
   ⟨(poke (withPage (engaged [(dsc 2 0 [0x10000000, 64, 3, 4, 0x3F000000, 0x3F000000] [] : UeDesc)]) 1 1 512) (512 * 65536) (wordBytes [1, 0, 5, 0x3F800000]) : State),
      (0 : PortNo), (1 : HerdNo), (dsc 2 0 [0x10000000, 64, 3, 4, 0x3F000000, 0x3F000000] [] : UeDesc), by and_intros <;> decide +kernel⟩,
   ⟨(engaged [(dsc 2 2 [0, 64, 3, 4, 0x3F000000, 0x3F000000] [] : UeDesc)] : State), (0 : PortNo), (1 : HerdNo),
      (dsc 2 2 [0, 64, 3, 4, 0x3F000000, 0x3F000000] [] : UeDesc), by and_intros <;> decide +kernel⟩,
   ⟨([0x80000000, 5, 6, 7, 8, 9, 10, 11] : List Word), (0xFFFFFFFF : Word), by and_intros <;> decide +kernel⟩,
   ⟨(poke (withPage (engaged [(dsc 1 3 [] [] : UeDesc)]) 1 1 512) (512 * 65536) (wordBytes [0x80000000, 5, 6, 7, 8, 9, 10, 11]) : State),
      (0 : PortNo), (1 : HerdNo), (dsc 1 3 [] [] : UeDesc), (wordBytes [0x80000000, 5, 6, 7, 8, 9, 10, 11] : List Byte), (512 : Nat),
      by and_intros <;> first | decide +kernel | exact (notPoisoned_of (by decide +kernel))⟩,
   ⟨(poke (withPage (engaged [(dsc 1 4 [] [] : UeDesc)]) 1 1 512) 0x1000000 (wordBytes [0x80000000, 5, 6, 7, 8, 9, 10, 11]) : State), (0 : PortNo),
      (1 : HerdNo), (dsc 1 4 [] [] : UeDesc), (wordBytes [0x80000000, 5, 6, 7, 8, 9, 10, 11] : List Byte), (512 : Nat),
      by and_intros <;> first | decide +kernel | exact (notPoisoned_of (by decide +kernel))⟩⟩

/-- States and operands that meet the hypotheses of DescriptorsEndProgramsLoad. -/
theorem meets_DescriptorsEndProgramsLoad :
    (∃ (s : State) (n : PortNo) (h : HerdNo) (d : UeDesc) (bs : List Byte), Ready s ∧ descOf s n.val h.val = some d ∧ d.phase = 3 ∧
      evalsDue s n.val = [] ∧ turnOfHerd s (32 + n.val) h.val (batchReady s n.val) = true ∧ batchEnds s d = .ok bs ∧ trainedElems s d ≠ []) ∧
    (∃ (s : State) (n : PortNo) (h : HerdNo) (d : UeDesc) (bs : List Byte), Ready s ∧ descOf s n.val h.val = some d ∧ d.phase = 3 ∧
      evalsDue s n.val = [] ∧ turnOfHerd s (32 + n.val) h.val (batchReady s n.val) = true ∧ batchEnds s d = .ok bs ∧ trainedElems s d = []) ∧
    (∃ (s : State) (n : PortNo) (h : HerdNo) (d : UeDesc) (st : Nat), Ready s ∧ descOf s n.val h.val = some d ∧ d.phase = 3 ∧ evalsDue s n.val = [] ∧
      turnOfHerd s (32 + n.val) h.val (batchReady s n.val) = true ∧ batchEnds s d = .bad st) ∧
    (∃ (s : State) (n : PortNo) (h : HerdNo) (d : UeDesc) (f : Nat), Ready s ∧ descOf s n.val h.val = some d ∧ d.phase = 4 ∧
      judge s h.val (dCpl d / 16 * 16 / 65536) true = .frame f ∧ dCpl d < 2 ^ 42 ∧ ErrorFree s ∧ s.mergeBuf = [] ∧ d.status < 0x80) ∧
    (∃ (s : State) (n : PortNo) (h : HerdNo) (d : UeDesc) (f : Nat), Ready s ∧ descOf s n.val h.val = some d ∧ d.phase = 4 ∧
      judge s h.val (dCpl d / 16 * 16 / 65536) true = .frame f ∧ dCpl d < 2 ^ 42 ∧ ErrorFree s ∧ s.mergeBuf = [] ∧ 0x80 ≤ d.status) ∧
    (∃ (s : State) (n : PortNo) (v : Word), Ready s ∧ Takes s (uePage n.val / 4096) ∧ bit v 31 = true ∧ fld v 7 0 + fld v 15 8 ≤ 255) ∧
    (∃ (s : State) (n : PortNo) (p : Nat) (bs : List Byte), Ready s ∧ bit (rd s (uePage n.val + 0x118)) 30 = true ∧
      fld (rd s (uePage n.val + 0x118)) 15 8 = 0 ∧ p = fld (rd s (uePage n.val + 0x118)) 7 0 ∧
      ringRange s (rd64 s (uePage n.val + 0x110)).toNat 128 = some bs ∧ progUsed s n.val p = false) ∧
    (∃ (s : State) (n : PortNo) (p : Nat) (bs : List Byte), Ready s ∧ bit (rd s (uePage n.val + 0x118)) 30 = true ∧
      fld (rd s (uePage n.val + 0x118)) 15 8 = 0 ∧ p = fld (rd s (uePage n.val + 0x118)) 7 0 ∧
      ringRange s (rd64 s (uePage n.val + 0x110)).toNat 128 = some bs ∧ progUsed s n.val p = true) ∧
    (∃ (s : State) (n : PortNo) (q : ProgPend), Ready s ∧ s.progPend.find? (fun q => decide (q.eng = n.val) && !progUsed s n.val q.index) = some q ∧
      q.words.length = 32 ∧ q.index < 256) :=
  ⟨⟨(withPage (withPage (withPage (engaged [(dsc 3 1 [] [0x00020001, 0, 0x99999, 0, 0x10000, 0, 0x20000, 0, 0, 0, 0, 0, 0, 0, 0, 0, 0x30000, 0] : UeDesc)]) 1 1 528) 2 1 552) 3 1 576 : State),
      (0 : PortNo), (1 : HerdNo), (dsc 3 1 [] [0x00020001, 0, 0x99999, 0, 0x10000, 0, 0x20000, 0, 0, 0, 0, 0, 0, 0, 0, 0, 0x30000, 0] : UeDesc),
      (match batchEnds (withPage (withPage (withPage (engaged [(dsc 3 1 [] [0x00020001, 0, 0x99999, 0, 0x10000, 0, 0x20000, 0, 0, 0, 0, 0, 0, 0, 0, 0, 0x30000, 0] : UeDesc)]) 1 1 528) 2 1 552) 3 1 576 : State) (dsc 3 1 [] [0x00020001, 0, 0x99999, 0, 0x10000, 0, 0x20000, 0, 0, 0, 0, 0, 0, 0, 0, 0, 0x30000, 0] : UeDesc) with
  | .ok b => b
  | _ => [1] : List Byte),
      by and_intros <;> decide +kernel⟩,
   ⟨(withPage (withPage (withPage (withPage (engaged [(dsc 3 1 [] [0x00020001, 0, 0x99999, 0x100, 0x10000, 0, 0x20000, 0, 0, 0, 0, 0, 0, 0, 0, 0, 0x30000, 0, 0x40000, 0] : UeDesc)]) 1 1 528) 2 1 552) 3 1 576) 4 1 600 : State),
      (0 : PortNo), (1 : HerdNo),
      (dsc 3 1 [] [0x00020001, 0, 0x99999, 0x100, 0x10000, 0, 0x20000, 0, 0, 0, 0, 0, 0, 0, 0, 0, 0x30000, 0, 0x40000, 0] : UeDesc),
      (match batchEnds (withPage (withPage (withPage (withPage (engaged [(dsc 3 1 [] [0x00020001, 0, 0x99999, 0x100, 0x10000, 0, 0x20000, 0, 0, 0, 0, 0, 0, 0, 0, 0, 0x30000, 0, 0x40000, 0] : UeDesc)]) 1 1 528) 2 1 552) 3 1 576) 4 1 600 : State) (dsc 3 1 [] [0x00020001, 0, 0x99999, 0x100, 0x10000, 0, 0x20000, 0, 0, 0, 0, 0, 0, 0, 0, 0, 0x30000, 0, 0x40000, 0] : UeDesc) with
  | .ok b => b
  | _ => [1] : List Byte),
      by and_intros <;> decide +kernel⟩,
   ⟨(withPage (engaged [(dsc 3 1 [] [0x00020001, 0, 0x99999, 0, 0x10000, 0, 0x20000, 0, 0, 0, 0, 0, 0, 0, 0, 0, 0x30000, 0] : UeDesc)]) 1 1 528 : State),
      (0 : PortNo), (1 : HerdNo), (dsc 3 1 [] [0x00020001, 0, 0x99999, 0, 0x10000, 0, 0x20000, 0, 0, 0, 0, 0, 0, 0, 0, 0, 0x30000, 0] : UeDesc),
      (match batchEnds (withPage (engaged [(dsc 3 1 [] [0x00020001, 0, 0x99999, 0, 0x10000, 0, 0x20000, 0, 0, 0, 0, 0, 0, 0, 0, 0, 0x30000, 0] : UeDesc)]) 1 1 528 : State) (dsc 3 1 [] [0x00020001, 0, 0x99999, 0, 0x10000, 0, 0x20000, 0, 0, 0, 0, 0, 0, 0, 0, 0, 0x30000, 0] : UeDesc) with
  | .bad x => x
  | _ => 0 : Nat),
      by and_intros <;> decide +kernel⟩,
   ⟨(withPage (engaged [({ dsc 4 4 [] [] with status := 5 } : UeDesc)]) 2 1 512 : State), (0 : PortNo), (1 : HerdNo),
      ({ dsc 4 4 [] [] with status := 5 } : UeDesc), (512 : Nat), by and_intros <;> first | decide +kernel | exact (notPoisoned_of (by decide +kernel))⟩,
   ⟨(withPage (engaged [({ dsc 4 0 [] [] with status := 0x82 } : UeDesc)]) 2 1 512 : State), (0 : PortNo), (1 : HerdNo),
      ({ dsc 4 0 [] [] with status := 0x82 } : UeDesc), (512 : Nat),
      by and_intros <;> first | decide +kernel | exact (notPoisoned_of (by decide +kernel))⟩,
   ⟨(up : State), (23 : PortNo), (0x8000807F : Word), by and_intros <;> decide +kernel⟩,
   ⟨(poke (withPage (put up [(uePage 0 + 0x118, 0xC000007F), (uePage 0 + 0x110, 0x1000000)]) 256 1 512) 0x2000000 (wordBytes (List.replicate 32 0)) : State),
      (0 : PortNo), (0x7F : Nat), (wordBytes (List.replicate 32 0) : List Byte), by and_intros <;> decide +kernel⟩,
   ⟨(poke (withPage (put (engaged [(dsc 3 0 [0x7F] [] : UeDesc)]) [(uePage 0 + 0x118, 0xC000007F), (uePage 0 + 0x110, 0x1000000)]) 256 1 512) 0x2000000 (wordBytes (List.replicate 32 0)) : State),
      (0 : PortNo), (0x7F : Nat), (wordBytes (List.replicate 32 0) : List Byte), by and_intros <;> decide +kernel⟩,
   ⟨({ up with progPend := [(⟨0, 0x7F, List.replicate 32 5, true⟩ : ProgPend)] } : State), (0 : PortNo),
      (⟨0, 0x7F, List.replicate 32 5, true⟩ : ProgPend), by and_intros <;> decide +kernel⟩⟩

/-- States and operands that meet the hypotheses of AccessesJudged. -/
theorem meets_AccessesJudged :
    (∃ (p : Nat), 2 ^ 26 ≤ p) ∧
    (∃ (p : Nat) (e : DWord), p < 2 ^ 26 ∧ eValid e = true ∧ eMoving e = true) ∧
    (∃ (p : Nat) (e : DWord), p < 2 ^ 26 ∧ eValid e = false) ∧
    (∃ (p : Nat) (e : DWord) (h : Nat), p < 2 ^ 26 ∧ eValid e = true ∧ eMoving e = false ∧ eShared e = false ∧ eHerd e ≠ h) ∧
    (∃ (s : State) (p : Nat) (e : DWord) (h : Nat), p < 2 ^ 26 ∧ eValid e = true ∧ eMoving e = false ∧ eShared e = true ∧
      admitted s (eSset e) h = false) ∧
    (∃ (s : State) (p : Nat) (e : DWord) (h : Nat), p < 2 ^ 26 ∧ eValid e = true ∧ eMoving e = false ∧ readable s h e = true ∧ eWr e = false) ∧
    (∃ (s : State) (p : Nat) (e : DWord) (h : Nat), p < 2 ^ 26 ∧ eValid e = true ∧ eMoving e = false ∧ readable s h e = true ∧ eShared e = true) ∧
    (∃ (p : Nat) (e : DWord) (h : Nat), p < 2 ^ 26 ∧ eValid e = true ∧ eMoving e = false ∧ eShared e = false ∧ eHerd e = h ∧ eWr e = true ∧
      eFar e = false) ∧
    (∃ (p : Nat) (e : DWord) (h : Nat), p < 2 ^ 26 ∧ eValid e = true ∧ eMoving e = false ∧ eShared e = false ∧ eHerd e = h ∧ eWr e = true ∧
      eFar e = true) :=
  ⟨⟨(2 ^ 26 : Nat), by decide +kernel⟩,
   ⟨(2 ^ 26 - 1 : Nat), (setBit (mkEntry false false true 1 512 0) 61 true : DWord), by and_intros <;> decide +kernel⟩,
   ⟨(2 ^ 26 - 1 : Nat), (0 : DWord), by and_intros <;> decide +kernel⟩,
   ⟨(0 : Nat), ((mkEntry false false true 1 512 0) : DWord), (2 : Nat), by and_intros <;> decide +kernel⟩,
   ⟨(up : State), (0 : Nat), (mkEntry false false true 1 512 0 ||| 0x400000000000000 : DWord), (2 : Nat), by and_intros <;> decide +kernel⟩,
   ⟨(up : State), (0 : Nat), (mkEntry false false false 1 512 0 : DWord), (1 : Nat), by and_intros <;> decide +kernel⟩,
   ⟨(put up [(ssetReg 0, 4)] : State), (0 : Nat), (mkEntry false false true 1 512 0 ||| 0x400000000000000 : DWord), (2 : Nat),
      by and_intros <;> decide +kernel⟩,
   ⟨(0 : Nat), ((mkEntry false false true 1 512 0) : DWord), (1 : Nat), by and_intros <;> decide +kernel⟩,
   ⟨(0 : Nat), (mkEntry true false true 1 512 0 : DWord), (1 : Nat), by and_intros <;> decide +kernel⟩⟩

/-- States and operands that meet the hypotheses of PagesAllocateAndChange. -/
theorem meets_PagesAllocateAndChange :
    (∃ (s : State) (c : CmdId) (h : Nat) (x : Herd) (page : Nat) (port : Nat) (f : Nat), Ready s ∧ CommandRuns s c h x ∧ page < 2 ^ 26 ∧ port < 24 ∧
      eValid (homeEntry s page) = false ∧ quotaRoom s h = true ∧ freeFrame s port = some f ∧ askedMoves s h = 0 ∧ ErrorFree s ∧ s.mergeBuf = []) ∧
    (∃ (s : State) (c : CmdId) (h : Nat) (x : Herd) (page : Nat) (port : Nat) (f : Nat), Ready s ∧ CommandRuns s c h x ∧ page < 2 ^ 26 ∧ port < 24 ∧
      eValid (homeEntry s page) = false ∧ quotaRoom s h = true ∧ freeFrame s port = some f ∧ askedMoves s h = 0 ∧ ErrorFree s ∧ s.mergeBuf = []) ∧
    (∃ (s : State) (c : CmdId) (h : Nat) (x : Herd) (page : Nat) (n : Nat) (dest : Fin 4) (port : Nat), Ready s ∧ CommandRuns s c h x ∧ ErrorFree s ∧
      s.mergeBuf = [] ∧ runOk page n dest.val port = true ∧ ((∃ p ∈ runPages page n, eValid (homeEntry s p) = true))) ∧
    (∃ (s : State) (c : CmdId) (h : Nat) (x : Herd) (page : Nat) (n : Nat) (dest : Fin 4) (port : Nat), Ready s ∧ CommandRuns s c h x ∧
      runOk page n dest.val port = false) ∧
    (∃ (s : State) (c : CmdId) (h : Nat) (x : Herd) (page : Nat) (n : Nat), Ready s ∧ CommandRuns s c h x ∧ s.moves = [] ∧ 1 ≤ n ∧ page + n ≤ 2 ^ 26 ∧
      ErrorFree s ∧ s.mergeBuf = [] ∧ ((∀ p ∈ runPages page n, eValid (homeEntry s p) = true → eHerd (homeEntry s p) = h ∧
      eShared (homeEntry s p) = false ∧ eMoving (homeEntry s p) = false ∧ (eFar (homeEntry s p) = false → eHome (homeEntry s p) < rsvBase s)))) ∧
    (∃ (s : State) (c : CmdId) (h : Nat) (x : Herd) (page : Nat) (n : Nat), Ready s ∧ CommandRuns s c h x ∧ s.moves = [] ∧ 1 ≤ n ∧ page + n ≤ 2 ^ 26 ∧
      ErrorFree s ∧ s.mergeBuf = [] ∧ ((∀ p ∈ runPages page n, eValid (homeEntry s p) = true ∧ eHerd (homeEntry s p) = h ∧
      eShared (homeEntry s p) = false))) ∧
    (∃ (s : State) (c : CmdId) (h : Nat) (x : Herd) (page : Nat) (n : Nat), Ready s ∧ CommandRuns s c h x ∧ s.moves = [] ∧ 1 ≤ n ∧ page + n ≤ 2 ^ 26 ∧
      ErrorFree s ∧ s.mergeBuf = [] ∧ n = 1 ∧ eValid (homeEntry s page) = true ∧ eHerd (homeEntry s page) = h ∧ eShared (homeEntry s page) = false ∧
      eFar (homeEntry s page) = false ∧ eMoving (homeEntry s page) = false ∧ ePinned (homeEntry s page) = false ∧ pinnedOf s h < floorOf s h) ∧
    (∃ (s : State) (c : CmdId) (h : Nat) (x : Herd) (page : Nat) (n : Nat), Ready s ∧ CommandRuns s c h x ∧ s.moves = [] ∧ 1 ≤ n ∧ page + n ≤ 2 ^ 26 ∧
      ErrorFree s ∧ s.mergeBuf = [] ∧ n = 1 ∧ eValid (homeEntry s page) = true ∧ eHerd (homeEntry s page) = h ∧ eShared (homeEntry s page) = false ∧
      eFar (homeEntry s page) = false ∧ ePinned (homeEntry s page) = true ∧ 0 < pinnedOf s h) ∧
    (∃ (s : State) (c : CmdId) (h : Nat) (x : Herd) (page : Nat) (n : Nat) (dest : Fin 4) (port : Nat), Ready s ∧ CommandRuns s c h x ∧ s.moves = [] ∧
      1 ≤ n ∧ page + n ≤ 2 ^ 26 ∧ ErrorFree s ∧ s.mergeBuf = [] ∧ ((∃ p ∈ runPages page n, eValid (homeEntry s p) = true ∧ eHerd (homeEntry s p) ≠ h)) ∧
      dest.val < 3 ∧ port < 24) :=
  ⟨⟨(asked idle : State), (cmd0 : CmdId), (1 : Nat), (herdOn [0, 1] : Herd), (0x3FFFFFF : Nat), (23 : Nat), (23 : Nat),
      by and_intros <;> first | decide +kernel | exact (notPoisoned_of (by decide +kernel))⟩,
   ⟨((Upd.mem 65536 7).apply (withPage (asked idle) 5 2 23) : State), (cmd0 : CmdId), (1 : Nat), (herdOn [0, 1] : Herd), (0 : Nat), (23 : Nat),
      (47 : Nat), by and_intros <;> first | decide +kernel | exact (notPoisoned_of (by decide +kernel))⟩,
   ⟨(withPage (asked idle) 5 2 23 : State), (cmd0 : CmdId), (1 : Nat), (herdOn [0, 1] : Herd), (4 : Nat), (2 : Nat), (1 : Fin 4), (23 : Nat),
      by and_intros <;> first | decide +kernel | exact (notPoisoned_of (by decide +kernel))⟩,
   ⟨(withPage (asked idle) 5 2 23 : State), (cmd0 : CmdId), (1 : Nat), (herdOn [0, 1] : Herd), (4 : Nat), (0 : Nat), (1 : Fin 4), (24 : Nat),
      by and_intros <;> decide +kernel⟩,
   ⟨(put (withPage (asked idle) 5 1 23) [(migHerd 1 + 8, 1)] : State), (cmd0 : CmdId), (1 : Nat), (herdOn [0, 1] : Herd), (4 : Nat), (2 : Nat),
      by and_intros <;> first | decide +kernel | exact (notPoisoned_of (by decide +kernel))⟩,
   ⟨(put (withPage (asked idle) 5 1 23) [(migHerd 1 + 8, 1)] : State), (cmd0 : CmdId), (1 : Nat), (herdOn [0, 1] : Herd), (5 : Nat), (1 : Nat),
      by and_intros <;> first | decide +kernel | exact (notPoisoned_of (by decide +kernel))⟩,
   ⟨(put (withPage (asked idle) 5 1 23) [(migHerd 1 + 8, 1)] : State), (cmd0 : CmdId), (1 : Nat), (herdOn [0, 1] : Herd), (5 : Nat), (1 : Nat),
      by and_intros <;> first | decide +kernel | exact (notPoisoned_of (by decide +kernel))⟩,
   ⟨(poke (put (asked idle) [(migHerd 1 + 8, 1), (migHerd 1 + 12, 1)]) (homeBase (asked idle) + 40) (leBytes 8 (mkEntry false true true 1 23 0).toNat) : State),
      (cmd0 : CmdId), (1 : Nat), (herdOn [0, 1] : Herd), (5 : Nat), (1 : Nat),
      by and_intros <;> first | decide +kernel | exact (notPoisoned_of (by decide +kernel))⟩,
   ⟨(put (withPage (asked idle) 5 2 23) [(migHerd 1 + 8, 1)] : State), (cmd0 : CmdId), (1 : Nat), (herdOn [0, 1] : Herd), (5 : Nat), (1 : Nat),
      (1 : Fin 4), (2 : Nat), by and_intros <;> first | decide +kernel | exact (notPoisoned_of (by decide +kernel))⟩⟩

/-- States and operands that meet the hypotheses of SharingAndUpkeep. -/
theorem meets_SharingAndUpkeep :
    (∃ (s : State) (c : CmdId) (h : Nat) (x : Herd) (set : BitVec 8) (page : Nat) (n : Nat), Ready s ∧ CommandRuns s c h x ∧ h < 64 ∧ 1 ≤ n ∧
      page + n ≤ 2 ^ 26 ∧ s.moves = [] ∧ ErrorFree s ∧ s.mergeBuf = [] ∧ (mGet s.ssetOwner set.toNat = none ∨ mGet s.ssetOwner set.toNat = some h) ∧
      ((∀ p ∈ runPages page n, eValid (homeEntry s p) = true ∧ eHerd (homeEntry s p) = h ∧ eShared (homeEntry s p) = false ∧
      eMoving (homeEntry s p) = false))) ∧
    (∃ (s : State) (c : CmdId) (h : Nat) (x : Herd) (set : BitVec 8), Ready s ∧ CommandRuns s c h x ∧ h < 64 ∧ mGet s.ssetOwner set.toNat = some h ∧
      askedMoves s h = 0) ∧
    (∃ (s : State) (c : CmdId) (h : Nat) (x : Herd) (set : BitVec 8) (g : HerdNo) (k : HerdNo), Ready s ∧ CommandRuns s c h x ∧ h < 64 ∧
      mGet s.ssetOwner set.toNat = some h ∧ askedMoves s h = 0 ∧ k ≠ g ∧ admitted s set.toNat k.val = true) ∧
    (∃ (s : State) (c : CmdId) (h : Nat) (x : Herd) (set : BitVec 8) (g : HerdNo), Ready s ∧ CommandRuns s c h x ∧ h < 64 ∧
      mGet s.ssetOwner set.toNat = some h ∧ askedMoves s h = 0 ∧ s.moves = [] ∧ ErrorFree s ∧ s.mergeBuf = [] ∧
      ((∀ k : HerdNo, k ≠ g → admitted s set.toNat k.val = false))) ∧
    (∃ (s : State) (c : CmdId) (h : Nat) (x : Herd) (set : BitVec 8), Ready s ∧ CommandRuns s c h x ∧ h < 64 ∧ mGet s.ssetOwner set.toNat ≠ some h) ∧
    (∃ (s : State) (p : Nat), Ready s ∧ p < 2 ^ 26 ∧ mGet s.touched p ≠ none ∧ eValid (homeEntry s p) = true ∧ ErrorFree s ∧ s.mergeBuf = []) ∧
    (∃ (s : State) (p : Nat), Ready s ∧ fenced s (migPage 0) = false ∧ freeFrames s < 16 * fld (rd s (migPage 0 + 0x10C)) 15 0 ∧
      freeFrames s + framesDue s < 16 * fld (rd s (migPage 0 + 0x10C)) 31 16 ∧ evictNext s = some p) ∧
    (∃ (s : State), Ready s ∧ fenced s (migPage 0) = false ∧ freeFrames s < 16 * fld (rd s (migPage 0 + 0x10C)) 15 0 ∧ framesDue s = 0 ∧
      freeFrames s < 16 * fld (rd s (migPage 0 + 0x10C)) 31 16 ∧ evictNext s = none) ∧
    (∃ (s : State) (h : HerdNo) (w : Fin 3) (x : Herd), Ready s ∧ Takes s (migPage 1 / 4096) ∧ herdOf s h.val = some x ∧
      bit (rd s (migHerd h.val + 0x18)) 31 = false ∧ w.val = 2) ∧
    (∃ (s : State) (h : HerdNo) (w : Fin 3) (v : Word) (x : Herd), Ready s ∧ Takes s (migPage 1 / 4096) ∧ herdOf s h.val = some x ∧
      bit (rd s (migHerd h.val + 0x18)) 31 = true ∧ w.val = 2 ∧ bit v 31 = false) ∧
    (∃ (s : State) (h : HerdNo) (w : Fin 3) (v : Word) (x : Herd), Ready s ∧ Takes s (migPage 1 / 4096) ∧ herdOf s h.val = some x ∧
      bit (rd s (migHerd h.val + 0x18)) 31 = true ∧ (w.val ≠ 2 ∨ bit v 31 = true)) ∧
    (∃ (s : State) (h : HerdNo) (i : Nat) (x : Herd) (e : PfEntry), Ready s ∧ herdOf s h.val = some x ∧
      x.prefetch.find? (fun e => decide (e.index = i)) = some e ∧ e.done = false ∧ e.dead = false ∧ pfHomed s e.words = true) :=
  ⟨⟨(put (withPage (asked idle) 5 1 23) [(migHerd 1 + 8, 1)] : State), (cmd0 : CmdId), (1 : Nat), (herdOn [0, 1] : Herd), (255 : BitVec 8),
      (5 : Nat), (1 : Nat), by and_intros <;> first | decide +kernel | exact (notPoisoned_of (by decide +kernel))⟩,
   ⟨((Upd.ssetOwner 255 (some 1)).apply (asked idle) : State), (cmd0 : CmdId), (1 : Nat), (herdOn [0, 1] : Herd), (255 : BitVec 8),
      by and_intros <;> decide +kernel⟩,
   ⟨(put ((Upd.ssetOwner 255 (some 1)).apply (asked idle)) [(ssetReg 255, 6)] : State), (cmd0 : CmdId), (1 : Nat), (herdOn [0, 1] : Herd),
      (255 : BitVec 8), (1 : HerdNo), (2 : HerdNo), by and_intros <;> decide +kernel⟩,
   ⟨(put (poke ((Upd.ssetOwner 255 (some 1)).apply (asked idle)) (homeBase (asked idle) + 40) (leBytes 8 (setBit (mkEntry false false true 1 23 0) 58 true ||| 0xFF0000000000).toNat)) [(ssetReg 255, 2)] : State),
      (cmd0 : CmdId), (1 : Nat), (herdOn [0, 1] : Herd), (255 : BitVec 8), (1 : HerdNo),
      by and_intros <;> first | decide +kernel | exact (notPoisoned_of (by decide +kernel))⟩,
   ⟨(asked idle : State), (cmd0 : CmdId), (1 : Nat), (herdOn [0, 1] : Herd), (255 : BitVec 8), by and_intros <;> decide +kernel⟩,
   ⟨(put ((Upd.touched 5 (some 0)).apply (withPage (asked idle) 5 1 23)) [(beadPage + 0x100, 0x700)] : State), (5 : Nat),
      by and_intros <;> first | decide +kernel | exact (notPoisoned_of (by decide +kernel))⟩,
   ⟨((Upd.extent 0 (some ⟨0, 16, 0, 0, 1, false⟩)).apply (put (withPage (asked idle) 5 1 23) [(migHerd 1 + 8, 1), (migHerd 1 + 4, 0), (migPage 0 + 0x10C, 0x00020001), (migPage 0 + 0x108, 3)]) : State),
      (5 : Nat), by and_intros <;> decide +kernel⟩,
   ⟨(put (withPage (asked idle) 5 1 23) [(migHerd 1 + 8, 1), (migHerd 1 + 4, 0), (migPage 0 + 0x10C, 0x00020001), (migPage 0 + 0x108, 3)] : State),
      by and_intros <;> decide +kernel⟩,
   ⟨(idle : State), (1 : HerdNo), (2 : Fin 3), (herdOn [0, 1] : Herd), by and_intros <;> decide +kernel⟩,
   ⟨(put idle [(migHerd 1 + 0x18, 0x80000005)] : State), (1 : HerdNo), (2 : Fin 3), (5 : Word), (herdOn [0, 1] : Herd),
      by and_intros <;> decide +kernel⟩,
   ⟨(put idle [(migHerd 1 + 0x18, 0x80000005)] : State), (1 : HerdNo), (1 : Fin 3), (5 : Word), (herdOn [0, 1] : Herd),
      by and_intros <;> decide +kernel⟩,
   ⟨(poke (put (withPage (withPage (withHerd up 1 ({ herdOn [0, 1] with prefetch := [(⟨3, [5, 0x5C0001 + 0x10000, 0x20000, 1, 0, 0, 0, 0], false, true, false, false, false, []⟩ : PfEntry)] } : Herd) 1) 0 1 23) 5 1 47) [(migHerd 1 + 0x18, 0x80000005)]) (23 * 65536 + 96) (wordBytes [5, 0x5C0001 + 0x10000, 0x20000, 1, 0, 0, 0, 0]) : State),
      (1 : HerdNo), (3 : Nat),
      ({ herdOn [0, 1] with prefetch := [(⟨3, [5, 0x5C0001 + 0x10000, 0x20000, 1, 0, 0, 0, 0], false, true, false, false, false, []⟩ : PfEntry)] } : Herd),
      (⟨3, [5, 0x5C0001 + 0x10000, 0x20000, 1, 0, 0, 0, 0], false, true, false, false, false, []⟩ : PfEntry), by and_intros <;> decide +kernel⟩⟩

/-- States and operands that meet the hypotheses of PagesMove. -/
theorem meets_PagesMove :
    (∃ (s : State) (c : CmdId) (h : Nat) (x : Herd) (page : Nat) (port : Nat) (dest : Fin 4), Ready s ∧ CommandRuns s c h x ∧ s.moves = [] ∧
      ErrorFree s ∧ s.mergeBuf = [] ∧ page < 2 ^ 26 ∧ dest.val < 3 ∧ port < 24 ∧ eValid (homeEntry s page) = true ∧ eHerd (homeEntry s page) = h ∧
      homedAt (homeEntry s page) (destOf dest.val port 0) = true) ∧
    (∃ (s : State) (c : CmdId) (h : Nat) (x : Herd) (page : Nat) (port : Nat) (dest : Fin 4), Ready s ∧ CommandRuns s c h x ∧ s.moves = [] ∧
      ErrorFree s ∧ s.mergeBuf = [] ∧ page < 2 ^ 26 ∧ dest.val < 3 ∧ port < 24 ∧ eValid (homeEntry s page) = true ∧ eHerd (homeEntry s page) = h ∧
      homedAt (homeEntry s page) (destOf dest.val port 0) = false ∧ ePinned (homeEntry s page) = false) ∧
    (∃ (s : State) (m : PageMove) (n : Nat) (f : Nat), Ready s ∧ nextMove s = some m ∧ movesNow s < 16 ∧ fenced s (migPage 0) = false ∧
      m.page < 2 ^ 26 ∧ eValid (homeEntry s m.page) = true ∧ (eShared (homeEntry s m.page) = false ∨ m.explicit_ = true) ∧
      eHerd (homeEntry s m.page) = m.herd ∧ homedAt (homeEntry s m.page) m.dest = false ∧ (m.setPinned = false ∨ eFar (homeEntry s m.page) = true) ∧
      ErrorFree s ∧ s.mergeBuf = [] ∧ m.dest = some n ∧
      (eFar (homeEntry s m.page) = false ∨ eShared (homeEntry s m.page) = true ∨ quotaRoom s m.herd = true) ∧ freeFrame s n = some f) ∧
    (∃ (s : State) (m : PageMove) (f : Nat), Ready s ∧ nextMove s = some m ∧ movesNow s < 16 ∧ fenced s (migPage 0) = false ∧ m.page < 2 ^ 26 ∧
      eValid (homeEntry s m.page) = true ∧ (eShared (homeEntry s m.page) = false ∨ m.explicit_ = true) ∧ eHerd (homeEntry s m.page) = m.herd ∧
      homedAt (homeEntry s m.page) m.dest = false ∧ (m.setPinned = false ∨ eFar (homeEntry s m.page) = true) ∧ ErrorFree s ∧ s.mergeBuf = [] ∧
      m.dest = none ∧ (ePinned (homeEntry s m.page) = false ∨ m.explicit_ = true) ∧ freeFar s m.herd = some f) ∧
    (∃ (s : State) (p : Nat) (m : PageMove), Ready s ∧ s.moves.find? (fun m => m.started && decide (m.page = p)) = some m ∧ p < 2 ^ 26 ∧
      m.far = false ∧ m.setPinned = false ∧ m.explicit_ = false ∧ m.after = none ∧ eFar (homeEntry s p) = false ∧ eShared (homeEntry s p) = false ∧
      eHome (homeEntry s p) < rsvBase s ∧ m.home < rsvBase s ∧ m.home ≠ eHome (homeEntry s p) ∧ ErrorFree s ∧ s.mergeBuf = []) :=
  ⟨⟨(put (withPage (asked idle) 5 1 23) [(migHerd 1 + 8, 1)] : State), (cmd0 : CmdId), (1 : Nat), (herdOn [0, 1] : Herd), (5 : Nat), (23 : Nat),
      (1 : Fin 4), by and_intros <;> first | decide +kernel | exact (notPoisoned_of (by decide +kernel))⟩,
   ⟨(put (withPage (asked idle) 5 1 23) [(migHerd 1 + 8, 1)] : State), (cmd0 : CmdId), (1 : Nat), (herdOn [0, 1] : Herd), (5 : Nat), (0 : Nat),
      (1 : Fin 4), by and_intros <;> first | decide +kernel | exact (notPoisoned_of (by decide +kernel))⟩,
   ⟨({ put (withPage (asked idle) 5 1 23) [(migHerd 1 + 8, 1), (migPage 0 + 0x108, 9)] with moves := [⟨5, 1, some 0, false, false, 0, false, false, none, none⟩] } : State),
      (⟨5, 1, some 0, false, false, 0, false, false, none, none⟩ : PageMove), (0 : Nat), (0 : Nat),
      by and_intros <;> first | decide +kernel | exact (notPoisoned_of (by decide +kernel))⟩,
   ⟨({ (Upd.extent 2 (some ⟨0, 16, 0, 0, 1, false⟩)).apply (put (withPage (asked idle) 5 1 23) [(migHerd 1 + 8, 1)]) with moves := [⟨5, 1, none, false, false, 0, false, false, none, none⟩] } : State),
      (⟨5, 1, none, false, false, 0, false, false, none, none⟩ : PageMove), (2 * 2 ^ 18 : Nat),
      by and_intros <;> first | decide +kernel | exact (notPoisoned_of (by decide +kernel))⟩,
   ⟨({ poke (put (withPage (asked idle) 5 1 23) [(migHerd 1 + 8, 1)]) (23 * 65536) [1, 2, 3] with moves := [⟨5, 1, some 0, false, false, 0, false, true, none, none⟩] } : State),
      (5 : Nat), (⟨5, 1, some 0, false, false, 0, false, true, none, none⟩ : PageMove),
      by and_intros <;> first | decide +kernel | exact (notPoisoned_of (by decide +kernel))⟩⟩

/-- States and operands that meet the hypotheses of HerdFloors. -/
theorem meets_HerdFloors :
    (∃ (s : State) (h : HerdNo) (v : Word) (others : Nat) (shared : Nat), Ready s ∧ Takes s (migPage 1 / 4096) ∧
      others = ((List.range 64).filter (fun g => decide (g ≠ h.val))).foldl (fun a g => a + floorOf s g) 0 ∧
      shared = ((validPages s).filter (fun p => eShared (homeEntry s p) && !eFar (homeEntry s p))).length ∧ others + fld v 25 0 + shared ≤ rsvBase s ∧
      pinnedOf s h.val ≤ fld v 25 0) ∧
    (∃ (s : State) (h : HerdNo) (v : Word) (others : Nat) (shared : Nat), Ready s ∧ Takes s (migPage 1 / 4096) ∧
      others = ((List.range 64).filter (fun g => decide (g ≠ h.val))).foldl (fun a g => a + floorOf s g) 0 ∧
      shared = ((validPages s).filter (fun p => eShared (homeEntry s p) && !eFar (homeEntry s p))).length ∧
      (rsvBase s < others + fld v 25 0 + shared ∨ fld v 25 0 < pinnedOf s h.val)) :=
  ⟨⟨(up : State), (63 : HerdNo), (21972648 : Word), (0 : Nat), (0 : Nat), by and_intros <;> decide +kernel⟩,
   ⟨(up : State), (63 : HerdNo), (21972649 : Word), (0 : Nat), (0 : Nat), by and_intros <;> decide +kernel⟩⟩

/-- States and operands that meet the hypotheses of PortAccesses. -/
theorem meets_PortAccesses :
    (∃ (s : State) (n : PortNo) (l : Nat) (b : Nat), Ready s ∧ b = blkOf n.val l ∧ mergeOf s b = none ∧ portFilled s n.val = false) ∧
    (∃ (s : State) (n : PortNo) (l : Nat) (b : Nat), Ready s ∧ b = blkOf n.val l ∧ mergeOf s b = none ∧ portFilled s n.val = true ∧ CleanBlk s b) ∧
    (∃ (s : State) (n : PortNo) (l : Nat) (b : Nat) (es : List (Nat × Byte)), Ready s ∧ b = blkOf n.val l ∧ mergeOf s b = none ∧
      portFilled s n.val = true ∧ poisoned s b = false ∧ verdictAt s (tcorrOf s n.val) (heldAt s b) = .fixed es ∧
      bit (rd s (mpPage n.val + 0x100)) 3 = true ∧ bit (rd s (mpPage n.val + 0x100)) 4 = false) ∧
    (∃ (s : State) (n : PortNo) (l : Nat) (b : Nat), Ready s ∧ b = blkOf n.val l ∧ mergeOf s b = none ∧ portFilled s n.val = true ∧
      decodeBlk s b = none) ∧
    (∃ (s : State) (n : PortNo) (l : Nat) (b : Nat), Ready s ∧ b = blkOf n.val l ∧
      (s.mergeBuf.filter (fun m => decide (m.port = blkPort b) && decide (m.lblock = blkLocal b))).length ≤ 1 ∧ portFilled s n.val = false) ∧
    (∃ (s : State) (n : PortNo) (l : Nat) (b : Nat) (data : List Byte), Ready s ∧ b = blkOf n.val l ∧
      (s.mergeBuf.filter (fun m => decide (m.port = blkPort b) && decide (m.lblock = blkLocal b))).length ≤ 1 ∧ portFilled s n.val = true ∧
      data.length = 64) ∧
    (∃ (s : State) (n : PortNo) (l : Nat) (b : Nat) (data : List (Option Byte)), Ready s ∧ b = blkOf n.val l ∧
      (s.mergeBuf.filter (fun m => decide (m.port = blkPort b) && decide (m.lblock = blkLocal b))).length ≤ 1 ∧ portFilled s n.val = true ∧
      data.length = 64 ∧ mergeOf s b = none ∧ (s.mergeBuf.filter (fun x => decide (x.port = blkPort b))).length < 32 ∧ data.all Option.isSome = false) ∧
    (∃ (s : State) (n : PortNo) (l : Nat) (b : Nat) (data : List (Option Byte)), Ready s ∧ b = blkOf n.val l ∧
      (s.mergeBuf.filter (fun m => decide (m.port = blkPort b) && decide (m.lblock = blkLocal b))).length ≤ 1 ∧ portFilled s n.val = true ∧
      data.length = 64 ∧ mergeOf s b = none ∧ (s.mergeBuf.filter (fun x => decide (x.port = blkPort b))).length < 32 ∧ data.all Option.isSome = true) ∧
    (∃ (s : State) (n : PortNo) (l : Nat) (b : Nat) (data : List (Option Byte)) (m : MergeEntry) (new : List (Option Byte)), Ready s ∧
      b = blkOf n.val l ∧ (s.mergeBuf.filter (fun m => decide (m.port = blkPort b) && decide (m.lblock = blkLocal b))).length ≤ 1 ∧
      portFilled s n.val = true ∧ data.length = 64 ∧ mergeOf s b = some m ∧ m.bytes.length = 64 ∧
      new = List.zipWith (fun n o => n.orElse (fun _ => o)) data m.bytes ∧ new.all Option.isSome = false) ∧
    (∃ (s : State) (n : PortNo) (l : Nat) (b : Nat) (data : List (Option Byte)) (m : MergeEntry) (new : List (Option Byte)), Ready s ∧
      b = blkOf n.val l ∧ (s.mergeBuf.filter (fun m => decide (m.port = blkPort b) && decide (m.lblock = blkLocal b))).length ≤ 1 ∧
      portFilled s n.val = true ∧ data.length = 64 ∧ mergeOf s b = some m ∧ m.bytes.length = 64 ∧
      new = List.zipWith (fun n o => n.orElse (fun _ => o)) data m.bytes ∧ new.all Option.isSome = true) ∧
    (∃ (s : State) (n : PortNo) (l : Nat) (b : Nat) (m : MergeEntry) (old : List Byte), Ready s ∧ b = blkOf n.val l ∧
      (s.mergeBuf.filter (fun m => decide (m.port = blkPort b) && decide (m.lblock = blkLocal b))).length ≤ 1 ∧
      s.mergeBuf.find? (fun m => decide (m.port = n.val)) = some m ∧ mergeOf s b = some m ∧ decodeBlk s b = some old ∧ m.bytes.length = 64) :=
  ⟨⟨(up : State), (0 : PortNo), (1025 : Nat), (24 * 1024 + 1 : Nat), by and_intros <;> decide +kernel⟩,
   ⟨(poke (filled 0) (24 * 65536 + 64) [1, 2, 3] : State), (0 : PortNo), (1025 : Nat), (24 * 1024 + 1 : Nat), by and_intros <;> decide +kernel⟩,
   ⟨(put (poke ((Upd.chk 3 5).apply (filled 0)) 3 [1]) [(mpPage 0 + 0x100, 12)] : State), (0 : PortNo), (0 : Nat), (0 : Nat),
      ((match verdictAt (put (poke ((Upd.chk 3 5).apply (filled 0)) 3 [1]) [(mpPage 0 + 0x100, 12)] : State) (tcorrOf (put (poke ((Upd.chk 3 5).apply (filled 0)) 3 [1]) [(mpPage 0 + 0x100, 12)] : State) 0) (heldAt (put (poke ((Upd.chk 3 5).apply (filled 0)) 3 [1]) [(mpPage 0 + 0x100, 12)] : State) 0) with | .fixed es => es | _ => []) : List (Nat × Byte)),
      by and_intros <;> decide +kernel⟩,
   ⟨(put (filled 0) [(remapReg 0 0, 0xC0000000), (mpPage 0 + 0x118, 0x100)] : State), (0 : PortNo), (0 : Nat), (0 : Nat),
      by and_intros <;> decide +kernel⟩,
   ⟨(up : State), (23 : PortNo), (1 : Nat), (23 * 1024 + 1 : Nat), by and_intros <;> decide +kernel⟩,
   ⟨({ filled 23 with mergeBuf := [⟨23, 1, List.replicate 64 (some 1), 0, []⟩] } : State), (23 : PortNo), (1 : Nat), (23 * 1024 + 1 : Nat),
      (List.replicate 64 9 : List Byte), by and_intros <;> decide +kernel⟩,
   ⟨(filled 23 : State), (23 : PortNo), (1 : Nat), (23 * 1024 + 1 : Nat), (some 7 :: List.replicate 63 none : List (Option Byte)),
      by and_intros <;> decide +kernel⟩,
   ⟨(filled 23 : State), (23 : PortNo), (1 : Nat), (23 * 1024 + 1 : Nat), (List.replicate 64 (some 7) : List (Option Byte)),
      by and_intros <;> decide +kernel⟩,
   ⟨({ filled 23 with mergeBuf := [(⟨23, 1, some 5 :: List.replicate 63 none, 63, []⟩ : MergeEntry)] } : State), (23 : PortNo), (1 : Nat),
      (23 * 1024 + 1 : Nat), (none :: some 7 :: List.replicate 62 none : List (Option Byte)),
      (⟨23, 1, some 5 :: List.replicate 63 none, 63, []⟩ : MergeEntry), (some 5 :: some 7 :: List.replicate 62 none : List (Option Byte)),
      by and_intros <;> decide +kernel⟩,
   ⟨({ filled 23 with mergeBuf := [(⟨23, 1, some 5 :: List.replicate 63 none, 63, []⟩ : MergeEntry)] } : State), (23 : PortNo), (1 : Nat),
      (23 * 1024 + 1 : Nat), (none :: List.replicate 63 (some 7) : List (Option Byte)),
      (⟨23, 1, some 5 :: List.replicate 63 none, 63, []⟩ : MergeEntry), (some 5 :: List.replicate 63 (some 7) : List (Option Byte)),
      by and_intros <;> decide +kernel⟩,
   ⟨({ up with mergeBuf := [(⟨23, 1, some 5 :: List.replicate 63 none, 63, []⟩ : MergeEntry)] } : State), (23 : PortNo), (1 : Nat),
      (23 * 1024 + 1 : Nat), (⟨23, 1, some 5 :: List.replicate 63 none, 63, []⟩ : MergeEntry), (List.replicate 64 0 : List Byte),
      by and_intros <;> decide +kernel⟩⟩

/-- States and operands that meet the hypotheses of PortUpkeepAndTests. -/
theorem meets_PortUpkeepAndTests :
    (∃ (s : State) (n : PortNo), Ready s ∧ fld (rd s (mpPage n.val + 0x10C)) 15 8 = 0xFF ∧ fld (rd s (mpPage n.val + 0x10C)) 1 0 = 2) ∧
    (∃ (s : State) (n : PortNo) (pos : Nat), Ready s ∧ bit (rd s (mpPage n.val + 0x104)) 0 = true ∧ inlineOn s = true ∧
      pos = fld (rd s (mpPage n.val + 0x108)) 22 0 ∧ s.mergeBuf = [] ∧
      ((∀ i < 128, CleanBlk s (1024 * (pos / 8 * 24 + n.val) + (pos % 8 * 8 + i / 16) * 16 + i % 16)))) ∧
    (∃ (s : State) (n : PortNo) (pos : Nat), Ready s ∧ bit (rd s (mpPage n.val + 0x104)) 0 = true ∧ inlineOn s = true ∧
      pos = fld (rd s (mpPage n.val + 0x108)) 22 0 ∧ s.mergeBuf = [] ∧
      ((∀ i < 128, CleanBlk s (1024 * (pos / 8 * 24 + n.val) + (pos % 8 * 8 + i / 16) * 16 + i % 16)))) ∧
    (∃ (s : State) (n : PortNo) (e : Fin 64) (v : Word), Ready s ∧ Takes s (mpPage n.val / 4096) ∧ remapRefused s n.val e.val v = false ∧
      bit v 31 = true ∧ bit v 30 = false ∧ mergeOf s (blkOf n.val (fld v 29 0)) = none ∧ fld (rd s (mpPage n.val + 0x118)) 14 8 < 64 ∧
      ((∀ k : Fin 64, bit (rd s (remapReg n.val k.val)) 31 = true → fld (rd s (remapReg n.val k.val)) 29 0 ≠ fld v 29 0))) ∧
    (∃ (s : State) (n : PortNo) (e : Fin 64) (v : Word), Ready s ∧ Takes s (mpPage n.val / 4096) ∧ remapRefused s n.val e.val v = true) ∧
    (∃ (s : State) (n : PortNo) (b : Nat) (q : Nat), Ready s ∧ Takes s (mpPage n.val / 4096) ∧ bit (rd s (mpPage n.val + 0x120)) 0 = true ∧
      portZeroed s n.val = true ∧ b = blkOf n.val (fld (rd s (mpPage n.val + 0x124)) 29 0) ∧ q = heldAt s b ∧ testRejected s n.val 1 = false) ∧
    (∃ (s : State) (n : PortNo) (b : Nat) (q : Nat), Ready s ∧ Takes s (mpPage n.val / 4096) ∧ bit (rd s (mpPage n.val + 0x120)) 0 = true ∧
      portZeroed s n.val = true ∧ b = blkOf n.val (fld (rd s (mpPage n.val + 0x124)) 29 0) ∧ q = heldAt s b ∧ testRejected s n.val 2 = false ∧
      mergeOf s b = none) ∧
    (∃ (s : State) (n : PortNo) (b : Nat) (q : Nat), Ready s ∧ Takes s (mpPage n.val / 4096) ∧ bit (rd s (mpPage n.val + 0x120)) 0 = true ∧
      portZeroed s n.val = true ∧ b = blkOf n.val (fld (rd s (mpPage n.val + 0x124)) 29 0) ∧ q = heldAt s b ∧ testRejected s n.val 3 = false ∧
      mergeOf s b = none) ∧
    (∃ (s : State) (n : PortNo) (b : Nat) (q : Nat), Ready s ∧ Takes s (mpPage n.val / 4096) ∧ bit (rd s (mpPage n.val + 0x120)) 0 = true ∧
      portZeroed s n.val = true ∧ b = blkOf n.val (fld (rd s (mpPage n.val + 0x124)) 29 0) ∧ q = heldAt s b ∧ testRejected s n.val 4 = false) ∧
    (∃ (s : State) (n : PortNo) (b : Nat) (q : Nat), Ready s ∧ Takes s (mpPage n.val / 4096) ∧ bit (rd s (mpPage n.val + 0x120)) 0 = true ∧
      portZeroed s n.val = true ∧ b = blkOf n.val (fld (rd s (mpPage n.val + 0x124)) 29 0) ∧ q = heldAt s b ∧ testRejected s n.val 5 = false ∧
      mergeOf s b = none) ∧
    (∃ (s : State) (n : PortNo) (b : Nat) (q : Nat), Ready s ∧ Takes s (mpPage n.val / 4096) ∧ bit (rd s (mpPage n.val + 0x120)) 0 = true ∧
      portZeroed s n.val = true ∧ b = blkOf n.val (fld (rd s (mpPage n.val + 0x124)) 29 0) ∧ q = heldAt s b ∧ testRejected s n.val 6 = false ∧
      mergeOf s b = none) ∧
    (∃ (s : State) (n : PortNo) (b : Nat) (q : Nat), Ready s ∧ Takes s (mpPage n.val / 4096) ∧ bit (rd s (mpPage n.val + 0x120)) 0 = true ∧
      portZeroed s n.val = true ∧ b = blkOf n.val (fld (rd s (mpPage n.val + 0x124)) 29 0) ∧ q = heldAt s b ∧
      (∀ k < 6, testRejected s n.val (k + 1) = true)) :=
  ⟨⟨(poke (put up [(mpPage 23 + 0x10C, 0xFF02)]) (23 * 65536) [1, 2] : State), (23 : PortNo), by and_intros <;> decide +kernel⟩,
   ⟨(put up [(mpPage 23 + 0x104, 1), (mpPage 23 + 0x108, 7)] : State), (23 : PortNo), (7 : Nat), by and_intros <;> decide +kernel⟩,
   ⟨(put up [(mpPage 23 + 0x104, 1), (mpPage 23 + 0x108, BitVec.ofNat 32 (scrubGroups up - 1))] : State), (23 : PortNo), (scrubGroups up - 1 : Nat),
      by and_intros <;> decide +kernel⟩,
   ⟨(poke up (23 * 65536 + 64) [1, 2] : State), (23 : PortNo), (63 : Fin 64), (0x80000001 : Word), by and_intros <;> decide +kernel⟩,
   ⟨(put up [(remapReg 23 5, 0x80000001)] : State), (23 : PortNo), (5 : Fin 64), (0x80000001 : Word), by and_intros <;> decide +kernel⟩,
   ⟨(put up [(mpPage 23 + 0x10C, 0xFF01), (mpPage 23 + 0x120, 0x11), (mpPage 23 + 0x124, 1), (mpPage 23 + 0x130, 0x12345678), (pwrPage 0 + 0x100, 0)] : State),
      (23 : PortNo), (23 * 1024 + 1 : Nat), (23 * 1024 + 1 : Nat), by and_intros <;> decide +kernel⟩,
   ⟨(put up [(mpPage 23 + 0x10C, 0xFF01), (mpPage 23 + 0x120, 0x11), (mpPage 23 + 0x124, 1), (mpPage 23 + 0x130, 0x12345678)] : State),
      (23 : PortNo), (23 * 1024 + 1 : Nat), (23 * 1024 + 1 : Nat), by and_intros <;> decide +kernel⟩,
   ⟨(put up [(mpPage 23 + 0x10C, 0xFF01), (mpPage 23 + 0x120, 0x11), (mpPage 23 + 0x124, 1), (mpPage 23 + 0x170, 0x12345678)] : State),
      (23 : PortNo), (23 * 1024 + 1 : Nat), (23 * 1024 + 1 : Nat), by and_intros <;> decide +kernel⟩,
   ⟨(put up [(mpPage 23 + 0x10C, 0xFF01), (mpPage 23 + 0x120, 0x11), (mpPage 23 + 0x124, 1), (mpPage 23 + 0x170, 0x12345678)] : State),
      (23 : PortNo), (23 * 1024 + 1 : Nat), (23 * 1024 + 1 : Nat), by and_intros <;> decide +kernel⟩,
   ⟨(poke (put up [(mpPage 23 + 0x10C, 0xFF01), (mpPage 23 + 0x120, 0x11), (mpPage 23 + 0x124, 1)]) (23 * 65536 + 64) [1, 2, 3] : State),
      (23 : PortNo), (23 * 1024 + 1 : Nat), (23 * 1024 + 1 : Nat), by and_intros <;> decide +kernel⟩,
   ⟨((Upd.chk (4 * (23 * 1024 + 1) + 3) 5).apply (put up [(mpPage 23 + 0x10C, 0xFF01), (mpPage 23 + 0x120, 0x11), (mpPage 23 + 0x124, 1)]) : State),
      (23 : PortNo), (23 * 1024 + 1 : Nat), (23 * 1024 + 1 : Nat), by and_intros <;> decide +kernel⟩,
   ⟨(put up [(mpPage 23 + 0x10C, 0xFF01), (mpPage 23 + 0x120, 0x81), (mpPage 23 + 0x124, 0x3FFFFFFF)] : State), (23 : PortNo),
      (blkOf 23 0x3FFFFFFF : Nat),
      (heldAt (put up [(mpPage 23 + 0x10C, 0xFF01), (mpPage 23 + 0x120, 0x81), (mpPage 23 + 0x124, 0x3FFFFFFF)] : State) (blkOf 23 0x3FFFFFFF) : Nat),
      by and_intros <;> decide +kernel⟩⟩

/-- States and operands that meet the hypotheses of BeadsEnd. -/
theorem meets_BeadsEnd :
    (∃ (s : State), Ready s ∧ isSource s = true ∧ podEn s = false ∧ beadRuns s = true ∧ ((beadHeld s = false ∨ inHold s = true)) ∧ QuietBoundary s) ∧
    (∃ (s : State) (v : Word), Ready s ∧ Takes s 3 ∧ podEn s = false ∧ beadRuns s = false ∧ bit v 0 = true ∧ QuietBoundary s) ∧
    (∃ (s : State) (k : BxNo), Ready s ∧ linkUp s k.val = true ∧ k.val < 6 ∧ podEn s = true ∧ isSource s = false ∧
      parentPort s (ownPos s) = some k.val ∧ QuietBoundary s) ∧
    (∃ (s : State), Ready s ∧ podEn s = true ∧ isSource s = false ∧ 4 ≤ fld (rd s (beadPage + 0x128)) 11 8 ∧ QuietBoundary s) ∧
    (∃ (s : State), Ready s ∧ podEn s = true ∧ isSource s = false ∧ 4 ≤ fld (rd s (beadPage + 0x128)) 11 8 ∧ QuietBoundary s) ∧
    (∃ (s : State), Ready s ∧ podEn s = true ∧ isSource s = false ∧ fld (rd s (beadPage + 0x128)) 11 8 = 1 ∧ isDeputy s = true ∧
      (parentPort s (ownPos s)).any (linkUp s) = false ∧ leadPos s < 64 ∧ QuietBoundary s) ∧
    (∃ (s : State), Ready s ∧ beadHeld s = true ∧ inHold s = false ∧ (isSource s = false ∨ beadRuns s = true)) ∧
    (∃ (s : State) (v : Word) (p : Nat), Ready s ∧ Takes s 3 ∧ p = fld v 19 0 ∧ bit v 31 = true ∧ 1000 ≤ p ∧ p ≤ 1000000 ∧
      fld (rd s (beadPage + 0x124)) 19 0 ≤ p ∧ (beadNo s).toNat + 2 ≤ (rd64 s (beadPage + 0x118)).toNat) ∧
    (∃ (s : State) (v : Word) (p : Nat), Ready s ∧ Takes s 3 ∧ p = fld v 19 0 ∧ bit v 31 = true ∧
      (p < 1000 ∨ 1000000 < p ∨ p < fld (rd s (beadPage + 0x124)) 19 0 ∨ (rd64 s (beadPage + 0x118)).toNat < (beadNo s).toNat + 2)) ∧
    (∃ (s : State) (v : Word) (p : Nat), Ready s ∧ Takes s 3 ∧ p = fld v 19 0 ∧ bit v 31 = true ∧
      (p < 1000 ∨ 1000000 < p ∨ p < fld (rd s (beadPage + 0x124)) 19 0 ∨ (rd64 s (beadPage + 0x118)).toNat < (beadNo s).toNat + 2)) :=
  ⟨⟨(put up [(beadPage + 0x120, 1), (beadPage + 0x100, 0xFFFFFFFF), (beadPage + 0x108, 5), (beadPage + 0x110, 0x800003E8), (beadPage + 0x118, 0), (beadPage + 0x11C, 1)] : State),
      by and_intros <;> decide +kernel⟩,
   ⟨(up : State), (0x7F03 : Word), by and_intros <;> decide +kernel⟩,
   ⟨(put (podAt 1) [(beadPage + 0x120, 1), (beadPage + 0x128, 0x304)] : State), (1 : BxNo), by and_intros <;> decide +kernel⟩,
   ⟨(put (podAt 1) [(beadPage + 0x120, 1), (beadPage + 0x128, 0xF00)] : State), by and_intros <;> decide +kernel⟩,
   ⟨(put (podAt 1) [(beadPage + 0x120, 1), (beadPage + 0x128, 0x400)] : State), by and_intros <;> decide +kernel⟩,
   ⟨(put (podAt 1) [(beadPage + 0x120, 1), (beadPage + 0x128, 0x100), (bxPage 1 + 0x104, 1)] : State), by and_intros <;> decide +kernel⟩,
   ⟨(put running [(beadPage + 0x120, 1), (beadPage + 0x128, 2), (beadPage + 0x108, 77)] : State), by and_intros <;> decide +kernel⟩,
   ⟨(put up [(beadPage + 0x118, 2)] : State), (0x800F4240 : Word), (1000000 : Nat), by and_intros <;> decide +kernel⟩,
   ⟨(put up [(beadPage + 0x118, 1)] : State), (0x800F4240 : Word), (1000000 : Nat), by and_intros <;> decide +kernel⟩,
   ⟨(put up [(beadPage + 0x118, 2)] : State), (0x800003E7 : Word), (999 : Nat), by and_intros <;> decide +kernel⟩⟩

/-- States and operands that meet the hypotheses of BeadExchangeAndDumps. -/
theorem meets_BeadExchangeAndDumps :
    (∃ (s : State) (k : BxNo) (bead : BitVec 16), Ready s ∧ linkUp s k.val = true ∧ k.val < 6 ∧ podEn s = true ∧ s.side.kids.contains k.val = true ∧
      s.side.sent = false ∧ bit s.side.reported k.val = false ∧ bead.toNat = (beadNo s).toNat % 65536 ∧ ((∃ j ∈ s.side.kids, j ≠ k.val ∧
      bit s.side.reported j = false))) ∧
    (∃ (s : State) (k : Nat), Ready s ∧ podEn s = true ∧ s.side.sent = false ∧ isRoot s = false ∧ isLead s = false ∧ parentPort s (ownPos s) = some k ∧
      linkUp s k = true ∧ s.side.kids.all (fun k => bit s.side.reported k) = false) ∧
    (∃ (s : State) (k : BxNo) (bead : BitVec 16), Ready s ∧ linkUp s k.val = true ∧ k.val < 6 ∧ podEn s = true ∧ isRoot s = false ∧
      parentPort s (ownPos s) = some k.val ∧ bead.toNat = (beadNo s).toNat % 65536 ∧ s.herd = [] ∧ s.side.closing = [] ∧ childPorts s (ownPos s) = []) ∧
    (∃ (s : State) (h : HaltSym) (x : Herd), Ready s ∧ HaltHere s h ∧ herdOf s h.herd.val = some x ∧ x.pod = true) ∧
    (∃ (s : State) (h : HaltSym), Ready s ∧ h.crcOk = false) ∧
    (∃ (s : State) (h : HaltSym), Ready s ∧ HaltHere s h ∧ h.origin.toNat = leadPos s) ∧
    (∃ (s : State) (v : Word), Ready s ∧ Takes s 4 ∧ bit v 31 = true ∧ bit (rd s dumpCtl) 30 = false) ∧
    (∃ (s : State) (v : Word), Ready s ∧ Takes s 4 ∧ bit v 31 = true ∧ bit (rd s dumpCtl) 30 = true) ∧
    (∃ (s : State) (d : DumpRun), Ready s ∧ s.dumpRun = some d ∧ allFilled s = false) ∧
    (∃ (s : State) (d : DumpRun), Ready s ∧ s.dumpRun = some d ∧ d.cmd = none ∧ allFilled s = true) :=
  ⟨⟨({ put (podAt 0) [(beadPage + 0x120, 1)] with side := { Sideband.clear with kids := [1, 3], missed := [(1, 2)] } } : State), (1 : BxNo),
      (0 : BitVec 16), by and_intros <;> decide +kernel⟩,
   ⟨({ podAt 1 with side := { Sideband.clear with kids := [1, 3], reported := 2, missed := [(3, 2)] } } : State), (1 : Nat),
      by and_intros <;> decide +kernel⟩,
   ⟨(put (podAt 2) [(beadPage + 0x120, 1)] : State), (1 : BxNo), (0 : BitVec 16), by and_intros <;> decide +kernel⟩,
   ⟨(put (withHerd (podAt 1) 1 podHerd 3) [(seqPage 1 + 0x104, 5)] : State), (⟨1, 0, 1, 1, false, true⟩ : HaltSym), (podHerd : Herd),
      by and_intros <;> decide +kernel⟩,
   ⟨(podAt 1 : State), (⟨1, 0, 1, 1, false, false⟩ : HaltSym), by and_intros <;> decide +kernel⟩,
   ⟨(podAt 1 : State), (⟨1, 0, 1, 1, false, true⟩ : HaltSym), by and_intros <;> decide +kernel⟩,
   ⟨(up : State), (0x8000013F : Word), by and_intros <;> decide +kernel⟩,
   ⟨(put up [(dumpCtl, 0x40000000)] : State), (0x8000013F : Word), by and_intros <;> decide +kernel⟩,
   ⟨({ put up [(dumpCtl, 0x40000000)] with dumpRun := some (⟨1, 5, true, 3, 4, none, 0⟩ : DumpRun) } : State),
      (⟨1, 5, true, 3, 4, none, 0⟩ : DumpRun), by and_intros <;> decide +kernel⟩,
   ⟨({ put (allZeroed up) [(dumpCtl, 0x40000000)] with dumpRun := some (⟨1, 5, true, 3, 4, none, 0⟩ : DumpRun) } : State),
      (⟨1, 5, true, 3, 4, none, 0⟩ : DumpRun), by and_intros <;> decide +kernel⟩⟩

/-- States and operands that meet the hypotheses of LinksRun. -/
theorem meets_LinksRun :
    (∃ (s : State) (p : BxNo) (l : BitVec 16) (done : List Frame) (rest : List Frame) (g : Frame), Ready s ∧ linkUp s p.val = true ∧
      (bxOf s p.val).replay = done ++ g :: rest ∧ ((∀ f ∈ done, f.lseq ≠ l.toNat)) ∧ g.lseq = l.toNat ∧ (bxOf s p.val).waiting = []) ∧
    (∃ (s : State) (p : BxNo) (l : BitVec 16) (done : List Frame) (rest : List Frame) (now : List Frame) (g : Frame), Ready s ∧ linkUp s p.val = true ∧
      (bxOf s p.val).replay = done ++ g :: rest ∧ ((∀ f ∈ done, f.lseq ≠ l.toNat)) ∧ g.lseq = l.toNat ∧
      now = (g :: rest).takeWhile (fun f => decide (f.lvc = 0) || !s.side.linkStop)) ∧
    (∃ (s : State) (p : BxNo), Ready s ∧ linkUp s p.val = true ∧ (bxOf s p.val).waiting = []) ∧
    (∃ (s : State), Ready s) ∧
    (∃ (s : State) (p : BxNo) (w : Word), Ready s ∧ trains s p.val = true ∧ linkUp s p.val = false ∧ unconnected s p.val = false ∧ isLead s = false ∧
      ((p.val < 6 → bit (rd s (bxPage p.val + 0x108)) 31 = true ∧ rd s (bxPage p.val + 0x108) = w &&& 0x803FFFFF))) ∧
    (∃ (s : State) (p : BxNo) (w : Word), Ready s ∧ trains s p.val = true ∧ linkUp s p.val = false ∧ unconnected s p.val = false ∧ isLead s = false ∧
      ((p.val < 6 → bit (rd s (bxPage p.val + 0x108)) 31 = true ∧ rd s (bxPage p.val + 0x108) = w &&& 0x803FFFFF))) ∧
    (∃ (s : State) (p : BxNo) (w : Word), Ready s ∧ trains s p.val = true ∧ linkUp s p.val = false ∧ unconnected s p.val = false ∧ p.val < 6 ∧
      (bit (rd s (bxPage p.val + 0x108)) 31 = false ∨ rd s (bxPage p.val + 0x108) ≠ w &&& 0x803FFFFF)) ∧
    (∃ (s : State) (p : BxNo), Ready s ∧ linkUp s p.val = true) ∧
    (∃ (s : State) (p : BxNo) (v : Word), Ready s ∧ linkUp s p.val = true ∧ Takes s (bxPage p.val / 4096) ∧ bit v 0 = true ∧ bit v 1 = true ∧
      unconnected s p.val = false) ∧
    (∃ (s : State), Ready s) ∧
    (∃ (s : State) (f : FrameHdr) (type : BitVec 8) (data : List Byte) (k : Nat) (g : Frame), Ready s ∧ linkUp s f.port.val = true ∧ f.port.val < 6 ∧
      podEn s = true ∧ f.crcOk = true ∧ f.lseq.toNat = (bxOf s f.port.val).rxSeq ∧ f.dst.toNat ≠ ownPos s ∧ typeKnown type.toNat = true ∧ type ≠ 6 ∧
      podPort s (ownPos s) f.dst.toNat = some k ∧ k ≠ f.port.val ∧ g = { frameOf f type.toNat data with dl := f.dl || crossesDateline s (ownPos s) k } ∧
      maySend s k g = true ∧ (bxOf s k).waiting = []) ∧
    (∃ (s : State) (f : FrameHdr) (type : BitVec 8), Ready s ∧ linkUp s f.port.val = true ∧ typeKnown type.toNat = false ∧
      (bxOf s f.port.val).asked = false) :=
  ⟨⟨((Upd.bx 1 { BxPort.clear with replay := [⟨1, 2, 1, 0, 1, false, false, 4, 0, 0, 0, 0, 0, 0, []⟩, ⟨1, 2, 1, 0, 1, false, false, 5, 0, 0, 0, 0, 0, 0, []⟩, ⟨1, 2, 1, 0, 1, false, false, 6, 0, 0, 0, 0, 0, 0, []⟩] }).apply (podAt 1) : State),
      (1 : BxNo), (5 : BitVec 16), ([⟨1, 2, 1, 0, 1, false, false, 4, 0, 0, 0, 0, 0, 0, []⟩] : List Frame),
      ([⟨1, 2, 1, 0, 1, false, false, 6, 0, 0, 0, 0, 0, 0, []⟩] : List Frame), (⟨1, 2, 1, 0, 1, false, false, 5, 0, 0, 0, 0, 0, 0, []⟩ : Frame),
      by and_intros <;> decide +kernel⟩,
   ⟨({ (Upd.bx 1 { BxPort.clear with replay := [⟨1, 2, 1, 0, 1, false, false, 4, 0, 0, 0, 0, 0, 0, []⟩, ⟨1, 0, 1, 0, 1, false, false, 5, 0, 0, 0, 0, 0, 0, []⟩, ⟨1, 2, 1, 0, 1, false, false, 6, 0, 0, 0, 0, 0, 0, []⟩, ⟨1, 0, 1, 0, 1, false, false, 7, 0, 0, 0, 0, 0, 0, []⟩] }).apply (podAt 1) with side := { Sideband.clear with linkStop := true } } : State),
      (1 : BxNo), (5 : BitVec 16), ([⟨1, 2, 1, 0, 1, false, false, 4, 0, 0, 0, 0, 0, 0, []⟩] : List Frame),
      ([⟨1, 2, 1, 0, 1, false, false, 6, 0, 0, 0, 0, 0, 0, []⟩, ⟨1, 0, 1, 0, 1, false, false, 7, 0, 0, 0, 0, 0, 0, []⟩] : List Frame),
      ([⟨1, 0, 1, 0, 1, false, false, 5, 0, 0, 0, 0, 0, 0, []⟩] : List Frame), (⟨1, 0, 1, 0, 1, false, false, 5, 0, 0, 0, 0, 0, 0, []⟩ : Frame),
      by and_intros <;> decide +kernel⟩,
   ⟨((Upd.bx 1 { BxPort.clear with credits := [5, 6, 7, 8, 9, 10, 11] }).apply (podAt 1) : State), (1 : BxNo), by and_intros <;> decide +kernel⟩,
   ⟨(podAt 1 : State), by decide +kernel⟩,
   ⟨(put (podAt 1) [(bxPage 1 + 0x100, 1), (bxPage 1 + 0x104, 1), (bxPage 1 + 0x108, 0x80030005)] : State), (1 : BxNo), (0xFC030005 : Word),
      by and_intros <;> decide +kernel⟩,
   ⟨(put (podAt 1) [(bxPage 7 + 0x100, 1), (bxPage 7 + 0x104, 1)] : State), (7 : BxNo), (0xFC030005 : Word), by and_intros <;> decide +kernel⟩,
   ⟨(put (podAt 1) [(bxPage 1 + 0x100, 1), (bxPage 1 + 0x104, 1), (bxPage 1 + 0x108, 0x80030005)] : State), (1 : BxNo), (0x80030006 : Word),
      by and_intros <;> decide +kernel⟩,
   ⟨(put (podAt 1) [(bxPage 1 + 0x100, 1)] : State), (1 : BxNo), by and_intros <;> decide +kernel⟩,
   ⟨((Upd.cable 1 (some ⟨0x1E, 5, 9, true, [], [], []⟩)).apply (put (podAt 1) [(bxPage 1 + 0x100, 1)]) : State), (1 : BxNo), (3 : Word),
      by and_intros <;> decide +kernel⟩,
   ⟨(up : State), by decide +kernel⟩,
   ⟨(podAt 1 : State), (hdr 1 0 2 64 : FrameHdr), (1 : BitVec 8), (List.replicate 64 7 : List Byte), (0 : Nat),
      ({ frameOf (hdr 1 0 2 64) 1 (List.replicate 64 7) with dl := crossesDateline (podAt 1 : State) 1 0 } : Frame), by and_intros <;> decide +kernel⟩,
   ⟨(podAt 1 : State), (hdr 1 0 2 64 : FrameHdr), (0xEE : BitVec 8), by and_intros <;> decide +kernel⟩⟩

/-- States and operands that meet the hypotheses of FramesTaken. -/
theorem meets_FramesTaken :
    (∃ (s : State) (f : FrameHdr) (value : Nat) (b : DWord), Ready s ∧ FrameHere s f ∧ fromSource f s = true ∧ 1000 ≤ value ∧ value ≤ 1000000 ∧
      fld (rd s (beadPage + 0x124)) 19 0 ≤ value ∧ (beadNo s).toNat + 2 ≤ b.toNat) ∧
    (∃ (s : State) (f : FrameHdr), Ready s ∧ FrameHere s f ∧ fromSource f s = true) ∧
    (∃ (s : State) (f : FrameHdr), Ready s ∧ FrameHere s f ∧ fromSource f s = false) ∧
    (∃ (s : State) (f : FrameHdr) (x : Herd), Ready s ∧ FrameHere s f ∧ fromLead f s = true ∧ isLead s = false ∧ herdOf s f.herd.val = some x ∧
      x.pod = true) ∧
    (∃ (s : State) (f : FrameHdr) (b : DWord) (x : Herd), Ready s ∧ FrameHere s f ∧ fromLead f s = true ∧ herdOf s f.herd.val = some x ∧ x.pod = true ∧
      (beadNo s).toNat < b.toNat) ∧
    (∃ (s : State) (f : FrameHdr) (data : List Byte) (g : Nat) (b : Nat), Ready s ∧ FrameHere s f ∧ (bxOf s f.port.val).held = [] ∧ f.poison = false ∧
      data.length = 64 ∧ f.addr.toNat % 64 = 0 ∧ judge s f.herd.val (f.addr.toNat / 65536) true = .frame g ∧ b = 1024 * g + f.addr.toNat / 64 % 1024 ∧
      mergeOf s b = none ∧ entryClean s (f.addr.toNat / 65536) = true) ∧
    (∃ (s : State) (f : FrameHdr) (x : Herd), Ready s ∧ FrameHere s f ∧ (bxOf s f.port.val).held = [] ∧ fromLead f s = true ∧ isLead s = false ∧
      herdOf s f.herd.val = some x ∧ x.failed = false) ∧
    (∃ (s : State) (f : FrameHdr) (htag : BitVec 16) (o : HcmdOut) (q : Nat), Ready s ∧ FrameHere s f ∧ isLead s = true ∧ htag ≠ 0xFFFF ∧
      s.hcmd = [o] ∧ o.htag = htag.toNat ∧ f.src.toNat ≠ ownPos s ∧ o.opcode ≠ 1 ∧ o.opcode ≠ 3 ∧ o.opcode ≠ 0x24 ∧ q ≠ f.src.toNat ∧
      o.waiting = [f.src.toNat, q]) ∧
    (∃ (s : State) (f : FrameHdr) (htag : BitVec 16) (o : HcmdOut) (c : CmdId), Ready s ∧ FrameHere s f ∧ isLead s = true ∧ htag ≠ 0xFFFF ∧
      s.hcmd = [o] ∧ o.htag = htag.toNat ∧ f.src.toNat ≠ ownPos s ∧ o.opcode ≠ 1 ∧ o.opcode ≠ 3 ∧ o.opcode ≠ 0x24 ∧ o.opcode ≠ 6 ∧ o.opcode ≠ 9 ∧
      o.waiting = [f.src.toNat] ∧ o.parts = [] ∧ o.cmd = some c ∧ o.status = 0) ∧
    (∃ (s : State) (htag : BitVec 16) (o : HcmdOut) (q : Nat) (c : CmdId), Ready s ∧ s.hcmd = [o] ∧ o.htag = htag.toNat ∧ o.waiting = [q] ∧
      q ≠ ownPos s ∧ o.parts = [] ∧ o.cmd = some c ∧ o.opcode ≠ 1 ∧ o.opcode ≠ 3 ∧ o.opcode ≠ 6 ∧ o.opcode ≠ 9 ∧ o.opcode ≠ 0x24) ∧
    (∃ (s : State) (q : BitVec 6), Ready s ∧ isLead s = true ∧ isPresent s q.toNat = true ∧ q.toNat ≠ ownPos s ∧ s.herd = [] ∧ s.hcmd = [] ∧
      s.spares.filling = [] ∧ s.spares.fullRestore = false ∧ s.evQueue = [] ∧
      ((∀ p < 64, isPresent (after (memberGone q.toNat) s) p = true → p ≠ rootPos (after (memberGone q.toNat) s) → parentPort (after (memberGone q.toNat) s) p ≠ none)) ∧
      s.spares.last = []) ∧
    (∃ (s : State) (q : BitVec 6) (k : Nat), Ready s ∧ isLead s = true ∧ isPresent s q.toNat = true ∧ q.toNat ≠ ownPos s ∧ s.herd = [] ∧ s.hcmd = [] ∧
      s.spares.filling = [] ∧ s.spares.fullRestore = false ∧ s.evQueue = [] ∧
      ((∀ p < 64, isPresent (after (memberGone q.toNat) s) p = true → p ≠ rootPos (after (memberGone q.toNat) s) → parentPort (after (memberGone q.toNat) s) p ≠ none)) ∧
      k < 4 ∧ s.spares.last = [(k, 0)]) :=
  ⟨⟨(podAt 1 : State), (hdr 1 0 1 0 : FrameHdr), (1000000 : Nat), (2 : DWord), by and_intros <;> decide +kernel⟩,
   ⟨(podAt 1 : State), (hdr 1 0 1 0 : FrameHdr), by and_intros <;> decide +kernel⟩,
   ⟨(podAt 1 : State), (hdr 1 2 1 0 : FrameHdr), by and_intros <;> decide +kernel⟩,
   ⟨(withHerd (podAt 1) 1 podHerd 3 : State), (hdr 1 0 1 0 : FrameHdr), (podHerd : Herd), by and_intros <;> decide +kernel⟩,
   ⟨(withHerd (podAt 1) 1 { podHerd with faultBead := some 3 } 6 : State), (hdr 1 0 1 0 : FrameHdr), (2 : DWord),
      ({ podHerd with faultBead := some 3 } : Herd), by and_intros <;> decide +kernel⟩,
   ⟨(withPage (podAt 1) 5 1 23 : State), (hdr 1 0 1 (5 * 65536 + 64) : FrameHdr), (List.replicate 64 7 : List Byte), (23 : Nat),
      (23 * 1024 + 1 : Nat), by and_intros <;> decide +kernel⟩,
   ⟨(put (withHerd (podAt 1) 1 podHerd 3) [(seqPage 1 + 0x104, 5)] : State), (hdr 1 0 1 0 : FrameHdr), (podHerd : Herd),
      by and_intros <;> decide +kernel⟩,
   ⟨({ podAt 0 with hcmd := [(⟨5, some cmd0, 5, 1, [1, 2], 0, [], 3, 0, 9, []⟩ : HcmdOut)] } : State), (hdr 0 1 0 0 : FrameHdr), (5 : BitVec 16),
      (⟨5, some cmd0, 5, 1, [1, 2], 0, [], 3, 0, 9, []⟩ : HcmdOut), (2 : Nat), by and_intros <;> decide +kernel⟩,
   ⟨({ podAt 0 with hcmd := [(⟨5, some cmd0, 5, 1, [1], 0, [], 3, 0, 9, []⟩ : HcmdOut)] } : State), (hdr 0 1 0 0 : FrameHdr), (5 : BitVec 16),
      (⟨5, some cmd0, 5, 1, [1], 0, [], 3, 0, 9, []⟩ : HcmdOut), (cmd0 : CmdId), by and_intros <;> decide +kernel⟩,
   ⟨({ podAt 0 with hcmd := [(⟨5, some cmd0, 5, 1, [1], 0, [], 3, 0, 9, []⟩ : HcmdOut)] } : State), (5 : BitVec 16),
      (⟨5, some cmd0, 5, 1, [1], 0, [], 3, 0, 9, []⟩ : HcmdOut), (1 : Nat), (cmd0 : CmdId), by and_intros <;> decide +kernel⟩,
   ⟨(podAt 0 : State), (3 : BitVec 6), by and_intros <;> decide +kernel⟩,
   ⟨({ podAt 0 with spares := { (podAt 0).spares with last := [(3, 0)] } } : State), (3 : BitVec 6), (3 : Nat), by and_intros <;> decide +kernel⟩⟩

/-- States and operands that meet the hypotheses of CollectivesRun. -/
theorem meets_CollectivesRun :
    (∃ (s : State) (h : HerdNo) (ws : List Word) (c : Collective), Ready s ∧ ringMatch s 24 h.val = some ws ∧ podEn s = true ∧
      ringRuns s 24 h.val = true ∧ fenced s (bxPage 0) = false ∧ s.coll.length < 8 ∧ ((∀ c ∈ s.coll, c.herd = h.val → c.started = true)) ∧
      c = ⟨h.val, ws, ringEntry s 24 h.val, false, none, [], 0, false, 0, 0, 0, [], [], false, false, 0⟩) ∧
    (∃ (s : State) (h : HerdNo) (c : Collective) (d : Collective) (p : Bool × Nat) (bs : List Byte) (k : Nat) (n : Nat), Ready s ∧ NoneHeld s ∧
      toStart s h.val k = some c ∧ cBad s c = false ∧ bit (cW c 1) 7 = false ∧ bit (cW c 1) 8 = false ∧ bit (cW c 1) 9 = false ∧
      collOf s h.val (cCid c) = none ∧ c.finished = false ∧ c.pass = 0 ∧ c.passOn = false ∧ (cPasses c)[0]? = some p ∧
      joinReads ((cReads s { c with elems := none }).map (fun j => collRead s h.val (cSrc c + 4 * j) 4)) = .ok bs ∧
      
    (d = { c with
      elems := none
      started := true
      vals := ((cReads s { c with elems := none }).zip (leWords (cReads s { c with elems := none }).length bs)).foldl
        (fun m q => mPut m q.1 (some q.2)) [] }) ∧
      0 < expected s d p ∧ n = c.sent + (firstFrames s d p).foldl (fun a f => a + (wireWords d f.2.data).length) 0 ∧ k = 0) ∧
    (∃ (s : State) (h : HerdNo) (c : Collective) (d : Collective) (p : Bool × Nat) (bs : List Byte) (k : Nat) (n : Nat), Ready s ∧ NoneHeld s ∧
      toStart s h.val k = some c ∧ cBad s c = false ∧ bit (cW c 1) 7 = false ∧ bit (cW c 1) 8 = false ∧ bit (cW c 1) 9 = false ∧
      collOf s h.val (cCid c) = none ∧ c.finished = false ∧ c.pass = 0 ∧ c.passOn = false ∧ (cPasses c)[0]? = some p ∧
      joinReads ((cReads s { c with elems := none }).map (fun j => collRead s h.val (cSrc c + 4 * j) 4)) = .ok bs ∧
      
    (d = { c with
      elems := none
      started := true
      vals := ((cReads s { c with elems := none }).zip (leWords (cReads s { c with elems := none }).length bs)).foldl
        (fun m q => mPut m q.1 (some q.2)) [] }) ∧
      0 < expected s d p ∧ n = c.sent + (firstFrames s d p).foldl (fun a f => a + (wireWords d f.2.data).length) 0 ∧ k = 1) ∧
    (∃ (s : State) (h : HerdNo) (c : Collective) (d : Collective) (p : Bool × Nat) (bs : List Byte) (k : Nat) (n : Nat), Ready s ∧ NoneHeld s ∧
      toStart s h.val k = some c ∧ cBad s c = false ∧ bit (cW c 1) 7 = false ∧ bit (cW c 1) 8 = false ∧ bit (cW c 1) 9 = false ∧
      collOf s h.val (cCid c) = none ∧ c.finished = false ∧ c.pass = 0 ∧ c.passOn = false ∧ (cPasses c)[0]? = some p ∧
      joinReads ((cReads s { c with elems := none }).map (fun j => collRead s h.val (cSrc c + 4 * j) 4)) = .ok bs ∧
      
    (d = { c with
      elems := none
      started := true
      vals := ((cReads s { c with elems := none }).zip (leWords (cReads s { c with elems := none }).length bs)).foldl
        (fun m q => mPut m q.1 (some q.2)) [] }) ∧
      0 < expected s d p ∧ n = c.sent + (firstFrames s d p).foldl (fun a f => a + (wireWords d f.2.data).length) 0 ∧ k = 2) ∧
    (∃ (s : State) (h : HerdNo) (c : Collective) (d : Collective) (p : Bool × Nat) (bs : List Byte) (k : Nat) (n : Nat), Ready s ∧ NoneHeld s ∧
      toStart s h.val k = some c ∧ cBad s c = false ∧ bit (cW c 1) 7 = false ∧ bit (cW c 1) 8 = false ∧ bit (cW c 1) 9 = false ∧
      collOf s h.val (cCid c) = none ∧ c.finished = false ∧ c.pass = 0 ∧ c.passOn = false ∧ (cPasses c)[0]? = some p ∧
      joinReads ((cReads s { c with elems := none }).map (fun j => collRead s h.val (cSrc c + 4 * j) 4)) = .ok bs ∧
      
    (d = { c with
      elems := none
      started := true
      vals := ((cReads s { c with elems := none }).zip (leWords (cReads s { c with elems := none }).length bs)).foldl
        (fun m q => mPut m q.1 (some q.2)) [] }) ∧
      0 < expected s d p ∧ n = c.sent + (firstFrames s d p).foldl (fun a f => a + (wireWords d f.2.data).length) 0 ∧ k = 3) ∧
    (∃ (s : State) (h : HerdNo) (c : Collective) (d : Collective) (p : Bool × Nat) (bs : List Byte) (k : Nat) (n : Nat), Ready s ∧ NoneHeld s ∧
      toStart s h.val k = some c ∧ cBad s c = false ∧ bit (cW c 1) 7 = false ∧ bit (cW c 1) 8 = false ∧ bit (cW c 1) 9 = false ∧
      collOf s h.val (cCid c) = none ∧ c.finished = false ∧ c.pass = 0 ∧ c.passOn = false ∧ (cPasses c)[0]? = some p ∧
      joinReads ((cReads s { c with elems := none }).map (fun j => collRead s h.val (cSrc c + 4 * j) 4)) = .ok bs ∧
      
    (d = { c with
      elems := none
      started := true
      vals := ((cReads s { c with elems := none }).zip (leWords (cReads s { c with elems := none }).length bs)).foldl
        (fun m q => mPut m q.1 (some q.2)) [] }) ∧
      0 < expected s d p ∧ n = c.sent + (firstFrames s d p).foldl (fun a f => a + (wireWords d f.2.data).length) 0 ∧ k = 4) ∧
    (∃ (s : State) (h : HerdNo) (c : Collective) (bs : List Byte), Ready s ∧ toStart s h.val 5 = some c ∧ cBad s c = false ∧
      collRead s h.val (cSrc c) (cCount c) = .ok bs ∧ cRoot c ≠ ownPos s) ∧
    (∃ (s : State) (h : HerdNo) (c : Collective), Ready s ∧ s.coll.find? (fun c => decide (c.herd = h.val) && !c.started && !c.finished) = some c ∧
      cKind c = 6 ∧ cBad s c = false ∧ bulkIsOpen s = true ∧ (cTargets c).contains (ownPos s) = false) ∧
    (∃ (s : State) (h : HerdNo) (c : Collective) (bs : List Byte), Ready s ∧
      s.coll.find? (fun c => decide (c.herd = h.val) && decide (cKind c = 6) && c.started && !c.finished && !c.dataSent && (cTargets c).all (fun t => c.grants.contains t)) = some c ∧
      mcWaits s h.val (ownPos s) (cCid c) (cDst c) = false ∧ collRead s h.val (cSrc c) (cCount c) = .ok bs ∧ (cTargets c).contains (ownPos s) = false ∧
      cTargets c ≠ []) ∧
    (∃ (s : State) (f : FrameHdr) (n : Word), Ready s ∧ FrameHere s f ∧ s.mc = [] ∧ n.toNat ≤ 1048576 ∧ f.src.toNat ≠ ownPos s) ∧
    (∃ (s : State) (f : FrameHdr) (g : McGrant), Ready s ∧ FrameHere s f ∧ s.mc = [g] ∧ isRequest f.herd.val f.src.toNat f.cid.toNat g = true) ∧
    (∃ (s : State) (f : FrameHdr) (g : McGrant) (data : List Byte), Ready s ∧ FrameHere s f ∧ (bxOf s f.port.val).held = [] ∧ s.mc = [g] ∧
      isRequest f.herd.val f.src.toNat f.cid.toNat g = true ∧ g.granted = true ∧ f.poison = false ∧
      mcWaits s f.herd.val f.src.toNat f.cid.toNat (mcdDst f) = false ∧ podPort s (ownPos s) f.dst.toNat = none ∧
      (data.zipIdx.foldl (fun m q => mPut m (f.offset.toNat + q.2) (some q.1)) g.data).length < g.count) ∧
    (∃ (s : State) (f : FrameHdr), Ready s ∧ FrameHere s f ∧ s.mc = []) ∧
    (∃ (s : State) (f : FrameHdr) (c : Collective), Ready s ∧ FrameHere s f ∧ collOf s f.herd.val f.cid.toNat = some c ∧ cKind c = 6 ∧
      c.grants.contains f.src.toNat = false) ∧
    (∃ (s : State) (f : FrameHdr) (c : Collective), Ready s ∧ FrameHere s f ∧ collOf s f.herd.val f.cid.toNat = some c ∧ cKind c = 6 ∧
      c.dataSent = true ∧ c.donePos.contains f.src.toNat = false) ∧
    (∃ (s : State) (f : FrameHdr) (c : Collective) (data : List Byte) (i : Nat) (j : Nat) (vs : List Word), Ready s ∧ FrameHere s f ∧
      collOf s f.herd.val f.cid.toNat = some c ∧ NoneHeld s ∧ f.pass.toNat = c.pass ∧ c.passOn = true ∧ f.kind.toNat = cKind c ∧ f.count = 0 ∧
      f.poison = false ∧ bit (cW c 1) 8 = false ∧ j = (regionAt s c i).1 + f.offset.toNat ∧ vs = wireWords c data ∧
      (cPasses c)[c.pass]? = some (false, i) ∧ (pieceOf s c i j).1 = cOwn s c i ∧ c.got + vs.length < expected s c (false, i)) ∧
    (∃ (s : State) (f : FrameHdr) (c : Collective) (data : List Byte) (i : Nat) (j : Nat) (vs : List Word), Ready s ∧ FrameHere s f ∧
      collOf s f.herd.val f.cid.toNat = some c ∧ NoneHeld s ∧ f.pass.toNat = c.pass ∧ c.passOn = true ∧ f.kind.toNat = cKind c ∧ f.count = 0 ∧
      f.poison = false ∧ bit (cW c 1) 8 = false ∧ j = (regionAt s c i).1 + f.offset.toNat ∧ vs = wireWords c data ∧
      (cPasses c)[c.pass]? = some (true, i) ∧ stepIn (cRing s c i) (cOwn s c i) (pieceOf s c i j).2 = (pieceOf s c i j).1 ∧
      c.got + vs.length < expected s c (true, i)) ∧
    (∃ (s : State) (h : HerdNo) (c : Collective), Ready s ∧ s.coll.find? (fun c => decide (c.herd = h.val) && c.finished) = some c ∧
      engWriteJudge s h.val ((joinWords (cW c 10) (cW c 11)).toNat / 16 * 16) 16 none ≠ .wait ∧ ((∃ bs, endStatus s c = .ok bs)) ∧
      ((∀ p < 6, sendsOn s c p = false))) ∧
    (∃ (s : State) (h : HerdNo) (c : Collective), Ready s ∧ s.coll.find? (fun c => decide (c.herd = h.val) && c.finished) = some c ∧
      engWriteJudge s h.val ((joinWords (cW c 10) (cW c 11)).toNat / 16 * 16) 16 none ≠ .wait ∧ ((∃ bs, endStatus s c = .ok bs)) ∧
      ((∃ p < 6, sendsOn s c p = true))) ∧
    (∃ (s : State) (h : HerdNo) (c : Collective) (st : Byte), Ready s ∧ s.coll.find? (fun c => decide (c.herd = h.val) && c.finished) = some c ∧
      engWriteJudge s h.val ((joinWords (cW c 10) (cW c 11)).toNat / 16 * 16) 16 none ≠ .wait ∧ endStatus s c = .bad st.toNat ∧ 0x80 ≤ st.toNat) :=
  ⟨⟨(put (withPage (podAt 1) 0 1 23) [(ringAddr 24 1 + 4, 0x80000000)] : State), (1 : HerdNo), (List.replicate 16 0 : List Word),
      (⟨1, (List.replicate 16 0 : List Word), ringEntry (put (withPage (podAt 1) 0 1 23) [(ringAddr 24 1 + 4, 0x80000000)] : State) 24 1, false, none, [], 0, false, 0, 0, 0, [], [], false, false, 0⟩ : Collective),
      by and_intros <;> decide +kernel⟩,
   ⟨({ poke (withPage (withPage (podAt 1) 5 1 23) 6 1 47) (23 * 65536) (wordBytes [1,2,3,4,5,6,7,8]) with coll := [(collective (collWords 0 1 0x50000 0x60000 8 0) false : Collective)] } : State),
      (1 : HerdNo), (collective (collWords 0 1 0x50000 0x60000 8 0) false : Collective),
      ({ (collective (collWords 0 1 0x50000 0x60000 8 0) false : Collective) with started := true, vals := [(0,1),(1,2),(2,3),(3,4),(4,5),(5,6),(6,7),(7,8)] } : Collective),
      ((false, 0) : Bool × Nat), (wordBytes [1,2,3,4,5,6,7,8] : List Byte), (0 : Nat),
      (0 + (firstFrames ({ poke (withPage (withPage (podAt 1) 5 1 23) 6 1 47) (23 * 65536) (wordBytes [1,2,3,4,5,6,7,8]) with coll := [(collective (collWords 0 1 0x50000 0x60000 8 0) false : Collective)] } : State) ({ (collective (collWords 0 1 0x50000 0x60000 8 0) false : Collective) with started := true, vals := [(0,1),(1,2),(2,3),(3,4),(4,5),(5,6),(6,7),(7,8)] } : Collective) ((false, 0) : Bool × Nat)).foldl (fun a f => a + (wireWords ({ (collective (collWords 0 1 0x50000 0x60000 8 0) false : Collective) with started := true, vals := [(0,1),(1,2),(2,3),(3,4),(4,5),(5,6),(6,7),(7,8)] } : Collective) f.2.data).length) 0 : Nat),
      by and_intros <;> decide +kernel⟩,
   ⟨({ poke (withPage (withPage (podAt 1) 5 1 23) 6 1 47) (23 * 65536) (wordBytes [1,2,3,4,5,6,7,8]) with coll := [(collective (collWords 1 1 0x50000 0x60000 8 0) false : Collective)] } : State),
      (1 : HerdNo), (collective (collWords 1 1 0x50000 0x60000 8 0) false : Collective),
      ({ (collective (collWords 1 1 0x50000 0x60000 8 0) false : Collective) with started := true, vals := [(0,1),(1,2),(2,3),(3,4),(4,5),(5,6),(6,7),(7,8)] } : Collective),
      ((false, 0) : Bool × Nat), (wordBytes [1,2,3,4,5,6,7,8] : List Byte), (1 : Nat),
      (0 + (firstFrames ({ poke (withPage (withPage (podAt 1) 5 1 23) 6 1 47) (23 * 65536) (wordBytes [1,2,3,4,5,6,7,8]) with coll := [(collective (collWords 1 1 0x50000 0x60000 8 0) false : Collective)] } : State) ({ (collective (collWords 1 1 0x50000 0x60000 8 0) false : Collective) with started := true, vals := [(0,1),(1,2),(2,3),(3,4),(4,5),(5,6),(6,7),(7,8)] } : Collective) ((false, 0) : Bool × Nat)).foldl (fun a f => a + (wireWords ({ (collective (collWords 1 1 0x50000 0x60000 8 0) false : Collective) with started := true, vals := [(0,1),(1,2),(2,3),(3,4),(4,5),(5,6),(6,7),(7,8)] } : Collective) f.2.data).length) 0 : Nat),
      by and_intros <;> decide +kernel⟩,
   ⟨({ poke (withPage (withPage (podAt 1) 5 1 23) 6 1 47) (23 * 65536) (wordBytes [1,2,3,4,5,6,7,8]) with coll := [(collective (collWords 2 1 0x50000 0x60000 8 0) false : Collective)] } : State),
      (1 : HerdNo), (collective (collWords 2 1 0x50000 0x60000 8 0) false : Collective),
      ({ (collective (collWords 2 1 0x50000 0x60000 8 0) false : Collective) with started := true, vals := [(2,3),(3,4)] } : Collective),
      ((true, 0) : Bool × Nat), (wordBytes [3,4] : List Byte), (2 : Nat),
      (0 + (firstFrames ({ poke (withPage (withPage (podAt 1) 5 1 23) 6 1 47) (23 * 65536) (wordBytes [1,2,3,4,5,6,7,8]) with coll := [(collective (collWords 2 1 0x50000 0x60000 8 0) false : Collective)] } : State) ({ (collective (collWords 2 1 0x50000 0x60000 8 0) false : Collective) with started := true, vals := [(2,3),(3,4)] } : Collective) ((true, 0) : Bool × Nat)).foldl (fun a f => a + (wireWords ({ (collective (collWords 2 1 0x50000 0x60000 8 0) false : Collective) with started := true, vals := [(2,3),(3,4)] } : Collective) f.2.data).length) 0 : Nat),
      by and_intros <;> decide +kernel⟩,
   ⟨({ poke (withPage (withPage (podAt 1) 5 1 23) 6 1 47) (23 * 65536) (wordBytes [1,2,3,4,5,6,7,8]) with coll := [(collective (collWords 3 1 0x50000 0x60000 8 0) false : Collective)] } : State),
      (1 : HerdNo), (collective (collWords 3 1 0x50000 0x60000 8 0) false : Collective),
      ({ (collective (collWords 3 1 0x50000 0x60000 8 0) false : Collective) with started := true, vals := [] } : Collective), ((true, 0) : Bool × Nat),
      ([] : List Byte), (3 : Nat),
      (0 + (firstFrames ({ poke (withPage (withPage (podAt 1) 5 1 23) 6 1 47) (23 * 65536) (wordBytes [1,2,3,4,5,6,7,8]) with coll := [(collective (collWords 3 1 0x50000 0x60000 8 0) false : Collective)] } : State) ({ (collective (collWords 3 1 0x50000 0x60000 8 0) false : Collective) with started := true, vals := [] } : Collective) ((true, 0) : Bool × Nat)).foldl (fun a f => a + (wireWords ({ (collective (collWords 3 1 0x50000 0x60000 8 0) false : Collective) with started := true, vals := [] } : Collective) f.2.data).length) 0 : Nat),
      by and_intros <;> decide +kernel⟩,
   ⟨({ poke (withPage (withPage (podAt 1) 5 1 23) 6 1 47) (23 * 65536) (wordBytes [1,2,3,4,5,6,7,8]) with coll := [(collective (collWords 4 1 0x50000 0x60000 8 2) false : Collective)] } : State),
      (1 : HerdNo), (collective (collWords 4 1 0x50000 0x60000 8 2) false : Collective),
      ({ (collective (collWords 4 1 0x50000 0x60000 8 2) false : Collective) with started := true, vals := [(0,1),(1,2),(2,3),(3,4),(4,5),(5,6),(6,7),(7,8)] } : Collective),
      ((false, 0) : Bool × Nat), (wordBytes [1,2,3,4,5,6,7,8] : List Byte), (4 : Nat),
      (0 + (firstFrames ({ poke (withPage (withPage (podAt 1) 5 1 23) 6 1 47) (23 * 65536) (wordBytes [1,2,3,4,5,6,7,8]) with coll := [(collective (collWords 4 1 0x50000 0x60000 8 2) false : Collective)] } : State) ({ (collective (collWords 4 1 0x50000 0x60000 8 2) false : Collective) with started := true, vals := [(0,1),(1,2),(2,3),(3,4),(4,5),(5,6),(6,7),(7,8)] } : Collective) ((false, 0) : Bool × Nat)).foldl (fun a f => a + (wireWords ({ (collective (collWords 4 1 0x50000 0x60000 8 2) false : Collective) with started := true, vals := [(0,1),(1,2),(2,3),(3,4),(4,5),(5,6),(6,7),(7,8)] } : Collective) f.2.data).length) 0 : Nat),
      by and_intros <;> decide +kernel⟩,
   ⟨({ poke (withPage (withPage (podAt 1) 5 1 23) 6 1 47) (23 * 65536) [1,2,3,4] with coll := [(collective (collWords 5 0 0x50000 0x60000 4 0) false : Collective)] } : State),
      (1 : HerdNo), (collective (collWords 5 0 0x50000 0x60000 4 0) false : Collective), ([1,2,3,4] : List Byte), by and_intros <;> decide +kernel⟩,
   ⟨({ put (podAt 1) [(beadPage + 0x120, 1)] with coll := [(collective ((collWords 6 0 0x50000 0x60000 4 0).set 8 5) false : Collective)], bulkOpen := [(1, 2)] } : State),
      (1 : HerdNo), (collective ((collWords 6 0 0x50000 0x60000 4 0).set 8 5) false : Collective), by and_intros <;> decide +kernel⟩,
   ⟨({ withPage (podAt 1) 5 1 23 with coll := [({ collective ((collWords 6 0 0x50000 0x60000 4 0).set 8 5) true with grants := [0, 2] } : Collective)] } : State),
      (1 : HerdNo), ({ collective ((collWords 6 0 0x50000 0x60000 4 0).set 8 5) true with grants := [0, 2] } : Collective), ([0,0,0,0] : List Byte),
      by and_intros <;> decide +kernel⟩,
   ⟨(podAt 1 : State), ({ hdr 1 0 1 0x60000 with count := 1048576 } : FrameHdr), (1048576 : Word), by and_intros <;> decide +kernel⟩,
   ⟨({ podAt 1 with mc := [(⟨0, 0, 1, 5, true, []⟩ : McGrant)] } : State), (hdr 1 0 1 0 : FrameHdr), (⟨0, 0, 1, 5, true, []⟩ : McGrant),
      by and_intros <;> decide +kernel⟩,
   ⟨({ podAt 1 with mc := [(⟨0, 0, 1, 5, true, []⟩ : McGrant)] } : State), (hdr 1 0 1 0 : FrameHdr), (⟨0, 0, 1, 5, true, []⟩ : McGrant),
      ([1, 2] : List Byte), by and_intros <;> decide +kernel⟩,
   ⟨({ podAt 1 with coll := [({ collective ((collWords 6 0 0x50000 0x60000 4 0).set 8 5) true with grants := [0, 2], dataSent := true, donePos := [2] } : Collective)] } : State),
      ({ hdr 1 0 1 0 with cid := 5 } : FrameHdr), by and_intros <;> decide +kernel⟩,
   ⟨({ podAt 1 with coll := [(collective ((collWords 6 0 0x50000 0x60000 4 0).set 8 5) true : Collective)] } : State),
      ({ hdr 1 0 1 0 with cid := 5 } : FrameHdr), (collective ((collWords 6 0 0x50000 0x60000 4 0).set 8 5) true : Collective),
      by and_intros <;> decide +kernel⟩,
   ⟨({ podAt 1 with coll := [({ collective ((collWords 6 0 0x50000 0x60000 4 0).set 8 5) true with grants := [0, 2], dataSent := true, donePos := [2] } : Collective)] } : State),
      ({ hdr 1 0 1 0 with cid := 5 } : FrameHdr),
      ({ collective ((collWords 6 0 0x50000 0x60000 4 0).set 8 5) true with grants := [0, 2], dataSent := true, donePos := [2] } : Collective),
      by and_intros <;> decide +kernel⟩,
   ⟨({ podAt 1 with coll := [({ collective (collWords 1 1 0x50000 0x60000 8 0) true with passOn := true, vals := [(2, 0x3F800000), (3, 0x3F800000)] } : Collective)] } : State),
      ({ hdr 1 0 1 0 with cid := 5, kind := 1, offset := 2 } : FrameHdr),
      ({ collective (collWords 1 1 0x50000 0x60000 8 0) true with passOn := true, vals := [(2, 0x3F800000), (3, 0x3F800000)] } : Collective),
      ([0, 0, 0x80, 0x3F] : List Byte), (0 : Nat), (2 : Nat), ([0x3F800000] : List Word), by and_intros <;> decide +kernel⟩,
   ⟨({ podAt 1 with coll := [({ collective (collWords 1 1 0x50000 0x60000 8 0) true with passOn := true, pass := 1, vals := [(2, 0x3F800000), (3, 0x3F800000)] } : Collective)] } : State),
      ({ hdr 1 0 1 0 with cid := 5, kind := 1, offset := 1, pass := 1 } : FrameHdr),
      ({ collective (collWords 1 1 0x50000 0x60000 8 0) true with passOn := true, pass := 1, vals := [(2, 0x3F800000), (3, 0x3F800000)] } : Collective),
      ([0, 0, 0x80, 0x3F] : List Byte), (0 : Nat), (1 : Nat), ([0x3F800000] : List Word), by and_intros <;> decide +kernel⟩,
   ⟨({ withPage (withPage (podAt 1) 6 1 23) 0 1 47 with coll := [({ collective (collWords 1 1 0x50000 0x60000 8 0) true with finished := true, vals := [(2, 0x3F800000), (3, 0x3F800000)] } : Collective)] } : State),
      (1 : HerdNo),
      ({ collective (collWords 1 1 0x50000 0x60000 8 0) true with finished := true, vals := [(2, 0x3F800000), (3, 0x3F800000)] } : Collective),
      by and_intros <;> first | decide +kernel | exact (engOk_of (by decide +kernel))⟩,
   ⟨((Upd.bx 1 { BxPort.clear with replay := [{ (⟨5, 0, 1, 0, 1, false, false, 4, 0, 0, 0, 0, 0, 0, []⟩ : Frame) with herd := 1, src := 1, cid := cCid ({ collective (collWords 1 1 0x50000 0x60000 8 0) true with finished := true, vals := [(2, 0x3F800000), (3, 0x3F800000)] } : Collective) }] }).apply { withPage (withPage (podAt 1) 6 1 23) 0 1 47 with coll := [({ collective (collWords 1 1 0x50000 0x60000 8 0) true with finished := true, vals := [(2, 0x3F800000), (3, 0x3F800000)] } : Collective)] } : State),
      (1 : HerdNo),
      ({ collective (collWords 1 1 0x50000 0x60000 8 0) true with finished := true, vals := [(2, 0x3F800000), (3, 0x3F800000)] } : Collective),
      by and_intros <;> first | decide +kernel | exact (engOk_of (by decide +kernel))⟩,
   ⟨({ podAt 1 with coll := [({ collective (collWords 1 1 0x50000 0x60000 8 0) true with finished := true, status := 0x87 } : Collective)] } : State),
      (1 : HerdNo), ({ collective (collWords 1 1 0x50000 0x60000 8 0) true with finished := true, status := 0x87 } : Collective), (0x87 : Byte),
      by and_intros <;> decide +kernel⟩⟩

/-- States and operands that meet the hypotheses of RingsOfFunctions. -/
theorem meets_RingsOfFunctions :
    (∃ (s : State) (f : FnNo) (k : Nat) (off : BitVec 16) (t : Word) (data : List (Option Byte)), Ready s ∧ fnExists s f.val = true ∧
      off.toNat = 64 * k ∧ data = (leBytes 4 t.toNat).map some ∧ k < 16 ∧ bit (rd s (crBase f.val k + 8)) 31 = true ∧
      diff16 (fld t 15 0) (crHead s f.val k) ≤ crSize s f.val k) ∧
    (∃ (s : State) (f : FnNo) (k : Nat) (off : BitVec 16) (t : Word) (data : List (Option Byte)), Ready s ∧ fnExists s f.val = true ∧
      off.toNat = 64 * k ∧ data = (leBytes 4 t.toNat).map some ∧ k < 16 ∧ bit (rd s (crBase f.val k + 8)) 31 = true ∧
      crSize s f.val k < diff16 (fld t 15 0) (crHead s f.val k)) ∧
    (∃ (s : State) (f : FnNo) (k : Nat) (off : BitVec 16) (t : Word) (data : List (Option Byte)), Ready s ∧ fnExists s f.val = true ∧
      off.toNat = 64 * k ∧ data = (leBytes 4 t.toNat).map some ∧ (16 ≤ k ∨ bit (rd s (crBase f.val k + 8)) 31 = false)) ∧
    (∃ (s : State) (off : BitVec 16) (data : List (Option Byte)), Ready s ∧ (off.toNat % 64 ≠ 0 ∨ data.length ≠ 4)) ∧
    (∃ (s : State) (f : FnNo) (k : Fin 16), Ready s ∧ Takes s (fnPageOf f.val / 4096) ∧ bit (rd s (crBase f.val k.val + 8)) 31 = false) ∧
    (∃ (s : State) (f : FnNo), Ready s ∧ Takes s (fnPageOf f.val / 4096)) ∧
    (∃ (s : State) (f : FnNo), Ready s ∧ Takes s (fnPageOf f.val / 4096)) ∧
    (∃ (s : State) (c : CmdId), Ready s ∧ ringReady s c = true) ∧
    (∃ (s : State) (c : CmdId), Ready s ∧ ringReady s c = true) ∧
    (∃ (s : State) (c : CmdId), Ready s ∧ ringReady s c = false) ∧
    (∃ (s : State) (f : FnNo) (k : Fin 16) (c : Completion) (tail : Nat), Ready s ∧
      s.completions.find? (fun c => decide (c.fn = f) && decide (c.ring = k)) = some c ∧ tail = fld (rd s (crBase f.val k.val + 0x1C)) 15 0 ∧
      diff16 tail (fld (rd s (crBase f.val k.val + 0x18)) 15 0) ≠ crSize s f.val k.val ∧ hpMay s (f.val / 16) = true) ∧
    (∃ (s : State) (f : FnNo) (k : Fin 16) (c : Completion) (tail : Nat), Ready s ∧
      s.completions.find? (fun c => decide (c.fn = f) && decide (c.ring = k)) = some c ∧ tail = fld (rd s (crBase f.val k.val + 0x1C)) 15 0 ∧
      (diff16 tail (fld (rd s (crBase f.val k.val + 0x18)) 15 0) = crSize s f.val k.val ∨ hpMay s (f.val / 16) = false)) ∧
    (∃ (s : State) (f : FnNo) (n : Notice) (tail : Nat), Ready s ∧ s.notices.find? (fun n => decide (n.fn = f)) = some n ∧ fnExists s f.val = true ∧
      bit (rd s (fnPageOf f.val + 0x118)) 31 = true ∧ noticeFull s f.val = false ∧ hpMay s (f.val / 16) = true ∧
      tail = fld (rd s (fnPageOf f.val + 0x120)) 15 0) :=
  ⟨⟨(put up [(crBase 0 15 + 8, 0x80000000), (crBase 0 15 + 0x14, 0xFFF8)] : State), (0 : FnNo), (15 : Nat), (960 : BitVec 16), (8 : Word),
      ((leBytes 4 (8 : Word).toNat).map some : List (Option Byte)), by and_intros <;> decide +kernel⟩,
   ⟨(put up [(crBase 0 15 + 8, 0x80000000), (crBase 0 15 + 0x14, 0xFFF8)] : State), (0 : FnNo), (15 : Nat), (960 : BitVec 16), (9 : Word),
      ((leBytes 4 (9 : Word).toNat).map some : List (Option Byte)), by and_intros <;> decide +kernel⟩,
   ⟨(up : State), (0 : FnNo), (16 : Nat), (1024 : BitVec 16), (9 : Word), ((leBytes 4 (9 : Word).toNat).map some : List (Option Byte)),
      by and_intros <;> decide +kernel⟩,
   ⟨(up : State), (960 : BitVec 16), ((leBytes 2 9).map some : List (Option Byte)), by and_intros <;> decide +kernel⟩,
   ⟨(put up [(crBase 0 15 + 0x14, 0xFFF8)] : State), (0 : FnNo), (15 : Fin 16), by and_intros <;> decide +kernel⟩,
   ⟨(put up [(crBase 0 15 + 8, 0x80000000)] : State), (0 : FnNo), by and_intros <;> decide +kernel⟩,
   ⟨(put up [(fnPageOf 0 + 0x118, 0x80000000)] : State), (0 : FnNo), by and_intros <;> decide +kernel⟩,
   ⟨(asked up : State), (cmd0 : CmdId), by and_intros <;> decide +kernel⟩,
   ⟨(asked up : State), ({ cmd0 with reserved := true } : CmdId), by and_intros <;> decide +kernel⟩,
   ⟨(up : State), (cmd0 : CmdId), by and_intros <;> decide +kernel⟩,
   ⟨({ put (asked up) [(crBase 0 0 + 0x1C, 0xFFFF)] with completions := [(⟨0, 0, 7, 3, 0x123⟩ : Completion)], busyRing := [(0, 1)] } : State),
      (0 : FnNo), (0 : Fin 16), (⟨0, 0, 7, 3, 0x123⟩ : Completion), (0xFFFF : Nat), by and_intros <;> decide +kernel⟩,
   ⟨({ put (asked up) [(crBase 0 0 + 0x1C, 16)] with completions := [(⟨0, 0, 7, 3, 0x123⟩ : Completion)], busyRing := [(0, 1)] } : State),
      (0 : FnNo), (0 : Fin 16), (⟨0, 0, 7, 3, 0x123⟩ : Completion), (16 : Nat), by and_intros <;> decide +kernel⟩,
   ⟨({ put (asked up) [(fnPageOf 0 + 0x118, 0x80000000), (fnPageOf 0 + 0x120, 0xFFFF), (fnPageOf 0 + 0x11C, 0xFFFF)] with notices := [(⟨0, 1, 63, 7, 5, [1, 2]⟩ : Notice)] } : State),
      (0 : FnNo), (⟨0, 1, 63, 7, 5, [1, 2]⟩ : Notice), (0xFFFF : Nat), by and_intros <;> decide +kernel⟩⟩

/-- States and operands that meet the hypotheses of FunctionsAndPorts. -/
theorem meets_FunctionsAndPorts :
    (∃ (s : State) (f : FnNo) (lo : Word) (hi : Word) (b : DWord), Ready s ∧ Takes s (fnPageOf f.val / 4096) ∧
      b = joinWords (lo &&& 0xC0000000) (hi &&& 0x3FF) ∧ b.toNat % 2 ^ bar2LogOf s f.val = 0) ∧
    (∃ (s : State) (f : FnNo) (lo : Word) (hi : Word) (b : DWord), Ready s ∧ Takes s (fnPageOf f.val / 4096) ∧
      b = joinWords (lo &&& 0xC0000000) (hi &&& 0x3FF) ∧ b.toNat % 2 ^ bar2LogOf s f.val ≠ 0) ∧
    (∃ (s : State) (f : FnNo) (lg : Nat), Ready s ∧ fnExists s f.val = true ∧ 30 ≤ lg ∧ lg ≤ 41) ∧
    (∃ (s : State) (f : FnNo) (off : Nat) (len : Nat), Ready s ∧ fnExists s f.val = true ∧ off + len ≤ 2 ^ bar2LogOf s f.val ∧
      bar2Waits s f off len false = false) ∧
    (∃ (s : State) (f : FnNo) (off : Nat) (h : Nat) (g : Nat) (b : Nat) (data : List Byte), Ready s ∧ fnExists s f.val = true ∧
      off + 64 ≤ 2 ^ bar2LogOf s f.val ∧ herdOfFn s f = some h ∧ data.length = 64 ∧ (bar2Base s f.val + off) % 64 = 0 ∧
      judge s h ((bar2Base s f.val + off) / 65536) true = .frame g ∧ entryClean s ((bar2Base s f.val + off) / 65536) = true ∧
      b = 1024 * g + (bar2Base s f.val + off) / 64 % 1024 ∧ mergeOf s b = none) ∧
    (∃ (s : State) (f : FnNo), Ready s ∧ fnExists s f.val = true ∧ herdOfFn s f = none) ∧
    (∃ (s : State) (f : FnNo) (h : Nat), Ready s ∧ fnExists s f.val = true ∧ herdOfFn s f = some h) ∧
    (∃ (s : State) (k : HpNo) (n : Nat), Ready s ∧ k.val < hpPorts s ∧ 0 < n ∧ n ≤ 15 ∧ mGet s.numVfs k.val = none) ∧
    (∃ (s : State) (k : HpNo), Ready s ∧ ((∀ v, 1 ≤ v → v < 16 → herdOfFn s (fnOf k v) = none))) ∧
    (∃ (s : State) (k : HpNo), Ready s ∧ k.val < hpPorts s ∧ ((∀ v, v < 16 → herdOfFn s (fnOf k v) = none)) ∧ s.extent = []) ∧
    (∃ (s : State) (k : HpNo), Ready s ∧ k.val < hpPorts s ∧ s.perst.contains k.val = false) ∧
    (∃ (s : State) (k : HpNo) (width : Nat) (speed : BitVec 3) (flit : Bool), Ready s ∧ k.val < hpPorts s ∧ s.perst.contains k.val = true ∧
      hostUp s k.val = false ∧ width ∈ [1, 2, 4, 8, 16] ∧ width ≤ hpLanes s ∧ speed ≠ 0 ∧ speed ≠ 7 ∧ (flit = true ∨ speed ≠ 6)) :=
  ⟨⟨(put up [] : State), (0 : FnNo), (0x3FFFFFFF : Word), (0x3F0 : Word), (joinWords (0x3FFFFFFF &&& 0xC0000000) (0x3F0 &&& 0x3FF) : DWord),
      by and_intros <;> decide +kernel⟩,
   ⟨(put up [] : State), (0 : FnNo), (0xFFFFFFFF : Word), (0x3F0 : Word), (joinWords (0xFFFFFFFF &&& 0xC0000000) (0x3F0 &&& 0x3FF) : DWord),
      by and_intros <;> decide +kernel⟩,
   ⟨(put up [(fnPageOf 0 + 0x108, 0xC0000000), (fnPageOf 0 + 0x10C, 0x3FF)] : State), (0 : FnNo), (41 : Nat), by and_intros <;> decide +kernel⟩,
   ⟨(poke (withPage idle 0 1 23) (23 * 65536) [1, 2, 3] : State), (0 : FnNo), (0 : Nat), (4 : Nat), by and_intros <;> decide +kernel⟩,
   ⟨(withPage idle 0 1 23 : State), (0 : FnNo), (64 : Nat), (1 : Nat), (23 : Nat), (23 * 1024 + 1 : Nat), (List.replicate 64 5 : List Byte),
      by and_intros <;> decide +kernel⟩,
   ⟨({ put up [(fnPageOf 0 + 0x118, 0x80000000), (fnPageOf 0 + 0x20, 8)] with notices := [⟨0, 1, 63, 7, 5, []⟩], completions := [⟨0, 0, 7, 3, 0x123⟩] } : State),
      (0 : FnNo), by and_intros <;> decide +kernel⟩,
   ⟨({ idle with notices := [⟨0, 1, 63, 7, 5, []⟩], completions := [⟨0, 0, 7, 3, 0x123⟩] } : State), (0 : FnNo), (1 : Nat),
      by and_intros <;> decide +kernel⟩,
   ⟨(up : State), (0 : HpNo), (15 : Nat), by and_intros <;> decide +kernel⟩,
   ⟨({ up with numVfs := [(0, 3)] } : State), (0 : HpNo), by and_intros <;> decide +kernel⟩,
   ⟨({ put up [(hpPage 0 + 0x100, 1)] with numVfs := [(0, 3)], bar2Log := [(3, 40)] } : State), (0 : HpNo), by and_intros <;> decide +kernel⟩,
   ⟨(up : State), (0 : HpNo), by and_intros <;> decide +kernel⟩,
   ⟨({ up with perst := [0] } : State), (0 : HpNo), (16 : Nat), (6 : BitVec 3), (true : Bool), by and_intros <;> decide +kernel⟩⟩

/-- States and operands that meet the hypotheses of HerdsComeAndGo. -/
theorem meets_HerdsComeAndGo :
    (∃ (s : State) (c : CmdId) (h : Nat), Ready s ∧ ringReady s c = true ∧ c.reserved = false ∧ herdOfFn s c.fn = some h) ∧
    (∃ (s : State) (c : CmdId) (p : HerdParams) (h : Nat) (g0 : Nat) (p0 : Nat) (hp : HpNo), Ready s ∧ ringReady s c = true ∧ c.reserved = false ∧
      herdOfFn s c.fn = none ∧ bit (rd s (mgtPage 0 + 0x100)) 8 = true ∧ paramsOk p = true ∧ fnReleasing s c.fn = false ∧ s.mesh.barred = false ∧
      bit (rd s (snapPage + 0x120)) 31 = false ∧ p.pod = false ∧ (List.range 64).find? (fun h => (herdOf s h).isNone) = some h ∧
      hp.val = c.fn.val / 16 ∧ portRoom s hp.val p.ncores p.quota p.ngroups 1 p.nseq = true ∧ deviceRoom s p = true ∧
      lowestFree (usedGroups s) 0 65536 p.ngroups = some g0 ∧ lowestFree (usedProgs s) 32 256 p.nprog = some p0) ∧
    (∃ (s : State) (c : CmdId) (h : Nat) (x : Herd), Ready s ∧ CommandRuns s c h x ∧ x.sites.Nodup ∧ ((∀ d ∈ x.sites, d < 1024)) ∧ x.parked = false ∧
      ((∀ d ∈ x.sites, atRest s d = true))) ∧
    (∃ (s : State) (c : CmdId) (h : Nat) (x : Herd), Ready s ∧ CommandRuns s c h x ∧ x.sites.Nodup ∧ ((∀ d ∈ x.sites, d < 1024)) ∧ x.parked = false ∧
      ((∃ d ∈ x.sites, coreState s d = 3))) ∧
    (∃ (s : State) (c : CmdId) (h : Nat) (x : Herd) (n : Nat) (q : BitVec 4) (sites : List Nat), Ready s ∧ CommandRuns s c h x ∧ x.sites.Nodup ∧
      ((∀ d ∈ x.sites, d < 1024)) ∧ x.parked = true ∧ sites = (freeSites s q.toNat).take n ∧ 0 < n ∧ n < 2048 ∧ sites.length = n ∧
      s.mesh.barred = false ∧ (x.owner.isNone = true ∨ portRoom s x.hport.val n 0 0 0 0 = true)) ∧
    (∃ (s : State) (c : CmdId) (h : Nat) (x : Herd), Ready s ∧ CommandRuns s c h x ∧ x.sites.Nodup ∧ ((∀ d ∈ x.sites, d < 1024)) ∧ s.dumpRun = none ∧
      s.moves = [] ∧ s.extent = [] ∧ ErrorFree s ∧ s.mergeBuf = []) :=
  ⟨⟨(asked idle : State), (cmd0 : CmdId), (1 : Nat), by and_intros <;> decide +kernel⟩,
   ⟨(asked (put up [(hpPage 0 + 0x110, 0xFFFF), (hpPage 0 + 0x114, 0xFFFF), (hpPage 0 + 0x118, 0xFFFF), (hpPage 0 + 0x11C, 64), (hpPage 0 + 0x120, 0x3FF), (mgtPage 0 + 0x100, 0x102)]) : State),
      (cmd0 : CmdId), (⟨2, 1, false, 1, 0, 1, 1, 1, 1000, 7, 0⟩ : HerdParams), (0 : Nat), (0 : Nat), (32 : Nat), (0 : HpNo),
      by and_intros <;> decide +kernel⟩,
   ⟨(asked (withHerd up 1 (herdOn [0, 1]) 7) : State), (cmd0 : CmdId), (1 : Nat), (herdOn [0, 1] : Herd), by and_intros <;> decide +kernel⟩,
   ⟨(asked running : State), (cmd0 : CmdId), (1 : Nat), (herdOn [0, 1] : Herd), by and_intros <;> decide +kernel⟩,
   ⟨(put (asked (withHerd up 1 { herdOn [] with parked := true } 1)) [(hpPage 0 + 0x110, 2)] : State), (cmd0 : CmdId), (1 : Nat),
      ({ herdOn [] with parked := true } : Herd), (2 : Nat), (15 : BitVec 4),
      ((freeSites (put (asked (withHerd up 1 { herdOn [] with parked := true } 1)) [(hpPage 0 + 0x110, 2)] : State) 15).take 2 : List Nat),
      by and_intros <;> decide +kernel⟩,
   ⟨(withPage (asked running) 5 1 23 : State), (cmd0 : CmdId), (1 : Nat), (herdOn [0, 1] : Herd),
      by and_intros <;> first | decide +kernel | exact (notPoisoned_of (by decide +kernel))⟩⟩

/-- States and operands that meet the hypotheses of HerdsWork. -/
theorem meets_HerdsWork :
    (∃ (s : State) (c : CmdId) (h : Nat) (x : Herd) (area : DWord) (l : Nat), Ready s ∧ CommandRuns s c h x ∧ ((∀ d ∈ x.sites, d < 1024)) ∧ 4 ≤ l ∧
      l ≤ 12 ∧ (areaJudged s h area.toNat (25 * (64 * 2 ^ l))).all writablePage = true) ∧
    (∃ (s : State) (c : CmdId) (h : Nat) (x : Herd) (e : RegwEntry) (d : Nat), Ready s ∧ CommandRuns s c h x ∧ ((∀ d ∈ x.sites, d < 1024)) ∧
      x.parked = false ∧ x.sites[e.hidx]? = some d ∧ e.wide = false ∧ e.offset = 0x1108 ∧ coreEn s d = true ∧ r131 s d = true ∧
      rstBusy s (seqPage d) = false ∧ fenced s (seqPage d) = false) ∧
    (∃ (s : State) (c : CmdId) (h : Nat) (x : Herd) (e : RegwEntry), Ready s ∧ CommandRuns s c h x ∧ ((∀ d ∈ x.sites, d < 1024)) ∧ x.parked = false ∧
      x.sites.length ≤ e.hidx) ∧
    (∃ (s : State) (c : CmdId) (h : Nat) (x : Herd) (ahead : Nat) (b : DWord), Ready s ∧ CommandRuns s c h x ∧ ((∀ d ∈ x.sites, d < 1024)) ∧
      x.parked = false ∧ 2 ≤ ahead ∧ ahead ≤ 255 ∧ b.toNat = (beadNo s).toNat + ahead ∧ x.sites.Nodup ∧ ((∀ d ∈ x.sites, r131 s d = true))) ∧
    (∃ (s : State) (c : CmdId) (h : Nat) (x : Herd), Ready s ∧ CommandRuns s c h x ∧ ((∀ d ∈ x.sites, d < 1024))) ∧
    (∃ (s : State) (c : CmdId) (h : Nat) (x : Herd) (ahead : Nat) (b : DWord), Ready s ∧ CommandRuns s c h x ∧ ((∀ d ∈ x.sites, d < 1024)) ∧
      x.parked = false ∧ 2 ≤ ahead ∧ ahead ≤ 255 ∧ b.toNat = (beadNo s).toNat + ahead ∧ ((∀ d ∈ x.sites, coreState s d ≠ 8))) ∧
    (∃ (s : State) (c : CmdId) (h : Nat) (x : Herd) (image : DWord) (first : Nat) (count : Nat) (bs : List Byte), Ready s ∧ CommandRuns s c h x ∧
      ((∀ d ∈ x.sites, d < 1024)) ∧ x.firstProg ≤ first ∧ first + count ≤ x.firstProg + x.nprog ∧ first + count ≤ 256 ∧
      urRead s h image.toNat (128 * count) = .ok bs ∧ bs.length = 128 * count ∧ s.desc = []) ∧
    (∃ (s : State) (c : CmdId) (h : Nat) (x : Herd) (base : DWord) (pages : Nat) (i : Nat) (k : HpNo), Ready s ∧ CommandRuns s c h x ∧
      ((∀ d ∈ x.sites, d < 1024)) ∧ base.toNat % 65536 = 0 ∧ 0 < pages ∧ pages ≤ 262144 ∧ k.val = c.fn.val / 16 ∧
      (List.range 256).find? (fun i => (mGet s.extent i).isNone) = some i) ∧
    (∃ (s : State) (c : CmdId) (h : Nat) (x : Herd) (i : BitVec 8) (e : Extent), Ready s ∧ CommandRuns s c h x ∧ ((∀ d ∈ x.sites, d < 1024)) ∧
      mGet s.extent i.toNat = some e ∧ e.herd = h ∧ s.moves = [] ∧
      ((validPages s).any (fun p => eFar (homeEntry s p) && decide (eExt (homeEntry s p) = i.toNat))) = false) ∧
    (∃ (s : State) (c : CmdId) (h : Nat) (x : Herd) (dest : DWord), Ready s ∧ CommandRuns s c h x ∧ ((∀ d ∈ x.sites, d < 1024)) ∧ s.dumpRun = none ∧
      (areaJudged s h dest.toNat (herdDumpSize s h)).all writablePage = true) ∧
    (∃ (s : State) (c : CmdId) (h : Nat) (x : Herd) (p : EvalParams), Ready s ∧ CommandRuns s c h x ∧ ((∀ d ∈ x.sites, d < 1024)) ∧ x.parked = false ∧
      p.startRow ≤ 2047 ∧ p.rowsM1 ≤ 2047 ∧ p.trainRowsM1 ≤ 2047 ∧ p.nb ≤ 65535 ∧ p.list.length ≤ 1023) ∧
    (∃ (s : State) (h : HerdNo) (x : Herd) (b : Nat), Ready s ∧ herdOf s h.val = some x ∧ x.faultBead = some b ∧ b + 16384 ≤ (beadNo s).toNat ∧
      x.failed = false) ∧
    (∃ (s : State) (h : HerdNo) (x : Herd) (e : EvalCtx), Ready s ∧ herdOf s h.val = some x ∧ x.eval = some e ∧ x.sites.Nodup ∧
      ((∀ c ∈ x.sites, c < 1024 ∧ coreState s c = 7)) ∧ (beadNo s).toNat + 2 < 2 ^ 64 ∧ e.phase = 0 ∧ e.params.list = [] ∧ e.params.startRow ≤ 2047 ∧
      e.params.rowsM1 ≤ 2047 ∧ imageMoves s h.val e.params.image.toNat (e.params.rowsM1 + 1) = false ∧
      ((∀ c ∈ x.sites, fld (rd s (seqPage c + 0x104)) 23 16 = 0xFE))) ∧
    (∃ (s : State) (h : HerdNo) (x : Herd) (e : EvalCtx) (c : CmdId), Ready s ∧ herdOf s h.val = some x ∧ x.eval = some e ∧ x.sites.Nodup ∧
      ((∀ c ∈ x.sites, c < 1024 ∧ coreState s c = 7)) ∧ (beadNo s).toNat + 2 < 2 ^ 64 ∧ (e.phase = 1 ∨ e.phase = 2) ∧ e.cmd = .host c ∧
      imageMoves s h.val e.params.trainImage.toNat (e.params.trainRowsM1 + 1) = false ∧ ((∀ p ∈ e.saved, 0x1000000 ≤ p.1 ∧
      ∀ c, p.1 ≠ seqPage c + 0x104)) ∧ (e.saved.map (·.1)).Nodup) :=
  ⟨⟨(withPage (withPage (asked running) 5 1 23) 6 1 47 : State), (cmd0 : CmdId), (1 : Nat), (herdOn [0, 1] : Herd), (0x50000 : DWord), (4 : Nat),
      by and_intros <;> decide +kernel⟩,
   ⟨(asked idle : State), (cmd0 : CmdId), (1 : Nat), (herdOn [0, 1] : Herd), (⟨0, 1, false, 0x1108, 0x7FF⟩ : RegwEntry), (1 : Nat),
      by and_intros <;> decide +kernel⟩,
   ⟨(asked idle : State), (cmd0 : CmdId), (1 : Nat), (herdOn [0, 1] : Herd), (⟨0, 2, false, 0x1108, 0x7FF⟩ : RegwEntry),
      by and_intros <;> decide +kernel⟩,
   ⟨(asked idle : State), (cmd0 : CmdId), (1 : Nat), (herdOn [0, 1] : Herd), (255 : Nat), (255 : DWord), by and_intros <;> decide +kernel⟩,
   ⟨(put (asked running) [(seqPage 1 + 0x104, 5)] : State), (cmd0 : CmdId), (1 : Nat), (herdOn [0, 1] : Herd), by and_intros <;> decide +kernel⟩,
   ⟨(asked (withHerd up 1 { herdOn [0, 1] with faultBead := some 3 } 6) : State), (cmd0 : CmdId), (1 : Nat),
      ({ herdOn [0, 1] with faultBead := some 3 } : Herd), (2 : Nat), (2 : DWord), by and_intros <;> decide +kernel⟩,
   ⟨(withPage (asked idle) 5 1 23 : State), (cmd0 : CmdId), (1 : Nat), (herdOn [0, 1] : Herd), (0x50000 : DWord), (34 : Nat), (2 : Nat),
      (List.replicate 256 0 : List Byte), by and_intros <;> decide +kernel⟩,
   ⟨(asked idle : State), (cmd0 : CmdId), (1 : Nat), (herdOn [0, 1] : Herd), (0x10000 : DWord), (262144 : Nat), (0 : Nat), (0 : HpNo),
      by and_intros <;> decide +kernel⟩,
   ⟨((Upd.extent 255 (some ⟨0x10000, 4, 0, 0, 1, false⟩)).apply (asked idle) : State), (cmd0 : CmdId), (1 : Nat), (herdOn [0, 1] : Herd),
      (255 : BitVec 8), (⟨0x10000, 4, 0, 0, 1, false⟩ : Extent), by and_intros <;> decide +kernel⟩,
   ⟨(withPage (withPage (withPage (asked idle) 5 1 23) 6 1 47) 7 1 71 : State), (cmd0 : CmdId), (1 : Nat), (herdOn [0, 1] : Herd), (0x50000 : DWord),
      by and_intros <;> decide +kernel⟩,
   ⟨(asked idle : State), (cmd0 : CmdId), (1 : Nat), (herdOn [0, 1] : Herd), (⟨0, 2047, 2047, 0, 2047, 9, 65535, []⟩ : EvalParams),
      by and_intros <;> decide +kernel⟩,
   ⟨(put (withHerd up 1 { herdOn [0, 1] with faultBead := some 3 } 6) [(beadPage + 0x100, 16387)] : State), (1 : HerdNo),
      ({ herdOn [0, 1] with faultBead := some 3 } : Herd), (3 : Nat), by and_intros <;> decide +kernel⟩,
   ⟨(put (withPage (withHerd up 1 ({ herdOn [0, 1] with eval := some (⟨.host cmd0, ⟨0x50000, 0, 5, 0x50000, 0, 9, 3, []⟩, 0, 0, 0, [], []⟩ : EvalCtx) } : Herd) 7) 5 1 23) [(seqPage 0 + 0x104, 0x00FE0007), (seqPage 1 + 0x104, 0x00FE0007)] : State),
      (1 : HerdNo), ({ herdOn [0, 1] with eval := some (⟨.host cmd0, ⟨0x50000, 0, 5, 0x50000, 0, 9, 3, []⟩, 0, 0, 0, [], []⟩ : EvalCtx) } : Herd),
      (⟨.host cmd0, ⟨0x50000, 0, 5, 0x50000, 0, 9, 3, []⟩, 0, 0, 0, [], []⟩ : EvalCtx), by and_intros <;> decide +kernel⟩,
   ⟨(put (withPage (withHerd up 1 ({ herdOn [0, 1] with eval := some (⟨.host cmd0, ⟨0x50000, 0, 5, 0x50000, 0, 9, 3, []⟩, 2, 0, 0, [(vuPage 0 + 0x110, 77)], []⟩ : EvalCtx) } : Herd) 7) 5 1 23) [(seqPage 0 + 0x104, 0x00FE0007), (seqPage 1 + 0x104, 0x00FE0007)] : State),
      (1 : HerdNo),
      ({ herdOn [0, 1] with eval := some (⟨.host cmd0, ⟨0x50000, 0, 5, 0x50000, 0, 9, 3, []⟩, 2, 0, 0, [(vuPage 0 + 0x110, 77)], []⟩ : EvalCtx) } : Herd),
      (⟨.host cmd0, ⟨0x50000, 0, 5, 0x50000, 0, 9, 3, []⟩, 2, 0, 0, [(vuPage 0 + 0x110, 77)], []⟩ : EvalCtx), (cmd0 : CmdId),
      by and_intros <;> first | decide +kernel | exact (by intro p hp; simp only [List.mem_singleton] at hp; subst hp; exact ⟨by decide +kernel, fun c => by simp only [vuPage, seqPage, sitePage]; omega⟩)⟩⟩

/-- States and operands that meet the hypotheses of SnapshotCommands. -/
theorem meets_SnapshotCommands :
    (∃ (s : State) (c : CmdId) (h : Nat) (x : Herd) (p : SnapParams) (bs : List Byte), Ready s ∧ CommandRuns s c h x ∧ (snapOf s h).cur = none ∧
      p.entries ≤ 4096 ∧ readList s h p.list.toNat p.entries = .ok bs ∧ cfgBad s h p bs = true) ∧
    (∃ (s : State) (c : CmdId) (h : Nat) (x : Herd) (p : SnapParams) (bs : List Byte), Ready s ∧ CommandRuns s c h x ∧ (snapOf s h).cur = none ∧
      p.entries ≤ 4096 ∧ readList s h p.list.toNat p.entries = .ok bs ∧ cfgBad s h p bs = false ∧ p.baxis.val = 3) ∧
    (∃ (s : State) (c : CmdId) (h : Nat) (x : Herd), Ready s ∧ CommandRuns s c h x) ∧
    (∃ (s : State) (c : CmdId) (h : Nat) (x : Herd), Ready s ∧ CommandRuns s c h x ∧ snapEn s h = true) ∧
    (∃ (s : State) (c : CmdId) (h : Nat) (x : Herd), Ready s ∧ CommandRuns s c h x ∧ snapEn s h = false) ∧
    (∃ (s : State) (c : CmdId) (h : Nat) (x : Herd), Ready s ∧ CommandRuns s c h x) ∧
    (∃ (s : State) (c : CmdId) (h : Nat) (x : Herd), Ready s ∧ CommandRuns s c h x ∧ (snapOf s h).cur = none ∧ (snapOf s h).capMirror = false) ∧
    (∃ (s : State) (c : CmdId) (h : Nat) (x : Herd), Ready s ∧ CommandRuns s c h x ∧ ((∀ d ∈ x.sites, coreState s d = 1))) ∧
    (∃ (s : State) (c : CmdId) (h : Nat) (x : Herd), Ready s ∧ CommandRuns s c h x ∧ ((∃ d ∈ x.sites, coreState s d ≠ 1))) ∧
    (∃ (s : State) (c : CmdId) (h : Nat) (x : Herd) (dest : DWord) (n : Nat), Ready s ∧ CommandRuns s c h x ∧
      (areaJudged s h dest.toNat n).all writablePage = true ∧ 0 < n ∧ n < 4294967296) :=
  ⟨⟨(withPage (asked idle) 7 1 23 : State), (cmd0 : CmdId), (1 : Nat), (herdOn [0, 1] : Herd), ({ snapParams false 3 with kmax := 0 } : SnapParams),
      (List.replicate 32 0 : List Byte), by and_intros <;> decide +kernel⟩,
   ⟨(poke (withPage (withPage (asked idle) 7 1 23) 5 1 47) (23 * 65536) (wordBytes [5, 1, 0, 0, 0, 0, 0, 0]) : State), (cmd0 : CmdId), (1 : Nat),
      (herdOn [0, 1] : Herd), (snapParams false 3 : SnapParams), (wordBytes [5, 1, 0, 0, 0, 0, 0, 0] : List Byte), by and_intros <;> decide +kernel⟩,
   ⟨(put (asked idle) [(snapReg 1 + 0x24, 7), (snapReg 1 + 0x28, 0x50007)] : State), (cmd0 : CmdId), (1 : Nat), (herdOn [0, 1] : Herd),
      by and_intros <;> decide +kernel⟩,
   ⟨(put (withSnap (asked idle) (snapOn false 3 [entry0])) [(vuPage 0 + 0x820, 9)] : State), (cmd0 : CmdId), (1 : Nat), (herdOn [0, 1] : Herd),
      by and_intros <;> decide +kernel⟩,
   ⟨(asked idle : State), (cmd0 : CmdId), (1 : Nat), (herdOn [0, 1] : Herd), by and_intros <;> decide +kernel⟩,
   ⟨(put (asked idle) [(snapReg 1 + 8, 0xFFFFFFFF), (snapReg 1 + 12, 0xFFFFFFFF)] : State), (cmd0 : CmdId), (1 : Nat), (herdOn [0, 1] : Herd),
      by and_intros <;> decide +kernel⟩,
   ⟨(withSnap (asked idle) { snapOn false 3 [entry0] with now := true } : State), (cmd0 : CmdId), (1 : Nat), (herdOn [0, 1] : Herd),
      by and_intros <;> decide +kernel⟩,
   ⟨(asked idle : State), (cmd0 : CmdId), (1 : Nat), (herdOn [0, 1] : Herd), by and_intros <;> decide +kernel⟩,
   ⟨(asked running : State), (cmd0 : CmdId), (1 : Nat), (herdOn [0, 1] : Herd), by and_intros <;> decide +kernel⟩,
   ⟨(withPage (asked idle) 7 1 23 : State), (cmd0 : CmdId), (1 : Nat), (herdOn [0, 1] : Herd), (0x7FFFF : DWord), (1 : Nat),
      by and_intros <;> decide +kernel⟩⟩

/-- States and operands that meet the hypotheses of SnapshotsRun. -/
theorem meets_SnapshotsRun :
    (∃ (s : State) (h : HerdNo) (x : Snap) (k : Nat) (p : SnapParams), Ready s ∧ snapOf s h.val = x ∧ x.cap = some k ∧ x.copied = false ∧
      x.params = some p ∧ allCaptured s x = false) ∧
    (∃ (s : State) (h : HerdNo) (x : Snap) (k : Nat) (p : SnapParams), Ready s ∧ snapOf s h.val = x ∧ x.cap = some k ∧ x.copied = false ∧
      x.params = some p ∧ allCaptured s x = true ∧ x.capSnap = false) ∧
    (∃ (s : State) (h : HerdNo) (x : Snap) (k : Nat) (i : Nat) (e : SnapEntry), Ready s ∧ snapOf s h.val = x ∧ x.cap = some k ∧
      x.entries[i]? = some e ∧ entryWanted s x e = true ∧ e.final = false ∧ ((e.gvalid = true → e.ndesc ≤ (entryCounts e (k % 4294967296)).1)) ∧
      ((e.gvalid = false → x.copied = true))) ∧
    (∃ (s : State) (h : HerdNo) (x : Snap) (k : Nat) (i : Nat) (e : SnapEntry), Ready s ∧ snapOf s h.val = x ∧ x.cap = some k ∧
      x.entries[i]? = some e ∧ entryWanted s x e = true ∧ e.final = true ∧ e.captured = false ∧ x.capSnap = true ∧ x.capMirror = false ∧
      ((∃ j, ∃ g, x.entries[j]? = some g ∧ j ≠ i ∧ g.based = false ∧ g.captured = false))) ∧
    (∃ (s : State) (h : HerdNo) (x : Snap) (w : Nat × List Byte) (ws : List (Nat × List Byte)), Ready s ∧ snapOf s h.val = x ∧ x.sendQ = w :: ws ∧
      x.params.any (·.pcie) = false) ∧
    (∃ (s : State) (h : HerdNo) (x : Snap) (w : Nat × List Byte) (ws : List (Nat × List Byte)), Ready s ∧ snapOf s h.val = x ∧ x.sendQ = w :: ws ∧
      x.params.any (·.pcie) = true ∧ ((∃ v, ws.head? = some v ∧ recordAt x v.1 = recordAt x w.1))) ∧
    (∃ (s : State) (h : HerdNo) (x : Snap) (p : BxNo) (addr : DWord), Ready s ∧ snapOf s h.val = x ∧ AuxUp s p ∧ x.await_.contains addr.toNat = true ∧
      x.sendQ ≠ []) ∧
    (∃ (s : State) (h : HerdNo) (x : Snap) (p : BxNo) (addr : DWord) (st : Nat), Ready s ∧ snapOf s h.val = x ∧ AuxUp s p ∧
      x.await_.contains addr.toNat = true ∧ x.sendQ = [] ∧ x.await_ = [addr.toNat] ∧ x.capSnap = false ∧ x.cur = some st ∧ x.manifest = false) ∧
    (∃ (s : State) (h : HerdNo) (x : Snap) (p : BxNo) (addr : DWord) (st : Nat), Ready s ∧ snapOf s h.val = x ∧ AuxUp s p ∧
      x.await_.contains addr.toNat = true ∧ x.sendQ = [] ∧ x.await_ = [addr.toNat] ∧ x.capSnap = false ∧ x.cur = some st ∧ x.manifest = true ∧
      (herdOf s h.val).any (·.pod) = false ∧ st < 2 ^ 64) ∧
    (∃ (s : State) (h : HerdNo) (x : Snap) (p : BxNo) (addr : DWord) (st : Nat) (q : BxNo), Ready s ∧ snapOf s h.val = x ∧ AuxUp s p ∧
      x.await_.contains addr.toNat = true ∧ x.cur = some st ∧ (herdOf s h.val).any (·.pod) = false ∧ AuxUp s q) ∧
    (∃ (s : State) (h : HerdNo) (x : Snap) (p : BxNo) (addr : DWord) (st : Nat), Ready s ∧ snapOf s h.val = x ∧ AuxUp s p ∧
      x.await_.contains addr.toNat = true ∧ x.cur = some st ∧ (herdOf s h.val).any (·.pod) = false) ∧
    (∃ (s : State) (h : HerdNo) (x : Snap) (addr : DWord), Ready s ∧ snapOf s h.val = x ∧ x.params.any (·.pcie) = true ∧
      x.await_.contains addr.toNat = true ∧ x.sendQ ≠ []) ∧
    (∃ (s : State) (f : FrameHdr) (x : Snap) (data : List Byte) (r : Nat) (a : Nat) (b : Nat), Ready s ∧ FrameHere s f ∧ snapOf s f.herd.val = x ∧
      oneStep s f.herd.val f.src.toNat (ownPos s) = true ∧ x.restore.any (·.spare) = false ∧ b = (if f.addr.toNat < halfBytes x then 0 else 1) ∧
      x.region = some r ∧ data.length = 64 ∧ f.addr.toNat % 64 = 0 ∧ f.addr.toNat + 64 ≤ 2 * halfBytes x ∧
      a = 65536 * (rsvBase s + 25672 + r) + f.addr.toNat ∧ mergeOf s (a / 64) = none) ∧
    (∃ (s : State) (f : FrameHdr) (x : Snap), Ready s ∧ FrameHere s f ∧ snapOf s f.herd.val = x ∧ oneStep s f.herd.val f.src.toNat (ownPos s) = true) ∧
    (∃ (s : State) (f : FrameHdr) (x : Snap), Ready s ∧ FrameHere s f ∧ snapOf s f.herd.val = x ∧ isLead s = true ∧ bit f.addr 63 = false ∧
      x.cur = some f.addr.toNat ∧ ((∃ q ∈ ownPos s :: herdMembers s f.herd.val, q ≠ f.src.toNat ∧ x.committed.contains q = false))) ∧
    (∃ (s : State) (f : FrameHdr) (x : Snap), Ready s ∧ FrameHere s f ∧ snapOf s f.herd.val = x ∧ fromLead f s = true) :=
  ⟨⟨(withSnap running ({ snapOn false 3 [entry0] with cap := some 9, cur := some 9, capSnap := true } : Snap) : State), (1 : HerdNo),
      ({ snapOn false 3 [entry0] with cap := some 9, cur := some 9, capSnap := true } : Snap), (9 : Nat), (snapParams false 3 : SnapParams),
      by and_intros <;> decide +kernel⟩,
   ⟨(withSnap running ({ snapOn false 3 [entry0] with cap := some 9, cur := some 9 } : Snap) : State), (1 : HerdNo),
      ({ snapOn false 3 [entry0] with cap := some 9, cur := some 9 } : Snap), (9 : Nat), (snapParams false 3 : SnapParams),
      by and_intros <;> decide +kernel⟩,
   ⟨(withSnap running ({ snapOn false 3 [entry0] with cap := some 9, cur := some 9, capSnap := true, copied := true } : Snap) : State), (1 : HerdNo),
      ({ snapOn false 3 [entry0] with cap := some 9, cur := some 9, capSnap := true, copied := true } : Snap), (9 : Nat), (0 : Nat),
      (entry0 : SnapEntry), by and_intros <;> decide +kernel⟩,
   ⟨(withPage (withSnap running ({ snapOn false 3 [{ entry0 with final := true }, { entry0 with page := 6 }] with cap := some 9, cur := some 9, capSnap := true, copied := true } : Snap)) 5 1 23 : State),
      (1 : HerdNo),
      ({ snapOn false 3 [{ entry0 with final := true }, { entry0 with page := 6 }] with cap := some 9, cur := some 9, capSnap := true, copied := true } : Snap),
      (9 : Nat), (0 : Nat), ({ entry0 with final := true } : SnapEntry),
      by and_intros <;> first | decide +kernel | exact (⟨1, { entry0 with page := 6 }, by and_intros <;> decide +kernel⟩)⟩,
   ⟨(withSnap (auxUp running) ({ snapOn false 3 [entry0] with cap := some 9, cur := some 9, capSnap := true, sendQ := [((0x100000000, [1, 2, 3]) : Nat × List Byte)] } : Snap) : State),
      (1 : HerdNo),
      ({ snapOn false 3 [entry0] with cap := some 9, cur := some 9, capSnap := true, sendQ := [((0x100000000, [1, 2, 3]) : Nat × List Byte)] } : Snap),
      ((0x100000000, [1, 2, 3]) : Nat × List Byte), ([] : List (Nat × List Byte)), by and_intros <;> decide +kernel⟩,
   ⟨(withSnap running ({ snapOn true 3 [entry0] with cap := some 9, cur := some 9, capSnap := true, sendQ := ((0x100000000, [1, 2, 3]) : Nat × List Byte) :: ([(0x100000003, [4])] : List (Nat × List Byte)) } : Snap) : State),
      (1 : HerdNo),
      ({ snapOn true 3 [entry0] with cap := some 9, cur := some 9, capSnap := true, sendQ := ((0x100000000, [1, 2, 3]) : Nat × List Byte) :: ([(0x100000003, [4])] : List (Nat × List Byte)) } : Snap),
      ((0x100000000, [1, 2, 3]) : Nat × List Byte), ([(0x100000003, [4])] : List (Nat × List Byte)), by and_intros <;> decide +kernel⟩,
   ⟨(withSnap (auxUp running) ({ snapOn false 3 [entry0] with cap := some 9, cur := some 9, capSnap := true, sendQ := [(0x100000000, [1, 2, 3])], await_ := [7, 8] } : Snap) : State),
      (1 : HerdNo),
      ({ snapOn false 3 [entry0] with cap := some 9, cur := some 9, capSnap := true, sendQ := [(0x100000000, [1, 2, 3])], await_ := [7, 8] } : Snap),
      (7 : BxNo), (7 : DWord), by and_intros <;> decide +kernel⟩,
   ⟨(withSnap (auxUp running) ({ snapOn false 3 [{ entry0 with digests := [List.replicate 48 0] }] with cur := some 9, await_ := [7] } : Snap) : State),
      (1 : HerdNo), ({ snapOn false 3 [{ entry0 with digests := [List.replicate 48 0] }] with cur := some 9, await_ := [7] } : Snap), (7 : BxNo),
      (7 : DWord), (9 : Nat), by and_intros <;> decide +kernel⟩,
   ⟨(withSnap (auxUp running) ({ snapOn false 3 [entry0] with cur := some 9, await_ := [7], manifest := true } : Snap) : State), (1 : HerdNo),
      ({ snapOn false 3 [entry0] with cur := some 9, await_ := [7], manifest := true } : Snap), (7 : BxNo), (7 : DWord), (9 : Nat),
      by and_intros <;> decide +kernel⟩,
   ⟨(withSnap (auxUp running) ({ snapOn false 3 [entry0] with cur := some 9, await_ := [7], manifest := true } : Snap) : State), (1 : HerdNo),
      ({ snapOn false 3 [entry0] with cur := some 9, await_ := [7], manifest := true } : Snap), (7 : BxNo), (7 : DWord), (9 : Nat), (6 : BxNo),
      by and_intros <;> decide +kernel⟩,
   ⟨(withSnap (auxUp running) ({ snapOn false 3 [entry0] with cur := some 9, await_ := [7], manifest := true } : Snap) : State), (1 : HerdNo),
      ({ snapOn false 3 [entry0] with cur := some 9, await_ := [7], manifest := true } : Snap), (7 : BxNo), (7 : DWord), (9 : Nat),
      by and_intros <;> decide +kernel⟩,
   ⟨(withSnap running ({ snapOn true 3 [entry0] with cap := some 9, cur := some 9, capSnap := true, sendQ := [(0x100000000, [1, 2, 3])], await_ := [7, 8] } : Snap) : State),
      (1 : HerdNo),
      ({ snapOn true 3 [entry0] with cap := some 9, cur := some 9, capSnap := true, sendQ := [(0x100000000, [1, 2, 3])], await_ := [7, 8] } : Snap),
      (7 : DWord), by and_intros <;> decide +kernel⟩,
   ⟨(withSnap (withHerd (podAt 1) 1 podHerd 3) ({ snapOn false 0 [entry0] with region := some 3 } : Snap) : State), (hdr 1 0 1 64 : FrameHdr),
      ({ snapOn false 0 [entry0] with region := some 3 } : Snap), (List.replicate 64 7 : List Byte), (3 : Nat),
      (65536 * (rsvBase (podAt 1) + 25672 + 3) + 64 : Nat), (0 : Nat), by and_intros <;> decide +kernel⟩,
   ⟨(withSnap (withHerd (podAt 1) 1 podHerd 3) ({ snapOn false 0 [entry0] with mirrorOut := [64, 128] } : Snap) : State), (hdr 1 0 1 64 : FrameHdr),
      ({ snapOn false 0 [entry0] with mirrorOut := [64, 128] } : Snap), by and_intros <;> decide +kernel⟩,
   ⟨(withSnap (withHerd (podAt 0) 1 podHerd 3) ({ snapOn false 0 [entry0] with cur := some 9 } : Snap) : State), (hdr 0 1 0 9 : FrameHdr),
      ({ snapOn false 0 [entry0] with cur := some 9 } : Snap), by and_intros <;> decide +kernel⟩,
   ⟨(withSnap (withHerd (podAt 1) 1 podHerd 3) ({ snapOn false 0 [entry0] with cur := some 9 } : Snap) : State), (hdr 1 0 1 9 : FrameHdr),
      ({ snapOn false 0 [entry0] with cur := some 9 } : Snap), by and_intros <;> decide +kernel⟩⟩

/-- States and operands that meet the hypotheses of RestoresAndSpares. -/
theorem meets_RestoresAndSpares :
    (∃ (s : State) (h : HerdNo) (x : Snap) (addr : DWord) (len : Nat) (k : Nat) (g : Frame), Ready s ∧ snapOf s h.val = x ∧ 0 < len ∧ len ≤ 4096 ∧
      (((∃ f, x.fetch = some f ∧ f.store ≤ addr.toNat ∧ addr.toNat + len ≤ f.store + f.bytes) ∨ (x.fetch = none ∧ x.params.any (·.pcie) = false ∧
      ∃ r, x.restore = some r ∧ r.phase = 2 ∧ restoreReads s h.val x r addr.toNat len = true))) ∧ k = storePort s (recordAt x addr.toNat) ∧
      g = storeFrame 0x22 1 h.val addr.toNat len [] ∧ maySend s k g = true ∧ (bxOf s k).waiting = []) ∧
    (∃ (s : State) (h : HerdNo) (x : Snap) (addr : DWord) (len : Nat) (k : Nat) (g : Frame), Ready s ∧ snapOf s h.val = x ∧ 0 < len ∧ len ≤ 4096 ∧
      (((∃ f, x.fetch = some f ∧ f.store ≤ addr.toNat ∧ addr.toNat + len ≤ f.store + f.bytes) ∨ (x.fetch = none ∧ x.params.any (·.pcie) = false ∧
      ∃ r, x.restore = some r ∧ r.phase = 2 ∧ restoreReads s h.val x r addr.toNat len = true))) ∧ k = storePort s (recordAt x addr.toNat) ∧
      g = storeFrame 0x22 1 h.val addr.toNat len [] ∧ maySend s k g = true ∧ (bxOf s k).waiting = []) ∧
    (∃ (s : State) (h : HerdNo) (x : Snap) (r : Restore) (addr : DWord) (len : Nat), Ready s ∧ snapOf s h.val = x ∧ x.fetch = none ∧
      x.restore = some r ∧ r.phase = 2 ∧ x.params.any (·.pcie) = true ∧ restoreReads s h.val x r addr.toNat len = true ∧ 0 < len ∧ len ≤ 4096) ∧
    (∃ (s : State) (h : HerdNo) (x : Snap) (f : Fetch) (c : CmdId) (p : BxNo) (addr : DWord) (data : List Byte) (a : Nat), Ready s ∧
      snapOf s h.val = x ∧ x.fetch = some f ∧ f.asker = .host c ∧ AuxUp s p ∧ fetchWaits s h.val addr data.length = false ∧ f.store ≤ addr.toNat ∧
      addr.toNat + data.length ≤ f.store + f.bytes ∧ a = f.dest + (addr.toNat - f.store) ∧ f.bytes ≤ f.got + data.length) ∧
    (∃ (s : State) (h : HerdNo) (x : Snap) (f : Fetch) (c : CmdId) (p : BxNo) (addr : DWord) (data : List Byte) (a : Nat) (g : Nat), Ready s ∧
      snapOf s h.val = x ∧ x.fetch = some f ∧ f.asker = .host c ∧ AuxUp s p ∧ fetchWaits s h.val addr data.length = false ∧ f.store ≤ addr.toNat ∧
      addr.toNat + data.length ≤ f.store + f.bytes ∧ a = f.dest + (addr.toNat - f.store) ∧ f.got + data.length < f.bytes ∧ ErrorFree s ∧
      s.mergeBuf = [] ∧ data.length = 64 ∧ a % 64 = 0 ∧ judge s h.val (a / 65536) true = .frame g) ∧
    (∃ (s : State) (h : HerdNo) (x : Snap) (r : Restore), Ready s ∧ snapOf s h.val = x ∧ x.restore = some r ∧ r.phase = 1 ∧ spareJoined s = false ∧
      ((∀ d ∈ herdSites s h.val, d < 1024)) ∧ quiet s h.val = true ∧ ((∀ d ∈ herdSites s h.val, coreState s d ∉ [2, 3, 4]))) ∧
    (∃ (s : State) (h : HerdNo) (x : Snap) (r : Restore), Ready s ∧ snapOf s h.val = x ∧ x.restore = some r ∧ r.phase = 1 ∧ spareJoined s = false ∧
      ((∀ d ∈ herdSites s h.val, d < 1024)) ∧ ((quiet s h.val = false ∨ ∃ d ∈ herdSites s h.val, coreState s d ∈ [2, 3, 4]))) ∧
    (∃ (s : State) (h : HerdNo) (x : Snap) (k : Nat) (g : Frame), Ready s ∧ snapOf s h.val = x ∧ spareJoined s = true ∧ s.spares.ordered = [] ∧
      bit (rd s (snapPage + 0x104)) 3 = true ∧ ((∀ q ∈ s.snap, q.2.restore = none)) ∧ x.restore = none ∧ k = sparePort s ∧
      g = spareFrame s 0x34 1 (leadPos s) [BitVec.ofNat 8 (spareIdx s), 1] ∧ maySend s k g = true ∧ (bxOf s k).waiting = []) ∧
    (∃ (s : State) (h : HerdNo) (x : Snap) (r : Restore) (rec_ : List Byte) (q : Nat), Ready s ∧ snapOf s h.val = x ∧ x.restore = some r ∧
      r.phase = 2 ∧ bits (plWord rec_ 1) 7 0 = 2 ∧ bits (plWord rec_ 2) 21 16 = q ∧
      (rec_.drop 0x90).take 48 = sha384 (rec_.take 0x90 ++ (rec_.drop 256).take (64 * plWord rec_ 6)) ∧ r.asker.isSome = true ∧ q = storePos s h.val ∧
      r.full = true ∧ r.got = [] ∧ manifestChunks rec_ ≠ []) ∧
    (∃ (s : State) (h : HerdNo) (x : Snap) (r : Restore) (rec_ : List Byte) (q : Nat), Ready s ∧ snapOf s h.val = x ∧ x.restore = some r ∧
      r.phase = 2 ∧ bits (plWord rec_ 1) 7 0 = 2 ∧ bits (plWord rec_ 2) 21 16 = q ∧
      (rec_.drop 0x90).take 48 ≠ sha384 (rec_.take 0x90 ++ (rec_.drop 256).take (64 * plWord rec_ 6)) ∧ r.retry.contains (65536, q) = false) ∧
    (∃ (s : State) (h : HerdNo) (x : Snap) (r : Restore) (rec_ : List Byte) (q : Nat) (c : CmdId), Ready s ∧ snapOf s h.val = x ∧ x.restore = some r ∧
      r.phase = 2 ∧ bits (plWord rec_ 1) 7 0 = 2 ∧ bits (plWord rec_ 2) 21 16 = q ∧
      (rec_.drop 0x90).take 48 ≠ sha384 (rec_.take 0x90 ++ (rec_.drop 256).take (64 * plWord rec_ 6)) ∧ r.retry.contains (65536, q) = true ∧
      r.asker = some (.host c)) ∧
    (∃ (s : State) (p : BxNo) (addr : DWord) (g : Frame), Ready s ∧ AuxUp s p ∧ forSpare s addr = true ∧
      g = spareFrame s 0x31 2 (leadPos s) [BitVec.ofNat 8 (spareIdx s), BitVec.ofNat 8 (spareState s)] ∧ maySend s p.val g = true ∧
      (bxOf s p.val).waiting = []) ∧
    (∃ (s : State) (p : BxNo) (addr : DWord), Ready s ∧ AuxUp s p ∧ forSpare s addr = false) ∧
    (∃ (s : State) (p : BxNo) (addr : DWord) (cfg : PodParams) (g : Frame), Ready s ∧ AuxUp s p ∧ forSpare s addr = true ∧ taking s = false ∧
      podEn s = false ∧ g = storeFrame 0x33 2 0 (cfg.podId.toNat + 65536 * cfg.leadPos.toNat) 0 [BitVec.ofNat 8 (spareIdx s)] ∧
      maySend s p.val g = true ∧ (bxOf s p.val).waiting = []) ∧
    (∃ (s : State) (p : BxNo) (addr : DWord) (cfg : PodParams) (g : Frame), Ready s ∧ AuxUp s p ∧ forSpare s addr = true ∧ taking s = false ∧
      podEn s = false ∧ g = storeFrame 0x33 2 0 (cfg.podId.toNat + 65536 * cfg.leadPos.toNat) 0 [BitVec.ofNat 8 (spareIdx s)] ∧
      maySend s p.val g = true ∧ (bxOf s p.val).waiting = []) ∧
    (∃ (s : State) (p : BxNo) (addr : DWord) (cfg : PodParams), Ready s ∧ AuxUp s p ∧ forSpare s addr = true ∧ taking s = false ∧ podEn s = true ∧
      cfg.pos.toNat = ownPos s) ∧
    (∃ (s : State) (p : BxNo) (addr : DWord) (cfg : PodParams), Ready s ∧ AuxUp s p ∧ forSpare s addr = true ∧ taking s = false ∧ podEn s = true ∧
      cfg.pos.toNat ≠ ownPos s) ∧
    (∃ (s : State) (p : BxNo) (addr : DWord), Ready s ∧ AuxUp s p ∧ forSpare s addr = true) ∧
    (∃ (s : State) (p : BxNo), Ready s ∧ AuxUp s p ∧ isLead s = true) ∧
    (∃ (s : State) (p : BxNo) (k : Fin 4) (q : Nat), Ready s ∧ AuxUp s p ∧ isLead s = true ∧
      s.spares.filling.find? (fun y => decide (y.1 = k.val)) = some (k.val, q) ∧ ((∃ y ∈ s.spares.filling, y.1 ≠ k.val))) ∧
    (∃ (s : State) (p : BxNo) (k : Fin 4) (q : Nat), Ready s ∧ AuxUp s p ∧ isLead s = true ∧
      s.spares.filling.find? (fun y => decide (y.1 = k.val)) = some (k.val, q) ∧ s.spares.filling = [(k.val, q)] ∧ s.spares.failedPos ≠ [] ∧
      affected s = []) ∧
    (∃ (s : State) (p : BxNo) (k : Fin 4) (q : Nat), Ready s ∧ AuxUp s p ∧ isLead s = true ∧
      s.spares.filling.find? (fun y => decide (y.1 = k.val)) = some (k.val, q)) ∧
    (∃ (s : State) (k : Nat), Ready s ∧ isLead s = true ∧ k = sparePort s ∧ linkUp s k = true ∧ s.side.linkStop = false ∧ (bxOf s k).waiting = [] ∧
      128 ≤ (bxOf s k).credits.getD 1 0 ∧ replayBytes s k ≤ 130944) ∧
    (∃ (s : State) (f : FrameHdr), Ready s ∧ FrameHere s f ∧ isLead s = true ∧ s.spares.failedPos = []) ∧
    (∃ (s : State) (f : FrameHdr) (status : Byte), Ready s ∧ FrameHere s f ∧ isLead s = true ∧ status ≠ 0) :=
  ⟨⟨(withSnap (auxUp idle) ({ Snap.clear with fetch := some (⟨.host cmd0, 0x100000000, 0x70000, 8192, 0⟩ : Fetch) } : Snap) : State), (1 : HerdNo),
      ({ Snap.clear with fetch := some (⟨.host cmd0, 0x100000000, 0x70000, 8192, 0⟩ : Fetch) } : Snap), (0x100001000 : DWord), (4096 : Nat),
      (storePort (withSnap (auxUp idle) ({ Snap.clear with fetch := some (⟨.host cmd0, 0x100000000, 0x70000, 8192, 0⟩ : Fetch) } : Snap) : State) (recordAt ({ Snap.clear with fetch := some (⟨.host cmd0, 0x100000000, 0x70000, 8192, 0⟩ : Fetch) } : Snap) 0x100001000) : Nat),
      (storeFrame 0x22 1 1 0x100001000 4096 [] : Frame), by and_intros <;> decide +kernel⟩,
   ⟨(withSnap (auxUp idle) ({ snapOn false 3 [entry0] with restore := some (⟨some (.host cmd0), false, none, 0x100000000, 0, 2, true, none, none, [], []⟩ : Restore) } : Snap) : State),
      (1 : HerdNo),
      ({ snapOn false 3 [entry0] with restore := some (⟨some (.host cmd0), false, none, 0x100000000, 0, 2, true, none, none, [], []⟩ : Restore) } : Snap),
      (0x100001000 : DWord), (4096 : Nat),
      (storePort (withSnap (auxUp idle) ({ snapOn false 3 [entry0] with restore := some (⟨some (.host cmd0), false, none, 0x100000000, 0, 2, true, none, none, [], []⟩ : Restore) } : Snap) : State) (recordAt ({ snapOn false 3 [entry0] with restore := some (⟨some (.host cmd0), false, none, 0x100000000, 0, 2, true, none, none, [], []⟩ : Restore) } : Snap) 0x100001000) : Nat),
      (storeFrame 0x22 1 1 0x100001000 4096 [] : Frame), by and_intros <;> decide +kernel⟩,
   ⟨(withSnap idle ({ snapOn true 3 [entry0] with restore := some (⟨some (.host cmd0), false, none, 0x100000000, 0, 2, true, none, none, [], []⟩ : Restore) } : Snap) : State),
      (1 : HerdNo),
      ({ snapOn true 3 [entry0] with restore := some (⟨some (.host cmd0), false, none, 0x100000000, 0, 2, true, none, none, [], []⟩ : Restore) } : Snap),
      (⟨some (.host cmd0), false, none, 0x100000000, 0, 2, true, none, none, [], []⟩ : Restore), (0x100001000 : DWord), (4096 : Nat),
      by and_intros <;> decide +kernel⟩,
   ⟨(withPage (withSnap (auxUp idle) ({ Snap.clear with fetch := some (⟨.host cmd0, 0x100000000, 0x70000, 4, 0⟩ : Fetch) } : Snap)) 7 1 23 : State),
      (1 : HerdNo), ({ Snap.clear with fetch := some (⟨.host cmd0, 0x100000000, 0x70000, 4, 0⟩ : Fetch) } : Snap),
      (⟨.host cmd0, 0x100000000, 0x70000, 4, 0⟩ : Fetch), (cmd0 : CmdId), (7 : BxNo), (0x100000000 : DWord), ([1, 2, 3, 4] : List Byte),
      (0x70000 : Nat), by and_intros <;> decide +kernel⟩,
   ⟨(withPage (withSnap (auxUp idle) ({ Snap.clear with fetch := some (⟨.host cmd0, 0x100000000, 0x70000, 128, 0⟩ : Fetch) } : Snap)) 7 1 23 : State),
      (1 : HerdNo), ({ Snap.clear with fetch := some (⟨.host cmd0, 0x100000000, 0x70000, 128, 0⟩ : Fetch) } : Snap),
      (⟨.host cmd0, 0x100000000, 0x70000, 128, 0⟩ : Fetch), (cmd0 : CmdId), (7 : BxNo), (0x100000040 : DWord), (List.replicate 64 9 : List Byte),
      (0x70040 : Nat), (23 : Nat), by and_intros <;> first | decide +kernel | exact (notPoisoned_of (by decide +kernel))⟩,
   ⟨(put (withSnap (withHerd up 1 (herdOn [0, 1]) 5) ({ snapOn true 3 [entry0] with restore := some (⟨some (.host cmd0), false, none, 0x100000000, 0, 1, true, none, none, [], []⟩ : Restore) } : Snap)) [(ringAddr 23 1 + 4, 0x80000000), (hvote 3 1, 0x40000000)] : State),
      (1 : HerdNo),
      ({ snapOn true 3 [entry0] with restore := some (⟨some (.host cmd0), false, none, 0x100000000, 0, 1, true, none, none, [], []⟩ : Restore) } : Snap),
      (⟨some (.host cmd0), false, none, 0x100000000, 0, 1, true, none, none, [], []⟩ : Restore), by and_intros <;> decide +kernel⟩,
   ⟨(put (withSnap running ({ snapOn true 3 [entry0] with restore := some (⟨some (.host cmd0), false, none, 0x100000000, 0, 1, true, none, none, [], []⟩ : Restore) } : Snap)) [(ringAddr 23 1 + 4, 0x80000000), (seqPage 1 + 0x104, 5)] : State),
      (1 : HerdNo),
      ({ snapOn true 3 [entry0] with restore := some (⟨some (.host cmd0), false, none, 0x100000000, 0, 1, true, none, none, [], []⟩ : Restore) } : Snap),
      (⟨some (.host cmd0), false, none, 0x100000000, 0, 1, true, none, none, [], []⟩ : Restore), by and_intros <;> decide +kernel⟩,
   ⟨(put (auxUp (podAt 2)) [(spareReg, 0xF0001234), (beadPage + 0x128, 1), (snapPage + 0x104, 8)] : State), (1 : HerdNo), (Snap.clear : Snap),
      (6 : Nat),
      (spareFrame (put (auxUp (podAt 2)) [(spareReg, 0xF0001234), (beadPage + 0x128, 1), (snapPage + 0x104, 8)] : State) 0x34 1 (leadPos (put (auxUp (podAt 2)) [(spareReg, 0xF0001234), (beadPage + 0x128, 1), (snapPage + 0x104, 8)] : State)) [BitVec.ofNat 8 (spareIdx (put (auxUp (podAt 2)) [(spareReg, 0xF0001234), (beadPage + 0x128, 1), (snapPage + 0x104, 8)] : State)), 1] : Frame),
      by and_intros <;> decide +kernel⟩,
   ⟨(withSnap idle ({ snapOn false 3 [entry0] with restore := some (⟨some (.host cmd0), false, none, 0x100000000, 0, 2, true, none, none, [], []⟩ : Restore) } : Snap) : State),
      (1 : HerdNo),
      ({ snapOn false 3 [entry0] with restore := some (⟨some (.host cmd0), false, none, 0x100000000, 0, 2, true, none, none, [], []⟩ : Restore) } : Snap),
      (⟨some (.host cmd0), false, none, 0x100000000, 0, 2, true, none, none, [], []⟩ : Restore),
      ((let a := wordBytes ([0, 2, 0, 0, 0, 0, 1, 0] ++ List.replicate 28 0); let b := wordBytes ([5, 1] ++ List.replicate 14 0); a ++ sha384 (a ++ b) ++ List.replicate 64 0 ++ b) : List Byte),
      (0 : Nat), by and_intros <;> decide +kernel⟩,
   ⟨(withSnap idle ({ snapOn false 3 [entry0] with restore := some (⟨some (.host cmd0), false, none, 0x100000000, 0, 2, true, none, none, [], []⟩ : Restore) } : Snap) : State),
      (1 : HerdNo),
      ({ snapOn false 3 [entry0] with restore := some (⟨some (.host cmd0), false, none, 0x100000000, 0, 2, true, none, none, [], []⟩ : Restore) } : Snap),
      (⟨some (.host cmd0), false, none, 0x100000000, 0, 2, true, none, none, [], []⟩ : Restore),
      (wordBytes ([0, 2] ++ List.replicate 62 0) : List Byte), (0 : Nat), by and_intros <;> decide +kernel⟩,
   ⟨(withSnap idle ({ snapOn false 3 [entry0] with restore := some (⟨some (.host cmd0), false, none, 0x100000000, 0, 2, true, none, none, [], [(65536, 0)]⟩ : Restore) } : Snap) : State),
      (1 : HerdNo),
      ({ snapOn false 3 [entry0] with restore := some (⟨some (.host cmd0), false, none, 0x100000000, 0, 2, true, none, none, [], [(65536, 0)]⟩ : Restore) } : Snap),
      (⟨some (.host cmd0), false, none, 0x100000000, 0, 2, true, none, none, [], [(65536, 0)]⟩ : Restore),
      (wordBytes ([0, 2] ++ List.replicate 62 0) : List Byte), (0 : Nat), (cmd0 : CmdId), by and_intros <;> decide +kernel⟩,
   ⟨(put (auxUp up) [(spareReg, 0xB0001234)] : State), (7 : BxNo), (0x431234 : DWord), (storeFrame 0x31 2 0 0 0 [3, 0] : Frame),
      by and_intros <;> decide +kernel⟩,
   ⟨(put (auxUp up) [(spareReg, 0xB0001234)] : State), (7 : BxNo), (0x421234 : DWord), by and_intros <;> decide +kernel⟩,
   ⟨(put (auxUp up) [(spareReg, 0xB0001234)] : State), (7 : BxNo), (0x431234 : DWord),
      (⟨0x1234, 63, 5, 3, 0xFFFFFFFFFFFFFFFF, [1, 2, 3, 4, 5, 6]⟩ : PodParams), (storeFrame 0x33 2 0 0x51234 0 [3] : Frame),
      by and_intros <;> decide +kernel⟩,
   ⟨(put (auxUp up) [(spareReg, 0xB0001234)] : State), (7 : BxNo), (0x431234 : DWord),
      (⟨0x1234, 5, 5, 0, 0xFFFFFFFFFFFFFFFF, [1, 2, 3, 4, 5, 6]⟩ : PodParams), (storeFrame 0x33 2 0 0x51234 0 [3] : Frame),
      by and_intros <;> decide +kernel⟩,
   ⟨(put (auxUp (podAt 2)) [(spareReg, 0xB0001234)] : State), (7 : BxNo), (0x431234 : DWord),
      (⟨0x1234, 2, 0, 3, 0xF, [1, 2, 3, 4, 5, 6]⟩ : PodParams), by and_intros <;> decide +kernel⟩,
   ⟨(put (auxUp (podAt 2)) [(spareReg, 0xB0001234)] : State), (7 : BxNo), (0x431234 : DWord),
      (⟨0x1234, 3, 0, 3, 0xF, [1, 2, 3, 4, 5, 6]⟩ : PodParams), by and_intros <;> decide +kernel⟩,
   ⟨({ put (auxUp up) [(spareReg, 0xF0001234)] with spares := { up.spares with ordered := [⟨1, ⟨2, 15, true, 1, 0, 1, 1, 1, 1000, 7, 0⟩, 0, 32, snapParams false 0, 9⟩] } } : State),
      (7 : BxNo), (0x431234 : DWord), by and_intros <;> decide +kernel⟩,
   ⟨(auxUp (podAt 0) : State), (7 : BxNo), by and_intros <;> decide +kernel⟩,
   ⟨({ auxUp (podAt 0) with spares := { up.spares with filling := [(2, 1), (3, 2)], failedPos := [1, 2], rdone := [64] }, herd := [(1, podHerd)] } : State),
      (7 : BxNo), (3 : Fin 4), (2 : Nat), by and_intros <;> decide +kernel⟩,
   ⟨({ auxUp (podAt 0) with spares := { up.spares with filling := [(3, 2)], failedPos := [2] } } : State), (7 : BxNo), (3 : Fin 4), (2 : Nat),
      by and_intros <;> decide +kernel⟩,
   ⟨({ auxUp (podAt 0) with spares := { up.spares with filling := [(2, 1), (3, 2)], failedPos := [1, 2], rdone := [64] }, herd := [(1, podHerd)] } : State),
      (7 : BxNo), (3 : Fin 4), (2 : Nat), by and_intros <;> decide +kernel⟩,
   ⟨(auxUp (podAt 0) : State), (6 : Nat), by and_intros <;> decide +kernel⟩,
   ⟨(podAt 0 : State), (hdr 0 1 0 0 : FrameHdr), by and_intros <;> decide +kernel⟩,
   ⟨({ podAt 0 with spares := { up.spares with filling := [(2, 1)], failedPos := [1] }, herd := [(1, podHerd)] } : State), (hdr 0 1 0 0 : FrameHdr),
      (4 : Byte), by and_intros <;> decide +kernel⟩⟩

/-- States and operands that meet the hypotheses of PowerPins. -/
theorem meets_PowerPins :
    (∃ (s : State), s.power.pwrEn = false) ∧
    (∃ (s : State), s.power.pwrEn = false) ∧
    (∃ (s : State), s.power.holdoff = true) ∧
    (∃ (s : State), s.power.state = .ramp) ∧
    (∃ (s : State), s.power.pwrEn = true ∧ (s.power.state = .off ∨ s.power.state = .latched)) ∧
    (∃ (s : State), s.power.pwrEn = true ∧ (s.power.state = .ramp ∨ powered s = true)) ∧
    (∃ (s : State), s.power.pwrEn = true ∧ (s.power.state = .ramp ∨ powered s = true)) ∧
    (∃ (s : State), (s.power.state = .ramp ∨ powered s = true)) ∧
    (∃ (s : State) (temp : BitVec 16), powered s = true ∧ (16 * fld (rd s (pwrPage 1 + 0x130)) 23 16 : Int) ≤ temp.toInt) ∧
    (∃ (s : State), heldInReset s = true) ∧
    (∃ (s : State) (vin : BitVec 16), Ready s ∧ s.power.state = .run ∧ vin.toNat < 4600) ∧
    (∃ (s : State), Ready s) ∧
    (∃ (s : State) (eff : Nat), Ready s ∧ eff = fld (rd s (pwrPage 0 + 0x10C)) 27 16) ∧
    (∃ (s : State) (eff : Nat), Ready s ∧ eff = fld (rd s (pwrPage 0 + 0x10C)) 27 16) :=
  ⟨⟨({ State.reset with power := ⟨.latched, false, true, false, false⟩ } : State), by decide +kernel⟩,
   ⟨({ State.reset with power := ⟨.off, false, true, true, false⟩ } : State), by decide +kernel⟩,
   ⟨({ State.reset with power := ⟨.off, true, true, true, false⟩ } : State), by decide +kernel⟩,
   ⟨({ up with power := ⟨.ramp, true, true, false, false⟩ } : State), by decide +kernel⟩,
   ⟨({ State.reset with power := ⟨.latched, true, true, false, false⟩ } : State), by and_intros <;> decide +kernel⟩,
   ⟨(up : State), by and_intros <;> decide +kernel⟩,
   ⟨({ up with power := ⟨.ramp, true, true, false, false⟩ } : State), by and_intros <;> decide +kernel⟩,
   ⟨(running : State), by decide +kernel⟩,
   ⟨(put up [(pwrPage 1 + 0x130, 0x00690000)] : State), (0x690 : BitVec 16), by and_intros <;> decide +kernel⟩,
   ⟨({ put up [] with power := ⟨.init, true, true, false, true⟩ } : State), by decide +kernel⟩,
   ⟨(up : State), (4599 : BitVec 16), by and_intros <;> decide +kernel⟩,
   ⟨(put up [(pwrPage 1 + 0x130, 0x00690505), (pwrPage 1 + 0x104, 0x300)] : State), by decide +kernel⟩,
   ⟨(put up [(pwrPage 0 + 0x10C, 0x03E803E8), (pwrPage 0 + 0x110, 0x400)] : State), (1000 : Nat), by and_intros <;> decide +kernel⟩,
   ⟨({ put up [(pwrPage 0 + 0x10C, 0x03E803E8), (pwrPage 0 + 0x110, 0x4FF), (beadPage + 0x120, 1)] with capRun := 3 } : State), (1000 : Nat),
      by and_intros <;> decide +kernel⟩⟩

/-- States and operands that meet the hypotheses of DeviceStarts. -/
theorem meets_DeviceStarts :
    (∃ (s : State), Ready s ∧ heldInReset s = true ∧ s.fuses.checkOk = true) ∧
    (∃ (s : State), Ready s ∧ heldInReset s = true ∧ s.fuses.checkOk = false) ∧
    (∃ (s : State) (n : Fin 5), Ready s ∧ bit (rd s (mgtPage 2 + 0x100)) n.val = true) ∧
    (∃ (s : State) (n : Fin 5), Ready s ∧ bit (rd s (mgtPage 2 + 0x100)) n.val = false ∧ fuseOk s = true) ∧
    (∃ (s : State) (r : BootRecord) (first : Nat), Ready s ∧ devState s = 0 ∧ fuseOk s = true ∧ s.fwHeader = [] ∧ r = bootRecord s ∧
      (first = (if r.confirmed = true ∨ 0 < r.tries then r.pref else 1 - r.pref))) ∧
    (∃ (s : State), Ready s ∧ devState s = 0 ∧ s.fwHeader ≠ []) ∧
    (∃ (s : State) (n : PortNo) (ch : Fin 8), Ready s ∧ devState s = 1 ∧ bit (rd s (mpPage n.val + 0x10C)) (8 + ch.val) = false) ∧
    (∃ (s : State), Ready s ∧ devState s = 1 ∧ allFilled s = true ∧ bit (rd s (mgtPage 0 + 0x100)) 3 = false) :=
  ⟨⟨({ State.reset with power := ⟨.init, true, true, false, true⟩ } : State), by and_intros <;> decide +kernel⟩,
   ⟨({ State.reset with power := ⟨.init, true, true, false, true⟩, fuses := { State.reset.fuses with checkOk := false } } : State),
      by and_intros <;> decide +kernel⟩,
   ⟨(put up [(mgtPage 2 + 0x100, 31)] : State), (4 : Fin 5), by and_intros <;> decide +kernel⟩,
   ⟨(put up [(mgtPage 2 + 0x100, 15), (mgtPage 1 + 0x104, 1)] : State), (4 : Fin 5), by and_intros <;> decide +kernel⟩,
   ⟨({ State.reset with power := ⟨.init, true, true, false, true⟩, ctl := [(mgtPage 1 + 0x104, 1)] } : State),
      (bootRecord ({ State.reset with power := ⟨.init, true, true, false, true⟩, ctl := [(mgtPage 1 + 0x104, 1)] } : State) : BootRecord), (0 : Nat),
      by and_intros <;> decide +kernel⟩,
   ⟨({ State.reset with power := ⟨.init, true, true, false, true⟩, ctl := [(mgtPage 1 + 0x104, 1)], fwHeader := List.replicate 0x3000 1 } : State),
      by and_intros <;> decide +kernel⟩,
   ⟨({ put up [(0x100, 1), (mpPage 23 + 0x10C, 0x7F00)] with power := ⟨.init, true, true, false, true⟩ } : State), (23 : PortNo), (7 : Fin 8),
      by and_intros <;> decide +kernel⟩,
   ⟨({ put up ([(0x100, 1)] ++ (List.range 24).map (fun n => (mpPage n + 0x10C, 0xFF01))) with power := ⟨.init, true, true, false, true⟩ } : State),
      by and_intros <;> decide +kernel⟩⟩

/-- States and operands that meet the hypotheses of DeviceResets. -/
theorem meets_DeviceResets :
    (∃ (s : State) (v : Word), Ready s ∧ s.rstPend = false ∧ bit v 0 = true ∧ Takes s 2) ∧
    (∃ (s : State), Ready s ∧ s.rstPend = false ∧ bit (rd s (mgtPage 2 + 0x128)) 31 = true ∧ s.wdtArmed = true) ∧
    (∃ (s : State), Ready s ∧ s.rstPend = false ∧ (devState s = 1 ∨ devState s = 2)) ∧
    (∃ (s : State), Ready s ∧ s.rstPend = true ∧ Takes s 2) ∧
    (∃ (s : State), Ready s ∧ s.rstPend = true) ∧
    (∃ (s : State), Ready s ∧ Takes s 2) ∧
    (∃ (s : State), Ready s ∧ s.rstPend = true ∧ s.mergeBuf = []) ∧
    (∃ (s : State), Ready s ∧ devState s = 1 ∧ bit (rd s (mgtPage 0 + 0x100)) 3 = true ∧ ErrorFree s ∧ s.mergeBuf = []) :=
  ⟨⟨(put up [(mgtPage 2 + 0x120, 0xFF00)] : State), (0xFFFFFFFF : Word), by and_intros <;> decide +kernel⟩,
   ⟨({ put up [(mgtPage 2 + 0x128, 0x80000000)] with wdtArmed := true } : State), by and_intros <;> decide +kernel⟩,
   ⟨(up : State), by and_intros <;> decide +kernel⟩,
   ⟨({ up with rstPend := true } : State), by and_intros <;> decide +kernel⟩,
   ⟨({ up with rstPend := true } : State), by and_intros <;> decide +kernel⟩,
   ⟨(up : State), by and_intros <;> decide +kernel⟩,
   ⟨({ put running [(mpPage 3 + 0x10C, 0xFF01), (fabPage 3 + 0x110, 5)] with rstPend := true, perst := [0] } : State),
      by and_intros <;> decide +kernel⟩,
   ⟨({ put (withPage up 5 1 23) [(0x100, 0x9)] with power := ⟨.init, true, true, false, true⟩ } : State),
      by and_intros <;> first | decide +kernel | exact (notPoisoned_of (by decide +kernel))⟩⟩

/-- States and operands that meet the hypotheses of ManagementCommands. -/
theorem meets_ManagementCommands :
    (∃ (s : State) (c : Site), Ready s ∧ (devState s = 1 ∨ devState s = 2) ∧ coreEn s c.val = true ∧ (coreX s c.val).fenceStep = 0) ∧
    (∃ (s : State) (c : Site), Ready s ∧ (devState s = 1 ∨ devState s = 2) ∧ coreEn s c.val = false) ∧
    (∃ (s : State) (h : HerdNo) (x : Herd), Ready s ∧ (devState s = 1 ∨ devState s = 2) ∧ herdOf s h.val = some x ∧ x.failed = false) ∧
    (∃ (s : State) (h : HerdNo), Ready s ∧ (devState s = 1 ∨ devState s = 2) ∧ herdOf s h.val = none) ∧
    (∃ (s : State) (w : BitVec 12), Ready s ∧ (devState s = 1 ∨ devState s = 2) ∧ 600 ≤ w.toNat ∧ w.toNat ≤ 2400) ∧
    (∃ (s : State) (w : BitVec 12), Ready s ∧ (devState s = 1 ∨ devState s = 2) ∧ (w.toNat < 600 ∨ 2400 < w.toNat)) ∧
    (∃ (s : State), Ready s ∧ (devState s = 1 ∨ devState s = 2) ∧ podEn s = false ∧ armed s = false) ∧
    (∃ (s : State), Ready s ∧ (devState s = 1 ∨ devState s = 2) ∧ (podEn s = true ∨ armed s = true)) ∧
    (∃ (s : State) (k : HpNo) (cores : Nat) (frames : Nat) (groups : Nat) (herds : Nat) (nseq : Nat), Ready s ∧ (devState s = 1 ∨ devState s = 2) ∧
      k.val < hpPorts s ∧ cores < 2 ^ 11 ∧ frames < 2 ^ 26 ∧ groups < 2 ^ 17 ∧ herds < 2 ^ 7 ∧ nseq < 2 ^ 11 ∧
      limitsHold s k.val cores frames groups herds nseq = true) ∧
    (∃ (s : State) (k : HpNo) (cores : Nat) (frames : Nat) (groups : Nat) (herds : Nat) (nseq : Nat), Ready s ∧ (devState s = 1 ∨ devState s = 2) ∧
      k.val < hpPorts s ∧ cores < 2 ^ 11 ∧ frames < 2 ^ 26 ∧ groups < 2 ^ 17 ∧ herds < 2 ^ 7 ∧ nseq < 2 ^ 11 ∧
      limitsHold s k.val cores frames groups herds nseq = false) ∧
    (∃ (s : State), Ready s ∧ (devState s = 1 ∨ devState s = 2) ∧ podEn s = false ∧ s.herd = []) ∧
    (∃ (s : State), Ready s ∧ (devState s = 1 ∨ devState s = 2) ∧ (podEn s = true ∨ s.herd ≠ [])) ∧
    (∃ (s : State), Ready s ∧ (devState s = 1 ∨ devState s = 2)) ∧
    (∃ (s : State) (n : PortNo) (l : Nat) (e : Nat), Ready s ∧ (devState s = 1 ∨ devState s = 2) ∧ l < 2 ^ 30 ∧ freeRemap s n.val = some e ∧
      remapRefused s n.val e (BitVec.ofNat 32 (0x80000000 + l)) = false) ∧
    (∃ (s : State) (n : PortNo) (l : Nat), Ready s ∧ (devState s = 1 ∨ devState s = 2) ∧ l < 2 ^ 30 ∧ freeRemap s n.val = none) ∧
    (∃ (s : State) (first : Nat) (ps : List (List Word)), Ready s ∧ (devState s = 1 ∨ devState s = 2) ∧ s.desc = [] ∧ ps ≠ [] ∧ first + ps.length ≤ 32) ∧
    (∃ (s : State) (a : Nat), Ready s ∧ (devState s = 1 ∨ devState s = 2) ∧ isLead s = true ∧ (a = 3 ∨ a = 4)) ∧
    (∃ (s : State) (a : Nat), Ready s ∧ (devState s = 1 ∨ devState s = 2) ∧ isLead s = true ∧ (a = 3 ∨ a = 4)) ∧
    (∃ (s : State) (h : HerdNo) (x : Herd), Ready s ∧ (devState s = 1 ∨ devState s = 2) ∧ isLead s = true ∧ herdOf s h.val = some x ∧ x.pod = true ∧
      x.failed = false) ∧
    (∃ (s : State) (a : Nat), Ready s ∧ (devState s = 1 ∨ devState s = 2) ∧ isLead s = false ∧ 2 ≤ a ∧ a ≤ 4) ∧
    (∃ (s : State), Ready s ∧ (devState s = 1 ∨ devState s = 2)) ∧
    (∃ (s : State), Ready s ∧ (devState s = 1 ∨ devState s = 2) ∧ s.dumpRun = none) ∧
    (∃ (s : State), Ready s ∧ (devState s = 1 ∨ devState s = 2) ∧ s.dumpRun ≠ none) ∧
    (∃ (s : State) (slot : Fin 4) (off : Nat) (len : Nat) (bs : List Byte), Ready s ∧ (devState s = 1 ∨ devState s = 2) ∧ 0 < len ∧ len ≤ 4096 ∧
      off + len ≤ 0x1000000 ∧ devRead s (dumpSlot s slot.val + off) len = some bs ∧ allFilled s = false) ∧
    (∃ (s : State) (slot : Fin 4) (off : Nat) (len : Nat) (bs : List Byte), Ready s ∧ (devState s = 1 ∨ devState s = 2) ∧ 0 < len ∧ len ≤ 4096 ∧
      off + len ≤ 0x1000000 ∧ devRead s (dumpSlot s slot.val + off) len = some bs ∧ allFilled s = true) ∧
    (∃ (s : State) (off : BitVec 28), Ready s ∧ (devState s = 1 ∨ devState s = 2) ∧ off.toNat % 4 = 0) ∧
    (∃ (s : State) (fru : Option (List Byte)) (w : Nat), Ready s ∧ (devState s = 1 ∨ devState s = 2) ∧ fru.bind slotLimit = some w) ∧
    (∃ (s : State), Ready s ∧ devState s ≠ 1 ∧ devState s ≠ 2) :=
  ⟨⟨(running : State), (0 : Site), by and_intros <;> decide +kernel⟩,
   ⟨({ up with fuses := { up.fuses with coreOff := [1023] } } : State), (1023 : Site), by and_intros <;> decide +kernel⟩,
   ⟨(running : State), (1 : HerdNo), (herdOn [0, 1] : Herd), by and_intros <;> decide +kernel⟩,
   ⟨(running : State), (63 : HerdNo), by and_intros <;> decide +kernel⟩,
   ⟨(put up [(pwrPage 0 + 0x11C, 0x107D0)] : State), (2400 : BitVec 12), by and_intros <;> decide +kernel⟩,
   ⟨(up : State), (2401 : BitVec 12), by and_intros <;> decide +kernel⟩,
   ⟨(up : State), by and_intros <;> decide +kernel⟩,
   ⟨(podAt 1 : State), by and_intros <;> decide +kernel⟩,
   ⟨(up : State), (0 : HpNo), (2047 : Nat), (67108863 : Nat), (131071 : Nat), (127 : Nat), (2047 : Nat), by and_intros <;> decide +kernel⟩,
   ⟨(running : State), (0 : HpNo), (1 : Nat), (67108863 : Nat), (131071 : Nat), (127 : Nat), (2047 : Nat), by and_intros <;> decide +kernel⟩,
   ⟨(up : State), by and_intros <;> decide +kernel⟩,
   ⟨(podAt 1 : State), by and_intros <;> decide +kernel⟩,
   ⟨(auxUp (podAt 1) : State), by and_intros <;> decide +kernel⟩,
   ⟨(up : State), (23 : PortNo), (1 : Nat), (0 : Nat), by and_intros <;> decide +kernel⟩,
   ⟨(put up ((List.range 64).map (fun e => (remapReg 23 e, BitVec.ofNat 32 (0x80000000 + e)))) : State), (23 : PortNo), (100 : Nat),
      by and_intros <;> decide +kernel⟩,
   ⟨(up : State), (30 : Nat), ([[1, 2], [3]] : List (List Word)), by and_intros <;> decide +kernel⟩,
   ⟨(podAt 0 : State), (3 : Nat), by and_intros <;> decide +kernel⟩,
   ⟨({ podAt 0 with side := { (podAt 0).side with linkStop := true } } : State), (4 : Nat), by and_intros <;> decide +kernel⟩,
   ⟨(withHerd (podAt 0) 1 podHerd 3 : State), (1 : HerdNo), (podHerd : Herd), by and_intros <;> decide +kernel⟩,
   ⟨(podAt 1 : State), (2 : Nat), by and_intros <;> decide +kernel⟩,
   ⟨(up : State), by and_intros <;> decide +kernel⟩,
   ⟨(up : State), by and_intros <;> decide +kernel⟩,
   ⟨({ up with dumpRun := some ⟨1, 5, false, 3, 4, none, 0⟩ } : State), by and_intros <;> decide +kernel⟩,
   ⟨(poke up (dumpSlot up 3 + 8) [1, 2, 3] : State), (3 : Fin 4), (8 : Nat), (3 : Nat), ([1, 2, 3] : List Byte), by and_intros <;> decide +kernel⟩,
   ⟨(poke (allZeroed up) (dumpSlot up 3 + 8) [1, 2, 3] : State), (3 : Fin 4), (8 : Nat), (3 : Nat), ([1, 2, 3] : List Byte),
      by and_intros <;> decide +kernel⟩,
   ⟨(up : State), (0xFFFFFFC : BitVec 28), by and_intros <;> decide +kernel⟩,
   ⟨(up : State), (some fruImage : Option (List Byte)), (1200 : Nat), by and_intros <;> decide +kernel⟩,
   ⟨(bootRom : State), by and_intros <;> decide +kernel⟩⟩

/-- States and operands that meet the hypotheses of FusesBurn. -/
theorem meets_FusesBurn :
    (∃ (s : State), Ready s ∧ (devState s = 1 ∨ devState s = 2) ∧ confirmed s = true) ∧
    (∃ (s : State), Ready s ∧ (devState s = 1 ∨ devState s = 2) ∧ confirmed s = true ∧ s.fuses.svn = runSvn s) ∧
    (∃ (s : State), Ready s ∧ (devState s = 1 ∨ devState s = 2) ∧ confirmed s = false) ∧
    (∃ (s : State) (k : Nat), Ready s ∧ (devState s = 1 ∨ devState s = 2) ∧ k < 4 ∧ confirmed s = true ∧ fld (rd s bootStat) 5 4 ≠ k ∧
      s.fuses.prov.getLsbD k = true ∧ (s.fuses.revoked.getLsbD k = true ∨ (∃ j < 4, j ≠ k ∧ s.fuses.prov.getLsbD j = true ∧
      s.fuses.revoked.getLsbD j = false))) ∧
    (∃ (s : State) (k : Nat), Ready s ∧ (devState s = 1 ∨ devState s = 2) ∧ k < 4 ∧
      (confirmed s = false ∨ fld (rd s bootStat) 5 4 = k ∨ s.fuses.prov.getLsbD k = false)) ∧
    (∃ (s : State) (k : Nat), Ready s ∧ (devState s = 1 ∨ devState s = 2) ∧ k < 4 ∧ s.fuses.revoked.getLsbD k = false ∧
      ((∀ j < 4, j ≠ k → s.fuses.prov.getLsbD j = true → s.fuses.revoked.getLsbD j = true))) :=
  ⟨⟨(put up [(bootStat, 0x10000), (secPage 0 + 0x108, 64)] : State), by and_intros <;> decide +kernel⟩,
   ⟨(put up [(bootStat, 0x10000)] : State), by and_intros <;> decide +kernel⟩,
   ⟨(up : State), by and_intros <;> decide +kernel⟩,
   ⟨({ put up [(bootStat, 0x10000)] with fuses := { up.fuses with prov := 0xF } } : State), (3 : Nat), by and_intros <;> decide +kernel⟩,
   ⟨(up : State), (3 : Nat), by and_intros <;> decide +kernel⟩,
   ⟨(up : State), (0 : Nat), by and_intros <;> decide +kernel⟩⟩

/-- States and operands that meet the hypotheses of MessagesServed. -/
theorem meets_MessagesServed :
    (∃ (s : State), Ready s ∧ heldInReset s = false) ∧
    (∃ (s : State), Ready s ∧ heldInReset s = false ∧ 1 ≤ devState s ∧ devState s ≤ 4) ∧
    (∃ (s : State) (n : Nat) (v : Nat), Ready s ∧ heldInReset s = false ∧ (devState s = 1 ∨ devState s = 2) ∧ numericSensor s n = some v) ∧
    (∃ (s : State) (n : Nat) (v : Nat), Ready s ∧ heldInReset s = false ∧ (devState s = 1 ∨ devState s = 2) ∧ numericSensor s n = some v) ∧
    (∃ (s : State) (n : Nat), Ready s ∧ heldInReset s = false ∧ (devState s = 1 ∨ devState s = 2) ∧ numericSensor s n = none) ∧
    (∃ (s : State) (n : Nat) (v : Nat), Ready s ∧ heldInReset s = false ∧ (devState s = 1 ∨ devState s = 2) ∧ stateSensor s n = some v) ∧
    (∃ (s : State), Ready s ∧ heldInReset s = false ∧ (devState s = 1 ∨ devState s = 2)) ∧
    (∃ (s : State), Ready s ∧ heldInReset s = false ∧ (devState s = 1 ∨ devState s = 2) ∧ s.evQueue = []) ∧
    (∃ (s : State) (m : EvMsg) (ms : List EvMsg), Ready s ∧ heldInReset s = false ∧ (devState s = 1 ∨ devState s = 2) ∧ s.evQueue = m :: ms ∧
      ms.length < 64) ∧
    (∃ (s : State) (m : EvMsg) (ms : List EvMsg), Ready s ∧ heldInReset s = false ∧ (devState s = 1 ∨ devState s = 2) ∧ s.evQueue = m :: ms ∧
      ms.length < 64) ∧
    (∃ (s : State), Ready s ∧ heldInReset s = false ∧ devState s = 0) ∧
    (∃ (s : State) (c : Instr), Ready s ∧ c ∈ [Instr.getTid, .getPldmTypes, .getPdrRepositoryInfo, .getEndpointId, .getVersion] ∧ heldInReset s = true) :=
  ⟨⟨(up : State), by and_intros <;> decide +kernel⟩,
   ⟨(up : State), by and_intros <;> decide +kernel⟩,
   ⟨(put up [(pwrPage 0 + 0x100, 4800)] : State), (0 : Nat), (4800 : Nat), by and_intros <;> decide +kernel⟩,
   ⟨(put up [(pwrPage 1 + 0x12C, 4800)] : State), (10 : Nat), (4800 : Nat), by and_intros <;> decide +kernel⟩,
   ⟨(up : State), (60 : Nat), by and_intros <;> decide +kernel⟩,
   ⟨(up : State), (2 : Nat), (0 : Nat), by and_intros <;> decide +kernel⟩,
   ⟨(up : State), by and_intros <;> decide +kernel⟩,
   ⟨(up : State), by and_intros <;> decide +kernel⟩,
   ⟨(put { up with evQueue := [⟨1, none, [1]⟩] } [(evQstat, 1)] : State), (⟨1, none, [1]⟩ : EvMsg), ([] : List EvMsg),
      by and_intros <;> decide +kernel⟩,
   ⟨(put { up with evQueue := [⟨1, none, [1]⟩, ⟨2, none, [1]⟩] } [(evQstat, 2)] : State), (⟨1, none, [1]⟩ : EvMsg), ([⟨2, none, [1]⟩] : List EvMsg),
      by and_intros <;> decide +kernel⟩,
   ⟨({ put up [(0x100, 0), (mgtPage 1 + 0x104, 1)] with power := ⟨.init, true, true, false, true⟩ } : State), by and_intros <;> decide +kernel⟩,
   ⟨(heldModule : State), (.getTid : Instr), by and_intros <;> decide +kernel⟩⟩

/-- States and operands that meet the hypotheses of UpdatesRun. -/
theorem meets_UpdatesRun :
    (∃ (s : State) (n : Nat), Ready s ∧ heldInReset s = false ∧ ((devState s = 1 ∨ devState s = 2 ∨ devState s = 3)) ∧ s.mgmt.update.phase = 0 ∧
      0 < n ∧ n ≤ 0x800000) ∧
    (∃ (s : State), Ready s ∧ heldInReset s = false ∧ ((devState s = 1 ∨ devState s = 2 ∨ devState s = 3)) ∧ s.mgmt.update.phase ≠ 0) ∧
    (∃ (s : State), Ready s ∧ heldInReset s = false ∧ ((devState s = 1 ∨ devState s = 2 ∨ devState s = 3)) ∧ s.mgmt.update.phase = 1) ∧
    (∃ (s : State), Ready s ∧ heldInReset s = false ∧ ((devState s = 1 ∨ devState s = 2 ∨ devState s = 3)) ∧ s.mgmt.update.phase = 2) ∧
    (∃ (s : State) (n : Nat) (data : List Byte), Ready s ∧ heldInReset s = false ∧ ((devState s = 1 ∨ devState s = 2 ∨ devState s = 3)) ∧
      s.mgmt.update.phase = 3 ∧ data.length ≤ 4096 ∧ n + data.length ≤ s.mgmt.update.size) ∧
    (∃ (s : State), Ready s ∧ heldInReset s = false ∧ ((devState s = 1 ∨ devState s = 2 ∨ devState s = 3)) ∧ s.mgmt.update.phase = 3 ∧
      s.mgmt.update.size ≤ s.mgmt.update.received) ∧
    (∃ (s : State), Ready s ∧ heldInReset s = false ∧ ((devState s = 1 ∨ devState s = 2 ∨ devState s = 3)) ∧ s.mgmt.update.phase = 4) ∧
    (∃ (s : State), Ready s ∧ heldInReset s = false ∧ ((devState s = 1 ∨ devState s = 2 ∨ devState s = 3)) ∧ s.mgmt.update.phase = 5 ∧
      (bootRecord s).seq_ + 1 < 2 ^ 32 ∧ devState s ≠ 3) ∧
    (∃ (s : State), Ready s ∧ heldInReset s = false ∧ ((devState s = 1 ∨ devState s = 2 ∨ devState s = 3)) ∧ s.mgmt.update.phase = 5 ∧
      (bootRecord s).seq_ + 1 < 2 ^ 32 ∧ devState s = 3 ∧ s.rstPend = false) ∧
    (∃ (s : State), Ready s ∧ heldInReset s = false ∧ ((devState s = 1 ∨ devState s = 2 ∨ devState s = 3)) ∧ s.mgmt.update.phase = 6) ∧
    (∃ (s : State), Ready s ∧ heldInReset s = false ∧ ((devState s = 1 ∨ devState s = 2 ∨ devState s = 3))) ∧
    (∃ (s : State), Ready s ∧ heldInReset s = false ∧ ((devState s = 1 ∨ devState s = 2 ∨ devState s = 3)) ∧ s.mgmt.update.phase = 0) ∧
    (∃ (s : State), Ready s ∧ heldInReset s = false ∧ ((devState s = 1 ∨ devState s = 2 ∨ devState s = 3)) ∧ s.mgmt.update.phase ≠ 0) ∧
    (∃ (s : State) (n : Nat) (v : Word) (data : List Byte) (c : Instr), Ready s ∧ heldInReset s = false ∧
      (devState s = 1 ∨ devState s = 2 ∨ devState s = 3) ∧
      c ∈ [Instr.passComponentTable 1 v, .updateComponent 1 v, .requestFirmwareData n data, .transferComplete, .verifyComplete, .applyComplete, .activateFirmware false] ∧
      s.mgmt.update.phase = 0) :=
  ⟨⟨(up : State), (0x800000 : Nat), by and_intros <;> decide +kernel⟩,
   ⟨({ up with mgmt := { up.mgmt with update := ⟨1, 0, 5, false⟩ } } : State), by and_intros <;> decide +kernel⟩,
   ⟨({ up with mgmt := { up.mgmt with update := ⟨1, 0, 5, false⟩ } } : State), by and_intros <;> decide +kernel⟩,
   ⟨({ up with mgmt := { up.mgmt with update := ⟨2, 0, 5, false⟩ } } : State), by and_intros <;> decide +kernel⟩,
   ⟨({ up with mgmt := { up.mgmt with update := ⟨3, 0, 5, false⟩ } } : State), (1 : Nat), ([1, 2, 255, 4] : List Byte),
      by and_intros <;> decide +kernel⟩,
   ⟨({ up with mgmt := { up.mgmt with update := ⟨3, 5, 5, false⟩ } } : State), by and_intros <;> decide +kernel⟩,
   ⟨({ up with mgmt := { up.mgmt with update := ⟨4, 5, 5, false⟩ } } : State), by and_intros <;> decide +kernel⟩,
   ⟨({ up with mgmt := { up.mgmt with update := ⟨5, 5, 5, true⟩ } } : State), by and_intros <;> decide +kernel⟩,
   ⟨({ put up [(0x100, 3), (mgtPage 1 + 0x104, 1)] with mgmt := { up.mgmt with update := ⟨5, 5, 5, true⟩ }, power := ⟨.init, true, true, false, true⟩ } : State),
      by and_intros <;> decide +kernel⟩,
   ⟨({ up with mgmt := { up.mgmt with update := ⟨6, 5, 5, true⟩ } } : State), by and_intros <;> decide +kernel⟩,
   ⟨(up : State), by and_intros <;> decide +kernel⟩,
   ⟨(up : State), by and_intros <;> decide +kernel⟩,
   ⟨({ up with mgmt := { up.mgmt with update := ⟨6, 5, 5, true⟩ } } : State), by and_intros <;> decide +kernel⟩,
   ⟨(up : State), (0 : Nat), (0 : Word), ([] : List Byte), (.transferComplete : Instr), by and_intros <;> decide +kernel⟩⟩

/-- States and operands that meet the hypotheses of AttestationAnswers. -/
theorem meets_AttestationAnswers :
    (∃ (s : State) (m : Mgmt), Ready s ∧ heldInReset s = false ∧ (devState s = 1 ∨ devState s = 2) ∧
      m = { s.mgmt with pending := none, pqReady := false }) ∧
    (∃ (s : State) (m : Mgmt), Ready s ∧ heldInReset s = false ∧ (devState s = 1 ∨ devState s = 2) ∧
      m = { s.mgmt with pending := none, pqReady := false } ∧ s.mgmt.spdmVersion = true) ∧
    (∃ (s : State) (m : Mgmt), Ready s ∧ heldInReset s = false ∧ (devState s = 1 ∨ devState s = 2) ∧
      m = { s.mgmt with pending := none, pqReady := false } ∧ s.mgmt.spdmCaps = true) ∧
    (∃ (s : State) (m : Mgmt), Ready s ∧ heldInReset s = false ∧ (devState s = 1 ∨ devState s = 2) ∧
      m = { s.mgmt with pending := none, pqReady := false } ∧ s.mgmt.spdmAlgs = true) ∧
    (∃ (s : State) (m : Mgmt) (i : Nat), Ready s ∧ heldInReset s = false ∧ (devState s = 1 ∨ devState s = 2) ∧
      m = { s.mgmt with pending := none, pqReady := false } ∧ s.mgmt.spdmAlgs = true ∧ 1 ≤ i ∧ i ≤ 5) ∧
    (∃ (s : State) (m : Mgmt) (i : Nat), Ready s ∧ heldInReset s = false ∧ (devState s = 1 ∨ devState s = 2) ∧
      m = { s.mgmt with pending := none, pqReady := false } ∧ s.mgmt.spdmAlgs = true ∧ 1 ≤ i ∧ i ≤ 5) ∧
    (∃ (s : State) (m : Mgmt), Ready s ∧ heldInReset s = false ∧ (devState s = 1 ∨ devState s = 2) ∧
      m = { s.mgmt with pending := none, pqReady := false } ∧ s.mgmt.spdmAlgs = false) ∧
    (∃ (s : State) (m : Mgmt) (msg : List Byte), Ready s ∧ heldInReset s = false ∧ (devState s = 1 ∨ devState s = 2) ∧
      m = { s.mgmt with pending := none, pqReady := false } ∧ s.mgmt.pending = some msg) ∧
    (∃ (s : State) (m : Mgmt) (msg : List Byte), Ready s ∧ heldInReset s = false ∧ (devState s = 1 ∨ devState s = 2) ∧
      m = { s.mgmt with pending := none, pqReady := false } ∧ s.mgmt.pending = some msg ∧ s.mgmt.spdmAlgs = true ∧ s.mgmt.pqReady = true) ∧
    (∃ (s : State) (m : Mgmt) (msg : List Byte), Ready s ∧ heldInReset s = false ∧ (devState s = 1 ∨ devState s = 2) ∧
      m = { s.mgmt with pending := none, pqReady := false } ∧ s.mgmt.pending = some msg ∧ s.mgmt.spdmVersion = true ∧ s.mgmt.pqReady = true) ∧
    (∃ (s : State) (m : Mgmt) (msg : List Byte), Ready s ∧ heldInReset s = false ∧ (devState s = 1 ∨ devState s = 2) ∧
      m = { s.mgmt with pending := none, pqReady := false } ∧ s.mgmt.pending = some msg ∧ s.mgmt.spdmVersion = true ∧ s.mgmt.pqReady = false) ∧
    (∃ (s : State) (m : Mgmt), Ready s ∧ heldInReset s = false ∧ (devState s = 1 ∨ devState s = 2) ∧
      m = { s.mgmt with pending := none, pqReady := false } ∧ s.mgmt.pending = none ∧ s.mgmt.spdmVersion = true) ∧
    (∃ (s : State) (c : Instr), Ready s ∧ heldInReset s = false ∧ devState s ≠ 1 ∧ devState s ≠ 2 ∧
      c ∈ [Instr.getVersion, .getCapabilities, .negotiateAlgorithms, .getDigests, .respondIfReady, .getPqSig, .getPqCert]) :=
  ⟨⟨({ up with mgmt := { up.mgmt with pending := some [1], transcript := [5] } } : State),
      ({ ({ up with mgmt := { up.mgmt with pending := some [1], transcript := [5] } } : State).mgmt with pending := none, pqReady := false } : Mgmt),
      by and_intros <;> decide +kernel⟩,
   ⟨({ up with mgmt := { up.mgmt with pending := some [1], transcript := [5], spdmVersion := true } } : State),
      ({ ({ up with mgmt := { up.mgmt with pending := some [1], transcript := [5], spdmVersion := true } } : State).mgmt with pending := none, pqReady := false } : Mgmt),
      by and_intros <;> decide +kernel⟩,
   ⟨({ up with mgmt := { up.mgmt with pending := some [1], transcript := [5], spdmVersion := true, spdmCaps := true } } : State),
      ({ ({ up with mgmt := { up.mgmt with pending := some [1], transcript := [5], spdmVersion := true, spdmCaps := true } } : State).mgmt with pending := none, pqReady := false } : Mgmt),
      by and_intros <;> decide +kernel⟩,
   ⟨({ up with mgmt := { up.mgmt with pending := some [1], transcript := [5], spdmVersion := true, spdmCaps := true, spdmAlgs := true } } : State),
      ({ ({ up with mgmt := { up.mgmt with pending := some [1], transcript := [5], spdmVersion := true, spdmCaps := true, spdmAlgs := true } } : State).mgmt with pending := none, pqReady := false } : Mgmt),
      by and_intros <;> decide +kernel⟩,
   ⟨({ up with mgmt := { up.mgmt with pending := some [1], transcript := [5], spdmVersion := true, spdmCaps := true, spdmAlgs := true } } : State),
      ({ ({ up with mgmt := { up.mgmt with pending := some [1], transcript := [5], spdmVersion := true, spdmCaps := true, spdmAlgs := true } } : State).mgmt with pending := none, pqReady := false } : Mgmt),
      (5 : Nat), by and_intros <;> decide +kernel⟩,
   ⟨({ up with mgmt := { up.mgmt with pending := some [1], transcript := [5], spdmVersion := true, spdmCaps := true, spdmAlgs := true } } : State),
      ({ ({ up with mgmt := { up.mgmt with pending := some [1], transcript := [5], spdmVersion := true, spdmCaps := true, spdmAlgs := true } } : State).mgmt with pending := none, pqReady := false } : Mgmt),
      (1 : Nat), by and_intros <;> decide +kernel⟩,
   ⟨({ up with mgmt := { up.mgmt with pending := some [1], transcript := [5] } } : State),
      ({ ({ up with mgmt := { up.mgmt with pending := some [1], transcript := [5] } } : State).mgmt with pending := none, pqReady := false } : Mgmt),
      by and_intros <;> decide +kernel⟩,
   ⟨({ up with mgmt := { up.mgmt with pending := some [1], transcript := [5] } } : State),
      ({ ({ up with mgmt := { up.mgmt with pending := some [1], transcript := [5] } } : State).mgmt with pending := none, pqReady := false } : Mgmt),
      ([1] : List Byte), by and_intros <;> decide +kernel⟩,
   ⟨({ up with mgmt := { up.mgmt with pending := some [1], transcript := [5], spdmVersion := true, spdmCaps := true, spdmAlgs := true, pqReady := true } } : State),
      ({ ({ up with mgmt := { up.mgmt with pending := some [1], transcript := [5], spdmVersion := true, spdmCaps := true, spdmAlgs := true, pqReady := true } } : State).mgmt with pending := none, pqReady := false } : Mgmt),
      ([1] : List Byte), by and_intros <;> decide +kernel⟩,
   ⟨({ up with mgmt := { up.mgmt with pending := some [1], transcript := [5], spdmVersion := true, spdmCaps := true, spdmAlgs := true, pqReady := true } } : State),
      ({ ({ up with mgmt := { up.mgmt with pending := some [1], transcript := [5], spdmVersion := true, spdmCaps := true, spdmAlgs := true, pqReady := true } } : State).mgmt with pending := none, pqReady := false } : Mgmt),
      ([1] : List Byte), by and_intros <;> decide +kernel⟩,
   ⟨({ up with mgmt := { up.mgmt with pending := some [1], transcript := [5], spdmVersion := true, spdmCaps := true, spdmAlgs := true } } : State),
      ({ ({ up with mgmt := { up.mgmt with pending := some [1], transcript := [5], spdmVersion := true, spdmCaps := true, spdmAlgs := true } } : State).mgmt with pending := none, pqReady := false } : Mgmt),
      ([1] : List Byte), by and_intros <;> decide +kernel⟩,
   ⟨({ up with mgmt := { up.mgmt with spdmVersion := true } } : State),
      ({ ({ up with mgmt := { up.mgmt with spdmVersion := true } } : State).mgmt with pending := none, pqReady := false } : Mgmt),
      by and_intros <;> decide +kernel⟩,
   ⟨(bootRom : State), (.getPqCert : Instr), by and_intros <;> decide +kernel⟩⟩

/-- States and operands that meet the hypotheses of EventRecords. -/
theorem meets_EventRecords :
    (∃ (s : State) (p : PageNo) (a : Nat) (c : Nat) (r : EvRecord) (h : Nat) (f : FnNo), Ready s ∧ a = 4096 * p.val ∧ blockOf s p.val ≠ .absent ∧
      (blockOf s p.val).isWindow = false ∧ serviced s a ≠ 0 ∧ 0 < c ∧ c < 5 ∧ (∀ d < 8, bit (rd s (a + 0x20)) d = decide (d = c)) ∧
      r = pageRecord s a c ∧ namesBlock r = false ∧ s.evQueue.length < 64 ∧ r.herd = some h ∧ ownerOf s h = some f ∧ noticesFill s f.val = false) ∧
    (∃ (s : State) (p : PageNo) (a : Nat) (c : Nat) (r : EvRecord), Ready s ∧ a = 4096 * p.val ∧ blockOf s p.val ≠ .absent ∧
      (blockOf s p.val).isWindow = false ∧ serviced s a ≠ 0 ∧ 0 < c ∧ c < 5 ∧ (∀ d < 8, bit (rd s (a + 0x20)) d = decide (d = c)) ∧
      r = pageRecord s a c ∧ namesBlock r = false ∧ s.evQueue.length < 64 ∧ r.herd = none) ∧
    (∃ (s : State) (r : EvRecord) (a : Nat) (b : Nat) (xs : List (EvRecord × Nat)) (p : Nat) (f : FnNo), Ready s ∧ s.searches = (r, a) :: xs ∧
      b = logicalAddr s a ∧ b / 65536 < rsvBase s ∧ s.evQueue.length < 64 ∧ r.cls.toNat < 5 ∧
      (validPages s).find? (fun p => !eFar (homeEntry s p) && decide (eHome (homeEntry s p) = b / 65536)) = some p ∧ eShared (homeEntry s p) = false ∧
      ownerOf s (eHerd (homeEntry s p)) = some f ∧ noticesFill s f.val = false) ∧
    (∃ (s : State) (r : EvRecord) (a : Nat) (b : Nat) (xs : List (EvRecord × Nat)), Ready s ∧ s.searches = (r, a) :: xs ∧ b = logicalAddr s a ∧
      b / 65536 < rsvBase s ∧ s.evQueue.length < 64 ∧ r.cls.toNat < 5 ∧
      (∀ p ∈ validPages s, eFar (homeEntry s p) = true ∨ eHome (homeEntry s p) ≠ b / 65536) ∧ mergeOf s (b / 64) = none) ∧
    (∃ (s : State) (p : PageNo) (a : Nat) (c : Nat) (r : EvRecord), Ready s ∧ a = 4096 * p.val ∧ blockOf s p.val ≠ .absent ∧
      (blockOf s p.val).isWindow = false ∧ serviced s a ≠ 0 ∧ 0 < c ∧ c < 5 ∧ (∀ d < 8, bit (rd s (a + 0x20)) d = decide (d = c)) ∧
      r = pageRecord s a c ∧ namesBlock r = true ∧ r.herd = none ∧ logicalAddr s r.addr.toNat / 65536 < rsvBase s) :=
  ⟨⟨(put running [(seqPage 0 + 0x20, 2), (seqPage 0 + 0x24, 0xFF), (seqPage 0 + 0x40, 0x81000005)] : State), (4097 : PageNo), (seqPage 0 : Nat),
      (1 : Nat), (pageRecord (put running [(seqPage 0 + 0x20, 2), (seqPage 0 + 0x24, 0xFF), (seqPage 0 + 0x40, 0x81000005)]) (seqPage 0) 1 : EvRecord),
      (1 : Nat), (0 : FnNo), by and_intros <;> decide +kernel⟩,
   ⟨(put up [(pwrPage 1 + 0x20, 16), (pwrPage 1 + 0x24, 0xFF)] : State), (13 : PageNo), (pwrPage 1 : Nat), (4 : Nat),
      (pageRecord (put up [(pwrPage 1 + 0x20, 16), (pwrPage 1 + 0x24, 0xFF)]) (pwrPage 1) 4 : EvRecord), by and_intros <;> decide +kernel⟩,
   ⟨({ withPage running 5 1 23 with searches := [(found0, 23 * 65536 + 64)] } : State), (found0 : EvRecord), (23 * 65536 + 64 : Nat),
      (23 * 65536 + 64 : Nat), ([] : List (EvRecord × Nat)), (5 : Nat), (0 : FnNo), by and_intros <;> decide +kernel⟩,
   ⟨({ withPage running 5 1 47 with searches := [(found0, 23 * 65536 + 64), (found0, 9)] } : State), (found0 : EvRecord), (23 * 65536 + 64 : Nat),
      (23 * 65536 + 64 : Nat), ([(found0, 9)] : List (EvRecord × Nat)), by and_intros <;> decide +kernel⟩,
   ⟨(put running [(mpPage 0 + 0x20, 2), (mpPage 0 + 0x24, 0xFF), (mpPage 0 + 0x40, 0x81000001)] : State), (256 : PageNo), (mpPage 0 : Nat),
      (1 : Nat), (pageRecord (put running [(mpPage 0 + 0x20, 2), (mpPage 0 + 0x24, 0xFF), (mpPage 0 + 0x40, 0x81000001)]) (mpPage 0) 1 : EvRecord),
      by and_intros <;> decide +kernel⟩⟩

/-! ## Commands whose operands no layout carries -/

/-- The parameters of a herd of one core. -/
def one : HerdParams := ⟨1, 0, false, 1, 0, 1, 1, 1, 0, 7, 0⟩
/-- The parameters of an evaluation. -/
def eval0 : EvalParams := ⟨0, 0, 0, 0, 0, 1, 1, []⟩
/-- A pod of four. -/
def pod0 : PodParams := ⟨1, 0, 0, 0, 15, [1, 2, 3, 4, 5, 6]⟩
/-- A list entry with a core index past the last. -/
def farEntry : RegwEntry := ⟨0, 1024, false, 0, 0⟩

/-- A write or a read of no byte or of more than a page, counts and page numbers past their fields, and lists of a wrong length. -/
theorem test_ill_formed_accesses :
    ([.registerWrite .ringCtl 0 [], .registerWrite .ringCtl 0 (List.replicate 4097 none), .rcRead .ringCtl 0 0,
      .rcRead .ringCtl 0 4097, .bar2Read 0 0 0, .bar2Read 0 0 4097, .bar2Write 0 0 [], .srd 1 0 0, .srd 1 0 4097,
      .coreScrub 0 [.good], .mpRead 0 (2 ^ 30) 0 none [], .mpWrite 0 0 [1], .mpWrite 0 (2 ^ 30) (List.replicate 64 0),
      .narrowWrite 0 0 1 [none]] : List Instr).all (fun i => !i.wellFormed) = true := by decide +kernel

/-- The same of frames, symbols and cables. -/
theorem test_ill_formed_frames :
    let f := hdr 0 1 0 0
    let long := List.replicate 4097 (0 : Byte)
    ([.linkCredit ⟨0, true⟩ [1], .frameForward f 1 long, .wr f long, .redFrame f long, .gat f long, .mcd f long, .mwr f long,
      .srdr 6 1 0 long, .storeDmaCompletion 1 0 long, .hcmd f 1 0 true 1 [] [], .hcmd f 1 0 true 1 (List.replicate 56 0) [farEntry],
      .hcmd f 1 0 true 1 (List.replicate 56 0) (List.replicate 10 ⟨0, 0, false, 0, 0⟩), .hcpl f 1 0 0 0 0 [1],
      .hcpl f 0xFFFF 0 0 0 0 [], .period f (2 ^ 20) 0, .cableInsert 0 0 0 0 true [] [] []] : List Instr).all
      (fun i => !i.wellFormed) = true := by decide +kernel

/-- The same of host commands. -/
theorem test_ill_formed_commands :
    let c := cmd0
    ([.alloc c (2 ^ 26) 1 0 0 true false, .alloc c 0 1 0 32 true false, .move c 0 1 0 32, .move c 0 (2 ^ 26) 0 0, .free c 0 (2 ^ 26),
      .pin c (2 ^ 26) 0, .unpin c (2 ^ 26) 0, .prot c (2 ^ 26) 0 true, .share c (2 ^ 26) 0 0, .herdCreate c { one with ncores := 2048 },
      .herdCreate c { one with quota := 2 ^ 26 }, .herdCreate c { one with floor := 2 ^ 26 },
      .herdCreate c { one with ngroups := 2 ^ 17 }, .herdCreate c { one with nprog := 256 }, .herdCreate c { one with nseq := 2048 },
      .herdCreate c { one with minper := 2 ^ 20 }, .herdRings c 0 16, .herdRegw c [farEntry], .herdStart c 256 false 0,
      .herdResume c 256, .herdUnpark c 2048 0, .extReg c 0 0, .extReg c 0 (2 ^ 18 + 1), .progLoad c 0 256 1, .progLoad c 0 0 0,
      .progLoad c 0 0 257, .eval c { eval0 with rowsM1 := 2048 }, .eval c { eval0 with startRow := 2048 },
      .eval c { eval0 with trainRowsM1 := 2048 }, .eval c { eval0 with nb := 65536 }, .eval c { eval0 with list := [farEntry] },
      .snapCfg c { snapParams false 0 with entries := 2 ^ 13 }, .snapCfg c { snapParams false 0 with kmax := 2 ^ 16 },
      .snapCfg c { snapParams false 0 with slotMiB := 2 ^ 32 }, .snapCfg c { snapParams false 0 with mquota := 2 ^ 16 },
      .snapCfg c { snapParams false 0 with rmin := 2 ^ 16 }, .snapFetch c 0 0 (2 ^ 32)] : List Instr).all
      (fun i => !i.wellFormed) = true := by decide +kernel

/-- A HERD_REGW list of more entries than its count field holds. -/
theorem test_ill_formed_list :
    (Instr.herdRegw cmd0 (List.replicate 1024 ⟨0, 0, false, 0, 0⟩)).wellFormed = false := by decide +kernel

/-- The same of takeovers and management commands. -/
theorem test_ill_formed_management :
    let x : TakeHerd := ⟨1, one, 0, 32, snapParams false 0, 0⟩
    ([.takeover 6 0 { pod0 with nbr := [] } [], .takeover 6 0 pod0 [{ x with firstGroup := 65536 }],
      .takeover 6 0 pod0 [{ x with firstProg := 256 }], .takeover 6 0 pod0 [{ x with create := { one with nseq := 2048 } }],
      .takeover 6 0 pod0 [{ x with snap := { snapParams false 0 with kmax := 2 ^ 16 } }], .partitionPod 0 { pod0 with nbr := [1] },
      .partitionHostLimits 0 0 (2 ^ 32) 0 0 0 0, .partitionHostLimits 0 0 0 (2 ^ 32) 0 0 0, .partitionHostLimits 0 0 0 0 (2 ^ 32) 0 0,
      .partitionHostLimits 0 0 0 0 0 (2 ^ 32) 0, .partitionHostLimits 0 0 0 0 0 0 (2 ^ 32), .remapLoad 0 0 [2 ^ 30],
      .sysprogLoad 0 0 [[1]]] : List Instr).all (fun i => !i.wellFormed) = true := by decide +kernel

/-- The same checks let operands through that a layout carries. -/
theorem test_well_formed :
    ([.herdCreate cmd0 one, .eval cmd0 eval0, .snapCfg cmd0 (snapParams false 0), .partitionPod 0 pod0, .registerWrite .ringCtl 0 [none],
      .takeover 6 0 pod0 [⟨1, one, 0, 32, snapParams false 0, 0⟩], .hcpl (hdr 0 1 0 0) 1 0 0 0 0 []] : List Instr).all
      Instr.wellFormed = true := by decide +kernel

/-! ## Single steps, and values worked out by hand from the formats -/

/-- The state after one command. -/
def after (c : Instr) (s : State) : State :=
  match step { s with pending := [c] } with
  | .next t => t
  | _ => s

/-- The table gives no row bits, so no word is a command. -/
theorem test_no_word : decodeTableWord 32 0 = none := by decide
/-- With no command waiting one cycle passes: MGT_BEAD_CYC of a running source counts it (R441). -/
theorem test_idle_counts : (match step (put up [(beadPage + 0x120, 1)]) with
    | .next t => rd t (beadPage + 0x108)
    | _ => 0) = 1 := by decide +kernel
/-- A write of BLK_IEN stores its value (R22). -/
theorem test_write_enable : rd (after (.registerWrite .ringCtl 0x140024 ((leBytes 4 0x55).map some)) up) 0x140024 = 0x55 := by decide +kernel
/-- A write of BLK_IST clears the bits written as one (R22). -/
theorem test_write_clears :
    rd (after (.registerWrite .ringCtl 0x140020 ((leBytes 4 0x05).map some)) (put up [(0x140020, 0x0F)])) 0x140020 = 0x0A := by decide +kernel
/-- 1 + 2 = 3, and the largest finite value doubled is infinite (R255). -/
theorem test_add_values : addF 0x3F800000 0x40000000 = 0x40400000 ∧ addF 0x7F7FFFFF 0x7F7FFFFF = 0x7F800000 := by decide +kernel
/-- 1.5 × 1.5 = 2.25, and 2 × 3 + 4 = 10 (R255). -/
theorem test_mul_values : mulF 0x3FC00000 0x3FC00000 = 0x40100000 ∧ fmaF 0x40000000 0x40400000 0x40800000 = 0x41200000 := by decide +kernel
/-- 1 ÷ 4 is a quarter (R255). -/
theorem test_div_values : divF 0x3F800000 0x40800000 = 0x3E800000 := by decide +kernel
/-- A block written through a memory port reads back, and the next block keeps its bytes. -/
theorem test_block_write :
    let t := after (.mpWrite 2 5 ((List.range 64).map (BitVec.ofNat 8))) (filled 2)
    readBlk t (blkOf 2 5) = some ((List.range 64).map (BitVec.ofNat 8)) ∧ readBlk t (blkOf 2 6) = some (List.replicate 64 0) := by
  decide +kernel

/-- The constants of SHA-384: the first and the last of the rounds, and the first and the last initial word (FIPS 180-4). -/
theorem test_sha_constants : shaK.head? = some 0x428A2F98D728AE22 ∧ shaK.getLast? = some 0x6C44198C4A475817 ∧
    shaInit.head? = some 0xCBBB9D5DC1059ED8 ∧ shaInit.getLast? = some 0x47B5481DBEFA4FA4 := by decide +kernel
/-- A submission entry of HERD_START, its fields placed by hand (R512, R514). -/
theorem test_submission_start :
    submission 3 2 ([0x04, 0, 0x34, 0x12, 0, 0, 0, 0, 5, 0, 0, 0, 1, 0, 0, 0, 0x88, 0x77, 0x66, 0x55, 0x44, 0x33, 0x22, 0x11] ++
      List.replicate 40 0) [] = .herdStart ⟨3, 2, 0x1234, false⟩ 5 true 0x1122334455667788 := by decide +kernel
/-- An entry of MIG with a FREE of 3 pages from page 7 (R365, R514). -/
theorem test_submission_free :
    submission 0 0 ([0x10, 0, 1, 0, 0, 0, 0, 0, 2, 0, 0, 0, 7, 0, 0, 0, 3, 0, 0, 0] ++ List.replicate 44 0) [] =
      .free ⟨0, 0, 1, false⟩ 7 3 := by decide +kernel
/-- An entry with a reserved bit set is reserved (R512, R515). -/
theorem test_submission_reserved :
    submission 0 0 ([0x05, 0, 1, 0, 0, 0, 0, 0, 1] ++ List.replicate 55 0) [] = .herdStop ⟨0, 0, 1, true⟩ := by decide +kernel

end Sys2Proof.Tests
end

section
/-! The registers that an event of a block page changes (R43, R46), and the write of a detour register (R77). -/

namespace Sys2Proof.Machine

/-! ## Bits of words -/

/-- A bit is the field of that one bit. -/
theorem bit_eq_decide_fld {n : Nat} (w : BitVec n) (i : Nat) : bit w i = decide (fld w i i = 1) := by
  simp [bit, fld, bits, BitVec.getLsbD, Nat.testBit_eq_decide_div_mod_eq]

@[simp] theorem bit_setBit_same {n : Nat} (w : BitVec n) {i : Nat} (hi : i < n) (b : Bool) : bit (setBit w i b) i = b := by
  rw [bit_eq_decide_fld, setBit, fld_setFld w (Nat.le_refl i) hi]
  cases b <;> simp [b2n]

/-! ## An event of a page (R43, R46) -/

theorem Cls.code_lt (c : Cls) : c.code < 32 := by cases c <;> decide

/-- Counting the free values that a capture reads changes no register. -/
theorem rd_after_takeFree (s : State) (n a : Nat) : rd (after (takeFree n) s) a = rd s a :=
  rd_keeps (by simp) s a

/-- An automatic dump starts only on a fatal event, and writes MGT_DUMP_CTRL alone (R438). -/
theorem rd_after_autoDump (s : State) {c : Cls} {a : Nat} (h : c = .uncorrFatal → a ≠ 0x4100) :
    rd (after (autoDump c) s) a = rd s a := by
  rw [autoDump, after_look, after_ite]
  split
  case isTrue hc =>
    simp only [Bool.and_eq_true, decide_eq_true_eq] at hc
    obtain ⟨⟨hfatal, _⟩, _⟩ := hc
    rw [after_seq_cons, after_seq_cons, after_seq_nil, after_wrBit, rd_ctl_other _ (h hfatal), after_one, rd_keeps (by simp)]
  case isFalse => rfl

/-- BLK_ERRCAP0 to BLK_ERRCAP7 aside, an event changes the registers that the setting of its latch changes; a fatal one may change
MGT_DUMP_CTRL too. -/
theorem rd_after_raise (s : State) {p a : Nat} {c : Capture} (hcap : a < p + 0x40 ∨ p + 0x60 ≤ a)
    (hdump : c.cls = .uncorrFatal → a ≠ 0x4100) :
    rd (after (raise p c) s) a = rd (after (setIst p c.cls.code) s) a := by
  rw [raise, after_look, after_seq_cons, after_seq_cons, after_seq_cons, after_seq_nil, rd_after_autoDump _ hdump, after_ite]
  generalize after (setIst p c.cls.code) s = t
  split
  case isTrue => rw [after_wrBit, rd_ctl_other _ (by omega)]
  case isFalse =>
    simp only [after_seq_cons, after_seq_nil, after_act, after_wr]
    split <;> simp (disch := omega) only [rd_after_takeFree, rd_ctl_other]

/-- An event leaves every register but BLK_IST and the capture words of its page, and MGT_DUMP_CTRL where it is fatal. -/
theorem rd_after_raise_other (s : State) {p a : Nat} {c : Capture} (hist : a ≠ p + 0x20) (hcap : a < p + 0x40 ∨ p + 0x60 ≤ a)
    (hdump : c.cls = .uncorrFatal → a ≠ 0x4100) : rd (after (raise p c) s) a = rd s a := by
  rw [rd_after_raise s hcap hdump, setIst, after_wrBit, rd_ctl_other _ hist]

/-- An event sets its latch in BLK_IST of its page (R43). -/
theorem bit_after_raise (s : State) {p : Nat} {c : Capture} (hdump : c.cls = .uncorrFatal → p + 0x20 ≠ 0x4100) :
    bit (rd (after (raise p c) s) (p + 0x20)) c.cls.code = true := by
  rw [rd_after_raise s (by omega) hdump, setIst, after_wrBit, rd_ctl_same, bit_setBit_same _ c.cls.code_lt]

/-! ## The write of a detour register (R77) -/

/-- The page of FAB_DETOURn is its router's page. -/
theorem fabDetour_page (c : Nat) (n : Fin 32) : (fabPage c + 0x200 + 4 * n.val) / 4096 = fabPage c / 4096 := by
  unfold fabPage sitePage
  omega

/-- While the mesh is quiesced a detour register is stored. -/
theorem after_detourWrite_quiesced {s : State} (h : bit (rd s (fabGPage + 0x104)) 0 = true) (r : Requester) (c n : Nat) (v : Word) :
    after (detourWrite r c n v) s = (Upd.ctl (fabPage c + 0x200 + 4 * n) (v &&& 0xFFFFFFF8)).apply s := by
  simp [detourWrite, h]

/-- Otherwise the write is a PROTOCOL event of the global FAB_ page. -/
theorem after_detourWrite_running {s : State} (h : bit (rd s (fabGPage + 0x104)) 0 = false) (r : Requester) (c n : Nat) (v : Word) :
    after (detourWrite r c n v) s = after (protocolAt fabGPage r) s := by
  simp [detourWrite, h]

/-- The ring controller's write to a router page that takes it is the detour write itself. -/
theorem does_fabDetourWrite {s : State} (hs : Ready s) {c : Site} (hp : Takes s (fabPage c.val / 4096)) (n : Fin 32) (v : Word)
    {ps : List Part} {P : State → Prop} (hframe : OnlyIn ps s (after (detourWrite .ringCtl c.val n.val v) s))
    (hP : P (after (detourWrite .ringCtl c.val n.val v) s)) : Does (.fabDetourWrite .ringCtl c n v) s ps P := by
  have e := after_guarded_ring hp (fabDetour_page c.val n) (detourWrite .ringCtl c.val n.val v)
  exact does_of_run hs.1 (a := guarded .ringCtl (fabPage c.val + 0x200 + 4 * n.val) (detourWrite .ringCtl c.val n.val v)) rfl
    (by rwa [e]) (by rwa [e])

/-- Settles O11: the guard passes the write on, which is one store in a quiesced mesh and one PROTOCOL event otherwise; that event
writes the global FAB_ page, which is no router's. -/
theorem detoursQuiesced : Obligations.DetoursQuiesced := by
  unfold Obligations.DetoursQuiesced
  constructor
  · intro s hs c n v hp hq
    have e := after_detourWrite_quiesced hq .ringCtl c.val n.val v
    refine does_fabDetourWrite hs hp n v ?_ ?_ <;> rw [e]
    · exact onlyIn_apply (.ctl _ _) s
    · exact ⟨rd_ctl_same .., fun a ha => rd_ctl_other s ha _⟩
  · intro s hs c n v hp hq
    refine does_fabDetourWrite hs hp n v ((within_detourWrite ..).onlyIn s) ?_
    rw [after_detourWrite_running hq, protocolAt]
    refine ⟨fun a ha => ?_, bit_after_raise s nofun⟩
    have hpage : a / 4096 ≠ fabGPage / 4096 := by
      rw [ha]
      unfold fabPage sitePage fabGPage
      omega
    unfold fabGPage at hpage ⊢
    exact rd_after_raise_other s (by omega) (by omega) nofun

end Sys2Proof.Machine
end

section
/-! The write of a herd's floor (R371). -/

namespace Sys2Proof.Machine

/-! ## A command that the ring controller's guard passes on -/

/-- The ring controller's write to a page that takes it does what the act behind the guard does. -/
theorem does_guarded_ring {c : Instr} {s : State} {p a : Nat} {eff : Act} {ps : List Part} {P : State → Prop} (hs : Ready s)
    (hp : Takes s p) (ha : a / 4096 = p) (hc : exec c s = run (guarded .ringCtl a eff) s)
    (hframe : OnlyIn ps s (after eff s)) (hP : P (after eff s)) : Does c s ps P := by
  have e := after_guarded_ring hp ha eff
  exact does_of_run hs.1 hc (by rwa [e]) (by rwa [e])

/-! ## The floors' registers, MIG_HFLOORh -/

/-- MIG_HFLOORh lies in the second MIG_ page. -/
theorem migHfloor_page (h : HerdNo) : (migHerd h.val + 4) / 4096 = migPage 1 / 4096 := by
  unfold migHerd migPage
  omega

/-- A stored floor reads as the number that MIG_HFLOORh's field holds. -/
theorem floorOf_store (s : State) (h : Nat) (v : Word) :
    floorOf ((Upd.ctl (migHerd h + 4) (BitVec.ofNat 32 (fld v 25 0))).apply s) h = fld v 25 0 := by
  have hlt : fld v 25 0 < 2 ^ 26 := Nat.mod_lt _ (by decide)
  rw [floorOf, rd_ctl_same, BitVec.toNat_ofNat, Nat.mod_eq_of_lt (by omega)]

/-- A PROTOCOL event of the second MIG_ page leaves every floor. -/
theorem floorOf_after_protocol (s : State) (r : Requester) (g : Nat) :
    floorOf (after (protocolAt (migPage 1) r) s) g = floorOf s g := by
  have hist : migHerd g + 4 ≠ migPage 1 + 0x20 := by unfold migHerd; omega
  have hcap : migPage 1 + 0x60 ≤ migHerd g + 4 := by unfold migHerd; omega
  exact congrArg BitVec.toNat (rd_after_raise_other s hist (.inr hcap) nofun)

/-! ## The write of a floor (R371) -/

/-- The sum of the floors of the herds but h. -/
def otherFloors (s : State) (h : Nat) : Nat :=
  ((List.range 64).filter (fun g => decide (g ≠ h))).foldl (fun a g => a + floorOf s g) 0

/-- A floor of n frames for herd h fits: with it the floors and the frames of shared pages stay within the usable frames, and it covers
the herd's pinned frames (R371). -/
def FloorFits (s : State) (h n : Nat) : Prop :=
  otherFloors s h + n + sharedFrames s ≤ rsvBase s ∧ pinnedOf s h ≤ n

/-- A floor fails to fit by one of the two bounds. -/
theorem not_floorFits_iff {s : State} {h n : Nat} :
    ¬ FloorFits s h n ↔ rsvBase s < otherFloors s h + n + sharedFrames s ∨ n < pinnedOf s h := by
  simp only [FloorFits, not_and_or, not_le]

/-- A floor that fits is stored. -/
theorem after_hfloorWrite_fits {s : State} {h : Nat} {v : Word} (hfit : FloorFits s h (fld v 25 0)) (r : Requester) :
    after (hfloorWrite r h v) s = (Upd.ctl (migHerd h + 4) (BitVec.ofNat 32 (fld v 25 0))).apply s := by
  rw [hfloorWrite, after_look, after_ite]
  exact if_neg fun hbad => not_floorFits_iff.mpr hbad hfit

/-- Any other is discarded with a PROTOCOL event of the second MIG_ page. -/
theorem after_hfloorWrite_unfit {s : State} {h : Nat} {v : Word} (hfit : ¬ FloorFits s h (fld v 25 0)) (r : Requester) :
    after (hfloorWrite r h v) s = after (protocolAt (migPage 1) r) s := by
  rw [hfloorWrite, after_look, after_ite]
  exact if_pos (not_floorFits_iff.mp hfit)

/-- Settles O37: the guard passes the write on, which is one store where the floor fits and one PROTOCOL event otherwise; that event
writes none of the herds' registers. -/
theorem herdFloors : Obligations.HerdFloors := by
  unfold Obligations.HerdFloors
  rintro s hs h v _ _ hp rfl rfl
  constructor
  · intro hroom hpin
    have e := after_hfloorWrite_fits (s := s) (h := h.val) (v := v) ⟨hroom, hpin⟩ .ringCtl
    refine does_guarded_ring hs hp (migHfloor_page h) rfl ?_ ?_ <;> rw [e]
    · exact onlyIn_apply (.ctl _ _) s
    · refine ⟨floorOf_store s h.val v, fun a ha => rd_ctl_other s ?_ _⟩
      simpa using ha
  · intro hbad
    refine does_guarded_ring hs hp (migHfloor_page h) rfl ((within_hfloorWrite ..).onlyIn s) ?_
    rw [after_hfloorWrite_unfit (not_floorFits_iff.mpr hbad)]
    exact ⟨fun g _ => floorOf_after_protocol s .ringCtl g, bit_after_raise s nofun⟩

end Sys2Proof.Machine
end

section
/-! The management commands that burn fuses: SVN_COMMIT (R611) and KEY_REVOKE (R612). -/

namespace Sys2Proof.Machine

/-! ## A management response (R617) -/

/-- A response is the last thing that has left the module. -/
theorem responded_after_respond (cmd : Nat) (t : MTag) (status : Nat) (result : List Byte) (s : State) :
    Responded (after (respond cmd t status result) s) (BitVec.ofNat 8 cmd) t (BitVec.ofNat 8 status) result :=
  List.getLast?_concat

@[simp] theorem fuses_after_respond (cmd : Nat) (t : MTag) (status : Nat) (result : List Byte) (s : State) :
    (after (respond cmd t status result) s).fuses = s.fuses :=
  (within_respond ..).keeps (·.fuses) keeps_fuses rfl s

@[simp] theorem fuses_after_takeMeasure (n : Nat) (s : State) : (after (takeMeasure n) s).fuses = s.fuses :=
  (within_takeMeasure ..).keeps (·.fuses) keeps_fuses rfl s

/-- In INIT and RUN a management command does what its body does (R593). -/
theorem after_mgmtCmd {s : State} (h : devState s = 1 ∨ devState s = 2) (cmd : Nat) (t : MTag) (body : Act) :
    after (mgmtCmd cmd t body) s = after body s := by
  rw [mgmtCmd, after_look, after_ite, if_pos h]

/-- A command whose act only responds changes nothing but what has left the module. -/
theorem does_respond {c : Instr} {s : State} {a : Act} {cmd status : Nat} {t : MTag} {result : List Byte} (hs : Ready s)
    (hc : exec c s = run a s) (ha : after a s = after (respond cmd t status result) s) :
    Does c s [.out] fun u => Responded u (BitVec.ofNat 8 cmd) t (BitVec.ofNat 8 status) result :=
  does_of_run hs.1 hc (by rw [ha]; exact (within_respond ..).onlyIn s) (by rw [ha]; exact responded_after_respond ..)

/-! ## SVN_COMMIT (R611) -/

/-- The fuses with the anti-rollback counter burned up to the running image's svn. -/
def svnBurned (s : State) : Fuses := { s.fuses with svn := max s.fuses.svn (runSvn s) }

/-- Of an image not confirmed it is refused. -/
theorem after_actSvnCommit_unconfirmed {s : State} (hd : devState s = 1 ∨ devState s = 2) (hc : confirmed s = false) (t : MTag) :
    after (actSvnCommit t) s = after (respond 10 t 1 []) s := by
  rw [actSvnCommit, after_mgmtCmd hd]
  simp [hc]

/-- A counter that has reached the running image's svn is left as it is. -/
theorem after_actSvnCommit_reached {s : State} (hd : devState s = 1 ∨ devState s = 2) (hc : confirmed s = true)
    (hr : runSvn s ≤ s.fuses.svn) (t : MTag) : after (actSvnCommit t) s = after (respond 10 t 0 []) s := by
  rw [actSvnCommit, after_mgmtCmd hd]
  simp [hc, hr.not_gt]

/-- A counter below it is burned, and the measurement that covers the fuses is taken anew. -/
theorem after_actSvnCommit_below {s : State} (hd : devState s = 1 ∨ devState s = 2) (hc : confirmed s = true)
    (hb : s.fuses.svn < runSvn s) (t : MTag) :
    after (actSvnCommit t) s = after (respond 10 t 0 []) (after (takeMeasure 3) ((Upd.fuses (svnBurned s)).apply s)) := by
  rw [actSvnCommit, after_mgmtCmd hd, svnBurned, max_eq_right hb.le]
  simp [hc, hb]

/-- Of a confirmed image it has status 0, whether or not it burns. -/
theorem after_actSvnCommit_confirmed {s : State} (hd : devState s = 1 ∨ devState s = 2) (hc : confirmed s = true) (t : MTag) :
    Responded (after (actSvnCommit t) s) 10 t 0 [] ∧ (after (actSvnCommit t) s).fuses = svnBurned s := by
  rcases lt_or_ge s.fuses.svn (runSvn s) with hb | hr
  · rw [after_actSvnCommit_below hd hc hb]
    exact ⟨responded_after_respond .., by simp⟩
  · rw [after_actSvnCommit_reached hd hc hr]
    exact ⟨responded_after_respond .., by simp [svnBurned, max_eq_left hr]⟩

/-! ## KEY_REVOKE (R612) -/

/-- Slot k is not revoked, and every other provisioned slot is. -/
def LastSlot (s : State) (k : Nat) : Prop :=
  s.fuses.revoked.getLsbD k = false ∧ ∀ j < 4, j ≠ k → s.fuses.prov.getLsbD j = true → s.fuses.revoked.getLsbD j = true

theorem not_lastSlot_iff {s : State} {k : Nat} : ¬ LastSlot s k ↔ s.fuses.revoked.getLsbD k = true ∨
    ∃ j < 4, j ≠ k ∧ s.fuses.prov.getLsbD j = true ∧ s.fuses.revoked.getLsbD j = false := by
  simp only [LastSlot, not_and_or, not_forall, exists_prop, Bool.not_eq_false, Bool.not_eq_true]

/-- The four cases in which KEY_REVOKE is refused. -/
theorem revokeRefused_iff {s : State} {k : Nat} : revokeRefused s k = true ↔
    confirmed s = false ∨ fld (rd s bootStat) 5 4 = k ∨ s.fuses.prov.getLsbD k = false ∨ LastSlot s k := by
  have others (j : Nat) : (j = k ∨ s.fuses.prov.getLsbD j = false) ∨ s.fuses.revoked.getLsbD j = true ↔
      (j ≠ k → s.fuses.prov.getLsbD j = true → s.fuses.revoked.getLsbD j = true) := by
    by_cases j = k <;> cases s.fuses.prov.getLsbD j <;> simp [*]
  simp only [revokeRefused, LastSlot, Bool.or_eq_true, Bool.and_eq_true, Bool.not_eq_true', decide_eq_true_eq, List.all_eq_true,
    List.mem_range, others, or_assoc]

/-- The fuses with the revocation bit of slot k burned. -/
def slotRevoked (s : State) (k : Nat) : Fuses := { s.fuses with revoked := s.fuses.revoked ||| BitVec.ofNat 4 (2 ^ k) }

theorem after_actKeyRevoke_refused {s : State} (hd : devState s = 1 ∨ devState s = 2) {k : Nat} (hk : k < 4)
    (hr : revokeRefused s k = true) (t : MTag) : after (actKeyRevoke t k) s = after (respond 11 t 1 []) s := by
  rw [actKeyRevoke, after_mgmtCmd hd]
  simp [hk.not_ge, hr]

/-- A revocation not refused burns the bit, and the measurement that covers the fuses is taken anew. -/
theorem after_actKeyRevoke_taken {s : State} (hd : devState s = 1 ∨ devState s = 2) {k : Nat} (hk : k < 4)
    (hr : revokeRefused s k = false) (t : MTag) :
    after (actKeyRevoke t k) s = after (respond 11 t 0 []) (after (takeMeasure 3) ((Upd.fuses (slotRevoked s k)).apply s)) := by
  rw [actKeyRevoke, after_mgmtCmd hd, slotRevoked]
  simp [hk.not_ge, hr]

/-- Settles O56: in INIT and RUN each command is one response, before which a commit above the counter burns the counter, and a revocation
in none of the four refused cases its slot's bit. -/
theorem fusesBurn : Obligations.FusesBurn := by
  unfold Obligations.FusesBurn
  intro s hs t hd
  refine ⟨fun hc => ?_, fun hc he => ?_, fun hc => ?_, fun k hk => ⟨fun hc hsig hprov hother => ?_, fun hbad => ?_, fun hrev hall => ?_⟩⟩
  · exact does_of_within hs.1 rfl (within_actSvnCommit t) (after_actSvnCommit_confirmed hd hc t)
  · exact does_respond hs rfl (after_actSvnCommit_reached hd hc he.ge t)
  · exact does_respond hs rfl (after_actSvnCommit_unconfirmed hd hc t)
  · have hr : revokeRefused s k = false := by
      rw [← Bool.not_eq_true, revokeRefused_iff]
      simp [hc, hsig, hprov, not_lastSlot_iff.mpr hother]
    refine does_of_within hs.1 rfl (within_actKeyRevoke t k) ?_
    rw [after_actKeyRevoke_taken hd hk hr]
    exact ⟨responded_after_respond .., by simp [slotRevoked]⟩
  · have hr : revokeRefused s k = true := revokeRefused_iff.mpr (hbad.imp_right (Or.imp_right .inl))
    exact does_respond hs rfl (after_actKeyRevoke_refused hd hk hr t)
  · have hr : revokeRefused s k = true := revokeRefused_iff.mpr (.inr (.inr (.inr ⟨hrev, hall⟩)))
    exact does_respond hs rfl (after_actKeyRevoke_refused hd hk hr t)

end Sys2Proof.Machine
end

section
/-! What every command keeps: the queue, the canonical form of the state and, but for two commands, the fuses. -/

namespace Sys2Proof.Machine

-- One declaration after the other: elaborated side by side they take more memory than the check has.
set_option Elab.async false

/-! ## A command leaves what an act leaves -/

theorem run_eq_after (a : Act) (s : State) : ∃ b, run a s = .next (after b s) := by
  rcases Bool.eq_false_or_eq_true (powered s) with h | h
  · exact ⟨a, run_powered h⟩
  · exact ⟨Machine.nop, run_unpowered h⟩

theorem runPins_eq_after (a : Act) (s : State) : ∃ b, runPins a s = .next (after b s) := ⟨a, rfl⟩

/-- Every command answers a next state, which some act leaves: the meanings differ in the act alone. -/
theorem exec_eq_after (c : Instr) (s : State) : ∃ a, exec c s = .next (after a s) := by
  cases c
  case pwrEnRise | pwrEnHoldoffEnd | railsGood | pwrEnFall | protectionTrip | thermalTrip => exact runPins_eq_after _ s
  all_goals exact run_eq_after _ s

theorem pending_of_exec {c : Instr} {s t : State} (h : exec c s = .next t) : t.pending = s.pending := by
  obtain ⟨a, ha⟩ := exec_eq_after c s
  obtain rfl : after a s = t := by simpa [ha] using h
  exact after_pending a s

theorem wf_of_exec {c : Instr} {s t : State} (hs : s.wf = true) (h : exec c s = .next t) : t.wf = true := by
  obtain ⟨a, ha⟩ := exec_eq_after c s
  obtain rfl : after a s = t := by simpa [ha] using h
  exact wf_after a hs

/-! ## A step -/

theorem step_of_pending_nil {s : State} (h : s.pending = []) : step s = .next (tick s) := by simp [step, h]

theorem step_of_pending_cons {s : State} {c : Instr} {rest : List Instr} (h : s.pending = c :: rest) :
    step s = exec c { s with pending := rest } := by simp [step, h]

theorem tick_powered {s : State} (h : powered s = true) : tick s = after actTick s := by simp [tick, h, after]

theorem tick_unpowered {s : State} (h : powered s = false) : tick s = s := by simp [tick, h]

/-- The passing of a cycle is an act, too. -/
theorem tick_eq_after (s : State) : ∃ a, tick s = after a s := by
  rcases Bool.eq_false_or_eq_true (powered s) with h | h
  · exact ⟨actTick, tick_powered h⟩
  · exact ⟨Machine.nop, tick_unpowered h⟩

theorem wf_tick {s : State} (h : s.wf = true) : (tick s).wf = true := by
  obtain ⟨a, ha⟩ := tick_eq_after s
  exact ha ▸ wf_after a h

theorem pending_tick (s : State) : (tick s).pending = s.pending := by
  obtain ⟨a, ha⟩ := tick_eq_after s
  exact ha ▸ after_pending a s

/-- The canonical form says nothing about the queue. -/
theorem wf_with_pending (s : State) (q : List Instr) : ({ s with pending := q } : State).wf = s.wf := rfl

/-- Settles O4: a step is a cycle or a command, each is an act, and every primitive update of an act keeps the form. -/
theorem stepKeepsForm : Obligations.StepKeepsForm := by
  unfold Obligations.StepKeepsForm
  intro s t hs h
  match hq : s.pending with
  | [] =>
    obtain rfl : tick s = t := by simpa [step_of_pending_nil hq] using h
    exact wf_tick hs
  | c :: rest =>
    rw [step_of_pending_cons hq] at h
    exact wf_of_exec ((wf_with_pending s rest).trans hs) h

/-- Settles O1, by the definition of a step. -/
theorem stepTakesFront : Obligations.StepTakesFront := by
  unfold Obligations.StepTakesFront
  exact fun s c rest h => step_of_pending_cons h

/-! ## The passing of a cycle -/

theorem within_tickCore (c : Nat) : Within [.ctl] (tickCore c) := by
  refine within_look fun s => within_seq fun a ha => ?_
  simp only [List.mem_cons, List.not_mem_nil, or_false] at ha
  rcases ha with rfl | rfl | rfl | rfl | rfl | rfl
  · exact within_act (within_wr ..)
  all_goals exact within_act (within_count ..)

theorem Within.cycle {ps : List Part} {a : Act} (h : Within ps a) (hp : ps.contains .cycle = false := by rfl) (s : State) :
    (after a s).cycle = s.cycle := h.keeps (·.cycle) keeps_cycle hp s

/-- After the cycle number has gone up, the counts of the cycle and the serving of frames leave it. -/
theorem cycle_after_actTick (s : State) : (after actTick s).cycle = s.cycle + 1 := by
  rw [actTick, after_look]
  simp only [after_seq_cons, after_seq_nil]
  rw [(within_act (within_count ..)).cycle, within_serveFrames.cycle, (within_each within_tickCore).cycle,
    (within_act (within_wr ..)).cycle, after_one, apply_cycle]

/-- Settles O2: an empty queue passes one cycle, and no act touches the queue. -/
theorem queueKept : Obligations.QueueKept := by
  unfold Obligations.QueueKept
  refine ⟨fun s hq => ⟨tick s, step_of_pending_nil hq, (pending_tick s).trans hq, fun hp => ?_⟩, fun c s t => pending_of_exec⟩
  rw [tick_powered hp, cycle_after_actTick]

/-! ## The state after reset -/

theorem wf_reset : State.reset.wf = true := by 
  simp only [State.wf, State.reset, mCanon_nil, mRising_nil, Bool.and_self]

/-- Every register reads its reset value: none is listed. -/
theorem rd_reset (a : Nat) : rd State.reset a = resetWord a := by
  rw [rd, show State.reset.ctl = [] from rfl, mGetD_nil]

/-- Settles O3: every sparse array is empty, and a register that is not listed reads as its reset value. -/
theorem resetReady : Obligations.ResetReady := by
  unfold Obligations.ResetReady
  exact ⟨⟨rfl, wf_reset⟩, rfl, rfl, rfl, rd_reset⟩

/-! ## The fuses -/

theorem Within.fuses_run {ps : List Part} {a : Act} {s t : State} (hw : Within ps a) (h : run a s = .next t)
    (hp : ps.contains .fuses = false := by rfl) : t.fuses = s.fuses := by
  obtain rfl : (if powered s then after a s else s) = t := by simpa [run] using h
  split
  · exact hw.keeps (·.fuses) keeps_fuses hp s
  · rfl

theorem Within.fuses_runPins {ps : List Part} {a : Act} {s t : State} (hw : Within ps a) (h : runPins a s = .next t)
    (hp : ps.contains .fuses = false := by rfl) : t.fuses = s.fuses := by
  obtain rfl : after a s = t := by simpa [runPins] using h
  exact hw.keeps (·.fuses) keeps_fuses hp s

theorem Within.fuses_then {ps qs : List Part} {a b : Act} {s t : State} (ha : Within ps a) (hb : Within qs b)
    (h : run (seq [a, b]) s = .next t) (hp : ps.contains .fuses = false := by rfl) (hq : qs.contains .fuses = false := by rfl) :
    t.fuses = s.fuses := by
  obtain rfl : (if powered s then after (seq [a, b]) s else s) = t := by simpa [run] using h
  split
  · rw [after_seq_cons, after_seq_cons, after_seq_nil, hb.keeps (·.fuses) keeps_fuses hq, ha.keeps (·.fuses) keeps_fuses hp]
  · rfl

/-- The access checks of a register write burn no fuse. -/
theorem Within.fuses_guarded {ps : List Part} {eff : Act} {r : Requester} {o : Nat} {s t : State} (hw : Within ps eff)
    (h : run (guarded r o eff) s = .next t) (hp : ps.contains .fuses = false := by rfl) : t.fuses = s.fuses := by
  have hall : Within (.ctl :: .dumpRun :: .freeCtr :: ps) eff := hw.mono fun p hp => by simp [hp]
  exact (within_guarded (by simp [covers]) hall).fuses_run h (by simpa using hp)

/-- The frame of each command's act names no fuses, but for SVN_COMMIT and KEY_REVOKE: one arm for each constructor. -/
theorem fuses_of_exec {c : Instr} {s t : State} (hsvn : ∀ g, c ≠ .svnCommit g) (hkey : ∀ g k, c ≠ .keyRevoke g k)
    (h : exec c s = .next t) : t.fuses = s.fuses := by
  cases c with
  | registerWrite => exact (within_actRegisterWrite ..).fuses_run h
  | rcRead => exact (within_actRcRead ..).fuses_run h
  | blkReset => exact (within_actBlkReset ..).fuses_run h
  | blkResetDone => exact (within_actBlkResetDone ..).fuses_run h
  | cntClr => exact (within_actCntClr ..).fuses_run h
  | blkFence => exact (within_actBlkFence ..).fuses_run h
  | blkFenced => exact (within_actBlkFenced ..).fuses_then (within_finishParkAt ..) h
  | blkIset => exact (within_actBlkIset ..).fuses_run h
  | routerForward => exact (within_actRouterForward ..).fuses_run h
  | ageIncrement => exact (within_actAgeIncrement ..).fuses_run h
  | localPortArrive => exact (within_actLocalPortArrive ..).fuses_run h
  | bulkWindowOpen => exact (within_actBulkOpen ..).fuses_run h
  | bulkWindowClose => exact (within_actBulkClose ..).fuses_run h
  | fabDetourWrite => exact (within_detourWrite ..).fuses_guarded h
  | meshQuiesce => exact (within_quiesceWrite ..).fuses_guarded h
  | meshQuiesced => exact (within_actMeshQuiesced ..).fuses_run h
  | routerFault => exact (within_actRouterFault ..).fuses_run h
  | distTableRewrite => exact (within_actDistRewrite ..).fuses_run h
  | coreFence => exact (within_coreFenceStep ..).fuses_run h
  | fenceTimeout => exact (within_actFenceTimeout ..).fuses_run h
  | rodRowWrite => exact (within_actRodRowWrite ..).fuses_run h
  | seqArm => exact (within_actSeqArm ..).fuses_run h
  | seqResume => exact (within_actSeqResume ..).fuses_run h
  | seqStop => exact (within_actSeqStop ..).fuses_run h
  | rloadGo => exact (within_actRloadGo ..).fuses_run h
  | rloadDone => exact (within_actRloadDone ..).fuses_run h
  | rcInval => exact (within_actRcInval ..).fuses_run h
  | coreScrub => exact (within_actCoreScrub ..).fuses_run h
  | rowCacheFill => exact (within_actRowCacheFill ..).fuses_run h
  | nop => exact (within_nop (ps := [])).fuses_run h
  | next => exact (within_actNext ..).fuses_run h
  | loop => exact (within_actLoop ..).fuses_run h
  | endl => exact (within_actEndl ..).fuses_run h
  | bead => exact (within_actBead ..).fuses_run h
  | alt => exact (within_actAlt ..).fuses_run h
  | halt => exact (within_actHalt ..).fuses_run h
  | coreHalted => exact (within_actCoreHalted ..).fuses_then (within_finishParkOf ..) h
  | twait => exact (within_actTwait ..).fuses_run h
  | twaitc => exact (within_actTwaitc ..).fuses_run h
  | cwait => exact (within_actCwait ..).fuses_run h
  | waitRegister => exact (within_actWaitRegister ..).fuses_run h
  | waitRelease => exact (within_actWaitRelease ..).fuses_run h
  | waitTimeout => exact (within_actWaitTimeout ..).fuses_run h
  | waitCancel => exact (within_actWaitCancel ..).fuses_run h
  | coreFaulted => exact (within_actCoreFaulted ..).fuses_then (within_finishParkOf ..) h
  | cmmF => exact (within_actCmm ..).fuses_run h
  | cmmI => exact (within_actCmm ..).fuses_run h
  | cmmW => exact (within_actCmmW ..).fuses_run h
  | cmmStep => exact (within_actCmmStep ..).fuses_run h
  | cubeAccumulate => exact (within_actCubeAccumulate ..).fuses_run h
  | cubeInj => exact (within_cubeInjWrite ..).fuses_guarded h
  | maskEvaluate => exact (within_actMaskEvaluate ..).fuses_run h
  | dwqEnqueue => exact (within_actDwqEnqueue ..).fuses_run h
  | dwqStart => exact (within_actDwqStart ..).fuses_run h
  | tld => exact (within_actTld ..).fuses_run h
  | tst => exact (within_actTst ..).fuses_run h
  | tileRow => exact (within_actTileRow ..).fuses_run h
  | tileTcWrite => exact (within_tcWrite ..).fuses_guarded h
  | tcPendingStore => exact (within_actTcPendingStore ..).fuses_run h
  | vld => exact (within_actVld ..).fuses_run h
  | vst => exact (within_actVst ..).fuses_run h
  | add => exact (within_actArith ..).fuses_run h
  | sub => exact (within_actArith ..).fuses_run h
  | mul => exact (within_actArith ..).fuses_run h
  | fma => exact (within_actArith ..).fuses_run h
  | max => exact (within_actArith ..).fuses_run h
  | min => exact (within_actArith ..).fuses_run h
  | div => exact (within_actArith ..).fuses_run h
  | fn => exact (within_actFn ..).fuses_run h
  | fnd => exact (within_actFnd ..).fuses_run h
  | red => exact (within_actRed ..).fuses_run h
  | rget => exact (within_actRget ..).fuses_run h
  | dmsk => exact (within_actDmsk ..).fuses_run h
  | msk => exact (within_actMsk ..).fuses_run h
  | cvt => exact (within_actCvt ..).fuses_run h
  | cvh => exact (within_actCvh ..).fuses_run h
  | dec => exact (within_actDec ..).fuses_run h
  | cur => exact (within_actCur ..).fuses_run h
  | bsc => exact (within_actBsc ..).fuses_run h
  | tcw => exact (within_actTcw ..).fuses_run h
  | movC => exact (within_actMovC ..).fuses_run h
  | movP => exact (within_actMovP ..).fuses_run h
  | moverWord => exact (within_actMoverWord ..).fuses_run h
  | moverCopyDone => exact (within_actMoverCopyDone ..).fuses_run h
  | movpFencedResponse => exact (within_actMovpFenced ..).fuses_run h
  | tset => exact (within_actTset ..).fuses_run h
  | tclr => exact (within_actTclr ..).fuses_run h
  | cinc => exact (within_actCinc ..).fuses_run h
  | tallyPacketArrive => exact (within_actTallyPacketArrive ..).fuses_run h
  | tallyAck => exact (within_actTallyAck ..).fuses_run h
  | mirrorUpdate => exact (within_actMirrorUpdate ..).fuses_run h
  | tlyFlagSet => exact (within_flagWrite ..).fuses_guarded h
  | tlyFlagClear => exact (within_flagWrite ..).fuses_guarded h
  | scaleMergeSend => exact (within_actScaleMergeSend ..).fuses_run h
  | scaleMerge => exact (within_actScaleMerge ..).fuses_run h
  | scaleEvaluate => exact (within_actScaleEvaluate ..).fuses_run h
  | ueRingPoll => exact (within_actUeRingPoll ..).fuses_run h
  | ueDescriptorTake => exact (within_actUeDescriptorTake ..).fuses_run h
  | update => exact (within_actUpdate ..).fuses_run h
  | accumulate => exact (within_actAccumulate ..).fuses_run h
  | updateWithAccumulatedGradient => exact (within_actUpdateAccumulated ..).fuses_run h
  | groupLoad => exact (within_actGroupLoad ..).fuses_run h
  | groupStore => exact (within_actGroupStore ..).fuses_run h
  | advance => exact (within_actAdvance ..).fuses_run h
  | ueBatch => exact (within_actUeBatch ..).fuses_run h
  | ueDescriptorEnd => exact (within_actUeDescriptorEnd ..).fuses_run h
  | uePloadGo => exact (within_uePloadWrite ..).fuses_guarded h
  | uePloadDone => exact (within_actUePloadDone ..).fuses_run h
  | programReplace => exact (within_actProgramReplace ..).fuses_run h
  | ueRingEnable => exact (within_ringEnableWrite ..).fuses_guarded h
  | alloc => exact (within_actAlloc ..).fuses_run h
  | free => exact (within_actFree ..).fuses_run h
  | move => exact (within_actMove ..).fuses_run h
  | pin => exact (within_actPin ..).fuses_run h
  | unpin => exact (within_actUnpin ..).fuses_run h
  | prot => exact (within_actProt ..).fuses_run h
  | share => exact (within_actShare ..).fuses_run h
  | admitHerd => exact (within_actAdmitHerd ..).fuses_run h
  | revoke => exact (within_actRevoke ..).fuses_run h
  | pageMove => exact (within_actPageMove ..).fuses_run h
  | pageMoveDone => exact (within_actPageMoveDone ..).fuses_run h
  | touchWrite => exact (within_actTouchWrite ..).fuses_run h
  | evict => exact (within_actEvict ..).fuses_run h
  | migHfloorWrite => exact (within_hfloorWrite ..).fuses_guarded h
  | migHpfWrite => exact (within_hpfWrite ..).fuses_guarded h
  | prefetchDone => exact (within_actPrefetchDone ..).fuses_run h
  | mpRead => exact (within_actMpRead ..).fuses_run h
  | mpWrite => exact (within_actMpWrite ..).fuses_run h
  | narrowWrite => exact (within_actNarrowWrite ..).fuses_run h
  | mergeHoldExpire => exact (within_actMergeHoldExpire ..).fuses_run h
  | fillDone => exact (within_actFillDone ..).fuses_run h
  | patrolScrub => exact (within_actPatrolScrub ..).fuses_run h
  | mpRemapWrite => exact (within_remapWrite ..).fuses_guarded h
  | testWriteGenerated => exact (within_testCommand ..).fuses_guarded h
  | testWriteData => exact (within_testCommand ..).fuses_guarded h
  | testWriteCheck => exact (within_testCommand ..).fuses_guarded h
  | testWriteBoth => exact (within_testCommand ..).fuses_guarded h
  | testReadRaw => exact (within_testCommand ..).fuses_guarded h
  | testReadDecode => exact (within_testCommand ..).fuses_guarded h
  | dumpGo => exact (within_actDumpGo ..).fuses_run h
  | dumpEnd => exact (within_actDumpEnd ..).fuses_run h
  | beadBoundary => exact (within_actBeadBoundary ..).fuses_run h
  | beadRunStart => exact (within_actBeadRunStart ..).fuses_run h
  | mark => exact (within_actMark ..).fuses_run h
  | markerLost => exact (within_actMarkerLost ..).fuses_run h
  | beadHoldStart => exact (within_actBeadHoldStart ..).fuses_run h
  | beadNextWrite => exact (within_actBeadNextWrite ..).fuses_run h
  | report => exact (within_actReport ..).fuses_run h
  | reportDeadline => exact (within_actReportDeadlineAll ..).fuses_run h
  | result => exact (within_actResult ..).fuses_run h
  | haltPause => exact (within_actHaltPause ..).fuses_run h
  | haltFail => exact (within_actHaltFail ..).fuses_run h
  | haltLinkStop => exact (within_actHaltLinkStop ..).fuses_run h
  | haltLinkResume => exact (within_actHaltLinkResume ..).fuses_run h
  | linkAck => exact (within_actLinkAck ..).fuses_run h
  | linkReplay => exact (within_actLinkReplay ..).fuses_run h
  | linkCredit => exact (within_actLinkCredit ..).fuses_run h
  | linkUp => exact (within_actLinkUp ..).fuses_run h
  | linkDown => exact (within_actLinkDown ..).fuses_run h
  | linkRetrain => exact (within_actLinkRetrain ..).fuses_run h
  | frameForward => exact (within_actFrameForward ..).fuses_run h
  | wr => exact (within_actWr ..).fuses_run h
  | redFrame => exact (within_actRedFrame ..).fuses_run h
  | gat => exact (within_actGat ..).fuses_run h
  | mcd => exact (within_actMcd ..).fuses_run h
  | mreq => exact (within_actMreq ..).fuses_run h
  | mgnt => exact (within_actMgnt ..).fuses_run h
  | multicastSend => exact (within_actMulticastSend ..).fuses_run h
  | mrel => exact (within_actMrel ..).fuses_run h
  | mdone => exact (within_actMdone ..).fuses_run h
  | abort => exact (within_actAbort ..).fuses_run h
  | flag => exact (within_actFlag ..).fuses_run h
  | hresume => exact (within_actHresume ..).fuses_run h
  | hcmd => exact (within_actHcmd ..).fuses_run h
  | hcpl => exact (within_actHcpl ..).fuses_run h
  | hcmdTimeout => exact (within_actHcmdTimeout ..).fuses_run h
  | period => exact (within_actPeriod ..).fuses_run h
  | join => exact (within_actJoin ..).fuses_run h
  | mdown => exact (within_actMdown ..).fuses_run h
  | memberFailDeclare => exact (within_actMemberFailDeclare ..).fuses_run h
  | collectiveTake => exact (within_actCollectiveTake ..).fuses_run h
  | reduceScatter => exact (within_actReduceScatter ..).fuses_run h
  | allReduce => exact (within_actAllReduce ..).fuses_run h
  | allGather => exact (within_actAllGather ..).fuses_run h
  | broadcast => exact (within_actBroadcast ..).fuses_run h
  | reduce => exact (within_actReduce ..).fuses_run h
  | send => exact (within_actSend ..).fuses_run h
  | multicast => exact (within_actMulticast ..).fuses_run h
  | collectiveEnd => exact (within_actCollectiveEnd ..).fuses_run h
  | cableInsert => exact (within_actCableInsert ..).fuses_run h
  | cableRemove => exact (within_actCableRemove ..).fuses_run h
  | doorbell => exact (within_actDoorbell ..).fuses_run h
  | completionWrite => exact (within_actCompletionWrite ..).fuses_run h
  | ringEnable => exact (within_ringCtlWrite ..).fuses_guarded h
  | ringDisable => exact (within_ringCtlWrite ..).fuses_guarded h
  | noticeWrite => exact (within_actNoticeWrite ..).fuses_run h
  | bar2BaseWrite => exact (within_bar2BaseWrite ..).fuses_guarded h
  | bar2Resize => exact (within_actBar2Resize ..).fuses_run h
  | bar2Read => exact (within_actBar2Read ..).fuses_run h
  | bar2Write => exact (within_actBar2Write ..).fuses_run h
  | nopCommand => exact (within_actNopCommand ..).fuses_run h
  | herdCreate => exact (within_actHerdCreate ..).fuses_run h
  | herdRings => exact (within_actHerdRings ..).fuses_run h
  | herdRegw => exact (within_actHerdRegw ..).fuses_run h
  | herdStart => exact (within_actHerdStart ..).fuses_run h
  | herdStop => exact (within_actHerdStop ..).fuses_run h
  | herdResume => exact (within_actHerdResume ..).fuses_run h
  | herdPark => exact (within_actHerdPark ..).fuses_run h
  | herdUnpark => exact (within_actHerdUnpark ..).fuses_run h
  | herdDestroy => exact (within_actHerdDestroy ..).fuses_run h
  | extReg => exact (within_actExtReg ..).fuses_run h
  | extDereg => exact (within_actExtDereg ..).fuses_run h
  | progLoad => exact (within_actProgLoad ..).fuses_run h
  | dump => exact (within_actDump ..).fuses_run h
  | eval => exact (within_actEval ..).fuses_run h
  | evalSwitch => exact (within_actEvalSwitch ..).fuses_run h
  | evalRestore => exact (within_actEvalRestore ..).fuses_run h
  | herdFaultTimeout => exact (within_actHerdFaultTimeout ..).fuses_run h
  | functionLevelReset => exact (within_actFunctionLevelReset ..).fuses_run h
  | vfEnableClear => exact (within_actVfEnableClear ..).fuses_run h
  | hostPortReset => exact (within_actHostPortReset ..).fuses_run h
  | perstRelease => exact (within_actPerstRelease ..).fuses_run h
  | snapCfg => exact (within_actSnapCfg ..).fuses_run h
  | snapMtbf => exact (within_actSnapMtbf ..).fuses_run h
  | snapNow => exact (within_actSnapNow ..).fuses_run h
  | snapStat => exact (within_actSnapStat ..).fuses_run h
  | snapRestore => exact (within_actSnapRestore ..).fuses_run h
  | snapFetch => exact (within_actSnapFetch ..).fuses_run h
  | snapOff => exact (within_actSnapOff ..).fuses_run h
  | ungroupedCopyDone => exact (within_actUngroupedCopyDone ..).fuses_run h
  | entryFinal => exact (within_actEntryFinal ..).fuses_run h
  | entryCaptured => exact (within_actEntryCaptured ..).fuses_run h
  | storeTimeout => exact (within_actStoreTimeout ..).fuses_run h
  | swr => exact (within_actSwr ..).fuses_run h
  | sack => exact (within_actSack ..).fuses_run h
  | srd => exact (within_actSrd ..).fuses_run h
  | srdr => exact (within_actSrdr ..).fuses_run h
  | serr => exact (within_actSerr ..).fuses_run h
  | mwr => exact (within_actMwr ..).fuses_run h
  | mack => exact (within_actMack ..).fuses_run h
  | scommit => exact (within_actScommit ..).fuses_run h
  | sverified => exact (within_actSverified ..).fuses_run h
  | splan => exact (within_actSplan ..).fuses_run h
  | rdone => exact (within_actRdone ..).fuses_run h
  | restoreStart => exact (within_actRestoreStart ..).fuses_run h
  | restoreChunk => exact (within_actRestoreChunk ..).fuses_run h
  | spq => exact (within_actSpq ..).fuses_run h
  | sparePoll => exact (within_actSparePoll ..).fuses_run h
  | spst => exact (within_actSpst ..).fuses_run h
  | takeover => exact (within_actTakeover ..).fuses_run h
  | tkack => exact (within_actTkack ..).fuses_run h
  | filldone => exact (within_actFilldone ..).fuses_run h
  | standdown => exact (within_actStanddown ..).fuses_run h
  | pwrEnRise => exact (within_actPwrEnRise ..).fuses_runPins h
  | pwrEnHoldoffEnd => exact (within_actPwrEnHoldoffEnd ..).fuses_runPins h
  | railsGood => exact (within_actRailsGood ..).fuses_runPins h
  | pwrEnFall => exact (within_actPwrEnFall ..).fuses_runPins h
  | protectionTrip => exact (within_actProtectionTrip ..).fuses_runPins h
  | thermalTrip => exact (within_actThermalTrip ..).fuses_runPins h
  | inputLow => exact (within_actInputLow ..).fuses_run h
  | powerWindowEnd => exact (within_actPowerWindowEnd ..).fuses_run h
  | powerOnReset => exact (within_actPowerOnReset ..).fuses_run h
  | pllLock => exact (within_actPllLock ..).fuses_run h
  | pllLockLoss => exact (within_actPllLockLoss ..).fuses_run h
  | bankChoose => exact (within_actBankChoose ..).fuses_run h
  | firmwareStart => exact (within_actFirmwareStart ..).fuses_run h
  | channelTrained => exact (within_actChannelTrained ..).fuses_run h
  | runEntry => exact (within_actRunEntry ..).fuses_run h
  | deviceReset => exact (within_actDeviceReset ..).fuses_run h
  | pageFreeAll => exact (within_actPageFreeAll ..).fuses_run h
  | mgtRstDev => exact (within_actMgtRstDev ..).fuses_run h
  | watchdogKick => exact (within_actWatchdogKick ..).fuses_run h
  | watchdogExpire => exact (within_actWatchdogExpire ..).fuses_run h
  | reset => exact (within_actReset ..).fuses_run h
  | fence => exact (within_actFence ..).fuses_run h
  | herdFail => exact (within_actHerdFail ..).fuses_run h
  | powerLimit => exact (within_actPowerLimit ..).fuses_run h
  | partitionPod => exact (within_actPartitionPod ..).fuses_run h
  | partitionHostLimits => exact (within_actPartitionHostLimits ..).fuses_run h
  | partitionSpare => exact (within_actPartitionSpare ..).fuses_run h
  | partitionAux => exact (within_actPartitionAux ..).fuses_run h
  | remapLoad => exact (within_actRemapLoad ..).fuses_run h
  | sysprogLoad => exact (within_actSysprogLoad ..).fuses_run h
  | linkHalt => exact (within_actLinkHalt ..).fuses_run h
  | openPermission => exact (within_actOpenPermission ..).fuses_run h
  | svnCommit => exact absurd rfl (hsvn _)
  | keyRevoke => exact absurd rfl (hkey _ _)
  | mgmtDumpStart => exact (within_actMgmtDumpStart ..).fuses_run h
  | mgmtDumpRead => exact (within_actMgmtDumpRead ..).fuses_run h
  | fruRead => exact (within_actFruRead ..).fuses_run h
  | regRead => exact (within_actRegRead ..).fuses_run h
  | setEndpointId => exact (within_actSetEndpointId ..).fuses_run h
  | getEndpointId => exact (within_actGetEndpointId ..).fuses_run h
  | getEndpointUuid => exact (within_actGetEndpointUuid ..).fuses_run h
  | getMctpVersionSupport => exact (within_actGetMctpVersionSupport ..).fuses_run h
  | getMessageTypeSupport => exact (within_actGetMessageTypeSupport ..).fuses_run h
  | getVendorDefinedMessageSupport => exact (within_actGetVendorDefinedMessageSupport ..).fuses_run h
  | getTid => exact (within_actGetTid ..).fuses_run h
  | setTid => exact (within_actSetTid ..).fuses_run h
  | getPldmVersion => exact (within_actGetPldmVersion ..).fuses_run h
  | getPldmTypes => exact (within_actGetPldmTypes ..).fuses_run h
  | getPldmCommands => exact (within_actGetPldmCommands ..).fuses_run h
  | getPdrRepositoryInfo => exact (within_actGetPdrRepositoryInfo ..).fuses_run h
  | getPdr => exact (within_actGetPdr ..).fuses_run h
  | getSensorReading => exact (within_actGetSensorReading ..).fuses_run h
  | getStateSensorReadings => exact (within_actGetStateSensorReadings ..).fuses_run h
  | setEventReceiver => exact (within_actSetEventReceiver ..).fuses_run h
  | eventMessageSupported => exact (within_actEventMessageSupported ..).fuses_run h
  | eventMessageBufferSize => exact (within_actEventMessageBufferSize ..).fuses_run h
  | pollForPlatformEventMessage => exact (within_actPollForPlatformEventMessage ..).fuses_run h
  | getFruRecordTableMetadata => exact (within_actGetFruRecordTableMetadata ..).fuses_run h
  | getFruRecordTable => exact (within_actGetFruRecordTable ..).fuses_run h
  | requestUpdate => exact (within_actRequestUpdate ..).fuses_run h
  | passComponentTable => exact (within_actPassComponentTable ..).fuses_run h
  | updateComponent => exact (within_actUpdateComponent ..).fuses_run h
  | requestFirmwareData => exact (within_actRequestFirmwareData ..).fuses_run h
  | transferComplete => exact (within_actTransferComplete ..).fuses_run h
  | verifyComplete => exact (within_actVerifyComplete ..).fuses_run h
  | applyComplete => exact (within_actApplyComplete ..).fuses_run h
  | activateFirmware => exact (within_actActivateFirmware ..).fuses_run h
  | getStatus => exact (within_actGetStatus ..).fuses_run h
  | cancelUpdate => exact (within_actCancelUpdate ..).fuses_run h
  | getVersion => exact (within_actGetVersion ..).fuses_run h
  | getCapabilities => exact (within_actGetCapabilities ..).fuses_run h
  | negotiateAlgorithms => exact (within_actNegotiateAlgorithms ..).fuses_run h
  | getDigests => exact (within_actGetDigests ..).fuses_run h
  | getCertificate => exact (within_actGetCertificate ..).fuses_run h
  | challenge => exact (within_actChallenge ..).fuses_run h
  | getMeasurements => exact (within_actGetMeasurements ..).fuses_run h
  | respondIfReady => exact (within_actRespondIfReady ..).fuses_run h
  | getPqSig => exact (within_actGetPqSig ..).fuses_run h
  | getPqCert => exact (within_actGetPqCert ..).fuses_run h
  | pqSigReady => exact (within_actPqSigReady ..).fuses_run h
  | eventService => exact (within_actEventService ..).fuses_run h
  | ownerSearchDone => exact (within_actOwnerSearchDone ..).fuses_run h
  | vuResultWrite => exact (within_actVuResultWrite ..).fuses_run h
  | vectorAccessComplete => exact (within_actVectorAccessComplete ..).fuses_run h
  | waitCancelAnswer => exact (within_actWaitCancelAnswer ..).fuses_run h
  | hostLinkUp => exact (within_actHostLinkUp ..).fuses_run h
  | vfEnableSet => exact (within_actVfEnableSet ..).fuses_run h
  | pllLockRegain => exact (within_actPllLockRegain ..).fuses_run h
  | tempThresholdCross => exact (within_actTempThresholdCross ..).fuses_run h
  | storeDmaCompletion => exact (within_actStoreDmaCompletion ..).fuses_run h
  | coreHardFault => exact (within_actCoreHardFault ..).fuses_run h

/-- Settles O5, from the frame of each command. -/
theorem fusesKept : Obligations.FusesKept := by
  unfold Obligations.FusesKept
  exact fun c s t => fuses_of_exec

end Sys2Proof.Machine
end

section
/-! Bits and fields of words, and what an act leaves alone. -/

namespace Sys2Proof.Machine

-- One declaration after the other: elaborated side by side they take more memory than the check has.
set_option Elab.async false

/-! ## Bits and fields -/

theorem testBit_bits (x hi lo j : Nat) : (bits x hi lo).testBit j = (decide (j < hi + 1 - lo) && x.testBit (lo + j)) := by
  rw [bits, Nat.testBit_mod_two_pow, Nat.testBit_div_two_pow, Nat.add_comm j]

theorem bits_lt (x hi lo : Nat) : bits x hi lo < 2 ^ (hi + 1 - lo) := Nat.mod_lt _ (by positivity)

theorem fld_lt {n : Nat} (w : BitVec n) (hi lo : Nat) : fld w hi lo < 2 ^ (hi + 1 - lo) := bits_lt ..

/-- A number is what lies above a field, the field, and what lies below it. -/
theorem split_bits (x : Nat) {hi lo : Nat} (h : lo ≤ hi) :
    x = 2 ^ (hi + 1) * (x / 2 ^ (hi + 1)) + (2 ^ lo * bits x hi lo + x % 2 ^ lo) := by
  have e : 2 ^ (hi + 1) = 2 ^ lo * 2 ^ (hi + 1 - lo) := by rw [← pow_add]; congr 1; omega
  have h1 := Nat.div_add_mod x (2 ^ lo)
  have h2 := Nat.div_add_mod (x / 2 ^ lo) (2 ^ (hi + 1 - lo))
  rw [Nat.div_div_eq_div_mul, ← e] at h2
  rw [bits]
  calc x = 2 ^ lo * (x / 2 ^ lo) + x % 2 ^ lo := h1.symm
    _ = 2 ^ lo * (2 ^ (hi + 1 - lo) * (x / 2 ^ (hi + 1)) + x / 2 ^ lo % 2 ^ (hi + 1 - lo)) + x % 2 ^ lo := by rw [h2]
    _ = _ := by rw [e]; ring

/-- The bits of a word with a field replaced. -/
theorem bit_setFld {n : Nat} (w : BitVec n) {hi lo : Nat} (h : lo ≤ hi) (hn : hi < n) (v j : Nat) :
    bit (setFld w hi lo v) j = if lo ≤ j ∧ j ≤ hi then v.testBit (j - lo) else bit w j := by
  have hlow := Nat.mod_lt w.toNat (show 0 < 2 ^ lo by positivity)
  have hv := Nat.mod_lt v (show 0 < 2 ^ (hi + 1 - lo) by positivity)
  have hmid : 2 ^ lo * (v % 2 ^ (hi + 1 - lo)) + w.toNat % 2 ^ lo < 2 ^ (hi + 1) := by
    have e : 2 ^ (hi + 1) = 2 ^ lo * 2 ^ (hi + 1 - lo) := by rw [← pow_add]; congr 1; omega
    have := Nat.mul_le_mul_left (2 ^ lo) hv
    rw [Nat.mul_succ] at this
    omega
  have key : w.toNat - bits w.toNat hi lo * 2 ^ lo + v % 2 ^ (hi + 1 - lo) * 2 ^ lo =
      2 ^ (hi + 1) * (w.toNat / 2 ^ (hi + 1)) + (2 ^ lo * (v % 2 ^ (hi + 1 - lo)) + w.toNat % 2 ^ lo) := by
    have hs := split_bits w.toNat h
    have c1 := Nat.mul_comm (bits w.toNat hi lo) (2 ^ lo)
    have c2 := Nat.mul_comm (v % 2 ^ (hi + 1 - lo)) (2 ^ lo)
    omega
  have hw (hj : n ≤ j) : w.toNat.testBit j = false :=
    Nat.testBit_lt_two_pow (w.isLt.trans_le (Nat.pow_le_pow_right (by decide) hj))
  rw [bit, bit, setFld, key, BitVec.getLsbD_ofNat, Nat.testBit_two_pow_mul_add _ hmid, Nat.testBit_two_pow_mul_add _ hlow, BitVec.getLsbD]
  simp only [Nat.testBit_div_two_pow, Nat.testBit_mod_two_pow]
  have hle : lo ≤ j → j - lo + lo = j := by omega
  by_cases h1 : j < hi + 1 <;> by_cases h2 : j < lo
  · simp [h1, h2, show j < n by omega, show ¬ lo ≤ j by omega]
  · simp [h1, h2, show j < n by omega, show lo ≤ j by omega, show j ≤ hi by omega, show j - lo < hi + 1 - lo by omega]
  · omega
  · by_cases hj : j < n
    · simp [h1, hj, show ¬ (lo ≤ j ∧ j ≤ hi) by omega, show j - (hi + 1) + (hi + 1) = j by omega]
    · simp [hj, show ¬ (lo ≤ j ∧ j ≤ hi) by omega, hw (by omega)]

/-- A field is its bits. -/
theorem testBit_fld {n : Nat} (w : BitVec n) (hi lo j : Nat) :
    (fld w hi lo).testBit j = (decide (j < hi + 1 - lo) && bit w (lo + j)) := by
  rw [fld, testBit_bits, bit, BitVec.getLsbD]

/-- A field apart from the one replaced stays. -/
theorem fld_setFld_other {n : Nat} (w : BitVec n) {hi lo a b : Nat} (h : lo ≤ hi) (hn : hi < n) (hd : a < lo ∨ hi < b) (v : Nat) :
    fld (setFld w hi lo v) a b = fld w a b := by
  refine Nat.eq_of_testBit_eq fun j => ?_
  rw [testBit_fld, testBit_fld, bit_setFld w h hn]
  by_cases hj : j < a + 1 - b
  · rw [if_neg (by omega)]
  · simp [hj]

theorem bit_setFld_other {n : Nat} (w : BitVec n) {hi lo j : Nat} (h : lo ≤ hi) (hn : hi < n) (hd : j < lo ∨ hi < j) (v : Nat) :
    bit (setFld w hi lo v) j = bit w j := by
  rw [bit_setFld w h hn, if_neg (by omega)]

theorem bit_setBit_other {n : Nat} (w : BitVec n) {i j : Nat} (hi : i < n) (hd : j ≠ i) (b : Bool) : bit (setBit w i b) j = bit w j :=
  bit_setFld_other w (Nat.le_refl i) hi (by omega) _

theorem fld_setBit_other {n : Nat} (w : BitVec n) {i a b : Nat} (hi : i < n) (hd : a < i ∨ i < b) (x : Bool) :
    fld (setBit w i x) a b = fld w a b := fld_setFld_other w (Nat.le_refl i) hi hd _

theorem bit_or {n : Nat} (v w : BitVec n) (i : Nat) : bit (v ||| w) i = (bit v i || bit w i) := BitVec.getLsbD_or

theorem bit_and {n : Nat} (v w : BitVec n) (i : Nat) : bit (v &&& w) i = (bit v i && bit w i) := BitVec.getLsbD_and

theorem bit_not {n : Nat} (v : BitVec n) (i : Nat) : bit (~~~v) i = (decide (i < n) && !bit v i) := BitVec.getLsbD_not

theorem bit_ofNat (n x i : Nat) : bit (BitVec.ofNat n x) i = (decide (i < n) && x.testBit i) := BitVec.getLsbD_ofNat ..

/-- A field of a word made of a number. -/
theorem fld_ofNat {n : Nat} (x : Nat) {hi lo : Nat} (hn : hi < n) (h : lo ≤ hi) : fld (BitVec.ofNat n x) hi lo = bits x hi lo := by
  refine Nat.eq_of_testBit_eq fun j => ?_
  rw [testBit_fld, testBit_bits, bit_ofNat]
  by_cases hj : j < hi + 1 - lo
  · simp [hj, show lo + j < n by omega]
  · simp [hj]

/-- Words agree that agree in every bit. -/
theorem eq_of_bit_eq {n : Nat} {v w : BitVec n} (h : ∀ i < n, bit v i = bit w i) : v = w :=
  BitVec.eq_of_getLsbD_eq h

@[simp] theorem setBit_bit {n : Nat} (w : BitVec n) {i : Nat} (hi : i < n) : setBit w i (bit w i) = w := by
  refine eq_of_bit_eq fun j hj => ?_
  by_cases h : j = i
  · rw [h, bit_setBit_same w hi]
  · rw [bit_setBit_other w hi h]

/-! ## Bytes and words -/

theorem leNat_leBytes (n v : Nat) : leNat (leBytes n v) = v % 256 ^ n := by
  induction n generalizing v with
  | zero => simp [leBytes, leNat, Nat.mod_one]
  | succ n ih => rw [leBytes, leNat, ih, BitVec.toNat_ofNat, pow_succ' 256 n, Nat.mod_mul]

@[simp] theorem length_leBytes (n v : Nat) : (leBytes n v).length = n := by
  induction n generalizing v with
  | zero => rfl
  | succ n ih => rw [leBytes, List.length_cons, ih]

/-- The bytes of a word give the word back. -/
theorem leWord_leBytes (v : Word) : leWord (leBytes 4 v.toNat) = v := by
  rw [leWord, List.take_of_length_le (by simp), leNat_leBytes]
  exact BitVec.eq_of_toNat_eq (by simpa using v.isLt)

/-- Byte i of a number's bytes. -/
theorem leBytes_eq_map (n v : Nat) : leBytes n v = (List.range n).map fun i => BitVec.ofNat 8 (v / 2 ^ (8 * i)) := by
  induction n generalizing v with
  | zero => rfl
  | succ n ih =>
    rw [leBytes, ih, List.range_succ_eq_map, List.map_cons, List.map_map]
    have e (i : Nat) : v / 256 / 2 ^ (8 * i) = v / 2 ^ (8 * (i + 1)) := by
      rw [Nat.div_div_eq_div_mul, show (256 : Nat) = 2 ^ 8 from rfl, ← pow_add]
      congr 2
      omega
    simp [e, Function.comp_def]

/-! ## What an act leaves alone -/

/-- Act a leaves what f reads of the state. -/
structure Keeps {β : Type} (f : State → β) (a : Act) : Prop where
  eq : ∀ s, f (after a s) = f s

section

variable {β : Type} {f : State → β}

theorem keeps_nop : Keeps f nop := ⟨fun _ => rfl⟩

theorem keeps_one {u : Upd} (h : ∀ s, f (u.apply s) = f s) : Keeps f (one u) := ⟨h⟩

theorem keeps_look {g : State → Act} (h : ∀ s, Keeps f (g s)) : Keeps f (look g) := ⟨fun s => (h s).eq s⟩

theorem keeps_act {c : Bool} {a : Act} (h : c = true → Keeps f a) : Keeps f (act c a) := by
  cases c
  · exact keeps_nop
  · exact h rfl

theorem keeps_ite {c : Prop} [Decidable c] {a b : Act} (ha : c → Keeps f a) (hb : ¬ c → Keeps f b) : Keeps f (if c then a else b) := by
  split
  · exact ha ‹_›
  · exact hb ‹_›

theorem keeps_seq_nil : Keeps f (seq []) := ⟨fun _ => rfl⟩

theorem keeps_seq_cons {a : Act} {as : List Act} (ha : Keeps f a) (has : Keeps f (seq as)) : Keeps f (seq (a :: as)) :=
  ⟨fun s => by rw [after_seq_cons, has.eq, ha.eq]⟩

theorem keeps_each {α : Type} {xs : List α} {g : α → Act} (h : ∀ x ∈ xs, Keeps f (g x)) : Keeps f (each xs g) :=
  ⟨fun s => after_each_keeps (P := fun t => f t = f s) xs g (fun x hx t ht => ((h x hx).eq t).trans ht) s rfl⟩

end

/-- What an act does not touch it leaves. -/
theorem Within.leaves {ps : List Part} {a : Act} (h : Within ps a) {β : Type} {f : State → β} {p : Part}
    (hf : ∀ {u : Upd}, u.part ≠ p → ∀ s, f (u.apply s) = f s) (hp : ps.contains p = false := by rfl) : Keeps f a :=
  ⟨h.keeps f hf hp⟩

/-- What one of a list of acts sets, and every other sets or leaves, is set after them all. -/
theorem after_each_sets {α β : Type} {f : State → β} {v : β} {xs : List α} {g : α → Act} {y : α} (hy : y ∈ xs)
    (hset : ∀ s, f (after (g y) s) = v) (h : ∀ x ∈ xs, (∀ s, f (after (g x) s) = v) ∨ Keeps f (g x)) (s : State) :
    f (after (each xs g) s) = v := by
  induction xs generalizing s with
  | nil => cases hy
  | cons x xs ih =>
    rw [after_each_cons]
    have htail : ∀ z ∈ xs, (∀ s, f (after (g z) s) = v) ∨ Keeps f (g z) := fun z hz => h z (List.mem_cons_of_mem _ hz)
    have hkeep (t : State) (ht : f t = v) : f (after (each xs g) t) = v :=
      after_each_keeps (P := fun t => f t = v) xs g (fun z hz t ht => (htail z hz).elim (fun hs => hs t) fun hk => (hk.eq t).trans ht) t ht
    rcases List.mem_cons.mp hy with rfl | hin
    · exact hkeep _ (hset s)
    · exact ih hin htail _

/-! ## Registers that an act leaves alone -/

/-- Act a leaves the register at address x. -/
abbrev KeepsReg (x : Nat) (a : Act) : Prop := Keeps (rd · x) a

theorem KeepsReg.rd {x : Nat} {a : Act} (h : KeepsReg x a) (s : State) : Machine.rd (after a s) x = Machine.rd s x := h.eq s

theorem Within.keepsReg {ps : List Part} {a : Act} (h : Within ps a) (x : Nat) (hp : ps.contains .ctl = false := by rfl) : KeepsReg x a :=
  h.leaves (fun hu s => rd_keeps hu s x) hp

theorem keepsReg_wr {x a : Nat} (h : x ≠ a) (v : Word) : KeepsReg x (wr a v) := ⟨fun s => rd_ctl_other s h v⟩

theorem keepsReg_wrFld {x a : Nat} (h : x ≠ a) (hi lo v : Nat) : KeepsReg x (wrFld a hi lo v) := ⟨fun s => rd_ctl_other s h _⟩

theorem keepsReg_wrBit {x a : Nat} (h : x ≠ a) (i : Nat) (b : Bool) : KeepsReg x (wrBit a i b) := ⟨fun s => rd_ctl_other s h _⟩

theorem keepsReg_setIst {x p : Nat} (h : x ≠ p + 0x20) (i : Nat) : KeepsReg x (setIst p i) := keepsReg_wrBit h i true

/-- A register outside the header of an event's page stays, MGT_DUMP_CTRL aside where the event is fatal. -/
theorem keepsReg_raise {x p : Nat} {c : Capture} (hist : x ≠ p + 0x20) (hcap : x < p + 0x40 ∨ p + 0x60 ≤ x)
    (hdump : c.cls = .uncorrFatal → x ≠ 0x4100) : KeepsReg x (raise p c) := ⟨fun s => rd_after_raise_other s hist hcap hdump⟩

/-- A counter slot counts in its own two words, and latches ctr_sat. -/
theorem keepsReg_count {x p k : Nat} (hist : x ≠ p + 0x20) (hlo : x ≠ p + 0x80 + 8 * k) (hhi : x ≠ p + 0x84 + 8 * k) (n : Nat) :
    KeepsReg x (count p k n) := by
  refine keeps_look fun s => keeps_ite (fun _ => keeps_nop) fun _ => ?_
  exact keeps_seq_cons (keepsReg_wr hlo _) (keeps_seq_cons (keepsReg_wr hhi _)
    (keeps_seq_cons (keeps_act fun _ => keepsReg_setIst hist 7) keeps_seq_nil))

end Sys2Proof.Machine
end

section
/-! Requests to the control window: the read of a word (R24), and the rights of functions (R20, R21). -/

namespace Sys2Proof.Machine

-- One declaration after the other: elaborated side by side they take more memory than the check has.
set_option Elab.async false

/-! ## One aligned word -/

/-- An aligned request of four bytes touches its own word. -/
theorem touchedWords_aligned {a : Nat} (ha : a % 4 = 0) (hlt : a < 2 ^ 28) : touchedWords a 4 = [a] := by
  have e : (a + 4 - 1) / 4 - a / 4 + 1 = 1 := by omega
  have e2 : 4 * (a / 4 + 0) = a := by omega
  rw [touchedWords, if_neg (by decide), e, List.range_one, List.map_singleton, e2, List.filter_singleton, decide_eq_true hlt, cond_true]

theorem enabledWord_wordBytesOf (a : Nat) (v : Word) : enabledWord a (wordBytesOf v) a = some v := by
  have h : leBytes 4 v.toNat = [BitVec.ofNat 8 v.toNat, BitVec.ofNat 8 (v.toNat / 256), BitVec.ofNat 8 (v.toNat / 256 / 256),
    BitVec.ofNat 8 (v.toNat / 256 / 256 / 256)] := rfl
  have hw := leWord_leBytes v
  rw [h] at hw
  rw [wordBytesOf, h]
  simpa [enabledWord] using hw

@[simp] theorem length_wordBytesOf (v : Word) : (wordBytesOf v).length = 4 := by simp [wordBytesOf]

/-- A write of an aligned word is one 32-bit write. -/
theorem after_actRegisterWrite_word {s : State} {r : Requester} (hr : reqOk s r = true) {off : BitVec 28} (ha : off.toNat % 4 = 0)
    (v : Word) : after (actRegisterWrite r off.toNat (wordBytesOf v)) s = after (ctlWrite r off.toNat v) s := by
  rw [actRegisterWrite, after_look]
  simp only [hr, length_wordBytesOf, touchedWords_aligned ha off.isLt, enabledWord_wordBytesOf, after_ite, after_each_cons,
    after_each_nil]
  simp

/-- The bytes of an aligned word that a requester may read. -/
theorem readBytes_word {s : State} {r : Requester} {a : Nat} (ha : a % 4 = 0) (hlt : a < 2 ^ 28)
    (hr : mayRead s r (blockOf s (a / 4096)) = true) : readBytes s r a 4 = leBytes 4 (fullRead s a).toNat := by
  rw [readBytes, leBytes_eq_map]
  refine List.map_congr_left fun i hi => ?_
  have hi : i < 4 := List.mem_range.mp hi
  rw [if_pos (by omega), show (a + i) / 4 * 4 = a by omega, show (a + i) % 4 = i by omega, readWord, if_pos hr]

/-- What leaves the module changes no right to a page. -/
theorem mayRead_out (s : State) (o : Output) (r : Requester) (p : Nat) :
    mayRead ((Upd.out o).apply s) r (blockOf ((Upd.out o).apply s) p) = mayRead s r (blockOf s p) := rfl

/-- Settles O7: the word's bytes leave the module, and the access check finds a right. -/
theorem wordRead : Obligations.WordRead := by
  unfold Obligations.WordRead
  intro s hs r off ha hreq hread
  refine (run_powered hs.1).trans (congrArg _ ?_)
  have hword : touchedWords off.toNat 4 = [off.toNat] := touchedWords_aligned ha off.isLt
  rw [actRcRead, after_look]
  simp only [hreq, hword, readBytes_word ha off.isLt hread, after_act, after_seq_cons, after_seq_nil, after_one, after_ite,
    after_each_cons, after_each_nil]
  rw [readCheck, after_look, mayRead_out, hread]
  rfl

/-! ## Rights of functions -/

/-- A write without the right is refused (R21). -/
theorem after_guarded_refused {s : State} {r : Requester} {a : Nat} (hr : reqOk s r = true) (hb : blockOf s (a / 4096) ≠ .absent)
    (hw : mayWrite s r (blockOf s (a / 4096)) (a % 4096) = false) (eff : Act) : after (guarded r a eff) s = after (refuseAccess r) s := by
  rw [guarded, after_look]
  simp [hr, hb, hw]

/-- The refusal latches SECURITY in the first SEC_ page. -/
theorem bit_after_refuseAccess (s : State) (r : Requester) : bit (rd (after (refuseAccess r) s) (secPage 0 + 0x20)) 6 = true := by
  rw [refuseAccess, after_seq_cons, after_seq_cons, after_seq_nil]
  exact bit_after_raise (c := { cls := .security, req := reqNo r }) _ nofun

/-- The refusal writes that page alone. -/
theorem keepsReg_refuseAccess {a : Nat} (ha : a / 4096 ≠ 8) (r : Requester) : KeepsReg a (refuseAccess r) := by
  have hp : secPage 0 = 32768 := rfl
  refine keeps_seq_cons (keepsReg_count ?_ ?_ ?_ 1) (keeps_seq_cons (keepsReg_raise ?_ ?_ nofun) keeps_seq_nil) <;> omega

/-- Settles O8: the access check refuses the write before it reaches the page. -/
theorem rightsHold : Obligations.RightsHold := by
  unfold Obligations.RightsHold
  intro s hs f p v off hreq ha hp hb hw
  rw [← hp] at hb hw
  have e : after (actRegisterWrite (.fn f) off.toNat (wordBytesOf v)) s = after (refuseAccess (.fn f)) s := by
    rw [after_actRegisterWrite_word hreq ha, ctlWrite, after_guarded_refused hreq hb hw]
  refine does_of_run hs.1 rfl ?_ ?_ <;> rw [e]
  · exact (within_refuseAccess ..).onlyIn s
  · exact ⟨bit_after_refuseAccess s _, fun a h8 _ => (keepsReg_refuseAccess h8 _).rd s⟩

end Sys2Proof.Machine
end

section
/-! The commands of a page's header: resets (R38, R39), counter clears (R42), fences (R37), BLK_ISET (R45) and plain writes (R22). -/

namespace Sys2Proof.Machine

-- One declaration after the other: elaborated side by side they take more memory than the check has.
set_option Elab.async false

/-! ## The words of a page that is reset -/

/-- What a mapped array lists. -/
theorem mGet_mMap {α : Type} {m : List (Nat × α)} (hm : mRising m = true) (f : Nat → α → Option α) (k : Nat) :
    mGet (mMap m f) k = (mGet m k).bind (f k) := by
  induction m with
  | nil => rfl
  | cons q m ih =>
    have hrise := hm
    rw [mRising_cons] at hm
    obtain ⟨hlt, hm⟩ := hm
    have e : mMap (q :: m) f = match f q.1 q.2 with
        | some v => (q.1, v) :: mMap m f
        | none => mMap m f := by
      rw [mMap, List.filterMap_cons]
      cases f q.1 q.2 <;> rfl
    rw [e, mGet]
    by_cases hk : k = q.1
    · have hnone : mGet m k = none := mGet_below m k fun r hr => hk ▸ hlt r hr
      rw [if_pos hk, Option.bind_some, hk]
      cases f q.1 q.2 with
      | none => exact hk ▸ (ih hm).trans (by rw [hnone]; rfl)
      | some v => rw [mGet, if_pos rfl]
    · rw [if_neg hk, ← ih hm]
      cases f q.1 q.2 with
      | none => rfl
      | some v => rw [mGet, if_neg hk]

/-- The reset value of a word, its sticky bits aside (R26, R38). -/
def resetKept (s : State) (a : Nat) : Word := (rd s a &&& stickyMask a) ||| (resetWord a &&& ~~~stickyMask a)

theorem getD_resetOne (a : Nat) (w : Word) :
    (resetOne a w).getD (resetWord a) = (w &&& stickyMask a) ||| (resetWord a &&& ~~~stickyMask a) := by
  rw [resetOne]
  split
  case isTrue h => exact h.symm
  case isFalse => rfl

/-- A word at its reset value stays there. -/
theorem resetWord_sticky (a : Nat) : (resetWord a &&& stickyMask a) ||| (resetWord a &&& ~~~stickyMask a) = resetWord a := by
  refine eq_of_bit_eq fun i hi => ?_
  simp only [bit_or, bit_and, bit_not, hi, decide_true, Bool.true_and]
  cases bit (resetWord a) i <;> simp

/-- Every word of the range returns to its reset value, sticky bits aside; every other stays. -/
theorem rd_ctlReset {s : State} (hs : mRising s.ctl = true) (lo hi a : Nat) :
    rd ((Upd.ctlReset lo hi).apply s) a = if lo ≤ a ∧ a < hi then resetKept s a else rd s a := by
  rw [rd, apply_ctlReset, mGetD, mGet_mMap hs, resetKept, rd, mGetD]
  cases mGet s.ctl a with
  | none =>
    simp only [Option.bind_none, Option.getD_none, resetWord_sticky, ite_self]
  | some w =>
    simp only [Option.bind_some, Option.getD_some, Bool.and_eq_true, decide_eq_true_eq]
    split
    · exact getD_resetOne a w
    · rfl

/-! ## A block reset (R38, R643) -/

theorem rstBusy_after_wrBit (s : State) (p : Nat) (b : Bool) : rstBusy (after (wrBit (p + 0x14) 1 b) s) p = b := by
  rw [rstBusy, after_wrBit, rd_ctl_same, bit_setBit_same _ (by decide)]

/-- The ring controller's reset of a page that takes it, of a core UNASSIGNED or FENCED where it is a core's page. -/
theorem after_actBlkReset {s : State} {p : Nat} (hp : Takes s p)
    (hc : ∀ c, (blockOf s p).coreSite = some c → coreState s c = 0 ∨ coreState s c = 9) :
    after (actBlkReset .ringCtl p) s = after (seq [pageReset (blockOf s p) (4096 * p), keepShown (blockOf s p) (4096 * p) s,
      coreReset (blockOf s p), (match (blockOf s p).coreSite with
        | some c => resetDone c (4096 * p)
        | none => nop), wrBit (4096 * p + 0x14) 1 true]) s := by
  have hcore : ((blockOf s p).coreSite.any fun c => !(decide (coreState s c = 0) || decide (coreState s c = 9))) = false := by
    cases h : (blockOf s p).coreSite with
    | none => rfl
    | some c => simpa using fun h0 => (hc c h).resolve_left h0
  obtain ⟨_, hwindow, _⟩ := id hp
  rw [actBlkReset, after_look, after_guarded_ring hp (by omega), after_act, hwindow, blkReset, Bool.not_false, if_pos rfl, after_look,
    hcore, if_neg (by decide)] <;> rfl

/-- Every block reset leaves rst_busy set. -/
theorem rstBusy_after_actBlkReset {s : State} {p : Nat} (hp : Takes s p)
    (hc : ∀ c, (blockOf s p).coreSite = some c → coreState s c = 0 ∨ coreState s c = 9) :
    rstBusy (after (actBlkReset .ringCtl p) s) (4096 * p) = true := by
  rw [after_actBlkReset hp hc, after_seq_cons, after_seq_cons, after_seq_cons, after_seq_cons, after_seq_cons, after_seq_nil]
  exact rstBusy_after_wrBit ..

/-- The levels of a page of the control window lie in its own header. -/
theorem keepsReg_setLevel {x p : Nat} (hist : x ≠ p + 0x20) (hraw : x ≠ p + 0x2C) (i : Nat) (b : Bool) : KeepsReg x (setLevel p i b) :=
  keeps_look fun _ => keeps_seq_cons (keeps_act fun _ => keepsReg_setIst hist i)
    (keeps_seq_cons (keepsReg_wrBit hraw i b) keeps_seq_nil)

/-- The restored words aside, and PWR_LIMIT and BLK_IST where levels follow the reset fields, the reset's upkeep writes nothing. -/
theorem keepsReg_keepShown {b : Block} {p x : Nat} (hshown : ∀ o ∈ shownWords b, x ≠ p + o) (s : State)
    (hmig : b = .mig 0 → x ≠ migPage 0 + 0x108 ∧ x ≠ migPage 0 + 0x20 ∧ x ≠ migPage 0 + 0x2C)
    (hpwr0 : b = .pwr 0 → x ≠ pwrPage 0 + 0x10C)
    (hpwr1 : b = .pwr 1 → x ≠ pwrPage 1 + 0x20 ∧ x ≠ pwrPage 1 + 0x2C) : KeepsReg x (keepShown b p s) := by
  refine keeps_seq_cons (keeps_each fun o ho => keepsReg_wr (hshown o ho) _) (keeps_seq_cons ?_ keeps_seq_nil)
  split
  · obtain ⟨h1, h2, h3⟩ := hmig rfl
    exact keeps_seq_cons (keeps_look fun _ => keepsReg_wr h1 _) (keeps_seq_cons (keeps_look fun _ => keepsReg_setLevel h2 h3 8 _) keeps_seq_nil)
  · exact keeps_act fun _ => keeps_look fun _ => keepsReg_wrFld (hpwr0 rfl) _ _ _
  · obtain ⟨h2, h3⟩ := hpwr1 rfl
    exact keeps_look fun _ => keeps_seq_cons (keepsReg_setLevel h2 h3 8 _) (keeps_seq_cons (keepsReg_setLevel h2 h3 9 _) keeps_seq_nil)
  · exact keeps_nop

/-- The pages whose blocks hold nothing beyond their registers, by number: MGT_ 4, SEC_ 0, PWR_ 0 and 1, MIG_ 0 and SNAP_. -/
def plainBlock (p : Nat) : Option Block :=
  if p = 4 then some (.mgt 4) else if p = 8 then some (.sec 0) else if p = 12 then some (.pwr 0) else if p = 13 then some (.pwr 1)
  else if p = 0x140 then some (.mig 0) else if p = 0x1C0 then some .snap else none

theorem blockOf_plainBlock {p : Nat} {b : Block} (h : plainBlock p = some b) (s : State) : blockOf s p = b := by
  unfold plainBlock at h
  split_ifs at h with h1 h2 h3 h4 h5 h6 <;> (obtain rfl := Option.some.inj h; subst p; rfl)

/-- The reset of a page without state beyond its registers, in order: its words, the words that show what lies outside, rst_busy. -/
theorem after_actBlkReset_plain {s : State} {p : Nat} {b : Block} (hb : plainBlock p = some b) (hp : Takes s p) :
    after (actBlkReset .ringCtl p) s = after (wrBit (4096 * p + 0x14) 1 true)
      (after (keepShown b (4096 * p) s) ((Upd.ctlReset (4096 * p) (4096 * p + 0x1000)).apply s)) := by
  have hblock := blockOf_plainBlock hb s
  have hsite : b.coreSite = none := by
    unfold plainBlock at hb
    split_ifs at hb <;> (obtain rfl := Option.some.inj hb; rfl)
  have hreset : pageReset b (4096 * p) = look fun _ => one (.ctlReset (4096 * p) (4096 * p + 0x1000)) := by
    unfold plainBlock at hb
    split_ifs at hb <;> (obtain rfl := Option.some.inj hb; rfl)
  have hcore : coreReset b = nop := by
    unfold plainBlock at hb
    split_ifs at hb <;> (obtain rfl := Option.some.inj hb; rfl)
  rw [after_actBlkReset hp (by simp [hblock, hsite]), hblock, after_seq_cons, after_seq_cons, after_seq_cons, after_seq_cons, after_seq_cons,
    after_seq_nil, hreset, hcore, after_look, after_one, hsite, after_nop, after_nop]

/-- A word of such a page, not one that its levels rule, is at its reset value afterwards, sticky bits aside. -/
theorem rd_after_actBlkReset {s : State} (hs : Ready s) {p a o : Nat} {b : Block} (hb : plainBlock p = some b) (hp : Takes s p)
    (ha : a = 4096 * p + o) (ho : o < 4096) (hstat : o ≠ 0x14) (hshown : o ∉ shownWords b)
    (hlevel : p = 4 ∨ p = 8 ∨ p = 0x1C0 ∨ (o ≠ 0x20 ∧ o ≠ 0x10C)) :
    rd (after (actBlkReset .ringCtl p) s) a = resetKept s a := by
  have hrange : 4096 * p ≤ a ∧ a < 4096 * p + 0x1000 := by omega
  have hkeep : KeepsReg a (keepShown b (4096 * p) s) := by
    refine keepsReg_keepShown (fun q hq e => hshown ?_) s ?_ ?_ ?_
    · rwa [show o = q by omega]
    all_goals
      rintro rfl
      unfold plainBlock at hb
      split_ifs at hb <;> cases hb
      simp only [shownWords, List.mem_cons, List.not_mem_nil, or_false, not_or] at hshown
      simp only [migPage, pwrPage]
      omega
  rw [after_actBlkReset_plain hb hp, (keepsReg_wrBit (by omega) _ _).rd, hkeep.rd, rd_ctlReset (wf_ctl hs.2), if_pos hrange]

/-- The words of every other page stay. -/
theorem rd_after_actBlkReset_other {s : State} (hs : Ready s) {p a : Nat} {b : Block} (hb : plainBlock p = some b) (hp : Takes s p)
    (ha : a / 4096 ≠ p) : rd (after (actBlkReset .ringCtl p) s) a = rd s a := by
  have hrange : ¬ (4096 * p ≤ a ∧ a < 4096 * p + 0x1000) := by omega
  have hkeep : KeepsReg a (keepShown b (4096 * p) s) := by
    have hlt : ∀ o ∈ shownWords b, o < 4096 := by
      unfold plainBlock at hb
      split_ifs at hb <;> (obtain rfl := Option.some.inj hb; decide)
    refine keepsReg_keepShown (fun q hq e => ?_) s ?_ ?_ ?_
    · have := hlt q hq
      omega
    all_goals
      rintro rfl
      unfold plainBlock at hb
      split_ifs at hb <;> cases hb
      simp only [migPage, pwrPage]
      omega
  rw [after_actBlkReset_plain hb hp, (keepsReg_wrBit (by omega) _ _).rd, hkeep.rd, rd_ctlReset (wf_ctl hs.2), if_neg hrange]

theorem onlyIn_actBlkReset_plain {s : State} {p : Nat} {b : Block} (hb : plainBlock p = some b) (hp : Takes s p) :
    OnlyIn [.ctl] s (after (actBlkReset .ringCtl p) s) := by
  rw [after_actBlkReset_plain hb hp]
  exact ((onlyIn_apply (.ctlReset _ _) s).trans ((within_keepShown ..).onlyIn _)).trans ((within_wrBit ..).onlyIn _)

/-! ## Writes of BLK_CTRL and BLK_ISET -/

/-- What a register write of the ring controller does in a page that takes it. -/
theorem after_ctlWrite_ring {s : State} {p a : Nat} (hp : Takes s p) (ha : a / 4096 = p) (v : Word) :
    after (ctlWrite .ringCtl a v) s = after (ctlEffect .ringCtl a v) s := by rw [ctlWrite, after_guarded_ring hp ha]

/-- A write of BLK_CTRL without blk_reset (R37, R42). -/
theorem after_ctlWrite_blkCtrl {s : State} {p : Nat} (hp : Takes s p) {v : Word} (hv : bit v 1 = false) :
    after (ctlWrite .ringCtl (4096 * p + 0x10) v) s = after (seq [act (bit v 3) (clearCounters (4096 * p) true),
      maskWrite (blockOf s p) (4096 * p + 0x10) v, act (bit v 2 && !fenced s (4096 * p)) (fenceSets (blockOf s p)),
      act (!bit v 2) (wrBit (4096 * p + 0x14) 2 false)]) s := by
  have e1 : (4096 * p + 0x10) / 4096 = p := by omega
  have e2 : (4096 * p + 0x10) % 4096 = 0x10 := by omega
  rw [after_ctlWrite_ring hp e1, ctlEffect, after_look]
  simp only [e1, e2, Nat.mul_comm p 4096, hp.2.1, Bool.not_false, decide_true, Bool.and_self, if_true]
  rw [blkCtrlWrite, after_look, if_neg (by rw [hv]; decide)]
  rfl

/-- A write of a header register that has no behaviour of its own goes by its type codes (R22). -/
theorem after_ctlWrite_header {s : State} {p o : Nat} (hp : Takes s p) (ho : o < 0x100) (hctrl : o ≠ 0x10) (hiset : o ≠ 0x28) (v : Word) :
    after (ctlWrite .ringCtl (4096 * p + o) v) s = after (maskWrite (blockOf s p) (4096 * p + o) v) s := by
  have e1 : (4096 * p + o) / 4096 = p := by omega
  have e2 : (4096 * p + o) % 4096 = o := by omega
  rw [after_ctlWrite_ring hp e1, ctlEffect, after_look]
  simp [e1, e2, hp.2.1, hctrl, hiset, ho]

theorem after_ctlWrite_iset {s : State} {p : Nat} (hp : Takes s p) (v : Word) :
    after (ctlWrite .ringCtl (4096 * p + 0x28) v) s =
      (Upd.ctl (4096 * p + 0x20) (rd s (4096 * p + 0x20) ||| (v &&& 0xFFFF))).apply s := by
  have e1 : (4096 * p + 0x28) / 4096 = p := by omega
  have e2 : (4096 * p + 0x28) % 4096 = 0x28 := by omega
  rw [after_ctlWrite_ring hp e1, ctlEffect, after_look]
  simp [e1, e2, hp.2.1, isetWrite, Nat.mul_comm p 4096]

/-- BLK_CTRL's definition: enable, fence and cnt_freeze are RW. -/
theorem regDef_blkCtrl {b : Block} (ha : b ≠ .absent) (hw : b.isWindow = false) : regDef b 0x10 = some ⟨0x10, 1, 4, 0x15, 0, 0, 0, 0, 0⟩ := by
  rw [regDef, hw, decide_eq_false ha, Bool.false_or, if_neg (by decide), if_pos (by decide)]
  rfl

/-- The mask write of BLK_CTRL stores fence as the write gives it. -/
theorem fenced_after_maskWrite {s : State} {p : Nat} (hp : Takes s p) (v : Word) :
    fenced (after (maskWrite (blockOf s p) (4096 * p + 0x10) v) s) (4096 * p) = bit v 2 := by
  have e2 : (4096 * p + 0x10) % 4096 = 0x10 := by omega
  rw [fenced, after_maskWrite (by rw [e2]; exact regDef_blkCtrl hp.1 hp.2.1), rd_ctl_same]
  simp only [bit_or, bit_and, bit_not, bit_ofNat]
  simp [show Nat.testBit 21 2 = true by decide]

theorem keepsReg_maskWrite {x a : Nat} (h : x ≠ a) (b : Block) (v : Word) : KeepsReg x (maskWrite b a v) := by
  refine keeps_look fun s => ?_
  split
  · exact keeps_nop
  · exact keepsReg_wr h _

/-! ## Fences (R37) -/

/-- A write of BLK_CTRL that sets fence, in a page that is not fenced. -/
theorem after_ctlWrite_fence {s : State} {p : Nat} (hp : Takes s p) {v : Word} (h1 : bit v 1 = false) (h3 : bit v 3 = false) :
    after (ctlWrite .ringCtl (4096 * p + 0x10) (v ||| 4)) s =
      after (fenceSets (blockOf s p)) (after (maskWrite (blockOf s p) (4096 * p + 0x10) (v ||| 4)) s) := by
  have hb (i : Nat) : bit (v ||| 4) i = (bit v i || bit (4 : Word) i) := bit_or ..
  have hf : fenced s (4096 * p) = false := hp.2.2.2
  rw [after_ctlWrite_blkCtrl hp (by rw [hb, h1]; decide)]
  simp only [hb, h3, hf, show bit (4 : Word) 2 = true by decide, show bit (4 : Word) 3 = false by decide, after_seq_cons, after_seq_nil,
    after_act, Bool.or_true, Bool.or_false, Bool.not_false, Bool.not_true, Bool.and_self, if_true, if_false, Bool.false_eq_true]

/-- What sets in with the fence leaves BLK_CTRL of every page. -/
theorem keepsReg_fenceSets (b : Block) (p : Nat) : KeepsReg (4096 * p + 0x10) (fenceSets b) := by
  unfold fenceSets
  split
  · exact (within_abandonDwq _).keepsReg _
  · refine keeps_seq_cons (keeps_seq_cons ((within_withdrawSite _).keepsReg _) (keeps_seq_cons (keepsReg_count ?_ ?_ ?_ 1) keeps_seq_nil))
      (keeps_seq_cons (keepsReg_wr ?_ 1) keeps_seq_nil) <;> (unfold fabGPage; omega)
  · exact keeps_nop

/-- Outside the router and cube pages the fence is the bit alone. -/
theorem fenceSets_plain {b : Block} (hfab : ∀ c, b ≠ .fab c) (hcube : ∀ c, b ≠ .cube c) : fenceSets b = nop := by
  cases b
  case fab c => exact absurd rfl (hfab c)
  case cube c => exact absurd rfl (hcube c)
  all_goals rfl

/-- Which blocks there are depends on the fuses, the straps and the virtual functions alone. -/
theorem blockOf_within {ps : List Part} {a : Act} (h : Within ps a) (s : State) (p : Nat) (hf : ps.contains .fuses = false := by rfl)
    (hs : ps.contains .straps = false := by rfl) (hv : ps.contains .numVfs = false := by rfl) : blockOf (after a s) p = blockOf s p := by
  have e1 := h.keeps (·.fuses) keeps_fuses hf s
  have e2 := h.keeps (·.straps) keeps_straps hs s
  have e3 := h.keeps (·.numVfs) keeps_numVfs hv s
  have hcore : coreEn (after a s) = coreEn s := by funext c; rw [coreEn, coreEn, e1]
  have hrtr : rtrEn (after a s) = rtrEn s := by funext c; rw [rtrEn, rtrEn, e1]
  have hports : hpPorts (after a s) = hpPorts s := by rw [hpPorts, hpPorts, e2]
  have hfn : fnExists (after a s) = fnExists s := by funext f; rw [fnExists, fnExists, e3, hports]
  simp only [blockOf, hcore, hrtr, hports, hfn]

/-- Only memory ports do something as they report fenced, the pages of cores aside. -/
theorem within_fenceEnds_ring {b : Block} (hb : b.coreSite = none) :
    Within [.ctl, .mem, .chk, .mergeBuf, .dumpRun, .freeCtr] (fenceEnds b) := by
  refine within_look fun s => ?_
  cases b
  case mp n => exact within_each fun m => within_retireMerge m
  case tly | core => cases hb
  all_goals exact within_nop

/-- A block of the ring reports fenced once it has drained; no herd parks with it. -/
theorem after_blkFenced_ring {s : State} {p : Nat} (habsent : blockOf s p ≠ .absent) (hwindow : (blockOf s p).isWindow = false)
    (hsite : (blockOf s p).coreSite = none) (hf : fenced s (4096 * p) = true) (hnf : isFenced s (4096 * p) = false)
    (hdrained : blockDrained s (blockOf s p) = true) {t : State}
    (ht : t = after (seq [fenceEnds (blockOf s p), wrBit (4096 * p + 0x14) 2 true]) s) (hblock : blockOf t p = blockOf s p) :
    after (seq [actBlkFenced p, finishParkAt p]) s = t := by
  have e : after (actBlkFenced p) s = t := by
    rw [actBlkFenced, after_look]
    dsimp only
    rw [decide_eq_true habsent, hwindow, hf, hnf, hdrained, Bool.not_false, Bool.and_self, Bool.and_self,
      Bool.and_self, Bool.and_self, after_act, if_pos rfl, ht]
  rw [after_seq_cons, after_seq_cons, after_seq_nil, e, finishParkAt, after_look, hblock, hsite]
  rfl

/-! ## Counter slots (R42) -/

theorem keepsReg_clearCounters {x p : Nat} (h : ∀ k < 8, x ≠ p + 0x80 + 8 * k ∧ x ≠ p + 0x84 + 8 * k) (b : Bool) :
    KeepsReg x (clearCounters p b) :=
  keeps_each fun k hk => keeps_act fun _ => keeps_seq_cons (keepsReg_wr (h k (List.mem_range.mp hk)).1 _)
    (keeps_seq_cons (keepsReg_wr (h k (List.mem_range.mp hk)).2 _) keeps_seq_nil)

/-- The ring controller's clear returns all eight slots to 0. -/
theorem rd_after_clearCounters (s : State) (p : Nat) {k : Nat} (hk : k < 8) :
    rd (after (clearCounters p true) s) (p + 0x80 + 8 * k) = 0 ∧ rd (after (clearCounters p true) s) (p + 0x84 + 8 * k) = 0 := by
  have hset (k : Nat) (s : State) (x : Nat) (hx : x = p + 0x80 + 8 * k ∨ x = p + 0x84 + 8 * k) :
      rd (after (act (true || !isErrSlot p k) (seq [wr (p + 0x80 + 8 * k) 0, wr (p + 0x84 + 8 * k) 0])) s) x = 0 := by
    rw [Bool.true_or, after_act, if_pos rfl, after_seq_cons, after_seq_cons, after_seq_nil]
    rcases hx with rfl | rfl
    · rw [(keepsReg_wr (by omega) _).rd, rd_after_wr]
    · rw [rd_after_wr]
  have hkeep (j x : Nat) (hx : x ≠ p + 0x80 + 8 * j ∧ x ≠ p + 0x84 + 8 * j) :
      KeepsReg x (act (true || !isErrSlot p j) (seq [wr (p + 0x80 + 8 * j) 0, wr (p + 0x84 + 8 * j) 0])) :=
    keeps_act fun _ => keeps_seq_cons (keepsReg_wr hx.1 _) (keeps_seq_cons (keepsReg_wr hx.2 _) keeps_seq_nil)
  have hall (x : Nat) (hx : x = p + 0x80 + 8 * k ∨ x = p + 0x84 + 8 * k) : rd (after (clearCounters p true) s) x = 0 := by
    refine after_each_sets (f := (rd · x)) (List.mem_range.mpr hk) (fun s => hset k s x hx) (fun j _ => ?_) s
    by_cases hj : j = k
    · exact .inl fun s => hset j s x (hj ▸ hx)
    · exact .inr (hkeep j x (by omega))
  exact ⟨hall _ (.inl rfl), hall _ (.inr rfl)⟩

/-- Settles O6: each command is a guarded write of the page's header; what it does to the page's words follows from the lemmas above, and
its frame from the acts. -/
theorem blockControls : Obligations.BlockControls := by
  unfold Obligations.BlockControls
  refine ⟨?_, ⟨?_, ?_, ?_⟩, ?_, ⟨?_, ?_, ?_⟩, ?_⟩
  · intro s hs p o v d off hp ho ha hctrl hiset hoff hd
    have e2 : (4096 * p.val + o) % 4096 = o := by omega
    refine (run_powered hs.1).trans (congrArg _ ?_)
    rw [after_actRegisterWrite_word rfl (by omega), hoff, after_ctlWrite_header hp ho hctrl hiset, after_maskWrite (by rw [e2]; exact hd)]
  · exact fun s hs p hp hc => ⟨_, run_powered hs.1, rstBusy_after_actBlkReset hp hc⟩
  · intro s hs p hp hpage
    obtain ⟨b, hb⟩ : ∃ b, plainBlock p.val = some b := by
      rcases hpage with h | h | h | h | h | h <;> rw [h] <;> exact ⟨_, rfl⟩
    refine does_of_run hs.1 rfl (onlyIn_actBlkReset_plain hb hp) ⟨?_, fun a ha => rd_after_actBlkReset_other hs hb hp ha⟩
    intro a o ha ho hstat hshown hlevel
    exact rd_after_actBlkReset hs hb hp ha ho hstat (by rwa [blockOf_plainBlock hb] at hshown) hlevel
  · intro s hs p hbusy
    have e : after (actBlkResetDone p.val) s = after (wrBit (4096 * p.val + 0x14) 1 false) s := by
      rw [actBlkResetDone, after_look, after_act, if_pos hbusy]
    refine does_of_run hs.1 rfl ?_ ?_ <;> rw [e]
    · exact (within_wrBit ..).onlyIn s
    · exact ⟨rstBusy_after_wrBit .., fun a ha => (keepsReg_wrBit ha _ _).rd s⟩
  · intro s hs p v hp h1 h2
    have hb (i : Nat) : bit (v ||| 8) i = (bit v i || bit (8 : Word) i) := bit_or ..
    have e : after (actCntClr .ringCtl p.val v) s = after (seq [clearCounters (4096 * p.val) true,
        maskWrite (blockOf s p.val) (4096 * p.val + 0x10) (v ||| 8), wrBit (4096 * p.val + 0x14) 2 false]) s := by
      rw [actCntClr, after_ctlWrite_blkCtrl hp (by rw [hb, h1]; decide)]
      simp only [hb, h2, show bit (8 : Word) 2 = false by decide, show bit (8 : Word) 3 = true by decide, after_seq_cons, after_seq_nil,
        after_act, Bool.or_true, Bool.or_false, Bool.false_and, Bool.not_false, if_true, if_false, Bool.false_eq_true]
    have hw : Within [.ctl] (seq [clearCounters (4096 * p.val) true, maskWrite (blockOf s p.val) (4096 * p.val + 0x10) (v ||| 8),
        wrBit (4096 * p.val + 0x14) 2 false]) :=
      within_seq_cons (within_clearCounters ..) (within_seq_cons (within_maskWrite ..) (within_seq_cons (within_wrBit ..) within_seq_nil))
    refine does_of_run hs.1 rfl ?_ ?_ <;> rw [e]
    · exact hw.onlyIn s
    · rw [after_seq_cons, after_seq_cons, after_seq_cons, after_seq_nil]
      refine ⟨fun k hk => ?_, fun a ha => ?_⟩
      · obtain ⟨hlo, hhi⟩ := rd_after_clearCounters s (4096 * p.val) hk
        rw [(keepsReg_wrBit (by omega) _ _).rd, (keepsReg_maskWrite (by omega) _ _).rd, (keepsReg_wrBit (by omega) _ _).rd,
          (keepsReg_maskWrite (by omega) _ _).rd]
        exact ⟨hlo, hhi⟩
      · rw [(keepsReg_wrBit (by omega) _ _).rd, (keepsReg_maskWrite (by omega) _ _).rd, (keepsReg_clearCounters (by omega) _).rd]
  · intro s hs p v hp h1 h3
    refine ⟨_, run_powered hs.1, ?_⟩
    rw [actBlkFence, after_ctlWrite_fence hp h1 h3]
    rw [fenced, (keepsReg_fenceSets _ _).rd]
    exact (fenced_after_maskWrite hp _).trans (by rw [bit_or]; exact Bool.or_true _)
  · intro s hs p v hp h1 h3 hfab hcube
    have e : after (actBlkFence .ringCtl p.val v) s = after (maskWrite (blockOf s p.val) (4096 * p.val + 0x10) (v ||| 4)) s := by
      rw [actBlkFence, after_ctlWrite_fence hp h1 h3, fenceSets_plain hfab hcube, after_nop]
    refine does_of_run hs.1 rfl ?_ ?_ <;> rw [e]
    · exact (within_maskWrite ..).onlyIn s
    · exact ⟨by rw [fenced_after_maskWrite hp, bit_or, show bit (4 : Word) 2 = true by decide, Bool.or_true],
        fun a ha => (keepsReg_maskWrite ha _ _).rd s⟩
  · intro s hs p habsent hwindow hsite hf hnf hdrained
    have hw : Within [.ctl, .mem, .chk, .mergeBuf, .dumpRun, .freeCtr]
        (seq [fenceEnds (blockOf s p.val), wrBit (4096 * p.val + 0x14) 2 true]) :=
      within_seq_cons (within_fenceEnds_ring hsite) (within_seq_cons ((within_wrBit ..).wider rfl) within_seq_nil)
    have e := after_blkFenced_ring habsent hwindow hsite hf hnf hdrained rfl (blockOf_within hw s p.val)
    refine does_of_run hs.1 rfl ?_ ?_ <;> rw [e]
    · exact hw.onlyIn s
    · rw [after_seq_cons, after_seq_cons, after_seq_nil, isFenced, after_wrBit, rd_ctl_same, bit_setBit_same _ (by decide)]
  · intro s hs p v hp
    refine does_of_run hs.1 rfl ?_ ?_ <;> rw [actBlkIset, after_ctlWrite_iset hp]
    · exact onlyIn_apply (.ctl ..) s
    · exact ⟨rd_ctl_same .., fun a ha => rd_ctl_other s ha _⟩

end Sys2Proof.Machine
end

section
/-! What an act that does not name a field leaves of it: for each field of the state the fact that its proofs cite, and for what is read
through a field. -/

namespace Sys2Proof.Machine

-- One declaration after the other: elaborated side by side they take more memory than the check has.
set_option Elab.async false

section

variable {ps : List Part} {a : Act}

theorem Within.power (h : Within ps a) (s : State) (hp : ps.contains .power = false := by rfl) : (after a s).power = s.power :=
  h.keeps (·.power) keeps_power hp s

theorem Within.straps (h : Within ps a) (s : State) (hp : ps.contains .straps = false := by rfl) : (after a s).straps = s.straps :=
  h.keeps (·.straps) keeps_straps hp s

theorem Within.fuses (h : Within ps a) (s : State) (hp : ps.contains .fuses = false := by rfl) : (after a s).fuses = s.fuses :=
  h.keeps (·.fuses) keeps_fuses hp s

theorem Within.withdrawn (h : Within ps a) (s : State) (hp : ps.contains .withdrawn = false := by rfl) : (after a s).withdrawn = s.withdrawn :=
  h.keeps (·.withdrawn) keeps_withdrawn hp s

theorem Within.ctl (h : Within ps a) (s : State) (hp : ps.contains .ctl = false := by rfl) : (after a s).ctl = s.ctl :=
  h.keeps (·.ctl) keeps_ctl hp s

theorem Within.store (h : Within ps a) (s : State) (hp : ps.contains .store = false := by rfl) : (after a s).store = s.store :=
  h.keeps (·.store) keeps_store hp s

theorem Within.rod (h : Within ps a) (s : State) (hp : ps.contains .rod = false := by rfl) : (after a s).rod = s.rod :=
  h.keeps (·.rod) keeps_rod hp s

theorem Within.storeBad (h : Within ps a) (s : State) (hp : ps.contains .storeBad = false := by rfl) : (after a s).storeBad = s.storeBad :=
  h.keeps (·.storeBad) keeps_storeBad hp s

theorem Within.rodBad (h : Within ps a) (s : State) (hp : ps.contains .rodBad = false := by rfl) : (after a s).rodBad = s.rodBad :=
  h.keeps (·.rodBad) keeps_rodBad hp s

theorem Within.vreg (h : Within ps a) (s : State) (hp : ps.contains .vreg = false := by rfl) : (after a s).vreg = s.vreg :=
  h.keeps (·.vreg) keeps_vreg hp s

theorem Within.acc (h : Within ps a) (s : State) (hp : ps.contains .acc = false := by rfl) : (after a s).acc = s.acc :=
  h.keeps (·.acc) keeps_acc hp s

theorem Within.core (h : Within ps a) (s : State) (hp : ps.contains .core = false := by rfl) : (after a s).core = s.core :=
  h.keeps (·.core) keeps_core hp s

theorem Within.memory (h : Within ps a) (s : State) (hp : ps.contains .mem = false := by rfl) : (after a s).mem = s.mem :=
  h.keeps (·.mem) keeps_mem hp s

theorem Within.chk (h : Within ps a) (s : State) (hp : ps.contains .chk = false := by rfl) : (after a s).chk = s.chk :=
  h.keeps (·.chk) keeps_chk hp s

theorem Within.farMem (h : Within ps a) (s : State) (hp : ps.contains .farMem = false := by rfl) : (after a s).farMem = s.farMem :=
  h.keeps (·.farMem) keeps_farMem hp s

theorem Within.packets (h : Within ps a) (s : State) (hp : ps.contains .packets = false := by rfl) : (after a s).packets = s.packets :=
  h.keeps (·.packets) keeps_packets hp s

theorem Within.lastGrant (h : Within ps a) (s : State) (hp : ps.contains .lastGrant = false := by rfl) : (after a s).lastGrant = s.lastGrant :=
  h.keeps (·.lastGrant) keeps_lastGrant hp s

theorem Within.bulkOpen (h : Within ps a) (s : State) (hp : ps.contains .bulkOpen = false := by rfl) : (after a s).bulkOpen = s.bulkOpen :=
  h.keeps (·.bulkOpen) keeps_bulkOpen hp s

theorem Within.bulkPend (h : Within ps a) (s : State) (hp : ps.contains .bulkPend = false := by rfl) : (after a s).bulkPend = s.bulkPend :=
  h.keeps (·.bulkPend) keeps_bulkPend hp s

theorem Within.mesh (h : Within ps a) (s : State) (hp : ps.contains .mesh = false := by rfl) : (after a s).mesh = s.mesh :=
  h.keeps (·.mesh) keeps_mesh hp s

theorem Within.merges (h : Within ps a) (s : State) (hp : ps.contains .merges = false := by rfl) : (after a s).merges = s.merges :=
  h.keeps (·.merges) keeps_merges hp s

theorem Within.prog (h : Within ps a) (s : State) (hp : ps.contains .prog = false := by rfl) : (after a s).prog = s.prog :=
  h.keeps (·.prog) keeps_prog hp s

theorem Within.progPend (h : Within ps a) (s : State) (hp : ps.contains .progPend = false := by rfl) : (after a s).progPend = s.progPend :=
  h.keeps (·.progPend) keeps_progPend hp s

theorem Within.desc (h : Within ps a) (s : State) (hp : ps.contains .desc = false := by rfl) : (after a s).desc = s.desc :=
  h.keeps (·.desc) keeps_desc hp s

theorem Within.evalDue (h : Within ps a) (s : State) (hp : ps.contains .evalDue = false := by rfl) : (after a s).evalDue = s.evalDue :=
  h.keeps (·.evalDue) keeps_evalDue hp s

theorem Within.ringFail (h : Within ps a) (s : State) (hp : ps.contains .ringFail = false := by rfl) : (after a s).ringFail = s.ringFail :=
  h.keeps (·.ringFail) keeps_ringFail hp s

theorem Within.lastTaken (h : Within ps a) (s : State) (hp : ps.contains .lastTaken = false := by rfl) : (after a s).lastTaken = s.lastTaken :=
  h.keeps (·.lastTaken) keeps_lastTaken hp s

theorem Within.herd (h : Within ps a) (s : State) (hp : ps.contains .herd = false := by rfl) : (after a s).herd = s.herd :=
  h.keeps (·.herd) keeps_herd hp s

theorem Within.extent (h : Within ps a) (s : State) (hp : ps.contains .extent = false := by rfl) : (after a s).extent = s.extent :=
  h.keeps (·.extent) keeps_extent hp s

theorem Within.ssetOwner (h : Within ps a) (s : State) (hp : ps.contains .ssetOwner = false := by rfl) : (after a s).ssetOwner = s.ssetOwner :=
  h.keeps (·.ssetOwner) keeps_ssetOwner hp s

theorem Within.moves (h : Within ps a) (s : State) (hp : ps.contains .moves = false := by rfl) : (after a s).moves = s.moves :=
  h.keeps (·.moves) keeps_moves hp s

theorem Within.moveTurn (h : Within ps a) (s : State) (hp : ps.contains .moveTurn = false := by rfl) : (after a s).moveTurn = s.moveTurn :=
  h.keeps (·.moveTurn) keeps_moveTurn hp s

theorem Within.touched (h : Within ps a) (s : State) (hp : ps.contains .touched = false := by rfl) : (after a s).touched = s.touched :=
  h.keeps (·.touched) keeps_touched hp s

theorem Within.mergeBuf (h : Within ps a) (s : State) (hp : ps.contains .mergeBuf = false := by rfl) : (after a s).mergeBuf = s.mergeBuf :=
  h.keeps (·.mergeBuf) keeps_mergeBuf hp s

theorem Within.bx (h : Within ps a) (s : State) (hp : ps.contains .bx = false := by rfl) : (after a s).bx = s.bx :=
  h.keeps (·.bx) keeps_bx hp s

theorem Within.side (h : Within ps a) (s : State) (hp : ps.contains .side = false := by rfl) : (after a s).side = s.side :=
  h.keeps (·.side) keeps_side hp s

theorem Within.hcmd (h : Within ps a) (s : State) (hp : ps.contains .hcmd = false := by rfl) : (after a s).hcmd = s.hcmd :=
  h.keeps (·.hcmd) keeps_hcmd hp s

theorem Within.htag (h : Within ps a) (s : State) (hp : ps.contains .htag = false := by rfl) : (after a s).htag = s.htag :=
  h.keeps (·.htag) keeps_htag hp s

theorem Within.coll (h : Within ps a) (s : State) (hp : ps.contains .coll = false := by rfl) : (after a s).coll = s.coll :=
  h.keeps (·.coll) keeps_coll hp s

theorem Within.mc (h : Within ps a) (s : State) (hp : ps.contains .mc = false := by rfl) : (after a s).mc = s.mc :=
  h.keeps (·.mc) keeps_mc hp s

theorem Within.aborts (h : Within ps a) (s : State) (hp : ps.contains .aborts = false := by rfl) : (after a s).aborts = s.aborts :=
  h.keeps (·.aborts) keeps_aborts hp s

theorem Within.ended (h : Within ps a) (s : State) (hp : ps.contains .ended = false := by rfl) : (after a s).ended = s.ended :=
  h.keeps (·.ended) keeps_ended hp s

theorem Within.cable (h : Within ps a) (s : State) (hp : ps.contains .cable = false := by rfl) : (after a s).cable = s.cable :=
  h.keeps (·.cable) keeps_cable hp s

theorem Within.numVfs (h : Within ps a) (s : State) (hp : ps.contains .numVfs = false := by rfl) : (after a s).numVfs = s.numVfs :=
  h.keeps (·.numVfs) keeps_numVfs hp s

theorem Within.bar2Log (h : Within ps a) (s : State) (hp : ps.contains .bar2Log = false := by rfl) : (after a s).bar2Log = s.bar2Log :=
  h.keeps (·.bar2Log) keeps_bar2Log hp s

theorem Within.busyRing (h : Within ps a) (s : State) (hp : ps.contains .busyRing = false := by rfl) : (after a s).busyRing = s.busyRing :=
  h.keeps (·.busyRing) keeps_busyRing hp s

theorem Within.phase (h : Within ps a) (s : State) (hp : ps.contains .phase = false := by rfl) : (after a s).phase = s.phase :=
  h.keeps (·.phase) keeps_phase hp s

theorem Within.completions (h : Within ps a) (s : State) (hp : ps.contains .completions = false := by rfl) : (after a s).completions = s.completions :=
  h.keeps (·.completions) keeps_completions hp s

theorem Within.notices (h : Within ps a) (s : State) (hp : ps.contains .notices = false := by rfl) : (after a s).notices = s.notices :=
  h.keeps (·.notices) keeps_notices hp s

theorem Within.fnTurn (h : Within ps a) (s : State) (hp : ps.contains .fnTurn = false := by rfl) : (after a s).fnTurn = s.fnTurn :=
  h.keeps (·.fnTurn) keeps_fnTurn hp s

theorem Within.hpTurn (h : Within ps a) (s : State) (hp : ps.contains .hpTurn = false := by rfl) : (after a s).hpTurn = s.hpTurn :=
  h.keeps (·.hpTurn) keeps_hpTurn hp s

theorem Within.hpUsed (h : Within ps a) (s : State) (hp : ps.contains .hpUsed = false := by rfl) : (after a s).hpUsed = s.hpUsed :=
  h.keeps (·.hpUsed) keeps_hpUsed hp s

theorem Within.perst (h : Within ps a) (s : State) (hp : ps.contains .perst = false := by rfl) : (after a s).perst = s.perst :=
  h.keeps (·.perst) keeps_perst hp s

theorem Within.snap (h : Within ps a) (s : State) (hp : ps.contains .snap = false := by rfl) : (after a s).snap = s.snap :=
  h.keeps (·.snap) keeps_snap hp s

theorem Within.spares (h : Within ps a) (s : State) (hp : ps.contains .spares = false := by rfl) : (after a s).spares = s.spares :=
  h.keeps (·.spares) keeps_spares hp s

theorem Within.dumpRun (h : Within ps a) (s : State) (hp : ps.contains .dumpRun = false := by rfl) : (after a s).dumpRun = s.dumpRun :=
  h.keeps (·.dumpRun) keeps_dumpRun hp s

theorem Within.flash (h : Within ps a) (s : State) (hp : ps.contains .flash = false := by rfl) : (after a s).flash = s.flash :=
  h.keeps (·.flash) keeps_flash hp s

theorem Within.fwHeader (h : Within ps a) (s : State) (hp : ps.contains .fwHeader = false := by rfl) : (after a s).fwHeader = s.fwHeader :=
  h.keeps (·.fwHeader) keeps_fwHeader hp s

theorem Within.wdtArmed (h : Within ps a) (s : State) (hp : ps.contains .wdtArmed = false := by rfl) : (after a s).wdtArmed = s.wdtArmed :=
  h.keeps (·.wdtArmed) keeps_wdtArmed hp s

theorem Within.rstPend (h : Within ps a) (s : State) (hp : ps.contains .rstPend = false := by rfl) : (after a s).rstPend = s.rstPend :=
  h.keeps (·.rstPend) keeps_rstPend hp s

theorem Within.mgmt (h : Within ps a) (s : State) (hp : ps.contains .mgmt = false := by rfl) : (after a s).mgmt = s.mgmt :=
  h.keeps (·.mgmt) keeps_mgmt hp s

theorem Within.evQueue (h : Within ps a) (s : State) (hp : ps.contains .evQueue = false := by rfl) : (after a s).evQueue = s.evQueue :=
  h.keeps (·.evQueue) keeps_evQueue hp s

theorem Within.lastCorr (h : Within ps a) (s : State) (hp : ps.contains .lastCorr = false := by rfl) : (after a s).lastCorr = s.lastCorr :=
  h.keeps (·.lastCorr) keeps_lastCorr hp s

theorem Within.coalesced (h : Within ps a) (s : State) (hp : ps.contains .coalesced = false := by rfl) : (after a s).coalesced = s.coalesced :=
  h.keeps (·.coalesced) keeps_coalesced hp s

theorem Within.searches (h : Within ps a) (s : State) (hp : ps.contains .searches = false := by rfl) : (after a s).searches = s.searches :=
  h.keeps (·.searches) keeps_searches hp s

theorem Within.capRun (h : Within ps a) (s : State) (hp : ps.contains .capRun = false := by rfl) : (after a s).capRun = s.capRun :=
  h.keeps (·.capRun) keeps_capRun hp s

theorem Within.freeCtr (h : Within ps a) (s : State) (hp : ps.contains .freeCtr = false := by rfl) : (after a s).freeCtr = s.freeCtr :=
  h.keeps (·.freeCtr) keeps_freeCtr hp s

theorem Within.out (h : Within ps a) (s : State) (hp : ps.contains .out = false := by rfl) : (after a s).out = s.out :=
  h.keeps (·.out) keeps_out hp s

theorem Within.rd (h : Within ps a) (s : State) (x : Nat) (hp : ps.contains .ctl = false := by rfl) :
    Machine.rd (after a s) x = Machine.rd s x := by
  rw [Machine.rd, Machine.rd, h.ctl s hp]

theorem Within.coreX (h : Within ps a) (s : State) (c : Nat) (hp : ps.contains .core = false := by rfl) :
    Machine.coreX (after a s) c = Machine.coreX s c := by
  rw [Machine.coreX, Machine.coreX, h.core s hp]

theorem Within.herdOf (h : Within ps a) (s : State) (n : Nat) (hp : ps.contains .herd = false := by rfl) :
    Machine.herdOf (after a s) n = Machine.herdOf s n := by
  rw [Machine.herdOf, Machine.herdOf, h.herd s hp]

theorem Within.stGet (h : Within ps a) (s : State) (c n : Nat) (hp : ps.contains .store = false := by rfl) :
    Machine.stGet (after a s) c n = Machine.stGet s c n := by
  rw [Machine.stGet, Machine.stGet, h.store s hp]

theorem Within.stVerdict (h : Within ps a) (s : State) (c n : Nat) (f : Cell) (hp : ps.contains .storeBad = false := by rfl) :
    Machine.stVerdict (after a s) c n f = Machine.stVerdict s c n f := by
  rw [Machine.stVerdict, Machine.stVerdict, h.storeBad s hp]

theorem Within.powered (h : Within ps a) (s : State) (hp : ps.contains .power = false := by rfl) :
    Machine.powered (after a s) = Machine.powered s := by
  rw [Machine.powered, Machine.powered, h.power s hp]

theorem Within.keepsCore (h : Within ps a) {β : Type} (g : CoreX → β) (c : Nat) (hp : ps.contains .core = false := by rfl) :
    Keeps (fun s => g (Machine.coreX s c)) a := ⟨fun s => congrArg g (h.coreX s c hp)⟩

end

/-- What a change of one core's data leaves of every core's. -/
theorem keeps_setCore {β : Type} (g : CoreX → β) {f : CoreX → CoreX} (c d : Nat) (hf : ∀ x, g (f x) = g x := by exact fun _ => rfl) :
    Keeps (fun s => g (coreX s c)) (setCore d f) := by
  refine ⟨fun s => ?_⟩
  rw [coreX_setCore]
  split
  case isTrue h => rw [hf, h]
  case isFalse => rfl

end Sys2Proof.Machine
end

section
/-! The mesh: packets enter, are granted and move on (R63 to R68, R74, R75), grow older (R66), and reach the core (R79, R84, R147). -/

namespace Sys2Proof.Machine

-- One declaration after the other: elaborated side by side they take more memory than the check has.
set_option Elab.async false

/-! ## Moving a packet -/

theorem packets_after_movePacket (i : Nat) (q : Option Packet) (s : State) :
    (after (movePacket i q) s).packets = s.packets.eraseIdx i ++ q.toList := rfl

theorem outside_of_competes {q : Packet} (h : competes q = true) : outside q = false := by
  simp only [competes, outside, decide_eq_true_eq, decide_eq_false_iff_not] at h ⊢
  omega

theorem not_competes_of_outside {q : Packet} (h : outside q = true) : competes q = false := by
  simp only [competes, outside, decide_eq_true_eq, decide_eq_false_iff_not] at h ⊢
  omega

/-- A packet that waits outside enters where it may. -/
theorem after_actRouterForward_outside {s : State} {i : Nat} {q : Packet} (hq : s.packets[i]? = some q) (ho : outside q = true) :
    after (actRouterForward i) s =
      if mayEnter s i q then after (movePacket i (some { q with inPort := q.inPort - 8 })) s else s := by
  rw [actRouterForward, after_look, packetAt, hq]
  simp [ho]

/-- A packet in the mesh moves where it is granted its port. -/
theorem after_actRouterForward_inside {s : State} {i : Nat} {q : Packet} (hq : s.packets[i]? = some q) (hc : competes q = true) :
    after (actRouterForward i) s = if rtrLive s q.at_ = true ∧ granted s i q (wantsPort s q) = true
      then after (seq [grantActs q (wantsPort s q), movePacket i (afterPort q (wantsPort s q))]) s else s := by
  rw [actRouterForward, after_look, packetAt, hq]
  simp [outside_of_competes hc, hc]

/-! ## The grant -/

/-- A packet that is granted its port is among the rivals for it. -/
theorem rival_of_granted {s : State} {i p : Nat} {q : Packet} (hq : s.packets[i]? = some q) (hg : granted s i q p = true) :
    (q.vc = 3 → bulkIsOpen s = true) ∧ nextTakes s q p = true := by
  simp only [granted, Bool.and_eq_true, List.any_eq_true, decide_eq_true_eq] at hg
  obtain ⟨⟨k, hk, hi⟩, -⟩ := hg
  simp only [rivals, List.mem_filter, Bool.and_eq_true, Bool.or_eq_true, decide_eq_true_eq] at hk
  obtain ⟨hmem, ⟨⟨-, hvc⟩, -⟩, hnext⟩ := hk
  have hget := List.mem_zipIdx' hmem
  have hq' : s.packets[k.2]? = some q := by rw [hi, hq]
  obtain rfl : k.1 = q := by
    rw [List.getElem?_eq_getElem hget.1] at hq'
    exact hget.2.trans (Option.some.inj hq')
  exact ⟨fun h => hvc.resolve_left (absurd h), hnext⟩

/-- While no bulk window is open no VC3 header is granted (R68). -/
theorem not_granted_of_bulkClosed {s : State} {i p : Nat} {q : Packet} (hq : s.packets[i]? = some q) (hvc : q.vc = 3)
    (hb : s.bulkOpen = []) : granted s i q p = false := by
  by_contra h
  have := (rival_of_granted hq (by simpa using h)).1 hvc
  simp [bulkIsOpen, hb] at this

/-- The port remembers which input port it granted last; the record of channels lies beyond. -/
theorem lastGrant_after_grantActs (s : State) (q : Packet) (p : Nat) :
    mGet (after (grantActs q p) s).lastGrant (5 * q.at_ + p) = some q.inPort := by
  have hvc (t : State) (ht : mGet t.lastGrant (5 * q.at_ + p) = some q.inPort) :
      mGet (after (act (decide (q.vc ≠ 0)) (one (.lastGrant (vcTurn q.at_ p q.inPort) (some q.vc)))) t).lastGrant (5 * q.at_ + p) =
        some q.inPort := by
    rw [after_act]
    split
    · rw [after_one, apply_lastGrant, mGet_mPut_other _ _ (by unfold vcTurn; omega), ht]
    · exact ht
  rw [grantActs]
  simp only [after_seq_cons, after_seq_nil]
  refine (congrArg (mGet · (5 * q.at_ + p)) (Within.lastGrant (ps := [.ctl]) ?_ _)).trans (hvc _ (mGet_mPut_same ..))
  split
  · exact within_count ..
  · exact within_nop

/-- A granted packet leaves the router, and every other stands. -/
theorem forward_granted {s : State} {i : Nat} {q : Packet} (hs : Ready s) (hq : s.packets[i]? = some q) (hc : competes q = true)
    (hl : rtrLive s q.at_ = true) (hg : granted s i q (wantsPort s q) = true) :
    Does (.routerForward i) s [.ctl, .lastGrant, .packets] fun t =>
      t.packets = s.packets.eraseIdx i ++ (afterPort q (wantsPort s q)).toList ∧
        mGet t.lastGrant (5 * q.at_ + wantsPort s q) = some q.inPort := by
  have e := after_actRouterForward_inside hq hc
  rw [if_pos ⟨hl, hg⟩] at e
  refine does_of_run hs.1 rfl (((within_actRouterForward i).wider rfl).onlyIn s) ?_
  rw [e, after_seq_cons, after_seq_cons, after_seq_nil]
  refine ⟨?_, ?_⟩
  · rw [packets_after_movePacket, (within_grantActs ..).packets]
  · rw [(within_movePacket ..).lastGrant, lastGrant_after_grantActs]

theorem Does.imp {c : Instr} {s : State} {ps : List Part} {P Q : State → Prop} (h : Does c s ps P) (hi : ∀ t, P t → Q t) :
    Does c s ps Q := by
  obtain ⟨t, he, hf, hp⟩ := h
  exact ⟨t, he, hf, hi t hp⟩

/-! ## The local port -/

/-- The first packet of its channel at its local port, as the port judges it. -/
theorem after_actLocalPortArrive {s : State} {i : Nat} {q : Packet} (hq : s.packets[i]? = some q) (h5 : q.inPort = 5)
    (hh : headsBuffer s i q = true) : after (actLocalPortArrive i) s = after (if sinkMode s q.at_ then
        seq [movePacket i none, act (fencedAnswer q.payload).isNone (count (fabPage q.at_) 3 1), answerFenced q]
      else if decide (q.src ≠ (attachOf .ringCtl).1) && decide (herdAt s q.at_ ≠ some q.herd) then
        seq [movePacket i none, count (fabPage q.at_) 4 1, raise (fabPage q.at_) { cls := .security, herd := some q.herd }, answerFenced q]
      else seq [movePacket i none, deliver q]) s := by
  rw [actLocalPortArrive, after_look, packetAt, hq]
  dsimp only
  rw [if_neg (by simp [h5, hh])]

/-- A packet of the core's herd, or of the ring controller, reaches the core. -/
theorem after_actLocalPortArrive_taken {s : State} {i : Nat} {q : Packet} (hq : s.packets[i]? = some q) (h5 : q.inPort = 5)
    (hh : headsBuffer s i q = true) (hsink : sinkMode s q.at_ = false)
    (hherd : q.src = (attachOf .ringCtl).1 ∨ herdAt s q.at_ = some q.herd) :
    after (actLocalPortArrive i) s = after (deliver q) (after (movePacket i none) s) := by
  have hno : (decide (q.src ≠ (attachOf .ringCtl).1) && decide (herdAt s q.at_ ≠ some q.herd)) = false := by
    rcases hherd with h | h <;> simp [h]
  rw [after_actLocalPortArrive hq h5 hh, hsink, if_neg (by decide), hno, if_neg (by decide), after_seq_cons, after_seq_cons, after_seq_nil]

theorem after_actLocalPortArrive_sink {s : State} {i : Nat} {q : Packet} (hq : s.packets[i]? = some q) (h5 : q.inPort = 5)
    (hh : headsBuffer s i q = true) (hsink : sinkMode s q.at_ = true) : after (actLocalPortArrive i) s =
      after (seq [movePacket i none, act (fencedAnswer q.payload).isNone (count (fabPage q.at_) 3 1), answerFenced q]) s := by
  rw [after_actLocalPortArrive hq h5 hh, hsink, if_pos rfl]

theorem after_actLocalPortArrive_foreign {s : State} {i : Nat} {q : Packet} (hq : s.packets[i]? = some q) (h5 : q.inPort = 5)
    (hh : headsBuffer s i q = true) (hsink : sinkMode s q.at_ = false) (hsrc : q.src ≠ (attachOf .ringCtl).1)
    (hherd : herdAt s q.at_ ≠ some q.herd) : after (actLocalPortArrive i) s =
      after (seq [movePacket i none, count (fabPage q.at_) 4 1, raise (fabPage q.at_) { cls := .security, herd := some q.herd },
        answerFenced q]) s := by
  rw [after_actLocalPortArrive hq h5 hh, hsink, if_neg (by decide), decide_eq_true hsrc, decide_eq_true hherd, if_pos (by decide)]

theorem packets_after_answerFenced (q : Packet) (s : State) :
    (after (answerFenced q) s).packets = s.packets ++ (fencedPacket q).toList := rfl

theorem deliver_inbox {q : Packet} (hreq : ∀ ch w d f, q.payload ≠ .movReq ch w d f) (hresp : ∀ ch a, q.payload ≠ .movResp ch a) :
    deliver q = setCore q.at_ (fun x => { x with inbox := x.inbox ++ [q.payload], inboxFrom := x.inboxFrom ++ [q.src] }) := by
  unfold deliver
  split
  case h_1 h => exact absurd h (hreq _ _ _ _)
  case h_2 h => exact absurd h (hresp _ _)
  case h_3 => rfl

/-- What the store holds once a word has been put into it. -/
theorem stGet_after_stPut (s : State) (c n : Nat) (v : BitVec 256) (d m : Nat) :
    stGet (after (stPut c n v) s) d m = if 49152 * d + m = 49152 * c + n then v else stGet s d m := by
  rw [stPut, after_seq_cons, after_seq_cons, after_seq_nil, (within_one (ps := [.storeBad]) rfl).stGet, after_one, stGet_store]

/-! ## The statement -/

theorem packets_after_sendMov_written (src dst vc herd : Nat) (ch : Fin 2) (s : State) :
    (after (sendMov src dst vc herd (.movResp ch .written)) s).packets =
      s.packets ++ [⟨src, dst, 4, vc, 0, herd, 0, src, 12, .movResp ch .written⟩] := rfl

theorem packets_after_sendMov_bad (src dst vc herd : Nat) (ch : Fin 2) (s : State) :
    (after (sendMov src dst vc herd (.movResp ch .bad)) s).packets =
      s.packets ++ [⟨src, dst, 4, vc, 0, herd, 0, src, 12, .movResp ch .bad⟩] := rfl

theorem packets_after_sendMov_word (src dst vc herd : Nat) (ch : Fin 2) (w : BitVec 256) (s : State) :
    (after (sendMov src dst vc herd (.movResp ch (.word w))) s).packets =
      s.packets ++ [⟨src, dst, 4, vc, 0, herd, 1, src, 12, .movResp ch (.word w)⟩] := rfl

theorem within_serveMov_read (q : Packet) (ch : Fin 2) (w : Nat) (found : Cell) :
    Within [.ctl, .storeBad, .packets, .dumpRun, .freeCtr] (serveMov q ch w none found) := by
  rw [serveMov]
  refine within_look fun s => ?_
  exact within_seq_cons ((within_stCount ..).wider rfl) (within_seq_cons ((within_stFound ..).wider rfl)
    (within_seq_cons ((within_sendMov ..).wider rfl) within_seq_nil))

/-- A read of a MOV.P changes neither the packets nor the word. -/
theorem packets_after_serveMov_read (s : State) (q : Packet) (ch : Fin 2) (w : Nat) (found : Cell) :
    (after (serveMov q ch w none found) s).packets = s.packets ++
      [if stVerdict s q.at_ w found = .bad then ⟨q.at_, q.src, 4, 2, 0, q.herd, 0, q.at_, 12, .movResp ch .bad⟩
        else ⟨q.at_, q.src, 4, 2, 0, q.herd, 1, q.at_, 12, .movResp ch (.word (stGet s q.at_ w))⟩] := by
  rw [serveMov, after_look]
  dsimp only
  rw [after_seq_cons, after_seq_cons, after_seq_cons, after_seq_nil]
  by_cases h : stVerdict s q.at_ w found = .bad
  · rw [if_pos h, if_pos h, packets_after_sendMov_bad, (within_stFound ..).packets, (within_stCount ..).packets]
  · rw [if_neg h, if_neg h, packets_after_sendMov_word, (within_stFound ..).packets, (within_stCount ..).packets]

/-- Settles O9: what a packet does next follows from where it stands; each case is one act. -/
theorem routersForward : Obligations.RoutersForward := by
  unfold Obligations.RoutersForward
  refine ⟨⟨?_, ?_, ?_⟩, ⟨?_, ?_⟩, ?_⟩
  · rintro s hs i p q hq hc hl rfl hg
    have hnext := (rival_of_granted hq hg).2
    have hf := forward_granted hs hq hc hl hg
    refine ⟨fun hp => hf.imp ?_, fun hp r hr => hf.imp ?_, fun hp hr => hf.imp ?_⟩
    · rintro t ⟨hpk, hgr⟩
      rw [afterPort, if_pos hp] at hpk
      rw [nextTakes, if_pos hp] at hnext
      exact ⟨hnext, hpk, hgr⟩
    · rintro t ⟨hpk, hgr⟩
      rw [afterPort, if_neg hp, hr] at hpk
      rw [nextTakes, if_neg hp, hr, Bool.and_eq_true] at hnext
      exact ⟨hnext.1, hnext.2, hpk, hgr⟩
    · rintro t ⟨hpk, -⟩
      rw [afterPort, if_neg hp, hr] at hpk
      simpa using hpk
  · intro s hs i q hq ho hm
    refine (run_powered hs.1).trans (congrArg _ ?_)
    rw [after_actRouterForward_outside hq ho, if_pos hm]
    rfl
  · intro s hs i q hq hc hvc hb
    refine (run_powered hs.1).trans (congrArg _ ?_)
    rw [after_actRouterForward_inside hq hc, not_granted_of_bulkClosed hq hvc hb, if_neg (by simp)]
  · intro s hs i q hq hc
    refine (run_powered hs.1).trans (congrArg _ ?_)
    rw [actAgeIncrement, after_look, packetAt, hq]
    dsimp only
    rw [after_act, if_pos hc]
    rfl
  · intro s hs i q hq ho
    refine (run_powered hs.1).trans (congrArg _ ?_)
    rw [actAgeIncrement, after_look, packetAt, hq]
    dsimp only
    rw [after_act, not_competes_of_outside ho, if_neg (by decide)]
  · intro s hs i q hq h5 hh
    refine ⟨fun hsink hherd => ⟨fun hreq hresp => ?_, fun ch a hp hsent => ?_, fun ch w d f hp => ?_, fun ch w found hp => ?_⟩,
      fun hsink => ?_, fun hsink hsrc hherd => ?_⟩
    · have e := after_actLocalPortArrive_taken hq h5 hh hsink hherd
      rw [deliver_inbox hreq hresp] at e
      refine does_of_run hs.1 rfl ?_ ?_ <;> rw [e]
      · exact (((within_movePacket ..).wider rfl).onlyIn s).trans (((within_setCore ..).wider rfl).onlyIn _)
      · refine ⟨?_, ?_, ?_, fun c hc => ?_⟩
        · rw [(within_setCore ..).packets, packets_after_movePacket, Option.toList_none, List.append_nil]
        · rw [coreX_setCore, if_pos rfl, (within_movePacket ..).coreX]
        · rw [coreX_setCore, if_pos rfl, (within_movePacket ..).coreX]
        · rw [coreX_setCore, if_neg hc, (within_movePacket ..).coreX]
    · have e := after_actLocalPortArrive_taken hq h5 hh hsink hherd
      rw [deliver, hp] at e
      refine does_of_run hs.1 rfl ?_ ?_ <;> rw [e]
      · exact (((within_movePacket ..).wider rfl).onlyIn s).trans (((within_setCore ..).wider rfl).onlyIn _)
      · refine ⟨?_, ?_, fun c hc => ?_⟩
        · rw [(within_setCore ..).packets, packets_after_movePacket, Option.toList_none, List.append_nil]
        · rw [coreX_setCore, if_pos rfl, (within_movePacket ..).coreX, if_pos (by simpa using hsent)]
        · rw [coreX_setCore, if_neg hc, (within_movePacket ..).coreX]
    · have e := after_actLocalPortArrive_taken hq h5 hh hsink hherd
      rw [deliver, hp] at e
      dsimp only at e
      rw [serveMov, after_look] at e
      dsimp only at e
      rw [after_seq_cons, after_seq_cons, after_seq_cons, after_seq_nil] at e
      refine does_of_run hs.1 rfl ?_ ?_ <;> rw [e]
      · exact (((((within_movePacket ..).wider rfl).onlyIn s).trans (((within_stCount ..).wider rfl).onlyIn _)).trans
          (((within_stPut ..).wider rfl).onlyIn _)).trans (((within_sendMov ..).wider rfl).onlyIn _)
      · refine ⟨?_, fun c n => ?_⟩
        · rw [packets_after_sendMov_written, (within_stPut ..).packets, (within_stCount ..).packets, packets_after_movePacket,
             Option.toList_none, List.append_nil]
        · rw [(within_sendMov ..).stGet, stGet_after_stPut, (within_stCount ..).stGet, (within_movePacket ..).stGet]
    · have e := after_actLocalPortArrive_taken hq h5 hh hsink hherd
      rw [deliver, hp] at e
      dsimp only at e
      refine does_of_run hs.1 rfl ?_ ?_ <;> rw [e]
      · exact (((within_movePacket ..).wider rfl).onlyIn s).trans (((within_serveMov_read ..).wider rfl).onlyIn _)
      · rw [packets_after_serveMov_read, packets_after_movePacket, Option.toList_none, List.append_nil, (within_movePacket ..).stVerdict,
          (within_movePacket ..).stGet]
    · have e := after_actLocalPortArrive_sink hq h5 hh hsink
      refine does_of_run hs.1 rfl ?_ ?_ <;> rw [e]
      · exact (within_seq_cons ((within_movePacket ..).wider rfl) (within_seq_cons (within_act ((within_count ..).wider rfl))
          (within_seq_cons ((within_answerFenced ..).wider rfl) within_seq_nil))).onlyIn s
      · rw [after_seq_cons, after_seq_cons, after_seq_cons, after_seq_nil, packets_after_answerFenced, (within_act (within_count ..)).packets,
          packets_after_movePacket, Option.toList_none, List.append_nil]
    · have e := after_actLocalPortArrive_foreign hq h5 hh hsink hsrc hherd
      refine does_of_run hs.1 rfl ?_ ?_ <;> rw [e]
      · exact (within_seq_cons ((within_movePacket ..).wider rfl) (within_seq_cons ((within_count ..).wider rfl)
          (within_seq_cons ((within_raise ..).wider rfl) (within_seq_cons ((within_answerFenced ..).wider rfl) within_seq_nil)))).onlyIn s
      · rw [after_seq_cons, after_seq_cons, after_seq_cons, after_seq_cons, after_seq_nil, packets_after_answerFenced]
        refine ⟨?_, ?_⟩
        · rw [(within_raise ..).packets, (within_count ..).packets, packets_after_movePacket, Option.toList_none, List.append_nil]
        · rw [(within_answerFenced ..).rd]
          exact bit_after_raise (c := { cls := .security, herd := some q.herd }) _ nofun

end Sys2Proof.Machine
end

section
/-! Frames leave a torus port, and herds fail: the registers that these shared acts write (R462, R524). -/

namespace Sys2Proof.Machine

-- One declaration after the other: elaborated side by side they take more memory than the check has.
set_option Elab.async false

/-! ## Herds -/

theorem herdOf_setHerd (s : State) (h : Nat) (f : Herd → Herd) (g : Nat) :
    herdOf (after (setHerd h f) s) g = if g = h then (herdOf s h).map f else herdOf s g := by
  rw [setHerd, after_look]
  cases hh : herdOf s h with
  | none =>
    by_cases hg : g = h
    · rw [if_pos hg, hg]
      exact hh
    · rw [if_neg hg]
      rfl
  | some x => rw [after_one, herdOf_herd]; rfl

/-! ## Frames -/

/-- Register x is none that a frame's departure counts in: slots 0 and 2 of a BX_ page, and its BLK_IST. -/
def FrameFree (x : Nat) : Prop := x < 0x160000 ∨ x % 4096 ∉ [0x20, 0x80, 0x84, 0x90, 0x94]

theorem keepsReg_putFrame {x : Nat} (hx : FrameFree x) (n : Nat) (f : Frame) : KeepsReg x (putFrame n f) := by
  simp only [FrameFree, List.mem_cons, List.not_mem_nil, or_false, not_or] at hx
  refine keeps_seq_cons ((within_one (ps := [.out]) rfl).keepsReg x) (keeps_seq_cons (keepsReg_count ?_ ?_ ?_ _)
    (keeps_seq_cons (keepsReg_count ?_ ?_ ?_ _) keeps_seq_nil)) <;> (unfold bxPage; omega)

theorem keepsReg_sendWaiting {x : Nat} (hx : FrameFree x) (n k : Nat) : KeepsReg x (sendWaiting n k) := by
  induction k with
  | zero => exact keeps_nop
  | succ k ih =>
    refine keeps_look fun s => ?_
    split
    · exact keeps_nop
    · refine keeps_seq_cons ((within_setBx ..).keepsReg x) (keeps_seq_cons ?_ (keeps_seq_cons ih keeps_seq_nil))
      exact keeps_look fun s => keeps_seq_cons ((within_setBx ..).keepsReg x) (keeps_seq_cons (keepsReg_putFrame hx ..) keeps_seq_nil)

theorem keepsReg_giveFrame {x : Nat} (hx : FrameFree x) (n : Nat) (f : Frame) : KeepsReg x (giveFrame n f) :=
  keeps_seq_cons ((within_setBx ..).keepsReg x) (keeps_seq_cons (keeps_look fun _ => keepsReg_sendWaiting hx ..) keeps_seq_nil)

theorem keepsReg_sendFrame {x : Nat} (hx : FrameFree x) (f : Frame) : KeepsReg x (sendFrame f) := by
  refine keeps_look fun s => ?_
  split
  · exact keepsReg_giveFrame hx ..
  · exact keeps_nop

theorem keepsReg_sendHcmd {x : Nat} (hx : FrameFree x) (p htag h part : Nat) (last : Bool) (op tag : Nat) (params : List Byte)
    (es : List RegwEntry) : KeepsReg x (sendHcmd p htag h part last op tag params es) := keeps_look fun _ => keepsReg_sendFrame hx _

/-! ## The failure of a herd -/

theorem keepsReg_tellFailure {x : Nat} (hx : FrameFree x) (h reason : Nat) : KeepsReg x (tellFailure h reason) := by
  refine keeps_look fun s => ?_
  split
  · exact keeps_nop
  · refine keeps_ite (fun _ => keeps_nop) fun _ => keeps_ite (fun _ => keeps_act fun _ => ?_) fun _ =>
      keeps_act fun _ => keepsReg_sendFrame hx _
    exact keeps_seq_cons ((within_stepHtag).keepsReg x) (keeps_seq_cons ((within_one (ps := [.hcmd]) rfl).keepsReg x)
      (keeps_seq_cons (keeps_each fun _ _ => keepsReg_sendHcmd hx ..) keeps_seq_nil))

/-- Register x is none of those by which herd h's rings are disabled, and none of the function pages' states and counts. -/
def RingFree (h x : Nat) : Prop :=
  (∀ n < 24, x ≠ uePage n + 0x204 + 16 * h) ∧ x ≠ bxPage 0 + 0xA04 + 16 * h ∧
    ∀ f < 64, x ≠ fnPageOf f + 0x100 ∧ x ≠ fnPageOf f + 0x20 ∧ x ≠ fnPageOf f + 0x98 ∧ x ≠ fnPageOf f + 0x9C

theorem keepsReg_disableRings {h x : Nat} (hx : RingFree h x) : KeepsReg x (disableRings h) :=
  keeps_seq_cons (keeps_each fun n hn => keepsReg_wrBit (hx.1 n (List.mem_range.mp hn)) _ _)
    (keeps_seq_cons (keepsReg_wrBit hx.2.1 _ _) keeps_seq_nil)

theorem keepsReg_setFnState {x : Nat} (hx : ∀ f < 64, x ≠ fnPageOf f + 0x100) (h st : Nat) : KeepsReg x (setFnState h st) := by
  refine keeps_look fun s => ?_
  split
  case h_1 f _ => exact keepsReg_wr (hx f.val f.isLt) _
  case h_2 => exact keeps_nop

theorem keepsReg_notify {x : Nat} {f : FnNo} (hx : x ≠ fnPageOf f.val + 0x20 ∧ x ≠ fnPageOf f.val + 0x98 ∧ x ≠ fnPageOf f.val + 0x9C)
    (kind herd reason : Nat) (bead : DWord) (detail : List Byte) : KeepsReg x (notify f kind herd reason bead detail) :=
  keeps_look fun _ => keeps_ite (fun _ => keepsReg_count hx.1 hx.2.1 hx.2.2 1) fun _ => (within_one (ps := [.notices]) rfl).keepsReg x

theorem keepsReg_failHere {h x : Nat} (hx : RingFree h x) (reason : Nat) : KeepsReg x (failHere h reason) := by
  refine keeps_look fun s => ?_
  split
  · exact keeps_nop
  · refine keeps_ite (fun _ => keeps_nop) fun _ => keeps_seq_cons
      (keeps_each fun _ _ => keeps_act fun _ => (within_stopCore _).keepsReg x)
      (keeps_seq_cons (keepsReg_disableRings hx) (keeps_seq_cons ((within_setHerd ..).keepsReg x)
      (keeps_seq_cons (keepsReg_setFnState (fun f hf => (hx.2.2 f hf).1) ..) (keeps_seq_cons ?_ keeps_seq_nil))))
    split
    case h_1 f _ => exact keepsReg_notify (hx.2.2 f.val f.isLt).2 ..
    case h_2 => exact keeps_nop

theorem keepsReg_failHerd {h x : Nat} (hx : RingFree h x) (hf : FrameFree x) (reason : Nat) : KeepsReg x (failHerd h reason) :=
  keeps_look fun _ => keeps_act fun _ => keeps_seq_cons (keepsReg_failHere hx reason)
    (keeps_seq_cons (keepsReg_tellFailure hf h reason) keeps_seq_nil)

/-- BLK_CTRL of no page is among them. -/
theorem ringFree_blkCtrl (h : Nat) {x : Nat} (hx : x % 4096 = 0x10) : RingFree h x := by
  refine ⟨fun n _ => ?_, ?_, fun f _ => ?_⟩
  · unfold uePage; omega
  · unfold bxPage; omega
  · unfold fnPageOf; omega

theorem frameFree_blkCtrl {x : Nat} (hx : x % 4096 = 0x10) : FrameFree x := .inr (by rw [hx]; decide)

/-- A herd that failHerd meets has failed afterwards. -/
theorem failed_after_failHerd {s : State} {h : Nat} {x : Herd} (hx : herdOf s h = some x) (reason : Nat) :
    ∃ y, herdOf (after (failHerd h reason) s) h = some y ∧ y.failed = true := by
  cases hf : x.failed with
  | true =>
    refine ⟨x, ?_, hf⟩
    rw [failHerd, after_look, hx, Option.any_some, hf]
    exact hx
  | false =>
    have hhere : herdOf (after (failHere h reason) s) h = some { x with failed := true } := by
      rw [failHere, after_look, hx]
      dsimp only
      rw [if_neg (by rw [hf]; decide)]
      rw [after_seq_cons, after_seq_cons, after_seq_cons, after_seq_cons, after_seq_cons, after_seq_nil]
      refine (Within.herdOf (ps := [.ctl, .notices]) ?_ _ h).trans ?_
      · split
        · exact within_notify ..
        · exact within_nop
      · rw [(within_setFnState ..).herdOf, herdOf_setHerd, if_pos rfl, (within_disableRings h).herdOf,
          (within_each fun c => within_act (within_stopCore c)).herdOf, hx]
        rfl
    refine ⟨{ x with failed := true }, ?_, rfl⟩
    rw [failHerd, after_look, hx, Option.any_some, hf, Bool.not_false, after_act, if_pos rfl, after_seq_cons, after_seq_cons,
      after_seq_nil, (within_tellFailure ..).herdOf, hhere]

/-- Stopping a core leaves what its fence sequence has come to. -/
theorem keeps_fenceStep_stopCore (c d : Nat) : Keeps (fun s => (coreX s c).fenceStep) (stopCore d) := by
  refine keeps_look fun s => ?_
  split
  case h_7 => exact keeps_nop
  all_goals exact keeps_setCore (·.fenceStep) c d

theorem keeps_fenceStep_failHerd (c h reason : Nat) : Keeps (fun s => (coreX s c).fenceStep) (failHerd h reason) := by
  refine keeps_look fun s => keeps_act fun _ => keeps_seq_cons (keeps_look fun s => ?_)
    (keeps_seq_cons ((within_tellFailure ..).keepsCore (·.fenceStep) c) keeps_seq_nil)
  split
  · exact keeps_nop
  · refine keeps_ite (fun _ => keeps_nop) fun _ => keeps_seq_cons
      (keeps_each fun d _ => keeps_act fun _ => keeps_fenceStep_stopCore c d)
      (keeps_seq_cons ((within_disableRings h).keepsCore (·.fenceStep) c) (keeps_seq_cons ((within_setHerd ..).keepsCore (·.fenceStep) c)
      (keeps_seq_cons ((within_setFnState ..).keepsCore (·.fenceStep) c) (keeps_seq_cons ?_ keeps_seq_nil))))
    split
    · exact (within_notify ..).keepsCore (·.fenceStep) c
    · exact keeps_nop

end Sys2Proof.Machine
end

section
/-! Fencing a core (R59, R82, R83, R87). -/

namespace Sys2Proof.Machine

/-- The pages of the order of R82 are pages. -/
theorem fenceOrder_mod (c k : Nat) : (fenceOrder c).getD k 0 % 4096 = 0 := by
  have h (j : Nat) : sitePage c j % 4096 = 0 := by unfold sitePage; omega
  match k with
  | 0 => exact h 1
  | 1 => exact h 6
  | 2 => exact h 3
  | 3 => exact h 4
  | 4 => exact h 2
  | 5 => exact h 5
  | 6 => exact h 0
  | k + 7 => rfl

/-- The next page in the order is fenced, and the first step fails the core's herd. -/
theorem after_actCoreFence {s : State} {c k : Nat} (hc : coreEn s c = true) (hk : (coreX s c).fenceStep = k) (h7 : k < 7)
    (hprev : k = 0 ∨ isFenced s ((fenceOrder c).getD (k - 1) 0) = true) : after (actCoreFence c) s =
      after (act (decide (k = 0)) (match herdAt s c with
        | some h => failHerd h 1
        | none => nop))
      (after (setCore c (fun x => { x with fenceStep := k + 1, owedResets := 0x7F }))
        (after (wrBit ((fenceOrder c).getD k 0 + 0x10) 2 true) s)) := by
  rw [actCoreFence, after_look]
  dsimp only
  rw [hk, hc, if_neg (by simpa using h7), if_pos hprev, after_seq_cons, after_seq_cons, after_seq_cons, after_seq_nil] <;> rfl

/-- What the failure of the core's herd leaves of a step of the fence sequence. -/
theorem fence_after_fail {s t : State} {c k : Nat} (b : Bool) (hf : fenced t ((fenceOrder c).getD k 0) = true)
    (hk : (coreX t c).fenceStep = k + 1) {u : State} (hu : u = after (act b (match herdAt s c with
        | some h => failHerd h 1
        | none => nop)) t) : fenced u ((fenceOrder c).getD k 0) = true ∧ (coreX u c).fenceStep = k + 1 := by
  have hx : ((fenceOrder c).getD k 0 + 0x10) % 4096 = 0x10 := by have := fenceOrder_mod c k; omega
  subst hu
  refine ⟨?_, ((keeps_act (f := fun s => (coreX s c).fenceStep) fun _ => ?_).eq t).trans hk⟩
  · rw [fenced, KeepsReg.rd (keeps_act fun _ => ?_)]
    · exact hf
    · split
      case h_1 h _ => exact keepsReg_failHerd (ringFree_blkCtrl h hx) (frameFree_blkCtrl hx) 1
      case h_2 => exact keeps_nop
  · split
    · exact keeps_fenceStep_failHerd ..
    · exact keeps_nop

/-- One step of the fence sequence: the page is fenced, the sequence has gone on, and of the first step the herd has failed. -/
theorem actCoreFence_steps {s : State} {c k : Nat} (hc : coreEn s c = true) (hk : (coreX s c).fenceStep = k) (h7 : k < 7)
    (hprev : k = 0 ∨ isFenced s ((fenceOrder c).getD (k - 1) 0) = true) :
    fenced (after (actCoreFence c) s) ((fenceOrder c).getD k 0) = true ∧ (coreX (after (actCoreFence c) s) c).fenceStep = k + 1 ∧
      (k = 0 → ∀ h x, herdAt s c = some h → herdOf s h = some x →
        ∃ y, herdOf (after (actCoreFence c) s) h = some y ∧ y.failed = true) := by
  have e := after_actCoreFence hc hk h7 hprev
  obtain ⟨hf, hstep⟩ := fence_after_fail (s := s) (decide (k = 0)) (t := after (setCore c
      (fun x => { x with fenceStep := k + 1, owedResets := 0x7F })) (after (wrBit ((fenceOrder c).getD k 0 + 0x10) 2 true) s))
    (by rw [fenced, (within_setCore ..).rd, after_wrBit, rd_ctl_same, bit_setBit_same _ (by decide)])
    (by rw [coreX_setCore, if_pos rfl]) e
  refine ⟨hf, hstep, fun h0 h x hh hx => ?_⟩
  rw [e, decide_eq_true h0, after_act, if_pos rfl, hh]
  exact failed_after_failHerd (by rw [(within_setCore ..).herdOf, (within_wrBit ..).herdOf, hx]) 1

/-- A site's core is withdrawn. -/
theorem mem_withdrawn_after_withdrawSite (c : Nat) (s : State) : c ∈ (after (withdrawSite c) s).withdrawn := by
  rw [withdrawSite, after_look, after_act]
  by_cases h : c ∈ s.withdrawn
  · rw [if_neg (by simp [h])]
    exact h
  · rw [if_pos (by simp [h]), after_one]
    simp

/-- A cube array that abandons its queue leaves what the fence sequence has come to. -/
theorem keeps_fenceStep_abandonDwq (c d : Nat) : Keeps (fun s => (coreX s c).fenceStep) (abandonDwq d) :=
  keeps_look fun _ => keeps_seq_cons (keeps_setCore (·.fenceStep) c d)
    (keeps_seq_cons (keeps_each fun _ _ => keeps_setCore (·.fenceStep) c d) keeps_seq_nil)

/-- Settles O12: each act names the page it fences, and the failure of the herd writes none of a page's BLK_CTRL words. -/
theorem coreFencing : Obligations.CoreFencing := by
  unfold Obligations.CoreFencing
  refine ⟨fun s hs c k hc hk h7 hprev => ?_, fun s hs c k hk hnf => ?_, fun s hs c hc => ?_⟩
  · obtain ⟨hf, hstep, hfail⟩ := actCoreFence_steps hc hk h7 hprev
    have hcube (s : State) : Within [.core] (act (fenced s (cubePage c.val)) (abandonDwq c.val)) := within_act (within_abandonDwq _)
    refine does_of_within hs.1 rfl ((within_coreFenceStep ..).wider rfl) ?_
    rw [coreFenceStep, after_seq_cons, after_seq_cons, after_seq_nil, after_look]
    refine ⟨?_, ?_, fun h0 h x hh hx => ?_⟩
    · exact ((keeps_act fun _ => keeps_fenceStep_abandonDwq c.val c.val).eq _).trans hstep
    · rw [fenced, (hcube _).rd]
      exact hf
    · rw [(hcube _).herdOf]
      exact hfail h0 h x hh hx
  · have e : after (actFenceTimeout c.val) s = after (seq [wrBit (fabPage c.val + 0x14) 17 true, raise (corePage c.val)
        { cls := .uncorrFatal, addr := some ((fenceOrder c.val).getD k 0), herd := herdAt s c.val }, withdrawSite c.val]) s := by
      rw [actFenceTimeout, after_look]
      dsimp only
      rw [hk, Nat.add_sub_cancel, if_neg (not_or.mpr ⟨by omega, by rw [hnf]; decide⟩)]
    refine does_of_within hs.1 rfl ((within_actFenceTimeout ..).wider rfl) ?_
    rw [e, after_seq_cons, after_seq_cons, after_seq_cons, after_seq_nil]
    have hpages : fabPage c.val = corePage c.val + 0x7000 ∧ 0x1000000 ≤ corePage c.val := by
      unfold fabPage corePage sitePage
      omega
    refine ⟨?_, mem_withdrawn_after_withdrawSite .., ?_⟩
    · rw [sinkMode, (within_withdrawSite _).rd, (keepsReg_raise (by omega) (by omega) (by omega)).rd, after_wrBit, rd_ctl_same,
        bit_setBit_same _ (by decide)]
    · rw [(within_withdrawSite _).rd]
      exact bit_after_raise (c := { cls := .uncorrFatal, addr := _, herd := _ }) _ fun _ => by omega
  · refine does_of_within hs.1 rfl ((within_actCoreHardFault ..).wider rfl) ?_
    rw [actCoreHardFault, after_look, after_act, if_pos hc, after_seq_cons, after_seq_cons, after_seq_nil, after_act]
    refine ⟨?_, fun h0 => ?_⟩
    · split
      · rw [(within_actCoreFence _).withdrawn]
        exact mem_withdrawn_after_withdrawSite ..
      · exact mem_withdrawn_after_withdrawSite ..
    · rw [if_pos (by simpa using h0)]
      refine (actCoreFence_steps ?_ ((congrArg _ ((within_withdrawSite _).coreX s c.val)).trans h0) (by decide) (.inl rfl)).2.1
      rw [coreEn, (within_withdrawSite _).fuses]
      exact hc

end Sys2Proof.Machine
end

section
/-! Rules for a core's data and registers, act by act; the sequencer's control (O14), and a core whose fenced page keeps its scrubber at
rest (O15). -/

namespace Sys2Proof.Machine

-- One declaration after the other: elaborated side by side they take more memory than the check has.
set_option Elab.async false

/-! ## Reading a core and its registers after an act -/

@[simp] theorem coreX_ctl (s : State) (a : Nat) (v : Word) (c : Nat) : coreX ((Upd.ctl a v).apply s) c = coreX s c := (rfl)

@[simp] theorem coreX_packets (s : State) (ps : List Packet) (c : Nat) : coreX ((Upd.packets ps).apply s) c = coreX s c := (rfl)

@[simp] theorem rd_core (s : State) (c : Nat) (x : CoreX) (a : Nat) : rd ((Upd.core c x).apply s) a = rd s a := (rfl)

@[simp] theorem rd_packets (s : State) (ps : List Packet) (a : Nat) : rd ((Upd.packets ps).apply s) a = rd s a := (rfl)

@[simp] theorem after_setCore (s : State) (c : Nat) (f : CoreX → CoreX) :
    after (setCore c f) s = (Upd.core c (f (coreX s c))).apply s := (rfl)

@[simp] theorem after_setIst (s : State) (p i : Nat) :
    after (setIst p i) s = (Upd.ctl (p + 0x20) (setBit (rd s (p + 0x20)) i true)).apply s := (rfl)

@[simp] theorem after_setCoreState (s : State) (c st : Nat) :
    after (setCoreState c st) s = (Upd.ctl (seqPage c + 0x104) (setFld (rd s (seqPage c + 0x104)) 3 0 st)).apply s := (rfl)

@[simp] theorem coreX_after_count (s : State) (p k n c : Nat) : coreX (after (count p k n) s) c = coreX s c := (within_count ..).coreX s c

@[simp] theorem coreX_after_coreEvent (s : State) (site p : Nat) (k : Cls) (c : Nat) : coreX (after (coreEvent site p k) s) c = coreX s c :=
  (within_coreEvent ..).coreX s c

theorem rd_after_count (s : State) {x p : Nat} (k n : Nat) (hist : x ≠ p + 0x20) (hlo : x ≠ p + 0x80 + 8 * k) (hhi : x ≠ p + 0x84 + 8 * k) :
    rd (after (count p k n) s) x = rd s x := (keepsReg_count hist hlo hhi n).rd s

theorem rd_after_coreEvent (s : State) {x p : Nat} (site : Nat) {k : Cls} (hist : x ≠ p + 0x20) (hcap : x < p + 0x40 ∨ p + 0x60 ≤ x)
    (hdump : x ≠ 0x4100) : rd (after (coreEvent site p k) s) x = rd s x := by
  rw [coreEvent, after_look]
  exact rd_after_raise_other s hist hcap fun _ => hdump

/-- Where the pages of a site lie (R16). -/
theorem pages_of_site (c : Nat) : 0x1000000 ≤ corePage c ∧ corePage c % 0x10000 = 0 ∧ seqPage c = corePage c + 0x1000 ∧
    tilePage c = corePage c + 0x2000 ∧ cubePage c = corePage c + 0x3000 ∧ vuPage c = corePage c + 0x4000 ∧ tlyPage c = corePage c + 0x5000 ∧
    mvPage c = corePage c + 0x6000 ∧ fabPage c = corePage c + 0x7000 := by
  unfold corePage seqPage tilePage cubePage vuPage tlyPage mvPage fabPage sitePage
  omega

/-! ## A herd that does not park -/

/-- A herd that does not park is left alone. -/
theorem after_finishParkOf {s : State} {c : Nat} (h : NotParking s c) : after (finishParkOf c) s = s := by
  rw [finishParkOf, after_look]
  split
  case h_2 => rfl
  case h_1 n hn =>
    have hp := h n hn
    rw [finishPark, after_look]
    split
    case h_2 => rfl
    case h_1 x hx =>
      rw [hx, Option.bind_some] at hp
      rw [hp]
      rfl

theorem NotParking.of_eq {s t : State} {c : Nat} (h : NotParking s c) (hr : rd t (corePage c + 0x100) = rd s (corePage c + 0x100))
    (hh : t.herd = s.herd) : NotParking t c := by
  intro n hn
  rw [herdOf, hh]
  rw [herdAt, hr] at hn
  exact h n hn

/-- What follows an act that leaves the herds and the core's place in them is no end of a park. -/
theorem after_seq_finishParkOf {s : State} {c : Nat} {a : Act} (h : NotParking s c)
    (hr : rd (after a s) (corePage c + 0x100) = rd s (corePage c + 0x100)) (hh : (after a s).herd = s.herd) :
    after (seq [a, finishParkOf c]) s = after a s := by
  rw [after_seq_cons, after_seq_cons, after_seq_nil]
  exact after_finishParkOf (h.of_eq hr hh)

/-! ## Control of the sequencer (R131 to R144) -/

theorem after_actCoreHalted {s : State} {c k : Nat} (hh : (coreX s c).halting = some k) (hi : (coreX s c).issued = [])
    (hp : (coreX s c).pipe = []) (hf : (coreX s c).faulting = false) (h9 : coreState s c ≠ 9) :
    after (actCoreHalted c) s = after (seq [wrFld (seqPage c + 0x104) 23 16 k, setCoreState c 7, setIst (seqPage c) 8,
      setCore c (fun x => { x with halting := none, stopPend := false, pausePend := false })]) s := by
  rw [actCoreHalted, after_look]
  dsimp only
  rw [hh]
  simp [hi, hp, hf, h9]

theorem after_actCoreFaulted {s : State} {c : Nat} (hf : (coreX s c).faulting = true) (hi : ∀ i ∈ (coreX s c).issued, i.faulted = true)
    (hp : (coreX s c).pipe = []) (h8 : coreState s c ≠ 8) (h9 : coreState s c ≠ 9) :
    after (actCoreFaulted c) s = after (seq [setCoreState c 8, setIst (seqPage c) 9, setCore c (fun x => { x with pausePend := false })]) s := by
  rw [actCoreFaulted, after_look]
  dsimp only
  rw [hf, hp, List.all_eq_true.mpr hi]
  simp [h8, h9]

theorem after_armCore {s : State} {c : Nat} (r : Requester) (hst : [1, 6, 7, 8].contains (coreState s c) = true) (hb : beadPassed s c = false) :
    after (armCore r c) s = after (seq [act (decide (coreState s c = 8)) (abandonFault c), wrBit (corePage c + 0x104) 31 false,
      wrBit (seqPage c + 0x100) 0 true, setCoreState c 2, setCore c (fun x => { x with armKind := if coreState s c = 6 then 1 else 0 })]) s := by
  rw [armCore, after_look]
  dsimp only
  rw [hst, hb]
  rfl

theorem within_armed (c k : Nat) (b : Bool) : Within [.ctl, .core] (seq [act b (abandonFault c), wrBit (corePage c + 0x104) 31 false,
    wrBit (seqPage c + 0x100) 0 true, setCoreState c 2, setCore c (fun x => { x with armKind := k })]) :=
  within_seq_cons (within_act (within_abandonFault c)) <| within_seq_cons ((within_wrBit ..).wider rfl) <|
    within_seq_cons ((within_wrBit ..).wider rfl) <| within_seq_cons ((within_setCoreState ..).wider rfl) <|
    within_seq_cons ((within_setCore ..).wider rfl) within_seq_nil

theorem after_resumeCore {s : State} {c : Nat} (r : Requester) (h8 : coreState s c = 8) (h30 : bit (rd s (seqPage c + 0x180)) 30 = true)
    (hb : beadPassed s c = false) : after (resumeCore r c) s =
      after (seq [setCoreState c 2, setCore c (fun x => { x with armKind := 2, faulting := false })]) s := by
  rw [resumeCore, after_look, h8, h30, hb]
  rfl

theorem after_stopCore_atBead {s : State} {c : Nat} (h : coreState s c = 5 ∨ coreState s c = 6) :
    after (stopCore c) s = after (setCore c (fun x => { x with halting := some 0xFF, stopPend := false, pausePend := false })) s := by
  rcases h with h | h <;>
  · rw [stopCore, after_look, h]
    rfl

theorem after_stopCore_running {s : State} {c : Nat} (h : [2, 3, 4].contains (coreState s c) = true) :
    after (stopCore c) s = after (setCore c (fun x => { x with stopPend := true })) s := by
  have : coreState s c = 2 ∨ coreState s c = 3 ∨ coreState s c = 4 := by simpa using h
  rcases this with h | h | h <;>
  · rw [stopCore, after_look, h]
    rfl

theorem seqCtrl_page (c : Nat) : seqCtrl c / 4096 = seqPage c / 4096 := by
  unfold seqCtrl seqPage sitePage
  omega

/-- Settles O14: each command's act under its guard, and what its few writes leave in the registers and in the core. -/
theorem sequencerControl : Obligations.SequencerControl := by
  unfold Obligations.SequencerControl
  refine ⟨⟨fun s hs c k hh hi hp hf h9 hnp => ?_, fun s hs c hf hi hp h8 h9 hnp => ?_⟩, fun s hs c ht hst hb => ?_,
    fun s hs c ht h8 h30 hb => ?_, fun s hs c ht hst => ?_, fun s hs c ht hst => ?_⟩
  all_goals have pages := pages_of_site c.val
  · have e := after_actCoreHalted hh hi hp hf h9
    have e2 := after_seq_finishParkOf (a := actCoreHalted c.val) hnp
      (by rw [e]; simp (disch := omega) [rd_ctl_other]) ((within_actCoreHalted ..).herd s)
    refine does_of_run hs.1 rfl ?_ ?_ <;> rw [e2]
    · exact ((within_actCoreHalted ..).wider rfl).onlyIn s
    · rw [e]
      simp (disch := omega) [rd_ctl_other, coreState, fld_setFld, fld_setFld_other, bit_setBit_same]
  · have e := after_actCoreFaulted hf hi hp h8 h9
    have e2 := after_seq_finishParkOf (a := actCoreFaulted c.val) hnp
      (by rw [e]; simp (disch := omega) [rd_ctl_other]) ((within_actCoreFaulted ..).herd s)
    refine does_of_run hs.1 rfl ?_ ?_ <;> rw [e2]
    · exact ((within_actCoreFaulted ..).wider rfl).onlyIn s
    · rw [e]
      simp (disch := omega) [rd_ctl_other, coreState, fld_setFld, bit_setBit_same]
  · have e := after_armCore .ringCtl hst hb
    refine does_guarded_ring hs ht (seqCtrl_page c.val) rfl ?_ ?_ <;> rw [e]
    · exact (within_armed ..).onlyIn s
    · simp (disch := omega) [rd_ctl_other, coreState, fld_setFld, bit_setBit_same]
  · have e := after_resumeCore .ringCtl h8 h30 hb
    refine does_guarded_ring hs ht (seqCtrl_page c.val) rfl ?_ ?_ <;> rw [e]
    · exact (within_seq_cons ((within_setCoreState ..).wider rfl) <| within_seq_cons ((within_setCore ..).wider rfl) <|
        (within_seq_nil : Within [.ctl, .core] _)).onlyIn s
    · simp (disch := omega) [coreState, fld_setFld]
  · refine does_guarded_ring hs ht (seqCtrl_page c.val) rfl ?_ ?_ <;> rw [after_stopCore_atBead hst]
    · exact (within_setCore ..).onlyIn s
    · simp
  · refine does_guarded_ring hs ht (seqCtrl_page c.val) rfl ?_ ?_ <;> rw [after_stopCore_running hst]
    · exact (within_setCore ..).onlyIn s
    · simp

/-! ## A fenced core's scrubber -/

/-- A module in INIT whose core at site 0 is enabled and scrubs its store, and has its CORE_ page fenced (R37). -/
def scrubberFenced : State := after (wrBit (corePage 0 + 0x10) 2 true) State.reset

theorem ready_scrubberFenced : Ready scrubberFenced := ⟨rfl, wf_after _ wf_reset⟩

theorem after_actCoreScrub_fenced (found : List Cell) : after (actCoreScrub 0 found) scrubberFenced = scrubberFenced := by
  have hf : fenced scrubberFenced (corePage 0) = true := by
    rw [fenced, scrubberFenced, after_wrBit, rd_ctl_same, bit_setBit_same _ (by decide)]
  rw [actCoreScrub, after_look, after_act, hf, Bool.not_true, Bool.and_false, Bool.false_and]
  rfl

/-- Refutes O15: the scrubber of a fenced CORE_ page rests (R41), so that with the core available and its scrubber on it moves on to no word. -/
theorem not_rodTableAndStores : ¬ Obligations.RodTableAndStores := by
  unfold Obligations.RodTableAndStores
  rintro ⟨-, -, hscrub⟩
  have hon : bit (rd scrubberFenced (corePage 0 + 0x108)) 0 = true := by
    rw [scrubberFenced, after_wrBit, rd_ctl_other _ (by decide), rd_reset]
    decide
  obtain ⟨t, ht, -, hpos, -⟩ := hscrub scrubberFenced ready_scrubberFenced 0 [] (by decide) hon
  have e : exec (.coreScrub 0 []) scrubberFenced = .next scrubberFenced :=
    (run_powered ready_scrubberFenced.1).trans (congrArg _ (after_actCoreScrub_fenced []))
  obtain rfl : scrubberFenced = t := by
    rw [e] at ht
    injection ht
  exact absurd hpos (by decide)

end Sys2Proof.Machine
end

section
/-! A row issues, and a core at its BEAD row (O13). -/

namespace Sys2Proof.Machine

-- One declaration after the other: elaborated side by side they take more memory than the check has.
set_option Elab.async false

/-! ## The issue of a row (R103) -/

theorem fld_ofNat_low {x n : Nat} (hi : Nat) (hn : hi < n) (hx : x < 2 ^ (hi + 1)) : fld (BitVec.ofNat n x) hi 0 = x := by
  rw [fld_ofNat x hn (Nat.zero_le _), bits]
  simpa using Nat.mod_eq_of_lt hx

theorem pcOf_lt (s : State) (c : Nat) : pcOf s c < 2048 := fld_lt _ _ _

theorem rowAfter_lt {r : Nat} (h : r < 2048) : rowAfter r < 2048 := by
  unfold rowAfter
  split <;> omega

/-- What the found error of a row does leaves every core. -/
theorem coreX_after_corrected (s : State) (b : Bool) (c d : Nat) :
    coreX (after (act b (seq [count (seqPage c) 5 1, coreEvent c (seqPage c) .corr])) s) d = coreX s d := by
  rw [after_act]
  split <;> simp

theorem coreX_after_issueRow (s : State) (c next : Nat) (f : Cell) : coreX (after (issueRow c next f) s) c =
    { coreX s c with
      issued := (coreX s c).issued ++ rowInsns s c
      nextId := (coreX s c).nextId + (rowInsns s c).length
      released := false } := by
  rw [issueRow, after_look]
  simp only [after_seq_cons, after_seq_nil, coreX_after_count, after_wr, coreX_ctl, after_setCore, coreX_core_same, coreX_after_corrected]

theorem pcOf_after_issueRow (s : State) (c : Nat) {next : Nat} (hn : next < 2048) (f : Cell) : pcOf (after (issueRow c next f) s) c = next := by
  have pages := pages_of_site c
  rw [issueRow, after_look, pcOf]
  dsimp only
  rw [after_seq_cons, after_seq_cons, after_seq_cons, after_seq_cons, after_seq_cons, after_seq_cons, after_seq_nil,
    rd_after_count _ _ _ (by omega) (by omega) (by omega), rd_after_count _ _ _ (by omega) (by omega) (by omega),
    rd_after_count _ _ _ (by omega) (by omega) (by omega), after_wr, rd_ctl_same, fld_ofNat_low 10 (by decide) hn]

/-- Beside SEQ_PC the issue of a row writes in page headers alone. -/
theorem keepsReg_issueRow {c x : Nat} (hx : 0x100 ≤ x % 4096) (hpc : x ≠ seqPage c + 0x118) (hdump : x ≠ 0x4100) (next : Nat) (f : Cell) :
    KeepsReg x (issueRow c next f) := by
  have pages := pages_of_site c
  have hc (p k n : Nat) (hp : p % 4096 = 0) (hk : k < 8) : KeepsReg x (count p k n) := keepsReg_count (by omega) (by omega) (by omega) n
  refine keeps_look fun s => keeps_seq_cons (keeps_act fun _ => ?_) <| keeps_seq_cons ((within_setCore ..).keepsReg x) <|
    keeps_seq_cons (keepsReg_wr hpc _) <| keeps_seq_cons (hc _ 0 _ (by omega) (by decide)) <|
    keeps_seq_cons (hc _ 0 _ (by omega) (by decide)) <| keeps_seq_cons (hc _ 3 _ (by omega) (by decide)) keeps_seq_nil
  exact keeps_seq_cons (hc _ 5 _ (by omega) (by decide)) <|
    keeps_seq_cons ⟨fun s => rd_after_coreEvent s c (by omega) (by omega) hdump⟩ keeps_seq_nil

theorem rowIssued_after_issueRow (s : State) (c : Nat) {next : Nat} (hn : next < 2048) (f : Cell) :
    RowIssued s (after (issueRow c next f) s) c next :=
  ⟨pcOf_after_issueRow s c hn f, by rw [coreX_after_issueRow]⟩

theorem rowIssued_after_passOn (s : State) (c : Nat) (f : Cell) : RowIssued s (after (passOn c f) s) c (rowAfter (pcOf s c)) := by
  rw [passOn, after_look]
  exact rowIssued_after_issueRow s c (rowAfter_lt (pcOf_lt s c)) f

/-! ## A row that nothing holds (R103, R104, R114) -/

theorem after_issueIf {s : State} {c : Nat} {f : Cell} {taken : Bool} (hf : rowVerdict s c f ≠ .bad) (hh : rowHeld s c = false)
    (hr : rowFaultOf s c taken = none) (go : Act) : after (issueIf c f taken go) s = after go s := by
  rw [issueIf, after_look, if_neg hf, if_neg (by rw [hh]; decide), hr]

theorem after_ctlOp {s : State} {c sop : Nat} {f : Cell} {taken : Bool} (hf : rowVerdict s c f ≠ .bad) (h : RowReady s c sop taken)
    (go : Word → Act) : after (ctlOp c sop f taken go) s = after (go (pcPart s c 0)) s := by
  obtain ⟨hc, hs, hh, hr⟩ := h
  rw [ctlOp, after_look, after_act, hc, hs, decide_eq_true rfl, Bool.and_self, if_pos rfl, after_issueIf hf hh hr]

/-! ## Loop counters (R118, R119) -/

theorem lcReg_after_setLc (s : State) (c n remain index : Nat) : rd (after (setLc c n remain index) s) (lcReg c n) =
    BitVec.ofNat 32 (remain % 65536 + 65536 * (index % 65536)) := by
  rw [setLc, after_wr, rd_ctl_same]

theorem lcRemain_after_setLc (s : State) (c n remain index : Nat) : lcRemain (after (setLc c n remain index) s) c n = remain % 65536 := by
  rw [lcRemain, lcReg_after_setLc, fld_ofNat _ (by decide) (by decide), bits]
  omega

theorem lcIndex_after_setLc (s : State) (c n remain index : Nat) : lcIndex (after (setLc c n remain index) s) c n = index % 65536 := by
  rw [lcIndex, lcReg_after_setLc, fld_ofNat _ (by decide) (by decide), bits]
  omega

theorem RowIssued.setLc {s t : State} {c next n : Nat} (h : RowIssued s t c next) (hn : n < 8) (remain index : Nat) :
    RowIssued s (after (setLc c n remain index) t) c next := by
  obtain ⟨hpc, hissued⟩ := h
  refine ⟨?_, hissued⟩
  rw [pcOf, Machine.setLc, after_wr, rd_ctl_other _ (by unfold lcReg; omega)]
  exact hpc

theorem within_issue_setLc {c n : Nat} {a : Act} (ha : Within [.ctl, .core, .dumpRun, .freeCtr] a) (remain index : Nat) :
    Within [.ctl, .core, .dumpRun, .freeCtr] (seq [a, setLc c n remain index]) :=
  within_seq_cons ha <| within_seq_cons ((within_setLc ..).wider rfl) within_seq_nil

/-! ## The BEAD row (R125, R126, R136, R142) -/

/-- A core whose instructions have retired stands at a sound BEAD row. -/
abbrev AtBead (s : State) (c : Nat) (f : Cell) : Prop :=
  rowVerdict s c f ≠ .bad ∧ canIssue s c = true ∧ sopAt s c = 3 ∧ drained s c = true

theorem after_actBead {s : State} {c : Nat} {f : Cell} (h : AtBead s c f) : after (actBead c f) s =
    if (coreX s c).stopPend then after (setCore c (fun x => { x with halting := some 0xFF, stopPend := false })) s
    else if (coreX s c).pausePend then after (seq [setCoreState c 6, setIst (seqPage c) 10,
      setCore c (fun x => { x with pausePend := false })]) s
    else if slotsOf s c < (coreX s c).bounds then after (tryPass c f false) s
    else after (setCoreState c 5) s := by
  obtain ⟨hf, hc, hs, hd⟩ := h
  rw [actBead, after_look]
  dsimp only
  rw [hc, hs, hd, if_neg (by decide), if_neg hf, after_ite, after_ite, after_ite]

/-- An act that does nothing may end a sequence. -/
theorem after_seq_concat_idle {as : List Act} {z : Act} (h : ∀ t, after z t = t) (s : State) :
    after (seq (as ++ [z])) s = after (seq as) s := by
  induction as generalizing s with
  | nil => rw [List.nil_append, after_seq_cons, after_seq_nil, after_seq_nil, h]
  | cons a as ih => rw [List.cons_append, after_seq_cons, after_seq_cons, ih]

/-- A BEAD row that carries no step, passed after its boundary: its slot counts, and no step slot opens (log entry 62). -/
def passPlain (c : Nat) (f : Cell) (w : Word) (slots row : Nat) : Act :=
  seq [issueRow c (rowAfter row) f, wr (seqPage c + 0x11C) (BitVec.ofNat 32 (slots + 1)), setCoreState c 3,
    setCore c (fun x => { x with rowsInStep := x.rowsInStep + 1 }), wrBit (cubePage c + 0x110) 0 (bit w 26)]

theorem after_passBead_late {s : State} {c : Nat} (f : Cell) (hw : bit (pcPart s c 0) 27 = false) :
    after (passBead c f false) s = after (passPlain c f (pcPart s c 0) (slotsOf s c) (pcOf s c)) s := by
  rw [passBead, passPlain, after_look]
  dsimp only
  rw [hw, Bool.false_and, if_neg (by decide)]
  refine after_seq_concat_idle (as := [_, _, _, _, _]) (fun t => ?_) s
  split
  · rw [Bool.and_false]
    rfl
  · rfl

theorem within_passPlain (c : Nat) (f : Cell) (w : Word) (slots row : Nat) :
    Within [.ctl, .core, .dumpRun, .freeCtr] (passPlain c f w slots row) :=
  within_seq_cons (within_issueRow ..) <| within_seq_cons ((within_wr ..).wider rfl) <|
    within_seq_cons ((within_setCoreState ..).wider rfl) <| within_seq_cons ((within_setCore ..).wider rfl) <|
    within_seq_cons ((within_wrBit ..).wider rfl) within_seq_nil

theorem passed_after_passPlain (s : State) (c : Nat) (f : Cell) (w : Word) :
    RowIssued s (after (passPlain c f w (slotsOf s c) (pcOf s c)) s) c (rowAfter (pcOf s c)) ∧
      coreState (after (passPlain c f w (slotsOf s c) (pcOf s c)) s) c = 3 ∧
      slotsOf (after (passPlain c f w (slotsOf s c) (pcOf s c)) s) c = (slotsOf s c + 1) % 2 ^ 32 := by
  have pages := pages_of_site c
  have hissue := rowIssued_after_issueRow s c (rowAfter_lt (pcOf_lt s c)) f
  obtain ⟨hpc, hissued⟩ := hissue
  refine ⟨⟨?_, ?_⟩, ?_, ?_⟩
  · rw [pcOf] at hpc ⊢
    simp (disch := omega) only [passPlain, after_seq_cons, after_seq_nil, after_wrBit, after_setCore, after_setCoreState, after_wr,
      rd_ctl_other, rd_core, hpc]
  · simp only [passPlain, after_seq_cons, after_seq_nil, after_wrBit, after_setCore, after_setCoreState, after_wr,
      coreX_ctl, coreX_core_same, hissued]
  · simp (disch := omega) only [coreState, passPlain, after_seq_cons, after_seq_nil, after_wrBit, after_setCore, after_setCoreState, after_wr,
      rd_ctl_other, rd_ctl_same, rd_core, fld_setFld]
    decide
  · generalize slotsOf s c = n
    simp (disch := omega) only [slotsOf, passPlain, after_seq_cons, after_seq_nil, after_wrBit, after_setCore, after_setCoreState, after_wr,
      rd_ctl_other, rd_ctl_same, rd_core, BitVec.toNat_ofNat]

/-- Settles O13: under the row's premises each control operation comes to the issue of its row and one more write. -/
theorem rowsIssue : Obligations.RowsIssue := by
  unfold Obligations.RowsIssue
  have hn (s : State) (c : Nat) : fld (pcPart s c 0) 27 25 < 8 := fld_lt _ _ _
  refine ⟨⟨fun s hs c => run_powered hs.1, fun s hs c f hf h => ?_, fun s hs c f hf h => ?_, fun s hs c f hf h hmore => ?_,
    fun s hs c f hf h hlast => ?_, fun s hs c f hf h => ?_, fun s hs c f hf h => ?_⟩, fun s hs c f hf hc hsop hd =>
    ⟨fun hstop => ?_, fun hstop hpause => ?_, fun hstop hpause hslot => ?_, fun hstop hpause hslot hready hstep => ?_⟩⟩
  · have e : after (actNext c.val f) s = after (passOn c.val f) s := by
      obtain ⟨hc, hsop, hh, hr⟩ := h
      rw [actNext, after_look, after_act, hc, hsop, if_pos (by decide), after_issueIf hf hh hr]
    refine does_of_run hs.1 rfl ?_ ?_ <;> rw [e]
    · exact (within_passOn ..).onlyIn s
    · exact rowIssued_after_passOn ..
  · refine does_of_run hs.1 rfl ?_ ?_ <;> rw [actLoop, after_ctlOp hf h]
    · exact (within_issue_setLc (within_passOn ..) _ _).onlyIn s
    · rw [after_seq_cons, after_seq_cons, after_seq_nil]
      refine ⟨(rowIssued_after_passOn ..).setLc (hn ..) _ _, ?_, lcIndex_after_setLc ..⟩
      rw [lcRemain_after_setLc, Nat.mod_eq_of_lt (show fld (pcPart s c.val 0) 24 9 < 65536 from fld_lt _ _ _)]
  · have e : after (actEndl c.val f) s = after (seq [issueRow c.val (fld (pcPart s c.val 0) 24 14) f,
        setLc c.val (fld (pcPart s c.val 0) 27 25) (lcRemain s c.val (fld (pcPart s c.val 0) 27 25) - 1)
          (lcIndex s c.val (fld (pcPart s c.val 0) 27 25) + 1)]) s := by
      rw [actEndl, after_ctlOp hf h, after_look]
      dsimp only
      rw [if_pos hmore]
    have hremain : lcRemain s c.val (fld (pcPart s c.val 0) 27 25) < 65536 := fld_lt _ _ _
    refine does_of_run hs.1 rfl ?_ ?_ <;> rw [e]
    · exact (within_issue_setLc (within_issueRow ..) _ _).onlyIn s
    · rw [after_seq_cons, after_seq_cons, after_seq_nil]
      refine ⟨(rowIssued_after_issueRow _ _ (fld_lt _ _ _) _).setLc (hn ..) _ _, ?_, lcIndex_after_setLc ..⟩
      rw [lcRemain_after_setLc, Nat.mod_eq_of_lt (by omega)]
  · have e : after (actEndl c.val f) s = after (seq [passOn c.val f, setLc c.val (fld (pcPart s c.val 0) 27 25) 0 0]) s := by
      rw [actEndl, after_ctlOp hf h, after_look]
      dsimp only
      rw [if_neg (by omega)]
    refine does_of_run hs.1 rfl ?_ ?_ <;> rw [e]
    · exact (within_issue_setLc (within_passOn ..) _ _).onlyIn s
    · rw [after_seq_cons, after_seq_cons, after_seq_nil]
      exact ⟨(rowIssued_after_passOn ..).setLc (hn ..) _ _, lcRemain_after_setLc .., lcIndex_after_setLc ..⟩
  · have e : after (actAlt c.val f) s = after (issueRow c.val
        (if altTaken s c.val (pcPart s c.val 0) then fld (pcPart s c.val 0) 17 7 else rowAfter (pcOf s c.val)) f) s := by
      rw [actAlt, after_look]
      dsimp only
      rw [after_ctlOp hf h, after_ite]
      split
      · rfl
      · rw [passOn, after_look]
    refine does_of_run hs.1 rfl ?_ ?_ <;> rw [e]
    · exact (within_issueRow ..).onlyIn s
    · refine rowIssued_after_issueRow _ _ ?_ _
      split
      · exact fld_lt _ _ _
      · exact rowAfter_lt (pcOf_lt _ _)
  · refine does_of_run hs.1 rfl ?_ ?_ <;> rw [actHalt, after_ctlOp hf h]
    · exact (within_seq_cons (within_passOn ..) <| within_seq_cons ((within_setCore ..).wider rfl) within_seq_nil :
        Within [.ctl, .core, .dumpRun, .freeCtr] _).onlyIn s
    · obtain ⟨hpc, hissued⟩ := rowIssued_after_passOn s c.val f
      rw [after_seq_cons, after_seq_cons, after_seq_nil, after_setCore]
      refine ⟨⟨hpc, ?_⟩, ?_⟩ <;> rw [coreX_core_same]
      exact hissued
  all_goals have e := after_actBead (f := f) ⟨hf, hc, hsop, hd⟩
  · rw [if_pos hstop] at e
    refine does_of_run hs.1 rfl ?_ ?_ <;> rw [e]
    · exact (within_setCore ..).onlyIn s
    · rw [after_setCore, coreX_core_same]
  · rw [if_neg (by rw [hstop]; decide), if_pos hpause] at e
    refine does_of_run hs.1 rfl ?_ ?_ <;> rw [e]
    · exact (within_seq_cons ((within_setCoreState ..).wider rfl) <| within_seq_cons ((within_setIst ..).wider rfl) <|
        within_seq_cons ((within_setCore ..).wider rfl) within_seq_nil : Within [.ctl, .core] _).onlyIn s
    · simp (disch := omega) [coreState, rd_ctl_other, fld_setFld, bit_setBit_same]
  · rw [if_neg (by rw [hstop]; decide), if_neg (by rw [hpause]; decide), if_neg (by omega)] at e
    refine does_of_run hs.1 rfl ?_ ?_ <;> rw [e]
    · exact (within_setCoreState ..).onlyIn s
    · rw [after_setCoreState]
      exact ⟨by simp [coreState, fld_setFld], fun a ha => rd_ctl_other _ ha _⟩
  · obtain ⟨-, -, hh, hr⟩ := hready
    rw [if_neg (by rw [hstop]; decide), if_neg (by rw [hpause]; decide), if_pos hslot, tryPass, after_issueIf hf hh hr,
      after_passBead_late f hstep] at e
    refine does_of_run hs.1 rfl ?_ ?_ <;> rw [e]
    · exact (within_passPlain ..).onlyIn s
    · exact passed_after_passPlain ..

end Sys2Proof.Machine
end

section
/-! Waits: they begin, register, are released, time out and are cancelled (O16). -/

namespace Sys2Proof.Machine

-- One declaration after the other: elaborated side by side they take more memory than the check has.
set_option Elab.async false

@[simp] theorem after_send0 (s : State) (src dst : Nat) (pl : Payload) : after (send0 src dst pl) s =
    (Upd.packets (s.packets ++ [⟨src, dst, 4, 0, 0, herdNo s src, 0, src, 12, pl⟩])).apply s := (rfl)

@[simp] theorem packets_packets (s : State) (ps : List Packet) : ((Upd.packets ps).apply s).packets = ps := (rfl)

@[simp] theorem packets_core (s : State) (c : Nat) (x : CoreX) : ((Upd.core c x).apply s).packets = s.packets := (rfl)

@[simp] theorem packets_ctl (s : State) (a : Nat) (v : Word) : ((Upd.ctl a v).apply s).packets = s.packets := (rfl)

@[simp] theorem after_popInbox (s : State) (c : Nat) : after (popInbox c) s =
    (Upd.core c { coreX s c with inbox := (coreX s c).inbox.drop 1, inboxFrom := (coreX s c).inboxFrom.drop 1 }).apply s := (rfl)

/-- The herd of a packet is read from CORE_HERD of its source. -/
theorem herdNo_eq {s t : State} {c : Nat} (h : rd t (corePage c + 0x100) = rd s (corePage c + 0x100)) : herdNo t c = herdNo s c := by
  rw [herdNo, herdNo, herdAt, herdAt, h]

/-! ## The word of a wait (TLY_WAIT) -/

/-- TLY_WAIT of a wait that stands. -/
def waitWord (kind obj value : Nat) : Word := BitVec.ofNat 32 (0x80000000 + 0x20000000 * kind + 256 * value + obj)

theorem pending_waitWord {kind obj value : Nat} (hk : kind < 3) (ho : obj < 256) (hv : value < 65536) :
    bit (waitWord kind obj value) 31 = true := by
  rw [bit_eq_decide_fld, waitWord, fld_ofNat _ (by decide) (by decide), bits, decide_eq_true_iff]
  omega

theorem kind_waitWord {kind obj value : Nat} (hk : kind < 3) (ho : obj < 256) (hv : value < 65536) :
    fld (waitWord kind obj value) 30 29 = kind := by
  rw [waitWord, fld_ofNat _ (by decide) (by decide), bits]
  omega

theorem value_waitWord (kind : Nat) {obj value : Nat} (ho : obj < 256) (hv : value < 65536) : fld (waitWord kind obj value) 23 8 = value := by
  rw [waitWord, fld_ofNat _ (by decide) (by decide), bits]
  omega

theorem obj_waitWord (kind : Nat) {obj : Nat} (ho : obj < 256) (value : Nat) : fld (waitWord kind obj value) 7 0 = obj := by
  rw [waitWord, fld_ofNat _ (by decide) (by decide), bits]
  omega

/-- A wait that begins shows in SEQ_STAT, TLY_WAIT and the count of waited cycles, whether or not a registration leaves for the flag's
home. -/
theorem regs_after_beginWait (s : State) (c kind obj value : Nat) :
    coreState (after (beginWait c kind obj value) s) c = 4 ∧
      rd (after (beginWait c kind obj value) s) (waitReg c) = waitWord kind obj value ∧
      rd (after (beginWait c kind obj value) s) (tlyPage c + 0x248) = 0 := by
  have pages := pages_of_site c
  have hlast : Within [.core, .packets] (look fun s => act (waitsAway s c) (seq [setCore c (fun x => { x with registered := true }),
      send0 c (homeOf s c) (.register obj (hidxOf s c) (decide (kind = 1)))])) :=
    within_look fun s => within_act <| within_seq_cons ((within_setCore ..).wider rfl) <|
      within_seq_cons ((within_send0 ..).wider rfl) within_seq_nil
  simp only [beginWait, after_seq_cons, after_seq_nil, coreState, hlast.rd, after_wr, after_setCoreState]
  refine ⟨?_, ?_, ?_⟩
  · rw [rd_ctl_other _ (by omega), rd_ctl_other _ (by unfold waitReg; omega), rd_ctl_same, fld_setFld _ (by decide) (by decide)]
    decide
  · rw [rd_ctl_other _ (by unfold waitReg; omega), rd_ctl_same, waitWord]
  · rw [rd_ctl_same]

/-- What a wait row of a kind puts in place. -/
theorem waits_after_beginWait (s : State) (c : Nat) {kind obj value : Nat} (hk : kind < 3) (ho : obj < 256) (hv : value < 65536) :
    coreState (after (beginWait c kind obj value) s) c = 4 ∧ waitPending (after (beginWait c kind obj value) s) c = true ∧
      waitKind (after (beginWait c kind obj value) s) c = kind ∧ waitObj (after (beginWait c kind obj value) s) c = obj ∧
      fld (rd (after (beginWait c kind obj value) s) (waitReg c)) 23 8 = value ∧
      rd (after (beginWait c kind obj value) s) (tlyPage c + 0x248) = 0 := by
  obtain ⟨hstate, hword, hcycles⟩ := regs_after_beginWait s c kind obj value
  exact ⟨hstate, by rw [waitPending, hword, pending_waitWord hk ho hv], by rw [waitKind, hword, kind_waitWord hk ho hv],
    by rw [waitObj, hword, obj_waitWord kind ho value], by rw [hword, value_waitWord kind ho hv], hcycles⟩

theorem after_waitOp_begins {s : State} {c sop kind : Nat} {f : Cell} {obj value : Word → Nat} (hf : rowVerdict s c f ≠ .bad)
    (hc : canIssue s c = true) (hs : sopAt s c = sop) (hr : (coreX s c).released = false) : after (waitOp c sop kind f obj value) s =
      after (beginWait c kind (obj (pcPart s c 0)) (value (pcPart s c 0))) s := by
  rw [waitOp, after_look]
  dsimp only
  rw [hc, hs, decide_eq_true rfl, if_neg (by decide), hr, if_neg (by decide), if_neg hf]

theorem after_waitOp_released {s : State} {c sop kind : Nat} {f : Cell} {obj value : Word → Nat} (hf : rowVerdict s c f ≠ .bad)
    (h : RowReady s c sop false) (hr : (coreX s c).released = true) : after (waitOp c sop kind f obj value) s = after (passOn c f) s := by
  obtain ⟨hc, hs, hh, hflt⟩ := h
  rw [waitOp, after_look]
  dsimp only
  rw [hc, hs, decide_eq_true rfl, if_neg (by decide), if_pos hr, after_issueIf hf hh hflt]

/-- A wait row whose condition has held issues, and the wait is used up. -/
theorem released_row_issues {s : State} {c : Nat} (f : Cell) : RowIssued s (after (passOn c f) s) c (rowAfter (pcOf s c)) ∧
    (coreX (after (passOn c f) s) c).released = false := by
  refine ⟨rowIssued_after_passOn s c f, ?_⟩
  rw [passOn, after_look, coreX_after_issueRow]

/-! ## A wait ends (R124, R423, R425) -/

/-- A wait's condition has held. -/
theorem ended_after_waitReleased (s : State) (c : Nat) : coreState (after (waitReleased c) s) c = 3 ∧
    waitPending (after (waitReleased c) s) c = false ∧ (coreX (after (waitReleased c) s) c).released = true ∧
    (coreX (after (waitReleased c) s) c).inbox = (coreX s c).inbox ∧ (coreX (after (waitReleased c) s) c).cancelling = false := by
  have pages := pages_of_site c
  refine ⟨?_, ?_, ?_, ?_, ?_⟩
  · simp (disch := omega) [waitReleased, coreState, rd_after_count, fld_setFld]
  · have : waitReg c ≠ seqPage c + 0x104 := by unfold waitReg; omega
    have : waitReg c = tlyPage c + 0x244 := rfl
    simp (disch := omega) [waitReleased, waitPending, rd_after_count, rd_ctl_other, bit_setBit_same]
  all_goals simp [waitReleased]

/-- A wait has timed out: the core goes on at the timeout row. -/
theorem ended_after_waitTimedOut (s : State) (c : Nat) {row : Nat} (hrow : row < 2048) : coreState (after (waitTimedOut c row) s) c = 3 ∧
    waitPending (after (waitTimedOut c row) s) c = false ∧ pcOf (after (waitTimedOut c row) s) c = row ∧
    (coreX (after (waitTimedOut c row) s) c).issued = (coreX s c).issued ∧
    (coreX (after (waitTimedOut c row) s) c).inbox = (coreX s c).inbox ∧ (coreX (after (waitTimedOut c row) s) c).cancelling = false := by
  have pages := pages_of_site c
  have hreg : waitReg c = tlyPage c + 0x244 := rfl
  refine ⟨?_, ?_, ?_, ?_, ?_, ?_⟩
  · simp (disch := omega) [waitTimedOut, coreState, rd_after_count, fld_setFld]
  · simp (disch := omega) [waitTimedOut, waitPending, rd_after_count, rd_ctl_other, bit_setBit_same]
  · simp (disch := omega) only [waitTimedOut, pcOf, after_seq_cons, after_seq_nil, rd_after_count, rd_ctl_other, rd_ctl_same,
      after_setCoreState, after_wr, fld_ofNat_low 10 (by decide : 10 < 32) hrow]
  all_goals simp [waitTimedOut]

/-! ## Registered waits -/

@[simp] theorem coreX_after_setShw (s : State) (c f d : Nat) : coreX (after (setShw c f) s) d = coreX s d := (within_setShw ..).coreX s d

@[simp] theorem packets_after_setShw (s : State) (c f : Nat) : (after (setShw c f) s).packets = s.packets := (within_setShw ..).packets s

/-- TLY_SHWj stands above every register that a wait's end reads. -/
theorem rd_after_setShw (s : State) {c x : Nat} (f : Nat) (hx : x < tlyPage c + 0x280) : rd (after (setShw c f) s) x = rd s x := by
  rw [setShw, after_look, after_act]
  split
  · exact rd_ctl_other s (by omega) _
  · rfl

theorem flagHeld_after_setShw (s : State) (c g : Nat) {f : Nat} (hf : f < 256) : flagHeld (after (setShw c g) s) c f = flagHeld s c f := by
  have : flagAddr c f < tlyPage c + 0x280 := by
    unfold flagAddr
    omega
  rw [flagHeld, flagHeld, rd_after_setShw s g this]

/-- A registration at a flag that is clear. -/
theorem after_resolveFlag_clear {s : State} {c f : Nat} (h : flagHeld s c f = false) : after (resolveFlag c f) s = s := by
  rw [resolveFlag, after_look, h]
  rfl

theorem coreX_after_withdraw (s : State) (c f i : Nat) : coreX (after (withdraw c f i) s) c = { coreX s c with
    waiters := (coreX s c).waiters.filter (fun w => !(decide (w.flag = f) && decide (w.hidx = i))) } := by
  simp [withdraw, unregister]

@[simp] theorem packets_after_withdraw (s : State) (c f i : Nat) : (after (withdraw c f i) s).packets = s.packets := by
  simp [withdraw, unregister]

theorem rd_after_withdraw (s : State) {c x : Nat} (f i : Nat) (hx : x < tlyPage c + 0x280) : rd (after (withdraw c f i) s) x = rd s x := by
  rw [withdraw, unregister, after_seq_cons, after_seq_cons, after_seq_nil, rd_after_setShw _ _ hx, after_setCore, rd_core]

/-- The inbox of a core once its oldest packet has left it. -/
theorem inbox_after_popInbox {s : State} {c : Nat} {p : Payload} {rest : List Payload} (h : (coreX s c).inbox = p :: rest) :
    (coreX (after (popInbox c) s) c).inbox = rest := by
  rw [after_popInbox, coreX_core_same, h]
  rfl

/-! ## The commands -/

theorem after_actWaitTimeout {s : State} {c : Nat} (hp : waitPending s c = true) (hk : waitKind s c < 2) (hr : (coreX s c).released = false)
    (hc : (coreX s c).cancelling = false) (hl : fld (ctlWordAt s c) 19 11 ≠ 0)
    (ht : 1024 * fld (ctlWordAt s c) 19 11 ≤ (rd s (tlyPage c + 0x248)).toNat) : after (actWaitTimeout c) s =
      if waitsAway s c then after (seq [setCore c (fun x => { x with cancelling := true }),
        send0 c (homeOf s c) (.cancel (waitObj s c) (hidxOf s c) (decide (waitKind s c = 1)) false)]) s
      else after (seq [withdraw c (waitObj s c) (hidxOf s c), waitTimedOut c (fld (ctlWordAt s c) 10 0)]) s := by
  rw [actWaitTimeout, after_look]
  dsimp only
  rw [hp, hr, hc, decide_eq_true hk, decide_eq_true hl, decide_eq_true ht, if_pos (by decide), after_ite]

theorem after_actWaitRelease_counter {s : State} {c : Nat} (hi : (coreX s c).inbox = []) (hp : waitPending s c = true)
    (hk : waitKind s c = 2) (hv : cntValue s c (waitObj s c % 32) = fld (rd s (waitReg c)) 23 8) :
    after (actWaitRelease c) s = after (waitReleased c) s := by
  rw [actWaitRelease, after_look]
  dsimp only
  rw [hi, hp, hk, hv, decide_eq_true rfl, decide_eq_true rfl]
  simp only [Bool.and_self, Bool.or_true, if_true]

theorem after_actWaitRelease_packet {s : State} {c : Nat} {rest : List Payload} (hi : (coreX s c).inbox = .release :: rest)
    (hp : waitPending s c = true) : after (actWaitRelease c) s = after (seq [popInbox c, waitReleased c]) s := by
  rw [actWaitRelease, after_look]
  dsimp only
  rw [hi, hp]
  rfl

theorem after_actWaitRegister {s : State} {c f i : Nat} {clear : Bool} {rest : List Payload}
    (hi : (coreX s c).inbox = .register f i clear :: rest) :
    after (actWaitRegister c) s = after (seq [popInbox c, register c f i clear]) s := by
  rw [actWaitRegister, after_look]
  dsimp only
  rw [hi]

theorem after_actWaitCancel {s : State} {c f i src : Nat} {clear : Bool} {rest : List Payload} {from_ : List Nat}
    (hi : (coreX s c).inbox = .cancel f i clear false :: rest) (hf : (coreX s c).inboxFrom = src :: from_) :
    after (actWaitCancel c) s = after (seq [popInbox c, withdraw c f i, send0 c src
      (.cancelAnswer f clear (!(coreX s c).waiters.any (fun w => decide (w.flag = f) && decide (w.hidx = i))))]) s := by
  rw [actWaitCancel, after_look]
  dsimp only
  rw [hi, hf]
  rfl

theorem after_actWaitCancelAnswer {s : State} {c f : Nat} {clear released : Bool} {rest : List Payload}
    (hi : (coreX s c).inbox = .cancelAnswer f clear released :: rest) : after (actWaitCancelAnswer c) s =
      after (seq [popInbox c, if 0 < (coreX s c).crossed then setCore c (fun x => { x with crossed := x.crossed - 1 })
        else if (coreX s c).cancelling && waitPending s c then
          (if released then seq [setCore c (fun x => { x with cancelling := false }), waitReleased c]
            else waitTimedOut c (fld (ctlWordAt s c) 10 0))
        else act (released && clear) (send0 c (homeOf s c) (.tally 0 f 0 0 false 0))]) s := by
  rw [actWaitCancelAnswer, after_look, hi]

theorem after_withdraw_timedOut (s : State) (c f i row : Nat) (hrow : row < 2048) :
    let t := after (seq [withdraw c f i, waitTimedOut c row]) s
    coreState t c = 3 ∧ waitPending t c = false ∧ pcOf t c = row ∧ (coreX t c).issued = (coreX s c).issued := by
  rw [after_seq_cons, after_seq_cons, after_seq_nil]
  obtain ⟨hstate, hpend, hpc, hissued, -, -⟩ := ended_after_waitTimedOut (after (withdraw c f i) s) c hrow
  exact ⟨hstate, hpend, hpc, by rw [hissued, coreX_after_withdraw]⟩

/-- Settles O16: what each command of a wait comes to, and what the wait's beginning and its two ends leave in the registers. -/
theorem waitsRegisterAndEnd : Obligations.WaitsRegisterAndEnd := by
  unfold Obligations.WaitsRegisterAndEnd
  refine ⟨fun s hs c f hf hc => ⟨fun hr hsop => ?_, fun hr hsop => ?_, fun hr hsop => ?_, fun hr => ⟨fun h => ?_, fun h => ?_, fun h => ?_⟩⟩,
    ⟨fun s hs c f i clear rest hi hlt hclear => ?_, fun s hs c rest hi hp => ?_, fun s hs c hi hp hk hv => ?_⟩,
    fun s hs c hp hk hr hcan hl ht => ⟨fun haway => ?_, fun haway => ?_⟩, fun s hs c f i src clear rest from_ hi hfrom => ?_,
    fun s hs c f clear released rest hi hcross hcan hp => ?_, fun s hs c f clear released rest hi hcross => ?_⟩
  · refine does_of_run hs.1 rfl ?_ ?_ <;> rw [actTwait, after_waitOp_begins hf hc hsop hr]
    · exact (within_beginWait ..).onlyIn s
    · obtain ⟨h1, h2, h3, h4, -, h6⟩ := waits_after_beginWait s c.val (by decide : 0 < 3) (fld_lt (pcPart s c.val 0) 27 20) (by decide : 0 < 65536)
      exact ⟨h1, h2, h3, h4, h6⟩
  · refine does_of_run hs.1 rfl ?_ ?_ <;> rw [actTwaitc, after_waitOp_begins hf hc hsop hr]
    · exact (within_beginWait ..).onlyIn s
    · obtain ⟨h1, h2, h3, h4, -, h6⟩ := waits_after_beginWait s c.val (by decide : 1 < 3) (fld_lt (pcPart s c.val 0) 27 20) (by decide : 0 < 65536)
      exact ⟨h1, h2, h3, h4, h6⟩
  · refine does_of_run hs.1 rfl ?_ ?_ <;> rw [actCwait, after_waitOp_begins hf hc hsop hr]
    · exact (within_beginWait ..).onlyIn s
    · have ho : fld (pcPart s c.val 0) 27 23 < 2 ^ 5 := fld_lt _ _ _
      exact waits_after_beginWait s c.val (by decide : 2 < 3) (by omega) (fld_lt (pcPart s c.val 0) 22 7)
  · refine does_of_run hs.1 rfl ?_ ?_ <;> rw [actTwait, after_waitOp_released hf h hr]
    · exact (within_passOn ..).onlyIn s
    · exact released_row_issues f
  · refine does_of_run hs.1 rfl ?_ ?_ <;> rw [actTwaitc, after_waitOp_released hf h hr]
    · exact (within_passOn ..).onlyIn s
    · exact released_row_issues f
  · refine does_of_run hs.1 rfl ?_ ?_ <;> rw [actCwait, after_waitOp_released hf h hr]
    · exact (within_passOn ..).onlyIn s
    · exact released_row_issues f
  · have e : after (actWaitRegister c.val) s = after (seq [popInbox c.val,
        setCore c.val (fun x => { x with waiters := x.waiters ++ [⟨f, i, clear⟩] }), setShw c.val f]) s := by
      rw [after_actWaitRegister hi, register]
      simp only [after_seq_cons, after_seq_nil]
      rw [after_resolveFlag_clear]
      · rw [flagHeld_after_setShw _ _ _ hlt]
        exact hclear
    refine does_of_run hs.1 rfl ?_ ?_ <;> rw [e]
    · exact (within_seq_cons ((within_popInbox ..).wider rfl) <| within_seq_cons ((within_setCore ..).wider rfl) <|
        within_seq_cons ((within_setShw ..).wider rfl) within_seq_nil : Within [.ctl, .core] _).onlyIn s
    · simp [hi]
  · refine does_of_run hs.1 rfl ?_ ?_ <;> rw [after_actWaitRelease_packet hi hp, after_seq_cons, after_seq_cons, after_seq_nil]
    · exact OnlyIn.trans (((within_popInbox ..).wider rfl).onlyIn s) ((within_waitReleased ..).onlyIn _)
    · obtain ⟨h1, h2, h3, h4, -⟩ := ended_after_waitReleased (after (popInbox c.val) s) c.val
      exact ⟨h1, h2, h3, by rw [h4, inbox_after_popInbox hi]⟩
  · refine does_of_run hs.1 rfl ?_ ?_ <;> rw [after_actWaitRelease_counter hi hp hk hv]
    · exact (within_waitReleased ..).onlyIn s
    · obtain ⟨h1, h2, h3, -, -⟩ := ended_after_waitReleased s c.val
      exact ⟨h1, h2, h3⟩
  · have e := after_actWaitTimeout hp hk hr hcan hl ht
    rw [haway, if_neg (by decide)] at e
    refine does_of_run hs.1 rfl ?_ ?_ <;> rw [e]
    · exact (within_seq_cons (within_withdraw ..) <| within_seq_cons (within_waitTimedOut ..) within_seq_nil : Within [.ctl, .core] _).onlyIn s
    · exact after_withdraw_timedOut s c.val _ _ _ (fld_lt _ _ _)
  · have e := after_actWaitTimeout hp hk hr hcan hl ht
    rw [haway, if_pos rfl] at e
    refine does_of_run hs.1 rfl ?_ ?_ <;> rw [e]
    · exact (within_seq_cons ((within_setCore ..).wider rfl) <| within_seq_cons ((within_send0 ..).wider rfl) within_seq_nil :
        Within [.core, .packets] _).onlyIn s
    · simp [herdNo_eq (rd_core s _ _ _)]
  · refine does_of_run hs.1 rfl ?_ ?_ <;> rw [after_actWaitCancel hi hfrom]
    · exact (within_seq_cons ((within_popInbox ..).wider rfl) <| within_seq_cons ((within_withdraw ..).wider rfl) <|
        within_seq_cons ((within_send0 ..).wider rfl) within_seq_nil : Within [.ctl, .core, .packets] _).onlyIn s
    · have pages := pages_of_site c.val
      have hherd : herdNo (after (withdraw c.val f i) (after (popInbox c.val) s)) c.val = herdNo s c.val :=
        herdNo_eq (rd_after_withdraw _ _ _ (by omega))
      simp only [after_seq_cons, after_seq_nil, after_send0, coreX_packets, packets_packets, coreX_after_withdraw, packets_after_withdraw,
        hherd]
      simp
  · have e := after_actWaitCancelAnswer hi
    rw [if_neg (by omega), hcan, hp, if_pos (by decide), after_seq_cons, after_seq_cons, after_seq_nil] at e
    refine does_of_run hs.1 rfl ?_ ?_ <;> rw [e]
    · refine OnlyIn.trans (((within_popInbox ..).wider rfl).onlyIn s) (Within.onlyIn ?_ _)
      exact within_ite (within_seq_cons ((within_setCore ..).wider rfl) <| within_seq_cons (within_waitReleased ..) within_seq_nil)
        (within_waitTimedOut ..)
    · cases released
      case false =>
        obtain ⟨h1, h2, h3, -, h5, h6⟩ := ended_after_waitTimedOut (after (popInbox c.val) s) c.val
          (fld_lt (ctlWordAt s c.val) 10 0)
        rw [if_neg (by decide)]
        exact ⟨h1, h2, h5.trans (inbox_after_popInbox hi), h6, nofun, fun _ => h3⟩
      case true =>
        obtain ⟨h1, h2, h3, h4, h5⟩ := ended_after_waitReleased
          (after (setCore c.val (fun x => { x with cancelling := false })) (after (popInbox c.val) s)) c.val
        rw [if_pos rfl, after_seq_cons, after_seq_cons, after_seq_nil]
        refine ⟨h1, h2, ?_, h5, fun _ => h3, nofun⟩
        refine h4.trans ?_
        rw [after_setCore, coreX_core_same]
        exact inbox_after_popInbox hi
  · have e := after_actWaitCancelAnswer hi
    rw [if_pos hcross, after_seq_cons, after_seq_cons, after_seq_nil] at e
    refine does_of_run hs.1 rfl ?_ ?_ <;> rw [e]
    · exact OnlyIn.trans ((within_popInbox ..).onlyIn s) ((within_setCore ..).onlyIn _)
    · simp [hi]

end Sys2Proof.Machine
end

section
/-! Tally commands, their packets and the flag registers (O17). -/

namespace Sys2Proof.Machine

-- One declaration after the other: elaborated side by side they take more memory than the check has.
set_option Elab.async false

/-! ## A flag in the unit that holds it -/

/-- A flag that is not shared has no mirrors. -/
theorem after_sendMirrors_unshared {f : Nat} (hf : f < 224) (s : State) (c : Nat) (v : Bool) : after (sendMirrors c f v) s = s := by
  rw [sendMirrors, after_look]
  split
  · rw [after_act, if_neg (by simpa using hf)]
  · rfl

theorem after_putFlag_unshared {f : Nat} (hf : f < 224) (s : State) (c : Nat) (v : Bool) : after (putFlag c f v) s =
    if flagHeld s c f = v then s else after (wrBit (flagAddr c f) (f % 32) v) s := by
  rw [putFlag, after_look, after_ite, after_seq_cons, after_seq_cons, after_seq_nil, after_sendMirrors_unshared hf]
  rfl

theorem onlyIn_putFlag {f : Nat} (hf : f < 224) (s : State) (c : Nat) (v : Bool) : OnlyIn [.ctl] s (after (putFlag c f v) s) := by
  rw [after_putFlag_unshared hf]
  split
  · exact onlyIn_refl _ s
  · exact (within_wrBit ..).onlyIn s

@[simp] theorem coreX_after_putFlag (s : State) (c f : Nat) (v : Bool) (d : Nat) : coreX (after (putFlag c f v) s) d = coreX s d :=
  (within_putFlag ..).coreX s d

theorem packets_after_putFlag {f : Nat} (hf : f < 224) (s : State) (c : Nat) (v : Bool) : (after (putFlag c f v) s).packets = s.packets := by
  rw [after_putFlag_unshared hf]
  split <;> rfl

theorem rd_after_putFlag {f x : Nat} {c : Nat} (hx : x < tlyPage c + 0x100 ∨ tlyPage c + 0x11C ≤ x) (hf : f < 224) (s : State) (v : Bool) :
    rd (after (putFlag c f v) s) x = rd s x := by
  rw [after_putFlag_unshared hf]
  split
  · rfl
  · rw [after_wrBit, rd_ctl_other _ (by unfold flagAddr; omega)]

/-- A flag's value moves no other flag. -/
theorem flagHeld_after_wrBit (s : State) (c f g : Nat) (v : Bool) :
    flagHeld (after (wrBit (flagAddr c f) (f % 32) v) s) c g = if g = f then v else flagHeld s c g := by
  rw [after_wrBit]
  split
  case isTrue h => rw [h, flagHeld, rd_ctl_same, bit_setBit_same _ (Nat.mod_lt _ (by decide))]
  case isFalse h =>
    rw [flagHeld]
    by_cases hw : flagAddr c g = flagAddr c f
    · rw [hw, rd_ctl_same, bit_setBit_other _ (Nat.mod_lt _ (by decide)) (by unfold flagAddr at hw; omega), flagHeld, hw]
    · rw [rd_ctl_other _ hw, flagHeld]

theorem flagHeld_after_putFlag {f : Nat} (hf : f < 224) (s : State) (c g : Nat) (v : Bool) :
    flagHeld (after (putFlag c f v) s) c g = if g = f then v else flagHeld s c g := by
  rw [after_putFlag_unshared hf]
  split
  case isTrue h =>
    split
    · rwa [‹g = f›]
    · rfl
  case isFalse => exact flagHeld_after_wrBit ..

/-- A TSET at a flag that no wait is registered at (R422): the flag is set, and the empty registration is taken off. -/
theorem after_setFlag_unwaited {s : State} {c f : Nat} (hf : f < 224) (hw : waitersOn s c f = []) : after (setFlag c f) s =
    after (setCore c (fun x => { x with waiters := x.waiters.filter (fun w => !(decide (w.flag = f) && !w.clear)) }))
      (after (putFlag c f true) s) := by
  have hput : waitersOn (after (putFlag c f true) s) c f = [] := by rw [waitersOn, coreX_after_putFlag]; exact hw
  have hclear {t : State} (h : waitersOn t c f = []) : clearWaits t c f = false := by rw [clearWaits, h]; rfl
  have hheld : flagHeld (after (putFlag c f true) s) c f = true := by rw [flagHeld_after_putFlag hf, if_pos rfl]
  have hrelease (t : State) (h : waitersOn t c f = []) : after (releaseWaits c f) t = after (setCore c
      (fun x => { x with waiters := x.waiters.filter (fun w => !(decide (w.flag = f) && !w.clear)) })) t := by
    rw [releaseWaits, after_look]
    dsimp only
    rw [h, after_seq_cons, after_seq_cons, after_seq_cons, after_seq_nil, unregister, after_seq_cons, after_seq_cons, after_seq_nil,
      setShw, after_look, after_act, if_neg (by simpa using hf)]
    rfl
  rw [setFlag, after_look, hclear hw, Bool.and_false, if_neg (by decide), after_seq_cons, after_seq_cons, after_seq_nil]
  generalize after (putFlag c f true) s = t at hput hheld
  rw [resolveFlag, after_look, hheld, hclear hput, after_act, if_pos rfl, after_seq_cons, after_seq_cons, after_seq_nil, hrelease t hput]
  rfl

theorem onlyIn_setFlag {s : State} {c f : Nat} (hf : f < 224) (hw : waitersOn s c f = []) :
    OnlyIn [.ctl, .core] s (after (setFlag c f) s) := by
  rw [after_setFlag_unwaited hf hw]
  exact ((onlyIn_putFlag hf s c true).wider rfl).trans (((within_setCore ..).wider rfl).onlyIn _)

theorem flagHeld_core (s : State) (d : Nat) (x : CoreX) (c g : Nat) : flagHeld ((Upd.core d x).apply s) c g = flagHeld s c g := by
  rw [flagHeld, flagHeld, rd_core]

theorem flagHeld_after_setFlag {s : State} {c f : Nat} (hf : f < 224) (hw : waitersOn s c f = []) (g : Nat) :
    flagHeld (after (setFlag c f) s) c g = if g = f then true else flagHeld s c g := by
  rw [after_setFlag_unwaited hf hw, after_setCore, flagHeld_core, flagHeld_after_putFlag hf]

/-- Beside its waits such a TSET leaves a core's data. -/
theorem coreX_after_setFlag {s : State} {c f : Nat} (hf : f < 224) (hw : waitersOn s c f = []) : coreX (after (setFlag c f) s) c =
    { coreX s c with waiters := (coreX s c).waiters.filter (fun w => !(decide (w.flag = f) && !w.clear)) } := by
  rw [after_setFlag_unwaited hf hw, after_setCore, coreX_core_same, coreX_after_putFlag]

theorem packets_after_setFlag {s : State} {c f : Nat} (hf : f < 224) (hw : waitersOn s c f = []) :
    (after (setFlag c f) s).packets = s.packets := by
  rw [after_setFlag_unwaited hf hw, after_setCore, packets_core, packets_after_putFlag hf]

theorem rd_after_setFlag {s : State} {c f x : Nat} (hf : f < 224) (hw : waitersOn s c f = [])
    (hx : x < tlyPage c + 0x100 ∨ tlyPage c + 0x11C ≤ x) : rd (after (setFlag c f) s) x = rd s x := by
  rw [after_setFlag_unwaited hf hw, after_setCore, rd_core, rd_after_putFlag hx hf]

theorem flagHeld_after_count (s : State) (c f k n : Nat) (hk : k < 8) : flagHeld (after (count (tlyPage c) k n) s) c f = flagHeld s c f := by
  rw [flagHeld, flagHeld, rd_after_count _ _ _ (by unfold flagAddr; omega) (by unfold flagAddr; omega) (by unfold flagAddr; omega)]

/-! ## Commands of the core (R106, R428) -/

theorem op_of_nextToStart {s : State} {c part op : Nat} {i : Issued} (h : nextToStart s c part op = some i) : opOf part i.word = op := by
  rw [nextToStart] at h
  split at h
  · cases h
  · have := List.find?_some h
    simp only [Bool.and_eq_true, decide_eq_true_eq] at this
    exact this.1.1.2

/-- What a command's opcode acts on: a flag, or for CINC a counter. -/
def tallyIndex (kind : Fin 3) (i : Issued) : Nat := if kind = 2 then fld i.word 12 8 else fld i.word 15 8

theorem after_actTally {s : State} {c op : Nat} {i : Issued} (kind : Fin 3) (hi : nextToStart s c 3 op = some i)
    (hh : tallyHeld s c i = false) : after (actTally c op kind) s =
      if tallyLocal s c i then after (seq [tallyEffect c kind (tallyIndex kind i) (BitVec.ofNat 8 (fld i.word 7 0)) (stepTag s c) true,
        retire c i]) s
      else after (seq [send0 c (tallyTarget s c i) (.tally kind (tallyIndex kind i) (BitVec.ofNat 8 (fld i.word 7 0))
        (BitVec.ofNat 8 (stepTag s c)) true i.row), setIssued c i { i with started := true }]) s := by
  rw [actTally, after_look, hi]
  dsimp only
  rw [hh, if_neg (by decide), after_ite]
  rfl

theorem tallyLocal_of_unshared {i : Issued} (h : bit i.word 26 = false) (hs : fld i.word 15 8 < 224 ∨ opOf 3 i.word = 0x0A) (s : State)
    (c : Nat) : tallyLocal s c i = true := by
  have : tallyShared i = false := by
    unfold tallyShared
    rcases hs with hs | hs
    · rw [decide_eq_false (show ¬ 224 ≤ fld i.word 15 8 by omega), Bool.and_false, Bool.false_and]
    · rw [hs]
      rfl
  rw [tallyLocal, this, h]
  rfl

/-- A command that acts elsewhere leaves as a packet. -/
theorem does_remoteTally {s : State} (hs : Ready s) {cmd : Instr} {c op : Nat} {i : Issued} {kind : Fin 3} (hi : nextToStart s c 3 op = some i)
    (hh : tallyHeld s c i = false) (hl : tallyLocal s c i = false) (hc : exec cmd s = run (actTally c op kind) s) :
    Does cmd s [.core, .packets] fun t => t.packets = s.packets ++ [tallyOut s c i kind (tallyIndex kind i)] ∧
      (coreX t c).issued = swapInsn (coreX s c) i (begun i) := by
  have e := after_actTally kind hi hh
  rw [hl, if_neg (by decide)] at e
  refine does_of_run hs.1 hc ?_ ?_ <;> rw [e]
  · exact (within_seq_cons ((within_send0 ..).wider rfl) <| within_seq_cons ((within_setIssued ..).wider rfl) within_seq_nil :
      Within [.core, .packets] _).onlyIn s
  · rw [after_seq_cons, after_seq_cons, after_seq_nil, after_send0, setIssued, after_setCore, packets_core, packets_packets, coreX_core_same,
      coreX_packets]
    exact ⟨rfl, rfl⟩

/-- The effect of a TSET or TCLR, counted. -/
theorem after_tallyEffect_flag (s : State) (c : Nat) {kind : Fin 3} (hk : kind ≠ 2) (f : Nat) (d : Byte) (tag : Nat) (b : Bool) :
    after (tallyEffect c kind f d tag b) s =
      after (seq [if kind = 0 then setFlag c f else putFlag c f false, count (tlyPage c) 0 1]) s := by
  unfold tallyEffect
  rw [after_look, decide_eq_true hk, Bool.true_or]
  fin_cases kind
  · rfl
  · rfl
  · exact absurd rfl hk

theorem onlyIn_of_seq_two {ps : List Part} {s : State} {a b : Act} (ha : OnlyIn ps s (after a s)) (hb : Within ps b) :
    OnlyIn ps s (after (seq [a, b]) s) := by
  rw [after_seq_cons, after_seq_cons, after_seq_nil]
  exact ha.trans (hb.onlyIn _)

/-- A TSET in its own unit, at a flag without a wait. -/
theorem effect_of_tset {s : State} {c f : Nat} (hf : f < 224) (hw : waitersOn s c f = []) (d : Byte) (tag : Nat) (b : Bool) :
    let t := after (tallyEffect c 0 f d tag b) s
    OnlyIn [.ctl, .core] s t ∧ flagHeld t c f = true ∧ (coreX t c).issued = (coreX s c).issued ∧ (coreX t c).inbox = (coreX s c).inbox ∧
      t.packets = s.packets ∧ herdNo t c = herdNo s c := by
  have pages := pages_of_site c
  rw [after_tallyEffect_flag s c (by decide), if_pos rfl]
  refine ⟨onlyIn_of_seq_two (onlyIn_setFlag hf hw) ((within_count ..).wider rfl), ?_⟩
  rw [after_seq_cons, after_seq_cons, after_seq_nil, flagHeld_after_count _ _ _ _ _ (by decide), flagHeld_after_setFlag hf hw, if_pos rfl,
    coreX_after_count, coreX_after_setFlag hf hw, (within_count ..).packets, packets_after_setFlag hf hw]
  refine ⟨rfl, rfl, rfl, rfl, herdNo_eq ?_⟩
  rw [rd_after_count _ _ _ (by omega) (by omega) (by omega), rd_after_setFlag hf hw (by omega)]

/-- A TCLR in its own unit. -/
theorem effect_of_tclr {c f : Nat} (hf : f < 224) (s : State) (d : Byte) (tag : Nat) (b : Bool) :
    let t := after (tallyEffect c 1 f d tag b) s
    OnlyIn [.ctl] s t ∧ flagHeld t c f = false ∧ (coreX t c).issued = (coreX s c).issued := by
  rw [after_tallyEffect_flag s c (by decide), if_neg (by decide)]
  refine ⟨onlyIn_of_seq_two (onlyIn_putFlag hf s c false) (within_count ..), ?_⟩
  rw [after_seq_cons, after_seq_cons, after_seq_nil, flagHeld_after_count _ _ _ _ _ (by decide), flagHeld_after_putFlag hf, if_pos rfl,
    coreX_after_count, coreX_after_putFlag]
  exact ⟨rfl, rfl⟩

theorem stepGap_own (s : State) (c n : Nat) : stepGap s c n (stepTag s c) true = 0 := by
  rw [stepGap, Nat.add_sub_cancel_left]
  split <;> rfl

/-- A CINC of the core's own step in its own unit. -/
theorem effect_of_cinc {c n : Nat} (hn : n < 32) (s : State) (d : Byte) :
    let t := after (tallyEffect c 2 n d (stepTag s c) true) s
    OnlyIn [.ctl] s t ∧ cntValue t c n = (cntValue s c n + delta16 d) % 65536 ∧ (coreX t c).issued = (coreX s c).issued := by
  have e : after (tallyEffect c 2 n d (stepTag s c) true) s =
      after (seq [wrFld (cntAddr c n) 15 0 (cntValue s c n + delta16 d), count (tlyPage c) 0 1]) s := by
    unfold tallyEffect
    rw [after_look, stepGap_own]
    dsimp only
    rw [after_seq_cons, after_seq_cons, cincAt, after_look]
    dsimp only
    rw [stepGap_own, if_pos rfl, after_seq_cons, after_seq_cons]
    rfl
  refine ⟨(Within.onlyIn (a := tallyEffect c 2 n d (stepTag s c) true) ?_ s), ?_⟩
  · exact within_look fun s => within_seq_cons (within_cincAt ..) (within_seq_cons (within_act (within_count ..)) within_seq_nil)
  · rw [e, after_seq_cons, after_seq_cons, after_seq_nil, coreX_after_count]
    refine ⟨?_, rfl⟩
    have : cntAddr c n = tlyPage c + 0x140 + 4 * n := rfl
    rw [cntValue, rd_after_count _ _ _ (by omega) (by omega) (by omega), after_wrFld, rd_ctl_same, fld_setFld _ (by decide) (by decide)]
    rfl

theorem issued_after_retire (s : State) (c : Nat) (i : Issued) :
    (coreX (after (retire c i) s) c).issued = (coreX s c).issued.filter (fun k => decide (k.id ≠ i.id)) := by
  rw [retire, after_setCore, coreX_core_same]

/-- A command that takes effect in its own unit retires. -/
theorem does_localTally {s : State} (hs : Ready s) {cmd : Instr} {c op : Nat} {i : Issued} {kind : Fin 3} {P : State → Prop}
    (hi : nextToStart s c 3 op = some i) (hh : tallyHeld s c i = false) (hl : tallyLocal s c i = true)
    (hc : exec cmd s = run (actTally c op kind) s) {t : State}
    (ht : t = after (tallyEffect c kind (tallyIndex kind i) (BitVec.ofNat 8 (fld i.word 7 0)) (stepTag s c) true) s)
    (hframe : OnlyIn [.ctl, .core] s t) (hissued : (coreX t c).issued = (coreX s c).issued) (hP : P (after (retire c i) t)) :
    Does cmd s [.ctl, .core] fun u => P u ∧ (coreX u c).issued = (coreX s c).issued.filter (fun k => decide (k.id ≠ i.id)) := by
  have e := after_actTally kind hi hh
  rw [hl, if_pos rfl, after_seq_cons, after_seq_cons, after_seq_nil, ← ht] at e
  refine does_of_run hs.1 hc ?_ ?_ <;> rw [e]
  · exact hframe.trans (((within_retire ..).wider rfl).onlyIn _)
  · exact ⟨hP, by rw [issued_after_retire, hissued]⟩

/-! ## Packets at the unit (R428, R429) -/

theorem after_actTallyPacketArrive {s : State} {c f row src : Nat} {k : Fin 3} {d step : Byte} {rest : List Payload} {from_ : List Nat}
    (hi : (coreX s c).inbox = .tally k f d step true row :: rest) (hf : (coreX s c).inboxFrom = src :: from_) :
    after (actTallyPacketArrive c) s = after (seq [popInbox c, act (!fenced s (tlyPage c)) (tallyEffect c k f d step.toNat true),
      send0 c src (.tallyAck row (!!fenced s (tlyPage c)))]) s := by
  rw [actTallyPacketArrive, after_look]
  dsimp only
  rw [hi, hf]
  rfl

theorem after_actTallyAck {s : State} {c row : Nat} {i : Issued} {fenced_ : Bool} {rest : List Payload}
    (hi : (coreX s c).inbox = .tallyAck row fenced_ :: rest)
    (hf : (coreX s c).issued.find? (fun i => decide (i.part = 3) && i.started && decide (i.row = row) && decide (8 ≤ opOf 3 i.word)) = some i) :
    after (actTallyAck c) s = after (seq [popInbox c, retire c i, act fenced_ (count (tlyPage c) 4 1)]) s := by
  rw [actTallyAck, after_look, hi]
  dsimp only
  rw [hf]

theorem after_actMirrorUpdate {s : State} {c j : Nat} {v : Bool} {rest : List Payload} (hi : (coreX s c).inbox = .mirror j v :: rest) :
    after (actMirrorUpdate c) s = after (seq [popInbox c, setCore c (fun x => { x with mirror := setBit x.mirror j v })]) s := by
  rw [actMirrorUpdate, after_look, hi]

/-! ## The flag registers (R424) -/

theorem after_flagWrite {k : Nat} (hk : k < 7) (s : State) (c : Nat) (v : Word) (set : Bool) : after (flagWrite c k v set) s =
    after (each (bitList v.toNat 32) fun j => if set then setFlag c (32 * k + j) else clearFlag c (32 * k + j)) s := by
  rw [flagWrite, after_look, if_neg (by omega)]

theorem mem_bitList {v n j : Nat} : j ∈ bitList v n ↔ j < n ∧ v.testBit j = true := by simp [bitList]

/-- Flags of one word set one after the other, where no wait is registered. -/
theorem setFlags_unwaited {c k : Nat} (hk : k < 7) (js : List Nat) (hjs : ∀ j ∈ js, j < 32) (s : State) (hw : (coreX s c).waiters = []) :
    let t := after (each js fun j => setFlag c (32 * k + j)) s
    OnlyIn [.ctl, .core] s t ∧ ∀ j, flagHeld t c (32 * k + j) = (flagHeld s c (32 * k + j) || js.contains j) := by
  induction js generalizing s with
  | nil => exact ⟨onlyIn_refl _ s, fun j => by simp⟩
  | cons j js ih =>
    have hj := hjs j (List.mem_cons_self ..)
    have hf : 32 * k + j < 224 := by omega
    have hon : waitersOn s c (32 * k + j) = [] := by simp [waitersOn, hw]
    have hw' : (coreX (after (setFlag c (32 * k + j)) s) c).waiters = [] := by simp [coreX_after_setFlag hf hon, hw]
    obtain ⟨hframe, hflags⟩ := ih (fun i hi => hjs i (List.mem_cons_of_mem _ hi)) _ hw'
    rw [after_each_cons]
    refine ⟨(onlyIn_setFlag hf hon).trans hframe, fun i => ?_⟩
    rw [hflags, flagHeld_after_setFlag hf hon, List.contains_cons]
    by_cases h : i = j
    · simp [h]
    · rw [if_neg (by omega), beq_false_of_ne h, Bool.false_or]

/-- Flags of one word cleared one after the other. -/
theorem clearFlags_unshared {c k : Nat} (hk : k < 7) (js : List Nat) (hjs : ∀ j ∈ js, j < 32) (s : State) :
    let t := after (each js fun j => clearFlag c (32 * k + j)) s
    OnlyIn [.ctl, .core] s t ∧ ∀ j, flagHeld t c (32 * k + j) = (flagHeld s c (32 * k + j) && !js.contains j) := by
  induction js generalizing s with
  | nil => exact ⟨onlyIn_refl _ s, fun j => by simp⟩
  | cons j js ih =>
    have hj := hjs j (List.mem_cons_self ..)
    have hf : 32 * k + j < 224 := by omega
    obtain ⟨hframe, hflags⟩ := ih (fun i hi => hjs i (List.mem_cons_of_mem _ hi)) (after (clearFlag c (32 * k + j)) s)
    rw [after_each_cons]
    refine ⟨((onlyIn_putFlag hf s c false).wider rfl).trans hframe, fun i => ?_⟩
    rw [hflags, clearFlag, flagHeld_after_putFlag hf, List.contains_cons]
    by_cases h : i = j
    · simp [h]
    · rw [if_neg (by omega), beq_false_of_ne h, Bool.false_or]

theorem contains_bitList (v : Word) {j : Nat} (hj : j < 32) : (bitList v.toNat 32).contains j = bit v j := by
  rw [Bool.eq_iff_iff, List.contains_iff_mem, mem_bitList, bit, BitVec.getLsbD]
  simp [hj]

theorem tlyFlag_page (c k o : Nat) (hk : k < 8) (ho : o < 0x200) : (tlyPage c + o + 4 * k) / 4096 = tlyPage c / 4096 := by
  have := pages_of_site c
  omega

/-- Settles O17: a command's effect in its unit, the packet that it leaves as, and what arrives there. -/
theorem tallies : Obligations.Tallies := by
  unfold Obligations.Tallies
  refine ⟨⟨fun s hs c i hi hh hb hf hw => ?_, fun s hs c i hi hh hb hf => ?_, fun s hs c i hi hh hb => ?_,
    fun s hs c i hh hl => ⟨fun hi => does_remoteTally hs hi hh hl rfl, fun hi => does_remoteTally hs hi hh hl rfl,
      fun hi => does_remoteTally hs hi hh hl rfl⟩⟩,
    fun s hs c f row src d step rest from_ hi hfrom hfen hf hw => ?_, fun s hs c k f row src d step rest from_ hi hfrom hfen => ?_,
    fun s hs c i row fenced_ rest hi hfind => ?_, fun s hs c j v rest hi => ?_, fun s hs c k v ht hk hw => ?_, fun s hs c k v ht hk => ?_⟩
  · obtain ⟨hframe, hflag, hissued, -⟩ := effect_of_tset hf hw (BitVec.ofNat 8 (fld i.word 7 0)) (stepTag s c.val) true
    exact does_localTally hs hi hh (tallyLocal_of_unshared hb (.inl hf) s c.val) rfl rfl hframe hissued hflag
  · obtain ⟨hframe, hflag, hissued⟩ := effect_of_tclr (c := c.val) hf s (BitVec.ofNat 8 (fld i.word 7 0)) (stepTag s c.val) true
    exact does_localTally hs hi hh (tallyLocal_of_unshared hb (.inl hf) s c.val) rfl rfl (hframe.wider rfl) hissued hflag
  · obtain ⟨hframe, hcnt, hissued⟩ := effect_of_cinc (c := c.val) (fld_lt i.word 12 8) s (BitVec.ofNat 8 (fld i.word 7 0))
    exact does_localTally hs hi hh (tallyLocal_of_unshared hb (.inr (op_of_nextToStart hi)) s c.val) rfl rfl (hframe.wider rfl) hissued hcnt
  · have e := after_actTallyPacketArrive hi hfrom
    have hpop : waitersOn (after (popInbox c.val) s) c.val f = [] := by
      rw [waitersOn, after_popInbox, coreX_core_same]
      exact hw
    obtain ⟨hframe, hflag, -, hinbox, hpackets, hherd⟩ := effect_of_tset hf hpop d step.toNat true
    rw [hfen, after_seq_cons, after_seq_cons, after_seq_cons, after_seq_nil, after_act, if_pos (by decide)] at e
    refine does_of_run hs.1 rfl ?_ ?_ <;> rw [e]
    · exact (((within_popInbox c.val).wider rfl).onlyIn s).trans
        ((hframe.wider rfl).trans (((within_send0 ..).wider rfl).onlyIn _))
    · rw [after_send0, coreX_packets, packets_packets, hinbox, inbox_after_popInbox hi, hpackets, hherd]
      exact ⟨hflag, rfl, rfl⟩
  · have e := after_actTallyPacketArrive hi hfrom
    rw [hfen, after_seq_cons, after_seq_cons, after_seq_cons, after_seq_nil, after_act, if_neg (by decide)] at e
    refine does_of_run hs.1 rfl ?_ ?_ <;> rw [e]
    · exact (((within_popInbox c.val).wider rfl).onlyIn s).trans (((within_send0 ..).wider rfl).onlyIn _)
    · rw [after_send0, coreX_packets, packets_packets, inbox_after_popInbox hi]
      exact ⟨rfl, rfl⟩
  · have e := after_actTallyAck hi hfind
    have hlast : Within [.ctl] (act fenced_ (count (tlyPage c.val) 4 1)) := within_act (within_count ..)
    refine does_of_run hs.1 rfl ?_ ?_ <;> rw [e]
    · exact (within_seq_cons ((within_popInbox ..).wider rfl) <| within_seq_cons ((within_retire ..).wider rfl) <|
        within_seq_cons (hlast.wider rfl) within_seq_nil : Within [.ctl, .core] _).onlyIn s
    · rw [after_seq_cons, after_seq_cons, after_seq_cons, after_seq_nil, hlast.coreX, issued_after_retire]
      refine ⟨?_, ?_⟩
      · rw [retire, after_setCore, coreX_core_same]
        exact inbox_after_popInbox hi
      · rw [after_popInbox, coreX_core_same]
  · have e := after_actMirrorUpdate hi
    refine does_of_run hs.1 rfl ?_ ?_ <;> rw [e]
    · exact (within_seq_cons (within_popInbox ..) <| within_seq_cons (within_setCore ..) within_seq_nil).onlyIn s
    · rw [after_seq_cons, after_seq_cons, after_seq_nil, after_setCore, coreX_core_same]
      exact ⟨by rw [after_popInbox, coreX_core_same], inbox_after_popInbox hi⟩
  · obtain ⟨hframe, hflags⟩ := setFlags_unwaited hk (bitList v.toNat 32) (fun j hj => (mem_bitList.mp hj).1) s hw
    refine does_guarded_ring hs ht (tlyFlag_page c.val k.val 0x100 k.isLt (by decide)) rfl ?_ ?_ <;> rw [after_flagWrite hk]
    · exact hframe
    · exact fun j hj => (hflags j).trans (by rw [contains_bitList v hj])
  · obtain ⟨hframe, hflags⟩ := clearFlags_unshared (c := c.val) hk (bitList v.toNat 32) (fun j hj => (mem_bitList.mp hj).1) s
    refine does_guarded_ring hs ht (tlyFlag_page c.val k.val 0x120 k.isLt (by decide)) rfl ?_ ?_ <;> rw [after_flagWrite hk]
    · exact hframe
    · exact fun j hj => (hflags j).trans (by rw [contains_bitList v hj])

end Sys2Proof.Machine
end

section
/-! One core changes, in its own pages alone: the cube array's products (O18), tile loads and the configuration registers (O20). -/

namespace Sys2Proof.Machine

-- One declaration after the other: elaborated side by side they take more memory than the check has.
set_option Elab.async false

/-! ## What an act does to the cores -/

/-- Core c holds f of what it held, and the other cores stand. -/
theorem coreIs_setCore (s : State) (c : Nat) (f : CoreX → CoreX) : CoreIs s (after (setCore c f) s) c (f (coreX s c)) :=
  ⟨coreX_core_same _ _ _, fun _ hd => coreX_core_other _ hd _⟩

theorem CoreIs.setCore {s t : State} {c : Nat} {x : CoreX} (h : CoreIs s t c x) (f : CoreX → CoreX) :
    CoreIs s (after (Machine.setCore c f) t) c (f x) := by
  obtain ⟨hx, hother⟩ := h
  refine ⟨?_, fun d hd => (coreX_core_other _ hd _).trans (hother d hd)⟩
  rw [after_setCore, coreX_core_same, hx]

theorem coreIs_refl (s : State) (c : Nat) : CoreIs s s c (coreX s c) := ⟨rfl, fun _ _ => rfl⟩

/-- An act without the cores among its fields leaves them all. -/
theorem CoreIs.within {s t : State} {c : Nat} {x : CoreX} (h : CoreIs s t c x) {ps : List Part} {a : Act} (ha : Within ps a)
    (hp : ps.contains .core = false := by rfl) : CoreIs s (after a t) c x := by
  obtain ⟨hx, hother⟩ := h
  exact ⟨(ha.coreX t c hp).trans hx, fun d hd => (ha.coreX t d hp).trans (hother d hd)⟩

theorem CoreIs.retire {s t : State} {c : Nat} {x : CoreX} (h : CoreIs s t c x) (i : Issued) :
    CoreIs s (after (retire c i) t) c { x with issued := dropInsn x i } := h.setCore _

theorem CoreIs.setIssued {s t : State} {c : Nat} {x : CoreX} (h : CoreIs s t c x) (i j : Issued) :
    CoreIs s (after (setIssued c i j) t) c { x with issued := swapInsn x i j } := h.setCore _

theorem coreIs_retire (s : State) (c : Nat) (i : Issued) :
    CoreIs s (after (retire c i) s) c { coreX s c with issued := dropInsn (coreX s c) i } := (coreIs_refl s c).retire i

theorem coreIs_setIssued (s : State) (c : Nat) (i j : Issued) :
    CoreIs s (after (setIssued c i j) s) c { coreX s c with issued := swapInsn (coreX s c) i j } := (coreIs_refl s c).setIssued i j

/-! ## Acts that write the registers of some pages alone -/

/-- Every register outside the pages is left alone. -/
abbrev WritesIn (pages : List Nat) (a : Act) : Prop := ∀ x, x / 4096 * 4096 ∉ pages → KeepsReg x a

theorem WritesIn.regsOnly {pages : List Nat} {a : Act} (h : WritesIn pages a) (s : State) : RegsOnly pages s (after a s) :=
  fun x hx => (h x hx).rd s

theorem RegsOnly.trans {pages : List Nat} {s t u : State} (h : RegsOnly pages s t) (g : RegsOnly pages t u) : RegsOnly pages s u :=
  fun x hx => (g x hx).trans (h x hx)

theorem RegsOnly.refl (pages : List Nat) (s : State) : RegsOnly pages s s := fun _ _ => rfl

theorem RegsAt.trans {as : List Nat} {s t u : State} (h : RegsAt as s t) (g : RegsAt as t u) : RegsAt as s u :=
  fun x hx => (g x hx).trans (h x hx)

theorem Within.regsAt {ps : List Part} {a : Act} (h : Within ps a) (as : List Nat) (s : State) (hp : ps.contains .ctl = false := by rfl) :
    RegsAt as s (after a s) := fun x _ => h.rd s x hp

theorem Within.regsOnly {ps : List Part} {a : Act} (h : Within ps a) (pages : List Nat) (s : State)
    (hp : ps.contains .ctl = false := by rfl) : RegsOnly pages s (after a s) := fun x _ => h.rd s x hp

theorem Within.writesIn {ps : List Part} {a : Act} (h : Within ps a) (pages : List Nat) (hp : ps.contains .ctl = false := by rfl) :
    WritesIn pages a := fun x _ => h.keepsReg x hp

theorem writesIn_nop (pages : List Nat) : WritesIn pages nop := fun _ _ => keeps_nop

theorem writesIn_seq_nil (pages : List Nat) : WritesIn pages (seq []) := fun _ _ => keeps_seq_nil

theorem WritesIn.cons {pages : List Nat} {a : Act} {as : List Act} (ha : WritesIn pages a) (has : WritesIn pages (seq as)) :
    WritesIn pages (seq (a :: as)) := fun x hx => keeps_seq_cons (ha x hx) (has x hx)

theorem WritesIn.act {pages : List Nat} {a : Act} (h : WritesIn pages a) (c : Bool) : WritesIn pages (act c a) :=
  fun x hx => keeps_act fun _ => h x hx

theorem writesIn_look {pages : List Nat} {g : State → Act} (h : ∀ s, WritesIn pages (g s)) : WritesIn pages (look g) :=
  fun x hx => keeps_look fun s => h s x hx

theorem writesIn_each {pages : List Nat} {α : Type} {xs : List α} {g : α → Act} (h : ∀ x ∈ xs, WritesIn pages (g x)) :
    WritesIn pages (each xs g) := fun x hx => keeps_each fun y hy => h y hy x hx

theorem writesIn_ite {pages : List Nat} {c : Prop} [Decidable c] {a b : Act} (ha : WritesIn pages a) (hb : WritesIn pages b) :
    WritesIn pages (if c then a else b) := fun x hx => keeps_ite (fun _ => ha x hx) fun _ => hb x hx

/-- An address lies in the page that it is a small offset from. -/
theorem page_of_offset {p o : Nat} (hp : p % 4096 = 0) (ho : o < 4096) : (p + o) / 4096 * 4096 = p := by omega

theorem ne_of_page {pages : List Nat} {x p o : Nat} (hx : x / 4096 * 4096 ∉ pages) (hp : p % 4096 = 0) (ho : o < 4096) (hm : p ∈ pages) :
    x ≠ p + o := by
  rintro rfl
  rw [page_of_offset hp ho] at hx
  exact hx hm

theorem writesIn_wr {pages : List Nat} {p o : Nat} (hp : p % 4096 = 0) (ho : o < 4096) (hm : p ∈ pages) (v : Word) :
    WritesIn pages (wr (p + o) v) := fun _ hx => keepsReg_wr (ne_of_page hx hp ho hm) v

theorem writesIn_wrBit {pages : List Nat} {p o : Nat} (hp : p % 4096 = 0) (ho : o < 4096) (hm : p ∈ pages) (i : Nat) (b : Bool) :
    WritesIn pages (wrBit (p + o) i b) := fun _ hx => keepsReg_wrBit (ne_of_page hx hp ho hm) i b

theorem writesIn_setIst {pages : List Nat} {p : Nat} (hp : p % 4096 = 0) (hm : p ∈ pages) (i : Nat) :
    WritesIn pages (setIst p i) := fun _ hx => keepsReg_setIst (ne_of_page hx hp (by decide) hm) i

theorem writesIn_count {pages : List Nat} {p k : Nat} (hp : p % 4096 = 0) (hk : k < 8) (hm : p ∈ pages) (n : Nat) :
    WritesIn pages (count p k n) := fun x hx => by
  have h (o : Nat) (ho : o < 4096) : x ≠ p + o := ne_of_page hx hp ho hm
  have h1 := h (0x80 + 8 * k) (by omega)
  have h2 := h (0x84 + 8 * k) (by omega)
  exact keepsReg_count (h 0x20 (by decide)) (by omega) (by omega) n

/-- An event of a core writes in its own page. -/
theorem writesIn_coreEvent {pages : List Nat} {p : Nat} (hp : p % 4096 = 0) (hm : p ∈ pages) (site : Nat) {k : Cls} (hk : k ≠ .uncorrFatal) :
    WritesIn pages (coreEvent site p k) := fun x hx => keeps_look fun s => by
  have h (o : Nat) (ho : o < 4096) : x ≠ p + o := ne_of_page hx hp ho hm
  refine keepsReg_raise (h 0x20 (by decide)) ?_ fun hfatal => absurd hfatal hk
  by_contra hcap
  exact h (x - p) (by omega) (by omega)

/-! ## The sums of a step (R184 to R188) -/

theorem vGet_of_vreg {s t : State} (h : t.vreg = s.vreg) : vGet t = vGet s := by
  funext c n
  rw [vGet, vGet, h]

theorem tValue_of_vreg {s t : State} (h : t.vreg = s.vreg) : tValue t = tValue s := by
  funext c d i j
  simp only [tValue, tElem, scaleByte, vGet_of_vreg h]

theorem stepSums_of_vreg {s t : State} (h : t.vreg = s.vreg) : stepSums t = stepSums s := by
  funext c i k
  simp only [stepSums, lineVal, tValue_of_vreg h]

/-- What a step of a product adds to the pipeline. -/
def pipeEntry (s : State) (c : Nat) (j : CubeJob) : CubeStep :=
  ⟨cmmBank j.insn.word, cmmZacc j.insn.word && decide (j.step = 0), stepSums s c j.insn j.step⟩

/-- The counts of a step that enters the cubes. -/
def stepCounts (c : Nat) (j : CubeJob) (dwq : Bool) : Act :=
  let ps := reached j.insn
  let cubes := ((ps.map cubeOf).eraseDups).length
  seq [act (decide (cubes ≠ 0)) (count (cubePage c) 0 1), count (cubePage c) 1 cubes, act dwq (count (cubePage c) 3 cubes),
    count (cubePage c) 4 ps.length]

theorem within_stepCounts (c : Nat) (j : CubeJob) (dwq : Bool) : Within [.ctl] (stepCounts c j dwq) :=
  within_seq_cons (within_act (within_count ..)) <| within_seq_cons (within_count ..) <|
    within_seq_cons (within_act (within_count ..)) <| within_seq_cons (within_count ..) within_seq_nil

theorem writesIn_stepCounts (c : Nat) (j : CubeJob) (dwq : Bool) : WritesIn [cubePage c] (stepCounts c j dwq) := by
  have pages := pages_of_site c
  have hc (k n : Nat) (hk : k < 8) : WritesIn [cubePage c] (count (cubePage c) k n) :=
    writesIn_count (by omega) hk (List.mem_singleton_self _) n
  exact ((hc 0 1 (by decide)).act _).cons <| (hc 1 _ (by decide)).cons <| ((hc 3 _ (by decide)).act _).cons <|
    (hc 4 _ (by decide)).cons (writesIn_seq_nil _)

theorem after_enterStep (s : State) (c : Nat) (j : CubeJob) (dwq : Bool) : after (enterStep c j dwq) s =
    after (stepCounts c j dwq) (after (setCore c (fun x => { x with pipe := x.pipe ++ [pipeEntry s c j] })) s) := by
  rw [enterStep, after_look, stepCounts]
  dsimp only
  rw [after_seq_cons]
  rfl

/-- A step enters the pipeline, whatever the core held besides. -/
theorem coreIs_enterStep {s t : State} {c : Nat} {x : CoreX} (h : CoreIs s t c x) (hv : t.vreg = s.vreg) (j : CubeJob) (dwq : Bool) :
    CoreIs s (after (enterStep c j dwq) t) c { x with pipe := x.pipe ++ [pipeEntry s c j] } := by
  rw [after_enterStep, pipeEntry, stepSums_of_vreg hv]
  exact (h.setCore _).within (within_stepCounts ..)

theorem writesIn_enterStep (c : Nat) (j : CubeJob) (dwq : Bool) : WritesIn [cubePage c] (enterStep c j dwq) := by
  refine fun x hx => ⟨fun s => ?_⟩
  rw [after_enterStep]
  exact ((writesIn_stepCounts c j dwq x hx).rd _).trans ((within_setCore ..).rd s x)

theorem writesIn_dwqLog (c : Nat) (cs : List Nat) : WritesIn [cubePage c] (dwqLog c cs) := by
  have pages := pages_of_site c
  exact writesIn_look fun s => writesIn_wr (by omega) (by decide) (List.mem_singleton_self _) _

/-! ## Products begin (R193, R282, R300) -/

theorem after_enterArray {s : State} {c : Nat} (h : (coreX s c).cube = none ∨ (coreX s c).cubeWait = none) (i : Issued) :
    after (enterArray c i) s = after (seq [setIssued c i (begun i), if (coreX s c).cube = none
      then setCore c (fun x => { x with cube := some ⟨begun i, 0, cmmSteps i⟩ })
      else setCore c (fun x => { x with cubeWait := some ⟨begun i, 0, cmmSteps i⟩ })]) s := by
  rw [enterArray, after_look]
  dsimp only
  rcases hc : (coreX s c).cube with _ | j
  · rfl
  · rw [h.resolve_left (by rw [hc]; nofun)]
    rfl

/-- A product enters an idle array. -/
theorem coreIs_enterArray_idle {s : State} {c : Nat} (h : (coreX s c).cube = none) (i : Issued) : CoreIs s (after (enterArray c i) s) c
    { coreX s c with issued := swapInsn (coreX s c) i (begun i), cube := some ⟨begun i, 0, cmmSteps i⟩ } := by
  rw [after_enterArray (.inl h), if_pos h, after_seq_cons, after_seq_cons, after_seq_nil]
  exact (coreIs_setIssued ..).setCore _

/-- A product waits behind the one that steps. -/
theorem coreIs_enterArray_waits {s : State} {c : Nat} (h : (coreX s c).cube ≠ none) (hw : (coreX s c).cubeWait = none) (i : Issued) :
    CoreIs s (after (enterArray c i) s) c
      { coreX s c with issued := swapInsn (coreX s c) i (begun i), cubeWait := some ⟨begun i, 0, cmmSteps i⟩ } := by
  rw [after_enterArray (.inr hw), if_neg h, after_seq_cons, after_seq_cons, after_seq_nil]
  exact (coreIs_setIssued ..).setCore _

theorem after_actCmm {s : State} {c op : Nat} {i : Issued} (h : nextToStart s c 1 op = some i) :
    after (actCmm c op) s = after (enterArray c i) s := by
  rw [actCmm, after_look, h]

theorem after_actCmmW_deferred {s : State} {c : Nat} {i : Issued} (h : nextDeferred s c = some i) :
    after (actCmmW c) s = after (setIssued c i (begun i)) s := by
  rw [actCmmW, after_look, h]
  rfl

theorem after_actCmmW {s : State} {c : Nat} {i : Issued} (hd : nextDeferred s c = none) (h : nextToStart s c 1 3 = some i)
    (hm : cmmMask i.word = 0 ∨ i.trained ≠ none) : after (actCmmW c) s =
      if untrained i then after (act (coreX s c).cube.isNone (retire c i)) s else after (enterArray c i) s := by
  have : (decide (cmmMask i.word ≠ 0) && i.trained.isNone) = false := by
    rcases hm with hm | hm
    · simp [hm]
    · simp [Option.ne_none_iff_isSome.mp hm]
  rw [actCmmW, after_look, hd, h]
  dsimp only
  rw [this, if_neg (by decide), after_ite]

/-! ## Products step (R194, R195, R198) -/

theorem after_actCmmStep_array {s : State} {c : Nat} {j : CubeJob} (h : (coreX s c).cube = some j) : after (actCmmStep c) s =
    after (seq [enterStep c j false, if j.step + 1 < j.steps then setCore c (fun x => { x with cube := some { j with step := j.step + 1 } })
      else seq [setCore c (fun x => { x with cube := x.cubeWait, cubeWait := none }), retire c j.insn]]) s := by
  rw [actCmmStep, after_look, h]

theorem after_actCmmStep_queue {s : State} {c : Nat} {j : CubeJob} (h : (coreX s c).cube = none) (hq : (coreX s c).dwqCur = some j) :
    after (actCmmStep c) s = after (dwqStep c j) s := by
  rw [actCmmStep, after_look, h, hq]

/-- A core whose queue's entry has taken its last step. -/
abbrev dequeued (x : CoreX) : CoreX :=
  { x with dwqCur := none, dwqHead := (x.dwqHead + 1) % 64, dwqCarry := x.dwqCarry && !x.dwq.isEmpty }

theorem after_dwqStep {s : State} {c : Nat} {j : CubeJob} (h : 0 < j.step ∨ dwqMay s c = true) : after (dwqStep c j) s =
    after (seq [dwqLog c (dwqConds s c), enterStep c j true,
      if j.step + 1 < j.steps then setCore c (fun x => { x with dwqCur := some { j with step := j.step + 1 } })
      else seq [setCore c dequeued, retire c j.insn]]) s := by
  have hmay : (decide (j.step = 0) && !dwqMay s c) = false := by
    rcases h with h | h
    · simp [Nat.pos_iff_ne_zero.mp h]
    · simp [h]
  rw [dwqStep, after_look, hmay, if_neg (by decide)]

/-- The queue's entry has taken its last step, and its product retires. -/
theorem CoreIs.dequeue {s t : State} {c : Nat} {x : CoreX} (h : CoreIs s t c x) {l : List Issued} (i : Issued) (hl : dropInsn x i = l) :
    CoreIs s (after (seq [Machine.setCore c dequeued, Machine.retire c i]) t) c { dequeued x with issued := l } := by
  subst hl
  rw [after_seq_cons, after_seq_cons, after_seq_nil]
  exact (h.setCore dequeued).retire i

/-- The frame of what ends a step: no register changes. -/
theorem stepped {c : Nat} {s : State} {a b : Act} {x y : CoreX} (ha : Within [.ctl, .core] a) (hra : WritesIn [cubePage c] a)
    (hb : Within [.core] b) (hx : CoreIs s (after a s) c x) (hy : ∀ {t}, CoreIs s t c x → CoreIs s (after b t) c y) :
    OnlyIn [.ctl, .core] s (after (seq [a, b]) s) ∧ RegsOnly [cubePage c] s (after (seq [a, b]) s) ∧ CoreIs s (after (seq [a, b]) s) c y := by
  rw [after_seq_cons, after_seq_cons, after_seq_nil]
  exact ⟨(ha.onlyIn s).trans ((hb.wider rfl).onlyIn _), (hra.regsOnly s).trans (hb.regsOnly _ _), hy hx⟩

/-- Settles O18: the beginnings by the array's two places, the steps by what they add to the pipeline and what follows. -/
theorem products : Obligations.Products := by
  unfold Obligations.Products
  refine ⟨⟨fun s hs c i hi hc => ?_, fun s hs c i hi hc hw => ?_, fun s hs c i hi hc => ?_, fun s hs c i hi hc hw => ?_,
    fun s hs c i hi => ?_, fun s hs c i hd hi => ⟨fun hu hm => ⟨fun hc => ?_, fun hc => ?_⟩, fun hu hm hc => ?_, fun hu hm hc hw => ?_⟩⟩,
    fun s hs c j hj hmore => ?_, fun s hs c j hj hlast => ?_, fun s hs c j hc hj hmay hmore => ?_, fun s hs c j hc hj hmay hlast => ?_,
    fun s hs c j hc hj h0 hmay => ?_⟩
  · refine does_of_run hs.1 rfl ?_ ?_ <;> rw [after_actCmm hi]
    · exact (within_enterArray ..).onlyIn s
    · exact coreIs_enterArray_idle hc i
  · refine does_of_run hs.1 rfl ?_ ?_ <;> rw [after_actCmm hi]
    · exact (within_enterArray ..).onlyIn s
    · exact coreIs_enterArray_waits hc hw i
  · refine does_of_run hs.1 rfl ?_ ?_ <;> rw [after_actCmm hi]
    · exact (within_enterArray ..).onlyIn s
    · exact coreIs_enterArray_idle hc i
  · refine does_of_run hs.1 rfl ?_ ?_ <;> rw [after_actCmm hi]
    · exact (within_enterArray ..).onlyIn s
    · exact coreIs_enterArray_waits hc hw i
  · refine does_of_run hs.1 rfl ?_ ?_ <;> rw [after_actCmmW_deferred hi]
    · exact (within_setIssued ..).onlyIn s
    · exact coreIs_setIssued ..
  · have e := after_actCmmW hd hi hm
    rw [if_pos hu, hc] at e
    refine does_of_run hs.1 rfl ?_ ?_ <;> rw [e]
    · exact (within_retire ..).onlyIn s
    · exact coreIs_retire ..
  · have e := after_actCmmW hd hi hm
    obtain ⟨j, hj⟩ := Option.ne_none_iff_exists'.mp hc
    rw [if_pos hu, hj] at e
    exact (run_powered hs.1).trans (congrArg _ e)
  · have e := after_actCmmW hd hi hm
    rw [if_neg (by rw [hu]; decide)] at e
    refine does_of_run hs.1 rfl ?_ ?_ <;> rw [e]
    · exact (within_enterArray ..).onlyIn s
    · exact coreIs_enterArray_idle hc i
  · have e := after_actCmmW hd hi hm
    rw [if_neg (by rw [hu]; decide)] at e
    refine does_of_run hs.1 rfl ?_ ?_ <;> rw [e]
    · exact (within_enterArray ..).onlyIn s
    · exact coreIs_enterArray_waits hc hw i
  · have e := after_actCmmStep_array hj
    rw [if_pos hmore] at e
    obtain ⟨hframe, hpost⟩ := stepped (within_enterStep c.val j false) (writesIn_enterStep c.val j false) (within_setCore ..)
      (coreIs_enterStep (coreIs_refl s c.val) rfl j false) fun h => h.setCore (fun x => { x with cube := some { j with step := j.step + 1 } })
    refine does_of_run hs.1 rfl ?_ ?_ <;> rw [e]
    · exact hframe
    · exact hpost
  · have e := after_actCmmStep_array hj
    rw [if_neg (by omega)] at e
    obtain ⟨hframe, hpost⟩ := stepped (within_enterStep c.val j false) (writesIn_enterStep c.val j false)
      (within_seq_cons (within_setCore ..) <| within_seq_cons (within_retire ..) within_seq_nil)
      (coreIs_enterStep (coreIs_refl s c.val) rfl j false)
      fun h => (h.setCore (fun x => { x with cube := x.cubeWait, cubeWait := none })).retire j.insn
    refine does_of_run hs.1 rfl ?_ ?_ <;> rw [e]
    · exact hframe
    · exact hpost
  · have e := (after_actCmmStep_queue hc hj).trans (after_dwqStep hmay)
    rw [if_pos hmore, after_seq_cons] at e
    have hlog : (after (dwqLog c.val (dwqConds s c.val)) s).vreg = s.vreg := (within_dwqLog ..).vreg s
    have hcore := coreIs_enterStep ((coreIs_refl s c.val).within (within_dwqLog c.val (dwqConds s c.val))) hlog j true
    refine does_of_run hs.1 rfl ?_ ?_ <;> rw [e, after_seq_cons, after_seq_cons, after_seq_nil]
    · exact (((within_dwqLog ..).wider rfl).onlyIn s).trans (((within_enterStep ..).onlyIn _).trans (((within_setCore ..).wider rfl).onlyIn _))
    · exact ⟨(WritesIn.regsOnly (writesIn_dwqLog c.val _) s).trans ((WritesIn.regsOnly (writesIn_enterStep c.val j true) _).trans ((within_setCore ..).regsOnly _ _)),
        hcore.setCore (fun x => { x with dwqCur := some { j with step := j.step + 1 } })⟩
  · have e := (after_actCmmStep_queue hc hj).trans (after_dwqStep hmay)
    rw [if_neg (by omega), after_seq_cons] at e
    have hlog : (after (dwqLog c.val (dwqConds s c.val)) s).vreg = s.vreg := (within_dwqLog ..).vreg s
    have hcore := coreIs_enterStep ((coreIs_refl s c.val).within (within_dwqLog c.val (dwqConds s c.val))) hlog j true
    have hend : Within [.core] (seq [setCore c.val dequeued, retire c.val j.insn]) :=
      within_seq_cons (within_setCore ..) <| within_seq_cons (within_retire ..) within_seq_nil
    refine does_of_run hs.1 rfl ?_ ?_ <;> rw [e, after_seq_cons, after_seq_cons, after_seq_nil]
    · exact (((within_dwqLog ..).wider rfl).onlyIn s).trans (((within_enterStep ..).onlyIn _).trans ((hend.wider rfl).onlyIn _))
    · exact ⟨(WritesIn.regsOnly (writesIn_dwqLog c.val _) s).trans ((WritesIn.regsOnly (writesIn_enterStep c.val j true) _).trans (hend.regsOnly _ _)),
        hcore.dequeue j.insn rfl⟩
  · have e : after (actCmmStep c.val) s = after (setCore c.val (fun x => { x with dwqCur := none, dwq := j :: x.dwq })) s := by
      rw [after_actCmmStep_queue hc hj, dwqStep, after_look, h0, hmay]
      rfl
    refine does_of_run hs.1 rfl ?_ ?_ <;> rw [e]
    · exact (within_setCore ..).onlyIn s
    · exact coreIs_setCore ..

end Sys2Proof.Machine
end

section
/-! Tile and vector accesses begin; the configuration registers and their pending values (O20). -/

namespace Sys2Proof.Machine

-- One declaration after the other: elaborated side by side they take more memory than the check has.
set_option Elab.async false

/-! ## Double words -/

theorem joinWords_lo_hi (v : DWord) : joinWords (loWord v) (hiWord v) = v := by
  refine BitVec.eq_of_toNat_eq ?_
  have := v.isLt
  simp only [joinWords, loWord, hiWord, BitVec.toNat_ofNat, BitVec.toNat_setWidth, BitVec.toNat_ushiftRight, Nat.shiftRight_eq_div_pow]
  omega

theorem rd64_after_wr64 (s : State) (a : Nat) (v : DWord) : rd64 (after (wr64 a v) s) a = v := by
  rw [rd64, wr64, after_seq_cons, after_seq_cons, after_seq_nil, after_wr, after_wr, rd_ctl_same, rd_ctl_other _ (by omega), rd_ctl_same,
    joinWords_lo_hi]

theorem keepsReg_wr64 {x a : Nat} (h : x ≠ a) (h4 : x ≠ a + 4) (v : DWord) : KeepsReg x (wr64 a v) :=
  keeps_seq_cons (keepsReg_wr h _) <| keeps_seq_cons (keepsReg_wr h4 _) keeps_seq_nil

/-! ## Vector registers -/

theorem vGet_after_vPut (s : State) (c n : Nat) (v : BitVec 512) (d m : Nat) (hn : n < 64) (hm : m < 64) :
    vGet (after (vPut c n v) s) d m = if d = c ∧ m = n then v else vGet s d m := by
  rw [vPut, after_one, vGet_vreg]
  exact if_congr (by omega) rfl rfl

theorem vGet_after_zeroRegs (c : Nat) (rs : List Nat) (hrs : ∀ r ∈ rs, r < 64) (s : State) (d m : Nat) (hm : m < 64) :
    vGet (after (zeroRegs c rs) s) d m = if d = c ∧ m ∈ rs then 0 else vGet s d m := by
  rw [zeroRegs]
  induction rs generalizing s with
  | nil => simp
  | cons r rs ih =>
    rw [after_each_cons, ih fun q hq => hrs q (List.mem_cons_of_mem _ hq), vGet_after_vPut _ _ _ _ _ _ (hrs r (List.mem_cons_self ..)) hm]
    by_cases hd : d = c
    case neg => rw [if_neg (hd ·.1), if_neg (hd ·.1), if_neg (hd ·.1)]
    case pos =>
      subst hd
      by_cases hin : m ∈ rs
      · rw [if_pos ⟨rfl, hin⟩, if_pos ⟨rfl, List.mem_cons_of_mem _ hin⟩]
      · rw [if_neg (hin ·.2)]
        exact if_congr (by simp [hin]) rfl rfl

/-- A descriptor that fits names registers of the file (R161). -/
theorem tRegs_lt {d : DWord} (h : tShapeOk d = true) : ∀ r ∈ tRegs d, r < 64 := by
  simp only [tShapeOk, Bool.and_eq_true, decide_eq_true_eq] at h
  obtain ⟨⟨⟨_, hdata⟩, hscale⟩, _⟩ := h
  intro r hr
  simp only [tRegs, List.mem_append, List.mem_map, List.mem_range] at hr
  rcases hr with ⟨i, hi, rfl⟩ | ⟨i, hi, rfl⟩
  · omega
  · rcases hscale with h0 | h64
    · simp [tScaleRegs, h0, ceilDiv] at hi
    · omega

/-! ## Configuration registers (R164 to R166) -/

/-- What a write of TILE_TCn makes of the register or its pending value. -/
def tcNew (s : State) (c n : Nat) (lo hi : Option Word) : DWord :=
  joinWords (lo.getD (loWord ((tcPending s c n).getD (tcGet s c n)))) (hi.getD (hiWord ((tcPending s c n).getD (tcGet s c n))))

/-- The pending values of a core with v for TCn. -/
def withPending (n : Nat) (v : DWord) (x : CoreX) : CoreX := { x with tcPend := x.tcPend.filter (fun p => decide (p.1 ≠ n)) ++ [(n, v)] }

/-- The pending values of a core without TCn's. -/
def withoutPending (n : Nat) (x : CoreX) : CoreX := { x with tcPend := x.tcPend.filter (fun p => decide (p.1 ≠ n)) }

theorem find?_filter_ne {α : Type} (l : List (Nat × α)) (n : Nat) :
    (l.filter (fun p => decide (p.1 ≠ n))).find? (fun p => decide (p.1 = n)) = none := by
  rw [List.find?_eq_none]
  intro p hp
  simpa using (List.mem_filter.mp hp).2

theorem tcPending_withPending {t : State} {c n : Nat} {v : DWord} {x : CoreX} (h : coreX t c = withPending n v x) : tcPending t c n = some v := by
  rw [tcPending, h, withPending, List.find?_append, find?_filter_ne]
  simp

theorem tcPending_withoutPending {t : State} {c n : Nat} {x : CoreX} (h : coreX t c = withoutPending n x) : tcPending t c n = none := by
  rw [tcPending, h, withoutPending, find?_filter_ne]
  rfl

theorem after_tcWrite {s : State} {c : Nat} (h : [0, 1, 6, 7, 8].contains (coreState s c) = true) (n : Nat) (lo hi : Option Word) (r : Requester) :
    after (tcWrite r c n lo hi) s = if (tcPending s c n).isSome || tcBusy s c n
      then after (seq [setCore c (withPending n (tcNew s c n lo hi)), wrBit (tilePage c + 0x140) n true]) s
      else after (wr64 (tilePage c + 0x100 + 8 * n) (tcNew s c n lo hi)) s := by
  rw [tcWrite, after_look, h, if_neg (by decide), after_ite]
  rfl

/-- What follows the store of a pending value. -/
def pendingStored (c n : Nat) : Act :=
  seq [setCore c (withoutPending n), wrBit (tilePage c + 0x140) n false, count (tilePage c) 3 1]

theorem after_actTcPendingStore {s : State} {c n : Nat} {v : DWord} (h : tcPending s c n = some v) (hb : tcBusy s c n = false) :
    after (actTcPendingStore c n) s = after (pendingStored c n) (after (wr64 (tilePage c + 0x100 + 8 * n) v) s) := by
  rw [actTcPendingStore, after_look, h, hb]
  rfl

theorem within_pendingStored (c n : Nat) : Within [.ctl, .core] (pendingStored c n) :=
  within_seq_cons ((within_setCore ..).wider rfl) <| within_seq_cons ((within_wrBit ..).wider rfl) <|
    within_seq_cons ((within_count ..).wider rfl) within_seq_nil

theorem keepsReg_pendingStored {x c : Nat} (n : Nat) (h : tilePage c + 0x100 ≤ x) (h2 : x ≠ tilePage c + 0x140) :
    KeepsReg x (pendingStored c n) :=
  keeps_seq_cons ((within_setCore ..).keepsReg x) <| keeps_seq_cons (keepsReg_wrBit h2 _ _) <|
    keeps_seq_cons (keepsReg_count (by omega) (by omega) (by omega) _) keeps_seq_nil

theorem writesIn_pendingStored (c n : Nat) : WritesIn [tilePage c] (pendingStored c n) := by
  have pages := pages_of_site c
  have hin : tilePage c ∈ [tilePage c] := List.mem_singleton_self _
  exact WritesIn.cons ((within_setCore ..).writesIn _) <| WritesIn.cons (writesIn_wrBit (by omega) (by decide) hin n false) <|
    WritesIn.cons (writesIn_count (by omega) (by decide) hin 1) (writesIn_seq_nil _)

theorem writesIn_tcStore (c : Nat) {n : Nat} (hn : n < 8) (v : DWord) : WritesIn [tilePage c] (wr64 (tilePage c + 0x100 + 8 * n) v) := by
  intro x hx
  have pages := pages_of_site c
  have hin : tilePage c ∈ [tilePage c] := List.mem_singleton_self _
  have hlo := ne_of_page hx (o := 0x100 + 8 * n) (by omega) (by omega) hin
  have hhi := ne_of_page hx (o := 0x104 + 8 * n) (by omega) (by omega) hin
  exact keepsReg_wr64 (by omega) (by omega) v

theorem coreX_after_pendingStored (s : State) (c n : Nat) : coreX (after (pendingStored c n) s) c = withoutPending n (coreX s c) := by
  rw [pendingStored, after_seq_cons, after_seq_cons, after_seq_cons, after_seq_nil, coreX_after_count, after_wrBit, coreX_ctl, after_setCore,
    coreX_core_same]

theorem bit_after_pendingStored (s : State) (c : Nat) {n : Nat} (hn : n < 8) :
    bit (rd (after (pendingStored c n) s) (tilePage c + 0x140)) n = false := by
  rw [pendingStored, after_seq_cons, after_seq_cons, after_seq_cons, after_seq_nil,
    rd_after_count _ _ _ (by omega) (by omega) (by omega), after_wrBit, rd_ctl_same, bit_setBit_same _ (by omega)]

theorem tcGet_after_pendingStored (s : State) (c : Nat) {n : Nat} (hn : n < 8) : tcGet (after (pendingStored c n) s) c n = tcGet s c n := by
  rw [tcGet, tcGet, rd64, rd64, (keepsReg_pendingStored n (by omega) (by omega)).rd, (keepsReg_pendingStored n (by omega) (by omega)).rd]

theorem after_actTld {s : State} {c : Nat} {i : Issued} (h : nextToStart s c 1 8 = some i) :
    after (actTld c) s = after (setIssued c i (begun i)) (after (zeroRegs c (tRegs i.tcA)) s) := by
  rw [actTld, after_look, h]
  dsimp only
  rw [after_seq_cons, after_seq_cons, after_seq_nil]
  rfl

theorem tilePage_tc (c : Nat) {n : Nat} (hn : n < 8) : (tilePage c + 0x100 + 8 * n) / 4096 = tilePage c / 4096 := by
  have := pages_of_site c
  omega

/-- An instruction that its unit starts. -/
theorem does_begins {s : State} (hs : Ready s) {cmd : Instr} {c : Nat} {i : Issued} {a : Act} (hc : exec cmd s = run a s)
    (e : after a s = after (setIssued c i (begun i)) s) :
    Does cmd s [.core] fun t => CoreIs s t c { coreX s c with issued := swapInsn (coreX s c) i (begun i) } := by
  refine does_of_run hs.1 hc ?_ ?_ <;> rw [e]
  · exact (within_setIssued ..).onlyIn s
  · exact coreIs_setIssued ..

/-- Settles O20: a load clears its registers, and the three ways of a configuration register's value. -/
theorem loadsAndConfiguration : Obligations.LoadsAndConfiguration := by
  unfold Obligations.LoadsAndConfiguration
  refine ⟨⟨fun s hs c i hi hshape => ?_, fun s hs c i hi => does_begins hs rfl ?_, fun s hs c i hi => does_begins hs rfl ?_,
    fun s hs c i hi => does_begins hs rfl ?_⟩, fun s hs c n lo hi ht hst hpend hbusy => ?_, fun s hs c n lo hi ht hst hbusy => ?_,
    fun s hs c n v hv hbusy => ?_⟩
  · refine does_of_run hs.1 rfl ?_ ?_ <;> rw [after_actTld hi]
    · exact (((within_zeroRegs ..).wider rfl).onlyIn s).trans (((within_setIssued ..).wider rfl).onlyIn _)
    · refine ⟨((coreIs_refl s c.val).within (within_zeroRegs ..)).setIssued i (begun i), fun d r hr => ?_⟩
      rw [vGet_of_vreg ((within_setIssued ..).vreg _)]
      exact vGet_after_zeroRegs _ _ (tRegs_lt hshape) _ _ _ hr
  · rw [actTst, after_look, hi]
    rfl
  · rw [actVld, after_look, hi]
    rfl
  · rw [actVst, after_look, hi]
    rfl
  · have hn := n.isLt
    have e := after_tcWrite hst n.val (some lo) (some hi) .ringCtl
    rw [hpend, hbusy, if_neg (by decide)] at e
    refine does_guarded_ring hs ht (tilePage_tc c.val hn) rfl ?_ ?_ <;> rw [e]
    · exact (within_wr64 ..).onlyIn s
    · refine ⟨rd64_after_wr64 .., fun x hx => (keepsReg_wr64 ?_ ?_ _).rd s⟩ <;> simp at hx <;> omega
  · have hn := n.isLt
    have e := after_tcWrite hst n.val lo hi .ringCtl
    rw [hbusy, Bool.or_true, if_pos rfl, after_seq_cons, after_seq_cons, after_seq_nil] at e
    refine does_guarded_ring hs ht (tilePage_tc c.val hn) rfl ?_ ?_ <;> rw [e]
    · exact (((within_setCore ..).wider rfl).onlyIn s).trans (((within_wrBit ..).wider rfl).onlyIn _)
    · refine ⟨tcPending_withPending (x := coreX s c.val) ?_, ?_, fun x hx => ?_⟩
      · rw [after_wrBit, coreX_ctl, after_setCore, coreX_core_same, tcNew]
      · rw [after_wrBit, rd_ctl_same, bit_setBit_same _ (by omega)]
      · rw [(keepsReg_wrBit (by simpa using hx) _ _).rd, after_setCore, rd_core]
  · have hn := n.isLt
    have e := after_actTcPendingStore hv hbusy
    refine does_of_run hs.1 rfl ?_ ?_ <;> rw [e]
    · exact (((within_wr64 ..).wider rfl).onlyIn s).trans ((within_pendingStored ..).onlyIn _)
    · refine ⟨?_, tcPending_withoutPending (coreX_after_pendingStored ..), bit_after_pendingStored _ _ hn,
        (WritesIn.regsOnly (writesIn_tcStore c.val hn v) s).trans (WritesIn.regsOnly (writesIn_pendingStored c.val n.val) _)⟩
      rw [tcGet_after_pendingStored _ _ hn]
      exact rd64_after_wr64 ..

end Sys2Proof.Machine
end

section
/-! The bytes of a core store, what reads of it find, and the rows of tile loads and stores (O21). -/

namespace Sys2Proof.Machine

-- One declaration after the other: elaborated side by side they take more memory than the check has.
set_option Elab.async false

/-! ## Bytes of a vector -/

/-- Byte j of a vector. -/
def byteOf {n : Nat} (v : BitVec n) (j : Nat) : Byte := BitVec.ofNat 8 (v.toNat / 2 ^ (8 * j))

theorem putElem_eq_setFld {n : Nat} (v : BitVec n) (i x : Nat) : putElem 8 v i x = setFld v (8 * i + 7) (8 * i) x := by
  have e : 8 * i + 7 + 1 - 8 * i = 8 := by omega
  rw [putElem, setFld, elem, bits, e]

theorem byteOf_eq_fld {n : Nat} (v : BitVec n) (j : Nat) : byteOf v j = BitVec.ofNat 8 (fld v (8 * j + 7) (8 * j)) := by
  have e : 8 * j + 7 + 1 - 8 * j = 8 := by omega
  refine BitVec.eq_of_toNat_eq ?_
  unfold byteOf fld bits
  rw [BitVec.toNat_ofNat, BitVec.toNat_ofNat, e, Nat.mod_mod]

theorem byteOf_putElem {n : Nat} (v : BitVec n) {i : Nat} (hi : 8 * i + 7 < n) (x j : Nat) :
    byteOf (putElem 8 v i x) j = if j = i then BitVec.ofNat 8 x else byteOf v j := by
  rw [putElem_eq_setFld, byteOf_eq_fld]
  split
  case isTrue h =>
    have e : 8 * i + 7 + 1 - 8 * i = 8 := by omega
    rw [h, fld_setFld v (by omega) hi, e]
    exact BitVec.eq_of_toNat_eq (by simp)
  case isFalse h => rw [fld_setFld_other v (by omega) hi (by omega), ← byteOf_eq_fld]

/-- Bytes put one after the other. -/
theorem byteOf_putBytes {n : Nat} (o : Nat) (bs : List Byte) (k : Nat) (v : BitVec n) (h : 8 * (o + k + bs.length) ≤ n) (j : Nat) :
    byteOf ((bs.zipIdx k).foldl (fun w p => putElem 8 w (o + p.2) p.1.toNat) v) j =
      if o + k ≤ j ∧ j < o + k + bs.length then bs.getD (j - (o + k)) 0 else byteOf v j := by
  induction bs generalizing k v with
  | nil => rw [if_neg (by simp)]; rfl
  | cons b bs ih =>
    rw [List.length_cons] at h ⊢
    rw [List.zipIdx_cons, List.foldl_cons, ih (k + 1) _ (by omega), byteOf_putElem _ (by omega)]
    by_cases hj : j = o + k
    · rw [if_neg (by omega), if_pos hj, if_pos (by omega), hj, Nat.sub_self]
      exact BitVec.eq_of_toNat_eq (by simp)
    · rw [if_neg hj]
      by_cases hin : o + k ≤ j ∧ j < o + k + (bs.length + 1)
      · rw [if_pos hin, if_pos (by omega), show j - (o + k) = j - (o + (k + 1)) + 1 by omega, List.getD_cons_succ]
      · rw [if_neg hin, if_neg (by omega)]

theorem byteOf_patchWord (w : BitVec 256) (o : Nat) (bs : List Byte) (h : o + bs.length ≤ 32) (j : Nat) :
    byteOf (patchWord w o bs) j = if o ≤ j ∧ j < o + bs.length then bs.getD (j - o) 0 else byteOf w j :=
  byteOf_putBytes o bs 0 w (by omega) j

/-! ## Bytes of a core store (R94) -/

theorem stByte_eq (s : State) (c a : Nat) : stByte s c a = byteOf (stGet s c (a / 32)) (a % 32) := rfl

theorem after_each_concat {α : Type} (xs : List α) (x : α) (g : α → Act) (s : State) :
    after (each (xs ++ [x]) g) s = after (g x) (after (each xs g) s) := by
  induction xs generalizing s with
  | nil => rw [List.nil_append, after_each_cons, after_each_nil, after_each_nil]
  | cons y ys ih => rw [List.cons_append, after_each_cons, after_each_cons, ih]

/-- The part of a write that falls in word w of the store. -/
def stWriteWord (c a : Nat) (bs : List Byte) (w : Nat) : Act := look fun s =>
  let lo := max a (32 * w)
  let hi := min (a + bs.length) (32 * w + 32)
  act (decide (lo < hi)) (stPut c w (patchWord (stGet s c w) (lo - 32 * w) ((bs.drop (lo - a)).take (hi - lo))))

theorem stByte_after_stWriteWord (s : State) (c a : Nat) (bs : List Byte) (w d b : Nat) (ha : a + bs.length ≤ 1572864) (hb : b < 1572864) :
    stByte (after (stWriteWord c a bs w) s) d b =
      if d = c ∧ b / 32 = w ∧ a ≤ b ∧ b < a + bs.length then bs.getD (b - a) 0 else stByte s d b := by
  rw [stWriteWord, after_look]
  dsimp only
  rw [after_act]
  by_cases hlt : max a (32 * w) < min (a + bs.length) (32 * w + 32)
  case neg => rw [if_neg (by simpa using hlt), if_neg (by omega)]
  case pos =>
    have hlen : ((bs.drop (max a (32 * w) - a)).take (min (a + bs.length) (32 * w + 32) - max a (32 * w))).length =
        min (a + bs.length) (32 * w + 32) - max a (32 * w) := by
      rw [List.length_take, List.length_drop]
      omega
    rw [if_pos (by simpa using hlt), stByte_eq, stGet_after_stPut]
    by_cases hw : 49152 * d + b / 32 = 49152 * c + w
    case neg => rw [if_neg hw, if_neg (by omega), stByte_eq]
    case pos =>
      obtain ⟨rfl, rfl⟩ : d = c ∧ b / 32 = w := by omega
      rw [if_pos rfl, byteOf_patchWord _ _ _ (by omega), hlen]
      by_cases hin : a ≤ b ∧ b < a + bs.length
      · rw [if_pos (by omega), if_pos ⟨rfl, rfl, hin⟩, List.getD_eq_getElem?_getD, List.getElem?_take_of_lt (by omega), List.getElem?_drop,
          List.getD_eq_getElem?_getD, show max a (32 * (b / 32)) - a + (b % 32 - (max a (32 * (b / 32)) - 32 * (b / 32))) = b - a by omega]
      · rw [if_neg (by omega), if_neg (fun h => hin h.2.2), stByte_eq]

/-- A write of bytes reaches those bytes and no other, of any core. -/
theorem stByte_after_stWrite (s : State) (c a : Nat) (bs : List Byte) (d b : Nat) (ha : a + bs.length ≤ 1572864) (hb : b < 1572864) :
    stByte (after (stWrite c a bs) s) d b = if d = c ∧ a ≤ b ∧ b < a + bs.length then bs.getD (b - a) 0 else stByte s d b := by
  have key (m : Nat) : stByte (after (each (List.range m) fun k => stWriteWord c a bs (a / 32 + k)) s) d b =
      if d = c ∧ b / 32 < a / 32 + m ∧ a ≤ b ∧ b < a + bs.length then bs.getD (b - a) 0 else stByte s d b := by
    induction m with
    | zero => rw [if_neg (by omega)]; rfl
    | succ m ih =>
      rw [List.range_succ, after_each_concat, stByte_after_stWriteWord _ _ _ _ _ _ _ ha hb, ih]
      by_cases h : d = c ∧ b / 32 = a / 32 + m ∧ a ≤ b ∧ b < a + bs.length
      · rw [if_pos h, if_pos (by omega)]
      · rw [if_neg h]
        exact if_congr (by omega) rfl rfl
  exact (key _).trans (if_congr (by omega) rfl rfl)

theorem stByte_of_store {s t : State} (h : t.store = s.store) : stByte t = stByte s := by
  funext c a
  rw [stByte, stByte, stGet, stGet, h]

theorem stBytes_of_store {s t : State} (h : t.store = s.store) : stBytes t = stBytes s := by
  funext c a n
  simp only [stBytes, stByte_of_store h]

/-! ## What the reads of a core store find (R96) -/

theorem after_stFound_readable {s : State} {c n : Nat} {f : Cell} (h : stVerdict s c n f ≠ .bad) : after (stFound c n f) s =
    after (act (decide (stVerdict s c n f = .corrected)) (seq [count (corePage c) 3 1, coreEvent c (corePage c) .corr])) s := by
  rw [stFound, after_look]
  cases hv : stVerdict s c n f with
  | good => rfl
  | corrected => rfl
  | bad => exact absurd hv h

/-- An error that is corrected shows in the core's own page alone. -/
theorem writesIn_corrected {pages : List Nat} {c : Nat} (hm : corePage c ∈ pages) :
    WritesIn pages (seq [count (corePage c) 3 1, coreEvent c (corePage c) .corr]) := by
  have h := pages_of_site c
  exact WritesIn.cons (writesIn_count (by omega) (by decide) hm 1) <|
    WritesIn.cons (writesIn_coreEvent (by omega) hm c (by decide)) (writesIn_seq_nil _)

theorem within_corrected (c : Nat) : Within [.ctl, .dumpRun, .freeCtr] (seq [count (corePage c) 3 1, coreEvent c (corePage c) .corr]) :=
  within_seq_cons ((within_count ..).wider rfl) <| within_seq_cons (within_coreEvent ..) within_seq_nil

/-- Reads without an uncorrectable word change registers of the core's page at most. -/
theorem readable_stFoundAll {pages : List Nat} {c : Nat} (hm : corePage c ∈ pages) (ws : List Nat) (found : List Cell) (s : State)
    (h : stBad s c ws found = false) : OnlyIn [.ctl, .dumpRun, .freeCtr] s (after (stFoundAll c ws found) s) ∧
      RegsOnly pages s (after (stFoundAll c ws found) s) := by
  have hv : ∀ p ∈ ws.zipIdx, stVerdict s c p.1 (found.getD p.2 .good) ≠ .bad := by simpa [stBad] using h
  clear h
  rw [stFoundAll]
  generalize ws.zipIdx = ps at hv
  induction ps generalizing s with
  | nil => exact ⟨onlyIn_refl _ s, RegsOnly.refl _ s⟩
  | cons p ps ih =>
    have e := after_stFound_readable (hv p (List.mem_cons_self ..))
    have hframe : OnlyIn [.ctl, .dumpRun, .freeCtr] s (after (stFound c p.1 (found.getD p.2 .good)) s) := by
      rw [e]
      exact (within_act (within_corrected c)).onlyIn s
    have hregs : RegsOnly pages s (after (stFound c p.1 (found.getD p.2 .good)) s) := by
      rw [e]
      exact WritesIn.regsOnly ((writesIn_corrected hm).act _) s
    have hbad : (after (stFound c p.1 (found.getD p.2 .good)) s).storeBad = s.storeBad := hframe .storeBad (by decide)
    obtain ⟨h1, h2⟩ := ih (after (stFound c p.1 (found.getD p.2 .good)) s) fun q hq => by
      rw [stVerdict, hbad]
      exact hv q (List.mem_cons_of_mem _ hq)
    rw [after_each_cons]
    exact ⟨hframe.trans h1, hregs.trans h2⟩

/-- The reads of an access, counted, that meet no uncorrectable word. -/
theorem readable_access {pages : List Nat} {c : Nat} (hm : corePage c ∈ pages) (ws : List Nat) (found : List Cell) (n : Nat) {s : State}
    (h : stBad s c ws found = false) :
    OnlyIn [.ctl, .dumpRun, .freeCtr] s (after (stFoundAll c ws found) (after (stCount c n) s)) ∧
      RegsOnly pages s (after (stFoundAll c ws found) (after (stCount c n) s)) := by
  have hp := pages_of_site c
  have hcount : stBad (after (stCount c n) s) c ws found = false := by
    rw [stBad] at h ⊢
    simp only [(within_stCount c n).stVerdict]
    exact h
  obtain ⟨hframe, hregs⟩ := readable_stFoundAll hm ws found _ hcount
  exact ⟨(((within_stCount ..).wider rfl).onlyIn s).trans hframe,
    (WritesIn.regsOnly (writesIn_count (by omega) (by decide) hm n) s).trans hregs⟩

/-- Reads that meet no uncorrectable word, the cells of some of them given. -/
theorem stBad_of_noneBad {s : State} {c : Nat} {ws : List Nat} {found cells : List Cell} (h : NoneBad s c ws found)
    (hc : ∀ x ∈ cells, x ≠ Cell.bad) {vs : List Nat} (hvs : ∀ v ∈ vs, v ∈ ws) : stBad s c vs cells = false := by
  obtain ⟨-, hstored⟩ := h
  rw [stBad, List.any_eq_false]
  intro p hp
  have hmem : p.1 ∈ vs := List.fst_mem_of_mem_zipIdx hp
  rw [stVerdict, hstored p.1 (hvs _ hmem), if_neg (by decide), decide_eq_true_iff]
  rw [List.getD_eq_getElem?_getD]
  rcases hx : cells[p.2]? with _ | x
  · decide
  · exact hc x (List.mem_of_getElem? hx)

theorem coreX_of_core {s t : State} (h : t.core = s.core) (c : Nat) : coreX t c = coreX s c := by
  rw [coreX, coreX, h]

/-! ## Acts whose writes to the vector registers come of these alone -/

/-- The vector registers after the act come of those before it. -/
abbrev VregLocal (a : Act) : Prop := ∀ s t : State, t.vreg = s.vreg → (after a t).vreg = (after a s).vreg

theorem vregLocal_vPut (c n : Nat) (v : BitVec 512) : VregLocal (vPut c n v) := fun s t h => by
  rw [vPut, after_one, after_one, apply_vreg, apply_vreg, h]

theorem vregLocal_each {α : Type} (xs : List α) (g : α → Act) (h : ∀ x, VregLocal (g x)) : VregLocal (each xs g) := by
  induction xs with
  | nil => exact fun _ _ h => h
  | cons x xs ih =>
    intro s t hv
    rw [after_each_cons, after_each_cons]
    exact ih _ _ (h x s t hv)

theorem vregLocal_putScale (c : Nat) (d : DWord) (k v : Nat) : VregLocal (putScale c d k v) := fun s t h => by
  rw [putScale, after_look, after_look]
  dsimp only
  rw [vGet_of_vreg h]
  exact vregLocal_vPut _ _ _ s t h

theorem groupBits_of_vreg {s t : State} (h : t.vreg = s.vreg) : groupBits t = groupBits s := by
  funext c d g
  rw [groupBits, groupBits, vGet_of_vreg h]

theorem vregLocal_rowIn (c : Nat) (d : DWord) (i : Nat) (bs : List Byte) : VregLocal (rowIn c d i bs) := fun s t h => by
  rw [rowIn, after_look, after_look, groupBits_of_vreg h]
  rw [after_seq_cons, after_seq_cons, after_seq_nil, after_seq_cons, after_seq_cons, after_seq_nil, putGroup]
  exact vregLocal_each _ _ (fun k => vregLocal_putScale c d _ _) _ _ (vregLocal_each _ _ (fun k => vregLocal_vPut c _ _) s t h)

/-! ## Rows (R155 to R158) -/

theorem after_tileNext {i : Issued} (h : i.cause = 0) (c : Nat) (s : State) : after (tileNext c i) s =
    after (if i.orow + 1 < tRows i.tcA then setIssued c i { i with orow := i.orow + 1 } else retire c i) s := by
  rw [tileNext, h]
  split
  · rfl
  · rw [after_seq_cons, after_seq_cons, after_seq_nil]
    rfl

theorem within_rowEnd (c : Nat) (i : Issued) :
    Within [.core] (if i.orow + 1 < tRows i.tcA then setIssued c i { i with orow := i.orow + 1 } else retire c i) :=
  within_ite (within_setIssued ..) (within_retire ..)

theorem coreIs_rowEnd {s t : State} {c : Nat} (h : CoreIs s t c (coreX s c)) (i : Issued) :
    CoreIs s (after (if i.orow + 1 < tRows i.tcA then setIssued c i { i with orow := i.orow + 1 } else retire c i) t) c
      { coreX s c with issued := nextRow (coreX s c) i } := by
  rw [nextRow]
  split
  · exact h.setIssued ..
  · exact h.retire ..

/-- The next row of a tile instruction of the oldest one that has begun. -/
theorem after_actTileRow {s : State} {c : Nat} {i : Issued} (h : (coreX s c).issued.find? (fun i => isTileOp i && i.started && !i.faulted) = some i)
    (found : List Cell) : after (actTileRow c found) s = if opOf 1 i.word = 8 then after (loadRow c i found) s else after (storeRow c i found) s := by
  rw [actTileRow, after_look, h]
  dsimp only
  rw [after_ite]

/-- A row of a tile load from the core store, its words sound. -/
theorem after_loadRow {s : State} {c : Nat} {i : Issued} {found : List Cell} (h3 : bit i.word 3 = false)
    (hbad : stBad s c (wordsOf (tRowAddr i.tcA i.addr i.orow) (tRowBytes i.tcA i.orow)) found = false) : after (loadRow c i found) s =
      after (seq [stCount c (wordsOf (tRowAddr i.tcA i.addr i.orow) (tRowBytes i.tcA i.orow)).length,
        stFoundAll c (wordsOf (tRowAddr i.tcA i.addr i.orow) (tRowBytes i.tcA i.orow)) found,
        rowIn c i.tcA i.orow (stBytes s c (tRowAddr i.tcA i.addr i.orow) (tRowBytes i.tcA i.orow)), count (tilePage c) 0 1, tileNext c i]) s := by
  rw [loadRow, after_look]
  dsimp only
  rw [h3, if_neg (by decide), hbad, if_neg (by decide)]
  simp only [after_seq_cons, after_seq_nil]

/-- The words of a row that a store reads, each with its place among the row's words. -/
def mergedWords (i : Issued) : List (Nat × Nat) :=
  (wordsOf (tRowAddr i.tcA i.addr i.orow) (tRowBytes i.tcA i.orow)).zipIdx.filter
    (fun p => (partWords i.tcA (tRowAddr i.tcA i.addr i.orow) i.orow).contains p.1)

theorem after_storeRow {s : State} {c : Nat} {i : Issued} {found : List Cell} (h3 : bit i.word 3 = false)
    (hbad : stBad s c ((mergedWords i).map (·.1)) ((mergedWords i).map (fun p => found.getD p.2 .good)) = false) : after (storeRow c i found) s =
      after (seq [stCount c (wordsOf (tRowAddr i.tcA i.addr i.orow) (tRowBytes i.tcA i.orow)).length,
        stFoundAll c ((mergedWords i).map (·.1)) ((mergedWords i).map (fun p => found.getD p.2 .good)),
        stWrite c (tRowAddr i.tcA i.addr i.orow)
          (rowOut s c i.tcA i.orow (stByte s c (tRowAddr i.tcA i.addr i.orow + tElemBytes i.tcA - 1))),
        stWrite c (tRowAddr i.tcA i.addr i.orow + roundUp (tElemBytes i.tcA) 4) (scalesOut s c i.tcA i.orow),
        count (tilePage c) 1 1, tileNext c i]) s := by
  rw [storeRow, after_look]
  dsimp only
  rw [h3, if_neg (by decide)]
  rw [mergedWords] at hbad ⊢
  rw [hbad, if_neg (by decide)]
  simp only [after_seq_cons, after_seq_nil]

theorem length_rowOut (s : State) (c : Nat) (d : DWord) (i : Nat) (old : Byte) : (rowOut s c d i old).length = tElemBytes d := by
  rw [rowOut]
  exact length_leBytes ..

theorem length_scalesOut (s : State) (c : Nat) (d : DWord) (i : Nat) : (scalesOut s c d i).length = tRowScales d i := by
  rw [scalesOut, List.length_map, List.length_range]

/-- Settles O21: the reads show at most in the core's page, and the row's bytes go where two writes place them. -/
theorem tileRows : Obligations.TileRows := by
  unfold Obligations.TileRows
  intro s hs c i hi h3 hcause
  have hp := pages_of_site c.val
  have hcore : corePage c.val ∈ [corePage c.val, tilePage c.val] := by simp
  have htile : tilePage c.val ∈ [corePage c.val, tilePage c.val] := by simp
  have hcount (k : Nat) (hk : k < 8) : WritesIn [corePage c.val, tilePage c.val] (count (tilePage c.val) k 1) :=
    writesIn_count (by omega) hk htile 1
  refine ⟨fun h8 found hnone => ?_, fun h9 hfit found hnone => ?_⟩
  · have hbad := stBad_of_noneBad hnone hnone.1 (fun v hv => hv)
    have e := ((after_actTileRow hi found).trans (if_pos h8)).trans (after_loadRow h3 hbad)
    simp only [after_seq_cons, after_seq_nil, after_tileNext hcause] at e
    obtain ⟨hframe, hregs⟩ := readable_access hcore _ found
      (wordsOf (tRowAddr i.tcA i.addr i.orow) (tRowBytes i.tcA i.orow)).length hbad
    generalize after (stFoundAll c.val _ found) _ = u at e hframe hregs
    have hcoreU : CoreIs s u c.val (coreX s c.val) := ⟨coreX_of_core (hframe .core (by decide)) _, fun d _ => coreX_of_core (hframe .core (by decide)) d⟩
    refine does_of_run hs.1 rfl ?_ ?_ <;> rw [e]
    · exact (hframe.wider rfl).trans <| (((within_rowIn ..).wider rfl).onlyIn _).trans <|
        (((within_count ..).wider rfl).onlyIn _).trans (((within_rowEnd ..).wider rfl).onlyIn _)
    · refine ⟨hregs.trans <| ((within_rowIn ..).regsOnly _ _).trans <| (WritesIn.regsOnly (hcount 0 (by decide)) _).trans
        ((within_rowEnd ..).regsOnly _ _), ?_, coreIs_rowEnd ((hcoreU.within (within_rowIn ..)).within (within_count ..)) i⟩
      rw [(within_rowEnd ..).vreg, (within_count ..).vreg]
      exact vregLocal_rowIn _ _ _ _ s u (hframe .vreg (by decide))
  · have hbad : stBad s c.val ((mergedWords i).map (·.1)) ((mergedWords i).map (fun p => found.getD p.2 .good)) = false := by
      refine stBad_of_noneBad hnone (fun x hx => ?_) fun v hv => ?_
      · obtain ⟨p, -, rfl⟩ := List.mem_map.mp hx
        rw [List.getD_eq_getElem?_getD]
        rcases hx : found[p.2]? with _ | x
        · decide
        · exact hnone.1 x (List.mem_of_getElem? hx)
      · obtain ⟨p, hp, rfl⟩ := List.mem_map.mp hv
        exact List.contains_iff_mem.mp (List.mem_filter.mp hp).2
    have e := ((after_actTileRow hi found).trans (if_neg (by omega))).trans (after_storeRow h3 hbad)
    simp only [after_seq_cons, after_seq_nil, after_tileNext hcause] at e
    obtain ⟨hframe, hregs⟩ := readable_access hcore _ ((mergedWords i).map (fun p => found.getD p.2 .good))
      (wordsOf (tRowAddr i.tcA i.addr i.orow) (tRowBytes i.tcA i.orow)).length hbad
    generalize after (stFoundAll c.val _ _) _ = u at e hframe hregs
    have hcoreU : CoreIs s u c.val (coreX s c.val) := ⟨coreX_of_core (hframe .core (by decide)) _, fun d _ => coreX_of_core (hframe .core (by decide)) d⟩
    have hstore : stByte u = stByte s := stByte_of_store (hframe .store (by decide))
    refine does_of_run hs.1 rfl ?_ ?_ <;> rw [e]
    · exact (hframe.wider rfl).trans <| (((within_stWrite ..).wider rfl).onlyIn _).trans <| (((within_stWrite ..).wider rfl).onlyIn _).trans <|
        (((within_count ..).wider rfl).onlyIn _).trans (((within_rowEnd ..).wider rfl).onlyIn _)
    · refine ⟨hregs.trans <| ((within_stWrite ..).regsOnly _ _).trans <| ((within_stWrite ..).regsOnly _ _).trans <|
        (WritesIn.regsOnly (hcount 1 (by decide)) _).trans ((within_rowEnd ..).regsOnly _ _), fun d k hk => ?_,
        coreIs_rowEnd (((hcoreU.within (within_stWrite ..)).within (within_stWrite ..)).within (within_count ..)) i⟩
      rw [stByte_of_store ((within_rowEnd ..).store _), stByte_of_store ((within_count ..).store _)]
      have hbytes : tRowBytes i.tcA i.orow = if tRowScales i.tcA i.orow = 0 then tElemBytes i.tcA
        else roundUp (tElemBytes i.tcA) 4 + tRowScales i.tcA i.orow := rfl
      have hround : tElemBytes i.tcA ≤ roundUp (tElemBytes i.tcA) 4 ∧ roundUp (tElemBytes i.tcA) 4 < tElemBytes i.tcA + 4 ∧
          roundUp (tElemBytes i.tcA) 4 % 4 = 0 := by
        unfold roundUp
        omega
      have halign : tRowAddr i.tcA i.addr i.orow % 4 = 0 := by
        rw [tRowAddr, Nat.mul_assoc]
        omega
      have hfirst : tRowAddr i.tcA i.addr i.orow + tElemBytes i.tcA ≤ 1572864 := by split at hbytes <;> omega
      have hsecond : tRowAddr i.tcA i.addr i.orow + roundUp (tElemBytes i.tcA) 4 + tRowScales i.tcA i.orow ≤ 1572864 := by
        split at hbytes <;> omega
      rw [stByte_after_stWrite _ _ _ _ _ _ (by rw [length_scalesOut]; exact hsecond) hk,
        stByte_after_stWrite _ _ _ _ _ _ (by rw [length_rowOut]; exact hfirst) hk, length_rowOut, length_scalesOut, hstore]
      by_cases hin : d = c.val ∧ tRowAddr i.tcA i.addr i.orow ≤ k ∧ k < tRowAddr i.tcA i.addr i.orow + tElemBytes i.tcA
      · rw [if_pos hin, if_neg (by omega), if_pos hin]
      · rw [if_neg hin, if_neg hin]

end Sys2Proof.Machine
end

section
/-! What an operation of the vector unit reads, and what it owes port W1: element arithmetic (O23), functions and reductions (O24). -/

namespace Sys2Proof.Machine

-- One declaration after the other: elaborated side by side they take more memory than the check has.
set_option Elab.async false

/-! ## F32 at the special values (R206, R255, R257) -/

theorem toNat_absF (x : Word) : (absF x).toNat = x.toNat % 2 ^ 31 := by
  rw [absF, BitVec.toNat_and]
  exact Nat.and_two_pow_sub_one_eq_mod x.toNat 31

theorem f32Val_of_isNaN {x : Word} (h : isNaN x = true) : f32Val x = .nan := by
  rw [isNaN, decide_eq_true_iff, toNat_absF] at h
  have hmax : (fmtOf 9).maxCode = 0x7F7FFFFF := rfl
  have hwidth : (fmtOf 9).width - 1 = 31 := rfl
  rw [f32Val, decodeElem, if_neg (by decide)]
  dsimp only
  rw [hmax, hwidth, if_neg (by omega), decide_eq_false (show ¬ x.toNat % 2 ^ 31 = 0x7F7FFFFF + 1 by omega), Bool.and_false, if_neg (by decide)]

/-- A sum that a NaN has joined stays one. -/
theorem nan_add (e : Exact) (v : Val) (h : e.nan = true) : (e.add v).nan = true := by
  rcases v with _ | neg | ⟨neg, n, k⟩
  · rfl
  · cases neg <;> exact h
  · exact h

theorem round_of_nan {e : Exact} (h : e.nan = true) : e.round = nan32 := by
  rw [Exact.round, h]
  rfl

theorem sumF32_nan (v : Val) : sumF32 [.nan, v] = nan32 := round_of_nan (nan_add _ v rfl)

theorem addF_nan {a : Word} (h : isNaN a = true) (b : Word) : addF a b = nan32 := by
  rw [addF, f32Val_of_isNaN h, sumF32_nan]

theorem mulF_nan {a : Word} (h : isNaN a = true) (b : Word) : mulF a b = nan32 := by
  rw [mulF, f32Val_of_isNaN h]
  rfl

theorem fmaF_nan {a : Word} (h : isNaN a = true) (b c : Word) : fmaF a b c = nan32 := by
  rw [fmaF, f32Val_of_isNaN h]
  exact sumF32_nan _

theorem divF_nan {a : Word} (h : isNaN a = true) (b : Word) : divF a b = nan32 := by
  rw [divF, f32Val_of_isNaN h]

theorem maxF_nan {a b : Word} (h : isNaN a = true ∨ isNaN b = true) : maxF a b = nan32 := by
  rw [maxF, if_pos (by simpa using h)]

theorem minF_nan {a b : Word} (h : isNaN a = true ∨ isNaN b = true) : minF a b = nan32 := by
  rw [minF, if_pos (by simpa using h)]

/-! ## An operation's sources (R197, R201, R202, R239) -/

/-- The registers that an operation of core c may read: none that an error found in a bank or a non-finite report writes. -/
abbrev VuReads (c x : Nat) : Prop := x / 4096 * 4096 ≠ cubePage c ∧ x ≠ vuPage c + 0x20 ∧ x ≠ vuPage c + 0x82C ∧ x ≠ 0x4100

theorem keepsReg_nfReport {c x : Nat} (h : VuReads c x) : KeepsReg x (nfReport c) := by
  obtain ⟨-, hist, hvote, -⟩ := h
  refine keeps_look fun s => ?_
  split
  · exact keeps_nop
  · refine keeps_seq_cons (keepsReg_wrBit hvote _ _) (keeps_seq_cons ?_ keeps_seq_nil)
    split
    · exact keeps_ite (fun _ => keeps_seq_cons (keepsReg_wrBit hvote _ _) (keeps_seq_cons (keepsReg_setIst hist _) keeps_seq_nil))
        fun _ => (within_setHerd ..).keepsReg x
    · exact keeps_nop

/-- What operations read of the state stands: the registers, and every element of a bank as a read gives it; of the cores only the record
of inverted bits may change, at core c. -/
structure SameSources (s t : State) (c : Nat) : Prop where
  regs : ∀ x, VuReads c x → rd t x = rd s x
  vreg : t.vreg = s.vreg
  banks : ∀ b, ∀ e < 64, abValue t c b e = abValue s c b e
  cores : CoreIs s t c { coreX s c with accFlip := (coreX t c).accFlip }
  cycle : t.cycle = s.cycle

theorem SameSources.refl (s : State) (c : Nat) : SameSources s s c :=
  ⟨fun _ _ => rfl, rfl, fun _ _ _ => rfl, coreIs_refl s c, rfl⟩

theorem SameSources.trans {s t u : State} {c : Nat} (h : SameSources s t c) (g : SameSources t u c) : SameSources s u c := by
  obtain ⟨hx, hother⟩ := h.cores
  obtain ⟨gx, gother⟩ := g.cores
  refine ⟨fun x hx => (g.regs x hx).trans (h.regs x hx), g.vreg.trans h.vreg, fun b e he => (g.banks b e he).trans (h.banks b e he), ⟨?_, ?_⟩,
    g.cycle.trans h.cycle⟩
  · rw [gx, hx]
  · exact fun d hd => (gother d hd).trans (hother d hd)

/-- An act that touches neither cores nor banks, and no register that an operation reads. -/
theorem SameSources.of_within {s : State} {c : Nat} {ps : List Part} {a : Act} (h : Within ps a) (hr : ∀ x, VuReads c x → KeepsReg x a)
    (hp : ps.contains .core = false := by rfl) (hacc : ps.contains .acc = false := by rfl) (hv : ps.contains .vreg = false := by rfl)
    (hc : ps.contains .cycle = false := by rfl) : SameSources s (after a s) c := by
  have hcore := h.coreX s c hp
  refine ⟨fun x hx => (hr x hx).rd s, h.vreg s hv, fun b e _ => ?_, ?_, Within.cycle h hc s⟩
  · rw [abValue, abValue, flipOf, flipOf, hcore, accGet, accGet, h.acc s hacc]
  · rw [hcore]
    exact (coreIs_refl s c).within h hp

theorem flipOf_after_setFlip (s : State) (c : Nat) {b e : Nat} (v : Nat) {b' e' : Nat} (he : e < 64) (he' : e' < 64) :
    flipOf (after (setFlip c b e v) s) c b' e' = if b' = b ∧ e' = e then v else flipOf s c b' e' := by
  rw [flipOf, setFlip, after_setCore, coreX_core_same]
  dsimp only
  by_cases h : 64 * b' + e' = 64 * b + e
  · rw [h, mGetD_mSet_same, if_pos (by omega)]
  · rw [mGetD_mSet_other _ h, if_neg (by omega), flipOf]

theorem flipBad_zero : flipBad 0 = false := by decide

/-- An element's record of inverted bits goes; what reads of it give then is given. -/
theorem SameSources.flipped {s t : State} {c b e : Nat} (he : e < 64) (hx : t.core = (after (Machine.setFlip c b e 0) s).core)
    (hr : t.ctl = s.ctl) (hv : t.vreg = s.vreg) (hc : t.cycle = s.cycle)
    (hacc : ∀ b' e', e' < 64 → accGet t c b' e' = if b' = b ∧ e' = e then abValue s c b e else accGet s c b' e') : SameSources s t c := by
  have hflip (b' e' : Nat) (he' : e' < 64) : flipOf t c b' e' = if b' = b ∧ e' = e then 0 else flipOf s c b' e' := by
    rw [← flipOf_after_setFlip s c 0 he he', flipOf, flipOf, coreX_of_core hx]
  refine ⟨fun x _ => by rw [rd, rd, hr], hv, fun b' e' he' => ?_, ?_, hc⟩
  · rw [abValue, hflip b' e' he', hacc b' e' he']
    by_cases heq : b' = b ∧ e' = e
    · rw [if_pos heq, if_pos heq, flipBad_zero, if_neg (by decide), heq.1, heq.2]
    · rw [if_neg heq, if_neg heq, abValue]
  · have h := coreIs_setCore s c (fun x => { x with accFlip := mSet x.accFlip (64 * b + e) 0 0 })
    have hc' : coreX t c = { coreX s c with accFlip := mSet (coreX s c).accFlip (64 * b + e) 0 0 } := (coreX_of_core hx c).trans h.1
    refine ⟨by rw [hc'], fun d hd => (coreX_of_core hx d).trans (h.2 d hd)⟩

theorem SameSources.setFlip {s : State} {c b e : Nat} (he : e < 64) (h : flipBad (flipOf s c b e) = false) :
    SameSources s (after (Machine.setFlip c b e 0) s) c := by
  refine .flipped he rfl ((within_setFlip ..).ctl s) ((within_setFlip ..).vreg s) (Within.cycle (within_setFlip ..) rfl s) fun b' e' _ => ?_
  have hread : abValue s c b e = accGet s c b e := by rw [abValue, h, if_neg Bool.false_ne_true]
  rw [accGet, (within_setFlip ..).acc, hread]
  split
  case isTrue heq => rw [heq.1, heq.2, accGet]
  case isFalse => rw [accGet]

/-- An element whose error cannot be corrected becomes the canonical NaN, which a read had found in it. -/
theorem SameSources.poisoned {s : State} {c b e : Nat} (he : e < 64) (h : flipBad (flipOf s c b e) = true) :
    SameSources s (after (accPut c b e nan32) (after (Machine.setFlip c b e 0) s)) c := by
  refine .flipped he ((within_accPut ..).core _) (((within_accPut ..).ctl _).trans ((within_setFlip ..).ctl s))
    (((within_accPut ..).vreg _).trans ((within_setFlip ..).vreg s))
    ((Within.cycle (within_accPut ..) rfl _).trans (Within.cycle (within_setFlip ..) rfl s)) fun b' e' he' => ?_
  rw [abValue, h, if_pos rfl, accPut, after_one, accGet_acc]
  refine if_congr (by omega) rfl ?_
  rw [accGet, (within_setFlip ..).acc, accGet]

theorem after_abFound (s : State) (c b e : Nat) : after (abFound c b e) s =
    if flipOf s c b e = 0 then s
    else if flipBad (flipOf s c b e) then after (seq [wrBit (cubePage c + 0x104) b true, setIst (cubePage c) 8, count (cubePage c) 6 1,
        raise (cubePage c) { cls := .uncorrContained, addr := some (64 * b + e), herd := herdAt s c }])
      (after (accPut c b e nan32) (after (setFlip c b e 0) s))
    else after (seq [count (cubePage c) 5 1, coreEvent c (cubePage c) .corr]) (after (setFlip c b e 0) s) := by
  rw [abFound, after_look]
  dsimp only
  rw [after_ite, after_ite]
  rfl

/-- Beyond the page and the offset, the acts that report an error in a bank touch nothing that an operation reads. -/
theorem vuReads_cube {c x : Nat} (h : VuReads c x) : (∀ o < 4096, x ≠ cubePage c + o) ∧ (x < cubePage c + 0x40 ∨ cubePage c + 0x60 ≤ x) := by
  obtain ⟨hcube, -⟩ := h
  have pages := pages_of_site c
  have hne (o : Nat) (ho : o < 4096) : x ≠ cubePage c + o := fun hx => hcube (by rw [hx]; exact page_of_offset (by omega) ho)
  refine ⟨hne, ?_⟩
  by_contra hcap
  exact hne (x - cubePage c) (by omega) (by omega)

theorem keepsReg_cubeCount {c x : Nat} (h : VuReads c x) {k : Nat} (hk : k < 8) (n : Nat) : KeepsReg x (count (cubePage c) k n) := by
  have hne := (vuReads_cube h).1
  have h1 := hne (0x80 + 8 * k) (by omega)
  have h2 := hne (0x84 + 8 * k) (by omega)
  exact keepsReg_count (hne 0x20 (by decide)) (by omega) (by omega) n

/-- An element found in error is corrected or becomes the NaN that the read gives; the rest is reports. -/
theorem sameSources_abFound (s : State) (c b : Nat) {e : Nat} (he : e < 64) : SameSources s (after (abFound c b e) s) c := by
  rw [after_abFound]
  split
  · exact .refl s c
  · split
    case isTrue hbad =>
      refine (SameSources.poisoned he hbad).trans (.of_within (ps := [.ctl, .dumpRun, .freeCtr]) ?_ fun x hx => ?_)
      · exact within_seq_cons ((within_wrBit ..).wider rfl) <| within_seq_cons ((within_setIst ..).wider rfl) <|
          within_seq_cons ((within_count ..).wider rfl) <| within_seq_cons (within_raise ..) within_seq_nil
      · obtain ⟨hne, hcap⟩ := vuReads_cube hx
        exact keeps_seq_cons (keepsReg_wrBit (hne 0x104 (by decide)) _ _) <| keeps_seq_cons (keepsReg_setIst (hne 0x20 (by decide)) _) <|
          keeps_seq_cons (keepsReg_cubeCount hx (by decide) 1) <| keeps_seq_cons (keepsReg_raise (hne 0x20 (by decide)) hcap nofun) keeps_seq_nil
    case isFalse hgood =>
      refine (SameSources.setFlip he (by simpa using hgood)).trans (.of_within (ps := [.ctl, .dumpRun, .freeCtr]) ?_ fun x hx => ?_)
      · exact within_seq_cons ((within_count ..).wider rfl) <| within_seq_cons (within_coreEvent ..) within_seq_nil
      · obtain ⟨hne, hcap⟩ := vuReads_cube hx
        exact keeps_seq_cons (keepsReg_cubeCount hx (by decide) 1) <|
          keeps_seq_cons (keeps_look fun s => keepsReg_raise (hne 0x20 (by decide)) hcap nofun) keeps_seq_nil

/-- Acts that keep the sources one by one keep them together. -/
theorem sameSources_each {α : Type} (c : Nat) (xs : List α) (g : α → Act) (h : ∀ x ∈ xs, ∀ s, SameSources s (after (g x) s) c) (s : State) :
    SameSources s (after (each xs g) s) c := by
  induction xs generalizing s with
  | nil => exact .refl s c
  | cons x xs ih =>
    rw [after_each_cons]
    exact (h x (List.mem_cons_self ..) s).trans (ih (fun y hy => h y (List.mem_cons_of_mem _ hy)) _)

theorem sameSources_nfReport (s : State) (c : Nat) : SameSources s (after (nfReport c) s) c :=
  .of_within (within_nfReport c) fun _ hx => keepsReg_nfReport hx

theorem sameSources_readSource (s : State) (c v : Nat) : SameSources s (after (readSource c v) s) c := by
  rw [readSource, after_look, after_act]
  split
  case isFalse => exact .refl s c
  case isTrue =>
    rw [after_seq_cons, after_seq_cons, after_seq_nil, after_act]
    refine (sameSources_each c (List.range 64) (fun e => abFound c (v - 64) e)
      (fun e he t => sameSources_abFound t c (v - 64) (List.mem_range.mp he)) s).trans ?_
    split
    · exact sameSources_nfReport ..
    · exact .refl _ c

/-! ## What an operation reads stands -/

section

variable {s t : State} {c : Nat}

theorem vuReads_vu {o : Nat} (c : Nat) (ho : 0x100 ≤ o) (hlt : o < 4096) (hne : o ≠ 0x82C) : VuReads c (vuPage c + o) := by
  have pages := pages_of_site c
  refine ⟨?_, by omega, by omega, by omega⟩
  rw [page_of_offset (by omega) hlt]
  omega

theorem SameSources.rdVu (h : SameSources s t c) {o : Nat} (ho : 0x100 ≤ o) (hlt : o < 4096) (hne : o ≠ 0x82C) :
    rd t (vuPage c + o) = rd s (vuPage c + o) := h.regs _ (vuReads_vu c ho hlt hne)

theorem SameSources.bankScale (h : SameSources s t c) (b : Nat) : bankScale t c b = bankScale s c b := by
  have hf : bscField t c (b % 4) = bscField s c (b % 4) := by
    rw [bscField, bscField, Nat.add_assoc, h.rdVu (by omega) (by omega) (by omega)]
  have hs (n : Nat) (hn : n < 16) : tscale t c n = tscale s c n := by
    rw [tscale, tscale, Nat.add_assoc, h.rdVu (by omega) (by omega) (by omega)]
  rw [Machine.bankScale, Machine.bankScale, hf, hs _ (by omega), hs _ (by omega)]

theorem SameSources.srcLane (h : SameSources s t c) (fmt v : Nat) {l : Nat} (hl : l < 64) : srcLane t c fmt v l = srcLane s c fmt v l := by
  rw [Machine.srcLane, Machine.srcLane, h.banks _ l hl, h.bankScale, vGet_of_vreg h.vreg]

theorem SameSources.srcLanes (h : SameSources s t c) (fmt v : Nat) : srcLanes t c fmt v = srcLanes s c fmt v :=
  List.map_congr_left fun _ hl => h.srcLane fmt v (List.mem_range.mp hl)

theorem SameSources.raGet (h : SameSources s t c) {k y : Nat} (hk : k < 8) (hy : y < 8) : raGet t c k y = raGet s c k y := by
  rw [Machine.raGet, Machine.raGet, Nat.add_assoc, Nat.add_assoc, h.rdVu (by omega) (by omega) (by omega)]

theorem SameSources.arithA (h : SameSources s t c) (w : Word) {l : Nat} (hl : l < 64) : arithA t c w l = arithA s c w l := by
  rw [Machine.arithA, Machine.arithA, h.srcLane _ _ hl]

theorem SameSources.arithB (h : SameSources s t c) (w : Word) {l : Nat} (hl : l < 64) : arithB t c w l = arithB s c w l := by
  rw [Machine.arithB, Machine.arithB, h.srcLane _ _ hl, Nat.add_assoc, h.rdVu (by omega) (by omega) (by omega)]

end

/-! ## Operations begin (R276, R278) -/

/-- The next operation, once the banks it reads are accumulated. -/
theorem after_vuOp {s : State} {c op : Nat} {i : Issued} {reads : Word → List Nat} (hi : vuNext s c op = some i)
    (hb : (reads i.word).any (bankBusy s c) = false) (body : Issued → Act) : after (vuOp c op reads body) s =
      after (body i) (after (each (reads i.word) (readSource c)) s) := by
  rw [vuOp, after_look, hi]
  dsimp only
  rw [hb, if_neg (by decide), after_seq_cons, after_seq_cons, after_seq_nil]

theorem sameSources_reads (s : State) (c : Nat) (vs : List Nat) : SameSources s (after (each vs (readSource c)) s) c :=
  sameSources_each c vs _ (fun v _ t => sameSources_readSource t c v) s

theorem onlyIn_reads (s : State) (c : Nat) (vs : List Nat) :
    OnlyIn [.ctl, .acc, .core, .herd, .dumpRun, .freeCtr] s (after (each vs (readSource c)) s) :=
  (within_each fun v => within_readSource c v).onlyIn s

theorem coreIs_oweScaled {s t : State} {c : Nat} {x : CoreX} (h : CoreIs s t c x) (i : Issued) (rs : List (Nat × BitVec 512))
    (scales : Nat → List (Nat × Byte)) : CoreIs s (after (oweScaled c i rs scales) t) c
      { x with issued := swapInsn x i (begun i), w1 := x.w1 ++ regWrites i rs scales } := by
  rw [oweScaled, after_seq_cons, after_seq_cons, after_seq_nil]
  exact (h.setIssued i (begun i)).setCore (fun x => { x with w1 := x.w1 ++ regWrites i rs scales })

theorem owesLanes_of_reads {s t : State} {c : Nat} (h : SameSources s t c) (i : Issued) (lanes : List Word) :
    OwesLanes s (after (oweLanes c i lanes) t) c i lanes := by
  have hx := coreIs_oweScaled h.cores i (destRegs (vuFmt i.word) (vuVd i.word) lanes) (fun _ => [])
  have hflip : (coreX (after (oweLanes c i lanes) t) c).accFlip = (coreX t c).accFlip := by
    rw [oweLanes, oweRegs, hx.1]
  rw [OwesLanes, hflip]
  exact hx

/-- An operation whose body owes the 64 lanes of its result. -/
theorem does_owesLanes {s : State} (hs : Ready s) {cmd : Instr} {c op : Nat} {i : Issued} {reads : Word → List Nat} {body : Issued → Act}
    (hc : exec cmd s = run (vuOp c op reads body) s) (hi : vuNext s c op = some i) (hb : (reads i.word).any (bankBusy s c) = false)
    {lanes : List Word} (hbody : ∀ t, SameSources s t c → after (body i) t = after (oweLanes c i lanes) t) :
    Does cmd s [.ctl, .acc, .core, .herd, .dumpRun, .freeCtr] fun t => OwesLanes s t c i lanes := by
  have hsrc := sameSources_reads s c (reads i.word)
  have e := (after_vuOp hi hb body).trans (hbody _ hsrc)
  refine does_of_run hs.1 hc ?_ ?_ <;> rw [e]
  · exact (onlyIn_reads s c _).trans (((within_oweLanes ..).wider rfl).onlyIn _)
  · exact owesLanes_of_reads hsrc i lanes

theorem lanes_congr {f g : Nat → Word} (h : ∀ l < 64, f l = g l) : (List.range 64).map f = (List.range 64).map g :=
  List.map_congr_left fun l hl => h l (List.mem_range.mp hl)

/-- An element-wise operation. -/
theorem does_arith {s : State} (hs : Ready s) {cmd : Instr} {c op : Nat} {i : Issued} {f : Word → Word → Word → Word}
    (hc : exec cmd s = run (actArith c op f) s) (hi : vuNext s c op = some i) (hb : (readsArith i.word).any (bankBusy s c) = false) :
    Does cmd s [.ctl, .acc, .core, .herd, .dumpRun, .freeCtr] fun t => OwesLanes s t c i ((List.range 64).map fun l =>
      f (arithA s c i.word l) (arithB s c i.word l) (srcLane s c (vuFmt i.word) (vuVd i.word) l)) := by
  refine does_owesLanes hs hc hi hb fun t h => ?_
  rw [after_look]
  refine congrArg (fun ls => after (oweLanes c i ls) t) (lanes_congr fun l hl => ?_)
  rw [h.arithA _ hl, h.arithB _ hl, h.srcLane _ _ hl]

/-- A NaN operand gives the canonical NaN. -/
theorem arith_nan {a : Word} (h : isNaN a = true) (b c : Word) : addF a b = nan32 ∧ mulF a b = nan32 ∧ maxF a b = nan32 ∧ minF a b = nan32 ∧
    divF a b = nan32 ∧ maxF b a = nan32 ∧ minF b a = nan32 ∧ fmaF a b c = nan32 :=
  ⟨addF_nan h b, mulF_nan h b, maxF_nan (.inl h), minF_nan (.inl h), divF_nan h b, maxF_nan (.inr h), minF_nan (.inr h), fmaF_nan h b c⟩

/-- Settles O23: the reading of the sources leaves them as they read, and the lanes are those of the state before; the special values are
those of the exact sums and products. -/
theorem elementArithmetic : Obligations.ElementArithmetic := by
  unfold Obligations.ElementArithmetic
  refine ⟨fun s hs c i hb => ⟨fun hi => ?_, fun hi => ?_, fun hi => ?_, fun hi => ?_, fun hi => ?_, fun hi => ?_, fun hi => ?_⟩,
    fun a b c h => arith_nan h b c, by decide, by decide, by decide, by decide, by decide, by decide⟩
  · exact does_arith (f := fun a b _ => addF a b) hs rfl hi hb
  · exact does_arith (f := fun a b _ => subF a b) hs rfl hi hb
  · exact does_arith (f := fun a b _ => mulF a b) hs rfl hi hb
  · exact does_arith (f := fun a b d => fmaF a b d) hs rfl hi hb
  · exact does_arith (f := fun a b _ => maxF a b) hs rfl hi hb
  · exact does_arith (f := fun a b _ => minF a b) hs rfl hi hb
  · exact does_arith (f := fun a b _ => divF a b) hs rfl hi hb

/-! ## Functions and reductions (R258 to R275) -/

/-- An operation that reads no bank. -/
theorem after_vuOp_bankless {s : State} {c op : Nat} {i : Issued} (hi : vuNext s c op = some i) (body : Issued → Act) :
    after (vuOp c op (fun _ => []) body) s = after (body i) s :=
  after_vuOp (reads := fun _ => []) hi rfl body

theorem testBit_ofBits (l : Nat) : ∀ ls : List Nat, (ofBits ls).testBit l = decide (l ∈ ls)
  | [] => Nat.zero_testBit l
  | i :: is => by
    have heq : decide (i = l) = decide (l = i) := decide_eq_decide.mpr eq_comm
    rw [ofBits, Nat.testBit_or, testBit_ofBits l is, Nat.testBit_two_pow, heq, ← Bool.decide_or]
    exact decide_eq_decide.mpr (by rw [List.mem_cons, or_comm])

/-- Draws are counted in the core's own record, and nothing else of it changes. -/
theorem coreIs_countDraws {s t : State} {c : Nat} {x : CoreX} (h : CoreIs s t c x) (n : Nat) (lanes : List Nat) :
    CoreIs s (after (countDraws c n lanes) t) c { x with
      uses := (coreX (after (countDraws c n lanes) t) c).uses, laneNext := (coreX (after (countDraws c n lanes) t) c).laneNext } := by
  obtain ⟨hx, hother⟩ := h
  have hown : coreX (after (countDraws c n lanes) t) c = { coreX t c with
      uses := (coreX (after (countDraws c n lanes) t) c).uses, laneNext := (coreX (after (countDraws c n lanes) t) c).laneNext } := by
    rw [countDraws, after_look]
    split <;> rw [after_setCore, coreX_core_same]
  refine ⟨by rw [hown, hx], fun d hd => ((?_ : coreX _ d = coreX t d)).trans (hother d hd)⟩
  rw [countDraws, after_look]
  split <;> rw [after_setCore, coreX_core_other _ hd]

/-- A row of RED computed from what the sources hold. -/
theorem SameSources.redRow {s t : State} {c : Nat} (h : SameSources s t c) (w : Word) {y : Nat} (hy : y < 8) :
    redRow (fld w 1 0) (bit w 2) (Machine.raGet t c (vuVd w % 8) y)
        ((List.range 8).map fun x => Machine.srcLane t c (vuFmt w) (vuVa w) (8 * y + x))
        (if fld w 1 0 = 3 then (List.range 8).map fun x => Machine.srcLane t c (vuFmt w) (vuVb w) (8 * y + x) else []) =
      Machine.redRow (fld w 1 0) (bit w 2) (Machine.raGet s c (vuVd w % 8) y)
        ((List.range 8).map fun x => Machine.srcLane s c (vuFmt w) (vuVa w) (8 * y + x))
        (if fld w 1 0 = 3 then (List.range 8).map fun x => Machine.srcLane s c (vuFmt w) (vuVb w) (8 * y + x) else []) := by
  have hrow (v : Nat) : (List.range 8).map (fun x => Machine.srcLane t c (vuFmt w) v (8 * y + x)) =
      (List.range 8).map fun x => Machine.srcLane s c (vuFmt w) v (8 * y + x) :=
    List.map_congr_left fun x hx => h.srcLane _ _ (by have := List.mem_range.mp hx; omega)
  rw [h.raGet (Nat.mod_lt _ (by decide)) hy, hrow, hrow]

/-- Writes queued behind those that port W1 owes already. -/
theorem w1_after_queue {s t : State} {c : Nat} {x : CoreX} (h : CoreIs s t c x) (i j : Issued) (ws : List W1Write) :
    (coreX (after (setCore c fun x => { x with w1 := x.w1 ++ ws }) (after (setIssued c i j) t)) c).w1 = x.w1 ++ ws := by
  rw [((h.setIssued i j).setCore fun x => { x with w1 := x.w1 ++ ws }).1]

theorem does_red {s : State} (hs : Ready s) (c : Site) {i : Issued} (hi : vuNext s c.val 0x1A = some i)
    (hb : (readsRed i.word).any (bankBusy s c.val) = false) : Does (.red c) s [.ctl, .acc, .core, .herd, .dumpRun, .freeCtr] fun t =>
      ∃ vs : List Word, (coreX t c.val).w1 = (coreX s c.val).w1 ++ [⟨i, none, some (vuVd i.word % 8, vs), [], true⟩] ∧
        vs.length = 8 ∧ ∀ y < 8, vs.getD y 0 = redRow (fld i.word 1 0) (bit i.word 2) (raGet s c.val (vuVd i.word % 8) y)
          ((List.range 8).map (fun x => srcLane s c.val (vuFmt i.word) (vuVa i.word) (8 * y + x)))
          (if fld i.word 1 0 = 3 then (List.range 8).map (fun x => srcLane s c.val (vuFmt i.word) (vuVb i.word) (8 * y + x)) else []) := by
  refine does_of_within hs.1 rfl (within_actRed c.val) ?_
  have hsrc := sameSources_reads s c.val (readsRed i.word)
  rw [actRed, after_vuOp hi hb, after_look, after_seq_cons, after_seq_cons, after_seq_nil]
  refine ⟨_, w1_after_queue hsrc.cores i _ _, ?_, fun y hy => ?_⟩
  · rw [List.length_map, List.length_range]
  · rw [← hsrc.redRow i.word hy]
    simp [hy]

theorem does_dmsk {s : State} (hs : Ready s) (c : Site) {i : Issued} (hi : vuNext s c.val 0x1C = some i) : Does (.dmsk c) s [.core] fun t =>
    (coreX t c.val).issued = swapInsn (coreX s c.val) i (begun i) ∧
      ∃ v : BitVec 512, (coreX t c.val).w1 = (coreX s c.val).w1 ++ regWrites i [(vuVd i.word, v)] (fun _ => []) ∧
        ∀ l < 512, v.getLsbD l = (decide (l < 64) &&
          decide (fld (rd s (vuPage c.val + 0x200)) 15 0 * 65536 ≤ drawAt s c.val (vuSlot i.word) l 0)) := by
  have e : after (actDmsk c.val) s = _ := (after_vuOp_bankless hi _).trans (after_look ..)
  refine does_of_run hs.1 rfl ?_ ?_ <;> rw [e]
  · exact (within_seq_cons ((within_oweRegs ..).wider rfl) <| within_seq_cons ((within_countDraws ..).wider rfl) within_seq_nil).onlyIn s
  · rw [after_seq_cons, after_seq_cons, after_seq_nil]
    have hx := (coreIs_countDraws (coreIs_oweScaled (coreIs_refl s c.val) i [(vuVd i.word, BitVec.ofNat 512 (ofBits ((List.range 64).filter
      (fun l => decide (fld (rd s (vuPage c.val + 0x200)) 15 0 * 65536 ≤ drawAt s c.val (vuSlot i.word) l 0)))))] fun _ => [])
      (vuSlot i.word) (List.range 64)).1
    refine ⟨by rw [oweRegs, hx], _, by rw [oweRegs, hx], fun l hl => ?_⟩
    rw [BitVec.getLsbD_ofNat, testBit_ofBits]
    simp [hl]

/-- Settles O24: the reading of the sources leaves them as they read, and the results are those of the state before. -/
theorem functionsAndReductions : Obligations.FunctionsAndReductions := by
  unfold Obligations.FunctionsAndReductions
  refine fun s hs c i => ⟨fun hi hb => ?_, fun hi ha hb => ?_, fun hi hb => does_red hs c hi hb, fun hi => ?_, fun hi => does_dmsk hs c hi,
    fun hi hb => ?_⟩
  · refine does_owesLanes (reads := readsA) hs rfl hi (by simp [readsA, hb]) fun t h => ?_
    rw [after_look, h.srcLanes]
  · refine does_owesLanes (reads := readsAB) hs rfl hi (by simp [readsAB, ha, hb]) fun t h => ?_
    rw [after_look, h.srcLanes, h.srcLanes]
  · have e : after (actRget c.val) s = _ := (after_vuOp_bankless hi _).trans (after_look ..)
    refine does_of_run hs.1 rfl ?_ ?_ <;> rw [e]
    · exact (within_oweLanes ..).onlyIn s
    · exact owesLanes_of_reads (.refl s c.val) i _
  · refine does_owesLanes (reads := readsA) hs rfl hi (by simp [readsA, hb]) fun t h => ?_
    rw [after_look]
    refine congrArg (fun ls => after (oweLanes c.val i ls) t) (lanes_congr fun l hl => ?_)
    rw [h.srcLane _ _ hl, vGet_of_vreg h.vreg, h.rdVu (by decide) (by decide) (by decide)]

end Sys2Proof.Machine
end

section
/-! Conversions (O25), decoding, set-up operations and port W1 (O26). -/

namespace Sys2Proof.Machine

-- One declaration after the other: elaborated side by side they take more memory than the check has.
set_option Elab.async false

/-! ## Draws and strips of the sources -/

section

variable {s t : State} {c : Nat}

theorem vuReads_corePage (c : Nat) : VuReads c (corePage c + 0x100) := by
  have pages := pages_of_site c
  refine ⟨?_, by omega, by omega, by omega⟩
  rw [page_of_offset (by omega) (by decide)]
  omega

theorem SameSources.rd64Vu (h : SameSources s t c) {o : Nat} (ho : 0x830 ≤ o) (hlt : o < 4092) : rd64 t (vuPage c + o) = rd64 s (vuPage c + o) := by
  rw [rd64, rd64, Nat.add_assoc, h.rdVu (by omega) (by omega) (by omega), h.rdVu (by omega) (by omega) (by omega)]

theorem SameSources.tslot (h : SameSources s t c) {n : Nat} (hn : n < 16) : tslot t c n = tslot s c n := by
  rw [Machine.tslot, Machine.tslot, Nat.add_assoc, h.rdVu (by omega) (by omega) (by omega)]

theorem SameSources.tscale (h : SameSources s t c) {n : Nat} (hn : n < 16) : tscale t c n = tscale s c n := by
  rw [Machine.tscale, Machine.tscale, Nat.add_assoc, h.rdVu (by omega) (by omega) (by omega)]

/-- A lane's draw is that of the state before the sources were read. -/
theorem SameSources.drawAt (h : SameSources s t c) {n : Nat} (hn : n < 16) (l k : Nat) : drawAt t c n l k = drawAt s c n l k := by
  have hx := h.cores.1
  have hrd (o : Nat) (ho : 0x800 ≤ o) (ho' : o < 0x828) : rd t (vuPage c + o) = rd s (vuPage c + o) := h.rdVu (by omega) (by omega) (by omega)
  have hkeys (o : Nat) (ho : 0x800 ≤ o) (ho' : o < 0x824) : rd64 t (vuPage c + o) = rd64 s (vuPage c + o) := by
    rw [rd64, rd64, hrd o ho (by omega), Nat.add_assoc, hrd (o + 4) (by omega) (by omega)]
  have hwho : hidxOf t c = hidxOf s c := by rw [hidxOf, hidxOf, h.regs _ (vuReads_corePage c)]
  have huses : usesOf t c n l = usesOf s c n l := by rw [usesOf, usesOf, hx]
  have hlane : laneCycle t c l = laneCycle s c l := by rw [laneCycle, laneCycle, hx, h.cycle]
  have hrows : (coreX t c).rowsInStep = (coreX s c).rowsInStep := by rw [hx]
  rw [Machine.drawAt, Machine.drawAt, reproMode, reproMode, hwho, hrd 0x808 (by decide) (by decide), hkeys 0x818 (by decide) (by decide),
    hkeys 0x820 (by decide) (by decide), hkeys 0x810 (by decide) (by decide), h.tslot hn, hrows, huses, hlane]

theorem vuSlot_lt (w : Word) : vuSlot w < 16 := fld_lt w 3 0

theorem vuTc_lt (w : Word) : vuTc w < 8 := fld_lt w 8 6

theorem SameSources.cvtOne (h : SameSources s t c) (i : Issued) {b : Nat × Nat × Nat} (hb : b.1 < 8) : cvtOne t c i b = cvtOne s c i b := by
  have hstrip (x : Nat) : stripElem t c i.word b.1 x = stripElem s c i.word b.1 x := h.srcLane _ _ (by omega)
  simp only [Machine.cvtOne, h.tscale (vuSlot_lt _), h.drawAt (vuSlot_lt _), hstrip]

theorem cvtBlocks_row_lt {d : DWord} {g k : Nat} {b : Nat × Nat × Nat} (hb : b ∈ cvtBlocks d g k) : b.1 < 8 := by
  rw [cvtBlocks, List.mem_flatMap] at hb
  obtain ⟨y, hy, hb⟩ := hb
  split at hb
  · cases hb
  · obtain ⟨q, -, hq⟩ := List.mem_filterMap.mp hb
    dsimp only at hq
    split at hq
    · cases hq
    · cases hq
      exact List.mem_range.mp hy

theorem SameSources.cvtAll (h : SameSources s t c) (i : Issued) (d : DWord) (g k : Nat) :
    (cvtBlocks d g k).map (fun b => (b, Machine.cvtOne t c i b)) = (cvtBlocks d g k).map fun b => (b, Machine.cvtOne s c i b) :=
  List.map_congr_left fun _ hb => by rw [h.cvtOne i (cvtBlocks_row_lt hb)]

theorem SameSources.cursor (h : SameSources s t c) {n : Nat} (hn : n < 8) (r : Bool) : rd t (cursorAddr c n r) = rd s (cursorAddr c n r) := by
  cases r <;> exact (by rw [cursorAddr, Nat.add_assoc]; exact h.rdVu (by simp; omega) (by simp; omega) (by simp; omega))

end

/-! ## Sources without inverted bits -/

theorem abFound_unflipped {s : State} {c : Nat} (h : (coreX s c).accFlip = []) (b e : Nat) : after (abFound c b e) s = s := by
  rw [after_abFound, if_pos (by rw [flipOf, h]; rfl)]

/-- Reading sources of banks without inverted bits only reports. -/
theorem onlyIn_reads_unflipped {s : State} {c : Nat} (h : (coreX s c).accFlip = []) (vs : List Nat) :
    OnlyIn [.ctl, .herd] s (after (each vs (readSource c)) s) := by
  have hread (v : Nat) (t : State) (ht : (coreX t c).accFlip = []) : OnlyIn [.ctl, .herd] t (after (readSource c v) t) := by
    rw [readSource, after_look, after_act]
    split
    case isFalse => exact onlyIn_refl _ t
    case isTrue =>
      have hnone : after (each (List.range 64) fun e => abFound c (v - 64) e) t = t :=
        after_each_keeps (P := fun u => u = t) (List.range 64) (fun e => abFound c (v - 64) e)
          (fun e _ u hu => by rw [hu]; exact abFound_unflipped ht ..) t rfl
      rw [after_seq_cons, after_seq_cons, after_seq_nil, hnone]
      exact (within_act (within_nfReport c)).onlyIn t
  induction vs generalizing s with
  | nil => exact onlyIn_refl _ s
  | cons v vs ih =>
    have hv := hread v s h
    rw [after_each_cons]
    refine hv.trans (ih ?_)
    rw [coreX_of_core (hv .core rfl), h]

/-! ## Cursors (R265, R269, R272) -/

theorem cursorG_after_setCursor (s : State) (c n : Nat) (r : Bool) (g k : Nat) : cursorG (after (setCursor c n r g k) s) c n r = g % 64 := by
  rw [cursorG, setCursor, after_wr, rd_ctl_same, fld_ofNat _ (by decide) (by decide), bits]
  have : k % (if r then 256 else 64) < 256 := by split <;> omega
  omega

theorem cursorK_after_setCursor (s : State) (c n : Nat) (r : Bool) (g k : Nat) :
    cursorK (after (setCursor c n r g k) s) c n r = k % (if r then 256 else 64) := by
  rw [cursorK, setCursor, after_wr, rd_ctl_same, fld_ofNat _ (by decide) (by decide), bits]
  have : k % (if r then 256 else 64) < 256 := by split <;> omega
  omega

/-- Where a cursor stands after a strip. -/
theorem cursor_after_advance (s : State) (c n : Nat) (r : Bool) (width : Nat) {g : Nat} (hg : g < 64) (k cols : Nat) :
    let t := after (advanceCursor c n r width g k cols) s
    if cols ≤ width * (k + 1) then cursorG t c n r = (g + 1) % 64 ∧ cursorK t c n r = 0
      else cursorG t c n r = g ∧ cursorK t c n r = (k + 1) % (if r then 256 else 64) := by
  dsimp only
  rw [advanceCursor]
  split
  · exact ⟨cursorG_after_setCursor .., by rw [cursorK_after_setCursor, Nat.zero_mod]⟩
  · exact ⟨by rw [cursorG_after_setCursor, Nat.mod_eq_of_lt hg], cursorK_after_setCursor ..⟩

theorem cursorG_lt (s : State) (c n : Nat) (r : Bool) : cursorG s c n r < 64 := fld_lt _ 13 8

/-- A register of the vector unit's page that no report and no counter writes. -/
abbrev VuOwn (c x : Nat) : Prop := ∃ o, x = vuPage c + o ∧ 0x100 ≤ o ∧ o < 0x800

theorem vuOwn_cursor (c : Nat) {n : Nat} (hn : n < 8) (r : Bool) : VuOwn c (cursorAddr c n r) := by
  cases r
  · exact ⟨0x1C0 + 4 * n, by rw [cursorAddr, Nat.add_assoc]; rfl, by omega, by omega⟩
  · exact ⟨0x1E0 + 4 * n, by rw [cursorAddr, Nat.add_assoc]; rfl, by omega, by omega⟩

theorem keepsReg_vuCount {c x : Nat} (h : VuOwn c x) (n : Nat) : KeepsReg x (count (vuPage c) 2 n) := by
  obtain ⟨o, rfl, h1, h2⟩ := h
  exact keepsReg_count (by omega) (by omega) (by omega) n

/-! ## Figures (R222) -/

/-- Of a core: its unretired instructions, what port W1 owes, and the figures of its tensor slots. -/
def vuWork (c : Nat) (s : State) : List Issued × List W1Write × List (Nat × Figures) :=
  ((coreX s c).issued, (coreX s c).w1, (coreX s c).figs)

theorem Within.vuWork {ps : List Part} {a : Act} (h : Within ps a) (c : Nat) (hp : ps.contains .core = false := by rfl) :
    Keeps (Machine.vuWork c) a := ⟨fun s => by rw [Machine.vuWork, Machine.vuWork, h.coreX s c hp]⟩

theorem keeps_vuWork_raiseFormat (c n : Nat) : Keeps (vuWork c) (raiseFormat c n) :=
  keeps_look fun _ => keeps_act fun _ => keeps_seq_cons
    (keeps_setCore (fun x => (x.issued, x.w1, x.figs)) c c) <| keeps_seq_cons ((within_coreEvent ..).vuWork c) keeps_seq_nil

theorem keeps_vuWork_countDraws (c n : Nat) (ls : List Nat) : Keeps (vuWork c) (countDraws c n ls) := by
  refine ⟨fun s => ?_⟩
  rw [vuWork, (coreIs_countDraws (coreIs_refl s c) n ls).1, vuWork]

/-- The figures of one more conversion. -/
def joinFigures (figs : List (Nat × Figures)) (n : Nat) (f : Figures) : List (Nat × Figures) :=
  mSet figs n ((mGetD figs n Figures.zero).add f) Figures.zero

theorem vuWork_after_addFigures (s : State) (c n : Nat) (f : Figures) (nf : Bool) :
    vuWork c (after (addFigures c n f nf) s) = ((coreX s c).issued, (coreX s c).w1, joinFigures (coreX s c).figs n f) := by
  rw [addFigures, after_look, after_seq_cons, after_seq_cons, after_seq_nil, ((within_act (within_nfReport c)).vuWork c).eq, vuWork,
    after_setCore, coreX_core_same]
  rfl

theorem vuWork_after_oweScaled {s : State} {c : Nat} {is : List Issued} {ws : List W1Write} {fs : List (Nat × Figures)}
    (h : vuWork c s = (is, ws, fs)) (i : Issued) (rs : List (Nat × BitVec 512)) (scales : Nat → List (Nat × Byte)) :
    vuWork c (after (oweScaled c i rs scales) s) =
      (is.map (fun k => if k.id = i.id then begun i else k), ws ++ regWrites i rs scales, fs) := by
  cases h
  rw [vuWork, (coreIs_oweScaled (coreIs_refl s c) i rs scales).1]
  rfl

theorem vuWork_after_retire {s : State} {c : Nat} {is : List Issued} {ws : List W1Write} {fs : List (Nat × Figures)}
    (h : vuWork c s = (is, ws, fs)) (i : Issued) :
    vuWork c (after (retire c i) s) = (is.filter (fun k => decide (k.id ≠ i.id)), ws, fs) := by
  cases h
  rw [vuWork, (coreIs_retire s c i).1]
  rfl

/-! ## Conversions (R264 to R271) -/

theorem keepsReg_addFigures {c x : Nat} (h : VuReads c x) (n : Nat) (f : Figures) (nf : Bool) : KeepsReg x (addFigures c n f nf) :=
  keeps_look fun _ => keeps_seq_cons ((within_setCore ..).keepsReg x) <| keeps_seq_cons (keeps_act fun _ => keepsReg_nfReport h) keeps_seq_nil

theorem after_seq_snoc (as : List Act) (a : Act) (s : State) : after (seq (as ++ [a])) s = after a (after (seq as) s) := by
  induction as generalizing s with
  | nil => rw [List.nil_append, after_seq_cons, after_seq_nil, after_seq_nil]
  | cons b bs ih => rw [List.cons_append, after_seq_cons, ih, after_seq_cons]

/-- The registers of a CVT's strip. -/
abbrev cvtOut (i : Issued) (g k : Nat) (cs : List ((Nat × Nat × Nat) × BlockConv)) : List (Nat × BitVec 512) :=
  cvtRegs i.tcA g k (cs.map (fun c => (c.1.1, c.1.2.1, c.2.codes)))

/-- The scale bytes written beside register r of a CVT's strip. -/
abbrev cvtScales (i : Issued) (g k : Nat) (cs : List ((Nat × Nat × Nat) × BlockConv)) (r : Nat) : List (Nat × Byte) :=
  (cs.filter (fun c => decide (cvtScaleReg i.tcA c.1 = r))).map fun c =>
    (64 * tSbase i.tcA + tBlockOf i.tcA (8 * g + c.1.1) (32 * k + c.1.2.1), BitVec.ofNat 8 c.2.scale)

/-- The figures of a CVT's blocks. -/
abbrev cvtFigs (cs : List ((Nat × Nat × Nat) × BlockConv)) : Figures := cs.foldl (fun f c => f.add c.2.figs) Figures.zero

/-- What CVT does before it owes its results: figures, reports, and its cursor. -/
def cvtSteps (c : Nat) (i : Issued) (g k : Nat) (cs : List ((Nat × Nat × Nat) × BlockConv)) (draws : List Nat) (nf : Bool) : Act :=
  seq [addFigures c (vuSlot i.word) (cvtFigs cs) nf, act (cs.any (fun c => c.2.invalid)) (raiseFormat c (vuSlot i.word)),
    act (bit i.word 9) (countDraws c (vuSlot i.word) draws), advanceCursor c (vuTc i.word) false 32 g k (tCols i.tcA)]

/-- How CVT ends: it retires, or owes its registers. -/
def cvtEnd (c : Nat) (i : Issued) (g k : Nat) (cs : List ((Nat × Nat × Nat) × BlockConv)) : Act :=
  if bit i.word 4 || (cvtOut i g k cs).isEmpty then retire c i
  else seq [oweScaled c i (cvtOut i g k cs) (cvtScales i g k cs), count (vuPage c) 2 (cvtFigs cs).elements]

theorem after_actCvt {s : State} {c : Nat} {i : Issued} (hi : vuNext s c 0x20 = some i) (hb : (readsCvt i.word).any (bankBusy s c) = false) :
    ∃ draws nf, let g := cursorG s c (vuTc i.word) false
      let k := cursorK s c (vuTc i.word) false
      let cs := (cvtBlocks i.tcA g k).map fun b => (b, cvtOne s c i b)
      after (actCvt c) s = after (cvtEnd c i g k cs) (after (cvtSteps c i g k cs draws nf) (after (each (readsCvt i.word) (readSource c)) s)) := by
  have h := sameSources_reads s c (readsCvt i.word)
  rw [actCvt, after_vuOp hi hb, after_look]
  generalize after (each (readsCvt i.word) (readSource c)) s = t at h
  have hg : cursorG t c (vuTc i.word) false = cursorG s c (vuTc i.word) false := by rw [cursorG, cursorG, h.cursor (vuTc_lt _)]
  have hk : cursorK t c (vuTc i.word) false = cursorK s c (vuTc i.word) false := by rw [cursorK, cursorK, h.cursor (vuTc_lt _)]
  dsimp only
  rw [hg, hk, h.cvtAll]
  exact ⟨_, _, after_seq_snoc [_, _, _, _] _ t⟩

/-- The registers of a core page's reports and counters keep clear of those of the vector unit's own. -/
theorem VuOwn.reads {c x : Nat} (h : VuOwn c x) : VuReads c x := by
  obtain ⟨o, rfl, h1, h2⟩ := h
  exact vuReads_vu c h1 (by omega) (by omega)

theorem keepsReg_raiseFormat {c x : Nat} (h : VuOwn c x) (n : Nat) : KeepsReg x (raiseFormat c n) := by
  obtain ⟨o, rfl, h1, h2⟩ := h
  exact keeps_look fun _ => keeps_act fun _ => keeps_seq_cons ((within_setCore ..).keepsReg _) <| keeps_seq_cons
    (keeps_look fun _ => keepsReg_raise (by omega) (by omega) nofun) keeps_seq_nil

theorem within_cvtSteps (c : Nat) (i : Issued) (g k : Nat) (cs : List ((Nat × Nat × Nat) × BlockConv)) (draws : List Nat) (nf : Bool) :
    Within [.ctl, .core, .herd, .dumpRun, .freeCtr] (cvtSteps c i g k cs draws nf) :=
  within_seq_cons ((within_addFigures ..).wider rfl) <| within_seq_cons (within_act ((within_raiseFormat ..).wider rfl)) <|
    within_seq_cons (within_act ((within_countDraws ..).wider rfl)) <| within_seq_cons ((within_advanceCursor ..).wider rfl) within_seq_nil

theorem within_cvtEnd (c : Nat) (i : Issued) (g k : Nat) (cs : List ((Nat × Nat × Nat) × BlockConv)) : Within [.ctl, .core] (cvtEnd c i g k cs) :=
  within_ite ((within_retire ..).wider rfl) <| within_seq_cons ((within_oweScaled ..).wider rfl) <|
    within_seq_cons ((within_count ..).wider rfl) within_seq_nil

theorem keepsReg_cvtEnd {c x : Nat} (h : VuOwn c x) (i : Issued) (g k : Nat) (cs : List ((Nat × Nat × Nat) × BlockConv)) :
    KeepsReg x (cvtEnd c i g k cs) :=
  keeps_ite (fun _ => (within_retire ..).keepsReg x) fun _ => keeps_seq_cons ((within_oweScaled ..).keepsReg x) <|
    keeps_seq_cons (keepsReg_vuCount h _) keeps_seq_nil

section

variable (t : State) (c : Nat) (i : Issued) (g k : Nat) (cs : List ((Nat × Nat × Nat) × BlockConv)) (draws : List Nat) (nf : Bool)

/-- The conversion's cursor moves on. -/
theorem cursor_after_cvtSteps (hg : g < 64) : let u := after (cvtSteps c i g k cs draws nf) t
    if tCols i.tcA ≤ 32 * (k + 1) then cursorG u c (vuTc i.word) false = (g + 1) % 64 ∧ cursorK u c (vuTc i.word) false = 0
      else cursorG u c (vuTc i.word) false = g ∧ cursorK u c (vuTc i.word) false = (k + 1) % 64 := by
  dsimp only
  rw [cvtSteps, after_seq_cons, after_seq_cons, after_seq_cons, after_seq_cons, after_seq_nil]
  exact cursor_after_advance _ c (vuTc i.word) false 32 hg k (tCols i.tcA)

theorem vuWork_after_cvtSteps : vuWork c (after (cvtSteps c i g k cs draws nf) t) =
    ((coreX t c).issued, (coreX t c).w1, joinFigures (coreX t c).figs (vuSlot i.word) (cvtFigs cs)) := by
  rw [cvtSteps, after_seq_cons, after_seq_cons, after_seq_cons, after_seq_cons, after_seq_nil, ((within_advanceCursor ..).vuWork c).eq,
    (keeps_act fun _ => keeps_vuWork_countDraws ..).eq, (keeps_act fun _ => keeps_vuWork_raiseFormat ..).eq, vuWork_after_addFigures]

variable {t c}
variable {is : List Issued} {ws : List W1Write} {fs : List (Nat × Figures)} (h : vuWork c t = (is, ws, fs))
include h

/-- Counting only, or past the tile's columns, the conversion retires. -/
theorem vuWork_after_cvtEnd_retires (hr : bit i.word 4 = true ∨ cvtOut i g k cs = []) :
    vuWork c (after (cvtEnd c i g k cs) t) = (is.filter (fun k => decide (k.id ≠ i.id)), ws, fs) := by
  rw [cvtEnd, if_pos (by simpa [cvtOut, List.isEmpty_iff] using hr), vuWork_after_retire h]

/-- Otherwise it owes its registers, with the scales beside them. -/
theorem vuWork_after_cvtEnd_owes (h4 : bit i.word 4 = false) (hr : cvtOut i g k cs ≠ []) : vuWork c (after (cvtEnd c i g k cs) t) =
    (is.map (fun k => if k.id = i.id then begun i else k), ws ++ regWrites i (cvtOut i g k cs) (cvtScales i g k cs), fs) := by
  have hempty : (cvtOut i g k cs).isEmpty = false := by simpa [List.isEmpty_eq_false_iff] using hr
  rw [cvtEnd, h4, hempty, if_neg (by decide), after_seq_cons, after_seq_cons, after_seq_nil, ((within_count ..).vuWork c).eq,
    vuWork_after_oweScaled h]

/-- In either case the figures stay. -/
theorem figs_after_cvtEnd : (coreX (after (cvtEnd c i g k cs) t) c).figs = fs := by
  by_cases hr : bit i.word 4 = true ∨ cvtOut i g k cs = []
  · exact congrArg (·.2.2) (vuWork_after_cvtEnd_retires i g k cs h hr)
  · obtain ⟨h4, hr⟩ := not_or.mp hr
    exact congrArg (·.2.2) (vuWork_after_cvtEnd_owes i g k cs h (by simpa using h4) hr)

end

theorem does_cvt {s : State} (hs : Ready s) (c : Site) {i : Issued} (hflip : (coreX s c.val).accFlip = []) (hi : vuNext s c.val 0x20 = some i)
    (hb : (readsCvt i.word).any (bankBusy s c.val) = false) : let d := i.tcA
    let g := cursorG s c.val (vuTc i.word) false
    let k := cursorK s c.val (vuTc i.word) false
    let cs := (cvtBlocks d g k).map fun b => (b, cvtOne s c.val i b)
    Does (.cvt c) s [.ctl, .core, .herd, .dumpRun, .freeCtr] fun t =>
      (if tCols d ≤ 32 * (k + 1) then cursorG t c.val (vuTc i.word) false = (g + 1) % 64 ∧ cursorK t c.val (vuTc i.word) false = 0
        else cursorG t c.val (vuTc i.word) false = g ∧ cursorK t c.val (vuTc i.word) false = (k + 1) % 64) ∧
      (coreX t c.val).figs = joinFigures (coreX s c.val).figs (vuSlot i.word) (cvtFigs cs) ∧
      (bit i.word 4 = true ∨ cvtOut i g k cs = [] → (coreX t c.val).issued = dropInsn (coreX s c.val) i ∧
        (coreX t c.val).w1 = (coreX s c.val).w1) ∧
      (bit i.word 4 = false → cvtOut i g k cs ≠ [] → (coreX t c.val).issued = swapInsn (coreX s c.val) i (begun i) ∧
        (coreX t c.val).w1 = (coreX s c.val).w1 ++ regWrites i (cvtOut i g k cs) (cvtScales i g k cs)) := by
  intro d g k cs
  obtain ⟨draws, nf, e⟩ := after_actCvt hi hb
  have hread := onlyIn_reads_unflipped hflip (readsCvt i.word)
  have hx : coreX (after (each (readsCvt i.word) (readSource c.val)) s) c.val = coreX s c.val := coreX_of_core (hread .core rfl) c.val
  generalize after (each (readsCvt i.word) (readSource c.val)) s = u at e hread hx
  have hwork := vuWork_after_cvtSteps u c.val i g k cs draws nf
  have hcur := cursor_after_cvtSteps u c.val i g k cs draws nf (cursorG_lt ..)
  rw [hx] at hwork
  refine does_of_run hs.1 rfl ?_ ?_ <;> rw [e]
  · exact ((hread.wider rfl).trans ((within_cvtSteps ..).onlyIn _)).trans (((within_cvtEnd ..).wider rfl).onlyIn _)
  · have hreg := keepsReg_cvtEnd (vuOwn_cursor c.val (vuTc_lt i.word) false) i g k cs
    refine ⟨?_, figs_after_cvtEnd i g k cs hwork, fun hr => ?_, fun h4 hr => ?_⟩
    · generalize after (cvtSteps c.val i g k cs draws nf) u = v at hcur
      have hG : cursorG (after (cvtEnd c.val i g k cs) v) c.val (vuTc i.word) false = cursorG v c.val (vuTc i.word) false :=
        congrArg (fld · 13 8) (hreg.rd v)
      have hK : cursorK (after (cvtEnd c.val i g k cs) v) c.val (vuTc i.word) false = cursorK v c.val (vuTc i.word) false :=
        congrArg (fld · 7 0) (hreg.rd v)
      rw [hG, hK]
      exact hcur
    · have hend := vuWork_after_cvtEnd_retires i g k cs hwork hr
      exact ⟨congrArg (·.1) hend, congrArg (·.2.1) hend⟩
    · have hend := vuWork_after_cvtEnd_owes i g k cs hwork h4 hr
      exact ⟨congrArg (·.1) hend, congrArg (·.2.1) hend⟩

/-- What CVH does once its source is read, of the results `rs` of its lanes. -/
def cvhBody (c : Nat) (i : Issued) (rs : List (Nat × Figures)) (watched : Bool) : Act :=
  seq [act (bit i.word 4) (addFigures c (vuSlot i.word) (rs.foldl (fun f r => f.add r.2) Figures.zero) (rs.any fun r => decide (r.2.nonfinite ≠ 0))),
    act watched (nfReport c), act (bit i.word 5) (countDraws c (vuSlot i.word) (List.range 64)),
    oweRegs c i ((List.range 2).map fun r => (vuVd i.word + r,
      packElems 16 512 ((List.range 32).map (fun p => (rs.getD (8 * (p / 4) + 4 * r + p % 4) (0, Figures.zero)).1)))),
    count (vuPage c) 2 64]

theorem after_actCvh {s : State} {c : Nat} {i : Issued} (hi : vuNext s c 0x21 = some i) (hb : bankBusy s c (vuVa i.word) = false) :
    ∃ watched, after (actCvh c) s = after (cvhBody c i ((List.range 64).map fun l => convHalf (if bit i.word 6 then 8 else 7)
      (if bit i.word 5 then .stochastic (drawAt s c (vuSlot i.word) l 0) else .nearest) (srcLane s c 0 (vuVa i.word) l)) watched)
      (after (each (readsA i.word) (readSource c)) s) := by
  have h := sameSources_reads s c (readsA i.word)
  rw [actCvh, after_vuOp hi (reads := readsA) (by simp [readsA, hb]), after_look]
  generalize after (each (readsA i.word) (readSource c)) s = t at h
  have hlanes : ((List.range 64).map fun l => convHalf (if bit i.word 6 then 8 else 7)
      (if bit i.word 5 then .stochastic (drawAt t c (vuSlot i.word) l 0) else .nearest) (srcLane t c 0 (vuVa i.word) l)) = _ :=
    List.map_congr_left fun l hl => by rw [h.drawAt (vuSlot_lt _), h.srcLane _ _ (List.mem_range.mp hl)]
  dsimp only
  rw [hlanes]
  exact ⟨_, rfl⟩

theorem within_cvhBody (c : Nat) (i : Issued) (rs : List (Nat × Figures)) (watched : Bool) :
    Within [.ctl, .core, .herd, .dumpRun, .freeCtr] (cvhBody c i rs watched) :=
  within_seq_cons (within_act ((within_addFigures ..).wider rfl)) <| within_seq_cons (within_act ((within_nfReport ..).wider rfl)) <|
    within_seq_cons (within_act ((within_countDraws ..).wider rfl)) <| within_seq_cons ((within_oweRegs ..).wider rfl) <|
    within_seq_cons ((within_count ..).wider rfl) within_seq_nil

theorem vuWork_after_cvhBody (t : State) (c : Nat) (i : Issued) (rs : List (Nat × Figures)) (watched : Bool) :
    vuWork c (after (cvhBody c i rs watched) t) = (swapInsn (coreX t c) i (begun i),
      (coreX t c).w1 ++ regWrites i ((List.range 2).map fun r => (vuVd i.word + r,
        packElems 16 512 ((List.range 32).map (fun p => (rs.getD (8 * (p / 4) + 4 * r + p % 4) (0, Figures.zero)).1)))) (fun _ => []),
      if bit i.word 4 then joinFigures (coreX t c).figs (vuSlot i.word) (rs.foldl (fun f r => f.add r.2) Figures.zero)
        else (coreX t c).figs) := by
  rw [cvhBody, after_seq_cons, after_seq_cons, after_seq_cons, after_seq_cons, after_seq_cons, after_seq_nil, ((within_count ..).vuWork c).eq]
  refine vuWork_after_oweScaled ?_ i _ _
  rw [(keeps_act fun _ => keeps_vuWork_countDraws ..).eq, ((within_act (within_nfReport c)).vuWork c).eq, after_act]
  split
  · rw [vuWork_after_addFigures]
  · rfl

/-- Settles O25: banks without inverted bits read as they are; the conversion is that of the state before, then its figures join, its cursor
moves on, and it owes its registers or retires. -/
theorem conversions : Obligations.Conversions := by
  unfold Obligations.Conversions
  refine fun s hs c i hflip => ⟨fun hi hb => ?_, fun hi hb => ?_⟩
  · refine (does_cvt hs c hflip hi hb).imp fun t ⟨hcur, hfigs, hends⟩ => ⟨hcur, ?_, hends⟩
    rw [hfigs]
    exact mGetD_mSet_same ..
  · obtain ⟨watched, e⟩ := after_actCvh hi hb
    have hread := onlyIn_reads_unflipped hflip (readsA i.word)
    have hx : coreX (after (each (readsA i.word) (readSource c.val)) s) c.val = coreX s c.val := coreX_of_core (hread .core rfl) c.val
    generalize after (each (readsA i.word) (readSource c.val)) s = u at e hread hx
    have hwork := vuWork_after_cvhBody u c.val i ((List.range 64).map fun l => convHalf (if bit i.word 6 then 8 else 7)
      (if bit i.word 5 then .stochastic (drawAt s c.val (vuSlot i.word) l 0) else .nearest) (srcLane s c.val 0 (vuVa i.word) l)) watched
    rw [hx] at hwork
    refine does_of_run hs.1 rfl ?_ ?_ <;> rw [e]
    · exact (hread.wider rfl).trans ((within_cvhBody ..).onlyIn _)
    · have hfigs := congrArg (·.2.2) hwork
      refine ⟨congrArg (·.1) hwork, fun h4 => ?_, fun h4 => ?_, congrArg (·.2.1) hwork⟩
      · refine (congrArg (mGetD · (vuSlot i.word) Figures.zero) (hfigs.trans (if_pos h4))).trans (mGetD_mSet_same ..)
      · exact hfigs.trans (if_neg (by simp [h4]))

/-! ## Decoding and set-up (R164, R251, R272, R273) -/

/-- An operation that writes registers and retires. -/
theorem setsAndRetires {s : State} {c : Nat} {i : Issued} {a : Act} (ha : Within [.ctl] a) {as : List Nat}
    (hr : ∀ x, x ∉ as → KeepsReg x a) : let t := after (seq [a, retire c i]) s
    OnlyIn [.ctl, .core] s t ∧ CoreIs s t c { coreX s c with issued := dropInsn (coreX s c) i } ∧ RegsAt as s t ∧ t.ctl = (after a s).ctl := by
  dsimp only
  rw [after_seq_cons, after_seq_cons, after_seq_nil]
  exact ⟨((ha.wider rfl).onlyIn s).trans (((within_retire ..).wider rfl).onlyIn _), ((coreIs_refl s c).within ha).retire i,
    fun x hx => (((within_retire ..).keepsReg x).rd _).trans ((hr x hx).rd s), (within_retire ..).ctl _⟩

theorem rd_of_ctl {s t : State} (h : t.ctl = s.ctl) (x : Nat) : rd t x = rd s x := by rw [rd, rd, h]

theorem does_dec {s : State} (hs : Ready s) (c : Site) {i : Issued} (hi : vuNext s c.val 0x22 = some i) : Does (.dec c) s [.ctl, .core] fun t =>
    let d := i.tcA
    let g := cursorG s c.val (vuTc i.word) true
    let k := cursorK s c.val (vuTc i.word) true
    (if tCols d ≤ 8 * (k + 1) then cursorG t c.val (vuTc i.word) true = (g + 1) % 64 ∧ cursorK t c.val (vuTc i.word) true = 0
      else cursorG t c.val (vuTc i.word) true = g ∧ cursorK t c.val (vuTc i.word) true = (k + 1) % 256) ∧
    CoreIs s t c.val { coreX s c.val with
      issued := swapInsn (coreX s c.val) i (begun i)
      w1 := (coreX s c.val).w1 ++ regWrites i (destRegs (if bit i.word 5 then 1 else 0) (vuVd i.word) ((List.range 64).map fun l =>
        if tRows d ≤ 8 * g + l / 8 ∨ tCols d ≤ 8 * k + l % 8 then 0
        else if bit i.word 4 then
          toF32 (mulVal (tValue s c.val d (8 * g + l / 8) (8 * k + l % 8)) (f32Val (tscale s c.val (vuSlot i.word))))
        else toF32 (tValue s c.val d (8 * g + l / 8) (8 * k + l % 8)))) (fun _ => []) } := by
  have e : after (actDec c.val) s = _ := (after_vuOp_bankless hi _).trans (after_look ..)
  refine does_of_run hs.1 rfl ?_ ?_ <;> rw [e]
  · exact (within_seq_cons ((within_advanceCursor ..).wider rfl) <| within_seq_cons ((within_oweRegs ..).wider rfl) within_seq_nil).onlyIn s
  · rw [after_seq_cons, after_seq_cons, after_seq_nil]
    refine ⟨?_, coreIs_oweScaled ((coreIs_refl s c.val).within (within_advanceCursor ..)) i _ _⟩
    have hcur := cursor_after_advance s c.val (vuTc i.word) true 8 (cursorG_lt s c.val (vuTc i.word) true) (cursorK s c.val (vuTc i.word) true)
      (tCols i.tcA)
    have hrd (t : State) (rs : List (Nat × BitVec 512)) (x : Nat) : rd (after (oweRegs c.val i rs) t) x = rd t x :=
      rd_of_ctl ((within_oweRegs ..).ctl t) x
    simp only [cursorG, cursorK, hrd] at hcur ⊢
    exact hcur

theorem does_cur {s : State} (hs : Ready s) (c : Site) {i : Issued} (hi : vuNext s c.val 0x23 = some i) : Does (.cur c) s [.ctl, .core] fun t =>
    cursorG t c.val (fld i.word 2 0) (bit i.word 3) = vuVd i.word ∧
    cursorK t c.val (fld i.word 2 0) (bit i.word 3) = (if bit i.word 3 then vuVa i.word + 128 * (vuVb i.word % 2) else vuVa i.word % 64) ∧
    CoreIs s t c.val { coreX s c.val with issued := dropInsn (coreX s c.val) i } ∧
    RegsAt [cursorAddr c.val (fld i.word 2 0) (bit i.word 3)] s t := by
  have e : after (actCur c.val) s = _ := after_vuOp_bankless hi _
  have hd : vuVd i.word < 64 := fld_lt i.word 25 20
  have ha : vuVa i.word < 128 := fld_lt i.word 19 13
  obtain ⟨honly, hcore, hregs, hctl⟩ := setsAndRetires (s := s) (c := c.val) (i := i)
    (within_setCursor c.val (fld i.word 2 0) (bit i.word 3) (vuVd i.word) (vuVa i.word + 128 * (vuVb i.word % 2)))
    (as := [cursorAddr c.val (fld i.word 2 0) (bit i.word 3)]) fun x hx => keepsReg_wr (by simpa using hx) _
  refine does_of_run hs.1 rfl ?_ ?_ <;> rw [e]
  · exact honly
  · refine ⟨?_, ?_, hcore, hregs⟩
    · rw [cursorG, rd_of_ctl hctl, ← cursorG, cursorG_after_setCursor, Nat.mod_eq_of_lt hd]
    · rw [cursorK, rd_of_ctl hctl, ← cursorK, cursorK_after_setCursor]
      split <;> omega

theorem bscField_word (s : State) (c n : Nat) :
    bscField s c n = fld (rd s (vuPage c + 0x180 + n / 2 * 4)) (16 * (n % 2) + 15) (16 * (n % 2)) := rfl

theorem does_bsc {s : State} (hs : Ready s) (c : Site) {i : Issued} (hi : vuNext s c.val 0x24 = some i) : Does (.bsc c) s [.ctl, .core] fun t =>
    bscField t c.val (fld i.word 1 0) = 32768 * b2n (bit i.word 2) + 16 * (vuVb i.word % 16) + vuVd i.word % 16 ∧
    (∀ n < 4, n ≠ fld i.word 1 0 → bscField t c.val n = bscField s c.val n) ∧
    CoreIs s t c.val { coreX s c.val with issued := dropInsn (coreX s c.val) i } ∧
    RegsAt [vuPage c.val + 0x180 + fld i.word 1 0 / 2 * 4] s t := by
  have e : after (actBsc c.val) s = _ := after_vuOp_bankless hi _
  have hn : fld i.word 1 0 < 4 := fld_lt i.word 1 0
  dsimp only at e
  generalize fld i.word 1 0 = m at e hn ⊢
  have hb : b2n (bit i.word 2) ≤ 1 := by cases bit i.word 2 <;> decide
  obtain ⟨honly, hcore, hregs, hctl⟩ := setsAndRetires (s := s) (c := c.val) (i := i)
    (within_wrFld (vuPage c.val + 0x180 + m / 2 * 4) (16 * (m % 2) + 15) (16 * (m % 2))
      (32768 * b2n (bit i.word 2) + 16 * (vuVb i.word % 16) + vuVd i.word % 16))
    (as := [vuPage c.val + 0x180 + m / 2 * 4]) fun x hx => keepsReg_wrFld (by simpa using hx) ..
  have hmod : m % 2 < 2 := Nat.mod_lt _ (by decide)
  refine does_of_run hs.1 rfl ?_ ?_ <;> rw [e]
  · exact honly
  · refine ⟨?_, fun n hn' hne => ?_, hcore, hregs⟩
    · rw [bscField_word, rd_of_ctl hctl, after_wrFld, rd_ctl_same, fld_setFld _ (by omega) (by omega),
        show 16 * (m % 2) + 15 + 1 - 16 * (m % 2) = 16 by omega]
      omega
    · rw [bscField_word, bscField_word, rd_of_ctl hctl, after_wrFld]
      by_cases hw : n / 2 = m / 2
      · rw [hw, rd_ctl_same, fld_setFld_other _ (by omega) (by omega) (by omega)]
      · rw [rd_ctl_other _ (by omega)]

theorem does_tcw {s : State} (hs : Ready s) (c : Site) {i : Issued} (hi : vuNext s c.val 0x30 = some i) : Does (.tcw c) s [.ctl, .core] fun t =>
    tcGet t c.val (fld i.word 2 0) = (vGet s c.val (vuVa i.word % 64)).setWidth 64 ∧
    CoreIs s t c.val { coreX s c.val with issued := dropInsn (coreX s c.val) i } ∧
    RegsAt [tilePage c.val + 0x100 + 8 * fld i.word 2 0, tilePage c.val + 0x104 + 8 * fld i.word 2 0] s t := by
  have e : after (actTcw c.val) s = _ := (after_vuOp_bankless hi _).trans (after_look ..)
  obtain ⟨honly, hcore, hregs, hctl⟩ := setsAndRetires (s := s) (c := c.val) (i := i)
    (within_wr64 (tilePage c.val + 0x100 + 8 * fld i.word 2 0) ((vGet s c.val (vuVa i.word % 64)).setWidth 64))
    (as := [tilePage c.val + 0x100 + 8 * fld i.word 2 0, tilePage c.val + 0x104 + 8 * fld i.word 2 0]) fun x hx => by
      simp only [List.mem_cons, List.not_mem_nil, or_false, not_or] at hx
      exact keepsReg_wr64 hx.1 (by omega) _
  refine does_of_run hs.1 rfl ?_ ?_ <;> rw [e]
  · exact honly
  · refine ⟨?_, hcore, hregs⟩
    rw [tcGet, rd64, rd_of_ctl hctl, rd_of_ctl hctl, ← rd64, rd64_after_wr64]

/-! ## Port W1 (R278) -/

/-- A scale byte written beside a register. -/
def scaleBeside (c : Nat) (p : Nat × Byte) : Act := look fun s => vPut c (p.1 / 64) (putElem 8 (vGet s c (p.1 / 64)) (p.1 % 64) p.2.toNat)

/-- Byte b of register q of core d. -/
def regByte (s : State) (d q b : Nat) : Nat := fld (vGet s d q) (8 * b + 7) (8 * b)

theorem regByte_after_scaleBeside (s : State) (c d q b : Nat) {p : Nat × Byte} (hp : p.1 < 4096) (hq : q < 64) (hb : b < 64) :
    regByte (after (scaleBeside c p) s) d q b = if d = c ∧ p.1 = 64 * q + b then p.2.toNat else regByte s d q b := by
  rw [scaleBeside, after_look, regByte, vGet_after_vPut _ _ _ _ _ _ (by omega) hq]
  by_cases hreg : d = c ∧ q = p.1 / 64
  · obtain ⟨rfl, rfl⟩ := hreg
    rw [if_pos ⟨rfl, rfl⟩, putElem_eq_setFld, regByte]
    by_cases hbyte : b = p.1 % 64
    · rw [if_pos ⟨rfl, by omega⟩, hbyte, fld_setFld _ (by omega) (by omega), show 8 * (p.1 % 64) + 7 + 1 - 8 * (p.1 % 64) = 8 by omega]
      exact Nat.mod_eq_of_lt p.2.isLt
    · rw [if_neg (by omega), fld_setFld_other _ (by omega) (by omega) (by omega)]
  · rw [if_neg hreg, if_neg (by omega), regByte]

section

variable {c : Nat} {scales : List (Nat × Byte)} (hscales : ∀ p ∈ scales, p.1 < 4096)
include hscales

theorem regByte_after_scales_other (s : State) {d q b : Nat} (hq : q < 64) (hb : b < 64) (h : d ≠ c ∨ ∀ p ∈ scales, p.1 ≠ 64 * q + b) :
    regByte (after (each scales (scaleBeside c)) s) d q b = regByte s d q b := by
  have hkeep : Keeps (regByte · d q b) (each scales (scaleBeside c)) := keeps_each fun p hp => ⟨fun t => by
    rw [regByte_after_scaleBeside t c d q b (hscales p hp) hq hb, if_neg fun ⟨hd, hpb⟩ => h.elim (· hd) fun h => h p hp hpb]⟩
  exact hkeep.eq s

theorem regByte_after_scales (s : State) (hnodup : (scales.map (·.1)).Nodup) {p : Nat × Byte} (hp : p ∈ scales) :
    regByte (after (each scales (scaleBeside c)) s) c (p.1 / 64) (p.1 % 64) = p.2.toNat := by
  have hlt := hscales p hp
  have hstep (r : Nat × Byte) (hr : r ∈ scales) (t : State) := regByte_after_scaleBeside t c c (p.1 / 64) (p.1 % 64) (hscales r hr) (by omega) (by omega)
  refine after_each_sets (f := fun t => regByte t c (p.1 / 64) (p.1 % 64)) hp (fun t => (hstep p hp t).trans (if_pos ⟨rfl, by omega⟩))
    (fun r hr => ?_) s
  by_cases heq : r.1 = p.1
  · obtain rfl : r = p := List.inj_on_of_nodup_map hnodup hr hp heq
    exact .inl fun t => (hstep r hp t).trans (if_pos ⟨rfl, by omega⟩)
  · exact .inr ⟨fun t => (hstep r hr t).trans (if_neg (by omega))⟩

end

/-- The values of a row accumulator. -/
def raWrites (c k : Nat) (vs : List Word) : Act := each vs.zipIdx fun q => wr (vuPage c + 0x300 + 32 * k + 4 * q.2) q.1

theorem raGet_after_raWrites (s : State) (c k : Nat) {vs : List Word} {y : Nat} (hy : y < vs.length) :
    raGet (after (raWrites c k vs) s) c k y = vs.getD y 0 := by
  rw [List.getD_eq_getElem _ _ hy]
  have hmem : (vs[y], y) ∈ vs.zipIdx := by
    rw [List.mem_zipIdx_iff_getElem?]
    exact List.getElem?_eq_getElem hy
  have hset (t : State) (v : Word) : raGet (after (wr (vuPage c + 0x300 + 32 * k + 4 * y) v) t) c k y = v := rd_ctl_same ..
  refine after_each_sets (f := fun t => raGet t c k y) hmem (fun t => hset t _) (fun q hq => ?_) s
  by_cases hqy : q.2 = y
  · left
    intro t
    have hval := List.mem_zipIdx_iff_getElem?.mp hq
    rw [hqy, List.getElem?_eq_getElem hy, Option.some.injEq] at hval
    rw [hqy, hval]
    exact hset t _
  · exact .inr (keepsReg_wr (by omega) _)

theorem after_actVuResultWrite {s : State} {c : Nat} {w : W1Write} {rest : List W1Write} (h : (coreX s c).w1 = w :: rest) :
    after (actVuResultWrite c) s = after (seq [setCore c (fun x => { x with w1 := x.w1.drop 1 }),
      (match w.reg with | some p => vPut c p.1 p.2 | none => nop),
      (match w.ra with | some p => raWrites c p.1 p.2 | none => nop),
      each w.scales (scaleBeside c), act w.last (retire c w.insn)]) s := by
  rw [actVuResultWrite, after_look, h]
  rfl

/-- The core once its oldest write is made, whatever that write was to. -/
theorem coreIs_resultWrite {s : State} {c : Nat} {w : W1Write} {rest : List W1Write} (h : (coreX s c).w1 = w :: rest) {a b d : Act} {ps : List Part}
    (ha : Within ps a) (hb : Within ps b) (hd : Within ps d) (hp : ps.contains .core = false := by rfl) :
    CoreIs s (after (seq [setCore c (fun x => { x with w1 := x.w1.drop 1 }), a, b, d, act w.last (retire c w.insn)]) s) c
      { coreX s c with w1 := rest, issued := (if w.last then dropInsn (coreX s c) w.insn else (coreX s c).issued) } := by
  rw [after_seq_cons, after_seq_cons, after_seq_cons, after_seq_cons, after_seq_cons, after_seq_nil]
  have hx := (((coreIs_setCore s c fun x => { x with w1 := x.w1.drop 1 }).within ha hp).within hb hp).within hd hp
  rw [h] at hx
  cases hw : w.last
  · exact hx
  · exact hx.retire w.insn

theorem within_raWrites (c k : Nat) (vs : List Word) : Within [.ctl] (raWrites c k vs) := within_each fun _ => within_wr ..

theorem within_scaleBeside (c : Nat) (p : Nat × Byte) : Within [.vreg] (scaleBeside c p) := within_look fun _ => within_vPut ..

theorem does_writeReg {s : State} (hs : Ready s) (c : Site) {w : W1Write} {rest : List W1Write} (h : (coreX s c.val).w1 = w :: rest) {r : Nat}
    {v : BitVec 512} (hreg : w.reg = some (r, v)) (hra : w.ra = none) (hr : r < 64) (hscales : ∀ p ∈ w.scales, p.1 < 4096) :
    Does (.vuResultWrite c) s [.core, .vreg] fun t =>
      (∀ d q, q < 64 → ∀ b < 64, (d ≠ c.val ∨ ∀ p ∈ w.scales, p.1 ≠ 64 * q + b) →
        fld (vGet t d q) (8 * b + 7) (8 * b) = fld (if d = c.val ∧ q = r then v else vGet s d q) (8 * b + 7) (8 * b)) ∧
      ((w.scales.map (·.1)).Nodup → ∀ p ∈ w.scales,
        fld (vGet t c.val (p.1 / 64)) (8 * (p.1 % 64) + 7) (8 * (p.1 % 64)) = p.2.toNat) ∧
      CoreIs s t c.val { coreX s c.val with
        w1 := rest
        issued := (if w.last then dropInsn (coreX s c.val) w.insn else (coreX s c.val).issued) } := by
  have e := after_actVuResultWrite h
  rw [hreg, hra] at e
  dsimp only at e
  have hcore := coreIs_resultWrite h (within_vPut c.val r v) (within_nop (ps := [.vreg])) (within_each (xs := w.scales) fun p => within_scaleBeside c.val p)
  refine does_of_run hs.1 rfl ?_ ?_ <;> rw [e]
  · exact (within_seq_cons ((within_setCore ..).wider rfl) <| within_seq_cons ((within_vPut ..).wider rfl) <| within_seq_cons within_nop <|
      within_seq_cons (within_each fun p => (within_scaleBeside c.val p).wider rfl) <|
      within_seq_cons (within_act ((within_retire ..).wider rfl)) within_seq_nil).onlyIn s
  · refine ⟨?_, ?_, hcore⟩ <;>
      rw [after_seq_cons, after_seq_cons, after_seq_cons, after_seq_cons, after_seq_cons, after_seq_nil, after_nop,
        vGet_of_vreg ((within_act (within_retire c.val w.insn)).vreg _)]
    · intro d q hq b hb hout
      refine (regByte_after_scales_other hscales _ hq hb hout).trans ?_
      rw [regByte, vGet_after_vPut _ _ _ _ _ _ hr hq, vGet_of_vreg ((within_setCore ..).vreg s)]
    · exact fun hnodup p hp => regByte_after_scales hscales _ hnodup hp

theorem does_writeRows {s : State} (hs : Ready s) (c : Site) {w : W1Write} {rest : List W1Write} (h : (coreX s c.val).w1 = w :: rest) {k : Nat}
    {vs : List Word} (hreg : w.reg = none) (hra : w.ra = some (k, vs)) (hscales : w.scales = []) (hlen : vs.length = 8) :
    Does (.vuResultWrite c) s [.ctl, .core] fun t =>
      (∀ y < 8, raGet t c.val k y = vs.getD y 0) ∧
      RegsAt ((List.range 8).map (fun y => vuPage c.val + 0x300 + 32 * k + 4 * y)) s t ∧
      CoreIs s t c.val { coreX s c.val with
        w1 := rest
        issued := (if w.last then dropInsn (coreX s c.val) w.insn else (coreX s c.val).issued) } := by
  have e := after_actVuResultWrite h
  rw [hreg, hra, hscales] at e
  dsimp only at e
  have hcore := coreIs_resultWrite h (within_nop (ps := [.ctl])) (within_raWrites c.val k vs) (d := each [] (scaleBeside c.val)) within_nop
  refine does_of_run hs.1 rfl ?_ ?_ <;> rw [e]
  · exact (within_seq_cons ((within_setCore ..).wider rfl) <| within_seq_cons within_nop <| within_seq_cons ((within_raWrites ..).wider rfl) <|
      within_seq_cons within_nop <| within_seq_cons (within_act ((within_retire ..).wider rfl)) within_seq_nil).onlyIn s
  · refine ⟨?_, ?_, hcore⟩
    · intro y hy
      rw [after_seq_cons, after_seq_cons, after_seq_cons, after_seq_cons, after_seq_cons, after_seq_nil, after_nop, after_each_nil, raGet,
        ((within_act (within_retire c.val w.insn)).keepsReg _).rd]
      exact raGet_after_raWrites _ c.val k (by omega)
    · intro x hx
      have hne (q : Word × Nat) (hq : q ∈ vs.zipIdx) : x ≠ vuPage c.val + 0x300 + 32 * k + 4 * q.2 := fun heq =>
        hx (List.mem_map.mpr ⟨q.2, List.mem_range.mpr (hlen ▸ List.snd_lt_of_mem_zipIdx hq), heq.symm⟩)
      have hkeep : KeepsReg x (seq [setCore c.val (fun x => { x with w1 := x.w1.drop 1 }), nop, raWrites c.val k vs, each [] (scaleBeside c.val),
          act w.last (retire c.val w.insn)]) :=
        keeps_seq_cons ((within_setCore ..).keepsReg x) <| keeps_seq_cons keeps_nop <|
          keeps_seq_cons (keeps_each fun q hq => keepsReg_wr (hne q hq) _) <| keeps_seq_cons keeps_nop <|
          keeps_seq_cons (keeps_act fun _ => (within_retire ..).keepsReg x) keeps_seq_nil
      exact hkeep.rd s

/-- Settles O26, operation by operation, and port W1 by the kind of its oldest write. -/
theorem decodeSetupsAndResults : Obligations.DecodeSetupsAndResults := by
  unfold Obligations.DecodeSetupsAndResults
  exact ⟨fun s hs c i => ⟨fun hi => does_dec hs c hi, fun hi => does_cur hs c hi, fun hi => does_bsc hs c hi, fun hi => does_tcw hs c hi⟩,
    fun s hs c w rest h => ⟨fun r v hreg hra hr hscales => does_writeReg hs c h hreg hra hr hscales,
      fun k vs hreg hra hscales hlen => does_writeRows hs c h hreg hra hscales hlen⟩⟩

end Sys2Proof.Machine
end

section
/-! How a core faults (R138 to R142), and rows and instructions with a fault (O27). -/

namespace Sys2Proof.Machine

-- One declaration after the other: elaborated side by side they take more memory than the check has.
set_option Elab.async false

/-! ## What a fault leaves of the core's own pages -/

/-- A register of core c outside its TLY_ page. -/
abbrev AtSite (c x : Nat) : Prop := corePage c ≤ x ∧ x < corePage c + 0x8000 ∧ x / 4096 * 4096 ≠ tlyPage c

theorem AtSite.ne_tly {c x : Nat} (h : AtSite c x) {o : Nat} (ho : o < 4096) : x ≠ tlyPage c + o := fun hx => by
  have pages := pages_of_site c
  exact h.2.2 (by rw [hx]; exact page_of_offset (by omega) ho)

theorem AtSite.ne_other {c d x : Nat} (h : AtSite c x) (hd : d ≠ c) {o : Nat} (ho : o < 4096) : x ≠ seqPage d + o := by
  obtain ⟨hlo, hhi, -⟩ := h
  unfold corePage sitePage at hlo hhi
  unfold seqPage sitePage
  omega

theorem keepsReg_withdraw {c f x : Nat} (h : AtSite c x) (hf : f < 256) (i : Nat) : KeepsReg x (withdraw c f i) := by
  refine keeps_seq_cons ((within_setCore ..).keepsReg x) <| keeps_seq_cons ?_ keeps_seq_nil
  refine keeps_look fun s => keeps_act fun hf' => keepsReg_wr ?_ _
  have := h.ne_tly (o := 0x280 + 4 * (f - 224)) (by omega)
  omega

theorem waitObj_lt (s : State) (c : Nat) : waitObj s c < 256 := fld_lt _ 7 0

theorem keepsReg_withdrawWait {c x : Nat} (h : AtSite c x) : KeepsReg x (withdrawWait c) := by
  refine keeps_look fun s => keeps_act fun _ => keeps_seq_cons (keeps_ite (fun _ => keeps_act fun _ => (within_send0 ..).keepsReg x)
    fun _ => keepsReg_withdraw h (waitObj_lt ..) _) <| keeps_seq_cons (keepsReg_wrBit (h.ne_tly (by decide)) _ _) <|
    keeps_seq_cons ((within_setCore ..).keepsReg x) keeps_seq_nil

theorem keepsReg_pauseHerd {c x : Nat} (h : AtSite c x) (herd : Nat) : KeepsReg x (pauseHerd herd c) := by
  refine keeps_look fun s => keeps_each fun d hd => keeps_look fun t => ?_
  have hne : d ≠ c := by simpa using (List.mem_filter.mp hd).2
  split
  · exact keeps_seq_cons (keepsReg_wrFld (h.ne_other hne (by decide)) ..) <|
      keeps_seq_cons (keepsReg_setIst (h.ne_other hne (by decide)) _) keeps_seq_nil
  all_goals first | exact (within_setCore ..).keepsReg x | exact keeps_nop

/-- What a fault does besides its capture and its event: a wait ends, the core's own marks, and the pause of its herd. -/
def faultSpread (c : Nat) (s : State) : Act :=
  seq [withdrawWait c, setCore c (fun x => { x with faulting := true, slipOwed := true }),
    match herdAt s c with
    | some h => seq [setHerd h (fun x => { x with faultBead := x.faultBead <|> some (beadNo s).toNat }), pauseHerd h c, podPause h]
    | none => nop]

theorem keepsReg_faultSpread {c x : Nat} (h : AtSite c x) (s : State) : KeepsReg x (faultSpread c s) := by
  refine keeps_seq_cons (keepsReg_withdrawWait h) <| keeps_seq_cons ((within_setCore ..).keepsReg x) <| keeps_seq_cons ?_ keeps_seq_nil
  split
  · exact keeps_seq_cons ((within_setHerd ..).keepsReg x) <| keeps_seq_cons (keepsReg_pauseHerd h _) <|
      keeps_seq_cons ((within_podPause _).keepsReg x) keeps_seq_nil
  · exact keeps_nop

/-- A part of a core's data that neither the end of a wait nor a pause touches. -/
structure OffWait {β : Type} (g : CoreX → β) : Prop where
  wait (x : CoreX) (b d e : Bool) (ws : List Waiter) :
    g { x with registered := b, released := d, cancelling := e } = g x ∧ g { x with waiters := ws } = g x
  pause (x : CoreX) : g { x with pausePend := true } = g x

theorem offWait_issued : OffWait (·.issued) := ⟨fun _ _ _ _ _ => ⟨rfl, rfl⟩, fun _ => rfl⟩

theorem offWait_faulting : OffWait (·.faulting) := ⟨fun _ _ _ _ _ => ⟨rfl, rfl⟩, fun _ => rfl⟩

section

variable {β : Type} {g : CoreX → β} (hg : OffWait g) (c : Nat)
include hg

theorem keepsX_withdrawWait : Keeps (fun s => g (coreX s c)) (withdrawWait c) := by
  refine keeps_look fun s => keeps_act fun _ => keeps_seq_cons (keeps_ite (fun _ => keeps_act fun _ => ?_) fun _ => ?_) <|
    keeps_seq_cons (Within.keepsCore (within_wrBit ..) g c) <|
    keeps_seq_cons (keeps_setCore g c c fun x => (hg.wait x false false false []).1) keeps_seq_nil
  · exact Within.keepsCore (within_send0 ..) g c
  · exact keeps_seq_cons (keeps_setCore g c c fun x => (hg.wait x false false false _).2) <|
      keeps_seq_cons (Within.keepsCore (within_setShw ..) g c) keeps_seq_nil

theorem keepsX_pauseHerd (h : Nat) : Keeps (fun s => g (coreX s c)) (pauseHerd h c) := by
  refine keeps_look fun s => keeps_each fun d hd => keeps_look fun t => ?_
  split
  · exact keeps_seq_cons (Within.keepsCore (within_setCoreState ..) g c) <|
      keeps_seq_cons (Within.keepsCore (within_setIst ..) g c) keeps_seq_nil
  all_goals first | exact keeps_setCore g c d hg.pause | exact keeps_nop

end

theorem keepsX_endOfFault {β : Type} {g : CoreX → β} (hg : OffWait g) (c h n : Nat) : Keeps (fun s => g (coreX s c))
    (seq [setHerd h (fun x => { x with faultBead := x.faultBead <|> some n }), pauseHerd h c, podPause h]) :=
  keeps_seq_cons (Within.keepsCore (within_setHerd ..) g c) <| keeps_seq_cons (keepsX_pauseHerd hg c h) <|
    keeps_seq_cons (Within.keepsCore (within_podPause h) g c) keeps_seq_nil

theorem faulting_after_faultSpread (c : Nat) (s t : State) : (coreX (after (faultSpread c s) t) c).faulting = true := by
  rw [faultSpread, after_seq_cons, after_seq_cons, after_seq_cons, after_seq_nil]
  have hset (u : State) : (coreX (after (setCore c fun x => { x with faulting := true, slipOwed := true }) u) c).faulting = true := by
    rw [after_setCore, coreX_core_same]
  split
  · exact ((keepsX_endOfFault offWait_faulting ..).eq _).trans (hset _)
  · exact hset _

theorem issued_after_faultSpread (c : Nat) (s t : State) : (coreX (after (faultSpread c s) t) c).issued = (coreX t c).issued := by
  have hkeep : Keeps (fun s => (coreX s c).issued) (faultSpread c s) := by
    refine keeps_seq_cons (keepsX_withdrawWait offWait_issued c) <|
      keeps_seq_cons (keeps_setCore (·.issued) c c) <| keeps_seq_cons ?_ keeps_seq_nil
    split
    · exact keepsX_endOfFault offWait_issued ..
    · exact keeps_nop
  exact hkeep.eq t

/-! ## The capture (R139) -/

/-- What SEQ_FLT_STAT captures. -/
def faultWord (cause part row : Nat) : Word :=
  BitVec.ofNat 32 (0x80000000 + 0x40000000 * b2n (causeResumable cause) + 0x10000000 * part + 65536 * cause + row)

theorem faultWord_fields {cause part row : Nat} (hc : cause < 256) (hp : part < 4) (hr : row < 2048) :
    bit (faultWord cause part row) 31 = true ∧ bit (faultWord cause part row) 30 = causeResumable cause ∧
      fld (faultWord cause part row) 29 28 = part ∧ fld (faultWord cause part row) 23 16 = cause ∧ fld (faultWord cause part row) 10 0 = row := by
  have hb : b2n (causeResumable cause) ≤ 1 := by cases causeResumable cause <;> decide
  have hres : causeResumable cause = decide (b2n (causeResumable cause) = 1) := by cases causeResumable cause <;> rfl
  simp only [bit_eq_decide_fld, faultWord, fld_ofNat _ (show (31 : Nat) < 32 by decide) (Nat.le_refl 31),
    fld_ofNat _ (show (30 : Nat) < 32 by decide) (Nat.le_refl 30), fld_ofNat _ (show (29 : Nat) < 32 by decide) (show 28 ≤ 29 by decide),
    fld_ofNat _ (show (23 : Nat) < 32 by decide) (show 16 ≤ 23 by decide), fld_ofNat _ (show (10 : Nat) < 32 by decide) (Nat.zero_le 10), bits]
  exact ⟨decide_eq_true (by omega), (decide_eq_decide.mpr (by omega)).trans hres.symm, by omega, by omega, by omega⟩

theorem causeClass_ne_fatal (cause : Nat) : causeClass cause ≠ .uncorrFatal := by
  unfold causeClass
  split <;> decide

theorem after_captureFault (s : State) (c row part : Nat) (word : Word) (space : Bool) (addr cause : Nat) :
    after (captureFault c row part word space addr cause) s = after (faultSpread c s) (after (coreEvent c (seqPage c) (causeClass cause))
      (after (wr (seqPage c + 0x18C) (BitVec.ofNat 32 (addr / 4294967296 % 64 + 0x80000000 * b2n space)))
      (after (wr (seqPage c + 0x188) (BitVec.ofNat 32 addr)) (after (wr (seqPage c + 0x184) word)
      (after (wr (seqPage c + 0x180) (faultWord cause part row)) s))))) := by
  rw [captureFault, after_look, after_seq_cons, after_seq_cons, after_seq_cons, after_seq_cons, after_seq_cons, ← faultWord, faultSpread] <;>
    rfl

theorem atSite_seq (c : Nat) {o : Nat} (ho : o < 4096) : AtSite c (seqPage c + o) := by
  have pages := pages_of_site c
  refine ⟨by omega, by omega, ?_⟩
  rw [page_of_offset (by omega) ho]
  omega

/-- A register of the SEQ_ page after a capture, in terms of the four words that it writes and of what its event leaves. -/
theorem rd_after_captureFault (s : State) (c row part : Nat) (word : Word) (space : Bool) (addr cause : Nat) {o : Nat} (ho : 0x60 ≤ o)
    (hlt : o < 4096) : rd (after (captureFault c row part word space addr cause) s) (seqPage c + o) =
      if o = 0x180 then faultWord cause part row else if o = 0x184 then word else if o = 0x188 then BitVec.ofNat 32 addr
      else if o = 0x18C then BitVec.ofNat 32 (addr / 4294967296 % 64 + 0x80000000 * b2n space) else rd s (seqPage c + o) := by
  have hevent (t : State) : KeepsReg (seqPage c + o) (raise (seqPage c) { cls := causeClass cause, herd := herdAt t c }) :=
    keepsReg_raise (by omega) (by omega) fun h => absurd h (causeClass_ne_fatal cause)
  rw [after_captureFault, (keepsReg_faultSpread (atSite_seq c hlt) s).rd, KeepsReg.rd (a := coreEvent c (seqPage c) (causeClass cause)) (keeps_look hevent),
    after_wr, after_wr, after_wr, after_wr]
  by_cases h180 : o = 0x180
  · subst h180
    rw [if_pos rfl, rd_ctl_other _ (by omega), rd_ctl_other _ (by omega), rd_ctl_other _ (by omega), rd_ctl_same]
  by_cases h184 : o = 0x184
  · subst h184
    rw [if_neg (by omega), if_pos rfl, rd_ctl_other _ (by omega), rd_ctl_other _ (by omega), rd_ctl_same]
  by_cases h188 : o = 0x188
  · subst h188
    rw [if_neg (by omega), if_neg (by omega), if_pos rfl, rd_ctl_other _ (by omega), rd_ctl_same]
  by_cases h18c : o = 0x18C
  · subst h18c
    rw [if_neg (by omega), if_neg (by omega), if_neg (by omega), if_pos rfl, rd_ctl_same]
  rw [if_neg h180, if_neg h184, if_neg h188, if_neg h18c, rd_ctl_other _ (by omega), rd_ctl_other _ (by omega), rd_ctl_other _ (by omega),
    rd_ctl_other _ (by omega)]

/-- A register of the core's other pages. -/
theorem rd_after_captureFault_other (s : State) (c row part : Nat) (word : Word) (space : Bool) (addr cause : Nat) {x : Nat} (h : AtSite c x)
    (hx : x / 4096 * 4096 ≠ seqPage c) : rd (after (captureFault c row part word space addr cause) s) x = rd s x := by
  have pages := pages_of_site c
  have hm : x / 4096 * 4096 ∉ [seqPage c] := by simpa using hx
  have hne (o : Nat) (ho : o < 4096) : x ≠ seqPage c + o := ne_of_page hm (by omega) ho (by simp)
  rw [after_captureFault, (keepsReg_faultSpread h s).rd,
    KeepsReg.rd (writesIn_coreEvent (pages := [seqPage c]) (by omega) (by simp) c (causeClass_ne_fatal cause) x hm),
    after_wr, after_wr, after_wr, after_wr, rd_ctl_other _ (hne _ (by decide)), rd_ctl_other _ (hne _ (by decide)),
    rd_ctl_other _ (hne _ (by decide)), rd_ctl_other _ (hne _ (by decide))]

theorem bit_after_captureFault (s : State) (c row part : Nat) (word : Word) (space : Bool) (addr cause : Nat) :
    bit (rd (after (captureFault c row part word space addr cause) s) (seqPage c + 0x20)) (causeClass cause).code = true := by
  rw [after_captureFault, (keepsReg_faultSpread (atSite_seq c (by decide)) s).rd, coreEvent, after_look]
  exact bit_after_raise _ fun h => absurd h (causeClass_ne_fatal cause)

theorem issued_after_captureFault (s : State) (c row part : Nat) (word : Word) (space : Bool) (addr cause : Nat) :
    (coreX (after (captureFault c row part word space addr cause) s) c).issued = (coreX s c).issued := by
  rw [after_captureFault, issued_after_faultSpread, (within_coreEvent ..).coreX, after_wr, after_wr, after_wr, after_wr]
  simp

theorem faultCaptured (s : State) (c : Nat) {row part cause : Nat} (word : Word) (space : Bool) (addr : Nat) (hrow : row < 2048) (hpart : part < 4)
    (hcause : cause < 256) : FaultCaptured (after (captureFault c row part word space addr cause) s) c cause part row := by
  have hw := rd_after_captureFault s c row part word space addr cause (o := 0x180) (by decide) (by decide)
  rw [if_pos rfl] at hw
  obtain ⟨h31, h30, hp, hc, hr⟩ := faultWord_fields hcause hpart hrow
  rw [FaultCaptured, hw]
  refine ⟨h31, h30, hp, hc, hr, ?_, bit_after_captureFault ..⟩
  rw [after_captureFault]
  exact faulting_after_faultSpread ..

/-- FaultCaptured speaks of the SEQ_ page and of the core's mark alone. -/
theorem FaultCaptured.keep {s t : State} {c cause part row : Nat} (h : FaultCaptured s c cause part row)
    (h180 : rd t (seqPage c + 0x180) = rd s (seqPage c + 0x180)) (h20 : rd t (seqPage c + 0x20) = rd s (seqPage c + 0x20))
    (hx : (coreX t c).faulting = (coreX s c).faulting) : FaultCaptured t c cause part row := by
  rw [FaultCaptured, h180, h20, hx]
  exact h

/-! ## Rows and instructions with a fault (R114, R134, R138, R141) -/

theorem after_rowFault {s : State} {c : Nat} (h : (coreX s c).faulting = false) (row part : Nat) (word : Word) (space : Bool) (addr cause : Nat) :
    after (rowFault c row part word space addr cause) s = after (captureFault c row part word space addr cause) s := by
  rw [rowFault, after_look, h, if_neg (by decide)]

theorem after_insnFault {s : State} {c : Nat} (h : (coreX s c).faulting = false) (i : Issued) (space : Bool) (addr cause : Nat) :
    after (insnFault c i space addr cause) s =
      after (captureFault c i.row i.part i.word space addr cause) (after (setIssued c i { i with faulted := true, cause := cause }) s) := by
  rw [insnFault, after_look, h, if_neg (by decide), after_seq_cons, after_seq_cons, after_seq_nil]

theorem faulting_of_canIssue {s : State} {c : Nat} (h : canIssue s c = true) : (coreX s c).faulting = false := by
  simp only [canIssue, Bool.and_eq_true, Bool.not_eq_true'] at h
  exact h.1.1.2

/-- The causes and the parts that a row's own fault can have. -/
theorem rowFault_bounds {s : State} {c : Nat} {taken : Bool} {r : RowFault} (h : rowFaultOf s c taken = some r) : r.1 < 256 ∧ r.2.1 < 4 := by
  have hfirst (k : Nat) (hk : k < 256) (bad : Nat → Bool) (hr : ([0, 1, 2, 3].find? bad).map (fun p => ((k, p, false, 0) : RowFault)) = some r) :
      r.1 < 256 ∧ r.2.1 < 4 := by
    obtain ⟨p, hp, rfl⟩ := Option.map_eq_some_iff.mp hr
    have hmem := List.mem_of_find?_eq_some hp
    refine ⟨hk, ?_⟩
    simp only [List.mem_cons, List.not_mem_nil, or_false] at hmem
    dsimp only
    omega
  rw [rowFaultOf, List.findSome?_eq_some_iff] at h
  obtain ⟨l₁, o, l₂, hl, ho, -⟩ := h
  have hmem : o ∈ l₁ ++ o :: l₂ := by simp
  dsimp only at hl
  rw [← hl] at hmem
  cases ho
  simp only [List.mem_cons, List.not_mem_nil, or_false] at hmem
  rcases hmem with h | h | h | h | h | h
  · exact hfirst 1 (by decide) _ h.symm
  · exact hfirst 2 (by decide) _ h.symm
  · exact hfirst 5 (by decide) _ h.symm
  · obtain ⟨l₁, p, l₂, hp, hr, -⟩ := List.findSome?_eq_some_iff.mp h.symm
    obtain ⟨q, -, rfl⟩ := Option.map_eq_some_iff.mp hr
    have hin : p ∈ l₁ ++ p :: l₂ := by simp
    rw [← hp] at hin
    simp only [List.mem_cons, List.not_mem_nil, or_false] at hin
    exact ⟨show 4 < 256 by decide, by dsimp only; omega⟩
  · exact hfirst 0x13 (by decide) _ h.symm
  · split at h
    · cases h
      decide
    · cases h

/-- A row that the sequencer can issue, and that is next with operation 0, is judged. -/
theorem after_actNext {s : State} {c : Nat} (hc : canIssue s c = true) (hs : sopAt s c = 0) (f : Cell) :
    after (actNext c f) s = after (issueIf c f false (passOn c f)) s := by
  rw [actNext, after_look, after_act, hc, hs, if_pos (by decide)]

theorem after_issueIf_faulty {s : State} {c : Nat} {f : Cell} {r : RowFault} (hf : rowVerdict s c f ≠ .bad) (hh : rowHeld s c = false)
    (hr : rowFaultOf s c false = some r) (go : Act) : after (issueIf c f false go) s = after (faultRow c r) s := by
  rw [issueIf, after_look, if_neg hf, if_neg (by rw [hh]; decide), hr]

theorem after_issueIf_bad {s : State} {c : Nat} {f : Cell} (hf : rowVerdict s c f = .bad) (go : Act) :
    after (issueIf c f false go) s = after (badRow c) s := by
  rw [issueIf, after_look, if_pos hf]

/-- The counters of shapes and of the vector unit that a row's fault moves. -/
def faultCounts (c : Nat) (tile vu : Bool) : Act := seq [act tile (count (tilePage c) 4 1), act vu (count (vuPage c) 4 1)]

theorem within_faultCounts (c : Nat) (tile vu : Bool) : Within [.ctl] (faultCounts c tile vu) :=
  within_seq_cons (within_act (within_count ..)) <| within_seq_cons (within_act (within_count ..)) within_seq_nil

theorem keepsReg_faultCounts (c : Nat) (tile vu : Bool) {o : Nat} (ho : o < 4096) : KeepsReg (seqPage c + o) (faultCounts c tile vu) := by
  have pages := pages_of_site c
  exact keeps_seq_cons (keeps_act fun _ => keepsReg_count (by omega) (by omega) (by omega) 1) <|
    keeps_seq_cons (keeps_act fun _ => keepsReg_count (by omega) (by omega) (by omega) 1) keeps_seq_nil

theorem after_faultRow {s : State} {c : Nat} (h : (coreX s c).faulting = false) (r : RowFault) : ∃ tile vu, after (faultRow c r) s =
    after (faultCounts c tile vu) (after (captureFault c (pcOf s c) r.2.1 (pcPart s c r.2.1) r.2.2.1 (r.2.2.2 % 274877906944).toNat r.1) s) := by
  refine ⟨decide (r.1 = 5) && decide (r.2.1 = 1),
    (decide (r.1 = 5) || decide (r.1 = 1)) && decide (r.2.1 = 2) && decide (0x10 ≤ opOf 2 (pcPart s c 2)), ?_⟩
  rw [faultRow, after_look, after_seq_cons, after_rowFault h]
  rfl

theorem does_faultyRow {s : State} (hs : Ready s) (c : Site) {f : Cell} {r : RowFault} (hf : rowVerdict s c.val f ≠ .bad)
    (hc : canIssue s c.val = true) (hop : sopAt s c.val = 0) (hh : rowHeld s c.val = false) (hr : rowFaultOf s c.val false = some r) :
    Does (.next c f) s [.ctl, .core, .herd, .packets, .out, .dumpRun, .freeCtr] fun t =>
      FaultCaptured t c.val r.1 r.2.1 (pcOf s c.val) ∧ pcOf t c.val = pcOf s c.val ∧
      rd t (seqPage c.val + 0x184) = pcPart s c.val r.2.1 ∧ (coreX t c.val).issued = (coreX s c.val).issued := by
  obtain ⟨hcause, hpart⟩ := rowFault_bounds hr
  obtain ⟨tile, vu, e⟩ := after_faultRow (faulting_of_canIssue hc) r
  replace e := ((after_actNext hc hop f).trans (after_issueIf_faulty hf hh hr _)).trans e
  have hregs (u : State) {o : Nat} (ho : o < 4096) : rd (after (faultCounts c.val tile vu) u) (seqPage c.val + o) = rd u (seqPage c.val + o) :=
    (keepsReg_faultCounts c.val tile vu ho).rd u
  have hx (u : State) : coreX (after (faultCounts c.val tile vu) u) c.val = coreX u c.val := (within_faultCounts ..).coreX u c.val
  have hcap := faultCaptured s c.val (pcPart s c.val r.2.1) r.2.2.1 (r.2.2.2 % 274877906944).toNat (pcOf_lt s c.val) hpart hcause
  refine does_of_run hs.1 rfl ?_ ?_ <;> rw [e]
  · exact (((within_captureFault ..).wider rfl).onlyIn s).trans (((within_faultCounts ..).wider rfl).onlyIn _)
  · refine ⟨hcap.keep (hregs _ (by decide)) (hregs _ (by decide)) (by rw [hx]), ?_, ?_, ?_⟩
    · rw [pcOf, hregs _ (by decide), rd_after_captureFault _ _ _ _ _ _ _ _ (by decide) (by decide)]
      rfl
    · rw [hregs _ (by decide), rd_after_captureFault _ _ _ _ _ _ _ _ (by decide) (by decide)]
      rfl
    · rw [hx, issued_after_captureFault]

theorem does_badRow {s : State} (hs : Ready s) (c : Site) {f : Cell} (hf : rowVerdict s c.val f = .bad)
    (hc : canIssue s c.val = true) (hop : sopAt s c.val = 0) :
    Does (.next c f) s [.ctl, .rodBad, .core, .herd, .packets, .out, .dumpRun, .freeCtr] fun t =>
      FaultCaptured t c.val 0x20 0 (pcOf s c.val) ∧ mGetD t.rodBad (2048 * c.val + pcOf s c.val) false = true ∧
      (coreX t c.val).issued = (coreX s c.val).issued := by
  have hbad : Within [.rodBad] (one (.rodBad (2048 * c.val + pcOf s c.val) true)) := within_one rfl
  have hx := hbad.coreX s c.val
  have e : after (actNext c.val f) s = after (captureFault c.val (pcOf s c.val) 0 (pcPart s c.val 0) false 0 0x20)
      (after (one (.rodBad (2048 * c.val + pcOf s c.val) true)) s) := by
    rw [after_actNext hc hop, after_issueIf_bad hf, badRow, after_look, after_seq_cons, after_seq_cons, after_seq_nil,
      after_rowFault (by rw [hx]; exact faulting_of_canIssue hc)]
  refine does_of_run hs.1 rfl ?_ ?_ <;> rw [e]
  · exact ((hbad.wider rfl).onlyIn s).trans (((within_captureFault ..).wider rfl).onlyIn _)
  · refine ⟨faultCaptured _ _ _ _ _ (pcOf_lt s c.val) (by decide) (by decide), ?_, by rw [issued_after_captureFault, hx]⟩
    rw [(within_captureFault ..).rodBad]
    exact mGetD_mSet_same ..

/-! ## A tile load that meets an uncorrectable word (R141, R157) -/

/-- What a tile instruction shows of the row at which it stops. -/
def rowShown (c : Nat) (i : Issued) : Act :=
  seq [wr (corePage c + 0x104) (BitVec.ofNat 32 (0x80000000 + 0x40000000 * b2n (decide (opOf 1 i.word = 9)) +
      16777216 * fld i.word 26 24 + i.orow)),
    wr (tilePage c + 0x148) (BitVec.ofNat 32 (tRowAddr i.tcA i.addr i.orow)),
    wr (tilePage c + 0x14C) (BitVec.ofNat 32 (tRowAddr i.tcA i.addr i.orow / 4294967296 % 1024))]

theorem within_rowShown (c : Nat) (i : Issued) : Within [.ctl] (rowShown c i) :=
  within_seq_cons (within_wr ..) <| within_seq_cons (within_wr ..) <| within_seq_cons (within_wr ..) within_seq_nil

theorem rd_after_rowShown (s : State) (c : Nat) (i : Issued) :
    rd (after (rowShown c i) s) (tilePage c + 0x148) = BitVec.ofNat 32 (tRowAddr i.tcA i.addr i.orow) := by
  rw [rowShown, after_seq_cons, after_seq_cons, after_seq_cons, after_seq_nil, after_wr, after_wr, after_wr, rd_ctl_other _ (by omega), rd_ctl_same]

theorem after_tileFault {s : State} {c : Nat} (h : (coreX s c).faulting = false) (i : Issued) (cause : Nat) : after (tileFault c i cause) s =
    after (captureFault c i.row i.part i.word (bit i.word 3) i.addr cause)
      (after (setIssued c i { i with faulted := true, cause := cause }) (after (rowShown c i) s)) := by
  have hx : (coreX (after (rowShown c i) s) c).faulting = false := by rw [(within_rowShown c i).coreX, h]
  rw [tileFault, after_look]
  dsimp only
  rw [h, after_seq_cons, after_seq_cons, after_seq_nil]
  exact after_insnFault hx ..

/-- A row of a tile load from the core store that meets an uncorrectable word. -/
theorem after_loadRow_bad {s : State} {c : Nat} {i : Issued} {found : List Cell} (h3 : bit i.word 3 = false)
    (hbad : stBad s c (wordsOf (tRowAddr i.tcA i.addr i.orow) (tRowBytes i.tcA i.orow)) found = true) : after (loadRow c i found) s =
      after (seq [stCount c (wordsOf (tRowAddr i.tcA i.addr i.orow) (tRowBytes i.tcA i.orow)).length,
        stFoundAll c (wordsOf (tRowAddr i.tcA i.addr i.orow) (tRowBytes i.tcA i.orow)) found, tileFault c i 0x21]) s := by
  rw [loadRow, after_look]
  dsimp only
  rw [h3, if_neg (by decide), hbad, if_pos rfl]

theorem part_of_isTileOp {i : Issued} (h : isTileOp i = true) : i.part = 1 := by
  simp only [isTileOp, Bool.and_eq_true, decide_eq_true_eq] at h
  exact h.1

theorem does_badTileRow {s : State} (hs : Ready s) (c : Site) {i : Issued}
    (hi : (coreX s c.val).issued.find? (fun i => isTileOp i && i.started && !i.faulted) = some i) (hop : opOf 1 i.word = 8)
    (h3 : bit i.word 3 = false) (hrow : i.row < 2048) (hx : (coreX s c.val).faulting = false) {found : List Cell}
    (hbad : stBad s c.val (wordsOf (tRowAddr i.tcA i.addr i.orow) (tRowBytes i.tcA i.orow)) found = true) :
    Does (.tileRow c found) s [.ctl, .storeBad, .core, .herd, .packets, .out, .dumpRun, .freeCtr] fun t =>
      FaultCaptured t c.val 0x21 1 i.row ∧ rd t (seqPage c.val + 0x184) = i.word ∧
      rd t (tilePage c.val + 0x148) = BitVec.ofNat 32 (tRowAddr i.tcA i.addr i.orow) ∧
      (coreX t c.val).issued = swapInsn (coreX s c.val) i { i with faulted := true, cause := 0x21 } := by
  have pages := pages_of_site c.val
  have hpart : i.part = 1 := part_of_isTileOp (by
    have h := List.find?_some hi
    rw [Bool.and_eq_true, Bool.and_eq_true] at h
    exact h.1.1)
  have e : after (actTileRow c.val found) s = _ :=
    (after_actTileRow hi found).trans ((if_pos hop).trans (after_loadRow_bad h3 hbad))
  rw [after_seq_cons, after_seq_cons, after_seq_cons, after_seq_nil] at e
  have hreads : OnlyIn [.ctl, .storeBad, .dumpRun, .freeCtr] s (after (stFoundAll c.val (wordsOf (tRowAddr i.tcA i.addr i.orow)
      (tRowBytes i.tcA i.orow)) found) (after (stCount c.val (wordsOf (tRowAddr i.tcA i.addr i.orow) (tRowBytes i.tcA i.orow)).length) s)) :=
    (((within_stCount ..).wider rfl).onlyIn s).trans (((within_stFoundAll ..).wider rfl).onlyIn _)
  generalize after (stFoundAll c.val _ _) _ = u at e hreads
  have hu : coreX u c.val = coreX s c.val := coreX_of_core (hreads .core rfl) c.val
  have hv : coreX (after (rowShown c.val i) u) c.val = coreX s c.val := ((within_rowShown ..).coreX u c.val).trans hu
  rw [after_tileFault (by rw [hu, hx])] at e
  have htile : AtSite c.val (tilePage c.val + 0x148) := ⟨by omega, by omega, by rw [page_of_offset (by omega) (by decide)]; omega⟩
  refine does_of_run hs.1 rfl ?_ ?_ <;> rw [e]
  · exact ((((hreads.wider rfl).trans (((within_rowShown ..).wider rfl).onlyIn _)).trans (((within_setIssued ..).wider rfl).onlyIn _)).trans
      (((within_captureFault ..).wider rfl).onlyIn _))
  · have hcap := faultCaptured (after (setIssued c.val i { i with faulted := true, cause := 0x21 }) (after (rowShown c.val i) u)) c.val i.word
      (bit i.word 3) i.addr hrow (part := i.part) (by omega) (show 0x21 < 256 by decide)
    refine ⟨by rw [hpart] at hcap ⊢; exact hcap, ?_, ?_, ?_⟩
    · rw [rd_after_captureFault _ _ _ _ _ _ _ _ (by decide) (by decide)]
      rfl
    · rw [rd_after_captureFault_other _ _ _ _ _ _ _ _ htile (by rw [page_of_offset (by omega) (by decide)]; omega),
        ((within_setIssued ..).keepsReg _).rd, rd_after_rowShown]
    · rw [issued_after_captureFault, (coreIs_setIssued ..).1, hv]

/-- Settles O27: the capture's words, then what the fault does elsewhere, which leaves them and the instructions in flight. -/
theorem faultsCapture : Obligations.FaultsCapture := by
  unfold Obligations.FaultsCapture
  exact ⟨fun s hs c f r hf hc hop hh hr => does_faultyRow hs c hf hc hop hh hr, fun s hs c f hf hc hop => does_badRow hs c hf hc hop,
    fun s hs c i hi hop h3 hrow hx found hbad => does_badTileRow hs c hi hop h3 hrow hx hbad⟩

end Sys2Proof.Machine
end

section
/-! Blocks of device memory: what is stored, what a read decodes, what waits in the merge buffer (R391 to R401). -/

namespace Sys2Proof.Machine

-- One declaration after the other: elaborated side by side they take more memory than the check has.
set_option Elab.async false

/-! ## Blocks and ports -/

theorem blkPort_blkOf {n : Nat} (hn : n < 24) (l : Nat) : blkPort (blkOf n l) = n := by
  unfold blkPort blkOf
  omega

theorem blkLocal_blkOf {n : Nat} (hn : n < 24) (l : Nat) : blkLocal (blkOf n l) = l := by
  unfold blkLocal blkOf
  omega

theorem blkOf_port_local (b : Nat) : blkOf (blkPort b) (blkLocal b) = b := by
  unfold blkPort blkLocal blkOf
  omega

/-! ## Registers that counters, events and the merge buffer leave -/

/-- A register above a page's header: no counter and no event writes it. -/
abbrev Above (x : Nat) : Prop := 0x100000 ≤ x ∧ 0x100 ≤ x % 4096

theorem Above.count {x p k : Nat} (h : Above x) (hp : p % 4096 = 0) (hk : k < 8) (n : Nat) : KeepsReg x (count p k n) := by
  obtain ⟨-, hx⟩ := h
  exact keepsReg_count (by omega) (by omega) (by omega) n

theorem Above.raise {x p : Nat} (h : Above x) (hp : p % 4096 = 0) (c : Capture) : KeepsReg x (raise p c) := by
  obtain ⟨h1, hx⟩ := h
  exact keepsReg_raise (by omega) (by omega) fun _ => by omega

theorem mpPage_mod (n : Nat) : mpPage n % 4096 = 0 := by
  unfold mpPage
  omega

theorem Above.corrEvent {x : Nat} (h : Above x) (b nsym : Nat) (src : Src) (herd : Option Nat) : KeepsReg x (corrEvent b nsym src herd) :=
  keeps_seq_cons (h.count (mpPage_mod _) (by decide) 1) <| keeps_seq_cons (h.raise (mpPage_mod _) _) keeps_seq_nil

theorem Above.uncorrEvent {x : Nat} (h : Above x) (b code : Nat) (src : Src) (herd : Option Nat) :
    KeepsReg x (uncorrEvent b code src herd) :=
  keeps_look fun _ => keeps_seq_cons (h.count (mpPage_mod _) (by decide) 1) <| keeps_seq_cons (h.raise (mpPage_mod _) _) keeps_seq_nil

/-- The registers that say how port n reads its blocks: tcorr, and the remap entries with their number. -/
def PortReg (n x : Nat) : Prop := ∃ o, x = mpPage n + o ∧ (o = 0x100 ∨ o = 0x118 ∨ (0x200 ≤ o ∧ o < 0x300))

theorem portReg_above {n x : Nat} (h : PortReg n x) : Above x := by
  obtain ⟨o, rfl, ho⟩ := h
  have := mpPage_mod n
  unfold mpPage at *
  refine ⟨by omega, by omega⟩

theorem portReg_ne_fill {n m x : Nat} (h : PortReg n x) : x ≠ mpPage m + 0x110 := by
  obtain ⟨o, rfl, ho⟩ := h
  unfold mpPage
  omega

theorem portReg_tcorr (n : Nat) : PortReg n (mpPage n + 0x100) := ⟨0x100, rfl, .inl rfl⟩

theorem portReg_number (n : Nat) : PortReg n (mpPage n + 0x118) := ⟨0x118, rfl, .inr (.inl rfl)⟩

theorem portReg_remap (n : Nat) {e : Nat} (he : e < 64) : PortReg n (remapReg n e) :=
  ⟨0x200 + 4 * e, by rw [remapReg, Nat.add_assoc], .inr (.inr ⟨by omega, by omega⟩)⟩

/-! ## What the reading of a block depends on -/

section

variable {s t : State} {n : Nat} (h : ∀ x, PortReg n x → rd t x = rd s x)
include h

theorem remapOf_of_regs (l : Nat) : remapOf t n l = remapOf s n l := by
  rw [remapOf, remapOf, h _ (portReg_number n)]
  refine if_congr Iff.rfl rfl (List.find?_congr fun e he => ?_)
  rw [h _ (portReg_remap n (List.mem_range.mp he))]

theorem tcorrOf_of_regs : tcorrOf t n = tcorrOf s n := by rw [tcorrOf, tcorrOf, h _ (portReg_tcorr n)]

end

/-- How block b is read stands: its port's settings, and where the reserved region lies. -/
structure SameReading (s t : State) (b : Nat) : Prop where
  regs : ∀ x, PortReg (blkPort b) x → rd t x = rd s x
  straps : t.straps = s.straps

theorem SameReading.refl (s : State) (b : Nat) : SameReading s s b := ⟨fun _ _ => rfl, rfl⟩

theorem SameReading.trans {s t u : State} {b : Nat} (h : SameReading s t b) (g : SameReading t u b) : SameReading s u b :=
  ⟨fun x hx => (g.regs x hx).trans (h.regs x hx), g.straps.trans h.straps⟩

theorem SameReading.of_within {b : Nat} {ps : List Part} {a : Act} (h : Within ps a) (hr : ∀ x, PortReg (blkPort b) x → KeepsReg x a)
    (s : State) (hp : ps.contains .straps = false := by rfl) : SameReading s (after a s) b :=
  ⟨fun x hx => (hr x hx).rd s, h.straps s hp⟩

theorem spareBlk_of_straps {s t : State} (h : t.straps = s.straps) (n e : Nat) : spareBlk t n e = spareBlk s n e := by
  rw [spareBlk, spareBlk, replFrame, replFrame, rsvBase, rsvBase, inlineOn, inlineOn, h]

section

variable {s t : State} {b : Nat} (h : SameReading s t b)
include h

theorem SameReading.heldAt : heldAt t b = heldAt s b := by
  rw [Machine.heldAt, Machine.heldAt, remapOf_of_regs h.regs]
  split
  · exact spareBlk_of_straps h.straps ..
  · rfl

theorem SameReading.poisoned : poisoned t b = poisoned s b := by
  rw [Machine.poisoned, Machine.poisoned, remapOf_of_regs h.regs]
  cases he : remapOf s (blkPort b) (blkLocal b) with
  | none => rfl
  | some e =>
    have hlt : e < 64 := by
      rw [remapOf] at he
      split at he
      · cases he
      · exact List.mem_range.mp (List.mem_of_find?_eq_some he)
    exact congrArg (bit · 30) (h.regs _ (portReg_remap _ hlt))

theorem SameReading.tcorr : tcorrOf t (blkPort b) = tcorrOf s (blkPort b) := tcorrOf_of_regs h.regs

theorem SameReading.inlineOn : inlineOn t = inlineOn s := by rw [Machine.inlineOn, Machine.inlineOn, h.straps]

end

theorem rawData_of_mem {s t : State} (h : t.mem = s.mem) (q : Nat) : rawData t q = rawData s q := by
  simp only [rawData, memBytes, memByte, h]

theorem rawDelta_of_chk {s t : State} (h : t.chk = s.chk) (q : Nat) : rawDelta t q = rawDelta s q := by
  simp only [rawDelta, h]

section

variable {s t : State} {b : Nat} (h : SameReading s t b) (hchk : t.chk = s.chk)
include h hchk

theorem SameReading.verdict : verdictAt t (tcorrOf t (blkPort b)) (Machine.heldAt t b) =
    verdictAt s (tcorrOf s (blkPort b)) (Machine.heldAt s b) := by
  rw [h.tcorr, h.heldAt, verdictAt, verdictAt, h.inlineOn, rawDelta_of_chk hchk]

theorem SameReading.decodeBlk (hmem : t.mem = s.mem) : decodeBlk t b = decodeBlk s b := by
  rw [Machine.decodeBlk, Machine.decodeBlk, h.poisoned, h.verdict hchk, h.heldAt, rawData_of_mem hmem]

theorem SameReading.readBlk (hmem : t.mem = s.mem) (hbuf : t.mergeBuf = s.mergeBuf) : readBlk t b = readBlk s b := by
  rw [Machine.readBlk, Machine.readBlk, h.decodeBlk hchk hmem, mergeOf, mergeOf, hbuf]

end

/-! ## Bytes put one after the other -/

/-- A run of cells written one by one, each by its own update. -/
theorem read_after_eachFrom {β : Type} {f : State → Nat → β} {u : Nat → β → Upd}
    (hu : ∀ s k v j, f ((u k v).apply s) j = if j = k then v else f s j) (a : Nat) (d : β) (bs : List β) (m : Nat) (s : State) (j : Nat) :
    f (after (each (bs.zipIdx m) fun p => one (u (a + p.2) p.1)) s) j =
      if a + m ≤ j ∧ j < a + m + bs.length then bs.getD (j - (a + m)) d else f s j := by
  induction bs generalizing m s with
  | nil => rw [if_neg (by simp)]; rfl
  | cons b bs ih =>
    rw [List.zipIdx_cons, after_each_cons, ih, after_one, hu, List.length_cons]
    by_cases h0 : j = a + m
    · rw [if_neg (by omega), if_pos h0, if_pos (by omega), h0, Nat.sub_self]
      rfl
    · rw [if_neg h0]
      by_cases hin : a + m ≤ j ∧ j < a + m + (bs.length + 1)
      · rw [if_pos hin, if_pos (by omega), show j - (a + m) = j - (a + (m + 1)) + 1 by omega, List.getD_cons_succ]
      · rw [if_neg hin, if_neg (by omega)]

/-- Byte x of device memory after a run of bytes is written. -/
theorem memByte_after_memPut (s : State) (a : Nat) (bs : List Byte) (x : Nat) :
    memByte (after (memPut a bs) s) x = if a ≤ x ∧ x < a + bs.length then bs.getD (x - a) 0 else memByte s x :=
  read_after_eachFrom (f := memByte) (u := .mem) (fun s k v j => by
    split
    case isTrue h => rw [h, memByte_mem_same]
    case isFalse h => exact memByte_mem_other s h v) a 0 bs 0 s x

/-- Deviation x of a check symbol after a run of them is written. -/
theorem chk_after_each (s : State) (a : Nat) (bs : List Byte) (x : Nat) :
    mGetD (after (each bs.zipIdx fun p => one (.chk (a + p.2) p.1)) s).chk x 0 =
      if a ≤ x ∧ x < a + bs.length then bs.getD (x - a) 0 else mGetD s.chk x 0 :=
  read_after_eachFrom (f := fun s x => mGetD s.chk x 0) (u := .chk) (fun s k v j => by
    split
    case isTrue h => rw [h]; exact mGetD_mSet_same ..
    case isFalse h => exact mGetD_mSet_other _ h ..) a 0 bs 0 s x

/-- A list is what it gives at each of its places. -/
theorem map_range_getD {α : Type} {n : Nat} {xs : List α} (h : xs.length = n) (d : α) : (List.range n).map (fun i => xs.getD i d) = xs := by
  refine List.ext_getElem (by rw [List.length_map, List.length_range, h]) fun i h1 h2 => ?_
  rw [List.getElem_map, List.getElem_range, List.getD_eq_getElem _ _ h2]

@[simp] theorem length_rawData (s : State) (q : Nat) : (rawData s q).length = 64 := by rw [rawData, memBytes, List.length_map, List.length_range]

@[simp] theorem length_rawDelta (s : State) (q : Nat) : (rawDelta s q).length = 4 := by rw [rawDelta, List.length_map, List.length_range]

section

variable (s : State) (q : Nat) {data delta : List Byte}

theorem memByte_after_putRaw (hdata : data.length = 64) (x : Nat) :
    memByte (after (putRaw q data delta) s) x = if x / 64 = q then data.getD (x - 64 * q) 0 else memByte s x := by
  have hchk : Within [.chk] (each ((delta.take 4).zipIdx) fun p => one (.chk (4 * q + p.2) p.1)) := within_each fun _ => within_one rfl
  rw [putRaw, after_seq_cons, after_seq_cons, after_seq_nil, memByte, hchk.memory, ← memByte, memByte_after_memPut,
    List.take_of_length_le (by omega), hdata]
  exact if_congr (by omega) rfl rfl

theorem rawData_after_putRaw (hdata : data.length = 64) : rawData (after (putRaw q data delta) s) q = data := by
  rw [rawData, memBytes]
  refine (List.map_congr_left fun i hi => ?_).trans (map_range_getD hdata 0)
  rw [memByte_after_putRaw s q hdata, if_pos (by have := List.mem_range.mp hi; omega), Nat.add_sub_cancel_left]

theorem rawDelta_after_putRaw (hdelta : delta.length = 4) : rawDelta (after (putRaw q data delta) s) q = delta := by
  rw [rawDelta]
  refine (List.map_congr_left fun i hi => ?_).trans (map_range_getD hdelta 0)
  have := List.mem_range.mp hi
  rw [putRaw, after_seq_cons, after_seq_cons, after_seq_nil, chk_after_each, List.take_of_length_le (by omega), if_pos (by omega),
    Nat.add_sub_cancel_left]

end

/-- Fresh check symbols decode clean (R391). -/
theorem verdictAt_fresh {s : State} {q : Nat} (h : rawDelta s q = [0, 0, 0, 0]) (tcorr : Nat) : verdictAt s tcorr q = .clean := by
  rw [verdictAt, h]
  split <;> rfl

theorem length_fixData (data : List Byte) (es : List (Nat × Byte)) : (fixData data es).length = data.length := by
  rw [fixData, List.length_map, List.length_zipIdx]

theorem decodeBlk_clean {s : State} {b : Nat} (hp : poisoned s b = false) (hv : verdictAt s (tcorrOf s (blkPort b)) (heldAt s b) = .clean) :
    decodeBlk s b = some (rawData s (heldAt s b)) := by
  rw [decodeBlk, hp, hv]
  rfl

theorem decodeBlk_fixed {s : State} {b : Nat} {es : List (Nat × Byte)} (hp : poisoned s b = false)
    (hv : verdictAt s (tcorrOf s (blkPort b)) (heldAt s b) = .fixed es) : decodeBlk s b = some (fixData (rawData s (heldAt s b)) es) := by
  rw [decodeBlk, hp, hv]
  rfl

theorem decodeBlk_eq_none {s : State} {b : Nat} (h : decodeBlk s b = none) :
    poisoned s b = true ∨ poisoned s b = false ∧ verdictAt s (tcorrOf s (blkPort b)) (heldAt s b) = .bad := by
  rw [decodeBlk] at h
  cases hp : poisoned s b
  · rw [hp, if_neg (by decide)] at h
    cases hv : verdictAt s (tcorrOf s (blkPort b)) (heldAt s b) with
    | bad => exact .inr ⟨rfl, rfl⟩
    | clean => rw [hv] at h; cases h
    | fixed es => rw [hv] at h; cases h
  · exact .inl rfl

theorem readBlk_unmerged {s : State} {b : Nat} (h : mergeOf s b = none) : readBlk s b = decodeBlk s b := by rw [readBlk, h]

end Sys2Proof.Machine
end

section
/-! Reads and writes at a memory port (O38). -/

namespace Sys2Proof.Machine

-- One declaration after the other: elaborated side by side they take more memory than the check has.
set_option Elab.async false

/-! ## A whole block is stored (R398, R407) -/

/-- Which entry serves a block depends on the entries' valid bits and blocks, not on their poison. -/
theorem remapOf_of_fields {s t : State} {n : Nat} (h118 : fld (rd t (mpPage n + 0x118)) 14 8 = fld (rd s (mpPage n + 0x118)) 14 8)
    (h : ∀ e < 64, bit (rd t (remapReg n e)) 31 = bit (rd s (remapReg n e)) 31 ∧ fld (rd t (remapReg n e)) 29 0 = fld (rd s (remapReg n e)) 29 0)
    (l : Nat) : remapOf t n l = remapOf s n l := by
  rw [remapOf, remapOf, h118]
  refine if_congr Iff.rfl rfl (List.find?_congr fun e he => ?_)
  obtain ⟨h31, hl⟩ := h e (List.mem_range.mp he)
  rw [h31, hl]

theorem remapOf_lt {s : State} {n l e : Nat} (h : remapOf s n l = some e) : e < 64 := by
  rw [remapOf] at h
  split at h
  · cases h
  · exact List.mem_range.mp (List.mem_of_find?_eq_some h)

theorem remapReg_ne {n e k : Nat} (h : e ≠ k) : remapReg n e ≠ remapReg n k := by
  unfold remapReg
  omega

theorem remapReg_ne_number (n m : Nat) {e : Nat} (he : e < 64) : mpPage m + 0x118 ≠ remapReg n e := by
  unfold remapReg mpPage
  omega

/-- The poison of the entry that serves block b is cleared. -/
def clearPoison (b : Nat) (s : State) : Act :=
  match remapOf s (blkPort b) (blkLocal b) with
  | some e => wrBit (remapReg (blkPort b) e) 30 false
  | none => nop

theorem within_clearPoison (b : Nat) (s : State) : Within [.ctl] (clearPoison b s) := by
  rw [clearPoison]
  split
  · exact within_wrBit ..
  · exact within_nop

theorem remapOf_after_clearPoison (s : State) (b l : Nat) : remapOf (after (clearPoison b s) s) (blkPort b) l = remapOf s (blkPort b) l := by
  rw [clearPoison]
  cases he : remapOf s (blkPort b) (blkLocal b) with
  | none => rfl
  | some e =>
    refine remapOf_of_fields ?_ (fun k _ => ?_) l
    · rw [after_wrBit, rd_ctl_other _ (remapReg_ne_number _ _ (remapOf_lt he))]
    · by_cases hk : k = e
      · rw [hk, after_wrBit, rd_ctl_same, bit_setBit_other _ (by decide) (by decide), fld_setBit_other _ (by decide) (by decide)]
        exact ⟨rfl, rfl⟩
      · rw [after_wrBit, rd_ctl_other _ (remapReg_ne hk)]
        exact ⟨rfl, rfl⟩

theorem poisoned_after_clearPoison (s : State) (b : Nat) : poisoned (after (clearPoison b s) s) b = false := by
  rw [poisoned, remapOf_after_clearPoison]
  cases he : remapOf s (blkPort b) (blkLocal b) with
  | none => rfl
  | some e => simp only [clearPoison, he, after_wrBit, rd_ctl_same, bit_setBit_same _ (show 30 < 32 by decide)]

theorem heldAt_of_remapOf {s t : State} {b : Nat} (h : remapOf t (blkPort b) (blkLocal b) = remapOf s (blkPort b) (blkLocal b))
    (hs : t.straps = s.straps) : heldAt t b = heldAt s b := by
  rw [heldAt, heldAt, h]
  split
  · exact spareBlk_of_straps hs ..
  · rfl

theorem after_storeBlk (s : State) (b : Nat) (data : List Byte) : after (storeBlk b data) s =
    after (count (mpPage (blkPort b)) 1 1) (after (clearPoison b s) (after (putRaw (heldAt s b) data [0, 0, 0, 0]) s)) := by
  rw [storeBlk, after_look, after_seq_cons, after_seq_cons, after_seq_cons, after_seq_nil]
  rfl

/-- What the poison's clearing does depends on the registers alone. -/
theorem clearPoison_of_ctl {s t : State} (h : t.ctl = s.ctl) (b : Nat) : clearPoison b t = clearPoison b s := by
  rw [clearPoison, clearPoison, remapOf_of_regs (s := s) fun x _ => by rw [rd, rd, h]]

/-- The data and the symbols of a block once it is written whole. -/
structure Stored (s t : State) (b : Nat) (data : List Byte) : Prop where
  held : heldAt t b = heldAt s b
  clean : verdictAt t (tcorrOf t (blkPort b)) (heldAt t b) = .clean
  decoded : decodeBlk t b = some data
  others : ∀ a, a / 64 ≠ heldAt s b → memByte t a = memByte s a

theorem stored_after_storeBlk (s : State) (b : Nat) {data : List Byte} (hdata : data.length = 64) :
    Stored s (after (storeBlk b data) s) b data := by
  have hcount (u : State) : SameReading u (after (count (mpPage (blkPort b)) 1 1) u) b :=
    .of_within (within_count ..) (fun x hx => (portReg_above hx).count (mpPage_mod _) (by decide) 1) u
  rw [after_storeBlk, ← clearPoison_of_ctl ((within_putRaw (heldAt s b) data [0, 0, 0, 0]).ctl s) b]
  have hraw := rawData_after_putRaw s (heldAt s b) (delta := [0, 0, 0, 0]) hdata
  have hdelta := rawDelta_after_putRaw s (heldAt s b) (data := data) (delta := [0, 0, 0, 0]) rfl
  have hmem := memByte_after_putRaw s (heldAt s b) (delta := [0, 0, 0, 0]) hdata
  have hput : heldAt (after (putRaw (heldAt s b) data [0, 0, 0, 0]) s) b = heldAt s b :=
    heldAt_of_remapOf (remapOf_of_regs (fun x _ => ((within_putRaw ..).keepsReg x).rd s) _) ((within_putRaw ..).straps s)
  generalize after (putRaw (heldAt s b) data [0, 0, 0, 0]) s = u at hraw hdelta hmem hput
  have hclear := within_clearPoison b u
  have hheld : heldAt (after (clearPoison b u) u) b = heldAt s b :=
    (heldAt_of_remapOf (remapOf_after_clearPoison u b _) (hclear.straps u)).trans hput
  have hpois := poisoned_after_clearPoison u b
  have hraw' : rawData (after (clearPoison b u) u) (heldAt s b) = data := (rawData_of_mem (hclear.memory u) _).trans hraw
  have hclean : verdictAt (after (clearPoison b u) u) (tcorrOf (after (clearPoison b u) u) (blkPort b))
      (heldAt (after (clearPoison b u) u) b) = .clean := by
    rw [hheld]
    exact verdictAt_fresh ((rawDelta_of_chk (hclear.chk u) _).trans hdelta) _
  have hmem' (a : Nat) : memByte (after (clearPoison b u) u) a = memByte u a := by rw [memByte, hclear.memory, ← memByte]
  generalize after (clearPoison b u) u = v at hheld hpois hraw' hclean hmem'
  have hdecode : decodeBlk v b = some data := by rw [decodeBlk_clean hpois hclean, hheld, hraw']
  refine ⟨(hcount v).heldAt.trans hheld, ?_, ?_, fun a ha => ?_⟩
  · rw [(hcount v).verdict ((within_count ..).chk v), hclean]
  · rw [(hcount v).decodeBlk ((within_count ..).chk v) ((within_count ..).memory v), hdecode]
  · rw [memByte, (within_count ..).memory, ← memByte, hmem', hmem, if_neg ha]

/-! ## The merge buffer (R399, R400) -/

/-- Whether a merge entry is block b's. -/
def mergesInto (b : Nat) (m : MergeEntry) : Bool := decide (m.port = blkPort b) && decide (m.lblock = blkLocal b)

theorem mergeOf_eq (s : State) (b : Nat) : mergeOf s b = s.mergeBuf.find? (mergesInto b) := rfl

theorem entry_of_mergeOf {s : State} {b : Nat} {m : MergeEntry} (h : mergeOf s b = some m) : m.port = blkPort b ∧ m.lblock = blkLocal b := by
  have := List.find?_some h
  simpa using this

theorem mergeBuf_after_dropMerge (s : State) (m : MergeEntry) :
    (after (dropMerge m) s).mergeBuf = s.mergeBuf.filter (fun x => decide (x ≠ m)) := by
  rw [dropMerge, after_look, after_seq_cons, after_seq_cons, after_seq_nil, (within_wrFld ..).mergeBuf]
  rfl

theorem sameReading_dropMerge (s : State) (m : MergeEntry) (b : Nat) : SameReading s (after (dropMerge m) s) b :=
  .of_within (within_dropMerge m) (fun _ hx => keeps_look fun _ => keeps_seq_cons (keeps_one fun _ => rfl) <|
    keeps_seq_cons (keepsReg_wrFld (portReg_ne_fill hx) ..) keeps_seq_nil) s

/-- A block with one entry at most has none once that has gone. -/
theorem mergeOf_after_dropMerge {s : State} {b : Nat} {m : MergeEntry} (h : mergeOf s b = some m)
    (hone : (s.mergeBuf.filter (mergesInto b)).length ≤ 1) : mergeOf (after (dropMerge m) s) b = none := by
  rw [mergeOf_eq, mergeBuf_after_dropMerge, List.find?_eq_none]
  intro x hx hown
  obtain ⟨hmem, hne⟩ := List.mem_filter.mp hx
  have hxin : x ∈ s.mergeBuf.filter (mergesInto b) := List.mem_filter.mpr ⟨hmem, hown⟩
  have hmin : m ∈ s.mergeBuf.filter (mergesInto b) := List.mem_filter.mpr ⟨List.mem_of_find?_eq_some h, List.find?_some h⟩
  rcases hl : s.mergeBuf.filter (mergesInto b) with _ | ⟨y, _ | ⟨z, zs⟩⟩
  · rw [hl] at hxin
    cases hxin
  · rw [hl, List.mem_singleton] at hxin hmin
    exact of_decide_eq_true hne (hxin.trans hmin.symm)
  · rw [hl, List.length_cons, List.length_cons] at hone
    omega

/-- A whole-block write's way through the buffer: an entry for the block goes. -/
theorem dropFor_drops {s : State} {b : Nat} (hone : (s.mergeBuf.filter (mergesInto b)).length ≤ 1) :
    mergeOf (after (dropFor b) s) b = none ∧ SameReading s (after (dropFor b) s) b := by
  cases hm : mergeOf s b with
  | none =>
    have e : after (dropFor b) s = s := by rw [dropFor, after_look, hm]; rfl
    rw [e]
    exact ⟨hm, .refl s b⟩
  | some m =>
    have e : after (dropFor b) s = after (dropMerge m) s := by rw [dropFor, after_look, hm]
    rw [e]
    exact ⟨mergeOf_after_dropMerge hm hone, sameReading_dropMerge s m b⟩

theorem mergeOf_of_buf {s t : State} (h : t.mergeBuf = s.mergeBuf) (b : Nat) : mergeOf t b = mergeOf s b := by rw [mergeOf, mergeOf, h]

/-- A write of the whole block that finds no entry. -/
theorem readBlk_after_storeBlk {s : State} {b : Nat} (h : mergeOf s b = none) {data : List Byte} (hdata : data.length = 64) :
    mergeOf (after (storeBlk b data) s) b = none ∧ readBlk (after (storeBlk b data) s) b = some data := by
  have hm : mergeOf (after (storeBlk b data) s) b = none := (mergeOf_of_buf ((within_storeBlk ..).mergeBuf s) b).trans h
  exact ⟨hm, (readBlk_unmerged hm).trans (stored_after_storeBlk s b hdata).decoded⟩

/-! ## A block that stays as it is stored -/

section

variable {s t u : State} {b : Nat} {data : List Byte}

theorem Stored.later (h : Stored s t b data) (g : SameReading t u b) (hchk : u.chk = t.chk) (hmem : u.mem = t.mem) : Stored s u b data where
  held := g.heldAt.trans h.held
  clean := (g.verdict hchk).trans h.clean
  decoded := (g.decodeBlk hchk hmem).trans h.decoded
  others a ha := by rw [memByte, hmem, ← memByte, h.others a ha]

theorem Stored.earlier (h : Stored t u b data) (g : SameReading s t b) (hmem : t.mem = s.mem) : Stored s u b data where
  held := h.held.trans g.heldAt
  clean := h.clean
  decoded := h.decoded
  others a ha := by rw [h.others a (by rwa [g.heldAt]), memByte, hmem, ← memByte]

/-- A block without poison, written with fresh check symbols. -/
theorem stored_after_putRaw (hp : poisoned s b = false) (hdata : data.length = 64) :
    Stored s (after (putRaw (heldAt s b) data [0, 0, 0, 0]) s) b data := by
  have hsame : SameReading s (after (putRaw (heldAt s b) data [0, 0, 0, 0]) s) b :=
    .of_within (within_putRaw ..) (fun x _ => (within_putRaw ..).keepsReg x) s
  have hclean : verdictAt (after (putRaw (heldAt s b) data [0, 0, 0, 0]) s) (tcorrOf (after (putRaw (heldAt s b) data [0, 0, 0, 0]) s) (blkPort b))
      (heldAt (after (putRaw (heldAt s b) data [0, 0, 0, 0]) s) b) = .clean := by
    rw [hsame.heldAt]
    exact verdictAt_fresh (rawDelta_after_putRaw s _ rfl) _
  refine ⟨hsame.heldAt, hclean, ?_, fun a ha => ?_⟩
  · rw [decodeBlk_clean (hsame.poisoned.trans hp) hclean, hsame.heldAt, rawData_after_putRaw s _ hdata]
  · rw [memByte_after_putRaw s _ hdata, if_neg ha]

end

theorem sameReading_count (s : State) (b : Nat) {p k : Nat} (hp : p % 4096 = 0) (hk : k < 8) (n : Nat) : SameReading s (after (count p k n) s) b :=
  .of_within (within_count ..) (fun _ hx => (portReg_above hx).count hp hk n) s

theorem sameReading_corrEvent (s : State) (b c nsym : Nat) (src : Src) (herd : Option Nat) :
    SameReading s (after (corrEvent c nsym src herd) s) b :=
  .of_within (within_corrEvent ..) (fun _ hx => (portReg_above hx).corrEvent ..) s

/-! ## A read's decode (R391 to R394) -/

section

variable {s : State} {b : Nat} (src : Src) (herd : Option Nat)

theorem after_readDecode_clean (h : CleanBlk s b) (wb verify : Bool) (noise : List (Nat × Byte)) :
    after (readDecode b src herd wb verify noise) s = s := by
  obtain ⟨hv, hp⟩ := h
  rw [readDecode, after_look]
  dsimp only
  rw [hp, if_neg (by decide), hv]
  rfl

theorem after_readDecode_bad (h : decodeBlk s b = none) (wb verify : Bool) (noise : List (Nat × Byte)) :
    after (readDecode b src herd wb verify noise) s = after (uncorrEvent b 2 src herd) s := by
  rw [readDecode, after_look]
  dsimp only
  rcases decodeBlk_eq_none h with hp | ⟨hp, hv⟩
  · rw [hp, if_pos rfl]
  · rw [hp, if_neg (by decide), hv]

/-- A corrected block is written back. -/
theorem after_readDecode_fixed {es : List (Nat × Byte)} (hp : poisoned s b = false)
    (hv : verdictAt s (tcorrOf s (blkPort b)) (heldAt s b) = .fixed es) : after (readDecode b src herd true false []) s =
      after (count (mpPage (blkPort b)) 1 1) (after (putRaw (heldAt s b) (fixData (rawData s (heldAt s b)) es) [0, 0, 0, 0])
        (after (corrEvent b es.length src herd) s)) := by
  rw [readDecode, after_look]
  dsimp only
  rw [hp, if_neg (by decide), hv, after_seq_cons, after_seq_cons, after_seq_cons, after_seq_nil, after_act, if_neg (by decide), after_act,
    if_pos rfl, after_seq_cons, after_seq_cons, after_seq_cons, after_seq_nil, stuckErrors, List.filter_nil, List.map_nil, showErrors,
    after_each_nil]

end

/-- An event's bit stands through a count, which latches bit 7 alone. -/
theorem keeps_istBit_count (p k n : Nat) {i : Nat} (hi : i ≠ 7) (hk : k < 8) : Keeps (fun s => bit (rd s (p + 0x20)) i) (count p k n) := by
  have hset : Keeps (fun s => bit (rd s (p + 0x20)) i) (setIst p 7) := ⟨fun s => by
    rw [setIst, after_wrBit, rd_ctl_same, bit_setBit_other _ (by decide) hi]⟩
  have hreg (a : Nat) (ha : p + 0x20 ≠ a) (v : Word) : Keeps (fun s => bit (rd s (p + 0x20)) i) (wr a v) :=
    ⟨fun s => congrArg (bit · i) ((keepsReg_wr ha v).rd s)⟩
  refine keeps_look fun s => keeps_ite (fun _ => keeps_nop) fun _ => ?_
  exact keeps_seq_cons (hreg _ (by omega) _) <| keeps_seq_cons (hreg _ (by omega) _) <| keeps_seq_cons (keeps_act fun _ => hset) keeps_seq_nil

/-! ## Reads at a port -/

theorem after_portRead {s : State} {b : Nat} (h : mergeOf s b = none) (src : Src) (herd : Option Nat) (noise : List (Nat × Byte)) :
    after (portRead b src herd noise) s = after (readDecode b src herd (bit (rd s (mpPage (blkPort b) + 0x100)) 3)
      (bit (rd s (mpPage (blkPort b) + 0x100)) 4) noise) (after (count (mpPage (blkPort b)) 0 1) s) := by
  rw [portRead, after_look]
  dsimp only
  rw [readBy, after_look, h, after_seq_cons, after_seq_cons, after_seq_nil]

/-- What a read gives to who asked. -/
def answered (n l : Nat) (s : State) : State := { s with out := s.out ++ [.block n l (readBlk s (blkOf n l))] }

theorem showNoise_nil (b : Nat) (s : State) : after (showNoise b []) s = s := by
  rw [showNoise, after_look]
  exact after_each_nil _ s

theorem after_actMpRead {s : State} {n l : Nat} (h : portFilled s n = true) (hm : mergeOf s (blkOf n l) = none) (src : Nat) (herd : Option Nat) :
    after (actMpRead n l src herd []) s = after (readDecode (blkOf n l) (srcOf src) herd (bit (rd s (mpPage (blkPort (blkOf n l)) + 0x100)) 3)
      (bit (rd s (mpPage (blkPort (blkOf n l)) + 0x100)) 4) []) (after (count (mpPage (blkPort (blkOf n l))) 0 1) (answered n l s)) := by
  rw [actMpRead, after_look]
  dsimp only
  rw [h, after_act, if_pos rfl, after_seq_cons, after_seq_cons, after_seq_nil, showNoise_nil, after_look, after_seq_cons, after_seq_cons,
    after_seq_nil]
  exact after_portRead (s := answered n l s) hm ..

theorem sameReading_answered (n l : Nat) (s : State) (b : Nat) : SameReading s (answered n l s) b := ⟨fun _ _ => rfl, rfl⟩

theorem onlyIn_answered (n l : Nat) (s : State) : OnlyIn [.out] s (answered n l s) := onlyIn_apply (.out _) s

section

variable {s : State} (hs : Ready s) (n : PortNo) {l : Nat} (src : Fin 8) (herd : Option HerdNo)
  (hm : mergeOf s (blkOf n.val l) = none) (hf : portFilled s n.val = true)
include hs hm hf

theorem does_cleanRead (hc : CleanBlk s (blkOf n.val l)) : Does (.mpRead n l src herd []) s [.ctl, .out] fun t =>
    RegsOnly [mpPage n.val] s t ∧ t.out = s.out ++ [.block n.val l (readBlk s (blkOf n.val l))] := by
  have hp := mpPage_mod n.val
  have hport := blkPort_blkOf n.isLt l
  have hsame : SameReading s (after (count (mpPage n.val) 0 1) (answered n.val l s)) (blkOf n.val l) :=
    (sameReading_answered ..).trans (sameReading_count _ _ hp (by decide) 1)
  have hclean : CleanBlk (after (count (mpPage n.val) 0 1) (answered n.val l s)) (blkOf n.val l) :=
    ⟨(hsame.verdict ((within_count ..).chk _)).trans hc.1, hsame.poisoned.trans hc.2⟩
  have e := after_actMpRead hf hm src.val (herd.map (·.val))
  rw [hport, after_readDecode_clean _ _ hclean] at e
  refine does_of_run hs.1 rfl ?_ ?_ <;> rw [e]
  · exact ((onlyIn_answered n.val l s).wider rfl).trans (((within_count ..).wider rfl).onlyIn _)
  · refine ⟨?_, (within_count ..).out _⟩
    exact RegsOnly.trans (t := answered n.val l s) (fun _ _ => rfl) (WritesIn.regsOnly (writesIn_count hp (by decide) (by simp) 1) _)

theorem does_fixingRead {es : List (Nat × Byte)} (hp : poisoned s (blkOf n.val l) = false)
    (hv : verdictAt s (tcorrOf s n.val) (heldAt s (blkOf n.val l)) = .fixed es) (hwb : bit (rd s (mpPage n.val + 0x100)) 3 = true)
    (hver : bit (rd s (mpPage n.val + 0x100)) 4 = false) : let b := blkOf n.val l
    Does (.mpRead n l src herd []) s [.ctl, .mem, .chk, .dumpRun, .freeCtr, .out] fun t =>
      bit (rd t (mpPage n.val + 0x20)) 0 = true ∧ t.out = s.out ++ [.block n.val l (readBlk s b)] ∧ readBlk t b = readBlk s b ∧
      verdictAt t (tcorrOf t n.val) (heldAt t b) = .clean ∧ ∀ a, a / 64 ≠ heldAt s b → memByte t a = memByte s a := by
  intro b
  have hpage := mpPage_mod n.val
  have hport : blkPort b = n.val := blkPort_blkOf n.isLt l
  have hsame : SameReading s (after (count (mpPage n.val) 0 1) (answered n.val l s)) b :=
    (sameReading_answered ..).trans (sameReading_count _ _ hpage (by decide) 1)
  have e := after_actMpRead hf hm src.val (herd.map (·.val))
  rw [hport, hwb, hver] at e
  have hin : OnlyIn [.ctl, .out] s (after (count (mpPage n.val) 0 1) (answered n.val l s)) :=
    ((onlyIn_answered n.val l s).wider rfl).trans (((within_count ..).wider rfl).onlyIn _)
  have hout : (after (count (mpPage n.val) 0 1) (answered n.val l s)).out = s.out ++ [.block n.val l (readBlk s b)] := (within_count ..).out _
  generalize after (count (mpPage n.val) 0 1) (answered n.val l s) = u at e hsame hin hout
  have hmem : u.mem = s.mem := hin .mem rfl
  have hchk : u.chk = s.chk := hin .chk rfl
  rw [after_readDecode_fixed _ _ (hsame.poisoned.trans hp) ((hsame.verdict hchk).trans (by rw [hport]; exact hv)), hsame.heldAt,
    rawData_of_mem hmem, hport] at e
  have hcorr := sameReading_corrEvent u b b es.length (srcOf src.val) (herd.map (·.val))
  have hist : bit (rd (after (corrEvent b es.length (srcOf src.val) (herd.map (·.val))) u) (mpPage n.val + 0x20)) 0 = true := by
    rw [corrEvent, after_seq_cons, after_seq_cons, after_seq_nil, hport]
    exact bit_after_raise _ nofun
  have hcin : OnlyIn [.ctl, .dumpRun, .freeCtr] u (after (corrEvent b es.length (srcOf src.val) (herd.map (·.val))) u) := (within_corrEvent ..).onlyIn u
  generalize after (corrEvent b es.length (srcOf src.val) (herd.map (·.val))) u = v at e hcorr hist hcin
  have hall := hsame.trans hcorr
  have hlen : (fixData (rawData s (heldAt s b)) es).length = 64 := by rw [length_fixData, length_rawData]
  have hput : Stored s (after (putRaw (heldAt s b) (fixData (rawData s (heldAt s b)) es) [0, 0, 0, 0]) v) b (fixData (rawData s (heldAt s b)) es) := by
    have h := stored_after_putRaw (hall.poisoned.trans hp) hlen
    rw [hall.heldAt] at h
    exact h.earlier hall (Eq.trans (hcin .mem rfl) hmem)
  have hend := hput.later (sameReading_count _ b hpage (show 1 < 8 by decide) 1) ((within_count ..).chk _) ((within_count ..).memory _)
  have honly : OnlyIn [.ctl, .mem, .chk, .dumpRun, .freeCtr, .out] s (after (count (mpPage n.val) 1 1)
      (after (putRaw (heldAt s b) (fixData (rawData s (heldAt s b)) es) [0, 0, 0, 0]) v)) :=
    (((hin.wider rfl).trans (hcin.wider rfl)).trans (((within_putRaw ..).wider rfl).onlyIn v)).trans (((within_count ..).wider rfl).onlyIn _)
  refine does_of_run hs.1 rfl ?_ ?_ <;> rw [e]
  · exact honly
  · have hmerge : ∀ t, t = after (count (mpPage n.val) 1 1) (after (putRaw (heldAt s b) (fixData (rawData s (heldAt s b)) es) [0, 0, 0, 0]) v) →
        mergeOf t b = none := fun t ht => (mergeOf_of_buf (ht ▸ honly .mergeBuf rfl) b).trans hm
    refine ⟨?_, ?_, ?_, by have h := hend.clean; rwa [hport] at h, hend.others⟩
    · rw [(keeps_istBit_count (mpPage n.val) 1 1 (by decide) (by decide)).eq, ((within_putRaw ..).keepsReg _).rd, hist]
    · rw [(within_count ..).out, (within_putRaw ..).out, hcin .out rfl, hout]
    · rw [readBlk_unmerged (hmerge _ rfl), readBlk_unmerged hm, hend.decoded, decodeBlk_fixed hp (by rw [hport]; exact hv)]

theorem does_failingRead (hd : decodeBlk s (blkOf n.val l) = none) : Does (.mpRead n l src herd []) s [.ctl, .dumpRun, .freeCtr, .out] fun t =>
    bit (rd t (mpPage n.val + 0x20)) (uncorrClass s (blkOf n.val l)).code = true ∧ t.out = s.out ++ [.block n.val l none] := by
  have hpage := mpPage_mod n.val
  have hport := blkPort_blkOf n.isLt l
  have hsame : SameReading s (after (count (mpPage n.val) 0 1) (answered n.val l s)) (blkOf n.val l) :=
    (sameReading_answered ..).trans (sameReading_count _ _ hpage (by decide) 1)
  have e := after_actMpRead hf hm src.val (herd.map (·.val))
  rw [hport] at e
  have hin : OnlyIn [.ctl, .out] s (after (count (mpPage n.val) 0 1) (answered n.val l s)) :=
    ((onlyIn_answered n.val l s).wider rfl).trans (((within_count ..).wider rfl).onlyIn _)
  have hout : (after (count (mpPage n.val) 0 1) (answered n.val l s)).out = s.out ++ [.block n.val l none] := by
    refine ((within_count ..).out _).trans ?_
    rw [answered, readBlk_unmerged hm, hd]
  generalize after (count (mpPage n.val) 0 1) (answered n.val l s) = u at e hsame hin hout
  rw [after_readDecode_bad _ _ ((hsame.decodeBlk (hin .chk rfl) (hin .mem rfl)).trans hd)] at e
  refine does_of_run hs.1 rfl ?_ ?_ <;> rw [e]
  · exact (hin.wider rfl).trans (((within_uncorrEvent ..).wider rfl).onlyIn u)
  · refine ⟨?_, ((within_uncorrEvent ..).out u).trans hout⟩
    have hclass : uncorrClass u (blkOf n.val l) = uncorrClass s (blkOf n.val l) := by
      rw [uncorrClass, uncorrClass, rsvBase, rsvBase, hsame.inlineOn]
    rw [uncorrEvent, after_look, after_seq_cons, after_seq_cons, after_seq_nil, hport, ← hclass]
    generalize uncorrClass u (blkOf n.val l) = k
    have hne : mpPage n.val + 0x20 ≠ 0x4100 := by unfold mpPage; omega
    exact bit_after_raise _ fun _ => hne

end

/-! ## Writes at a port (R398 to R401) -/

theorem after_actMpWrite {s : State} {n : Nat} (h : portFilled s n = true) (l : Nat) {data : List Byte} (hd : data.length = 64) :
    after (actMpWrite n l data) s = after (storeBlk (blkOf n l) data) (after (dropFor (blkOf n l)) s) := by
  rw [actMpWrite, after_look, after_act, h, hd, if_pos (by decide), portWrite, after_seq_cons, after_seq_cons, after_seq_nil]

theorem after_actNarrowWrite {s : State} {n : Nat} (h : portFilled s n = true) (l herd : Nat) {data : List (Option Byte)} (hd : data.length = 64) :
    after (actNarrowWrite n l herd data) s = after (portNarrow (blkOf n l) herd data) s := by
  rw [actNarrowWrite, after_look, after_act, h, hd, if_pos (by decide)]

theorem mergeInto_whole (m : MergeEntry) (h : m.bits = []) (old : List Byte) : mergeInto m old = mergeBytes m.bytes old := by
  rw [mergeInto, h]
  exact (List.map_congr_left fun _ _ => rfl).trans (List.zipIdx_map_fst 0 _)

theorem length_mergeInto {m : MergeEntry} {old : List Byte} (hm : m.bytes.length = 64) (ho : old.length = 64) : (mergeInto m old).length = 64 := by
  rw [mergeInto, List.length_map, List.length_zipIdx, mergeBytes, List.length_zipWith, hm, ho]
  rfl

theorem length_decodeBlk {s : State} {b : Nat} {old : List Byte} (h : decodeBlk s b = some old) : old.length = 64 := by
  rw [decodeBlk] at h
  split at h
  · cases h
  · split at h <;> cases h
    · exact length_rawData ..
    · rw [length_fixData, length_rawData]

theorem readBlk_merged {s : State} {b : Nat} {m : MergeEntry} (h : mergeOf s b = some m) : readBlk s b = (decodeBlk s b).map (mergeInto m) := by
  rw [readBlk, h]

/-- A port's count of the entries it holds. -/
theorem sameReading_fill (s : State) (b n hi lo v : Nat) : SameReading s (after (wrFld (mpPage n + 0x110) hi lo v) s) b :=
  .of_within (within_wrFld ..) (fun _ hx => keepsReg_wrFld (portReg_ne_fill hx) ..) s

/-- A narrow write takes a free entry. -/
theorem after_portNarrow_new {s : State} {b : Nat} (hm : mergeOf s b = none)
    (hfree : (s.mergeBuf.filter (fun x => decide (x.port = blkPort b))).length < 32) {data : List (Option Byte)}
    (hpart : data.all Option.isSome = false) (herd : Nat) : after (portNarrow b herd data) s =
      after (wrFld (mpPage (blkPort b) + 0x110) 21 16 (min ((s.mergeBuf.filter (fun x => decide (x.port = blkPort b))).length + 1) 32))
        { s with mergeBuf := s.mergeBuf ++ [⟨blkPort b, blkLocal b, data, herd, []⟩] } := by
  rw [portNarrow, portMerge, after_look]
  dsimp only
  rw [hm]
  dsimp only
  rw [hpart, if_neg (by decide), if_neg (by omega), after_seq_cons, after_seq_cons, after_seq_cons, after_seq_nil]
  rfl

theorem after_portNarrow_whole {s : State} {b : Nat} (hm : mergeOf s b = none) {data : List (Option Byte)}
    (hall : data.all Option.isSome = true) (herd : Nat) : after (portNarrow b herd data) s = after (storeBlk b (data.map (·.getD 0))) s := by
  rw [portNarrow, portMerge, after_look]
  dsimp only
  rw [hm]
  dsimp only
  rw [hall, if_pos rfl]

/-- What an entry holds once a narrow write of whole bytes has joined it. -/
abbrev joined (m : MergeEntry) (data : List (Option Byte)) (herd : Nat) : MergeEntry :=
  { m with bytes := List.zipWith (fun n o => n.orElse (fun _ => o)) data m.bytes, herd := herd,
           bits := m.bits.filter (fun p => (data.getD p.1 none).isNone) }

/-- A narrow write joins the block's entry, which goes on waiting for its other bytes. -/
theorem after_portNarrow_joins {s : State} {b : Nat} {m : MergeEntry} (hm : mergeOf s b = some m) {data : List (Option Byte)} {herd : Nat}
    (hpart : (joined m data herd).bytes.all Option.isSome = false) : after (portNarrow b herd data) s =
      { s with mergeBuf := s.mergeBuf.map (fun x => if x = m then joined m data herd else x) } := by
  rw [portNarrow, portMerge, after_look]
  dsimp only
  rw [hm]
  refine (congrArg (after · s) (if_neg ?_)).trans ?_
  · exact Bool.not_eq_true _ ▸ hpart
  · rfl

/-- A narrow write completes the block's entry, which is written whole. -/
theorem after_portNarrow_fills {s : State} {b : Nat} {m : MergeEntry} (hm : mergeOf s b = some m) {data : List (Option Byte)} {herd : Nat}
    (hall : (joined m data herd).bytes.all Option.isSome = true) : after (portNarrow b herd data) s =
      after (storeBlk b ((joined m data herd).bytes.map (·.getD 0))) (after (dropMerge m) s) := by
  rw [portNarrow, portMerge, after_look]
  dsimp only
  rw [hm]
  refine (congrArg (after · s) (if_pos hall)).trans ?_
  rw [after_seq_cons, after_seq_cons, after_seq_nil]
  rfl

theorem mergeOf_joined {s : State} {b : Nat} {m m2 : MergeEntry} (hm : mergeOf s b = some m) (h2 : m2.port = m.port ∧ m2.lblock = m.lblock) :
    mergeOf { s with mergeBuf := s.mergeBuf.map (fun x => if x = m then m2 else x) } b = some m2 := by
  have hown : mergesInto b m = true := List.find?_some hm
  have hcomp : (mergesInto b ∘ fun x => if x = m then m2 else x) = mergesInto b := by
    funext x
    dsimp only [Function.comp]
    split
    case isTrue h => rw [h, mergesInto, mergesInto, h2.1, h2.2]
    case isFalse => rfl
  rw [mergeOf_eq]
  dsimp only
  rw [List.find?_map, hcomp, ← mergeOf_eq, hm]
  simp

/-- The merge of an entry's block: the block's old bytes, the entry over them, written back. -/
theorem after_retireMerge {s : State} {b : Nat} {m : MergeEntry} {old : List Byte} (hm : mergeOf s b = some m) (hd : decodeBlk s b = some old) :
    ∃ a, (a = nop ∨ ∃ es, a = corrEvent b es .merge (some m.herd)) ∧ after (retireMerge m) s = after (storeBlk b (mergeInto m old))
      (after a (after (count (mpPage m.port) 0 1) (after (count (mpPage m.port) 2 1) (after (dropMerge m) s)))) := by
  obtain ⟨hp, hl⟩ := entry_of_mergeOf hm
  have hb : blkOf m.port m.lblock = b := by rw [hp, hl, blkOf_port_local]
  rw [retireMerge, after_look]
  dsimp only
  rw [hb, hd]
  dsimp only
  rw [after_seq_cons, after_seq_cons, after_seq_cons, after_seq_cons, after_seq_nil, after_seq_cons, after_seq_cons, after_seq_nil]
  refine ⟨_, ?_, rfl⟩
  split
  · exact .inr ⟨_, rfl⟩
  · exact .inl rfl

/-- A command whose act changes nothing. -/
theorem exec_waits {s : State} (hs : Ready s) {cmd : Instr} {a : Act} (hc : exec cmd s = run a s) (h : after a s = s) : exec cmd s = .next s := by
  rw [hc, run_powered hs.1, h]

section

variable {s : State} (hs : Ready s) (n : PortNo) {l : Nat}
include hs

/-- Before the fill nothing is read. -/
theorem readWaits (hf : portFilled s n.val = false) (src : Fin 8) (herd : Option HerdNo) : exec (.mpRead n l src herd []) s = .next s := by
  refine exec_waits hs rfl ?_
  rw [actMpRead, after_look]
  dsimp only
  rw [hf]
  rfl

/-- Before the fill a write waits. -/
theorem writesWait (hf : portFilled s n.val = false) : (∀ data, exec (.mpWrite n l data) s = .next s) ∧
    ∀ h data, exec (.narrowWrite n l h data) s = .next s := by
  refine ⟨fun data => exec_waits hs rfl ?_, fun h data => exec_waits hs rfl ?_⟩
  · rw [actMpWrite, after_look, hf, Bool.and_false]
    rfl
  · rw [actNarrowWrite, after_look, hf, Bool.and_false]
    rfl

theorem does_blockWrite (hf : portFilled s n.val = true) (hone : (s.mergeBuf.filter (mergesInto (blkOf n.val l))).length ≤ 1) {data : List Byte}
    (hd : data.length = 64) : let b := blkOf n.val l
    Does (.mpWrite n l data) s [.ctl, .mem, .chk, .mergeBuf] fun t =>
      readBlk t b = some data ∧ mergeOf t b = none ∧ ∀ a, a / 64 ≠ heldAt s b → memByte t a = memByte s a := by
  intro b
  have e := after_actMpWrite hf l hd
  obtain ⟨hnone, hsame⟩ := dropFor_drops (b := b) hone
  obtain ⟨hm, hread⟩ := readBlk_after_storeBlk hnone hd
  refine does_of_run hs.1 rfl ?_ ?_ <;> rw [e]
  · exact (((within_dropFor ..).wider rfl).onlyIn s).trans (((within_storeBlk ..).wider rfl).onlyIn _)
  · exact ⟨hread, hm, ((stored_after_storeBlk _ b hd).earlier hsame ((within_dropFor b).memory s)).others⟩

theorem does_narrowWrite_new (hf : portFilled s n.val = true) (herd : HerdNo) {data : List (Option Byte)} (hd : data.length = 64)
    (hm : mergeOf s (blkOf n.val l) = none)
    (hfree : (s.mergeBuf.filter (fun x => decide (x.port = blkPort (blkOf n.val l)))).length < 32) : let b := blkOf n.val l
    (data.all Option.isSome = false → Does (.narrowWrite n l herd data) s [.ctl, .mergeBuf] fun t =>
      t.mergeBuf = s.mergeBuf ++ [⟨blkPort b, blkLocal b, data, herd.val, []⟩] ∧ readBlk t b = (decodeBlk s b).map (mergeBytes data)) ∧
    (data.all Option.isSome = true → Does (.narrowWrite n l herd data) s [.ctl, .mem, .chk] fun t =>
      readBlk t b = some (data.map (·.getD 0))) := by
  intro b
  have e := after_actNarrowWrite hf l herd.val hd
  refine ⟨fun hpart => ?_, fun hall => ?_⟩
  · rw [after_portNarrow_new hm hfree hpart] at e
    generalize hs' : ({ s with mergeBuf := s.mergeBuf ++ [⟨blkPort b, blkLocal b, data, herd.val, []⟩] } : State) = s' at e
    have hin : OnlyIn [.mergeBuf] s s' := hs' ▸ onlyIn_apply (.mergeBuf _) s
    have hsame : SameReading s s' b := ⟨fun x _ => by rw [rd, rd, show s'.ctl = s.ctl from hin .ctl rfl], hin .straps rfl⟩
    have hbuf : s'.mergeBuf = s.mergeBuf ++ [⟨blkPort b, blkLocal b, data, herd.val, []⟩] := hs' ▸ rfl
    have hfill := sameReading_fill s' b (blkPort b) 21 16
      (min ((s.mergeBuf.filter (fun x => decide (x.port = blkPort b))).length + 1) 32)
    refine does_of_run hs.1 rfl ?_ ?_ <;> rw [e]
    · exact (hin.wider rfl).trans (((within_wrFld ..).wider rfl).onlyIn _)
    · have hbuf' := ((within_wrFld (mpPage (blkPort b) + 0x110) 21 16 (min ((s.mergeBuf.filter (fun x => decide (x.port = blkPort b))).length + 1) 32)).mergeBuf
        s').trans hbuf
      refine ⟨hbuf', ?_⟩
      have hmine : mergeOf (after (wrFld (mpPage (blkPort b) + 0x110) 21 16
          (min ((s.mergeBuf.filter (fun x => decide (x.port = blkPort b))).length + 1) 32)) s') b = some ⟨blkPort b, blkLocal b, data, herd.val, []⟩ := by
        rw [mergeOf_eq, hbuf', List.find?_append, ← mergeOf_eq, hm]
        simp [mergesInto]
      rw [readBlk_merged hmine, (hsame.trans hfill).decodeBlk ((within_wrFld ..).chk s' |>.trans (hin .chk rfl))
        ((within_wrFld ..).memory s' |>.trans (hin .mem rfl))]
      exact congrArg ((decodeBlk s b).map ·) (funext fun old => mergeInto_whole _ rfl old)
  · rw [after_portNarrow_whole hm hall] at e
    refine does_of_run hs.1 rfl ?_ ?_ <;> rw [e]
    · exact (within_storeBlk ..).onlyIn s
    · exact (readBlk_after_storeBlk hm (by rw [List.length_map, hd])).2

theorem does_narrowWrite_join (hf : portFilled s n.val = true) (hone : (s.mergeBuf.filter (mergesInto (blkOf n.val l))).length ≤ 1) (herd : HerdNo)
    {data : List (Option Byte)} (hd : data.length = 64) {m : MergeEntry} (hm : mergeOf s (blkOf n.val l) = some m) (hlen : m.bytes.length = 64) :
    let b := blkOf n.val l
    ((joined m data herd.val).bytes.all Option.isSome = false → Does (.narrowWrite n l herd data) s [.mergeBuf] fun t =>
      readBlk t b = (decodeBlk s b).map (mergeInto (joined m data herd.val))) ∧
    ((joined m data herd.val).bytes.all Option.isSome = true → Does (.narrowWrite n l herd data) s [.ctl, .mem, .chk, .mergeBuf] fun t =>
      readBlk t b = some ((joined m data herd.val).bytes.map (·.getD 0)) ∧ mergeOf t b = none) := by
  intro b
  have e := after_actNarrowWrite hf l herd.val hd
  refine ⟨fun hpart => ?_, fun hall => ?_⟩
  · rw [after_portNarrow_joins hm hpart] at e
    refine does_of_run hs.1 rfl ?_ ?_ <;> rw [e]
    · exact onlyIn_apply (.mergeBuf _) s
    · rw [readBlk_merged (mergeOf_joined (m2 := joined m data herd.val) hm ⟨rfl, rfl⟩)]
      rfl
  · rw [after_portNarrow_fills hm hall] at e
    have hnew : ((joined m data herd.val).bytes.map (·.getD 0)).length = 64 := by simp [hd, hlen]
    obtain ⟨hnone, hread⟩ := readBlk_after_storeBlk (mergeOf_after_dropMerge hm hone) hnew
    refine does_of_run hs.1 rfl ?_ ?_ <;> rw [e]
    · exact (((within_dropMerge m).wider rfl).onlyIn s).trans (((within_storeBlk ..).wider rfl).onlyIn _)
    · exact ⟨hread, hnone⟩

theorem does_mergeHoldExpire (hone : (s.mergeBuf.filter (mergesInto (blkOf n.val l))).length ≤ 1) {m : MergeEntry} {old : List Byte}
    (hfirst : s.mergeBuf.find? (fun m => decide (m.port = n.val)) = some m) (hm : mergeOf s (blkOf n.val l) = some m)
    (hold : decodeBlk s (blkOf n.val l) = some old) (hlen : m.bytes.length = 64) : let b := blkOf n.val l
    Does (.mergeHoldExpire n) s [.ctl, .mem, .chk, .mergeBuf, .dumpRun, .freeCtr] fun t =>
      mergeOf t b = none ∧ readBlk t b = some (mergeInto m old) := by
  intro b
  obtain ⟨a, ha, e⟩ := after_retireMerge hm hold
  have e' : after (actMergeHoldExpire n.val) s = _ := (by rw [actMergeHoldExpire, after_look, hfirst]; rfl : _ = after (retireMerge m) s).trans e
  have hwithin : Within [.ctl, .mem, .chk, .mergeBuf, .dumpRun, .freeCtr] (actMergeHoldExpire n.val) := within_actMergeHoldExpire n.val
  refine does_of_run hs.1 rfl (hwithin.onlyIn s) ?_
  rw [e']
  refine readBlk_after_storeBlk ?_ (length_mergeInto hlen (length_decodeBlk hold))
  have hbuf : (after a (after (count (mpPage m.port) 0 1) (after (count (mpPage m.port) 2 1) (after (dropMerge m) s)))).mergeBuf =
      (after (dropMerge m) s).mergeBuf := by
    rcases ha with rfl | ⟨es, rfl⟩
    · rw [after_nop, (within_count ..).mergeBuf, (within_count ..).mergeBuf]
    · rw [(within_corrEvent ..).mergeBuf, (within_count ..).mergeBuf, (within_count ..).mergeBuf]
  rw [mergeOf_of_buf hbuf]
  exact mergeOf_after_dropMerge hm hone

end

/-- Settles O38: a read decodes the block as it lies; a write leaves the block with fresh check symbols, or waits in its merge entry. -/
theorem portAccesses : Obligations.PortAccesses := by
  unfold Obligations.PortAccesses
  refine ⟨?_, ?_⟩
  · rintro s hs n l b src herd rfl hm
    exact ⟨fun hf => readWaits hs n hf src herd, fun hf => ⟨fun hc => does_cleanRead hs n src herd hm hf hc,
      fun es hp hv hwb hver => does_fixingRead hs n src herd hm hf hp hv hwb hver, fun hd => does_failingRead hs n src herd hm hf hd⟩⟩
  · rintro s hs n l b rfl hone
    refine ⟨fun hf => writesWait hs n hf, fun data hf hd => does_blockWrite hs n hf hone hd,
      fun herd data hf hd hm hfree => does_narrowWrite_new hs n hf herd hd hm hfree, ?_,
      fun m old hfirst hm hold hlen => does_mergeHoldExpire hs n hone hfirst hm hold hlen⟩
    rintro herd data m new hf hd hm hlen rfl
    exact does_narrowWrite_join hs n hf hone herd hd hm hlen

end Sys2Proof.Machine
end

section
/-! Fill, scrub and remapping of a memory port (the first half of O39). -/

namespace Sys2Proof.Machine

-- One declaration after the other: elaborated side by side they take more memory than the check has.
set_option Elab.async false

/-! ## The fill (R402) -/

theorem memByte_memKeep (s : State) (p : Nat → Bool) (a : Nat) : memByte ((Upd.memKeep p).apply s) a = if p a then memByte s a else 0 := by
  rw [memByte, apply_memKeep, mGetD, mGet_mKeep]
  split <;> rfl

theorem after_actFillDone {s : State} {n : Nat} (h8 : fld (rd s (mpPage n + 0x10C)) 15 8 = 0xFF) (h0 : fld (rd s (mpPage n + 0x10C)) 1 0 = 2) :
    after (actFillDone n) s = after (look fun s => act (allFilled s) allFree) (after (setIst (mpPage n) 10) (after (wrFld (mpPage n + 0x10C) 1 0 1)
      (after (one (.chkKeep (fun k => decide (k / 4096 % 24 ≠ n)))) (after (one (.memKeep (fun k => decide (k / 65536 % 24 ≠ n)))) s)))) := by
  rw [actFillDone, after_look]
  dsimp only
  rw [if_pos ⟨h8, h0⟩, after_seq_cons, after_seq_cons, after_seq_cons, after_seq_cons, after_seq_cons, after_seq_nil]

/-- The free count and its level lie in the first MIG_ page. -/
theorem keepsReg_allFree {x : Nat} (h : x / 4096 * 4096 ≠ migPage 0) : KeepsReg x (look fun s => act (allFilled s) allFree) := by
  have hpage : migPage 0 % 4096 = 0 := by decide
  have hne (o : Nat) (ho : o < 4096) : x ≠ migPage 0 + o := fun hx => h (by rw [hx]; exact page_of_offset hpage ho)
  exact keeps_look fun _ => keeps_act fun _ => keeps_look fun _ => keeps_seq_cons (keepsReg_wr (hne 0x108 (by decide)) _) <|
    keeps_seq_cons (keeps_look fun _ => keepsReg_setLevel (hne 0x20 (by decide)) (hne 0x2C (by decide)) _ _) keeps_seq_nil

theorem does_fillDone {s : State} (hs : Ready s) (n : PortNo) (h8 : fld (rd s (mpPage n.val + 0x10C)) 15 8 = 0xFF)
    (h0 : fld (rd s (mpPage n.val + 0x10C)) 1 0 = 2) : Does (.fillDone n) s [.ctl, .mem, .chk] fun t =>
      fld (rd t (mpPage n.val + 0x10C)) 1 0 = 1 ∧ bit (rd t (mpPage n.val + 0x20)) 10 = true ∧
      ∀ a, memByte t a = if a / 65536 % 24 = n.val then 0 else memByte s a := by
  have e := after_actFillDone h8 h0
  have hmig (o : Nat) (ho : o < 4096) : (mpPage n.val + o) / 4096 * 4096 ≠ migPage 0 := by
    rw [page_of_offset (mpPage_mod _) ho]
    unfold mpPage migPage
    omega
  have hfree : Within [.ctl] (look fun s => act (allFilled s) allFree) := within_look fun _ => within_act within_allFree
  refine does_of_within hs.1 rfl (within_actFillDone n.val) ?_
  rw [e]
  refine ⟨?_, ?_, fun a => ?_⟩
  · rw [(keepsReg_allFree (hmig _ (by decide))).rd, setIst, after_wrBit, rd_ctl_other _ (by omega), after_wrFld, rd_ctl_same,
      fld_setFld _ (by decide) (by decide)]
    rfl
  · rw [(keepsReg_allFree (hmig _ (by decide))).rd, setIst, after_wrBit, rd_ctl_same, bit_setBit_same _ (by decide)]
  · rw [memByte, hfree.memory, (within_setIst ..).memory, (within_wrFld ..).memory, ← memByte]
    refine (memByte_memKeep s (fun k => decide (k / 65536 % 24 ≠ n.val)) a).trans ?_
    by_cases ha : a / 65536 % 24 = n.val
    · rw [if_pos ha, if_neg (by simpa using ha)]
    · rw [if_neg ha, if_pos (by simpa using ha)]

/-! ## The patrol scrub (R403, R404) -/

/-- What the reads of a scrub without errors leave of the state: everything but the header of the port's page. -/
structure Scrubbed (s t : State) (n : Nat) : Prop where
  only : OnlyIn [.ctl] s t
  page : RegsOnly [mpPage n] s t
  above : ∀ x, Above x → rd t x = rd s x

theorem Scrubbed.refl (s : State) (n : Nat) : Scrubbed s s n := ⟨onlyIn_refl _ s, RegsOnly.refl _ s, fun _ _ => rfl⟩

theorem Scrubbed.count {s t : State} {n : Nat} (h : Scrubbed s t n) {k : Nat} (hk : k < 8) (m : Nat) : Scrubbed s (after (count (mpPage n) k m) t) n :=
  ⟨h.only.trans ((within_count ..).onlyIn t), h.page.trans (WritesIn.regsOnly (writesIn_count (mpPage_mod n) hk (by simp) m) t),
    fun x hx => ((hx.count (mpPage_mod n) hk m).rd t).trans (h.above x hx)⟩

theorem Scrubbed.reading {s t : State} {n : Nat} (h : Scrubbed s t n) (b : Nat) : SameReading s t b :=
  ⟨fun x hx => h.above x (portReg_above hx), h.only .straps rfl⟩

theorem CleanBlk.of_reading {s t : State} {b : Nat} (h : CleanBlk s b) (g : SameReading s t b) (hchk : t.chk = s.chk) : CleanBlk t b :=
  ⟨(g.verdict hchk).trans h.1, g.poisoned.trans h.2⟩

/-- One clean block's read for a scrub. -/
theorem after_scrubRead {s : State} {b n : Nat} (hb : blkPort b = n) (hm : mergeOf s b = none) (hc : CleanBlk s b) :
    after (seq [showNoise b [], readBy b .scrub none true true []]) s = after (count (mpPage n) 0 1) s := by
  have hsame := sameReading_count s b (mpPage_mod n) (show 0 < 8 by decide) 1
  rw [after_seq_cons, after_seq_cons, after_seq_nil, showNoise_nil, readBy, after_look, hm]
  dsimp only
  rw [after_seq_cons, after_seq_cons, after_seq_nil, hb, after_readDecode_clean _ _ (hc.of_reading hsame ((within_count ..).chk s))]

/-- The block that the scrub reads at position pos as its i-th. -/
def scrubBlk (n pos i : Nat) : Nat := 1024 * (pos / 8 * 24 + n) + (pos % 8 * 8 + i / 16) * 16 + i % 16

theorem blkPort_scrubBlk {n : Nat} (hn : n < 24) (pos : Nat) {i : Nat} (hi : i < 128) : blkPort (scrubBlk n pos i) = n := by
  unfold blkPort scrubBlk
  omega

theorem scrubbed_reads {s : State} {n pos : Nat} (hn : n < 24) (hbuf : s.mergeBuf = []) (hc : ∀ i < 128, CleanBlk s (scrubBlk n pos i)) :
    Scrubbed s (after (each (List.range 128) fun i => seq [showNoise (scrubBlk n pos i) [], readBy (scrubBlk n pos i) .scrub none true true []]) s) n := by
  refine after_each_keeps (P := fun t => Scrubbed s t n) _ _ (fun i hi t ht => ?_) s (.refl s n)
  have hi' := List.mem_range.mp hi
  have hm : mergeOf t (scrubBlk n pos i) = none := by rw [mergeOf, ht.only .mergeBuf rfl, hbuf]; rfl
  rw [after_scrubRead (blkPort_scrubBlk hn pos hi') hm ((hc i hi').of_reading (ht.reading _) (ht.only .chk rfl))]
  exact ht.count (by decide) 1

theorem after_actPatrolScrub {s : State} {n : Nat} (h0 : bit (rd s (mpPage n + 0x104)) 0 = true) (hin : inlineOn s = true) :
    let pos := fld (rd s (mpPage n + 0x108)) 22 0
    after (actPatrolScrub n []) s = after (if pos + 1 < scrubGroups s then wrFld (mpPage n + 0x108) 22 0 (pos + 1)
        else seq [wrFld (mpPage n + 0x108) 22 0 0, wrBit (mpPage n + 0x108) 31 true])
      (after (count (mpPage n) 3 8) (after (each (List.range 128) fun i =>
        seq [showNoise (scrubBlk n pos i) [], readBy (scrubBlk n pos i) .scrub none true true []]) s)) := by
  intro pos
  rw [actPatrolScrub, after_look]
  dsimp only
  rw [h0, hin, if_pos (by decide), after_seq_cons, after_seq_cons, after_seq_cons, after_seq_nil]
  rfl

theorem does_patrolScrub {s : State} (hs : Ready s) (n : PortNo) {pos : Nat} (h0 : bit (rd s (mpPage n.val + 0x104)) 0 = true)
    (hin : inlineOn s = true) (hpos : pos = fld (rd s (mpPage n.val + 0x108)) 22 0) (hbuf : s.mergeBuf = [])
    (hc : ∀ i < 128, CleanBlk s (scrubBlk n.val pos i)) : Does (.patrolScrub n []) s [.ctl] fun t => RegsOnly [mpPage n.val] s t ∧
      fld (rd t (mpPage n.val + 0x108)) 22 0 = (if pos + 1 < scrubGroups s then pos + 1 else 0) ∧
      (scrubGroups s ≤ pos + 1 → bit (rd t (mpPage n.val + 0x108)) 31 = true) := by
  subst hpos
  have e := after_actPatrolScrub h0 hin
  dsimp only at e
  have hall := (scrubbed_reads n.isLt hbuf hc).count (show 3 < 8 by decide) 8
  generalize after (count (mpPage n.val) 3 8) _ = u at e hall
  have hgroups : scrubGroups s < 2 ^ 23 := by
    rw [scrubGroups]
    split <;> omega
  have hpage := mpPage_mod n.val
  refine does_of_run hs.1 rfl ?_ ?_ <;> rw [e, after_ite]
  · split
    · exact hall.only.trans ((within_wrFld ..).onlyIn u)
    · exact hall.only.trans ((within_seq_cons (within_wrFld ..) <| within_seq_cons (within_wrBit ..) within_seq_nil).onlyIn u)
  · have hne (x : Nat) (hx : x / 4096 * 4096 ∉ [mpPage n.val]) : x ≠ mpPage n.val + 0x108 := ne_of_page hx hpage (by decide) (by simp)
    split
    case isTrue hlt =>
      refine ⟨hall.page.trans fun x hx => (keepsReg_wrFld (hne x hx) ..).rd u, ?_, fun hle => by omega⟩
      rw [after_wrFld, rd_ctl_same, fld_setFld _ (by decide) (by decide)]
      exact Nat.mod_eq_of_lt (by omega)
    case isFalse hge =>
      rw [after_seq_cons, after_seq_cons, after_seq_nil]
      refine ⟨(hall.page.trans fun x hx => (keepsReg_wrFld (hne x hx) ..).rd u).trans fun x hx => (keepsReg_wrBit (hne x hx) ..).rd _, ?_, fun _ => ?_⟩
      · rw [after_wrBit, rd_ctl_same, fld_setBit_other _ (by decide) (by decide), after_wrFld, rd_ctl_same, fld_setFld _ (by decide) (by decide)]
        rfl
      · rw [after_wrBit, rd_ctl_same, bit_setBit_same _ (by decide)]

/-! ## Remapping (R405, R406) -/

/-- The one valid entry that names a block serves it. -/
theorem remapOf_unique {s : State} {n l e : Nat} (hn : fld (rd s (mpPage n + 0x118)) 14 8 ≠ 0) (he : e < 64)
    (hown : bit (rd s (remapReg n e)) 31 = true ∧ fld (rd s (remapReg n e)) 29 0 = l)
    (hother : ∀ k < 64, k ≠ e → bit (rd s (remapReg n k)) 31 = true → fld (rd s (remapReg n k)) 29 0 ≠ l) : remapOf s n l = some e := by
  have hsat : (fun e => bit (rd s (remapReg n e)) 31 && decide (fld (rd s (remapReg n e)) 29 0 = l)) e = true := by
    simp only [hown.1, hown.2, decide_true, Bool.and_self]
  rw [remapOf, if_neg hn]
  cases hk : (List.range 64).find? (fun e => bit (rd s (remapReg n e)) 31 && decide (fld (rd s (remapReg n e)) 29 0 = l)) with
  | none => exact absurd hsat (List.find?_eq_none.mp hk e (List.mem_range.mpr he))
  | some k =>
    have hs := List.find?_some hk
    simp only [Bool.and_eq_true, decide_eq_true_eq] at hs
    by_contra hne
    exact hother k (List.mem_range.mp (List.mem_of_find?_eq_some hk)) (fun h => hne (by rw [h])) hs.1 hs.2

/-- What a remap entry holds: valid, its poison, its block. -/
def remapWord (poison : Bool) (l : Nat) : Word := BitVec.ofNat 32 (0x80000000 + 0x40000000 * b2n poison + l)

theorem remapWord_fields (poison : Bool) {l : Nat} (hl : l < 2 ^ 30) : bit (remapWord poison l) 31 = true ∧ bit (remapWord poison l) 30 = poison ∧
    fld (remapWord poison l) 29 0 = l := by
  have h30 : bit (remapWord poison l) 30 = decide (b2n poison = 1) := by
    rw [bit_eq_decide_fld, remapWord, fld_ofNat _ (by decide) (by decide), bits]
    have : b2n poison ≤ 1 := by cases poison <;> decide
    exact decide_eq_decide.mpr (by omega)
  refine ⟨?_, by rw [h30]; cases poison <;> rfl, ?_⟩
  · rw [bit_eq_decide_fld, remapWord, fld_ofNat _ (by decide) (by decide), bits]
    have : b2n poison ≤ 1 := by cases poison <;> decide
    exact decide_eq_true (by omega)
  · rw [remapWord, fld_ofNat _ (by decide) (by decide), bits]
    have : b2n poison ≤ 1 := by cases poison <;> decide
    omega

/-- The event of a remap whose block was found in error. -/
def remapEvent (b : Nat) (v : Verdict) : Act :=
  match v with
  | .fixed es => corrEvent b es.length .remap none
  | .bad => uncorrEvent b 2 .remap none
  | .clean => nop

/-- The data that a remap moves, of a block with a verdict. -/
def remapData (s : State) (b : Nat) (v : Verdict) : List Byte :=
  match v with
  | .fixed es => fixData (rawData s b) es
  | _ => rawData s b

theorem within_remapEvent (b : Nat) (v : Verdict) : Within [.ctl, .dumpRun, .freeCtr] (remapEvent b v) := by
  cases v
  · exact within_nop
  · exact within_corrEvent ..
  · exact within_uncorrEvent ..

theorem Above.remapEvent {x : Nat} (h : Above x) (b : Nat) (v : Verdict) : KeepsReg x (remapEvent b v) := by
  cases v
  · exact keeps_nop
  · exact h.corrEvent ..
  · exact h.uncorrEvent ..

theorem length_remapData (s : State) (b : Nat) (v : Verdict) : (remapData s b v).length = 64 := by
  cases v
  · exact length_rawData ..
  · exact (length_fixData ..).trans (length_rawData ..)
  · exact length_rawData ..

/-- The counts of a remap. -/
def remapCounts (n : Nat) : Act := seq [count (mpPage n) 0 1, count (mpPage n) 1 1, count (mpPage n) 6 1]

theorem within_remapCounts (n : Nat) : Within [.ctl] (remapCounts n) :=
  within_seq_cons (within_count ..) <| within_seq_cons (within_count ..) <| within_seq_cons (within_count ..) within_seq_nil

theorem Above.remapCounts {x : Nat} (h : Above x) (n : Nat) : KeepsReg x (remapCounts n) :=
  keeps_seq_cons (h.count (mpPage_mod n) (by decide) 1) <| keeps_seq_cons (h.count (mpPage_mod n) (by decide) 1) <|
    keeps_seq_cons (h.count (mpPage_mod n) (by decide) 1) keeps_seq_nil

theorem after_remapInto {s : State} {n l : Nat} (e : Nat) (hm : mergeOf s (blkOf n l) = none) :
    let b := blkOf n l
    let v := verdictAt s (tcorrOf s n) b
    after (remapInto n e l false) s = after (remapCounts n)
      (after (wrFld (mpPage n + 0x118) 14 8 (fld (rd s (mpPage n + 0x118)) 14 8 + 1))
      (after (wr (remapReg n e) (remapWord (decide (v = .bad)) l))
      (after (putRaw (spareBlk s n e) (remapData s b v) [0, 0, 0, 0]) (after (remapEvent b v) s)))) := by
  have hret : after (retireFor (blkOf n l)) s = s := by rw [retireFor, after_look, hm]; rfl
  dsimp only
  rw [remapInto, after_seq_cons, after_seq_cons, after_seq_nil, hret, after_look]
  dsimp only
  rw [after_seq_cons, after_seq_cons, after_seq_cons, after_seq_cons]
  rfl

/-- A remap entry is an aligned word above the header of its port's page. -/
theorem above_remapReg (n : Nat) {e : Nat} (he : e < 64) : Above (remapReg n e) := portReg_above (portReg_remap n he)

theorem above_number (n : Nat) : Above (mpPage n + 0x118) := portReg_above (portReg_number n)

section

variable {s : State} {n l e : Nat} (hn : n < 24) (he : e < 64) (hm : mergeOf s (blkOf n l) = none)
include hm

/-- The entries once a remap is in force. -/
theorem rd_after_remapInto {k : Nat} (hk : k < 64) : rd (after (remapInto n e l false) s) (remapReg n k) =
    if k = e then remapWord (decide (verdictAt s (tcorrOf s n) (blkOf n l) = .bad)) l else rd s (remapReg n k) := by
  rw [after_remapInto e hm, ((above_remapReg n hk).remapCounts n).rd, after_wrFld, rd_ctl_other _ (remapReg_ne_number n n hk).symm, after_wr]
  split
  case isTrue heq => rw [heq, rd_ctl_same]
  case isFalse hne =>
    rw [rd_ctl_other _ (remapReg_ne hne), ((within_putRaw ..).keepsReg _).rd, ((above_remapReg n hk).remapEvent ..).rd]

theorem number_after_remapInto (hnum : fld (rd s (mpPage n + 0x118)) 14 8 < 64) :
    fld (rd (after (remapInto n e l false) s) (mpPage n + 0x118)) 14 8 = fld (rd s (mpPage n + 0x118)) 14 8 + 1 := by
  rw [after_remapInto e hm, ((above_number n).remapCounts n).rd, after_wrFld, rd_ctl_same, fld_setFld _ (by decide) (by decide)]
  exact Nat.mod_eq_of_lt (by omega)

theorem memory_after_remapInto : let t := after (remapInto n e l false) s
    t.mergeBuf = s.mergeBuf ∧ t.straps = s.straps ∧ rawDelta t (spareBlk s n e) = [0, 0, 0, 0] ∧
      rawData t (spareBlk s n e) = remapData s (blkOf n l) (verdictAt s (tcorrOf s n) (blkOf n l)) := by
  intro t
  have hlen := length_remapData s (blkOf n l) (verdictAt s (tcorrOf s n) (blkOf n l))
  have et : t = _ := after_remapInto e hm
  refine ⟨?_, ?_, ?_, ?_⟩ <;> rw [et]
  · rw [(within_remapCounts n).mergeBuf, (within_wrFld ..).mergeBuf, (within_wr ..).mergeBuf, (within_putRaw ..).mergeBuf,
      (within_remapEvent ..).mergeBuf]
  · rw [(within_remapCounts n).straps, (within_wrFld ..).straps, (within_wr ..).straps, (within_putRaw ..).straps, (within_remapEvent ..).straps]
  · rw [rawDelta_of_chk ((within_remapCounts n).chk _), rawDelta_of_chk ((within_wrFld ..).chk _), rawDelta_of_chk ((within_wr ..).chk _),
      rawDelta_after_putRaw _ _ rfl]
  · rw [rawData_of_mem ((within_remapCounts n).memory _), rawData_of_mem ((within_wrFld ..).memory _), rawData_of_mem ((within_wr ..).memory _),
      rawData_after_putRaw _ _ hlen]

variable (hl : l < 2 ^ 30) (hnum : fld (rd s (mpPage n + 0x118)) 14 8 < 64)
  (hfree : ∀ k < 64, bit (rd s (remapReg n k)) 31 = true → fld (rd s (remapReg n k)) 29 0 ≠ l)
include he hl hnum hfree

theorem remapOf_after_remapInto : remapOf (after (remapInto n e l false) s) n l = some e := by
  obtain ⟨h31, -, hblk⟩ := remapWord_fields (decide (verdictAt s (tcorrOf s n) (blkOf n l) = .bad)) hl
  refine remapOf_unique (by rw [number_after_remapInto hm hnum]; omega) he ?_ fun k hk hne => ?_
  · rw [rd_after_remapInto hm he, if_pos rfl]
    exact ⟨h31, hblk⟩
  · rw [rd_after_remapInto hm hk, if_neg hne]
    exact hfree k hk

include hn in
/-- The block is served by its spare, and reads as it did. -/
theorem reads_after_remapInto (hnone : remapOf s n l = none) : let t := after (remapInto n e l false) s
    let b := blkOf n l
    heldAt t b = spareBlk s n e ∧ readBlk t b = readBlk s b := by
  intro t b
  have hport : blkPort b = n := blkPort_blkOf hn l
  have hlocal : blkLocal b = l := blkLocal_blkOf hn l
  have hremap : remapOf t n l = some e := remapOf_after_remapInto he hm hl hnum hfree
  obtain ⟨hbuf, hstraps, hdelta, hdata⟩ := memory_after_remapInto (n := n) (e := e) (l := l) hm
  have hheld : heldAt t b = spareBlk s n e := by
    rw [heldAt, hport, hlocal, hremap]
    exact spareBlk_of_straps hstraps n e
  have hpois : poisoned t b = decide (verdictAt s (tcorrOf s n) b = .bad) := by
    rw [poisoned, hport, hlocal, hremap]
    dsimp only
    rw [rd_after_remapInto hm he, if_pos rfl, (remapWord_fields _ hl).2.1]
  have hclean : verdictAt t (tcorrOf t (blkPort b)) (heldAt t b) = .clean := by
    rw [hheld]
    exact verdictAt_fresh hdelta _
  have hs : poisoned s b = false ∧ heldAt s b = b := by
    rw [poisoned, heldAt, hport, hlocal, hnone]
    exact ⟨rfl, rfl⟩
  refine ⟨hheld, ?_⟩
  rw [readBlk_unmerged ((mergeOf_of_buf hbuf b).trans hm), readBlk_unmerged hm]
  cases hv : verdictAt s (tcorrOf s n) b with
  | bad =>
    rw [decodeBlk, hpois, decide_eq_true hv, if_pos rfl, decodeBlk, hs.1, if_neg (by decide), hport, hs.2, hv]
  | clean =>
    rw [decodeBlk_clean (by rw [hpois, hv]; rfl) hclean, hheld, hdata, hv, decodeBlk_clean hs.1 (by rw [hport, hs.2, hv]), hs.2]
    rfl
  | fixed es =>
    rw [decodeBlk_clean (by rw [hpois, hv]; rfl) hclean, hheld, hdata, hv, decodeBlk_fixed hs.1 (by rw [hport, hs.2, hv]), hs.2]
    rfl

end

theorem does_remap {s : State} (hs : Ready s) (n : PortNo) (e : Fin 64) {v : Word} (ht : Takes s (mpPage n.val / 4096))
    (hok : remapRefused s n.val e.val v = false) (h31 : bit v 31 = true) (h30 : bit v 30 = false) (hm : mergeOf s (blkOf n.val (fld v 29 0)) = none)
    (hnum : fld (rd s (mpPage n.val + 0x118)) 14 8 < 64)
    (hfree : ∀ k : Fin 64, bit (rd s (remapReg n.val k.val)) 31 = true → fld (rd s (remapReg n.val k.val)) 29 0 ≠ fld v 29 0) :
    Does (.mpRemapWrite .ringCtl n e v) s [.ctl, .mem, .chk, .dumpRun, .freeCtr] fun t =>
      remapOf t n.val (fld v 29 0) = some e.val ∧ heldAt t (blkOf n.val (fld v 29 0)) = spareBlk s n.val e.val ∧
      readBlk t (blkOf n.val (fld v 29 0)) = readBlk s (blkOf n.val (fld v 29 0)) := by
  have hnone : remapOf s n.val (fld v 29 0) = none := by
    rw [remapRefused, Bool.or_eq_false_iff] at hok
    exact Option.not_isSome_iff_eq_none.mp (by rw [hok.2]; decide)
  have hpage : (mpPage n.val + 0x200 + 4 * e.val) / 4096 = mpPage n.val / 4096 := by
    have := mpPage_mod n.val
    omega
  have eff : after (remapWrite .ringCtl n.val e.val v) s = after (remapInto n.val e.val (fld v 29 0) false) s := by
    rw [remapWrite, after_look, hok, if_neg (by decide), h31, if_pos rfl, h30]
  have hl : fld v 29 0 < 2 ^ 30 := fld_lt v 29 0
  have hfree' : ∀ k < 64, bit (rd s (remapReg n.val k)) 31 = true → fld (rd s (remapReg n.val k)) 29 0 ≠ fld v 29 0 :=
    fun k hk => hfree ⟨k, hk⟩
  refine does_guarded_ring hs ht hpage rfl ?_ ?_ <;> rw [eff]
  · rw [after_remapInto e.val hm]
    exact (((((within_remapEvent ..).wider rfl).onlyIn s).trans (((within_putRaw ..).wider rfl).onlyIn _)).trans
      (((within_wr ..).wider rfl).onlyIn _)).trans ((((within_wrFld ..).wider rfl).onlyIn _).trans (((within_remapCounts n.val).wider rfl).onlyIn _))
  · exact ⟨remapOf_after_remapInto e.isLt hm hl hnum hfree', reads_after_remapInto n.isLt e.isLt hm hl hnum hfree' hnone⟩

theorem does_remapRefused {s : State} (hs : Ready s) (n : PortNo) (e : Fin 64) {v : Word} (ht : Takes s (mpPage n.val / 4096))
    (hbad : remapRefused s n.val e.val v = true) : Does (.mpRemapWrite .ringCtl n e v) s [.ctl, .dumpRun, .freeCtr] fun t =>
      rd t (remapReg n.val e.val) = rd s (remapReg n.val e.val) ∧ bit (rd t (mpPage n.val + 0x20)) 3 = true := by
  have hpage : (mpPage n.val + 0x200 + 4 * e.val) / 4096 = mpPage n.val / 4096 := by
    have := mpPage_mod n.val
    omega
  have eff : after (remapWrite .ringCtl n.val e.val v) s = after (protocolAt (mpPage n.val) .ringCtl) s := by
    rw [remapWrite, after_look, hbad, if_pos rfl]
  refine does_guarded_ring hs ht hpage rfl ?_ ?_ <;> rw [eff]
  · exact (within_protocolAt ..).onlyIn s
  · exact ⟨((above_remapReg n.val e.isLt).raise (mpPage_mod _) _).rd s, bit_after_raise s nofun⟩

end Sys2Proof.Machine
end

section
/-! The test commands of a memory port (the second half of O39). -/

namespace Sys2Proof.Machine

-- One declaration after the other: elaborated side by side they take more memory than the check has.
set_option Elab.async false

/-! ## Check symbols -/

theorem length_rsStep {c : List Byte} (h : c.length = 4) (d : Byte) : (rsStep c d).length = 4 := by
  match c, h with
  | [_, _, _, _], _ => rfl

theorem length_rsCheck (data : List Byte) : (rsCheck data).length = 4 := by
  have h (c : List Byte) (hc : c.length = 4) : (data.foldl rsStep c).length = 4 := by
    induction data generalizing c with
    | nil => exact hc
    | cons d ds ih => exact ih _ (length_rsStep hc d)
  exact h _ rfl

theorem length_xorBytes {a b : List Byte} (ha : a.length = 4) (hb : b.length = 4) : (xorBytes a b).length = 4 := by
  rw [xorBytes, List.length_zipWith, ha, hb]
  rfl

theorem xorBytes_zero {a : List Byte} (h : a.length = 4) : xorBytes a [0, 0, 0, 0] = a := by
  match a, h with
  | [_, _, _, _], _ => simp [xorBytes]

theorem xorBytes_cancel : ∀ {a c : List Byte}, a.length = c.length → xorBytes a (xorBytes a c) = c
  | [], [], _ => rfl
  | x :: xs, y :: ys, h => by
    have ih := xorBytes_cancel (a := xs) (c := ys) (by simpa using h)
    rw [xorBytes, xorBytes, List.zipWith_cons_cons, List.zipWith_cons_cons, ← xorBytes, ← xorBytes, ih, ← BitVec.xor_assoc, BitVec.xor_self,
      BitVec.zero_xor]

@[simp] theorem length_rawCheck (s : State) (q : Nat) : (rawCheck s q).length = 4 := length_xorBytes (length_rsCheck _) (length_rawDelta ..)

/-- The check symbols c, stored beside data as their deviation from the data's own. -/
theorem rawCheck_of_delta {t : State} {q : Nat} {data c : List Byte} (hd : rawData t q = data) (hc : c.length = 4)
    (hx : rawDelta t q = xorBytes (rsCheck data) c) : rawCheck t q = c := by
  rw [rawCheck, hd, hx]
  exact xorBytes_cancel (by rw [length_rsCheck, hc])

theorem rawCheck_of_mem {s t : State} (hmem : t.mem = s.mem) (hchk : t.chk = s.chk) (q : Nat) : rawCheck t q = rawCheck s q := by
  rw [rawCheck, rawCheck, rawData_of_mem hmem, rawDelta_of_chk hchk]

/-! ## Bytes of words -/

/-- Byte i of a number made of bytes. -/
theorem leNat_byte (bs : List Byte) (i : Nat) : leNat bs / 256 ^ i % 256 = (bs.getD i 0).toNat := by
  induction bs generalizing i with
  | nil => simp [leNat]
  | cons b bs ih =>
    have hb := b.isLt
    cases i with
    | zero =>
      rw [leNat, pow_zero, Nat.div_one, List.getD_cons_zero]
      omega
    | succ i =>
      rw [List.getD_cons_succ, ← ih, leNat, pow_succ', ← Nat.div_div_eq_div_mul]
      congr 2
      omega

theorem byte_leWord (bs : List Byte) {i : Nat} (hi : i < 4) : BitVec.ofNat 8 (fld (leWord bs) (8 * i + 7) (8 * i)) = bs.getD i 0 := by
  refine BitVec.eq_of_toNat_eq ?_
  have h := leNat_byte (bs.take 4) i
  have hlt := (bs.getD i 0).isLt
  rw [leWord, fld_ofNat _ (by omega) (by omega), bits, show 8 * i + 7 + 1 - 8 * i = 8 by omega, BitVec.toNat_ofNat, Nat.mod_mod, pow_mul,
    show (2 : Nat) ^ 8 = 256 from rfl, h]
  simp [List.getD_eq_getElem?_getD, List.getElem?_take_of_lt hi]

theorem getD_leWords (n : Nat) (bs : List Byte) {j : Nat} (hj : j < n) : (leWords n bs).getD j 0 = leWord (bs.drop (4 * j)) := by
  induction n generalizing bs j with
  | zero => omega
  | succ n ih =>
    cases j with
    | zero => rfl
    | succ j =>
      rw [leWords, List.getD_cons_succ, ih _ (by omega), List.drop_drop]
      congr 2
      omega

theorem length_leWords (n : Nat) (bs : List Byte) : (leWords n bs).length = n := by
  induction n generalizing bs with
  | zero => rfl
  | succ n ih => rw [leWords, List.length_cons, ih]

theorem getD_drop {α : Type} (xs : List α) (m i : Nat) (d : α) : (xs.drop m).getD i d = xs.getD (m + i) d := by
  rw [List.getD_eq_getElem?_getD, List.getElem?_drop, ← List.getD_eq_getElem?_getD]

/-! ## The words of a test (R413) -/

/-- MP_TEST_DATA0–15 hold the bytes put into them. -/
theorem rd_after_putTestData (s : State) (n : Nat) (bs : List Byte) {j : Nat} (hj : j < 16) :
    rd (after (putTestData n bs) s) (mpPage n + 0x140 + 4 * j) = leWord (bs.drop (4 * j)) := by
  rw [← getD_leWords 16 bs hj]
  have hmem : ((leWords 16 bs).getD j 0, j) ∈ (leWords 16 bs).zipIdx := by
    rw [List.mem_zipIdx_iff_getElem?, List.getD_eq_getElem _ _ (by rw [length_leWords]; exact hj), List.getElem?_eq_getElem]
  have hset (t : State) (v : Word) : rd (after (wr (mpPage n + 0x140 + 4 * j) v) t) (mpPage n + 0x140 + 4 * j) = v := rd_ctl_same ..
  refine after_each_sets (f := fun t => rd t (mpPage n + 0x140 + 4 * j)) hmem (fun t => hset t _) (fun q hq => ?_) s
  by_cases hqj : q.2 = j
  · left
    intro t
    have hval := List.mem_zipIdx_iff_getElem?.mp hq
    rw [hqj] at hval
    have : q.1 = (leWords 16 bs).getD j 0 := by rw [List.getD_eq_getElem?_getD, hval, Option.getD_some]
    rw [hqj, this]
    exact hset t _
  · exact .inr (keepsReg_wr (by omega) _)

theorem keepsReg_putTestData {n x : Nat} (h : ∀ j < 16, x ≠ mpPage n + 0x140 + 4 * j) (bs : List Byte) : KeepsReg x (putTestData n bs) :=
  keeps_each fun q hq => keepsReg_wr (h q.2 (by have := List.snd_lt_of_mem_zipIdx hq; rwa [length_leWords] at this)) _

theorem testData_eq_of_words {t : State} {n : Nat} {bs : List Byte} (hlen : bs.length = 64)
    (h : ∀ j < 16, rd t (mpPage n + 0x140 + 4 * j) = leWord (bs.drop (4 * j))) : testData t n = bs := by
  rw [testData]
  refine (List.map_congr_left fun k hk => ?_).trans (map_range_getD hlen 0)
  have hk' := List.mem_range.mp hk
  rw [show k / 4 * 4 = 4 * (k / 4) by omega, h _ (by omega), byte_leWord _ (by omega), getD_drop, show 4 * (k / 4) + k % 4 = k by omega]

theorem testChk_eq_of_word {t : State} {n : Nat} {cs : List Byte} (hlen : cs.length = 4) (h : rd t (mpPage n + 0x180) = leWord cs) :
    testChk t n = cs := by
  rw [testChk, h]
  exact (List.map_congr_left fun j hj => byte_leWord cs (List.mem_range.mp hj)).trans (map_range_getD hlen 0)

@[simp] theorem length_testData (s : State) (n : Nat) : (testData s n).length = 64 := by rw [testData, List.length_map, List.length_range]

@[simp] theorem length_testChk (s : State) (n : Nat) : (testChk s n).length = 4 := by rw [testChk, List.length_map, List.length_range]

theorem testData_of_regs {s t : State} {n : Nat} (h : ∀ j < 16, rd t (mpPage n + 0x140 + 4 * j) = rd s (mpPage n + 0x140 + 4 * j)) :
    testData t n = testData s n :=
  List.map_congr_left fun k hk => by
    have hk' := List.mem_range.mp hk
    rw [show k / 4 * 4 = 4 * (k / 4) by omega, h _ (by omega)]

/-! ## A command that is taken (R413) -/

/-- A test command's words are cleared as it is taken. -/
def testTaken (n : Nat) (s : State) : State := after (seq [wr (mpPage n + 0x12C) 0, wr (mpPage n + 0x130) 0]) s

theorem rd_testTaken {n x : Nat} (s : State) (h : x ≠ mpPage n + 0x12C) (h' : x ≠ mpPage n + 0x130) : rd (testTaken n s) x = rd s x := by
  rw [testTaken, after_seq_cons, after_seq_cons, after_seq_nil, after_wr, after_wr, rd_ctl_other _ h', rd_ctl_other _ h]

theorem onlyIn_testTaken (n : Nat) (s : State) : OnlyIn [.ctl] s (testTaken n s) :=
  (within_seq_cons (within_wr ..) <| within_seq_cons (within_wr ..) within_seq_nil).onlyIn s

theorem sameReading_testTaken (n : Nat) (s : State) (b : Nat) : SameReading s (testTaken n s) b := by
  refine ⟨fun x hx => rd_testTaken s ?_ ?_, onlyIn_testTaken n s .straps rfl⟩ <;> obtain ⟨o, rfl, ho⟩ := hx <;> unfold mpPage <;> omega

theorem testData_testTaken (n : Nat) (s : State) : testData (testTaken n s) n = testData s n :=
  testData_of_regs fun j _ => rd_testTaken s (by omega) (by omega)

theorem testChk_testTaken (n : Nat) (s : State) : testChk (testTaken n s) n = testChk s n := by
  rw [testChk, testChk, rd_testTaken s (by omega) (by omega)]

/-- The block that a test command names. -/
def testBlk (s : State) (n : Nat) : Nat := blkOf n (fld (rd s (mpPage n + 0x124)) 29 0)

theorem after_testCommand {s : State} {n cmd : Nat} (h0 : bit (rd s (mpPage n + 0x120)) 0 = true) (hz : portZeroed s n = true)
    (hr : testRejected s n cmd = false) (r : Requester) : after (testCommand r n cmd) s =
      after (setIst (mpPage n) 11) (after (testAct n cmd (testBlk s n)) (testTaken n s)) := by
  rw [testCommand, after_look]
  dsimp only
  rw [h0, hz, if_neg (by decide), hr, if_neg (by decide), after_seq_cons, after_seq_cons, after_seq_cons, after_seq_cons, after_seq_nil]
  rfl

theorem after_testCommand_rejected {s : State} {n cmd : Nat} (h0 : bit (rd s (mpPage n + 0x120)) 0 = true) (hz : portZeroed s n = true)
    (hr : testRejected s n cmd = true) (r : Requester) : after (testCommand r n cmd) s =
      after (protocolAt (mpPage n) r) (after (wr (mpPage n + 0x12C) 3) s) := by
  rw [testCommand, after_look]
  dsimp only
  rw [h0, hz, if_neg (by decide), hr, if_pos rfl, after_seq_cons, after_seq_cons, after_seq_nil]

theorem testCmd_page (n : Nat) : (mpPage n + 0x128) / 4096 = mpPage n / 4096 := by
  have := mpPage_mod n
  omega

theorem bit_after_latch (s : State) (n : Nat) : bit (rd (after (setIst (mpPage n) 11) s) (mpPage n + 0x20)) 11 = true := by
  rw [setIst, after_wrBit, rd_ctl_same, bit_setBit_same _ (by decide)]

section

variable {s : State} (hs : Ready s) (n : PortNo) (ht : Takes s (mpPage n.val / 4096)) (h0 : bit (rd s (mpPage n.val + 0x120)) 0 = true)
  (hz : portZeroed s n.val = true)
include hs ht h0 hz

/-- A command that is taken, from what its act does. -/
theorem does_test {cmd : Instr} {k : Nat} (hc : exec cmd s = run (guarded .ringCtl (mpPage n.val + 0x128) (testCommand .ringCtl n.val k)) s)
    (hr : testRejected s n.val k = false) {ps : List Part} {P : State → Prop} (hps : ps.contains .ctl = true)
    (hframe : OnlyIn ps (testTaken n.val s) (after (testAct n.val k (testBlk s n.val)) (testTaken n.val s)))
    (hP : P (after (setIst (mpPage n.val) 11) (after (testAct n.val k (testBlk s n.val)) (testTaken n.val s)))) : Does cmd s ps P := by
  have e := after_testCommand h0 hz hr .ringCtl
  have hcov : covers ps [.ctl] = true := by simpa [covers] using hps
  refine does_guarded_ring hs ht (testCmd_page n.val) hc ?_ ?_ <;> rw [e]
  · exact (((onlyIn_testTaken n.val s).wider hcov).trans hframe).trans (((within_setIst ..).wider hcov).onlyIn _)
  · exact hP

theorem does_testRejected {cmd : Instr} {k : Nat} (hc : exec cmd s = run (guarded .ringCtl (mpPage n.val + 0x128) (testCommand .ringCtl n.val k)) s)
    (hr : testRejected s n.val k = true) : Does cmd s [.ctl, .dumpRun, .freeCtr] fun t =>
      rd t (mpPage n.val + 0x12C) = 3 ∧ bit (rd t (mpPage n.val + 0x20)) 3 = true := by
  have e := after_testCommand_rejected h0 hz hr .ringCtl
  have hpage := mpPage_mod n.val
  refine does_guarded_ring hs ht (testCmd_page n.val) hc ?_ ?_ <;> rw [e]
  · exact (((within_wr ..).wider rfl).onlyIn s).trans ((within_protocolAt ..).onlyIn _)
  · have habove : Above (mpPage n.val + 0x12C) := by unfold mpPage at *; exact ⟨by omega, by omega⟩
    exact ⟨((habove.raise hpage _).rd _).trans (rd_ctl_same ..), bit_after_raise _ nofun⟩

end

/-! ## What a test command does to its block (R413) -/

theorem raw_after_storeBlk (s : State) (b : Nat) {data : List Byte} (hdata : data.length = 64) : let t := after (storeBlk b data) s
    rawData t (heldAt s b) = data ∧ rawDelta t (heldAt s b) = [0, 0, 0, 0] ∧ ∀ a, a / 64 ≠ heldAt s b → memByte t a = memByte s a := by
  intro t
  have e : t = _ := after_storeBlk s b data
  refine ⟨?_, ?_, (stored_after_storeBlk s b hdata).others⟩ <;> rw [e]
  · rw [rawData_of_mem ((within_count ..).memory _), rawData_of_mem ((within_clearPoison ..).memory _), rawData_after_putRaw _ _ hdata]
  · rw [rawDelta_of_chk ((within_count ..).chk _), rawDelta_of_chk ((within_clearPoison ..).chk _), rawDelta_after_putRaw _ _ rfl]

theorem sameReading_dropFor (s : State) (b : Nat) : SameReading s (after (dropFor b) s) b := by
  cases hm : mergeOf s b with
  | none =>
    have e : after (dropFor b) s = s := by rw [dropFor, after_look, hm]; rfl
    rw [e]
    exact .refl s b
  | some m =>
    have e : after (dropFor b) s = after (dropMerge m) s := by rw [dropFor, after_look, hm]
    rw [e]
    exact sameReading_dropMerge s m b

theorem after_retireFor_none {s : State} {b : Nat} (h : mergeOf s b = none) : after (retireFor b) s = s := by
  rw [retireFor, after_look, h]
  rfl

section

variable {s : State} {n b : Nat}

theorem after_testAct_generated (u : State) : after (testAct n 1 b) u = after (storeBlk b (testData u n)) (after (dropFor b) u) := by
  have e : testAct n 1 b = look fun u => seq [dropFor b, storeBlk b (testData u n)] := rfl
  rw [e, after_look, after_seq_cons, after_seq_cons, after_seq_nil]

theorem after_testAct_data (u : State) (hm : mergeOf u b = none) : after (testAct n 2 b) u = after (count (mpPage n) 1 1)
    (after (putRaw (heldAt u b) (testData u n) (xorBytes (rsCheck (testData u n)) (rawCheck u (heldAt u b)))) u) := by
  have e : testAct n 2 b = look fun u => seq [retireFor b,
      look fun s => putRaw (heldAt u b) (testData s n) (xorBytes (rsCheck (testData s n)) (rawCheck s (heldAt u b))), count (mpPage n) 1 1] := rfl
  rw [e, after_look, after_seq_cons, after_seq_cons, after_seq_cons, after_seq_nil, after_retireFor_none hm, after_look]

theorem after_testAct_check (u : State) (hm : mergeOf u b = none) : after (testAct n 3 b) u =
    after (putRaw (heldAt u b) (rawData u (heldAt u b)) (xorBytes (rsCheck (rawData u (heldAt u b))) (testChk u n))) u := by
  have e : testAct n 3 b = look fun u => seq [retireFor b,
      look fun s => putRaw (heldAt u b) (rawData s (heldAt u b)) (xorBytes (rsCheck (rawData s (heldAt u b))) (testChk s n))] := rfl
  rw [e, after_look, after_seq_cons, after_seq_cons, after_seq_nil, after_retireFor_none hm, after_look]

theorem after_testAct_both (u : State) : after (testAct n 4 b) u =
    after (putRaw (heldAt u b) (testData u n) (xorBytes (rsCheck (testData u n)) (testChk u n)))
      (after (storeBlk b (testData u n)) (after (dropFor b) u)) := by
  have e : testAct n 4 b = look fun u => seq [dropFor b, storeBlk b (testData u n),
      putRaw (heldAt u b) (testData u n) (xorBytes (rsCheck (testData u n)) (testChk u n))] := rfl
  rw [e, after_look, after_seq_cons, after_seq_cons, after_seq_cons, after_seq_nil]

theorem after_testAct_raw (u : State) (hm : mergeOf u b = none) : after (testAct n 5 b) u =
    after (wr (mpPage n + 0x180) (leWord (rawCheck u (heldAt u b)))) (after (putTestData n (rawData u (heldAt u b)))
      (after (count (mpPage n) 0 1) u)) := by
  have e : testAct n 5 b = look fun u => seq [retireFor b, count (mpPage n) 0 1,
      look fun s => seq [putTestData n (rawData s (heldAt u b)), wr (mpPage n + 0x180) (leWord (rawCheck s (heldAt u b)))]] := rfl
  rw [e, after_look, after_seq_cons, after_seq_cons, after_seq_cons, after_seq_nil, after_retireFor_none hm, after_look, after_seq_cons,
    after_seq_cons, after_seq_nil, rawCheck_of_mem ((within_count ..).memory u) ((within_count ..).chk u), rawData_of_mem ((within_count ..).memory u)]

end

section

variable {s : State} (hs : Ready s) (n : PortNo) (ht : Takes s (mpPage n.val / 4096)) (h0 : bit (rd s (mpPage n.val + 0x120)) 0 = true)
  (hz : portZeroed s n.val = true)
include hs ht h0 hz

theorem does_testGenerated (hr : testRejected s n.val 1 = false) : Does (.testWriteGenerated .ringCtl n) s [.ctl, .mem, .chk, .mergeBuf] fun t =>
    rawData t (heldAt s (testBlk s n.val)) = testData s n.val ∧
    rawCheck t (heldAt s (testBlk s n.val)) = rsCheck (testData s n.val) ∧ bit (rd t (mpPage n.val + 0x20)) 11 = true ∧
    ∀ a, a / 64 ≠ heldAt s (testBlk s n.val) → memByte t a = memByte s a := by
  have hu := (sameReading_testTaken n.val s (testBlk s n.val)).trans (sameReading_dropFor (testTaken n.val s) (testBlk s n.val))
  obtain ⟨hdata, hdelta, hother⟩ := raw_after_storeBlk (after (dropFor (testBlk s n.val)) (testTaken n.val s)) (testBlk s n.val)
    (length_testData s n.val)
  rw [hu.heldAt] at hdata hdelta hother
  refine does_test hs n ht h0 hz rfl hr rfl ?_ ?_ <;> rw [after_testAct_generated, testData_testTaken]
  · exact (((within_dropFor ..).wider rfl).onlyIn _).trans (((within_storeBlk ..).wider rfl).onlyIn _)
  · refine ⟨(rawData_of_mem ((within_setIst ..).memory _) _).trans hdata, ?_, bit_after_latch .., fun a ha => ?_⟩
    · rw [rawCheck_of_mem ((within_setIst ..).memory _) ((within_setIst ..).chk _), rawCheck, hdata, hdelta, xorBytes_zero (length_rsCheck _)]
    · rw [memByte, (within_setIst ..).memory, ← memByte, hother a ha, memByte, (within_dropFor ..).memory, onlyIn_testTaken n.val s .mem rfl,
        ← memByte]

theorem does_testData (hr : testRejected s n.val 2 = false) (hm : mergeOf s (testBlk s n.val) = none) :
    Does (.testWriteData .ringCtl n) s [.ctl, .mem, .chk] fun t => rawData t (heldAt s (testBlk s n.val)) = testData s n.val ∧
      rawCheck t (heldAt s (testBlk s n.val)) = rawCheck s (heldAt s (testBlk s n.val)) ∧ bit (rd t (mpPage n.val + 0x20)) 11 = true := by
  have hin := onlyIn_testTaken n.val s
  have hu := sameReading_testTaken n.val s (testBlk s n.val)
  have hm' : mergeOf (testTaken n.val s) (testBlk s n.val) = none := (mergeOf_of_buf (hin .mergeBuf rfl) _).trans hm
  have hlen : (xorBytes (rsCheck (testData s n.val)) (rawCheck s (heldAt s (testBlk s n.val)))).length = 4 :=
    length_xorBytes (length_rsCheck _) (length_rawCheck ..)
  refine does_test hs n ht h0 hz rfl hr rfl ?_ ?_ <;>
    rw [after_testAct_data _ hm', testData_testTaken, hu.heldAt, rawCheck_of_mem (hin .mem rfl) (hin .chk rfl)]
  · exact (((within_putRaw ..).wider rfl).onlyIn _).trans (((within_count ..).wider rfl).onlyIn _)
  · have hdata := rawData_after_putRaw (testTaken n.val s) (heldAt s (testBlk s n.val))
      (delta := xorBytes (rsCheck (testData s n.val)) (rawCheck s (heldAt s (testBlk s n.val)))) (length_testData s n.val)
    refine ⟨?_, ?_, bit_after_latch ..⟩
    · rw [rawData_of_mem ((within_setIst ..).memory _), rawData_of_mem ((within_count ..).memory _), hdata]
    · rw [rawCheck_of_mem ((within_setIst ..).memory _) ((within_setIst ..).chk _),
        rawCheck_of_mem ((within_count ..).memory _) ((within_count ..).chk _)]
      exact rawCheck_of_delta hdata (length_rawCheck ..) (rawDelta_after_putRaw _ _ hlen)

theorem does_testCheck (hr : testRejected s n.val 3 = false) (hm : mergeOf s (testBlk s n.val) = none) :
    Does (.testWriteCheck .ringCtl n) s [.ctl, .mem, .chk] fun t =>
      rawData t (heldAt s (testBlk s n.val)) = rawData s (heldAt s (testBlk s n.val)) ∧
      rawCheck t (heldAt s (testBlk s n.val)) = testChk s n.val ∧ bit (rd t (mpPage n.val + 0x20)) 11 = true := by
  have hin := onlyIn_testTaken n.val s
  have hu := sameReading_testTaken n.val s (testBlk s n.val)
  have hm' : mergeOf (testTaken n.val s) (testBlk s n.val) = none := (mergeOf_of_buf (hin .mergeBuf rfl) _).trans hm
  have hlen : (xorBytes (rsCheck (rawData s (heldAt s (testBlk s n.val)))) (testChk s n.val)).length = 4 :=
    length_xorBytes (length_rsCheck _) (length_testChk ..)
  refine does_test hs n ht h0 hz rfl hr rfl ?_ ?_ <;>
    rw [after_testAct_check _ hm', testChk_testTaken, hu.heldAt, rawData_of_mem (hin .mem rfl)]
  · exact ((within_putRaw ..).wider rfl).onlyIn _
  · have hdata := rawData_after_putRaw (testTaken n.val s) (heldAt s (testBlk s n.val))
      (delta := xorBytes (rsCheck (rawData s (heldAt s (testBlk s n.val)))) (testChk s n.val)) (length_rawData s (heldAt s (testBlk s n.val)))
    refine ⟨?_, ?_, bit_after_latch ..⟩
    · rw [rawData_of_mem ((within_setIst ..).memory _), hdata]
    · rw [rawCheck_of_mem ((within_setIst ..).memory _) ((within_setIst ..).chk _)]
      exact rawCheck_of_delta hdata (length_testChk ..) (rawDelta_after_putRaw _ _ hlen)

theorem does_testBoth (hr : testRejected s n.val 4 = false) : Does (.testWriteBoth .ringCtl n) s [.ctl, .mem, .chk, .mergeBuf] fun t =>
    rawData t (heldAt s (testBlk s n.val)) = testData s n.val ∧ rawCheck t (heldAt s (testBlk s n.val)) = testChk s n.val ∧
    bit (rd t (mpPage n.val + 0x20)) 11 = true := by
  have hu := sameReading_testTaken n.val s (testBlk s n.val)
  have hlen : (xorBytes (rsCheck (testData s n.val)) (testChk s n.val)).length = 4 := length_xorBytes (length_rsCheck _) (length_testChk ..)
  refine does_test hs n ht h0 hz rfl hr rfl ?_ ?_ <;> rw [after_testAct_both, testData_testTaken, testChk_testTaken, hu.heldAt]
  · exact ((((within_dropFor ..).wider rfl).onlyIn _).trans (((within_storeBlk ..).wider rfl).onlyIn _)).trans
      (((within_putRaw ..).wider rfl).onlyIn _)
  · generalize after (storeBlk (testBlk s n.val) (testData s n.val)) _ = v
    have hdata := rawData_after_putRaw v (heldAt s (testBlk s n.val)) (delta := xorBytes (rsCheck (testData s n.val)) (testChk s n.val))
      (length_testData s n.val)
    refine ⟨?_, ?_, bit_after_latch ..⟩
    · rw [rawData_of_mem ((within_setIst ..).memory _), hdata]
    · rw [rawCheck_of_mem ((within_setIst ..).memory _) ((within_setIst ..).chk _)]
      exact rawCheck_of_delta hdata (length_testChk ..) (rawDelta_after_putRaw _ _ hlen)

theorem does_testRaw (hr : testRejected s n.val 5 = false) (hm : mergeOf s (testBlk s n.val) = none) :
    Does (.testReadRaw .ringCtl n) s [.ctl] fun t => RegsOnly [mpPage n.val] s t ∧
      testData t n.val = rawData s (heldAt s (testBlk s n.val)) ∧ testChk t n.val = rawCheck s (heldAt s (testBlk s n.val)) ∧
      bit (rd t (mpPage n.val + 0x20)) 11 = true := by
  have hpage := mpPage_mod n.val
  have hin := onlyIn_testTaken n.val s
  have hu := sameReading_testTaken n.val s (testBlk s n.val)
  have hm' : mergeOf (testTaken n.val s) (testBlk s n.val) = none := (mergeOf_of_buf (hin .mergeBuf rfl) _).trans hm
  refine does_test hs n ht h0 hz rfl hr rfl ?_ ?_ <;>
    rw [after_testAct_raw _ hm', hu.heldAt, rawData_of_mem (hin .mem rfl), rawCheck_of_mem (hin .mem rfl) (hin .chk rfl)]
  · exact (((within_count ..).onlyIn _).trans ((within_putTestData ..).onlyIn _)).trans ((within_wr ..).onlyIn _)
  · refine ⟨?_, ?_, ?_, bit_after_latch ..⟩
    · have hne (o : Nat) (ho : o < 4096) (x : Nat) (hx : x / 4096 * 4096 ∉ [mpPage n.val]) : x ≠ mpPage n.val + o :=
        ne_of_page hx hpage ho (by simp)
      intro x hx
      rw [(keepsReg_setIst (hne 0x20 (by decide) x hx) 11).rd, (keepsReg_wr (hne 0x180 (by decide) x hx) _).rd,
        (keepsReg_putTestData (fun j hj => by have := hne (0x140 + 4 * j) (by omega) x hx; omega) _).rd,
        KeepsReg.rd (writesIn_count (pages := [mpPage n.val]) hpage (by decide) (by simp) 1 x hx),
        rd_testTaken s (hne 0x12C (by decide) x hx) (hne 0x130 (by decide) x hx)]
    · refine testData_eq_of_words (length_rawData ..) fun j hj => ?_
      rw [(keepsReg_setIst (by omega) 11).rd, (keepsReg_wr (by omega) _).rd, rd_after_putTestData _ _ _ hj]
    · refine testChk_eq_of_word (length_rawCheck ..) ?_
      rw [(keepsReg_setIst (by omega) 11).rd, after_wr, rd_ctl_same]

end

/-! ## A decoded read (R413) -/

/-- The event of a test read, where it is asked for. -/
def testEvent (b : Nat) (wanted : Bool) (v : Verdict) : Act :=
  act wanted (match v with
    | .fixed es => corrEvent b es.length .test none
    | .bad => uncorrEvent b 2 .test none
    | .clean => nop)

theorem within_testEvent (b : Nat) (wanted : Bool) (v : Verdict) : Within [.ctl, .dumpRun, .freeCtr] (testEvent b wanted v) := by
  refine within_act ?_
  cases v
  · exact within_nop
  · exact within_corrEvent ..
  · exact within_uncorrEvent ..

theorem Above.testEvent {x : Nat} (h : Above x) (b : Nat) (wanted : Bool) (v : Verdict) : KeepsReg x (testEvent b wanted v) := by
  refine keeps_act fun _ => ?_
  cases v
  · exact keeps_nop
  · exact h.corrEvent ..
  · exact h.uncorrEvent ..

/-- An event writes in its own page, and a fatal one in the dump control of MGT_ 4. -/
theorem writesIn_raise {p : Nat} (hp : p % 4096 = 0) (c : Capture) : WritesIn [p, mgtPage 4] (raise p c) := fun x hx => by
  have hne (o : Nat) (ho : o < 4096) : x ≠ p + o := ne_of_page hx hp ho (by simp)
  refine keepsReg_raise (hne 0x20 (by decide)) ?_ fun _ => ne_of_page hx (show mgtPage 4 % 4096 = 0 by decide) (show 0x100 < 4096 by decide) (by simp)
  by_contra hcap
  exact hne (x - p) (by omega) (by omega)

theorem writesIn_testEvent (b : Nat) (wanted : Bool) (v : Verdict) : WritesIn [mpPage (blkPort b), mgtPage 4] (testEvent b wanted v) := by
  have hp := mpPage_mod (blkPort b)
  have hcount (k : Nat) (hk : k < 8) : WritesIn [mpPage (blkPort b), mgtPage 4] (count (mpPage (blkPort b)) k 1) :=
    writesIn_count hp hk (by simp) 1
  refine WritesIn.act ?_ wanted
  cases v
  · exact writesIn_nop _
  · exact WritesIn.cons (hcount 4 (by decide)) <| WritesIn.cons (writesIn_raise hp _) (writesIn_seq_nil _)
  · exact writesIn_look fun _ => WritesIn.cons (hcount 5 (by decide)) <| WritesIn.cons (writesIn_raise hp _) (writesIn_seq_nil _)

/-- What a test read finds depends on its mode, on the block, and on where the block lies. -/
theorem testVerdict_of_reading {s t : State} {n b : Nat} (h : SameReading s t b) (hchk : t.chk = s.chk)
    (hc : rd t (mpPage n + 0x120) = rd s (mpPage n + 0x120)) : testVerdict t n b = testVerdict s n b := by
  rw [testVerdict, testVerdict, h.poisoned, h.inlineOn, hc, h.heldAt, rawDelta_of_chk hchk]

theorem testRead_of_reading {s t : State} {n b : Nat} (h : SameReading s t b) (hchk : t.chk = s.chk) (hmem : t.mem = s.mem)
    (hc : rd t (mpPage n + 0x120) = rd s (mpPage n + 0x120)) : testRead t n b = testRead s n b := by
  rw [testRead, testRead, testVerdict_of_reading h hchk hc, h.heldAt, rawData_of_mem hmem]

/-- The words and the answer of a test read. -/
def testShown (n b : Nat) (data : Option (List Byte)) (v : Verdict) : Act :=
  seq [one (.out (.block n (blkLocal b) data)), wr (mpPage n + 0x12C) (BitVec.ofNat 32 (testStat v)), wr (mpPage n + 0x130) (BitVec.ofNat 32 (testEval v))]

theorem after_testAct_decode {n b : Nat} (u : State) (hm : mergeOf u b = none) : ∃ wanted, after (testAct n 6 b) u =
    after (testEvent b wanted (testVerdict u n b)) (after (testShown n b (testRead u n b) (testVerdict u n b)) (after (count (mpPage n) 0 1) u)) := by
  have hsame := sameReading_count u b (mpPage_mod n) (show 0 < 8 by decide) 1
  have hc : rd (after (count (mpPage n) 0 1) u) (mpPage n + 0x120) = rd u (mpPage n + 0x120) :=
    (keepsReg_count (by omega) (by omega) (by omega) 1).rd u
  refine ⟨bit (rd (after (count (mpPage n) 0 1) u) (mpPage n + 0x120)) 1, ?_⟩
  have e : testAct n 6 b = look fun u => seq [retireFor b, count (mpPage n) 0 1, look fun s =>
      seq [one (.out (.block n (blkLocal b) (testRead s n b))), wr (mpPage n + 0x12C) (BitVec.ofNat 32 (testStat (testVerdict s n b))),
        wr (mpPage n + 0x130) (BitVec.ofNat 32 (testEval (testVerdict s n b))),
        testEvent b (bit (rd s (mpPage n + 0x120)) 1) (testVerdict s n b)]] := rfl
  rw [e, after_look, after_seq_cons, after_seq_cons, after_seq_cons, after_seq_nil, after_retireFor_none hm, after_look]
  rw [testVerdict_of_reading hsame ((within_count ..).chk u) hc,
    testRead_of_reading hsame ((within_count ..).chk u) ((within_count ..).memory u) hc, after_seq_cons, after_seq_cons, after_seq_cons, after_seq_cons,
    after_seq_nil, testShown, after_seq_cons, after_seq_cons, after_seq_cons, after_seq_nil]

theorem does_testDecode {s : State} (hs : Ready s) (n : PortNo) (ht : Takes s (mpPage n.val / 4096))
    (h0 : bit (rd s (mpPage n.val + 0x120)) 0 = true) (hz : portZeroed s n.val = true) (hr : testRejected s n.val 6 = false)
    (hm : mergeOf s (testBlk s n.val) = none) : Does (.testReadDecode .ringCtl n) s [.ctl, .dumpRun, .freeCtr, .out] fun t =>
      RegsOnly [mpPage n.val, mgtPage 4] s t ∧
      t.out = s.out ++ [.block n.val (blkLocal (testBlk s n.val)) (testRead s n.val (testBlk s n.val))] ∧
      rd t (mpPage n.val + 0x12C) = BitVec.ofNat 32 (testStat (testVerdict s n.val (testBlk s n.val))) ∧
      bit (rd t (mpPage n.val + 0x20)) 11 = true := by
  have hpage := mpPage_mod n.val
  have hin := onlyIn_testTaken n.val s
  have hu := sameReading_testTaken n.val s (testBlk s n.val)
  have hm' : mergeOf (testTaken n.val s) (testBlk s n.val) = none := (mergeOf_of_buf (hin .mergeBuf rfl) _).trans hm
  have hc : rd (testTaken n.val s) (mpPage n.val + 0x120) = rd s (mpPage n.val + 0x120) := rd_testTaken s (by omega) (by omega)
  obtain ⟨wanted, e⟩ := after_testAct_decode (n := n.val) (testTaken n.val s) hm'
  rw [testVerdict_of_reading hu (hin .chk rfl) hc, testRead_of_reading hu (hin .chk rfl) (hin .mem rfl) hc] at e
  have hport : blkPort (testBlk s n.val) = n.val := blkPort_blkOf n.isLt _
  have habove : Above (mpPage n.val + 0x12C) := by unfold mpPage at *; exact ⟨by omega, by omega⟩
  have hshown : Within [.ctl, .out] (testShown n.val (testBlk s n.val) (testRead s n.val (testBlk s n.val)) (testVerdict s n.val (testBlk s n.val))) :=
    within_seq_cons (within_one rfl) <| within_seq_cons ((within_wr ..).wider rfl) <| within_seq_cons ((within_wr ..).wider rfl) within_seq_nil
  refine does_test hs n ht h0 hz rfl hr rfl ?_ ?_ <;> rw [e]
  · exact ((((within_count ..).wider rfl).onlyIn _).trans ((hshown.wider rfl).onlyIn _)).trans (((within_testEvent ..).wider rfl).onlyIn _)
  · refine ⟨fun x hx => ?_, ?_, ?_, bit_after_latch ..⟩
    · have hne (o : Nat) (ho : o < 4096) : x ≠ mpPage n.val + o := ne_of_page hx hpage ho (by simp)
      have hev := writesIn_testEvent (testBlk s n.val) wanted (testVerdict s n.val (testBlk s n.val)) x (by rw [hport]; exact hx)
      rw [(keepsReg_setIst (hne 0x20 (by decide)) 11).rd, hev.rd, testShown, after_seq_cons, after_seq_cons, after_seq_cons, after_seq_nil,
        (keepsReg_wr (hne 0x130 (by decide)) _).rd, (keepsReg_wr (hne 0x12C (by decide)) _).rd]
      refine Eq.trans (KeepsReg.rd (writesIn_count (pages := [mpPage n.val, mgtPage 4]) hpage (show 0 < 8 by decide) (by simp) 1 x hx) _) ?_
      exact rd_testTaken s (hne 0x12C (by decide)) (hne 0x130 (by decide))
    · rw [(within_setIst ..).out, (within_testEvent ..).out, testShown, after_seq_cons, after_seq_cons, after_seq_cons, after_seq_nil,
        (within_wr ..).out, (within_wr ..).out]
      exact congrArg (· ++ _) (((within_count ..).out _).trans (hin .out rfl))
    · rw [(keepsReg_setIst (by omega) 11).rd, (habove.testEvent ..).rd, testShown, after_seq_cons, after_seq_cons, after_seq_cons, after_seq_nil,
        (keepsReg_wr (by omega) _).rd, after_wr, rd_ctl_same]

/-- Settles O39: the fill, the scrub and the remap as their acts leave the port's memory, and the test commands one by one. -/
theorem portUpkeepAndTests : Obligations.PortUpkeepAndTests := by
  unfold Obligations.PortUpkeepAndTests
  refine ⟨⟨fun s hs n h8 h0 => does_fillDone hs n h8 h0, fun s hs n pos h0 hin hpos hbuf hc => does_patrolScrub hs n h0 hin hpos hbuf hc,
    fun s hs n e v ht => ⟨fun hok h31 h30 hm hnum hfree => does_remap hs n e ht hok h31 h30 hm hnum hfree, fun hbad => does_remapRefused hs n e ht hbad⟩⟩,
    ?_⟩
  rintro s hs n b q ht h0 hz rfl rfl
  refine ⟨fun hr => does_testGenerated hs n ht h0 hz hr, fun hr hm => does_testData hs n ht h0 hz hr hm,
    fun hr hm => does_testCheck hs n ht h0 hz hr hm, fun hr => does_testBoth hs n ht h0 hz hr, fun hr hm => does_testRaw hs n ht h0 hz hr hm,
    fun hr hm => does_testDecode hs n ht h0 hz hr hm, fun p hp hr => ?_⟩
  simp only [List.mem_cons, List.not_mem_nil, or_false] at hp
  rcases hp with rfl | rfl | rfl | rfl | rfl | rfl <;> exact does_testRejected hs n ht h0 hz rfl hr

end Sys2Proof.Machine
end

section
/-! Accesses through the unified range (R352 to R358): what they leave of the core pages, and a write that lies in one block. -/

namespace Sys2Proof.Machine

-- One declaration after the other: elaborated side by side they take more memory than the check has.
set_option Elab.async false

/-! ## Acts that write no register of a core site -/

/-- Act a writes no register at or above the pages of the core sites. -/
structure LowWrites (a : Act) : Prop where
  keeps : ∀ x, 0x1000000 ≤ x → KeepsReg x a

theorem lowWrites_nop : LowWrites nop := ⟨fun _ _ => keeps_nop⟩

theorem lowWrites_within {ps : List Part} {a : Act} (h : Within ps a) (hp : ps.contains .ctl = false := by rfl) : LowWrites a :=
  ⟨fun x _ => h.keepsReg x hp⟩

theorem lowWrites_nil : LowWrites (seq []) := ⟨fun _ _ => keeps_seq_nil⟩

theorem LowWrites.cons {a : Act} {as : List Act} (ha : LowWrites a) (has : LowWrites (seq as)) : LowWrites (seq (a :: as)) :=
  ⟨fun x hx => keeps_seq_cons (ha.keeps x hx) (has.keeps x hx)⟩

theorem LowWrites.act {a : Act} (h : LowWrites a) (c : Bool) : LowWrites (act c a) := ⟨fun x hx => keeps_act fun _ => h.keeps x hx⟩

theorem lowWrites_look {g : State → Act} (h : ∀ s, LowWrites (g s)) : LowWrites (look g) := ⟨fun x hx => keeps_look fun s => (h s).keeps x hx⟩

theorem lowWrites_each {α : Type} {xs : List α} {g : α → Act} (h : ∀ y ∈ xs, LowWrites (g y)) : LowWrites (each xs g) :=
  ⟨fun x hx => keeps_each fun y hy => (h y hy).keeps x hx⟩

theorem lowWrites_wr {a : Nat} (h : a < 0x1000000) (v : Word) : LowWrites (wr a v) := ⟨fun _ _ => keepsReg_wr (by omega) v⟩

theorem lowWrites_wrFld {a : Nat} (h : a < 0x1000000) (hi lo v : Nat) : LowWrites (wrFld a hi lo v) :=
  ⟨fun _ _ => keepsReg_wrFld (by omega) hi lo v⟩

theorem lowWrites_wrBit {a : Nat} (h : a < 0x1000000) (i : Nat) (b : Bool) : LowWrites (wrBit a i b) :=
  ⟨fun _ _ => keepsReg_wrBit (by omega) i b⟩

theorem lowWrites_setIst {p : Nat} (h : p < 0xFFF000) (i : Nat) : LowWrites (setIst p i) := lowWrites_wrBit (by omega) i true

theorem lowWrites_count {p k : Nat} (h : p < 0xFFF000) (hk : k < 8) (n : Nat) : LowWrites (count p k n) :=
  ⟨fun _ _ => keepsReg_count (by omega) (by omega) (by omega) n⟩

theorem lowWrites_raise {p : Nat} (h : p < 0xFFF000) (c : Capture) : LowWrites (raise p c) :=
  ⟨fun _ _ => keepsReg_raise (by omega) (by omega) fun _ => by omega⟩

theorem blkPort_lt (b : Nat) : blkPort b < 24 := Nat.mod_lt _ (by decide)

theorem mpPage_low {n : Nat} (h : n < 24) : mpPage n < 0x120000 := by
  unfold mpPage
  omega

theorem remapReg_low {n e : Nat} (h : n < 24) (he : e < 64) : remapReg n e < 0x1000000 := by
  have := mpPage_low h
  unfold remapReg
  omega

theorem lowWrites_corrEvent (b nsym : Nat) (src : Src) (herd : Option Nat) : LowWrites (corrEvent b nsym src herd) := by
  have := mpPage_low (blkPort_lt b)
  exact LowWrites.cons (lowWrites_count (by omega) (by decide) 1) <| LowWrites.cons (lowWrites_raise (by omega) _) lowWrites_nil

theorem lowWrites_uncorrEvent (b code : Nat) (src : Src) (herd : Option Nat) : LowWrites (uncorrEvent b code src herd) := by
  have := mpPage_low (blkPort_lt b)
  exact lowWrites_look fun _ => LowWrites.cons (lowWrites_count (by omega) (by decide) 1) <|
    LowWrites.cons (lowWrites_raise (by omega) _) lowWrites_nil

theorem lowWrites_dropMerge {m : MergeEntry} (h : m.port < 24) : LowWrites (dropMerge m) := by
  have := mpPage_low h
  exact lowWrites_look fun _ => LowWrites.cons (lowWrites_within (ps := [.mergeBuf]) (within_one rfl)) <|
    LowWrites.cons (lowWrites_wrFld (by omega) ..) lowWrites_nil

theorem lowWrites_storeBlk (b : Nat) (data : List Byte) : LowWrites (storeBlk b data) := by
  have := mpPage_low (blkPort_lt b)
  refine lowWrites_look fun s => LowWrites.cons (lowWrites_within (within_putRaw ..)) <| LowWrites.cons ?_ <|
    LowWrites.cons (lowWrites_count (by omega) (by decide) 1) lowWrites_nil
  split
  case h_1 e he => exact lowWrites_wrBit (remapReg_low (blkPort_lt b) (remapOf_lt he)) _ _
  case h_2 => exact lowWrites_nop

theorem lowWrites_retireMerge {m : MergeEntry} (h : m.port < 24) : LowWrites (retireMerge m) := by
  have := mpPage_low h
  refine lowWrites_look fun s => LowWrites.cons (lowWrites_dropMerge h) <| LowWrites.cons (lowWrites_count (by omega) (by decide) 1) <|
    LowWrites.cons (lowWrites_count (by omega) (by decide) 1) <| LowWrites.cons ?_ lowWrites_nil
  split
  · refine LowWrites.cons ?_ <| LowWrites.cons (lowWrites_storeBlk ..) lowWrites_nil
    split
    · exact lowWrites_corrEvent ..
    · exact lowWrites_nop
  · exact LowWrites.cons (lowWrites_uncorrEvent ..) <| LowWrites.cons (lowWrites_count (by omega) (by decide) 1) lowWrites_nil

theorem port_of_mergeOf {s : State} {b : Nat} {m : MergeEntry} (h : mergeOf s b = some m) : m.port < 24 := by
  rw [(entry_of_mergeOf h).1]
  exact blkPort_lt b

theorem lowWrites_retireFor (b : Nat) : LowWrites (retireFor b) := lowWrites_look fun s => by
  split
  case h_1 m hm => exact lowWrites_retireMerge (port_of_mergeOf hm)
  case h_2 => exact lowWrites_nop

theorem lowWrites_remapInto {n e : Nat} (hn : n < 24) (he : e < 64) (l : Nat) (poison : Bool) : LowWrites (remapInto n e l poison) := by
  have := mpPage_low hn
  refine LowWrites.cons (lowWrites_retireFor _) <| LowWrites.cons (lowWrites_look fun s => LowWrites.cons ?_ <|
    LowWrites.cons (lowWrites_within (within_putRaw ..)) <| LowWrites.cons (lowWrites_wr (remapReg_low hn he) _) <|
    LowWrites.cons (lowWrites_wrFld (by omega) ..) <| LowWrites.cons (lowWrites_count (by omega) (by decide) 1) <|
    LowWrites.cons (lowWrites_count (by omega) (by decide) 1) <| LowWrites.cons (lowWrites_count (by omega) (by decide) 1) lowWrites_nil) lowWrites_nil
  split
  · exact lowWrites_corrEvent ..
  · exact lowWrites_uncorrEvent ..
  · exact lowWrites_nop

theorem lowWrites_hardFault (b : Nat) (src : Src) (herd : Option Nat) : LowWrites (hardFault b src herd) := by
  have hport := blkPort_lt b
  have := mpPage_low hport
  refine lowWrites_look fun s => LowWrites.cons (lowWrites_setIst (by omega) 8) <| LowWrites.cons (lowWrites_raise (by omega) _) <|
    LowWrites.cons ?_ lowWrites_nil
  split
  · split
    case h_1 e he => exact lowWrites_remapInto hport (List.mem_range.mp (List.mem_of_find?_eq_some he)) _ _
    case h_2 => exact LowWrites.cons (lowWrites_setIst (by omega) 9) <| LowWrites.cons (lowWrites_raise (by omega) _) lowWrites_nil
  · exact lowWrites_nop

theorem lowWrites_readDecode (b : Nat) (src : Src) (herd : Option Nat) (wb verify : Bool) (noise : List (Nat × Byte)) :
    LowWrites (readDecode b src herd wb verify noise) := by
  have := mpPage_low (blkPort_lt b)
  refine lowWrites_look fun s => ?_
  dsimp only
  split
  · exact lowWrites_uncorrEvent ..
  · split
    · exact lowWrites_nop
    · exact lowWrites_uncorrEvent ..
    · refine LowWrites.cons (lowWrites_corrEvent ..) <| LowWrites.cons (LowWrites.act ?_ _) <| LowWrites.cons (LowWrites.act ?_ _) lowWrites_nil
      · exact LowWrites.cons (lowWrites_within (within_putRaw ..)) <| LowWrites.cons (lowWrites_count (by omega) (by decide) 1) <|
          LowWrites.cons (lowWrites_within (within_showErrors ..)) lowWrites_nil
      · refine LowWrites.cons (lowWrites_count (by omega) (by decide) 1) <| LowWrites.cons (lowWrites_look fun u => ?_) lowWrites_nil
        split
        · exact lowWrites_nop
        · exact lowWrites_hardFault ..

theorem lowWrites_portRead (b : Nat) (src : Src) (herd : Option Nat) (noise : List (Nat × Byte)) : LowWrites (portRead b src herd noise) := by
  have := mpPage_low (blkPort_lt b)
  refine lowWrites_look fun s => lowWrites_look fun u => ?_
  split
  case h_1 m hm => exact lowWrites_retireMerge (port_of_mergeOf hm)
  case h_2 => exact LowWrites.cons (lowWrites_count (by omega) (by decide) 1) <| LowWrites.cons (lowWrites_readDecode ..) lowWrites_nil

theorem lowWrites_entryRead (p h : Nat) : LowWrites (entryRead p h) :=
  lowWrites_look fun _ => LowWrites.act (lowWrites_look fun _ => lowWrites_readDecode ..) _

theorem lowWrites_judgeActs (h p a : Nat) (write : Bool) : LowWrites (judgeActs h p a write) := by
  have hmig : migPage 0 < 0xFFF000 := by decide
  refine lowWrites_look fun s => LowWrites.cons (lowWrites_entryRead p h) <| LowWrites.cons ?_ lowWrites_nil
  split
  · exact LowWrites.cons (lowWrites_count hmig (by decide) 1) <| LowWrites.cons (lowWrites_raise hmig _) lowWrites_nil
  · exact lowWrites_count hmig (by decide) 1
  · exact lowWrites_within (within_touch p)
  · exact lowWrites_within (within_touch p)
  · exact lowWrites_nop

theorem lowWrites_urReadActs (h a n : Nat) (src : Src) : LowWrites (urReadActs h a n src) := by
  refine lowWrites_look fun s => lowWrites_each fun p _ => LowWrites.cons (lowWrites_judgeActs ..) <|
    LowWrites.cons (lowWrites_look fun u => ?_) lowWrites_nil
  split
  · exact lowWrites_each fun q _ => lowWrites_portRead ..
  · exact lowWrites_within (within_farRequest ..)
  · exact lowWrites_nop

/-! ## What the judgement of an access depends on -/

/-- The registers and the memory that judge an access stand. -/
structure SameRange (s t : State) : Prop where
  regs : ∀ x, Above x → x < 0x1000000 → rd t x = rd s x
  straps : t.straps = s.straps
  mem : t.mem = s.mem
  chk : t.chk = s.chk
  mergeBuf : t.mergeBuf = s.mergeBuf

theorem portReg_low {n x : Nat} (hn : n < 24) (h : PortReg n x) : x < 0x1000000 := by
  obtain ⟨o, rfl, ho⟩ := h
  have := mpPage_low hn
  omega

theorem above_ssetReg {k : Nat} (hk : k < 256) : Above (ssetReg k) ∧ Above (ssetReg k + 4) ∧ ssetReg k + 4 < 0x1000000 := by
  unfold ssetReg migPage
  refine ⟨⟨by omega, by omega⟩, ⟨by omega, by omega⟩, by omega⟩

section

variable {s t : State} (h : SameRange s t)
include h

theorem SameRange.reading (b : Nat) : SameReading s t b :=
  ⟨fun x hx => h.regs x (portReg_above hx) (portReg_low (blkPort_lt b) hx), h.straps⟩

theorem SameRange.mergeOf (b : Nat) : mergeOf t b = mergeOf s b := mergeOf_of_buf h.mergeBuf b

theorem SameRange.readByte (b i : Nat) : readByte t b i = readByte s b i := by
  have hr := h.reading b
  simp only [Machine.readByte, hr.poisoned, hr.heldAt, hr.tcorr, h.mergeOf, memByte, h.mem, verdictAt, hr.inlineOn, rawDelta_of_chk h.chk]

theorem SameRange.homeEntry (p : Nat) : homeEntry t p = homeEntry s p := by
  have hbase : homeBase t = homeBase s := by rw [homeBase, homeBase, rsvBase, rsvBase, (h.reading 0).inlineOn]
  simp only [Machine.homeEntry, tableNat, tableByte, h.readByte, hbase]

theorem SameRange.readable (herd : Nat) (e : DWord) : readable t herd e = readable s herd e := by
  obtain ⟨h1, h2, hlow⟩ := above_ssetReg (k := eSset e) (fld_lt e 49 42)
  rw [Machine.readable, Machine.readable, admitted, admitted, rd64, rd64, h.regs _ h1 (by omega), h.regs _ h2 hlow]

theorem SameRange.judge (herd p : Nat) (write : Bool) : judge t herd p write = judge s herd p write := by
  rw [Machine.judge, Machine.judge, h.homeEntry, judgeAs, judgeAs, h.readable]

theorem SameRange.entryClean (p : Nat) : entryClean t p = entryClean s p := by
  have hbase : homeBase t = homeBase s := by rw [homeBase, homeBase, rsvBase, rsvBase, (h.reading 0).inlineOn]
  rw [Machine.entryClean, Machine.entryClean, hbase, (h.reading _).poisoned, (h.reading _).verdict h.chk]

end

/-- Acts that touch neither memory nor a register that judges accesses. -/
theorem SameRange.of_within {ps : List Part} {a : Act} (h : Within ps a) (hr : ∀ x, Above x → x < 0x1000000 → KeepsReg x a) (s : State)
    (h1 : ps.contains .straps = false := by rfl) (h2 : ps.contains .mem = false := by rfl) (h3 : ps.contains .chk = false := by rfl)
    (h4 : ps.contains .mergeBuf = false := by rfl) : SameRange s (after a s) :=
  ⟨fun x hx hlow => (hr x hx hlow).rd s, h.straps s h1, h.memory s h2, h.chk s h3, h.mergeBuf s h4⟩

theorem SameRange.trans {s t u : State} (h : SameRange s t) (g : SameRange t u) : SameRange s u :=
  ⟨fun x hx hlow => (g.regs x hx hlow).trans (h.regs x hx hlow), g.straps.trans h.straps, g.mem.trans h.mem, g.chk.trans h.chk,
    g.mergeBuf.trans h.mergeBuf⟩

/-! ## A write that lies in one block (R398, R399) -/

/-- An entry in a block without error is read without effect (R392). -/
theorem after_entryRead_clean {s : State} {p : Nat} (h : entryClean s p = true) (herd : Nat) : after (entryRead p herd) s = s := by
  rw [entryRead, after_look, after_act]
  split
  case isFalse => rfl
  case isTrue =>
    simp only [entryClean, Bool.and_eq_true, Bool.not_eq_true', decide_eq_true_eq] at h
    rw [tableRead, after_look]
    exact after_readDecode_clean _ _ ⟨h.2, h.1⟩ _ _ _

/-- A run within one page. -/
theorem pageParts_one {a n : Nat} (h0 : 0 < n) (h : a % 65536 + n ≤ 65536) : pageParts a n = [(a / 65536, a % 65536, n, 0)] := by
  rw [pageParts, if_neg (by omega), show (a + n - 1) / 65536 + 1 - a / 65536 = 1 by omega]
  simp only [List.range_one, List.map_cons, List.map_nil, List.cons.injEq, Prod.mk.injEq, and_true]
  omega

/-- A run within one block. -/
theorem blockParts_one {a n : Nat} (h0 : 0 < n) (h : a % 64 + n ≤ 64) : blockParts a n = [(a / 64, a % 64, n, 0)] := by
  rw [blockParts, if_neg (by omega), show (a + n - 1) / 64 + 1 - a / 64 = 1 by omega]
  simp only [List.range_one, List.map_cons, List.map_nil, List.cons.injEq, Prod.mk.injEq, and_true]
  omega

theorem after_devWrite_block {a : Nat} {bs : List Byte} (h0 : 0 < bs.length) (h : a % 64 + bs.length ≤ 64) (herd : Nat) (s : State) :
    after (devWrite a bs herd) s = if bs.length = 64 then after (portWrite (a / 64) bs) s
      else after (portNarrow (a / 64) herd (List.replicate (a % 64) none ++ bs.map some ++ List.replicate (64 - a % 64 - bs.length) none)) s := by
  rw [devWrite, blockParts_one h0 h, after_each_cons, after_each_nil]
  dsimp only
  rw [List.drop_zero, List.take_length, after_ite]

theorem lt_of_frame {s : State} {h p f : Nat} {write : Bool} (hj : judge s h p write = .frame f) : p < 2 ^ 26 := by
  by_contra hp
  rw [judge, judgeAs, if_pos (by omega)] at hj
  cases hj

/-- A write to a page of device memory whose entry is sound. -/
theorem after_urWrite_frame {s : State} {h a f : Nat} {bs : List Byte} (h0 : 0 < bs.length) (hpage : a % 65536 + bs.length ≤ 65536)
    (hj : judge s h (a / 65536) true = .frame f) (hc : entryClean s (a / 65536) = true) : after (urWrite h a bs) s =
      after (devWrite (65536 * f + a % 65536) bs h) (after (touch (a / 65536)) s) := by
  rw [urWrite, pageParts_one h0 hpage, after_each_cons, after_each_nil, after_look]
  dsimp only
  rw [hj, after_seq_cons, after_seq_cons, after_seq_cons, after_seq_nil, after_entryRead_clean hc, List.drop_zero, List.take_length]

theorem urWriteJudge_frame {s : State} {h a n f : Nat} (h0 : 0 < n) (hpage : a % 65536 + n ≤ 65536)
    (hj : judge s h (a / 65536) true = .frame f) : urWriteJudge s h a n = .ok [] := by
  rw [urWriteJudge, pageParts_one h0 hpage, List.foldl_cons, List.foldl_nil]
  dsimp only
  rw [hj]

theorem sameRange_touch (p : Nat) (s : State) : SameRange s (after (touch p) s) :=
  .of_within (within_touch p) (fun x _ _ => (within_touch p).keepsReg x) s

end Sys2Proof.Machine
end

section
/-! Vector loads and stores, and the row cache (O22). -/

namespace Sys2Proof.Machine

-- One declaration after the other: elaborated side by side they take more memory than the check has.
set_option Elab.async false

section

variable {s : State} {c k : Nat} {i : Issued} (hi : ((coreX s c).issued.filter (fun i => decide (i.part = 2) &&
  (decide (opOf 2 i.word = 1) || decide (opOf 2 i.word = 2)) && i.started && !i.faulted))[k]? = some i)
include hi

theorem after_vld_store (hop : opOf 2 i.word = 1) (h0 : bit i.word 0 = false) {found : List Cell}
    (hbad : stBad s c (wordsOf (32 * i.addr) 64) found = false) : after (actVectorAccessComplete c k found) s =
      after (retire c i) (after (vPut c (fld i.word 25 20) (BitVec.ofNat 512 (leNat (stBytes s c (32 * i.addr) 64))))
        (after (stFoundAll c (wordsOf (32 * i.addr) 64) found) (after (stCount c 2) s))) := by
  rw [actVectorAccessComplete, after_look, hi]
  dsimp only
  rw [if_pos hop, h0, if_neg (by decide), hbad, if_neg (by decide), after_seq_cons, after_seq_cons, after_seq_cons, after_seq_nil, after_seq_cons,
    after_seq_cons, after_seq_nil]

theorem after_vld_range (hop : opOf 2 i.word = 1) (h0 : bit i.word 0 = true) {found : List Cell} {bs : List Byte}
    (hbs : rcRead (after (rcParity c (32 * i.addr) 64 found) s) c (32 * i.addr) 64 = .ok bs) : after (actVectorAccessComplete c k found) s =
      after (retire c i) (after (vPut c (fld i.word 25 20) (BitVec.ofNat 512 (leNat bs)))
        (after (rcReadActs c (32 * i.addr) 64) (after (rcParity c (32 * i.addr) 64 found) s))) := by
  rw [actVectorAccessComplete, after_look, hi]
  dsimp only
  rw [if_pos hop, h0, if_pos rfl, after_seq_cons, after_seq_cons, after_seq_nil, after_look, hbs]
  dsimp only
  rw [after_seq_cons, after_seq_cons, after_seq_nil, after_seq_cons, after_seq_cons, after_seq_nil]

theorem after_vst_store (hop : opOf 2 i.word = 2) (h0 : bit i.word 0 = false) (found : List Cell) : after (actVectorAccessComplete c k found) s =
    after (retire c i) (after (stWrite c (32 * i.addr) (leBytes 64 (vGet s c (fld i.word 25 20)).toNat)) (after (stCount c 2) s)) := by
  rw [actVectorAccessComplete, after_look, hi]
  dsimp only
  rw [if_neg (by omega), h0, if_neg (by decide), after_seq_cons, after_seq_cons, after_seq_cons, after_seq_nil]

theorem after_vst_range (hop : opOf 2 i.word = 2) (h0 : bit i.word 0 = true) (hj : urWriteJudge s (herdNo s c) (32 * i.addr) 64 = .ok [])
    (found : List Cell) : after (actVectorAccessComplete c k found) s = after (retire c i)
      (after (rcUpdate c (32 * i.addr) (leBytes 64 (vGet s c (fld i.word 25 20)).toNat))
        (after (urWrite (herdNo s c) (32 * i.addr) (leBytes 64 (vGet s c (fld i.word 25 20)).toNat)) s)) := by
  rw [actVectorAccessComplete, after_look, hi]
  dsimp only
  rw [if_neg (by omega), h0, if_pos rfl, hj]
  dsimp only
  rw [after_seq_cons, after_seq_cons, after_seq_cons, after_seq_nil]

end

/-! ## The row cache leaves the instructions in flight -/

theorem keeps_issued_rcParity (c a n : Nat) (found : List Cell) : Keeps (fun s => (coreX s c).issued) (rcParity c a n found) :=
  keeps_each fun _ _ => keeps_look fun _ => keeps_act fun _ => keeps_seq_cons (keeps_setCore (·.issued) c c) <|
    keeps_seq_cons (Within.keepsCore (within_coreEvent ..) (·.issued) c) keeps_seq_nil

theorem keeps_issued_rcFill (c l : Nat) : Keeps (fun s => (coreX s c).issued) (rcFill c l) := by
  refine keeps_look fun s => keeps_ite (fun _ => keeps_nop) fun _ => keeps_seq_cons (Within.keepsCore (within_urReadActs ..) (·.issued) c) <|
    keeps_seq_cons ?_ keeps_seq_nil
  split
  · exact keeps_seq_cons (keeps_setCore (·.issued) c c) <|
      keeps_seq_cons (keeps_act fun _ => Within.keepsCore (within_takeFree 1) (·.issued) c) keeps_seq_nil
  · exact keeps_nop

theorem keeps_issued_rcReadActs (c a n : Nat) : Keeps (fun s => (coreX s c).issued) (rcReadActs c a n) :=
  keeps_look fun _ => keeps_ite (fun _ => Within.keepsCore (within_urReadActs ..) (·.issued) c) fun _ =>
    keeps_each fun _ _ => keeps_look fun _ => keeps_ite (fun _ => Within.keepsCore (within_count ..) (·.issued) c) fun _ =>
      keeps_seq_cons (Within.keepsCore (within_count ..) (·.issued) c) <| keeps_seq_cons (keeps_issued_rcFill c _) keeps_seq_nil

section

variable {s : State} (hs : Ready s) (c : Site) {k : Nat} {i : Issued}
  (hi : ((coreX s c.val).issued.filter (fun i => decide (i.part = 2) &&
    (decide (opOf 2 i.word = 1) || decide (opOf 2 i.word = 2)) && i.started && !i.faulted))[k]? = some i)
include hs hi

theorem does_vld_store (hop : opOf 2 i.word = 1) (h0 : bit i.word 0 = false) {found : List Cell} (hn : NoneBad s c.val (wordsOf (32 * i.addr) 64) found) :
    Does (.vectorAccessComplete c k found) s [.ctl, .core, .vreg, .dumpRun, .freeCtr] fun t =>
      RegsOnly [corePage c.val] s t ∧ CoreIs s t c.val { coreX s c.val with issued := dropInsn (coreX s c.val) i } ∧
      ∀ d r, r < 64 → vGet t d r = if d = c.val ∧ r = fld i.word 25 20 then BitVec.ofNat 512 (leNat (stBytes s c.val (32 * i.addr) 64))
        else vGet s d r := by
  have hbad : stBad s c.val (wordsOf (32 * i.addr) 64) found = false := stBad_of_noneBad hn hn.1 fun _ h => h
  have hv : fld i.word 25 20 < 64 := fld_lt i.word 25 20
  obtain ⟨hframe, hregs⟩ := readable_access (pages := [corePage c.val]) (by simp) (wordsOf (32 * i.addr) 64) found 2 hbad
  refine does_of_run hs.1 rfl ?_ ?_ <;> rw [after_vld_store hi hop h0 hbad]
  · exact ((hframe.wider rfl).trans (((within_vPut ..).wider rfl).onlyIn _)).trans (((within_retire ..).wider rfl).onlyIn _)
  · generalize after (stFoundAll c.val _ _) _ = u at hframe hregs
    have hcore : CoreIs s u c.val (coreX s c.val) := ⟨coreX_of_core (hframe .core rfl) _, fun d _ => coreX_of_core (hframe .core rfl) d⟩
    refine ⟨(hregs.trans ((within_vPut ..).regsOnly _ u)).trans ((within_retire ..).regsOnly _ _), (hcore.within (within_vPut ..)).retire i,
      fun d r hr => ?_⟩
    rw [vGet_of_vreg ((within_retire ..).vreg _), vGet_after_vPut _ _ _ _ _ _ hv hr, vGet_of_vreg (hframe .vreg rfl)]

theorem does_vld_range (hop : opOf 2 i.word = 1) (h0 : bit i.word 0 = true) {found : List Cell} {bs : List Byte}
    (hbs : rcRead (after (rcParity c.val (32 * i.addr) 64 found) s) c.val (32 * i.addr) 64 = .ok bs) :
    Does (.vectorAccessComplete c k found) s [.ctl, .core, .vreg, .mem, .chk, .mergeBuf, .touched, .dumpRun, .freeCtr, .out] fun t =>
      (coreX t c.val).issued = dropInsn (coreX s c.val) i ∧
      ∀ d r, r < 64 → vGet t d r = if d = c.val ∧ r = fld i.word 25 20 then BitVec.ofNat 512 (leNat bs) else vGet s d r := by
  have hv : fld i.word 25 20 < 64 := fld_lt i.word 25 20
  refine does_of_run hs.1 rfl ?_ ?_ <;> rw [after_vld_range hi hop h0 hbs]
  · exact ((((within_rcParity ..).wider rfl).onlyIn s).trans (((within_rcReadActs ..).wider rfl).onlyIn _)).trans
      ((((within_vPut ..).wider rfl).onlyIn _).trans (((within_retire ..).wider rfl).onlyIn _))
  · refine ⟨?_, fun d r hr => ?_⟩
    · rw [(coreIs_retire ..).1]
      dsimp only
      have h : (coreX (after (vPut c.val (fld i.word 25 20) (BitVec.ofNat 512 (leNat bs))) (after (rcReadActs c.val (32 * i.addr) 64)
          (after (rcParity c.val (32 * i.addr) 64 found) s))) c.val).issued = (coreX s c.val).issued := by
        rw [(within_vPut ..).coreX]
        exact ((keeps_issued_rcReadActs ..).eq _).trans ((keeps_issued_rcParity ..).eq s)
      rw [dropInsn, h, dropInsn]
    · rw [vGet_of_vreg ((within_retire ..).vreg _), vGet_after_vPut _ _ _ _ _ _ hv hr, vGet_of_vreg ((within_rcReadActs ..).vreg _),
        vGet_of_vreg ((within_rcParity ..).vreg _)]

theorem does_vst_store (hop : opOf 2 i.word = 2) (h0 : bit i.word 0 = false) (ha : 32 * i.addr + 64 ≤ 1572864) (found : List Cell) :
    Does (.vectorAccessComplete c k found) s [.ctl, .core, .store, .storeBad] fun t =>
      RegsOnly [corePage c.val] s t ∧ CoreIs s t c.val { coreX s c.val with issued := dropInsn (coreX s c.val) i } ∧
      ∀ d b, b < 1572864 → stByte t d b = if d = c.val ∧ 32 * i.addr ≤ b ∧ b < 32 * i.addr + 64 then
        BitVec.ofNat 8 ((vGet s c.val (fld i.word 25 20)).toNat / 2 ^ (8 * (b - 32 * i.addr))) else stByte s d b := by
  have pages := pages_of_site c.val
  refine does_of_run hs.1 rfl ?_ ?_ <;> rw [after_vst_store hi hop h0]
  · exact ((((within_stCount ..).wider rfl).onlyIn s).trans (((within_stWrite ..).wider rfl).onlyIn _)).trans
      (((within_retire ..).wider rfl).onlyIn _)
  · refine ⟨?_, ((coreIs_refl s c.val).within (within_stCount ..)).within (within_stWrite ..) |>.retire i, fun d b hb => ?_⟩
    · exact ((WritesIn.regsOnly (writesIn_count (by omega) (by decide) (by simp) 2) s).trans ((within_stWrite ..).regsOnly _ _)).trans
        ((within_retire ..).regsOnly _ _)
    · rw [stByte_of_store ((within_retire ..).store _), stByte_after_stWrite _ _ _ _ _ _ (by rw [length_leBytes]; exact ha) hb, length_leBytes,
        stByte_of_store ((within_stCount ..).store s)]
      split
      case isTrue h =>
        obtain ⟨-, hlo, hhi⟩ := h
        rw [leBytes_eq_map, List.getD_eq_getElem _ _ (by rw [List.length_map, List.length_range]; omega), List.getElem_map, List.getElem_range]
      case isFalse => rfl

theorem does_vst_range (hop : opOf 2 i.word = 2) (h0 : bit i.word 0 = true) {f b : Nat} (heven : i.addr % 2 = 0)
    (hj : judge s (herdNo s c.val) (i.addr / 2048) true = .frame f) (hb : b = 1024 * f + i.addr / 2 % 1024) (hm : mergeOf s b = none)
    (hc : entryClean s (i.addr / 2048) = true) (found : List Cell) :
    Does (.vectorAccessComplete c k found) s [.ctl, .core, .mem, .chk, .mergeBuf, .touched] fun t =>
      (coreX t c.val).issued = dropInsn (coreX s c.val) i ∧
      readBlk t b = some (leBytes 64 (vGet s c.val (fld i.word 25 20)).toNat) ∧
      ∀ a, a / 64 ≠ heldAt s b → memByte t a = memByte s a := by
  generalize hbs : leBytes 64 (vGet s c.val (fld i.word 25 20)).toNat = bs
  have hlen : bs.length = 64 := by rw [← hbs, length_leBytes]
  have hp : 32 * i.addr / 65536 = i.addr / 2048 := by omega
  have hj' := hp ▸ hj
  have hw : after (urWrite (herdNo s c.val) (32 * i.addr) bs) s = after (storeBlk b bs) (after (dropFor b) (after (touch (i.addr / 2048)) s)) := by
    rw [after_urWrite_frame (by omega) (by omega) hj' (by rw [hp]; exact hc), after_devWrite_block (by omega) (by omega), if_pos hlen, hp,
      show (65536 * f + 32 * i.addr % 65536) / 64 = b by omega, portWrite, after_seq_cons, after_seq_cons, after_seq_nil]
  have hdrop : after (dropFor b) (after (touch (i.addr / 2048)) s) = after (touch (i.addr / 2048)) s := by
    rw [dropFor, after_look, (sameRange_touch (i.addr / 2048) s).mergeOf, hm]
    rfl
  rw [hdrop] at hw
  have htouch := sameRange_touch (i.addr / 2048) s
  have honly : OnlyIn [.touched] s (after (touch (i.addr / 2048)) s) := (within_touch _).onlyIn s
  generalize after (touch (i.addr / 2048)) s = u at hw htouch honly
  obtain ⟨-, hread⟩ := readBlk_after_storeBlk ((htouch.mergeOf b).trans hm) hlen
  have hstored := (stored_after_storeBlk u b hlen).earlier (htouch.reading b) htouch.mem
  have hrc (t : State) : SameRange t (after (retire c.val i) (after (rcUpdate c.val (32 * i.addr) bs) t)) :=
    (SameRange.of_within (within_rcUpdate ..) (fun x _ _ => (within_rcUpdate ..).keepsReg x) t).trans
      (.of_within (within_retire ..) (fun x _ _ => (within_retire ..).keepsReg x) _)
  have e := after_vst_range hi hop h0 (urWriteJudge_frame (by decide) (by omega) hj') found
  rw [hbs, hw] at e
  refine does_of_run hs.1 rfl ?_ ?_ <;> rw [e]
  · exact (((honly.wider rfl).trans (((within_storeBlk ..).wider rfl).onlyIn u)).trans (((within_rcUpdate ..).wider rfl).onlyIn _)).trans
      (((within_retire ..).wider rfl).onlyIn _)
  · refine ⟨?_, ?_, fun a ha => ?_⟩
    · have hx : (coreX (after (rcUpdate c.val (32 * i.addr) bs) (after (storeBlk b bs) u)) c.val).issued = (coreX s c.val).issued := by
        refine ((keeps_setCore (·.issued) c.val c.val).eq _).trans ?_
        rw [(within_storeBlk ..).coreX, coreX_of_core (honly .core rfl)]
      rw [(coreIs_retire ..).1]
      dsimp only
      rw [dropInsn, hx, dropInsn]
    · have h := hrc (after (storeBlk b bs) u)
      rw [(h.reading b).readBlk h.chk h.mem h.mergeBuf, hread]
    · rw [memByte, (hrc _).mem, ← memByte, hstored.others a ha]

omit hi in
theorem does_rowCacheFill {k : Nat} (hi : ((coreX s c.val).issued.filter (fun i => decide (i.part = 2) &&
    (decide (opOf 2 i.word = 1) || decide (opOf 2 i.word = 2)) && i.started && !i.faulted))[k]? = some i)
    (hop : opOf 2 i.word = 1) (h0 : bit i.word 0 = true) {l : Nat} {bs : List Byte} (hl : (linesOf (32 * i.addr) 64).contains l = true)
    (hon : rcOn s c.val = true) (hnone : rcLine s c.val l = none) (hread : urRead s (herdNo s c.val) (128 * l) 128 = .ok bs)
    (hroom : (coreX s c.val).rowCache.length < 512) :
    Does (.rowCacheFill c l) s [.ctl, .core, .mem, .chk, .mergeBuf, .touched, .dumpRun, .freeCtr, .out] fun t =>
      (coreX t c.val).rowCache = (coreX s c.val).rowCache ++ [(l, BitVec.ofNat 1024 (leNat bs))] ∧
      (coreX t c.val).issued = (coreX s c.val).issued := by
  obtain ⟨hmem, hsel⟩ := List.mem_filter.mp (List.mem_of_getElem? hi)
  simp only [Bool.and_eq_true, decide_eq_true_eq, Bool.not_eq_true'] at hsel
  obtain ⟨⟨⟨hpart, -⟩, hstart⟩, hfault⟩ := hsel
  have htile : isTileOp i = false := by rw [isTileOp, hpart]; rfl
  have e : after (actRowCacheFill c.val l) s = after (rcFill c.val l) s := by
    rw [actRowCacheFill, after_look, after_act, if_pos]
    rw [hon, Bool.true_and, List.any_eq_true]
    refine ⟨i, hmem, ?_⟩
    rw [hstart, hfault, htile, if_neg (by decide), hpart, hop, h0, hl]
    decide
  have hfull : decide (512 ≤ (coreX s c.val).rowCache.length) = false := decide_eq_false (by omega)
  have e' : after (rcFill c.val l) s = after (setCore c.val (fun x => { x with rowCache := x.rowCache ++ [(l, BitVec.ofNat 1024 (leNat bs))] }))
      (after (urReadActs (herdNo s c.val) (128 * l) 128 .mesh) s) := by
    rw [rcFill, after_look, hnone, Option.isSome_none, if_neg (by decide), hread, after_seq_cons, after_seq_cons, after_seq_nil]
    dsimp only
    rw [hfull, after_seq_cons, after_seq_cons, after_seq_nil]
    rfl
  have hx := (within_urReadActs (herdNo s c.val) (128 * l) 128 .mesh).coreX s c.val
  refine does_of_run hs.1 rfl ?_ ?_ <;> rw [e, e']
  · exact (((within_urReadActs ..).wider rfl).onlyIn s).trans (((within_setCore ..).wider rfl).onlyIn _)
  · rw [(coreIs_setCore ..).1, hx]
    exact ⟨rfl, rfl⟩

end

/-- Settles O22: loads and stores of the core store byte by byte, and of the unified range as its reads and writes go. -/
theorem vectorAccesses : Obligations.VectorAccesses := by
  unfold Obligations.VectorAccesses
  exact fun s hs c k i hi => ⟨fun hop h0 found hn => does_vld_store hs c hi hop h0 hn, fun hop h0 found bs hbs => does_vld_range hs c hi hop h0 hbs,
    fun hop h0 ha found => does_vst_store hs c hi hop h0 ha found,
    fun hop h0 f b heven hj hb hm hc found => does_vst_range hs c hi hop h0 heven hj hb hm hc found,
    fun hop h0 l bs hl hon hnone hread hroom => does_rowCacheFill hs c hi hop h0 hl hon hnone hread hroom⟩

end Sys2Proof.Machine
end

section
/-! The messages of the management port: MCTP control and PLDM (O57), SPDM (O59). -/

namespace Sys2Proof.Machine

-- One declaration after the other: elaborated side by side they take more memory than the check has.
set_option Elab.async false

theorem exec_next {c : Instr} {s t : State} {a : Act} (hs : powered s = true) (hc : exec c s = run a s) (h : after a s = t) : exec c s = .next t := by
  rw [hc, run_powered hs, h]

theorem after_say (type code : Nat) (body : List Byte) (s : State) :
    after (say type code body) s = said s (BitVec.ofNat 8 type) (BitVec.ofNat 8 code) body := rfl

theorem after_setMgmt (f : Mgmt → Mgmt) (s : State) : after (setMgmt f) s = { s with mgmt := f s.mgmt } := rfl

/-! ## MCTP control and PLDM -/

theorem after_mctp {s : State} (h : heldInReset s = false) (code : Nat) (eff : Act) (body : State → List Byte) :
    after (mctp code eff body) s = after (say 0 code (0 :: body (after eff s))) (after eff s) := by
  rw [mctp, after_look, h, after_act, if_pos (by decide), after_seq_cons, after_seq_cons, after_seq_nil, after_look]

theorem after_mctp_held {s : State} (h : heldInReset s = true) (code : Nat) (eff : Act) (body : State → List Byte) : after (mctp code eff body) s = s := by
  rw [mctp, after_look, h, after_act, if_neg (by decide)]

theorem after_pldm_held {s : State} (h : heldInReset s = true) (extra : List Nat) (code : Nat) (eff : Act) : after (pldm extra code eff) s = s := by
  rw [pldm, after_look, h, after_act, if_neg (by decide)]

theorem after_spdm_held {s : State} (h : heldInReset s = true) (keep : Bool) (ok : Mgmt → Bool) (body : Act) : after (spdm keep ok body) s = s := by
  rw [spdm, after_look, h, after_act, if_neg (by decide)]

theorem after_pldm {s : State} (h : heldInReset s = false) {extra : List Nat} (hd : devState s ∈ [1, 2] ++ extra) (code : Nat) (eff : Act) :
    after (pldm extra code eff) s = after eff s := by
  rw [pldm, after_look, h, after_act, if_pos (by decide), after_ite, if_pos (List.contains_iff_mem.2 hd)]

theorem after_pldm_notReady {s : State} (h : heldInReset s = false) {extra : List Nat} (hd : devState s ∉ [1, 2] ++ extra) (code : Nat) (eff : Act) :
    after (pldm extra code eff) s = after (say 1 code [4]) s := by
  rw [pldm, after_look, h, after_act, if_pos (by decide), after_ite, if_neg (mt List.contains_iff_mem.1 hd)]

theorem after_pldmRead {s : State} (h : heldInReset s = false) {extra : List Nat} (hd : devState s ∈ [1, 2] ++ extra) (code : Nat)
    (body : State → List Byte) : after (pldmRead extra code body) s = after (say 1 code (0 :: body s)) s := by
  rw [pldmRead, after_pldm h hd, after_look]

/-- A request that only answers. -/
theorem exec_pldmRead {c : Instr} {s : State} (hs : powered s = true) (h : heldInReset s = false) {extra : List Nat}
    (hd : devState s ∈ [1, 2] ++ extra) {code : Nat} {body : State → List Byte} (hc : exec c s = run (pldmRead extra code body) s) :
    exec c s = .next (said s 1 (BitVec.ofNat 8 code) (0 :: body s)) :=
  exec_next hs hc (after_pldmRead h hd code body)

section

variable {s : State} (hs : powered s = true) (h : heldInReset s = false)
include hs h

theorem controlMessages (eid type selector : Byte) :
    exec (.setEndpointId eid) s = .next { s with
      mgmt := { s.mgmt with eid := eid }
      out := s.out ++ [.message 0 1 [0, 0, eid, 0]] } ∧
    exec .getEndpointId s = .next (said s 0 2 (0 :: s.mgmt.eid :: std 2 0 0)) ∧
    exec .getEndpointUuid s = .next (said s 0 3 (0 :: Config.endpointUuid)) ∧
    exec (.getMctpVersionSupport type) s = .next (said s 0 4 (0 :: std 3 type.toNat 0)) ∧
    exec .getMessageTypeSupport s = .next (said s 0 5 [0, 4, 0x00, 0x01, 0x05, 0x7F]) ∧
    exec (.getVendorDefinedMessageSupport selector) s =
      .next (said s 0 6 (0 :: ((leBytes 4 s.fuses.pen.toNat).reverse ++ std 4 selector.toNat 0))) :=
  ⟨exec_next hs rfl (after_mctp h ..), exec_next hs rfl (after_mctp h ..), exec_next hs rfl (after_mctp h ..),
    exec_next hs rfl (after_mctp h ..), exec_next hs rfl (after_mctp h ..), exec_next hs rfl (after_mctp h ..)⟩

theorem requestsOfEveryState (hd : devState s ∈ [1, 2] ++ [3, 4]) (tid type : Byte) (n : Nat) :
    exec .getTid s = .next (said s 1 2 [0, s.mgmt.tid]) ∧
    exec (.setTid tid) s = .next { s with
      mgmt := { s.mgmt with tid := tid }
      out := s.out ++ [.message 1 1 [0]] } ∧
    exec (.getPldmVersion type) s = .next (said s 1 3 (0 :: std 5 type.toNat 0)) ∧
    exec .getPldmTypes s = .next (said s 1 4 (0 :: leBytes 8 0x35)) ∧
    exec (.getPldmCommands type) s = .next (said s 1 5 (0 :: std 6 type.toNat (devState s))) ∧
    exec .getPdrRepositoryInfo s = .next (said s 1 0x50 (0 :: std 7 0 0)) ∧
    exec (.getPdr n) s = .next (said s 1 0x51 (0 :: std 8 n 0)) ∧
    exec (.getStateSensorReadings 0) s = .next (said s 1 0x21 (0 :: leBytes 4 (devState s) ++ std 10 0 (devState s))) := by
  refine ⟨exec_next hs rfl (after_pldmRead h hd ..), exec_next hs rfl (after_pldm h hd ..), exec_next hs rfl (after_pldmRead h hd ..), exec_next hs rfl (after_pldmRead h hd ..),
    exec_next hs rfl (after_pldmRead h hd ..), exec_pldmRead hs h hd (code := 0x50) (body := fun _ => std 7 0 0) rfl,
    exec_pldmRead hs h hd (code := 0x51) (body := fun _ => std 8 n 0) rfl, exec_next hs rfl ?_⟩
  exact after_pldm (extra := if (0 : Nat) = 0 then [3, 4] else []) h hd ..

theorem exec_getStateSensorReadings (hd : devState s = 1 ∨ devState s = 2) {n v : Nat} (hv : stateSensor s n = some v) :
    exec (.getStateSensorReadings n) s = .next (said s 1 0x21 (0 :: leBytes 4 v ++ std 10 n v)) := by
  refine exec_next hs rfl (Eq.trans (after_pldm h ?_ ..) ?_)
  · exact List.mem_append_left _ (by simpa using hd)
  · rw [after_look, hv]
    rfl

theorem exec_getSensorReading (hd : devState s ∈ [1, 2] ++ []) (n : Nat) :
    (∀ v, numericSensor s n = some v → exec (.getSensorReading n) s = .next (said s 1 0x11 (0 :: leBytes 2 v ++ std 9 n v))) ∧
    (numericSensor s n = none → exec (.getSensorReading n) s = .next (said s 1 0x11 [0x80])) := by
  constructor
  · intro v hv
    refine exec_next hs rfl (Eq.trans (after_pldm h hd ..) ?_)
    rw [after_look, hv]
    rfl
  · intro hv
    refine exec_next hs rfl (Eq.trans (after_pldm h hd ..) ?_)
    rw [after_look, hv]
    rfl

theorem exec_getFruRecordTable (hd : devState s ∈ [1, 2] ++ []) (n : Nat) :
    ∃ mid tail : List Byte, exec (.getFruRecordTable n) s =
      .next (said s 1 2 (0 :: (leBytes 16 s.fuses.dieId.toNat ++ [s.fuses.grade] ++ mid ++ s.mgmt.board ++ tail))) := by
  refine ⟨regBytes s (secPage 0 + 0x104) 1 ++ (List.range 8).flatMap (fun n => regBytes s (bxPage n + 0x140) 13), std 14 n 0, ?_⟩
  rw [← List.append_assoc]
  exact exec_next hs rfl (after_pldmRead h hd ..)

omit hs in
theorem after_poll_empty (hd : devState s ∈ [1, 2] ++ []) (hq : s.evQueue = []) :
    after actPollForPlatformEventMessage s = after (say 1 0x0B (0 :: std 12 0 0)) s := by
  rw [actPollForPlatformEventMessage, after_pldm h hd, after_look, hq]

omit hs in
theorem after_poll (hd : devState s ∈ [1, 2] ++ []) {m : EvMsg} {ms : List EvMsg} (hq : s.evQueue = m :: ms) :
    after actPollForPlatformEventMessage s = after (act ms.isEmpty (one (.out (.pinAlert false))))
      (after (say 1 0x0B (0 :: 0x01 :: m.evClass :: m.data)) (after (wrFld evQstat 6 0 ms.length) (after (one (.evQueue ms)) s))) := by
  rw [actPollForPlatformEventMessage, after_pldm h hd, after_look, hq]
  dsimp only
  rw [after_seq_cons, after_seq_cons, after_seq_cons, after_seq_cons, after_seq_nil]

theorem does_poll (hd : devState s ∈ [1, 2] ++ []) {m : EvMsg} {ms : List EvMsg} (hq : s.evQueue = m :: ms) (hl : ms.length < 64) :
    Does .pollForPlatformEventMessage s [.ctl, .evQueue, .out] fun t => t.evQueue = ms ∧ fld (rd t evQstat) 6 0 = ms.length ∧
      t.out = s.out ++ [.message 1 0x0B (0 :: 0x01 :: m.evClass :: m.data)] ++ (if ms = [] then [.pinAlert false] else []) ∧
      RegsAt [evQstat] s t := by
  have hrd : ∀ a, rd (after actPollForPlatformEventMessage s) a =
      rd (after (wrFld evQstat 6 0 ms.length) (after (one (.evQueue ms)) s)) a := by
    intro a
    rw [after_poll h hd hq]
    cases ms <;> rfl
  have hw := after_poll h hd hq
  refine does_of_run hs rfl ((within_actPollForPlatformEventMessage ..).onlyIn s) ⟨?_, ?_, ?_, ?_⟩
  · rw [hw]
    cases ms <;> rfl
  · rw [hrd, wrFld, after_look, wr, after_one, rd_ctl_same, fld_setFld _ (by decide) (by decide), Nat.mod_eq_of_lt (by omega)]
  · rw [hw]
    cases ms with
    | nil => rfl
    | cons => exact (List.append_nil _).symm
  · intro a ha
    rw [hrd]
    exact rd_ctl_other _ (by simpa using ha) _

end

/-- Settles O57: each request reads what it answers, and the acts that set a value say so. -/
theorem messagesServed : Obligations.MessagesServed := by
  unfold Obligations.MessagesServed
  constructor
  · intro s hs h eid tid type selector enable receiver n
    obtain ⟨h1, h2, h3, h4, h5, h6⟩ := controlMessages hs.1 h eid type selector
    refine ⟨h1, h2, h3, h4, h5, h6, fun hl hu => ?_, fun hd => ?_⟩
    · refine requestsOfEveryState hs.1 h ?_ tid type n
      simp only [List.cons_append, List.nil_append, List.mem_cons, List.not_mem_nil]
      omega
    · have hr : devState s ∈ [1, 2] ++ [] := by simpa using hd
      obtain ⟨hsome, hnone⟩ := exec_getSensorReading hs.1 h hr n
      exact ⟨hsome, hnone, fun v => exec_getStateSensorReadings hs.1 h hd, exec_next hs.1 rfl (after_pldm h hr ..),
        exec_next hs.1 rfl (after_pldmRead h hr ..), exec_next hs.1 rfl (after_pldm h hr ..), exec_next hs.1 rfl (after_pldmRead h hr ..),
        exec_getFruRecordTable hs.1 h hr n, fun hq => exec_next hs.1 rfl (after_poll_empty h hr hq),
        fun m ms => does_poll hs.1 h hr⟩
  · intro s hs
    constructor
    · intro c hc h
      simp only [List.mem_cons, List.not_mem_nil, or_false] at hc
      obtain rfl | rfl | rfl | rfl | rfl := hc
      · exact exec_next hs.1 rfl (after_pldm_held h ..)
      · exact exec_next hs.1 rfl (after_pldm_held h ..)
      · exact exec_next hs.1 rfl (after_pldm_held h ..)
      · exact exec_next hs.1 rfl (after_mctp_held h ..)
      · exact exec_next hs.1 rfl (after_spdm_held h ..)
    · intro h hd
      exact ⟨exec_next hs.1 rfl (after_pldm_notReady h (by rw [hd]; decide) ..), exec_next hs.1 rfl (after_pldm_notReady h (by rw [hd]; decide) ..)⟩

/-! ## SPDM -/

/-- The management port's state once a request other than the fetching one has discarded the pending signature (R623). -/
def unsigned (m : Mgmt) : Mgmt := { m with pending := none, pqReady := false }

theorem after_spdm {s : State} (h : heldInReset s = false) (hd : devState s = 1 ∨ devState s = 2) {ok : Mgmt → Bool} (hok : ok s.mgmt = true)
    (body : Act) : after (spdm false ok body) s = after body { s with mgmt := unsigned s.mgmt } := by
  rw [spdm, after_look, h, after_act, if_pos (by decide), after_ite, if_pos hd, after_seq_cons, after_seq_cons, after_seq_nil, after_ite, if_pos hok]
  rfl

theorem after_spdm_unexpected {s : State} (h : heldInReset s = false) (hd : devState s = 1 ∨ devState s = 2) {ok : Mgmt → Bool}
    (hok : ok s.mgmt = false) (body : Act) : after (spdm false ok body) s = said { s with mgmt := unsigned s.mgmt } 5 0x7F [4] := by
  rw [spdm, after_look, h, after_act, if_pos (by decide), after_ite, if_pos hd, after_seq_cons, after_seq_cons, after_seq_nil, after_ite,
    if_neg (by rw [hok]; decide)]
  rfl

/-- The request that fetches the composite signature keeps it. -/
theorem after_spdm_keep {s : State} (h : heldInReset s = false) (hd : devState s = 1 ∨ devState s = 2) {ok : Mgmt → Bool} (hok : ok s.mgmt = true)
    (body : Act) : after (spdm true ok body) s = after body s := by
  rw [spdm, after_look, h, after_act, if_pos (by decide), after_ite, if_pos hd, after_seq_cons, after_seq_cons, after_seq_nil, after_ite, if_pos hok]
  rfl

theorem after_spdm_busy {s : State} (h : heldInReset s = false) (h1 : devState s ≠ 1) (h2 : devState s ≠ 2) (keep : Bool) (ok : Mgmt → Bool)
    (body : Act) : after (spdm keep ok body) s = said s 5 0x7F [3] := by
  rw [spdm, after_look, h, after_act, if_pos (by decide), after_ite, if_neg (by tauto)]
  rfl

theorem after_note (bs : List Byte) (s : State) :
    after (note bs) s = { s with mgmt := { s.mgmt with transcript := s.mgmt.transcript ++ bs } } := rfl

theorem regRead_congr {s t : State} (hb : blockOf t = blockOf s) (hv : viewWord t = viewWord s) (hs : shown t = shown s)
    (hd : distWord t = distWord s) (hr : rodWord t = rodWord s) : regRead t = regRead s := by
  funext a
  rw [regRead, regRead, hb, hv, hs, hd, hr]

theorem fullRead_congr {s t : State} (hp : rstBusy t = rstBusy s) (hu : unitWord t = unitWord s) (hb : blockOf t = blockOf s)
    (hg : regRead t = regRead s) : fullRead t = fullRead s := by
  funext a
  rw [fullRead, fullRead, hb, hp, hu, hg]

section

variable (s : State) (m : Mgmt)

theorem blockOf_mgmt : blockOf { s with mgmt := m } = blockOf s := rfl
theorem viewWord_mgmt : viewWord { s with mgmt := m } = viewWord s := rfl
theorem shown_mgmt : shown { s with mgmt := m } = shown s := rfl
theorem distWord_mgmt : distWord { s with mgmt := m } = distWord s := rfl
theorem rodWord_mgmt : rodWord { s with mgmt := m } = rodWord s := rfl
theorem rstBusy_mgmt : rstBusy { s with mgmt := m } = rstBusy s := rfl
theorem unitWord_mgmt : unitWord { s with mgmt := m } = unitWord s := rfl

theorem regRead_mgmt : regRead { s with mgmt := m } = regRead s :=
  regRead_congr (blockOf_mgmt s m) (viewWord_mgmt s m) (shown_mgmt s m) (distWord_mgmt s m) (rodWord_mgmt s m)

/-- No register shows the management port's state. -/
theorem fullRead_mgmt : fullRead { s with mgmt := m } = fullRead s :=
  fullRead_congr (rstBusy_mgmt s m) (unitWord_mgmt s m) (blockOf_mgmt s m) (regRead_mgmt s m)

end

theorem measureBytes_mgmt (s : State) (m : Mgmt) (n : Nat) : measureBytes { s with mgmt := m } n = measureBytes s n := by
  rw [measureBytes, measureBytes, regBytes, regBytes, fullRead_mgmt]

section

variable {s : State} (hs : powered s = true) (h : heldInReset s = false) (hd : devState s = 1 ∨ devState s = 2)
include hs h hd

theorem exec_getVersion : exec .getVersion s = .next { s with
    mgmt := { unsigned s.mgmt with spdmVersion := true, spdmCaps := false, spdmAlgs := false, transcript := [0x84] }
    out := s.out ++ [.message 5 4 [0x12]] } :=
  exec_next hs rfl (after_spdm h hd rfl ..)

theorem exec_getCapabilities (hv : s.mgmt.spdmVersion = true) : exec .getCapabilities s = .next { s with
    mgmt := { unsigned s.mgmt with spdmCaps := true, transcript := s.mgmt.transcript ++ [0xE1] }
    out := s.out ++ [.message 5 0x61 (14 :: std 21 0 0)] } := by
  refine exec_next (a := actGetCapabilities) hs rfl ?_
  rw [actGetCapabilities, after_spdm h hd hv, after_seq_cons, after_seq_cons, after_seq_cons, after_seq_nil, after_setMgmt, after_note]
  rfl

theorem exec_getPqCert (hv : s.mgmt.spdmVersion = true) : exec .getPqCert s = .next { s with
    mgmt := unsigned s.mgmt
    out := s.out ++ [.message 5 0x7E ([2, 0] ++ std 25 0 0)] } :=
  exec_next hs rfl (after_spdm h hd hv ..)

theorem exec_negotiateAlgorithms (hc : s.mgmt.spdmCaps = true) : exec .negotiateAlgorithms s = .next { s with
    mgmt := { unsigned s.mgmt with spdmAlgs := true, transcript := s.mgmt.transcript ++ [0xE3] }
    out := s.out ++ [.message 5 0x63 (std 22 0 0)] } := by
  refine exec_next (a := actNegotiateAlgorithms) hs rfl ?_
  rw [actNegotiateAlgorithms, after_spdm h hd hc, after_seq_cons, after_seq_cons, after_seq_cons, after_seq_nil, after_setMgmt, after_note]
  rfl

theorem exec_getDigests (ha : s.mgmt.spdmAlgs = true) : exec .getDigests s = .next { s with
    mgmt := { unsigned s.mgmt with transcript := s.mgmt.transcript ++ [0x81] }
    out := s.out ++ [.message 5 1 (1 :: std 23 0 0)] } :=
  exec_next hs rfl (after_spdm h hd ha ..)

theorem exec_getCertificate (ha : s.mgmt.spdmAlgs = true) (off len : Nat) : exec (.getCertificate 0 off len) s = .next { s with
    mgmt := { unsigned s.mgmt with transcript := s.mgmt.transcript ++ [0x82] }
    out := s.out ++ [.message 5 2 (leBytes 2 len ++ flashBytes s (0x1000000 + off) (len % 65536))] } :=
  exec_next hs rfl (after_spdm h hd ha ..)

theorem exec_challenge (ha : s.mgmt.spdmAlgs = true) (nonce : List Byte) : exec (.challenge 0 nonce) s = .next { s with
    mgmt := { unsigned s.mgmt with
      transcript := s.mgmt.transcript ++ [0x83]
      pending := some (std 20 1 0 ++ sha384 (s.mgmt.transcript ++ [0x83] ++ nonce)) }
    out := s.out ++ [.message 5 3 (std 24 0 0 ++ Config.rsaSign (std 20 1 0 ++ sha384 (s.mgmt.transcript ++ [0x83] ++ nonce)))] } :=
  exec_next hs rfl (after_spdm h hd ha ..)

omit hs in
/-- A request for one measurement answers it, signed or not. -/
theorem after_getMeasurements (ha : s.mgmt.spdmAlgs = true) {i : Nat} (h1 : 1 ≤ i) (h5 : i ≤ 5) (sign : Bool) (nonce : List Byte) :
    after (actGetMeasurements i sign nonce) s =
      after (if sign then signAndHold 0x60 2 (measureBytes s i) nonce else say 5 0x60 (measureBytes s i))
        (after (note [0xE0]) { s with mgmt := unsigned s.mgmt }) := by
  rw [actGetMeasurements, after_spdm h hd ha, after_look, after_ite, if_neg (by omega)]
  dsimp only
  rw [if_neg (show ¬i = 0 by omega), if_neg (show ¬i = 0xFF by omega), after_seq_cons, after_seq_cons, after_seq_nil,
    measureBytes_mgmt]

theorem exec_getMeasurements (ha : s.mgmt.spdmAlgs = true) {i : Nat} (h1 : 1 ≤ i) (h5 : i ≤ 5) (nonce : List Byte) :
    exec (.getMeasurements i false nonce) s = .next { s with
      mgmt := { unsigned s.mgmt with transcript := s.mgmt.transcript ++ [0xE0] }
      out := s.out ++ [.message 5 0x60 (measureBytes s i)] } ∧
    ∃ t, exec (.getMeasurements i true nonce) s = .next t ∧ t.mgmt.pqReady = false ∧
      t.mgmt.pending = some (std 20 2 0 ++ sha384 (s.mgmt.transcript ++ [0xE0] ++ nonce)) ∧
      t.out = s.out ++ [.message 5 0x60 (measureBytes s i ++ Config.rsaSign (std 20 2 0 ++ sha384 (s.mgmt.transcript ++ [0xE0] ++ nonce)))] :=
  ⟨exec_next hs rfl (after_getMeasurements h hd ha h1 h5 false nonce),
    _, exec_next hs rfl (after_getMeasurements h hd ha h1 h5 true nonce), rfl, rfl, rfl⟩

omit hs h hd in
theorem after_pqResponse_ready {msg : List Byte} (hp : s.mgmt.pending = some msg) (hr : s.mgmt.pqReady = true) (bad : Nat) :
    after (pqResponse bad) s = said s 5 0x7E ([1, 0] ++ leBytes 2 7856 ++ Config.slhSign msg) := by
  rw [pqResponse, after_look, hp]
  dsimp only
  rw [if_pos hr]
  rfl

omit hs h hd in
theorem after_pqResponse_notReady {msg : List Byte} (hp : s.mgmt.pending = some msg) (hr : s.mgmt.pqReady = false) (bad : Nat) :
    after (pqResponse bad) s = said s 5 0x7F [0x42, 18] := by
  rw [pqResponse, after_look, hp]
  dsimp only
  rw [if_neg (by rw [hr]; decide)]
  rfl

theorem signatureFetched {msg : List Byte} (hp : s.mgmt.pending = some msg) :
    exec .pqSigReady s = .next { s with mgmt := { s.mgmt with pqReady := true } } ∧
    (s.mgmt.spdmAlgs = true → s.mgmt.pqReady = true →
      exec .respondIfReady s = .next (said s 5 0x7E ([1, 0] ++ leBytes 2 7856 ++ Config.slhSign msg))) ∧
    (s.mgmt.spdmVersion = true → (s.mgmt.pqReady = true → exec .getPqSig s = .next (said s 5 0x7E ([1, 0] ++ leBytes 2 7856 ++ Config.slhSign msg))) ∧
      (s.mgmt.pqReady = false → exec .getPqSig s = .next (said s 5 0x7F [0x42, 18]))) := by
  refine ⟨exec_next hs rfl ?_, fun ha hr => exec_next hs rfl ?_, fun hv => ⟨fun hr => exec_next hs rfl ?_, fun hr => exec_next hs rfl ?_⟩⟩
  · rw [actPqSigReady, after_look, hp]
    rfl
  · exact (after_spdm_keep h hd (ok := (·.spdmAlgs)) ha _).trans (after_pqResponse_ready hp hr _)
  · exact (after_spdm_keep h hd (ok := (·.spdmVersion)) hv _).trans (after_pqResponse_ready hp hr _)
  · exact (after_spdm_keep h hd (ok := (·.spdmVersion)) hv _).trans (after_pqResponse_notReady hp hr _)

theorem exec_getPqSig_none (hp : s.mgmt.pending = none) (hv : s.mgmt.spdmVersion = true) : exec .getPqSig s = .next (said s 5 0x7F [1]) := by
  refine exec_next hs rfl ((after_spdm_keep h hd (ok := (·.spdmVersion)) hv _).trans ?_)
  rw [pqResponse, after_look, hp]
  rfl

theorem does_getDigests_unexpected (ha : s.mgmt.spdmAlgs = false) :
    Does .getDigests s [.mgmt, .out] fun t => t.mgmt = unsigned s.mgmt ∧ t.out = s.out ++ [.message 5 0x7F [4]] := by
  refine does_of_run hs rfl ((within_actGetDigests ..).onlyIn s) ?_
  rw [actGetDigests, after_spdm_unexpected h hd ha]
  exact ⟨rfl, rfl⟩

end

/-- Settles O59: each request in its order is one act on the port's state; `after_spdm` gives the signature it discards. -/
theorem attestationAnswers : Obligations.AttestationAnswers := by
  unfold Obligations.AttestationAnswers
  constructor
  · rintro s hs h hd off len nonce m rfl
    refine ⟨exec_getVersion hs.1 h hd, fun hv => ⟨exec_getCapabilities hs.1 h hd hv, exec_getPqCert hs.1 h hd hv⟩,
      exec_negotiateAlgorithms hs.1 h hd, fun ha => ⟨exec_getDigests hs.1 h hd ha, exec_getCertificate hs.1 h hd ha off len,
        exec_challenge hs.1 h hd ha nonce, fun i h1 h5 => exec_getMeasurements hs.1 h hd ha h1 h5 nonce⟩,
      does_getDigests_unexpected hs.1 h hd, fun msg => signatureFetched hs.1 h hd, exec_getPqSig_none hs.1 h hd⟩
  · intro s hs h h1 h2 c hc
    simp only [List.mem_cons, List.not_mem_nil, or_false] at hc
    obtain rfl | rfl | rfl | rfl | rfl | rfl | rfl := hc
    · exact exec_next hs.1 rfl (after_spdm_busy h h1 h2 ..)
    · exact exec_next hs.1 rfl (after_spdm_busy h h1 h2 ..)
    · exact exec_next hs.1 rfl (after_spdm_busy h h1 h2 ..)
    · exact exec_next hs.1 rfl (after_spdm_busy h h1 h2 ..)
    · exact exec_next hs.1 rfl (after_spdm_busy h h1 h2 ..)
    · exact exec_next hs.1 rfl (after_spdm_busy h h1 h2 ..)
    · exact exec_next hs.1 rfl (after_spdm_busy h h1 h2 ..)

end Sys2Proof.Machine
end

section
/-! The boot flash, its records, and a firmware update (O58). -/

namespace Sys2Proof.Machine

-- One declaration after the other: elaborated side by side they take more memory than the check has.
set_option Elab.async false

/-! ## The boot flash -/

theorem flash_after_flashPut (s : State) (a : Nat) (bs : List Byte) (x : Nat) :
    mGetD (after (flashPut a bs) s).flash x 0xFF = if a ≤ x ∧ x < a + bs.length then bs.getD (x - a) 0xFF else mGetD s.flash x 0xFF :=
  read_after_eachFrom (f := fun s x => mGetD s.flash x 0xFF) (u := .flash) (fun s k v j => by
    split
    case isTrue h => exact h ▸ mGetD_mSet_same ..
    case isFalse h => exact mGetD_mSet_other _ h ..) a 0xFF bs 0 s x

theorem flashBytes_after_flashPut_same (s : State) (a : Nat) (bs : List Byte) : flashBytes (after (flashPut a bs) s) a bs.length = bs := by
  refine (List.map_congr_left fun i hi => ?_).trans (map_range_getD rfl 0xFF)
  rw [flash_after_flashPut, if_pos (by have := List.mem_range.mp hi; omega), Nat.add_sub_cancel_left]

theorem flashBytes_after_flashPut_apart (s : State) {a b n : Nat} {bs : List Byte} (h : b + n ≤ a ∨ a + bs.length ≤ b) :
    flashBytes (after (flashPut a bs) s) b n = flashBytes s b n :=
  List.map_congr_left fun i hi => by
    rw [flash_after_flashPut, if_neg (by have := List.mem_range.mp hi; omega)]

/-! ## Boot records (R606) -/

/-- The first 60 bytes of a record. -/
def bootBody (seqNo pref tries : Nat) : List Byte :=
  leBytes 4 0x47524243 ++ leBytes 4 seqNo ++ leBytes 4 (pref + 16 * tries) ++ List.replicate 48 0

/-- A record with its check. -/
def bootBytes (seqNo pref tries : Nat) : List Byte := bootBody seqNo pref tries ++ leBytes 4 (crc32 (bootBody seqNo pref tries)).toNat

theorem length_bootBody (seqNo pref tries : Nat) : (bootBody seqNo pref tries).length = 60 := by simp [bootBody]

theorem length_bootBytes (seqNo pref tries : Nat) : (bootBytes seqNo pref tries).length = 64 := by simp [bootBytes, length_bootBody]

theorem bootBytes_eq (seqNo pref tries : Nat) : bootBytes seqNo pref tries =
    leBytes 4 0x47524243 ++ (leBytes 4 seqNo ++ (leBytes 4 (pref + 16 * tries) ++
      (List.replicate 48 0 ++ leBytes 4 (crc32 (bootBody seqNo pref tries)).toNat))) := by
  rw [bootBytes]
  nth_rw 1 [bootBody]
  simp only [List.append_assoc]

theorem bootRecord_of_flash {s t : State} (h : t.flash = s.flash) : bootRecord t = bootRecord s := by
  have hc : bootCopy t = bootCopy s := by
    funext k
    rw [bootCopy, bootCopy, flashBytes, flashBytes, h]
  rw [bootRecord, bootRecord, hc]

theorem after_writeRecord (s : State) (pref tries : Nat) : after (writeRecord pref tries false) s =
    after (flashPut (recordAddr (writeCopy s)) (bootBytes ((bootRecord s).seq_ + 1) pref tries)) s := by
  rw [writeRecord, after_look, bootBytes, bootBody]
  dsimp only
  rw [show pref + 16 * tries + 256 * b2n false = pref + 16 * tries from rfl]

/-- A word of bytes that lies behind others. -/
theorem plWord_append (pre post : List Byte) {k v : Nat} (hk : pre.length = 4 * k) (hv : v < 2 ^ 32) :
    plWord (pre ++ (leBytes 4 v ++ post)) k = v := by
  rw [plWord, List.drop_left' hk, List.take_left' (length_leBytes 4 v), leNat_leBytes, Nat.mod_eq_of_lt (by omega)]

theorem plWord_bootBytes {seqNo pref tries : Nat} (hs : seqNo < 2 ^ 32) (hp : pref + 16 * tries < 2 ^ 32) :
    plWord (bootBytes seqNo pref tries) 0 = 0x47524243 ∧ plWord (bootBytes seqNo pref tries) 1 = seqNo ∧
      plWord (bootBytes seqNo pref tries) 2 = pref + 16 * tries ∧
      plWord (bootBytes seqNo pref tries) 15 = (crc32 (bootBody seqNo pref tries)).toNat := by
  refine ⟨?_, ?_, ?_, ?_⟩
  · rw [bootBytes_eq, ← List.nil_append (leBytes 4 0x47524243 ++ _)]
    exact plWord_append [] _ (by decide) (by decide)
  · rw [bootBytes_eq]
    exact plWord_append (leBytes 4 _) _ (length_leBytes ..) hs
  · rw [bootBytes_eq, ← List.append_assoc]
    exact plWord_append (leBytes 4 _ ++ leBytes 4 _) _ (by rw [List.length_append, length_leBytes, length_leBytes]) hp
  · rw [bootBytes, ← List.append_nil (leBytes 4 (crc32 _).toNat)]
    exact plWord_append (bootBody seqNo pref tries) [] (length_bootBody ..) (BitVec.isLt _)

theorem bootCopy_of_bytes {s : State} {k : Nat} {seqNo pref : Nat} (h : flashBytes s (recordAddr k) 64 = bootBytes seqNo pref 1)
    (hs : seqNo < 2 ^ 32) (hp : pref < 2) : bootCopy s k = some ⟨seqNo, pref, 1, false⟩ := by
  obtain ⟨h0, h1, h2, h15⟩ := plWord_bootBytes (seqNo := seqNo) (pref := pref) (tries := 1) hs (by omega)
  have hcrc : crc32 ((bootBytes seqNo pref 1).take 60) = BitVec.ofNat 32 (crc32 (bootBody seqNo pref 1)).toNat := by
    rw [bootBytes, List.take_left' (length_bootBody ..), BitVec.ofNat_toNat, BitVec.setWidth_eq]
  rw [bootCopy, h, h0, h1, h2, h15, if_pos ⟨rfl, hcrc⟩]
  have : pref = 0 ∨ pref = 1 := by omega
  obtain rfl | rfl := this <;> rfl

theorem writeCopy_lt (s : State) : writeCopy s < 2 := by
  rw [writeCopy]
  split
  · split <;> decide
  · decide
  · decide

/-- The record just written is the one in force: its copy was invalid or the older one, and its seq is one above. -/
theorem bootRecord_after_writeRecord (s : State) {pref : Nat} (hp : pref < 2) (hq : (bootRecord s).seq_ + 1 < 2 ^ 32) :
    bootRecord (after (writeRecord pref 1 false) s) = ⟨(bootRecord s).seq_ + 1, pref, 1, false⟩ := by
  have hlen : (bootBytes ((bootRecord s).seq_ + 1) pref 1).length = 64 := length_bootBytes ..
  have hthis : bootCopy (after (writeRecord pref 1 false) s) (writeCopy s) = some ⟨(bootRecord s).seq_ + 1, pref, 1, false⟩ := by
    refine bootCopy_of_bytes ?_ hq hp
    rw [after_writeRecord, ← hlen, flashBytes_after_flashPut_same]
  have hother : ∀ k < 2, k ≠ writeCopy s → bootCopy (after (writeRecord pref 1 false) s) k = bootCopy s k := by
    intro k hk hne
    have hw := writeCopy_lt s
    rw [bootCopy, bootCopy, after_writeRecord, flashBytes_after_flashPut_apart]
    rw [hlen, recordAddr, recordAddr]
    omega
  generalize after (writeRecord pref 1 false) s = t at hthis hother
  rw [bootRecord]
  cases h0 : bootCopy s 0 with
  | none =>
    have hw : writeCopy s = 0 := by rw [writeCopy, h0]
    rw [hw] at hthis hother
    rw [hthis, hother 1 (by decide) (by decide)]
    cases h1 : bootCopy s 1 with
    | none => rfl
    | some b =>
      have hr : bootRecord s = b := by rw [bootRecord, h0, h1]
      dsimp only
      rw [hr, if_neg (by omega)]
  | some a =>
    cases h1 : bootCopy s 1 with
    | none =>
      have hw : writeCopy s = 1 := by rw [writeCopy, h0, h1]
      have hr : bootRecord s = a := by rw [bootRecord, h0, h1]
      rw [hw] at hthis hother
      rw [hthis, hother 0 (by decide) (by decide), h0]
      dsimp only
      rw [hr, if_pos (by omega)]
    | some b =>
      have hr : bootRecord s = if a.seq_ < b.seq_ then b else a := by rw [bootRecord, h0, h1]
      by_cases hab : a.seq_ < b.seq_
      · have hw : writeCopy s = 0 := by rw [writeCopy, h0, h1]; exact if_pos hab
        rw [if_pos hab] at hr
        rw [hw] at hthis hother
        rw [hthis, hother 1 (by decide) (by decide), h1]
        dsimp only
        rw [hr, if_neg (by omega)]
      · have hw : writeCopy s = 1 := by rw [writeCopy, h0, h1]; exact if_neg hab
        rw [if_neg hab] at hr
        rw [hw] at hthis hother
        rw [hthis, hother 0 (by decide) (by decide), h0]
        dsimp only
        rw [hr, if_pos (by omega)]

/-! ## The phases of an update -/

theorem after_setUpdate (f : Update → Update) (s : State) : after (setUpdate f) s = { s with mgmt := { s.mgmt with update := f s.mgmt.update } } := rfl

section

variable {s : State} (hs : powered s = true) (h : heldInReset s = false) (hd : devState s = 1 ∨ devState s = 2 ∨ devState s = 3)
include h hd

omit h in
theorem mem_updateStates : devState s ∈ [1, 2] ++ [3] := by
  simpa [or_assoc] using hd

theorem after_updateCmd {phase : Nat} (hp : s.mgmt.update.phase = phase) (code bad : Nat) (eff : Act) :
    after (updateCmd code phase bad eff) s = after eff s := by
  rw [updateCmd, after_pldm h (mem_updateStates hd), after_look, after_ite, if_pos hp]

theorem after_updateCmd_bad {phase : Nat} (hp : s.mgmt.update.phase ≠ phase) (code bad : Nat) (eff : Act) :
    after (updateCmd code phase bad eff) s = said s 1 (BitVec.ofNat 8 code) [BitVec.ofNat 8 bad] := by
  rw [updateCmd, after_pldm h (mem_updateStates hd), after_look, after_ite, if_neg hp]
  rfl

include hs

theorem exec_requestUpdate (n : Nat) :
    (s.mgmt.update.phase = 0 → 0 < n → n ≤ 0x800000 → exec (.requestUpdate n) s = .next { s with
      mgmt := { s.mgmt with update := ⟨1, 0, n, false⟩ }
      out := s.out ++ [.message 1 0x10 (0 :: std 15 n 0)] }) ∧
    (s.mgmt.update.phase ≠ 0 → exec (.requestUpdate n) s = .next (said s 1 0x10 [0x81])) := by
  refine ⟨fun hp h0 hn => exec_next (a := actRequestUpdate n) hs rfl ?_, fun hp => exec_next (a := actRequestUpdate n) hs rfl ?_⟩
  · rw [actRequestUpdate, after_updateCmd h hd hp, after_ite, if_neg (by omega), after_seq_cons, after_seq_cons, after_seq_nil, after_setUpdate]
    rfl
  · exact after_updateCmd_bad h hd hp ..

theorem exec_passComponentTable (hp : s.mgmt.update.phase = 1) (v : Word) : exec (.passComponentTable 1 v) s = .next { s with
    mgmt := { s.mgmt with update := { s.mgmt.update with phase := 2 } }
    out := s.out ++ [.message 1 0x13 (0 :: std 16 1 v.toNat)] } := by
  refine exec_next (a := actPassComponentTable 1 v) hs rfl ?_
  rw [actPassComponentTable, after_updateCmd h hd hp, if_pos rfl, after_seq_cons, after_seq_cons, after_seq_nil, after_setUpdate]
  rfl

theorem exec_updateComponent (hp : s.mgmt.update.phase = 2) (v : Word) : exec (.updateComponent 1 v) s = .next { s with
    mgmt := { s.mgmt with update := { s.mgmt.update with phase := 3, received := 0 } }
    out := s.out ++ [.message 1 0x14 (0 :: std 17 1 v.toNat)] } := by
  refine exec_next (a := actUpdateComponent 1 v) hs rfl ?_
  rw [actUpdateComponent, after_updateCmd h hd hp, if_pos rfl, after_seq_cons, after_seq_cons, after_seq_nil, after_setUpdate]
  rfl

theorem does_requestFirmwareData (hp : s.mgmt.update.phase = 3) {n : Nat} {data : List Byte} (hl : data.length ≤ 4096)
    (hn : n + data.length ≤ s.mgmt.update.size) : Does (.requestFirmwareData n data) s [.flash, .mgmt] fun t =>
      flashBytes t (bankAddr (updateBank s) + n) data.length = data ∧
      (∀ a, a < bankAddr (updateBank s) + n ∨ bankAddr (updateBank s) + n + data.length ≤ a → mGetD t.flash a 0xFF = mGetD s.flash a 0xFF) ∧
      t.mgmt = { s.mgmt with update := { s.mgmt.update with received := s.mgmt.update.received + data.length } } := by
  have e : after (actRequestFirmwareData n data) s = after (setUpdate (fun u => { u with received := u.received + data.length }))
      (after (flashPut (bankAddr (updateBank s) + n) data) s) := by
    rw [actRequestFirmwareData, after_updateCmd h hd hp, after_look, after_act, if_pos (by simp [hl, hn]), after_seq_cons, after_seq_cons,
      after_seq_nil]
  have hm : (after (flashPut (bankAddr (updateBank s) + n) data) s).mgmt = s.mgmt := (within_flashPut ..).mgmt s
  refine does_of_run hs rfl ?_ ?_ <;> rw [e]
  · exact (((within_flashPut ..).onlyIn s).wider rfl).trans (((within_setUpdate _).onlyIn _).wider rfl)
  · refine ⟨flashBytes_after_flashPut_same .., fun a ha => ?_, ?_⟩
    · refine (flash_after_flashPut ..).trans (if_neg ?_)
      omega
    · rw [after_setUpdate, hm]

theorem exec_transferComplete (hp : s.mgmt.update.phase = 3) (hr : s.mgmt.update.size ≤ s.mgmt.update.received) :
    exec .transferComplete s = .next { s with
      mgmt := { s.mgmt with update := { s.mgmt.update with phase := 4 } }
      out := s.out ++ [.message 1 0x16 [0]] } := by
  refine exec_next (a := actTransferComplete) hs rfl ?_
  rw [actTransferComplete, after_updateCmd h hd hp, after_look, after_act, if_pos (decide_eq_true hr), after_seq_cons, after_seq_cons, after_seq_nil,
    after_setUpdate]
  rfl

theorem exec_verifyComplete_sound (hp : s.mgmt.update.phase = 4)
    (hi : imageReject s (flashBytes s (bankAddr (updateBank s)) 0x800000) = none) : exec .verifyComplete s = .next { s with
      mgmt := { s.mgmt with update := { s.mgmt.update with phase := 5, verified := true } }
      out := s.out ++ [.message 1 0x17 [0]] } := by
  refine exec_next (a := actVerifyComplete) hs rfl ?_
  rw [actVerifyComplete, after_updateCmd h hd hp, after_look, hi]
  dsimp only
  rw [after_seq_cons, after_seq_cons, after_seq_nil, after_setUpdate]
  rfl

theorem exec_verifyComplete_rejected (hp : s.mgmt.update.phase = 4) {c : Nat}
    (hi : imageReject s (flashBytes s (bankAddr (updateBank s)) 0x800000) = some c) : exec .verifyComplete s = .next { s with
      mgmt := { s.mgmt with update := ⟨0, 0, 0, false⟩ }
      out := s.out ++ [.message 1 0x17 [BitVec.ofNat 8 c]] } := by
  refine exec_next (a := actVerifyComplete) hs rfl ?_
  rw [actVerifyComplete, after_updateCmd h hd hp, after_look, hi]
  dsimp only
  rw [after_seq_cons, after_seq_cons, after_seq_nil, after_setUpdate]
  rfl

omit hs h hd in
theorem updateBank_lt (s : State) : updateBank s < 2 := by
  rw [updateBank]
  split <;> omega

/-- The record is written and the update is in its last phase, answered. -/
def applied (s : State) : State :=
  after (say 1 0x18 [0]) (after (setUpdate (fun u => { u with phase := 6 })) (after (writeRecord (updateBank s) 1 false) s))

omit hs h hd in
theorem onlyIn_applied (s : State) : OnlyIn [.flash, .mgmt, .out] s (applied s) :=
  (((within_writeRecord ..).onlyIn s).wider rfl).trans ((((within_setUpdate _).onlyIn _).wider rfl).trans (((within_say ..).onlyIn _).wider rfl))

omit hs h hd in
theorem bootRecord_applied (s : State) (hq : (bootRecord s).seq_ + 1 < 2 ^ 32) :
    bootRecord (applied s) = ⟨(bootRecord s).seq_ + 1, updateBank s, 1, false⟩ := by
  have hf : (applied s).flash = (after (writeRecord (updateBank s) 1 false) s).flash :=
    ((within_say ..).flash _).trans ((within_setUpdate _).flash _)
  rw [bootRecord_of_flash hf, bootRecord_after_writeRecord s (updateBank_lt s) hq]

omit hs h hd in
theorem out_applied (s : State) : (applied s).out = s.out ++ [.message 1 0x18 [0]] := by
  have ho : (after (writeRecord (updateBank s) 1 false) s).out = s.out := (within_writeRecord ..).out s
  rw [applied, after_say, after_setUpdate, ho]
  rfl

omit hs in
theorem after_applyComplete (hp : s.mgmt.update.phase = 5) : after actApplyComplete s =
    after (act (decide (devState s = 3)) (seq [acceptReset (1 + freeAt s 0 % 7), takeFree 1])) (applied s) := by
  rw [actApplyComplete, after_updateCmd h hd hp, after_look, after_seq_cons, after_seq_cons, after_seq_cons, after_seq_cons, after_seq_nil, applied]

theorem does_applyComplete (hp : s.mgmt.update.phase = 5) (hq : (bootRecord s).seq_ + 1 < 2 ^ 32) (h3 : devState s ≠ 3) :
    Does .applyComplete s [.flash, .mgmt, .out] fun t => t.mgmt.update.phase = 6 ∧
      bootRecord t = ⟨(bootRecord s).seq_ + 1, updateBank s, 1, false⟩ ∧ t.out = s.out ++ [.message 1 0x18 [0]] := by
  have e : after actApplyComplete s = applied s := by
    rw [after_applyComplete h hd hp, after_act, if_neg (by simpa using h3)]
  refine does_of_run hs rfl ?_ ?_ <;> rw [e]
  · exact onlyIn_applied s
  · exact ⟨rfl, bootRecord_applied s hq, out_applied s⟩

omit hs h hd in
theorem rstPend_after_acceptReset {s : State} (hr : s.rstPend = false) (cause : Nat) : (after (acceptReset cause) s).rstPend = true := by
  rw [acceptReset, after_look, after_act, hr, if_pos (by decide), after_seq_cons, after_seq_cons, after_seq_cons, after_seq_nil, after_one]
  rfl

theorem does_applyComplete_recovery (hp : s.mgmt.update.phase = 5) (hq : (bootRecord s).seq_ + 1 < 2 ^ 32) (h3 : devState s = 3)
    (hr : s.rstPend = false) : Does .applyComplete s [.ctl, .flash, .rstPend, .mgmt, .freeCtr, .out] fun t =>
      t.rstPend = true ∧ bootRecord t = ⟨(bootRecord s).seq_ + 1, 0, 1, false⟩ := by
  have e : after actApplyComplete s = after (takeFree 1) (after (acceptReset (1 + freeAt s 0 % 7)) (applied s)) := by
    rw [after_applyComplete h hd hp, after_act, if_pos (by simpa using h3), after_seq_cons, after_seq_cons, after_seq_nil]
  have hkept : (applied s).rstPend = s.rstPend := onlyIn_applied s .rstPend rfl
  have hr' : (applied s).rstPend = false := hkept.trans hr
  have hf : (after actApplyComplete s).flash = (applied s).flash := by
    rw [e]
    exact ((within_takeFree 1).flash _).trans ((within_acceptReset _).flash _)
  have hb := bootRecord_applied s hq
  rw [updateBank, if_pos h3] at hb
  refine does_of_run hs rfl ?_ ⟨?_, ?_⟩
  · rw [e]
    exact ((onlyIn_applied s).wider rfl).trans ((((within_acceptReset _).onlyIn _).wider rfl).trans (((within_takeFree 1).onlyIn _).wider rfl))
  · rw [e]
    exact ((within_takeFree 1).keeps (·.rstPend) keeps_rstPend rfl _).trans (rstPend_after_acceptReset hr' _)
  · rw [bootRecord_of_flash hf, hb]

theorem exec_activateFirmware (hp : s.mgmt.update.phase = 6) :
    exec (.activateFirmware true) s = .next (said s 1 0x1A [0x85]) ∧ exec (.activateFirmware false) s = .next { s with
      mgmt := { s.mgmt with update := ⟨0, 0, 0, false⟩ }
      out := s.out ++ [.message 1 0x1A [0, 0, 0]] } := by
  refine ⟨exec_next (a := actActivateFirmware true) hs rfl ?_, exec_next (a := actActivateFirmware false) hs rfl ?_⟩
  · rw [actActivateFirmware, after_updateCmd h hd hp]
    rfl
  · rw [actActivateFirmware, after_updateCmd h hd hp, if_neg (by decide), after_seq_cons, after_seq_cons, after_seq_nil, after_setUpdate]
    rfl

theorem exec_getStatus : exec .getStatus s =
    .next (said s 1 0x1B (0 :: BitVec.ofNat 8 s.mgmt.update.phase :: std 18 s.mgmt.update.phase s.mgmt.update.received)) :=
  exec_pldmRead (extra := [3]) (code := 0x1B)
    (body := fun s => BitVec.ofNat 8 s.mgmt.update.phase :: std 18 s.mgmt.update.phase s.mgmt.update.received) hs h (mem_updateStates hd) rfl

theorem exec_cancelUpdate :
    (s.mgmt.update.phase = 0 → exec .cancelUpdate s = .next (said s 1 0x1D [0x80])) ∧
    (s.mgmt.update.phase ≠ 0 → exec .cancelUpdate s = .next { s with
      mgmt := { s.mgmt with update := ⟨0, 0, 0, false⟩ }
      out := s.out ++ [.message 1 0x1D (0 :: std 19 0 0)] }) := by
  refine ⟨fun hp => exec_next (a := actCancelUpdate) hs rfl ?_, fun hp => exec_next (a := actCancelUpdate) hs rfl ?_⟩
  · rw [actCancelUpdate, after_pldm h (mem_updateStates hd), after_look, after_ite, if_pos hp]
    rfl
  · rw [actCancelUpdate, after_pldm h (mem_updateStates hd), after_look, after_ite, if_neg hp, after_seq_cons, after_seq_cons, after_seq_nil,
      after_setUpdate]
    rfl

/-- An update command while no update is open. -/
theorem exec_updateCmd_closed (hp : s.mgmt.update.phase = 0) {c : Instr} {phase code : Nat} {eff : Act} (h0 : phase ≠ 0)
    (hc : exec c s = run (updateCmd code phase 0x84 eff) s) : ∃ code, exec c s = .next (said s 1 code [0x84]) :=
  ⟨BitVec.ofNat 8 code, exec_next hs hc (after_updateCmd_bad h hd (by omega) ..)⟩

end

/-- Settles O58: an update command in its phase is one act on the update; the record written is the one in force (`bootRecord_after_writeRecord`). -/
theorem updatesRun : Obligations.UpdatesRun := by
  unfold Obligations.UpdatesRun
  intro s hs h hd n v data
  obtain ⟨hopen, hopened⟩ := exec_requestUpdate hs.1 h hd n
  obtain ⟨hidle, hcancel⟩ := exec_cancelUpdate hs.1 h hd
  refine ⟨hopen, hopened, fun hp => exec_passComponentTable hs.1 h hd hp v, fun hp => exec_updateComponent hs.1 h hd hp v,
    fun hp => ⟨does_requestFirmwareData hs.1 h hd hp, exec_transferComplete hs.1 h hd hp⟩, fun hp => ?_,
    fun hp hq => ⟨does_applyComplete hs.1 h hd hp hq, does_applyComplete_recovery hs.1 h hd hp hq⟩, fun hp => exec_activateFirmware hs.1 h hd hp,
    exec_getStatus hs.1 h hd, hidle, hcancel, fun c hc hp => ?_⟩
  · cases hi : imageReject s (flashBytes s (bankAddr (updateBank s)) 0x800000) with
    | none => exact exec_verifyComplete_sound hs.1 h hd hp hi
    | some c => exact exec_verifyComplete_rejected hs.1 h hd hp hi
  simp only [List.mem_cons, List.not_mem_nil, or_false] at hc
  obtain rfl | rfl | rfl | rfl | rfl | rfl | rfl := hc
  · exact exec_updateCmd_closed hs.1 h hd hp (phase := 1) (by decide) rfl
  · exact exec_updateCmd_closed hs.1 h hd hp (phase := 2) (by decide) rfl
  · exact exec_updateCmd_closed hs.1 h hd hp (phase := 3) (by decide) rfl
  · exact exec_updateCmd_closed hs.1 h hd hp (phase := 3) (by decide) rfl
  · exact exec_updateCmd_closed hs.1 h hd hp (phase := 4) (by decide) rfl
  · exact exec_updateCmd_closed hs.1 h hd hp (phase := 5) (by decide) rfl
  · exact exec_updateCmd_closed hs.1 h hd hp (phase := 6) (by decide) rfl

end Sys2Proof.Machine
end

section
/-! The power pins, the power readings and the power cap (O52). -/

namespace Sys2Proof.Machine

-- One declaration after the other: elaborated side by side they take more memory than the check has.
set_option Elab.async false

theorem mKeep_none {α : Type} (m : List (Nat × α)) : mKeep m (fun _ => false) = [] := List.filter_false m

/-- Power lost leaves the dark module (R579, R582). -/
theorem after_powerLoss (s : State) : after powerLoss s = dark s := by
  rw [powerLoss]
  dsimp only
  simp only [after_seq_cons, after_seq_nil, after_one, Upd.apply, mKeep_none]
  rfl

/-! ## The pins -/

theorem after_setPower (f : Power → Power) (s : State) : after (setPower f) s = { s with power := f s.power } := rfl

theorem after_switchOpen (st : PowerState) (s : State) : after (switchOpen st) s = { dark s with
    power := { s.power with state := st, pwrGood := false }
    out := s.out ++ [.pinPwrGood false] } := by
  rw [switchOpen, after_seq_cons, after_seq_cons, after_seq_cons, after_seq_nil, after_powerLoss]
  rfl

/-- A pin's command does what its act does, whether the module is powered or not. -/
theorem does_pins {c : Instr} {s : State} {ps : List Part} {P : State → Prop} {a : Act} (hc : exec c s = runPins a s) (hw : Within ps a)
    (hP : P (after a s)) : Does c s ps P := ⟨_, hc, hw.onlyIn s, hP⟩

theorem power_after_enterRamp (s : State) : (after enterRamp s).power = { s.power with
    state := if s.power.input = true ∧ (s.power.state = .off ∨ s.power.state = .latched) then .ramp else s.power.state } := by
  rw [enterRamp, after_look, after_act]
  by_cases h : s.power.input = true ∧ (s.power.state = .off ∨ s.power.state = .latched)
  · rw [if_pos (by simpa using h), if_pos h]
    rfl
  · rw [if_neg (by simpa using h), if_neg h]

theorem does_pwrEnRise {s : State} (h : s.power.pwrEn = false) : Does .pwrEnRise s [.power] fun t => t.power = { s.power with
    pwrEn := true
    input := true
    state := if s.power.holdoff = false ∧ (s.power.state = .off ∨ s.power.state = .latched) then .ramp else s.power.state } := by
  refine does_pins rfl (within_actPwrEnRise ..) ?_
  rw [actPwrEnRise, after_look, after_act, h, if_pos (by decide), after_seq_cons, after_seq_cons, after_seq_nil, after_act, after_setPower]
  cases hh : s.power.holdoff with
  | false =>
    rw [if_pos (by decide), power_after_enterRamp]
    simp [hh]
  | true => simp [hh]

theorem does_pwrEnHoldoffEnd {s : State} (h : s.power.holdoff = true) : Does .pwrEnHoldoffEnd s [.power] fun t => t.power = { s.power with
    holdoff := false
    state := if s.power.pwrEn = true ∧ s.power.input = true ∧ (s.power.state = .off ∨ s.power.state = .latched) then .ramp else s.power.state } := by
  refine does_pins rfl (within_actPwrEnHoldoffEnd ..) ?_
  rw [actPwrEnHoldoffEnd, after_look, after_act, h, if_pos rfl, after_seq_cons, after_seq_cons, after_seq_nil, after_act, after_setPower]
  cases hh : s.power.pwrEn with
  | false => simp [hh]
  | true =>
    rw [if_pos rfl, power_after_enterRamp]
    simp [hh]

theorem exec_railsGood {s : State} (h : s.power.state = .ramp) (hp : BitVec 2) (inl : Bool) (slot : BitVec 3) :
    exec (.railsGood hp inl slot) s = .next { dark s with
      straps := ⟨hp, inl, slot⟩
      power := { s.power with state := .init, pwrGood := true }
      out := s.out ++ [.pinPwrGood true, .busTarget (busAddress slot)] } := by
  have e : after (actRailsGood hp inl slot) s = { dark s with
      straps := ⟨hp, inl, slot⟩
      power := { s.power with state := .init, pwrGood := true }
      out := s.out ++ [.pinPwrGood true] ++ [.busTarget (busAddress slot)] } := by
    rw [actRailsGood, after_look, after_act, if_pos (decide_eq_true h), after_seq_cons, after_seq_cons, after_seq_cons, after_seq_cons,
      after_seq_cons, after_seq_nil, after_powerLoss]
    rfl
  rw [List.append_assoc] at e
  exact congrArg Host.Outcome.next e

theorem powered_eq_false {s : State} (h : s.power.state = .off ∨ s.power.state = .latched) : powered s = false := by
  rw [powered]
  rcases h with h | h <;> rw [h] <;> decide

theorem does_pwrEnFall_unpowered {s : State} (h : s.power.pwrEn = true) (hst : s.power.state = .off ∨ s.power.state = .latched) :
    Does .pwrEnFall s [.power] fun t => t.power = { s.power with pwrEn := false, holdoff := true } := by
  have hclosed : (decide (s.power.state ≠ .off) && decide (s.power.state ≠ .latched)) = false := by
    rcases hst with h | h <;> rw [h] <;> rfl
  have e : after actPwrEnFall s = after (setPower (fun p => { p with pwrEn := false, holdoff := true })) s := by
    rw [actPwrEnFall, after_look, after_act, if_pos h, after_seq_cons, after_seq_cons, after_seq_cons, after_seq_nil, after_act, after_act,
      powered_eq_false hst, hclosed, if_neg Bool.false_ne_true, if_neg Bool.false_ne_true]
  exact ⟨_, congrArg Host.Outcome.next e, (within_setPower _).onlyIn s, rfl⟩

theorem exec_pwrEnFall {s : State} (h : s.power.pwrEn = true) (hst : s.power.state = .ramp ∨ powered s = true) :
    exec .pwrEnFall s = .next { dark s with
      power := ⟨.off, false, s.power.input, true, false⟩
      out := s.out ++ (if powered s then [.stopTransmit] else []) ++ [.pinPwrGood false] } := by
  have hon : s.power.state ≠ .off ∧ s.power.state ≠ .latched := by
    constructor <;> intro he <;> simp [powered, he] at hst
  have hopen : (decide (s.power.state ≠ .off) && decide (s.power.state ≠ .latched)) = true := by simp only [decide_eq_true hon.1, decide_eq_true hon.2]; rfl
  have e : after actPwrEnFall s = { dark s with
      power := ⟨.off, false, s.power.input, true, false⟩
      out := s.out ++ (if powered s then [.stopTransmit] else []) ++ [.pinPwrGood false] } := by
    rw [actPwrEnFall, after_look, after_act, if_pos h, after_seq_cons, after_seq_cons, after_seq_cons, after_seq_nil, after_act, after_act,
      hopen, if_pos (c := true = true) rfl, after_switchOpen]
    cases powered s with
    | true => rfl
    | false =>
      rw [if_neg Bool.false_ne_true, if_neg Bool.false_ne_true, List.append_nil]
      rfl
  exact congrArg Host.Outcome.next e

theorem exec_protectionTrip {s : State} (hst : s.power.state = .ramp ∨ powered s = true) : exec .protectionTrip s = .next { dark s with
    power := { s.power with state := .latched, pwrGood := false }
    out := s.out ++ [.pinPwrGood false] } := by
  have e : after actProtectionTrip s = after (switchOpen .latched) s := by
    rw [actProtectionTrip, after_look, after_act, if_pos (by simpa using hst)]
  rw [after_switchOpen] at e
  exact congrArg Host.Outcome.next e

theorem exec_thermalTrip {s : State} (h : powered s = true) {n : Fin 5} {temp : BitVec 16}
    (ht : (16 * fld (rd s (pwrPage 1 + 0x130)) 23 16 : Int) ≤ temp.toInt) : exec (.thermalTrip n temp) s = .next { dark s with
      power := { s.power with state := .latched, pwrGood := false }
      out := s.out ++ [.pinPwrGood false] } := by
  have e : after (actThermalTrip n.val temp) s = after (switchOpen .latched) s := by
    rw [actThermalTrip, after_look, after_act, h, Bool.true_and, if_pos (decide_eq_true ht)]
  rw [after_switchOpen] at e
  exact congrArg Host.Outcome.next e

theorem exec_powerOnReset {s : State} (h : heldInReset s = true) : exec .powerOnReset s = .next (dark s) := by
  have hp : powered s = true := by
    simp only [heldInReset, Bool.and_eq_true, decide_eq_true_eq] at h
    rw [powered, h.1.1]
    rfl
  exact exec_next hp rfl (by rw [actPowerOnReset, after_look, after_act, if_pos h, after_powerLoss])

/-! ## Readings -/

theorem rd_after_wr_kept {x : Nat} {v : Word} {as : List Act} (h : KeepsReg x (seq as)) (s : State) : rd (after (seq (wr x v :: as)) s) x = v := by
  rw [after_seq_cons, h.rd, after_wr, rd_ctl_same]

theorem does_inputLow {s : State} (hs : powered s = true) {vin : BitVec 16} (hr : s.power.state = .run) (hv : vin.toNat < 4600) :
    Does (.inputLow vin) s [.power, .ctl] fun t => t.power = { s.power with input := false } ∧
      rd t (pwrPage 0 + 0x100) = BitVec.ofNat 32 vin.toNat ∧ bit (rd t (pwrPage 0 + 0x20)) 10 = true ∧ RegsOnly [pwrPage 0] s t := by
  have e : after (actInputLow vin) s = after (count (pwrPage 0) 3 1) (after (setIst (pwrPage 0) 10)
      (after (wr (pwrPage 0 + 0x100) (BitVec.ofNat 32 vin.toNat)) (after (setPower (fun p => { p with input := false })) s))) := by
    rw [actInputLow, after_look, after_act, decide_eq_true hr, decide_eq_true hv, if_pos (by decide), after_seq_cons, after_seq_cons, after_seq_cons,
      after_seq_cons, after_seq_nil]
  refine does_of_run hs rfl ((within_actInputLow ..).onlyIn s) ?_
  rw [e]
  refine ⟨(within_count ..).power _, ?_, ?_, ?_⟩
  · rw [rd_after_count _ _ _ (by decide) (by decide) (by decide), (keepsReg_setIst (by decide) 10).rd, after_wr, rd_ctl_same]
  · rw [(keeps_istBit_count (pwrPage 0) 3 1 (by decide) (by decide)).eq, after_setIst, rd_ctl_same, bit_setBit_same _ (by decide)]
  · have hp : pwrPage 0 % 4096 = 0 := by decide
    have hm : pwrPage 0 ∈ [pwrPage 0] := List.mem_singleton_self _
    refine ((within_setPower _).regsOnly _ s).trans (((writesIn_wr hp (by decide) hm _).regsOnly _).trans
      (((writesIn_setIst hp hm 10).regsOnly _).trans ((writesIn_count hp (by decide) hm 1).regsOnly _)))

/-! ## Die temperatures -/

/-- The reading of die sensor k. -/
def dieTemp (s : State) (k : Nat) : BitVec 16 := BitVec.ofNat 16 (fld (rd s (pwrPage 1 + 0x100 + 4 * k)) 15 0)

/-- The larger of two readings. -/
def hotter (a b : BitVec 16) : BitVec 16 := if a.toInt < b.toInt then b else a

/-- The largest of the readings that a list gives, from a first one on. -/
theorem foldl_hotter (bs : List (BitVec 16)) (a : BitVec 16) :
    (∀ b ∈ a :: bs, b.toInt ≤ (bs.foldl hotter a).toInt) ∧ bs.foldl hotter a ∈ a :: bs := by
  induction bs generalizing a with
  | nil => simp
  | cons b bs ih =>
    obtain ⟨hle, hmem⟩ := ih (hotter a b)
    have hmax := hle _ List.mem_cons_self
    have ha : a.toInt ≤ (hotter a b).toInt := by unfold hotter; split <;> omega
    have hb : b.toInt ≤ (hotter a b).toInt := by unfold hotter; split <;> omega
    have hab : hotter a b = a ∨ hotter a b = b := by unfold hotter; split <;> simp
    rw [List.foldl_cons]
    constructor
    · intro x hx
      rcases List.mem_cons.mp hx with rfl | hx
      · omega
      · rcases List.mem_cons.mp hx with rfl | hx
        · omega
        · exact hle x (List.mem_cons_of_mem _ hx)
    · rcases List.mem_cons.mp hmem with h | h
      · rw [h]
        rcases hab with h | h <;> simp [h]
      · exact List.mem_cons_of_mem _ (List.mem_cons_of_mem _ h)

/-- The largest reading of the five die sensors. -/
def hottest (s : State) : BitVec 16 := ((List.range 5).map (dieTemp s)).foldl hotter (((List.range 5).map (dieTemp s)).headD 0)

theorem hottest_spec (s : State) : (∀ k < 5, (dieTemp s k).toInt ≤ (hottest s).toInt) ∧ ∃ k < 5, (dieTemp s k).toInt = (hottest s).toInt := by
  obtain ⟨hle, hmem⟩ := foldl_hotter ((List.range 5).map (dieTemp s)) (dieTemp s 0)
  have h0 : hottest s = ((List.range 5).map (dieTemp s)).foldl hotter (dieTemp s 0) := rfl
  rw [← h0] at hle hmem
  constructor
  · exact fun k hk => hle _ (List.mem_cons_of_mem _ (List.mem_map_of_mem (List.mem_range.mpr hk)))
  · rcases List.mem_cons.mp hmem with h | h
    · exact ⟨0, by decide, by rw [h]⟩
    · obtain ⟨k, hk, h⟩ := List.mem_map.mp h
      exact ⟨k, List.mem_range.mp hk, by rw [h]⟩

theorem after_actTempThresholdCross (n : Nat) (temp : BitVec 16) (s : State) : after (actTempThresholdCross n temp) s =
    after tempLevels (after (wr (pwrPage 1 + 0x120)
      (BitVec.ofNat 32 (hottest (after (wr (pwrPage 1 + 0x100 + 4 * n) (BitVec.ofNat 32 temp.toNat)) s)).toNat))
      (after (wr (pwrPage 1 + 0x100 + 4 * n) (BitVec.ofNat 32 temp.toNat)) s)) := by
  rw [actTempThresholdCross, after_seq_cons, after_seq_cons, after_seq_cons, after_seq_nil, after_look]
  rfl

theorem keepsReg_tempLevels {x : Nat} (hist : x ≠ pwrPage 1 + 0x20) (hraw : x ≠ pwrPage 1 + 0x2C) : KeepsReg x tempLevels :=
  keeps_look fun _ => keeps_seq_cons (keepsReg_setLevel hist hraw 8 _) (keeps_seq_cons (keepsReg_setLevel hist hraw 9 _) keeps_seq_nil)

theorem level_after_setLevel (s : State) {p i : Nat} (hi : i < 32) (b : Bool) : bit (rd (after (setLevel p i b) s) (p + 0x2C)) i = b := by
  rw [setLevel, after_look, after_seq_cons, after_seq_cons, after_seq_nil, after_wrBit, rd_ctl_same, bit_setBit_same _ hi]

theorem level_after_setLevel_other (s : State) {p i j : Nat} (hi : i < 32) (hij : j ≠ i) (b : Bool) :
    bit (rd (after (setLevel p i b) s) (p + 0x2C)) j = bit (rd s (p + 0x2C)) j := by
  rw [setLevel, after_look, after_seq_cons, after_seq_cons, after_seq_nil, after_wrBit, rd_ctl_same, bit_setBit_other _ hi hij,
    KeepsReg.rd (keeps_act fun _ => keepsReg_setIst (by omega) i)]

theorem levels_after_tempLevels (s : State) : bit (rd (after tempLevels s) (pwrPage 1 + 0x2C)) 8 = decide (tLim s 7 0 < tMax s) ∧
    bit (rd (after tempLevels s) (pwrPage 1 + 0x2C)) 9 = decide (tLim s 15 8 < tMax s) := by
  rw [tempLevels, after_look, after_seq_cons, after_seq_cons, after_seq_nil]
  exact ⟨(level_after_setLevel_other _ (by decide) (by decide) _).trans (level_after_setLevel _ (by decide) _), level_after_setLevel _ (by decide) _⟩

theorem does_tempThresholdCross {s : State} (hs : powered s = true) (n : Fin 5) (temp : BitVec 16) :
    Does (.tempThresholdCross n temp) s [.ctl] fun t =>
      rd t (pwrPage 1 + 0x100 + 4 * n.val) = BitVec.ofNat 32 temp.toNat ∧
      (∀ k < 5, (BitVec.ofNat 16 (fld (rd t (pwrPage 1 + 0x100 + 4 * k)) 15 0)).toInt ≤ tMax t) ∧
      (∃ k < 5, (BitVec.ofNat 16 (fld (rd t (pwrPage 1 + 0x100 + 4 * k)) 15 0)).toInt = tMax t) ∧
      bit (rd t (pwrPage 1 + 0x2C)) 8 = decide (tLim s 7 0 < tMax t) ∧ bit (rd t (pwrPage 1 + 0x2C)) 9 = decide (tLim s 15 8 < tMax t) ∧
      RegsOnly [pwrPage 1] s t := by
  refine does_of_run hs rfl ((within_actTempThresholdCross ..).onlyIn s) ?_
  rw [after_actTempThresholdCross]
  have hn := n.isLt
  have hp1 : pwrPage 1 = 0xD000 := rfl
  let u := after (wr (pwrPage 1 + 0x100 + 4 * n.val) (BitVec.ofNat 32 temp.toNat)) s
  let v := after (wr (pwrPage 1 + 0x120) (BitVec.ofNat 32 (hottest u).toNat)) u
  have hlast (x : Nat) (hist : x ≠ pwrPage 1 + 0x20) (hraw : x ≠ pwrPage 1 + 0x2C) : rd (after tempLevels v) x = rd v x :=
    (keepsReg_tempLevels hist hraw).rd v
  have hv (x : Nat) (hx : x ≠ pwrPage 1 + 0x120) : rd v x = rd u x := rd_ctl_other u hx _
  have hmaxv : rd v (pwrPage 1 + 0x120) = BitVec.ofNat 32 (hottest u).toNat := rd_ctl_same ..
  have hmax (t : State) (h : rd t (pwrPage 1 + 0x120) = rd v (pwrPage 1 + 0x120)) : tMax t = (hottest u).toInt := by
    rw [tMax, h, hmaxv, fld_ofNat_low 15 (by decide) (hottest u).isLt, BitVec.ofNat_toNat, BitVec.setWidth_eq]
  have ht : tMax (after tempLevels v) = (hottest u).toInt := hmax _ (hlast _ (by decide) (by decide))
  have htemp (k : Nat) (hk : k < 5) : BitVec.ofNat 16 (fld (rd (after tempLevels v) (pwrPage 1 + 0x100 + 4 * k)) 15 0) = dieTemp u k := by
    rw [hlast _ (by omega) (by omega), hv _ (by omega), dieTemp]
  have hlim (hi lo : Nat) : tLim v hi lo = tLim s hi lo := by
    rw [tLim, tLim, hv _ (by decide)]
    exact congrArg (fun w => (16 * (fld w hi lo : Int))) (rd_ctl_other s (by omega) _)
  obtain ⟨hlevel8, hlevel9⟩ := levels_after_tempLevels v
  obtain ⟨hle, k, hk, heq⟩ := hottest_spec u
  rw [hlim, hmax v rfl] at hlevel8 hlevel9
  refine ⟨?_, fun j hj => ?_, ⟨k, hk, ?_⟩, ?_, ?_, ?_⟩
  · exact (hlast _ (by omega) (by omega)).trans ((hv _ (by omega)).trans (rd_ctl_same ..))
  · exact (congrArg BitVec.toInt (htemp j hj)).trans_le ((hle j hj).trans ht.ge)
  · exact (congrArg BitVec.toInt (htemp k hk)).trans (heq.trans ht.symm)
  · rw [ht]
    exact hlevel8
  · rw [ht]
    exact hlevel9
  · intro a ha
    have hne (o : Nat) (ho : o < 4096) : a ≠ pwrPage 1 + o := ne_of_page ha (by decide) ho (List.mem_singleton_self _)
    exact (hlast _ (hne _ (by decide)) (hne _ (by decide))).trans ((hv _ (hne _ (by decide))).trans
      (rd_ctl_other _ (by rw [Nat.add_assoc]; exact hne _ (by omega)) _))

/-! ## The power window -/

/-- Register x is a reading of the module's power. -/
def PowerReading (x : Nat) : Prop := x = pwrPage 0 + 0x100 ∨ x = pwrPage 0 + 0x104 ∨ x = pwrPage 0 + 0x108

theorem keepsReg_takePeriod {x : Nat} (hx : 0xC000 ≤ x) (v : Nat) (b : DWord) : KeepsReg x (takePeriod v b) := by
  have hb : beadPage = 0x3000 := rfl
  refine keeps_seq_cons (keepsReg_wr64 (by omega) (by omega) b) (keeps_seq_cons (keeps_look fun s => keeps_ite (fun _ => ?_) fun _ => ?_) keeps_seq_nil)
  · exact keepsReg_raise (by omega) (by omega) fun h => by cases h
  · exact keepsReg_maskWrite (by omega) ..

theorem keepsReg_choosePeriod {x : Nat} (hx : 0xC000 ≤ x) (hf : FrameFree x) (q : Nat) : KeepsReg x (choosePeriod q) :=
  keeps_look fun _ => keeps_seq_cons (keeps_act fun _ => keeps_each fun _ _ => keepsReg_sendFrame hf _)
    (keeps_seq_cons (keepsReg_takePeriod hx ..) (keeps_seq_cons (keeps_act fun _ => (within_takeFree 1).keepsReg x) keeps_seq_nil))

section

variable {x : Nat} (hx : PowerReading x)
include hx

theorem PowerReading.offset : 0xC100 ≤ x ∧ x < 0xC10C := by
  have hp : pwrPage 0 = 0xC000 := rfl
  unfold PowerReading at hx
  omega

theorem PowerReading.choosePeriod (q : Nat) : KeepsReg x (choosePeriod q) := by
  have h := hx.offset
  exact keepsReg_choosePeriod (by omega) (Or.inl (by omega)) q

theorem PowerReading.requestPeriod (q : Nat) : KeepsReg x (requestPeriod q) := by
  have h := hx.offset
  have hp : pwrPage 0 = 0xC000 := rfl
  exact keeps_look fun _ => keeps_seq_cons (keepsReg_wr (by omega) _) (keeps_seq_cons (keepsReg_setIst (by omega) _)
    (keeps_seq_cons (keepsReg_count (by omega) (by omega) (by omega) _) (keeps_seq_cons (keeps_act fun _ => hx.choosePeriod q) keeps_seq_nil)))

theorem PowerReading.memberPeriods : KeepsReg x memberPeriods :=
  keeps_look fun _ => keeps_act fun _ => keeps_ite (fun _ => (within_takeFree 1).keepsReg x) fun _ => hx.choosePeriod 0

theorem PowerReading.count {p k : Nat} (hp : p = pwrPage 0 ∨ p = pwrPage 1) (hk : k < 8) (n : Nat) : KeepsReg x (count p k n) := by
  have h := hx.offset
  have h0 : pwrPage 0 = 0xC000 := rfl
  have h1 : pwrPage 1 = 0xD000 := rfl
  exact keepsReg_count (by omega) (by omega) (by omega) n

theorem PowerReading.setLevel (i : Nat) (b : Bool) : KeepsReg x (setLevel (pwrPage 0) i b) := by
  have h := hx.offset
  have h0 : pwrPage 0 = 0xC000 := rfl
  exact keepsReg_setLevel (by omega) (by omega) i b

end

/-- The readings of a window that ended, and what they count: nothing is asked for yet. -/
def windowCounted (s : State) (avg peak : Nat) (vin iin : BitVec 16) : State :=
  let c := rd s (pwrPage 0 + 0x110)
  let eff := fld (rd s (pwrPage 0 + 0x10C)) 27 16
  let run := if avg * 64 < eff * (64 - fld c 11 8) then s.capRun + 1 else 0
  after (seq [wr (pwrPage 0 + 0x100) (BitVec.ofNat 32 vin.toNat), wr (pwrPage 0 + 0x104) (BitVec.ofNat 32 iin.toNat),
    wr (pwrPage 0 + 0x108) (BitVec.ofNat 32 (avg % 65536 + 65536 * (peak % 65536))), count (pwrPage 0) 0 (avg * max 1 (fld c 23 16)),
    count (pwrPage 1) 0 (b2n (decide (tLim s 15 8 < tMax s))), count (pwrPage 1) 1 (b2n (decide (tLim s 7 0 < tMax s))),
    act (decide (eff ≠ 0)) (seq [act (decide (eff < avg)) (count (pwrPage 0) 1 1), setLevel (pwrPage 0) 8 (decide (eff < avg)), one (.capRun run)])]) s

/-- What the window then asks for: a period of the device, what other members of its pod ask for, or nothing. -/
theorem after_actPowerWindowEnd (s : State) (avg peak : Nat) (vin iin : BitVec 16) :
    ∃ b, (∀ x, PowerReading x → KeepsReg x b) ∧ Keeps (·.capRun) b ∧
      after (actPowerWindowEnd avg peak vin iin) s = after b (windowCounted s avg peak vin iin) := by
  rw [actPowerWindowEnd, after_look, windowCounted]
  dsimp only
  simp only [after_seq_cons, after_seq_nil]
  refine ⟨_, fun x hx => keeps_act fun _ => ?_, keeps_act fun _ => ?_, rfl⟩
  · split
    · exact hx.requestPeriod _
    · exact hx.memberPeriods
  · split
    · exact (within_requestPeriod _).leaves keeps_capRun
    · exact within_memberPeriods.leaves keeps_capRun

theorem readings_windowCounted (s : State) (avg peak : Nat) (vin iin : BitVec 16) :
    rd (windowCounted s avg peak vin iin) (pwrPage 0 + 0x100) = BitVec.ofNat 32 vin.toNat ∧
    rd (windowCounted s avg peak vin iin) (pwrPage 0 + 0x104) = BitVec.ofNat 32 iin.toNat ∧
    rd (windowCounted s avg peak vin iin) (pwrPage 0 + 0x108) = BitVec.ofNat 32 (avg % 65536 + 65536 * (peak % 65536)) := by
  have h0 (n : Nat) {x : Nat} (hx : PowerReading x) : KeepsReg x (count (pwrPage 0) 0 n) := hx.count (Or.inl rfl) (by decide) n
  have h1 (k n : Nat) (hk : k < 8) {x : Nat} (hx : PowerReading x) : KeepsReg x (count (pwrPage 1) k n) := hx.count (Or.inr rfl) hk n
  have hcap (c d : Bool) (v : Nat) {x : Nat} (hx : PowerReading x) :
      KeepsReg x (act c (seq [act d (count (pwrPage 0) 1 1), setLevel (pwrPage 0) 8 d, one (.capRun v)])) :=
    keeps_act fun _ => keeps_seq_cons (keeps_act fun _ => hx.count (Or.inl rfl) (by decide) 1) (keeps_seq_cons (hx.setLevel 8 d)
      (keeps_seq_cons ((within_one (ps := [.capRun]) rfl).keepsReg x) keeps_seq_nil))
  have htail {x : Nat} (hx : PowerReading x) (n m l v : Nat) (c d : Bool) : KeepsReg x (seq [count (pwrPage 0) 0 n, count (pwrPage 1) 0 m, count (pwrPage 1) 1 l,
      act c (seq [act d (count (pwrPage 0) 1 1), setLevel (pwrPage 0) 8 d, one (.capRun v)])]) :=
    keeps_seq_cons (h0 n hx) (keeps_seq_cons (h1 0 m (by decide) hx) (keeps_seq_cons (h1 1 l (by decide) hx)
      (keeps_seq_cons (hcap c d v hx) keeps_seq_nil)))
  have p0 : PowerReading (pwrPage 0 + 0x100) := Or.inl rfl
  have p1 : PowerReading (pwrPage 0 + 0x104) := Or.inr (Or.inl rfl)
  have p2 : PowerReading (pwrPage 0 + 0x108) := Or.inr (Or.inr rfl)
  rw [windowCounted]
  refine ⟨?_, ?_, ?_⟩
  · exact rd_after_wr_kept (keeps_seq_cons (keepsReg_wr (by decide) _) (keeps_seq_cons (keepsReg_wr (by decide) _) (htail p0 ..))) s
  · rw [after_seq_cons]
    exact rd_after_wr_kept (keeps_seq_cons (keepsReg_wr (by decide) _) (htail p1 ..)) _
  · rw [after_seq_cons, after_seq_cons]
    exact rd_after_wr_kept (htail p2 ..) _

theorem capRun_windowCounted {s : State} {avg peak : Nat} {vin iin : BitVec 16} (h : 0 < fld (rd s (pwrPage 0 + 0x10C)) 27 16) :
    (windowCounted s avg peak vin iin).capRun =
      if avg * 64 < fld (rd s (pwrPage 0 + 0x10C)) 27 16 * (64 - fld (rd s (pwrPage 0 + 0x110)) 11 8) then s.capRun + 1 else 0 := by
  rw [windowCounted]
  rw [after_seq_cons, after_seq_cons, after_seq_cons, after_seq_cons, after_seq_cons, after_seq_cons, after_seq_cons, after_seq_nil,
    after_act, if_pos (by simpa using h.ne'), after_seq_cons, after_seq_cons, after_seq_cons, after_seq_nil, after_one]
  rfl

theorem does_powerWindowEnd {s : State} (hs : powered s = true) (avg peak : Nat) (vin iin : BitVec 16) :
    Does (.powerWindowEnd avg peak vin iin) s [.ctl, .bx, .dumpRun, .capRun, .freeCtr, .out] (fun t =>
      rd t (pwrPage 0 + 0x100) = BitVec.ofNat 32 vin.toNat ∧ rd t (pwrPage 0 + 0x104) = BitVec.ofNat 32 iin.toNat ∧
      rd t (pwrPage 0 + 0x108) = BitVec.ofNat 32 (avg % 65536 + 65536 * (peak % 65536)) ∧
      (0 < fld (rd s (pwrPage 0 + 0x10C)) 27 16 → t.capRun =
        if avg * 64 < fld (rd s (pwrPage 0 + 0x10C)) 27 16 * (64 - fld (rd s (pwrPage 0 + 0x110)) 11 8) then s.capRun + 1 else 0)) := by
  obtain ⟨b, hkeeps, hcap, e⟩ := after_actPowerWindowEnd s avg peak vin iin
  obtain ⟨h0, h1, h2⟩ := readings_windowCounted s avg peak vin iin
  refine does_of_run hs rfl ((within_actPowerWindowEnd ..).onlyIn s) ?_
  rw [e]
  exact ⟨((hkeeps _ (Or.inl rfl)).rd _).trans h0, ((hkeeps _ (Or.inr (Or.inl rfl))).rd _).trans h1,
    ((hkeeps _ (Or.inr (Or.inr rfl))).rd _).trans h2, fun h => (hcap.eq _).trans (capRun_windowCounted h)⟩

/-! ## A window above the limit -/

theorem regsOnly_windowCounted (s : State) (avg peak : Nat) (vin iin : BitVec 16) :
    RegsOnly [pwrPage 0, pwrPage 1] s (windowCounted s avg peak vin iin) := by
  have hp0 : pwrPage 0 % 4096 = 0 := by decide
  have hp1 : pwrPage 1 % 4096 = 0 := by decide
  have hm0 : pwrPage 0 ∈ [pwrPage 0, pwrPage 1] := by simp
  have hm1 : pwrPage 1 ∈ [pwrPage 0, pwrPage 1] := by simp
  have hlevel (i : Nat) (b : Bool) : WritesIn [pwrPage 0, pwrPage 1] (setLevel (pwrPage 0) i b) := fun x hx =>
    keepsReg_setLevel (ne_of_page hx hp0 (by decide) hm0) (ne_of_page hx hp0 (by decide) hm0) i b
  rw [windowCounted]
  exact WritesIn.regsOnly (.cons (writesIn_wr hp0 (by decide) hm0 _) (.cons (writesIn_wr hp0 (by decide) hm0 _)
    (.cons (writesIn_wr hp0 (by decide) hm0 _) (.cons (writesIn_count hp0 (by decide) hm0 _) (.cons (writesIn_count hp1 (by decide) hm1 _)
    (.cons (writesIn_count hp1 (by decide) hm1 _) (.cons (.act (.cons (.act (writesIn_count hp0 (by decide) hm0 1) _) (.cons (hlevel 8 _)
      (.cons ((within_one (ps := [.capRun]) rfl).writesIn _) (writesIn_seq_nil _)))) _) (writesIn_seq_nil _)))))))) s

theorem onlyIn_windowCounted (s : State) (avg peak : Nat) (vin iin : BitVec 16) : OnlyIn [.ctl, .capRun] s (windowCounted s avg peak vin iin) := by
  have hw {ps : List Part} {a : Act} (h : Within ps a) (hp : covers [.ctl, .capRun] ps = true := by rfl) : Within [.ctl, .capRun] a := h.wider hp
  rw [windowCounted]
  exact Within.onlyIn (within_seq_cons (hw (within_wr ..)) (within_seq_cons (hw (within_wr ..)) (within_seq_cons (hw (within_wr ..))
    (within_seq_cons (hw (within_count ..)) (within_seq_cons (hw (within_count ..)) (within_seq_cons (hw (within_count ..))
    (within_seq_cons (within_act (within_seq_cons (within_act (hw (within_count ..))) (within_seq_cons (hw (within_setLevel ..))
      (within_seq_cons (within_one rfl) within_seq_nil)))) within_seq_nil))))))) s

theorem capPeriod_high {s : State} {avg run : Nat} (h : fld (rd s (pwrPage 0 + 0x10C)) 27 16 < avg) (hcool : tMax s ≤ tLim s 15 8) :
    capPeriod s avg run = some (ceilDiv (beadPeriod s * avg) (fld (rd s (pwrPage 0 + 0x10C)) 27 16)) := by
  rw [capPeriod]
  dsimp only
  rw [if_pos h, if_neg (not_lt.mpr hcool)]

theorem after_actPowerWindowEnd_high {s : State} {avg : Nat} (peak : Nat) (vin iin : BitVec 16)
    (heff : 0 < fld (rd s (pwrPage 0 + 0x10C)) 27 16) (havg : fld (rd s (pwrPage 0 + 0x10C)) 27 16 < avg)
    (hon : bit (rd s (pwrPage 0 + 0x110)) 0 = true) (hnext : bit (rd s (beadPage + 0x110)) 31 = false) (hcool : tMax s ≤ tLim s 15 8) :
    after (actPowerWindowEnd avg peak vin iin) s =
      after (requestPeriod (ceilDiv (beadPeriod s * avg) (fld (rd s (pwrPage 0 + 0x10C)) 27 16))) (windowCounted s avg peak vin iin) := by
  rw [actPowerWindowEnd, after_look, windowCounted]
  dsimp only
  simp only [after_seq_cons, after_seq_nil]
  rw [hnext, hon, decide_eq_true heff.ne', capPeriod_high havg hcool]
  rfl

theorem periodBead_congr {s t : State} (hb : beadNo t = beadNo s) (hc : rd t (beadPage + 0x120) = rd s (beadPage + 0x120)) (hh : t.herd = s.herd) :
    periodBead t = periodBead s := by
  have hherd : herdOf t = herdOf s := by
    funext h
    rw [herdOf, herdOf, hh]
  rw [periodBead, periodBead, hb, hc, hherd]

/-- Outside a pod a request chooses its period itself. -/
theorem after_requestPeriod {s : State} (hpod : podEn s = false) (q : Nat) : ∃ v u, OnlyIn [.ctl] s u ∧ RegsOnly [pwrPage 0] s u ∧
    rd u (pwrPage 0 + 0x118) = BitVec.ofNat 32 (0x80000000 + q % 1048576) ∧ bit (rd u (pwrPage 0 + 0x20)) 9 = true ∧
    after (requestPeriod q) s = after (takePeriod v (BitVec.ofNat 64 (periodBead u))) u := by
  have hp : pwrPage 0 % 4096 = 0 := by decide
  have hm : pwrPage 0 ∈ [pwrPage 0] := List.mem_singleton_self _
  let w := after (wr (pwrPage 0 + 0x118) (BitVec.ofNat 32 (0x80000000 + q % 1048576))) s
  let u := after (count (pwrPage 0) 2 1) (after (setIst (pwrPage 0) 9) w)
  have hregs : RegsOnly [pwrPage 0] s u := ((writesIn_wr hp (by decide) hm _).regsOnly s).trans
    (((writesIn_setIst hp hm 9).regsOnly _).trans ((writesIn_count hp (by decide) hm 1).regsOnly _))
  have hpodu : podEn u = false := by
    rw [podEn, podCfg, hregs _ (by decide)]
    exact hpod
  have hlead : isLead u = false := by rw [isLead, hpodu, Bool.false_and]
  have hchoose : ∃ v, after (choosePeriod q) u = after (takePeriod v (BitVec.ofNat 64 (periodBead u))) u := by
    refine ⟨max (max q (fld (rd u (beadPage + 0x124)) 19 0)) (podPeriod u), ?_⟩
    rw [choosePeriod, after_look]
    dsimp only
    rw [hlead, after_seq_cons, after_seq_cons, after_seq_cons, after_seq_nil, after_act, if_neg Bool.false_ne_true, after_act, if_neg Bool.false_ne_true]
  obtain ⟨v, hv⟩ := hchoose
  refine ⟨v, u, ?_, hregs, ?_, ?_, ?_⟩
  · exact ((within_wr ..).onlyIn s).trans (((within_setIst ..).onlyIn _).trans ((within_count ..).onlyIn _))
  · rw [rd_after_count _ _ _ (by decide) (by decide) (by decide), (keepsReg_setIst (by decide) 9).rd]
    exact rd_ctl_same ..
  · rw [(keeps_istBit_count (pwrPage 0) 2 1 (by decide) (by decide)).eq, after_setIst, rd_ctl_same, bit_setBit_same _ (by decide)]
  · rw [← hv, requestPeriod, after_look, after_seq_cons, after_seq_cons, after_seq_cons, after_seq_cons, after_seq_nil, after_act, hpod, if_pos (by rfl)]

theorem does_powerWindowEnd_high {s : State} (hs : powered s = true) {avg : Nat} (peak : Nat) (vin iin : BitVec 16)
    (heff : 0 < fld (rd s (pwrPage 0 + 0x10C)) 27 16) (havg : fld (rd s (pwrPage 0 + 0x10C)) 27 16 < avg)
    (hon : bit (rd s (pwrPage 0 + 0x110)) 0 = true) (hnext : bit (rd s (beadPage + 0x110)) 31 = false) (hcool : tMax s ≤ tLim s 15 8)
    (hpod : podEn s = false) : Does (.powerWindowEnd avg peak vin iin) s [.ctl, .dumpRun, .capRun, .freeCtr] fun t =>
      rd t (pwrPage 0 + 0x118) =
        BitVec.ofNat 32 (0x80000000 + ceilDiv (beadPeriod s * avg) (fld (rd s (pwrPage 0 + 0x10C)) 27 16) % 1048576) ∧
      bit (rd t (pwrPage 0 + 0x20)) 9 = true ∧ rd64 t (beadPage + 0x118) = BitVec.ofNat 64 (periodBead s) := by
  have hregs := regsOnly_windowCounted s avg peak vin iin
  have honly := onlyIn_windowCounted s avg peak vin iin
  have hpodw : podEn (windowCounted s avg peak vin iin) = false := by
    rw [podEn, podCfg, hregs _ (by decide)]
    exact hpod
  obtain ⟨v, u, hu, hregu, hreq, hist, e⟩ := after_requestPeriod hpodw (ceilDiv (beadPeriod s * avg) (fld (rd s (pwrPage 0 + 0x10C)) 27 16))
  have hbead : periodBead u = periodBead s := by
    refine periodBead_congr ?_ ?_ ?_
    · rw [beadNo, beadNo, rd64, rd64, hregu _ (by decide), hregu _ (by decide), hregs _ (by decide), hregs _ (by decide)]
    · rw [hregu _ (by decide), hregs _ (by decide)]
    · exact Eq.trans (hu .herd rfl) (honly .herd rfl)
  refine does_of_run hs rfl ?_ ?_ <;> rw [after_actPowerWindowEnd_high peak vin iin heff havg hon hnext hcool, e, hbead]
  · exact (honly.wider rfl).trans ((hu.wider rfl).trans (((within_takePeriod ..).onlyIn _).wider rfl))
  · refine ⟨((keepsReg_takePeriod (by decide) ..).rd _).trans hreq, ?_, ?_⟩
    · rw [(keepsReg_takePeriod (by decide) ..).rd]
      exact hist
    · rw [takePeriod, after_seq_cons, after_seq_cons, after_seq_nil]
      have hkeep (x : Nat) (hx : x = beadPage + 0x118 ∨ x = beadPage + 0x118 + 4) (w : Word) : KeepsReg x (beadNextWrite .ringCtl w) :=
        keeps_look fun s => keeps_ite (fun _ => keepsReg_raise (by omega) (by omega) fun h => by cases h) fun _ => keepsReg_maskWrite (by omega) ..
      rw [rd64, (hkeep _ (Or.inl rfl) _).rd, (hkeep _ (Or.inr rfl) _).rd]
      exact rd64_after_wr64 ..

/-- Settles O52: each pin's act on the power state, with `after_powerLoss`; the readings are the last that write their registers. -/
theorem powerPins : Obligations.PowerPins := by
  unfold Obligations.PowerPins
  constructor
  · exact fun s => ⟨does_pwrEnRise, does_pwrEnHoldoffEnd, fun hp inl slot h => exec_railsGood h hp inl slot,
      fun h => ⟨does_pwrEnFall_unpowered h, exec_pwrEnFall h⟩, exec_protectionTrip, fun n temp h => exec_thermalTrip h, exec_powerOnReset⟩
  · intro s hs
    refine ⟨fun vin => does_inputLow hs.1, does_tempThresholdCross hs.1, ?_⟩
    rintro avg peak eff vin iin rfl
    exact ⟨does_powerWindowEnd hs.1 avg peak vin iin, does_powerWindowEnd_high hs.1 peak vin iin⟩

end Sys2Proof.Machine
end

section
/-! The start of the device: PLLs, ROM, firmware, RUN (O53). -/

namespace Sys2Proof.Machine

-- One declaration after the other: elaborated side by side they take more memory than the check has.
set_option Elab.async false

/-! ## What the acts of the start write -/

theorem keepsReg_queueMessage {x : Nat} (hx : x ≠ evQstat) (m : EvMsg) : KeepsReg x (queueMessage m) := by
  have hdrop (v : Nat) : KeepsReg x (wrFld evQstat 31 16 v) := keepsReg_wrFld hx ..
  have hq (q : List EvMsg) : KeepsReg x (one (.evQueue q)) := (within_one (ps := [.evQueue]) rfl).keepsReg x
  refine keeps_look fun s => keeps_ite (fun _ => ?_) fun _ => keeps_ite (fun _ => hdrop _) fun _ => ?_
  · exact keeps_seq_cons (hq _) (keeps_seq_cons (keepsReg_wrFld hx ..)
      (keeps_seq_cons (keeps_act fun _ => (within_one (ps := [.out]) rfl).keepsReg x) keeps_seq_nil))
  · exact keeps_seq_cons (hq _) (keeps_seq_cons (hdrop _) keeps_seq_nil)

theorem keepsReg_sensorEvent {x : Nat} (hx : x ≠ evQstat) (n v : Nat) : KeepsReg x (sensorEvent n v) := keepsReg_queueMessage hx _

theorem keepsReg_setDevState {x : Nat} (hx : x ≠ evQstat) (h0 : x ≠ 0x100) (n : Nat) : KeepsReg x (setDevState n) :=
  keeps_seq_cons (keepsReg_wrFld h0 ..) (keeps_seq_cons (keepsReg_sensorEvent hx ..) keeps_seq_nil)

theorem devState_after_setDevState (s : State) {n : Nat} (hn : n < 8) : devState (after (setDevState n) s) = n := by
  rw [setDevState, after_seq_cons, after_seq_cons, after_seq_nil, devState, (keepsReg_sensorEvent (by decide) ..).rd, after_wrFld]
  exact (congrArg (fun w => fld w 2 0) (rd_ctl_same ..)).trans ((fld_setFld (hi := 2) (lo := 0) _ (by decide) (by decide) n).trans (Nat.mod_eq_of_lt hn))

/-- What changes SEC_BOOT_STAT, and the event of the change. -/
theorem rd_after_bootChange {x : Nat} (hx : x ≠ evQstat) (a : Act) (s : State) : rd (after (bootChange a) s) x = rd (after a s) x := by
  rw [bootChange, after_look]
  dsimp only
  rw [after_seq_cons, after_seq_cons, after_seq_nil]
  exact (keeps_look fun _ => keeps_act fun _ => keepsReg_sensorEvent hx ..).eq _

theorem keepsReg_bootChange {x : Nat} (hx : x ≠ evQstat) {a : Act} (h : KeepsReg x a) : KeepsReg x (bootChange a) :=
  ⟨fun s => (rd_after_bootChange hx a s).trans (h.rd s)⟩

theorem keepsReg_setFreq {x n : Nat} (h : x ≠ mgtPage 2 + 0x110 + 4 * n) (v : Word) : KeepsReg x (setFreq n v) :=
  keeps_act fun _ => keepsReg_wr h v

/-- A register outside measurement n, and not the latch of a change, stays. -/
theorem keepsReg_putMeasure {x n : Nat} (hist : x ≠ secPage 1 + 0x20)
    (hx : x < secPage 1 + 0x100 + 0x40 * (n - 1) ∨ secPage 1 + 0x100 + 0x40 * (n - 1) + 48 ≤ x) (d : List Byte) : KeepsReg x (putMeasure n d) := by
  refine keeps_look fun s => keeps_seq_cons (keeps_act fun _ => keepsReg_setIst hist _) (keeps_seq_cons (keeps_each fun p hp => ?_) keeps_seq_nil)
  have hk := List.snd_lt_of_mem_zipIdx hp
  rw [length_leWords] at hk
  exact keepsReg_wr (by omega) _

theorem keepsReg_takeMeasure {x n : Nat} (hist : x ≠ secPage 1 + 0x20)
    (hx : x < secPage 1 + 0x100 + 0x40 * (n - 1) ∨ secPage 1 + 0x100 + 0x40 * (n - 1) + 48 ≤ x) : KeepsReg x (takeMeasure n) :=
  keeps_look fun _ => keepsReg_putMeasure hist hx _

/-! ## Words written one after the other -/

theorem rd_after_each_wr (a : Nat) (ws : List Word) (m : Nat) (s : State) (j : Nat) (hj : j < ws.length) :
    rd (after (each (ws.zipIdx m) fun p => wr (a + 4 * p.2) p.1) s) (a + 4 * (m + j)) = ws.getD j 0 := by
  induction ws generalizing m s j with
  | nil => exact absurd hj (Nat.not_lt_zero _)
  | cons w ws ih =>
    rw [List.zipIdx_cons, after_each_cons]
    cases j with
    | zero =>
      refine (Keeps.eq (keeps_each (f := (rd · (a + 4 * (m + 0)))) fun p hp => keepsReg_wr ?_ p.1) _).trans (rd_ctl_same ..)
      have := List.le_snd_of_mem_zipIdx hp
      omega
    | succ j =>
      rw [show m + (j + 1) = m + 1 + j by omega, ih _ _ _ (by simpa using hj), List.getD_cons_succ]

/-- SEC_MEASn holds the digest taken. -/
theorem rd_after_putMeasure (s : State) (n : Nat) (d : List Byte) {j : Nat} (hj : j < 12) :
    rd (after (putMeasure n d) s) (secPage 1 + 0x100 + 0x40 * (n - 1) + 4 * j) = (leWords 12 d).getD j 0 := by
  rw [putMeasure, after_look]
  dsimp only
  rw [after_seq_cons, after_seq_cons, after_seq_nil]
  have h := rd_after_each_wr (secPage 1 + 0x100 + 0x40 * (n - 1)) (leWords 12 d) 0 (after (act (inRun s && decide (leWords 12 d ≠
    (List.range 12).map (fun j => rd s (secPage 1 + 0x100 + 0x40 * (n - 1) + 4 * j)))) (setIst (secPage 1) 8)) s) j (by rw [length_leWords]; exact hj)
  rwa [Nat.zero_add] at h

/-! ## The PLLs -/

theorem keepsReg_lockAll {x : Nat} (hx : x / 4096 ≠ 2) : KeepsReg x lockAll := by
  have hp : mgtPage 2 = 0x2000 := rfl
  refine keeps_seq_cons (keepsReg_wr (by omega) _) (keeps_seq_cons (keeps_each fun n hn => keepsReg_setFreq ?_ _)
    (keeps_seq_cons (keepsReg_setLevel (by omega) (by omega) 8 false) keeps_seq_nil))
  have := List.mem_range.mp hn
  omega

theorem rd_after_lockAll (s : State) : rd (after lockAll s) (mgtPage 2 + 0x100) = 0x1F ∧
    ∀ n < 4, rd (after lockAll s) (mgtPage 2 + 0x110 + 4 * n) = 1300000 := by
  have hp : mgtPage 2 = 0x2000 := rfl
  rw [lockAll]
  constructor
  · refine rd_after_wr_kept (keeps_seq_cons (keeps_each fun n hn => keepsReg_setFreq ?_ _)
      (keeps_seq_cons (keepsReg_setLevel (by decide) (by decide) 8 false) keeps_seq_nil)) s
    omega
  · intro n hn
    rw [after_seq_cons, after_seq_cons, after_seq_cons, after_seq_nil, (keepsReg_setLevel (by omega) (by omega) 8 false).rd]
    refine after_each_sets (f := (rd · (mgtPage 2 + 0x110 + 4 * n))) (List.mem_range.mpr hn) (fun s => ?_) (fun k hk => ?_) _
    · rw [setFreq, after_act, if_pos (decide_eq_true hn), after_wr, rd_ctl_same]
    · by_cases hkn : k = n
      · left
        intro s
        rw [hkn, setFreq, after_act, if_pos (decide_eq_true hn), after_wr, rd_ctl_same]
      · exact Or.inr (keepsReg_setFreq (by omega) _)

section

variable {s : State} (hs : powered s = true)
include hs

theorem does_pllLock (h : heldInReset s = true) (hc : s.fuses.checkOk = true) : Does .pllLock s [.ctl] fun t =>
    fld (rd t (mgtPage 2 + 0x100)) 4 0 = 31 ∧ fuseOk t = true ∧ devState t = devState s ∧
      ∀ n < 4, rd t (mgtPage 2 + 0x110 + 4 * n) = 1300000 := by
  have e : after actPllLock s = after (wrBit (mgtPage 1 + 0x104) 0 true) (after lockAll s) := by
    rw [actPllLock, after_look, after_act, if_pos h, hc, after_seq_cons, after_seq_cons, after_seq_cons, after_seq_nil, after_act,
      if_neg (by decide)]
  obtain ⟨hlock, hfreq⟩ := rd_after_lockAll s
  have hp : mgtPage 1 = 0x1000 := rfl
  have hp2 : mgtPage 2 = 0x2000 := rfl
  refine does_of_run hs rfl ?_ ?_ <;> rw [e]
  · exact (within_lockAll.onlyIn s).trans ((within_wrBit ..).onlyIn _)
  · refine ⟨?_, ?_, ?_, fun n hn => ?_⟩
    · rw [(keepsReg_wrBit (by decide) 0 true).rd, hlock]
      decide
    · rw [fuseOk, after_wrBit, rd_ctl_same, bit_setBit_same _ (by decide)]
    · rw [devState, (keepsReg_wrBit (by decide) 0 true).rd, (keepsReg_lockAll (by decide)).rd, devState]
    · rw [(keepsReg_wrBit (by omega) 0 true).rd, hfreq n hn]

theorem does_pllLock_bad (h : heldInReset s = true) (hc : s.fuses.checkOk = false) : Does .pllLock s [.ctl, .evQueue, .out] fun t =>
    fuseOk t = false ∧ devState t = 4 := by
  have e : after actPllLock s = after (setDevState 4) (after (wrBit (mgtPage 1 + 0x104) 0 false) (after lockAll s)) := by
    rw [actPllLock, after_look, after_act, if_pos h, hc, after_seq_cons, after_seq_cons, after_seq_cons, after_seq_nil, after_act,
      if_pos (by decide)]
  refine does_of_run hs rfl (within_actPllLock.onlyIn s) ?_
  rw [e]
  refine ⟨?_, devState_after_setDevState _ (by decide)⟩
  rw [fuseOk, (keepsReg_setDevState (by decide) (by decide) 4).rd, after_wrBit, rd_ctl_same, bit_setBit_same _ (by decide)]

theorem does_pllLockLoss {n : Fin 5} (hn : bit (rd s (mgtPage 2 + 0x100)) n.val = true) : Does (.pllLockLoss n) s [.ctl, .dumpRun, .freeCtr] fun t =>
    bit (rd t (mgtPage 2 + 0x100)) n.val = false ∧ bit (rd t (mgtPage 2 + 0x20)) 2 = true ∧ bit (rd t (mgtPage 2 + 0x2C)) 8 = true := by
  have hp : mgtPage 2 = 0x2000 := rfl
  have hlt := n.isLt
  have e : after (actPllLockLoss n.val) s = after (setLevel (mgtPage 2) 8 true) (after (raise (mgtPage 2) { cls := .uncorrFatal })
      (after (seq [setFreq n.val (BitVec.ofNat 32 (freeAt s 0 % 2097152)), takeFree 1, count (mgtPage 2) 1 1])
        (after (wrBit (mgtPage 2 + 0x100) n.val false) s))) := by
    rw [actPllLockLoss, after_look, after_act, if_pos hn]
    simp only [after_seq_cons, after_seq_nil]
  have hmid : KeepsReg (mgtPage 2 + 0x100) (seq [setFreq n.val (BitVec.ofNat 32 (freeAt s 0 % 2097152)), takeFree 1, count (mgtPage 2) 1 1]) :=
    keeps_seq_cons (keepsReg_setFreq (by omega) _) (keeps_seq_cons ((within_takeFree 1).keepsReg _)
      (keeps_seq_cons (keepsReg_count (by decide) (by decide) (by decide) 1) keeps_seq_nil))
  refine does_of_run hs rfl ((within_actPllLockLoss ..).onlyIn s) ?_
  rw [e]
  refine ⟨?_, ?_, level_after_setLevel _ (by decide) _⟩
  · rw [(keepsReg_setLevel (by decide) (by decide) 8 true).rd, (keepsReg_raise (by decide) (by decide) (by decide)).rd, hmid.rd, after_wrBit,
      rd_ctl_same, bit_setBit_same _ (by omega)]
  · have hset (u : State) (h : bit (rd u (mgtPage 2 + 0x20)) 2 = true) : bit (rd (after (setLevel (mgtPage 2) 8 true) u) (mgtPage 2 + 0x20)) 2 = true := by
      rw [setLevel, after_look, after_seq_cons, after_seq_cons, after_seq_nil, (keepsReg_wrBit (by decide) 8 true).rd, after_act]
      split
      · rw [after_setIst, rd_ctl_same, bit_setBit_other _ (by decide) (by decide), h]
      · exact h
    exact hset _ (bit_after_raise _ (by decide))

theorem does_pllLockRegain {n : Fin 5} (hn : bit (rd s (mgtPage 2 + 0x100)) n.val = false) (hf : fuseOk s = true) :
    Does (.pllLockRegain n) s [.ctl] fun t => bit (rd t (mgtPage 2 + 0x100)) n.val = true ∧
      bit (rd t (mgtPage 2 + 0x2C)) 8 = decide (fld (rd t (mgtPage 2 + 0x100)) 4 0 ≠ 31) := by
  have hp : mgtPage 2 = 0x2000 := rfl
  have hlt := n.isLt
  let u := after (setFreq n.val 1300000) (after (wrBit (mgtPage 2 + 0x100) n.val true) s)
  have e : after (actPllLockRegain n.val) s = after (setLevel (mgtPage 2) 8 (decide (fld (rd u (mgtPage 2 + 0x100)) 4 0 ≠ 0x1F))) u := by
    rw [actPllLockRegain, after_look, after_act, hn, hf, if_pos (by decide), after_seq_cons, after_seq_cons, after_seq_cons, after_seq_nil, after_look]
  refine does_of_run hs rfl ((within_actPllLockRegain ..).onlyIn s) ?_
  rw [e]
  have hkept : rd (after (setLevel (mgtPage 2) 8 (decide (fld (rd u (mgtPage 2 + 0x100)) 4 0 ≠ 0x1F))) u) (mgtPage 2 + 0x100) = rd u (mgtPage 2 + 0x100) :=
    (keepsReg_setLevel (by decide) (by decide) 8 _).rd u
  refine ⟨?_, ?_⟩
  · rw [hkept, (keepsReg_setFreq (by omega) _).rd, after_wrBit, rd_ctl_same, bit_setBit_same _ (by omega)]
  · rw [hkept]
    exact level_after_setLevel _ (by decide) _

theorem does_channelTrained {n : PortNo} {ch : Fin 8} (hd : devState s = 1) (hc : bit (rd s (mpPage n.val + 0x10C)) (8 + ch.val) = false) :
    Does (.channelTrained n ch) s [.ctl] fun t => bit (rd t (mpPage n.val + 0x10C)) (8 + ch.val) = true ∧
      (fld (rd t (mpPage n.val + 0x10C)) 15 8 = 255 → bit (rd s (mpPage n.val + 0x10C)) 0 = false → bit (rd t (mpPage n.val + 0x10C)) 1 = true) ∧
      RegsAt [mpPage n.val + 0x10C] s t := by
  have hlt := ch.isLt
  let u := after (wrBit (mpPage n.val + 0x10C) (8 + ch.val) true) s
  have hu : rd u (mpPage n.val + 0x10C) = setBit (rd s (mpPage n.val + 0x10C)) (8 + ch.val) true := rd_ctl_same ..
  have e : after (actChannelTrained n.val ch.val) s =
      after (act (decide (fld (rd u (mpPage n.val + 0x10C)) 15 8 = 0xFF) && !bit (rd u (mpPage n.val + 0x10C)) 0) (wrBit (mpPage n.val + 0x10C) 1 true)) u := by
    rw [actChannelTrained, after_look]
    dsimp only
    rw [after_act, hc, decide_eq_true hd, if_pos (by decide), after_seq_cons, after_seq_cons, after_seq_nil, after_look]
  refine does_of_run hs rfl ((within_actChannelTrained ..).onlyIn s) ?_
  rw [e, after_act]
  split
  case isTrue h =>
    refine ⟨?_, fun _ _ => ?_, fun a ha => ?_⟩
    · rw [after_wrBit, rd_ctl_same, bit_setBit_other _ (by decide) (by omega), hu, bit_setBit_same _ (by omega)]
    · rw [after_wrBit, rd_ctl_same, bit_setBit_same _ (by decide)]
    · have hne : a ≠ mpPage n.val + 0x10C := by simpa using ha
      exact (rd_ctl_other _ hne _).trans (rd_ctl_other s hne _)
  case isFalse h =>
    refine ⟨?_, fun h8 h0 => absurd ?_ h, fun a ha => rd_ctl_other s (by simpa using ha) _⟩
    · rw [hu, bit_setBit_same _ (by omega)]
    · rw [decide_eq_true h8, hu, bit_setBit_other _ (by omega) (by omega), h0]
      rfl

end

end Sys2Proof.Machine
end

section
/-! The boot ROM, the firmware and the entry to RUN (O53, continued). -/

namespace Sys2Proof.Machine

-- One declaration after the other: elaborated side by side they take more memory than the check has.
set_option Elab.async false

/-! ## The choice of bank (R607) -/

theorem fwHeader_apply (v : List Byte) (s : State) : ((Upd.fwHeader v).apply s).fwHeader = v := rfl

/-- What taking a bank shows, keeps and reads. -/
theorem after_takeBank (s : State) (r : BootRecord) {b : Nat} (hb : b < 2) :
    runBank (after (takeBank r b) s) = b ∧ fld (rd (after (takeBank r b) s) bootStat) 15 8 = fld (rd s bootStat) 15 8 ∧
      (b ≠ r.pref → bit (rd (after (takeBank r b) s) bootStat) 1 = true) ∧ rd (after (takeBank r b) s) 0x100 = rd s 0x100 ∧
      (after (takeBank r b) s).fwHeader = flashBytes s (bankAddr b) 0x3000 := by
  let first := act (decide (b = r.pref) && !r.confirmed) (if r.tries = 0 then seq [writeRecord r.pref (freeAt s 0 % 16) false, takeFree 1]
      else writeRecord r.pref (r.tries - 1) false)
  let second := act (decide (b ≠ r.pref)) (seq [writeRecord b r.tries true, wrBit bootStat 1 true, setIst (secPage 0) 8])
  let u := after second (after first s)
  have e : after (takeBank r b) s = after (one (.fwHeader (flashBytes s (bankAddr b) 0x3000))) (after (wrFld bootStat 0 0 b) u) := by
    rw [takeBank, after_look, after_seq_cons, after_seq_cons, after_seq_cons, after_seq_cons, after_seq_nil]
  have hfirst (x : Nat) : rd (after first s) x = rd s x :=
    KeepsReg.rd (keeps_act fun _ => keeps_ite (fun _ => keeps_seq_cons ((within_writeRecord ..).keepsReg x)
      (keeps_seq_cons ((within_takeFree 1).keepsReg x) keeps_seq_nil)) fun _ => (within_writeRecord ..).keepsReg x) s
  have hsecond {x : Nat} (h1 : x ≠ bootStat) (h2 : x ≠ secPage 0 + 0x20) : rd u x = rd s x :=
    (KeepsReg.rd (keeps_act fun _ => keeps_seq_cons ((within_writeRecord ..).keepsReg x) (keeps_seq_cons (keepsReg_wrBit h1 1 true)
      (keeps_seq_cons (keepsReg_setIst h2 8) keeps_seq_nil))) _).trans (hfirst x)
  have hu : rd u bootStat = if b = r.pref then rd s bootStat else setBit (rd s bootStat) 1 true := by
    by_cases hp : b = r.pref
    · rw [if_pos hp, show u = after first s by rw [show u = after second (after first s) from rfl, after_act, if_neg (by simpa using hp)], hfirst]
    · rw [if_neg hp, show u = after (seq [writeRecord b r.tries true, wrBit bootStat 1 true, setIst (secPage 0) 8]) (after first s) by
        rw [show u = after second (after first s) from rfl, after_act, if_pos (by simpa using hp)], after_seq_cons, after_seq_cons, after_seq_cons,
        after_seq_nil, (keepsReg_setIst (by decide) 8).rd, after_wrBit, rd_ctl_same, (within_writeRecord ..).rd, hfirst]
  have hboot : rd (after (takeBank r b) s) bootStat = setFld (rd u bootStat) 0 0 b := by
    rw [e, (within_one (ps := [.fwHeader]) rfl).rd, after_wrFld, rd_ctl_same]
  refine ⟨?_, ?_, fun hp => ?_, ?_, ?_⟩
  · rw [runBank, hboot, fld_setFld _ (by decide) (by decide), Nat.mod_eq_of_lt (by omega)]
  · rw [hboot, fld_setFld_other _ (by decide) (by decide) (by decide), hu]
    split
    · rfl
    · rw [fld_setBit_other _ (by decide) (by decide)]
  · rw [hboot, bit_setFld_other _ (by decide) (by decide) (by decide), hu, if_neg hp, bit_setBit_same _ (by decide)]
  · rw [e, (within_one (ps := [.fwHeader]) rfl).rd, (keepsReg_wrFld (by decide) 0 0 b).rd, hsecond (by decide) (by decide)]
  · rw [e]
    exact fwHeader_apply ..

theorem after_rejectImage (s : State) {c : Nat} (hc : c < 256) : fld (rd (after (rejectImage c) s) bootStat) 15 8 = c ∧
    rd (after (rejectImage c) s) 0x100 = rd s 0x100 := by
  rw [rejectImage, after_seq_cons, after_seq_cons, after_seq_cons, after_seq_nil]
  constructor
  · rw [(keepsReg_setIst (by decide) 9).rd, (keepsReg_count (by decide) (by decide) (by decide) 1).rd, after_wrFld, rd_ctl_same,
      fld_setFld _ (by decide) (by decide)]
    exact Nat.mod_eq_of_lt hc
  · rw [(keepsReg_setIst (by decide) 9).rd, (keepsReg_count (by decide) (by decide) (by decide) 1).rd, (keepsReg_wrFld (by decide) 15 8 c).rd]

theorem verifyBank_code {s : State} {b c : Nat} {readOk : Bool} (h : verifyBank s b readOk = some c) : c < 256 := by
  have hrej (im : List Byte) (h : imageReject s im = some c) : c < 256 := by
    unfold imageReject at h
    dsimp only at h
    split at h
    · cases h; decide
    split at h
    · cases h; decide
    split at h
    · cases h; decide
    split at h
    · cases h; decide
    split at h
    · cases h; decide
    split at h
    · cases h; decide
    · cases h
  unfold verifyBank at h
  split at h
  · cases h
    decide
  · exact hrej _ h

theorem fwHeader_after_bootChange (a : Act) (s : State) : (after (bootChange a) s).fwHeader = (after a s).fwHeader := by
  rw [bootChange, after_look]
  dsimp only
  rw [after_seq_cons, after_seq_cons, after_seq_nil]
  exact Keeps.eq (f := (·.fwHeader)) (keeps_look fun _ => keeps_act fun _ => (within_sensorEvent ..).leaves keeps_fwHeader) _

/-- The bank that the record in force has the ROM try first. -/
def firstBank (r : BootRecord) : Nat := if r.confirmed = true ∨ 0 < r.tries then r.pref else 1 - r.pref

theorem bootCopy_pref_lt {s : State} {k : Nat} {r : BootRecord} (h : bootCopy s k = some r) : r.pref < 2 := by
  rw [bootCopy] at h
  split at h
  · cases h
    exact Nat.mod_lt _ (by decide)
  · cases h

theorem bootRecord_pref_lt (s : State) : (bootRecord s).pref < 2 := by
  rw [bootRecord]
  split
  case h_1 a b ha hb =>
    split
    · exact bootCopy_pref_lt hb
    · exact bootCopy_pref_lt ha
  case h_2 a ha hb => exact bootCopy_pref_lt ha
  case h_3 b ha hb => exact bootCopy_pref_lt hb
  case h_4 => decide

section

variable {s : State} (hd : devState s = 0) (hf : fuseOk s = true) (hw : s.fwHeader = []) (readA readB : Bool)
include hd hf hw

/-- The flash read of bank b completed. -/
def bankRead (readA readB : Bool) (b : Nat) : Bool := if b = 0 then readA else readB

theorem after_actBankChoose_first (h : verifyBank s (firstBank (bootRecord s)) (bankRead readA readB (firstBank (bootRecord s))) = none) :
    after (actBankChoose readA readB) s = after (bootChange (takeBank (bootRecord s) (firstBank (bootRecord s)))) s := by
  rw [firstBank, bankRead] at h
  rw [actBankChoose, after_look, firstBank]
  dsimp only
  simp only [Bool.or_eq_true, decide_eq_true_eq]
  rw [h, after_act, decide_eq_true hd, hf, hw, if_pos (by decide)]

theorem after_actBankChoose_second {c : Nat} (h : verifyBank s (firstBank (bootRecord s)) (bankRead readA readB (firstBank (bootRecord s))) = some c)
    (h2 : verifyBank s (1 - firstBank (bootRecord s)) (bankRead readA readB (1 - firstBank (bootRecord s))) = none) :
    after (actBankChoose readA readB) s =
      after (bootChange (seq [rejectImage c, takeBank (bootRecord s) (1 - firstBank (bootRecord s))])) s := by
  rw [firstBank, bankRead] at h h2
  rw [actBankChoose, after_look, firstBank]
  dsimp only
  simp only [Bool.or_eq_true, decide_eq_true_eq]
  rw [h, h2, after_act, decide_eq_true hd, hf, hw, if_pos (by decide)]

theorem after_actBankChoose_none {c d : Nat} (h : verifyBank s (firstBank (bootRecord s)) (bankRead readA readB (firstBank (bootRecord s))) = some c)
    (h2 : verifyBank s (1 - firstBank (bootRecord s)) (bankRead readA readB (1 - firstBank (bootRecord s))) = some d) :
    after (actBankChoose readA readB) s =
      after (bootChange (seq [rejectImage c, seq [rejectImage d, setDevState 3, wrBit bootStat 2 true]])) s := by
  rw [firstBank, bankRead] at h h2
  rw [actBankChoose, after_look]
  dsimp only
  simp only [Bool.or_eq_true, decide_eq_true_eq]
  rw [h, h2, after_act, decide_eq_true hd, hf, hw, if_pos (by decide)]

omit hd hf hw in
theorem firstBank_lt (s : State) : firstBank (bootRecord s) < 2 := by
  have := bootRecord_pref_lt s
  rw [firstBank]
  split <;> omega

theorem bankChoose_first (h : verifyBank s (firstBank (bootRecord s)) (bankRead readA readB (firstBank (bootRecord s))) = none) :
    runBank (after (actBankChoose readA readB) s) = firstBank (bootRecord s) ∧
      (after (actBankChoose readA readB) s).fwHeader = flashBytes s (bankAddr (firstBank (bootRecord s))) 0x3000 ∧
      devState (after (actBankChoose readA readB) s) = 0 := by
  obtain ⟨hrun, -, -, hstate, hheader⟩ := after_takeBank s (bootRecord s) (firstBank_lt s)
  rw [after_actBankChoose_first hd hf hw readA readB h]
  refine ⟨?_, ?_, ?_⟩
  · rw [runBank, rd_after_bootChange (by decide)]
    exact hrun
  · rw [fwHeader_after_bootChange, hheader]
  · rw [devState, rd_after_bootChange (by decide), hstate]
    exact hd

theorem bankChoose_second {c : Nat} (h : verifyBank s (firstBank (bootRecord s)) (bankRead readA readB (firstBank (bootRecord s))) = some c)
    (h2 : verifyBank s (1 - firstBank (bootRecord s)) (bankRead readA readB (1 - firstBank (bootRecord s))) = none) :
    runBank (after (actBankChoose readA readB) s) = 1 - firstBank (bootRecord s) ∧
      (after (actBankChoose readA readB) s).fwHeader = flashBytes s (bankAddr (1 - firstBank (bootRecord s))) 0x3000 ∧
      devState (after (actBankChoose readA readB) s) = 0 ∧ fld (rd (after (actBankChoose readA readB) s) bootStat) 15 8 = c ∧
      (firstBank (bootRecord s) = (bootRecord s).pref → bit (rd (after (actBankChoose readA readB) s) bootStat) 1 = true) := by
  have hb : 1 - firstBank (bootRecord s) < 2 := by omega
  have hlt := firstBank_lt s
  obtain ⟨hcode, hkept⟩ := after_rejectImage s (verifyBank_code h)
  obtain ⟨hrun, hfld, hfell, hstate, hheader⟩ := after_takeBank (after (rejectImage c) s) (bootRecord s) hb
  have hflash : flashBytes (after (rejectImage c) s) = flashBytes s := by
    funext a n
    rw [flashBytes, flashBytes, (within_rejectImage c).flash]
  rw [after_actBankChoose_second hd hf hw readA readB h h2]
  have e : after (seq [rejectImage c, takeBank (bootRecord s) (1 - firstBank (bootRecord s))]) s =
      after (takeBank (bootRecord s) (1 - firstBank (bootRecord s))) (after (rejectImage c) s) := by
    rw [after_seq_cons, after_seq_cons, after_seq_nil]
  refine ⟨?_, ?_, ?_, ?_, fun hp => ?_⟩
  · rw [runBank, rd_after_bootChange (by decide), e]
    exact hrun
  · rw [fwHeader_after_bootChange, e, hheader, hflash]
  · rw [devState, rd_after_bootChange (by decide), e, hstate, hkept]
    exact hd
  · rw [rd_after_bootChange (by decide), e, hfld, hcode]
  · rw [rd_after_bootChange (by decide), e]
    exact hfell (by omega)

theorem bankChoose_none {c d : Nat} (h : verifyBank s (firstBank (bootRecord s)) (bankRead readA readB (firstBank (bootRecord s))) = some c)
    (h2 : verifyBank s (1 - firstBank (bootRecord s)) (bankRead readA readB (1 - firstBank (bootRecord s))) = some d) :
    devState (after (actBankChoose readA readB) s) = 3 ∧ bit (rd (after (actBankChoose readA readB) s) bootStat) 2 = true ∧
      fld (rd (after (actBankChoose readA readB) s) bootStat) 15 8 = d ∧ (after (actBankChoose readA readB) s).fwHeader = [] := by
  have hkeep : Keeps (·.fwHeader) (seq [rejectImage c, seq [rejectImage d, setDevState 3, wrBit bootStat 2 true]]) :=
    keeps_seq_cons ((within_rejectImage c).leaves keeps_fwHeader) (keeps_seq_cons (keeps_seq_cons ((within_rejectImage d).leaves keeps_fwHeader)
      (keeps_seq_cons ((within_setDevState 3).leaves keeps_fwHeader) (keeps_seq_cons ((within_wrBit ..).leaves keeps_fwHeader) keeps_seq_nil))) keeps_seq_nil)
  have e : after (seq [rejectImage c, seq [rejectImage d, setDevState 3, wrBit bootStat 2 true]]) s =
      after (wrBit bootStat 2 true) (after (setDevState 3) (after (rejectImage d) (after (rejectImage c) s))) := by
    rw [after_seq_cons, after_seq_cons, after_seq_nil, after_seq_cons, after_seq_cons, after_seq_cons, after_seq_nil]
  rw [after_actBankChoose_none hd hf hw readA readB h h2]
  refine ⟨?_, ?_, ?_, ?_⟩
  · rw [devState, rd_after_bootChange (by decide), e, (keepsReg_wrBit (by decide) 2 true).rd]
    exact devState_after_setDevState _ (by decide)
  · rw [rd_after_bootChange (by decide), e, after_wrBit, rd_ctl_same, bit_setBit_same _ (by decide)]
  · rw [rd_after_bootChange (by decide), e, after_wrBit, rd_ctl_same, fld_setBit_other _ (by decide) (by decide),
      (keepsReg_setDevState (by decide) (by decide) 3).rd, (after_rejectImage _ (verifyBank_code h2)).1]
  · rw [fwHeader_after_bootChange]
    exact (hkeep.eq s).trans hw

end

/-! ## The firmware starts -/

theorem imageSvn_lt (im : List Byte) : imageSvn im < 128 := Nat.mod_lt _ (by decide)

/-- The five measurements are taken; measurement 2 is that of the firmware's signed header. -/
theorem rd_after_measures (s : State) {j : Nat} (hj : j < 12) :
    rd (after (each [1, 2, 3, 4, 5] takeMeasure) s) (secPage 1 + 0x140 + 4 * j) = (leWords 12 (sha384 (s.fwHeader.take 0x400))).getD j 0 := by
  have hp : secPage 1 = 0x9000 := rfl
  have hlater (n : Nat) (hn : 3 ≤ n) : KeepsReg (secPage 1 + 0x140 + 4 * j) (takeMeasure n) := keepsReg_takeMeasure (by omega) (by omega)
  rw [after_each_cons, after_each_cons, after_each_cons, after_each_cons, after_each_cons, after_each_nil, (hlater 5 (by decide)).rd,
    (hlater 4 (by decide)).rd, (hlater 3 (by decide)).rd, takeMeasure, after_look]
  have hm : measure (after (takeMeasure 1) s) 2 = sha384 (s.fwHeader.take 0x400) := by
    rw [measure, (within_takeMeasure 1).fwHeader]
  rw [hm, show secPage 1 + 0x140 + 4 * j = secPage 1 + 0x100 + 0x40 * (2 - 1) + 4 * j by omega]
  exact rd_after_putMeasure _ 2 _ hj

theorem keepsReg_measures {x : Nat} (hx : x / 4096 ≠ 9) : KeepsReg x (each [1, 2, 3, 4, 5] takeMeasure) :=
  have hp : secPage 1 = 0x9000 := rfl
  keeps_each fun n hn => keepsReg_takeMeasure (by omega) (by
    simp only [List.mem_cons, List.not_mem_nil, or_false] at hn
    omega)

theorem wdtArmed_apply (b : Bool) (s : State) : ((Upd.wdtArmed b).apply s).wdtArmed = b := rfl

theorem does_firmwareStart {s : State} (hs : powered s = true) (hd : devState s = 0) (hw : s.fwHeader ≠ []) :
    Does .firmwareStart s [.ctl, .wdtArmed, .evQueue, .out] fun t => devState t = 1 ∧
      t.wdtArmed = true ∧ runSvn t = imageSvn s.fwHeader ∧ rd t (secPage 0 + 0x104) = BitVec.ofNat 32 (plWord s.fwHeader 4) ∧
      ∀ j < 12, rd t (secPage 1 + 0x140 + 4 * j) = (leWords 12 (sha384 (s.fwHeader.take 0x400))).getD j 0 := by
  let boot := bootChange (seq [wrFld bootStat 5 4 (imageSlot s.fwHeader), act (recordConfirms s) (wrBit bootStat 16 true)])
  let s2 := after (wrFld (secPage 0 + 0x108) 6 0 (imageSvn s.fwHeader)) (after (wr (secPage 0 + 0x104) (BitVec.ofNat 32 (plWord s.fwHeader 4))) s)
  let s4 := after (wr (mgtPage 2 + 0x128) (BitVec.ofNat 32 (0x80000000 + 2000))) (after boot s2)
  let s6 := after (setDevState 1) (after (one (.wdtArmed true)) s4)
  let last := wrBit (mgtPage 0 + 0x100) 3 (decide (fld (rd s (mgtPage 2 + 0x120)) 2 0 ≠ 0))
  have hempty : s.fwHeader.isEmpty = false := by simpa using hw
  have e : after actFirmwareStart s = after last (after (each [1, 2, 3, 4, 5] takeMeasure) s6) := by
    rw [actFirmwareStart, after_look]
    dsimp only
    rw [after_act, decide_eq_true hd, hempty, if_pos (by decide), after_seq_cons, after_seq_cons, after_seq_cons, after_seq_cons, after_seq_cons,
      after_seq_cons, after_seq_cons, after_seq_cons, after_seq_nil]
  have hboot {x : Nat} (hx : x ≠ evQstat) (hb : x ≠ bootStat) : KeepsReg x boot := keepsReg_bootChange hx
    (keeps_seq_cons (keepsReg_wrFld hb ..) (keeps_seq_cons (keeps_act fun _ => keepsReg_wrBit hb ..) keeps_seq_nil))
  have hsec {x : Nat} (hx : x = secPage 0 + 0x104 ∨ x = secPage 0 + 0x108) : rd (after actFirmwareStart s) x = rd s2 x := by
    have hp : secPage 0 = 0x8000 := rfl
    have hp0 : mgtPage 0 = 0 := rfl
    have hp2 : mgtPage 2 = 0x2000 := rfl
    have hq : evQstat = 0x200 := rfl
    have hb : bootStat = 0x8100 := rfl
    rw [e, (keepsReg_wrBit (by omega) ..).rd, (keepsReg_measures (by omega)).rd, (keepsReg_setDevState (by omega) (by omega) 1).rd,
      (within_one (ps := [.wdtArmed]) rfl).rd, (keepsReg_wr (by omega) _).rd, (hboot (by omega) (by omega)).rd]
  have hheader : s6.fwHeader = s.fwHeader := by
    have hk : Keeps (·.fwHeader) boot := ⟨fun u => (fwHeader_after_bootChange _ u).trans (Keeps.eq (keeps_seq_cons
      ((within_wrFld ..).leaves keeps_fwHeader) (keeps_seq_cons (keeps_act fun _ => (within_wrBit ..).leaves keeps_fwHeader) keeps_seq_nil)) u)⟩
    have h3 : (after boot s2).fwHeader = s2.fwHeader := hk.eq s2
    rw [show s6 = after (setDevState 1) (after (one (.wdtArmed true)) s4) from rfl, (within_setDevState 1).fwHeader,
      (within_one (ps := [.wdtArmed]) rfl).fwHeader, show s4 = after (wr (mgtPage 2 + 0x128) (BitVec.ofNat 32 (0x80000000 + 2000))) (after boot s2) from rfl,
      (within_wr ..).fwHeader, h3, show s2 = after (wrFld (secPage 0 + 0x108) 6 0 (imageSvn s.fwHeader))
        (after (wr (secPage 0 + 0x104) (BitVec.ofNat 32 (plWord s.fwHeader 4))) s) from rfl, (within_wrFld ..).fwHeader, (within_wr ..).fwHeader]
  refine does_of_run hs rfl (within_actFirmwareStart.onlyIn s) ⟨?_, ?_, ?_, ?_, fun j hj => ?_⟩
  · have h1 : rd (after (each [1, 2, 3, 4, 5] takeMeasure) s6) 0x100 = rd s6 0x100 := (keepsReg_measures (by decide)).rd s6
    have h2 : fld (rd s6 0x100) 2 0 = 1 := devState_after_setDevState _ (by decide)
    rw [e, devState]
    refine (congrArg (fun w => fld w 2 0) (rd_ctl_same ..)).trans ?_
    rw [fld_setBit_other _ (by decide) (by decide)]
    exact (congrArg (fun w => fld w 2 0) h1).trans h2
  · rw [e]
    have hk : Keeps (·.wdtArmed) (each [1, 2, 3, 4, 5] takeMeasure) := keeps_each fun n _ => (within_takeMeasure n).leaves keeps_wdtArmed
    have h7 : (after (each [1, 2, 3, 4, 5] takeMeasure) s6).wdtArmed = s6.wdtArmed := hk.eq s6
    rw [(within_wrBit ..).wdtArmed, h7, show s6 = after (setDevState 1) (after (one (.wdtArmed true)) s4) from rfl, (within_setDevState 1).wdtArmed]
    exact wdtArmed_apply ..
  · rw [runSvn, hsec (Or.inr rfl)]
    exact (congrArg (fun w => fld w 6 0) (rd_ctl_same ..)).trans
      ((fld_setFld (hi := 6) (lo := 0) _ (by decide) (by decide) _).trans (Nat.mod_eq_of_lt (imageSvn_lt _)))
  · rw [hsec (Or.inl rfl)]
    exact ((keepsReg_wrFld (by decide) ..).rd _).trans (rd_ctl_same ..)
  · have hp : secPage 1 = 0x9000 := rfl
    have hp0 : mgtPage 0 = 0 := rfl
    rw [e, (keepsReg_wrBit (by omega) ..).rd, rd_after_measures _ hj, hheader]

/-! ## The entry to RUN -/

/-- The rest of the start writes no control register below the pages of the sites but FAB_MESH_CTRL and the table's generation. -/
theorem keepsReg_routeAround {x : Nat} (hx : x < 0x1000000) (hm : x ≠ fabGPage + 0x104) : KeepsReg x routeAround := by
  refine keeps_look fun s => keeps_seq_cons ((within_one (ps := [.mesh]) rfl).keepsReg x) (keeps_seq_cons (keeps_ite (fun _ => ?_) fun _ => keepsReg_wrBit hm 1 true) keeps_seq_nil)
  refine keeps_each fun c _ => keeps_each fun n _ => keepsReg_wr ?_ _
  unfold fabPage sitePage
  omega

theorem keepsReg_rewriteDistances {x : Nat} (hm : x ≠ fabGPage + 0x140) : KeepsReg x rewriteDistances :=
  keeps_look fun _ => keeps_seq_cons (keepsReg_wr hm _) (keeps_seq_cons (keeps_look fun _ => (within_one (ps := [.mesh]) rfl).keepsReg x) keeps_seq_nil)

theorem keepsReg_setGroupTable {x : Nat} (hx : ∀ n < 24, x ≠ uePage n + 0x100 ∧ x ≠ uePage n + 0x104) : KeepsReg x setGroupTable :=
  keeps_look fun _ => keeps_each fun n hn => by
    obtain ⟨h0, h4⟩ := hx n (List.mem_range.mp hn)
    exact keeps_seq_cons (keepsReg_wr h0 _) (keeps_seq_cons (keepsReg_wr h4 _) keeps_seq_nil)

theorem rd_after_setGroupTable (s : State) {n : Nat} (hn : n < 24) :
    rd (after setGroupTable s) (uePage n + 0x100) = BitVec.ofNat 32 (65536 * (rsvBase s + 8192)) ∧
    rd (after setGroupTable s) (uePage n + 0x104) = BitVec.ofNat 32 (65536 * (rsvBase s + 8192) / 2 ^ 32) := by
  have hset (m : Nat) (u : State) (v w : Word) : rd (after (seq [wr (uePage m + 0x100) v, wr (uePage m + 0x104) w]) u) (uePage m + 0x100) = v ∧
      rd (after (seq [wr (uePage m + 0x100) v, wr (uePage m + 0x104) w]) u) (uePage m + 0x104) = w := by
    rw [after_seq_cons, after_seq_cons, after_seq_nil]
    exact ⟨((keepsReg_wr (by omega) w).rd _).trans (rd_ctl_same ..), rd_ctl_same ..⟩
  have hother (x k : Nat) (v w : Word) (h0 : x ≠ uePage k + 0x100) (h4 : x ≠ uePage k + 0x104) :
      KeepsReg x (seq [wr (uePage k + 0x100) v, wr (uePage k + 0x104) w]) :=
    keeps_seq_cons (keepsReg_wr h0 _) (keeps_seq_cons (keepsReg_wr h4 _) keeps_seq_nil)
  rw [setGroupTable, after_look]
  dsimp only
  generalize BitVec.ofNat 32 (65536 * (rsvBase s + 8192)) = v, BitVec.ofNat 32 (65536 * (rsvBase s + 8192) / 2 ^ 32) = w
  constructor
  · refine after_each_sets (f := (rd · (uePage n + 0x100))) (List.mem_range.mpr hn) (fun u => (hset n u _ _).1) (fun k _ => ?_) s
    by_cases hk : k = n
    · exact Or.inl fun u => by rw [hk]; exact (hset n u _ _).1
    · exact Or.inr (hother _ k _ _ (by unfold uePage; omega) (by unfold uePage; omega))
  · refine after_each_sets (f := (rd · (uePage n + 0x104))) (List.mem_range.mpr hn) (fun u => (hset n u _ _).2) (fun k _ => ?_) s
    by_cases hk : k = n
    · exact Or.inl fun u => by rw [hk]; exact (hset n u _ _).2
    · exact Or.inr (hother _ k _ _ (by unfold uePage; omega) (by unfold uePage; omega))

theorem keepsReg_readFru {x : Nat} (h1 : x ≠ pwrPage 0 + 0x11C) (h2 : x ≠ pwrPage 0 + 0x20) (h3 : x ≠ pwrPage 0 + 0x10C) (fru : Option (List Byte)) :
    KeepsReg x (readFru fru) := by
  refine keeps_look fun s => keeps_seq_cons ((within_one (ps := [.mgmt]) rfl).keepsReg x) (keeps_seq_cons ?_
    (keeps_seq_cons (keeps_look fun _ => keepsReg_wrFld h3 ..) keeps_seq_nil))
  split
  · exact keepsReg_wr h1 _
  · exact keeps_seq_cons (keepsReg_wr h1 _) (keeps_seq_cons (keepsReg_setIst h2 11) keeps_seq_nil)

/-- A FRU memory without a slot limit (R584). -/
theorem rd_after_readFru_none {fru : Option (List Byte)} (h : fru.bind slotLimit = none) (s : State) :
    rd (after (readFru fru) s) (pwrPage 0 + 0x11C) = 1200 ∧ bit (rd (after (readFru fru) s) (pwrPage 0 + 0x20)) 11 = true := by
  rw [readFru, after_look, h]
  dsimp only
  rw [after_seq_cons, after_seq_cons, after_seq_cons, after_seq_nil, after_seq_cons, after_seq_cons, after_seq_nil, setEff, after_look]
  constructor
  · rw [(keepsReg_wrFld (by decide) ..).rd, (keepsReg_setIst (by decide) 11).rd, after_wr, rd_ctl_same]
  · rw [(keepsReg_wrFld (by decide) ..).rd, after_setIst, rd_ctl_same, bit_setBit_same _ (by decide)]

theorem mgmt_after_readFru (fru : Option (List Byte)) (s : State) :
    (after (readFru fru) s).mgmt = { s.mgmt with board := (fru.map boardInfo).getD [] } := by
  rw [readFru, after_look, after_seq_cons, after_seq_cons, after_seq_cons, after_seq_nil]
  have hw (w : Option Nat) : Within [.ctl] (match w with
      | some w => wr (pwrPage 0 + 0x11C) (BitVec.ofNat 32 (65536 + w % 65536))
      | none => seq [wr (pwrPage 0 + 0x11C) 1200, setIst (pwrPage 0) 11]) := by
    cases w with
    | some => exact within_wr ..
    | none => exact within_seq_cons (within_wr ..) (within_seq_cons (within_setIst ..) within_seq_nil)
  exact (within_setEff.mgmt _).trans ((hw (fru.bind slotLimit)).mgmt _)

/-- What the entry to RUN does once the FRU is read and the group table set: the tables are computed and the faulty routers' sites withdrawn. -/
def meshPrepared (s u : State) : State :=
  after (seq [wrBit (fabGPage + 0x104) 0 true, each (faultyRouters s) (fun c => seq [wrBit (fabPage c + 0x10) 2 true, withdrawSite c]), routeAround,
    wrBit (fabGPage + 0x104) 0 false, rewriteDistances]) u

theorem meshPrepared_eq (s u : State) : meshPrepared s u = after rewriteDistances (after (wrBit (fabGPage + 0x104) 0 false) (after routeAround
    (after (each (faultyRouters s) fun c => seq [wrBit (fabPage c + 0x10) 2 true, withdrawSite c]) (after (wrBit (fabGPage + 0x104) 0 true) u)))) := by
  rw [meshPrepared, after_seq_cons, after_seq_cons, after_seq_cons, after_seq_cons, after_seq_cons, after_seq_nil]

theorem keepsReg_meshPrepared {x : Nat} (hx : x < 0x1000000) (hm : x ≠ fabGPage + 0x104) (hd : x ≠ fabGPage + 0x140) (s u : State) :
    rd (meshPrepared s u) x = rd u x := by
  refine KeepsReg.rd (keeps_seq_cons (keepsReg_wrBit hm ..) (keeps_seq_cons (keeps_each fun c _ => ?_) (keeps_seq_cons (keepsReg_routeAround hx hm)
    (keeps_seq_cons (keepsReg_wrBit hm ..) (keeps_seq_cons (keepsReg_rewriteDistances hd) keeps_seq_nil))))) u
  exact keeps_seq_cons (keepsReg_wrBit (by unfold fabPage sitePage; omega) ..) (keeps_seq_cons ((within_withdrawSite c).keepsReg x) keeps_seq_nil)

theorem within_meshPrepared (s : State) : Within [.withdrawn, .ctl, .mesh] (seq [wrBit (fabGPage + 0x104) 0 true,
    each (faultyRouters s) (fun c => seq [wrBit (fabPage c + 0x10) 2 true, withdrawSite c]), routeAround,
    wrBit (fabGPage + 0x104) 0 false, rewriteDistances]) :=
  within_seq_cons ((within_wrBit ..).wider rfl) (within_seq_cons (within_each fun c => within_seq_cons ((within_wrBit ..).wider rfl)
    (within_seq_cons ((within_withdrawSite c).wider rfl) within_seq_nil)) (within_seq_cons (within_routeAround.wider rfl)
    (within_seq_cons ((within_wrBit ..).wider rfl) (within_seq_cons (within_rewriteDistances.wider rfl) within_seq_nil))))

/-- The ring controller confirms the image that reached RUN (R608). -/
def confirmImage (s : State) : Act := act (!bit (rd s bootStat) 16) (seq [act (!(bootRecord s).confirmed) (writeRecord (runBank s) (bootRecord s).tries true),
  bootChange (wrBit bootStat 16 true)])

theorem keepsReg_confirmImage {x : Nat} (hx : x ≠ evQstat) (hb : x ≠ bootStat) (s : State) : KeepsReg x (confirmImage s) :=
  keeps_act fun _ => keeps_seq_cons (keeps_act fun _ => (within_writeRecord ..).keepsReg x)
    (keeps_seq_cons (keepsReg_bootChange hx (keepsReg_wrBit hb 16 true)) keeps_seq_nil)

theorem within_confirmImage (s : State) : Within [.ctl, .flash, .evQueue, .out] (confirmImage s) :=
  within_act (within_seq_cons (within_act ((within_writeRecord ..).wider rfl))
    (within_seq_cons (within_bootChange rfl ((within_wrBit ..).wider rfl)) within_seq_nil))

theorem confirmed_after_confirmImage (s u : State) (h : rd u bootStat = rd s bootStat) : bit (rd (after (confirmImage s) u) bootStat) 16 = true := by
  rw [confirmImage, after_act]
  split
  · rw [after_seq_cons, after_seq_cons, after_seq_nil, rd_after_bootChange (by decide), after_wrBit, rd_ctl_same, bit_setBit_same _ (by decide)]
  case isFalse hc =>
    rw [h]
    simpa using hc

theorem does_runEntry {s : State} (hs : powered s = true) (hd : devState s = 1) (hfill : allFilled s = true)
    (hfree : bit (rd s (mgtPage 0 + 0x100)) 3 = false) (fru : Option (List Byte)) :
    Does (.runEntry fru) s [.power, .withdrawn, .ctl, .mesh, .flash, .mgmt, .evQueue, .out] fun t => devState t = 2 ∧
      t.mgmt = { s.mgmt with board := (fru.map boardInfo).getD [] } ∧ t.power = { s.power with state := .run } ∧
      fld (rd t (pwrPage 0 + 0x120)) 2 0 = 3 ∧ bit (rd t bootStat) 16 = true ∧
      (∀ n < 24, rd t (uePage n + 0x100) = BitVec.ofNat 32 (65536 * (rsvBase s + 8192)) ∧
        rd t (uePage n + 0x104) = BitVec.ofNat 32 (65536 * (rsvBase s + 8192) / 2 ^ 32)) ∧
      (fru.bind slotLimit = none → rd t (pwrPage 0 + 0x11C) = 1200 ∧ bit (rd t (pwrPage 0 + 0x20)) 11 = true) := by
  let u1 := after (readFru fru) s
  let u2 := after setGroupTable u1
  let u3 := meshPrepared s u2
  let u4 := after (setDevState 2) u3
  let u5 := after (wrFld (pwrPage 0 + 0x120) 2 0 3) u4
  let u6 := after (setPower (fun p => { p with state := .run })) (after (sensorEvent 1 3) u5)
  have e : after (actRunEntry fru) s = after (confirmImage s) u6 := by
    rw [actRunEntry, after_look, after_act, decide_eq_true hd, hfill, hfree, if_pos (by decide), after_seq_cons, after_seq_cons, after_seq_cons,
      after_seq_cons, after_seq_cons, after_seq_cons, after_seq_cons, after_seq_cons, after_seq_cons, after_seq_cons, after_seq_cons, after_seq_cons,
      after_seq_nil]
    rw [← meshPrepared_eq, ← confirmImage]
  have h65 {x : Nat} (hx : x ≠ evQstat) : rd u6 x = rd u5 x :=
    ((within_setPower _).rd (after (sensorEvent 1 3) u5) x).trans ((keepsReg_sensorEvent hx 1 3).rd u5)
  have h54 {x : Nat} (hx : x ≠ pwrPage 0 + 0x120) : rd u5 x = rd u4 x := rd_ctl_other u4 hx _
  have h43 {x : Nat} (hx : x ≠ evQstat) (h0 : x ≠ 0x100) : rd u4 x = rd u3 x := (keepsReg_setDevState hx h0 2).rd u3
  have h32 {x : Nat} (hx : x < 0x1000000) (hm : x ≠ fabGPage + 0x104) (hd : x ≠ fabGPage + 0x140) : rd u3 x = rd u2 x := keepsReg_meshPrepared hx hm hd s u2
  have hall {x : Nat} (hb : x ≠ bootStat) (hx : x ≠ evQstat) (h0 : x ≠ 0x100) (hp : x ≠ pwrPage 0 + 0x120) (hlow : x < 0x1000000)
      (hm : x ≠ fabGPage + 0x104) (hd : x ≠ fabGPage + 0x140) : rd (after (confirmImage s) u6) x = rd u2 x :=
    ((keepsReg_confirmImage hx hb s).rd u6).trans ((h65 hx).trans ((h54 hp).trans ((h43 hx h0).trans (h32 hlow hm hd))))
  refine does_of_run hs rfl ((within_actRunEntry fru).onlyIn s) ?_
  rw [e]
  refine ⟨?_, ?_, ?_, ?_, ?_, fun n hn => ?_, fun hslot => ?_⟩
  · have h := devState_after_setDevState u3 (n := 2) (by decide)
    rw [devState] at h ⊢
    rw [(keepsReg_confirmImage (by decide) (by decide) s).rd, h65 (by decide), h54 (by decide)]
    exact h
  · have h1 : u2.mgmt = u1.mgmt := within_setGroupTable.mgmt u1
    have h2 : u3.mgmt = u2.mgmt := (within_meshPrepared s).mgmt u2
    have h3 : u4.mgmt = u3.mgmt := (within_setDevState 2).mgmt u3
    have h4 : u5.mgmt = u4.mgmt := (within_wrFld ..).mgmt u4
    have h5 : (after (sensorEvent 1 3) u5).mgmt = u5.mgmt := (within_sensorEvent 1 3).mgmt u5
    have h6 : u6.mgmt = (after (sensorEvent 1 3) u5).mgmt := (within_setPower _).mgmt _
    rw [(within_confirmImage s).mgmt, h6, h5, h4, h3, h2, h1]
    exact mgmt_after_readFru fru s
  · have h0 : u1.power = s.power := (within_readFru fru).power s
    have h1 : u2.power = u1.power := within_setGroupTable.power u1
    have h2 : u3.power = u2.power := (within_meshPrepared s).power u2
    have h3 : u4.power = u3.power := (within_setDevState 2).power u3
    have h4 : u5.power = u4.power := (within_wrFld ..).power u4
    have h5 : (after (sensorEvent 1 3) u5).power = u5.power := (within_sensorEvent 1 3).power u5
    rw [(within_confirmImage s).power, show u6 = after (setPower (fun p => { p with state := .run })) (after (sensorEvent 1 3) u5) from rfl,
      after_setPower, h5, h4, h3, h2, h1, h0]
  · rw [(keepsReg_confirmImage (by decide) (by decide) s).rd, h65 (by decide)]
    exact (congrArg (fun w => fld w 2 0) (rd_ctl_same ..)).trans (fld_setFld (hi := 2) (lo := 0) _ (by decide) (by decide) 3)
  · refine confirmed_after_confirmImage s u6 ?_
    rw [h65 (by decide), h54 (by decide), h43 (by decide) (by decide), h32 (by decide) (by decide) (by decide),
      show u2 = after setGroupTable u1 from rfl, (keepsReg_setGroupTable fun n hn => ?_).rd]
    · exact (keepsReg_readFru (by decide) (by decide) (by decide) fru).rd s
    · have hb : bootStat = 0x8100 := rfl
      unfold uePage
      omega
  · have hq : evQstat = 0x200 := rfl
    have hb : bootStat = 0x8100 := rfl
    have hp : pwrPage 0 = 0xC000 := rfl
    have hg : fabGPage = 0x10000 := rfl
    have hrsv : rsvBase u1 = rsvBase s := by
      rw [rsvBase, rsvBase, inlineOn, inlineOn, (within_readFru fru).straps]
    obtain ⟨h0, h4⟩ := rd_after_setGroupTable u1 hn
    rw [hrsv] at h0 h4
    have hu : uePage n = 0x120000 + n * 0x1000 := rfl
    exact ⟨(hall (by omega) (by omega) (by omega) (by omega) (by omega) (by omega) (by omega)).trans h0,
      (hall (by omega) (by omega) (by omega) (by omega) (by omega) (by omega) (by omega)).trans h4⟩
  · obtain ⟨h1, h2⟩ := rd_after_readFru_none hslot s
    have hp : pwrPage 0 = 0xC000 := rfl
    have hne (o : Nat) (ho : o < 4096) : ∀ n < 24, pwrPage 0 + o ≠ uePage n + 0x100 ∧ pwrPage 0 + o ≠ uePage n + 0x104 := by
      intro n hn
      unfold uePage
      omega
    rw [hall (by decide) (by decide) (by decide) (by decide) (by decide) (by decide) (by decide),
      hall (by decide) (by decide) (by decide) (by decide) (by decide) (by decide) (by decide)]
    rw [show u2 = after setGroupTable u1 from rfl, (keepsReg_setGroupTable (hne 0x11C (by decide))).rd, (keepsReg_setGroupTable (hne 0x20 (by decide))).rd]
    exact ⟨h1, h2⟩

/-- Settles O53: what each act of the start writes stands through those after it. -/
theorem deviceStarts : Obligations.DeviceStarts := by
  unfold Obligations.DeviceStarts
  intro s hs
  refine ⟨fun h => ⟨does_pllLock hs.1 h, does_pllLock_bad hs.1 h⟩, fun n => does_pllLockLoss hs.1, fun n => does_pllLockRegain hs.1, ?_,
    does_firmwareStart hs.1, fun n ch => does_channelTrained hs.1, fun fru hd hf hb => does_runEntry hs.1 hd hf hb fru⟩
  rintro readA readB r first hd hf hw rfl hfirst
  obtain rfl : first = firstBank (bootRecord s) := hfirst
  refine does_of_run hs.1 rfl ((within_actBankChoose ..).onlyIn s) ?_
  cases h1 : verifyBank s (firstBank (bootRecord s)) (if firstBank (bootRecord s) = 0 then readA else readB) with
  | none => exact bankChoose_first hd hf hw readA readB h1
  | some c =>
    cases h2 : verifyBank s (1 - firstBank (bootRecord s)) (if 1 - firstBank (bootRecord s) = 0 then readA else readB) with
    | none => exact bankChoose_second hd hf hw readA readB h1 h2
    | some d => exact bankChoose_none hd hf hw readA readB h1 h2

end Sys2Proof.Machine
end

section
/-! The home table of a device without errors: where its entries lie, what a write of an entry and a frame zeroed change. -/

namespace Sys2Proof.Machine

-- One declaration after the other: elaborated side by side they take more memory than the check has.
set_option Elab.async false

/-- No error, no poison and no narrow write waits anywhere in device memory. -/
structure Plain (s : State) : Prop where
  chk : s.chk = []
  mergeBuf : s.mergeBuf = []
  clean : ∀ b, poisoned s b = false

theorem plain_of_errorFree {s : State} (h : ErrorFree s) (hm : s.mergeBuf = []) : Plain s := ⟨h.1, hm, h.2⟩

/-- Every block is held where it was (R405). -/
structure SameHold (s t : State) : Prop where
  straps : t.straps = s.straps
  number : ∀ n < 24, fld (rd t (mpPage n + 0x118)) 14 8 = fld (rd s (mpPage n + 0x118)) 14 8
  entry : ∀ n < 24, ∀ e < 64, bit (rd t (remapReg n e)) 31 = bit (rd s (remapReg n e)) 31 ∧
    fld (rd t (remapReg n e)) 29 0 = fld (rd s (remapReg n e)) 29 0

theorem SameHold.refl (s : State) : SameHold s s := ⟨rfl, fun _ _ => rfl, fun _ _ _ _ => ⟨rfl, rfl⟩⟩

theorem SameHold.trans {s t u : State} (h : SameHold s t) (g : SameHold t u) : SameHold s u :=
  ⟨g.straps.trans h.straps, fun n hn => (g.number n hn).trans (h.number n hn), fun n hn e he =>
    ⟨(g.entry n hn e he).1.trans (h.entry n hn e he).1, (g.entry n hn e he).2.trans (h.entry n hn e he).2⟩⟩

theorem SameHold.of_regs {s t : State} (hs : t.straps = s.straps) (h : ∀ n < 24, ∀ x, PortReg n x → rd t x = rd s x) : SameHold s t :=
  ⟨hs, fun n hn => by rw [h n hn _ (portReg_number n)], fun n hn e he => by rw [h n hn _ (portReg_remap n he)]; exact ⟨rfl, rfl⟩⟩

section

variable {s t : State} (h : SameHold s t)
include h

theorem SameHold.remapOf (b l : Nat) : remapOf t (blkPort b) l = remapOf s (blkPort b) l :=
  remapOf_of_fields (h.number _ (blkPort_lt b)) (h.entry _ (blkPort_lt b)) l

theorem SameHold.heldAt (b : Nat) : heldAt t b = heldAt s b := by
  rw [Machine.heldAt, Machine.heldAt, h.remapOf]
  split
  · exact spareBlk_of_straps h.straps ..
  · rfl

theorem SameHold.rsvBase : rsvBase t = rsvBase s := by rw [Machine.rsvBase, Machine.rsvBase, inlineOn, inlineOn, h.straps]

theorem SameHold.homeBase : homeBase t = homeBase s := by rw [Machine.homeBase, Machine.homeBase, h.rsvBase]

theorem SameHold.frameRemaps (f : Nat) : frameRemaps t f = frameRemaps s f := by
  refine List.filter_congr fun e he => ?_
  obtain ⟨h31, hl⟩ := h.entry (f % 24) (Nat.mod_lt _ (by decide)) e (List.mem_range.mp he)
  rw [h31, hl]

end

/-! ## Where an entry lies -/

/-- Where memory holds the entry of page p. -/
def entryAt (s : State) (p : Nat) : Nat := 64 * heldAt s ((homeBase s + 8 * p) / 64) + (homeBase s + 8 * p) % 64

/-- The 64-bit word in memory at a. -/
def memWord (s : State) (a : Nat) : DWord := BitVec.ofNat 64 (leNat ((List.range 8).map fun i => memByte s (a + i)))

theorem SameHold.entryAt {s t : State} (h : SameHold s t) (p : Nat) : entryAt t p = entryAt s p := by
  rw [Machine.entryAt, Machine.entryAt, h.homeBase, h.heldAt]

theorem verdictAt_plain {s : State} (h : s.chk = []) (tcorr q : Nat) : verdictAt s tcorr q = .clean :=
  verdictAt_fresh (by rw [rawDelta, h]; rfl) tcorr

section

variable {s : State} (h : Plain s)
include h

theorem Plain.mergeOf (b : Nat) : mergeOf s b = none := by rw [Machine.mergeOf, h.mergeBuf]; rfl

theorem Plain.tableByte (a : Nat) : tableByte s a = memByte s (64 * heldAt s (a / 64) + a % 64) := by
  rw [Machine.tableByte, readByte, h.clean, if_neg Bool.false_ne_true, verdictAt_plain h.chk, h.mergeOf]
  rfl

theorem Plain.homeEntry (p : Nat) : homeEntry s p = memWord s (entryAt s p) := by
  rw [Machine.homeEntry, tableNat, memWord]
  refine congrArg (fun bs => BitVec.ofNat 64 (leNat bs)) (List.map_congr_left fun i hi => ?_)
  have hi := List.mem_range.mp hi
  have hd : (homeBase s + 8 * p + i) / 64 = (homeBase s + 8 * p) / 64 := by unfold homeBase; omega
  have hm : (homeBase s + 8 * p + i) % 64 = (homeBase s + 8 * p) % 64 + i := by unfold homeBase; omega
  rw [h.tableByte, hd, hm, entryAt, Nat.add_assoc]

theorem Plain.entryClean (p : Nat) : entryClean s p = true := by
  rw [Machine.entryClean, h.clean, verdictAt_plain h.chk]
  rfl

end

theorem leNat_eight (f : Nat → Byte) : leNat ((List.range 8).map f) = (f 0).toNat + 256 * ((f 1).toNat + 256 * ((f 2).toNat + 256 * ((f 3).toNat +
    256 * ((f 4).toNat + 256 * ((f 5).toNat + 256 * ((f 6).toNat + 256 * (f 7).toNat)))))) := rfl

/-- An entry is valid by the top bit of its last byte. -/
theorem eValid_memWord (s : State) (a : Nat) : eValid (memWord s a) = bit (memByte s (a + 7)) 7 := by
  have hb (i : Nat) := (memByte s (a + i)).isLt
  rw [eValid, bit_eq_decide_fld, bit_eq_decide_fld, memWord, fld_ofNat _ (by decide) (Nat.le_refl 63), leNat_eight, fld, bits, bits]
  have := hb 0; have := hb 1; have := hb 2; have := hb 3; have := hb 4; have := hb 5; have := hb 6; have := hb 7
  exact decide_eq_decide.mpr (by omega)

/-- A word whose bytes were written reads as written. -/
theorem memWord_of_bytes {s : State} {a : Nat} {v : DWord} (h : ∀ i < 8, memByte s (a + i) = (leBytes 8 v.toNat).getD i 0) : memWord s a = v := by
  have e : (List.range 8).map (fun i => memByte s (a + i)) = leBytes 8 v.toNat :=
    (List.map_congr_left fun i hi => h i (List.mem_range.mp hi)).trans (map_range_getD (length_leBytes ..) 0)
  rw [memWord, e, leNat_leBytes]
  exact BitVec.eq_of_toNat_eq (by simpa using v.isLt)

/-! ## Entries lie apart -/

/-- The reserved region begins at a frame of port 0. -/
theorem rsvBase_mod (s : State) : rsvBase s % 24 = 0 := by
  rw [rsvBase]
  split <;> rfl

theorem spareBlk_port {s : State} {n e : Nat} (hn : n < 24) (he : e < 64) : blkPort (spareBlk s n e) = n := by
  have := rsvBase_mod s
  unfold blkPort spareBlk replFrame
  omega

/-- The entry that serves a block is valid and names it. -/
theorem remapOf_names {s : State} {n l e : Nat} (h : remapOf s n l = some e) : bit (rd s (remapReg n e)) 31 = true ∧ fld (rd s (remapReg n e)) 29 0 = l := by
  rw [remapOf] at h
  split at h
  · cases h
  · simpa using List.find?_some h

/-- A block outside the replacement frames. -/
def Unspared (s : State) (b : Nat) : Prop := ∀ n < 24, b / 1024 ≠ replFrame s n

/-- Where a block outside the replacement frames is held: at its own place, or at the spare of an entry that names it. -/
theorem heldAt_cases (s : State) (b : Nat) : heldAt s b = b ∨ ∃ e < 64, heldAt s b = spareBlk s (blkPort b) e ∧
    bit (rd s (remapReg (blkPort b) e)) 31 = true ∧ fld (rd s (remapReg (blkPort b) e)) 29 0 = blkLocal b := by
  cases he : remapOf s (blkPort b) (blkLocal b) with
  | none => exact Or.inl (by rw [heldAt, he])
  | some e => exact Or.inr ⟨e, remapOf_lt he, by rw [heldAt, he], remapOf_names he⟩

theorem eq_of_blkPort_blkLocal {a b : Nat} (hp : blkPort a = blkPort b) (hl : blkLocal a = blkLocal b) : a = b := by
  rw [← blkOf_port_local a, ← blkOf_port_local b, hp, hl]

theorem spareBlk_div (s : State) (n : Nat) {e : Nat} (he : e < 64) : spareBlk s n e / 1024 = replFrame s n := by
  unfold spareBlk
  omega

/-- Different blocks are held at different places. -/
theorem heldAt_inj {s : State} {a b : Nat} (ha : Unspared s a) (hb : Unspared s b) (h : heldAt s a = heldAt s b) : a = b := by
  rcases heldAt_cases s a with h1 | ⟨e1, he1, h1, -, hl1⟩ <;> rcases heldAt_cases s b with h2 | ⟨e2, he2, h2, -, hl2⟩
  · exact h1.symm.trans (h.trans h2)
  · exact absurd (by rw [← h1, h, h2, spareBlk_div s _ he2]) (ha _ (blkPort_lt b))
  · exact absurd (by rw [← h2, ← h, h1, spareBlk_div s _ he1]) (hb _ (blkPort_lt a))
  · have hs : spareBlk s (blkPort a) e1 = spareBlk s (blkPort b) e2 := by rw [← h1, h, h2]
    have hp : blkPort a = blkPort b := by
      rw [← spareBlk_port (s := s) (blkPort_lt a) he1, hs, spareBlk_port (blkPort_lt b) he2]
    rw [hp] at hs hl1
    have he : e1 = e2 := by
      unfold spareBlk at hs
      omega
    exact eq_of_blkPort_blkLocal hp (by rw [← hl1, he, hl2])

theorem unspared_of_lt {s : State} {b : Nat} (h : b / 1024 < rsvBase s + 8192) : Unspared s b := fun n _ => by
  unfold replFrame
  omega

theorem unspared_table (s : State) {p : Nat} (hp : p < 2 ^ 26) : Unspared s ((homeBase s + 8 * p) / 64) :=
  unspared_of_lt (by unfold homeBase; omega)

/-- Entries of different pages share no byte. -/
theorem entryAt_apart (s : State) {p q : Nat} (hp : p < 2 ^ 26) (hq : q < 2 ^ 26) (h : q ≠ p) :
    entryAt s q + 8 ≤ entryAt s p ∨ entryAt s p + 8 ≤ entryAt s q := by
  have hbase : homeBase s = 65536 * rsvBase s := rfl
  by_cases hb : (homeBase s + 8 * q) / 64 = (homeBase s + 8 * p) / 64
  · unfold entryAt
    rw [hb]
    omega
  · have hne : heldAt s ((homeBase s + 8 * q) / 64) ≠ heldAt s ((homeBase s + 8 * p) / 64) :=
      fun he => hb (heldAt_inj (unspared_table s hq) (unspared_table s hp) he)
    unfold entryAt
    omega

theorem memWord_congr {s t : State} {a : Nat} (h : ∀ i < 8, memByte t (a + i) = memByte s (a + i)) : memWord t a = memWord s a :=
  congrArg (fun bs => BitVec.ofNat 64 (leNat bs)) (List.map_congr_left fun i hi => h i (List.mem_range.mp hi))

/-! ## An entry is written -/

/-- A table write in a device without errors: its bytes and three counts. -/
theorem after_tablePut {s : State} (h : Plain s) (a n v : Nat) : after (tablePut a n v) s =
    after (count (mpPage (blkPort (a / 64))) 1 1) (after (memPut (64 * heldAt s (a / 64) + a % 64) (leBytes n v))
      (after (count (mpPage (blkPort (a / 64))) 0 1) (after (count (mpPage (blkPort (a / 64))) 2 1) s))) := by
  have hretire : after (retireFor (a / 64)) s = s := by rw [retireFor, after_look, h.mergeOf]; rfl
  rw [tablePut, after_seq_cons, hretire, after_seq_cons, after_seq_nil, after_look]
  dsimp only
  rw [h.clean, if_neg Bool.false_ne_true, verdictAt_plain h.chk, after_seq_cons, after_seq_cons, after_seq_cons, after_seq_nil, after_seq_cons,
    after_seq_cons, after_seq_nil, memPut]

section

variable {s : State} (h : Plain s) (p : Nat) (e : DWord)
include h

theorem after_setEntry : after (setEntry p e) s =
    after (count (mpPage (blkPort ((homeBase s + 8 * p) / 64))) 1 1) (after (memPut (entryAt s p) (leBytes 8 e.toNat))
      (after (count (mpPage (blkPort ((homeBase s + 8 * p) / 64))) 0 1) (after (count (mpPage (blkPort ((homeBase s + 8 * p) / 64))) 2 1) s))) := by
  rw [setEntry, after_look, after_tablePut h]
  rfl

theorem onlyIn_setEntry : OnlyIn [.ctl, .mem] s (after (setEntry p e) s) := by
  rw [after_setEntry h]
  exact (((within_count ..).onlyIn s).wider rfl).trans ((((within_count ..).onlyIn _).wider rfl).trans
    ((((within_memPut ..).onlyIn _).wider rfl).trans (((within_count ..).onlyIn _).wider rfl)))

theorem rd_after_setEntry {x : Nat} (hx : Above x ∨ x / 4096 * 4096 ∉ (List.range 24).map mpPage) : rd (after (setEntry p e) s) x = rd s x := by
  have hk (k : Nat) (hk : k < 8) : KeepsReg x (count (mpPage (blkPort ((homeBase s + 8 * p) / 64))) k 1) := by
    rcases hx with hx | hx
    · exact hx.count (mpPage_mod _) hk 1
    · have hm : mpPage (blkPort ((homeBase s + 8 * p) / 64)) ∈ (List.range 24).map mpPage := List.mem_map_of_mem (List.mem_range.mpr (blkPort_lt _))
      exact writesIn_count (mpPage_mod _) hk hm 1 x hx
  rw [after_setEntry h, (hk 1 (by decide)).rd, (within_memPut ..).rd, (hk 0 (by decide)).rd, (hk 2 (by decide)).rd]

theorem memByte_after_setEntry (x : Nat) : memByte (after (setEntry p e) s) x =
    if entryAt s p ≤ x ∧ x < entryAt s p + 8 then (leBytes 8 e.toNat).getD (x - entryAt s p) 0 else memByte s x := by
  have hmem (a : Act) (ha : Within [.ctl] a) (t : State) : memByte (after a t) x = memByte t x := by rw [memByte, memByte, ha.memory]
  rw [after_setEntry h, hmem _ (within_count ..), memByte_after_memPut, length_leBytes, hmem _ (within_count ..), hmem _ (within_count ..)]

theorem sameHold_setEntry : SameHold s (after (setEntry p e) s) :=
  SameHold.of_regs (onlyIn_setEntry h p e .straps rfl) fun _ _ _ hx => rd_after_setEntry h p e (Or.inl (portReg_above hx))

end

/-- What poison a state has is in its entries' bits. -/
theorem poisoned_of_bits {s t : State} (h : SameHold s t) (hbit : ∀ n < 24, ∀ e < 64, bit (rd t (remapReg n e)) 30 = true → bit (rd s (remapReg n e)) 30 = true)
    (b : Nat) (hb : poisoned s b = false) : poisoned t b = false := by
  rw [poisoned] at hb ⊢
  rw [h.remapOf]
  cases he : remapOf s (blkPort b) (blkLocal b) with
  | none => rfl
  | some e =>
    rw [he] at hb
    by_contra hc
    exact absurd (hbit _ (blkPort_lt b) e (remapOf_lt he) (by simpa using hc)) (by simpa using hb)

theorem Plain.setEntry {s : State} (h : Plain s) (p : Nat) (e : DWord) : Plain (after (setEntry p e) s) :=
  ⟨Eq.trans (onlyIn_setEntry h p e .chk rfl) h.chk, Eq.trans (onlyIn_setEntry h p e .mergeBuf rfl) h.mergeBuf, fun b =>
    poisoned_of_bits (sameHold_setEntry h p e) (fun n _ k hk hb => by
      rwa [rd_after_setEntry h p e (Or.inl (portReg_above (portReg_remap n hk)))] at hb) b (h.clean b)⟩

theorem homeEntry_after_setEntry {s : State} (h : Plain s) (p : Nat) (e : DWord) : homeEntry (after (setEntry p e) s) p = e := by
  rw [(h.setEntry p e).homeEntry, (sameHold_setEntry h p e).entryAt]
  refine memWord_of_bytes fun i hi => ?_
  rw [memByte_after_setEntry h, if_pos (by omega), Nat.add_sub_cancel_left]

theorem homeEntry_after_setEntry_other {s : State} (h : Plain s) {p q : Nat} (hp : p < 2 ^ 26) (hq : q < 2 ^ 26) (hne : q ≠ p) (e : DWord) :
    homeEntry (after (setEntry p e) s) q = homeEntry s q := by
  rw [(h.setEntry p e).homeEntry, (sameHold_setEntry h p e).entryAt, h.homeEntry]
  refine memWord_congr fun i hi => ?_
  have := entryAt_apart s hp hq hne
  rw [memByte_after_setEntry h, if_neg (by omega)]

/-! ## A frame is zeroed (R362 step 6) -/

theorem memByte_after_memZero (s : State) (a n x : Nat) : memByte (after (memZero a n) s) x = if a ≤ x ∧ x < a + n then 0 else memByte s x := by
  rw [memZero, after_one, memByte_memKeep]
  by_cases h : a ≤ x ∧ x < a + n
  · rw [if_pos h, if_neg (by simp; omega)]
  · rw [if_neg h, if_pos (by simp; omega)]

/-- Spare block e of frame f's port is zeroed, and its poison cleared. -/
def zeroSpare (s : State) (f e : Nat) : Act := seq [memZero (64 * spareBlk s (f % 24) e) 64,
  one (.chkKeep (fun k => decide (k / 4 ≠ spareBlk s (f % 24) e))), wrBit (remapReg (f % 24) e) 30 false]

/-- The frame's own bytes, and the check symbols and narrow writes that wait for it. -/
def zeroOwn (f : Nat) : Act := seq [count (mpPage (f % 24)) 1 1024, memZero (65536 * f) 65536, one (.chkKeep (fun k => decide (k / 4096 ≠ f))),
  look fun s =>
    let kept := s.mergeBuf.filter (fun m => decide (blkOf m.port m.lblock / 1024 ≠ f))
    seq [one (.mergeBuf kept), wrFld (mpPage (f % 24) + 0x110) 21 16 (kept.filter (fun m => decide (m.port = f % 24))).length]]

theorem after_zeroFrame (s : State) (f : Nat) : after (zeroFrame f) s =
    after (each (frameRemaps (after (zeroOwn f) s) f) (zeroSpare (after (zeroOwn f) s) f)) (after (zeroOwn f) s) := by
  rw [zeroFrame, zeroOwn, after_seq_cons, after_seq_cons, after_seq_cons, after_seq_cons, after_seq_cons, after_seq_nil, after_look,
    after_seq_cons, after_seq_cons, after_seq_cons, after_seq_cons, after_seq_nil]
  rfl

theorem mKeep_nil {α : Type} (p : Nat → Bool) : mKeep ([] : List (Nat × α)) p = [] := rfl

theorem memByte_after_zeroOwn (s : State) (f x : Nat) : memByte (after (zeroOwn f) s) x = if x / 65536 = f then 0 else memByte s x := by
  have hmem {ps : List Part} {a : Act} (ha : Within ps a) (t : State) (hp : ps.contains .mem = false := by rfl) : memByte (after a t) x = memByte t x := by
    rw [memByte, memByte, ha.memory t hp]
  have hlast : Within [.ctl, .mergeBuf] (look fun s =>
      let kept := s.mergeBuf.filter (fun m => decide (blkOf m.port m.lblock / 1024 ≠ f))
      seq [one (.mergeBuf kept), wrFld (mpPage (f % 24) + 0x110) 21 16 (kept.filter (fun m => decide (m.port = f % 24))).length]) :=
    within_look fun _ => within_seq_cons (within_one rfl) (within_seq_cons ((within_wrFld ..).wider rfl) within_seq_nil)
  rw [zeroOwn, after_seq_cons, after_seq_cons, after_seq_cons, after_seq_cons, after_seq_nil, hmem hlast, hmem (within_one (ps := [.chk]) rfl),
    memByte_after_memZero, hmem (within_count ..)]
  refine if_congr ?_ rfl rfl
  omega

theorem onlyIn_zeroOwn (s : State) (f : Nat) : OnlyIn [.ctl, .mem, .chk, .mergeBuf] s (after (zeroOwn f) s) :=
  Within.onlyIn (within_seq_cons ((within_count ..).wider rfl) (within_seq_cons (within_one rfl) (within_seq_cons (within_one rfl)
    (within_seq_cons (within_look fun _ => within_seq_cons (within_one rfl) (within_seq_cons ((within_wrFld ..).wider rfl) within_seq_nil)) within_seq_nil)))) s

theorem keepsReg_zeroOwn {x : Nat} (f : Nat) (hx : (Above x ∧ x ≠ mpPage (f % 24) + 0x110) ∨ x / 4096 * 4096 ∉ (List.range 24).map mpPage) :
    KeepsReg x (zeroOwn f) := by
  have hm : mpPage (f % 24) ∈ (List.range 24).map mpPage := List.mem_map_of_mem (List.mem_range.mpr (Nat.mod_lt _ (by decide)))
  have hc : KeepsReg x (count (mpPage (f % 24)) 1 1024) := by
    rcases hx with hx | hx
    · exact hx.1.count (mpPage_mod _) (by decide) 1024
    · exact writesIn_count (mpPage_mod _) (by decide) hm 1024 x hx
  have hne : x ≠ mpPage (f % 24) + 0x110 := by
    rcases hx with hx | hx
    · exact hx.2
    · exact ne_of_page hx (mpPage_mod _) (by decide) hm
  exact keeps_seq_cons hc (keeps_seq_cons ((within_one (ps := [.mem]) rfl).keepsReg x) (keeps_seq_cons ((within_one (ps := [.chk]) rfl).keepsReg x)
    (keeps_seq_cons (keeps_look fun _ => keeps_seq_cons ((within_one (ps := [.mergeBuf]) rfl).keepsReg x)
      (keeps_seq_cons (keepsReg_wrFld hne ..) keeps_seq_nil)) keeps_seq_nil)))

/-- What zeroing keeps of a device without errors: where blocks are held, and that nothing waits or is in error; each byte stays or is 0. -/
structure Zeroing (s t : State) : Prop where
  hold : SameHold s t
  plain : Plain t
  byte : ∀ x, memByte t x = memByte s x ∨ memByte t x = 0
  only : OnlyIn [.ctl, .mem, .chk, .mergeBuf] s t

theorem Zeroing.trans {s t u : State} (h : Zeroing s t) (g : Zeroing t u) : Zeroing s u :=
  ⟨h.hold.trans g.hold, g.plain, fun x => by
    rcases g.byte x with hx | hx
    · rw [hx]
      exact h.byte x
    · exact Or.inr hx, h.only.trans g.only⟩

theorem Zeroing.zero {s t : State} (h : Zeroing s t) {x : Nat} (hx : memByte s x = 0) : memByte t x = 0 := by
  rcases h.byte x with hb | hb
  · rw [hb, hx]
  · exact hb

theorem zeroing_zeroOwn {s : State} (h : Plain s) (f : Nat) : Zeroing s (after (zeroOwn f) s) := by
  have hreg {n x : Nat} (hx : PortReg n x) : rd (after (zeroOwn f) s) x = rd s x :=
    (keepsReg_zeroOwn f (Or.inl ⟨portReg_above hx, portReg_ne_fill hx⟩)).rd s
  have hold : SameHold s (after (zeroOwn f) s) := SameHold.of_regs (onlyIn_zeroOwn s f .straps rfl) fun _ _ _ hx => hreg hx
  refine ⟨hold, ⟨?_, ?_, fun b => poisoned_of_bits hold (fun n _ e he hb => ?_) b (h.clean b)⟩, fun x => ?_, onlyIn_zeroOwn s f⟩
  · have hc : (after (count (mpPage (f % 24)) 1 1024) s).chk = [] := ((within_count ..).chk s).trans h.chk
    rw [zeroOwn, after_seq_cons, after_seq_cons, after_seq_cons, after_seq_cons, after_seq_nil, after_look, after_seq_cons, after_seq_cons, after_seq_nil,
      (within_wrFld ..).chk, (within_one (ps := [.mergeBuf]) rfl).chk, after_one, apply_chkKeep]
    rw [show (after (memZero (65536 * f) 65536) (after (count (mpPage (f % 24)) 1 1024) s)).chk = [] from
      ((within_one (ps := [.mem]) rfl).chk _).trans hc]
    rfl
  · have hm : (after (one (.chkKeep fun k => decide (k / 4096 ≠ f))) (after (memZero (65536 * f) 65536) (after (count (mpPage (f % 24)) 1 1024) s))).mergeBuf = [] :=
      ((within_one (ps := [.chk]) rfl).mergeBuf _).trans (((within_one (ps := [.mem]) rfl).mergeBuf _).trans (((within_count ..).mergeBuf s).trans h.mergeBuf))
    rw [zeroOwn, after_seq_cons, after_seq_cons, after_seq_cons, after_seq_cons, after_seq_nil, after_look, hm]
    rfl
  · rwa [hreg (portReg_remap n he)] at hb
  · rw [memByte_after_zeroOwn]
    split
    · exact Or.inr rfl
    · exact Or.inl rfl

theorem memByte_after_zeroSpare (s u : State) (f e x : Nat) : memByte (after (zeroSpare s f e) u) x =
    if x / 64 = spareBlk s (f % 24) e then 0 else memByte u x := by
  have hmem {ps : List Part} {a : Act} (ha : Within ps a) (t : State) (hp : ps.contains .mem = false := by rfl) : memByte (after a t) x = memByte t x := by
    rw [memByte, memByte, ha.memory t hp]
  rw [zeroSpare, after_seq_cons, after_seq_cons, after_seq_cons, after_seq_nil, hmem (within_wrBit ..), hmem (within_one (ps := [.chk]) rfl),
    memByte_after_memZero]
  refine if_congr ?_ rfl rfl
  omega

theorem keepsReg_zeroSpare {x : Nat} (s : State) (f e : Nat) (hx : x ≠ remapReg (f % 24) e) : KeepsReg x (zeroSpare s f e) :=
  keeps_seq_cons ((within_one (ps := [.mem]) rfl).keepsReg x) (keeps_seq_cons ((within_one (ps := [.chk]) rfl).keepsReg x)
    (keeps_seq_cons (keepsReg_wrBit hx ..) keeps_seq_nil))

theorem rd_after_zeroSpare (s u : State) (f e : Nat) :
    rd (after (zeroSpare s f e) u) (remapReg (f % 24) e) = setBit (rd u (remapReg (f % 24) e)) 30 false := by
  rw [zeroSpare, after_seq_cons, after_seq_cons, after_seq_cons, after_seq_nil, after_wrBit, rd_ctl_same,
    (within_one (ps := [.chk]) rfl).rd, memZero, (within_one (ps := [.mem]) rfl).rd]

theorem remapReg_eq {n k e j : Nat} (he : e < 64) (hj : j < 64) (h : remapReg n e = remapReg k j) : n = k ∧ e = j := by
  unfold remapReg mpPage at h
  omega

theorem zeroing_zeroSpare {u : State} (h : Plain u) (s : State) (f : Nat) {e : Nat} (he : e < 64) : Zeroing u (after (zeroSpare s f e) u) := by
  have hw : Within [.ctl, .mem, .chk] (zeroSpare s f e) :=
    within_seq_cons (within_one rfl) (within_seq_cons (within_one rfl) (within_seq_cons ((within_wrBit ..).wider rfl) within_seq_nil))
  have hreg (n j : Nat) (hj : j < 64) : rd (after (zeroSpare s f e) u) (remapReg n j) =
      if n = f % 24 ∧ j = e then setBit (rd u (remapReg n j)) 30 false else rd u (remapReg n j) := by
    by_cases hc : n = f % 24 ∧ j = e
    · rw [if_pos hc, hc.1, hc.2, rd_after_zeroSpare]
    · rw [if_neg hc, (keepsReg_zeroSpare s f e fun hx => hc (remapReg_eq hj he hx)).rd]
  have hold : SameHold u (after (zeroSpare s f e) u) := by
    refine ⟨hw.straps u, fun n hn => ?_, fun n _ j hj => ?_⟩
    · rw [(keepsReg_zeroSpare s f e (by unfold remapReg mpPage; omega)).rd]
    · rw [hreg n j hj]
      split
      · exact ⟨bit_setBit_other _ (by decide) (by decide) _, fld_setBit_other _ (by decide) (by decide) _⟩
      · exact ⟨rfl, rfl⟩
  refine ⟨hold, ⟨?_, (hw.mergeBuf u).trans h.mergeBuf, fun b => poisoned_of_bits hold (fun n _ j hj hb => ?_) b (h.clean b)⟩, fun x => ?_, (hw.onlyIn u).wider rfl⟩
  · rw [zeroSpare, after_seq_cons, after_seq_cons, after_seq_cons, after_seq_nil, (within_wrBit ..).chk, after_one, apply_chkKeep]
    rw [show (after (memZero (64 * spareBlk s (f % 24) e) 64) u).chk = [] from ((within_one (ps := [.mem]) rfl).chk _).trans h.chk]
    rfl
  · rw [hreg n j hj] at hb
    split at hb
    · rw [bit_setBit_same _ (by decide)] at hb
      cases hb
    · exact hb
  · rw [memByte_after_zeroSpare]
    split
    · exact Or.inr rfl
    · exact Or.inl rfl

theorem zeroing_zeroSpares {u : State} (s : State) (f : Nat) {es : List Nat} (hes : ∀ e ∈ es, e < 64) (h : Plain u) :
    Zeroing u (after (each es (zeroSpare s f)) u) := by
  refine after_each_keeps (P := Zeroing u) es _ (fun e he t ht => ht.trans (zeroing_zeroSpare ht.plain s f (hes e he))) u ?_
  exact ⟨SameHold.refl u, h, fun _ => Or.inl rfl, onlyIn_refl _ _⟩

theorem frameRemaps_lt {s : State} {f e : Nat} (h : e ∈ frameRemaps s f) : e < 64 := List.mem_range.mp (List.mem_of_mem_filter h)

/-- A frame zeroed in a device without errors. -/
theorem zeroing_zeroFrame {s : State} (h : Plain s) (f : Nat) : Zeroing s (after (zeroFrame f) s) := by
  have hown := zeroing_zeroOwn h f
  rw [after_zeroFrame]
  exact hown.trans (zeroing_zeroSpares _ f (fun e he => frameRemaps_lt he) hown.plain)

end Sys2Proof.Machine
end

section
/-! Device resets, and the pages freed after one (O54). -/

namespace Sys2Proof.Machine

-- One declaration after the other: elaborated side by side they take more memory than the check has.
set_option Elab.async false

/-! ## A reset is accepted (R602) -/

theorem after_acceptReset {s : State} (h : s.rstPend = false) (cause : Nat) : after (acceptReset cause) s =
    after (one (.rstPend true)) (after (wrFld (mgtPage 2 + 0x120) 15 8 (min 255 (fld (rd s (mgtPage 2 + 0x120)) 15 8 + 1)))
      (after (wrFld (mgtPage 2 + 0x120) 2 0 cause) s)) := by
  rw [acceptReset, after_look, after_act, h, if_pos (by decide), after_seq_cons, after_seq_cons, after_seq_cons, after_seq_nil]

theorem after_acceptReset_pending {s : State} (h : s.rstPend = true) (cause : Nat) : after (acceptReset cause) s = s := by
  rw [acceptReset, after_look, after_act, h, if_neg (by decide)]

theorem cause_after_acceptReset {s : State} (h : s.rstPend = false) {cause : Nat} (hc : cause < 8) :
    fld (rd (after (acceptReset cause) s) (mgtPage 2 + 0x120)) 2 0 = cause ∧
    fld (rd (after (acceptReset cause) s) (mgtPage 2 + 0x120)) 15 8 = min 255 (fld (rd s (mgtPage 2 + 0x120)) 15 8 + 1) := by
  rw [after_acceptReset h, (within_one (ps := [.rstPend]) rfl).rd, after_wrFld, rd_ctl_same, after_wrFld, rd_ctl_same]
  constructor
  · rw [fld_setFld_other _ (by decide) (by decide) (by decide), fld_setFld _ (by decide) (by decide)]
    exact Nat.mod_eq_of_lt hc
  · rw [fld_setFld _ (by decide) (by decide)]
    exact Nat.mod_eq_of_lt (by omega)

section

variable {s : State} (hs : Ready s)
include hs

theorem does_mgtRstDev (h : s.rstPend = false) {v : Word} (hv : bit v 0 = true) (ht : Takes s 2) :
    Does (.mgtRstDev .ringCtl v) s [.ctl, .rstPend] fun t => t.rstPend = true ∧ fld (rd t (mgtPage 2 + 0x120)) 2 0 = 1 ∧
      fld (rd t (mgtPage 2 + 0x120)) 15 8 = min 255 (fld (rd s (mgtPage 2 + 0x120)) 15 8 + 1) := by
  have e : after (rstCtrlWrite v) s = after (acceptReset 1) s := by rw [rstCtrlWrite, after_act, if_pos hv]
  refine does_guarded_ring hs ht (show (mgtPage 2 + 0x124) / 4096 = 2 by decide) rfl ?_ ?_ <;> rw [e]
  · exact (within_acceptReset 1).onlyIn s
  · obtain ⟨hcause, hcount⟩ := cause_after_acceptReset h (cause := 1) (by decide)
    exact ⟨rstPend_after_acceptReset h 1, hcause, hcount⟩

theorem exec_mgtRstDev_pending (h : s.rstPend = true) (v : Word) (ht : Takes s 2) : exec (.mgtRstDev .ringCtl v) s = .next s := by
  refine exec_next (a := actMgtRstDev .ringCtl v) hs.1 rfl ?_
  rw [actMgtRstDev, after_guarded_ring ht (by decide), rstCtrlWrite, after_act, after_acceptReset_pending h, ite_self]

theorem does_watchdogExpire (h : s.rstPend = false) (hon : bit (rd s (mgtPage 2 + 0x128)) 31 = true) (ha : s.wdtArmed = true) :
    Does .watchdogExpire s [.ctl, .rstPend] fun t => t.rstPend = true ∧ fld (rd t (mgtPage 2 + 0x120)) 2 0 = 2 := by
  have h' : (after (count (mgtPage 2) 0 1) s).rstPend = false := ((within_count ..).rstPend s).trans h
  refine does_of_run hs.1 rfl (within_actWatchdogExpire.onlyIn s) ?_
  rw [actWatchdogExpire, after_look, after_act, hon, ha, h, if_pos (by decide), after_seq_cons, after_seq_cons, after_seq_nil]
  exact ⟨rstPend_after_acceptReset h' 2, (cause_after_acceptReset h' (by decide)).1⟩

theorem exec_watchdogExpire_pending (h : s.rstPend = true) : exec .watchdogExpire s = .next s := by
  refine exec_next (a := actWatchdogExpire) hs.1 rfl ?_
  rw [actWatchdogExpire, after_look, after_act, h, Bool.not_true, Bool.and_false, if_neg Bool.false_ne_true]

theorem does_reset (h : s.rstPend = false) (tag : MTag) (hd : devState s = 1 ∨ devState s = 2) :
    Does (.reset tag) s [.ctl, .rstPend, .out] fun t => t.rstPend = true ∧ Responded t 1 tag 0 [] ∧ fld (rd t (mgtPage 2 + 0x120)) 2 0 = 1 := by
  have h' : (after (respond 1 tag 0 []) s).rstPend = false := ((within_respond ..).rstPend s).trans h
  refine does_of_run hs.1 rfl ((within_actReset tag).onlyIn s) ?_
  rw [actReset, after_mgmtCmd hd, after_seq_cons, after_seq_cons, after_seq_nil]
  refine ⟨rstPend_after_acceptReset h' 1, ?_, (cause_after_acceptReset h' (by decide)).1⟩
  rw [Responded, (within_acceptReset 1).out]
  exact responded_after_respond ..

theorem does_watchdogKick (v : Word) (ht : Takes s 2) : Does (.watchdogKick .ringCtl v) s [.wdtArmed] fun t => t.wdtArmed = true :=
  does_guarded_ring hs ht (show (mgtPage 2 + 0x12C) / 4096 = 2 by decide) rfl (onlyIn_apply (.wdtArmed true) s) rfl

end

/-! ## The die resets (R596, R598) -/

/-- The registers that a device reset restores: what trained, what locked, what the fuses gave. -/
def keptRegs : List Nat := [mgtPage 2 + 0x100, mgtPage 1 + 0x104] ++ (List.range 4).map (fun n => mgtPage 2 + 0x110 + 4 * n) ++
  (List.range 24).map (fun n => mpPage n + 0x10C)

/-- The control window after the reset, its levels aside. -/
def regsReset (s : State) : State := after (each (keptRegs.map fun a => (a, rd s a)) fun p => wr p.1 p.2) ((Upd.ctlReset 0 (2 ^ 28)).apply s)

/-- Everything of the die but the control window is cleared. -/
def dieCleared (s u : State) : State :=
  { State.reset with
    pending := u.pending
    cycle := u.cycle
    power := u.power
    straps := u.straps
    fuses := u.fuses
    withdrawn := u.withdrawn
    ctl := u.ctl
    mem := u.mem
    chk := u.chk
    cable := u.cable
    perst := u.perst
    flash := u.flash
    freeCtr := u.freeCtr
    out := u.out
    mgmt := { Mgmt.clear with eid := s.mgmt.eid }
    mesh := { s.mesh with routed := [], distDetours := [], distAway := s.withdrawn } }

theorem after_dieReset (s : State) : ∃ b, after dieReset s = after (setLevel (mgtPage 2) 8 b) (dieCleared s (regsReset s)) := by
  refine ⟨decide (fld (rd s (mgtPage 2 + 0x100)) 4 0 ≠ 0x1F), ?_⟩
  rw [dieReset, after_look]
  dsimp only
  rw [← keptRegs, after_seq_cons, after_seq_cons, after_one, ← regsReset]
  generalize regsReset s = u
  simp only [after_seq_cons, after_seq_nil, after_one, Upd.apply, mKeep_none]
  rfl

theorem onlyIn_regsReset (s : State) : OnlyIn [.ctl] s (regsReset s) :=
  (onlyIn_apply (.ctlReset 0 (2 ^ 28)) s).trans ((within_each fun _ => within_wr ..).onlyIn _)

/-- A list of registers written back as they read in `s` reads as in `s`. -/
theorem rd_after_restore (s : State) {as : List Nat} {a : Nat} (ha : a ∈ as) (u : State) :
    rd (after (each (as.map fun x => (x, rd s x)) fun p => wr p.1 p.2) u) a = rd s a := by
  have hsame (t : State) : rd (after (wr a (rd s a)) t) a = rd s a := by
    rw [after_wr]
    exact rd_ctl_same ..
  refine after_each_sets (f := fun t => rd t a) (y := (a, rd s a)) (List.mem_map_of_mem (f := fun x => (x, rd s x)) ha) hsame (fun p hp => ?_) u
  obtain ⟨x, -, rfl⟩ := List.mem_map.mp hp
  by_cases hx : x = a
  · rw [hx]
    exact Or.inl hsame
  · exact Or.inr (keepsReg_wr (Ne.symm hx) _)

/-- A register that the reset restores reads as before. -/
theorem rd_regsReset_kept {s : State} {a : Nat} (ha : a ∈ keptRegs) : rd (regsReset s) a = rd s a := by
  rw [regsReset]
  exact rd_after_restore s ha _

theorem devState_regsReset {s : State} (hs : mRising s.ctl = true) : devState (regsReset s) = 0 := by
  have hkeep : KeepsReg 0x100 (each (keptRegs.map fun a => (a, rd s a)) fun p => wr p.1 p.2) := keeps_each fun p hp => by
    obtain ⟨x, hx, rfl⟩ := List.mem_map.mp hp
    refine keepsReg_wr (fun h => ?_) _
    have h' : 0x100 = x := h
    rw [← h'] at hx
    simp only [keptRegs, List.mem_append, List.mem_cons, List.not_mem_nil, or_false, List.mem_map, List.mem_range] at hx
    unfold mgtPage mpPage at hx
    omega
  have hsticky : stickyMask 0x100 = 0 := by decide
  have hreset : resetWord 0x100 = 0 := by decide
  rw [devState, regsReset, hkeep.rd, rd_ctlReset hs, if_pos (by decide), resetKept, hsticky, hreset]
  simp [fld, bits]

theorem out_after_one (o : Output) (s : State) : (after (one (.out o)) s).out = s.out ++ [o] := rfl

/-- The module as the reset finds it once transmission has stopped and the four host ports are down. -/
def linksDown (s : State) : State :=
  after (each (List.range 4) fun k => one (.out (.hostPort ⟨k % 4, Nat.mod_lt _ (by decide)⟩ false))) (after (one (.out .stopTransmit)) s)

theorem out_linksDown (s : State) :
    (linksDown s).out = s.out ++ [.stopTransmit] ++ [.hostPort 0 false] ++ [.hostPort 1 false] ++ [.hostPort 2 false] ++ [.hostPort 3 false] := by
  rw [linksDown, show List.range 4 = [0, 1, 2, 3] from rfl, after_each_cons, after_each_cons, after_each_cons, after_each_cons, after_each_nil,
    out_after_one, out_after_one, out_after_one, out_after_one, out_after_one]
  rfl

theorem onlyIn_linksDown (s : State) : OnlyIn [.out] s (linksDown s) :=
  (onlyIn_apply (.out .stopTransmit) s).trans (Within.onlyIn (within_each fun _ => within_one rfl) _)

theorem after_actDeviceReset {s : State} (h : s.rstPend = true) (hm : s.mergeBuf = []) : after actDeviceReset s =
    after (setPower (fun p => { p with state := .init })) (after (one (.out (.pinAlert false))) (after dieReset (linksDown s))) := by
  have hports : actDeviceReset.hpPortsMax = 4 := rfl
  rw [actDeviceReset, after_look, after_act, if_pos h, hm, hports]
  rw [after_seq_cons, after_seq_cons, after_each_nil, after_seq_cons, ← linksDown]
  rw [after_seq_cons, after_seq_cons, after_seq_cons, after_seq_nil]

theorem onlyIn_dieCleared (s u : State) (h : u.mergeBuf = []) : OnlyIn dieParts u (dieCleared s u) := fun p hp => by
  cases p <;> first | rfl | exact h.symm | exact absurd hp (by decide)

theorem dieCleared_fields (s u : State) : (dieCleared s u).rstPend = false ∧ (dieCleared s u).core = [] ∧ (dieCleared s u).herd = [] ∧
    (dieCleared s u).desc = [] ∧ (dieCleared s u).evQueue = [] ∧ (dieCleared s u).mgmt = { Mgmt.clear with eid := s.mgmt.eid } ∧
    (dieCleared s u).power = u.power ∧ (dieCleared s u).out = u.out :=
  ⟨rfl, rfl, rfl, rfl, rfl, rfl, rfl, rfl⟩

theorem does_deviceReset {s : State} (hs : Ready s) (h : s.rstPend = true) (hm : s.mergeBuf = []) : Does .deviceReset s dieParts fun t =>
    t.rstPend = false ∧ devState t = 0 ∧ t.power = { s.power with state := .init } ∧ t.core = [] ∧ t.herd = [] ∧ t.desc = [] ∧ t.evQueue = [] ∧
      t.mgmt.eid = s.mgmt.eid ∧ (∀ n < 24, rd t (mpPage n + 0x10C) = rd s (mpPage n + 0x10C)) ∧
      t.out = s.out ++ [.stopTransmit, .hostPort 0 false, .hostPort 1 false, .hostPort 2 false, .hostPort 3 false, .pinAlert false] := by
  obtain ⟨b, hb⟩ := after_dieReset (linksDown s)
  obtain ⟨u, hu⟩ : ∃ u, u = regsReset (linksDown s) := ⟨_, rfl⟩
  obtain ⟨v, hv⟩ : ∃ v, v = dieCleared (linksDown s) u := ⟨_, rfl⟩
  obtain ⟨w, hw⟩ : ∃ w, w = after (setLevel (mgtPage 2) 8 b) v := ⟨_, rfl⟩
  obtain ⟨t, ht⟩ : ∃ t, t = after (setPower (fun p => { p with state := .init })) (after (one (.out (.pinAlert false))) w) := ⟨_, rfl⟩
  have e : after actDeviceReset s = t := by rw [after_actDeviceReset h hm, hb, ← hu, ← hv, ← hw, ← ht]
  have hdown := onlyIn_linksDown s
  have honly : OnlyIn [.ctl] (linksDown s) u := hu ▸ onlyIn_regsReset _
  have hlevel : OnlyIn [.ctl] v w := hw ▸ (within_setLevel ..).onlyIn v
  have hsign : OnlyIn [.out] w (after (one (.out (.pinAlert false))) w) := (within_one rfl).onlyIn w
  have hlast : OnlyIn [.out, .power] w t := ht ▸ (hsign.wider rfl).trans (((within_setPower _).onlyIn _).wider rfl)
  have hreg {x : Nat} (hx : x ≠ mgtPage 2 + 0x20) (hr : x ≠ mgtPage 2 + 0x2C) : rd t x = rd u x := by
    have hctl : t.ctl = w.ctl := hlast .ctl rfl
    have hvu : v.ctl = u.ctl := by rw [hv, dieCleared]
    rw [rd, hctl, ← rd, hw, (keepsReg_setLevel hx hr 8 b).rd, rd, hvu, ← rd]
  obtain ⟨hrst, hcore, hherd, hdesc, hev, hmgmt, hpower, hout⟩ := dieCleared_fields (linksDown s) u
  rw [← hv] at hrst hcore hherd hdesc hev hmgmt hpower hout
  refine does_of_run (a := actDeviceReset) hs.1 rfl ?_ ?_ <;> rw [e]
  · have hmu : u.mergeBuf = [] := Eq.trans (honly .mergeBuf rfl) (Eq.trans (hdown .mergeBuf rfl) hm)
    have hclear : OnlyIn dieParts u v := hv ▸ onlyIn_dieCleared _ u hmu
    exact (hdown.wider rfl).trans ((honly.wider rfl).trans (hclear.trans ((hlevel.wider rfl).trans (hlast.wider rfl))))
  · have hcore' : t.core = w.core := hlast .core rfl
    have hherd' : t.herd = w.herd := hlast .herd rfl
    have hdesc' : t.desc = w.desc := hlast .desc rfl
    have hev' : t.evQueue = w.evQueue := hlast .evQueue rfl
    have hrst' : t.rstPend = w.rstPend := hlast .rstPend rfl
    refine ⟨hrst'.trans (Eq.trans (hlevel .rstPend rfl) hrst), ?_, ?_, hcore'.trans (Eq.trans (hlevel .core rfl) hcore),
      hherd'.trans (Eq.trans (hlevel .herd rfl) hherd), hdesc'.trans (Eq.trans (hlevel .desc rfl) hdesc),
      hev'.trans (Eq.trans (hlevel .evQueue rfl) hev), ?_, fun n hn => ?_, ?_⟩
    · have hctl : (linksDown s).ctl = s.ctl := hdown .ctl rfl
      have hrising : mRising (linksDown s).ctl = true := by
        rw [hctl]
        exact wf_ctl hs.2
      have hinit := devState_regsReset hrising
      rw [← hu, devState] at hinit
      rwa [devState, hreg (by decide) (by decide)]
    · have hp : (after (one (.out (.pinAlert false))) w).power = w.power := hsign .power rfl
      have hw : w.power = v.power := hlevel .power rfl
      have hup : u.power = (linksDown s).power := honly .power rfl
      have hs : (linksDown s).power = s.power := hdown .power rfl
      have hset : t.power = { w.power with state := .init } := by rw [ht, after_setPower, ← hp]
      rw [hset, hw, hpower, hup, hs]
    · have hm : t.mgmt = w.mgmt := hlast .mgmt rfl
      have hw : w.mgmt = v.mgmt := hlevel .mgmt rfl
      have hs : (linksDown s).mgmt = s.mgmt := hdown .mgmt rfl
      rw [hm, hw, hmgmt, hs]
    · have hp : mgtPage 2 = 0x2000 := rfl
      have hctls : (linksDown s).ctl = s.ctl := hdown .ctl rfl
      have hmem : mpPage n + 0x10C ∈ keptRegs := List.mem_append_right _ (List.mem_map_of_mem (List.mem_range.mpr hn))
      rw [hreg (by unfold mpPage; omega) (by unfold mpPage; omega), hu, rd_regsReset_kept hmem, rd, rd, hctls]
    · have hto : t.out = (after (one (.out (.pinAlert false))) w).out := ht ▸ (within_setPower _).out _
      have hw : w.out = v.out := hlevel .out rfl
      have huo : u.out = (linksDown s).out := honly .out rfl
      rw [hto, out_after_one, hw, hout, huo, out_linksDown]
      simp only [List.append_assoc, List.cons_append, List.nil_append]

/-! ## Every page is freed (R599) -/

theorem servedAddr_entryAt {s : State} {p : Nat} (hp : p < 2 ^ 26) {i : Nat} (hi : i < 8) :
    servedAddr s (entryAt s p + i) = some (homeBase s + 8 * p + i) := by
  have hbase : homeBase s = 65536 * rsvBase s := rfl
  have hblk : (entryAt s p + i) / 64 = heldAt s ((homeBase s + 8 * p) / 64) := by unfold entryAt; omega
  have hoff : (entryAt s p + i) % 64 = (homeBase s + 8 * p + i) % 64 := by unfold entryAt; omega
  rw [servedAddr]
  dsimp only
  rw [hblk, hoff]
  rcases heldAt_cases s ((homeBase s + 8 * p) / 64) with h | ⟨e, he, h, hv, hl⟩
  · have hnot : ¬ ((homeBase s + 8 * p) / 64 / 1024 = replFrame s (blkPort ((homeBase s + 8 * p) / 64)) ∧ (homeBase s + 8 * p) / 64 % 1024 < 64) :=
      fun hc => unspared_table s hp _ (blkPort_lt _) hc.1
    rw [h, if_neg hnot, if_pos h]
    congr 1
    rw [show entryAt s p = 64 * ((homeBase s + 8 * p) / 64) + (homeBase s + 8 * p) % 64 by rw [entryAt, h]]
    omega
  · rw [h, spareBlk_port (blkPort_lt _) he, if_pos ⟨spareBlk_div s _ he, by unfold spareBlk; omega⟩, show spareBlk s _ e % 1024 = e by unfold spareBlk; omega,
      if_pos hv, hl, blkOf_port_local]
    congr 1
    omega

/-- A page whose entry is valid is among those that the table lists. -/
theorem mem_validPages {s : State} (h : Plain s) {p : Nat} (hp : p < 2 ^ 26) (hv : eValid (homeEntry s p) = true) : p ∈ validPages s := by
  refine List.mem_filter.mpr ⟨?_, hv⟩
  rw [h.homeEntry, eValid_memWord] at hv
  obtain ⟨v, hget⟩ : ∃ v, mGet s.mem (entryAt s p + 7) = some v := by
    cases hc : mGet s.mem (entryAt s p + 7) with
    | some v => exact ⟨v, rfl⟩
    | none =>
      rw [memByte, mGetD, hc] at hv
      cases hv
  have hbase : homeBase s = 65536 * rsvBase s := rfl
  rw [listedPages, List.mem_mergeSort, List.mem_eraseDups, List.mem_filterMap]
  refine ⟨_, mGet_mem hget, ?_⟩
  rw [servedAddr_entryAt hp (by decide), Option.bind_some, if_pos ⟨by omega, by omega⟩]
  congr 1
  omega

/-- A valid page is freed: its entry is written 0, and a frame of the device that it named is zeroed. -/
def wipePage (p : Nat) : Act := look fun s =>
  let e := homeEntry s p
  seq [setEntry p 0, act (!eFar e) (zeroFrame (eHome e))]

theorem zeroing_wipePage {s : State} (h : Plain s) (p : Nat) :
    Zeroing s (after (wipePage p) s) ∧ ∀ i < 8, memByte (after (wipePage p) s) (entryAt s p + i) = 0 := by
  have hset : Zeroing s (after (setEntry p 0) s) := by
    refine ⟨sameHold_setEntry h p 0, h.setEntry p 0, fun x => ?_, (onlyIn_setEntry h p 0).wider rfl⟩
    rw [memByte_after_setEntry h]
    split
    · refine Or.inr ?_
      have hx : x - entryAt s p < 8 := by omega
      generalize x - entryAt s p = j at hx
      interval_cases j <;> rfl
    · exact Or.inl rfl
  have hzero (i : Nat) (hi : i < 8) : memByte (after (setEntry p 0) s) (entryAt s p + i) = 0 := by
    rw [memByte_after_setEntry h, if_pos (by omega), Nat.add_sub_cancel_left]
    interval_cases i <;> rfl
  have hrest (t : State) (ht : Plain t) (c : Bool) (f : Nat) : Zeroing t (after (act c (zeroFrame f)) t) := by
    rw [after_act]
    split
    · exact zeroing_zeroFrame ht f
    · exact ⟨SameHold.refl t, ht, fun _ => Or.inl rfl, onlyIn_refl _ _⟩
  have e : after (wipePage p) s = after (act (!eFar (homeEntry s p)) (zeroFrame (eHome (homeEntry s p)))) (after (setEntry p 0) s) := by
    rw [wipePage, after_look, after_seq_cons, after_seq_cons, after_seq_nil]
  have hlast := hrest _ hset.plain (!eFar (homeEntry s p)) (eHome (homeEntry s p))
  rw [e]
  exact ⟨hset.trans hlast, fun i hi => hlast.zero (hzero i hi)⟩

theorem zeroing_wipePages {s t : State} (h : Zeroing s t) (ps : List Nat) :
    Zeroing s (after (each ps wipePage) t) ∧ ∀ p ∈ ps, memByte (after (each ps wipePage) t) (entryAt s p + 7) = 0 := by
  induction ps generalizing t with
  | nil => exact ⟨h, fun p hp => by cases hp⟩
  | cons p ps ih =>
    obtain ⟨hz, h0⟩ := zeroing_wipePage h.plain p
    obtain ⟨hall, hrest⟩ := ih (h.trans hz)
    rw [after_each_cons]
    refine ⟨hall, fun q hq => ?_⟩
    rcases List.mem_cons.mp hq with rfl | hq
    · have hlater : Zeroing (after (wipePage q) t) (after (each ps wipePage) (after (wipePage q) t)) :=
        (ih' ps hz.plain)
      rw [← h.hold.entryAt]
      exact hlater.zero (h0 7 (by decide))
    · exact hrest q hq
where
  /-- The pages freed after one only zero bytes. -/
  ih' {u : State} (ps : List Nat) (hu : Plain u) : Zeroing u (after (each ps wipePage) u) :=
    after_each_keeps (P := Zeroing u) ps _ (fun p _ _ ht => ht.trans (zeroing_wipePage ht.plain p).1) u
      ⟨SameHold.refl u, hu, fun _ => Or.inl rfl, onlyIn_refl _ _⟩

theorem keepsReg_freeLevel {x : Nat} (hist : x ≠ migPage 0 + 0x20) (hraw : x ≠ migPage 0 + 0x2C) : KeepsReg x freeLevel :=
  keeps_look fun _ => keepsReg_setLevel hist hraw _ _

theorem wipePages_eq (ps : List Nat) : each ps wipePage = each ps fun p => look fun s =>
    let e := homeEntry s p
    seq [setEntry p 0, act (!eFar e) (zeroFrame (eHome e))] := rfl

theorem does_pageFreeAll {s : State} (hs : powered s = true) (hd : devState s = 1) (hb : bit (rd s (mgtPage 0 + 0x100)) 3 = true) (he : ErrorFree s)
    (hm : s.mergeBuf = []) : Does .pageFreeAll s [.ctl, .mem, .chk, .mergeBuf] fun t => (∀ p < 2 ^ 26, eValid (homeEntry t p) = false) ∧
      bit (rd t (mgtPage 0 + 0x100)) 3 = false ∧ rd t (migPage 0 + 0x108) = BitVec.ofNat 32 (rsvBase s) := by
  have hplain := plain_of_errorFree he hm
  obtain ⟨hz, hzero⟩ := zeroing_wipePages (s := s) (t := s) ⟨SameHold.refl s, hplain, fun _ => Or.inl rfl, onlyIn_refl _ _⟩ (validPages s)
  let u := after (each (validPages s) wipePage) s
  have e : after actPageFreeAll s = after (wrBit (mgtPage 0 + 0x100) 3 false) (after allFree u) := by
    rw [actPageFreeAll, after_look, after_act, decide_eq_true hd, hb, if_pos (by decide), after_seq_cons, after_seq_cons, after_seq_cons, after_seq_nil,
      ← wipePages_eq]
  let t := after (wrBit (mgtPage 0 + 0x100) 3 false) (after allFree u)
  have hlast : OnlyIn [.ctl] u t := (within_allFree.onlyIn u).trans ((within_wrBit ..).onlyIn _)
  have hfree {x : Nat} (hx : x / 4096 * 4096 ≠ migPage 0) : KeepsReg x allFree := by
    have hne (o : Nat) (ho : o < 4096) : x ≠ migPage 0 + o := fun h => hx (by rw [h]; exact page_of_offset (by decide) ho)
    exact keeps_look fun _ => keeps_seq_cons (keepsReg_wr (hne 0x108 (by decide)) _)
      (keeps_seq_cons (keepsReg_freeLevel (hne 0x20 (by decide)) (hne 0x2C (by decide))) keeps_seq_nil)
  have hreg {n x : Nat} (hn : n < 24) (hx : PortReg n x) : rd t x = rd u x := by
    obtain ⟨o, rfl, ho⟩ := hx
    have hmig : migPage 0 = 0x140000 := rfl
    have hmgt : mgtPage 0 = 0 := rfl
    exact ((keepsReg_wrBit (by unfold mpPage; omega) 3 false).rd _).trans ((hfree (by unfold mpPage; omega)).rd u)
  have hhold : SameHold u t := SameHold.of_regs (hlast .straps rfl) fun n hn x hx => hreg hn hx
  have hplaint : Plain t := ⟨Eq.trans (hlast .chk rfl) hz.plain.chk, Eq.trans (hlast .mergeBuf rfl) hz.plain.mergeBuf, fun b =>
    poisoned_of_bits hhold (fun n hn e he hbit => by rwa [hreg hn (portReg_remap n he)] at hbit) b (hz.plain.clean b)⟩
  have hmem : t.mem = u.mem := hlast .mem rfl
  refine does_of_run hs rfl ?_ ?_ <;> rw [e]
  · exact hz.only.trans (hlast.wider rfl)
  · refine ⟨fun p hp => ?_, ?_, ?_⟩
    · rw [hplaint.homeEntry, (hz.hold.trans hhold).entryAt, eValid_memWord, memByte, hmem, ← memByte]
      rcases hz.byte (entryAt s p + 7) with hbyte | hbyte
      · rw [hbyte]
        by_contra hc
        have hv : eValid (homeEntry s p) = true := by
          rw [hplain.homeEntry, eValid_memWord]
          simpa using hc
        rw [← hbyte, hzero p (mem_validPages hplain hp hv)] at hc
        exact hc rfl
      · rw [hbyte]
        rfl
    · rw [after_wrBit, rd_ctl_same, bit_setBit_same _ (by decide)]
    · rw [(keepsReg_wrBit (by decide) 3 false).rd, allFree, after_look, after_seq_cons, after_seq_cons, after_seq_nil,
        KeepsReg.rd (keepsReg_freeLevel (by decide) (by decide)), after_wr]
      exact (rd_ctl_same ..).trans (congrArg (BitVec.ofNat 32) hz.hold.rsvBase)

/-- Settles O54: `dieCleared` is what a reset leaves; freeing a page only zeroes bytes, and every valid page is listed. -/
theorem deviceResets : Obligations.DeviceResets := by
  unfold Obligations.DeviceResets
  intro s hs
  exact ⟨fun h => ⟨fun v => does_mgtRstDev hs h, does_watchdogExpire hs h, does_reset hs h⟩,
    fun h => ⟨exec_mgtRstDev_pending hs h, exec_watchdogExpire_pending hs h⟩, does_watchdogKick hs, does_deviceReset hs, does_pageFreeAll hs.1⟩

end Sys2Proof.Machine
end

section
/-! A herd that fails, and the registers that a torus port's training and its fall leave alone (R456, R458, R467, R524). -/

namespace Sys2Proof.Machine

-- One declaration after the other: elaborated side by side they take more memory than the check has.
set_option Elab.async false

/-! ## Failing -/

section

variable {s : State} {h : Nat} {x : Herd} (hx : herdOf s h = some x) (hf : x.failed = false)
include hx hf

theorem after_failHere (reason : Nat) : after (failHere h reason) s = after (match x.owner with
      | some f => notify f 1 h reason (beadNo s) []
      | none => nop) (after (setFnState h 3) (after (setHerd h fun x => { x with failed := true })
        (after (disableRings h) (after (each x.sites fun c => act (decide (coreState s c ≠ 9)) (stopCore c)) s)))) := by
  rw [failHere, after_look, hx]
  dsimp only
  rw [if_neg (by rw [hf]; decide), after_seq_cons, after_seq_cons, after_seq_cons, after_seq_cons, after_seq_cons, after_seq_nil] <;> rfl

theorem herdOf_after_failHere (reason : Nat) : herdOf (after (failHere h reason) s) h = some { x with failed := true } := by
  rw [after_failHere hx hf]
  refine (Within.herdOf (ps := [.ctl, .notices]) ?_ _ h).trans ?_
  · split
    · exact within_notify ..
    · exact within_nop
  · rw [(within_setFnState ..).herdOf, herdOf_setHerd, if_pos rfl, (within_disableRings h).herdOf,
      (within_each fun c => within_act (within_stopCore c)).herdOf, hx]
    rfl

theorem notices_after_failHere {f : FnNo} (ho : x.owner = some f) (reason : Nat) :
    (after (failHere h reason) s).notices = s.notices ++ [⟨f, 1, h, BitVec.ofNat 8 reason, beadNo s, []⟩] := by
  have hstop : Within [.core] (each x.sites fun c => act (decide (coreState s c ≠ 9)) (stopCore c)) :=
    within_each fun c => within_act (within_stopCore c)
  rw [after_failHere hx hf, ho]
  dsimp only
  rw [notify, after_look, after_ite, if_neg (by simp), after_one]
  change (after (setFnState h 3) _).notices ++ _ = _
  rw [(within_setFnState ..).notices, (within_setHerd ..).notices, (within_disableRings h).notices, hstop.notices]
  rfl

theorem after_failHerd (reason : Nat) : after (failHerd h reason) s = after (tellFailure h reason) (after (failHere h reason) s) := by
  rw [failHerd, after_look, hx, Option.any_some, hf, Bool.not_false, after_act, if_pos rfl, after_seq_cons, after_seq_cons, after_seq_nil]

theorem herdOf_after_failHerd (reason : Nat) : herdOf (after (failHerd h reason) s) h = some { x with failed := true } := by
  rw [after_failHerd hx hf, (within_tellFailure ..).herdOf, herdOf_after_failHere hx hf]

theorem notices_after_failHerd {f : FnNo} (ho : x.owner = some f) (reason : Nat) :
    (after (failHerd h reason) s).notices = s.notices ++ [⟨f, 1, h, BitVec.ofNat 8 reason, beadNo s, []⟩] := by
  rw [after_failHerd hx hf, (within_tellFailure ..).notices, notices_after_failHere hx hf ho]

end

/-- A herd that is not resident does not fail. -/
theorem after_failHerd_none {s : State} {h : Nat} (hx : herdOf s h = none) (reason : Nat) : after (failHerd h reason) s = s := by
  rw [failHerd, after_look, hx]
  rfl

/-! ## Registers of a torus port -/

/-- Register x is none that a port's training or its fall writes: BLK_IST, the capture, the counters, the state of the port, the cable's items. -/
def LinkFree (x : Nat) : Prop :=
  x < 0x160000 ∨ x % 4096 = 0x100 ∨ x % 4096 = 0x108 ∨ (0x168000 ≤ x ∧ 0x100 ≤ x % 4096) ∨ 0x174 ≤ x % 4096

theorem LinkFree.frameFree {x : Nat} (hx : LinkFree x) : FrameFree x := by
  simp only [FrameFree, List.mem_cons, List.not_mem_nil, or_false, not_or]
  unfold LinkFree at hx
  omega

theorem keepsReg_putChars {x a : Nat} (hx : x < a ∨ a + 16 ≤ x) (cs : List Byte) : KeepsReg x (putChars a cs) :=
  keeps_each fun k hk => keepsReg_wr (by have := List.mem_range.mp hk; omega) _

theorem keepsReg_setLink {x : Nat} (hx : LinkFree x) {p : Nat} (hp : p < 8) (st lanes : Nat) : KeepsReg x (setLink p st lanes) :=
  keepsReg_wr (by unfold LinkFree at hx; unfold bxPage; omega) _

theorem keepsReg_readCable {x : Nat} (hx : LinkFree x) {p : Nat} (hp : p < 8) : KeepsReg x (readCable p) := by
  unfold LinkFree at hx
  refine keeps_look fun s => ?_
  split
  · exact keeps_nop
  · refine keeps_seq_cons ((within_one (ps := [.out]) rfl).keepsReg x) (keeps_seq_cons (keeps_ite (fun _ => ?_) fun _ => ?_) keeps_seq_nil)
    · refine keeps_seq_cons (keepsReg_wr ?_ _) (keeps_seq_cons (keepsReg_putChars ?_ _) (keeps_seq_cons (keepsReg_putChars ?_ _)
        (keeps_seq_cons (keepsReg_putChars ?_ _) keeps_seq_nil))) <;> (unfold bxPage; omega)
    · exact keepsReg_wr (by unfold bxPage; omega) _

theorem keepsReg_startTraining {x : Nat} (hx : LinkFree x) {p : Nat} (hp : p < 8) : KeepsReg x (startTraining p) :=
  keeps_seq_cons (keepsReg_setLink hx hp ..) (keeps_seq_cons (keepsReg_readCable hx hp) keeps_seq_nil)

theorem keepsReg_grantWaiting {x : Nat} (hx : FrameFree x) (n : Nat) : KeepsReg x (grantWaiting n) := by
  induction n with
  | zero => exact keeps_nop
  | succ n ih =>
    refine keeps_look fun s => ?_
    split
    · exact keeps_nop
    · exact keeps_act fun _ => keeps_seq_cons ((within_one (ps := [.mc]) rfl).keepsReg x) (keeps_seq_cons
        (keeps_ite (fun _ => (within_takeGrant ..).keepsReg x) fun _ => keepsReg_sendFrame hx _) (keeps_seq_cons ih keeps_seq_nil))

theorem keepsReg_dropRequest {x : Nat} (hx : FrameFree x) (h src cid : Nat) : KeepsReg x (dropRequest h src cid) :=
  keeps_look fun _ => keeps_seq_cons ((within_one (ps := [.mc]) rfl).keepsReg x) (keeps_seq_cons (keepsReg_grantWaiting hx _) keeps_seq_nil)

theorem keepsReg_endOnPort {x : Nat} (hx : FrameFree x) (p : Nat) : KeepsReg x (endOnPort p) :=
  keeps_look fun _ => keeps_seq_cons ((within_one (ps := [.coll]) rfl).keepsReg x)
    (keeps_seq_cons (keeps_each fun _ _ => keepsReg_dropRequest hx ..) keeps_seq_nil)

theorem keepsReg_portDown {x : Nat} (hx : LinkFree x) {p : Nat} (hp : p < 8) : KeepsReg x (portDown p) := by
  refine keeps_look fun s => keeps_seq_cons (keepsReg_endOnPort hx.frameFree p) (keeps_seq_cons (keeps_ite (fun _ => keepsReg_startTraining hx hp)
    fun _ => keepsReg_setLink hx hp ..) (keeps_seq_cons ((within_one (ps := [.bx]) rfl).keepsReg x)
    (keeps_seq_cons (keepsReg_count ?_ ?_ ?_ 1) (keeps_seq_cons (keepsReg_setIst ?_ 9) (keeps_seq_cons (keepsReg_raise ?_ ?_ ?_) keeps_seq_nil)))))
  case refine_7 => exact fun h => by cases h
  all_goals
    unfold LinkFree at hx
    unfold bxPage
    omega

theorem keepsReg_linkCtrlWrite {x : Nat} (hx : LinkFree x) {p : Nat} (hp : p < 8) (hne : x ≠ bxPage p + 0x100) (v : Word) :
    KeepsReg x (linkCtrlWrite p v) :=
  keeps_look fun _ => keeps_seq_cons (keepsReg_maskWrite hne _ v) (keeps_seq_cons (keeps_act fun _ => keepsReg_portDown hx hp)
    (keeps_seq_cons (keeps_look fun _ => keeps_act fun _ => keepsReg_startTraining hx hp) keeps_seq_nil))

theorem keepsReg_dropUnconnected {x : Nat} (hx : LinkFree x) : KeepsReg x dropUnconnected :=
  keeps_look fun s => keeps_each fun p hp => keeps_look fun _ => by
    have h8 : p < 8 := by have := List.mem_range.mp (List.mem_of_mem_filter hp); omega
    exact keeps_ite (fun _ => keeps_seq_cons (keepsReg_portDown hx h8) (keeps_seq_cons (keepsReg_setLink hx h8 ..) keeps_seq_nil))
      fun _ => keeps_act fun _ => keepsReg_setLink hx h8 ..

theorem regDef_linkCtrl (p : Nat) : regDef (.bx p) 0x100 = some ⟨0x100, 1, 4, 1, 0, 0, 0, 0, 0⟩ := by
  rw [regDef, if_neg (by simp [Block.isWindow]), if_neg (by decide), if_neg (by decide)]
  cases p <;> rfl

/-- The control register of a port holds the train bit that a write gives it. -/
theorem trains_after_linkCtrlWrite {p : Nat} (hp : p < 8) (v : Word) (s : State) : trains (after (linkCtrlWrite p v) s) p = bit v 0 := by
  have hfree : LinkFree (bxPage p + 0x100) := Or.inr (Or.inl (by unfold bxPage; omega))
  have hkeep : KeepsReg (bxPage p + 0x100) (seq [act (bit v 1 && linkUp s p) (portDown p),
      look fun s => act ((bit v 1 || trains s p) && !linkUp s p && !unconnected s p) (startTraining p)]) :=
    keeps_seq_cons (keeps_act fun _ => keepsReg_portDown hfree hp)
      (keeps_seq_cons (keeps_look fun _ => keeps_act fun _ => keepsReg_startTraining hfree hp) keeps_seq_nil)
  have hoff : (bxPage p + 0x100) % 4096 = 0x100 := by unfold bxPage; omega
  have hdef := regDef_linkCtrl p
  rw [← hoff] at hdef
  rw [trains, linkCtrlWrite, after_look, after_seq_cons, hkeep.rd, after_maskWrite hdef, rd_ctl_same, bit_or, bit_and, bit_or, bit_and, bit_and,
    bit_not, bit_not, bit_and, bit_ofNat, bit_ofNat]
  simp

end Sys2Proof.Machine
end

section
/-! The programs of an engine, once a load has put them in its store (R339, R340). -/

namespace Sys2Proof.Machine

-- One declaration after the other: elaborated side by side they take more memory than the check has.
set_option Elab.async false

/-- `after_each_sets` for acts that keep a property, of states that have it. -/
theorem after_each_sets_of {α β : Type} {P : State → Prop} {f : State → β} {v : β} {xs : List α} {g : α → Act} {y : α} (hy : y ∈ xs)
    (hP : ∀ x s, P s → P (after (g x) s)) (hset : ∀ s, P s → f (after (g y) s) = v)
    (h : ∀ x ∈ xs, (∀ s, P s → f (after (g x) s) = v) ∨ ∀ s, P s → f (after (g x) s) = f s) {s : State} (hs : P s) :
    f (after (each xs g) s) = v := by
  induction xs generalizing s with
  | nil => cases hy
  | cons x xs ih =>
    rw [after_each_cons]
    have htail (z : α) (hz : z ∈ xs) := h z (List.mem_cons_of_mem _ hz)
    have hkeep (t : State) (ht : P t) (hv : f t = v) : f (after (each xs g) t) = v :=
      (after_each_keeps (P := fun t => P t ∧ f t = v) xs g (fun z hz t ⟨ht, hv⟩ => ⟨hP z t ht, (htail z hz).elim (fun hs => hs t ht)
        fun hk => (hk t ht).trans hv⟩) t ⟨ht, hv⟩).2
    rcases List.mem_cons.mp hy with rfl | hin
    · exact hkeep _ (hP y s hs) (hset s hs)
    · exact ih hin htail (hP x s hs)

theorem progWord_after_prog (s : State) (k : Nat) (w : Word) (n p i : Nat) :
    progWord (after (one (.prog k w)) s) n p i = if k = (256 * n + p) * 32 + i then w else progWord s n p i := by
  rw [after_one, progWord]
  change mGetD (mSet s.prog k w 0) _ 0 = _
  split
  case isTrue h => rw [h, mGetD_mSet_same]
  case isFalse h => rw [mGetD_mSet_other _ (Ne.symm h)]; rfl

/-- Two programs of the stores share no word. -/
theorem prog_index_inj {n p i n' p' i' : Nat} (hp : p < 256) (hp' : p' < 256) (hi : i < 32) (hi' : i' < 32)
    (h : (256 * n + p) * 32 + i = (256 * n' + p') * 32 + i') : n = n' ∧ p = p' ∧ i = i' := by omega

section

variable {n p n' p' i : Nat} (hp : p < 256) (hp' : p' < 256) (hi : i < 32) {ws : List Word} (hws : ws.length = 32)
include hp hp' hi hws

theorem progWord_after_putProgram (ok : Bool) (s : State) :
    progWord (after (putProgram n' p' ws ok) s) n p i = if n' = n ∧ p' = p then ws.getD i 0 else progWord s n p i := by
  have htake : ws.take 32 = ws := by rw [← hws, List.take_length]
  have hflag (t : State) : progWord (after (wrBit (uePage n' + 0x120 + 4 * (p' / 32)) (p' % 32) ok) t) n p i = progWord t n p i := by
    rw [progWord, (within_wrBit ..).prog, ← progWord]
  have hidx (q : Word × Nat) (hq : q ∈ ws.zipIdx) : q.2 < 32 ∧ ws.getD q.2 0 = q.1 := by
    have hget := (List.mem_zipIdx_iff_getElem? (l := ws)).mp hq
    obtain ⟨hlt, -⟩ := List.getElem?_eq_some_iff.mp hget
    exact ⟨hws ▸ hlt, by rw [List.getD, hget]; rfl⟩
  rw [putProgram, htake, after_seq_cons, after_seq_cons, after_seq_nil, hflag]
  split
  case isTrue h =>
    obtain ⟨rfl, rfl⟩ := h
    have hmem : (ws.getD i 0, i) ∈ ws.zipIdx := by
      rw [List.mem_zipIdx_iff_getElem?, List.getD_eq_getElem _ _ (by omega)]
      exact List.getElem?_eq_getElem _
    refine after_each_sets (f := fun t => progWord t n' p' i) hmem (fun t => ?_) (fun q hq => ?_) s
    · rw [progWord_after_prog, if_pos rfl]
    · obtain ⟨hq, hget⟩ := hidx q hq
      by_cases hqi : q.2 = i
      · exact Or.inl fun t => by rw [progWord_after_prog, if_pos (by rw [hqi]), ← hget, hqi]
      · exact Or.inr ⟨fun t => by rw [progWord_after_prog, if_neg (by omega)]⟩
  case isFalse h =>
    refine after_each_keeps (P := fun t => progWord t n p i = progWord s n p i) _ _ (fun q hq t ht => ?_) s rfl
    obtain ⟨hq, -⟩ := hidx q hq
    rw [progWord_after_prog, if_neg fun he => h ?_, ht]
    obtain ⟨hn, hp, -⟩ := prog_index_inj hp' hp hq hi he
    exact ⟨hn, hp⟩

theorem progWord_after_loadProgram {s : State} (hused : progUsed s n' p' = false) (ok : Bool) :
    progWord (after (loadProgram n' p' ws ok) s) n p i = if n' = n ∧ p' = p then ws.getD i 0 else progWord s n p i := by
  rw [loadProgram, after_look]
  dsimp only
  rw [after_ite, if_neg (by rw [hused]; exact Bool.false_ne_true), after_seq_cons, after_seq_cons, after_seq_nil, progWord_after_putProgram hp hp' hi hws]
  rfl

end

theorem progUsed_of_desc {s : State} (h : s.desc = []) (n p : Nat) : progUsed s n p = false := by rw [progUsed, h]; rfl

theorem progWords_eq {s : State} {n p : Nat} {ws : List Word} (hlen : ws.length = 32) (h : ∀ i < 32, progWord s n p i = ws.getD i 0) :
    progWords s n p = ws := by
  refine List.ext_getElem (by rw [progWords, List.length_map, List.length_range, hlen]) fun i hi hi' => ?_
  simp only [progWords, List.getElem_map, List.getElem_range]
  rw [h i (by omega), List.getD_eq_getElem _ _ hi']

/-- What SYSPROG_LOAD makes of a program: 32 words. -/
def padded (ws : List Word) : List Word := (ws ++ List.replicate 32 0).take 32

theorem length_padded (ws : List Word) : (padded ws).length = 32 := by
  rw [padded, List.length_take, List.length_append, List.length_replicate]
  omega

/-- The load of one engine's programs. -/
def loadEngine (first : Nat) (progs : List (List Word)) (n : Nat) : Act :=
  seq [each progs.zipIdx (fun p => loadProgram n (first + p.2) p.1 (progOk p.1)), endLoad n (progs.any (fun ws => !progOk ws))]

section

variable {first : Nat} {ps : List (List Word)} (hlen : first + ps.length ≤ 256) {s : State} (hd : s.desc = [])
include hlen hd

omit hlen in
theorem desc_after_loadEngine (n : Nat) : (after (loadEngine first (ps.map padded) n) s).desc = [] :=
  ((within_seq_cons (within_each fun _ => within_loadProgram ..)
    (within_seq_cons ((within_endLoad ..).wider rfl) within_seq_nil)).desc s).trans hd

theorem progWord_after_loadEngine {n k i : Nat} (hi : i < 32) {ws : List Word} (hk : ps[k]? = some ws) (n' : Nat) :
    progWord (after (loadEngine first (ps.map padded) n') s) n (first + k) i =
      if n' = n then (padded ws).getD i 0 else progWord s n (first + k) i := by
  have hlt : k < ps.length := (List.getElem?_eq_some_iff.mp hk).1
  have hend (t : State) : progWord (after (endLoad n' ((ps.map padded).any fun ws => !progOk ws)) t) n (first + k) i = progWord t n (first + k) i := by
    rw [progWord, (within_endLoad ..).prog, ← progWord]
  have hidx (q : List Word × Nat) (hq : q ∈ (ps.map padded).zipIdx) : q.2 < ps.length ∧ q.1.length = 32 ∧ (q.2 = k → q.1 = padded ws) := by
    have hget := List.mem_zipIdx_iff_getElem?.mp hq
    obtain ⟨hlt, hval⟩ := List.getElem?_eq_some_iff.mp hget
    rw [List.length_map] at hlt
    refine ⟨hlt, by rw [← hval, List.getElem_map, length_padded], fun he => ?_⟩
    rw [he, List.getElem?_map, hk, Option.map_some] at hget
    exact (Option.some.inj hget).symm
  have hdesc (q : List Word × Nat) (t : State) (ht : t.desc = []) : (after (loadProgram n' (first + q.2) q.1 (progOk q.1)) t).desc = [] :=
    ((within_loadProgram ..).desc t).trans ht
  have hword {q : List Word × Nat} (hq : q ∈ (ps.map padded).zipIdx) {t : State} (ht : t.desc = []) :
      progWord (after (loadProgram n' (first + q.2) q.1 (progOk q.1)) t) n (first + k) i =
        if n' = n ∧ first + q.2 = first + k then q.1.getD i 0 else progWord t n (first + k) i := by
    obtain ⟨hlt', hlen', -⟩ := hidx q hq
    exact progWord_after_loadProgram (by omega) (by omega) hi hlen' (progUsed_of_desc ht _ _) _
  rw [loadEngine, after_seq_cons, after_seq_cons, after_seq_nil, hend]
  split
  case isTrue hn =>
    have hmem : (padded ws, k) ∈ (ps.map padded).zipIdx := List.mem_zipIdx_iff_getElem?.mpr (by rw [List.getElem?_map, hk]; rfl)
    refine after_each_sets_of (P := fun t => t.desc = []) (f := fun t => progWord t n (first + k) i) hmem hdesc (fun t ht => ?_) (fun q hq => ?_) hd
    · rw [hword hmem ht, if_pos ⟨hn, rfl⟩]
    · by_cases hqk : q.2 = k
      · exact Or.inl fun t ht => by rw [hword hq ht, if_pos ⟨hn, by rw [hqk]⟩, (hidx q hq).2.2 hqk]
      · exact Or.inr fun t ht => by rw [hword hq ht, if_neg (by omega)]
  case isFalse hn =>
    exact (after_each_keeps (P := fun t => t.desc = [] ∧ progWord t n (first + k) i = progWord s n (first + k) i) _ _
      (fun q hq t ⟨ht, hv⟩ => ⟨hdesc q t ht, by rw [hword hq ht, if_neg (fun h => hn h.1), hv]⟩) s ⟨hd, rfl⟩).2

/-- Every engine holds the programs once all are loaded. -/
theorem progWords_after_loadEngines {n k : Nat} (hn : n < 24) {ws : List Word} (hk : ps[k]? = some ws) :
    progWords (after (each (List.range 24) (loadEngine first (ps.map padded))) s) n (first + k) = padded ws := by
  refine progWords_eq (length_padded ws) fun i hi => ?_
  refine after_each_sets_of (P := fun t => t.desc = []) (f := fun t => progWord t n (first + k) i) (List.mem_range.mpr hn)
    (fun n' t ht => desc_after_loadEngine ht n') (fun t ht => ?_) (fun n' _ => ?_) hd
  · rw [progWord_after_loadEngine hlen ht hi hk, if_pos rfl]
  · by_cases h : n' = n
    · exact Or.inl fun t ht => by rw [progWord_after_loadEngine hlen ht hi hk, if_pos h]
    · exact Or.inr fun t ht => by rw [progWord_after_loadEngine hlen ht hi hk, if_neg h]

end

end Sys2Proof.Machine
end

section
/-! The management commands (R617 to R620): O55. -/

namespace Sys2Proof.Machine

-- One declaration after the other: elaborated side by side they take more memory than the check has.
set_option Elab.async false

/-- A field that the type codes let a write set holds what the write gives. -/
theorem fld_after_maskWrite {b : Block} {a hi lo : Nat} {d : RegDef} (h : regDef b (a % 4096) = some d) (hc : d.w1c = 0) (hs : d.w1s = 0)
    (hn : hi < 32) (hrw : ∀ i, lo ≤ i → i ≤ hi → d.rw.testBit i = true) (v : Word) (s : State) :
    fld (rd (after (maskWrite b a v) s) a) hi lo = fld v hi lo := by
  refine Nat.eq_of_testBit_eq fun j => ?_
  rw [after_maskWrite h, rd_ctl_same, testBit_fld, testBit_fld, hc, hs, bit_or, bit_and, bit_or, bit_and, bit_and, bit_and, bit_not, bit_not, bit_and,
    bit_ofNat, bit_ofNat]
  by_cases hj : j < hi + 1 - lo
  · rw [hrw (lo + j) (by omega) (by omega)]
    simp [show lo + j < 32 by omega]
  · simp [hj]

theorem regDef_limit : regDef (.pwr 0) ((pwrPage 0 + 0x10C) % 4096) = some ⟨0x10C, 1, 4, 0xFFF, 0, 0, 0xFFF0000, 0x960, 0⟩ := by decide

section

variable {s : State} (hs : Ready s) (tag : MTag)
include hs

/-- A command that runs while the firmware does: its body says what it does. -/
theorem does_mgmtCmd {c : Instr} {cmd : Nat} {body : Act} {ps : List Part} {P : State → Prop} (hd : devState s = 1 ∨ devState s = 2)
    (hc : exec c s = run (mgmtCmd cmd tag body) s) (hw : OnlyIn ps s (after body s)) (hP : P (after body s)) : Does c s ps P := by
  refine does_of_run hs.1 hc ?_ ?_ <;> rwa [after_mgmtCmd hd]

/-- A command whose body only responds. -/
theorem does_mgmtCmd_respond {c : Instr} {cmd status : Nat} {body : Act} {result : List Byte} (hd : devState s = 1 ∨ devState s = 2)
    (hc : exec c s = run (mgmtCmd cmd tag body) s) (hb : after body s = after (respond cmd tag status result) s) :
    Does c s [.out] fun t => Responded t (BitVec.ofNat 8 cmd) tag (BitVec.ofNat 8 status) result :=
  does_respond hs hc (by rw [after_mgmtCmd hd, hb])

/-- Before the firmware runs and after, a management command only answers status 3. -/
theorem does_mgmtCmd_refused {c : Instr} {cmd : Nat} {body : Act} (h1 : devState s ≠ 1) (h2 : devState s ≠ 2)
    (hc : exec c s = run (mgmtCmd cmd tag body) s) : Does c s [.out] fun t => Responded t (BitVec.ofNat 8 cmd) tag 3 [] :=
  does_respond hs hc (by rw [mgmtCmd, after_look, after_ite, if_neg (not_or.mpr ⟨h1, h2⟩)])

variable (hd : devState s = 1 ∨ devState s = 2)
include hd

/-! ## FENCE and HERD_FAIL -/

theorem does_fence {c : Site} (hc : coreEn s c.val = true) (hk : (coreX s c.val).fenceStep = 0) :
    Does (.fence tag c) s [.ctl, .core, .herd, .bx, .hcmd, .htag, .notices, .out] fun t => Responded t 2 tag 0 [] ∧ fenced t (seqPage c.val) = true ∧
      (coreX t c.val).fenceStep = 1 ∧ ∀ h, herdAt s c.val = some h → ∀ x, herdOf t h = some x → x.failed = true := by
  obtain ⟨hf, hstep, hfail⟩ := actCoreFence_steps hc hk (by decide) (Or.inl rfl)
  have e : after (actFence tag c.val) s = after (respond 2 tag 0 []) (after (actCoreFence c.val) s) := by
    rw [actFence, after_mgmtCmd hd, after_look, after_ite, if_pos hc, after_seq_cons, after_act, decide_eq_true hk, if_pos rfl, after_seq_cons, after_seq_nil]
  refine does_of_run hs.1 rfl ((within_actFence tag c.val).onlyIn s) ?_
  rw [e]
  refine ⟨responded_after_respond .., ?_, ?_, fun h hh x hx => ?_⟩
  · rw [fenced, (within_respond ..).rd]
    exact hf
  · rw [(within_respond ..).coreX]
    exact hstep
  · rw [(within_respond ..).herdOf] at hx
    cases hy : herdOf s h with
    | some y =>
      obtain ⟨z, hz, hzf⟩ := hfail rfl h y hh hy
      rw [hz] at hx
      exact Option.some.inj hx ▸ hzf
    | none =>
      rw [after_actCoreFence hc hk (by decide) (Or.inl rfl), hh, after_act, if_pos (by decide)] at hx
      dsimp only at hx
      rw [after_failHerd_none, (within_setCore ..).herdOf, (within_wrBit ..).herdOf, hy] at hx
      · cases hx
      · rw [(within_setCore ..).herdOf, (within_wrBit ..).herdOf, hy]

theorem does_fence_absent {c : Site} (hc : coreEn s c.val = false) : Does (.fence tag c) s [.out] fun t => Responded t 2 tag 2 [] :=
  does_mgmtCmd_respond hs tag hd rfl (by rw [after_look, after_ite, if_neg (by rw [hc]; exact Bool.false_ne_true)])

theorem does_herdFail {h : HerdNo} {x : Herd} (hx : herdOf s h.val = some x) (hf : x.failed = false) :
    Does (.herdFail tag h) s [.ctl, .core, .herd, .bx, .hcmd, .htag, .notices, .out] fun t => Responded t 3 tag 0 [] ∧
      herdOf t h.val = some { x with failed := true } ∧
      ∀ f, x.owner = some f → t.notices = s.notices ++ [⟨f, 1, h.val, 6, beadNo s, []⟩] := by
  have e : after (actHerdFail tag h.val) s = after (respond 3 tag 0 []) (after (failHerd h.val 6) s) := by
    rw [actHerdFail, after_mgmtCmd hd, after_look, after_ite, hx, if_pos Option.isSome_some, after_seq_cons, after_seq_cons, after_seq_nil]
  refine does_of_run hs.1 rfl ((within_actHerdFail tag h.val).onlyIn s) ?_
  rw [e]
  refine ⟨responded_after_respond .., ?_, fun f ho => ?_⟩
  · rw [(within_respond ..).herdOf, herdOf_after_failHerd hx hf]
  · rw [(within_respond ..).notices, notices_after_failHerd hx hf ho]
    rfl

theorem does_herdFail_absent {h : HerdNo} (hx : herdOf s h.val = none) : Does (.herdFail tag h) s [.out] fun t => Responded t 3 tag 2 [] :=
  does_mgmtCmd_respond hs tag hd rfl (by rw [after_look, after_ite, hx, if_neg (by decide)])

/-! ## POWER_LIMIT (R583) -/

theorem does_powerLimit {w : BitVec 12} (hlo : 600 ≤ w.toNat) (hhi : w.toNat ≤ 2400) : Does (.powerLimit tag w) s [.ctl, .out] fun t =>
    Responded t 4 tag 0 [] ∧ fld (rd t (pwrPage 0 + 0x10C)) 11 0 = w.toNat ∧ fld (rd t (pwrPage 0 + 0x10C)) 27 16 =
      min (min w.toNat (fld (rd s (pwrPage 0 + 0x11C)) 15 0)) 2400 ∧ RegsAt [pwrPage 0 + 0x10C] s t := by
  have hv : fld (w.setWidth 32) 11 0 = w.toNat := by
    have := w.isLt
    simp only [fld, bits, BitVec.toNat_setWidth]
    omega
  let v : Word := w.setWidth 32
  let u := after (maskWrite (.pwr 0) (pwrPage 0 + 0x10C) v) s
  have hw : ¬ (w.toNat < 600 ∨ 2400 < w.toNat) := not_or.mpr ⟨by omega, by omega⟩
  have hoff : fld (rd u (pwrPage 0 + 0x10C)) 11 0 = w.toNat :=
    (fld_after_maskWrite regDef_limit rfl rfl (by decide) (fun i _ hi => by interval_cases i <;> decide) v s).trans hv
  have hslot : rd u (pwrPage 0 + 0x11C) = rd s (pwrPage 0 + 0x11C) := (keepsReg_maskWrite (by decide) _ v).rd s
  have e : after (seq [limitWrite .ringCtl v, respond 4 tag (if w.toNat < 600 ∨ 2400 < w.toNat then 2 else 0) []]) s =
      after (respond 4 tag 0 []) (after setEff u) := by
    rw [after_seq_cons, after_seq_cons, after_seq_nil, limitWrite, hv, after_ite, if_neg hw, if_neg hw, after_seq_cons, after_seq_cons, after_seq_nil]
  have heff : after setEff u = after (wrFld (pwrPage 0 + 0x10C) 27 16 (min (min w.toNat (fld (rd s (pwrPage 0 + 0x11C)) 15 0)) 2400)) u := by
    rw [setEff, after_look, hoff, hslot]
  refine does_mgmtCmd hs tag hd rfl ?_ ?_ <;> rw [e, heff]
  · exact (((within_maskWrite ..).wider rfl).onlyIn s).trans ((((within_wrFld ..).wider rfl).onlyIn u).trans (((within_respond ..).wider rfl).onlyIn _))
  · refine ⟨responded_after_respond .., ?_, ?_, fun x hx => ?_⟩
    · rw [(within_respond ..).rd, after_wrFld, rd_ctl_same, fld_setFld_other _ (by decide) (by decide) (by decide), hoff]
    · rw [(within_respond ..).rd, after_wrFld, rd_ctl_same, fld_setFld _ (by decide) (by decide)]
      exact Nat.mod_eq_of_lt (by omega)
    · have hne : x ≠ pwrPage 0 + 0x10C := fun h => hx (List.mem_singleton.mpr h)
      rw [(within_respond ..).rd, (keepsReg_wrFld hne ..).rd, (keepsReg_maskWrite hne ..).rd]

theorem does_powerLimit_refused {w : BitVec 12} (h : w.toNat < 600 ∨ 2400 < w.toNat) : Does (.powerLimit tag w) s [.ctl, .dumpRun, .freeCtr, .out]
    fun t => Responded t 4 tag 2 [] ∧ rd t (pwrPage 0 + 0x10C) = rd s (pwrPage 0 + 0x10C) ∧ bit (rd t (pwrPage 0 + 0x20)) 3 = true := by
  have hv : fld (w.setWidth 32) 11 0 = w.toNat := by
    have := w.isLt
    simp only [fld, bits, BitVec.toNat_setWidth]
    omega
  have e : after (seq [limitWrite .ringCtl (w.setWidth 32), respond 4 tag (if w.toNat < 600 ∨ 2400 < w.toNat then 2 else 0) []]) s =
      after (respond 4 tag 2 []) (after (protocolAt (pwrPage 0) .ringCtl) s) := by
    rw [after_seq_cons, after_seq_cons, after_seq_nil, limitWrite, hv, after_ite, if_pos h, if_pos h]
  refine does_mgmtCmd hs tag hd rfl ?_ ?_ <;> rw [e]
  · exact (((within_protocolAt ..).wider rfl).onlyIn s).trans (((within_respond ..).wider rfl).onlyIn _)
  · refine ⟨responded_after_respond .., ?_, ?_⟩
    · rw [(within_respond ..).rd, protocolAt, (keepsReg_raise (by decide) (by decide) (by decide)).rd]
    · rw [(within_respond ..).rd, protocolAt]
      exact bit_after_raise (c := { cls := .protocol, req := _ }) _ (by decide)

end

end Sys2Proof.Machine
end

section
/-! The management commands that partition the device, load tables and read memory (R405, R474, R562, R584, R618 to R620), and O55. -/

namespace Sys2Proof.Machine

-- One declaration after the other: elaborated side by side they take more memory than the check has.
set_option Elab.async false

/-! ## PARTITION -/

/-- The words that PARTITION POD writes. -/
def podWords (p : PodParams) : Act :=
  seq [wr (bxPage 0 + 0x800) (BitVec.ofNat 32 p.podId.toNat), wr64 (bxPage 0 + 0x808) p.present,
    each (List.range 6) (fun n => wr (bxPage n + 0x108) (p.nbr.getD n 0 &&& 0x803FFFFF)),
    wr (bxPage 0 + 0x804) (BitVec.ofNat 32 (0x80000000 + 65536 * p.zszM1.toNat + 256 * p.leadPos.toNat + p.pos.toNat)),
    wrBit (beadPage + 0x120) 1 (decide (p.pos = p.leadPos))]

theorem keepsReg_nbrs {x : Nat} (hx : x % 4096 ≠ 0x108) (p : PodParams) :
    KeepsReg x (each (List.range 6) fun n => wr (bxPage n + 0x108) (p.nbr.getD n 0 &&& 0x803FFFFF)) :=
  keeps_each fun n _ => keepsReg_wr (by unfold bxPage; omega) _

theorem rd_after_podWords (p : PodParams) (s : State) : let t := after (podWords p) s
    podCfg t = BitVec.ofNat 32 (0x80000000 + 65536 * p.zszM1.toNat + 256 * p.leadPos.toNat + p.pos.toNat) ∧
      bit (rd t (beadPage + 0x120)) 1 = decide (p.pos = p.leadPos) ∧ rd t (bxPage 0 + 0x800) = BitVec.ofNat 32 p.podId.toNat ∧
      rd64 t (bxPage 0 + 0x808) = p.present ∧ ∀ n < 6, rd t (bxPage n + 0x108) = p.nbr.getD n 0 &&& 0x803FFFFF := by
  have hb : bxPage 0 = 0x160000 := rfl
  have hbead : beadPage = 0x3000 := rfl
  dsimp only
  rw [podWords, after_seq_cons, after_seq_cons, after_seq_cons, after_seq_cons, after_seq_cons, after_seq_nil]
  refine ⟨?_, ?_, ?_, ?_, fun n hn => ?_⟩
  · rw [podCfg, (keepsReg_wrBit (by omega) ..).rd, after_wr, rd_ctl_same]
  · rw [after_wrBit, rd_ctl_same, bit_setBit_same _ (by decide)]
  · rw [(keepsReg_wrBit (by omega) ..).rd, (keepsReg_wr (by omega) _).rd, (keepsReg_nbrs (by omega) p).rd, (keepsReg_wr64 (by omega) (by omega) _).rd,
      after_wr, rd_ctl_same]
  · rw [rd64, (keepsReg_wrBit (by omega) ..).rd, (keepsReg_wr (by omega) _).rd, (keepsReg_nbrs (by omega) p).rd,
      (keepsReg_wrBit (by omega) ..).rd, (keepsReg_wr (by omega) _).rd, (keepsReg_nbrs (by omega) p).rd, ← rd64, rd64_after_wr64]
  · rw [(keepsReg_wrBit (by unfold bxPage; omega) ..).rd, (keepsReg_wr (by unfold bxPage; omega) _).rd]
    refine after_each_sets (f := fun t => rd t (bxPage n + 0x108)) (List.mem_range.mpr hn) (fun t => ?_) (fun k _ => ?_) _
    · rw [after_wr, rd_ctl_same]
    · by_cases hk : k = n
      · exact Or.inl fun t => by rw [hk, after_wr, rd_ctl_same]
      · exact Or.inr (keepsReg_wr (by unfold bxPage; omega) _)

/-- The torus ports of the axes that are connected train. -/
def podLinks : Act :=
  seq [look fun s => each ((List.range 6).filter (fun n => decide (1 < axisSize s (n / 2)))) fun n =>
      linkCtrlWrite n (setBit (rd s (bxPage n + 0x100)) 0 true), dropUnconnected]

theorem after_writePod (p : PodParams) (s : State) : after (writePod p) s = after podLinks (after (podWords p) s) := by
  rw [writePod, podLinks, podWords]
  simp only [after_seq_cons, after_seq_nil]

theorem keepsReg_podLinks {x : Nat} (hx : LinkFree x) (h100 : x % 4096 ≠ 0x100) : KeepsReg x podLinks :=
  keeps_seq_cons (keeps_look fun _ => keeps_each fun n hn => keepsReg_linkCtrlWrite hx
    (by have := List.mem_range.mp (List.mem_of_mem_filter hn); omega) (by unfold bxPage; omega) _)
    (keeps_seq_cons (keepsReg_dropUnconnected hx) keeps_seq_nil)

/-- A register outside the SEC_ pages stays as measurement 5 is taken and the response leaves. -/
theorem keepsReg_measured {x : Nat} (hx : x < 0x9000 ∨ 0xA000 ≤ x) (cmd : Nat) (tag : MTag) (st : Nat) (r : List Byte) :
    KeepsReg x (seq [takeMeasure 5, respond cmd tag st r]) := by
  have hp : secPage 1 = 0x9000 := rfl
  exact keeps_seq_cons (keepsReg_takeMeasure (by omega) (by omega)) (keeps_seq_cons ((within_respond ..).keepsReg x) keeps_seq_nil)

theorem responded_measured (n cmd : Nat) (tag : MTag) (st : Nat) (r : List Byte) (s : State) :
    Responded (after (seq [takeMeasure n, respond cmd tag st r]) s) (BitVec.ofNat 8 cmd) tag (BitVec.ofNat 8 st) r := by
  rw [after_seq_cons, after_seq_cons, after_seq_nil]
  exact responded_after_respond ..

/-- The fields of BX_POD_CFG. -/
theorem podCfg_fields (p : PodParams) : let w : Word := BitVec.ofNat 32 (0x80000000 + 65536 * p.zszM1.toNat + 256 * p.leadPos.toNat + p.pos.toNat)
    bit w 31 = true ∧ fld w 5 0 = p.pos.toNat ∧ fld w 13 8 = p.leadPos.toNat := by
  have hz := p.zszM1.isLt
  have hl := p.leadPos.isLt
  have hp := p.pos.isLt
  dsimp only
  rw [bit_eq_decide_fld, fld_ofNat _ (by decide) (by decide), fld_ofNat _ (by decide) (by decide), fld_ofNat _ (by decide) (by decide)]
  simp only [bits]
  refine ⟨decide_eq_true ?_, ?_, ?_⟩ <;> omega

theorem spareWord_fields (pod : BitVec 16) (k : BitVec 2) : let w : Word := BitVec.ofNat 32 (0x80000000 + 0x10000000 * k.toNat + pod.toNat)
    bit w 31 = true ∧ bit w 30 = false ∧ fld w 29 28 = k.toNat ∧ fld w 15 0 = pod.toNat := by
  have hp := pod.isLt
  have hk := k.isLt
  dsimp only
  rw [bit_eq_decide_fld, bit_eq_decide_fld, fld_ofNat _ (by decide) (by decide), fld_ofNat _ (by decide) (by decide),
    fld_ofNat _ (by decide) (by decide), fld_ofNat _ (by decide) (by decide)]
  simp only [bits]
  refine ⟨decide_eq_true ?_, decide_eq_false ?_, ?_, ?_⟩ <;> omega

/-- The words that PARTITION HOST_LIMITS writes. -/
def limitWords (p cores frames groups herds nseq : Nat) : Act :=
  seq [wr (p + 0x110) (BitVec.ofNat 32 cores), wr (p + 0x114) (BitVec.ofNat 32 frames), wr (p + 0x118) (BitVec.ofNat 32 groups),
    wr (p + 0x11C) (BitVec.ofNat 32 herds), wr (p + 0x120) (BitVec.ofNat 32 nseq)]

theorem after_limitWords (p cores frames groups herds nseq : Nat) (a b : Act) (s : State) :
    after (seq [wr (p + 0x110) (BitVec.ofNat 32 cores), wr (p + 0x114) (BitVec.ofNat 32 frames), wr (p + 0x118) (BitVec.ofNat 32 groups),
      wr (p + 0x11C) (BitVec.ofNat 32 herds), wr (p + 0x120) (BitVec.ofNat 32 nseq), a, b]) s =
      after (seq [a, b]) (after (limitWords p cores frames groups herds nseq) s) := by
  rw [limitWords, after_seq_cons, after_seq_cons, after_seq_cons, after_seq_cons, after_seq_cons, after_seq_cons, after_seq_cons, after_seq_nil,
    after_seq_cons, after_seq_cons, after_seq_cons, after_seq_cons, after_seq_cons, after_seq_nil, after_seq_cons, after_seq_cons, after_seq_nil]

theorem rd_after_limitWords (p cores frames groups herds nseq : Nat) (s : State) : let t := after (limitWords p cores frames groups herds nseq) s
    rd t (p + 0x110) = BitVec.ofNat 32 cores ∧ rd t (p + 0x114) = BitVec.ofNat 32 frames ∧ rd t (p + 0x118) = BitVec.ofNat 32 groups ∧
      rd t (p + 0x11C) = BitVec.ofNat 32 herds ∧ rd t (p + 0x120) = BitVec.ofNat 32 nseq := by
  dsimp only
  rw [limitWords, after_seq_cons, after_seq_cons, after_seq_cons, after_seq_cons, after_seq_cons, after_seq_nil]
  refine ⟨?_, ?_, ?_, ?_, ?_⟩
  · rw [(keepsReg_wr (by omega) _).rd, (keepsReg_wr (by omega) _).rd, (keepsReg_wr (by omega) _).rd, (keepsReg_wr (by omega) _).rd, after_wr, rd_ctl_same]
  · rw [(keepsReg_wr (by omega) _).rd, (keepsReg_wr (by omega) _).rd, (keepsReg_wr (by omega) _).rd, after_wr, rd_ctl_same]
  · rw [(keepsReg_wr (by omega) _).rd, (keepsReg_wr (by omega) _).rd, after_wr, rd_ctl_same]
  · rw [(keepsReg_wr (by omega) _).rd, after_wr, rd_ctl_same]
  · rw [after_wr, rd_ctl_same]

theorem writesIn_limitWords {p : Nat} (hp : p % 4096 = 0) (cores frames groups herds nseq : Nat) :
    WritesIn [p, secPage 1] (limitWords p cores frames groups herds nseq) :=
  have hmem : p ∈ [p, secPage 1] := List.mem_cons_self
  (writesIn_wr hp (by decide) hmem _).cons <| (writesIn_wr hp (by decide) hmem _).cons <| (writesIn_wr hp (by decide) hmem _).cons <|
    (writesIn_wr hp (by decide) hmem _).cons <| (writesIn_wr hp (by decide) hmem _).cons <| writesIn_seq_nil _

theorem writesIn_measured (p cmd : Nat) (tag : MTag) (st : Nat) (r : List Byte) :
    WritesIn [p, secPage 1] (seq [takeMeasure 5, respond cmd tag st r]) := fun x hx => by
  have h : x / 4096 * 4096 ≠ secPage 1 := fun h => hx (by rw [h]; simp)
  have hp : secPage 1 = 0x9000 := rfl
  exact keepsReg_measured (by omega) ..

section

variable {s : State} (hs : Ready s) (tag : MTag) (hd : devState s = 1 ∨ devState s = 2)
include hs hd

theorem does_partitionPod (hpod : podEn s = false) (harm : armed s = false) (p : PodParams) :
    Does (.partitionPod tag p) s [.ctl, .bx, .coll, .mc, .dumpRun, .freeCtr, .out] fun t => Responded t 5 tag 0 [] ∧ podEn t = true ∧
      ownPos t = p.pos.toNat ∧ leadPos t = p.leadPos.toNat ∧ bit (rd t (beadPage + 0x120)) 1 = decide (p.pos = p.leadPos) ∧
      podId t = p.podId.toNat ∧ rd64 t (bxPage 0 + 0x808) = p.present ∧
      ∀ n < 6, rd t (bxPage n + 0x108) = p.nbr.getD n 0 &&& 0x803FFFFF := by
  let u := after (podWords p) s
  let t := after (seq [takeMeasure 5, respond 5 tag 0 []]) (after podLinks u)
  have e : after (actPartitionPod tag p) s = t := by
    rw [actPartitionPod, after_mgmtCmd hd, after_look, after_ite, hpod, harm, if_neg (by decide), after_seq_cons, after_writePod]
  have hb : bxPage 0 = 0x160000 := rfl
  have hbead : beadPage = 0x3000 := rfl
  have hreg {x : Nat} (hx : LinkFree x) (h100 : x % 4096 ≠ 0x100) (hm : x < 0x9000 ∨ 0xA000 ≤ x) : rd t x = rd u x := by
    rw [(keepsReg_measured hm ..).rd, (keepsReg_podLinks hx h100).rd]
  obtain ⟨hcfg, hlead, hid, hpres, hnbr⟩ := rd_after_podWords p s
  obtain ⟨h31, hown, hleadPos⟩ := podCfg_fields p
  have hcfgt : podCfg t = podCfg u := hreg (by unfold LinkFree; omega) (by omega) (by omega)
  refine does_of_run hs.1 rfl ((within_actPartitionPod tag p).onlyIn s) ?_
  rw [e]
  refine ⟨responded_measured .., ?_, ?_, ?_, ?_, ?_, ?_, fun n hn => ?_⟩
  · rw [podEn, hcfgt, hcfg, h31]
  · rw [ownPos, hcfgt, hcfg, hown]
  · rw [leadPos, hcfgt, hcfg, hleadPos]
  · rw [hreg (by unfold LinkFree; omega) (by omega) (by omega), hlead]
  · have hlt := p.podId.isLt
    rw [podId, hreg (by unfold LinkFree; omega) (by omega) (by omega), hid, fld_ofNat_low 15 (by decide) hlt]
  · rw [rd64, hreg (by unfold LinkFree; omega) (by omega) (by omega), hreg (by unfold LinkFree; omega) (by omega) (by omega), ← rd64, hpres]
  · have hbn : bxPage n = 0x160000 + n * 0x1000 := rfl
    rw [hreg (by unfold LinkFree; omega) (by omega) (by omega), hnbr n hn]

theorem does_partitionPod_refused (h : podEn s = true ∨ armed s = true) (p : PodParams) :
    Does (.partitionPod tag p) s [.out] fun t => Responded t 5 tag 3 [] :=
  does_mgmtCmd_respond hs tag hd rfl (by rw [after_look, after_ite, if_pos (by simpa using h)])

theorem does_partitionHostLimits {k : HpNo} {cores frames groups herds nseq : Nat} (hk : k.val < hpPorts s) (hc : cores < 2 ^ 11)
    (hf : frames < 2 ^ 26) (hg : groups < 2 ^ 17) (hh : herds < 2 ^ 7) (hn : nseq < 2 ^ 11) :
    (limitsHold s k.val cores frames groups herds nseq = true →
      Does (.partitionHostLimits tag k cores frames groups herds nseq) s [.ctl, .out] fun t => Responded t 5 tag 0 [] ∧
        rd t (hpPage k.val + 0x110) = BitVec.ofNat 32 cores ∧ rd t (hpPage k.val + 0x114) = BitVec.ofNat 32 frames ∧
        rd t (hpPage k.val + 0x118) = BitVec.ofNat 32 groups ∧ rd t (hpPage k.val + 0x11C) = BitVec.ofNat 32 herds ∧
        rd t (hpPage k.val + 0x120) = BitVec.ofNat 32 nseq ∧ RegsOnly [hpPage k.val, secPage 1] s t) ∧
    (limitsHold s k.val cores frames groups herds nseq = false →
      Does (.partitionHostLimits tag k cores frames groups herds nseq) s [.out] fun t => Responded t 5 tag 1 []) := by
  have hfits : ¬ (hpPorts s ≤ k.val ∨ 2 ^ 11 ≤ cores ∨ 2 ^ 26 ≤ frames ∨ 2 ^ 17 ≤ groups ∨ 2 ^ 7 ≤ herds ∨ 2 ^ 11 ≤ nseq) := by omega
  refine ⟨fun hl => ?_, fun hl => does_mgmtCmd_respond hs tag hd rfl (by rw [after_look, after_ite, if_neg hfits, after_ite, hl, if_pos (by decide)])⟩
  have e : after (actPartitionHostLimits tag k.val cores frames groups herds nseq) s =
      after (seq [takeMeasure 5, respond 5 tag 0 []]) (after (limitWords (hpPage k.val) cores frames groups herds nseq) s) := by
    rw [actPartitionHostLimits, after_mgmtCmd hd, after_look]
    dsimp only
    rw [after_ite, if_neg hfits, after_ite, hl, if_neg (by decide), after_limitWords]
  have hpage : hpPage k.val % 4096 = 0 ∧ 0x170000 ≤ hpPage k.val := by unfold hpPage; omega
  refine does_of_run (a := actPartitionHostLimits tag k.val cores frames groups herds nseq) hs.1 rfl ((within_actPartitionHostLimits ..).onlyIn s) ?_
  rw [e]
  generalize hpPage k.val = p at hpage
  obtain ⟨hp, hlt⟩ := hpage
  obtain ⟨h1, h2, h3, h4, h5⟩ := rd_after_limitWords p cores frames groups herds nseq s
  have hw := writesIn_limitWords hp cores frames groups herds nseq
  have hkeep (o : Nat) : rd (after (seq [takeMeasure 5, respond 5 tag 0 []]) (after (limitWords p cores frames groups herds nseq) s)) (p + o) =
      rd (after (limitWords p cores frames groups herds nseq) s) (p + o) := (keepsReg_measured (by omega) ..).rd _
  exact ⟨responded_measured .., (hkeep _).trans h1, (hkeep _).trans h2, (hkeep _).trans h3, (hkeep _).trans h4, (hkeep _).trans h5,
    (hw.regsOnly s).trans (WritesIn.regsOnly (writesIn_measured p 5 tag 0 []) _)⟩

theorem does_partitionSpare (hpod : podEn s = false) (hh : s.herd = []) (pod : BitVec 16) (k : BitVec 2) :
    Does (.partitionSpare tag pod k) s [.ctl, .bx, .coll, .mc, .dumpRun, .freeCtr, .out] fun t => Responded t 5 tag 0 [] ∧ armed t = true ∧
      taking t = false ∧ spareIdx t = k.toNat ∧ fld (rd t spareReg) 15 0 = pod.toNat ∧ podId t = pod.toNat ∧ podEn t = false := by
  let u := after (wrBit (snapPage + 0x104) 2 true) (after (wr spareReg (BitVec.ofNat 32 (0x80000000 + 0x10000000 * k.toNat + pod.toNat)))
    (after (wr (bxPage 0 + 0x800) (BitVec.ofNat 32 pod.toNat)) s))
  let links : Act := each (List.range 6) fun n => look fun s => linkCtrlWrite n (setBit (rd s (bxPage n + 0x100)) 0 true)
  let t := after (seq [takeMeasure 5, respond 5 tag 0 []]) (after links u)
  have e : after (actPartitionSpare tag pod k) s = t := by
    rw [actPartitionSpare, after_mgmtCmd hd, after_look, after_ite, hpod, hh, if_neg (by decide), after_seq_cons, after_seq_cons, after_seq_cons,
      after_seq_cons]
  have hb : bxPage 0 = 0x160000 := rfl
  have hsp : spareReg = 0x1C0120 := rfl
  have hsn : snapPage = 0x1C0000 := rfl
  have hreg {x : Nat} (hx : LinkFree x) (h100 : x % 4096 ≠ 0x100) (hm : x < 0x9000 ∨ 0xA000 ≤ x) : rd t x = rd u x := by
    rw [(keepsReg_measured hm ..).rd, KeepsReg.rd (keeps_each fun n hn => keeps_look fun _ => keepsReg_linkCtrlWrite hx
      (by have := List.mem_range.mp hn; omega) (by unfold bxPage; omega) _)]
  have hspare : rd t spareReg = BitVec.ofNat 32 (0x80000000 + 0x10000000 * k.toNat + pod.toNat) := by
    rw [hreg (by unfold LinkFree; omega) (by omega) (by omega), (keepsReg_wrBit (by omega) ..).rd, after_wr, rd_ctl_same]
  have hid : rd t (bxPage 0 + 0x800) = BitVec.ofNat 32 pod.toNat := by
    rw [hreg (by unfold LinkFree; omega) (by omega) (by omega), (keepsReg_wrBit (by omega) ..).rd, (keepsReg_wr (by omega) _).rd, after_wr, rd_ctl_same]
  have hcfg : podCfg t = podCfg s := by
    rw [podCfg, hreg (by unfold LinkFree; omega) (by omega) (by omega), (keepsReg_wrBit (by omega) ..).rd, (keepsReg_wr (by omega) _).rd,
      (keepsReg_wr (by omega) _).rd, podCfg]
  obtain ⟨h31, h30, hidx, hpodId⟩ := spareWord_fields pod k
  refine does_of_run hs.1 rfl ((within_actPartitionSpare tag pod k).onlyIn s) ?_
  rw [e]
  refine ⟨responded_measured .., ?_, ?_, ?_, ?_, ?_, ?_⟩
  · rw [armed, hspare, h31]
  · rw [taking, hspare, h30]
  · rw [spareIdx, hspare, hidx]
  · rw [hspare, hpodId]
  · rw [podId, hid, fld_ofNat_low 15 (by decide) pod.isLt]
  · rw [podEn, hcfg, ← podEn, hpod]

theorem does_partitionSpare_refused (h : podEn s = true ∨ s.herd ≠ []) (pod : BitVec 16) (k : BitVec 2) :
    Does (.partitionSpare tag pod k) s [.out] fun t => Responded t 5 tag 3 [] :=
  does_mgmtCmd_respond hs tag hd rfl (by rw [after_look, after_ite, if_pos (by simpa using h)])

theorem does_partitionAux (a b : Bool) : Does (.partitionAux tag a b) s [.ctl, .bx, .coll, .mc, .dumpRun, .freeCtr, .out] fun t =>
    Responded t 5 tag 0 [] ∧ bit (rd t (bxPage 6 + 0x100)) 0 = a ∧ bit (rd t (bxPage 7 + 0x100)) 0 = b := by
  let v6 := setBit (rd s (bxPage 6 + 0x100)) 0 a
  let u := after (linkCtrlWrite 6 v6) s
  let v7 := setBit (rd u (bxPage 7 + 0x100)) 0 b
  have e : after (actPartitionAux tag a b) s = after (seq [takeMeasure 5, respond 5 tag 0 []]) (after (linkCtrlWrite 7 v7) u) := by
    rw [actPartitionAux, after_mgmtCmd hd, after_seq_cons, after_look, after_seq_cons, after_look]
  have h6 : LinkFree (bxPage 6 + 0x100) := Or.inr (Or.inl (by decide))
  refine does_of_run hs.1 rfl ((within_actPartitionAux tag a b).onlyIn s) ?_
  rw [e]
  refine ⟨responded_measured .., ?_, ?_⟩
  · rw [(keepsReg_measured (by decide) ..).rd, (keepsReg_linkCtrlWrite h6 (by decide) (by decide) v7).rd]
    exact (trains_after_linkCtrlWrite (p := 6) (by decide) v6 s).trans (bit_setBit_same _ (by decide) _)
  · rw [(keepsReg_measured (by decide) ..).rd]
    exact (trains_after_linkCtrlWrite (p := 7) (by decide) v7 u).trans (bit_setBit_same _ (by decide) _)

end

end Sys2Proof.Machine
end

section
/-! The management commands that load tables, halt links, dump and read (R405, R436, R474, R584, R618, R620), and O55. -/

namespace Sys2Proof.Machine

-- One declaration after the other: elaborated side by side they take more memory than the check has.
set_option Elab.async false

/-! ## REMAP_LOAD (R405) -/

/-- A remap's entry, whatever waited in the merge buffer for its block. -/
theorem remapReg_after_remapInto (s : State) (n l : Nat) {e : Nat} (he : e < 64) :
    ∃ poison, rd (after (remapInto n e l false) s) (remapReg n e) = remapWord poison l := by
  rw [remapInto, after_seq_cons, after_seq_cons, after_seq_nil, after_look]
  generalize after (retireFor (blkOf n l)) s = u
  dsimp only
  rw [after_seq_cons, after_seq_cons, after_seq_cons, after_seq_cons]
  refine ⟨decide (verdictAt u (tcorrOf u n) (blkOf n l) = .bad), ?_⟩
  refine (((above_remapReg n he).remapCounts n).rd _).trans ?_
  rw [after_wrFld, rd_ctl_other _ (remapReg_ne_number n n he).symm, after_wr, rd_ctl_same, Bool.false_or]
  rfl

theorem freeRemap_lt {s : State} {n e : Nat} (h : freeRemap s n = some e) : e < 64 := List.mem_range.mp (List.mem_of_find?_eq_some h)

theorem side_after_setLinkStop (b : Bool) (s : State) : (after (setLinkStop b) s).side = { s.side with linkStop := b } := by
  rw [setLinkStop, after_look, after_seq_cons, after_seq_cons, after_seq_nil]
  have hresume (n : Nat) (t : State) : Within [.ctl, .bx, .out] (match (bxOf t n).resend with
      | some l => resendFrom n l
      | none => nop) := by
    split
    · exact within_resendFrom ..
    · exact within_nop
  exact (within_act (within_each fun n => within_seq_cons (within_look fun t => hresume n t)
    (within_seq_cons (within_flushFrames n) within_seq_nil)) : Within [.ctl, .bx, .out] _).side _

/-- A FRU memory with a slot limit (R584). -/
theorem after_readFru_some {fru : Option (List Byte)} {w : Nat} (h : fru.bind slotLimit = some w) (s : State) :
    after (readFru fru) s = after (wrFld (pwrPage 0 + 0x10C) 27 16 (min (min (fld (rd s (pwrPage 0 + 0x10C)) 11 0) (w % 65536)) 2400))
      (after (wr (pwrPage 0 + 0x11C) (BitVec.ofNat 32 (65536 + w % 65536)))
        (after (one (.mgmt { s.mgmt with board := (fru.map boardInfo).getD [] })) s)) := by
  have hboard (m : Mgmt) (x : Nat) : rd (after (one (.mgmt m)) s) x = rd s x := rfl
  have hlim : fld (BitVec.ofNat 32 (65536 + w % 65536)) 15 0 = w % 65536 := by
    rw [fld_ofNat _ (by decide) (by decide), bits]
    omega
  rw [readFru, after_look, h]
  dsimp only
  rw [after_seq_cons, after_seq_cons, after_seq_cons, after_seq_nil, setEff, after_look, (keepsReg_wr (by decide) _).rd, after_wr, rd_ctl_same, hlim, hboard]

section

variable {s : State} (hs : Ready s) (tag : MTag) (hd : devState s = 1 ∨ devState s = 2)
include hs hd

theorem does_remapLoad {n : PortNo} {l e : Nat} (hl : l < 2 ^ 30) (he : freeRemap s n.val = some e)
    (hr : remapRefused s n.val e (BitVec.ofNat 32 (0x80000000 + l)) = false) :
    Does (.remapLoad tag n [l]) s [.ctl, .mem, .chk, .mergeBuf, .dumpRun, .freeCtr, .out] fun t => Responded t 6 tag 0 (leBytes 4 1) ∧
      bit (rd t (remapReg n.val e)) 31 = true ∧ fld (rd t (remapReg n.val e)) 29 0 = l := by
  have hword : BitVec.ofNat 32 (0x80000000 + l) = remapWord false l := rfl
  obtain ⟨h31, h30, hfld⟩ := remapWord_fields false hl
  have hsize : ¬ ([l].isEmpty || decide (64 < [l].length) || [l].any fun l => decide (2 ^ 30 ≤ l)) = true := by
    simp
    omega
  have hload : after (remapList n.val (fun k => respond 6 tag 0 (leBytes 4 k)) 0 [l]) s =
      after (respond 6 tag 0 (leBytes 4 1)) (after (remapWrite .ringCtl n.val e (BitVec.ofNat 32 (0x80000000 + l))) s) := by
    rw [remapList, after_look, he]
    dsimp only
    rw [after_ite, hr, if_neg (by decide), after_seq_cons, after_seq_cons, after_seq_nil]
    rfl
  have hwrite : after (remapWrite .ringCtl n.val e (BitVec.ofNat 32 (0x80000000 + l))) s = after (remapInto n.val e l false) s := by
    rw [remapWrite, after_look, after_ite, hr, if_neg (by decide), hword, after_ite, h31, if_pos rfl, h30, hfld]
  have ebody : after (if [l].isEmpty || decide (64 < [l].length) || [l].any (fun l => decide (2 ^ 30 ≤ l)) then respond 6 tag 2 []
      else remapList n.val (fun k => respond 6 tag 0 (leBytes 4 k)) 0 [l]) s =
      after (respond 6 tag 0 (leBytes 4 1)) (after (remapInto n.val e l false) s) := by
    rw [after_ite, if_neg hsize, hload, hwrite]
  refine does_of_run (a := actRemapLoad tag n.val [l]) hs.1 rfl ((within_actRemapLoad ..).onlyIn s) ?_
  rw [actRemapLoad, after_mgmtCmd hd, ebody]
  obtain ⟨poison, hp⟩ := remapReg_after_remapInto s n.val l (freeRemap_lt he)
  obtain ⟨p31, -, pfld⟩ := remapWord_fields poison hl
  refine ⟨responded_after_respond .., ?_, ?_⟩ <;> rw [(within_respond ..).rd, hp]
  · exact p31
  · exact pfld

theorem does_remapLoad_full {n : PortNo} {l : Nat} (hl : l < 2 ^ 30) (h : freeRemap s n.val = none) :
    Does (.remapLoad tag n [l]) s [.out] fun t => Responded t 6 tag 0 (leBytes 4 0) := by
  have hsize : ¬ ([l].isEmpty || decide (64 < [l].length) || [l].any fun l => decide (2 ^ 30 ≤ l)) = true := by
    simp
    omega
  refine does_respond (a := actRemapLoad tag n.val [l]) hs rfl ?_
  rw [actRemapLoad, after_mgmtCmd hd, after_ite, if_neg hsize, remapList, after_look, h]

/-! ## SYSPROG_LOAD (R339) -/

theorem does_sysprogLoad {first : Nat} {ps : List (List Word)} (hidle : s.desc = []) (hne : ps ≠ []) (hlen : first + ps.length ≤ 32) :
    Does (.sysprogLoad tag first ps) s [.ctl, .prog, .progPend, .out] fun t => Responded t 7 tag 0 [] ∧ ∀ n < 24, ∀ (k : Nat) (ws : List Word),
      ps[k]? = some ws → progWords t n (first + k) = (ws ++ List.replicate 32 0).take 32 := by
  have hsize : ¬ (ps.isEmpty || decide (32 < first + ps.length)) = true := by simp [hne, hlen]
  have e : after (actSysprogLoad tag first ps) s =
      after (seq [takeMeasure 4, respond 7 tag 0 []]) (after (each (List.range 24) (loadEngine first (ps.map padded))) s) := by
    rw [actSysprogLoad, after_mgmtCmd hd, after_ite, if_neg hsize]
    dsimp only
    rw [after_seq_cons]
    rfl
  refine does_of_run (a := actSysprogLoad tag first ps) hs.1 rfl ((within_actSysprogLoad ..).onlyIn s) ?_
  rw [e]
  refine ⟨responded_measured .., fun n hn k ws hk => ?_⟩
  refine Eq.trans (congrArg (fun m => (List.range 32).map fun i => mGetD m ((256 * n + (first + k)) * 32 + i) 0) ?_)
    (progWords_after_loadEngines (hlen.trans (by decide)) hidle hn hk)
  exact (within_seq_cons ((within_takeMeasure ..).wider rfl) (within_seq_cons ((within_respond ..).wider rfl) within_seq_nil) :
    Within [.ctl, .out] _).prog _

/-! ## LINK_HALT (R474) -/

omit hs in
theorem after_actLinkHalt {a h : Nat} (ha : 2 ≤ a ∧ a ≤ 4) (hlead : isLead s = true) : after (actLinkHalt tag a h) s =
    after (respond 8 tag 0 []) (after (haltAll h a) (after (if a = 2 then failPodHerd h else setLinkStop (decide (a = 3))) s)) := by
  rw [actLinkHalt, after_mgmtCmd hd, after_look, after_ite, if_neg (by omega), after_ite, hlead, if_neg (by decide), after_seq_cons, after_seq_cons,
    after_seq_cons, after_seq_nil]

theorem does_linkHalt_stop {a : Nat} (ha : a = 3 ∨ a = 4) (h : HerdNo) (hlead : isLead s = true) :
    Does (.linkHalt tag a h) s [.ctl, .bx, .side, .out] fun t => Responded t 8 tag 0 [] ∧ t.side.linkStop = decide (a = 3) := by
  have e := after_actLinkHalt tag hd (h := h.val) (a := a) (by omega) hlead
  rw [if_neg (by omega)] at e
  refine does_of_run (a := actLinkHalt tag a h.val) hs.1 rfl ?_ ?_ <;> rw [e]
  · exact ((within_setLinkStop _).onlyIn s).trans ((((within_haltAll ..).wider rfl).onlyIn _).trans (((within_respond ..).wider rfl).onlyIn _))
  · refine ⟨responded_after_respond .., ?_⟩
    rw [(within_respond ..).side, (within_haltAll ..).side]
    exact congrArg Sideband.linkStop (side_after_setLinkStop ..)

theorem does_linkHalt_fail {h : HerdNo} (hlead : isLead s = true) {x : Herd} (hx : herdOf s h.val = some x) (hp : x.pod = true)
    (hf : x.failed = false) : Does (.linkHalt tag 2 h) s [.ctl, .core, .herd, .bx, .notices, .out] fun t => Responded t 8 tag 0 [] ∧
      herdOf t h.val = some { x with failed := true } := by
  have e := after_actLinkHalt tag hd (h := h.val) (a := 2) (by decide) hlead
  rw [if_pos rfl] at e
  have hfail : after (failPodHerd h.val) s = after (failHere h.val 6) s := by
    rw [failPodHerd, after_look, hx, Option.any_some, hp, after_act, if_pos rfl]
  refine does_of_run (a := actLinkHalt tag 2 h.val) hs.1 rfl ?_ ?_ <;> rw [e, hfail]
  · exact (((within_failHere ..).wider rfl).onlyIn s).trans ((((within_haltAll ..).wider rfl).onlyIn _).trans (((within_respond ..).wider rfl).onlyIn _))
  · exact ⟨responded_after_respond .., by rw [(within_respond ..).herdOf, (within_haltAll ..).herdOf, herdOf_after_failHere hx hf]⟩

theorem does_linkHalt_refused {a : Nat} (ha : 2 ≤ a ∧ a ≤ 4) (h : HerdNo) (hlead : isLead s = false) :
    Does (.linkHalt tag a h) s [.out] fun t => Responded t 8 tag 3 [] :=
  does_mgmtCmd_respond hs tag hd rfl (by rw [after_look, after_ite, if_neg (by omega), after_ite, hlead, if_pos (by decide)])

/-! ## OPEN, DUMP, FRU_READ and REG_READ -/

theorem does_openPermission : Does (.openPermission tag) s [.ctl, .out] fun t => Responded t 9 tag 0 [] ∧ bit (rd t (mgtPage 0 + 0x100)) 8 = true ∧
    devState t = devState s ∧ RegsAt [mgtPage 0 + 0x100] s t := by
  refine does_of_run (a := actOpenPermission tag) hs.1 rfl ((within_actOpenPermission tag).onlyIn s) ?_
  rw [actOpenPermission, after_mgmtCmd hd, after_seq_cons, after_seq_cons, after_seq_nil]
  refine ⟨responded_after_respond .., ?_, ?_, fun x hx => ?_⟩
  · rw [(within_respond ..).rd, after_wrBit, rd_ctl_same, bit_setBit_same _ (by decide)]
  · have h100 : mgtPage 0 + 0x100 = 0x100 := by decide
    rw [devState, (within_respond ..).rd, after_wrBit, h100, rd_ctl_same, fld_setBit_other _ (by decide) (by decide), ← devState]
  · rw [(within_respond ..).rd, (keepsReg_wrBit (fun h => hx (List.mem_singleton.mpr h)) ..).rd]

theorem does_mgmtDumpStart (hrun : s.dumpRun = none) : Does (.mgmtDumpStart tag) s [.ctl, .dumpRun, .out] fun t => Responded t 12 tag 0 [] ∧
    t.dumpRun = some ⟨1, 0, false, beadNo s, beadCyc s, none, 0⟩ := by
  refine does_of_run (a := actMgmtDumpStart tag) hs.1 rfl ((within_actMgmtDumpStart tag).onlyIn s) ?_
  rw [actMgmtDumpStart, after_mgmtCmd hd, after_look, after_ite, hrun, if_neg (by decide), after_seq_cons, after_seq_cons, after_seq_nil, beginDump, after_look,
    after_seq_cons, after_seq_cons, after_seq_nil]
  refine ⟨responded_after_respond .., ?_⟩
  rw [(within_respond ..).dumpRun, (within_wrBit ..).dumpRun]
  rfl

theorem does_mgmtDumpStart_busy (hrun : s.dumpRun ≠ none) : Does (.mgmtDumpStart tag) s [.out] fun t => Responded t 12 tag 4 [] :=
  does_mgmtCmd_respond hs tag hd rfl (by rw [after_look, after_ite, if_pos (Option.isSome_iff_ne_none.mpr hrun)])

section

variable {slot : Fin 4} {off len : Nat} {bs : List Byte} (h0 : 0 < len) (h1 : len ≤ 4096) (h2 : off + len ≤ 0x1000000)
include h0 h1 h2

theorem exec_mgmtDumpRead_waits (hf : allFilled s = false) : exec (.mgmtDumpRead tag slot off len) s = .next s := by
  refine exec_next (a := actMgmtDumpRead tag slot.val off len) hs.1 rfl ?_
  rw [actMgmtDumpRead, after_mgmtCmd hd, after_look, after_ite, if_neg (by omega), after_ite, hf, if_pos (by decide), after_nop]

theorem does_mgmtDumpRead (hf : allFilled s = true) (hb : devRead s (dumpSlot s slot.val + off) len = some bs) :
    Does (.mgmtDumpRead tag slot off len) s [.ctl, .mem, .chk, .mergeBuf, .dumpRun, .freeCtr, .out] fun t => Responded t 12 tag 0 bs := by
  refine does_of_run (a := actMgmtDumpRead tag slot.val off len) hs.1 rfl ((within_actMgmtDumpRead ..).onlyIn s) ?_
  rw [actMgmtDumpRead, after_mgmtCmd hd, after_look, after_ite, if_neg (by omega), after_ite, hf, if_neg (by decide), hb]
  dsimp only
  rw [after_seq_cons, after_seq_cons, after_seq_nil]
  exact responded_after_respond ..

end

theorem does_fruRead {fru : Option (List Byte)} {w : Nat} (h : fru.bind slotLimit = some w) : Does (.fruRead tag fru) s [.ctl, .mgmt, .out] fun t =>
    Responded t 13 tag 0 [] ∧ t.mgmt = { s.mgmt with board := (fru.map boardInfo).getD [] } ∧ bit (rd t (pwrPage 0 + 0x11C)) 16 = true ∧
      fld (rd t (pwrPage 0 + 0x11C)) 15 0 = w % 65536 ∧
      fld (rd t (pwrPage 0 + 0x10C)) 27 16 = min (min (fld (rd s (pwrPage 0 + 0x10C)) 11 0) (w % 65536)) 2400 := by
  refine does_of_run (a := actFruRead tag fru) hs.1 rfl ((within_actFruRead tag fru).onlyIn s) ?_
  rw [actFruRead, after_mgmtCmd hd, after_seq_cons, after_seq_cons, after_seq_nil]
  refine ⟨responded_after_respond .., ?_, ?_, ?_, ?_⟩
  · rw [(within_respond ..).mgmt, mgmt_after_readFru]
  all_goals rw [(within_respond ..).rd, after_readFru_some h, after_wrFld]
  · rw [rd_ctl_other _ (by decide), after_wr, rd_ctl_same, bit_eq_decide_fld, fld_ofNat _ (by decide) (by decide), bits]
    exact decide_eq_true (by omega)
  · rw [rd_ctl_other _ (by decide), after_wr, rd_ctl_same, fld_ofNat _ (by decide) (by decide), bits]
    omega
  · rw [rd_ctl_same, fld_setFld _ (by decide) (by decide)]
    exact Nat.mod_eq_of_lt (by omega)

theorem does_regRead {off : BitVec 28} (ho : off.toNat % 4 = 0) : Does (.regRead tag off) s [.out] fun t =>
    Responded t 14 tag 0 (leBytes 4 (fullRead s off.toNat).toNat) :=
  does_mgmtCmd_respond hs tag hd rfl (by rw [after_look, after_ite, if_neg (by omega)])

end

/-- Settles O55: each command's body is one shared act and the response; before and after the firmware runs, only the response is left. -/
theorem managementCommands : Obligations.ManagementCommands := by
  unfold Obligations.ManagementCommands
  refine ⟨fun s hs tag hd => ⟨fun c => ⟨does_fence hs tag hd, does_fence_absent hs tag hd⟩, fun h => ⟨fun x => does_herdFail hs tag hd,
      does_herdFail_absent hs tag hd⟩, fun w => ⟨does_powerLimit hs tag hd, does_powerLimit_refused hs tag hd⟩,
      fun p => ⟨fun hp ha => does_partitionPod hs tag hd hp ha p, fun h => does_partitionPod_refused hs tag hd h p⟩,
      fun k _ _ _ _ _ => does_partitionHostLimits hs tag hd, fun pod k => ⟨fun hp hh => does_partitionSpare hs tag hd hp hh pod k,
      fun h => does_partitionSpare_refused hs tag hd h pod k⟩, does_partitionAux hs tag hd,
      fun n l hl => ⟨fun e => does_remapLoad hs tag hd hl, does_remapLoad_full hs tag hd hl⟩, fun first ps => does_sysprogLoad hs tag hd,
      fun h => ⟨fun hl a ha => does_linkHalt_stop hs tag hd ha h hl, fun hl x => does_linkHalt_fail hs tag hd hl,
        fun hl a h2 h4 => does_linkHalt_refused hs tag hd ⟨h2, h4⟩ h hl⟩, does_openPermission hs tag hd, does_mgmtDumpStart hs tag hd,
      does_mgmtDumpStart_busy hs tag hd, fun slot off len bs h0 h1 h2 hb => ⟨exec_mgmtDumpRead_waits hs tag hd h0 h1 h2,
        fun hf => does_mgmtDumpRead hs tag hd h0 h1 h2 hf hb⟩, fun fru w => does_fruRead hs tag hd, fun off => does_regRead hs tag hd⟩,
    fun s hs tag c h w slot off n a b h1 h2 p hp => ?_⟩
  simp only [List.mem_cons, List.not_mem_nil, or_false] at hp
  rcases hp with rfl | rfl | rfl | rfl | rfl | rfl | rfl | rfl | rfl | rfl | rfl | rfl | rfl | rfl | rfl
  all_goals exact does_mgmtCmd_refused hs tag h1 h2 rfl

end Sys2Proof.Machine
end

section
/-! Event records (R627 to R633): O60. -/

namespace Sys2Proof.Machine

-- One declaration after the other: elaborated side by side they take more memory than the check has.
set_option Elab.async false

/-! ## What the home table's reading depends on -/

/-- t reads device memory and the home table as s does. -/
structure SameTable (s t : State) : Prop where
  regs : ∀ n < 24, ∀ x, PortReg n x → rd t x = rd s x
  straps : t.straps = s.straps
  mem : t.mem = s.mem
  chk : t.chk = s.chk
  mergeBuf : t.mergeBuf = s.mergeBuf

section

variable {s t : State} (h : SameTable s t)
include h

theorem SameTable.reading (b : Nat) : SameReading s t b := ⟨fun x hx => h.regs _ (blkPort_lt b) x hx, h.straps⟩

theorem SameTable.hold : SameHold s t := SameHold.of_regs h.straps h.regs

theorem SameTable.readByte (b i : Nat) : readByte t b i = readByte s b i := by
  have hmem (a : Nat) : memByte t a = memByte s a := by rw [memByte, memByte, h.mem]
  unfold Machine.readByte
  dsimp only
  rw [(h.reading b).poisoned, (h.reading b).verdict h.chk, (h.reading b).heldAt, mergeOf_of_buf h.mergeBuf, hmem]

theorem SameTable.homeEntry (p : Nat) : homeEntry t p = homeEntry s p := by
  simp only [Machine.homeEntry, tableNat, tableByte, h.readByte, h.hold.homeBase]

theorem SameTable.servedAddr (a : Nat) : servedAddr t a = servedAddr s a := by
  have hrepl : replFrame t (blkPort (a / 64)) = replFrame s (blkPort (a / 64)) := by
    rw [replFrame, replFrame, h.hold.rsvBase]
  unfold Machine.servedAddr
  dsimp only
  rw [hrepl, (h.reading (a / 64)).heldAt]
  split
  case isTrue hb => rw [h.regs _ (blkPort_lt _) _ (portReg_remap _ hb.2)]
  case isFalse => rfl

theorem SameTable.validPages : validPages t = validPages s := by
  simp only [Machine.validPages, listedPages, h.servedAddr, h.mem, h.hold.homeBase, h.homeEntry]

theorem SameTable.logicalAddr (a : Nat) : logicalAddr t a = logicalAddr s a := by rw [Machine.logicalAddr, Machine.logicalAddr, h.servedAddr]

end

/-! ## Where a record goes (R630) -/

theorem after_queueMessage {s : State} (h : s.evQueue.length < 64) (m : EvMsg) : after (queueMessage m) s =
    after (act s.evQueue.isEmpty (one (.out (.pinAlert true)))) (after (wrFld evQstat 6 0 (s.evQueue.length + 1))
      (after (one (.evQueue (s.evQueue ++ [m]))) s)) := by
  rw [queueMessage, after_look]
  dsimp only
  rw [after_ite, if_pos h, after_seq_cons, after_seq_cons, after_seq_cons, after_seq_nil]

theorem evQueue_after_queueMessage {s : State} (h : s.evQueue.length < 64) (m : EvMsg) :
    (after (queueMessage m) s).evQueue = s.evQueue ++ [m] := by
  rw [after_queueMessage h, (within_act (within_one (ps := [.out]) rfl)).evQueue, (within_wrFld ..).evQueue]
  rfl

/-- The port queues a record: beside the queue, only its status word changes. -/
theorem rd_after_toPort (r : EvRecord) (s : State) {x : Nat} (hx : x ≠ evQstat) : rd (after (toPort r) s) x = rd s x :=
  (keepsReg_queueMessage hx _).rd s

theorem sameTable_of_evQstat {s t : State} (h : OnlyIn [.ctl, .notices, .evQueue, .searches, .out] s t) (hr : ∀ x, x ≠ evQstat → rd t x = rd s x) :
    SameTable s t where
  regs n hn x hx := by
    obtain ⟨o, rfl, ho⟩ := hx
    have hq : evQstat = 0x200 := rfl
    exact hr _ (by unfold mpPage; omega)
  straps := h .straps rfl
  mem := h .mem rfl
  chk := h .chk rfl
  mergeBuf := h .mergeBuf rfl

theorem noticesFill_of_evQstat {s t : State} (f : FnNo) (hn : t.notices = s.notices) (hr : ∀ x, x ≠ evQstat → rd t x = rd s x) :
    noticesFill t f.val = noticesFill s f.val := by
  have hp : 0x180000 ≤ fnPageOf f.val := by unfold fnPageOf; omega
  have hq : evQstat = 0x200 := rfl
  rw [noticesFill, noticesFill, hn, hr _ (by omega), hr _ (by omega), hr _ (by omega)]

theorem functionAddr_of_evQstat {s t : State} (h : SameTable s t) (hr : ∀ x, x ≠ evQstat → rd t x = rd s x) (g a : Nat) :
    functionAddr t g a = functionAddr s g a := by
  have hq : evQstat = 0x200 := rfl
  have hadm (k : Nat) : admitted t k g = admitted s k g := by
    have hm : 0x140000 ≤ ssetReg k := by unfold ssetReg migPage; omega
    rw [admitted, admitted, rd64, rd64, hr _ (by omega), hr _ (by omega)]
  unfold functionAddr
  simp only [h.logicalAddr, h.validPages, h.homeEntry, hadm]

theorem forFunction_of_evQstat {s t : State} (h : SameTable s t) (hr : ∀ x, x ≠ evQstat → rd t x = rd s x) (g : Nat) (r : EvRecord) :
    forFunction t g r = forFunction s g r := by
  rw [forFunction, forFunction, functionAddr_of_evQstat h hr]

theorem forFunction_unblocked {r : EvRecord} (h : namesBlock r = false) (s : State) (g : Nat) : forFunction s g r = r := by
  rw [forFunction, if_neg (by rw [h]; exact Bool.false_ne_true)]

/-- A record without a herd goes to the management port. -/
theorem after_route_none {r : EvRecord} (h : r.herd = none) (s : State) : after (route r) s = after (toPort r) s := by
  rw [route, h, after_seq_cons, after_act, if_pos (by simp), after_seq_cons, after_seq_nil]
  rfl

/-- The notice by which a herd's owner has a record. -/
def recordNotice (s : State) (f : FnNo) (h : Nat) (r : EvRecord) : Notice :=
  ⟨f, 2, h, BitVec.ofNat 8 r.cls.toNat, r.bead, recordOf (forFunction s h r)⟩

theorem after_toOwner {s : State} {h : Nat} {f : FnNo} (ho : ownerOf s h = some f) (hn : noticesFill s f.val = false) (r : EvRecord) :
    after (toOwner r h) s = after (one (.notices (s.notices ++ [recordNotice s f h r]))) s := by
  rw [toOwner, after_look, ho]
  dsimp only
  rw [notify, after_look, after_ite, hn, if_neg (by decide)]
  rfl

/-- A record of a herd goes to the management port and to the herd's owner. -/
theorem route_owned {s : State} {r : EvRecord} {h : Nat} {f : FnNo} (hh : r.herd = some h) (hc : r.cls.toNat < 5) (hq : s.evQueue.length < 64)
    (ho : ownerOf s h = some f) (hn : noticesFill s f.val = false) :
    OnlyIn [.ctl, .notices, .evQueue, .out] s (after (route r) s) ∧ (after (route r) s).evQueue.length = s.evQueue.length + 1 ∧
      (after (route r) s).notices = s.notices ++ [recordNotice s f h r] := by
  let u := after (toPort r) s
  have hu : OnlyIn [.ctl, .evQueue, .out] s u := (within_toPort r).onlyIn s
  have hr (x : Nat) (hx : x ≠ evQstat) : rd u x = rd s x := rd_after_toPort r s hx
  have ho' : ownerOf u h = some f := by rw [ownerOf, (within_toPort r).herdOf, ← ownerOf, ho]
  have hnu : u.notices = s.notices := hu .notices rfl
  have hnote : recordNotice u f h r = recordNotice s f h r := by
    rw [recordNotice, recordNotice, forFunction_of_evQstat (sameTable_of_evQstat (hu.wider rfl) hr) hr]
  have e : after (route r) s = after (one (.notices (s.notices ++ [recordNotice s f h r]))) u := by
    rw [route, hh, after_seq_cons, after_act, if_pos (by simp; omega), after_seq_cons, after_seq_nil, after_act, if_pos (by simp; omega),
      after_toOwner ho' ((noticesFill_of_evQstat f hnu hr).trans hn), hnu, hnote]
  have hlast : OnlyIn [.notices] u (after (one (.notices (s.notices ++ [recordNotice s f h r]))) u) := onlyIn_apply (.notices _) u
  rw [e]
  refine ⟨(hu.wider rfl).trans (hlast.wider rfl), ?_, rfl⟩
  have hev : (after (one (.notices (s.notices ++ [recordNotice s f h r]))) u).evQueue = u.evQueue := hlast .evQueue rfl
  rw [hev, show u.evQueue = _ from evQueue_after_queueMessage hq _, List.length_append]
  rfl

/-! ## Servicing a page (R628) -/

theorem page_of_record (s : State) (a c : Nat) : (pageRecord s a c).cls = BitVec.ofNat 3 c := rfl

/-- The classes that a page has latched when its BLK_IST has bit c alone. -/
theorem classes_single {w : Word} {c : Nat} (hc : c < 8) (h : ∀ d < 8, bit w d = decide (d = c)) : (List.range 8).filter (fun d => bit w d) = [c] := by
  rw [List.filter_congr fun d hd => h d (List.mem_range.mp hd)]
  interval_cases c <;> rfl

section

variable {s : State} {p a : Nat} (ha : a = 4096 * p) (hb : blockOf s p ≠ .absent) (hw : (blockOf s p).isWindow = false) (hsv : serviced s a ≠ 0)
include ha hb hw hsv

theorem after_actEventService : after (actEventService p) s = after (wrFld (a + 0x40) 31 30 0)
    (after (look fun u => wr (a + 0x20) (rd u (a + 0x20) &&& ~~~rd s (a + 0x20)))
      (after (each ((List.range 8).filter fun c => bit (rd s (a + 0x20)) c) (serveClass a)) s)) := by
  rw [actEventService, after_look]
  dsimp only
  rw [← ha, decide_eq_true hb, hw, decide_eq_true hsv, after_act, if_pos (by decide), after_seq_cons, after_seq_cons, after_seq_cons, after_seq_nil]

theorem latches_after_eventService : rd (after (actEventService p) s) (a + 0x20) &&& rd s (a + 0x20) = 0 ∧
    fld (rd (after (actEventService p) s) (a + 0x40)) 31 30 = 0 := by
  rw [after_actEventService ha hb hw hsv]
  constructor
  · rw [(keepsReg_wrFld (by omega) ..).rd, after_look, after_wr, rd_ctl_same]
    refine eq_of_bit_eq fun i hi => ?_
    rw [bit_and, bit_and, bit_not]
    cases bit (rd s (a + 0x20)) i <;> simp [bit]
  · rw [after_wrFld, rd_ctl_same, fld_setFld _ (by decide) (by decide)]
    rfl

variable {c : Nat} (hc : c < 8) (hone : ∀ d < 8, bit (rd s (a + 0x20)) d = decide (d = c))
include hc hone

/-- One class is served: what its record does, and the latch and the capture that end. -/
theorem service_single : OnlyIn [.ctl] (after (serveClass a c) s) (after (actEventService p) s) ∧
    ∀ x, x ≠ a + 0x20 → x ≠ a + 0x40 → rd (after (actEventService p) s) x = rd (after (serveClass a c) s) x := by
  rw [after_actEventService ha hb hw hsv, classes_single hc hone, after_each_cons, after_each_nil, after_look]
  exact ⟨((within_wr ..).onlyIn _).trans ((within_wrFld ..).onlyIn _), fun x hist hcap => by
    rw [(keepsReg_wrFld hcap ..).rd, (keepsReg_wr hist _).rd]⟩

end

/-- A class other than CORR: its record is routed where its herd is known or it names no block. -/
theorem after_serveClass_known {s : State} {a c : Nat} (hc : 0 < c) (h : namesBlock (pageRecord s a c) = false) :
    after (serveClass a c) s = after (route (pageRecord s a c)) s := by
  have h0 : decide (c = 0) = false := decide_eq_false (by omega)
  rw [serveClass, after_look]
  dsimp only
  rw [h0, Bool.false_and, after_ite, if_neg Bool.false_ne_true, after_seq_cons, after_act, if_neg Bool.false_ne_true, after_seq_cons, after_seq_nil, h,
    Bool.not_false, Bool.true_or, if_pos rfl]

/-- A capture of a block outside the reserved region waits for its search. -/
theorem after_serveClass_searched {s : State} {a c : Nat} (hc : 0 < c) (h : namesBlock (pageRecord s a c) = true) (hh : (pageRecord s a c).herd = none)
    (hr : logicalAddr s (pageRecord s a c).addr.toNat / 65536 < rsvBase s) : after (serveClass a c) s =
      after (wrBit evQstat 7 true) (after (one (.searches (s.searches ++ [(pageRecord s a c, (pageRecord s a c).addr.toNat)]))) s) := by
  have h0 : decide (c = 0) = false := decide_eq_false (by omega)
  rw [serveClass, after_look]
  dsimp only
  rw [h0, Bool.false_and, after_ite, if_neg Bool.false_ne_true, after_seq_cons, after_act, if_neg Bool.false_ne_true, after_seq_cons, after_seq_nil, h, hh,
    if_neg (by decide), if_neg (by omega), after_seq_cons, after_seq_cons, after_seq_nil]

/-! ## Owner searches (R633) -/

theorem Keeps.bit {x : Nat} {a : Act} (h : KeepsReg x a) (i : Nat) : Keeps (fun s => Machine.bit (rd s x) i) a := ⟨fun s => congrArg (Machine.bit · i) (h.rd s)⟩

/-- What shows that searches are pending. -/
abbrev KeepsSearch (a : Act) : Prop := Keeps (fun s => bit (rd s evQstat) 7) a

theorem keepsSearch_queueMessage (m : EvMsg) : KeepsSearch (queueMessage m) := by
  have hfld (hi lo v : Nat) (h : lo ≤ hi ∧ hi < 32 ∧ (7 < lo ∨ hi < 7)) : KeepsSearch (wrFld evQstat hi lo v) := ⟨fun s => by
    rw [after_wrFld, rd_ctl_same, bit_setFld_other _ h.1 h.2.1 h.2.2]⟩
  have hone (u : Upd) (hu : [Part.evQueue, .out].contains u.part = true) : KeepsSearch (one u) :=
    Keeps.bit ((within_one hu).keepsReg evQstat) 7
  refine keeps_look fun s => keeps_ite (fun _ => ?_) fun _ => keeps_ite (fun _ => hfld _ _ _ (by decide)) fun _ => ?_
  · exact keeps_seq_cons (hone _ rfl) (keeps_seq_cons (hfld _ _ _ (by decide)) (keeps_seq_cons (keeps_act fun _ => hone _ rfl) keeps_seq_nil))
  · exact keeps_seq_cons (hone _ rfl) (keeps_seq_cons (hfld _ _ _ (by decide)) keeps_seq_nil)

theorem keepsReg_toOwner (r : EvRecord) (h : Nat) : KeepsReg evQstat (toOwner r h) := by
  refine keeps_look fun s => ?_
  split
  case h_1 o _ =>
    have hp : 0x180000 ≤ fnPageOf o.val := by unfold fnPageOf; omega
    have hq : evQstat = 0x200 := rfl
    exact keepsReg_notify ⟨by omega, by omega, by omega⟩ ..
  case h_2 => exact keeps_act fun _ => keepsReg_sendFrame (Or.inl (by decide)) _

theorem keepsSearch_route (r : EvRecord) : KeepsSearch (route r) := by
  refine keeps_seq_cons (keeps_act fun _ => keepsSearch_queueMessage _) (keeps_seq_cons ?_ keeps_seq_nil)
  split
  · exact keeps_act fun _ => Keeps.bit (keepsReg_toOwner ..) 7
  · exact keeps_nop

theorem keepsReg_portWrite (b : Nat) (data : List Byte) : KeepsReg evQstat (portWrite b data) := by
  have hq : evQstat = 0x200 := rfl
  have hmp (n : Nat) : 0x100000 ≤ mpPage n := by unfold mpPage; omega
  refine keeps_seq_cons (keeps_look fun s => ?_) (keeps_seq_cons (keeps_look fun s => keeps_seq_cons ((within_putRaw ..).keepsReg _)
    (keeps_seq_cons ?_ (keeps_seq_cons (keepsReg_count ?_ ?_ ?_ 1) keeps_seq_nil))) keeps_seq_nil)
  · split
    case h_1 m _ =>
      have := hmp m.port
      exact keeps_look fun _ => keeps_seq_cons ((within_one (ps := [.mergeBuf]) rfl).keepsReg _) (keeps_seq_cons (keepsReg_wrFld (by omega) ..) keeps_seq_nil)
    case h_2 => exact keeps_nop
  · split
    case h_1 e _ =>
      have : 0x100000 ≤ remapReg (blkPort b) e := by unfold remapReg mpPage; omega
      exact keepsReg_wrBit (by omega) ..
    case h_2 => exact keeps_nop
  all_goals have := hmp (blkPort b)
  all_goals omega

theorem keepsReg_abandonEvent (h : Nat) : KeepsReg evQstat (abandonEvent h) :=
  keeps_seq_cons (keepsReg_count (by decide) (by decide) (by decide) 1) (keeps_seq_cons (keepsReg_raise (by decide) (by decide) nofun)
    (keeps_seq_cons (keepsReg_setIst (by decide) 9) keeps_seq_nil))

theorem keepsReg_snapStatus (h : Nat) : KeepsReg evQstat (snapStatus h) := by
  have hne : evQstat ≠ snapReg h + 4 := by
    have hq : evQstat = 0x200 := rfl
    unfold snapReg snapPage
    omega
  exact keeps_look fun _ => keeps_seq_cons (keepsReg_wrFld hne ..) (keeps_seq_cons (keepsReg_wrBit (by decide) ..)
    (keeps_seq_cons (keepsReg_wrBit (by decide) ..) (keeps_seq_cons (keepsReg_wrBit (by decide) ..) keeps_seq_nil)))

theorem keepsReg_abandonSnapshot (h st : Nat) (report : Bool) : KeepsReg evQstat (abandonSnapshot h st report) := by
  have hreg : 0x1C0000 ≤ snapReg h := by unfold snapReg snapPage; omega
  have hq : evQstat = 0x200 := rfl
  have hsend (f : Frame) : KeepsReg evQstat (sendFrame f) := keepsReg_sendFrame (Or.inl (by decide)) f
  exact keeps_look fun _ => keeps_seq_cons ((within_dropSnapshot h).keepsReg _) (keeps_seq_cons (keepsReg_abandonEvent h)
    (keeps_seq_cons (keepsReg_wr64 (by omega) (by omega) _) (keeps_seq_cons (keeps_act fun _ => keeps_ite
      (fun _ => keeps_look fun _ => keeps_each fun _ _ => hsend _) fun _ => hsend _) (keeps_seq_cons (keepsReg_snapStatus h) keeps_seq_nil))))

theorem keepsReg_abandonMirror (h : Nat) : KeepsReg evQstat (abandonMirror h) :=
  keeps_seq_cons ((within_dropMirror h).keepsReg _) (keeps_seq_cons (keepsReg_abandonEvent h) (keeps_seq_cons (keepsReg_snapStatus h) keeps_seq_nil))

theorem keepsSearch_ownerFound (r : EvRecord) (a : Nat) : KeepsSearch (ownerFound r a) := by
  refine keeps_look fun s => keeps_ite (fun _ => keeps_seq_cons (keepsSearch_queueMessage _) (keeps_seq_cons ?_ keeps_seq_nil)) fun _ => ?_
  · split
    case h_1 h mirror _ =>
      refine keeps_seq_cons (keeps_act fun _ => keeps_act fun _ => Keeps.bit (keepsReg_toOwner ..) 7) (keeps_seq_cons (keeps_ite
        (fun _ => Keeps.bit (keepsReg_abandonMirror h) 7) fun _ => ?_) keeps_seq_nil)
      split
      · exact Keeps.bit (keepsReg_abandonSnapshot ..) 7
      · exact keeps_nop
    case h_2 => exact keeps_nop
  · split
    · exact keeps_each fun _ _ => keepsSearch_route _
    · exact keeps_seq_cons (Keeps.bit (keepsReg_portWrite ..) 7) (keeps_seq_cons (keepsSearch_queueMessage _) keeps_seq_nil)

/-- A search has left the list of those pending. -/
def searchTaken (xs : List (EvRecord × Nat)) (s : State) : State := after (wrBit evQstat 7 (!xs.isEmpty)) (after (one (.searches xs)) s)

theorem after_actOwnerSearchDone {s : State} {r : EvRecord} {a : Nat} {xs : List (EvRecord × Nat)} (h : s.searches = (r, a) :: xs) :
    after actOwnerSearchDone s = after (ownerFound r a) (searchTaken xs s) := by
  rw [actOwnerSearchDone, after_look, h]
  dsimp only
  rw [after_seq_cons, after_seq_cons, after_seq_cons, after_seq_nil, searchTaken]

theorem onlyIn_searchTaken (xs : List (EvRecord × Nat)) (s : State) : OnlyIn [.ctl, .searches] s (searchTaken xs s) :=
  ((onlyIn_apply (.searches xs) s).wider rfl).trans (((within_wrBit ..).wider rfl).onlyIn _)

theorem rd_searchTaken (xs : List (EvRecord × Nat)) (s : State) {x : Nat} (hx : x ≠ evQstat) : rd (searchTaken xs s) x = rd s x :=
  (keepsReg_wrBit hx ..).rd _

theorem sameTable_searchTaken (xs : List (EvRecord × Nat)) (s : State) : SameTable s (searchTaken xs s) :=
  sameTable_of_evQstat ((onlyIn_searchTaken xs s).wider rfl) fun _ => rd_searchTaken xs s

section

variable {s : State} {r : EvRecord} {a : Nat} (hr : logicalAddr s a / 65536 < rsvBase s) (xs : List (EvRecord × Nat))
include hr

theorem after_ownerFound_page {p : Nat} (hp : (validPages s).find? (fun p => !eFar (homeEntry s p) && decide (eHome (homeEntry s p) =
      logicalAddr s a / 65536)) = some p) (hs : eShared (homeEntry s p) = false) : after (ownerFound r a) (searchTaken xs s) =
      after (route { r with herd := some (eHerd (homeEntry s p)) }) (searchTaken xs s) := by
  have h := sameTable_searchTaken xs s
  rw [ownerFound, after_look]
  dsimp only
  simp only [h.logicalAddr, h.hold.rsvBase, h.validPages, h.homeEntry]
  rw [after_ite, if_neg (by omega), hp]
  dsimp only
  rw [hs, if_neg Bool.false_ne_true, after_each_cons, after_each_nil]

theorem after_ownerFound_none (hp : ∀ p ∈ validPages s, eFar (homeEntry s p) = true ∨ eHome (homeEntry s p) ≠ logicalAddr s a / 65536)
    (hm : mergeOf s (logicalAddr s a / 64) = none) : after (ownerFound r a) (searchTaken xs s) =
      after (toPort r) (after (storeBlk (logicalAddr s a / 64) (List.replicate 64 0)) (searchTaken xs s)) := by
  have h := sameTable_searchTaken xs s
  have hnone : (validPages s).find? (fun p => !eFar (homeEntry s p) && decide (eHome (homeEntry s p) = logicalAddr s a / 65536)) = none := by
    refine List.find?_eq_none.mpr fun p hin => ?_
    rcases hp p hin with hf | hf
    · simp [hf]
    · simp [hf]
  have hdrop : after (dropFor (logicalAddr s a / 64)) (searchTaken xs s) = searchTaken xs s := by
    rw [dropFor, after_look, mergeOf_of_buf h.mergeBuf, hm]
    rfl
  rw [ownerFound, after_look]
  dsimp only
  simp only [h.logicalAddr, h.hold.rsvBase, h.validPages, h.homeEntry]
  rw [after_ite, if_neg (by omega), hnone]
  dsimp only
  rw [after_seq_cons, after_seq_cons, after_seq_nil, portWrite, after_seq_cons, after_seq_cons, after_seq_nil, hdrop]

end

section

variable {s : State} (hs : Ready s)
include hs

theorem does_eventService (p : PageNo) {a : Nat} (ha : a = 4096 * p.val) (hb : blockOf s p.val ≠ .absent) (hw : (blockOf s p.val).isWindow = false)
    (hsv : serviced s a ≠ 0) :
    Does (.eventService p) s [.ctl, .mem, .chk, .mergeBuf, .bx, .notices, .snap, .dumpRun, .evQueue, .lastCorr, .coalesced, .searches, .freeCtr, .out] fun t =>
      rd t (a + 0x20) &&& rd s (a + 0x20) = 0 ∧ fld (rd t (a + 0x40)) 31 30 = 0 :=
  does_of_run hs.1 rfl ((within_actEventService p.val).onlyIn s) (latches_after_eventService ha hb hw hsv)

section

variable {p : PageNo} {a : Nat} (ha : a = 4096 * p.val) (hb : blockOf s p.val ≠ .absent) (hw : (blockOf s p.val).isWindow = false)
  (hsv : serviced s a ≠ 0) {c : Nat} {r : EvRecord} (hc : 0 < c) (h5 : c < 5) (hone : ∀ d < 8, bit (rd s (a + 0x20)) d = decide (d = c))
  (hr : r = pageRecord s a c)
include ha hb hw hsv hc h5 hone hr

theorem does_eventService_search (hn : namesBlock r = true) (hh : r.herd = none) (hlow : logicalAddr s r.addr.toNat / 65536 < rsvBase s) :
    Does (.eventService p) s [.ctl, .searches] fun t => t.searches = s.searches ++ [(r, r.addr.toNat)] ∧ bit (rd t evQstat) 7 = true := by
  subst hr
  have e := after_serveClass_searched hc hn hh hlow
  obtain ⟨honly, hregs⟩ := service_single ha hb hw hsv (by omega) hone
  have hq : evQstat = 0x200 := rfl
  have hfirst : OnlyIn [.ctl, .searches] s (after (serveClass a c) s) := by
    rw [e]
    exact ((onlyIn_apply (.searches _) s).wider rfl).trans (((within_wrBit ..).wider rfl).onlyIn _)
  refine does_of_run (a := actEventService p.val) hs.1 rfl (hfirst.trans (honly.wider rfl)) ⟨?_, ?_⟩
  · have : (after (actEventService p.val) s).searches = (after (serveClass a c) s).searches := honly .searches rfl
    rw [this, e]
    rfl
  · rw [hregs _ (by omega) (by omega), e, after_wrBit, rd_ctl_same, bit_setBit_same _ (by decide)]

theorem does_eventService_port (hq : s.evQueue.length < 64) (hn : namesBlock r = false) (hh : r.herd = none) :
    Does (.eventService p) s [.ctl, .evQueue, .out] fun t => t.evQueue = s.evQueue ++
      [⟨0xF0, some r.cls, recordOf r ++ leBytes 8 r.bead.toNat ++ leBytes 3 r.cyc.toNat ++ [0]⟩] := by
  subst hr
  have e : after (serveClass a c) s = after (toPort (pageRecord s a c)) s := by rw [after_serveClass_known hc hn, after_route_none hh]
  obtain ⟨honly, -⟩ := service_single ha hb hw hsv (by omega) hone
  have hfirst : OnlyIn [.ctl, .evQueue, .out] s (after (serveClass a c) s) := e ▸ (within_toPort _).onlyIn s
  refine does_of_run (a := actEventService p.val) hs.1 rfl (hfirst.trans (honly.wider rfl)) ?_
  have : (after (actEventService p.val) s).evQueue = (after (serveClass a c) s).evQueue := honly .evQueue rfl
  rw [this, e]
  exact evQueue_after_queueMessage hq _

theorem does_eventService_owner (hq : s.evQueue.length < 64) (hn : namesBlock r = false) {h : Nat} {f : FnNo} (hh : r.herd = some h)
    (ho : ownerOf s h = some f) (hfill : noticesFill s f.val = false) :
    Does (.eventService p) s [.ctl, .notices, .evQueue, .out] fun t => t.evQueue.length = s.evQueue.length + 1 ∧
      t.notices = s.notices ++ [⟨f, 2, h, BitVec.ofNat 8 c, r.bead, recordOf r⟩] := by
  subst hr
  have e := after_serveClass_known hc hn
  have hcls : (pageRecord s a c).cls.toNat = c := by
    rw [page_of_record, BitVec.toNat_ofNat]
    exact Nat.mod_eq_of_lt (by omega)
  obtain ⟨honly, -⟩ := service_single ha hb hw hsv (by omega) hone
  obtain ⟨hroute, hlen, hnote⟩ := route_owned hh (by omega) hq ho hfill
  rw [recordNotice, forFunction_unblocked hn, hcls] at hnote
  rw [← e] at hroute hlen hnote
  have hev : (after (actEventService p.val) s).evQueue = (after (serveClass a c) s).evQueue := honly .evQueue rfl
  have hno : (after (actEventService p.val) s).notices = (after (serveClass a c) s).notices := honly .notices rfl
  exact does_of_run (a := actEventService p.val) hs.1 rfl (hroute.trans (honly.wider rfl)) ⟨hev ▸ hlen, hno ▸ hnote⟩

end

section

variable {r : EvRecord} {a b : Nat} {xs : List (EvRecord × Nat)} (hx : s.searches = (r, a) :: xs)
include hx

theorem does_ownerSearchDone :
    Does .ownerSearchDone s [.ctl, .mem, .chk, .mergeBuf, .bx, .notices, .snap, .dumpRun, .evQueue, .searches, .freeCtr, .out] fun t =>
      t.searches = xs ∧ bit (rd t evQstat) 7 = !xs.isEmpty := by
  refine does_of_run (a := actOwnerSearchDone) hs.1 rfl (within_actOwnerSearchDone.onlyIn s) ?_
  rw [after_actOwnerSearchDone hx, (within_ownerFound r a).searches]
  refine ⟨rfl, ((keepsSearch_ownerFound r a).eq _).trans ?_⟩
  rw [searchTaken, after_wrBit, rd_ctl_same, bit_setBit_same _ (by decide)]

variable (hb : b = logicalAddr s a) (hlow : b / 65536 < rsvBase s) (hq : s.evQueue.length < 64)
include hb hlow hq

theorem does_ownerSearchDone_page (h5 : r.cls.toNat < 5) {p : Nat} {f : FnNo}
    (hp : (validPages s).find? (fun p => !eFar (homeEntry s p) && decide (eHome (homeEntry s p) = b / 65536)) = some p)
    (hsh : eShared (homeEntry s p) = false) (ho : ownerOf s (eHerd (homeEntry s p)) = some f) (hfill : noticesFill s f.val = false) :
    Does .ownerSearchDone s [.ctl, .notices, .evQueue, .searches, .out] fun t => t.evQueue.length = s.evQueue.length + 1 ∧
      t.notices = s.notices ++ [⟨f, 2, eHerd (homeEntry s p), BitVec.ofNat 8 r.cls.toNat, r.bead,
        recordOf (forFunction s (eHerd (homeEntry s p)) { r with herd := some (eHerd (homeEntry s p)) })⟩] := by
  subst hb
  have hdone := onlyIn_searchTaken xs s
  have hreg (x : Nat) (hx : x ≠ evQstat) := rd_searchTaken xs s hx
  have hev : (searchTaken xs s).evQueue = s.evQueue := hdone .evQueue rfl
  have hno : (searchTaken xs s).notices = s.notices := hdone .notices rfl
  have hherd : (searchTaken xs s).herd = s.herd := hdone .herd rfl
  have ho' : ownerOf (searchTaken xs s) (eHerd (homeEntry s p)) = some f := by rw [ownerOf, herdOf, hherd, ← herdOf, ← ownerOf, ho]
  obtain ⟨honly, hlen, hnote⟩ := route_owned (s := searchTaken xs s) (r := { r with herd := some (eHerd (homeEntry s p)) }) rfl h5 (hev ▸ hq) ho'
    ((noticesFill_of_evQstat f hno hreg).trans hfill)
  rw [recordNotice, forFunction_of_evQstat (sameTable_searchTaken xs s) hreg, hno] at hnote
  have e : after actOwnerSearchDone s = after (route { r with herd := some (eHerd (homeEntry s p)) }) (searchTaken xs s) := by
    rw [after_actOwnerSearchDone hx, after_ownerFound_page hlow xs hp hsh]
  refine does_of_run (a := actOwnerSearchDone) hs.1 rfl ?_ ?_ <;> rw [e]
  · exact (hdone.wider rfl).trans (honly.wider rfl)
  · exact ⟨hev ▸ hlen, hnote⟩

theorem does_ownerSearchDone_none (hp : ∀ p ∈ validPages s, eFar (homeEntry s p) = true ∨ eHome (homeEntry s p) ≠ b / 65536)
    (hm : mergeOf s (b / 64) = none) : Does .ownerSearchDone s [.ctl, .mem, .chk, .evQueue, .searches, .out] fun t =>
      t.evQueue.length = s.evQueue.length + 1 ∧ readBlk t (b / 64) = some (List.replicate 64 0) := by
  subst hb
  have hdone := onlyIn_searchTaken xs s
  let u := after (storeBlk (logicalAddr s a / 64) (List.replicate 64 0)) (searchTaken xs s)
  have hu : OnlyIn [.ctl, .mem, .chk] (searchTaken xs s) u := (within_storeBlk ..).onlyIn _
  have hport : OnlyIn [.ctl, .evQueue, .out] u (after (toPort r) u) := (within_toPort r).onlyIn u
  have hev : u.evQueue = s.evQueue := Eq.trans (hu .evQueue rfl) (hdone .evQueue rfl)
  have e : after actOwnerSearchDone s = after (toPort r) u := by
    rw [after_actOwnerSearchDone hx, after_ownerFound_none hlow xs hp hm]
  have hmerge : mergeOf (searchTaken xs s) (logicalAddr s a / 64) = none := (mergeOf_of_buf (hdone .mergeBuf rfl) _).trans hm
  obtain ⟨-, hread⟩ := readBlk_after_storeBlk hmerge (data := List.replicate 64 0) (by decide)
  have hsame := sameTable_of_evQstat (hport.wider rfl) fun x hx => rd_after_toPort r u hx
  refine does_of_run (a := actOwnerSearchDone) hs.1 rfl ?_ ?_ <;> rw [e]
  · exact (hdone.wider rfl).trans ((hu.wider rfl).trans (hport.wider rfl))
  · refine ⟨?_, ((hsame.reading _).readBlk hsame.chk hsame.mem hsame.mergeBuf).trans hread⟩
    rw [show (after (toPort r) u).evQueue = _ from evQueue_after_queueMessage (by rw [hev]; exact hq) _, hev, List.length_append]
    rfl

end

end

/-- Settles O60: beside its status word, the event queue is apart from all that a record is formed from. -/
theorem eventRecords : Obligations.EventRecords := by
  unfold Obligations.EventRecords
  intro s hs
  refine ⟨fun p a ha hb hw hsv => ⟨does_eventService hs p ha hb hw hsv, fun c r hc h5 hone hr => ⟨does_eventService_search hs ha hb hw hsv hc h5 hone hr,
    fun hq hn => ⟨does_eventService_port hs ha hb hw hsv hc h5 hone hr hq hn, fun h f => does_eventService_owner hs ha hb hw hsv hc h5 hone hr hq hn⟩⟩⟩,
    fun r a b xs hx hb => ⟨does_ownerSearchDone hs hx, fun hlow hq h5 => ⟨fun p f => does_ownerSearchDone_page hs hx hb hlow hq h5,
      does_ownerSearchDone_none hs hx hb hlow hq⟩⟩⟩

end Sys2Proof.Machine
end

section
/-! Commands of functions: fetched from their rings, answered on this device (R508 to R511, R515, R516). -/

namespace Sys2Proof.Machine

-- One declaration after the other: elaborated side by side they take more memory than the check has.
set_option Elab.async false

/-! ## What has left the module stays (R503) -/

theorem out_prefix_apply (u : Upd) (s : State) : s.out <+: (u.apply s).out := by
  cases u
  case out o => exact ⟨[o], rfl⟩
  all_goals exact List.prefix_rfl

theorem out_prefix (a : Act) (s : State) : s.out <+: (after a s).out :=
  after_keeps (P := fun t => s.out <+: t.out) (fun u t h => h.trans (out_prefix_apply u t)) a s List.prefix_rfl

/-! ## A command is fetched (R508, R510) -/

/-- The word of a command ring that holds its pointers. -/
abbrev ptrReg (c : CmdId) : Nat := crBase c.fn.val c.ring.val + 0x14

/-- The state in which a fetched command runs. -/
def fetched (c : CmdId) (s : State) : State :=
  after (one (.busyRing (16 * c.fn.val + c.ring.val) (some 1))) (after (one (.fnTurn c.fn.val))
    (after (wrFld (ptrReg c) 15 0 (crHead s c.fn.val c.ring.val + 1))
      (after (one (.out (.hostRead c.fn (sqAddr s c.fn.val c.ring.val) 64))) s)))

theorem onlyIn_fetched (c : CmdId) (s : State) : OnlyIn [.ctl, .busyRing, .fnTurn, .out] s (fetched c s) :=
  ((onlyIn_apply (.out _) s).wider rfl).trans ((((within_wrFld ..).wider rfl).onlyIn _).trans
    (((onlyIn_apply (.fnTurn _) _).wider rfl).trans ((onlyIn_apply (.busyRing _ _) _).wider rfl)))

theorem rd_fetched (c : CmdId) (s : State) {x : Nat} (hx : x ≠ ptrReg c) : rd (fetched c s) x = rd s x := (keepsReg_wrFld hx ..).rd _

theorem ptr_fetched (c : CmdId) (s : State) : rd (fetched c s) (ptrReg c) =
    setFld (rd s (ptrReg c)) 15 0 (crHead s c.fn.val c.ring.val + 1) := by
  change rd (after (wrFld (ptrReg c) 15 0 (crHead s c.fn.val c.ring.val + 1)) (after (one (.out (.hostRead c.fn (sqAddr s c.fn.val c.ring.val) 64))) s))
    (ptrReg c) = _
  rw [after_wrFld, rd_ctl_same]
  rfl

/-- A command whose later acts leave its ring's pointers, its ring's state and the turn alone has been fetched. -/
theorem fetched_of {c : CmdId} {s : State} {t : State} (hp : rd t (ptrReg c) = rd (fetched c s) (ptrReg c)) (hb : t.busyRing = (fetched c s).busyRing)
    (ht : t.fnTurn = c.fn.val) (ho : (fetched c s).out <+: t.out) : Fetched s t c := by
  refine ⟨?_, ?_, ht, ho⟩
  · rw [crHead, hp, ptr_fetched]
    exact fld_setFld (hi := 15) (lo := 0) _ (by decide) (by decide) _
  · rw [hb]
    exact mGet_mPut_same ..

/-- Fetched, of acts. -/
theorem Fetched.of_act {c : CmdId} {s : State} {ps : List Part} {a : Act} (hw : OnlyIn ps (fetched c s) (after a (fetched c s)))
    (hk : rd (after a (fetched c s)) (ptrReg c) = rd (fetched c s) (ptrReg c))
    (hb : ps.contains .busyRing = false := by rfl) (ht : ps.contains .fnTurn = false := by rfl) : Fetched s (after a (fetched c s)) c :=
  fetched_of hk (hw .busyRing hb) (hw .fnTurn ht) (out_prefix ..)

theorem after_hostCmd {c : CmdId} {s : State} (hr : ringReady s c = true) (body : Act) :
    after (hostCmd c body) s = after (if c.reserved then complete c 2 0 else body) (fetched c s) := by
  rw [hostCmd, after_look]
  dsimp only
  rw [after_ite, if_pos hr, after_seq_cons, after_seq_cons, after_seq_cons, after_seq_cons, after_seq_cons, after_seq_nil]
  rfl

theorem after_hostCmd_waits {c : CmdId} {s : State} (hr : ringReady s c = false) (body : Act) : after (hostCmd c body) s = s := by
  rw [hostCmd, after_look]
  dsimp only
  rw [after_ite, if_neg (by rw [hr]; exact Bool.false_ne_true), after_nop]

/-! ## A command ends (R511) -/

/-- The completion of a command. -/
abbrev completion (c : CmdId) (status : Nat) (result : DWord) : Completion := ⟨c.fn, c.ring, c.tag, BitVec.ofNat 8 status, result⟩

theorem after_complete (c : CmdId) (status : Nat) (result : DWord) (s : State) : after (complete c status result) s =
    after (one (.completions (s.completions ++ [completion c status result]))) s := rfl

theorem completions_after_complete (c : CmdId) (status : Nat) (result : DWord) (s : State) :
    (after (complete c status result) s).completions = s.completions ++ [completion c status result] := rfl

theorem onlyIn_complete (c : CmdId) (status : Nat) (result : DWord) (s : State) : OnlyIn [.completions] s (after (complete c status result) s) :=
  onlyIn_apply (.completions _) s

/-- A command that is fetched, does its work and completes is answered. -/
theorem answered_of {c : CmdId} {s u : State} (hf : Fetched s u c) (hc : u.completions = s.completions) (status : Nat) (result : DWord) :
    Answered s (after (complete c status result) u) c status result := by
  obtain ⟨hhead, hbusy, hturn, hout⟩ := hf
  exact ⟨⟨hhead, hbusy, hturn, hout⟩, by rw [completions_after_complete, hc]⟩

theorem completions_fetched (c : CmdId) (s : State) : (fetched c s).completions = s.completions := onlyIn_fetched c s .completions rfl

theorem isFetched (c : CmdId) (s : State) : Fetched s (fetched c s) c := fetched_of rfl rfl rfl List.prefix_rfl

/-- A command that ends at once. -/
theorem does_complete {c : CmdId} {s : State} {status : Nat} {result : DWord} :
    OnlyIn [.ctl, .busyRing, .completions, .fnTurn, .out] s (after (complete c status result) (fetched c s)) ∧
      Answered s (after (complete c status result) (fetched c s)) c status result :=
  ⟨((onlyIn_fetched c s).wider rfl).trans ((onlyIn_complete c status result _).wider rfl), answered_of (isFetched c s) (completions_fetched c s) _ _⟩

/-! ## A command of a herd's function (R476, R515, R516) -/

theorem herdOf_fetched (c : CmdId) (s : State) (g : Nat) : herdOf (fetched c s) g = herdOf s g := by
  have hh : (fetched c s).herd = s.herd := onlyIn_fetched c s .herd rfl
  rw [herdOf, herdOf, hh]

theorem ptrReg_pos (c : CmdId) : 0x180214 ≤ ptrReg c ∧ ptrReg c % 32 = 0x14 ∧ 0x214 ≤ ptrReg c % 4096 ∧ ptrReg c % 4096 < 0x400 := by
  have hk := c.ring.isLt
  unfold ptrReg crBase fnPageOf
  omega

section

variable {s : State} {c : CmdId} {h : Nat} {x : Herd} (hr : CommandRuns s c h x)
include hr

/-- What a command of a herd's function meets first lets it through. -/
theorem after_ownHerd (failedToo : Bool) (body : Nat → Herd → Act) : after (ownHerd c failedToo body) (fetched c s) = after (body h x) (fetched c s) := by
  obtain ⟨-, -, -, hfn, hof, hfail, hrel, -, -⟩ := hr
  have hptr := ptrReg_pos c
  have hrel' : fnReleasing (fetched c s) c.fn = false := by
    rw [fnReleasing, rd_fetched c s (by unfold fnPageOf; omega), ← fnReleasing, hrel]
  have hherd : (fetched c s).herd = s.herd := onlyIn_fetched c s .herd rfl
  have hfn' : herdOfFn (fetched c s) c.fn = some h := by rw [herdOfFn, hherd, ← herdOfFn, hfn]
  rw [ownHerd, after_look, after_ite, if_neg (by rw [hrel']; exact Bool.false_ne_true), hfn']
  dsimp only
  rw [herdOf, hherd, ← herdOf, hof]
  dsimp only
  rw [hfail, Bool.false_and, after_ite, if_neg Bool.false_ne_true]

theorem herdMembers_fetched : herdMembers (fetched c s) h = [] := by
  obtain ⟨-, -, -, -, -, -, -, -, hm⟩ := hr
  have hptr := ptrReg_pos c
  have hcfg : podCfg (fetched c s) = podCfg s := rd_fetched c s (by unfold bxPage; omega)
  have hherd (g : Nat) : herdOf (fetched c s) g = herdOf s g := by rw [herdOf, herdOf, onlyIn_fetched c s .herd rfl]
  have hpres (p : Nat) : isPresent (fetched c s) p = isPresent s p := by
    rw [isPresent, isPresent, rd64, rd64, rd_fetched c s (by unfold bxPage; omega), rd_fetched c s (by unfold bxPage; omega)]
  have hothers : podOthers (fetched c s) h = podOthers s h := by
    unfold podOthers
    rw [hherd]
    cases herdOf s h with
    | none => rfl
    | some y => exact List.filter_congr fun p _ => by rw [ownPos, ownPos, hcfg, hpres]
  have hlead : isLead (fetched c s) = isLead s := by rw [isLead, isLead, podEn, podEn, ownPos, ownPos, leadPos, leadPos, hcfg]
  rw [herdMembers, hherd, hlead, hothers, ← herdMembers, hm]

/-- A command of this device's own herd runs here alone. -/
theorem after_herdCmd (op : Nat) (params : List Byte) (failedToo : Bool) (body : Asker → Nat → Act) :
    after (herdCmd c op params failedToo body) s = after (body (.host c) h) (fetched c s) := by
  obtain ⟨-, hres, hready, hfn, -, -, -, hbusy, -⟩ := id hr
  rw [herdCmd, after_look, hfn, Option.any_some, hbusy, Bool.and_false, after_ite, if_neg Bool.false_ne_true, after_hostCmd hready, hres,
    if_neg Bool.false_ne_true, after_ownHerd hr, after_look, spread, after_look, after_ite, herdMembers_fetched hr, if_pos List.isEmpty_nil]

/-- A command that is refused at once. -/
theorem does_refused {cmd : Instr} (hs : Ready s) {op : Nat} {params : List Byte} {failedToo : Bool} {body : Asker → Nat → Act} {status : Nat}
    {result : DWord} (hc : exec cmd s = run (herdCmd c op params failedToo body) s)
    (hb : after (body (.host c) h) (fetched c s) = after (complete c status result) (fetched c s)) :
    Does cmd s [.ctl, .busyRing, .completions, .fnTurn, .out] fun t => Answered s t c status result := by
  refine does_of_run hs.1 hc ?_ ?_ <;> rw [after_herdCmd hr, hb]
  · exact does_complete.1
  · exact does_complete.2

end

end Sys2Proof.Machine
end

section
/-! Rings of the functions: doorbells, enables, completions and notices (R14, R503, R508 to R513, R526): O45. -/

namespace Sys2Proof.Machine

-- One declaration after the other: elaborated side by side they take more memory than the check has.
set_option Elab.async false

/-! ## An event that starts no dump -/

theorem onlyIn_raise_mild (s : State) (p : Nat) {c : Capture} (hc : c.cls ≠ .uncorrFatal) : OnlyIn [.ctl, .freeCtr] s (after (raise p c) s) := by
  have hdump (u : State) : after (autoDump c.cls) u = u := by
    rw [autoDump, after_look, after_ite, if_neg (by simp [hc]), after_nop]
  have hw (u : State) : Within [.ctl, .freeCtr] (act (c.code.isNone || c.addr.isNone || c.detail.isNone) (takeFree 4)) :=
    within_act ((within_takeFree 4).wider rfl)
  have hwr (x : Nat) (v : Word) : Within [.ctl, .freeCtr] (wr x v) := (within_wr x v).wider rfl
  rw [raise, after_look]
  dsimp only
  rw [after_seq_cons, after_seq_cons, after_seq_cons, after_seq_nil, hdump]
  refine (((within_setIst ..).wider rfl).onlyIn s).trans (Within.onlyIn (within_ite ((within_wrBit ..).wider rfl) ?_) _)
  exact within_seq_cons (hwr ..) <| within_seq_cons (hwr ..) <| within_seq_cons (hwr ..) <| within_seq_cons (hwr ..) <| within_seq_cons (hwr ..) <|
    within_seq_cons (hwr ..) <| within_seq_cons (hwr ..) <| within_seq_cons (hwr ..) <| within_seq_cons (hw s) within_seq_nil

/-! ## Doorbells (R14, R509) -/

theorem doorbellOf_dword {off k : Nat} (ho : off = 64 * k) (hk : off < 65536) : doorbellOf off 4 = some k := by
  rw [doorbellOf, if_pos ⟨rfl, by omega, by omega⟩]
  exact congrArg some (by omega)

section

variable {s : State} {f : FnNo} {k : Nat} {off : BitVec 16} {t : Word} {data : List (Option Byte)} (ho : off.toNat = 64 * k)
  (hdata : data = (leBytes 4 t.toNat).map some)
include ho hdata

theorem after_actDoorbell : after (actDoorbell f off.toNat data) s = after (ring f k t) s := by
  have hlen : data.length = 4 := by rw [hdata, List.length_map, length_leBytes]
  have hall : data.all Option.isSome = true := by rw [hdata]; simp
  have hword : leWord (data.map (·.getD 0)) = t := by
    rw [hdata, List.map_map]
    exact (congrArg leWord (List.map_id _)).trans (leWord_leBytes t)
  rw [actDoorbell, hlen, doorbellOf_dword ho off.isLt]
  dsimp only
  rw [after_act, hall, if_pos rfl, hword]

variable (hs : Ready s) (hf : fnExists s f.val = true)
include hs hf

theorem does_doorbell (hk : k < 16) (hen : bit (rd s (crBase f.val k + 8)) 31 = true) (hfit : diff16 (fld t 15 0) (crHead s f.val k) ≤ crSize s f.val k) :
    Does (.doorbell f off data) s [.ctl] fun u => crTail u f.val k = fld t 15 0 ∧ crHead u f.val k = crHead s f.val k ∧
      RegsAt [crBase f.val k + 0x14] s u := by
  have e : after (actDoorbell f off.toNat data) s = after (wrFld (crBase f.val k + 0x14) 31 16 (fld t 15 0)) s := by
    rw [after_actDoorbell ho hdata, ring, after_look, hf, hen, decide_eq_false (by omega), after_ite, if_neg (by decide), after_ite, if_neg (by omega)]
  refine does_of_run (a := actDoorbell f off.toNat data) hs.1 rfl ?_ ?_ <;> rw [e]
  · exact (within_wrFld ..).onlyIn s
  · refine ⟨?_, ?_, fun x hx => (keepsReg_wrFld (fun h => hx (List.mem_singleton.mpr h)) ..).rd s⟩
    · rw [crTail, after_wrFld, rd_ctl_same, fld_setFld _ (by decide) (by decide)]
      exact Nat.mod_eq_of_lt (fld_lt t 15 0)
    · rw [crHead, after_wrFld, rd_ctl_same, fld_setFld_other _ (by decide) (by decide) (by decide), ← crHead]

theorem does_doorbell_overrun (hk : k < 16) (hen : bit (rd s (crBase f.val k + 8)) 31 = true)
    (hover : crSize s f.val k < diff16 (fld t 15 0) (crHead s f.val k)) : Does (.doorbell f off data) s [.ctl, .freeCtr] fun u =>
      crTail u f.val k = crTail s f.val k ∧ bit (rd u (fnPageOf f.val + 0x20)) 3 = true := by
  have e : after (actDoorbell f off.toNat data) s = after (protocolAt (fnPageOf f.val) (.fn f)) s := by
    rw [after_actDoorbell ho hdata, ring, after_look, hf, hen, decide_eq_false (by omega), after_ite, if_neg (by decide), after_ite, if_pos hover]
  have hp : 0x180000 ≤ fnPageOf f.val := by unfold fnPageOf; omega
  refine does_of_run (a := actDoorbell f off.toNat data) hs.1 rfl ?_ ?_ <;> rw [e, protocolAt]
  · exact onlyIn_raise_mild s _ fun h => by cases h
  · have hne : crBase f.val k + 0x14 ≠ fnPageOf f.val + 0x20 ∧ fnPageOf f.val + 0x60 ≤ crBase f.val k + 0x14 := by unfold crBase; omega
    refine ⟨?_, bit_after_raise (c := { cls := .protocol, req := _ }) _ fun h => by cases h⟩
    rw [crTail, KeepsReg.rd (keepsReg_raise hne.1 (Or.inr hne.2) fun h => by cases h), ← crTail]

omit hf in
theorem exec_doorbell_ignored (h : 16 ≤ k ∨ bit (rd s (crBase f.val k + 8)) 31 = false) : exec (.doorbell f off data) s = .next s := by
  refine exec_next (a := actDoorbell f off.toNat data) hs.1 rfl ?_
  rw [after_actDoorbell ho hdata, ring, after_look, after_ite, if_pos, after_nop]
  rcases h with h | h <;> simp [h]

end

theorem exec_doorbell_elsewhere {s : State} (hs : Ready s) (f : FnNo) {off : BitVec 16} {data : List (Option Byte)}
    (h : off.toNat % 64 ≠ 0 ∨ data.length ≠ 4) : exec (.doorbell f off data) s = .next s := by
  have hnone : doorbellOf off.toNat data.length = none := by rw [doorbellOf, if_neg (by omega)]
  refine exec_next (a := actDoorbell f off.toNat data) hs.1 rfl ?_
  rw [actDoorbell, hnone]
  rfl

/-! ## Enables (R513) -/

theorem regDef_crCtl (f k : Nat) (hk : k < 16) : regDef (.fnPage f) (0x208 + 32 * k) = some ⟨0x208, 16, 32, 0xC00F003F, 0, 0, 0, 0x40000, 0⟩ := by
  rw [regDef, if_neg (by simp [Block.isWindow]), if_neg (by omega), if_neg (by omega)]
  change fnRegs.find? (fun d => d.has (0x208 + 32 * k)) = _
  interval_cases k <;> rfl

theorem regDef_nrCtl (f : Nat) : regDef (.fnPage f) 0x118 = some ⟨0x118, 1, 4, 0x800F003F, 0, 0, 0, 0x40000, 0⟩ := by
  rw [regDef, if_neg (by simp [Block.isWindow]), if_neg (by decide), if_neg (by decide)]
  rfl

/-- The control word of a ring holds its enable bit and its size as a write gives them. -/
theorem ctl_after_maskWrite {f a : Nat} {d : RegDef} (hd : regDef (.fnPage f) (a % 4096) = some d) (hc : d.w1c = 0) (hw : d.w1s = 0)
    (h31 : d.rw.testBit 31 = true) (v : Word) (s : State) :
    bit (rd (after (maskWrite (.fnPage f) a v) s) a) 31 = bit v 31 := by
  rw [bit_eq_decide_fld, bit_eq_decide_fld, fld_after_maskWrite hd hc hw (by decide) (fun i hl hh => by rw [show i = 31 by omega, h31])]

section

variable {s : State} {f : FnNo} {v : Word}

theorem after_ringCtlWrite_start {k : Option (Fin 16)} (h : bit (rd s (ringCtlReg f.val k)) 31 = false) (hv : bit v 31 = true) :
    after (ringCtlWrite f.val k v) s = after (maskWrite (.fnPage f.val) (ringCtlReg f.val k) v) (after (ringStart f.val k) s) := by
  rw [ringCtlWrite, after_look]
  dsimp only
  rw [h, hv, after_seq_cons, after_act, if_pos (by decide), after_seq_cons, after_seq_nil]

theorem after_ringCtlWrite_plain {k : Option (Fin 16)} (hv : bit v 31 = false) :
    after (ringCtlWrite f.val k v) s = after (maskWrite (.fnPage f.val) (ringCtlReg f.val k) v) s := by
  rw [ringCtlWrite, after_look]
  dsimp only
  rw [hv, after_seq_cons, after_act, Bool.false_and, if_neg Bool.false_ne_true, after_seq_cons, after_seq_nil]

variable (hs : Ready s) (ht : Takes s (fnPageOf f.val / 4096))
include hs ht

theorem does_ringEnable {k : Fin 16} (hen : bit (rd s (crBase f.val k.val + 8)) 31 = false) (v : Word) :
    Does (.ringEnable .ringCtl f (some k) v) s [.ctl, .phase] fun t =>
      bit (rd t (crBase f.val k.val + 8)) 31 = true ∧ fld (rd t (crBase f.val k.val + 8)) 19 16 = fld v 19 16 ∧
      crHead t f.val k.val = 0 ∧ crTail t f.val k.val = 0 ∧ phaseOf t f.val k.val = true ∧
      RegsAt [crBase f.val k.val + 8, crBase f.val k.val + 0x14, crBase f.val k.val + 0x18, crBase f.val k.val + 0x1C] s t := by
  have hk := k.isLt
  have hpage : ringCtlReg f.val (some k) / 4096 = fnPageOf f.val / 4096 := by
    unfold ringCtlReg crBase fnPageOf
    dsimp only
    omega
  have hoff : (crBase f.val k.val + 8) % 4096 = 0x208 + 32 * k.val := by unfold crBase fnPageOf; omega
  have hdef := regDef_crCtl f.val k.val hk
  rw [← hoff] at hdef
  have hv : bit (setBit v 31 true) 31 = true := bit_setBit_same _ (by decide) _
  have hreg : ringCtlReg f.val (some k) = crBase f.val k.val + 8 := rfl
  have e := after_ringCtlWrite_start (k := some k) hen hv
  rw [hreg] at e
  have hptr : rd (after (ringStart f.val (some k)) s) (crBase f.val k.val + 0x14) = 0 := by
    rw [ringStart, after_seq_cons, after_seq_cons, after_seq_cons, after_seq_cons, after_seq_nil, (within_one (ps := [.phase]) rfl).rd,
      (keepsReg_wr (by omega) _).rd, (keepsReg_wr (by omega) _).rd, after_wr, rd_ctl_same]
  have hphase : phaseOf (after (ringStart f.val (some k)) s) f.val k.val = true := by
    rw [ringStart, after_seq_cons, after_seq_cons, after_seq_cons, after_seq_cons, after_seq_nil, phaseOf, mGetD]
    exact congrArg (Option.getD · true) (mGet_mPut_same ..)
  have hstart {x : Nat} (h : x ∉ [crBase f.val k.val + 8, crBase f.val k.val + 0x14, crBase f.val k.val + 0x18, crBase f.val k.val + 0x1C]) :
      rd (after (ringStart f.val (some k)) s) x = rd s x := by
    simp only [List.mem_cons, List.not_mem_nil, or_false, not_or] at h
    rw [ringStart, after_seq_cons, after_seq_cons, after_seq_cons, after_seq_cons, after_seq_nil, (within_one (ps := [.phase]) rfl).rd,
      (keepsReg_wr h.2.2.2 _).rd, (keepsReg_wr h.2.2.1 _).rd, (keepsReg_wr h.2.1 _).rd]
  refine does_guarded_ring hs ht hpage rfl ?_ ?_ <;> rw [e]
  · exact ((within_ringStart ..).onlyIn s).trans (((within_maskWrite ..).wider rfl).onlyIn _)
  · refine ⟨?_, ?_, ?_, ?_, ?_, fun x hx => ?_⟩
    · rw [ctl_after_maskWrite hdef rfl rfl (by decide), hv]
    · rw [fld_after_maskWrite hdef rfl rfl (by decide) (fun i hl hh => by interval_cases i <;> decide), fld_setBit_other _ (by decide) (by decide)]
    · rw [crHead, (keepsReg_maskWrite (by omega) ..).rd, hptr]
      rfl
    · rw [crTail, (keepsReg_maskWrite (by omega) ..).rd, hptr]
      rfl
    · rw [phaseOf, (within_maskWrite ..).phase, ← phaseOf, hphase]
    · rw [(keepsReg_maskWrite (fun h => hx (by rw [h]; exact List.mem_cons_self)) ..).rd, hstart hx]

theorem does_ringDisable (k : Option (Fin 16)) (v : Word) : Does (.ringDisable .ringCtl f k v) s [.ctl] fun t =>
    bit (rd t (ringCtlReg f.val k)) 31 = false ∧ RegsAt [ringCtlReg f.val k] s t := by
  have hpage : ringCtlReg f.val k / 4096 = fnPageOf f.val / 4096 := by
    cases k with
    | none => unfold ringCtlReg fnPageOf; dsimp only; omega
    | some k => have := k.isLt; unfold ringCtlReg crBase fnPageOf; dsimp only; omega
  have hdef : ∃ d, regDef (.fnPage f.val) (ringCtlReg f.val k % 4096) = some d ∧ d.w1c = 0 ∧ d.w1s = 0 ∧ d.rw.testBit 31 = true := by
    cases k with
    | none =>
      have hoff : ringCtlReg f.val none % 4096 = 0x118 := by unfold ringCtlReg fnPageOf; dsimp only; omega
      exact ⟨_, (congrArg (regDef _) hoff).trans (regDef_nrCtl f.val), rfl, rfl, by decide⟩
    | some k =>
      have hk := k.isLt
      have hoff : ringCtlReg f.val (some k) % 4096 = 0x208 + 32 * k.val := by unfold ringCtlReg crBase fnPageOf; dsimp only; omega
      exact ⟨_, (congrArg (regDef _) hoff).trans (regDef_crCtl f.val k.val hk), rfl, rfl, by decide⟩
  obtain ⟨d, hd, hc, hw, h31⟩ := hdef
  have hv : bit (setBit v 31 false) 31 = false := bit_setBit_same _ (by decide) _
  refine does_guarded_ring hs ht hpage rfl ?_ ?_ <;> rw [after_ringCtlWrite_plain hv]
  · exact (within_maskWrite ..).onlyIn s
  · refine ⟨?_, fun x hx => (keepsReg_maskWrite (fun h => hx (List.mem_singleton.mpr h)) ..).rd s⟩
    rw [ctl_after_maskWrite hd hc hw h31, hv]

end

/-! ## Completions and notices (R511, R512, R526) -/

theorem keepsReg_signal {x : Nat} {f : FnNo} (v : Nat) (hx : x < fnPageOf f.val + 0xC00) : KeepsReg x (signal f v) :=
  keeps_look fun _ => keeps_ite (fun _ => keepsReg_wrBit (by omega) ..) fun _ => (within_one (ps := [.out]) rfl).keepsReg x

/-- What has left the module once one output has, and later acts have run. -/
theorem out_then {s u t : State} {o : Output} (hu : u.out = s.out ++ [o]) (h : u.out <+: t.out) : ∃ outs, t.out = s.out ++ o :: outs := by
  obtain ⟨outs, ho⟩ := h
  exact ⟨outs, by rw [← ho, hu, List.append_assoc, List.singleton_append]⟩

section

variable {s : State} (hs : Ready s) {f : FnNo}
include hs

/-- A completion leaves as one FLIT of its port's turn. -/
def completionSent (s : State) (f : FnNo) (k : Fin 16) (c : Completion) : State :=
  after (one (.out (.hostWrite f ((rd64 s (crBase f.val k.val + 0xC)).toNat + 16 * (fld (rd s (crBase f.val k.val + 0x1C)) 15 0 % crSize s f.val k.val))
    (leBytes 4 (c.tag.toNat + c.status.toNat * 65536 + 0x80000000 * b2n (phaseOf s f.val k.val)) ++
      leBytes 4 (crHead s f.val k.val) ++ leBytes 8 c.result.toNat)))) (after (hpServe (f.val / 16)) s)

/-- What follows a completion's leaving. -/
def completionEnds (s : State) (f : FnNo) (k : Fin 16) (c : Completion) : List Act :=
  let b := crBase f.val k.val
  let tail := fld (rd s (b + 0x1C)) 15 0
  [wrFld (b + 0x1C) 15 0 (tail + 1),
    act (decide ((tail + 1) % crSize s f.val k.val = 0)) (one (.phase (17 * f.val + k.val) (some (!phaseOf s f.val k.val)))),
    act (!bit (rd s (b + 8)) 30) (signal f (fld (rd s (b + 8)) 5 0)), count (fnPageOf f.val) 0 1,
    act (decide (c.status ≠ 0)) (count (fnPageOf f.val) 1 1), one (.busyRing (16 * f.val + k.val) none),
    one (.completions (s.completions.erase c))]

omit hs in
theorem after_actCompletionWrite {k : Fin 16} {c : Completion} (hc : s.completions.find? (fun c => decide (c.fn = f) && decide (c.ring = k)) = some c) :
    after (actCompletionWrite f k) s = if crFull s f.val k.val || !hpMay s (f.val / 16) then s else
      after (seq (completionEnds s f k c)) (completionSent s f k c) := by
  rw [actCompletionWrite, after_look, hc]
  dsimp only
  rw [after_ite, after_nop]
  split
  · rfl
  · rw [after_seq_cons, after_seq_cons]
    rfl

theorem does_completionWrite {k : Fin 16} {c : Completion} {tail : Nat}
    (hc : s.completions.find? (fun c => decide (c.fn = f) && decide (c.ring = k)) = some c) (ht : tail = fld (rd s (crBase f.val k.val + 0x1C)) 15 0)
    (hroom : diff16 tail (fld (rd s (crBase f.val k.val + 0x18)) 15 0) ≠ crSize s f.val k.val) (hmay : hpMay s (f.val / 16) = true) :
    Does (.completionWrite f k) s [.ctl, .busyRing, .phase, .completions, .hpTurn, .hpUsed, .out] fun t => t.completions = s.completions.erase c ∧
      mGet t.busyRing (16 * f.val + k.val) = none ∧ fld (rd t (crBase f.val k.val + 0x1C)) 15 0 = (tail + 1) % 65536 ∧
      ∃ outs, t.out = s.out ++ .hostWrite f ((rd64 s (crBase f.val k.val + 0xC)).toNat + 16 * (tail % crSize s f.val k.val))
        (leBytes 4 (c.tag.toNat + c.status.toNat * 65536 + 0x80000000 * b2n (phaseOf s f.val k.val)) ++
          leBytes 4 (crHead s f.val k.val) ++ leBytes 8 c.result.toNat) :: outs := by
  subst ht
  have hk := k.isLt
  have e : after (actCompletionWrite f k) s = after (seq (completionEnds s f k c)) (completionSent s f k c) := by
    rw [after_actCompletionWrite hc, if_neg]
    rw [crFull, decide_eq_false hroom, hmay]
    decide
  have hb : crBase f.val k.val + 0x1C < fnPageOf f.val + 0xC00 ∧ fnPageOf f.val + 0x200 ≤ crBase f.val k.val + 0x1C := by unfold crBase; omega
  have hsent : OnlyIn [.hpTurn, .hpUsed, .out] s (completionSent s f k c) :=
    (((within_hpServe _).wider rfl).onlyIn s).trans ((onlyIn_apply (.out _) _).wider rfl)
  have hends : Within [.ctl, .busyRing, .phase, .completions, .out] (seq (completionEnds s f k c)) :=
    within_seq_cons ((within_wrFld ..).wider rfl) <| within_seq_cons (within_act (within_one rfl)) <|
      within_seq_cons (within_act ((within_signal ..).wider rfl)) <| within_seq_cons ((within_count ..).wider rfl) <|
      within_seq_cons (within_act ((within_count ..).wider rfl)) <| within_seq_cons (within_one rfl) <| within_seq_cons (within_one rfl) within_seq_nil
  have hout : (completionSent s f k c).out = s.out ++ [_] := congrArg (· ++ [_]) ((within_hpServe _).out s)
  refine does_of_run (a := actCompletionWrite f k) hs.1 rfl ?_ ?_ <;> rw [e]
  · exact (hsent.wider rfl).trans ((hends.onlyIn _).wider rfl)
  · refine ⟨?_, ?_, ?_, out_then hout (out_prefix ..)⟩ <;>
      rw [completionEnds, after_seq_cons, after_seq_cons, after_seq_cons, after_seq_cons, after_seq_cons, after_seq_cons, after_seq_cons, after_seq_nil]
    · rfl
    · exact mGet_mPut_same ..
    · rw [(within_one (ps := [.completions]) rfl).rd, (within_one (ps := [.busyRing]) rfl).rd,
        KeepsReg.rd (keeps_act fun _ => keepsReg_count (by omega) (by omega) (by omega) 1), (keepsReg_count (by omega) (by omega) (by omega) 1).rd,
        KeepsReg.rd (keeps_act fun _ => keepsReg_signal _ hb.1), Within.rd (ps := [.phase]) (within_act (within_one rfl)), after_wrFld, rd_ctl_same]
      exact fld_setFld (hi := 15) (lo := 0) _ (by decide) (by decide) _

theorem exec_completionWrite_waits {k : Fin 16} {c : Completion} {tail : Nat}
    (hc : s.completions.find? (fun c => decide (c.fn = f) && decide (c.ring = k)) = some c) (ht : tail = fld (rd s (crBase f.val k.val + 0x1C)) 15 0)
    (h : diff16 tail (fld (rd s (crBase f.val k.val + 0x18)) 15 0) = crSize s f.val k.val ∨ hpMay s (f.val / 16) = false) :
    exec (.completionWrite f k) s = .next s := by
  subst ht
  refine exec_next (a := actCompletionWrite f k) hs.1 rfl ?_
  rw [after_actCompletionWrite hc, if_pos]
  rcases h with h | h
  · rw [crFull, decide_eq_true h, Bool.true_or]
  · rw [h, Bool.not_false, Bool.or_true]

/-- A notice leaves as one FLIT of its port's turn. -/
def noticeSent (s : State) (f : FnNo) (n : Notice) : State :=
  after (one (.out (.hostWrite f ((rd64 s (fnPageOf f.val + 0x110)).toNat + 32 * (fld (rd s (fnPageOf f.val + 0x120)) 15 0 %
      ringSize (rd s (fnPageOf f.val + 0x118))))
    (leBytes 4 (n.kind.toNat + n.herd % 64 * 256 + n.reason.toNat * 65536 + 0x80000000 * b2n (phaseOf s f.val 16)) ++
      leBytes 4 0 ++ leBytes 8 n.bead.toNat ++ (n.detail ++ List.replicate 16 0).take 16)))) (after (hpServe (f.val / 16)) s)

/-- What follows a notice's leaving. -/
def noticeEnds (s : State) (f : FnNo) (n : Notice) : List Act :=
  let p := fnPageOf f.val
  let tail := fld (rd s (p + 0x120)) 15 0
  [wrFld (p + 0x120) 15 0 (tail + 1),
    act (decide ((tail + 1) % ringSize (rd s (p + 0x118)) = 0)) (one (.phase (17 * f.val + 16) (some (!phaseOf s f.val 16)))),
    signal f (fld (rd s (p + 0x118)) 5 0), count p 2 1, setIst p 8, one (.notices (s.notices.erase n))]

theorem does_noticeWrite {n : Notice} {tail : Nat} (hn : s.notices.find? (fun n => decide (n.fn = f)) = some n) (hf : fnExists s f.val = true)
    (hen : bit (rd s (fnPageOf f.val + 0x118)) 31 = true) (hroom : noticeFull s f.val = false) (hmay : hpMay s (f.val / 16) = true)
    (ht : tail = fld (rd s (fnPageOf f.val + 0x120)) 15 0) :
    Does (.noticeWrite f) s [.ctl, .phase, .notices, .hpTurn, .hpUsed, .out] fun t => t.notices = s.notices.erase n ∧
      fld (rd t (fnPageOf f.val + 0x120)) 15 0 = (tail + 1) % 65536 ∧ bit (rd t (fnPageOf f.val + 0x20)) 8 = true ∧
      ∃ outs, t.out = s.out ++ .hostWrite f ((rd64 s (fnPageOf f.val + 0x110)).toNat +
          32 * (tail % ringSize (rd s (fnPageOf f.val + 0x118))))
        (leBytes 4 (n.kind.toNat + n.herd % 64 * 256 + n.reason.toNat * 65536 + 0x80000000 * b2n (phaseOf s f.val 16)) ++
          leBytes 4 0 ++ leBytes 8 n.bead.toNat ++ (n.detail ++ List.replicate 16 0).take 16) :: outs := by
  subst ht
  have e : after (actNoticeWrite f) s = after (seq (noticeEnds s f n)) (noticeSent s f n) := by
    rw [actNoticeWrite, after_look, hn]
    dsimp only
    rw [noticeMay, hen, hroom, hf, hmay, after_ite, if_neg (by decide), after_seq_cons, after_seq_cons]
    rfl
  have hsent : OnlyIn [.hpTurn, .hpUsed, .out] s (noticeSent s f n) :=
    (((within_hpServe _).wider rfl).onlyIn s).trans ((onlyIn_apply (.out _) _).wider rfl)
  have hends : Within [.ctl, .phase, .notices, .out] (seq (noticeEnds s f n)) :=
    within_seq_cons ((within_wrFld ..).wider rfl) <| within_seq_cons (within_act (within_one rfl)) <|
      within_seq_cons ((within_signal ..).wider rfl) <| within_seq_cons ((within_count ..).wider rfl) <|
      within_seq_cons ((within_setIst ..).wider rfl) <| within_seq_cons (within_one rfl) within_seq_nil
  have hout : (noticeSent s f n).out = s.out ++ [_] := congrArg (· ++ [_]) ((within_hpServe _).out s)
  refine does_of_run (a := actNoticeWrite f) hs.1 rfl ?_ ?_ <;> rw [e]
  · exact (hsent.wider rfl).trans ((hends.onlyIn _).wider rfl)
  · refine ⟨?_, ?_, ?_, out_then hout (out_prefix ..)⟩ <;>
      rw [noticeEnds, after_seq_cons, after_seq_cons, after_seq_cons, after_seq_cons, after_seq_cons, after_seq_cons, after_seq_nil]
    · rfl
    · rw [(within_one (ps := [.notices]) rfl).rd, (keepsReg_setIst (by omega) 8).rd, (keepsReg_count (by omega) (by omega) (by omega) 1).rd,
        (keepsReg_signal _ (by omega)).rd, Within.rd (ps := [.phase]) (within_act (within_one rfl)), after_wrFld, rd_ctl_same]
      exact fld_setFld (hi := 15) (lo := 0) _ (by decide) (by decide) _
    · rw [(within_one (ps := [.notices]) rfl).rd, after_setIst, rd_ctl_same, bit_setBit_same _ (by decide)]

theorem does_nopCommand {c : CmdId} (hr : ringReady s c = true) : Does (.nopCommand c) s [.ctl, .busyRing, .completions, .fnTurn, .out] fun t =>
    Answered s t c (if c.reserved then 2 else 0) 0 ∧ RegsAt [ptrReg c] s t := by
  have e : after (actNopCommand c) s = after (complete c (if c.reserved then 2 else 0) 0) (fetched c s) := by
    rw [actNopCommand, after_hostCmd hr]
    split <;> rfl
  have hregs (st : Nat) : RegsAt [ptrReg c] s (after (complete c st 0) (fetched c s)) := fun x hx => by
    have hctl : (after (complete c st 0) (fetched c s)).ctl = (fetched c s).ctl := rfl
    rw [rd, hctl, ← rd, rd_fetched c s fun h => hx (List.mem_singleton.mpr h)]
  refine does_of_run (a := actNopCommand c) hs.1 rfl ?_ ?_ <;> rw [e]
  · exact does_complete.1
  · exact ⟨does_complete.2, hregs _⟩

end

/-- Settles O45: each act's last writes are apart from the words it reports. -/
theorem ringsOfFunctions : Obligations.RingsOfFunctions := by
  unfold Obligations.RingsOfFunctions
  refine ⟨fun s hs f k off t data hf ho hdata => ⟨fun hk hen => ⟨does_doorbell ho hdata hs hf hk hen, does_doorbell_overrun ho hdata hs hf hk hen⟩,
      exec_doorbell_ignored ho hdata hs⟩, fun s hs f off data => exec_doorbell_elsewhere hs f,
    fun s hs f k v ht => ⟨fun hen => does_ringEnable hs ht hen v, does_ringDisable hs ht (some k) v, does_ringDisable hs ht none v⟩,
    fun s hs c hr => does_nopCommand hs hr, fun s hs c hr => ?_, fun s hs f k c tail hc ht => ⟨does_completionWrite hs hc ht,
      exec_completionWrite_waits hs hc ht⟩, fun s hs f n tail hn hf hen hroom hmay ht => does_noticeWrite hs hn hf hen hroom hmay ht⟩
  exact exec_next (a := actNopCommand c) hs.1 rfl (after_hostCmd_waits hr _)

end Sys2Proof.Machine
end

section
/-! The unified range as a herd sees it: what its reads and judgements depend on (R356 to R358). -/

namespace Sys2Proof.Machine

-- One declaration after the other: elaborated side by side they take more memory than the check has.
set_option Elab.async false

/-- The tables, the memory and the far tier that accesses of herds meet. -/
structure SameSpace (s t : State) : Prop where
  table : SameTable s t
  sset : ∀ k < 256, rd t (ssetReg k) = rd s (ssetReg k) ∧ rd t (ssetReg k + 4) = rd s (ssetReg k + 4)
  up : ∀ k < 4, rd t (hpPage k + 0x100) = rd s (hpPage k + 0x100)
  farMem : t.farMem = s.farMem
  extent : t.extent = s.extent
  freeCtr : t.freeCtr = s.freeCtr

theorem freeAt_of_ctr {s t : State} (h : t.freeCtr = s.freeCtr) (i : Nat) : freeAt t i = freeAt s i := by rw [freeAt, freeAt, h]

section

variable {s t : State} (h : SameSpace s t)
include h

theorem SameSpace.readable (herd : Nat) (e : DWord) : readable t herd e = readable s herd e := by
  obtain ⟨h1, h2⟩ := h.sset (eSset e) (fld_lt e 49 42)
  rw [Machine.readable, Machine.readable, admitted, admitted, rd64, rd64, h1, h2]

theorem SameSpace.judge (herd p : Nat) (write : Bool) : judge t herd p write = judge s herd p write := by
  rw [Machine.judge, Machine.judge, h.table.homeEntry, judgeAs, judgeAs, h.readable]

theorem SameSpace.areaJudged (herd a n : Nat) : areaJudged t herd a n = areaJudged s herd a n :=
  List.map_congr_left fun _ _ => h.judge ..

theorem SameSpace.farUp (e : Nat) : farUp t e = farUp s e := by
  rw [Machine.farUp, Machine.farUp, h.extent]
  split
  · rw [hostUp, hostUp, h.up _ (Fin.isLt _)]
  · rfl

theorem SameSpace.farServes (e : Nat) : farServes t e = farServes s e := by
  rw [Machine.farServes, Machine.farServes, h.farUp, freeAt_of_ctr h.freeCtr]

theorem SameSpace.readBlk (b : Nat) : readBlk t b = readBlk s b :=
  (h.table.reading b).readBlk h.table.chk h.table.mem h.table.mergeBuf

theorem SameSpace.devRead (a n : Nat) : devRead t a n = devRead s a n := by
  simp only [Machine.devRead, h.readBlk]

theorem SameSpace.readPart (herd : Nat) (p : Nat × Nat × Nat × Nat) : readPart t herd p = readPart s herd p := by
  rw [Machine.readPart, Machine.readPart, h.judge]
  cases Machine.judge s herd p.1 false with
  | far e page => simp only [h.farServes, farByte, h.farMem]
  | frame f => simp only [h.devRead]
  | _ => rfl

theorem SameSpace.urRead (herd a n : Nat) : urRead t herd a n = urRead s herd a n := by
  have hpart : Machine.readPart t herd = Machine.readPart s herd := funext (h.readPart herd)
  rw [Machine.urRead, Machine.urRead, hpart]

theorem SameSpace.tableNat (a n : Nat) : tableNat t a n = tableNat s a n := by
  simp only [Machine.tableNat, tableByte, h.table.readByte]

theorem SameSpace.rsvBase : rsvBase t = rsvBase s := by
  rw [Machine.rsvBase, Machine.rsvBase, inlineOn, inlineOn, h.table.straps]

theorem SameSpace.groupEntryAddr (g : Nat) : groupEntryAddr t g = groupEntryAddr s g := by
  rw [Machine.groupEntryAddr, Machine.groupEntryAddr, h.rsvBase]

theorem SameSpace.entryFrozen (e : SnapEntry) : entryFrozen t e = entryFrozen s e := by
  simp only [Machine.entryFrozen, h.groupEntryAddr, h.tableNat]

theorem SameSpace.extentUsed (i : Nat) : extentUsed t i = extentUsed s i := by
  simp only [Machine.extentUsed, h.table.validPages, h.table.homeEntry]

end

/-- A fetch leaves the range as it was. -/
theorem sameSpace_fetched (c : CmdId) (s : State) : SameSpace s (fetched c s) := by
  have hptr := ptrReg_pos c
  have hreg {x : Nat} (hx : x < 0x180214 ∨ x % 32 ≠ 0x14 ∨ x % 4096 < 0x214 ∨ 0x400 ≤ x % 4096) : rd (fetched c s) x = rd s x :=
    rd_fetched c s (by omega)
  have honly := onlyIn_fetched c s
  have hp {n x : Nat} (hn : n < 24) (hx : PortReg n x) : x < 0x180214 ∨ x % 32 ≠ 0x14 ∨ x % 4096 < 0x214 ∨ 0x400 ≤ x % 4096 := by
    obtain ⟨o, rfl, ho⟩ := hx
    unfold mpPage
    omega
  exact {
    table := ⟨fun n hn x hx => hreg (hp hn hx), honly .straps rfl, honly .mem rfl, honly .chk rfl, honly .mergeBuf rfl⟩
    sset := fun k hk => ⟨hreg (by unfold ssetReg migPage; omega), hreg (by unfold ssetReg migPage; omega)⟩
    up := fun k hk => hreg (by unfold hpPage; omega)
    farMem := honly .farMem rfl
    extent := honly .extent rfl
    freeCtr := honly .freeCtr rfl }

end Sys2Proof.Machine
end

section
/-! Accesses of the device's memory write no registers but those of the memory ports, of the first MIG_ page and of the dump control. -/

namespace Sys2Proof.Machine

-- One declaration after the other: elaborated side by side they take more memory than the check has.
set_option Elab.async false

/-- The pages of the registers that an access of the memory may write. -/
def memPages : List Nat := mgtPage 4 :: migPage 0 :: (List.range 24).map mpPage

theorem mpPage_mem {n : Nat} (h : n < 24) : mpPage n ∈ memPages :=
  List.mem_cons_of_mem _ (List.mem_cons_of_mem _ (List.mem_map_of_mem (List.mem_range.mpr h)))

theorem migPage_mem : migPage 0 ∈ memPages := List.mem_cons_of_mem _ List.mem_cons_self

/-- What lies outside those pages. -/
theorem not_memPages {x : Nat} (h : x < 0x4000 ∨ (0x5000 ≤ x ∧ x < mpPage 0) ∨ (mpPage 23 + 4096 ≤ x ∧ x < migPage 0) ∨ migPage 0 + 4096 ≤ x) :
    x / 4096 * 4096 ∉ memPages := by
  have h0 : mpPage 0 = 0x100000 := rfl
  have h23 : mpPage 23 = 0x117000 := rfl
  have hm : migPage 0 = 0x140000 := rfl
  have hd : mgtPage 4 = 0x4000 := rfl
  intro hmem
  simp only [memPages, List.mem_cons, List.mem_map, List.mem_range] at hmem
  rcases hmem with hx | hx | ⟨n, hn, hx⟩
  · omega
  · omega
  · unfold mpPage at hx h0 h23 h
    omega

/-- The act writes the registers of those pages alone. -/
structure MemWrites (a : Act) : Prop where
  writesIn : WritesIn memPages a

theorem MemWrites.keeps {a : Act} (h : MemWrites a) {x : Nat} (hx : x / 4096 * 4096 ∉ memPages) : KeepsReg x a := h.writesIn x hx

theorem memWrites_nop : MemWrites nop := ⟨writesIn_nop _⟩

theorem memWrites_nil : MemWrites (seq []) := ⟨writesIn_seq_nil _⟩

theorem MemWrites.cons {a : Act} {as : List Act} (ha : MemWrites a) (has : MemWrites (seq as)) : MemWrites (seq (a :: as)) :=
  ⟨WritesIn.cons ha.writesIn has.writesIn⟩

theorem MemWrites.act {a : Act} (h : MemWrites a) (c : Bool) : MemWrites (act c a) := ⟨WritesIn.act h.writesIn c⟩

theorem memWrites_look {g : State → Act} (h : ∀ s, MemWrites (g s)) : MemWrites (look g) := ⟨writesIn_look fun s => (h s).writesIn⟩

theorem memWrites_each {α : Type} {xs : List α} {g : α → Act} (h : ∀ x ∈ xs, MemWrites (g x)) : MemWrites (each xs g) :=
  ⟨writesIn_each fun x hx => (h x hx).writesIn⟩

theorem memWrites_ite {c : Prop} [Decidable c] {a b : Act} (ha : MemWrites a) (hb : MemWrites b) : MemWrites (if c then a else b) :=
  ⟨writesIn_ite ha.writesIn hb.writesIn⟩

/-- Acts that write no register. -/
theorem Within.memWrites {ps : List Part} {a : Act} (h : Within ps a) (hp : ps.contains .ctl = false := by rfl) : MemWrites a :=
  ⟨h.writesIn _ hp⟩

theorem memWrites_count {n k : Nat} (hn : n < 24) (hk : k < 8) (m : Nat) : MemWrites (count (mpPage n) k m) :=
  ⟨writesIn_count (mpPage_mod n) hk (mpPage_mem hn) m⟩

theorem memWrites_raise {p : Nat} (hp : p % 4096 = 0) (hm : p ∈ memPages) (c : Capture) : MemWrites (raise p c) :=
  ⟨fun x hx => writesIn_raise hp c x fun hmem => by
    rcases List.mem_cons.mp hmem with h | h
    · exact hx (h ▸ hm)
    · exact hx (List.mem_singleton.mp h ▸ List.mem_cons_self)⟩

theorem memWrites_raiseAt {n : Nat} (hn : n < 24) (c : Capture) : MemWrites (raise (mpPage n) c) :=
  memWrites_raise (mpPage_mod n) (mpPage_mem hn) c

theorem memWrites_corrEvent (b nsym : Nat) (src : Src) (herd : Option Nat) : MemWrites (corrEvent b nsym src herd) :=
  MemWrites.cons (memWrites_count (blkPort_lt b) (by decide) 1) <| MemWrites.cons (memWrites_raiseAt (blkPort_lt b) _) memWrites_nil

theorem memWrites_uncorrEvent (b code : Nat) (src : Src) (herd : Option Nat) : MemWrites (uncorrEvent b code src herd) :=
  memWrites_look fun _ => MemWrites.cons (memWrites_count (blkPort_lt b) (by decide) 1) <|
    MemWrites.cons (memWrites_raiseAt (blkPort_lt b) _) memWrites_nil

theorem memWrites_wrFld {n o : Nat} (hn : n < 24) (ho : o < 4096) (hi lo v : Nat) : MemWrites (wrFld (mpPage n + o) hi lo v) :=
  ⟨fun _ hx => keepsReg_wrFld (ne_of_page hx (mpPage_mod n) ho (mpPage_mem hn)) ..⟩

theorem memWrites_remapReg {n e : Nat} (hn : n < 24) (he : e < 64) {a : Act} (h : ∀ x, x ≠ remapReg n e → KeepsReg x a) : MemWrites a :=
  ⟨fun x hx => h x (by
    have hne : x ≠ mpPage n + (0x200 + 4 * e) := ne_of_page hx (mpPage_mod n) (by omega) (mpPage_mem hn)
    unfold remapReg
    omega)⟩

theorem memWrites_dropMerge {m : MergeEntry} (h : m.port < 24) : MemWrites (dropMerge m) :=
  memWrites_look fun _ => MemWrites.cons (Within.memWrites (ps := [.mergeBuf]) (within_one rfl)) <|
    MemWrites.cons (memWrites_wrFld h (by decide) ..) memWrites_nil

theorem memWrites_storeBlk (b : Nat) (data : List Byte) : MemWrites (storeBlk b data) := by
  refine memWrites_look fun s => MemWrites.cons (Within.memWrites (within_putRaw ..)) <| MemWrites.cons ?_ <|
    MemWrites.cons (memWrites_count (blkPort_lt b) (by decide) 1) memWrites_nil
  split
  case h_1 e he => exact memWrites_remapReg (blkPort_lt b) (remapOf_lt he) fun x hx => keepsReg_wrBit hx ..
  case h_2 => exact memWrites_nop

theorem memWrites_retireMerge {m : MergeEntry} (h : m.port < 24) : MemWrites (retireMerge m) := by
  refine memWrites_look fun s => MemWrites.cons (memWrites_dropMerge h) <| MemWrites.cons (memWrites_count h (by decide) 1) <|
    MemWrites.cons (memWrites_count h (by decide) 1) <| MemWrites.cons ?_ memWrites_nil
  split
  · refine MemWrites.cons ?_ <| MemWrites.cons (memWrites_storeBlk ..) memWrites_nil
    split
    · exact memWrites_corrEvent ..
    · exact memWrites_nop
  · exact MemWrites.cons (memWrites_uncorrEvent ..) <| MemWrites.cons (memWrites_count h (by decide) 1) memWrites_nil

theorem memWrites_retireFor (b : Nat) : MemWrites (retireFor b) := memWrites_look fun s => by
  split
  case h_1 m hm => exact memWrites_retireMerge (port_of_mergeOf hm)
  case h_2 => exact memWrites_nop

theorem memWrites_dropFor (b : Nat) : MemWrites (dropFor b) := memWrites_look fun s => by
  split
  case h_1 m hm => exact memWrites_dropMerge (port_of_mergeOf hm)
  case h_2 => exact memWrites_nop

theorem memWrites_remapInto {n e : Nat} (hn : n < 24) (he : e < 64) (l : Nat) (poison : Bool) : MemWrites (remapInto n e l poison) := by
  refine MemWrites.cons (memWrites_retireFor _) <| MemWrites.cons (memWrites_look fun s => MemWrites.cons ?_ <|
    MemWrites.cons (Within.memWrites (within_putRaw ..)) <| MemWrites.cons (memWrites_remapReg hn he fun x hx => keepsReg_wr hx _) <|
    MemWrites.cons (memWrites_wrFld hn (by decide) ..) <| MemWrites.cons (memWrites_count hn (by decide) 1) <|
    MemWrites.cons (memWrites_count hn (by decide) 1) <| MemWrites.cons (memWrites_count hn (by decide) 1) memWrites_nil) memWrites_nil
  split
  · exact memWrites_corrEvent ..
  · exact memWrites_uncorrEvent ..
  · exact memWrites_nop

theorem memWrites_setIst {n : Nat} (hn : n < 24) (i : Nat) : MemWrites (setIst (mpPage n) i) := ⟨writesIn_setIst (mpPage_mod n) (mpPage_mem hn) i⟩

theorem memWrites_hardFault (b : Nat) (src : Src) (herd : Option Nat) : MemWrites (hardFault b src herd) := by
  have hport := blkPort_lt b
  refine memWrites_look fun s => MemWrites.cons (memWrites_setIst hport 8) <| MemWrites.cons (memWrites_raiseAt hport _) <|
    MemWrites.cons ?_ memWrites_nil
  split
  · split
    case h_1 e he => exact memWrites_remapInto hport (List.mem_range.mp (List.mem_of_find?_eq_some he)) _ _
    case h_2 => exact MemWrites.cons (memWrites_setIst hport 9) <| MemWrites.cons (memWrites_raiseAt hport _) memWrites_nil
  · exact memWrites_nop

theorem memWrites_readDecode (b : Nat) (src : Src) (herd : Option Nat) (wb verify : Bool) (noise : List (Nat × Byte)) :
    MemWrites (readDecode b src herd wb verify noise) := by
  have hport := blkPort_lt b
  refine memWrites_look fun s => ?_
  dsimp only
  split
  · exact memWrites_uncorrEvent ..
  · split
    · exact memWrites_nop
    · exact memWrites_uncorrEvent ..
    · refine MemWrites.cons (memWrites_corrEvent ..) <| MemWrites.cons (MemWrites.act ?_ _) <| MemWrites.cons (MemWrites.act ?_ _) memWrites_nil
      · exact MemWrites.cons (Within.memWrites (within_putRaw ..)) <| MemWrites.cons (memWrites_count hport (by decide) 1) <|
          MemWrites.cons (Within.memWrites (within_showErrors ..)) memWrites_nil
      · refine MemWrites.cons (memWrites_count hport (by decide) 1) <| MemWrites.cons (memWrites_look fun u => ?_) memWrites_nil
        split
        · exact memWrites_nop
        · exact memWrites_hardFault ..

theorem memWrites_portRead (b : Nat) (src : Src) (herd : Option Nat) (noise : List (Nat × Byte)) : MemWrites (portRead b src herd noise) := by
  refine memWrites_look fun s => memWrites_look fun u => ?_
  split
  case h_1 m hm => exact memWrites_retireMerge (port_of_mergeOf hm)
  case h_2 => exact MemWrites.cons (memWrites_count (blkPort_lt b) (by decide) 1) <| MemWrites.cons (memWrites_readDecode ..) memWrites_nil

theorem memWrites_tableRead (a : Nat) (herd : Option Nat) : MemWrites (tableRead a herd) := memWrites_look fun _ => memWrites_readDecode ..

theorem memWrites_entryRead (p h : Nat) : MemWrites (entryRead p h) := memWrites_look fun _ => MemWrites.act (memWrites_tableRead ..) _

theorem memWrites_migCount {k : Nat} (hk : k < 8) (n : Nat) : MemWrites (count (migPage 0) k n) :=
  ⟨writesIn_count (by decide) hk migPage_mem n⟩

theorem memWrites_rangeSecurity (a h row req : Nat) : MemWrites (rangeSecurity a h row req) := memWrites_raise (by decide) migPage_mem _

theorem memWrites_touch (p : Nat) : MemWrites (touch p) := (within_touch p).memWrites

theorem memWrites_judgeActs (h p a : Nat) (write : Bool) : MemWrites (judgeActs h p a write) := by
  refine memWrites_look fun s => MemWrites.cons (memWrites_entryRead p h) <| MemWrites.cons ?_ memWrites_nil
  split
  · exact MemWrites.cons (memWrites_migCount (by decide) 1) <| MemWrites.cons (memWrites_rangeSecurity ..) memWrites_nil
  · exact memWrites_migCount (by decide) 1
  · exact memWrites_touch p
  · exact memWrites_touch p
  · exact memWrites_nop

theorem memWrites_devReadActs (a n : Nat) (src : Src) (herd : Option Nat) : MemWrites (devReadActs a n src herd) :=
  memWrites_each fun _ _ => memWrites_portRead ..

theorem memWrites_urReadActs (h a n : Nat) (src : Src) : MemWrites (urReadActs h a n src) := by
  refine memWrites_look fun s => memWrites_each fun p _ => MemWrites.cons (memWrites_judgeActs ..) <|
    MemWrites.cons (memWrites_look fun u => ?_) memWrites_nil
  split
  · exact memWrites_devReadActs ..
  · exact (within_farRequest ..).memWrites
  · exact memWrites_nop

theorem memWrites_portWrite (b : Nat) (data : List Byte) : MemWrites (portWrite b data) :=
  MemWrites.cons (memWrites_dropFor b) <| MemWrites.cons (memWrites_storeBlk ..) memWrites_nil

theorem memWrites_portMerge (b herd : Nat) (data : List (Option Byte)) (part : Option (Nat × Byte × Byte)) :
    MemWrites (portMerge b herd data part) := by
  refine memWrites_look fun s => ?_
  dsimp only
  split
  case h_1 m hm =>
    refine memWrites_ite ?_ (Within.memWrites (ps := [.mergeBuf]) (within_one rfl))
    exact MemWrites.cons (memWrites_dropMerge (port_of_mergeOf hm)) <| MemWrites.cons (memWrites_storeBlk ..) memWrites_nil
  case h_2 =>
    refine memWrites_ite (memWrites_storeBlk ..) <| MemWrites.cons ?_ <| MemWrites.cons
      (memWrites_look fun _ => Within.memWrites (ps := [.mergeBuf]) (within_one rfl)) <|
      MemWrites.cons (memWrites_wrFld (blkPort_lt b) (by decide) ..) memWrites_nil
    refine memWrites_ite ?_ memWrites_nop
    cases hm : (s.mergeBuf.filter (fun x => decide (x.port = blkPort b))).head? with
    | none => exact memWrites_nop
    | some m =>
      have hp := List.mem_filter.mp (List.mem_of_head? hm)
      exact memWrites_retireMerge (by rw [of_decide_eq_true hp.2]; exact blkPort_lt b)

theorem memWrites_portNarrow (b herd : Nat) (data : List (Option Byte)) : MemWrites (portNarrow b herd data) := memWrites_portMerge ..

theorem memWrites_devWrite (a : Nat) (bs : List Byte) (herd : Nat) : MemWrites (devWrite a bs herd) :=
  memWrites_each fun _ _ => memWrites_ite (memWrites_portWrite ..) (memWrites_portNarrow ..)

theorem memWrites_urWrite (h a : Nat) (bs : List Byte) : MemWrites (urWrite h a bs) := by
  refine memWrites_each fun p _ => memWrites_look fun s => MemWrites.cons (memWrites_entryRead ..) <| MemWrites.cons (memWrites_touch _) <|
    MemWrites.cons ?_ memWrites_nil
  split
  · exact memWrites_devWrite ..
  · exact MemWrites.cons (within_farRequest ..).memWrites <|
      MemWrites.cons (memWrites_each fun _ _ => Within.memWrites (ps := [.farMem]) (within_one rfl)) memWrites_nil
  · exact memWrites_nop

theorem memWrites_tablePut (a n v : Nat) : MemWrites (tablePut a n v) := by
  have hport := blkPort_lt (a / 64)
  have hlost : MemWrites (seq [uncorrEvent (a / 64) 4 .merge none, count (mpPage (blkPort (a / 64))) 7 1]) :=
    MemWrites.cons (memWrites_uncorrEvent ..) <| MemWrites.cons (memWrites_count hport (by decide) 1) memWrites_nil
  have hbytes (xs : List (Byte × Nat)) (q : Nat) : MemWrites (each xs fun p => one (.mem (64 * q + a % 64 + p.2) p.1)) :=
    memWrites_each fun _ _ => Within.memWrites (ps := [.mem]) (within_one rfl)
  refine MemWrites.cons (memWrites_retireFor _) <| MemWrites.cons (memWrites_look fun s => MemWrites.cons (memWrites_count hport (by decide) 1) <|
    MemWrites.cons (memWrites_count hport (by decide) 1) <| MemWrites.cons ?_ memWrites_nil) memWrites_nil
  refine memWrites_ite hlost ?_
  split
  · exact MemWrites.cons (hbytes ..) <| MemWrites.cons (memWrites_count hport (by decide) 1) memWrites_nil
  · exact MemWrites.cons (memWrites_corrEvent ..) <| MemWrites.cons (Within.memWrites (within_putRaw ..)) <| MemWrites.cons (hbytes ..) <|
      MemWrites.cons (memWrites_count hport (by decide) 1) memWrites_nil
  · exact hlost

end Sys2Proof.Machine
end

section
/-! The snapshot commands of a herd (R535, R536, R540, R544, R554, R556, R570). -/

namespace Sys2Proof.Machine

-- One declaration after the other: elaborated side by side they take more memory than the check has.
set_option Elab.async false

/-! ## The snapshot engine's state of a herd -/

theorem snapOf_after_one (h : Nat) (x : Snap) (s : State) : snapOf (after (one (.snap h x)) s) h = x := mGetD_mSet_same ..

theorem after_setSnap (h : Nat) (f : Snap → Snap) (s : State) : after (setSnap h f) s = after (one (.snap h (f (snapOf s h)))) s := by
  rw [setSnap, after_look]

theorem snapIs_after_setSnap (h : Nat) (f : Snap → Snap) (s : State) : SnapIs s (after (setSnap h f) s) h (f (snapOf s h)) := by
  rw [after_setSnap]
  exact ⟨snapOf_after_one .., fun g hg => mGetD_mSet_other _ hg ..⟩

theorem snapOf_of_snap {s t : State} (h : t.snap = s.snap) (g : Nat) : snapOf t g = snapOf s g := by rw [snapOf, snapOf, h]

/-- What the engine holds for each herd, seen from states that hold the same. -/
theorem SnapIs.of_snap {s s' t t' : State} {h : Nat} {x : Snap} (hi : SnapIs s t h x) (hs : s.snap = s'.snap) (ht : t'.snap = t.snap) :
    SnapIs s' t' h x :=
  ⟨(snapOf_of_snap ht h).trans hi.1, fun g hg => (snapOf_of_snap ht g).trans ((hi.2 g hg).trans (snapOf_of_snap hs g))⟩

theorem keepsReg_setSnap {x : Nat} (h : Nat) (f : Snap → Snap) : KeepsReg x (setSnap h f) := (within_setSnap h f).keepsReg x

/-! ## The registers of the snapshot engine -/

theorem keepsReg_snapStatus_of {x h : Nat} (hst : x ≠ snapReg h + 4) (hstat : x ≠ snapPage + 0x104) : KeepsReg x (snapStatus h) :=
  keeps_look fun _ => keeps_seq_cons (keepsReg_wrFld hst ..) (keeps_seq_cons (keepsReg_wrBit hstat ..)
    (keeps_seq_cons (keepsReg_wrBit hstat ..) (keeps_seq_cons (keepsReg_wrBit hstat ..) keeps_seq_nil)))

/-- A ring's pointers lie in a function page, below the pages of the snapshot engine. -/
theorem ptrReg_low (c : CmdId) : ptrReg c < 0x1C0000 := by
  have hf := c.fn.isLt
  have hk := c.ring.isLt
  unfold ptrReg crBase fnPageOf
  omega

theorem ptrReg_ne_snap (c : CmdId) (h o : Nat) : ptrReg c ≠ snapReg h + o ∧ ptrReg c ≠ snapPage + o := by
  have := ptrReg_low c
  unfold snapReg snapPage
  omega

theorem keepsReg_snapStatus_ptr (c : CmdId) (h : Nat) : KeepsReg (ptrReg c) (snapStatus h) :=
  keepsReg_snapStatus_of (ptrReg_ne_snap c h _).1 (ptrReg_ne_snap c h _).2

theorem rd_fetched_snap (c : CmdId) (s : State) (h o : Nat) : rd (fetched c s) (snapReg h + o) = rd s (snapReg h + o) :=
  rd_fetched c s (ptrReg_ne_snap c h o).1.symm

theorem snapOf_fetched (c : CmdId) (s : State) (h : Nat) : snapOf (fetched c s) h = snapOf s h :=
  snapOf_of_snap (onlyIn_fetched c s .snap rfl) h

/-- The parts that a command that ends may change. -/
abbrev endParts : List Part := [.ctl, .busyRing, .completions, .fnTurn, .out]

/-! ## A command that works, and then ends (R511) -/

section

variable {s : State} {c : CmdId} {a : Act} {ps : List Part} (hw : Within ps a) (hk : KeepsReg (ptrReg c) a)
include hw hk

/-- The fetch, some work, and the completion. -/
theorem answered_after (status : Nat) (result : DWord) (hb : ps.contains .busyRing = false := by rfl)
    (ht : ps.contains .fnTurn = false := by rfl) (hc : ps.contains .completions = false := by rfl) :
    Answered s (after (complete c status result) (after a (fetched c s))) c status result :=
  answered_of (Fetched.of_act (hw.onlyIn _) (hk.rd _) hb ht) ((hw.completions _ hc).trans (completions_fetched c s)) _ _

/-- A command that is fetched at once, works and is answered. -/
theorem does_worked (hs : Ready s) {cmd : Instr} {act : Act} (hc : exec cmd s = run act s) {status : Nat} {result : DWord}
    (hb : after act s = after (complete c status result) (after a (fetched c s))) {qs : List Part} {P : State → Prop}
    (hP : ∀ t, OnlyIn [.completions] (after a (fetched c s)) t → P t)
    (hcov : covers qs ps = true := by rfl) (hend : covers qs endParts = true := by rfl) (hbusy : ps.contains .busyRing = false := by rfl)
    (hturn : ps.contains .fnTurn = false := by rfl) (hcomp : ps.contains .completions = false := by rfl) :
    Does cmd s qs fun t => Answered s t c status result ∧ P t := by
  refine does_of_run hs.1 hc ?_ ?_ <;> rw [hb]
  · have h1 : OnlyIn qs s (fetched c s) := (onlyIn_fetched c s).wider (covers_trans hend rfl)
    exact (h1.trans ((hw.wider hcov).onlyIn _)).trans ((onlyIn_complete c status result _).wider (covers_trans hend rfl))
  · exact ⟨answered_after hw hk status result hbusy hturn hcomp, hP _ (onlyIn_complete c status result _)⟩

/-- A command that is fetched, and works, its completion still to come. -/
theorem does_begun (hs : Ready s) {cmd : Instr} {act : Act} (hc : exec cmd s = run act s) (hb : after act s = after a (fetched c s))
    {qs : List Part} {P : State → Prop} (hP : P (after a (fetched c s)))
    (hcov : covers qs ps = true := by rfl) (hend : covers qs [.ctl, .busyRing, .fnTurn, .out] = true := by rfl)
    (hbusy : ps.contains .busyRing = false := by rfl) (hturn : ps.contains .fnTurn = false := by rfl) :
    Does cmd s qs fun t => Fetched s t c ∧ P t := by
  refine does_of_run hs.1 hc ?_ ?_ <;> rw [hb]
  · exact ((onlyIn_fetched c s).wider hend).trans ((hw.wider hcov).onlyIn _)
  · exact ⟨Fetched.of_act (hw.onlyIn _) (hk.rd _) hbusy hturn, hP⟩

end

/-! ## SNAP_MTBF (R556) -/

/-- What SNAP_MTBF writes. -/
def writeMtbf (h : Nat) (mf : Word) (w : Byte) (reset : Bool) : Act :=
  seq [wr (snapReg h + 0x20) mf, wrFld (snapReg h + 0x28) 23 16 w.toNat,
    act reset (seq [wr (snapReg h + 0x24) 0, wrFld (snapReg h + 0x28) 15 0 0])]

theorem within_writeMtbf (h : Nat) (mf : Word) (w : Byte) (reset : Bool) : Within [.ctl] (writeMtbf h mf w reset) :=
  within_seq_cons (within_wr ..) <| within_seq_cons (within_wrFld ..) <| within_seq_cons (within_act <| within_seq_cons (within_wr ..) <|
    within_seq_cons (within_wrFld ..) within_seq_nil) within_seq_nil

theorem keepsReg_writeMtbf {h x : Nat} (hx : ∀ o, x ≠ snapReg h + o) (mf : Word) (w : Byte) (reset : Bool) : KeepsReg x (writeMtbf h mf w reset) :=
  keeps_seq_cons (keepsReg_wr (hx _) _) <| keeps_seq_cons (keepsReg_wrFld (hx _) ..) <| keeps_seq_cons (keeps_act fun _ =>
    keeps_seq_cons (keepsReg_wr (hx _) _) <| keeps_seq_cons (keepsReg_wrFld (hx _) ..) keeps_seq_nil) keeps_seq_nil

theorem rd_after_writeMtbf (h : Nat) (mf : Word) (w : Byte) (reset : Bool) (s : State) :
    rd (after (writeMtbf h mf w reset) s) (snapReg h + 0x20) = mf ∧
      fld (rd (after (writeMtbf h mf w reset) s) (snapReg h + 0x28)) 23 16 = w.toNat ∧
      rd (after (writeMtbf h mf w reset) s) (snapReg h + 0x24) = (if reset then 0 else rd s (snapReg h + 0x24)) ∧
      fld (rd (after (writeMtbf h mf w reset) s) (snapReg h + 0x28)) 15 0 = (if reset then 0 else fld (rd s (snapReg h + 0x28)) 15 0) := by
  have hw : w.toNat % 256 = w.toNat := Nat.mod_eq_of_lt w.isLt
  have hset (v : Word) : fld (setFld v 23 16 w.toNat) 23 16 = w.toNat := (fld_setFld (hi := 23) (lo := 16) v (by decide) (by decide) _).trans hw
  rw [writeMtbf, after_seq_cons, after_seq_cons, after_seq_cons, after_seq_nil, after_act, after_wr, after_wrFld]
  cases reset
  · rw [if_neg Bool.false_ne_true, if_neg Bool.false_ne_true, if_neg Bool.false_ne_true]
    simp (disch := omega) only [rd_ctl_same, rd_ctl_other, hset]
    exact ⟨trivial, trivial, trivial, fld_setFld_other _ (by decide) (by decide) (.inl (by decide)) _⟩
  · rw [if_pos rfl, if_pos rfl, if_pos rfl, after_seq_cons, after_seq_cons, after_seq_nil, after_wr, after_wrFld]
    simp (disch := omega) only [rd_ctl_same, rd_ctl_other]
    refine ⟨trivial, ?_, trivial, fld_setFld (hi := 15) (lo := 0) _ (by decide) (by decide) _⟩
    rw [fld_setFld_other _ (by decide) (by decide) (.inr (by decide)), hset]

end Sys2Proof.Machine
end

section
/-! The snapshot commands of a herd, settled (R535, R536, R540, R544, R554, R556, R570). -/

namespace Sys2Proof.Machine

-- One declaration after the other: elaborated side by side they take more memory than the check has.
set_option Elab.async false

/-! ## SNAP_CFG (R535, R536) -/

theorem podCfg_fetched (c : CmdId) (s : State) : podCfg (fetched c s) = podCfg s := by
  have hptr := ptrReg_pos c
  exact rd_fetched c s (by unfold bxPage; omega)

theorem cfgBad_fetched (c : CmdId) (s : State) (h : Nat) (p : SnapParams) (bs : List Byte) : cfgBad (fetched c s) h p bs = cfgBad s h p bs := by
  have hsp := sameSpace_fetched c s
  have hforeign : plForeign (fetched c s) h = plForeign s h := funext fun e => by
    simp only [plForeign, hsp.table.homeEntry, hsp.entryFrozen]
  have hpod : podEn (fetched c s) = podEn s := by rw [podEn, podEn, podCfg_fetched]
  have haxis (a : Nat) : axisSize (fetched c s) a = axisSize s a := by rw [axisSize, axisSize, podCfg_fetched]
  simp only [cfgBad, hforeign, hpod, haxis, herdOf_fetched]

/-- What SNAP_CFG reads and installs. -/
def installCfg (p : SnapParams) (h : Nat) (es : List SnapEntry) (region : Option Nat) : Act :=
  seq [urReadActs h p.list.toNat (32 * p.entries) .ring, each es (frozenReads h),
    setSnap h (fun x => { x with
      params := some p, entries := es, now := false, cap := none, capMirror := false, half := 0, gen := none, retained := none,
      mirrorOut := [], region := region }),
    wr (snapReg h) (BitVec.ofNat 32 (0x80000000 * b2n p.en + 0x40000000 * b2n p.pcie + 0x10000000 * p.baxis.val +
      0x4000000 * p.raxis.val + p.kmax)),
    snapStatus h]

theorem within_installCfg (p : SnapParams) (h : Nat) (es : List SnapEntry) (region : Option Nat) :
    Within [.ctl, .mem, .chk, .touched, .mergeBuf, .snap, .dumpRun, .freeCtr, .out] (installCfg p h es region) :=
  within_seq_cons ((within_urReadActs ..).wider rfl) <| within_seq_cons (within_each fun _ => (within_frozenReads ..).wider rfl) <|
    within_seq_cons ((within_setSnap ..).wider rfl) <| within_seq_cons ((within_wr ..).wider rfl) <|
    within_seq_cons ((within_snapStatus ..).wider rfl) within_seq_nil

theorem memWrites_frozenReads (h : Nat) (e : SnapEntry) : MemWrites (frozenReads h e) :=
  memWrites_look fun _ => MemWrites.act (memWrites_each fun _ _ => memWrites_tableRead ..) _

theorem keepsReg_installCfg (p : SnapParams) (h : Nat) (es : List SnapEntry) (region : Option Nat) (c : CmdId) :
    KeepsReg (ptrReg c) (installCfg p h es region) := by
  have hmem : ptrReg c / 4096 * 4096 ∉ memPages := not_memPages (.inr (.inr (.inr (by
    have := ptrReg_pos c
    have hm : migPage 0 = 0x140000 := rfl
    omega))))
  exact keeps_seq_cons ((memWrites_urReadActs ..).keeps hmem) <| keeps_seq_cons (keeps_each fun _ _ => (memWrites_frozenReads ..).keeps hmem) <|
    keeps_seq_cons (keepsReg_setSnap ..) <| keeps_seq_cons (keepsReg_wr (ptrReg_ne_snap c h 0).1 _) <|
    keeps_seq_cons (keepsReg_snapStatus_ptr ..) keeps_seq_nil

theorem after_actSnapCfg {s : State} {c : CmdId} {h : Nat} {x : Herd} (hr : CommandRuns s c h x) {p : SnapParams} {bs : List Byte}
    (hcur : (snapOf s h).cur = none) (hn : p.entries ≤ 4096) (hl : readList s h p.list.toNat p.entries = .ok bs) :
    after (actSnapCfg c p) s = if cfgBad s h p bs then after (complete c 2 0) (fetched c s) else
      if (decide (p.baxis.val ≠ 3) && ((mirrorRegion s h p.mquota).isNone || decide (p.mquota / 2 <
        (((plPieces bs p.entries).map parseEntry).filter (fun e => decide (e.method = 2) && !entryFrozen s e)).foldl (fun n e => n + e.npages) 0)))
      then after (complete c 1 0) (fetched c s)
      else after (complete c 0 (BitVec.ofNat 64 p.entries)) (after (installCfg p h ((plPieces bs p.entries).map parseEntry)
        (if p.baxis.val = 3 then none else mirrorRegion s h p.mquota)) (fetched c s)) := by
  obtain ⟨-, hres, hready, hfn, -, -, -, hbusy, -⟩ := id hr
  have hsp := sameSpace_fetched c s
  have hsnap : (fetched c s).snap = s.snap := onlyIn_fetched c s .snap rfl
  have hregion : mirrorRegion (fetched c s) h p.mquota = mirrorRegion s h p.mquota := by rw [mirrorRegion, mirrorRegion, hsnap]
  have hlist : readList (fetched c s) h p.list.toNat p.entries = .ok bs := by rw [readList, hsp.urRead, ← readList, hl]
  have hwait : ¬ readList s h p.list.toNat p.entries = .wait := by
    rw [hl]
    exact nofun
  rw [actSnapCfg, after_look, hfn, Option.any_some, hbusy, decide_eq_false hwait, Bool.or_false, Bool.and_false, after_ite,
    if_neg Bool.false_ne_true, after_hostCmd hready, hres, if_neg Bool.false_ne_true, after_ownHerd hr, after_look]
  dsimp only
  rw [herdMembers_fetched hr, List.isEmpty_nil, if_pos rfl, spread, after_look, after_ite, if_pos List.isEmpty_nil, cfgBody, after_look]
  dsimp only
  rw [snapOf_fetched, hcur, Option.isSome_none, after_ite, if_neg Bool.false_ne_true, after_ite, if_neg (by omega), hlist]
  dsimp only
  rw [after_ite, cfgBad_fetched, hregion, after_ite]
  simp only [hsp.entryFrozen]
  rw [installCfg, after_seq_cons, after_seq_cons, after_seq_cons, after_seq_cons, after_seq_cons, after_seq_cons, after_seq_nil,
    after_seq_cons, after_seq_cons, after_seq_cons, after_seq_cons, after_seq_cons, after_seq_nil]
  rfl

/-- SNAP_HCTRLh as SNAP_CFG writes it shows whether snapshots are enabled. -/
theorem bit_cfgWord (en pcie : Bool) {b r k : Nat} (hb : b < 4) (hr : r < 4) (hk : k < 65536) :
    bit (BitVec.ofNat 32 (0x80000000 * b2n en + 0x40000000 * b2n pcie + 0x10000000 * b + 0x4000000 * r + k)) 31 = en := by
  have hp : b2n pcie ≤ 1 := by cases pcie <;> decide
  rw [bit_ofNat 32 _ 31, decide_eq_true (by decide), Bool.true_and, Nat.testBit_eq_decide_div_mod_eq]
  cases en
  · have h0 : b2n false = 0 := rfl
    rw [h0, decide_eq_false (by omega)]
  · have h1 : b2n true = 1 := rfl
    rw [h1, decide_eq_true (by omega)]

theorem kmax_of_cfgBad {s : State} {h : Nat} {p : SnapParams} {bs : List Byte} (hbad : cfgBad s h p bs = false) : p.kmax < 65536 := by
  simp only [cfgBad, Bool.or_eq_false_iff, decide_eq_false_iff_not] at hbad
  omega

theorem installed (c : CmdId) (s : State) {p : SnapParams} {h : Nat} (hk : p.kmax < 65536) (es : List SnapEntry) (region : Option Nat) :
    snapEn (after (installCfg p h es region) (fetched c s)) h = p.en ∧ SnapIs s (after (installCfg p h es region) (fetched c s)) h { snapOf s h with
      params := some p, entries := es, now := false, cap := none, capMirror := false, half := 0, gen := none, retained := none,
      mirrorOut := [], region := region } := by
  rw [installCfg, after_seq_cons, after_seq_cons, after_seq_cons, after_seq_cons, after_seq_cons, after_seq_nil]
  have hread (t : State) : (after (each es (frozenReads h)) (after (urReadActs h p.list.toNat (32 * p.entries) .ring) t)).snap = t.snap :=
    ((within_each fun _ => within_frozenReads ..).snap _).trans ((within_urReadActs ..).snap _)
  have hpre : (after (each es (frozenReads h)) (after (urReadActs h p.list.toNat (32 * p.entries) .ring) (fetched c s))).snap = s.snap :=
    (hread _).trans (onlyIn_fetched c s .snap rfl)
  generalize after (each es (frozenReads h)) (after (urReadActs h p.list.toNat (32 * p.entries) .ring) (fetched c s)) = u at hpre ⊢
  constructor
  · rw [snapEn, (keepsReg_snapStatus_of (by omega) (by unfold snapReg; omega)).rd, after_wr, rd_ctl_same]
    exact bit_cfgWord _ _ p.baxis.isLt p.raxis.isLt hk
  · have hin := snapIs_after_setSnap h (fun x => { x with
      params := some p, entries := es, now := false, cap := none, capMirror := false, half := 0, gen := none, retained := none,
      mirrorOut := [], region := region }) u
    rw [snapOf_of_snap hpre] at hin
    exact hin.of_snap hpre (((within_snapStatus h).snap _).trans ((within_wr ..).snap _))

/-! ## The other commands -/

/-- What SNAP_OFF does when nothing is in progress. -/
def stopSnapshots (h : Nat) : Act := seq [setSnap h (fun x => { x with now := false }), wrBit (snapReg h) 31 false, snapStatus h]

theorem within_stopSnapshots (h : Nat) : Within [.ctl, .snap] (stopSnapshots h) :=
  within_seq_cons ((within_setSnap ..).wider rfl) <| within_seq_cons ((within_wrBit ..).wider rfl) <|
    within_seq_cons ((within_snapStatus ..).wider rfl) within_seq_nil

theorem keepsReg_stopSnapshots (h : Nat) (c : CmdId) : KeepsReg (ptrReg c) (stopSnapshots h) :=
  keeps_seq_cons (keepsReg_setSnap ..) <| keeps_seq_cons (keepsReg_wrBit (ptrReg_ne_snap c h 0).1 ..) <|
    keeps_seq_cons (keepsReg_snapStatus_ptr ..) keeps_seq_nil

theorem after_abandonAll_idle {s : State} {h : Nat} (hcur : (snapOf s h).cur = none) (hm : (snapOf s h).capMirror = false) :
    after (abandonAll h) s = s := by
  rw [abandonAll, after_look]
  dsimp only
  rw [hcur]
  dsimp only
  rw [hm]
  exact after_nop s

theorem after_offBody {s : State} {h : Nat} (hcur : (snapOf s h).cur = none) (hm : (snapOf s h).capMirror = false) (c : CmdId) :
    after (offBody (.host c) h) s = after (complete c 0 0) (after (stopSnapshots h) s) := by
  rw [offBody, after_seq_cons, after_abandonAll_idle hcur hm, after_seq_cons, after_seq_cons, after_seq_cons, after_seq_cons, after_seq_nil,
    stopSnapshots, after_seq_cons, after_seq_cons, after_seq_cons, after_seq_nil]
  rfl

theorem stopped (c : CmdId) (s : State) (h : Nat) : snapEn (after (stopSnapshots h) (fetched c s)) h = false ∧
    SnapIs s (after (stopSnapshots h) (fetched c s)) h { snapOf s h with now := false } := by
  have hpre : (fetched c s).snap = s.snap := onlyIn_fetched c s .snap rfl
  rw [stopSnapshots, after_seq_cons, after_seq_cons, after_seq_cons, after_seq_nil]
  constructor
  · rw [snapEn, (keepsReg_snapStatus_of (by omega) (by unfold snapReg; omega)).rd, after_wrBit, rd_ctl_same]
    exact bit_setBit_same _ (by decide) _
  · have hin := snapIs_after_setSnap h (fun x => { x with now := false }) (fetched c s)
    rw [snapOf_of_snap hpre] at hin
    exact hin.of_snap hpre (((within_snapStatus h).snap _).trans ((within_wrBit ..).snap _))

theorem restore_after_askRestore (h : Nat) (r : Restore) (s : State) : (snapOf (after (askRestore h r) s) h).restore = some r := by
  rw [askRestore, after_seq_cons, after_seq_cons, after_seq_cons, after_seq_nil, snapOf_of_snap ((within_snapStatus h).snap _), after_setSnap,
    snapOf_after_one]

theorem keepsReg_askRestore (h : Nat) (r : Restore) (c : CmdId) : KeepsReg (ptrReg c) (askRestore h r) :=
  keeps_seq_cons ((within_dropSnapshot h).keepsReg _) <| keeps_seq_cons (keepsReg_setSnap ..) <|
    keeps_seq_cons (keepsReg_snapStatus_ptr ..) keeps_seq_nil

theorem herdSites_fetched (c : CmdId) (s : State) (h : Nat) : herdSites (fetched c s) h = herdSites s h := by
  rw [herdSites, herdSites, herdOf_fetched]

/-- A core's registers lie beyond the function pages. -/
theorem rd_fetched_core (c : CmdId) (s : State) {x : Nat} (hx : 0x1000000 ≤ x) : rd (fetched c s) x = rd s x :=
  rd_fetched c s (by have := ptrReg_low c; omega)

theorem coreState_fetched (c : CmdId) (s : State) (d : Nat) : coreState (fetched c s) d = coreState s d := by
  rw [coreState, coreState, rd_fetched_core c s (by unfold seqPage sitePage; omega)]

theorem runStep_fetched (c : CmdId) (s : State) (h : Nat) : runStep (fetched c s) h = runStep s h := by
  have hsite : siteAt (fetched c s) h 0 = siteAt s h 0 := by rw [siteAt, siteAt, herdSites_fetched]
  have hidx (d : Nat) : rd64 (fetched c s) (vuPage d + 0x820) = rd64 s (vuPage d + 0x820) := by
    rw [rd64, rd64, rd_fetched_core c s (by unfold vuPage sitePage; omega), rd_fetched_core c s (by unfold vuPage sitePage; omega)]
  simp only [runStep, hsite, hidx]

theorem after_actSnapFetch {s : State} {c : CmdId} {h : Nat} {x : Herd} (hr : CommandRuns s c h x) {store dest : DWord} {n : Nat}
    (ha : (areaJudged s h dest.toNat n).all writablePage = true) (hn : 0 < n) (hmax : n < 4294967296) :
    after (actSnapFetch c store dest n) s =
      after (setSnap h (fun x => { x with fetch := some ⟨.host c, store.toNat, dest.toNat, n, 0⟩ })) (fetched c s) := by
  obtain ⟨-, hres, hready, hfn, -, -, -, hbusy, -⟩ := id hr
  have hw : (areaJudged s h dest.toNat n).contains .waits = false := by
    cases hc : (areaJudged s h dest.toNat n).contains .waits with
    | false => rfl
    | true => exact absurd (List.all_eq_true.mp ha _ (List.contains_iff_mem.mp hc)) (by decide)
  rw [actSnapFetch, after_look, hfn, Option.any_some, hw, Bool.and_false, after_ite, if_neg Bool.false_ne_true, after_herdCmd hr, fetchBody,
    after_look, after_ite, (sameSpace_fetched c s).areaJudged, ha, if_neg]
  simp only [Bool.not_true, Bool.false_eq_true, or_false]
  omega

/-- Settles O49: each command is fetched, works on the herd's snapshot state and its registers, and is answered. -/
theorem snapshotCommands : Obligations.SnapshotCommands := by
  unfold Obligations.SnapshotCommands
  intro s hs c h x hr
  have hsnap : (fetched c s).snap = s.snap := onlyIn_fetched c s .snap rfl
  refine ⟨fun p bs hcur hn hl => ⟨fun hbad => ?_, fun hbad hax => ?_⟩, fun mf w reset => ?_, fun hen => ?_, fun hen => ?_, ?_, fun hcur hm => ?_,
    fun base slot => ⟨fun hidle => ?_, fun hbusy => ?_⟩, fun store dest n ha hn hmax => ?_⟩
  · have e := after_actSnapCfg hr hcur hn hl
    rw [hbad, if_pos rfl] at e
    refine does_of_run hs.1 rfl ?_ ?_ <;> rw [e]
    · exact does_complete.1
    · exact does_complete.2
  · have e := after_actSnapCfg hr hcur hn hl
    rw [hbad, if_neg Bool.false_ne_true, decide_eq_false (not_not_intro hax), Bool.false_and, if_neg Bool.false_ne_true, if_pos hax] at e
    refine does_worked (a := installCfg p h ((plPieces bs p.entries).map parseEntry) none) (within_installCfg ..) (keepsReg_installCfg ..) hs
      (act := actSnapCfg c p) rfl e fun t ht => ?_
    obtain ⟨hen, hin⟩ := installed c s (kmax_of_cfgBad hbad) ((plPieces bs p.entries).map parseEntry) none (h := h)
    have hctl : t.ctl = _ := ht .ctl rfl
    have hts : t.snap = _ := ht .snap rfl
    exact ⟨by rw [← hen, snapEn, snapEn, rd, rd, hctl], hin.of_snap rfl hts⟩
  · refine does_worked (a := writeMtbf h mf w reset) (within_writeMtbf ..) (keepsReg_writeMtbf (fun o => (ptrReg_ne_snap c h o).1) ..) hs
      (act := actSnapMtbf c mf w reset) rfl ?_ fun t ht => ?_
    · rw [actSnapMtbf, after_herdCmd hr, mtbfBody, after_seq_cons, after_seq_cons, after_seq_cons, after_seq_cons, after_seq_nil, writeMtbf,
        after_seq_cons, after_seq_cons, after_seq_cons, after_seq_nil]
      rfl
    · have hctl : t.ctl = _ := ht .ctl rfl
      have hrd (a : Nat) : rd t a = rd (after (writeMtbf h mf w reset) (fetched c s)) a := by rw [rd, rd, hctl]
      obtain ⟨h1, h2, h3, h4⟩ := rd_after_writeMtbf h mf w reset (fetched c s)
      rw [rd_fetched_snap] at h3 h4
      exact ⟨(hrd _).trans h1, by rw [hrd, h2], (hrd _).trans h3, by rw [hrd, h4]⟩
  · refine does_worked (a := setSnap h (fun x => { x with now := true })) (within_setSnap ..) (keepsReg_setSnap ..) hs (act := actSnapNow c) rfl ?_
      fun t ht => ?_
    · have hen' : snapEn (fetched c s) h = true := by rw [snapEn, show snapReg h = snapReg h + 0 from rfl, rd_fetched_snap]; exact hen
      rw [actSnapNow, after_herdCmd hr, nowBody, after_look, after_ite, if_pos hen', after_seq_cons, after_seq_cons, after_seq_nil, runStep_fetched]
      rfl
    · have hin := snapIs_after_setSnap h (fun x => { x with now := true }) (fetched c s)
      rw [snapOf_fetched] at hin
      have hts : t.snap = _ := ht .snap rfl
      exact hin.of_snap hsnap hts
  · have hen' : snapEn (fetched c s) h = false := by rw [snapEn, show snapReg h = snapReg h + 0 from rfl, rd_fetched_snap]; exact hen
    refine does_refused hr hs rfl ?_
    rw [nowBody, after_look, after_ite, if_neg (by rw [hen']; exact Bool.false_ne_true)]
    rfl
  · refine does_refused hr hs rfl ?_
    have hlast : snapLast (fetched c s) h = snapLast s h := by
      rw [snapLast, snapLast, rd64, rd64, rd_fetched_snap, Nat.add_assoc, rd_fetched_snap]
    rw [statBody, after_look, hlast]
    rfl
  · refine does_worked (a := stopSnapshots h) (within_stopSnapshots h) (keepsReg_stopSnapshots ..) hs (act := actSnapOff c) rfl ?_ fun t ht => ?_
    · rw [actSnapOff, after_herdCmd hr, after_offBody (by rw [snapOf_fetched, hcur]) (by rw [snapOf_fetched, hm])]
    · obtain ⟨hen, hin⟩ := stopped c s h
      have hctl : t.ctl = _ := ht .ctl rfl
      have hts : t.snap = _ := ht .snap rfl
      exact ⟨by rw [← hen, snapEn, snapEn, rd, rd, hctl], hin.of_snap rfl hts⟩
  · refine does_begun (a := askRestore h ⟨some (.host c), false, none, base.toNat, slot.val, 1, true, none, none, [], []⟩) (within_askRestore ..)
      (keepsReg_askRestore ..) hs (act := actSnapRestore c base slot) rfl ?_ (restore_after_askRestore ..)
    have hsites : herdSites s h = x.sites := by rw [herdSites, hr.2.2.2.2.1]; rfl
    rw [actSnapRestore, after_herdCmd hr, restoreBody, after_look, after_ite, if_pos]
    rw [Bool.or_eq_true]
    refine .inr (List.all_eq_true.mpr fun d hd => ?_)
    rw [herdSites_fetched, hsites] at hd
    rw [coreState_fetched, hidle d hd]
    rfl
  · refine does_refused hr hs rfl ?_
    have hsites : herdSites s h = x.sites := by rw [herdSites, hr.2.2.2.2.1]; rfl
    rw [restoreBody, after_look, after_ite, if_neg]
    · rfl
    · obtain ⟨d, hd, hne⟩ := hbusy
      obtain ⟨-, -, -, -, hof, hfail, -⟩ := hr
      rw [herdOf_fetched, hof, Option.any_some, hfail, Bool.false_or, List.all_eq_true]
      exact fun hall => hne (by
        have hd' := hall d (by rw [herdSites_fetched, hsites]; exact hd)
        rw [coreState_fetched] at hd'
        exact of_decide_eq_true hd')
  · have hin := snapIs_after_setSnap h (fun x => { x with fetch := some ⟨.host c, store.toNat, dest.toNat, n, 0⟩ }) (fetched c s)
    rw [snapOf_fetched] at hin
    exact does_begun (a := setSnap h (fun x => { x with fetch := some ⟨.host c, store.toNat, dest.toNat, n, 0⟩ })) (within_setSnap ..)
      (keepsReg_setSnap ..) hs (act := actSnapFetch c store dest n) rfl (after_actSnapFetch hr ha hn hmax) (hin.of_snap hsnap rfl)

end Sys2Proof.Machine
end

section
/-! HERD_CREATE on a device whose table of groups has an uncorrectable block (R317, R394, R438, R519). -/

namespace Sys2Proof.Machine

-- One declaration after the other: elaborated side by side they take more memory than the check has.
set_option Elab.async false

/-! ## Cores that enter a herd write their own pages alone (R100) -/

theorem mGet_mMap_kept {α : Type} {m : List (Nat × α)} {f : Nat → α → Option α} {k : Nat} (hf : ∀ v, f k v = some v) :
    mGet (mMap m f) k = mGet m k := by
  induction m with
  | nil => rfl
  | cons q m ih =>
    rw [mMap, List.filterMap_cons, mGet]
    by_cases hk : k = q.1
    · rw [if_pos hk, ← hk, hf, Option.map_some]
      exact if_pos rfl
    · rw [if_neg hk, ← ih]
      cases f q.1 q.2 with
      | none => rfl
      | some v => exact if_neg hk

theorem keepsReg_ctlReset {lo hi x : Nat} (hx : x < lo ∨ hi ≤ x) : KeepsReg x (one (.ctlReset lo hi)) := ⟨fun s => by
  have hout : ¬ (decide (lo ≤ x) && decide (x < hi)) = true := by
    simp only [Bool.and_eq_true, decide_eq_true_eq]
    omega
  have hk : mGet (after (one (.ctlReset lo hi)) s).ctl x = mGet s.ctl x :=
    mGet_mMap_kept (f := fun a w => if decide (lo ≤ a) && decide (a < hi) then resetOne a w else some w) fun v => if_neg hout
  rw [rd, rd, mGetD, mGetD, hk]⟩

/-- The act writes no register of the control window. -/
structure HighWrites (a : Act) : Prop where
  keeps : ∀ x, x < 0x1000000 → KeepsReg x a

theorem highWrites_nil : HighWrites (seq []) := ⟨fun _ _ => keeps_seq_nil⟩

theorem HighWrites.cons {a : Act} {as : List Act} (ha : HighWrites a) (has : HighWrites (seq as)) : HighWrites (seq (a :: as)) :=
  ⟨fun x hx => keeps_seq_cons (ha.keeps x hx) (has.keeps x hx)⟩

theorem highWrites_look {g : State → Act} (h : ∀ s, HighWrites (g s)) : HighWrites (look g) := ⟨fun x hx => keeps_look fun s => (h s).keeps x hx⟩

theorem highWrites_each {α : Type} {xs : List α} {g : α → Act} (h : ∀ y, HighWrites (g y)) : HighWrites (each xs g) :=
  ⟨fun x hx => keeps_each fun y _ => (h y).keeps x hx⟩

theorem Within.highWrites {ps : List Part} {a : Act} (h : Within ps a) (hp : ps.contains .ctl = false := by rfl) : HighWrites a :=
  ⟨fun x _ => h.keepsReg x hp⟩

theorem highWrites_wr {a : Nat} (h : 0x1000000 ≤ a) (v : Word) : HighWrites (wr a v) := ⟨fun _ _ => keepsReg_wr (by omega) v⟩

theorem highWrites_ctlReset {lo hi : Nat} (h : 0x1000000 ≤ lo) : HighWrites (one (.ctlReset lo hi)) := ⟨fun _ _ => keepsReg_ctlReset (by omega)⟩

theorem highWrites_withdraw (t f i : Nat) : HighWrites (withdraw t f i) :=
  .cons (within_setCore ..).highWrites <| .cons (highWrites_look fun _ => ⟨fun _ hx => keeps_act fun _ =>
    (highWrites_wr (by unfold tlyPage sitePage; omega) _).keeps _ hx⟩) highWrites_nil

theorem highWrites_clearTallies (site : Nat) : HighWrites (clearTallies site) := by
  refine highWrites_look fun s => .cons ?_ <| .cons (highWrites_ctlReset (by unfold tlyPage sitePage; omega)) <|
    .cons (within_setCore ..).highWrites highWrites_nil
  refine ⟨fun x hx => keeps_ite (fun _ => keeps_nop) fun _ => ?_⟩
  split
  · split
    · exact keeps_each fun j _ => (highWrites_withdraw ..).keeps x hx
    · exact keeps_nop
  · exact keeps_nop

theorem highWrites_clearCore (site : Nat) : HighWrites (clearCore site) := by
  have hq : 0x1000000 ≤ seqPage site ∧ 0x1000000 ≤ tilePage site ∧ 0x1000000 ≤ cubePage site ∧ 0x1000000 ≤ vuPage site ∧
      0x1000000 ≤ mvPage site := by
    unfold seqPage tilePage cubePage vuPage mvPage sitePage
    omega
  obtain ⟨hseq, htile, hcube, hvu, hmv⟩ := hq
  have hone {u : Upd} {p : Part} (h : u.part = p) (hp : [p].contains .ctl = false := by rfl) : HighWrites (one u) :=
    Within.highWrites (ps := [p]) (within_one (by rw [h]; cases p <;> rfl)) hp
  exact .cons (highWrites_clearTallies site) <| .cons (within_stClear site).highWrites <| .cons (within_rodClear site).highWrites <|
    .cons (hone rfl) <| .cons (hone rfl) <| .cons (highWrites_ctlReset (by omega)) <| .cons (highWrites_ctlReset (by omega)) <|
    .cons (highWrites_ctlReset (by omega)) <| .cons (highWrites_wr (by omega) 0) <| .cons (highWrites_wr (by omega) 0) <|
    .cons (highWrites_ctlReset (by omega)) <| .cons (highWrites_ctlReset (by omega)) <| .cons (highWrites_ctlReset (by omega)) <|
    .cons (highWrites_ctlReset (by omega)) <| .cons (within_setCore ..).highWrites <|
    .cons (highWrites_look fun _ => ⟨fun _ _ => keepsReg_wrBit (by omega) ..⟩) highWrites_nil

theorem highWrites_assignCore (h site i last : Nat) : HighWrites (assignCore h site i last) :=
  .cons (highWrites_wr (by unfold corePage sitePage; omega) _) <|
    .cons ⟨fun _ _ => keepsReg_wrFld (by unfold seqPage sitePage; omega) ..⟩ highWrites_nil

theorem highWrites_enterCores (h : Nat) (sites : List Nat) : HighWrites (enterCores h sites) :=
  .cons (highWrites_each highWrites_clearCore) <| .cons (highWrites_each fun _ => highWrites_assignCore ..) highWrites_nil

/-! ## A lost write of a table (R394, R401, R438) -/

/-- A fatal event starts a dump where MGT_DUMP_AUTO.on_fatal is 1 and none is busy. -/
theorem dumpRun_after_raise_fatal {s : State} {p : Nat} {c : Capture} (hc : c.cls = .uncorrFatal) (hp : p / 4096 ≠ 4) (h0 : p % 4096 = 0)
    (hauto : bit (rd s 0x4108) 0 = true) (hbusy : bit (rd s 0x4100) 30 = false) : (after (raise p c) s).dumpRun.isSome = true := by
  have hfree (u : State) (hu : ∀ x, x / 4096 = 4 → rd u x = rd s x) : (after (autoDump c.cls) u).dumpRun.isSome = true := by
    rw [autoDump, after_look, after_ite, hu _ rfl, hu _ rfl, hauto, hbusy, hc, if_pos (by decide), after_seq_cons, after_seq_cons, after_seq_nil]
    rfl
  rw [raise, after_look]
  dsimp only
  rw [after_seq_cons, after_seq_cons, after_seq_cons, after_seq_nil]
  refine hfree _ fun x hx => ?_
  have hwr {o : Nat} (ho : o < 4096) (v : Word) : KeepsReg x (wr (p + o) v) := keepsReg_wr (by omega) v
  refine (Keeps.eq (keeps_ite (fun _ => keepsReg_wrBit (by omega) ..) fun _ => ?_) _).trans ((keepsReg_setIst (by omega) _).rd s)
  exact keeps_seq_cons (hwr (by decide) _) <| keeps_seq_cons (hwr (by decide) _) <| keeps_seq_cons (hwr (by decide) _) <|
    keeps_seq_cons (hwr (by decide) _) <| keeps_seq_cons (hwr (by decide) _) <| keeps_seq_cons (hwr (by decide) _) <|
    keeps_seq_cons (hwr (by decide) _) <| keeps_seq_cons (hwr (by decide) _) <|
    keeps_seq_cons (keeps_act fun _ => Within.keepsReg (ps := [.freeCtr]) (within_takeFree _) _) keeps_seq_nil

/-- A write of table bytes that meets a poisoned block of the table region is lost, which is fatal. -/
theorem dumpRun_after_lostPut {s : State} {a n v : Nat} (hm : s.mergeBuf = []) (hp : poisoned s (a / 64) = true)
    (hclass : uncorrClass s (a / 64) = .uncorrFatal) (hauto : bit (rd s 0x4108) 0 = true) (hbusy : bit (rd s 0x4100) 30 = false) :
    (after (tablePut a n v) s).dumpRun.isSome = true := by
  have hretire : after (retireFor (a / 64)) s = s := by
    rw [retireFor, after_look, mergeOf, hm]
    rfl
  have hpage : 0x100000 ≤ mpPage (blkPort (a / 64)) := by
    unfold mpPage
    omega
  have hcount {x : Nat} (hx : x < 0x100000) (k m : Nat) : KeepsReg x (count (mpPage (blkPort (a / 64))) k m) :=
    keepsReg_count (by omega) (by omega) (by omega) m
  rw [tablePut, after_seq_cons, hretire, after_seq_cons, after_seq_nil, after_look]
  dsimp only
  rw [after_seq_cons, after_seq_cons, after_seq_cons, after_seq_nil, after_ite, if_pos hp]
  obtain ⟨u, hu⟩ : ∃ u, u = after (count (mpPage (blkPort (a / 64))) 0 1) (after (count (mpPage (blkPort (a / 64))) 2 1) s) := ⟨_, rfl⟩
  have hreg {x : Nat} (hx : x < 0x100000) : rd u x = rd s x := by rw [hu, (hcount hx ..).rd, (hcount hx ..).rd]
  have hstraps : u.straps = s.straps := by rw [hu, (within_count ..).straps _, (within_count ..).straps _]
  have hcls : uncorrClass u (a / 64) = .uncorrFatal := by
    rw [← hclass, uncorrClass, uncorrClass, rsvBase, rsvBase, inlineOn, inlineOn, hstraps]
  rw [← hu, after_seq_cons, after_seq_cons, after_seq_nil, (within_count ..).dumpRun _, uncorrEvent, after_look, after_seq_cons, after_seq_cons,
    after_seq_nil]
  exact dumpRun_after_raise_fatal hcls (by omega) (mpPage_mod _) (by rw [(hcount (by decide) ..).rd, hreg (by decide), hauto])
    (by rw [(hcount (by decide) ..).rd, hreg (by decide), hbusy])

/-! ## The command (R519) -/

/-- What HERD_CREATE does to the cores and the table before anything else that could touch a dump. -/
theorem dumpRun_after_createHere {s : State} {a : CmdId} {f : FnNo} {port : HpNo} {p : HerdParams} {g0 p0 : Nat}
    (hroom : portRoom s port.val p.ncores p.quota p.ngroups 1 p.nseq = true) (hdev : deviceRoom s p = true) (hnone : (herdOf s 0).isNone = true)
    (hmesh : s.mesh.barred = false) (hg : lowestFree (usedGroups s) 0 65536 p.ngroups = some g0) (hp : lowestFree (usedProgs s) 32 256 p.nprog = some p0)
    (hone : p.ngroups = 1) (hm : s.mergeBuf = []) (hpoison : poisoned s (groupEntryAddr s g0 / 64) = true)
    (hclass : uncorrClass s (groupEntryAddr s g0 / 64) = .uncorrFatal) (hauto : bit (rd s 0x4108) 0 = true) (hbusy : bit (rd s 0x4100) 30 = false) :
    (after (createHere (.host a) 0 (some f) port p) s).dumpRun.isSome = true := by
  rw [createHere, after_look, hg, hp]
  dsimp only
  rw [hroom, hdev, hnone, hmesh, Bool.or_true, Bool.not_false, after_ite, if_pos (by decide), after_seq_cons, after_seq_cons, after_seq_nil]
  have hans (u : State) (st : Nat) (r : DWord) : (after (answer (.host a) st r) u).dumpRun = u.dumpRun := rfl
  rw [hans, setUpHerd, after_look]
  dsimp only
  rw [after_seq_cons, after_seq_cons, after_seq_cons, after_seq_cons]
  obtain ⟨rest, hrest⟩ : ∃ b : Act, b = seq [setHgrp 0 (BitVec.ofNat 32 (0x80000000 * b2n (decide (p.ngroups ≠ 0)) + g0)) (BitVec.ofNat 32 p.ngroups),
    each (List.range 24) (fun n => wr64 (uePage n + 0x800 + 8 * 0) p.seed),
    one (.ctlReset (migHerd 0) (migHerd 0 + 32)),
    wr (migHerd 0) (BitVec.ofNat 32 p.quota), wr (migHerd 0 + 4) (BitVec.ofNat 32 p.floor), rewriteFloor, clearSnap 0,
    setFnState 0 1] := ⟨_, rfl⟩
  have hw : Within [.ctl, .snap] rest := by
    rw [hrest]
    exact within_seq_cons ((within_setHgrp ..).wider rfl) <| within_seq_cons (within_each fun _ => (within_wr64 ..).wider rfl) <|
      within_seq_cons (within_one rfl) <| within_seq_cons ((within_wr ..).wider rfl) <| within_seq_cons ((within_wr ..).wider rfl) <|
      within_seq_cons (within_rewriteFloor.wider rfl) <| within_seq_cons ((within_clearSnap ..).wider rfl) <|
      within_seq_cons ((within_setFnState ..).wider rfl) within_seq_nil
  rw [← hrest, hw.dumpRun]
  obtain ⟨sites, hsites⟩ : ∃ l, l = (freeSites s p.qmask.toNat).take p.ncores := ⟨_, rfl⟩
  rw [← hsites]
  have hkeep {x : Nat} (hx : x < 0x118000) (v : State) : rd (after (enterCores 0 sites) (after (disableRings 0) v)) x = rd v x := by
    rw [(highWrites_enterCores 0 sites).keeps _ (by omega) |>.rd, (keepsReg_disableRings ?_).rd]
    refine ⟨fun n hn => ?_, ?_, fun g hg => ?_⟩
    · unfold uePage
      omega
    · unfold bxPage
      omega
    · unfold fnPageOf
      omega
  have hsame (v : State) (hstraps : v.straps = s.straps) (hbuf : v.mergeBuf = s.mergeBuf) (hreg : ∀ x < 0x118000, rd v x = rd s x) :
      (after (zeroGroups g0 p.ngroups) v).dumpRun.isSome = true := by
    have hrsv : rsvBase v = rsvBase s := by rw [rsvBase, rsvBase, inlineOn, inlineOn, hstraps]
    have haddr : groupEntryAddr v (g0 + 0) = groupEntryAddr s g0 := by
      rw [groupEntryAddr, groupEntryAddr, hrsv]
      rfl
    have hread : SameReading s v (groupEntryAddr s g0 / 64) := ⟨fun x hx => hreg x (by
      obtain ⟨o, rfl, ho⟩ := hx
      have := blkPort_lt (groupEntryAddr s g0 / 64)
      unfold mpPage
      omega), hstraps⟩
    rw [zeroGroups, after_look, hone, List.range_one, after_each_cons, after_each_nil, haddr]
    refine dumpRun_after_lostPut (hbuf.trans hm) (hread.poisoned.trans hpoison) ?_ ((congrArg (bit · 0) (hreg _ (by decide))).trans hauto)
      ((congrArg (bit · 30) (hreg _ (by decide))).trans hbusy)
    rw [uncorrClass, hrsv, ← uncorrClass, hclass]
  refine hsame _ ?_ ?_ fun x hx => hkeep hx _
  · exact ((within_enterCores ..).straps _).trans ((within_disableRings ..).straps _)
  · exact ((within_enterCores ..).mergeBuf _).trans ((within_disableRings ..).mergeBuf _)

/-- HERD_CREATE of a herd outside a pod goes on to the herd's own part where nothing refuses it. -/
theorem after_actHerdCreate {s : State} {c : CmdId} {p : HerdParams} {h : Nat} (hr : ringReady s c = true) (hres : c.reserved = false)
    (hown : ((herdOfFn (fetched c s) c.fn).isSome || fnReleasing (fetched c s) c.fn || !bit (rd (fetched c s) (mgtPage 0 + 0x100)) 8) = false)
    (hok : paramsOk p = true)
    (hbar : ((fetched c s).mesh.barred || bit (rd (fetched c s) (snapPage + 0x120)) 31 || (p.pod && !isLead (fetched c s))) = false)
    (hpod : p.pod = false) (hfind : (List.range 64).find? (fun g => (herdOf (fetched c s) g).isNone) = some h) :
    after (actHerdCreate c p) s =
      after (createHere (.host c) h (some c.fn) ⟨c.fn.val / 16, by have := c.fn.isLt; omega⟩ p) (fetched c s) := by
  rw [actHerdCreate, after_hostCmd hr, hres, if_neg Bool.false_ne_true, after_look]
  dsimp only
  rw [after_ite, if_neg (by rw [hown]; exact Bool.false_ne_true), after_ite, if_neg (by rw [hok]; exact Bool.false_ne_true), after_ite,
    if_neg (by rw [hbar]; exact Bool.false_ne_true), after_seq_cons, after_seq_cons, after_seq_nil, hpod, if_neg Bool.false_ne_true]
  simp only [List.isEmpty_nil, Bool.not_true, Bool.true_or, Bool.and_true]
  rw [after_act, if_neg Bool.false_ne_true, hfind]
  dsimp only
  rw [spread, after_look, after_ite, if_pos List.isEmpty_nil]

/-- The block that holds the entry of the first group. -/
def groupBlock : Nat := 22508380160

/-- The first command ring of function 0. -/
def firstCmd : CmdId := ⟨0, 0, 0, false⟩

/-- A module in RUN whose table of groups has lost its first block, with a command in the first ring of function 0. -/
def groupsLost : State := after (seq [wr 0x100 0x102, wrBit 0x4108 0 true,
  wr (remapReg 8 0) (BitVec.ofNat 32 (0xC0000000 + blkLocal groupBlock)), wrFld (mpPage 8 + 0x118) 14 8 1,
  wrBit (crBase 0 0 + 8) 31 true, wrFld (crBase 0 0 + 0x14) 31 16 1, one (.fnTurn 63)]) State.reset

/-- A herd of one core and one group. -/
def smallHerd : HerdParams := ⟨1, 0, false, 0, 0, 1, 0, 0, 1000, 0, 0⟩

theorem ready_groupsLost : Ready groupsLost := ⟨rfl, wf_after _ wf_reset⟩

theorem ringReady_groupsLost : ringReady groupsLost firstCmd = true := by decide +kernel

/-- The state in which the command runs. -/
abbrev groupsLostAt : State := fetched firstCmd groupsLost

theorem deviceRoom_of_free {s : State} (h0 : (coreAvail s 0 && (herdAt s 0).isNone && decide (coreState s 0 = 0) &&
    decide ((coreX s 0).owedResets = 0) && (fenceOrder 0).all (fun p => !fenced s p)) = true)
    (hrest : (decide (smallHerd.minper ≤ beadPeriod s) && decide (s.herd.foldl (fun a x => a + x.2.nseq) 0 + smallHerd.nseq ≤ 1024) &&
      decide (smallHerd.floor + sharedFrames s + (List.range 64).foldl (fun a g => a + floorOf s g) 0 ≤ usableFrames s)) = true) :
    deviceRoom s smallHerd = true := by
  have hfree : 0 ∈ freeSites s smallHerd.qmask.toNat := List.mem_filter.mpr ⟨List.mem_range.mpr (by decide), by
    rw [show (decide (smallHerd.qmask.toNat = 0) || smallHerd.qmask.toNat.testBit (quadrant 0)) = true from rfl, Bool.true_and]
    exact h0⟩
  rw [deviceRoom, hrest, Bool.true_and]
  exact decide_eq_true (List.length_pos_of_mem hfree)

theorem dumpRun_groupsLost : (after (actHerdCreate firstCmd smallHerd) groupsLost).dumpRun.isSome = true := by
  have hroom : portRoom groupsLostAt 0 1 0 1 1 0 = true := by decide +kernel
  have hdev : deviceRoom groupsLostAt smallHerd = true := deviceRoom_of_free (by decide +kernel) (by decide +kernel)
  have hlost : poisoned groupsLostAt (groupEntryAddr groupsLostAt 0 / 64) = true ∧
      uncorrClass groupsLostAt (groupEntryAddr groupsLostAt 0 / 64) = .uncorrFatal ∧ bit (rd groupsLostAt 0x4108) 0 = true ∧
      bit (rd groupsLostAt 0x4100) 30 = false := by decide +kernel
  obtain ⟨hpoison, hclass, hauto, hbusy⟩ := hlost
  have hgate : ((herdOfFn groupsLostAt 0).isSome || fnReleasing groupsLostAt 0 || !bit (rd groupsLostAt (mgtPage 0 + 0x100)) 8) = false ∧
      (groupsLostAt.mesh.barred || bit (rd groupsLostAt (snapPage + 0x120)) 31 || (smallHerd.pod && !isLead groupsLostAt)) = false := by
    decide +kernel
  obtain ⟨hown, hbar⟩ := hgate
  have hbody : after (actHerdCreate firstCmd smallHerd) groupsLost =
      after (createHere (.host firstCmd) 0 (some 0) 0 smallHerd) groupsLostAt :=
    after_actHerdCreate ringReady_groupsLost rfl hown rfl hbar rfl rfl
  rw [hbody]
  exact dumpRun_after_createHere hroom hdev rfl rfl rfl rfl rfl rfl hpoison hclass hauto hbusy

/-- Refutes O47: a herd's entries in the table of groups are zeroed as it is created, and where their block is lost the write is a fatal event,
which starts a dump (R394, R401, R438), so that more changes than the statement lists. -/
theorem not_herdsComeAndGo : ¬ Obligations.HerdsComeAndGo := by
  unfold Obligations.HerdsComeAndGo
  rintro ⟨hcreate, -⟩
  have hroom : portRoom groupsLost 0 1 0 1 1 0 = true := by decide +kernel
  have hdev : deviceRoom groupsLost smallHerd = true := deviceRoom_of_free (by decide +kernel) (by decide +kernel)
  have hgate : bit (rd groupsLost (mgtPage 0 + 0x100)) 8 = true ∧ fnReleasing groupsLost 0 = false ∧
      bit (rd groupsLost (snapPage + 0x120)) 31 = false := by decide +kernel
  obtain ⟨hmgt, hrel, hspare⟩ := hgate
  obtain ⟨t, hstep, honly, -⟩ := (hcreate groupsLost ready_groupsLost firstCmd smallHerd ringReady_groupsLost rfl).2 0 0 32 0 rfl hmgt rfl hrel rfl
    hspare rfl rfl rfl hroom hdev rfl rfl
  have ht : t = after (actHerdCreate firstCmd smallHerd) groupsLost := by
    have he : exec (.herdCreate firstCmd smallHerd) groupsLost = .next (after (actHerdCreate firstCmd smallHerd) groupsLost) := run_powered rfl
    rw [he] at hstep
    exact (Host.Outcome.next.inj hstep).symm
  have hnone : t.dumpRun = none := (honly .dumpRun rfl).trans rfl
  have hsome := dumpRun_groupsLost
  rw [← ht, hnone] at hsome
  exact Bool.false_ne_true hsome

end Sys2Proof.Machine
end

section
/-! A JOIN that reaches a member one of whose torus ports is still down (R479). -/

namespace Sys2Proof.Machine

-- One declaration after the other: elaborated side by side they take more memory than the check has.
set_option Elab.async false

/-- A pod of positions 0 and 1 seen from position 1, whose +X port is up and whose −X port, toward the lead, is not. -/
def halfConnected : State := after (seq [wr (bxPage 0 + 0x804) 0x80000001, wr (bxPage 0 + 0x808) 3, wr (bxPage 0 + 0x104) 3]) State.reset

theorem ready_halfConnected : Ready halfConnected := ⟨rfl, wf_after _ wf_reset⟩

/-- A frame of the lead for position 1 that arrives on its +X port. -/
def leadFrame : FrameHdr := ⟨0, 0, 0, 1, false, false, 0, 0, 0, 0, 0, 0, 0, true⟩

theorem frameHere_leadFrame : FrameHere halfConnected leadFrame := by decide +kernel

theorem fromSource_leadFrame : fromSource leadFrame halfConnected = true := by decide +kernel

/-- A member with a torus port that is not up takes no JOIN. -/
theorem joinBead_halfConnected : (after (actJoin leadFrame 8) halfConnected).side.joinBead = none := by decide +kernel

/-- Refutes O43: a member whose connected torus ports are not all up takes the frame of a JOIN, and leaves the JOIN without effect (log entry 88). -/
theorem not_framesTaken : ¬ Obligations.FramesTaken := by
  unfold Obligations.FramesTaken
  rintro ⟨hframes, -⟩
  obtain ⟨-, hjoin, -⟩ := hframes halfConnected ready_halfConnected leadFrame frameHere_leadFrame
  obtain ⟨t, hstep, -, -, hside⟩ := (hjoin 8).1 fromSource_leadFrame
  have he : exec (.join leadFrame 8) halfConnected = .next (after (actJoin leadFrame 8) halfConnected) := run_powered rfl
  rw [he] at hstep
  have hnone := joinBead_halfConnected
  rw [Host.Outcome.next.inj hstep, hside] at hnone
  exact Option.some_ne_none _ hnone

end Sys2Proof.Machine
end

section
/-! A deputy that loses a further marker while the lead stays unreachable (R442, R569). -/

namespace Sys2Proof.Machine

-- One declaration after the other: elaborated side by side they take more memory than the check has.
set_option Elab.async false

/-- A message to the fleet waits for the management port, or the full queue that drops it is not empty (R637). -/
theorem evQueue_after_tellFleet (kind : Nat) (data : List Byte) (s : State) : (after (tellFleet kind data) s).evQueue ≠ [] := by
  have hone (q : List EvMsg) (a : Act) (u : State) (hq : q ≠ []) (ha : Within [.ctl, .out] a) : (after a (after (one (.evQueue q)) u)).evQueue ≠ [] := by
    rwa [ha.evQueue, after_one]
  rw [tellFleet, queueMessage, after_look]
  dsimp only
  by_cases hroom : s.evQueue.length < 64
  · rw [if_pos hroom, after_seq_cons]
    exact hone _ _ s (by simp) (within_seq_cons ((within_wrFld ..).wider rfl)
      (within_seq_cons (within_act (within_one rfl)) within_seq_nil))
  · rw [if_neg hroom]
    split
    · rw [(within_wrFld ..).evQueue]
      intro he
      rw [he] at hroom
      exact hroom (by decide)
    · rw [after_seq_cons]
      exact hone _ _ s (by simp) (within_seq_cons ((within_wrFld ..).wider rfl) within_seq_nil)

/-- Position 1 of a pod of the positions 0 and 1, that has lost the lead's last four markers, holds
their capture, and whose ports are down. -/
def lostLead : State := after (seq [wr (bxPage 0 + 0x804) 0x80000001, wr (bxPage 0 + 0x808) 3, wr (beadPage + 0x120) 0, wr (beadPage + 0x40) 0x80000000,
  wrFld (beadPage + 0x128) 11 8 4]) State.reset

theorem ready_lostLead : Ready lostLead := ⟨rfl, wf_after _ wf_reset⟩

/-- The member reports the lead's loss (R569), after it has placed the boundary itself. -/
theorem evQueue_lostLead : (after actMarkerLost lostLead).evQueue ≠ [] := by
  have hgate : (podEn lostLead && !isSource lostLead) = true := by decide +kernel
  obtain ⟨u, hu⟩ : ∃ u, u = after (seq [boundary, wrBit (beadPage + 0x128) 2 true,
    wrFld (beadPage + 0x128) 11 8 (min 15 (fld (rd lostLead (beadPage + 0x128)) 11 8 + 1)), count beadPage 3 1, setIst beadPage 9,
    raise beadPage { cls := .schedule }]) lostLead := ⟨_, rfl⟩
  have hrun : (decide (fld (rd u (beadPage + 0x128)) 11 8 = 4)) = false ∧
      (decide (2 ≤ fld (rd u (beadPage + 0x128)) 11 8) && isDeputy u) = true ∧ pathDown u = true := by
    rw [hu]
    decide +kernel
  obtain ⟨hfour, hdeputy, hpath⟩ := hrun
  have hact : after actMarkerLost lostLead = after deputyTakes (after (takeFree 1) u) := by
    rw [actMarkerLost, after_look, hgate]
    show after (seq _) lostLead = _
    simp only [after_seq_cons, after_seq_nil, after_look] at hu ⊢
    rw [← hu, hfour, hdeputy, hpath]
    show after (seq [takeFree 1, deputyTakes]) u = _
    rw [after_seq_cons, after_seq_cons, after_seq_nil]
  rw [hact, deputyTakes, after_look]
  dsimp only
  iterate 6 rw [after_seq_cons]
  rw [after_seq_nil]
  exact evQueue_after_tellFleet 5 _ _

/-- Refutes O40: a deputy whose run of lost markers reaches four or more while its path to the lead is down takes the bead source, and tells the
fleet (R569), which the statement of a member's further losses does not list. -/
theorem not_beadsEnd : ¬ Obligations.BeadsEnd := by
  unfold Obligations.BeadsEnd
  rintro ⟨-, -, -, hlost, -⟩
  have hgate : podEn lostLead = true ∧ isSource lostLead = false ∧ 4 ≤ fld (rd lostLead (beadPage + 0x128)) 11 8 ∧ QuietBoundary lostLead := by
    decide +kernel
  obtain ⟨hpod, hsource, hfour, hquiet⟩ := hgate
  obtain ⟨t, hstep, honly, -⟩ := hlost lostLead ready_lostLead hpod hsource hfour hquiet
  have he : exec .markerLost lostLead = .next (after actMarkerLost lostLead) := run_powered rfl
  rw [he] at hstep
  have hqueue : t.evQueue = [] := (honly .evQueue rfl).trans rfl
  rw [← Host.Outcome.next.inj hstep] at hqueue
  exact evQueue_lostLead hqueue

end Sys2Proof.Machine
end

section
/-! Functions and host ports (R12, R356, R357, R502 to R506, R532, R592). -/

namespace Sys2Proof.Machine

-- One declaration after the other: elaborated side by side they take more memory than the check has.
set_option Elab.async false

/-! ## The base and the size of BAR2 -/

section
variable {s : State} (f : FnNo)

theorem does_bar2BaseWrite (hs : Ready s) (lo hi : Word) (b : DWord) (ht : Takes s (fnPageOf f.val / 4096))
    (hb : b = joinWords (lo &&& 0xC0000000) (hi &&& 0x3FF)) :
    (b.toNat % 2 ^ bar2LogOf s f.val = 0 → Does (.bar2BaseWrite .ringCtl f (some lo) (some hi)) s [.ctl] fun t =>
      bar2Base t f.val = b.toNat ∧ RegsAt [fnPageOf f.val + 0x108, fnPageOf f.val + 0x10C] s t) ∧
    (b.toNat % 2 ^ bar2LogOf s f.val ≠ 0 → Does (.bar2BaseWrite .ringCtl f (some lo) (some hi)) s [.ctl, .freeCtr] fun t =>
      bar2Base t f.val = bar2Base s f.val ∧ bit (rd t (fnPageOf f.val + 0x20)) 3 = true) := by
  have hpage : (fnPageOf f.val + 0x108) / 4096 = fnPageOf f.val / 4096 := by
    rw [fnPageOf]
    omega
  have he : after (bar2BaseWrite .ringCtl f.val (some lo) (some hi)) s = if b.toNat % 2 ^ bar2LogOf s f.val = 0
      then after (seq [wr (fnPageOf f.val + 0x108) (lo &&& 0xC0000000), wr (fnPageOf f.val + 0x10C) (hi &&& 0x3FF)]) s
      else after (protocolAt (fnPageOf f.val) .ringCtl) s := by
    rw [hb, bar2BaseWrite, after_look]
    exact after_ite ..
  refine ⟨fun hbase => ?_, fun hbase => ?_⟩
  · rw [if_pos hbase, after_seq_cons, after_seq_cons, after_seq_nil, after_wr, after_wr] at he
    refine does_guarded_ring hs ht hpage rfl ?_ ?_ <;> rw [he]
    · rw [← after_wr, ← after_wr]
      exact ((within_wr ..).onlyIn s).trans ((within_wr ..).onlyIn _)
    · refine ⟨?_, fun a ha => ?_⟩
      · rw [bar2Base, rd64, rd_ctl_other _ (by omega), rd_ctl_same, rd_ctl_same, hb]
      · simp only [List.mem_cons, List.not_mem_nil, or_false, not_or] at ha
        rw [rd_ctl_other _ ha.2, rd_ctl_other _ ha.1]
  · rw [if_neg hbase] at he
    refine does_guarded_ring hs ht hpage rfl ?_ ?_ <;> rw [he]
    · exact onlyIn_raise_mild s _ nofun
    · have hkeep (x : Nat) (h : fnPageOf f.val + 0x60 ≤ x) : KeepsReg x (protocolAt (fnPageOf f.val) .ringCtl) :=
        keepsReg_raise (by omega) (.inr h) nofun
      refine ⟨?_, bit_after_raise s (c := { cls := .protocol, req := reqNo .ringCtl }) nofun⟩
      rw [bar2Base, bar2Base, rd64, rd64, (hkeep _ (by omega)).eq, (hkeep _ (by omega)).eq]

theorem does_bar2Resize (hs : Ready s) (lg : Nat) (hf : fnExists s f.val = true) (hlo : 30 ≤ lg) (hhi : lg ≤ 41) :
    Does (.bar2Resize f lg) s [.ctl, .bar2Log] fun t => bar2LogOf t f.val = lg ∧
      bar2Base t f.val = bar2Base s f.val / 2 ^ lg * 2 ^ lg ∧ RegsAt [fnPageOf f.val + 0x108, fnPageOf f.val + 0x10C] s t := by
  have hsize : Within [.bar2Log] (one (.bar2Log f.val (if lg = 36 then none else some lg))) := within_one rfl
  have he : after (actBar2Resize f lg) s = after (wr64 (fnPageOf f.val + 0x108) (BitVec.ofNat 64 (bar2Base s f.val / 2 ^ lg * 2 ^ lg)))
      (after (one (.bar2Log f.val (if lg = 36 then none else some lg))) s) := by
    rw [actBar2Resize, after_look, if_pos (by simp [hf, hlo, hhi]), after_seq_cons, after_seq_cons, after_seq_nil]
  refine does_of_run hs.1 rfl ?_ ?_ <;> rw [he]
  · exact ((hsize.wider rfl).onlyIn s).trans (((within_wr64 ..).wider rfl).onlyIn _)
  · refine ⟨?_, ?_, fun a ha => ?_⟩
    · rw [bar2LogOf, (within_wr64 ..).bar2Log, after_one, apply_bar2Log]
      exact mGetD_mSet_same s.bar2Log f.val lg 36
    · have hlt : bar2Base s f.val / 2 ^ lg * 2 ^ lg < 2 ^ 64 := Nat.lt_of_le_of_lt (Nat.div_mul_le_self ..) (rd64 s _).isLt
      rw [bar2Base, rd64_after_wr64, BitVec.toNat_ofNat, Nat.mod_eq_of_lt hlt]
    · simp only [List.mem_cons, List.not_mem_nil, or_false, not_or] at ha
      rw [(keepsReg_wr64 ha.1 ha.2 _).eq]
      exact (hsize.keepsReg a).eq s

/-! ## Accesses through BAR2 -/

theorem does_bar2Read (hs : Ready s) (off len : Nat) (hf : fnExists s f.val = true) (hfit : off + len ≤ 2 ^ bar2LogOf s f.val)
    (hwait : bar2Waits s f off len false = false) :
    Does (.bar2Read f off len) s [.ctl, .mem, .chk, .touched, .mergeBuf, .dumpRun, .freeCtr, .out] fun t =>
      t.out = s.out ++ [.readData (some (.fn f)) (bar2Data s f off len)] := by
  refine does_of_within hs.1 rfl ((within_actBar2Read f off len).wider rfl) ?_
  rw [actBar2Read, after_look, if_neg (by simp [hf, hwait, hfit]), after_seq_cons, after_seq_cons, after_seq_nil]
  split
  · rw [(within_bar2Refusals ..).out, after_one, apply_out]
  · rw [after_nop, after_one, apply_out]

theorem does_bar2Write (hs : Ready s) {off h g b : Nat} {data : List Byte} (hf : fnExists s f.val = true)
    (hfit : off + 64 ≤ 2 ^ bar2LogOf s f.val) (hh : herdOfFn s f = some h) (hlen : data.length = 64) (halign : (bar2Base s f.val + off) % 64 = 0)
    (hj : judge s h ((bar2Base s f.val + off) / 65536) true = .frame g) (hc : entryClean s ((bar2Base s f.val + off) / 65536) = true)
    (hb : b = 1024 * g + (bar2Base s f.val + off) / 64 % 1024) (hm : mergeOf s b = none) :
    Does (.bar2Write f off (data.map some)) s [.ctl, .mem, .chk, .mergeBuf, .touched] fun t =>
      readBlk t b = some data ∧ ∀ a, a / 64 ≠ heldAt s b → memByte t a = memByte s a := by
  generalize ha : bar2Base s f.val + off = a at halign hj hc hb
  have hparts : pageParts a (data.map some).length = [(a / 65536, a % 65536, (data.map some).length, 0)] :=
    pageParts_one (by rw [List.length_map]; omega) (by rw [List.length_map]; omega)
  have hwait : bar2Waits s f off (data.map some).length true = false := by
    rw [bar2Waits, hh]
    dsimp only
    rw [ha, hparts, List.any_cons, List.any_nil, hj]
    rfl
  have htouch := sameRange_touch (a / 65536) s
  have hrefuse : after (bar2Refusals f h a (data.map some).length true) s = after (touch (a / 65536)) s := by
    rw [bar2Refusals, hparts, after_each_cons, after_each_nil, after_look]
    dsimp only
    rw [hj, after_seq_cons, after_seq_cons, after_seq_nil, after_entryRead_clean hc]
    rfl
  have honly : OnlyIn [.touched] s (after (touch (a / 65536)) s) := (within_touch _).onlyIn s
  obtain ⟨u, hu⟩ : ∃ u, u = after (touch (a / 65536)) s := ⟨_, rfl⟩
  have hstore : after (portWrite b data) u = after (storeBlk b data) u := by
    have hdrop : after (dropFor b) u = u := by
      rw [hu, dropFor, after_look, htouch.mergeOf, hm]
      rfl
    rw [portWrite, after_seq_cons, after_seq_cons, after_seq_nil, hdrop]
  have he : after (actBar2Write f off (data.map some)) s = after (storeBlk b data) u := by
    have hpart : ((data.map some).drop (0 + 0)).take (data.map some).length = data.map some := by
      rw [List.drop_zero, List.take_length]
    have hall : (data.map some).length = 64 ∧ (data.map some).all Option.isSome = true := by simp [hlen]
    rw [actBar2Write, after_look, if_neg (by rw [hwait, List.length_map]; simp [hf, hlen, hfit]), hh]
    dsimp only
    rw [ha, after_seq_cons, after_seq_cons, after_seq_nil, hrefuse, hparts, after_each_cons, after_each_nil, after_look]
    dsimp only
    rw [htouch.judge, hj]
    dsimp only
    rw [blockParts_one (by omega) (by omega), after_each_cons, after_each_nil]
    dsimp only
    rw [hpart, if_pos hall, List.map_map, show (65536 * g + a % 65536) / 64 = b by omega, ← hstore, hu]
    congr 2
    exact List.map_id' data
  rw [← hu] at htouch honly
  obtain ⟨-, hread⟩ := readBlk_after_storeBlk ((htouch.mergeOf b).trans hm) hlen
  have hstored := (stored_after_storeBlk u b hlen).earlier (htouch.reading b) htouch.mem
  refine does_of_run hs.1 rfl ?_ ?_ <;> rw [he]
  · exact (honly.wider rfl).trans (((within_storeBlk ..).wider rfl).onlyIn u)
  · exact ⟨hread, hstored.others⟩

end

/-! ## A function that owns no herd is reset -/

/-- What the reset of a function without a herd may touch. -/
def fnParts : List Part := [.ctl, .busyRing, .phase, .completions, .notices, .hcmd]

/-- The reset of a function without a herd, its registers apart from the lists that name it. -/
def forgetFunction (f : FnNo) : Act :=
  seq [one (.busyRingKeep (fun k => decide (k / 16 ≠ f.val))), one (.phaseKeep (fun k => decide (k / 17 ≠ f.val))),
    look fun s => one (.completions (s.completions.filter (fun c => decide (c.fn ≠ f)))),
    look fun s => one (.notices (s.notices.filter (fun n => decide (n.fn ≠ f)))),
    look fun s => one (.hcmd (s.hcmd.map (fun o => if o.cmd.any (fun c => decide (c.fn = f)) then { o with cmd := none } else o)))]

theorem within_forgetFunction (f : FnNo) : Within [.busyRing, .phase, .completions, .notices, .hcmd] (forgetFunction f) :=
  within_seq_cons (within_one rfl) <| within_seq_cons (within_one rfl) <| within_seq_cons (within_look fun _ => within_one rfl) <|
    within_seq_cons (within_look fun _ => within_one rfl) <| within_seq_cons (within_look fun _ => within_one rfl) within_seq_nil

theorem after_resetFunction_herdless {s : State} {f : FnNo} (h : herdOfFn s f = none) : after (resetFunction f) s =
    after (forgetFunction f) (after (wr (fnPageOf f.val + 0x100) (if fnReleasing s f then rd s (fnPageOf f.val + 0x100) else 0))
      (after (one (.ctlReset (fnPageOf f.val + 0x108) (fnPageOf f.val + 0x1000))) s)) := by
  rw [resetFunction, after_look, resetFnStat, h]
  dsimp only
  iterate 3 rw [after_seq_cons]
  rw [after_nop]
  rfl

/-- A function without a herd is reset: its own page and the lists of what waits for it, and no more. -/
structure FnReset (s t : State) : Prop where
  only : OnlyIn fnParts s t
  low : ∀ x, x < 0x180000 → rd t x = rd s x

theorem FnReset.refl (s : State) : FnReset s s := ⟨onlyIn_refl _ s, fun _ _ => rfl⟩

theorem FnReset.trans {s t u : State} (h : FnReset s t) (g : FnReset t u) : FnReset s u :=
  ⟨h.only.trans g.only, fun x hx => (g.low x hx).trans (h.low x hx)⟩

theorem fnReset_resetFunction {s : State} {f : FnNo} (h : herdOfFn s f = none) : FnReset s (after (resetFunction f) s) := by
  rw [after_resetFunction_herdless h]
  have hctl : Within [.ctl] (one (.ctlReset (fnPageOf f.val + 0x108) (fnPageOf f.val + 0x1000))) := within_one rfl
  refine ⟨((hctl.wider rfl).onlyIn s).trans (((within_wr ..).wider rfl).onlyIn _) |>.trans (((within_forgetFunction f).wider rfl).onlyIn _),
    fun x hx => ?_⟩
  have hpage : 0x180000 ≤ fnPageOf f.val := by
    rw [fnPageOf]
    omega
  rw [((within_forgetFunction f).keepsReg x).eq, (keepsReg_wr (by omega) _).eq, (keepsReg_ctlReset (by omega)).eq]

theorem fnReset_each {fs : List Nat} {g : Nat → FnNo} : ∀ {s : State}, (∀ v ∈ fs, herdOfFn s (g v) = none) →
    FnReset s (after (each fs fun v => resetFunction (g v)) s) := by
  induction fs with
  | nil => exact fun _ => .refl _
  | cons v fs ih =>
    intro s h
    rw [after_each_cons]
    have hone := fnReset_resetFunction (h v (List.mem_cons_self ..))
    have hherd : (after (resetFunction (g v)) s).herd = s.herd := hone.only .herd rfl
    refine hone.trans (ih fun w hw => ?_)
    rw [herdOfFn, hherd]
    exact h w (List.mem_cons_of_mem _ hw)

theorem does_functionLevelReset {s : State} (hs : Ready s) {f : FnNo} (hf : fnExists s f.val = true) (hh : herdOfFn s f = none) :
    Does (.functionLevelReset f) s [.ctl, .busyRing, .phase, .completions, .notices, .hcmd] fun t =>
      (∀ a, fnPageOf f.val + 0x108 ≤ a → a < fnPageOf f.val + 0x1000 →
        rd t a = (rd s a &&& stickyMask a) ||| (resetWord a &&& ~~~stickyMask a)) ∧
      rd t (fnPageOf f.val + 0x100) = (if fnReleasing s f then rd s (fnPageOf f.val + 0x100) else 0) ∧
      (∀ a, a ≠ fnPageOf f.val + 0x100 → a < fnPageOf f.val + 0x108 ∨ fnPageOf f.val + 0x1000 ≤ a → rd t a = rd s a) ∧
      t.completions = s.completions.filter (fun c => decide (c.fn ≠ f)) ∧ t.notices = s.notices.filter (fun n => decide (n.fn ≠ f)) ∧
      ∀ k < 16, mGet t.busyRing (16 * f.val + k) = none := by
  have he : after (actFunctionLevelReset f) s = after (resetFunction f) s := by
    rw [actFunctionLevelReset, after_look, hf]
    rfl
  have hreg (x : Nat) := ((within_forgetFunction f).keepsReg x).eq
  refine does_of_run hs.1 rfl ?_ ?_ <;> rw [he]
  · exact (fnReset_resetFunction hh).only
  · rw [after_resetFunction_herdless hh]
    refine ⟨fun a hlo hhi => ?_, ?_, fun a hne hout => ?_, ?_, ?_, fun k hk => ?_⟩
    · rw [hreg, (keepsReg_wr (by omega) _).eq, after_one, rd_ctlReset (wf_ctl hs.2), if_pos ⟨hlo, hhi⟩, resetKept]
    · rw [hreg, after_wr, rd_ctl_same]
    · rw [hreg, (keepsReg_wr hne _).eq, (keepsReg_ctlReset hout).eq]
    · rfl
    · rfl
    · have hbusy (u : State) : (after (forgetFunction f) u).busyRing = mKeep u.busyRing (fun k => decide (k / 16 ≠ f.val)) := rfl
      rw [hbusy, mGet_mKeep, if_neg (by simp only [decide_eq_true_eq]; omega)]

/-! ## A function with a herd is reset -/

theorem herdOf_after_destroyHerd (h : Nat) (s : State) : herdOf (after (destroyHerd h) s) h = none := by
  rw [destroyHerd, after_look]
  split
  case h_1 hnone => exact hnone
  case h_2 x hx =>
    iterate 19 rw [after_seq_cons]
    rw [after_seq_nil, herdOf, (within_rewriteFloor ..).herd, after_one]
    exact mGet_mPut_same ..

theorem does_functionLevelReset_herd {s : State} (hs : Ready s) {f : FnNo} (hf : fnExists s f.val = true) {h : Nat} (hh : herdOfFn s f = some h) :
    Does (.functionLevelReset f) s [.ctl, .store, .rod, .storeBad, .rodBad, .vreg, .acc, .core, .mem, .chk, .farMem, .merges,
      .desc, .evalDue, .herd, .extent, .ssetOwner, .moves, .touched, .mergeBuf, .bx, .hcmd, .htag, .coll, .mc, .busyRing, .phase,
      .completions, .notices, .snap, .dumpRun, .freeCtr, .out] fun t => herdOf t h = none ∧ ∀ c ∈ t.completions, c.fn ≠ f := by
  have he : after (actFunctionLevelReset f) s = after (resetFunction f) s := by
    rw [actFunctionLevelReset, after_look, hf]
    rfl
  refine does_of_run hs.1 rfl ?_ ?_ <;> rw [he]
  · exact (within_resetFunction f).onlyIn s
  · obtain ⟨v, hv⟩ : ∃ v, v = after (destroyAtMembers h) (after (endCommands h 7) s) := ⟨_, rfl⟩
    have hctl : Within [.ctl] (one (.ctlReset (fnPageOf f.val + 0x108) (fnPageOf f.val + 0x1000))) := within_one rfl
    have hparts : after (resetFunction f) s = after (forgetFunction f) (after (wr (fnPageOf f.val + 0x100) (resetFnStat s f))
        (after (one (.ctlReset (fnPageOf f.val + 0x108) (fnPageOf f.val + 0x1000))) (after (destroyHerd h) v))) := by
      rw [resetFunction, after_look, hh, forgetFunction]
      simp only [after_seq_cons, after_seq_nil]
      rw [hv]
    rw [hparts]
    refine ⟨?_, fun c hc => of_decide_eq_true (List.mem_filter.mp hc).2⟩
    rw [herdOf, (within_forgetFunction f).herd, (within_wr ..).herd, hctl.herd]
    exact herdOf_after_destroyHerd h v

/-! ## Virtual functions and host ports -/

theorem does_vfEnableSet {s : State} (hs : Ready s) (k : HpNo) {n : Nat} (hk : k.val < hpPorts s) (h0 : 0 < n) (hn : n ≤ 15)
    (hnone : mGet s.numVfs k.val = none) :
    Does (.vfEnableSet k n) s [.numVfs] fun t => ∀ v, 1 ≤ v → v ≤ 15 → (fnExists t (16 * k.val + v) = true ↔ v ≤ n) := by
  have he : after (actVfEnableSet k n) s = (Upd.numVfs k.val (some n)).apply s := by
    rw [actVfEnableSet, after_look, if_neg (by omega), hnone, after_act, if_pos (by simp [hk, hn]), after_one]
  refine does_of_run hs.1 rfl ?_ ?_ <;> rw [he]
  · exact onlyIn_apply (.numVfs ..) s
  · intro v hv hv15
    have hports : hpPorts ((Upd.numVfs k.val (some n)).apply s) = hpPorts s := rfl
    rw [fnExists, hports, apply_numVfs, mGetD, show (16 * k.val + v) / 16 = k.val by omega, mGet_mPut_same,
      show (16 * k.val + v) % 16 = v by omega, decide_eq_true hk, decide_eq_false (by omega : ¬ v = 0)]
    simp

theorem fnExists_without_vfs {t : State} {k v : Nat} (h : mGet t.numVfs k = none) (hv : 1 ≤ v) (hv15 : v ≤ 15) :
    fnExists t (16 * k + v) = false := by
  rw [fnExists, show (16 * k + v) / 16 = k by omega, show (16 * k + v) % 16 = v by omega, mGetD, h,
    Option.getD_none, decide_eq_false (by omega : ¬ v = 0), decide_eq_false (by omega : ¬ v ≤ 0)]
  simp

theorem does_vfEnableClear {s : State} (hs : Ready s) (k : HpNo) (hh : ∀ v, 1 ≤ v → v < 16 → herdOfFn s (fnOf k v) = none) :
    Does (.vfEnableClear k) s [.ctl, .numVfs, .busyRing, .phase, .completions, .notices, .hcmd] fun t =>
      mGet t.numVfs k.val = none ∧ ∀ v, 1 ≤ v → v ≤ 15 → fnExists t (16 * k.val + v) = false := by
  have hclear : Within [.numVfs] (one (.numVfs k.val none)) := within_one rfl
  have hfns := fnReset_each (g := fun v => fnOf k v) (s := s)
    (fs := (List.range 16).filter (fun v => decide (0 < v) && fnExists s (16 * k.val + v))) fun v hv => by
    simp only [List.mem_filter, List.mem_range, Bool.and_eq_true, decide_eq_true_eq] at hv
    exact hh v hv.2.1 hv.1
  refine does_of_run (a := actVfEnableClear k) hs.1 rfl ?_ ?_ <;>
    rw [actVfEnableClear, after_look, after_seq_cons, after_seq_cons, after_seq_nil]
  · exact (hfns.only.wider rfl).trans ((hclear.wider rfl).onlyIn _)
  · have hnone : mGet (mPut (after (each ((List.range 16).filter (fun v => decide (0 < v) && fnExists s (16 * k.val + v)))
        fun v => resetFunction (fnOf k v)) s).numVfs k.val none) k.val = none := mGet_mPut_same ..
    exact ⟨hnone, fun v hv hv15 => fnExists_without_vfs hnone hv hv15⟩

theorem does_hostPortReset {s : State} (hs : Ready s) (k : HpNo) (hk : k.val < hpPorts s) (hh : ∀ v, v < 16 → herdOfFn s (fnOf k v) = none)
    (hext : s.extent = []) :
    Does (.hostPortReset k) s [.ctl, .numVfs, .bar2Log, .busyRing, .phase, .completions, .notices, .hcmd] fun t =>
      hostUp t k.val = false ∧ mGet t.numVfs k.val = none ∧ (∀ v < 16, bar2LogOf t (16 * k.val + v) = 36) ∧
      t.notices.getLast? = some ⟨fnOf k 0, 4, 0, 0, beadNo s, []⟩ := by
  obtain ⟨u, hu⟩ : ∃ u, u = after (wr (hpPage k.val + 0x100) 0) (after (act (hostUp s k.val) (count (hpPage k.val) 5 1)) s) := ⟨_, rfl⟩
  have honly : OnlyIn [.ctl] s u := hu ▸ ((within_act (within_count ..)).onlyIn s).trans ((within_wr ..).onlyIn _)
  have hdown : rd u (hpPage k.val + 0x100) = 0 := by rw [hu, after_wr, rd_ctl_same]
  have hherd : u.herd = s.herd := honly .herd rfl
  have hextent : u.extent = s.extent := honly .extent rfl
  have hfns := fnReset_each (g := fun v => fnOf k v) (s := u)
    (fs := (List.range 16).filter (fun v => fnExists s (16 * k.val + v))) fun v hv => by
    simp only [List.mem_filter, List.mem_range] at hv
    rw [herdOfFn, hherd]
    exact hh v hv.1
  obtain ⟨w, hw⟩ : ∃ w, w = after (each ((List.range 16).filter (fun v => fnExists s (16 * k.val + v))) fun v => resetFunction (fnOf k v)) u :=
    ⟨_, rfl⟩
  rw [← hw] at hfns
  have hclear : Within [.numVfs, .bar2Log, .notices] (seq [one (.numVfs k.val none), one (.bar2LogKeep (fun f => decide (f / 16 ≠ k.val))),
      look fun t => one (.notices (t.notices ++ [⟨fnOf k 0, 4, 0, 0, beadNo s, []⟩]))]) :=
    within_seq_cons (within_one rfl) <| within_seq_cons (within_one rfl) <| within_seq_cons (within_look fun _ => within_one rfl) within_seq_nil
  have he : after (actHostPortReset k) s = after (seq [one (.numVfs k.val none), one (.bar2LogKeep (fun f => decide (f / 16 ≠ k.val))),
      look fun t => one (.notices (t.notices ++ [⟨fnOf k 0, 4, 0, 0, beadNo s, []⟩]))]) w := by
    have hwu : w.extent = u.extent := hfns.only .extent rfl
    have hwext : w.extent = [] := hwu.trans (hextent.trans hext)
    rw [actHostPortReset, after_look, decide_eq_true hk, after_act, if_pos rfl, resetPort, after_look, hext]
    iterate 8 rw [after_seq_cons]
    rw [after_seq_nil, ← hu, List.filter_nil, after_each_nil, ← hw, after_look]
    have hlate : (after (one (.bar2LogKeep (fun f => decide (f / 16 ≠ k.val)))) (after (one (.numVfs k.val none)) w)).extent = [] := hwext
    rw [hlate, List.filter_nil, after_each_nil]
    rfl
  refine does_of_run hs.1 rfl ?_ ?_ <;> rw [he]
  · exact (honly.wider rfl).trans (hfns.only.wider rfl) |>.trans ((hclear.wider rfl).onlyIn w)
  · refine ⟨?_, mGet_mPut_same w.numVfs k.val none, fun v hv => ?_, ?_⟩
    · have hlow : hpPage k.val + 0x100 < 0x180000 := by
        rw [hpPage]
        omega
      rw [hostUp, (hclear.keepsReg _).eq, hfns.low _ hlow, hdown]
      rfl
    · show mGetD (mKeep w.bar2Log (fun f => decide (f / 16 ≠ k.val))) (16 * k.val + v) 36 = 36
      rw [mGetD, mGet_mKeep, if_neg (by simp only [decide_eq_true_eq]; omega), Option.getD_none]
    · exact List.getLast?_concat

theorem does_hostLinkUp {s : State} (hs : Ready s) (k : HpNo) {width : Nat} {speed : BitVec 3} {flit : Bool} (hk : k.val < hpPorts s)
    (hperst : s.perst.contains k.val = true) (hdown : hostUp s k.val = false) (hwidth : width ∈ [1, 2, 4, 8, 16]) (hlanes : width ≤ hpLanes s)
    (h0 : speed ≠ 0) (h7 : speed ≠ 7) (h6 : flit = true ∨ speed ≠ 6) :
    Does (.hostLinkUp k width speed flit) s [.ctl] fun t => hostUp t k.val = true ∧ fld (rd t (hpPage k.val + 0x100)) 13 8 = width +
      32 * b2n flit ∧ fld (rd t (hpPage k.val + 0x100)) 6 4 = speed.toNat ∧ RegsAt [hpPage k.val + 0x100] s t := by
  have hgate : (decide (k.val < hpPorts s) && s.perst.contains k.val && !hostUp s k.val && [1, 2, 4, 8, 16].contains width &&
      decide (width ≤ hpLanes s) && decide (speed ≠ 0) && decide (speed ≠ 7) && (flit || decide (speed ≠ 6))) = true := by
    rw [hperst, hdown, List.contains_iff_mem.mpr hwidth, decide_eq_true hk, decide_eq_true hlanes, decide_eq_true h0, decide_eq_true h7]
    simpa using h6
  have he : after (actHostLinkUp k width speed flit) s =
      (Upd.ctl (hpPage k.val + 0x100) (BitVec.ofNat 32 (8192 * b2n flit + 256 * width + 16 * speed.toNat + 1))).apply s := by
    rw [actHostLinkUp, after_look, hgate, after_act, if_pos rfl, after_wr]
  have hspeed := speed.isLt
  have hflit : b2n flit ≤ 1 := by cases flit <;> decide
  have hw16 : width ≤ 16 := by
    simp only [List.mem_cons, List.not_mem_nil, or_false] at hwidth
    omega
  refine does_of_run hs.1 rfl ?_ ?_ <;> rw [he]
  · exact onlyIn_apply (.ctl ..) s
  · refine ⟨?_, ?_, ?_, fun a ha => rd_ctl_other s (fun h => ha (List.mem_singleton.mpr h)) _⟩
    · rw [hostUp, rd_ctl_same, bit_ofNat, Nat.testBit_zero]
      simp
      omega
    · rw [rd_ctl_same, fld_ofNat _ (by decide) (by decide), bits]
      omega
    · rw [rd_ctl_same, fld_ofNat _ (by decide) (by decide), bits]
      omega

/-- Settles O46, a part per instruction. -/
theorem functionsAndPorts : Obligations.FunctionsAndPorts := by
  unfold Obligations.FunctionsAndPorts
  refine ⟨fun s hs f lo hi b ht hb => does_bar2BaseWrite f hs lo hi b ht hb, fun s hs f lg hf hlo hhi => does_bar2Resize f hs lg hf hlo hhi,
    fun s hs f off len hf hfit hw => does_bar2Read f hs off len hf hfit hw,
    fun s hs f off h g b data hf hfit hh hlen ha hj hc hb hm => does_bar2Write f hs hf hfit hh hlen ha hj hc hb hm,
    fun s hs f hf => ⟨fun hh => does_functionLevelReset hs hf hh, fun h hh => does_functionLevelReset_herd hs hf hh⟩,
    fun s hs k n hk h0 hn hnone => does_vfEnableSet hs k hk h0 hn hnone, fun s hs k hh => does_vfEnableClear hs k hh,
    fun s hs k hk hh hext => does_hostPortReset hs k hk hh hext, fun s hs k hk hp => ?_,
    fun s hs k width speed flit hk hp hd hw hl h0 h7 h6 => does_hostLinkUp hs k hk hp hd hw hl h0 h7 h6⟩
  have he : after (actPerstRelease k) s = { s with perst := k.val :: s.perst } := by
    rw [actPerstRelease, after_look, decide_eq_true hk, hp]
    rfl
  rw [← he]
  exact run_powered hs.1

end Sys2Proof.Machine
end

section
/-! Reports, results and HALT symbols of a bead, and the dump (R434 to R437, R468, R472 to R474). -/

namespace Sys2Proof.Machine

-- One declaration after the other: elaborated side by side they take more memory than the check has.
set_option Elab.async false

/-! ## Symbols -/

theorem after_symbolFrom {s : State} {k : BxNo} (hup : linkUp s k.val = true) (hk : k.val < 6) (hp : podEn s = true) (body : Act) :
    after (symbolFrom ⟨k, true⟩ body) s = after body s := by
  rw [symbolFrom, after_look]
  dsimp only
  rw [hup, if_neg (by decide), if_neg (by omega), hp, after_act, if_pos rfl]

/-- A symbol whose CRC-16 fails changes nothing (R468). -/
theorem after_symbolFrom_bad (s : State) (k : BxNo) (body : Act) : after (symbolFrom ⟨k, false⟩ body) s = s := by
  rw [symbolFrom, after_look]
  dsimp only
  rw [if_pos (by simp), after_nop]

theorem after_haltSymbol {s : State} {h : HaltSym} (hh : HaltHere s h) (action : Nat) (leadOnly : Bool) (eff : Act) :
    after (haltSymbol h action leadOnly eff) s = after (act (!leadOnly || decide (h.origin.toNat = leadPos s)) eff) s := by
  obtain ⟨hup, hcrc, hport, hpod, hall, htarget⟩ := hh
  rw [haltSymbol, hcrc, after_symbolFrom hup hport hpod, after_look]
  dsimp only
  rw [hall, if_neg (by decide), if_pos htarget]

/-! ## Reports and results -/

section
variable {s : State} (hs : Ready s)
include hs

theorem does_report {k : BxNo} {bead : BitVec 16} (slip : Bool) (votes : DWord) (hup : linkUp s k.val = true) (hk : k.val < 6)
    (hp : podEn s = true) (hkid : s.side.kids.contains k.val = true) (hsent : s.side.sent = false) (hnew : bit s.side.reported k.val = false)
    (hbead : bead.toNat = (beadNo s).toNat % 65536) (hlate : ∃ j ∈ s.side.kids, j ≠ k.val ∧ bit s.side.reported j = false) :
    Does (.report ⟨k, true⟩ bead slip votes) s [.side] fun t => t.side = { s.side with
      slip := s.side.slip || slip
      votes := s.side.votes ||| votes
      reported := setBit s.side.reported k.val true
      missed := mPut s.side.missed k.val none } := by
  obtain ⟨j, hj, hjk, hjlate⟩ := hlate
  obtain ⟨x, hx⟩ : ∃ x : Sideband, x = { s.side with
      slip := s.side.slip || slip
      votes := s.side.votes ||| votes
      reported := setBit s.side.reported k.val true
      missed := mPut s.side.missed k.val none } := ⟨_, rfl⟩
  have hwait : x.kids.all (fun k => bit x.reported k) = false := by
    refine List.all_eq_false.mpr ⟨j, by rw [hx]; exact hj, ?_⟩
    rw [hx, bit_setBit_other _ (by omega) hjk, hjlate]
    decide
  have hgate : (s.side.kids.contains k.val && !s.side.sent && !bit s.side.reported k.val && decide (bead.toNat = (beadNo s).toNat % 65536)) = true := by
    rw [hkid, hsent, hnew, decide_eq_true hbead]
    rfl
  have he : after (actReport ⟨k, true⟩ bead.toNat slip votes) s = (Upd.side x).apply s := by
    rw [actReport, after_symbolFrom hup hk hp, after_look]
    dsimp only
    rw [hgate, after_act, if_pos rfl, ← hx, after_seq_cons, after_seq_cons, after_seq_nil, after_one, tryReport,
      after_look, apply_side, hwait, Bool.and_false, after_act, if_neg (by decide)]
  refine does_of_run hs.1 rfl ?_ ?_ <;> rw [he]
  · exact onlyIn_apply (.side x) s
  · exact hx

omit hs

/-- What a member has heard once it reports for the children that it has not heard (R472). -/
def deadlineSide (s : State) : Sideband := { s.side with
  slip := true
  votes := BitVec.allOnes 64
  missing := true
  sent := true
  missed := (s.side.kids.filter (fun k => !bit s.side.reported k)).foldl (fun m k => mPut m k (some ((mGet m k).getD 0 + 1))) s.side.missed }

/-- The REPORT of a member that has not heard a child. -/
def deadlineReport (s : State) (k : Nat) : Output := .symbol k 2 (BitVec.ofNat 16 ((beadNo s).toNat % 65536)) 1 (BitVec.allOnes 64)
  (symbolCrc 2 ((beadNo s).toNat % 65536) 1 (BitVec.allOnes 64))

theorem after_sendReport {k : Nat} (hroot : isRoot s = false) (hparent : parentPort s (ownPos s) = some k) (hup : linkUp s k = true)
    (hslip : s.side.slip = true) (hvotes : s.side.votes = BitVec.allOnes 64) :
    after sendReport s = (Upd.out (deadlineReport s k)).apply ((Upd.side { s.side with sent := true }).apply s) := by
  have hup' (x : Sideband) : linkUp ((Upd.side x).apply s) k = true := hup
  rw [sendReport, after_look, after_seq_cons, after_seq_cons, after_seq_nil, after_one, hroot, if_neg (by decide), hparent]
  dsimp only
  rw [hslip, hvotes, sendSym, after_look, hup', after_act, if_pos rfl, after_one]
  rfl

theorem after_actReportDeadline {k : Nat} (hp : podEn s = true) (hsent : s.side.sent = false) (hroot : isRoot s = false)
    (hparent : parentPort s (ownPos s) = some k) (hup : linkUp s k = true) (hlate : s.side.kids.all (fun k => bit s.side.reported k) = false) :
    after actReportDeadline s = (Upd.out (deadlineReport s k)).apply ((Upd.side (deadlineSide s)).apply s) := by
  have hgate : (podEn s && !s.side.sent && !(s.side.kids.filter (fun k => !bit s.side.reported k)).isEmpty) = true := by
    obtain ⟨j, hj, hjlate⟩ := List.all_eq_false.mp hlate
    rw [hp, hsent, List.isEmpty_eq_false_iff.mpr (List.ne_nil_of_mem (List.mem_filter.mpr ⟨hj, by simpa using hjlate⟩))]
    rfl
  rw [actReportDeadline, after_look]
  dsimp only
  rw [hgate, after_act, if_pos rfl, after_seq_cons, after_seq_cons, after_seq_nil, after_one,
    after_sendReport (k := k) (by exact hroot) (by exact hparent) (by exact hup) rfl rfl]
  rfl

theorem does_reportDeadline (hs : Ready s) {k : Nat} (hp : podEn s = true) (hsent : s.side.sent = false) (hroot : isRoot s = false)
    (hlead : isLead s = false) (hparent : parentPort s (ownPos s) = some k) (hup : linkUp s k = true)
    (hlate : s.side.kids.all (fun k => bit s.side.reported k) = false) :
    Does .reportDeadline s [.side, .out] fun t => t.side = deadlineSide s ∧ t.out = s.out ++ [deadlineReport s k] := by
  have hlead' : isLead ((Upd.out (deadlineReport s k)).apply ((Upd.side (deadlineSide s)).apply s)) = false := hlead
  have he : after actReportDeadlineAll s = (Upd.out (deadlineReport s k)).apply ((Upd.side (deadlineSide s)).apply s) := by
    rw [actReportDeadlineAll, after_seq_cons, after_seq_cons, after_seq_nil, after_actReportDeadline hp hsent hroot hparent hup hlate, after_look,
      hlead', after_act, if_neg (by decide)]
  refine does_of_run hs.1 rfl ?_ ?_ <;> rw [he]
  · have hside : OnlyIn [.side] s ((Upd.side (deadlineSide s)).apply s) := onlyIn_apply (.side _) s
    have hout : OnlyIn [.out] _ ((Upd.out (deadlineReport s k)).apply ((Upd.side (deadlineSide s)).apply s)) := onlyIn_apply (.out _) _
    exact (hside.wider rfl).trans (hout.wider rfl)
  · exact ⟨rfl, rfl⟩

/-- The pod's tree follows from its configuration and the members present (R470). -/
theorem tree_of_cfg {s t : State} (hcfg : podCfg t = podCfg s) (hpresent : rd64 t (bxPage 0 + 0x808) = rd64 s (bxPage 0 + 0x808)) (p : Nat) :
    childPorts t p = childPorts s p ∧ parentPort t p = parentPort s p ∧ rootPos t = rootPos s := by
  have hsize : axisSize t = axisSize s := funext fun a => by simp only [axisSize, hcfg]
  have hhere : isPresent t = isPresent s := funext fun q => by simp only [isPresent, hpresent]
  have hnext : torusNext t = torusNext s := funext fun q => funext fun k => by simp only [torusNext, hsize]
  have hport : axisPort t = axisPort s := funext fun q => funext fun r => funext fun a => funext fun b => by simp only [axisPort, hsize]
  have hroot : rootPos t = rootPos s := by rw [rootPos, rootPos, leadPos, leadPos, hhere, hcfg]
  have hparent : parentPort t = parentPort s := funext fun q => by simp only [parentPort, hport, hnext, hhere, hroot]
  exact ⟨by simp only [childPorts, hnext, hhere, hroot, hparent], congrFun hparent p, hroot⟩

theorem keepsReg_applySlip {x : Nat} (hx : beadPage + 0x138 ≤ x) (v : Bool) : KeepsReg x (applySlip v) := by
  have hpage : beadPage = 0x3000 := rfl
  exact keeps_look fun _ => keeps_seq_cons (keepsReg_wrBit (by omega) _ _) <| keeps_seq_cons (keeps_act fun _ =>
    keeps_seq_cons (keepsReg_count (by omega) (by omega) (by omega) _) <| keeps_seq_cons (keepsReg_wr64 (by omega) (by omega) _) <|
      keeps_seq_cons (keepsReg_setIst (by omega) _) keeps_seq_nil) keeps_seq_nil

theorem after_actResult {k : BxNo} {bead : BitVec 16} (slip missing : Bool) (votes : DWord) (hup : linkUp s k.val = true) (hk : k.val < 6)
    (hp : podEn s = true) (hroot : isRoot s = false) (hparent : parentPort s (ownPos s) = some k.val)
    (hbead : bead.toNat = (beadNo s).toNat % 65536) (hclosing : s.side.closing = []) (hkids : childPorts s (ownPos s) = []) :
    after (actResult ⟨k, true⟩ bead.toNat slip missing votes) s = after (applySlip slip) s := by
  obtain ⟨t, ht⟩ : ∃ t, t = after (applySlip slip) s := ⟨_, rfl⟩
  have hside : t.side = s.side := ht ▸ (within_applySlip slip).side s
  have hreg (x : Nat) (hx : beadPage + 0x138 ≤ x) : rd t x = rd s x := by
    rw [ht]
    exact (keepsReg_applySlip hx slip).eq s
  have hbx : bxPage 0 = 0x160000 := rfl
  have hpage : beadPage = 0x3000 := rfl
  have hcfg : podCfg t = podCfg s := hreg _ (by omega)
  have hpresent : rd64 t (bxPage 0 + 0x808) = rd64 s (bxPage 0 + 0x808) := by
    rw [rd64, rd64, hreg _ (by omega), hreg _ (by omega)]
  have hkids' : childPorts t (ownPos t) = [] := by
    rw [ownPos, hcfg, ← ownPos, (tree_of_cfg hcfg hpresent _).1, hkids]
  rw [actResult, after_symbolFrom hup hk hp, after_look, hroot, decide_eq_true hparent, decide_eq_true hbead, after_act, if_pos (by decide),
    after_seq_cons, after_seq_cons, after_seq_cons, after_seq_nil, ← ht, applyVotes, after_look, hside, hclosing, after_each_nil, forwardResult, after_look, hkids',
    after_each_nil]

theorem does_result (hs : Ready s) {k : BxNo} {bead : BitVec 16} (missing : Bool) (votes : DWord) (hup : linkUp s k.val = true) (hk : k.val < 6)
    (hp : podEn s = true) (hroot : isRoot s = false) (hparent : parentPort s (ownPos s) = some k.val)
    (hbead : bead.toNat = (beadNo s).toNat % 65536) (hclosing : s.side.closing = []) (hkids : childPorts s (ownPos s) = []) :
    Does (.result ⟨k, true⟩ bead true missing votes) s [.ctl] (fun t => beadHeld t = true ∧ bit (rd t (beadPage + 0x20)) 8 = true) ∧
    Does (.result ⟨k, true⟩ bead false missing votes) s [.ctl] fun t => beadHeld t = false ∧ RegsAt [beadPage + 0x128] s t := by
  have hpage : beadPage = 0x3000 := rfl
  refine ⟨?_, ?_⟩ <;> refine does_of_run hs.1 rfl ?_ ?_ <;> rw [after_actResult _ missing votes hup hk hp hroot hparent hbead hclosing hkids]
  · exact (within_applySlip true).onlyIn s
  · obtain ⟨t, ht⟩ : ∃ t, t = after (count beadPage 0 1) (after (wrBit (beadPage + 0x128) 1 true) s) := ⟨_, rfl⟩
    have he : after (applySlip true) s = after (setIst beadPage 8) (after (wr64 (beadPage + 0x130) (beadNo s)) t) := by
      rw [applySlip, after_look, after_seq_cons, after_seq_cons, after_seq_nil, after_act, if_pos rfl, after_seq_cons, after_seq_cons,
        after_seq_cons, after_seq_nil, ht]
    have hcount (x : Nat) (hx : beadPage + 0x100 ≤ x) : rd t x = rd (after (wrBit (beadPage + 0x128) 1 true) s) x := by
      rw [ht, (keepsReg_count (by omega) (by omega) (by omega) _).eq]
    have hwr (x : Nat) (h : x ≠ beadPage + 0x130) (h4 : x ≠ beadPage + 0x130 + 4) : KeepsReg x (wr64 (beadPage + 0x130) (beadNo s)) :=
      keepsReg_wr64 h h4 _
    have hist (x : Nat) (hx : beadPage + 0x100 ≤ x) : KeepsReg x (setIst beadPage 8) := keepsReg_setIst (by omega) 8
    have hkeep (x : Nat) (hx : beadPage + 0x100 ≤ x) (h : x ≠ beadPage + 0x130) (h4 : x ≠ beadPage + 0x130 + 4) :
        rd (after (applySlip true) s) x = rd (after (wrBit (beadPage + 0x128) 1 true) s) x := by
      rw [he, (hist x hx).eq, (hwr x h h4).eq, hcount x hx]
    have hother (x : Nat) (hx : x ≠ beadPage + 0x128) : rd (after (wrBit (beadPage + 0x128) 1 true) s) x = rd s x := (keepsReg_wrBit hx _ _).eq s
    have hslip : bit (rd (after (applySlip true) s) (beadPage + 0x128)) 1 = true := by
      rw [hkeep _ (by omega) (by omega) (by omega), after_wrBit, rd_ctl_same, bit_setBit_same _ (by decide)]
    have hno : beadNo (after (applySlip true) s) = beadNo s := by
      rw [beadNo, beadNo, rd64, rd64, hkeep _ (by omega) (by omega) (by omega), hkeep _ (by omega) (by omega) (by omega), hother _ (by omega),
        hother _ (by omega)]
    have hheld : rd64 (after (applySlip true) s) (beadPage + 0x130) = beadNo s := by
      have hset (x : Nat) (hx : beadPage + 0x100 ≤ x) : rd (after (applySlip true) s) x = rd (after (wr64 (beadPage + 0x130) (beadNo s)) t) x := by
        rw [he, (keepsReg_setIst (by omega) _).eq]
      rw [rd64, hset _ (by omega), hset _ (by omega), ← rd64, rd64_after_wr64]
    refine ⟨?_, ?_⟩
    · rw [beadHeld, hslip, hheld, hno, decide_eq_true rfl]
      rfl
    · rw [he, after_setIst, rd_ctl_same, bit_setBit_same _ (by decide)]
  · exact (within_applySlip false).onlyIn s
  · have he : after (applySlip false) s = after (wrBit (beadPage + 0x128) 1 false) s := by
      rw [applySlip, after_look, after_seq_cons, after_seq_cons, after_seq_nil, after_act, if_neg (by decide)]
    rw [he]
    refine ⟨?_, fun x hx => (keepsReg_wrBit (fun h => hx (List.mem_singleton.mpr h)) _ _).eq s⟩
    rw [beadHeld, after_wrBit, rd_ctl_same, bit_setBit_same _ (by decide), Bool.false_and]

/-! ## HALT -/

/-- A core of a herd that pauses: at its BEAD row it is PAUSED at once, and one that runs is to pause there (R142). -/
structure CorePaused (s t : State) (c : Nat) : Prop where
  waiting : coreState s c = 5 → coreState t c = 6 ∧ bit (rd t (seqPage c + 0x20)) 10 = true
  running : coreState s c = 3 → coreState t c = 3 ∧ (coreX t c).pausePend = true

/-- What a core shows of whether it pauses. -/
structure SameCore (s t : State) (c : Nat) : Prop where
  state : coreState t c = coreState s c
  latches : rd t (seqPage c + 0x20) = rd s (seqPage c + 0x20)
  data : coreX t c = coreX s c

theorem CorePaused.kept {s t u : State} {c : Nat} (h : CorePaused s t c) (k : SameCore t u c) : CorePaused s u c := by
  obtain ⟨hstate, hist, hdata⟩ := k
  refine ⟨fun h5 => ?_, fun h3 => ?_⟩
  · rw [hstate, hist]
    exact h.waiting h5
  · rw [hstate, hdata]
    exact h.running h3

/-- One core of a herd pauses. -/
def pauseOne (c : Nat) : Act := look fun s =>
    match coreState s c with
    | 5 => seq [setCoreState c 6, setIst (seqPage c) 10]
    | 2 | 3 | 4 => setCore c (fun x => { x with pausePend := true })
    | _ => nop

theorem pauseHerd_eq (h site : Nat) : pauseHerd h site = look fun s => each ((herdSites s h).filter (fun c => decide (c ≠ site))) pauseOne := rfl

theorem after_pauseOne_waiting {s : State} {c : Nat} (h : coreState s c = 5) :
    after (pauseOne c) s = after (setIst (seqPage c) 10) (after (setCoreState c 6) s) := by
  rw [pauseOne, after_look, h]
  rfl

theorem after_pauseOne_running {s : State} {c : Nat} (h : coreState s c = 3) :
    after (pauseOne c) s = after (setCore c (fun x => { x with pausePend := true })) s := by
  rw [pauseOne, after_look, h]
  rfl

theorem after_pauseOne_paused {s : State} {c : Nat} (h : coreState s c = 6) : after (pauseOne c) s = s := by
  rw [pauseOne, after_look, h]
  rfl

theorem sameCore_pauseOne {c d : Nat} (h : d ≠ c) (s : State) : SameCore s (after (pauseOne c) s) d := by
  have pc := pages_of_site c
  have pd := pages_of_site d
  have hfar : corePage c + 0x10000 ≤ corePage d ∨ corePage d + 0x10000 ≤ corePage c := by
    unfold corePage sitePage
    omega
  rw [pauseOne, after_look]
  split
  · rw [after_seq_cons, after_seq_cons, after_seq_nil, after_setIst, after_setCoreState]
    refine ⟨?_, ?_, rfl⟩
    · rw [coreState, rd_ctl_other _ (by omega), rd_ctl_other _ (by omega), ← coreState]
    · rw [rd_ctl_other _ (by omega), rd_ctl_other _ (by omega)]
  · exact ⟨rfl, rfl, coreX_core_other _ h _⟩
  · exact ⟨rfl, rfl, coreX_core_other _ h _⟩
  · exact ⟨rfl, rfl, coreX_core_other _ h _⟩
  · exact ⟨rfl, rfl, rfl⟩

theorem corePaused_pauseOne (c : Nat) (s : State) : CorePaused s (after (pauseOne c) s) c := by
  have pc := pages_of_site c
  refine ⟨fun h5 => ?_, fun h3 => ?_⟩
  · rw [after_pauseOne_waiting h5, after_setIst, after_setCoreState]
    refine ⟨?_, by rw [rd_ctl_same, bit_setBit_same _ (by decide)]⟩
    rw [coreState, rd_ctl_other _ (by omega), rd_ctl_same, fld_setFld _ (by decide) (by decide)]
    rfl
  · rw [after_pauseOne_running h3, after_setCore]
    exact ⟨h3, by rw [coreX_core_same]⟩

theorem CorePaused.again {s t : State} {c : Nat} (h : CorePaused s t c) : CorePaused s (after (pauseOne c) t) c := by
  refine ⟨fun h5 => ?_, fun h3 => (corePaused_pauseOne c t).running (h.running h3).1⟩
  rw [after_pauseOne_paused (h.waiting h5).1]
  exact h.waiting h5

theorem CorePaused.after_each {s : State} {c : Nat} {cs : List Nat} : ∀ {t : State}, CorePaused s t c → CorePaused s (after (each cs pauseOne) t) c := by
  induction cs with
  | nil => exact fun h => h
  | cons d cs ih =>
    intro t h
    rw [after_each_cons]
    by_cases hd : c = d
    · exact ih (hd ▸ h.again)
    · exact ih (h.kept (sameCore_pauseOne hd t))

theorem corePaused_each {c : Nat} {cs : List Nat} : ∀ {s : State}, c ∈ cs → CorePaused s (after (each cs pauseOne) s) c := by
  induction cs with
  | nil => exact nofun
  | cons d cs ih =>
    intro s h
    rw [after_each_cons]
    by_cases hd : c = d
    · subst hd
      exact (corePaused_pauseOne c s).after_each
    · have hrest := ih (s := after (pauseOne d) s) ((List.mem_cons.mp h).resolve_left hd)
      have hstate := (sameCore_pauseOne hd s).state
      exact ⟨fun h5 => hrest.waiting (hstate.trans h5), fun h3 => hrest.running (hstate.trans h3)⟩

theorem does_haltPause (hs : Ready s) {h : HaltSym} {x : Herd} (hh : HaltHere s h) (hx : herdOf s h.herd.val = some x) (hp : x.pod = true) :
    Does (.haltPause h) s [.ctl, .core] (fun t => ∀ c ∈ x.sites, c < 1024 →
      (coreState s c = 5 → coreState t c = 6 ∧ bit (rd t (seqPage c + 0x20)) 10 = true) ∧
      (coreState s c = 3 → (coreX t c).pausePend = true)) := by
  have he : after (actHaltPause h) s = after (pauseHerd h.herd.val 1024) s := by
    rw [actHaltPause, after_haltSymbol hh, after_act, if_pos (by rw [Bool.not_false, Bool.true_or]), pausePodHerd, after_look, hx, Option.any_some, hp, after_act, if_pos rfl]
  refine does_of_run hs.1 rfl ?_ ?_ <;> rw [he]
  · exact (within_pauseHerd ..).onlyIn s
  · intro c hc hlow
    rw [pauseHerd_eq, after_look, herdSites, hx]
    have hmem : c ∈ x.sites.filter (fun c => decide (c ≠ 1024)) := List.mem_filter.mpr ⟨hc, decide_eq_true (by omega)⟩
    have hpaused := corePaused_each (s := s) hmem
    exact ⟨hpaused.waiting, fun h3 => (hpaused.running h3).2⟩

theorem does_haltFail (hs : Ready s) {h : HaltSym} {x : Herd} (hh : HaltHere s h) (hx : herdOf s h.herd.val = some x) (hp : x.pod = true) :
    (h.origin.toNat = leadPos s → x.failed = false → Does (.haltFail h) s [.ctl, .core, .herd, .notices] fun t =>
      ∃ y, herdOf t h.herd.val = some y ∧ y.failed = true) ∧
    (h.origin.toNat ≠ leadPos s → exec (.haltFail h) s = .next s) := by
  have he : after (actHaltFail h) s = after (act (decide (h.origin.toNat = leadPos s)) (failPodHerd h.herd.val)) s := by
    rw [actHaltFail, after_haltSymbol hh, Bool.not_true, Bool.false_or]
  refine ⟨fun hlead hf => ?_, fun hlead => exec_next (a := actHaltFail h) hs.1 rfl ?_⟩
  · rw [decide_eq_true hlead, after_act, if_pos rfl, failPodHerd, after_look, hx, Option.any_some, hp, after_act, if_pos rfl] at he
    refine does_of_run hs.1 rfl ?_ ?_ <;> rw [he]
    · exact (within_failHere ..).onlyIn s
    · exact ⟨_, herdOf_after_failHere hx hf 6, rfl⟩
  · rw [he, decide_eq_false hlead, after_act, if_neg (by decide)]

theorem does_haltLinks (hs : Ready s) {h : HaltSym} (hh : HaltHere s h) (hlead : h.origin.toNat = leadPos s) :
    Does (.haltLinkStop h) s [.side] (fun t => t.side = { s.side with linkStop := true }) ∧
    Does (.haltLinkResume h) s [.ctl, .bx, .side, .out] fun t => t.side = { s.side with linkStop := false } := by
  have he (action : Nat) (eff : Act) : after (haltSymbol h action true eff) s = after eff s := by
    rw [after_haltSymbol hh, decide_eq_true hlead, after_act, if_pos (by decide)]
  have hstop : after (setLinkStop true) s = (Upd.side { s.side with linkStop := true }).apply s := by
    rw [setLinkStop, after_look, after_seq_cons, after_seq_cons, after_seq_nil, after_one, after_act, if_neg (by decide)]
  refine ⟨does_of_run (a := actHaltLinkStop h) hs.1 rfl ?_ ?_, does_of_run (a := actHaltLinkResume h) hs.1 rfl ?_ ?_⟩
  · rw [actHaltLinkStop, he, hstop]
    exact onlyIn_apply (.side _) s
  · rw [actHaltLinkStop, he, hstop, apply_side]
  · rw [actHaltLinkResume, he]
    exact (within_setLinkStop _).onlyIn s
  · rw [actHaltLinkResume, he]
    exact side_after_setLinkStop ..

/-- A symbol whose CRC-16 fails has no effect (R468). -/
theorem exec_badSymbols (hs : Ready s) (k : BxNo) (bead lag : BitVec 16) (slip late missing : Bool) (votes : DWord) (p : Option Nat) {h : HaltSym}
    (hcrc : h.crcOk = false) : exec (.mark ⟨k, false⟩ bead lag late p) s = .next s ∧ exec (.report ⟨k, false⟩ bead slip votes) s = .next s ∧
      exec (.result ⟨k, false⟩ bead slip missing votes) s = .next s ∧ exec (.haltPause h) s = .next s ∧ exec (.haltFail h) s = .next s ∧
      exec (.haltLinkStop h) s = .next s ∧ exec (.haltLinkResume h) s = .next s := by
  have hhalt (action : Nat) (leadOnly : Bool) (eff : Act) : after (haltSymbol h action leadOnly eff) s = s := by
    rw [haltSymbol, hcrc, after_symbolFrom_bad]
  exact ⟨exec_next hs.1 rfl (after_symbolFrom_bad ..), exec_next hs.1 rfl (after_symbolFrom_bad ..), exec_next hs.1 rfl (after_symbolFrom_bad ..),
    exec_next hs.1 rfl (hhalt ..), exec_next hs.1 rfl (hhalt ..), exec_next hs.1 rfl (hhalt ..), exec_next hs.1 rfl (hhalt ..)⟩

/-! ## The dump -/

theorem does_dumpGo (hs : Ready s) {v : Word} (ht : Takes s 4) (hv : bit v 31 = true) (hidle : bit (rd s dumpCtl) 30 = false) :
    Does (.dumpGo .ringCtl v) s [.ctl, .dumpRun] fun t =>
      t.dumpRun = some ⟨1, fld v 5 0, bit v 8, beadNo s, beadCyc s, none, 0⟩ ∧ bit (rd t dumpCtl) 30 = true ∧ RegsAt [dumpCtl] s t := by
  have hctl : dumpCtl = 0x4100 := rfl
  obtain ⟨u, hu⟩ : ∃ u, u = after (maskWrite (.mgt 4) dumpCtl v) s := ⟨_, rfl⟩
  have hreg (x : Nat) (hx : x ≠ dumpCtl) : rd u x = rd s x := by
    rw [hu]
    exact (keepsReg_maskWrite hx _ _).eq s
  have hdef : regDef (.mgt 4) (dumpCtl % 4096) = some ⟨0x100, 1, 4, 0x13F, 0, 0, 0x40000000, 0, 0⟩ := rfl
  have honly : bit (rd u dumpCtl) 8 = bit v 8 := by
    rw [hu, bit_eq_decide_fld, bit_eq_decide_fld, fld_after_maskWrite hdef rfl rfl (by decide) fun i _ hi => by
      rw [show i = 8 by omega]
      decide]
  have hherd : fld (rd u dumpCtl) 5 0 = fld v 5 0 := by
    rw [hu, fld_after_maskWrite hdef rfl rfl (by decide) fun i _ hi => by interval_cases i <;> decide]
  have hno : beadNo u = beadNo s := by
    rw [beadNo, beadNo, rd64, rd64, hreg _ (by omega), hreg _ (by omega)]
  have hcyc : beadCyc u = beadCyc s := by
    rw [beadCyc, beadCyc, hreg _ (by omega)]
  have he : after (dumpCtlWrite .ringCtl v) s =
      after (wrBit dumpCtl 30 true) (after (one (.dumpRun (some ⟨1, fld v 5 0, bit v 8, beadNo s, beadCyc s, none, 0⟩))) u) := by
    rw [dumpCtlWrite, after_look, hidle, Bool.and_false, if_neg (by decide), after_seq_cons, after_seq_cons, after_seq_nil, ← hu, hv, after_act,
      if_pos rfl, after_look, beginDump, after_look, hherd, honly, hno, hcyc, after_seq_cons, after_seq_cons, after_seq_nil]
  refine does_guarded_ring hs ht rfl rfl ?_ ?_ <;> rw [he]
  · have hgo : Within [.dumpRun] (one (.dumpRun (some ⟨1, fld v 5 0, bit v 8, beadNo s, beadCyc s, none, 0⟩))) := within_one rfl
    rw [hu]
    exact (((within_maskWrite ..).wider rfl).onlyIn s).trans ((hgo.wider rfl).onlyIn _) |>.trans (((within_wrBit ..).wider rfl).onlyIn _)
  · refine ⟨rfl, ?_, fun x hx => ?_⟩
    · rw [after_wrBit, rd_ctl_same, bit_setBit_same _ (by decide)]
    · have hne : x ≠ dumpCtl := fun h => hx (List.mem_singleton.mpr h)
      rw [(keepsReg_wrBit hne _ _).eq]
      exact hreg x hne

theorem does_dumpGo_busy (hs : Ready s) {v : Word} (ht : Takes s 4) (hv : bit v 31 = true) (hbusy : bit (rd s dumpCtl) 30 = true) :
    Does (.dumpGo .ringCtl v) s [.ctl, .freeCtr] fun t => rd t dumpCtl = rd s dumpCtl ∧ bit (rd t (mgtPage 4 + 0x20)) 3 = true := by
  have he : after (dumpCtlWrite .ringCtl v) s = after (raise (mgtPage 4) { cls := .protocol, req := reqNo .ringCtl }) s := by
    rw [dumpCtlWrite, after_look, hv, hbusy, if_pos (by decide), protocolAt]
  refine does_guarded_ring hs ht rfl rfl ?_ ?_ <;> rw [he]
  · exact onlyIn_raise_mild s _ nofun
  · exact ⟨rd_after_raise_other s (by decide) (by decide) nofun, bit_after_raise s nofun⟩

theorem does_dumpEnd (hs : Ready s) {d : DumpRun} (hd : s.dumpRun = some d) :
    (allFilled s = false → exec .dumpEnd s = .next s) ∧
    (d.cmd = none → allFilled s = true → Does .dumpEnd s [.ctl, .mem, .chk, .mergeBuf, .dumpRun, .freeCtr] fun t => t.dumpRun = none ∧
      bit (rd t dumpCtl) 30 = false ∧ rd t (mgtPage 4 + 0x104) = rd s (mgtPage 4 + 0x104) + 1 ∧ bit (rd t (mgtPage 4 + 0x20)) 8 = true) := by
  refine ⟨fun hfill => exec_next (a := actDumpEnd) hs.1 rfl ?_, fun hcmd hfill => ?_⟩
  · rw [actDumpEnd, after_look, hd]
    dsimp only
    rw [hfill, if_pos (by simp), after_nop]
  · have he : after actDumpEnd s = after (one (.dumpRun none)) (after (setIst (mgtPage 4) 8) (after (wrBit dumpCtl 30 false)
        (after (wr (mgtPage 4 + 0x104) (rd s (mgtPage 4 + 0x104) + 1))
          (after (devWrite (dumpSlot s ((rd s (mgtPage 4 + 0x104)).toNat % 4)) (dumpBytes s d) d.herd) s)))) := by
      rw [actDumpEnd, after_look, hd]
      dsimp only
      rw [hfill, hcmd, if_neg (by simp)]
      iterate 6 rw [after_seq_cons]
      rw [after_seq_nil, after_nop]
    have hwend : Within [.dumpRun] (one (.dumpRun none)) := within_one rfl
    refine does_of_run hs.1 rfl ?_ ?_ <;> rw [he]
    · exact ((within_devWrite ..).onlyIn s).trans (((within_wr ..).wider rfl).onlyIn _) |>.trans (((within_wrBit ..).wider rfl).onlyIn _)
        |>.trans (((within_setIst ..).wider rfl).onlyIn _) |>.trans ((hwend.wider rfl).onlyIn _)
    · generalize after (devWrite (dumpSlot s ((rd s (mgtPage 4 + 0x104)).toNat % 4)) (dumpBytes s d) d.herd) s = u
      have hend (x : Nat) : KeepsReg x (one (.dumpRun none)) := hwend.keepsReg x
      have hist (x : Nat) (hx : x ≠ mgtPage 4 + 0x20) : KeepsReg x (setIst (mgtPage 4) 8) := keepsReg_setIst hx 8
      have hbusy (x : Nat) (hx : x ≠ dumpCtl) : KeepsReg x (wrBit dumpCtl 30 false) := keepsReg_wrBit hx 30 false
      refine ⟨by rw [after_one, apply_dumpRun], ?_, ?_, ?_⟩
      · rw [(hend _).eq, (hist _ (by decide)).eq, after_wrBit, rd_ctl_same, bit_setBit_same _ (by decide)]
      · rw [(hend _).eq, (hist _ (by decide)).eq, (hbusy _ (by decide)).eq, after_wr, rd_ctl_same]
      · rw [(hend _).eq, after_setIst, rd_ctl_same, bit_setBit_same _ (by decide)]

end

/-- Settles O41: the exchange of a bead, then the dump. -/
theorem beadExchangeAndDumps : Obligations.BeadExchangeAndDumps := by
  unfold Obligations.BeadExchangeAndDumps
  refine ⟨⟨?_, ?_, ?_, ?_, ?_, ?_⟩, ?_, ?_, ?_, ?_⟩
  · exact fun s hs k bead slip votes hup hk hp hkid hsent hnew hbead hlate => does_report hs slip votes hup hk hp hkid hsent hnew hbead hlate
  · exact fun s hs k hp hsent hroot hlead hparent hup hlate => does_reportDeadline hs hp hsent hroot hlead hparent hup hlate
  · exact fun s hs k bead missing votes hup hk hp hroot hparent hbead _ hclosing hkids =>
      does_result hs missing votes hup hk hp hroot hparent hbead hclosing hkids
  · exact fun s hs h x hh hx hp => ⟨does_haltPause hs hh hx hp, does_haltFail hs hh hx hp⟩
  · exact fun s hs k bead lag slip late missing votes p h hcrc => exec_badSymbols hs k bead lag slip late missing votes p hcrc
  · exact fun s hs h hh hlead => does_haltLinks hs hh hlead
  · exact fun s hs v ht hv hidle => does_dumpGo hs ht hv hidle
  · exact fun s hs v ht hv hbusy => does_dumpGo_busy hs ht hv hbusy
  · exact fun s hs d hd hfill => (does_dumpEnd hs hd).1 hfill
  · exact fun s hs d hd hcmd hfill => (does_dumpEnd hs hd).2 hcmd hfill

end Sys2Proof.Machine
end

section
/-! Beynex links: acknowledgment, replay, credits, training and its end, cables, frames on their way (O42). -/

namespace Sys2Proof.Machine

-- One declaration after the other: elaborated side by side they take more memory than the check has.
set_option Elab.async false

/-! ## What a port holds -/

theorem after_setBx (n : Nat) (f : BxPort → BxPort) (s : State) : after (setBx n f) s = (Upd.bx n (f (bxOf s n))).apply s := rfl

theorem bxOf_bx_same (n : Nat) (x : BxPort) (s : State) : bxOf ((Upd.bx n x).apply s) n = x := mGetD_mSet_same ..

theorem bxOf_bx_other {n m : Nat} (h : m ≠ n) (x : BxPort) (s : State) : bxOf ((Upd.bx n x).apply s) m = bxOf s m := mGetD_mSet_other _ h ..

theorem bxOf_of_bx {s t : State} (h : t.bx = s.bx) (n : Nat) : bxOf t n = bxOf s n := by rw [bxOf, bxOf, h]

theorem linkUp_of_rd {s t : State} {n : Nat} (h : rd t (bxPage n + 0x104) = rd s (bxPage n + 0x104)) : linkUp t n = linkUp s n := by
  rw [linkUp, linkUp, linkState, linkState, h]

theorem within_setBx_bx (n : Nat) (f : BxPort → BxPort) : Within [.bx] (setBx n f) := within_look fun _ => within_one rfl

/-- No frame waits, and none leaves. -/
theorem after_flushFrames_none {s : State} {n : Nat} (h : (bxOf s n).waiting = []) : after (flushFrames n) s = s := by
  rw [flushFrames, after_look, h]
  rfl

theorem after_sendSym {s : State} {n : Nat} (h : linkUp s n = true) (kind bead aux : Nat) (data : DWord) :
    after (sendSym n kind bead aux data) s =
      (Upd.out (.symbol n (BitVec.ofNat 8 kind) (BitVec.ofNat 16 bead) (BitVec.ofNat 16 aux) data (symbolCrc kind bead aux data))).apply s := by
  rw [sendSym, after_look, h, after_act, if_pos rfl, after_one]

theorem bxPage_page (p : Nat) : bxPage p % 4096 = 0 := by
  unfold bxPage
  omega

/-! ## Link symbols -/

theorem after_linkSym {s : State} {p : BxNo} (h : linkUp s p.val = true) (body : Act) : after (linkSym ⟨p, true⟩ body) s = after body s := by
  rw [linkSym, after_look, h, after_act, if_pos (by simp)]

theorem after_linkSym_bad (s : State) (p : BxNo) (body : Act) : after (linkSym ⟨p, false⟩ body) s = s := by
  rw [linkSym, after_look, Bool.and_false, after_act, if_neg (by decide)]

/-- The replay buffer from a frame on. -/
theorem dropWhile_lseq {l : Nat} {done rest : List Frame} {g : Frame} (hdone : ∀ f ∈ done, f.lseq ≠ l) (hg : g.lseq = l) :
    (done ++ g :: rest).dropWhile (fun f => decide (f.lseq ≠ l)) = g :: rest := by
  rw [List.dropWhile_append_of_pos fun f hf => decide_eq_true (hdone f hf), List.dropWhile_cons_of_neg (by simp [hg])]

section
variable {s : State} (hs : Ready s) {p : BxNo} (hup : linkUp s p.val = true)
include hs hup

theorem does_linkAck {l : BitVec 16} {done rest : List Frame} {g : Frame} (hreplay : (bxOf s p.val).replay = done ++ g :: rest)
    (hdone : ∀ f ∈ done, f.lseq ≠ l.toNat) (hg : g.lseq = l.toNat) (hwait : (bxOf s p.val).waiting = []) :
    Does (.linkAck ⟨p, true⟩ l) s [.bx] fun t =>
      bxOf t p.val = { bxOf s p.val with replay := rest } ∧ ∀ q, q ≠ p.val → bxOf t q = bxOf s q := by
  have hany : (done ++ g :: rest).any (fun f => decide (f.lseq = l.toNat)) = true :=
    List.any_eq_true.mpr ⟨g, by simp, decide_eq_true hg⟩
  have he : after (actLinkAck ⟨p, true⟩ l) s = (Upd.bx p.val { bxOf s p.val with replay := rest }).apply s := by
    rw [actLinkAck, after_linkSym hup, after_look]
    dsimp only
    rw [hreplay, hany, after_act, if_pos rfl, after_seq_cons, after_seq_cons, after_seq_nil, after_setBx, dropWhile_lseq hdone hg,
      List.drop_one, List.tail_cons, after_flushFrames_none (by rw [bxOf_bx_same]; exact hwait)]
  refine does_of_run hs.1 rfl ?_ ?_ <;> rw [he]
  · exact onlyIn_apply (.bx ..) s
  · exact ⟨bxOf_bx_same .., fun q hq => bxOf_bx_other hq ..⟩

omit hs hup in
theorem out_after_putFrame (n : Nat) (f : Frame) (s : State) : (after (putFrame n f) s).out = s.out ++ [.frame n f (frameCrc f)] := by
  rw [putFrame, after_seq_cons, after_seq_cons, after_seq_cons, after_seq_nil, (within_count ..).out, (within_count ..).out, after_one, apply_out]

omit hs hup in
theorem out_after_putFrames (n : Nat) (fs : List Frame) : ∀ s : State,
    (after (each fs (putFrame n)) s).out = s.out ++ fs.map (fun f => .frame n f (frameCrc f)) := by
  induction fs with
  | nil => exact fun s => (List.append_nil _).symm
  | cons f fs ih =>
    intro s
    rw [after_each_cons, ih, out_after_putFrame, List.append_assoc]
    rfl

omit hs hup in
theorem writesIn_putFrame (n : Nat) (f : Frame) : WritesIn [bxPage n] (putFrame n f) :=
  .cons ((within_one (ps := [.out]) rfl).writesIn _) (.cons (writesIn_count (bxPage_page n) (by decide) (List.mem_singleton_self _) _)
    (.cons (writesIn_count (bxPage_page n) (by decide) (List.mem_singleton_self _) _) (writesIn_seq_nil _)))

theorem does_linkReplay {l : BitVec 16} {done rest now : List Frame} {g : Frame} (hreplay : (bxOf s p.val).replay = done ++ g :: rest)
    (hdone : ∀ f ∈ done, f.lseq ≠ l.toNat) (hg : g.lseq = l.toNat)
    (hnow : now = (g :: rest).takeWhile (fun f => decide (f.lvc = 0) || !s.side.linkStop)) :
    Does (.linkReplay ⟨p, true⟩ l) s [.ctl, .bx, .out] fun t => t.out = s.out ++ now.map (fun f => .frame p.val f (frameCrc f)) ∧
      RegsOnly [bxPage p.val] s t ∧
      bxOf t p.val = { bxOf s p.val with resend := ((g :: rest).drop now.length).head?.map (·.lseq) } := by
  have hframes : Within [.ctl, .out] (each now (putFrame p.val)) := within_each fun f => within_putFrame ..
  have he : after (actLinkReplay ⟨p, true⟩ l) s = after (setBx p.val (fun x => { x with resend := ((g :: rest).drop now.length).head?.map (·.lseq) }))
      (after (each now (putFrame p.val)) s) := by
    rw [actLinkReplay, after_linkSym hup, resendFrom, after_look]
    dsimp only
    rw [hreplay, dropWhile_lseq hdone hg, ← hnow, after_seq_cons, after_seq_cons, after_seq_nil]
  refine does_of_run hs.1 rfl ?_ ?_ <;> rw [he]
  · exact ((hframes.wider rfl).onlyIn s).trans (((within_setBx_bx ..).wider rfl).onlyIn _)
  · refine ⟨?_, ?_, ?_⟩
    · rw [(within_setBx_bx ..).out, out_after_putFrames]
    · exact (WritesIn.regsOnly (writesIn_each fun f _ => writesIn_putFrame p.val f) s).trans ((within_setBx_bx ..).regsOnly _ _)
    · rw [after_setBx, bxOf_bx_same, bxOf_of_bx (hframes.bx s)]

theorem does_linkCredit (cs : List Nat) (hwait : (bxOf s p.val).waiting = []) :
    Does (.linkCredit ⟨p, true⟩ cs) s [.bx] fun t => (bxOf t p.val).replay = (bxOf s p.val).replay ∧
      (bxOf t p.val).credits.length = (bxOf s p.val).credits.length ∧
      ∀ k < (bxOf s p.val).credits.length, (bxOf t p.val).credits.getD k 0 =
        min ((bxOf s p.val).credits.getD k 0 + cs.getD k 0) (BxPort.clear.credits.getD k 0) := by
  have he : after (actLinkCredit ⟨p, true⟩ cs) s = (Upd.bx p.val { bxOf s p.val with
      credits := (bxOf s p.val).credits.zipIdx.map (fun q => min (q.1 + cs.getD q.2 0) (BxPort.clear.credits.getD q.2 0)) }).apply s := by
    rw [actLinkCredit, after_linkSym hup, after_seq_cons, after_seq_cons, after_seq_nil, after_setBx,
      after_flushFrames_none (by rw [bxOf_bx_same]; exact hwait)]
  refine does_of_run hs.1 rfl ?_ ?_ <;> rw [he]
  · exact onlyIn_apply (.bx ..) s
  · rw [bxOf_bx_same]
    dsimp only
    refine ⟨rfl, by rw [List.length_map, List.length_zipIdx], fun k hk => ?_⟩
    rw [List.getD_eq_getElem _ _ (by rw [List.length_map, List.length_zipIdx]; exact hk), List.getElem_map, List.getElem_zipIdx,
      List.getD_eq_getElem _ _ hk, Nat.zero_add]

omit hup in
/-- A link symbol whose CRC-16 fails changes nothing (R468). -/
theorem exec_badLinkSymbols (p : BxNo) (l : BitVec 16) (cs : List Nat) : exec (.linkAck ⟨p, false⟩ l) s = .next s ∧
    exec (.linkReplay ⟨p, false⟩ l) s = .next s ∧ exec (.linkCredit ⟨p, false⟩ cs) s = .next s :=
  ⟨exec_next hs.1 rfl (after_linkSym_bad ..), exec_next hs.1 rfl (after_linkSym_bad ..), exec_next hs.1 rfl (after_linkSym_bad ..)⟩

end

/-! ## Training -/

theorem keepsReg_setLink_at {x p : Nat} (hx : x ≠ bxPage p + 0x104) (st lanes : Nat) : KeepsReg x (setLink p st lanes) := keepsReg_wr hx _

theorem linkState_after_setLink (p st lanes : Nat) (hst : st < 16) (s : State) :
    linkState (after (setLink p st lanes) s) p = st := by
  rw [linkState, setLink, after_wr, rd_ctl_same, fld_ofNat _ (by decide) (by decide), bits]
  omega

/-- Reading a cable writes the words of its identity alone. -/
theorem keepsReg_readCable_items {x p : Nat} (hx : x < bxPage p + 0x140 ∨ bxPage p + 0x174 ≤ x) : KeepsReg x (readCable p) := by
  refine keeps_look fun s => ?_
  split
  · exact keeps_nop
  · refine keeps_seq_cons ((within_one (ps := [.out]) rfl).keepsReg x) (keeps_seq_cons (keeps_ite (fun _ => ?_) fun _ => ?_) keeps_seq_nil)
    · exact keeps_seq_cons (keepsReg_wr (by omega) _) (keeps_seq_cons (keepsReg_putChars (by omega) _) (keeps_seq_cons
        (keepsReg_putChars (by omega) _) (keeps_seq_cons (keepsReg_putChars (by omega) _) keeps_seq_nil)))
    · exact keepsReg_wr (by omega) _

theorem keepsReg_startTraining_at {x p : Nat} (h : x ≠ bxPage p + 0x104) (hx : x < bxPage p + 0x140 ∨ bxPage p + 0x174 ≤ x) :
    KeepsReg x (startTraining p) :=
  keeps_seq_cons (keepsReg_setLink_at h ..) (keeps_seq_cons (keepsReg_readCable_items hx) keeps_seq_nil)

theorem linkState_after_startTraining (p : Nat) (s : State) : linkState (after (startTraining p) s) p = 1 := by
  rw [startTraining, after_seq_cons, after_seq_cons, after_seq_nil, linkState, (keepsReg_readCable_items (by omega)).eq, ← linkState,
    linkState_after_setLink p 1 0 (by decide)]

theorem after_readCable {s : State} {p : Nat} {c : Cable} (hc : mGet s.cable p = some c) (hok : c.readOk = true) :
    after (readCable p) s = after (seq [putChars (bxPage p + 0x144) c.vendor, putChars (bxPage p + 0x154) c.part, putChars (bxPage p + 0x164) c.serial])
      (after (wr (bxPage p + 0x140) (BitVec.ofNat 32 (0xC0000000 + 65536 * c.length.toNat + 256 * c.media.toNat + c.ident.toNat)))
        (after (one (.out (.pageSelect p 0))) s)) := by
  rw [readCable, after_look, hc]
  dsimp only
  rw [hok, if_pos rfl, after_seq_cons, after_seq_cons, after_seq_nil, after_seq_cons]

/-- The items of a cable that can be read are shown (R499). -/
theorem rd_after_readCable {s : State} {p : Nat} {c : Cable} (hc : mGet s.cable p = some c) (hok : c.readOk = true) :
    rd (after (readCable p) s) (bxPage p + 0x140) =
      BitVec.ofNat 32 (0xC0000000 + 65536 * c.length.toNat + 256 * c.media.toNat + c.ident.toNat) := by
  have hchars : KeepsReg (bxPage p + 0x140) (seq [putChars (bxPage p + 0x144) c.vendor, putChars (bxPage p + 0x154) c.part,
      putChars (bxPage p + 0x164) c.serial]) :=
    keeps_seq_cons (keepsReg_putChars (by omega) _) (keeps_seq_cons (keepsReg_putChars (by omega) _) (keeps_seq_cons
      (keepsReg_putChars (by omega) _) keeps_seq_nil))
  rw [after_readCable hc hok, hchars.eq, after_wr, rd_ctl_same]

/-- An event sets no bit of BLK_IST but its own. -/
theorem bit_ist_after_raise (s : State) {p i : Nat} {c : Capture} (hi : i ≠ c.cls.code) (hdump : c.cls ≠ .uncorrFatal) :
    bit (rd (after (raise p c) s) (p + 0x20)) i = bit (rd s (p + 0x20)) i := by
  rw [rd_after_raise s (by omega) fun h => absurd h hdump, after_setIst, rd_ctl_same, bit_setBit_other _ c.cls.code_lt hi]

/-- The exchange of identities at the end of training (R458). -/
def exchange (s : State) (p : Nat) (w : Word) (delay : BitVec 16) : Act :=
  seq [setLink p 2 0xFF, one (.out (.announce p (announcement s))), wr (bxPage p + 0x10C) w, wrFld (bxPage p + 0x110) 15 0 delay.toNat]

theorem within_exchange (s : State) (p : Nat) (w : Word) (delay : BitVec 16) : Within [.ctl, .out] (exchange s p w delay) :=
  within_seq_cons ((within_wr ..).wider rfl) <| within_seq_cons (within_one rfl) <| within_seq_cons ((within_wr ..).wider rfl) <|
    within_seq_cons ((within_wrFld ..).wider rfl) within_seq_nil

theorem keepsReg_exchange {x p : Nat} (h1 : x ≠ bxPage p + 0x104) (h2 : x ≠ bxPage p + 0x10C) (h3 : x ≠ bxPage p + 0x110) (s : State) (w : Word)
    (delay : BitVec 16) : KeepsReg x (exchange s p w delay) :=
  keeps_seq_cons (keepsReg_setLink_at h1 ..) <| keeps_seq_cons ((within_one (ps := [.out]) rfl).keepsReg x) <| keeps_seq_cons (keepsReg_wr h2 _) <|
    keeps_seq_cons (keepsReg_wrFld h3 ..) keeps_seq_nil

theorem exchanged (s t : State) (p : Nat) (w : Word) (delay : BitVec 16) : let u := after (exchange s p w delay) t
    rd u (bxPage p + 0x10C) = w ∧ fld (rd u (bxPage p + 0x110)) 15 0 = delay.toNat ∧ u.out = t.out ++ [.announce p (announcement s)] := by
  intro u
  have hu : u = after (wrFld (bxPage p + 0x110) 15 0 delay.toNat) (after (wr (bxPage p + 0x10C) w)
      (after (one (.out (.announce p (announcement s)))) (after (setLink p 2 0xFF) t))) := by
    show after (exchange s p w delay) t = _
    rw [exchange, after_seq_cons, after_seq_cons, after_seq_cons, after_seq_cons, after_seq_nil]
  have hdelay := delay.isLt
  rw [hu]
  refine ⟨?_, ?_, rfl⟩
  · rw [(keepsReg_wrFld (by omega) ..).eq, after_wr, rd_ctl_same]
  · rw [after_wrFld, rd_ctl_same, fld_setFld _ (by decide) (by decide)]
    omega

theorem after_actLinkUp {s : State} {p : Nat} {w : Word} {delay : BitVec 16} (ht : trains s p = true) (hdown : linkUp s p = false)
    (hc : unconnected s p = false) : after (actLinkUp p w delay) s =
      after (if p < 6 && !(bit (rd s (bxPage p + 0x108)) 31 && decide (rd s (bxPage p + 0x108) = w &&& 0x803FFFFF))
        then seq [setLink p 4 0xFF, setIst (bxPage p) 10, count (bxPage p) 7 1, raise (bxPage p) { cls := .security }]
        else seq [setLink p 3 0xFF, one (.bx p BxPort.clear), setIst (bxPage p) 8,
          look fun s => act (decide (p < 6) && isLead s && portsUp s) sendJoins])
        (after (exchange s p (w &&& 0x803FFFFF) delay) s) := by
  rw [actLinkUp, after_look, ht, hdown, hc, if_neg (by decide), exchange]
  iterate 4 rw [after_seq_cons, after_seq_cons]
  rw [after_seq_cons, after_seq_nil, after_seq_nil]

section
variable {s : State} (hs : Ready s) {p : BxNo}
include hs

theorem does_linkUp_up {w : Word} {delay : BitVec 16} (ht : trains s p.val = true) (hdown : linkUp s p.val = false)
    (hc : unconnected s p.val = false) (hlead : isLead s = false)
    (hnbr : p.val < 6 → bit (rd s (bxPage p.val + 0x108)) 31 = true ∧ rd s (bxPage p.val + 0x108) = w &&& 0x803FFFFF) :
    Does (.linkUp p w delay) s [.ctl, .bx, .out] fun t => linkUp t p.val = true ∧ bxOf t p.val = BxPort.clear ∧
      rd t (bxPage p.val + 0x10C) = w &&& 0x803FFFFF ∧ fld (rd t (bxPage p.val + 0x110)) 15 0 = delay.toNat ∧
      bit (rd t (bxPage p.val + 0x20)) 8 = true ∧ t.out = s.out ++ [.announce p.val (announcement s)] := by
  obtain ⟨u, hu⟩ : ∃ u, u = after (exchange s p.val (w &&& 0x803FFFFF) delay) s := ⟨_, rfl⟩
  obtain ⟨hw, hdelay, hout⟩ := exchanged s s p.val (w &&& 0x803FFFFF) delay
  rw [← hu] at hw hdelay hout
  have honly : OnlyIn [.ctl, .out] s u := hu ▸ (within_exchange ..).onlyIn s
  have hbx (x : BxPort) : Within [.bx] (one (.bx p.val x)) := within_one rfl
  have hlead' : isLead (after (setIst (bxPage p.val) 8) (after (one (.bx p.val BxPort.clear)) (after (setLink p.val 3 0xFF) u))) = false := by
    have hp : bxPage p.val = 0x160000 + p.val * 0x1000 := rfl
    have hcfg : podCfg (after (setIst (bxPage p.val) 8) (after (one (.bx p.val BxPort.clear)) (after (setLink p.val 3 0xFF) u))) = podCfg s := by
      have h0 : bxPage 0 = 0x160000 := rfl
      rw [podCfg, (keepsReg_setIst (by omega) _).eq, ((hbx _).keepsReg _).eq, (keepsReg_setLink_at (by omega) ..).eq, hu,
        (keepsReg_exchange (by omega) (by omega) (by omega) ..).eq, ← podCfg]
    rw [isLead, podEn, ownPos, leadPos, hcfg]
    exact hlead
  have hmatch : ¬ (decide (p.val < 6) && !(bit (rd s (bxPage p.val + 0x108)) 31 && decide (rd s (bxPage p.val + 0x108) = w &&& 0x803FFFFF))) = true := by
    by_cases h6 : p.val < 6
    · obtain ⟨hvalid, hsame⟩ := hnbr h6
      rw [hvalid, decide_eq_true hsame]
      simp
    · simp [h6]
  have he : after (actLinkUp p.val w delay) s = after (setIst (bxPage p.val) 8) (after (one (.bx p.val BxPort.clear)) (after (setLink p.val 3 0xFF) u)) := by
    rw [after_actLinkUp ht hdown hc, if_neg hmatch, ← hu]
    iterate 4 rw [after_seq_cons]
    rw [after_seq_nil, after_look, hlead', Bool.and_false, Bool.false_and, after_act, if_neg (by decide)]
  have hkeep (x : Nat) (h1 : x ≠ bxPage p.val + 0x20) (h2 : x ≠ bxPage p.val + 0x104) :
      rd (after (setIst (bxPage p.val) 8) (after (one (.bx p.val BxPort.clear)) (after (setLink p.val 3 0xFF) u))) x = rd u x := by
    rw [(keepsReg_setIst h1 _).eq, ((hbx _).keepsReg _).eq, (keepsReg_setLink_at h2 ..).eq]
  refine does_of_run hs.1 rfl ?_ ?_ <;> rw [he]
  · exact (honly.wider rfl).trans (((within_wr ..).wider rfl).onlyIn u) |>.trans (((hbx _).wider rfl).onlyIn _) |>.trans
      (((within_setIst ..).wider rfl).onlyIn _)
  · refine ⟨?_, ?_, ?_, ?_, ?_, hout⟩
    · rw [linkUp, linkState, (keepsReg_setIst (by omega) _).eq, ((hbx _).keepsReg _).eq, ← linkState, linkState_after_setLink _ _ _ (by decide)]
      rfl
    · rw [bxOf_of_bx ((within_setIst ..).bx _), after_one, bxOf_bx_same]
    · rw [hkeep _ (by omega) (by omega), hw]
    · rw [hkeep _ (by omega) (by omega), hdelay]
    · rw [after_setIst, rd_ctl_same, bit_setBit_same _ (by decide)]

theorem does_linkUp_wrong {w : Word} {delay : BitVec 16} (ht : trains s p.val = true) (hdown : linkUp s p.val = false)
    (hc : unconnected s p.val = false) (h6 : p.val < 6)
    (hnbr : bit (rd s (bxPage p.val + 0x108)) 31 = false ∨ rd s (bxPage p.val + 0x108) ≠ w &&& 0x803FFFFF) :
    Does (.linkUp p w delay) s [.ctl, .freeCtr, .out] fun t => linkState t p.val = 4 ∧ bit (rd t (bxPage p.val + 0x20)) 10 = true ∧
      bit (rd t (bxPage p.val + 0x20)) 6 = true ∧ t.out = s.out ++ [.announce p.val (announcement s)] := by
  obtain ⟨u, hu⟩ : ∃ u, u = after (exchange s p.val (w &&& 0x803FFFFF) delay) s := ⟨_, rfl⟩
  obtain ⟨-, -, hout⟩ := exchanged s s p.val (w &&& 0x803FFFFF) delay
  rw [← hu] at hout
  have honly : OnlyIn [.ctl, .out] s u := hu ▸ (within_exchange ..).onlyIn s
  have hmismatch : (decide (p.val < 6) && !(bit (rd s (bxPage p.val + 0x108)) 31 && decide (rd s (bxPage p.val + 0x108) = w &&& 0x803FFFFF))) = true := by
    rcases hnbr with h | h
    · simp [h, h6]
    · rw [decide_eq_false h]
      simp [h6]
  obtain ⟨v, hv⟩ : ∃ v, v = after (count (bxPage p.val) 7 1) (after (setIst (bxPage p.val) 10) (after (setLink p.val 4 0xFF) u)) := ⟨_, rfl⟩
  have hvonly : OnlyIn [.ctl] u v := by
    rw [hv]
    exact ((within_wr ..).onlyIn u).trans ((within_setIst ..).onlyIn _) |>.trans ((within_count ..).onlyIn _)
  have he : after (actLinkUp p.val w delay) s = after (raise (bxPage p.val) { cls := .security }) v := by
    rw [after_actLinkUp ht hdown hc, if_pos hmismatch, ← hu]
    iterate 4 rw [after_seq_cons]
    rw [after_seq_nil, hv]
  have hist : bit (rd v (bxPage p.val + 0x20)) 10 = true := by
    rw [hv]
    rw [(keeps_istBit_count _ 7 1 (by decide) (by decide)).eq, after_setIst, rd_ctl_same, bit_setBit_same _ (by decide)]
  have hraise : OnlyIn [.ctl, .freeCtr] v (after (raise (bxPage p.val) { cls := .security }) v) := onlyIn_raise_mild v _ nofun
  refine does_of_run hs.1 rfl ?_ ?_ <;> rw [he]
  · exact (honly.wider rfl).trans (hvonly.wider rfl) |>.trans (hraise.wider rfl)
  · refine ⟨?_, ?_, bit_after_raise v nofun, ?_⟩
    · have hkeep : KeepsReg (bxPage p.val + 0x104) (raise (bxPage p.val) { cls := .security }) := keepsReg_raise (by omega) (by omega) nofun
      rw [linkState, hkeep.eq, hv, (keepsReg_count (by omega) (by omega) (by omega) _).eq,
        (keepsReg_setIst (by omega) _).eq, ← linkState, linkState_after_setLink _ _ _ (by decide)]
    · rw [bit_ist_after_raise v (c := { cls := .security }) (by decide) nofun, hist]
    · have h1 : (after (raise (bxPage p.val) { cls := .security }) v).out = v.out := hraise .out rfl
      have h2 : v.out = u.out := hvonly .out rfl
      rw [h1, h2, hout]

end

end Sys2Proof.Machine
end

section
/-! A link's fall and its retraining, cables, and frames on their way (R461 to R467, R499, R500); O42. -/

namespace Sys2Proof.Machine

-- One declaration after the other: elaborated side by side they take more memory than the check has.
set_option Elab.async false

/-! ## A port goes down -/

theorem after_portDown (p : Nat) (s : State) : after (portDown p) s =
    after (raise (bxPage p) { cls := .uncorrContained }) (after (setIst (bxPage p) 9) (after (count (bxPage p) 6 1)
      (after (one (.bx p BxPort.clear)) (after (if trains s p then startTraining p else setLink p 0 0) (after (endOnPort p) s))))) := by
  rw [portDown, after_look]
  iterate 6 rw [after_seq_cons]
  rw [after_seq_nil]

/-- What a port that went down shows (R467). -/
structure Fallen (s t : State) (p : Nat) : Prop where
  only : OnlyIn [.ctl, .bx, .coll, .mc, .freeCtr, .out] s t
  link : linkState t p = b2n (trains s p)
  empty : bxOf t p = BxPort.clear
  latched : bit (rd t (bxPage p + 0x20)) 9 = true
  coll : s.mc = [] → t.coll = s.coll.map (fun c =>
    if c.started && (!c.finished || sendsOn s c p) && usesPort s c p then { c with finished := true, status := 0x87 } else c)

theorem fallen_portDown (p : Nat) (s : State) : Fallen s (after (portDown p) s) p := by
  obtain ⟨u, hu⟩ : ∃ u, u = after (endOnPort p) s := ⟨_, rfl⟩
  obtain ⟨v, hv⟩ : ∃ v, v = after (if trains s p then startTraining p else setLink p 0 0) u := ⟨_, rfl⟩
  obtain ⟨w, hw⟩ : ∃ w, w = after (setIst (bxPage p) 9) (after (count (bxPage p) 6 1) (after (one (.bx p BxPort.clear)) v)) := ⟨_, rfl⟩
  have he : after (portDown p) s = after (raise (bxPage p) { cls := .uncorrContained }) w := by
    rw [after_portDown, hw, hv, hu]
  have htrain : Within [.ctl, .out] (if trains s p then startTraining p else setLink p 0 0) := by
    split
    · exact within_startTraining p
    · exact (within_wr ..).wider rfl
  have hclear : Within [.bx] (one (.bx p BxPort.clear)) := within_one rfl
  have h1 : OnlyIn [.ctl, .bx, .coll, .mc, .out] s u := hu ▸ (within_endOnPort p).onlyIn s
  have h2 : OnlyIn [.ctl, .out] u v := hv ▸ htrain.onlyIn u
  have h3 : OnlyIn [.ctl, .bx] v w := by
    rw [hw]
    exact ((hclear.wider rfl).onlyIn v).trans (((within_count ..).wider rfl).onlyIn _) |>.trans (((within_setIst ..).wider rfl).onlyIn _)
  have h4 : OnlyIn [.ctl, .freeCtr] w (after (raise (bxPage p) { cls := .uncorrContained }) w) := onlyIn_raise_mild w _ nofun
  rw [he]
  refine ⟨(h1.wider rfl).trans (h2.wider rfl) |>.trans (h3.wider rfl) |>.trans (h4.wider rfl), ?_, ?_, ?_, fun hmc => ?_⟩
  · have hraise : KeepsReg (bxPage p + 0x104) (raise (bxPage p) { cls := .uncorrContained }) := keepsReg_raise (by omega) (by omega) nofun
    rw [linkState, hraise.eq, hw, (keepsReg_setIst (by omega) _).eq, (keepsReg_count (by omega) (by omega) (by omega) _).eq,
      (hclear.keepsReg _).eq, ← linkState, hv]
    cases trains s p
    · exact linkState_after_setLink p 0 0 (by decide) u
    · exact linkState_after_startTraining p u
  · rw [bxOf_of_bx (h4 .bx rfl), hw, bxOf_of_bx ((within_setIst ..).bx _), bxOf_of_bx ((within_count ..).bx _), after_one, bxOf_bx_same]
  · rw [bit_ist_after_raise w (c := { cls := .uncorrContained }) (by decide) nofun, hw, after_setIst, rd_ctl_same, bit_setBit_same _ (by decide)]
  · have e4 : (after (raise (bxPage p) { cls := .uncorrContained }) w).coll = w.coll := h4 .coll rfl
    have e3 : w.coll = v.coll := h3 .coll rfl
    have e2 : v.coll = u.coll := h2 .coll rfl
    rw [e4, e3, e2, hu, endOnPort, after_look, hmc, after_seq_cons, after_seq_cons, after_seq_nil, List.filter_nil, after_each_nil, after_one,
      apply_coll]

section
variable {s : State} (hs : Ready s) {p : BxNo}
include hs

theorem does_linkDown (hup : linkUp s p.val = true) : Does (.linkDown p) s [.ctl, .bx, .coll, .mc, .freeCtr, .out] fun t =>
    linkState t p.val = b2n (trains s p.val) ∧
      bxOf t p.val = BxPort.clear ∧ bit (rd t (bxPage p.val + 0x20)) 9 = true ∧ (s.mc = [] → t.coll = s.coll.map (fun c =>
        if c.started && (!c.finished || sendsOn s c p.val) && usesPort s c p.val then { c with finished := true, status := 0x87 } else c)) := by
  have he : after (actLinkDown p.val) s = after (portDown p.val) s := by
    rw [actLinkDown, after_look, hup, after_act, if_pos rfl]
  obtain ⟨honly, hlink, hempty, hist, hcoll⟩ := fallen_portDown p.val s
  refine does_of_run hs.1 rfl ?_ ?_ <;> rw [he]
  · exact honly
  · exact ⟨hlink, hempty, hist, hcoll⟩

theorem does_linkRetrain {v : Word} (hup : linkUp s p.val = true) (htakes : Takes s (bxPage p.val / 4096)) (h0 : bit v 0 = true)
    (h1 : bit v 1 = true) (hc : unconnected s p.val = false) :
    Does (.linkRetrain .ringCtl p v) s [.ctl, .bx, .coll, .mc, .freeCtr, .out] fun t =>
      linkState t p.val = 1 ∧ bxOf t p.val = BxPort.clear ∧ ∀ c, mGet s.cable p.val = some c → c.readOk = true →
        rd t (bxPage p.val + 0x140) = BitVec.ofNat 32 (0xC0000000 + 65536 * c.length.toNat + 256 * c.media.toNat + c.ident.toNat) := by
  have hpage : (bxPage p.val + 0x100) / 4096 = bxPage p.val / 4096 := by
    unfold bxPage
    omega
  obtain ⟨u, hu⟩ : ∃ u, u = after (maskWrite (.bx p.val) (bxPage p.val + 0x100) v) s := ⟨_, rfl⟩
  have humask : OnlyIn [.ctl] s u := hu ▸ (within_maskWrite ..).onlyIn s
  have hureg (x : Nat) (hx : x ≠ bxPage p.val + 0x100) : rd u x = rd s x := by
    rw [hu]
    exact (keepsReg_maskWrite hx _ v).eq s
  have htrain : trains u p.val = true := by
    have hoff : (bxPage p.val + 0x100) % 4096 = 0x100 := by
      unfold bxPage
      omega
    have hdef : regDef (.bx p.val) ((bxPage p.val + 0x100) % 4096) = some ⟨0x100, 1, 4, 1, 0, 0, 0, 0, 0⟩ := by
      rw [hoff]
      exact regDef_linkCtrl p.val
    rw [trains, hu, bit_eq_decide_fld, fld_after_maskWrite hdef rfl rfl (by decide) fun i _ hi => by
      rw [show i = 0 by omega]
      decide, ← bit_eq_decide_fld, h0]
  obtain ⟨w, hw⟩ : ∃ w, w = after (portDown p.val) u := ⟨_, rfl⟩
  obtain ⟨honly, hlink, hempty, -, -⟩ := hw ▸ fallen_portDown p.val u
  have hwup : linkUp w p.val = false := by
    rw [linkUp, hlink, htrain]
    decide
  have hwfree : unconnected w p.val = false := by
    have hcfg : podCfg w = podCfg s := by
      have hb : bxPage 0 = 0x160000 := rfl
      have hp : bxPage p.val = 0x160000 + p.val * 0x1000 := rfl
      rw [podCfg, hw, (keepsReg_portDown (by unfold LinkFree; omega) p.isLt).eq, hureg _ (by omega), ← podCfg]
    rw [unconnected, podEn, axisSize, hcfg]
    exact hc
  have he : after (linkCtrlWrite p.val v) s = after (startTraining p.val) w := by
    rw [linkCtrlWrite, after_look, after_seq_cons, after_seq_cons, after_seq_cons, after_seq_nil, ← hu, h1, hup, after_act, if_pos (by decide), ← hw,
      after_look, hwup, hwfree, after_act, if_pos (by simp)]
  refine does_guarded_ring hs htakes hpage rfl ?_ ?_ <;> rw [he]
  · exact (humask.wider rfl).trans honly |>.trans (((within_startTraining _).wider rfl).onlyIn w)
  · refine ⟨linkState_after_startTraining .., ?_, fun c hcable hok => ?_⟩
    · rw [bxOf_of_bx ((within_startTraining _).bx w), hempty]
    · have h1 : w.cable = u.cable := honly .cable rfl
      have h2 : u.cable = s.cable := humask .cable rfl
      rw [startTraining, after_seq_cons, after_seq_cons, after_seq_nil]
      refine rd_after_readCable ?_ hok
      rw [setLink, (within_wr ..).cable, h1, h2, hcable]

/-! ## Cables -/

omit hs in
theorem writesIn_putChars {a p : Nat} (hp : p % 4096 = 0) (hlo : p ≤ a) (hhi : a + 16 ≤ p + 4096) (cs : List Byte) : WritesIn [p] (putChars a cs) :=
  fun _ hx => keepsReg_putChars (by rw [List.mem_singleton] at hx; omega) cs

omit hs in
theorem writesIn_readCable (p : Nat) : WritesIn [bxPage p] (readCable p) := fun x hx => keepsReg_readCable_items (by
  have := bxPage_page p
  rw [List.mem_singleton] at hx
  omega)

theorem does_cableInsert (ident media length : Byte) (vendor part serial : List Byte) :
    Does (.cableInsert p ident media length true vendor part serial) s [.ctl, .cable, .out] fun t => RegsOnly [bxPage p.val] s t ∧
      t.out = s.out ++ [.pageSelect p.val 0] ∧ mGet t.cable p.val = some ⟨ident, media, length, true, vendor, part, serial⟩ ∧
      rd t (bxPage p.val + 0x140) = BitVec.ofNat 32 (0xC0000000 + 65536 * length.toNat + 256 * media.toNat + ident.toNat) ∧
      bit (rd t (bxPage p.val + 0x20)) 11 = true := by
  obtain ⟨c, hc⟩ : ∃ c : Cable, c = ⟨ident, media, length, true, vendor, part, serial⟩ := ⟨_, rfl⟩
  have hput : Within [.cable] (one (.cable p.val (some c))) := within_one rfl
  obtain ⟨u, hu⟩ : ∃ u, u = after (one (.cable p.val (some c))) (after (setIst (bxPage p.val) 11) s) := ⟨_, rfl⟩
  have hcable : mGet u.cable p.val = some c := hu ▸ mGet_mPut_same ..
  have he : after (actCableInsert p.val ident media length true vendor part serial) s = after (readCable p.val) u := by
    rw [actCableInsert, after_seq_cons, after_seq_cons, after_seq_cons, after_seq_nil, ← hc, hu]
  have hin : Within [.ctl] (seq [putChars (bxPage p.val + 0x144) c.vendor, putChars (bxPage p.val + 0x154) c.part,
      putChars (bxPage p.val + 0x164) c.serial]) :=
    within_seq_cons (within_putChars ..) (within_seq_cons (within_putChars ..) (within_seq_cons (within_putChars ..) within_seq_nil))
  refine does_of_run hs.1 rfl ?_ ?_ <;> rw [he]
  · rw [hu]
    exact (((within_setIst ..).wider rfl).onlyIn s).trans ((hput.wider rfl).onlyIn _) |>.trans (((within_readCable _).wider rfl).onlyIn _)
  · refine ⟨?_, ?_, ?_, ?_, ?_⟩
    · rw [hu]
      exact ((WritesIn.regsOnly (writesIn_setIst (bxPage_page _) (List.mem_singleton_self _) 11) s).trans (hput.regsOnly _ _)).trans
        (WritesIn.regsOnly (writesIn_readCable _) _)
    · rw [after_readCable hcable (by rw [hc]), hin.out, (within_wr ..).out, hu]
      rfl
    · rw [(within_readCable _).cable, hcable, hc]
    · rw [rd_after_readCable hcable (by rw [hc]), hc]
    · rw [(keepsReg_readCable_items (by omega)).eq, hu, (hput.keepsReg _).eq, after_setIst, rd_ctl_same, bit_setBit_same _ (by decide)]

theorem does_cableRemove : Does (.cableRemove p) s [.ctl, .cable] fun t => mGet t.cable p.val = none ∧ rd t (bxPage p.val + 0x140) = 0 ∧
    bit (rd t (bxPage p.val + 0x20)) 11 = true ∧ RegsAt [bxPage p.val + 0x140, bxPage p.val + 0x20] s t := by
  have hput : Within [.cable] (one (.cable p.val none)) := within_one rfl
  have he : after (actCableRemove p.val) s = after (wr (bxPage p.val + 0x140) 0) (after (one (.cable p.val none)) (after (setIst (bxPage p.val) 11) s)) := by
    rw [actCableRemove, after_seq_cons, after_seq_cons, after_seq_cons, after_seq_nil]
  refine does_of_run hs.1 rfl ?_ ?_ <;> rw [he]
  · exact (((within_setIst ..).wider rfl).onlyIn s).trans ((hput.wider rfl).onlyIn _) |>.trans (((within_wr ..).wider rfl).onlyIn _)
  · refine ⟨mGet_mPut_same s.cable p.val none, by rw [after_wr, rd_ctl_same], ?_, fun x hx => ?_⟩
    · rw [(keepsReg_wr (by omega) _).eq, (hput.keepsReg _).eq, after_setIst, rd_ctl_same, bit_setBit_same _ (by decide)]
    · simp only [List.mem_cons, List.not_mem_nil, or_false, not_or] at hx
      rw [(keepsReg_wr hx.1 _).eq, (hput.keepsReg _).eq, (keepsReg_setIst hx.2 _).eq]

end

/-! ## Frames on their way -/

/-- A frame in order is acknowledged, its credit returns, and it is taken (R462, R466). -/
theorem after_received {s : State} {p lseq : Nat} (hup : linkUp s p = true) (hseq : lseq = (bxOf s p).rxSeq) (type len : Nat) (body : Act) :
    after (received p lseq true type len body) s =
      after body (after (seq [setBx p (fun x => { x with rxSeq := (x.rxSeq + 1) % 65536, asked := false }), count (bxPage p) 1 1,
        sendSym p 5 0 0 (BitVec.ofNat 64 lseq), returnCredit p type len]) s) := by
  rw [received, arrived, after_look, hup, if_neg (by decide), if_neg (by simp [hseq])]
  simp only [after_seq_cons, after_seq_nil]

/-- What a frame in order leaves before it has its effect. -/
structure InOrder (s t : State) (p lseq type len : Nat) : Prop where
  only : OnlyIn [.ctl, .bx, .out] s t
  regs : ∀ x, 0xC0 ≤ x % 4096 → rd t x = rd s x
  link : ∀ k, linkUp t k = linkUp s k
  port : bxOf t p = { bxOf s p with rxSeq := ((bxOf s p).rxSeq + 1) % 65536, asked := false }
  others : ∀ k, k ≠ p → bxOf t k = bxOf s k
  out : t.out = s.out ++ [.symbol p 5 0 0 (BitVec.ofNat 64 lseq) (symbolCrc 5 0 0 (BitVec.ofNat 64 lseq)),
    .symbol p 5 0 2 (creditData (lvcOf type) (32 + len)) (symbolCrc 5 0 2 (creditData (lvcOf type) (32 + len)))]

theorem inOrder {s : State} {p : Nat} (hup : linkUp s p = true) (lseq type len : Nat) : InOrder s
    (after (seq [setBx p (fun x => { x with rxSeq := (x.rxSeq + 1) % 65536, asked := false }), count (bxPage p) 1 1,
      sendSym p 5 0 0 (BitVec.ofNat 64 lseq), returnCredit p type len]) s) p lseq type len := by
  obtain ⟨u, hu⟩ : ∃ u, u = after (count (bxPage p) 1 1) (after (setBx p (fun x => { x with rxSeq := (x.rxSeq + 1) % 65536, asked := false })) s) :=
    ⟨_, rfl⟩
  have hregs (x : Nat) (hx : 0xC0 ≤ x % 4096) : rd u x = rd s x := by
    have hp := bxPage_page p
    rw [hu, (keepsReg_count (by omega) (by omega) (by omega) _).eq, ((within_setBx_bx ..).keepsReg _).eq]
  have honly : OnlyIn [.ctl, .bx] s u := by
    rw [hu]
    exact (((within_setBx_bx ..).wider rfl).onlyIn s).trans (((within_count ..).wider rfl).onlyIn _)
  have hlink (k : Nat) : linkUp u k = linkUp s k := linkUp_of_rd (hregs _ (by unfold bxPage; omega))
  have hbx (k : Nat) : bxOf u k = bxOf (after (setBx p (fun x => { x with rxSeq := (x.rxSeq + 1) % 65536, asked := false })) s) k := by
    rw [hu]
    exact bxOf_of_bx ((within_count ..).bx _) k
  have hout : u.out = s.out := honly .out rfl
  have hlink' (o : Output) : linkUp ((Upd.out o).apply u) p = true := (hlink p).trans hup
  rw [after_seq_cons, after_seq_cons, after_seq_cons, after_seq_cons, after_seq_nil, ← hu, after_sendSym ((hlink p).trans hup), returnCredit,
    after_sendSym (hlink' _)]
  refine ⟨?_, hregs, hlink, ?_, fun k hk => ?_, ?_⟩
  · exact (honly.wider rfl).trans ((onlyIn_apply (.out _) u : OnlyIn [.out] _ _).wider rfl) |>.trans
      ((onlyIn_apply (.out _) _ : OnlyIn [.out] _ _).wider rfl)
  · exact (hbx p).trans (bxOf_bx_same ..)
  · exact (hbx k).trans (bxOf_bx_other hk ..)
  · rw [apply_out, apply_out, hout, List.append_assoc]
    rfl

theorem findSome_channel (g : Frame) {ls : List Nat} (h : g.lvc ∈ ls) :
    ls.findSome? (fun l => if g.lvc = l then some g else none) = some g := by
  induction ls with
  | nil => cases h
  | cons l ls ih =>
    rw [List.findSome?_cons]
    by_cases hl : g.lvc = l
    · rw [if_pos hl]
    · rw [if_neg hl]
      exact ih ((List.mem_cons.mp h).resolve_left hl)

/-- The frame that alone waits at a port is the one that it sends next: its channel is one of the four (R462). -/
theorem nextFrame_only {s : State} {k : Nat} {g : Frame} (hwait : (bxOf s k).waiting = [g]) (hlvc : g.lvc < 4) (hmay : maySend s k g = true) :
    nextFrame s k = some g := by
  have hfind (l : Nat) : ([g].find? (fun f => decide (f.lvc = l))).filter (maySend s k) = if g.lvc = l then some g else none := by
    by_cases h : g.lvc = l
    · rw [List.find?_cons_of_pos (by simpa using h), if_pos h, Option.filter_some, if_pos hmay]
    · rw [List.find?_cons_of_neg (by simpa using h), if_neg h]
      rfl
  have hserved : g.lvc ∈ 0 :: (List.range 3).map (fun j => ((bxOf s k).turn + j) % 3 + 1) := by
    by_cases h0 : g.lvc = 0
    · exact h0 ▸ List.mem_cons_self ..
    · exact List.mem_cons_of_mem _ (List.mem_map.mpr ⟨(g.lvc + 2 - (bxOf s k).turn % 3) % 3, List.mem_range.mpr (by omega), by omega⟩)
  rw [nextFrame, hwait]
  simp only [hfind]
  exact findSome_channel g hserved

/-- A frame given to a port where none waits, and which may leave at once, leaves. -/
theorem after_giveFrame_leaves {s : State} {k : Nat} {g : Frame} (hwait : (bxOf s k).waiting = []) (hlvc : g.lvc < 4) (hmay : maySend s k g = true) :
    ∃ v, OnlyIn [.bx] s v ∧ bxOf v k = bxOf s k ∧ after (giveFrame k g) s = after (emitFrame k g) v := by
  obtain ⟨u, hu⟩ : ∃ u, u = (Upd.bx k { bxOf s k with waiting := [g] }).apply s := ⟨_, rfl⟩
  have hbx : bxOf u k = { bxOf s k with waiting := [g] } := hu ▸ bxOf_bx_same ..
  have hnext : nextFrame u k = some g := by
    refine nextFrame_only (by rw [hbx]) hlvc ?_
    have hlink : linkUp u k = linkUp s k := by
      rw [hu]
      rfl
    have hside : u.side = s.side := by
      rw [hu]
      rfl
    rw [maySend, hlink, replayBytes, hbx, hside]
    exact hmay
  have h1 : OnlyIn [.bx] s u := hu ▸ onlyIn_apply (.bx k { bxOf s k with waiting := [g] }) s
  refine ⟨after (setBx k (fun x => { x with waiting := x.waiting.erase g })) u, h1.trans ((within_setBx_bx ..).onlyIn u), ?_, ?_⟩
  · rw [after_setBx, bxOf_bx_same, hbx]
    dsimp only
    rw [List.erase_cons_head, ← hwait]
  · rw [giveFrame, after_seq_cons, after_seq_cons, after_seq_nil, after_setBx, hwait, List.nil_append, ← hu, flushFrames, after_look, hbx]
    show after (sendWaiting k 1) u = _
    rw [sendWaiting, after_look, hnext]
    dsimp only
    rw [after_seq_cons, after_seq_cons, after_seq_cons, after_seq_nil]
    rfl

/-- Such a frame is on the lanes. -/
theorem after_giveFrame_now {s : State} {k : Nat} {g : Frame} (hwait : (bxOf s k).waiting = []) (hlvc : g.lvc < 4) (hmay : maySend s k g = true) :
    (after (giveFrame k g) s).out = s.out ++ [.frame k { g with lseq := (bxOf s k).txSeq } (frameCrc { g with lseq := (bxOf s k).txSeq })] := by
  obtain ⟨v, honly, hbx, he⟩ := after_giveFrame_leaves hwait hlvc hmay
  have hout : v.out = s.out := honly .out rfl
  rw [he, emitFrame, after_look, hbx, after_seq_cons, after_seq_cons, after_seq_nil, out_after_putFrame, (within_setBx_bx ..).out, hout]

/-- It has taken the next sequence number and its credit, and stays in the replay buffer. -/
theorem bxOf_after_giveFrame_now {s : State} {k : Nat} {g : Frame} (hwait : (bxOf s k).waiting = []) (hlvc : g.lvc < 4)
    (hmay : maySend s k g = true) : bxOf (after (giveFrame k g) s) k = { bxOf s k with
      txSeq := ((bxOf s k).txSeq + 1) % 65536
      replay := (bxOf s k).replay ++ [{ g with lseq := (bxOf s k).txSeq }]
      turn := if g.lvc = 0 then (bxOf s k).turn else g.lvc
      credits := (bxOf s k).credits.set (poolOf g) ((bxOf s k).credits.getD (poolOf g) 0 - frameBytes g) } := by
  obtain ⟨v, -, hbx, he⟩ := after_giveFrame_leaves hwait hlvc hmay
  rw [he, emitFrame, after_look, hbx, after_seq_cons, after_seq_cons, after_seq_nil, bxOf_of_bx ((within_putFrame ..).bx _), after_setBx, bxOf_bx_same,
    hbx]

/-- A frame given to one port leaves the others as they were. -/
theorem keepsBx_giveFrame {k p : Nat} (h : p ≠ k) (g : Frame) : Keeps (fun s => bxOf s p) (giveFrame k g) := by
  have hset (f : BxPort → BxPort) : Keeps (fun s => bxOf s p) (setBx k f) := ⟨fun s => bxOf_bx_other h ..⟩
  have hput (f : Frame) : Keeps (fun s => bxOf s p) (putFrame k f) := ⟨fun s => bxOf_of_bx ((within_putFrame ..).bx s) p⟩
  have hsend (n : Nat) : Keeps (fun s => bxOf s p) (sendWaiting k n) := by
    induction n with
    | zero => exact keeps_nop
    | succ n ih =>
      refine keeps_look fun s => ?_
      split
      · exact keeps_nop
      · exact keeps_seq_cons (hset _) (keeps_seq_cons (keeps_look fun _ => keeps_seq_cons (hset _) (keeps_seq_cons (hput _) keeps_seq_nil))
          (keeps_seq_cons ih keeps_seq_nil))
  exact keeps_seq_cons (hset _) (keeps_seq_cons (keeps_look fun _ => hsend _) keeps_seq_nil)

/-- Routes follow from the pod's configuration (R463, R464). -/
theorem route_of_cfg {s t : State} (hcfg : podCfg t = podCfg s) (p d k : Nat) :
    podPort t p d = podPort s p d ∧ crossesDateline t p k = crossesDateline s p k := by
  have hsize : axisSize t = axisSize s := funext fun a => by simp only [axisSize, hcfg]
  have hnext : torusNext t = torusNext s := funext fun q => funext fun k => by simp only [torusNext, hsize]
  have hport : axisPort t = axisPort s := funext fun q => funext fun r => funext fun a => funext fun b => by simp only [axisPort, hsize]
  exact ⟨by simp only [podPort, hport], by simp only [crossesDateline, hnext]⟩

theorem lvcOf_lt (type : Nat) : lvcOf type < 4 := by
  unfold lvcOf
  repeat' split
  all_goals decide

theorem does_frameForward {s : State} (hs : Ready s) {f : FrameHdr} {type : BitVec 8} {data : List Byte} {k : Nat} {g : Frame}
    (hup : linkUp s f.port.val = true) (h6 : f.port.val < 6) (hpod : podEn s = true) (hcrc : f.crcOk = true)
    (hseq : f.lseq.toNat = (bxOf s f.port.val).rxSeq) (hdst : f.dst.toNat ≠ ownPos s) (hknown : typeKnown type.toNat = true) (htype : type ≠ 6)
    (hport : podPort s (ownPos s) f.dst.toNat = some k) (hk : k ≠ f.port.val)
    (hg : g = { frameOf f type.toNat data with dl := f.dl || crossesDateline s (ownPos s) k }) (hmay : maySend s k g = true)
    (hwait : (bxOf s k).waiting = []) :
    Does (.frameForward f type data) s [.ctl, .bx, .out] fun t => Arrived s t f.port.val ∧
      t.out = s.out ++ [.symbol f.port.val 5 0 0 (BitVec.ofNat 64 f.lseq.toNat) (symbolCrc 5 0 0 (BitVec.ofNat 64 f.lseq.toNat)),
        .symbol f.port.val 5 0 2 (creditData (lvcOf type.toNat) (32 + data.length))
          (symbolCrc 5 0 2 (creditData (lvcOf type.toNat) (32 + data.length))),
        .frame k { g with lseq := (bxOf s k).txSeq } (frameCrc { g with lseq := (bxOf s k).txSeq })] := by
  have hup6 : ¬ 6 ≤ f.port.val := by omega
  obtain ⟨u, hu⟩ : ∃ u, u = after (seq [setBx f.port.val (fun x => { x with rxSeq := (x.rxSeq + 1) % 65536, asked := false }),
    count (bxPage f.port.val) 1 1, sendSym f.port.val 5 0 0 (BitVec.ofNat 64 f.lseq.toNat), returnCredit f.port.val type.toNat data.length]) s := ⟨_, rfl⟩
  obtain ⟨honly, hregs, hlink, hmine, hothers, hout⟩ := inOrder hup f.lseq.toNat type.toNat data.length
  rw [← hu] at honly hregs hlink hmine hothers hout
  have hcfg : podCfg u = podCfg s := hregs _ (by decide)
  have hown : ownPos u = ownPos s := by rw [ownPos, ownPos, hcfg]
  obtain ⟨hroute, hcross⟩ := route_of_cfg hcfg (ownPos s) f.dst.toNat k
  have hmay' : maySend u k g = true := by
    have hside : u.side = s.side := honly .side rfl
    rw [maySend, hlink, replayBytes, hothers k hk, hside]
    exact hmay
  have hlvc : g.lvc < 4 := hg ▸ lvcOf_lt type.toNat
  have he : after (actFrameForward f type data) s = after (giveFrame k g) u := by
    have hnot : (!podEn s || decide (f.dst.toNat = ownPos s) ||
        (decide (type = 0x06) && s.mc.any (isRequest f.herd.val f.src.toNat f.cid.toNat))) = false := by
      rw [hpod, decide_eq_false hdst, decide_eq_false htype]
      rfl
    rw [actFrameForward, after_look]
    dsimp only
    rw [hknown, if_neg (by decide), if_neg hup6, hnot, if_neg (by decide), hcrc, after_received hup hseq, ← hu, after_look, hown, hroute, hport]
    dsimp only
    rw [hcross, hg]
    rfl
  refine does_of_run hs.1 rfl ?_ ?_ <;> rw [he]
  · exact honly.trans ((within_giveFrame ..).onlyIn u)
  · refine ⟨?_, ?_⟩
    · rw [Arrived, (keepsBx_giveFrame hk.symm g).eq, hmine]
    · rw [after_giveFrame_now (by rw [hothers k hk, hwait]) hlvc hmay', hout, hothers k hk, List.append_assoc]
      rfl

theorem does_frameForward_reserved {s : State} (hs : Ready s) {f : FrameHdr} {type : BitVec 8} (data : List Byte)
    (hup : linkUp s f.port.val = true) (hknown : typeKnown type.toNat = false) (hasked : (bxOf s f.port.val).asked = false) :
    Does (.frameForward f type data) s [.bx, .out] fun t => bxOf t f.port.val = { bxOf s f.port.val with asked := true } ∧
      t.out = s.out ++ [.symbol f.port.val 5 0 1 (BitVec.ofNat 64 (bxOf s f.port.val).rxSeq)
        (symbolCrc 5 0 1 (BitVec.ofNat 64 (bxOf s f.port.val).rxSeq))] := by
  have hup' (x : BxPort) : linkUp ((Upd.bx f.port.val x).apply s) f.port.val = true := hup
  have he : after (actFrameForward f type data) s = (Upd.out (.symbol f.port.val 5 0 1 (BitVec.ofNat 64 (bxOf s f.port.val).rxSeq)
      (symbolCrc 5 0 1 (BitVec.ofNat 64 (bxOf s f.port.val).rxSeq)))).apply ((Upd.bx f.port.val { bxOf s f.port.val with asked := true }).apply s) := by
    rw [actFrameForward, after_look, hknown]
    show after (act (linkUp s f.port.val) (askAgain f.port.val)) s = _
    rw [hup, after_act, if_pos rfl, askAgain, after_look, hasked, after_act, if_pos (by decide), after_seq_cons, after_seq_cons, after_seq_nil,
      after_setBx, after_sendSym (hup' _)]
    rfl
  refine does_of_run hs.1 rfl ?_ ?_ <;> rw [he]
  · exact ((onlyIn_apply (.bx ..) s : OnlyIn [.bx] _ _).wider rfl).trans ((onlyIn_apply (.out _) _ : OnlyIn [.out] _ _).wider rfl)
  · exact ⟨bxOf_bx_same .., rfl⟩

/-- Settles O42, a part per instruction. -/
theorem linksRun : Obligations.LinksRun := by
  unfold Obligations.LinksRun
  refine ⟨?_, ?_, ?_, ?_, ?_, ?_, ?_, ?_, ?_, ?_⟩
  · exact fun s hs p l done rest now g hup hreplay hdone hg => ⟨fun hwait => does_linkAck hs hup hreplay hdone hg hwait,
      fun hnow => does_linkReplay hs hup hreplay hdone hg hnow⟩
  · exact fun s hs p cs hup hwait => does_linkCredit hs hup cs hwait
  · exact fun s hs p l cs => exec_badLinkSymbols hs p l cs
  · exact fun s hs p w delay ht hdown hc hlead hnbr => does_linkUp_up hs ht hdown hc hlead hnbr
  · exact fun s hs p w delay ht hdown hc h6 hnbr => does_linkUp_wrong hs ht hdown hc h6 hnbr
  · exact fun s hs p hup => does_linkDown hs hup
  · exact fun s hs p v hup htakes h0 h1 hc => does_linkRetrain hs hup htakes h0 h1 hc
  · exact fun s hs p ident media length vendor part serial => ⟨does_cableInsert hs ident media length vendor part serial, does_cableRemove hs⟩
  · exact fun s hs f type data k g hup h6 hpod hcrc hseq hdst hknown htype hport hk hg hmay hwait =>
      does_frameForward hs hup h6 hpod hcrc hseq hdst hknown htype hport hk hg hmay hwait
  · exact fun s hs f type data hup hknown hasked => does_frameForward_reserved hs data hup hknown hasked

end Sys2Proof.Machine
end

section
/-! The cores of a herd start, stop and go on at its commands (R518); O48. -/

namespace Sys2Proof.Machine

-- One declaration after the other: elaborated side by side they take more memory than the check has.
set_option Elab.async false

/-- A list of acts does what another does where each act, in its turn, does what its partner does. -/
theorem after_each_eq {α : Type} {f g : α → Act} {P : List α → State → Prop}
    (h : ∀ a as s, P (a :: as) s → after (f a) s = after (g a) s ∧ P as (after (g a) s)) (as : List α) :
    ∀ s, P as s → after (each as f) s = after (each as g) s := by
  induction as with
  | nil => exact fun _ _ => rfl
  | cons a as ih =>
    intro s hp
    obtain ⟨he, hp'⟩ := h a as s hp
    rw [after_each_cons, after_each_cons, he]
    exact ih _ hp'

/-! ## A core is armed -/

/-- A core is armed (R133): one that was paused goes on. -/
def armWith (c : Nat) (paused : Bool) (b : Bool) : Act := seq [act b (abandonFault c), wrBit (corePage c + 0x104) 31 false,
  wrBit (seqPage c + 0x100) 0 true, setCoreState c 2, setCore c (fun x => { x with armKind := if paused then 1 else 0 })]

theorem within_armWith (c : Nat) (paused b : Bool) : Within [.ctl, .core] (armWith c paused b) := within_armed c _ b

theorem keepsReg_armWith {x c : Nat} (h1 : x ≠ corePage c + 0x104) (h2 : x ≠ seqPage c + 0x100) (h3 : x ≠ seqPage c + 0x104) (paused b : Bool) :
    KeepsReg x (armWith c paused b) :=
  keeps_seq_cons (keeps_act fun _ => keeps_seq_cons ((within_setCore ..).keepsReg x) (keeps_seq_cons (keepsReg_wrBit h1 ..) keeps_seq_nil)) <|
    keeps_seq_cons (keepsReg_wrBit h1 ..) <| keeps_seq_cons (keepsReg_wrBit h2 ..) <| keeps_seq_cons (keepsReg_wrFld h3 ..) <|
    keeps_seq_cons ((within_setCore ..).keepsReg x) keeps_seq_nil

theorem coreState_after_armWith (c : Nat) (paused b : Bool) (s : State) : coreState (after (armWith c paused b) s) c = 2 := by
  have pages := pages_of_site c
  rw [armWith]
  iterate 5 rw [after_seq_cons]
  rw [after_seq_nil, coreState, ((within_setCore ..).keepsReg _).eq, after_setCoreState, rd_ctl_same, fld_setFld _ (by decide) (by decide)]
  rfl

/-- A core at rest, or paused at its BEAD row, whose start bead lies ahead is armed. -/
theorem after_armCore_armWith {s : State} {c : Nat} (hst : [1, 6, 7, 8].contains (coreState s c) = true) (hb : beadPassed s c = false) :
    after (armCore .ringCtl c) s = after (armWith c (decide (coreState s c = 6)) (decide (coreState s c = 8))) s := by
  rw [after_armCore .ringCtl hst hb]
  by_cases h6 : coreState s c = 6
  · rw [if_pos h6, decide_eq_true h6]
    rfl
  · rw [if_neg h6, decide_eq_false h6]
    rfl

/-- A core takes a start bead and is armed. -/
def armAt (c : Nat) (b : DWord) (paused f : Bool) : Act := seq [wr64 (seqPage c + 0x110) b, armWith c paused f]

theorem within_armAt (c : Nat) (b : DWord) (paused f : Bool) : Within [.ctl, .core] (armAt c b paused f) :=
  within_seq_cons ((within_wr64 ..).wider rfl) <| within_seq_cons (within_armWith ..) within_seq_nil

theorem startBead_after_wr64 (c : Nat) (b : DWord) (s : State) : startBead (after (wr64 (seqPage c + 0x110) b) s) c = b := rd64_after_wr64 ..

theorem coreState_after_wr64 (c d : Nat) (b : DWord) (s : State) : coreState (after (wr64 (seqPage c + 0x110) b) s) d = coreState s d := by
  have pc := pages_of_site c
  have pd := pages_of_site d
  rw [coreState, coreState, (keepsReg_wr64 (by omega) (by omega) b).eq]

theorem after_wr64_armCore {s : State} {c : Nat} {b : DWord} (hst : [1, 6, 7, 8].contains (coreState s c) = true)
    (hb : (beadNo s).toNat < b.toNat) : after (armCore .ringCtl c) (after (wr64 (seqPage c + 0x110) b) s) =
      after (armAt c b (decide (coreState s c = 6)) (decide (coreState s c = 8))) s := by
  have hno : beadNo (after (wr64 (seqPage c + 0x110) b) s) = beadNo s := by
    have pc := pages_of_site c
    rw [beadNo, beadNo, rd64, rd64, (keepsReg_wr64 (by omega) (by omega) b).eq, (keepsReg_wr64 (by omega) (by omega) b).eq]
  have hpassed : beadPassed (after (wr64 (seqPage c + 0x110) b) s) c = false := by
    rw [beadPassed, startBead_after_wr64, hno]
    exact decide_eq_false (by omega)
  rw [after_armCore_armWith (by rw [coreState_after_wr64]; exact hst) hpassed, coreState_after_wr64, armAt, after_seq_cons, after_seq_cons, after_seq_nil]

theorem coreState_after_armAt (c : Nat) (b : DWord) (paused f : Bool) (s : State) : coreState (after (armAt c b paused f) s) c = 2 := by
  rw [armAt, after_seq_cons, after_seq_cons, after_seq_nil, coreState_after_armWith]

theorem startBead_after_armAt (c : Nat) (b : DWord) (paused f : Bool) (s : State) : startBead (after (armAt c b paused f) s) c = b := by
  have pc := pages_of_site c
  have hk (o : Nat) (ho : 0x110 ≤ o) (h4 : o < 0x1000) : KeepsReg (seqPage c + o) (armWith c paused f) :=
    keepsReg_armWith (by omega) (by omega) (by omega) ..
  rw [armAt, after_seq_cons, after_seq_cons, after_seq_nil, startBead, rd64, (hk _ (by decide) (by decide)).eq, Nat.add_assoc,
    (hk _ (by decide) (by decide)).eq, ← Nat.add_assoc, ← rd64, ← startBead, startBead_after_wr64]

/-- Arming one core leaves every register of another as it is. -/
theorem keepsReg_armAt_other {c d x : Nat} (h : d ≠ c) (hx : corePage d ≤ x) (hx' : x < corePage d + 0x10000) (b : DWord) (paused f : Bool) :
    KeepsReg x (armAt c b paused f) := by
  have pc := pages_of_site c
  have hfar : corePage c + 0x10000 ≤ corePage d ∨ corePage d + 0x10000 ≤ corePage c := by
    unfold corePage sitePage
    omega
  exact keeps_seq_cons (keepsReg_wr64 (by omega) (by omega) _) <| keeps_seq_cons (keepsReg_armWith (by omega) (by omega) (by omega) ..) keeps_seq_nil

theorem keepsReg_armAt_low {x c : Nat} (hx : x < 0x1000000) (b : DWord) (paused f : Bool) : KeepsReg x (armAt c b paused f) := by
  have pc := pages_of_site c
  exact keeps_seq_cons (keepsReg_wr64 (by omega) (by omega) _) <| keeps_seq_cons (keepsReg_armWith (by omega) (by omega) (by omega) ..) keeps_seq_nil

/-- Act by act, core by core: each core's act meets that core as it stood, and the bead as it was. -/
theorem after_each_cores {f g : Nat → Act} {s : State} {cs : List Nat} (hcs : cs.Nodup)
    (h : ∀ c ∈ cs, ∀ u, coreState u c = coreState s c → beadNo u = beadNo s → after (f c) u = after (g c) u)
    (hno : ∀ c ∈ cs, Keeps beadNo (g c)) (hstate : ∀ c ∈ cs, ∀ d ∈ cs, d ≠ c → Keeps (fun u => coreState u d) (g c)) :
    after (each cs f) s = after (each cs g) s := by
  refine after_each_eq (P := fun as u => as.Nodup ∧ as ⊆ cs ∧ beadNo u = beadNo s ∧ ∀ c ∈ as, coreState u c = coreState s c) (fun c as u hp => ?_)
    cs s ⟨hcs, List.Subset.refl _, rfl, fun _ _ => rfl⟩
  obtain ⟨hnodup, hsub, hbead, hcores⟩ := hp
  rw [List.nodup_cons] at hnodup
  have hc := hsub (List.mem_cons_self ..)
  refine ⟨h c hc u (hcores c (List.mem_cons_self ..)) hbead, hnodup.2, fun d hd => hsub (List.mem_cons_of_mem _ hd), ((hno c hc).eq u).trans hbead,
    fun d hd => ?_⟩
  have hne : d ≠ c := fun he => hnodup.1 (he ▸ hd)
  exact ((hstate c hc d (hsub (List.mem_cons_of_mem _ hd)) hne).eq u).trans (hcores d (List.mem_cons_of_mem _ hd))

theorem keeps_coreState {a : Act} {d : Nat} (h : KeepsReg (seqPage d + 0x104) a) : Keeps (fun u => coreState u d) a :=
  ⟨fun u => congrArg (fld · 3 0) (h.eq u)⟩

theorem keeps_rd64 {a : Act} {x : Nat} (h : KeepsReg x a) (h4 : KeepsReg (x + 4) a) : Keeps (fun u => rd64 u x) a :=
  ⟨fun u => congrArg₂ joinWords (h.eq u) (h4.eq u)⟩

theorem keeps_beadNo {a : Act} (h : ∀ x, x < 0x1000000 → 0x3100 ≤ x → x < 0x3108 → KeepsReg x a) : Keeps beadNo a :=
  keeps_rd64 (h _ (by decide) (by decide) (by decide)) (h _ (by decide) (by decide) (by decide))

theorem keeps_startBead {a : Act} {d : Nat} (h : KeepsReg (seqPage d + 0x110) a) (h4 : KeepsReg (seqPage d + 0x114) a) :
    Keeps (fun u => startBead u d) a := keeps_rd64 h h4

/-! ## HERD_START -/

/-- A core starts at a bead, from a step index where the command gives one. -/
def beginCore (setidx : Bool) (idx b : DWord) (faulted : Nat → Bool) (c : Nat) : Act :=
  seq [act setidx (wr64 (vuPage c + 0x820) idx), armAt c b false (faulted c)]

theorem within_beginCore (setidx : Bool) (idx b : DWord) (faulted : Nat → Bool) (c : Nat) : Within [.ctl, .core] (beginCore setidx idx b faulted c) :=
  within_seq_cons (within_act ((within_wr64 ..).wider rfl)) <| within_seq_cons (within_armAt ..) within_seq_nil

theorem keepsReg_beginCore_low {x : Nat} (hx : x < 0x1000000) (setidx : Bool) (idx b : DWord) (faulted : Nat → Bool) (c : Nat) :
    KeepsReg x (beginCore setidx idx b faulted c) := by
  have pc := pages_of_site c
  exact keeps_seq_cons (keeps_act fun _ => keepsReg_wr64 (by omega) (by omega) _) <| keeps_seq_cons (keepsReg_armAt_low hx ..) keeps_seq_nil

theorem keepsReg_beginCore_other {c d x : Nat} (h : d ≠ c) (hx : corePage d ≤ x) (hx' : x < corePage d + 0x10000) (setidx : Bool) (idx b : DWord)
    (faulted : Nat → Bool) : KeepsReg x (beginCore setidx idx b faulted c) := by
  have pc := pages_of_site c
  have hfar : corePage c + 0x10000 ≤ corePage d ∨ corePage d + 0x10000 ≤ corePage c := by
    unfold corePage sitePage
    omega
  exact keeps_seq_cons (keeps_act fun _ => keepsReg_wr64 (by omega) (by omega) _) <| keeps_seq_cons (keepsReg_armAt_other h hx hx' ..) keeps_seq_nil

theorem after_beginCore {c : Nat} (setidx : Bool) (idx : DWord) {b : DWord} (faulted : Nat → Bool) {u : State} (h131 : r131 u c = true)
    (hf : decide (coreState u c = 8) = faulted c) (hb : (beadNo u).toNat < b.toNat) : after (seq [
      act setidx (wr64 (vuPage c + 0x820) idx),
      look (fun s => if r131 s c || decide (coreState s c = 6) then wr64 (seqPage c + 0x110) b else protocolAt (seqPage c) .ringCtl),
      armCore .ringCtl c]) u = after (beginCore setidx idx b faulted c) u := by
  have pc := pages_of_site c
  obtain ⟨v, hv⟩ : ∃ v, v = after (act setidx (wr64 (vuPage c + 0x820) idx)) u := ⟨_, rfl⟩
  have hstate : coreState v c = coreState u c := by
    rw [hv]
    exact (keeps_coreState (keeps_act fun _ => keepsReg_wr64 (by omega) (by omega) _)).eq u
  have hno : beadNo v = beadNo u := by
    rw [hv]
    exact (keeps_beadNo fun x _ _ _ => keeps_act fun _ => keepsReg_wr64 (by omega) (by omega) _).eq u
  have h131' : r131 v c = true := by rw [r131, hstate]; exact h131
  have hst : coreState u c = 1 ∨ coreState u c = 7 ∨ coreState u c = 8 := by simpa [r131] using h131
  have hsix : decide (coreState v c = 6) = false := by
    rw [hstate]
    exact decide_eq_false (by omega)
  have hin : [1, 6, 7, 8].contains (coreState v c) = true := by
    rw [hstate]
    rcases hst with h | h | h <;> rw [h] <;> rfl
  rw [after_seq_cons, after_seq_cons, after_seq_cons, after_seq_nil, ← hv, after_look, h131', Bool.true_or, if_pos rfl,
    after_wr64_armCore hin (by rw [hno]; exact hb), hsix, hstate, hf, beginCore, after_seq_cons, after_seq_cons, after_seq_nil, ← hv]

/-- What a start leaves in a core. -/
theorem started (setidx : Bool) (idx b : DWord) (faulted : Nat → Bool) {cs : List Nat} {d : Nat} (hd : d ∈ cs) (s : State) :
    let t := after (each cs (beginCore setidx idx b faulted)) s
    coreState t d = 2 ∧ startBead t d = b ∧ stepIdx t d = if setidx then idx else stepIdx s d := by
  intro t
  have pd := pages_of_site d
  have hother (o : Nat) (ho : o < 0x10000) (c : Nat) (hc : d ≠ c) : KeepsReg (corePage d + o) (beginCore setidx idx b faulted c) :=
    keepsReg_beginCore_other hc (by omega) (by omega) ..
  have hreg (o : Nat) (p : Nat) (hp : p = corePage d + o) (ho : o < 0x10000) (c : Nat) (hc : d ≠ c) : KeepsReg p (beginCore setidx idx b faulted c) :=
    hp ▸ hother o ho c hc
  refine ⟨?_, ?_, ?_⟩
  · refine after_each_sets (f := fun u => coreState u d) hd (fun u => ?_) (fun c _ => ?_) s
    · rw [beginCore, after_seq_cons, after_seq_cons, after_seq_nil, coreState_after_armAt]
    · by_cases hc : c = d
      · refine .inl fun u => ?_
        rw [hc, beginCore, after_seq_cons, after_seq_cons, after_seq_nil, coreState_after_armAt]
      · exact .inr (keeps_coreState (hreg 0x1104 _ (by omega) (by decide) c (Ne.symm hc)))
  · refine after_each_sets (f := fun u => startBead u d) hd (fun u => ?_) (fun c _ => ?_) s
    · rw [beginCore, after_seq_cons, after_seq_cons, after_seq_nil, startBead_after_armAt]
    · by_cases hc : c = d
      · refine .inl fun u => ?_
        rw [hc, beginCore, after_seq_cons, after_seq_cons, after_seq_nil, startBead_after_armAt]
      · exact .inr (keeps_startBead (hreg 0x1110 _ (by omega) (by decide) c (Ne.symm hc)) (hreg 0x1114 _ (by omega) (by decide) c (Ne.symm hc)))
  · have hidx (c : Nat) : Keeps (fun u => stepIdx u d) (armAt c b false (faulted c)) := by
      have pc := pages_of_site c
      by_cases hc : d = c
      · rw [← hc]
        have hk (o : Nat) (ho : o = 0x820 ∨ o = 0x824) : KeepsReg (vuPage d + o) (armAt d b false (faulted d)) :=
          keeps_seq_cons (keepsReg_wr64 (by omega) (by omega) _) <| keeps_seq_cons (keepsReg_armWith (by omega) (by omega) (by omega) ..) keeps_seq_nil
        exact keeps_rd64 (hk _ (.inl rfl)) (hk _ (.inr rfl))
      · exact keeps_rd64 (keepsReg_armAt_other hc (by omega) (by omega) ..) (keepsReg_armAt_other hc (by omega) (by omega) ..)
    by_cases hset : setidx = true
    · rw [if_pos hset]
      have hown (u : State) : stepIdx (after (beginCore setidx idx b faulted d) u) d = idx := by
        rw [beginCore, after_seq_cons, after_seq_cons, after_seq_nil, (hidx d).eq, after_act, if_pos hset, stepIdx, rd64_after_wr64]
      refine after_each_sets (f := fun u => stepIdx u d) hd hown (fun c _ => ?_) s
      by_cases hc : c = d
      · refine .inl ?_
        rw [hc]
        exact hown
      · exact .inr (keeps_rd64 (hreg 0x4820 _ (by omega) (by decide) c (Ne.symm hc)) (hreg 0x4824 _ (by omega) (by decide) c (Ne.symm hc)))
    · rw [if_neg hset]
      refine after_each_keeps (P := fun u => stepIdx u d = stepIdx s d) cs _ (fun c _ u hu => ?_) s rfl
      rw [beginCore, after_seq_cons, after_seq_cons, after_seq_nil, (hidx c).eq, after_act, if_neg hset, hu]

/-- What one of a list of acts brings about from where the others leave it, and the others leave, holds after them all. -/
theorem after_each_reaches {α : Type} {P Q : State → Prop} {xs : List α} {g : α → Act} {y : α} (hy : y ∈ xs)
    (hset : ∀ s, P s → Q (after (g y) s)) (hP : ∀ x ∈ xs, ∀ s, P s → P (after (g x) s)) (hQ : ∀ x ∈ xs, ∀ s, Q s → Q (after (g x) s))
    {s : State} (h : P s) : Q (after (each xs g) s) := by
  induction xs generalizing s with
  | nil => cases hy
  | cons x xs ih =>
    rw [after_each_cons]
    rcases List.mem_cons.mp hy with rfl | hin
    · exact after_each_keeps xs g (fun z hz => hQ z (List.mem_cons_of_mem _ hz)) _ (hset s h)
    · exact ih hin (fun z hz => hP z (List.mem_cons_of_mem _ hz)) (fun z hz => hQ z (List.mem_cons_of_mem _ hz)) (hP x (List.mem_cons_self ..) s h)

section
variable {s : State} (hs : Ready s) {c : CmdId} {h : Nat} {x : Herd} (hr : CommandRuns s c h x)
include hs hr

omit hs in
theorem herdSites_of_runs : herdSites s h = x.sites := by
  obtain ⟨-, -, -, -, hof, -⟩ := hr
  rw [herdSites, hof]
  rfl

omit hs hr in
theorem beadNo_fetched (c : CmdId) (s : State) : beadNo (fetched c s) = beadNo s := by
  have := ptrReg_pos c
  rw [beadNo, beadNo, rd64, rd64, rd_fetched c s (by omega), rd_fetched c s (by omega)]

omit hs hr in
theorem rd64_fetched_core (c : CmdId) (s : State) {x : Nat} (hx : 0x1000000 ≤ x) : rd64 (fetched c s) x = rd64 s x := by
  rw [rd64, rd64, rd_fetched_core c s hx, rd_fetched_core c s (by omega)]

omit hs hr in
theorem herdOf_after_setHerd {s : State} {h : Nat} {x : Herd} (hx : herdOf s h = some x) (f : Herd → Herd) :
    herdOf (after (setHerd h f) s) h = some (f x) := by
  rw [setHerd, after_look, hx]
  exact mGet_mPut_same ..

omit hs hr in
theorem bead_ahead {n ahead : Nat} {b : DWord} (hb : b.toNat = n + ahead) : BitVec.ofNat 64 (n + ahead) = b := by
  refine BitVec.eq_of_toNat_eq ?_
  have := b.isLt
  rw [BitVec.toNat_ofNat, ← hb, Nat.mod_eq_of_lt this]

theorem does_herdStart {ahead : Nat} (setidx : Bool) (idx : DWord) {b : DWord} (hparked : x.parked = false) (h2 : 2 ≤ ahead) (hmax : ahead ≤ 255)
    (hb : b.toNat = (beadNo s).toNat + ahead) (hnodup : x.sites.Nodup) (h131 : ∀ d ∈ x.sites, r131 s d = true) :
    Does (.herdStart c ahead setidx idx) s [.ctl, .core, .herd, .busyRing, .completions, .fnTurn, .out] fun t => Answered s t c 0 b ∧
      herdOf t h = some { x with stepSlot := 0 } ∧
      ∀ d ∈ x.sites, coreState t d = 2 ∧ startBead t d = b ∧ stepIdx t d = if setidx then idx else stepIdx s d := by
  have hsites : herdSites (fetched c s) h = x.sites := by rw [herdSites_fetched, herdSites_of_runs hr]
  have hof : herdOf (fetched c s) h = some x := by rw [herdOf_fetched, hr.2.2.2.2.1]
  obtain ⟨a, ha⟩ : ∃ a, a = each x.sites (beginCore setidx idx b fun d => decide (coreState (fetched c s) d = 8)) := ⟨_, rfl⟩
  have hcores : Within [.ctl, .core] a := ha ▸ within_each fun d => within_beginCore ..
  have hw : Within [.ctl, .core, .herd] (seq [a, setHerd h (fun x => { x with stepSlot := 0 })]) :=
    within_seq_cons (hcores.wider rfl) <| within_seq_cons ((within_setHerd ..).wider rfl) within_seq_nil
  have hptr : KeepsReg (ptrReg c) (seq [a, setHerd h (fun x => { x with stepSlot := 0 })]) := by
    rw [ha]
    have := ptrReg_low c
    exact keeps_seq_cons (keeps_each fun d _ => keepsReg_beginCore_low (by omega) ..) <| keeps_seq_cons ((within_setHerd ..).keepsReg _) keeps_seq_nil
  have hbody : after (actHerdStart c ahead setidx idx) s =
      after (complete c 0 b) (after (seq [a, setHerd h (fun x => { x with stepSlot := 0 })]) (fetched c s)) := by
    rw [actHerdStart, after_look, bead_ahead hb, if_neg (by omega), after_herdCmd hr, startBody, after_look, hof, Option.any_some, hparked,
      if_neg Bool.false_ne_true, beadNo_fetched, if_neg (by omega), hsites, after_seq_cons, after_seq_cons, after_seq_cons, after_seq_nil, after_seq_cons,
      after_seq_cons, after_seq_nil, ha]
    have heach := after_each_cores (s := fetched c s) (g := beginCore setidx idx b fun d => decide (coreState (fetched c s) d = 8)) hnodup
      (fun d hd u hstate hno => after_beginCore setidx idx (b := b) (fun d => decide (coreState (fetched c s) d = 8))
        (by rw [r131, hstate, coreState_fetched, ← r131, h131 d hd]) (by rw [hstate]) (by rw [hno, beadNo_fetched]; omega))
      (fun d _ => keeps_beadNo fun y hy _ _ => keepsReg_beginCore_low hy ..)
      (fun d _ e _ hne => by
        have pe := pages_of_site e
        exact keeps_coreState (keepsReg_beginCore_other hne (by omega) (by omega) ..))
    rw [heach]
    rfl
  refine does_worked hw hptr hs (act := actHerdStart c ahead setidx idx) rfl hbody fun t ht => ?_
  rw [after_seq_cons, after_seq_cons, after_seq_nil] at ht
  have hctl : t.ctl = (after a (fetched c s)).ctl := by
    have h1 : t.ctl = (after (setHerd h (fun x => { x with stepSlot := 0 })) (after a (fetched c s))).ctl := ht .ctl rfl
    rw [h1, (within_setHerd ..).ctl]
  have hrd (y : Nat) : rd t y = rd (after a (fetched c s)) y := by rw [rd, rd, hctl]
  have hherd : t.herd = (after (setHerd h (fun x => { x with stepSlot := 0 })) (after a (fetched c s))).herd := ht .herd rfl
  refine ⟨?_, fun d hd => ?_⟩
  · rw [herdOf, hherd, ← herdOf]
    exact herdOf_after_setHerd (by rw [hcores.herdOf, hof]) _
  · obtain ⟨h1, h2, h3⟩ := ha ▸ started setidx idx b (fun d => decide (coreState (fetched c s) d = 8)) hd (fetched c s)
    have pd := pages_of_site d
    refine ⟨?_, ?_, ?_⟩
    · rw [coreState, hrd, ← coreState, h1]
    · rw [startBead, rd64, hrd, hrd, ← rd64, ← startBead, h2]
    · rw [stepIdx, rd64, hrd, hrd, ← rd64, ← stepIdx, h3, stepIdx, rd64_fetched_core c s (by omega), ← stepIdx]


/-! ## HERD_STOP -/

omit hs hr in
/-- A core that runs is to stop at its next BEAD row, and one at its BEAD row halts there (R136). -/
theorem stopped_each {cs : List Nat} {d : Nat} (hd : d ∈ cs) (s : State) :
    (coreState s d = 3 → (coreX (after (each cs stopCore) s) d).stopPend = true) ∧
    (coreState s d = 5 → (coreX (after (each cs stopCore) s) d).halting = some 0xFF) := by
  have hstate (e : Nat) (u : State) : coreState (after (stopCore e) u) d = coreState u d := by
    rw [coreState, ((within_stopCore e).keepsReg _).eq, ← coreState]
  have hother {e : Nat} (he : d ≠ e) (u : State) : coreX (after (stopCore e) u) d = coreX u d := by
    rw [stopCore, after_look]
    split
    case h_7 => rfl
    all_goals exact coreX_core_other _ he _
  refine ⟨fun h3 => ?_, fun h5 => ?_⟩
  · have hset (u : State) (hu : coreState u d = 3) : (coreX (after (stopCore d) u) d).stopPend = true := by
      rw [after_stopCore_running (by rw [hu]; rfl), after_setCore, coreX_core_same]
    refine (after_each_reaches (P := fun u => coreState u d = 3) (Q := fun u => coreState u d = 3 ∧ (coreX u d).stopPend = true) hd
      (fun u hu => ⟨(hstate d u).trans hu, hset u hu⟩) (fun e _ u hu => (hstate e u).trans hu) (fun e _ u hu => ⟨(hstate e u).trans hu.1, ?_⟩) h3).2
    by_cases he : d = e
    · rw [← he]
      exact hset u hu.1
    · rw [hother he]
      exact hu.2
  · have hset (u : State) (hu : coreState u d = 5) : (coreX (after (stopCore d) u) d).halting = some 0xFF := by
      rw [after_stopCore_atBead (.inl hu), after_setCore, coreX_core_same]
    refine (after_each_reaches (P := fun u => coreState u d = 5) (Q := fun u => coreState u d = 5 ∧ (coreX u d).halting = some 0xFF) hd
      (fun u hu => ⟨(hstate d u).trans hu, hset u hu⟩) (fun e _ u hu => (hstate e u).trans hu) (fun e _ u hu => ⟨(hstate e u).trans hu.1, ?_⟩) h5).2
    by_cases he : d = e
    · rw [← he]
      exact hset u hu.1
    · rw [hother he]
      exact hu.2

theorem does_herdStop : Does (.herdStop c) s [.ctl, .core, .busyRing, .completions, .fnTurn, .out] fun t => Answered s t c 0 0 ∧ ∀ d ∈ x.sites,
    (coreState s d = 3 → (coreX t d).stopPend = true) ∧ (coreState s d = 5 → (coreX t d).halting = some 0xFF) := by
  have hsites : herdSites (fetched c s) h = x.sites := by rw [herdSites_fetched, herdSites_of_runs hr]
  have hw : Within [.core] (each x.sites stopCore) := within_each fun d => within_stopCore ..
  refine does_worked hw (hw.keepsReg _) hs (act := actHerdStop c) (status := 0) (result := 0) rfl ?_ fun t ht d hd => ?_
  · rw [actHerdStop, after_herdCmd hr, stopBody, after_look, hsites, after_seq_cons, after_seq_cons, after_seq_nil]
    rfl
  · have hcore : t.core = (after (each x.sites stopCore) (fetched c s)).core := ht .core rfl
    obtain ⟨h3, h5⟩ := stopped_each hd (fetched c s)
    rw [coreState_fetched] at h3 h5
    rw [coreX_of_core hcore]
    exact ⟨h3, h5⟩

/-! ## HERD_RESUME -/

/-- A core that is paused goes on at a bead (R143 to R145). -/
def resumeOne (b : DWord) (c : Nat) : Act := look fun s => act (decide (coreState s c = 6)) (armAt c b true false)

omit hs hr in
theorem within_resumeOne (b : DWord) (c : Nat) : Within [.ctl, .core] (resumeOne b c) := within_look fun _ => within_act (within_armAt ..)

omit hs hr in
theorem keepsReg_resumeOne_low {y : Nat} (hy : y < 0x1000000) (b : DWord) (c : Nat) : KeepsReg y (resumeOne b c) :=
  keeps_look fun _ => keeps_act fun _ => keepsReg_armAt_low hy ..

omit hs hr in
theorem keepsReg_resumeOne_other {c d y : Nat} (h : d ≠ c) (hy : corePage d ≤ y) (hy' : y < corePage d + 0x10000) (b : DWord) :
    KeepsReg y (resumeOne b c) :=
  keeps_look fun _ => keeps_act fun _ => keepsReg_armAt_other h hy hy' ..

omit hs hr in
/-- A core is paused still, or goes on at the bead. -/
def Resuming (b : DWord) (d : Nat) (s : State) : Prop := coreState s d = 6 ∨ coreState s d = 2 ∧ startBead s d = b

omit hs hr in
theorem resumed_resumeOne {b : DWord} {d : Nat} {s : State} (h : Resuming b d s) : coreState (after (resumeOne b d) s) d = 2 ∧
    startBead (after (resumeOne b d) s) d = b := by
  rw [resumeOne, after_look]
  rcases h with h6 | h2
  · rw [decide_eq_true h6, after_act, if_pos rfl]
    exact ⟨coreState_after_armAt .., startBead_after_armAt ..⟩
  · have hno : ¬ coreState s d = 6 := by
      rw [h2.1]
      decide
    rw [decide_eq_false hno, after_act, if_neg Bool.false_ne_true]
    exact h2

omit hs hr in
theorem resumed_each {b : DWord} {cs : List Nat} {d : Nat} (hd : d ∈ cs) {s : State} (h6 : coreState s d = 6) :
    coreState (after (each cs (resumeOne b)) s) d = 2 ∧ startBead (after (each cs (resumeOne b)) s) d = b := by
  have pd := pages_of_site d
  have hother {e : Nat} (he : d ≠ e) (u : State) : coreState (after (resumeOne b e) u) d = coreState u d ∧
      startBead (after (resumeOne b e) u) d = startBead u d := by
    have hk (o : Nat) (ho : o < 0xF000) : KeepsReg (seqPage d + o) (resumeOne b e) := keepsReg_resumeOne_other he (by omega) (by omega) b
    exact ⟨(keeps_coreState (hk 0x104 (by decide))).eq u, (keeps_startBead (hk 0x110 (by decide)) (hk 0x114 (by decide))).eq u⟩
  refine after_each_reaches (P := Resuming b d) (Q := fun u => coreState u d = 2 ∧ startBead u d = b) hd (fun u hu => resumed_resumeOne hu)
    (fun e _ u hu => ?_) (fun e _ u hu => ?_) (.inl h6)
  · by_cases he : d = e
    · exact .inr (he ▸ resumed_resumeOne hu)
    · rw [Resuming, (hother he u).1, (hother he u).2]
      exact hu
  · by_cases he : d = e
    · exact he ▸ resumed_resumeOne (.inr hu)
    · rw [(hother he u).1, (hother he u).2]
      exact hu

omit hs hr in
/-- A herd whose cores have not faulted resumes core by core. -/
theorem after_resumeCores_eq {b : DWord} {cs : List Nat} {s : State} (h8 : ∀ d ∈ cs, coreState s d ≠ 8) (hb : (beadNo s).toNat < b.toNat) :
    after (each cs fun c => look fun s =>
      let st := coreState s c
      if st = 6 then seq [wr64 (seqPage c + 0x110) b, armCore .ringCtl c]
      else if st = 8 then seq [wr64 (seqPage c + 0x110) b, resumeCore .ringCtl c]
      else nop) s = after (each cs (resumeOne b)) s := by
  refine after_each_eq (P := fun as u => beadNo u = beadNo s ∧ ∀ d ∈ as, coreState u d ≠ 8) (fun d as u hp => ?_) cs s ⟨rfl, h8⟩
  obtain ⟨hno, hall⟩ := hp
  refine ⟨?_, ((keeps_beadNo fun y hy _ _ => keepsReg_resumeOne_low hy ..).eq u).trans hno, fun e he => ?_⟩
  · rw [after_look, resumeOne, after_look]
    dsimp only
    by_cases h6 : coreState u d = 6
    · rw [if_pos h6, decide_eq_true h6, after_act, if_pos rfl, after_seq_cons, after_seq_cons, after_seq_nil,
        after_wr64_armCore (by rw [h6]; rfl) (by rw [hno]; exact hb), h6]
      rfl
    · rw [if_neg h6, if_neg (hall d (List.mem_cons_self ..)), decide_eq_false h6, after_act, if_neg Bool.false_ne_true, after_nop]
  · have he8 := hall e (List.mem_cons_of_mem _ he)
    have pe := pages_of_site e
    by_cases hed : e = d
    · rw [hed, resumeOne, after_look, after_act]
      split
      · rw [coreState_after_armAt]
        decide
      · exact hed ▸ he8
    · rw [(keeps_coreState (keepsReg_resumeOne_other hed (by omega) (by omega) b)).eq]
      exact he8

theorem does_herdResume {ahead : Nat} {b : DWord} (hparked : x.parked = false) (h2 : 2 ≤ ahead) (hmax : ahead ≤ 255)
    (hb : b.toNat = (beadNo s).toNat + ahead) (h8 : ∀ d ∈ x.sites, coreState s d ≠ 8) :
    Does (.herdResume c ahead) s [.ctl, .core, .herd, .busyRing, .completions, .fnTurn, .out] fun t => Answered s t c 0 b ∧
      herdOf t h = some { x with faultBead := none } ∧
      ∀ d ∈ x.sites, coreState s d = 6 → coreState t d = 2 ∧ startBead t d = b := by
  have hsites : herdSites (fetched c s) h = x.sites := by rw [herdSites_fetched, herdSites_of_runs hr]
  have hof : herdOf (fetched c s) h = some x := by rw [herdOf_fetched, hr.2.2.2.2.1]
  have hcores : Within [.ctl, .core] (each x.sites (resumeOne b)) := within_each fun d => within_resumeOne ..
  have hw : Within [.ctl, .core, .herd] (seq [each x.sites (resumeOne b), setHerd h (fun x => { x with faultBead := none })]) :=
    within_seq_cons (hcores.wider rfl) <| within_seq_cons ((within_setHerd ..).wider rfl) within_seq_nil
  have hptr : KeepsReg (ptrReg c) (seq [each x.sites (resumeOne b), setHerd h (fun x => { x with faultBead := none })]) := by
    have := ptrReg_low c
    exact keeps_seq_cons (keeps_each fun d _ => keepsReg_resumeOne_low (by omega) ..) <| keeps_seq_cons ((within_setHerd ..).keepsReg _) keeps_seq_nil
  have hstatus : resumeStatus (fetched c s) h b = 0 := by
    have hno : x.sites.any (fun t => decide (coreState (fetched c s) t = 8) && !bit (rd (fetched c s) (seqPage t + 0x180)) 30) = false :=
      List.any_eq_false.mpr fun d hd => by
        rw [coreState_fetched, decide_eq_false (h8 d hd), Bool.false_and]
        exact Bool.false_ne_true
    rw [resumeStatus, hof, Option.any_some, hparked, hsites, hno, Bool.or_self, if_neg Bool.false_ne_true, beadNo_fetched, if_neg (by omega)]
  have hbody : after (actHerdResume c ahead) s =
      after (complete c 0 b) (after (seq [each x.sites (resumeOne b), setHerd h (fun x => { x with faultBead := none })]) (fetched c s)) := by
    rw [actHerdResume, after_look, bead_ahead hb, if_neg (by omega), after_herdCmd hr, resumeBody, after_look, hstatus]
    dsimp only
    rw [after_seq_cons, after_seq_cons, after_seq_nil, decide_eq_true rfl, after_act, if_pos rfl, resumeCores, after_look, hsites, after_seq_cons,
      after_seq_cons, after_seq_nil, after_resumeCores_eq (fun d hd => by rw [coreState_fetched]; exact h8 d hd) (by rw [beadNo_fetched]; omega),
      after_seq_cons, after_seq_cons, after_seq_nil]
  refine does_worked hw hptr hs (act := actHerdResume c ahead) rfl hbody fun t ht => ?_
  rw [after_seq_cons, after_seq_cons, after_seq_nil] at ht
  have hctl : t.ctl = (after (each x.sites (resumeOne b)) (fetched c s)).ctl := by
    have h1 : t.ctl = (after (setHerd h (fun x => { x with faultBead := none })) (after (each x.sites (resumeOne b)) (fetched c s))).ctl := ht .ctl rfl
    rw [h1, (within_setHerd ..).ctl]
  have hrd (y : Nat) : rd t y = rd (after (each x.sites (resumeOne b)) (fetched c s)) y := by rw [rd, rd, hctl]
  have hherd : t.herd = (after (setHerd h (fun x => { x with faultBead := none })) (after (each x.sites (resumeOne b)) (fetched c s))).herd := ht .herd rfl
  refine ⟨?_, fun d hd h6 => ?_⟩
  · rw [herdOf, hherd, ← herdOf]
    exact herdOf_after_setHerd (by rw [hcores.herdOf, hof]) _
  · obtain ⟨h1, h2⟩ := resumed_each (b := b) hd (s := fetched c s) (by rw [coreState_fetched, h6])
    refine ⟨?_, ?_⟩
    · rw [coreState, hrd, ← coreState, h1]
    · rw [startBead, rd64, hrd, hrd, ← rd64, ← startBead, h2]

end

end Sys2Proof.Machine
end

section
/-! Rings, register lists, programs, extents, dumps and evaluations of a herd (R517, R520, R521, R527, R529, R361, R437); O48. -/

namespace Sys2Proof.Machine

-- One declaration after the other: elaborated side by side they take more memory than the check has.
set_option Elab.async false

section
variable {s : State} (hs : Ready s) {c : CmdId} {h : Nat} {x : Herd} (hr : CommandRuns s c h x)
include hs hr

omit hs hr in
theorem not_waits_of_writable {js : List Judged} (hj : js.all writablePage = true) : js.contains .waits = false := by
  cases hc : js.contains .waits with
  | false => rfl
  | true => exact absurd (List.all_eq_true.mp hj _ (List.contains_iff_mem.mp hc)) (by decide)

/-! ## HERD_RINGS -/

/-- Ring i of a herd's area is pointed and enabled (R520). -/
def pointRing (area h l i : Nat) : Act :=
  let b := area + i * (64 * 2 ^ l)
  let r := ringAddr i h
  seq [wr r (BitVec.ofNat 32 (b / 64 * 64)), wr (r + 4) (BitVec.ofNat 32 (0x80000000 + l * 65536 + b / 4294967296 % 1024)), wr (r + 8) 0]

omit hs hr in
theorem keepsReg_pointRing {y area h l i : Nat} (h0 : y ≠ ringAddr i h) (h4 : y ≠ ringAddr i h + 4) (h8 : y ≠ ringAddr i h + 8) :
    KeepsReg y (pointRing area h l i) :=
  keeps_seq_cons (keepsReg_wr h0 _) <| keeps_seq_cons (keepsReg_wr h4 _) <| keeps_seq_cons (keepsReg_wr h8 _) keeps_seq_nil

omit hs hr in
theorem within_pointRing (area h l i : Nat) : Within [.ctl] (pointRing area h l i) :=
  within_seq_cons (within_wr ..) <| within_seq_cons (within_wr ..) <| within_seq_cons (within_wr ..) within_seq_nil

omit hs hr in
theorem ringAddr_bounds {i h : Nat} (hi : i < 25) (hh : h < 64) : ringAddr i h < 0x161000 ∧ ∀ j < 25, j ≠ i →
    ringAddr j h + 16 ≤ ringAddr i h ∨ ringAddr i h + 16 ≤ ringAddr j h := by
  unfold ringAddr uePage bxPage
  refine ⟨by split <;> omega, fun j hj hne => ?_⟩
  split <;> split <;> omega

omit hs hr in
/-- The registers of a ring that has been pointed. -/
theorem pointed {area h l i : Nat} (hi : i < 25) (hh : h < 64) (s : State) : let t := after (each (List.range 25) (pointRing area h l)) s
    rd t (ringAddr i h) = BitVec.ofNat 32 ((area + i * (64 * 2 ^ l)) / 64 * 64) ∧
    rd t (ringAddr i h + 4) = BitVec.ofNat 32 (0x80000000 + l * 65536 + (area + i * (64 * 2 ^ l)) / 4294967296 % 1024) ∧
    rd t (ringAddr i h + 8) = 0 := by
  have hset (o : Nat) (v : Word) (ho : o ≤ 8) (hown : ∀ u, rd (after (pointRing area h l i) u) (ringAddr i h + o) = v) :
      rd (after (each (List.range 25) (pointRing area h l)) s) (ringAddr i h + o) = v := by
    refine after_each_sets (f := (rd · (ringAddr i h + o))) (List.mem_range.mpr hi) hown (fun j hj => ?_) s
    by_cases hji : j = i
    · exact .inl (hji ▸ hown)
    · have hfar := (ringAddr_bounds hi hh).2 j (List.mem_range.mp hj) hji
      exact .inr (keepsReg_pointRing (by omega) (by omega) (by omega))
  refine ⟨hset 0 _ (by decide) fun u => ?_, hset 4 _ (by decide) fun u => ?_, hset 8 _ (by decide) fun u => ?_⟩ <;>
    rw [pointRing, after_seq_cons, after_seq_cons, after_seq_cons, after_seq_nil]
  · have hend (v w : Word) (u : State) : rd (after (wr (ringAddr i h + 8) v) (after (wr (ringAddr i h + 4) w) u)) (ringAddr i h) = rd u (ringAddr i h) := by
      rw [(keepsReg_wr (by omega) _).eq, (keepsReg_wr (by omega) _).eq]
    exact (hend _ _ _).trans (by rw [after_wr, rd_ctl_same])
  · rw [(keepsReg_wr (by omega) _).eq, after_wr, rd_ctl_same]
  · rw [after_wr, rd_ctl_same]

theorem does_herdRings {area : DWord} {l : Nat} (h4 : 4 ≤ l) (h12 : l ≤ 12)
    (ha : (areaJudged s h area.toNat (25 * (64 * 2 ^ l))).all writablePage = true) :
    Does (.herdRings c area l) s [.ctl, .busyRing, .completions, .fnTurn, .out] fun t => Answered s t c 0 0 ∧ ∀ i < 25,
      bit (rd t (ringAddr i h + 4)) 31 = true ∧ fld (rd t (ringAddr i h + 4)) 19 16 = l ∧ ringHead t i h = 0 ∧
      rd t (ringAddr i h) = BitVec.ofNat 32 ((area.toNat + i * (64 * 2 ^ l)) / 64 * 64) := by
  have hlow : h < 64 := hr.1
  have hw : Within [.ctl] (each (List.range 25) (pointRing area.toNat h l)) := within_each fun i => within_pointRing ..
  have hptr : KeepsReg (ptrReg c) (each (List.range 25) (pointRing area.toNat h l)) := keeps_each fun i hi => by
    have hb := (ringAddr_bounds (List.mem_range.mp hi) hlow).1
    have := ptrReg_pos c
    exact keepsReg_pointRing (by omega) (by omega) (by omega)
  refine does_worked hw hptr hs (act := actHerdRings c area l) (status := 0) (result := 0) rfl ?_ fun t ht i hi => ?_
  · obtain ⟨-, -, -, hfn, -⟩ := id hr
    have hwait : areaWaits s h area.toNat l = false := by
      rw [areaWaits, Nat.mul_assoc, not_waits_of_writable ha, Bool.and_false]
    rw [actHerdRings, after_look, hfn, Option.any_some, hwait, Bool.and_false, if_neg Bool.false_ne_true, after_herdCmd hr, ringsBody, after_look]
    dsimp only
    rw [if_neg (by omega), (sameSpace_fetched c s).areaJudged, if_pos ha, after_seq_cons, after_seq_cons, after_seq_nil]
    rfl
  · have hctl : t.ctl = (after (each (List.range 25) (pointRing area.toNat h l)) (fetched c s)).ctl := ht .ctl rfl
    have hrd (y : Nat) : rd t y = rd (after (each (List.range 25) (pointRing area.toNat h l)) (fetched c s)) y := by rw [rd, rd, hctl]
    obtain ⟨h0, hsize, hhead⟩ := pointed (area := area.toNat) (l := l) hi hlow (fetched c s)
    refine ⟨?_, ?_, ?_, ?_⟩
    · rw [hrd, hsize, bit_ofNat, Nat.testBit_eq_decide_div_mod_eq]
      simp
      omega
    · rw [hrd, hsize, fld_ofNat _ (by decide) (by decide), bits]
      omega
    · rw [ringHead, hrd, hhead]
      rfl
    · rw [hrd, h0]

/-! ## HERD_REGW -/

omit hs hr in
theorem pageBlock_seq {d : Nat} (hd : d < 1024) : pageBlock (0x1001 + 16 * d) = .seq d := by
  rw [pageBlock]
  repeat rw [if_neg (by omega)]
  rw [if_pos (by omega)]
  rw [show (0x1001 + 16 * d - 0x1000) % 16 = 1 by omega, show (0x1001 + 16 * d - 0x1000) / 16 = d by omega]
  rfl

omit hs hr in
/-- An enabled core's SEQ_START_ROW may be written while the core is at rest (R131). -/
theorem regwAt_startRow {s : State} {d : Nat} (hd : d < 1024) (hen : coreEn s d = true) (h131 : r131 s d = true)
    (hrst : rstBusy s (seqPage d) = false) (hfence : fenced s (seqPage d) = false) (r : Requester) (v : Word) :
    regwAt s r d 0x1108 v none = (true, maskWrite (.seq d) (seqPage d + 0x108) v) := by
  have ha : sitePage d 0 + 0x1108 = seqPage d + 0x108 := by
    unfold seqPage sitePage
    omega
  have hp : (seqPage d + 0x108) / 4096 = 0x1001 + 16 * d := by
    unfold seqPage sitePage
    omega
  have hq : (seqPage d + 0x108) / 4096 * 4096 = seqPage d := by
    unfold seqPage sitePage
    omega
  have ho : (seqPage d + 0x108) % 4096 = 0x108 := by
    unfold seqPage sitePage
    omega
  have hb : blockOf s ((seqPage d + 0x108) / 4096) = .seq d := by
    rw [hp, blockOf, pageBlock_seq hd]
    simp [Block.coreSite, hen]
  rw [regwAt, ha, hb, hq, hrst, hfence, if_neg (by simp [Block.coreSite]), if_neg (by simp [Block.isWindow]), if_neg (by simp), coreWrite, ho, if_neg (by decide), if_neg (by decide), if_neg (by decide), if_pos (by decide), ruled, h131, if_pos rfl]

theorem does_herdRegw {e : RegwEntry} {d : Nat} (hparked : x.parked = false) (hd : x.sites[e.hidx]? = some d) (hlow : d < 1024) (hwide : e.wide = false)
    (hoff : e.offset = 0x1108) (hen : coreEn s d = true) (h131 : r131 s d = true) (hrst : rstBusy s (seqPage d) = false)
    (hfence : fenced s (seqPage d) = false) :
    Does (.herdRegw c [e]) s [.ctl, .busyRing, .completions, .fnTurn, .out] fun t => Answered s t c 0 1 ∧
      fld (rd t (seqPage d + 0x108)) 10 0 = fld (loWord e.value) 10 0 := by
  have pd := pages_of_site d
  have hfuses : (fetched c s).fuses = s.fuses := onlyIn_fetched c s .fuses rfl
  have hsite : siteAt (fetched c s) h e.hidx = some d := by rw [siteAt, herdSites_fetched, herdSites_of_runs hr, hd]
  have hentry : regwEntry (fetched c s) h e = (true, maskWrite (.seq d) (seqPage d + 0x108) (loWord e.value)) := by
    rw [regwEntry, hsite]
    dsimp only
    rw [hwide, if_pos (by decide), hoff]
    exact regwAt_startRow hlow (by rw [coreEn, hfuses, ← coreEn, hen]) (by rw [r131, coreState_fetched, ← r131, h131])
      (by rw [rstBusy, rd_fetched_core c s (by omega), ← rstBusy, hrst]) (by rw [fenced, rd_fetched_core c s (by omega), ← fenced, hfence]) _ _
  have hdef : regDef (.seq d) ((seqPage d + 0x108) % 4096) = some ⟨0x108, 1, 4, 0x7FF, 0, 0, 0, 0, 0⟩ := by
    have ho : (seqPage d + 0x108) % 4096 = 0x108 := by omega
    rw [ho, regDef, if_neg (by simp [Block.isWindow]), if_neg (by decide), if_neg (by decide)]
    rfl
  have hptr : KeepsReg (ptrReg c) (maskWrite (.seq d) (seqPage d + 0x108) (loWord e.value)) := keepsReg_maskWrite (by
    have := ptrReg_low c
    omega) _ _
  refine does_worked (within_maskWrite ..) hptr hs (act := actHerdRegw c [e]) (status := 0) (result := 1) rfl ?_ fun t ht => ?_
  · obtain ⟨-, hres, hready, hfn, -, -, -, hbusy, -⟩ := id hr
    rw [actHerdRegw, after_look, hfn, Option.any_some, hbusy, Bool.and_false, if_neg Bool.false_ne_true, after_hostCmd hready, hres,
      if_neg Bool.false_ne_true, after_ownHerd hr, after_look, if_neg (by simp), hparked, if_neg Bool.false_ne_true, herdMembers_fetched hr,
      if_pos List.isEmpty_nil, regwList, after_look]
    dsimp only
    rw [hentry, if_pos rfl, after_seq_cons, after_seq_cons, after_seq_nil, regwList, if_pos rfl]
    have hone : BitVec.ofNat 64 (0 + 1) = 1 := by decide
    rw [hone]
  · have hctl : t.ctl = (after (maskWrite (.seq d) (seqPage d + 0x108) (loWord e.value)) (fetched c s)).ctl := ht .ctl rfl
    rw [rd, hctl, ← rd, fld_after_maskWrite hdef rfl rfl (by decide) fun i _ hi => by interval_cases i <;> decide]

theorem does_herdRegw_beyond {e : RegwEntry} (hparked : x.parked = false) (hlen : x.sites.length ≤ e.hidx) : Does (.herdRegw c [e])
    s [.ctl, .busyRing, .completions, .freeCtr, .fnTurn, .out] fun t => Answered s t c 2 0 ∧ bit (rd t (secPage 0 + 0x20)) 6 = true := by
  have hsite : siteAt (fetched c s) h e.hidx = none := by
    rw [siteAt, herdSites_fetched, herdSites_of_runs hr]
    exact List.getElem?_eq_none hlen
  obtain ⟨r, hentry⟩ : ∃ r, regwEntry (fetched c s) h e = (false, refuseAccess r) := by
    rw [regwEntry, hsite]
    exact ⟨_, rfl⟩
  have hbody : after (actHerdRegw c [e]) s = after (complete c 2 0) (after (refuseAccess r) (fetched c s)) := by
    obtain ⟨-, hres, hready, hfn, -, -, -, hbusy, -⟩ := id hr
    rw [actHerdRegw, after_look, hfn, Option.any_some, hbusy, Bool.and_false, if_neg Bool.false_ne_true, after_hostCmd hready, hres,
      if_neg Bool.false_ne_true, after_ownHerd hr, after_look, if_neg (by simp), hparked, if_neg Bool.false_ne_true, herdMembers_fetched hr,
      if_pos List.isEmpty_nil, regwList, after_look]
    dsimp only
    rw [hentry, if_neg Bool.false_ne_true, after_seq_cons, after_seq_cons, after_seq_nil, if_neg Bool.false_ne_true]
    rfl
  have hpage : secPage 0 = 0x8000 := rfl
  have hraise (u : State) : OnlyIn [.ctl, .freeCtr] u (after (refuseAccess r) u) := by
    rw [refuseAccess, after_seq_cons, after_seq_cons, after_seq_nil]
    exact (((within_count ..).wider rfl).onlyIn u).trans (onlyIn_raise_mild _ _ nofun)
  have hptr : KeepsReg (ptrReg c) (refuseAccess r) := by
    have := ptrReg_pos c
    exact keeps_seq_cons (keepsReg_count (by omega) (by omega) (by omega) _) <| keeps_seq_cons (keepsReg_raise (by omega) (by omega) nofun) keeps_seq_nil
  obtain ⟨u, hu⟩ : ∃ u, u = after (refuseAccess r) (fetched c s) := ⟨_, rfl⟩
  have honly : OnlyIn [.ctl, .freeCtr] (fetched c s) u := hu ▸ hraise _
  have hcomp : u.completions = s.completions := by
    have h1 : u.completions = (fetched c s).completions := honly .completions rfl
    rw [h1, completions_fetched]
  have hist : bit (rd u (secPage 0 + 0x20)) 6 = true := by
    rw [hu, refuseAccess, after_seq_cons, after_seq_cons, after_seq_nil]
    exact bit_after_raise _ (c := { cls := .security, req := reqNo r }) nofun
  have hend : OnlyIn [.completions] u (after (complete c 2 0) u) := onlyIn_complete c 2 0 u
  refine does_of_run hs.1 rfl ?_ ?_ <;> rw [hbody, ← hu]
  · exact ((onlyIn_fetched c s).wider rfl).trans (honly.wider rfl) |>.trans (hend.wider rfl)
  · refine ⟨answered_of (hu ▸ Fetched.of_act (hraise _) (hptr.rd _) rfl rfl) hcomp 2 0, ?_⟩
    have hctl : (after (complete c 2 0) u).ctl = u.ctl := hend .ctl rfl
    rw [rd, hctl, ← rd, hist]

end

end Sys2Proof.Machine
end

section
/-! Programs, extents, dumps and evaluations of a herd, and a fault that nobody resumes (R521, R361, R437, R529, R524); O48. -/

namespace Sys2Proof.Machine

-- One declaration after the other: elaborated side by side they take more memory than the check has.
set_option Elab.async false

section
variable {s : State} (hs : Ready s) {c : CmdId} {h : Nat} {x : Herd} (hr : CommandRuns s c h x)
include hs hr

/-! ## PROG_LOAD -/

/-- The programs of an image. -/
def imagePrograms (count : Nat) (bs : List Byte) : List (List Word) :=
  (List.range count).map (fun k => leWords 32 ((bs.drop (128 * k)).take 128))

omit hs hr in
theorem padded_of_length {ws : List Word} (h : ws.length = 32) : padded ws = ws := by
  rw [padded, List.take_append_of_le_length h.ge, ← h, List.take_length]

omit hs hr in
theorem map_padded_imagePrograms (count : Nat) (bs : List Byte) : (imagePrograms count bs).map padded = imagePrograms count bs := by
  refine (List.map_congr_left fun ws hws => ?_).trans (List.map_id _)
  obtain ⟨k, -, rfl⟩ := List.mem_map.mp hws
  exact padded_of_length (length_leWords ..)

omit hs hr in
theorem getElem?_imagePrograms {count k : Nat} (hk : k < count) (bs : List Byte) :
    (imagePrograms count bs)[k]? = some (leWords 32 ((bs.drop (128 * k)).take 128)) := by
  rw [imagePrograms, List.getElem?_map, List.getElem?_range hk, Option.map_some]

/-- The image is read, and its programs go into every engine's store. -/
def loadPrograms (h image first count : Nat) (progs : List (List Word)) : Act :=
  seq [urReadActs h image (128 * count) .mesh, each (List.range 24) (loadEngine first progs)]

omit hs hr in
theorem within_loadEngine (first : Nat) (progs : List (List Word)) (n : Nat) : Within [.ctl, .prog, .progPend] (loadEngine first progs n) :=
  within_seq_cons ((within_each fun _ => within_loadProgram ..).wider rfl) <| within_seq_cons ((within_endLoad ..).wider rfl) within_seq_nil

omit hs hr in
theorem keepsReg_loadProgram {y n p : Nat} (hy : y ≠ uePage n + 0x120 + 4 * (p / 32)) (ws : List Word) (ok : Bool) :
    KeepsReg y (loadProgram n p ws ok) := by
  have hpend (v : List ProgPend) : KeepsReg y (one (.progPend v)) := (within_one rfl : Within [.progPend] (one (.progPend v))).keepsReg y
  refine keeps_look fun s => ?_
  dsimp only
  refine keeps_ite (fun _ => hpend _) fun _ => ?_
  exact keeps_seq_cons (hpend _) <| keeps_seq_cons (keeps_seq_cons ((within_each (ps := [.prog]) fun _ => within_one rfl).keepsReg y) <|
    keeps_seq_cons (keepsReg_wrBit hy ..) keeps_seq_nil) keeps_seq_nil

omit hs hr in
/-- The registers beyond an engine's page stay as its programs are loaded. -/
theorem keepsReg_loadEngine {y n first : Nat} {progs : List (List Word)} (hlen : first + progs.length ≤ 256) (hy : uePage n + 4096 ≤ y) :
    KeepsReg y (loadEngine first progs n) := by
  refine keeps_seq_cons (keeps_each fun p hp => ?_) <| keeps_seq_cons (keeps_seq_cons (keepsReg_wrBit (by omega) ..) <|
    keeps_seq_cons (keepsReg_setIst (by omega) 9) keeps_seq_nil) keeps_seq_nil
  have hget := List.mem_zipIdx_iff_getElem?.mp hp
  have hlt : p.2 < progs.length := (List.getElem?_eq_some_iff.mp hget).1
  exact keepsReg_loadProgram (by omega) ..

omit hs hr in
theorem within_loadPrograms (h image first count : Nat) (progs : List (List Word)) :
    Within [.ctl, .mem, .chk, .prog, .progPend, .touched, .mergeBuf, .dumpRun, .freeCtr, .out] (loadPrograms h image first count progs) :=
  within_seq_cons ((within_urReadActs ..).wider rfl) <| within_seq_cons ((within_each fun _ => within_loadEngine ..).wider rfl) within_seq_nil

theorem does_progLoad {image : DWord} {first count : Nat} {bs : List Byte} (hfirst : x.firstProg ≤ first)
    (hend : first + count ≤ x.firstProg + x.nprog) (h256 : first + count ≤ 256) (hread : urRead s h image.toNat (128 * count) = .ok bs)
    (hdesc : s.desc = []) :
    Does (.progLoad c image first count) s [.ctl, .mem, .chk, .prog, .progPend, .touched, .mergeBuf, .busyRing, .completions, .dumpRun, .freeCtr, .out,
      .fnTurn] fun t => Answered s t c 0 0 ∧ ∀ n < 24, ∀ k < count, progWords t n (first + k) = leWords 32 ((bs.drop (128 * k)).take 128) := by
  obtain ⟨progs, hprogs⟩ : ∃ progs, progs = imagePrograms count bs := ⟨_, rfl⟩
  have hlen : progs.length = count := by rw [hprogs, imagePrograms, List.length_map, List.length_range]
  have hof : herdOf (fetched c s) h = some x := by rw [herdOf_fetched, hr.2.2.2.2.1]
  have hptr : KeepsReg (ptrReg c) (loadPrograms h image.toNat first count progs) := by
    have hpos := ptrReg_pos c
    have hlow := ptrReg_low c
    have hmig : migPage 0 = 0x140000 := rfl
    have hmp : mpPage 23 = 0x117000 := rfl
    refine keeps_seq_cons ((memWrites_urReadActs ..).keeps (not_memPages (by omega))) <| keeps_seq_cons (keeps_each fun n hn => ?_) keeps_seq_nil
    have hn' := List.mem_range.mp hn
    have hue : uePage n + 4096 ≤ 0x138000 := by
      unfold uePage
      omega
    exact keepsReg_loadEngine (by rw [hlen]; exact h256) (by omega)
  have hwaits : imageWaits s h image.toNat count = false := by
    rw [imageWaits, hread]
    rfl
  refine does_worked (within_loadPrograms ..) hptr hs (act := actProgLoad c image first count) (status := 0) (result := 0) rfl ?_ fun t ht n hn k hk => ?_
  · rw [actProgLoad, after_look, hr.2.2.2.1, Option.any_some, hwaits, Bool.and_false, if_neg Bool.false_ne_true, after_herdCmd hr, progBody, after_look,
      hof]
    dsimp only
    rw [if_neg (by omega), (sameSpace_fetched c s).urRead, hread]
    dsimp only
    rw [after_seq_cons, after_seq_cons, after_seq_cons, after_seq_nil, hprogs, loadPrograms, after_seq_cons, after_seq_cons, after_seq_nil]
    rfl
  · have hprog : t.prog = (after (loadPrograms h image.toNat first count progs) (fetched c s)).prog := ht .prog rfl
    have hsame : progWords t n (first + k) = progWords (after (loadPrograms h image.toNat first count progs) (fetched c s)) n (first + k) :=
      List.map_congr_left fun i _ => by rw [progWord, hprog, ← progWord]
    have hd : (after (urReadActs h image.toNat (128 * count) .mesh) (fetched c s)).desc = [] := by
      have hfetch : (fetched c s).desc = s.desc := onlyIn_fetched c s .desc rfl
      rw [(within_urReadActs ..).desc, hfetch, hdesc]
    have hpad : progs = progs.map padded := by rw [hprogs, map_padded_imagePrograms]
    rw [hsame, loadPrograms, after_seq_cons, after_seq_cons, after_seq_nil, hpad,
      progWords_after_loadEngines (by rw [hlen]; exact h256) hd hn (hprogs ▸ getElem?_imagePrograms hk bs), padded_of_length (length_leWords ..)]

/-! ## EXT_REG and EXT_DEREG -/

theorem does_extReg {base : DWord} {pages i : Nat} {k : HpNo} (hbase : base.toNat % 65536 = 0) (hpos : 0 < pages) (hmax : pages ≤ 262144)
    (hk : k.val = c.fn.val / 16) (hfree : (List.range 256).find? (fun i => (mGet s.extent i).isNone) = some i) :
    Does (.extReg c base pages) s [.ctl, .extent, .busyRing, .completions, .fnTurn, .out] fun t => Answered s t c 0 (BitVec.ofNat 64 i) ∧
      mGet t.extent i = some ⟨base, pages, k, c.fn, h, false⟩ := by
  have hw : Within [.extent] (one (.extent i (some ⟨base, pages, k, c.fn, h, false⟩))) := within_one rfl
  refine does_worked hw (hw.keepsReg _) hs (act := actExtReg c base pages) rfl ?_ fun t ht => ?_
  · have hext : (fetched c s).extent = s.extent := onlyIn_fetched c s .extent rfl
    have hkk : (⟨c.fn.val / 16, by have := c.fn.isLt; omega⟩ : HpNo) = k := Fin.ext hk.symm
    rw [actExtReg, after_herdCmd hr, after_look, if_neg (by omega), hext, hfree]
    dsimp only
    rw [hkk, after_seq_cons, after_seq_cons, after_seq_nil]
    rfl
  · have hext : t.extent = _ := ht .extent rfl
    rw [hext]
    exact mGet_mPut_same ..

theorem does_extDereg {i : BitVec 8} {e : Extent} (he : mGet s.extent i.toNat = some e) (hherd : e.herd = h) (hmoves : s.moves = [])
    (hhomed : ((validPages s).any (fun p => eFar (homeEntry s p) && decide (eExt (homeEntry s p) = i.toNat))) = false) :
    Does (.extDereg c i) s [.ctl, .farMem, .extent, .busyRing, .completions, .fnTurn, .out] fun t => Answered s t c 0 0 ∧
      mGet t.extent i.toNat = none := by
  obtain ⟨a, ha⟩ : ∃ a, a = seq [one (.farMemKeep (fun k => decide (k / 65536 / 262144 ≠ i.toNat))), one (.extent i.toNat none)] := ⟨_, rfl⟩
  have hw : Within [.farMem, .extent] a := ha ▸ within_seq_cons (within_one rfl) (within_seq_cons (within_one rfl) within_seq_nil)
  have htable := (sameSpace_fetched c s).table
  have hempty : (validPages s).filter (fun p => eFar (homeEntry s p) && decide (eExt (homeEntry s p) = i.toNat)) = [] :=
    List.filter_eq_nil_iff.mpr (List.any_eq_false.mp hhomed)
  have hext : (fetched c s).extent = s.extent := onlyIn_fetched c s .extent rfl
  have hmoves' : (fetched c s).moves = s.moves := onlyIn_fetched c s .moves rfl
  have hdrop : after (dropExtent i.toNat) (fetched c s) = after a (fetched c s) := by
    rw [dropExtent, after_look]
    dsimp only
    simp only [htable.validPages, htable.homeEntry]
    rw [hempty, hmoves', hmoves, List.filter_nil, ha]
    iterate 4 rw [after_seq_cons]
    rw [after_seq_nil, after_seq_cons, after_seq_cons, after_seq_nil]
    rfl
  refine does_worked hw (hw.keepsReg _) hs (act := actExtDereg c i) (status := 0) (result := 0) rfl ?_ fun t ht => ?_
  · rw [actExtDereg, after_herdCmd hr, after_look, hext, he]
    dsimp only
    rw [if_neg (by rw [hherd]; exact fun hne => hne rfl)]
    simp only [htable.validPages, htable.homeEntry]
    rw [hhomed, after_seq_cons, after_seq_cons, after_seq_cons, after_seq_nil, hdrop, after_act, if_neg Bool.false_ne_true]
    rfl
  · have ht' : t.extent = (after a (fetched c s)).extent := ht .extent rfl
    rw [ht', ha, after_seq_cons, after_seq_cons, after_seq_nil]
    exact mGet_mPut_same ..

/-! ## DUMP -/

omit hs hr in
theorem beadCyc_fetched (c : CmdId) (s : State) : beadCyc (fetched c s) = beadCyc s := by
  have := ptrReg_pos c
  rw [beadCyc, beadCyc, rd_fetched c s (by omega)]

theorem does_dump {dest : DWord} (hrun : s.dumpRun = none) (ha : (areaJudged s h dest.toNat (herdDumpSize s h)).all writablePage = true) :
    Does (.dump c dest) s [.ctl, .busyRing, .dumpRun, .fnTurn, .out] fun t => Fetched s t c ∧
      t.dumpRun = some ⟨3, h, true, beadNo s, beadCyc s, some (.host c), dest.toNat⟩ ∧ bit (rd t dumpCtl) 30 = true := by
  obtain ⟨a, ha'⟩ : ∃ a, a = seq [one (.dumpRun (some ⟨3, h, true, beadNo s, beadCyc s, some (.host c), dest.toNat⟩)), wrBit dumpCtl 30 true] := ⟨_, rfl⟩
  have hw : Within [.ctl, .dumpRun] a := ha' ▸ within_seq_cons (within_one rfl) (within_seq_cons ((within_wrBit ..).wider rfl) within_seq_nil)
  have hptr : KeepsReg (ptrReg c) a := by
    have := ptrReg_pos c
    have hctl : dumpCtl = 0x4100 := rfl
    exact ha' ▸ keeps_seq_cons ((within_one rfl : Within [.dumpRun] (one (.dumpRun _))).keepsReg _) (keeps_seq_cons (keepsReg_wrBit (by omega) ..) keeps_seq_nil)
  have hwaits : dumpWaits s h dest.toNat = false := by
    rw [dumpWaits, hrun, not_waits_of_writable ha]
    rfl
  have hsize : herdDumpSize (fetched c s) h = herdDumpSize s h := by rw [herdDumpSize, herdDumpSize, herdSites_fetched]
  refine does_begun hw hptr hs (act := actDump c dest) rfl ?_ ?_
  · rw [actDump, after_look, hr.2.2.2.1, Option.any_some, hwaits, Bool.and_false, if_neg Bool.false_ne_true, after_herdCmd hr, dumpBody, after_look,
      (sameSpace_fetched c s).areaJudged, hsize, if_pos ha, beginDump, after_look, beadNo_fetched, beadCyc_fetched, ha']
  · rw [ha', after_seq_cons, after_seq_cons, after_seq_nil]
    refine ⟨?_, ?_⟩
    · rw [(within_wrBit ..).dumpRun]
      rfl
    · rw [after_wrBit, rd_ctl_same, bit_setBit_same _ (by decide)]

/-! ## EVAL -/

theorem does_eval {p : EvalParams} (hparked : x.parked = false) (hrow : p.startRow ≤ 2047) (hrows : p.rowsM1 ≤ 2047) (htrain : p.trainRowsM1 ≤ 2047)
    (hnb : p.nb ≤ 65535) (hlist : p.list.length ≤ 1023) :
    Does (.eval c p) s [.ctl, .core, .herd, .busyRing, .fnTurn, .out] fun t => Fetched s t c ∧
      herdOf t h = some { x with eval := some ⟨.host c, p, 0, 0, 0, [], []⟩ } ∧ ∀ d ∈ x.sites, (coreX t d).evalAt = some (p.afterStep + 1) := by
  have hof : herdOf (fetched c s) h = some x := by rw [herdOf_fetched, hr.2.2.2.2.1]
  obtain ⟨a, ha⟩ : ∃ a, a = each x.sites fun c => setCore c (fun x => { x with evalAt := some (p.afterStep + 1) }) := ⟨_, rfl⟩
  have hcores : Within [.core] a := ha ▸ within_each fun c => within_setCore ..
  have hw : Within [.core, .herd] (seq [a, setHerd h (fun x => { x with eval := some ⟨.host c, p, 0, 0, 0, [], []⟩ })]) :=
    within_seq_cons (hcores.wider rfl) <| within_seq_cons ((within_setHerd ..).wider rfl) within_seq_nil
  refine does_begun hw (hw.keepsReg _) hs (act := actEval c p) rfl ?_ ?_
  · obtain ⟨-, hres, hready, hfn, -, -, -, hbusy, -⟩ := id hr
    rw [actEval, after_look, hfn, Option.any_some, hbusy, Bool.and_false, if_neg Bool.false_ne_true, after_hostCmd hready, hres,
      if_neg Bool.false_ne_true, after_ownHerd hr, after_look]
    dsimp only
    rw [herdMembers_fetched hr, if_pos List.isEmpty_nil, evalBody, after_look, hof]
    dsimp only
    rw [hparked, if_neg Bool.false_ne_true, if_neg (by omega), ha]
  · rw [after_seq_cons, after_seq_cons, after_seq_nil]
    refine ⟨herdOf_after_setHerd (by rw [hcores.herdOf, hof]) _, fun d hd => ?_⟩
    have hcore : (after (setHerd h fun x => { x with eval := some ⟨.host c, p, 0, 0, 0, [], []⟩ }) (after a (fetched c s))).core =
        (after a (fetched c s)).core := (within_setHerd ..).core _
    rw [coreX_of_core hcore, ha]
    refine after_each_sets (f := fun u => (coreX u d).evalAt) hd (fun u => ?_) (fun e _ => ?_) _
    · rw [after_setCore, coreX_core_same]
    · by_cases hde : d = e
      · refine .inl fun u => ?_
        rw [← hde, after_setCore, coreX_core_same]
      · exact .inr ⟨fun u => congrArg CoreX.evalAt (coreX_core_other _ hde _)⟩

end

/-! ## A fault that nobody resumes -/

theorem does_herdFaultTimeout {s : State} (hs : Ready s) {h : HerdNo} {x : Herd} {b : Nat} (hof : herdOf s h.val = some x)
    (hfault : x.faultBead = some b) (hb : b + 16384 ≤ (beadNo s).toNat) (hfailed : x.failed = false) :
    Does (.herdFaultTimeout h) s [.ctl, .core, .herd, .bx, .hcmd, .htag, .notices, .out] fun t => herdOf t h.val = some { x with failed := true } ∧
      ∀ f : FnNo, x.owner = some f → t.notices = s.notices ++ [⟨f, 1, h.val, 7, beadNo s, []⟩] := by
  have hbody : after (actHerdFaultTimeout h.val) s = after (failHerd h.val 7) s := by
    rw [actHerdFaultTimeout, after_look, hof, Option.bind_some, hfault]
    dsimp only
    rw [after_act, if_pos (decide_eq_true hb)]
  refine does_of_run hs.1 (a := actHerdFaultTimeout h.val) rfl ?_ ?_ <;> rw [hbody]
  · exact ((within_failHerd ..).wider rfl).onlyIn s
  · exact ⟨herdOf_after_failHerd hof hfailed 7, fun f hf => notices_after_failHerd hof hfailed hf 7⟩

end Sys2Proof.Machine
end

section
/-! Evaluation slots of a herd (R529 to R531); O48. -/

namespace Sys2Proof.Machine

-- One declaration after the other: elaborated side by side they take more memory than the check has.
set_option Elab.async false

/-! ## A rod image is loaded -/

theorem keepsReg_loadImage {y c : Nat} (hmem : y / 4096 * 4096 ∉ memPages) (h0 : y ≠ seqPage c + 0x1A0) (h4 : y ≠ seqPage c + 0x1A4)
    (h8 : y ≠ seqPage c + 0x1A8) (hist : y ≠ seqPage c + 0x20) (a n : Nat) : KeepsReg y (loadImage c a n) := by
  refine keeps_seq_cons (keepsReg_wr64 h0 (by omega) _) <| keeps_seq_cons (keepsReg_wr h8 _) <| keeps_seq_cons (keeps_look fun s => ?_) keeps_seq_nil
  exact keeps_seq_cons ((memWrites_urReadActs ..).keeps hmem) <|
    keeps_seq_cons ((within_each fun _ => within_rodPut ..).keepsReg y) <| keeps_seq_cons (keepsReg_wrBit h8 ..) <|
    keeps_seq_cons (keepsReg_wrBit h8 ..) <| keeps_seq_cons (keepsReg_setIst hist 11) keeps_seq_nil

theorem not_memPages_high {y : Nat} (h : 0x1000000 ≤ y) : y / 4096 * 4096 ∉ memPages := by
  have hmig : migPage 0 = 0x140000 := rfl
  exact not_memPages (by omega)

theorem not_memPages_bead {y : Nat} (h : y < 0x3108) : y / 4096 * 4096 ∉ memPages := not_memPages (by omega)

theorem keeps_beadNo_loadImage (c a n : Nat) : Keeps beadNo (loadImage c a n) := by
  have pc := pages_of_site c
  have hbead (y : Nat) (hy : y < 0x3108) : KeepsReg y (loadImage c a n) :=
    keepsReg_loadImage (not_memPages_bead hy) (by omega) (by omega) (by omega) (by omega) a n
  exact keeps_rd64 (hbead _ (by decide)) (hbead _ (by decide))

theorem keepsReg_loadImage_core {c d o : Nat} (h : d ≠ c ∨ o ≠ 0x11A0 ∧ o ≠ 0x11A4 ∧ o ≠ 0x11A8 ∧ o ≠ 0x1020) (ho : o < 0x10000) (a n : Nat) :
    KeepsReg (corePage d + o) (loadImage c a n) := by
  have pc := pages_of_site c
  have pd := pages_of_site d
  have hfar : d = c ∨ corePage c + 0x10000 ≤ corePage d ∨ corePage d + 0x10000 ≤ corePage c := by
    unfold corePage sitePage
    omega
  rcases hfar with rfl | hfar
  · exact keepsReg_loadImage (not_memPages_high (by omega)) (by omega) (by omega) (by omega) (by omega) a n
  · exact keepsReg_loadImage (not_memPages_high (by omega)) (by omega) (by omega) (by omega) (by omega) a n

/-! ## Cores that have halted are armed again -/

section
variable {s : State} {cs : List Nat} {b : DWord} (hnodup : cs.Nodup) (hstate : ∀ c ∈ cs, coreState s c = 7) (hb : (beadNo s).toNat < b.toNat)
  {f k : Nat → Act}
include hnodup hstate hb

/-- Halted cores, each after some work of its own that leaves its state and those of the others, are armed for a bead, and finish. -/
theorem after_each_prepared (hbead : ∀ c ∈ cs, Keeps beadNo (f c)) (hf : ∀ c ∈ cs, ∀ d ∈ cs, Keeps (fun u => coreState u d) (f c))
    (hkbead : ∀ c ∈ cs, Keeps beadNo (k c)) (hk : ∀ c ∈ cs, ∀ d ∈ cs, d ≠ c → Keeps (fun u => coreState u d) (k c)) :
    after (each cs fun c => seq [f c, wr64 (seqPage c + 0x110) b, armCore .ringCtl c, k c]) s =
      after (each cs fun c => seq [f c, armAt c b false false, k c]) s := by
  refine after_each_cores hnodup (fun c hc u hu hno => ?_) (fun c hc => ?_) (fun c hc d hd hne => ?_)
  · obtain ⟨v, hv⟩ : ∃ v, v = after (f c) u := ⟨_, rfl⟩
    have h7 : coreState v c = 7 := by rw [hv, (hf c hc c hc).eq, hu, hstate c hc]
    have hbv : (beadNo v).toNat < b.toNat := by rw [hv, (hbead c hc).eq, hno]; exact hb
    iterate 4 rw [after_seq_cons]
    rw [after_seq_nil, ← hv, after_wr64_armCore (by rw [h7]; rfl) hbv, h7]
    iterate 3 rw [after_seq_cons]
    rw [after_seq_nil, ← hv]
    rfl
  · exact keeps_seq_cons (hbead c hc) <| keeps_seq_cons (keeps_beadNo fun y hy _ _ => keepsReg_armAt_low hy ..) <|
      keeps_seq_cons (hkbead c hc) keeps_seq_nil
  · have pd := pages_of_site d
    exact keeps_seq_cons (hf c hc d hd) <| keeps_seq_cons (keeps_coreState (keepsReg_armAt_other hne (by omega) (by omega) ..)) <|
      keeps_seq_cons (hk c hc d hd hne) keeps_seq_nil

end

/-- A register of an armed core that arming it does not write. -/
theorem keepsReg_armAt {y c : Nat} (h0 : y ≠ seqPage c + 0x110) (h4 : y ≠ seqPage c + 0x114) (h1 : y ≠ corePage c + 0x104) (h2 : y ≠ seqPage c + 0x100)
    (h3 : y ≠ seqPage c + 0x104) (b : DWord) (paused f : Bool) : KeepsReg y (armAt c b paused f) :=
  keeps_seq_cons (keepsReg_wr64 h0 (by omega) _) <| keeps_seq_cons (keepsReg_armWith h1 h2 h3 ..) keeps_seq_nil

/-! ## EVAL_SWITCH -/

/-- A core's preparation for an evaluation: the image and the start row. -/
def toEvaluation (p : EvalParams) (c : Nat) : Act :=
  seq [loadImage c p.image.toNat (p.rowsM1 + 1), wrFld (seqPage c + 0x108) 10 0 p.startRow]

theorem keepsReg_toEvaluation {c d o : Nat} (p : EvalParams) (h : d ≠ c ∨ o ≠ 0x11A0 ∧ o ≠ 0x11A4 ∧ o ≠ 0x11A8 ∧ o ≠ 0x1020 ∧ o ≠ 0x1108)
    (ho : o < 0x10000) : KeepsReg (corePage d + o) (toEvaluation p c) := by
  have pc := pages_of_site c
  have hne : corePage d + o ≠ seqPage c + 0x108 := by
    unfold corePage sitePage at *
    omega
  exact keeps_seq_cons (keepsReg_loadImage_core (by omega) ho ..) <| keeps_seq_cons (keepsReg_wrFld hne ..) keeps_seq_nil

theorem keeps_beadNo_toEvaluation (p : EvalParams) (c : Nat) : Keeps beadNo (toEvaluation p c) := by
  have pc := pages_of_site c
  exact keeps_seq_cons (keeps_beadNo_loadImage ..) <| keeps_seq_cons (keeps_beadNo fun y hy _ _ => keepsReg_wrFld (by omega) ..) keeps_seq_nil

theorem keeps_coreState_toEvaluation (p : EvalParams) (c d : Nat) : Keeps (fun u => coreState u d) (toEvaluation p c) := by
  have pd := pages_of_site d
  have hkeep : KeepsReg (corePage d + 0x1104) (toEvaluation p c) := keepsReg_toEvaluation p (.inr (by decide)) (by decide)
  have hreg : seqPage d + 0x104 = corePage d + 0x1104 := by omega
  exact keeps_coreState (by rw [hreg]; exact hkeep)

/-- What an evaluation's start leaves in a core. -/
theorem evaluating (p : EvalParams) (hrow : p.startRow ≤ 2047) (b : DWord) {cs : List Nat} {d : Nat} (hd : d ∈ cs) (s : State) :
    let t := after (each cs fun c => seq [toEvaluation p c, armAt c b false false, nop]) s
    coreState t d = 2 ∧ startBead t d = b ∧ fld (rd t (seqPage d + 0x108)) 10 0 = p.startRow := by
  intro t
  have pd := pages_of_site d
  have hreg (y o : Nat) (hy : y = corePage d + o) (ho : o < 0x10000) (c : Nat) (hc : d ≠ c) :
      KeepsReg y (seq [toEvaluation p c, armAt c b false false, nop]) :=
    hy ▸ keeps_seq_cons (keepsReg_toEvaluation p (.inl hc) ho) (keeps_seq_cons (keepsReg_armAt_other hc (by omega) (by omega) ..)
      (keeps_seq_cons (keeps_nop) keeps_seq_nil))
  have hsets {β : Type} {q : State → β} {v : β} (hown : ∀ u, q (after (seq [toEvaluation p d, armAt d b false false, nop]) u) = v)
      (hother : ∀ c, d ≠ c → Keeps q (seq [toEvaluation p c, armAt c b false false, nop])) : q t = v := by
    refine after_each_sets hd hown (fun c _ => ?_) s
    by_cases hc : d = c
    · exact .inl (hc ▸ hown)
    · exact .inr (hother c hc)
  refine ⟨hsets (q := fun u => coreState u d) (fun u => ?_) fun c hc => keeps_coreState (hreg _ 0x1104 (by omega) (by decide) c hc),
    hsets (q := fun u => startBead u d) (fun u => ?_) fun c hc =>
      keeps_startBead (hreg _ 0x1110 (by omega) (by decide) c hc) (hreg _ 0x1114 (by omega) (by decide) c hc),
    hsets (q := fun u => fld (rd u (seqPage d + 0x108)) 10 0) (fun u => ?_) fun c hc =>
      ⟨fun u => congrArg (fld · 10 0) ((hreg _ 0x1108 (by omega) (by decide) c hc).eq u)⟩⟩
  · rw [after_seq_cons, after_seq_cons, after_seq_cons, after_seq_nil, after_nop, coreState_after_armAt]
  · rw [after_seq_cons, after_seq_cons, after_seq_cons, after_seq_nil, after_nop, startBead_after_armAt]
  · rw [after_seq_cons, after_seq_cons, after_seq_cons, after_seq_nil, after_nop,
      (keepsReg_armAt (by omega) (by omega) (by omega) (by omega) (by omega) ..).eq, toEvaluation, after_seq_cons, after_seq_cons, after_seq_nil,
      after_wrFld, rd_ctl_same, fld_setFld _ (by decide) (by decide)]
    exact Nat.mod_eq_of_lt (by omega)

/-- The evaluation slot of a herd that has been switched: what was saved of its cores. -/
def evaluation (s : State) (x : Herd) (e : EvalCtx) (y : Herd) : EvalCtx :=
  { e with phase := 1, startBead := (beadNo s + 2).toNat, haltBead := (y.stepBeads.head?).getD 0,
           saved := x.sites.flatMap (fun c => (contextWords c).map (fun w => (w, rd s w))),
           savedX := y.sites.map (fun c => (c, (coreX s c).mirror)) }

/-- Four acts in their order, the first two as one. -/
theorem after_seq_pair (a b c d : Act) (s : State) : after (seq [a, b, c, d]) s = after (seq [seq [a, b], c, d, nop]) s := by
  simp only [after_seq_cons, after_seq_nil, after_nop]

theorem toNat_two_ahead {b : DWord} (h : b.toNat + 2 < 2 ^ 64) : (b + 2).toNat = b.toNat + 2 := by
  rw [BitVec.toNat_add]
  exact Nat.mod_eq_of_lt h

section
variable {s : State} (hs : Ready s) {h : HerdNo} {x : Herd} {e : EvalCtx} (hof : herdOf s h.val = some x) (heval : x.eval = some e)
  (hnodup : x.sites.Nodup) (hcores : ∀ c ∈ x.sites, c < 1024 ∧ coreState s c = 7) (hmax : (beadNo s).toNat + 2 < 2 ^ 64)
include hs hof heval hnodup hcores hmax

theorem does_evalSwitch (hphase : e.phase = 0) (hlist : e.params.list = []) (hrow : e.params.startRow ≤ 2047)
    (hmoves : imageMoves s h.val e.params.image.toNat (e.params.rowsM1 + 1) = false)
    (hcode : ∀ c ∈ x.sites, fld (rd s (seqPage c + 0x104)) 23 16 = 0xFE) :
    Does (.evalSwitch h) s [.ctl, .rod, .rodBad, .core, .mem, .chk, .mergeBuf, .touched, .herd, .dumpRun, .freeCtr, .out] fun t =>
      (∃ y d, herdOf t h.val = some y ∧ y.eval = some d ∧ d.phase = 1 ∧
        d.saved = x.sites.flatMap (fun c => (contextWords c).map (fun w => (w, rd s w)))) ∧
      ∀ c ∈ x.sites, coreState t c = 2 ∧ startBead t c = beadNo s + 2 ∧ fld (rd t (seqPage c + 0x108)) 10 0 = e.params.startRow := by
  have hall : x.sites.all (fun c => decide (coreState s c = 7) && decide (fld (rd s (seqPage c + 0x104)) 23 16 = 0xFE)) = true :=
    List.all_eq_true.mpr fun c hc => by rw [decide_eq_true (hcores c hc).2, decide_eq_true (hcode c hc), Bool.and_self]
  obtain ⟨u, hu⟩ : ∃ u, u = after (setHerd h.val fun y => { y with eval := some (evaluation s x e y) }) s := ⟨_, rfl⟩
  have hctl : u.ctl = s.ctl := by rw [hu, (within_setHerd ..).ctl]
  have hrd (y : Nat) : rd u y = rd s y := by rw [rd, rd, hctl]
  have hbead : beadNo u = beadNo s := by rw [beadNo, beadNo, rd64, rd64, hrd, hrd]
  obtain ⟨a, ha⟩ : ∃ a, a = each x.sites fun c => seq [toEvaluation e.params c, armAt c (beadNo s + 2) false false, nop] := ⟨_, rfl⟩
  have hbody : after (actEvalSwitch h.val) s = after a u := by
    have hprep := after_each_prepared (s := u) (b := beadNo s + 2) (f := toEvaluation e.params) (k := fun _ => nop) hnodup
      (fun c hc => by rw [coreState, hrd, ← coreState, (hcores c hc).2]) (by rw [hbead, toNat_two_ahead hmax]; omega)
      (fun c _ => keeps_beadNo_toEvaluation ..) (fun c _ d _ => keeps_coreState_toEvaluation ..) (fun c _ => keeps_nop) (fun c _ d _ _ => keeps_nop)
    rw [actEvalSwitch, after_look, hof, Option.bind_some, heval, Option.map_some]
    dsimp only
    rw [if_neg (by rw [hphase, hall, hmoves]; decide), hlist, regwList, after_seq_cons, after_seq_cons, after_seq_cons, after_seq_nil, after_nop, ha, ← hprep, hu]
    exact after_each_eq (P := fun _ _ => True) (fun c _ v _ => ⟨after_seq_pair .., trivial⟩) x.sites _ trivial
  have hw : Within [.ctl, .rod, .rodBad, .core, .mem, .chk, .mergeBuf, .touched, .dumpRun, .freeCtr, .out] a :=
    ha ▸ within_each fun c => within_seq_cons (within_seq_cons ((within_loadImage ..).wider rfl) <| within_seq_cons ((within_wrFld ..).wider rfl) within_seq_nil) <|
      within_seq_cons ((within_armAt ..).wider rfl) <| within_seq_cons within_nop within_seq_nil
  refine does_of_run hs.1 (a := actEvalSwitch h.val) rfl ?_ ?_ <;> rw [hbody]
  · have h1 : OnlyIn [.herd] s u := hu ▸ (within_setHerd ..).onlyIn s
    exact (h1.wider rfl).trans ((hw.wider rfl).onlyIn u)
  · refine ⟨⟨{ x with eval := some (evaluation s x e x) }, evaluation s x e x, ?_, rfl, rfl, rfl⟩, fun c hc => ?_⟩
    · rw [hw.herdOf, hu]
      exact herdOf_after_setHerd hof _
    · rw [ha]
      exact evaluating e.params hrow (beadNo s + 2) hc u

/-! ## EVAL_RESTORE -/

/-- The training image, the saved words and the mirrors return. -/
def restoreContext (x : Herd) (e : EvalCtx) : Act :=
  seq [each x.sites (fun c => loadImage c e.params.trainImage.toNat (e.params.trainRowsM1 + 1)), each e.saved (fun p => wr p.1 p.2),
    each e.savedX (fun p => setCore p.1 (fun x => { x with mirror := p.2, figs := [] }))]

/-- The training program is armed. -/
def trainAgain (b : DWord) (c : Nat) : Act := seq [nop, armAt c b false false, setCore c (fun x => { x with armKind := 3 })]

omit hs hof heval hnodup hcores hmax in
theorem keeps_restoreContext {y : Nat} (hload : ∀ c, KeepsReg y (loadImage c e.params.trainImage.toNat (e.params.trainRowsM1 + 1)))
    (hsaved : ∀ p ∈ e.saved, y ≠ p.1) : KeepsReg y (restoreContext x e) :=
  keeps_seq_cons (keeps_each fun c _ => hload c) <| keeps_seq_cons (keeps_each fun p hp => keepsReg_wr (hsaved p hp) _) <|
    keeps_seq_cons ((within_each fun _ => within_setCore ..).keepsReg y) keeps_seq_nil

omit hs hof heval hnodup hcores hmax in
/-- Every saved word is back. -/
theorem rd_after_restoreContext (hkeys : (e.saved.map (·.1)).Nodup) {p : Nat × Word} (hp : p ∈ e.saved) (s : State) :
    rd (after (restoreContext x e) s) p.1 = p.2 := by
  rw [restoreContext, after_seq_cons, after_seq_cons, after_seq_cons, after_seq_nil, ((within_each fun _ => within_setCore ..).keepsReg _).eq]
  refine after_each_sets (f := (rd · p.1)) hp (fun u => by rw [after_wr, rd_ctl_same]) (fun q hq => ?_) _
  by_cases hqp : q.1 = p.1
  · have heq : q = p := List.inj_on_of_nodup_map hkeys hq hp hqp
    exact .inl fun u => by rw [heq, after_wr, rd_ctl_same]
  · exact .inr (keepsReg_wr (Ne.symm hqp) _)

omit hs hof heval hnodup hcores hmax in
theorem trained (b : DWord) {cs : List Nat} {d : Nat} (hd : d ∈ cs) (s : State) : let t := after (each cs (trainAgain b)) s
    coreState t d = 2 ∧ startBead t d = b ∧ (coreX t d).armKind = 3 := by
  intro t
  have pd := pages_of_site d
  have hreg (y o : Nat) (hy : y = corePage d + o) (ho : o < 0x10000) (c : Nat) (hc : d ≠ c) : KeepsReg y (trainAgain b c) :=
    hy ▸ keeps_seq_cons (keeps_nop) (keeps_seq_cons (keepsReg_armAt_other hc (by omega) (by omega) ..)
      (keeps_seq_cons ((within_setCore ..).keepsReg _) keeps_seq_nil))
  have hsets {β : Type} {q : State → β} {v : β} (hown : ∀ u, q (after (trainAgain b d) u) = v) (hother : ∀ c, d ≠ c → Keeps q (trainAgain b c)) :
      q t = v := by
    refine after_each_sets hd hown (fun c _ => ?_) s
    by_cases hc : d = c
    · exact .inl (hc ▸ hown)
    · exact .inr (hother c hc)
  have hfar (c : Nat) (hc : d ≠ c) : Keeps (fun u => coreX u d) (trainAgain b c) := by
    refine keeps_seq_cons (keeps_nop) (keeps_seq_cons (keeps_seq_cons ⟨fun u => coreX_of_core ((within_wr64 ..).core u) d⟩ (keeps_seq_cons ?_ keeps_seq_nil))
      (keeps_seq_cons ⟨fun u => coreX_core_other _ hc _⟩ keeps_seq_nil))
    refine keeps_seq_cons (keeps_act fun hf => nomatch hf) ?_
    refine keeps_seq_cons ⟨fun u => coreX_of_core ((within_wrBit ..).core u) d⟩ <| keeps_seq_cons ⟨fun u => coreX_of_core ((within_wrBit ..).core u) d⟩ <|
      keeps_seq_cons ⟨fun u => coreX_of_core ((within_setCoreState ..).core u) d⟩ <| keeps_seq_cons ⟨fun u => coreX_core_other _ hc _⟩ keeps_seq_nil
  refine ⟨hsets (q := fun u => coreState u d) (fun u => ?_) fun c hc => keeps_coreState (hreg _ 0x1104 (by omega) (by decide) c hc),
    hsets (q := fun u => startBead u d) (fun u => ?_) fun c hc =>
      keeps_startBead (hreg _ 0x1110 (by omega) (by decide) c hc) (hreg _ 0x1114 (by omega) (by decide) c hc),
    hsets (q := fun u => (coreX u d).armKind) (fun u => ?_) fun c hc => ⟨fun u => congrArg CoreX.armKind ((hfar c hc).eq u)⟩⟩ <;>
    rw [trainAgain, after_seq_cons, after_seq_cons, after_seq_cons, after_seq_nil, after_nop]
  · rw [coreState, ((within_setCore ..).keepsReg _).eq, ← coreState, coreState_after_armAt]
  · rw [startBead, rd64, ((within_setCore ..).keepsReg _).eq, ((within_setCore ..).keepsReg _).eq, ← rd64, ← startBead, startBead_after_armAt]
  · rw [after_setCore, coreX_core_same]

omit hs hof heval hnodup hcores hmax in
theorem keepsReg_trainAgain {y c : Nat} (h0 : y ≠ seqPage c + 0x110) (h4 : y ≠ seqPage c + 0x114) (h1 : y ≠ corePage c + 0x104) (h2 : y ≠ seqPage c + 0x100)
    (h3 : y ≠ seqPage c + 0x104) (b : DWord) : KeepsReg y (trainAgain b c) :=
  keeps_seq_cons (keeps_nop) <| keeps_seq_cons (keepsReg_armAt h0 h4 h1 h2 h3 ..) <| keeps_seq_cons ((within_setCore ..).keepsReg y) keeps_seq_nil

theorem does_evalRestore {c : CmdId} (hphase : e.phase = 1 ∨ e.phase = 2) (hcmd : e.cmd = .host c)
    (hmoves : imageMoves s h.val e.params.trainImage.toNat (e.params.trainRowsM1 + 1) = false)
    (hsaved : ∀ p ∈ e.saved, 0x1000000 ≤ p.1 ∧ ∀ c, p.1 ≠ seqPage c + 0x104) (hkeys : (e.saved.map (·.1)).Nodup) :
    Does (.evalRestore h) s [.ctl, .rod, .rodBad, .core, .mem, .chk, .mergeBuf, .touched, .herd, .completions, .dumpRun, .freeCtr, .out] fun t =>
      herdOf t h.val = some { x with eval := none } ∧
      (∀ p ∈ e.saved, (∀ c, p.1 ≠ seqPage c + 0x100 ∧ p.1 ≠ seqPage c + 0x110 ∧ p.1 ≠ seqPage c + 0x114 ∧ p.1 ≠ corePage c + 0x104) → rd t p.1 = p.2) ∧
      (∀ c ∈ x.sites, coreState t c = 2 ∧ startBead t c = beadNo s + 2 ∧ (coreX t c).armKind = 3) ∧
      t.completions = s.completions ++ [⟨c.fn, c.ring, c.tag, 0,
        BitVec.ofNat 64 (((beadNo s).toNat + 2 - e.haltBead) % 65536 + 65536 * b2n (decide (e.phase = 2)))⟩] := by
  have hall : x.sites.all (fun c => decide (coreState s c = 7)) = true := List.all_eq_true.mpr fun c hc => decide_eq_true (hcores c hc).2
  obtain ⟨u, hu⟩ : ∃ u, u = after (restoreContext x e) s := ⟨_, rfl⟩
  have hstate (d : Nat) : coreState u d = coreState s d := by
    have pd := pages_of_site d
    have hreg : seqPage d + 0x104 = corePage d + 0x1104 := by omega
    rw [hu]
    refine (keeps_coreState (keeps_restoreContext (fun c => ?_) fun p hp => ((hsaved p hp).2 d).symm)).eq s
    rw [hreg]
    exact keepsReg_loadImage_core (.inr (by decide)) (by decide) ..
  have hbead : beadNo u = beadNo s := by
    rw [hu]
    refine (keeps_beadNo fun y hy _ hy' => keeps_restoreContext (fun c => ?_) fun p hp => ?_).eq s
    · have pc := pages_of_site c
      exact keepsReg_loadImage (not_memPages_bead hy') (by omega) (by omega) (by omega) (by omega) ..
    · have := (hsaved p hp).1
      omega
  obtain ⟨v, hv⟩ : ∃ v, v = after (each x.sites (trainAgain (beadNo s + 2))) u := ⟨_, rfl⟩
  obtain ⟨w, hw⟩ : ∃ w, w = after (setHerd h.val fun x => { x with eval := none }) v := ⟨_, rfl⟩
  obtain ⟨r, hr⟩ : ∃ r, r = BitVec.ofNat 64 (((beadNo s).toNat + 2 - e.haltBead) % 65536 + 65536 * b2n (decide (e.phase = 2))) := ⟨_, rfl⟩
  have hbody : after (actEvalRestore h.val) s = after (complete c 0 r) w := by
    have hprep := after_each_prepared (s := u) (b := beadNo s + 2) (f := fun _ => nop) (k := fun c => setCore c (fun x => { x with armKind := 3 })) hnodup
      (fun c hc => by rw [hstate, (hcores c hc).2]) (by rw [hbead, toNat_two_ahead hmax]; omega)
      (fun c _ => keeps_nop) (fun c _ d _ => keeps_nop) (fun c _ => keeps_beadNo fun y _ _ _ => (within_setCore ..).keepsReg y)
      (fun c _ d _ _ => keeps_coreState ((within_setCore ..).keepsReg _))
    have harm : after (each x.sites fun c => seq [wr64 (seqPage c + 0x110) (beadNo s + 2), armCore .ringCtl c,
        setCore c (fun x => { x with armKind := 3 })]) u = v := by
      rw [hv]
      refine Eq.trans ?_ hprep
      refine after_each_eq (P := fun _ _ => True) (fun c _ v _ => ⟨?_, trivial⟩) x.sites u trivial
      rw [after_seq_cons nop, after_nop]
    rw [actEvalRestore, after_look, hof, Option.bind_some, heval, Option.map_some]
    dsimp only
    rw [if_neg (by omega), hall, if_neg (by decide), hmoves, if_neg Bool.false_ne_true, hcmd, toNat_two_ahead hmax, ← hr]
    iterate 6 rw [after_seq_cons]
    rw [after_seq_nil]
    have hu' : after (each e.savedX (fun p => setCore p.1 (fun x => { x with mirror := p.2, figs := [] }))) (after (each e.saved (fun p => wr p.1 p.2))
        (after (each x.sites (fun c => loadImage c e.params.trainImage.toNat (e.params.trainRowsM1 + 1))) s)) = u := by
      rw [hu, restoreContext, after_seq_cons, after_seq_cons, after_seq_cons, after_seq_nil]
    rw [hu', harm, ← hw]
    rfl
  have hctx : Within [.ctl, .rod, .rodBad, .core, .mem, .chk, .mergeBuf, .touched, .dumpRun, .freeCtr, .out] (restoreContext x e) :=
    within_seq_cons (within_each fun _ => (within_loadImage ..).wider rfl) <| within_seq_cons (within_each fun _ => (within_wr ..).wider rfl) <|
      within_seq_cons (within_each fun _ => (within_setCore ..).wider rfl) within_seq_nil
  have htrain : Within [.ctl, .core] (each x.sites (trainAgain (beadNo s + 2))) := within_each fun c =>
    within_seq_cons within_nop <| within_seq_cons (within_armAt ..) <| within_seq_cons ((within_setCore ..).wider rfl) within_seq_nil
  have hset : OnlyIn [.herd] v w := hw ▸ (within_setHerd ..).onlyIn v
  obtain ⟨t, ht⟩ : ∃ t, t = after (complete c 0 r) w := ⟨_, rfl⟩
  have hend : OnlyIn [.completions] w t := ht ▸ onlyIn_complete c 0 r w
  refine does_of_run hs.1 (a := actEvalRestore h.val) rfl ?_ ?_ <;> rw [hbody, ← ht]
  · have h1 : OnlyIn [.ctl, .rod, .rodBad, .core, .mem, .chk, .mergeBuf, .touched, .dumpRun, .freeCtr, .out] s u := hu ▸ hctx.onlyIn s
    have h2 : OnlyIn [.ctl, .core] u v := hv ▸ htrain.onlyIn u
    exact (((h1.wider rfl).trans (h2.wider rfl)).trans (hset.wider rfl)).trans (hend.wider rfl)
  · have hctl : t.ctl = v.ctl := by
      have h1 : t.ctl = w.ctl := hend .ctl rfl
      have h2 : w.ctl = v.ctl := hset .ctl rfl
      rw [h1, h2]
    have hcore : t.core = v.core := by
      have h1 : t.core = w.core := hend .core rfl
      have h2 : w.core = v.core := hset .core rfl
      rw [h1, h2]
    have hrd (y : Nat) : rd t y = rd v y := by rw [rd, rd, hctl]
    refine ⟨?_, fun p hp hfree => ?_, fun d hd => ?_, ?_⟩
    · have hherd : t.herd = w.herd := hend .herd rfl
      rw [herdOf, hherd, ← herdOf, hw]
      exact herdOf_after_setHerd (by rw [hv, htrain.herdOf, hu, hctx.herdOf, hof]) _
    · rw [hrd, hv, (keeps_each fun d _ => keepsReg_trainAgain (hfree d).2.1 (hfree d).2.2.1 (hfree d).2.2.2 (hfree d).1 ((hsaved p hp).2 d) _).eq, hu]
      exact rd_after_restoreContext hkeys hp s
    · obtain ⟨h1, h2, h3⟩ := trained (beadNo s + 2) hd u
      rw [← hv] at h1 h2 h3
      refine ⟨?_, ?_, ?_⟩
      · rw [coreState, hrd, ← coreState, h1]
      · rw [startBead, rd64, hrd, hrd, ← rd64, ← startBead, h2]
      · rw [coreX_of_core hcore, h3]
    · have hcomp : w.completions = s.completions := by
        have h2 : w.completions = v.completions := hset .completions rfl
        rw [h2, hv, htrain.completions, hu, hctx.completions]
      rw [ht, completions_after_complete, hcomp, hr]
      rfl

end

/-- Settles O48: each command of a herd does its work on what it fetched (`does_worked`); cores start, stop and resume one by one (`after_each_cores`). -/
theorem herdsWork : Obligations.HerdsWork :=
  ⟨⟨fun _ hs _ _ _ hr hlow =>
    ⟨fun _ _ h4 h12 ha => does_herdRings hs hr h4 h12 ha,
      fun _ _ hparked hd hwide hoff hen h131 hrst hfence =>
        does_herdRegw hs hr hparked hd (hlow _ (List.mem_of_getElem? hd)) hwide hoff hen h131 hrst hfence,
      fun _ hparked hlen => does_herdRegw_beyond hs hr hparked hlen,
      fun _ setidx idx _ hparked h2 hmax hb hnodup h131 => does_herdStart hs hr setidx idx hparked h2 hmax hb hnodup h131,
      does_herdStop hs hr,
      fun _ _ hparked h2 hmax hb h8 => does_herdResume hs hr hparked h2 hmax hb h8,
      fun _ _ _ _ hfirst hend h256 hread _ hdesc => does_progLoad hs hr hfirst hend h256 hread hdesc,
      fun _ _ _ _ hbase hpos hmax hk hfree => does_extReg hs hr hbase hpos hmax hk hfree,
      fun _ _ he hherd hmoves hhomed => does_extDereg hs hr he hherd hmoves hhomed,
      fun _ hrun ha => does_dump hs hr hrun ha,
      fun _ hparked hrow hrows htrain hnb hlist => does_eval hs hr hparked hrow hrows htrain hnb hlist⟩,
    fun _ hs _ _ _ hof hfault hb hfailed => does_herdFaultTimeout hs hof hfault hb hfailed⟩,
    fun _ hs _ _ _ hof heval hnodup hcores hmax =>
      ⟨fun hphase hlist hrow _ hmoves hcode => does_evalSwitch hs hof heval hnodup hcores hmax hphase hlist hrow hmoves hcode,
        fun _ hphase hcmd hmoves hsaved hkeys => does_evalRestore hs hof heval hnodup hcores hmax hphase hcmd hmoves hsaved hkeys⟩⟩

end Sys2Proof.Machine
end

section
/-! The home table of an error-free device as it is changed entry by entry (R353, R362, R366). -/

namespace Sys2Proof.Machine

-- One declaration after the other: elaborated side by side they take more memory than the check has.
set_option Elab.async false

/-! ## Counting registers of the migration engine -/

theorem keepsReg_bump {x a : Nat} (h : x ≠ a) (d : Int) : KeepsReg x (bump a d) := keeps_look fun _ => keepsReg_wr h _

theorem rd_after_bump (a : Nat) (d : Int) (s : State) : rd (after (bump a d) s) a = BitVec.ofInt 32 ((rd s a).toNat + d) := by
  rw [bump, after_look, after_wr, rd_ctl_same]

/-- The registers of MIG_FREE and of the level that follows it. -/
def FreeReg (x : Nat) : Prop := x = migPage 0 + 0x108 ∨ x = migPage 0 + 0x20 ∨ x = migPage 0 + 0x2C

theorem keepsReg_bumpFree {x : Nat} (h : ¬ FreeReg x) (d : Int) : KeepsReg x (bumpFree d) := by
  unfold FreeReg at h
  exact keeps_seq_cons (keepsReg_bump (by omega) d) <| keeps_seq_cons (keepsReg_freeLevel (by omega) (by omega)) keeps_seq_nil

theorem freeFrames_after_bumpFree (d : Int) (s : State) : rd (after (bumpFree d) s) (migPage 0 + 0x108) = BitVec.ofInt 32 (freeFrames s + d) := by
  rw [bumpFree, after_seq_cons, after_seq_cons, after_seq_nil, (keepsReg_freeLevel (by decide) (by decide)).eq, rd_after_bump, freeFrames]

theorem keepsReg_chargeDevice {x h : Nat} (h8 : x ≠ migHerd h + 8) (h12 : x ≠ migHerd h + 12) (pinned : Bool) (d : Int) :
    KeepsReg x (chargeDevice h pinned d) :=
  keeps_seq_cons (keepsReg_bump h8 d) <| keeps_seq_cons (keeps_act fun _ => keepsReg_bump h12 d) keeps_seq_nil

theorem keepsReg_setMigStat {x : Nat} (h : x ≠ migPage 0 + 0x110) : KeepsReg x setMigStat :=
  keeps_look fun _ => keeps_seq_cons (keepsReg_wrFld h ..) <| keeps_seq_cons (keepsReg_wrBit h ..) keeps_seq_nil

/-! ## Acts aside from the table -/

theorem SameTable.refl (s : State) : SameTable s s := ⟨fun _ _ _ _ => rfl, rfl, rfl, rfl, rfl⟩

theorem SameTable.trans {s t u : State} (h : SameTable s t) (g : SameTable t u) : SameTable s u :=
  ⟨fun n hn x hx => (g.regs n hn x hx).trans (h.regs n hn x hx), g.straps.trans h.straps, g.mem.trans h.mem, g.chk.trans h.chk,
    g.mergeBuf.trans h.mergeBuf⟩

theorem portReg_below {n x : Nat} (hn : n < 24) (h : PortReg n x) : x < 0x118000 := by
  obtain ⟨o, rfl, ho⟩ := h
  unfold mpPage
  omega

/-- An act beside the memory and the registers of its ports leaves the table as it reads. -/
theorem sameTable_act {ps : List Part} {a : Act} (hw : Within ps a) (hr : ∀ x, x < 0x118000 → KeepsReg x a) (s : State)
    (hmem : ps.contains .mem = false := by rfl) (hchk : ps.contains .chk = false := by rfl) (hbuf : ps.contains .mergeBuf = false := by rfl)
    (hstraps : ps.contains .straps = false := by rfl) : SameTable s (after a s) :=
  ⟨fun _ hn x hx => (hr x (portReg_below hn hx)).eq s, hw.straps s hstraps, hw.memory s hmem, hw.chk s hchk, hw.mergeBuf s hbuf⟩

/-- `sameTable_act` for acts that write no register. -/
theorem sameTable_aside {ps : List Part} {a : Act} (hw : Within ps a) (s : State) (hctl : ps.contains .ctl = false := by rfl)
    (hmem : ps.contains .mem = false := by rfl) (hchk : ps.contains .chk = false := by rfl) (hbuf : ps.contains .mergeBuf = false := by rfl)
    (hstraps : ps.contains .straps = false := by rfl) : SameTable s (after a s) :=
  sameTable_act hw (fun x _ => hw.keepsReg x hctl) s hmem hchk hbuf hstraps

theorem sameTable_bumpFree (d : Int) (s : State) : SameTable s (after (bumpFree d) s) :=
  sameTable_act (within_bumpFree d) (fun x hx => keepsReg_bumpFree (by
    have hm : migPage 0 = 0x140000 := rfl
    unfold FreeReg
    omega) d) s

theorem sameTable_chargeDevice (h : Nat) (pinned : Bool) (d : Int) (s : State) : SameTable s (after (chargeDevice h pinned d) s) := by
  have hm : migPage 1 = 0x141000 := rfl
  refine sameTable_act (within_chargeDevice h pinned d) (fun x hx => keepsReg_chargeDevice ?_ ?_ pinned d) s <;>
    unfold migHerd <;> omega

theorem sameTable_setMigStat (s : State) : SameTable s (after setMigStat s) :=
  sameTable_act within_setMigStat (fun x hx => keepsReg_setMigStat (by
    have hm : migPage 0 = 0x140000 := rfl
    omega)) s

/-! ## A frame is zeroed -/

/-- Bytes outside a frame and outside the spares of its blocks stay as the frame is zeroed. -/
theorem memByte_after_zeroFrame {s : State} {f x : Nat} (hx : x / 65536 ≠ f) (hspare : ∀ e ∈ frameRemaps (after (zeroOwn f) s) f,
    x / 64 ≠ spareBlk (after (zeroOwn f) s) (f % 24) e) : memByte (after (zeroFrame f) s) x = memByte s x := by
  rw [after_zeroFrame]
  refine after_each_keeps (P := fun u => memByte u x = memByte s x) _ _ (fun e he u hu => ?_) _ ?_
  · rw [memByte_after_zeroSpare, if_neg (hspare e he), hu]
  · rw [memByte_after_zeroOwn, if_neg hx]

/-- The frame itself is zero. -/
theorem memByte_zeroed {s : State} (h : Plain s) {f x : Nat} (hx : x / 65536 = f) : memByte (after (zeroFrame f) s) x = 0 := by
  have hown := zeroing_zeroOwn h f
  have hzero : memByte (after (zeroOwn f) s) x = 0 := by rw [memByte_after_zeroOwn, if_pos hx]
  rw [after_zeroFrame]
  exact (zeroing_zeroSpares _ f (fun e he => frameRemaps_lt he) hown.plain).zero hzero

section
variable {s : State} (h : Plain s) {f : Nat} (hf : f < rsvBase s)
include h hf

/-- Where a block of another frame is held, zeroing a usable frame changes nothing. -/
theorem memByte_after_zeroFrame_held {b x : Nat} (hb : Unspared s b) (hne : b / 1024 ≠ f) (hx : x / 64 = heldAt s b) :
    memByte (after (zeroFrame f) s) x = memByte s x := by
  have hown := (zeroing_zeroOwn h f).hold
  have hown64 (e : Nat) (he : e ∈ frameRemaps (after (zeroOwn f) s) f) : e < 64 ∧ fld (rd s (remapReg (f % 24) e)) 29 0 / 1024 = f / 24 := by
    rw [hown.frameRemaps, frameRemaps, List.mem_filter, List.mem_range, Bool.and_eq_true, decide_eq_true_eq] at he
    exact ⟨he.1, he.2.2⟩
  have hsp (e : Nat) : spareBlk (after (zeroOwn f) s) (f % 24) e = spareBlk s (f % 24) e := spareBlk_of_straps hown.straps ..
  have hframe : x / 65536 = x / 64 / 1024 := by omega
  rcases heldAt_cases s b with hown' | ⟨k, hk, hheld, -, hname⟩
  · refine memByte_after_zeroFrame (by rw [hframe, hx, hown']; exact hne) fun e he => ?_
    have := hb (f % 24) (Nat.mod_lt _ (by decide))
    rw [hsp, hx, hown']
    intro heq
    rw [heq, spareBlk_div s _ (hown64 e he).1] at this
    exact this rfl
  · have hrepl : x / 64 / 1024 = replFrame s (blkPort b) := by rw [hx, hheld, spareBlk_div s _ hk]
    refine memByte_after_zeroFrame (by unfold replFrame at hrepl; omega) fun e he => ?_
    obtain ⟨he64, hl⟩ := hown64 e he
    rw [hsp, hx, hheld]
    intro heq
    have hp : blkPort b = f % 24 := by
      rw [← spareBlk_port (s := s) (blkPort_lt b) hk, heq, spareBlk_port (Nat.mod_lt _ (by decide)) he64]
    rw [hp] at heq hname
    have hek : e = k := by
      unfold spareBlk at heq
      omega
    rw [hek, hname] at hl
    unfold blkLocal at hl
    unfold blkPort at hp
    omega

theorem homeEntry_after_zeroFrame {p : Nat} (hp : p < 2 ^ 26) : homeEntry (after (zeroFrame f) s) p = homeEntry s p := by
  have hz := zeroing_zeroFrame h f
  have hbase : homeBase s = 65536 * rsvBase s := rfl
  rw [hz.plain.homeEntry, hz.hold.entryAt, h.homeEntry]
  refine memWord_congr fun i hi => memByte_after_zeroFrame_held h hf (unspared_table s hp) ?_ ?_
  · omega
  · unfold entryAt
    omega

end

/-! ## The table as a function of the page -/

/-- The device is free of errors, its reserved region begins at frame n, and the table reads as g. -/
structure TableIs (t : State) (n : Nat) (g : Nat → DWord) : Prop where
  plain : Plain t
  base : rsvBase t = n
  entry : ∀ p < 2 ^ 26, homeEntry t p = g p

theorem tableIs_self {s : State} (h : Plain s) : TableIs s (rsvBase s) (homeEntry s) := ⟨h, rfl, fun _ _ => rfl⟩

theorem Plain.sameTable {s t : State} (h : Plain s) (hst : SameTable s t) : Plain t :=
  ⟨hst.chk.trans h.chk, hst.mergeBuf.trans h.mergeBuf, fun b => by rw [(hst.reading b).poisoned, h.clean]⟩

section
variable {t : State} {n : Nat} {g : Nat → DWord} (h : TableIs t n g)
include h

theorem TableIs.aside {u : State} (hu : SameTable t u) : TableIs u n g :=
  ⟨h.plain.sameTable hu, hu.hold.rsvBase.trans h.base, fun p hp => (hu.homeEntry p).trans (h.entry p hp)⟩

theorem TableIs.set {p : Nat} (hp : p < 2 ^ 26) (e : DWord) : TableIs (after (setEntry p e) t) n (Function.update g p e) := by
  refine ⟨h.plain.setEntry p e, (sameHold_setEntry h.plain p e).rsvBase.trans h.base, fun q hq => ?_⟩
  by_cases hqp : q = p
  · rw [hqp, Function.update_self, homeEntry_after_setEntry h.plain]
  · rw [Function.update_of_ne hqp, homeEntry_after_setEntry_other h.plain hp hq hqp, h.entry q hq]

theorem TableIs.zero {f : Nat} (hf : f < n) : TableIs (after (zeroFrame f) t) n g := by
  have hz := zeroing_zeroFrame h.plain f
  exact ⟨hz.plain, hz.hold.rsvBase.trans h.base, fun p hp => by rw [homeEntry_after_zeroFrame h.plain (by rw [h.base]; exact hf) hp, h.entry p hp]⟩

theorem TableIs.congr {g' : Nat → DWord} (hg : ∀ p < 2 ^ 26, g p = g' p) : TableIs t n g' :=
  ⟨h.plain, h.base, fun p hp => (h.entry p hp).trans (hg p hp)⟩

omit h in
/-- Page by page, each act at a page that the others leave. -/
theorem tableIs_each {Q : State → Prop} {act : Nat → Act} {f : Nat → DWord} {ps : List Nat} (hps : ps.Nodup)
    (hstep : ∀ p ∈ ps, ∀ u g', TableIs u n g' → g' p = g p → Q u → TableIs (after (act p) u) n (Function.update g' p (f p)) ∧ Q (after (act p) u))
    (h : TableIs t n g) (hq : Q t) : TableIs (after (each ps act) t) n (fun p => if p ∈ ps then f p else g p) ∧ Q (after (each ps act) t) := by
  induction ps generalizing t g with
  | nil => exact ⟨h.congr fun p _ => rfl, hq⟩
  | cons p ps ih =>
    obtain ⟨hnot, hps⟩ := List.nodup_cons.mp hps
    obtain ⟨h1, q1⟩ := hstep p (List.mem_cons_self ..) t g h rfl hq
    rw [after_each_cons]
    obtain ⟨h2, q2⟩ := ih (g := Function.update g p (f p)) hps (fun q hq u g' hu hg' hQ => hstep q (List.mem_cons_of_mem _ hq) u g' hu (by
      have hne : q ≠ p := fun he => hnot (by rw [← he]; exact hq)
      rw [hg', Function.update_of_ne hne]) hQ) h1 q1
    refine ⟨h2.congr fun q _ => ?_, q2⟩
    by_cases hqp : q = p
    · rw [hqp, if_neg hnot, if_pos (List.mem_cons_self ..), Function.update_self]
    · by_cases hqs : q ∈ ps
      · rw [if_pos hqs, if_pos (List.mem_cons_of_mem _ hqs)]
      · rw [if_neg hqs, if_neg (fun hc => (List.mem_cons.mp hc).elim hqp hqs), Function.update_of_ne hqp]

end

/-! ## Requests of the migration engine (R366, R514) -/

/-- Reading entries of an error-free table does nothing. -/
theorem after_entryReads {s : State} (h : Plain s) (ps : List Nat) (herd : Nat) : after (each ps fun p => entryRead p herd) s = s :=
  after_each_keeps (P := fun u => u = s) ps _ (fun p _ u hu => by rw [hu, after_entryRead_clean (h.entryClean p)]) s rfl

section
variable {s : State} (h : Plain s) {c : CmdId} {herd : Nat} {reads : List Nat} {refused : Nat → Act} {body : MigReq}
include h

theorem after_migServe_refused (hb : body herd s = none) (hr : after (refused herd) s = s) :
    after (migServe (.host c) herd true reads refused body) s = after (complete c 8 0) s := by
  rw [migServe, if_neg (by decide), after_seq_cons, after_entryReads h, after_seq_cons, after_seq_nil, after_look, hb]
  dsimp only
  rw [after_seq_cons, hr, after_seq_cons, after_seq_nil]
  rfl

theorem after_migServe_done {x : Act} {n : Nat} (hb : body herd s = some (x, n)) (hasked : askedMoves (after x s) herd = 0) :
    after (migServe (.host c) herd true reads refused body) s = after (complete c 0 (BitVec.ofNat 64 n)) (after x s) := by
  rw [migServe, if_neg (by decide), after_seq_cons, after_entryReads h, after_seq_cons, after_seq_nil, after_look, hb]
  dsimp only
  rw [after_seq_cons, after_seq_cons, after_seq_nil, after_look, if_pos hasked]
  rfl

end

theorem askedMoves_of_moves {s t : State} (h : t.moves = s.moves) (herd : Nat) : askedMoves t herd = askedMoves s herd := by
  rw [askedMoves, askedMoves, h]

theorem askedMoves_nil {s : State} (h : s.moves = []) (herd : Nat) : askedMoves s herd = 0 := by rw [askedMoves, h]; rfl

section
variable {s : State} (hs : Ready s) {c : CmdId} {h : Nat} {x : Herd} (hr : CommandRuns s c h x)
include hs hr

omit hr in
/-- A command that is fetched at once, works and is answered, its work given by what it leaves. -/
theorem does_served {cmd : Instr} {act a : Act} (hc : exec cmd s = run act s) {status : Nat} {result : DWord}
    (hb : after act s = after (complete c status result) (after a (fetched c s))) {ps qs : List Part}
    (honly : OnlyIn ps (fetched c s) (after a (fetched c s))) (hptr : rd (after a (fetched c s)) (ptrReg c) = rd (fetched c s) (ptrReg c))
    {P : State → Prop} (hP : ∀ t, OnlyIn [.completions] (after a (fetched c s)) t → P t)
    (hcov : covers qs ps = true := by rfl) (hend : covers qs endParts = true := by rfl) (hbusy : ps.contains .busyRing = false := by rfl)
    (hturn : ps.contains .fnTurn = false := by rfl) (hcomp : ps.contains .completions = false := by rfl) :
    Does cmd s qs fun t => Answered s t c status result ∧ P t := by
  have hdone : OnlyIn [.completions] (after a (fetched c s)) (after (complete c status result) (after a (fetched c s))) :=
    onlyIn_complete c status result _
  have hqueue : (after a (fetched c s)).completions = s.completions := by
    have h1 : (after a (fetched c s)).completions = (fetched c s).completions := honly .completions hcomp
    rw [h1, completions_fetched]
  refine does_of_run hs.1 hc ?_ ?_ <;> rw [hb]
  · have h1 : OnlyIn qs s (fetched c s) := (onlyIn_fetched c s).wider (covers_trans hend rfl)
    exact (h1.trans (honly.wider hcov)).trans (hdone.wider (covers_trans hend rfl))
  · exact ⟨answered_of (Fetched.of_act honly hptr hbusy hturn) hqueue status result, hP _ hdone⟩

omit hs in
theorem after_migRequest {failedToo inRange : Bool} {w0 page n : Nat} {reads : List Nat} {refused : Nat → Act} {body : MigReq} :
    after (migRequest c failedToo w0 page n inRange reads refused body) s =
      after (migServe (.host c) h inRange reads refused body) (fetched c s) := by
  rw [migRequest, after_herdCmd hr]

/-- A request that its herd may not make is refused whole. -/
theorem does_migRefused {cmd : Instr} {failedToo inRange : Bool} {w0 page n : Nat} {reads : List Nat} {refused : Nat → Act} {body : MigReq}
    (hc : exec cmd s = run (migRequest c failedToo w0 page n inRange reads refused body) s) (hin : inRange = true) (hp : Plain s)
    (hb : body h (fetched c s) = none) (hno : after (refused h) (fetched c s) = fetched c s) :
    Does cmd s [.ctl, .busyRing, .completions, .fnTurn, .out] fun t => Answered s t c 8 0 := by
  refine does_refused hr hs hc ?_
  rw [hin]
  exact after_migServe_refused (hp.sameTable (sameSpace_fetched c s).table) hb hno

end

end Sys2Proof.Machine
end

section
/-! Pages are allocated, freed, pinned and protected (R366, R367, R372, R373, R514); O34. -/

namespace Sys2Proof.Machine

-- One declaration after the other: elaborated side by side they take more memory than the check has.
set_option Elab.async false

/-! ## Registers outside the pages of the memory ports -/

/-- Register x lies in no page of a memory port. -/
def Beside (x : Nat) : Prop := x / 4096 * 4096 ∉ (List.range 24).map mpPage

theorem beside_of {x : Nat} (h : x < 0x100000 ∨ 0x118000 ≤ x) : Beside x := by
  intro hx
  obtain ⟨n, hn, he⟩ := List.mem_map.mp hx
  have := List.mem_range.mp hn
  unfold mpPage at he
  omega

theorem rd_after_setEntry_beside {s : State} (h : Plain s) {x : Nat} (hx : Beside x) (p : Nat) (e : DWord) : rd (after (setEntry p e) s) x = rd s x :=
  rd_after_setEntry h p e (.inr hx)

theorem keepsReg_zeroFrame {x : Nat} (hx : Beside x) (f : Nat) : KeepsReg x (zeroFrame f) := ⟨fun s => by
  rw [after_zeroFrame]
  refine ((keeps_each fun e he => keepsReg_zeroSpare _ f e ?_).eq _).trans ((keepsReg_zeroOwn f (.inr hx)).eq s)
  have he := frameRemaps_lt he
  have hpage : mpPage (f % 24) % 4096 = 0 := mpPage_mod _
  intro hxe
  refine hx (List.mem_map.mpr ⟨f % 24, List.mem_range.mpr (Nat.mod_lt _ (by decide)), ?_⟩)
  rw [hxe, remapReg]
  omega⟩

theorem beside_ptrReg (c : CmdId) : Beside (ptrReg c) := beside_of (.inr (by
  have := ptrReg_pos c
  omega))

theorem beside_migHerd (h o : Nat) : Beside (migHerd h + o) := beside_of (.inr (by
  have hm : migPage 1 = 0x141000 := rfl
  unfold migHerd
  omega))

theorem beside_free : Beside (migPage 0 + 0x108) := beside_of (.inr (by decide))

theorem ptrReg_ne_mig (c : CmdId) (x : Nat) (hx : x < 0x180000) : ptrReg c ≠ x := by
  have := ptrReg_pos c
  omega

theorem migHerd_lt {h : Nat} (hh : h < 64) : migHerd h + 0x20 ≤ 0x142000 ∧ 0x141200 ≤ migHerd h := by
  have hm : migPage 1 = 0x141000 := rfl
  unfold migHerd
  omega

/-! ## ALLOC -/

/-- An act given by its updates in a state does there what the act does. -/
theorem after_const (a : Act) (s : State) : after (fun _ => a s) s = after a s := rfl

/-- A page of device memory is placed anew: its entry, its frame zeroed, and the accounts. -/
def placeDevice (page f h : Nat) (e : DWord) : Act := seq [setEntry page e, zeroFrame f, bumpFree (-1), chargeDevice h false 1]

theorem placeNew_device {s : State} {p h n f : Nat} {wr : Bool} (hroom : quotaRoom s h = true) (hfree : freeFrame s n = some f) :
    placeNew p h (some n) wr false s = some (placeDevice p f h (mkEntry false false wr h f (touchNow s)) s) := by
  rw [placeNew]
  dsimp only
  rw [if_pos hroom, Option.bind_some]
  exact congrArg (Option.map _) hfree

theorem migAlloc_one {s : State} {page port f h : Nat} {wr : Bool} (hinvalid : eValid (homeEntry s page) = false) (hroom : quotaRoom s h = true)
    (hfree : freeFrame s port = some f) : migAlloc page 1 1 port wr false h s =
      some ((fun _ => placeDevice page f h (mkEntry false false wr h f (touchNow s)) s), 1) := by
  have hrun : runPages page 1 = [page] := rfl
  have hdest : runDests page 1 1 port = [(page, some port)] := rfl
  rw [migAlloc, hrun, hdest, List.any_cons, hinvalid, List.any_nil, Bool.false_and, Bool.false_and, Bool.or_self, Bool.or_self, if_neg Bool.false_ne_true, placeAll, placeNew_device hroom hfree, Option.bind_some, placeAll,
    Option.map_some, List.append_nil]
  rfl

section
variable {s : State} {n : Nat} {g : Nat → DWord} (ht : TableIs s n g) {page f h : Nat} (hpage : page < 2 ^ 26) (hf : f < n) (hh : h < 64) (e : DWord)
include ht

theorem onlyIn_placeDevice : OnlyIn [.ctl, .mem, .chk, .mergeBuf] s (after (placeDevice page f h e) s) := by
  rw [placeDevice]
  iterate 4 rw [after_seq_cons]
  rw [after_seq_nil]
  have h1 : OnlyIn [.ctl, .mem] s (after (setEntry page e) s) := onlyIn_setEntry ht.plain page e
  exact (((h1.wider rfl).trans ((within_zeroFrame f).onlyIn _)).trans (((within_bumpFree (-1)).wider rfl).onlyIn _)).trans
    (((within_chargeDevice h false 1).wider rfl).onlyIn _)

/-- A placement writes no register beside those of the accounts. -/
theorem rd_after_placeDevice {x : Nat} (hx : Beside x) (hfree : ¬ FreeReg x) (h8 : x ≠ migHerd h + 8) (h12 : x ≠ migHerd h + 12) :
    rd (after (placeDevice page f h e) s) x = rd s x := by
  rw [placeDevice]
  iterate 4 rw [after_seq_cons]
  rw [after_seq_nil, (keepsReg_chargeDevice h8 h12 _ _).eq, (keepsReg_bumpFree hfree _).eq, (keepsReg_zeroFrame hx f).eq,
    rd_after_setEntry_beside ht.plain hx]

include hpage hf hh

theorem placed_placeDevice : TableIs (after (placeDevice page f h e) s) n (Function.update g page e) ∧
    (∀ a, a / 65536 = f → memByte (after (placeDevice page f h e) s) a = 0) ∧
    rd (after (placeDevice page f h e) s) (migHerd h + 8) = BitVec.ofInt 32 (usedOf s h + 1) ∧
    rd (after (placeDevice page f h e) s) (migPage 0 + 0x108) = BitVec.ofInt 32 (freeFrames s + -1) := by
  have hm := migHerd_lt hh
  have h0 : migPage 0 = 0x140000 := rfl
  have hnofree : ¬ FreeReg (migHerd h + 8) := by
    unfold FreeReg
    omega
  have hset := ht.set hpage e
  rw [placeDevice]
  iterate 4 rw [after_seq_cons]
  rw [after_seq_nil]
  refine ⟨((hset.zero hf).aside (sameTable_bumpFree (-1) _)).aside (sameTable_chargeDevice h false 1 _), fun a ha => ?_, ?_, ?_⟩
  · rw [memByte, (within_chargeDevice h false 1).memory, (within_bumpFree (-1)).memory, ← memByte]
    exact memByte_zeroed hset.plain ha
  · rw [chargeDevice, after_seq_cons, after_seq_cons, after_seq_nil, after_act, if_neg Bool.false_ne_true, rd_after_bump,
      (keepsReg_bumpFree hnofree _).eq, (keepsReg_zeroFrame (beside_migHerd h 8) f).eq, rd_after_setEntry_beside ht.plain (beside_migHerd h 8), usedOf]
  · rw [(keepsReg_chargeDevice (by omega) (by omega) _ _).eq, freeFrames_after_bumpFree, freeFrames, (keepsReg_zeroFrame beside_free f).eq,
      rd_after_setEntry_beside ht.plain beside_free, freeFrames]

end

/-! ## Reading the accounts and the moves -/

/-- What placements and requests read beside the table: the accounts of the herds, the bead, the moves. -/
structure SameAccounts (s t : State) : Prop where
  table : SameTable s t
  regs : ∀ x, x < 0x180000 → rd t x = rd s x
  moves : t.moves = s.moves

section
variable {s t : State} (h : SameAccounts s t)
include h

theorem SameAccounts.quotaRoom (herd : Nat) (hh : herd < 64) : quotaRoom t herd = quotaRoom s herd := by
  have hm := migHerd_lt hh
  have hin : comingIn t herd = comingIn s herd := by
    rw [comingIn, comingIn, h.moves]
    simp only [h.table.homeEntry]
  rw [Machine.quotaRoom, Machine.quotaRoom, usedOf, usedOf, quotaOf, quotaOf, hin, h.regs _ (by omega), h.regs _ (by omega)]

theorem SameAccounts.freeFrame (port : Nat) : freeFrame t port = freeFrame s port := by
  simp only [Machine.freeFrame, usedFrames, h.table.validPages, h.table.homeEntry, h.moves, h.table.hold.rsvBase]

theorem SameAccounts.touchNow : touchNow t = touchNow s := by
  simp only [Machine.touchNow, beadNo, rd64]
  rw [h.regs _ (by decide), h.regs _ (by decide)]

end

theorem sameAccounts_fetched (c : CmdId) (s : State) : SameAccounts s (fetched c s) :=
  ⟨(sameSpace_fetched c s).table, fun x hx => rd_fetched c s (Ne.symm (ptrReg_ne_mig c x hx)), onlyIn_fetched c s .moves rfl⟩

theorem ofInt_add_one (n : Nat) : (BitVec.ofInt 32 ((n : Int) + 1)).toNat = (n + 1) % 2 ^ 32 := by
  rw [BitVec.toNat_ofInt]
  omega

theorem ofInt_sub_one {n : Nat} (h0 : 0 < n) (h : n < 2 ^ 32) : (BitVec.ofInt 32 ((n : Int) + -1)).toNat = n - 1 := by
  rw [BitVec.toNat_ofInt]
  omega

section
variable {s : State} (hs : Ready s) {c : CmdId} {h : Nat} {x : Herd} (hr : CommandRuns s c h x)
include hs hr

theorem does_alloc {page port f : Nat} {wr : Bool} (hpage : page < 2 ^ 26) (hport : port < 24) (hinvalid : eValid (homeEntry s page) = false)
    (hroom : quotaRoom s h = true) (hfree : freeFrame s port = some f) (hasked : askedMoves s h = 0) (hp : Plain s) :
    Does (.alloc c page 1 1 port wr false) s [.ctl, .mem, .chk, .mergeBuf, .busyRing, .completions, .fnTurn, .out] fun t =>
      Answered s t c 0 1 ∧ homeEntry t page = mkEntry false false wr h f (touchNow s) ∧ OtherPages s t page ∧
      (∀ a, a / 65536 = f → memByte t a = 0) ∧ usedOf t h = (usedOf s h + 1) % 2 ^ 32 ∧
      (0 < freeFrames s → freeFrames t = freeFrames s - 1) := by
  obtain ⟨hh, -⟩ := id hr
  have hm := migHerd_lt hh
  have hacc := sameAccounts_fetched c s
  have htable : TableIs (fetched c s) (rsvBase s) (homeEntry s) := (tableIs_self hp).aside hacc.table
  have hf : f < rsvBase s := by
    have := List.find?_some hfree
    simp only [Bool.and_eq_true, decide_eq_true_eq] at this
    exact this.1
  obtain ⟨e, he⟩ : ∃ e, e = mkEntry false false wr h f (touchNow s) := ⟨_, rfl⟩
  obtain ⟨hplaced, hzero, hused, hcount⟩ := placed_placeDevice htable hpage hf hh e
  have honly := onlyIn_placeDevice htable (page := page) (f := f) (h := h) e
  have hmoves : (after (placeDevice page f h e) (fetched c s)).moves = s.moves := by
    have h1 : (after (placeDevice page f h e) (fetched c s)).moves = (fetched c s).moves := honly .moves rfl
    rw [h1, hacc.moves]
  have hin : runOk page 1 1 port = true := by
    simp [runOk]
    omega
  refine does_served hs (act := actAlloc c page 1 1 port wr false) (a := placeDevice page f h e) (status := 0) (result := 1) rfl ?_ honly ?_ fun t ht => ?_
  · have hbody := migAlloc_one (s := fetched c s) (page := page) (port := port) (wr := wr) (f := f) (h := h)
      (by rw [hacc.table.homeEntry, hinvalid]) (by rw [hacc.quotaRoom h hh, hroom]) (by rw [hacc.freeFrame, hfree])
    rw [hacc.touchNow, ← he] at hbody
    have hone : BitVec.ofNat 64 1 = (1 : DWord) := by decide
    rw [actAlloc, after_migRequest hr, hin, after_migServe_done htable.plain hbody, after_const, hone]
    · rw [after_const, askedMoves_of_moves hmoves, hasked]
  · refine rd_after_placeDevice htable e (beside_ptrReg c) ?_ (ptrReg_ne_mig c _ (by omega)) (ptrReg_ne_mig c _ (by omega))
    rintro (hx | hx | hx) <;> exact ptrReg_ne_mig c _ (by decide) hx
  · have htab : SameTable (after (placeDevice page f h e) (fetched c s)) t :=
      ⟨fun _ _ x _ => by rw [rd, show t.ctl = _ from ht .ctl rfl, ← rd], ht .straps rfl, ht .mem rfl, ht .chk rfl, ht .mergeBuf rfl⟩
    have hend := hplaced.aside htab
    have hctl : t.ctl = (after (placeDevice page f h e) (fetched c s)).ctl := ht .ctl rfl
    have hmem : t.mem = (after (placeDevice page f h e) (fetched c s)).mem := ht .mem rfl
    have hrd (x : Nat) : rd t x = rd (after (placeDevice page f h e) (fetched c s)) x := by rw [rd, rd, hctl]
    have hlt (x : Nat) : (rd s x).toNat < 2 ^ 32 := (rd s x).isLt
    refine ⟨by rw [hend.entry page hpage, Function.update_self, he], fun q hq hne => by rw [hend.entry q hq, Function.update_of_ne hne],
      fun a ha => by rw [memByte, hmem, ← memByte, hzero a ha], ?_, fun hpos => ?_⟩
    · rw [usedOf, hrd, hused, usedOf, hacc.regs _ (by omega)]
      exact ofInt_add_one _
    · rw [freeFrames, hrd, hcount, freeFrames, hacc.regs _ (by decide)]
      exact ofInt_sub_one hpos (hlt _)

theorem does_alloc_valid {page n port : Nat} {dest : Fin 4} {wr pinned : Bool} (hp : Plain s) (hok : runOk page n dest.val port = true)
    (hvalid : ∃ p ∈ runPages page n, eValid (homeEntry s p) = true) :
    Does (.alloc c page n dest port wr pinned) s [.ctl, .busyRing, .completions, .fnTurn, .out] fun t => Answered s t c 8 0 := by
  have hany : (runPages page n).any (fun p => eValid (homeEntry (fetched c s) p)) = true := by
    obtain ⟨p, hmem, hv⟩ := hvalid
    exact List.any_eq_true.mpr ⟨p, hmem, by rw [(sameSpace_fetched c s).table.homeEntry, hv]⟩
  refine does_migRefused hs hr (failedToo := false) rfl hok hp ?_ ?_
  · rw [migAlloc, hany, Bool.true_or, if_pos rfl]
  · rw [Machine.after, allocRefused, hany, Bool.true_or, if_pos rfl]
    rfl

theorem does_alloc_range {page n port : Nat} {dest : Fin 4} {wr pinned : Bool} (hok : runOk page n dest.val port = false) :
    Does (.alloc c page n dest port wr pinned) s [.ctl, .busyRing, .completions, .fnTurn, .out] fun t => Answered s t c 2 0 := by
  refine does_refused hr hs (failedToo := false) (op := 0x10) rfl ?_
  rw [hok, migServe, if_pos (by decide)]
  rfl

end

end Sys2Proof.Machine
end

section
/-! Runs of pages are freed, protected and pinned (R365 to R367, R372); O34. -/

namespace Sys2Proof.Machine

-- One declaration after the other: elaborated side by side they take more memory than the check has.
set_option Elab.async false

theorem beside_high {x : Nat} (hx : 0x180000 ≤ x) : Beside x := beside_of (.inr (by omega))

theorem eHerd_lt (e : DWord) : eHerd e < 64 := fld_lt e 55 50

theorem keepsReg_bumpFree_high {x : Nat} (hx : 0x180000 ≤ x) (d : Int) : KeepsReg x (bumpFree d) := by
  have h0 : migPage 0 = 0x140000 := rfl
  exact keepsReg_bumpFree (by unfold FreeReg; omega) d

theorem keepsReg_chargeDevice_high {x h : Nat} (hx : 0x180000 ≤ x) (hh : h < 64) (pinned : Bool) (d : Int) : KeepsReg x (chargeDevice h pinned d) := by
  have := migHerd_lt hh
  exact keepsReg_chargeDevice (by omega) (by omega) pinned d

/-! ## A page is freed -/

/-- What freeing a page may change. -/
abbrev freeParts : List Part := [.ctl, .core, .mem, .chk, .mergeBuf, .farMem, .extent, .touched]

theorem keepsReg_releaseHome_high {x : Nat} (hx : 0x180000 ≤ x) (e : DWord) : KeepsReg x (releaseHome e) := by
  rw [releaseHome]
  refine keeps_ite (fun _ => ?_) fun _ => ?_
  · exact keeps_seq_cons ((within_one rfl : Within [.farMem] (one (.farMemKeep _))).keepsReg x) <|
      keeps_seq_cons ((within_sweepExtent _).keepsReg x) keeps_seq_nil
  · exact keeps_seq_cons (keepsReg_zeroFrame (beside_high hx) _) <| keeps_seq_cons (keepsReg_bumpFree_high hx 1) keeps_seq_nil

section
variable {s : State} {n : Nat} {g : Nat → DWord} (ht : TableIs s n g)
include ht

theorem TableIs.release {e : DWord} (he : eFar e = false → eHome e < n) : TableIs (after (releaseHome e) s) n g := by
  rw [releaseHome, after_ite]
  split
  case isTrue hfar =>
    have hw : Within [.farMem, .extent] (seq [one (.farMemKeep (fun k => decide (k / 65536 ≠ 262144 * eExt e + eFarPage e))), sweepExtent (eExt e)]) :=
      within_seq_cons (within_one rfl) <| within_seq_cons ((within_sweepExtent _).wider rfl) within_seq_nil
    exact ht.aside (sameTable_aside hw s)
  case isFalse hfar =>
    rw [after_seq_cons, after_seq_cons, after_seq_nil]
    exact (ht.zero (he (Bool.eq_false_iff.mpr hfar))).aside (sameTable_bumpFree 1 _)

variable {p : Nat}

theorem onlyIn_freePage : OnlyIn freeParts s (after (freePage p) s) := by
  rw [freePage, after_look]
  dsimp only
  iterate 5 rw [after_seq_cons]
  rw [after_seq_nil]
  have h1 : OnlyIn [.ctl, .mem] s (after (setEntry p 0) s) := onlyIn_setEntry ht.plain p 0
  exact ((((h1.wider rfl).trans (((within_dropLines p).wider rfl).onlyIn _)).trans (((within_releaseHome _).wider rfl).onlyIn _)).trans
    (((within_act (within_chargeDevice ..)).wider rfl).onlyIn _)).trans ((within_one (ps := freeParts) rfl).onlyIn _)

theorem rd_after_freePage {x : Nat} (hx : 0x180000 ≤ x) : rd (after (freePage p) s) x = rd s x := by
  rw [freePage, after_look]
  dsimp only
  iterate 5 rw [after_seq_cons]
  rw [after_seq_nil, ((within_one rfl : Within [.touched] (one (.touched p none))).keepsReg x).eq,
    (keeps_act fun _ => keepsReg_chargeDevice_high hx (eHerd_lt _) _ _).eq, (keepsReg_releaseHome_high hx _).eq, ((within_dropLines p).keepsReg x).eq,
    rd_after_setEntry_beside ht.plain (beside_high hx)]

theorem TableIs.free (hp : p < 2 ^ 26) (hhome : eFar (g p) = false → eHome (g p) < n) : TableIs (after (freePage p) s) n (Function.update g p 0) := by
  have he : homeEntry s p = g p := ht.entry p hp
  rw [freePage, after_look]
  dsimp only
  iterate 5 rw [after_seq_cons]
  rw [after_seq_nil, he]
  have hset := (ht.set hp 0).aside (sameTable_aside (within_dropLines p) _)
  have hrel := hset.release (e := g p) hhome
  have hcharge (b : Bool) := hrel.aside (u := after (act b (chargeDevice (eHerd (g p)) (ePinned (g p)) (-1))) _) (by
    rw [after_act]
    split
    · exact sameTable_chargeDevice ..
    · exact SameTable.refl _)
  exact (hcharge _).aside (sameTable_aside (within_one rfl : Within [.touched] (one (.touched p none))) _)

end

/-! ## Runs of pages -/

theorem mem_runPages {page n p : Nat} : p ∈ runPages page n ↔ page ≤ p ∧ p < page + n := by
  rw [runPages, List.mem_map]
  constructor
  · rintro ⟨i, hi, rfl⟩
    have := List.mem_range.mp hi
    omega
  · rintro ⟨h1, h2⟩
    exact ⟨p - page, List.mem_range.mpr (by omega), by omega⟩

theorem nodup_runPages (page n : Nat) : (runPages page n).Nodup :=
  List.Nodup.map (fun a b h => by simpa using h) List.nodup_range

theorem pageValid_of_moves {s : State} (h : s.moves = []) (p : Nat) : pageValid s p = eValid (homeEntry s p) := by
  rw [pageValid, pendingFree, h, List.any_nil, Bool.not_false, Bool.and_true]

theorem pageShared_of_moves {s : State} (h : s.moves = []) (p : Nat) : pageShared s p = eShared (homeEntry s p) := by
  rw [pageShared, pendingShare, h]
  exact Bool.or_false _

theorem after_freePages {s : State} (h : s.moves = []) (ps : List Nat) : after (freePages ps) s =
    after (each (ps.filter (fun p => !eMoving (homeEntry (after (one (.moves [])) s) p))) freePage) (after (one (.moves [])) s) := by
  have hdrop : after (each ([] : List PageMove) fun m => dropMove m false) s = s := rfl
  rw [freePages, after_seq_cons, after_look, h, List.filter_nil, hdrop, after_seq_cons, after_look, h, List.map_nil, after_seq_cons, after_seq_nil, after_look]

section
variable {s : State} (hs : Ready s) {c : CmdId} {h : Nat} {x : Herd} (hr : CommandRuns s c h x)
include hs hr

omit hs hr in
theorem tableIs_fetched (hp : Plain s) (c : CmdId) : TableIs (fetched c s) (rsvBase s) (homeEntry s) :=
  (tableIs_self hp).aside (sameSpace_fetched c s).table

omit hs hr in
/-- The table reads on as a command completes. -/
theorem TableIs.completed {u t : State} {n : Nat} {g : Nat → DWord} (h : TableIs u n g) (ht : OnlyIn [.completions] u t) : TableIs t n g := by
  have hctl : t.ctl = u.ctl := ht .ctl rfl
  exact h.aside ⟨fun _ _ y _ => by rw [rd, hctl, ← rd], ht .straps rfl, ht .mem rfl, ht .chk rfl, ht .mergeBuf rfl⟩

variable {page n : Nat} (hmoves : s.moves = []) (hn : 1 ≤ n) (hmax : page + n ≤ 2 ^ 26) (hp : Plain s)
include hmoves hn hmax hp

omit hs hr hmoves hp in
theorem runOk_here : runOk page n 1 0 = true := by
  simp [runOk]
  omega

omit hs hr hn hmax hp in
theorem moves_fetched (c : CmdId) : (fetched c s).moves = [] := by
  have h1 : (fetched c s).moves = s.moves := onlyIn_fetched c s .moves rfl
  rw [h1, hmoves]

omit hs hr hmoves hn hp in
theorem lt_of_run {p : Nat} (hmem : p ∈ runPages page n) : p < 2 ^ 26 := by
  have := mem_runPages.mp hmem
  omega

theorem does_free (hall : ∀ p ∈ runPages page n, eValid (homeEntry s p) = true → eHerd (homeEntry s p) = h ∧ eShared (homeEntry s p) = false ∧
      eMoving (homeEntry s p) = false ∧ (eFar (homeEntry s p) = false → eHome (homeEntry s p) < rsvBase s)) :
    Does (.free c page n) s [.ctl, .core, .mem, .chk, .mergeBuf, .farMem, .extent, .moves, .touched, .busyRing, .completions, .fnTurn, .out] fun t =>
      Answered s t c 0 (BitVec.ofNat 64 ((runPages page n).filter (fun p => eValid (homeEntry s p))).length) ∧
      (∀ p ∈ runPages page n, eValid (homeEntry t p) = false) ∧
      ∀ q, q < 2 ^ 26 → q ∉ runPages page n → homeEntry t q = homeEntry s q := by
  have htable := tableIs_fetched hp c
  have hentry (p : Nat) : homeEntry (fetched c s) p = homeEntry s p := (sameSpace_fetched c s).table.homeEntry p
  have hmv := moves_fetched hmoves c
  obtain ⟨ps, hps⟩ : ∃ ps, ps = (runPages page n).filter (fun p => eValid (homeEntry s p)) := ⟨_, rfl⟩
  have hmem {p : Nat} : p ∈ ps ↔ p ∈ runPages page n ∧ eValid (homeEntry s p) = true := by rw [hps, List.mem_filter]
  have hbody : migFree page n h (fetched c s) = some (freePages ps, ps.length) := by
    have hfilter : (runPages page n).filter (pageValid (fetched c s)) = ps := by
      rw [hps]
      exact List.filter_congr fun p _ => by rw [pageValid_of_moves hmv, hentry]
    have hnone : ps.any (fun p => foreign (fetched c s) h p || pageShared (fetched c s) p) = false := List.any_eq_false.mpr fun p hin => by
      obtain ⟨hrun, hv⟩ := hmem.mp hin
      obtain ⟨hherd, hsh, -, -⟩ := hall p hrun hv
      rw [foreign, pageShared_of_moves hmv, hentry, hsh, hherd]
      simp
    rw [migFree, hfilter, hnone, if_neg Bool.false_ne_true]
  obtain ⟨u, hu⟩ : ∃ u, u = after (one (.moves [])) (fetched c s) := ⟨_, rfl⟩
  have hwu : Within [.moves] (one (.moves [])) := within_one rfl
  have hutab : TableIs u (rsvBase s) (homeEntry s) := hu ▸ htable.aside (sameTable_aside hwu _)
  have hwork : after (freePages ps) (fetched c s) = after (each ps freePage) u := by
    have hkeep : ps.filter (fun p => !eMoving (homeEntry u p)) = ps := List.filter_eq_self.mpr fun p hin => by
      obtain ⟨hrun, hv⟩ := hmem.mp hin
      obtain ⟨-, -, hmov, -⟩ := hall p hrun hv
      rw [hutab.entry p (lt_of_run hmax hrun), hmov]
      rfl
    rw [after_freePages hmv, ← hu, hkeep]
  obtain ⟨hend, honly, hhigh⟩ := tableIs_each (Q := fun v => OnlyIn freeParts u v ∧ ∀ y, 0x180000 ≤ y → rd v y = rd u y) (act := freePage) (f := fun _ => 0)
    (hps ▸ (nodup_runPages page n).filter _) (fun p hin v g' hv hg ⟨ho, hy⟩ => by
      obtain ⟨hrun, hvalid⟩ := hmem.mp hin
      obtain ⟨-, -, -, hhome⟩ := hall p hrun hvalid
      exact ⟨hv.free (lt_of_run hmax hrun) (by rw [hg]; exact hhome), ho.trans (onlyIn_freePage hv), fun y hhi => (rd_after_freePage hv hhi).trans (hy y hhi)⟩)
    hutab ⟨onlyIn_refl _ _, fun _ _ => rfl⟩
  rw [← hwork] at hend honly hhigh
  have hfirst : OnlyIn [.moves] (fetched c s) u := hu ▸ hwu.onlyIn _
  have hall' : OnlyIn (.moves :: freeParts) (fetched c s) (after (freePages ps) (fetched c s)) := (hfirst.wider rfl).trans (honly.wider rfl)
  have hmoves' : (after (freePages ps) (fetched c s)).moves = [] := by
    have h1 : (after (freePages ps) (fetched c s)).moves = u.moves := honly .moves rfl
    rw [h1, hu]
    rfl
  rw [← hps]
  refine does_served hs (act := actFree c page n) (a := freePages ps) rfl ?_ hall' ?_ fun t ht => ?_
  · rw [actFree, after_migRequest hr, runOk_here hn hmax, after_migServe_done htable.plain hbody (askedMoves_nil hmoves' h)]
  · have := ptrReg_pos c
    rw [hhigh _ (by omega), hu, (hwu.keepsReg _).eq]
  · have hdone := hend.completed ht
    refine ⟨fun p hrun => ?_, fun q hq hnot => ?_⟩
    · rw [hdone.entry p (lt_of_run hmax hrun)]
      by_cases hin : p ∈ ps
      · rw [if_pos hin]
        rfl
      · rw [if_neg hin]
        exact Bool.eq_false_iff.mpr fun hv => hin (hmem.mpr ⟨hrun, hv⟩)
    · rw [hdone.entry q hq, if_neg fun hin => hnot (hmem.mp hin).1]

/-! ## PROT -/

omit hs hr hn hmoves hmax in
/-- Rewriting entries one by one. -/
theorem entries_set {f : DWord → DWord} {ps : List Nat} (hps : ps.Nodup) (hlt : ∀ p ∈ ps, p < 2 ^ 26) :
    TableIs (after (each ps fun p => look fun s => setEntry p (f (homeEntry s p))) (fetched c s)) (rsvBase s)
      (fun p => if p ∈ ps then f (homeEntry s p) else homeEntry s p) ∧
    OnlyIn [.ctl, .mem] (fetched c s) (after (each ps fun p => look fun s => setEntry p (f (homeEntry s p))) (fetched c s)) ∧
    ∀ y, Beside y → rd (after (each ps fun p => look fun s => setEntry p (f (homeEntry s p))) (fetched c s)) y = rd (fetched c s) y := by
  refine tableIs_each (Q := fun v => OnlyIn [.ctl, .mem] (fetched c s) v ∧ ∀ y, Beside y → rd v y = rd (fetched c s) y)
    (f := fun p => f (homeEntry s p)) hps (fun p hin v g' hv hg ⟨ho, hy⟩ => ?_) (tableIs_fetched hp c) ⟨onlyIn_refl _ _, fun _ _ => rfl⟩
  have he : homeEntry v p = homeEntry s p := (hv.entry p (hlt p hin)).trans hg
  have hset : OnlyIn [.ctl, .mem] v (after (setEntry p (f (homeEntry s p))) v) := onlyIn_setEntry hv.plain p _
  rw [after_look, he]
  exact ⟨hv.set (hlt p hin) _, ho.trans hset, fun y hb => (rd_after_setEntry_beside hv.plain hb p _).trans (hy y hb)⟩

omit hs hr hn hmax hp in
/-- A request names the run's pages rightly. -/
theorem named_rightly (hall : ∀ p ∈ runPages page n, eValid (homeEntry s p) = true ∧ eHerd (homeEntry s p) = h ∧ eShared (homeEntry s p) = false) :
    (runPages page n).any (fun p => !pageValid (fetched c s) p || foreign (fetched c s) h p || pageShared (fetched c s) p) = false := by
  have hmv := moves_fetched hmoves c
  refine List.any_eq_false.mpr fun p hin => ?_
  obtain ⟨hv, hherd, hsh⟩ := hall p hin
  rw [pageValid_of_moves hmv, foreign, pageShared_of_moves hmv, (sameSpace_fetched c s).table.homeEntry, hsh, hherd, hv]
  simp

theorem does_prot (wr : Bool)
    (hall : ∀ p ∈ runPages page n, eValid (homeEntry s p) = true ∧ eHerd (homeEntry s p) = h ∧ eShared (homeEntry s p) = false) :
    Does (.prot c page n wr) s [.ctl, .mem, .busyRing, .completions, .fnTurn, .out] fun t =>
      Answered s t c 0 (BitVec.ofNat 64 ((runPages page n).filter (fun p => decide (eWr (homeEntry s p) ≠ wr))).length) ∧
      (∀ p ∈ runPages page n, homeEntry t p = Machine.setBit (homeEntry s p) 59 wr) ∧
      ∀ q, q < 2 ^ 26 → q ∉ runPages page n → homeEntry t q = homeEntry s q := by
  obtain ⟨ps, hps⟩ : ∃ ps, ps = (runPages page n).filter (fun p => decide (eWr (homeEntry s p) ≠ wr)) := ⟨_, rfl⟩
  have hmem {p : Nat} : p ∈ ps ↔ p ∈ runPages page n ∧ eWr (homeEntry s p) ≠ wr := by rw [hps, List.mem_filter, decide_eq_true_eq]
  obtain ⟨a, ha⟩ : ∃ a, a = each ps fun p => look fun s => setEntry p (Machine.setBit (homeEntry s p) 59 wr) := ⟨_, rfl⟩
  have hbody : migProt page n wr h (fetched c s) = some (a, ps.length) := by
    have hfilter : (runPages page n).filter (fun p => decide (eWr (homeEntry (fetched c s) p) ≠ wr)) = ps := by
      rw [hps]
      exact List.filter_congr fun p _ => by rw [(sameSpace_fetched c s).table.homeEntry]
    rw [migProt, named_rightly hmoves hall, if_neg Bool.false_ne_true, hfilter, ha]
  obtain ⟨hend, honly, hrd⟩ := entries_set (c := c) (f := (Machine.setBit · 59 wr)) hp (hps ▸ (nodup_runPages page n).filter _)
    fun p hin => lt_of_run hmax (hmem.mp hin).1
  rw [← ha] at hend honly hrd
  have hmoves' : (after a (fetched c s)).moves = [] := by
    have h1 : (after a (fetched c s)).moves = (fetched c s).moves := honly .moves rfl
    rw [h1, moves_fetched hmoves c]
  rw [← hps]
  refine does_served hs (act := actProt c page n wr) (a := a) rfl ?_ honly (hrd _ (beside_ptrReg c)) fun t ht => ?_
  · rw [actProt, after_migRequest hr, runOk_here hn hmax, after_migServe_done (tableIs_fetched hp c).plain hbody (askedMoves_nil hmoves' h)]
  · have hdone := hend.completed ht
    refine ⟨fun p hrun => ?_, fun q hq hnot => ?_⟩
    · rw [hdone.entry p (lt_of_run hmax hrun)]
      by_cases hw : eWr (homeEntry s p) = wr
      · rw [if_neg fun hin => (hmem.mp hin).2 hw, ← hw]
        exact (setBit_bit _ (by decide)).symm
      · rw [if_pos (hmem.mpr ⟨hrun, hw⟩)]
    · rw [hdone.entry q hq, if_neg fun hin => hnot (hmem.mp hin).1]

end

end Sys2Proof.Machine
end

section
/-! A page is pinned and unpinned, and requests for another herd's pages are refused (R366, R367, R372); O34. -/

namespace Sys2Proof.Machine

-- One declaration after the other: elaborated side by side they take more memory than the check has.
set_option Elab.async false

/-- A page's pinned bit is set or cleared, and the herd's count of pinned frames follows. -/
def repin (page h : Nat) (e : DWord) (d : Int) : Act := seq [setEntry page e, bump (migHerd h + 12) d]

section
variable {s : State} {n : Nat} {g : Nat → DWord} (ht : TableIs s n g) {page h : Nat} (hh : h < 64) (e : DWord) (d : Int)
include ht

theorem onlyIn_repin : OnlyIn [.ctl, .mem] s (after (repin page h e d) s) := by
  rw [repin, after_seq_cons, after_seq_cons, after_seq_nil]
  have h1 : OnlyIn [.ctl, .mem] s (after (setEntry page e) s) := onlyIn_setEntry ht.plain page e
  exact h1.trans (((within_bump ..).wider rfl).onlyIn _)

theorem pinnedOf_after_repin : rd (after (repin page h e d) s) (migHerd h + 12) = BitVec.ofInt 32 (pinnedOf s h + d) := by
  rw [repin, after_seq_cons, after_seq_cons, after_seq_nil, rd_after_bump, rd_after_setEntry_beside ht.plain (beside_migHerd h 12), pinnedOf]

include hh

theorem rd_after_repin {x : Nat} (hx : 0x180000 ≤ x) : rd (after (repin page h e d) s) x = rd s x := by
  have := migHerd_lt hh
  rw [repin, after_seq_cons, after_seq_cons, after_seq_nil, (keepsReg_bump (by omega) d).eq, rd_after_setEntry_beside ht.plain (beside_high hx)]

theorem tableIs_repin (hp : page < 2 ^ 26) : TableIs (after (repin page h e d) s) n (Function.update g page e) := by
  have hm := migHerd_lt hh
  rw [repin, after_seq_cons, after_seq_cons, after_seq_nil]
  exact (ht.set hp e).aside (sameTable_act (within_bump ..) (fun x hx => keepsReg_bump (by omega) d) _)

end

section
variable {s : State} (hs : Ready s) {c : CmdId} {h : Nat} {x : Herd} (hr : CommandRuns s c h x) {page : Nat} (hmoves : s.moves = [])
  (hmax : page + 1 ≤ 2 ^ 26) (hp : Plain s) (hvalid : eValid (homeEntry s page) = true) (hherd : eHerd (homeEntry s page) = h)
  (hshared : eShared (homeEntry s page) = false)
include hs hr hmoves hmax hp hvalid hherd hshared

omit hs hr hmoves hmax hp hvalid hherd hshared in
theorem runPages_one (page : Nat) : runPages page 1 = [page] := rfl

omit hs hr hmax hp in
theorem named_rightly_one :
    (runPages page 1).any (fun p => !pageValid (fetched c s) p || foreign (fetched c s) h p || pageShared (fetched c s) p) = false :=
  named_rightly hmoves fun p hin => by
    rw [runPages_one, List.mem_singleton] at hin
    rw [hin]
    exact ⟨hvalid, hherd, hshared⟩

theorem does_pin (hfar : eFar (homeEntry s page) = false) (hmoving : eMoving (homeEntry s page) = false) (hpinned : ePinned (homeEntry s page) = false)
    (hfloor : pinnedOf s h < floorOf s h) :
    Does (.pin c page 1) s [.ctl, .mem, .busyRing, .completions, .fnTurn, .out] fun t => Answered s t c 0 1 ∧
      homeEntry t page = Machine.setBit (homeEntry s page) 60 true ∧ OtherPages s t page ∧ pinnedOf t h = pinnedOf s h + 1 := by
  obtain ⟨hh, -⟩ := id hr
  have hm := migHerd_lt hh
  have hacc := sameAccounts_fetched c s
  have htable := tableIs_fetched hp c
  have hentry : homeEntry (fetched c s) page = homeEntry s page := hacc.table.homeEntry page
  obtain ⟨e, he⟩ : ∃ e, e = Machine.setBit (homeEntry s page) 60 true := ⟨_, rfl⟩
  have hpass : passesFloor (fetched c s) h [page] = false := by
    have hdue : pinsDue (fetched c s) h = [] := by
      rw [pinsDue, moves_fetched hmoves c]
      rfl
    rw [passesFloor, hdue, pinnedOf, floorOf, hacc.regs _ (by omega), hacc.regs _ (by omega)]
    rw [pinnedOf, floorOf] at hfloor
    simp
    omega
  obtain ⟨a, ha⟩ : ∃ a, a = seq [each [page] fun p => look fun s =>
      let e := homeEntry s p
      if eFar e || eMoving e then seq [askMove p h (some (freeAt s 0 % 24)) true true none, takeFree 1]
      else seq [Machine.setEntry p (Machine.setBit e 60 true), bump (migHerd h + 12) 1]] := ⟨_, rfl⟩
  have hbody : migPin page 1 h (fetched c s) = some (a, 1) := by
    have htodo : (runPages page 1).filter (fun p => !ePinned (homeEntry (fetched c s) p) || eFar (homeEntry (fetched c s) p)) = [page] := by
      rw [runPages_one, List.filter_cons, hentry, hpinned]
      rfl
    rw [migPin, named_rightly_one hmoves hvalid hherd hshared, htodo, hpass, if_neg (by decide), ha]
    rfl
  have hwork : after a (fetched c s) = after (repin page h e 1) (fetched c s) := by
    rw [ha, after_seq_cons, after_seq_nil, after_each_cons, after_look, hentry]
    dsimp only
    rw [hfar, hmoving, if_neg (by decide), ← he]
    rfl
  have honly := onlyIn_repin htable (page := page) (h := h) e 1
  have hmoves' : (after a (fetched c s)).moves = [] := by
    have h1 : (after (repin page h e 1) (fetched c s)).moves = (fetched c s).moves := honly .moves rfl
    rw [hwork, h1, moves_fetched hmoves c]
  refine does_served hs (act := actPin c page 1) (a := repin page h e 1) (status := 0) (result := 1) rfl ?_ honly
    (rd_after_repin htable hh e 1 (by have := ptrReg_pos c; omega)) fun t ht => ?_
  · have hone : BitVec.ofNat 64 1 = (1 : DWord) := by decide
    rw [actPin, after_migRequest hr, runOk_here (Nat.le_refl 1) hmax, after_migServe_done htable.plain hbody (askedMoves_nil hmoves' h), hwork, hone]
  · have hdone := (tableIs_repin htable hh e 1 (Nat.lt_of_succ_le hmax)).completed ht
    have hctl : t.ctl = (after (repin page h e 1) (fetched c s)).ctl := ht .ctl rfl
    refine ⟨by rw [hdone.entry page (by omega), Function.update_self, he], fun q hq hne => by rw [hdone.entry q hq, Function.update_of_ne hne], ?_⟩
    have hlt : (rd s (migHerd h + 4)).toNat < 2 ^ 32 := (rd s (migHerd h + 4)).isLt
    rw [pinnedOf, rd, hctl, ← rd, pinnedOf_after_repin htable, pinnedOf, hacc.regs _ (by omega), ofInt_add_one]
    rw [pinnedOf, floorOf] at hfloor
    exact Nat.mod_eq_of_lt (by omega)

theorem does_unpin (hfar : eFar (homeEntry s page) = false) (hpinned : ePinned (homeEntry s page) = true) (hpos : 0 < pinnedOf s h) :
    Does (.unpin c page 1) s [.ctl, .mem, .moves, .busyRing, .completions, .fnTurn, .out] fun t => Answered s t c 0 1 ∧
      homeEntry t page = Machine.setBit (homeEntry s page) 60 false ∧ OtherPages s t page ∧ pinnedOf t h = pinnedOf s h - 1 := by
  obtain ⟨hh, -⟩ := id hr
  have hm := migHerd_lt hh
  have hacc := sameAccounts_fetched c s
  have hentry : homeEntry (fetched c s) page = homeEntry s page := hacc.table.homeEntry page
  obtain ⟨e, he⟩ : ∃ e, e = Machine.setBit (homeEntry s page) 60 false := ⟨_, rfl⟩
  obtain ⟨u, hu⟩ : ∃ u, u = after (one (.moves [])) (fetched c s) := ⟨_, rfl⟩
  have hwu : Within [.moves] (one (.moves [])) := within_one rfl
  have htable : TableIs u (rsvBase s) (homeEntry s) := hu ▸ (tableIs_fetched hp c).aside (sameTable_aside hwu _)
  have hrd (y : Nat) : rd u y = rd (fetched c s) y := hu ▸ (hwu.keepsReg y).eq _
  obtain ⟨a, ha⟩ : ∃ a, a = seq [one (.moves []), each [page] fun p => look fun s =>
    seq [Machine.setEntry p (Machine.setBit (homeEntry s p) 60 false), act (!eFar (homeEntry s p)) (bump (migHerd h + 12) (-1))]] := ⟨_, rfl⟩
  have hbody : migUnpin page 1 h (fetched c s) = some (a, 1) := by
    have htodo : (runPages page 1).filter (fun p => ePinned (homeEntry (fetched c s) p)) = [page] := by
      rw [runPages_one, List.filter_cons, hentry, hpinned]
      rfl
    rw [migUnpin, named_rightly_one hmoves hvalid hherd hshared, htodo, if_neg (by decide), moves_fetched hmoves c, List.map_nil, ha]
    rfl
  have hwork : after a (fetched c s) = after (repin page h e (-1)) u := by
    rw [ha, after_seq_cons, after_seq_cons, after_seq_nil, ← hu, after_each_cons, after_look, htable.entry page (by omega), hfar, ← he]
    rfl
  have hstep := onlyIn_repin htable (page := page) (h := h) e (-1)
  have hfirst : OnlyIn [.moves] (fetched c s) u := hu ▸ hwu.onlyIn _
  have honly : OnlyIn [.ctl, .mem, .moves] (fetched c s) (after a (fetched c s)) := hwork ▸ (hfirst.wider rfl).trans (hstep.wider rfl)
  have hmoves' : (after a (fetched c s)).moves = [] := by
    have h1 : (after (repin page h e (-1)) u).moves = u.moves := hstep .moves rfl
    rw [hwork, h1, hu]
    rfl
  refine does_served hs (act := actUnpin c page 1) (a := a) (status := 0) (result := 1) rfl ?_ honly ?_ fun t ht => ?_
  · have hone : BitVec.ofNat 64 1 = (1 : DWord) := by decide
    rw [actUnpin, after_migRequest hr, runOk_here (Nat.le_refl 1) hmax, after_migServe_done (tableIs_fetched hp c).plain hbody (askedMoves_nil hmoves' h),
      hone]
  · rw [hwork, rd_after_repin htable hh e (-1) (by have := ptrReg_pos c; omega), hrd]
  · rw [hwork] at ht
    have hdone := (tableIs_repin htable hh e (-1) (Nat.lt_of_succ_le hmax)).completed ht
    have hctl : t.ctl = (after (repin page h e (-1)) u).ctl := ht .ctl rfl
    refine ⟨by rw [hdone.entry page (by omega), Function.update_self, he], fun q hq hne => by rw [hdone.entry q hq, Function.update_of_ne hne], ?_⟩
    have hlt : (rd s (migHerd h + 12)).toNat < 2 ^ 32 := (rd s (migHerd h + 12)).isLt
    rw [pinnedOf] at hpos
    rw [pinnedOf, rd, hctl, ← rd, pinnedOf_after_repin htable, pinnedOf, hrd, hacc.regs _ (by omega), ofInt_sub_one hpos hlt, pinnedOf]

end

/-! ## Pages of another herd -/

section
variable {s : State} (hs : Ready s) {c : CmdId} {h : Nat} {x : Herd} (hr : CommandRuns s c h x) {page n : Nat} (hmoves : s.moves = [])
  (hn : 1 ≤ n) (hmax : page + n ≤ 2 ^ 26) (hp : Plain s)
  (hforeign : ∃ p ∈ runPages page n, eValid (homeEntry s p) = true ∧ eHerd (homeEntry s p) ≠ h)
include hmoves hforeign

theorem named_wrongly : ∃ p ∈ runPages page n, pageValid (fetched c s) p = true ∧ foreign (fetched c s) h p = true := by
  obtain ⟨p, hin, hv, hne⟩ := hforeign
  refine ⟨p, hin, ?_, ?_⟩
  · rw [pageValid_of_moves (moves_fetched hmoves c), (sameSpace_fetched c s).table.homeEntry, hv]
  · rw [foreign, (sameSpace_fetched c s).table.homeEntry, hv, decide_eq_true hne]
    rfl

theorem any_named_wrongly :
    (runPages page n).any (fun p => !pageValid (fetched c s) p || foreign (fetched c s) h p || pageShared (fetched c s) p) = true := by
  obtain ⟨p, hin, -, hf⟩ := named_wrongly (c := c) hmoves hforeign
  exact List.any_eq_true.mpr ⟨p, hin, by rw [hf, Bool.or_true, Bool.true_or]⟩

include hs hr hn hmax hp

theorem does_foreign (wr : Bool) {dest : Fin 4} {port : Nat} (hdest : dest.val < 3) (hport : port < 24) :
    Does (.free c page n) s [.ctl, .busyRing, .completions, .fnTurn, .out] (fun t => Answered s t c 8 0) ∧
    Does (.pin c page n) s [.ctl, .busyRing, .completions, .fnTurn, .out] (fun t => Answered s t c 8 0) ∧
    Does (.unpin c page n) s [.ctl, .busyRing, .completions, .fnTurn, .out] (fun t => Answered s t c 8 0) ∧
    Does (.prot c page n wr) s [.ctl, .busyRing, .completions, .fnTurn, .out] (fun t => Answered s t c 8 0) ∧
    Does (.move c page n dest port) s [.ctl, .busyRing, .completions, .fnTurn, .out] (fun t => Answered s t c 8 0) := by
  have hall := any_named_wrongly (c := c) hmoves hforeign
  obtain ⟨p, hin, hv, hf⟩ := named_wrongly (c := c) hmoves hforeign
  have hok := runOk_here hn hmax
  refine ⟨does_migRefused hs hr rfl hok hp ?_ rfl, does_migRefused hs hr rfl hok hp ?_ rfl, does_migRefused hs hr rfl hok hp ?_ rfl,
    does_migRefused hs hr rfl hok hp ?_ rfl, does_migRefused hs hr rfl (by simp [runOk]; omega) hp ?_ rfl⟩
  · have hany : ((runPages page n).filter (pageValid (fetched c s))).any
        (fun p => foreign (fetched c s) h p || pageShared (fetched c s) p) = true :=
      List.any_eq_true.mpr ⟨p, List.mem_filter.mpr ⟨hin, hv⟩, by rw [hf, Bool.true_or]⟩
    rw [migFree, hany, if_pos rfl]
  · rw [migPin, hall, Bool.true_or, if_pos rfl]
  · rw [migUnpin, hall, if_pos rfl]
  · rw [migProt, hall, if_pos rfl]
  · have hany : (runDests page n dest.val port).any (fun q => !pageValid (fetched c s) q.1 || foreign (fetched c s) h q.1) = true := by
      obtain ⟨i, hi, hpi⟩ := List.mem_map.mp hin
      refine List.any_eq_true.mpr ⟨(page + i, destOf dest.val port i), List.mem_map.mpr ⟨i, hi, rfl⟩, ?_⟩
      rw [hpi, hf, Bool.or_true]
    rw [migMove, hany, Bool.true_or, if_pos rfl]

end

/-- Settles O34: each request's effect on the table is that of its entries one by one (`tableIs_each`). -/
theorem pagesAllocateAndChange : Obligations.PagesAllocateAndChange :=
  ⟨fun _ hs _ _ _ hr =>
    ⟨fun _ _ _ _ hpage hport hinvalid hroom hfree hasked he hm =>
      does_alloc hs hr hpage hport hinvalid hroom hfree hasked (plain_of_errorFree he hm),
      fun _ _ _ _ _ _ he hm hok hvalid => does_alloc_valid hs hr (plain_of_errorFree he hm) hok hvalid,
      fun _ _ _ _ _ _ hok => does_alloc_range hs hr hok⟩,
    fun _ hs _ _ _ page n hr hmoves hn hmax he hm => by
      have hp := plain_of_errorFree he hm
      refine ⟨fun hall => does_free hs hr hmoves hn hmax hp hall, fun wr hall => does_prot hs hr hmoves hn hmax hp wr hall, ?_, ?_,
        fun hforeign wr dest port hdest hport => does_foreign hs hr hmoves hn hmax hp hforeign wr hdest hport⟩
      · rintro rfl hvalid hherd hshared hfar hmoving hpinned hfloor
        exact does_pin hs hr hmoves hmax hp hvalid hherd hshared hfar hmoving hpinned hfloor
      · rintro rfl hvalid hherd hshared hfar hpinned hpos
        exact does_unpin hs hr hmoves hmax hp hvalid hherd hshared hfar hpinned hpos⟩

end Sys2Proof.Machine
end

section
/-! Share sets (R366, R368 to R370); O35. -/

namespace Sys2Proof.Machine

-- One declaration after the other: elaborated side by side they take more memory than the check has.
set_option Elab.async false

/-! ## Requests that read no entry -/

section
variable {s : State} {c : CmdId} {herd : Nat} {refused : Nat → Act} {body : MigReq}

theorem after_migServe_unread_refused (hb : body herd s = none) (hr : after (refused herd) s = s) :
    after (migServe (.host c) herd true [] refused body) s = after (complete c 8 0) s := by
  rw [migServe, if_neg (by decide), after_seq_cons, after_seq_cons, after_seq_nil, after_look]
  have hnone : after (each ([] : List Nat) fun p => entryRead p herd) s = s := rfl
  rw [hnone, hb]
  dsimp only
  rw [after_seq_cons, hr, after_seq_cons, after_seq_nil]
  rfl

theorem after_migServe_unread_done {x : Act} {n : Nat} (hb : body herd s = some (x, n)) (hasked : askedMoves (after x s) herd = 0) :
    after (migServe (.host c) herd true [] refused body) s = after (complete c 0 (BitVec.ofNat 64 n)) (after x s) := by
  rw [migServe, if_neg (by decide), after_seq_cons, after_seq_cons, after_seq_nil, after_look]
  have hnone : after (each ([] : List Nat) fun p => entryRead p herd) s = s := rfl
  rw [hnone, hb]
  dsimp only
  rw [after_seq_cons, after_seq_cons, after_seq_nil, after_look, if_pos hasked]
  rfl

end

/-! ## The register of a set -/

theorem ssetReg_bounds (t : BitVec 8) : 0x140800 ≤ ssetReg t.toNat ∧ ssetReg t.toNat + 8 ≤ 0x141000 := by
  have ht := t.isLt
  have hm : migPage 0 = 0x140000 := rfl
  unfold ssetReg
  omega

/-- The herd's bit in a set's register. -/
def markSet (t : BitVec 8) (v : DWord) (h : Nat) (inSet : Bool) : Act := wr64 (ssetReg t.toNat) (Machine.setBit v h inSet)

theorem admitted_after_markSet (t : BitVec 8) (v : DWord) {h : Nat} (hh : h < 64) (inSet : Bool) (s : State) (k : Nat) :
    admitted (after (markSet t v h inSet) s) t.toNat k = if k = h then inSet else bit v k := by
  rw [admitted, markSet, rd64_after_wr64]
  split
  case isTrue hk => rw [hk, bit_setBit_same _ hh]
  case isFalse hk => rw [bit_setBit_other _ hh hk]

theorem admitted_of_ctl {s t : State} (h : t.ctl = s.ctl) (set k : Nat) : admitted t set k = admitted s set k := by
  rw [admitted, admitted, rd64, rd64, rd, rd, rd, rd, h]

theorem keepsReg_markSet {x : Nat} (t : BitVec 8) (hx : x < 0x140800 ∨ 0x141000 ≤ x) (v : DWord) (h : Nat) (inSet : Bool) : KeepsReg x (markSet t v h inSet) := by
  have := ssetReg_bounds t
  exact keepsReg_wr64 (by omega) (by omega) _

theorem sameTable_markSet (t : BitVec 8) (v : DWord) (h : Nat) (inSet : Bool) (s : State) : SameTable s (after (markSet t v h inSet) s) :=
  sameTable_act (within_wr64 ..) (fun x hx => keepsReg_markSet t (by omega) v h inSet) s

theorem rd64_fetched_sset (c : CmdId) (s : State) (t : BitVec 8) : rd64 (fetched c s) (ssetReg t.toNat) = rd64 s (ssetReg t.toNat) := by
  have := ssetReg_bounds t
  have hacc := sameAccounts_fetched c s
  rw [rd64, rd64, hacc.regs _ (by omega), hacc.regs _ (by omega)]

/-- A set that has a member is not free. -/
theorem after_freeEmptySet_member {s : State} {t k : Nat} (h : admitted s t k = true) : after (freeEmptySet t) s = s := by
  have hne : (rd64 s (ssetReg t) = 0 && (mGet s.ssetOwner t).isSome) = false := by
    have hz : rd64 s (ssetReg t) ≠ 0 := fun hz => by
      rw [admitted, hz] at h
      simp [bit] at h
    have hd : decide (rd64 s (ssetReg t) = 0) = false := decide_eq_false hz
    rw [hd, Bool.false_and]
  rw [freeEmptySet, after_look, if_neg (by rw [hne]; exact Bool.false_ne_true)]
  rfl

section
variable {s : State} (hs : Ready s) {c : CmdId} {h : Nat} {x : Herd} (hr : CommandRuns s c h x) {set : BitVec 8}
include hs hr

/-! ## ADMIT and REVOKE -/

omit hs hr in
theorem ssetOwner_fetched (c : CmdId) (s : State) : (fetched c s).ssetOwner = s.ssetOwner := onlyIn_fetched c s .ssetOwner rfl

theorem does_admit {g : HerdNo} (howner : mGet s.ssetOwner set.toNat = some h) (hasked : askedMoves s h = 0) :
    Does (.admitHerd c set g) s [.ctl, .busyRing, .completions, .fnTurn, .out] fun t => Answered s t c 0 0 ∧ admitted t set.toNat g.val = true ∧
      ∀ k < 64, k ≠ g.val → admitted t set.toNat k = admitted s set.toNat k := by
  obtain ⟨a, ha⟩ : ∃ a, a = markSet set (rd64 s (ssetReg set.toNat)) g.val true := ⟨_, rfl⟩
  have hw : Within [.ctl] a := ha ▸ within_wr64 ..
  have hadm (u : State) (k : Nat) : admitted (after a u) set.toNat k = if k = g.val then true else bit (rd64 s (ssetReg set.toNat)) k :=
    ha ▸ admitted_after_markSet set _ g.isLt true u k
  have hbody : migAdmit set g h (fetched c s) = some (setMember set.toNat g.val true, 0) := by
    rw [migAdmit, ssetOwner_fetched, if_pos howner]
  have hwork : after (setMember set.toNat g.val true) (fetched c s) = after a (fetched c s) := by
    have hmark : wr64 (ssetReg set.toNat) (Machine.setBit (rd64 s (ssetReg set.toNat)) g.val true) = a := ha.symm
    rw [setMember, after_look, after_seq_cons, after_seq_cons, after_seq_cons, after_seq_nil, after_act, if_neg (by decide), rd64_fetched_sset, hmark]
    exact after_freeEmptySet_member (k := g.val) (by rw [hadm, if_pos rfl])
  have hmoves : askedMoves (after a (fetched c s)) h = 0 := by
    have h1 : (fetched c s).moves = s.moves := onlyIn_fetched c s .moves rfl
    rw [askedMoves_of_moves (hw.moves _), askedMoves_of_moves h1, hasked]
  have hptr : rd (after a (fetched c s)) (ptrReg c) = rd (fetched c s) (ptrReg c) := by
    have := ptrReg_pos c
    exact ha ▸ (keepsReg_markSet set (.inr (by omega)) _ _ _).eq _
  refine does_served hs (act := actAdmitHerd c set g) (a := a) (status := 0) (result := 0) rfl ?_ (hw.onlyIn _) hptr fun t ht => ?_
  · have hzero : BitVec.ofNat 64 0 = (0 : DWord) := by decide
    rw [actAdmitHerd, after_migRequest hr, after_migServe_unread_done hbody (by rw [hwork, hmoves]), hwork, hzero]
  · have hctl : t.ctl = (after a (fetched c s)).ctl := ht .ctl rfl
    refine ⟨by rw [admitted_of_ctl hctl, hadm, if_pos rfl], fun k _ hne => ?_⟩
    rw [admitted_of_ctl hctl, hadm, if_neg hne, admitted]

/-- A member's revocation in the register, and the lines of the set's pages dropped (R359). -/
def revokeMark (set : BitVec 8) (v : DWord) (g : Nat) (ps : List Nat) : Act := seq [markSet set v g false, each ps dropLines]

omit hs hr in
theorem within_revokeMark (set : BitVec 8) (v : DWord) (g : Nat) (ps : List Nat) : Within [.ctl, .core] (revokeMark set v g ps) :=
  within_seq_cons ((within_wr64 ..).wider rfl) <| within_seq_cons ((within_each fun p => within_dropLines p).wider rfl) within_seq_nil

omit hs hr in
theorem keepsReg_revokeMark {y : Nat} (set : BitVec 8) (hy : 0x180000 ≤ y) (v : DWord) (g : Nat) (ps : List Nat) : KeepsReg y (revokeMark set v g ps) :=
  keeps_seq_cons (keepsReg_markSet set (.inr (by omega)) v g false) <| keeps_seq_cons ((within_each fun p => within_dropLines p).keepsReg y) keeps_seq_nil

omit hs hr in
theorem admitted_after_revokeMark (set : BitVec 8) (v : DWord) {g : Nat} (hg : g < 64) (ps : List Nat) (s : State) (k : Nat) :
    admitted (after (revokeMark set v g ps) s) set.toNat k = if k = g then false else bit v k := by
  rw [revokeMark, after_seq_cons, after_seq_cons, after_seq_nil, admitted_of_ctl ((within_each fun p => within_dropLines p).ctl _),
    admitted_after_markSet set v hg]

omit hs hr in
theorem after_setMember_revoke (c : CmdId) (s : State) (set : BitVec 8) (g : HerdNo) :
    ∃ ps, after (setMember set.toNat g.val false) (fetched c s) =
      after (freeEmptySet set.toNat) (after (revokeMark set (rd64 s (ssetReg set.toNat)) g.val ps) (fetched c s)) := by
  refine ⟨(validPages (fetched c s)).filter (fun p => eShared (homeEntry (fetched c s) p) && decide (eSset (homeEntry (fetched c s) p) = set.toNat)), ?_⟩
  rw [setMember, after_look, after_seq_cons, after_seq_cons, after_seq_cons, after_seq_nil, after_act, if_pos (by decide), rd64_fetched_sset, revokeMark,
    after_seq_cons, after_seq_cons, after_seq_nil, markSet]

omit hs hr in
theorem migRevoke_owned {g : HerdNo} (howner : mGet s.ssetOwner set.toNat = some h) (c : CmdId) :
    migRevoke set g h (fetched c s) = some (setMember set.toNat g.val false, 0) := by
  rw [migRevoke, ssetOwner_fetched, if_pos howner]

theorem does_revoke {g k : HerdNo} (howner : mGet s.ssetOwner set.toNat = some h) (hasked : askedMoves s h = 0) (hne : k ≠ g)
    (hk : admitted s set.toNat k.val = true) :
    Does (.revoke c set g) s [.ctl, .core, .busyRing, .completions, .fnTurn, .out] fun t => Answered s t c 0 0 ∧
      admitted t set.toNat g.val = false ∧ mGet t.ssetOwner set.toNat = some h := by
  obtain ⟨ps, hps⟩ := after_setMember_revoke c s set g
  obtain ⟨a, ha⟩ : ∃ a, a = revokeMark set (rd64 s (ssetReg set.toNat)) g.val ps := ⟨_, rfl⟩
  have hw : Within [.ctl, .core] a := ha ▸ within_revokeMark ..
  have hadm (u : State) (j : Nat) : admitted (after a u) set.toNat j = if j = g.val then false else bit (rd64 s (ssetReg set.toNat)) j :=
    ha ▸ admitted_after_revokeMark set _ g.isLt ps u j
  have hwork : after (setMember set.toNat g.val false) (fetched c s) = after a (fetched c s) := by
    rw [hps, ← ha]
    refine after_freeEmptySet_member (k := k.val) ?_
    rw [hadm, if_neg fun he => hne (Fin.ext he), ← admitted, hk]
  have hmoves : askedMoves (after a (fetched c s)) h = 0 := by
    have h1 : (fetched c s).moves = s.moves := onlyIn_fetched c s .moves rfl
    rw [askedMoves_of_moves (hw.moves _), askedMoves_of_moves h1, hasked]
  have hptr : rd (after a (fetched c s)) (ptrReg c) = rd (fetched c s) (ptrReg c) := by
    have := ptrReg_pos c
    exact ha ▸ (keepsReg_revokeMark set (by omega) _ _ _).eq _
  refine does_served hs (act := actRevoke c set g) (a := a) (status := 0) (result := 0) rfl ?_ (hw.onlyIn _) hptr fun t ht => ?_
  · have hzero : BitVec.ofNat 64 0 = (0 : DWord) := by decide
    rw [actRevoke, after_migRequest hr, after_migServe_unread_done (migRevoke_owned howner c) (by rw [hwork, hmoves]), hwork, hzero]
  · have hctl : t.ctl = (after a (fetched c s)).ctl := ht .ctl rfl
    have hset : t.ssetOwner = (after a (fetched c s)).ssetOwner := ht .ssetOwner rfl
    exact ⟨by rw [admitted_of_ctl hctl, hadm, if_pos rfl], by rw [hset, hw.ssetOwner, ssetOwner_fetched, howner]⟩

/-! ## The last member of a set (R370) -/

omit hs hr in
theorem Plain.free {s : State} (hp : Plain s) (p : Nat) : Plain (after (freePage p) s) := by
  rw [freePage, after_look]
  dsimp only
  iterate 5 rw [after_seq_cons]
  rw [after_seq_nil]
  have hdrop := (hp.setEntry p 0).sameTable (sameTable_aside (within_dropLines p) _)
  have hrel (u : State) (hu : Plain u) (e : DWord) : Plain (after (releaseHome e) u) := by
    rw [releaseHome, after_ite]
    split
    · have hw : Within [.farMem, .extent] (seq [one (.farMemKeep (fun k => decide (k / 65536 ≠ 262144 * eExt e + eFarPage e))), sweepExtent (eExt e)]) :=
        within_seq_cons (within_one rfl) <| within_seq_cons ((within_sweepExtent _).wider rfl) within_seq_nil
      exact hu.sameTable (sameTable_aside hw u)
    · rw [after_seq_cons, after_seq_cons, after_seq_nil]
      exact (zeroing_zeroFrame hu _).plain.sameTable (sameTable_bumpFree 1 _)
  have hcharge (u : State) (hu : Plain u) (b : Bool) (g : Nat) (pinned : Bool) : Plain (after (act b (chargeDevice g pinned (-1))) u) := by
    rw [after_act]
    split
    · exact hu.sameTable (sameTable_chargeDevice ..)
    · exact hu
  exact (hcharge _ (hrel _ hdrop _) _ _ _).sameTable (sameTable_aside (within_one rfl : Within [.touched] (one (.touched p none))) _)

omit hs hr in
theorem freed_each {s : State} (hp : Plain s) (ps : List Nat) : OnlyIn freeParts s (after (each ps freePage) s) ∧
    ∀ y, 0x180000 ≤ y → rd (after (each ps freePage) s) y = rd s y := by
  have h := after_each_keeps (P := fun u => Plain u ∧ OnlyIn freeParts s u ∧ ∀ y, 0x180000 ≤ y → rd u y = rd s y) ps freePage
    (fun p _ u ⟨hu, ho, hy⟩ => ⟨hu.free p, ho.trans (onlyIn_freePage (tableIs_self hu)), fun y hhi =>
      (rd_after_freePage (tableIs_self hu) hhi).trans (hy y hhi)⟩) s ⟨hp, onlyIn_refl _ _, fun _ _ => rfl⟩
  exact h.2

theorem does_revoke_last {g : HerdNo} (howner : mGet s.ssetOwner set.toNat = some h) (hmoves : s.moves = []) (hp : Plain s)
    (hlast : ∀ k : HerdNo, k ≠ g → admitted s set.toNat k.val = false) :
    Does (.revoke c set g) s [.ctl, .core, .mem, .chk, .mergeBuf, .farMem, .extent, .moves, .touched, .ssetOwner, .busyRing, .completions, .fnTurn, .out]
      fun t => Answered s t c 0 0 ∧ mGet t.ssetOwner set.toNat = none := by
  obtain ⟨ps, hps⟩ := after_setMember_revoke c s set g
  obtain ⟨u, hu⟩ : ∃ u, u = after (revokeMark set (rd64 s (ssetReg set.toNat)) g.val ps) (fetched c s) := ⟨_, rfl⟩
  have hw := within_revokeMark set (rd64 s (ssetReg set.toNat)) g.val ps
  have honly : OnlyIn [.ctl, .core] (fetched c s) u := hu ▸ hw.onlyIn _
  have hmv : u.moves = [] := by
    have h1 : u.moves = (fetched c s).moves := honly .moves rfl
    rw [h1, moves_fetched hmoves c]
  have hplain : Plain u := by
    rw [hu, revokeMark, after_seq_cons, after_seq_cons, after_seq_nil]
    exact (((tableIs_fetched hp c).plain.sameTable (sameTable_markSet ..))).sameTable (sameTable_aside (within_each fun p => within_dropLines p) _)
  have hzero : rd64 u (ssetReg set.toNat) = 0 := eq_of_bit_eq fun j hj => by
    have hadm := admitted_after_revokeMark set (rd64 s (ssetReg set.toNat)) g.isLt ps (fetched c s) j
    rw [← hu, admitted] at hadm
    rw [hadm]
    have hz : bit (0 : DWord) j = false := by simp [bit]
    rw [hz]
    split
    · rfl
    case isFalse hne => exact hlast ⟨j, hj⟩ fun he => hne (congrArg Fin.val he)
  have hsome : (mGet u.ssetOwner set.toNat).isSome = true := by
    have h1 : u.ssetOwner = (fetched c s).ssetOwner := honly .ssetOwner rfl
    rw [h1, ssetOwner_fetched, howner]
    rfl
  obtain ⟨qs, hqs⟩ : ∃ qs, after (freeEmptySet set.toNat) u = after (one (.ssetOwner set.toNat none)) (after (each qs freePage) (after (one (.moves [])) u)) := by
    rw [freeEmptySet, after_look, hzero, hsome, if_pos (by decide), after_seq_cons, after_seq_cons, after_seq_nil, after_freePages hmv]
    exact ⟨_, rfl⟩
  obtain ⟨v, hv⟩ : ∃ v, v = after (one (.moves [])) u := ⟨_, rfl⟩
  have hwv : Within [.moves] (one (.moves [])) := within_one rfl
  have hmid : OnlyIn [.moves] u v := hv ▸ hwv.onlyIn u
  obtain ⟨hfree, hhigh⟩ := freed_each (hv ▸ hplain.sameTable (sameTable_aside hwv u)) qs
  have hend : OnlyIn [.ssetOwner] (after (each qs freePage) v) (after (one (.ssetOwner set.toNat none)) (after (each qs freePage) v)) := onlyIn_apply (.ssetOwner ..) _
  have hwork : after (setMember set.toNat g.val false) (fetched c s) = after (one (.ssetOwner set.toNat none)) (after (each qs freePage) v) := by
    rw [hps, ← hu, hqs, hv]
  have hall : OnlyIn (.ssetOwner :: .moves :: freeParts) (fetched c s) (after (setMember set.toNat g.val false) (fetched c s)) := by
    rw [hwork]
    exact (((honly.wider rfl).trans (hmid.wider rfl)).trans (hfree.wider rfl)).trans (hend.wider rfl)
  have hnone : askedMoves (after (setMember set.toNat g.val false) (fetched c s)) h = 0 := by
    refine askedMoves_nil ?_ h
    have h1 : (after (one (.ssetOwner set.toNat none)) (after (each qs freePage) v)).moves = (after (each qs freePage) v).moves := hend .moves rfl
    have h2 : (after (each qs freePage) v).moves = v.moves := hfree .moves rfl
    rw [hwork, h1, h2, hv]
    rfl
  refine does_served hs (act := actRevoke c set g) (a := setMember set.toNat g.val false) (status := 0) (result := 0) rfl ?_ hall ?_ fun t ht => ?_
  · have hz : BitVec.ofNat 64 0 = (0 : DWord) := by decide
    rw [actRevoke, after_migRequest hr, after_migServe_unread_done (migRevoke_owned howner c) hnone, hz]
  · have := ptrReg_pos c
    have hlastreg : Within [.ssetOwner] (one (.ssetOwner set.toNat none)) := within_one rfl
    rw [hwork, (hlastreg.keepsReg _).eq, hhigh _ (by omega), hv, (hwv.keepsReg _).eq, hu, (keepsReg_revokeMark set (by omega) _ _ _).eq]
  · have h1 : t.ssetOwner = (after (setMember set.toNat g.val false) (fetched c s)).ssetOwner := ht .ssetOwner rfl
    rw [h1, hwork]
    exact mGet_mPut_same ..

theorem does_set_foreign {g : HerdNo} (howner : mGet s.ssetOwner set.toNat ≠ some h) :
    Does (.admitHerd c set g) s [.ctl, .busyRing, .completions, .fnTurn, .out] (fun t => Answered s t c 8 0) ∧
    Does (.revoke c set g) s [.ctl, .busyRing, .completions, .fnTurn, .out] (fun t => Answered s t c 8 0) := by
  refine ⟨does_refused hr hs rfl (after_migServe_unread_refused ?_ rfl), does_refused hr hs rfl (after_migServe_unread_refused ?_ rfl)⟩
  · rw [migAdmit, ssetOwner_fetched, if_neg howner]
  · rw [migRevoke, ssetOwner_fetched, if_neg howner]

end

end Sys2Proof.Machine
end

section
/-! Pages are shared; touches, eviction and the prefetch schedule (R355, R366, R368, R374 to R376, R379, R385); O35. -/

namespace Sys2Proof.Machine

-- One declaration after the other: elaborated side by side they take more memory than the check has.
set_option Elab.async false

/-! ## SHARE -/

/-- The entry of a page that has become shared in set t. -/
def sharedEntry (t : Nat) (e : DWord) : DWord := setFld (Machine.setBit e 58 true) 49 42 t

theorem eShared_sharedEntry (t : Nat) (e : DWord) : eShared (sharedEntry t e) = true := by
  rw [eShared, sharedEntry, bit_setFld_other _ (by decide) (by decide) (.inr (by decide)), bit_setBit_same _ (by decide)]

theorem eSset_sharedEntry (t : BitVec 8) (e : DWord) : eSset (sharedEntry t.toNat e) = t.toNat := by
  rw [eSset, sharedEntry, fld_setFld _ (by decide) (by decide)]
  exact Nat.mod_eq_of_lt t.isLt

theorem eHome_sharedEntry (t : Nat) (e : DWord) : eHome (sharedEntry t e) = eHome e := by
  rw [eHome, sharedEntry, fld_setFld_other _ (by decide) (by decide) (.inl (by decide)), fld_setBit_other _ (by decide) (.inl (by decide)), eHome]

section
variable {s : State} {n : Nat} {g : Nat → DWord} (ht : TableIs s n g) {p : Nat} (t : Nat)
include ht

theorem onlyIn_sharePage : OnlyIn [.ctl, .core, .mem] s (after (sharePage t p) s) := by
  rw [sharePage, after_look]
  dsimp only
  iterate 3 rw [after_seq_cons]
  rw [after_seq_nil]
  have h1 : OnlyIn [.ctl, .mem] s (after (setEntry p (sharedEntry t (homeEntry s p))) s) := onlyIn_setEntry ht.plain p _
  exact ((h1.wider rfl).trans (((within_dropLines p).wider rfl).onlyIn _)).trans (((within_act (within_chargeDevice ..)).wider rfl).onlyIn _)

/-- Sharing a page writes no register beside those of the memory ports and of the herds' accounts. -/
theorem rd_after_sharePage {x : Nat} (hx : Beside x) (hacc : ∀ h < 64, x ≠ migHerd h + 8 ∧ x ≠ migHerd h + 12) :
    rd (after (sharePage t p) s) x = rd s x := by
  rw [sharePage, after_look]
  dsimp only
  iterate 3 rw [after_seq_cons]
  obtain ⟨h8, h12⟩ := hacc _ (eHerd_lt (homeEntry s p))
  rw [after_seq_nil, (keeps_act fun _ => keepsReg_chargeDevice h8 h12 _ _).eq, ((within_dropLines p).keepsReg x).eq,
    rd_after_setEntry_beside ht.plain hx]

theorem TableIs.share (hp : p < 2 ^ 26) : TableIs (after (sharePage t p) s) n (Function.update g p (sharedEntry t (g p))) := by
  have he : homeEntry s p = g p := ht.entry p hp
  rw [sharePage, after_look]
  dsimp only
  iterate 3 rw [after_seq_cons]
  rw [after_seq_nil, he]
  have hset := (ht.set hp (sharedEntry t (g p))).aside (sameTable_aside (within_dropLines p) _)
  refine hset.aside ?_
  rw [after_act]
  split
  · exact sameTable_chargeDevice ..
  · exact SameTable.refl _

end

section
variable {s : State} (hs : Ready s) {c : CmdId} {h : Nat} {x : Herd} (hr : CommandRuns s c h x) {set : BitVec 8}
include hs hr

theorem does_share {page n : Nat} (hn : 1 ≤ n) (hmax : page + n ≤ 2 ^ 26) (hmoves : s.moves = []) (hp : Plain s)
    (howner : mGet s.ssetOwner set.toNat = none ∨ mGet s.ssetOwner set.toNat = some h)
    (hall : ∀ p ∈ runPages page n, eValid (homeEntry s p) = true ∧ eHerd (homeEntry s p) = h ∧ eShared (homeEntry s p) = false ∧
      eMoving (homeEntry s p) = false) :
    Does (.share c page n set) s [.ctl, .core, .mem, .moves, .ssetOwner, .busyRing, .completions, .fnTurn, .out] fun t =>
      Answered s t c 0 (BitVec.ofNat 64 n) ∧ mGet t.ssetOwner set.toNat = some h ∧ admitted t set.toNat h = true ∧
      (∀ p ∈ runPages page n, eShared (homeEntry t p) = true ∧ eSset (homeEntry t p) = set.toNat ∧ eHome (homeEntry t p) = eHome (homeEntry s p)) ∧
      ∀ q, q < 2 ^ 26 → q ∉ runPages page n → homeEntry t q = homeEntry s q := by
  obtain ⟨hh, -⟩ := id hr
  have htable := tableIs_fetched hp c
  obtain ⟨u1, hu1⟩ : ∃ u, u = after (one (.ssetOwner set.toNat (some h))) (fetched c s) := ⟨_, rfl⟩
  obtain ⟨u2, hu2⟩ : ∃ u, u = after (markSet set (rd64 u1 (ssetReg set.toNat)) h true) u1 := ⟨_, rfl⟩
  obtain ⟨u3, hu3⟩ : ∃ u, u = after (one (.moves [])) u2 := ⟨_, rfl⟩
  have hw1 : Within [.ssetOwner] (one (.ssetOwner set.toNat (some h))) := within_one rfl
  have hw2 : Within [.ctl] (markSet set (rd64 u1 (ssetReg set.toNat)) h true) := within_wr64 ..
  have hw3 : Within [.moves] (one (.moves [])) := within_one rfl
  have hmv2 : u2.moves = [] := by rw [hu2, hw2.moves, hu1, hw1.moves, moves_fetched hmoves c]
  have ht3 : TableIs u3 (rsvBase s) (homeEntry s) := by
    rw [hu3, hu2, hu1]
    exact ((htable.aside (sameTable_aside hw1 _)).aside (sameTable_markSet ..)).aside (sameTable_aside hw3 _)
  obtain ⟨a, ha⟩ : ∃ a, a = seq [one (.ssetOwner set.toNat (some h)),
      look fun s => wr64 (ssetReg set.toNat) (Machine.setBit (rd64 s (ssetReg set.toNat)) h true),
      one (.moves []), each (runPages page n) (sharePage set.toNat)] := ⟨_, rfl⟩
  have hbody : migShare page n set h (fetched c s) = some (a, n) := by
    have hmv := moves_fetched hmoves c
    have hno : ((mGet (fetched c s).ssetOwner set.toNat).isSome && decide (mGet (fetched c s).ssetOwner set.toNat ≠ some h)) = false := by
      rw [ssetOwner_fetched]
      rcases howner with ho | ho <;> rw [ho]
      · rfl
      · simp
    have hstill : (runPages page n).filter (fun p => !eMoving (homeEntry (fetched c s) p)) = runPages page n := List.filter_eq_self.mpr fun p hin => by
      obtain ⟨-, -, -, hm⟩ := hall p hin
      rw [(sameSpace_fetched c s).table.homeEntry, hm]
      rfl
    rw [migShare, named_rightly hmoves fun p hin => ⟨(hall p hin).1, (hall p hin).2.1, (hall p hin).2.2.1⟩, hno, if_neg (by decide), hstill, hmv, ha]
    rfl
  have hwork : after a (fetched c s) = after (each (runPages page n) (sharePage set.toNat)) u3 := by
    have hmark : wr64 (ssetReg set.toNat) (Machine.setBit (rd64 u1 (ssetReg set.toNat)) h true) = markSet set (rd64 u1 (ssetReg set.toNat)) h true := rfl
    rw [ha, after_seq_cons, ← hu1, after_seq_cons, after_look, hmark, ← hu2, after_seq_cons, ← hu3, after_seq_cons, after_seq_nil]
  obtain ⟨hend, honly, hrd⟩ := tableIs_each (Q := fun v => OnlyIn [.ctl, .core, .mem] u3 v ∧ ∀ y, Beside y → (∀ h < 64, y ≠ migHerd h + 8 ∧ y ≠ migHerd h + 12) →
      rd v y = rd u3 y) (act := sharePage set.toNat) (f := fun p => sharedEntry set.toNat (homeEntry s p)) (nodup_runPages page n)
    (fun p hin v g' hv hg ⟨ho, hy⟩ => ⟨hg ▸ hv.share set.toNat (lt_of_run hmax hin), ho.trans (onlyIn_sharePage hv set.toNat), fun y hb hacc =>
      (rd_after_sharePage hv set.toNat hb hacc).trans (hy y hb hacc)⟩) ht3 ⟨onlyIn_refl _ _, fun _ _ _ => rfl⟩
  rw [← hwork] at hend honly hrd
  have h1 : OnlyIn [.ssetOwner] (fetched c s) u1 := hu1 ▸ hw1.onlyIn _
  have h2 : OnlyIn [.ctl] u1 u2 := hu2 ▸ hw2.onlyIn _
  have h3 : OnlyIn [.moves] u2 u3 := hu3 ▸ hw3.onlyIn _
  have hall' : OnlyIn [.ctl, .core, .mem, .moves, .ssetOwner] (fetched c s) (after a (fetched c s)) :=
    (((h1.wider rfl).trans (h2.wider rfl)).trans (h3.wider rfl)).trans (honly.wider rfl)
  have hmoves' : (after a (fetched c s)).moves = [] := by
    have h4 : (after a (fetched c s)).moves = u3.moves := honly .moves rfl
    rw [h4, hu3]
    rfl
  have hown : (after a (fetched c s)).ssetOwner = u1.ssetOwner := by
    have h4 : (after a (fetched c s)).ssetOwner = u3.ssetOwner := honly .ssetOwner rfl
    have h5 : u3.ssetOwner = u2.ssetOwner := h3 .ssetOwner rfl
    have h6 : u2.ssetOwner = u1.ssetOwner := h2 .ssetOwner rfl
    rw [h4, h5, h6]
  refine does_served hs (act := actShare c page n set) (a := a) rfl ?_ hall' ?_ fun t ht => ?_
  · rw [actShare, after_migRequest hr, runOk_here hn hmax, after_migServe_done htable.plain hbody (askedMoves_nil hmoves' h)]
  · have := ptrReg_pos c
    rw [hrd _ (beside_ptrReg c) (fun h hh => ⟨ptrReg_ne_mig c _ (by have := migHerd_lt hh; omega), ptrReg_ne_mig c _ (by have := migHerd_lt hh; omega)⟩),
      hu3, (hw3.keepsReg _).eq, hu2, (keepsReg_markSet set (.inr (by omega)) _ _ _).eq, hu1, (hw1.keepsReg _).eq]
  · have hdone := hend.completed ht
    have hctl : t.ctl = (after a (fetched c s)).ctl := ht .ctl rfl
    have hset : t.ssetOwner = (after a (fetched c s)).ssetOwner := ht .ssetOwner rfl
    have hb := ssetReg_bounds set
    have hfar (o : Nat) (ho : o ≤ 4) : rd (after a (fetched c s)) (ssetReg set.toNat + o) = rd u2 (ssetReg set.toNat + o) := by
      rw [hrd _ (beside_of (.inr (by omega))) fun h hh => by have := migHerd_lt hh; omega, hu3, (hw3.keepsReg _).eq]
    refine ⟨?_, ?_, fun p hin => ?_, fun q hq hnot => ?_⟩
    · rw [hset, hown, hu1]
      exact mGet_mPut_same ..
    · have hadm : admitted (after a (fetched c s)) set.toNat h = admitted u2 set.toNat h := by
        rw [admitted, admitted, rd64, rd64, hfar 4 (Nat.le_refl 4), show ssetReg set.toNat = ssetReg set.toNat + 0 from rfl, hfar 0 (by decide)]
      rw [admitted_of_ctl hctl, hadm, hu2, admitted_after_markSet set _ hh, if_pos rfl]
    · rw [hdone.entry p (lt_of_run hmax hin), if_pos hin]
      exact ⟨eShared_sharedEntry .., eSset_sharedEntry .., eHome_sharedEntry ..⟩
    · rw [hdone.entry q hq, if_neg hnot]

end

/-! ## Touches and eviction -/

theorem does_touchWrite {s : State} (hs : Ready s) {p : Nat} (hp : p < 2 ^ 26) (htouched : mGet s.touched p ≠ none)
    (hvalid : eValid (homeEntry s p) = true) (hplain : Plain s) :
    Does (.touchWrite p) s [.ctl, .mem, .touched] fun t => homeEntry t p = setFld (homeEntry s p) 15 0 (touchNow s) ∧ OtherPages s t p ∧
      mGet t.touched p = none := by
  have hbody : after (actTouchWrite p) s = after (one (.touched p none)) (after (setEntry p (setFld (homeEntry s p) 15 0 (touchNow s))) s) := by
    rw [actTouchWrite, after_look]
    dsimp only
    rw [if_pos (Option.isSome_iff_ne_none.mpr htouched), hvalid, after_seq_cons, after_act, if_pos rfl, after_seq_cons, after_seq_nil]
  have hset : OnlyIn [.ctl, .mem] s (after (setEntry p (setFld (homeEntry s p) 15 0 (touchNow s))) s) := onlyIn_setEntry hplain p _
  have hw : Within [.touched] (one (.touched p none)) := within_one rfl
  have htab := ((tableIs_self hplain).set hp (setFld (homeEntry s p) 15 0 (touchNow s))).aside (sameTable_aside hw _)
  refine does_of_run hs.1 (a := actTouchWrite p) rfl ?_ ?_ <;> rw [hbody]
  · exact (hset.wider rfl).trans ((hw.onlyIn _).wider rfl)
  · exact ⟨by rw [htab.entry p hp, Function.update_self], fun q hq hne => by rw [htab.entry q hq, Function.update_of_ne hne], mGet_mPut_same ..⟩

section
variable {s : State} (hs : Ready s) (hfence : fenced s (migPage 0) = false) (hlow : freeFrames s < 16 * fld (rd s (migPage 0 + 0x10C)) 15 0)
include hs hfence hlow

theorem does_evict_page {p : Nat} (hhigh : freeFrames s + framesDue s < 16 * fld (rd s (migPage 0 + 0x10C)) 31 16) (hp : evictNext s = some p) :
    Does .evict s [.ctl, .moves] fun t =>
      t.moves = s.moves ++ [⟨p, eHerd (homeEntry s p), none, false, false, 0, false, false, none, none⟩] := by
  obtain ⟨u, hu⟩ : ∃ u, u = after (wrFld (migPage 0 + 0x110) 2 1 1) s := ⟨_, rfl⟩
  have hmv : u.moves = s.moves := by rw [hu, (within_wrFld ..).moves]
  have hbody : after actEvict s = after setMigStat (after (one (.moves (s.moves ++
      [⟨p, eHerd (homeEntry s p), none, false, false, 0, false, false, none, none⟩]))) u) := by
    rw [actEvict, after_look]
    dsimp only
    rw [hfence, if_neg Bool.false_ne_true, decide_eq_true hlow, Bool.true_or, if_neg (by decide), if_neg (by omega), hp]
    dsimp only
    rw [after_seq_cons, after_seq_cons, after_seq_cons, after_seq_nil, askMove, after_look, ← hu, hmv]
  have h1 : OnlyIn [.ctl] s u := hu ▸ (within_wrFld ..).onlyIn s
  refine does_of_run hs.1 (a := actEvict) rfl ?_ ?_ <;> rw [hbody]
  · exact ((h1.wider rfl).trans ((within_one (ps := [.ctl, .moves]) rfl).onlyIn u)).trans ((within_setMigStat.onlyIn _).wider rfl)
  · rw [within_setMigStat.moves]
    rfl

theorem does_evict_stalled (hdue : framesDue s = 0) (hhigh : freeFrames s < 16 * fld (rd s (migPage 0 + 0x10C)) 31 16) (hp : evictNext s = none) :
    Does .evict s [.ctl] fun t => fld (rd t (migPage 0 + 0x110)) 2 1 = 3 ∧ bit (rd t (migPage 0 + 0x20)) 9 = true := by
  have hbody : after actEvict s = after (setIst (migPage 0) 9) (after (wrFld (migPage 0 + 0x110) 2 1 3) s) := by
    rw [actEvict, after_look]
    dsimp only
    rw [hfence, if_neg Bool.false_ne_true, decide_eq_true hlow, Bool.true_or, if_neg (by decide), if_neg (by omega), hp]
    dsimp only
    rw [decide_eq_true hdue, if_pos (by decide), after_seq_cons, after_seq_cons, after_seq_nil]
  refine does_of_run hs.1 (a := actEvict) rfl ?_ ?_ <;> rw [hbody]
  · have h1 : OnlyIn [.ctl] s (after (wrFld (migPage 0 + 0x110) 2 1 3) s) := (within_wrFld ..).onlyIn s
    exact h1.trans ((within_setIst ..).onlyIn _)
  · refine ⟨?_, ?_⟩
    · rw [(keepsReg_setIst (by decide) 9).eq, after_wrFld, rd_ctl_same, fld_setFld _ (by decide) (by decide)]
      rfl
    · rw [after_setIst, rd_ctl_same, bit_setBit_same _ (by decide)]

end

/-! ## The prefetch schedule -/

theorem regDef_hpfCtrl : ∀ h : HerdNo, regDef (.mig 1) ((migHerd h.val + 0x18) % 4096) = some ⟨0x218, 64, 32, 0x8000FFFF, 0, 0, 0, 0, 0⟩ := by decide

section
variable {s : State} (hs : Ready s) {h : HerdNo} {w : Fin 3} {v : Word} {x : Herd} (ht : Takes s (migPage 1 / 4096)) (hx : herdOf s h.val = some x)
include hs ht

omit hs ht in
theorem hpf_page (h : HerdNo) (w : Fin 3) : (migHerd h.val + 0x10 + 4 * w.val) / 4096 = migPage 1 / 4096 := by
  have hh := migHerd_lt h.isLt
  have hm : migPage 1 = 0x141000 := rfl
  have hw := w.isLt
  omega

theorem does_hpf_stored (hoff : bit (rd s (migHerd h.val + 0x18)) 31 = false) (hw : w.val = 2) :
    Does (.migHpfWrite .ringCtl h w v) s [.ctl] fun t => bit (rd t (migHerd h.val + 0x18)) 31 = bit v 31 ∧
      fld (rd t (migHerd h.val + 0x18)) 15 0 = fld v 15 0 ∧ RegsAt [migHerd h.val + 0x18] s t := by
  have hbody : after (hpfWrite .ringCtl h.val w.val v) s = after (maskWrite (.mig 1) (migHerd h.val + 0x18) v) s := by
    rw [hpfWrite, after_look]
    dsimp only
    rw [hoff, Bool.false_and, Bool.false_and, if_neg Bool.false_ne_true, if_neg Bool.false_ne_true, hw]
  refine does_guarded_ring hs ht (hpf_page h w) rfl ?_ ?_ <;> rw [hbody]
  · exact (within_maskWrite ..).onlyIn s
  · have hdef := regDef_hpfCtrl h
    refine ⟨?_, fld_after_maskWrite hdef rfl rfl (by decide) (fun i _ hi => by interval_cases i <;> decide) v s, fun a ha => ?_⟩
    · rw [bit_eq_decide_fld, bit_eq_decide_fld, fld_after_maskWrite hdef rfl rfl (by decide) fun i hl hh => by
        rw [show i = 31 by omega]
        decide]
    · exact (keepsReg_maskWrite (by simpa using ha) (.mig 1) v).eq s

include hx in
theorem does_hpf_pending (hon : bit (rd s (migHerd h.val + 0x18)) 31 = true) (hw : w.val = 2) (hv : bit v 31 = false) :
    Does (.migHpfWrite .ringCtl h w v) s [.herd] fun t => herdOf t h.val = some { x with hpfPend := some v } := by
  have hbody : after (hpfWrite .ringCtl h.val w.val v) s = after (setHerd h.val fun x => { x with hpfPend := some v }) s := by
    rw [hpfWrite, after_look]
    dsimp only
    rw [hon, hw, hv, if_pos (by decide)]
  refine does_guarded_ring hs ht (hpf_page h w) rfl ?_ ?_ <;> rw [hbody]
  · exact (within_setHerd ..).onlyIn s
  · exact herdOf_after_setHerd hx _

theorem does_hpf_refused (hon : bit (rd s (migHerd h.val + 0x18)) 31 = true) (hw : w.val ≠ 2 ∨ bit v 31 = true) :
    Does (.migHpfWrite .ringCtl h w v) s [.ctl, .dumpRun, .freeCtr] fun t => bit (rd t (migPage 1 + 0x20)) 3 = true ∧
      ∀ k < 3, rd t (migHerd h.val + 0x10 + 4 * k) = rd s (migHerd h.val + 0x10 + 4 * k) := by
  have hbody : after (hpfWrite .ringCtl h.val w.val v) s = after (protocolAt (migPage 1) .ringCtl) s := by
    have hno : (decide (w.val = 2) && !bit v 31) = false := by
      rcases hw with hw | hw
      · rw [decide_eq_false hw, Bool.false_and]
      · rw [hw, Bool.not_true, Bool.and_false]
    rw [hpfWrite, after_look]
    dsimp only
    rw [hon, Bool.and_assoc, hno, Bool.and_false, if_neg Bool.false_ne_true, if_pos rfl]
  refine does_guarded_ring hs ht (hpf_page h w) rfl ?_ ?_ <;> rw [hbody]
  · exact ((within_protocolAt ..).wider rfl).onlyIn s
  · refine ⟨bit_after_raise s nofun, fun k hk => ?_⟩
    have hh := migHerd_lt h.isLt
    have hm : migPage 1 = 0x141000 := rfl
    exact rd_after_raise_other s (by omega) (.inr (by omega)) nofun

end

theorem does_prefetchDone {s : State} (hs : Ready s) {h : HerdNo} {i : Nat} {x : Herd} {e : PfEntry} (hx : herdOf s h.val = some x)
    (hfind : x.prefetch.find? (fun e => decide (e.index = i)) = some e) (hdone : e.done = false) (hdead : e.dead = false)
    (hhome : pfHomed s e.words = true) :
    Does (.prefetchDone h i) s [.ctl, .herd, .packets] fun t => herdOf t h.val =
        some { x with prefetch := x.prefetch.map (fun k => if k.index = i then { k with done := true } else k) } ∧
      t.packets = s.packets ++ if wf e.words 3 26 26 = 1 then flagPackets s .mig h.val (wf e.words 3 17 10) 0 else [] := by
  obtain ⟨y, hy⟩ : ∃ y : Herd, y = { x with prefetch := x.prefetch.map (fun k => if k.index = i then { k with done := true } else k) } := ⟨_, rfl⟩
  obtain ⟨u, hu⟩ : ∃ u, u = after (setPf h.val i fun e => { e with done := true }) s := ⟨_, rfl⟩
  obtain ⟨a, ha⟩ : ∃ a, a = act (decide (wf e.words 3 26 26 = 1)) (flagAll .mig h.val (wf e.words 3 17 10) 0) := ⟨_, rfl⟩
  have hw : Within [.packets] a := ha ▸ within_act (within_flagAll ..)
  have hset : Within [.herd] (setPf h.val i fun e => { e with done := true }) := within_setHerd ..
  have hof : herdOf u h.val = some y := by
    rw [hu, hy]
    exact herdOf_after_setHerd hx _
  have hbody : after (actPrefetchDone h.val i) s = after setMigStat (after a u) := by
    rw [actPrefetchDone, after_look, hx, Option.bind_some, hfind]
    dsimp only
    rw [pfDone, hdone, hdead, hhome, after_act, if_pos (by decide), after_seq_cons, after_seq_cons, after_seq_cons, after_seq_nil, ← hu, ← ha]
  have h1 : OnlyIn [.herd] s u := hu ▸ hset.onlyIn s
  refine does_of_run hs.1 (a := actPrefetchDone h.val i) rfl ?_ ?_ <;> rw [hbody]
  · exact ((h1.wider rfl).trans ((hw.onlyIn u).wider rfl)).trans ((within_setMigStat.onlyIn _).wider rfl)
  · have hpk : u.packets = s.packets := h1 .packets rfl
    have hsites : herdSites u h.val = herdSites s h.val := by rw [herdSites, herdSites, hof, hx, hy]; rfl
    refine ⟨by rw [within_setMigStat.herdOf, hw.herdOf, hof, hy], ?_⟩
    rw [within_setMigStat.packets, ha, after_act]
    by_cases hflag : wf e.words 3 26 26 = 1
    · rw [decide_eq_true hflag, if_pos rfl, if_pos hflag, flagAll, after_look, after_one, ← hpk]
      change u.packets ++ flagPackets u .mig h.val (wf e.words 3 17 10) 0 = _
      rw [flagPackets, flagPackets, hsites]
    · rw [decide_eq_false hflag, if_neg Bool.false_ne_true, if_neg hflag, hpk, List.append_nil]

/-- Settles O35: a set's register and its pages' entries change as the requests say; the engine's upkeep touches one entry, one move or one
register each. -/
theorem sharingAndUpkeep : Obligations.SharingAndUpkeep :=
  ⟨fun _ hs _ _ _ _ hr _ =>
    ⟨fun _ _ hn hmax hmoves he hm howner hall => does_share hs hr hn hmax hmoves (plain_of_errorFree he hm) howner hall,
      fun _ howner hasked => does_admit hs hr howner hasked,
      fun _ _ howner hasked hne hk => does_revoke hs hr howner hasked hne hk,
      fun _ howner _ hmoves he hm hlast => does_revoke_last hs hr howner hmoves (plain_of_errorFree he hm) hlast,
      fun _ howner => does_set_foreign hs hr howner⟩,
    fun _ hs _ hp htouched hvalid he hm => does_touchWrite hs hp htouched hvalid (plain_of_errorFree he hm),
    fun _ hs hfence hlow => ⟨fun _ hhigh hp => does_evict_page hs hfence hlow hhigh hp,
      fun hdue hhigh hp => does_evict_stalled hs hfence hlow hdue hhigh hp⟩,
    fun _ hs _ _ _ _ ht hx => ⟨fun hoff hw => does_hpf_stored hs ht hoff hw, fun hon hw hv => does_hpf_pending hs ht hx hon hw hv,
      fun hon hw => does_hpf_refused hs ht hon hw⟩,
    fun _ hs _ _ _ _ hx hfind hdone hdead hhome => does_prefetchDone hs hx hfind hdone hdead hhome⟩

end Sys2Proof.Machine
end

section
/-! Pages are asked to move, and their moves start (R362, R363, R366); O36. -/

namespace Sys2Proof.Machine

-- One declaration after the other: elaborated side by side they take more memory than the check has.
set_option Elab.async false

/-! ## MOVE -/

section
variable {s : State} (h : Plain s) {c : CmdId} {herd : Nat} {reads : List Nat} {refused : Nat → Act} {body : MigReq}
include h

/-- A request whose moves have yet to end is kept by the herd (R366). -/
theorem after_migServe_begun {x : Act} {n k : Nat} (hb : body herd s = some (x, n)) (hasked : askedMoves (after x s) herd = k) (hk : k ≠ 0) :
    after (migServe (.host c) herd true reads refused body) s =
      after (setHerd herd fun y => { y with mig := some ⟨.host c, k, n - k⟩ }) (after x s) := by
  rw [migServe, if_neg (by decide), after_seq_cons, after_entryReads h, after_seq_cons, after_seq_nil, after_look, hb]
  dsimp only
  rw [after_seq_cons, after_seq_cons, after_seq_nil, after_look, hasked, if_neg hk]

end

section
variable {s : State} (hs : Ready s) {c : CmdId} {h : Nat} {x : Herd} (hr : CommandRuns s c h x) {page port : Nat} {dest : Fin 4}
  (hmoves : s.moves = []) (hp : Plain s) (hpage : page < 2 ^ 26) (hdest : dest.val < 3) (hport : port < 24)
  (hvalid : eValid (homeEntry s page) = true) (hherd : eHerd (homeEntry s page) = h)
include hs hr hmoves hp hpage hdest hport hvalid hherd

omit hs hr hmoves hp hvalid hherd in
theorem runOk_move : runOk page 1 dest.val port = true := by
  simp [runOk]
  omega

omit hs hr hp hpage hdest hport in
/-- The page of a MOVE, judged. -/
theorem migMove_one {back : List (Nat × Option Nat)} (todo : List (Nat × Option Nat))
    (htodo : ([(page, destOf dest.val port 0)].filter fun q => !atDest (fetched c s) q) = todo)
    (hback : (todo.filter fun q => q.2.isSome && ePinned (homeEntry (fetched c s) q.1) && eFar (homeEntry (fetched c s) q.1) &&
      !eShared (homeEntry (fetched c s) q.1)) = back) (hnone : back = []) :
    migMove page 1 dest.val port h (fetched c s) = some (each todo fun q => askMove q.1 h q.2 true false none, todo.length) := by
  have hruns : runDests page 1 dest.val port = [(page, destOf dest.val port 0)] := rfl
  have hvalid' : pageValid (fetched c s) page = true := by
    rw [pageValid_of_moves (moves_fetched hmoves c), (sameSpace_fetched c s).table.homeEntry, hvalid]
  have hours : foreign (fetched c s) h page = false := by
    rw [foreign, (sameSpace_fetched c s).table.homeEntry, hherd]
    simp
  have hpass : passesFloor (fetched c s) h [] = false := rfl
  rw [migMove, hruns, htodo, hback, hnone, List.map_nil, hpass, List.any_cons, List.any_nil, hvalid', hours, if_neg (by decide)]

theorem does_move_here (hhome : homedAt (homeEntry s page) (destOf dest.val port 0) = true) :
    Does (.move c page 1 dest port) s [.ctl, .busyRing, .completions, .fnTurn, .out] fun t => Answered s t c 0 0 := by
  have hat : atDest (fetched c s) (page, destOf dest.val port 0) = true := by
    rw [atDest, (sameSpace_fetched c s).table.homeEntry, hhome, hasMove, moves_fetched hmoves c]
    rfl
  have hbody := migMove_one (c := c) (dest := dest) (port := port) (back := []) hmoves hvalid hherd [] (by rw [List.filter_cons, hat]; rfl) rfl rfl
  have hzero : BitVec.ofNat 64 0 = (0 : DWord) := by decide
  refine does_refused hr hs (failedToo := false) (op := 0x10) rfl ?_
  rw [runOk_move hpage hdest hport, after_migServe_done (tableIs_fetched hp c).plain hbody (askedMoves_nil (moves_fetched hmoves c) h), List.length_nil, hzero]
  rfl

theorem does_move_queued (hhome : homedAt (homeEntry s page) (destOf dest.val port 0) = false) (hpinned : ePinned (homeEntry s page) = false) :
    Does (.move c page 1 dest port) s [.ctl, .herd, .moves, .busyRing, .fnTurn, .out] fun t => Fetched s t c ∧
      t.moves = [⟨page, h, destOf dest.val port 0, true, false, 0, false, false, none, none⟩] ∧
      herdOf t h = some { x with mig := some ⟨.host c, 1, 0⟩ } := by
  have htab := (sameSpace_fetched c s).table
  have hat : atDest (fetched c s) (page, destOf dest.val port 0) = false := by
    rw [atDest, htab.homeEntry, hhome, Bool.false_and]
  have hbody := migMove_one (c := c) (dest := dest) (port := port) (back := []) hmoves hvalid hherd [(page, destOf dest.val port 0)]
    (by rw [List.filter_cons, hat]; rfl) (by rw [List.filter_cons, htab.homeEntry, hpinned, Bool.and_false, Bool.false_and, Bool.false_and]; rfl) rfl
  obtain ⟨m, hm⟩ : ∃ m : PageMove, m = ⟨page, h, destOf dest.val port 0, true, false, 0, false, false, none, none⟩ := ⟨_, rfl⟩
  have hask : after (each [(page, destOf dest.val port 0)] fun q => askMove q.1 h q.2 true false none) (fetched c s) =
      after (one (.moves [m])) (fetched c s) := by
    rw [after_each_cons, askMove, after_look, moves_fetched hmoves c, hm]
    rfl
  have hasked : askedMoves (after (each [(page, destOf dest.val port 0)] fun q => askMove q.1 h q.2 true false none) (fetched c s)) h = 1 := by
    rw [hask, askedMoves, hm]
    simp
  obtain ⟨a, ha⟩ : ∃ a, a = seq [one (.moves [m]), setHerd h fun y => { y with mig := some ⟨.host c, 1, 0⟩ }] := ⟨_, rfl⟩
  have hw : Within [.moves, .herd] a := ha ▸ within_seq_cons (within_one rfl) (within_seq_cons ((within_setHerd ..).wider rfl) within_seq_nil)
  refine does_begun hw (hw.keepsReg _) hs (act := actMove c page 1 dest.val port) rfl ?_ ?_
  · rw [actMove, after_migRequest hr, runOk_move hpage hdest hport,
      after_migServe_begun (tableIs_fetched hp c).plain hbody hasked (by decide), hask, ha, after_seq_cons, after_seq_cons, after_seq_nil]
    rfl
  · have hwm : Within [.moves] (one (.moves [m])) := within_one rfl
    rw [ha, after_seq_cons, after_seq_cons, after_seq_nil]
    refine ⟨?_, herdOf_after_setHerd (by rw [hwm.herdOf, herdOf_fetched, hr.2.2.2.2.1]) _⟩
    rw [(within_setHerd ..).moves, hm]
    rfl

end

/-! ## A move starts -/

section
variable {s : State} (hp : Plain s) {m : PageMove} (hpage : m.page < 2 ^ 26) (far : Bool) (home : Nat)
include hp

theorem after_startMove : after (startMove m far home) s = after setMigStat (after (act (!far) (bumpFree (-1)))
    (after (setEntry m.page (Machine.setBit (homeEntry s m.page) 61 true)) (after (one (.moveTurn m.herd))
      (after (one (.moves (setMove m { m with started := true, far := far, home := home } s.moves))) s)))) := by
  rw [startMove, after_look]
  iterate 6 rw [after_seq_cons]
  rw [after_seq_nil, after_entryRead_clean (hp.entryClean _)]

include hpage

theorem started_startMove : let t := after (startMove m far home) s
    OnlyIn [.ctl, .mem, .moves, .moveTurn] s t ∧ t.moves = setMove m { m with started := true, far := far, home := home } s.moves ∧
    t.moveTurn = m.herd ∧ homeEntry t m.page = Machine.setBit (homeEntry s m.page) 61 true ∧ OtherPages s t m.page ∧
    (far = false → 0 < freeFrames s → freeFrames t = freeFrames s - 1) := by
  obtain ⟨u1, hu1⟩ : ∃ u, u = after (one (.moves (setMove m { m with started := true, far := far, home := home } s.moves))) s := ⟨_, rfl⟩
  obtain ⟨u2, hu2⟩ : ∃ u, u = after (one (.moveTurn m.herd)) u1 := ⟨_, rfl⟩
  obtain ⟨u3, hu3⟩ : ∃ u, u = after (setEntry m.page (Machine.setBit (homeEntry s m.page) 61 true)) u2 := ⟨_, rfl⟩
  obtain ⟨u4, hu4⟩ : ∃ u, u = after (act (!far) (bumpFree (-1))) u3 := ⟨_, rfl⟩
  have hw1 : Within [.moves] (one (.moves (setMove m { m with started := true, far := far, home := home } s.moves))) := within_one rfl
  have hw2 : Within [.moveTurn] (one (.moveTurn m.herd)) := within_one rfl
  have hw4 : Within [.ctl] (act (!far) (bumpFree (-1))) := within_act (within_bumpFree _)
  have ht2 : TableIs u2 (rsvBase s) (homeEntry s) := hu2 ▸ hu1 ▸ ((tableIs_self hp).aside (sameTable_aside hw1 s)).aside (sameTable_aside hw2 _)
  have ht3 := hu3 ▸ ht2.set hpage (Machine.setBit (homeEntry s m.page) 61 true)
  have h1 : OnlyIn [.moves] s u1 := hu1 ▸ hw1.onlyIn s
  have h2 : OnlyIn [.moveTurn] u1 u2 := hu2 ▸ hw2.onlyIn u1
  have h3 : OnlyIn [.ctl, .mem] u2 u3 := hu3 ▸ onlyIn_setEntry ht2.plain m.page _
  have h4 : OnlyIn [.ctl] u3 u4 := hu4 ▸ hw4.onlyIn u3
  have h5 : OnlyIn [.ctl] u4 (after setMigStat u4) := within_setMigStat.onlyIn u4
  have hrest : OnlyIn [.ctl, .mem] u2 (after setMigStat u4) := (h3.trans (h4.wider rfl)).trans (h5.wider rfl)
  have ht4 : TableIs u4 (rsvBase s) _ := ht3.aside (u := u4) (by
    rw [hu4, after_act]
    split
    · exact sameTable_bumpFree ..
    · exact SameTable.refl _)
  have ht5 := ht4.aside (sameTable_setMigStat u4)
  intro t
  have ht : t = after setMigStat u4 := by rw [hu4, hu3, hu2, hu1]; exact after_startMove hp far home
  rw [ht]
  refine ⟨(((h1.wider rfl).trans (h2.wider rfl)).trans (hrest.wider rfl)), ?_, ?_, ?_, fun q hq hne => ?_, fun hfar hpos => ?_⟩
  · have e1 : (after setMigStat u4).moves = u2.moves := hrest .moves rfl
    have e2 : u2.moves = u1.moves := h2 .moves rfl
    rw [e1, e2, hu1]
    rfl
  · have e1 : (after setMigStat u4).moveTurn = u2.moveTurn := hrest .moveTurn rfl
    rw [e1, hu2]
    rfl
  · rw [ht5.entry _ hpage, Function.update_self]
  · rw [ht5.entry q hq, Function.update_of_ne hne]
  · have hlt : (rd s (migPage 0 + 0x108)).toNat < 2 ^ 32 := (rd s (migPage 0 + 0x108)).isLt
    rw [freeFrames] at hpos
    rw [freeFrames, (keepsReg_setMigStat (by decide)).eq, hu4, hfar, after_act, if_pos (by decide), freeFrames_after_bumpFree, freeFrames, hu3,
      rd_after_setEntry_beside ht2.plain beside_free, hu2, (hw2.keepsReg _).eq, hu1, (hw1.keepsReg _).eq, ofInt_sub_one hpos hlt, freeFrames]

end

section
variable {s : State} (hs : Ready s) {m : PageMove} (hnext : nextMove s = some m) (hfew : movesNow s < 16) (hfence : fenced s (migPage 0) = false)
  (hpage : m.page < 2 ^ 26) (hvalid : eValid (homeEntry s m.page) = true) (hherd : eHerd (homeEntry s m.page) = m.herd)
  (hhome : homedAt (homeEntry s m.page) m.dest = false) (hpin : m.setPinned = false ∨ eFar (homeEntry s m.page) = true) (hp : Plain s)
include hs hnext hfew hfence hpage hvalid hherd hhome hpin hp

theorem does_pageMove_device {n f : Nat} (hdest : m.dest = some n) (hroom : eFar (homeEntry s m.page) = false ∨ eShared (homeEntry s m.page) = true ∨
    quotaRoom s m.herd = true) (hfree : freeFrame s n = some f) :
    Does .pageMove s [.ctl, .mem, .moves, .moveTurn] fun t => t.moves = setMove m { m with started := true, far := false, home := f } s.moves ∧
      t.moveTurn = m.herd ∧ homeEntry t m.page = Machine.setBit (homeEntry s m.page) 61 true ∧ OtherPages s t m.page ∧
      (0 < freeFrames s → freeFrames t = freeFrames s - 1) := by
  have hbody : after actPageMove s = after (startMove m false f) s := by
    have hno : (eFar (homeEntry s m.page) && !eShared (homeEntry s m.page) && !quotaRoom s m.herd) = false := by
      rcases hroom with h | h | h <;> rw [h] <;> simp
    have hstay : (homedAt (homeEntry s m.page) m.dest || m.setPinned && !eFar (homeEntry s m.page)) = false := by
      rw [hhome]
      rcases hpin with h | h <;> rw [h] <;> simp
    rw [actPageMove, after_look, hnext]
    dsimp only
    rw [hfence, decide_eq_false (by omega), if_neg (by decide), hvalid, hherd, if_neg (by simp), hstay, if_neg Bool.false_ne_true, hdest]
    dsimp only
    rw [hno, if_neg Bool.false_ne_true, hfree]
  obtain ⟨honly, hmoves, hturn, hentry, hother, hcount⟩ := started_startMove hp hpage false f
  refine does_of_run hs.1 (a := actPageMove) rfl ?_ ?_ <;> rw [hbody]
  · exact honly
  · exact ⟨hmoves, hturn, hentry, hother, hcount rfl⟩

theorem does_pageMove_far {f : Nat} (hdest : m.dest = none) (hmay : ePinned (homeEntry s m.page) = false ∨ m.explicit_ = true)
    (hshared : eShared (homeEntry s m.page) = false ∨ m.explicit_ = true) (hfree : freeFar s m.herd = some f) :
    Does .pageMove s [.ctl, .mem, .moves, .moveTurn] fun t => t.moves = setMove m { m with started := true, far := true, home := f } s.moves ∧
      t.moveTurn = m.herd ∧ homeEntry t m.page = Machine.setBit (homeEntry s m.page) 61 true ∧ OtherPages s t m.page := by
  have hbody : after actPageMove s = after (startMove m true f) s := by
    have hno : ((ePinned (homeEntry s m.page) || eShared (homeEntry s m.page)) && !m.explicit_) = false := by
      rcases hmay with h | h
      · rcases hshared with g | g <;> rw [g]
        · rw [h]
          rfl
        · simp
      · rw [h]
        simp
    have hstay : (homedAt (homeEntry s m.page) m.dest || m.setPinned && !eFar (homeEntry s m.page)) = false := by
      rw [hhome]
      rcases hpin with h | h <;> rw [h] <;> simp
    rw [actPageMove, after_look, hnext]
    dsimp only
    rw [hfence, decide_eq_false (by omega), if_neg (by decide), hvalid, hherd, if_neg (by simp), hstay, if_neg Bool.false_ne_true, hdest]
    dsimp only
    rw [hno, if_neg Bool.false_ne_true, hfree]
  obtain ⟨honly, hmoves, hturn, hentry, hother, -⟩ := started_startMove hp hpage true f
  refine does_of_run hs.1 (a := actPageMove) rfl ?_ ?_ <;> rw [hbody]
  · exact honly
  · exact ⟨hmoves, hturn, hentry, hother⟩

end

end Sys2Proof.Machine
end

section
/-! A page's copy to its new frame, and the move's end (R362 to R364); O36. -/

namespace Sys2Proof.Machine

-- One declaration after the other: elaborated side by side they take more memory than the check has.
set_option Elab.async false

/-! ## Whole blocks in an error-free device -/

theorem Plain.readBlk {s : State} (h : Plain s) (b : Nat) : readBlk s b = some (rawData s (heldAt s b)) := by
  rw [readBlk_unmerged (h.mergeOf b), decodeBlk_clean (h.clean b) (verdictAt_plain h.chk ..)]

theorem chk_after_zeros {s : State} (h : s.chk = []) (q : Nat) :
    (after (each ((([0, 0, 0, 0] : List Byte).take 4).zipIdx) fun p => one (.chk (4 * q + p.2) p.1)) s).chk = [] := by
  refine after_each_keeps (P := fun u => u.chk = []) _ _ (fun p hp u hu => ?_) s h
  have hz : p.1 = 0 := by
    have := List.mem_zipIdx_iff_getElem?.mp hp
    have hin := List.mem_of_getElem? this
    simpa using hin
  change mSet u.chk (4 * q + p.2) p.1 0 = []
  rw [hu, hz]
  rfl

/-- A block of an error-free device written whole: its bytes are the data's, and nothing else changes but counts. -/
structure BlockPut (s t : State) (q : Nat) (data : List Byte) : Prop where
  plain : Plain t
  hold : SameHold s t
  only : OnlyIn [.ctl, .mem, .chk] s t
  byte : ∀ x, memByte t x = if x / 64 = q then data.getD (x - 64 * q) 0 else memByte s x
  beside : ∀ x, Beside x → rd t x = rd s x

theorem sameHold_clearPoison (b : Nat) (s : State) : SameHold s (after (clearPoison b s) s) ∧
    ∀ n < 24, ∀ e < 64, bit (rd (after (clearPoison b s) s) (remapReg n e)) 30 = true → bit (rd s (remapReg n e)) 30 = true := by
  rw [clearPoison]
  cases hk : remapOf s (blkPort b) (blkLocal b) with
  | none => exact ⟨SameHold.refl s, fun _ _ _ _ h => h⟩
  | some k =>
    have hk64 := remapOf_lt hk
    have hreg (n e : Nat) (he : e < 64) : rd (after (wrBit (remapReg (blkPort b) k) 30 false) s) (remapReg n e) =
        if n = blkPort b ∧ e = k then Machine.setBit (rd s (remapReg n e)) 30 false else rd s (remapReg n e) := by
      by_cases hc : n = blkPort b ∧ e = k
      · rw [if_pos hc, hc.1, hc.2, after_wrBit, rd_ctl_same]
      · rw [if_neg hc, (keepsReg_wrBit (fun hx => hc (remapReg_eq he hk64 hx)) ..).eq]
    refine ⟨⟨(within_wrBit ..).straps s, fun n _ => ?_, fun n _ e he => ?_⟩, fun n _ e he h => ?_⟩
    · rw [(keepsReg_wrBit (remapReg_ne_number _ _ hk64) ..).eq]
    · rw [hreg n e he]
      split
      · exact ⟨bit_setBit_other _ (by decide) (by decide) _, fld_setBit_other _ (by decide) (by decide) _⟩
      · exact ⟨rfl, rfl⟩
    · rw [hreg n e he] at h
      split at h
      · rw [bit_setBit_same _ (by decide)] at h
        cases h
      · exact h

theorem blockPut_portWrite {s : State} (h : Plain s) (b : Nat) {data : List Byte} (hdata : data.length = 64) :
    BlockPut s (after (portWrite b data) s) (heldAt s b) data := by
  have hdrop : after (dropFor b) s = s := by rw [dropFor, after_look, h.mergeOf]; rfl
  obtain ⟨u, hu⟩ : ∃ u, u = after (putRaw (heldAt s b) data [0, 0, 0, 0]) s := ⟨_, rfl⟩
  have hput : Within [.mem, .chk] (putRaw (heldAt s b) data [0, 0, 0, 0]) := within_putRaw ..
  have huonly : OnlyIn [.mem, .chk] s u := hu ▸ hput.onlyIn s
  have hctl : u.ctl = s.ctl := huonly .ctl rfl
  have hwrite : after (portWrite b data) s = after (count (mpPage (blkPort b)) 1 1) (after (clearPoison b u) u) := by
    rw [portWrite, after_seq_cons, hdrop, after_seq_cons, after_seq_nil, after_storeBlk, ← hu, clearPoison_of_ctl hctl]
  obtain ⟨hhold, hbits⟩ := sameHold_clearPoison b u
  have hu0 : SameHold s u := SameHold.of_regs (huonly .straps rfl) fun _ _ _ _ => by rw [rd, hctl, ← rd]
  have hclear := within_clearPoison b u
  have hcount : Within [.ctl] (count (mpPage (blkPort b)) 1 1) := within_count ..
  obtain ⟨v, hv⟩ : ∃ v, v = after (clearPoison b u) u := ⟨_, rfl⟩
  rw [← hv] at hwrite hhold hbits
  have hvw : SameHold v (after (count (mpPage (blkPort b)) 1 1) v) := SameHold.of_regs (hcount.straps v) fun _ _ x hx =>
    ((portReg_above hx).count (mpPage_mod _) (by decide) 1).eq v
  have hchk : u.chk = [] := by
    rw [hu, putRaw, after_seq_cons, after_seq_cons, after_seq_nil]
    refine chk_after_zeros ?_ _
    rw [(within_memPut ..).chk, h.chk]
  rw [hwrite]
  refine ⟨⟨?_, ?_, fun a => ?_⟩, (hu0.trans hhold).trans hvw, ?_, fun x => ?_, fun x hx => ?_⟩
  · rw [hcount.chk, hv, hclear.chk, hchk]
  · have hm : u.mergeBuf = s.mergeBuf := huonly .mergeBuf rfl
    rw [hcount.mergeBuf, hv, hclear.mergeBuf, hm, h.mergeBuf]
  · refine poisoned_of_bits ((hu0.trans hhold).trans hvw) (fun n hn e he hb => ?_) a (h.clean a)
    rw [((portReg_above (portReg_remap n he)).count (mpPage_mod _) (by decide) 1).eq] at hb
    have := hbits n hn e he hb
    rwa [rd, hctl, ← rd] at this
  · have h2 : OnlyIn [.ctl] u v := hv ▸ hclear.onlyIn u
    exact ((huonly.wider rfl).trans (h2.wider rfl)).trans ((hcount.onlyIn v).wider rfl)
  · rw [memByte, hcount.memory, hv, hclear.memory, ← memByte, hu, memByte_after_putRaw s _ hdata]
  · have hm : mpPage (blkPort b) ∈ (List.range 24).map mpPage := List.mem_map_of_mem (List.mem_range.mpr (blkPort_lt _))
    have hcl : KeepsReg x (clearPoison b u) := by
      rw [clearPoison]
      split
      case h_1 e he =>
        have hne : x ≠ mpPage (blkPort b) + (0x200 + 4 * e) := ne_of_page hx (mpPage_mod _) (by have := remapOf_lt he; omega) hm
        exact keepsReg_wrBit (by unfold remapReg; omega) ..
      case h_2 => exact keeps_nop
    rw [(writesIn_count (mpPage_mod _) (by decide) hm 1 x hx).eq, hv, hcl.eq, rd, hctl, ← rd]

/-! ## A frame is copied block by block -/

/-- The device stays free of errors, blocks are held where they were, and no register outside the ports' pages changes. -/
structure StillPlain (s t : State) : Prop where
  plain : Plain t
  hold : SameHold s t
  only : OnlyIn [.ctl, .mem, .chk] s t
  beside : ∀ x, Beside x → rd t x = rd s x

theorem StillPlain.refl {s : State} (h : Plain s) : StillPlain s s := ⟨h, SameHold.refl s, onlyIn_refl _ s, fun _ _ => rfl⟩

theorem StillPlain.put {s t u : State} {q : Nat} {data : List Byte} (h : StillPlain s t) (g : BlockPut t u q data) : StillPlain s u :=
  ⟨g.plain, h.hold.trans g.hold, h.only.trans g.only, fun x hx => (g.beside x hx).trans (h.beside x hx)⟩

theorem after_portRead_plain {s : State} (h : Plain s) (b : Nat) (src : Src) (herd : Option Nat) :
    after (portRead b src herd []) s = after (count (mpPage (blkPort b)) 0 1) s := by
  have hsame : SameTable s (after (count (mpPage (blkPort b)) 0 1) s) :=
    ⟨fun _ _ x hx => ((portReg_above hx).count (mpPage_mod _) (by decide) 1).eq s, (within_count ..).straps s, (within_count ..).memory s,
      (within_count ..).chk s, (within_count ..).mergeBuf s⟩
  have hp := h.sameTable hsame
  rw [after_portRead (h.mergeOf b), after_readDecode_clean _ _ ⟨verdictAt_plain hp.chk .., hp.clean b⟩]

theorem after_copyReads {s : State} (h : Plain s) {e : DWord} (he : eFar e = false) (herd : Nat) :
    StillPlain s (after (copyReads e herd) s) ∧ (after (copyReads e herd) s).mem = s.mem := by
  rw [copyReads, he, after_act, if_pos (by decide)]
  refine after_each_keeps (P := fun u => StillPlain s u ∧ u.mem = s.mem) _ _ (fun j _ u ⟨hu, hm⟩ => ?_) s ⟨.refl h, rfl⟩
  have hw : Within [.ctl] (count (mpPage (blkPort (1024 * eHome e + j))) 0 1) := within_count ..
  have hpage : mpPage (blkPort (1024 * eHome e + j)) ∈ (List.range 24).map mpPage := List.mem_map_of_mem (List.mem_range.mpr (blkPort_lt _))
  rw [after_portRead_plain hu.plain]
  have hsame : SameTable u (after (count (mpPage (blkPort (1024 * eHome e + j))) 0 1) u) :=
    ⟨fun _ _ x hx => ((portReg_above hx).count (mpPage_mod _) (by decide) 1).eq u, hw.straps u, hw.memory u, hw.chk u, hw.mergeBuf u⟩
  exact ⟨⟨hu.plain.sameTable hsame, hu.hold.trans hsame.hold, hu.only.trans ((hw.onlyIn u).wider rfl), fun x hx =>
    ((writesIn_count (mpPage_mod _) (by decide) hpage 1 x hx).eq u).trans (hu.beside x hx)⟩, (hw.memory u).trans hm⟩

section
variable {s : State} (hp : Plain s) {home : Nat} {data : Nat → List Byte} (hdata : ∀ j, (data j).length = 64)
include hp hdata

theorem stillPlain_copy : StillPlain s (after (each (List.range 1024) fun j => portWrite (1024 * home + j) (data j)) s) :=
  after_each_keeps (P := StillPlain s) _ _ (fun j _ _ hu => hu.put (blockPut_portWrite hu.plain _ (hdata j))) s (.refl hp)

theorem memByte_after_copy_other {x : Nat} (hx : ∀ j < 1024, x / 64 ≠ heldAt s (1024 * home + j)) :
    memByte (after (each (List.range 1024) fun j => portWrite (1024 * home + j) (data j)) s) x = memByte s x := by
  refine (after_each_keeps (P := fun u => StillPlain s u ∧ memByte u x = memByte s x) _ _ (fun j hj u ⟨hu, hm⟩ => ?_) s ⟨.refl hp, rfl⟩).2
  have hput := blockPut_portWrite hu.plain (1024 * home + j) (hdata j)
  refine ⟨hu.put hput, ?_⟩
  rw [hput.byte, hu.hold.heldAt, if_neg (hx j (List.mem_range.mp hj)), hm]

/-- Every block of the frame holds what was written. -/
theorem rawData_after_copy (hhome : home < rsvBase s) {j : Nat} (hj : j < 1024) :
    rawData (after (each (List.range 1024) fun j => portWrite (1024 * home + j) (data j)) s) (heldAt s (1024 * home + j)) = data j := by
  have hun (i : Nat) (hi : i < 1024) : Unspared s (1024 * home + i) := unspared_of_lt (by omega)
  refine after_each_sets_of (P := StillPlain s) (f := fun u => rawData u (heldAt s (1024 * home + j))) (List.mem_range.mpr hj)
    (fun i u hu => hu.put (blockPut_portWrite hu.plain _ (hdata i))) (fun u hu => ?_) (fun i hi => ?_) (.refl hp)
  · have hput := blockPut_portWrite hu.plain (1024 * home + j) (hdata j)
    rw [hu.hold.heldAt] at hput
    rw [rawData, memBytes]
    refine (List.map_congr_left fun i hi => ?_).trans (map_range_getD (hdata j) 0)
    have := List.mem_range.mp hi
    rw [hput.byte, if_pos (by omega), Nat.add_sub_cancel_left]
  · have hi := List.mem_range.mp hi
    by_cases hij : i = j
    · refine .inl fun u hu => ?_
      have hput := blockPut_portWrite hu.plain (1024 * home + j) (hdata j)
      rw [hu.hold.heldAt] at hput
      rw [hij, rawData, memBytes]
      refine (List.map_congr_left fun k hk => ?_).trans (map_range_getD (hdata j) 0)
      have := List.mem_range.mp hk
      rw [hput.byte, if_pos (by omega), Nat.add_sub_cancel_left]
    · refine .inr fun u hu => ?_
      have hput := blockPut_portWrite hu.plain (1024 * home + i) (hdata i)
      have hne : heldAt s (1024 * home + j) ≠ heldAt s (1024 * home + i) := fun he => hij (by
        have := heldAt_inj (hun j hj) (hun i hi) he
        omega)
      rw [hu.hold.heldAt] at hput
      rw [rawData, memBytes, rawData, memBytes]
      refine List.map_congr_left fun k hk => ?_
      have := List.mem_range.mp hk
      rw [hput.byte, if_neg (by omega)]

end

/-! ## The move's end -/

/-- The entry of a page that has moved to a frame. -/
def movedEntry (e : DWord) (home touch : Nat) : DWord :=
  Machine.setBit (setFld (setFld (Machine.setBit (Machine.setBit e 61 false) 62 false) 41 16 home) 15 0 touch) 60 (ePinned e)

theorem movedEntry_fields (e : DWord) {home : Nat} (touch : Nat) (h : home < 2 ^ 26) : eMoving (movedEntry e home touch) = false ∧
    eValid (movedEntry e home touch) = eValid e ∧ eFar (movedEntry e home touch) = false ∧ eHome (movedEntry e home touch) = home := by
  refine ⟨?_, ?_, ?_, ?_⟩
  · rw [eMoving, movedEntry, bit_setBit_other _ (by decide) (by decide), bit_setFld_other _ (by decide) (by decide) (.inr (by decide)),
      bit_setFld_other _ (by decide) (by decide) (.inr (by decide)), bit_setBit_other _ (by decide) (by decide), bit_setBit_same _ (by decide)]
  · rw [eValid, movedEntry, bit_setBit_other _ (by decide) (by decide), bit_setFld_other _ (by decide) (by decide) (.inr (by decide)),
      bit_setFld_other _ (by decide) (by decide) (.inr (by decide)), bit_setBit_other _ (by decide) (by decide),
      bit_setBit_other _ (by decide) (by decide), eValid]
  · rw [eFar, movedEntry, bit_setBit_other _ (by decide) (by decide), bit_setFld_other _ (by decide) (by decide) (.inr (by decide)),
      bit_setFld_other _ (by decide) (by decide) (.inr (by decide)), bit_setBit_same _ (by decide)]
  · rw [eHome, movedEntry, fld_setBit_other _ (by decide) (.inl (by decide)), fld_setFld_other _ (by decide) (by decide) (.inr (by decide)),
      fld_setFld _ (by decide) (by decide)]
    exact Nat.mod_eq_of_lt h

theorem rsvBase_lt (s : State) : rsvBase s < 2 ^ 26 := by
  rw [rsvBase]
  split <;> decide

section
variable {s : State} (hs : Ready s) {p : Nat} {m : PageMove} (hfind : s.moves.find? (fun m => m.started && decide (m.page = p)) = some m)
  (hpage : p < 2 ^ 26) (hfar : m.far = false) (hpin : m.setPinned = false) (hexpl : m.explicit_ = false) (hafter : m.after = none)
  (hdev : eFar (homeEntry s p) = false) (hshared : eShared (homeEntry s p) = false) (hold : eHome (homeEntry s p) < rsvBase s)
  (hnew : m.home < rsvBase s) (hne : m.home ≠ eHome (homeEntry s p)) (hp : Plain s)

/-- The copy of a page's blocks to its new frame. -/
def copyBlocks (s : State) (e : DWord) (home : Nat) : Act :=
  each (List.range 1024) fun j => portWrite (1024 * home + j) ((readBlk s (1024 * eHome e + j)).getD [])

/-- What follows the copy: the entry, the old frame, the accounts, and the move's record. -/
def moveRest (p : Nat) (m : PageMove) (e d : DWord) : Act :=
  seq [setEntry p d, releaseHome e, act (!eShared e) (moveCharge m.herd (!eFar e) (!m.far) (ePinned e) (ePinned e || m.setPinned)),
    act (decide (eFar e ≠ m.far) || !m.far) (count (migPage 0) (moveSlot e m.far) 1),
    act (!m.far) (match m.entry with
      | some i => setPf m.herd i (fun x => { x with moved := x.moved ++ [p] })
      | none => nop)]

include hdev hp

theorem copyable_plain : copyable s (homeEntry s p) = true := by
  rw [copyable, hdev, if_neg Bool.false_ne_true]
  exact List.all_eq_true.mpr fun j _ => by rw [hp.readBlk]; rfl

include hfind hfar hpin hafter

theorem after_actPageMoveDone : ∃ u, StillPlain s u ∧ u.mem = s.mem ∧ after (actPageMoveDone p) s =
    after (dropMove m true) (after (moveRest p m (homeEntry s p) (movedEntry (homeEntry s p) m.home (touchNow s)))
      (after (copyBlocks u (homeEntry s p) m.home) u)) := by
  obtain ⟨hu, hmem⟩ := after_copyReads hp hdev m.herd
  refine ⟨_, hu, hmem, ?_⟩
  have hcopy (u : State) : copyHome u (homeEntry s p) m.far m.home = copyBlocks u (homeEntry s p) m.home := by
    rw [copyHome, hdev, if_neg Bool.false_ne_true, hfar]
    rfl
  have hmoved (u : State) : after (moveAfter m) u = u := by
    rw [moveAfter, after_look, after_act, hafter]
    split <;> rfl
  rw [actPageMoveDone, after_look, hfind]
  dsimp only
  rw [copyable_plain hdev hp, if_pos rfl, after_seq_cons, after_seq_cons, after_seq_cons, after_seq_nil, hmoved, after_seq_cons, after_seq_cons, after_look,
    hcopy, hpin, hfar, Bool.or_false, if_neg Bool.false_ne_true, moveRest, hpin, hfar, Bool.or_false]
  rfl

end

end Sys2Proof.Machine
end

section
/-! Settles O36: the moves of pages. -/

namespace Sys2Proof.Machine

-- One declaration after the other: elaborated side by side they take more memory than the check has.
set_option Elab.async false

/-! ## Blocks beside an entry and beside a zeroed frame -/

section
variable {s : State} (h : Plain s) {b : Nat} (hb : b / 1024 < rsvBase s)
include h hb

theorem rawData_after_setEntry {p : Nat} (hp : p < 2 ^ 26) (e : DWord) :
    rawData (after (setEntry p e) s) (heldAt s b) = rawData s (heldAt s b) := by
  have hbase : homeBase s = 65536 * rsvBase s := rfl
  have hne : heldAt s b ≠ heldAt s ((homeBase s + 8 * p) / 64) := fun he => by
    have := heldAt_inj (unspared_of_lt (by omega)) (unspared_table s hp) he
    omega
  rw [rawData, memBytes, rawData, memBytes]
  refine List.map_congr_left fun k hk => ?_
  have := List.mem_range.mp hk
  rw [memByte_after_setEntry h, if_neg (by unfold entryAt; omega)]

theorem rawData_after_zeroFrame {f : Nat} (hf : f < rsvBase s) (hne : b / 1024 ≠ f) :
    rawData (after (zeroFrame f) s) (heldAt s b) = rawData s (heldAt s b) := by
  rw [rawData, memBytes, rawData, memBytes]
  refine List.map_congr_left fun k hk => ?_
  have := List.mem_range.mp hk
  exact memByte_after_zeroFrame_held h hf (unspared_of_lt (by omega)) hne (by omega)

end

/-- The table survives the copy of a page to a usable frame. -/
theorem TableIs.copied {s : State} {n : Nat} {g : Nat → DWord} (ht : TableIs s n g) {home : Nat} (hhome : home < n) {data : Nat → List Byte}
    (hdata : ∀ j, (data j).length = 64) : TableIs (after (each (List.range 1024) fun j => portWrite (1024 * home + j) (data j)) s) n g := by
  have hcopy := stillPlain_copy ht.plain (home := home) hdata
  refine ⟨hcopy.plain, hcopy.hold.rsvBase.trans ht.base, fun p hp => ?_⟩
  have hbase : homeBase s = 65536 * rsvBase s := rfl
  have hbn := ht.base
  rw [hcopy.plain.homeEntry, hcopy.hold.entryAt, ← ht.entry p hp, ht.plain.homeEntry]
  refine memWord_congr fun i hi => memByte_after_copy_other ht.plain hdata fun j hj => ?_
  have hat : (entryAt s p + i) / 64 = heldAt s ((homeBase s + 8 * p) / 64) := by
    unfold entryAt
    omega
  rw [hat]
  intro he
  have := heldAt_inj (unspared_table s hp) (unspared_of_lt (by omega)) he
  omega

/-! ## After the copy -/

theorem moveCharge_stays (h : Nat) (pinned : Bool) (s : State) : after (moveCharge h true true pinned pinned) s = s := by
  rw [moveCharge, after_seq_cons, after_seq_cons, after_seq_nil, after_act, after_act]
  cases pinned <;> rfl

section
variable {s : State} {n : Nat} {g : Nat → DWord} (ht : TableIs s n g) {p : Nat} (hpage : p < 2 ^ 26) {m : PageMove} {e : DWord} (d : DWord)
  (hfar : m.far = false) (hpin : m.setPinned = false) (hdev : eFar e = false) (hold : eHome e < n)

/-- The accounts of the move's end: the moved pages' count and the schedule's entry. -/
def moveAccounts (p : Nat) (m : PageMove) (e : DWord) : Act :=
  seq [count (migPage 0) (moveSlot e false) 1,
    (match m.entry with
      | some i => setPf m.herd i (fun x => { x with moved := x.moved ++ [p] })
      | none => nop)]

theorem within_moveAccounts : Within [.ctl, .herd] (moveAccounts p m e) := by
  refine within_seq_cons ((within_count ..).wider rfl) (within_seq_cons ?_ within_seq_nil)
  split
  · exact (within_setPf ..).wider rfl
  · exact within_nop

theorem sameTable_moveAccounts (s : State) : SameTable s (after (moveAccounts p m e) s) := by
  refine sameTable_act within_moveAccounts (fun x hx => keeps_seq_cons (keepsReg_count ?_ ?_ ?_ 1) (keeps_seq_cons ?_ keeps_seq_nil)) s
  iterate 3 (have hm : migPage 0 = 0x140000 := rfl; omega)
  split
  · exact (within_setPf ..).keepsReg x
  · exact keeps_nop

include hfar hpin hdev

theorem after_moveRest (s : State) : after (moveRest p m e d) s =
    after (moveAccounts p m e) (after (releaseHome e) (after (setEntry p d) s)) := by
  rw [moveRest, hpin, hfar, hdev, Bool.or_false]
  iterate 5 rw [after_seq_cons]
  rw [after_seq_nil, moveAccounts, after_seq_cons, after_seq_cons, after_seq_nil, after_act (!eShared e)]
  have hsame (t : State) : (if (!eShared e) = true then after (moveCharge m.herd (!false) (!false) (ePinned e) (ePinned e)) t else t) = t := by
    split
    · exact moveCharge_stays ..
    · rfl
  rw [hsame]
  rfl

include ht hold in
theorem after_moveRest_table (hpage : p < 2 ^ 26) : TableIs (after (moveRest p m e d) s) n (Function.update g p d) ∧
    OnlyIn [.ctl, .mem, .chk, .mergeBuf, .herd] s (after (moveRest p m e d) s) ∧
    (∀ a, a / 65536 = eHome e → memByte (after (moveRest p m e d) s) a = 0) ∧
    ∀ b, b / 1024 < n → b / 1024 ≠ eHome e → heldAt (after (moveRest p m e d) s) b = heldAt s b ∧
      rawData (after (moveRest p m e d) s) (heldAt s b) = rawData s (heldAt s b) := by
  rw [after_moveRest d hfar hpin hdev, releaseHome, hdev, if_neg Bool.false_ne_true, after_seq_cons, after_seq_cons, after_seq_nil]
  have ht1 := ht.set hpage d
  have h1 : OnlyIn [.ctl, .mem] s (after (setEntry p d) s) := onlyIn_setEntry ht.plain p d
  have hs1 := sameHold_setEntry ht.plain p d
  have hblk (b : Nat) (hb : b / 1024 < n) := rawData_after_setEntry ht.plain (b := b) (by rw [ht.base]; exact hb) hpage d
  obtain ⟨u, hu⟩ : ∃ u, u = after (setEntry p d) s := ⟨_, rfl⟩
  rw [← hu] at ht1 h1 hs1 ⊢
  have hz := zeroing_zeroFrame ht1.plain (eHome e)
  have ht2 := ht1.zero hold
  obtain ⟨v, hv⟩ : ∃ v, v = after (zeroFrame (eHome e)) u := ⟨_, rfl⟩
  have hzero (a : Nat) (ha : a / 65536 = eHome e) : memByte v a = 0 := by rw [hv, memByte_zeroed ht1.plain ha]
  have hkept (b : Nat) (hb : b / 1024 < n) (hne : b / 1024 ≠ eHome e) : rawData v (heldAt s b) = rawData s (heldAt s b) := by
    rw [hv, ← hs1.heldAt, rawData_after_zeroFrame ht1.plain (by rw [ht1.base]; exact hb) (by rw [ht1.base]; exact hold) hne, hs1.heldAt, hu, hblk b hb]
  rw [← hv] at hz ht2 ⊢
  have hs2 : SameTable v (after (moveAccounts p m e) (after (bumpFree 1) v)) := (sameTable_bumpFree 1 v).trans (sameTable_moveAccounts _)
  have h3 : OnlyIn [.ctl, .herd] v (after (moveAccounts p m e) (after (bumpFree 1) v)) :=
    (((within_bumpFree 1).wider rfl).onlyIn v).trans (within_moveAccounts.onlyIn _)
  have hmem (a : Nat) : memByte (after (moveAccounts p m e) (after (bumpFree 1) v)) a = memByte v a := by rw [memByte, memByte, hs2.mem]
  refine ⟨ht2.aside hs2, ((h1.wider rfl).trans (hz.only.wider rfl)).trans (h3.wider rfl), fun a ha => by rw [hmem, hzero a ha],
    fun b hb hne => ⟨by rw [hs2.hold.heldAt, hz.hold.heldAt, hs1.heldAt], ?_⟩⟩
  rw [← hkept b hb hne, rawData, rawData, memBytes, memBytes]
  exact List.map_congr_left fun _ _ => hmem _

end

/-! ## The move between frames ends -/

section
variable {s : State} (hs : Ready s) {p : Nat} {m : PageMove} (hfind : s.moves.find? (fun m => m.started && decide (m.page = p)) = some m)
  (hpage : p < 2 ^ 26) (hfar : m.far = false) (hpin : m.setPinned = false) (hexpl : m.explicit_ = false) (hafter : m.after = none)
  (hdev : eFar (homeEntry s p) = false) (hold : eHome (homeEntry s p) < rsvBase s)
  (hnew : m.home < rsvBase s) (hne : m.home ≠ eHome (homeEntry s p)) (hp : Plain s)

include hexpl in
theorem after_dropMove (s : State) : after (dropMove m true) s = after setMigStat (after (one (.moves (s.moves.erase m))) s) := by
  rw [dropMove, after_look, after_seq_cons, after_seq_cons, after_seq_cons, after_seq_nil, moveEnded, after_look, hexpl, after_act,
    if_neg Bool.false_ne_true]

include hs hfind hpage hfar hpin hexpl hafter hdev hold hnew hne hp

theorem does_pageMoveDone : Does (.pageMoveDone p) s [.ctl, .mem, .chk, .mergeBuf, .moves, .herd] fun t =>
    eMoving (homeEntry t p) = false ∧ eValid (homeEntry t p) = eValid (homeEntry s p) ∧ eFar (homeEntry t p) = false ∧
    eHome (homeEntry t p) = m.home ∧ OtherPages s t p ∧
    (∀ j < 1024, readBlk t (1024 * m.home + j) = readBlk s (1024 * eHome (homeEntry s p) + j)) ∧
    (∀ a, a / 65536 = eHome (homeEntry s p) → memByte t a = 0) ∧ t.moves = s.moves.erase m := by
  obtain ⟨u, hu, humem, hbody⟩ := after_actPageMoveDone hfind hfar hpin hafter hdev hp
  have htu : TableIs u (rsvBase s) (homeEntry s) := ⟨hu.plain, hu.hold.rsvBase, fun q _ => by
    rw [hu.plain.homeEntry, hp.homeEntry, hu.hold.entryAt]
    exact memWord_congr fun i _ => by rw [memByte, memByte, humem]⟩
  have hraw (b : Nat) : readBlk u b = readBlk s b := by
    rw [hu.plain.readBlk, hp.readBlk, hu.hold.heldAt, rawData, rawData, memBytes, memBytes]
    exact congrArg some (List.map_congr_left fun _ _ => by rw [memByte, memByte, humem])
  have hdata (j : Nat) : ((readBlk u (1024 * eHome (homeEntry s p) + j)).getD []).length = 64 := by
    rw [hu.plain.readBlk, Option.getD_some, length_rawData]
  have hcopy := stillPlain_copy hu.plain (home := m.home) hdata
  have htv := htu.copied hnew hdata
  have hblk (j : Nat) (hj : j < 1024) := rawData_after_copy hu.plain hdata (by rw [hu.hold.rsvBase]; exact hnew) hj
  rw [← copyBlocks] at hcopy htv
  obtain ⟨v, hv⟩ : ∃ v, v = after (copyBlocks u (homeEntry s p) m.home) u := ⟨_, rfl⟩
  rw [← hv] at hbody hcopy htv
  obtain ⟨htw, hwonly, hzero, hkept⟩ := after_moveRest_table htv (movedEntry (homeEntry s p) m.home (touchNow s)) hfar hpin hdev hold hpage
  obtain ⟨w, hw⟩ : ∃ w, w = after (moveRest p m (homeEntry s p) (movedEntry (homeEntry s p) m.home (touchNow s))) v := ⟨_, rfl⟩
  rw [← hw] at hbody htw hwonly hzero hkept
  have hwmove : Within [.moves] (one (.moves (w.moves.erase m))) := within_one rfl
  have hst : SameTable w (after (dropMove m true) w) := by
    rw [after_dropMove hexpl]
    exact (sameTable_aside hwmove w).trans (sameTable_setMigStat _)
  have hend : OnlyIn [.ctl, .moves] w (after (dropMove m true) w) := by
    rw [after_dropMove hexpl]
    exact ((hwmove.onlyIn w).wider rfl).trans ((within_setMigStat.onlyIn _).wider rfl)
  have htt := htw.aside hst
  have hmoved := movedEntry_fields (homeEntry s p) (touchNow s) (hnew.trans (rsvBase_lt s))
  have hdone : (after (dropMove m true) w).moves = w.moves.erase m := by
    rw [after_dropMove hexpl, within_setMigStat.moves]
    rfl
  have hmem (a : Nat) : memByte (after (dropMove m true) w) a = memByte w a := by rw [memByte, memByte, hst.mem]
  have hentry : homeEntry (after (dropMove m true) w) p = movedEntry (homeEntry s p) m.home (touchNow s) := by
    rw [htt.entry p hpage, Function.update_self]
  refine does_of_run hs.1 (a := actPageMoveDone p) rfl ?_ ?_ <;> rw [hbody]
  · exact (((hu.only.wider rfl).trans (hcopy.only.wider rfl)).trans (hwonly.wider rfl)).trans (hend.wider rfl)
  · rw [hentry]
    refine ⟨hmoved.1, hmoved.2.1, hmoved.2.2.1, hmoved.2.2.2, fun q hq hqp => ?_, fun j hj => ?_, fun a ha => ?_, ?_⟩
    · rw [htt.entry q hq, Function.update_of_ne hqp]
    · obtain ⟨hheld, hdata'⟩ := hkept (1024 * m.home + j) (by omega) (by omega)
      have hat : heldAt (after (dropMove m true) w) (1024 * m.home + j) = heldAt u (1024 * m.home + j) := by
        rw [hst.hold.heldAt, hheld, hcopy.hold.heldAt]
      have hin : rawData (after (dropMove m true) w) (heldAt u (1024 * m.home + j)) = rawData v (heldAt u (1024 * m.home + j)) := by
        rw [← hcopy.hold.heldAt, ← hdata', rawData, rawData, memBytes, memBytes]
        exact List.map_congr_left fun _ _ => hmem _
      have hgot := hblk j hj
      rw [hu.plain.readBlk, Option.getD_some, ← Option.some_inj, ← hu.plain.readBlk, hraw] at hgot
      rw [← hgot, htt.plain.readBlk, hat, hin, hv]
      rfl
    · rw [hmem, hzero a ha]
    · rw [hdone]
      have e1 : w.moves = v.moves := hwonly .moves rfl
      have e2 : v.moves = u.moves := hcopy.only .moves rfl
      have e3 : u.moves = s.moves := hu.only .moves rfl
      rw [e1, e2, e3]

end

/-- Settles O36: MOVE's two answers, the move's start, and its end, where the frame's blocks are copied before the old frame is zeroed. -/
theorem pagesMove : Obligations.PagesMove := by
  unfold Obligations.PagesMove
  refine ⟨⟨?_, ?_⟩, ?_⟩
  · intro s hs c h x page port dest hr hmoves he hm hpage hdest hport hvalid hherd
    have hp := plain_of_errorFree he hm
    exact ⟨fun hhome => does_move_here hs hr hmoves hp hpage hdest hport hvalid hherd hhome,
      fun hhome hpinned => does_move_queued hs hr hmoves hp hpage hdest hport hvalid hherd hhome hpinned⟩
  · intro s hs m hnext hfew hfence hpage hvalid hshared hherd hhome hpin he hm
    refine ⟨fun n f hdest hroom hfree => ?_, fun f hdest hmay hfree => ?_⟩
    · exact does_pageMove_device hs hnext hfew hfence hpage hvalid hherd hhome hpin (plain_of_errorFree he hm) hdest hroom hfree
    · exact does_pageMove_far hs hnext hfew hfence hpage hvalid hherd hhome hpin (plain_of_errorFree he hm) hdest hmay hshared hfree
  · intro s hs p m hfind hpage hfar hpin hexpl hafter hdev _ hold hnew hne he hm
    exact does_pageMoveDone hs hfind hpage hfar hpin hexpl hafter hdev hold hnew hne (plain_of_errorFree he hm)

end Sys2Proof.Machine
end

section
/-! Frames on the auxiliary ports, and reads of the store (R551, R570). -/

namespace Sys2Proof.Machine

-- One declaration after the other: elaborated side by side they take more memory than the check has.
set_option Elab.async false

/-! ## A frame of an auxiliary port (R459) -/

/-- The state in which a frame in order has its effect. -/
abbrev auxTaken (p type len : Nat) (s : State) : State :=
  after (seq [setBx p (fun x => { x with rxSeq := (x.rxSeq + 1) % 65536, asked := false }), count (bxPage p) 1 1,
    sendSym p 5 0 0 (BitVec.ofNat 64 (bxOf s p).rxSeq), returnCredit p type len]) s

theorem after_rxAux {s : State} {p : BxNo} (hup : AuxUp s p) (type len : Nat) (body : Act) :
    after (rxAux p.val type len body) s = after body (auxTaken p.val type len s) := by
  obtain ⟨hlink, haux⟩ := hup
  rw [rxAux, after_look, after_received hlink rfl, if_pos haux]

theorem auxTaken_inOrder {s : State} {p : BxNo} (hup : AuxUp s p) (type len : Nat) :
    InOrder s (auxTaken p.val type len s) p.val (bxOf s p.val).rxSeq type len := inOrder hup.1 ..

section
variable {s t : State} {p lseq type len : Nat} (h : InOrder s t p lseq type len)
include h

theorem InOrder.table : SameTable s t := by
  refine ⟨fun n hn x hx => h.regs x ?_, h.only .straps rfl, h.only .mem rfl, h.only .chk rfl, h.only .mergeBuf rfl⟩
  obtain ⟨o, rfl, ho⟩ := hx
  unfold mpPage
  omega

theorem InOrder.space : SameSpace s t := {
  table := h.table
  sset := fun k hk => ⟨h.regs _ (by unfold ssetReg migPage; omega), h.regs _ (by unfold ssetReg migPage; omega)⟩
  up := fun k hk => h.regs _ (by unfold hpPage; omega)
  farMem := h.only .farMem rfl
  extent := h.only .extent rfl
  freeCtr := h.only .freeCtr rfl }

theorem InOrder.snapOf (g : Nat) : snapOf t g = snapOf s g := snapOf_of_snap (h.only .snap rfl) g

theorem InOrder.spares : t.spares = s.spares := h.only .spares rfl

theorem InOrder.podCfg : podCfg t = podCfg s := h.regs _ (by decide)

theorem InOrder.spareReg : rd t spareReg = rd s spareReg := h.regs _ (by decide)

theorem InOrder.podId : podId t = podId s := by rw [Machine.podId, Machine.podId, h.regs _ (by decide)]

theorem InOrder.waiting (k : Nat) : (bxOf t k).waiting = (bxOf s k).waiting ∧ (bxOf t k).txSeq = (bxOf s k).txSeq := by
  by_cases hk : k = p
  · rw [hk, h.port]
    exact ⟨rfl, rfl⟩
  · rw [h.others k hk]
    exact ⟨rfl, rfl⟩

theorem InOrder.maySend (k : Nat) (g : Frame) : maySend t k g = maySend s k g := by
  have hside : t.side = s.side := h.only .side rfl
  have hbx : (bxOf t k).credits = (bxOf s k).credits ∧ (bxOf t k).replay = (bxOf s k).replay := by
    by_cases hk : k = p
    · rw [hk, h.port]
      exact ⟨rfl, rfl⟩
    · rw [h.others k hk]
      exact ⟨rfl, rfl⟩
  rw [Machine.maySend, Machine.maySend, h.link, replayBytes, replayBytes, hbx.1, hbx.2, hside]

theorem InOrder.forSpare (addr : DWord) : forSpare t addr = forSpare s addr := by
  rw [Machine.forSpare, Machine.forSpare, armed, armed, spareIdx, spareIdx, h.spareReg]

theorem InOrder.taking : taking t = taking s := by rw [Machine.taking, Machine.taking, h.spareReg]

theorem InOrder.isLead : isLead t = isLead s := by rw [Machine.isLead, Machine.isLead, podEn, podEn, ownPos, ownPos, leadPos, leadPos, h.podCfg]

theorem InOrder.arrived {u : State} (hu : (bxOf u p).rxSeq = (bxOf t p).rxSeq) : Arrived s u p := by
  rw [Arrived, hu, h.port]

end

/-- A frame that a port is given leaves what the port has received. -/
theorem keepsPort_giveFrame {α : Type} {φ : BxPort → α} (k p : Nat) (g : Frame)
    (hφ : ∀ (x : BxPort) w t r u c, φ { x with waiting := w, txSeq := t, replay := r, turn := u, credits := c } = φ x) :
    Keeps (fun s => φ (bxOf s p)) (giveFrame k g) := by
  by_cases hk : p = k
  · subst hk
    have hset (f : BxPort → BxPort) (hf : ∀ x, φ (f x) = φ x) : Keeps (fun s => φ (bxOf s p)) (setBx p f) :=
      ⟨fun s => by rw [after_setBx, bxOf_bx_same, hf]⟩
    have hput (f : Frame) : Keeps (fun s => φ (bxOf s p)) (putFrame p f) := ⟨fun s => by rw [bxOf_of_bx ((within_putFrame ..).bx s) p]⟩
    have hsend (n : Nat) : Keeps (fun s => φ (bxOf s p)) (sendWaiting p n) := by
      induction n with
      | zero => exact keeps_nop
      | succ n ih =>
        refine keeps_look fun s => ?_
        split
        · exact keeps_nop
        · exact keeps_seq_cons (hset _ fun x => hφ x ..) (keeps_seq_cons (keeps_look fun _ => keeps_seq_cons (hset _ fun x => hφ x ..)
            (keeps_seq_cons (hput _) keeps_seq_nil)) (keeps_seq_cons ih keeps_seq_nil))
    exact keeps_seq_cons (hset _ fun x => hφ x ..) (keeps_seq_cons (keeps_look fun _ => hsend _) keeps_seq_nil)
  · exact ⟨fun s => congrArg φ ((keepsBx_giveFrame hk g).eq s)⟩

/-- What is sent leaves the sequence number that a port expects. -/
theorem keepsRx_giveFrame (k p : Nat) (g : Frame) : Keeps (fun s => (bxOf s p).rxSeq) (giveFrame k g) :=
  keepsPort_giveFrame (φ := BxPort.rxSeq) k p g fun _ _ _ _ _ _ => rfl

/-- What an act that leaves the ports alone leaves them. -/
theorem keepsRx_within {ps : List Part} {a : Act} (h : Within ps a) (p : Nat) (hb : ps.contains .bx = false := by rfl) :
    Keeps (fun s => (bxOf s p).rxSeq) a := ⟨fun s => by rw [bxOf_of_bx (h.bx s hb)]⟩

/-- A frame leaves, written with the port's next sequence number. -/
abbrev sentFrame (s : State) (k : Nat) (g : Frame) : Output :=
  .frame k { g with lseq := (bxOf s k).txSeq } (frameCrc { g with lseq := (bxOf s k).txSeq })

/-! ## Reads of the store -/

section
variable {s : State} (hs : Ready s) {h : HerdNo} {x : Snap} (hx : snapOf s h.val = x)
include hs hx

theorem does_srd_frame {addr : DWord} {len k : Nat} {g : Frame} (h0 : 0 < len) (h4096 : len ≤ 4096)
    (hwanted : (∃ f, x.fetch = some f ∧ f.store ≤ addr.toNat ∧ addr.toNat + len ≤ f.store + f.bytes) ∨
      (x.fetch = none ∧ x.params.any (·.pcie) = false ∧ ∃ r, x.restore = some r ∧ r.phase = 2 ∧ restoreReads s h.val x r addr.toNat len = true))
    (hk : k = storePort s (recordAt x addr.toNat)) (hg : g = storeFrame 0x22 1 h.val addr.toNat len []) (hmay : maySend s k g = true)
    (hwait : (bxOf s k).waiting = []) : Does (.srd h addr len) s [.ctl, .bx, .out] fun t => t.out = s.out ++ [sentFrame s k g] := by
  have hbody : after (actSrd h.val addr len) s = after (giveFrame k g) s := by
    rw [actSrd, after_look, hx]
    dsimp only
    rcases hwanted with ⟨f, hf, hlo, hhi⟩ | ⟨hnone, hpcie, r, hr, hphase, hreads⟩
    · rw [hf]
      dsimp only
      rw [decide_eq_true hlo, decide_eq_true hhi, decide_eq_true h0, decide_eq_true h4096, after_act, if_pos (by decide), if_neg (by simp), hg, hk]
    · rw [hnone, hr]
      dsimp only
      rw [Option.any_some, decide_eq_true hphase, hreads, decide_eq_true h0, decide_eq_true h4096, hpcie, after_act, if_pos (by decide),
        if_neg (by simp), hg, hk]
  refine does_of_run hs.1 (a := actSrd h.val addr len) rfl ?_ ?_ <;> rw [hbody]
  · exact (within_giveFrame ..).onlyIn s
  · exact after_giveFrame_now hwait (by rw [hg]; exact (by decide : 1 < 4)) hmay

theorem exec_srd_host {r : Restore} {addr : DWord} {len : Nat} (hnone : x.fetch = none) (hr : x.restore = some r) (hphase : r.phase = 2)
    (hpcie : x.params.any (·.pcie) = true) (hreads : restoreReads s h.val x r addr.toNat len = true) (h0 : 0 < len) (h4096 : len ≤ 4096) :
    exec (.srd h addr len) s = .next { s with out := s.out ++ [.storeRead addr.toNat len] } := by
  refine exec_next (a := actSrd h.val addr len) hs.1 rfl ?_
  rw [actSrd, after_look, hx]
  dsimp only
  rw [hnone, hr]
  dsimp only
  rw [Option.any_some, decide_eq_true hphase, hreads, decide_eq_true h0, decide_eq_true h4096, hpcie, after_act, if_pos (by decide),
    if_pos (by simp), after_one]
  rfl

end

/-! ## The data of a fetch -/

section
variable {s : State} (hs : Ready s) {h : HerdNo} {x : Snap} (hx : snapOf s h.val = x) {f : Fetch} {p : BxNo} {addr : DWord}
  {data : List Byte} (hf : x.fetch = some f) (hup : AuxUp s p) (hwaits : fetchWaits s h.val addr data.length = false) (hlo : f.store ≤ addr.toNat)
  (hhi : addr.toNat + data.length ≤ f.store + f.bytes)

/-- What follows a fetch's data: the fetch goes on, or ends. -/
def fetchRest (h : Nat) (f : Fetch) (n : Nat) : Act :=
  if f.bytes ≤ f.got + n then seq [setSnap h (fun x => { x with fetch := none }), answer f.asker 0 (BitVec.ofNat 64 f.bytes)]
  else setSnap h (fun x => { x with fetch := some { f with got := f.got + n } })

include hx hf hup hwaits hlo hhi in
theorem after_actSrdr : after (actSrdr p.val h.val addr data) s = after (fetchRest h.val f data.length)
    (after (urWrite h.val (f.dest + (addr.toNat - f.store)) data) (auxTaken p.val 0x23 data.length s)) := by
  have hin := auxTaken_inOrder hup 0x23 data.length
  rw [actSrdr, after_look, hwaits, if_neg Bool.false_ne_true, after_rxAux hup, after_look, hin.snapOf, hx, hf]
  dsimp only
  rw [if_neg (by omega), after_seq_cons, after_seq_cons, after_seq_nil]
  rfl

theorem keepsRx_urWrite (h a : Nat) (bs : List Byte) (p : Nat) : Keeps (fun s => (bxOf s p).rxSeq) (urWrite h a bs) := keepsRx_within (within_urWrite ..) p

include hs hx hf hup hwaits hlo hhi

theorem does_srdr_last {c : CmdId} (hasker : f.asker = .host c) (hlast : f.bytes ≤ f.got + data.length) :
    Does (.srdr p h addr data) s [.ctl, .mem, .chk, .farMem, .touched, .mergeBuf, .bx, .completions, .snap, .dumpRun, .freeCtr, .out]
      fun t => Arrived s t p.val ∧ SnapIs s t h.val { x with fetch := none } ∧
        t.completions = s.completions ++ [⟨c.fn, c.ring, c.tag, 0, BitVec.ofNat 64 f.bytes⟩] := by
  have hin := auxTaken_inOrder hup 0x23 data.length
  have hbody := after_actSrdr hx hf hup hwaits hlo hhi
  obtain ⟨u, hu⟩ : ∃ u, u = auxTaken p.val 0x23 data.length s := ⟨_, rfl⟩
  have hw : Within [.ctl, .mem, .chk, .farMem, .touched, .mergeBuf, .dumpRun, .freeCtr, .out] (urWrite h.val (f.dest + (addr.toNat - f.store)) data) :=
    within_urWrite ..
  obtain ⟨v, hv⟩ : ∃ v, v = after (urWrite h.val (f.dest + (addr.toNat - f.store)) data) u := ⟨_, rfl⟩
  rw [← hu] at hin hbody
  rw [← hv, fetchRest, if_pos hlast, after_seq_cons, after_seq_cons, after_seq_nil, hasker] at hbody
  have h1 := hin.only
  have h2 : OnlyIn [.ctl, .mem, .chk, .farMem, .touched, .mergeBuf, .dumpRun, .freeCtr, .out] u v := hv ▸ hw.onlyIn u
  have hset := snapIs_after_setSnap h.val (fun x => { x with fetch := none }) v
  have hvsnap (g : Nat) : snapOf v g = snapOf s g := by rw [snapOf_of_snap (h2 .snap rfl), hin.snapOf]
  have h3 : OnlyIn [.snap] v (after (setSnap h.val (fun x => { x with fetch := none })) v) := (within_setSnap ..).onlyIn v
  obtain ⟨w, hw⟩ : ∃ w, w = after (setSnap h.val (fun x => { x with fetch := none })) v := ⟨_, rfl⟩
  rw [← hw] at hset hbody h3
  have hend : after (answer (.host c) 0 (BitVec.ofNat 64 f.bytes)) w = (Upd.completions (w.completions ++
    [⟨c.fn, c.ring, c.tag, 0, BitVec.ofNat 64 f.bytes⟩])).apply w := rfl
  rw [hend] at hbody
  have h4 : OnlyIn [.completions] w _ := onlyIn_apply (.completions (w.completions ++ [⟨c.fn, c.ring, c.tag, 0, BitVec.ofNat 64 f.bytes⟩])) w
  refine does_of_run hs.1 (a := actSrdr p.val h.val addr data) rfl ?_ ?_ <;> rw [hbody]
  · exact (((h1.wider rfl).trans (h2.wider rfl)).trans (h3.wider rfl)).trans (h4.wider rfl)
  · refine ⟨hin.arrived ?_, ?_, ?_⟩
    · rw [bxOf_of_bx (h4 .bx rfl), bxOf_of_bx (h3 .bx rfl), bxOf_of_bx (h2 .bx rfl)]
    · rw [hvsnap, hx] at hset
      obtain ⟨hsame, hother⟩ := hset
      exact ⟨(snapOf_of_snap (h4 .snap rfl) _).trans hsame, fun g hg =>
        (snapOf_of_snap (h4 .snap rfl) g).trans ((hother g hg).trans (hvsnap g))⟩
    · rw [apply_completions]
      have e3 : w.completions = v.completions := h3 .completions rfl
      have e2 : v.completions = u.completions := h2 .completions rfl
      have e1 : u.completions = s.completions := h1 .completions rfl
      rw [e3, e2, e1]

theorem does_srdr_more {g : Nat} (hp : Plain s) (hmore : f.got + data.length < f.bytes) (h64 : data.length = 64)
    (hal : (f.dest + (addr.toNat - f.store)) % 64 = 0) (hj : judge s h.val ((f.dest + (addr.toNat - f.store)) / 65536) true = .frame g) :
    Does (.srdr p h addr data) s [.ctl, .mem, .chk, .touched, .mergeBuf, .bx, .snap, .dumpRun, .freeCtr, .out]
      fun t => Arrived s t p.val ∧ SnapIs s t h.val { x with fetch := some { f with got := f.got + data.length } } ∧
        readBlk t ((65536 * g + (f.dest + (addr.toNat - f.store)) % 65536) / 64) = some data ∧
        ∀ k, k / 64 ≠ heldAt s ((65536 * g + (f.dest + (addr.toNat - f.store)) % 65536) / 64) → memByte t k = memByte s k := by
  have hin := auxTaken_inOrder hup 0x23 data.length
  have hbody := after_actSrdr hx hf hup hwaits hlo hhi
  obtain ⟨a, ha⟩ : ∃ a, a = f.dest + (addr.toNat - f.store) := ⟨_, rfl⟩
  obtain ⟨u, hu⟩ : ∃ u, u = auxTaken p.val 0x23 data.length s := ⟨_, rfl⟩
  rw [← ha] at hal hj hbody ⊢
  rw [← hu] at hin hbody
  have hpu : Plain u := hp.sameTable hin.table
  obtain ⟨b, hb⟩ : ∃ b, b = (65536 * g + a % 65536) / 64 := ⟨_, rfl⟩
  have hwrite : after (urWrite h.val a data) u = after (portWrite b data) (after (touch (a / 65536)) u) := by
    have hclean : entryClean u (a / 65536) = true := by
      rw [entryClean, hpu.clean, verdictAt_plain hpu.chk]
      decide
    rw [after_urWrite_frame (by omega) (by omega) (by rw [hin.space.judge]; exact hj) hclean, after_devWrite_block (by omega) (by omega), if_pos h64, hb]
  obtain ⟨v, hv⟩ : ∃ v, v = after (touch (a / 65536)) u := ⟨_, rfl⟩
  have hwt : Within [.touched] (touch (a / 65536)) := within_touch _
  have h2 : OnlyIn [.touched] u v := hv ▸ hwt.onlyIn u
  have htv : SameTable u v := hv ▸ sameTable_aside hwt u
  have hput := blockPut_portWrite (hpu.sameTable htv) b h64
  obtain ⟨w, hw⟩ : ∃ w, w = after (portWrite b data) v := ⟨_, rfl⟩
  have hheld : heldAt v b = heldAt s b := by rw [htv.hold.heldAt, hin.table.hold.heldAt]
  rw [hwrite, ← hv, ← hw, fetchRest, if_neg (by omega)] at hbody
  rw [← hw, hheld] at hput
  have h5 : OnlyIn [.snap] w (after (setSnap h.val (fun x => { x with fetch := some { f with got := f.got + data.length } })) w) :=
    (within_setSnap ..).onlyIn w
  have hset := snapIs_after_setSnap h.val (fun x => { x with fetch := some { f with got := f.got + data.length } }) w
  have hwsnap (k : Nat) : snapOf w k = snapOf s k := by
    rw [snapOf_of_snap (hput.only .snap rfl), snapOf_of_snap (h2 .snap rfl), hin.snapOf]
  have hst : SameTable w (after (setSnap h.val (fun x => { x with fetch := some { f with got := f.got + data.length } })) w) :=
    sameTable_aside (within_setSnap ..) w
  have hmem (k : Nat) : memByte v k = memByte s k := by rw [memByte, memByte, htv.mem, hin.table.mem]
  refine does_of_run hs.1 (a := actSrdr p.val h.val addr data) rfl ?_ ?_ <;> rw [hbody]
  · exact (((hin.only.wider rfl).trans (h2.wider rfl)).trans (hput.only.wider rfl)).trans (h5.wider rfl)
  · refine ⟨hin.arrived ?_, ?_, ?_, fun k hk => ?_⟩
    · rw [bxOf_of_bx (h5 .bx rfl), bxOf_of_bx (hput.only .bx rfl), bxOf_of_bx (h2 .bx rfl)]
    · rw [hwsnap, hx] at hset
      exact ⟨hset.1, fun k hk => (hset.2 k hk).trans (hwsnap k)⟩
    · rw [← hb, (hput.plain.sameTable hst).readBlk, hst.hold.heldAt, hput.hold.heldAt, hheld, rawData, memBytes]
      refine congrArg some ((List.map_congr_left fun i hi => ?_).trans (map_range_getD h64 0))
      have := List.mem_range.mp hi
      rw [memByte, hst.mem, ← memByte, hput.byte, if_pos (by omega), Nat.add_sub_cancel_left]
    · rw [← hb] at hk
      rw [memByte, hst.mem, ← memByte, hput.byte, if_neg hk, hmem]

end

end Sys2Proof.Machine
end

section
/-! A restore's start and its records (R558 to R560). -/

namespace Sys2Proof.Machine

-- One declaration after the other: elaborated side by side they take more memory than the check has.
set_option Elab.async false

/-- A bit written at one address of many reads as written. -/
theorem bit_after_each_wrBit {α : Type} {f : α → Nat} {i : Nat} (hi : i < 32) (v : Bool) {xs : List α} {y : α} (hy : y ∈ xs) (s : State) :
    bit (rd (after (each xs fun n => wrBit (f n) i v) s) (f y)) i = v := by
  refine after_each_sets (f := fun s => bit (rd s (f y)) i) hy (fun s => ?_) (fun x _ => ?_) s
  · rw [after_wrBit, rd_ctl_same, bit_setBit_same _ hi]
  · by_cases hx : f y = f x
    · exact .inl fun s => by rw [hx, after_wrBit, rd_ctl_same, bit_setBit_same _ hi]
    · exact .inr ⟨fun s => by rw [(keepsReg_wrBit hx i v).eq]⟩

/-! ## A herd's cores pause -/

/-- How a core that pauses goes on (R142). -/
structure PausedTo (s t : State) (c : Nat) : Prop where
  state : coreState t c = if coreState s c = 5 then 6 else coreState s c
  pending : coreState s c ∈ [2, 3, 4] → (coreX t c).pausePend = true

theorem pausedTo_pauseOne (c : Nat) (s : State) : PausedTo s (after (pauseOne c) s) c := by
  have pc := pages_of_site c
  by_cases h5 : coreState s c = 5
  · rw [after_pauseOne_waiting h5, after_setIst, after_setCoreState]
    refine ⟨?_, fun h => ?_⟩
    · rw [if_pos h5, coreState, rd_ctl_other _ (by omega), rd_ctl_same, fld_setFld _ (by decide) (by decide)]
      rfl
    · rw [h5] at h
      exact absurd h (by decide)
  · have hrun (h : coreState s c ∈ [2, 3, 4]) : after (pauseOne c) s = after (setCore c (fun x => { x with pausePend := true })) s := by
      rw [pauseOne, after_look]
      rcases List.mem_cons.mp h with h | h
      · rw [h]
        rfl
      · rcases List.mem_cons.mp h with h | h
        · rw [h]
          rfl
        · rw [List.mem_singleton.mp h]
          rfl
    by_cases hmem : coreState s c ∈ [2, 3, 4]
    · rw [hrun hmem, after_setCore]
      exact ⟨(if_neg h5).symm, fun _ => by rw [coreX_core_same]⟩
    · refine ⟨?_, fun h => absurd h hmem⟩
      rw [if_neg h5, pauseOne, after_look]
      split
      case h_1 h => exact absurd h h5
      case h_5 => rfl
      all_goals exact absurd (by simp_all) hmem

theorem PausedTo.kept {s t u : State} {c : Nat} (h : PausedTo s t c) (k : SameCore t u c) : PausedTo s u c :=
  ⟨k.state.trans h.state, fun hm => by rw [k.data]; exact h.pending hm⟩

theorem PausedTo.again {s t : State} {c : Nat} (h : PausedTo s t c) : PausedTo s (after (pauseOne c) t) c := by
  obtain ⟨hstate, hpend⟩ := pausedTo_pauseOne c t
  have ht : coreState t c ≠ 5 := by
    rw [h.state]
    split
    · decide
    · assumption
  rw [if_neg ht] at hstate
  refine ⟨hstate.trans h.state, fun hm => hpend ?_⟩
  have h5 : coreState s c ≠ 5 := fun h5 => absurd (h5 ▸ hm) (by decide)
  rw [h.state, if_neg h5]
  exact hm

theorem pausedTo_each {c : Nat} {cs : List Nat} (hc : c ∈ cs) (s : State) : PausedTo s (after (each cs pauseOne) s) c := by
  have hstep (t : State) (d : Nat) (h : PausedTo s t c) : PausedTo s (after (pauseOne d) t) c := by
    by_cases hd : c = d
    · subst hd
      exact h.again
    · exact h.kept (sameCore_pauseOne hd t)
  have hcases (t : State) (h : SameCore s t c ∨ PausedTo s t c) (d : Nat) :
      SameCore s (after (pauseOne d) t) c ∨ PausedTo s (after (pauseOne d) t) c := by
    rcases h with h | h
    · by_cases hd : c = d
      · obtain ⟨hstate, hpend⟩ := pausedTo_pauseOne c t
        refine .inr (hd ▸ ⟨by rw [hstate, h.state], fun hm => hpend (by rw [h.state]; exact hm)⟩)
      · have := sameCore_pauseOne hd t
        exact .inl ⟨this.state.trans h.state, this.latches.trans h.latches, this.data.trans h.data⟩
    · exact .inr (hstep t d h)
  exact after_each_reaches (P := fun t => SameCore s t c ∨ PausedTo s t c) (Q := fun t => PausedTo s t c) hc (fun t ht => by
      rcases ht with h | h
      · obtain ⟨hstate, hpend⟩ := pausedTo_pauseOne c t
        exact ⟨by rw [hstate, h.state], fun hm => hpend (by rw [h.state]; exact hm)⟩
      · exact hstep t c h)
    (fun d _ t ht => hcases t ht d) (fun d _ t ht => hstep t d ht) (.inl ⟨rfl, rfl, rfl⟩)

/-! ## RESTORE_START -/

/-- The cores of a herd pause, and its rings are disabled. -/
def restOf (h : Nat) : Act := seq [pauseHerd h 1024, disableRings h]

theorem within_restOf (h : Nat) : Within [.ctl, .core] (restOf h) :=
  within_seq_cons (within_pauseHerd ..) (within_seq_cons ((within_disableRings h).wider rfl) within_seq_nil)

/-- What a herd at rest shows: each core has paused or is to pause, and no ring is enabled. -/
structure Rests (s t : State) (h : Nat) : Prop where
  cores : ∀ d ∈ herdSites s h, d < 1024 → PausedTo s t d
  rings : ∀ n < 24, bit (rd t (ringAddr n h + 4)) 31 = false

theorem rests_restOf {h : Nat} (hh : h < 64) (s : State) : Rests s (after (restOf h) s) h := by
  rw [restOf, after_seq_cons, after_seq_cons, after_seq_nil]
  refine ⟨fun d hd hlow => ?_, fun n hn => ?_⟩
  · have hmem : d ∈ (herdSites s h).filter (fun c => decide (c ≠ 1024)) := List.mem_filter.mpr ⟨hd, decide_eq_true (by omega)⟩
    have hpaused : PausedTo s (after (pauseHerd h 1024) s) d := by
      rw [pauseHerd_eq, after_look]
      exact pausedTo_each hmem s
    have pd := pages_of_site d
    have hfree (k : Nat) (hk : k < 0x1000) : RingFree h (seqPage d + k) :=
      ⟨fun n hn => by unfold uePage; omega, by unfold bxPage; omega, fun f hf => by unfold fnPageOf; omega⟩
    refine hpaused.kept ⟨?_, ?_, (within_disableRings h).coreX _ d⟩
    · rw [coreState, (keepsReg_disableRings (hfree _ (by decide))).eq, coreState]
    · exact (keepsReg_disableRings (hfree _ (by decide))).eq _
  · have haddr : ringAddr n h + 4 = uePage n + 0x204 + 16 * h := by
      rw [ringAddr, if_pos hn]
      omega
    rw [haddr, disableRings, after_seq_cons, after_seq_cons, after_seq_nil, (keepsReg_wrBit (by unfold uePage bxPage; omega) _ _).eq]
    exact bit_after_each_wrBit (f := fun n => uePage n + 0x204 + 16 * h) (by decide) false (List.mem_range.mpr hn) _

theorem sparePort_cases (s : State) : sparePort s = 6 ∨ sparePort s = 7 := by
  rw [sparePort]
  split
  · exact .inl rfl
  · exact .inr rfl

section
variable {s : State} (hs : Ready s) {h : HerdNo} {x : Snap} (hx : snapOf s h.val = x)

/-- What a restore that begins leaves once its herd is at rest: the votes are invalid and chunks are taken. -/
def takeChunks (h : Nat) : Act :=
  seq [each (List.range 24) (fun n => wrBit (hvote n h) 30 false), setRestore h (fun r => { r with phase := 2 })]

theorem within_takeChunks (h : Nat) : Within [.ctl, .snap] (takeChunks h) :=
  within_seq_cons ((within_each fun _ => within_wrBit ..).wider rfl) (within_seq_cons ((within_setRestore ..).wider rfl) within_seq_nil)

include hx in
theorem after_actRestoreStart {r : Restore} (hr : x.restore = some r) (hphase : r.phase = 1) (hspare : spareJoined s = false) :
    after (actRestoreStart h.val) s =
      after (act (quiet (after (restOf h.val) s) h.val && coresRest (after (restOf h.val) s) h.val) (takeChunks h.val)) (after (restOf h.val) s) := by
  rw [actRestoreStart, after_look, hspare, after_seq_cons, after_act, if_neg Bool.false_ne_true, after_seq_cons, after_seq_nil, after_look, hx, hr,
    Option.any_some, decide_eq_true hphase, after_act, if_pos rfl, after_seq_cons, after_seq_cons, after_seq_cons, after_seq_nil, after_look, restOf,
    after_seq_cons, after_seq_cons, after_seq_nil]
  rfl

theorem quiet_restOf (h : Nat) (s : State) : quiet (after (restOf h) s) h = quiet s h := by
  rw [quiet, quiet, (within_restOf h).desc, (within_restOf h).coll]

theorem coresRest_restOf (hlow : ∀ d ∈ herdSites s h.val, d < 1024) :
    coresRest (after (restOf h.val) s) h.val = (herdSites s h.val).all (fun d => !([2, 3, 4].contains (coreState s d))) := by
  have hrest := rests_restOf h.isLt s
  rw [coresRest, herdSites, (within_restOf h.val).herdOf, ← herdSites]
  rw [Bool.eq_iff_iff, List.all_eq_true, List.all_eq_true]
  refine forall₂_congr fun d hd => ?_
  rw [(hrest.cores d hd (hlow d hd)).state]
  split
  case isTrue h5 =>
    rw [h5]
    rfl
  case isFalse h5 => simp [h5]

include hs hx in
theorem does_restoreStart {r : Restore} (hr : x.restore = some r) (hphase : r.phase = 1) (hspare : spareJoined s = false)
    (hlow : ∀ d ∈ herdSites s h.val, d < 1024) :
    (quiet s h.val = true → (∀ d ∈ herdSites s h.val, coreState s d ∉ [2, 3, 4]) →
      Does (.restoreStart h) s [.ctl, .core, .snap] fun t => SnapIs s t h.val { x with restore := some { r with phase := 2 } } ∧
        (∀ d ∈ herdSites s h.val, coreState s d = 5 → coreState t d = 6) ∧
        ∀ n < 24, bit (rd t (ringAddr n h.val + 4)) 31 = false ∧ bit (rd t (hvote n h.val)) 30 = false) ∧
    ((quiet s h.val = false ∨ ∃ d ∈ herdSites s h.val, coreState s d ∈ [2, 3, 4]) →
      Does (.restoreStart h) s [.ctl, .core] fun t => (∀ d ∈ herdSites s h.val, coreState s d = 5 → coreState t d = 6) ∧
        (∀ d ∈ herdSites s h.val, coreState s d ∈ [2, 3, 4] → (coreX t d).pausePend = true) ∧
        ∀ n < 24, bit (rd t (ringAddr n h.val + 4)) 31 = false) := by
  have hbody := after_actRestoreStart hx hr hphase hspare
  have hrest := rests_restOf h.isLt s
  have honly : OnlyIn [.ctl, .core] s (after (restOf h.val) s) := (within_restOf h.val).onlyIn s
  rw [quiet_restOf, coresRest_restOf hlow] at hbody
  obtain ⟨u, hu⟩ : ∃ u, u = after (restOf h.val) s := ⟨_, rfl⟩
  rw [← hu] at hbody hrest honly
  have hpaused (d : Nat) (hd : d ∈ herdSites s h.val) (h5 : coreState s d = 5) : coreState u d = 6 := by
    rw [(hrest.cores d hd (hlow d hd)).state, if_pos h5]
  refine ⟨fun hq hcores => ?_, fun hbusy => ?_⟩
  · have hall : (herdSites s h.val).all (fun d => !([2, 3, 4].contains (coreState s d))) = true :=
      List.all_eq_true.mpr fun d hd => by
        have := hcores d hd
        simpa using this
    rw [hq, hall, after_act, if_pos (by decide)] at hbody
    have h2 : OnlyIn [.ctl, .snap] u (after (takeChunks h.val) u) := (within_takeChunks h.val).onlyIn u
    have hreg (a : Nat) (ha : ∀ n < 24, a ≠ hvote n h.val) : rd (after (takeChunks h.val) u) a = rd u a := by
      rw [takeChunks, after_seq_cons, after_seq_cons, after_seq_nil, ((within_setRestore ..).keepsReg a).eq,
        (keeps_each fun n hn => keepsReg_wrBit (ha n (List.mem_range.mp hn)) _ _).eq]
    refine does_of_run hs.1 (a := actRestoreStart h.val) rfl ?_ ?_ <;> rw [hbody]
    · exact (honly.wider rfl).trans (h2.wider rfl)
    · refine ⟨?_, fun d hd h5 => ?_, fun n hn => ⟨?_, ?_⟩⟩
      · obtain ⟨v, hv⟩ : ∃ v, v = after (each (List.range 24) (fun n => wrBit (hvote n h.val) 30 false)) u := ⟨_, rfl⟩
        have hvote : Within [.ctl] (each (List.range 24) (fun n => wrBit (hvote n h.val) 30 false)) := within_each fun _ => within_wrBit ..
        have hvs (g : Nat) : snapOf v g = snapOf s g := by
          rw [hv, snapOf_of_snap (hvote.snap u), snapOf_of_snap (honly .snap rfl)]
        have hset := snapIs_after_setSnap h.val (fun x => { x with restore := x.restore.map (fun r => { r with phase := 2 }) }) v
        rw [hvs, hx, hr, Option.map_some] at hset
        rw [takeChunks, after_seq_cons, after_seq_cons, after_seq_nil, ← hv, setRestore]
        exact ⟨hset.1, fun g hg => (hset.2 g hg).trans (hvs g)⟩
      · have pd := pages_of_site d
        rw [coreState, hreg _ fun n hn => by unfold hvote uePage; omega, ← coreState]
        exact hpaused d hd h5
      · rw [hreg _ fun m hm => by unfold hvote ringAddr uePage; split <;> omega]
        exact hrest.rings n hn
      · rw [takeChunks, after_seq_cons, after_seq_cons, after_seq_nil, ((within_setRestore ..).keepsReg _).eq]
        exact bit_after_each_wrBit (f := fun n => hvote n h.val) (by decide) false (List.mem_range.mpr hn) u
  · have hno : (quiet s h.val && (herdSites s h.val).all (fun d => !([2, 3, 4].contains (coreState s d)))) = false := by
      rcases hbusy with hq | ⟨d, hd, hrun⟩
      · rw [hq, Bool.false_and]
      · rw [Bool.and_eq_false_iff]
        refine .inr (Bool.eq_false_iff.mpr fun hall => ?_)
        have := List.all_eq_true.mp hall d hd
        rw [List.contains_iff_mem.mpr hrun] at this
        cases this
    rw [hno, after_act, if_neg Bool.false_ne_true] at hbody
    refine does_of_run hs.1 (a := actRestoreStart h.val) rfl ?_ ?_ <;> rw [hbody]
    · exact honly
    · exact ⟨hpaused, fun d hd hrun => (hrest.cores d hd (hlow d hd)).pending hrun, hrest.rings⟩

include hs hx in
theorem does_restoreStart_spare {k : Nat} {g : Frame} (hspare : spareJoined s = true) (hordered : s.spares.ordered = [])
    (hfills : bit (rd s (snapPage + 0x104)) 3 = true) (hnone : ∀ q ∈ s.snap, q.2.restore = none) (hno : x.restore = none) (hk : k = sparePort s)
    (hg : g = spareFrame s 0x34 1 (leadPos s) [BitVec.ofNat 8 (spareIdx s), 1]) (hmay : maySend s k g = true) (hwait : (bxOf s k).waiting = []) :
    Does (.restoreStart h) s [.ctl, .bx, .out] fun t => bit (rd t (snapPage + 0x104)) 3 = false ∧ t.out = s.out ++ [sentFrame s k g] := by
  have hall : s.snap.all (fun p => p.2.restore.isNone) = true := List.all_eq_true.mpr fun q hq => by rw [hnone q hq]; rfl
  obtain ⟨u, hu⟩ : ∃ u, u = after (wrBit (snapPage + 0x104) 3 false) s := ⟨_, rfl⟩
  have h1 : OnlyIn [.ctl] s u := hu ▸ (within_wrBit ..).onlyIn s
  have h2 : OnlyIn [.ctl, .bx, .out] u (after (giveFrame k g) u) := (within_giveFrame ..).onlyIn u
  have hbody : after (actRestoreStart h.val) s = after (giveFrame k g) u := by
    have hone : b2n true = 1 := rfl
    have hbyte : BitVec.ofNat 8 1 = (1 : Byte) := by decide
    have hsnap : snapOf (after (giveFrame k g) u) h.val = x := by
      rw [snapOf_of_snap (h2 .snap rfl), snapOf_of_snap (h1 .snap rfl), hx]
    rw [actRestoreStart, after_look, hspare, after_seq_cons, after_act, if_pos rfl, hordered, List.find?_nil]
    dsimp only
    rw [List.isEmpty_nil, hfills, hall, after_act, if_pos (by decide), sendFilldone, after_look, after_seq_cons, after_seq_cons, after_seq_nil, ← hu,
      hone, hbyte, ← hg, ← hk, after_seq_cons, after_seq_nil, after_look, hsnap, hno, Option.any_none, after_act, if_neg Bool.false_ne_true]
  have hlink : linkUp u k = linkUp s k := linkUp_of_rd (by
    have hk67 := sparePort_cases s
    rw [← hk] at hk67
    rw [hu, (keepsReg_wrBit (by unfold bxPage snapPage; omega) _ _).eq])
  have hbx : bxOf u k = bxOf s k := bxOf_of_bx (h1 .bx rfl) k
  have hside : u.side = s.side := h1 .side rfl
  have hout := after_giveFrame_now (s := u) (k := k) (g := g) (by rw [hbx, hwait]) (by rw [hg]; exact (by decide : 1 < 4))
    (by rw [maySend, hlink, hbx, replayBytes, hbx, hside]; exact hmay)
  refine does_of_run hs.1 (a := actRestoreStart h.val) rfl ?_ ?_ <;> rw [hbody]
  · exact (h1.wider rfl).trans h2
  · refine ⟨?_, ?_⟩
    · rw [(keepsReg_giveFrame (.inr (by decide)) k g).eq, hu, after_wrBit, rd_ctl_same, bit_setBit_same _ (by decide)]
    · have hso : u.out = s.out := h1 .out rfl
      rw [hout, hbx, hso]

end

/-- A host command's answer is a completion that is owed. -/
theorem answered_host (c : CmdId) (status : Nat) (result : DWord) (s : State) :
    OnlyIn [.completions] s (after (answer (.host c) status result) s) ∧
    (after (answer (.host c) status result) s).completions = s.completions ++ [⟨c.fn, c.ring, c.tag, BitVec.ofNat 8 status, result⟩] :=
  ⟨onlyIn_apply (.completions _) s, rfl⟩

/-! ## Manifests -/

section
variable {s : State} (hs : Ready s) {h : HerdNo} {x : Snap} (hx : snapOf s h.val = x) {r : Restore} {rec_ : List Byte}
  (hr : x.restore = some r) (hphase : r.phase = 2) (hkind : bits (plWord rec_ 1) 7 0 = 2)
include hx hr hphase hkind

theorem after_actRestoreChunk : after (actRestoreChunk h.val rec_) s = after (takeManifest h.val r rec_) s := by
  rw [actRestoreChunk, after_look, hx, hr]
  dsimp only
  rw [if_neg (by omega), if_pos hkind]

include hs

theorem does_manifest (hsha : (rec_.drop 0x90).take 48 = sha384 (rec_.take 0x90 ++ (rec_.drop 256).take (64 * plWord rec_ 6)))
    (hasker : r.asker.isSome = true) (hq : bits (plWord rec_ 2) 21 16 = storePos s h.val) (hfull : r.full = true) (hgot : r.got = [])
    (hchunks : manifestChunks rec_ ≠ []) :
    Does (.restoreChunk h rec_) s [.snap] fun t => SnapIs s t h.val { x with restore := some { r with manifest := some rec_ } } := by
  obtain ⟨u, hu⟩ : ∃ u, u = after (setRestore h.val (fun r => { r with manifest := some rec_ })) s := ⟨_, rfl⟩
  have hset := snapIs_after_setSnap h.val (fun x => { x with restore := x.restore.map (fun r => { r with manifest := some rec_ }) }) s
  rw [hx, hr, Option.map_some, ← setRestore, ← hu] at hset
  have hwant : (manifestChunks rec_).all (fun q => (decide (q.1 ≠ 0xFFFF) &&
      !entryRestored u { x with restore := some { r with manifest := some rec_ } } { r with manifest := some rec_ } q.1) ||
      (gotDigest { r with manifest := some rec_ } q.1 q.2).isSome) = false := by
    obtain ⟨q, cs, hcs⟩ := List.exists_cons_of_ne_nil hchunks
    rw [hcs, List.all_cons, entryRestored, hfull, Bool.true_or, gotDigest, hgot]
    simp
  have hno : after (tryFinish h.val) u = u := by
    rw [tryFinish, after_look, hset.1]
    dsimp only
    rw [Option.bind_some, Option.map_some]
    dsimp only
    rw [hwant, if_pos (by rw [Bool.not_false, Bool.true_or])]
    rfl
  have hbody : after (actRestoreChunk h.val rec_) s = u := by
    rw [after_actRestoreChunk hx hr hphase hkind, takeManifest, after_look]
    dsimp only
    rw [decide_eq_true hsha, hasker, Bool.true_or, if_neg (by simp), if_neg (by decide), decide_eq_true hq, if_pos rfl, after_seq_cons, after_seq_cons,
      after_seq_nil, ← hu, hno]
  refine does_of_run hs.1 (a := actRestoreChunk h.val rec_) rfl ?_ ?_ <;> rw [hbody]
  · rw [hu]
    exact (within_setRestore ..).onlyIn s
  · exact hset

section
variable {q : Nat} (hq : bits (plWord rec_ 2) 21 16 = q)
  (hsha : (rec_.drop 0x90).take 48 ≠ sha384 (rec_.take 0x90 ++ (rec_.drop 256).take (64 * plWord rec_ 6)))
include hq hsha

omit hs in
theorem after_badManifest : after (actRestoreChunk h.val rec_) s = after (badChunk h.val r (0x10000, q)) s := by
  rw [after_actRestoreChunk hx hr hphase hkind, takeManifest, after_look]
  dsimp only
  rw [decide_eq_false hsha, hq, if_neg (by simp), if_pos (by simp)]

theorem does_badManifest_once (hfirst : r.retry.contains (65536, q) = false) : Does (.restoreChunk h rec_) s [.snap] fun t =>
    SnapIs s t h.val { x with restore := some { r with retry := (65536, q) :: r.retry } } := by
  have hset := snapIs_after_setSnap h.val (fun x => { x with restore := x.restore.map (fun r => { r with retry := (65536, q) :: r.retry }) }) s
  rw [hx, hr, Option.map_some] at hset
  have hbody : after (actRestoreChunk h.val rec_) s = after (setRestore h.val (fun r => { r with retry := (65536, q) :: r.retry })) s := by
    rw [after_badManifest hx hr hphase hkind hq hsha, badChunk, hfirst, if_neg Bool.false_ne_true]
  refine does_of_run hs.1 (a := actRestoreChunk h.val rec_) rfl ?_ ?_ <;> rw [hbody]
  · exact (within_setRestore ..).onlyIn s
  · exact hset

theorem does_badManifest_again (hagain : r.retry.contains (65536, q) = true) {c : CmdId} (hasker : r.asker = some (.host c)) :
    Does (.restoreChunk h rec_) s [.ctl, .snap, .completions, .freeCtr] fun t => SnapIs s t h.val { x with restore := none } ∧
      bit (rd t (snapPage + 0x20)) 11 = true ∧ t.completions = s.completions ++ [⟨c.fn, c.ring, c.tag, 4, 0⟩] := by
  obtain ⟨u, hu⟩ : ∃ u, u = after (raise snapPage { cls := .uncorrContained, herd := some h.val }) (after (count snapPage 5 1) s) := ⟨_, rfl⟩
  obtain ⟨v, hv⟩ : ∃ v, v = after (setSnap h.val (fun x => { x with restore := none })) (after (setIst snapPage 11) u) := ⟨_, rfl⟩
  have hbody : after (actRestoreChunk h.val rec_) s =
      after (answer (.host c) 4 0) (after (snapStatus h.val) v) := by
    have hzero : BitVec.ofNat 64 0 = (0 : DWord) := by decide
    rw [after_badManifest hx hr hphase hkind hq hsha, badChunk, hagain, if_pos rfl, failRestore, after_look, hx, hr]
    dsimp only
    iterate 6 rw [after_seq_cons]
    rw [after_seq_nil, ← hu, ← hv, reportRestore, after_look, hasker]
    dsimp only
    rw [if_neg Bool.false_ne_true, if_neg Bool.false_ne_true, hzero]
  have h1 : OnlyIn [.ctl] s (after (count snapPage 5 1) s) := (within_count ..).onlyIn s
  have h2 : OnlyIn [.ctl, .freeCtr] (after (count snapPage 5 1) s) u := hu ▸ onlyIn_raise_mild _ _ nofun
  have h3 : OnlyIn [.ctl] u (after (setIst snapPage 11) u) := (within_setIst ..).onlyIn u
  have h4 : OnlyIn [.snap] (after (setIst snapPage 11) u) v := hv ▸ (within_setSnap ..).onlyIn _
  have h5 : OnlyIn [.ctl] v (after (snapStatus h.val) v) := (within_snapStatus h.val).onlyIn v
  have hsu (g : Nat) : snapOf (after (setIst snapPage 11) u) g = snapOf s g := by
    rw [snapOf_of_snap (h3 .snap rfl), snapOf_of_snap (h2 .snap rfl), snapOf_of_snap (h1 .snap rfl)]
  have hset := snapIs_after_setSnap h.val (fun x => { x with restore := none }) (after (setIst snapPage 11) u)
  rw [← hv, hsu, hx] at hset
  have h14 : OnlyIn [.ctl, .snap, .freeCtr] s v := (((h1.wider rfl).trans (h2.wider rfl)).trans (h3.wider rfl)).trans (h4.wider rfl)
  have h15 : OnlyIn [.ctl, .snap, .freeCtr] s (after (snapStatus h.val) v) := h14.trans (h5.wider rfl)
  have hne : snapPage + 0x20 ≠ snapReg h.val + 4 := by
    unfold snapReg
    omega
  have hist : bit (rd (after (snapStatus h.val) v) (snapPage + 0x20)) 11 = true := by
    rw [(keepsReg_snapStatus_of hne (by decide)).eq, hv, ((within_setSnap ..).keepsReg _).eq, after_setIst, rd_ctl_same, bit_setBit_same _ (by decide)]
  have hcomp : (after (snapStatus h.val) v).completions = s.completions := h15 .completions rfl
  have hsnap (g : Nat) : snapOf (after (snapStatus h.val) v) g = snapOf v g := snapOf_of_snap (h5 .snap rfl) g
  generalize after (snapStatus h.val) v = w at hbody h15 hist hcomp hsnap
  have hfour : BitVec.ofNat 8 4 = (4 : Byte) := by decide
  obtain ⟨h6, hanswer⟩ := answered_host c 4 0 w
  generalize after (answer (.host c) 4 0) w = t at hbody h6 hanswer
  have htsnap (g : Nat) : snapOf t g = snapOf v g := (snapOf_of_snap (h6 .snap rfl) g).trans (hsnap g)
  have htctl : t.ctl = w.ctl := h6 .ctl rfl
  refine does_of_run hs.1 (a := actRestoreChunk h.val rec_) rfl ?_ ?_ <;> rw [hbody]
  · exact (h15.wider rfl).trans (h6.wider rfl)
  · refine ⟨⟨(htsnap _).trans hset.1, fun g hg => (htsnap g).trans ((hset.2 g hg).trans (hsu g))⟩, ?_, ?_⟩
    · rw [rd, htctl, ← rd]
      exact hist
    · rw [hanswer, hcomp, hfour]

end

end

end Sys2Proof.Machine
end

section
/-! The spare protocol between the lead and its spares (R562 to R567). -/

namespace Sys2Proof.Machine

-- One declaration after the other: elaborated side by side they take more memory than the check has.
set_option Elab.async false

/-! ## What the frames of a torus port leave -/

/-- The state in which a torus frame in order has its effect. -/
abbrev torusTaken (f : FrameHdr) (type len : Nat) (s : State) : State :=
  after (seq [setBx f.port.val (fun x => { x with rxSeq := (x.rxSeq + 1) % 65536, asked := false }), count (bxPage f.port.val) 1 1,
    sendSym f.port.val 5 0 0 (BitVec.ofNat 64 f.lseq.toNat), returnCredit f.port.val type len]) s

theorem after_rxTorus {s : State} {f : FrameHdr} (hf : FrameHere s f) (type len : Nat) {ok : State → Bool} (hok : ok s = true) (body : Act) :
    after (rxTorus f type len ok body) s = after body (torusTaken f type len s) := by
  obtain ⟨hlink, hcrc, hport, hpod, hdst, hseq⟩ := hf
  rw [rxTorus, after_look]
  dsimp only
  rw [if_neg (by omega), hpod, decide_eq_false (by omega), if_neg (by decide), hcrc, after_received hlink hseq, hok, if_pos rfl]

theorem torusTaken_inOrder {s : State} {f : FrameHdr} (hf : FrameHere s f) (type len : Nat) :
    InOrder s (torusTaken f type len s) f.port.val f.lseq.toNat type len := inOrder hf.1 ..

/-! ## Spares -/

theorem spares_after_setSpares (f : Spares → Spares) (s : State) : (after (setSpares f) s).spares = f s.spares := rfl

theorem SnapIs.refl (s : State) (h : Nat) : SnapIs s s h (snapOf s h) := ⟨rfl, fun _ _ => rfl⟩

theorem restore_after_standdown {s : State} {ts : List TakeHerd} {h : Nat} (hh : ∃ k ∈ ts, k.herd.val = h) :
    (snapOf (after (each ts (fun t => seq [setSnap t.herd.val (fun x => { x with restore := none }), snapStatus t.herd.val])) s) h).restore = none := by
  obtain ⟨k, hk, rfl⟩ := hh
  have hstep (t : TakeHerd) (u : State) : snapOf (after (seq [setSnap t.herd.val (fun x => { x with restore := none }), snapStatus t.herd.val]) u)
      k.herd.val = if k.herd.val = t.herd.val then { snapOf u t.herd.val with restore := none } else snapOf u k.herd.val := by
    have hset := snapIs_after_setSnap t.herd.val (fun x => { x with restore := none }) u
    rw [after_seq_cons, after_seq_cons, after_seq_nil, snapOf_of_snap ((within_snapStatus _).snap _)]
    split
    case isTrue he => rw [he, hset.1]
    case isFalse he => exact hset.2 _ he
  refine after_each_sets (f := fun s => (snapOf s k.herd.val).restore) hk (fun u => ?_) (fun t _ => ?_) s
  · rw [hstep, if_pos rfl]
  · by_cases he : k.herd.val = t.herd.val
    · exact .inl fun u => by rw [hstep, if_pos he]
    · exact .inr ⟨fun u => by rw [hstep, if_neg he]⟩

/-- R567: what the end of a recovery that is not possible leaves. -/
theorem failRecovery_leaves (s : State) : OnlyIn [.ctl, .core, .herd, .bx, .notices, .snap, .spares, .out] s (after failRecovery s) ∧
    (∀ p, (bxOf (after failRecovery s) p).rxSeq = (bxOf s p).rxSeq) ∧
    (after failRecovery s).spares = { s.spares with filling := [], rdone := [], failedPos := [], fullRestore := false } := by
  have haff : Within [.ctl, .core, .herd, .notices, .snap, .out] (each (affected s) fun p => failAffected p.1) := within_each fun _ => within_failAffected _
  have hgive : Within [.ctl, .bx, .out] (each s.spares.filling fun k => giveFrame (sparePort s) (spareFrame s 0x35 1 (0x40 + k.1) [])) :=
    within_each fun _ => within_giveFrame ..
  refine ⟨within_failRecovery.onlyIn s, fun p => ?_, ?_⟩
  · have hk : Keeps (fun s => (bxOf s p).rxSeq) failRecovery := by
      refine keeps_look fun s => keeps_seq_cons (keeps_look fun s => keeps_seq_cons (keeps_each fun _ _ => keepsRx_giveFrame ..)
        (keeps_seq_cons (keepsRx_within (within_setSpares _) p) keeps_seq_nil)) (keeps_seq_cons ?_
        (keeps_seq_cons (keepsRx_within (within_setSpares _) p) keeps_seq_nil))
      exact keeps_each fun _ _ => keepsRx_within (within_failAffected _) p
    exact hk.eq s
  · rw [failRecovery, after_look, after_seq_cons, after_seq_cons, after_seq_cons, after_seq_nil, spares_after_setSpares, haff.spares, standDownAll,
      after_look, after_seq_cons, after_seq_cons, after_seq_nil, spares_after_setSpares, hgive.spares]

/-- A recovery with nothing to end goes on. -/
theorem after_recoveryDone_waits {s : State} (h : s.spares.failedPos = [] ∨ s.spares.filling ≠ []) : after recoveryDone s = s := by
  have hno : (!s.spares.failedPos.isEmpty && s.spares.filling.isEmpty) = false := by
    rcases h with h | h
    · rw [h]
      rfl
    · rw [List.isEmpty_eq_false_iff.mpr h, Bool.and_false]
  rw [recoveryDone, after_look]
  dsimp only
  rw [hno, Bool.false_and, after_act, if_neg Bool.false_ne_true]

theorem affected_of_spares {s t : State} (hh : t.herd = s.herd) (hf : t.spares.failedPos = s.spares.failedPos) : affected t = affected s := by
  rw [affected, affected, hh, hf]

section
variable {s : State} (hs : Ready s) {p : BxNo} (hup : AuxUp s p)
include hs hup

/-! ## What a spare answers and refuses -/

theorem does_spq {addr : DWord} {g : Frame} (hfor : forSpare s addr = true)
    (hg : g = spareFrame s 0x31 2 (leadPos s) [BitVec.ofNat 8 (spareIdx s), BitVec.ofNat 8 (spareState s)]) (hmay : maySend s p.val g = true)
    (hwait : (bxOf s p.val).waiting = []) : Does (.spq p addr) s [.ctl, .bx, .out] fun t => Arrived s t p.val ∧
      t.out.getLast? = some (sentFrame s p.val g) := by
  have hin := auxTaken_inOrder hup 0x30 0
  have hbody : after (actSpq p.val addr) s = after (giveFrame p.val g) (auxTaken p.val 0x30 0 s) := by
    have hrun : inRun (auxTaken p.val 0x30 0 s) = inRun s := by
      rw [inRun, inRun, devState, devState, hin.regs _ (by decide)]
    have hlead : leadPos (auxTaken p.val 0x30 0 s) = leadPos s := by rw [leadPos, leadPos, hin.podCfg]
    rw [actSpq, after_rxAux hup, after_look, hin.forSpare, hfor, if_pos rfl, spareIdx, hin.spareReg, ← spareIdx, spareState, hin.taking, hrun, ← spareState,
      hlead, hg, spareFrame, spareFrame, hin.podId]
  obtain ⟨hw, hseq⟩ := hin.waiting p.val
  have hout := after_giveFrame_now (s := auxTaken p.val 0x30 0 s) (k := p.val) (g := g) (hw.trans hwait) (by rw [hg]; exact (by decide : 2 < 4))
    ((hin.maySend ..).trans hmay)
  refine does_of_run hs.1 (a := actSpq p.val addr) rfl ?_ ?_ <;> rw [hbody]
  · exact hin.only.trans ((within_giveFrame ..).onlyIn _)
  · refine ⟨hin.arrived ((keepsRx_giveFrame ..).eq _), ?_⟩
    rw [hout, List.getLast?_concat, hseq]

/-- A frame that its port does not accept raises SECURITY and has no other effect. -/
theorem does_refusedAux {c : Instr} {type len : Nat} {body : Act} (hc : exec c s = run (rxAux p.val type len body) s)
    (hbody : after body (auxTaken p.val type len s) = after (refuseFrame p.val) (auxTaken p.val type len s)) :
    Does c s [.ctl, .bx, .freeCtr, .out] fun t => Arrived s t p.val ∧ bit (rd t (bxPage p.val + 0x20)) 6 = true := by
  have hin := auxTaken_inOrder hup type len
  have he : after (rxAux p.val type len body) s =
      after (raise (bxPage p.val) { cls := .security }) (after (count (bxPage p.val) 7 1) (auxTaken p.val type len s)) := by
    rw [after_rxAux hup, hbody, refuseFrame, after_seq_cons, after_seq_cons, after_seq_nil]
  have hw : Within [.ctl] (count (bxPage p.val) 7 1) := within_count ..
  have h1 := hw.onlyIn (auxTaken p.val type len s)
  have h2 : OnlyIn [.ctl, .freeCtr] (after (count (bxPage p.val) 7 1) (auxTaken p.val type len s)) _ :=
    onlyIn_raise_mild _ (bxPage p.val) (c := { cls := .security }) nofun
  refine does_of_run hs.1 hc ?_ ?_ <;> rw [he]
  · exact ((hin.only.wider rfl).trans (h1.wider rfl)).trans (h2.wider rfl)
  · refine ⟨hin.arrived ?_, bit_after_raise _ nofun⟩
    rw [bxOf_of_bx (h2 .bx rfl), bxOf_of_bx (h1 .bx rfl)]

theorem does_standdown {addr : DWord} (hfor : forSpare s addr = true) : Does (.standdown p addr) s [.ctl, .bx, .snap, .spares, .out] fun t =>
    Arrived s t p.val ∧ taking t = false ∧ t.spares = { s.spares with ordered := [] } ∧ podCfg t = podCfg s ∧
      ∀ k ∈ s.spares.ordered, (snapOf t k.herd.val).restore = none := by
  have hin := auxTaken_inOrder hup 0x35 0
  obtain ⟨u, hu⟩ : ∃ u, u = auxTaken p.val 0x35 0 s := ⟨_, rfl⟩
  rw [← hu] at hin
  obtain ⟨v, hv⟩ : ∃ v, v = after (each s.spares.ordered
    (fun t => seq [setSnap t.herd.val (fun x => { x with restore := none }), snapStatus t.herd.val])) u := ⟨_, rfl⟩
  obtain ⟨w, hw⟩ : ∃ w, w = after (setSpares (fun x => { x with ordered := [] })) v := ⟨_, rfl⟩
  obtain ⟨y, hy⟩ : ∃ y, y = after (wrBit (snapPage + 0x104) 3 false) (after (wrBit spareReg 30 false) w) := ⟨_, rfl⟩
  have hbody : after (actStanddown p.val addr) s = after takePodMeasure y := by
    rw [actStanddown, after_rxAux hup, ← hu, after_look, hin.forSpare, hfor, Bool.not_true, if_neg Bool.false_ne_true]
    iterate 5 rw [after_seq_cons]
    rw [after_seq_nil, hin.spares, ← hv, ← hw, ← hy]
  have hsteps : Within [.ctl, .snap] (each s.spares.ordered
      (fun t => seq [setSnap t.herd.val (fun x => { x with restore := none }), snapStatus t.herd.val])) :=
    within_each fun _ => within_seq_cons ((within_setSnap ..).wider rfl) (within_seq_cons ((within_snapStatus _).wider rfl) within_seq_nil)
  have h2 : OnlyIn [.ctl, .snap] u v := hv ▸ hsteps.onlyIn u
  have h3 : OnlyIn [.spares] v w := hw ▸ (within_setSpares _).onlyIn v
  have h4 : OnlyIn [.ctl] w y := by
    rw [hy]
    exact ((within_wrBit ..).onlyIn w).trans ((within_wrBit ..).onlyIn _)
  have h5 : OnlyIn [.ctl] y (after takePodMeasure y) := within_takePodMeasure.onlyIn y
  have h35 : OnlyIn [.ctl, .spares] v (after takePodMeasure y) := (((h3.wider rfl).trans (h4.wider rfl)).trans (h5.wider rfl))
  have hmeas {x : Nat} (hx : x < 0x8000 ∨ 0xA000 ≤ x) : KeepsReg x takePodMeasure :=
    keeps_look fun _ => keepsReg_putMeasure (by unfold secPage; omega) (by unfold secPage; omega) _
  have hreg {x : Nat} (hx : x < 0x8000 ∨ 0xA000 ≤ x) (hno : x ≠ snapPage + 0x104) (hspare : x ≠ spareReg) :
      rd (after takePodMeasure y) x = rd w x := by
    rw [(hmeas hx).eq, hy, (keepsReg_wrBit hno _ _).eq, (keepsReg_wrBit hspare _ _).eq]
  refine does_of_run hs.1 (a := actStanddown p.val addr) rfl ?_ ?_ <;> rw [hbody]
  · exact ((hin.only.wider rfl).trans (h2.wider rfl)).trans (h35.wider rfl)
  · refine ⟨hin.arrived ?_, ?_, ?_, ?_, fun k hk => ?_⟩
    · rw [bxOf_of_bx (h35 .bx rfl), bxOf_of_bx (h2 .bx rfl)]
    · rw [taking, (hmeas (.inr (by decide))).eq, hy, (keepsReg_wrBit (by decide) _ _).eq, after_wrBit, rd_ctl_same, bit_setBit_same _ (by decide)]
    · have e1 : (after takePodMeasure y).spares = y.spares := h5 .spares rfl
      have e2 : y.spares = w.spares := h4 .spares rfl
      have e3 : v.spares = u.spares := h2 .spares rfl
      rw [e1, e2, hw, spares_after_setSpares, e3, hin.spares]
    · rw [podCfg, hreg (.inr (by decide)) (by decide) (by decide), hw, ((within_setSpares _).keepsReg _).eq, hv,
        (keeps_each fun t _ => keeps_seq_cons (keepsReg_setSnap ..) (keeps_seq_cons (keepsReg_snapStatus_of ?_ (by decide)) keeps_seq_nil)).eq]
      · exact hin.podCfg
      · unfold snapReg snapPage bxPage
        omega
    · rw [snapOf_of_snap (h35 .snap rfl), hv]
      exact restore_after_standdown ⟨k, hk, rfl⟩

/-! ## What the lead hears of its spares -/

theorem does_noteSpare (hlead : isLead s = true) {c : Instr} {type len k state : Nat}
    (hc : exec c s = run (rxAux p.val type len (look fun s => act (isLead s) (noteSpare k state))) s) : Does c s [.ctl, .bx, .spares, .out] fun t =>
      Arrived s t p.val ∧
      t.spares = { s.spares with last := (k, BitVec.ofNat 8 state) :: s.spares.last.filter (fun q => decide (q.1 ≠ k)) } := by
  have hin := auxTaken_inOrder hup type len
  have he : after (rxAux p.val type len (look fun s => act (isLead s) (noteSpare k state))) s = after (noteSpare k state) (auxTaken p.val type len s) := by
    rw [after_rxAux hup, after_look, hin.isLead, hlead, after_act, if_pos rfl]
  have h1 : OnlyIn [.spares] (auxTaken p.val type len s) (after (noteSpare k state) (auxTaken p.val type len s)) := (within_noteSpare ..).onlyIn _
  refine does_of_run hs.1 hc ?_ ?_ <;> rw [he]
  · exact (hin.only.wider rfl).trans (h1.wider rfl)
  · refine ⟨hin.arrived (by rw [bxOf_of_bx (h1 .bx rfl)]), ?_⟩
    rw [noteSpare, spares_after_setSpares, hin.spares]

section
variable {k : Fin 4} {q : Nat} (hlead : isLead s = true) (hfill : s.spares.filling.find? (fun y => decide (y.1 = k.val)) = some (k.val, q))
include hlead hfill

omit hs in
theorem after_actFilldone (ok : Bool) : after (actFilldone p.val k ok) s = after (if ok then
      seq [setSpares (fun x => { x with
          filling := x.filling.filter (fun y => decide (y.1 ≠ k.val))
          rdone := (affected s).map (fun h => 64 * h.1 + q) ++ x.rdone }), recoveryDone]
    else failRecovery) (auxTaken p.val 0x34 2 s) := by
  have hin := auxTaken_inOrder hup 0x34 2
  have haff : affected (auxTaken p.val 0x34 2 s) = affected s := affected_of_spares (hin.only .herd rfl) (by rw [hin.spares])
  rw [actFilldone, after_rxAux hup, after_look, hin.spares, hfill]
  dsimp only
  rw [hin.isLead, hlead, after_act, if_pos rfl, haff]

theorem does_filldone_some (hmore : ∃ y ∈ s.spares.filling, y.1 ≠ k.val) : Does (.filldone p k true) s [.ctl, .bx, .spares, .out] fun t =>
    Arrived s t p.val ∧ t.spares = { s.spares with
      filling := s.spares.filling.filter (fun y => decide (y.1 ≠ k.val))
      rdone := (affected s).map (fun h => 64 * h.1 + q) ++ s.spares.rdone } := by
  have hin := auxTaken_inOrder hup 0x34 2
  obtain ⟨u, hu⟩ : ∃ u, u = after (setSpares (fun x => { x with
    filling := x.filling.filter (fun y => decide (y.1 ≠ k.val))
    rdone := (affected s).map (fun h => 64 * h.1 + q) ++ x.rdone })) (auxTaken p.val 0x34 2 s) := ⟨_, rfl⟩
  have h1 : OnlyIn [.spares] (auxTaken p.val 0x34 2 s) u := hu ▸ (within_setSpares _).onlyIn _
  have hus : u.spares = { s.spares with
      filling := s.spares.filling.filter (fun y => decide (y.1 ≠ k.val))
      rdone := (affected s).map (fun h => 64 * h.1 + q) ++ s.spares.rdone } := by
    rw [hu, spares_after_setSpares, hin.spares]
  have hleft : u.spares.filling ≠ [] := by
    obtain ⟨y, hy, hne⟩ := hmore
    rw [hus]
    exact List.ne_nil_of_mem (List.mem_filter.mpr ⟨hy, decide_eq_true hne⟩)
  have hbody : after (actFilldone p.val k true) s = u := by
    rw [after_actFilldone hup hlead hfill, if_pos rfl, after_seq_cons, after_seq_cons, after_seq_nil, ← hu, after_recoveryDone_waits (.inr hleft)]
  refine does_of_run hs.1 (a := actFilldone p.val k true) rfl ?_ ?_ <;> rw [hbody]
  · exact (hin.only.wider rfl).trans (h1.wider rfl)
  · exact ⟨hin.arrived (by rw [bxOf_of_bx (h1 .bx rfl)]), hus⟩

theorem does_filldone_last (honly : s.spares.filling = [(k.val, q)]) (hfailed : s.spares.failedPos ≠ []) (haff : affected s = []) :
    Does (.filldone p k true) s [.ctl, .bx, .spares, .out] fun t => Arrived s t p.val ∧
      t.spares = { s.spares with filling := [], rdone := [], failedPos := [], fullRestore := false } := by
  have hin := auxTaken_inOrder hup 0x34 2
  obtain ⟨u, hu⟩ : ∃ u, u = after (setSpares (fun x => { x with
    filling := x.filling.filter (fun y => decide (y.1 ≠ k.val))
    rdone := (affected s).map (fun h => 64 * h.1 + q) ++ x.rdone })) (auxTaken p.val 0x34 2 s) := ⟨_, rfl⟩
  have h1 : OnlyIn [.spares] (auxTaken p.val 0x34 2 s) u := hu ▸ (within_setSpares _).onlyIn _
  have hus : u.spares = { s.spares with
      filling := []
      rdone := s.spares.rdone } := by
    rw [hu, spares_after_setSpares, hin.spares, honly, haff]
    simp
  have huaff : affected u = [] := by
    have hh : u.herd = s.herd := Eq.trans (h1 .herd rfl) (hin.only .herd rfl)
    rw [← haff]
    exact affected_of_spares hh (by rw [hus])
  obtain ⟨v, hv⟩ : ∃ v, v = after (setSpares (fun x => { x with rdone := [], failedPos := [], fullRestore := false })) u := ⟨_, rfl⟩
  have h2 : OnlyIn [.spares] u v := hv ▸ (within_setSpares _).onlyIn _
  have hvs : v.spares = { s.spares with filling := [], rdone := [], failedPos := [], fullRestore := false } := by
    rw [hv, spares_after_setSpares, hus]
  have hbody : after (actFilldone p.val k true) s = v := by
    have hfailedU : u.spares.failedPos.isEmpty = false := by
      rw [hus]
      exact List.isEmpty_eq_false_iff.mpr hfailed
    have hfillU : u.spares.filling.isEmpty = true := by
      rw [hus]
      rfl
    rw [after_actFilldone hup hlead hfill, if_pos rfl, after_seq_cons, after_seq_cons, after_seq_nil, ← hu, recoveryDone, after_look]
    dsimp only
    rw [hfailedU, hfillU, huaff, List.all_nil, after_act, if_pos (by decide), after_seq_cons, after_seq_cons, after_seq_cons, after_seq_nil, after_each_nil,
      after_each_nil, hv]
  refine does_of_run hs.1 (a := actFilldone p.val k true) rfl ?_ ?_ <;> rw [hbody]
  · exact (hin.only.wider rfl).trans ((h1.trans h2).wider rfl)
  · exact ⟨hin.arrived (by rw [bxOf_of_bx (h2 .bx rfl), bxOf_of_bx (h1 .bx rfl)]), hvs⟩

theorem does_filldone_failed : Does (.filldone p k false) s [.ctl, .core, .herd, .bx, .notices, .snap, .spares, .out] fun t =>
    Arrived s t p.val ∧ t.spares = { s.spares with filling := [], rdone := [], failedPos := [], fullRestore := false } := by
  have hin := auxTaken_inOrder hup 0x34 2
  have hbody := after_actFilldone hup hlead hfill false
  rw [if_neg Bool.false_ne_true] at hbody
  obtain ⟨h1, hrx, hsp⟩ := failRecovery_leaves (auxTaken p.val 0x34 2 s)
  rw [← hbody] at h1 hrx hsp
  refine does_of_run hs.1 (a := actFilldone p.val k false) rfl ((hin.only.wider rfl).trans (h1.wider rfl)) ⟨hin.arrived (hrx _), ?_⟩
  rw [hsp, hin.spares]

end

end

/-! ## The restores of members -/

section
variable {s : State} (hs : Ready s) {f : FrameHdr} (hf : FrameHere s f) (hlead : isLead s = true)
include hs hf hlead

theorem does_rdone (hnone : s.spares.failedPos = []) : Does (.rdone f 0) s [.ctl, .bx, .spares, .out] fun t => Arrived s t f.port.val ∧
    t.spares = { s.spares with rdone := (64 * f.herd.val + f.src.toNat) :: s.spares.rdone } := by
  have hin := torusTaken_inOrder hf 0x2B 1
  obtain ⟨u, hu⟩ : ∃ u, u = after (setSpares (fun x => { x with rdone := (64 * f.herd.val + f.src.toNat) :: x.rdone })) (torusTaken f 0x2B 1 s) := ⟨_, rfl⟩
  have h1 : OnlyIn [.spares] (torusTaken f 0x2B 1 s) u := hu ▸ (within_setSpares _).onlyIn _
  have hus : u.spares = { s.spares with rdone := (64 * f.herd.val + f.src.toNat) :: s.spares.rdone } := by
    rw [hu, spares_after_setSpares, hin.spares]
  have hbody : after (actRdone f 0) s = u := by
    rw [actRdone, after_rxTorus hf _ _ hlead, noteRdone, if_pos (by decide), after_seq_cons, after_seq_cons, after_seq_nil, ← hu,
      after_recoveryDone_waits (.inl (by rw [hus]; exact hnone))]
  refine does_of_run hs.1 (a := actRdone f 0) rfl ?_ ?_ <;> rw [hbody]
  · exact (hin.only.wider rfl).trans (h1.wider rfl)
  · exact ⟨hin.arrived (by rw [bxOf_of_bx (h1 .bx rfl)]), hus⟩

theorem does_rdone_failed {status : Byte} (hst : status ≠ 0) : Does (.rdone f status) s [.ctl, .core, .herd, .bx, .notices, .snap, .spares, .out] fun t =>
    Arrived s t f.port.val ∧ t.spares = { s.spares with filling := [], rdone := [], failedPos := [], fullRestore := false } := by
  have hin := torusTaken_inOrder hf 0x2B 1
  have hbody : after (actRdone f status) s = after failRecovery (torusTaken f 0x2B 1 s) := by
    rw [actRdone, after_rxTorus hf _ _ hlead, noteRdone, if_neg (by simpa using hst)]
  obtain ⟨h1, hrx, hsp⟩ := failRecovery_leaves (torusTaken f 0x2B 1 s)
  rw [← hbody] at h1 hrx hsp
  refine does_of_run hs.1 (a := actRdone f status) rfl ((hin.only.wider rfl).trans (h1.wider rfl)) ⟨hin.arrived (hrx _), ?_⟩
  rw [hsp, hin.spares]

end

end Sys2Proof.Machine
end

section
/-! Settles O51: the poll of the spares, the order to take a position, and the statement (R562, R563). -/

namespace Sys2Proof.Machine

-- One declaration after the other: elaborated side by side they take more memory than the check has.
set_option Elab.async false

/-! ## Frames that leave one after the other -/

/-- Port k may send n more frames of 32 bytes on channel 1. -/
structure MaySendMore (s : State) (k n : Nat) : Prop where
  up : linkUp s k = true
  runs : s.side.linkStop = false
  empty : (bxOf s k).waiting = []
  credit : 32 * n ≤ (bxOf s k).credits.getD 1 0
  room : replayBytes s k + 32 * n ≤ 131072

theorem replayBytes_append (s t : State) (k : Nat) (g : Frame) (h : (bxOf t k).replay = (bxOf s k).replay ++ [g]) :
    replayBytes t k = replayBytes s k + frameBytes g := by
  rw [replayBytes, replayBytes, h, List.foldl_append, List.foldl_cons, List.foldl_nil]

theorem MaySendMore.sent {s : State} {k n : Nat} (h : MaySendMore s k (n + 1)) {g : Frame} (hlvc : g.lvc = 1) (hdl : g.dl = false) (hdata : g.data = []) :
    MaySendMore (after (giveFrame k g) s) k n ∧ (after (giveFrame k g) s).out = s.out ++ [sentFrame s k g] := by
  obtain ⟨hup, hruns, hempty, hcredit, hroom⟩ := h
  have hbytes : frameBytes g = 32 := by rw [frameBytes, hdata]; rfl
  have hpool : poolOf g = 1 := by rw [poolOf, hlvc, hdl]; rfl
  have hmay : maySend s k g = true := by
    rw [maySend, hup, hbytes, hpool, hruns, decide_eq_true (by omega : 32 ≤ (bxOf s k).credits.getD 1 0), decide_eq_true (by omega : replayBytes s k + 32 ≤ 131072),
      hlvc]
    decide
  have hlt : g.lvc < 4 := by omega
  have hbx := bxOf_after_giveFrame_now hempty hlt hmay
  have hside : (after (giveFrame k g) s).side = s.side := (within_giveFrame ..).side s
  refine ⟨⟨?_, ?_, ?_, ?_, ?_⟩, after_giveFrame_now hempty hlt hmay⟩
  · have hp := bxPage_page k
    rw [linkUp_of_rd ((keepsReg_giveFrame (.inr (by simp; omega)) k g).eq s), hup]
  · rw [hside, hruns]
  · rw [hbx]
    exact hempty
  · rw [hbx, hbytes, hpool]
    dsimp only
    have hlen : 1 < (bxOf s k).credits.length := by
      by_contra hno
      rw [List.getD_eq_default _ _ (by omega)] at hcredit
      omega
    rw [List.getD_eq_getElem _ _ (by rw [List.length_set]; exact hlen), List.getElem_set_self]
    omega
  · rw [replayBytes_append s _ k { g with lseq := (bxOf s k).txSeq } (by rw [hbx])]
    have : frameBytes { g with lseq := (bxOf s k).txSeq } = 32 := hbytes
    omega

theorem sent_each {k : Nat} {g : Nat → Frame} (hg : ∀ j, (g j).lvc = 1 ∧ (g j).dl = false ∧ (g j).data = []) :
    ∀ (js : List Nat) (s : State), MaySendMore s k js.length → ∃ fs : List Frame,
      (after (each js fun j => giveFrame k (g j)) s).out = s.out ++ fs.map (fun f => Output.frame k f (frameCrc f)) ∧
      fs.map (fun f => (f.type, f.addr)) = js.map (fun j => ((g j).type, (g j).addr)) := by
  intro js
  induction js with
  | nil => exact fun s _ => ⟨[], (List.append_nil _).symm, rfl⟩
  | cons j js ih =>
    intro s h
    obtain ⟨hlvc, hdl, hdata⟩ := hg j
    obtain ⟨hmore, hout⟩ := h.sent hlvc hdl hdata
    obtain ⟨fs, hfs, hmap⟩ := ih _ hmore
    refine ⟨{ g j with lseq := (bxOf s k).txSeq } :: fs, ?_, ?_⟩
    · rw [after_each_cons, hfs, hout, List.append_assoc]
      rfl
    · rw [List.map_cons, List.map_cons, hmap]

theorem does_sparePoll {s : State} (hs : Ready s) {k : Nat} (hlead : isLead s = true) (hk : k = sparePort s) (hup : linkUp s k = true)
    (hruns : s.side.linkStop = false) (hempty : (bxOf s k).waiting = []) (hcredit : 128 ≤ (bxOf s k).credits.getD 1 0)
    (hroom : replayBytes s k ≤ 130944) :
    Does .sparePoll s [.ctl, .bx, .out] fun t => ∃ fs : List Frame, t.out = s.out ++ fs.map (fun f => Output.frame k f (frameCrc f)) ∧
      fs.map (fun f => (f.type, f.addr)) = (List.range 4).map (fun i => (0x30, podId s + 65536 * (0x40 + i))) := by
  have hbody : after actSparePoll s = after (each (List.range 4) fun j => giveFrame k (spareFrame s 0x30 1 (0x40 + j) [])) s := by
    rw [actSparePoll, after_look, hlead, after_act, if_pos rfl, hk]
  have hlen : (List.range 4).length = 4 := rfl
  obtain ⟨fs, hfs, hmap⟩ := sent_each (k := k) (g := fun j => spareFrame s 0x30 1 (0x40 + j) []) (fun _ => ⟨rfl, rfl, rfl⟩) (List.range 4) s
    ⟨hup, hruns, hempty, by omega, by omega⟩
  have hw : Within [.ctl, .bx, .out] (each (List.range 4) fun j => giveFrame k (spareFrame s 0x30 1 (0x40 + j) [])) := within_each fun _ => within_giveFrame ..
  refine does_of_run hs.1 (a := actSparePoll) rfl ?_ ?_ <;> rw [hbody]
  · exact hw.onlyIn s
  · exact ⟨fs, hfs, hmap⟩

/-! ## Ports beside the torus -/

theorem axisPort_lt {s : State} {p q a k : Nat} (ha : a < 3) {plus : Bool} (h : axisPort s p q a plus = some k) : k < 6 := by
  rw [axisPort] at h
  split at h
  · cases h
  · split at h
    · cases h
      omega
    · split at h
      · cases h
        omega
      · cases h
        split <;> omega

theorem podPort_lt {s : State} {p d k : Nat} (h : podPort s p d = some k) : k < 6 := by
  obtain ⟨a, ha, hk⟩ := List.exists_of_findSome?_eq_some h
  refine axisPort_lt (a := a) ?_ hk
  simp only [List.mem_cons, List.not_mem_nil, or_false] at ha
  omega

/-- An act that leaves what port p holds and its state. -/
structure AuxKept (p : Nat) (a : Act) : Prop where
  port : Keeps (fun s => bxOf s p) a
  link : KeepsReg (bxPage p + 0x104) a

section
variable {p : Nat} (hp : 6 ≤ p)

theorem frameFree_link (p : Nat) : FrameFree (bxPage p + 0x104) := by
  have := bxPage_page p
  exact .inr (by simp; omega)

theorem auxKept_nop : AuxKept p nop := ⟨keeps_nop, keeps_nop⟩

theorem auxKept_cons {a : Act} {as : List Act} (ha : AuxKept p a) (has : AuxKept p (seq as)) : AuxKept p (seq (a :: as)) :=
  ⟨keeps_seq_cons ha.port has.port, keeps_seq_cons ha.link has.link⟩

theorem auxKept_nil : AuxKept p (seq []) := ⟨keeps_seq_nil, keeps_seq_nil⟩

theorem auxKept_look {g : State → Act} (h : ∀ s, AuxKept p (g s)) : AuxKept p (look g) :=
  ⟨keeps_look fun s => (h s).port, keeps_look fun s => (h s).link⟩

theorem auxKept_act {c : Bool} {a : Act} (h : AuxKept p a) : AuxKept p (act c a) := ⟨keeps_act fun _ => h.port, keeps_act fun _ => h.link⟩

theorem auxKept_ite {c : Prop} [Decidable c] {a b : Act} (ha : AuxKept p a) (hb : AuxKept p b) : AuxKept p (if c then a else b) :=
  ⟨keeps_ite (fun _ => ha.port) fun _ => hb.port, keeps_ite (fun _ => ha.link) fun _ => hb.link⟩

theorem auxKept_each {α : Type} {xs : List α} {g : α → Act} (h : ∀ x ∈ xs, AuxKept p (g x)) : AuxKept p (each xs g) :=
  ⟨keeps_each fun x hx => (h x hx).port, keeps_each fun x hx => (h x hx).link⟩

theorem auxKept_within {ps : List Part} {a : Act} (h : Within ps a) (hb : ps.contains .bx = false := by rfl)
    (hc : ps.contains .ctl = false := by rfl) : AuxKept p a := ⟨⟨fun s => bxOf_of_bx (h.bx s hb) p⟩, h.keepsReg _ hc⟩

theorem auxKept_regs {ps : List Part} {a : Act} (h : Within ps a) (hk : KeepsReg (bxPage p + 0x104) a) (hb : ps.contains .bx = false := by rfl) :
    AuxKept p a := ⟨⟨fun s => bxOf_of_bx (h.bx s hb) p⟩, hk⟩

include hp

theorem auxKept_sendFrame (f : Frame) : AuxKept p (sendFrame f) := by
  refine ⟨keeps_look fun s => ?_, keepsReg_sendFrame (frameFree_link p) f⟩
  split
  case h_1 k hk => exact keepsBx_giveFrame (by have := podPort_lt hk; omega) _
  case h_2 => exact keeps_nop

theorem auxKept_grantWaiting (n : Nat) : AuxKept p (grantWaiting n) := by
  induction n with
  | zero => exact auxKept_nop
  | succ n ih =>
    refine auxKept_look fun s => ?_
    split
    · exact auxKept_nop
    · exact auxKept_act (auxKept_cons (auxKept_within (within_one (ps := [.mc]) rfl))
        (auxKept_cons (auxKept_ite (auxKept_within (within_takeGrant ..)) (auxKept_sendFrame hp _)) (auxKept_cons ih auxKept_nil)))

theorem auxKept_endOnPort (n : Nat) : AuxKept p (endOnPort n) :=
  auxKept_look fun _ => auxKept_cons (auxKept_within (within_one (ps := [.coll]) rfl)) (auxKept_cons (auxKept_each fun _ _ =>
    auxKept_look fun _ => auxKept_cons (auxKept_within (within_one (ps := [.mc]) rfl)) (auxKept_cons (auxKept_grantWaiting hp _) auxKept_nil)) auxKept_nil)

variable {n : Nat} (hn : n < 6)
include hn

theorem auxKept_setLink (st lanes : Nat) : AuxKept p (setLink n st lanes) :=
  auxKept_regs (within_wr ..) (keepsReg_setLink_at (by unfold bxPage; omega) st lanes)

theorem auxKept_startTraining : AuxKept p (startTraining n) :=
  auxKept_regs (within_startTraining n) (keepsReg_startTraining_at (by unfold bxPage; omega) (by unfold bxPage; omega))

theorem auxKept_portDown : AuxKept p (portDown n) := by
  refine auxKept_look fun s => auxKept_cons (auxKept_endOnPort hp n) (auxKept_cons
    (auxKept_ite (auxKept_startTraining hp hn) (auxKept_setLink hp hn 0 0)) (auxKept_cons ⟨⟨fun s => bxOf_bx_other (by omega) ..⟩,
      (within_one (ps := [.bx]) rfl).keepsReg _⟩ (auxKept_cons (auxKept_regs (within_count ..) (keepsReg_count ?_ ?_ ?_ _))
        (auxKept_cons (auxKept_regs (within_setIst ..) (keepsReg_setIst ?_ _)) (auxKept_cons (auxKept_regs (within_raise ..) (keepsReg_raise ?_ ?_ nofun))
          auxKept_nil)))))
  all_goals
    unfold bxPage
    omega

theorem auxKept_linkCtrlWrite (v : Word) : AuxKept p (linkCtrlWrite n v) :=
  auxKept_look fun _ => auxKept_cons (auxKept_regs (within_maskWrite ..) (keepsReg_maskWrite (by unfold bxPage; omega) _ _))
    (auxKept_cons (auxKept_act (auxKept_portDown hp hn)) (auxKept_cons (auxKept_look fun _ => auxKept_act (auxKept_startTraining hp hn)) auxKept_nil))

end

theorem auxKept_podLinks {p : Nat} (hp : 6 ≤ p) : AuxKept p podLinks :=
  auxKept_cons (auxKept_look fun _ => auxKept_each fun n hn => auxKept_linkCtrlWrite hp (by
      have := List.mem_range.mp (List.mem_of_mem_filter hn)
      omega) _)
    (auxKept_cons (auxKept_look fun _ => auxKept_each fun n hn => auxKept_look fun _ => by
      have h6 : n < 6 := by
        have := List.mem_range.mp (List.mem_of_mem_filter hn)
        omega
      exact auxKept_ite (auxKept_cons (auxKept_portDown hp h6) (auxKept_cons (auxKept_setLink hp h6 ..) auxKept_nil))
        (auxKept_act (auxKept_setLink hp h6 ..))) auxKept_nil)

theorem within_podWords (c : PodParams) : Within [.ctl] (podWords c) :=
  within_seq_cons (within_wr ..) <| within_seq_cons (within_wr64 ..) <| within_seq_cons (within_each fun _ => within_wr ..) <|
    within_seq_cons (within_wr ..) <| within_seq_cons (within_wrBit ..) within_seq_nil

/-- A pod's configuration leaves the registers outside the pages of the ports and of the bead unit. -/
theorem keepsReg_podWords {x : Nat} (hx : x < 0x3000 ∨ (0x4000 ≤ x ∧ x < 0x160000) ∨ 0x168000 ≤ x ∨ x % 4096 = 0x104) (c : PodParams) :
    KeepsReg x (podWords c) := by
  have hbead : beadPage = 0x3000 := rfl
  refine keeps_seq_cons (keepsReg_wr ?_ _) (keeps_seq_cons (keepsReg_wr64 ?_ ?_ _) (keeps_seq_cons (keeps_each fun n hn => keepsReg_wr ?_ _)
    (keeps_seq_cons (keepsReg_wr ?_ _) (keeps_seq_cons (keepsReg_wrBit ?_ _ _) keeps_seq_nil))))
  case refine_4 =>
    have := List.mem_range.mp hn
    unfold bxPage
    omega
  all_goals
    unfold bxPage at *
    omega

theorem auxKept_writePod {p : Nat} (hp : 6 ≤ p) (c : PodParams) : AuxKept p (writePod c) := by
  have h1 : AuxKept p (podWords c) := auxKept_regs (within_podWords c) (keepsReg_podWords (.inr (.inr (.inr (by
    have := bxPage_page p
    omega)))) c)
  have h2 := auxKept_podLinks hp
  exact ⟨⟨fun s => by rw [after_writePod, h2.port.eq, h1.port.eq]⟩, ⟨fun s => by rw [after_writePod, h2.link.rd, h1.link.rd]⟩⟩

/-- What the configuration of a pod shows once it is written. -/
theorem podIs_after_writePod (c : PodParams) (s : State) : podEn (after (writePod c) s) = true ∧ ownPos (after (writePod c) s) = c.pos.toNat ∧
    leadPos (after (writePod c) s) = c.leadPos.toNat ∧ podId (after (writePod c) s) = c.podId.toNat ∧
    bit (rd (after (writePod c) s) (beadPage + 0x120)) 1 = decide (c.pos = c.leadPos) := by
  obtain ⟨hcfg, hbead, hid, -, -⟩ := rd_after_podWords c s
  have hb : bxPage 0 = 0x160000 := rfl
  have hcfg' : podCfg (after (writePod c) s) = podCfg (after (podWords c) s) := by
    rw [podCfg, podCfg, after_writePod, (keepsReg_podLinks (by unfold LinkFree; omega) (by omega)).eq]
  obtain ⟨hen, hpos, hlead⟩ := podCfg_fields c
  refine ⟨by rw [podEn, hcfg', hcfg, hen], by rw [ownPos, hcfg', hcfg, hpos], by rw [leadPos, hcfg', hcfg, hlead], ?_, ?_⟩
  · rw [podId, after_writePod, (keepsReg_podLinks (by unfold LinkFree; omega) (by omega)).eq, hid, fld_ofNat _ (by decide) (by decide)]
    have := c.podId.isLt
    simp only [bits]
    omega
  · have h3 : beadPage = 0x3000 := rfl
    rw [after_writePod, (keepsReg_podLinks (by unfold LinkFree; omega) (by omega)).eq, hbead]

/-! ## TAKEOVER -/

theorem writesIn_giveFrame (n : Nat) (f : Frame) : WritesIn [bxPage n] (giveFrame n f) := fun x hx => by
  have hset (g : BxPort → BxPort) : KeepsReg x (setBx n g) := (within_setBx_bx ..).keepsReg x
  have hsend (k : Nat) : KeepsReg x (sendWaiting n k) := by
    induction k with
    | zero => exact keeps_nop
    | succ k ih =>
      refine keeps_look fun s => ?_
      split
      · exact keeps_nop
      · exact keeps_seq_cons (hset _) (keeps_seq_cons (keeps_look fun _ => keeps_seq_cons (hset _)
          (keeps_seq_cons (writesIn_putFrame n _ x hx) keeps_seq_nil)) (keeps_seq_cons ih keeps_seq_nil))
  exact keeps_seq_cons (hset _) (keeps_seq_cons (keeps_look fun _ => hsend _) keeps_seq_nil)

/-- A spare takes the order: its position, the herds to refill, and the answer. -/
def takeOrder (p pos : Nat) (hs : List TakeHerd) : Act :=
  seq [wrBit spareReg 30 true, wrFld spareReg 21 16 pos, wrBit (snapPage + 0x104) 3 true, setSpares (fun x => { x with ordered := hs }),
    look fun s => giveFrame p (spareFrame s 0x33 2 (leadPos s) [BitVec.ofNat 8 (spareIdx s)]), takePodMeasure]

/-- What the order leaves. -/
structure OrderTaken (s t : State) (p : Nat) (hs : List TakeHerd) : Prop where
  only : OnlyIn [.ctl, .bx, .spares, .out] s t
  rx : (bxOf t p).rxSeq = (bxOf s p).rxSeq
  taking : taking t = true
  spares : t.spares = { s.spares with ordered := hs }
  regs : ∀ x, x < 0x8000 ∨ (0xA000 ≤ x ∧ x < 0x1C0000) → x / 4096 * 4096 ≠ bxPage p → rd t x = rd s x
  answer : ∀ g, g = spareFrame s 0x33 2 (leadPos s) [BitVec.ofNat 8 (spareIdx s)] → maySend s p g = true → (bxOf s p).waiting = [] →
    sentFrame s p g ∈ t.out

theorem orderTaken {p : Nat} (hp : p < 8) (pos : Nat) (hs : List TakeHerd) (s : State) : OrderTaken s (after (takeOrder p pos hs) s) p hs := by
  obtain ⟨u, hu⟩ : ∃ u, u = after (wrBit (snapPage + 0x104) 3 true) (after (wrFld spareReg 21 16 pos) (after (wrBit spareReg 30 true) s)) := ⟨_, rfl⟩
  obtain ⟨v, hv⟩ : ∃ v, v = after (setSpares (fun x => { x with ordered := hs })) u := ⟨_, rfl⟩
  obtain ⟨w, hw⟩ : ∃ w, w = after (giveFrame p (spareFrame v 0x33 2 (leadPos v) [BitVec.ofNat 8 (spareIdx v)])) v := ⟨_, rfl⟩
  have hbody : after (takeOrder p pos hs) s = after takePodMeasure w := by
    rw [takeOrder]
    iterate 6 rw [after_seq_cons]
    rw [after_seq_nil, after_look, ← hu, ← hv, ← hw]
  have hsp : spareReg = 0x1C0120 := rfl
  have hsnap : snapPage = 0x1C0000 := rfl
  have h1 : OnlyIn [.ctl] s u := by
    rw [hu]
    exact (((within_wrBit ..).onlyIn s).trans ((within_wrFld ..).onlyIn _)).trans ((within_wrBit ..).onlyIn _)
  have h2 : OnlyIn [.spares] u v := hv ▸ (within_setSpares _).onlyIn u
  have h3 : OnlyIn [.ctl, .bx, .out] v w := hw ▸ (within_giveFrame ..).onlyIn v
  have h4 : OnlyIn [.ctl] w (after takePodMeasure w) := within_takePodMeasure.onlyIn w
  have hmeas {x : Nat} (hx : x < 0x8000 ∨ 0xA000 ≤ x) : KeepsReg x takePodMeasure :=
    keeps_look fun _ => keepsReg_putMeasure (by unfold secPage; omega) (by unfold secPage; omega) _
  have hvreg {x : Nat} (hx : x < 0x1C0000) : rd v x = rd s x := by
    rw [hv, ((within_setSpares _).keepsReg x).eq, hu, (keepsReg_wrBit (by omega) _ _).eq, (keepsReg_wrFld (by omega) ..).eq,
      (keepsReg_wrBit (by omega) _ _).eq]
  have hspare : rd v spareReg = setFld (Machine.setBit (rd s spareReg) 30 true) 21 16 pos := by
    rw [hv, ((within_setSpares _).keepsReg _).eq, hu, (keepsReg_wrBit (by decide) _ _).eq, after_wrFld, rd_ctl_same, after_wrBit, rd_ctl_same]
  have hidx : spareIdx v = spareIdx s := by
    rw [spareIdx, hspare, fld_setFld_other _ (by decide) (by decide) (.inr (by decide)), fld_setBit_other _ (by decide) (.inl (by decide)), spareIdx]
  have hvbx (k : Nat) : bxOf v k = bxOf s k := by rw [bxOf_of_bx (h2 .bx rfl), bxOf_of_bx (h1 .bx rfl)]
  rw [hbody]
  refine ⟨(((h1.wider rfl).trans (h2.wider rfl)).trans (h3.wider rfl)).trans (h4.wider rfl), ?_, ?_, ?_, fun x hx hpage => ?_, fun g hg hmay hwait => ?_⟩
  · rw [bxOf_of_bx (h4 .bx rfl), hw, (keepsRx_giveFrame ..).eq, hvbx]
  · have hpage : spareReg / 4096 * 4096 ∉ [bxPage p] := by
      rw [List.mem_singleton, hsp]
      unfold bxPage
      omega
    rw [taking, (hmeas (.inr (by decide))).eq, hw, (writesIn_giveFrame p _ _ hpage).eq, hspare,
      bit_setFld_other _ (by decide) (by decide) (.inr (by decide)), bit_setBit_same _ (by decide)]
  · have e4 : (after takePodMeasure w).spares = w.spares := h4 .spares rfl
    have e3 : w.spares = v.spares := h3 .spares rfl
    have e1 : u.spares = s.spares := h1 .spares rfl
    rw [e4, e3, hv, spares_after_setSpares, e1]
  · rw [(hmeas (by omega)).eq, hw, (writesIn_giveFrame p _ _ (by rw [List.mem_singleton]; exact hpage)).eq, hvreg (by omega)]
  · have hcfg : podCfg v = podCfg s := hvreg (by unfold bxPage; omega)
    have hid : podId v = podId s := by rw [podId, podId, hvreg (by unfold bxPage; omega)]
    have hframe : spareFrame v 0x33 2 (leadPos v) [BitVec.ofNat 8 (spareIdx v)] = g := by
      rw [hg, hidx, leadPos, hcfg, ← leadPos, spareFrame, hid, ← spareFrame]
    have hmay' : maySend v p g = true := by
      have hlink : linkUp v p = linkUp s p := linkUp_of_rd (hvreg (by unfold bxPage; omega))
      have hside : v.side = s.side := Eq.trans (h2 .side rfl) (h1 .side rfl)
      rw [maySend, hlink, replayBytes, hvbx, hside]
      exact hmay
    have e4 : (after takePodMeasure w).out = w.out := h4 .out rfl
    rw [e4, hw, hframe, after_giveFrame_now (by rw [hvbx, hwait]) (by rw [hg]; exact (by decide : 2 < 4)) hmay', hvbx]
    exact List.mem_append_right _ (List.mem_singleton_self _)

theorem after_seq_grouped (a : Act) (as : List Act) (s : State) : after (seq (a :: as)) s = after (seq [a, seq as]) s := by
  rw [after_seq_cons, after_seq_cons, after_seq_cons, after_seq_nil]

section
variable {s : State} (hs : Ready s) {p : BxNo} (hup : AuxUp s p) {addr : DWord} {cfg : PodParams} {herds : List TakeHerd}
  (hfor : forSpare s addr = true) (hidle : taking s = false)
include hup hfor hidle

theorem after_actTakeover : after (actTakeover p.val addr cfg herds) s =
    after (act (!podEn s || decide (cfg.pos.toNat = ownPos s)) (seq [if podEn s then protocolAt (bxPage 0) .ringCtl else writePod cfg,
      takeOrder p.val cfg.pos.toNat herds])) (auxTaken p.val 0x32 0 s) := by
  have hin := auxTaken_inOrder hup 0x32 0
  have hpod : podEn (auxTaken p.val 0x32 0 s) = podEn s := by rw [podEn, podEn, hin.podCfg]
  have hpos : ownPos (auxTaken p.val 0x32 0 s) = ownPos s := by rw [ownPos, ownPos, hin.podCfg]
  rw [actTakeover, after_rxAux hup, after_look, hin.forSpare, hfor, Bool.not_true, if_neg Bool.false_ne_true, hin.taking, hidle, hpod, hpos,
    Bool.not_false, Bool.true_and, after_act, after_act]
  refine if_congr Iff.rfl ?_ rfl
  rw [after_seq_grouped, takeOrder]

include hs

theorem does_takeover_new {g : Frame} (hfree : podEn s = false)
    (hg : g = storeFrame 0x33 2 0 (cfg.podId.toNat + 65536 * cfg.leadPos.toNat) 0 [BitVec.ofNat 8 (spareIdx s)]) (hmay : maySend s p.val g = true)
    (hwait : (bxOf s p.val).waiting = []) :
    Does (.takeover p addr cfg herds) s [.ctl, .bx, .coll, .mc, .spares, .dumpRun, .freeCtr, .out] fun t => Arrived s t p.val ∧
      taking t = true ∧ podEn t = true ∧ ownPos t = cfg.pos.toNat ∧ leadPos t = cfg.leadPos.toNat ∧
      bit (rd t (beadPage + 0x120)) 1 = decide (cfg.pos = cfg.leadPos) ∧ t.spares = { s.spares with ordered := herds } ∧
      sentFrame s p.val g ∈ t.out := by
  have hin := auxTaken_inOrder hup 0x32 0
  have hbody := after_actTakeover (cfg := cfg) (herds := herds) hup hfor hidle
  obtain ⟨u, hu⟩ : ∃ u, u = auxTaken p.val 0x32 0 s := ⟨_, rfl⟩
  rw [← hu] at hin hbody
  rw [hfree, Bool.not_false, Bool.true_or, after_act, if_pos rfl, if_neg Bool.false_ne_true, after_seq_cons, after_seq_cons, after_seq_nil] at hbody
  obtain ⟨hen, hpos, hlead, hid, hbead⟩ := podIs_after_writePod cfg u
  have hkept := auxKept_writePod hup.2 cfg
  have h1 : OnlyIn [.ctl, .bx, .coll, .mc, .dumpRun, .freeCtr, .out] u (after (writePod cfg) u) := (within_writePod cfg).onlyIn u
  have hbx : bxOf (after (writePod cfg) u) p.val = bxOf u p.val := hkept.port.eq u
  have hlink : linkUp (after (writePod cfg) u) p.val = linkUp u p.val := linkUp_of_rd (hkept.link.eq u)
  have hspare : rd (after (writePod cfg) u) spareReg = rd s spareReg := by
    have hsp : spareReg = 0x1C0120 := rfl
    rw [after_writePod, (keepsReg_podLinks (by unfold LinkFree; omega) (by omega)).eq, (keepsReg_podWords (by omega) cfg).eq, hin.spareReg]
  obtain ⟨v, hv⟩ : ∃ v, v = after (writePod cfg) u := ⟨_, rfl⟩
  rw [← hv] at hbody hen hpos hlead hid hbead h1 hbx hlink hspare
  obtain ⟨honly, hrx, htaking, hspares, hregs, hanswer⟩ := orderTaken p.isLt cfg.pos.toNat herds v
  obtain ⟨hw, hseq⟩ := hin.waiting p.val
  have hcfg : podCfg (after (takeOrder p.val cfg.pos.toNat herds) v) = podCfg v :=
    hregs _ (by unfold bxPage; omega) (by have := hup.2; unfold bxPage; omega)
  refine does_of_run hs.1 (a := actTakeover p.val addr cfg herds) rfl ?_ ?_ <;> rw [hbody]
  · exact ((hin.only.wider rfl).trans (h1.wider rfl)).trans (honly.wider rfl)
  · refine ⟨hin.arrived (by rw [hrx, hbx]), htaking, by rw [podEn, hcfg, ← podEn, hen], by rw [ownPos, hcfg, ← ownPos, hpos],
      by rw [leadPos, hcfg, ← leadPos, hlead], ?_, ?_, ?_⟩
    · have h3 : beadPage = 0x3000 := rfl
      rw [hregs _ (by omega) (by unfold bxPage; omega), hbead]
    · have e1 : v.spares = u.spares := h1 .spares rfl
      rw [hspares, e1, hin.spares]
    · have hframe : g = spareFrame v 0x33 2 (leadPos v) [BitVec.ofNat 8 (spareIdx v)] := by
        rw [hg, spareFrame, hid, hlead, spareIdx, spareIdx, hspare]
      have hside : v.side = u.side := h1 .side rfl
      have hmay' : maySend v p.val g = true := by
        rw [maySend, hlink, replayBytes, hbx, hside]
        exact (hin.maySend ..).trans hmay
      have hmem := hanswer g hframe hmay' (by rw [hbx, hw, hwait])
      rwa [sentFrame, hbx, hseq] at hmem

theorem does_takeover_same (hpod : podEn s = true) (hpos : cfg.pos.toNat = ownPos s) :
    Does (.takeover p addr cfg herds) s [.ctl, .bx, .spares, .freeCtr, .out] fun t => Arrived s t p.val ∧ taking t = true ∧ podCfg t = podCfg s ∧
      bit (rd t (bxPage 0 + 0x20)) 3 = true ∧ t.spares = { s.spares with ordered := herds } := by
  have hin := auxTaken_inOrder hup 0x32 0
  have hbody := after_actTakeover (cfg := cfg) (herds := herds) hup hfor hidle
  obtain ⟨u, hu⟩ : ∃ u, u = auxTaken p.val 0x32 0 s := ⟨_, rfl⟩
  rw [← hu] at hin hbody
  rw [hpod, decide_eq_true hpos, Bool.or_true, after_act, if_pos rfl, if_pos rfl, after_seq_cons, after_seq_cons, after_seq_nil] at hbody
  have h1 : OnlyIn [.ctl, .freeCtr] u (after (protocolAt (bxPage 0) .ringCtl) u) := onlyIn_raise_mild _ _ nofun
  have hist : bit (rd (after (protocolAt (bxPage 0) .ringCtl) u) (bxPage 0 + 0x20)) 3 = true := bit_after_raise _ nofun
  have hkeep : podCfg (after (protocolAt (bxPage 0) .ringCtl) u) = podCfg u :=
    (keepsReg_raise (by decide) (by decide) nofun : KeepsReg (bxPage 0 + 0x804) (protocolAt (bxPage 0) .ringCtl)).eq u
  obtain ⟨v, hv⟩ : ∃ v, v = after (protocolAt (bxPage 0) .ringCtl) u := ⟨_, rfl⟩
  rw [← hv] at hbody h1 hist hkeep
  obtain ⟨honly, hrx, htaking, hspares, hregs, -⟩ := orderTaken p.isLt cfg.pos.toNat herds v
  have hpage (o : Nat) (ho : o < 4096) : (bxPage 0 + o) / 4096 * 4096 ≠ bxPage p.val := by
    have := hup.2
    unfold bxPage
    omega
  refine does_of_run hs.1 (a := actTakeover p.val addr cfg herds) rfl ?_ ?_ <;> rw [hbody]
  · exact ((hin.only.wider rfl).trans (h1.wider rfl)).trans (honly.wider rfl)
  · refine ⟨hin.arrived (by rw [hrx, bxOf_of_bx (h1 .bx rfl)]), htaking, ?_, ?_, ?_⟩
    · rw [podCfg, hregs _ (by unfold bxPage; omega) (hpage _ (by decide)), ← podCfg, hkeep, hin.podCfg]
    · rw [hregs _ (by unfold bxPage; omega) (hpage _ (by decide)), hist]
    · have e1 : v.spares = u.spares := h1 .spares rfl
      rw [hspares, e1, hin.spares]

theorem does_takeover_other (hpod : podEn s = true) (hpos : cfg.pos.toNat ≠ ownPos s) :
    Does (.takeover p addr cfg herds) s [.ctl, .bx, .out] fun t => Arrived s t p.val ∧ taking t = false ∧ podCfg t = podCfg s := by
  have hin := auxTaken_inOrder hup 0x32 0
  have hbody := after_actTakeover (cfg := cfg) (herds := herds) hup hfor hidle
  rw [hpod, decide_eq_false hpos, after_act, if_neg (by decide)] at hbody
  refine does_of_run hs.1 (a := actTakeover p.val addr cfg herds) rfl ?_ ?_ <;> rw [hbody]
  · exact hin.only
  · exact ⟨hin.arrived rfl, hin.taking.trans hidle, hin.podCfg⟩

end

/-- Settles O51: reads of the store and a fetch's data, a restore's start and its records, and the spare protocol's frames. -/
theorem restoresAndSpares : Obligations.RestoresAndSpares := by
  unfold Obligations.RestoresAndSpares
  refine ⟨fun s hs h x hx => ⟨?_, ?_, ?_, ?_, ?_, ?_⟩, fun s hs p hup => ⟨?_, ?_, ?_, ?_, ?_, ?_, ?_⟩, ?_, ?_⟩
  · exact fun addr len k g h0 h4096 hwanted hk hg hmay hwait => does_srd_frame hs hx h0 h4096 hwanted hk hg hmay hwait
  · exact fun r addr len hnone hr hphase hpcie hreads h0 h4096 => exec_srd_host hs hx hnone hr hphase hpcie hreads h0 h4096
  · intro f c p addr data a hf hasker hup hwaits hlo hhi ha
    subst ha
    exact ⟨does_srdr_last hs hx hf hup hwaits hlo hhi hasker, fun hmore g he hm h64 hal hj =>
      does_srdr_more hs hx hf hup hwaits hlo hhi (plain_of_errorFree he hm) hmore h64 hal hj⟩
  · exact fun r hr hphase hspare hlow => does_restoreStart hs hx hr hphase hspare hlow
  · exact fun k g hspare hordered hfills hnone hno hk hg hmay hwait => does_restoreStart_spare hs hx hspare hordered hfills hnone hno hk hg hmay hwait
  · intro r rec_ q hr hphase hkind hq
    refine ⟨fun hsha hasker hpos hfull hgot hchunks => ?_, fun hsha => ⟨fun hfirst => ?_, fun hagain c hasker => ?_⟩⟩
    · exact does_manifest hs hx hr hphase hkind hsha hasker (hq.trans hpos) hfull hgot hchunks
    · exact does_badManifest_once hs hx hr hphase hkind hq hsha hfirst
    · exact does_badManifest_again hs hx hr hphase hkind hq hsha hagain hasker
  · exact fun addr g hfor hg hmay hwait => does_spq hs hup hfor hg hmay hwait
  · intro addr hfor
    refine ⟨does_refusedAux hs hup (c := .spq p addr) rfl ?_, does_refusedAux hs hup (c := .standdown p addr) rfl ?_⟩
    · rw [after_look, (auxTaken_inOrder hup 0x30 0).forSpare, hfor, if_neg Bool.false_ne_true]
    · rw [after_look, (auxTaken_inOrder hup 0x35 0).forSpare, hfor, if_pos (by decide)]
  · intro addr cfg herds hfor
    refine does_refusedAux hs hup (c := .takeover p addr cfg herds) rfl ?_
    rw [after_look, (auxTaken_inOrder hup 0x32 0).forSpare, hfor, if_pos (by decide)]
  · exact fun addr cfg herds hfor hidle => ⟨fun g hfree hg hmay hwait => does_takeover_new hs hup hfor hidle hfree hg hmay hwait,
      does_takeover_same hs hup hfor hidle, does_takeover_other hs hup hfor hidle⟩
  · exact fun addr hfor => does_standdown hs hup hfor
  · intro k state hlead
    have hstate : BitVec.ofNat 8 state.toNat = state := BitVec.ofNat_toNat ..
    have hone : BitVec.ofNat 8 1 = (1 : Byte) := by decide
    have h1 := does_noteSpare hs hup hlead (c := .spst p k state) (k := k.val) (state := state.toNat) rfl
    have h2 := does_noteSpare hs hup hlead (c := .tkack p k) (k := k.val) (state := 1) rfl
    rw [hstate] at h1
    rw [hone] at h2
    exact ⟨h1, h2⟩
  · exact fun k q hlead hfill => ⟨does_filldone_some hs hup hlead hfill, does_filldone_last hs hup hlead hfill, does_filldone_failed hs hup hlead hfill⟩
  · exact fun s hs k hlead hk hup hruns hempty hcredit hroom => does_sparePoll hs hlead hk hup hruns hempty hcredit hroom
  · exact fun s hs f hf hlead => ⟨does_rdone hs hf hlead, fun status hst => does_rdone_failed hs hf hlead hst⟩

end Sys2Proof.Machine
end

section
/-! Settles O28: the mover's copies (R107, R146 to R148). -/

namespace Sys2Proof.Machine

-- One declaration after the other: elaborated side by side they take more memory than the check has.
set_option Elab.async false

/-! ## A channel's registers -/

/-- The registers of a mover's channel read as before. -/
def SameChannel (s t : State) (c ch : Nat) : Prop := ∀ o < 16, rd t (mvReg c ch + o) = rd s (mvReg c ch + o)

/-- One word has been copied: the channel goes on to the next one. -/
structure WordDone (s t : State) (c ch step : Nat) : Prop where
  left : mvLeft t c ch = mvLeft s c ch - 1
  loc : mvLocal t c ch = (mvLocal s c ch + 1) % 65536
  far : mvFar t c ch = (mvFar s c ch + step) % 2 ^ 64

theorem mvReg_eq (c ch : Nat) : mvReg c ch = mvPage c + 0x100 + 16 * ch := rfl

section
variable {s t : State} {c ch : Nat} (h : SameChannel s t c ch)
include h

theorem SameChannel.left : mvLeft t c ch = mvLeft s c ch := congrArg (fun w => fld w 28 19) (h 0 (by decide))

theorem SameChannel.loc : mvLocal t c ch = mvLocal s c ch := congrArg (fun w => fld w 15 0) (h 4 (by decide))

theorem SameChannel.far : mvFar t c ch = mvFar s c ch := by
  rw [mvFar, mvFar, rd64, rd64, h 8 (by decide), show mvReg c ch + 8 + 4 = mvReg c ch + 12 from rfl, h 12 (by decide)]

theorem SameChannel.trans {u : State} (g : SameChannel t u c ch) : SameChannel s u c ch := fun o ho => (g o ho).trans (h o ho)

end

theorem sameChannel_keeps {c ch : Nat} {a : Act} (h : ∀ o < 16, KeepsReg (mvReg c ch + o) a) (s : State) : SameChannel s (after a s) c ch :=
  fun o ho => (h o ho).eq s

theorem sameChannel_within {ps : List Part} {a : Act} (h : Within ps a) (c ch : Nat) (s : State) (hp : ps.contains .ctl = false := by rfl) :
    SameChannel s (after a s) c ch := sameChannel_keeps (fun _ _ => h.keepsReg _ hp) s

theorem sameChannel_regsOnly {s t : State} {p c ch : Nat} (hch : ch < 2) (h : RegsOnly [p] s t) (hp : p ≠ mvPage c) : SameChannel s t c ch := fun o ho => by
  have hm := pages_of_site c
  refine h _ ?_
  rw [List.mem_singleton, mvReg_eq, show mvPage c + 0x100 + 16 * ch + o = mvPage c + (0x100 + 16 * ch + o) by omega, page_of_offset (by omega) (by omega)]
  exact hp.symm

theorem wordDone_copyStep (c ch : Nat) {slot : Nat} (hslot : slot < 8) (movP : Bool) (s : State) :
    WordDone s (after (copyStep c ch slot movP) s) c ch (if movP then 1 else 32) := by
  have hcount (o : Nat) : KeepsReg (mvReg c ch + o) (count (mvPage c) slot 1) := by
    have := mvReg_eq c ch
    exact keepsReg_count (by omega) (by omega) (by omega) _
  have h0 : mvReg c ch + 0 = mvReg c ch := rfl
  rw [copyStep, after_look]
  dsimp only
  rw [after_seq_cons, after_seq_cons, after_seq_cons, after_seq_cons, after_seq_nil]
  refine ⟨?_, ?_, ?_⟩
  · have hlt : mvLeft s c ch < 2 ^ 10 := fld_lt _ 28 19
    rw [mvLeft, ← h0, (hcount 0).eq, h0, (keepsReg_wr64 (by omega) (by omega) _).eq, (keepsReg_wr (by omega) _).eq, after_wrFld, rd_ctl_same,
      fld_setFld _ (by decide) (by decide)]
    exact Nat.mod_eq_of_lt (by omega)
  · rw [mvLocal, (hcount 4).eq, (keepsReg_wr64 (by omega) (by omega) _).eq, after_wr, rd_ctl_same, fld_ofNat _ (by decide) (by decide)]
    simp only [bits]
    omega
  · rw [mvFar, rd64, (hcount 8).eq, show mvReg c ch + 8 + 4 = mvReg c ch + 12 from rfl, (hcount 12).eq, ← show mvReg c ch + 8 + 4 = mvReg c ch + 12 from rfl,
      ← rd64, rd64_after_wr64, BitVec.toNat_ofNat]

theorem WordDone.earlier {s u t : State} {c ch k : Nat} (h : WordDone u t c ch k) (hs : SameChannel s u c ch) : WordDone s t c ch k :=
  ⟨by rw [h.left, hs.left], by rw [h.loc, hs.loc], by rw [h.far, hs.far]⟩

/-! ## A copy begins -/

/-- The registers that a channel takes as its copy begins. -/
def chanTakes (c : Nat) (i : Issued) : Act :=
  seq [wr (mvReg c (copyCh i)) (BitVec.ofNat 32 (0x80000000 + 0x40000000 * b2n (isMovP i) + 0x20000000 * b2n (bit i.word 25) +
        movLen i.word * 524288 + fld i.word 7 0 * 2048 + i.row)),
      wr (mvReg c (copyCh i) + 4) (BitVec.ofNat 32 i.addr),
      wr64 (mvReg c (copyCh i) + 8) (BitVec.ofNat 64 (if isMovP i then i.far else 32 * i.far))]

theorem within_chanTakes (c : Nat) (i : Issued) : Within [.ctl] (chanTakes c i) :=
  within_seq_cons (within_wr ..) <| within_seq_cons (within_wr ..) <| within_seq_cons (within_wr64 ..) within_seq_nil

theorem chanTaken (c : Nat) {i : Issued} (hrow : i.row < 2048) (s : State) : let t := after (chanTakes c i) s
    mvLeft t c (copyCh i) = movLen i.word ∧ mvLocal t c (copyCh i) = i.addr % 65536 ∧
      mvFar t c (copyCh i) = (if isMovP i then i.far else 32 * i.far) % 2 ^ 64 ∧ bit (rd t (mvReg c (copyCh i))) 31 = true ∧
      RegsAt ((List.range 4).map (fun k => mvReg c (copyCh i) + 4 * k)) s t := by
  have hone (b : Bool) : b2n b ≤ 1 := by cases b <;> decide
  have h1 := hone (isMovP i)
  have h2 := hone (bit i.word 25)
  have h3 : fld i.word 16 8 < 2 ^ 9 := fld_lt _ 16 8
  have h4 : fld i.word 7 0 < 2 ^ 8 := fld_lt _ 7 0
  have hword : rd (after (chanTakes c i) s) (mvReg c (copyCh i)) = BitVec.ofNat 32 (0x80000000 + 0x40000000 * b2n (isMovP i) +
      0x20000000 * b2n (bit i.word 25) + movLen i.word * 524288 + fld i.word 7 0 * 2048 + i.row) := by
    rw [chanTakes, after_seq_cons, after_seq_cons, after_seq_cons, after_seq_nil, (keepsReg_wr64 (by omega) (by omega) _).eq,
      (keepsReg_wr (by omega) _).eq, after_wr, rd_ctl_same]
  refine ⟨?_, ?_, ?_, ?_, fun a ha => ?_⟩
  · rw [mvLeft, hword, fld_ofNat _ (by decide) (by decide)]
    simp only [bits, movLen]
    omega
  · rw [mvLocal, chanTakes, after_seq_cons, after_seq_cons, after_seq_cons, after_seq_nil, (keepsReg_wr64 (by omega) (by omega) _).eq, after_wr,
      rd_ctl_same, fld_ofNat _ (by decide) (by decide)]
    simp only [bits]
    omega
  · rw [mvFar, chanTakes, after_seq_cons, after_seq_cons, after_seq_cons, after_seq_nil, rd64_after_wr64, BitVec.toNat_ofNat]
  · rw [hword, bit_eq_decide_fld, fld_ofNat _ (by decide) (by decide)]
    simp only [bits, movLen]
    exact decide_eq_true (by omega)
  · have hne (k : Nat) (hk : k < 4) : a ≠ mvReg c (copyCh i) + 4 * k := fun he => ha (List.mem_map.mpr ⟨k, List.mem_range.mpr hk, he.symm⟩)
    have n0 := hne 0 (by decide)
    have n1 := hne 1 (by decide)
    have n2 := hne 2 (by decide)
    have n3 := hne 3 (by decide)
    exact (keeps_seq_cons (keepsReg_wr (by omega) _) (keeps_seq_cons (keepsReg_wr (by omega) _)
      (keeps_seq_cons (keepsReg_wr64 (by omega) (by omega) _) keeps_seq_nil)) : KeepsReg a (chanTakes c i)).eq s

theorem does_beginCopy {s : State} (hs : Ready s) {cmd : Instr} {c op : Nat} {i : Issued} (hc : exec cmd s = run (beginCopy c op) s)
    (hi : nextToStart s c 3 op = some i) (hrow : i.row < 2048) (hf : fenced s (mvPage c) = false) :
    Does cmd s [.ctl, .core] fun t => mvLeft t c (copyCh i) = movLen i.word ∧ mvLocal t c (copyCh i) = i.addr % 65536 ∧
      mvFar t c (copyCh i) = (if isMovP i then i.far else 32 * i.far) % 2 ^ 64 ∧ bit (rd t (mvReg c (copyCh i))) 31 = true ∧
      CoreIs s t c { coreX s c with issued := swapInsn (coreX s c) i (begun i) } ∧
      RegsAt ((List.range 4).map (fun k => mvReg c (copyCh i) + 4 * k)) s t := by
  have hbody : after (beginCopy c op) s = after (chanTakes c i) (after (setIssued c i (begun i)) s) := by
    rw [beginCopy, after_look, hi]
    dsimp only
    rw [hf, after_act, if_pos (by decide), chanTakes, after_seq_cons, after_seq_cons, after_seq_cons, after_seq_cons, after_seq_nil, after_seq_cons,
      after_seq_cons, after_seq_cons, after_seq_nil]
    rfl
  obtain ⟨hleft, hloc, hfar, hbusy, hregs⟩ := chanTaken c hrow (after (setIssued c i (begun i)) s)
  refine does_of_run hs.1 hc ?_ ?_ <;> rw [hbody]
  · exact (((within_setIssued ..).wider rfl).onlyIn s).trans (((within_chanTakes ..).wider rfl).onlyIn _)
  · exact ⟨hleft, hloc, hfar, hbusy, (coreIs_setIssued ..).within (within_chanTakes ..), fun a ha =>
      (hregs a ha).trans (((within_setIssued ..).keepsReg a).eq s)⟩

/-! ## The copy's end -/

theorem does_moverCopyDone {s : State} (hs : Ready s) {c : Site} {ch : Fin 2} {i : Issued} (hi : copyOn s c.val ch.val = some i)
    (hleft : mvLeft s c.val ch.val = 0) (hf : fld i.word 7 0 < 224) (hw : waitersOn s c.val (fld i.word 7 0) = []) :
    Does (.moverCopyDone c ch) s [.ctl, .core] fun t => bit (rd t (mvReg c.val ch.val)) 31 = false ∧
      flagHeld t c.val (fld i.word 7 0) = true ∧ (coreX t c.val).issued = dropInsn (coreX s c.val) i := by
  obtain ⟨u, hu⟩ : ∃ u, u = after (retire c.val i) (after (count (mvPage c.val) 3 1) (after (wrBit (mvReg c.val ch.val) 31 false) s)) := ⟨_, rfl⟩
  have hdone : after (setDone c.val (fld i.word 7 0)) u = after (setFlag c.val (fld i.word 7 0)) u := by
    rw [setDone, after_look, if_pos (.inl hf)]
  have hbody : after (actMoverCopyDone c.val ch.val) s = after (setFlag c.val (fld i.word 7 0)) u := by
    rw [actMoverCopyDone, after_look, hi]
    dsimp only
    rw [decide_eq_true hleft, after_act, if_pos rfl, after_seq_cons, after_seq_cons, after_seq_cons, after_seq_cons, after_seq_nil, ← hu, hdone]
  have h0 : OnlyIn [.ctl] s (after (count (mvPage c.val) 3 1) (after (wrBit (mvReg c.val ch.val) 31 false) s)) :=
    ((within_wrBit ..).onlyIn s).trans ((within_count ..).onlyIn _)
  have h1 : OnlyIn [.ctl, .core] s u := hu ▸ (h0.wider rfl).trans (((within_retire ..).wider rfl).onlyIn _)
  have hcore : CoreIs s u c.val { coreX s c.val with issued := dropInsn (coreX s c.val) i } :=
    hu ▸ (((coreIs_refl s c.val).within (within_wrBit ..)).within (within_count ..)).retire i
  have huw : waitersOn u c.val (fld i.word 7 0) = [] := by
    rw [waitersOn, hcore.1]
    exact hw
  have pages := pages_of_site c.val
  have hch := ch.isLt
  refine does_of_run hs.1 (a := actMoverCopyDone c.val ch.val) rfl ?_ ?_ <;> rw [hbody]
  · exact h1.trans (onlyIn_setFlag hf huw)
  · refine ⟨?_, ?_, ?_⟩
    · rw [rd_after_setFlag hf huw (by rw [mvReg_eq]; omega), hu, ((within_retire ..).keepsReg _).eq,
        (keepsReg_count (by rw [mvReg_eq]; omega) (by rw [mvReg_eq]; omega) (by rw [mvReg_eq]; omega) _).eq, after_wrBit, rd_ctl_same, bit_setBit_same _ (by decide)]
    · rw [flagHeld_after_setFlag hf huw, if_pos rfl]
    · rw [coreX_after_setFlag hf huw, hcore.1]

/-! ## A word of a MOV.C -/

/-- The word at the local side is read without an error that stops the copy. -/
theorem after_readLocal {s : State} {c ch l : Nat} {found : Cell} (i : Issued) (use : Act) (hl : l = mvLocal s c ch) (hv : stVerdict s c l found ≠ .bad) :
    ∃ u, OnlyIn [.ctl, .dumpRun, .freeCtr] s u ∧ RegsOnly [corePage c] s u ∧ after (readLocal c ch i found use) s = after use u := by
  have pages := pages_of_site c
  obtain ⟨v, hvdef⟩ : ∃ v, v = after (stCount c 1) s := ⟨_, rfl⟩
  have hvv : stVerdict v c l found ≠ .bad := by rw [hvdef, (within_stCount ..).stVerdict]; exact hv
  have h1 : OnlyIn [.ctl] s v := hvdef ▸ (within_stCount ..).onlyIn s
  have r1 : RegsOnly [corePage c] s v := hvdef ▸ WritesIn.regsOnly (writesIn_count (by omega) (by decide) (List.mem_singleton_self _) 1) s
  have h2 : OnlyIn [.ctl, .dumpRun, .freeCtr] v (after (stFound c l found) v) := by
    rw [after_stFound_readable hvv]
    exact (within_act (within_corrected c)).onlyIn v
  have r2 : RegsOnly [corePage c] v (after (stFound c l found) v) := by
    rw [after_stFound_readable hvv]
    exact WritesIn.regsOnly ((writesIn_corrected (List.mem_singleton_self _)).act _) v
  refine ⟨_, (h1.wider rfl).trans h2, r1.trans r2, ?_⟩
  rw [readLocal, after_look, ← hl]
  dsimp only
  rw [if_neg hv, after_seq_cons, after_seq_cons, after_seq_cons, after_seq_nil, ← hvdef]

theorem coreOnly_channel {s u : State} {c ch : Nat} (hch : ch < 2) (h : RegsOnly [corePage c] s u) : SameChannel s u c ch := by
  have pages := pages_of_site c
  exact sameChannel_regsOnly hch h (by omega)

section
variable {s : State} (hs : Ready s) {c : Site} {ch : Fin 2} {i : Issued} {l : Nat} {found : Cell} (hi : copyOn s c.val ch.val = some i)
  (hleft : mvLeft s c.val ch.val ≠ 0) (hl : l = mvLocal s c.val ch.val)
include hi hleft

theorem after_movC_word (hp : isMovP i = false) : after (actMoverWord c.val ch found) s = after (copyWord c.val ch.val i found) s := by
  rw [actMoverWord, after_look, hi]
  dsimp only
  rw [if_neg hleft, hp, if_neg Bool.false_ne_true]

include hs hl

theorem does_movC_read (hp : isMovP i = false) (hdir : bit i.word 25 = false) (hlow : l < 49152) {bs : List Byte} (hbs : bs.length = 32)
    (hread : urRead s (herdNo s c.val) (mvFar s c.val ch.val) 32 = .ok bs) :
    Does (.moverWord c ch found) s [.ctl, .store, .storeBad, .mem, .chk, .mergeBuf, .touched, .dumpRun, .freeCtr, .out] fun t =>
      mvLeft t c.val ch.val = mvLeft s c.val ch.val - 1 ∧ mvLocal t c.val ch.val = (l + 1) % 65536 ∧
      mvFar t c.val ch.val = (mvFar s c.val ch.val + 32) % 2 ^ 64 ∧
      ∀ d k, k < 1572864 → stByte t d k = if d = c.val ∧ 32 * l ≤ k ∧ k < 32 * l + 32 then bs.getD (k - 32 * l) 0 else stByte s d k := by
  have pages := pages_of_site c.val
  have hch := ch.isLt
  obtain ⟨u, hu⟩ : ∃ u, u = after (stCount c.val 1) (after (urReadActs (herdNo s c.val) (mvFar s c.val ch.val) 32 .mesh) s) := ⟨_, rfl⟩
  obtain ⟨v, hv⟩ : ∃ v, v = after (stWrite c.val (32 * l) bs) u := ⟨_, rfl⟩
  have hbody : after (actMoverWord c.val ch found) s = after (copyStep c.val ch.val 0 false) v := by
    rw [after_movC_word hi hleft hp, copyWord, after_look]
    dsimp only
    rw [hdir, if_neg Bool.false_ne_true, hread]
    dsimp only
    rw [after_seq_cons, after_seq_cons, after_seq_cons, after_seq_cons, after_seq_nil, ← hl, ← hu, ← hv]
  have h1 : OnlyIn [.ctl, .mem, .chk, .touched, .mergeBuf, .dumpRun, .freeCtr, .out] s u := by
    rw [hu]
    exact ((within_urReadActs ..).onlyIn s).trans (((within_stCount ..).wider rfl).onlyIn _)
  have h2 : OnlyIn [.store, .storeBad] u v := hv ▸ (within_stWrite ..).onlyIn u
  have h3 : OnlyIn [.ctl] v (after (copyStep c.val ch.val 0 false) v) := (within_copyStep ..).onlyIn v
  have hchan : SameChannel s v c.val ch.val := by
    have hreads : SameChannel s (after (urReadActs (herdNo s c.val) (mvFar s c.val ch.val) 32 .mesh) s) c.val ch.val :=
      sameChannel_keeps (fun o ho => (lowWrites_urReadActs ..).keeps _ (by rw [mvReg_eq]; omega)) s
    have hcount := coreOnly_channel hch (WritesIn.regsOnly (writesIn_count (k := 0) (by omega) (by decide) (List.mem_singleton_self (corePage c.val)) 1)
      (after (urReadActs (herdNo s c.val) (mvFar s c.val ch.val) 32 .mesh) s))
    rw [← stCount, ← hu] at hcount
    rw [hv]
    exact (hreads.trans hcount).trans (sameChannel_within (within_stWrite ..) _ _ _)
  obtain ⟨hd1, hd2, hd3⟩ := (wordDone_copyStep c.val ch.val (slot := 0) (by decide) false v).earlier hchan
  refine does_of_run hs.1 (a := actMoverWord c.val ch found) rfl ?_ ?_ <;> rw [hbody]
  · exact ((h1.wider rfl).trans (h2.wider rfl)).trans (h3.wider rfl)
  · refine ⟨hd1, by rw [hd2, hl], hd3, fun d k hk => ?_⟩
    have e3 : (after (copyStep c.val ch.val 0 false) v).store = v.store := h3 .store rfl
    have e1 : u.store = s.store := h1 .store rfl
    rw [stByte_of_store e3, hv, stByte_after_stWrite _ _ _ _ _ _ (by omega) hk, hbs, stByte_of_store e1]

theorem does_movC_write (hp : isMovP i = false) (hdir : bit i.word 25 = true) (hread : stVerdict s c.val l found ≠ .bad) {f b : Nat}
    (hal : mvFar s c.val ch.val % 32 = 0) (hj : judge s (herdNo s c.val) (mvFar s c.val ch.val / 65536) true = .frame f)
    (hclean : entryClean s (mvFar s c.val ch.val / 65536) = true) (hb : b = 1024 * f + mvFar s c.val ch.val / 64 % 1024) (hm : mergeOf s b = none)
    (hroom : (s.mergeBuf.filter (fun x => decide (x.port = blkPort b))).length < 32) :
    Does (.moverWord c ch found) s [.ctl, .core, .mergeBuf, .touched, .dumpRun, .freeCtr] fun t =>
      mvLeft t c.val ch.val = mvLeft s c.val ch.val - 1 ∧ (coreX t c.val).issued = (coreX s c.val).issued ∧
      t.mergeBuf = s.mergeBuf ++ [⟨blkPort b, blkLocal b, List.replicate (mvFar s c.val ch.val % 64) none ++
        (stBytes s c.val (32 * l) 32).map some ++ List.replicate (32 - mvFar s c.val ch.val % 64) none, herdNo s c.val, []⟩] := by
  have pages := pages_of_site c.val
  have hch := ch.isLt
  obtain ⟨a, ha⟩ : ∃ a, a = mvFar s c.val ch.val := ⟨_, rfl⟩
  obtain ⟨h, hh⟩ : ∃ h, h = herdNo s c.val := ⟨_, rfl⟩
  obtain ⟨bs, hbs⟩ : ∃ bs, bs = stBytes s c.val (32 * l) 32 := ⟨_, rfl⟩
  have hlen : bs.length = 32 := by rw [hbs, stBytes, List.length_map, List.length_range]
  rw [← ha, ← hh] at hj ⊢
  rw [← ha] at hal hclean hb
  rw [← hbs]
  obtain ⟨u, hu1, hur, hu⟩ := after_readLocal i (seq [urWrite h a bs, rcUpdate c.val a bs, copyStep c.val ch.val 1 false]) hl hread
  have hbody : after (actMoverWord c.val ch found) s = after (seq [urWrite h a bs, rcUpdate c.val a bs, copyStep c.val ch.val 1 false]) u := by
    rw [after_movC_word hi hleft hp, copyWord, after_look]
    dsimp only
    rw [hdir, if_pos rfl, ← hl, ← ha, ← hh, ← hbs, urWriteJudge_frame (by decide) (by omega) hj, if_neg nofun]
    exact hu
  have hrange : SameRange s u := ⟨fun x _ hlow => hur x (by rw [List.mem_singleton]; omega), hu1 .straps rfl, hu1 .mem rfl, hu1 .chk rfl, hu1 .mergeBuf rfl⟩
  obtain ⟨v, hv⟩ : ∃ v, v = after (touch (a / 65536)) u := ⟨_, rfl⟩
  have htouch : SameRange u v := hv ▸ sameRange_touch _ u
  have hv1 : OnlyIn [.touched] u v := hv ▸ (within_touch _).onlyIn u
  have hbuf : v.mergeBuf = s.mergeBuf := (hrange.trans htouch).mergeBuf
  obtain ⟨data, hdata⟩ : ∃ data, data = List.replicate (a % 64) none ++ bs.map some ++ List.replicate (32 - a % 64) none := ⟨_, rfl⟩
  have hpart : data.all Option.isSome = false := by
    rw [hdata, List.all_append, List.all_append, List.all_replicate, List.all_replicate]
    rcases (by omega : a % 64 = 0 ∨ a % 64 = 32) with h0 | h0 <;> rw [h0] <;> simp
  have hwrite : after (urWrite h a bs) u = after (portNarrow b h data) v := by
    rw [after_urWrite_frame (by omega) (by omega) (by rw [hrange.judge]; exact hj) (by rw [hrange.entryClean]; exact hclean), ← hv,
      after_devWrite_block (by omega) (by omega), if_neg (by omega), show (65536 * f + a % 65536) / 64 = b by omega,
      show (65536 * f + a % 65536) % 64 = a % 64 by omega, hlen, show 64 - a % 64 - 32 = 32 - a % 64 by omega, ← hdata]
  obtain ⟨w, hw⟩ : ∃ w, w = after (portNarrow b h data) v := ⟨_, rfl⟩
  have hnew := after_portNarrow_new (s := v) (b := b) (by rw [(hrange.trans htouch).mergeOf]; exact hm) (by rw [hbuf]; exact hroom) hpart h
  have hset : OnlyIn [.mergeBuf] v { v with mergeBuf := v.mergeBuf ++ [⟨blkPort b, blkLocal b, data, h, []⟩] } := onlyIn_apply (.mergeBuf _) v
  have hw1 : OnlyIn [.ctl, .mergeBuf] v w := by
    rw [hw, hnew]
    exact (hset.wider rfl).trans (((within_wrFld ..).wider rfl).onlyIn _)
  have hwbuf : w.mergeBuf = s.mergeBuf ++ [⟨blkPort b, blkLocal b, data, h, []⟩] := by
    rw [hw, hnew, (within_wrFld ..).mergeBuf, ← hbuf]
  have hwchan : SameChannel v w c.val ch.val := fun o ho => by
    rw [hw, hnew, (keepsReg_wrFld (by
      have := mpPage_low (blkPort_lt b)
      rw [mvReg_eq]
      omega) ..).eq, rd, rd]
  obtain ⟨y, hy⟩ : ∃ y, y = after (rcUpdate c.val a bs) w := ⟨_, rfl⟩
  have hy1 : OnlyIn [.core] w y := hy ▸ (within_rcUpdate ..).onlyIn w
  have hychan : SameChannel s y c.val ch.val := by
    have h1 := coreOnly_channel hch hur
    have h2 : SameChannel u v c.val ch.val := hv ▸ sameChannel_within (within_touch _) _ _ _
    rw [hy]
    exact ((h1.trans h2).trans hwchan).trans (sameChannel_within (within_rcUpdate ..) _ _ _)
  have hend : OnlyIn [.ctl] y (after (copyStep c.val ch.val 1 false) y) := (within_copyStep ..).onlyIn y
  rw [after_seq_cons, after_seq_cons, after_seq_cons, after_seq_nil, hwrite, ← hw, ← hy] at hbody
  refine does_of_run hs.1 (a := actMoverWord c.val ch found) rfl ?_ ?_ <;> rw [hbody]
  · exact ((((hu1.wider rfl).trans (hv1.wider rfl)).trans (hw1.wider rfl)).trans (hy1.wider rfl)).trans (hend.wider rfl)
  · refine ⟨((wordDone_copyStep c.val ch.val (slot := 1) (by decide) false y).earlier hychan).left, ?_, ?_⟩
    · have hx : coreX w c.val = coreX s c.val := by
        rw [coreX_of_core (hw1 .core rfl), coreX_of_core (hv1 .core rfl), coreX_of_core (hu1 .core rfl)]
      rw [coreX_of_core (hend .core rfl), hy, rcUpdate, after_setCore, coreX_core_same, hx]
    · have e1 : (after (copyStep c.val ch.val 1 false) y).mergeBuf = y.mergeBuf := hend .mergeBuf rfl
      have e2 : y.mergeBuf = w.mergeBuf := hy1 .mergeBuf rfl
      rw [e1, e2, hwbuf, hdata]

end

/-! ## A word of a MOV.P -/

/-- The packet of the next word has left. -/
def sendNext (c p h : Nat) (ch : Fin 2) (pl : Payload) : Act :=
  seq [setCore c (fun x => { x with movSent := x.movSent ++ [ch] }), sendMov c p 1 h pl]

theorem within_sendNext (c p h : Nat) (ch : Fin 2) (pl : Payload) : Within [.core, .packets] (sendNext c p h ch pl) :=
  within_seq_cons ((within_setCore ..).wider rfl) (within_seq_cons ((within_sendMov ..).wider rfl) within_seq_nil)

/-- The response has been taken: the channel awaits none. -/
theorem taken_after_takeMovAnswer (s : State) (c : Nat) (ch : Fin 2) : ch ∉ (coreX (after (takeMovAnswer c ch) s) c).movSent ∧
    movAnswer (after (takeMovAnswer c ch) s) c ch = none := by
  rw [takeMovAnswer, after_setCore, movAnswer, coreX_core_same]
  refine ⟨fun h => ?_, ?_⟩
  · have := List.mem_filter.mp h
    simp at this
  · rw [Option.map_eq_none_iff, List.find?_eq_none]
    intro q hq
    have := List.mem_filter.mp hq
    simpa using this.2

theorem movAnswer_of_core {s t : State} (h : t.core = s.core) (c : Nat) (ch : Fin 2) : movAnswer t c ch = movAnswer s c ch := by
  rw [movAnswer, movAnswer, coreX_of_core h]

/-- The mover's page reports the fault of a copy. -/
def copyReport (c ch cause far : Nat) (h : Option Nat) : Act :=
  seq [wrBit (mvReg c ch) 31 false, count (mvPage c) 4 1, setIst (mvPage c) 8,
    raise (mvPage c) { cls := causeClass cause, code := some cause, addr := some far, herd := h }]

theorem within_copyReport (c ch cause far : Nat) (h : Option Nat) : Within [.ctl, .dumpRun, .freeCtr] (copyReport c ch cause far h) :=
  within_seq_cons ((within_wrBit ..).wider rfl) <| within_seq_cons ((within_count ..).wider rfl) <| within_seq_cons ((within_setIst ..).wider rfl) <|
    within_seq_cons (within_raise ..) within_seq_nil

theorem reported (c : Nat) {ch : Nat} (cause far : Nat) (h : Option Nat) (hcause : (8 : Nat) ≠ (causeClass cause).code) (s : State) :
    bit (rd (after (copyReport c ch cause far h) s) (mvReg c ch)) 31 = false ∧ bit (rd (after (copyReport c ch cause far h) s) (mvPage c + 0x20)) 8 = true := by
  have pages := pages_of_site c
  have hnf := causeClass_ne_fatal cause
  rw [copyReport, after_seq_cons, after_seq_cons, after_seq_cons, after_seq_cons, after_seq_nil]
  refine ⟨?_, ?_⟩
  · have hraise : KeepsReg (mvReg c ch) (raise (mvPage c) { cls := causeClass cause, code := some cause, addr := some far, herd := h }) :=
      keepsReg_raise (by rw [mvReg_eq]; omega) (by rw [mvReg_eq]; omega) fun he => absurd he hnf
    rw [hraise.eq, (keepsReg_setIst (by rw [mvReg_eq]; omega) _).eq,
      (keepsReg_count (by rw [mvReg_eq]; omega) (by rw [mvReg_eq]; omega) (by rw [mvReg_eq]; omega) _).eq, after_wrBit, rd_ctl_same,
      bit_setBit_same _ (by decide)]
  · rw [bit_ist_after_raise _ hcause hnf, after_setIst, rd_ctl_same, bit_setBit_same _ (by decide)]

section
variable {s : State} (hs : Ready s) {c : Site} {ch : Fin 2} {i : Issued} {l w : Nat} {found : Cell} (hi : copyOn s c.val ch.val = some i)
  (hleft : mvLeft s c.val ch.val ≠ 0) (hl : l = mvLocal s c.val ch.val) (hw : w = mvFar s c.val ch.val % 65536) (hp : isMovP i = true)
include hi hleft hp

theorem after_movP_send (hnone : movAnswer s c.val ch = none) (hsent : ch ∉ (coreX s c.val).movSent) :
    after (actMoverWord c.val ch found) s = after (sendWord c.val ch i found) s := by
  rw [actMoverWord, after_look, hi]
  dsimp only
  rw [if_neg hleft, hp, if_pos rfl, hnone]
  dsimp only
  rw [after_act, if_pos (by simpa using hsent)]

theorem after_movP_answer {a : MovAnswer} (ha : movAnswer s c.val ch = some a) :
    after (actMoverWord c.val ch found) s = after (takeWord c.val ch i a) s := by
  rw [actMoverWord, after_look, hi]
  dsimp only
  rw [if_neg hleft, hp, if_pos rfl, ha]

omit hi hleft hp in
theorem sent_after_sendNext {u : State} {p h : Nat} {pl : Payload} {q : Packet} (hcore : u.core = s.core) (hpackets : u.packets = s.packets)
    (hq : sendMov c.val p 1 h pl = look fun s => one (.packets (s.packets ++ [q]))) :
    (after (sendNext c.val p h ch pl) u).packets = s.packets ++ [q] ∧
      CoreIs s (after (sendNext c.val p h ch pl) u) c.val { coreX s c.val with movSent := (coreX s c.val).movSent ++ [ch] } := by
  have hw : Within [.packets] (sendMov c.val p 1 h pl) := within_sendMov ..
  have hu : CoreIs s u c.val (coreX s c.val) := ⟨coreX_of_core hcore _, fun d _ => coreX_of_core hcore d⟩
  rw [sendNext, after_seq_cons, after_seq_cons, after_seq_nil]
  refine ⟨?_, (hu.setCore _).within hw⟩
  rw [hq, after_look, after_one, apply_packets, (within_setCore ..).packets, hpackets]

include hs hl hw in
theorem does_movP_write (hnone : movAnswer s c.val ch = none) (hsent : ch ∉ (coreX s c.val).movSent) {p : Nat} (hpeer : peerOf s c.val ch.val = some p)
    (hdir : bit i.word 25 = true) (hread : stVerdict s c.val l found ≠ .bad) :
    Does (.moverWord c ch found) s [.ctl, .core, .packets, .dumpRun, .freeCtr] fun t =>
      t.packets = s.packets ++ [⟨c.val, p, 4, 1, 0, herdNo s c.val, 1, c.val, 12, .movReq ch w (some (stGet s c.val l)) .good⟩] ∧
      CoreIs s t c.val { coreX s c.val with movSent := (coreX s c.val).movSent ++ [ch] } := by
  obtain ⟨u, hu1, -, hu⟩ := after_readLocal i (sendNext c.val p (herdNo s c.val) ch (.movReq ch w (some (stGet s c.val l)) .good)) hl hread
  have hbody : after (actMoverWord c.val ch found) s =
      after (sendNext c.val p (herdNo s c.val) ch (.movReq ch w (some (stGet s c.val l)) .good)) u := by
    rw [after_movP_send hi hleft hp hnone hsent, sendWord, after_look, hpeer]
    dsimp only
    rw [hdir, if_pos rfl, ← hl, ← hw]
    exact hu
  refine does_of_run hs.1 (a := actMoverWord c.val ch found) rfl ?_ ?_ <;> rw [hbody]
  · exact (hu1.wider rfl).trans (((within_sendNext ..).wider rfl).onlyIn u)
  · exact sent_after_sendNext (hu1 .core rfl) (hu1 .packets rfl) rfl

include hs hw in
theorem does_movP_read (hnone : movAnswer s c.val ch = none) (hsent : ch ∉ (coreX s c.val).movSent) {p : Nat} (hpeer : peerOf s c.val ch.val = some p)
    (hdir : bit i.word 25 = false) : Does (.moverWord c ch found) s [.core, .packets] fun t =>
      t.packets = s.packets ++ [⟨c.val, p, 4, 1, 0, herdNo s c.val, 0, c.val, 12, .movReq ch w none found⟩] ∧
      CoreIs s t c.val { coreX s c.val with movSent := (coreX s c.val).movSent ++ [ch] } := by
  have hbody : after (actMoverWord c.val ch found) s = after (sendNext c.val p (herdNo s c.val) ch (.movReq ch w none found)) s := by
    rw [after_movP_send hi hleft hp hnone hsent, sendWord, after_look, hpeer]
    dsimp only
    rw [hdir, if_neg Bool.false_ne_true, ← hw]
    rfl
  refine does_of_run hs.1 (a := actMoverWord c.val ch found) rfl ?_ ?_ <;> rw [hbody]
  · exact (within_sendNext ..).onlyIn s
  · exact sent_after_sendNext rfl rfl rfl

include hs hl in
theorem does_movP_word (hlow : l < 49152) {v : BitVec 256} (ha : movAnswer s c.val ch = some (.word v)) :
    Does (.moverWord c ch found) s [.ctl, .core, .store, .storeBad] fun t =>
      mvLeft t c.val ch.val = mvLeft s c.val ch.val - 1 ∧ mvLocal t c.val ch.val = (l + 1) % 65536 ∧
      mvFar t c.val ch.val = (mvFar s c.val ch.val + 1) % 2 ^ 64 ∧ ch ∉ (coreX t c.val).movSent ∧ movAnswer t c.val ch = none ∧
      ∀ d n, n < 49152 → stGet t d n = if d = c.val ∧ n = l then v else stGet s d n := by
  have hch := ch.isLt
  have pages := pages_of_site c.val
  obtain ⟨u, hu⟩ : ∃ u, u = after (stCount c.val 1) (after (takeMovAnswer c.val ch) s) := ⟨_, rfl⟩
  obtain ⟨y, hy⟩ : ∃ y, y = after (stPut c.val l v) u := ⟨_, rfl⟩
  have hbody : after (actMoverWord c.val ch found) s = after (copyStep c.val ch.val 2 true) y := by
    rw [after_movP_answer hi hleft hp ha, takeWord, after_look]
    dsimp only
    rw [after_seq_cons, after_seq_cons, after_seq_cons, after_seq_cons, after_seq_nil, ← hl, ← hu, ← hy]
  have h0 : OnlyIn [.core] s (after (takeMovAnswer c.val ch) s) := (within_takeMovAnswer ..).onlyIn s
  have h1 : OnlyIn [.ctl] (after (takeMovAnswer c.val ch) s) u := hu ▸ (within_stCount ..).onlyIn _
  have h2 : OnlyIn [.store, .storeBad] u y := hy ▸ (within_stPut ..).onlyIn u
  have h3 : OnlyIn [.ctl] y (after (copyStep c.val ch.val 2 true) y) := (within_copyStep ..).onlyIn y
  have hchan : SameChannel s y c.val ch.val := by
    have g0 : SameChannel s (after (takeMovAnswer c.val ch) s) c.val ch.val := sameChannel_within (within_takeMovAnswer ..) _ _ _
    have g1 := coreOnly_channel hch (WritesIn.regsOnly (writesIn_count (k := 0) (by omega) (by decide) (List.mem_singleton_self (corePage c.val)) 1)
      (after (takeMovAnswer c.val ch) s))
    rw [← stCount, ← hu] at g1
    rw [hy]
    exact (g0.trans g1).trans (sameChannel_within (within_stPut ..) _ _ _)
  obtain ⟨hd1, hd2, hd3⟩ := (wordDone_copyStep c.val ch.val (slot := 2) (by decide) true y).earlier hchan
  have hcore : (after (copyStep c.val ch.val 2 true) y).core = (after (takeMovAnswer c.val ch) s).core :=
    Eq.trans (h3 .core rfl) (Eq.trans (h2 .core rfl) (h1 .core rfl))
  obtain ⟨ht1, ht2⟩ := taken_after_takeMovAnswer s c.val ch
  refine does_of_run hs.1 (a := actMoverWord c.val ch found) rfl ?_ ?_ <;> rw [hbody]
  · exact (((h0.wider rfl).trans (h1.wider rfl)).trans (h2.wider rfl)).trans (h3.wider rfl)
  · refine ⟨hd1, by rw [hd2, hl], hd3, by rw [coreX_of_core hcore]; exact ht1, by rw [movAnswer_of_core hcore]; exact ht2, fun d n hn => ?_⟩
    have e3 : (after (copyStep c.val ch.val 2 true) y).store = y.store := h3 .store rfl
    have e1 : u.store = s.store := Eq.trans (h1 .store rfl) (h0 .store rfl)
    have hyst : y.store = mSet u.store (49152 * c.val + l) v 0 := by
      rw [hy, stPut, after_seq_cons, after_seq_cons, after_seq_nil]
      rfl
    rw [stGet, e3, hyst, e1]
    by_cases hdn : d = c.val ∧ n = l
    · rw [if_pos hdn, hdn.1, hdn.2, mGetD_mSet_same]
    · rw [if_neg hdn, mGetD_mSet_other _ (by omega), stGet]

include hs hl in
theorem does_movP_written (ha : movAnswer s c.val ch = some .written) : Does (.moverWord c ch found) s [.ctl, .core] fun t =>
    mvLeft t c.val ch.val = mvLeft s c.val ch.val - 1 ∧ mvLocal t c.val ch.val = (l + 1) % 65536 ∧
    mvFar t c.val ch.val = (mvFar s c.val ch.val + 1) % 2 ^ 64 ∧ ch ∉ (coreX t c.val).movSent ∧ movAnswer t c.val ch = none := by
  obtain ⟨u, hu⟩ : ∃ u, u = after (takeMovAnswer c.val ch) s := ⟨_, rfl⟩
  have hbody : after (actMoverWord c.val ch found) s = after (copyStep c.val ch.val 2 true) u := by
    rw [after_movP_answer hi hleft hp ha, takeWord, after_look]
    dsimp only
    rw [after_seq_cons, after_seq_cons, after_seq_nil, ← hu]
  have h0 : OnlyIn [.core] s u := hu ▸ (within_takeMovAnswer ..).onlyIn s
  have h3 : OnlyIn [.ctl] u (after (copyStep c.val ch.val 2 true) u) := (within_copyStep ..).onlyIn u
  have hchan : SameChannel s u c.val ch.val := hu ▸ sameChannel_within (within_takeMovAnswer ..) _ _ _
  obtain ⟨hd1, hd2, hd3⟩ := (wordDone_copyStep c.val ch.val (slot := 2) (by decide) true u).earlier hchan
  obtain ⟨ht1, ht2⟩ := taken_after_takeMovAnswer s c.val ch
  rw [← hu] at ht1 ht2
  refine does_of_run hs.1 (a := actMoverWord c.val ch found) rfl ?_ ?_ <;> rw [hbody]
  · exact (h0.wider rfl).trans (h3.wider rfl)
  · exact ⟨hd1, by rw [hd2, hl], hd3, by rw [coreX_of_core (h3 .core rfl)]; exact ht1, by rw [movAnswer_of_core (h3 .core rfl)]; exact ht2⟩

omit hleft in
include hs in
theorem does_movP_fenced (ha : movAnswer s c.val ch = some .fenced) (hrow : i.row < 2048) (hx : (coreX s c.val).faulting = false) :
    Does (.movpFencedResponse c ch) s [.ctl, .core, .herd, .packets, .out, .dumpRun, .freeCtr] fun t =>
      FaultCaptured t c.val 0x14 3 i.row ∧ bit (rd t (mvReg c.val ch.val)) 31 = false ∧
      bit (rd t (mvPage c.val + 0x20)) 8 = true ∧
      (coreX t c.val).issued = swapInsn (coreX s c.val) i { i with faulted := true, cause := 0x14 } := by
  have pages := pages_of_site c.val
  have hch := ch.isLt
  have hpart : i.part = 3 := by
    have h := List.find?_some hi
    simp only [isCopy, Bool.and_eq_true, decide_eq_true_eq] at h
    exact h.1.1.1.1
  obtain ⟨u, hu⟩ : ∃ u, u = after (count (mvPage c.val) 5 1) (after (takeMovAnswer c.val ch) s) := ⟨_, rfl⟩
  obtain ⟨v, hv⟩ : ∃ v, v = after (copyReport c.val ch.val 0x14 (mvFar u c.val ch.val) (herdAt u c.val)) u := ⟨_, rfl⟩
  have h0 : OnlyIn [.core] s (after (takeMovAnswer c.val ch) s) := (within_takeMovAnswer ..).onlyIn s
  have h1 : OnlyIn [.ctl] (after (takeMovAnswer c.val ch) s) u := hu ▸ (within_count ..).onlyIn _
  have h2 : OnlyIn [.ctl, .dumpRun, .freeCtr] u v := hv ▸ (within_copyReport ..).onlyIn u
  have hvx : coreX v c.val = { coreX s c.val with
      movSent := (coreX s c.val).movSent.filter (· ≠ ch)
      movAnswers := (coreX s c.val).movAnswers.filter (fun p => decide (p.1 ≠ ch)) } := by
    rw [coreX_of_core (h2 .core rfl), coreX_of_core (h1 .core rfl), takeMovAnswer, after_setCore, coreX_core_same]
  have hbody : after (actMovpFenced c.val ch) s =
      after (captureFault c.val i.row i.part i.word true i.far 0x14) (after (setIssued c.val i { i with faulted := true, cause := 0x14 }) v) := by
    rw [actMovpFenced, after_look, hi]
    dsimp only
    rw [hp, decide_eq_true ha, after_act, if_pos (by decide), after_seq_cons, after_seq_cons, after_seq_cons, after_seq_nil, ← hu, copyFault, after_look]
    dsimp only
    rw [if_pos (by decide), decide_eq_true (by decide : (0x14 : Nat) ≠ 0x21), ← after_insnFault (by rw [hvx]; exact hx), hv, copyReport]
    iterate 5 rw [after_seq_cons]
    iterate 4 rw [after_seq_cons]
    rw [after_seq_nil, after_seq_nil]
  obtain ⟨hbit, hist⟩ := reported c.val (ch := ch.val) 0x14 (mvFar u c.val ch.val) (herdAt u c.val) (by decide) u
  rw [← hv] at hbit hist
  have hat (o : Nat) (ho : o < 4096) : AtSite c.val (mvPage c.val + o) := ⟨by omega, by omega, by rw [page_of_offset (by omega) ho]; omega⟩
  have hother (o : Nat) (ho : o < 4096) : rd (after (captureFault c.val i.row i.part i.word true i.far 0x14)
      (after (setIssued c.val i { i with faulted := true, cause := 0x14 }) v)) (mvPage c.val + o) = rd v (mvPage c.val + o) := by
    rw [rd_after_captureFault_other _ _ _ _ _ _ _ _ (hat o ho) (by rw [page_of_offset (by omega) ho]; omega), ((within_setIssued ..).keepsReg _).rd]
  have hcap := faultCaptured (after (setIssued c.val i { i with faulted := true, cause := 0x14 }) v) c.val i.word true i.far hrow (part := i.part)
    (by omega) (show 0x14 < 256 by decide)
  refine does_of_run hs.1 (a := actMovpFenced c.val ch) rfl ?_ ?_ <;> rw [hbody]
  · exact ((((h0.wider rfl).trans (h1.wider rfl)).trans (h2.wider rfl)).trans (((within_setIssued ..).wider rfl).onlyIn _)).trans
      (((within_captureFault ..).wider rfl).onlyIn _)
  · refine ⟨by rw [hpart] at hcap ⊢; exact hcap, ?_, ?_, ?_⟩
    · rw [mvReg_eq, Nat.add_assoc, hother _ (by omega), ← Nat.add_assoc, ← mvReg_eq, hbit]
    · rw [hother _ (by decide), hist]
    · rw [issued_after_captureFault, (coreIs_setIssued ..).1, hvx]
      rfl

end

/-- Settles O28: a copy's begin and end in its channel's registers, and each word of a MOV.C and of a MOV.P. -/
theorem copies : Obligations.Copies := by
  unfold Obligations.Copies
  refine ⟨⟨?_, ?_, ?_⟩, ?_⟩
  · intro s hs c i hi hrow hf
    have h := does_beginCopy hs (cmd := .movC c) rfl hi hrow hf
    rwa [isMovP, op_of_nextToStart hi, if_neg (by decide)] at h
  · intro s hs c i hi hrow hf
    have h := does_beginCopy hs (cmd := .movP c) rfl hi hrow hf
    rwa [isMovP, op_of_nextToStart hi, if_pos (by decide)] at h
  · exact fun s hs c ch i hi hleft hf hw => does_moverCopyDone hs hi hleft hf hw
  · intro s hs c ch i l w found hi hleft hl hlow hw
    refine ⟨fun hp hdir bs hbs hread => ?_, fun hp hdir hread f b hal hj hclean hb hm hroom => ?_, fun hp hnone hsent p hpeer => ⟨fun hdir hread => ?_, fun hdir => ?_⟩,
      fun hp v ha => ?_, fun hp ha => ?_, fun hp ha hrow hx => ?_⟩
    · exact does_movC_read hs hi hleft hl hp hdir hlow hbs hread
    · exact does_movC_write hs hi hleft hl hp hdir hread hal hj hclean hb hm hroom
    · exact does_movP_write hs hi hleft hl hw hp hnone hsent hpeer hdir hread
    · exact does_movP_read hs hi hleft hw hp hnone hsent hpeer hdir
    · exact does_movP_word hs hi hleft hl hp hlow ha
    · exact does_movP_written hs hi hleft hl hp ha
    · exact does_movP_fenced hs hi hp ha hrow hx

end Sys2Proof.Machine
end

section
/-! The bytes of a scale-table entry, and what a merge and an evaluation make of them (R229 to R236); for O29. -/

namespace Sys2Proof.Machine

-- One declaration after the other: elaborated side by side they take more memory than the check has.
set_option Elab.async false

/-! ## Fields of an entry -/

theorem leNat_lt (bs : List Byte) : leNat bs < 256 ^ bs.length := by
  induction bs with
  | nil => exact Nat.one_pos
  | cons b bs ih =>
    have := b.isLt
    rw [leNat, List.length_cons, pow_succ]
    omega

theorem leNat_take_lt (bs : List Byte) (n : Nat) : leNat (bs.take n) < 256 ^ n :=
  (leNat_lt _).trans_le (Nat.pow_le_pow_right (by decide) (List.length_take_le ..))

section
variable {bs : List Byte} {off n : Nat}

theorem length_entPut (h : off + n ≤ bs.length) (v : Nat) : (entPut bs off n v).length = bs.length := by
  simp only [entPut, List.length_append, List.length_take, List.length_drop, length_leBytes]
  omega

theorem entNat_entPut_same (h : off + n ≤ bs.length) (v : Nat) : entNat (entPut bs off n v) off n = v % 256 ^ n := by
  have hd : (entPut bs off n v).drop off = leBytes n v ++ bs.drop (off + n) := by
    rw [entPut, List.append_assoc, List.drop_append_of_le_length (by simp; omega), List.drop_take_self, List.nil_append]
  rw [entNat, hd, List.take_left' (length_leBytes n v), leNat_leBytes]

theorem getElem?_entPut_other (h : off + n ≤ bs.length) (v : Nat) {i : Nat} (hi : i < off ∨ off + n ≤ i) : (entPut bs off n v)[i]? = bs[i]? := by
  have hleft : (bs.take off ++ leBytes n v).length = off + n := by simp; omega
  rw [entPut]
  by_cases hlt : i < off
  · rw [List.append_assoc, List.getElem?_append_left (by simp; omega), List.getElem?_take, if_pos hlt]
  · rw [List.getElem?_append_right (by omega), hleft, List.getElem?_drop]
    congr 1
    omega

theorem entNat_congr {bs' : List Byte} {o m : Nat} (h : ∀ i, o ≤ i → i < o + m → bs'[i]? = bs[i]?) : entNat bs' o m = entNat bs o m := by
  rw [entNat, entNat]
  congr 1
  refine List.ext_getElem? fun i => ?_
  rw [List.getElem?_take, List.getElem?_take]
  split
  · rw [List.getElem?_drop, List.getElem?_drop, h _ (by omega) (by omega)]
  · rfl

end

/-! ## What a change of an entry leaves -/

/-- An entry keeps its length, and every byte outside lo to hi − 1. -/
structure Edits (lo hi : Nat) (bs bs' : List Byte) : Prop where
  length : bs'.length = bs.length
  other : ∀ i, i < lo ∨ hi ≤ i → bs'[i]? = bs[i]?

section
variable {lo hi : Nat} {a b c : List Byte}

theorem Edits.refl (lo hi : Nat) (a : List Byte) : Edits lo hi a a := ⟨rfl, fun _ _ => rfl⟩

theorem Edits.trans (h : Edits lo hi a b) (g : Edits lo hi b c) : Edits lo hi a c :=
  ⟨g.length.trans h.length, fun i hi => (g.other i hi).trans (h.other i hi)⟩

theorem Edits.wider {lo' hi' : Nat} (h : Edits lo hi a b) (hl : lo' ≤ lo := by decide) (hh : hi ≤ hi' := by decide) : Edits lo' hi' a b :=
  ⟨h.length, fun i hi => h.other i (by omega)⟩

theorem Edits.entNat (h : Edits lo hi a b) (o n : Nat) (ho : o + n ≤ lo ∨ hi ≤ o := by decide) : entNat b o n = entNat a o n :=
  entNat_congr fun i _ _ => h.other i (by omega)

theorem Edits.entFld (h : Edits lo hi a b) (o hi' lo' : Nat) (ho : o + 4 ≤ lo ∨ hi ≤ o := by decide) : entFld b o hi' lo' = entFld a o hi' lo' := by
  rw [Machine.entFld, h.entNat o 4 ho, Machine.entFld]

theorem edits_entPut {bs : List Byte} {off n : Nat} (h : off + n ≤ bs.length) (v : Nat) : Edits off (off + n) bs (entPut bs off n v) :=
  ⟨length_entPut h v, fun _ hi => getElem?_entPut_other h v hi⟩

theorem edits_entSet {bs : List Byte} {off : Nat} (h : off + 4 ≤ bs.length) (hi lo v : Nat) : Edits off (off + 4) bs (entSet bs off hi lo v) :=
  edits_entPut h _

theorem entFld_entSet {bs : List Byte} {off : Nat} (h : off + 4 ≤ bs.length) {hi lo v : Nat} (hle : lo ≤ hi) (hhi : hi < 32) (hv : v < 2 ^ (hi + 1 - lo)) :
    Machine.entFld (entSet bs off hi lo v) off hi lo = v := by
  rw [Machine.entFld, entSet, entNat_entPut_same h, Nat.mod_eq_of_lt (show (setFld _ hi lo v).toNat < 256 ^ 4 from BitVec.isLt _)]
  exact (fld_setFld _ hle hhi v).trans (Nat.mod_eq_of_lt hv)

theorem edits_entCount {bs : List Byte} {off : Nat} (h : off + 8 ≤ bs.length) (n : Nat) : Edits off (off + 8) bs (entCount bs off n) := by
  rw [entCount]
  split
  · exact (edits_entPut (by omega) _).wider le_rfl (by omega)
  · have h1 := edits_entPut (n := 6) (show off + 6 ≤ bs.length by omega) (2 ^ 48 - 1)
    exact (h1.wider le_rfl (by omega)).trans ((edits_entPut (by rw [h1.length]; omega) _).wider (by omega) (by omega))

end

/-! ## A merge (R231) -/

theorem entMerge_fields {bs : List Byte} (h : bs.length = 256) (f : Figures) : (entMerge bs f).length = 256 ∧
    entNat (entMerge bs f) 0x18 4 = max (entNat bs 0x18 4) f.amax.toNat ∧
    entFld (entMerge bs f) 0x10 10 0 = min (entFld bs 0x10 10 0 + 1) 0x7FF ∧ entNat (entMerge bs f) 0 4 = entNat bs 0 4 := by
  obtain ⟨c, hc⟩ : ∃ c, c = entCount (entCount (entCount (entCount bs 0x20 f.clipped) 0x28 f.flushed) 0x30 f.nonfinite) 0x38 f.elements := ⟨_, rfl⟩
  have counts : Edits 0x20 0x40 bs c := by
    have step {off : Nat} (ho : 0x20 ≤ off ∧ off + 8 ≤ 0x40) (n : Nat) {b : List Byte} (hb : Edits 0x20 0x40 bs b) :
        Edits 0x20 0x40 bs (entCount b off n) := by
      have hl := hb.length
      exact hb.trans ((edits_entCount (by omega) n).wider ho.1 ho.2)
    exact hc ▸ step (by decide) _ (step (by decide) _ (step (by decide) _ (step (by decide) _ (.refl ..))))
  have hlen : c.length = 256 := counts.length.trans h
  obtain ⟨d, hd⟩ : ∃ d, d = entPut c 0x18 4 (max (entNat c 0x18 4) f.amax.toNat) := ⟨_, rfl⟩
  have amax : Edits 0x18 0x1C c d := hd ▸ edits_entPut (off := 0x18) (n := 4) (by omega) _
  have hdlen : d.length = 256 := amax.length.trans hlen
  have hmerge : entMerge bs f = entSet d 0x10 10 0 (min (entFld d 0x10 10 0 + 1) 0x7FF) := by rw [entMerge, ← hc, ← hd]
  have arrivals : Edits 0x10 0x14 d (entMerge bs f) := hmerge ▸ edits_entSet (off := 0x10) (by omega) ..
  have hold : entNat bs 0x18 4 < 256 ^ 4 := leNat_take_lt ..
  refine ⟨arrivals.length.trans hdlen, ?_, ?_, ?_⟩
  · rw [arrivals.entNat 0x18 4, hd, entNat_entPut_same (by omega), counts.entNat 0x18 4]
    exact Nat.mod_eq_of_lt (max_lt hold f.amax.isLt)
  · rw [hmerge, entFld_entSet (by omega) (by decide) (by decide) (by omega), amax.entFld 0x10 10 0, counts.entFld 0x10 10 0]
  · rw [arrivals.entNat 0 4, amax.entNat 0 4, counts.entNat 0 4]

/-! ## An evaluation (R232 to R236) -/

theorem edits_entTrip {bs : List Byte} (h : bs.length = 256) : Edits 0x10 0x18 bs (entTrip bs).1 := by
  have flag (v : Nat) (b : List Byte) (hb : b.length = 256) : Edits 0x10 0x18 b (entSet b 0x10 27 27 v) :=
    (edits_entSet (off := 0x10) (by omega) ..).wider
  have below (v : Nat) (b : List Byte) (hb : b.length = 256) : Edits 0x10 0x18 b (entSet b 0x14 7 0 v) :=
    (edits_entSet (off := 0x14) (by omega) ..).wider
  have both (v w : Nat) : Edits 0x10 0x18 bs (entSet (entSet bs 0x10 27 27 v) 0x14 7 0 w) :=
    (flag v bs h).trans (below w _ ((flag v bs h).length.trans h))
  rw [entTrip]
  dsimp only
  generalize (if entNat bs 0x20 6 * 65536 < entFld bs 8 31 16 * entNat bs 0x38 6 then entFld bs 0x14 7 0 + 1 else 0) = steps
  repeat' split
  · exact .refl ..
  · exact both ..
  · exact .refl ..
  · exact .refl ..
  · exact both ..
  · exact below _ _ h

/-- The history takes the step's largest value, and the head goes on (R232). -/
def entHistory (bs : List Byte) : List Byte :=
  let head := entFld bs 0x10 26 22
  if 0 < entNat bs 0x38 6 then
    let b := entPut bs (0x80 + 4 * head) 4 (entNat bs 0x18 4)
    entSet (entSet b 0x10 26 22 ((head + 1) % 32)) 0x10 21 16 (min (entFld b 0x10 21 16 + 1) 32)
  else bs

/-- The scale follows the history (R232). -/
def entScale (bs : List Byte) : List Byte :=
  if entFld bs 4 6 6 = 1 && entFld bs 4 5 4 = 1 then
    let h := (entHist bs (entFld bs 4 12 8 + 1)).foldl (fun m x => if m.toNat < x.toNat then x else m) (0 : Word)
    if h = 0 then bs else entPut bs 0 4 (scaleFor (entFld bs 4 3 0) (signed 4 (entFld bs 4 19 16)) h).toNat
  else bs

theorem entEvaluate_eq (bs : List Byte) : ∃ b r, b = entPut (entPut bs 0x40 32 (entNat bs 0x20 32)) 0x60 4
      (entNat (entPut bs 0x40 32 (entNat bs 0x20 32)) 0x18 4) ∧ r = (entTrip (entScale (entHistory b))).1 ∧
    (entEvaluate bs).1 = entPut (entSet (entPut (entPut r 0x20 32 0) 0x18 4 0) 0x10 10 0 0) 0x64 4
      (entNat (entSet (entPut (entPut r 0x20 32 0) 0x18 4 0) 0x10 10 0 0) 0x64 4 + 1) := ⟨_, _, rfl, rfl, rfl⟩

/-- An evaluation's change of the history keeps the counts, the configuration and the reports. -/
structure EditsHistory (bs bs' : List Byte) : Prop where
  length : bs'.length = bs.length
  other : ∀ i, (0x18 ≤ i ∧ i < 0x80) → bs'[i]? = bs[i]?

theorem Edits.history {lo hi : Nat} {a b : List Byte} (h : Edits lo hi a b) (ho : hi ≤ 0x18 ∨ 0x80 ≤ lo := by decide) : EditsHistory a b :=
  ⟨h.length, fun i hi => h.other i (by omega)⟩

theorem EditsHistory.trans {a b c : List Byte} (h : EditsHistory a b) (g : EditsHistory b c) : EditsHistory a c :=
  ⟨g.length.trans h.length, fun i hi => (g.other i hi).trans (h.other i hi)⟩

theorem EditsHistory.entNat {a b : List Byte} (h : EditsHistory a b) (o n : Nat) (ho : 0x18 ≤ o ∧ o + n ≤ 0x80 := by decide) :
    entNat b o n = entNat a o n := entNat_congr fun i _ _ => h.other i (by omega)

theorem entFld_lt (bs : List Byte) (o hi lo : Nat) : entFld bs o hi lo < 2 ^ (hi + 1 - lo) := Nat.mod_lt _ (by positivity)

theorem edits_entHistory {bs : List Byte} (h : bs.length = 256) : EditsHistory bs (entHistory bs) := by
  rw [entHistory]
  dsimp only
  split
  · have hlt := entFld_lt bs 0x10 26 22
    have h1 := edits_entPut (bs := bs) (off := 0x80 + 4 * entFld bs 0x10 26 22) (n := 4) (by omega) (entNat bs 0x18 4)
    have hlen := h1.length.trans h
    generalize entPut bs (0x80 + 4 * entFld bs 0x10 26 22) 4 (entNat bs 0x18 4) = b at h1 hlen
    have h2 := edits_entSet (bs := b) (off := 0x10) (by omega) 26 22 ((entFld bs 0x10 26 22 + 1) % 32)
    exact ((h1.history (.inr (by omega))).trans h2.history).trans
      (edits_entSet (off := 0x10) (by rw [h2.length]; omega) ..).history
  · exact ⟨rfl, fun _ _ => rfl⟩

theorem edits_entScale {bs : List Byte} (h : bs.length = 256) : EditsHistory bs (entScale bs) := by
  rw [entScale]
  dsimp only
  split
  · split
    · exact ⟨rfl, fun _ _ => rfl⟩
    · exact (edits_entPut (off := 0) (n := 4) (by omega) _).history
  · exact ⟨rfl, fun _ _ => rfl⟩

theorem entEvaluate_fields {bs : List Byte} (h : bs.length = 256) : (entEvaluate bs).1.length = 256 ∧ entNat (entEvaluate bs).1 0x20 32 = 0 ∧
    entNat (entEvaluate bs).1 0x18 4 = 0 ∧ entFld (entEvaluate bs).1 0x10 10 0 = 0 ∧ entNat (entEvaluate bs).1 0x40 32 = entNat bs 0x20 32 ∧
    entNat (entEvaluate bs).1 0x60 4 = entNat bs 0x18 4 ∧ entNat (entEvaluate bs).1 0x64 4 = (entNat bs 0x64 4 + 1) % 2 ^ 32 := by
  obtain ⟨b, r, hb, hr, heval⟩ := entEvaluate_eq bs
  -- The step's figures become the last step's.
  have last : Edits 0x40 0x60 bs (entPut bs 0x40 32 (entNat bs 0x20 32)) := edits_entPut (off := 0x40) (n := 32) (by omega) _
  have hlast : entNat (entPut bs 0x40 32 (entNat bs 0x20 32)) 0x40 32 = entNat bs 0x20 32 := by
    rw [entNat_entPut_same (by omega)]
    exact Nat.mod_eq_of_lt (leNat_take_lt ..)
  generalize entPut bs 0x40 32 (entNat bs 0x20 32) = l at last hlast hb
  have hl : l.length = 256 := last.length.trans h
  have lastMax : Edits 0x60 0x64 l b := hb ▸ edits_entPut (off := 0x60) (n := 4) (by omega) _
  have hmax : entNat b 0x60 4 = entNat bs 0x18 4 := by
    rw [hb, entNat_entPut_same (by omega), last.entNat 0x18 4]
    exact Nat.mod_eq_of_lt (leNat_take_lt ..)
  have hbl : b.length = 256 := lastMax.length.trans hl
  -- The history, the scale and the flag.
  have history : EditsHistory b r := by
    have h1 := edits_entHistory hbl
    have h2 := edits_entScale (h1.length.trans hbl)
    exact hr ▸ (h1.trans h2).trans (edits_entTrip (h2.length.trans (h1.length.trans hbl))).history
  have hrl : r.length = 256 := history.length.trans hbl
  -- The step's figures start afresh.
  have e1 : Edits 0x20 0x40 r (entPut r 0x20 32 0) := edits_entPut (off := 0x20) (n := 32) (by omega) _
  have n1 : entNat (entPut r 0x20 32 0) 0x20 32 = 0 := (entNat_entPut_same (by omega) 0).trans (Nat.zero_mod _)
  generalize entPut r 0x20 32 0 = x at e1 n1 heval
  have hx : x.length = 256 := e1.length.trans hrl
  have e2 : Edits 0x18 0x1C x (entPut x 0x18 4 0) := edits_entPut (off := 0x18) (n := 4) (by omega) _
  have n2 : entNat (entPut x 0x18 4 0) 0x18 4 = 0 := (entNat_entPut_same (by omega) 0).trans (Nat.zero_mod _)
  generalize entPut x 0x18 4 0 = y at e2 n2 heval
  have hy : y.length = 256 := e2.length.trans hx
  have e3 : Edits 0x10 0x14 y (entSet y 0x10 10 0 0) := edits_entSet (off := 0x10) (by omega) ..
  have n3 : entFld (entSet y 0x10 10 0 0) 0x10 10 0 = 0 := entFld_entSet (by omega) (by decide) (by decide) (by decide)
  generalize entSet y 0x10 10 0 0 = z at e3 n3 heval
  have hz : z.length = 256 := e3.length.trans hy
  have e4 : Edits 0x64 0x68 z (entEvaluate bs).1 := heval ▸ edits_entPut (off := 0x64) (n := 4) (by omega) _
  refine ⟨e4.length.trans hz, ?_, ?_, ?_, ?_, ?_, ?_⟩
  · rw [e4.entNat 0x20 32, e3.entNat 0x20 32, e2.entNat 0x20 32, n1]
  · rw [e4.entNat 0x18 4, e3.entNat 0x18 4, n2]
  · rw [e4.entFld 0x10 10 0, n3]
  · rw [e4.entNat 0x40 32, e3.entNat 0x40 32, e2.entNat 0x40 32, e1.entNat 0x40 32, history.entNat 0x40 32, lastMax.entNat 0x40 32, hlast]
  · rw [e4.entNat 0x60 4, e3.entNat 0x60 4, e2.entNat 0x60 4, e1.entNat 0x60 4, history.entNat 0x60 4, hmax]
  · rw [heval, entNat_entPut_same (by omega), e3.entNat 0x64 4, e2.entNat 0x64 4, e1.entNat 0x64 4, history.entNat 0x64 4, lastMax.entNat 0x64 4,
      last.entNat 0x64 4]
    rfl

end Sys2Proof.Machine
end

section
/-! Runs of whole blocks without errors: what reads and writes of them do (R391 to R398); for O29 and the engines. -/

namespace Sys2Proof.Machine

-- One declaration after the other: elaborated side by side they take more memory than the check has.
set_option Elab.async false

/-! ## A block without errors is written whole -/

/-- Block b written whole where nothing merges: its bytes are the data's, blocks without errors stay so, and nothing else changes but counts. -/
structure BlockSet (s t : State) (b : Nat) (data : List Byte) : Prop where
  hold : SameHold s t
  only : OnlyIn [.ctl, .mem, .chk] s t
  byte : ∀ x, memByte t x = if x / 64 = heldAt s b then data.getD (x - 64 * heldAt s b) 0 else memByte s x
  clean : ∀ a, CleanBlk s a → CleanBlk t a
  beside : ∀ x, Beside x → rd t x = rd s x

theorem rawDelta_after_putRaw_zero (s : State) (q p : Nat) (data : List Byte) :
    rawDelta (after (putRaw q data [0, 0, 0, 0]) s) p = if p = q then [0, 0, 0, 0] else rawDelta s p := by
  by_cases h : p = q
  · rw [if_pos h, h, rawDelta_after_putRaw s q rfl]
  · rw [if_neg h, rawDelta, rawDelta]
    refine List.map_congr_left fun i hi => ?_
    have := List.mem_range.mp hi
    rw [putRaw, after_seq_cons, after_seq_cons, after_seq_nil, chk_after_each, if_neg (by simp; omega)]
    exact congrArg (mGetD · _ 0) ((within_memPut ..).chk s)

theorem cleanBlk_of_delta {s t : State} {a : Nat} (h : SameHold s t) (htcorr : ∀ n < 24, rd t (mpPage n + 0x100) = rd s (mpPage n + 0x100))
    (hpois : poisoned s a = false → poisoned t a = false)
    (hdelta : rawDelta t (heldAt s a) = [0, 0, 0, 0] ∨ rawDelta t (heldAt s a) = rawDelta s (heldAt s a)) (hc : CleanBlk s a) : CleanBlk t a := by
  obtain ⟨hv, hp⟩ := hc
  refine ⟨?_, hpois hp⟩
  rw [h.heldAt, tcorrOf, htcorr _ (blkPort_lt a), ← tcorrOf]
  rcases hdelta with hz | hk
  · exact verdictAt_fresh hz _
  · rw [verdictAt, inlineOn, h.straps, hk, ← inlineOn]
    exact hv

theorem blockSet_portWrite {s : State} {b : Nat} (h : mergeOf s b = none) {data : List Byte} (hdata : data.length = 64) :
    BlockSet s (after (portWrite b data) s) b data := by
  have hdrop : after (dropFor b) s = s := by rw [dropFor, after_look, h]; rfl
  obtain ⟨u, hu⟩ : ∃ u, u = after (putRaw (heldAt s b) data [0, 0, 0, 0]) s := ⟨_, rfl⟩
  have huonly : OnlyIn [.mem, .chk] s u := hu ▸ (within_putRaw ..).onlyIn s
  have hctl : u.ctl = s.ctl := huonly .ctl rfl
  obtain ⟨v, hv⟩ : ∃ v, v = after (clearPoison b u) u := ⟨_, rfl⟩
  have hcount : Within [.ctl] (count (mpPage (blkPort b)) 1 1) := within_count ..
  have hclear := within_clearPoison b u
  obtain ⟨hhold, hbits⟩ := sameHold_clearPoison b u
  have hvonly : OnlyIn [.ctl] u v := hv ▸ hclear.onlyIn u
  rw [← hv] at hhold hbits
  obtain ⟨t, ht⟩ : ∃ t, t = after (count (mpPage (blkPort b)) 1 1) v := ⟨_, rfl⟩
  have htonly : OnlyIn [.ctl] v t := ht ▸ hcount.onlyIn v
  have hport (n x : Nat) (hx : PortReg n x) : rd t x = rd v x := ht ▸ ((portReg_above hx).count (mpPage_mod _) (by decide) 1).eq v
  have hwrite : after (portWrite b data) s = t := by
    rw [portWrite, after_seq_cons, hdrop, after_seq_cons, after_seq_nil, after_storeBlk, ← hu, ← clearPoison_of_ctl hctl, ← hv, ← ht]
  have hu0 : SameHold s u := SameHold.of_regs (huonly .straps rfl) fun _ _ _ _ => by rw [rd, hctl, ← rd]
  have hold : SameHold s t := (hu0.trans hhold).trans (SameHold.of_regs (htonly .straps rfl) fun n _ x hx => hport n x hx)
  have hpage : mpPage (blkPort b) ∈ (List.range 24).map mpPage := List.mem_map_of_mem (List.mem_range.mpr (blkPort_lt _))
  have hmem : t.mem = u.mem := Eq.trans (htonly .mem rfl) (hvonly .mem rfl)
  have hchk : t.chk = u.chk := Eq.trans (htonly .chk rfl) (hvonly .chk rfl)
  have hregs (x : Nat) (hx : ∀ e < 64, x ≠ remapReg (blkPort b) e) : rd v x = rd s x := by
    rw [hv, clearPoison]
    split
    case h_1 e he =>
      rw [after_wrBit, rd_ctl_other _ (hx e (remapOf_lt he)), rd, hctl, ← rd]
    case h_2 =>
      rw [rd, show (after nop u).ctl = s.ctl from hctl, ← rd]
  rw [hwrite]
  refine ⟨hold, (huonly.wider rfl).trans ((hvonly.wider rfl).trans (htonly.wider rfl)), fun x => ?_, fun a ha => ?_, fun x hx => ?_⟩
  · rw [memByte, hmem, ← memByte, hu, memByte_after_putRaw s _ hdata]
  · refine cleanBlk_of_delta hold (fun n hn => ?_) (fun hp => ?_) ?_ ha
    · rw [hport n _ (portReg_tcorr n), hregs _ fun e he => by unfold remapReg mpPage; omega]
    · refine poisoned_of_bits hold (fun n hn e he hb => ?_) a hp
      rw [hport n _ (portReg_remap n he)] at hb
      have := hbits n hn e he hb
      rwa [rd, hctl, ← rd] at this
    · rw [rawDelta_of_chk hchk, hu, rawDelta_after_putRaw_zero]
      split
      · exact .inl rfl
      · exact .inr rfl
  · rw [ht, (writesIn_count (mpPage_mod _) (by decide) hpage 1 x hx).eq, hregs x fun e he hne => ?_]
    have : x / 4096 * 4096 = mpPage (blkPort b) := by rw [hne]; unfold remapReg mpPage; omega
    exact hx (this ▸ hpage)

/-! ## Aligned runs -/

theorem blockParts_aligned {a n : Nat} (h : a % 64 = 0) (hn : 0 < n) : blockParts a (64 * n) = (List.range n).map fun i => (a / 64 + i, 0, 64, 64 * i) := by
  rw [blockParts, if_neg (by omega), show (a + 64 * n - 1) / 64 + 1 - a / 64 = n by omega]
  refine List.map_congr_left fun i hi => ?_
  have := List.mem_range.mp hi
  simp only [Prod.mk.injEq, true_and]
  omega

/-- The n blocks from block b hold no error, and none of them can be a spare. -/
structure CleanRun (s : State) (b n : Nat) : Prop where
  clean : ∀ j < n, CleanBlk s (b + j)
  unspared : ∀ j < n, Unspared s (b + j)
  mergeBuf : s.mergeBuf = []

section
variable {s : State} {b n : Nat} (h : CleanRun s b n)
include h

theorem CleanRun.mergeOf (a : Nat) : mergeOf s a = none := by rw [Machine.mergeOf, h.mergeBuf]; rfl

theorem CleanRun.readBlk {j : Nat} (hj : j < n) : readBlk s (b + j) = some (rawData s (heldAt s (b + j))) := by
  rw [readBlk_unmerged (h.mergeOf _), decodeBlk_clean (h.clean j hj).2 (h.clean j hj).1]

end

/-- The bytes of n blocks from block b. -/
def runData (s : State) (b n : Nat) : List Byte := (List.range n).flatMap fun j => rawData s (heldAt s (b + j))

theorem length_runData (s : State) (b n : Nat) : (runData s b n).length = 64 * n := by
  rw [runData, List.length_flatMap, List.map_congr_left (g := fun _ => 64) fun j _ => length_rawData ..]
  simp
  omega

theorem devRead_aligned {s : State} {a n : Nat} (h : CleanRun s (a / 64) n) (ha : a % 64 = 0) (hn : 0 < n) :
    devRead s a (64 * n) = some (runData s (a / 64) n) := by
  rw [devRead, blockParts_aligned ha hn, List.foldl_map]
  have upTo (k : Nat) (hk : k ≤ n) : (List.range k).foldl (fun acc i => acc.bind fun bs =>
      (readBlk s (a / 64 + i)).map (fun d => bs ++ (d.drop 0).take 64)) (some []) = some (runData s (a / 64) k) := by
    induction k with
    | zero => rfl
    | succ k ih =>
      rw [List.range_succ, List.foldl_append, ih (by omega), List.foldl_cons, List.foldl_nil, Option.bind_some, h.readBlk (by omega), Option.map_some,
        List.drop_zero, List.take_of_length_le (by rw [length_rawData]), runData, runData, List.range_succ, List.flatMap_append, List.flatMap_singleton]
  exact upTo n le_rfl

theorem CleanRun.of_count {s : State} {b n p k : Nat} (h : CleanRun s b n) (hp : p % 4096 = 0) (hk : k < 8) (m : Nat) :
    SameTable s (after (count p k m) s) ∧ CleanRun (after (count p k m) s) b n := by
  have hw : Within [.ctl] (count p k m) := within_count ..
  have hsame : SameTable s (after (count p k m) s) :=
    ⟨fun _ _ x hx => ((portReg_above hx).count hp hk m).eq s, hw.straps s, hw.memory s, hw.chk s, hw.mergeBuf s⟩
  refine ⟨hsame, fun j hj => ?_, fun j hj q hq => ?_, (hw.mergeBuf s).trans h.mergeBuf⟩
  · have hr := sameReading_count s (b + j) hp hk m
    exact ⟨(hr.verdict (hw.chk s)).trans (h.clean j hj).1, hr.poisoned.trans (h.clean j hj).2⟩
  · rw [replFrame, hsame.hold.rsvBase, ← replFrame]
    exact h.unspared j hj q hq

/-- A read of blocks without errors counts at their ports, and that alone. -/
structure RunRead (s t : State) (b n : Nat) : Prop where
  same : SameTable s t
  run : CleanRun t b n
  only : OnlyIn [.ctl] s t
  beside : ∀ x, Beside x → rd t x = rd s x

theorem runRead_devReadActs {s : State} {a n : Nat} (h : CleanRun s (a / 64) n) (ha : a % 64 = 0) (hn : 0 < n) (src : Src) (herd : Option Nat) :
    RunRead s (after (devReadActs a (64 * n) src herd) s) (a / 64) n := by
  rw [devReadActs, blockParts_aligned ha hn]
  refine after_each_keeps (P := fun u => RunRead s u (a / 64) n) _ _ (fun p hp u hu => ?_) s ⟨.refl s, h, onlyIn_refl _ s, fun _ _ => rfl⟩
  obtain ⟨j, hj, rfl⟩ := List.mem_map.mp hp
  have hj := List.mem_range.mp hj
  obtain ⟨hsame, hrun⟩ := hu.run.of_count (mpPage_mod (blkPort (a / 64 + j))) (k := 0) (by decide) 1
  have hpage : mpPage (blkPort (a / 64 + j)) ∈ (List.range 24).map mpPage := List.mem_map_of_mem (List.mem_range.mpr (blkPort_lt _))
  rw [after_portRead (hu.run.mergeOf _), after_readDecode_clean _ _ (hrun.clean j hj)]
  exact ⟨hu.same.trans hsame, hrun, hu.only.trans ((within_count ..).onlyIn u), fun x hx =>
    ((writesIn_count (mpPage_mod _) (by decide) hpage 1 x hx).eq u).trans (hu.beside x hx)⟩

/-- The n blocks from block b written whole: they read back as written. -/
structure RunWritten (s t : State) (b n : Nat) (bs : List Byte) : Prop where
  hold : SameHold s t
  run : CleanRun t b n
  only : OnlyIn [.ctl, .mem, .chk] s t
  data : runData t b n = bs
  other : ∀ x, (∀ j < n, x / 64 ≠ heldAt s (b + j)) → memByte t x = memByte s x
  beside : ∀ x, Beside x → rd t x = rd s x

theorem CleanRun.put {s t : State} {b n c : Nat} {data : List Byte} (h : CleanRun s b n) (g : BlockSet s t c data) : CleanRun t b n where
  clean j hj := g.clean _ (h.clean j hj)
  unspared j hj q hq := by
    rw [replFrame, g.hold.rsvBase, ← replFrame]
    exact h.unspared j hj q hq
  mergeBuf := Eq.trans (g.only .mergeBuf rfl) h.mergeBuf

theorem BlockSet.rawData_same {s t : State} {b : Nat} {data : List Byte} (h : BlockSet s t b data) (hdata : data.length = 64) :
    rawData t (heldAt s b) = data := by
  rw [rawData, memBytes]
  refine (List.map_congr_left fun i hi => ?_).trans (map_range_getD hdata 0)
  have := List.mem_range.mp hi
  rw [h.byte, if_pos (by omega), Nat.add_sub_cancel_left]

theorem BlockSet.rawData_other {s t : State} {b q : Nat} {data : List Byte} (h : BlockSet s t b data) (hq : q ≠ heldAt s b) :
    rawData t q = rawData s q := by
  rw [rawData, memBytes, rawData, memBytes]
  refine List.map_congr_left fun i hi => ?_
  have := List.mem_range.mp hi
  rw [h.byte, if_neg (by omega)]

theorem flatMap_chunks {α : Type} (n : Nat) (bs : List α) (h : bs.length = 64 * n) :
    ((List.range n).flatMap fun j => (bs.drop (64 * j)).take 64) = bs := by
  have upTo (k : Nat) (hk : k ≤ n) : ((List.range k).flatMap fun j => (bs.drop (64 * j)).take 64) = bs.take (64 * k) := by
    induction k with
    | zero => simp
    | succ k ih => rw [List.range_succ, List.flatMap_append, ih (by omega), List.flatMap_singleton, Nat.mul_succ, List.take_add]
  rw [upTo n le_rfl, List.take_of_length_le (by omega)]

/-- The first k of the n blocks from block b are written. -/
structure RunBegun (s t : State) (b n k : Nat) (chunk : Nat → List Byte) : Prop where
  hold : SameHold s t
  run : CleanRun t b n
  only : OnlyIn [.ctl, .mem, .chk] s t
  data : ∀ j < k, rawData t (heldAt s (b + j)) = chunk j
  other : ∀ x, (∀ j < n, x / 64 ≠ heldAt s (b + j)) → memByte t x = memByte s x
  beside : ∀ x, Beside x → rd t x = rd s x

theorem runBegun_portWrites {s : State} {b n : Nat} (h : CleanRun s b n) {chunk : Nat → List Byte} (hchunk : ∀ j < n, (chunk j).length = 64) {k : Nat}
    (hk : k ≤ n) : RunBegun s (after (each (List.range k) fun j => portWrite (b + j) (chunk j)) s) b n k chunk := by
  induction k with
  | zero => exact ⟨.refl s, h, onlyIn_refl _ s, fun _ hj => absurd hj (Nat.not_lt_zero _), fun _ _ => rfl, fun _ _ => rfl⟩
  | succ k ih =>
    have hu := ih (by omega)
    rw [List.range_succ, after_each_concat]
    generalize after (each (List.range k) fun j => portWrite (b + j) (chunk j)) s = u at hu
    have hset := blockSet_portWrite (hu.run.mergeOf (b + k)) (hchunk k (by omega))
    refine ⟨hu.hold.trans hset.hold, hu.run.put hset, hu.only.trans hset.only, fun j hj => ?_, fun x hx => ?_, fun x hx =>
      (hset.beside x hx).trans (hu.beside x hx)⟩
    · by_cases hjk : j = k
      · rw [hjk, ← hu.hold.heldAt, hset.rawData_same (hchunk k (by omega))]
      · rw [hset.rawData_other, hu.data j (by omega)]
        rw [hu.hold.heldAt]
        intro he
        have := heldAt_inj (h.unspared j (by omega)) (h.unspared k (by omega)) he
        omega
    · rw [hset.byte, hu.hold.heldAt, if_neg (hx k (by omega)), hu.other x hx]

theorem runWritten_devWrite {s : State} {a n : Nat} (h : CleanRun s (a / 64) n) (ha : a % 64 = 0) (hn : 0 < n) {bs : List Byte}
    (hbs : bs.length = 64 * n) (herd : Nat) : RunWritten s (after (devWrite a bs herd) s) (a / 64) n bs := by
  have heach : after (devWrite a bs herd) s = after (each (List.range n) fun j => portWrite (a / 64 + j) ((bs.drop (64 * j)).take 64)) s := by
    rw [devWrite, hbs, blockParts_aligned ha hn, each, List.map_map, each]
    exact congrArg (fun as => after (seq as) s) (List.map_congr_left fun j _ => by
      dsimp only [Function.comp]
      exact if_pos rfl)
  have hw := runBegun_portWrites h (chunk := fun j => (bs.drop (64 * j)).take 64) (fun j hj => by
    rw [List.length_take, List.length_drop]
    omega) le_rfl
  rw [heach]
  refine ⟨hw.hold, hw.run, hw.only, ?_, hw.other, hw.beside⟩
  rw [runData, List.flatMap_congr fun j hj => (congrArg _ (hw.hold.heldAt _)).trans (hw.data j (List.mem_range.mp hj)), flatMap_chunks n bs hbs]

/-- A run without errors in a frame of the herds. -/
theorem cleanRun_of_frame {s : State} {b n : Nat} (hclean : ∀ j < n, CleanBlk s (b + j)) (hbuf : s.mergeBuf = []) (hframe : (b + n - 1) / 1024 < rsvBase s) :
    CleanRun s b n := ⟨hclean, fun j hj => unspared_of_lt (by omega), hbuf⟩

end Sys2Proof.Machine
end

section
/-! Merges and evaluations of the scale table (R230 to R236, R343); O29. -/

namespace Sys2Proof.Machine

-- One declaration after the other: elaborated side by side they take more memory than the check has.
set_option Elab.async false

/-! ## Runs of clean blocks elsewhere -/

theorem CleanRun.congr {s t : State} {b n : Nat} (h : CleanRun s b n) (g : SameTable s t) : CleanRun t b n where
  clean j hj := ⟨((g.reading _).verdict g.chk).trans (h.clean j hj).1, (g.reading _).poisoned.trans (h.clean j hj).2⟩
  unspared j hj q hq := by
    rw [replFrame, g.hold.rsvBase, ← replFrame]
    exact h.unspared j hj q hq
  mergeBuf := g.mergeBuf.trans h.mergeBuf

theorem sameTable_within {ps : List Part} {a : Act} (h : Within ps a) (s : State) (hc : ps.contains .ctl = false := by rfl)
    (h1 : ps.contains .straps = false := by rfl) (h2 : ps.contains .mem = false := by rfl) (h3 : ps.contains .chk = false := by rfl)
    (h4 : ps.contains .mergeBuf = false := by rfl) : SameTable s (after a s) :=
  ⟨fun _ _ x _ => (h.keepsReg x hc).rd s, h.straps s h1, h.memory s h2, h.chk s h3, h.mergeBuf s h4⟩

theorem SameTable.runData {s t : State} (h : SameTable s t) (b n : Nat) : runData t b n = runData s b n := by
  rw [Machine.runData, Machine.runData]
  exact List.flatMap_congr fun j _ => by rw [(h.reading _).heldAt, rawData_of_mem h.mem]

theorem SameTable.readBlk {s t : State} (h : SameTable s t) (b : Nat) : readBlk t b = readBlk s b := (h.reading b).readBlk h.chk h.mem h.mergeBuf

theorem SameTable.devRead {s t : State} (h : SameTable s t) (a n : Nat) : devRead t a n = devRead s a n := by
  simp only [Machine.devRead, h.readBlk]

/-- A read and then a write of one run of clean blocks. -/
theorem runWritten_after_read {s : State} {a n : Nat} (h : CleanRun s (a / 64) n) (ha : a % 64 = 0) (hn : 0 < n) {bs : List Byte}
    (hbs : bs.length = 64 * n) (src : Src) (herd : Nat) :
    RunWritten s (after (devWrite a bs herd) (after (devReadActs a (64 * n) src (some herd)) s)) (a / 64) n bs := by
  have hr := runRead_devReadActs h ha hn src (some herd)
  generalize after (devReadActs a (64 * n) src (some herd)) s = u at hr
  have hw := runWritten_devWrite hr.run ha hn hbs herd
  refine ⟨hr.same.hold.trans hw.hold, hw.run, (hr.only.wider rfl).trans hw.only, hw.data, fun x hx => ?_, fun x hx =>
    (hw.beside x hx).trans (hr.beside x hx)⟩
  rw [hw.other x fun j hj => by rw [hr.same.hold.heldAt]; exact hx j hj, memByte, hr.same.mem, ← memByte]

theorem RunWritten.devRead {s t : State} {a n : Nat} {bs : List Byte} (h : RunWritten s t (a / 64) n bs) (ha : a % 64 = 0) (hn : 0 < n) :
    devRead t a (64 * n) = some bs := by rw [devRead_aligned h.run ha hn, h.data]

theorem length_devRead {s : State} {a n : Nat} {bs : List Byte} (h : CleanRun s (a / 64) n) (ha : a % 64 = 0) (hn : 0 < n)
    (hbs : devRead s a (64 * n) = some bs) : bs.length = 64 * n := by
  rw [devRead_aligned h ha hn, Option.some.injEq] at hbs
  rw [← hbs, length_runData]

/-! ## SCALE_MERGE_SEND (R230) -/

theorem does_scaleMergeSend {s : State} (hs : Ready s) (c : Site) (howed : (coreX s c.val).mergeOwed = true) :
    Does (.scaleMergeSend c) s [.core, .merges] fun t => CoreIs s t c.val { coreX s c.val with mergeOwed := false, figs := [] } ∧
      t.merges = s.merges ++ ((List.range 16).filter (slotEn s c.val)).map fun n =>
        ⟨herdNo s c.val, entryAddr s c.val n, mGetD (coreX s c.val).figs n Figures.zero, some c.val⟩ := by
  obtain ⟨ms, hms⟩ : ∃ ms, ms = s.merges ++ ((List.range 16).filter (slotEn s c.val)).map fun n =>
    (⟨herdNo s c.val, entryAddr s c.val n, mGetD (coreX s c.val).figs n Figures.zero, some c.val⟩ : Merge) := ⟨_, rfl⟩
  have hbody : after (actScaleMergeSend c.val) s = after (setCore c.val (fun x => { x with mergeOwed := false, figs := [] })) (after (one (.merges ms)) s) := by
    rw [actScaleMergeSend, after_look]
    dsimp only
    rw [howed, after_act, if_pos rfl, after_seq_cons, after_seq_cons, after_seq_nil, hms]
  have hone : Within [.merges] (one (.merges ms)) := within_one rfl
  have hset : Within [.core] (setCore c.val (fun x => { x with mergeOwed := false, figs := [] })) := within_setCore ..
  rw [← hms]
  refine does_of_run hs.1 (a := actScaleMergeSend c.val) rfl ?_ ?_ <;> rw [hbody]
  · exact ((hone.onlyIn s).wider rfl).trans ((hset.onlyIn _).wider rfl)
  · exact ⟨((coreIs_refl s c.val).within hone).setCore _, (hset.merges _).trans rfl⟩

/-! ## SCALE_MERGE (R231, R233) -/

section
variable {s : State} (hs : Ready s) {m : Merge} {f a : Nat} {bs : List Byte} (hfind : s.merges.find? (mergeReady s) = some m)
  (hj : judge s m.herd (m.addr / 65536) true = .frame f) (hentry : entryClean s (m.addr / 65536) = true) (hf : f < rsvBase s)
  (hal : m.addr % 256 = 0) (ha : a = 65536 * f + m.addr % 65536) (hclean : ∀ j < 4, CleanBlk s (a / 64 + j)) (hbuf : s.mergeBuf = [])
  (hread : devRead s a 256 = some bs) (hdead : entDead bs = false)

/-- What a merge makes of its entry, and of the list of entries that are due. -/
def mergeEntry (m : Merge) (a : Nat) (bs : List Byte) : Act :=
  seq [devReadActs a 256 .mesh (some m.herd), devWrite a (entMerge bs m.figs) m.herd,
    act (decide (entFld (entMerge bs m.figs) 0x10 10 0 = entFld bs 0x0C 10 0)) (look fun s => one (.evalDue (s.evalDue ++ [(a, m.herd)])))]

include hfind hj hentry ha hread hdead

theorem after_actScaleMerge : ∃ u, SameTable s u ∧ OnlyIn [.touched, .merges] s u ∧ u.merges = s.merges.erase m ∧
    after actScaleMerge s = after (mergeEntry m a bs) u := by
  obtain ⟨v, hv⟩ : ∃ v, v = after (one (.merges (s.merges.erase m))) s := ⟨_, rfl⟩
  have hone : Within [.merges] (one (.merges (s.merges.erase m))) := within_one rfl
  have htouch : Within [.touched] (touch (m.addr / 65536)) := within_touch _
  have hrange : SameRange s v := hv ▸ .of_within hone (fun x _ _ => hone.keepsReg x) s
  have hmerges : v.merges = s.merges.erase m := hv ▸ rfl
  have hvs : SameTable s v := hv ▸ sameTable_within hone s
  refine ⟨after (touch (m.addr / 65536)) v, ?_, ?_, (htouch.merges v).trans hmerges, ?_⟩
  · exact hvs.trans (sameTable_within htouch v)
  · exact (hv ▸ (hone.onlyIn s).wider rfl : OnlyIn [.touched, .merges] s v).trans ((htouch.onlyIn v).wider rfl)
  · have hju : after (judgeActs m.herd (m.addr / 65536) m.addr true) v = after (touch (m.addr / 65536)) v := by
      rw [judgeActs, after_look, hrange.judge, hj, after_seq_cons, after_entryRead_clean (by rw [hrange.entryClean, hentry]), after_seq_cons, after_seq_nil]
    have hu : devRead (after (touch (m.addr / 65536)) v) a 256 = some bs := by
      rw [(sameTable_within htouch v).devRead, hvs.devRead, hread]
    rw [actScaleMerge, after_look, hfind]
    dsimp only
    rw [after_seq_cons, ← hv, after_seq_cons, hju, after_seq_cons, after_seq_nil, hj]
    dsimp only
    rw [← ha, mergeAt, after_look, hu]
    dsimp only
    rw [hdead, if_neg Bool.false_ne_true, mergeEntry]

include hs hf hal hclean hbuf

theorem does_scaleMerge : Does .scaleMerge s [.ctl, .mem, .chk, .touched, .merges, .evalDue] fun t =>
    t.merges = s.merges.erase m ∧ devRead t a 256 = some (entMerge bs m.figs) ∧
    (∀ k, (∀ j < 4, k / 64 ≠ heldAt s (a / 64 + j)) → memByte t k = memByte s k) ∧
    t.evalDue = if entFld (entMerge bs m.figs) 0x10 10 0 = entFld bs 0x0C 10 0 then s.evalDue ++ [(a, m.herd)] else s.evalDue := by
  have ha64 : a % 64 = 0 := by omega
  have hrun : CleanRun s (a / 64) 4 := cleanRun_of_frame hclean hbuf (by omega)
  have hlen : bs.length = 256 := length_devRead hrun ha64 (by decide) hread
  obtain ⟨u, hsame, honly, hmerges, hbody⟩ := after_actScaleMerge hfind hj hentry ha hread hdead
  have hw := runWritten_after_read (hrun.congr hsame) ha64 (by decide) (entMerge_fields hlen m.figs).1 .mesh m.herd
  rw [mergeEntry, after_seq_cons, after_seq_cons, after_seq_cons, after_seq_nil] at hbody
  generalize after (devWrite a (entMerge bs m.figs) m.herd) (after (devReadActs a (64 * 4) .mesh (some m.herd)) u) = w at hw hbody
  have hdue : Within [.evalDue] (act (decide (entFld (entMerge bs m.figs) 0x10 10 0 = entFld bs 0x0C 10 0))
    (look fun s => one (.evalDue (s.evalDue ++ [(a, m.herd)])))) := within_act (within_look fun _ => within_one rfl)
  have huw : w.evalDue = s.evalDue := Eq.trans (hw.only .evalDue rfl) (honly .evalDue rfl)
  refine does_of_run hs.1 (a := actScaleMerge) rfl ?_ ?_ <;> rw [hbody]
  · exact (honly.wider rfl).trans ((hw.only.wider rfl).trans ((hdue.onlyIn w).wider rfl))
  · refine ⟨?_, ?_, fun k hk => ?_, ?_⟩
    · rw [hdue.merges, ← hmerges]
      exact hw.only .merges rfl
    · rw [(sameTable_within hdue w).devRead]
      exact hw.devRead ha64 (by decide)
    · rw [memByte, hdue.memory, ← memByte, hw.other k fun j hj => by rw [hsame.hold.heldAt]; exact hk j hj, memByte, hsame.mem, ← memByte]
    · rw [after_act, ← huw]
      split
      case isTrue hc => rw [if_pos (of_decide_eq_true hc)]; rfl
      case isFalse hc => rw [if_neg (by simpa using hc)]

end

/-! ## SCALE_EVALUATE (R232, R343) -/

/-- What an evaluation does to the flag of its entry. -/
def moveFlag (n h f : Nat) (pod : Bool) : FlagMove → Act
  | .keep => nop
  | .set => seq [flagAll (.ue n) h f 0, act pod (forwardFlag h f true)]
  | .clear => flagAll (.ue n) h f 1

/-- The packets of a flag's move. -/
def flagMoved (s : State) (n h f : Nat) : FlagMove → List Packet
  | .keep => []
  | .set => flagPackets s (.ue n) h f 0
  | .clear => flagPackets s (.ue n) h f 1

theorem after_moveFlag {s : State} (hpod : podEn s = false) (n h f : Nat) (pod : Bool) (move : FlagMove) :
    OnlyIn [.packets] s (after (moveFlag n h f pod move) s) ∧
    (after (moveFlag n h f pod move) s).packets = s.packets ++ flagMoved s n h f move := by
  have hall (kind : Fin 3) : after (flagAll (.ue n) h f kind) s = after (one (.packets (s.packets ++ flagPackets s (.ue n) h f kind))) s := by
    rw [flagAll, after_look]
  have hone (ps : List Packet) : Within [.packets] (one (.packets ps)) := within_one rfl
  cases move with
  | keep => exact ⟨onlyIn_refl _ s, (List.append_nil _).symm⟩
  | clear =>
    rw [moveFlag, hall]
    exact ⟨(hone _).onlyIn s, rfl⟩
  | set =>
    have hoff (u : State) (hu : podEn u = false) : after (act pod (forwardFlag h f true)) u = u := by
      rw [after_act, forwardFlag, after_look, hu]
      split <;> rfl
    rw [moveFlag, after_seq_cons, after_seq_cons, after_seq_nil, hall, hoff]
    · exact ⟨(hone _).onlyIn s, rfl⟩
    · rw [podEn, podCfg, ((hone _).keepsReg _).rd, ← podCfg, ← podEn, hpod]

section
variable {s : State} (hs : Ready s) (n : PortNo) {e : Nat × Nat} {bs : List Byte}
  (hfind : s.evalDue.find? (fun e => decide (e.1 / 65536 % 24 = n.val)) = some e) (hf : e.1 / 65536 < rsvBase s) (hal : e.1 % 256 = 0)
  (hclean : ∀ j < 4, CleanBlk s (e.1 / 64 + j)) (hbuf : s.mergeBuf = []) (hread : devRead s e.1 256 = some bs) (hpod : podEn s = false)
include hfind hread

theorem after_actScaleEvaluate : after (actScaleEvaluate n.val) s =
    after (moveFlag n.val e.2 (entFld bs 4 27 20) (decide (entFld bs 4 29 29 = 1)) (entEvaluate bs).2)
      (after (devWrite e.1 (entEvaluate bs).1 e.2) (after (devReadActs e.1 256 .engine (some e.2)) (after (one (.evalDue (s.evalDue.erase e))) s))) := by
  have hhead : (evalsDue s n.val).head? = some e := by rw [evalsDue, List.head?_filter, hfind]
  rw [actScaleEvaluate, after_look, hhead]
  dsimp only
  rw [after_seq_cons, after_seq_cons, after_seq_nil, hread]
  dsimp only
  rw [after_seq_cons, after_seq_cons, after_seq_cons, after_seq_nil]
  cases (entEvaluate bs).2 <;> rfl

include hs hf hal hclean hbuf hpod

theorem does_scaleEvaluate : Does (.scaleEvaluate n) s [.ctl, .mem, .chk, .evalDue, .packets] fun t =>
    t.evalDue = s.evalDue.erase e ∧ devRead t e.1 256 = some (entEvaluate bs).1 ∧
    t.packets = s.packets ++ flagMoved s n.val e.2 (entFld bs 4 27 20) (entEvaluate bs).2 ∧
    ∀ k, (∀ j < 4, k / 64 ≠ heldAt s (e.1 / 64 + j)) → memByte t k = memByte s k := by
  have ha64 : e.1 % 64 = 0 := by omega
  have hrun : CleanRun s (e.1 / 64) 4 := cleanRun_of_frame hclean hbuf (by omega)
  have hlen : bs.length = 256 := length_devRead hrun ha64 (by decide) hread
  have hbody := after_actScaleEvaluate n hfind hread
  have hone : Within [.evalDue] (one (.evalDue (s.evalDue.erase e))) := within_one rfl
  have hsame := sameTable_within hone s
  have honly := hone.onlyIn s
  have hevals : (after (one (.evalDue (s.evalDue.erase e))) s).evalDue = s.evalDue.erase e := rfl
  have hbeside (x : Nat) : rd (after (one (.evalDue (s.evalDue.erase e))) s) x = rd s x := (hone.keepsReg x).rd s
  generalize after (one (.evalDue (s.evalDue.erase e))) s = u at hbody hsame honly hevals hbeside
  have hw := runWritten_after_read (hrun.congr hsame) ha64 (by decide) (entEvaluate_fields hlen).1 .engine e.2
  generalize after (devWrite e.1 (entEvaluate bs).1 e.2) (after (devReadActs e.1 (64 * 4) .engine (some e.2)) u) = w at hw hbody
  have hpodw : podEn w = false := by
    rw [podEn, podCfg, hw.beside _ (beside_of (by decide)), hbeside, ← podCfg, ← podEn, hpod]
  obtain ⟨hmove, hpackets⟩ := after_moveFlag hpodw n.val e.2 (entFld bs 4 27 20) (decide (entFld bs 4 29 29 = 1)) (entEvaluate bs).2
  rw [← hbody] at hmove hpackets
  have hherd : w.herd = s.herd := Eq.trans (hw.only .herd rfl) (honly .herd rfl)
  have hpk : w.packets = s.packets := Eq.trans (hw.only .packets rfl) (honly .packets rfl)
  have hflags (k : Fin 3) : flagPackets w (.ue n.val) e.2 (entFld bs 4 27 20) k = flagPackets s (.ue n.val) e.2 (entFld bs 4 27 20) k := by
    rw [flagPackets, flagPackets, herdSites, herdSites, herdOf, herdOf, hherd]
  refine does_of_run hs.1 (a := actScaleEvaluate n.val) rfl ?_ ⟨?_, ?_, ?_, fun k hk => ?_⟩
  · exact (honly.wider rfl).trans ((hw.only.wider rfl).trans (hmove.wider rfl))
  · rw [← hevals]
    exact Eq.trans (hmove .evalDue rfl) (hw.only .evalDue rfl)
  · have hlast : SameTable w (after (actScaleEvaluate n.val) s) :=
      ⟨fun _ _ x _ => by rw [rd, show (after (actScaleEvaluate n.val) s).ctl = w.ctl from hmove .ctl rfl, ← rd], hmove .straps rfl, hmove .mem rfl,
        hmove .chk rfl, hmove .mergeBuf rfl⟩
    rw [hlast.devRead]
    exact hw.devRead ha64 (by decide)
  · rw [hpackets, hpk]
    cases (entEvaluate bs).2 with
    | keep => rfl
    | set => rw [flagMoved, flagMoved, hflags]
    | clear => rw [flagMoved, flagMoved, hflags]
  · rw [memByte, show (after (actScaleEvaluate n.val) s).mem = w.mem from hmove .mem rfl, ← memByte,
      hw.other k fun j hj => by rw [hsame.hold.heldAt]; exact hk j hj, memByte, hsame.mem, ← memByte]

end

/-- Settles O29: a merge and an evaluation of an entry's bytes field by field; in device memory each reads and writes the entry's four blocks,
which hold no error. -/
theorem scaleTable : Obligations.ScaleTable := by
  refine ⟨fun bs h => ⟨fun f => entMerge_fields h f, entEvaluate_fields h⟩, fun s hs c howed => does_scaleMergeSend hs c howed,
    fun s hs m f a bs hfind hj hentry hf hal ha hclean hbuf hread hdead => does_scaleMerge hs hfind hj hentry hf hal ha hclean hbuf hread hdead,
    fun s hs n e bs hfind hf hal hclean hbuf hread hpod => ?_⟩
  obtain ⟨t, hstep, honly, hdue, hentry, hpackets, hother⟩ := does_scaleEvaluate hs n hfind hf hal hclean hbuf hread hpod
  refine ⟨t, hstep, honly, hdue, hentry, hpackets.trans ?_, hother⟩
  cases (entEvaluate bs).2 <;> rfl

end Sys2Proof.Machine
end

section
/-! Engine rings are polled, enabled and read; how a descriptor is judged (R307, R308, R311, R317, R324, R344); O30. -/

namespace Sys2Proof.Machine

-- One declaration after the other: elaborated side by side they take more memory than the check has.
set_option Elab.async false

/-! ## UE_RING_POLL (R308) -/

section
variable {s : State} (hs : Ready s) (n : PortNo) (h : HerdNo) (hidle : s.desc.any (fun d => decide (d.eng = n.val) && decide (d.herd = h.val)) = false)
  (hnote : notePending s n.val h.val = false) (hruns : ringRuns s n.val h.val = true)
include hidle hnote

theorem after_actUeRingPoll : after (actUeRingPoll n.val h.val) s = after (pollRing n.val h.val) s := by
  rw [actUeRingPoll, after_look, hidle, hnote, after_act, if_pos (by decide)]

include hs hruns

theorem does_ringPoll_served {bs : List Byte} (hread : ringRead s n.val h.val = .ok bs) :
    Does (.ueRingPoll n h) s [.ctl, .mem, .chk, .mergeBuf, .touched, .ringFail, .dumpRun, .freeCtr] fun t =>
      mGet t.ringFail (64 * n.val + h.val) = none ∧ t.desc = s.desc := by
  have hreads : Within [.ctl, .mem, .chk, .touched, .mergeBuf, .dumpRun, .freeCtr] (engActs h.val (ringEntry s n.val h.val) 64 none false) := within_engActs ..
  have hclear : Within [.ringFail] (act (mGet s.ringFail (64 * n.val + h.val)).isSome (one (.ringFail (64 * n.val + h.val) none))) :=
    within_act (within_one rfl)
  have hbody : after (actUeRingPoll n.val h.val) s = after (act (mGet s.ringFail (64 * n.val + h.val)).isSome (one (.ringFail (64 * n.val + h.val) none)))
      (after (engActs h.val (ringEntry s n.val h.val) 64 none false) s) := by
    rw [after_actUeRingPoll n h hidle hnote, pollRing, after_look, hruns, hread]
    dsimp only
    rw [Bool.not_true, if_neg Bool.false_ne_true, after_seq_cons, after_seq_cons, after_seq_nil]
  refine does_of_run hs.1 (a := actUeRingPoll n.val h.val) rfl ?_ ?_ <;> rw [hbody]
  · exact ((hreads.onlyIn s).wider rfl).trans ((hclear.onlyIn _).wider rfl)
  · refine ⟨?_, (hclear.desc _).trans (hreads.desc s)⟩
    have hf := hreads.ringFail s
    generalize after (engActs h.val (ringEntry s n.val h.val) 64 none false) s = u at hf
    rw [after_act]
    split
    · exact mGet_mPut_same ..
    case isFalse hno => rw [hf, Option.not_isSome_iff_eq_none.mp hno]

theorem does_ringPoll_refused {st : Nat} (hread : ringRead s n.val h.val = .bad st) (hnew : mGet s.ringFail (64 * n.val + h.val) = none) :
    Does (.ueRingPoll n h) s [.ctl, .mem, .chk, .mergeBuf, .touched, .ringFail, .dumpRun, .freeCtr] fun t =>
      mGet t.ringFail (64 * n.val + h.val) = some st ∧
      bit (rd t (uePage n.val + 0x20)) (refusalClass s h.val (ringEntry s n.val h.val) st).code = true := by
  have hreads : Within [.ctl, .mem, .chk, .touched, .mergeBuf, .dumpRun, .freeCtr] (engActs h.val (ringEntry s n.val h.val) 64 none false) := within_engActs ..
  obtain ⟨c, hc⟩ : ∃ c : Capture, c = { cls := refusalClass s h.val (ringEntry s n.val h.val) st, addr := some (ringEntry s n.val h.val), herd := some h.val } :=
    ⟨_, rfl⟩
  have hbody : after (actUeRingPoll n.val h.val) s = after (raise (uePage n.val) c) (after (one (.ringFail (64 * n.val + h.val) (some st)))
      (after (engActs h.val (ringEntry s n.val h.val) 64 none false) s)) := by
    rw [after_actUeRingPoll n h hidle hnote, pollRing, after_look, hruns, hread]
    dsimp only
    rw [Bool.not_true, if_neg Bool.false_ne_true, hnew, ringPage, if_pos n.isLt, ← hc, after_seq_cons, after_seq_cons, after_seq_nil, after_act,
      Option.isNone_none, if_pos rfl, after_seq_cons, after_seq_cons, after_seq_nil]
  have hraise : Within [.ctl, .dumpRun, .freeCtr] (raise (uePage n.val) c) := within_raise ..
  have hfail : Within [.ringFail] (one (.ringFail (64 * n.val + h.val) (some st))) := within_one rfl
  have hcls : c.cls ≠ .uncorrFatal := by
    rw [hc]
    dsimp only
    rw [refusalClass]
    repeat' split
    all_goals decide
  refine does_of_run hs.1 (a := actUeRingPoll n.val h.val) rfl ?_ ?_ <;> rw [hbody]
  · exact ((hreads.onlyIn s).wider rfl).trans (((hfail.onlyIn _).wider rfl).trans ((hraise.onlyIn _).wider rfl))
  · refine ⟨?_, ?_⟩
    · rw [hraise.ringFail]
      exact mGet_mPut_same ..
    · have hb := bit_after_raise (c := c) (after (one (.ringFail (64 * n.val + h.val) (some st)))
        (after (engActs h.val (ringEntry s n.val h.val) 64 none false) s)) (p := uePage n.val) fun he => absurd he hcls
      rwa [hc] at hb ⊢

end

/-! ## UE_DESCRIPTOR_TAKE (R307, R311) -/

section
variable {s : State} (hs : Ready s) (n : PortNo) (h : HerdNo) {ws : List Word} {e : UeDesc} (hmatch : ringMatch s n.val h.val = some ws)
  (hjudge : (judgeDesc s (newDesc s n.val h.val ws)).2 = some e) (htake : takeable s n.val h.val = true) (hfence : fenced s (uePage n.val) = false)
  (hroom : activeCount s n.val < 4) (hturn : turnOfHerd s n.val h.val (takeable s n.val) = true)
include hmatch hjudge htake hfence hroom hturn

theorem after_actUeDescriptorTake : after (actUeDescriptorTake n.val h.val) s = after (one (.desc (s.desc ++ [e])))
    (after (one (.lastTaken n.val (some h.val))) (after (wr (ringAddr n.val h.val + 8) (BitVec.ofNat 32 (ringHead s n.val h.val + 1)))
      (after (act (mGet s.ringFail (64 * n.val + h.val)).isSome (one (.ringFail (64 * n.val + h.val) none)))
        (after (judgeReads (newDesc s n.val h.val ws)) (after (engActs h.val (ringEntry s n.val h.val) 64 none false) s))))) := by
  have hhead : headVerdict s n.val h.val = some e := by rw [headVerdict, hmatch, Option.bind_some, hjudge]
  rw [actUeDescriptorTake, after_look, hmatch, hhead]
  dsimp only
  rw [htake, hfence, hturn, decide_eq_true hroom, after_act, if_pos (by decide)]
  iterate 6 rw [after_seq_cons]
  rw [after_seq_nil]

include hs

theorem does_descriptorTake :
    Does (.ueDescriptorTake n h) s [.ctl, .mem, .chk, .mergeBuf, .touched, .ringFail, .lastTaken, .desc, .dumpRun, .freeCtr] fun t =>
      ringHead t n.val h.val = (ringHead s n.val h.val + 1) % 2 ^ 32 ∧ mGet t.lastTaken n.val = some h.val ∧
      mGet t.ringFail (64 * n.val + h.val) = none ∧ t.desc = s.desc ++ [e] := by
  have hreads : Within [.ctl, .mem, .chk, .touched, .mergeBuf, .dumpRun, .freeCtr] (engActs h.val (ringEntry s n.val h.val) 64 none false) := within_engActs ..
  have hjudged : Within [.ctl, .mem, .chk, .touched, .mergeBuf, .dumpRun, .freeCtr] (judgeReads (newDesc s n.val h.val ws)) := within_judgeReads ..
  have hclear : Within [.ringFail] (act (mGet s.ringFail (64 * n.val + h.val)).isSome (one (.ringFail (64 * n.val + h.val) none))) :=
    within_act (within_one rfl)
  have hhead : Within [.ctl] (wr (ringAddr n.val h.val + 8) (BitVec.ofNat 32 (ringHead s n.val h.val + 1))) := within_wr ..
  have hlast : Within [.lastTaken] (one (.lastTaken n.val (some h.val))) := within_one rfl
  have hdesc : Within [.desc] (one (.desc (s.desc ++ [e]))) := within_one rfl
  have hbody := after_actUeDescriptorTake n h hmatch hjudge htake hfence hroom hturn
  obtain ⟨u, hu⟩ : ∃ u, u = after (judgeReads (newDesc s n.val h.val ws)) (after (engActs h.val (ringEntry s n.val h.val) 64 none false) s) := ⟨_, rfl⟩
  have honly : OnlyIn [.ctl, .mem, .chk, .touched, .mergeBuf, .dumpRun, .freeCtr] s u := hu ▸ (hreads.onlyIn s).trans (hjudged.onlyIn _)
  rw [← hu] at hbody
  have hfail : mGet (after (act (mGet s.ringFail (64 * n.val + h.val)).isSome (one (.ringFail (64 * n.val + h.val) none))) u).ringFail
      (64 * n.val + h.val) = none := by
    have hf : u.ringFail = s.ringFail := honly .ringFail rfl
    rw [after_act]
    split
    · exact mGet_mPut_same ..
    case isFalse hno => rw [hf, Option.not_isSome_iff_eq_none.mp hno]
  refine does_of_run hs.1 (a := actUeDescriptorTake n.val h.val) rfl ?_ ?_ <;> rw [hbody]
  · exact (honly.wider rfl).trans (((hclear.onlyIn _).wider rfl).trans (((hhead.onlyIn _).wider rfl).trans (((hlast.onlyIn _).wider rfl).trans
      ((hdesc.onlyIn _).wider rfl))))
  · refine ⟨?_, ?_, ?_, rfl⟩
    · rw [ringHead, (hdesc.keepsReg _).rd, (hlast.keepsReg _).rd, after_wr, rd_ctl_same, BitVec.toNat_ofNat]
    · rw [hdesc.lastTaken]
      exact mGet_mPut_same ..
    · rw [hdesc.ringFail, hlast.ringFail, hhead.ringFail, hfail]

end

/-! ## UE_RING_ENABLE (R307) -/

theorem regDef_ueRing (n h : Nat) (hh : h < 64) :
    regDef (.ue n) (0x204 + 16 * h) = some ⟨0x204, 64, 16, 0x800F03FF, 0x40000000, 0, 0, 0x40000, 0⟩ := by
  rw [regDef, if_neg (by simp [Block.isWindow]), if_neg (by omega), if_neg (by omega)]
  change ueRegs.find? (fun d => d.has (0x204 + 16 * h)) = _
  interval_cases h <;> rfl

theorem regDef_bxRing (h : Nat) (hh : h < 64) :
    regDef (.bx 0) (0xA04 + 16 * h) = some ⟨0xA04, 64, 16, 0x800F03FF, 0x40000000, 0, 0, 0x40000, 0⟩ := by
  rw [regDef, if_neg (by simp [Block.isWindow]), if_neg (by omega), if_neg (by omega)]
  change (bxRegs ++ podRegs).find? (fun d => d.has (0xA04 + 16 * h)) = _
  interval_cases h <;> rfl

/-- The control word of an engine's ring, and of the collective engine's. -/
theorem regDef_ringCtl (s : State) (n : Nat) {h : Nat} (hh : h < 64) : ∃ d, d.rw = 0x800F03FF ∧ d.w1c = 0x40000000 ∧
    regDef (blockOf s (ringAddr n h / 4096)) ((ringAddr n h + 4) % 4096) = some d := by
  by_cases hue : n < 24
  · have hpage : ringAddr n h / 4096 = 0x120 + n := by rw [ringAddr, if_pos hue]; unfold uePage; omega
    have hoff : (ringAddr n h + 4) % 4096 = 0x204 + 16 * h := by rw [ringAddr, if_pos hue]; unfold uePage; omega
    have hblock : pageBlock (0x120 + n) = .ue n := (by decide : ∀ n : Fin 24, pageBlock (0x120 + n.val) = .ue n.val) ⟨n, hue⟩
    refine ⟨⟨0x204, 64, 16, 0x800F03FF, 0x40000000, 0, 0, 0x40000, 0⟩, rfl, rfl, ?_⟩
    rw [hpage, hoff, show blockOf s (0x120 + n) = .ue n by rw [blockOf, hblock]; rfl]
    exact regDef_ueRing n h hh
  · have hpage : ringAddr n h / 4096 = 0x160 := by rw [ringAddr, if_neg hue]; unfold bxPage; omega
    have hoff : (ringAddr n h + 4) % 4096 = 0xA04 + 16 * h := by rw [ringAddr, if_neg hue]; unfold bxPage; omega
    refine ⟨⟨0xA04, 64, 16, 0x800F03FF, 0x40000000, 0, 0, 0x40000, 0⟩, rfl, rfl, ?_⟩
    rw [hpage, hoff, show blockOf s 0x160 = .bx 0 by rw [blockOf, show pageBlock 0x160 = .bx 0 by decide]; rfl]
    exact regDef_bxRing h hh

theorem does_ueRingEnable {s : State} (hs : Ready s) (bx : Bool) (n : PortNo) (h : HerdNo) (v : Word)
    (ht : Takes s (ringAddr (if bx then 24 else n.val) h.val / 4096)) : Does (.ueRingEnable .ringCtl bx n h v) s [.ctl] fun t =>
      bit (rd t (ringAddr (if bx then 24 else n.val) h.val + 4)) 31 = true ∧ ringHead t (if bx then 24 else n.val) h.val = 0 ∧
      RegsAt [ringAddr (if bx then 24 else n.val) h.val + 4, ringAddr (if bx then 24 else n.val) h.val + 8] s t := by
  have hexec : exec (.ueRingEnable .ringCtl bx n h v) s = run (guarded .ringCtl (ringAddr (if bx then 24 else n.val) h.val + 4)
      (ringEnableWrite (if bx then 24 else n.val) h.val (Machine.setBit v 31 true))) s := rfl
  generalize (if bx then 24 else n.val) = k at ht hexec ⊢
  obtain ⟨d, hrw, hw1c, hd⟩ := regDef_ringCtl s k h.isLt
  have hmod : ringAddr k h.val % 16 = 0 := by unfold ringAddr uePage bxPage; split <;> omega
  have hpage : (ringAddr k h.val + 4) / 4096 = ringAddr k h.val / 4096 := by omega
  have hv : bit (Machine.setBit v 31 true) 31 = true := bit_setBit_same _ (by decide) _
  have he : after (ringEnableWrite k h.val (Machine.setBit v 31 true)) s = after (wr (ringAddr k h.val + 8) 0)
      (after (maskWrite (blockOf s (ringAddr k h.val / 4096)) (ringAddr k h.val + 4) (Machine.setBit v 31 true)) s) := by
    rw [ringEnableWrite, after_look, after_seq_cons, after_seq_cons, after_seq_nil, hv, after_act, if_pos rfl]
  refine does_guarded_ring hs ht hpage hexec ?_ ?_
  · rw [he]
    exact ((within_maskWrite ..).onlyIn s).trans ((within_wr ..).onlyIn _)
  · rw [he]
    refine ⟨?_, ?_, fun x hx => ?_⟩
    · rw [(keepsReg_wr (by omega) _).rd, after_maskWrite hd, rd_ctl_same, hrw, hw1c, bit_or, bit_and, bit_or, bit_and, bit_not, bit_and, bit_and, hv,
        bit_ofNat]
      simp [bit_ofNat, Nat.testBit]
    · rw [ringHead, after_wr, rd_ctl_same]
      rfl
    · simp only [List.mem_cons, List.not_mem_nil, or_false, not_or] at hx
      rw [(keepsReg_wr hx.2 _).rd, (keepsReg_maskWrite hx.1 ..).rd]

/-! ## How a descriptor is judged (R324, R344) -/

theorem status_of_engPart {s : State} {h : Nat} {port : Option Nat} {p : Nat × Nat × Nat × Nat} {st : Nat} (hb : engPart s h port p = .bad st) : 0x80 ≤ st := by
  rw [engPart] at hb
  split at hb
  · cases hb
  · split at hb
    · cases hb; decide
    · split at hb
      · cases hb
      · cases hb; decide
  · cases hb; decide

/-- A read that is refused gives a fault status. -/
theorem status_of_engRead {s : State} {h a n : Nat} {port : Option Nat} {st : Nat} (hb : engRead s h a n port = .bad st) : 0x80 ≤ st := by
  rw [engRead] at hb
  have hfold (ps : List (Nat × Nat × Nat × Nat)) (acc : Eng) (hacc : ∀ x, acc = .bad x → 0x80 ≤ x) (hb : ps.foldl (fun acc p => match acc with
      | .ok bs => match engPart s h port p with
        | .ok cs => .ok (bs ++ cs)
        | r => r
      | r => r) acc = .bad st) : 0x80 ≤ st := by
    induction ps generalizing acc with
    | nil => exact hacc st hb
    | cons p ps ih =>
      refine ih _ (fun x hx => ?_) hb
      cases acc with
      | wait => cases hx
      | bad y => exact hacc x hx
      | ok bs =>
        cases hp : engPart s h port p with
        | ok cs => simp only [hp] at hx; cases hx
        | wait => simp only [hp] at hx; cases hx
        | bad y =>
          simp only [hp] at hx
          cases hx
          exact status_of_engPart hp
  exact hfold _ _ (fun x hx => by cases hx) hb

theorem status_of_curveRead {s : State} {h : Nat} {c : Word} {st : Nat} (hb : curveRead s h c = .bad st) : 0x80 ≤ st := by
  rw [curveRead] at hb
  split at hb
  · exact status_of_engRead hb
  · exact status_of_engRead hb

/-- Row 1 of R324. -/
theorem fieldsOk_eq (d : UeDesc) : fieldsOk d = true ↔ ¬ (4 < dMode d ∨ fld (dW d 1) 4 3 = 3 ∨ fld (dW d 1) 31 23 ≠ 0 ∨ dW d 3 ≠ 0 ∨
    (∃ k < 8, dW d (8 + k) ≠ 0) ∨ dRec d % (if dMode d < 3 then 64 else 32) ≠ 0 ∨ dCpl d % 16 ≠ 0) := by
  simp only [fieldsOk, Bool.and_eq_true, Bool.not_eq_true', Bool.or_eq_false_iff, decide_eq_false_iff_not, decide_eq_true_eq, List.any_eq_false,
    List.mem_range, not_or, not_exists, not_and, ne_eq, not_not]
  tauto

/-- The reads of row 5 end the descriptor, or the later rows judge it with the LR of its curve (R322, R324). -/
theorem judgeShard_cases {s : State} {d e : UeDesc} (he : (judgeShard s d).2 = some e) (hprog : progWaits s d.eng (fld (gW d 0) 7 0) = false) :
    (e.phase = 4 ∧ 0x80 ≤ e.status) ∨ ∃ sh lr, (judgeVote s { d with shard := sh, lr := lr }).2 = some e ∧
      (bit (gW d 0) 28 = false → lr = one32) ∧
      ∀ bs ps, bit (gW d 0) 28 = true → curveRead s d.herd (gW d 1) = .ok bs → curvePoints bs = some ps → lr = curveLr ps (dStep d).toNat := by
  have ends {x : UeDesc} {st : Nat} (h : 0x80 ≤ st) : (ended x st).phase = 4 ∧ 0x80 ≤ (ended x st).status := ⟨rfl, h⟩
  rw [judgeShard, hprog, if_neg Bool.false_ne_true] at he
  cases hr : engRead s d.herd (dRec d) 128 none with
  | wait =>
    rw [hr] at he
    cases he
  | bad st =>
    rw [hr] at he
    cases he
    exact .inl (ends (status_of_engRead hr))
  | ok bs =>
    rw [hr] at he
    dsimp only at he
    split at he
    · cases he
    · cases he
    case h_3 =>
      rename_i st hm _
      cases he
      split at hm
      · exact .inl (ends (status_of_engRead hm))
      · cases hm
    case h_4 =>
      rename_i st hc _ _
      cases he
      split at hc
      · exact .inl (ends (status_of_curveRead hc))
      · cases hc
    case h_5 =>
      rename_i c _ hc
      split at he
      · cases he
        exact .inl (ends (by decide))
      · refine .inr ⟨_, _, he, fun h28 => if_neg ?_, fun cs ps h28 hcs hps => (if_pos h28).trans ?_⟩
        · rw [show gW { d with shard := leWords 32 bs } 0 = gW d 0 from rfl, h28]
          exact Bool.false_ne_true
        · have hread : curveRead s d.herd (gW d 1) = .ok c := (if_pos h28).symm.trans hc
          rw [hcs, Eng.ok.injEq] at hread
          rw [← hread, hps]
          rfl

/-- What judging a descriptor's shard gives when its group is frozen: no activation (R324). -/
theorem judgeShard_frozen {s : State} {d e : UeDesc} (he : (judgeShard s d).2 = some e) (hprog : progWaits s d.eng (fld (gW d 0) 7 0) = false)
    (hfrozen : bit (gW d 0) 30 = true) (hst : e.status < 0x80) : e.phase = 4 ∧ e.status = 0x02 := by
  rcases judgeShard_cases he hprog with ⟨-, hbad⟩ | ⟨sh, lr, hv, -, -⟩
  · omega
  · have hf : bit (gW { d with shard := sh, lr := lr } 0) 30 = true := hfrozen
    rw [judgeVote] at hv
    dsimp only at hv
    rw [if_pos hf] at hv
    cases hv
    exact ⟨rfl, rfl⟩

theorem judged_rows (s : State) (d : UeDesc) (hmode : dMode d < 3) (hok : fieldsOk d = true) :
    (groupInRange s d.eng d.herd (dGroup d) = false → (judgeDesc s d).2 = some (ended d 0x80)) ∧
    (groupInRange s d.eng d.herd (dGroup d) = true →
      (devRead s (groupAddr s d.eng (dGroup d)) 32 = none → (judgeDesc s d).2 = some (ended d 0x83)) ∧
      ∀ bs, devRead s (groupAddr s d.eng (dGroup d)) 32 = some bs →
        (bit ((leWords 8 bs).getD 0 0) 31 = false ∨ fld ((leWords 8 bs).getD 0 0) 27 22 ≠ d.herd →
          (judgeDesc s d).2 = some (ended { d with entry := leWords 8 bs } 0x80)) ∧
        ∀ e, (judgeDesc s d).2 = some e → bit ((leWords 8 bs).getD 0 0) 31 = true → fld ((leWords 8 bs).getD 0 0) 27 22 = d.herd →
          progWaits s d.eng (fld ((leWords 8 bs).getD 0 0) 7 0) = false →
          bit ((leWords 8 bs).getD 0 0) 30 = true → e.status < 0x80 → e.phase = 4 ∧ e.status = 0x02) := by
  have hrow1 : (!fieldsOk d) = false := by rw [hok]; rfl
  refine ⟨fun hr => ?_, fun hr => ⟨fun hn => ?_, fun bs hb => ⟨fun hown => ?_, fun e he hv hh hp hf hst => ?_⟩⟩⟩
  · rw [judgeDesc, hrow1, hr, if_neg Bool.false_ne_true, if_pos (by decide)]
  · rw [judgeDesc, hrow1, hr, if_neg Bool.false_ne_true, if_neg (by decide), if_neg (by omega), hn]
  · rw [judgeDesc, hrow1, hr, if_neg Bool.false_ne_true, if_neg (by decide), if_neg (by omega), hb]
    dsimp only
    rw [if_pos]
    rcases hown with hv | hh
    · exact Bool.or_eq_true _ _ ▸ .inl (by rw [gW, hv]; rfl)
    · exact Bool.or_eq_true _ _ ▸ .inr (decide_eq_true hh)
  · rw [judgeDesc, hrow1, hr, if_neg Bool.false_ne_true, if_neg (by decide), if_neg (by omega), hb] at he
    dsimp only at he
    rw [if_neg (by simp only [gW, hv, hh]; simp)] at he
    exact judgeShard_frozen he hp hf hst

/-- Settles O30: what a poll, a take and an enable leave, act by act; a descriptor's judgement by the rows of R324 in their order. -/
theorem ringsServeAndJudge : Obligations.RingsServeAndJudge := by
  refine ⟨⟨fun s hs n h bs hidle hnote hruns hread => does_ringPoll_served hs n h hidle hnote hruns hread,
    fun s hs n h st hidle hnote hruns hread hnew => does_ringPoll_refused hs n h hidle hnote hruns hread hnew,
    fun s hs n h ws e hm hj ht hf hr htu => does_descriptorTake hs n h hm hj ht hf hr htu,
    fun s hs bx n h v ht => does_ueRingEnable hs bx n h v ht⟩, fun s d => ⟨fun hbad => ?_, fun hm h1 h2 h3 h4 h5 h6 => ?_⟩⟩
  · have hrow1 : (!fieldsOk d) = true := by
      rw [Bool.not_eq_true', ← Bool.not_eq_true, fieldsOk_eq, not_not]
      exact hbad
    rw [judgeDesc, if_pos hrow1]
  · refine judged_rows s d hm ((fieldsOk_eq d).mpr ?_)
    rintro (h | h | h | h | ⟨k, hk, h⟩ | h | h)
    · omega
    · exact h1 h
    · exact h h2
    · exact h h3
    · exact h (h4 k hk)
    · rw [if_pos hm] at h
      exact h h5
    · exact h h6

end Sys2Proof.Machine
end

section
/-! Accesses of an engine that lie in one block of a device without errors (R313, R356, R399); for O31 and O32. -/

namespace Sys2Proof.Machine

-- One declaration after the other: elaborated side by side they take more memory than the check has.
set_option Elab.async false

/-! ## A run within one block -/

theorem devRead_block {s : State} {a n : Nat} (h0 : 0 < n) (h : a % 64 + n ≤ 64) :
    devRead s a n = (readBlk s (a / 64)).map fun d => (d.drop (a % 64)).take n := by
  rw [devRead, blockParts_one h0 h, List.foldl_cons, List.foldl_nil, Option.bind_some]
  rfl

theorem length_readBlk_plain {s : State} (h : Plain s) {b : Nat} {d : List Byte} (hd : readBlk s b = some d) : d.length = 64 := by
  rw [h.readBlk, Option.some.injEq] at hd
  rw [← hd, length_rawData]

theorem length_devRead_block {s : State} (hp : Plain s) {a n : Nat} {bs : List Byte} (h0 : 0 < n) (h : a % 64 + n ≤ 64) (hb : devRead s a n = some bs) :
    bs.length = n := by
  rw [devRead_block h0 h, Option.map_eq_some_iff] at hb
  obtain ⟨d, hd, rfl⟩ := hb
  have := length_readBlk_plain hp hd
  rw [List.length_take, List.length_drop]
  omega

/-- A read within one block of an error-free device counts at its port, and that alone. -/
theorem sameTable_devReadActs {s : State} (hp : Plain s) {a n : Nat} (h0 : 0 < n) (h : a % 64 + n ≤ 64) (src : Src) (herd : Option Nat) :
    SameTable s (after (devReadActs a n src herd) s) ∧ OnlyIn [.ctl] s (after (devReadActs a n src herd) s) ∧
      ∀ x, Beside x → rd (after (devReadActs a n src herd) s) x = rd s x := by
  have hw : Within [.ctl] (count (mpPage (blkPort (a / 64))) 0 1) := within_count ..
  have hpage : mpPage (blkPort (a / 64)) ∈ (List.range 24).map mpPage := List.mem_map_of_mem (List.mem_range.mpr (blkPort_lt _))
  rw [devReadActs, blockParts_one h0 h, after_each_cons, after_each_nil, after_portRead_plain hp]
  exact ⟨⟨fun _ _ x hx => ((portReg_above hx).count (mpPage_mod _) (by decide) 1).eq s, hw.straps s, hw.memory s, hw.chk s, hw.mergeBuf s⟩,
    hw.onlyIn s, fun x hx => (writesIn_count (mpPage_mod _) (by decide) hpage 1 x hx).eq s⟩

theorem sameSpace_of_beside {s t : State} (hsame : SameTable s t) (honly : OnlyIn [.ctl] s t) (hb : ∀ x, Beside x → rd t x = rd s x) : SameSpace s t where
  table := hsame
  sset k _ := ⟨hb _ (beside_of (.inr (by unfold ssetReg migPage; omega))), hb _ (beside_of (.inr (by unfold ssetReg migPage; omega)))⟩
  up k _ := hb _ (beside_of (.inr (by unfold hpPage; omega)))
  farMem := honly .farMem rfl
  extent := honly .extent rfl
  freeCtr := honly .freeCtr rfl

/-! ## A part of a block is written -/

theorem zipWith_some {bs ys : List Byte} (h : bs.length ≤ ys.length) : List.zipWith (fun n o => Option.getD n o) (bs.map some) ys = bs := by
  induction bs generalizing ys with
  | nil => rfl
  | cons b bs ih =>
    cases ys with
    | nil => simp at h
    | cons y ys => rw [List.map_cons, List.zipWith_cons_cons, Option.getD_some, ih (by simpa using h)]

theorem mergeBytes_part {o r : Nat} {bs old : List Byte} (h : o + bs.length ≤ old.length) :
    ((mergeBytes (List.replicate o none ++ bs.map some ++ List.replicate r none) old).drop o).take bs.length = bs := by
  rw [mergeBytes, List.drop_zipWith, List.take_zipWith, List.append_assoc, List.drop_left' (List.length_replicate ..),
    List.take_left' (List.length_map ..)]
  exact zipWith_some (by rw [List.length_take, List.length_drop]; omega)

/-- A part of a block written in an error-free device waits in the merge buffer, and reads back. -/
structure PartWritten (s t : State) (a : Nat) (bs : List Byte) : Prop where
  only : OnlyIn [.ctl, .mergeBuf] s t
  data : devRead t a bs.length = some bs
  beside : ∀ x, Beside x → rd t x = rd s x

theorem partWritten_devWrite {s : State} (hp : Plain s) {a : Nat} {bs : List Byte} (h0 : 0 < bs.length) (h : a % 64 + bs.length ≤ 64)
    (hpart : bs.length < 64) (herd : Nat) : PartWritten s (after (devWrite a bs herd) s) a bs := by
  obtain ⟨data, hdata⟩ : ∃ data, data = List.replicate (a % 64) none ++ bs.map some ++ List.replicate (64 - a % 64 - bs.length) none := ⟨_, rfl⟩
  have hsome : data.all Option.isSome = false := by
    rw [hdata, List.all_append, List.all_append, List.all_replicate, List.all_replicate]
    rcases (by omega : a % 64 ≠ 0 ∨ 64 - a % 64 - bs.length ≠ 0) with h0 | h0 <;> simp [h0]
  have hnew := after_portNarrow_new (s := s) (b := a / 64) (hp.mergeOf _) (by rw [hp.mergeBuf]; exact Nat.zero_lt_succ _) hsome herd
  rw [hp.mergeBuf, List.nil_append] at hnew
  obtain ⟨v, hv⟩ : ∃ v : State, v = { s with mergeBuf := [⟨blkPort (a / 64), blkLocal (a / 64), data, herd, []⟩] } := ⟨_, rfl⟩
  have hin : OnlyIn [.mergeBuf] s v := hv ▸ onlyIn_apply (.mergeBuf _) s
  have hbuf : v.mergeBuf = [⟨blkPort (a / 64), blkLocal (a / 64), data, herd, []⟩] := hv ▸ rfl
  have hctl : v.ctl = s.ctl := hin .ctl rfl
  rw [← hv] at hnew
  obtain ⟨t, ht⟩ : ∃ t, t = after (portNarrow (a / 64) herd data) s := ⟨_, rfl⟩
  have hwrite : after (devWrite a bs herd) s = t := by
    rw [after_devWrite_block h0 h, if_neg (by omega), ← hdata, ← ht]
  have hvt : OnlyIn [.ctl] v t := by
    rw [ht, hnew]
    exact (within_wrFld ..).onlyIn v
  have hsame : SameReading s t (a / 64) := by
    refine SameReading.trans (t := v) ⟨fun x _ => by rw [rd, rd, hctl], hin .straps rfl⟩ ?_
    rw [ht, hnew]
    exact sameReading_fill ..
  have hbeside (x : Nat) (hx : Beside x) : rd t x = rd s x := by
    have hpage : mpPage (blkPort (a / 64)) ∈ (List.range 24).map mpPage := List.mem_map_of_mem (List.mem_range.mpr (blkPort_lt _))
    have hne : x ≠ mpPage (blkPort (a / 64)) + 0x110 := ne_of_page hx (mpPage_mod _) (by decide) hpage
    rw [ht, hnew, (keepsReg_wrFld hne ..).eq, rd, hctl, ← rd]
  rw [hwrite]
  refine ⟨(hin.wider rfl).trans (hvt.wider rfl), ?_, hbeside⟩
  have htbuf : t.mergeBuf = [⟨blkPort (a / 64), blkLocal (a / 64), data, herd, []⟩] := Eq.trans (hvt .mergeBuf rfl) hbuf
  have hmine : mergeOf t (a / 64) = some ⟨blkPort (a / 64), blkLocal (a / 64), data, herd, []⟩ := by
    rw [mergeOf_eq, htbuf]
    simp [mergesInto]
  have hdec : decodeBlk t (a / 64) = some (rawData s (heldAt s (a / 64))) := by
    have hmem : t.mem = s.mem := Eq.trans (hvt .mem rfl) (hin .mem rfl)
    have hchk : t.chk = s.chk := Eq.trans (hvt .chk rfl) (hin .chk rfl)
    rw [hsame.decodeBlk hchk hmem, decodeBlk_clean (hp.clean _) (verdictAt_plain hp.chk ..)]
  rw [devRead_block h0 h, readBlk_merged hmine, hdec, Option.map_some, Option.map_some, mergeInto_whole _ rfl, hdata,
    mergeBytes_part (by rw [length_rawData]; omega)]

/-! ## An engine's access to one page of device memory -/

section
variable {s : State} {h a n f : Nat}

theorem engRead_frame (hj : judge s h (a / 65536) false = .frame f) (h0 : 0 < n) (hpage : a % 65536 + n ≤ 65536) {bs : List Byte}
    (hread : devRead s (65536 * f + a % 65536) n = some bs) : engRead s h a n none = .ok bs := by
  rw [engRead, pageParts_one h0 hpage, List.foldl_cons, List.foldl_nil]
  dsimp only
  rw [engPart]
  dsimp only
  rw [hj]
  dsimp only
  rw [Option.any_none, if_neg Bool.false_ne_true, hread]
  rfl

theorem engWriteJudge_frame (hj : judge s h (a / 65536) true = .frame f) (h0 : 0 < n) (hpage : a % 65536 + n ≤ 65536) :
    engWriteJudge s h a n none = .ok [] := by
  rw [engWriteJudge, pageParts_one h0 hpage, List.foldl_cons, List.foldl_nil]
  dsimp only
  rw [hj]
  rfl

theorem after_engActs_read (hj : judge s h (a / 65536) false = .frame f) (hc : entryClean s (a / 65536) = true) (h0 : 0 < n)
    (hpage : a % 65536 + n ≤ 65536) : after (engActs h a n none false) s =
      after (devReadActs (65536 * f + a % 65536) n .engine (some h)) (after (touch (a / 65536)) s) := by
  rw [engActs, after_look, pageParts_one h0 hpage, after_each_cons, after_each_nil, after_seq_cons, after_seq_cons, after_seq_nil]
  dsimp only
  rw [hj, judgeActs, after_look, hj, after_seq_cons, after_entryRead_clean hc, after_seq_cons, after_seq_nil, Bool.not_false, after_act, if_pos rfl]
  dsimp only
  rw [Option.any_none, if_neg Bool.false_ne_true]

end

theorem sameTable_touch (p : Nat) (s : State) : SameTable s (after (touch p) s) := sameTable_within (within_touch p) s

end Sys2Proof.Machine
end

section
/-! The modes of a descriptor begin; a group's step advances once; group loads and stores (R318 to R323, R328); O31. -/

namespace Sys2Proof.Machine

-- One declaration after the other: elaborated side by side they take more memory than the check has.
set_option Elab.async false

/-! ## A descriptor is replaced -/

theorem after_setDesc (d e : UeDesc) (s : State) : after (setDesc d e) s = after (one (.desc (s.desc.map (fun x => if x = d then e else x)))) s := by
  rw [setDesc, after_look]

theorem descIs_after_setDesc (d e : UeDesc) (s : State) : DescIs s (after (setDesc d e) s) d e := by
  rw [DescIs, after_setDesc]
  rfl

theorem DescIs.of_desc {s t u : State} {d e : UeDesc} (h : DescIs t u d e) (hd : t.desc = s.desc) : DescIs s u d e := by
  rw [DescIs, h, hd]

theorem DescIs.later {s t u : State} {d e : UeDesc} (h : DescIs s t d e) (hd : u.desc = t.desc) : DescIs s u d e := by rw [DescIs, hd, h]

theorem descOf_keys {s : State} {n h : Nat} {d : UeDesc} (hd : descOf s n h = some d) : d.eng = n ∧ d.herd = h := by
  have := List.find?_some hd
  simpa using this

/-- The descriptor that a ring holds, once it is replaced by another of the ring. -/
theorem descOf_of_descIs {s t : State} {n h : Nat} {d e : UeDesc} (hd : descOf s n h = some d) (ht : DescIs s t d e) (he : e.eng = n ∧ e.herd = h) :
    descOf t n h = some e := by
  have hmap (xs : List UeDesc) (hx : xs.find? (fun d => decide (d.eng = n) && decide (d.herd = h)) = some d) :
      (xs.map fun x => if x = d then e else x).find? (fun d => decide (d.eng = n) && decide (d.herd = h)) = some e := by
    induction xs with
    | nil => cases hx
    | cons x xs ih =>
      rw [List.map_cons]
      rw [List.find?_cons] at hx
      split at hx
      case h_1 =>
        cases hx
        rw [if_pos rfl, List.find?_cons_of_pos (by simp [he.1, he.2])]
      case h_2 hno =>
        have hne : x ≠ d := fun hc => by
          rw [hc] at hno
          have hk := descOf_keys hd
          simp [hk.1, hk.2] at hno
        rw [if_neg hne, List.find?_cons_of_neg (by rw [hno]; exact Bool.false_ne_true), ih hx]
  rw [descOf, ht]
  exact hmap s.desc hd

/-- A descriptor that has been judged runs the body of its mode. -/
theorem after_inMode {s : State} {n h mode : Nat} {d : UeDesc} (hd : descOf s n h = some d) (hm : dMode d = mode) (hp : d.phase ≠ 0)
    (body : UeDesc → Act) : after (inMode n h mode body) s = after (body d) s := by
  rw [inMode, after_look, hd]
  dsimp only
  rw [if_neg (not_not.mpr hm), if_neg hp]

/-! ## A group's entry -/

@[simp] theorem length_wordBytes (ws : List Word) : (wordBytes ws).length = 4 * ws.length := by
  rw [wordBytes, List.length_flatMap, List.map_congr_left (g := fun _ => 4) fun w _ => length_leBytes ..]
  simp
  omega

theorem length_advanced (g : List Word) (st : Word) : (advanced g st).1.length = g.length := by
  rw [advanced]
  split
  · rw [List.length_set, List.length_set]
  · rfl

/-- An advance counts a group's step once (R320). -/
theorem advanced_once {g : List Word} {st : Word} (h4 : 4 ≤ g.length) (hover : g.getD 2 0 = 0 ∨ g.getD 3 0 ≠ st → g.getD 2 0 + 1 ≠ 0) :
    advanced (advanced g st).1 st = advanced g st ∧ (advanced g st).1.length = g.length ∧
      ∀ k, k ≠ 2 → k ≠ 3 → (advanced g st).1.getD k 0 = g.getD k 0 := by
  refine ⟨?_, length_advanced g st, fun k h2 h3 => ?_⟩
  · by_cases hc : g.getD 2 0 = 0 ∨ g.getD 3 0 ≠ st
    · have h2 : (((g.set 2 (g.getD 2 0 + 1)).set 3 st).getD 2 0) = g.getD 2 0 + 1 := by
        rw [List.getD_eq_getElem?_getD, List.getElem?_set_ne (by decide), List.getElem?_set_self (by omega), Option.getD_some]
      have h3 : (((g.set 2 (g.getD 2 0 + 1)).set 3 st).getD 3 0) = st := by
        rw [List.getD_eq_getElem?_getD, List.getElem?_set_self (by rw [List.length_set]; omega), Option.getD_some]
      rw [show advanced g st = ((g.set 2 (g.getD 2 0 + 1)).set 3 st, g.getD 2 0 + 1) by rw [advanced, if_pos hc]]
      dsimp only
      rw [advanced, h2, h3, if_neg (not_or.mpr ⟨hover hc, fun h => h rfl⟩)]
    · rw [show advanced g st = (g, g.getD 2 0) by rw [advanced, if_neg hc]]
      dsimp only
      rw [advanced, if_neg hc]
  · rw [advanced]
    split
    · rw [List.getD_eq_getElem?_getD, List.getElem?_set_ne (Ne.symm h3), List.getElem?_set_ne (Ne.symm h2), ← List.getD_eq_getElem?_getD]
    · rfl

section
variable {s : State} (hs : Ready s) (n : PortNo) (h : HerdNo) {d : UeDesc} (hd : descOf s n.val h.val = some d)

/-! ## The advance at the home engine (R320) -/

section
variable {bs : List Byte} {r : List Word × Word} (hread : devRead s (groupAddr s n.val (dGroup d)) 32 = some bs)
  (hal : groupAddr s n.val (dGroup d) % 32 = 0) (hp : Plain s) (hr : r = advanced (leWords 8 bs) (dStep d))
include hd hread hal hp hr

theorem advanced_doAdvance : OnlyIn [.ctl, .mergeBuf, .desc] s (after (doAdvance d) s) ∧
    devRead (after (doAdvance d) s) (groupAddr s n.val (dGroup d)) 32 = some (wordBytes r.1) ∧
    DescIs s (after (doAdvance d) s) d { d with phase := 2, t := r.2 } := by
  obtain ⟨a, ha⟩ : ∃ a, a = groupAddr s n.val (dGroup d) := ⟨_, rfl⟩
  have hlen : (wordBytes r.1).length = 32 := by rw [length_wordBytes, hr, length_advanced, length_leWords]
  have hbody : after (doAdvance d) s = after (setDesc d { d with phase := 2, t := r.2 }) (after (devWrite a (wordBytes r.1) d.herd)
      (after (devReadActs a 32 .engine (some d.herd)) s)) := by
    rw [doAdvance, after_look, (descOf_keys hd).1, ← ha]
    dsimp only
    rw [ha, hread, ← ha]
    dsimp only
    rw [← hr, after_seq_cons, after_seq_cons, after_seq_nil, after_seq_cons, after_seq_cons, after_seq_nil]
  rw [← ha] at hal ⊢
  obtain ⟨hsame, honly, -⟩ := sameTable_devReadActs hp (a := a) (n := 32) (by decide) (by omega) .engine (some d.herd)
  generalize after (devReadActs a 32 .engine (some d.herd)) s = u at hsame honly hbody
  have hw := partWritten_devWrite (hp.sameTable hsame) (a := a) (bs := wordBytes r.1) (by omega) (by omega) (by omega) d.herd
  generalize after (devWrite a (wordBytes r.1) d.herd) u = w at hw hbody
  have hset : Within [.desc] (setDesc d { d with phase := 2, t := r.2 }) := within_setDesc ..
  have hdw : w.desc = s.desc := Eq.trans (hw.only .desc rfl) (honly .desc rfl)
  rw [hbody]
  refine ⟨(honly.wider rfl).trans ((hw.only.wider rfl).trans ((hset.onlyIn w).wider rfl)), ?_, (descIs_after_setDesc ..).of_desc hdw⟩
  rw [(sameTable_within hset w).devRead, ← hlen]
  exact hw.data

include hs

theorem does_advance (hphase : d.phase = 1) (hmode : dMode d = 0 ∨ dMode d = 2) : Does (.advance n h) s [.ctl, .mergeBuf, .desc] fun t =>
    devRead t (groupAddr s n.val (dGroup d)) 32 = some (wordBytes r.1) ∧ DescIs s t d { d with phase := 2, t := r.2 } := by
  have hbody : after (actAdvance n.val h.val) s = after (doAdvance d) s := by
    rw [actAdvance, after_look, hd]
    dsimp only
    rw [hphase, after_act, if_pos (by simpa using hmode)]
  obtain ⟨honly, hdata, hdesc⟩ := advanced_doAdvance n h hd hread hal hp hr
  refine does_of_run hs.1 (a := actAdvance n.val h.val) rfl ?_ ?_ <;> rw [hbody]
  · exact honly
  · exact ⟨hdata, hdesc⟩

/-- The descriptor with B1 and B2 of step t of its group, its batches begun (R323). -/
def batching (d : UeDesc) (t : Word) : UeDesc :=
  { d with phase := 3, t := t, b1 := subF one32 (powF (gW d 4) t), b2 := subF one32 (powF (gW d 5) t) }

omit hs in
theorem started_startUpdate (hphase : d.phase = 1) : OnlyIn [.ctl, .mergeBuf, .desc] s (after (startUpdate d) s) ∧
    devRead (after (startUpdate d) s) (groupAddr s n.val (dGroup d)) 32 = some (wordBytes r.1) ∧
    descOf (after (startUpdate d) s) n.val h.val = some (batching d r.2) := by
  obtain ⟨honly, hdata, hdesc⟩ := advanced_doAdvance n h hd hread hal hp hr
  obtain ⟨hn, hh⟩ := descOf_keys hd
  obtain ⟨e, he⟩ : ∃ e : UeDesc, e = { d with phase := 2, t := r.2 } := ⟨_, rfl⟩
  rw [← he] at hdesc
  have hkeys : e.eng = n.val ∧ e.herd = h.val := he ▸ ⟨hn, hh⟩
  have hphase2 : e.phase = 2 := he ▸ rfl
  have hfound := descOf_of_descIs hd hdesc hkeys
  have hbody : after (startUpdate d) s = after (beginBatches e) (after (doAdvance d) s) := by
    rw [startUpdate, if_pos hphase, after_seq_cons, after_seq_cons, after_seq_nil, after_look, hn, hh, hfound]
    dsimp only
    rw [after_act, if_pos (decide_eq_true hphase2)]
  have hbegin : Within [.desc] (beginBatches e) := within_beginBatches _
  have hend := descOf_of_descIs hfound (descIs_after_setDesc e (batching d r.2) _) ⟨hn, hh⟩
  rw [hbody]
  refine ⟨honly.trans ((hbegin.onlyIn _).wider rfl), ?_, ?_⟩
  · rw [(sameTable_within hbegin _).devRead, hdata]
  · rw [beginBatches, he]
    rw [he] at hend
    exact hend

theorem does_update (hphase : d.phase = 1) (hmode : dMode d = 0) : Does (.update n h) s [.ctl, .mergeBuf, .desc] fun t =>
    devRead t (groupAddr s n.val (dGroup d)) 32 = some (wordBytes r.1) ∧ descOf t n.val h.val = some (batching d r.2) := by
  obtain ⟨honly, hdata, hdesc⟩ := started_startUpdate n h hd hread hal hp hr hphase
  have hbody : after (actUpdate n.val h.val) s = after (startUpdate d) s := after_inMode hd hmode (by rw [hphase]; decide) _
  rw [← hbody] at honly hdata hdesc
  exact does_of_run hs.1 (a := actUpdate n.val h.val) rfl honly ⟨hdata, hdesc⟩

theorem does_updateAccumulated (hphase : d.phase = 1) (hmode : dMode d = 2) :
    Does (.updateWithAccumulatedGradient n h) s [.ctl, .mergeBuf, .desc] fun t =>
      devRead t (groupAddr s n.val (dGroup d)) 32 = some (wordBytes r.1) ∧ descOf t n.val h.val = some (batching d r.2) := by
  obtain ⟨honly, hdata, hdesc⟩ := started_startUpdate n h hd hread hal hp hr hphase
  have hbody : after (actUpdateAccumulated n.val h.val) s = after (startUpdate d) s := after_inMode hd hmode (by rw [hphase]; decide) _
  rw [← hbody] at honly hdata hdesc
  exact does_of_run hs.1 (a := actUpdateAccumulated n.val h.val) rfl honly ⟨hdata, hdesc⟩

end

/-! ## Modes that need no advance -/

section
include hs hd

theorem does_accumulate (hmode : dMode d = 1) (hphase : d.phase = 1) :
    Does (.accumulate n h) s [.desc] fun t => DescIs s t d { d with phase := 3 } := by
  have hbody : after (actAccumulate n.val h.val) s = after (setDesc d { d with phase := 3 }) s := by
    rw [actAccumulate, after_inMode hd hmode (by rw [hphase]; decide), hphase, after_act, if_pos (by decide)]
  refine does_of_run hs.1 (a := actAccumulate n.val h.val) rfl ?_ ?_ <;> rw [hbody]
  · exact (within_setDesc ..).onlyIn s
  · exact descIs_after_setDesc ..

omit hs hd in
theorem after_startUpdate_again (hphase : d.phase = 2) : after (startUpdate d) s = after (setDesc d (batching d d.t)) s := by
  rw [startUpdate, hphase, if_neg (by decide), after_act, if_pos (by decide)]
  rfl

theorem does_update_again (hphase : d.phase = 2) (hmode : dMode d = 0) : Does (.update n h) s [.desc] fun t => DescIs s t d (batching d d.t) := by
  have hbody : after (actUpdate n.val h.val) s = after (startUpdate d) s := after_inMode hd hmode (by rw [hphase]; decide) _
  rw [after_startUpdate_again hphase] at hbody
  refine does_of_run hs.1 (a := actUpdate n.val h.val) rfl ?_ ?_ <;> rw [hbody]
  · exact (within_setDesc ..).onlyIn s
  · exact descIs_after_setDesc ..

theorem does_updateAccumulated_again (hphase : d.phase = 2) (hmode : dMode d = 2) :
    Does (.updateWithAccumulatedGradient n h) s [.desc] fun t => DescIs s t d (batching d d.t) := by
  have hbody : after (actUpdateAccumulated n.val h.val) s = after (startUpdate d) s := after_inMode hd hmode (by rw [hphase]; decide) _
  rw [after_startUpdate_again hphase] at hbody
  refine does_of_run hs.1 (a := actUpdateAccumulated n.val h.val) rfl ?_ ?_ <;> rw [hbody]
  · exact (within_setDesc ..).onlyIn s
  · exact descIs_after_setDesc ..

end

/-! ## Group loads and stores (R318) -/

section
variable {bs : List Byte} {f : Nat} (hphase : d.phase = 1) (hp : Plain s) (hgroup : groupAddr s n.val (dGroup d) % 32 = 0) (hrec : dRec d % 32 = 0)
include hs hd hphase hp hgroup hrec

theorem does_groupLoad (hmode : dMode d = 3) (hj : judge s h.val (dRec d / 65536) false = .frame f)
    (hread : devRead s (65536 * f + dRec d % 65536) 32 = some bs) : Does (.groupLoad n h) s [.ctl, .mergeBuf, .touched, .desc] fun t =>
      devRead t (groupAddr s n.val (dGroup d)) 32 =
        some (wordBytes ((leWords 8 bs).set 0 (setFld ((leWords 8 bs).getD 0 0) 27 22 h.val))) ∧
      DescIs s t d { d with phase := 4, status := 0x04 } := by
  obtain ⟨new, hnew⟩ : ∃ new, new = wordBytes ((leWords 8 bs).set 0 (setFld ((leWords 8 bs).getD 0 0) 27 22 h.val)) := ⟨_, rfl⟩
  obtain ⟨a, ha⟩ : ∃ a, a = groupAddr s n.val (dGroup d) := ⟨_, rfl⟩
  have hlen : new.length = 32 := by rw [hnew, length_wordBytes, List.length_set, length_leWords]
  have hbody : after (actGroupLoad n.val h.val) s = after (setDesc d (ended d 0x04)) (after (devWrite a new h.val)
      (after (devReadActs (65536 * f + dRec d % 65536) 32 .engine (some h.val)) (after (touch (dRec d / 65536)) s))) := by
    rw [actGroupLoad, after_inMode hd hmode (by rw [hphase]; decide), after_look, if_neg (not_not.mpr hphase),
      engRead_frame hj (by decide) (by omega) hread]
    dsimp only
    rw [after_seq_cons, after_seq_cons, after_seq_cons, after_seq_nil, after_engActs_read hj (hp.entryClean _) (by decide) (by omega), ← ha, ← hnew]
  rw [← ha] at hgroup ⊢
  rw [← hnew]
  have htouch : Within [.touched] (touch (dRec d / 65536)) := within_touch _
  have hpt := hp.sameTable (sameTable_touch (dRec d / 65536) s)
  have htonly := htouch.onlyIn s
  generalize after (touch (dRec d / 65536)) s = u at hbody hpt htonly
  obtain ⟨hsame, honly, -⟩ := sameTable_devReadActs hpt (a := 65536 * f + dRec d % 65536) (n := 32) (by decide) (by omega) .engine (some h.val)
  generalize after (devReadActs (65536 * f + dRec d % 65536) 32 .engine (some h.val)) u = v at hsame honly hbody
  have hw := partWritten_devWrite (hpt.sameTable hsame) (a := a) (bs := new) (by omega) (by omega) (by omega) h.val
  generalize after (devWrite a new h.val) v = w at hw hbody
  have hset : Within [.desc] (setDesc d (ended d 0x04)) := within_setDesc ..
  have hdw : w.desc = s.desc := Eq.trans (hw.only .desc rfl) (Eq.trans (honly .desc rfl) (htonly .desc rfl))
  refine does_of_run hs.1 (a := actGroupLoad n.val h.val) rfl ?_ ?_ <;> rw [hbody]
  · exact (htonly.wider rfl).trans ((honly.wider rfl).trans ((hw.only.wider rfl).trans ((hset.onlyIn w).wider rfl)))
  · refine ⟨?_, (descIs_after_setDesc ..).of_desc hdw⟩
    rw [(sameTable_within hset w).devRead, ← hlen]
    exact hw.data

theorem does_groupStore (hmode : dMode d = 4) (hj : judge s h.val (dRec d / 65536) true = .frame f)
    (hread : devRead s (groupAddr s n.val (dGroup d)) 32 = some bs) : Does (.groupStore n h) s [.ctl, .mergeBuf, .touched, .desc] fun t =>
      devRead t (65536 * f + dRec d % 65536) 32 = some bs ∧ DescIs s t d { d with phase := 4, status := 0x05 } := by
  obtain ⟨a, ha⟩ : ∃ a, a = groupAddr s n.val (dGroup d) := ⟨_, rfl⟩
  have hbody : after (actGroupStore n.val h.val) s = after (setDesc d (ended d 0x05)) (after (urWrite h.val (dRec d) bs)
      (after (devReadActs a 32 .engine (some h.val)) s)) := by
    rw [actGroupStore, after_inMode hd hmode (by rw [hphase]; decide), after_look]
    dsimp only
    rw [if_neg (not_not.mpr hphase), hread, engWriteJudge_frame hj (by decide) (by omega)]
    dsimp only
    rw [after_seq_cons, after_seq_cons, after_seq_cons, after_seq_nil, ← ha]
  rw [← ha] at hgroup hread
  have hlen : bs.length = 32 := length_devRead_block hp (by decide) (by omega) hread
  obtain ⟨hsame, honly, hbeside⟩ := sameTable_devReadActs hp (a := a) (n := 32) (by decide) (by omega) .engine (some h.val)
  have hju : judge (after (devReadActs a 32 .engine (some h.val)) s) h.val (dRec d / 65536) true = .frame f := by
    rw [(sameSpace_of_beside hsame honly hbeside).judge, hj]
  generalize after (devReadActs a 32 .engine (some h.val)) s = u at hsame honly hbody hju hbeside
  have hpu := hp.sameTable hsame
  rw [after_urWrite_frame (by omega) (by omega) hju (hpu.entryClean _)] at hbody
  have htouch : Within [.touched] (touch (dRec d / 65536)) := within_touch _
  have hpt := hpu.sameTable (sameTable_touch (dRec d / 65536) u)
  have htonly := htouch.onlyIn u
  generalize after (touch (dRec d / 65536)) u = v at hbody hpt htonly
  have hw := partWritten_devWrite hpt (a := 65536 * f + dRec d % 65536) (bs := bs) (by omega) (by omega) (by omega) h.val
  generalize after (devWrite (65536 * f + dRec d % 65536) bs h.val) v = w at hw hbody
  have hset : Within [.desc] (setDesc d (ended d 0x05)) := within_setDesc ..
  have hdw : w.desc = s.desc := Eq.trans (hw.only .desc rfl) (Eq.trans (htonly .desc rfl) (honly .desc rfl))
  refine does_of_run hs.1 (a := actGroupStore n.val h.val) rfl ?_ ?_ <;> rw [hbody]
  · exact (honly.wider rfl).trans ((htonly.wider rfl).trans ((hw.only.wider rfl).trans ((hset.onlyIn w).wider rfl)))
  · refine ⟨?_, (descIs_after_setDesc ..).of_desc hdw⟩
    rw [(sameTable_within hset w).devRead, ← hlen]
    exact hw.data

end

end

/-! ## LR (R322) -/

theorem lr_of_judgeVote {s : State} {d e : UeDesc} (he : (judgeVote s d).2 = some e) (hphase : e.phase = 1) : e.lr = d.lr := by
  rw [judgeVote] at he
  have active (x : UeDesc) (hx : (becomeActive s x).2 = some e) (hne : e.phase = 1) : e.lr = x.lr := by
    rw [becomeActive] at hx
    split at hx
    · cases hx; rfl
    · split at hx
      · cases hx
      · cases hx; rfl
      · cases hx; rfl
  iterate 6
    split at he
    · cases he
      rfl
  have hlr := active _ he
  split at hlr <;> exact hlr hphase

theorem lr_of_judgeShard {s : State} {d e : UeDesc} (he : (judgeShard s d).2 = some e) (hphase : e.phase = 1) :
    (bit (gW d 0) 28 = false → e.lr = one32) ∧
    ∀ bs ps, bit (gW d 0) 28 = true → curveRead s d.herd (gW d 1) = .ok bs → curvePoints bs = some ps → e.lr = curveLr ps (dStep d).toNat := by
  have hprog : progWaits s d.eng (fld (gW d 0) 7 0) = false := by
    by_contra hw
    rw [judgeShard, if_pos (by simpa using hw)] at he
    cases he
    cases hphase
  rcases judgeShard_cases he hprog with ⟨h4, -⟩ | ⟨sh, lr, hv, hnone, hcurve⟩
  · rw [hphase] at h4
    cases h4
  · rw [lr_of_judgeVote hv hphase]
    exact ⟨hnone, hcurve⟩

/-- Settles O31: a judged descriptor's LR by the rows of R324; the modes by what each does to the group's entry, which lies in one block of a
device without errors, and to the descriptor. -/
theorem updatesStart : Obligations.UpdatesStart := by
  refine ⟨⟨fun s d e he hphase => lr_of_judgeShard he hphase, fun s hs n h d hd => ⟨fun hmode hphase => does_accumulate hs n h hd hmode hphase,
    fun bs r hphase hread hal hfree hbuf hr => ?_, fun hphase hmode => does_update_again hs n h hd hphase hmode,
    fun hphase hmode => does_updateAccumulated_again hs n h hd hphase hmode⟩⟩, fun g st h4 hover => advanced_once h4 hover,
    fun s hs n h d bs f hd hphase hfree hbuf hgroup hrec _ => ?_⟩
  · have hp := plain_of_errorFree hfree hbuf
    exact ⟨fun hmode => does_advance hs n h hd hread hal hp hr hphase hmode, fun hmode => does_update hs n h hd hread hal hp hr hphase hmode,
      fun hmode => does_updateAccumulated hs n h hd hread hal hp hr hphase hmode⟩
  · have hp := plain_of_errorFree hfree hbuf
    exact ⟨fun hmode hj hread => does_groupLoad hs n h hd hphase hp hgroup hrec hmode hj hread,
      fun hmode hj hread => does_groupStore hs n h hd hphase hp hgroup hrec hmode hj hread⟩

end Sys2Proof.Machine
end

section
/-! A descriptor's batches, and its end (R311, R314, R329 to R331, R342, R344); for O32. -/

namespace Sys2Proof.Machine

-- One declaration after the other: elaborated side by side they take more memory than the check has.
set_option Elab.async false

/-! ## An engine's reads elsewhere -/

section
variable {s t : State} (h : SameSpace s t)
include h

theorem SameSpace.engRead (herd a n : Nat) (port : Option Nat) : engRead t herd a n port = engRead s herd a n port := by
  have hpart (p : Nat × Nat × Nat × Nat) : engPart t herd port p = engPart s herd port p := by
    simp only [engPart, h.judge, h.table.devRead]
  simp only [Machine.engRead, hpart]

theorem SameSpace.engWriteJudge (herd a n : Nat) (port : Option Nat) : engWriteJudge t herd a n port = engWriteJudge s herd a n port := by
  simp only [Machine.engWriteJudge, h.judge]

theorem SameSpace.trainedElems (d : UeDesc) : trainedElems t d = trainedElems s d := by
  have hwords : headerWords t d = headerWords s d := by rw [headerWords, headerWords, maskHeader, maskHeader, h.engRead]
  have himage (herd a : Nat) (ws : List Word) (r c : Nat) : imageTrained t herd a ws r c = imageTrained s herd a ws r c := by
    simp only [imageTrained, h.engRead]
  simp only [Machine.trainedElems, hwords, himage]

end

theorem sameSpace_within {ps : List Part} {a : Act} (h : Within ps a) (s : State) (hc : ps.contains .ctl = false := by rfl)
    (h1 : ps.contains .straps = false := by rfl) (h2 : ps.contains .mem = false := by rfl) (h3 : ps.contains .chk = false := by rfl)
    (h4 : ps.contains .mergeBuf = false := by rfl) (h5 : ps.contains .farMem = false := by rfl) (h6 : ps.contains .extent = false := by rfl)
    (h7 : ps.contains .freeCtr = false := by rfl) : SameSpace s (after a s) where
  table := sameTable_within h s hc h1 h2 h3 h4
  sset _ _ := ⟨(h.keepsReg _ hc).rd s, (h.keepsReg _ hc).rd s⟩
  up _ _ := (h.keepsReg _ hc).rd s
  farMem := h.onlyIn s .farMem h5
  extent := h.onlyIn s .extent h6
  freeCtr := h.onlyIn s .freeCtr h7

/-! ## UE_BATCH (R330, R331) -/

theorem descOf_of_desc {s t : State} (h : t.desc = s.desc) (n k : Nat) : descOf t n k = descOf s n k := by rw [descOf, h, descOf]

section
variable {s : State} (hs : Ready s) (n : PortNo) (h : HerdNo) {d : UeDesc} (hd : descOf s n.val h.val = some d) (hphase : d.phase = 3)
  (hdue : evalsDue s n.val = []) (hturn : turnOfHerd s (32 + n.val) h.val (batchReady s n.val) = true)
include hd hphase hdue hturn

theorem after_actUeBatch_ok {bs : List Byte} (hends : batchEnds s d = .ok bs) : after (actUeBatch n.val h.val) s =
    after (if (trainedElems s d).isEmpty then setDesc d (afterBatch d) else runBatch n.val h.val d)
      (after (one (.lastTaken (32 + n.val) (some h.val))) s) := by
  rw [actUeBatch, after_look, hd]
  dsimp only
  rw [hphase, hdue, hturn, hends, after_act, if_pos (by decide)]
  dsimp only
  rw [after_seq_cons, after_seq_cons, after_seq_nil]

theorem after_actUeBatch_bad {st : Nat} (hends : batchEnds s d = .bad st) : after (actUeBatch n.val h.val) s =
    after (one (.lastTaken (32 + n.val) (some h.val))) (after (setDesc d (ended d st))
      (after (triedActs n.val h.val (batchReads s d) (batchWrites s d)) s)) := by
  rw [actUeBatch, after_look, hd]
  dsimp only
  rw [hphase, hdue, hturn, hends, after_act, if_pos (by decide)]
  dsimp only
  rw [after_seq_cons, after_seq_cons, after_seq_cons, after_seq_nil]

/-- What a batch that takes effect leaves of its descriptor: it keeps its ring, counts the batch's trained elements, and goes on. -/
structure BatchDone (d e : UeDesc) (elems : Nat) : Prop where
  eng : e.eng = d.eng
  herd : e.herd = d.herd
  done : e.done = d.done + elems
  changed : dMode d = 1 → e.changed = d.changed
  t : e.t = d.t
  status : e.status = d.status
  next : if batchCount d ≤ d.batch + 1 then e.phase = 4 else e.phase = 3 ∧ e.batch = d.batch + 1

omit hd hdue hturn in
/-- A batch's accesses and writes leave the descriptors alone; then its own counts the batch. -/
theorem desc_after_runBatch (s : State) : ∃ e, BatchDone d e (trainedElems s d).length ∧ DescIs s (after (runBatch n.val h.val d) s) d e := by
  rw [runBatch, after_look]
  dsimp only
  obtain ⟨e, he⟩ : ∃ e, e = afterBatch { d with
      done := d.done + (batchRuns s d).length
      changed := d.changed + ((batchRuns s d).filter fun r => decide (dMode d ≠ 1) &&
        decide ((readElem s d 0 r.1).1 ≠ .ok (storeBytes d 0 (r.2.getD 0 0)))).length
      figs := d.figs.add ((batchWork s d).foldl (fun f b => f.add b.figs) Figures.zero)
      formatRaised := d.formatRaised || (batchWork s d).any (·.invalid) } := ⟨_, rfl⟩
  rw [← he]
  refine ⟨e, ?_, ?_⟩
  · have hcount (x : UeDesc) (hx : batchCount x = batchCount d) (hb : x.batch = d.batch) (hp : x.phase = 3) :
        if batchCount d ≤ d.batch + 1 then (afterBatch x).phase = 4 else (afterBatch x).phase = 3 ∧ (afterBatch x).batch = d.batch + 1 := by
      rw [afterBatch, hx, hb]
      split
      · rfl
      · exact ⟨hp, rfl⟩
    have kept {β : Type} (f : UeDesc → β) (x : UeDesc) (h4 : f { x with phase := 4 } = f x) (hb : f { x with batch := x.batch + 1 } = f x) :
        f (afterBatch x) = f x := by
      rw [afterBatch]
      split
      · exact h4
      · exact hb
    rw [he]
    refine ⟨kept (·.eng) _ rfl rfl, kept (·.herd) _ rfl rfl, (kept (·.done) _ rfl rfl).trans ?_, fun h1 => (kept (·.changed) _ rfl rfl).trans ?_,
      kept (·.t) _ rfl rfl, kept (·.status) _ rfl rfl, hcount _ rfl rfl hphase⟩
    · rw [batchRuns, List.length_map]
    · simp [h1]
  · have hreads : Within [.ctl, .mem, .chk, .touched, .mergeBuf, .dumpRun, .freeCtr] (each (batchReads s d) (touchActs n.val h.val false)) :=
      within_each fun _ => within_touchActs ..
    iterate 9 rw [after_seq_cons]
    rw [after_seq_nil]
    refine (descIs_after_setDesc d e _).of_desc ?_
    rw [(within_act (within_raise ..)).desc, (within_act (within_count ..)).desc, (within_count ..).desc, (within_count ..).desc,
      (within_putRuns ..).desc, (within_putRuns ..).desc, (within_putRuns ..).desc, hreads.desc]

include hs

theorem does_batch {bs : List Byte} (hends : batchEnds s d = .ok bs) (hsome : trainedElems s d ≠ []) :
    Does (.ueBatch n h) s [.ctl, .mem, .chk, .mergeBuf, .farMem, .touched, .lastTaken, .desc, .dumpRun, .freeCtr, .out] fun t =>
      mGet t.lastTaken (32 + n.val) = some h.val ∧
      ∃ e, descOf t n.val h.val = some e ∧ e.done = d.done + (trainedElems s d).length ∧ (dMode d = 1 → e.changed = d.changed) ∧
        e.t = d.t ∧ e.status = d.status ∧ if batchCount d ≤ d.batch + 1 then e.phase = 4 else e.phase = 3 ∧ e.batch = d.batch + 1 := by
  have hlast : Within [.lastTaken] (one (.lastTaken (32 + n.val) (some h.val))) := within_one rfl
  have hbody := after_actUeBatch_ok n h hd hphase hdue hturn hends
  rw [if_neg (by rw [List.isEmpty_iff]; exact hsome)] at hbody
  have helems := (sameSpace_within hlast s).trainedElems d
  have hdv : (after (one (.lastTaken (32 + n.val) (some h.val))) s).desc = s.desc := hlast.desc s
  have htaken : mGet (after (one (.lastTaken (32 + n.val) (some h.val))) s).lastTaken (32 + n.val) = some h.val := mGet_mPut_same ..
  have honly := hlast.onlyIn s
  generalize after (one (.lastTaken (32 + n.val) (some h.val))) s = u at hbody helems hdv htaken honly
  have hrun := within_runBatch n.val h.val d
  obtain ⟨e, he, hdesc⟩ := desc_after_runBatch n h hphase u
  rw [helems] at he
  refine does_of_run hs.1 (a := actUeBatch n.val h.val) rfl ?_ ?_ <;> rw [hbody]
  · exact (honly.wider rfl).trans ((hrun.onlyIn u).wider rfl)
  · obtain ⟨hn, hh⟩ := descOf_keys hd
    refine ⟨by rw [hrun.lastTaken, htaken], e, ?_, he.done, he.changed, he.t, he.status, he.next⟩
    exact descOf_of_descIs ((descOf_of_desc hdv ..).trans hd) hdesc ⟨he.eng.trans hn, he.herd.trans hh⟩

theorem does_batch_passed {bs : List Byte} (hends : batchEnds s d = .ok bs) (hnone : trainedElems s d = []) :
    Does (.ueBatch n h) s [.lastTaken, .desc] fun t => mGet t.lastTaken (32 + n.val) = some h.val ∧
      DescIs s t d (if batchCount d ≤ d.batch + 1 then { d with phase := 4 } else { d with batch := d.batch + 1 }) := by
  have hlast : Within [.lastTaken] (one (.lastTaken (32 + n.val) (some h.val))) := within_one rfl
  have hset : Within [.desc] (setDesc d (afterBatch d)) := within_setDesc ..
  have hbody := after_actUeBatch_ok n h hd hphase hdue hturn hends
  rw [hnone, List.isEmpty_nil, if_pos rfl] at hbody
  refine does_of_run hs.1 (a := actUeBatch n.val h.val) rfl ?_ ?_ <;> rw [hbody]
  · exact ((hlast.onlyIn s).wider rfl).trans ((hset.onlyIn _).wider rfl)
  · exact ⟨(congrArg (mGet · (32 + n.val)) (hset.lastTaken _)).trans (mGet_mPut_same ..), (descIs_after_setDesc ..).of_desc (hlast.desc s)⟩

theorem does_batch_failed {st : Nat} (hends : batchEnds s d = .bad st) :
    Does (.ueBatch n h) s [.ctl, .mem, .chk, .mergeBuf, .touched, .lastTaken, .desc, .dumpRun, .freeCtr] fun t =>
      mGet t.lastTaken (32 + n.val) = some h.val ∧ DescIs s t d { d with phase := 4, status := st } := by
  have htried := within_triedActs n.val h.val (batchReads s d) (batchWrites s d)
  have hset : Within [.desc] (setDesc d (ended d st)) := within_setDesc ..
  have hlast : Within [.lastTaken] (one (.lastTaken (32 + n.val) (some h.val))) := within_one rfl
  have hbody := after_actUeBatch_bad n h hd hphase hdue hturn hends
  refine does_of_run hs.1 (a := actUeBatch n.val h.val) rfl ?_ ?_ <;> rw [hbody]
  · exact ((htried.onlyIn s).wider rfl).trans (((hset.onlyIn _).wider rfl).trans ((hlast.onlyIn _).wider rfl))
  · exact ⟨mGet_mPut_same .., ((descIs_after_setDesc ..).of_desc (htried.desc s)).later (hlast.desc _)⟩

end

end Sys2Proof.Machine
end

section
/-! The end of a descriptor (R314, R342, R344); for O32. -/

namespace Sys2Proof.Machine

-- One declaration after the other: elaborated side by side they take more memory than the check has.
set_option Elab.async false

/-! ## The completion record (R314) -/

/-- A completion record of descriptor d. -/
def completionOf (d : UeDesc) : List Byte :=
  leBytes 2 (fld (dW d 0) 31 16) ++ leBytes 2 d.status ++ leBytes 4 d.done ++ leBytes 4 d.changed ++ leBytes 4 (if d.done = 0 then 0 else d.t.toNat)

theorem length_completionOf (d : UeDesc) : (completionOf d).length = 16 := by simp [completionOf]

/-- A record of 16 bytes written in an error-free device. -/
structure RecordPut (s t : State) (a : Nat) (bs : List Byte) : Prop where
  only : OnlyIn [.ctl, .mergeBuf, .touched] s t
  data : devRead t a 16 = some bs
  beside : ∀ x, Beside x → rd t x = rd s x

theorem recordPut_putRecord {s : State} (hp : Plain s) {h a f : Nat} (hal : a % 16 = 0) (hj : judge s h (a / 65536) true = .frame f) {bs : List Byte}
    (hlen : bs.length = 16) : RecordPut s (after (putRecord h a bs) s) (65536 * f + a % 65536) bs := by
  have hbody : after (putRecord h a bs) s = after (devWrite (65536 * f + a % 65536) bs h) (after (touch (a / 65536)) s) := by
    rw [putRecord, after_look, engWriteJudge_frame hj (by decide) (by omega)]
    dsimp only
    exact after_urWrite_frame (by omega) (by omega) hj (hp.entryClean _)
  have htouch : Within [.touched] (touch (a / 65536)) := within_touch _
  have hpt := hp.sameTable (sameTable_touch (a / 65536) s)
  have htonly := htouch.onlyIn s
  have hregs (x : Nat) : rd (after (touch (a / 65536)) s) x = rd s x := (htouch.keepsReg x).rd s
  rw [hbody]
  generalize after (touch (a / 65536)) s = u at hpt htonly hregs
  have hw := partWritten_devWrite hpt (a := 65536 * f + a % 65536) (bs := bs) (by omega) (by omega) (by omega) h
  have hdata := hw.data
  rw [hlen] at hdata
  exact ⟨(htonly.wider rfl).trans (hw.only.wider rfl), hdata, fun x hx => (hw.beside x hx).trans (hregs x)⟩

/-! ## The merge and the notification (R314, R342) -/

/-- What a descriptor without a row's fault sends: its figures, and its notification. -/
def sendEnd (n h : Nat) (d : UeDesc) : Act :=
  seq [act (bit (shW d 3) 9 && !d.shard.isEmpty) (look fun s => one (.merges (s.merges ++ [⟨h, workEntry s d, d.figs, none⟩]))),
    notifyCore (.ue n) h (fld (dW d 1) 4 3) (fld (dW d 1) 14 5) (fld (dW d 1) 22 15)]

theorem within_sendEnd (n h : Nat) (d : UeDesc) : Within [.merges, .packets] (sendEnd n h d) :=
  within_seq_cons (within_act (within_look fun _ => (within_one (ps := [.merges]) rfl).wider rfl))
    (within_seq_cons ((within_notifyCore ..).wider rfl) within_seq_nil)

theorem workEntry_of_beside {s t : State} (hherd : t.herd = s.herd) (hb : ∀ x, Beside x → rd t x = rd s x) (d : UeDesc) : workEntry t d = workEntry s d := by
  have hsite : voteSite t d.herd = voteSite s d.herd := by rw [voteSite, voteSite, siteAt, siteAt, herdSites, herdSites, herdOf, herdOf, hherd]
  have hvu : 0x118000 ≤ vuPage (voteSite s d.herd) := by unfold vuPage sitePage; omega
  rw [workEntry, workEntry, hsite, stBase, stBase, rd64, rd64, hb _ (beside_of (.inr (by omega))), hb _ (beside_of (.inr (by omega)))]

theorem packets_after_notifyCore_flag {s : State} {b : RingBlock} {h hidx idx c : Nat} (hc : siteAt s h (if 224 ≤ idx then 0 else hidx) = some c) :
    (after (notifyCore b h 1 hidx idx) s).packets = s.packets ++ [ringTally b h c 0 idx 0] := by
  have hsite : siteAt s h (if 1 = 1 ∧ 224 ≤ idx then 0 else hidx) = some c := by simpa using hc
  rw [notifyCore, after_look, hsite]
  dsimp only
  rw [if_pos rfl]
  rfl

theorem packets_after_notifyCore_count {s : State} {b : RingBlock} {h hidx idx c : Nat} (hc : siteAt s h hidx = some c) :
    (after (notifyCore b h 2 hidx idx) s).packets = s.packets ++ [ringTally b h c 2 (idx % 32) 1] := by
  rw [notifyCore, after_look, if_neg (by omega), hc]
  rfl

theorem packets_after_notifyCore_none {s : State} {b : RingBlock} {h hidx idx : Nat} : (after (notifyCore b h 0 hidx idx) s).packets = s.packets := by
  rw [notifyCore, after_look, if_neg (by omega)]
  split <;> rfl

/-- What the packets are once a notification of kind has left. -/
structure Notified (s t : State) (b : RingBlock) (h kind hidx idx : Nat) : Prop where
  none : kind = 0 → t.packets = s.packets
  flag : kind = 1 → ∀ c, siteAt s h (if 224 ≤ idx then 0 else hidx) = some c → t.packets = s.packets ++ [ringTally b h c 0 idx 0]
  count : kind = 2 → ∀ c, siteAt s h hidx = some c → t.packets = s.packets ++ [ringTally b h c 2 (idx % 32) 1]

theorem notified_notifyCore (s : State) (b : RingBlock) (h kind hidx idx : Nat) : Notified s (after (notifyCore b h kind hidx idx) s) b h kind hidx idx := by
  refine ⟨fun hk => ?_, fun hk c hc => ?_, fun hk c hc => ?_⟩ <;> rw [hk]
  · exact packets_after_notifyCore_none
  · exact packets_after_notifyCore_flag hc
  · exact packets_after_notifyCore_count hc

theorem Notified.of {s s' t t' : State} {b : RingBlock} {h kind hidx idx : Nat} (hn : Notified s t b h kind hidx idx) (hp : s'.packets = s.packets)
    (hherd : s'.herd = s.herd) (ht : t'.packets = t.packets) : Notified s' t' b h kind hidx idx := by
  have hsite (i : Nat) : siteAt s' h i = siteAt s h i := by rw [siteAt, siteAt, herdSites, herdSites, herdOf, herdOf, hherd]
  exact ⟨fun hk => by rw [ht, hp, hn.none hk], fun hk c hc => by rw [ht, hp, hn.flag hk c (by rwa [hsite] at hc)],
    fun hk c hc => by rw [ht, hp, hn.count hk c (by rwa [hsite] at hc)]⟩

theorem merges_after_sendEnd (s : State) (n h : Nat) (d : UeDesc) : (after (sendEnd n h d) s).merges =
      s.merges ++ (if bit (shW d 3) 9 = true ∧ d.shard ≠ [] then [⟨h, workEntry s d, d.figs, none⟩] else []) ∧
    Notified s (after (sendEnd n h d) s) (.ue n) h (fld (dW d 1) 4 3) (fld (dW d 1) 14 5) (fld (dW d 1) 22 15) := by
  have hmerge : Within [.merges] (act (bit (shW d 3) 9 && !d.shard.isEmpty) (look fun s => one (.merges (s.merges ++ [⟨h, workEntry s d, d.figs, none⟩])))) :=
    within_act (within_look fun _ => within_one rfl)
  rw [sendEnd, after_seq_cons, after_seq_cons, after_seq_nil]
  refine ⟨?_, (notified_notifyCore ..).of (hmerge.packets s).symm (hmerge.herd s).symm rfl⟩
  rw [(within_notifyCore ..).merges, after_act]
  have hiff : (bit (shW d 3) 9 && !d.shard.isEmpty) = true ↔ bit (shW d 3) 9 = true ∧ d.shard ≠ [] := by
    rw [Bool.and_eq_true, Bool.not_eq_true', List.isEmpty_eq_false_iff]
  by_cases hc : bit (shW d 3) 9 = true ∧ d.shard ≠ []
  · rw [if_pos (hiff.mpr hc), if_pos hc]
    rfl
  · rw [if_neg (fun h => hc (hiff.mp h)), if_neg hc, List.append_nil]

/-! ## UE_DESCRIPTOR_END -/

/-- What an end without a fault counts at its engine. -/
def countEnd (n : Nat) (d : UeDesc) : Act :=
  seq [count (uePage n) 2 1, act (decide (d.status = 1) || decide (d.status = 2)) (count (uePage n) 3 1)]

/-- What an end with a fault reports, and the halt of its ring. -/
def faultEnd (n h : Nat) (d : UeDesc) : Act :=
  seq [raise (uePage n) { cls := statusClass d.status, addr := some d.addr, herd := some h, detail := some (dGroup d + 65536 * d.status) },
    setIst (uePage n) 8, haltRing n h d.status, count (uePage n) 5 1]

section
variable {s : State} (hs : Ready s) (n : PortNo) (h : HerdNo) {d : UeDesc} {f : Nat} (hd : descOf s n.val h.val = some d) (hphase : d.phase = 4)
  (hj : judge s h.val (dCpl d / 16 * 16 / 65536) true = .frame f) (hp : Plain s)
include hd hphase hj

theorem after_actUeDescriptorEnd : after (actUeDescriptorEnd n.val h.val) s =
    after (look fun s => one (.desc (s.desc.filter (fun x => decide (x ≠ d)))))
      (after (if d.status < 0x80 then countEnd n.val d else faultEnd n.val h.val d)
        (after (snapRecord h.val (dGroup d) (dStep d).toNat d.status d.changed d.done)
          (after (act (!rowFaulted d) (sendEnd n.val h.val d)) (after (putRecord h.val (dCpl d / 16 * 16) (completionOf d)) s)))) := by
  rw [actUeDescriptorEnd, after_look, hd]
  dsimp only
  rw [if_neg (not_not.mpr hphase), engWriteJudge_frame hj (by decide) (by omega), if_neg nofun]
  iterate 5 rw [after_seq_cons]
  rw [after_seq_nil]
  rfl

include hs hp

theorem does_descriptorEnd (hst : d.status < 0x80) :
    Does (.ueDescriptorEnd n h) s [.ctl, .mergeBuf, .touched, .packets, .merges, .snap, .desc] fun t =>
      t.desc = s.desc.filter (fun x => decide (x ≠ d)) ∧ devRead t (65536 * f + dCpl d / 16 * 16 % 65536) 16 = some (completionOf d) ∧
      t.merges = s.merges ++ (if bit (shW d 3) 9 = true ∧ d.shard ≠ [] then [⟨h.val, workEntry s d, d.figs, none⟩] else []) ∧
      Notified s t (.ue n.val) h.val (fld (dW d 1) 4 3) (fld (dW d 1) 14 5) (fld (dW d 1) 22 15) := by
  have hrow : rowFaulted d = false := by rw [rowFaulted, decide_eq_false (by omega)]; rfl
  have hbody := after_actUeDescriptorEnd n h hd hphase hj
  rw [if_pos hst, hrow] at hbody
  have hput := recordPut_putRecord hp (h := h.val) (a := dCpl d / 16 * 16) (by omega) hj (length_completionOf d)
  generalize after (putRecord h.val (dCpl d / 16 * 16) (completionOf d)) s = w at hbody hput
  have hherd : w.herd = s.herd := hput.only .herd rfl
  obtain ⟨hmerges, hnote⟩ := merges_after_sendEnd w n.val h.val d
  have hsend : after (act (!false) (sendEnd n.val h.val d)) w = after (sendEnd n.val h.val d) w := rfl
  rw [hsend] at hbody
  have hsent := within_sendEnd n.val h.val d
  have hsame := sameTable_within hsent w
  have hsonly := hsent.onlyIn w
  generalize after (sendEnd n.val h.val d) w = x at hbody hmerges hnote hsame hsonly
  have hsnap : Within [.snap] (snapRecord h.val (dGroup d) (dStep d).toNat d.status d.changed d.done) := within_snapRecord ..
  have hsame2 := hsame.trans (sameTable_within hsnap x)
  have hyonly := hsnap.onlyIn x
  generalize after (snapRecord h.val (dGroup d) (dStep d).toNat d.status d.changed d.done) x = y at hbody hsame2 hyonly
  have hcount : Within [.ctl] (countEnd n.val d) :=
    within_seq_cons (within_count ..) (within_seq_cons (within_act (within_count ..)) within_seq_nil)
  have hue : uePage n.val % 4096 = 0 := by unfold uePage; omega
  have hsame3 : SameTable y (after (countEnd n.val d) y) :=
    ⟨fun _ _ x hx => (keeps_seq_cons ((portReg_above hx).count hue (by decide) _)
        (keeps_seq_cons (keeps_act fun _ => (portReg_above hx).count hue (by decide) _) keeps_seq_nil) : KeepsReg x (countEnd n.val d)).eq y,
      hcount.straps y, hcount.memory y, hcount.chk y, hcount.mergeBuf y⟩
  have hzonly := hcount.onlyIn y
  generalize after (countEnd n.val d) y = z at hbody hsame3 hzonly
  have hlast : Within [.desc] (look fun s => one (.desc (s.desc.filter (fun x => decide (x ≠ d))))) := within_look fun _ => within_one rfl
  have hdesc : z.desc = s.desc := Eq.trans (hzonly .desc rfl) (Eq.trans (hyonly .desc rfl) (Eq.trans (hsonly .desc rfl) (hput.only .desc rfl)))
  refine does_of_run hs.1 (a := actUeDescriptorEnd n.val h.val) rfl ?_ ?_ <;> rw [hbody]
  · exact (hput.only.wider rfl).trans ((hsonly.wider rfl).trans ((hyonly.wider rfl).trans ((hzonly.wider rfl).trans ((hlast.onlyIn z).wider rfl))))
  · have hpz : z.packets = x.packets := Eq.trans (hzonly .packets rfl) (hyonly .packets rfl)
    have hmz : z.merges = x.merges := Eq.trans (hzonly .merges rfl) (hyonly .merges rfl)
    refine ⟨?_, ?_, ?_, hnote.of (hput.only .packets rfl).symm hherd.symm ((hlast.packets z).trans hpz)⟩
    · rw [after_look, ← hdesc]
      rfl
    · rw [(sameTable_within hlast z).devRead, hsame3.devRead, hsame2.devRead]
      exact hput.data
    · rw [hlast.merges, hmz, hmerges, workEntry_of_beside hherd hput.beside, show w.merges = s.merges from hput.only .merges rfl]

omit hd hphase hj hs hp in
theorem statusClass_code (st : Nat) : (statusClass st).code ≠ 7 ∧ (statusClass st).code ≠ 8 ∧ statusClass st ≠ .uncorrFatal := by
  unfold statusClass
  split <;> decide

omit hd hphase hj hs hp in
/-- The ring halts with the status, and the engine's page shows the fault. -/
theorem reported_faultEnd (s : State) : bit (rd (after (faultEnd n.val h.val d) s) (ringAddr n.val h.val + 4)) 30 = true ∧
    rd (after (faultEnd n.val h.val d) s) (ringAddr n.val h.val + 12) = BitVec.ofNat 32 d.status ∧
    bit (rd (after (faultEnd n.val h.val d) s) (uePage n.val + 0x20)) 8 = true ∧
    bit (rd (after (faultEnd n.val h.val d) s) (uePage n.val + 0x20)) (statusClass d.status).code = true := by
  obtain ⟨h7, h8, hfatal⟩ := statusClass_code d.status
  have hring : ringAddr n.val h.val = uePage n.val + 0x200 + 16 * h.val := by rw [ringAddr, if_pos n.isLt]
  obtain ⟨c, hc⟩ : ∃ c : Capture, c = { cls := statusClass d.status, addr := some d.addr, herd := some h.val
                                        detail := some (dGroup d + 65536 * d.status) } := ⟨_, rfl⟩
  have hcls : c.cls = statusClass d.status := hc ▸ rfl
  have hbody : after (faultEnd n.val h.val d) s = after (count (uePage n.val) 5 1) (after (haltRing n.val h.val d.status)
      (after (setIst (uePage n.val) 8) (after (raise (uePage n.val) c) s))) := by
    rw [faultEnd, ← hc]
    iterate 4 rw [after_seq_cons]
    rw [after_seq_nil]
  rw [hbody, haltRing, after_seq_cons, after_seq_cons, after_seq_nil]
  have hclass := bit_after_raise s (p := uePage n.val) (c := c) fun he => absurd (hcls ▸ he) hfatal
  generalize after (raise (uePage n.val) c) s = u at hclass
  refine ⟨?_, ?_, ?_, ?_⟩
  · rw [(keepsReg_count (by omega) (by omega) (by omega) _).eq, (keepsReg_wr (by omega) _).eq, after_wrBit, rd_ctl_same, bit_setBit_same _ (by decide)]
  · rw [(keepsReg_count (by omega) (by omega) (by omega) _).eq, after_wr, rd_ctl_same]
  · rw [(keeps_istBit_count _ _ _ (by decide) (by decide)).eq, (keepsReg_wr (by omega) _).eq, (keepsReg_wrBit (by omega) ..).eq, after_setIst, rd_ctl_same,
      bit_setBit_same _ (by decide)]
  · rw [(keeps_istBit_count _ _ _ h7 (by decide)).eq, (keepsReg_wr (by omega) _).eq, (keepsReg_wrBit (by omega) ..).eq, after_setIst, rd_ctl_same,
      bit_setBit_other _ (by decide) h8, ← hcls, hclass]

theorem does_descriptorEnd_fault (hst : 0x80 ≤ d.status) :
    Does (.ueDescriptorEnd n h) s [.ctl, .mergeBuf, .touched, .merges, .packets, .snap, .desc, .dumpRun, .freeCtr] fun t =>
      t.desc = s.desc.filter (fun x => decide (x ≠ d)) ∧ bit (rd t (ringAddr n.val h.val + 4)) 30 = true ∧
      rd t (ringAddr n.val h.val + 12) = BitVec.ofNat 32 d.status ∧ bit (rd t (uePage n.val + 0x20)) 8 = true ∧
      bit (rd t (uePage n.val + 0x20)) (statusClass d.status).code = true ∧ (d.status ≤ 0x82 → t.packets = s.packets ∧ t.merges = s.merges) := by
  have hbody := after_actUeDescriptorEnd n h hd hphase hj
  rw [if_neg (by omega)] at hbody
  have hput := recordPut_putRecord hp (h := h.val) (a := dCpl d / 16 * 16) (by omega) hj (length_completionOf d)
  generalize after (putRecord h.val (dCpl d / 16 * 16) (completionOf d)) s = w at hbody hput
  have hsent : Within [.merges, .packets] (act (!rowFaulted d) (sendEnd n.val h.val d)) := within_act (within_sendEnd ..)
  have hsonly := hsent.onlyIn w
  have hsilent (hrow : d.status ≤ 0x82) : after (act (!rowFaulted d) (sendEnd n.val h.val d)) w = w := by
    rw [after_act, rowFaulted, decide_eq_true hst, decide_eq_true hrow, if_neg (by decide)]
  generalize after (act (!rowFaulted d) (sendEnd n.val h.val d)) w = x at hbody hsonly hsilent
  have hsnap : Within [.snap] (snapRecord h.val (dGroup d) (dStep d).toNat d.status d.changed d.done) := within_snapRecord ..
  have hyonly := hsnap.onlyIn x
  generalize after (snapRecord h.val (dGroup d) (dStep d).toNat d.status d.changed d.done) x = y at hbody hyonly
  have hfault : Within [.ctl, .dumpRun, .freeCtr] (faultEnd n.val h.val d) :=
    within_seq_cons (within_raise ..) (within_seq_cons ((within_setIst ..).wider rfl) (within_seq_cons ((within_haltRing ..).wider rfl)
      (within_seq_cons ((within_count ..).wider rfl) within_seq_nil)))
  obtain ⟨h1, h2, h3, h4⟩ := reported_faultEnd (d := d) n h y
  have hzonly := hfault.onlyIn y
  generalize after (faultEnd n.val h.val d) y = z at hbody h1 h2 h3 h4 hzonly
  have hlast : Within [.desc] (look fun s => one (.desc (s.desc.filter (fun x => decide (x ≠ d))))) := within_look fun _ => within_one rfl
  have hdesc : z.desc = s.desc := Eq.trans (hzonly .desc rfl) (Eq.trans (hyonly .desc rfl) (Eq.trans (hsonly .desc rfl) (hput.only .desc rfl)))
  refine does_of_run hs.1 (a := actUeDescriptorEnd n.val h.val) rfl ?_ ?_ <;> rw [hbody]
  · exact (hput.only.wider rfl).trans ((hsonly.wider rfl).trans ((hyonly.wider rfl).trans ((hzonly.wider rfl).trans ((hlast.onlyIn z).wider rfl))))
  · refine ⟨?_, ?_, ?_, ?_, ?_, fun hrow => ⟨?_, ?_⟩⟩
    · rw [after_look, ← hdesc]
      rfl
    · rw [(hlast.keepsReg _).rd, h1]
    · rw [(hlast.keepsReg _).rd, h2]
    · rw [(hlast.keepsReg _).rd, h3]
    · rw [(hlast.keepsReg _).rd, h4]
    · have hxw := hsilent hrow
      rw [hlast.packets, show z.packets = y.packets from hzonly .packets rfl, show y.packets = x.packets from hyonly .packets rfl, hxw]
      exact hput.only .packets rfl
    · have hxw := hsilent hrow
      rw [hlast.merges, show z.merges = y.merges from hzonly .merges rfl, show y.merges = x.merges from hyonly .merges rfl, hxw]
      exact hput.only .merges rfl

end

end Sys2Proof.Machine
end

section
/-! Programs are loaded into an engine, and replace those in use (R339, R340); O32. -/

namespace Sys2Proof.Machine

-- One declaration after the other: elaborated side by side they take more memory than the check has.
set_option Elab.async false

/-! ## UE_PLOAD_GO -/

theorem regDef_pload (n : Nat) : regDef (.ue n) 0x118 = some ⟨0x118, 1, 4, 0xFFFF, 0, 0, 0x60000000, 0, 0⟩ := by
  rw [regDef, if_neg (by simp [Block.isWindow]), if_neg (by decide), if_neg (by decide)]
  rfl

theorem blockOf_uePage (s : State) (n : PortNo) : blockOf s (uePage n.val / 4096) = .ue n.val := by
  have hblock : pageBlock (uePage n.val / 4096) = .ue n.val := (by decide : ∀ n : PortNo, pageBlock (uePage n.val / 4096) = .ue n.val) n
  rw [blockOf, hblock]
  rfl

theorem does_uePloadGo {s : State} (hs : Ready s) (n : PortNo) {v : Word} (ht : Takes s (uePage n.val / 4096)) (h31 : bit v 31 = true)
    (hsum : fld v 7 0 + fld v 15 8 ≤ 255) : Does (.uePloadGo .ringCtl n v) s [.ctl] fun t => bit (rd t (uePage n.val + 0x118)) 30 = true ∧
      fld (rd t (uePage n.val + 0x118)) 15 0 = fld v 15 0 ∧ RegsAt [uePage n.val + 0x118] s t := by
  have hpage : (uePage n.val + 0x118) / 4096 = uePage n.val / 4096 := by unfold uePage; omega
  have hoff : (uePage n.val + 0x118) % 4096 = 0x118 := by unfold uePage; omega
  have hdef : regDef (blockOf s (uePage n.val / 4096)) ((uePage n.val + 0x118) % 4096) = some ⟨0x118, 1, 4, 0xFFFF, 0, 0, 0x60000000, 0, 0⟩ := by
    rw [blockOf_uePage, hoff, regDef_pload]
  have he : after (uePloadWrite .ringCtl n.val v) s = after (act (!bit (rd s (uePage n.val + 0x118)) 30) (wrBit (uePage n.val + 0x118) 30 true))
      (after (maskWrite (blockOf s (uePage n.val / 4096)) (uePage n.val + 0x118) v) s) := by
    rw [uePloadWrite, after_look]
    dsimp only
    rw [h31, decide_eq_false (by omega), Bool.and_false, if_neg Bool.false_ne_true, after_seq_cons, after_seq_cons, after_seq_nil, Bool.true_and, hpage]
  have hfld := fld_after_maskWrite hdef rfl rfl (hi := 15) (lo := 0) (by decide) (fun i _ hi => by interval_cases i <;> decide) v s
  have hbusy : bit (rd (after (maskWrite (blockOf s (uePage n.val / 4096)) (uePage n.val + 0x118) v) s) (uePage n.val + 0x118)) 30 =
      bit (rd s (uePage n.val + 0x118)) 30 := by
    rw [after_maskWrite hdef, rd_ctl_same]
    simp [bit_or, bit_and, bit_ofNat, Nat.testBit]
  have hmask : Within [.ctl] (maskWrite (blockOf s (uePage n.val / 4096)) (uePage n.val + 0x118) v) := within_maskWrite ..
  have hregs (x : Nat) (hx : x ≠ uePage n.val + 0x118) := (keepsReg_maskWrite hx (blockOf s (uePage n.val / 4096)) v).eq s
  have honly := hmask.onlyIn s
  generalize after (maskWrite (blockOf s (uePage n.val / 4096)) (uePage n.val + 0x118) v) s = u at he hfld hbusy hregs honly
  have hact : Within [.ctl] (act (!bit (rd s (uePage n.val + 0x118)) 30) (wrBit (uePage n.val + 0x118) 30 true)) := within_act (within_wrBit ..)
  refine does_guarded_ring hs ht hpage rfl ?_ ?_ <;> rw [he]
  · exact honly.trans (hact.onlyIn u)
  · refine ⟨?_, ?_, fun x hx => ?_⟩
    · cases hb : bit (rd s (uePage n.val + 0x118)) 30 with
      | true => rw [after_act, if_neg (by decide), hbusy, hb]
      | false => rw [after_act, if_pos (by decide), after_wrBit, rd_ctl_same, bit_setBit_same _ (by decide)]
    · rw [after_act]
      split
      · rw [after_wrBit, rd_ctl_same, fld_setBit_other _ (by decide) (.inl (by decide)), hfld]
      · exact hfld
    · have hne : x ≠ uePage n.val + 0x118 := by simpa using hx
      rw [(keeps_act fun _ => keepsReg_wrBit hne ..).eq, hregs x hne]

/-! ## A program takes its place in the store (R339) -/

/-- Program p of engine n holds ws, and every other program its own words. -/
structure ProgramPut (s t : State) (n p : Nat) (ws : List Word) : Prop where
  words : progWords t n p = ws
  others : ∀ m q i, i < 32 → q < 256 → (m, q) ≠ (n, p) → progWord t m q i = progWord s m q i

theorem prog_after_each (s : State) (a : Nat) (ws : List Word) (x : Nat) :
    mGetD (after (each ws.zipIdx fun q => one (.prog (a + q.2) q.1)) s).prog x 0 =
      if a ≤ x ∧ x < a + ws.length then ws.getD (x - a) 0 else mGetD s.prog x 0 :=
  read_after_eachFrom (f := fun s x => mGetD s.prog x 0) (u := .prog) (fun s k v j => by
    split
    case isTrue h => rw [h]; exact mGetD_mSet_same ..
    case isFalse h => exact mGetD_mSet_other _ h ..) a 0 ws 0 s x

theorem programPut_putProgram {n p : Nat} (hp : p < 256) {ws : List Word} (hws : ws.length = 32) (ok : Bool) (s : State) :
    ProgramPut s (after (putProgram n p ws ok) s) n p ws ∧ progValid (after (putProgram n p ws ok) s) n p = ok := by
  rw [putProgram, after_seq_cons, after_seq_cons, after_seq_nil, List.take_of_length_le (by omega)]
  have hbit : Within [.ctl] (wrBit (uePage n + 0x120 + 4 * (p / 32)) (p % 32) ok) := within_wrBit ..
  have hword (m q i : Nat) : progWord (after (wrBit (uePage n + 0x120 + 4 * (p / 32)) (p % 32) ok)
      (after (each ws.zipIdx fun q => one (.prog ((256 * n + p) * 32 + q.2) q.1)) s)) m q i =
      if (256 * n + p) * 32 ≤ (256 * m + q) * 32 + i ∧ (256 * m + q) * 32 + i < (256 * n + p) * 32 + 32 then
        ws.getD ((256 * m + q) * 32 + i - (256 * n + p) * 32) 0 else progWord s m q i := by
    rw [progWord, hbit.prog, prog_after_each, hws, progWord]
  refine ⟨⟨?_, fun m q i hi hq hne => ?_⟩, ?_⟩
  · rw [progWords]
    refine (List.map_congr_left fun i hi => ?_).trans (map_range_getD hws 0)
    have := List.mem_range.mp hi
    rw [hword, if_pos (by omega), Nat.add_sub_cancel_left]
  · rw [hword, if_neg]
    intro hc
    have : m = n ∧ q = p := by omega
    exact hne (by rw [this.1, this.2])
  · rw [progValid, after_wrBit, rd_ctl_same, bit_setBit_same _ (Nat.mod_lt _ (by decide))]

theorem ProgramPut.within {s s' t t' : State} {n p : Nat} {ws : List Word} (h : ProgramPut s t n p ws) (hs : s.prog = s'.prog) (ht : t'.prog = t.prog) :
    ProgramPut s' t' n p ws := by
  have hword (u v : State) (huv : u.prog = v.prog) (m q i : Nat) : progWord u m q i = progWord v m q i := by rw [progWord, progWord, huv]
  refine ⟨?_, fun m q i hi hq hne => ?_⟩
  · rw [← h.words, progWords, progWords]
    exact List.map_congr_left fun i _ => hword _ _ ht ..
  · rw [hword _ _ ht, h.others m q i hi hq hne, hword _ _ hs]

/-! ## UE_PLOAD_DONE and PROGRAM_REPLACE -/

section
variable {s : State} (hs : Ready s) (n : PortNo) {p : Nat} {bs : List Byte} (hbusy : bit (rd s (uePage n.val + 0x118)) 30 = true)
  (hone : fld (rd s (uePage n.val + 0x118)) 15 8 = 0) (hp : p = fld (rd s (uePage n.val + 0x118)) 7 0)
  (himage : ringRange s (rd64 s (uePage n.val + 0x110)).toNat 128 = some bs)

/-- The end of a load of one program. -/
def loadEnd (n p : Nat) (bs : List Byte) : Act :=
  seq [loadProgram n p (leWords 32 bs) (progOk (leWords 32 bs)), wrBit (uePage n + 0x118) 30 false, endLoad n (!progOk (leWords 32 bs))]

include hbusy hone hp himage

theorem after_actUePloadDone : ∃ u, OnlyIn [.ctl, .mem, .chk, .mergeBuf, .dumpRun, .freeCtr] s u ∧
    after (actUePloadDone n.val) s = after (loadEnd n.val p bs) u := by
  have hreads : Within [.ctl, .mem, .chk, .mergeBuf, .dumpRun, .freeCtr] (ringReadActs (rd64 s (uePage n.val + 0x110)).toNat (128 * (0 + 1))) :=
    within_ringReadActs ..
  refine ⟨_, hreads.onlyIn s, ?_⟩
  rw [actUePloadDone, after_look]
  dsimp only
  rw [hbusy, hone, ← hp, if_neg (by decide), List.range_one, List.map_cons, List.map_nil, Nat.mul_zero, Nat.add_zero p,
    Nat.add_zero (rd64 s _).toNat, himage, List.any_cons,
    List.any_nil, Bool.or_false, after_seq_cons, after_seq_cons, after_seq_cons, after_seq_cons, after_seq_nil, after_each_cons, after_each_nil, loadEnd,
    after_seq_cons, after_seq_cons, after_seq_cons, after_seq_nil]

omit hbusy hone hp himage in
theorem progUsed_congr {s t : State} (h : t.desc = s.desc) (n p : Nat) : progUsed t n p = progUsed s n p := by rw [progUsed, progUsed, h]

omit hbusy hone hp himage in
/-- The control word once the load has ended. -/
theorem rd_after_endLoad (err : Bool) (s : State) :
    bit (rd (after (endLoad n.val err) (after (wrBit (uePage n.val + 0x118) 30 false) s)) (uePage n.val + 0x118)) 30 = false ∧
    bit (rd (after (endLoad n.val err) (after (wrBit (uePage n.val + 0x118) 30 false) s)) (uePage n.val + 0x118)) 29 = err := by
  rw [endLoad, after_seq_cons, after_seq_cons, after_seq_nil, (keepsReg_setIst (by omega) _).eq, after_wrBit, rd_ctl_same, after_wrBit, rd_ctl_same,
    bit_setBit_other _ (by decide) (by decide), bit_setBit_same _ (by decide), bit_setBit_same _ (by decide)]
  exact ⟨rfl, rfl⟩

omit hbusy hone hp himage in
theorem within_endLoad_busy (err : Bool) : Within [.ctl] (seq [wrBit (uePage n.val + 0x118) 30 false, endLoad n.val err]) :=
  within_seq_cons (within_wrBit ..) (within_seq_cons (within_endLoad ..) within_seq_nil)

include hs

theorem does_uePloadDone_stored (hfree : progUsed s n.val p = false) :
    Does (.uePloadDone n) s [.ctl, .mem, .chk, .mergeBuf, .prog, .progPend, .dumpRun, .freeCtr] fun t => ProgramPut s t n.val p (leWords 32 bs) ∧
      progWaits t n.val p = false ∧ progValid t n.val p = progOk (leWords 32 bs) ∧ bit (rd t (uePage n.val + 0x118)) 30 = false ∧
      bit (rd t (uePage n.val + 0x118)) 29 = (!progOk (leWords 32 bs)) := by
  have hp256 : p < 256 := hp ▸ fld_lt _ 7 0
  obtain ⟨u, huonly, hbody⟩ := after_actUePloadDone n hbusy hone hp himage
  obtain ⟨v, hv⟩ : ∃ v, v = after (one (.progPend (u.progPend.filter (fun q => !(decide (q.eng = n.val) && decide (q.index = p)))))) u := ⟨_, rfl⟩
  have hvonly : OnlyIn [.progPend] u v := hv ▸ (within_one rfl).onlyIn u
  have hload : after (loadProgram n.val p (leWords 32 bs) (progOk (leWords 32 bs))) u =
      after (putProgram n.val p (leWords 32 bs) (progOk (leWords 32 bs))) v := by
    rw [loadProgram, after_look]
    dsimp only
    rw [progUsed_congr (huonly .desc rfl), hfree, if_neg Bool.false_ne_true, after_seq_cons, after_seq_cons, after_seq_nil, ← hv]
  obtain ⟨hput, hvalid⟩ := programPut_putProgram (n := n.val) hp256 (length_leWords 32 bs) (progOk (leWords 32 bs)) v
  have hputw := within_putProgram n.val p (leWords 32 bs) (progOk (leWords 32 bs))
  rw [loadEnd, after_seq_cons, hload] at hbody
  have hpend : (after (putProgram n.val p (leWords 32 bs) (progOk (leWords 32 bs))) v).progPend =
      u.progPend.filter (fun q => !(decide (q.eng = n.val) && decide (q.index = p))) := (hputw.progPend v).trans (hv ▸ rfl)
  have hwonly := hputw.onlyIn v
  generalize after (putProgram n.val p (leWords 32 bs) (progOk (leWords 32 bs))) v = w at hbody hput hvalid hpend hwonly
  have hend := within_endLoad_busy n (!progOk (leWords 32 bs))
  have hprog : v.prog = s.prog := Eq.trans (hvonly .prog rfl) (huonly .prog rfl)
  refine does_of_run hs.1 (a := actUePloadDone n.val) rfl ?_ ?_ <;> rw [hbody]
  · exact (huonly.wider rfl).trans ((hvonly.wider rfl).trans ((hwonly.wider rfl).trans ((hend.onlyIn w).wider rfl)))
  · refine ⟨hput.within hprog (hend.prog w), ?_, ?_, ?_⟩
    · rw [progWaits, hend.progPend, hpend, List.any_filter, List.any_eq_false]
      intro q _
      rw [Bool.not_and_self]
      exact Bool.false_ne_true
    · have hkeep : KeepsReg (uePage n.val + 0x120 + 4 * (p / 32)) (seq [wrBit (uePage n.val + 0x118) 30 false, endLoad n.val (!progOk (leWords 32 bs))]) :=
        keeps_seq_cons (keepsReg_wrBit (by omega) ..) (keeps_seq_cons (keeps_seq_cons (keepsReg_wrBit (by omega) ..)
          (keeps_seq_cons (keepsReg_setIst (by omega) _) keeps_seq_nil)) keeps_seq_nil)
      rw [progValid, hkeep.eq, ← progValid, hvalid]
    · rw [after_seq_cons, after_seq_cons, after_seq_nil]
      exact rd_after_endLoad n _ w

theorem does_uePloadDone_waits (hused : progUsed s n.val p = true) :
    Does (.uePloadDone n) s [.ctl, .mem, .chk, .mergeBuf, .progPend, .dumpRun, .freeCtr] fun t =>
      progWaits t n.val p = true ∧ bit (rd t (uePage n.val + 0x118)) 30 = false := by
  obtain ⟨u, huonly, hbody⟩ := after_actUePloadDone n hbusy hone hp himage
  obtain ⟨q, hq⟩ : ∃ q : ProgPend, q = ⟨n.val, p, leWords 32 bs, progOk (leWords 32 bs)⟩ := ⟨_, rfl⟩
  obtain ⟨v, hv⟩ : ∃ v, v = after (one (.progPend (u.progPend.filter (fun q => !(decide (q.eng = n.val) && decide (q.index = p))) ++ [q]))) u := ⟨_, rfl⟩
  have hvonly : OnlyIn [.progPend] u v := hv ▸ (within_one rfl).onlyIn u
  have hload : after (loadProgram n.val p (leWords 32 bs) (progOk (leWords 32 bs))) u = v := by
    rw [loadProgram, after_look]
    dsimp only
    rw [progUsed_congr (huonly .desc rfl), hused, if_pos rfl, ← hq, ← hv]
  have hpend : v.progPend = u.progPend.filter (fun q => !(decide (q.eng = n.val) && decide (q.index = p))) ++ [q] := hv ▸ rfl
  rw [loadEnd, after_seq_cons, hload] at hbody
  have hend := within_endLoad_busy n (!progOk (leWords 32 bs))
  refine does_of_run hs.1 (a := actUePloadDone n.val) rfl ?_ ?_ <;> rw [hbody]
  · exact (huonly.wider rfl).trans ((hvonly.wider rfl).trans ((hend.onlyIn v).wider rfl))
  · refine ⟨?_, ?_⟩
    · rw [progWaits, hend.progPend, hpend, List.any_append, hq]
      simp
    · rw [after_seq_cons, after_seq_cons, after_seq_nil]
      exact (rd_after_endLoad n _ v).1

end

theorem does_programReplace {s : State} (hs : Ready s) (n : PortNo) {q : ProgPend}
    (hq : s.progPend.find? (fun q => decide (q.eng = n.val) && !progUsed s n.val q.index) = some q) (hlen : q.words.length = 32) (hi : q.index < 256) :
    Does (.programReplace n) s [.ctl, .prog, .progPend] fun t => progWords t n.val q.index = q.words ∧ progValid t n.val q.index = q.valid ∧
      t.progPend = s.progPend.erase q := by
  have hbody : after (actProgramReplace n.val) s = after (one (.progPend (s.progPend.erase q))) (after (putProgram n.val q.index q.words q.valid) s) := by
    rw [actProgramReplace, after_look, hq]
    dsimp only
    rw [after_seq_cons, after_seq_cons, after_seq_nil]
  have hpend : Within [.progPend] (one (.progPend (s.progPend.erase q))) := within_one rfl
  have hputw := within_putProgram n.val q.index q.words q.valid
  obtain ⟨hput, hvalid⟩ := programPut_putProgram (n := n.val) hi hlen q.valid s
  refine does_of_run hs.1 (a := actProgramReplace n.val) rfl ?_ ?_ <;> rw [hbody]
  · exact ((hputw.onlyIn s).wider rfl).trans ((hpend.onlyIn _).wider rfl)
  · refine ⟨(hput.within rfl (hpend.prog _)).words, ?_, rfl⟩
    rw [progValid, (hpend.keepsReg _).rd, ← progValid, hvalid]

/-- Settles O32: a batch by its three outcomes, the end of a descriptor by its status, and the loads of programs by whether the program is used. -/
theorem descriptorsEndProgramsLoad : Obligations.DescriptorsEndProgramsLoad := by
  refine ⟨⟨fun s hs n h d hd hphase hdue hturn => ⟨fun bs hends hsome => does_batch hs n h hd hphase hdue hturn hends hsome,
      fun bs hends hnone => does_batch_passed hs n h hd hphase hdue hturn hends hnone,
      fun st hends => does_batch_failed hs n h hd hphase hdue hturn hends⟩,
    fun s hs n h d f hd hphase hj _ hfree hbuf => ⟨fun hst => ?_, fun hst => ?_⟩⟩,
    fun s hs n v ht h31 hsum => does_uePloadGo hs n ht h31 hsum, fun s hs n p bs hbusy hone hp himage => ⟨fun hfree => ?_, fun hused => ?_⟩,
    fun s hs n q hq hlen hi => does_programReplace hs n hq hlen hi⟩
  · obtain ⟨t, hstep, honly, hdesc, hdata, hmerges, hnote⟩ := does_descriptorEnd hs n h hd hphase hj (plain_of_errorFree hfree hbuf) hst
    exact ⟨t, hstep, honly, hdesc, hdata, hmerges, hnote.none, hnote.flag, hnote.count⟩
  · exact does_descriptorEnd_fault hs n h hd hphase hj (plain_of_errorFree hfree hbuf) hst
  · obtain ⟨t, hstep, honly, hput, hwaits, hvalid, h30, h29⟩ := does_uePloadDone_stored hs n hbusy hone hp himage hfree
    exact ⟨t, hstep, honly, hput.words, hwaits, hvalid, h30, h29, hput.others⟩
  · exact does_uePloadDone_waits hs n hbusy hone hp himage hused

end Sys2Proof.Machine
end

section
/-! Collectives are taken and start: how one is replaced, what its rings depend on, and its first pass (R483 to R487); O44. -/

namespace Sys2Proof.Machine

-- One declaration after the other: elaborated side by side they take more memory than the check has.
set_option Elab.async false

/-! ## A collective is replaced -/

theorem collIs_after_setColl (c d : Collective) (s : State) : CollIs s (after (setColl c d) s) c d := by
  rw [CollIs, setColl, after_look]
  rfl

theorem CollIs.of_coll {s t u : State} {c d : Collective} (h : CollIs t u c d) (ht : t.coll = s.coll) : CollIs s u c d := by rw [CollIs, h, ht]

theorem CollIs.later {s t u : State} {c d : Collective} (h : CollIs s t c d) (hu : u.coll = t.coll) : CollIs s u c d := by rw [CollIs, hu, h]

/-- A collective replaced twice, where its first form was no other's. -/
theorem CollIs.trans {s t u : State} {c d e : Collective} (h : CollIs s t c d) (h' : CollIs t u d e) (hd : d ∉ s.coll) : CollIs s u c e := by
  rw [CollIs, h', h, List.map_map]
  refine List.map_congr_left fun x hx => ?_
  have hxd : x ≠ d := fun hc => hd (hc ▸ hx)
  rw [Function.comp_apply]
  by_cases hxc : x = c
  · rw [if_pos hxc, if_pos hxc, if_pos rfl]
  · rw [if_neg hxc, if_neg hxc, if_neg hxd]

/-- The first element with a property, once it is replaced by another with it. -/
theorem find?_replaced {α : Type} [DecidableEq α] {p : α → Bool} {c d : α} {xs : List α} (hc : xs.find? p = some c) (hd : p d = true) :
    (xs.map fun x => if x = c then d else x).find? p = some d := by
  induction xs with
  | nil => cases hc
  | cons x xs ih =>
    rw [List.map_cons]
    rw [List.find?_cons] at hc
    split at hc
    case h_1 hpx =>
      cases hc
      rw [if_pos rfl, List.find?_cons_of_pos hd]
    case h_2 hpx =>
      have hne : x ≠ c := fun he => by
        rw [he, List.find?_some hc] at hpx
        cases hpx
      rw [if_neg hne, List.find?_cons_of_neg (by rw [hpx]; exact Bool.false_ne_true), ih hc]

/-- An element that comes to have a property that none had. -/
theorem find?_replaced_new {α : Type} [DecidableEq α] {p : α → Bool} {c d : α} {xs : List α} (hnone : xs.find? p = none) (hc : c ∈ xs)
    (hd : p d = true) : (xs.map fun x => if x = c then d else x).find? p = some d := by
  induction xs with
  | nil => cases hc
  | cons x xs ih =>
    obtain ⟨hx, hxs⟩ := List.forall_mem_cons.mp (List.find?_eq_none.mp hnone)
    rw [List.map_cons]
    by_cases he : x = c
    · rw [if_pos he, List.find?_cons_of_pos hd]
    · rw [if_neg he, List.find?_cons_of_neg hx]
      exact ih (List.find?_eq_none.mpr hxs) ((List.mem_cons.mp hc).resolve_left (Ne.symm he))

/-- A collective of herd h and this cid that runs. -/
def Runs (c : Collective) (h cid : Nat) : Prop := c.herd = h ∧ cCid c = cid ∧ c.started = true ∧ c.finished = false

theorem runs_iff (c : Collective) (h cid : Nat) :
    (decide (c.herd = h) && decide (cCid c = cid) && c.started && !c.finished) = true ↔ Runs c h cid := by
  simp [Runs, and_assoc]

theorem runs_of_collOf {s : State} {h cid : Nat} {c : Collective} (hc : collOf s h cid = some c) : Runs c h cid := by
  have hp := List.find?_some hc
  exact (runs_iff c h cid).mp hp

theorem mem_of_collOf {s : State} {h cid : Nat} {c : Collective} (hc : collOf s h cid = some c) : c ∈ s.coll := List.mem_of_find?_eq_some hc

theorem collOf_of_coll {s t : State} (h : t.coll = s.coll) (g cid : Nat) : collOf t g cid = collOf s g cid := by rw [collOf, collOf, h]

theorem CollIs.collOf {s t : State} {h cid : Nat} {c d : Collective} (ht : CollIs s t c d) (hc : collOf s h cid = some c) (hd : Runs d h cid) :
    collOf t h cid = some d := by
  rw [Machine.collOf, ht]
  exact find?_replaced hc ((runs_iff d h cid).mpr hd)

theorem CollIs.collOf_new {s t : State} {h cid : Nat} {c d : Collective} (ht : CollIs s t c d) (hnone : Machine.collOf s h cid = none)
    (hc : c ∈ s.coll) (hd : Runs d h cid) : Machine.collOf t h cid = some d := by
  rw [Machine.collOf, ht]
  exact find?_replaced_new hnone hc ((runs_iff d h cid).mpr hd)

theorem not_mem_of_collOf_none {s : State} {h cid : Nat} {d : Collective} (hnone : collOf s h cid = none) (hd : Runs d h cid) : d ∉ s.coll :=
  fun hm => List.find?_eq_none.mp hnone d hm ((runs_iff d h cid).mpr hd)

theorem of_toStart {s : State} {h k : Nat} {c : Collective} (hc : toStart s h k = some c) : c ∈ s.coll ∧ c.herd = h ∧ c.started = false ∧ cKind c = k := by
  obtain ⟨x, hx, hk⟩ := Option.bind_eq_some_iff.mp hc
  have hp := List.find?_some hx
  have hm := List.mem_of_find?_eq_some hx
  split at hk
  case isTrue hkind =>
    cases hk
    exact ⟨hm, by simpa using (Bool.and_eq_true_iff.mp hp).1, by simpa using (Bool.and_eq_true_iff.mp hp).2, hkind⟩
  case isFalse => cases hk

/-! ## What rings and shards depend on (R463, R486) -/

section
variable {c d : Collective} (hw : d.words = c.words) (s : State) (i : Nat)
include hw

theorem axis_of_words : cAxis d i = cAxis c i ∧ cKind d = cKind c ∧ cRoot d = cRoot c := by
  have hword : cW d = cW c := funext fun k => by rw [cW, cW, hw]
  exact ⟨by simp only [cAxis, cAxes, hword], by rw [cKind, cKind, hword], by rw [cRoot, cRoot, hword]⟩

theorem cRing_of_words : cRing s d i = cRing s c i := by rw [cRing, cRing, (axis_of_words hw i).1]

theorem cOwn_of_words : cOwn s d i = cOwn s c i := by rw [cOwn, cOwn, (axis_of_words hw i).1]

theorem shardIn_of_words (n : Nat) (r : Nat × Nat) (q : Nat) : shardIn d i n r q = shardIn c i n r q := by
  obtain ⟨haxis, hkind, hroot⟩ := axis_of_words hw i
  rw [shardIn, shardIn, haxis, hkind, hroot]

variable (he : d.elems = c.elems)
include he

theorem regionAt_of_shape : regionAt s d i = regionAt s c i := by
  induction i with
  | zero => rw [regionAt, regionAt, cLen, cLen, he, cCount, cCount, cW, cW, hw]
  | succ i ih => rw [regionAt, regionAt, ih, cRing_of_words hw, cOwn_of_words hw, shardIn_of_words hw]

/-- What arrives in a pass follows from the descriptor's words and the trained elements. -/
theorem expected_of_shape (p : Bool × Nat) : expected s d p = expected s c p := by
  simp only [expected, shardOf, regionAt_of_shape hw s _ he, cRing_of_words hw, cOwn_of_words hw, shardIn_of_words hw]

end

section
variable {s t : State} (hcfg : podCfg t = podCfg s)
include hcfg

theorem ownPos_of_cfg : ownPos t = ownPos s := by rw [ownPos, ownPos, hcfg]

theorem axisSize_of_cfg : axisSize t = axisSize s := funext fun a => by simp only [axisSize, hcfg]

theorem torusNext_of_cfg : torusNext t = torusNext s := funext fun q => funext fun k => by simp only [torusNext, axisSize_of_cfg hcfg]

theorem crossesDateline_of_cfg : crossesDateline t = crossesDateline s :=
  funext fun q => funext fun k => by simp only [crossesDateline, torusNext_of_cfg hcfg]

theorem cRing_of_cfg : cRing t = cRing s := funext fun c => funext fun i => by simp only [cRing, axisSize_of_cfg hcfg]

theorem cOwn_of_cfg : cOwn t = cOwn s := funext fun c => funext fun i => by simp only [cOwn, ownPos_of_cfg hcfg]

theorem regionAt_of_cfg : regionAt t = regionAt s := funext fun c => funext fun i => by
  induction i with
  | zero => rfl
  | succ i ih => rw [regionAt, regionAt, ih, cRing_of_cfg hcfg, cOwn_of_cfg hcfg]

theorem shardOf_of_cfg : shardOf t = shardOf s :=
  funext fun c => funext fun i => funext fun q => by rw [shardOf, shardOf, cRing_of_cfg hcfg, regionAt_of_cfg hcfg]

theorem pieceOf_of_cfg : pieceOf t = pieceOf s :=
  funext fun c => funext fun i => funext fun j => by simp only [pieceOf, cRing_of_cfg hcfg, shardOf_of_cfg hcfg]

theorem expected_of_cfg : expected t = expected s :=
  funext fun c => funext fun p => by simp only [expected, cRing_of_cfg hcfg, cOwn_of_cfg hcfg, shardOf_of_cfg hcfg]

/-- Without BF16 on the wire the first frames of a pass follow from the pod's configuration. -/
theorem firstFrames_of_cfg {c : Collective} (hwire : cWire c = false) (p : Bool × Nat) : firstFrames t c p = firstFrames s c p := by
  have hval (u : State) (j a k : Nat) (x : Word) : onWire u c j a k x = x := by rw [onWire, hwire, if_neg Bool.false_ne_true]
  have hframe : ringFrame t = ringFrame s := by
    funext c i plus gather j count xs
    rw [ringFrame, ringFrame, ownPos_of_cfg hcfg, torusNext_of_cfg hcfg, crossesDateline_of_cfg hcfg, regionAt_of_cfg hcfg]
  simp only [firstFrames, hval, cRing_of_cfg hcfg, cOwn_of_cfg hcfg, shardOf_of_cfg hcfg, regionAt_of_cfg hcfg, hframe]

end

/-! ## Frames that this member sends, and accesses to memory -/

theorem frameFree_podCfg : FrameFree (bxPage 0 + 0x804) := .inr (by decide)

theorem keepsHeld_giveFrame (k p : Nat) (g : Frame) : Keeps (fun s => (bxOf s p).held) (giveFrame k g) :=
  keepsPort_giveFrame (φ := BxPort.held) k p g fun _ _ _ _ _ _ => rfl

theorem memWrites_engActs (h a n : Nat) (port : Option Nat) (write : Bool) : MemWrites (engActs h a n port write) := by
  refine memWrites_look fun s => memWrites_each fun p _ => MemWrites.cons (memWrites_judgeActs ..) <| MemWrites.cons (MemWrites.act ?_ _) memWrites_nil
  split
  · split
    · exact memWrites_nop
    · exact memWrites_devReadActs ..
  · exact memWrites_nop

/-- What leaves the pod's configuration and the collectives. -/
structure PodKept (a : Act) : Prop where
  cfg : Keeps podCfg a
  coll : Keeps State.coll a
  held : ∀ p, Keeps (fun s => (bxOf s p).held) a

theorem podKept_each {α : Type} {xs : List α} {g : α → Act} (h : ∀ x ∈ xs, PodKept (g x)) : PodKept (each xs g) :=
  ⟨keeps_each fun x hx => (h x hx).cfg, keeps_each fun x hx => (h x hx).coll, fun p => keeps_each fun x hx => (h x hx).held p⟩

theorem podKept_giveFrame (k : Nat) (g : Frame) : PodKept (giveFrame k g) :=
  ⟨keepsReg_giveFrame frameFree_podCfg k g, ⟨(within_giveFrame k g).coll⟩, fun p => keepsHeld_giveFrame k p g⟩

theorem podKept_sendFrame (g : Frame) : PodKept (sendFrame g) := by
  refine ⟨keepsReg_sendFrame frameFree_podCfg g, ⟨(within_sendFrame g).coll⟩, fun p => keeps_look fun s => ?_⟩
  split
  · exact keepsHeld_giveFrame ..
  · exact keeps_nop

theorem podKept_engActs (h a n : Nat) (port : Option Nat) (write : Bool) : PodKept (engActs h a n port write) :=
  ⟨(memWrites_engActs ..).keeps (not_memPages (by decide)), ⟨(within_engActs ..).coll⟩, fun p => ⟨fun s => by rw [bxOf_of_bx ((within_engActs ..).bx s)]⟩⟩

end Sys2Proof.Machine
end

section
/-! A collective is taken from its ring, and its first pass begins (R483 to R487, R493); O44. -/

namespace Sys2Proof.Machine

-- One declaration after the other: elaborated side by side they take more memory than the check has.
set_option Elab.async false

/-! ## COLLECTIVE_TAKE (R483, R493) -/

theorem does_collectiveTake {s : State} (hs : Ready s) (h : HerdNo) {ws : List Word} (hmatch : ringMatch s 24 h.val = some ws) (hpod : podEn s = true)
    (hruns : ringRuns s 24 h.val = true) (hfence : fenced s (bxPage 0) = false) (hroom : s.coll.length < 8)
    (hstarted : ∀ c ∈ s.coll, c.herd = h.val → c.started = true) {c : Collective}
    (hc : c = ⟨h.val, ws, ringEntry s 24 h.val, false, none, [], 0, false, 0, 0, 0, [], [], false, false, 0⟩) :
    Does (.collectiveTake h) s [.ctl, .mem, .chk, .touched, .mergeBuf, .coll, .ringFail, .aborts, .dumpRun, .freeCtr] fun t =>
      ringHead t 24 h.val = (ringHead s 24 h.val + 1) % 2 ^ 32 ∧ mGet t.ringFail (64 * 24 + h.val) = none ∧
      t.coll = s.coll ++ [if (h.val, cCid c) ∈ s.aborts then { c with started := true, finished := true, status := 0x86 } else c] := by
  have hfree : s.coll.any (fun c => decide (c.herd = h.val) && !c.started) = false := List.any_eq_false.mpr fun x hx => by
    by_cases hh : x.herd = h.val
    · simp [hstarted x hx hh]
    · simp [hh]
  have hreads : Within [.ctl, .mem, .chk, .touched, .mergeBuf, .dumpRun, .freeCtr] (engActs h.val (ringEntry s 24 h.val) 64 none false) := within_engActs ..
  have hhead : Within [.ctl] (wr (ringAddr 24 h.val + 8) (BitVec.ofNat 32 (ringHead s 24 h.val + 1))) := within_wr ..
  have hclear : Within [.ringFail] (act (mGet s.ringFail (64 * 24 + h.val)).isSome (one (.ringFail (64 * 24 + h.val) none))) :=
    within_act (within_one rfl)
  obtain ⟨aborts, haborts⟩ : ∃ x, x = s.aborts.filter (fun p => decide (p ≠ (h.val, cCid c))) := ⟨_, rfl⟩
  obtain ⟨coll, hcoll⟩ : ∃ x, x = s.coll ++ [if s.aborts.contains (h.val, cCid c) then
    { c with started := true, finished := true, status := 0x86 } else c] := ⟨_, rfl⟩
  have hlate : Within [.aborts] (one (.aborts aborts)) := within_one rfl
  have hjoin : Within [.coll] (one (.coll coll)) := within_one rfl
  have hbody : after (actCollectiveTake h.val) s = after (one (.coll coll)) (after (one (.aborts aborts))
      (after (act (mGet s.ringFail (64 * 24 + h.val)).isSome (one (.ringFail (64 * 24 + h.val) none)))
        (after (wr (ringAddr 24 h.val + 8) (BitVec.ofNat 32 (ringHead s 24 h.val + 1)))
          (after (engActs h.val (ringEntry s 24 h.val) 64 none false) s)))) := by
    rw [haborts, hcoll, hc, actCollectiveTake, after_look, hmatch]
    dsimp only
    rw [hpod, hruns, hfence, hfree, decide_eq_true hroom, after_act, if_pos (by decide)]
    iterate 5 rw [after_seq_cons]
    rw [after_seq_nil]
  refine does_of_run hs.1 (a := actCollectiveTake h.val) rfl ?_ ?_ <;> rw [hbody]
  · exact ((hreads.onlyIn s).wider rfl).trans (((hhead.onlyIn _).wider rfl).trans (((hclear.onlyIn _).wider rfl).trans
      (((hlate.onlyIn _).wider rfl).trans ((hjoin.onlyIn _).wider rfl))))
  · refine ⟨?_, ?_, ?_⟩
    · rw [ringHead, (hjoin.keepsReg _).rd, (hlate.keepsReg _).rd, (hclear.keepsReg _).rd, after_wr, rd_ctl_same, BitVec.toNat_ofNat]
    · rw [hjoin.ringFail, hlate.ringFail, after_act]
      split
      · exact mGet_mPut_same ..
      case isFalse hno => rw [hhead.ringFail, hreads.ringFail, Option.not_isSome_iff_eq_none.mp hno]
    · rw [after_one, apply_coll, hcoll]
      simp

/-! ## Frames that wait for their pass -/

theorem after_each_fixed {α : Type} {xs : List α} {g : α → Act} {s : State} (h : ∀ x ∈ xs, after (g x) s = s) : after (each xs g) s = s := by
  induction xs with
  | nil => rfl
  | cons x xs ih =>
    obtain ⟨hx, hxs⟩ := List.forall_mem_cons.mp h
    rw [after_each_cons, hx, ih hxs]

/-- With no frame in a receive buffer none is served. -/
theorem after_servePasses_none {s : State} (h : NoneHeld s) : after servePasses s = s := by
  refine after_each_fixed fun p hp => ?_
  rw [after_look, h p (List.mem_range.mp hp)]
  rfl

/-! ## A pass begins (R485, R486) -/

/-- The collective whose pass has begun with these frames. -/
def passBegun (d : Collective) (fs : List (Nat × Frame)) : Collective :=
  { d with passOn := true, got := 0, sent := d.sent + fs.foldl (fun a f => a + (wireWords d f.2.data).length) 0 }

section
variable {s : State} {h cid : Nat} {d : Collective} {p : Bool × Nat} (hd : collOf s h cid = some d) (hp : (cPasses d)[d.pass]? = some p)
include hd hp

theorem after_runPasses_begin (hoff : d.passOn = false) (hwire : cWire d = false) (fuel : Nat) : after (runPasses h cid (fuel + 1)) s =
    after (runPasses h cid fuel) (after (setColl d (passBegun d (firstFrames s d p)))
      (after (each (firstFrames s d p) fun f => giveFrame f.1 f.2) s)) := by
  have hround : gatherRound s d p = d := by
    rw [gatherRound, hwire, Bool.and_false]
    exact if_neg Bool.false_ne_true
  rw [runPasses, after_look, hd]
  dsimp only
  rw [hp]
  dsimp only
  rw [hoff, Bool.not_false, if_pos rfl, hround, after_seq_cons, after_seq_cons, after_seq_cons, after_seq_nil, passBegun]

theorem after_runPasses_waits (hon : d.passOn = true) (hmore : d.got < expected s d p) (fuel : Nat) : after (runPasses h cid fuel) s = s := by
  cases fuel with
  | zero => rfl
  | succ fuel =>
    rw [runPasses, after_look, hd]
    dsimp only
    rw [hp]
    dsimp only
    rw [hon, Bool.not_true, if_neg Bool.false_ne_true, if_neg (by omega), after_nop]

/-- A collective that runs sends the first frames of its pass, and waits for what arrives. -/
theorem passBegun_runPasses (hoff : d.passOn = false) (hwire : cWire d = false) (hmore : 0 < expected s d p) (fuel : Nat) :
    OnlyIn [.ctl, .bx, .coll, .out] s (after (runPasses h cid (fuel + 1)) s) ∧
      (NoneHeld s → NoneHeld (after (runPasses h cid (fuel + 1)) s)) ∧
      CollIs s (after (runPasses h cid (fuel + 1)) s) d (passBegun d (firstFrames s d p)) := by
  obtain ⟨e, he⟩ : ∃ e, e = passBegun d (firstFrames s d p) := ⟨_, rfl⟩
  have hframes : Within [.ctl, .bx, .out] (each (firstFrames s d p) fun f => giveFrame f.1 f.2) := within_each fun _ => within_giveFrame ..
  have hkept : PodKept (each (firstFrames s d p) fun f => giveFrame f.1 f.2) := podKept_each fun _ _ => podKept_giveFrame ..
  have hset : Within [.coll] (setColl d e) := within_setColl ..
  rw [after_runPasses_begin hd hp hoff hwire, ← he]
  obtain ⟨u, hu⟩ : ∃ u, u = after (each (firstFrames s d p) fun f => giveFrame f.1 f.2) s := ⟨_, rfl⟩
  have hu1 : OnlyIn [.ctl, .bx, .out] s u := hu ▸ hframes.onlyIn s
  have hcfg : podCfg u = podCfg s := hu ▸ hkept.cfg.eq s
  have hcoll : u.coll = s.coll := hu1 .coll rfl
  rw [← hu]
  have his := (collIs_after_setColl d e u).of_coll hcoll
  have hruns := runs_of_collOf hd
  have hfound := his.collOf hd (he ▸ hruns)
  rw [after_runPasses_waits hfound (p := p) (by rw [he]; exact hp) (by rw [he]; rfl)]
  · refine ⟨(hu1.wider rfl).trans ((hset.onlyIn u).wider rfl), fun hnone q hq => ?_, his⟩
    rw [bxOf_of_bx (hset.bx u), hu, (hkept.held q).eq, hnone q hq]
  · have hcfg' : podCfg (after (setColl d e) u) = podCfg s := ((hset.keepsReg _).eq u).trans hcfg
    rw [expected_of_cfg hcfg', he, expected_of_shape (c := d) (d := passBegun d _) rfl s rfl]
    exact hmore

end

/-! ## Kinds 0 to 4 start (R484, R485) -/

section
variable {s : State} (hs : Ready s) (h : HerdNo) {c d : Collective} {p : Bool × Nat} {bs : List Byte} {k n : Nat} (hnone : NoneHeld s)
  (hc : toStart s h.val k = some c) (hbad : cBad s c = false) (h7 : bit (cW c 1) 7 = false) (h8 : bit (cW c 1) 8 = false)
  (h9 : bit (cW c 1) 9 = false) (hnew : collOf s h.val (cCid c) = none) (hfin : c.finished = false) (hpass : c.pass = 0) (hoff : c.passOn = false)
  (hp : (cPasses c)[0]? = some p)
  (hbs : joinReads ((cReads s { c with elems := none }).map (fun j => collRead s h.val (cSrc c + 4 * j) 4)) = .ok bs)
  (hd : d = { c with
    elems := none
    started := true
    vals := ((cReads s { c with elems := none }).zip (leWords (cReads s { c with elems := none }).length bs)).foldl
      (fun m q => mPut m q.1 (some q.2)) [] })
  (hmore : 0 < expected s d p)
include hnone hc hbad h7 h8 h9 hnew hfin hpass hoff hp hbs hd hmore

theorem passBegun_startPasses : OnlyIn [.ctl, .mem, .chk, .touched, .mergeBuf, .bx, .coll, .dumpRun, .freeCtr, .out] s (after (startPasses h.val k) s) ∧
    NoneHeld (after (startPasses h.val k) s) ∧ CollIs s (after (startPasses h.val k) s) c (passBegun d (firstFrames s d p)) := by
  obtain ⟨hmem, hherd, -, -⟩ := of_toStart hc
  obtain ⟨js, hjs⟩ : ∃ js, js = cReads s { c with elems := none } := ⟨_, rfl⟩
  have hmask : cMask s c = .ok none := by rw [cMask, h9, Bool.false_and, if_neg Bool.false_ne_true]
  have hmaskActs (t : State) : after (cMaskActs c) t = t := by rw [cMaskActs, after_look, h9, Bool.false_and, after_act, if_neg Bool.false_ne_true]
  obtain ⟨reads, hreads⟩ : ∃ a, a = each js fun j => engActs h.val (cSrc c + 4 * j) 4 none false := ⟨_, rfl⟩
  have hwithin : Within [.ctl, .mem, .chk, .touched, .mergeBuf, .dumpRun, .freeCtr] reads := hreads ▸ within_each fun _ => within_engActs ..
  have hkept : PodKept reads := hreads ▸ podKept_each fun _ _ => podKept_engActs ..
  have hset : Within [.coll] (setColl c d) := within_setColl ..
  have hbody : after (startPasses h.val k) s = after (runPasses h.val (cCid c) 16) (after (setColl c d) (after reads s)) := by
    rw [startPasses, after_look, hc]
    dsimp only
    rw [hbad, if_neg Bool.false_ne_true, hmask]
    dsimp only
    rw [show joinReads ((cReads s { c with elems := none }).map fun j =>
      collRead s h.val (cSrc { c with elems := none } + 4 * cPlace { c with elems := none } j) 4) = .ok bs from hbs]
    dsimp only
    iterate 5 rw [after_seq_cons]
    rw [after_seq_nil, hmaskActs, show bit (cW { c with elems := none } 1) 8 = false from h8, Bool.false_and, after_act, if_neg Bool.false_ne_true,
      hd, hreads, hjs]
    rfl
  rw [← hjs] at hd
  obtain ⟨u, hu⟩ : ∃ u, u = after (setColl c d) (after reads s) := ⟨_, rfl⟩
  have hcoll : (after reads s).coll = s.coll := hwithin.coll s
  have his : CollIs s u c d := hu ▸ (collIs_after_setColl c d _).of_coll hcoll
  have hruns : Runs d h.val (cCid c) := hd ▸ ⟨hherd, rfl, rfl, hfin⟩
  have hcfg : podCfg u = podCfg s := by
    have h1 : podCfg u = podCfg (after reads s) := hu ▸ (hset.keepsReg _).eq _
    exact h1.trans (hkept.cfg.eq s)
  have hwire : cWire d = false := hd ▸ h7
  have honly : OnlyIn [.ctl, .mem, .chk, .touched, .mergeBuf, .coll, .dumpRun, .freeCtr] s u :=
    hu ▸ ((hwithin.onlyIn s).wider rfl).trans ((hset.onlyIn _).wider rfl)
  have hbegin := passBegun_runPasses (his.collOf_new hnew hmem hruns) (p := p) (by rw [hd]; exact (congrArg _ hpass).trans hp) (hd ▸ hoff) hwire
    (by rw [expected_of_cfg hcfg]; exact hmore) 15
  rw [firstFrames_of_cfg hcfg hwire] at hbegin
  obtain ⟨hrun, hheld, hend⟩ := hbegin
  rw [hbody, ← hu]
  refine ⟨(honly.wider rfl).trans (hrun.wider rfl), hheld fun q hq => ?_, his.trans hend (not_mem_of_collOf_none hnew hruns)⟩
  rw [bxOf_of_bx (honly .bx rfl), hnone q hq]

include hs

theorem does_startPasses (hn : n = c.sent + (firstFrames s d p).foldl (fun a f => a + (wireWords d f.2.data).length) 0) {i : Instr}
    (hexec : exec i s = run (seq [startPasses h.val k, servePasses]) s) :
    Does i s [.ctl, .mem, .chk, .touched, .mergeBuf, .bx, .coll, .dumpRun, .freeCtr, .out] fun t =>
      CollIs s t c { d with passOn := true, got := 0, sent := n } := by
  obtain ⟨honly, hheld, his⟩ := passBegun_startPasses h hnone hc hbad h7 h8 h9 hnew hfin hpass hoff hp hbs hd hmore
  have hbody : after (seq [startPasses h.val k, servePasses]) s = after (startPasses h.val k) s := by
    rw [after_seq_cons, after_seq_cons, after_seq_nil, after_servePasses_none hheld]
  have hsent : passBegun d (firstFrames s d p) = { d with passOn := true, got := 0, sent := n } := by rw [passBegun, hn, hd]
  rw [hsent] at his
  refine does_of_run hs.1 hexec ?_ ?_ <;> rw [hbody]
  · exact honly
  · exact his

end

end Sys2Proof.Machine
end

section
/-! Sends and multicasts start, and a multicast's data leave (R484 kind 5, R494, R495); O44. -/

namespace Sys2Proof.Machine

-- One declaration after the other: elaborated side by side they take more memory than the check has.
set_option Elab.async false

theorem each_congr {α : Type} {xs : List α} {f g : α → Act} (h : ∀ x ∈ xs, f x = g x) : each xs f = each xs g :=
  congrArg seq (List.map_congr_left h)

section
variable {s : State} (hs : Ready s) (h : HerdNo) {c : Collective}
include hs

/-! ## SEND -/

theorem does_send {bs : List Byte} (hc : toStart s h.val 5 = some c) (hbad : cBad s c = false) (hbs : collRead s h.val (cSrc c) (cCount c) = .ok bs)
    (hroot : cRoot c ≠ ownPos s) : Does (.send h) s [.ctl, .mem, .chk, .touched, .mergeBuf, .bx, .coll, .dumpRun, .freeCtr, .out] fun t =>
      CollIs s t c { c with
        started := true
        finished := true
        status := 0
        sent := bs.length
        recvd := 0 } := by
  obtain ⟨e, he⟩ : ∃ e : Collective, e = { c with
    started := true
    finished := true
    status := 0
    sent := bs.length
    recvd := 0 } := ⟨_, rfl⟩
  obtain ⟨frames, hframes⟩ : ∃ a, a = each (dataFrames bs) fun q => sendFrame
    ⟨0x01, 1, h.val, ownPos s, cRoot c, false, false, 0, cCid c, 5, 0, 0, cDst c + q.1, 0, q.2⟩ := ⟨_, rfl⟩
  have hreads : Within [.ctl, .mem, .chk, .touched, .mergeBuf, .dumpRun, .freeCtr] (engActs h.val (cSrc c) (cCount c) none false) := within_engActs ..
  have hsends : Within [.ctl, .bx, .out] frames := hframes ▸ within_each fun _ => within_sendFrame _
  have hset : Within [.coll] (setColl c e) := within_setColl ..
  have hbody : after (actSend h.val) s = after (setColl c e) (after frames (after (engActs h.val (cSrc c) (cCount c) none false) s)) := by
    rw [actSend, after_look, hc]
    dsimp only
    rw [hbad, if_neg Bool.false_ne_true, hbs]
    dsimp only
    rw [decide_eq_false hroot, if_neg Bool.false_ne_true]
    dsimp only
    rw [after_seq_cons, after_seq_cons, after_seq_cons, after_seq_nil, if_neg Bool.false_ne_true, if_neg Bool.false_ne_true, ← hframes, he]
  rw [← he]
  refine does_of_run hs.1 (a := actSend h.val) rfl ?_ ?_ <;> rw [hbody]
  · exact ((hreads.onlyIn s).wider rfl).trans (((hsends.onlyIn _).wider rfl).trans ((hset.onlyIn _).wider rfl))
  · exact (collIs_after_setColl c e _).of_coll ((hsends.coll _).trans (hreads.coll s))

/-! ## MULTICAST -/

theorem does_multicast (hc : s.coll.find? (fun c => decide (c.herd = h.val) && !c.started && !c.finished) = some c) (hkind : cKind c = 6)
    (hbad : cBad s c = false) (hbulk : bulkIsOpen s = true) (hown : (cTargets c).contains (ownPos s) = false) :
    Does (.multicast h) s [.ctl, .bx, .coll, .out] fun t => CollIs s t c { c with started := true, grants := [] } := by
  obtain ⟨e, he⟩ : ∃ e : Collective, e = { c with started := true, grants := [] } := ⟨_, rfl⟩
  obtain ⟨asks, hasks⟩ : ∃ a, a = each (cTargets c) fun p => sendFrame (mcFrame s 0x10 h.val p (cCid c) (leBytes 4 (cCount c))) := ⟨_, rfl⟩
  have hsends : Within [.ctl, .bx, .out] asks := hasks ▸ within_each fun _ => within_sendFrame _
  have hset : Within [.coll] (setColl c e) := within_setColl ..
  have hother (p : Nat) (hp : p ∈ cTargets c) : p ≠ ownPos s := fun heq => by
    rw [← heq, List.contains_iff_mem.mpr hp] at hown
    cases hown
  have hbody : after (actMulticast h.val) s = after asks (after (setColl c e) s) := by
    rw [actMulticast, after_look, hc]
    dsimp only
    rw [if_neg (not_not.mpr hkind), hbad, if_neg Bool.false_ne_true, hbulk, after_act, if_pos rfl, after_seq_cons, after_seq_cons, after_seq_nil,
      each_congr fun p hp => if_neg (hother p hp), hasks, he]
  rw [← he]
  refine does_of_run hs.1 (a := actMulticast h.val) rfl ?_ ?_ <;> rw [hbody]
  · exact ((hset.onlyIn s).wider rfl).trans ((hsends.onlyIn _).wider rfl)
  · exact (collIs_after_setColl c e s).later (hsends.coll _)

theorem does_multicastSend {bs : List Byte}
    (hc : s.coll.find? (fun c => decide (c.herd = h.val) && decide (cKind c = 6) && c.started && !c.finished && !c.dataSent &&
      (cTargets c).all (fun t => c.grants.contains t)) = some c) (hwait : mcWaits s h.val (ownPos s) (cCid c) (cDst c) = false)
    (hbs : collRead s h.val (cSrc c) (cCount c) = .ok bs) (hown : (cTargets c).contains (ownPos s) = false) (hsome : cTargets c ≠ []) :
    Does (.multicastSend h) s [.ctl, .mem, .chk, .touched, .mergeBuf, .bx, .coll, .dumpRun, .freeCtr, .out] fun t =>
      CollIs s t c { c with dataSent := true, sent := bs.length, finished := false, status := 0 } := by
  obtain ⟨e, he⟩ : ∃ e : Collective, e = { c with dataSent := true, sent := bs.length, finished := false, status := 0 } := ⟨_, rfl⟩
  obtain ⟨sends, hsends⟩ : ∃ a, a = each (leafTargets s c) fun t => each (dataFrames bs) fun q => sendFrame
    ⟨0x06, 3, h.val, ownPos s, t, false, false, 0, cCid c, 6, 0, q.1, cDst c + q.1, 0, q.2⟩ := ⟨_, rfl⟩
  have hreads : Within [.ctl, .mem, .chk, .touched, .mergeBuf, .dumpRun, .freeCtr] (engActs h.val (cSrc c) (cCount c) none false) := within_engActs ..
  have hframes : Within [.ctl, .bx, .out] sends := hsends ▸ within_each fun _ => within_each fun _ => within_sendFrame _
  have hset : Within [.coll] (setColl c e) := within_setColl ..
  have hbody : after (actMulticastSend h.val) s =
      after sends (after (setColl c e) (after (engActs h.val (cSrc c) (cCount c) none false) s)) := by
    rw [actMulticastSend, after_look, hc]
    dsimp only
    rw [hwait, if_neg Bool.false_ne_true, hbs]
    dsimp only
    rw [after_seq_cons, after_seq_cons, after_seq_cons, after_seq_cons, after_seq_nil, hown, after_act, if_neg Bool.false_ne_true,
      List.isEmpty_eq_false_iff.mpr hsome, hsends, he]
  rw [← he]
  refine does_of_run hs.1 (a := actMulticastSend h.val) rfl ?_ ?_ <;> rw [hbody]
  · exact ((hreads.onlyIn s).wider rfl).trans (((hset.onlyIn _).wider rfl).trans ((hframes.onlyIn _).wider rfl))
  · exact ((collIs_after_setColl c e _).of_coll (hreads.coll s)).later (hframes.coll _)

end

end Sys2Proof.Machine
end

section
/-! The frames of collectives and multicasts arrive (R462, R485 to R487, R493 to R497); O44. -/

namespace Sys2Proof.Machine

-- One declaration after the other: elaborated side by side they take more memory than the check has.
set_option Elab.async false

/-! ## A frame arrives -/

/-- A frame that need not lie in the receive buffer has its effect. -/
theorem after_rxWaiting {s : State} {x : HeldFrame} (hf : FrameHere s x.hdr) {waits : State → HeldFrame → Bool} (hw : waits s x = false)
    (hheld : (bxOf s x.hdr.port.val).held = []) (take : HeldFrame → Act) :
    after (rxWaiting x (fun _ => true) waits take) s = after (take x) (torusTaken x.hdr x.type (heldLen x) s) := by
  obtain ⟨hlink, hcrc, hport, hpod, hdst, hseq⟩ := hf
  rw [rxWaiting, after_look]
  dsimp only
  rw [if_neg (by omega), hpod, decide_eq_false (not_not.mpr hdst), hw, hheld, Bool.and_false, if_neg (by decide), Bool.not_true,
    if_neg Bool.false_ne_true, List.any_nil, if_neg (by decide), hcrc, after_received hlink hseq]

section
variable {s t : State} {p lseq type len : Nat} (h : InOrder s t p lseq type len)
include h

theorem InOrder.ownPos : ownPos t = ownPos s := ownPos_of_cfg h.podCfg

theorem InOrder.coll : t.coll = s.coll := h.only .coll rfl

theorem InOrder.mc : t.mc = s.mc := h.only .mc rfl

theorem InOrder.noneHeld (hnone : NoneHeld s) : NoneHeld t := fun q hq => by
  by_cases hqp : q = p
  · rw [hqp, h.port]
    exact hqp ▸ hnone q hq
  · rw [h.others q hqp, hnone q hq]

/-- What the effect of the frame leaves of the port. -/
theorem InOrder.arrived_of_keeps {a : Act} (ha : Keeps (fun s => (bxOf s p).rxSeq) a) : Arrived s (after a t) p := h.arrived (ha.eq t)

end

theorem keepsRx_sendFrame (p : Nat) (g : Frame) : Keeps (fun s => (bxOf s p).rxSeq) (sendFrame g) := by
  refine keeps_look fun s => ?_
  split
  · exact keepsRx_giveFrame ..
  · exact keeps_nop

/-! ## Requests at a target (R494, R497) -/

theorem mcFree_none {s : State} (h : ∀ g ∈ s.mc, g.granted = false) : mcFree s = 1048576 := by
  rw [mcFree, List.filter_eq_nil_iff.mpr fun g hg => by rw [h g hg]; exact Bool.false_ne_true]
  rfl

/-- The one request that waits is granted. -/
theorem after_grantWaiting_one {s : State} {g : McGrant} (hmc : s.mc = [g]) (hg : g.granted = false) (hroom : g.count ≤ 1048576)
    (hown : g.src ≠ ownPos s) : after (grantWaiting 1) s =
      after (sendFrame (mcFrame s 0x11 g.herd g.src g.cid [])) (after (one (.mc [{ g with granted := true }])) s) := by
  have hfree : mcFree s = 1048576 := mcFree_none fun x hx => by
    rw [hmc, List.mem_singleton] at hx
    rw [hx, hg]
  rw [grantWaiting, after_look, hmc, List.find?_cons_of_pos (by rw [hg]; rfl)]
  dsimp only
  rw [hfree, decide_eq_true hroom, after_act, if_pos rfl, if_neg hown, after_seq_cons, after_seq_cons, after_seq_cons, after_seq_nil, List.map_cons,
    if_pos rfl, List.map_nil, grantWaiting, after_nop]

section
variable {s : State} (hs : Ready s) {f : FrameHdr} (hf : FrameHere s f)
include hs hf

theorem does_mreq {n : Word} (hmc : s.mc = []) (hn : n.toNat ≤ 1048576) (hsrc : f.src.toNat ≠ ownPos s) :
    Does (.mreq ⟨f, n⟩) s [.ctl, .bx, .mc, .out] fun t =>
      Arrived s t f.port.val ∧ t.mc = [⟨f.src.toNat, f.cid.toNat, f.herd.val, n.toNat, true, []⟩] := by
  have hin := torusTaken_inOrder hf 0x10 4
  obtain ⟨u, hu⟩ : ∃ u, u = torusTaken f 0x10 4 s := ⟨_, rfl⟩
  obtain ⟨g, hg⟩ : ∃ g : McGrant, g = ⟨f.src.toNat, f.cid.toNat, f.herd.val, n.toNat, false, []⟩ := ⟨_, rfl⟩
  obtain ⟨v, hv⟩ : ∃ v, v = after (one (.mc [g])) u := ⟨_, rfl⟩
  have hask (x : List McGrant) : Within [.mc] (one (.mc x)) := within_one rfl
  have hanswer := within_sendFrame (mcFrame v 0x11 g.herd g.src g.cid [])
  rw [← hu] at hin
  have hown : g.src ≠ ownPos v := by
    rw [hv, ownPos_of_cfg (((hask _).keepsReg _).rd u), hin.ownPos, hg]
    exact hsrc
  have hbody : after (actMreq ⟨f, n⟩) s = after (sendFrame (mcFrame v 0x11 g.herd g.src g.cid [])) (after (one (.mc [{ g with granted := true }])) v) := by
    rw [actMreq, after_rxTorus hf _ _ rfl, ← hu, takeRequest, after_look, hin.mc, hmc, after_seq_cons, after_seq_cons, after_seq_nil, ← hg,
      List.nil_append, ← hv]
    exact after_grantWaiting_one (hv ▸ rfl) (hg ▸ rfl) (hg ▸ hn) hown
  refine does_of_run hs.1 (a := actMreq ⟨f, n⟩) rfl ?_ ?_ <;> rw [hbody]
  · have h1 : OnlyIn [.mc] u v := hv ▸ (hask _).onlyIn u
    exact (hin.only.wider rfl).trans ((h1.wider rfl).trans ((((hask _).onlyIn v).wider rfl).trans ((hanswer.onlyIn _).wider rfl)))
  · refine ⟨hin.arrived ?_, ?_⟩
    · rw [(keepsRx_sendFrame ..).eq, bxOf_of_bx ((hask _).bx v), hv, bxOf_of_bx ((hask _).bx u)]
    · rw [hanswer.mc, hg]
      rfl

theorem does_mrel {g : McGrant} (hmc : s.mc = [g]) (hg : isRequest f.herd.val f.src.toNat f.cid.toNat g = true) :
    Does (.mrel f) s [.ctl, .bx, .mc, .out] fun t => Arrived s t f.port.val ∧ t.mc = [] := by
  have hin := torusTaken_inOrder hf 0x12 0
  have hdrop : Within [.mc] (one (.mc [])) := within_one rfl
  have hbody : after (actMrel f) s = after (one (.mc [])) (torusTaken f 0x12 0 s) := by
    rw [actMrel, after_rxTorus hf _ _ rfl, dropRequest, after_look, hin.mc, hmc, after_seq_cons, after_seq_cons, after_seq_nil,
      List.filter_cons_of_neg (by rw [hg]; decide), List.filter_nil, List.length_singleton, grantWaiting, after_look]
    rfl
  refine does_of_run hs.1 (a := actMrel f) rfl ?_ ?_ <;> rw [hbody]
  · exact (hin.only.wider rfl).trans ((hdrop.onlyIn _).wider rfl)
  · exact ⟨hin.arrived_of_keeps (keepsRx_within hdrop _), rfl⟩

/-! ## Data of a multicast (R495, R496) -/

theorem does_mcd {g : McGrant} {data : List Byte} (hheld : (bxOf s f.port.val).held = []) (hmc : s.mc = [g])
    (hg : isRequest f.herd.val f.src.toNat f.cid.toNat g = true) (hgranted : g.granted = true) (hpoison : f.poison = false)
    (hwait : mcWaits s f.herd.val f.src.toNat f.cid.toNat (mcdDst f) = false) (hend : podPort s (ownPos s) f.dst.toNat = none)
    (hmore : (data.zipIdx.foldl (fun m q => mPut m (f.offset.toNat + q.2) (some q.1)) g.data).length < g.count) :
    Does (.mcd f data) s [.ctl, .bx, .mc, .out] fun t => Arrived s t f.port.val ∧
      t.mc = [{ g with data := data.zipIdx.foldl (fun m q => mPut m (f.offset.toNat + q.2) (some q.1)) g.data }] := by
  have hin := torusTaken_inOrder hf 0x06 (heldLen ⟨f, 0x06, data, none⟩)
  obtain ⟨u, hu⟩ : ∃ u, u = torusTaken f 0x06 (heldLen ⟨f, 0x06, data, none⟩) s := ⟨_, rfl⟩
  rw [← hu] at hin
  obtain ⟨g', hg'⟩ : ∃ g' : McGrant, g' = { g with data := data.zipIdx.foldl (fun m q => mPut m (f.offset.toNat + q.2) (some q.1)) g.data } := ⟨_, rfl⟩
  have htake : Within [.mc] (one (.mc [g'])) := within_one rfl
  have hbody : after (actMcd f data) s = after (one (.mc [g'])) u := by
    have hdata : after (takeData f.herd.val f.src.toNat f.cid.toNat (mcdDst f) f.offset.toNat data) u = after (one (.mc [g'])) u := by
      rw [takeData, after_look, hin.mc, hmc, List.find?_cons_of_pos (by rw [hgranted, hg]; rfl)]
      dsimp only
      rw [if_pos hmore, List.map_cons, if_pos rfl, List.map_nil, hg']
    rw [actMcd, after_rxWaiting (x := ⟨f, 0x06, data, none⟩) hf (by rw [mcdWaits, hwait, Bool.and_false]) hheld]
    dsimp only
    rw [← hu, takeMcd, after_look]
    dsimp only
    rw [hpoison, if_neg Bool.false_ne_true, after_seq_cons, after_seq_cons, after_seq_nil, hdata, hin.ownPos, (route_of_cfg hin.podCfg _ _ 0).1, hend]
    rfl
  rw [← hg']
  refine does_of_run hs.1 (a := actMcd f data) rfl ?_ ?_ <;> rw [hbody]
  · exact (hin.only.wider rfl).trans ((htake.onlyIn _).wider rfl)
  · exact ⟨hin.arrived_of_keeps (keepsRx_within htake _), rfl⟩

/-! ## ABORT (R493, R496) -/

theorem does_abort (hmc : s.mc = []) : Does (.abort f) s [.ctl, .bx, .coll, .aborts, .out] fun t => Arrived s t f.port.val ∧
    (f.kind ≠ 6 → (∀ c ∈ s.coll, (c.herd, cCid c) ≠ (f.herd.val, f.cid.toNat)) → (f.herd.val, f.cid.toNat) ∉ s.ended →
      (f.herd.val, f.cid.toNat) ∈ t.aborts) ∧ t.coll = s.coll.map (fun c =>
    if c.herd = f.herd.val ∧ cCid c = f.cid.toNat ∧ c.finished = false then
      { c with started := true, finished := true, status := 0x86 } else c) := by
  have hin := torusTaken_inOrder hf 0x14 0
  obtain ⟨u, hu⟩ : ∃ u, u = torusTaken f 0x14 0 s := ⟨_, rfl⟩
  rw [← hu] at hin
  have haborts : u.aborts = s.aborts := hin.only .aborts rfl
  have hended : u.ended = s.ended := hin.only .ended rfl
  obtain ⟨key, hkey⟩ : ∃ k, k = (f.herd.val, f.cid.toNat) := ⟨_, rfl⟩
  obtain ⟨late, hlate⟩ : ∃ b, b = (decide (f.kind ≠ 6) && !s.coll.any (fun c => decide ((c.herd, cCid c) = key)) && !s.aborts.contains key &&
    !s.ended.contains key) := ⟨_, rfl⟩
  obtain ⟨cs, hcs⟩ : ∃ cs, cs = s.coll.map (fun c => if decide ((c.herd, cCid c) = key) && !c.finished then
    { c with started := true, finished := true, status := 0x86 } else c) := ⟨_, rfl⟩
  have hnote : Within [.aborts] (act late (one (.aborts (s.aborts ++ [key])))) := within_act (within_one rfl)
  have hends : Within [.coll] (one (.coll cs)) := within_one rfl
  have hbody : after (actAbort f) s = after (one (.coll cs)) (after (act late (one (.aborts (s.aborts ++ [key])))) u) := by
    rw [actAbort, after_rxTorus hf _ _ rfl, ← hu, after_look]
    dsimp only
    rw [hin.coll, hin.mc, haborts, hended, hmc, ← hkey, ← hlate, ← hcs, after_seq_cons, after_seq_cons, after_seq_cons, after_seq_nil, List.any_nil]
    rfl
  refine does_of_run hs.1 (a := actAbort f) rfl ?_ ?_ <;> rw [hbody]
  · exact (hin.only.wider rfl).trans (((hnote.onlyIn u).wider rfl).trans ((hends.onlyIn _).wider rfl))
  · refine ⟨hin.arrived ?_, fun hkind hnone hnew => ?_, ?_⟩
    · rw [bxOf_of_bx (hends.bx _), bxOf_of_bx (hnote.bx u)]
    · rw [hends.aborts, after_act]
      have hany : s.coll.any (fun c => decide ((c.herd, cCid c) = key)) = false := List.any_eq_false.mpr fun c hc => by
        rw [hkey]
        exact fun hd => hnone c hc (of_decide_eq_true hd)
      rw [hany, decide_eq_true hkind] at hlate
      by_cases hold : key ∈ s.aborts
      · split
        · exact hkey ▸ List.mem_append_left _ hold
        · rw [haborts]
          exact hkey ▸ hold
      · have hyes : late = true := by
          rw [hlate]
          simp [hold, hkey ▸ hnew]
        rw [if_pos hyes]
        exact hkey ▸ List.mem_append_right _ (List.mem_singleton_self _)
    · rw [after_one, apply_coll, hcs, hkey]
      refine List.map_congr_left fun c _ => if_congr ?_ rfl rfl
      simp [and_assoc]

end

end Sys2Proof.Machine
end

section
/-! Grants, ends and the sums and results of a pass arrive (R485 to R487, R494, R496); O44. -/

namespace Sys2Proof.Machine

-- One declaration after the other: elaborated side by side they take more memory than the check has.
set_option Elab.async false

theorem expected_putVals (s : State) (c : Collective) (n j : Nat) (xs : List Word) (p : Bool × Nat) :
    expected s (putVals { c with got := n } j xs) p = expected s c p :=
  expected_of_shape (c := c) (d := putVals { c with got := n } j xs) rfl s rfl p

section
variable {s : State} (hs : Ready s) {f : FrameHdr} (hf : FrameHere s f) {c : Collective} (hc : collOf s f.herd.val f.cid.toNat = some c)
include hs hf hc

/-- A frame whose one effect is that its collective is replaced. -/
theorem does_torusColl {i : Instr} {type : Nat} {body : Act} {d : Collective} (hexec : exec i s = run (rxTorus f type 0 (fun _ => true) body) s)
    (hbody : ∀ u, collOf u f.herd.val f.cid.toNat = some c → after body u = after (setColl c d) u) :
    Does i s [.ctl, .bx, .coll, .out] fun t => Arrived s t f.port.val ∧ CollIs s t c d := by
  have hin := torusTaken_inOrder hf type 0
  have hset : Within [.coll] (setColl c d) := within_setColl ..
  have he : after (rxTorus f type 0 (fun _ => true) body) s = after (setColl c d) (torusTaken f type 0 s) := by
    rw [after_rxTorus hf _ _ rfl, hbody _ (by rw [collOf_of_coll hin.coll, hc])]
  refine does_of_run hs.1 hexec ?_ ?_ <;> rw [he]
  · exact (hin.only.wider rfl).trans ((hset.onlyIn _).wider rfl)
  · exact ⟨hin.arrived_of_keeps (keepsRx_within hset _), (collIs_after_setColl c d _).of_coll hin.coll⟩

theorem does_mgnt (hkind : cKind c = 6) (hnew : c.grants.contains f.src.toNat = false) : Does (.mgnt f) s [.ctl, .bx, .coll, .out] fun t =>
    Arrived s t f.port.val ∧ CollIs s t c { c with grants := c.grants ++ [f.src.toNat] } := by
  refine does_torusColl hs hf hc (i := .mgnt f) rfl fun u hu => ?_
  rw [takeGrant, after_look, hu]
  dsimp only
  rw [decide_eq_true hkind, hnew, after_act, if_pos (by decide)]

theorem does_mdone (hkind : cKind c = 6) (hsent : c.dataSent = true) (hnew : c.donePos.contains f.src.toNat = false) :
    Does (.mdone f) s [.ctl, .bx, .coll, .out] fun t => Arrived s t f.port.val ∧ CollIs s t c { c with
      donePos := c.donePos ++ [f.src.toNat]
      finished := (cTargets c).all (fun q => (c.donePos ++ [f.src.toNat]).contains q)
      status := 0 } := by
  refine does_torusColl hs hf hc (i := .mdone f) rfl fun u hu => ?_
  rw [takeDone, after_look, hu]
  dsimp only
  rw [hnew, if_neg Bool.false_ne_true, decide_eq_true hkind, hsent, after_act, if_pos (by decide)]
  rfl

/-! ## Frames of the pass that runs -/

section
variable {data : List Byte} {i j : Nat} {vs : List Word} {x : HeldFrame} (hx : x.hdr = f) (hnone : NoneHeld s) (hpass : f.pass.toNat = c.pass)
  (hon : c.passOn = true)
include hx hnone hpass hon

/-- A RED or GAT frame of the pass that runs, which keeps what arrives, ends no pass. -/
theorem does_passFrame {cmd : Instr} (hexec : exec cmd s = run (seq [rxWaiting x (fun _ => true) passWaits takePass, servePasses]) s)
    {p : Bool × Nat} {d : Collective} (hd : Runs d f.herd.val f.cid.toNat)
    (hp : (cPasses d)[d.pass]? = some p) (hdon : d.passOn = true) (hmore : d.got < expected s d p)
    (htake : ∀ u, podCfg u = podCfg s → collOf u f.herd.val f.cid.toNat = some c →
      after (takePass x) u = after (runPasses f.herd.val f.cid.toNat 16) (after (setColl c d) u)) :
    Does cmd s [.ctl, .bx, .coll, .out] fun t => Arrived s t f.port.val ∧ CollIs s t c d := by
  subst hx
  have hin := torusTaken_inOrder hf x.type (heldLen x)
  have hwait : passWaits s x = false := by
    rw [passWaits, hc]
    dsimp only
    rw [hpass, hon, decide_eq_false (Nat.lt_irrefl _), Bool.false_and, Bool.not_true, Bool.and_false, Bool.or_false]
  obtain ⟨u, hu⟩ : ∃ u, u = torusTaken x.hdr x.type (heldLen x) s := ⟨_, rfl⟩
  rw [← hu] at hin
  have hset : Within [.coll] (setColl c d) := within_setColl ..
  have hcfg : podCfg (after (setColl c d) u) = podCfg s := ((hset.keepsReg _).eq u).trans hin.podCfg
  have hcoll : collOf u x.hdr.herd.val x.hdr.cid.toNat = some c := by rw [collOf_of_coll hin.coll, hc]
  have his := collIs_after_setColl c d u
  have hheld : NoneHeld (after (setColl c d) u) := fun q hq => by rw [bxOf_of_bx (hset.bx u), hin.noneHeld hnone q hq]
  have hbody : after (seq [rxWaiting x (fun _ => true) passWaits takePass, servePasses]) s = after (setColl c d) u := by
    rw [after_seq_cons, after_seq_cons, after_seq_nil, after_rxWaiting hf hwait (hnone _ hf.2.2.1), ← hu, htake u hin.podCfg hcoll,
      after_runPasses_waits (his.collOf hcoll hd) hp hdon (by rw [expected_of_cfg hcfg]; exact hmore), after_servePasses_none hheld]
  refine does_of_run hs.1 hexec ?_ ?_ <;> rw [hbody]
  · exact (hin.only.wider rfl).trans ((hset.onlyIn u).wider rfl)
  · exact ⟨hin.arrived_of_keeps (keepsRx_within hset _), his.of_coll hin.coll⟩

omit hs hf hnone hon in
/-- A sound frame of the pass that runs is taken by the pass's own rule. -/
theorem after_takePass {u : State} (hcu : collOf u f.herd.val f.cid.toNat = some c) {p : Bool × Nat} (hp : (cPasses c)[c.pass]? = some p)
    (hgat : p.1 = decide (x.type = 0x05)) (hkind : f.kind.toNat = cKind c) (hcount : f.count = 0) (hpoison : f.poison = false) :
    after (takePass x) u = after (runPasses f.herd.val f.cid.toNat 16) (after (if p.1 then takeResults c p.2 f x.data else takeSums c p.2 f x.data) u) := by
  subst hx
  rw [takePass, after_look]
  dsimp only
  rw [hcu]
  dsimp only
  rw [hp]
  dsimp only
  rw [decide_eq_false (not_not.mpr hpass), decide_eq_false (not_not.mpr hgat), decide_eq_false (not_not.mpr hkind),
    decide_eq_false (not_not.mpr hcount), if_neg (by simp), hpoison, if_neg Bool.false_ne_true, after_seq_cons, after_seq_cons, after_seq_nil]

end

section
variable {data : List Byte} {i j : Nat} {vs : List Word} (hnone : NoneHeld s) (hpass : f.pass.toNat = c.pass) (hon : c.passOn = true)
  (hkind : f.kind.toNat = cKind c) (hcount : f.count = 0) (hpoison : f.poison = false) (hj : j = (regionAt s c i).1 + f.offset.toNat)
  (hvs : vs = wireWords c data)
include hnone hpass hon hkind hcount hpoison hj hvs

theorem does_redFrame (hfin : bit (cW c 1) 8 = false) (hp : (cPasses c)[c.pass]? = some (false, i)) (hown : (pieceOf s c i j).1 = cOwn s c i)
    (hmore : c.got + vs.length < expected s c (false, i)) : Does (.redFrame f data) s [.ctl, .bx, .coll, .out] fun t => Arrived s t f.port.val ∧
      CollIs s t c (putVals { c with got := c.got + vs.length } j (vs.zipIdx.map fun x => addF x.1 (cVal c (j + x.2)))) := by
  have hruns := runs_of_collOf hc
  refine does_passFrame hs hf hc (x := ⟨f, 0x04, data, none⟩) rfl hnone hpass hon (cmd := .redFrame f data) rfl (p := (false, i)) hruns hp
    hon (lt_of_lt_of_eq hmore (expected_putVals s c ..).symm) fun u hcfg hcu => ?_
  rw [after_takePass hc rfl hpass hcu hp rfl hkind hcount hpoison, if_neg Bool.false_ne_true, takeSums, after_look]
  dsimp only
  rw [regionAt_of_cfg hcfg, ← hj, pieceOf_of_cfg hcfg, cOwn_of_cfg hcfg, hfin, Bool.false_and, hown, if_pos rfl, after_seq_cons, after_seq_cons,
    after_seq_nil, after_act, if_neg Bool.false_ne_true, ← hvs, List.length_map, List.length_zipIdx]

theorem does_gat (hp : (cPasses c)[c.pass]? = some (true, i))
    (hend : stepIn (cRing s c i) (cOwn s c i) (pieceOf s c i j).2 = (pieceOf s c i j).1)
    (hmore : c.got + vs.length < expected s c (true, i)) : Does (.gat f data) s [.ctl, .bx, .coll, .out] fun t => Arrived s t f.port.val ∧
      CollIs s t c (putVals { c with got := c.got + vs.length } j vs) := by
  have hruns := runs_of_collOf hc
  refine does_passFrame hs hf hc (x := ⟨f, 0x05, data, none⟩) rfl hnone hpass hon (cmd := .gat f data) rfl (p := (true, i)) hruns hp
    hon (lt_of_lt_of_eq hmore (expected_putVals s c ..).symm) fun u hcfg hcu => ?_
  rw [after_takePass hc rfl hpass hcu hp rfl hkind hcount hpoison, if_pos rfl, takeResults, after_look]
  dsimp only
  rw [regionAt_of_cfg hcfg, ← hj, pieceOf_of_cfg hcfg, cOwn_of_cfg hcfg, cRing_of_cfg hcfg, hend, if_pos rfl, ← hvs]

end

end

end Sys2Proof.Machine
end

section
/-! A collective that has ended leaves the engine (R492, R493); O44. -/

namespace Sys2Proof.Machine

-- One declaration after the other: elaborated side by side they take more memory than the check has.
set_option Elab.async false

/-! ## An event's bit while frames leave -/

section
variable (n : Nat) {i : Nat} (hi : i ≠ 7)
include hi

theorem keeps_istBit_countFrame (m k v : Nat) (hk : k < 8) : Keeps (fun s => bit (rd s (bxPage n + 0x20)) i) (count (bxPage m) k v) := by
  by_cases hm : m = n
  · exact hm ▸ keeps_istBit_count _ k v hi hk
  · exact ⟨fun s => congrArg (bit · i) ((keepsReg_count (by unfold bxPage; omega) (by unfold bxPage; omega) (by unfold bxPage; omega) v).eq s)⟩

theorem keeps_istBit_putFrame (m : Nat) (f : Frame) : Keeps (fun s => bit (rd s (bxPage n + 0x20)) i) (putFrame m f) :=
  keeps_seq_cons ⟨fun _ => rfl⟩ (keeps_seq_cons (keeps_istBit_countFrame n hi m 0 1 (by decide))
    (keeps_seq_cons (keeps_istBit_countFrame n hi m 2 _ (by decide)) keeps_seq_nil))

theorem keeps_istBit_giveFrame (m : Nat) (f : Frame) : Keeps (fun s => bit (rd s (bxPage n + 0x20)) i) (giveFrame m f) := by
  have hset (g : BxPort → BxPort) : Keeps (fun s => bit (rd s (bxPage n + 0x20)) i) (setBx m g) := ⟨fun _ => rfl⟩
  have hsend (k : Nat) : Keeps (fun s => bit (rd s (bxPage n + 0x20)) i) (sendWaiting m k) := by
    induction k with
    | zero => exact keeps_nop
    | succ k ih =>
      refine keeps_look fun s => ?_
      split
      · exact keeps_nop
      · exact keeps_seq_cons (hset _) (keeps_seq_cons (keeps_look fun _ => keeps_seq_cons (hset _)
          (keeps_seq_cons (keeps_istBit_putFrame n hi m _) keeps_seq_nil)) (keeps_seq_cons ih keeps_seq_nil))
  exact keeps_seq_cons (hset _) (keeps_seq_cons (keeps_look fun _ => hsend _) keeps_seq_nil)

theorem keeps_istBit_sendFrame (f : Frame) : Keeps (fun s => bit (rd s (bxPage n + 0x20)) i) (sendFrame f) := by
  refine keeps_look fun s => ?_
  split
  · exact keeps_istBit_giveFrame n hi ..
  · exact keeps_nop

end

/-! ## COLLECTIVE_END -/

theorem find?_narrowed {α : Type} {p q : α → Bool} {x : α} {xs : List α} (hx : xs.find? p = some x) (hq : q x = true) :
    xs.find? (fun y => p y && q y) = some x := by
  induction xs with
  | nil => cases hx
  | cons y ys ih =>
    rw [List.find?_cons] at hx
    split at hx
    case h_1 hp =>
      cases hx
      exact List.find?_cons_of_pos (by rw [hp, hq]; rfl)
    case h_2 hp => rw [List.find?_cons_of_neg (by rw [hp, Bool.false_and]; exact Bool.false_ne_true), ih hx]

/-- What a collective that ends writes: its results, its completion record and its notification (R492). -/
def collRecord (s : State) (c : Collective) (st : Nat) : Act :=
  seq [each (if st = 0 then cResults s c else []) fun j => urWrite c.herd (cDst c + 4 * cPlace c j) (leBytes 4 (cVal c j).toNat),
    putRecord c.herd ((joinWords (cW c 10) (cW c 11)).toNat / 16 * 16) (leBytes 2 (fld (cW c 0) 31 16) ++ leBytes 2 st ++ leBytes 4 c.sent ++
      leBytes 4 (if cKind c < 5 then (if st = 0 then cResults s c else []).length else c.recvd) ++ leBytes 4 0),
    notifyCore (.bx 0) c.herd (fld (cW c 1) 11 10) (fld (cW c 1) 21 12) (fld (cW c 1) 29 22)]

/-- What its fault does: an event, its ring halts, and its peers abort it (R492, R493). -/
def collFault (s : State) (c : Collective) (st : Nat) : Act :=
  seq [raise (bxPage 0) { cls := collClass st, addr := some c.addr, herd := some c.herd }, setIst (bxPage 0) 13, haltRing 24 c.herd st,
    each (cPeers s c) fun q => sendFrame { ctlFrame s 0x14 c.herd q 0 0 [] with cid := cCid c, kind := cKind c }]

theorem within_collRecord (s : State) (c : Collective) (st : Nat) :
    Within [.ctl, .mem, .chk, .farMem, .packets, .touched, .mergeBuf, .dumpRun, .freeCtr, .out] (collRecord s c st) :=
  within_seq_cons (within_each fun _ => (within_urWrite ..).wider rfl) <| within_seq_cons ((within_putRecord ..).wider rfl) <|
    within_seq_cons ((within_notifyCore ..).wider rfl) within_seq_nil

theorem within_collFault (s : State) (c : Collective) (st : Nat) : Within [.ctl, .bx, .dumpRun, .freeCtr, .out] (collFault s c st) :=
  within_seq_cons ((within_raise ..).wider rfl) <| within_seq_cons ((within_setIst ..).wider rfl) <| within_seq_cons ((within_haltRing ..).wider rfl) <|
    within_seq_cons (within_each fun _ => (within_sendFrame _).wider rfl) within_seq_nil

/-- The collective leaves the engine, and is among those that ended last. -/
def collGone (s : State) (c : Collective) : Act :=
  seq [look fun s => one (.coll (s.coll.filter (fun x => decide (x ≠ c)))), one (.ended (((c.herd, cCid c) :: s.ended).take 8))]

theorem within_collGone (s : State) (c : Collective) : Within [.coll, .ended] (collGone s c) :=
  within_seq_cons (within_look fun _ => within_one rfl) <| within_seq_cons (within_one rfl) within_seq_nil

theorem after_endCollective (s : State) (c : Collective) (st : Nat) : after (endCollective c st) s =
    after (collGone s c) (after (act (decide (0x80 ≤ st)) (collFault s c st)) (after (collRecord s c st) s)) := by
  rw [endCollective, after_look]
  dsimp only
  rw [collRecord, collGone, collFault]
  iterate 11 rw [after_seq_cons]
  rw [after_seq_nil, after_seq_nil, after_seq_nil]

theorem gone_collGone (s t : State) (c : Collective) : (after (collGone s c) t).coll = t.coll.filter (fun x => decide (x ≠ c)) ∧
    (after (collGone s c) t).ended = ((c.herd, cCid c) :: s.ended).take 8 := by
  rw [collGone, after_seq_cons, after_seq_cons, after_seq_nil]
  exact ⟨rfl, rfl⟩

/-- What a fault of the collective engine shows: its ring halted with the status, and its event. -/
theorem shown_collFault (s t : State) {c : Collective} (hh : c.herd < 64) (st : Nat) : let u := after (collFault s c st) t
    bit (rd u (ringAddr 24 c.herd + 4)) 30 = true ∧ rd u (ringAddr 24 c.herd + 12) = BitVec.ofNat 32 st ∧ bit (rd u (bxPage 0 + 0x20)) 13 = true := by
  intro u
  have hring : ringAddr 24 c.herd = bxPage 0 + 0xA00 + 16 * c.herd := if_neg (by decide)
  obtain ⟨v, hv⟩ : ∃ v, v = after (raise (bxPage 0) { cls := collClass st, addr := some c.addr, herd := some c.herd }) t := ⟨_, rfl⟩
  have hu : u = after (each (cPeers s c) fun q => sendFrame { ctlFrame s 0x14 c.herd q 0 0 [] with cid := cCid c, kind := cKind c })
      (after (haltRing 24 c.herd st) (after (setIst (bxPage 0) 13) v)) := by
    show after (collFault s c st) t = _
    rw [collFault, after_seq_cons, after_seq_cons, after_seq_cons, after_seq_cons, after_seq_nil, hv]
  have hframes (x : Nat) (hx : FrameFree x) : rd u x = rd (after (haltRing 24 c.herd st) (after (setIst (bxPage 0) 13) v)) x := by
    rw [hu, (keeps_each fun _ _ => keepsReg_sendFrame hx _ : KeepsReg x (each _ _)).eq]
  have hist : bit (rd u (bxPage 0 + 0x20)) 13 = bit (rd (after (haltRing 24 c.herd st) (after (setIst (bxPage 0) 13) v)) (bxPage 0 + 0x20)) 13 := by
    rw [hu]
    exact (keeps_each fun _ _ => keeps_istBit_sendFrame 0 (by decide) _).eq _
  rw [haltRing, after_seq_cons, after_seq_cons, after_seq_nil] at hframes hist
  have hpage : bxPage 0 = 0x160000 := rfl
  have hfree (o : Nat) (ho : o < 16) : FrameFree (ringAddr 24 c.herd + o) := by
    refine .inr ?_
    simp only [List.mem_cons, List.not_mem_nil, or_false]
    omega
  refine ⟨?_, ?_, ?_⟩
  · rw [hframes _ (hfree 4 (by decide)), (keepsReg_wr (by omega) _).eq, after_wrBit, rd_ctl_same, bit_setBit_same _ (by decide)]
  · rw [hframes _ (hfree 12 (by decide)), after_wr, rd_ctl_same]
  · rw [hist, (keepsReg_wr (by omega) _).eq, (keepsReg_wrBit (by omega) ..).eq, after_setIst, rd_ctl_same, bit_setBit_same _ (by decide)]

section
variable {s : State} (hs : Ready s) (h : HerdNo) {c : Collective} (hc : s.coll.find? (fun c => decide (c.herd = h.val) && c.finished) = some c)
  (hrecord : engWriteJudge s h.val ((joinWords (cW c 10) (cW c 11)).toNat / 16 * 16) 16 none ≠ .wait)
include hs hc hrecord

omit hs hrecord in
theorem herd_of_ended : c.herd = h.val := by
  have hp := List.find?_some hc
  simpa using (Bool.and_eq_true_iff.mp hp).1

omit hs in
theorem after_actCollectiveEnd (st : BitVec 8) (hst : endStatus s c = .bad st.toNat ∨ (st = 0 ∧ ∃ bs, endStatus s c = .ok bs)) :
    after (actCollectiveEnd h.val st) s =
      after (act (!(decide (st = 0) && (List.range 6).any (sendsOn s c))) (endCollective c st.toNat)) s := by
  rw [actCollectiveEnd, after_look, find?_narrowed hc]
  · dsimp only
    rw [decide_eq_true hrecord, Bool.and_true]
  · rcases hst with hst | ⟨h0, bs, hok⟩
    · simp [hst]
    · simp [hok, h0]

theorem does_collectiveEnd_good (hok : ∃ bs, endStatus s c = .ok bs) (hquiet : ∀ p < 6, sendsOn s c p = false) : Does (.collectiveEnd h 0)
    s [.ctl, .mem, .chk, .farMem, .packets, .touched, .mergeBuf, .coll, .ended, .dumpRun, .freeCtr, .out] fun t =>
      t.coll = s.coll.filter (fun x => decide (x ≠ c)) ∧ t.ended = ((h.val, cCid c) :: s.ended).take 8 := by
  have hherd := herd_of_ended h hc
  have hnone : (List.range 6).any (sendsOn s c) = false := List.any_eq_false.mpr fun p hp => by
    rw [hquiet p (List.mem_range.mp hp)]
    exact Bool.false_ne_true
  have hbody : after (actCollectiveEnd h.val 0) s = after (collGone s c) (after (collRecord s c 0) s) := by
    rw [after_actCollectiveEnd h hc hrecord 0 (.inr ⟨rfl, hok⟩), hnone, Bool.and_false, after_act, if_pos (by decide), after_endCollective, after_act,
      if_neg (by decide)]
    rfl
  have hwrites := within_collRecord s c 0
  obtain ⟨hcoll, hended⟩ := gone_collGone s (after (collRecord s c 0) s) c
  refine does_of_run hs.1 (a := actCollectiveEnd h.val 0) rfl ?_ ?_ <;> rw [hbody]
  · exact ((hwrites.onlyIn s).wider rfl).trans (((within_collGone s c).onlyIn _).wider rfl)
  · exact ⟨by rw [hcoll, hwrites.coll], by rw [hended, hherd]⟩

theorem exec_collectiveEnd_waits (hok : ∃ bs, endStatus s c = .ok bs) (hsends : ∃ p < 6, sendsOn s c p = true) :
    exec (.collectiveEnd h 0) s = .next s := by
  obtain ⟨p, hp, hsend⟩ := hsends
  have hany : (List.range 6).any (sendsOn s c) = true := List.any_eq_true.mpr ⟨p, List.mem_range.mpr hp, hsend⟩
  refine exec_waits hs (a := actCollectiveEnd h.val 0) rfl ?_
  rw [after_actCollectiveEnd h hc hrecord 0 (.inr ⟨rfl, hok⟩), hany, after_act, if_neg (by decide)]

theorem does_collectiveEnd_fault {st : BitVec 8} (hbad : endStatus s c = .bad st.toNat) (hst : 0x80 ≤ st.toNat) : Does (.collectiveEnd h st)
    s [.ctl, .mem, .chk, .farMem, .packets, .touched, .mergeBuf, .bx, .coll, .ended, .dumpRun, .freeCtr, .out] fun t =>
      t.coll = s.coll.filter (fun x => decide (x ≠ c)) ∧ bit (rd t (ringAddr 24 h.val + 4)) 30 = true ∧
      rd t (ringAddr 24 h.val + 12) = BitVec.ofNat 32 st.toNat ∧ bit (rd t (bxPage 0 + 0x20)) 13 = true := by
  have hherd := herd_of_ended h hc
  have h0 : st ≠ 0 := fun he => by
    rw [he] at hst
    exact absurd hst (by decide)
  have hbody : after (actCollectiveEnd h.val st) s =
      after (collGone s c) (after (collFault s c st.toNat) (after (collRecord s c st.toNat) s)) := by
    rw [after_actCollectiveEnd h hc hrecord st (.inl hbad), decide_eq_false h0, Bool.false_and, after_act, if_pos (by decide), after_endCollective, after_act,
      if_pos (decide_eq_true hst)]
  have hwrites := within_collRecord s c st.toNat
  have hfault := within_collFault s c st.toNat
  have hgone := within_collGone s c
  obtain ⟨hhalted, hstatus, hist⟩ := shown_collFault s (after (collRecord s c st.toNat) s) (c := c) (hherd ▸ h.isLt) st.toNat
  refine does_of_run hs.1 (a := actCollectiveEnd h.val st) rfl ?_ ?_ <;> rw [hbody]
  · exact ((hwrites.onlyIn s).wider rfl).trans (((hfault.onlyIn _).wider rfl).trans ((hgone.onlyIn _).wider rfl))
  · rw [← hherd, (hgone.keepsReg _).rd, (hgone.keepsReg _).rd, (hgone.keepsReg _).rd]
    refine ⟨?_, hhalted, hstatus, hist⟩
    rw [(gone_collGone ..).1, hfault.coll, hwrites.coll]

end

/-- Settles O44: collectives are taken and start, join what arrives, and end; multicasts are asked for, granted, sent and done. -/
theorem collectivesRun : Obligations.CollectivesRun := by
  unfold Obligations.CollectivesRun
  refine ⟨?_, ?_, ?_, ?_, ?_, fun s hs f hf => ⟨?_, ?_, ?_, ?_, ?_⟩, ?_⟩
  · exact fun s hs h ws hmatch hpod hruns hfence hroom hstarted c hc => does_collectiveTake hs h hmatch hpod hruns hfence hroom hstarted hc
  · intro s hs h c d p bs k n hnone hc hbad h7 h8 h9 hnew hfin hpass hoff hp hbs hd hmore hn
    have hstart {i : Instr} (hexec : exec i s = run (seq [startPasses h.val k, servePasses]) s) :=
      does_startPasses hs h hnone hc hbad h7 h8 h9 hnew hfin hpass hoff hp hbs hd hmore hn hexec
    exact ⟨fun hk => hstart (i := .reduceScatter h) (hk ▸ rfl), fun hk => hstart (i := .allReduce h) (hk ▸ rfl),
      fun hk => hstart (i := .allGather h) (hk ▸ rfl), fun hk => hstart (i := .broadcast h) (hk ▸ rfl), fun hk => hstart (i := .reduce h) (hk ▸ rfl)⟩
  · exact fun s hs h c bs hc hbad hbs hroot => does_send hs h hc hbad hbs hroot
  · exact fun s hs h c hc hkind hbad hbulk hown => does_multicast hs h hc hkind hbad hbulk hown
  · exact fun s hs h c bs hc hwait hbs hown hsome => does_multicastSend hs h hc hwait hbs hown hsome
  · exact fun n hmc hn hsrc => does_mreq hs hf hmc hn hsrc
  · exact fun g hmc hg => does_mrel hs hf hmc hg
  · exact fun g data hheld hmc hg hgranted hpoison hwait hend hmore => does_mcd hs hf hheld hmc hg hgranted hpoison hwait hend hmore
  · exact fun hmc => does_abort hs hf hmc
  · intro c hc
    refine ⟨does_mgnt hs hf hc, does_mdone hs hf hc, fun data i j vs hnone hpass hon hkind hcount hpoison hfin hj hvs => ⟨fun hp hown hmore => ?_,
      fun hp hend hmore => ?_⟩⟩
    · exact does_redFrame hs hf hc hnone hpass hon hkind hcount hpoison hj hvs hfin hp hown hmore
    · exact does_gat hs hf hc hnone hpass hon hkind hcount hpoison hj hvs hp hend hmore
  · exact fun s hs h c st hc hrecord => ⟨fun hok hquiet => does_collectiveEnd_good hs h hc hrecord hok hquiet,
      fun hok hsends => exec_collectiveEnd_waits hs h hc hrecord hok hsends, fun hbad hst => does_collectiveEnd_fault hs h hc hrecord hbad hst⟩

end Sys2Proof.Machine
end
